-- ==== Sys2Proof/Word.lean ====
section
/-! DEFINITION. The word types of the GH-8640 and their plainest arithmetic.
BAR0 registers are 32-bit (R5); a time-base tick is 8 ns; records and payloads are bytes. -/
namespace Sys2Proof

/-- One BAR0 register, one Granary word, one Tiller memory word (R5, R161). -/
abbrev Word := BitVec 32

/-- One byte of a frame, record or host structure. -/
abbrev Byte := BitVec 8

/-- The value of a word read as two's complement. -/
abbrev sint (w : Word) : Int := w.toInt

/-- The word that holds an integer modulo 2^32. -/
abbrev wordOf (i : Int) : Word := BitVec.ofInt 32 i

end Sys2Proof
end

