-- ==== Sys2Proof/Syntax.lean ====
section
/-! DEFINITION. The commands of the GH-8640: one constructor of `Instr` for each row of spec/opcode_table.json, with the
operands that the outside world gives with it. A unit is named by its index; a physical happening (a frame, an edge, a
level, a measured quantity) carries what the device sees of it. -/
namespace Sys2Proof

/-- Severity of a record (R387). -/
inductive Sev where
  | info | notice | fault | fatal
  deriving DecidableEq, Repr

/-- Plane of a requester or a record (R36, R387). -/
inductive Plane where
  | data | control | management | wedgeSafe
  deriving DecidableEq, Repr

/-- Who asks for a correction of the time base (R55): the host's registers, the management core with the values of its
own staging registers (R53), or a twin port. -/
inductive CorrSrc where
  | host
  | mgmt (neg : Bool) (sec ns : Nat)
  | twin (port : Fin 2)
  deriving DecidableEq, Repr

/-- An NS word of the time base whose read captures its seconds words (R71). -/
inductive NsReg where
  | now | step | trg (ch : Fin 16)
  deriving DecidableEq, Repr

/-- One request at an arbiter (R35 to R38): the tick in which its handshake began, its plane, class and index, and whether its tick
sampler took longer than 2 ns to resolve (R37). -/
structure ArbReq where
  tag : Nat
  plane : Plane
  cls : Nat
  idx : Nat
  slow : Bool := false
  deriving DecidableEq, Repr

/-- The kinds of IEEE 1588 messages (R68). -/
inductive PtpKind where
  | sync | followUp | announce | delayReq | delayResp | other
  deriving DecidableEq, Repr

/-- How a PTP message is carried (R68). -/
inductive PtpTransport where
  | udpIpv4 | ethernet | udpIpv6
  deriving DecidableEq, Repr

/-- A PTP message as the management core takes it (R68): its version, domain and kind, its transport, whether it is multicast, the
interval it announces (logarithm to base 2, seconds), the offset from the master in
ns that it completes a measurement of (none when it completes none), and the port state that the best master clock
algorithm leaves. -/
structure PtpMsg where
  version : Nat
  domain : Nat
  kind : PtpKind
  transport : PtpTransport
  multicast : Bool
  logInterval : Int
  offset : Option Int
  portState : Fin 8
  deriving DecidableEq, Repr

/-- A received frame as a port's MAC and MACsec see it (R80, R81, R83): its length from destination address to FCS, the
verdicts of the FCS, the SecTAG and the ICV, its addresses and EtherTypes, the association number and packet number,
the 20 bytes of the Ryfoid header, the payload before the pad, and the arrival stamp in time-base ticks. -/
structure Frame where
  port : Nat
  len : Nat
  fcsOk : Bool
  da : Nat
  sa : Nat
  vlan : Bool
  outer : Nat
  tagOk : Bool
  icvOk : Bool
  an : Nat
  pn : Nat
  inner : Nat
  hdr : List Byte
  payload : List Byte
  stamp : Nat
  deriving DecidableEq, Repr

/-- What a port's transceiver shows (R72, R76): module present, RX_LOS and TX_FAULT of an SFP module, block lock or clause 36
synchronisation, hi_ber, and auto-negotiation complete. -/
structure LinkPins where
  present : Bool
  los : Bool
  txFault : Bool
  lock : Bool
  hiBer : Bool
  anDone : Bool
  deriving DecidableEq, Repr

/-- What the reconciliation sublayer reports (R76). -/
inductive LinkFault where
  | none | localFault | remoteFault
  deriving DecidableEq, Repr

/-- A word of a protected memory (R178, R246, R287, R294, R315, R331, R350, R396, R401). For a Tiller the word is named by its memory
(0 P, 1 X, 2 plain Y, 3 and 4 the window banks, 5 the window status word) and address; the words of the task table and program memory
by their word number, those of the recorder by the sequence number of their record, those of the Orangery by the entry of the fault
log. -/
inductive ScrubMem where
  | tiller (n : Fin 64) (mem : Fin 6) (addr : Nat)
  | scratch (e : Fin 9) (addr : Nat)
  | tasks (i : Fin 32768)
  | meProg (w : Fin 4096)
  | granary (word : Nat)
  | recorder (seq : Nat)
  | orangery (entry : Nat)
  | distance (addr : Nat)
  | belvedere (addr : Nat)
  deriving DecidableEq, Repr

/-- A stored word that has been hit: where it stands, and whether more than one of its bits is wrong. -/
structure Hit where
  mem : ScrubMem
  uncorrectable : Bool
  deriving DecidableEq, Repr

/-- A descriptor in progress: its submission ring and the host's TAG (R342). -/
structure DescId where
  ring : Fin 32
  tag : Nat
  deriving DecidableEq, Repr

/-- The phase an engine stops in at a cut (R255). -/
inductive CutPhase where
  | former | factor | step
  deriving DecidableEq, Repr

/-- The fields of a MOVE (R318): what its five words hold, with a happening of its execution: the number of bursts done when an ABORT, a power request or a boundary stops it (none
when it runs to its end). -/
structure MoveOp where
  barrier : Bool
  swap : Bool
  esize : BitVec 2
  streams : BitVec 6
  count : BitVec 8
  cond : Bool
  src : BitVec 32
  dst : BitVec 32
  sstr : BitVec 16
  dstr : BitVec 16
  sest : BitVec 16
  dest : BitVec 16
  bursts : Option Nat := none
  deriving DecidableEq, Repr

/-- A wrong distance that a lane of the distance engine returns for a pair of capsules (the hardware fault of chapter 11's worked
example): the first capsule's index, whether the second is an obstacle, the second's index, and the surface distance returned (Q8.24
m). -/
structure LaneFault where
  capsule : Nat
  obstacle : Bool
  other : Nat
  d : Int
  deriving DecidableEq, Repr

/-- What a Tiller image holds for one Tiller: program, contents of X and plain Y, declared budget, write map, and the
regions whose gain blocks it has. -/
structure TlImage where
  tiller : Nat
  prog : List Word
  x : List (Nat × Word)
  y : List (Nat × Word)
  budget : Nat
  writeMap : List Nat
  regions : Nat
  deriving DecidableEq, Repr

/-- The kinds of internal variables that a solver image gives a Q format (R239): step constants, positions, speeds, accelerations and
shares or scalings; weights and gradients of the cost; coefficients and bounds of the rows; inertia, bias and torque; slacks, duals and
their reciprocals and quotients; residuals and their mean product; the value function, the input block with its factor, pivots and their
reciprocals, gains, and the linear terms; the steps of variables, slacks and duals with their lengths and the centring; and the three
quantities of the infeasibility certificate. -/
inductive SvVar where
  | step | pos | vel | acc | cell
  | weight | grad | coef | bound
  | inertia | bias | torque
  | slack | dual | invSlack | barrier
  | resP | resD | gap
  | value | block | factor | pivot | invPivot | gain | linear
  | stepZ | stepS | stepL | length | centre
  | certY | certW | certR
  deriving DecidableEq, Repr

/-- A row of the image's format table: a kind of internal variable, the index of its first variable (R243), and its fraction bits. -/
structure VarForm where
  kind : SvVar
  var : Nat
  q : Nat
  deriving DecidableEq, Repr

/-- A range of a certificate (R243): the variable index, the element of a separation row, its fraction bits, and its lower and upper
bound as words. -/
structure CertRange where
  var : Nat
  sub : Nat
  q : Nat
  lo : Int
  hi : Int
  deriving DecidableEq, Repr

/-- A range certificate (R243): its format version, the image identifier and dimensions it was made for, the verdict of its check value,
the iteration count proven, the floors assumed (S_MIN, LAM_MIN, REG, PIV_MIN), the ranges of parameters and of live inputs, and the
reported bounds of internal variables. -/
structure SvCert where
  version : Nat
  ident : Nat
  nj : Nat
  n : Nat
  m : Nat
  v : Nat
  rc : Nat
  checkOk : Bool
  iterBound : Nat
  floors : List Int
  params : List CertRange
  live : List CertRange
  bounds : List CertRange
  deriving DecidableEq, Repr

/-- What a solver image holds: its dimensions, the declared budget, its format table for internal variables and for the words of the
parameter block that depart from R237's formats (word offset and fraction bits), and its certificate. -/
structure SvImage where
  nj : Nat
  n : Nat
  m : Nat
  v : Nat
  rc : Nat
  budget : Nat
  forms : List VarForm
  paramQ : List (Nat × Nat)
  cert : SvCert
  deriving DecidableEq, Repr

/-- A model image as the loader reads it: identifier, format version, the verdict of its check value, and its parts. -/
structure Image where
  ident : Nat
  fmt : Nat
  checkOk : Bool
  tillers : List TlImage
  solver : Option SvImage
  deriving DecidableEq, Repr

/-- How a long operation ends (R356): its own reason, what it found or made, and the detail word W7. -/
inductive LongEnd where
  | image (img : Option Image) (space : Bool)
  | tests (records : List Word) (firstBad : Option Nat)
  | solved (words : List Word)
  | dumped
  | firmware (words : List Word) (version : Nat)
  | dmaError
  deriving DecidableEq, Repr

/-- The fuse array as the time island loads it (R448): the verdict of its check code, the identity fields, the MAC base,
the calibration counts and the two digests. -/
structure Fuses where
  ok : Bool
  vendor : Nat
  stepping : Nat
  mac : Nat
  bootKey : Nat
  injKey : Nat
  sundial : List Nat
  deriving DecidableEq, Repr

/-- One firmware slot as the boot ROM finds it (R450): whether its image verifies, and its version. -/
structure FwSlot where
  valid : Bool
  version : Nat
  deriving DecidableEq, Repr

/-- A power island (R452): a Tiller, an engine (8 is CE with the distance engine), the common part of a fabric region, or
the lane of a serial port (0 to 3 CB, 4 and 5 TW). -/
inductive Island where
  | tiller (n : Fin 64)
  | engine (e : Fin 9)
  | fabric (r : Fin 9)
  | lane (p : Fin 6)
  deriving DecidableEq, Repr

/-- What made the power-fail signal (R442): PFAIL_N, or a supply below its power-fail threshold. -/
inductive PfCause where
  | pin | vddc | vddt | vddio33
  deriving DecidableEq, Repr

/-- The commands, in the order of the table. -/
inductive Instr where
  -- Time base, cycle and cell (chapters 01, 02)
  | timeBaseTick (upset : Nat) (hit : Option Hit)
  | cycleBoundary
  | solverPeriodBoundary
  | sundialWindowEnd (pace : List Nat) (mv : Nat)
  | arbiterRound (arbiter : Nat) (region : Fin 10) (reqs : List ArbReq)
  | escalation
  | commitSwap
  | shadowCopyEnd
  | windowBoundary
  | tbRefLoss
  | tbUnlock
  | refRelock
  | stepAbsolute (src : CorrSrc)
  | stepRelative (src : CorrSrc)
  | stepPtp
  | stepApply
  | fracWrite (src : CorrSrc) (frac : Int)
  | fracApply
  | captureEdge (ch : Fin 16) (src : Nat) (rising : Bool)
  | capRead (ch : Fin 16)
  | tbNsRead (reg : NsReg)
  | lowWordRead (off : Nat)
  | rcRead (off : Nat) (jtag : Bool)
  | triggerArm (ch : Fin 16) (action target : Nat)
  | triggerFire (ch : Fin 16)
  | ppsOutRise
  | ppsOutFall
  | ptpMessageRx (m : PtpMsg)
  | ptpMessageTx (kind : PtpKind)
  | ptpMasterLost (portState : Fin 8)
  -- Ryfoid cell bus (chapters 03, 04); ports 4 and 5 are TW0 and TW1
  | linkUp (p : Fin 6)
  | linkDown (p : Fin 6)
  | trainingTimeout (p : Fin 6)
  | trainingRetry (p : Fin 6)
  | linkRetrain (p : Fin 6)
  | cyclicFrameRx (f : Frame)
  | cbDrift (p : Fin 1024)
  | quarantine (p : Fin 1024)
  | acyclicFrameRx (f : Frame)
  | referenceFrameRx (f : Frame)
  | delayResponseRx (f : Frame)
  | joinAnnounceRx (f : Frame)
  | joinValidRx (f : Frame)
  | twinFrameRx (f : Frame)
  | echoFrameRx (f : Frame)
  | macsecChangeover (p : Fin 6)
  | rxSaRetire (p : Fin 6)
  | slotLaunch (s : Fin 8192)
  | acyclicLaunch (p : Fin 4)
  | acycWindowEnd (p : Fin 4)
  | referenceLaunch (p : Fin 4)
  | partnerActivate (p : Fin 1024)
  | cbJoinTimeout (p : Fin 1024)
  | slotMissing (s : Fin 8192)
  | slotSelect (s : Fin 8192)
  -- Feedback (chapter 05)
  | dpSample (m : Fin 8)
  | dpEdge (m : Fin 8) (a b : Bool)
  | hallEdge (m : Fin 8) (uvw : Fin 8)
  | indexEvent (m : Fin 8)
  | ssiFrameStart (m : Fin 8)
  | ssiFrameEnd (m : Fin 8)
  | feedbackUpdate (n : Fin 64)
  | fbLost (n : Fin 64)
  | fbStandstill (n : Fin 64)
  | eoEnable (k : Fin 4)
  -- Tiller slices and joint control (chapters 06, 07)
  | mpy4 (tl : Fin 64) (lanes : BitVec 4) (cond : BitVec 3) (xa : BitVec 9) (yq : BitVec 7)
  | mac4 (tl : Fin 64) (lanes : BitVec 4) (cond : BitVec 3) (xa : BitVec 9) (yq : BitVec 7)
  | msu4 (tl : Fin 64) (lanes : BitVec 4) (cond : BitVec 3) (xa : BitVec 9) (yq : BitVec 7)
  | ftap (tl : Fin 64) (lane : BitVec 2) (sub : Bool) (xa : BitVec 9) (ya : BitVec 9)
  | lda (tl : Fin 64) (lanes : BitVec 4) (cond : BitVec 3) (space : Bool) (addr : BitVec 9) (shl : BitVec 6)
      (quad : Bool)
  | st (tl : Fin 64) (lanes : BitVec 4) (cond : BitVec 3) (space : Bool) (addr : BitVec 9) (shr : BitVec 6)
      (quad : Bool)
  | adda (tl : Fin 64) (dst src : BitVec 2) (cond : BitVec 3)
  | suba (tl : Fin 64) (dst src : BitVec 2) (cond : BitVec 3)
  | mova (tl : Fin 64) (dst src : BitVec 2) (cond : BitVec 3)
  | clamp (tl : Fin 64) (lanes : BitVec 4) (ya : BitVec 9) (shl : BitVec 6)
  | tst (tl : Fin 64) (space : Bool) (addr : BitVec 9) (bit : BitVec 5) (inv : Bool)
  | clr (tl : Fin 64) (lanes : BitVec 4)
  | tlNop (tl : Fin 64)
  | tlEnd (tl : Fin 64)
  | tlSatTime (tl : Fin 64)
  | preloadFallbackStart (tl : Fin 64)
  | preloadComplete (tl : Fin 64)
  | scrubRead (mem : ScrubMem)
  | armServoOn (d : DescId)
  | armServoStop (d : DescId)
  | armServoResume (d : DescId)
  | armServoReset (d : DescId)
  | armServoApply (g : Fin 8)
  | standstillReached (g : Fin 8)
  | ss1TimeoutExpiry (g : Fin 8)
  -- Motion (chapter 08)
  | generatorSample (g : Fin 80)
  | movePlan (g : Fin 80)
  | velocityWordLoad (k : Fin 16)
  | stkRdyChange (k : Fin 16) (rdy : Bool)
  | axinLevelChange (n : Fin 48) (level : Bool)
  | mpChatter (n : Fin 48)
  | homeShift (g : Fin 80)
  -- Solvers (chapters 09, 10)
  | solveEnd (e : Fin 9)
  | solveCut (e : Fin 9) (phase : CutPhase) (iter : Nat)
  | svStopReq (e : Fin 9)
  | forceColdWrite (e : Fin 9)
  -- Separation (chapter 11)
  | sepProtectionEnd (faults : List LaneFault)
  | sepRowsEnd
  | sepGeomFail
  | bvPoseStart
  | bvComparison
  | sepBvMissed
  | bvDelayExpiry (g : Fin 8)
  | sepBvSs1 (g : Fin 8)
  -- Scheduler (chapter 12)
  | schedulerTick
  | taskReleaseCycle (i : Fin 4096)
  | taskReleaseDemand (i : Fin 4096)
  | jobDispatchReserved (i : Fin 4096)
  | edfRound
  | deadlineMiss (i : Fin 4096)
  -- Move engines (chapter 13)
  | meMoveCopy (c : Fin 16) (m : MoveOp)
  | meMovePack (c : Fin 16) (m : MoveOp)
  | meMoveUnpack (c : Fin 16) (m : MoveOp)
  | meLoop (c : Fin 16) (target : BitVec 12) (count : BitVec 16)
  | meWaitSlot (c : Fin 16) (index : BitVec 13) (num : BitVec 6)
  | meWaitTiller (c : Fin 16) (index : BitVec 13) (num : BitVec 6)
  | meWaitTime (c : Fin 16) (offset : BitVec 17)
  | meWaitBoundary (c : Fin 16) (solver : Bool)
  | meWaitFlag (c : Fin 16) (ch : Fin 16)
  | meWaitComplete (c : Fin 16)
  | meBarrierRelease (c : Fin 16)
  | meSignalHandover (c : Fin 16) (slot : Fin 8192)
  | meSignalFlag (c : Fin 16) (ch : Fin 16)
  | meSignalEvent (c : Fin 16) (index : BitVec 13)
  | meSignalDone (c : Fin 16)
  | meCtrlStart (d : DescId)
  | meCtrlAbort (d : DescId)
  | meCtrlReset (d : DescId)
  -- Host interface (chapter 14)
  | sqDoorbell (q : Fin 32) (tail : Word)
  | cqDoorbell (c : Fin 32) (idx : Word)
  | sqEnable (q : Fin 32)
  | sqDisable (q : Fin 32)
  | cqEnable (c : Fin 32)
  | cqDisable (c : Fin 32)
  | descriptorFetch (q : Fin 32) (words : Option (List Word))
  | msixMessage (c : Fin 32)
  | hostReset
  | bar0BadAccess (write : Bool)
  | regWrite (off : Nat) (val : Word)
  -- Descriptors; a host read made by the action is an operand (none when the read fails)
  | nop (d : DescId)
  | paramWrite (d : DescId) (data : Option (List Word))
  | commit (d : DescId)
  | snapshot (d : DescId) (restarts : Nat)
  | imageLoad (d : DescId)
  | selfTest (d : DescId)
  | offlineSolve (d : DescId)
  | bbDump (d : DescId)
  | fwUpdate (d : DescId)
  | longAbort (d : DescId)
  | longOpStatusUpdate (d : DescId) (progress total : Nat) (part : Option (List Word)) (w7 : Word)
  | longOpEnd (d : DescId) (r : LongEnd)
  | move (d : DescId)
  | moveGroup (d : DescId) (targets : Option (List Int))
  | abort (d : DescId)
  | home (d : DescId)
  | mpClear (d : DescId)
  | fbClear (d : DescId)
  | macsecKey (d : DescId)
  | macsecKek (d : DescId)
  | partnerRelease (d : DescId)
  | partnerQuarantine (d : DescId)
  | acyclicSend (d : DescId) (payload : Option (List Byte))
  | acyclicRecv (d : DescId)
  | twCmdHandover (d : DescId)
  | twCmdSwitchBack (d : DescId)
  | twCmdAlign (d : DescId)
  | twCmdRepair (d : DescId)
  | evCmdFreeze (d : DescId)
  | evCmdUnfreeze (d : DescId)
  | evCmdAck (d : DescId)
  | evCmdMark (d : DescId)
  | evCmdClear (d : DescId)
  | evCmdClearFatal (d : DescId)
  | evCmdBbRelease (d : DescId)
  | evCmdBbErase (d : DescId)
  | injCmdLoadKey (d : DescId)
  | injCmdClearKey (d : DescId)
  | injCmdArm (d : DescId)
  | injCmdDisarm (d : DescId)
  | injCmdDisarmAll (d : DescId)
  -- Enabling and disabling the cell (chapter 14)
  | cellEnable
  | enableCheckEnd (us : Nat)
  | cellDisable
  | disableComplete
  | disableTimeout
  -- Twin operation (chapter 15); a twin message comes as a frame on port 4 or 5 with its bytes as payload
  | leaseTx
  | leaseRx (f : Frame)
  | ackTx
  | ackRx (f : Frame)
  | claimRx (f : Frame)
  | releaseRx (f : Frame)
  | xferRx (f : Frame)
  | syncExchange (p : Fin 2) (sent : List Nat)
  | syncRx (f : Frame)
  | statusTx
  | statusRx (f : Frame)
  | echoTx (p : Fin 4)
  | renewalToken
  | leaseExpiry
  | releasedHolderTimeout
  | twHandoverSwitch
  | twinPeerOff
  | transferTimeout
  | twPaired
  | twDigestMissing
  | twEchoLost (p : Fin 4)
  | switchbackHoldoff
  -- Event recorder, Orangery, injection (chapter 16)
  | eventInputPost
  | recordStore
  | evFreezeTimeout
  | evCursorWrite (seq : Word)
  | eventInterrupt
  | pretriggerMove
  | orangeryCommitRecord
  | bbEscOnly
  | powerLossSnapshot
  | evFreezeDbg (hold : Bool)
  | evReadDbg (seq : Word)
  | bbReadDbg (sect offset : Nat)
  | bbResponderRequest (sect offset : Nat)
  -- Analogue inputs and safety I/O (chapter 17)
  | adcConversionEnd (nv : Int)
  | adLimit (e : Fin 16)
  | adcUrgentRequest (e : Fin 16)
  | adcResRead (e : Fin 16)
  | safetyInputChange (ch : Fin 12) (level : Bool)
  | safetyDiscrepancy (i : Fin 6)
  | estopSs1Expiry
  | stoReadbackMismatch (p : Fin 10) (chB readsHigh : Bool)
  | stoTestPulse (p : Fin 10) (okA okB : Bool)
  | globalRelease
  | ioWdog
  | wedgeSafeBoundary
  -- Power and reset (chapter 18)
  | powerOn
  | pinReset
  | softReset (key : BitVec 16)
  | powerFailSignal (cause : PfCause)
  | pwSupply (supply : Fin 9) (good : Bool)
  | resetRelease
  | timeIslandLock (f : Fuses)
  | memoryClearComplete
  | secureBootComplete (slot0 slot1 : FwSlot) (ms : Nat)
  | pwVr (pgood vddcOut : Bool)
  | holdupOkSet
  | pwHoldupLow
  | islandPowerOff (i : Island)
  | islandPowerOn (i : Island)
  | forceOffWrite (reg : Fin 3) (val : Word)
  | pwIslandForced (i : Island)
  | pwMgmtWdog
  | pwNvosc
  | nvOscStop
  | tempReading (tj : Int)
  | upConditionsChange (p : Fin 6) (q : LinkPins)
  | localRemoteFault (p : Fin 6) (f : LinkFault)
  | vddnvLoss
  deriving DecidableEq, Repr

end Sys2Proof
end

