-- ==== Sys2Proof/WellFormed.lean ====
section
/-! DEFINITION. Which commands are well formed. A Tiller instruction is well formed when the image loader accepts it
(R169); a move-engine instruction when the enable check accepts its fields (reason 0x78); every other command always. -/
namespace Sys2Proof

/-- COND has a meaning (R166). -/
def condOk (c : BitVec 3) : Bool := decide (c.toNat ≤ 4)

/-- Exactly one lane is selected, or the access is a quad (R169). -/
def storeLanesOk (lanes : BitVec 4) (quad : Bool) : Bool :=
  quad || decide (lanes = 1) || decide (lanes = 2) || decide (lanes = 4) || decide (lanes = 8)

/-- A quad access stays inside the memory (R169). -/
def quadOk (addr : BitVec 9) (quad : Bool) : Bool := !quad || decide (addr.toNat + 3 ≤ 511)

/-- A PACK or UNPACK moves elements of at most 4 bytes (R320). -/
def packOk (m : MoveOp) : Bool := decide (m.esize ≠ 3)

/-- Whether a command is one that can be given to the device. -/
def Instr.wf : Instr → Bool
  | .mpy4 _ lanes cond _ _ => decide (lanes ≠ 0) && condOk cond
  | .mac4 _ lanes cond _ _ => decide (lanes ≠ 0) && condOk cond
  | .msu4 _ lanes cond _ _ => decide (lanes ≠ 0) && condOk cond
  | .ftap _ _ _ xa _ => decide (xa ≠ 511)
  | .lda _ lanes cond _ addr shl quad =>
    decide (lanes ≠ 0) && condOk cond && quadOk addr quad && decide (shl.toNat ≤ 40)
  | .st _ lanes cond space addr _ quad =>
    decide (lanes ≠ 0) && condOk cond && storeLanesOk lanes quad && quadOk addr quad
      && !(space && decide (addr.toNat < 128))
  | .adda _ _ _ cond => condOk cond
  | .suba _ _ _ cond => condOk cond
  | .mova _ _ _ cond => condOk cond
  | .clamp _ lanes ya shl =>
    decide (lanes ≠ 0) && decide (ya.toNat % 2 = 0) && decide (ya.toNat ≤ 510) && decide (shl.toNat ≤ 40)
  | .clr _ lanes => decide (lanes ≠ 0)
  | .meMovePack _ m => packOk m
  | .meMoveUnpack _ m => packOk m
  | _ => true

end Sys2Proof
end

