-- ==== Sys2Proof/Decode.lean ====
section
/-! DEFINITION. The words that the spec gives an encoding for. The command table gives its rows no bits, so no word spells a
command there. The spec does encode the words of a Tiller's program memory (R167, R168) and of the move engines' program
memory (R318): they are decoded and encoded here, for the image loader (R169, R171) and the enable check. -/
namespace Sys2Proof

/-- The command that a word spells by the bits of the command table: the table gives its rows no bits. -/
def decodeTableWord (_nbits _w : Nat) : Option Instr := none

/-- Bits `hi` to `lo` of a program word, as a bit vector of `n` bits. -/
def field (w : Word) (lo n : Nat) : BitVec n := BitVec.ofNat n (w.toNat / 2 ^ lo)

/-- One bit of a program word. -/
def bitAt (w : Word) (i : Nat) : Bool := w.getLsbD i

/-- The bits of `w` under `mask` are all 0. -/
def reservedClear (w : Word) (mask : Nat) : Bool := decide (w &&& BitVec.ofNat 32 mask = 0)

/-- A command, if it is well formed. -/
def accept (i : Instr) : Option Instr := if i.wf then some i else none

/-- The instruction of Tiller `n` that a program word holds (R167, R168), none for a word that R169 refuses. -/
def tillerDecode (n : Fin 64) (w : Word) : Option Instr :=
  let lanes := field w 23 4
  let cond := field w 20 3
  match (field w 27 5).toNat with
  | 0x00 => if reservedClear w 0x07FFFFFF then some (.tlNop n) else none
  | 0x01 => if reservedClear w 0x0000000F then accept (.mpy4 n lanes cond (field w 11 9) (field w 4 7)) else none
  | 0x02 => if reservedClear w 0x0000000F then accept (.mac4 n lanes cond (field w 11 9) (field w 4 7)) else none
  | 0x03 => if reservedClear w 0x0000000F then accept (.msu4 n lanes cond (field w 11 9) (field w 4 7)) else none
  | 0x04 =>
    if reservedClear w 0x00E00007 then accept (.ftap n (field w 25 2) (bitAt w 24) (field w 12 9) (field w 3 9)) else none
  | 0x05 =>
    if reservedClear w 0x00000007 then
      accept (.lda n lanes cond (bitAt w 19) (field w 10 9) (field w 4 6) (bitAt w 3))
    else none
  | 0x06 =>
    if reservedClear w 0x00000007 then
      accept (.st n lanes cond (bitAt w 19) (field w 10 9) (field w 4 6) (bitAt w 3))
    else none
  | 0x07 => if reservedClear w 0x000FFFFF then accept (.adda n (field w 25 2) (field w 23 2) cond) else none
  | 0x08 => if reservedClear w 0x000FFFFF then accept (.suba n (field w 25 2) (field w 23 2) cond) else none
  | 0x09 => if reservedClear w 0x000FFFFF then accept (.mova n (field w 25 2) (field w 23 2) cond) else none
  | 0x0A => if reservedClear w 0x0078000F then accept (.clamp n lanes (field w 10 9) (field w 4 6)) else none
  | 0x0B =>
    if reservedClear w 0x07F0000F then some (.tst n (bitAt w 19) (field w 10 9) (field w 5 5) (bitAt w 4)) else none
  | 0x0C => if reservedClear w 0x007FFFFF then accept (.clr n lanes) else none
  | 0x1F => if reservedClear w 0x07FFFFFF then some (.tlEnd n) else none
  | _ => none

/-- A program word from an opcode and its fields, each a value and the position of its lowest bit. -/
def packWord (op : Nat) (fs : List (Nat × Nat)) : Word :=
  fs.foldl (fun w f => w ||| BitVec.ofNat 32 (f.1 <<< f.2)) (BitVec.ofNat 32 (op <<< 27))

/-- A bit as a number. -/
def bitNat (b : Bool) : Nat := if b then 1 else 0

/-- The program word of a Tiller instruction (R168); none for any other command. -/
def tillerEncode : Instr → Option Word
  | .tlNop _ => some (packWord 0x00 [])
  | .mpy4 _ l c xa yq => some (packWord 0x01 [(l.toNat, 23), (c.toNat, 20), (xa.toNat, 11), (yq.toNat, 4)])
  | .mac4 _ l c xa yq => some (packWord 0x02 [(l.toNat, 23), (c.toNat, 20), (xa.toNat, 11), (yq.toNat, 4)])
  | .msu4 _ l c xa yq => some (packWord 0x03 [(l.toNat, 23), (c.toNat, 20), (xa.toNat, 11), (yq.toNat, 4)])
  | .ftap _ l sub xa ya => some (packWord 0x04 [(l.toNat, 25), (bitNat sub, 24), (xa.toNat, 12), (ya.toNat, 3)])
  | .lda _ l c sp a sh q =>
    some (packWord 0x05 [(l.toNat, 23), (c.toNat, 20), (bitNat sp, 19), (a.toNat, 10), (sh.toNat, 4), (bitNat q, 3)])
  | .st _ l c sp a sh q =>
    some (packWord 0x06 [(l.toNat, 23), (c.toNat, 20), (bitNat sp, 19), (a.toNat, 10), (sh.toNat, 4), (bitNat q, 3)])
  | .adda _ d s c => some (packWord 0x07 [(d.toNat, 25), (s.toNat, 23), (c.toNat, 20)])
  | .suba _ d s c => some (packWord 0x08 [(d.toNat, 25), (s.toNat, 23), (c.toNat, 20)])
  | .mova _ d s c => some (packWord 0x09 [(d.toNat, 25), (s.toNat, 23), (c.toNat, 20)])
  | .clamp _ l ya sh => some (packWord 0x0A [(l.toNat, 23), (ya.toNat, 10), (sh.toNat, 4)])
  | .tst _ sp a b inv => some (packWord 0x0B [(bitNat sp, 19), (a.toNat, 10), (b.toNat, 5), (bitNat inv, 4)])
  | .clr _ l => some (packWord 0x0C [(l.toNat, 23)])
  | .tlEnd _ => some (packWord 0x1F [])
  | _ => none

/-- The time of a Tiller instruction at the guarantee pace, in ns (R170). -/
def tillerTime : Instr → Nat
  | .mpy4 .. | .mac4 .. | .msu4 .. => 20
  | .ftap .. => 24
  | .st .. | .clamp .. => 12
  | .tlEnd .. => 16
  | _ => 8

/-- The words a move-engine instruction occupies, by its first word (R318). -/
def meLength (w0 : Word) : Nat :=
  match (field w0 28 4).toNat with
  | 1 => 5
  | 3 => if (field w0 25 3).toNat = 2 then 2 else 1
  | _ => 1

/-- The fields of a MOVE from its five words (R318). -/
def moveFields (w0 w1 w2 w3 w4 : Word) : MoveOp :=
  { barrier := bitAt w0 25, swap := bitAt w0 24, esize := field w0 22 2, streams := field w0 16 6,
    count := field w0 8 8, cond := bitAt w0 7, src := w1, dst := w2, sstr := field w3 0 16, dstr := field w3 16 16,
    sest := field w4 0 16, dest := field w4 16 16 }

/-- The WAIT that channel `c` reads (R321); none for a reserved kind or a nonzero reserved field. -/
def waitDecode (c : Fin 16) (w0 w1 : Word) : Option Instr :=
  let index := field w0 0 13
  let num := field w0 13 6
  if !reservedClear w0 0x01F80000 then none
  else
    match (field w0 25 3).toNat with
    | 0 => some (.meWaitSlot c index num)
    | 1 => some (.meWaitTiller c index num)
    | 2 => if reservedClear w1 0xFFFE0000 then some (.meWaitTime c (field w1 0 17)) else none
    | 3 => some (.meWaitBoundary c (bitAt w0 0))
    | 4 => if h : index.toNat < 16 then some (.meWaitFlag c ⟨index.toNat, h⟩) else none
    | _ => none

/-- The SIGNAL that channel `c` reads (R321); none for a reserved kind or a nonzero reserved field. -/
def signalDecode (c : Fin 16) (w0 : Word) : Option Instr :=
  let index := field w0 0 13
  if !reservedClear w0 0x01FFE000 then none
  else
    match (field w0 25 3).toNat with
    | 0 => some (.meSignalHandover c ⟨index.toNat, by have := index.isLt; omega⟩)
    | 1 => if h : index.toNat < 16 then some (.meSignalFlag c ⟨index.toNat, h⟩) else none
    | 2 => some (.meSignalEvent c index)
    | 3 => some (.meSignalDone c)
    | _ => none

/-- The instruction that channel `c` reads from the program words that start with `ws` (R318), none for words that the
enable check refuses with reason 0x78. -/
def meDecode (c : Fin 16) (ws : List Word) : Option Instr :=
  match ws with
  | [] => none
  | w0 :: rest =>
    match (field w0 28 4).toNat with
    | 1 =>
      match rest with
      | w1 :: w2 :: w3 :: w4 :: _ =>
        if !reservedClear w0 0x0000007F then none
        else
          let m := moveFields w0 w1 w2 w3 w4
          match (field w0 26 2).toNat with
          | 0 => some (.meMoveCopy c m)
          | 1 => accept (.meMovePack c m)
          | 2 => accept (.meMoveUnpack c m)
          | _ => none
      | _ => none
    | 2 => some (.meLoop c (field w0 16 12) (field w0 0 16))
    | 3 => waitDecode c w0 (rest.headD 0)
    | 4 => signalDecode c w0
    | _ => none

end Sys2Proof
end

