-- ==== Sys2Proof/Config.lean ====
section
/-! DEFINITION. What the spec leaves open: values that nothing in Lean can evaluate. Each is a constant without a body,
applied to the operands it depends on or to a counter of the state that advances with every use. -/
namespace Sys2Proof.Config

/-- The output of the IEEE 1588 servo for the `k`-th use (R68 gives its bounds and not its law). Free value. -/
opaque ptpServo (k : Nat) : Int

/-- The output of the twin follow servo for the `k`-th use (R377 gives its purpose and not its law). Free value. -/
opaque twinServo (k : Nat) : Int

/-- What a word with an uncorrectable error reads as where the spec says 'as read' (R396). Free value. -/
opaque badWord (k : Nat) : BitVec 32

/-- The result of a wrapped-key unwrap (R87) with key-encryption key `kek` and the wrapped bytes: the key, or none where
the integrity check fails. AES key wrap is named by the spec and not given by it. -/
opaque keyUnwrap (kek : Nat) (wrapped : List (BitVec 8)) : Option Nat

/-- SHA-256, which R410 names, as a 256-bit big-endian number. -/
opaque sha256 (bytes : List (BitVec 8)) : Nat

/-- Whether an ECDSA P-256 signature over a firmware image verifies against the fused key digest (R356, R450). -/
opaque firmwareVerifies (key : Nat) (image : List (BitVec 32)) : Bool

/-- The configuration digest: the CRC-32C of every RWL field and of the parameter regions' active banks, in an order that the spec
does not give, from the words of the configuration in the model's order. -/
opaque configDigest (words : List (BitVec 32)) : BitVec 32

/-- Bytes 8 to 31 of a mirror record of kinds 3 and 4, whose content the spec does not lay out. Free value. -/
opaque mirrorContent (k : Nat) : List (BitVec 8)

/-- The digest D_state of R379 from the samples and outputs it covers, whose order and widths the spec does not give. -/
opaque stateDigest (values : List Int) : BitVec 32

/-- A mirrored reaction as the standby reads it from its record: arm-group mask, stop and cause (R378 gives no layout). -/
opaque mirrorReaction (content : List (BitVec 8)) : Nat × Nat × Nat

/-- A mirrored safe-torque-off state: the pair, and whether it is released (R378 gives no layout). -/
opaque mirrorPair (content : List (BitVec 8)) : Nat × Bool

/-- The targets of a mirrored MOVE_GROUP, which its record has no room for (R369). -/
opaque mirrorTargets (content : List (BitVec 8)) : List Int

/-- The ticks from the arrival of a SYNC request to the programmed launch of its response. Free value. -/
opaque syncTurn (k : Nat) : Nat

/-- The code of the `k`-th cause of R280 in SEP_PROTECT, which the spec does not number. Free value. -/
opaque protectCause (k : Nat) : BitVec 32

/-- What a separation status field holds when an arm has no obstacle (0 DMIN, 1 SP, 2 OBSTACLE, 3 BV_MARGIN). Free value. -/
opaque sepNone (field : Nat) : BitVec 32

/-- The base MAC address of the twin, whose CB port addresses R92 compares with; no register holds it. Free value. -/
opaque twinMac : Nat

/-- The ticks from the arrival stamp of a frame to the end of step 3 of the joint path, by port mode and wire bytes; the spec
gives them for a frame of 128 bytes only (R114). Free value. -/
opaque rxTicks (mode bytes : Nat) : Nat

/-- The byte of a GRANT descriptor that packs DIR, DIV and PHASE, whose places the spec does not give. Free value. -/
opaque grantByte (dir div phase : Nat) : BitVec 8

/-- A partner's delay from the twin's end, as the twin sent it to the holder (R377), by partner. Free value. -/
opaque twinPathDelay (partner : Nat) : Nat

/-- RESULT_A of ACYCLIC_RECV from its sender and length, whose places the spec does not give. Free value. -/
opaque acyclicResult (sender len : Nat) : BitVec 32

/-- A rounding or result that the spec states no value for. Free value. -/
opaque openInt (k : Nat) : Int

/-- The spare of the Orangery in per cent after a number of writes: the spec gives no block size and no write limit. Free
value. -/
opaque sparePct (writes : Nat) : Nat

/-- The first or last SEQ or cycle in the head of a dumped section whose records carry neither, by section and end. Free value. -/
opaque sectionMark (sect last : Nat) : BitVec 32

/-- The event code of the record that a device reset writes to the fault log (R446 says that it is a PW event and names none), by
the causes of the reset. Free value. -/
opaque resetEvent (causes : Nat) : Nat

/-- The position that the twin's partner table gives a partner; the spec does not say how the device learns it (reason 0x83). Free
value. -/
opaque twinPosition (partner : Nat) : Nat

/-- The code in JSTAT.CAUSE of a stop by a disable of the cell, which the cause table does not list (R360). Free value. -/
opaque disableCause (k : Nat) : Nat

/-- The slack of a row (kM + j) of the hold plan that an engine keeps as a start point; R253 gives its inputs and states only. Free value. -/
opaque holdSlack (row : Nat) : Rat

/-- The dual of a row of the hold plan. Free value. -/
opaque holdDual (row : Nat) : Rat

/-- The unit vector between the closest points of two segments that touch, by capsule pair and component; R284 gives none. Free value. -/
opaque contactNormal (capsule other i : Nat) : Int

/-- The closing speed of two arms that touch (Q8.24); R283 gives none. Free value. -/
opaque contactSpeed (capsule other : Nat) : Int

end Sys2Proof.Config
end

