-- ==== Sys2Proof/Machine/Codes.lean ====
section
/-! DEFINITION. The event codes (R389): bits 15:12 name the block, bits 11:0 the event within it. -/
namespace Sys2Proof.Machine.Ev

/-- SYS_ENABLED. -/
abbrev sysEnabled : Nat := 0x0001
/-- SYS_CHECK_FAILED. -/
abbrev sysCheckFailed : Nat := 0x0002
/-- SYS_DISABLED. -/
abbrev sysDisabled : Nat := 0x0003
/-- SYS_MAINT. -/
abbrev sysMaint : Nat := 0x0004
/-- SYS_WRITE_IGNORED. -/
abbrev sysWriteIgnored : Nat := 0x0005
/-- HI_LINK_RESET. -/
abbrev hiLinkReset : Nat := 0x0006
/-- HI_DMA_ERR. -/
abbrev hiDmaErr : Nat := 0x0007
/-- HI_DESC_ERR. -/
abbrev hiDescErr : Nat := 0x0008
/-- TB_REF_LOSS. -/
abbrev tbRefLoss : Nat := 0x1001
/-- TB_UNLOCK. -/
abbrev tbUnlock : Nat := 0x1002
/-- TB_MISCOMPARE. -/
abbrev tbMiscompare : Nat := 0x1003
/-- CAP_OVERRUN. -/
abbrev capOverrun : Nat := 0x1004
/-- TRG_LATE. -/
abbrev trgLate : Nat := 0x1005
/-- TB_CORR_REFUSED. -/
abbrev tbCorrRefused : Nat := 0x1006
/-- PTP_OFFSET. -/
abbrev ptpOffset : Nat := 0x1007
/-- PTP_MASTER_LOST. -/
abbrev ptpMasterLost : Nat := 0x1008
/-- TRG_MARKER. -/
abbrev trgMarker : Nat := 0x1009
/-- CB_FRAME_ERR. -/
abbrev cbFrameErr : Nat := 0x2001
/-- CB_MACSEC_AUTH. -/
abbrev cbMacsecAuth : Nat := 0x2002
/-- CB_UNPROTECTED. -/
abbrev cbUnprotected : Nat := 0x2003
/-- CB_PCRC. -/
abbrev cbPcrc : Nat := 0x2004
/-- CB_HDR. -/
abbrev cbHdr : Nat := 0x2005
/-- CB_SRC. -/
abbrev cbSrc : Nat := 0x2006
/-- CB_OWN. -/
abbrev cbOwn : Nat := 0x2007
/-- CB_POLICE. -/
abbrev cbPolice : Nat := 0x2008
/-- CB_IDENTITY. -/
abbrev cbIdentity : Nat := 0x2009
/-- CB_LINK_DOWN. -/
abbrev cbLinkDown : Nat := 0x200A
/-- CB_PN_HIGH. -/
abbrev cbPnHigh : Nat := 0x200B
/-- CB_PN_EXHAUSTED. -/
abbrev cbPnExhausted : Nat := 0x200C
/-- CB_PARTNER_FALLBACK. -/
abbrev cbPartnerFallback : Nat := 0x200D
/-- CB_QUARANTINE. -/
abbrev cbQuarantine : Nat := 0x200E
/-- CB_DRIFT. -/
abbrev cbDrift : Nat := 0x200F
/-- CB_MISSING. -/
abbrev cbMissing : Nat := 0x2010
/-- CB_OUTSIDE. -/
abbrev cbOutside : Nat := 0x2011
/-- CB_LAYOUT. -/
abbrev cbLayout : Nat := 0x2012
/-- CB_STALE. -/
abbrev cbStale : Nat := 0x2013
/-- CB_TX_LATE. -/
abbrev cbTxLate : Nat := 0x2014
/-- CB_SYNC_FALLBACK. -/
abbrev cbSyncFallback : Nat := 0x2015
/-- CB_JOIN_TIMEOUT. -/
abbrev cbJoinTimeout : Nat := 0x2016
/-- CB_BACKUP_REF. -/
abbrev cbBackupRef : Nat := 0x2017
/-- FB_INDEX_CORR. -/
abbrev fbIndexCorr : Nat := 0x3001
/-- FB_INDEX_ERR. -/
abbrev fbIndexErr : Nat := 0x3002
/-- FB_REF_SHIFTED. -/
abbrev fbRefShifted : Nat := 0x3003
/-- FB_QUAD_ERR. -/
abbrev fbQuadErr : Nat := 0x3004
/-- FB_SSI_ERR. -/
abbrev fbSsiErr : Nat := 0x3005
/-- FB_HALL_ERR. -/
abbrev fbHallErr : Nat := 0x3006
/-- FB_POS_JUMP. -/
abbrev fbPosJump : Nat := 0x3007
/-- FB_TURNS_WRAP. -/
abbrev fbTurnsWrap : Nat := 0x3008
/-- FB_LOST. -/
abbrev fbLost : Nat := 0x3009
/-- EO_OVERRUN. -/
abbrev eoOverrun : Nat := 0x300A
/-- EO_LOST. -/
abbrev eoLost : Nat := 0x300B
/-- TL_STORE_SAT. -/
abbrev tlStoreSat : Nat := 0x4001
/-- TL_ACC_OVF. -/
abbrev tlAccOvf : Nat := 0x4002
/-- TL_ECC_UNCORR. -/
abbrev tlEccUncorr : Nat := 0x4003
/-- TL_ECC_CORR. -/
abbrev tlEccCorr : Nat := 0x4004
/-- TL_OVERRUN. -/
abbrev tlOverrun : Nat := 0x4005
/-- TL_PRELOAD_LATE. -/
abbrev tlPreloadLate : Nat := 0x4006
/-- TL_SAT_TIME. -/
abbrev tlSatTime : Nat := 0x4007
/-- TL_REF_STALE. -/
abbrev tlRefStale : Nat := 0x4008
/-- TL_HOLD_LOST. -/
abbrev tlHoldLost : Nat := 0x4009
/-- TL_XFER_SAT. -/
abbrev tlXferSat : Nat := 0x400A
/-- TL_JOINT_STOP. -/
abbrev tlJointStop : Nat := 0x400B
/-- MP_LIMIT. -/
abbrev mpLimit : Nat := 0x5001
/-- MP_CHATTER. -/
abbrev mpChatter : Nat := 0x5002
/-- MP_LIMIT_DEFERRED. -/
abbrev mpLimitDeferred : Nat := 0x5003
/-- ST_DRV_LOST. -/
abbrev stDrvLost : Nat := 0x5004
/-- ST_UNHOMED. -/
abbrev stUnhomed : Nat := 0x5005
/-- ST_RATE. -/
abbrev stRate : Nat := 0x5006
/-- ST_FEED_LATE. -/
abbrev stFeedLate : Nat := 0x5007
/-- SV_CERT. -/
abbrev svCert : Nat := 0x6001
/-- SV_OVF. -/
abbrev svOvf : Nat := 0x6002
/-- SV_ECC_UNCORR. -/
abbrev svEccUncorr : Nat := 0x6003
/-- SV_ECC_CORR. -/
abbrev svEccCorr : Nat := 0x6004
/-- SV_INFEASIBLE. -/
abbrev svInfeasible : Nat := 0x6005
/-- SV_CUT. -/
abbrev svCut : Nat := 0x6006
/-- SV_COLD. -/
abbrev svCold : Nat := 0x6007
/-- SV_STOP_REQ. -/
abbrev svStopReq : Nat := 0x6008
/-- SEP_BV_DISAGREE. -/
abbrev sepBvDisagree : Nat := 0x7001
/-- SEP_BV_MISSED. -/
abbrev sepBvMissed : Nat := 0x7002
/-- SEP_PROTECT. -/
abbrev sepProtect : Nat := 0x7003
/-- SEP_RR_CLOSE. -/
abbrev sepRrClose : Nat := 0x7004
/-- SEP_SCAN_BLIND. -/
abbrev sepScanBlind : Nat := 0x7005
/-- SEP_TABLE_RANGE. -/
abbrev sepTableRange : Nat := 0x7006
/-- SEP_ZONE. -/
abbrev sepZone : Nat := 0x7007
/-- SEP_ECC_CORR. -/
abbrev sepEccCorr : Nat := 0x7008
/-- SEP_ECC_UNCORR. -/
abbrev sepEccUncorr : Nat := 0x7009
/-- BV_ECC_CORR. -/
abbrev bvEccCorr : Nat := 0x700A
/-- BV_ECC_UNCORR. -/
abbrev bvEccUncorr : Nat := 0x700B
/-- SEP_GEOM_FAIL. -/
abbrev sepGeomFail : Nat := 0x700C
/-- SEP_BV_SS1. -/
abbrev sepBvSs1 : Nat := 0x700D
/-- SCH_DEADLINE. -/
abbrev schDeadline : Nat := 0x8001
/-- SCH_RELEASE_DROP. -/
abbrev schReleaseDrop : Nat := 0x8002
/-- SCH_DISPATCH_LATE. -/
abbrev schDispatchLate : Nat := 0x8003
/-- SCH_ECC_CORR. -/
abbrev schEccCorr : Nat := 0x8004
/-- SCH_ECC_UNCORR. -/
abbrev schEccUncorr : Nat := 0x8005
/-- ME_BUS_ERR. -/
abbrev meBusErr : Nat := 0x9001
/-- ME_PASS_LATE. -/
abbrev mePassLate : Nat := 0x9002
/-- ME_ECC_CORR. -/
abbrev meEccCorr : Nat := 0x9003
/-- ME_ECC_UNCORR. -/
abbrev meEccUncorr : Nat := 0x9004
/-- ME_MARK. -/
abbrev meMark : Nat := 0x9005
/-- ME_STOPPED. -/
abbrev meStopped : Nat := 0x9006
/-- TW_LINK_DOWN. -/
abbrev twLinkDown : Nat := 0xA001
/-- TW_DIGEST_MISMATCH. -/
abbrev twDigestMismatch : Nat := 0xA002
/-- TW_DIGEST_MISSING. -/
abbrev twDigestMissing : Nat := 0xA003
/-- TW_ECHO_LOST. -/
abbrev twEchoLost : Nat := 0xA004
/-- TW_CMD_ECHO. -/
abbrev twCmdEcho : Nat := 0xA005
/-- TW_SUPERSEDED. -/
abbrev twSuperseded : Nat := 0xA006
/-- TW_LEASE_LOST. -/
abbrev twLeaseLost : Nat := 0xA007
/-- TW_TAKEOVER. -/
abbrev twTakeover : Nat := 0xA008
/-- TW_PAIRED. -/
abbrev twPaired : Nat := 0xA009
/-- TW_HANDOVER. -/
abbrev twHandover : Nat := 0xA00A
/-- EV_TIME. -/
abbrev evTime : Nat := 0xB001
/-- EV_FREEZE. -/
abbrev evFreeze : Nat := 0xB002
/-- EV_LOST. -/
abbrev evLost : Nat := 0xB003
/-- EV_ECC_CORR. -/
abbrev evEccCorr : Nat := 0xB004
/-- EV_ECC_UNCORR. -/
abbrev evEccUncorr : Nat := 0xB005
/-- EV_HOST_MARK. -/
abbrev evHostMark : Nat := 0xB006
/-- BB_COMMIT. -/
abbrev bbCommit : Nat := 0xB010
/-- BB_ESC_ONLY. -/
abbrev bbEscOnly : Nat := 0xB011
/-- BB_POWER_LOSS. -/
abbrev bbPowerLoss : Nat := 0xB012
/-- BB_COMMIT_FAIL. -/
abbrev bbCommitFail : Nat := 0xB013
/-- BB_ECC_CORR. -/
abbrev bbEccCorr : Nat := 0xB014
/-- BB_ECC_UNCORR. -/
abbrev bbEccUncorr : Nat := 0xB015
/-- BB_WEAR. -/
abbrev bbWear : Nat := 0xB016
/-- INJ_KEY. -/
abbrev injKey : Nat := 0xB020
/-- INJ_ARMED. -/
abbrev injArmed : Nat := 0xB021
/-- INJ_FIRED. -/
abbrev injFired : Nat := 0xB022
/-- AD_LIMIT. -/
abbrev adLimit : Nat := 0xC001
/-- IO_ESTOP. -/
abbrev ioEstop : Nat := 0xC002
/-- IO_ESTOP_DISC. -/
abbrev ioEstopDisc : Nat := 0xC003
/-- IO_ENABLE. -/
abbrev ioEnable : Nat := 0xC004
/-- IO_ENABLE_DISC. -/
abbrev ioEnableDisc : Nat := 0xC005
/-- IO_DOOR. -/
abbrev ioDoor : Nat := 0xC006
/-- IO_DOOR_DISC. -/
abbrev ioDoorDisc : Nat := 0xC007
/-- IO_STO_FB. -/
abbrev ioStoFb : Nat := 0xC008
/-- IO_WDOG. -/
abbrev ioWdog : Nat := 0xC009
/-- PACE_LOW. -/
abbrev paceLow : Nat := 0xD001
/-- PACE_LOST. -/
abbrev paceLost : Nat := 0xD002
/-- ARB_MARGIN. -/
abbrev arbMargin : Nat := 0xD003
/-- PACE_HEADROOM. -/
abbrev paceHeadroom : Nat := 0xD004
/-- PW_SUPPLY. -/
abbrev pwSupply : Nat := 0xD010
/-- PW_POWER_FAIL. -/
abbrev pwPowerFail : Nat := 0xD011
/-- PW_HOLDUP_LOW. -/
abbrev pwHoldupLow : Nat := 0xD012
/-- PW_VR. -/
abbrev pwVr : Nat := 0xD013
/-- PW_TEMP. -/
abbrev pwTemp : Nat := 0xD014
/-- PW_MGMT_WDOG. -/
abbrev pwMgmtWdog : Nat := 0xD015
/-- PW_ISLAND_FORCED. -/
abbrev pwIslandForced : Nat := 0xD016
/-- PW_NVOSC. -/
abbrev pwNvosc : Nat := 0xD017
/-- PW_FUSE. -/
abbrev pwFuse : Nat := 0xD018
/-- PW_BOOT_FAIL. -/
abbrev pwBootFail : Nat := 0xD019
/-- GR_ECC_CORR. -/
abbrev grEccCorr : Nat := 0xE001
/-- GR_ECC_UNCORR. -/
abbrev grEccUncorr : Nat := 0xE002
/-- MG_BOOT. -/
abbrev mgBoot : Nat := 0xF001
/-- MG_FW_UPDATED. -/
abbrev mgFwUpdated : Nat := 0xF002
/-- MG_MODULE. -/
abbrev mgModule : Nat := 0xF003

end Sys2Proof.Machine.Ev
end

