-- ==== Sys2Proof/Machine/Tab.lean ====
section
/-! DEFINITION. Sparse tables: every memory and register bank of the model is a list of key and value pairs in one
canonical form (keys strictly rising, no entry equal to what an unlisted key reads as). -/
namespace Sys2Proof.Machine

/-- A sparse table: key and value pairs. -/
abbrev Tab (α : Type) := List (Nat × α)

/-- What key `k` holds; `d k` where nothing is listed. -/
def Tab.get {α : Type} (d : Nat → α) : Tab α → Nat → α
  | [], k => d k
  | e :: t, k => if e.1 = k then e.2 else Tab.get d t k

/-- The entries of a table but for those of key `k`. -/
def Tab.drop {α : Type} (k : Nat) : Tab α → Tab α
  | [] => []
  | e :: t => if e.1 = k then Tab.drop k t else e :: Tab.drop k t

/-- Put `v` at key `k` in its place of the rising order; a value equal to the default leaves no entry. -/
def Tab.put {α : Type} [DecidableEq α] (d : Nat → α) : Tab α → Nat → α → Tab α
  | [], k, v => if v = d k then [] else [(k, v)]
  | e :: t, k, v =>
    if k < e.1 then (if v = d k then e :: Tab.drop k t else (k, v) :: e :: t)
    else if k = e.1 then (if v = d k then Tab.drop k t else (k, v) :: t)
    else e :: Tab.put d t k v

/-- Change the value at key `k` by `f`. -/
def Tab.upd {α : Type} [DecidableEq α] (d : Nat → α) (t : Tab α) (k : Nat) (f : α → α) : Tab α :=
  Tab.put d t k (f (Tab.get d t k))

/-- Every key of the table is above `lo`, the keys rise strictly, and no entry holds the default. -/
def Tab.wfFrom {α : Type} [DecidableEq α] (d : Nat → α) : Option Nat → Tab α → Bool
  | _, [] => true
  | lo, e :: t =>
    (match lo with | none => true | some l => decide (l < e.1)) && decide (e.2 ≠ d e.1) && Tab.wfFrom d (some e.1) t

/-- The canonical form of a table. -/
def Tab.wf {α : Type} [DecidableEq α] (d : Nat → α) (t : Tab α) : Bool := Tab.wfFrom d none t

/-- Put a list of values at consecutive keys from `k`. -/
def Tab.putList {α : Type} [DecidableEq α] (d : Nat → α) (t : Tab α) (k : Nat) : List α → Tab α
  | [] => t
  | v :: vs => Tab.putList d (Tab.put d t k v) (k + 1) vs

/-- The values of `n` consecutive keys from `k`. -/
def Tab.getList {α : Type} (d : Nat → α) (t : Tab α) (k n : Nat) : List α :=
  (List.range n).map fun j => Tab.get d t (k + j)

end Sys2Proof.Machine
end

