-- ==== Sys2Proof/Machine/RegType.lean ====
section
/-! DEFINITION. BAR0 register blocks, access codes and fields: the types of the register map (R6, R476). -/
namespace Sys2Proof.Machine

/-- The register blocks of BAR0 (R476). -/
inductive Blk where
  | sys | tb | cb | fb | tl | mp | sv | sep | sch | me | hi | tw | ev | bb | inj | ad | pw
  deriving DecidableEq, Repr

/-- The access codes of register fields (R6). -/
inductive Acc where
  | rw | ro | wo | w1c | w1s | rc | rwl
  deriving DecidableEq, Repr

/-- One field of a register of `count` instances (`stride` apart), each of `subCount` registers (`sub` apart).
`pub` marks a status field served from the frozen publication bank (R20). -/
structure Field where
  blk : Blk
  base : Nat
  stride : Nat
  count : Nat
  sub : Nat
  subCount : Nat
  hi : Nat
  lo : Nat
  acc : Acc
  pub : Bool
  deriving DecidableEq, Repr

/-- The width of a field in bits. -/
def Field.width (f : Field) : Nat := f.hi + 1 - f.lo

/-- The largest value a field can hold: the value at which its counter saturates (R10). -/
def Field.top (f : Field) : Nat := 2 ^ f.width - 1

/-- The field of the `j`-th register of an instance (TL[n].PL_SEG[j] and the like). -/
def Field.at (f : Field) (j : Nat) : Field := { f with base := f.base + f.sub * j, subCount := 1 }

/-- The BAR0 offset of instance `n` of a field's register. -/
def Field.addr (f : Field) (n : Nat) : Nat := f.base + f.stride * n

/-- The instance of `f` that lies at BAR0 offset `off`, if one does. -/
def Field.instAt (f : Field) (off : Nat) : Option (Nat × Nat) :=
  if off < f.base then none
  else
    let q := (off - f.base) / f.stride
    let r := (off - f.base) % f.stride
    if q < f.count ∧ r % f.sub = 0 ∧ r / f.sub < f.subCount then some (q, r / f.sub) else none

/-- The value of bits `hi` to `lo` of a word. -/
def bitsOf (w : Word) (hi lo : Nat) : Nat := w.toNat / 2 ^ lo % 2 ^ (hi + 1 - lo)

/-- A word with bits `hi` to `lo` replaced by the low bits of `v`. -/
def withBits (w : Word) (hi lo v : Nat) : Word :=
  BitVec.ofNat 32
    (w.toNat / 2 ^ (hi + 1) * 2 ^ (hi + 1) + v % 2 ^ (hi + 1 - lo) * 2 ^ lo + w.toNat % 2 ^ lo)

/-- Every BAR0 register, one sparse table for each block. -/
structure Regs where
  sys : Tab Word := []
  tb : Tab Word := []
  cb : Tab Word := []
  fb : Tab Word := []
  tl : Tab Word := []
  mp : Tab Word := []
  sv : Tab Word := []
  sep : Tab Word := []
  sch : Tab Word := []
  me : Tab Word := []
  hi : Tab Word := []
  tw : Tab Word := []
  ev : Tab Word := []
  bb : Tab Word := []
  inj : Tab Word := []
  ad : Tab Word := []
  pw : Tab Word := []
  deriving DecidableEq, Repr

end Sys2Proof.Machine
end

