-- ==== Sys2Proof/Machine/RegMap.lean ====
section
/-! DEFINITION. The register map of BAR0 (R476): every field of every register table of the spec, at the offset, bits
and access code its table gives, and the reset value of every register. The constants are named BLOCK_REGISTER_FIELD;
a register of one 32-bit field bears the register's name alone. Registers reached through a window (SCH.TASK_A to
TASK_F, SCH.UNIT_STAT, CB.SLOT_ARR, CB.SLOT_STAT, HI.IMG_STAT, INJ.ENTRY, INJ.FIRED) are held at offsets of the model's
own at and above 0x200000, past the end of BAR0, one set for each index the window can select. -/
namespace Sys2Proof.Machine.R

/-! ### Block SYS -/

/-- SYS.ID: bits 15:0, RO. Equal to the Device ID in configuration space -/
def SYS_ID_DEVICE : Field := ⟨.sys, 0x0, 0x4, 1, 4, 1, 15, 0, .ro, false⟩
/-- SYS.ID: bits 31:16, RO. Huwick's PCI-SIG vendor identifier, equal to the Vendor ID -/
def SYS_ID_VENDOR : Field := ⟨.sys, 0x0, 0x4, 1, 4, 1, 31, 16, .ro, false⟩
/-- SYS.VERSION: bits 7:0, RO. Silicon stepping: letter in 7:4, digit in 3:0 (0xA0 is A0) -/
def SYS_VERSION_STEPPING : Field := ⟨.sys, 0x4, 0x4, 1, 4, 1, 7, 0, .ro, false⟩
/-- SYS.VERSION: bits 15:8, RO. Model-image format version accepted -/
def SYS_VERSION_IMAGE_FMT : Field := ⟨.sys, 0x4, 0x4, 1, 4, 1, 15, 8, .ro, false⟩
/-- SYS.VERSION: bits 31:16, RO. Running management firmware version; 0 until secure boot completes -/
def SYS_VERSION_FW_VER : Field := ⟨.sys, 0x4, 0x4, 1, 4, 1, 31, 16, .ro, false⟩
/-- SYS.CAP_A: bits 7:0, RO. Counts -/
def SYS_CAP_A_TILLERS : Field := ⟨.sys, 0x8, 0x4, 1, 4, 1, 7, 0, .ro, false⟩
/-- SYS.CAP_A: bits 11:8, RO. Counts -/
def SYS_CAP_A_ENGINES : Field := ⟨.sys, 0x8, 0x4, 1, 4, 1, 11, 8, .ro, false⟩
/-- SYS.CAP_A: bits 15:12, RO. Counts -/
def SYS_CAP_A_CB_PORTS : Field := ⟨.sys, 0x8, 0x4, 1, 4, 1, 15, 12, .ro, false⟩
/-- SYS.CAP_A: bits 21:16, RO. Counts -/
def SYS_CAP_A_SQ_RINGS : Field := ⟨.sys, 0x8, 0x4, 1, 4, 1, 21, 16, .ro, false⟩
/-- SYS.CAP_A: bits 27:22, RO. Counts -/
def SYS_CAP_A_CQ_RINGS : Field := ⟨.sys, 0x8, 0x4, 1, 4, 1, 27, 22, .ro, false⟩
/-- SYS.CAP_B: bits 15:0, RO. Sizes -/
def SYS_CAP_B_GRANARY_KIB : Field := ⟨.sys, 0xC, 0x4, 1, 4, 1, 15, 0, .ro, false⟩
/-- SYS.CAP_B: bits 31:16, RO. Sizes -/
def SYS_CAP_B_ORANGERY_KIB : Field := ⟨.sys, 0xC, 0x4, 1, 4, 1, 31, 16, .ro, false⟩
/-- SYS.CELL_CTRL: bits 0:0, RW. Write 1 requests enable, write 0 requests disable (R358, R360). Reads 1 in CHECKING, ENABLED and DISABLING -/
def SYS_CELL_CTRL_EN : Field := ⟨.sys, 0x10, 0x4, 1, 4, 1, 0, 0, .rw, false⟩
/-- SYS.CELL_CTRL: bits 1:1, RWL. Maintenance mode. Setting or clearing it posts SYS_MAINT (notice) -/
def SYS_CELL_CTRL_MAINT : Field := ⟨.sys, 0x10, 0x4, 1, 4, 1, 1, 1, .rwl, false⟩
/-- SYS.CELL_STATUS: bits 1:0, RO. 0 DISABLED, 1 CHECKING, 2 ENABLED, 3 DISABLING -/
def SYS_CELL_STATUS_STATE : Field := ⟨.sys, 0x14, 0x4, 1, 4, 1, 1, 0, .ro, false⟩
/-- SYS.CELL_STATUS: bits 15:8, RO. Result of the last check (R359) -/
def SYS_CELL_STATUS_REASON : Field := ⟨.sys, 0x14, 0x4, 1, 4, 1, 15, 8, .ro, false⟩
/-- SYS.CELL_STATUS: bits 31:16, RO. Locus of that result -/
def SYS_CELL_STATUS_LOCUS : Field := ⟨.sys, 0x14, 0x4, 1, 4, 1, 31, 16, .ro, false⟩
/-- SYS.CHECK_STAT: bits 15:0, RO. Duration of the last check in µs -/
def SYS_CHECK_STAT_LAST_US : Field := ⟨.sys, 0x18, 0x4, 1, 4, 1, 15, 0, .ro, false⟩
/-- SYS.CHECK_STAT: bits 31:16, RC. Checks run -/
def SYS_CHECK_STAT_CHECKS : Field := ⟨.sys, 0x18, 0x4, 1, 4, 1, 31, 16, .rc, false⟩
/-- SYS.AG_CFG: bits 5:0, RWL. First Tiller of arm group g -/
def SYS_AG_CFG_FIRST_TL : Field := ⟨.sys, 0x40, 0x4, 8, 4, 1, 5, 0, .rwl, false⟩
/-- SYS.AG_CFG: bits 9:6, RWL. Tillers FIRST_TL to FIRST_TL + COUNT - 1, 0–12 -/
def SYS_AG_CFG_COUNT : Field := ⟨.sys, 0x40, 0x4, 8, 4, 1, 9, 6, .rwl, false⟩
/-- SYS.AG_CFG: bits 10:10, RWL. Arm group in use -/
def SYS_AG_CFG_EN : Field := ⟨.sys, 0x40, 0x4, 8, 4, 1, 10, 10, .rwl, false⟩

/-- Every field of block SYS. -/
def sysMap : List Field :=
  [SYS_ID_DEVICE, SYS_ID_VENDOR, SYS_VERSION_STEPPING, SYS_VERSION_IMAGE_FMT, SYS_VERSION_FW_VER, SYS_CAP_A_TILLERS, SYS_CAP_A_ENGINES, SYS_CAP_A_CB_PORTS, SYS_CAP_A_SQ_RINGS, SYS_CAP_A_CQ_RINGS, SYS_CAP_B_GRANARY_KIB, SYS_CAP_B_ORANGERY_KIB] ++
  [SYS_CELL_CTRL_EN, SYS_CELL_CTRL_MAINT, SYS_CELL_STATUS_STATE, SYS_CELL_STATUS_REASON, SYS_CELL_STATUS_LOCUS, SYS_CHECK_STAT_LAST_US, SYS_CHECK_STAT_CHECKS, SYS_AG_CFG_FIRST_TL, SYS_AG_CFG_COUNT, SYS_AG_CFG_EN]

/-- The reset value of the register at an offset of block SYS. -/
def sysReset (off : Nat) : Word :=
  if off = 0x0 then 0x8640
  else if off = 0x4 then 0x100
  else if off = 0x8 then 0x8204940
  else if off = 0xC then 0x20001800
  else 0

/-! ### Block TB -/

/-- TB.NOW_NS: bits 29:0, RO. Nanoseconds of the counter -/
def TB_NOW_NS_NS : Field := ⟨.tb, 0x10000, 0x4, 1, 4, 1, 29, 0, .ro, false⟩
/-- TB.NOW_SEC_LO: bits 31:0, RO. Seconds, bits 31:0 -/
def TB_NOW_SEC_LO : Field := ⟨.tb, 0x10004, 0x4, 1, 4, 1, 31, 0, .ro, false⟩
/-- TB.NOW_SEC_HI: bits 15:0, RO. Seconds, bits 47:32 -/
def TB_NOW_SEC_HI_SEC_HI : Field := ⟨.tb, 0x10008, 0x4, 1, 4, 1, 15, 0, .ro, false⟩
/-- TB.ADDEND_FRAC: bits 31:0, RW. Signed, in units of 2^-32 ns per tick; limits as R47; writer as R57 -/
def TB_ADDEND_FRAC : Field := ⟨.tb, 0x10010, 0x4, 1, 4, 1, 31, 0, .rw, false⟩
/-- TB.CORR_CTRL: bits 1:0, RWL. 0 HOST, 1 MGMT, 2 TWIN, 3 reserved (refused) -/
def TB_CORR_CTRL_OWNER : Field := ⟨.tb, 0x10014, 0x4, 1, 4, 1, 1, 0, .rwl, false⟩
/-- TB.CORR_STATUS: bits 7:0, RO. Reason of the last correction request -/
def TB_CORR_STATUS_LAST_REASON : Field := ⟨.tb, 0x10018, 0x4, 1, 4, 1, 7, 0, .ro, false⟩
/-- TB.CORR_STATUS: bits 15:8, RC. Refused corrections -/
def TB_CORR_STATUS_REFUSED_COUNT : Field := ⟨.tb, 0x10018, 0x4, 1, 4, 1, 15, 8, .rc, false⟩
/-- TB.CORR_STATUS: bits 16:16, RO. 1 once a step has applied since the allowance was last re-armed -/
def TB_CORR_STATUS_STEPPED : Field := ⟨.tb, 0x10018, 0x4, 1, 4, 1, 16, 16, .ro, false⟩
/-- TB.CORR_STATUS: bits 17:17, RO. 1 while a step would be accepted by R51 -/
def TB_CORR_STATUS_STEP_ARMED : Field := ⟨.tb, 0x10018, 0x4, 1, 4, 1, 17, 17, .ro, false⟩
/-- TB.STEP_NS: bits 29:0, RW. Nanoseconds of the step value -/
def TB_STEP_NS_NS : Field := ⟨.tb, 0x10020, 0x4, 1, 4, 1, 29, 0, .rw, false⟩
/-- TB.STEP_NS: bits 31:31, RW. Sign of a relative step: 1 subtracts -/
def TB_STEP_NS_NEG : Field := ⟨.tb, 0x10020, 0x4, 1, 4, 1, 31, 31, .rw, false⟩
/-- TB.STEP_SEC_LO: bits 31:0, RW. Seconds, bits 31:0 -/
def TB_STEP_SEC_LO : Field := ⟨.tb, 0x10024, 0x4, 1, 4, 1, 31, 0, .rw, false⟩
/-- TB.STEP_SEC_HI: bits 15:0, RW. Seconds, bits 47:32 -/
def TB_STEP_SEC_HI_SEC_HI : Field := ⟨.tb, 0x10028, 0x4, 1, 4, 1, 15, 0, .rw, false⟩
/-- TB.STEP_CTRL: bits 0:0, WO. 1 requests the step -/
def TB_STEP_CTRL_GO : Field := ⟨.tb, 0x1002C, 0x4, 1, 4, 1, 0, 0, .wo, false⟩
/-- TB.STEP_CTRL: bits 2:1, RW. As the step-mode table -/
def TB_STEP_CTRL_MODE : Field := ⟨.tb, 0x1002C, 0x4, 1, 4, 1, 2, 1, .rw, false⟩
/-- TB.REF_STATUS: bits 0:0, RO. Time-island PLL locked to REFCLK25 -/
def TB_REF_STATUS_LOCKED : Field := ⟨.tb, 0x10040, 0x4, 1, 4, 1, 0, 0, .ro, false⟩
/-- TB.REF_STATUS: bits 1:1, RO. Reference lost, PLL in holdover (R48) -/
def TB_REF_STATUS_HOLDOVER : Field := ⟨.tb, 0x10040, 0x4, 1, 4, 1, 1, 1, .ro, false⟩
/-- TB.REF_STATUS: bits 15:8, RC. Reference losses -/
def TB_REF_STATUS_LOSS_COUNT : Field := ⟨.tb, 0x10040, 0x4, 1, 4, 1, 15, 8, .rc, false⟩
/-- TB.PPS_CTRL: bits 0:0, RW. Enables PPS_OUT -/
def TB_PPS_CTRL_OUT_EN : Field := ⟨.tb, 0x10050, 0x4, 1, 4, 1, 0, 0, .rw, false⟩
/-- TB.PPS_CTRL: bits 15:8, RW. High time in ms, 1–255; 0 acts as 1 -/
def TB_PPS_CTRL_WIDTH : Field := ⟨.tb, 0x10050, 0x4, 1, 4, 1, 15, 8, .rw, false⟩
/-- TB.PPS_OFFSET: bits 29:0, RW. Phase of the rising edge within each second; values ≥ 1,000,000,000 are ignored with a notice -/
def TB_PPS_OFFSET_OFFSET_NS : Field := ⟨.tb, 0x10054, 0x4, 1, 4, 1, 29, 0, .rw, false⟩
/-- TB.PTP_STATE: bits 3:0, RO. 0 disabled, 1 initializing, 2 listening, 3 uncalibrated, 4 slave, 5 master, 6 passive, 7 faulty -/
def TB_PTP_STATE_PORT_STATE : Field := ⟨.tb, 0x10060, 0x4, 1, 4, 1, 3, 0, .ro, false⟩
/-- TB.PTP_STATE: bits 4:4, RO. Servo locked -/
def TB_PTP_STATE_LOCK : Field := ⟨.tb, 0x10060, 0x4, 1, 4, 1, 4, 4, .ro, false⟩
/-- TB.PTP_STATE: bits 15:8, RO. Domain number in use -/
def TB_PTP_STATE_DOMAIN : Field := ⟨.tb, 0x10060, 0x4, 1, 4, 1, 15, 8, .ro, false⟩
/-- TB.PTP_OFFSET: bits 31:0, RO. Latest offset from master, signed ns, saturated at ±(2^31 - 1) -/
def TB_PTP_OFFSET : Field := ⟨.tb, 0x10064, 0x4, 1, 4, 1, 31, 0, .ro, false⟩
/-- TB.CAP_CTRL: bits 5:0, RW. Source, as the capture-source table -/
def TB_CAP_CTRL_SRC : Field := ⟨.tb, 0x10100, 0x20, 16, 4, 1, 5, 0, .rw, false⟩
/-- TB.CAP_CTRL: bits 7:6, RW. 01 rising, 10 falling, 11 both, 00 none -/
def TB_CAP_CTRL_EDGE : Field := ⟨.tb, 0x10100, 0x20, 16, 4, 1, 7, 6, .rw, false⟩
/-- TB.CAP_CTRL: bits 8:8, RW. 0 keep first stamp, 1 keep latest (R62) -/
def TB_CAP_CTRL_MODE : Field := ⟨.tb, 0x10100, 0x20, 16, 4, 1, 8, 8, .rw, false⟩
/-- TB.CAP_NS: bits 29:0, RO. Nanoseconds of the stamp -/
def TB_CAP_NS_NS : Field := ⟨.tb, 0x10104, 0x20, 16, 4, 1, 29, 0, .ro, false⟩
/-- TB.CAP_NS: bits 31:31, RO. Stamp held; cleared by the read that returns it -/
def TB_CAP_NS_VALID : Field := ⟨.tb, 0x10104, 0x20, 16, 4, 1, 31, 31, .ro, false⟩
/-- TB.CAP_SEC_LO: bits 31:0, RO. Seconds, bits 31:0 -/
def TB_CAP_SEC_LO : Field := ⟨.tb, 0x10108, 0x20, 16, 4, 1, 31, 0, .ro, false⟩
/-- TB.CAP_SEC_HI: bits 15:0, RO. Seconds, bits 47:32 -/
def TB_CAP_SEC_HI_SEC_HI : Field := ⟨.tb, 0x1010C, 0x20, 16, 4, 1, 15, 0, .ro, false⟩
/-- TB.CAP_STATUS: bits 15:0, RC. Edges stamped -/
def TB_CAP_STATUS_COUNT : Field := ⟨.tb, 0x10110, 0x20, 16, 4, 1, 15, 0, .rc, false⟩
/-- TB.CAP_STATUS: bits 23:16, RC. Edges while VALID = 1 -/
def TB_CAP_STATUS_OVERRUN : Field := ⟨.tb, 0x10110, 0x20, 16, 4, 1, 23, 16, .rc, false⟩
/-- TB.TRG_CTRL: bits 0:0, RW. 1 arms; cleared by the device per R56 and R64 -/
def TB_TRG_CTRL_ARM : Field := ⟨.tb, 0x10400, 0x20, 16, 4, 1, 0, 0, .rw, false⟩
/-- TB.TRG_CTRL: bits 3:1, RW. As the trigger-action table -/
def TB_TRG_CTRL_ACTION : Field := ⟨.tb, 0x10400, 0x20, 16, 4, 1, 3, 1, .rw, false⟩
/-- TB.TRG_CTRL: bits 11:4, RW. Target index of the action -/
def TB_TRG_CTRL_TARGET : Field := ⟨.tb, 0x10400, 0x20, 16, 4, 1, 11, 4, .rw, false⟩
/-- TB.TRG_NS: bits 29:0, RW. Nanoseconds of the programmed time -/
def TB_TRG_NS_NS : Field := ⟨.tb, 0x10404, 0x20, 16, 4, 1, 29, 0, .rw, false⟩
/-- TB.TRG_SEC_LO: bits 31:0, RW. Seconds, bits 31:0 -/
def TB_TRG_SEC_LO : Field := ⟨.tb, 0x10408, 0x20, 16, 4, 1, 31, 0, .rw, false⟩
/-- TB.TRG_SEC_HI: bits 15:0, RW. Seconds, bits 47:32 -/
def TB_TRG_SEC_HI_SEC_HI : Field := ⟨.tb, 0x1040C, 0x20, 16, 4, 1, 15, 0, .rw, false⟩
/-- TB.TRG_PERIOD: bits 31:0, RW. 0 one-shot; 1,000 to 4,294,967,295 ns periodic -/
def TB_TRG_PERIOD : Field := ⟨.tb, 0x10410, 0x20, 16, 4, 1, 31, 0, .rw, false⟩
/-- TB.TRG_STATUS: bits 15:0, RC. Firings -/
def TB_TRG_STATUS_FIRED : Field := ⟨.tb, 0x10414, 0x20, 16, 4, 1, 15, 0, .rc, false⟩
/-- TB.TRG_STATUS: bits 16:16, W1C. Armed with its time already past -/
def TB_TRG_STATUS_LATE : Field := ⟨.tb, 0x10414, 0x20, 16, 4, 1, 16, 16, .w1c, false⟩
/-- TB.TRG_STATUS: bits 17:17, W1C. Disarmed by a step -/
def TB_TRG_STATUS_CANCELLED : Field := ⟨.tb, 0x10414, 0x20, 16, 4, 1, 17, 17, .w1c, false⟩

/-- Every field of block TB. -/
def tbMap : List Field :=
  [TB_NOW_NS_NS, TB_NOW_SEC_LO, TB_NOW_SEC_HI_SEC_HI, TB_ADDEND_FRAC, TB_CORR_CTRL_OWNER, TB_CORR_STATUS_LAST_REASON, TB_CORR_STATUS_REFUSED_COUNT, TB_CORR_STATUS_STEPPED, TB_CORR_STATUS_STEP_ARMED, TB_STEP_NS_NS, TB_STEP_NS_NEG, TB_STEP_SEC_LO] ++
  [TB_STEP_SEC_HI_SEC_HI, TB_STEP_CTRL_GO, TB_STEP_CTRL_MODE, TB_REF_STATUS_LOCKED, TB_REF_STATUS_HOLDOVER, TB_REF_STATUS_LOSS_COUNT, TB_PPS_CTRL_OUT_EN, TB_PPS_CTRL_WIDTH, TB_PPS_OFFSET_OFFSET_NS, TB_PTP_STATE_PORT_STATE, TB_PTP_STATE_LOCK, TB_PTP_STATE_DOMAIN] ++
  [TB_PTP_OFFSET, TB_CAP_CTRL_SRC, TB_CAP_CTRL_EDGE, TB_CAP_CTRL_MODE, TB_CAP_NS_NS, TB_CAP_NS_VALID, TB_CAP_SEC_LO, TB_CAP_SEC_HI_SEC_HI, TB_CAP_STATUS_COUNT, TB_CAP_STATUS_OVERRUN, TB_TRG_CTRL_ARM, TB_TRG_CTRL_ACTION] ++
  [TB_TRG_CTRL_TARGET, TB_TRG_NS_NS, TB_TRG_SEC_LO, TB_TRG_SEC_HI_SEC_HI, TB_TRG_PERIOD, TB_TRG_STATUS_FIRED, TB_TRG_STATUS_LATE, TB_TRG_STATUS_CANCELLED]

/-- The reset value of the register at an offset of block TB. -/
def tbReset (off : Nat) : Word :=
  if off = 0x10018 then 0x20000
  else if off = 0x10050 then 0x6400
  else 0

/-! ### Block CB -/

/-- CB.ETHERTYPE: bits 15:0, RWL. Inner EtherType; below 0x0600, or 0x88E5, 0x8100, 0x88A8 or 0x8808, refused at enable with 0x22 -/
def CB_ETHERTYPE_ETYPE : Field := ⟨.cb, 0x20000, 0x4, 1, 4, 1, 15, 0, .rwl, false⟩
/-- CB.DEV_MAC_LO: bits 31:0, RO. Base address, octets 2–5 -/
def CB_DEV_MAC_LO : Field := ⟨.cb, 0x20004, 0x4, 1, 4, 1, 31, 0, .ro, true⟩
/-- CB.DEV_MAC_HI: bits 15:0, RO. Base address, octets 0–1 -/
def CB_DEV_MAC_HI_OCTETS_0_1 : Field := ⟨.cb, 0x20008, 0x4, 1, 4, 1, 15, 0, .ro, true⟩
/-- CB.GROUP_MAC_LO: bits 31:0, RWL. Destination of frames with PARTNER = 0x7FF -/
def CB_GROUP_MAC_LO : Field := ⟨.cb, 0x2000C, 0x4, 1, 4, 1, 31, 0, .rwl, false⟩
/-- CB.GROUP_MAC_HI: bits 15:0, RWL. Octet 0 bit 0 must be 1 (multicast); refused at enable with 0x22 otherwise -/
def CB_GROUP_MAC_HI_OCTETS_0_1 : Field := ⟨.cb, 0x20010, 0x4, 1, 4, 1, 15, 0, .rwl, false⟩
/-- CB.PORT_CFG: bits 1:0, RWL. As the table of R72 -/
def CB_PORT_CFG_MODE : Field := ⟨.cb, 0x20100, 0x100, 4, 4, 1, 1, 0, .rwl, false⟩
/-- CB.PORT_CFG: bits 2:2, RWL. 0 RING, 1 LINE_TWIN -/
def CB_PORT_CFG_TOPOLOGY : Field := ⟨.cb, 0x20100, 0x100, 4, 4, 1, 2, 2, .rwl, false⟩
/-- CB.PORT_CFG: bits 3:3, RWL. R90 -/
def CB_PORT_CFG_MACSEC_REQ : Field := ⟨.cb, 0x20100, 0x100, 4, 4, 1, 3, 3, .rwl, false⟩
/-- CB.LINK_STATE: bits 2:0, RO. As the link-state table -/
def CB_LINK_STATE_STATE : Field := ⟨.cb, 0x20104, 0x100, 4, 4, 1, 2, 0, .ro, true⟩
/-- CB.LINK_STATE: bits 3:3, RO. MOD_ABS deasserted (MODE 2, 3) -/
def CB_LINK_STATE_MOD_PRESENT : Field := ⟨.cb, 0x20104, 0x100, 4, 4, 1, 3, 3, .ro, true⟩
/-- CB.LINK_STATE: bits 4:4, RO. RX_LOS asserted -/
def CB_LINK_STATE_LOS : Field := ⟨.cb, 0x20104, 0x100, 4, 4, 1, 4, 4, .ro, true⟩
/-- CB.LINK_STATE: bits 5:5, RO. Module TX_FAULT asserted -/
def CB_LINK_STATE_TX_FAULT : Field := ⟨.cb, 0x20104, 0x100, 4, 4, 1, 5, 5, .ro, true⟩
/-- CB.LINK_STATE: bits 6:6, RO. Clause 49 block lock, or clause 36 synchronisation -/
def CB_LINK_STATE_BLOCK_LOCK : Field := ⟨.cb, 0x20104, 0x100, 4, 4, 1, 6, 6, .ro, true⟩
/-- CB.LINK_STATE: bits 7:7, RO. Clause 49 hi_ber -/
def CB_LINK_STATE_HI_BER : Field := ⟨.cb, 0x20104, 0x100, 4, 4, 1, 7, 7, .ro, true⟩
/-- CB.LINK_CTRL: bits 0:0, WO. 1 restarts training or auto-negotiation; ignored while enabled -/
def CB_LINK_CTRL_RETRAIN : Field := ⟨.cb, 0x20108, 0x100, 4, 4, 1, 0, 0, .wo, false⟩
/-- CB.LINK_CTRL: bits 1:1, RWL. 1 holds the transmitter off and drives TX_DISABLE -/
def CB_LINK_CTRL_TX_DISABLE : Field := ⟨.cb, 0x20108, 0x100, 4, 4, 1, 1, 1, .rwl, false⟩
/-- CB.ERR_A: bits 15:0, RC. Check 1 -/
def CB_ERR_A_FCS_ERR : Field := ⟨.cb, 0x20110, 0x100, 4, 4, 1, 15, 0, .rc, true⟩
/-- CB.ERR_A: bits 31:16, RC. Check 1 -/
def CB_ERR_A_LEN_ERR : Field := ⟨.cb, 0x20110, 0x100, 4, 4, 1, 31, 16, .rc, true⟩
/-- CB.ERR_B: bits 15:0, RC. Check 3 -/
def CB_ERR_B_UNPROTECTED : Field := ⟨.cb, 0x20114, 0x100, 4, 4, 1, 15, 0, .rc, true⟩
/-- CB.ERR_B: bits 31:16, RC. Check 3 -/
def CB_ERR_B_MACSEC_AUTH : Field := ⟨.cb, 0x20114, 0x100, 4, 4, 1, 31, 16, .rc, true⟩
/-- CB.ERR_C: bits 15:0, RC. Checks 3, 4 -/
def CB_ERR_C_MACSEC_REPLAY : Field := ⟨.cb, 0x20118, 0x100, 4, 4, 1, 15, 0, .rc, true⟩
/-- CB.ERR_C: bits 31:16, RC. Checks 3, 4 -/
def CB_ERR_C_NON_RYFOID : Field := ⟨.cb, 0x20118, 0x100, 4, 4, 1, 31, 16, .rc, true⟩
/-- CB.ERR_D: bits 15:0, RC. Checks 5, 6 -/
def CB_ERR_D_HDR_ERR : Field := ⟨.cb, 0x2011C, 0x100, 4, 4, 1, 15, 0, .rc, true⟩
/-- CB.ERR_D: bits 31:16, RC. Checks 5, 6 -/
def CB_ERR_D_PCRC_ERR : Field := ⟨.cb, 0x2011C, 0x100, 4, 4, 1, 31, 16, .rc, true⟩
/-- CB.ERR_E: bits 15:0, RC. Checks 7, 9 -/
def CB_ERR_E_SRC_ERR : Field := ⟨.cb, 0x20120, 0x100, 4, 4, 1, 15, 0, .rc, true⟩
/-- CB.ERR_E: bits 31:16, RC. Checks 7, 9 -/
def CB_ERR_E_OWN_ERR : Field := ⟨.cb, 0x20120, 0x100, 4, 4, 1, 31, 16, .rc, true⟩
/-- CB.ERR_F: bits 15:0, RC. Checks 10, 8 -/
def CB_ERR_F_POLICE_DROP : Field := ⟨.cb, 0x20124, 0x100, 4, 4, 1, 15, 0, .rc, true⟩
/-- CB.ERR_F: bits 31:16, RC. Checks 10, 8 -/
def CB_ERR_F_QUAR_DROP : Field := ⟨.cb, 0x20124, 0x100, 4, 4, 1, 31, 16, .rc, true⟩
/-- CB.ERR_G: bits 15:0, RC. Check 2; departures from UP -/
def CB_ERR_G_PAUSE_RX : Field := ⟨.cb, 0x20128, 0x100, 4, 4, 1, 15, 0, .rc, true⟩
/-- CB.ERR_G: bits 31:16, RC. Check 2; departures from UP -/
def CB_ERR_G_LINK_DOWN : Field := ⟨.cb, 0x20128, 0x100, 4, 4, 1, 31, 16, .rc, true⟩
/-- CB.RX_FRAMES: bits 31:0, RC. Frames passing every check -/
def CB_RX_FRAMES : Field := ⟨.cb, 0x20130, 0x100, 4, 4, 1, 31, 0, .rc, true⟩
/-- CB.TX_FRAMES: bits 31:0, RC. Frames launched -/
def CB_TX_FRAMES : Field := ⟨.cb, 0x20134, 0x100, 4, 4, 1, 31, 0, .rc, true⟩
/-- CB.MACSEC_STATUS: bits 1:0, RO. AN of the transmit SA in use -/
def CB_MACSEC_STATUS_TX_AN : Field := ⟨.cb, 0x20140, 0x100, 4, 4, 1, 1, 0, .ro, true⟩
/-- CB.MACSEC_STATUS: bits 5:2, RO. One bit per AN with a receive SA installed -/
def CB_MACSEC_STATUS_RX_AN_VALID : Field := ⟨.cb, 0x20140, 0x100, 4, 4, 1, 5, 2, .ro, true⟩
/-- CB.MACSEC_STATUS: bits 6:6, RO. A transmit SA is installed -/
def CB_MACSEC_STATUS_TX_SA_VALID : Field := ⟨.cb, 0x20140, 0x100, 4, 4, 1, 6, 6, .ro, true⟩
/-- CB.MACSEC_STATUS: bits 7:7, RO. A PN of an SA in use is at or above 0xC000_0000 -/
def CB_MACSEC_STATUS_PN_HIGH : Field := ⟨.cb, 0x20140, 0x100, 4, 4, 1, 7, 7, .ro, true⟩
/-- CB.MACSEC_STATUS: bits 8:8, RO. R89 -/
def CB_MACSEC_STATUS_PN_EXHAUSTED : Field := ⟨.cb, 0x20140, 0x100, 4, 4, 1, 8, 8, .ro, true⟩
/-- CB.MACSEC_STATUS: bits 31:24, RO. Incremented at each SA install, modulo 256 -/
def CB_MACSEC_STATUS_KEY_SEQ : Field := ⟨.cb, 0x20140, 0x100, 4, 4, 1, 31, 24, .ro, true⟩
/-- CB.TX_PN: bits 31:0, RO. Last PN sent -/
def CB_TX_PN : Field := ⟨.cb, 0x20144, 0x100, 4, 4, 1, 31, 0, .ro, true⟩
/-- CB.RX_PN: bits 31:0, RO. Highest PN accepted on the newest receive SA -/
def CB_RX_PN : Field := ⟨.cb, 0x20148, 0x100, 4, 4, 1, 31, 0, .ro, true⟩
/-- CB.PT_MAC_LO: bits 31:0, RWL. Partner address, octets 2–5 -/
def CB_PT_MAC_LO : Field := ⟨.cb, 0x28000, 0x20, 1024, 4, 1, 31, 0, .rwl, false⟩
/-- CB.PT_CFG: bits 15:0, RWL. Partner address, octets 0–1 -/
def CB_PT_CFG_OCTETS_0_1 : Field := ⟨.cb, 0x28004, 0x20, 1024, 4, 1, 15, 0, .rwl, false⟩
/-- CB.PT_CFG: bits 17:16, RWL. CB port of the partner -/
def CB_PT_CFG_PORT : Field := ⟨.cb, 0x28004, 0x20, 1024, 4, 1, 17, 16, .rwl, false⟩
/-- CB.PT_CFG: bits 27:18, RWL. 0 entry unused; 1–512 -/
def CB_PT_CFG_POSITION : Field := ⟨.cb, 0x28004, 0x20, 1024, 4, 1, 27, 18, .rwl, false⟩
/-- CB.PT_IDENT: bits 15:0, RWL. Expected device type -/
def CB_PT_IDENT_DEVICE_TYPE : Field := ⟨.cb, 0x28008, 0x20, 1024, 4, 1, 15, 0, .rwl, false⟩
/-- CB.PT_IDENT: bits 31:16, RWL. Expected vendor identifier -/
def CB_PT_IDENT_VENDOR_ID : Field := ⟨.cb, 0x28008, 0x20, 1024, 4, 1, 31, 16, .rwl, false⟩
/-- CB.PT_SERIAL: bits 31:0, RWL. Expected serial; 0 matches any -/
def CB_PT_SERIAL : Field := ⟨.cb, 0x2800C, 0x20, 1024, 4, 1, 31, 0, .rwl, false⟩
/-- CB.PT_POLICE: bits 15:0, RWL. Bytes added per bus cycle -/
def CB_PT_POLICE_RATE : Field := ⟨.cb, 0x28010, 0x20, 1024, 4, 1, 15, 0, .rwl, false⟩
/-- CB.PT_POLICE: bits 31:16, RWL. Bucket depth in bytes -/
def CB_PT_POLICE_BURST : Field := ⟨.cb, 0x28010, 0x20, 1024, 4, 1, 31, 16, .rwl, false⟩
/-- CB.PT_STATE: bits 2:0, RO. As the partner-state table -/
def CB_PT_STATE_STATE : Field := ⟨.cb, 0x28014, 0x20, 1024, 4, 1, 2, 0, .ro, true⟩
/-- CB.PT_STATE: bits 7:4, RO. Cause of the current quarantine, 0 if none -/
def CB_PT_STATE_QCAUSE : Field := ⟨.cb, 0x28014, 0x20, 1024, 4, 1, 7, 4, .ro, true⟩
/-- CB.PT_STATE: bits 8:8, RO. PARTNER_FALLBACK in the last accepted frame -/
def CB_PT_STATE_FALLBACK : Field := ⟨.cb, 0x28014, 0x20, 1024, 4, 1, 8, 8, .ro, true⟩
/-- CB.PT_STATE: bits 9:9, RO. PARTNER_ALARM in the last accepted frame -/
def CB_PT_STATE_ALARM : Field := ⟨.cb, 0x28014, 0x20, 1024, 4, 1, 9, 9, .ro, true⟩
/-- CB.PT_STATE: bits 31:16, RO. EPOCH of the last accepted frame -/
def CB_PT_STATE_EPOCH_SEEN : Field := ⟨.cb, 0x28014, 0x20, 1024, 4, 1, 31, 16, .ro, true⟩
/-- CB.PT_DELAY: bits 23:0, RO. Propagation delay from the port in units of 1/16 ns, measured as the Ryfoid cell bus: schedule, synchronisatio -/
def CB_PT_DELAY_DELAY : Field := ⟨.cb, 0x28018, 0x20, 1024, 4, 1, 23, 0, .ro, true⟩
/-- CB.PT_COUNT: bits 15:0, RC. Ownership failures charged to the partner -/
def CB_PT_COUNT_OWN_VIOL : Field := ⟨.cb, 0x2801C, 0x20, 1024, 4, 1, 15, 0, .rc, true⟩
/-- CB.PT_COUNT: bits 31:16, RC. Policing failures charged to the partner -/
def CB_PT_COUNT_POLICE_DROP : Field := ⟨.cb, 0x2801C, 0x20, 1024, 4, 1, 31, 16, .rc, true⟩
/-- CB.SL_A: bits 16:0, RWL. Time-base ticks from cycle start -/
def CB_SL_A_OFFSET : Field := ⟨.cb, 0x30000, 0x8, 8192, 4, 1, 16, 0, .rwl, false⟩
/-- CB.SL_A: bits 18:17, RWL. CB0–CB3 -/
def CB_SL_A_PORT : Field := ⟨.cb, 0x30000, 0x8, 8192, 4, 1, 18, 17, .rwl, false⟩
/-- CB.SL_A: bits 20:19, RWL. 0 unused; 1 to partner; 2 from partner; 3 echo, as the Twin operation and fail-over chapter describes -/
def CB_SL_A_DIR : Field := ⟨.cb, 0x30000, 0x8, 8192, 4, 1, 20, 19, .rwl, false⟩
/-- CB.SL_A: bits 31:21, RWL. Wire time reserved on the port, in time-base ticks -/
def CB_SL_A_WINDOW : Field := ⟨.cb, 0x30000, 0x8, 8192, 4, 1, 31, 21, .rwl, false⟩
/-- CB.SL_B: bits 10:0, RWL. Partner address 0–1,023. 0x7FF is a group slot, allowed only with DIR = 1 -/
def CB_SL_B_PARTNER : Field := ⟨.cb, 0x30004, 0x8, 8192, 4, 1, 10, 0, .rwl, false⟩
/-- CB.SL_B: bits 18:11, RWL. Index into CB.LAYOUT; carried in the header LAYOUT field -/
def CB_SL_B_LAYOUT : Field := ⟨.cb, 0x30004, 0x8, 8192, 4, 1, 18, 11, .rwl, false⟩
/-- CB.SL_B: bits 21:19, RWL. Sub-cycling divisor 2^DIV: 0–5 select 1, 2, 4, 8, 16, 32; 6 and 7 are refused with 0x2A -/
def CB_SL_B_DIV : Field := ⟨.cb, 0x30004, 0x8, 8192, 4, 1, 21, 19, .rwl, false⟩
/-- CB.SL_B: bits 26:22, RWL. Cycle phase, 0 to divisor - 1 -/
def CB_SL_B_PHASE : Field := ⟨.cb, 0x30004, 0x8, 8192, 4, 1, 26, 22, .rwl, false⟩
/-- CB.SL_B: bits 30:27, RWL. Move-engine channel ME0–ME15 bound to the slot -/
def CB_SL_B_ME : Field := ⟨.cb, 0x30004, 0x8, 8192, 4, 1, 30, 27, .rwl, false⟩
/-- CB.SL_B: bits 31:31, RWL. 1 signals ME on every commit (from-partner slots) and takes its completion as the hand-over (to-partner slots) -/
def CB_SL_B_ME_BIND : Field := ⟨.cb, 0x30004, 0x8, 8192, 4, 1, 31, 31, .rwl, false⟩
/-- CB.LAYOUT: bits 10:0, RWL. Payload bytes, 0–1,480 -/
def CB_LAYOUT_LENGTH : Field := ⟨.cb, 0x21000, 0x4, 256, 4, 1, 10, 0, .rwl, false⟩
/-- CB.LAYOUT: bits 18:11, RWL. Group layouts: bytes per partner element, 1–255; 0 for a single-partner layout -/
def CB_LAYOUT_ELEM_LEN : Field := ⟨.cb, 0x21000, 0x4, 256, 4, 1, 18, 11, .rwl, false⟩
/-- CB.LAYOUT: bits 28:19, RWL. Group layouts: position of the partner that owns element 0 -/
def CB_LAYOUT_FIRST_POS : Field := ⟨.cb, 0x21000, 0x4, 256, 4, 1, 28, 19, .rwl, false⟩
/-- CB.LAYOUT: bits 29:29, RWL. Substitute data of a missing from-partner slot not bound to a joint: 0 hold the last good payload, 1 all zeros -/
def CB_LAYOUT_LOSS_IO : Field := ⟨.cb, 0x21000, 0x4, 256, 4, 1, 29, 29, .rwl, false⟩
/-- CB.CYCLE_NS: bits 31:0, RWL. Bus cycle in ns (R101) -/
def CB_CYCLE_NS : Field := ⟨.cb, 0x20500, 0x4, 1, 4, 1, 31, 0, .rwl, false⟩
/-- CB.ACYC_START: bits 16:0, RWL. Start of the acyclic window -/
def CB_ACYC_START_TICKS : Field := ⟨.cb, 0x20504, 0x4, 1, 4, 1, 16, 0, .rwl, false⟩
/-- CB.ACYC_END: bits 16:0, RWL. End of the acyclic window -/
def CB_ACYC_END_TICKS : Field := ⟨.cb, 0x20508, 0x4, 1, 4, 1, 16, 0, .rwl, false⟩
/-- CB.EPOCH_NS: bits 29:0, RO. Epoch (R102) -/
def CB_EPOCH_NS_NS : Field := ⟨.cb, 0x2050C, 0x4, 1, 4, 1, 29, 0, .ro, true⟩
/-- CB.EPOCH_SEC_LO: bits 31:0, RO. Epoch seconds, bits 31:0 and 47:32 -/
def CB_EPOCH_SEC_LO : Field := ⟨.cb, 0x20510, 0x4, 1, 4, 1, 31, 0, .ro, true⟩
/-- CB.EPOCH_SEC_HI: bits 15:0, RO. Epoch seconds, bits 31:0 and 47:32 -/
def CB_EPOCH_SEC_HI_SEC : Field := ⟨.cb, 0x20514, 0x4, 1, 4, 1, 15, 0, .ro, true⟩
/-- CB.CYCLE_NOW: bits 31:0, RO. Last completed cycle -/
def CB_CYCLE_NOW : Field := ⟨.cb, 0x20518, 0x4, 1, 4, 1, 31, 0, .ro, true⟩
/-- CB.SYNC_CFG: bits 7:0, RWL. ns -/
def CB_SYNC_CFG_ASYM_LIMIT : Field := ⟨.cb, 0x2051C, 0x4, 1, 4, 1, 7, 0, .rwl, false⟩
/-- CB.SYNC_CFG: bits 15:8, RWL. ns -/
def CB_SYNC_CFG_SPREAD_LIMIT : Field := ⟨.cb, 0x2051C, 0x4, 1, 4, 1, 15, 8, .rwl, false⟩
/-- CB.SYNC_CFG: bits 31:16, RWL. Cycles; 0 acts as 4,096 -/
def CB_SYNC_CFG_JOIN_LIMIT : Field := ⟨.cb, 0x2051C, 0x4, 1, 4, 1, 31, 16, .rwl, false⟩
/-- CB.SLOT_SEL: bits 12:0, RW. Slot index -/
def CB_SLOT_SEL_SLOT : Field := ⟨.cb, 0x20540, 0x4, 1, 4, 1, 12, 0, .rw, false⟩
/-- CB.SLOT_ARR: bits 16:0, RO. Arrival stamp, or launch tick, from cycle start -/
def CB_SLOT_ARR_TICK : Field := ⟨.cb, 0x230000, 0x8, 8192, 4, 1, 16, 0, .ro, true⟩
/-- CB.SLOT_ARR: bits 19:17, RO. 0 not due, 1 NORMAL, 2 EDGE, 3 missing, 4 launched fresh, 5 launched held (R108), 6 not launched, port down -/
def CB_SLOT_ARR_CLASS : Field := ⟨.cb, 0x230000, 0x8, 8192, 4, 1, 19, 17, .ro, true⟩
/-- CB.SLOT_ARR: bits 31:24, RO. Signed e / 8 of the committed frame -/
def CB_SLOT_ARR_DEV : Field := ⟨.cb, 0x230000, 0x8, 8192, 4, 1, 31, 24, .ro, true⟩
/-- CB.SLOT_STAT: bits 0:0, RO. R110 -/
def CB_SLOT_STAT_FRESH_HELD : Field := ⟨.cb, 0x230004, 0x8, 8192, 4, 1, 0, 0, .ro, true⟩
/-- CB.SLOT_STAT: bits 1:1, RO. Missing in that cycle -/
def CB_SLOT_STAT_MISSING : Field := ⟨.cb, 0x230004, 0x8, 8192, 4, 1, 1, 1, .ro, true⟩
/-- CB.SLOT_STAT: bits 3:2, RO. R115 -/
def CB_SLOT_STAT_MISS_RUN : Field := ⟨.cb, 0x230004, 0x8, 8192, 4, 1, 3, 2, .ro, true⟩
/-- CB.REF_CFG: bits 16:0, RWL. REFERENCE launch tick -/
def CB_REF_CFG_OFFSET : Field := ⟨.cb, 0x20150, 0x100, 4, 4, 1, 16, 0, .rwl, false⟩
/-- CB.REF_CFG: bits 17:17, RWL. R121 -/
def CB_REF_CFG_EN : Field := ⟨.cb, 0x20150, 0x100, 4, 4, 1, 17, 17, .rwl, false⟩
/-- CB.REF_CFG: bits 18:18, RWL. R122 -/
def CB_REF_CFG_BACKUP_EN : Field := ⟨.cb, 0x20150, 0x100, 4, 4, 1, 18, 18, .rwl, false⟩
/-- CB.REF_CFG: bits 28:19, RWL. Backup master address -/
def CB_REF_CFG_BACKUP : Field := ⟨.cb, 0x20150, 0x100, 4, 4, 1, 28, 19, .rwl, false⟩
/-- CB.PS_SYNC: bits 1:0, RWL. As the table of R120 -/
def CB_PS_SYNC_SYNC_REQ : Field := ⟨.cb, 0x22000, 0x4, 1024, 4, 1, 1, 0, .rwl, false⟩
/-- CB.PS_SYNC: bits 3:2, RO. 0 none, 1 TIMED, 2 REFERENCE -/
def CB_PS_SYNC_SYNC_MODE : Field := ⟨.cb, 0x22000, 0x4, 1024, 4, 1, 3, 2, .ro, true⟩
/-- CB.PS_SYNC: bits 4:4, RO. From ANNOUNCE -/
def CB_PS_SYNC_TIMED_CAPABLE : Field := ⟨.cb, 0x22000, 0x4, 1024, 4, 1, 4, 4, .ro, true⟩
/-- CB.PS_SYNC: bits 31:16, RWL. ns, REFERENCE mode -/
def CB_PS_SYNC_FIXED_DELAY : Field := ⟨.cb, 0x22000, 0x4, 1024, 4, 1, 31, 16, .rwl, false⟩
/-- CB.PS_WIN: bits 15:0, RC. Edge arrivals -/
def CB_PS_WIN_EDGE_COUNT : Field := ⟨.cb, 0x24000, 0x8, 1024, 4, 1, 15, 0, .rc, true⟩
/-- CB.PS_WIN: bits 23:16, RO. Edge arrivals in the current window -/
def CB_PS_WIN_EDGE_WIN : Field := ⟨.cb, 0x24000, 0x8, 1024, 4, 1, 23, 16, .ro, true⟩
/-- CB.PS_WIN: bits 25:24, RO. Longest run among the partner's slots -/
def CB_PS_WIN_MISS_RUN : Field := ⟨.cb, 0x24000, 0x8, 1024, 4, 1, 25, 24, .ro, true⟩
/-- CB.PS_MISS: bits 15:0, RC. Missing slots -/
def CB_PS_MISS_MISSING : Field := ⟨.cb, 0x24004, 0x8, 1024, 4, 1, 15, 0, .rc, true⟩
/-- CB.PS_MISS: bits 23:16, RC. OUTSIDE and NOT_DUE frames -/
def CB_PS_MISS_OUTSIDE : Field := ⟨.cb, 0x24004, 0x8, 1024, 4, 1, 23, 16, .rc, true⟩
/-- CB.PS_MISS: bits 27:24, RC. LAYOUT and STALE frames -/
def CB_PS_MISS_LAYOUT_STALE : Field := ⟨.cb, 0x24004, 0x8, 1024, 4, 1, 27, 24, .rc, true⟩
/-- CB.PS_MISS: bits 31:28, RC. R108 -/
def CB_PS_MISS_TX_LATE : Field := ⟨.cb, 0x24004, 0x8, 1024, 4, 1, 31, 28, .rc, true⟩

/-- Every field of block CB. -/
def cbMap : List Field :=
  [CB_ETHERTYPE_ETYPE, CB_DEV_MAC_LO, CB_DEV_MAC_HI_OCTETS_0_1, CB_GROUP_MAC_LO, CB_GROUP_MAC_HI_OCTETS_0_1, CB_PORT_CFG_MODE, CB_PORT_CFG_TOPOLOGY, CB_PORT_CFG_MACSEC_REQ, CB_LINK_STATE_STATE, CB_LINK_STATE_MOD_PRESENT, CB_LINK_STATE_LOS, CB_LINK_STATE_TX_FAULT] ++
  [CB_LINK_STATE_BLOCK_LOCK, CB_LINK_STATE_HI_BER, CB_LINK_CTRL_RETRAIN, CB_LINK_CTRL_TX_DISABLE, CB_ERR_A_FCS_ERR, CB_ERR_A_LEN_ERR, CB_ERR_B_UNPROTECTED, CB_ERR_B_MACSEC_AUTH, CB_ERR_C_MACSEC_REPLAY, CB_ERR_C_NON_RYFOID, CB_ERR_D_HDR_ERR, CB_ERR_D_PCRC_ERR] ++
  [CB_ERR_E_SRC_ERR, CB_ERR_E_OWN_ERR, CB_ERR_F_POLICE_DROP, CB_ERR_F_QUAR_DROP, CB_ERR_G_PAUSE_RX, CB_ERR_G_LINK_DOWN, CB_RX_FRAMES, CB_TX_FRAMES, CB_MACSEC_STATUS_TX_AN, CB_MACSEC_STATUS_RX_AN_VALID, CB_MACSEC_STATUS_TX_SA_VALID, CB_MACSEC_STATUS_PN_HIGH] ++
  [CB_MACSEC_STATUS_PN_EXHAUSTED, CB_MACSEC_STATUS_KEY_SEQ, CB_TX_PN, CB_RX_PN, CB_PT_MAC_LO, CB_PT_CFG_OCTETS_0_1, CB_PT_CFG_PORT, CB_PT_CFG_POSITION, CB_PT_IDENT_DEVICE_TYPE, CB_PT_IDENT_VENDOR_ID, CB_PT_SERIAL, CB_PT_POLICE_RATE] ++
  [CB_PT_POLICE_BURST, CB_PT_STATE_STATE, CB_PT_STATE_QCAUSE, CB_PT_STATE_FALLBACK, CB_PT_STATE_ALARM, CB_PT_STATE_EPOCH_SEEN, CB_PT_DELAY_DELAY, CB_PT_COUNT_OWN_VIOL, CB_PT_COUNT_POLICE_DROP, CB_SL_A_OFFSET, CB_SL_A_PORT, CB_SL_A_DIR] ++
  [CB_SL_A_WINDOW, CB_SL_B_PARTNER, CB_SL_B_LAYOUT, CB_SL_B_DIV, CB_SL_B_PHASE, CB_SL_B_ME, CB_SL_B_ME_BIND, CB_LAYOUT_LENGTH, CB_LAYOUT_ELEM_LEN, CB_LAYOUT_FIRST_POS, CB_LAYOUT_LOSS_IO, CB_CYCLE_NS] ++
  [CB_ACYC_START_TICKS, CB_ACYC_END_TICKS, CB_EPOCH_NS_NS, CB_EPOCH_SEC_LO, CB_EPOCH_SEC_HI_SEC, CB_CYCLE_NOW, CB_SYNC_CFG_ASYM_LIMIT, CB_SYNC_CFG_SPREAD_LIMIT, CB_SYNC_CFG_JOIN_LIMIT, CB_SLOT_SEL_SLOT, CB_SLOT_ARR_TICK, CB_SLOT_ARR_CLASS] ++
  [CB_SLOT_ARR_DEV, CB_SLOT_STAT_FRESH_HELD, CB_SLOT_STAT_MISSING, CB_SLOT_STAT_MISS_RUN, CB_REF_CFG_OFFSET, CB_REF_CFG_EN, CB_REF_CFG_BACKUP_EN, CB_REF_CFG_BACKUP, CB_PS_SYNC_SYNC_REQ, CB_PS_SYNC_SYNC_MODE, CB_PS_SYNC_TIMED_CAPABLE, CB_PS_SYNC_FIXED_DELAY] ++
  [CB_PS_WIN_EDGE_COUNT, CB_PS_WIN_EDGE_WIN, CB_PS_WIN_MISS_RUN, CB_PS_MISS_MISSING, CB_PS_MISS_OUTSIDE, CB_PS_MISS_LAYOUT_STALE, CB_PS_MISS_TX_LATE]

/-- The reset value of the register at an offset of block CB. -/
def cbReset (off : Nat) : Word :=
  if off = 0x20000 then 0x88B5
  else if off = 0x2000C then 0x57000000
  else if off = 0x20010 then 0x348
  else if 0x20100 ≤ off ∧ off < 0x20500 ∧ (off - 0x20100) % 0x100 = 0 then 0x8
  else if 0x28010 ≤ off ∧ off < 0x30010 ∧ (off - 0x28010) % 0x20 = 0 then 0x6060100
  else if off = 0x20500 then 0x7A12
  else if off = 0x2051C then 0x10002028
  else 0

/-! ### Block FB -/

/-- FB.CFG: bits 1:0, RWL. 0 off, 1 slot, 2 direct port; 3 refused with 0x30 -/
def FB_CFG_KIND : Field := ⟨.fb, 0x40000, 0x40, 64, 4, 1, 1, 0, .rwl, false⟩
/-- FB.CFG: bits 14:2, RWL. Slot index, or DP index 0–7 -/
def FB_CFG_SRC : Field := ⟨.fb, 0x40000, 0x40, 64, 4, 1, 14, 2, .rwl, false⟩
/-- FB.CFG: bits 20:15, RWL. Tiller receiving the record -/
def FB_CFG_TILLER : Field := ⟨.fb, 0x40000, 0x40, 64, 4, 1, 20, 15, .rwl, false⟩
/-- FB.CFG: bits 21:21, RWL. R130 -/
def FB_CFG_TL_EN : Field := ⟨.fb, 0x40000, 0x40, 64, 4, 1, 21, 21, .rwl, false⟩
/-- FB.CFG: bits 30:22, RWL. X-memory word address, 0–504 -/
def FB_CFG_XADDR : Field := ⟨.fb, 0x40000, 0x40, 64, 4, 1, 30, 22, .rwl, false⟩
/-- FB.CFG: bits 31:31, RWL. R151 -/
def FB_CFG_COMPAT : Field := ⟨.fb, 0x40000, 0x40, 64, 4, 1, 31, 31, .rwl, false⟩
/-- FB.SERIAL: bits 10:0, RWL. First payload byte of the word -/
def FB_SERIAL_BYTE_OFF : Field := ⟨.fb, 0x40004, 0x40, 64, 4, 1, 10, 0, .rwl, false⟩
/-- FB.SERIAL: bits 17:11, RWL. 8–64 -/
def FB_SERIAL_RAW_BITS : Field := ⟨.fb, 0x40004, 0x40, 64, 4, 1, 17, 11, .rwl, false⟩
/-- FB.SERIAL: bits 23:18, RWL. 1–32 -/
def FB_SERIAL_ST_BITS : Field := ⟨.fb, 0x40004, 0x40, 64, 4, 1, 23, 18, .rwl, false⟩
/-- FB.SERIAL: bits 24:24, RWL. Gray-coded word -/
def FB_SERIAL_GRAY : Field := ⟨.fb, 0x40004, 0x40, 64, 4, 1, 24, 24, .rwl, false⟩
/-- FB.CPR: bits 31:0, RWL. Counts per revolution; 0 is 2^32 -/
def FB_CPR : Field := ⟨.fb, 0x40008, 0x40, 64, 4, 1, 31, 0, .rwl, false⟩
/-- FB.OBS: bits 13:0, RWL. Observer bandwidth, 50–8,000 Hz -/
def FB_OBS_BW_HZ : Field := ⟨.fb, 0x4000C, 0x40, 64, 4, 1, 13, 0, .rwl, false⟩
/-- FB.OBS: bits 31:16, RWL. Standstill time in 10 µs units, 10–65,535 -/
def FB_OBS_STILL : Field := ⟨.fb, 0x4000C, 0x40, 64, 4, 1, 31, 16, .rwl, false⟩
/-- FB.IDX_EXP: bits 31:0, RWL. Expected index count -/
def FB_IDX_EXP : Field := ⟨.fb, 0x40010, 0x40, 64, 4, 1, 31, 0, .rwl, false⟩
/-- FB.IDX_CFG: bits 15:0, RWL. Counts -/
def FB_IDX_CFG_INDEX_TOL : Field := ⟨.fb, 0x40014, 0x40, 64, 4, 1, 15, 0, .rwl, false⟩
/-- FB.IDX_CFG: bits 17:16, RWL. As the table of R143; 3 refused with 0x34 -/
def FB_IDX_CFG_IDX_REACT : Field := ⟨.fb, 0x40014, 0x40, 64, 4, 1, 17, 16, .rwl, false⟩
/-- FB.IDX_CFG: bits 18:18, RWL. Index checking on -/
def FB_IDX_CFG_IDX_EN : Field := ⟨.fb, 0x40014, 0x40, 64, 4, 1, 18, 18, .rwl, false⟩
/-- FB.IDX_CFG: bits 19:19, RWL. Set also by homing and FB_CLEAR -/
def FB_IDX_CFG_IDX_VALID : Field := ⟨.fb, 0x40014, 0x40, 64, 4, 1, 19, 19, .rwl, false⟩
/-- FB.MAX_STEP: bits 31:0, RWL. R140; 0 no check -/
def FB_MAX_STEP : Field := ⟨.fb, 0x40018, 0x40, 64, 4, 1, 31, 0, .rwl, false⟩
/-- FB.IDX_STAT: bits 15:0, RO. Signed dev of the last index event, saturated at ±32,767 -/
def FB_IDX_STAT_LAST_DEV : Field := ⟨.fb, 0x4001C, 0x40, 64, 4, 1, 15, 0, .ro, true⟩
/-- FB.IDX_STAT: bits 16:16, RO. Last index event beyond tolerance -/
def FB_IDX_STAT_LAST_OUT : Field := ⟨.fb, 0x4001C, 0x40, 64, 4, 1, 16, 16, .ro, true⟩
/-- FB.POS_LO: bits 31:0, RO. Count within the turn -/
def FB_POS_LO : Field := ⟨.fb, 0x40020, 0x40, 64, 4, 1, 31, 0, .ro, true⟩
/-- FB.POS_HI: bits 31:0, RO. Signed turns -/
def FB_POS_HI : Field := ⟨.fb, 0x40024, 0x40, 64, 4, 1, 31, 0, .ro, true⟩
/-- FB.VEL_LO: bits 31:0, RO. Speed, Q40.24 counts/s -/
def FB_VEL_LO : Field := ⟨.fb, 0x40028, 0x40, 64, 4, 1, 31, 0, .ro, true⟩
/-- FB.VEL_HI: bits 31:0, RO. Speed, Q40.24 counts/s -/
def FB_VEL_HI : Field := ⟨.fb, 0x4002C, 0x40, 64, 4, 1, 31, 0, .ro, true⟩
/-- FB.ACC_LO: bits 31:0, RO. Acceleration, Q56.8 counts/s² -/
def FB_ACC_LO : Field := ⟨.fb, 0x40030, 0x40, 64, 4, 1, 31, 0, .ro, true⟩
/-- FB.ACC_HI: bits 31:0, RO. Acceleration, Q56.8 counts/s² -/
def FB_ACC_HI : Field := ⟨.fb, 0x40034, 0x40, 64, 4, 1, 31, 0, .ro, true⟩
/-- FB.QUAL: bits 2:0, RO. As the state table -/
def FB_QUAL_STATE : Field := ⟨.fb, 0x40038, 0x40, 64, 4, 1, 2, 0, .ro, true⟩
/-- FB.QUAL: bits 3:3, RO. A measurement was used -/
def FB_QUAL_FRESH : Field := ⟨.fb, 0x40038, 0x40, 64, 4, 1, 3, 3, .ro, true⟩
/-- FB.QUAL: bits 4:4, RO. No measurement used -/
def FB_QUAL_PREDICTED : Field := ⟨.fb, 0x40038, 0x40, 64, 4, 1, 4, 4, .ro, true⟩
/-- FB.QUAL: bits 5:5, RO. Edge-timed or clamped measurement -/
def FB_QUAL_EDGE_TIMED : Field := ⟨.fb, 0x40038, 0x40, 64, 4, 1, 5, 5, .ro, true⟩
/-- FB.QUAL: bits 6:6, RO. R133, R137, R141, R143 -/
def FB_QUAL_UNVERIFIED : Field := ⟨.fb, 0x40038, 0x40, 64, 4, 1, 6, 6, .ro, true⟩
/-- FB.QUAL: bits 7:7, RO. Speed or acceleration saturated -/
def FB_QUAL_SAT : Field := ⟨.fb, 0x40038, 0x40, 64, 4, 1, 7, 7, .ro, true⟩
/-- FB.QUAL: bits 8:8, RO. Index event in the sample -/
def FB_QUAL_INDEX : Field := ⟨.fb, 0x40038, 0x40, 64, 4, 1, 8, 8, .ro, true⟩
/-- FB.QUAL: bits 9:9, RO. GH-4320 mode in effect -/
def FB_QUAL_COMPAT : Field := ⟨.fb, 0x40038, 0x40, 64, 4, 1, 9, 9, .ro, true⟩
/-- FB.QUAL: bits 11:10, RO. R152 -/
def FB_QUAL_INVALID_RUN : Field := ⟨.fb, 0x40038, 0x40, 64, 4, 1, 11, 10, .ro, true⟩
/-- FB.QUAL: bits 31:16, RO. Edges in the sample, saturating -/
def FB_QUAL_EDGES : Field := ⟨.fb, 0x40038, 0x40, 64, 4, 1, 31, 16, .ro, true⟩
/-- FB.ERR: bits 15:0, RC. Invalid samples -/
def FB_ERR_INVALID : Field := ⟨.fb, 0x4003C, 0x40, 64, 4, 1, 15, 0, .rc, true⟩
/-- FB.ERR: bits 23:16, RC. Index events beyond tolerance -/
def FB_ERR_INDEX_ERR : Field := ⟨.fb, 0x4003C, 0x40, 64, 4, 1, 23, 16, .rc, true⟩
/-- FB.ERR: bits 31:24, RC. R140 -/
def FB_ERR_POS_JUMP : Field := ⟨.fb, 0x4003C, 0x40, 64, 4, 1, 31, 24, .rc, true⟩
/-- DP.CFG: bits 1:0, RWL. As the mode table -/
def DP_CFG_MODE : Field := ⟨.fb, 0x41000, 0x20, 8, 4, 1, 1, 0, .rwl, false⟩
/-- DP.CFG: bits 3:2, RWL. R131 -/
def DP_CFG_FILT : Field := ⟨.fb, 0x41000, 0x20, 8, 4, 1, 3, 2, .rwl, false⟩
/-- DP.CFG: bits 4:4, RWL. R133 -/
def DP_CFG_INVERT : Field := ⟨.fb, 0x41000, 0x20, 8, 4, 1, 4, 4, .rwl, false⟩
/-- DP.CFG: bits 5:5, RWL. R134 -/
def DP_CFG_Z_QUAL : Field := ⟨.fb, 0x41000, 0x20, 8, 4, 1, 5, 5, .rwl, false⟩
/-- DP.CFG: bits 22:6, RWL. Time-base ticks from cycle start -/
def DP_CFG_SAMPLE_OFF : Field := ⟨.fb, 0x41000, 0x20, 8, 4, 1, 22, 6, .rwl, false⟩
/-- DP.SSI: bits 7:0, RWL. 4 ns units, 25–250 -/
def DP_SSI_CLK_PER : Field := ⟨.fb, 0x41004, 0x20, 8, 4, 1, 7, 0, .rwl, false⟩
/-- DP.SSI: bits 9:8, RWL. 0 none, 1 even, 2 odd; 3 refused with 0x35 -/
def DP_SSI_PARITY : Field := ⟨.fb, 0x41004, 0x20, 8, 4, 1, 9, 8, .rwl, false⟩
/-- DP.SSI: bits 10:10, RWL. R136 -/
def DP_SSI_IDLE_CHECK : Field := ⟨.fb, 0x41004, 0x20, 8, 4, 1, 10, 10, .rwl, false⟩
/-- DP.SSI: bits 18:11, RWL. µs, 1–255 -/
def DP_SSI_RECOVERY : Field := ⟨.fb, 0x41004, 0x20, 8, 4, 1, 18, 11, .rwl, false⟩
/-- DP.STAT: bits 15:0, RC. R133 -/
def DP_STAT_QUAD_ERR : Field := ⟨.fb, 0x41008, 0x20, 8, 4, 1, 15, 0, .rc, true⟩
/-- DP.STAT: bits 23:16, RC. R136 -/
def DP_STAT_SSI_ERR : Field := ⟨.fb, 0x41008, 0x20, 8, 4, 1, 23, 16, .rc, true⟩
/-- DP.STAT: bits 31:24, RC. R137 -/
def DP_STAT_HALL_ERR : Field := ⟨.fb, 0x41008, 0x20, 8, 4, 1, 31, 24, .rc, true⟩
/-- DP.COUNT: bits 31:0, RO. Raw count modulo 2^32, including edges absorbed by R151 -/
def DP_COUNT : Field := ⟨.fb, 0x4100C, 0x20, 8, 4, 1, 31, 0, .ro, true⟩
/-- EO.CFG: bits 0:0, RW. R156 -/
def EO_CFG_EN : Field := ⟨.fb, 0x41200, 0x10, 4, 4, 1, 0, 0, .rw, false⟩
/-- EO.CFG: bits 1:1, RWL. 0 feedback channel, 1 profile generator -/
def EO_CFG_SRC_KIND : Field := ⟨.fb, 0x41200, 0x10, 4, 4, 1, 1, 1, .rwl, false⟩
/-- EO.CFG: bits 8:2, RWL. Channel 0–63, or generator 0–79 (joints 0–63, then ST0–ST15) -/
def EO_CFG_SRC : Field := ⟨.fb, 0x41200, 0x10, 4, 4, 1, 8, 2, .rwl, false⟩
/-- EO.CFG: bits 9:9, RWL. R156 -/
def EO_CFG_Z_EN : Field := ⟨.fb, 0x41200, 0x10, 4, 4, 1, 9, 9, .rwl, false⟩
/-- EO.CFG: bits 10:10, RO. R155 -/
def EO_CFG_LOST : Field := ⟨.fb, 0x41200, 0x10, 4, 4, 1, 10, 10, .ro, true⟩
/-- EO.LINES: bits 23:0, RWL. 0 is 2^24 -/
def EO_LINES_LINES : Field := ⟨.fb, 0x41204, 0x10, 4, 4, 1, 23, 0, .rwl, false⟩
/-- EO.STAT: bits 15:0, RC. Cycles ending with a carry -/
def EO_STAT_OVERRUN : Field := ⟨.fb, 0x41208, 0x10, 4, 4, 1, 15, 0, .rc, true⟩
/-- EO.STAT: bits 31:16, RO. Edges carried, saturating -/
def EO_STAT_BACKLOG : Field := ⟨.fb, 0x41208, 0x10, 4, 4, 1, 31, 16, .ro, true⟩

/-- Every field of block FB. -/
def fbMap : List Field :=
  [FB_CFG_KIND, FB_CFG_SRC, FB_CFG_TILLER, FB_CFG_TL_EN, FB_CFG_XADDR, FB_CFG_COMPAT, FB_SERIAL_BYTE_OFF, FB_SERIAL_RAW_BITS, FB_SERIAL_ST_BITS, FB_SERIAL_GRAY, FB_CPR, FB_OBS_BW_HZ] ++
  [FB_OBS_STILL, FB_IDX_EXP, FB_IDX_CFG_INDEX_TOL, FB_IDX_CFG_IDX_REACT, FB_IDX_CFG_IDX_EN, FB_IDX_CFG_IDX_VALID, FB_MAX_STEP, FB_IDX_STAT_LAST_DEV, FB_IDX_STAT_LAST_OUT, FB_POS_LO, FB_POS_HI, FB_VEL_LO] ++
  [FB_VEL_HI, FB_ACC_LO, FB_ACC_HI, FB_QUAL_STATE, FB_QUAL_FRESH, FB_QUAL_PREDICTED, FB_QUAL_EDGE_TIMED, FB_QUAL_UNVERIFIED, FB_QUAL_SAT, FB_QUAL_INDEX, FB_QUAL_COMPAT, FB_QUAL_INVALID_RUN] ++
  [FB_QUAL_EDGES, FB_ERR_INVALID, FB_ERR_INDEX_ERR, FB_ERR_POS_JUMP, DP_CFG_MODE, DP_CFG_FILT, DP_CFG_INVERT, DP_CFG_Z_QUAL, DP_CFG_SAMPLE_OFF, DP_SSI_CLK_PER, DP_SSI_PARITY, DP_SSI_IDLE_CHECK] ++
  [DP_SSI_RECOVERY, DP_STAT_QUAD_ERR, DP_STAT_SSI_ERR, DP_STAT_HALL_ERR, DP_COUNT, EO_CFG_EN, EO_CFG_SRC_KIND, EO_CFG_SRC, EO_CFG_Z_EN, EO_CFG_LOST, EO_LINES_LINES, EO_STAT_OVERRUN] ++
  [EO_STAT_BACKLOG]

/-- The reset value of the register at an offset of block FB. -/
def fbReset (off : Nat) : Word :=
  if 0x4000C ≤ off ∧ off < 0x4100C ∧ (off - 0x4000C) % 0x40 = 0 then 0x138801F4
  else if 0x41000 ≤ off ∧ off < 0x41100 ∧ (off - 0x41000) % 0x20 = 0 then 0x4
  else if 0x41004 ≤ off ∧ off < 0x41104 ∧ (off - 0x41004) % 0x20 = 0 then 0xA419
  else 0

/-! ### Block TL -/

/-- TL.CFG: bits 15:0, RWL. Image directory entry (R179) -/
def TL_CFG_IMAGE : Field := ⟨.tl, 0x60000, 0x100, 64, 4, 1, 15, 0, .rwl, false⟩
/-- TL.CFG: bits 16:16, RWL. Tiller in use -/
def TL_CFG_EN : Field := ⟨.tl, 0x60000, 0x100, 64, 4, 1, 16, 16, .rwl, false⟩
/-- TL.BUDGET: bits 15:0, RO. B of the loaded image, ns at the guarantee pace -/
def TL_BUDGET_B_NS : Field := ⟨.tl, 0x60004, 0x100, 64, 4, 1, 15, 0, .ro, true⟩
/-- TL.BUDGET: bits 26:16, RO. Instructions up to and including END -/
def TL_BUDGET_INSN_COUNT : Field := ⟨.tl, 0x60004, 0x100, 64, 4, 1, 26, 16, .ro, true⟩
/-- TL.STAT: bits 1:0, RO. 0 off, 1 idle, 2 running -/
def TL_STAT_STATE : Field := ⟨.tl, 0x60008, 0x100, 64, 4, 1, 1, 0, .ro, true⟩
/-- TL.STAT: bits 2:2, W1C. A store saturated (R164) -/
def TL_STAT_SAT_ST : Field := ⟨.tl, 0x60008, 0x100, 64, 4, 1, 2, 2, .w1c, true⟩
/-- TL.STAT: bits 3:3, W1C. R162 -/
def TL_STAT_ACC_OVF : Field := ⟨.tl, 0x60008, 0x100, 64, 4, 1, 3, 3, .w1c, true⟩
/-- TL.STAT: bits 4:4, W1C. R172 -/
def TL_STAT_OVERRUN : Field := ⟨.tl, 0x60008, 0x100, 64, 4, 1, 4, 4, .w1c, true⟩
/-- TL.STAT: bits 5:5, RO. STALE of the last completed cycle (R175) -/
def TL_STAT_PL_STALE : Field := ⟨.tl, 0x60008, 0x100, 64, 4, 1, 5, 5, .ro, true⟩
/-- TL.RUN: bits 15:0, RO. Last run, time-base ticks -/
def TL_RUN_RUN_LAST : Field := ⟨.tl, 0x6000C, 0x100, 64, 4, 1, 15, 0, .ro, true⟩
/-- TL.RUN: bits 31:16, RC. Longest run since last read, time-base ticks -/
def TL_RUN_RUN_MAX : Field := ⟨.tl, 0x6000C, 0x100, 64, 4, 1, 31, 16, .rc, true⟩
/-- TL.COUNT: bits 15:0, RC. Saturated stores -/
def TL_COUNT_SAT_COUNT : Field := ⟨.tl, 0x60010, 0x100, 64, 4, 1, 15, 0, .rc, true⟩
/-- TL.COUNT: bits 23:16, RC. Corrected single-bit errors -/
def TL_COUNT_ECC_CORR : Field := ⟨.tl, 0x60010, 0x100, 64, 4, 1, 23, 16, .rc, true⟩
/-- TL.COUNT: bits 31:24, RC. Late preloads -/
def TL_COUNT_PL_LATE : Field := ⟨.tl, 0x60010, 0x100, 64, 4, 1, 31, 24, .rc, true⟩
/-- TL.PL_CFG: bits 20:0, RWL. Granary words between region blocks -/
def TL_PL_CFG_STRIDE : Field := ⟨.tl, 0x60014, 0x100, 64, 4, 1, 20, 0, .rwl, false⟩
/-- TL.PL_SEG: bits 20:0, RWL. Granary word address -/
def TL_PL_SEG_SRC : Field := ⟨.tl, 0x60020, 0x100, 64, 4, 8, 20, 0, .rwl, false⟩
/-- TL.PL_SEG: bits 27:21, RWL. Words, 0 unused, 1–127 -/
def TL_PL_SEG_LEN : Field := ⟨.tl, 0x60020, 0x100, 64, 4, 8, 27, 21, .rwl, false⟩
/-- TL.PL_SEG: bits 28:28, RWL. R174 -/
def TL_PL_SEG_REGIONED : Field := ⟨.tl, 0x60020, 0x100, 64, 4, 8, 28, 28, .rwl, false⟩
/-- TL.LAW_CFG: bits 0:0, RWL. R193 for vd -/
def TL_LAW_CFG_XFER_D : Field := ⟨.tl, 0x60060, 0x100, 64, 4, 1, 0, 0, .rwl, false⟩
/-- TL.LAW_CFG: bits 1:1, RWL. R193 for vq -/
def TL_LAW_CFG_XFER_Q : Field := ⟨.tl, 0x60060, 0x100, 64, 4, 1, 1, 1, .rwl, false⟩
/-- TL.LAW_CFG: bits 7:2, RWL. 0–63 -/
def TL_LAW_CFG_XFER_SHR : Field := ⟨.tl, 0x60060, 0x100, 64, 4, 1, 7, 2, .rwl, false⟩
/-- TL.LAW_CFG: bits 11:8, RWL. Error words, 1–8 -/
def TL_LAW_CFG_NE : Field := ⟨.tl, 0x60060, 0x100, 64, 4, 1, 11, 8, .rwl, false⟩
/-- TL.LAW_CFG: bits 18:12, RWL. Window word of the d row -/
def TL_LAW_CFG_KD_WIN : Field := ⟨.tl, 0x60060, 0x100, 64, 4, 1, 18, 12, .rwl, false⟩
/-- TL.LAW_CFG: bits 25:19, RWL. Window word of the q row -/
def TL_LAW_CFG_KQ_WIN : Field := ⟨.tl, 0x60060, 0x100, 64, 4, 1, 25, 19, .rwl, false⟩
/-- TL.LAW_CFG: bits 26:26, RWL. ξd present -/
def TL_LAW_CFG_INT_D : Field := ⟨.tl, 0x60060, 0x100, 64, 4, 1, 26, 26, .rwl, false⟩
/-- TL.LAW_CFG: bits 27:27, RWL. ξq present -/
def TL_LAW_CFG_INT_Q : Field := ⟨.tl, 0x60060, 0x100, 64, 4, 1, 27, 27, .rwl, false⟩
/-- TL.XADDR_A: bits 8:0, RWL. X word addresses (R181, R183) -/
def TL_XADDR_A_OUT_ADDR : Field := ⟨.tl, 0x60064, 0x100, 64, 4, 1, 8, 0, .rwl, false⟩
/-- TL.XADDR_A: bits 17:9, RWL. X word addresses (R181, R183) -/
def TL_XADDR_A_CMD_ADDR : Field := ⟨.tl, 0x60064, 0x100, 64, 4, 1, 17, 9, .rwl, false⟩
/-- TL.XADDR_A: bits 26:18, RWL. X word addresses (R181, R183) -/
def TL_XADDR_A_GSTAT_ADDR : Field := ⟨.tl, 0x60064, 0x100, 64, 4, 1, 26, 18, .rwl, false⟩
/-- TL.XADDR_B: bits 8:0, RWL. X word addresses (R181) -/
def TL_XADDR_B_ERR_ADDR : Field := ⟨.tl, 0x60068, 0x100, 64, 4, 1, 8, 0, .rwl, false⟩
/-- TL.XADDR_B: bits 17:9, RWL. X word addresses (R181) -/
def TL_XADDR_B_XI_D_ADDR : Field := ⟨.tl, 0x60068, 0x100, 64, 4, 1, 17, 9, .rwl, false⟩
/-- TL.XADDR_B: bits 26:18, RWL. X word addresses (R181) -/
def TL_XADDR_B_XI_Q_ADDR : Field := ⟨.tl, 0x60068, 0x100, 64, 4, 1, 26, 18, .rwl, false⟩
/-- TL.CMD_LIM: bits 15:0, RWL. Q1.15 magnitude, 1–32,767 -/
def TL_CMD_LIM_VD_LIM : Field := ⟨.tl, 0x6006C, 0x100, 64, 4, 1, 15, 0, .rwl, false⟩
/-- TL.CMD_LIM: bits 31:16, RWL. Q1.15 magnitude, 1–32,767 -/
def TL_CMD_LIM_VQ_LIM : Field := ⟨.tl, 0x6006C, 0x100, 64, 4, 1, 31, 16, .rwl, false⟩
/-- TL.SAT_CFG: bits 8:0, RWL. 100 µs units, 1–500 -/
def TL_SAT_CFG_SAT_LIMIT : Field := ⟨.tl, 0x60070, 0x100, 64, 4, 1, 8, 0, .rwl, false⟩
/-- TL.SAT_CFG: bits 13:9, RWL. 0–16 (R196) -/
def TL_SAT_CFG_LEAK : Field := ⟨.tl, 0x60070, 0x100, 64, 4, 1, 13, 9, .rwl, false⟩
/-- TL.SAT_CFG: bits 15:14, RWL. R187 -/
def TL_SAT_CFG_SAT_REACT : Field := ⟨.tl, 0x60070, 0x100, 64, 4, 1, 15, 14, .rwl, false⟩
/-- TL.REACT_CFG: bits 1:0, RWL. R187 -/
def TL_REACT_CFG_LOSS_REACT : Field := ⟨.tl, 0x60074, 0x100, 64, 4, 1, 1, 0, .rwl, false⟩
/-- TL.REACT_CFG: bits 2:2, RWL. 0 ZERO, 1 FALLBACK -/
def TL_REACT_CFG_LOSS_CMD : Field := ⟨.tl, 0x60074, 0x100, 64, 4, 1, 2, 2, .rwl, false⟩
/-- TL.REACT_CFG: bits 5:4, RWL. R187 -/
def TL_REACT_CFG_OVF_REACT : Field := ⟨.tl, 0x60074, 0x100, 64, 4, 1, 5, 4, .rwl, false⟩
/-- TL.REACT_CFG: bits 7:6, RWL. R187 -/
def TL_REACT_CFG_STSAT_REACT : Field := ⟨.tl, 0x60074, 0x100, 64, 4, 1, 7, 6, .rwl, false⟩
/-- TL.REACT_CFG: bits 9:8, RWL. R187 -/
def TL_REACT_CFG_PLATE_REACT : Field := ⟨.tl, 0x60074, 0x100, 64, 4, 1, 9, 8, .rwl, false⟩
/-- TL.REACT_CFG: bits 11:10, RWL. R187 -/
def TL_REACT_CFG_REF_REACT : Field := ⟨.tl, 0x60074, 0x100, 64, 4, 1, 11, 10, .rwl, false⟩
/-- TL.STOP_CFG: bits 15:0, RWL. ms, 1–65,535 -/
def TL_STOP_CFG_SS1_TIMEOUT : Field := ⟨.tl, 0x60078, 0x100, 64, 4, 1, 15, 0, .rwl, false⟩
/-- TL.STOP_CFG: bits 31:16, RWL. Counts -/
def TL_STOP_CFG_HOLD_TOL : Field := ⟨.tl, 0x60078, 0x100, 64, 4, 1, 31, 16, .rwl, false⟩
/-- TL.STILL_VEL: bits 31:0, RWL. Counts per second -/
def TL_STILL_VEL : Field := ⟨.tl, 0x6007C, 0x100, 64, 4, 1, 31, 0, .rwl, false⟩
/-- TL.REF_CFG: bits 20:0, RWL. Granary word address of the output block -/
def TL_REF_CFG_REF_SRC : Field := ⟨.tl, 0x60080, 0x100, 64, 4, 1, 20, 0, .rwl, false⟩
/-- TL.REF_CFG: bits 27:21, RWL. First window word of the reference block -/
def TL_REF_CFG_REF_WIN : Field := ⟨.tl, 0x60080, 0x100, 64, 4, 1, 27, 21, .rwl, false⟩
/-- TL.REF_CFG: bits 28:28, RWL. R189 -/
def TL_REF_CFG_REF_EN : Field := ⟨.tl, 0x60080, 0x100, 64, 4, 1, 28, 28, .rwl, false⟩
/-- TL.SCHED_CFG: bits 0:0, RWL. R191 -/
def TL_SCHED_CFG_EN : Field := ⟨.tl, 0x60084, 0x100, 64, 4, 1, 0, 0, .rwl, false⟩
/-- TL.SCHED_CFG: bits 2:1, RWL. Boundaries, 0–3 -/
def TL_SCHED_CFG_NB0 : Field := ⟨.tl, 0x60084, 0x100, 64, 4, 1, 2, 1, .rwl, false⟩
/-- TL.SCHED_CFG: bits 4:3, RWL. Boundaries, 0–3 -/
def TL_SCHED_CFG_NB1 : Field := ⟨.tl, 0x60084, 0x100, 64, 4, 1, 4, 3, .rwl, false⟩
/-- TL.SCHED_CFG: bits 13:5, RWL. X word addresses -/
def TL_SCHED_CFG_SV0_ADDR : Field := ⟨.tl, 0x60084, 0x100, 64, 4, 1, 13, 5, .rwl, false⟩
/-- TL.SCHED_CFG: bits 22:14, RWL. X word addresses -/
def TL_SCHED_CFG_SV1_ADDR : Field := ⟨.tl, 0x60084, 0x100, 64, 4, 1, 22, 14, .rwl, false⟩
/-- TL.SCHED_CFG: bits 23:23, RW. R191 -/
def TL_SCHED_CFG_FORCE_EN : Field := ⟨.tl, 0x60084, 0x100, 64, 4, 1, 23, 23, .rw, false⟩
/-- TL.SCHED_CFG: bits 27:24, RW. R191 -/
def TL_SCHED_CFG_FORCE_REGION : Field := ⟨.tl, 0x60084, 0x100, 64, 4, 1, 27, 24, .rw, false⟩
/-- TL.SCHED_B0: bits 31:0, RWL. Signed boundary -/
def TL_SCHED_B0 : Field := ⟨.tl, 0x60088, 0x100, 64, 4, 3, 31, 0, .rwl, false⟩
/-- TL.SCHED_B1: bits 31:0, RWL. Signed boundary -/
def TL_SCHED_B1 : Field := ⟨.tl, 0x60094, 0x100, 64, 4, 3, 31, 0, .rwl, false⟩
/-- TL.SCHED_HW0: bits 31:0, RWL. Unsigned hysteresis half-width -/
def TL_SCHED_HW0 : Field := ⟨.tl, 0x600A0, 0x100, 64, 4, 3, 31, 0, .rwl, false⟩
/-- TL.SCHED_HW1: bits 31:0, RWL. Unsigned hysteresis half-width -/
def TL_SCHED_HW1 : Field := ⟨.tl, 0x600AC, 0x100, 64, 4, 3, 31, 0, .rwl, false⟩
/-- TL.GAIN_REGION: bits 3:0, RO. Region of the bank in use -/
def TL_GAIN_REGION_REGION : Field := ⟨.tl, 0x600C0, 0x100, 64, 4, 1, 3, 0, .ro, true⟩
/-- TL.GAIN_REGION: bits 7:4, RO. Region selected at the last END -/
def TL_GAIN_REGION_SELECTED : Field := ⟨.tl, 0x600C0, 0x100, 64, 4, 1, 7, 4, .ro, true⟩
/-- TL.GAIN_REGION: bits 9:8, RO. j0, j1 -/
def TL_GAIN_REGION_BAND0 : Field := ⟨.tl, 0x600C0, 0x100, 64, 4, 1, 9, 8, .ro, true⟩
/-- TL.GAIN_REGION: bits 11:10, RO. j0, j1 -/
def TL_GAIN_REGION_BAND1 : Field := ⟨.tl, 0x600C0, 0x100, 64, 4, 1, 11, 10, .ro, true⟩
/-- TL.GAIN_REGION: bits 12:12, RO. FORCE_EN in effect -/
def TL_GAIN_REGION_FORCED : Field := ⟨.tl, 0x600C0, 0x100, 64, 4, 1, 12, 12, .ro, true⟩
/-- TL.GAIN_REGION: bits 31:16, RC. Region changes taken effect -/
def TL_GAIN_REGION_SWITCHES : Field := ⟨.tl, 0x600C0, 0x100, 64, 4, 1, 31, 16, .rc, true⟩
/-- TL.JSTAT: bits 2:0, RO. As the joint-state table -/
def TL_JSTAT_JSTATE : Field := ⟨.tl, 0x600C4, 0x100, 64, 4, 1, 2, 0, .ro, true⟩
/-- TL.JSTAT: bits 15:8, RO. Last stop cause, as the cause table -/
def TL_JSTAT_CAUSE : Field := ⟨.tl, 0x600C4, 0x100, 64, 4, 1, 15, 8, .ro, true⟩
/-- TL.JSTAT: bits 16:16, RO. SAT_D or SAT_Q in the last run -/
def TL_JSTAT_SAT_NOW : Field := ⟨.tl, 0x600C4, 0x100, 64, 4, 1, 16, 16, .ro, true⟩
/-- TL.JSTAT: bits 17:17, W1C. R197 -/
def TL_JSTAT_SAT_TRIP : Field := ⟨.tl, 0x600C4, 0x100, 64, 4, 1, 17, 17, .w1c, true⟩
/-- TL.JSTAT: bits 18:18, RO. Transfer at the last boundary -/
def TL_JSTAT_XFER_LAST : Field := ⟨.tl, 0x600C4, 0x100, 64, 4, 1, 18, 18, .ro, true⟩
/-- TL.JSTAT: bits 19:19, W1C. R193 -/
def TL_JSTAT_XFER_SAT : Field := ⟨.tl, 0x600C4, 0x100, 64, 4, 1, 19, 19, .w1c, true⟩
/-- TL.JSTAT: bits 20:20, W1C. R190 -/
def TL_JSTAT_REF_STALE : Field := ⟨.tl, 0x600C4, 0x100, 64, 4, 1, 20, 20, .w1c, true⟩
/-- TL.SAT_ACC: bits 31:0, RO. R196 -/
def TL_SAT_ACC : Field := ⟨.tl, 0x600C8, 0x100, 64, 4, 1, 31, 0, .ro, true⟩
/-- TL.JCOUNT: bits 15:0, RC. R195 -/
def TL_JCOUNT_AW_HOLDS : Field := ⟨.tl, 0x600CC, 0x100, 64, 4, 1, 15, 0, .rc, true⟩
/-- TL.JCOUNT: bits 23:16, RC. Transfers committed -/
def TL_JCOUNT_XFER_COUNT : Field := ⟨.tl, 0x600CC, 0x100, 64, 4, 1, 23, 16, .rc, true⟩
/-- TL.JCOUNT: bits 31:24, RC. R197 -/
def TL_JCOUNT_SAT_TRIPS : Field := ⟨.tl, 0x600CC, 0x100, 64, 4, 1, 31, 24, .rc, true⟩

/-- Every field of block TL. -/
def tlMap : List Field :=
  [TL_CFG_IMAGE, TL_CFG_EN, TL_BUDGET_B_NS, TL_BUDGET_INSN_COUNT, TL_STAT_STATE, TL_STAT_SAT_ST, TL_STAT_ACC_OVF, TL_STAT_OVERRUN, TL_STAT_PL_STALE, TL_RUN_RUN_LAST, TL_RUN_RUN_MAX, TL_COUNT_SAT_COUNT] ++
  [TL_COUNT_ECC_CORR, TL_COUNT_PL_LATE, TL_PL_CFG_STRIDE, TL_PL_SEG_SRC, TL_PL_SEG_LEN, TL_PL_SEG_REGIONED, TL_LAW_CFG_XFER_D, TL_LAW_CFG_XFER_Q, TL_LAW_CFG_XFER_SHR, TL_LAW_CFG_NE, TL_LAW_CFG_KD_WIN, TL_LAW_CFG_KQ_WIN] ++
  [TL_LAW_CFG_INT_D, TL_LAW_CFG_INT_Q, TL_XADDR_A_OUT_ADDR, TL_XADDR_A_CMD_ADDR, TL_XADDR_A_GSTAT_ADDR, TL_XADDR_B_ERR_ADDR, TL_XADDR_B_XI_D_ADDR, TL_XADDR_B_XI_Q_ADDR, TL_CMD_LIM_VD_LIM, TL_CMD_LIM_VQ_LIM, TL_SAT_CFG_SAT_LIMIT, TL_SAT_CFG_LEAK] ++
  [TL_SAT_CFG_SAT_REACT, TL_REACT_CFG_LOSS_REACT, TL_REACT_CFG_LOSS_CMD, TL_REACT_CFG_OVF_REACT, TL_REACT_CFG_STSAT_REACT, TL_REACT_CFG_PLATE_REACT, TL_REACT_CFG_REF_REACT, TL_STOP_CFG_SS1_TIMEOUT, TL_STOP_CFG_HOLD_TOL, TL_STILL_VEL, TL_REF_CFG_REF_SRC, TL_REF_CFG_REF_WIN] ++
  [TL_REF_CFG_REF_EN, TL_SCHED_CFG_EN, TL_SCHED_CFG_NB0, TL_SCHED_CFG_NB1, TL_SCHED_CFG_SV0_ADDR, TL_SCHED_CFG_SV1_ADDR, TL_SCHED_CFG_FORCE_EN, TL_SCHED_CFG_FORCE_REGION, TL_SCHED_B0, TL_SCHED_B1, TL_SCHED_HW0, TL_SCHED_HW1] ++
  [TL_GAIN_REGION_REGION, TL_GAIN_REGION_SELECTED, TL_GAIN_REGION_BAND0, TL_GAIN_REGION_BAND1, TL_GAIN_REGION_FORCED, TL_GAIN_REGION_SWITCHES, TL_JSTAT_JSTATE, TL_JSTAT_CAUSE, TL_JSTAT_SAT_NOW, TL_JSTAT_SAT_TRIP, TL_JSTAT_XFER_LAST, TL_JSTAT_XFER_SAT] ++
  [TL_JSTAT_REF_STALE, TL_SAT_ACC, TL_JCOUNT_AW_HOLDS, TL_JCOUNT_XFER_COUNT, TL_JCOUNT_SAT_TRIPS]

/-- The reset value of the register at an offset of block TL. -/
def tlReset (off : Nat) : Word :=
  if 0x6006C ≤ off ∧ off < 0x6406C ∧ (off - 0x6006C) % 0x100 = 0 then 0x7FFF7FFF
  else if 0x60070 ≤ off ∧ off < 0x64070 ∧ (off - 0x60070) % 0x100 = 0 then 0xA032
  else if 0x60074 ≤ off ∧ off < 0x64074 ∧ (off - 0x60074) % 0x100 = 0 then 0x922
  else if 0x60078 ≤ off ∧ off < 0x64078 ∧ (off - 0x60078) % 0x100 = 0 then 0x3E801F4
  else if 0x6007C ≤ off ∧ off < 0x6407C ∧ (off - 0x6007C) % 0x100 = 0 then 0x64
  else 0

/-! ### Block MP -/

/-- MP.CFG: bits 0:0, RWL. Generator in use -/
def MP_CFG_EN : Field := ⟨.mp, 0x80000, 0x80, 80, 4, 1, 0, 0, .rwl, false⟩
/-- MP.CFG: bits 5:1, RWL. Coordination group 0–15; 31 none -/
def MP_CFG_CG : Field := ⟨.mp, 0x80000, 0x80, 80, 4, 1, 5, 1, .rwl, false⟩
/-- MP.CFG: bits 6:6, RWL. R206; joints only -/
def MP_CFG_SCALE_EN : Field := ⟨.mp, 0x80000, 0x80, 80, 4, 1, 6, 6, .rwl, false⟩
/-- MP.CFG: bits 10:7, RWL. R198 -/
def MP_CFG_UNIT_SHL : Field := ⟨.mp, 0x80000, 0x80, 80, 4, 1, 10, 7, .rwl, false⟩
/-- MP.VMAX: bits 31:0, RWL. Limits at enable (R198, R204) -/
def MP_VMAX : Field := ⟨.mp, 0x80004, 0x80, 80, 4, 1, 31, 0, .rwl, false⟩
/-- MP.AMAX: bits 31:0, RWL. Limits at enable (R198, R204) -/
def MP_AMAX : Field := ⟨.mp, 0x80008, 0x80, 80, 4, 1, 31, 0, .rwl, false⟩
/-- MP.DMAX: bits 31:0, RWL. Limits at enable (R198, R204) -/
def MP_DMAX : Field := ⟨.mp, 0x8000C, 0x80, 80, 4, 1, 31, 0, .rwl, false⟩
/-- MP.JMAX: bits 31:0, RWL. Limits at enable (R198, R204) -/
def MP_JMAX : Field := ⟨.mp, 0x80010, 0x80, 80, 4, 1, 31, 0, .rwl, false⟩
/-- MP.DEC_ABORT: bits 31:0, RWL. Limits at enable (R198, R204) -/
def MP_DEC_ABORT : Field := ⟨.mp, 0x80014, 0x80, 80, 4, 1, 31, 0, .rwl, false⟩
/-- MP.LIM_SRC: bits 20:0, RWL. Granary word address of the profile-limit block (R203) -/
def MP_LIM_SRC_ADDR : Field := ⟨.mp, 0x80018, 0x80, 80, 4, 1, 20, 0, .rwl, false⟩
/-- MP.IN_CFG: bits 5:0, RWL. AXIN index 0–47; 63 none -/
def MP_IN_CFG_LIM_POS : Field := ⟨.mp, 0x8001C, 0x80, 80, 4, 1, 5, 0, .rwl, false⟩
/-- MP.IN_CFG: bits 13:8, RWL. AXIN index 0–47; 63 none -/
def MP_IN_CFG_LIM_NEG : Field := ⟨.mp, 0x8001C, 0x80, 80, 4, 1, 13, 8, .rwl, false⟩
/-- MP.IN_CFG: bits 21:16, RWL. AXIN index 0–47; 63 none -/
def MP_IN_CFG_HOME : Field := ⟨.mp, 0x8001C, 0x80, 80, 4, 1, 21, 16, .rwl, false⟩
/-- MP.HOME_CFG: bits 2:0, RWL. 0 none; 1–7 as R219 -/
def MP_HOME_CFG_MODE : Field := ⟨.mp, 0x80020, 0x80, 80, 4, 1, 2, 0, .rwl, false⟩
/-- MP.HOME_CFG: bits 3:3, RWL. 0 positive, 1 negative -/
def MP_HOME_CFG_DIR : Field := ⟨.mp, 0x80020, 0x80, 80, 4, 1, 3, 3, .rwl, false⟩
/-- MP.HOME_CFG: bits 9:4, RWL. Feedback channel of index events -/
def MP_HOME_CFG_IDX_CH : Field := ⟨.mp, 0x80020, 0x80, 80, 4, 1, 9, 4, .rwl, false⟩
/-- MP.HOME_VFAST: bits 31:0, RWL. Units of R198 -/
def MP_HOME_VFAST : Field := ⟨.mp, 0x80024, 0x80, 80, 4, 1, 31, 0, .rwl, false⟩
/-- MP.HOME_VSLOW: bits 31:0, RWL. Units of R198 -/
def MP_HOME_VSLOW : Field := ⟨.mp, 0x80028, 0x80, 80, 4, 1, 31, 0, .rwl, false⟩
/-- MP.HOME_DEC: bits 31:0, RWL. Units of R198 -/
def MP_HOME_DEC : Field := ⟨.mp, 0x8002C, 0x80, 80, 4, 1, 31, 0, .rwl, false⟩
/-- MP.HOME_OFS_LO: bits 31:0, RWL. Q48.16 position of the home point -/
def MP_HOME_OFS_LO : Field := ⟨.mp, 0x80030, 0x80, 80, 4, 1, 31, 0, .rwl, false⟩
/-- MP.HOME_OFS_HI: bits 31:0, RWL. Q48.16 position of the home point -/
def MP_HOME_OFS_HI : Field := ⟨.mp, 0x80034, 0x80, 80, 4, 1, 31, 0, .rwl, false⟩
/-- MP.HOME_TRAVEL: bits 31:0, RWL. Search travel limit; 0 none -/
def MP_HOME_TRAVEL : Field := ⟨.mp, 0x80038, 0x80, 80, 4, 1, 31, 0, .rwl, false⟩
/-- MP.HS_CFG: bits 8:0, RWL. 100 µs units -/
def MP_HS_CFG_HS_TIME : Field := ⟨.mp, 0x8003C, 0x80, 80, 4, 1, 8, 0, .rwl, false⟩
/-- MP.HS_CFG: bits 31:16, RWL. Q1.15 magnitude, mode 6 -/
def MP_HS_CFG_HS_VQ_LIM : Field := ⟨.mp, 0x8003C, 0x80, 80, 4, 1, 31, 16, .rwl, false⟩
/-- MP.STAT: bits 2:0, RO. 0 OFF, 1 IDLE, 2 PLANNING, 3 MOVING, 4 ABORTING, 5 HOMING, 6 WAIT_TRIGGER -/
def MP_STAT_STATE : Field := ⟨.mp, 0x80040, 0x80, 80, 4, 1, 2, 0, .ro, true⟩
/-- MP.STAT: bits 3:3, RO. R223 -/
def MP_STAT_HOMED : Field := ⟨.mp, 0x80040, 0x80, 80, 4, 1, 3, 3, .ro, true⟩
/-- MP.STAT: bits 4:4, RO. R203 -/
def MP_STAT_LIMIT_DEFERRED : Field := ⟨.mp, 0x80040, 0x80, 80, 4, 1, 4, 4, .ro, true⟩
/-- MP.STAT: bits 7:5, RO. Segments queued -/
def MP_STAT_QUEUE : Field := ⟨.mp, 0x80040, 0x80, 80, 4, 1, 7, 5, .ro, true⟩
/-- MP.STAT: bits 11:8, RO. Last abort cause (R205) -/
def MP_STAT_CAUSE : Field := ⟨.mp, 0x80040, 0x80, 80, 4, 1, 11, 8, .ro, true⟩
/-- MP.STAT: bits 23:16, RO. R222 -/
def MP_STAT_HOME_RESULT : Field := ⟨.mp, 0x80040, 0x80, 80, 4, 1, 23, 16, .ro, true⟩
/-- MP.POS_LO: bits 31:0, RO. Sample S(n + 1) in the formats of R198 -/
def MP_POS_LO : Field := ⟨.mp, 0x80044, 0x80, 80, 4, 1, 31, 0, .ro, true⟩
/-- MP.POS_HI: bits 31:0, RO. Sample S(n + 1) in the formats of R198 -/
def MP_POS_HI : Field := ⟨.mp, 0x80048, 0x80, 80, 4, 1, 31, 0, .ro, true⟩
/-- MP.VEL_LO: bits 31:0, RO. Sample S(n + 1) in the formats of R198 -/
def MP_VEL_LO : Field := ⟨.mp, 0x8004C, 0x80, 80, 4, 1, 31, 0, .ro, true⟩
/-- MP.VEL_HI: bits 31:0, RO. Sample S(n + 1) in the formats of R198 -/
def MP_VEL_HI : Field := ⟨.mp, 0x80050, 0x80, 80, 4, 1, 31, 0, .ro, true⟩
/-- MP.ACC_LO: bits 31:0, RO. Sample S(n + 1) in the formats of R198 -/
def MP_ACC_LO : Field := ⟨.mp, 0x80054, 0x80, 80, 4, 1, 31, 0, .ro, true⟩
/-- MP.ACC_HI: bits 31:0, RO. Sample S(n + 1) in the formats of R198 -/
def MP_ACC_HI : Field := ⟨.mp, 0x80058, 0x80, 80, 4, 1, 31, 0, .ro, true⟩
/-- MP.TGT_LO: bits 31:0, RO. Target in force -/
def MP_TGT_LO : Field := ⟨.mp, 0x8005C, 0x80, 80, 4, 1, 31, 0, .ro, true⟩
/-- MP.TGT_HI: bits 31:0, RO. Target in force -/
def MP_TGT_HI : Field := ⟨.mp, 0x80060, 0x80, 80, 4, 1, 31, 0, .ro, true⟩
/-- MP.COUNT: bits 15:0, RC. Aborts started -/
def MP_COUNT_ABORTS : Field := ⟨.mp, 0x80064, 0x80, 80, 4, 1, 15, 0, .rc, true⟩
/-- MP.COUNT: bits 23:16, RC. R213 -/
def MP_COUNT_TRG_UNUSED : Field := ⟨.mp, 0x80064, 0x80, 80, 4, 1, 23, 16, .rc, true⟩
/-- MP.COUNT: bits 31:24, RC. R203 -/
def MP_COUNT_DEFERRALS : Field := ⟨.mp, 0x80064, 0x80, 80, 4, 1, 31, 24, .rc, true⟩
/-- MP.HOME_POS_LO: bits 31:0, RO. Latched position of the last home event -/
def MP_HOME_POS_LO : Field := ⟨.mp, 0x80068, 0x80, 80, 4, 1, 31, 0, .ro, true⟩
/-- MP.HOME_POS_HI: bits 31:0, RO. Latched position of the last home event -/
def MP_HOME_POS_HI : Field := ⟨.mp, 0x8006C, 0x80, 80, 4, 1, 31, 0, .ro, true⟩
/-- ST.CFG: bits 0:0, RWL. 1 inverts the pin -/
def ST_CFG_POL_STEP : Field := ⟨.mp, 0x83000, 0x20, 16, 4, 1, 0, 0, .rwl, false⟩
/-- ST.CFG: bits 1:1, RWL. 1 inverts the pin -/
def ST_CFG_POL_DIR : Field := ⟨.mp, 0x83000, 0x20, 16, 4, 1, 1, 1, .rwl, false⟩
/-- ST.CFG: bits 5:2, RWL. Ticks, 1–15 -/
def ST_CFG_PULSE_W : Field := ⟨.mp, 0x83000, 0x20, 16, 4, 1, 5, 2, .rwl, false⟩
/-- ST.CFG: bits 13:6, RWL. Ticks, 1–255 -/
def ST_CFG_DIR_SETUP : Field := ⟨.mp, 0x83000, 0x20, 16, 4, 1, 13, 6, .rwl, false⟩
/-- ST.CFG: bits 14:14, RWL. R214 -/
def ST_CFG_HOLD : Field := ⟨.mp, 0x83000, 0x20, 16, 4, 1, 14, 14, .rwl, false⟩
/-- ST.CPR: bits 31:0, RWL. Steps per revolution; 0 is 2^32 -/
def ST_CPR : Field := ⟨.mp, 0x83004, 0x20, 16, 4, 1, 31, 0, .rwl, false⟩
/-- ST.STAT: bits 0:0, RO. Accepted STk_RDY -/
def ST_STAT_RDY : Field := ⟨.mp, 0x83008, 0x20, 16, 4, 1, 0, 0, .ro, true⟩
/-- ST.STAT: bits 1:1, RO. STk_EN active -/
def ST_STAT_EN_OUT : Field := ⟨.mp, 0x83008, 0x20, 16, 4, 1, 1, 1, .ro, true⟩
/-- ST.STAT: bits 2:2, RO. STk_DIR, 1 negative -/
def ST_STAT_DIR : Field := ⟨.mp, 0x83008, 0x20, 16, 4, 1, 2, 2, .ro, true⟩
/-- ST.STAT: bits 4:3, RO. Pending steps (R210) -/
def ST_STAT_PENDING : Field := ⟨.mp, 0x83008, 0x20, 16, 4, 1, 4, 3, .ro, true⟩
/-- ST.VWORD_LO: bits 31:0, RO. Word in force, signed 48-bit -/
def ST_VWORD_LO : Field := ⟨.mp, 0x8300C, 0x20, 16, 4, 1, 31, 0, .ro, true⟩
/-- ST.VWORD_HI: bits 15:0, RO. Word in force, signed 48-bit -/
def ST_VWORD_HI_V : Field := ⟨.mp, 0x83010, 0x20, 16, 4, 1, 15, 0, .ro, true⟩
/-- ST.STEP_LO: bits 31:0, RO. Issued step count, signed 48-bit -/
def ST_STEP_LO : Field := ⟨.mp, 0x83014, 0x20, 16, 4, 1, 31, 0, .ro, true⟩
/-- ST.STEP_HI: bits 15:0, RO. Issued step count, signed 48-bit -/
def ST_STEP_HI_STEPS : Field := ⟨.mp, 0x83018, 0x20, 16, 4, 1, 15, 0, .ro, true⟩
/-- ST.COUNT: bits 7:0, RC. R212, R211, R214 -/
def ST_COUNT_RATE_CLAMP : Field := ⟨.mp, 0x8301C, 0x20, 16, 4, 1, 7, 0, .rc, true⟩
/-- ST.COUNT: bits 15:8, RC. R212, R211, R214 -/
def ST_COUNT_FEED_LATE : Field := ⟨.mp, 0x8301C, 0x20, 16, 4, 1, 15, 8, .rc, true⟩
/-- ST.COUNT: bits 23:16, RC. R212, R211, R214 -/
def ST_COUNT_DRV_LOST : Field := ⟨.mp, 0x8301C, 0x20, 16, 4, 1, 23, 16, .rc, true⟩
/-- MP.AXIN_INV_LO: bits 31:0, RWL. Inverts AXIN0–31 and AXIN32–47 -/
def MP_AXIN_INV_LO : Field := ⟨.mp, 0x83400, 0x4, 1, 4, 1, 31, 0, .rwl, false⟩
/-- MP.AXIN_INV_HI: bits 15:0, RWL. Inverts AXIN0–31 and AXIN32–47 -/
def MP_AXIN_INV_HI_INV : Field := ⟨.mp, 0x83404, 0x4, 1, 4, 1, 15, 0, .rwl, false⟩
/-- MP.AXIN_LEVEL_LO: bits 31:0, RO. Accepted levels (R216) -/
def MP_AXIN_LEVEL_LO : Field := ⟨.mp, 0x83408, 0x4, 1, 4, 1, 31, 0, .ro, true⟩
/-- MP.AXIN_LEVEL_HI: bits 15:0, RO. Accepted levels (R216) -/
def MP_AXIN_LEVEL_HI_L : Field := ⟨.mp, 0x8340C, 0x4, 1, 4, 1, 15, 0, .ro, true⟩
/-- MP.AXIN_CHAT_LO: bits 31:0, RO. Chatter latches (R217) -/
def MP_AXIN_CHAT_LO : Field := ⟨.mp, 0x83410, 0x4, 1, 4, 1, 31, 0, .ro, true⟩
/-- MP.AXIN_CHAT_HI: bits 15:0, RO. Chatter latches (R217) -/
def MP_AXIN_CHAT_HI_C : Field := ⟨.mp, 0x83414, 0x4, 1, 4, 1, 15, 0, .ro, true⟩

/-- Every field of block MP. -/
def mpMap : List Field :=
  [MP_CFG_EN, MP_CFG_CG, MP_CFG_SCALE_EN, MP_CFG_UNIT_SHL, MP_VMAX, MP_AMAX, MP_DMAX, MP_JMAX, MP_DEC_ABORT, MP_LIM_SRC_ADDR, MP_IN_CFG_LIM_POS, MP_IN_CFG_LIM_NEG] ++
  [MP_IN_CFG_HOME, MP_HOME_CFG_MODE, MP_HOME_CFG_DIR, MP_HOME_CFG_IDX_CH, MP_HOME_VFAST, MP_HOME_VSLOW, MP_HOME_DEC, MP_HOME_OFS_LO, MP_HOME_OFS_HI, MP_HOME_TRAVEL, MP_HS_CFG_HS_TIME, MP_HS_CFG_HS_VQ_LIM] ++
  [MP_STAT_STATE, MP_STAT_HOMED, MP_STAT_LIMIT_DEFERRED, MP_STAT_QUEUE, MP_STAT_CAUSE, MP_STAT_HOME_RESULT, MP_POS_LO, MP_POS_HI, MP_VEL_LO, MP_VEL_HI, MP_ACC_LO, MP_ACC_HI] ++
  [MP_TGT_LO, MP_TGT_HI, MP_COUNT_ABORTS, MP_COUNT_TRG_UNUSED, MP_COUNT_DEFERRALS, MP_HOME_POS_LO, MP_HOME_POS_HI, ST_CFG_POL_STEP, ST_CFG_POL_DIR, ST_CFG_PULSE_W, ST_CFG_DIR_SETUP, ST_CFG_HOLD] ++
  [ST_CPR, ST_STAT_RDY, ST_STAT_EN_OUT, ST_STAT_DIR, ST_STAT_PENDING, ST_VWORD_LO, ST_VWORD_HI_V, ST_STEP_LO, ST_STEP_HI_STEPS, ST_COUNT_RATE_CLAMP, ST_COUNT_FEED_LATE, ST_COUNT_DRV_LOST] ++
  [MP_AXIN_INV_LO, MP_AXIN_INV_HI_INV, MP_AXIN_LEVEL_LO, MP_AXIN_LEVEL_HI_L, MP_AXIN_CHAT_LO, MP_AXIN_CHAT_HI_C]

/-- The reset value of the register at an offset of block MP. -/
def mpReset (off : Nat) : Word :=
  if 0x80000 ≤ off ∧ off < 0x82800 ∧ (off - 0x80000) % 0x80 = 0 then 0x3E
  else if 0x8001C ≤ off ∧ off < 0x8281C ∧ (off - 0x8001C) % 0x80 = 0 then 0x3F3F3F
  else if 0x83000 ≤ off ∧ off < 0x83200 ∧ (off - 0x83000) % 0x20 = 0 then 0x650
  else 0

/-! ### Block SV -/

/-- SV.CFG: bits 15:0, RWL. Image directory entry of the solver image -/
def SV_CFG_IMAGE : Field := ⟨.sv, 0xA0000, 0x100, 9, 4, 1, 15, 0, .rwl, false⟩
/-- SV.CFG: bits 16:16, RWL. Engine in use -/
def SV_CFG_EN : Field := ⟨.sv, 0xA0000, 0x100, 9, 4, 1, 16, 16, .rwl, false⟩
/-- SV.CFG: bits 22:17, RWL. Iteration budget, 1–63 -/
def SV_CFG_ITER_MAX : Field := ⟨.sv, 0xA0000, 0x100, 9, 4, 1, 22, 17, .rwl, false⟩
/-- SV.PB_ADDR: bits 20:0, RWL. Granary word address of the parameter block -/
def SV_PB_ADDR_ADDR : Field := ⟨.sv, 0xA0004, 0x100, 9, 4, 1, 20, 0, .rwl, false⟩
/-- SV.OUT_ADDR: bits 20:0, RWL. Granary word address of the output region -/
def SV_OUT_ADDR_ADDR : Field := ⟨.sv, 0xA0008, 0x100, 9, 4, 1, 20, 0, .rwl, false⟩
/-- SV.DIM: bits 3:0, RO. Joints; 0 for CE -/
def SV_DIM_NJ : Field := ⟨.sv, 0xA000C, 0x100, 9, 4, 1, 3, 0, .ro, true⟩
/-- SV.DIM: bits 9:4, RO. Horizon; 1 for CE -/
def SV_DIM_N : Field := ⟨.sv, 0xA000C, 0x100, 9, 4, 1, 9, 4, .ro, true⟩
/-- SV.DIM: bits 19:10, RO. Rows per stage; CE: Rc -/
def SV_DIM_M : Field := ⟨.sv, 0xA000C, 0x100, 9, 4, 1, 19, 10, .ro, true⟩
/-- SV.DIM: bits 25:20, RO. CE variables; 0 for arms -/
def SV_DIM_V : Field := ⟨.sv, 0xA000C, 0x100, 9, 4, 1, 25, 20, .ro, true⟩
/-- SV.BUDGET: bits 31:0, RO. B_solve of R247 for ITER_MAX -/
def SV_BUDGET : Field := ⟨.sv, 0xA0010, 0x100, 9, 4, 1, 31, 0, .ro, true⟩
/-- SV.SCRATCH: bits 17:0, RO. S of R248 -/
def SV_SCRATCH_WORDS : Field := ⟨.sv, 0xA0014, 0x100, 9, 4, 1, 17, 0, .ro, true⟩
/-- SV.RUN: bits 15:0, RO. Last solve, time-base ticks from dispatch to end -/
def SV_RUN_LAST : Field := ⟨.sv, 0xA0018, 0x100, 9, 4, 1, 15, 0, .ro, true⟩
/-- SV.RUN: bits 31:16, RC. Longest solve since last read, time-base ticks -/
def SV_RUN_MAX : Field := ⟨.sv, 0xA0018, 0x100, 9, 4, 1, 31, 16, .rc, true⟩
/-- SV.ITER_STAT: bits 5:0, RO. Iterations of the last solve -/
def SV_ITER_STAT_ITER_LAST : Field := ⟨.sv, 0xA001C, 0x100, 9, 4, 1, 5, 0, .ro, true⟩
/-- SV.ITER_STAT: bits 15:8, RO. Pivots raised in the last solve, saturating -/
def SV_ITER_STAT_PIV_FLOORS : Field := ⟨.sv, 0xA001C, 0x100, 9, 4, 1, 15, 8, .ro, true⟩
/-- SV.CERT_STAT: bits 15:0, RO. Variable index of the last violation or overflow -/
def SV_CERT_STAT_VAR : Field := ⟨.sv, 0xA0020, 0x100, 9, 4, 1, 15, 0, .ro, true⟩
/-- SV.CERT_STAT: bits 21:16, RO. Stage, or element of a separation row -/
def SV_CERT_STAT_SUB : Field := ⟨.sv, 0xA0020, 0x100, 9, 4, 1, 21, 16, .ro, true⟩
/-- SV.CERT_STAT: bits 23:22, RO. 0 live input, 1 parameter, 2 overflow (R240) -/
def SV_CERT_STAT_KIND : Field := ⟨.sv, 0xA0020, 0x100, 9, 4, 1, 23, 22, .ro, true⟩
/-- SV.CERT_VAL: bits 31:0, RO. Offending value, saturated to 32 bits -/
def SV_CERT_VAL : Field := ⟨.sv, 0xA0024, 0x100, 9, 4, 1, 31, 0, .ro, true⟩
/-- SV.COUNT: bits 7:0, RC. Certificate violations -/
def SV_COUNT_CERT_VIOL : Field := ⟨.sv, 0xA0028, 0x100, 9, 4, 1, 7, 0, .rc, true⟩
/-- SV.COUNT: bits 15:8, RC. Overflows -/
def SV_COUNT_OVF : Field := ⟨.sv, 0xA0028, 0x100, 9, 4, 1, 15, 8, .rc, true⟩
/-- SV.COUNT: bits 23:16, RC. Corrected scratch errors -/
def SV_COUNT_ECC_CORR : Field := ⟨.sv, 0xA0028, 0x100, 9, 4, 1, 23, 16, .rc, true⟩
/-- SV.COUNT: bits 31:24, RC. Solves with at least one raised pivot -/
def SV_COUNT_PIV_FLOOR : Field := ⟨.sv, 0xA0028, 0x100, 9, 4, 1, 31, 24, .rc, true⟩
/-- SV.SOLVES: bits 31:0, RC. Solves dispatched -/
def SV_SOLVES : Field := ⟨.sv, 0xA002C, 0x100, 9, 4, 1, 31, 0, .rc, true⟩
/-- SV.RT_CFG_A: bits 5:0, RWL. Extended cold-start iteration budget; 0 none (R263) -/
def SV_RT_CFG_A_COLD_ITER : Field := ⟨.sv, 0xA0080, 0x100, 9, 4, 1, 5, 0, .rwl, false⟩
/-- SV.RT_CFG_A: bits 11:6, RWL. First iteration with the certificate test, 1–63 (R264) -/
def SV_RT_CFG_A_INF_FROM : Field := ⟨.sv, 0xA0080, 0x100, 9, 4, 1, 11, 6, .rwl, false⟩
/-- SV.RT_CFG_A: bits 17:12, RWL. 1–63 (R267) -/
def SV_RT_CFG_A_INF_PERSIST : Field := ⟨.sv, 0xA0080, 0x100, 9, 4, 1, 17, 12, .rwl, false⟩
/-- SV.RT_CFG_A: bits 23:18, RWL. 1 to N - 1 (R267, R268) -/
def SV_RT_CFG_A_FB_PERSIST : Field := ⟨.sv, 0xA0080, 0x100, 9, 4, 1, 23, 18, .rwl, false⟩
/-- SV.RT_CFG_A: bits 25:24, RWL. 1 SS2, 2 SS1; 0 and 3 refused -/
def SV_RT_CFG_A_STOP_REACT : Field := ⟨.sv, 0xA0080, 0x100, 9, 4, 1, 25, 24, .rwl, false⟩
/-- SV.RT_CFG_B: bits 31:0, RWL. Acceptance threshold, Q8.24 (R256) -/
def SV_RT_CFG_B : Field := ⟨.sv, 0xA0084, 0x100, 9, 4, 1, 31, 0, .rwl, false⟩
/-- SV.EPS_INF: bits 31:0, RWL. Certificate tolerance, Q8.24 (R264) -/
def SV_EPS_INF : Field := ⟨.sv, 0xA0088, 0x100, 9, 4, 1, 31, 0, .rwl, false⟩
/-- SV.STATUS: bits 31:0, RO. Status word of the last output (R257) -/
def SV_STATUS : Field := ⟨.sv, 0xA008C, 0x100, 9, 4, 1, 31, 0, .ro, true⟩
/-- SV.HASH: bits 31:0, RO. CRC-32C of the descriptor in force (R258) -/
def SV_HASH : Field := ⟨.sv, 0xA0090, 0x100, 9, 4, 1, 31, 0, .ro, true⟩
/-- SV.INF_ROW: bits 13:0, RO. Most-violated row, kM + j (R265) -/
def SV_INF_ROW_ROW : Field := ⟨.sv, 0xA0094, 0x100, 9, 4, 1, 13, 0, .ro, true⟩
/-- SV.INF_ROW: bits 17:16, RO. 0 joint box, 1 torque, 2 keep-out plane, 3 separation -/
def SV_INF_ROW_CLASS : Field := ⟨.sv, 0xA0094, 0x100, 9, 4, 1, 17, 16, .ro, true⟩
/-- SV.INF_VAL: bits 31:0, RO. Q8.24, saturated -/
def SV_INF_VAL : Field := ⟨.sv, 0xA0098, 0x100, 9, 4, 1, 31, 0, .ro, true⟩
/-- SV.RT_COUNT_A: bits 7:0, RC. Outcomes 1 and 2 -/
def SV_RT_COUNT_A_ACCEPTED : Field := ⟨.sv, 0xA009C, 0x100, 9, 4, 1, 7, 0, .rc, true⟩
/-- SV.RT_COUNT_A: bits 15:8, RC. Outcomes 3 to 9 -/
def SV_RT_COUNT_A_SHIFTED : Field := ⟨.sv, 0xA009C, 0x100, 9, 4, 1, 15, 8, .rc, true⟩
/-- SV.RT_COUNT_A: bits 23:16, RC. Outcome 3 -/
def SV_RT_COUNT_A_INFEASIBLE : Field := ⟨.sv, 0xA009C, 0x100, 9, 4, 1, 23, 16, .rc, true⟩
/-- SV.RT_COUNT_A: bits 31:24, RC. Cold starts -/
def SV_RT_COUNT_A_COLD : Field := ⟨.sv, 0xA009C, 0x100, 9, 4, 1, 31, 24, .rc, true⟩
/-- SV.RT_COUNT_B: bits 7:0, RC. Outcome 6 -/
def SV_RT_COUNT_B_CUT_MIDFACTOR : Field := ⟨.sv, 0xA00A0, 0x100, 9, 4, 1, 7, 0, .rc, true⟩
/-- SV.RT_COUNT_B: bits 15:8, RC. Outcomes 2, 7 and 9 -/
def SV_RT_COUNT_B_CUT_OTHER : Field := ⟨.sv, 0xA00A0, 0x100, 9, 4, 1, 15, 8, .rc, true⟩
/-- SV.RT_COUNT_B: bits 23:16, RC. R263 -/
def SV_RT_COUNT_B_GRANT_REFUSED : Field := ⟨.sv, 0xA00A0, 0x100, 9, 4, 1, 23, 16, .rc, true⟩
/-- SV.RT_COUNT_B: bits 31:24, RC. R267 -/
def SV_RT_COUNT_B_STOP_REQS : Field := ⟨.sv, 0xA00A0, 0x100, 9, 4, 1, 31, 24, .rc, true⟩
/-- SV.FORCE_COLD: bits 0:0, WO. 1 increments the force generation (R258); accepted at any time -/
def SV_FORCE_COLD_FORCE : Field := ⟨.sv, 0xA00A4, 0x100, 9, 4, 1, 0, 0, .wo, false⟩

/-- Every field of block SV. -/
def svMap : List Field :=
  [SV_CFG_IMAGE, SV_CFG_EN, SV_CFG_ITER_MAX, SV_PB_ADDR_ADDR, SV_OUT_ADDR_ADDR, SV_DIM_NJ, SV_DIM_N, SV_DIM_M, SV_DIM_V, SV_BUDGET, SV_SCRATCH_WORDS, SV_RUN_LAST] ++
  [SV_RUN_MAX, SV_ITER_STAT_ITER_LAST, SV_ITER_STAT_PIV_FLOORS, SV_CERT_STAT_VAR, SV_CERT_STAT_SUB, SV_CERT_STAT_KIND, SV_CERT_VAL, SV_COUNT_CERT_VIOL, SV_COUNT_OVF, SV_COUNT_ECC_CORR, SV_COUNT_PIV_FLOOR, SV_SOLVES] ++
  [SV_RT_CFG_A_COLD_ITER, SV_RT_CFG_A_INF_FROM, SV_RT_CFG_A_INF_PERSIST, SV_RT_CFG_A_FB_PERSIST, SV_RT_CFG_A_STOP_REACT, SV_RT_CFG_B, SV_EPS_INF, SV_STATUS, SV_HASH, SV_INF_ROW_ROW, SV_INF_ROW_CLASS, SV_INF_VAL] ++
  [SV_RT_COUNT_A_ACCEPTED, SV_RT_COUNT_A_SHIFTED, SV_RT_COUNT_A_INFEASIBLE, SV_RT_COUNT_A_COLD, SV_RT_COUNT_B_CUT_MIDFACTOR, SV_RT_COUNT_B_CUT_OTHER, SV_RT_COUNT_B_GRANT_REFUSED, SV_RT_COUNT_B_STOP_REQS, SV_FORCE_COLD_FORCE]

/-- The reset value of the register at an offset of block SV. -/
def svReset (off : Nat) : Word :=
  if 0xA0000 ≤ off ∧ off < 0xA0900 ∧ (off - 0xA0000) % 0x100 = 0 then 0x140000
  else if 0xA0080 ≤ off ∧ off < 0xA0980 ∧ (off - 0xA0080) % 0x100 = 0 then 0x21030C0
  else if 0xA0084 ≤ off ∧ off < 0xA0984 ∧ (off - 0xA0084) % 0x100 = 0 then 0x4189
  else if 0xA0088 ≤ off ∧ off < 0xA0988 ∧ (off - 0xA0088) % 0x100 = 0 then 0x68E
  else 0

/-! ### Block SEP -/

/-- SEP.CFG: bits 0:0, RWL. Separation function in use -/
def SEP_CFG_EN : Field := ⟨.sep, 0xC0000, 0x4, 1, 4, 1, 0, 0, .rwl, false⟩
/-- SEP.CFG: bits 3:1, RWL. Sweep divisor 2^SWEEP_SHL (R289) -/
def SEP_CFG_SWEEP_SHL : Field := ⟨.sep, 0xC0000, 0x4, 1, 4, 1, 3, 1, .rwl, false⟩
/-- SEP.CFG: bits 7:4, RWL. Nominated obstacles per arm, 1–8 -/
def SEP_CFG_NOM : Field := ⟨.sep, 0xC0000, 0x4, 1, 4, 1, 7, 4, .rwl, false⟩
/-- SEP.CFG: bits 8:8, RWL. R292 -/
def SEP_CFG_BV_GLOBAL : Field := ⟨.sep, 0xC0000, 0x4, 1, 4, 1, 8, 8, .rwl, false⟩
/-- SEP.CFG: bits 18:9, RWL. Sum of CAP_MAX, 0–512 -/
def SEP_CFG_NOC_MAX : Field := ⟨.sep, 0xC0000, 0x4, 1, 4, 1, 18, 9, .rwl, false⟩
/-- SEP.PB_ADDR: bits 20:0, RWL. Granary word addresses of the parameter block (R296) and of the output region (R285), which holds four status  -/
def SEP_PB_ADDR_ADDR : Field := ⟨.sep, 0xC0004, 0x4, 1, 4, 1, 20, 0, .rwl, false⟩
/-- SEP.OUT_ADDR: bits 20:0, RWL. Granary word addresses of the parameter block (R296) and of the output region (R285), which holds four status  -/
def SEP_OUT_ADDR_ADDR : Field := ⟨.sep, 0xC0008, 0x4, 1, 4, 1, 20, 0, .rwl, false⟩
/-- SEP.BV_CFG: bits 15:0, RWL. µm, 1–65,535 -/
def SEP_BV_CFG_DIST_TOL : Field := ⟨.sep, 0xC000C, 0x4, 1, 4, 1, 15, 0, .rwl, false⟩
/-- SEP.BV_CFG: bits 25:16, RWL. ms, 0–500 -/
def SEP_BV_CFG_BV_DELAY : Field := ⟨.sep, 0xC000C, 0x4, 1, 4, 1, 25, 16, .rwl, false⟩
/-- SEP.RR_CFG: bits 15:0, RWL. mm -/
def SEP_RR_CFG_RR_STOP : Field := ⟨.sep, 0xC0010, 0x4, 1, 4, 1, 15, 0, .rwl, false⟩
/-- SEP.RR_CFG: bits 17:16, RWL. 1 SS2, 2 SS1, 3 STO -/
def SEP_RR_CFG_RR_REACT : Field := ⟨.sep, 0xC0010, 0x4, 1, 4, 1, 17, 16, .rwl, false⟩
/-- SEP.RR_CFG: bits 25:18, RWL. ms -/
def SEP_RR_CFG_BV_SS1_GRACE : Field := ⟨.sep, 0xC0010, 0x4, 1, 4, 1, 25, 18, .rwl, false⟩
/-- SEP.STAT: bits 0:0, RO. R286 in the last period -/
def SEP_STAT_GEOM_FAIL : Field := ⟨.sep, 0xC0014, 0x4, 1, 4, 1, 0, 0, .ro, true⟩
/-- SEP.STAT: bits 31:16, RO. Time-base ticks from the boundary to the handover -/
def SEP_STAT_GEOM_LAST : Field := ⟨.sep, 0xC0014, 0x4, 1, 4, 1, 31, 16, .ro, true⟩
/-- SEP.BV_STAT: bits 7:0, RO. One bit per arm group with Belvedere's latch set -/
def SEP_BV_STAT_STO_REQ : Field := ⟨.sep, 0xC0018, 0x4, 1, 4, 1, 7, 0, .ro, false⟩
/-- SEP.BV_STAT: bits 10:8, RO. Check of the last disagreement (R290); 6 for missed -/
def SEP_BV_STAT_LAST_CHECK : Field := ⟨.sep, 0xC0018, 0x4, 1, 4, 1, 10, 8, .ro, false⟩
/-- SEP.BV_STAT: bits 22:16, RO. w mod 2^SWEEP_SHL of the last period -/
def SEP_BV_STAT_SWEEP_SLICE : Field := ⟨.sep, 0xC0018, 0x4, 1, 4, 1, 22, 16, .ro, false⟩
/-- SEP.COUNT: bits 7:0, RC. Events counted -/
def SEP_COUNT_DISAGREE : Field := ⟨.sep, 0xC001C, 0x4, 1, 4, 1, 7, 0, .rc, true⟩
/-- SEP.COUNT: bits 15:8, RC. Events counted -/
def SEP_COUNT_MISSED : Field := ⟨.sep, 0xC001C, 0x4, 1, 4, 1, 15, 8, .rc, true⟩
/-- SEP.COUNT: bits 23:16, RC. Events counted -/
def SEP_COUNT_PROTECT : Field := ⟨.sep, 0xC001C, 0x4, 1, 4, 1, 23, 16, .rc, true⟩
/-- SEP.COUNT: bits 31:24, RC. Events counted -/
def SEP_COUNT_BLIND : Field := ⟨.sep, 0xC001C, 0x4, 1, 4, 1, 31, 24, .rc, true⟩
/-- SEP.ARM_STAT_A: bits 31:0, RO. Least d_a,o, Q8.24 m -/
def SEP_ARM_STAT_A : Field := ⟨.sep, 0xC0040, 0x10, 8, 4, 1, 31, 0, .ro, true⟩
/-- SEP.ARM_STAT_B: bits 31:0, RO. s_p of the least-margin obstacle, Q8.24 m -/
def SEP_ARM_STAT_B : Field := ⟨.sep, 0xC0044, 0x10, 8, 4, 1, 31, 0, .ro, true⟩
/-- SEP.ARM_STAT_C: bits 15:0, RO. Q1.15 -/
def SEP_ARM_STAT_C_KMAX : Field := ⟨.sep, 0xC0048, 0x10, 8, 4, 1, 15, 0, .ro, true⟩
/-- SEP.ARM_STAT_C: bits 24:16, RO. Least-margin obstacle index -/
def SEP_ARM_STAT_C_OBSTACLE : Field := ⟨.sep, 0xC0048, 0x10, 8, 4, 1, 24, 16, .ro, true⟩
/-- SEP.ARM_STAT_C: bits 26:25, RO. 0 CLEAR, 1 SCALED, 2 STOP -/
def SEP_ARM_STAT_C_DECISION : Field := ⟨.sep, 0xC0048, 0x10, 8, 4, 1, 26, 25, .ro, true⟩
/-- SEP.ARM_STAT_C: bits 28:27, RO. Category of a STOP -/
def SEP_ARM_STAT_C_CATEGORY : Field := ⟨.sep, 0xC0048, 0x10, 8, 4, 1, 28, 27, .ro, true⟩
/-- SEP.ARM_STAT_C: bits 29:29, RO. R279 -/
def SEP_ARM_STAT_C_TABLE_RANGE : Field := ⟨.sep, 0xC0048, 0x10, 8, 4, 1, 29, 29, .ro, true⟩
/-- SEP.ARM_STAT_C: bits 30:30, RO. A zone acts on the arm -/
def SEP_ARM_STAT_C_ZONE : Field := ⟨.sep, 0xC0048, 0x10, 8, 4, 1, 30, 30, .ro, true⟩
/-- SEP.ARM_STAT_D: bits 31:0, RO. Belvedere's least margin, signed µm -/
def SEP_ARM_STAT_D : Field := ⟨.sep, 0xC004C, 0x10, 8, 4, 1, 31, 0, .ro, true⟩
/-- SEP.SCAN_STAT: bits 1:0, RO. 0 unused, 1 OK, 2 BLIND -/
def SEP_SCAN_STAT_STATE : Field := ⟨.sep, 0xC0100, 0x4, 32, 4, 1, 1, 0, .ro, true⟩
/-- SEP.SCAN_STAT: bits 4:2, RO. R275 -/
def SEP_SCAN_STAT_CAUSE : Field := ⟨.sep, 0xC0100, 0x4, 32, 4, 1, 4, 2, .ro, true⟩
/-- SEP.SCAN_STAT: bits 9:5, RO. Capsules used -/
def SEP_SCAN_STAT_COUNT : Field := ⟨.sep, 0xC0100, 0x4, 32, 4, 1, 9, 5, .ro, true⟩
/-- SEP.SCAN_STAT: bits 31:12, RO. µs, saturating -/
def SEP_SCAN_STAT_AGE : Field := ⟨.sep, 0xC0100, 0x4, 32, 4, 1, 31, 12, .ro, true⟩

/-- Every field of block SEP. -/
def sepMap : List Field :=
  [SEP_CFG_EN, SEP_CFG_SWEEP_SHL, SEP_CFG_NOM, SEP_CFG_BV_GLOBAL, SEP_CFG_NOC_MAX, SEP_PB_ADDR_ADDR, SEP_OUT_ADDR_ADDR, SEP_BV_CFG_DIST_TOL, SEP_BV_CFG_BV_DELAY, SEP_RR_CFG_RR_STOP, SEP_RR_CFG_RR_REACT, SEP_RR_CFG_BV_SS1_GRACE] ++
  [SEP_STAT_GEOM_FAIL, SEP_STAT_GEOM_LAST, SEP_BV_STAT_STO_REQ, SEP_BV_STAT_LAST_CHECK, SEP_BV_STAT_SWEEP_SLICE, SEP_COUNT_DISAGREE, SEP_COUNT_MISSED, SEP_COUNT_PROTECT, SEP_COUNT_BLIND, SEP_ARM_STAT_A, SEP_ARM_STAT_B, SEP_ARM_STAT_C_KMAX] ++
  [SEP_ARM_STAT_C_OBSTACLE, SEP_ARM_STAT_C_DECISION, SEP_ARM_STAT_C_CATEGORY, SEP_ARM_STAT_C_TABLE_RANGE, SEP_ARM_STAT_C_ZONE, SEP_ARM_STAT_D, SEP_SCAN_STAT_STATE, SEP_SCAN_STAT_CAUSE, SEP_SCAN_STAT_COUNT, SEP_SCAN_STAT_AGE]

/-- The reset value of the register at an offset of block SEP. -/
def sepReset (off : Nat) : Word :=
  if off = 0xC0000 then 0x4C
  else if off = 0xC000C then 0x7D0
  else if off = 0xC0010 then 0xCA0014
  else 0

/-! ### Block SCH -/

/-- SCH.CFG: bits 6:0, RWL. Solver period in bus cycles, 2–64 (R308) -/
def SCH_CFG_SOLVER_CYC : Field := ⟨.sch, 0xE0000, 0x4, 1, 4, 1, 6, 0, .rwl, false⟩
/-- SCH.COUNT: bits 15:0, RC. Deadline misses, all tasks -/
def SCH_COUNT_DEADLINE_MISS : Field := ⟨.sch, 0xE0004, 0x4, 1, 4, 1, 15, 0, .rc, true⟩
/-- SCH.COUNT: bits 23:16, RC. Dropped releases (R300) -/
def SCH_COUNT_RELEASE_DROP : Field := ⟨.sch, 0xE0004, 0x4, 1, 4, 1, 23, 16, .rc, true⟩
/-- SCH.COUNT: bits 31:24, RC. Corrected errors (R315) -/
def SCH_COUNT_ECC_CORR : Field := ⟨.sch, 0xE0004, 0x4, 1, 4, 1, 31, 24, .rc, true⟩
/-- SCH.UNIT_SEL: bits 7:0, RW. TARGET code of the unit shown in UNIT_STAT -/
def SCH_UNIT_SEL_UNIT : Field := ⟨.sch, 0xE0008, 0x4, 1, 4, 1, 7, 0, .rw, false⟩
/-- SCH.UNIT_STAT: bits 15:0, RO. Q1.15, utilisation of R309 at the last enable check -/
def SCH_UNIT_STAT_RES_UTIL : Field := ⟨.sch, 0x220000, 0x4, 256, 4, 1, 15, 0, .ro, true⟩
/-- SCH.UNIT_STAT: bits 31:16, RO. Q1.15, busy fraction over the last 1,024 scheduler ticks -/
def SCH_UNIT_STAT_LOAD : Field := ⟨.sch, 0x220000, 0x4, 256, 4, 1, 31, 16, .ro, true⟩
/-- SCH.DBF_STAT: bits 15:0, RO. Unit, by TARGET code, or 4,096 + flow, with the least slack at the last check. After a 0x73 refusal, the faili -/
def SCH_DBF_STAT_WORST_LOCUS : Field := ⟨.sch, 0xE0010, 0x4, 1, 4, 1, 15, 0, .ro, true⟩
/-- SCH.DBF_STAT: bits 31:16, RO. Signed, t - dbf(t) - blk(t) at that point, µs, saturating at -32,768 and 32,767; negative after a 0x73 refusal -/
def SCH_DBF_STAT_WORST_SLACK : Field := ⟨.sch, 0xE0010, 0x4, 1, 4, 1, 31, 16, .ro, true⟩
/-- SCH.DBF_FAIL: bits 31:0, RO. First failing t of the last 0x73 refusal, ns; 0 after a check without one (R310) -/
def SCH_DBF_FAIL : Field := ⟨.sch, 0xE0014, 0x4, 1, 4, 1, 31, 0, .ro, true⟩
/-- SCH.LIST_STAT: bits 10:0, RO. Entries in the list -/
def SCH_LIST_STAT_OCCUPANCY : Field := ⟨.sch, 0xE0020, 0x4, 4, 4, 1, 10, 0, .ro, true⟩
/-- SCH.LIST_STAT: bits 26:16, RC. Largest occupancy since last read -/
def SCH_LIST_STAT_MAX : Field := ⟨.sch, 0xE0020, 0x4, 4, 4, 1, 26, 16, .rc, true⟩
/-- SCH.TASK_SEL: bits 11:0, RW. Task index 0–4,095 -/
def SCH_TASK_SEL_TASK : Field := ⟨.sch, 0xE0040, 0x4, 1, 4, 1, 11, 0, .rw, false⟩
/-- SCH.TASK_A: bits 2:0, RWL. As R299 -/
def SCH_TASK_A_RELEASE : Field := ⟨.sch, 0x200000, 0x20, 4096, 4, 1, 2, 0, .rwl, false⟩
/-- SCH.TASK_A: bits 4:3, RWL. 0 RESERVED, 1 SERVED, 2 BACKGROUND -/
def SCH_TASK_A_CLASS : Field := ⟨.sch, 0x200000, 0x20, 4096, 4, 1, 4, 3, .rwl, false⟩
/-- SCH.TASK_A: bits 12:5, RWL. As R297 -/
def SCH_TASK_A_TARGET : Field := ⟨.sch, 0x200000, 0x20, 4096, 4, 1, 12, 5, .rwl, false⟩
/-- SCH.TASK_A: bits 22:13, RWL. Flow 0–1,023 -/
def SCH_TASK_A_FLOW : Field := ⟨.sch, 0x200000, 0x20, 4096, 4, 1, 22, 13, .rwl, false⟩
/-- SCH.TASK_A: bits 23:23, RWL. Task belongs to FLOW -/
def SCH_TASK_A_FLOW_EN : Field := ⟨.sch, 0x200000, 0x20, 4096, 4, 1, 23, 23, .rwl, false⟩
/-- SCH.TASK_A: bits 25:24, RWL. Delay list (R301) -/
def SCH_TASK_A_LIST : Field := ⟨.sch, 0x200000, 0x20, 4096, 4, 1, 25, 24, .rwl, false⟩
/-- SCH.TASK_B: bits 23:0, RWL. ns at the guarantee pace -/
def SCH_TASK_B_BUDGET_NS : Field := ⟨.sch, 0x200004, 0x20, 4096, 4, 1, 23, 0, .rwl, false⟩
/-- SCH.TASK_C: bits 23:0, RWL. ns from release, or from the chain head's release -/
def SCH_TASK_C_DEADLINE_NS : Field := ⟨.sch, 0x200008, 0x20, 4096, 4, 1, 23, 0, .rwl, false⟩
/-- SCH.TASK_D: bits 12:0, RWL. SIGNAL: feedback channel -/
def SCH_TASK_D_FB : Field := ⟨.sch, 0x20000C, 0x20, 4096, 4, 1, 12, 0, .rwl, false⟩
/-- SCH.TASK_D: bits 6:0, RWL. CYCLE -/
def SCH_TASK_D_MULT : Field := ⟨.sch, 0x20000C, 0x20, 4096, 4, 1, 6, 0, .rwl, false⟩
/-- SCH.TASK_D: bits 13:7, RWL. CYCLE -/
def SCH_TASK_D_PHASE : Field := ⟨.sch, 0x20000C, 0x20, 4096, 4, 1, 13, 7, .rwl, false⟩
/-- SCH.TASK_D: bits 30:14, RWL. CYCLE -/
def SCH_TASK_D_OFFSET : Field := ⟨.sch, 0x20000C, 0x20, 4096, 4, 1, 30, 14, .rwl, false⟩
/-- SCH.TASK_D: bits 19:0, RWL. TIMER -/
def SCH_TASK_D_PERIOD_US : Field := ⟨.sch, 0x20000C, 0x20, 4096, 4, 1, 19, 0, .rwl, false⟩
/-- SCH.TASK_D: bits 31:20, RWL. TIMER -/
def SCH_TASK_D_PHASE_US : Field := ⟨.sch, 0x20000C, 0x20, 4096, 4, 1, 31, 20, .rwl, false⟩
/-- SCH.TASK_D: bits 19:0, RWL. DEMAND -/
def SCH_TASK_D_MIN_GAP_US : Field := ⟨.sch, 0x20000C, 0x20, 4096, 4, 1, 19, 0, .rwl, false⟩
/-- SCH.TASK_D: bits 21:20, RWL. DEMAND -/
def SCH_TASK_D_DSRC : Field := ⟨.sch, 0x20000C, 0x20, 4096, 4, 1, 21, 20, .rwl, false⟩
/-- SCH.TASK_D: bits 11:0, RWL. CHAIN -/
def SCH_TASK_D_PRED : Field := ⟨.sch, 0x20000C, 0x20, 4096, 4, 1, 11, 0, .rwl, false⟩
/-- SCH.TASK_E: bits 15:0, RO. Release to end of the last job, 64 ns units, saturating -/
def SCH_TASK_E_RESP_LAST : Field := ⟨.sch, 0x200010, 0x20, 4096, 4, 1, 15, 0, .ro, true⟩
/-- SCH.TASK_E: bits 31:16, RC. Largest, 64 ns units, saturating -/
def SCH_TASK_E_RESP_MAX : Field := ⟨.sch, 0x200010, 0x20, 4096, 4, 1, 31, 16, .rc, true⟩
/-- SCH.TASK_F: bits 15:0, RC. R306 -/
def SCH_TASK_F_MISSES : Field := ⟨.sch, 0x200014, 0x20, 4096, 4, 1, 15, 0, .rc, true⟩
/-- SCH.TASK_F: bits 31:16, RC. R300 -/
def SCH_TASK_F_DROPS : Field := ⟨.sch, 0x200014, 0x20, 4096, 4, 1, 31, 16, .rc, true⟩

/-- Every field of block SCH. -/
def schMap : List Field :=
  [SCH_CFG_SOLVER_CYC, SCH_COUNT_DEADLINE_MISS, SCH_COUNT_RELEASE_DROP, SCH_COUNT_ECC_CORR, SCH_UNIT_SEL_UNIT, SCH_UNIT_STAT_RES_UTIL, SCH_UNIT_STAT_LOAD, SCH_DBF_STAT_WORST_LOCUS, SCH_DBF_STAT_WORST_SLACK, SCH_DBF_FAIL, SCH_LIST_STAT_OCCUPANCY, SCH_LIST_STAT_MAX] ++
  [SCH_TASK_SEL_TASK, SCH_TASK_A_RELEASE, SCH_TASK_A_CLASS, SCH_TASK_A_TARGET, SCH_TASK_A_FLOW, SCH_TASK_A_FLOW_EN, SCH_TASK_A_LIST, SCH_TASK_B_BUDGET_NS, SCH_TASK_C_DEADLINE_NS, SCH_TASK_D_FB, SCH_TASK_D_MULT, SCH_TASK_D_PHASE] ++
  [SCH_TASK_D_OFFSET, SCH_TASK_D_PERIOD_US, SCH_TASK_D_PHASE_US, SCH_TASK_D_MIN_GAP_US, SCH_TASK_D_DSRC, SCH_TASK_D_PRED, SCH_TASK_E_RESP_LAST, SCH_TASK_E_RESP_MAX, SCH_TASK_F_MISSES, SCH_TASK_F_DROPS]

/-- The reset value of the register at an offset of block SCH. -/
def schReset (off : Nat) : Word :=
  if off = 0xE0000 then 0x8
  else 0

/-! ### Block ME -/

/-- ME.CFG: bits 11:0, RWL. First program word -/
def ME_CFG_PROG_START : Field := ⟨.me, 0xF0000, 0x40, 16, 4, 1, 11, 0, .rwl, false⟩
/-- ME.CFG: bits 12:12, RWL. Channel in use -/
def ME_CFG_EN : Field := ⟨.me, 0xF0000, 0x40, 16, 4, 1, 12, 12, .rwl, false⟩
/-- ME.CFG: bits 13:13, RWL. R322 -/
def ME_CFG_CYCLIC : Field := ⟨.me, 0xF0000, 0x40, 16, 4, 1, 13, 13, .rwl, false⟩
/-- ME.CFG: bits 14:14, RWL. Passes at solver-period boundaries -/
def ME_CFG_SOLVER : Field := ⟨.me, 0xF0000, 0x40, 16, 4, 1, 14, 14, .rwl, false⟩
/-- ME.STATE: bits 2:0, RO. 0 OFF, 1 IDLE, 2 WAITING, 3 RUNNING, 4 HALTED, 5 STOPPED -/
def ME_STATE_STATE : Field := ⟨.me, 0xF0004, 0x40, 16, 4, 1, 2, 0, .ro, true⟩
/-- ME.STATE: bits 3:3, RO. R323 -/
def ME_STATE_COND : Field := ⟨.me, 0xF0004, 0x40, 16, 4, 1, 3, 3, .ro, true⟩
/-- ME.STATE: bits 15:4, RO. Current instruction word -/
def ME_STATE_IADDR : Field := ⟨.me, 0xF0004, 0x40, 16, 4, 1, 15, 4, .ro, true⟩
/-- ME.STATE: bits 23:16, RO. R332, fixed at enable -/
def ME_STATE_ARM_MASK : Field := ⟨.me, 0xF0004, 0x40, 16, 4, 1, 23, 16, .ro, true⟩
/-- ME.RESIDUE_A: bits 11:0, RO. MOVE word address -/
def ME_RESIDUE_A_IADDR : Field := ⟨.me, 0xF0008, 0x40, 16, 4, 1, 11, 0, .ro, false⟩
/-- ME.RESIDUE_A: bits 17:12, RO. Stream of the next element -/
def ME_RESIDUE_A_STREAM : Field := ⟨.me, 0xF0008, 0x40, 16, 4, 1, 17, 12, .ro, false⟩
/-- ME.RESIDUE_A: bits 25:18, RO. Element of the next element -/
def ME_RESIDUE_A_ELEM : Field := ⟨.me, 0xF0008, 0x40, 16, 4, 1, 25, 18, .ro, false⟩
/-- ME.RESIDUE_A: bits 29:26, RO. 0 none, 1 DONE, 2 ABORTED, 3 POWER_REQUEST, 4 BUS_ERROR, 5 PASS_LATE, 6 DISABLED -/
def ME_RESIDUE_A_REASON : Field := ⟨.me, 0xF0008, 0x40, 16, 4, 1, 29, 26, .ro, false⟩
/-- ME.RESIDUE_B: bits 15:0, RO. Elements of the MOVE not moved -/
def ME_RESIDUE_B_REMAIN : Field := ⟨.me, 0xF000C, 0x40, 16, 4, 1, 15, 0, .ro, false⟩
/-- ME.RESIDUE_B: bits 31:16, RO. Low 16 bits of the cycle of the stop -/
def ME_RESIDUE_B_CYCLE : Field := ⟨.me, 0xF000C, 0x40, 16, 4, 1, 31, 16, .ro, false⟩
/-- ME.ERR_ADDR: bits 31:0, RO. Failing address -/
def ME_ERR_ADDR : Field := ⟨.me, 0xF0010, 0x40, 16, 4, 1, 31, 0, .ro, false⟩
/-- ME.ERR_INFO: bits 0:0, RO. 0 read, 1 write -/
def ME_ERR_INFO_DIR : Field := ⟨.me, 0xF0014, 0x40, 16, 4, 1, 0, 0, .ro, false⟩
/-- ME.ERR_INFO: bits 3:1, RO. R331 -/
def ME_ERR_INFO_CAUSE : Field := ⟨.me, 0xF0014, 0x40, 16, 4, 1, 3, 1, .ro, false⟩
/-- ME.ERR_INFO: bits 15:4, RO. Instruction word -/
def ME_ERR_INFO_IADDR : Field := ⟨.me, 0xF0014, 0x40, 16, 4, 1, 15, 4, .ro, false⟩
/-- ME.ERR_INFO: bits 21:16, RO. Stream -/
def ME_ERR_INFO_STREAM : Field := ⟨.me, 0xF0014, 0x40, 16, 4, 1, 21, 16, .ro, false⟩
/-- ME.ERR_INFO: bits 29:22, RO. Element -/
def ME_ERR_INFO_ELEM : Field := ⟨.me, 0xF0014, 0x40, 16, 4, 1, 29, 22, .ro, false⟩
/-- ME.COUNT: bits 7:0, RC. R326 -/
def ME_COUNT_PASS_LATE : Field := ⟨.me, 0xF0018, 0x40, 16, 4, 1, 7, 0, .rc, true⟩
/-- ME.COUNT: bits 15:8, RC. R332 -/
def ME_COUNT_BUS_ERR : Field := ⟨.me, 0xF0018, 0x40, 16, 4, 1, 15, 8, .rc, true⟩
/-- ME.COUNT: bits 23:16, RC. WAIT TIME reached with its time past -/
def ME_COUNT_WAIT_LATE : Field := ⟨.me, 0xF0018, 0x40, 16, 4, 1, 23, 16, .rc, true⟩
/-- ME.COUNT: bits 31:24, RC. Tiller X accesses held by R161 -/
def ME_COUNT_HELD : Field := ⟨.me, 0xF0018, 0x40, 16, 4, 1, 31, 24, .rc, true⟩
/-- ME.TIME: bits 15:0, RO. Last pass, time-base ticks from the boundary -/
def ME_TIME_PASS_LAST : Field := ⟨.me, 0xF001C, 0x40, 16, 4, 1, 15, 0, .ro, true⟩
/-- ME.TIME: bits 31:16, RC. Longest pass since last read -/
def ME_TIME_PASS_MAX : Field := ⟨.me, 0xF001C, 0x40, 16, 4, 1, 31, 16, .rc, true⟩
/-- ME.ECC: bits 15:0, RC. Corrected program-memory errors -/
def ME_ECC_ECC_CORR : Field := ⟨.me, 0xF0400, 0x4, 1, 4, 1, 15, 0, .rc, true⟩
/-- ME.PROG: bits 31:0, RWL. Program word -/
def ME_PROG : Field := ⟨.me, 0xF4000, 0x4, 4096, 4, 1, 31, 0, .rwl, false⟩

/-- Every field of block ME. -/
def meMap : List Field :=
  [ME_CFG_PROG_START, ME_CFG_EN, ME_CFG_CYCLIC, ME_CFG_SOLVER, ME_STATE_STATE, ME_STATE_COND, ME_STATE_IADDR, ME_STATE_ARM_MASK, ME_RESIDUE_A_IADDR, ME_RESIDUE_A_STREAM, ME_RESIDUE_A_ELEM, ME_RESIDUE_A_REASON] ++
  [ME_RESIDUE_B_REMAIN, ME_RESIDUE_B_CYCLE, ME_ERR_ADDR, ME_ERR_INFO_DIR, ME_ERR_INFO_CAUSE, ME_ERR_INFO_IADDR, ME_ERR_INFO_STREAM, ME_ERR_INFO_ELEM, ME_COUNT_PASS_LATE, ME_COUNT_BUS_ERR, ME_COUNT_WAIT_LATE, ME_COUNT_HELD] ++
  [ME_TIME_PASS_LAST, ME_TIME_PASS_MAX, ME_ECC_ECC_CORR, ME_PROG]

/-- The reset value of the register at an offset of block ME. -/
def meReset (_ : Nat) : Word := 0

/-! ### Block HI -/

/-- HI.STATUS: bits 15:0, RC. Counts of HI_DMA_ERR and HI_DESC_ERR -/
def HI_STATUS_DMA_ERR : Field := ⟨.hi, 0x100000, 0x4, 1, 4, 1, 15, 0, .rc, false⟩
/-- HI.STATUS: bits 31:16, RC. Counts of HI_DMA_ERR and HI_DESC_ERR -/
def HI_STATUS_DESC_ERR : Field := ⟨.hi, 0x100000, 0x4, 1, 4, 1, 31, 16, .rc, false⟩
/-- HI.VEC_SRC: bits 5:0, RW. Vector of the check result (R358) -/
def HI_VEC_SRC_ENABLE_VEC : Field := ⟨.hi, 0x100004, 0x4, 1, 4, 1, 5, 0, .rw, false⟩
/-- HI.VEC_SRC: bits 13:8, RW. Vector of the event interrupt, as the Event recorder, Orangery black box and fault injection chapter describes -/
def HI_VEC_SRC_EVENT_VEC : Field := ⟨.hi, 0x100004, 0x4, 1, 4, 1, 13, 8, .rw, false⟩
/-- HI.VEC_SRC: bits 14:14, RW. Enables each source -/
def HI_VEC_SRC_ENABLE_IE : Field := ⟨.hi, 0x100004, 0x4, 1, 4, 1, 14, 14, .rw, false⟩
/-- HI.VEC_SRC: bits 15:15, RW. Enables each source -/
def HI_VEC_SRC_EVENT_IE : Field := ⟨.hi, 0x100004, 0x4, 1, 4, 1, 15, 15, .rw, false⟩
/-- HI.SQ_BASE_LO: bits 31:6, RW. Ring base; writes ignored with a notice while EN = 1 -/
def HI_SQ_BASE_LO_ADDR : Field := ⟨.hi, 0x100100, 0x20, 32, 4, 1, 31, 6, .rw, false⟩
/-- HI.SQ_BASE_HI: bits 31:0, RW. Ring base; writes ignored with a notice while EN = 1 -/
def HI_SQ_BASE_HI : Field := ⟨.hi, 0x100104, 0x20, 32, 4, 1, 31, 0, .rw, false⟩
/-- HI.SQ_CFG: bits 0:0, RW. R338 -/
def HI_SQ_CFG_EN : Field := ⟨.hi, 0x100108, 0x20, 32, 4, 1, 0, 0, .rw, false⟩
/-- HI.SQ_CFG: bits 4:1, RW. Depth 2^DEPTH_LOG2, 4–12. A write while EN = 1, or a value outside 4–12, is ignored for this field, which keep -/
def HI_SQ_CFG_DEPTH_LOG2 : Field := ⟨.hi, 0x100108, 0x20, 32, 4, 1, 4, 1, .rw, false⟩
/-- HI.SQ_STATUS: bits 11:0, RO. Next descriptor the device will fetch -/
def HI_SQ_STATUS_HEAD : Field := ⟨.hi, 0x10010C, 0x20, 32, 4, 1, 11, 0, .ro, false⟩
/-- HI.SQ_STATUS: bits 12:12, RO. R346 -/
def HI_SQ_STATUS_HALTED : Field := ⟨.hi, 0x10010C, 0x20, 32, 4, 1, 12, 12, .ro, false⟩
/-- HI.CQ_BASE_LO: bits 31:6, RW. As SQ -/
def HI_CQ_BASE_LO_ADDR : Field := ⟨.hi, 0x100500, 0x20, 32, 4, 1, 31, 6, .rw, false⟩
/-- HI.CQ_BASE_HI: bits 31:0, RW. As SQ -/
def HI_CQ_BASE_HI : Field := ⟨.hi, 0x100504, 0x20, 32, 4, 1, 31, 0, .rw, false⟩
/-- HI.CQ_CFG: bits 0:0, RW. R338 -/
def HI_CQ_CFG_EN : Field := ⟨.hi, 0x100508, 0x20, 32, 4, 1, 0, 0, .rw, false⟩
/-- HI.CQ_CFG: bits 4:1, RW. As SQ -/
def HI_CQ_CFG_DEPTH_LOG2 : Field := ⟨.hi, 0x100508, 0x20, 32, 4, 1, 4, 1, .rw, false⟩
/-- HI.CQ_CFG: bits 10:5, RW. MSI-X vector (R349) -/
def HI_CQ_CFG_VECTOR : Field := ⟨.hi, 0x100508, 0x20, 32, 4, 1, 10, 5, .rw, false⟩
/-- HI.CQ_CFG: bits 18:11, RW. 1–255; 0 acts as 1 -/
def HI_CQ_CFG_COAL_COUNT : Field := ⟨.hi, 0x100508, 0x20, 32, 4, 1, 18, 11, .rw, false⟩
/-- HI.CQ_CFG: bits 28:19, RW. µs, 0–1,023; 0 none -/
def HI_CQ_CFG_COAL_US : Field := ⟨.hi, 0x100508, 0x20, 32, 4, 1, 28, 19, .rw, false⟩
/-- HI.CQ_STATUS: bits 11:0, RO. Next entry the device will write -/
def HI_CQ_STATUS_TAIL : Field := ⟨.hi, 0x10050C, 0x20, 32, 4, 1, 11, 0, .ro, false⟩
/-- HI.CQ_STATUS: bits 12:12, RO. Phase of that entry -/
def HI_CQ_STATUS_PHASE : Field := ⟨.hi, 0x10050C, 0x20, 32, 4, 1, 12, 12, .ro, false⟩
/-- HI.CQ_STATUS: bits 31:16, RC. R341 -/
def HI_CQ_STATUS_FULL_STALLS : Field := ⟨.hi, 0x10050C, 0x20, 32, 4, 1, 31, 16, .rc, false⟩
/-- HI.IMG_SEL: bits 9:0, RW. Image directory entry, 0–1,023 -/
def HI_IMG_SEL_ENTRY : Field := ⟨.hi, 0x101000, 0x4, 1, 4, 1, 9, 0, .rw, false⟩
/-- HI.IMG_STAT: bits 1:0, RO. 0 EMPTY, 1 LOADING, 2 VALID, 3 FAILED -/
def HI_IMG_STAT_STATE : Field := ⟨.hi, 0x221000, 0x4, 1024, 4, 1, 1, 0, .ro, false⟩
/-- HI.IMG_STAT: bits 31:16, RO. Image identifier of a VALID entry -/
def HI_IMG_STAT_IMAGE_ID : Field := ⟨.hi, 0x221000, 0x4, 1024, 4, 1, 31, 16, .ro, false⟩
/-- HI.GR_A: bits 20:0, RWL. First Granary word of region i -/
def HI_GR_A_BASE : Field := ⟨.hi, 0x102000, 0x8, 256, 4, 1, 20, 0, .rwl, false⟩
/-- HI.GR_A: bits 23:21, RWL. R350 -/
def HI_GR_A_KIND : Field := ⟨.hi, 0x102000, 0x8, 256, 4, 1, 23, 21, .rwl, false⟩
/-- HI.GR_B: bits 20:0, RWL. Words -/
def HI_GR_B_LENGTH : Field := ⟨.hi, 0x102004, 0x8, 256, 4, 1, 20, 0, .rwl, false⟩

/-- Every field of block HI. -/
def hiMap : List Field :=
  [HI_STATUS_DMA_ERR, HI_STATUS_DESC_ERR, HI_VEC_SRC_ENABLE_VEC, HI_VEC_SRC_EVENT_VEC, HI_VEC_SRC_ENABLE_IE, HI_VEC_SRC_EVENT_IE, HI_SQ_BASE_LO_ADDR, HI_SQ_BASE_HI, HI_SQ_CFG_EN, HI_SQ_CFG_DEPTH_LOG2, HI_SQ_STATUS_HEAD, HI_SQ_STATUS_HALTED] ++
  [HI_CQ_BASE_LO_ADDR, HI_CQ_BASE_HI, HI_CQ_CFG_EN, HI_CQ_CFG_DEPTH_LOG2, HI_CQ_CFG_VECTOR, HI_CQ_CFG_COAL_COUNT, HI_CQ_CFG_COAL_US, HI_CQ_STATUS_TAIL, HI_CQ_STATUS_PHASE, HI_CQ_STATUS_FULL_STALLS, HI_IMG_SEL_ENTRY, HI_IMG_STAT_STATE] ++
  [HI_IMG_STAT_IMAGE_ID, HI_GR_A_BASE, HI_GR_A_KIND, HI_GR_B_LENGTH]

/-- The reset value of the register at an offset of block HI. -/
def hiReset (off : Nat) : Word :=
  if 0x100108 ≤ off ∧ off < 0x100508 ∧ (off - 0x100108) % 0x20 = 0 then 0x8
  else if 0x100508 ≤ off ∧ off < 0x100908 ∧ (off - 0x100508) % 0x20 = 0 then 0x808
  else if 0x10050C ≤ off ∧ off < 0x10090C ∧ (off - 0x10050C) % 0x20 = 0 then 0x1000
  else 0

/-! ### Block TW -/

/-- TW.CFG: bits 0:0, RWL. Twin configured -/
def TW_CFG_EN : Field := ⟨.tw, 0x110000, 0x4, 1, 4, 1, 0, 0, .rwl, false⟩
/-- TW.CFG: bits 1:1, RWL. 0 A, 1 B -/
def TW_CFG_POSITION : Field := ⟨.tw, 0x110000, 0x4, 1, 4, 1, 1, 1, .rwl, false⟩
/-- TW.CFG: bits 2:2, RWL. 0 MANUAL, 1 AUTO (R384) -/
def TW_CFG_SWITCHBACK : Field := ⟨.tw, 0x110000, 0x4, 1, 4, 1, 2, 2, .rwl, false⟩
/-- TW.CFG: bits 9:3, RWL. 1–64 cycles -/
def TW_CFG_LEASE_CYC : Field := ⟨.tw, 0x110000, 0x4, 1, 4, 1, 9, 3, .rwl, false⟩
/-- TW.CFG: bits 19:10, RWL. 1–600 s -/
def TW_CFG_HOLDOFF_S : Field := ⟨.tw, 0x110000, 0x4, 1, 4, 1, 19, 10, .rwl, false⟩
/-- TW.CFG: bits 20:20, RWL. R364 -/
def TW_CFG_SOLO : Field := ⟨.tw, 0x110000, 0x4, 1, 4, 1, 20, 20, .rwl, false⟩
/-- TW.TIMING: bits 16:0, RWL. Time-base ticks from cycle start -/
def TW_TIMING_LEASE_OFFSET : Field := ⟨.tw, 0x110004, 0x4, 1, 4, 1, 16, 0, .rwl, false⟩
/-- TW.STATE: bits 3:0, RO. As the state table -/
def TW_STATE_STATE : Field := ⟨.tw, 0x110008, 0x4, 1, 4, 1, 3, 0, .ro, true⟩
/-- TW.STATE: bits 7:4, RO. Twin's state from its last message -/
def TW_STATE_PEER_STATE : Field := ⟨.tw, 0x110008, 0x4, 1, 4, 1, 7, 4, .ro, true⟩
/-- TW.STATE: bits 11:8, RO. As the FAULTED-cause table -/
def TW_STATE_LAST_CAUSE : Field := ⟨.tw, 0x110008, 0x4, 1, 4, 1, 11, 8, .ro, true⟩
/-- TW.STATE: bits 15:12, RO. Bit n: ECHO of port n proven (R380) -/
def TW_STATE_PATH_OK : Field := ⟨.tw, 0x110008, 0x4, 1, 4, 1, 15, 12, .ro, true⟩
/-- TW.EPOCH: bits 15:0, RO. Current epoch -/
def TW_EPOCH_EPOCH : Field := ⟨.tw, 0x11000C, 0x4, 1, 4, 1, 15, 0, .ro, true⟩
/-- TW.EPOCH: bits 31:16, RO. Stored epoch (R365) -/
def TW_EPOCH_STORED : Field := ⟨.tw, 0x11000C, 0x4, 1, 4, 1, 31, 16, .ro, true⟩
/-- TW.LEASE_STAT: bits 6:0, RO. Count of R371 -/
def TW_LEASE_STAT_SINCE_RENEW : Field := ⟨.tw, 0x110010, 0x4, 1, 4, 1, 6, 0, .ro, true⟩
/-- TW.LEASE_STAT: bits 13:8, RO. Renewal paths of the last cycle: TW0, TW1, CB0–CB3 -/
def TW_LEASE_STAT_PATHS : Field := ⟨.tw, 0x110010, 0x4, 1, 4, 1, 13, 8, .ro, true⟩
/-- TW.COUNT_A: bits 7:0, RC. R379 -/
def TW_COUNT_A_DIGEST_MISMATCH : Field := ⟨.tw, 0x110014, 0x4, 1, 4, 1, 7, 0, .rc, true⟩
/-- TW.COUNT_A: bits 15:8, RC. R379 -/
def TW_COUNT_A_DIGEST_MISSING : Field := ⟨.tw, 0x110014, 0x4, 1, 4, 1, 15, 8, .rc, true⟩
/-- TW.COUNT_A: bits 23:16, RC. R380, R371 -/
def TW_COUNT_A_ECHO_LOST : Field := ⟨.tw, 0x110014, 0x4, 1, 4, 1, 23, 16, .rc, true⟩
/-- TW.COUNT_A: bits 31:24, RC. R380, R371 -/
def TW_COUNT_A_TAKEOVERS : Field := ⟨.tw, 0x110014, 0x4, 1, 4, 1, 31, 24, .rc, true⟩
/-- TW.COUNT_B: bits 7:0, RC. R374, R368 -/
def TW_COUNT_B_HANDOVERS : Field := ⟨.tw, 0x110018, 0x4, 1, 4, 1, 7, 0, .rc, true⟩
/-- TW.COUNT_B: bits 15:8, RC. R374, R368 -/
def TW_COUNT_B_SUPERSEDED : Field := ⟨.tw, 0x110018, 0x4, 1, 4, 1, 15, 8, .rc, true⟩
/-- TW.COUNT_B: bits 23:16, RC. R379 -/
def TW_COUNT_B_CMD_ECHO : Field := ⟨.tw, 0x110018, 0x4, 1, 4, 1, 23, 16, .rc, true⟩
/-- TW.LINK_DELAY: bits 23:0, RO. 1/16 ns (R375) -/
def TW_LINK_DELAY_DELAY : Field := ⟨.tw, 0x11001C, 0x4, 1, 4, 1, 23, 0, .ro, true⟩
/-- TW.OFFSET: bits 31:0, RO. Signed ns to the holder, saturated -/
def TW_OFFSET : Field := ⟨.tw, 0x110020, 0x4, 1, 4, 1, 31, 0, .ro, true⟩
/-- TW.OWN_DIGEST: bits 31:0, RO. Configuration digests; PEER_DIGEST from the twin's latest STATUS (R369) -/
def TW_OWN_DIGEST : Field := ⟨.tw, 0x110024, 0x4, 1, 4, 1, 31, 0, .ro, true⟩
/-- TW.PEER_DIGEST: bits 31:0, RO. Configuration digests; PEER_DIGEST from the twin's latest STATUS (R369) -/
def TW_PEER_DIGEST : Field := ⟨.tw, 0x110028, 0x4, 1, 4, 1, 31, 0, .ro, true⟩
/-- TW.ETHERTYPE: bits 15:0, RWL. Twin-message EtherType -/
def TW_ETHERTYPE_ETYPE : Field := ⟨.tw, 0x11002C, 0x4, 1, 4, 1, 15, 0, .rwl, false⟩
/-- TW.ECHO_DELAY: bits 23:0, RO. 1/16 ns, measured in CLAIMING -/
def TW_ECHO_DELAY_DELAY : Field := ⟨.tw, 0x110030, 0x4, 4, 4, 1, 23, 0, .ro, true⟩
/-- TW.PORT_CFG: bits 1:0, RWL. 0 off, 1 10GBASE-KR, 2 10GBASE-R over SFP+ -/
def TW_PORT_CFG_MODE : Field := ⟨.tw, 0x110100, 0x100, 2, 4, 1, 1, 0, .rwl, false⟩
/-- TW.PORT_CFG: bits 3:3, RWL. As R90 -/
def TW_PORT_CFG_MACSEC_REQ : Field := ⟨.tw, 0x110100, 0x100, 2, 4, 1, 3, 3, .rwl, false⟩
/-- TW.LINK_STATE: bits 2:0, RO. Layout of CB[n].LINK_STATE -/
def TW_LINK_STATE_STATE : Field := ⟨.tw, 0x110104, 0x100, 2, 4, 1, 2, 0, .ro, true⟩
/-- TW.LINK_STATE: bits 3:3, RO. Layout of CB[n].LINK_STATE -/
def TW_LINK_STATE_MOD_PRESENT : Field := ⟨.tw, 0x110104, 0x100, 2, 4, 1, 3, 3, .ro, true⟩
/-- TW.LINK_STATE: bits 4:4, RO. Layout of CB[n].LINK_STATE -/
def TW_LINK_STATE_LOS : Field := ⟨.tw, 0x110104, 0x100, 2, 4, 1, 4, 4, .ro, true⟩
/-- TW.LINK_STATE: bits 5:5, RO. Layout of CB[n].LINK_STATE -/
def TW_LINK_STATE_TX_FAULT : Field := ⟨.tw, 0x110104, 0x100, 2, 4, 1, 5, 5, .ro, true⟩
/-- TW.LINK_STATE: bits 6:6, RO. Layout of CB[n].LINK_STATE -/
def TW_LINK_STATE_BLOCK_LOCK : Field := ⟨.tw, 0x110104, 0x100, 2, 4, 1, 6, 6, .ro, true⟩
/-- TW.LINK_STATE: bits 7:7, RO. Layout of CB[n].LINK_STATE -/
def TW_LINK_STATE_HI_BER : Field := ⟨.tw, 0x110104, 0x100, 2, 4, 1, 7, 7, .ro, true⟩

/-- Every field of block TW. -/
def twMap : List Field :=
  [TW_CFG_EN, TW_CFG_POSITION, TW_CFG_SWITCHBACK, TW_CFG_LEASE_CYC, TW_CFG_HOLDOFF_S, TW_CFG_SOLO, TW_TIMING_LEASE_OFFSET, TW_STATE_STATE, TW_STATE_PEER_STATE, TW_STATE_LAST_CAUSE, TW_STATE_PATH_OK, TW_EPOCH_EPOCH] ++
  [TW_EPOCH_STORED, TW_LEASE_STAT_SINCE_RENEW, TW_LEASE_STAT_PATHS, TW_COUNT_A_DIGEST_MISMATCH, TW_COUNT_A_DIGEST_MISSING, TW_COUNT_A_ECHO_LOST, TW_COUNT_A_TAKEOVERS, TW_COUNT_B_HANDOVERS, TW_COUNT_B_SUPERSEDED, TW_COUNT_B_CMD_ECHO, TW_LINK_DELAY_DELAY, TW_OFFSET] ++
  [TW_OWN_DIGEST, TW_PEER_DIGEST, TW_ETHERTYPE_ETYPE, TW_ECHO_DELAY_DELAY, TW_PORT_CFG_MODE, TW_PORT_CFG_MACSEC_REQ, TW_LINK_STATE_STATE, TW_LINK_STATE_MOD_PRESENT, TW_LINK_STATE_LOS, TW_LINK_STATE_TX_FAULT, TW_LINK_STATE_BLOCK_LOCK, TW_LINK_STATE_HI_BER]

/-- The reset value of the register at an offset of block TW. -/
def twReset (off : Nat) : Word :=
  if off = 0x110000 then 0xF020
  else if off = 0x11002C then 0x88B6
  else if 0x110100 ≤ off ∧ off < 0x110300 ∧ (off - 0x110100) % 0x100 = 0 then 0x8
  else 0

/-! ### Block EV -/

/-- EV.CFG: bits 1:0, RW. R399 -/
def EV_CFG_IRQ_SEV : Field := ⟨.ev, 0x120000, 0x4, 1, 4, 1, 1, 0, .rw, false⟩
/-- EV.CFG: bits 15:4, RW. µs, 0–4,095 -/
def EV_CFG_IRQ_GAP_US : Field := ⟨.ev, 0x120000, 0x4, 1, 4, 1, 15, 4, .rw, false⟩
/-- EV.CFG: bits 23:16, RW. s, 1–255; 0 acts as 1 -/
def EV_CFG_FREEZE_MAX : Field := ⟨.ev, 0x120000, 0x4, 1, 4, 1, 23, 16, .rw, false⟩
/-- EV.STAT: bits 0:0, RO. R397 -/
def EV_STAT_HOST_FROZEN : Field := ⟨.ev, 0x120004, 0x4, 1, 4, 1, 0, 0, .ro, false⟩
/-- EV.STAT: bits 1:1, RO. R397 -/
def EV_STAT_DBG_FROZEN : Field := ⟨.ev, 0x120004, 0x4, 1, 4, 1, 1, 1, .ro, false⟩
/-- EV.STAT: bits 2:2, RO. R398 -/
def EV_STAT_OPEN_OVF : Field := ⟨.ev, 0x120004, 0x4, 1, 4, 1, 2, 2, .ro, false⟩
/-- EV.STAT: bits 13:4, RO. RAM occupied, KiB rounded up -/
def EV_STAT_USED_KIB : Field := ⟨.ev, 0x120004, 0x4, 1, 4, 1, 13, 4, .ro, false⟩
/-- EV.STAT: bits 23:14, RO. Of which fatal -/
def EV_STAT_FATAL_KIB : Field := ⟨.ev, 0x120004, 0x4, 1, 4, 1, 23, 14, .ro, false⟩
/-- EV.STAT: bits 31:24, RO. Hold buffer, 32-byte units -/
def EV_STAT_HOLD_USED : Field := ⟨.ev, 0x120004, 0x4, 1, 4, 1, 31, 24, .ro, false⟩
/-- EV.SEQ_FIRST: bits 31:0, RO. Oldest and newest stored -/
def EV_SEQ_FIRST : Field := ⟨.ev, 0x120008, 0x4, 1, 4, 1, 31, 0, .ro, false⟩
/-- EV.SEQ_LAST: bits 31:0, RO. Oldest and newest stored -/
def EV_SEQ_LAST : Field := ⟨.ev, 0x12000C, 0x4, 1, 4, 1, 31, 0, .ro, false⟩
/-- EV.CURSOR: bits 31:0, RW. R395 -/
def EV_CURSOR : Field := ⟨.ev, 0x120010, 0x4, 1, 4, 1, 31, 0, .rw, false⟩
/-- EV.RD_SEQ: bits 31:0, RO. Record in the window -/
def EV_RD_SEQ : Field := ⟨.ev, 0x120014, 0x4, 1, 4, 1, 31, 0, .ro, false⟩
/-- EV.RD_STAT: bits 0:0, RO. R395 -/
def EV_RD_STAT_VALID : Field := ⟨.ev, 0x120018, 0x4, 1, 4, 1, 0, 0, .ro, false⟩
/-- EV.RD_STAT: bits 1:1, RO. R395 -/
def EV_RD_STAT_GAP : Field := ⟨.ev, 0x120018, 0x4, 1, 4, 1, 1, 1, .ro, false⟩
/-- EV.RD_STAT: bits 7:2, RO. As W0 -/
def EV_RD_STAT_LEN_W : Field := ⟨.ev, 0x120018, 0x4, 1, 4, 1, 7, 2, .ro, false⟩
/-- EV.RD_STAT: bits 8:8, RO. R396 -/
def EV_RD_STAT_ECC_BAD : Field := ⟨.ev, 0x120018, 0x4, 1, 4, 1, 8, 8, .ro, false⟩
/-- EV.DROPS_A: bits 15:0, RC. R390, R392 -/
def EV_DROPS_A_INPUT_DROP : Field := ⟨.ev, 0x120020, 0x4, 1, 4, 1, 15, 0, .rc, false⟩
/-- EV.DROPS_A: bits 31:16, RC. R390, R392 -/
def EV_DROPS_A_FULL_DROP : Field := ⟨.ev, 0x120020, 0x4, 1, 4, 1, 31, 16, .rc, false⟩
/-- EV.DROPS_B: bits 15:0, RC. R397, R390, R396 -/
def EV_DROPS_B_HOLD_DROP : Field := ⟨.ev, 0x120024, 0x4, 1, 4, 1, 15, 0, .rc, false⟩
/-- EV.DROPS_B: bits 23:16, RC. R397, R390, R396 -/
def EV_DROPS_B_FATAL_DROP : Field := ⟨.ev, 0x120024, 0x4, 1, 4, 1, 23, 16, .rc, false⟩
/-- EV.DROPS_B: bits 31:24, RC. R397, R390, R396 -/
def EV_DROPS_B_ECC_CORR : Field := ⟨.ev, 0x120024, 0x4, 1, 4, 1, 31, 24, .rc, false⟩
/-- EV.OPEN: bits 9:0, RO. Open entries, 0–512 -/
def EV_OPEN_COUNT : Field := ⟨.ev, 0x120028, 0x4, 1, 4, 1, 9, 0, .ro, false⟩
/-- EV.PT_CFG: bits 5:0, RWL. Signals, 0–60 -/
def EV_PT_CFG_PT_COUNT : Field := ⟨.ev, 0x120040, 0x4, 1, 4, 1, 5, 0, .rwl, false⟩
/-- EV.PT_SIG: bits 20:0, RWL. BAR0 byte offset (bits 1:0 zero) or Granary word -/
def EV_PT_SIG_ADDR : Field := ⟨.ev, 0x120400, 0x4, 60, 4, 1, 20, 0, .rwl, false⟩
/-- EV.PT_SIG: bits 31:31, RWL. 0 BAR0 RO field served from the publication bank (R404), 1 Granary publication word -/
def EV_PT_SIG_SPACE : Field := ⟨.ev, 0x120400, 0x4, 60, 4, 1, 31, 31, .rwl, false⟩
/-- EV.WIN: bits 31:0, RO. Window -/
def EV_WIN : Field := ⟨.ev, 0x120100, 0x4, 64, 4, 1, 31, 0, .ro, false⟩

/-- Every field of block EV. -/
def evMap : List Field :=
  [EV_CFG_IRQ_SEV, EV_CFG_IRQ_GAP_US, EV_CFG_FREEZE_MAX, EV_STAT_HOST_FROZEN, EV_STAT_DBG_FROZEN, EV_STAT_OPEN_OVF, EV_STAT_USED_KIB, EV_STAT_FATAL_KIB, EV_STAT_HOLD_USED, EV_SEQ_FIRST, EV_SEQ_LAST, EV_CURSOR] ++
  [EV_RD_SEQ, EV_RD_STAT_VALID, EV_RD_STAT_GAP, EV_RD_STAT_LEN_W, EV_RD_STAT_ECC_BAD, EV_DROPS_A_INPUT_DROP, EV_DROPS_A_FULL_DROP, EV_DROPS_B_HOLD_DROP, EV_DROPS_B_FATAL_DROP, EV_DROPS_B_ECC_CORR, EV_OPEN_COUNT, EV_PT_CFG_PT_COUNT] ++
  [EV_PT_SIG_ADDR, EV_PT_SIG_SPACE, EV_WIN]

/-- The reset value of the register at an offset of block EV. -/
def evReset (off : Nat) : Word :=
  if off = 0x120000 then 0xA0642
  else 0

/-! ### Block BB -/

/-- BB.STAT: bits 0:0, RO. R404 -/
def BB_STAT_PT_FROZEN : Field := ⟨.bb, 0x130000, 0x4, 1, 4, 1, 0, 0, .ro, false⟩
/-- BB.STAT: bits 1:1, RO. Hold-up present, as the Power chapter tests -/
def BB_STAT_HOLDUP_OK : Field := ⟨.bb, 0x130000, 0x4, 1, 4, 1, 1, 1, .ro, false⟩
/-- BB.STAT: bits 5:2, RO. R403 -/
def BB_STAT_MIRROR_SLOT : Field := ⟨.bb, 0x130000, 0x4, 1, 4, 1, 5, 2, .ro, false⟩
/-- BB.STAT: bits 10:6, RO. Sealed slots, 0–16 -/
def BB_STAT_SEALED : Field := ⟨.bb, 0x130000, 0x4, 1, 4, 1, 10, 6, .ro, false⟩
/-- BB.STAT: bits 11:11, RO. A valid power-loss snapshot exists -/
def BB_STAT_SNAP_VALID : Field := ⟨.bb, 0x130000, 0x4, 1, 4, 1, 11, 11, .ro, false⟩
/-- BB.STAT: bits 19:12, RO. Samples discarded with the staging queue full (R404), saturating; cleared by BB_RELEASE -/
def BB_STAT_PT_SKIPS : Field := ⟨.bb, 0x130000, 0x4, 1, 4, 1, 19, 12, .ro, false⟩
/-- BB.STAT: bits 31:24, RO. Spare remaining, % (R408) -/
def BB_STAT_SPARE_PCT : Field := ⟨.bb, 0x130000, 0x4, 1, 4, 1, 31, 24, .ro, false⟩
/-- BB.LAST_COMMIT: bits 15:0, RO. Last commit, 100 ns units from detector firing -/
def BB_LAST_COMMIT_DUR : Field := ⟨.bb, 0x130004, 0x4, 1, 4, 1, 15, 0, .ro, false⟩
/-- BB.LAST_COMMIT: bits 31:16, RC. Commits -/
def BB_LAST_COMMIT_COMMITS : Field := ⟨.bb, 0x130004, 0x4, 1, 4, 1, 31, 16, .rc, false⟩
/-- BB.PT_CYCLE: bits 31:0, RO. Last sample of the frozen ring -/
def BB_PT_CYCLE : Field := ⟨.bb, 0x130008, 0x4, 1, 4, 1, 31, 0, .ro, false⟩
/-- BB.BOOTS: bits 31:0, RO. Device resets since manufacture -/
def BB_BOOTS : Field := ⟨.bb, 0x13000C, 0x4, 1, 4, 1, 31, 0, .ro, false⟩
/-- BB.COUNT: bits 7:0, RC. R401, R402 -/
def BB_COUNT_ECC_CORR : Field := ⟨.bb, 0x130010, 0x4, 1, 4, 1, 7, 0, .rc, false⟩
/-- BB.COUNT: bits 15:8, RC. R401, R402 -/
def BB_COUNT_LOG_DROP : Field := ⟨.bb, 0x130010, 0x4, 1, 4, 1, 15, 8, .rc, false⟩
/-- BB.COUNT: bits 23:16, RC. R403, R406 -/
def BB_COUNT_HIST_OVERWRITTEN : Field := ⟨.bb, 0x130010, 0x4, 1, 4, 1, 23, 16, .rc, false⟩
/-- BB.COUNT: bits 31:24, RC. R403, R406 -/
def BB_COUNT_SUBSTITUTES : Field := ⟨.bb, 0x130010, 0x4, 1, 4, 1, 31, 24, .rc, false⟩

/-- Every field of block BB. -/
def bbMap : List Field :=
  [BB_STAT_PT_FROZEN, BB_STAT_HOLDUP_OK, BB_STAT_MIRROR_SLOT, BB_STAT_SEALED, BB_STAT_SNAP_VALID, BB_STAT_PT_SKIPS, BB_STAT_SPARE_PCT, BB_LAST_COMMIT_DUR, BB_LAST_COMMIT_COMMITS, BB_PT_CYCLE, BB_BOOTS, BB_COUNT_ECC_CORR] ++
  [BB_COUNT_LOG_DROP, BB_COUNT_HIST_OVERWRITTEN, BB_COUNT_SUBSTITUTES]

/-- The reset value of the register at an offset of block BB. -/
def bbReset (off : Nat) : Word :=
  if off = 0x130000 then 0x64000000
  else 0

/-! ### Block INJ -/

/-- INJ.STAT: bits 0:0, RO. R410, R411 -/
def INJ_STAT_KEY_LOADED : Field := ⟨.inj, 0x140000, 0x4, 1, 4, 1, 0, 0, .ro, false⟩
/-- INJ.STAT: bits 1:1, RO. R410, R411 -/
def INJ_STAT_ACTIVE : Field := ⟨.inj, 0x140000, 0x4, 1, 4, 1, 1, 1, .ro, false⟩
/-- INJ.STAT: bits 6:2, RO. Slots armed, 0–16 -/
def INJ_STAT_ARMED : Field := ⟨.inj, 0x140000, 0x4, 1, 4, 1, 6, 2, .ro, false⟩
/-- INJ.STAT: bits 9:8, RO. R410 -/
def INJ_STAT_KEY_FAILS : Field := ⟨.inj, 0x140000, 0x4, 1, 4, 1, 9, 8, .ro, false⟩
/-- INJ.STAT: bits 10:10, RO. R410 -/
def INJ_STAT_LOCKED : Field := ⟨.inj, 0x140000, 0x4, 1, 4, 1, 10, 10, .ro, false⟩
/-- INJ.KEY_ID: bits 31:0, RO. R410 -/
def INJ_KEY_ID : Field := ⟨.inj, 0x140004, 0x4, 1, 4, 1, 31, 0, .ro, false⟩
/-- INJ.SEL: bits 3:0, RW. Slot shown in ENTRY and FIRED -/
def INJ_SEL_SLOT : Field := ⟨.inj, 0x140008, 0x4, 1, 4, 1, 3, 0, .rw, false⟩
/-- INJ.ENTRY: bits 9:0, RO. R411, R412 -/
def INJ_ENTRY_INDEX : Field := ⟨.inj, 0x240000, 0x8, 16, 4, 1, 9, 0, .ro, false⟩
/-- INJ.ENTRY: bits 11:10, RO. R411, R412 -/
def INJ_ENTRY_MODE : Field := ⟨.inj, 0x240000, 0x8, 16, 4, 1, 11, 10, .ro, false⟩
/-- INJ.ENTRY: bits 12:12, RO. R411, R412 -/
def INJ_ENTRY_ARMED : Field := ⟨.inj, 0x240000, 0x8, 16, 4, 1, 12, 12, .ro, false⟩
/-- INJ.ENTRY: bits 31:16, RO. COUNTED remaining -/
def INJ_ENTRY_REMAIN : Field := ⟨.inj, 0x240000, 0x8, 16, 4, 1, 31, 16, .ro, false⟩
/-- INJ.FIRED: bits 15:0, RC. Firings of the slot -/
def INJ_FIRED_FIRED : Field := ⟨.inj, 0x240004, 0x8, 16, 4, 1, 15, 0, .rc, false⟩

/-- Every field of block INJ. -/
def injMap : List Field :=
  [INJ_STAT_KEY_LOADED, INJ_STAT_ACTIVE, INJ_STAT_ARMED, INJ_STAT_KEY_FAILS, INJ_STAT_LOCKED, INJ_KEY_ID, INJ_SEL_SLOT, INJ_ENTRY_INDEX, INJ_ENTRY_MODE, INJ_ENTRY_ARMED, INJ_ENTRY_REMAIN, INJ_FIRED_FIRED]

/-- The reset value of the register at an offset of block INJ. -/
def injReset (_ : Nat) : Word := 0

/-! ### Block AD -/

/-- AD.CFG: bits 1:0, RW. R418; 3 is reserved and leaves MODE unchanged with a notice -/
def AD_CFG_MODE : Field := ⟨.ad, 0x150000, 0x4, 1, 4, 1, 1, 0, .rw, false⟩
/-- AD.CFG: bits 6:2, RWL. Entries per pass, 1–16 -/
def AD_CFG_COUNT : Field := ⟨.ad, 0x150000, 0x4, 1, 4, 1, 6, 2, .rwl, false⟩
/-- AD.STAT: bits 15:0, RO. Passes started, modulo 2^16 -/
def AD_STAT_PASS : Field := ⟨.ad, 0x150004, 0x4, 1, 4, 1, 15, 0, .ro, false⟩
/-- AD.STAT: bits 16:16, RO. Conversion in progress; request held (R421) -/
def AD_STAT_BUSY : Field := ⟨.ad, 0x150004, 0x4, 1, 4, 1, 16, 16, .ro, false⟩
/-- AD.STAT: bits 17:17, RO. Conversion in progress; request held (R421) -/
def AD_STAT_URG_PENDING : Field := ⟨.ad, 0x150004, 0x4, 1, 4, 1, 17, 17, .ro, false⟩
/-- AD.URGENT: bits 3:0, WO. R420 -/
def AD_URGENT_ENTRY : Field := ⟨.ad, 0x150008, 0x4, 1, 4, 1, 3, 0, .wo, false⟩
/-- AD.URGENT: bits 4:4, WO. R420 -/
def AD_URGENT_GO : Field := ⟨.ad, 0x150008, 0x4, 1, 4, 1, 4, 4, .wo, false⟩
/-- AD.COUNT: bits 7:0, RC. R421, R418, R420 -/
def AD_COUNT_URG_DROP : Field := ⟨.ad, 0x15000C, 0x4, 1, 4, 1, 7, 0, .rc, false⟩
/-- AD.COUNT: bits 15:8, RC. R421, R418, R420 -/
def AD_COUNT_TRG_OVERLAP : Field := ⟨.ad, 0x15000C, 0x4, 1, 4, 1, 15, 8, .rc, false⟩
/-- AD.COUNT: bits 23:16, RC. R421, R418, R420 -/
def AD_COUNT_ABORTS : Field := ⟨.ad, 0x15000C, 0x4, 1, 4, 1, 23, 16, .rc, false⟩
/-- AD.SEQ_A: bits 3:0, RWL. AIN index, or pair index 0–7 when DIFF = 1 -/
def AD_SEQ_A_INPUT : Field := ⟨.ad, 0x150100, 0x10, 16, 4, 1, 3, 0, .rwl, false⟩
/-- AD.SEQ_A: bits 4:4, RWL. R416, R417, R423 -/
def AD_SEQ_A_DIFF : Field := ⟨.ad, 0x150100, 0x10, 16, 4, 1, 4, 4, .rwl, false⟩
/-- AD.SEQ_A: bits 5:5, RWL. R416, R417, R423 -/
def AD_SEQ_A_LEFT : Field := ⟨.ad, 0x150100, 0x10, 16, 4, 1, 5, 5, .rwl, false⟩
/-- AD.SEQ_A: bits 6:6, RWL. R416, R417, R423 -/
def AD_SEQ_A_LIM_EN : Field := ⟨.ad, 0x150100, 0x10, 16, 4, 1, 6, 6, .rwl, false⟩
/-- AD.SEQ_A: bits 11:8, RWL. 1–15 -/
def AD_SEQ_A_LIM_N : Field := ⟨.ad, 0x150100, 0x10, 16, 4, 1, 11, 8, .rwl, false⟩
/-- AD.SEQ_A: bits 13:12, RWL. 0 event, 1 SS2, 2 SS1 -/
def AD_SEQ_A_LIM_REACT : Field := ⟨.ad, 0x150100, 0x10, 16, 4, 1, 13, 12, .rwl, false⟩
/-- AD.SEQ_A: bits 23:16, RWL. Arm groups -/
def AD_SEQ_A_LIM_MASK : Field := ⟨.ad, 0x150100, 0x10, 16, 4, 1, 23, 16, .rwl, false⟩
/-- AD.SEQ_B: bits 15:0, RWL. Codes; signed when DIFF = 1 -/
def AD_SEQ_B_LIMIT_LO : Field := ⟨.ad, 0x150104, 0x10, 16, 4, 1, 15, 0, .rwl, false⟩
/-- AD.SEQ_B: bits 31:16, RWL. Codes; signed when DIFF = 1 -/
def AD_SEQ_B_LIMIT_HI : Field := ⟨.ad, 0x150104, 0x10, 16, 4, 1, 31, 16, .rwl, false⟩
/-- AD.RES: bits 31:0, RO. R417 -/
def AD_RES : Field := ⟨.ad, 0x150108, 0x10, 16, 4, 1, 31, 0, .ro, false⟩
/-- AD.RES_STAT: bits 15:0, RO. PASS of the conversion -/
def AD_RES_STAT_PASS : Field := ⟨.ad, 0x15010C, 0x10, 16, 4, 1, 15, 0, .ro, false⟩
/-- AD.RES_STAT: bits 16:16, RO. R421, R423 -/
def AD_RES_STAT_URGENT : Field := ⟨.ad, 0x15010C, 0x10, 16, 4, 1, 16, 16, .ro, false⟩
/-- AD.RES_STAT: bits 17:17, RO. R421, R423 -/
def AD_RES_STAT_OUT : Field := ⟨.ad, 0x15010C, 0x10, 16, 4, 1, 17, 17, .ro, false⟩
/-- AD.SIO_CFG: bits 7:0, RWL. Samples, 1–255 -/
def AD_SIO_CFG_FILT_US : Field := ⟨.ad, 0x150200, 0x4, 1, 4, 1, 7, 0, .rwl, false⟩
/-- AD.SIO_CFG: bits 16:8, RWL. 1–500 -/
def AD_SIO_CFG_DISC_MS : Field := ⟨.ad, 0x150200, 0x4, 1, 4, 1, 16, 8, .rwl, false⟩
/-- AD.SIO_CFG: bits 18:17, RWL. 2 SS1, 3 STO; 0 and 1 refused at enable with 0x93 -/
def AD_SIO_CFG_ESTOP_CAT : Field := ⟨.ad, 0x150200, 0x4, 1, 4, 1, 18, 17, .rwl, false⟩
/-- AD.SIO_CFG: bits 19:19, RWL. R426 -/
def AD_SIO_CFG_ENABLE_EN : Field := ⟨.ad, 0x150200, 0x4, 1, 4, 1, 19, 19, .rwl, false⟩
/-- AD.SIO_CFG_B: bits 15:0, RWL. 1–65,535 -/
def AD_SIO_CFG_B_ESTOP_SS1_MS : Field := ⟨.ad, 0x150204, 0x4, 1, 4, 1, 15, 0, .rwl, false⟩
/-- AD.SIO_CFG_B: bits 19:16, RWL. 2–15 -/
def AD_SIO_CFG_B_WD_CYC : Field := ⟨.ad, 0x150204, 0x4, 1, 4, 1, 19, 16, .rwl, false⟩
/-- AD.SIO_CFG_B: bits 31:24, RWL. Arm groups -/
def AD_SIO_CFG_B_ENABLE_MASK : Field := ⟨.ad, 0x150204, 0x4, 1, 4, 1, 31, 24, .rwl, false⟩
/-- AD.DOOR_CFG: bits 0:0, RWL. CAT 1 SS2, 2 SS1, 3 STO; CAT 0 with EN = 1 refused at enable with 0x93 -/
def AD_DOOR_CFG_EN : Field := ⟨.ad, 0x150210, 0x4, 4, 4, 1, 0, 0, .rwl, false⟩
/-- AD.DOOR_CFG: bits 2:1, RWL. CAT 1 SS2, 2 SS1, 3 STO; CAT 0 with EN = 1 refused at enable with 0x93 -/
def AD_DOOR_CFG_CAT : Field := ⟨.ad, 0x150210, 0x4, 4, 4, 1, 2, 1, .rwl, false⟩
/-- AD.DOOR_CFG: bits 15:8, RWL. Arm groups -/
def AD_DOOR_CFG_MASK : Field := ⟨.ad, 0x150210, 0x4, 4, 4, 1, 15, 8, .rwl, false⟩
/-- AD.SIO_STAT: bits 11:0, RO. Accepted levels: ESTOP_A, ESTOP_B, ENABLE_A, ENABLE_B, DOOR0_A to DOOR3_B -/
def AD_SIO_STAT_LEVEL : Field := ⟨.ad, 0x150220, 0x4, 1, 4, 1, 11, 0, .ro, false⟩
/-- AD.SIO_STAT: bits 17:12, RO. ESTOP, ENABLE, DOOR0–DOOR3 -/
def AD_SIO_STAT_DEMAND : Field := ⟨.ad, 0x150220, 0x4, 1, 4, 1, 17, 12, .ro, false⟩
/-- AD.SIO_STAT: bits 23:18, RO. Latches of R425, same order -/
def AD_SIO_STAT_DISC : Field := ⟨.ad, 0x150220, 0x4, 1, 4, 1, 23, 18, .ro, false⟩
/-- AD.STO_CFG: bits 0:0, RWL. Pair in use; 1 for STOG0, STOG1 -/
def AD_STO_CFG_EN : Field := ⟨.ad, 0x150240, 0x4, 10, 4, 1, 0, 0, .rwl, false⟩
/-- AD.STO_CFG: bits 3:1, RWL. R427; ignored for p = 8, 9 -/
def AD_STO_CFG_GROUP : Field := ⟨.ad, 0x150240, 0x4, 10, 4, 1, 3, 1, .rwl, false⟩
/-- AD.STO_STAT: bits 0:0, RO. Both channels driven low -/
def AD_STO_STAT_ASSERTED : Field := ⟨.ad, 0x150280, 0x4, 10, 4, 1, 0, 0, .ro, false⟩
/-- AD.STO_STAT: bits 1:1, RO. Levels -/
def AD_STO_STAT_DRIVE_A : Field := ⟨.ad, 0x150280, 0x4, 10, 4, 1, 1, 1, .ro, false⟩
/-- AD.STO_STAT: bits 2:2, RO. Levels -/
def AD_STO_STAT_DRIVE_B : Field := ⟨.ad, 0x150280, 0x4, 10, 4, 1, 2, 2, .ro, false⟩
/-- AD.STO_STAT: bits 3:3, RO. Levels -/
def AD_STO_STAT_FB_A : Field := ⟨.ad, 0x150280, 0x4, 10, 4, 1, 3, 3, .ro, false⟩
/-- AD.STO_STAT: bits 4:4, RO. Levels -/
def AD_STO_STAT_FB_B : Field := ⟨.ad, 0x150280, 0x4, 10, 4, 1, 4, 4, .ro, false⟩
/-- AD.STO_STAT: bits 16:8, RO. R428: register bit 8 + i shows cause i; cause 8 is set at power-on -/
def AD_STO_STAT_CAUSE : Field := ⟨.ad, 0x150280, 0x4, 10, 4, 1, 16, 8, .ro, false⟩
/-- AD.STO_CTRL: bits 0:0, WO. R429 -/
def AD_STO_CTRL_GLOBAL_RELEASE : Field := ⟨.ad, 0x1502C0, 0x4, 1, 4, 1, 0, 0, .wo, false⟩
/-- AD.STO_TEST: bits 9:0, RWL. 0 none, or 50–500 -/
def AD_STO_TEST_TEST_US : Field := ⟨.ad, 0x1502C4, 0x4, 1, 4, 1, 9, 0, .rwl, false⟩
/-- AD.STO_TEST: bits 23:16, RWL. 1–255 -/
def AD_STO_TEST_TEST_S : Field := ⟨.ad, 0x1502C4, 0x4, 1, 4, 1, 23, 16, .rwl, false⟩
/-- AD.WDOG_STAT: bits 0:0, RO. WDOG_OUT toggling -/
def AD_WDOG_STAT_RUNNING : Field := ⟨.ad, 0x1502D0, 0x4, 1, 4, 1, 0, 0, .ro, false⟩
/-- AD.WDOG_STAT: bits 15:8, RC. Boundaries without a heartbeat -/
def AD_WDOG_STAT_MISSES : Field := ⟨.ad, 0x1502D0, 0x4, 1, 4, 1, 15, 8, .rc, false⟩

/-- Every field of block AD. -/
def adMap : List Field :=
  [AD_CFG_MODE, AD_CFG_COUNT, AD_STAT_PASS, AD_STAT_BUSY, AD_STAT_URG_PENDING, AD_URGENT_ENTRY, AD_URGENT_GO, AD_COUNT_URG_DROP, AD_COUNT_TRG_OVERLAP, AD_COUNT_ABORTS, AD_SEQ_A_INPUT, AD_SEQ_A_DIFF] ++
  [AD_SEQ_A_LEFT, AD_SEQ_A_LIM_EN, AD_SEQ_A_LIM_N, AD_SEQ_A_LIM_REACT, AD_SEQ_A_LIM_MASK, AD_SEQ_B_LIMIT_LO, AD_SEQ_B_LIMIT_HI, AD_RES, AD_RES_STAT_PASS, AD_RES_STAT_URGENT, AD_RES_STAT_OUT, AD_SIO_CFG_FILT_US] ++
  [AD_SIO_CFG_DISC_MS, AD_SIO_CFG_ESTOP_CAT, AD_SIO_CFG_ENABLE_EN, AD_SIO_CFG_B_ESTOP_SS1_MS, AD_SIO_CFG_B_WD_CYC, AD_SIO_CFG_B_ENABLE_MASK, AD_DOOR_CFG_EN, AD_DOOR_CFG_CAT, AD_DOOR_CFG_MASK, AD_SIO_STAT_LEVEL, AD_SIO_STAT_DEMAND, AD_SIO_STAT_DISC] ++
  [AD_STO_CFG_EN, AD_STO_CFG_GROUP, AD_STO_STAT_ASSERTED, AD_STO_STAT_DRIVE_A, AD_STO_STAT_DRIVE_B, AD_STO_STAT_FB_A, AD_STO_STAT_FB_B, AD_STO_STAT_CAUSE, AD_STO_CTRL_GLOBAL_RELEASE, AD_STO_TEST_TEST_US, AD_STO_TEST_TEST_S, AD_WDOG_STAT_RUNNING] ++
  [AD_WDOG_STAT_MISSES]

/-- The reset value of the register at an offset of block AD. -/
def adReset (off : Nat) : Word :=
  if 0x150100 ≤ off ∧ off < 0x150200 ∧ (off - 0x150100) % 0x10 = 0 then 0x100
  else if off = 0x150200 then 0x61405
  else if off = 0x150204 then 0x401F4
  else if 0x150280 ≤ off ∧ off < 0x1502A8 ∧ (off - 0x150280) % 0x4 = 0 then 0x10001
  else if off = 0x1502C4 then 0xA0000
  else 0

/-! ### Block PW -/

/-- PW.SUNDIAL_TARGET: bits 15:0, RW. Pace target, unsigned Q4.12: 1.650. Values outside 0x119A (1.100) to 0x2000 (2.000) are ignored with SYS_WRITE -/
def PW_SUNDIAL_TARGET_TARGET : Field := ⟨.pw, 0x160000, 0x4, 1, 4, 1, 15, 0, .rw, false⟩
/-- PW.SUNDIAL_STAT: bits 5:0, RO. Code driven (R437) -/
def PW_SUNDIAL_STAT_VID : Field := ⟨.pw, 0x160004, 0x4, 1, 4, 1, 5, 0, .ro, false⟩
/-- PW.SUNDIAL_STAT: bits 11:8, RO. Region with the least pace, 0–9 -/
def PW_SUNDIAL_STAT_MIN_REGION : Field := ⟨.pw, 0x160004, 0x4, 1, 4, 1, 11, 8, .ro, false⟩
/-- PW.SUNDIAL_STAT: bits 13:12, RO. 0 normal, 1 PACE_LOW, 2 PACE_LOST -/
def PW_SUNDIAL_STAT_PACE_STATE : Field := ⟨.pw, 0x160004, 0x4, 1, 4, 1, 13, 12, .ro, false⟩
/-- PW.SUNDIAL_STAT: bits 14:14, RO. PACE_HEADROOM condition holds -/
def PW_SUNDIAL_STAT_HEADROOM : Field := ⟨.pw, 0x160004, 0x4, 1, 4, 1, 14, 14, .ro, false⟩
/-- PW.SUNDIAL_COUNT: bits 15:0, RC. Resolutions over 2 ns (R37) -/
def PW_SUNDIAL_COUNT_ARB_MARGIN : Field := ⟨.pw, 0x160008, 0x4, 1, 4, 1, 15, 0, .rc, false⟩
/-- PW.SUNDIAL_COUNT: bits 31:16, RC. Changes of VID -/
def PW_SUNDIAL_COUNT_VID_CHANGES : Field := ⟨.pw, 0x160008, 0x4, 1, 4, 1, 31, 16, .rc, false⟩
/-- PW.PACE: bits 15:0, RO. Pace of region r, Q4.12; 0 while powered down -/
def PW_PACE_PACE : Field := ⟨.pw, 0x160010, 0x4, 10, 4, 1, 15, 0, .ro, false⟩
/-- PW.PACE: bits 31:16, RC. Least pace since last read -/
def PW_PACE_MIN : Field := ⟨.pw, 0x160010, 0x4, 10, 4, 1, 31, 16, .rc, false⟩
/-- PW.SUPPLY_STAT: bits 7:0, RO. One bit per supply in the order of R435: VDDC, VDDT, VDDNV, VDDS, VDDSH, VDDPE, VDDIO18, VDDIO33; bit 8 VDDA -/
def PW_SUPPLY_STAT_GOOD : Field := ⟨.pw, 0x160040, 0x4, 1, 4, 1, 7, 0, .ro, false⟩
/-- PW.SUPPLY_STAT: bits 8:8, RO. As GOOD -/
def PW_SUPPLY_STAT_GOOD_VDDA : Field := ⟨.pw, 0x160040, 0x4, 1, 4, 1, 8, 8, .ro, false⟩
/-- PW.SUPPLY_STAT: bits 9:9, RO. Accepted level -/
def PW_SUPPLY_STAT_VR_PGOOD : Field := ⟨.pw, 0x160040, 0x4, 1, 4, 1, 9, 9, .ro, false⟩
/-- PW.SUPPLY_STAT: bits 10:10, RO. Power-fail signal (R442) -/
def PW_SUPPLY_STAT_PFAIL : Field := ⟨.pw, 0x160040, 0x4, 1, 4, 1, 10, 10, .ro, false⟩
/-- PW.VDDC_MV: bits 11:0, RO. Measured VDDC, mV, 5 mV resolution -/
def PW_VDDC_MV_MV : Field := ⟨.pw, 0x160044, 0x4, 1, 4, 1, 11, 0, .ro, false⟩
/-- PW.TEMP: bits 15:0, RO. Signed, 0.25 °C -/
def PW_TEMP_TJ : Field := ⟨.pw, 0x160048, 0x4, 1, 4, 1, 15, 0, .ro, false⟩
/-- PW.TEMP: bits 31:16, RC. Highest since last read -/
def PW_TEMP_TJ_MAX : Field := ⟨.pw, 0x160048, 0x4, 1, 4, 1, 31, 16, .rc, false⟩
/-- PW.TEMP_CFG: bits 6:0, RW. °C, 80–105; other values ignored with SYS_WRITE_IGNORED -/
def PW_TEMP_CFG_TJ_WARN : Field := ⟨.pw, 0x16004C, 0x4, 1, 4, 1, 6, 0, .rw, false⟩
/-- PW.HOLDUP_CFG: bits 11:0, RWL. R443; 0 makes HOLDUP_OK 0 -/
def PW_HOLDUP_CFG_VTH_MV : Field := ⟨.pw, 0x160050, 0x4, 1, 4, 1, 11, 0, .rwl, false⟩
/-- PW.ISLAND_A: bits 31:0, RO. Tiller islands on, TL0–TL31 and TL32–TL63 -/
def PW_ISLAND_A : Field := ⟨.pw, 0x160060, 0x4, 1, 4, 1, 31, 0, .ro, false⟩
/-- PW.ISLAND_B: bits 31:0, RO. Tiller islands on, TL0–TL31 and TL32–TL63 -/
def PW_ISLAND_B : Field := ⟨.pw, 0x160064, 0x4, 1, 4, 1, 31, 0, .ro, false⟩
/-- PW.ISLAND_C: bits 8:0, RO. E0–E8 on -/
def PW_ISLAND_C_E_ON : Field := ⟨.pw, 0x160068, 0x4, 1, 4, 1, 8, 0, .ro, false⟩
/-- PW.ISLAND_C: bits 17:10, RO. FA0–FA7 commons on -/
def PW_ISLAND_C_FA_ON : Field := ⟨.pw, 0x160068, 0x4, 1, 4, 1, 17, 10, .ro, false⟩
/-- PW.ISLAND_C: bits 18:18, RO. FA8 common on -/
def PW_ISLAND_C_FA8_ON : Field := ⟨.pw, 0x160068, 0x4, 1, 4, 1, 18, 18, .ro, false⟩
/-- PW.ISLAND_C: bits 25:20, RO. CB0–CB3, TW0–TW1 -/
def PW_ISLAND_C_LANE_ON : Field := ⟨.pw, 0x160068, 0x4, 1, 4, 1, 25, 20, .ro, false⟩
/-- PW.FORCE_OFF_A: bits 31:0, RW. R452 -/
def PW_FORCE_OFF_A : Field := ⟨.pw, 0x160070, 0x4, 1, 4, 1, 31, 0, .rw, false⟩
/-- PW.FORCE_OFF_B: bits 31:0, RW. R452 -/
def PW_FORCE_OFF_B : Field := ⟨.pw, 0x160074, 0x4, 1, 4, 1, 31, 0, .rw, false⟩
/-- PW.FORCE_OFF_C: bits 8:0, RW. R452 -/
def PW_FORCE_OFF_C_E : Field := ⟨.pw, 0x160078, 0x4, 1, 4, 1, 8, 0, .rw, false⟩
/-- PW.FORCE_OFF_C: bits 17:10, RW. R452 -/
def PW_FORCE_OFF_C_FA : Field := ⟨.pw, 0x160078, 0x4, 1, 4, 1, 17, 10, .rw, false⟩
/-- PW.FORCE_OFF_C: bits 18:18, RW. R452 -/
def PW_FORCE_OFF_C_FA8 : Field := ⟨.pw, 0x160078, 0x4, 1, 4, 1, 18, 18, .rw, false⟩
/-- PW.FORCE_OFF_C: bits 25:20, RW. R452 -/
def PW_FORCE_OFF_C_LANE : Field := ⟨.pw, 0x160078, 0x4, 1, 4, 1, 25, 20, .rw, false⟩
/-- PW.PD_TIMEOUT: bits 7:0, RW. µs, 4–255; values below 4 act as 4 -/
def PW_PD_TIMEOUT_US : Field := ⟨.pw, 0x160080, 0x4, 1, 4, 1, 7, 0, .rw, false⟩
/-- PW.RESET_CAUSE: bits 7:0, RC. R444 -/
def PW_RESET_CAUSE_CAUSE : Field := ⟨.pw, 0x160090, 0x4, 1, 4, 1, 7, 0, .rc, false⟩
/-- PW.RESET_CTRL: bits 15:0, WO. R447 -/
def PW_RESET_CTRL_KEY : Field := ⟨.pw, 0x160094, 0x4, 1, 4, 1, 15, 0, .wo, false⟩
/-- PW.BOOT_STAT: bits 1:0, RO. Running slot, 0 or 1; 3 recovery (R451) -/
def PW_BOOT_STAT_SLOT : Field := ⟨.pw, 0x1600A0, 0x4, 1, 4, 1, 1, 0, .ro, false⟩
/-- PW.BOOT_STAT: bits 3:2, RO. One bit per slot -/
def PW_BOOT_STAT_SLOT_VALID : Field := ⟨.pw, 0x1600A0, 0x4, 1, 4, 1, 3, 2, .ro, false⟩
/-- PW.BOOT_STAT: bits 31:16, RO. Duration of the last secure boot, ms -/
def PW_BOOT_STAT_BOOT_MS : Field := ⟨.pw, 0x1600A0, 0x4, 1, 4, 1, 31, 16, .ro, false⟩
/-- PW.MGMT_WD: bits 9:0, RWL. ms, 10–1,000 -/
def PW_MGMT_WD_MS : Field := ⟨.pw, 0x1600A4, 0x4, 1, 4, 1, 9, 0, .rwl, false⟩
/-- PW.MGMT_WD: bits 23:16, RC. R455 -/
def PW_MGMT_WD_EXPIRIES : Field := ⟨.pw, 0x1600A4, 0x4, 1, 4, 1, 23, 16, .rc, false⟩

/-- Every field of block PW. -/
def pwMap : List Field :=
  [PW_SUNDIAL_TARGET_TARGET, PW_SUNDIAL_STAT_VID, PW_SUNDIAL_STAT_MIN_REGION, PW_SUNDIAL_STAT_PACE_STATE, PW_SUNDIAL_STAT_HEADROOM, PW_SUNDIAL_COUNT_ARB_MARGIN, PW_SUNDIAL_COUNT_VID_CHANGES, PW_PACE_PACE, PW_PACE_MIN, PW_SUPPLY_STAT_GOOD, PW_SUPPLY_STAT_GOOD_VDDA, PW_SUPPLY_STAT_VR_PGOOD] ++
  [PW_SUPPLY_STAT_PFAIL, PW_VDDC_MV_MV, PW_TEMP_TJ, PW_TEMP_TJ_MAX, PW_TEMP_CFG_TJ_WARN, PW_HOLDUP_CFG_VTH_MV, PW_ISLAND_A, PW_ISLAND_B, PW_ISLAND_C_E_ON, PW_ISLAND_C_FA_ON, PW_ISLAND_C_FA8_ON, PW_ISLAND_C_LANE_ON] ++
  [PW_FORCE_OFF_A, PW_FORCE_OFF_B, PW_FORCE_OFF_C_E, PW_FORCE_OFF_C_FA, PW_FORCE_OFF_C_FA8, PW_FORCE_OFF_C_LANE, PW_PD_TIMEOUT_US, PW_RESET_CAUSE_CAUSE, PW_RESET_CTRL_KEY, PW_BOOT_STAT_SLOT, PW_BOOT_STAT_SLOT_VALID, PW_BOOT_STAT_BOOT_MS] ++
  [PW_MGMT_WD_MS, PW_MGMT_WD_EXPIRIES]

/-- The reset value of the register at an offset of block PW. -/
def pwReset (off : Nat) : Word :=
  if off = 0x160000 then 0x1A66
  else if off = 0x160004 then 0x28
  else if 0x160010 ≤ off ∧ off < 0x160038 ∧ (off - 0x160010) % 0x4 = 0 then 0xFFFF0000
  else if off = 0x160048 then 0x80000000
  else if off = 0x16004C then 0x64
  else if off = 0x160080 then 0x14
  else if off = 0x1600A4 then 0x64
  else 0

end Sys2Proof.Machine.R
end

