-- ==== Sys2Proof/Machine/State.lean ====
section
/-! DEFINITION. The state of the GH-8640 as plain data: every register, memory, queue, counter, latch and pin that the
spec gives the block, unit by unit, the queue of waiting commands, the state after reset, and the reasons a command
can stop. -/
namespace Sys2Proof.Machine

/-- Why a command stops with a fault. -/
inductive Fault where
  /-- Raised by the meaning of a Tiller instruction whose fields the image loader refuses (R169): no Tiller ever
  executes such a word, so the command names an instruction that cannot exist. Safe: the model stops. -/
  | illegalTillerInsn
  deriving DecidableEq, Repr

/-- Why a command is refused. -/
inductive Refusal where
  /-- A command whose meaning is not written yet, by its mnemonic. Safe: the model stops. -/
  | notModelled (mnemonic : String)
  deriving DecidableEq, Repr

/-! ### Events and escalations (R21 to R25, R387) -/

/-- One event record as its detector posts it (R387, R388). `inst` is the instance of P0, 0xFFFF when there is none;
`body` holds the payload words from P0 on, empty for a header alone. -/
structure EvRec where
  code : Nat
  sev : Sev
  plane : Plane
  injected : Bool
  esc : Bool
  ns : Nat
  sec : Nat
  tick : Nat
  inst : Nat
  body : List Word
  deriving DecidableEq, Repr

/-- A reaction that a fault escalation selects for its arm groups (R24, R185). -/
inductive React where
  | none | ss2 | ss1 | sto | pace
  deriving DecidableEq, Repr

/-- One asserted escalation wire (R23): its severity, arm-group mask, global bit, the reaction its detector selects,
the stop cause it leaves in JSTAT.CAUSE, the event it goes with, and the tick of the detector. -/
structure Esc where
  fatal : Bool
  mask : BitVec 8
  glob : Bool
  react : React
  cause : Nat
  code : Nat
  inst : Nat
  tick : Nat
  deriving DecidableEq, Repr

/-! ### Time base (chapter 02) -/

/-- One copy of the counter (R45): seconds, nanoseconds, and the fraction in units of 2^-32 ns. -/
structure Counter where
  sec : Nat := 0
  ns : Nat := 0
  sub : Nat := 0
  deriving DecidableEq, Repr

/-- A step accepted by the correction arbiter and not yet applied (R54): the tick of its tag, its kind, and the
TW_CMD ALIGN that asked for it. -/
structure StepReq where
  tag : Nat
  desc : Option DescId := none
  rel : Bool
  neg : Bool
  sec : Nat
  ns : Nat
  deriving DecidableEq, Repr

/-- A correction of the time base that waits for the end of its arbiter round (R54, R55). -/
inductive Corr where
  | step (mode : Nat) (neg : Bool) (sec ns : Nat)
  | frac (v : Int)
  deriving DecidableEq, Repr

/-- A request at the correction arbiter (R55): its tag, its rank in the order of R36 (0 and 1 the twin ports, 2 the ring processor,
3 the management core), what it asks for, and the TW_CMD ALIGN that made it. -/
structure CorrReq where
  tag : Nat
  rank : Nat
  what : Corr
  desc : Option DescId := none
  deriving DecidableEq, Repr

/-- The inner state of one trigger channel (R63, R64): the programmed time taken when ARM was set, and the tick at
which a late trigger fires. -/
structure Trig where
  sec : Nat := 0
  ns : Nat := 0
  late : Option Nat := none
  deriving DecidableEq, Repr

/-- The time island: the two copies of the counter (R50), the ticks since the island left reset, corrections on their
way, captures with the edges of this tick that met a held stamp (R62), triggers, the PPS output and the PTP port (`ptpSlaveOnly` is
the selectable role of R68, `ptpFrom` the source address of the last message sent, R75). -/
structure TimeBase where
  a : Counter := {}
  b : Counter := {}
  tick : Nat := 0
  corr : List CorrReq := []
  steps : List StepReq := []
  fracs : List (Nat × Int) := []
  capSec : Tab Nat := []
  capEdge : Tab (Option (Nat × Nat)) := []
  trig : Tab Trig := []
  ppsOut : Bool := false
  ppsFallAt : Nat := 0
  ppsDone : Option Nat := none
  ptpBelow : Nat := 0
  ptpIgnored : Nat := 0
  ptpSeen : Nat := 0
  ptpSent : Nat := 0
  ptpFrom : Nat := 0
  ptpFollowUp : Bool := false
  ptpSlaveOnly : Bool := false
  offTick : Option Nat := none
  lockTick : Nat := 0
  deriving DecidableEq, Repr

/-! ### Bus cycle and Ryfoid cell bus (chapters 01, 03, 04) -/

/-- The cycle grid (R40, R102): whether cycles are counted, the epoch, the number of the cycle in progress (none before cycle 0),
its start tick with the NS field there, the last cycle whose solver-period boundary was taken, and the window of R85: the cycle
whose boundary ended the last one, the time at which the present one began while no cycle is counted, and the number of the first cycle to come. -/
structure Grid where
  running : Bool := false
  epSec : Nat := 0
  epNs : Nat := 0
  cyc : Option Nat := none
  start : Nat := 0
  startNs : Nat := 0
  solver : Option Nat := none
  winCyc : Option Nat := none
  winNow : Nat := 0
  first : Nat := 0
  deriving DecidableEq, Repr

/-- One secure association (R86 to R89): its key by identifier, its packet number, whether CB_PN_HIGH went out, and the time in ns of
the time base at which a replaced receive SA retires. -/
structure Sa where
  valid : Bool := false
  key : Nat := 0
  pn : Nat := 0
  high : Bool := false
  retireAt : Option Nat := none
  newest : Bool := false
  deriving DecidableEq, Repr

/-- A frame that a port has put on the wire: its type, slot, cycle, epoch, addressee, layout, payload, PN and launch tick; and as the
port forms it, its destination and source address (R75), the 20 bytes of its Ryfoid header with FROM_DEVICE, DEVICE_B, LENGTH and
PCRC (R81, R82; a twin message has none), the zero bytes after its payload (R80), and whether the port left UP while it went out, so
that it was truncated and ended with an error code-group (R77). -/
structure TxFrame where
  ftype : Nat
  slot : Nat
  cycle : Nat
  epoch : Nat
  partner : Nat
  layout : Nat
  payload : List Byte
  pn : Nat
  tick : Nat
  da : Nat := 0
  sa : Nat := 0
  hdr : List Byte := []
  pad : Nat := 0
  cut : Bool := false
  deriving DecidableEq, Repr

/-- An acyclic frame waiting to be sent (R109): its partner, payload and the descriptor it completes. -/
structure AcySend where
  partner : Nat
  payload : List Byte
  desc : Option (Nat × Nat × Nat)
  deriving DecidableEq, Repr

/-- The inner state of one CB port: link timers (R76), secure associations, a transmit changeover (R88), the
launch-at-time and ring queues (R109), and the last frame launched; `upAll` says that the port was UP throughout the cycle. -/
structure Port where
  held : Bool := false
  heldSince : Nat := 0
  upAll : Bool := false
  trainStart : Option Nat := none
  retryAt : Option Nat := none
  rx : Tab Sa := []
  tx : Tab Sa := []
  txAn : Option Nat := none
  change : Option (Nat × Nat) := none
  exhausted : Bool := false
  lat : List AcySend := []
  latFree : Nat := 0
  acy : List AcySend := []
  last : Option TxFrame := none
  lastRef : Option Nat := none
  acyTick : Nat := 0
  deriving DecidableEq, Repr

/-- One slot's two buffers and their flags (R110, R111, R115): the cycles whose frames it accepted (R93), whether an injection
discarded this cycle's frame, the cycle last declared missing, the hand-over with its tick and whether the pace was lost then (R32), whether the fill buffer was sent,
the cycle last launched, and the class, stamp and deviation of this cycle's frame with the stamp of the frame in the held buffer. -/
structure Slot where
  fill : List Byte := []
  heldBuf : List Byte := []
  freshNow : Bool := false
  freshHeld : Bool := false
  missNow : Bool := false
  run : Nat := 0
  accepted : List Nat := []
  injMiss : Bool := false
  declared : Option Nat := none
  ready : Bool := false
  readyTick : Nat := 0
  slow : Bool := false
  sent : Bool := false
  launched : Option Nat := none
  cls : Nat := 0
  arr : Nat := 0
  heldArr : Nat := 0
  dev : Int := 0
  deriving DecidableEq, Repr

/-- What the device keeps for one partner: its token bucket and window counts (R94, R97), which frames of the policed types it
sent in this cycle, the cycles of its ANNOUNCE and of its VALID report (R123), the delay samples, failed measurements, the
cycle and departure stamp of the open request (R119), whether the sync mode is settled or refused (R120), the cycles spent
JOINING (R125), the activation cycle (R124), the forwarding delays it reported, its last PARTNER_FALLBACK, and the tick of
the last quarantine cause (R99). -/
structure Partner where
  tokens : Nat := 0
  ownWin : Nat := 0
  polWin : Nat := 0
  refSeen : Bool := false
  delaySeen : Bool := false
  joinSeen : Bool := false
  annCycle : Option Nat := none
  validCycle : Option Nat := none
  samples : List Int := []
  tries : Nat := 0
  asked : Option Nat := none
  t1 : Option Nat := none
  settled : Bool := false
  refused : Bool := false
  refuseDue : Bool := false
  joinCount : Nat := 0
  grantAt : Option Nat := none
  fwdOut : Option Nat := none
  fwdRet : Option Nat := none
  fallback : Bool := false
  qTick : Option Nat := none
  deriving DecidableEq, Repr

/-- A buffer posted by ACYCLIC_RECV (R344): the partner and port, the host address and length, and its descriptor. -/
structure RecvBuf where
  partner : Nat
  port : Nat
  addr : Nat
  len : Nat
  desc : Nat × Nat × Nat
  deriving DecidableEq, Repr

/-- The Ryfoid cell bus. `goodCycles` holds, for each port, the last cycles in which every due to-partner slot was
launched with the port UP throughout (R123). The port-key KEK is kept in the wedge-safe domain (R87). -/
structure CellBus where
  port : Tab Port := []
  slot : Tab Slot := []
  partner : Tab Partner := []
  recv : List RecvBuf := []
  goodCycles : Tab (List Nat) := []
  kek : Option Nat := none
  deriving DecidableEq, Repr

/-! ### Position and speed feedback (chapter 05) -/

/-- What a sample gives a channel's update (R128, R148): a serial word, no word (with whether it counts toward the run of
R152), or a direct port's latch: edges in the sample, twice the boundary of the last edge, ticks since it, the seed of a
start (direction, interval in ticks, twice the boundary, ticks since it), the count, the reported count, the state, and whether
an index event fell into the sample. -/
inductive Meas where
  | word (v : Nat)
  | missing (counts : Bool)
  | port (k : Nat) (b2 : Int) (dt : Nat) (seed : Option (Int × Nat × Int × Nat)) (lin rep : Int) (st : Nat)
    (idx : Bool)
  deriving DecidableEq, Repr

/-- A seed noted at an edge: direction, first and second edge ticks, twice the boundary of the second (R149). -/
structure Seed where
  dir : Int
  t1 : Nat
  t2 : Nat
  b2 : Int
  deriving DecidableEq, Repr

/-- One feedback channel: linear position (turns × CPR + count, R138), the observer states p (Q64.32), v (Q40.24) and
a (Q56.8) of R147, its gains in Q2.30 (R146), the state of R149, the sample that waits for the processor with its instant,
the instant of the sample that the states stand for, the last valid word (R139) and whether the next one follows LOST (R141), whether a valid sample was delivered since enable
the run of invalid ones (R152) and whether the last sample was valid (R153), the edge machine (first edge, last direction, reversing edge, edges of the sample with
the last one's tick and boundary), the reported count of R151, and the marks of R142 to R145. -/
structure Chan where
  lin : Int := 0
  ph : Int := 0
  vh : Int := 0
  ah : Int := 0
  alpha : Int := 0
  beta : Int := 0
  gamma : Int := 0
  st : Nat := 0
  pend : Option Meas := none
  sampleTick : Nat := 0
  sampleNs : Nat := 0
  obsTick : Nat := 0
  word : Option Nat := none
  afterLost : Bool := false
  validSeen : Bool := false
  run : Nat := 0
  live : Bool := false
  dir1 : Int := 0
  t1 : Nat := 0
  lastDir : Int := 0
  rev : Nat := 0
  edges : Nat := 0
  lastEdge : Option Nat := none
  b2 : Int := 0
  seed : Option Seed := none
  rep : Int := 0
  repDir : Int := 0
  unver : Bool := false
  holdIdx : Bool := false
  lastOut : Option Int := none
  idxIn : Bool := false
  deriving DecidableEq, Repr

/-- The channel is LOST (R152). -/
def Chan.lost (c : Chan) : Bool := decide (c.st = 4)

/-- One direct port: accepted levels of A, B and Z (U, V and W of a Hall port) with the ticks of their last acceptance (R131), the level
of B in the tick before (the idle check of R136), the last cycle that took a sample, the SSI clock output, and the frame in progress
(R135): its start, whether the line idled low, the bits read so far, and the level one half-period after its end; and when the last
frame ended. -/
structure DPort where
  a : Bool := false
  b : Bool := false
  z : Bool := false
  accA : Option Nat := none
  accB : Option Nat := none
  accZ : Option Nat := none
  bWas : Bool := false
  clk : Bool := true
  ssiBusy : Bool := false
  ssiStart : Nat := 0
  ssiEnd : Option Nat := none
  ssiRaw : Nat := 0
  ssiTail : Option Bool := none
  idleLow : Bool := false
  sampled : Option Nat := none
  deriving DecidableEq, Repr

/-- One emulation output: its output count, and the edges of this cycle (R154, R155): their number, how many are out, and
whether they count down. -/
structure Emul where
  count : Nat := 0
  total : Nat := 0
  out : Nat := 0
  down : Bool := false
  pinA : Bool := false
  pinB : Bool := false
  pinZ : Bool := false
  deriving DecidableEq, Repr

/-- The feedback block. -/
structure Feedback where
  chan : Tab Chan := []
  dp : Tab DPort := []
  eo : Tab Emul := []
  deriving DecidableEq, Repr

/-! ### Tiller slices and joint control (chapters 06, 07) -/

/-- Four 72-bit accumulators, one for each lane (R158). -/
structure Acc4 where
  a0 : BitVec 72 := 0
  a1 : BitVec 72 := 0
  a2 : BitVec 72 := 0
  a3 : BitVec 72 := 0
  deriving DecidableEq, Repr

/-- Four lane flags (R158). -/
structure Flag4 where
  l0 : Bool := false
  l1 : Bool := false
  l2 : Bool := false
  l3 : Bool := false
  deriving DecidableEq, Repr

/-- An access to X from outside, held until END (R161): address and word written. -/
structure HeldX where
  addr : Nat
  val : Word
  deriving DecidableEq, Repr

/-- Where the preload of the present cycle stands (R174, R175). -/
inductive Preload where
  | idle | running | complete
  deriving DecidableEq, Repr

/-- One Tiller slice: program memory, X, plain Y, the two banks of the coefficient window and Y[127], accumulators
and flags (R158), the run (R159) with the integrators latched at its dispatch (R195), accesses held until its END (R161), the
preload (R174) with the cycle that started it, the cycle of the last END and the region it read, the staged integrators (R193), the transfer shown to
the next run, whether the bands were evaluated since enable (R191), runs completed in STANDBY (R186), the position held in
HELD, consecutive still cycles (R184), a store saturated in this run, the trip posted (R197), the image's write map, and the words
with wrong bits that no read has met yet, by memory and address (R178; true: uncorrectable). -/
structure Tiller where
  prog : Tab Word := []
  x : Tab Word := []
  y : Tab Word := []
  win0 : Tab Word := []
  win1 : Tab Word := []
  bank : Bool := false
  y127 : Word := 0
  acc : Acc4 := {}
  flg : Flag4 := {}
  t : Bool := false
  running : Bool := false
  pc : Nat := 0
  start : Nat := 0
  latchD : Word := 0
  latchQ : Word := 0
  held : List HeldX := []
  pl : Preload := .idle
  plStart : Option Nat := none
  endCycle : Option Nat := none
  plRegion : Nat := 0
  stageD : Option Word := none
  stageQ : Option Word := none
  xferView : Bool := false
  bandInit : Bool := false
  standbyRuns : Nat := 0
  heldPos : Int := 0
  stillRun : Nat := 0
  stSat : Bool := false
  tripped : Bool := false
  writeMap : List Nat := []
  flips : List (Nat × Nat × Bool) := []
  deriving DecidableEq, Repr

/-- What the reaction logic keeps for one arm group (R184 to R187): the stop in force (0 none, 1 SS2, 2 SS1) and the start
of an SS1, the reaction waiting for the next boundary with its cause, the events (code and instance) that stopped the group,
the fault escalations whose reaction it has not met yet (R25), and the ARM_SERVO operations that wait for their boundary (operation, descriptor, cycle of acceptance). -/
structure Group where
  stop : Nat := 0
  ss1Start : Nat := 0
  want : Nat := 0
  wantCause : Nat := 0
  stopEvents : List (Nat × Nat) := []
  held : List Esc := []
  servo : List (Nat × (Nat × Nat × Nat) × Nat) := []
  deriving DecidableEq, Repr

/-! ### Motion profiles and step axes (chapter 08) -/

/-- A planned motion (R200): the state at profile time 0 in counts, counts/s and counts/s², the constant-jerk phases
(duration in ns, jerk in counts/s³), and the end position in Q48.16 counts, none for a search that has no end. -/
structure Plan where
  p0 : Rat
  v0 : Rat
  a0 : Rat
  phases : List (Nat × Rat)
  target : Option Int
  deriving DecidableEq, Repr

/-- A move waiting in a queue or for its planning cycle (R201, R202): the target in Q48.16, the descriptor that completes
at its end, START_TRIGGER, the coordination group of a group move with the distances of its members in Q48.16 (for a
single move, the axis itself), and the cycle of acceptance. -/
structure Seg where
  target : Int
  desc : Option (Nat × Nat × Nat)
  trigger : Bool
  group : Option Nat
  dists : List (Nat × Int)
  cycle : Nat
  deriving DecidableEq, Repr

/-- Where a homing stands (R219): the search, the deceleration after the switch asserted, the slow move off the switch,
the wait for an index after the release, the deceleration after the home event, and the one after a failure. -/
inductive HomePhase where
  | none | search | decel | away | index | final | fail
  deriving DecidableEq, Repr

/-- One profile generator: its sample in the formats of R198 (Q48.16, Q40.24, Q56.8), the target in force, its plan with
its profile time in 2^-15 ns and the cycle of profile time 0, the cycle of the last sample, the limits in force (R203)
with those kept for the end of a move, the queue of segments (R202), the group member that caused an abort (R205), and
its homing (R219 to R222) with the count of the index it latched. -/
structure Gen where
  pos : Int := 0
  vel : Int := 0
  acc : Int := 0
  tgt : Int := 0
  plan : Option Plan := none
  ptime : Nat := 0
  start : Nat := 0
  sampled : Option Nat := none
  cur : Option Seg := none
  queue : List Seg := []
  vmax : Nat := 0
  amax : Nat := 0
  dmax : Nat := 0
  jmax : Nat := 0
  limLater : Option (Nat × Nat) := none
  trigLatched : Bool := false
  causeBy : Option Nat := none
  home : HomePhase := .none
  homeDesc : Option (Nat × Nat × Nat) := none
  homeStart : Int := 0
  homeLatch : Int := 0
  homeIdx : Option Nat := none
  homeFail : Nat := 0
  deriving DecidableEq, Repr

/-- One step generator (R209 to R215): the phase accumulator, the step count due and the step count issued, the word in
force with the cycle that loaded it, pending steps (true: negative), the pins before their polarity, the ticks of the
last rise, fall and change of direction, the steps issued in the last microseconds with their ticks, the accepted level
of STk_RDY with the tick of its last acceptance, and its consecutive injected samples. -/
structure StepGen where
  phase : Nat := 0
  steps : Int := 0
  issued : Int := 0
  word : Int := 0
  loaded : Option Nat := none
  pend : List Bool := []
  stepPin : Bool := false
  dirPin : Bool := false
  enPin : Bool := false
  rise : Nat := 0
  fall : Nat := 0
  dirAt : Nat := 0
  recent : List (Nat × Bool) := []
  rdy : Bool := false
  rdyAt : Nat := 0
  injRun : Nat := 0
  deriving DecidableEq, Repr

/-- The motion block: generators, step generators, and the last five accepted transitions of each axis input, each
with its date and the tick of its acceptance (R216, R217). -/
structure Motion where
  gen : Tab Gen := []
  st : Tab StepGen := []
  axTimes : Tab (List (Nat × Nat)) := []
  deriving DecidableEq, Repr


/-! ### Solver engines (chapters 09, 10) -/

/-- A plan kept in scratch (R251): the states x_0 to x_N (positions, then speeds), and of each stage the input, the torques, the slacks
and the duals. CE has one stage, whose input is its eight scalings and then its shares. -/
structure Kept where
  x : List (List Rat) := []
  u : List (List Rat) := []
  tau : List (List Rat) := []
  s : List (List Rat) := []
  lam : List (List Rat) := []
  deriving DecidableEq, Repr

/-- What a profile generator publishes with a sample for the engines (R229): the plan in force and the queued segments' plans in their
order, the profile time (2^-15 ns) at the sample's boundary, the ns from that boundary to profile time 0 of a plan that starts later,
whether the motion runs in real time, and the position (Q48.16) at which it rests without a plan. -/
structure GenView where
  plans : List Plan := []
  theta : Nat := 0
  lag : Nat := 0
  real : Bool := false
  rest : Int := 0
  deriving DecidableEq, Repr

/-- One joint's live inputs as the publication bank held for the engines has them (R226, R228): the linear position, the
speed (Q40.24), the tick of the sample, whether the channel is LOST, and its profile generator's part. -/
structure LiveIn where
  lin : Int := 0
  vel : Int := 0
  tick : Nat := 0
  lost : Bool := true
  gen : GenView := {}
  deriving DecidableEq, Repr

/-- One solver engine: its live inputs, the kept plan with the descriptor of the solve that delivered it, the shifted previous solution
with its output blocks as prepared (R252), the descriptor of the last solve, whether a solved outcome was delivered, stands by and is in force since the last enable, the solve in
progress (its initial state, its marks, its target cycle with the tick it starts at), the runs of R266, the held stop request and whether a further
one may be posted (R267), the force generation (R258), and the solver image with its identifier. -/
structure Engine where
  live : List LiveIn := []
  kept : Option Kept := none
  prep : Kept := {}
  blocks : List (List Word) := []
  keptDesc : Option (List Word) := none
  last : Option (List Word) := none
  solvedOnce : Bool := false
  solvedStandby : Bool := false
  solvedInForce : Bool := false
  running : Bool := false
  start : Nat := 0
  x0 : List Rat := []
  cold : Bool := false
  granted : Bool := false
  lostInput : Bool := false
  target : Nat := 0
  targetTick : Nat := 0
  infRun : Nat := 0
  fbRun : Nat := 0
  stopReq : Bool := false
  stopArmed : Bool := true
  stopSolved : Bool := false
  force : Nat := 0
  paramCheck : Bool := true
  imageId : Nat := 0
  image : Option SvImage := none
  deriving DecidableEq, Repr

/-- The solver fabric. -/
structure Solvers where
  eng : Tab Engine := []
  deriving DecidableEq, Repr

/-! ### Separation and Belvedere (chapter 11) -/

/-- One scanner: the measurement number last seen with the arrival stamp of the frame that first carried it (R275), what the
slot's held buffer gave for the period, its partner's state and the age at the boundary, and the cause of BLIND in the last
period (0 for none). -/
structure Scan where
  seen : Bool := false
  seq : Nat := 0
  stamp : Nat := 0
  buf : List Byte := []
  active : Bool := false
  ageNs : Nat := 0
  cause : Nat := 0
  deriving DecidableEq, Repr

/-- What the distance engine hands to Belvedere for one arm (R289): its STOP for a margin or the table, the nominated obstacles
with d and s_p (Q8.24), the largest nominated margin and the smallest margin. -/
structure Nomin where
  arm : Nat
  stop : Bool
  nom : List (Nat × Int × Int)
  mnom : Int
  least : Int
  deriving DecidableEq, Repr

/-- The separation function: scanners and payload words held for the period, the arms, ranges, zones and pairs of the last
period (for transitions), the period in progress with its stages, the handover, the distances that faulty lanes return in it, the joints whose raw word differs
(R290), Belvedere's stages, its margins (µm), the
delays that run to an assertion (R291), the period and event of the last failure of each arm, and the SS1 it watches (R293). -/
structure Separation where
  scan : Tab Scan := []
  payload : Tab Word := []
  stopArms : Nat := 0
  rangeArms : Nat := 0
  zones : Nat := 0
  rrClose : Bool := false
  active : Bool := false
  period : Nat := 0
  start : Nat := 0
  protDone : Bool := false
  rowsDone : Bool := false
  geomFail : Bool := false
  given : List Nomin := []
  givenTick : Option Nat := none
  faults : List LaneFault := []
  raw : List (Nat × Nat × Nat) := []
  bvPosed : Bool := false
  bvDone : Bool := false
  bvMissed : Bool := false
  lastCheck : Nat := 0
  bvMargin : Tab Word := []
  delay : Tab (Option Nat) := []
  lastBad : Tab Nat := []
  lastCode : Tab Nat := []
  globalDelay : Bool := false
  ss1 : Tab (Option Nat) := []
  deriving DecidableEq, Repr

/-! ### Task scheduler (chapter 12) -/

/-- One task's job state (R300): the waiting or running job by its release tag, the tag its deadline counts from (its
chain's head), the tick it became ready, the dispatch tick, whether its miss was reported, the held release with its head, the tag of the last
release, a DEMAND request that waits for its gap, the due time of its delay-list entry in ns of the time base, and the
last cycle that released it. -/
structure Task where
  ready : Option Nat := none
  head : Nat := 0
  since : Nat := 0
  running : Bool := false
  start : Nat := 0
  missed : Bool := false
  held : Option (Nat × Nat) := none
  lastRel : Option Nat := none
  request : Bool := false
  listDue : Option Nat := none
  lastCycle : Option Nat := none
  deriving DecidableEq, Repr

/-- The task scheduler: task states, whether it releases, the jobs admitted by the rounds of the earliest-deadline stage
(R303), the last scheduler tick, in µs, the time-base ticks of the last eight scheduler ticks (R216), and the scheduler ticks of the last 1,024 in which
each unit executed a job (LOAD). -/
structure Sched where
  task : Tab Task := []
  active : Bool := false
  admitted : List Nat := []
  us : Nat := 0
  samples : List Nat := []
  busy : Tab (List Nat) := []
  deriving DecidableEq, Repr

/-! ### Move engines (chapter 13) -/

/-- What a WAIT instruction waits for (R321). -/
inductive MeWait where
  | slot (index num : Nat)
  | tiller (index num : Nat)
  | time (tick : Nat)
  | boundary (solver : Bool)
  | flag (ch : Nat)
  deriving DecidableEq, Repr

/-- One channel beside its registers: units done of the MOVE in progress (elements, or in PACK and UNPACK values of k) with the
stream and element it goes on with and the elements left, the MOVE that a running Tiller holds (the Tiller, the mode and the MOVE, R161),
loop counters by word address, the WAIT and the barrier it is held
at, its flag, the open START, the pass with the FBIN words it wrote. -/
structure MeChan where
  cursor : Nat := 0
  strm : Nat := 0
  elem : Nat := 0
  remain : Nat := 0
  heldMove : Option (Nat × Nat × MoveOp) := none
  loops : Tab Nat := []
  wait : Option MeWait := none
  barrier : Bool := false
  flag : Bool := false
  start : Option DescId := none
  inPass : Bool := false
  passCycle : Nat := 0
  passStart : Nat := 0
  fbins : List Nat := []
  deriving DecidableEq, Repr

/-- The move engines, and the bytes of the FBIN words (R324). -/
structure MoveEngines where
  chan : Tab MeChan := []
  fbin : Tab (List Byte) := []
  deriving DecidableEq, Repr

/-! ### Host interface and the Granary (chapter 14) -/

/-- A fetched descriptor that has not completed (R342): its submission ring and index, D0 to D15, and whether its action
has started. -/
structure Desc where
  ring : Nat
  index : Nat
  words : List Word
  started : Bool := false
  deriving DecidableEq, Repr

/-- A completion entry before its index, head and phase are filled in (R342). -/
structure Entry where
  tag : Word
  sq : Nat
  index : Nat
  reason : Nat
  opcode : Nat
  detail : Nat
  resultA : Word
  resultB : Word
  ns : Nat
  sec : Nat
  irq : Bool
  deriving DecidableEq, Repr

/-- One completion ring beside its registers: whether it was ever enabled, the consumed index, the entries held for it
(R341), and the entries counted toward its message with the tick of the first (R349). -/
structure CRing where
  everEn : Bool := false
  consumed : Nat := 0
  held : List Entry := []
  counted : Nat := 0
  first : Option Nat := none
  deriving DecidableEq, Repr

/-- A long operation in progress (R355): its descriptor, opcode, state, update number, units, partial results and W7. -/
structure LongOp where
  desc : DescId
  opcode : Nat
  state : Nat
  update : Nat := 0
  progress : Nat := 0
  total : Nat := 0
  partials : Nat := 0
  w7 : Word := 0
  deriving DecidableEq, Repr

/-- A commit accepted and not yet swapped (R17, R352): its descriptor, the regions named, the tick of its acceptance, and
whether the cell was ENABLED then. -/
structure CommitReq where
  desc : Option DescId
  regions : List Nat
  tick : Nat
  enabled : Bool
  offTick : Option Nat := none
  twinCycle : Option Nat := none
  deriving DecidableEq, Repr

/-- Words of a PARAM_WRITE held until a copy ends (R353). -/
structure HeldWrite where
  desc : DescId
  addr : Nat
  words : List Word
  deriving DecidableEq, Repr

/-- The Granary's two banks (the front bank holds what is in force or frozen, the back bank what is being prepared), the
commits waiting, the copies running with their end ticks, and the words held behind them. -/
structure Granary where
  front : Tab Word := []
  back : Tab Word := []
  commits : List CommitReq := []
  copies : List (Nat × Nat) := []
  heldWrites : List HeldWrite := []
  deriving DecidableEq, Repr

/-- The host interface: doorbell words of BAR2, doorbells in their order of arrival with their tick, their ring and the tail each made visible,
fetched descriptors in fetch order, completion rings, MSI-X, long operations, the image directory, every byte the
device has written to host memory, the tick and the result of the check in progress, and the tick of a disable. -/
structure HostIf where
  bell : Tab Word := []
  tails : Tab Nat := []
  bells : List (Nat × Nat × Nat) := []
  descs : List Desc := []
  cring : Tab CRing := []
  msixTab : Tab Word := []
  msixWritten : Tab Bool := []
  msixPend : Nat := 0
  funcMask : Bool := false
  longs : List LongOp := []
  images : Tab (Option Image) := []
  mem : Tab Byte := []
  checkTick : Nat := 0
  verdict : Option (Nat × Nat) := none
  disableTick : Nat := 0
  deriving DecidableEq, Repr

/-! ### Twin operation (chapter 15) -/

/-- One mirror record (R369): its kind, the effect cycle, and its 24 bytes of content. -/
structure Mirror where
  kind : Nat
  cycle : Nat
  content : List Byte
  deriving DecidableEq, Repr

/-- A handover in progress (R374): the successor epoch, the cycle at which the lease passes, whether the standby has
confirmed it, whether this device gives the lease, and the descriptor that asked for it. -/
structure Handover where
  epoch : Nat
  cycle : Nat
  confirmed : Bool
  giver : Bool
  desc : Option DescId
  deriving DecidableEq, Repr

/-- The digests of one cycle (R379): D_cmd for the eight arm groups and D_state. -/
structure Digest where
  cycle : Nat
  cmd : List Word
  st : Word
  deriving DecidableEq, Repr

/-- The copy of a twin message that was taken: its port, its bytes, and whether its second copy has come. -/
structure TwCopy where
  port : Nat
  bytes : List Byte
  second : Bool
  deriving DecidableEq, Repr

/-- The twin logic beside its registers: the cycle of the renewal token and of the last LEASE and ACK sent, the tick of the
last STATUS sent, the holder's last renewal; the renewal paths and the ECHO frames of this cycle with the runs of missing ones;
the cycle of the last message or frame of the twin (or of the entry to CLAIMING), the tick of its last STATUS with what it said,
and the cycles of the last LEASE and ACK taken; digests of the last completed cycle; the handover, the cycle of the last renewal
of a holder that has given up the lease, the boundary of a takeover after RELEASE, whether the lease was reported lost; the
state transfer; the event that must be acknowledged before REPAIR; SYNC exchanges; since when the twin is STANDBY; mirror
records; a forwarded escalation (R382); the open TW_CMD descriptors of ALIGN and of a SWITCH_BACK asked for by A; and the last message
taken of each KIND with the number of second copies (R369). -/
structure Twin where
  tokenCycle : Option Nat := none
  leaseSent : Option Nat := none
  ackSent : Option Nat := none
  statusSent : Option Nat := none
  lastRenew : Nat := 0
  renewed : Nat := 0
  echoGot : Nat := 0
  echoMiss : Tab Nat := []
  lastMsg : Option Nat := none
  lastStatus : Option Nat := none
  leaseSeen : Option Nat := none
  ackSeen : Option Nat := none
  peerStored : Nat := 0
  peerEnabled : Bool := false
  peerEpSec : Nat := 0
  peerEpNs : Nat := 0
  peerCycleNs : Nat := 0
  own : Option Digest := none
  peer : Option Digest := none
  missRun : Nat := 0
  handover : Option Handover := none
  released : Option Nat := none
  takeAt : Option Nat := none
  lost : Bool := false
  transferAt : Nat := 0
  capture : Option Nat := none
  segs : List Nat := []
  segCount : Nat := 0
  loaded : Option Nat := none
  causeCode : Nat := 0
  causeInst : Nat := 0xFFFF
  syncSent : List Nat := []
  syncDelay : List Int := []
  syncOffset : List Int := []
  peerStandbyAt : Option Nat := none
  mirrorOut : List Mirror := []
  mirrorIn : List Mirror := []
  fwdReact : Nat := 0
  fwdMask : Nat := 0
  alignDesc : Option DescId := none
  backDesc : Option DescId := none
  rxLast : Tab (Option TwCopy) := []
  copies : Nat := 0
  deriving DecidableEq, Repr

/-! ### Event recorder, Orangery and fault injection (chapter 16) -/

/-- A record with the sequence number the record store gave it (R391). -/
structure Stored where
  seq : Nat
  evt : EvRec
  deriving DecidableEq, Repr

/-- One open entry of the acknowledgement table (R398). -/
structure AckEntry where
  code : Nat
  inst : Nat
  count : Nat
  tick : Nat
  deriving DecidableEq, Repr

/-- The event input with the records left in its present round (R36), the record store's RAM and hold buffer, the next sequence number, the acknowledgement table, the tick at
which the host's freeze began, the event interrupt, and the drops since the last EV_LOST (input, full, hold, fatal). -/
structure Recorder where
  round : Nat := 0
  input : List EvRec := []
  ram : List Stored := []
  hold : List EvRec := []
  nextSeq : Nat := 0
  acks : List AckEntry := []
  freezeAt : Nat := 0
  lastIrq : Option Nat := none
  irqPending : Bool := false
  lostInput : Nat := 0
  lostFull : Nat := 0
  lostHold : Nat := 0
  lostFatal : Nat := 0
  deriving DecidableEq, Repr

/-- One sample of the pre-trigger image (R404): cycle number, signal count and one word for each signal. -/
structure PtSample where
  cycle : Nat
  words : List Word
  deriving DecidableEq, Repr

/-- One history slot of the Orangery (R403): its records and whether a commit sealed it, with the order of sealing. -/
structure HistSlot where
  recs : List EvRec := []
  sealedNo : Nat := 0
  deriving DecidableEq, Repr

/-- An Orangery commit that waits for its fatal record (R405, R406): the tick and time of the escalation's detector, the masks
and global bit of the escalations it joins, and the fatal records accepted since that wait for its write phase. -/
structure BbCommit where
  tick : Nat
  ns : Nat
  sec : Nat
  mask : Nat
  glob : Bool
  recs : List EvRec := []
  deriving DecidableEq, Repr

/-- The Orangery (R401 to R408): persistent words, fault log, history slots, their order of sealing and the mirror slot, the frozen
mark and last cycle of the pre-trigger ring, its staging queue and ring, the two power-loss snapshots with their order, whether a new one is to be reported, whether a commit or snapshot
was cut short, the commit in progress, writes for the wear of its cells, and the responder's last reply. -/
structure Orangery where
  storedEpoch : Nat := 0
  boots : Nat := 0
  tempMs : Nat := 0
  faultLog : List EvRec := []
  slots : Tab HistSlot := []
  sealNo : Nat := 0
  mirror : Nat := 0
  ptFrozen : Bool := false
  ptCycle : Nat := 0
  staging : List PtSample := []
  ring : List PtSample := []
  snapA : Option (Nat × List Word) := none
  snapB : Option (Nat × List Word) := none
  snapNo : Nat := 0
  snapNew : Bool := false
  snapDone : Bool := false
  cutShort : Bool := false
  commit : Option BbCommit := none
  writes : Nat := 0
  reply : List Byte := []
  deriving DecidableEq, Repr

/-- One armed injection (R411): index, mode, remaining count, instance, parameters, start time, and its firings. -/
structure Inj where
  armed : Bool := false
  index : Nat := 0
  mode : Nat := 0
  remain : Nat := 0
  inst : Nat := 0
  params : List Word := []
  atSec : Nat := 0
  atNs : Nat := 0
  timed : Bool := false
  fired : Nat := 0
  firedWin : Nat := 0
  lastInst : Nat := 0
  deriving DecidableEq, Repr

/-! ### Analogue inputs and safety I/O (chapter 17) -/

/-- One conversion in progress: its start tick, its entry, and whether it is an urgent one. -/
structure Conv where
  start : Nat
  entry : Nat
  urgent : Bool
  deriving DecidableEq, Repr

/-- The ADC sequencer (R416 to R423): the conversion in progress, the entry that the pass in progress converts next (or converts
now) and whether its start counts as a sequence start, the latched firing, the urgent request held, the runs of conversions
outside and within the limits of each entry, and the entries whose last code was injected. -/
structure Adc where
  conv : Option Conv := none
  pass : Option Nat := none
  fresh : Bool := false
  latched : Bool := false
  urgReq : Option Nat := none
  outRun : Tab Nat := []
  inRun : Tab Nat := []
  injMask : Nat := 0
  deriving DecidableEq, Repr

/-- The safety inputs and outputs, in the wedge-safe domain (R424 to R434): for each input since when its channels differ, whether
both have been 0 since its discrepancy latched and when the first returned to 1, and whether its demand was posted; the tick of an
SS1 e-stop; the last test of each pair; the levels at the input pins, the tick at which each channel was last accepted at a level, its
run of samples that an injection replaced, and the channels whose accepted level was injected (R424, R477); the tick of the last change
driven on each pair and its run of injected readback samples (R430); the run of boundaries without a heartbeat with the tick of the last boundary, the WDOG_OUT
pin; the fatal latch of R25 with its mask and global bit; the separation stop lines and Belvedere's latches by arm group. -/
structure Safety where
  diffAt : Tab (Option Nat) := []
  both0 : Tab Bool := []
  ret1 : Tab (Option Nat) := []
  posted : Tab Bool := []
  estopAt : Option Nat := none
  testAt : Tab Nat := []
  pins : Nat := 0
  accAt : Tab Nat := []
  filtRun : Tab Nat := []
  injAcc : Nat := 0
  driveAt : Tab Nat := []
  fbRun : Tab Nat := []
  missRun : Nat := 0
  lastEdge : Nat := 0
  wdogOut : Bool := false
  fatalLatched : Bool := false
  fatalMask : Nat := 0
  fatalGlob : Bool := false
  sepLine : Nat := 0
  bvLatch : Nat := 0
  deriving DecidableEq, Repr

/-! ### Power, reset and the Sundial (chapters 01, 18) -/

/-- Where start-up stands (R446, R448): the wedge-safe domain without supply, domains held in reset, time island locking, fuses
refused, the first Sundial window, memories being cleared, boot ROM at work, running. -/
inductive StartUp where
  | noPower | held | locking | fuseStop | window | clearing | booting | running
  deriving DecidableEq, Repr

/-- Power control: start-up, fuses, the firmware slots of the last boot, the management core and the responder (R455), the marks
of the temperature levels (R460) with the run of readings at the second, a TEMP reset's hold (R461), the Sundial's runs (R29, R33,
R34), the events and regions of the pace stop, the first that caused it in front, and the reference stop that R33 and R49 hold, the sources of a reset that waits for a commit, and the supply and
oscillator of the wedge-safe domain; the tick since when each island that is on is to be off (R454), the last start of the management
core's watchdog (R455), and the last fall of the hold-up voltage (R443). -/
structure Power where
  phase : StartUp := .held
  fuses : Option Fuses := none
  slot0 : FwSlot := { valid := false, version := 0 }
  slot1 : FwSlot := { valid := false, version := 0 }
  mgmtUp : Bool := false
  responder : Bool := false
  warn : Bool := false
  hot : Bool := false
  fatalHot : Bool := false
  hotRun : Nat := 0
  tempHold : Bool := false
  aboveRun : Nat := 0
  recoverRun : Nat := 0
  headRun : Nat := 0
  paceStop : List (Nat × Nat) := []
  refStop : Option Nat := none
  resetReq : Nat := 0
  vddnv : Bool := true
  nvOsc : Bool := true
  offAt : Tab (Option Nat) := []
  mgmtAt : Nat := 0
  lowAt : Option Nat := none
  deriving DecidableEq, Repr

/-- The arbiters (R35 to R39), by number: the requests that wait for the next round, and what the last round served, in the order of
service. -/
structure Arbiters where
  waiting : Tab (List ArbReq) := []
  served : Tab (List ArbReq) := []
  deriving DecidableEq, Repr

/-- What the present tick has seen of the registers: the registers as the tick found them (R8), and the W1C bits that the device has
set in it, by BAR0 offset and bit (R7). -/
structure TickView where
  regs : Regs := {}
  raised : List (Nat × Nat) := []
  deriving DecidableEq, Repr

/-! ### The whole machine -/

/-- The state of the GH-8640: the commands waiting, first in first out; every BAR0 register as it is live, and the
publication bank frozen at the last boundary (R20); the records posted and not yet taken by the event input; the
escalation wires asserted and not yet acted on; the units; the counter the free values are drawn from; the word that the
last read returned; high words captured by a read of their low word (R12); and low words of 64-bit registers staged
until their high word is written (R9); what the present tick has seen of the registers (R7, R8); and the words of
protected memories with wrong bits that no read has met yet, those of the Tillers apart (`flips`). `once` lists the events posted in this window of R85 that are posted once in each. -/
structure State where
  pending : List Instr := []
  regs : Regs := {}
  frozen : Regs := {}
  posted : List EvRec := []
  escs : List Esc := []
  tb : TimeBase := {}
  grid : Grid := {}
  once : List (Nat × Nat) := []
  cb : CellBus := {}
  fb : Feedback := {}
  tl : Tab Tiller := []
  grp : Tab Group := []
  mp : Motion := {}
  sv : Solvers := {}
  sep : Separation := {}
  sch : Sched := {}
  me : MoveEngines := {}
  hi : HostIf := {}
  gr : Granary := {}
  tw : Twin := {}
  ev : Recorder := {}
  bb : Orangery := {}
  inj : Tab Inj := []
  ad : Adc := {}
  sio : Safety := {}
  pw : Power := {}
  arb : Arbiters := {}
  free : Nat := 0
  readData : Word := 0
  hiLatch : Tab (Option Word) := []
  wrStage : Tab (Option Word) := []
  view : TickView := {}
  flips : List Hit := []
  deriving DecidableEq, Repr

/-- The machine right after reset: every register at the value its table gives (the tables' values are the defaults of
the register banks), every memory clear, every safe-torque-off pair asserted, no command waiting. -/
def State.reset : State := {}

end Sys2Proof.Machine
end

