-- ==== Sys2Proof/Machine/Ops.lean ====
section
/-! DEFINITION. The operations that meanings share: registers by field, time, events and escalations, injection, the
Granary, host memory and completions. -/
namespace Sys2Proof.Machine

/-- The outcome of every command. -/
abbrev Out := Host.Outcome State Fault Refusal

/-! ### Registers (R5, R6, R10) -/

/-- The bank of a block. -/
def Regs.bank (r : Regs) : Blk → Tab Word
  | .sys => r.sys | .tb => r.tb | .cb => r.cb | .fb => r.fb | .tl => r.tl | .mp => r.mp | .sv => r.sv
  | .sep => r.sep | .sch => r.sch | .me => r.me | .hi => r.hi | .tw => r.tw | .ev => r.ev | .bb => r.bb
  | .inj => r.inj | .ad => r.ad | .pw => r.pw

/-- The registers with the bank of one block replaced. -/
def Regs.setBank (r : Regs) (b : Blk) (t : Tab Word) : Regs :=
  match b with
  | .sys => { r with sys := t } | .tb => { r with tb := t } | .cb => { r with cb := t }
  | .fb => { r with fb := t } | .tl => { r with tl := t } | .mp => { r with mp := t }
  | .sv => { r with sv := t } | .sep => { r with sep := t } | .sch => { r with sch := t }
  | .me => { r with me := t } | .hi => { r with hi := t } | .tw => { r with tw := t }
  | .ev => { r with ev := t } | .bb => { r with bb := t } | .inj => { r with inj := t }
  | .ad => { r with ad := t } | .pw => { r with pw := t }

/-- The reset value of the register at an offset. -/
def resetWord : Blk → Nat → Word
  | .sys => R.sysReset | .tb => R.tbReset | .cb => R.cbReset | .fb => R.fbReset | .tl => R.tlReset
  | .mp => R.mpReset | .sv => R.svReset | .sep => R.sepReset | .sch => R.schReset | .me => R.meReset
  | .hi => R.hiReset | .tw => R.twReset | .ev => R.evReset | .bb => R.bbReset | .inj => R.injReset
  | .ad => R.adReset | .pw => R.pwReset

/-- The word of a register. -/
def Regs.word (r : Regs) (b : Blk) (off : Nat) : Word := Tab.get (resetWord b) (r.bank b) off

/-- The registers with one word replaced. -/
def Regs.setWord (r : Regs) (b : Blk) (off : Nat) (w : Word) : Regs :=
  r.setBank b (Tab.put (resetWord b) (r.bank b) off w)

/-- The value of a field of instance `n`. -/
def Regs.get (r : Regs) (f : Field) (n : Nat) : Nat := bitsOf (r.word f.blk (f.addr n)) f.hi f.lo

/-- The registers with a field of instance `n` set; an instance that does not exist takes nothing. -/
def Regs.set (r : Regs) (f : Field) (n v : Nat) : Regs :=
  if n < f.count then r.setWord f.blk (f.addr n) (withBits (r.word f.blk (f.addr n)) f.hi f.lo v) else r

/-- The value of a field as the device holds it now. -/
def State.get (s : State) (f : Field) (n : Nat := 0) : Nat := s.regs.get f n

/-- A one-bit field as a truth value. -/
def State.bit (s : State) (f : Field) (n : Nat := 0) : Bool := decide (s.get f n = 1)

/-- A field read as two's complement. -/
def State.geti (s : State) (f : Field) (n : Nat := 0) : Int :=
  let v : Int := s.get f n
  if v < 2 ^ (f.width - 1) then v else v - 2 ^ f.width

/-- Set a field. -/
def State.set (s : State) (f : Field) (n v : Nat) : State := { s with regs := s.regs.set f n v }

/-- Set a one-bit field. -/
def State.setBit (s : State) (f : Field) (n : Nat) (b : Bool) : State := s.set f n (if b then 1 else 0)

/-- The device sets a W1C bit; a host write of this tick does not clear it (R7). -/
def State.raiseBit (s : State) (f : Field) (n : Nat) : State :=
  let s := s.setBit f n true
  { s with view := { s.view with raised := (f.addr n, f.lo) :: s.view.raised } }

/-- Set a field to an integer, modulo its width. -/
def State.seti (s : State) (f : Field) (n : Nat) (v : Int) : State := s.set f n (v % 2 ^ f.width).toNat

/-- Add to a counter, which saturates at its all-ones value (R10). -/
def State.add (s : State) (f : Field) (n k : Nat) : State := s.set f n (min (s.get f n + k) f.top)

/-- Add one to a counter. -/
def State.inc (s : State) (f : Field) (n : Nat := 0) : State := s.add f n 1

/-- Raise a field to a value it must hold at least (the longest, the highest). -/
def State.raiseTo (s : State) (f : Field) (n v : Nat) : State := s.set f n (min (max (s.get f n) v) f.top)

/-- A 64-bit quantity in two registers, low word first (R12). -/
def State.get64 (s : State) (lo hi : Field) (n : Nat := 0) : Nat := s.get hi n * 2 ^ 32 + s.get lo n

/-- The same as two's complement of `w` bits. -/
def State.get64i (s : State) (lo hi : Field) (w n : Nat) : Int :=
  let v : Int := s.get64 lo hi n
  if v < 2 ^ (w - 1) then v else v - 2 ^ w

/-- Set a quantity in two registers. -/
def State.set64 (s : State) (lo hi : Field) (n : Nat) (v : Int) : State :=
  (s.seti lo n (v % 2 ^ 32)).seti hi n (v / 2 ^ 32)

/-! ### Integers -/

/-- Two's complement of `w` bits. -/
def signed (w v : Nat) : Int := if v % 2 ^ w < 2 ^ (w - 1) then (v % 2 ^ w : Nat) else (v % 2 ^ w : Nat) - (2 : Int) ^ w

/-- The bound an integer saturates to in `w` bits of two's complement. -/
def clampInt (w : Nat) (v : Int) : Int := max (-(2 : Int) ^ (w - 1)) (min v ((2 : Int) ^ (w - 1) - 1))

/-- Division rounded half up, toward +∞ on a tie. -/
def roundDiv (a : Int) (d : Nat) : Int := (2 * a + d) / (2 * d)

/-- Whether bit `i` of a number is set. -/
def hasBit (m i : Nat) : Bool := m.testBit i

/-- A number with bit `i` set. -/
def orBit (m i : Nat) : Nat := m ||| 2 ^ i

/-- A number with bit `i` clear. -/
def clrBit (m i : Nat) : Nat := if m.testBit i then m - 2 ^ i else m

/-- The numbers below `n` whose bits are set in a mask. -/
def maskList (n m : Nat) : List Nat := (List.range n).filter fun i => m.testBit i

/-- The mask of a list of bits. -/
def maskOf (l : List Nat) : Nat := l.foldl orBit 0

/-! ### Ordered lists -/

/-- Put an element in its place of an ordered list, in front of those of its own place. -/
def insertBy {α : Type} (le : α → α → Bool) (x : α) : List α → List α
  | [] => [x]
  | y :: t => if le x y then x :: y :: t else y :: insertBy le x t

/-- A list in order; elements of one place keep theirs. -/
def orderBy {α : Type} (le : α → α → Bool) (l : List α) : List α := l.foldr (insertBy le) []

/-! ### The bytes of words (R5) -/

/-- The four bytes of a word, least significant first. -/
def wordBytes (w : Word) : List Byte := (List.range 4).map fun i => BitVec.ofNat 8 (w.toNat / 2 ^ (8 * i))

/-- A number of `n` bytes in network byte order. -/
def beBytes (n v : Nat) : List Byte := (List.range n).map fun i => BitVec.ofNat 8 (v / 2 ^ (8 * (n - 1 - i)))

/-- The number that bytes in network byte order spell. -/
def beNat (l : List Byte) : Nat := l.foldl (fun a b => a * 256 + b.toNat) 0

/-- The number that bytes spell, least significant first. -/
def leNat (l : List Byte) : Nat := l.foldr (fun b a => b.toNat + 256 * a) 0

/-- `n` bytes of a list from position `i`, in network byte order. -/
def beField (l : List Byte) (i n : Nat) : Nat := beNat ((l.drop i).take n)

/-- One step of the reflected CRC-32C for one bit (R82). -/
def crcBit (c : Nat) : Nat := if c % 2 = 1 then (c / 2) ^^^ 0x82F63B78 else c / 2

/-- One step of the reflected CRC-32C for one byte (R82). -/
def crcByte (c : Nat) (b : Byte) : Nat :=
  crcBit (crcBit (crcBit (crcBit (crcBit (crcBit (crcBit (crcBit (c ^^^ b.toNat))))))))

/-- CRC-32C of a list of bytes (R82). -/
def crc32c (l : List Byte) : Word := BitVec.ofNat 32 (l.foldl crcByte 0xFFFFFFFF ^^^ 0xFFFFFFFF)

/-! ### Time and the cell -/

/-- The time-base ticks since the time island left reset. -/
def State.tick (s : State) : Nat := s.tb.tick

/-- The nanoseconds of the time base. -/
def State.ns (s : State) : Nat := s.tb.a.ns

/-- The seconds of the time base. -/
def State.sec (s : State) : Nat := s.tb.a.sec

/-- A time value as a count of nanoseconds. -/
def nsOf (sec ns : Nat) : Nat := sec * 1000000000 + ns

/-- The time base as a count of nanoseconds. -/
def State.now (s : State) : Nat := nsOf s.sec s.ns

/-- SYS.CELL_STATUS.STATE: 0 DISABLED, 1 CHECKING, 2 ENABLED, 3 DISABLING. -/
def State.cell (s : State) : Nat := s.get R.SYS_CELL_STATUS_STATE

/-- The cell is ENABLED. -/
def State.enabled (s : State) : Bool := decide (s.cell = 2)

/-- RWL fields are refused (R9). -/
def State.locked (s : State) : Bool := decide (s.cell ≠ 0)

/-- Maintenance mode. -/
def State.maint (s : State) : Bool := s.bit R.SYS_CELL_CTRL_MAINT

/-- The number of the cycle in progress; 0 when none is. -/
def State.cycle (s : State) : Nat := s.grid.cyc.getD 0

/-- The cycle that a 32-bit number of a frame names: frames count cycles modulo 2^32 (R81), and the nearest one is meant. -/
def State.cycleOf (s : State) (w : Nat) : Nat :=
  let d := (w + (2 ^ 32 - s.cycle % 2 ^ 32)) % 2 ^ 32
  if d < 2 ^ 31 ∨ s.cycle + d < 2 ^ 32 then s.cycle + d else s.cycle + d - 2 ^ 32

/-- Time-base ticks since the start of the cycle in progress. -/
def State.intoCycle (s : State) : Nat := s.tick - s.grid.start

/-- The solver period in bus cycles (R308); a field of 0 counts as 1. -/
def State.solverCyc (s : State) : Nat := max 1 (s.get R.SCH_CFG_SOLVER_CYC)

/-- Cycle `n` opens a solver period. -/
def State.isSolverCycle (s : State) (n : Nat) : Bool := decide (n % s.solverCyc = 0)

/-- The arm groups in use, as a mask. -/
def State.groupsInUse (s : State) : Nat := maskOf ((List.range 8).filter fun g => s.bit R.SYS_AG_CFG_EN g)

/-- The Tillers of arm group `g`. -/
def State.groupTillers (s : State) (g : Nat) : List Nat :=
  if s.bit R.SYS_AG_CFG_EN g then
    (List.range (s.get R.SYS_AG_CFG_COUNT g)).map fun i => s.get R.SYS_AG_CFG_FIRST_TL g + i
  else []

/-- The arm group in use that Tiller `n` belongs to. -/
def State.groupOf (s : State) (n : Nat) : Option Nat := (List.range 8).find? fun g => (s.groupTillers g).contains n

/-- The mask of the arm group of Tiller `n`. -/
def State.groupMaskOf (s : State) (n : Nat) : Nat := ((s.groupOf n).map fun g => 2 ^ g).getD 0

/-- Capture the word of a register for a later read of it (R12, R71). -/
def State.latch (s : State) (off : Nat) (w : Word) : State := { s with hiLatch := Tab.put (fun _ => none) s.hiLatch off (some w) }

/-- Return a word to a read. -/
def State.reply (s : State) (w : Word) : State := { s with readData := w }

/-! ### Events and escalations (R21 to R25, R387, R388) -/

/-- The plane that posts an event: the wedge-safe domain for Belvedere, the safety I/O and the power monitors, the
control plane for SYS, HI and the Granary, management for the recorder, the Orangery, injection, the Sundial and the
firmware, the data plane for the rest. -/
def planeOf (code : Nat) : Plane :=
  if code ∈ [Ev.sepBvDisagree, Ev.sepBvMissed, Ev.sepBvSs1, Ev.bvEccCorr, Ev.bvEccUncorr] then .wedgeSafe
  else
    match code / 4096 with
    | 0x0 | 0xE => .control
    | 0xB | 0xF => .management
    | 0xC => .wedgeSafe
    | 0xD => if code < 0xD010 then .management else .wedgeSafe
    | _ => .data

/-- The payload of a record: P0 with the instance and the items, nothing for an event with neither (R388). -/
def payload (inst : Option Nat) (items : List Word) : List Word :=
  match inst, items with
  | none, [] => []
  | i, l => BitVec.ofNat 32 (i.getD 0xFFFF) :: l

/-- Post a record at this tick: it waits for the event input. -/
def State.post (s : State) (code : Nat) (sev : Sev) (inst : Option Nat := none) (items : List Word := [])
    (esc : Bool := false) (injected : Bool := false) : State :=
  { s with posted := s.posted ++ [{ code, sev, plane := planeOf code, injected, esc, ns := s.ns, sec := s.sec,
                                    tick := s.tick, inst := inst.getD 0xFFFF, body := payload inst items }] }

/-- Post a record that is posted once in each window of R85 and then only counted. -/
def State.postOnce (s : State) (code : Nat) (sev : Sev) (inst : Option Nat := none) (items : List Word := [])
    (esc : Bool := false) (injected : Bool := false) : State :=
  if s.once.contains (code, inst.getD 0xFFFF) then s
  else
    let s := s.post code sev inst items esc injected
    { s with once := s.once ++ [(code, inst.getD 0xFFFF)] }

/-- A word of a record. -/
abbrev item (n : Nat) : Word := BitVec.ofNat 32 n

/-- The two words of a 64-bit item, low word first (R388). -/
def item64 (v : Int) : List Word := [BitVec.ofInt 32 v, BitVec.ofInt 32 (v / 2 ^ 32)]

/-- The three words of a time value (R388). -/
def itemTime (sec ns : Nat) : List Word := [item ns, item sec, item (sec / 2 ^ 32)]

/-- Post SYS_WRITE_IGNORED with the BAR0 offset of the write (R9). -/
def State.ignored (s : State) (off : Nat) : State := s.post Ev.sysWriteIgnored .notice none [item off]

/-- Assert a fault escalation (R23, R24). -/
def State.fault (s : State) (mask : Nat) (react : React) (code : Nat) (inst : Option Nat := none)
    (cause : Nat := 0x0B) : State :=
  { s with escs := s.escs ++ [{ fatal := false, mask := BitVec.ofNat 8 mask, glob := false, react, cause, code,
                                inst := inst.getD 0xFFFF, tick := s.tick }] }

/-- Assert a fatal escalation (R25). -/
def State.fatal (s : State) (mask : Nat) (glob : Bool) (code : Nat) (inst : Option Nat := none)
    (cause : Nat := 0x0B) : State :=
  { s with escs := s.escs ++ [{ fatal := true, mask := BitVec.ofNat 8 mask, glob, react := .sto, cause, code,
                                inst := inst.getD 0xFFFF, tick := s.tick }] }

/-- The event of a key has been acknowledged: its entry is not open and the table has not overflowed (R398). A record
that has not reached the event input yet counts as unacknowledged. -/
def State.acked (s : State) (code inst : Nat) : Bool :=
  !s.bit R.EV_STAT_OPEN_OVF && !(s.ev.acks.any fun e => e.code == code && e.inst == inst)
    && !(s.posted.any fun e => e.code == code && e.inst == inst)

/-! ### Injection (R411 to R413) -/

/-- Whether an injection in a slot is active: maintenance mode, a loaded key, an armed slot, its time reached. -/
def State.injActive (s : State) (j : Inj) : Bool :=
  s.maint && s.bit R.INJ_STAT_KEY_LOADED && j.armed && (!j.timed || decide (nsOf j.atSec j.atNs ≤ s.now))

/-- A firing of the injection in slot `k` on instance `inst`: the first posts INJ_FIRED, later ones are counted for the
window; ONCE and the last firing of COUNTED disarm. -/
def State.injFire (s : State) (k : Nat) (j : Inj) (inst : Nat) : State :=
  let last := j.mode = 0 ∨ (j.mode = 2 ∧ j.remain ≤ 1)
  let remain := if j.mode = 2 then j.remain - 1 else if j.mode = 0 then 0 else j.remain
  let first := j.fired = 0
  let j' : Inj := { j with fired := j.fired + 1, remain := remain, armed := !decide last, lastInst := inst,
                           firedWin := if first then j.firedWin else j.firedWin + 1 }
  let s := { s with inj := Tab.put (fun _ => {}) s.inj k j' }
  let s := (s.inc R.INJ_FIRED_FIRED k).set R.INJ_ENTRY_REMAIN k remain
  let s := s.setBit R.INJ_ENTRY_ARMED k (!decide last)
  let s := if decide last then s.set R.INJ_STAT_ARMED 0 (s.get R.INJ_STAT_ARMED - 1) else s
  let s := if s.get R.INJ_STAT_ARMED = 0 then s.setBit R.INJ_STAT_ACTIVE 0 false else s
  let s := if first then s.post Ev.injFired .notice (some inst) [item j.index, item remain] else s
  if j.mode = 2 ∧ j.remain ≤ 1 then s.post Ev.injArmed .notice none [item j.index, item j.mode, item 0] else s

/-- The evaluation of the detector with injection index `idx` on instance `inst`: the parameters of an injection that
acts on it, with the state after its firing. -/
def State.inject (s : State) (idx inst : Nat) : Option (List Word) × State :=
  match (List.range 16).find? fun k =>
      let j := Tab.get (fun _ => ({} : Inj)) s.inj k
      s.injActive j && j.index == idx && (j.inst == 0xFFFF || j.inst == inst) with
  | none => (none, s)
  | some k =>
    let j := Tab.get (fun _ => ({} : Inj)) s.inj k
    (some j.params, s.injFire k j inst)

/-- One evaluation of a detector whose injection supplies no values (R412): `f` runs with INJECTED set under an active
injection, without it when the condition holds, and not at all otherwise. -/
def State.detect (s : State) (idx inst : Nat) (cond : Bool) (f : Bool → State → State) : State :=
  match s.inject idx inst with
  | (some _, t) => f true t
  | (none, t) => if cond then f false t else t

/-- The instance of a detector that has none (R388). -/
abbrev noInst : Nat := 0xFFFF

/-- The value of parameter `i` of an injection. -/
def param (ps : List Word) (i : Nat) : Nat := (ps.getD i 0).toNat

/-! ### Free values -/

/-- Advance the counter that free values are drawn from. -/
def State.draw (s : State) : State := { s with free := s.free + 1 }

/-! ### The Granary (R17 to R20, R350) -/

/-- The words of the Granary. -/
def granaryWords : Nat := 1572864

/-- A word of the bank in force: active parameters, frozen publication, solver outputs in force. -/
def State.gr1 (s : State) (w : Nat) : Word := Tab.get (fun _ => 0) s.gr.front w

/-- A word of the bank being prepared: shadow parameters, active publication, standby solver outputs. -/
def State.gr2 (s : State) (w : Nat) : Word := Tab.get (fun _ => 0) s.gr.back w

/-- Write a word of the bank being prepared. -/
def State.grPut (s : State) (w : Nat) (v : Word) : State :=
  { s with gr := { s.gr with back := Tab.put (fun _ => 0) s.gr.back w v } }

/-- Write consecutive words of the bank being prepared. -/
def State.grPutList (s : State) (w : Nat) (l : List Word) : State :=
  { s with gr := { s.gr with back := Tab.putList (fun _ => 0) s.gr.back w l } }

/-- Word `w` lies in region `i`. -/
def State.inRegion (s : State) (i w : Nat) : Bool :=
  decide (s.get R.HI_GR_A_KIND i ≠ 0) && decide (s.get R.HI_GR_A_BASE i ≤ w)
    && decide (w < s.get R.HI_GR_A_BASE i + s.get R.HI_GR_B_LENGTH i)

/-- The region that word `w` lies in. -/
def State.regionOf (s : State) (w : Nat) : Option Nat := (List.range 256).find? fun i => s.inRegion i w

/-- The kind of the region that word `w` lies in, 0 for none. -/
def State.kindOf (s : State) (w : Nat) : Nat := ((s.regionOf w).map fun i => s.get R.HI_GR_A_KIND i).getD 0

/-- The word a data-plane unit reads (R18, R226): of a publication region the bank being written, of any other the bank
in force. -/
def State.grRead (s : State) (w : Nat) : Word := if s.kindOf w = 3 then s.gr2 w else s.gr1 w

/-- The entries of a table that lie in region `i`. -/
def State.regionPart (s : State) (i : Nat) (t : Tab Word) : Tab Word := t.filter fun e => s.inRegion i e.1

/-- Swap region `i`: the bank being prepared comes into force; it starts from those values (R353, R478). -/
def State.swapRegion (s : State) (i : Nat) : State :=
  let kept := s.gr.front.filter fun e => !s.inRegion i e.1
  { s with gr := { s.gr with front := (s.regionPart i s.gr.back).foldl (fun t e => Tab.put (fun _ => 0) t e.1 e.2) kept } }

/-- Swap every region of a kind. -/
def State.swapKind (s : State) (kind : Nat) : State :=
  (List.range 256).foldl (fun s i => if s.get R.HI_GR_A_KIND i = kind then s.swapRegion i else s) s

/-! ### Host memory and completions (R341 to R349) -/

/-- Write bytes to host memory. -/
def State.hostPut (s : State) (addr : Nat) (l : List Byte) : State :=
  { s with hi := { s.hi with mem := Tab.putList (fun _ => 0) s.hi.mem addr l } }

/-- Write words to host memory, little-endian. -/
def State.hostPutWords (s : State) (addr : Nat) (l : List Word) : State := s.hostPut addr (l.flatMap wordBytes)

/-- The host address in two words of a descriptor, low word first (R344). -/
def Desc.addr (d : Desc) (i : Nat) : Nat := (d.words.getD i 0).toNat + (d.words.getD (i + 1) 0).toNat * 2 ^ 32

/-- Bits of a descriptor word. -/
def Desc.bits (d : Desc) (i hi lo : Nat) : Nat := bitsOf (d.words.getD i 0) hi lo

/-- A word of a descriptor as a number. -/
def Desc.word (d : Desc) (i : Nat) : Nat := (d.words.getD i 0).toNat

/-- The completion ring that a descriptor names. -/
def Desc.cq (d : Desc) : Nat := d.bits 0 20 16

/-- The key of a descriptor: its submission ring and TAG. -/
def Desc.key (d : Desc) : Nat × Nat := (d.ring, d.word 1)

/-- The key of a descriptor's name. -/
def dkey (d : DescId) : Nat × Nat := (d.ring.val, d.tag)

/-- The key of a descriptor's name, as the motion and bus units keep it. -/
def Desc.key3 (d : Desc) : Nat × Nat × Nat := (d.ring, d.word 1, d.index)

/-- A completion ring beside its registers. -/
def State.cring (s : State) (c : Nat) : CRing := Tab.get (fun _ => {}) s.hi.cring c

/-- Change a completion ring. -/
def State.updCring (s : State) (c : Nat) (f : CRing → CRing) : State :=
  { s with hi := { s.hi with cring := Tab.upd (fun _ => {}) s.hi.cring c f } }

/-- The eight words of a completion entry (R342). -/
def Entry.words (e : Entry) (head phase : Nat) : List Word :=
  [e.tag, item (e.sq + e.index * 2 ^ 5 + head * 2 ^ 17 + phase * 2 ^ 31),
   item (e.reason + e.opcode * 2 ^ 8 + e.detail % 65536 * 2 ^ 16), e.resultA, e.resultB,
   item e.ns, item e.sec, item (e.sec / 2 ^ 32)]

/-- TAIL of ring `c` would reach the consumed index: the ring takes no more entries (R341). -/
def State.cringFull (s : State) (c : Nat) : Bool :=
  decide ((s.get R.HI_CQ_STATUS_TAIL c + 1) % 2 ^ s.get R.HI_CQ_CFG_DEPTH_LOG2 c = (s.cring c).consumed)

/-- Write an entry at TAIL, advance TAIL, flip PHASE when it wraps, and count the entry toward the ring's message. -/
def State.writeEntry (s : State) (c : Nat) (e : Entry) : State :=
  let tail := s.get R.HI_CQ_STATUS_TAIL c
  let phase := s.get R.HI_CQ_STATUS_PHASE c
  let base := s.get R.HI_CQ_BASE_LO_ADDR c * 64 + s.get R.HI_CQ_BASE_HI c * 2 ^ 32
  let s := s.hostPutWords (base + 32 * tail) (e.words (s.get R.HI_SQ_STATUS_HEAD e.sq) phase)
  let next := (tail + 1) % 2 ^ s.get R.HI_CQ_CFG_DEPTH_LOG2 c
  let s := s.set R.HI_CQ_STATUS_TAIL c next
  let s := if next = 0 then s.set R.HI_CQ_STATUS_PHASE c (1 - phase) else s
  if e.irq then s.updCring c fun r => { r with counted := r.counted + 1, first := some (r.first.getD s.tick) } else s

/-- Give an entry to its ring: it is written, or held while the ring is disabled or full or holds earlier entries. -/
def State.giveEntry (s : State) (c : Nat) (e : Entry) : State :=
  if s.bit R.HI_CQ_CFG_EN c && !s.cringFull c && (s.cring c).held.isEmpty then s.writeEntry c e
  else
    let s := s.updCring c fun r => { r with held := r.held ++ [e] }
    if s.bit R.HI_CQ_CFG_EN c then s.inc R.HI_CQ_STATUS_FULL_STALLS c else s

/-- Write as many held entries of a ring as it has space for, at most `n`. -/
def State.drainRing : Nat → State → Nat → State
  | 0, s, _ => s
  | n + 1, s, c =>
    match (s.cring c).held with
    | [] => s
    | e :: t =>
      if s.bit R.HI_CQ_CFG_EN c && !s.cringFull c then
        State.drainRing n ((s.updCring c fun r => { r with held := t }).writeEntry c e) c
      else s

/-- The fetched descriptor of a name. -/
def State.desc? (s : State) (k : Nat × Nat) : Option Desc := s.hi.descs.find? fun d => d.key == k

/-- What an action gives to its completion entry. -/
structure Done where
  reason : Nat := 0
  detail : Nat := 0
  a : Word := 0
  b : Word := 0
  stamp : Option (Nat × Nat) := none
  deriving DecidableEq, Repr

/-- A host read for ring `q` returned an error: HI_DMA_ERR, and the ring is halted (R346). -/
def State.dmaError (s : State) (q : Nat) (injected : Bool) : State :=
  ((s.setBit R.HI_SQ_STATUS_HALTED q true).inc R.HI_STATUS_DMA_ERR).post Ev.hiDmaErr .fault (some q) [] false injected

/-- Complete a descriptor (R341 to R346): it leaves the list of open descriptors; its entry goes to its ring, or is not
written under SILENT, or is reported as HI_DESC_ERR when its ring was never enabled; 0xF2 halts its submission ring. An
action mirrored from the twin (ring 32) has no entry. -/
def State.completeDesc (s : State) (d : Desc) (r : Done) : State :=
  let s := { s with hi := { s.hi with descs := s.hi.descs.filter fun e => !(e.key == d.key && e.index == d.index) } }
  let s := if r.reason = 0xF2 ∧ d.ring < 32 then s.dmaError d.ring false else s
  if 32 ≤ d.ring then s
  else if hasBit (d.word 0) 11 && r.reason == 0 then s
  else if !(s.cring d.cq).everEn then
    (s.inc R.HI_STATUS_DESC_ERR).post Ev.hiDescErr .notice none [item d.ring, item d.index, item (d.word 1), item r.reason]
  else
    s.giveEntry d.cq
      { tag := d.words.getD 1 0, sq := d.ring, index := d.index, reason := r.reason, opcode := d.bits 0 7 0,
        detail := r.detail, resultA := r.a, resultB := r.b, ns := (r.stamp.getD (s.sec, s.ns)).2,
        sec := (r.stamp.getD (s.sec, s.ns)).1, irq := hasBit (d.word 0) 10 }

/-- Complete the descriptor of a key, if it is open. -/
def State.complete (s : State) (k : Nat × Nat) (r : Done) : State :=
  match s.desc? k with
  | some d => s.completeDesc d r
  | none => s

/-- Complete a descriptor that a unit keeps by ring, TAG and index. -/
def State.complete3 (s : State) (k : Option (Nat × Nat × Nat)) (r : Done) : State :=
  match k with
  | some (q, tag, _) => s.complete (q, tag) r
  | none => s

/-- Mark a descriptor's action as started. -/
def State.startDesc (s : State) (d : Desc) : State :=
  { s with hi := { s.hi with descs := s.hi.descs.map fun e =>
      if e.key == d.key && e.index == d.index then { e with started := true } else e } }

/-- The descriptors fetched before `d` and still open. -/
def State.before (s : State) (d : Desc) : List Desc :=
  s.hi.descs.takeWhile fun e => !(e.key == d.key && e.index == d.index)

/-- The fences of a descriptor are met (R346). -/
def State.fencesMet (s : State) (d : Desc) : Bool :=
  let earlier := s.before d
  (!hasBit (d.word 0) 8 || !(earlier.any fun e => e.ring == d.ring))
    && (!hasBit (d.word 0) 9 || !(earlier.any fun e => hasBit (d.word 2) e.ring))

/-- A device of a twin pair that does not hold the Sheaf lease (R366, R378). -/
def State.notHolder (s : State) : Bool := s.bit R.TW_CFG_EN && decide (s.get R.TW_STATE_STATE ≠ 2)

/-- The device is in recovery: neither firmware slot is valid (R451). -/
def State.recovery (s : State) : Bool := decide (s.get R.PW_BOOT_STAT_SLOT = 3)

/-- The management core is down: what needs it waits (R455). In recovery the boot ROM stands in for it. -/
def State.mgmtDown (s : State) : Bool := !s.pw.mgmtUp && !s.recovery

/-- A refusal of a descriptor by its own format or the cell state posts HI_DESC_ERR, once in a window (R345). -/
def State.descErr (s : State) (d : Desc) (reason : Nat) : State :=
  let s := s.inc R.HI_STATUS_DESC_ERR
  let s := s.postOnce Ev.hiDescErr .notice none [item d.ring, item d.index, item (d.word 1), item reason]
  s.completeDesc d { reason }

/-- The tests of R343 before the owning chapter's: 0xF4, then 0xF3, then 0xF6, then 0xF7. -/
structure Gate where
  maint : Bool := false
  state : Bool := false
  holder : Bool := false
  long : Bool := false
  deriving DecidableEq, Repr

/-- Run the action of the open descriptor `d` with opcode `op`, once its fences are met: the gate's refusals first, then
`k`. Nothing changes while the descriptor is not there, is of another opcode, has started, or waits on a fence. -/
def State.action (s : State) (d : DescId) (op : Nat) (g : State → Desc → Gate) (k : State → Desc → State) : State :=
  match s.desc? (dkey d) with
  | none => s
  | some e =>
    if e.bits 0 7 0 ≠ op ∨ e.started ∨ s.fencesMet e = false then s
    else
      let t := g s e
      if t.maint then s.completeDesc e { reason := 0xF4 }
      else if t.state || (s.recovery && !([0x00, 0x0B, 0x0C].contains op)) then s.descErr e 0xF3
      else if t.holder then s.completeDesc e { reason := 0xF6 }
      else if t.long then s.completeDesc e { reason := 0xF7 }
      else k (s.startDesc e) e

/-- The action of a descriptor whose D4 field `hi`:`lo` selects operation `v` of opcode `op`. -/
def State.opAction (s : State) (d : DescId) (op hi lo v : Nat) (g : State → Desc → Gate) (k : State → Desc → State) : State :=
  match s.desc? (dkey d) with
  | some e => if e.bits 4 hi lo = v then s.action d op g k else s
  | none => s

end Sys2Proof.Machine
end

