-- ==== Sys2Proof/Machine/Plan.lean ====
section
/-! DEFINITION. Jerk-limited planning in exact rational arithmetic (R200 to R204, R207): phases of constant jerk whose
durations are whole nanoseconds, found as the least ones that meet an exact condition. -/
namespace Sys2Proof.Machine

/-- The least `n` above `lo` for which the monotone condition `p` holds, when it fails at `lo`, by bits from `2^(b-1)`. -/
def leastAbove (p : Nat → Bool) : Nat → Nat → Nat
  | 0, lo => lo + 1
  | b + 1, lo => if p (lo + 2 ^ b) then leastAbove p b lo else leastAbove p b (lo + 2 ^ b)

/-- The least count of nanoseconds for which the monotone condition `p` of the time in seconds holds (below 2^62). -/
def leastNs (p : Rat → Bool) : Nat :=
  let q : Nat → Bool := fun n => p ((n : Rat) / 1000000000)
  if q 0 then 0 else leastAbove q 62 0

/-- The magnitude of a rational. -/
def ratAbs (r : Rat) : Rat := if r < 0 then -r else r

/-- A count of nanoseconds in seconds. -/
def secOf (n : Nat) : Rat := (n : Rat) / 1000000000

/-- The limits of a motion: speed, acceleration, deceleration, jerk. -/
structure Lim where
  v : Rat
  a : Rat
  d : Rat
  j : Rat

/-- Position, speed and acceleration. -/
structure Kin where
  p : Rat
  v : Rat
  a : Rat

/-- The state after time `t` at constant jerk `j`. -/
def Kin.after (k : Kin) (t j : Rat) : Kin :=
  { p := k.p + k.v * t + k.a * t * t / 2 + j * t * t * t / 6, v := k.v + k.a * t + j * t * t / 2, a := k.a + j * t }

/-- The state at the end of a list of phases. -/
def Kin.run (k : Kin) : List (Nat × Rat) → Kin
  | [] => k
  | (n, j) :: rest => (k.after (secOf n) j).run rest

/-- The state at time `t` into a list of phases; constant speed and acceleration after its end. -/
def Kin.at (k : Kin) : List (Nat × Rat) → Rat → Kin
  | [], t => k.after t 0
  | (n, j) :: rest, t => if t ≤ secOf n then k.after t j else (k.after (secOf n) j).at rest (t - secOf n)

/-- The duration of a list of phases in ns. -/
def phasesNs (l : List (Nat × Rat)) : Nat := (l.map fun f => f.1).sum

/-- Rising from rest to speed `w` and falling to rest again covers at least `dist`. -/
def Lim.reach (l : Lim) (dist w : Rat) : Bool :=
  if w ≤ 0 then decide (dist ≤ 0)
  else
    let up := decide (l.a * l.a ≤ w * l.j)
    let dn := decide (l.d * l.d ≤ w * l.j)
    let fixed := (if up then w / l.a + l.a / l.j else 0) + (if dn then w / l.d + l.d / l.j else 0)
    let roots : Rat := (if up then 0 else 2) + (if dn then 0 else 2)
    let need := 2 * dist / w - fixed
    decide (need ≤ 0) || decide (need * need ≤ roots * roots * w / l.j)

/-- The durations of one change of speed: jerk, constant acceleration, jerk; `peakLe w` says that the peak speed is at most
`w`, and `acc` is the limit of the acceleration. -/
def rampNs (peakLe : Rat → Bool) (acc j : Rat) : Nat × Nat :=
  (leastNs fun t => decide (acc ≤ j * t) || peakLe (j * t * t), leastNs fun t => peakLe (acc * (t + acc / j)))

/-- The phases of the minimum-duration motion from rest to rest over `dist > 0`: durations rounded up to whole
nanoseconds, then the jerk lowered so that the distance is exact (R200). -/
def restPhases (l : Lim) (dist : Rat) : List (Nat × Rat) :=
  let peakLe : Rat → Bool := fun w => decide (l.v ≤ w) || l.reach dist w
  let up := rampNs peakLe l.a l.j
  let dn := rampNs peakLe l.d l.j
  let cruise := if l.reach dist l.v then 0 else leastNs fun t => l.reach (dist - l.v * t) l.v
  let raw := [(up.1, l.j), (up.2, 0), (up.1, -l.j), (cruise, 0), (dn.1, -l.j), (dn.2, 0), (dn.1, l.j)]
  let reached := (Kin.run { p := 0, v := 0, a := 0 } raw).p
  raw.map fun f => (f.1, f.2 * (dist / reached))

/-- The three durations that bring speed `w` and acceleration `a` to zero with deceleration at most `d` and jerk `j`, when
the speed at zero acceleration is not negative (R204). -/
def stopNs (w a d j : Rat) : Nat × Nat × Nat :=
  let k := j * w + a * a / 2
  let peakLe : Rat → Bool := fun x => decide (d ≤ x) || (decide (0 ≤ x) && decide (k ≤ x * x))
  if a < -d then
    (max 1 (leastNs fun t => decide (-d - a ≤ j * t)),
     leastNs fun t => decide ((w - a * a / (2 * j)) / d ≤ t),
     max 1 (leastNs fun t => decide (d ≤ j * t)))
  else
    (max 1 (leastNs fun t => peakLe (j * t - a)),
     leastNs fun t => decide (k / (j * d) - d / j ≤ t),
     max 1 (leastNs fun t => peakLe (j * t)))

/-- The three phases with the given durations that take acceleration `a` to `peak` and on to zero. -/
def rampPhases (a peak : Rat) (n : Nat × Nat × Nat) : List (Nat × Rat) :=
  [(n.1, (peak - a) / secOf n.1), (n.2.1, 0), (n.2.2, -peak / secOf n.2.2)]

/-- The peak acceleration with which a ramp of these durations takes speed `w` and acceleration `a` to zero exactly. -/
def rampPeak (w a : Rat) (n : Nat × Nat × Nat) : Rat :=
  -(w + a * secOf n.1 / 2) / (secOf n.1 / 2 + secOf n.2.1 + secOf n.2.2 / 2)

/-- The sign of a change of speed: whether the speed at zero acceleration is positive. -/
def rampSign (w a j : Rat) : Rat := if 0 ≤ w + a * ratAbs a / (2 * j) then 1 else -1

/-- The minimum-duration phases that bring relative speed `w` and acceleration `a` to zero. -/
def stopPhases (w a d j : Rat) : List (Nat × Rat) :=
  if w = 0 ∧ a = 0 then []
  else
    let s := rampSign w a j
    let n := stopNs (s * w) (s * a) d j
    rampPhases a (rampPeak w a n) n

/-- The durations of the two ramps of a re-plan with peak speed `w`, from speed `v` and acceleration `a` (R203). -/
def replanNs (l : Lim) (v a w : Rat) : (Nat × Nat × Nat) × (Nat × Nat × Nat) :=
  let s := rampSign (v - w) a l.j
  (stopNs (s * (v - w)) (s * a) (if s = 1 then l.d else l.a) l.j, if w = 0 then (1, 0, 1) else stopNs w 0 l.d l.j)

/-- The phases of a re-plan with given durations and first peak acceleration. -/
def replanPhases (v a peak : Rat) (n : (Nat × Nat × Nat) × (Nat × Nat × Nat)) (cruise : Nat) : List (Nat × Rat) :=
  let up := rampPhases a peak n.1
  let w := (Kin.run { p := 0, v := v, a := a } up).v
  up ++ [(cruise, 0)] ++ rampPhases 0 (rampPeak w 0 n.2) n.2

/-- The distance that a re-plan covers. -/
def replanDist (v a peak : Rat) (n : (Nat × Nat × Nat) × (Nat × Nat × Nat)) (cruise : Nat) : Rat :=
  (Kin.run { p := 0, v := v, a := a } (replanPhases v a peak n cruise)).p

/-- The distance covered with peak speed `w` and no cruise. -/
def peakDist (l : Lim) (v a w : Rat) : Rat :=
  let n := replanNs l v a w
  replanDist v a (rampPeak (v - w) a n.1) n 0

/-- The largest number below `lo + 2^b` that meets `f`, which holds for none above one for which it fails. -/
def peakSearch (f : Nat → Bool) : Nat → Nat → Nat
  | 0, lo => lo
  | b + 1, lo => if f (lo + 2 ^ b) then peakSearch f b (lo + 2 ^ b) else peakSearch f b lo

/-- The re-plan from speed `v` and acceleration `a` to a target `r` ahead (R203); none when the target cannot be reached
without overshoot. The peak speed is found to 2^-64 of the speed limit; the durations are rounded up and the first ramp's peak acceleration is chosen so that the distance is
exact. -/
def replan (l : Lim) (v a r : Rat) : Option (List (Nat × Rat)) :=
  if r < peakDist l v a 0 then none
  else
    let peakOf : Nat → Rat := fun m => l.v * m / 2 ^ 64
    let fits : Nat → Bool := fun m => decide (m ≤ 2 ^ 64) && decide (peakDist l v a (peakOf m) ≤ r)
    let w := peakOf (peakSearch fits 65 0)
    let n := replanNs l v a w
    let rest := r - peakDist l v a w
    let cruise := if w = 0 then 0 else leastNs fun t => decide (rest ≤ w * t)
    let f0 := replanDist v a 0 n cruise
    let f1 := replanDist v a 1 n cruise
    let peak := if f1 = f0 then rampPeak (v - w) a n.1 else (r - f0) / (f1 - f0)
    some (replanPhases v a peak n cruise)

/-- A rational rounded half up. -/
def roundRat (r : Rat) : Int := (r + 1 / 2).floor

/-- The state of a plan at profile time `t` in units of 2^-15 ns. -/
def Plan.at (pl : Plan) (t : Nat) : Kin :=
  Kin.at { p := pl.p0, v := pl.v0, a := pl.a0 } pl.phases ((t : Rat) / 32768 / 1000000000)

/-- A plan has ended at profile time `t`: a search never does. -/
def Plan.ended (pl : Plan) (t : Nat) : Bool := pl.target.isSome && decide (phasesNs pl.phases * 32768 ≤ t)

end Sys2Proof.Machine
end

