-- ==== Sys2Proof/Machine/Ipm.lean ====
section
/-! DEFINITION. The engines' fixed-point arithmetic and their iteration, as functions of a problem: stores that saturate and accumulations
beyond 80 bits (R239, R240), the start points (R260, R261), the predictor-corrector iteration with its Riccati recursion (R241, R242), and
the infeasibility certificate (R264, R265). DEDUCED (log 63): every name that the pseudocode of R241 assigns is stored once, in the Q format
that the image's format table gives its kind; the products of one assignment accumulate exactly within 80 bits. -/
namespace Sys2Proof.Machine

/-! ### Fixed point (R239, R240) -/

/-- A computation of an engine: it gives a value, or stops in an overflow with the variable index of its destination. -/
abbrev Calc := Except Nat

/-- The image's format table by kind; a kind that it leaves out has 24 fraction bits. -/
def formOf (l : List VarForm) (k : SvVar) : VarForm := (l.find? fun f => f.kind == k).getD { kind := k, var := 0x600, q := 24 }

/-- Store an exact value: shifted, rounded half up; one that would saturate is an overflow. -/
def store (f : VarForm) (v : Rat) : Calc Rat :=
  let i := roundRat (v * 2 ^ f.q)
  if i = clampInt 32 i then .ok ((i : Rat) / 2 ^ f.q) else .error f.var

/-- An accumulation of products with `pq` fraction bits stays within 80 bits. -/
def fits80 (pq : Nat) (v : Rat) : Bool := decide (-(2 : Rat) ^ 79 ≤ v * 2 ^ pq ∧ v * 2 ^ pq < 2 ^ 79)

/-- The partial sums of a list. -/
def partialSums (l : List Rat) : List Rat := (l.foldl (fun r v => (r.1 + v, r.2 ++ [r.1 + v])) ((0 : Rat), ([] : List Rat))).2

/-- Accumulate terms and store the sum. -/
def put (f : VarForm) (pq : Nat) (l : List Rat) : Calc Rat :=
  if (partialSums l).all (fits80 pq) then store f l.sum else .error f.var

/-- The reciprocal unit: a value that is not positive is an overflow. -/
def recip (f : VarForm) (v : Rat) : Calc Rat := if v ≤ 0 then .error f.var else store f (1 / v)

/-- The products of two lists, element by element. -/
def prods (a b : List Rat) : List Rat := (a.zip b).map fun e => e.1 * e.2

/-- The largest magnitude of a list. -/
def maxAbs (l : List Rat) : Rat := l.foldl (fun m v => max m (ratAbs v)) 0

/-! ### The problem (R227, R235) -/

/-- A constraint row of a stage: its coefficients on the state x_{k+1} and the input u_k, and its bound. -/
structure Row where
  cx : List Rat
  cu : List Rat
  d : Rat

/-- A stage: the weights of the state and the input, the cost gradients, the rows, and the inertia and bias of its torques. -/
structure Stage where
  q : List Rat
  r : List Rat
  gx : List Rat
  gu : List Rat
  rows : List Row
  inertia : List (List Rat)
  bias : List Rat

/-- A problem: its joints (0 for the cell problem, whose inputs are its variables), the constants h and h²/2, the initial state (positions,
then speeds), and its stages. -/
structure Prob where
  n : Nat
  h : Rat
  h2 : Rat
  x0 : List Rat
  stages : List Stage

/-- What a solve iterates under: tolerances, floors, the certificate's first iteration and tolerance, and the iteration budget. -/
structure IpmCfg where
  epsP : Rat
  epsD : Rat
  epsMu : Rat
  sMin : Rat
  lamMin : Rat
  reg : Rat
  pivMin : Rat
  infFrom : Nat
  epsInf : Rat
  iters : Nat

/-- An iterate: the input of each stage, the state after it, the slacks and the duals of its rows. -/
structure Iter where
  u : List (List Rat)
  x : List (List Rat)
  s : List (List Rat)
  lam : List (List Rat)
  deriving DecidableEq, Repr

/-- A x + B u, exactly. -/
def Prob.next (p : Prob) (x u : List Rat) : List Rat :=
  let g := fun (l : List Rat) (i : Nat) => l.getD i 0
  (List.range p.n).map (fun i => g x i + p.h * g x (p.n + i) + p.h2 * g u i)
    ++ (List.range p.n).map fun i => g x (p.n + i) + p.h * g u i

/-- Aᵀ y. -/
def Prob.adjA (p : Prob) (y : List Rat) : List Rat :=
  (List.range p.n).map (fun i => y.getD i 0) ++ (List.range p.n).map fun i => p.h * y.getD i 0 + y.getD (p.n + i) 0

/-- Bᵀ y: nothing where the problem has no dynamics. -/
def Prob.adjB (p : Prob) (y : List Rat) : List Rat := (List.range p.n).map fun i => p.h2 * y.getD i 0 + p.h * y.getD (p.n + i) 0

/-- Element `i` of Bᵀ y, 0 where the problem has no dynamics. -/
def Prob.adjBAt (p : Prob) (y : List Rat) (i : Nat) : Rat := (p.adjB y).getD i 0

/-- The states before and after stage `k` of an iterate. -/
def Prob.stateBefore (p : Prob) (it : Iter) (k : Nat) : List Rat := if k = 0 then p.x0 else it.x.getD (k - 1) []

/-- C z of a row. -/
def Row.terms (r : Row) (x u : List Rat) : List Rat := prods r.cx x ++ prods r.cu u

/-- Element `i` of Cᵀ y over the rows of a stage, for the state (`st`) or the input. -/
def Stage.colTerms (g : Stage) (st : Bool) (y : List Rat) (i : Nat) : List Rat :=
  (g.rows.zip y).map fun e => (if st then e.1.cx else e.1.cu).getD i 0 * e.2

/-- Element `i`, `j` of Cᵀ w C over the rows of a stage. -/
def Stage.crossTerms (g : Stage) (st : Bool) (w : List Rat) (i j : Nat) : List Rat :=
  (g.rows.zip w).map fun e => let c := if st then e.1.cx else e.1.cu; c.getD i 0 * e.2 * c.getD j 0

/-- The stages of a list with their numbers. -/
def Prob.numbered (p : Prob) : List (Stage × Nat) := p.stages.zipIdx

/-! ### Start points (R260, R261) -/

/-- The duals of a cold start, and its slacks from the rows at a point. -/
def Prob.coldPoint (f : SvVar → VarForm) (p : Prob) (u : List (List Rat)) (x : List (List Rat)) : Calc Iter := do
  let s ← p.numbered.mapM fun g => g.1.rows.mapM fun r =>
    store (f .slack) (max (r.d - (r.terms (x.getD g.2 []) (u.getD g.2 [])).sum) 1)
  pure { u := u, x := x, s := s, lam := p.stages.map fun g => g.rows.map fun _ => 1 }

/-- The states that inputs give from x_0, each stored. -/
def Prob.rollout (f : SvVar → VarForm) (p : Prob) : List Rat → List (List Rat) → Calc (List (List Rat))
  | _, [] => pure []
  | x, u :: rest => do
    let x' ← (p.next x u).zipIdx.mapM fun e => store (f (if e.2 < p.n then .pos else .vel)) e.1
    let l ← p.rollout f x' rest
    pure (x' :: l)

/-- Slacks and duals of a warm start, floored (R260). -/
def Iter.floored (c : IpmCfg) (it : Iter) : Iter :=
  { it with s := it.s.map fun l => l.map (max c.sMin), lam := it.lam.map fun l => l.map (max c.lamMin) }

/-! ### Residuals and tests (R241) -/

/-- The residuals of an iterate: of the rows, of the dual conditions with the dynamics eliminated, of the dynamics, and the mean product
of slacks and duals. -/
structure Resid where
  rp : List (List Rat)
  rd : List (List Rat)
  e : List (List Rat)
  mu : Rat

/-- The cost gradient and Cᵀ y of stage `g` for the state after it. -/
def Prob.gradX (p : Prob) (f : SvVar → VarForm) (g : Stage) (x y : List Rat) : Calc (List Rat) :=
  (List.range (2 * p.n)).mapM fun i =>
    put (f .linear) ((f .coef).q + (f .dual).q) ([g.q.getD i 0 * x.getD i 0, g.gx.getD i 0] ++ g.colTerms true y i)

/-- The costates of an iterate from its last stage: one per stage, with the dual residuals. -/
def Prob.dualPass (f : SvVar → VarForm) (p : Prob) (it : Iter) : List (Stage × Nat) → Calc (List Rat × List (List Rat))
  | [] => pure ([], [])
  | (g, k) :: rest => do
    let (y, rds) ← p.dualPass f it rest
    let lam := it.lam.getD k []
    let gx ← p.gradX f g (it.x.getD k []) lam
    let c ← (gx.zip (p.adjA y ++ List.replicate gx.length 0)).mapM fun e => put (f .linear) ((f .linear).q + (f .step).q) [e.1, e.2]
    let u := it.u.getD k []
    let rd ← (List.range u.length).mapM fun i =>
      put (f .resD) ((f .coef).q + (f .dual).q)
        ([g.r.getD i 0 * u.getD i 0, g.gu.getD i 0] ++ g.colTerms false lam i ++ [p.adjBAt c i])
    pure (c, rd :: rds)

/-- The number of rows of the whole problem. -/
def Prob.rowCount (p : Prob) : Nat := (p.stages.map fun g => g.rows.length).sum

/-- The mean product of slacks and duals. -/
def Prob.meanGap (f : SvVar → VarForm) (p : Prob) (s lam : List (List Rat)) : Calc Rat :=
  put (f .gap) ((f .slack).q + (f .dual).q) ((prods s.flatten lam.flatten).map fun v => v / (max 1 p.rowCount : Nat))

/-- The residuals of an iterate. -/
def Prob.resid (f : SvVar → VarForm) (p : Prob) (it : Iter) : Calc Resid := do
  let rp ← p.numbered.mapM fun g => (g.1.rows.zip (it.s.getD g.2 [])).mapM fun e =>
    put (f .resP) ((f .coef).q + (f .pos).q) (e.1.terms (it.x.getD g.2 []) (it.u.getD g.2 []) ++ [e.2, -e.1.d])
  let d ← p.dualPass f it p.numbered
  let e ← p.numbered.mapM fun g =>
    ((p.next (p.stateBefore it g.2) (it.u.getD g.2 [])).zip (it.x.getD g.2 [])).mapM fun v =>
      put (f .resP) ((f .pos).q + (f .step).q) [v.1, -v.2]
  let mu ← p.meanGap f it.s it.lam
  pure { rp := rp, rd := d.2, e := e, mu := mu }

/-- The three tests. -/
def Resid.converged (c : IpmCfg) (r : Resid) : Bool :=
  decide (maxAbs r.rp.flatten ≤ c.epsP) && decide (maxAbs r.rd.flatten ≤ c.epsD) && decide (r.mu ≤ c.epsMu)

/-! ### The infeasibility certificate (R264, R265) -/

/-- The adjoint pass over normalised duals: the costate and w, from the last stage. -/
def Prob.certPass (f : SvVar → VarForm) (p : Prob) (y : List (List Rat)) : List (Stage × Nat) → Calc (List Rat × List Rat)
  | [] => pure ([], [])
  | (g, k) :: rest => do
    let (c, ws) ← p.certPass f y rest
    let yk := y.getD k []
    let back := p.adjA c ++ List.replicate (2 * p.n) 0
    let c' ← (List.range (2 * p.n)).mapM fun i => put (f .certW) ((f .coef).q + (f .certY).q) (g.colTerms true yk i ++ [back.getD i 0])
    let w ← (List.range g.r.length).mapM fun i =>
      put (f .certW) ((f .coef).q + (f .certY).q) (g.colTerms false yk i ++ [p.adjBAt c' i])
    pure (c', w ++ ws)

/-- The free response of the states, with inputs of 0, exactly. -/
def Prob.free (p : Prob) : List Rat → Nat → List (List Rat)
  | _, 0 => []
  | x, n + 1 => let x' := p.next x []; x' :: p.free x' n

/-- The iterate yields a certificate of primal infeasibility. -/
def Prob.certifies (f : SvVar → VarForm) (p : Prob) (c : IpmCfg) (it : Iter) : Calc Bool := do
  let sum ← put (f .gap) (f .dual).q it.lam.flatten
  let inv ← recip (f .invPivot) sum
  let y ← it.lam.mapM fun l => l.mapM fun v => put (f .certY) ((f .dual).q + (f .invPivot).q) [v * inv]
  let w ← p.certPass f y p.numbered
  let x := p.free p.x0 p.stages.length
  let terms := p.numbered.flatMap fun g =>
    (g.1.rows.zip (y.getD g.2 [])).map fun e => (e.1.d - (prods e.1.cx (x.getD g.2 [])).sum) * e.2
  let rho ← put (f .certR) ((f .bound).q + (f .certY).q) terms
  pure (decide (maxAbs w.2 ≤ c.epsInf) && decide (rho ≤ -c.epsInf))

/-- The violations C z − d of all rows of an iterate, in row order. -/
def Prob.violations (p : Prob) (it : Iter) : List Rat :=
  p.numbered.flatMap fun g => g.1.rows.map fun r => (r.terms (it.x.getD g.2 []) (it.u.getD g.2 [])).sum - r.d

/-- The place of the largest of a list, ties to the lower place, with its value. -/
def largest (l : List Rat) : Nat × Rat :=
  l.zipIdx.foldl (fun m e => if m.2 < e.1 then (e.2, e.1) else m) (0, l.headD 0)

/-! ### The factorisation (R241, R242) -/

/-- The LDLᵀ factor of an input block: the rows of L below the diagonal, the pivots' reciprocals, and the raised pivots. -/
structure Ldl where
  l : List (List Rat) := []
  d : List Rat := []
  inv : List Rat := []
  raised : Nat := 0

/-- Row `i` of L from the rows above it, in the columns 0 to `i − 1`. -/
def ldlRow (f : SvVar → VarForm) (a : List Rat) (t : Ldl) : List (List Rat × Rat × Rat) → List Rat → Calc (List Rat)
  | [], acc => pure acc
  | (lj, _, inv) :: rest, acc => do
    let past := (acc.zip (lj.zip t.d)).map fun e => -(e.1 * e.2.1 * e.2.2)
    let v ← put (f .factor) ((f .factor).q + (f .pivot).q) ([a.getD acc.length 0 * inv] ++ past.map fun x => x * inv)
    ldlRow f a t rest (acc ++ [v])

/-- Factor the rows of a symmetric matrix one after another: every pivot takes REG, and one below PIV_MIN is raised to it. -/
def ldlRows (f : SvVar → VarForm) (c : IpmCfg) : List (List Rat) → Ldl → Calc Ldl
  | [], t => pure t
  | a :: rest, t => do
    let row ← ldlRow f a t (t.l.zip (t.d.zip t.inv)) []
    let d ← put (f .pivot) ((f .factor).q + (f .pivot).q)
      ([a.getD row.length 0] ++ (row.zip t.d).map (fun e => -(e.1 * e.1 * e.2)) ++ [c.reg])
    let low := decide (d < c.pivMin)
    let d := if low then c.pivMin else d
    let inv ← recip (f .invPivot) d
    ldlRows f c rest { l := t.l ++ [row], d := t.d ++ [d], inv := t.inv ++ [inv], raised := t.raised + if low then 1 else 0 }

/-- Forward substitution with L. -/
def Ldl.down (f : SvVar → VarForm) (out : SvVar) : List (List Rat) → List Rat → List Rat → Calc (List Rat)
  | [], _, acc => pure acc
  | row :: rest, b, acc => do
    let v ← put (f out) ((f .factor).q + (f out).q) ([b.getD acc.length 0] ++ (prods row acc).map fun e => -e)
    Ldl.down f out rest b (acc ++ [v])

/-- Backward substitution with Lᵀ, from the last row. -/
def Ldl.up (f : SvVar → VarForm) (out : SvVar) (l : List (List Rat)) : Nat → List Rat → List Rat → Calc (List Rat)
  | 0, _, acc => pure acc
  | i + 1, b, acc => do
    let past := acc.zipIdx.map fun e => -((l.getD (i + 1 + e.2) []).getD i 0 * e.1)
    let v ← put (f out) ((f .factor).q + (f out).q) ([b.getD i 0] ++ past)
    Ldl.up f out l i b (v :: acc)

/-- The solution of the factored system. -/
def Ldl.solve (f : SvVar → VarForm) (out : SvVar) (t : Ldl) (b : List Rat) : Calc (List Rat) := do
  let z ← Ldl.down f out t.l b []
  let y ← (z.zip t.inv).mapM fun e => put (f out) ((f out).q + (f .invPivot).q) [e.1 * e.2]
  Ldl.up f out t.l t.l.length y []

/-- What the factorisation leaves for a stage: the value function's Hessian at the state after it, the factor of its input block, h_ux and
its gains. -/
structure StageFac where
  p : List (List Rat)
  ldl : Ldl
  hux : List (List Rat)
  gain : List (List Rat)

/-- The barrier quotients λ / s of the rows of a problem, with the reciprocals of the slacks. -/
def barriers (f : SvVar → VarForm) (it : Iter) : Calc (List (List Rat) × List (List Rat)) := do
  let inv ← it.s.mapM fun l => l.mapM (recip (f .invSlack))
  let w ← (it.lam.zip inv).mapM fun e => (e.1.zip e.2).mapM fun v => put (f .barrier) ((f .dual).q + (f .invSlack).q) [v.1 * v.2]
  pure (inv, w)

/-- Q and the barrier terms of a stage's rows on its state. -/
def Prob.stateHess (p : Prob) (g : Stage) (w : List Rat) (i j : Nat) : List Rat :=
  (if i = j then [g.q.getD i 0] else []) ++ if i < 2 * p.n ∧ j < 2 * p.n then g.crossTerms true w i j else []

/-- The factors of the stages from the first, and the terms Aᵀ P A − h_uxᵀ h_uu⁻¹ h_ux that the stage before them takes on. -/
def Prob.factor (f : SvVar → VarForm) (p : Prob) (c : IpmCfg) (w : List (List Rat)) :
    List (Stage × Nat) → Calc (List (List Rat) × List StageFac)
  | [] => pure ([], [])
  | (g, k) :: rest => do
    let (carry, facs) ← p.factor f c w rest
    let wk := w.getD k []
    let hess ← (List.range (2 * p.n)).mapM fun i => (List.range (2 * p.n)).mapM fun j =>
      put (f .value) ((f .coef).q + (f .barrier).q) (p.stateHess g wk i j ++ [(carry.getD i []).getD j 0])
    let btp := (List.range p.n).map fun i =>
      (List.range (2 * p.n)).map fun j => p.h2 * (hess.getD i []).getD j 0 + p.h * (hess.getD (p.n + i) []).getD j 0
    let nu := g.r.length
    let huu ← (List.range nu).mapM fun i => (List.range nu).mapM fun j =>
      put (f .block) ((f .coef).q + (f .barrier).q)
        ((if i = j then [g.r.getD i 0] else []) ++ g.crossTerms false wk i j ++ [p.adjBAt (btp.getD i []) j])
    let hux ← btp.mapM fun r => (p.adjA r).mapM fun v => put (f .block) ((f .value).q + (f .step).q) [v]
    let t ← ldlRows f c huu {}
    let cols ← (List.range (2 * p.n)).mapM fun j => t.solve f .gain (hux.map fun r => -(r.getD j 0))
    let gain := (List.range nu).map fun i => cols.map fun col => col.getD i 0
    let atp := hess.take p.n ++ (List.range p.n).map fun i =>
      (List.range (2 * p.n)).map fun j => p.h * (hess.getD i []).getD j 0 + (hess.getD (p.n + i) []).getD j 0
    let carry' ← (atp.zipIdx).mapM fun e => ((p.adjA e.1).zipIdx).mapM fun v =>
      put (f .value) ((f .block).q + (f .gain).q)
        ([v.1] ++ hux.zipIdx.map fun r => r.1.getD e.2 0 * (gain.getD r.2 []).getD v.2 0)
    pure (carry', { p := hess, ldl := t, hux := hux, gain := gain } :: facs)

/-! ### The two solves (R241) -/

/-- The right-hand terms of the rows: w r_p + (σ μ − cross) / s. -/
def rowTerms (f : SvVar → VarForm) (r : Resid) (inv w cross : List (List Rat)) (sm : Rat) : Calc (List (List Rat)) :=
  (r.rp.zip (inv.zip (w.zip cross))).mapM fun l => (l.1.zip (l.2.1.zip (l.2.2.1.zip l.2.2.2))).mapM fun e =>
    put (f .dual) ((f .barrier).q + (f .resP).q) [e.2.2.1 * e.1, (sm - e.2.2.2) * e.2.1]

/-- The linear terms from the last stage: the value function's gradient that the stage before takes on, and the feed-forward of each
stage. -/
def Prob.backPass (f : SvVar → VarForm) (p : Prob) (it : Iter) (r : Resid) (t : List (List Rat)) :
    List ((Stage × Nat) × StageFac) → Calc (List Rat × List (List Rat))
  | [] => pure ([], [])
  | ((g, k), fac) :: rest => do
    let (carry, ffs) ← p.backPass f it r t rest
    let tk := t.getD k []
    let x := it.x.getD k []
    let u := it.u.getD k []
    let ek := r.e.getD k []
    let v ← (List.range (2 * p.n)).mapM fun i =>
      put (f .linear) ((f .value).q + (f .resP).q)
        ([g.q.getD i 0 * x.getD i 0, g.gx.getD i 0] ++ g.colTerms true tk i ++ [carry.getD i 0] ++ prods (fac.p.getD i []) ek)
    let lu ← (List.range u.length).mapM fun i =>
      put (f .linear) ((f .coef).q + (f .dual).q)
        ([g.r.getD i 0 * u.getD i 0, g.gu.getD i 0] ++ g.colTerms false tk i ++ [p.adjBAt v i])
    let ff ← fac.ldl.solve f .stepZ (lu.map fun e => -e)
    let carry' ← ((p.adjA v).zipIdx).mapM fun e =>
      put (f .linear) ((f .block).q + (f .stepZ).q) ([e.1] ++ fac.hux.zipIdx.map fun h => h.1.getD e.2 0 * ff.getD h.2 0)
    pure (carry', ff :: ffs)

/-- The forward pass: the steps of inputs and states. -/
def Prob.forwardPass (f : SvVar → VarForm) (p : Prob) :
    List Rat → List (StageFac × List Rat × List Rat) → Calc (List (List Rat) × List (List Rat))
  | _, [] => pure ([], [])
  | dx, (fac, ff, e) :: rest => do
    let du ← (ff.zipIdx).mapM fun v => put (f .stepZ) ((f .gain).q + (f .stepZ).q) ([v.1] ++ prods (fac.gain.getD v.2 []) dx)
    let dx' ← ((p.next dx du).zip e).mapM fun v => put (f .stepZ) ((f .stepZ).q + (f .step).q) [v.1, v.2]
    let (us, xs) ← p.forwardPass f dx' rest
    pure (du :: us, dx' :: xs)

/-- A step of the iteration. -/
structure Delta where
  u : List (List Rat)
  x : List (List Rat)
  s : List (List Rat)
  lam : List (List Rat)

/-- One solve with the factorisation, for a centring term and the predictor's cross terms. -/
def Prob.direction (f : SvVar → VarForm) (p : Prob) (it : Iter) (r : Resid) (bw : List (List Rat) × List (List Rat)) (facs : List StageFac)
    (cross : List (List Rat)) (sm : Rat) : Calc Delta := do
  let t ← rowTerms f r bw.1 bw.2 cross sm
  let b ← p.backPass f it r t (p.numbered.zip facs)
  let z ← p.forwardPass f (List.replicate (2 * p.n) 0) (facs.zip (b.2.zip r.e))
  let ds ← (p.numbered.zip r.rp).mapM fun g => (g.1.1.rows.zip g.2).mapM fun e =>
    put (f .stepS) ((f .coef).q + (f .stepZ).q) ([-e.2] ++ (e.1.terms (z.2.getD g.1.2 []) (z.1.getD g.1.2 [])).map fun v => -v)
  let dl ← (it.lam.zip (ds.zip (bw.1.zip (bw.2.zip cross)))).mapM fun l =>
    (l.1.zip (l.2.1.zip (l.2.2.1.zip (l.2.2.2.1.zip l.2.2.2.2)))).mapM fun e =>
      put (f .stepL) ((f .barrier).q + (f .stepS).q) [(sm - e.2.2.2.2) * e.2.2.1, -e.1, -(e.2.2.2.1 * e.2.1)]
  pure { u := z.1, x := z.2, s := ds, lam := dl }

/-- The largest step that keeps slacks and duals from falling below 0, at most `cap`. -/
def largestStep (cap : Rat) (v dv : List Rat) : Rat := (v.zip dv).foldl (fun a e => if e.2 < 0 then min a (-e.1 / e.2) else a) cap

/-- The sums of an iterate's lists and a step of length `a`. -/
def stepLists (a : Rat) (l d : List (List Rat)) : List (List Rat) :=
  (l.zip d).map fun e => (e.1.zip e.2).map fun v => v.1 + a * v.2

/-- Store every element of lists. -/
def storeAll (g : Nat → VarForm) (l : List (List Rat)) : Calc (List (List Rat)) :=
  l.mapM fun r => r.zipIdx.mapM fun e => store (g e.2) e.1

/-- One iteration: the next iterate and the pivots raised. -/
def Prob.iterate (f : SvVar → VarForm) (p : Prob) (c : IpmCfg) (it : Iter) (r : Resid) : Calc (Iter × Nat) := do
  let bw ← barriers f it
  let fac ← p.factor f c bw.2 p.numbered
  let zero := it.s.map fun l => l.map fun _ => (0 : Rat)
  let aff ← p.direction f it r bw fac.2 zero 0
  let both := fun (d : Delta) (cap : Rat) =>
    largestStep (largestStep cap it.s.flatten d.s.flatten) it.lam.flatten d.lam.flatten
  let aAff ← store (f .length) (both aff 1)
  let muAff ← p.meanGap f (stepLists aAff it.s aff.s) (stepLists aAff it.lam aff.lam)
  let inv ← recip (f .invPivot) r.mu
  let ratio := muAff * inv
  let sigma ← store (f .centre) (min 1 (ratio * ratio * ratio))
  let cross := (aff.s.zip aff.lam).map fun e => prods e.1 e.2
  let d ← p.direction f it r bw fac.2 cross (sigma * r.mu)
  let a ← store (f .length) (99 / 100 * both d (100 / 99))
  let uForm := fun (_ : Nat) => if p.n = 0 then f .cell else f .acc
  let u ← storeAll uForm (stepLists a it.u d.u)
  let x ← storeAll (fun i => f (if i < p.n then .pos else .vel)) (stepLists a it.x d.x)
  let s ← storeAll (fun _ => f .slack) ((stepLists a it.s d.s).map fun l => l.map (max c.sMin))
  let lam ← storeAll (fun _ => f .dual) ((stepLists a it.lam d.lam).map fun l => l.map (max c.lamMin))
  pure ({ u := u, x := x, s := s, lam := lam }, (fac.2.map fun t => t.ldl.raised).sum)

/-! ### The solve -/

/-- How a solve ends by itself (R241, R240, R265): convergence, a spent iteration budget, an infeasibility certificate with its
most-violated row and violation, or an overflow with its destination variable; `cut` where a cut stops it before any of these. -/
inductive SolveExit where
  | converged
  | budget
  | infeasible (row : Nat) (viol : Rat)
  | overflow (var : Nat)
  | cut
  deriving DecidableEq, Repr

/-- What a solve has when it ends: how, the iterations completed, the pivots raised, the newest complete iterate and its max|r_p|; none
before the start point is complete. -/
structure SolveRes where
  exit : SolveExit
  iter : Nat
  raised : Nat
  last : Option (Iter × Rat)

/-- The test of the exits at a complete iterate, in the order convergence, infeasibility, budget (R264). -/
def Prob.exitAt (f : SvVar → VarForm) (p : Prob) (c : IpmCfg) (n : Nat) (it : Iter) (r : Resid) : Calc (Option SolveExit) := do
  if r.converged c then pure (some .converged)
  else do
    let cert ← if c.infFrom ≤ n then p.certifies f c it else pure false
    if cert then let v := largest (p.violations it); pure (some (.infeasible v.1 v.2))
    else pure (if c.iters ≤ n then some .budget else none)

/-- Run the iteration from a complete iterate number `n`, through at most `fuel` more, or up to number `stop`, where a cut ends it. -/
def Prob.run (f : SvVar → VarForm) (p : Prob) (c : IpmCfg) (stop : Option Nat) : Nat → Nat → Nat → Iter → SolveRes
  | 0, n, raised, it => { exit := .budget, iter := n, raised := raised, last := some (it, 0) }
  | fuel + 1, n, raised, it =>
    match p.resid f it with
    | .error v => { exit := .overflow v, iter := n, raised := raised, last := none }
    | .ok r =>
      let rp := maxAbs r.rp.flatten
      match p.exitAt f c n it r with
      | .error v => { exit := .overflow v, iter := n, raised := raised, last := some (it, rp) }
      | .ok (some x) => { exit := x, iter := n, raised := raised, last := some (it, rp) }
      | .ok none =>
        if stop = some n then { exit := .cut, iter := n, raised := raised, last := some (it, rp) }
        else
          match p.iterate f c it r with
          | .error v => { exit := .overflow v, iter := n, raised := raised, last := some (it, rp) }
          | .ok (it', k) => p.run f c stop fuel (n + 1) (raised + k) it'

/-- A solve from its start point. -/
def Prob.solve (f : SvVar → VarForm) (p : Prob) (c : IpmCfg) (stop : Option Nat) (start : Calc Iter) : SolveRes :=
  match start with
  | .error v => { exit := .overflow v, iter := 0, raised := 0, last := none }
  | .ok it => p.run f c stop (c.iters + 1) 0 0 it

end Sys2Proof.Machine
end

