-- ==== Sys2Proof/Machine/Rigid.lean ====
section
/-! DEFINITION. Rigid bodies in exact rational arithmetic: rotations, the product of exponentials (R232), the inertia and the torques of
an arm (R231), and the distance of two segments with its closest points (R277, R288). -/
namespace Sys2Proof.Machine

/-! ### The circular functions -/

/-- 2^128: the scale of the model's exponential and circular functions. -/
def expOne : Int := 2 ^ 128

/-- 2π scaled by 2^128. -/
def twoPi : Int := 2138057168129933495719360746323741566601

/-- `n` further terms of the series of the cosine (`o` = 0) or the sine (`o` = 1) of a number whose square is `x2`, from term `k` with
value `t`, all scaled. -/
def trigSeries (x2 : Int) (o : Nat) : Nat → Nat → Int → Int → Int
  | 0, _, _, acc => acc
  | n + 1, k, t, acc =>
    let t' := -(t * x2 / expOne) / ((2 * k + 1 + o) * (2 * k + 2 + o) : Nat)
    trigSeries x2 o n (k + 1) t' (acc + t')

/-- Sine and cosine of an angle in radians, to 120 bits after the point (DEDUCED, log 132). -/
def sinCos (q : Rat) : Rat × Rat :=
  let x0 := roundRat (q * expOne)
  let x := x0 - twoPi * ((2 * x0 + twoPi) / (2 * twoPi))
  let x2 := x * x / expOne
  let f := fun (v : Int) => (v : Rat) / expOne
  (f (trigSeries x2 1 40 0 x x), f (trigSeries x2 0 40 0 expOne expOne))

/-! ### Roots -/

/-- The largest number below `lo + 2^b` whose square is at most `v`, when that of `lo` is. -/
def rootFrom (v : Nat) : Nat → Nat → Nat
  | 0, lo => lo
  | b + 1, lo => if (lo + 2 ^ b) * (lo + 2 ^ b) ≤ v then rootFrom v b (lo + 2 ^ b) else rootFrom v b lo

/-- The root of a number, rounded down. -/
def floorRoot (v : Nat) : Nat := rootFrom v (v.log2 / 2 + 1) 0

/-- The root of a number, rounded up. -/
def ceilRoot (v : Nat) : Nat := let r := floorRoot v; if r * r = v then r else r + 1

/-- `2^q` times the root of `y ≥ 0`, rounded half up. -/
def roundRoot (q : Nat) (y : Rat) : Int := ((floorRoot (y * 4 * 2 ^ (2 * q)).floor.toNat + 1) / 2 : Nat)

/-- `2^q` times `n / √d`, rounded half up, for `d > 0`. -/
def roundOver (q : Nat) (n d : Rat) : Int :=
  let y := n * n / d * 4 * 2 ^ (2 * q)
  if 0 ≤ n then ((floorRoot y.floor.toNat + 1) / 2 : Nat) else -((ceilRoot y.ceil.toNat / 2 : Nat) : Int)

/-! ### Vectors, rotations and poses -/

/-- A vector. -/
structure V3 where
  x : Rat := 0
  y : Rat := 0
  z : Rat := 0
  deriving DecidableEq, Repr

/-- The sum of two vectors. -/
def V3.add (a b : V3) : V3 := { x := a.x + b.x, y := a.y + b.y, z := a.z + b.z }

/-- The difference of two vectors. -/
def V3.sub (a b : V3) : V3 := { x := a.x - b.x, y := a.y - b.y, z := a.z - b.z }

/-- A multiple of a vector. -/
def V3.mul (k : Rat) (a : V3) : V3 := { x := k * a.x, y := k * a.y, z := k * a.z }

/-- The inner product. -/
def V3.dot (a b : V3) : Rat := a.x * b.x + a.y * b.y + a.z * b.z

/-- The cross product. -/
def V3.cross (a b : V3) : V3 := { x := a.y * b.z - a.z * b.y, y := a.z * b.x - a.x * b.z, z := a.x * b.y - a.y * b.x }

/-- The vector of three components. -/
def V3.ofList (l : List Rat) : V3 := { x := l.getD 0 0, y := l.getD 1 0, z := l.getD 2 0 }

/-- The sum of a list of multiples of vectors. -/
def V3.sum (l : List (Rat × V3)) : V3 := l.foldl (fun acc e => acc.add (e.2.mul e.1)) {}

/-- A three by three matrix, row by row. -/
structure M3 where
  r0 : V3 := { x := 1 }
  r1 : V3 := { y := 1 }
  r2 : V3 := { z := 1 }
  deriving DecidableEq, Repr

/-- The image of a vector. -/
def M3.app (m : M3) (v : V3) : V3 := { x := m.r0.dot v, y := m.r1.dot v, z := m.r2.dot v }

/-- The transpose. -/
def M3.tr (m : M3) : M3 :=
  { r0 := { x := m.r0.x, y := m.r1.x, z := m.r2.x }, r1 := { x := m.r0.y, y := m.r1.y, z := m.r2.y },
    r2 := { x := m.r0.z, y := m.r1.z, z := m.r2.z } }

/-- The product of two matrices. -/
def M3.mul (a b : M3) : M3 := let t := b.tr; { r0 := t.app a.r0, r1 := t.app a.r1, r2 := t.app a.r2 }

/-- A rotation and a translation. -/
structure Pose where
  r : M3 := {}
  t : V3 := {}
  deriving DecidableEq, Repr

/-- Where a pose carries a point. -/
def Pose.app (p : Pose) (y : V3) : V3 := (p.r.app y).add p.t

/-- One pose after another. -/
def Pose.comp (a b : Pose) : Pose := { r := a.r.mul b.r, t := a.app b.t }

/-- The rotation about the unit axis `w` by angle `q`. -/
def rotation (w : V3) (q : Rat) : M3 :=
  let sc := sinCos q
  let row := fun (e : V3) => ((e.add (((w.cross e).mul sc.1))).add ((w.cross (w.cross e)).mul (1 - sc.2)))
  ({ r0 := row { x := 1 }, r1 := row { y := 1 }, r2 := row { z := 1 } } : M3).tr

/-! ### Arms (R232) -/

/-- One joint axis: prismatic or revolute, its unit direction and a point of it. -/
structure Axis where
  prism : Bool
  w : V3
  o : V3
  deriving DecidableEq, Repr

/-- The exponential of a joint at position `q`. -/
def Axis.exp (j : Axis) (q : Rat) : Pose :=
  if j.prism then { t := j.w.mul q } else let r := rotation j.w q; { r := r, t := j.o.sub (r.app j.o) }

/-- A joint axis carried by a pose. -/
def Axis.carry (j : Axis) (p : Pose) : Axis := { j with w := p.r.app j.w, o := p.app j.o }

/-- The joints of an arm at given positions, from the pose that carries joint 0: the axes and the poses of the links, both in the cell
frame. -/
def chain : Pose → List (Axis × Rat) → List (Axis × Pose)
  | _, [] => []
  | p, (j, q) :: rest => let t := p.comp (j.exp q); (j.carry p, t) :: chain t rest

/-- The column of the Jacobian of a point for one axis (R232). -/
def Axis.column (j : Axis) (y : V3) : V3 := if j.prism then j.w else j.w.cross (y.sub j.o)

/-- The Jacobian of a point of link `l`, column by column: joints beyond the link do not move it (R232). -/
def jacobian (c : List (Axis × Pose)) (l : Nat) (y : V3) : List V3 :=
  c.zipIdx.map fun e => if e.2 ≤ l then e.1.1.column y else {}

/-! ### Inertia and torques (R231) -/

/-- A twist, or a wrench, about the origin of the cell frame: its angular and its linear part. -/
structure Sp where
  a : V3 := {}
  l : V3 := {}

/-- The sum of two. -/
def Sp.add (x y : Sp) : Sp := { a := x.a.add y.a, l := x.l.add y.l }

/-- A multiple. -/
def Sp.mul (k : Rat) (x : Sp) : Sp := { a := x.a.mul k, l := x.l.mul k }

/-- The product of a twist and a wrench. -/
def Sp.dot (x y : Sp) : Rat := x.a.dot y.a + x.l.dot y.l

/-- A twist seen from a body that moves with twist `v`. -/
def Sp.moved (v x : Sp) : Sp := { a := v.a.cross x.a, l := (v.a.cross x.l).add (v.l.cross x.a) }

/-- A wrench seen from a body that moves with twist `v`. -/
def Sp.pressed (v f : Sp) : Sp := { a := (v.a.cross f.a).add (v.l.cross f.l), l := v.a.cross f.l }

/-- The twist of a joint at unit speed. -/
def Axis.screw (j : Axis) : Sp := if j.prism then { l := j.w } else { a := j.w, l := j.o.cross j.w }

/-- A link at q = 0 in the base frame: its mass, its centre of mass and its inertia about it; and its joint's reflected rotor inertia,
viscous and Coulomb friction (R237). -/
structure Link where
  m : Rat
  c : V3
  i : M3
  rotor : Rat
  visc : Rat
  coul : Rat

/-- The momentum of a link in pose `p` that moves with twist `v`. -/
def Link.momentum (k : Link) (p : Pose) (v : Sp) : Sp :=
  let c := p.app k.c
  let lin := (v.l.add (v.a.cross c)).mul k.m
  { a := (p.r.app (k.i.app (p.r.tr.app v.a))).add (c.cross lin), l := lin }

/-- The wrenches of the links, outward from a body with twist `v` and acceleration `acc`. -/
def wrenches : Sp → Sp → List ((Axis × Pose) × Link × Rat × Rat) → List (Sp × Sp)
  | _, _, [] => []
  | v, acc, (j, k, qd, qdd) :: rest =>
    let s := j.1.screw
    let v' := v.add (s.mul qd)
    let acc' := (acc.add (s.mul qdd)).add (v'.moved (s.mul qd))
    (s, (k.momentum j.2 acc').add (v'.pressed (k.momentum j.2 v'))) :: wrenches v' acc' rest

/-- The torques that hold wrenches, inward. -/
def torquesOf (l : List (Sp × Sp)) : List Rat :=
  (l.foldr (fun e r => let f := r.1.add e.2; (f, e.1.dot f :: r.2)) (({} : Sp), [])).2

/-- The inverse dynamics of an arm without friction and rotors: speeds `v`, accelerations `a`, gravity `g` in the cell frame. -/
def invDyn (c : List (Axis × Pose)) (ls : List Link) (g : V3) (v a : List Rat) : List Rat :=
  torquesOf (wrenches {} { l := g.mul (-1) } (c.zip (ls.zip (v.zip a))))

/-- A number's sign. -/
def ratSign (r : Rat) : Rat := if r < 0 then -1 else if r = 0 then 0 else 1

/-- The joint-space inertia, row by row, with the reflected rotor inertias: symmetric, so its columns are its rows. -/
def inertiaOf (c : List (Axis × Pose)) (ls : List Link) : List (List Rat) :=
  let n := c.length
  ls.zipIdx.map fun k =>
    let unit := (List.range n).map fun i => if i = k.2 then (1 : Rat) else 0
    (invDyn c ls {} (List.replicate n 0) unit).zipIdx.map fun e => if e.2 = k.2 then e.1 + k.1.rotor else e.1

/-- The Coriolis, centrifugal, gravity, viscous and Coulomb torques. -/
def biasOf (c : List (Axis × Pose)) (ls : List Link) (g : V3) (v : List Rat) : List Rat :=
  ((invDyn c ls g v (List.replicate c.length 0)).zip (ls.zip v)).map fun e =>
    e.1 + e.2.1.visc * e.2.2 + e.2.1.coul * ratSign e.2.2

/-! ### Segments (R277) -/

/-- Clamp a parameter of a segment. -/
def clamp01 (s : Rat) : Rat := max 0 (min s 1)

/-- The parameters of the closest points of the segments from `p1` to `p2` and from `q1` to `q2`: for parallel segments those with the
lowest parameter along the first. -/
def closest (p1 p2 q1 q2 : V3) : Rat × Rat :=
  let d1 := p2.sub p1
  let d2 := q2.sub q1
  let r := p1.sub q1
  let a := d1.dot d1
  let e := d2.dot d2
  let b := d1.dot d2
  let c := d1.dot r
  let f := d2.dot r
  let den := a * e - b * b
  if a = 0 then (0, if e = 0 then 0 else clamp01 (f / e))
  else if e = 0 then (clamp01 (-c / a), 0)
  else if den = 0 then
    let s := clamp01 (min (-c / a) ((b - c) / a))
    (s, clamp01 ((b * s + f) / e))
  else
    let s := clamp01 ((b * f - c * e) / den)
    let t := (b * s + f) / e
    if t < 0 then (clamp01 (-c / a), 0) else if 1 < t then (clamp01 ((b - c) / a), 1) else (s, t)

/-- The point of a segment at a parameter. -/
def between (p1 p2 : V3) (s : Rat) : V3 := p1.add ((p2.sub p1).mul s)

end Sys2Proof.Machine
end

