-- ==== Sys2Proof/Machine/Ecc.lean ====
section
/-! DEFINITION. Words with wrong bits: where they stand, and what a read of a Tiller's or a Granary word finds (R178, R350). -/
namespace Sys2Proof.Machine

/-- Tiller `n`. -/
def State.til (s : State) (n : Nat) : Tiller := Tab.get (fun _ => {}) s.tl n

/-- Change Tiller `n`. -/
def State.updTil (s : State) (n : Nat) (f : Tiller → Tiller) : State :=
  { s with tl := Tab.upd (fun _ => {}) s.tl n f }

/-- A fatal memory error: record and escalation. -/
def State.eccFatal (s : State) (code : Nat) (inst : Option Nat) (mask : Nat) (glob injected : Bool) : State :=
  (s.post code .fatal inst [] true injected).fatal mask glob code inst

/-- A stored word is hit: it holds wrong bits until it is read or written (R178, R246, R350). -/
def State.strike (s : State) (h : Hit) : State :=
  match h.mem with
  | .tiller n m a => s.updTil n fun t => { t with flips := t.flips ++ [(m.val, a, h.uncorrectable)] }
  | _ => { s with flips := s.flips ++ [h] }

/-- What the bits of a word are worth to a read: none wrong, one, more. -/
def worst (l : List Bool) : Option Bool := if l.isEmpty then none else some (decide (1 < l.length) || l.any id)

/-- A word of a Tiller is written, or corrected: its check bits are right again. -/
def Tiller.heal (t : Tiller) (mem a : Nat) : Tiller :=
  { t with flips := t.flips.filter fun e => !(e.1 == mem && e.2.1 == a) }

/-- What a read of a word of Tiller `t` finds: nothing, a single-bit error, or an uncorrectable one. -/
def Tiller.found (t : Tiller) (mem a : Nat) : Option Bool :=
  worst ((t.flips.filter fun e => e.1 == mem && e.2.1 == a).map fun e => e.2.2)

/-- An uncorrectable word of a Tiller memory: it reads as 0 from now on. -/
def Tiller.zero (t : Tiller) (mem a : Nat) : Tiller :=
  let z : Tab Word → Tab Word := fun t => Tab.put (fun _ => 0) t a 0
  match mem with
  | 0 => { t with prog := z t.prog }
  | 1 => { t with x := z t.x }
  | 2 => { t with y := z t.y }
  | 3 => { t with win0 := z t.win0 }
  | 4 => { t with win1 := z t.win1 }
  | _ => { t with y127 := 0 }

/-- The injection of a detector that is evaluated only where none acted before it. -/
def State.injectUnless (s : State) (done : Bool) (idx inst : Nat) : Option (List Word) × State :=
  if done then (none, s) else s.inject idx inst

/-- A read of a word of Tiller `n` (R178), and whether it was uncorrectable. -/
def State.tillerRead (s : State) (n mem a : Nat) : Bool × State :=
  let found := (s.til n).found mem a
  let (u, s) := s.inject (448 + n) n
  let (c, s) := s.injectUnless u.isSome (512 + n) n
  if u.isSome || (c.isNone && found == some true) then
    (true, (s.updTil n fun t => (t.zero mem a).heal mem a).eccFatal Ev.tlEccUncorr (some n) (s.groupMaskOf n) false u.isSome)
  else if c.isSome || found.isSome then
    (false, ((s.updTil n fun t => t.heal mem a).inc R.TL_COUNT_ECC_CORR n).postOnce Ev.tlEccCorr .notice (some n) [] false c.isSome)
  else (false, s)

/-- What a read of a protected word outside the Tillers finds. -/
def State.found (s : State) (m : ScrubMem) : Option Bool := worst ((s.flips.filter fun h => h.mem == m).map fun h => h.uncorrectable)

/-- A word outside the Tillers is written, or corrected. -/
def State.heal (s : State) (m : ScrubMem) : State := { s with flips := s.flips.filter fun h => !(h.mem == m) }

/-- What a read of a word finds (none: no error; else whether it is uncorrectable), under an injection whose PARAM0 selects the event
(R477), and whether it was injected. The read sets the word right. -/
def State.eccFound (s : State) (idx inst : Nat) (m : ScrubMem) : Option Bool × Bool × State :=
  let found := s.found m
  match (s.heal m).inject idx inst with
  | (some p, s) => (some (decide (param p 0 ≠ 0)), true, s)
  | (none, s) => (found, false, s)

/-- A read of Granary word `w`, and whether it was uncorrectable; the record names the region. An uncorrectable word reads as an open
value from now on. -/
def State.granaryRead (s : State) (w : Nat) : Bool × State :=
  let found := s.found (.granary w)
  let (j, s) := s.inject 1004 noInst
  let region := match j with | some p => param p 1 | none => (s.regionOf w).getD 0xFFFF
  match (match j with | some p => some (decide (param p 0 ≠ 0)) | none => found) with
  | none => (false, s)
  | some false => (false, (s.heal (.granary w)).postOnce Ev.grEccCorr .notice (some region) [] false j.isSome)
  | some true =>
    let s : State := { s with gr := { s.gr with front := Tab.put (fun _ => 0) s.gr.front w (Config.badWord s.free) } }
    (true, (s.draw.heal (.granary w)).eccFatal Ev.grEccUncorr (some region) 0xFF true j.isSome)

end Sys2Proof.Machine
end

