-- ==== Sys2Proof/Machine/Tiller.lean ====
section
/-! DEFINITION. The Tiller slices: memories, accumulators and flags, and the meaning of each instruction but END (chapter
06). -/
namespace Sys2Proof.Machine

/-- A word of X. -/
def Tiller.rdX (t : Tiller) (a : Nat) : Word := Tab.get (fun _ => 0) t.x a

/-- Write a word of X. -/
def Tiller.wrX (t : Tiller) (a : Nat) (v : Word) : Tiller := { t with x := Tab.put (fun _ => 0) t.x a v }.heal 1 a

/-- The window bank in use. -/
def Tiller.win (t : Tiller) : Tab Word := if t.bank then t.win1 else t.win0

/-- The standby window bank. -/
def Tiller.standby (t : Tiller) : Tab Word := if t.bank then t.win0 else t.win1

/-- Write a word of the standby window bank. -/
def Tiller.wrStandby (t : Tiller) (a : Nat) (v : Word) : Tiller :=
  if t.bank then { t with win0 := Tab.put (fun _ => 0) t.win0 a v }.heal 3 a
  else { t with win1 := Tab.put (fun _ => 0) t.win1 a v }.heal 4 a

/-- A word of Y: the window, its status word, or the plain part (R158). -/
def Tiller.rdY (t : Tiller) (a : Nat) : Word :=
  if a < 127 then Tab.get (fun _ => 0) t.win a
  else if a = 127 then t.y127
  else Tab.get (fun _ => 0) t.y a

/-- A word of the space an instruction selects: X, or Y with SPACE = 1 (R167). -/
def Tiller.rd (t : Tiller) (space : Bool) (a : Nat) : Word := if space then t.rdY a else t.rdX a

/-- Write a word of the space an instruction selects. -/
def Tiller.wr (t : Tiller) (space : Bool) (a : Nat) (v : Word) : Tiller :=
  if space then { t with y := Tab.put (fun _ => 0) t.y a v }.heal 2 a else t.wrX a v

/-- The memory that holds word `a` of the space an instruction selects. -/
def Tiller.memOf (t : Tiller) (space : Bool) (a : Nat) : Nat :=
  if !space then 1 else if a < 127 then (if t.bank then 4 else 3) else if a = 127 then 5 else 2

/-- An accumulator. -/
def Acc4.get (a : Acc4) (i : Nat) : BitVec 72 :=
  match i with | 0 => a.a0 | 1 => a.a1 | 2 => a.a2 | _ => a.a3

/-- Replace an accumulator. -/
def Acc4.set (a : Acc4) (i : Nat) (v : BitVec 72) : Acc4 :=
  match i with | 0 => { a with a0 := v } | 1 => { a with a1 := v } | 2 => { a with a2 := v } | _ => { a with a3 := v }

/-- A lane flag. -/
def Flag4.get (f : Flag4) (i : Nat) : Bool :=
  match i with | 0 => f.l0 | 1 => f.l1 | 2 => f.l2 | _ => f.l3

/-- Replace a lane flag. -/
def Flag4.set (f : Flag4) (i : Nat) (v : Bool) : Flag4 :=
  match i with | 0 => { f with l0 := v } | 1 => { f with l1 := v } | 2 => { f with l2 := v } | _ => { f with l3 := v }

/-- Set accumulator `i` to an integer of 72 bits. -/
def Tiller.setAcc (t : Tiller) (i : Nat) (v : Int) : Tiller := { t with acc := t.acc.set i (BitVec.ofInt 72 v) }

/-- Accumulator `i` as an integer. -/
def Tiller.accI (t : Tiller) (i : Nat) : Int := (t.acc.get i).toInt

/-- The lanes that LANES selects. -/
def laneList (lanes : BitVec 4) : List Nat := (List.range 4).filter fun i => lanes.getLsbD i

/-- COND holds in a lane (R166). -/
def Tiller.cond (t : Tiller) (c : BitVec 3) (lane : Nat) : Bool :=
  match c.toNat with
  | 0 => true
  | 1 => t.t
  | 2 => !t.t
  | 3 => !t.flg.get lane
  | _ => t.flg.get lane

/-- A 72-bit result leaves the range of R162. -/
def overflows (v : Int) : Bool := decide (v ≠ clampInt 72 v)

/-- The word that a store of accumulator value `a` with right shift `sh` makes, and whether it saturates (R164). -/
def storeWord (a : Int) (sh : Nat) : Word × Bool :=
  let r := if sh = 0 then a else (a + 2 ^ (sh - 1)) / 2 ^ sh
  (BitVec.ofInt 32 (clampInt 32 r), decide (r ≠ clampInt 32 r))

/-- A fault escalation with the reaction that a joint's code selects: 1 SS2, 2 SS1, others none (R187). -/
def reactOf (code : Nat) : React := if code = 1 then .ss2 else if code = 2 then .ss1 else .none

/-- Apply a joint's configured reaction: event only for code 0, else a fault escalation on its arm group (R186, R187). -/
def State.jointReact (s : State) (n code cause ev : Nat) : State :=
  if code = 0 then s else s.fault (s.groupMaskOf n) (reactOf code) ev (some n) cause

/-- An accumulation left the 72-bit range: ACC_OVF, TL_ACC_OVF and OVF_REACT (R162, R187). -/
def State.accOvf (s : State) (n : Nat) (injected : Bool) : State :=
  let s := s.raiseBit R.TL_STAT_ACC_OVF n
  let code := s.get R.TL_REACT_CFG_OVF_REACT n
  let s := s.post Ev.tlAccOvf .fault (some n) [] (decide (code ≠ 0)) injected
  s.jointReact n code 4 Ev.tlAccOvf

/-- The overflow detector of one accumulating instruction of Tiller `n` (injection index 384 + n). -/
def State.ovfTest (s : State) (n : Nat) (ovf : Bool) : State :=
  match s.inject (384 + n) n with
  | (some _, s) => s.accOvf n true
  | (none, s) => if ovf then s.accOvf n false else s

/-- Move on to the next instruction. -/
def State.nextInsn (s : State) (n : Nat) : State := s.updTil n fun t => { t with pc := t.pc + 1 }

/-- An instruction of Tiller `n` is fetched and reads its words (R178): an instruction that cannot be corrected is a NOP. -/
def State.fetched (s : State) (n : Nat) (reads : List (Bool × Nat)) (k : State → State) : State :=
  match s.tillerRead n 0 (s.til n).pc with
  | (true, s) => s.nextInsn n
  | (false, s) => k (reads.foldl (fun s r => (s.tillerRead n ((s.til n).memOf r.1 r.2) r.2).2) s)

/-- The words of a load: one, or an aligned run of four (R167). -/
def loadReads (space : Bool) (addr : Nat) (quad : Bool) : List (Bool × Nat) :=
  (List.range (if quad then 4 else 1)).map fun i => (space, addr + i)

/-- Set lane `i` of Tiller `t` to a 72-bit result that saturates (R162). -/
def Tiller.accumulate (t : Tiller) (i : Nat) (v : Int) : Tiller := t.setAcc i (clampInt 72 v)

/-- The lanes of an instruction in which its condition holds. -/
def Tiller.active (t : Tiller) (lanes : BitVec 4) (c : BitVec 3) : List Nat := (laneList lanes).filter (t.cond c)

/-- One four-lane multiply: `f` combines the accumulator and the exact product in each active lane (R162, R167). -/
def State.mulLanes (s : State) (n : Nat) (lanes : BitVec 4) (c : BitVec 3) (xa : BitVec 9) (yq : BitVec 7)
    (f : Int → Int → Int) : State :=
  let t := s.til n
  let val := fun i => f (t.accI i) ((t.rdX xa.toNat).toInt * (t.rdY (4 * yq.toNat + i)).toInt)
  let act := t.active lanes c
  let s := s.updTil n fun u => act.foldl (fun u i => u.accumulate i (val i)) u
  (s.ovfTest n (act.any fun i => overflows (val i))).nextInsn n

/-- The outcome of an instruction that is well formed, a fault for one that the image loader refuses (R169). -/
def checked (i : Instr) (s : State) : Out := if i.wf then .next s else .fault .illegalTillerInsn

/-- MPY4 (R167). -/
def execMpy4 (tl : Fin 64) (lanes : BitVec 4) (cond : BitVec 3) (xa : BitVec 9) (yq : BitVec 7) (s : State) : Out :=
  checked (.mpy4 tl lanes cond xa yq)
    (s.fetched tl ((false, xa.toNat) :: loadReads true (4 * yq.toNat) true) fun s => s.mulLanes tl lanes cond xa yq fun _ p => p)

/-- MAC4 (R162, R167). -/
def execMac4 (tl : Fin 64) (lanes : BitVec 4) (cond : BitVec 3) (xa : BitVec 9) (yq : BitVec 7) (s : State) : Out :=
  checked (.mac4 tl lanes cond xa yq)
    (s.fetched tl ((false, xa.toNat) :: loadReads true (4 * yq.toNat) true) fun s => s.mulLanes tl lanes cond xa yq fun a p => a + p)

/-- MSU4 (R162, R167). -/
def execMsu4 (tl : Fin 64) (lanes : BitVec 4) (cond : BitVec 3) (xa : BitVec 9) (yq : BitVec 7) (s : State) : Out :=
  checked (.msu4 tl lanes cond xa yq)
    (s.fetched tl ((false, xa.toNat) :: loadReads true (4 * yq.toNat) true) fun s => s.mulLanes tl lanes cond xa yq fun a p => a - p)

/-- The effect of FTAP: accumulate X[XA] × Y[YA], then X[XA + 1] takes the value X[XA] held before (R160, R167). -/
def State.ftap (s : State) (n : Nat) (lane : BitVec 2) (sub : Bool) (xa ya : BitVec 9) : State :=
  let t := s.til n
  let x := t.rdX xa.toNat
  let p := x.toInt * (t.rdY ya.toNat).toInt
  let v := if sub then t.accI lane.toNat - p else t.accI lane.toNat + p
  let s := s.updTil n fun u => (u.accumulate lane.toNat v).wrX (xa.toNat + 1) x
  (s.ovfTest n (overflows v)).nextInsn n

/-- FTAP (R167). -/
def execFtap (tl : Fin 64) (lane : BitVec 2) (sub : Bool) (xa ya : BitVec 9) (s : State) : Out :=
  checked (.ftap tl lane sub xa ya) (s.fetched tl [(false, xa.toNat), (true, ya.toNat)] fun s => s.ftap tl lane sub xa ya)

/-- The address that lane `i` of a load or store uses: consecutive words for a quad (R167). -/
def laneAddr (addr : BitVec 9) (quad : Bool) (i : Nat) : Nat := if quad then addr.toNat + i else addr.toNat

/-- The effect of LDA: each active lane takes its word, shifted left (R163, R167). -/
def State.lda (s : State) (n : Nat) (lanes : BitVec 4) (c : BitVec 3) (space : Bool) (addr : BitVec 9)
    (shl : BitVec 6) (quad : Bool) : State :=
  let t := s.til n
  let val := fun i => (t.rd space (laneAddr addr quad i)).toInt * 2 ^ shl.toNat
  (s.updTil n fun u => (t.active lanes c).foldl (fun u i => u.setAcc i (val i)) u).nextInsn n

/-- LDA (R163, R167). -/
def execLda (tl : Fin 64) (lanes : BitVec 4) (cond : BitVec 3) (space : Bool) (addr : BitVec 9) (shl : BitVec 6)
    (quad : Bool) (s : State) : Out :=
  checked (.lda tl lanes cond space addr shl quad)
    (s.fetched tl (loadReads space addr.toNat quad) fun s => s.lda tl lanes cond space addr shl quad)

/-- Saturated stores: SAT_ST, SAT_COUNT, and TL_STORE_SAT once in a window (R164). -/
def State.storeSat (s : State) (n k : Nat) (injected : Bool) : State :=
  if k = 0 then s
  else
    let s := (s.raiseBit R.TL_STAT_SAT_ST n).add R.TL_COUNT_SAT_COUNT n k
    let s := s.updTil n fun t => { t with stSat := true }
    s.postOnce Ev.tlStoreSat .notice (some n) [] false injected

/-- The saturation detector of one ST that saturated in `k` lanes (injection index 320 + n). -/
def State.storeTest (s : State) (n k : Nat) : State :=
  match s.inject (320 + n) n with
  | (some _, s) => s.storeSat n (max 1 k) true
  | (none, s) => s.storeSat n k false

/-- The effect of ST: each active lane's accumulator, rounded half up and saturated, goes to its word (R164, R167). -/
def State.st (s : State) (n : Nat) (lanes : BitVec 4) (c : BitVec 3) (space : Bool) (addr : BitVec 9)
    (shr : BitVec 6) (quad : Bool) : State :=
  let t := s.til n
  let act := t.active lanes c
  let val := fun i => storeWord (t.accI i) shr.toNat
  let s := s.updTil n fun u => act.foldl (fun u i => u.wr space (laneAddr addr quad i) (val i).1) u
  (s.storeTest n (act.filter fun i => (val i).2).length).nextInsn n

/-- ST (R164, R167). -/
def execSt (tl : Fin 64) (lanes : BitVec 4) (cond : BitVec 3) (space : Bool) (addr : BitVec 9) (shr : BitVec 6)
    (quad : Bool) (s : State) : Out :=
  checked (.st tl lanes cond space addr shr quad) (s.fetched tl [] fun s => s.st tl lanes cond space addr shr quad)

/-- The effect of ADDA and SUBA: `f` combines the two accumulators, saturating (R162, R167). -/
def State.accOp (s : State) (n : Nat) (dst src : BitVec 2) (c : BitVec 3) (f : Int → Int → Int) : State :=
  let t := s.til n
  if t.cond c dst.toNat then
    let v := f (t.accI dst.toNat) (t.accI src.toNat)
    ((s.updTil n fun u => u.accumulate dst.toNat v).ovfTest n (overflows v)).nextInsn n
  else s.nextInsn n

/-- ADDA (R162, R167). -/
def execAdda (tl : Fin 64) (dst src : BitVec 2) (cond : BitVec 3) (s : State) : Out :=
  checked (.adda tl dst src cond) (s.fetched tl [] fun s => s.accOp tl dst src cond fun a b => a + b)

/-- SUBA (R162, R167). -/
def execSuba (tl : Fin 64) (dst src : BitVec 2) (cond : BitVec 3) (s : State) : Out :=
  checked (.suba tl dst src cond) (s.fetched tl [] fun s => s.accOp tl dst src cond fun a b => a - b)

/-- The effect of MOVA. -/
def State.mova (s : State) (n : Nat) (dst src : BitVec 2) (c : BitVec 3) : State :=
  (s.updTil n fun t => if t.cond c dst.toNat then { t with acc := t.acc.set dst.toNat (t.acc.get src.toNat) } else t).nextInsn n

/-- MOVA (R167). -/
def execMova (tl : Fin 64) (dst src : BitVec 2) (cond : BitVec 3) (s : State) : Out :=
  checked (.mova tl dst src cond) (s.fetched tl [] fun s => s.mova tl dst src cond)

/-- One lane of CLAMP: A := min(max(A, lo), hi), and the flag says whether A changed (R165). -/
def Tiller.clampLane (t : Tiller) (lo hi : Int) (i : Nat) : Tiller :=
  let v := min (max (t.accI i) lo) hi
  { t.setAcc i v with flg := t.flg.set i (decide (v ≠ t.accI i)) }

/-- The effect of CLAMP. -/
def State.clamp (s : State) (n : Nat) (lanes : BitVec 4) (ya : BitVec 9) (shl : BitVec 6) : State :=
  let t := s.til n
  let lo := (t.rdY ya.toNat).toInt * 2 ^ shl.toNat
  let hi := (t.rdY (ya.toNat + 1)).toInt * 2 ^ shl.toNat
  (s.updTil n fun u => (laneList lanes).foldl (fun u i => u.clampLane lo hi i) u).nextInsn n

/-- CLAMP (R165, R167). -/
def execClamp (tl : Fin 64) (lanes : BitVec 4) (ya : BitVec 9) (shl : BitVec 6) (s : State) : Out :=
  checked (.clamp tl lanes ya shl)
    (s.fetched tl [(true, ya.toNat), (true, ya.toNat + 1)] fun s => s.clamp tl lanes ya shl)

/-- The effect of TST: T takes a bit of a word, inverted with INV (R167). -/
def State.tst (s : State) (n : Nat) (space : Bool) (addr : BitVec 9) (bit : BitVec 5) (inv : Bool) : State :=
  (s.updTil n fun t => { t with t := (t.rd space addr.toNat).getLsbD bit.toNat != inv }).nextInsn n

/-- TST (R167). -/
def execTst (tl : Fin 64) (space : Bool) (addr : BitVec 9) (bit : BitVec 5) (inv : Bool) (s : State) : Out :=
  checked (.tst tl space addr bit inv) (s.fetched tl [(space, addr.toNat)] fun s => s.tst tl space addr bit inv)

/-- The effect of CLR: accumulators and flags of the selected lanes become 0 (R167). -/
def State.clr (s : State) (n : Nat) (lanes : BitVec 4) : State :=
  (s.updTil n fun t =>
    (laneList lanes).foldl (fun u i => { u.setAcc i 0 with flg := u.flg.set i false }) t).nextInsn n

/-- CLR (R167). -/
def execClr (tl : Fin 64) (lanes : BitVec 4) (s : State) : Out := checked (.clr tl lanes) (s.fetched tl [] fun s => s.clr tl lanes)

/-- The Tiller's NOP has no effect but its time (R167). -/
def execTlNop (tl : Fin 64) (s : State) : Out := .next (s.fetched tl [] fun s => s.nextInsn tl)

/-- An external write of X: held until END while a run is in progress (R161), and then counted for the move-engine
channel it comes from. -/
def State.xWrite (s : State) (n a : Nat) (v : Word) (fromMe : Option Nat) : State :=
  if (s.til n).running then
    let s := s.updTil n fun t => { t with held := t.held ++ [{ addr := a, val := v }] }
    match fromMe with
    | some c => s.inc R.ME_COUNT_HELD c
    | none => s
  else s.updTil n fun t => t.wrX a v

/-- Serve the external accesses held through a run (R161). -/
def Tiller.serveHeld (t : Tiller) : Tiller :=
  { t.held.foldl (fun u h => u.wrX h.addr h.val) t with held := [] }

end Sys2Proof.Machine
end

