-- ==== Sys2Proof/Machine/Motion.lean ====
section
/-! DEFINITION. Profile generators, step generators, axis inputs and homing (chapter 08), but for their descriptors. -/
namespace Sys2Proof.Machine

/-- Generator `g`. -/
def State.gen (s : State) (g : Nat) : Gen := Tab.get (fun _ => {}) s.mp.gen g

/-- Change generator `g`. -/
def State.updGen (s : State) (g : Nat) (f : Gen → Gen) : State :=
  { s with mp := { s.mp with gen := Tab.upd (fun _ => {}) s.mp.gen g f } }

/-- Step generator `k`. -/
def State.stepGen (s : State) (k : Nat) : StepGen := Tab.get (fun _ => {}) s.mp.st k

/-- Change step generator `k`. -/
def State.updStep (s : State) (k : Nat) (f : StepGen → StepGen) : State :=
  { s with mp := { s.mp with st := Tab.upd (fun _ => {}) s.mp.st k f } }

/-- Feedback channel `c`. -/
def State.chan (s : State) (c : Nat) : Chan := Tab.get (fun _ => {}) s.fb.chan c

/-- Change feedback channel `c`. -/
def State.updChan (s : State) (c : Nat) (f : Chan → Chan) : State :=
  { s with fb := { s.fb with chan := Tab.upd (fun _ => {}) s.fb.chan c f } }

/-- Channel `c` writes its record to Tiller `n` (R130). -/
def State.chanFeeds (s : State) (c n : Nat) : Bool :=
  decide (s.get R.FB_CFG_KIND c ≠ 0) && s.bit R.FB_CFG_TL_EN c && decide (s.get R.FB_CFG_TILLER c = n)

/-- The lowest-numbered feedback channel that writes to Tiller `n` (R198). -/
def State.chanOf (s : State) (n : Nat) : Option Nat := (List.range 64).find? fun c => s.chanFeeds c n

/-- JSTATE of Tiller `n`: 0 OFF, 1 STANDBY, 2 ACTIVE, 3 STOPPING, 4 HELD, 5 TORQUE_OFF, 6 LOST. -/
def State.jstate (s : State) (n : Nat) : Nat := s.get R.TL_JSTAT_JSTATE n

/-- STATE of generator `g`: 0 OFF, 1 IDLE, 2 PLANNING, 3 MOVING, 4 ABORTING, 5 HOMING, 6 WAIT_TRIGGER. -/
def State.genState (s : State) (g : Nat) : Nat := s.get R.MP_STAT_STATE g

/-- Set STATE of generator `g`. -/
def State.setGen (s : State) (g st : Nat) : State := s.set R.MP_STAT_STATE g st

/-- The cycle length in ns. -/
def State.cycleNs (s : State) : Nat := s.get R.CB_CYCLE_NS

/-- The nominal boundary of cycle `k` as a count of nanoseconds (R40). -/
def State.boundaryNs (s : State) (k : Nat) : Nat := nsOf s.grid.epSec s.grid.epNs + k * s.cycleNs

/-- Ticks from now to the first tick at or past a time, at the present FRAC (R40, R45). -/
def State.ticksTo (s : State) (t : Nat) : Nat :=
  let left : Int := ((t : Int) - s.now) * 2 ^ 32 - s.tb.a.sub
  let rate : Int := 8 * 2 ^ 32 + s.geti R.TB_ADDEND_FRAC
  if left ≤ 0 then 0 else ((left + rate - 1) / rate).toNat

/-! ### Limits, scaling and publication -/

/-- A limit field in counts: units of 2^UNIT_SHL (R198). -/
def State.units (s : State) (g v : Nat) : Rat := (v * 2 ^ s.get R.MP_CFG_UNIT_SHL g : Nat)

/-- The limits in force of generator `g` (R203). -/
def State.genLim (s : State) (g : Nat) : Lim :=
  { v := s.units g (s.gen g).vmax, a := s.units g (s.gen g).amax, d := s.units g (s.gen g).dmax,
    j := s.units g (s.gen g).jmax }

/-- The limits of an abort: DEC_ABORT, or DMAX when a commit raised it above DEC_ABORT (R204). -/
def State.abortLim (s : State) (g : Nat) : Lim :=
  { s.genLim g with d := s.units g (max (s.get R.MP_DEC_ABORT g) (s.gen g).dmax) }

/-- A Q48.16 number in counts. -/
def q16 (v : Int) : Rat := (v : Rat) / 65536

/-- The limits of a normalised profile over the members' distances (R207); `f` gives a member's own limits. -/
def normLim (f : Nat → Lim) (dists : List (Nat × Int)) : Option Lim :=
  (dists.filter fun m => decide (m.2 ≠ 0)).foldl (fun acc m =>
    let d := ratAbs (q16 m.2)
    let l := f m.1
    let n : Lim := { v := l.v / d, a := l.a / d, d := l.d / d, j := l.j / d }
    some (match acc with
      | none => n
      | some b => { v := min b.v n.v, a := min b.a n.a, d := min b.d n.d, j := min b.j n.j })) none

/-- The distance of member `g` of a move, in counts. -/
def distOf (dists : List (Nat × Int)) (g : Nat) : Rat := q16 (((dists.find? fun m => m.1 == g).map fun m => m.2).getD 0)

/-- The speed-scaling factor of generator `g`, unsigned Q1.15 (R206, R236): CE's output in force for its arm group; 1.0 for
a step axis, without SCALE_EN, outside an arm group, or with CE off. -/
def State.scaleOf (s : State) (g : Nat) : Nat :=
  if 64 ≤ g ∨ !s.bit R.MP_CFG_SCALE_EN g ∨ !s.bit R.SV_CFG_EN 8 then 0x8000
  else
    match s.groupOf g with
    | some a => (s.gr1 (s.get R.SV_OUT_ADDR_ADDR 8 + a)).toNat % 65536
    | none => 0x8000

/-- Put the sample of generator `g` into its reference record (R199). -/
def State.publishGen (s : State) (g : Nat) : State :=
  let x := s.gen g
  let s := (s.set64 R.MP_POS_LO R.MP_POS_HI g x.pos).set64 R.MP_VEL_LO R.MP_VEL_HI g x.vel
  let s := (s.set64 R.MP_ACC_LO R.MP_ACC_HI g x.acc).set64 R.MP_TGT_LO R.MP_TGT_HI g x.tgt
  s.set R.MP_STAT_QUEUE g x.queue.length

/-- The state of generator `g` in its profile, in counts: its plan at its profile time, else its sample. -/
def State.profKin (s : State) (g : Nat) : Kin :=
  let x := s.gen g
  match x.plan with
  | some pl => pl.at x.ptime
  | none => { p := q16 x.pos, v := 0, a := 0 }

/-- The motion of generator `g` runs in real time: an abort, or the ramp of a homing that failed (R204, R206). -/
def State.realTime (s : State) (g : Nat) : Bool := decide (s.genState g = 4) || decide ((s.gen g).home = .fail)

/-- The present state of generator `g` in counts: that of its profile with the speed scaling applied (R206). -/
def State.genKin (s : State) (g : Nat) : Kin :=
  let k := s.profKin g
  let f : Rat := if s.realTime g then 1 else (s.scaleOf g : Rat) / 32768
  { p := k.p, v := k.v * f, a := k.a * f * f }

/-- Generator `g` is at rest: IDLE without speed or acceleration, and for a step axis without pending steps (R201). -/
def State.genAtRest (s : State) (g : Nat) : Bool :=
  decide (s.genState g = 1) && decide ((s.gen g).vel = 0) && decide ((s.gen g).acc = 0)
    && (decide (g < 64) || (s.stepGen (g - 64)).pend.isEmpty)

/-! ### Starting and ending plans -/

/-- Give generator `g` a plan whose profile time 0 is the boundary of cycle `start`. -/
def State.givePlan (s : State) (g start : Nat) (pl : Plan) (ptime : Nat := 0) : State :=
  s.updGen g fun x => { x with plan := some pl, ptime := ptime, start := start }

/-- The plan of a segment for member `g`, from rest at a position (R200, R207). -/
def State.segPlanFrom (s : State) (g : Nat) (pos : Int) (seg : Seg) : Plan :=
  { p0 := q16 pos, v0 := 0, a0 := 0, target := some seg.target
    phases := match normLim s.genLim seg.dists with
      | none => []
      | some l => (restPhases l 1).map fun f => (f.1, f.2 * distOf seg.dists g) }

/-- The plan of a segment for member `g`, from its present position at rest. -/
def State.segPlan (s : State) (g : Nat) (seg : Seg) : Plan := s.segPlanFrom g (s.gen g).pos seg

/-- The plans of queued segments from rest at a position, up to one that waits for a trigger (R202, R213). -/
def State.queuedPlans (s : State) (g : Nat) : Int → List Seg → List Plan
  | _, [] => []
  | pos, seg :: rest => if seg.trigger then [] else s.segPlanFrom g pos seg :: s.queuedPlans g seg.target rest

/-- What generator `g` publishes for the engines with its sample of the boundary of the cycle in progress (R229). -/
def State.genView (s : State) (g : Nat) : GenView :=
  let x := s.gen g
  { plans := match x.plan with
      | some pl => pl :: s.queuedPlans g (pl.target.getD x.pos) (if pl.target.isSome then x.queue else [])
      | none => []
    theta := x.ptime, lag := (x.start - s.cycle) * s.cycleNs, real := s.realTime g, rest := x.pos }

/-- Start a segment whose profile time 0 is the boundary of cycle `start`. -/
def State.startSeg (s : State) (g start : Nat) (seg : Seg) (ptime : Nat := 0) : State :=
  let s := s.givePlan g start (s.segPlan g seg) ptime
  let s := s.updGen g fun x => { x with cur := some seg, tgt := seg.target }
  (s.setBit R.MP_STAT_LIMIT_DEFERRED g false).setGen g 3

/-- The phases of a stop of generator `g` from state `k` with deceleration `d`. -/
def State.stopFrom (s : State) (g : Nat) (k : Kin) (d : Rat) : List (Nat × Rat) := stopPhases k.v k.a d (s.genLim g).j

/-- Give generator `g` the ramp of `phases` from state `k`, from the boundary of its last sample on: the present one while this cycle's
sample is not taken (R199, R204). The position at rest becomes the target. -/
def State.giveStop (s : State) (g : Nat) (k : Kin) (phases : List (Nat × Rat)) : State :=
  let stop := roundRat ((k.run phases).p * 65536)
  let start := if (s.gen g).sampled = some s.cycle then s.cycle + 1 else s.cycle
  let s := s.givePlan g start { p0 := k.p, v0 := k.v, a0 := k.a, phases := phases, target := some stop }
  s.updGen g fun x => { x with tgt := stop }

/-- A homing slows down at HOME_DEC within its profile, whose time the speed scaling still advances (R206, R219). -/
def State.homeSlow (s : State) (g : Nat) : State :=
  let k := s.profKin g
  s.giveStop g k (s.stopFrom g k (s.units g (s.get R.MP_HOME_DEC g)))

/-- Discard the moves of generator `g`: each with COMPLETE_AT_END completes with ABORTED (R201, R202). -/
def State.dropMoves (s : State) (g : Nat) : State :=
  let x := s.gen g
  let s := (x.cur.toList ++ x.queue).foldl (fun s m => s.complete3 m.desc { reason := 0x08 }) s
  let s := s.updGen g fun x => { x with cur := none, queue := [], trigLatched := false }
  s.set R.MP_STAT_QUEUE g 0

/-- Limits kept for the end of a move come into force (R203). -/
def State.settleLimits (s : State) (g : Nat) : State :=
  s.updGen g fun x =>
    match x.limLater with
    | some (d, j) => { x with dmax := d, jmax := j, limLater := none }
    | none => x

/-! ### Aborts (R204, R205, R208) -/

/-- The causes in the order of R205: a later one never replaces an earlier one of the list. -/
def causeOrder : List Nat := [7, 6, 2, 4, 3, 5, 8, 1]

/-- Record an abort's cause and count it. -/
def State.abortRecord (s : State) (g cause : Nat) (culprit : Option Nat) : State :=
  ((s.set R.MP_STAT_CAUSE g cause).inc R.MP_COUNT_ABORTS g).updGen g fun x => { x with causeBy := culprit }

/-- A failing homing decelerates at HOME_DEC, with the reason it will complete with (R221). -/
def State.homeFail (s : State) (g reason : Nat) : State :=
  if (s.gen g).home = .fail ∨ (s.gen g).home = .none then s
  else
    let s := (s.setBit R.MP_STAT_HOMED g false).abortRecord g 5 none
    let k := s.genKin g
    let s := s.giveStop g k (s.stopFrom g k (s.units g (s.get R.MP_HOME_DEC g)))
    s.updGen g fun x => { x with home := .fail, homeFail := reason }

/-- Start the abort ramp of one generator that moves, waits or plans; `dists` are the distances of its move (R204, R208). -/
def State.abortRamp (s : State) (g cause : Nat) (dists : List (Nat × Int)) (culprit : Option Nat) : State :=
  let waits := decide (s.genState g = 2 ∨ s.genState g = 6)
  let k := s.genKin g
  let d := distOf dists g
  let s := (s.dropMoves g).abortRecord g cause culprit
  if waits then
    (s.updGen g fun x => { x with tgt := x.pos, plan := none }).setGen g 1
  else
    let phases :=
      if d = 0 then []
      else
        match normLim s.abortLim dists with
        | some l => (stopPhases (k.v / d) (k.a / d) l.d l.j).map fun f => (f.1, f.2 * d)
        | none => []
    (s.giveStop g k phases).setGen g 4

/-- A cause listed higher in R205 replaces that of an abort that runs. -/
def State.higherCause (s : State) (g cause : Nat) : State :=
  if causeOrder.idxOf cause < causeOrder.idxOf (s.get R.MP_STAT_CAUSE g) then s.set R.MP_STAT_CAUSE g cause else s

/-- The queue of generator `g` is discarded, with its segments on the other members of their group (R202). -/
def State.dropQueue (s : State) (g : Nat) : State :=
  let mates := ((s.gen g).queue.flatMap fun m => if m.group.isSome then m.dists.map fun e => e.1 else []).eraseDups
  (mates.filter fun m => decide (m ≠ g)).foldl
    (fun t m => if t.genState m = 4 then t.dropMoves m else t) (s.dropMoves g)

/-- One generator takes an abort: nothing at rest; a running abort keeps its ramp, takes a cause listed higher and loses its queue; a
homing fails, or takes the cause in its failure; any other state starts the ramp. -/
def State.abortOne (s : State) (g cause : Nat) (dists : List (Nat × Int)) (culprit : Option Nat) : State :=
  match s.genState g with
  | 0 | 1 => s
  | 4 => (s.higherCause g cause).dropQueue g
  | 5 => if (s.gen g).home = .fail then s.higherCause g cause else s.homeFail g 0x14
  | _ => s.abortRamp g cause dists culprit

/-- An abort of generator `g`: when it is in a group move, every member aborts in the same boundary (R208). -/
def State.abortGen (s : State) (g cause : Nat) : State :=
  match (s.gen g).cur with
  | some seg =>
    let s' := s.abortOne g cause seg.dists none
    if seg.group.isSome && decide (s.genState g ≠ 4) then
      (seg.dists.filter fun m => decide (m.1 ≠ g)).foldl (fun t m => t.abortOne m.1 8 seg.dists (some g)) s'
    else s'
  | none => s.abortOne g cause [] none

/-! ### Step axes (R209 to R215) -/

/-- Show the step generator's state in its registers. -/
def State.showStep (s : State) (k : Nat) : State :=
  let x := s.stepGen k
  let s := (s.set64 R.ST_STEP_LO R.ST_STEP_HI_STEPS k (x.issued % 2 ^ 48)).set64 R.ST_VWORD_LO R.ST_VWORD_HI_V k (x.word % 2 ^ 48)
  let s := (s.setBit R.ST_STAT_DIR k x.dirPin).set R.ST_STAT_PENDING k (min 3 x.pend.length)
  (s.setBit R.ST_STAT_RDY k x.rdy).setBit R.ST_STAT_EN_OUT k x.enPin

/-- The axis stops at once at its issued step count (R214). -/
def State.driverStop (s : State) (k : Nat) (injected : Bool) : State :=
  let g := 64 + k
  let seg := (s.gen g).cur
  let homing := decide (s.genState g = 5)
  let s := (s.dropMoves g).abortRecord g 7 none
  let s := (s.updStep k fun x => { x with steps := x.issued, phase := 0, word := 0, pend := [] }).showStep k
  let stop := (s.stepGen k).issued * 65536
  let s := s.updGen g fun x => { x with pos := stop, vel := 0, acc := 0, tgt := stop, plan := none }
  let s := if homing then (s.complete3 (s.gen g).homeDesc { reason := 0x14 }).set R.MP_STAT_HOME_RESULT g 0x14 else s
  let s := s.updGen g fun x => { x with home := .none, homeDesc := none }
  let s := ((s.setBit R.MP_STAT_HOMED g false).setGen g 1).publishGen g
  let s := (s.inc R.ST_COUNT_DRV_LOST k).post Ev.stDrvLost .fault (some k) [] false injected
  match seg with
  | some m =>
    if m.group.isSome then
      (m.dists.filter fun e => decide (e.1 ≠ g)).foldl (fun t e => t.abortOne e.1 8 m.dists (some g)) s
    else s
  | none => s

/-- STk_RDY, or STk_EN, is lost: at rest HOLD decides, otherwise the axis stops (R214, R215). -/
def State.axisLost (s : State) (k : Nat) (injected : Bool) : State :=
  let g := 64 + k
  if s.genAtRest g || decide (s.genState g = 0) then
    let s := s.updStep k fun x => { x with word := 0 }
    if s.bit R.ST_CFG_HOLD k then s.showStep k
    else
      let s := (s.updStep k fun x => { x with phase := 0 }).showStep k
      (s.setBit R.MP_STAT_HOMED g false).post Ev.stUnhomed .notice (some k) [] false injected
  else s.driverStop k injected

/-- STk_EN is driven active: the cell ENABLED, the generator in use, no global pair asserted (R215). -/
def State.axisEnabled (s : State) (k : Nat) : Bool :=
  s.enabled && s.bit R.MP_CFG_EN (64 + k) && !s.bit R.AD_STO_STAT_ASSERTED 8 && !s.bit R.AD_STO_STAT_ASSERTED 9

/-- Drive STk_EN by its conditions; when it goes inactive with RDY asserted the axis is treated as if RDY were lost. -/
def State.driveEnable (s : State) (k : Nat) : State :=
  let on := s.axisEnabled k
  let x := s.stepGen k
  if on = x.enPin then s
  else
    let s := (s.updStep k fun x => { x with enPin := on }).setBit R.ST_STAT_EN_OUT k on
    if !on && x.rdy then s.axisLost k false else s

/-- Drive every STk_EN. -/
def State.driveEnables (s : State) : State := (List.range 16).foldl State.driveEnable s

/-- The axis may issue steps and accept moves. -/
def StepGen.ready (x : StepGen) : Bool := x.rdy && x.enPin

/-- One tick of the phase accumulator (R209). -/
def StepGen.addWord (x : StepGen) : StepGen :=
  let p : Int := x.phase + x.word
  if (2 : Int) ^ 48 ≤ p then { x with phase := (p - 2 ^ 48).toNat, steps := x.steps + 1, pend := x.pend ++ [false] }
  else if p < 0 then { x with phase := (p + 2 ^ 48).toNat, steps := x.steps - 1, pend := x.pend ++ [true] }
  else { x with phase := p.toNat }

/-- The step pins in one tick (R210): the pulse falls after PULSE_W ticks; a pending step of the shown direction is issued
once its low time and DIR_SETUP have passed; one of the other direction first changes DIR. -/
def StepGen.drivePins (x : StepGen) (pw ds tick : Nat) : StepGen :=
  let x := if x.stepPin && decide (x.rise + pw ≤ tick) then { x with stepPin := false, fall := tick } else x
  match x.pend with
  | [] => x
  | d :: rest =>
    if !x.ready || x.stepPin || decide (tick < x.fall + pw) then x
    else if d != x.dirPin then { x with dirPin := d, dirAt := tick }
    else if tick < x.dirAt + ds then x
    else
      { x with stepPin := true, rise := tick, pend := rest, issued := x.issued + (if d then -1 else 1)
               recent := (x.recent.filter fun e => decide (tick < e.1 + 2000)) ++ [(tick, d)] }

/-- One tick of step generator `k` (R209, R210). -/
def State.stepTick (s : State) (k : Nat) : State :=
  let x := s.stepGen k
  if x.word = 0 ∧ x.pend = [] ∧ x.stepPin = false then s
  else
    (s.updStep k fun x => x.addWord.drivePins (s.get R.ST_CFG_PULSE_W k) (s.get R.ST_CFG_DIR_SETUP k) s.tick).showStep k

/-- The largest magnitude of a velocity word: 4,000,000 steps/s (R212). -/
def wordMax : Int := 9007199254740

/-- The velocity word that brings the due position to the sample (R211). -/
def State.feedWord (s : State) (k : Nat) : Int :=
  let x := s.stepGen k
  let p := (s.gen (64 + k)).pos * 2 ^ 32
  let a := x.steps * 2 ^ 48 + x.phase
  roundDiv (p - a) (max 1 (s.intoCycle + s.ticksTo (s.boundaryNs (s.cycle + 1))))

/-- Apply a velocity word, clamped to the highest rate (R212). -/
def State.applyWord (s : State) (k : Nat) (v : Int) : State :=
  let s := s.updStep k fun x => { x with word := max (-wordMax) (min v wordMax), loaded := some s.cycle }
  s.showStep k

/-- The word misses the load tick: the previous one continues (R211). -/
def State.feedLate (s : State) (k : Nat) (injected : Bool) : State :=
  let s := s.updStep k fun x => { x with loaded := some s.cycle }
  (s.inc R.ST_COUNT_FEED_LATE k).post Ev.stFeedLate .notice (some k) [] false injected

/-- The word is clamped (R212). -/
def State.rateClamp (s : State) (k : Nat) (v : Int) (injected : Bool) : State :=
  ((s.inc R.ST_COUNT_RATE_CLAMP k).postOnce Ev.stRate .notice (some k) [] false injected).applyWord k v

/-- The effect of VELOCITY_WORD_LOAD: due once in a cycle, before the addition of tick 625. -/
def State.loadWord (s : State) (k : Nat) : State :=
  if !s.grid.running || !s.bit R.MP_CFG_EN (64 + k) || decide (s.intoCycle + 1 < 625)
      || decide ((s.stepGen k).loaded = some s.cycle) then s
  else
    let late := decide ((s.gen (64 + k)).sampled ≠ some s.cycle)
    match s.inject (864 + k) k with
    | (some _, s) => s.feedLate k true
    | (none, s) =>
      if late then s.feedLate k false
      else
        let v := s.feedWord k
        match s.inject (848 + k) k with
        | (some _, s) => s.rateClamp k (if v < 0 then -wordMax else wordMax) true
        | (none, s) => if wordMax < v ∨ v < -wordMax then s.rateClamp k v false else s.applyWord k v

/-- VELOCITY_WORD_LOAD (R211). -/
def execVelocityWordLoad (k : Fin 16) (s : State) : Out := .next (s.loadWord k)

/-- Eight samples of an input were taken since tick `since`, the last of them in this tick: what a level needs to be accepted (R216). -/
def State.debounced (s : State) (since : Nat) : Bool :=
  match s.sch.samples with
  | t :: rest => decide (rest.length = 7) && decide (since < t) && decide (rest.getLast? = some s.tick)
  | [] => false

/-- An accepted level of STk_RDY (R214). -/
def State.rdyChange (s : State) (k : Nat) (rdy injected : Bool) : State :=
  let x := s.stepGen k
  if x.rdy = rdy then s
  else
    let s := (s.updStep k fun x => { x with rdy := rdy, rdyAt := s.tick }).setBit R.ST_STAT_RDY k rdy
    if !rdy && x.enPin then s.axisLost k injected else s

/-- The effect of STK_RDY_CHANGE: a level that eight samples have shown is accepted. -/
def State.rdyAccept (s : State) (k : Nat) (rdy : Bool) : State :=
  if s.debounced (s.stepGen k).rdyAt then s.rdyChange k rdy false else s

/-- STK_RDY_CHANGE (R214). -/
def execStkRdyChange (k : Fin 16) (rdy : Bool) (s : State) : Out := .next (s.rdyAccept k rdy)

/-- The 1 µs sample of STk_RDY under an injection that makes it read deasserted (R477): eight in a row are accepted. -/
def State.rdySample (s : State) (k : Nat) : State :=
  match s.inject (832 + k) k with
  | (some _, s) =>
    let run := (s.stepGen k).injRun + 1
    let s := s.updStep k fun x => { x with injRun := run }
    if run = 8 then s.rdyChange k false true else s
  | (none, s) => if (s.stepGen k).injRun = 0 then s else s.updStep k fun x => { x with injRun := 0 }

/-! ### Homing (R219 to R223) -/

/-- The latched position of axis `g` at a tick in Q48.16: the issued step count, or the channel's position extrapolated by
its speed from the instant its states stand for (R216). -/
def State.posAt (s : State) (g tick : Nat) : Int :=
  if 64 ≤ g then
    let x := s.stepGen (g - 64)
    (x.issued - ((x.recent.filter fun e => decide (tick < e.1)).map fun e => if e.2 then (-1 : Int) else 1).sum) * 65536
  else
    match s.chanOf g with
    | none => (s.gen g).pos
    | some c =>
      let ch := s.chan c
      let dt : Rat := ((tick : Int) - ch.obsTick : Int) * 8 / 1000000000
      roundRat (((ch.ph : Rat) / 2 ^ 32 + (ch.vh : Rat) / 2 ^ 24 * dt) * 65536)

/-- The input of a role of axis `g`. -/
def State.homeSwitch (s : State) (g : Nat) : Nat :=
  let m := s.get R.MP_HOME_CFG_MODE g
  if m = 1 ∨ m = 2 then s.get R.MP_IN_CFG_HOME g
  else if s.bit R.MP_HOME_CFG_DIR g then s.get R.MP_IN_CFG_LIM_NEG g else s.get R.MP_IN_CFG_LIM_POS g

/-- The limit on the side of DIR. -/
def State.dirLimit (s : State) (g : Nat) : Nat :=
  if s.bit R.MP_HOME_CFG_DIR g then s.get R.MP_IN_CFG_LIM_NEG g else s.get R.MP_IN_CFG_LIM_POS g

/-- The limit on the side opposite to DIR. -/
def State.oppLimit (s : State) (g : Nat) : Nat :=
  if s.bit R.MP_HOME_CFG_DIR g then s.get R.MP_IN_CFG_LIM_POS g else s.get R.MP_IN_CFG_LIM_NEG g

/-- Axis input `n` is asserted: its accepted level, or its chatter latch (R216, R217). -/
def State.axin (s : State) (n : Nat) : Bool :=
  if n < 32 then hasBit (s.get R.MP_AXIN_LEVEL_LO ||| s.get R.MP_AXIN_CHAT_LO) n
  else n < 48 && hasBit (s.get R.MP_AXIN_LEVEL_HI_L ||| s.get R.MP_AXIN_CHAT_HI_C) (n - 32)

/-- A motion without end at speed `v` counts/s, from rest. -/
def State.runAt (s : State) (g start : Nat) (v : Rat) : State :=
  let l := s.genLim g
  s.givePlan g start { p0 := q16 (s.gen g).pos, v0 := 0, a0 := 0, phases := stopPhases (-v) 0 l.a l.j |>.map fun f => (f.1, f.2),
                       target := none }

/-- The direction of the search as a sign. -/
def State.homeSign (s : State) (g : Nat) : Rat := if s.bit R.MP_HOME_CFG_DIR g then -1 else 1

/-- The slow move away from DIR, from the boundary of cycle `start` on (R219). -/
def State.homeAway (s : State) (g start : Nat) : State :=
  (s.runAt g start (-(s.homeSign g) * s.units g (s.get R.MP_HOME_VSLOW g))).updGen g fun x => { x with home := .away }

/-- The home event: the position is latched and the axis decelerates at HOME_DEC (R219, R220); in mode 6 it stops there. -/
def State.homeEvent (s : State) (g : Nat) (latched : Int) (idx : Option Nat) : State :=
  let s := s.updGen g fun x => { x with homeLatch := latched, homeIdx := idx }
  let s :=
    if s.get R.MP_HOME_CFG_MODE g = 6 then
      s.updGen g fun x => { x with pos := latched, vel := 0, acc := 0, tgt := latched, plan := none }
    else s.homeSlow g
  s.updGen g fun x => { x with home := .final }

/-- An index event of channel `c`, at a position of the channel (Q48.16) and index count (R219). -/
def State.homeIndex (s : State) (c : Nat) (latched : Int) (idx : Nat) : State :=
  (List.range 80).foldl (fun s g =>
    let x := s.gen g
    let m := s.get R.MP_HOME_CFG_MODE g
    if s.get R.MP_HOME_CFG_IDX_CH g = c ∧ ((m = 5 ∧ x.home = .search) ∨ ((m = 2 ∨ m = 4) ∧ x.home = .index)) then
      s.homeEvent g (if 64 ≤ g then s.posAt g s.tick else latched) (some idx)
    else s) s

/-- A homing sees an input of its axis become asserted (R219, R221). -/
def State.homeAsserted (s : State) (g n : Nat) : State :=
  let m := s.get R.MP_HOME_CFG_MODE g
  if n = s.oppLimit g then s.homeFail g 0x11
  else if n = s.dirLimit g ∧ (m = 1 ∨ m = 2 ∨ m = 5 ∨ m = 6) then s.homeFail g 0x12
  else if n = s.homeSwitch g ∧ 1 ≤ m ∧ m ≤ 4 ∧ (s.gen g).home = .search then
    (s.homeSlow g).updGen g fun x => { x with home := .decel }
  else s

/-- A homing sees an input released: the home event of modes 1 and 3, and the wait for an index in 2 and 4. -/
def State.homeReleased (s : State) (g n tick : Nat) : State :=
  let m := s.get R.MP_HOME_CFG_MODE g
  if n = s.homeSwitch g ∧ (s.gen g).home = .away then
    if m = 1 ∨ m = 3 then s.homeEvent g (s.posAt g tick) none
    else if m = 2 ∨ m = 4 then s.updGen g fun x => { x with home := .index }
    else s
  else s

/-- Travel beyond HOME_TRAVEL from the start of the search ends homing (R221). -/
def State.homeTravel (s : State) (g : Nat) : State :=
  let x := s.gen g
  let lim := s.get R.MP_HOME_TRAVEL g
  let searching := match x.home with | .search | .decel | .away | .index => true | _ => false
  if searching && decide (lim ≠ 0) && decide ((lim : Int) * 65536 < (x.pos - x.homeStart).natAbs) then s.homeFail g 0x13 else s

/-- HOMED is cleared for a joint of channel `c`, and for an axis homed by its index (R223). -/
def State.unhome (s : State) (c : Nat) : State :=
  (List.range 80).foldl (fun s g =>
    let m := s.get R.MP_HOME_CFG_MODE g
    let byIndex := (m = 2 ∨ m = 4 ∨ m = 5) ∧ s.get R.MP_HOME_CFG_IDX_CH g = c
    if (g < 64 ∧ s.chanOf g = some c) ∨ byIndex then s.setBit R.MP_STAT_HOMED g false else s) s

/-- The force generation of the engine of Tiller `n`'s arm group advances (R220, R258). -/
def State.structChanged (s : State) (n : Nat) : State :=
  match s.groupOf n with
  | some a => { s with sv := { s.sv with eng := Tab.upd (fun _ => {}) s.sv.eng a fun e => { e with force := e.force + 1 } } }
  | none => s

/-- The shift Δ of a step axis: to the due position and, by the whole steps that this moves it, to the count, and so to its generator
(R220). -/
def State.shiftStep (s : State) (k : Nat) (delta : Int) : State :=
  let s := s.updStep k fun x =>
    let due : Int := x.steps * 2 ^ 48 + x.phase + delta * 2 ^ 32
    { x with steps := due / 2 ^ 48, phase := (due % 2 ^ 48).toNat, issued := x.issued + (due / 2 ^ 48 - x.steps), recent := [] }
  s.showStep k

/-- The shift Δ of a joint: to the linear position and the observer's position together (R220). -/
def State.shiftChan (s : State) (c : Nat) (delta : Int) : State :=
  let counts := roundDiv delta 65536
  s.updChan c fun x => { x with lin := x.lin + counts, rep := x.rep + counts, ph := x.ph + counts * 2 ^ 32, b2 := x.b2 + 2 * counts }

/-- The count of the index after the shift, which moves the joint's own channel, becomes IDX_EXP of the channel, valid (R220). -/
def State.shiftIndex (s : State) (g : Nat) (delta : Int) : State :=
  match (s.gen g).homeIdx with
  | none => s
  | some i =>
    let c := s.get R.MP_HOME_CFG_IDX_CH g
    let cpr : Int := if s.get R.FB_CPR c = 0 then 2 ^ 32 else s.get R.FB_CPR c
    let counts := if g < 64 ∧ s.chanOf g = some c then roundDiv delta 65536 else 0
    (s.set R.FB_IDX_EXP c (((i : Int) + counts) % cpr).toNat).setBit R.FB_IDX_CFG_IDX_VALID c true

/-- The effect of HOME_SHIFT: at rest after the home event the axis takes its new position, HOMED is set, and HOME completes
(R220). -/
def State.homeShift (s : State) (g : Nat) : State :=
  let x := s.gen g
  if x.home ≠ .final ∨ x.plan.isSome ∨ x.vel ≠ 0 ∨ x.acc ≠ 0 ∨ (64 ≤ g ∧ (s.stepGen (g - 64)).pend ≠ []) then s
  else
    let ofs := s.get64i R.MP_HOME_OFS_LO R.MP_HOME_OFS_HI 64 g
    let delta := ofs - x.homeLatch
    let s :=
      if 64 ≤ g then s.shiftStep (g - 64) delta
      else
        match s.chanOf g with
        | some c => (s.shiftChan c delta).structChanged g
        | none => s
    let s := s.shiftIndex g delta
    let s := s.updGen g fun y => { y with pos := y.pos + delta, tgt := y.pos + delta, home := .none, homeDesc := none }
    let s := (s.setBit R.MP_STAT_HOMED g true).set64 R.MP_HOME_POS_LO R.MP_HOME_POS_HI g x.homeLatch
    let s := ((s.set R.MP_STAT_HOME_RESULT g 0).setGen g 1).publishGen g
    s.complete3 x.homeDesc {}

/-- HOME_SHIFT (R220). -/
def execHomeShift (g : Fin 80) (s : State) : Out := .next (s.homeShift g)

/-! ### Axis inputs (R216 to R218) -/

/-- The side toward which generator `g` moves: the sign of its speed, or of the planned distance at speed 0 (R218). -/
def State.moveSide (s : State) (g : Nat) : Int :=
  let x := s.gen g
  if x.vel ≠ 0 then x.vel.sign
  else
    match x.cur with
    | some seg => (seg.target - x.pos).sign
    | none => (x.tgt - x.pos).sign

/-- Input `n` is the limit on the side toward which `g` moves. -/
def State.limitAhead (s : State) (g n : Nat) : Bool :=
  (s.genState g ∈ [2, 3, 4, 6]) &&
    ((s.get R.MP_IN_CFG_LIM_POS g == n && decide (0 < s.moveSide g))
      || (s.get R.MP_IN_CFG_LIM_NEG g == n && decide (s.moveSide g < 0)))

/-- Axis `g` uses input `n` in some role. -/
def State.axisUses (s : State) (g n : Nat) : Bool :=
  s.bit R.MP_CFG_EN g &&
    (s.get R.MP_IN_CFG_LIM_POS g == n || s.get R.MP_IN_CFG_LIM_NEG g == n || s.get R.MP_IN_CFG_HOME g == n)

/-- The axes that use input `n`. -/
def State.usersOf (s : State) (n : Nat) : List Nat := (List.range 80).filter fun g => s.axisUses g n

/-- Generator `g` aborts at a limit and posts MP_LIMIT for input `n` (R218). -/
def State.limitStop (s : State) (n : Nat) (injected : Bool) (g : Nat) : State :=
  (s.abortGen g 3).post Ev.mpLimit .fault (some n) [] false injected

/-- Input `n` becomes asserted: limits ahead abort their axes, one MP_LIMIT for each (an injection with none ahead posts one); homings
take it as their rule. -/
def State.inputAsserted (s : State) (n : Nat) : State :=
  let hit := (s.usersOf n).filter fun g => s.limitAhead g n
  let s := s.detect (736 + n) n (!hit.isEmpty) fun inj s =>
    if hit.isEmpty then s.post Ev.mpLimit .fault (some n) [] false inj else hit.foldl (State.limitStop · n inj) s
  (s.usersOf n).foldl (fun t g => if t.genState g = 5 then t.homeAsserted g n else t) s

/-- Set bit `n` of a pair of axis-input registers. -/
def State.setAxin (s : State) (lo hi : Field) (n : Nat) (b : Bool) : State :=
  let put := fun (v i : Nat) => if b then orBit v i else clrBit v i
  if n < 32 then s.set lo 0 (put (s.get lo) n) else s.set hi 0 (put (s.get hi) (n - 32))

/-- The inversion of input `n`. -/
def State.axinInv (s : State) (n : Nat) : Bool :=
  if n < 32 then hasBit (s.get R.MP_AXIN_INV_LO) n else hasBit (s.get R.MP_AXIN_INV_HI_INV) (n - 32)

/-- 10 ms in ticks. -/
def chatTicks : Nat := 1250000

/-- The accepted transitions of input `n`, the last five: each with its date and the tick of its acceptance. -/
def State.axinTimes (s : State) (n : Nat) : List (Nat × Nat) := Tab.get (fun _ => []) s.mp.axTimes n

/-- Input `n` had an accepted transition in the preceding 10 ms (R217). -/
def State.axinRecent (s : State) (n : Nat) : Bool := (s.axinTimes n).any fun t => decide (s.tick ≤ t.2 + chatTicks)

/-- The fifth accepted transition of input `n` falls within 10 ms of the first of those five (R217). -/
def State.axinFive (s : State) (n : Nat) : Bool :=
  let l := s.axinTimes n
  match l.head?, l.getLast? with
  | some a, some b => decide (l.length = 5) && decide (b.1 ≤ a.1 + chatTicks)
  | _, _ => false

/-- A transition of input `n` is accepted in this tick; the last five are kept. -/
def State.noteAxin (s : State) (n date : Nat) : State :=
  let l := s.axinTimes n ++ [(date, s.tick)]
  { s with mp := { s.mp with axTimes := Tab.put (fun _ => []) s.mp.axTimes n (l.drop (l.length - 5)) } }

/-- The effect of AXIN_LEVEL_CHANGE: a level that eight samples have shown, after the inversion, is accepted, dated at the first of
them. -/
def State.axinChange (s : State) (n : Nat) (level : Bool) : State :=
  let lv := level != s.axinInv n
  let was := if n < 32 then hasBit (s.get R.MP_AXIN_LEVEL_LO) n else hasBit (s.get R.MP_AXIN_LEVEL_HI_L) (n - 32)
  let eff := s.axin n
  let last := ((s.axinTimes n).getLast?.map fun t => t.2).getD 0
  if lv = was ∨ !s.debounced last then s
  else
    let date := s.sch.samples.headD 0
    let s := (s.setAxin R.MP_AXIN_LEVEL_LO R.MP_AXIN_LEVEL_HI_L n lv).noteAxin n date
    if lv && !eff then s.inputAsserted n
    else if !lv && !s.axin n then
      (s.usersOf n).foldl (fun t g => if t.genState g = 5 then t.homeReleased g n date else t) s
    else s

/-- AXIN_LEVEL_CHANGE (R216). -/
def execAxinLevelChange (n : Fin 48) (level : Bool) (s : State) : Out := .next (s.axinChange n level)

/-- The chatter latch of input `n` is set: it counts as asserted in every role, and homings of its axes end (R217). -/
def State.chatter (s : State) (n : Nat) (injected : Bool) : State :=
  let eff := s.axin n
  let s := s.setAxin R.MP_AXIN_CHAT_LO R.MP_AXIN_CHAT_HI_C n true
  let s := s.post Ev.mpChatter .fault (some n) [] false injected
  let s := (s.usersOf n).foldl (fun t g => if t.genState g = 5 then t.homeFail g 0x15 else t) s
  if eff then s else s.inputAsserted n

/-- The chatter latch of input `n` is set. -/
def State.chatLatched (s : State) (n : Nat) : Bool :=
  if n < 32 then hasBit (s.get R.MP_AXIN_CHAT_LO) n else hasBit (s.get R.MP_AXIN_CHAT_HI_C) (n - 32)

/-- The effect of MP_CHATTER: five accepted transitions within 10 ms latch the input. -/
def State.chatterTest (s : State) (n : Nat) : State :=
  if s.chatLatched n then s
  else s.detect (784 + n) n (s.axinFive n) fun inj s => s.chatter n inj

/-- MP_CHATTER (R217). -/
def execMpChatter (n : Fin 48) (s : State) : Out := .next (s.chatterTest n)

/-! ### Samples and planning (R199 to R203, R206) -/

/-- Generator `g` follows the measured position: a joint that is not ACTIVE, STOPPING or HELD (R198). -/
def State.genTracks (s : State) (g : Nat) : Bool := decide (g < 64) && !([2, 3, 4].contains (s.jstate g))

/-- A tracking joint generator: its moves end, and it takes the channel's position at rest. -/
def State.trackGen (s : State) (g : Nat) : State :=
  let pos := ((s.chanOf g).map fun c => (s.chan c).lin * 65536).getD (s.gen g).pos
  let s :=
    if s.genState g = 1 then s
    else if s.genState g = 5 then
      let s := (s.complete3 (s.gen g).homeDesc { reason := 0x14 }).set R.MP_STAT_HOME_RESULT g 0x14
      (s.abortRecord g 5 none).updGen g fun x => { x with home := .none, homeDesc := none }
    else if s.genState g = 4 then s.settleLimits g
    else ((s.dropMoves g).abortRecord g 2 none).settleLimits g
  (s.updGen g fun x => { x with pos := pos, vel := 0, acc := 0, tgt := pos, plan := none }).setGen g 1

/-- The next segment of the queue starts, waits for its trigger, or there is none (R202, R213). -/
def State.nextSeg (s : State) (g : Nat) : State :=
  match (s.gen g).queue with
  | [] => (s.updGen g fun x => { x with cur := none }).setGen g 1
  | seg :: rest =>
    let latched := (s.gen g).trigLatched
    let s := s.updGen g fun x => { x with queue := rest, cur := some seg }
    if seg.trigger && !latched then s.setGen g 6
    else (s.updGen g fun x => { x with trigLatched := x.trigLatched && !seg.trigger }).startSeg g (s.cycle + 1) seg

/-- A plan has ended at rest. -/
def State.endPlan (s : State) (g : Nat) : State :=
  let x := s.gen g
  match s.genState g with
  | 3 => ((s.complete3 (x.cur.bind fun m => m.desc) {}).settleLimits g).nextSeg g
  | 4 => (s.settleLimits g).nextSeg g
  | 5 =>
    match x.home with
    | .decel => s.homeAway g (s.cycle + 1)
    | .fail =>
      let s := ((s.complete3 x.homeDesc { reason := x.homeFail }).set R.MP_STAT_HOME_RESULT g x.homeFail).setGen g 1
      s.updGen g fun y => { y with home := .none, homeDesc := none }
    | _ => s
  | _ => s

/-- The sample at profile time `t` under scaling `k`. -/
def State.moveTo (s : State) (g : Nat) (pl : Plan) (t k : Nat) : State :=
  let q := pl.at t
  let f : Rat := (k : Rat) / 32768
  s.updGen g fun y =>
    { y with pos := roundRat (q.p * 65536), vel := roundRat (q.v * f * 2 ^ 24), acc := roundRat (q.a * f * f * 2 ^ 8), ptime := t }

/-- Advance generator `g` along its plan by one cycle. -/
def State.advanceGen (s : State) (g : Nat) (pl : Plan) : State :=
  let x := s.gen g
  let k := if s.realTime g then 0x8000 else s.scaleOf g
  let t := x.ptime + k * s.cycleNs
  match pl.target with
  | some e =>
    if pl.ended t then (s.updGen g fun y => { y with pos := e, vel := 0, acc := 0, plan := none, ptime := 0 }).endPlan g
    else s.moveTo g pl t k
  | none => s.moveTo g pl t k

/-- The effect of GENERATOR_SAMPLE: once in a cycle, the sample of the next boundary (R199). -/
def State.genSample (s : State) (g : Nat) : State :=
  if !s.grid.running || !s.bit R.MP_CFG_EN g || decide (s.genState g = 0) || decide ((s.gen g).sampled = some s.cycle) then s
  else
    let s :=
      if s.genTracks g then s.trackGen g
      else
        match (s.gen g).plan with
        | some pl => if (s.gen g).start ≤ s.cycle then s.advanceGen g pl else s
        | none => s.updGen g fun x => { x with vel := 0, acc := 0 }
    ((s.updGen g fun x => { x with sampled := some s.cycle }).homeTravel g).publishGen g

/-- GENERATOR_SAMPLE (R199). -/
def execGeneratorSample (g : Fin 80) (s : State) : Out := .next (s.genSample g)

/-- The effect of MOVE_PLAN: in the cycle after its acceptance a move is planned, from the boundary after that (R201). -/
def State.movePlan (s : State) (g : Nat) : State :=
  match s.genState g, (s.gen g).cur with
  | 2, some seg =>
    if seg.cycle < s.cycle then (s.startSeg g (max (seg.cycle + 2) (s.cycle + 1)) seg).publishGen g else s
  | _, _ => s

/-- MOVE_PLAN (R200). -/
def execMovePlan (g : Fin 80) (s : State) : Out := .next (s.movePlan g)

/-- The generators that move together with `g` in the segment `seg` (R207). -/
def Seg.mates (seg : Seg) (g : Nat) : List Nat := if seg.group.isSome then seg.dists.map fun m => m.1 else [g]

/-- A waiting segment of generator `g` starts in the tick after its trigger fires: profile time 0 is then (R213). -/
def State.startWaiting (s : State) (g : Nat) : State :=
  match s.genState g, (s.gen g).cur with
  | 6, some seg =>
    let lead := (s.boundaryNs (s.cycle + 1) - (s.now + 8)) * 32768
    (s.startSeg g (s.cycle + 1) seg lead).publishGen g
  | _, _ => s

/-- Latch a firing for the queued segment of generator `g`. -/
def State.latchTrig (s : State) (g : Nat) : State := s.updGen g fun y => { y with trigLatched := true }

/-- A trigger with action 2 reaches step axis `k` (R213): the waiting segment starts in the next tick, with the members of its group
(R207); a queued one is latched, and with none waiting the firing is counted. -/
def State.segTrigger (s : State) (k : Nat) : State :=
  let g := 64 + k
  let x := s.gen g
  match s.genState g, x.cur with
  | 6, some seg => (seg.mates g).foldl State.startWaiting s
  | _, _ =>
    match x.queue.find? fun m => m.trigger with
    | some seg => if x.trigLatched then s.inc R.MP_COUNT_TRG_UNUSED g else (seg.mates g).foldl State.latchTrig s
    | none => s.inc R.MP_COUNT_TRG_UNUSED g

/-! ### Limits from the Granary (R203) -/

/-- Limits kept for the rest of a move, with the notice; cause 0 no re-plan, 1 a zero limit. -/
def State.limitDeferred (s : State) (g cause : Nat) : State :=
  ((s.setBit R.MP_STAT_LIMIT_DEFERRED g true).inc R.MP_COUNT_DEFERRALS g).post Ev.mpLimitDeferred .notice (some g) [item cause]

/-- The normalised phases of the re-plan of the move `seg`, from the state of member `g` with a distance, under the limits in force; none
when no plan reaches the target without overshoot. -/
def State.replanOf (s : State) (g : Nat) (seg : Seg) : Option (List (Nat × Rat)) :=
  let x := s.gen g
  let d := distOf seg.dists g
  match x.plan, normLim s.genLim seg.dists with
  | some pl, some l =>
    let k := pl.at x.ptime
    if d = 0 then none else replan l (k.v / d) (k.a / d) ((q16 seg.target - k.p) / d)
  | _, _ => none

/-- The member from whose state generator `g` is re-planned: itself, or, for a member held at rest, one that has a distance, so that all
end together (R207). -/
def Seg.leader (seg : Seg) (g : Nat) : Nat :=
  if distOf seg.dists g ≠ 0 then g else ((seg.dists.find? fun m => decide (m.2 ≠ 0)).map fun m => m.1).getD g

/-- The plan of generator `g` after a re-plan. -/
def State.replanned (s : State) (g : Nat) (seg : Seg) (ph : List (Nat × Rat)) : Plan :=
  let k := s.profKin g
  let d := distOf seg.dists g
  { p0 := k.p, v0 := k.v, a0 := k.a, phases := ph.map fun f => (f.1, f.2 * d), target := some seg.target }

/-- Re-plan generators that move together, each from the state it has now; false when for one of them no plan fits. -/
def State.replanAll (s : State) (gs : List Nat) : State × Bool :=
  let moving := gs.filterMap fun g =>
    match s.genState g, (s.gen g).cur with
    | 3, some seg => if seg.dists.all fun m => decide (m.2 = 0) then none else some (g, seg, s.replanOf (seg.leader g) seg)
    | _, _ => none
  (moving.foldl (fun t m =>
    match m.2.2 with
    | some ph => t.updGen m.1 fun x => { x with plan := some (s.replanned m.1 m.2.1 ph), ptime := 0, start := min x.start s.cycle }
    | none => t) s, moving.all fun m => m.2.2.isSome)

/-- The generators that move together with `g`. -/
def State.moveMates (s : State) (g : Nat) : List Nat :=
  match (s.gen g).cur with
  | some seg => seg.mates g
  | none => [g]

/-- A limit of 0 leaves the limit as it was. -/
def keepZero (old new : Nat) : Nat := if new = 0 then old else new

/-- The limit block of generator `g` has swapped into force (R203). -/
def State.limitCommit (s : State) (g : Nat) : State :=
  let x := s.gen g
  let w := fun i => (s.gr1 (s.get R.MP_LIM_SRC_ADDR g + i)).toNat
  let zero := decide (w 0 = 0 ∨ w 1 = 0 ∨ w 2 = 0 ∨ w 3 = 0)
  let d' := keepZero x.dmax (w 2)
  let j' := keepZero x.jmax (w 3)
  let s := s.updGen g fun y =>
    { y with vmax := keepZero y.vmax (w 0), amax := keepZero y.amax (w 1), dmax := d', jmax := j', limLater := none }
  let s := if zero then (s.inc R.MP_COUNT_DEFERRALS g).post Ev.mpLimitDeferred .notice (some g) [item 1] else s
  let mates := s.moveMates g
  let r := s.replanAll mates
  if r.2 then r.1
  else
    let s := s.updGen g fun y => { y with dmax := max x.dmax d', jmax := max x.jmax j', limLater := some (d', j') }
    let s := s.limitDeferred g 0
    (s.replanAll mates).1

/-- The limits at enable: the registers (R203). -/
def State.loadLimits (s : State) (g : Nat) : State :=
  s.updGen g fun x =>
    { x with vmax := s.get R.MP_VMAX g, amax := s.get R.MP_AMAX g, dmax := s.get R.MP_DMAX g, jmax := s.get R.MP_JMAX g, limLater := none }

end Sys2Proof.Machine
end

