-- ==== Sys2Proof/Machine/Sto.lean ====
section
/-! DEFINITION. Safe torque off: pairs, their causes and their release (R427 to R434), and the joint state that follows
(R184). -/
namespace Sys2Proof.Machine

/-- Arm group `g`. -/
def State.group (s : State) (g : Nat) : Group := Tab.get (fun _ => {}) s.grp g

/-- Change arm group `g`. -/
def State.updGroup (s : State) (g : Nat) (f : Group → Group) : State :=
  { s with grp := Tab.upd (fun _ => {}) s.grp g f }

/-- The pair that serves arm group `g` (R427). -/
def State.pairOf (s : State) (g : Nat) : Option Nat :=
  (List.range 8).find? fun p => s.bit R.AD_STO_CFG_EN p && s.get R.AD_STO_CFG_GROUP p == g

/-- The arm group that pair `p` serves: none for a global pair or a pair not in use. -/
def State.pairGroup (s : State) (p : Nat) : Option Nat :=
  if p < 8 ∧ s.bit R.AD_STO_CFG_EN p then some (s.get R.AD_STO_CFG_GROUP p) else none

/-- A joint enters TORQUE_OFF from any state but OFF; its saturation time returns to 0 (R184, R196). -/
def State.jointOff (s : State) (n : Nat) : State :=
  if s.jstate n = 0 then s else (s.set R.TL_JSTAT_JSTATE n 5).set R.TL_SAT_ACC n 0

/-- Every joint of arm group `g` enters TORQUE_OFF; Belvedere's watch on its SS1 ends (R293). -/
def State.groupOff (s : State) (g : Nat) : State :=
  let s := ((s.groupTillers g).foldl State.jointOff s).updGroup g fun r => { r with stop := 0, want := 0 }
  { s with sep := { s.sep with ss1 := Tab.put (fun _ => none) s.sep.ss1 g none } }

/-- Change the safety I/O beside its registers. -/
def State.updSio (s : State) (f : Safety → Safety) : State := { s with sio := f s.sio }

/-- Drive both channels of pair `p` to a level: a readback follows a change of its drive, and readback samples are suspended for a
while (R430). -/
def State.driveTo (s : State) (p : Nat) (level : Bool) : State :=
  let a := s.bit R.AD_STO_STAT_DRIVE_A p
  let b := s.bit R.AD_STO_STAT_DRIVE_B p
  let s := if a = level then s else (s.setBit R.AD_STO_STAT_DRIVE_A p level).setBit R.AD_STO_STAT_FB_A p level
  let s := if b = level then s else (s.setBit R.AD_STO_STAT_DRIVE_B p level).setBit R.AD_STO_STAT_FB_B p level
  if a = level ∧ b = level then s else s.updSio fun x => { x with driveAt := Tab.put (fun _ => 0) x.driveAt p s.tick }

/-- Drive both channels of a pair low and record a cause (R428). -/
def State.drivePair (s : State) (cause p : Nat) : State :=
  let s := (s.setBit R.AD_STO_STAT_ASSERTED p true).driveTo p false
  let s := s.set R.AD_STO_STAT_CAUSE p (orBit (s.get R.AD_STO_STAT_CAUSE p) cause)
  match s.pairGroup p with
  | some g => s.groupOff g
  | none => s

/-- Assert a pair; a global pair takes every group pair with it and the step axes' enables go inactive (R215, R427, R428). -/
def State.assertPair (s : State) (cause p : Nat) : State :=
  let s := s.drivePair cause p
  if 8 ≤ p then ((List.range 8).foldl (State.drivePair · 7) s).driveEnables else s

/-- Assert the pair of arm group `g`. -/
def State.assertGroup (s : State) (cause g : Nat) : State :=
  match s.pairOf g with
  | some p => s.assertPair cause p
  | none => s

/-- Assert the pairs of the arm groups in a mask. -/
def State.assertMask (s : State) (cause mask : Nat) : State :=
  (maskList 8 mask).foldl (State.assertGroup · cause) s

/-- Assert every pair, both global pairs included. -/
def State.assertAll (s : State) (cause : Nat) : State := (List.range 10).foldl (State.assertPair · cause) s

/-- WDOG_OUT is held low, until device reset (R434). -/
def State.wdogStop (s : State) : State :=
  (s.setBit R.AD_WDOG_STAT_RUNNING 0 false).updSio fun x => { x with wdogOut := false }

/-- The e-stop, or a door in use with CAT 3 over arm group `g`, is in demand (R426). -/
def State.stoDemand (s : State) (g : Option Nat) : Bool :=
  hasBit (s.get R.AD_SIO_STAT_DEMAND) 0 ||
    (List.range 4).any fun d =>
      hasBit (s.get R.AD_SIO_STAT_DEMAND) (2 + d) && s.bit R.AD_DOOR_CFG_EN d && s.get R.AD_DOOR_CFG_CAT d == 3 &&
        (match g with | some g => hasBit (s.get R.AD_DOOR_CFG_MASK d) g | none => false)

/-- A channel of pair `p` reads otherwise than it is driven. -/
def State.readbackWrong (s : State) (p : Nat) : Bool :=
  s.bit R.AD_STO_STAT_FB_A p != s.bit R.AD_STO_STAT_DRIVE_A p || s.bit R.AD_STO_STAT_FB_B p != s.bit R.AD_STO_STAT_DRIVE_B p

/-- Cause `i` holds a condition on pair `p` (R428): causes 0, 5 and 8 never do. -/
def State.causeHolds (s : State) (p i : Nat) : Bool :=
  let g := s.pairGroup p
  let inMask := fun m : Nat => (match g with | some g => hasBit m g | none => false)
  match i with
  | 1 => s.sio.fatalLatched && (s.sio.fatalGlob || inMask s.sio.fatalMask)
  | 2 => inMask s.sio.sepLine
  | 3 => inMask s.sio.bvLatch || (decide (8 ≤ p) && hasBit s.sio.bvLatch 8)
  | 4 => hasBit (s.get R.AD_STO_STAT_CAUSE p) 4 && s.stoDemand g
  | 6 => hasBit (s.get R.AD_STO_STAT_CAUSE p) 6 && s.readbackWrong p
  | 7 => decide (p < 8) && (s.bit R.AD_STO_STAT_ASSERTED 8 || s.bit R.AD_STO_STAT_ASSERTED 9)
  | _ => false

/-- Some cause holds a condition on pair `p`. -/
def State.pairHeld (s : State) (p : Nat) : Bool := (List.range 9).any (s.causeHolds p)

/-- Drive both channels of a pair high and clear its cause bits. -/
def State.releasePair (s : State) (p : Nat) : State :=
  ((s.setBit R.AD_STO_STAT_ASSERTED p false).set R.AD_STO_STAT_CAUSE p 0).driveTo p true

/-- The pair of an arm group in the boundary of its RESET (R429): released when no cause holds a condition; otherwise it
stays asserted and shows the holding causes, and the group returns to TORQUE_OFF. -/
def State.resetRelease (s : State) (g : Nat) : State :=
  match s.pairOf g with
  | none => s
  | some p =>
    if s.pairHeld p then
      (s.set R.AD_STO_STAT_CAUSE p (s.get R.AD_STO_STAT_CAUSE p ||| maskOf ((List.range 9).filter (s.causeHolds p)))).groupOff g
    else s.releasePair p

/-- Latch a fatal escalation in the wedge-safe domain (R25): the masked arm groups' pairs, and with the global bit every
pair, are asserted; WDOG_OUT stops. -/
def State.latchFatal (s : State) (mask : Nat) (glob : Bool) : State :=
  let s := s.updSio fun x =>
    { x with fatalLatched := true, fatalMask := x.fatalMask ||| mask, fatalGlob := x.fatalGlob || glob }
  let s := s.wdogStop
  let s := s.assertMask 1 mask
  if glob then s.assertAll 1 else s

/-- The pairs asserted for arm group `g` are released: torque can be on. -/
def State.pairReleased (s : State) (g : Nat) : Bool :=
  match s.pairOf g with
  | some p => !s.bit R.AD_STO_STAT_ASSERTED p
  | none => false

end Sys2Proof.Machine
end

