-- ==== Sys2Proof/Machine/Mirror.lean ====
section
/-! DEFINITION. What the lease holder records for its standby (R378): mirror records, and the cycle in which an action
counts as accepted. -/
namespace Sys2Proof.Machine

/-- Change the twin logic. -/
def State.updTw (s : State) (f : Twin → Twin) : State := { s with tw := f s.tw }

/-- This device holds the Sheaf lease of a twin pair. -/
def State.holdsLease (s : State) : Bool := s.bit R.TW_CFG_EN && decide (s.get R.TW_STATE_STATE = 2)

/-- The cycle in which an action accepted now counts as accepted: that of the LEASE frame that carries its mirror record on
a lease holder, else the cycle in progress (R378). -/
def State.acceptCycle (s : State) : Nat :=
  if s.holdsLease ∧ s.tw.leaseSent = some s.cycle then s.cycle + 1 else s.cycle

/-- Queue a mirror record of a holder. -/
def State.mirror (s : State) (kind cycle : Nat) (content : List Byte) : State :=
  if s.holdsLease then s.updTw fun t => { t with mirrorOut := t.mirrorOut ++ [{ kind, cycle, content }] } else s

/-- The content of a descriptor action: D0 and D4 to D8 (R369). -/
def actionContent (d : Desc) : List Byte := ([0, 4, 5, 6, 7, 8].map fun i => beBytes 4 (d.word i)).flatten

/-- Mirror an accepted descriptor action. -/
def State.mirrorDesc (s : State) (d : Desc) : State := s.mirror 1 s.acceptCycle (actionContent d)

/-- Mirror a reaction (kind 3) or a safe-torque-off state (kind 4), whose content the spec does not lay out. -/
def State.mirrorFree (s : State) (kind : Nat) : State :=
  if s.holdsLease then (s.mirror kind s.acceptCycle (Config.mirrorContent s.free)).draw else s

/-- The gate of an operation that only the lease holder takes (R378). -/
def holderGate (s : State) (_ : Desc) : Gate := { holder := s.notHolder }

end Sys2Proof.Machine
end

