-- ==== Sys2Proof/Machine/Moves.lean ====
section
/-! DEFINITION. The descriptors of motion: MOVE, MOVE_GROUP, ABORT, HOME and MP_CLEAR (R201 to R222). -/
namespace Sys2Proof.Machine

/-- The flags of MOVE and MOVE_GROUP (R344). -/
structure MoveFlags where
  rel : Bool
  queue : Bool
  atEnd : Bool
  unhomed : Bool
  trigger : Bool

/-- The flags word D5. -/
def Desc.moveFlags (d : Desc) : MoveFlags :=
  let f := d.word 5
  { rel := hasBit f 0, queue := hasBit f 1, atEnd := hasBit f 2, unhomed := hasBit f 3, trigger := hasBit f 4 }

/-- The generator of D4. -/
def Desc.gen (d : Desc) : Nat := d.bits 4 6 0

/-- A cause that refuses moves after an abort of another member of the group still holds on that member (R205). -/
def State.memberHolds (s : State) (g : Nat) : Bool :=
  match s.get R.MP_STAT_CAUSE g, (s.gen g).causeBy with
  | 8, some m =>
    (decide (64 ≤ m) && !(s.stepGen (m - 64)).ready) || (decide (m < 64) && decide (s.jstate m ≠ 2))
      || ((s.chanOf m).map fun c => (s.chan c).holdIdx).getD false
  | _, _ => false

/-- Generator `g` is not ready for a move (reason 0x04). -/
def State.moveNotReady (s : State) (g : Nat) : Bool :=
  !s.bit R.MP_CFG_EN g || !s.enabled || (decide (g < 64) && decide (s.jstate g ≠ 2))
    || (decide (64 ≤ g) && (!(s.stepGen (g - 64)).ready || s.sio.fatalGlob)) || s.memberHolds g

/-- The axis's channel is held after an index error (reason 0x07). -/
def State.indexHold (s : State) (g : Nat) : Bool :=
  let m := s.get R.MP_HOME_CFG_MODE g
  (decide (g < 64) && ((s.chanOf g).map fun c => (s.chan c).holdIdx).getD false)
    || (decide (m = 2 ∨ m = 4 ∨ m = 5) && (s.chan (s.get R.MP_HOME_CFG_IDX_CH g)).holdIdx)

/-- The position from which a new segment of `g` leaves: the target of the last queued segment, of the move in progress or
of an abort, else the present position. -/
def State.moveBase (s : State) (g : Nat) : Int :=
  match (s.gen g).queue.getLast?, (s.gen g).cur with
  | some m, _ => m.target
  | none, some m => m.target
  | none, none => if s.genState g = 1 then (s.gen g).pos else (s.gen g).tgt

/-- The target of a move of `g` in Q48.16. -/
def State.moveTarget (s : State) (g : Nat) (f : MoveFlags) (v : Int) : Int := if f.rel then s.moveBase g + v else v

/-- A target lies outside Q48.16 (reason 0x06). -/
def outQ48 (v : Int) : Bool := decide (v ≠ clampInt 64 v)

/-- A move of `g` to a target goes toward an asserted limit (reason 0x03). -/
def State.towardLimit (s : State) (g : Nat) (target : Int) : Bool :=
  (decide (s.moveBase g < target) && s.axin (s.get R.MP_IN_CFG_LIM_POS g))
    || (decide (target < s.moveBase g) && s.axin (s.get R.MP_IN_CFG_LIM_NEG g))

/-- `g` is in a group move. -/
def State.inGroupMove (s : State) (g : Nat) : Bool := ((s.gen g).cur.bind fun m => m.group).isSome

/-- `g` is in a move of its own. -/
def State.inOwnMove (s : State) (g : Nat) : Bool :=
  match (s.gen g).cur with
  | some m => m.group.isNone
  | none => false

/-- The first of a list of conditions that holds, by its reason; 0 for none. -/
def firstReason : List (Nat × Bool) → Nat
  | [] => 0
  | (r, true) :: _ => r
  | (_, false) :: rest => firstReason rest

/-- Accept a segment for `g`: it waits in the queue, for its trigger or for its planning cycle. -/
def State.acceptSeg (s : State) (g : Nat) (seg : Seg) : State :=
  let s :=
    if s.genState g = 1 then (s.updGen g fun x => { x with cur := some seg }).setGen g (if seg.trigger then 6 else 2)
    else s.updGen g fun x => { x with queue := x.queue ++ [seg] }
  s.set R.MP_STAT_QUEUE g (s.gen g).queue.length

/-- The reason for which MOVE is refused, in the order of R201. -/
def State.moveReason (s : State) (g : Nat) (f : MoveFlags) (v : Int) : Nat :=
  let target := s.moveTarget g f v
  firstReason
    [(0x0A, decide (s.genState g = 5)), (0x04, s.moveNotReady g), (0x09, s.inGroupMove g),
     (0x0B, f.trigger && decide (g < 64)), (0x07, s.indexHold g),
     (0x05, !f.rel && !s.bit R.MP_STAT_HOMED g && !f.unhomed), (0x06, outQ48 target), (0x03, s.towardLimit g target),
     (0x01, !s.genAtRest g && !f.queue), (0x02, f.queue && decide (s.genState g ≠ 1) && decide (4 ≤ (s.gen g).queue.length))]

/-- The action of MOVE. -/
def State.doMove (s : State) (d : Desc) : State :=
  let g := d.gen
  let f := d.moveFlags
  let v := signed 64 (d.addr 6)
  let r := s.moveReason g f v
  if r ≠ 0 then s.completeDesc d { reason := r }
  else
    let target := s.moveTarget g f v
    let seg : Seg := { target, desc := if f.atEnd then some d.key3 else none, trigger := f.trigger, group := none,
                       dists := [(g, target - s.moveBase g)], cycle := s.acceptCycle }
    let s := (s.mirrorDesc d).acceptSeg g seg
    if f.atEnd then s else s.completeDesc d {}

/-- MOVE (R201). -/
def execMove (d : DescId) (s : State) : Out := .next (s.action d 0x11 holderGate State.doMove)

/-- The members of coordination group `c`, in ascending order (R207). -/
def State.groupMembers (s : State) (c : Nat) : List Nat :=
  (List.range 80).filter fun g => s.bit R.MP_CFG_EN g && s.get R.MP_CFG_CG g == c

/-- The reason for which MOVE_GROUP is refused before its targets are looked at. -/
def State.groupReason (s : State) (ms : List Nat) (count : Nat) (f : MoveFlags) : Nat :=
  firstReason
    [(0x0A, ms.any fun g => decide (s.genState g = 5)), (0x04, ms.any s.moveNotReady),
     (0x09, ms.isEmpty || decide (ms.length ≠ count) || ms.any s.inOwnMove), (0x0B, f.trigger && ms.any fun g => decide (g < 64)),
     (0x07, ms.any s.indexHold), (0x05, !f.rel && !f.unhomed && ms.any fun g => !s.bit R.MP_STAT_HOMED g)]

/-- The reason for which MOVE_GROUP is refused by its targets and the members' motion. -/
def State.groupReason2 (s : State) (f : MoveFlags) (ts : List (Nat × Int)) : Nat :=
  firstReason
    [(0x06, ts.any fun t => outQ48 t.2), (0x03, ts.any fun t => s.towardLimit t.1 t.2),
     (0x01, !f.queue && ts.any fun t => !s.genAtRest t.1),
     (0x02, f.queue && ts.any fun t => decide (s.genState t.1 ≠ 1) && decide (4 ≤ (s.gen t.1).queue.length))]

/-- Accept a group move: every member takes a segment with all the distances (R207). -/
def State.acceptGroup (s : State) (d : Desc) (c : Nat) (f : MoveFlags) (ts : List (Nat × Int)) : State :=
  let dists := ts.map fun t => (t.1, t.2 - s.moveBase t.1)
  let first := (ts.head?.map fun t => t.1).getD 0
  let cycle := s.acceptCycle
  let s := ts.foldl (fun s t =>
    s.acceptSeg t.1 { target := t.2, desc := if f.atEnd ∧ t.1 = first then some d.key3 else none, trigger := f.trigger,
                      group := some c, dists := dists, cycle := cycle }) (s.mirrorDesc d)
  if f.atEnd then s else s.completeDesc d {}

/-- The action of MOVE_GROUP with the targets it reads from the host. -/
def State.doMoveGroup (s : State) (targets : Option (List Int)) (d : Desc) : State :=
  let c := d.bits 4 3 0
  let f := d.moveFlags
  let ms := s.groupMembers c
  let r := s.groupReason ms (d.word 8) f
  if r ≠ 0 then s.completeDesc d { reason := r }
  else
    match targets with
    | none => s.completeDesc d { reason := 0xF2 }
    | some vs =>
      let ts := (ms.zip vs).map fun t => (t.1, s.moveTarget t.1 f (clampInt 64 t.2))
      let r2 := s.groupReason2 f ts
      if r2 ≠ 0 then s.completeDesc d { reason := r2 } else s.acceptGroup d c f ts

/-- MOVE_GROUP (R207). -/
def execMoveGroup (d : DescId) (targets : Option (List Int)) (s : State) : Out :=
  .next (s.action d 0x12 holderGate fun s e => s.doMoveGroup targets e)

/-- The action of ABORT (R205). -/
def State.doAbort (s : State) (d : Desc) : State :=
  let g := d.gen
  if s.genAtRest g || decide (s.genState g = 0) then s.completeDesc d { reason := 0x0C }
  else ((s.mirrorDesc d).abortGen g 1).completeDesc d {}

/-- ABORT (R205). -/
def execAbort (d : DescId) (s : State) : Out := .next (s.action d 0x13 holderGate State.doAbort)

/-- The axis is not ready to home (reason 0x16). -/
def State.homeNotReady (s : State) (g : Nat) : Bool :=
  !s.genAtRest g || (decide (g < 64) && decide (s.jstate g ≠ 2)) || (decide (64 ≤ g) && !(s.stepGen (g - 64)).ready)
    || decide (s.get R.MP_HOME_CFG_MODE g = 0)

/-- An input of axis `g` is latched as chattering (R217, R221). -/
def State.chatteredInput (s : State) (g : Nat) : Bool :=
  [R.MP_IN_CFG_LIM_POS, R.MP_IN_CFG_LIM_NEG, R.MP_IN_CFG_HOME].any fun f => decide (s.get f g < 48) && s.chatLatched (s.get f g)

/-- Homing starts in its mode, at the boundary after the next (R219, R221). -/
def State.startHome (s : State) (g : Nat) : State :=
  let m := s.get R.MP_HOME_CFG_MODE g
  let start := s.acceptCycle + 2
  if s.chatteredInput g then s.homeFail g 0x15
  else if m = 7 then s.homeEvent g (if 64 ≤ g then (s.stepGen (g - 64)).issued * 65536 else s.posAt g s.tick) none
  else if (m = 1 ∨ m = 2 ∨ m = 5 ∨ m = 6) ∧ s.axin (s.dirLimit g) then s.homeFail g 0x12
  else if m ≤ 4 ∧ s.axin (s.homeSwitch g) then s.homeAway g start
  else
    let v := if m ≤ 4 then s.get R.MP_HOME_VFAST g else s.get R.MP_HOME_VSLOW g
    s.runAt g start (s.homeSign g * s.units g v)

/-- The action of HOME. -/
def State.doHome (s : State) (d : Desc) : State :=
  let g := d.gen
  if s.homeNotReady g then (s.set R.MP_STAT_HOME_RESULT g 0x16).completeDesc d { reason := 0x16 }
  else
    let s := ((s.mirrorDesc d).setBit R.MP_STAT_HOMED g false).setGen g 5
    (s.updGen g fun x => { x with home := .search, homeDesc := some d.key3, homeStart := x.pos, homeIdx := none }).startHome g

/-- HOME (R219). -/
def execHome (d : DescId) (s : State) : Out := .next (s.action d 0x14 holderGate State.doHome)

/-- The count of accepted transitions of input `n` starts afresh: those before a cleared latch are over 10 ms old. -/
def State.forgetAxin (s : State) (n : Nat) : State := { s with mp := { s.mp with axTimes := Tab.put (fun _ => []) s.mp.axTimes n [] } }

/-- The action of MP_CLEAR (R217). -/
def State.doMpClear (s : State) (d : Desc) : State :=
  let n := d.bits 4 5 0
  if !hasBit (d.word 5) 0 then s.completeDesc d {}
  else if s.axinRecent n then s.completeDesc d { reason := 0x0D }
  else (((s.mirrorDesc d).setAxin R.MP_AXIN_CHAT_LO R.MP_AXIN_CHAT_HI_C n false).forgetAxin n).completeDesc d {}

/-- MP_CLEAR (R217). -/
def execMpClear (d : DescId) (s : State) : Out := .next (s.action d 0x15 holderGate State.doMpClear)

end Sys2Proof.Machine
end

