-- ==== Sys2Proof/Machine/Engine.lean ====
section
/-! DEFINITION. Solver engines before their iteration: live inputs, the initial state, the structure descriptor and the
extended budget (R226 to R263). -/
namespace Sys2Proof.Machine

/-- Engine `e`. -/
def State.eng (s : State) (e : Nat) : Engine := Tab.get (fun _ => {}) s.sv.eng e

/-- Change engine `e`. -/
def State.updEng (s : State) (e : Nat) (f : Engine → Engine) : State :=
  { s with sv := { s.sv with eng := Tab.upd (fun _ => {}) s.sv.eng e f } }

/-- A word of the parameter block of engine `e` (R237, R238). -/
def State.pb (s : State) (e w : Nat) : Word := s.gr1 (s.get R.SV_PB_ADDR_ADDR e + w)

/-- Bits of a word of the parameter block. -/
def State.pbBits (s : State) (e w hi lo : Nat) : Nat := bitsOf (s.pb e w) hi lo

/-- A word of the parameter block as two's complement. -/
def State.pbInt (s : State) (e w : Nat) : Int := (s.pb e w).toInt

/-- The joints of the image of engine `e`. -/
def State.svJoints (s : State) (e : Nat) : Nat := s.get R.SV_DIM_NJ e

/-- The horizon of engine `e`. -/
def State.svStages (s : State) (e : Nat) : Nat := s.get R.SV_DIM_N e

/-- The Tiller of joint `i` of engine `e`. -/
def State.svTiller (s : State) (e i : Nat) : Nat := s.pbBits e (16 + 16 * i + 3) 21 16

/-- The arm groups of engine `e` as a mask: its own, or ARM_MASK of CE's block (R238). -/
def State.svMask (s : State) (e : Nat) : Nat := if e < 8 then 2 ^ e else s.pbBits 8 0 15 8

/-- The solver period in seconds. -/
def State.periodSec (s : State) : Rat := (s.solverCyc * s.cycleNs : Nat) / 1000000000

/-- The solver period in ns. -/
def State.periodNs (s : State) : Nat := s.solverCyc * s.cycleNs

/-- Round an exact value to a word with `q` fraction bits: half up, saturating in 32 bits (R239). -/
def toQ (q : Nat) (v : Rat) : Int := clampInt 32 (roundRat (v * 2 ^ q))

/-! ### Live inputs (R226, R228) -/

/-- The record of channel `c` as the frozen publication bank has it. -/
def State.liveOf (s : State) (c : Nat) : LiveIn :=
  let z : State := { s with regs := s.frozen }
  let cpr : Int := if z.get R.FB_CPR c = 0 then 2 ^ 32 else z.get R.FB_CPR c
  { lin := z.geti R.FB_POS_HI c * cpr + z.get R.FB_POS_LO c, vel := z.get64i R.FB_VEL_LO R.FB_VEL_HI 64 c,
    tick := (s.chan c).obsTick, lost := (s.chan c).lost }

/-- Hold the records and the generators' plans of the joints of engine `e` for the period that starts (R226, R229). -/
def State.holdInputs (s : State) (e : Nat) : State :=
  let l := (List.range (s.svJoints e)).map fun i =>
    let t := s.svTiller e i
    { (match s.chanOf t with
        | some c => s.liveOf c
        | none => { tick := s.tick }) with gen := s.genView t }
  s.updEng e fun x => { x with live := l }

/-- The live inputs of joint `i` of engine `e`. -/
def State.liveIn (s : State) (e i : Nat) : LiveIn := (s.eng e).live.getD i {}

/-- The scale of joint `i`: joint units for each count (R228). -/
def State.svScale (s : State) (e i : Nat) : Rat :=
  ((s.pb e (16 + 16 * i + 2)).toNat : Rat) / 2 ^ s.pbBits e (16 + 16 * i + 3) 5 0

/-- ZERO of joint `i` in counts. -/
def State.svZero (s : State) (e i : Nat) : Int :=
  signed 64 ((s.pb e (16 + 16 * i)).toNat + (s.pb e (16 + 16 * i + 1)).toNat * 2 ^ 32)

/-- The measured position q_m of joint `i` (R228). -/
def State.qM (s : State) (e i : Nat) (l : LiveIn) : Rat := ((l.lin - s.svZero e i : Int) : Rat) * s.svScale e i

/-- The measured speed v_m of joint `i` (R228). -/
def State.vM (s : State) (e i : Nat) (l : LiveIn) : Rat := (l.vel : Rat) / 2 ^ 24 * s.svScale e i

/-- The a0 word of the output block in force of joint `i`. -/
def State.aInForce (s : State) (e i : Nat) : Int := (s.gr1 (s.get R.SV_OUT_ADDR_ADDR e + 8 * i + 2)).toInt

/-- The initial state of joint `i` from its record, for a target period that starts at a tick: position and speed (R228). -/
def State.x0Of (s : State) (e i : Nat) (l : LiveIn) (target : Nat) : Rat × Rat :=
  let dt : Rat := ((target : Int) - l.tick : Int) * 8 / 1000000000
  let a : Rat := (s.aInForce e i : Rat) / 65536
  (s.qM e i l + s.vM e i l * dt + a * dt * dt / 2, s.vM e i l + a * dt)

/-! ### The kept plan (R251) -/

/-- A x + B u of an arm's joints, exactly (R227): positions, then speeds. -/
def State.nextX (s : State) (x u : List Rat) : List Rat :=
  let h := s.periodSec
  let n := u.length
  let at' := fun (l : List Rat) (i : Nat) => l.getD i 0
  (List.range n).map (fun i => at' x i + h * at' x (n + i) + h * h / 2 * at' u i)
    ++ (List.range n).map fun i => at' x (n + i) + h * at' u i

/-- Move a list of stages on by one, repeating the last. -/
def shiftStages (l : List (List Rat)) : List (List Rat) := l.drop 1 ++ l.getLast?.toList

/-- The shifted previous solution (R251). -/
def State.shiftKept (s : State) (k : Kept) : Kept :=
  let x := k.x.drop 1
  { x := x ++ [s.nextX (x.getLast?.getD []) (k.u.getLast?.getD [])], u := shiftStages k.u, tau := shiftStages k.tau, s := shiftStages k.s
    lam := shiftStages k.lam }

/-- The state of joint `i` at stage 0 of the start point: the shifted plan's, or the measured position at rest when there
is no plan (R262). -/
def State.startState (s : State) (e i : Nat) (l : LiveIn) : Rat × Rat :=
  match (s.eng e).kept, (s.eng e).prep.x with
  | some _, x :: _ => (x.getD i 0, x.getD (s.svJoints e + i) 0)
  | _, _ => (s.qM e i l, 0)

/-! ### The structure descriptor (R258) -/

/-- The plane and capsule pairs enabled in the parameter block. -/
def State.planePairs (s : State) (e : Nat) : Nat :=
  ((List.range (s.pbBits e 0 21 17)).map fun p =>
    ((List.range (s.pbBits e 0 16 12)).filter fun c => hasBit (s.pbBits e (624 + 8 * p + 4) 15 0) c).length).sum

/-- M of the parameter block (R230). -/
def State.rowsOf (s : State) (e : Nat) : Nat := 8 * s.pbBits e 0 11 8 + 2 * s.planePairs e + s.pbBits e 0 30 22

/-- The number whose field `i`, `w` bits wide, is `f i`. -/
def packFields (w n : Nat) (f : Nat → Nat) : Nat := ((List.range n).map fun i => f i * 2 ^ (w * i)).sum

/-- The pair fields ARM_A and ARM_B of CE's entry `p`. -/
def State.cePairBits (s : State) (p : Nat) : Nat := if p < s.pbBits 8 0 20 16 then s.pbBits 8 (26 + p) 5 0 else 0

/-- The two words of a 64-bit number. -/
def twoWords (v : Nat) : List Word := [BitVec.ofNat 32 v, BitVec.ofNat 32 (v / 2 ^ 32)]

/-- The structure descriptor of an arm problem. -/
def State.armDescriptor (s : State) (e : Nat) : List Word :=
  let prism := packFields 1 12 fun i => s.pbBits e (16 + 16 * i + 3) 8 8
  let lock := packFields 1 12 fun i => if (s.liveIn e i).lost && decide (i < s.svJoints e) then 1 else 0
  [s.pb e 0, item (s.svStages e % 64 + s.rowsOf e * 2 ^ 16), item (prism + lock * 2 ^ 16)]
    ++ twoWords (packFields 4 16 fun c => s.pbBits e (496 + 8 * c) 3 0)
    ++ (List.range 8).map (fun w => item (s.pbBits e (624 + 16 * w + 4) 15 0 + s.pbBits e (632 + 16 * w + 4) 15 0 * 2 ^ 16))
    ++ [item (s.eng e).force, item (s.eng e).imageId, 0]

/-- The structure descriptor of the cell problem. -/
def State.ceDescriptor (s : State) : List Word :=
  [s.pb 8 0, item (s.get R.SV_DIM_V 8 % 64 + s.get R.SV_DIM_M 8 * 2 ^ 16), 0]
    ++ twoWords (packFields 6 10 s.cePairBits) ++ twoWords (packFields 6 10 fun p => s.cePairBits (10 + p))
    ++ twoWords (packFields 6 8 fun p => s.cePairBits (20 + p)) ++ [0, 0, 0, 0]
    ++ [item (s.eng 8).force, item (s.eng 8).imageId, 0]

/-- The structure descriptor of the problem that engine `e` forms now. -/
def State.descriptor (s : State) (e : Nat) : List Word := if e < 8 then s.armDescriptor e else s.ceDescriptor

/-- The first word in which two descriptors differ; 16 when there was none before. -/
def firstDiff (old : Option (List Word)) (new : List Word) : Nat :=
  match old with
  | none => 16
  | some o => ((List.range 16).find? fun i => decide (o[i]? ≠ new[i]?)).getD 16

/-! ### Budgets (R247, R263, R307) -/

/-- T_iter of engine `e` in ns. -/
def State.tIter (s : State) (e : Nat) : Nat :=
  let n := s.svJoints e
  if e < 8 then 1500 + s.svStages e * (2 * n * n + (n * s.get R.SV_DIM_M e + 7) / 8)
  else 1000 + 40 * (s.get R.SV_DIM_V 8 + s.get R.SV_DIM_M 8)

/-- T_pub of engine `e` in ns; CE's budget has no such term. -/
def State.tPub (s : State) (e : Nat) : Nat := if e < 8 then 500 + 60 * s.svJoints e else 0

/-- The cold budget of engine `e`: B_solve with COLD_ITER iterations. -/
def State.coldBudget (s : State) (e : Nat) : Nat :=
  s.get R.SV_BUDGET e - s.get R.SV_CFG_ITER_MAX e * s.tIter e + s.get R.SV_RT_CFG_A_COLD_ITER e * s.tIter e

/-- The cold-start request of a dispatch (R263): `fits` is the scheduler's judgement. -/
def State.askGrant (s : State) (e : Nat) (fits : Bool) : State :=
  if s.get R.SV_RT_CFG_A_COLD_ITER e = 0 then s
  else if fits then s.updEng e fun x => { x with granted := true }
  else s.inc R.SV_RT_COUNT_B_GRANT_REFUSED e

/-- The start of a solve at its dispatch: the initial state, the descriptor with its hash, and a cold start when the
descriptor differs from that of the kept plan (R228, R258, R261). -/
def State.solveStart (s : State) (e : Nat) (fits : Bool) : State :=
  let target := (s.cycle / s.solverCyc + 1) * s.solverCyc
  let tt := s.tick + s.ticksTo (s.boundaryNs target)
  let d := s.descriptor e
  let x := s.eng e
  let cold := decide (x.keptDesc ≠ some d)
  let st := x.live.zipIdx.map fun l => if l.1.lost then s.startState e l.2 l.1 else s.x0Of e l.2 l.1 tt
  let x0 := st.map (fun v => v.1) ++ st.map fun v => v.2
  let s := (s.updEng e fun y =>
    { y with running := true, start := s.tick, x0 := x0, cold := cold, granted := false, target := target, targetTick := tt, last := some d,
             lostInput := y.live.any fun l => l.lost }).inc R.SV_SOLVES e
  let s := s.set R.SV_HASH e (crc32c (d.flatMap wordBytes)).toNat
  if cold then
    ((s.inc R.SV_RT_COUNT_A_COLD e).post Ev.svCold .info (some e) [item (firstDiff x.last d)]).askGrant e fits
  else s

end Sys2Proof.Machine
end

