-- ==== Sys2Proof/Machine/Jobs.lean ====
section
/-! DEFINITION. Tasks and jobs: release, dispatch and end (R297 to R307, R313, R314). -/
namespace Sys2Proof.Machine

/-- Task `i`'s job state. -/
def State.task (s : State) (i : Nat) : Task := Tab.get (fun _ => {}) s.sch.task i

/-- Change the job state of task `i`. -/
def State.updTask (s : State) (i : Nat) (f : Task → Task) : State :=
  { s with sch := { s.sch with task := Tab.upd (fun _ => {}) s.sch.task i f } }

/-- The index of the task whose TASK_A lies at an offset of the SCH block. -/
def taskAt (off : Nat) : Option Nat :=
  let b := R.SCH_TASK_A_RELEASE.base
  if b ≤ off ∧ (off - b) % 0x20 = 0 ∧ (off - b) / 0x20 < 4096 then some ((off - b) / 0x20) else none

/-- The tasks with a release source, in ascending order. -/
def State.tasks (s : State) : List Nat :=
  (s.regs.sch.filterMap fun e => taskAt e.1).filter fun i => decide (s.get R.SCH_TASK_A_RELEASE i ≠ 0)

/-- The unit of task `i` (R297). -/
def State.target (s : State) (i : Nat) : Nat := s.get R.SCH_TASK_A_TARGET i

/-- Task `i` is RESERVED. -/
def State.reserved (s : State) (i : Nat) : Bool := decide (s.get R.SCH_TASK_A_CLASS i = 0)

/-- The tasks with a running job. -/
def State.runningTasks (s : State) : List Nat := (s.sch.task.filter fun e => e.2.running).map fun e => e.1

/-- Unit `u` executes a job. -/
def State.unitBusy (s : State) (u : Nat) : Bool := s.runningTasks.any fun i => s.target i == u

/-- The flow of task `i` is free for it (R304). -/
def State.flowFree (s : State) (i : Nat) : Bool :=
  !s.bit R.SCH_TASK_A_FLOW_EN i || !(s.runningTasks.any fun j =>
    s.bit R.SCH_TASK_A_FLOW_EN j && s.get R.SCH_TASK_A_FLOW j == s.get R.SCH_TASK_A_FLOW i)

/-- The task whose job waits for or runs on unit `u`. -/
def State.jobOf (s : State) (u : Nat) : Option Nat :=
  (s.sch.task.find? fun e => e.2.ready.isSome && s.target e.1 == u).map fun e => e.1

/-- The absolute deadline of task `i`'s job, in ns on the count of ticks (R299). -/
def State.deadlineNs (s : State) (i : Nat) : Nat := (s.task i).head * 8 + s.get R.SCH_TASK_C_DEADLINE_NS i

/-- SEP ARM_MASK (R296). -/
def State.sepMask (s : State) : Nat := bitsOf (s.gr1 (s.get R.SEP_PB_ADDR_ADDR)) 28 21

/-- The arm groups of unit `u` (R306). -/
def State.unitMask (s : State) (u : Nat) : Nat :=
  if u < 0x40 then s.groupMaskOf u
  else if u < 0x48 then 2 ^ (u - 0x40)
  else if u = 0x48 ∨ u = 0x49 then (if s.bit R.SEP_CFG_EN then s.sepMask else if u = 0x48 then s.svMask 8 else 0)
  else if 0x50 ≤ u ∧ u < 0x90 then s.groupMaskOf (u - 0x50)
  else 0

/-- The fabric region of unit `u` (R27). -/
def State.unitRegion (s : State) (u : Nat) : Nat :=
  if u < 0x40 then (s.groupOf u).getD 9
  else if u < 0x48 then u - 0x40
  else if u < 0x4A then 8
  else if 0x50 ≤ u ∧ u < 0x90 then (s.groupOf (u - 0x50)).getD 9
  else 9

/-! ### Release (R299, R300) -/

/-- A dropped release. -/
def State.dropRelease (s : State) (i : Nat) (injected : Bool) : State :=
  ((s.inc R.SCH_TASK_F_DROPS i).inc R.SCH_COUNT_RELEASE_DROP).postOnce Ev.schReleaseDrop .notice (some i) [] false injected

/-- A release of task `i` with its tag and the tag its deadline counts from: it makes a job, is held, or is dropped. -/
def State.release (s : State) (i tag head : Nat) : State :=
  if !s.sch.active then s
  else
    let t := s.task i
    match s.inject 966 i with
    | (some _, s) => s.dropRelease i true
    | (none, s) =>
      if t.ready.isNone then
        s.updTask i fun t => { t with ready := some tag, head := head, since := s.tick, missed := false, lastRel := some tag }
      else if t.held.isNone then s.updTask i fun t => { t with held := some (tag, head), lastRel := some tag }
      else s.dropRelease i false

/-- Release the tasks bound to the completion signal of feedback channel `c` (R299). -/
def State.signalRelease (s : State) (c : Nat) : State :=
  (s.tasks.filter fun i => decide (s.get R.SCH_TASK_A_RELEASE i = 1) && decide (s.get R.SCH_TASK_D_FB i = c)).foldl
    (fun s i => s.release i s.tick s.tick) s

/-! ### Dispatch (R302) -/

/-- A Tiller's run starts: accumulators, lane flags and T are 0 (R159), STATE is 2, and the integrators are latched (R195). -/
def State.tillerStart (s : State) (n : Nat) : State :=
  let t := s.til n
  let s := s.updTil n fun u =>
    { u with running := true, pc := 0, acc := {}, flg := {}, t := false, start := s.tick, stSat := false, latchD := t.rdX (s.get R.TL_XADDR_B_XI_D_ADDR n),
             latchQ := t.rdX (s.get R.TL_XADDR_B_XI_Q_ADDR n) }
  s.set R.TL_STAT_STATE n 2

/-- The CHAIN successors of task `i`. -/
def State.successors (s : State) (i : Nat) : List Nat :=
  s.tasks.filter fun j => decide (s.get R.SCH_TASK_A_RELEASE j = 5) && decide (s.get R.SCH_TASK_D_PRED j = i)

/-- The later members of the chain of task `i`, in order, at most `n`. -/
def State.chainAfter (s : State) : Nat → Nat → List Nat
  | 0, _ => []
  | n + 1, i =>
    match s.successors i with
    | [] => []
    | j :: _ => j :: State.chainAfter s n j

/-- The judgement of R307 on the extended budget of engine `e` for the job of task `i` dispatched now. -/
def State.grantFits (s : State) (e i : Nat) : Bool :=
  let d := s.tick * 8 + s.coldBudget e
  let later := if e = 8 then s.chainAfter 8 i else []
  let sums := (List.range later.length).map fun k =>
    (((later.take (k + 1)).map fun j => s.get R.SCH_TASK_B_BUDGET_NS j).sum, later.getD k 0)
  decide (d ≤ s.deadlineNs i)
    && sums.all fun p => decide (d + p.1 ≤ (s.task i).head * 8 + s.get R.SCH_TASK_C_DEADLINE_NS p.2)

/-- The first handshake at the unit of task `i`. -/
def State.startUnit (s : State) (i : Nat) : State :=
  let u := s.target i
  if u < 0x40 then s.tillerStart u
  else if u < 0x49 then s.solveStart (u - 0x40) (s.grantFits (u - 0x40) i)
  else s

/-- The job of task `i` is dispatched. -/
def State.dispatch (s : State) (i : Nat) : State :=
  let s := s.updTask i fun t => { t with running := true, start := s.tick }
  { s with sch := { s.sch with admitted := s.sch.admitted.filter fun j => !(j == i) } }.startUnit i

/-- A RESERVED job of task `i` can be dispatched: ready, its unit idle, its flow free. -/
def State.canDispatch (s : State) (i : Nat) : Bool :=
  (s.task i).ready.isSome && !(s.task i).running && !s.unitBusy (s.target i) && s.flowFree i

/-- The reserved dispatch of task `i` with its detector: over 96 ns at a pace of 1.000 or above. -/
def State.reservedDispatch (s : State) (i : Nat) : State :=
  let u := s.target i
  let late := decide (12 < s.tick - (s.task i).since) && decide (0x1000 ≤ s.get R.PW_PACE_PACE (s.unitRegion u))
  (s.detect 967 i late fun inj s =>
    (s.post Ev.schDispatchLate .fault (some i) [] true inj).fault (s.unitMask u) .ss1 Ev.schDispatchLate (some i)).dispatch i

/-! ### End (R300, R304, R306) -/

/-- The unit of task `i` executes its job no more: response times are shown, a held release becomes ready. -/
def State.clearJob (s : State) (i : Nat) : State :=
  let t := s.task i
  let r := min ((s.tick - t.ready.getD s.tick) / 8) 0xFFFF
  let s := (s.set R.SCH_TASK_E_RESP_LAST i r).raiseTo R.SCH_TASK_E_RESP_MAX i r
  s.updTask i fun t =>
    match t.held with
    | some (tag, head) => { t with ready := some tag, head := head, since := s.tick, running := false, missed := false, held := none }
    | none => { t with ready := none, running := false }

/-- A deadline miss (R306) of task `i`: counted, posted by its class, and escalated for a RESERVED task. -/
def State.missed (s : State) (i : Nat) (injected : Bool) : State :=
  let s := (s.updTask i fun t => { t with missed := true }).inc R.SCH_TASK_F_MISSES i
  let s := s.inc R.SCH_COUNT_DEADLINE_MISS
  match s.get R.SCH_TASK_A_CLASS i with
  | 0 => (s.post Ev.schDeadline .fault (some i) [] true injected).fault (s.unitMask (s.target i)) .ss1 Ev.schDeadline (some i)
  | 1 => s.post Ev.schDeadline .notice (some i) [] false injected
  | _ => s

/-- The pace of fabric region `r` is lost: what its units produce is not on time (R32). -/
def State.paceLost (s : State) (r : Nat) : Bool :=
  decide (s.get R.PW_SUNDIAL_STAT_PACE_STATE = 2) && decide (s.get R.PW_PACE_PACE r < 0x1000)

/-- A job that ends after its deadline has missed it (R306), and so has one that ends while the pace of its unit's region is lost (R32). -/
def State.lateEnd (s : State) (i : Nat) : State :=
  let late := s.paceLost (s.unitRegion (s.target i)) || (s.sch.active && decide (s.deadlineNs i < s.tick * 8))
  if late && !(s.task i).missed then s.missed i false else s

/-- The job of task `i` ends: a successor of its chain is released and, its unit idle, dispatched in the same tick. -/
def State.jobEnd (s : State) (i : Nat) : State :=
  if !(s.task i).running then s
  else
    let head := (s.task i).head
    let s := s.lateEnd i
    (s.successors i).foldl (fun s j =>
      let s := s.release j s.tick head
      if s.canDispatch j then (if s.reserved j then s.reservedDispatch j else s.dispatch j) else s) (s.clearJob i)

/-- The running job of unit `u` ends. -/
def State.unitEnd (s : State) (u : Nat) : State :=
  match (s.runningTasks.filter fun i => s.target i == u).head? with
  | some i => s.jobEnd i
  | none => s

/-- The running jobs of the distance engine end, phase after phase, until its chain leaves the engine. -/
def State.phasesEnd : Nat → State → State
  | 0, s => s
  | n + 1, s => if s.unitBusy 0x49 then State.phasesEnd n (s.unitEnd 0x49) else s

/-! ### Enable and disable (R313) -/

/-- The first due time of task `i`'s delay-list entry: a TIMER's nominal release at or after now. -/
def State.firstDue (s : State) (i : Nat) : Option Nat :=
  if s.get R.SCH_TASK_A_RELEASE i = 3 then
    some (nsOf s.grid.epSec s.grid.epNs + s.get R.SCH_TASK_D_PHASE_US i * 1000)
  else none

/-- Entries of delay list `l`. -/
def State.listCount (s : State) (l : Nat) : Nat :=
  (s.sch.task.filter fun e => e.2.listDue.isSome && s.get R.SCH_TASK_A_LIST e.1 == l).length

/-- Show the occupancy of the delay lists. -/
def State.showLists (s : State) : State :=
  (List.range 4).foldl (fun s l =>
    (s.set R.SCH_LIST_STAT_OCCUPANCY l (s.listCount l)).raiseTo R.SCH_LIST_STAT_MAX l (s.listCount l)) s

/-- When the enable check passes every task's state is cleared and TIMER entries are inserted. -/
def State.schedStart (s : State) : State :=
  let s := { s with sch := { s.sch with task := [], active := true, admitted := [], us := s.now / 1000, busy := [] } }
  (s.tasks.foldl (fun s i => s.updTask i fun t => { t with listDue := s.firstDue i }) s).showLists

/-- On disable nothing more is released; waiting and held jobs and the delay lists are discarded, running jobs end. -/
def State.schedStop (s : State) : State :=
  let s := { s with sch := { s.sch with active := false, admitted := [] } }
  ((s.sch.task.map fun e => e.1).foldl (fun s i => s.updTask i fun t =>
    if t.running then { t with held := none, listDue := none, request := false } else {}) s).showLists

end Sys2Proof.Machine
end

