-- ==== Sys2Proof/Machine/Scheduler.lean ====
section
/-! DEFINITION. The commands of the task scheduler (chapter 12). -/
namespace Sys2Proof.Machine

/-- The effect of TASK_RELEASE_CYCLE: OFFSET ticks after the boundary of a matching cycle, once in it. -/
def State.cycleRelease (s : State) (i : Nat) : State :=
  let n := s.cycle
  let off := s.get R.SCH_TASK_D_OFFSET i
  if s.grid.running && s.grid.cyc.isSome && decide (s.get R.SCH_TASK_A_RELEASE i = 2)
      && decide (n % max 1 (s.get R.SCH_TASK_D_MULT i) = s.get R.SCH_TASK_D_PHASE i) && decide (off ≤ s.intoCycle)
      && decide ((s.task i).lastCycle ≠ some n) && s.sch.active then
    (s.release i (s.grid.start + off) (s.grid.start + off)).updTask i fun t => { t with lastCycle := some n }
  else s

/-- TASK_RELEASE_CYCLE (R299). -/
def execTaskReleaseCycle (i : Fin 4096) (s : State) : Out := .next (s.cycleRelease i)

/-- The effect of TASK_RELEASE_DEMAND: released at once, or held back in its delay list until MIN_GAP after the previous
release. -/
def State.demandRelease (s : State) (i : Nat) : State :=
  if !s.sch.active || decide (s.get R.SCH_TASK_A_RELEASE i ≠ 4) || (s.task i).request then s
  else
    match (s.task i).lastRel with
    | none => s.release i s.tick s.tick
    | some r =>
      let free := r + s.get R.SCH_TASK_D_MIN_GAP_US i * 125
      if free ≤ s.tick then s.release i s.tick s.tick
      else (s.updTask i fun t => { t with request := true, listDue := some (s.now + (free - s.tick) * 8) }).showLists

/-- TASK_RELEASE_DEMAND (R299, R301). -/
def execTaskReleaseDemand (i : Fin 4096) (s : State) : Out := .next (s.demandRelease i)

/-- The reserved path dispatches the job of task `i` (R302). -/
def State.reservedRound (s : State) (i : Nat) : State :=
  if s.reserved i && s.canDispatch i then s.reservedDispatch i else s

/-- JOB_DISPATCH_RESERVED (R302). -/
def execJobDispatchReserved (i : Fin 4096) (s : State) : Out := .next (s.reservedRound i)

/-! ### The earliest-deadline stage (R303, R305) -/

/-- The queue of a service unit is empty: descriptors whose action has not started, records in the event input. -/
def State.queueEmpty (s : State) (u : Nat) : Bool :=
  if u = 0x4A then !(s.hi.descs.any fun d => !d.started)
  else if u = 0x4B then s.ev.input.isEmpty
  else false

/-- The largest time of an item of service unit `u`, in ns (R305). -/
def itemNs (u : Nat) : Nat := if u = 0x4B then 500 else 2000

/-- End the jobs of service units whose queue is empty, or whose next item would take them past their budget. -/
def State.endServices (s : State) : State :=
  (s.runningTasks.filter fun i => decide (0x4A ≤ s.target i ∧ s.target i ≤ 0x4C)).foldl (fun s i =>
    if s.queueEmpty (s.target i) || decide (s.get R.SCH_TASK_B_BUDGET_NS i < (s.tick - (s.task i).start) * 8 + itemNs (s.target i)) then s.jobEnd i
    else s) s

/-- Job `a` goes before job `b`: the lesser key (absolute deadline, release tag, task index). -/
def State.edfBefore (s : State) (a b : Nat) : Bool :=
  let ka := s.deadlineNs a
  let kb := s.deadlineNs b
  let ra := (s.task a).ready.getD 0
  let rb := (s.task b).ready.getD 0
  decide (ka < kb ∨ (ka = kb ∧ (ra < rb ∨ (ra = rb ∧ a < b))))

/-- The least of a list under an order. -/
def leastBy (f : Nat → Nat → Bool) : List Nat → Option Nat
  | [] => none
  | a :: l =>
    match leastBy f l with
    | none => some a
    | some b => if f b a then some b else some a

/-- One idle service unit takes the admitted job with the least key whose flow is free. -/
def State.edfUnit (s : State) (u : Nat) : State :=
  if s.unitBusy u then s
  else
    let cand := s.sch.admitted.filter fun j => decide (s.target j = u) && (s.task j).ready.isSome && s.flowFree j
    match leastBy s.edfBefore cand with
    | some j => s.dispatch j
    | none => s

/-- Release order of R36 among the jobs of one plane: tag, then task index. -/
def State.tagBefore (s : State) (a b : Nat) : Bool :=
  let ra := (s.task a).ready.getD 0
  let rb := (s.task b).ready.getD 0
  decide (ra < rb ∨ (ra = rb ∧ a < b))

/-- A round admits at most 32 ready jobs of service units. -/
def State.letIn (s : State) : State :=
  let wait := (s.sch.task.filter fun e => e.2.ready.isSome && !e.2.running && !s.reserved e.1 && !s.sch.admitted.contains e.1).map
    fun e => e.1
  let order := orderBy s.tagBefore wait
  { s with sch := { s.sch with admitted := s.sch.admitted ++ order.take 32 } }

/-- The effect of EDF_ROUND: idle service units take admitted jobs, and the round admits the jobs that wait. -/
def State.edfRound (s : State) : State := ([0x4A, 0x4B, 0x4C].foldl State.edfUnit s.endServices).letIn

/-- EDF_ROUND (R303). -/
def execEdfRound (s : State) : Out := .next s.edfRound

/-! ### Scheduler ticks (R301) -/

/-- Release the entry of task `i` when it is due; a TIMER's due time advances from its nominal time. -/
def State.listRelease (s : State) (i : Nat) : State :=
  match (s.task i).listDue with
  | none => s
  | some d =>
    if s.now < d then s
    else if s.get R.SCH_TASK_A_RELEASE i = 3 then
      (s.release i s.tick s.tick).updTask i fun t => { t with listDue := some (d + s.get R.SCH_TASK_D_PERIOD_US i * 1000) }
    else (s.updTask i fun t => { t with listDue := none, request := false }).release i s.tick s.tick

/-- LOAD of unit `u` over the last 1,024 scheduler ticks. -/
def State.loadTick (s : State) (u : Nat) : State :=
  let l := (Tab.get (fun _ => []) s.sch.busy u).filter fun t => decide (s.sch.us < t + 1024)
  let l := if s.unitBusy u then l ++ [s.sch.us] else l
  let s := { s with sch := { s.sch with busy := Tab.put (fun _ => []) s.sch.busy u l } }
  s.set R.SCH_UNIT_STAT_LOAD u (32 * l.length)

/-- The effect of SCHEDULER_TICK: once in each microsecond of the time base; every due entry is released under one tag, the
loads advance, and the step axes sample STk_RDY. -/
def State.schedTick (s : State) : State :=
  if s.now / 1000 = s.sch.us then s
  else
    let l := s.sch.samples ++ [s.tick]
    let s := { s with sch := { s.sch with us := s.now / 1000, samples := l.drop (l.length - 8) } }
    let s := if s.sch.active then ((s.sch.task.map fun e => e.1).foldl State.listRelease s).showLists else s
    let s := s.endServices
    let s := ((s.runningTasks.map s.target) ++ (s.sch.busy.map fun e => e.1)).eraseDups.foldl State.loadTick s
    (List.range 16).foldl State.rdySample s

/-- SCHEDULER_TICK (R301). -/
def execSchedulerTick (s : State) : Out := .next s.schedTick

/-! ### Deadline misses (R306) -/

/-- The effect of DEADLINE_MISS: a job that has not ended after its absolute deadline. -/
def State.deadlineMiss (s : State) (i : Nat) : State :=
  let t := s.task i
  if t.ready.isNone || t.missed || !s.sch.active then s
  else
    match s.inject (if s.reserved i then 964 else 965) i with
    | (some _, u) => u.missed i true
    | (none, u) => if s.deadlineNs i < s.tick * 8 then u.missed i false else u

/-- DEADLINE_MISS (R306). -/
def execDeadlineMiss (i : Fin 4096) (s : State) : Out := .next (s.deadlineMiss i)

end Sys2Proof.Machine
end

