-- ==== Sys2Proof/Machine/Former.lean ====
section
/-! DEFINITION. The problem formers of the solver engines: parameter words in their formats (R237, R238), the arm problem with its
references and constraint rows (R227 to R233), the cell problem (R235), start points (R260, R261), and the certified ranges of their
inputs (R244, R259). -/
namespace Sys2Proof.Machine

/-! ### Parameter words (R237, R238) -/

/-- The fraction bits of a word of a joint's kinematic and inertial part (R237). The six inertia words follow the centre of mass. -/
def linkQ (k : Nat) : Nat := if k < 3 then 30 else if k < 6 then 24 else if k = 6 then 16 else if k < 10 then 24 else 16

/-- The fraction bits of word `w` of an arm's parameter block, unless its image says otherwise. -/
def armQ (w : Nat) : Nat :=
  if w = 0 then 0
  else if w < 16 then 24
  else if w < 208 then
    let k := (w - 16) % 16
    if k < 4 then 0 else if k < 7 then 24 else if k < 10 then 16 else if k = 10 then 30 else 24
  else if w < 496 then linkQ ((w - 208) % 24)
  else if w < 624 then (if (w - 496) % 8 = 0 then 0 else 24)
  else if w < 752 then (let k := (w - 624) % 8; if k < 3 then 30 else if k = 3 then 24 else 0)
  else if (w - 752) % 4 = 3 then 24 else 30

/-- The fraction bits of word `w` of CE's parameter block, unless its image says otherwise; WS and WK_a, which R238 gives no format,
have 24 (DESIGN CHOICE, log 133). -/
def ceQ (w : Nat) : Nat := if w = 0 ∨ 26 ≤ w then 0 else if 18 ≤ w then 15 else 24

/-- The fraction bits of word `w` of the parameter block of engine `e`, under an image's own formats. -/
def paramQOf (own : List (Nat × Nat)) (e w : Nat) : Nat :=
  match own.find? fun p => p.1 == w with
  | some p => p.2
  | none => if e < 8 then armQ w else ceQ w

/-- A word of an arm's parameter block that is not two's complement: a field, or SCALE. -/
def armField (w : Nat) : Bool :=
  decide (w = 0) || (decide (16 ≤ w ∧ w < 208) && decide ((w - 16) % 16 < 4)) || (decide (496 ≤ w ∧ w < 624) && decide ((w - 496) % 8 = 0))
    || (decide (624 ≤ w ∧ w < 752) && decide ((w - 624) % 8 = 4))

/-- A word of a parameter block that is not two's complement: a field, or SCALE. -/
def fieldWord (e w : Nat) : Bool := if e < 8 then armField w else decide (w = 0 ∨ 26 ≤ w)

/-- The value of parameter word `w` of engine `e` under an image's own formats. -/
def pqOf (own : List (Nat × Nat)) (e w : Nat) (x : Word) : Rat :=
  ((if fieldWord e w then x.toNat else x.toInt : Int) : Rat) / 2 ^ paramQOf own e w

/-- The value of parameter word `w` of engine `e`. -/
def State.pq (s : State) (e w : Nat) : Rat := pqOf (((s.eng e).image.map fun i => i.paramQ).getD []) e w (s.pb e w)

/-- Three parameter words as a vector. -/
def State.pv3 (s : State) (e w : Nat) : V3 := { x := s.pq e w, y := s.pq e (w + 1), z := s.pq e (w + 2) }

/-- A parameter of joint `i`, by its word in the joint block. -/
def State.jq (s : State) (e i k : Nat) : Rat := s.pq e (16 + 16 * i + k)

/-! ### The arm as a mechanism (R231, R232) -/

/-- The joint axis of joint `i` at q = 0 in the base frame. -/
def State.axisOf (s : State) (e i : Nat) : Axis :=
  { prism := hasBit (s.pb e (16 + 16 * i + 3)).toNat 8, w := s.pv3 e (208 + 24 * i), o := s.pv3 e (208 + 24 * i + 3) }

/-- The link of joint `i`: its inertia words are xx, xy, xz, yy, yz, zz (DESIGN CHOICE, log 134). -/
def State.linkOf (s : State) (e i : Nat) : Link :=
  let b := 208 + 24 * i
  let v := fun (k : Nat) => s.pq e (b + k)
  { m := v 6, c := s.pv3 e (b + 7)
    i := { r0 := { x := v 10, y := v 11, z := v 12 }, r1 := { x := v 11, y := v 13, z := v 14 }, r2 := { x := v 12, y := v 14, z := v 15 } }
    rotor := v 16, visc := v 17, coul := v 18 }

/-- The base-to-cell transform. -/
def State.basePose (s : State) (e : Nat) : Pose :=
  { r := { r0 := s.pv3 e 752, r1 := s.pv3 e 756, r2 := s.pv3 e 760 }
    t := { x := s.pq e 755, y := s.pq e 759, z := s.pq e 763 } }

/-- The axes and link poses of an arm at joint positions, in the cell frame. -/
def State.armChain (s : State) (e : Nat) (q : List Rat) : List (Axis × Pose) :=
  chain (s.basePose e) ((List.range (s.svJoints e)).map fun i => (s.axisOf e i, q.getD i 0))

/-- The links of an arm. -/
def State.links (s : State) (e : Nat) : List Link := (List.range (s.svJoints e)).map (s.linkOf e)

/-- A capsule of an arm at q = 0 in the base frame. -/
structure Cap where
  link : Nat
  e1 : V3
  e2 : V3
  rad : Rat

/-- Capsule `c` of the arm of engine `e`. -/
def State.capOf (s : State) (e c : Nat) : Cap :=
  let b := 496 + 8 * c
  { link := s.pbBits e b 3 0, e1 := s.pv3 e (b + 1), e2 := s.pv3 e (b + 4), rad := s.pq e (b + 7) }

/-- Where a point of link `l` at q = 0 stands (R232). -/
def onLink (ch : List (Axis × Pose)) (l : Nat) (y : V3) : V3 := ((ch[l]?).map fun c => c.2.app y).getD y

/-! ### References (R229) -/

/-- The state of a generator's plans `tau` ns after the boundary of its sample, under scaling `k` (Q1.15) in cycles of `cyc` ns: queued
segments start at the boundary at which the plan before them ends, and past the last the target rests. -/
def planRef (cyc k : Nat) : List Plan → Nat → Nat → Rat → Kin
  | [], _, _, rest => { p := rest, v := 0, a := 0 }
  | pl :: more, theta, tau, _ =>
    let t := theta + k * tau
    match pl.target with
    | none => pl.at t
    | some e =>
      if pl.ended t then
        let used := ((phasesNs pl.phases * 32768 - theta + k * cyc - 1) / (k * cyc)) * cyc
        if more.isEmpty ∨ tau < used then { p := q16 e, v := 0, a := 0 } else planRef cyc k more 0 (tau - used) (q16 e)
      else pl.at t

/-- The scaling factor under which the reference of joint `i` runs: that of its generator (R206, R229). -/
def State.refScale (s : State) (e i : Nat) : Nat := if (s.liveIn e i).gen.real then 0x8000 else s.scaleOf (s.svTiller e i)

/-- The reference of joint `i` at `tau` ns after the boundary, in counts, without the scaling of its speed. -/
def State.profAt (s : State) (e i tau : Nat) : Kin :=
  let g := (s.liveIn e i).gen
  planRef s.cycleNs (s.refScale e i) g.plans g.theta (tau - g.lag) (q16 g.rest)

/-- The reference of joint `i` at `tau` ns after the boundary, in joint units. -/
def State.refAt (s : State) (e i tau : Nat) : Kin :=
  let k := s.profAt e i tau
  let f : Rat := (s.refScale e i : Rat) / 32768
  let c := s.svScale e i
  { p := (k.p - s.svZero e i) * c, v := k.v * f * c, a := k.a * f * f * c }

/-- The profile speed of joint `i` at full scale at the boundary, in joint units (R281, R283). -/
def State.fullSpeed (s : State) (e i : Nat) : Rat := (s.profAt e i 0).v * s.svScale e i

/-! ### The row area of the separation output (R233, R285) -/

/-- The word that the separation output region starts at. -/
def State.sepOut (s : State) : Nat := s.get R.SEP_OUT_ADDR_ADDR

/-- The arms of SEP ARM_MASK. -/
def State.sepArms (s : State) : List Nat := maskList 8 s.sepMask

/-- SEP_ROWS of arm `a`. -/
def State.sepRowCount (s : State) (a : Nat) : Nat := s.pbBits a 0 30 22

/-- The joints of arm `a`. -/
def State.armJoints (s : State) (a : Nat) : Nat := s.svJoints a

/-- RB of arm `a`: the words of the rows of the arms below it. -/
def State.rowBase (s : State) (a : Nat) : Nat :=
  ((s.sepArms.filter fun b => decide (b < a)).map fun b => s.sepRowCount b * (s.armJoints b + 3)).sum

/-- A word of separation row `r` of arm `a`, in force. -/
def State.sepRowWord (s : State) (a r k : Nat) : Word := s.gr1 (s.sepOut + 256 + s.rowBase a + r * (s.armJoints a + 3) + k)

/-- Separation row `r` is active with FIRST at most `k`. -/
def State.sepRowActs (s : State) (a r k : Nat) : Bool :=
  let w := s.sepRowWord a r (s.armJoints a + 2)
  hasBit w.toNat 31 && decide (bitsOf w 7 0 ≤ k)

/-- A number of a separation row, Q8.24. -/
def State.sepRowQ (s : State) (a r k : Nat) : Rat := ((s.sepRowWord a r k).toInt : Rat) / 2 ^ 24

/-! ### Certified ranges (R243, R244) -/

/-- The certificate of engine `e`. -/
def State.certRange (s : State) (e var sub : Nat) : Option CertRange :=
  (s.eng e).image.bind fun i => i.cert.live.find? fun r => r.var == var && (decide (var < 0x400 ∨ 0x600 ≤ var) || r.sub == sub)

/-- The bound of a separation row that does not act: its certified upper bound, or the largest word of its format (R233, R259). -/
def State.idleBound (s : State) (e r : Nat) : Rat :=
  match s.certRange e (0x400 + r) (s.svJoints e) with
  | some c => (c.hi : Rat) / 2 ^ c.q
  | none => (2 ^ 31 - 1) / 2 ^ 24

/-! ### The arm problem (R227 to R233) -/

/-- A list with `c` at place `i` and 0 elsewhere. -/
def unitAt (m i : Nat) (c : Rat) : List Rat := (List.range m).map fun j => if j = i then c else 0

/-- The joint box rows of joint `i` (R230). -/
def State.boxRows (s : State) (e n i : Nat) : List Row :=
  let q := fun (c d : Rat) => { cx := unitAt (2 * n) i c, cu := [], d := d : Row }
  let v := fun (c d : Rat) => { cx := unitAt (2 * n) (n + i) c, cu := [], d := d : Row }
  let u := fun (c d : Rat) => { cx := [], cu := unitAt n i c, d := d : Row }
  [q (-1) (-(s.jq e i 4)), q 1 (s.jq e i 5), v (-1) (s.jq e i 6), v 1 (s.jq e i 6), u (-1) (s.jq e i 7), u 1 (s.jq e i 7)]

/-- The torque rows of joint `i` for an inertia row and a bias (R231). -/
def State.torqueRows (s : State) (e i : Nat) (m : List Rat) (b : Rat) : List Row :=
  [{ cx := [], cu := m.map fun v => -v, d := b - s.jq e i 8 }, { cx := [], cu := m, d := s.jq e i 9 - b }]

/-- The rows of plane `p` for capsule `c`, about joint positions (R232). -/
def State.planeRow (s : State) (e p : Nat) (ch : List (Axis × Pose)) (q : List Rat) (c : Cap) (pt : V3) : Row :=
  let b := 624 + 8 * p
  let nu := s.pv3 e b
  let y := onLink ch c.link pt
  let g := (jacobian ch c.link y).map nu.dot
  { cx := g.map fun v => -v, cu := [], d := -(s.pq e (b + 3) + c.rad - nu.dot y) - (prods g q).sum }

/-- The keep-out plane rows about joint positions: plane-major, capsules in ascending order, first endpoint then second. -/
def State.planeRows (s : State) (e : Nat) (ch : List (Axis × Pose)) (q : List Rat) : List Row :=
  (List.range (s.pbBits e 0 21 17)).flatMap fun p =>
    ((List.range (s.pbBits e 0 16 12)).filter fun c => hasBit (s.pbBits e (624 + 8 * p + 4) 15 0) c).flatMap fun c =>
      let k := s.capOf e c
      [s.planeRow e p ch q k k.e1, s.planeRow e p ch q k k.e2]

/-- Separation row `r` at the stage whose state is x_k, about joint positions (R233). -/
def State.sepRow (s : State) (e n r k : Nat) (q : List Rat) : Row :=
  if s.sepRowActs e r k then
    let g := (List.range n).map (s.sepRowQ e r)
    { cx := g, cu := [], d := s.sepRowQ e r n + s.sepRowQ e r (n + 1) * k * s.periodSec + (prods g q).sum }
  else { cx := [], cu := [], d := s.idleBound e r }

/-- The rows of the stage whose state is x_{k+1}, as many as the image has (R230, R259). -/
def State.armRows (s : State) (e k : Nat) (m : List (List Rat)) (b : List Rat) (q : List Rat) : List Row :=
  let n := s.svJoints e
  let ns := s.sepRowCount e
  let rows := (List.range n).flatMap (s.boxRows e n)
    ++ (List.range n).flatMap (fun i => s.torqueRows e i (m.getD i []) (b.getD i 0))
    ++ s.planeRows e (s.armChain e q) q ++ (List.range ns).map fun r => s.sepRow e n r (k + 1) q
  let fill := (List.range (s.get R.SV_DIM_M e - rows.length)).map fun r => ({ cx := [], cu := [], d := s.idleBound e (ns + r) } : Row)
  rows ++ fill

/-- Round a row's numbers to their formats. -/
def Row.form (f : SvVar → VarForm) (r : Row) : Calc Row := do
  let cx ← r.cx.mapM (store (f .coef))
  let cu ← r.cu.mapM (store (f .coef))
  let d ← store (f .bound) r.d
  pure { cx := cx, cu := cu, d := d }

/-- Stage `k` of an arm problem about a linearisation point: the state before it and the positions after it (R227, R230). -/
def State.armStage (s : State) (e k : Nat) (f : SvVar → VarForm) (before after : List Rat) : Calc Stage := do
  let n := s.svJoints e
  let ch := s.armChain e (before.take n)
  let ls := s.links e
  let m ← (inertiaOf ch ls).mapM fun r => r.mapM (store (f .inertia))
  let b ← (biasOf ch ls (s.pv3 e 9) (before.drop n)).mapM (store (f .bias))
  let wt : Rat := if k + 1 = s.svStages e then s.pq e 8 else 1
  let refs := (List.range n).map fun i => s.refAt e i ((k + 2) * s.periodNs)
  let accs := (List.range n).map fun i => (s.refAt e i ((k + 1) * s.periodNs)).a
  let q ← (((List.range n).map fun i => s.jq e i 11 * wt) ++ (List.range n).map fun i => s.jq e i 12 * wt).mapM (store (f .weight))
  let r ← ((List.range n).map fun i => s.jq e i 13).mapM (store (f .weight))
  let gx ← (q.zip (refs.map (fun v => v.p) ++ refs.map fun v => v.v)).mapM fun v => store (f .grad) (-(v.1 * v.2))
  let gu ← (r.zip accs).mapM fun v => store (f .grad) (-(v.1 * v.2))
  let rows ← (s.armRows e k m b (after.take n)).mapM (Row.form f)
  pure { q := q, r := r, gx := gx, gu := gu, rows := rows, inertia := m, bias := b }

/-- The formats of the internal variables of engine `e`. -/
def State.svForm (s : State) (e : Nat) (k : SvVar) : VarForm := formOf (((s.eng e).image.map fun i => i.forms).getD []) k

/-- A problem with its start point. -/
structure Setup where
  prob : Prob
  start : Calc Iter

/-- The constants and the initial state of an arm problem. -/
def State.armFrame (s : State) (e : Nat) (f : SvVar → VarForm) : Calc Prob := do
  let h := s.periodSec
  let h1 ← store (f .step) h
  let h2 ← store (f .step) (h * h / 2)
  let n := s.svJoints e
  let x0 ← (s.eng e).x0.zipIdx.mapM fun v => store (f (if v.2 < n then .pos else .vel)) v.1
  pure { n := n, h := h1, h2 := h2, x0 := x0, stages := [] }

/-- The arm problem of engine `e` with its start point: the shifted previous solution, or the default point of a cold start (R260,
R261). -/
def State.armSetup (s : State) (e : Nat) (f : SvVar → VarForm) (c : IpmCfg) : Calc Setup := do
  let p ← s.armFrame e f
  let x := s.eng e
  let u := if x.cold then List.replicate (s.svStages e) (List.replicate p.n (0 : Rat)) else x.prep.u
  let xs ← if x.cold then p.rollout f p.x0 u else pure (x.prep.x.drop 1)
  let stages ← (((p.x0 :: xs).zip xs).zipIdx).mapM fun v => s.armStage e v.2 f v.1.1 v.1.2
  let p := { p with stages := stages }
  pure { prob := p
         start := if x.cold then p.coldPoint f u xs else pure (Iter.floored c { u := u, x := xs, s := x.prep.s, lam := x.prep.lam }) }

/-! ### The cell problem (R235) -/

/-- A word of the pair area that the distance engine writes in this period (R285). -/
def State.pairWord (s : State) (p i : Nat) : Int := (s.gr2 (s.sepOut + 40 + 4 * p + i)).toInt

/-- A number of the pair area. -/
def State.pairQ (s : State) (p i : Nat) : Rat := (s.pairWord p i : Rat) / 2 ^ 24

/-- The free distance of pair `p` (R235). -/
def State.freeDist (s : State) (p : Nat) : Rat := max 0 (s.pairQ p 0 - s.pairQ p 3)

/-- KMAX of arm `a` as the distance engine writes it in this period. -/
def State.kmaxNow (s : State) (a : Nat) : Rat := ((s.gr2 (s.sepOut + 32 + a)).toNat % 65536 : Nat) / 32768

/-- The pairs that CE lists. -/
def State.cePairs (s : State) : List Nat := List.range (s.pbBits 8 0 20 16)

/-- A scaling as CE writes it, unsigned Q1.15 (R236). -/
def outK (v : Rat) : Nat := (max 0 (min (roundRat (v * 32768)) 65535)).toNat

/-- The scaling of arm `a` in CE's plan. -/
def Kept.k (p : Kept) (a : Nat) : Rat := (p.u.headD []).getD a 0

/-- The share of pair `i` in CE's plan. -/
def Kept.sigma (p : Kept) (i : Nat) : Rat := (p.u.headD []).getD (8 + i) (1 / 2)

/-- CE's variables for scalings and shares. -/
def State.ceVars (s : State) (k sg : Nat → Rat) : List Rat := (List.range 8).map k ++ s.cePairs.map sg

/-- The previous scaling of arm `a`: 0 before CE's first output (R269). -/
def State.kBar (s : State) (a : Nat) : Rat :=
  match (s.eng 8).kept with
  | some p => (outK (p.k a) : Rat) / 32768
  | none => 0

/-- The previous share of pair `p`: one half before CE's first output (R269). -/
def State.sigmaBar (s : State) (p : Nat) : Rat :=
  match (s.eng 8).kept with
  | some k => k.sigma p
  | none => 1 / 2

/-- The rows of the cell problem in the order of R235, as many as the image has. -/
def State.ceRows (s : State) : List Row :=
  let np := s.cePairs.length
  let arms := maskList 8 (s.svMask 8)
  let row := fun (l : List (Nat × Rat)) (d : Rat) =>
    { cx := [], cu := (List.range (8 + np)).map fun j => ((l.find? fun e => e.1 == j).map fun e => e.2).getD 0, d := d : Row }
  let look := s.pq 8 8
  let rows := arms.flatMap (fun a => [row [(a, -1)] 0, row [(a, 1)] (s.kmaxNow a)])
    ++ arms.map (fun a => row [(a, 1)] (s.kBar a + s.pq 8 (18 + a)))
    ++ s.cePairs.flatMap (fun p => [row [(8 + p, -1)] 0, row [(8 + p, 1)] 1])
    ++ s.cePairs.map (fun p => row [(s.pbBits 8 (26 + p) 2 0, s.pairQ p 1 * look), (8 + p, -(s.freeDist p))] 0)
    ++ s.cePairs.map fun p => row [(s.pbBits 8 (26 + p) 5 3, s.pairQ p 2 * look), (8 + p, s.freeDist p)] (s.freeDist p)
  rows ++ List.replicate (s.get R.SV_DIM_M 8 - rows.length) (row [] ((2 ^ 31 - 1) / 2 ^ 24))

/-- The bound that pair `p` with share `sg` sets for the scaling of arm `a` (R235). -/
def State.pairBound (s : State) (a p : Nat) (sg : Rat) : Option Rat :=
  let arm := fun (c part : Rat) =>
    if c ≤ 0 then none else some (if s.pq 8 8 = 0 then (if s.freeDist p = 0 then 0 else 2) else part * s.freeDist p / (c * s.pq 8 8))
  if s.pbBits 8 (26 + p) 2 0 = a then arm (s.pairQ p 1) sg
  else if s.pbBits 8 (26 + p) 5 3 = a then arm (s.pairQ p 2) (1 - sg)
  else none

/-- CE's previous output adjusted to the data of the period, with the kept slacks and duals (R269). -/
def State.shiftCe (s : State) : Kept :=
  let k := fun (a : Nat) =>
    s.cePairs.foldl (fun v p =>
      match s.pairBound a p (s.sigmaBar p) with
      | some b => min v b
      | none => v) (min (s.kBar a) (s.kmaxNow a))
  let old := (s.eng 8).kept.getD {}
  { x := [[]], u := [s.ceVars k s.sigmaBar], s := old.s, lam := old.lam }

/-- The cell problem with its start point (R235, R260, R269). -/
def State.ceSetup (s : State) (f : SvVar → VarForm) (c : IpmCfg) : Calc Setup := do
  let w := (List.range 8).map (fun a => s.pq 8 (10 + a)) ++ s.cePairs.map fun _ => s.pq 8 9
  let r ← w.mapM (store (f .weight))
  let gu ← (r.zip (s.ceVars (fun _ => 1) s.sigmaBar)).mapM fun v => store (f .grad) (-(v.1 * v.2))
  let rows ← s.ceRows.mapM (Row.form f)
  let p : Prob :=
    { n := 0, h := 0, h2 := 0, x0 := [], stages := [{ q := [], r := r, gx := [], gu := gu, rows := rows, inertia := [], bias := [] }] }
  let k := s.shiftCe
  pure { prob := p
         start := if (s.eng 8).cold then p.coldPoint f [s.ceVars (fun _ => 0) fun _ => 1 / 2] [[]]
                  else pure (Iter.floored c { u := k.u, x := [[]], s := k.s, lam := k.lam }) }

/-! ### A solve (R241, R256, R263, R264) -/

/-- What engine `e` iterates under. -/
def State.ipmCfg (s : State) (e : Nat) : IpmCfg :=
  { epsP := s.pq e 1, epsD := s.pq e 2, epsMu := s.pq e 3, sMin := s.pq e 4, lamMin := s.pq e 5, reg := s.pq e 6, pivMin := s.pq e 7
    infFrom := s.get R.SV_RT_CFG_A_INF_FROM e, epsInf := (s.geti R.SV_EPS_INF e : Rat) / 2 ^ 24
    iters := if (s.eng e).granted then s.get R.SV_RT_CFG_A_COLD_ITER e else s.get R.SV_CFG_ITER_MAX e }

/-- The plan of an iterate: its states after x_0, and the torques of its inputs (R234). -/
def Prob.planOf (f : SvVar → VarForm) (p : Prob) (it : Iter) : Calc Kept := do
  let tau ← p.numbered.mapM fun g => (g.1.inertia.zip g.1.bias).mapM fun v =>
    put (f .torque) ((f .inertia).q + (f .acc).q) (prods v.1 (it.u.getD g.2 []) ++ [v.2])
  pure { x := p.x0 :: it.x, u := it.u, tau := tau, s := it.s, lam := it.lam }

/-- Form and solve the problem of engine `e`, up to a number of complete iterations where a cut stops it: how it ends, and the plan of
its newest complete iterate. -/
def State.runSolve (s : State) (e : Nat) (stop : Option Nat) : SolveRes × Calc Kept :=
  let f := s.svForm e
  let c := s.ipmCfg e
  match (if e < 8 then s.armSetup e f c else s.ceSetup f c) with
  | .error v => ({ exit := .overflow v, iter := 0, raised := 0, last := none }, .error v)
  | .ok p =>
    let r := p.prob.solve f c stop p.start
    (r, match r.last with
      | some l => p.prob.planOf f l.1
      | none => .error 0)

/-! ### The checks of R244 and R259 -/

/-- A violation of the certificate (R245): variable, SUB or stage, value and the KIND of CERT_STAT. -/
structure Breach where
  var : Nat
  sub : Nat
  val : Int
  kind : Nat
  deriving DecidableEq, Repr

/-- An exact value against a certified range. -/
def rangeCheck (r : CertRange) (sub : Nat) (v : Rat) (kind : Nat) : Option Breach :=
  let w := v * 2 ^ r.q
  if w < r.lo ∨ (r.hi : Rat) < w then some { var := r.var, sub := sub, val := roundRat w, kind := kind } else none

/-- The first parameter word out of its range. -/
def State.paramBreach (s : State) (e : Nat) : Option Breach :=
  (((s.eng e).image.map fun i => i.cert.params).getD []).findSome? fun r => rangeCheck r 0 (s.pq e r.var) 1

/-- The live inputs of an arm solve with their variables: joint by joint the measurement, the acceleration in force and the references of
every stage, then k_a, Δ, and the separation rows that act. -/
def State.armInputs (s : State) (e : Nat) : List (Nat × Nat × Rat) :=
  let n := s.svJoints e
  ((List.range n).flatMap fun i =>
      let l := s.liveIn e i
      let b := 0x300 + 16 * i
      (if l.lost then [] else [(b, 0, s.qM e i l), (b + 1, 0, s.vM e i l)]) ++ [(b + 2, 0, (s.aInForce e i : Rat) / 65536)]
        ++ (List.range (s.svStages e)).flatMap fun k =>
            let r := s.refAt e i ((k + 2) * s.periodNs)
            [(b + 3, k, r.p), (b + 4, k, r.v), (b + 5, k, (s.refAt e i ((k + 1) * s.periodNs)).a)])
    ++ [(0x3C0, 0, if s.bit R.SV_CFG_EN 8 then (((s.gr1 (s.get R.SV_OUT_ADDR_ADDR 8 + e)).toNat % 65536 : Nat) : Rat) / 32768 else 1)]
    ++ (List.range n).flatMap (fun i => let l := s.liveIn e i; if l.lost then [] else [(0x3C1, 0, ((((s.eng e).targetTick : Int) - l.tick : Int) : Rat) * 8 / 1000000000)])
    ++ ((List.range (s.sepRowCount e)).filter fun r => s.sepRowActs e r (s.svStages e)).flatMap fun r =>
        (List.range (n + 2)).map fun k => (0x400 + r, k, s.sepRowQ e r k)

/-- The live inputs of CE's solve with their variables. -/
def State.ceInputs (s : State) : List (Nat × Nat × Rat) :=
  (s.cePairs.flatMap fun p => (List.range 4).map fun k => (0x300 + 4 * p + k, 0, s.pairQ p k))
    ++ (maskList 8 (s.svMask 8)).map (fun a => (0x3C0 + a, 0, s.kmaxNow a)) ++ (maskList 8 (s.svMask 8)).map fun a => (0x3C8 + a, 0, s.kBar a)

/-- The first violation of the former's checks: rows beyond the image's M, parameters in the first solve after a swap of their block, then
live inputs (R244, R259). -/
def State.rangeBreach (s : State) (e : Nat) : Option Breach :=
  if e < 8 ∧ s.get R.SV_DIM_M e < s.rowsOf e then some { var := 0, sub := 0, val := (s.pb e 0).toNat, kind := 1 }
  else
    match (if (s.eng e).paramCheck then s.paramBreach e else none) with
    | some b => some b
    | none => (if e < 8 then s.armInputs e else s.ceInputs).findSome? fun v => (s.certRange e v.1 v.2.1).bind fun r => rangeCheck r v.2.1 v.2.2 0

end Sys2Proof.Machine
end

