-- ==== Sys2Proof/Machine/Solver.lean ====
section
/-! DEFINITION. The solver engines' commands: the end and the cut of a solve, what it publishes, and the protective-stop
request (chapters 09, 10). -/
namespace Sys2Proof.Machine

/-- Saturate to a word. -/
def satWord (v : Int) : Word := BitVec.ofInt 32 (clampInt 32 v)

/-! ### Status word (R257) -/

/-- A saturated eight-bit run. -/
def run8 (n : Nat) : Nat := min n 255

/-- The status word of a solve of engine `e` that ends with an outcome. -/
def State.statusWord (s : State) (e outcome phase iter : Nat) (stop : Bool) : Word :=
  let x := s.eng e
  let b := fun (c : Bool) (i : Nat) => if c then 2 ^ i else 0
  item (outcome + b x.cold 4 + b x.granted 5 + b x.lostInput 6 + b stop 7 + iter % 64 * 2 ^ 8 + phase % 4 * 2 ^ 14
    + run8 x.fbRun * 2 ^ 16 + run8 x.infRun * 2 ^ 24)

/-! ### Outputs (R234, R236) -/

/-- The words 0 to 4 of the output block of joint `i` of a plan (R234). -/
def State.blockBody (s : State) (e : Nat) (p : Kept) (i : Nat) : List Word :=
  let x := p.x.headD []
  let kt := s.jq e i 10
  let t0 := (p.tau.getD 0 []).getD i 0
  let t1 := (p.tau.getD 1 []).getD i 0
  let f1 := if s.periodSec = 0 then 0 else kt * (t1 - t0) / s.periodSec
  let w := fun (q : Nat) (v : Rat) => BitVec.ofInt 32 (toQ q v)
  [w 24 (x.getD i 0), w 24 (x.getD (s.svJoints e + i) 0), w 16 ((p.u.headD []).getD i 0), w 30 (kt * t0), w 16 f1]

/-- The bodies of the output blocks of a plan. -/
def State.blockBodies (s : State) (e : Nat) (p : Kept) : List (List Word) := (List.range (s.svJoints e)).map (s.blockBody e p)

/-- Write output blocks with a status word to the standby bank. -/
def State.writeBlocks (s : State) (e : Nat) (bodies : List (List Word)) (status : Word) : State :=
  bodies.zipIdx.foldl (fun t b => t.grPutList (s.get R.SV_OUT_ADDR_ADDR e + 8 * b.2) (b.1 ++ [status, item (s.eng e).target])) s

/-- The hold plan: every joint rests at its measured position at the boundary (R253). -/
def State.holdPlan (s : State) (e : Nat) : Kept :=
  let n := s.svJoints e
  let m := s.get R.SV_DIM_M e
  let stages := List.range (s.svStages e)
  let zeros := stages.map fun _ => List.replicate n (0 : Rat)
  let q := (List.range n).map (fun i => s.qM e i (s.liveIn e i)) ++ List.replicate n 0
  { x := q :: stages.map fun _ => q, u := zeros, tau := zeros
    s := stages.map fun k => (List.range m).map fun j => Config.holdSlack (k * m + j)
    lam := stages.map fun k => (List.range m).map fun j => Config.holdDual (k * m + j) }

/-- Write CE's scalings and budgets to the standby bank (R236). -/
def State.writeCe (s : State) (p : Kept) : State :=
  let out := s.get R.SV_OUT_ADDR_ADDR 8
  let s1 := (List.range 8).foldl (fun t a => t.grPut (out + a) (if hasBit (s.svMask 8) a then item (outK (p.k a)) else 0x8000)) s
  let w := fun (v : Rat) => BitVec.ofInt 32 (toQ 24 v)
  s.cePairs.foldl (fun t i =>
    t.grPutList (out + 8 + 2 * i) [w (p.sigma i * s.freeDist i), w ((1 - p.sigma i) * s.freeDist i)]) s1

/-! ### Publication (R249 to R253, R266) -/

/-- The fallback plan of engine `e`. -/
def State.fallback (s : State) (e : Nat) : Kept :=
  if e = 8 then s.shiftCe else if (s.eng e).solvedOnce then (s.eng e).prep else s.holdPlan e

/-- The block bodies that go with an outcome's plan: a fallback after the first solved outcome writes those prepared with the kept plan
(R252). -/
def State.bodiesOf (s : State) (e outcome : Nat) (p : Kept) : List (List Word) :=
  if 3 ≤ outcome ∧ (s.eng e).solvedOnce then (s.eng e).blocks else s.blockBodies e p

/-- Keep a plan; an arm engine prepares the shifted solution with its output blocks (R251, R252). -/
def State.keepPlan (s : State) (e : Nat) (p : Kept) (desc : Option (List Word)) : State :=
  let next := if e < 8 then s.shiftKept p else {}
  s.updEng e fun x => { x with kept := some p, keptDesc := desc, prep := next, blocks := s.blockBodies e next }

/-- The outcome in force: HOLD for an arm engine's fallback before its first solved outcome since enable (R253). -/
def State.outcomeOf (s : State) (e outcome : Nat) : Nat :=
  if 3 ≤ outcome ∧ e < 8 ∧ !(s.eng e).solvedOnce then 10 else outcome

/-- The runs of R266 after an outcome; a solved one lets a further stop request be posted (R267). -/
def Engine.count (x : Engine) (outcome : Nat) : Engine :=
  if outcome < 3 then
    { x with fbRun := 0, infRun := 0, solvedOnce := true, solvedStandby := true, stopArmed := true, stopSolved := true }
  else { x with fbRun := x.fbRun + 1, infRun := if outcome = 3 then x.infRun + 1 else 0, solvedStandby := false }

/-- A run has reached its persistence. -/
def State.persists (s : State) (e : Nat) : Bool :=
  decide (s.get R.SV_RT_CFG_A_INF_PERSIST e ≤ (s.eng e).infRun ∧ 0 < (s.eng e).infRun)
    || decide (s.get R.SV_RT_CFG_A_FB_PERSIST e ≤ (s.eng e).fbRun ∧ 0 < (s.eng e).fbRun)

/-- STOP_REQ clears once a solved outcome was published after it and its event is acknowledged (R267). -/
def State.settleStop (s : State) (e : Nat) : State :=
  let x := s.eng e
  if x.stopReq && x.stopSolved && s.acked Ev.svStopReq e then
    (s.updEng e fun y => { y with stopReq := false }).set R.SV_STATUS e (clrBit (s.get R.SV_STATUS e) 7)
  else s

/-- The counters of an outcome. -/
def State.countOutcome (s : State) (e outcome : Nat) : State :=
  let s := if outcome = 1 ∨ outcome = 2 then s.inc R.SV_RT_COUNT_A_ACCEPTED e else s
  let s := if 3 ≤ outcome ∧ outcome ≤ 9 then s.inc R.SV_RT_COUNT_A_SHIFTED e else s
  let s := if outcome = 3 then s.inc R.SV_RT_COUNT_A_INFEASIBLE e else s
  let s := if outcome = 6 then s.inc R.SV_RT_COUNT_B_CUT_MIDFACTOR e else s
  if outcome = 2 ∨ outcome = 7 ∨ outcome = 9 then s.inc R.SV_RT_COUNT_B_CUT_OTHER e else s

/-- Deliver the output of an outcome, keep its plan, and show the solve's figures (R249): `plan` is that of a solved outcome. -/
def State.deliver (s : State) (e cause phase iter raised : Nat) (plan : Kept := {}) : State :=
  let outcome := s.outcomeOf e cause
  let p := if outcome < 3 then plan else s.fallback e
  let bodies := s.bodiesOf e outcome p
  let ran := (s.eng e).running
  let s := s.updEng e fun x => x.count outcome
  let s := s.settleStop e
  let w := s.statusWord e outcome phase iter ((s.eng e).stopReq || (s.persists e && (s.eng e).stopArmed))
  let s := if e < 8 then s.writeBlocks e bodies w else s.writeCe p
  let s := s.keepPlan e p (if ran then (s.eng e).last else (s.eng e).keptDesc)
  let s := (s.set R.SV_STATUS e w.toNat).countOutcome e outcome
  let s := s.set R.SV_ITER_STAT_ITER_LAST e iter
  let s := s.set R.SV_ITER_STAT_PIV_FLOORS e (min raised 255)
  let s := if raised = 0 then s else s.inc R.SV_COUNT_PIV_FLOOR e
  let t := min (s.tick - (s.eng e).start) 0xFFFF
  let s := if ran then (s.set R.SV_RUN_LAST e t).raiseTo R.SV_RUN_MAX e t else s
  (s.updEng e fun x => { x with running := false }).unitEnd (0x40 + e)

/-- The acceptance test of the newest complete iterate (R256). -/
def State.accepts (s : State) (e : Nat) (r : SolveRes) : Bool :=
  match r.last with
  | some l => decide (l.2 ≤ (s.geti R.SV_RT_CFG_B e : Rat) / 2 ^ 24)
  | none => false

/-- A certificate violation is latched and posted (R245). -/
def State.certViolation (s : State) (e var sub : Nat) (val : Int) (kind : Nat) (injected : Bool) : State :=
  let s := ((s.set R.SV_CERT_STAT_VAR e var).set R.SV_CERT_STAT_SUB e sub).set R.SV_CERT_STAT_KIND e kind
  let s := (s.seti R.SV_CERT_VAL e (clampInt 32 val)).inc R.SV_COUNT_CERT_VIOL e
  s.post Ev.svCert .fault (some e) [item var, item sub, satWord val] false injected

/-- An overflow is latched, posted and escalated (R240). -/
def State.overflow (s : State) (e var : Nat) (injected : Bool) : State :=
  let s := ((s.set R.SV_CERT_STAT_VAR e var).set R.SV_CERT_STAT_KIND e 2).inc R.SV_COUNT_OVF e
  (s.post Ev.svOvf .fault (some e) [item var] true injected).fault (s.svMask e) .ss1 Ev.svOvf (some e)

/-- The class of row `row` (R230, R265): CE's rows have class 0. -/
def State.rowClass (s : State) (e row : Nat) : Nat :=
  let n := s.svJoints e
  let m := s.get R.SV_DIM_M e
  let j := if m = 0 then row else row % m
  if e = 8 ∨ j < 6 * n then 0 else if j < 8 * n then 1 else if j < s.rowsOf e - s.pbBits e 0 30 22 then 2 else 3

/-- The most-violated row is recorded; the first of a run of infeasible outcomes is posted (R265). -/
def State.infeasible (s : State) (e row cls : Nat) (viol : Int) (injected : Bool) : State :=
  let s := ((s.set R.SV_INF_ROW_ROW e row).set R.SV_INF_ROW_CLASS e cls).seti R.SV_INF_VAL e (clampInt 32 viol)
  if (s.eng e).infRun = 0 then s.post Ev.svInfeasible .notice (some e) [item row, satWord viol] false injected else s

/-- A certificate violation abandons the solve before its first iteration (R245). -/
def State.abandonCert (s : State) (e : Nat) (b : Breach) (injected : Bool) : State :=
  (s.certViolation e b.var b.sub b.val b.kind injected).deliver e 4 0 0 0

/-- Deliver the plan of an iterate with a solved outcome; a torque that overflows abandons the solve (R240). -/
def State.deliverPlan (s : State) (e outcome phase : Nat) (r : SolveRes) (p : Calc Kept) : State :=
  match p with
  | .ok k => s.deliver e outcome phase r.iter r.raised k
  | .error v => (s.overflow e v false).deliver e 5 phase r.iter r.raised

/-- The deliveries of the exits of a solve (R249); a cut by the phase in which the engine stopped (R255). -/
def State.exitSolve (s : State) (e : Nat) (phase : CutPhase) (r : SolveRes × Calc Kept) : State :=
  match r.1.exit with
  | .converged => s.deliverPlan e 0 0 r.1 r.2
  | .budget => if s.accepts e r.1 then s.deliverPlan e 1 0 r.1 r.2 else s.deliver e 8 0 r.1.iter r.1.raised
  | .infeasible row viol => (s.infeasible e row (s.rowClass e row) (roundRat (viol * 2 ^ 24)) false).deliver e 3 0 r.1.iter r.1.raised
  | .overflow var => (s.overflow e var false).deliver e 5 0 r.1.iter r.1.raised
  | .cut =>
    let s := s.postOnce Ev.svCut .notice (some e)
    match phase with
    | .former => s.deliver e 9 1 0 0
    | .factor => s.deliver e 6 2 r.1.iter r.1.raised
    | .step => if s.accepts e r.1 then s.deliverPlan e 2 3 r.1 r.2 else s.deliver e 7 3 r.1.iter r.1.raised

/-! ### The commands -/

/-- A cut that comes before the iteration: the solve counts as not run (R255). -/
def State.cutEarly (s : State) (e : Nat) (injected : Bool) : State :=
  (s.postOnce Ev.svCut .notice (some e) [] false injected).deliver e 9 1 0 0

/-- The phase that an injected cut names: 0 or 1 the former, 2 a factorisation, 3 solves or step. -/
def cutPhaseOf (v : Nat) : CutPhase := if v = 2 then .factor else if v = 3 then .step else .former

/-- The deadline of engine `e`'s job has passed (R225). -/
def State.pastDeadline (s : State) (e : Nat) : Bool :=
  match s.jobOf (0x40 + e) with
  | some i => decide (s.deadlineNs i < s.tick * 8)
  | none => false

/-- An injected cut: before the iteration as the former's, else at the first iteration, whose factorisation or step it meets. -/
def State.injectedCut (s : State) (e : Nat) (phase : CutPhase) : State :=
  let s := s.postOnce Ev.svCut .notice (some e) [] false true
  let r := s.runSolve e (some 0)
  match phase with
  | .former => s.deliver e 9 1 0 0
  | .factor => s.deliver e 6 2 0 0
  | .step => if s.accepts e r.1 then s.deliverPlan e 2 3 r.1 r.2 else s.deliver e 7 3 0 0

/-- The solve of engine `e` reaches its end: an injected violation, overflow, certificate or cut, or what its inputs and its iteration
give, in the order of R249. -/
def State.finishSolve (s : State) (e : Nat) : State :=
  let breach := s.rangeBreach e
  let s := s.updEng e fun y => { y with paramCheck := false }
  match s.inject (880 + e) e with
  | (some ps, s) =>
    s.abandonCert e { var := param ps 0, sub := 0, val := signed 32 (param ps 1), kind := if param ps 0 < 0x300 then 1 else 0 } true
  | (none, s) =>
    match breach with
    | some b => s.abandonCert e b false
    | none =>
      match s.inject (889 + e) e with
      | (some ps, s) => (s.overflow e (param ps 0) true).deliver e 5 0 0 0
      | (none, s) =>
        match s.inject (916 + e) e with
        | (some ps, s) =>
          (s.infeasible e (param ps 0) (s.rowClass e (param ps 0)) (signed 32 (param ps 1)) true).deliver e 3 0 0 0
        | (none, s) =>
          match s.inject (925 + e) e with
          | (some ps, s) => s.injectedCut e (cutPhaseOf (param ps 0))
          | (none, s) => s.exitSolve e .step (s.runSolve e none)

/-- A solve whose deadline has passed writes nothing and ends (R225). -/
def State.dropSolve (s : State) (e : Nat) : State := (s.updEng e fun x => { x with running := false }).unitEnd (0x40 + e)

/-- An uncorrectable scratch word abandons the solve: nothing is published (R246, R250). -/
def State.abandonSolve (s : State) (e : Nat) : State := if (s.eng e).running then s.dropSolve e else s

/-- A read of a word of an engine's scratch memory (R246). -/
def State.scrubScratch (s : State) (e : Nat) (m : ScrubMem) : State :=
  let found := s.found m
  let (u, s) := (s.heal m).inject (898 + e) e
  let (c, s) := if u.isSome then (none, s) else s.inject (907 + e) e
  if u.isSome || (c.isNone && found == some true) then
    (s.abandonSolve e).eccFatal Ev.svEccUncorr (some e) (s.svMask e) false u.isSome
  else if c.isSome || found.isSome then
    (s.inc R.SV_COUNT_ECC_CORR e).postOnce Ev.svEccCorr .notice (some e) [] false c.isSome
  else s

/-- The scratch words of engine `e` that its problem uses and that hold wrong bits. -/
def State.scratchHits (s : State) (e : Nat) : List ScrubMem :=
  ((s.flips.map fun h => h.mem).filter fun m => match m with
    | .scratch f a => decide (f.val = e ∧ a < s.get R.SV_SCRATCH_WORDS e)
    | _ => false).eraseDups

/-- A solve reads every word of its scratch memory (R246). -/
def State.readScratch (s : State) (e : Nat) : State := (s.scratchHits e).foldl (fun t m => t.scrubScratch e m) s

/-- The effect of SOLVE_END on a running solve: an uncorrectable word of its scratch memory abandons it. -/
def State.solveEnd (s : State) (e : Nat) : State :=
  if !(s.eng e).running then s
  else if s.pastDeadline e then s.dropSolve e
  else
    let s := s.readScratch e
    if (s.eng e).running then s.finishSolve e else s

/-- SOLVE_END (R249). -/
def execSolveEnd (e : Fin 9) (s : State) : Out := .next (s.solveEnd e)

/-- The cut of engine `e`'s job is due (R254) and its deadline is not past. -/
def State.cutDue (s : State) (e : Nat) : Bool :=
  match s.jobOf (0x40 + e) with
  | some i => decide (s.deadlineNs i ≤ s.tick * 8 + s.tPub e + 200) && !s.pastDeadline e
  | none => false

/-- A solve that was never dispatched by its cut leaves the scheduler with its job. -/
def State.dropJob (s : State) (e : Nat) : State :=
  match s.jobOf (0x40 + e) with
  | some i => if (s.task i).running then s else s.clearJob i
  | none => s

/-- The cut meets a solve that runs: a violation of its inputs stands above it (R270), and so does an exit that the solve had reached. -/
def State.meetCut (s : State) (e : Nat) (phase : CutPhase) (iter : Nat) : State :=
  match s.rangeBreach e with
  | some b => (s.updEng e fun y => { y with paramCheck := false }).abandonCert e b false
  | none =>
    match phase with
    | .former => s.cutEarly e false
    | _ => (s.updEng e fun y => { y with paramCheck := false }).exitSolve e phase (s.runSolve e (some iter))

/-- The cut of a running solve. -/
def State.cutRunning (s : State) (e : Nat) (phase : CutPhase) (iter : Nat) : State :=
  let s := s.readScratch e
  if (s.eng e).running then s.meetCut e phase iter else s

/-- The effect of SOLVE_CUT: at t_cut the engine stops and delivers by its phase, with the iterations complete by then; a solve not
dispatched counts as not run. -/
def State.solveCut (s : State) (e : Nat) (phase : CutPhase) (iter : Nat) : State :=
  if !s.bit R.SV_CFG_EN e || !s.cutDue e then s
  else if (s.eng e).running then s.cutRunning e phase iter
  else
    ((s.updEng e fun x => { x with cold := false, granted := false, lostInput := x.live.any fun l => l.lost
                                   target := (s.cycle / s.solverCyc + 1) * s.solverCyc }).cutEarly e false).dropJob e

/-- SOLVE_CUT (R254, R255). -/
def execSolveCut (e : Fin 9) (phase : CutPhase) (iter : Nat) (s : State) : Out := .next (s.solveCut e phase iter)

/-- The effect of SV_STOP_REQ: a run that has reached its persistence requests a protective stop, once until both runs
return to 0 (R267). The event carries the cause (0 INF_RUN, 1 FB_RUN), the outcome and both runs. -/
def State.stopRequest (s : State) (e : Nat) : State :=
  let x := s.eng e
  if s.persists e && x.stopArmed then
    let byInf := decide (s.get R.SV_RT_CFG_A_INF_PERSIST e ≤ x.infRun ∧ 0 < x.infRun)
    let s := (s.updEng e fun y => { y with stopReq := true, stopArmed := false, stopSolved := false }).inc R.SV_RT_COUNT_B_STOP_REQS e
    let s := s.set R.SV_STATUS e (orBit (s.get R.SV_STATUS e) 7)
    let s := s.post Ev.svStopReq .fault (some e)
      [item (if byInf then 0 else 1), item (s.get R.SV_STATUS e % 16), item x.infRun, item x.fbRun] true
    s.fault (s.svMask e) (reactOf (s.get R.SV_RT_CFG_A_STOP_REACT e)) Ev.svStopReq (some e)
  else s

/-- SV_STOP_REQ (R267). -/
def execSvStopReq (e : Fin 9) (s : State) : Out := .next (s.stopRequest e)

/-- FORCE_COLD_WRITE (R258): the force generation advances for the next solve. -/
def execForceColdWrite (e : Fin 9) (s : State) : Out := .next (s.updEng e fun x => { x with force := x.force + 1 })

end Sys2Proof.Machine
end

