-- ==== Sys2Proof/Machine/Joint.lean ====
section
/-! DEFINITION. Joint control: joint states and reactions, the actions at END, the preload with the reference block and the
bumpless transfer (chapters 06, 07). -/
namespace Sys2Proof.Machine

/-! ### Joint states (R184, R185) -/

/-- The Tillers in use of arm group `g`. -/
def State.joints (s : State) (g : Nat) : List Nat := (s.groupTillers g).filter fun n => s.bit R.TL_CFG_EN n

/-- The joints of arm group `g` in state `js`. -/
def State.jointsIn (s : State) (g js : Nat) : List Nat := (s.joints g).filter fun n => decide (s.jstate n = js)

/-- Arm group `g` is in state `js`: it has joints that are not LOST, and all of them are in it. -/
def State.groupIn (s : State) (g js : Nat) : Bool :=
  let l := (s.joints g).filter fun n => decide (s.jstate n ≠ 6)
  !l.isEmpty && l.all fun n => decide (s.jstate n = js)

/-- A stop acts on arm group `g`: some joint is ACTIVE, STOPPING or HELD. -/
def State.groupMoves (s : State) (g : Nat) : Bool := (s.joints g).any fun n => [2, 3, 4].contains (s.jstate n)

/-- Put joint `n` into state `js`. -/
def State.setJoint (s : State) (js n : Nat) : State :=
  let s := s.set R.TL_JSTAT_JSTATE n js
  if js = 1 then (s.set R.TL_SAT_ACC n 0).updTil n fun t => { t with standbyRuns := 0, tripped := false } else s

/-- Move every joint of arm group `g` in state `a` to state `b`. -/
def State.moveJoints (s : State) (g a b : Nat) : State := (s.jointsIn g a).foldl (fun s n => s.setJoint b n) s

/-- A joint takes a stop: STOPPING with its cause, its generator on the stop ramp (R184, R205). -/
def State.stopJoint (s : State) (cause n : Nat) : State :=
  if [2, 4].contains (s.jstate n) then ((s.setJoint 3 n).set R.TL_JSTAT_CAUSE n cause).abortGen n 2
  else if s.jstate n = 3 then s.set R.TL_JSTAT_CAUSE n cause
  else s

/-- A stop takes effect on arm group `g` at a boundary: 1 SS2, 2 SS1. SS1 prevails: it turns an SS2, and an SS2 in an SS1 is
ignored. -/
def State.applyStop (s : State) (g kind cause : Nat) : State :=
  if !s.groupMoves g || decide (kind ≤ (s.group g).stop) then s
  else
    let s := (s.joints g).foldl (State.stopJoint · cause) s
    (s.updGroup g fun r => { r with stop := kind, ss1Start := if kind = 2 then s.tick else r.ss1Start }).mirrorFree 3

/-- The reaction that waits for arm group `g` takes effect. -/
def State.applyWant (s : State) (g : Nat) : State :=
  let r := s.group g
  if r.want = 0 then s
  else (s.updGroup g fun r => { r with want := 0, wantCause := 0 }).applyStop g r.want r.wantCause

/-- A stop reaches arm group `g` and waits for the next boundary; SS1 prevails over SS2. -/
def State.wantStop (s : State) (g kind cause : Nat) : State :=
  if s.groupMoves g then
    s.updGroup g fun r => if r.want < kind then { r with want := kind, wantCause := cause } else r
  else s

/-- Remember an event that stops arm group `g` (R186). -/
def State.noteStop (s : State) (g code inst : Nat) : State :=
  if s.groupMoves g ∧ !((s.group g).stopEvents.contains (code, inst)) then
    s.updGroup g fun r => { r with stopEvents := r.stopEvents ++ [(code, inst)] }
  else s

/-- A stop asked for by an escalation reaches arm group `g` (R184, R185); one that reaches no joint that moves is held until its reaction
is applied, or its event acknowledged (R25). -/
def State.reachStop (s : State) (e : Esc) (kind g : Nat) : State :=
  if s.groupMoves g then (s.noteStop g e.code e.inst).wantStop g kind e.cause
  else
    s.updGroup g fun r =>
      if r.held.any fun x => x.code == e.code && x.inst == e.inst && x.react == e.react then r else { r with held := r.held ++ [e] }

/-- The reaction of a held escalation: 1 SS2, 2 SS1. -/
def Esc.stopKind (e : Esc) : Nat := match e.react with | .ss2 => 1 | .ss1 | .pace => 2 | _ => 0

/-- The escalations held for arm group `g` whose events are not acknowledged stop it where it moves (R25). -/
def State.applyHeld (s : State) (g : Nat) : State :=
  let l := (s.group g).held.filter fun e => !s.acked e.code e.inst
  if l.isEmpty || !s.groupMoves g then s
  else (l.foldl (fun s e => s.reachStop e e.stopKind g) (s.updGroup g fun r => { r with held := [] })).applyWant g

/-- A joint of a stopping group meets the standstill condition (R184, R188). -/
def State.jointStill (s : State) (n : Nat) : Bool :=
  decide (s.jstate n = 6) || (decide (8 ≤ (s.til n).stillRun) && (s.genAtRest n || !s.bit R.MP_CFG_EN n))

/-- The position of joint `n` in counts. -/
def State.jointPos (s : State) (n : Nat) : Int := ((s.chanOf n).map fun c => (s.chan c).lin).getD 0

/-- A boundary falls into this tick: the instants at which joint states change (R184). -/
def State.atBoundary (s : State) : Bool := s.grid.running && s.grid.cyc.isSome && decide (s.tick = s.grid.start)

/-- The effect of STANDSTILL_REACHED, at a boundary: an SS2 ends in HELD, an SS1 in torque off. LOST joints take no part (R188). -/
def State.standstill (s : State) (g : Nat) : State :=
  let r := s.group g
  if !s.atBoundary || decide (r.stop = 0) || !((s.joints g).all s.jointStill) then s
  else if r.stop = 2 then s.assertGroup 0 g
  else
    let s := (s.jointsIn g 3).foldl (fun s n => (s.setJoint 4 n).updTil n fun t => { t with heldPos := s.jointPos n }) s
    (s.updGroup g fun r => { r with stop := 0 }).mirrorFree 3

/-- STANDSTILL_REACHED (R184). -/
def execStandstillReached (g : Fin 8) (s : State) : Out := .next (s.standstill g)

/-- SS1_TIMEOUT of arm group `g` in ticks: the largest of its joints. -/
def State.ss1Ticks (s : State) (g : Nat) : Nat :=
  ((s.joints g).map fun n => s.get R.TL_STOP_CFG_SS1_TIMEOUT n).foldl max 0 * 125000

/-- The effect of SS1_TIMEOUT_EXPIRY. -/
def State.ss1Expiry (s : State) (g : Nat) : State :=
  if (s.group g).stop = 2 ∧ (s.group g).ss1Start + s.ss1Ticks g ≤ s.tick then s.assertGroup 0 g else s

/-- SS1_TIMEOUT_EXPIRY (R184). -/
def execSs1TimeoutExpiry (g : Fin 8) (s : State) : Out := .next (s.ss1Expiry g)

/-! ### ARM_SERVO (R186) -/

/-- The joint state that an operation starts from: 0 ON, 1 STOP, 2 RESUME, 3 RESET. -/
def servoFrom (op : Nat) : Nat := match op with | 0 => 1 | 1 => 2 | 2 => 4 | _ => 5

/-- A feedback channel that writes to a joint of arm group `g` meets `p`. -/
def State.anyChan (s : State) (g : Nat) (p : Chan → Bool) : Bool :=
  (List.range 64).any fun c => (s.joints g).any (fun n => s.chanFeeds c n) && p (s.chan c)

/-- The group has not settled (reason 0x03). -/
def State.notSettled (s : State) (g : Nat) : Bool :=
  (s.joints g).any (fun n =>
    decide ((s.til n).standbyRuns < 2) || decide (s.get R.TL_GAIN_REGION_SELECTED n ≠ s.get R.TL_GAIN_REGION_REGION n)
      || (s.bit R.TL_REF_CFG_REF_EN n && !(s.eng g).solvedInForce))
    || s.anyChan g fun c => !c.validSeen

/-- The restart after a pace stop or a reference loss is forbidden, with its DETAIL (R33, R49, R439): the region of the event that
caused the pace stop, or 0x00FF. The spec is silent on a pace stop and a reference stop that both hold: the pace region is given
(DESIGN CHOICE, log entry 105). -/
def State.restartBlock (s : State) : Option Nat :=
  let paceHeld := (s.pw.paceStop.any fun p => !s.acked p.1 p.2) || decide (s.pw.recoverRun < 1024)
  let ref := s.pw.refStop.filter fun c =>
    !s.acked c noInst || !s.bit R.TB_REF_STATUS_LOCKED || decide (s.tick < s.tb.lockTick + 125000000)
  match s.pw.paceStop, ref with
  | p :: _, _ => if paceHeld then some p.2 else ref.map fun _ => 0xFF
  | [], some _ => some 0xFF
  | [], none => none

/-- The event that stopped arm group `g` is unacknowledged (reason 0x04). -/
def State.causeUnacked (s : State) (g : Nat) : Bool := (s.group g).stopEvents.any fun e => !s.acked e.1 e.2

/-- The reason for which ARM_SERVO is refused, in the order of R186. -/
def State.servoReason (s : State) (g op : Nat) : Nat :=
  firstReason
    [(1, !s.groupIn g (servoFrom op)), (2, decide (op = 0) && !s.pairReleased g), (3, decide (op = 0) && s.notSettled g),
     (4, decide (2 ≤ op) && s.causeUnacked g), (5, decide (op ≠ 1) && s.anyChan g fun c => c.lost),
     (6, decide (op ≠ 1) && s.restartBlock.isSome)]

/-- A restart is accepted: the pace stop and the reference stop are over. -/
def State.clearRestart (s : State) (op : Nat) : State :=
  if op = 1 then s else { s with pw := { s.pw with paceStop := [], refStop := none } }

/-- The action of ARM_SERVO: refused with its reason, or accepted for the boundary of the next cycle. -/
def State.doServo (s : State) (d : Desc) : State :=
  let g := d.bits 4 2 0
  let op := d.bits 4 5 4
  let r := s.servoReason g op
  if r ≠ 0 then s.completeDesc d { reason := r, detail := if r = 6 then s.restartBlock.getD 0 else 0 }
  else
    let c := s.acceptCycle
    ((s.mirrorDesc d).clearRestart op).updGroup g fun x => { x with servo := x.servo ++ [(op, d.key3, c)] }

/-- ARM_SERVO_ON (R186). -/
def execArmServoOn (d : DescId) (s : State) : Out := .next (s.opAction d 0x10 5 4 0 holderGate State.doServo)

/-- ARM_SERVO_STOP (R186). -/
def execArmServoStop (d : DescId) (s : State) : Out := .next (s.opAction d 0x10 5 4 1 holderGate State.doServo)

/-- ARM_SERVO_RESUME (R186). -/
def execArmServoResume (d : DescId) (s : State) : Out := .next (s.opAction d 0x10 5 4 2 holderGate State.doServo)

/-- ARM_SERVO_RESET (R186). -/
def execArmServoReset (d : DescId) (s : State) : Out := .next (s.opAction d 0x10 5 4 3 holderGate State.doServo)

/-- The transition of an operation. -/
def State.servoApply (s : State) (g op : Nat) : State :=
  let clear := fun (t : State) => t.updGroup g fun r => { r with stop := 0, stopEvents := [] }
  match op with
  | 0 => s.moveJoints g 1 2
  | 1 => s.applyStop g 1 0x0A
  | 2 => clear (s.moveJoints g 4 2)
  | _ => ((clear (s.moveJoints g 5 1)).resetRelease g).mirrorFree 4

/-- One waiting operation takes effect and completes; a group that has left its From state gives WRONG_STATE. -/
def State.servoOne (s : State) (g : Nat) (w : Nat × (Nat × Nat × Nat) × Nat) : State :=
  if s.groupIn g (servoFrom w.1) then ((s.servoApply g w.1).complete3 (some w.2.1) {}).applyHeld g
  else s.complete3 (some w.2.1) { reason := 1 }

/-- The effect of ARM_SERVO_APPLY, at a boundary: every operation whose boundary has come. -/
def State.servoDue (s : State) (g : Nat) : State :=
  if !s.atBoundary then s
  else
    let l := (s.group g).servo
    let due := l.filter fun w => decide (w.2.2 < s.cycle)
    due.foldl (fun s w => s.servoOne g w) (s.updGroup g fun r => { r with servo := l.filter fun w => decide (s.cycle ≤ w.2.2) })

/-- ARM_SERVO_APPLY (R186). -/
def execArmServoApply (g : Fin 8) (s : State) : Out := .next (s.servoDue g)

/-! ### The preload (R174, R189, R193) -/

/-- Start the preload of this cycle, once in it. -/
def State.preloadStart (s : State) (n : Nat) : State :=
  if s.grid.running && decide ((s.til n).plStart ≠ some s.cycle) then
    s.updTil n fun t => { t with pl := .running, plStart := some s.cycle, plRegion := s.get R.TL_GAIN_REGION_SELECTED n }
  else s

/-- The effect of PRELOAD_FALLBACK_START: 2 µs before the next boundary with no run ended in the cycle. -/
def State.preloadFallback (s : State) (n : Nat) : State :=
  if s.bit R.TL_CFG_EN n && decide (s.ticksTo (s.boundaryNs (s.cycle + 1)) ≤ 250) then s.preloadStart n else s

/-- PRELOAD_FALLBACK_START (R174). -/
def execPreloadFallbackStart (n : Fin 64) (s : State) : Out := .next (s.preloadFallback n)

/-- Segment `j` with region `r`: its words, as the engine reads them. -/
def State.segWords (s : State) (n r j : Nat) : List Word :=
  let src := s.get (R.TL_PL_SEG_SRC.at j) n + (if s.bit (R.TL_PL_SEG_REGIONED.at j) n then r * s.get R.TL_PL_CFG_STRIDE n else 0)
  (List.range (s.get (R.TL_PL_SEG_LEN.at j) n)).map fun i => s.grRead (src + i)

/-- The words of all segments, one directly after the other. -/
def State.windowWords (s : State) (n r : Nat) : List Word := (List.range 8).flatMap (s.segWords n r)

/-- Write consecutive words into the standby window bank. -/
def Tiller.fillStandby (t : Tiller) (a : Nat) (l : List Word) : Tiller :=
  let u := (List.range l.length).foldl (fun u i => u.heal (if t.bank then 3 else 4) (a + i)) t
  if t.bank then { u with win0 := Tab.putList (fun _ => 0) t.win0 a l }
  else { u with win1 := Tab.putList (fun _ => 0) t.win1 a l }

/-- The six words of the reference block for the next cycle, and whether it is stale (R189, R190). -/
def State.refWords (s : State) (n : Nat) (force : Bool) : List Word × Bool :=
  let src := s.get R.TL_REF_CFG_REF_SRC n
  let w := fun i => (s.grRead (src + i)).toInt
  let p := s.solverCyc
  let phi0 := (((s.cycle + 1 : Nat) : Int) - (s.grRead (src + 6)).toNat).emod (2 ^ 32) |>.toNat
  let stale := force || decide (p < phi0)
  let phi := if stale then p else phi0
  let tau := roundDiv ((phi * s.cycleNs * 2 ^ 31 : Nat) : Int) 1000000000
  let q := roundDiv (w 0 * 2 ^ 55 + w 1 * tau * 2 ^ 24 + w 2 * tau * tau) (2 ^ 55)
  let v := roundDiv (w 1 * 2 ^ 23 + w 2 * tau) (2 ^ 23)
  let ff := roundDiv (w 3 * 2 ^ 17 + w 4 * tau) (2 ^ 17)
  ([satWord q, satWord v, s.grRead (src + 2), satWord ff, s.grRead (src + 5), item (phi + if stale then 2 ^ 31 else 0)], stale)

/-- The evaluation of a detector whose injection index is per arm group and names the Tiller. -/
def State.detectTl (s : State) (base n : Nat) (cond : Bool) (f : Bool → State → State) : State :=
  match s.groupOf n with
  | some g => s.detect (base + g) n cond f
  | none => if cond then f false s else s

/-- The same for a detector that acts in both cases: `f` gets whether it fires and whether it is injected. -/
def State.injectTl (s : State) (base n : Nat) : Bool × State :=
  match s.groupOf n with
  | some g => ((s.inject (base + g) n).1.isSome, (s.inject (base + g) n).2)
  | none => (false, s)

/-- The reference is stale: REF_STALE, TL_REF_STALE and REF_REACT (R190). -/
def State.refStale (s : State) (n : Nat) (injected : Bool) : State :=
  let code := s.get R.TL_REACT_CFG_REF_REACT n
  let s := (s.raiseBit R.TL_JSTAT_REF_STALE n).post Ev.tlRefStale .fault (some n) [] true injected
  s.jointReact n code 7 Ev.tlRefStale

/-- Write the reference block after the segments. -/
def State.refBlock (s : State) (n : Nat) : State :=
  if !s.bit R.TL_REF_CFG_REF_EN n then s
  else
    let j := s.injectTl 712 n
    let r := j.2.refWords n j.1
    let s := j.2.updTil n fun t => t.fillStandby (s.get R.TL_REF_CFG_REF_WIN n) r.1
    if r.2 then s.refStale n j.1 else s

/-- The stage of one component: none when its rows agree, else the new integrator before saturation (R193). -/
def State.xferOf (s : State) (n : Nat) (q : Bool) : Option Int :=
  let t := s.til n
  let ne := s.get R.TL_LAW_CFG_NE n
  let k := s.get (if q then R.TL_LAW_CFG_KQ_WIN else R.TL_LAW_CFG_KD_WIN) n
  let xi := s.get (if q then R.TL_XADDR_B_XI_Q_ADDR else R.TL_XADDR_B_XI_D_ADDR) n
  let old := fun j => (Tab.get (fun _ => 0) t.win (k + j) : Word)
  let new := fun j => (Tab.get (fun _ => 0) t.standby (k + j) : Word)
  let z := fun j => (t.rdX (if j = ne then xi else s.get R.TL_XADDR_B_ERR_ADDR n + j)).toInt
  if !s.bit (if q then R.TL_LAW_CFG_XFER_Q else R.TL_LAW_CFG_XFER_D) n then none
  else if (List.range (ne + 1)).all fun j => old j == new j then none
  else
    let d := ((List.range (ne + 1)).map fun j => ((old j).toInt - (new j).toInt) * z j).sum
    some ((t.rdX xi).toInt + roundDiv (d * (new (ne + 1)).toInt) (2 ^ s.get R.TL_LAW_CFG_XFER_SHR n))

/-- A saturated stage: XFER_SAT and TL_XFER_SAT. -/
def State.xferSat (s : State) (n : Nat) (injected : Bool) : State :=
  (s.raiseBit R.TL_JSTAT_XFER_SAT n).post Ev.tlXferSat .notice (some n) [] false injected

/-- Stage the integrators of a joint under closed loop. -/
def State.stageXfer (s : State) (n : Nat) : State :=
  if [2, 3, 4].contains (s.jstate n) then
    let d := s.xferOf n false
    let q := s.xferOf n true
    let bad := fun (v : Option Int) => (match v with | some x => decide (x ≠ clampInt 32 x) | none => false)
    let s := s.updTil n fun t => { t with stageD := d.map satWord, stageQ := q.map satWord }
    if d.isSome || q.isSome then s.detectTl 728 n (bad d || bad q) fun inj s => s.xferSat n inj else s
  else s.updTil n fun t => { t with stageD := none, stageQ := none }

/-- The effect of PRELOAD_COMPLETE. -/
def State.preloadDone (s : State) (n : Nat) : State :=
  if (s.til n).pl ≠ .running then s
  else
    let l := s.windowWords n (s.til n).plRegion
    let s := (s.updTil n fun t => { t.fillStandby 0 l with pl := .complete }).refBlock n
    s.stageXfer n

/-- PRELOAD_COMPLETE (R174, R189, R193). -/
def execPreloadComplete (n : Fin 64) (s : State) : Out := .next (s.preloadDone n)

/-! ### The boundary (R173, R175, R176, R194) -/

/-- Commit the staged integrators; the next run sees XFER. -/
def State.commitStage (s : State) (n : Nat) : State :=
  let t := s.til n
  let ok := [2, 3, 4].contains (s.jstate n) && !t.running && (t.stageD.isSome || t.stageQ.isSome)
  let xd := s.get R.TL_XADDR_B_XI_D_ADDR n
  let xq := s.get R.TL_XADDR_B_XI_Q_ADDR n
  let s := s.updTil n fun t =>
    let t := if ok then (match t.stageD with | some v => t.wrX xd v | none => t) else t
    let t := if ok then (match t.stageQ with | some v => t.wrX xq v | none => t) else t
    { t with stageD := none, stageQ := none, xferView := ok }
  let s := s.setBit R.TL_JSTAT_XFER_LAST n ok
  if ok then s.add R.TL_JCOUNT_XFER_COUNT n 1 else s

/-- Show XFER in GSTAT. -/
def State.showXfer (s : State) (n : Nat) : State :=
  let a := s.get R.TL_XADDR_A_GSTAT_ADDR n
  s.updTil n fun t => t.wrX a (withBits (t.rdX a) 7 7 (if t.xferView then 1 else 0))

/-- The windows exchange: region in use, staged integrators. -/
def State.exchange (s : State) (n : Nat) : State :=
  let t := s.til n
  let changed := decide (s.get R.TL_GAIN_REGION_REGION n ≠ t.plRegion)
  let s := s.updTil n fun t => { t with bank := !t.bank, pl := .idle }
  let s := s.set R.TL_GAIN_REGION_REGION n t.plRegion
  let s := if changed then s.inc R.TL_GAIN_REGION_SWITCHES n else s
  s.commitStage n

/-- The preload is late: the windows do not exchange (R175, R187). -/
def State.preloadLate (s : State) (n : Nat) (injected : Bool) : State :=
  let s := s.updTil n fun t => { t with pl := .idle, stageD := none, stageQ := none, xferView := false }
  let s := (s.setBit R.TL_JSTAT_XFER_LAST n false).inc R.TL_COUNT_PL_LATE n
  let s := s.post Ev.tlPreloadLate .fault (some n) [] false injected
  let code := s.get R.TL_REACT_CFG_PLATE_REACT n
  if code = 0 then s else (s.post Ev.tlJointStop .fault (some n) [item 6] true).jointReact n code 6 Ev.tlJointStop

/-- Write Y[127] for cycle `k` (R176). -/
def State.writeY127 (s : State) (n k : Nat) (stale : Bool) : State :=
  let w := item ((if stale then 1 else 0) + s.get R.TL_GAIN_REGION_REGION n * 2 + k % s.solverCyc % 256 * 2 ^ 8 + k % 65536 * 2 ^ 16)
  s.updTil n fun t => { t with y127 := w }.heal 5 127

/-- Tiller `n` at the boundary of cycle `k`. -/
def State.tillerBoundary (s : State) (n k : Nat) : State :=
  if !s.bit R.TL_CFG_EN n then s
  else if k = 0 then s.writeY127 n 0 false
  else
    let was := bitsOf (s.til n).y127 0 0
    let s := s.set R.TL_STAT_PL_STALE n was
    let vel := ((s.chanOf n).map fun c => (s.get64i R.FB_VEL_LO R.FB_VEL_HI 64 c).natAbs / 2 ^ 24).getD 0
    let still := decide (vel ≤ s.get R.TL_STILL_VEL n)
    let s := s.updTil n fun t => { t with stillRun := if still then t.stillRun + 1 else 0 }
    match s.inject (640 + n) n with
    | (some _, s) => ((s.preloadLate n true).showXfer n).writeY127 n k true
    | (none, s) =>
      if (s.til n).pl = .complete then ((s.exchange n).showXfer n).writeY127 n k false
      else ((s.preloadLate n false).showXfer n).writeY127 n k true

/-! ### END (R180 to R197) -/

/-- The joint enters LOST at the END at which its channel is found LOST (R184, R188). -/
def State.lostEntry (s : State) (n : Nat) : State :=
  let lost := ((s.chanOf n).map fun c => (s.chan c).lost).getD false
  if lost && [2, 3, 4].contains (s.jstate n) then s.set R.TL_JSTAT_JSTATE n 6 else s

/-- One component at the gate: limit, saturated, direction and output (R183). -/
structure Gate1 where
  sat : Bool
  dir : Bool
  v : Int

/-- The gate of a component with limit `l` on the word `w`. -/
def gateOf (l : Nat) (w : Int) : Gate1 :=
  let lim : Int := l * 2 ^ 15
  { sat := decide (lim ≤ w ∨ w ≤ -lim), dir := decide (w < 0), v := roundDiv (max (-lim) (min w lim)) (2 ^ 15) }

/-- The vq limit: that of a hard-stop homing while it searches (R219). -/
def State.vqLimit (s : State) (n : Nat) : Nat :=
  if s.get R.MP_HOME_CFG_MODE n = 6 ∧ (s.gen n).home = .search then s.get R.MP_HS_CFG_HS_VQ_LIM n else s.get R.TL_CMD_LIM_VQ_LIM n

/-- The d component at the gate. -/
def State.gateD (s : State) (n : Nat) : Gate1 :=
  gateOf (s.get R.TL_CMD_LIM_VD_LIM n) ((s.til n).rdX (s.get R.TL_XADDR_A_OUT_ADDR n)).toInt

/-- The q component at the gate. -/
def State.gateQ (s : State) (n : Nat) : Gate1 :=
  gateOf (s.vqLimit n) ((s.til n).rdX (s.get R.TL_XADDR_A_OUT_ADDR n + 1)).toInt

/-- Anti-windup of one component: an integrator that moved deeper into saturation is restored (R195). -/
def State.windup (s : State) (n : Nat) (q : Bool) (g : Gate1) : State :=
  let t := s.til n
  let a := s.get (if q then R.TL_XADDR_B_XI_Q_ADDR else R.TL_XADDR_B_XI_D_ADDR) n
  let k := s.get (if q then R.TL_LAW_CFG_KQ_WIN else R.TL_LAW_CFG_KD_WIN) n
  let before := if q then t.latchQ else t.latchD
  let gain : Word := Tab.get (fun _ => 0) t.win (k + s.get R.TL_LAW_CFG_NE n)
  let move := gain.toInt * ((t.rdX a).toInt - before.toInt)
  if s.bit (if q then R.TL_LAW_CFG_INT_Q else R.TL_LAW_CFG_INT_D) n && g.sat && decide (move ≠ 0) && (decide (move < 0) == g.dir)
  then (s.updTil n fun t => t.wrX a before).inc R.TL_JCOUNT_AW_HOLDS n
  else s

/-- The command word of the joint's state (R183). -/
def State.commandWord (s : State) (n : Nat) (d q : Gate1) : Word :=
  match s.jstate n with
  | 2 | 3 | 4 => BitVec.ofInt 16 q.v ++ BitVec.ofInt 16 d.v
  | 6 => if s.bit R.TL_REACT_CFG_LOSS_CMD n then 0x80008000 else 0
  | _ => 0

/-- The output gate: command word, integrators, GSTAT. -/
def State.outputGate (s : State) (n : Nat) (d q : Gate1) : State :=
  let cmd := s.commandWord n d q
  let js := s.jstate n
  let zero := decide (js = 1 ∨ js = 5)
  let b := fun (c : Bool) (i : Nat) => if c then 2 ^ i else 0
  let gst := item (b d.sat 0 + b q.sat 1 + b d.dir 2 + b q.dir 3 + js * 2 ^ 4 + b (s.til n).xferView 7)
  let s := s.updTil n fun t =>
    let t := t.wrX (s.get R.TL_XADDR_A_CMD_ADDR n) cmd
    let t := if zero then (t.wrX (s.get R.TL_XADDR_B_XI_D_ADDR n) 0).wrX (s.get R.TL_XADDR_B_XI_Q_ADDR n) 0 else t
    t.wrX (s.get R.TL_XADDR_A_GSTAT_ADDR n) gst
  s.setBit R.TL_JSTAT_SAT_NOW n (d.sat || q.sat)

/-- Saturation-time accounting, and the home event of a hard-stop homing (R196, R219). -/
def State.satAccount (s : State) (n : Nat) (sat : Bool) : State :=
  if [2, 3, 4].contains (s.jstate n) then
    let t := s.cycleNs
    let acc := s.get R.TL_SAT_ACC n
    let acc := if sat then min (acc + t) (2 ^ 32 - 1) else acc - t * s.get R.TL_SAT_CFG_LEAK n / 16
    let s := s.set R.TL_SAT_ACC n acc
    let s := if acc = 0 then s.updTil n fun t => { t with tripped := false } else s
    if s.get R.MP_HOME_CFG_MODE n = 6 ∧ (s.gen n).home = .search ∧ s.get R.MP_HS_CFG_HS_TIME n * 100000 ≤ acc then
      s.homeEvent n (s.jointPos n * 65536) none
    else s
  else s

/-- A boundary or half-width of variable `k`. -/
def State.schedB (s : State) (n k j : Nat) : Int := s.geti ((if k = 0 then R.TL_SCHED_B0 else R.TL_SCHED_B1).at j) n

/-- The half-width of boundary `j` of variable `k`. -/
def State.schedHw (s : State) (n k j : Nat) : Int := s.get ((if k = 0 then R.TL_SCHED_HW0 else R.TL_SCHED_HW1).at j) n

/-- Raise a band while the variable lies at or above its upper boundary plus the half-width. -/
def State.bandUp (s : State) (n k : Nat) (v : Int) (nb : Nat) : Nat → Nat → Nat
  | 0, j => j
  | f + 1, j => if j < nb ∧ s.schedB n k j + s.schedHw n k j ≤ v then State.bandUp s n k v nb f (j + 1) else j

/-- Lower a band while the variable lies below its lower boundary minus the half-width. -/
def State.bandDown (s : State) (n k : Nat) (v : Int) : Nat → Nat → Nat
  | 0, j => j
  | f + 1, j => if 0 < j ∧ v < s.schedB n k (j - 1) - s.schedHw n k (j - 1) then State.bandDown s n k v f (j - 1) else j

/-- The band of variable `k` after this run (R191). -/
def State.bandOf (s : State) (n k : Nat) (v : Int) (nb j : Nat) : Nat :=
  let j0 := if (s.til n).bandInit then j else ((List.range nb).filter fun i => decide (s.schedB n k i ≤ v)).length
  s.bandDown n k v 4 (s.bandUp n k v nb 4 j0)

/-- The region selector (R188, R191). -/
def State.selectRegion (s : State) (n : Nat) : State :=
  let pred := ((s.chanOf n).map fun c => s.bit R.FB_QUAL_PREDICTED c).getD false
  if !s.bit R.TL_SCHED_CFG_EN n || pred then s
  else
    let nb0 := s.get R.TL_SCHED_CFG_NB0 n
    let nb1 := s.get R.TL_SCHED_CFG_NB1 n
    let t := s.til n
    let j0 := s.bandOf n 0 (t.rdX (s.get R.TL_SCHED_CFG_SV0_ADDR n)).toInt nb0 (s.get R.TL_GAIN_REGION_BAND0 n)
    let j1 := if nb1 = 0 then 0 else s.bandOf n 1 (t.rdX (s.get R.TL_SCHED_CFG_SV1_ADDR n)).toInt nb1 (s.get R.TL_GAIN_REGION_BAND1 n)
    let s := (s.set R.TL_GAIN_REGION_BAND0 n j0).set R.TL_GAIN_REGION_BAND1 n j1
    let s := s.updTil n fun t => { t with bandInit := true }
    let fr := s.get R.TL_SCHED_CFG_FORCE_REGION n
    let fen := s.bit R.TL_SCHED_CFG_FORCE_EN n
    let inside := decide (fr % 4 ≤ nb0 ∧ fr / 4 ≤ nb1)
    let s := if fen && !inside then s.post Ev.sysWriteIgnored .notice none [item (R.TL_SCHED_CFG_EN.addr n)] else s
    let s := s.setBit R.TL_GAIN_REGION_FORCED n (fen && inside)
    s.set R.TL_GAIN_REGION_SELECTED n (if fen && inside then fr else j0 + 4 * j1)

/-- The run is measured; a run over its budget is a hardware fault (R172). -/
def State.measureRun (s : State) (n : Nat) : State :=
  let t := s.tick - (s.til n).start
  let s := (s.set R.TL_RUN_RUN_LAST n (min t 0xFFFF)).raiseTo R.TL_RUN_RUN_MAX n t
  let budget := (s.get R.TL_BUDGET_B_NS n + 7) / 8 + 2
  s.detect (576 + n) n (decide (budget < t)) fun inj s =>
    ((s.raiseBit R.TL_STAT_OVERRUN n).post Ev.tlOverrun .fault (some n) [] true inj).fault (s.groupMaskOf n) .ss1
      Ev.tlOverrun (some n) 9

/-- The configured reaction to a saturated store of this run (R187). -/
def State.storeReact (s : State) (n : Nat) : State :=
  let code := s.get R.TL_REACT_CFG_STSAT_REACT n
  if (s.til n).stSat ∧ code ≠ 0 then
    (s.post Ev.tlJointStop .fault (some n) [item 5] true).jointReact n code 5 Ev.tlJointStop
  else s

/-- A joint in HELD that leaves its held position by more than HOLD_TOL raises TL_HOLD_LOST (R184). -/
def State.holdTest (s : State) (n : Nat) : State :=
  if s.jstate n ≠ 4 then s
  else
    let off := decide (s.get R.TL_STOP_CFG_HOLD_TOL n < (s.jointPos n - (s.til n).heldPos).natAbs)
    s.detectTl 720 n off fun inj s =>
      (s.post Ev.tlHoldLost .fault (some n) [] true inj).fault (s.groupMaskOf n) .ss1 Ev.tlHoldLost (some n) 8

/-- The run ends: held accesses are served, the preload starts, the job ends. -/
def State.finishRun (s : State) (n : Nat) : State :=
  let s := s.updTil n fun t =>
    { t.serveHeld with running := false, endCycle := some s.cycle, standbyRuns := if s.jstate n = 1 then t.standbyRuns + 1 else t.standbyRuns }
  ((s.set R.TL_STAT_STATE n 1).preloadStart n).unitEnd n

/-- The actions at END, in the order of R180. -/
def State.tlEnd (s : State) (n : Nat) : State :=
  if !(s.til n).running then s
  else
    let s := s.lostEntry n
    let d := s.gateD n
    let q := s.gateQ n
    let closed := [2, 3, 4].contains (s.jstate n)
    let s := if closed then (s.windup n false d).windup n true q else s
    let s := (s.outputGate n d q).satAccount n (d.sat || q.sat)
    let s := ((s.selectRegion n).measureRun n).storeReact n
    (s.holdTest n).finishRun n

/-- The effect of TL_SAT_TIME: ACC_NS above SAT_LIMIT for the first time since it was 0 (R197). -/
def State.satTime (s : State) (n : Nat) : State :=
  if (s.til n).tripped then s
  else
    let acc := s.get R.TL_SAT_ACC n
    s.detectTl 704 n (decide (s.get R.TL_SAT_CFG_SAT_LIMIT n * 100000 < acc)) fun inj s =>
      let code := s.get R.TL_SAT_CFG_SAT_REACT n
      let s := ((s.updTil n fun t => { t with tripped := true }).raiseBit R.TL_JSTAT_SAT_TRIP n).inc R.TL_JCOUNT_SAT_TRIPS n
      (s.post Ev.tlSatTime .fault (some n) [item acc] (decide (code ≠ 0)) inj).jointReact n code 1 Ev.tlSatTime

/-- TL_SAT_TIME (R197). -/
def execTlSatTime (n : Fin 64) (s : State) : Out := .next (s.satTime n)

end Sys2Proof.Machine
end

