-- ==== Sys2Proof/Machine/TimeBase.lean ====
section
/-! DEFINITION. The time base: advance, corrections, captures, arming of triggers, 1PPS and the PTP port (chapter 02). -/
namespace Sys2Proof.Machine

/-- Change the time island. -/
def State.updTb (s : State) (f : TimeBase → TimeBase) : State := { s with tb := f s.tb }

/-- The seconds count wraps at 2^48. -/
def secTop : Nat := 2 ^ 48

/-- One second in nanoseconds. -/
abbrev nsPerSec : Nat := 1000000000

/-- One advance of a counter copy under FRAC (R45). -/
def Counter.advance (frac : Int) (c : Counter) : Counter :=
  let sum : Int := c.sub + frac
  let carry : Int := sum / 2 ^ 32
  let ns := (c.ns + 8 + carry).toNat
  let sub := (sum % 2 ^ 32).toNat
  if nsPerSec ≤ ns then { sec := (c.sec + 1) % secTop, ns := ns - nsPerSec, sub := sub }
  else { sec := c.sec, ns := ns, sub := sub }

/-- The counter one tick earlier under the same FRAC (R45). -/
def Counter.back (frac : Int) (c : Counter) : Counter :=
  let sub := (((c.sub : Int) - frac) % 2 ^ 32).toNat
  let step := (8 + ((sub : Int) + frac) / 2 ^ 32).toNat
  if step ≤ c.ns then { sec := c.sec, ns := c.ns - step, sub := sub }
  else { sec := (c.sec + secTop - 1) % secTop, ns := c.ns + nsPerSec - step, sub := sub }

/-- The counter `n` ticks earlier under the same FRAC. -/
def Counter.backBy (frac : Int) : Nat → Counter → Counter
  | 0, c => c
  | n + 1, c => Counter.backBy frac n (c.back frac)

/-- The counter `n` ticks ago. -/
def State.counterAgo (s : State) (n : Nat) : Counter := s.tb.a.backBy (s.geti R.TB_ADDEND_FRAC) n

/-- A counter from a count of nanoseconds, with a fraction. -/
def Counter.ofNs (t sub : Nat) : Counter := { sec := t / nsPerSec % secTop, ns := t % nsPerSec, sub := sub }

/-- Load both copies of the counter. -/
def State.loadCounter (s : State) (c : Counter) : State := s.updTb fun t => { t with a := c, b := c }

/-- The record EV_TIME, whose P0 and P1 are the seconds; P2 bit 0 marks a step (R388, R393). -/
def State.postTime (s : State) (isStep : Bool) : State :=
  let body := [item s.sec, item (s.sec / 2 ^ 32)] ++ (if isStep then [1] else [])
  { s with posted := s.posted ++ [{ code := Ev.evTime, sev := .info, plane := planeOf Ev.evTime, injected := false,
                                    esc := false, ns := s.ns, sec := s.sec, tick := s.tick, inst := noInst, body := body }] }

/-! ### Corrections (R51 to R58) -/

/-- A refused correction: reason, count, and the notice with the reason and the requesting plane (R58). -/
def State.corrRefused (s : State) (reason plane : Nat) (injected : Bool := false) : State :=
  let s := (s.set R.TB_CORR_STATUS_LAST_REASON 0 reason).inc R.TB_CORR_STATUS_REFUSED_COUNT
  s.post Ev.tbCorrRefused .notice none [item reason, item plane] false injected

/-- The counter that a relative step makes, as a count of nanoseconds from second 0 (R53). -/
def relTarget (now : Nat) (neg : Bool) (sec ns : Nat) : Int :=
  if neg then (now : Int) - nsOf sec ns else now + nsOf sec ns

/-- The reason for which a step is refused, 0 for none, in the order of R58: 0x01, 0x02, 0x03, 0x04, 0x07. -/
def State.stepReason (s : State) (mode : Nat) (neg : Bool) (sec ns : Nat) : Nat :=
  let target := relTarget s.now neg sec ns
  if s.locked then 1
  else if !s.bit R.TB_CORR_STATUS_STEP_ARMED then 2
  else if mode = 3 ∨ nsPerSec ≤ ns ∨ (mode ≠ 0 ∧ (target < 0 ∨ nsOf secTop 0 ≤ target)) then 3
  else if !s.bit R.TB_REF_STATUS_LOCKED then 4
  else if mode = 2 ∧ ¬ (s.get R.TB_PTP_STATE_PORT_STATE = 4 ∧ s.bit R.TB_PTP_STATE_LOCK) then 7
  else 0

/-- The plane of a rank at the correction arbiter, as records code it: data 0, control 1, management 2 (R55). -/
def rankPlane (r : Nat) : Nat := if r < 2 then 0 else if r = 2 then 1 else 2

/-- A request enters the correction arbiter with the tag of this tick (R54, R55). -/
def State.askCorr (s : State) (rank : Nat) (what : Corr) (desc : Option DescId := none) : State :=
  s.updTb fun b => { b with corr := b.corr ++ [{ tag := s.tick, rank, what, desc }] }

/-- TW_CMD ALIGN completes when its step was refused: the reason is its DETAIL (R375). -/
def State.alignRefused (s : State) (desc : Option DescId) (reason : Nat) : State :=
  match desc with
  | some d => s.complete (dkey d) { reason := 5, detail := reason }
  | none => s

/-- A step request is served (R51 to R54): refused with its reason, or accepted, which consumes the allowance; it takes effect in the
second tick after its tag. -/
def State.serveStep (s : State) (q : CorrReq) (mode : Nat) (neg : Bool) (sec ns : Nat) : State :=
  let reason := s.stepReason mode neg sec ns
  match s.inject 29 noInst with
  | (some _, t) => (t.corrRefused reason (rankPlane q.rank) true).alignRefused q.desc reason
  | (none, t) =>
    if reason ≠ 0 then (t.corrRefused reason (rankPlane q.rank)).alignRefused q.desc reason
    else
      let t := (t.setBit R.TB_CORR_STATUS_STEP_ARMED 0 false).set R.TB_CORR_STATUS_LAST_REASON 0 0
      t.updTb fun b => { b with steps := b.steps ++ [{ tag := q.tag, desc := q.desc, rel := decide (mode ≠ 0), neg, sec, ns }] }

/-- The value of OWNER that a rank at the correction arbiter has: HOST 0, MGMT 1, TWIN 2. -/
def rankOwner (r : Nat) : Nat := if r < 2 then 2 else if r = 2 then 0 else 1

/-- The host's staged step value: sign, seconds, nanoseconds. -/
def State.hostStep (s : State) : Bool × Nat × Nat :=
  (s.bit R.TB_STEP_NS_NEG, s.get R.TB_STEP_SEC_HI_SEC_HI * 2 ^ 32 + s.get R.TB_STEP_SEC_LO, s.get R.TB_STEP_NS_NS)

/-- The step value of a requester: the host's registers, the management core's own, minus the measured offset to the
twin for a twin port (R53, R375). -/
def State.srcStep (s : State) : CorrSrc → Bool × Nat × Nat
  | .host => s.hostStep
  | .mgmt neg sec ns => (neg, sec, ns)
  | .twin _ =>
    (decide (0 < s.geti R.TW_OFFSET), (s.geti R.TW_OFFSET).natAbs / nsPerSec, (s.geti R.TW_OFFSET).natAbs % nsPerSec)

/-- The rank of a requester at the correction arbiter (R36, R55). -/
def srcRank : CorrSrc → Nat
  | .twin p => p.val | .host => 2 | .mgmt .. => 3

/-- A GO with the step value of a requester. -/
def State.goStep (s : State) (src : CorrSrc) (mode : Nat) (desc : Option DescId := none) : State :=
  let v := s.srcStep src
  s.askCorr (srcRank src) (.step mode v.1 v.2.1 v.2.2) desc

/-- The host's GO with MODE 0 or 1, which also writes MODE. -/
def State.stepCommand (s : State) (src : CorrSrc) (mode : Nat) : State :=
  match src with
  | .host => (s.set R.TB_STEP_CTRL_MODE 0 mode).goStep src mode
  | _ => s.goStep src mode

/-- STEP_ABSOLUTE (R53, R54). -/
def execStepAbsolute (src : CorrSrc) (s : State) : Out := .next (s.stepCommand src 0)

/-- STEP_RELATIVE (R53, R54). -/
def execStepRelative (src : CorrSrc) (s : State) : Out := .next (s.stepCommand src 1)

/-- The management core requests a relative step of minus its offset (MODE 2). -/
def State.ptpStep (s : State) : State :=
  let o := s.geti R.TB_PTP_OFFSET
  s.askCorr 3 (.step 2 (decide (0 < o)) (o.natAbs / nsPerSec) (o.natAbs % nsPerSec))

/-- STEP_PTP (R53). -/
def execStepPtp (s : State) : Out := .next (s.set R.TB_STEP_CTRL_MODE 0 2).ptpStep

/-- Disarm trigger channel `ch` for a step (R56). -/
def State.cancelTrigger (s : State) (ch : Nat) : State :=
  if s.bit R.TB_TRG_CTRL_ARM ch then
    (s.setBit R.TB_TRG_CTRL_ARM ch false).raiseBit R.TB_TRG_STATUS_CANCELLED ch
  else s

/-- The step of TW_CMD ALIGN has applied (R386). -/
def State.alignDone (s : State) (desc : Option DescId) : State :=
  match desc with
  | some d => s.complete (dkey d) {}
  | none => s

/-- A step takes effect: the counter is loaded, triggers are disarmed, PPS_OUT falls and makes no rise in this second,
STEPPED is set and the recorder stores the seconds (R54, R56, R67, R393). -/
def State.applyStep (s : State) (r : StepReq) : State :=
  let c :=
    if r.rel then Counter.ofNs (relTarget s.now r.neg r.sec r.ns).toNat s.tb.a.sub
    else { sec := r.sec, ns := r.ns, sub := 0 }
  let s := s.loadCounter c
  let s := (List.range 16).foldl State.cancelTrigger s
  let s := s.updTb fun t => { t with ppsOut := false, ppsDone := some c.sec }
  let s := s.alignDone r.desc
  (s.setBit R.TB_CORR_STATUS_STEPPED 0 true).postTime true

/-- The effect of STEP_APPLY: the first accepted step applies once its second tick has come. -/
def State.stepApply (s : State) : State :=
  match s.tb.steps with
  | [] => s
  | r :: rest =>
    if r.tag + 2 ≤ s.tick then (s.updTb fun t => { t with steps := rest }).applyStep r else s

/-- STEP_APPLY (R54). -/
def execStepApply (s : State) : Out := .next s.stepApply

/-- The largest magnitude of FRAC (R47). -/
def fracMax : Int := 6871947

/-- The reason for which a FRAC write is refused, 0 for none: 0x06, then 0x05 (R57, R58). -/
def State.fracReason (s : State) (owner : Nat) (frac : Int) : Nat :=
  if s.get R.TB_CORR_CTRL_OWNER ≠ owner then 6 else if frac < -fracMax ∨ fracMax < frac then 5 else 0

/-- A FRAC write is served at the correction arbiter. -/
def State.serveFrac (s : State) (q : CorrReq) (frac : Int) : State :=
  let reason := s.fracReason (rankOwner q.rank) frac
  match s.inject 29 noInst with
  | (some _, t) => t.corrRefused reason (rankPlane q.rank) true
  | (none, t) =>
    if reason ≠ 0 then t.corrRefused reason (rankPlane q.rank)
    else (t.set R.TB_CORR_STATUS_LAST_REASON 0 0).updTb fun b => { b with fracs := b.fracs ++ [(q.tag, frac)] }

/-- One request of the round is served. -/
def State.serveCorr (s : State) (q : CorrReq) : State :=
  match q.what with
  | .step mode neg sec ns => s.serveStep q mode neg sec ns
  | .frac v => s.serveFrac q v

/-- The round of the correction arbiter ends with its tick: the requests are served in the order of R36 (R55), of which those of one
requester keep their order. -/
def State.corrRound (s : State) : State :=
  let l := s.tb.corr
  let s := s.updTb fun b => { b with corr := [] }
  ((List.range 4).flatMap fun r => l.filter fun q => q.rank == r).foldl State.serveCorr s

/-- A FRAC write enters the correction arbiter. -/
def State.fracWrite (s : State) (src : CorrSrc) (frac : Int) : State := s.askCorr (srcRank src) (.frac frac)

/-- FRAC_WRITE (R57). -/
def execFracWrite (src : CorrSrc) (frac : Int) (s : State) : Out := .next (s.fracWrite src frac)

/-- The effect of FRAC_APPLY: every FRAC whose effect tick is the next tick comes into force, in order. -/
def State.fracApply (s : State) : State :=
  let due := s.tb.fracs.filter fun f => decide (f.1 + 1 ≤ s.tick)
  let s := s.updTb fun t => { t with fracs := t.fracs.filter fun f => decide (s.tick < f.1 + 1) }
  due.foldl (fun s f => s.seti R.TB_ADDEND_FRAC 0 f.2) s

/-- FRAC_APPLY (R54). -/
def execFracApply (s : State) : Out := .next s.fracApply

/-- The step allowance is armed anew (R51). -/
def State.rearmStep (s : State) : State :=
  (s.setBit R.TB_CORR_STATUS_STEP_ARMED 0 true).setBit R.TB_CORR_STATUS_STEPPED 0 false

/-! ### The reference (R48, R49) -/

/-- The reaction to a lost reference or a lost lock: a fault escalation with every arm group, under the pace table; it stops an enabled
cell, whose restart then waits. -/
def State.refReact (s : State) (code : Nat) (injected : Bool) : State :=
  let s := { s with pw := { s.pw with refStop := if s.enabled then some code else s.pw.refStop } }
  ((s.setBit R.TB_REF_STATUS_LOCKED 0 false).post code .fault none [] true injected).fault 0xFF .pace code

/-- Reference loss (R49). -/
def State.refLoss (s : State) (injected : Bool) : State :=
  ((s.setBit R.TB_REF_STATUS_HOLDOVER 0 true).inc R.TB_REF_STATUS_LOSS_COUNT).refReact Ev.tbRefLoss injected

/-- TB_REF_LOSS (R49). -/
def execTbRefLoss (s : State) : Out := .next (s.detect 24 noInst true fun inj s => s.refLoss inj)

/-- TB_UNLOCK (R49). -/
def execTbUnlock (s : State) : Out := .next (s.detect 25 noInst true fun inj s => s.refReact Ev.tbUnlock inj)

/-- The PLL is locked to the reference again. -/
def State.relock (s : State) : State :=
  let s := (s.setBit R.TB_REF_STATUS_LOCKED 0 true).setBit R.TB_REF_STATUS_HOLDOVER 0 false
  s.updTb fun t => { t with lockTick := s.tick }

/-- REF_RELOCK (R49). -/
def execRefRelock (s : State) : Out := .next s.relock

/-! ### Captures and reads (R61, R62, R71) -/

/-- The sources that a capture channel can select. -/
def captureSource (src : Nat) : Bool :=
  decide (src = 1 ∨ src = 2 ∨ (8 ≤ src ∧ src ≤ 0x1F))

/-- Channel `ch` selects this source and edge. -/
def State.captures (s : State) (ch src : Nat) (rising : Bool) : Bool :=
  captureSource src && decide (s.get R.TB_CAP_CTRL_SRC ch = src)
    && hasBit (s.get R.TB_CAP_CTRL_EDGE ch) (if rising then 0 else 1)

/-- Put a stamp (seconds and nanoseconds) into channel `ch`. -/
def State.stampCapture (s : State) (ch : Nat) (stamp : Nat × Nat) : State :=
  let s := (s.set R.TB_CAP_NS_NS ch stamp.2).setBit R.TB_CAP_NS_VALID ch true
  (s.updTb fun t => { t with capSec := Tab.put (fun _ => 0) t.capSec ch stamp.1 }).inc R.TB_CAP_STATUS_COUNT ch

/-- The direct port of a capture source. -/
def srcPort (src : Nat) : Nat := src % 8

/-- A source whose edges the device makes itself: the sequence starts of the ADC and the frame starts of an SSI port (R59). -/
def State.ownStart (s : State) (src : Nat) : Bool :=
  decide (src = 2) || (decide (8 ≤ src ∧ src < 0x10) && decide (s.get R.DP_CFG_MODE (srcPort src) = 2))

/-- The stamp of an edge that leaves the input filter of its source in this tick: the counter of the tick in which the edge reached the
sampler, FILT ticks ago at a direct port (R61, R131). -/
def State.capStamp (s : State) (src : Nat) : Nat × Nat :=
  let c := s.counterAgo (if 8 ≤ src then s.get R.DP_CFG_FILT (srcPort src) else 0)
  (c.sec, c.ns)

/-- An edge on a channel whose stamp is still held (R62): an overrun, and MODE 1 replaces the stamp. -/
def State.capOverrun (s : State) (ch : Nat) (stamp : Nat × Nat) : State :=
  let s := s.detect 27 ch true fun inj s =>
    (s.inc R.TB_CAP_STATUS_OVERRUN ch).post Ev.capOverrun .notice (some ch) [] false inj
  if s.bit R.TB_CAP_CTRL_MODE ch then s.stampCapture ch stamp else s

/-- What becomes of the edge of this tick on channel `ch`: a stamp when the held one has been read, an overrun when it is still held. -/
def State.capSettle (s : State) (ch : Nat) : State :=
  match Tab.get (fun _ => none) s.tb.capEdge ch with
  | some e =>
    let s := s.updTb fun t => { t with capEdge := Tab.put (fun _ => none) t.capEdge ch none }
    if s.bit R.TB_CAP_NS_VALID ch then s.capOverrun ch e else s.stampCapture ch e
  | none => s

/-- An edge reaches channel `ch`: a stamp, or, while a stamp is held, an edge that waits for the end of the tick, for a read of this
tick may still take that stamp (R62). -/
def State.capture (s : State) (ch : Nat) (stamp : Nat × Nat) : State :=
  let s := s.capSettle ch
  if s.bit R.TB_CAP_NS_VALID ch then s.updTb fun t => { t with capEdge := Tab.put (fun _ => none) t.capEdge ch (some stamp) }
  else (s.detect 27 ch false fun inj s =>
    (s.inc R.TB_CAP_STATUS_OVERRUN ch).post Ev.capOverrun .notice (some ch) [] false inj).stampCapture ch stamp

/-- The seconds and nanoseconds of the counter in the present tick, or in the next. -/
def State.stampOf (s : State) (next : Bool) : Nat × Nat :=
  if next then let c := s.tb.a.advance (s.geti R.TB_ADDEND_FRAC); (c.sec, c.ns) else (s.sec, s.ns)

/-- A start that the device makes itself, at the given stamp, reaches every channel that selects its source, with either edge: the first conversion of a
sequence pass, or the start of an SSI frame (R59). -/
def State.captureStart (s : State) (src : Nat) (stamp : Nat × Nat) : State :=
  (List.range 16).foldl (fun s ch =>
    if decide (s.get R.TB_CAP_CTRL_SRC ch = src) && decide (s.get R.TB_CAP_CTRL_EDGE ch ≠ 0) then s.capture ch stamp else s) s

/-- The effect of CAPTURE_EDGE: an edge at the pin of a source whose starts the device does not make itself. -/
def State.captureEdge (s : State) (ch src : Nat) (rising : Bool) : State :=
  if s.captures ch src rising && !s.ownStart src then s.capture ch (s.capStamp src) else s

/-- CAPTURE_EDGE (R61). -/
def execCaptureEdge (ch : Fin 16) (src : Nat) (rising : Bool) (s : State) : Out := .next (s.captureEdge ch src rising)

/-- The effect of CAP_READ: the word, and with VALID = 1 the seconds of its stamp and VALID cleared (R62). -/
def State.capRead (s : State) (ch : Nat) : State :=
  let w := s.regs.word .tb (R.TB_CAP_NS_NS.addr ch)
  if s.bit R.TB_CAP_NS_VALID ch then
    let sec := Tab.get (fun _ => 0) s.tb.capSec ch
    let s := (s.set R.TB_CAP_SEC_LO ch sec).set R.TB_CAP_SEC_HI_SEC_HI ch (sec / 2 ^ 32)
    let s := s.latch (R.TB_CAP_SEC_HI_SEC_HI.addr ch) (item (sec / 2 ^ 32))
    ((s.setBit R.TB_CAP_NS_VALID ch false).capSettle ch).reply w
  else s.reply w

/-- CAP_READ (R62). -/
def execCapRead (ch : Fin 16) (s : State) : Out := .next (s.capRead ch)

/-- The effect of TB_NS_READ: an NS word is returned, and its seconds words are captured in the same tick (R71). -/
def State.nsRead (s : State) (r : NsReg) : State :=
  match r with
  | .now =>
    let s := (s.set R.TB_NOW_NS_NS 0 s.ns).set R.TB_NOW_SEC_LO 0 s.sec
    let s := (s.set R.TB_NOW_SEC_HI_SEC_HI 0 (s.sec / 2 ^ 32)).latch (R.TB_NOW_SEC_HI_SEC_HI.addr 0) (item (s.sec / 2 ^ 32))
    s.reply (item s.ns)
  | .step =>
    ((s.reply (s.regs.word .tb (R.TB_STEP_NS_NS.addr 0))).latch (R.TB_STEP_SEC_LO.addr 0)
      (s.regs.word .tb (R.TB_STEP_SEC_LO.addr 0))).latch (R.TB_STEP_SEC_HI_SEC_HI.addr 0)
      (s.regs.word .tb (R.TB_STEP_SEC_HI_SEC_HI.addr 0))
  | .trg ch =>
    ((s.reply (s.regs.word .tb (R.TB_TRG_NS_NS.addr ch))).latch (R.TB_TRG_SEC_LO.addr ch)
      (s.regs.word .tb (R.TB_TRG_SEC_LO.addr ch))).latch (R.TB_TRG_SEC_HI_SEC_HI.addr ch)
      (s.regs.word .tb (R.TB_TRG_SEC_HI_SEC_HI.addr ch))

/-- TB_NS_READ (R71). -/
def execTbNsRead (reg : NsReg) (s : State) : Out := .next (s.nsRead reg)

/-! ### Triggers (R63 to R66) -/

/-- A trigger channel beside its registers. -/
def State.trig (s : State) (ch : Nat) : Trig := Tab.get (fun _ => {}) s.tb.trig ch

/-- Change a trigger channel. -/
def State.updTrig (s : State) (ch : Nat) (f : Trig → Trig) : State :=
  s.updTb fun t => { t with trig := Tab.upd (fun _ => {}) t.trig ch f }

/-- The BAR0 offset of a channel's TRG_CTRL. -/
def trgCtrlAddr (ch : Nat) : Nat := R.TB_TRG_CTRL_ARM.addr ch

/-- ARM is set: the programmed time is taken from the time registers; a time already past makes the trigger late (R63,
R66). -/
def State.setArm (s : State) (ch : Nat) : State :=
  let sec := s.get R.TB_TRG_SEC_HI_SEC_HI ch * 2 ^ 32 + s.get R.TB_TRG_SEC_LO ch
  let ns := s.get R.TB_TRG_NS_NS ch
  let s := (s.setBit R.TB_TRG_CTRL_ARM ch true).updTrig ch fun _ => { sec, ns, late := none }
  s.detect 28 ch (decide (nsOf sec ns < s.now)) fun inj s =>
    let s := s.updTrig ch fun t => { t with late := some (s.tick + 2) }
    (s.raiseBit R.TB_TRG_STATUS_LATE ch).post Ev.trgLate .notice (some ch) [] false inj

/-- A write of TRG_CTRL with ARM = 1 (R63, R64): ACTION and TARGET are written; a reserved action leaves ARM at 0, and so
does a nonzero period below 1,000 ns, with the notice of R9. R66 is silent on ARM written while it is already 1: ARM is not set by such
a write, so the programmed time stays (DESIGN CHOICE, log entry 37). -/
def State.triggerArm (s : State) (ch action target : Nat) : State :=
  let armed := s.bit R.TB_TRG_CTRL_ARM ch
  let s := (s.set R.TB_TRG_CTRL_ACTION ch action).set R.TB_TRG_CTRL_TARGET ch target
  let period := s.get R.TB_TRG_PERIOD ch
  if 5 ≤ action % 8 then s.setBit R.TB_TRG_CTRL_ARM ch false
  else if armed then s
  else if period ≠ 0 ∧ period < 1000 then s.ignored (trgCtrlAddr ch)
  else s.setArm ch

/-- TRIGGER_ARM (R63). -/
def execTriggerArm (ch : Fin 16) (action target : Nat) (s : State) : Out := .next (s.triggerArm ch action target)

/-- An armed trigger is due (R63). -/
def State.trigDue (s : State) (ch : Nat) : Bool :=
  s.bit R.TB_TRG_CTRL_ARM ch &&
    match (s.trig ch).late with
    | some t => decide (t ≤ s.tick)
    | none => decide (nsOf (s.trig ch).sec (s.trig ch).ns ≤ s.now)

/-- The firing itself, before its action: count, then disarm, or advance the programmed time by the period (R64). -/
def State.trigAdvance (s : State) (ch : Nat) : State :=
  let s := s.inc R.TB_TRG_STATUS_FIRED ch
  let period := s.get R.TB_TRG_PERIOD ch
  if period = 0 then s.setBit R.TB_TRG_CTRL_ARM ch false
  else s.updTrig ch fun t =>
    let next := nsOf t.sec t.ns + period
    { sec := next / nsPerSec % secTop, ns := next % nsPerSec, late := none }

/-! ### 1PPS (R67) -/

/-- The second whose pulse has come last: this one from OFFSET_NS on, else the one before it. -/
def State.ppsSecond (s : State) : Nat :=
  if s.get R.TB_PPS_OFFSET_OFFSET_NS ≤ s.ns then s.sec else (s.sec + secTop - 1) % secTop

/-- The rise of PPS_OUT is due: the second whose pulse has come last has had none, and neither has the one after it (a step forbids the
pulse of the second in which it lands). -/
def State.ppsDue (s : State) : Bool :=
  s.bit R.TB_PPS_CTRL_OUT_EN && decide (s.tb.ppsDone ≠ some s.ppsSecond)
    && decide (s.tb.ppsDone ≠ some ((s.ppsSecond + 1) % secTop))

/-- The high time of PPS_OUT in ticks; a WIDTH of 0 acts as 1. -/
def State.ppsTicks (s : State) : Nat := max 1 (s.get R.TB_PPS_CTRL_WIDTH) * 125000

/-- The effect of PPS_OUT_RISE. -/
def State.ppsRise (s : State) : State :=
  if s.ppsDue then
    s.updTb fun t => { t with ppsOut := true, ppsFallAt := s.tick + s.ppsTicks, ppsDone := some s.ppsSecond }
  else s

/-- PPS_OUT_RISE (R67). -/
def execPpsOutRise (s : State) : Out := .next s.ppsRise

/-- The effect of PPS_OUT_FALL. R67 is silent on OUT_EN cleared while the pin is high: the pulse keeps its width (DESIGN CHOICE, log
entry 38). -/
def State.ppsFall (s : State) : State :=
  if s.tb.ppsOut && decide (s.tb.ppsFallAt ≤ s.tick) then s.updTb fun t => { t with ppsOut := false } else s

/-- PPS_OUT_FALL (R67). -/
def execPpsOutFall (s : State) : Out := .next s.ppsFall

/-! ### IEEE 1588 (R68 to R70) -/

/-- The interval that a message announces is one that the port supports: a Sync of 2^-3 to 2^1 s, an Announce of 2^0 to 2^3 s. -/
def ptpInterval (m : PtpMsg) : Bool :=
  match m.kind with
  | .sync => decide (-3 ≤ m.logInterval ∧ m.logInterval ≤ 1)
  | .announce => decide (0 ≤ m.logInterval ∧ m.logInterval ≤ 3)
  | _ => true

/-- The management core supports this message (R68): version, domain, kind, transport, addressing and interval; peer-to-peer,
management and signalling messages are of the kind `other`. -/
def ptpSupported (m : PtpMsg) : Bool :=
  decide (m.version = 2) && decide (m.domain ≤ 127) && decide (m.kind ≠ .other) && decide (m.transport ≠ .udpIpv6)
    && m.multicast && ptpInterval m

/-- The port takes a state, a slave-only port never that of a master; leaving SLAVE clears LOCK. -/
def State.ptpPort (s : State) (p : Nat) : State :=
  let p := if s.tb.ptpSlaveOnly ∧ (p = 5 ∨ p = 6) then 2 else p
  let s := s.set R.TB_PTP_STATE_PORT_STATE 0 p
  if p = 4 then s else (s.setBit R.TB_PTP_STATE_LOCK 0 false).updTb fun t => { t with ptpBelow := 0 }

/-- The lock rule on a new offset: set after 16 Sync intervals below 10 µs, cleared above 50 µs. -/
def State.ptpLock (s : State) (o : Int) : State :=
  let run := if o.natAbs < 10000 then s.tb.ptpBelow + 1 else 0
  let s := s.updTb fun t => { t with ptpBelow := run }
  if s.get R.TB_PTP_STATE_PORT_STATE ≠ 4 then s
  else if 16 ≤ run then s.setBit R.TB_PTP_STATE_LOCK 0 true
  else if 50000 < o.natAbs then s.setBit R.TB_PTP_STATE_LOCK 0 false
  else s

/-- The servo's FRAC write when the management core owns FRAC, or when a lease holder relays it under lock (R68, R377): a free
value within the limits of R47; nothing while the management core is down (R455). -/
def State.ptpServo (s : State) : State :=
  let v := max (-fracMax) (min (Config.ptpServo s.free) fracMax)
  if s.get R.TB_PTP_STATE_PORT_STATE ≠ 4 ∨ s.mgmtDown then s
  else if s.get R.TB_CORR_CTRL_OWNER = 1 then (s.fracWrite (.mgmt false 0 0) v).draw
  else if s.get R.TB_CORR_CTRL_OWNER = 2 ∧ s.get R.TW_STATE_STATE = 2 ∧ s.bit R.TB_PTP_STATE_LOCK then (s.fracWrite (.twin 0) v).draw
  else s

/-- A measured offset: PTP_OFFSET, the notice of R70, the lock and the servo. -/
def State.ptpMeasure (s : State) (o : Int) : State :=
  let s := s.seti R.TB_PTP_OFFSET 0 (max (-(2 ^ 31 - 1)) (min o (2 ^ 31 - 1)))
  let slave := decide (s.get R.TB_PTP_STATE_PORT_STATE = 4)
  let s := s.detect 30 noInst (s.enabled && slave && decide (100000 < o.natAbs)) fun inj s =>
    s.post Ev.ptpOffset .notice none [] false inj
  (s.ptpLock o).ptpServo

/-- The effect of PTP_MESSAGE_RX: an unsupported message is ignored and counted. -/
def State.ptpRx (s : State) (m : PtpMsg) : State :=
  if ptpSupported m then
    let s := (s.set R.TB_PTP_STATE_DOMAIN 0 m.domain).ptpPort m.portState
    let s := s.updTb fun t => { t with ptpSeen := t.ptpSeen + 1 }
    match m.offset with
    | some o => s.ptpMeasure o
    | none => s
  else s.updTb fun t => { t with ptpIgnored := t.ptpIgnored + 1 }

/-- PTP_MESSAGE_RX (R68). -/
def execPtpMessageRx (m : PtpMsg) (s : State) : Out := .next (s.ptpRx m)

/-- The port state sends this kind of message: a master Sync, Follow_Up after it, Announce and Delay_Resp; a slave, or a
port on its way to one, Delay_Req (R68). -/
def State.ptpSends (s : State) (k : PtpKind) : Bool :=
  let p := s.get R.TB_PTP_STATE_PORT_STATE
  match k with
  | .sync | .announce | .delayResp => decide (p = 5)
  | .followUp => decide (p = 5) && s.tb.ptpFollowUp
  | .delayReq => decide (p = 3 ∨ p = 4)
  | .other => false

/-- The effect of PTP_MESSAGE_TX: the two-step master owes a Follow_Up after each Sync. The management port sends it, from base
address + 6 (R75). -/
def State.ptpTx (s : State) (k : PtpKind) : State :=
  if s.ptpSends k then
    s.updTb fun t =>
      { t with ptpSent := t.ptpSent + 1, ptpFrom := s.get64 R.CB_DEV_MAC_LO R.CB_DEV_MAC_HI_OCTETS_0_1 + 6, ptpFollowUp := decide (k = .sync) || (t.ptpFollowUp && decide (k ≠ .followUp)) }
  else s

/-- PTP_MESSAGE_TX (R68). -/
def execPtpMessageTx (kind : PtpKind) (s : State) : Out := .next (s.ptpTx kind)

/-- The effect of PTP_MASTER_LOST: the notice while enabled and SLAVE, then the state the clock algorithm leaves. -/
def State.ptpLost (s : State) (p : Nat) : State :=
  let slave := decide (s.get R.TB_PTP_STATE_PORT_STATE = 4)
  (s.detect 31 noInst (s.enabled && slave) fun inj s => s.post Ev.ptpMasterLost .notice none [] false inj).ptpPort p

/-- PTP_MASTER_LOST (R70). -/
def execPtpMasterLost (portState : Fin 8) (s : State) : Out := .next (s.ptpLost portState)

end Sys2Proof.Machine
end

