-- ==== Sys2Proof/Machine/Feedback.lean ====
section
/-! DEFINITION. Position and speed feedback: direct ports, serial words, the index, the tracking observer, the record, and
encoder emulation (chapter 05). -/
namespace Sys2Proof.Machine

/-- Direct port `m`. -/
def State.dport (s : State) (m : Nat) : DPort := Tab.get (fun _ => {}) s.fb.dp m

/-- Change direct port `m`. -/
def State.updDport (s : State) (m : Nat) (f : DPort → DPort) : State :=
  { s with fb := { s.fb with dp := Tab.upd (fun _ => {}) s.fb.dp m f } }

/-! ### Slots that feed channels (R116) -/

/-- Slot `i`. -/
def State.slot (s : State) (i : Nat) : Slot := Tab.get (fun _ => {}) s.cb.slot i

/-- The feedback channels whose source is slot `i`. -/
def State.slotChans (s : State) (i : Nat) : List Nat :=
  (List.range 64).filter fun n => decide (s.get R.FB_CFG_KIND n = 1) && decide (s.get R.FB_CFG_SRC n = i)

/-- The substitute data of slot `i` while it has no frame of its last due cycle (R116): its held buffer, or zeros under LOSS_IO when it
is not bound to a joint. -/
def State.substData (s : State) (i : Nat) : List Byte :=
  if s.bit R.CB_LAYOUT_LOSS_IO (s.get R.CB_SL_B_LAYOUT i) && !((s.slotChans i).any fun n => s.bit R.FB_CFG_TL_EN n) then [] else (s.slot i).heldBuf

/-- What a reader of the held buffer of slot `i` gets. -/
def State.heldView (s : State) (i : Nat) : List Byte := if (s.slot i).freshHeld then (s.slot i).heldBuf else s.substData i

/-! ### Direct ports -/

/-- CPR of channel `n`; 0 stands for 2^32. -/
def State.cpr (s : State) (n : Nat) : Int := if s.get R.FB_CPR n = 0 then 2 ^ 32 else s.get R.FB_CPR n

/-- Channels run: the cell is ENABLED or DISABLING. -/
def State.running (s : State) : Bool := decide (2 ≤ s.cell)

/-- The running channel of direct port `m`. -/
def State.portChan (s : State) (m : Nat) : Option Nat :=
  if s.running then (List.range 64).find? fun n => decide (s.get R.FB_CFG_KIND n = 2) && decide (s.get R.FB_CFG_SRC n = m) else none

/-- Channel `n` sets UNVERIFIED; joints and axes homed by it lose HOMED (R223). -/
def State.unverify (s : State) (n : Nat) : State := (s.updChan n fun c => { c with unver := true }).unhome n

/-- Move the linear position by `d` counts; the turns wrap modulo 2^32 (R138). -/
def State.moveLin (s : State) (n : Nat) (d : Int) : State :=
  let half := s.cpr n * 2 ^ 31
  let v := (s.chan n).lin + d
  if -half ≤ v ∧ v < half then s.updChan n fun c => { c with lin := v }
  else
    let sh := if v < 0 then 2 * half else -(2 * half)
    (s.updChan n fun c => { c with lin := v + sh, rep := c.rep + sh, ph := c.ph + sh * 2 ^ 32, b2 := c.b2 + 2 * sh }).post
      Ev.fbTurnsWrap .info (some n)

/-! ### Edges (R133, R137, R149 to R151) -/

/-- The state machine of R149 and R151 on an edge of direction `d` at a tick; the count has moved. -/
def Chan.edge (c : Chan) (compat : Bool) (d : Int) (t : Nat) : Chan :=
  let b2 := 2 * c.lin - d
  let seedFrom := fun (t1 : Nat) => ({ c with st := 2, seed := some { dir := d, t1 := t1, t2 := t, b2 := b2 } } : Chan)
  let first := ({ c with st := 1, dir1 := d, t1 := t } : Chan)
  let c' :=
    match c.st with
    | 0 => first
    | 1 => if d = c.dir1 ∧ c.t1 < t then seedFrom c.t1 else first
    | 2 => if d = c.lastDir then c else if compat then first else { c with st := 3, rev := t }
    | 3 => if d = c.lastDir ∧ c.rev < t then seedFrom c.rev else { c with rev := t }
    | _ => c
  { c' with lastDir := d, edges := c.edges + 1, lastEdge := some t, b2 := b2 }

/-- The reported count: it follows the count, with the hysteresis of R151 under COMPAT while STILL or STARTING. -/
def Chan.report (c : Chan) (compat : Bool) : Chan :=
  let d := c.lin - c.rep
  if d = 0 then c
  else if compat && decide (c.st ≤ 1) then
    if c.repDir = 0 ∨ d.sign = c.repDir ∨ 2 ≤ d.natAbs then { c with rep := c.lin, repDir := d.sign } else c
  else { c with rep := c.lin, repDir := d.sign }

/-- The latch of a sample at tick `t` (R128, R134): the edges since the last one. A later edge or index event of the same tick belongs
to the sample, so a latch of this tick is taken again with what it held. -/
def Chan.latch (c : Chan) (t ns : Nat) : Chan :=
  let was : Nat × Option (Int × Nat × Int × Nat) × Bool :=
    match c.pend with
    | some (.port k _ _ sd _ _ _ ix) => if c.sampleTick = t then (k, sd, ix) else (0, none, false)
    | _ => (0, none, false)
  let seed := match c.seed with | some d => some (d.dir, d.t2 - d.t1, d.b2, t - d.t2) | none => was.2.1
  { c with pend := some (.port (was.1 + c.edges) c.b2 (t - c.lastEdge.getD t) seed c.lin c.rep c.st (was.2.2 || c.idxIn)),
           edges := 0, seed := none, idxIn := false, sampleTick := t, sampleNs := ns }

/-- The channel's latch waits and was taken in tick `t`. -/
def Chan.latchedAt (c : Chan) (t : Nat) : Bool :=
  match c.pend with | some (.port _ _ _ _ _ _ _ _) => decide (c.sampleTick = t) | _ => false

/-- An edge or index event of channel `n` was taken: a sample latched earlier in this tick takes it in. -/
def State.relatch (s : State) (n : Nat) : State :=
  s.updChan n fun c => if c.latchedAt s.tick then c.latch s.tick s.ns else c

/-- The tick of the first of the FILT + 1 equal samples of an input that is accepted in this tick (R131). -/
def State.filtDate (s : State) (m : Nat) : Nat := s.tick - s.get R.DP_CFG_FILT m

/-- An input of port `m` can be accepted at a new level in this tick: FILT + 1 samples have been taken since its last acceptance. -/
def State.filtOk (s : State) (m : Nat) (last : Option Nat) : Bool :=
  match last with | some t => decide (t + s.get R.DP_CFG_FILT m + 1 ≤ s.tick) | none => true

/-- A counted edge of port `m` in direction `d`: the raw count, and the channel's position and state. -/
def State.countEdge (s : State) (m : Nat) (d : Int) (t : Nat) : State :=
  let s := s.seti R.DP_COUNT m ((s.get R.DP_COUNT m : Int) + d)
  match s.portChan m with
  | none => s
  | some n =>
    let cp := s.bit R.FB_CFG_COMPAT n
    ((s.moveLin n d).updChan n fun c => (c.edge cp d t).report cp).relatch n

/-- The place of an A/B state in the order 00, 10, 11, 01. -/
def quadPlace (a b : Bool) : Nat := match a, b with | false, false => 0 | true, false => 1 | true, true => 2 | false, true => 3

/-- A quadrature error: the count is unchanged (R133). -/
def State.quadErr (s : State) (m : Nat) (injected : Bool) : State :=
  let s := (s.inc R.DP_STAT_QUAD_ERR m).post Ev.fbQuadErr .fault (some m) [] false injected
  match s.portChan m with
  | some n => s.unverify n
  | none => s

/-- The effect of DP_EDGE: accepted levels of A and B, all changes of this tick together, dated by the filter (R131). At an SSI port B is
the data line and A the device's own clock. -/
def State.dpEdge (s : State) (m : Nat) (a b : Bool) : State :=
  let p := s.dport m
  let mode := s.get R.DP_CFG_MODE m
  let a := if mode = 2 then p.a else a
  if !(p.a == a || s.filtOk m p.accA) || !(p.b == b || s.filtOk m p.accB) || p.accA == some s.tick || p.accB == some s.tick then s
  else
    let s := s.updDport m fun p =>
      { p with a := a, b := b, accA := if p.a = a then p.accA else some s.tick, accB := if p.b = b then p.accB else some s.tick }
    if mode ≠ 1 ∨ (p.a = a ∧ p.b = b) then s
    else
      match s.inject (192 + m) m with
      | (some _, s) => s.quadErr m true
      | (none, s) =>
        if p.a ≠ a ∧ p.b ≠ b then s.quadErr m false
        else
          let up := decide (quadPlace a b = (quadPlace p.a p.b + 1) % 4)
          s.countEdge m (if up != s.bit R.DP_CFG_INVERT m then 1 else -1) (s.filtDate m)

/-- DP_EDGE (R133). -/
def execDpEdge (m : Fin 8) (a b : Bool) (s : State) : Out := .next (s.dpEdge m a b)

/-- The Hall states in counting order (R137). -/
def hallOrder : List Nat := [1, 3, 2, 6, 4, 5]

/-- A Hall sequence error. -/
def State.hallErr (s : State) (m : Nat) (injected : Bool) : State :=
  let s := (s.inc R.DP_STAT_HALL_ERR m).post Ev.fbHallErr .fault (some m) [] false injected
  match s.portChan m with
  | some n => s.unverify n
  | none => s

/-- The effect of HALL_EDGE: accepted levels of U, V and W, all changes of this tick together: a step to the next or previous state
counts, any other change is an error. INVERT has no part in it (R133). -/
def State.hallEdge (s : State) (m uvw : Nat) : State :=
  let p := s.dport m
  let old := (if p.a then 1 else 0) + (if p.b then 2 else 0) + (if p.z then 4 else 0)
  let u := hasBit uvw 0
  let v := hasBit uvw 1
  let w := hasBit uvw 2
  if s.get R.DP_CFG_MODE m ≠ 3 ∨ old = uvw ∨ !(p.a == u || s.filtOk m p.accA) ∨ !(p.b == v || s.filtOk m p.accB)
      ∨ !(p.z == w || s.filtOk m p.accZ) ∨ [p.accA, p.accB, p.accZ].contains (some s.tick) then s
  else
    let s := s.updDport m fun p =>
      { p with a := u, b := v, z := w, accA := if p.a = u then p.accA else some s.tick, accB := if p.b = v then p.accB else some s.tick,
               accZ := if p.z = w then p.accZ else some s.tick }
    let i := hallOrder.idxOf old
    let j := hallOrder.idxOf uvw
    let ok := decide (i < 6 ∧ j < 6 ∧ (j = (i + 1) % 6 ∨ i = (j + 1) % 6))
    match s.inject (208 + m) m with
    | (some _, s) => s.hallErr m true
    | (none, s) => if ok then s.countEdge m (if j = (i + 1) % 6 then 1 else -1) (s.filtDate m) else s.hallErr m false

/-- HALL_EDGE (R137). -/
def execHallEdge (m : Fin 8) (uvw : Fin 8) (s : State) : Out := .next (s.hallEdge m uvw)

/-- The effect of FB_STANDSTILL: no edge for STILL × 10 µs. -/
def State.standstillFb (s : State) (n : Nat) : State :=
  let c := s.chan n
  match c.lastEdge with
  | some t =>
    if (c.st = 1 ∨ c.st = 2 ∨ c.st = 3) ∧ s.get R.FB_CFG_KIND n = 2 ∧ t + s.get R.FB_OBS_STILL n * 1250 ≤ s.tick then
      s.updChan n fun c => { c with st := 0, ph := c.lin * 2 ^ 32, vh := 0, ah := 0, seed := none }
    else s
  | none => s

/-- FB_STANDSTILL (R150). -/
def execFbStandstill (n : Fin 64) (s : State) : Out := .next (s.standstillFb n)

/-! ### Index (R134, R142 to R145) -/

/-- The axes with channel `n` as their index channel or their position: an index error with IDX_REACT = 1 stops them. -/
def State.indexAxes (s : State) (n : Nat) : List Nat :=
  (List.range 80).filter fun g =>
    let m := s.get R.MP_HOME_CFG_MODE g
    (decide (g < 64) && decide (s.chanOf g = some n))
      || (s.bit R.MP_CFG_EN g && decide (m = 2 ∨ m = 4 ∨ m = 5) && decide (s.get R.MP_HOME_CFG_IDX_CH g = n))

/-- The mask of the arm group of channel `n`'s Tiller, 0 for none. -/
def State.chanMask (s : State) (n : Nat) : Nat := if s.bit R.FB_CFG_TL_EN n then s.groupMaskOf (s.get R.FB_CFG_TILLER n) else 0

/-- LOSS_REACT of channel `n`'s Tiller. -/
def State.lossReact (s : State) (n : Nat) : React := reactOf (s.get R.TL_REACT_CFG_LOSS_REACT (s.get R.FB_CFG_TILLER n))

/-- An index event beyond tolerance (R143, R144). -/
def State.indexOut (s : State) (n : Nat) (dev : Int) (injected : Bool) : State :=
  let shifted := match (s.chan n).lastOut with | some d => decide ((dev - d).natAbs ≤ 1) | none => false
  let code := if shifted then Ev.fbRefShifted else Ev.fbIndexErr
  let react := s.get R.FB_IDX_CFG_IDX_REACT n
  let stop := decide (react = 2 ∧ s.chanMask n ≠ 0)
  let s := ((s.setBit R.FB_IDX_STAT_LAST_OUT n true).inc R.FB_ERR_INDEX_ERR n).unverify n
  let s := (s.updChan n fun c => { c with lastOut := some dev }).post code .fault (some n) [BitVec.ofInt 32 dev] stop injected
  if react = 1 then (s.indexAxes n).foldl (fun t g => t.abortGen g 4) (s.updChan n fun c => { c with holdIdx := true })
  else if stop then s.fault (s.chanMask n) (s.lossReact n) code (some n) 3
  else s

/-- An index event within tolerance corrects the position (R142). -/
def State.indexIn (s : State) (n : Nat) (dev : Int) (injected : Bool) : State :=
  let s := (s.setBit R.FB_IDX_STAT_LAST_OUT n false).updChan n fun c => { c with lastOut := none }
  if dev = 0 then s
  else
    ((s.moveLin n (-dev)).updChan n fun c =>
      { c with rep := c.rep - dev, b2 := c.b2 - 2 * dev,
               seed := c.seed.map fun d => { d with b2 := d.b2 - 2 * dev } }).post
      Ev.fbIndexCorr .info (some n) [BitVec.ofInt 32 dev] false injected

/-- An index event of channel `n`. -/
def State.indexCheck (s : State) (n : Nat) : State :=
  let cpr := s.cpr n
  let obs := ((s.chan n).lin % cpr - s.get R.FB_IDX_EXP n + cpr / 2) % cpr - cpr / 2
  let r := s.inject (128 + n) n
  let inj := r.1.isSome
  let dev := match r.1 with | some ps => signed 32 (param ps 0) | none => obs
  let s := (r.2.updChan n fun c => { c with idxIn := true }).seti R.FB_IDX_STAT_LAST_DEV n (max (-32767) (min dev 32767))
  let s :=
    if !s.bit R.FB_IDX_CFG_IDX_VALID n then s
    else if dev.natAbs ≤ s.get R.FB_IDX_CFG_INDEX_TOL n then s.indexIn n dev inj
    else s.indexOut n dev inj
  let lin := (s.chan n).lin
  s.homeIndex n (lin * 65536) (lin % cpr).toNat

/-- The effect of INDEX_EVENT: an accepted rising edge of Z, with Z_QUAL only while A and B read 1. Z has been low in between, so two
are at least 2 × (FILT + 1) samples apart. A sample latched earlier in this tick takes the event in. -/
def State.indexEvent (s : State) (m : Nat) : State :=
  let p := s.dport m
  let late := match p.accZ with | some t => decide (s.tick < t + 2 * (s.get R.DP_CFG_FILT m + 1)) | none => false
  if s.get R.DP_CFG_MODE m ≠ 1 ∨ late = true then s
  else
    let s := s.updDport m fun p => { p with accZ := some s.tick }
    if s.bit R.DP_CFG_Z_QUAL m ∧ !(p.a && p.b) then s
    else
      match s.portChan m with
      | some n => if s.bit R.FB_IDX_CFG_IDX_EN n then (s.indexCheck n).relatch n else s
      | none => s

/-- INDEX_EVENT (R142). -/
def execIndexEvent (m : Fin 8) (s : State) : Out := .next (s.indexEvent m)

/-! ### Samples (R128, R135, R136) -/

/-- The sample instant of port `m` has come in this cycle. -/
def State.sampleDue (s : State) (m : Nat) : Bool :=
  s.grid.running && s.grid.cyc.isSome && decide (s.get R.DP_CFG_SAMPLE_OFF m ≤ s.intoCycle)
    && decide ((s.dport m).sampled ≠ some s.cycle)

/-- The effect of DP_SAMPLE: an incremental or Hall port latches its sample. -/
def State.dpSample (s : State) (m : Nat) : State :=
  let mode := s.get R.DP_CFG_MODE m
  if !s.sampleDue m || !(mode == 1 || mode == 3) then s
  else
    let s := s.updDport m fun p => { p with sampled := some s.cycle }
    match s.portChan m with
    | none => s
    | some n => s.updChan n fun c => c.latch s.tick s.ns

/-- DP_SAMPLE (R128). -/
def execDpSample (m : Fin 8) (s : State) : Out := .next (s.dpSample m)

/-- The bits of a frame on port `m`: the data bits of its channel and the parity bit. -/
def State.ssiBits (s : State) (m : Nat) : Nat :=
  ((s.portChan m).map fun n => s.get R.FB_SERIAL_RAW_BITS n).getD 0 + if s.get R.DP_SSI_PARITY m = 0 then 0 else 1

/-- The frame's length in units of 4 ns. -/
def State.ssiLen (s : State) (m : Nat) : Nat := (s.ssiBits m + 1) * s.get R.DP_SSI_CLK_PER m

/-- The low half of the clock in units of 4 ns. -/
def State.ssiLow (s : State) (m : Nat) : Nat := s.get R.DP_SSI_CLK_PER m / 2

/-- The SSI clock rises `u` units of 4 ns after the frame's start, and it is a rising edge after the first: a bit is read. -/
def State.ssiReads (s : State) (m u : Nat) : Bool :=
  let per := s.get R.DP_SSI_CLK_PER m
  decide (s.ssiLow m + per ≤ u ∧ u < s.ssiLow m + (s.ssiBits m + 1) * per ∧ (u - s.ssiLow m) % per = 0)

/-- The clock output of port `m` `u` units of 4 ns after the frame's start: low in the first half of each period. -/
def State.ssiClk (s : State) (m u : Nat) : Bool :=
  !decide (u < s.ssiLen m ∧ u % s.get R.DP_SSI_CLK_PER m < s.ssiLow m)

/-- What an SSI port does as a tick ends: it reads the data line at the rising edges that fall into the tick, and once one half-period
after the frame's end (R135, R136). -/
def State.ssiSample (s : State) (m : Nat) : State :=
  let p := s.dport m
  if s.get R.DP_CFG_MODE m ≠ 2 then s
  else
    let d := s.tick - p.ssiStart
    let n := ([2 * d, 2 * d + 1].filter (s.ssiReads m)).length
    let past := decide (2 * s.ssiLen m + s.get R.DP_SSI_CLK_PER m ≤ 4 * d)
    s.updDport m fun p =>
      { p with bWas := p.b, ssiRaw := if p.ssiBusy && decide (n ≠ 0) then 2 * p.ssiRaw + (if p.b then 1 else 0) else p.ssiRaw,
               ssiTail := if p.ssiBusy && past && p.ssiTail.isNone then some p.b else p.ssiTail }

/-- The clock output of an SSI port in a new tick. -/
def State.ssiDrive (s : State) (m : Nat) : State :=
  let p := s.dport m
  let c := !p.ssiBusy || s.ssiClk m (2 * (s.tick - p.ssiStart))
  if p.clk = c then s else s.updDport m fun p => { p with clk := c }

/-- The effect of SSI_FRAME_START: the clock falls at the sample instant, not within RECOVERY of the last frame. -/
def State.ssiStart (s : State) (m : Nat) : State :=
  let p := s.dport m
  let free := match p.ssiEnd with | some e => decide (e + s.get R.DP_SSI_RECOVERY m * 125 ≤ s.tick) | none => true
  if s.get R.DP_CFG_MODE m ≠ 2 ∨ p.ssiBusy ∨ !free ∨ !s.sampleDue m then s
  else
    let s := s.updDport m fun p =>
      { p with ssiBusy := true, ssiStart := s.tick, ssiRaw := 0, ssiTail := none, idleLow := !p.bWas, clk := false, sampled := some s.cycle }
    let s := s.captureStart (8 + m) (s.sec, s.ns)
    match s.portChan m with
    | some n => s.updChan n fun c => { c with sampleTick := s.tick, sampleNs := s.ns }
    | none => s

/-- SSI_FRAME_START (R135). -/
def execSsiFrameStart (m : Fin 8) (s : State) : Out := .next (s.ssiStart m)

/-- The number of ones in the low `n` bits. -/
def onesIn (n v : Nat) : Nat := ((List.range n).filter fun i => v.testBit i).length

/-- A failed check of the frame whose bits are `raw`, the parity bit last, with the line's level `high` after it (R136). -/
def State.ssiBad (s : State) (m raw : Nat) (high : Bool) : Bool :=
  let ones := onesIn (s.ssiBits m) raw
  (s.bit R.DP_SSI_IDLE_CHECK m && (s.dport m).idleLow) || high
    || (match s.get R.DP_SSI_PARITY m with | 1 => decide (ones % 2 ≠ 0) | 2 => decide (ones % 2 ≠ 1) | _ => false)

/-- The effect of SSI_FRAME_END: the frame is over, and one half-period later the line is read: the frame is validated, and its word,
or its absence, goes to the channel. -/
def State.ssiEnd (s : State) (m : Nat) : State :=
  let p := s.dport m
  if !p.ssiBusy ∨ 4 * (s.tick - p.ssiStart) < 2 * s.ssiLen m + s.get R.DP_SSI_CLK_PER m then s
  else
    let raw := p.ssiRaw
    let bad := s.ssiBad m raw (p.ssiTail.getD p.b)
    let word := if s.get R.DP_SSI_PARITY m = 0 then raw else raw / 2
    let s := s.updDport m fun p => { p with ssiBusy := false, clk := true, ssiEnd := some (p.ssiStart + (s.ssiLen m + 1) / 2) }
    match s.portChan m with
    | none => s
    | some n =>
      (s.updChan n fun c => { c with pend := some (.word word) }).detect (200 + m) m bad fun inj s =>
        let s := s.updChan n fun c => { c with pend := some (.missing true) }
        (s.inc R.DP_STAT_SSI_ERR m).post Ev.fbSsiErr .notice (some m) [] false inj

/-- SSI_FRAME_END (R136). -/
def execSsiFrameEnd (m : Fin 8) (s : State) : Out := .next (s.ssiEnd m)

/-- A slot-bound channel's sample of this cycle, taken at the cycle's start, waits for the processor. -/
def State.fbPend (s : State) (n : Nat) (m : Meas) : State :=
  if s.running && decide (s.get R.FB_CFG_KIND n = 1) then
    s.updChan n fun c => { c with pend := some m, sampleTick := s.grid.start, sampleNs := s.grid.startNs }
  else s

/-! ### Serial words (R139 to R141) -/

/-- A Gray-coded number decoded: every bit is the exclusive-or of the coded bits at and above it. -/
def grayDecode (bits v : Nat) : Nat := maskOf ((List.range bits).filter fun i => decide (onesIn bits (v / 2 ^ i) % 2 = 1))

/-- The word as the channel uses it. -/
def State.serialWord (s : State) (n v : Nat) : Nat :=
  let bits := s.get R.FB_SERIAL_RAW_BITS n
  if s.bit R.FB_SERIAL_GRAY n then grayDecode bits (v % 2 ^ bits) else v % 2 ^ bits

/-- The linear position that the first word after enable or LOST gives (R141). -/
def State.firstLin (s : State) (n w : Nat) : Int :=
  let st := s.get R.FB_SERIAL_ST_BITS n
  let m := s.get R.FB_SERIAL_RAW_BITS n - st
  let up : Int := (w / 2 ^ st : Nat)
  let last := (s.chan n).lin / s.cpr n
  let turns : Int :=
    if 32 ≤ m then signed 32 (w / 2 ^ st)
    else if !(s.chan n).afterLost then (if m = 0 then 0 else up)
    else if m = 0 then last
    else last + signed m ((up - last) % 2 ^ m).toNat
  turns * s.cpr n + (w % 2 ^ st : Nat)

/-- The change of the word since the last valid one, in counts (R139): modulo 2^RAW_BITS, or, when the word gives the turns directly,
modulo 2^32 turns. -/
def State.wordStep (s : State) (n w last : Nat) : Int :=
  let bits := s.get R.FB_SERIAL_RAW_BITS n
  let st := s.get R.FB_SERIAL_ST_BITS n
  let lin := fun (v : Nat) => signed 32 (v / 2 ^ st) * s.cpr n + (v % 2 ^ st : Nat)
  if 32 ≤ bits - st then
    let wrap := s.cpr n * 2 ^ 32
    (lin w - lin last + wrap / 2) % wrap - wrap / 2
  else signed bits (((w : Int) - last) % 2 ^ bits).toNat

/-- Take a valid word: the position moves, and the state follows (R149 text: TRACKING from the second valid sample). In LOST the
position stays. -/
def State.takeWord (s : State) (n w : Nat) : State :=
  let c := s.chan n
  let next := if c.st = 0 then 1 else if c.st = 1 then 2 else c.st
  let seen := fun (t : State) => t.updChan n fun c => { c with run := 0, validSeen := true, live := true }
  if c.st = 4 then seen s
  else
    match c.word with
    | none =>
      let small := decide (s.get R.FB_SERIAL_RAW_BITS n - s.get R.FB_SERIAL_ST_BITS n < 32)
      let s := if c.afterLost && small then s.unverify n else s
      let lin := s.firstLin n w
      seen (s.updChan n fun c => { c with lin := lin, rep := lin, word := some w, st := next })
    | some last => seen ((s.moveLin n (s.wordStep n w last)).updChan n fun c => { c with word := some w, rep := c.lin, st := next })

/-- The position jump test of a word (R140): the state after the event, and whether the word is refused. -/
def State.jumpTest (s : State) (n w : Nat) : State × Bool :=
  match (s.chan n).word with
  | none => (s, false)
  | some last =>
    let d := s.wordStep n w last
    let lim := s.get R.FB_MAX_STEP n
    let r := s.inject (224 + n) n
    let bad := r.1.isSome || (decide (lim ≠ 0) && decide (lim < d.natAbs))
    if bad && !(s.chan n).lost then
      ((r.2.inc R.FB_ERR_POS_JUMP n).post Ev.fbPosJump .notice (some n) [] false r.1.isSome, true)
    else (r.2, false)

/-! ### The observer (R146 to R148) -/

/-- Terms of the exponential series of -x, scaled, from term `k` with value `t`. -/
def expSeries (x : Int) : Nat → Int → Int → Int
  | 0, _, acc => acc
  | n + 1, t, acc =>
    let k : Int := 64 - n
    let t' := -(t * x / expOne) / k
    expSeries x n t' (acc + t')

/-- The gains α, β and γ of R146 in Q2.30 for a bandwidth in Hz and a sample period in ns. -/
def observerGains (bw tns : Nat) : Int × Int × Int :=
  let x := twoPi * bw * tns / 1000000000
  let r : Rat := ((expSeries x 64 expOne expOne : Int) : Rat) / expOne
  (toQ 30 (1 - r * r * r), toQ 30 (3 / 2 * (1 - r) * (1 - r) * (1 + r)), toQ 30 ((1 - r) * (1 - r) * (1 - r)))

/-- The nominal sample period of channel `n` in ns. -/
def State.samplePeriod (s : State) (n : Nat) : Nat :=
  if s.get R.FB_CFG_KIND n = 1 then s.cycleNs * 2 ^ s.get R.CB_SL_B_DIV (s.get R.FB_CFG_SRC n) else s.cycleNs

/-- Store observer states, each rounded to its format; the position is kept beside the linear position. The result says
whether speed or acceleration saturated. -/
def State.storeObs (s : State) (n : Nat) (p v a : Rat) : State × Bool :=
  let w := s.cpr n * 2 ^ 64
  let c := s.chan n
  let ip := roundRat (p * 2 ^ 32)
  let ip := ip - w * ((2 * (ip - c.lin * 2 ^ 32) + w) / (2 * w))
  let iv := roundRat (v * 2 ^ 24)
  let ia := roundRat (a * 2 ^ 8)
  (s.updChan n fun c => { c with ph := ip, vh := clampInt 64 iv, ah := clampInt 64 ia },
   decide (iv ≠ clampInt 64 iv ∨ ia ≠ clampInt 64 ia))

/-- How a sample measures the position (R148). -/
inductive Msr where
  | none
  | pos
  | edge (b2 : Int) (dt : Nat)
  | inside

/-- Clamp a position into count `c`. -/
def clampCount (c : Int) (p : Rat) : Rat := max ((c : Rat) - 1 / 2) (min p ((c : Rat) + 1 / 2))

/-- One evaluation of R147 with the count `lin`, in state `st`. DESIGN CHOICE (log 117): the 96-bit intermediate values are exact. -/
def State.observe (s : State) (n st : Nat) (lin rep : Int) (m : Msr) : State × Bool :=
  let c := s.chan n
  let t : Rat := (s.samplePeriod n : Rat) / 1000000000
  let p : Rat := (c.ph : Rat) / 2 ^ 32
  let v : Rat := (c.vh : Rat) / 2 ^ 24
  let a : Rat := (c.ah : Rat) / 2 ^ 8
  let pm := p + v * t + a * t * t / 2
  let vm := v + a * t
  if st = 0 ∨ st = 1 ∨ st = 4 then s.storeObs n rep 0 0
  else
    let upd := fun (y : Rat) =>
      let w : Rat := s.cpr n * 2 ^ 32
      let e0 := y - pm
      let e := e0 - w * ((e0 + w / 2) / w).floor
      s.storeObs n (pm + (c.alpha : Rat) / 2 ^ 30 * e) (vm + (c.beta : Rat) / 2 ^ 30 * e / t)
        (a + (c.gamma : Rat) / 2 ^ 30 * e / (2 * t * t))
    match m with
    | .none =>
      if st = 3 ∧ (pm < (lin : Rat) - 1 / 2 ∨ (lin : Rat) + 1 / 2 ≤ pm) then s.storeObs n (clampCount lin pm) 0 0
      else s.storeObs n pm vm a
    | .pos => upd lin
    | .edge b2 dt => upd (clampCount lin ((b2 : Rat) / 2 + vm * (dt * 8 : Nat) / 1000000000))
    | .inside => upd (clampCount lin pm)

/-! ### The record (R129, R130) -/

/-- The flags of QUAL that a sample decides. -/
structure Qual where
  st : Nat
  fresh : Bool := false
  predicted : Bool := false
  edgeTimed : Bool := false
  sat : Bool := false
  edges : Nat := 0
  index : Bool := false

/-- Position, speed and acceleration in the status registers of channel `n`. -/
def State.recordPos (s : State) (n : Nat) (rep : Int) : State :=
  let c := s.chan n
  let cpr := s.cpr n
  let s := (s.seti R.FB_POS_LO n (rep % cpr)).seti R.FB_POS_HI n (rep / cpr)
  (s.set64 R.FB_VEL_LO R.FB_VEL_HI n c.vh).set64 R.FB_ACC_LO R.FB_ACC_HI n c.ah

/-- QUAL of channel `n`. -/
def State.recordQual (s : State) (n : Nat) (q : Qual) (c : Chan) : State :=
  let s := ((s.setBit R.FB_QUAL_EDGE_TIMED n q.edgeTimed).setBit R.FB_QUAL_UNVERIFIED n c.unver).setBit R.FB_QUAL_SAT n q.sat
  let compat := s.bit R.FB_CFG_COMPAT n && decide (s.get R.FB_CFG_KIND n = 2) && decide (s.get R.DP_CFG_MODE (s.get R.FB_CFG_SRC n) ≠ 2)
  let s := (s.setBit R.FB_QUAL_INDEX n q.index).setBit R.FB_QUAL_COMPAT n compat
  let s := ((s.set R.FB_QUAL_STATE n q.st).setBit R.FB_QUAL_FRESH n q.fresh).setBit R.FB_QUAL_PREDICTED n q.predicted
  (s.set R.FB_QUAL_INVALID_RUN n (min 3 c.run)).set R.FB_QUAL_EDGES n (min q.edges 0xFFFF)

/-- The record in the status registers of channel `n`; the sample is used up. -/
def State.recordRegs (s : State) (n : Nat) (rep : Int) (q : Qual) : State :=
  ((s.recordPos n rep).recordQual n q (s.chan n)).updChan n fun c => { c with pend := none, obsTick := c.sampleTick }

/-- The record in the X words of the channel's Tiller, then the signal to the scheduler. -/
def State.recordOut (s : State) (n : Nat) : State :=
  let words := [R.FB_POS_LO, R.FB_POS_HI, R.FB_VEL_LO, R.FB_VEL_HI, R.FB_ACC_LO, R.FB_ACC_HI, R.FB_QUAL_STATE].map
    fun f => s.regs.word .fb (f.addr n)
  let s :=
    if s.bit R.FB_CFG_TL_EN n then
      ((words ++ [item (s.chan n).sampleNs]).zipIdx).foldl
        (fun t w => t.xWrite (s.get R.FB_CFG_TILLER n) (s.get R.FB_CFG_XADDR n + w.2) w.1 none) s
    else s
  s.signalRelease n

/-- Write the record: the status registers, the Tiller's X words, then the signal to the scheduler. -/
def State.record (s : State) (n : Nat) (rep : Int) (q : Qual) : State := (s.recordRegs n rep q).recordOut n

/-- A sample without a measurement runs on prediction (R152). -/
def State.predict (s : State) (n : Nat) (counts : Bool) : State :=
  let s := if counts then (s.inc R.FB_ERR_INVALID n).updChan n fun c => { c with run := c.run + 1 } else s
  let s := s.updChan n fun c => { c with live := false }
  let c := s.chan n
  let r := s.observe n c.st c.lin c.rep .none
  r.1.record n c.rep { st := c.st, predicted := true, sat := r.2 }

/-- The update of a channel with a serial word. -/
def State.serialUpdate (s : State) (n v : Nat) : State :=
  let w := s.serialWord n v
  let j := s.jumpTest n w
  if j.2 then j.1.predict n true
  else
    let k := j.1.takeWord n w
    let c := k.chan n
    let r := k.observe n c.st c.lin c.rep .pos
    r.1.record n c.rep { st := c.st, fresh := true, sat := r.2 }

/-- The update of an incremental or Hall channel from its latch. A seed is the state at the sample instant; where the sample's last edge
reversed, the prediction is held to its count (R147). -/
def State.portUpdate (s : State) (n k : Nat) (b2 : Int) (dt : Nat) (seed : Option (Int × Nat × Int × Nat)) (lin rep : Int)
    (st : Nat) (idx : Bool) : State :=
  let s := s.updChan n fun c => { c with validSeen := true, live := true }
  let m : Msr := if st = 3 then .none else if 4 ≤ k then .pos else if 1 ≤ k then .edge b2 dt else .inside
  let r :=
    match seed with
    | some (d, t, sb, ago) =>
      let v : Rat := (d : Rat) * 1000000000 / (t * 8 : Nat)
      let p : Rat := (sb : Rat) / 2 + v * (ago * 8 : Nat) / 1000000000
      if st = 2 then
        s.storeObs n p v 0
      else if st = 3 then (if p < (lin : Rat) - 1 / 2 ∨ (lin : Rat) + 1 / 2 ≤ p then s.storeObs n (clampCount lin p) 0 0 else s.storeObs n p v 0)
      else s.observe n st lin rep m
    | none => s.observe n st lin rep m
  r.1.record n rep { st := st, fresh := decide (st ≠ 3 ∧ 1 ≤ k), predicted := decide (st = 3), sat := r.2, edges := k, index := idx
                     edgeTimed := decide (st ≠ 3 ∧ k < 4) }

/-- The effect of FEEDBACK_UPDATE: the waiting sample of channel `n` is processed. -/
def State.fbUpdate (s : State) (n : Nat) : State :=
  match (s.chan n).pend with
  | none => s
  | some (.word v) => s.serialUpdate n v
  | some (.missing counts) => s.predict n counts
  | some (.port k b2 dt seed lin rep st idx) => s.portUpdate n k b2 dt seed lin rep st idx

/-- FEEDBACK_UPDATE (R129). -/
def execFeedbackUpdate (n : Fin 64) (s : State) : Out := .next (s.fbUpdate n)

/-! ### LOST, and the channels at enable (R141, R146, R152, R153) -/

/-- Channel `n` enters LOST: the event, the escalation on the arm group of its Tiller, and HOMED cleared. -/
def State.loseChan (s : State) (n : Nat) : State :=
  if (s.chan n).lost then s
  else
    let s := (s.updChan n fun c => { c with st := 4, vh := 0, ah := 0, word := none, afterLost := true, seed := none, live := false }).unhome n
    let mask := s.chanMask n
    let s := s.post Ev.fbLost .fault (some n) [] (decide (mask ≠ 0))
    if mask = 0 then s else s.fault mask (s.lossReact n) Ev.fbLost (some n) 2

/-- The effect of FB_LOST: the third consecutive invalid sample. -/
def State.lostTest (s : State) (n : Nat) : State := if 3 ≤ (s.chan n).run then s.loseChan n else s

/-- FB_LOST (R152). -/
def execFbLost (n : Fin 64) (s : State) : Out := .next (s.lostTest n)

/-- Channel `n` at enable (R141, R146, R152): no position, no speed, its gains computed, and its registers so. A LOST channel stays LOST
(R153), and UNVERIFIED and a hold after an index error stay (R145). -/
def State.chanEnable (s : State) (n : Nat) : State :=
  if s.get R.FB_CFG_KIND n = 0 then s
  else
    let g := observerGains (s.get R.FB_OBS_BW_HZ n) (s.samplePeriod n)
    let s := s.updChan n fun c =>
      { alpha := g.1, beta := g.2.1, gamma := g.2.2, st := if c.lost then 4 else 0, afterLost := c.lost, unver := c.unver, holdIdx := c.holdIdx }
    (s.recordPos n 0).recordQual n { st := (s.chan n).st } (s.chan n)

/-- The partner of slot `i` is ACTIVE. -/
def State.slotPartnerActive (s : State) (i : Nat) : Bool := decide (s.get R.CB_PT_STATE_STATE (s.get R.CB_SL_B_PARTNER i) = 3)

/-- The source of channel `n` delivers valid samples (R153). -/
def State.delivering (s : State) (n : Nat) : Bool :=
  match s.get R.FB_CFG_KIND n with
  | 1 => s.slotPartnerActive (s.get R.FB_CFG_SRC n) && (s.chan n).live
  | 2 => decide (s.get R.DP_CFG_MODE (s.get R.FB_CFG_SRC n) ≠ 0)
      && (decide (s.get R.DP_CFG_MODE (s.get R.FB_CFG_SRC n) ≠ 2) || (s.chan n).live)
  | _ => false

/-- The action of FB_CLEAR. -/
def State.doFbClear (s : State) (d : Desc) : State :=
  let n := d.bits 4 5 0
  let serial := decide (s.get R.FB_CFG_KIND n = 1) || decide (s.get R.DP_CFG_MODE (s.get R.FB_CFG_SRC n) = 2)
  if (s.chan n).lost && !s.delivering n then s.completeDesc d { reason := 1 }
  else
    let s := s.mirrorDesc d
    let s := if (s.chan n).lost then s.updChan n fun c => { c with st := if serial then 2 else 0, run := 0, lastEdge := none } else s
    let s := if hasBit (d.word 5) 0 then s.updChan n fun c => { c with unver := false, holdIdx := false } else s
    let s :=
      if hasBit (d.word 5) 1 then
        ((s.set R.FB_IDX_EXP n (d.word 6)).setBit R.FB_IDX_CFG_IDX_VALID n true).updChan n fun c => { c with lastOut := none }
      else s
    s.completeDesc d {}

/-- FB_CLEAR (R153). -/
def execFbClear (d : DescId) (s : State) : Out := .next (s.action d 0x16 holderGate State.doFbClear)

/-! ### Encoder emulation (R154 to R156) -/

/-- Emulation output `k`. -/
def State.emul (s : State) (k : Nat) : Emul := Tab.get (fun _ => {}) s.fb.eo k

/-- Change emulation output `k`. -/
def State.updEmul (s : State) (k : Nat) (f : Emul → Emul) : State :=
  { s with fb := { s.fb with eo := Tab.upd (fun _ => {}) s.fb.eo k f } }

/-- 4 × LINES of output `k`. -/
def State.eoQuads (s : State) (k : Nat) : Nat := 4 * (if s.get R.EO_LINES_LINES k = 0 then 2 ^ 24 else s.get R.EO_LINES_LINES k)

/-- The linear position of the source of output `k` as a fraction of counts, and its counts per revolution: the record's position, or a
generator's reference position in 2^-16 counts (R198). -/
def State.eoSource (s : State) (k : Nat) : Int × Int × Int :=
  let i := s.get R.EO_CFG_SRC k
  if !s.bit R.EO_CFG_SRC_KIND k then (s.geti R.FB_POS_HI i * s.cpr i + s.get R.FB_POS_LO i, 1, s.cpr i)
  else
    ((s.gen i).pos, 65536,
     if 64 ≤ i then (if s.get R.ST_CPR (i - 64) = 0 then 2 ^ 32 else s.get R.ST_CPR (i - 64) : Int) else ((s.chanOf i).map s.cpr).getD (2 ^ 32))

/-- The target output count (R154). -/
def State.eoTarget (s : State) (k : Nat) : Nat :=
  let p := s.eoSource k
  let q : Int := s.eoQuads k
  ((p.1 * q / (p.2.1 * max 1 p.2.2)) % (2 ^ 32 * q)).toNat

/-- The pins of an output at its count: A leads B when the count rises. -/
def State.eoPins (s : State) (k : Nat) : State :=
  let q := s.eoQuads k
  let z := s.bit R.EO_CFG_Z_EN k
  s.updEmul k fun e =>
    let r := e.count % 4
    { e with pinA := decide (r = 1 ∨ r = 2), pinB := decide (r = 2 ∨ r = 3), pinZ := z && decide (e.count % q = 0) }

/-- EN of output `k` goes to 1: the count takes the target without edges, and LOST is cleared. -/
def State.eoEnable (s : State) (k : Nat) : State :=
  if s.bit R.EO_CFG_EN k then s
  else
    let s := ((s.setBit R.EO_CFG_EN k true).setBit R.EO_CFG_LOST k false).set R.EO_STAT_BACKLOG k 0
    (s.updEmul k fun e => { e with count := s.eoTarget k, total := 0, out := 0 }).eoPins k

/-- EO_ENABLE (R156). -/
def execEoEnable (k : Fin 4) (s : State) : Out := .next (s.eoEnable k)

/-- The output stops with a backlog above 65,536 edges. -/
def State.eoLost (s : State) (k : Nat) (injected : Bool) : State :=
  ((s.setBit R.EO_CFG_LOST k true).updEmul k fun e => { e with total := 0, out := 0 }).post Ev.eoLost .fault (some k) [] false injected

/-- Edges are carried to the next cycle. -/
def State.eoCarry (s : State) (k : Nat) (injected : Bool) : State :=
  (s.inc R.EO_STAT_OVERRUN k).postOnce Ev.eoOverrun .notice (some k) [] false injected

/-- Output `k` at a cycle start (R155): edges on the 8 ns grid that are no closer than 50 ns are at least 7 ticks apart. -/
def State.eoCycle (s : State) (k : Nat) : State :=
  if !s.bit R.EO_CFG_EN k || s.bit R.EO_CFG_LOST k then s
  else
    let mod : Int := (2 ^ 32 * s.eoQuads k : Nat)
    let diff : Int := ((s.eoTarget k : Int) - (s.emul k).count + mod / 2) % mod - mod / 2
    let n := diff.natAbs
    let cap := s.cycleNs / 56
    let carry := n - cap
    let s := (s.updEmul k fun e => { e with total := min n cap, out := 0, down := decide (diff < 0) }).set R.EO_STAT_BACKLOG k (min carry 0xFFFF)
    match s.inject (288 + k) k with
    | (some ps, s) => if param ps 0 = 1 then s.eoLost k true else s.eoCarry k true
    | (none, s) => if 65536 < carry then s.eoLost k false else if carry ≠ 0 then s.eoCarry k false else s

/-- The edges of output `k` that are due by this tick, spaced evenly over the cycle. -/
def State.eoTick (s : State) (k : Nat) : State :=
  let e := s.emul k
  if e.total ≤ e.out || !s.bit R.EO_CFG_EN k then s
  else
    let due := min e.total (s.intoCycle * 8 * e.total / max 1 s.cycleNs + 1)
    let n := due - e.out
    let mod := 2 ^ 32 * s.eoQuads k
    (s.updEmul k fun e =>
      { e with out := max e.out due, count := if e.down then (e.count + mod - n) % mod else (e.count + n) % mod }).eoPins k

end Sys2Proof.Machine
end

