-- ==== Sys2Proof/Machine/Distance.lean ====
section
/-! DEFINITION. The distance engine's geometry: obstacle capsules (R274, R275), robot capsules, zones (R276), the distances of capsule
pairs with their closest points and directed speeds (R277), and the protective separation distance (R278, R279). -/
namespace Sys2Proof.Machine

/-- Change the separation function. -/
def State.updSep (s : State) (f : Separation → Separation) : State := { s with sep := f s.sep }

/-! ### The SEP parameter block (R296) -/

/-- A word of the SEP parameter block. -/
def State.sepW (s : State) (w : Nat) : Word := s.gr1 (s.get R.SEP_PB_ADDR_ADDR + w)

/-- Bits of a word of the block. -/
def State.sepBits (s : State) (w hi lo : Nat) : Nat := bitsOf (s.sepW w) hi lo

/-- A word of the block in Q8.24. -/
def State.sepQ (s : State) (w : Nat) : Rat := ((s.sepW w).toInt : Rat) / 2 ^ 24

/-- The first word of arm `a`. -/
def armAt (a : Nat) : Nat := 8 + 96 * a

/-- The first word of scanner `i`. -/
def scanAt (i : Nat) : Nat := 776 + 24 * i

/-- The first word of zone `z`. -/
def zoneAt (z : Nat) : Nat := 1544 + 40 * z

/-- The scanners of the block. -/
def State.scanners (s : State) : List Nat := List.range (s.sepBits 0 13 8)

/-- CAP_MAX of scanner `i`. -/
def State.capMax (s : State) (i : Nat) : Nat := s.sepBits (scanAt i) 17 13

/-! ### Obstacle capsules (R274, R275) -/

/-- Scanner `i`. -/
def State.scan (s : State) (i : Nat) : Scan := Tab.get (fun _ => {}) s.sep.scan i

/-- Hold what scanner `i` delivered for the period that starts (R271): its slot's held buffer, and the age of its capsules. -/
def State.holdScan (s : State) (i : Nat) : State :=
  let sl := s.sepBits (scanAt i) 12 0
  let slot : Slot := Tab.get (fun _ => {}) s.cb.slot sl
  let c := s.scan i
  let buf := s.heldView sl
  let seq := beField buf 4 4
  let stamp := if c.seen && c.seq == seq then c.stamp else slot.heldArr
  let c' : Scan :=
    { c with seen := true, seq := seq, stamp := stamp, buf, active := s.slotPartnerActive sl,
             ageNs := beField buf 2 2 * 1000 + (s.tick - stamp) * 8 }
  s.updSep fun x => { x with scan := Tab.put (fun _ => {}) x.scan i c' }

/-- The cause that makes scanner `i` BLIND, 0 for none. -/
def State.blindCause (s : State) (i : Nat) : Nat :=
  let c := s.scan i
  let flags := beField c.buf 1 1
  if !c.active then 1
  else if !hasBit flags 0 then 2
  else if hasBit flags 1 then 3
  else if s.capMax i < beField c.buf 0 1 then 4
  else if s.sepQ (scanAt i + 4) < (c.ageNs : Rat) / 1000000000 then 5
  else 0

/-- One obstacle capsule in the cell frame: its index, scanner, class, endpoints (Q8.24 m) and radius (mm). -/
structure Obst where
  idx : Nat
  scanner : Nat
  cls : Nat
  e1 : List Int
  e2 : List Int
  radius : Nat
  deriving DecidableEq, Repr

/-- An endpoint in the cell frame (R274), from its place in the payload. -/
def State.endpoint (s : State) (i : Nat) (buf : List Byte) (p : Nat) : List Int :=
  let e := (List.range 3).map fun k => signed 16 (beField buf (p + 2 * k) 2)
  (List.range 3).map fun r =>
    let dot := ((List.range 3).map fun k => (s.sepW (scanAt i + 5 + 4 * r + k)).toInt * e.getD k 0).sum
    roundRat ((dot : Rat) / 64000 + (s.sepW (scanAt i + 8 + 4 * r)).toInt)

/-- The first obstacle index of scanner `i`. -/
def State.obstBase (s : State) (i : Nat) : Nat := ((List.range i).map s.capMax).sum

/-- The capsules of scanner `i`, which is not BLIND. -/
def State.capsules (s : State) (i : Nat) : List Obst :=
  let b := (s.scan i).buf
  (List.range (beField b 0 1)).map fun k =>
    let p := 8 + 16 * k
    { idx := s.obstBase i + k, scanner := i, cls := beField b (p + 14) 1, e1 := s.endpoint i b p,
      e2 := s.endpoint i b (p + 6), radius := beField b (p + 12) 2 }

/-- The speed of an obstacle's class (R278): STATIC_OBJECT stands, an unknown class counts as PERSON. -/
def State.classSpeed (s : State) (cls : Nat) : Rat := if cls = 1 then s.sepQ 2 else if cls = 2 then 0 else s.sepQ 1

/-- A Q8.24 number. -/
abbrev q24 (v : Int) : Rat := (v : Rat) / 2 ^ 24

/-- A Q8.24 point. -/
def point24 (l : List Int) : V3 := { x := q24 (l.getD 0 0), y := q24 (l.getD 1 0), z := q24 (l.getD 2 0) }

/-- The radius of an obstacle capsule in Q8.24 m, rounded half up (DEDUCED, log 139). -/
def Obst.rho (o : Obst) : Int := roundRat ((o.radius : Rat) * 2 ^ 24 / 1000)

/-- The obstacles of the scanners that are not BLIND, in ascending index. -/
def State.obstacles (s : State) : List Obst := (s.scanners.filter fun k => decide ((s.scan k).cause = 0)).flatMap s.capsules

/-! ### Robot capsules -/

/-- A robot capsule in the cell frame: its global index, its link, its endpoints and its radius (Q8.24 m). -/
structure RobotCap where
  idx : Nat
  link : Nat
  e1 : V3
  e2 : V3
  rad : Int
  deriving DecidableEq, Repr

/-- An arm at its measured pose: its axes and link poses in the cell frame, its measured joint speeds, its profile speeds at full scale
(R281), and its capsules. -/
structure ArmPose where
  arm : Nat
  chain : List (Axis × Pose)
  v : List Rat
  full : List Rat
  caps : List RobotCap

/-- The capsules of arm `a`. -/
def State.capCount (s : State) (a : Nat) : Nat := s.pbBits a 0 16 12

/-- The first global capsule index of arm `a`: the arms of ARM_MASK count in order of arm group. -/
def State.capBase (s : State) (a : Nat) : Nat := ((s.sepArms.filter fun b => decide (b < a)).map s.capCount).sum

/-- The measured positions q_m of the joints of arm `a` (R228). -/
def State.measured (s : State) (a : Nat) : List Rat := (List.range (s.armJoints a)).map fun i => s.qM a i (s.liveIn a i)

/-- Arm `a` at its measured pose (R232). -/
def State.armPose (s : State) (a : Nat) : ArmPose :=
  let ch := s.armChain a (s.measured a)
  { arm := a, chain := ch
    v := (List.range (s.armJoints a)).map fun i => s.vM a i (s.liveIn a i)
    full := (List.range (s.armJoints a)).map (s.fullSpeed a)
    caps := (List.range (s.capCount a)).map fun c =>
      let k := s.capOf a c
      { idx := s.capBase a + c, link := k.link, e1 := onLink ch k.link k.e1, e2 := onLink ch k.link k.e2, rad := toQ 24 k.rad } }

/-- The largest ratio of a joint's speed to its V_MAX (R279). -/
def State.speedIndex (s : State) (a : Nat) (v : List Rat) : Rat := maxAbs (v.zipIdx.map fun e => e.1 / s.jq a e.2 6)

/-! ### Zones (R276) -/

/-- A capsule is inside zone `z`. -/
def State.insideZone (s : State) (z : Nat) (e1 e2 : V3) (rad : Rat) : Bool :=
  (List.range (s.sepBits (zoneAt z) 3 0)).all fun i =>
    let p := zoneAt z + 4 + 4 * i
    let w := fun (k : Nat) => ((s.sepW (p + k)).toInt : Rat) / 2 ^ 30
    let nu : V3 := { x := w 0, y := w 1, z := w 2 }
    decide (min (nu.dot e1) (nu.dot e2) - rad ≤ s.sepQ (p + 3))

/-- An obstacle capsule is inside zone `z`. -/
def State.obstInside (s : State) (z : Nat) (o : Obst) : Bool := s.insideZone z (point24 o.e1) (point24 o.e2) ((o.radius : Rat) / 1000)

/-- Zone `z` is triggered by the obstacles of the period, or by a robot capsule of an arm in TRIG_MASK. -/
def State.zoneHit (s : State) (obs : List Obst) (arms : List ArmPose) (z : Nat) : Bool :=
  match s.sepBits (zoneAt z) 5 4 with
  | 0 => obs.any (s.obstInside z)
  | 1 => obs.any fun o => decide (o.cls ≠ 1 ∧ o.cls ≠ 2) && s.obstInside z o
  | 2 => (arms.filter fun p => hasBit (s.sepBits (zoneAt z) 23 16) p.arm).any fun p =>
      p.caps.any fun c => s.insideZone z c.e1 c.e2 (q24 c.rad)
  | _ => false

/-! ### Distances (R277) -/

/-- A pair of capsules: their indices and links, the closest points, the square of their distance, and the surface distance (Q8.24 m). -/
structure Near where
  i1 : Nat
  i2 : Nat
  link1 : Nat
  link2 : Nat
  p1 : V3
  p2 : V3
  sq : Rat
  d : Int

/-- The segments of a pair touch: their distance rounds to 0. -/
def Near.touch (n : Near) : Bool := decide (roundRoot 24 n.sq = 0)

/-- The same pair seen from the second capsule. -/
def Near.flip (n : Near) : Near := { n with i1 := n.i2, i2 := n.i1, link1 := n.link2, link2 := n.link1, p1 := n.p2, p2 := n.p1 }

/-- The distance that a faulty lane returns for a pair, else the true one. -/
def faultyDist (faults : List LaneFault) (i1 i2 : Nat) (obst : Bool) (d : Int) : Int :=
  match faults.find? fun f => f.capsule == i1 && f.other == i2 && f.obstacle == obst with
  | some f => f.d
  | none => d

/-- The pair of a robot capsule with a capsule given by its ends. -/
def RobotCap.near (c : RobotCap) (faults : List LaneFault) (obst : Bool) (i2 link2 : Nat) (e1 e2 : V3) (rad : Int) : Near :=
  let st := closest c.e1 c.e2 e1 e2
  let p1 := between c.e1 c.e2 st.1
  let p2 := between e1 e2 st.2
  let diff := p2.sub p1
  let sq := diff.dot diff
  { i1 := c.idx, i2 := i2, link1 := c.link, link2 := link2, p1 := p1, p2 := p2, sq := sq
    d := faultyDist faults c.idx i2 obst (max 0 (roundRoot 24 sq - c.rad - rad)) }

/-- The pair of a robot capsule and an obstacle. -/
def RobotCap.nearObst (c : RobotCap) (faults : List LaneFault) (o : Obst) : Near :=
  c.near faults true o.idx 0 (point24 o.e1) (point24 o.e2) o.rho

/-- The pairs of two arms' capsules, the first arm's first. -/
def ArmPose.pairsWith (p r : ArmPose) (faults : List LaneFault) : List Near :=
  p.caps.flatMap fun c => r.caps.map fun k => c.near faults false k.idx k.link k.e1 k.e2 k.rad

/-- The least of a list of pairs, ties to the earlier. -/
def leastNear : List Near → Option Near
  | [] => none
  | n :: rest => some (rest.foldl (fun m k => if k.d < m.d then k else m) n)

/-- The velocity of the closest point of the first capsule under joint speeds (R232). -/
def ArmPose.pointSpeed (p : ArmPose) (n : Near) (v : List Rat) : V3 := V3.sum (v.zip (jacobian p.chain n.link1 n.p1))

/-- The directed speed of a pair under joint speeds, Q8.24 m/s, rounded half up (R277; rounding DEDUCED, log 139). -/
def ArmPose.directed (p : ArmPose) (n : Near) (v : List Rat) : Int :=
  let w := p.pointSpeed n v
  if n.touch then roundRoot 24 (w.dot w) else max 0 (roundOver 24 ((n.p2.sub n.p1).dot w) n.sq)

/-- The closing speed that a pair gives CE under profile speeds (R283). -/
def ArmPose.closing (p : ArmPose) (n : Near) : Int :=
  if n.touch then max 0 (clampInt 32 (Config.contactSpeed n.i1 n.i2)) else p.directed n p.full

/-- The approach of the closest point for each unit of joint `i`, Q8.24 (R284). -/
def ArmPose.approach (p : ArmPose) (n : Near) (i : Nat) : Int :=
  if n.sq = 0 then clampInt 32 (Config.contactNormal n.i1 n.i2 i)
  else clampInt 32 (roundOver 24 ((n.p2.sub n.p1).dot ((jacobian p.chain n.link1 n.p1).getD i {})) n.sq)

/-! ### Protective separation distance (R278, R279, R281) -/

/-- The place of the smallest point at or above a value among `n` points from a word; the last, with a mark, beyond it. -/
def pointOf (f : Nat → Rat) (n : Nat) (v : Rat) : Nat × Bool :=
  match (List.range n).find? fun i => decide (v ≤ f i) with
  | some i => (i, false)
  | none => (n - 1, true)

/-- The payload of arm `a` in kg, as the publication bank held it. -/
def State.payloadOf (s : State) (a : Nat) : Rat := ((Tab.get (fun _ => 0) s.sep.payload a).toInt : Rat) / 2 ^ 16

/-- T_s and S_s of arm `a` at a speed index, and whether the table was exceeded. -/
def State.stopTable (s : State) (a : Nat) (spd : Rat) : (Rat × Rat) × Bool :=
  let b := armAt a
  let i := pointOf (fun k => s.sepQ (b + 6 + k)) (s.sepBits b 16 14 + 1) spd
  let j := pointOf (fun k => ((s.sepW (b + 14 + k)).toInt : Rat) / 2 ^ 16) (s.sepBits b 18 17 + 1) (s.payloadOf a)
  let w := b + 18 + 2 * (4 * i.1 + j.1)
  ((s.sepQ w, s.sepQ (w + 1)), i.2 || j.2)

/-- s_p of arm `a` and an obstacle, Q8.24, at a speed index and a directed speed. -/
def State.protDist (s : State) (a : Nat) (o : Obst) (spd vr : Rat) : Int :=
  let sc := scanAt o.scanner
  let tdev : Rat := (s.periodNs + s.cycleNs : Nat) / 1000000000
  let ttot := s.sepQ (sc + 1) + ((s.scan o.scanner).ageNs : Rat) / 1000000000 + tdev + s.sepQ (armAt a + 1)
  let t := (s.stopTable a spd).1
  roundRat ((s.classSpeed o.cls * (ttot + t.1) + vr * ttot + t.2 + s.sepQ (sc + 2) + s.sepQ (sc + 3) + s.sepQ (armAt a + 2))
    * 2 ^ 24)

/-- A measured obstacle of an arm: its capsule, d, s_p and the margin. -/
structure Meet where
  o : Obst
  d : Int
  vr : Rat
  vrFull : Rat
  sp : Int
  margin : Int
  deriving DecidableEq, Repr

/-- Insert by a key, ties behind. -/
def insertKey {α : Type} (key : α → Int) (x : α) : List α → List α
  | [] => [x]
  | y :: t => if key x < key y then x :: y :: t else y :: insertKey key x t

/-- Sort by a key, keeping the order of ties. -/
def sortBy {α : Type} (key : α → Int) (l : List α) : List α := l.foldl (fun acc x => insertKey key x acc) []

/-- The obstacles that arm `p` meets, in ascending index, with their margins. -/
def State.meets (s : State) (obs : List Obst) (faults : List LaneFault) (p : ArmPose) : List Meet :=
  obs.filterMap fun o => (leastNear (p.caps.map fun c => c.nearObst faults o)).map fun n =>
    let vr := q24 (p.directed n p.v)
    let sp := s.protDist p.arm o (s.speedIndex p.arm p.v) vr
    { o := o, d := n.d, vr := vr, vrFull := max vr (q24 (p.directed n p.full)), sp := sp, margin := n.d - sp }

/-- KMAX of arm `a` from its margins: the largest k of 0, 1/32, … 1 that keeps every s_p, in Q1.15. -/
def State.kmaxOf (s : State) (a : Nat) (spdFull : Rat) (l : List Meet) : Nat :=
  let ok := fun (k : Nat) => l.all fun m =>
    decide (s.protDist a m.o (spdFull * k / 32) (m.vrFull * k / 32) ≤ m.d - (s.sepW (armAt a + 3)).toInt)
  match ((List.range 33).reverse).find? ok with
  | some k => k * 1024
  | none => 0

end Sys2Proof.Machine
end

