-- ==== Sys2Proof/Machine/Separation.lean ====
section
/-! DEFINITION. The separation function: decisions, KMAX, the output region, and the period boundary (chapter 11). -/
namespace Sys2Proof.Machine

/-! ### Decisions (R280) -/

/-- A cause of a STOP: its place in R280's order, its category, and the event it goes with. -/
structure StopCause where
  place : Nat
  cat : Nat
  code : Nat
  inst : Nat
  deriving DecidableEq, Repr

/-- A stop of category `cat` on arm group `a`: a fault escalation, or the separation stop line for STO. -/
def State.sepStop (s : State) (a cat : Nat) (ev : List (Nat × Nat)) : State :=
  if cat = 3 then
    let s := ev.foldl (fun t e => t.noteStop a e.1 e.2) s
    (s.updSio fun x => { x with sepLine := orBit x.sepLine a }).assertGroup 2 a
  else
    ev.foldl (fun t e => t.fault (2 ^ a) (if cat = 1 then .ss2 else .ss1) e.1 (some e.2)) s

/-- ARM_STAT_C. -/
def statC (kmax obstacle decision cat : Nat) (range zone : Bool) : Word :=
  item (kmax % 65536 + obstacle % 512 * 2 ^ 16 + decision * 2 ^ 25 + cat * 2 ^ 27 + (if range then 2 ^ 29 else 0)
    + (if zone then 2 ^ 30 else 0))

/-- The stage shared by the arms of a period: obstacles, BLIND scanners, triggered zones, and arms closer than RR_STOP. -/
structure SepIn where
  obs : List Obst
  blind : List Nat
  zones : List Nat
  close : Nat

/-- The causes of a STOP of arm `a`, in R280's order. -/
def State.stopCauses (s : State) (a : Nat) (i : SepIn) (neg range : Bool) : List StopCause :=
  let own := s.sepBits (armAt a) 1 0
  (if neg then [{ place := 1, cat := own, code := Ev.sepProtect, inst := a }] else [])
    ++ (if range then [{ place := 2, cat := own, code := Ev.sepTableRange, inst := a }] else [])
    ++ ((i.zones.filter fun z => decide (s.sepBits (zoneAt z) 7 6 ≠ 0) && hasBit (s.sepBits (zoneAt z) 15 8) a).map fun z =>
        { place := 3, cat := s.sepBits (zoneAt z) 7 6, code := Ev.sepProtect, inst := a })
    ++ ((i.blind.filter fun k => hasBit (s.sepBits (scanAt k) 27 20) a).map fun k =>
        { place := 4, cat := s.sepBits (scanAt k) 19 18, code := Ev.sepScanBlind, inst := k })
    ++ (if hasBit i.close a then
          [{ place := 5, cat := s.get R.SEP_RR_CFG_RR_REACT, code := Ev.sepRrClose, inst := noInst }] else [])

/-- The margins of arm `a` after an injection at 943 + a, which supplies an obstacle and its margin. -/
def injectMargin (ps : Option (List Word)) (l : List Meet) : List Meet :=
  match ps with
  | none => l
  | some ps =>
    let o := param ps 0
    let v := signed 32 (param ps 1)
    if l.any fun m => m.o.idx == o then l.map fun m => if m.o.idx = o then { m with margin := v } else m
    else { o := { idx := o, scanner := 0, cls := 0, e1 := [], e2 := [], radius := 0 }, d := 0, vr := 0, vrFull := 0, sp := 0, margin := v } :: l

/-- The decision of one arm: events, escalations, KMAX, status words and the handover to Belvedere (R280, R281, R289). -/
def State.decideArm (s : State) (i : SepIn) (p : ArmPose) : State :=
  let a := p.arm
  let meets := s.meets i.obs s.sep.faults p
  let spd := s.speedIndex a p.v
  let r1 := s.inject (943 + a) a
  let r2 := r1.2.inject (953 + a) a
  let s := r2.2
  let l := injectMargin r1.1 meets
  let ranked := sortBy (fun m => m.margin) l
  let least := ranked.head?
  let neg := (least.map fun m => decide (m.margin < 0)).getD false
  let range := r2.1.isSome || (s.stopTable a spd).2
  let causes := s.stopCauses a i neg range
  let stop := !causes.isEmpty
  let cat := if stop then max (s.sepBits (armAt a) 1 0) ((causes.map fun c => c.cat).foldl max 0) else 0
  let acting := i.zones.filter fun z => hasBit (s.sepBits (zoneAt z) 15 8) a
  let kmax := if stop then 0 else (acting.map fun z => s.sepBits (zoneAt z + 1) 15 0).foldl min (s.kmaxOf a (max spd (s.speedIndex a p.full)) meets)
  let s := if range && !hasBit s.sep.rangeArms a then s.post Ev.sepTableRange .fault (some a) [] true r2.1.isSome else s
  let s :=
    if stop && !hasBit s.sep.stopArms a then
      let items := match least with
        | some x => if neg then [item x.o.idx, BitVec.ofInt 32 x.d, BitVec.ofInt 32 x.sp] else []
        | none => []
      (s.inc R.SEP_COUNT_PROTECT).post Ev.sepProtect .fault (some a)
        (Config.protectCause ((causes.head?.map fun c => c.place).getD 0) :: items) true r1.1.isSome
    else s
  let s := if stop && decide (cat = 3) then s else s.updSio fun x => { x with sepLine := clrBit x.sepLine a }
  let s := if stop then s.sepStop a cat ((Ev.sepProtect, a) :: (causes.map fun c => (c.code, c.inst)).filter (· != (Ev.sepProtect, a))) else s
  let nom := ranked.take (s.get R.SEP_CFG_NOM)
  let s := s.updSep fun x =>
    { x with stopArms := if stop then orBit x.stopArms a else clrBit x.stopArms a,
             rangeArms := if range then orBit x.rangeArms a else clrBit x.rangeArms a,
             given := x.given ++ [{ arm := a, stop := neg || range, nom := nom.map fun m => (m.o.idx, m.d, m.sp),
                                    mnom := (nom.map fun m => m.margin).foldl max (-(2 : Int) ^ 40),
                                    least := (least.map fun m => m.margin).getD (2 ^ 40) }] }
  let dmin := (sortBy (fun m => m.d) meets).head?
  let word := fun (v : Option Int) (k : Nat) => match v with | some v => BitVec.ofInt 32 v | none => Config.sepNone k
  let dec := if stop then 2 else if kmax < 0x8000 then 1 else 0
  let s := s.grPutList (s.sepOut + 4 * a)
    [word (dmin.map fun m => m.d) 0, word (least.map fun m => m.sp) 1,
     statC kmax ((least.map fun m => m.o.idx).getD (Config.sepNone 2).toNat) dec cat range (!acting.isEmpty),
     Tab.get (fun _ => 0) s.sep.bvMargin a]
  s.grPut (s.sepOut + 32 + a) (item (kmax % 65536))

/-! ### The protection phase (R280 to R283) -/

/-- Evaluate scanner `i`: its cause, the transition into BLIND, and its status register (R275). -/
def State.scanTest (s : State) (inj : Option (List Word)) (i : Nat) : State :=
  let hit := match inj with | some ps => decide (param ps 0 = i) | none => false
  let cause := match inj with | some ps => if param ps 0 = i then param ps 1 else s.blindCause i | none => s.blindCause i
  let s :=
    if cause ≠ 0 ∧ (s.scan i).cause = 0 then
      (s.inc R.SEP_COUNT_BLIND).post Ev.sepScanBlind .fault (some i) [item cause] true hit
    else s
  let s := s.updSep fun x => { x with scan := Tab.upd (fun _ => {}) x.scan i fun c => { c with cause := cause } }
  let used := if cause = 0 then beField (s.scan i).buf 0 1 else 0
  let s := ((s.set R.SEP_SCAN_STAT_STATE i (if cause = 0 then 1 else 2)).set R.SEP_SCAN_STAT_CAUSE i cause).set R.SEP_SCAN_STAT_COUNT i used
  s.set R.SEP_SCAN_STAT_AGE i (min ((s.scan i).ageNs / 1000) 0xFFFFF)

/-- Zone `z` of the period: SEP_ZONE when it becomes triggered (R276). -/
def State.zoneTest (s : State) (hit injected : Bool) (z : Nat) : State :=
  let s :=
    if hit && !hasBit s.sep.zones z then
      let cat := s.sepBits (zoneAt z) 7 6
      s.post Ev.sepZone (if cat = 0 then .notice else .fault) (some z) [] (decide (cat ≠ 0)) injected
    else s
  s.updSep fun x => { x with zones := if hit then orBit x.zones z else clrBit x.zones z }

/-- RR_STOP in Q8.24 m. -/
def State.rrStop (s : State) : Int := roundRat ((s.get R.SEP_RR_CFG_RR_STOP : Rat) * 2 ^ 24 / 1000)

/-- A surface distance lies below RR_STOP (R282). -/
def State.tooClose (s : State) (d : Int) : Bool := decide (d * 1000 < ((s.get R.SEP_RR_CFG_RR_STOP * 2 ^ 24 : Nat) : Int))

/-- The closest capsules of the arms of listed pair `k`, seen from its arm ARM_A. -/
def pairNear (faults : List LaneFault) (pa pb : ArmPose) : Option Near :=
  if pa.arm < pb.arm then leastNear (pa.pairsWith pb faults) else (leastNear (pb.pairsWith pa faults)).map Near.flip

/-- The pairs of arms of ARM_MASK that are closer than RR_STOP, as a mask of arms (R282). -/
def State.closeArms (s : State) (arms : List ArmPose) : Nat :=
  maskOf (arms.flatMap fun p => (arms.filter fun r => decide (p.arm < r.arm)).flatMap fun r =>
    match leastNear (p.pairsWith r s.sep.faults) with
    | some n => if s.tooClose n.d then [p.arm, r.arm] else []
    | none => [])

/-- The pose of an arm among those of the period. -/
def poseOf (arms : List ArmPose) (a : Nat) : Option ArmPose := arms.find? fun p => p.arm == a

/-- Hand CE's pair inputs over in the pair area (R283). -/
def State.giveCe (s : State) (arms : List ArmPose) : State :=
  s.cePairs.foldl (fun s k =>
    match poseOf arms (s.pbBits 8 (26 + k) 2 0), poseOf arms (s.pbBits 8 (26 + k) 5 3) with
    | some pa, some pb =>
      match pairNear s.sep.faults pa pb with
      | some n =>
        s.grPutList (s.sepOut + 40 + 4 * k)
          [BitVec.ofInt 32 n.d, BitVec.ofInt 32 (pa.closing n), BitVec.ofInt 32 (pb.closing n.flip), BitVec.ofInt 32 s.rrStop]
      | none => s
    | _, _ => s) s

/-- The separation function is at work in a period. -/
def State.sepOn (s : State) : Bool := s.bit R.SEP_CFG_EN && s.running && s.sep.active

/-- The protection phase of a period (R280 to R283), with the distances that faulty lanes return: scanners, zones, arms too close to each
other, the decision of each arm, and CE's inputs. -/
def State.protect (s : State) : State :=
  let r := s.inject 952 noInst
  let s := s.scanners.foldl (State.scanTest · r.1) r.2
  let arms := s.sepArms.map s.armPose
  let blind := s.scanners.filter fun k => decide ((s.scan k).cause ≠ 0)
  let obs := s.obstacles
  let z := s.inject 961 noInst
  let forced := z.1.map fun ps => param ps 0
  let nz := List.range (z.2.sepBits 0 20 14)
  let zones := nz.filter fun k => z.2.zoneHit obs arms k || forced == some k
  let s := nz.foldl (fun t k => t.zoneTest (zones.contains k) (forced == some k) k) z.2
  let q := s.inject 951 noInst
  let close := s.closeArms arms ||| maskOf (match q.1 with | some ps => [param ps 0, param ps 1] | none => [])
  let s := if close ≠ 0 ∧ !q.2.sep.rrClose then q.2.post Ev.sepRrClose .fault none [] true q.1.isSome else q.2
  let s := s.updSep fun x => { x with rrClose := decide (close ≠ 0), given := [] }
  let i : SepIn := { obs := obs, blind := blind, zones := zones, close := close }
  (arms.foldl (fun t p => t.decideArm i p) s).giveCe arms

/-- The effect of SEP_PROTECTION_END. -/
def State.protectionEnd (s : State) (faults : List LaneFault) : State :=
  if !s.sepOn || s.sep.protDone || s.sep.geomFail then s
  else
    let s := (s.updSep fun x => { x with faults := faults }).protect
    let s := (s.setBit R.SEP_STAT_GEOM_FAIL 0 false).set R.SEP_STAT_GEOM_LAST 0 (min 0xFFFF (s.tick - s.sep.start))
    let s := s.updSep fun x => { x with protDone := true, givenTick := some s.tick }
    s.phasesEnd 3

/-- SEP_PROTECTION_END (R280). -/
def execSepProtectionEnd (faults : List LaneFault) (s : State) : Out := .next (s.protectionEnd faults)

/-! ### The rows phase (R284, R285) -/

/-- q̂ − q_m of joint `i` of arm `a`, and v̂, in joint units (R284). -/
def State.forecast (s : State) (a i : Nat) : Rat × Rat :=
  let w := fun (k : Nat) => (s.gr1 (s.get R.SV_OUT_ADDR_ADDR a + 8 * i + k)).toInt
  let h := s.periodSec
  let q0 := q24 (w 0)
  let v0 := q24 (w 1)
  let a0 : Rat := (w 2 : Rat) / 2 ^ 16
  let qm := s.qM a i (s.liveIn a i)
  (q0 + v0 * h + a0 * h * h / 2 - qm, v0 + a0 * h)

/-- The words of the active row of a capsule pair of arm `p`, from its constant part and the speed subtracted in e1. -/
def State.rowWords (s : State) (p : ArmPose) (near : Near) (base vo : Rat) : List Word :=
  let a := p.arm
  let n := s.armJoints a
  let g := (List.range n).map (p.approach near)
  let f := (List.range n).map fun i => (q24 (g.getD i 0), s.forecast a i)
  let dq := (f.map fun p => p.1 * p.2.1).sum
  let dv := (f.map fun p => p.1 * p.2.2).sum
  ((List.range n).map fun i => BitVec.ofInt 32 (g.getD i 0))
    ++ [BitVec.ofInt 32 (toQ 24 (base - dq)), BitVec.ofInt 32 (toQ 24 (-vo - dv)), item (1 + 2 ^ 31)]

/-- The budget of arm `a` in pair `p` from CE (R236). -/
def State.budgetOf (s : State) (a p : Nat) : Rat :=
  let side := if s.pbBits 8 (26 + p) 2 0 = a then 0 else 1
  q24 (s.gr2 (s.get R.SV_OUT_ADDR_ADDR 8 + 8 + 2 * p + side)).toInt

/-- The rows of arm `p` in the order of R284: for each listed pair its closest capsule pairs, then the closest obstacles. -/
def State.rowsFor (s : State) (arms : List ArmPose) (p : ArmPose) : List (List Word) :=
  let a := p.arm
  let margin := s.sepQ 3
  let listed := s.cePairs.filter fun k => decide (s.pbBits 8 (26 + k) 2 0 = a ∨ s.pbBits 8 (26 + k) 5 3 = a)
  let inter := listed.flatMap fun k =>
    let b := if s.pbBits 8 (26 + k) 2 0 = a then s.pbBits 8 (26 + k) 5 3 else s.pbBits 8 (26 + k) 2 0
    match poseOf arms b with
    | some r =>
      let l := if a < b then p.pairsWith r s.sep.faults else (r.pairsWith p s.sep.faults).map Near.flip
      ((sortBy (fun n => n.d) l).take (s.sepBits (armAt a) 13 10)).map fun n =>
        s.rowWords p n (s.budgetOf a k + q24 (n.d - s.pairWord k 0) - margin) 0
    | none => []
  let obs := s.obstacles
  let all := p.caps.flatMap fun c => obs.map fun o => (c.nearObst s.sep.faults o, o)
  let near := ((sortBy (fun n => n.1.d) all).take (s.sepBits (armAt a) 9 2)).map fun n =>
    let vo := s.classSpeed n.2.cls
    s.rowWords p n.1 (q24 n.1.d - s.sepQ (armAt a + 4) - vo * s.periodSec - margin) vo
  (inter ++ near).take (s.sepRowCount a)

/-- Write the row area of arm `a`: its rows, then inactive ones. -/
def State.writeRows (s : State) (rows : List (List Word)) (a : Nat) : State :=
  let w := s.armJoints a + 3
  let l := rows ++ List.replicate (s.sepRowCount a - rows.length) (List.replicate w 0)
  s.grPutList (s.sepOut + 256 + s.rowBase a) l.flatten

/-- The effect of SEP_ROWS_END. -/
def State.rowsEnd (s : State) : State :=
  if !s.sepOn || !s.sep.protDone || s.sep.rowsDone || s.sep.geomFail then s
  else
    let arms := s.sepArms.map s.armPose
    let s := arms.foldl (fun t p => t.writeRows (t.rowsFor arms p) p.arm) s
    (s.updSep fun x => { x with rowsDone := true }).unitEnd 0x49

/-- SEP_ROWS_END (R284, R285). -/
def execSepRowsEnd (s : State) : Out := .next s.rowsEnd

/-- The handover limit of the period has come. -/
def State.handLimit (s : State) : Bool := decide (s.sep.start * 8 + s.periodNs ≤ s.tick * 8 + 30000)

/-- The effect of SEP_GEOM_FAIL: the period is abandoned. -/
def State.geomFailed (s : State) : State :=
  if !s.sepOn || s.sep.protDone || s.sep.geomFail || !s.handLimit then s
  else
    let s := (List.range 8).foldl (fun t a =>
      let c := t.gr2 (t.sepOut + 4 * a + 2)
      (t.grPut (t.sepOut + 32 + a) 0).grPut (t.sepOut + 4 * a + 2) (withBits c 15 0 0)) s
    let s := s.sepArms.foldl (fun t a => t.writeRows [] a) s
    let s := (s.setBit R.SEP_STAT_GEOM_FAIL 0 true).post Ev.sepGeomFail .fault
    (s.updSep fun x => { x with geomFail := true }).phasesEnd 4

/-- SEP_GEOM_FAIL (R286). -/
def execSepGeomFail (s : State) : Out := .next s.geomFailed

/-! ### The period boundary -/

/-- The latch of arm `g` (8 for the global pairs) clears: its event is acknowledged and the last 8 periods were good
(R291). -/
def State.bvClear (s : State) (g : Nat) : State :=
  let code := Tab.get (fun _ => 0) s.sep.lastCode g
  let inst := if code = Ev.sepBvMissed then noInst else g
  if hasBit s.sio.bvLatch g && s.acked code inst && decide (Tab.get (fun _ => 0) s.sep.lastBad g + 8 < s.sep.period) then
    s.updSio fun x => { x with bvLatch := clrBit x.bvLatch g }
  else s

/-- A slot-bound joint whose record, not a prediction, differs in its count from the low ST_BITS bits of the word in the slot's held buffer
(R290): the joint, the count and those bits. -/
def State.rawWord (s : State) (n : Nat) : Option (Nat × Nat × Nat) :=
  if s.get R.FB_CFG_KIND n ≠ 1 ∨ !s.bit R.FB_CFG_TL_EN n ∨ s.bit R.FB_QUAL_PREDICTED n then none
  else
    let v := beField (s.heldView (s.get R.FB_CFG_SRC n)) (s.get R.FB_SERIAL_BYTE_OFF n) ((s.get R.FB_SERIAL_RAW_BITS n + 7) / 8)
    let low := s.serialWord n v % 2 ^ s.get R.FB_SERIAL_ST_BITS n
    let count := ({ s with regs := s.frozen } : State).get R.FB_POS_LO n
    if count = low then none else some (s.get R.FB_CFG_TILLER n, count, low)

/-- A new solver period of the separation function (R271): inputs are held, and the publication of the last period, just
swapped into force, appears in ARM_STAT. -/
def State.sepBoundary (s : State) : State :=
  if !s.bit R.SEP_CFG_EN || !s.running then s.updSep fun x => { x with active := false }
  else
    let s := s.updSep fun x =>
      { x with active := true, period := if x.active then x.period + 1 else 0, start := s.tick, protDone := false,
               rowsDone := false, geomFail := false, given := [], givenTick := none, faults := [], raw := (List.range 64).filterMap s.rawWord, bvPosed := false, bvDone := false,
               bvMissed := false,
               payload := s.sepArms.foldl (fun t a => Tab.put (fun _ => 0) t a (s.gr1 (s.sepBits (armAt a + 5) 20 0))) x.payload }
    let s := s.scanners.foldl State.holdScan s
    let s := (List.range 9).foldl State.bvClear s
    (List.range 8).foldl (fun t a =>
      let w := fun (k : Nat) => (t.gr1 (t.sepOut + 4 * a + k))
      let t := (t.set R.SEP_ARM_STAT_A a (w 0).toNat).set R.SEP_ARM_STAT_B a (w 1).toNat
      let c := fun (t : State) (f : Field) => t.set f a (bitsOf (w 2) f.hi f.lo)
      let t := c (c (c t R.SEP_ARM_STAT_C_KMAX) R.SEP_ARM_STAT_C_OBSTACLE) R.SEP_ARM_STAT_C_DECISION
      let t := c (c (c t R.SEP_ARM_STAT_C_CATEGORY) R.SEP_ARM_STAT_C_TABLE_RANGE) R.SEP_ARM_STAT_C_ZONE
      t.set R.SEP_ARM_STAT_D a (w 3).toNat) s

end Sys2Proof.Machine
end

