-- ==== Sys2Proof/Machine/Belvedere.lean ====
section
/-! DEFINITION. Belvedere, the second channel of the separation function: its own integer arithmetic, its checks, and its requests (R287 to
R293). -/
namespace Sys2Proof.Machine

/-- BV_POSE_START (R273): 20 µs after the boundary. -/
def State.bvPose (s : State) : State :=
  if s.sepOn && !s.sep.bvPosed && decide (s.sep.start + 2500 ≤ s.tick) then s.updSep fun x => { x with bvPosed := true } else s

/-- BV_POSE_START (R273). -/
def execBvPoseStart (s : State) : Out := .next s.bvPose

/-- Belvedere's latch asserts the pair of arm `g`. -/
def State.bvAssert (s : State) (g : Nat) : State :=
  let s := (s.updSio fun x => { x with bvLatch := orBit x.bvLatch g }).updSep fun x => { x with delay := Tab.put (fun _ => none) x.delay g none }
  let s := s.assertGroup 3 g
  if s.sep.globalDelay then
    let s := (s.updSio fun x => { x with bvLatch := orBit x.bvLatch 8 }).updSep fun x => { x with globalDelay := false }
    (s.assertPair 3 8).assertPair 3 9
  else s

/-- Start BV_DELAY for arm `g`; a delay of 0 asserts at once. -/
def State.bvStart (s : State) (code g : Nat) : State :=
  let s := s.updSep fun x =>
    { x with lastBad := Tab.put (fun _ => 0) x.lastBad g x.period, lastCode := Tab.put (fun _ => 0) x.lastCode g code }
  if s.get R.SEP_BV_CFG_BV_DELAY = 0 then s.bvAssert g
  else s.updSep fun x => { x with delay := Tab.upd (fun _ => none) x.delay g fun d => some (d.getD s.tick) }

/-- Q8.24 m in µm. -/
def micro (v : Int) : Rat := (v : Rat) * 1000000 / 2 ^ 24

/-- A failed check: its number, the obstacle or joint, and both values. -/
structure BvBad where
  check : Nat
  which : Nat
  a : Int
  b : Int
  deriving DecidableEq, Repr

/-! ### Belvedere's arithmetic (R288) -/

/-- Metres in µm, rounded toward 0. -/
def microOf (v : Rat) : Int := if v < 0 then -(-v * 1000000).floor else (v * 1000000).floor

/-- A point in whole µm, as rationals. -/
def V3.micro (p : V3) : V3 := { x := microOf p.x, y := microOf p.y, z := microOf p.z }

/-- An endpoint of an obstacle in the cell frame in whole µm, from its place in the payload of scanner `i`. -/
def State.bvEndpoint (s : State) (i p : Nat) : V3 :=
  let e := (List.range 3).map fun k => signed 16 (beField (s.scan i).buf (p + 2 * k) 2)
  let v := fun (r : Nat) =>
    let dot := ((List.range 3).map fun k => (s.sepW (scanAt i + 5 + 4 * r + k)).toInt * e.getD k 0).sum
    ((dot : Rat) / 64000 + (s.sepW (scanAt i + 8 + 4 * r)).toInt) / 2 ^ 24
  V3.micro { x := v 0, y := v 1, z := v 2 }

/-- A pair as Belvedere sees it: its capsule, the difference of the closest points and its square (µm), the point on the robot (µm), and
the surface distance (µm). -/
structure BvNear where
  cap : RobotCap
  diff : V3
  sq : Rat
  p : V3
  d : Int

/-- Belvedere's pair of a capsule and an obstacle: the second segment's parameter is clamped first. -/
def State.bvNear (s : State) (c : RobotCap) (o : Obst) : BvNear :=
  let at' := 8 + 16 * (o.idx - s.obstBase o.scanner)
  let e1 := s.bvEndpoint o.scanner at'
  let e2 := s.bvEndpoint o.scanner (at' + 6)
  let ts := closest e1 e2 c.e1.micro c.e2.micro
  let p := between c.e1.micro c.e2.micro ts.2
  let diff := (between e1 e2 ts.1).sub p
  let sq := diff.dot diff
  { cap := c, diff := diff, sq := sq, p := p, d := max 0 ((floorRoot sq.floor.toNat : Int) - microOf (q24 c.rad) - o.radius * 1000) }

/-- Belvedere's directed speed of a pair in mm/s, rounded half up. -/
def ArmPose.bvSpeed (p : ArmPose) (n : BvNear) : Int :=
  let w := V3.sum (p.v.zip (jacobian p.chain n.cap.link (n.p.mul (1 / 1000000))))
  if floorRoot n.sq.floor.toNat = 0 then roundRoot 0 (1000000 * w.dot w) else max 0 (roundOver 0 (1000 * n.diff.dot w) n.sq)

/-- Belvedere's s_p in µm: speeds in mm/s, times in µs rounded up, the sum rounded up (R288; DEDUCED, log 140). -/
def State.bvProt (s : State) (a : Nat) (o : Obst) (spd : Rat) (vr : Int) : Int :=
  let sc := scanAt o.scanner
  let ttot := (s.sepQ (sc + 1) + s.sepQ (armAt a + 1)) * 1000000 + ((s.scan o.scanner).ageNs + s.periodNs + s.cycleNs : Nat) / 1000
  let t := (s.stopTable a spd).1
  let vo : Int := roundRat (s.classSpeed o.cls * 1000)
  let run := (vo * (ttot + t.1 * 1000000).ceil + vr * ttot.ceil : Int)
  ((run : Rat) / 1000 + (t.2 + s.sepQ (sc + 2) + s.sepQ (sc + 3) + s.sepQ (armAt a + 2)) * 1000000).ceil

/-- The least of Belvedere's pairs, taken in descending order of capsules. -/
def leastBv : List BvNear → Option BvNear
  | [] => none
  | n :: rest => some (rest.foldl (fun m k => if k.d < m.d then k else m) n)

/-- What Belvedere finds for one arm: d and s_p of nominated obstacles, the margins of swept pairs, its stop table exceeded, and the joint
whose raw word differs. -/
structure BvArm where
  nom : List (Nat × Int × Int)
  swept : List (Nat × Int)
  beyond : Bool
  raw : Option (Nat × Nat × Nat)

/-- Belvedere's results for arm `h.arm` (R288 to R290): in period w the sweep takes the pairs whose index is congruent to w. -/
def State.bvResults (s : State) (h : Nomin) : BvArm :=
  let p := s.armPose h.arm
  let obs := s.obstacles
  let spd := s.speedIndex h.arm p.v
  let caps := p.caps.reverse
  let shl := 2 ^ s.get R.SEP_CFG_SWEEP_SHL
  { nom := h.nom.filterMap fun k => (obs.find? fun o => o.idx == k.1).bind fun o =>
      (leastBv (caps.map fun c => s.bvNear c o)).map fun n => (k.1, n.d, s.bvProt h.arm o spd (p.bvSpeed n))
    swept := p.caps.flatMap fun c =>
      (obs.filter fun o => decide ((c.idx * s.get R.SEP_CFG_NOC_MAX + o.idx) % shl = s.sep.period % shl)).map fun o =>
        let n := s.bvNear c o
        (o.idx, n.d - s.bvProt h.arm o spd (p.bvSpeed n))
    beyond := (s.stopTable h.arm spd).2
    raw := s.sep.raw.find? fun r => (s.groupTillers h.arm).contains r.1 }

/-! ### Checks and requests (R290 to R293) -/

/-- The failed checks of R290 for one arm, in table order. -/
def State.bvChecks (s : State) (h : Nomin) (m : BvArm) : List BvBad :=
  let tol : Rat := s.get R.SEP_BV_CFG_DIST_TOL
  let pairs := m.nom.filterMap fun n => (h.nom.find? fun k => k.1 == n.1).map fun k => (k, n)
  let least := (m.nom.map fun n => n.2.1 - n.2.2).foldl min (2 ^ 40)
  let own := m.beyond || m.nom.any fun n => decide (n.2.1 < n.2.2)
  let near := decide (ratAbs (micro h.least) ≤ tol) || decide (ratAbs least ≤ tol)
  (pairs.filterMap fun p => if tol < ratAbs (micro p.1.2.1 - p.2.2.1) then some ⟨1, p.2.1, p.1.2.1, p.2.2.1⟩ else none)
    ++ (pairs.filterMap fun p => if tol < ratAbs (micro p.1.2.2 - p.2.2.2) then some ⟨2, p.2.1, p.1.2.2, p.2.2.2⟩ else none)
    ++ (if h.stop != own && !near then [⟨3, 0xFFFF, if h.stop then 1 else 0, if own then 1 else 0⟩] else [])
    ++ (if h.nom.isEmpty then [] else m.swept.filterMap fun w =>
          if (w.2 : Rat) < micro h.mnom - tol ∧ !(h.nom.any fun k => k.1 == w.1) then some ⟨4, w.1, h.mnom, w.2⟩ else none)
    ++ (match m.raw with | some r => [⟨5, r.1, r.2.1, r.2.2⟩] | none => [])

/-- Belvedere's verdict on arm `h.arm` (R290, R291). -/
def State.bvArm (s : State) (h : Nomin) (m : BvArm) : State :=
  let a := h.arm
  let r := s.inject (934 + a) a
  let s := r.2
  let bad : Option BvBad := match r.1 with
    | some ps => some { check := param ps 0, which := 0xFFFF, a := 0, b := 0 }
    | none => (s.bvChecks h m).head?
  let own := m.beyond || m.nom.any fun n => decide (n.2.1 < n.2.2)
  let margins := (m.nom.map fun n => n.2.1 - n.2.2) ++ m.swept.map fun w => w.2
  let least := match margins with | [] => Config.sepNone 3 | v :: t => BitVec.ofInt 32 (t.foldl min v)
  let s := s.updSep fun x => { x with bvMargin := Tab.put (fun _ => 0) x.bvMargin a least }
  match bad with
  | some b =>
    let s := (s.inc R.SEP_COUNT_DISAGREE).post Ev.sepBvDisagree .fault (some a)
      [item b.check, item b.which, BitVec.ofInt 32 b.a, BitVec.ofInt 32 b.b] true r.1.isSome
    let s := s.updSep fun x => { x with lastCheck := b.check }
    (s.fault (2 ^ a) .ss1 Ev.sepBvDisagree (some a)).bvStart Ev.sepBvDisagree a
  | none =>
    if own && !h.stop then
      let cat := s.sepBits (armAt a) 1 0
      s.fault (2 ^ a) (if cat = 1 then .ss2 else if cat = 2 then .ss1 else .sto) Ev.sepProtect (some a)
    else s

/-- The completion limit of the period has come. -/
def State.bvLimit (s : State) : Bool := decide (s.sep.start * 8 + s.periodNs ≤ s.tick * 8 + 10000)

/-- The effect of BV_COMPARISON: at the later of the end of the sweep and the handover. -/
def State.bvCompare (s : State) : State :=
  if !s.sepOn || !s.sep.bvPosed || s.sep.bvDone || s.sep.bvMissed || s.sep.givenTick.isNone || s.bvLimit then s
  else
    let s := s.updSep fun x => { x with bvDone := true }
    s.sep.given.foldl (fun t h => t.bvArm h (s.bvResults h)) s

/-- BV_COMPARISON (R290). -/
def execBvComparison (s : State) : Out := .next s.bvCompare

/-- A missed comparison (R292). -/
def State.bvMiss (s : State) (injected : Bool) : State :=
  let s := (s.inc R.SEP_COUNT_MISSED).post Ev.sepBvMissed .fault none [] true injected
  let s := (s.fault s.sepMask .ss1 Ev.sepBvMissed).updSep fun x =>
    { x with bvMissed := true, lastCheck := 6,
             globalDelay := x.globalDelay || s.bit R.SEP_CFG_BV_GLOBAL,
             lastBad := Tab.put (fun _ => 0) x.lastBad 8 x.period, lastCode := Tab.put (fun _ => 0) x.lastCode 8 Ev.sepBvMissed }
  s.sepArms.foldl (fun t g => t.bvStart Ev.sepBvMissed g) s

/-- The effect of SEP_BV_MISSED: at the handover limit, or the completion limit. -/
def State.bvMissTest (s : State) : State :=
  if !s.sepOn || s.sep.bvMissed || !(s.handLimit || s.sep.geomFail) then s
  else
    let late := (s.handLimit && s.sep.givenTick.isNone) || s.sep.geomFail || (s.bvLimit && !s.sep.bvDone)
    s.detect 942 noInst late fun inj s => s.bvMiss inj

/-- SEP_BV_MISSED (R292). -/
def execSepBvMissed (s : State) : Out := .next s.bvMissTest

/-- The effect of BV_DELAY_EXPIRY. -/
def State.bvExpiry (s : State) (g : Nat) : State :=
  match Tab.get (fun _ => (none : Option Nat)) s.sep.delay g with
  | some t => if t + s.get R.SEP_BV_CFG_BV_DELAY * 125000 ≤ s.tick then s.bvAssert g else s
  | none => s

/-- BV_DELAY_EXPIRY (R291). -/
def execBvDelayExpiry (g : Fin 8) (s : State) : Out := .next (s.bvExpiry g)

/-- Belvedere takes the start of an SS1 from the escalation wires (R293). -/
def State.bvWatch (s : State) (g : Nat) : State :=
  if s.bit R.SEP_CFG_EN && hasBit s.sepMask g && s.groupMoves g then
    s.updSep fun x => { x with ss1 := Tab.upd (fun _ => none) x.ss1 g fun t => some (t.getD s.tick) }
  else s

/-- The effect of SEP_BV_SS1. -/
def State.bvSs1 (s : State) (g : Nat) : State :=
  match Tab.get (fun _ => (none : Option Nat)) s.sep.ss1 g with
  | none => s
  | some t =>
    if t + s.ss1Ticks g + s.get R.SEP_RR_CFG_BV_SS1_GRACE * 125000 ≤ s.tick then
      let s := s.updSep fun x =>
        { x with ss1 := Tab.put (fun _ => none) x.ss1 g none, lastBad := Tab.put (fun _ => 0) x.lastBad g x.period,
                 lastCode := Tab.put (fun _ => 0) x.lastCode g Ev.sepBvSs1 }
      (s.post Ev.sepBvSs1 .fault (some g)).bvAssert g
    else s

/-- SEP_BV_SS1 (R293). -/
def execSepBvSs1 (g : Fin 8) (s : State) : Out := .next (s.bvSs1 g)

/-- BV_STAT as Belvedere writes it at its completion limit. -/
def State.bvStatus (s : State) : State :=
  if s.sepOn && s.bvLimit && decide (s.tick * 8 + 10000 < s.sep.start * 8 + s.periodNs + 8) then
    ((s.set R.SEP_BV_STAT_STO_REQ 0 (s.sio.bvLatch % 256)).set R.SEP_BV_STAT_LAST_CHECK 0 s.sep.lastCheck).set
      R.SEP_BV_STAT_SWEEP_SLICE 0 (s.sep.period % 2 ^ s.get R.SEP_CFG_SWEEP_SHL)
  else s

end Sys2Proof.Machine
end

