-- ==== Sys2Proof/Machine/MeScan.lean ====
section
/-! DEFINITION. Move-engine programs as stored: the instruction words (R318), the address map of a channel (R316), and what a
program touches. -/
namespace Sys2Proof.Machine

/-! ### Slots and partners in use -/

/-- The slots in use: DIR of their entry is not 0. -/
def State.slotsUsed (s : State) : List Nat :=
  s.regs.cb.filterMap fun e =>
    if R.CB_SL_A_DIR.base ≤ e.1 ∧ e.1 < R.CB_SL_A_DIR.base + 65536 ∧ e.1 % 8 = 0 ∧ bitsOf e.2 20 19 ≠ 0 then
      some ((e.1 - R.CB_SL_A_DIR.base) / 8)
    else none

/-- The partner entries in use: POSITION is not 0. -/
def State.partnersUsed (s : State) : List Nat :=
  s.regs.cb.filterMap fun e =>
    if R.CB_PT_CFG_POSITION.base ≤ e.1 ∧ e.1 < R.CB_PT_CFG_POSITION.base + 32768 ∧ e.1 % 32 = R.CB_PT_CFG_POSITION.base % 32
        ∧ bitsOf e.2 27 18 ≠ 0 then
      some ((e.1 - R.CB_PT_CFG_POSITION.base) / 32)
    else none

/-- Change slot `i`. -/
def State.updSlot (s : State) (i : Nat) (f : Slot → Slot) : State :=
  { s with cb := { s.cb with slot := Tab.upd (fun _ => {}) s.cb.slot i f } }

/-- The payload length of slot `i`. -/
def State.slotLen (s : State) (i : Nat) : Nat := s.get R.CB_LAYOUT_LENGTH (s.get R.CB_SL_B_LAYOUT i)

/-- Slot `i` is due in cycle `n` (R105). -/
def State.slotDue (s : State) (i n : Nat) : Bool :=
  decide (n % 2 ^ s.get R.CB_SL_B_DIV i = s.get R.CB_SL_B_PHASE i)

/-- The state of partner `p` (1 ABSENT, 2 JOINING, 3 ACTIVE, 4 QUARANTINED). -/
def State.ptState (s : State) (p : Nat) : Nat := s.get R.CB_PT_STATE_STATE p

/-- The partner at a position of a port. -/
def State.partnerAt (s : State) (port pos : Nat) : Option Nat :=
  s.partnersUsed.find? fun p => decide (s.get R.CB_PT_CFG_PORT p = port) && decide (s.get R.CB_PT_CFG_POSITION p = pos)

/-! ### Addresses of a channel (R316) -/

/-- Where a byte address of a channel lies: a byte of a slot, of a Granary word, of a Tiller's X, or of FBIN. -/
inductive MeLoc where
  | slot (i off : Nat)
  | granary (w byte : Nat)
  | tlx (n w byte : Nat)
  | fbin (n off : Nat)
  | unmapped
  deriving DecidableEq, Repr

/-- The place of a byte address. -/
def State.meLoc (s : State) (a : Nat) : MeLoc :=
  if a < 0x1000000 then (if a % 0x800 < s.slotLen (a / 0x800) then .slot (a / 0x800) (a % 0x800) else .unmapped)
  else if a < 0x1000000 + 4 * granaryWords then .granary ((a - 0x1000000) / 4) (a % 4)
  else if 0x2000000 ≤ a ∧ a < 0x2020000 then .tlx ((a - 0x2000000) / 0x800) (a % 0x800 / 4) (a % 4)
  else if 0x2040000 ≤ a ∧ a < 0x2040400 ∧ a % 16 < 8 then .fbin ((a - 0x2040000) / 16) (a % 16)
  else .unmapped

/-! ### Instruction words (R318) -/

/-- A decoded program instruction: a MOVE, a LOOP, a WAIT or a SIGNAL. -/
inductive MeInsn where
  | move (mode : Nat) (m : MoveOp)
  | loop (target count : Nat)
  | wait (kind num index off : Nat)
  | signal (kind index : Nat)
  | bad
  deriving DecidableEq, Repr

/-- Program word `w`. -/
def State.meWord (s : State) (w : Nat) : Word := s.regs.word .me (R.ME_PROG.addr w)

/-- The instruction at program word `w`, with its length in words. -/
def State.meInsn (s : State) (w : Nat) : MeInsn × Nat :=
  let x := s.meWord w
  let b := fun (hi lo : Nat) => bitsOf x hi lo
  let half := fun (k hi lo : Nat) => BitVec.ofNat 16 (bitsOf (s.meWord (w + k)) hi lo)
  match b 31 28 with
  | 1 =>
    (.move (b 27 26)
      { barrier := hasBit (b 25 25) 0, swap := hasBit (b 24 24) 0, esize := BitVec.ofNat 2 (b 23 22),
        streams := BitVec.ofNat 6 (b 21 16), count := BitVec.ofNat 8 (b 15 8), cond := hasBit (b 7 7) 0,
        src := s.meWord (w + 1), dst := s.meWord (w + 2), sstr := half 3 15 0, dstr := half 3 31 16, sest := half 4 15 0,
        dest := half 4 31 16 }, 5)
  | 2 => (.loop (b 27 16) (b 15 0), 1)
  | 3 => (.wait (b 27 25) (b 18 13 + 1) (b 12 0) (bitsOf (s.meWord (w + 1)) 16 0), if b 27 25 = 2 then 2 else 1)
  | 4 => (.signal (b 27 25) (b 12 0), 1)
  | _ => (.bad, 1)

/-- The instructions of a program from word `w` in their order, with their addresses, up to its SIGNAL DONE or, of a cyclic
channel, its WAIT BOUNDARY (R321). -/
def State.meWalk (s : State) (cyc : Bool) : Nat → Nat → List (Nat × MeInsn)
  | 0, _ => []
  | n + 1, w =>
    if 4096 ≤ w then []
    else
      let i := s.meInsn w
      match i.1 with
      | .bad => []
      | .wait 3 _ _ _ => (w, i.1) :: (if cyc then [] else State.meWalk s cyc n (w + i.2))
      | .signal 3 _ => [(w, i.1)]
      | _ => (w, i.1) :: State.meWalk s cyc n (w + i.2)

/-- The program of channel `c`. -/
def State.meProgram (s : State) (c : Nat) : List (Nat × MeInsn) := s.meWalk (s.bit R.ME_CFG_CYCLIC c) 4096 (s.get R.ME_CFG_PROG_START c)

/-- Streams of a MOVE. -/
def mvS (m : MoveOp) : Nat := m.streams.toNat + 1

/-- Elements of each stream of a MOVE. -/
def mvK (m : MoveOp) : Nat := m.count.toNat + 1

/-- Bytes of an element of a MOVE. -/
def mvBytes (m : MoveOp) : Nat := 2 ^ m.esize.toNat

/-- The source address of element (s, k) of a COPY. -/
def mvSrc (m : MoveOp) (i k : Nat) : Nat := m.src.toNat + i * m.sstr.toNat + k * m.sest.toNat

/-- The destination address of element (s, k) of a COPY. -/
def mvDst (m : MoveOp) (i k : Nat) : Nat := m.dst.toNat + i * m.dstr.toNat + k * m.dest.toNat

/-- The elements of a MOVE in the order of R319. -/
def mvElems (m : MoveOp) : List (Nat × Nat) :=
  (List.range (mvS m)).flatMap fun i => (List.range (mvK m)).map fun k => (i, k)

/-- The channel bound to slot `i`. -/
def State.slotMe (s : State) (i : Nat) : Option Nat := if s.bit R.CB_SL_B_ME_BIND i then some (s.get R.CB_SL_B_ME i) else none

/-- The command words that the channel bound to slot `i` gathers into it: the Tiller whose CMD_ADDR is moved, the byte of
the payload where the word starts, and whether its bytes are reversed on the way. -/
def State.slotCommands (s : State) (i : Nat) : List (Nat × Nat × Bool) :=
  match s.slotMe i with
  | none => []
  | some c =>
    (s.meProgram c).flatMap fun e =>
      match e.2 with
      | .move 0 m =>
        (mvElems m).filterMap fun p =>
          match s.meLoc (mvSrc m p.1 p.2), s.meLoc (mvDst m p.1 p.2) with
          | .tlx n w 0, .slot j off =>
            if j = i ∧ mvBytes m = 4 ∧ s.bit R.TL_CFG_EN n ∧ s.get R.TL_XADDR_A_CMD_ADDR n = w then some (n, off, m.swap) else none
          | _, _ => none
      | _ => []

/-- The joints of slot `i`: those its channels feed, and those whose command it carries. -/
def State.slotJoints (s : State) (i : Nat) : List Nat :=
  ((s.slotChans i).filter fun n => s.bit R.FB_CFG_TL_EN n).map (fun n => s.get R.FB_CFG_TILLER n)
    ++ (s.slotCommands i).map fun c => c.1

/-- A to-partner slot in use that carries joint commands. -/
def State.isCommandSlot (s : State) (i : Nat) : Bool := decide (s.get R.CB_SL_A_DIR i = 1) && !(s.slotCommands i).isEmpty

/-- The mask of the arm groups of a list of joints. -/
def State.jointsMask (s : State) (l : List Nat) : Nat := l.foldl (fun m n => m ||| s.groupMaskOf n) 0

/-- The joints that the program of channel `c` touches, by slot, by Tiller or by FBIN (R332). -/
def State.meJoints (s : State) (c : Nat) : List Nat :=
  let touch := fun (a : Nat) => match s.meLoc a with
    | .slot i _ => s.slotJoints i
    | .tlx n _ _ => [n]
    | .fbin n _ => if s.bit R.FB_CFG_TL_EN n then [s.get R.FB_CFG_TILLER n] else []
    | _ => []
  (s.meProgram c).flatMap fun e =>
    match e.2 with
    | .move _ m => (mvElems m).flatMap fun p => touch (mvSrc m p.1 p.2) ++ touch (mvDst m p.1 p.2)
    | .wait 0 num i _ => (List.range num).flatMap fun k => s.slotJoints (i + k)
    | .wait 1 num i _ => (List.range num).map fun k => i + k
    | .signal 0 i => s.slotJoints i
    | _ => []

end Sys2Proof.Machine
end

