-- ==== Sys2Proof/Machine/TwinCore.lean ====
section
/-! DEFINITION. Twin states and the epoch rule, as far as other units need them (R363, R365, R368). -/
namespace Sys2Proof.Machine

/-- The twin state. -/
def State.twState (s : State) : Nat := s.get R.TW_STATE_STATE

/-- Epoch `a` is newer than `b` (R365). -/
def newerEpoch (a b : Nat) : Bool :=
  let d := (a + 65536 - b % 65536) % 65536
  decide (1 ≤ d ∧ d ≤ 32767)

/-- The successor of an epoch. -/
def nextEpoch (e : Nat) : Nat := if e = 65535 then 1 else e + 1

/-- Take an epoch: it is the current one and is stored in the Orangery (R365). -/
def State.takeEpoch (s : State) (e : Nat) : State :=
  let s := (s.set R.TW_EPOCH_EPOCH 0 e).set R.TW_EPOCH_STORED 0 e
  { s with bb := { s.bb with storedEpoch := e } }

/-- The epoch of the frames this device launches: its own as HOLDER or without a twin, its stored one otherwise (R366). -/
def State.txEpoch (s : State) : Nat :=
  if s.bit R.TW_CFG_EN && !s.holdsLease then s.get R.TW_EPOCH_STORED else s.get R.TW_EPOCH_EPOCH

/-- The TW_CMD descriptors of an open handover and of a SWITCH_BACK complete with a reason, and nothing is open any more. -/
def State.closeHandover (s : State) (reason : Nat) : State :=
  let h := s.tw.handover.bind fun x => x.desc
  let b := s.tw.backDesc
  let s := s.updTw fun t => { t with handover := none, backDesc := none }
  let s := match h with | some d => s.complete (dkey d) { reason } | none => s
  match b with | some d => s.complete (dkey d) { reason } | none => s

/-- A standby becomes FAULTED with a cause and the event to acknowledge before REPAIR. -/
def State.twFault (s : State) (cause code : Nat) (inst : Nat := noInst) : State :=
  let s := ((s.set R.TW_STATE_STATE 0 5).set R.TW_STATE_LAST_CAUSE 0 cause).closeHandover 6
  s.updTw fun t => { t with causeCode := code, causeInst := inst }

/-- The holder has seen a newer epoch: it becomes SUPERSEDED (R368). -/
def State.supersede (s : State) (injected : Bool) : State :=
  let s := (((s.set R.TW_STATE_STATE 0 6).set R.TW_STATE_LAST_CAUSE 0 7).inc R.TW_COUNT_B_SUPERSEDED).closeHandover 6
  (s.updTw fun t => { t with causeCode := Ev.twSuperseded, causeInst := noInst, released := none }).post Ev.twSuperseded .fault none [] false injected

/-- A received frame carries an epoch. -/
def State.sawEpoch (s : State) (e : Nat) : State :=
  if s.holdsLease && newerEpoch e (s.get R.TW_EPOCH_EPOCH) then s.supersede false else s

/-- This device commands the partners: it has no twin, or it holds the lease (R366). A former holder stops when its time has
run out (R373). -/
def State.commands (s : State) : Bool := !s.notHolder

end Sys2Proof.Machine
end

