-- ==== Sys2Proof/Machine/Links.lean ====
section
/-! DEFINITION. Ports CB0 to CB3 and TW0, TW1: link states and MACsec (chapter 03). Ports 4 and 5 are TW0 and TW1. -/
namespace Sys2Proof.Machine

/-- Port `p`. -/
def State.port (s : State) (p : Nat) : Port := Tab.get (fun _ => {}) s.cb.port p

/-- Change port `p`. -/
def State.updPort (s : State) (p : Nat) (f : Port → Port) : State :=
  { s with cb := { s.cb with port := Tab.upd (fun _ => {}) s.cb.port p f } }

/-- Partner `p` beside its registers. -/
def State.part (s : State) (p : Nat) : Partner := Tab.get (fun _ => {}) s.cb.partner p

/-- Change partner `p`. -/
def State.updPart (s : State) (p : Nat) (f : Partner → Partner) : State :=
  { s with cb := { s.cb with partner := Tab.upd (fun _ => {}) s.cb.partner p f } }

/-- MODE of a port. -/
def State.portMode (s : State) (p : Nat) : Nat := if p < 4 then s.get R.CB_PORT_CFG_MODE p else s.get R.TW_PORT_CFG_MODE (p - 4)

/-- MACSEC_REQ of a port. -/
def State.macsec (s : State) (p : Nat) : Bool := if p < 4 then s.bit R.CB_PORT_CFG_MACSEC_REQ p else s.bit R.TW_PORT_CFG_MACSEC_REQ (p - 4)

/-- The link state of a port. -/
def State.link (s : State) (p : Nat) : Nat := if p < 4 then s.get R.CB_LINK_STATE_STATE p else s.get R.TW_LINK_STATE_STATE (p - 4)

/-- Set the link state of a port. -/
def State.setLink (s : State) (p v : Nat) : State :=
  if p < 4 then s.set R.CB_LINK_STATE_STATE p v else s.set R.TW_LINK_STATE_STATE (p - 4) v

/-- A port is UP. -/
def State.up (s : State) (p : Nat) : Bool := decide (s.link p = 3)

/-- A port is held off by MODE 0 or TX_DISABLE. -/
def State.portOff (s : State) (p : Nat) : Bool := decide (s.portMode p = 0) || (decide (p < 4) && s.bit R.CB_LINK_CTRL_TX_DISABLE p)

/-- The partners on a port. -/
def State.portPartners (s : State) (p : Nat) : List Nat := s.partnersUsed.filter fun q => decide (s.get R.CB_PT_CFG_PORT q = p)

/-- The base MAC address of this device, octet 0 in its top bits (R75). -/
def State.devMac (s : State) : Nat := s.get R.CB_DEV_MAC_HI_OCTETS_0_1 * 2 ^ 32 + s.get R.CB_DEV_MAC_LO

/-- The MAC address of port `p`: the base plus 0 to 3 for CB0 to CB3, 4 and 5 for TW0 and TW1, 6 for the management port (R75). -/
def State.portMac (s : State) (p : Nat) : Nat := s.devMac + p

/-- The MAC address of partner `q`. -/
def State.partnerMac (s : State) (q : Nat) : Nat := s.get R.CB_PT_CFG_OCTETS_0_1 q * 2 ^ 32 + s.get R.CB_PT_MAC_LO q

/-- The group address, of frames to every partner on a port. -/
def State.groupMac (s : State) : Nat := s.get R.CB_GROUP_MAC_HI_OCTETS_0_1 * 2 ^ 32 + s.get R.CB_GROUP_MAC_LO

/-- The wire bytes of a frame with a payload of `len` bytes on port `p` (R479). -/
def State.wireBytes (s : State) (p len : Nat) : Nat := if s.macsec p then max len 2 + 82 else max len 26 + 58

/-- Wire bytes in time-base ticks, rounded up. -/
def State.wireTicks (s : State) (p bytes : Nat) : Nat := if s.portMode p = 3 then bytes else (bytes + 9) / 10

/-- The bytes of a frame from destination address to FCS beside its payload and pad: a twin message has no Ryfoid header. -/
def State.frameOver (s : State) (p : Nat) : Nat := (if p < 4 then 38 else 18) + if s.macsec p then 24 else 0

/-- The ticks from the launch of a frame to the end of its FCS: the preamble and SFD go out before the destination address. -/
def State.sendTicks (s : State) (p : Nat) (f : TxFrame) : Nat := s.wireTicks p (8 + s.frameOver p + f.payload.length + f.pad)

/-- Header bytes 0 to 15 of a launched frame in network byte order (R81): VER 1, FROM_DEVICE, DEVICE_B at twin position B. -/
def TxFrame.head (f : TxFrame) (devB : Bool) : List Byte :=
  beBytes 1 (0x10 + f.ftype) ++ beBytes 1 (if devB then 3 else 1) ++ beBytes 2 f.slot ++ beBytes 4 f.cycle ++ beBytes 2 f.epoch
    ++ beBytes 2 f.partner ++ beBytes 4 (f.layout * 2 ^ 24 + f.payload.length)

/-- The header of a launched frame: PCRC covers bytes 0 to 15 and the payload, most significant byte first (R82). -/
def TxFrame.header (f : TxFrame) (devB : Bool) : List Byte :=
  f.head devB ++ beBytes 4 (crc32c (f.head devB ++ f.payload)).toNat

/-- This device is at twin position B; a single device is not. -/
def State.devB (s : State) : Bool := s.bit R.TW_CFG_EN && s.bit R.TW_CFG_POSITION

/-- The address that a frame goes to: a partner's, the group's, or the twin's port of the same number. -/
def State.sendTo (s : State) (p : Nat) (f : TxFrame) : Nat :=
  if 4 ≤ p then Config.twinMac + p else if f.partner < 1024 then s.partnerMac f.partner else s.groupMac

/-- A frame as port `p` forms it (R75, R80 to R82): addresses, header, and zeros up to 64 bytes from destination address to FCS. -/
def State.formFrame (s : State) (p : Nat) (f : TxFrame) : TxFrame :=
  { f with da := s.sendTo p f, sa := s.portMac p, hdr := if p < 4 then f.header s.devB else [],
           pad := 64 - (s.frameOver p + f.payload.length) }

/-! ### Link states (R76 to R78) -/

/-- What a port that has left UP sets off (R77, R78): the count, the record, and the partners of a disabled cell or the twin. -/
def State.tellDown (s : State) (p : Nat) : State :=
  if p < 4 then
    let s := s.inc R.CB_ERR_G_LINK_DOWN p
    let s := s.detect (68 + p) p true fun inj s => s.post Ev.cbLinkDown .fault (some p) [] false inj
    if s.cell = 0 then
      (s.portPartners p).foldl (fun s q => if [2, 3].contains (s.ptState q) then s.set R.CB_PT_STATE_STATE q 1 else s) s
    else s
  else
    let s := s.detect (1001 + p) (p - 4) true fun inj s => s.post Ev.twLinkDown .fault (some (p - 4)) [] false inj
    if s.twState = 3 then s.twFault 5 Ev.twLinkDown (p - 4) else s

/-- The last frame of a port when it leaves UP: one that is partly sent is truncated (R77). -/
def State.cutLast (s : State) (p : Nat) (f : TxFrame) : TxFrame := if s.tick < f.tick + s.sendTicks p f then { f with cut := true } else f

/-- A port leaves UP for state `v` (R77, R78). -/
def State.leaveUp (s : State) (p v : Nat) : State :=
  ((s.setLink p v).updPort p fun x => { x with upAll := false, last := x.last.map (s.cutLast p) }).tellDown p

/-- A port goes to a state that is not UP. -/
def State.dropTo (s : State) (p v : Nat) : State := if s.up p then s.leaveUp p v else s.setLink p v

/-- A new attempt to bring a port up: training in MODE 1, auto-negotiation in MODE 3, waiting for lock in MODE 2. -/
def State.trainPort (s : State) (p : Nat) : State :=
  let s := s.dropTo p (if s.portMode p = 2 then 1 else 2)
  s.updPort p fun x => { x with held := false, retryAt := none, trainStart := if s.portMode p = 1 then some s.tick else none }

/-- MODE or TX_DISABLE of a port was written. -/
def State.portConf (s : State) (p : Nat) : State :=
  if s.portOff p then (s.dropTo p 0).updPort p fun x => { x with held := false, trainStart := none, retryAt := none }
  else if s.link p = 0 then s.trainPort p
  else s

/-- The effect of LINK_UP: the conditions have held for 1 ms. -/
def State.linkUp (s : State) (p : Nat) : State :=
  let x := s.port p
  if s.link p = 2 ∧ x.held ∧ x.heldSince + 125000 ≤ s.tick ∧ !s.portOff p then
    (s.setLink p 3).updPort p fun x => { x with trainStart := none }
  else s

/-- LINK_UP (R76). -/
def execLinkUp (p : Fin 6) (s : State) : Out := .next (s.linkUp p)

/-- The effect of LINK_DOWN: an UP condition fails. -/
def State.linkDown (s : State) (p : Nat) : State :=
  if s.up p then (s.leaveUp p 1).updPort p fun x => { x with held := false } else s

/-- LINK_DOWN (R77). -/
def execLinkDown (p : Fin 6) (s : State) : Out := .next (s.linkDown p)

/-- The effect of TRAINING_TIMEOUT: an attempt has not completed in 500 ms. -/
def State.trainTimeout (s : State) (p : Nat) : State :=
  match (s.port p).trainStart with
  | some t =>
    if s.portMode p = 1 ∧ !(s.port p).held ∧ t + 62500000 ≤ s.tick then
      (s.setLink p 1).updPort p fun x => { x with trainStart := none, retryAt := some (s.tick + 12500000) }
    else s
  | none => s

/-- TRAINING_TIMEOUT (R76). -/
def execTrainingTimeout (p : Fin 6) (s : State) : Out := .next (s.trainTimeout p)

/-- The effect of TRAINING_RETRY: 100 ms after a failed attempt. -/
def State.trainRetry (s : State) (p : Nat) : State :=
  match (s.port p).retryAt with
  | some t => if s.portMode p = 1 ∧ t ≤ s.tick then s.trainPort p else s
  | none => s

/-- TRAINING_RETRY (R76). -/
def execTrainingRetry (p : Fin 6) (s : State) : Out := .next (s.trainRetry p)

/-- A write of RETRAIN: refused like an RWL write while the cell is enabled, without effect in MODE 0 and 2. -/
def State.retrain (s : State) (p : Nat) : State :=
  if 4 ≤ p then s
  else if s.locked then s.ignored (R.CB_LINK_CTRL_RETRAIN.addr p)
  else if s.portOff p ∨ s.portMode p = 2 then s
  else s.trainPort p

/-- LINK_RETRAIN (R78). -/
def execLinkRetrain (p : Fin 6) (s : State) : Out := .next (s.retrain p)

/-- The UP conditions of a mode (R76). -/
def State.upHolds (s : State) (p : Nat) (q : LinkPins) : Bool :=
  match s.portMode p with
  | 1 => q.lock && !q.hiBer
  | 2 => q.lock && !q.hiBer && !q.los && q.present
  | 3 => q.lock && q.anDone && !q.los && q.present
  | _ => false

/-- Show what the transceiver reports. -/
def State.showPins (s : State) (p : Nat) (q : LinkPins) : State :=
  if p < 4 then
    let s := ((s.setBit R.CB_LINK_STATE_MOD_PRESENT p (q.present && decide (s.portMode p ≠ 1))).setBit R.CB_LINK_STATE_LOS p q.los).setBit R.CB_LINK_STATE_TX_FAULT p q.txFault
    (s.setBit R.CB_LINK_STATE_BLOCK_LOCK p q.lock).setBit R.CB_LINK_STATE_HI_BER p q.hiBer
  else
    let s := ((s.setBit R.TW_LINK_STATE_MOD_PRESENT (p - 4) (q.present && decide (s.portMode p ≠ 1))).setBit R.TW_LINK_STATE_LOS (p - 4) q.los).setBit R.TW_LINK_STATE_TX_FAULT (p - 4) q.txFault
    (s.setBit R.TW_LINK_STATE_BLOCK_LOCK (p - 4) q.lock).setBit R.TW_LINK_STATE_HI_BER (p - 4) q.hiBer

/-- The effect of UP_CONDITIONS_CHANGE: the conditions begin to hold, and their 1 ms starts, or cease to hold. -/
def State.upConditions (s : State) (p : Nat) (q : LinkPins) : State :=
  let s := s.showPins p q
  if s.portOff p then s
  else if s.upHolds p q then
    if (s.port p).held then s
    else (s.dropTo p 2).updPort p fun x => { x with held := true, heldSince := s.tick, retryAt := none }
  else if (s.port p).held then (s.dropTo p 1).updPort p fun x => { x with held := false }
  else s

/-- UP_CONDITIONS_CHANGE (R76). -/
def execUpConditionsChange (p : Fin 6) (q : LinkPins) (s : State) : Out := .next (s.upConditions p q)

/-- The effect of LOCAL_REMOTE_FAULT: the port enters or leaves LOCAL_FAULT or REMOTE_FAULT while its lock holds. DESIGN CHOICE (log
106): when the fault clears with the UP conditions held all along, the port shows TRAINING until LINK_UP. -/
def State.linkFault (s : State) (p : Nat) (f : LinkFault) : State :=
  if s.portOff p || !(s.port p).held then s
  else
    match f with
    | .localFault => s.dropTo p 4
    | .remoteFault => s.dropTo p 5
    | .none => if s.link p = 4 ∨ s.link p = 5 then s.setLink p 2 else s

/-- LOCAL_REMOTE_FAULT (R76). -/
def execLocalRemoteFault (p : Fin 6) (f : LinkFault) (s : State) : Out := .next (s.linkFault p f)

/-! ### Secure associations (R86 to R89) -/

/-- A receive SA of a port. -/
def Port.rxSa (x : Port) (an : Nat) : Sa := Tab.get (fun _ => {}) x.rx an

/-- A transmit SA of a port. -/
def Port.txSa (x : Port) (an : Nat) : Sa := Tab.get (fun _ => {}) x.tx an

/-- A table of SAs with a new one; of two others the one that `keep` does not name leaves. -/
def putSa (t : Tab Sa) (an : Nat) (key : Nat) (keep : Option Nat) : Tab Sa :=
  let others := t.filter fun e => !(e.1 == an)
  let others := if 2 ≤ others.length then others.filter fun e => some e.1 == keep else others
  Tab.put (fun _ => {}) (others.map fun e => (e.1, { e.2 with newest := false })) an { valid := true, key := key, newest := true }

/-- Show the MACsec status of a CB port. -/
def State.showSas (s : State) (p : Nat) : State :=
  if 4 ≤ p then s
  else
    let x := s.port p
    let high := (x.rx.any fun e => decide (0xC0000000 ≤ e.2.pn)) || (match x.txAn with | some a => decide (0xC0000000 ≤ (x.txSa a).pn) | none => false)
    let s := (s.set R.CB_MACSEC_STATUS_TX_AN p (x.txAn.getD 0)).set R.CB_MACSEC_STATUS_RX_AN_VALID p (maskOf ((x.rx.filter fun e => e.2.valid).map fun e => e.1))
    let s := (s.setBit R.CB_MACSEC_STATUS_TX_SA_VALID p (x.tx.any fun e => e.2.valid)).setBit R.CB_MACSEC_STATUS_PN_HIGH p high
    s.setBit R.CB_MACSEC_STATUS_PN_EXHAUSTED p x.exhausted

/-- An SA was installed on a port. -/
def State.saInstalled (s : State) (p : Nat) : State :=
  let s := if p < 4 then s.set R.CB_MACSEC_STATUS_KEY_SEQ p (s.get R.CB_MACSEC_STATUS_KEY_SEQ p + 1) else s
  s.showSas p

/-- Install a receive SA. -/
def State.installRx (s : State) (p an key : Nat) : State :=
  (s.updPort p fun x => { x with rx := putSa x.rx an key ((x.rx.find? fun e => e.2.newest).map fun e => e.1) }).saInstalled p

/-- Install a transmit SA; under `now` it is in use from the next frame, under a changeover cycle from its boundary. -/
def State.installTx (s : State) (p an key : Nat) (now : Bool) (change : Option Nat) : State :=
  (s.updPort p fun x =>
    let x := { x with tx := putSa x.tx an key x.txAn }
    if now then { x with txAn := some an, exhausted := false, change := none }
    else match change with
      | some c => { x with change := some (an, c) }
      | none => x).saInstalled p

/-- A packet number has reached 0xC000_0000 on an SA for the first time. -/
def State.pnHigh (s : State) (p : Nat) : State :=
  if p < 4 then s.detect (72 + p) p true fun inj s => s.post Ev.cbPnHigh .notice (some p) [] false inj else s

/-- A port can send: UP, and with MACsec under an SA in use that is not exhausted. -/
def State.canSend (s : State) (p : Nat) : Bool :=
  let x := s.port p
  s.up p && (!s.macsec p || (x.txAn.isSome && !x.exhausted))

/-- The transmit SA of a port has used its last packet number (R89). -/
def State.pnOut (s : State) (p : Nat) : State :=
  let s := s.updPort p fun x => { x with exhausted := true }
  if p < 4 then s.detect (76 + p) p true fun inj s => s.post Ev.cbPnExhausted .fault (some p) [] false inj else s

/-- Launch a frame on a port that can send: the port forms it, and it takes the next packet number. -/
def State.launch (s : State) (p : Nat) (f : TxFrame) : State :=
  let f := s.formFrame p f
  let s := if p < 4 then s.inc R.CB_TX_FRAMES p else s
  match s.macsec p, (s.port p).txAn with
  | true, some an =>
    let pn := ((s.port p).txSa an).pn + 1
    let first := !((s.port p).txSa an).high && decide (0xC0000000 ≤ pn)
    let s := s.updPort p fun x =>
      { x with tx := Tab.upd (fun _ => {}) x.tx an fun a => { a with pn := pn, high := a.high || first }, last := some { f with pn := pn } }
    let s := if p < 4 then s.set R.CB_TX_PN p pn else s
    let s := if first then s.pnHigh p else s
    (if pn = 0xFFFFFFFF then s.pnOut p else s).showSas p
  | _, _ => s.updPort p fun x => { x with last := some f }

/-- The effect of MACSEC_CHANGEOVER: at the boundary of its cycle the new transmit SA comes into use. -/
def State.changeover (s : State) (p : Nat) : State :=
  match (s.port p).change with
  | some (an, c) =>
    if !s.grid.cyc.isSome ∨ c ≤ s.cycle then
      (s.updPort p fun x => { x with txAn := some an, change := none, exhausted := false }).showSas p
    else s
  | none => s

/-- MACSEC_CHANGEOVER (R88). -/
def execMacsecChangeover (p : Fin 6) (s : State) : Out := .next (s.changeover p)

/-- The effect of RX_SA_RETIRE: an old receive SA whose 1,024 cycles are over leaves. -/
def State.retireRx (s : State) (p : Nat) : State :=
  (s.updPort p fun x => { x with rx := x.rx.filter fun e => match e.2.retireAt with | some t => decide (s.now < t) | none => true }).showSas p

/-- RX_SA_RETIRE (R88). -/
def execRxSaRetire (p : Fin 6) (s : State) : Out := .next (s.retireRx p)

/-- What check 3 of R83 finds. -/
inductive MacVerdict where
  | ok | unprotected | auth | replay
  deriving DecidableEq, Repr

/-- Check 3 of R83 on a frame. -/
def State.macCheck (s : State) (f : Frame) : MacVerdict :=
  if s.macsec f.port then
    if f.outer ≠ 0x88E5 then .unprotected
    else if !((s.port f.port).rxSa f.an).valid ∨ !f.tagOk ∨ !f.icvOk then .auth
    else if f.pn ≤ ((s.port f.port).rxSa f.an).pn then .replay
    else .ok
  else if f.outer = 0x88E5 then .auth
  else .ok

/-- A frame has passed check 3: its packet number is the highest accepted, and the first one under the newest SA starts the
retirement of the other (R88, R89). -/
def State.macPass (s : State) (f : Frame) : State :=
  if !s.macsec f.port then s
  else
    let p := f.port
    let sa := (s.port p).rxSa f.an
    let first := !sa.high && decide (0xC0000000 ≤ f.pn)
    let at_ := s.now + 1024 * s.cycleNs
    let s := s.updPort p fun x =>
      let rx := Tab.upd (fun _ => {}) x.rx f.an fun a => { a with pn := f.pn, high := a.high || first }
      { x with rx := if sa.newest then rx.map fun e =>
          if e.1 ≠ f.an ∧ e.2.retireAt.isNone then (e.1, { e.2 with retireAt := some at_ }) else e else rx }
    let s := if p < 4 ∧ sa.newest then s.set R.CB_RX_PN p f.pn else s
    (if first then s.pnHigh p else s).showSas p

/-! ### MACSEC_KEY (R87, R88) -/

/-- The bytes of words `i` to `j - 1` of a descriptor. -/
def Desc.bytes (d : Desc) (i j : Nat) : List Byte := ((d.words.drop i).take (j - i)).flatMap wordBytes

/-- The cycle of a changeover, when R88 accepts it: 1 to 2^31 - 1 cycles after the last completed one, its boundary at least 2 µs
ahead. -/
def State.changeCycle (s : State) (c : Nat) : Option Nat :=
  let last := s.cycle - 1
  let d := (c + (2 ^ 32 - last % 2 ^ 32)) % 2 ^ 32
  let k := last + d
  if 1 ≤ d ∧ d < 2 ^ 31 ∧ s.now + 2000 ≤ nsOf s.grid.epSec s.grid.epNs + k * s.cycleNs then some k else none

/-- The action of MACSEC_KEY with KEK = 1: the KEK enters the wedge-safe domain, once (R87). DESIGN CHOICE (log 107): a second one
installs nothing and completes with KEY_UNWRAP. -/
def State.doKek (s : State) (d : Desc) : State :=
  if s.cb.kek.isSome then s.completeDesc d { reason := 5 }
  else ({ s with cb := { s.cb with kek := some (leNat (d.bytes 7 11)) } } : State).completeDesc d { a := d.words.getD 5 0 }

/-- The action of MACSEC_KEY with KEK = 0. -/
def State.doMacsecKey (s : State) (d : Desc) : State :=
  let p := d.bits 4 2 0
  let an := d.bits 4 5 4
  match s.cb.kek.bind fun k => Config.keyUnwrap k (d.bytes 7 13) with
  | none => s.completeDesc d { reason := 5 }
  | some key =>
    let done : Done := { a := d.words.getD 5 0 }
    if hasBit (d.word 4) 3 then (s.installRx p an key).completeDesc d done
    else if !s.grid.cyc.isSome || (s.port p).txAn.isNone then (s.installTx p an key true none).completeDesc d done
    else if hasBit (d.word 4) 7 then
      match s.changeCycle (d.word 6) with
      | some c => (s.installTx p an key false (some c)).completeDesc d done
      | none => s.completeDesc d { reason := 6 }
    else (s.installTx p an key false none).completeDesc d done

/-- MACSEC_KEY with KEK = 0 (R87). -/
def execMacsecKey (d : DescId) (s : State) : Out :=
  .next (if s.mgmtDown then s else s.opAction d 0x20 6 6 0 (fun _ _ => {}) State.doMacsecKey)

/-- MACSEC_KEY with KEK = 1 (R87): the KEK is installed, in maintenance mode only. -/
def execMacsecKek (d : DescId) (s : State) : Out :=
  .next (if s.mgmtDown then s else s.opAction d 0x20 6 6 1 (fun t _ => { maint := !t.maint }) State.doKek)

end Sys2Proof.Machine
end

