-- ==== Sys2Proof/Machine/Bus.lean ====
section
/-! DEFINITION. Receiving on the Ryfoid cell bus: the checks of R83, quarantine, slots from partners, and joining (chapters 03
and 04). -/
namespace Sys2Proof.Machine

/-! ### Events of a window (R85) -/

/-- Post an event that goes out once in a window for each key. -/
def State.postKey (s : State) (key code : Nat) (inst : Nat) (items : List Word) (injected : Bool) : State :=
  if s.once.contains (key, inst) then s
  else
    let s := s.post code .notice (some inst) items false injected
    { s with once := s.once ++ [(key, inst)] }

/-- Discard a frame: count it, and post the event of that counter kind once in the window. -/
def State.discard (s : State) (f : Field) (kind code p : Nat) (items : List Word) (injected : Bool) : State :=
  (s.inc f p).postKey (code + 65536 * kind) code p items injected

/-! ### The header (R81) -/

/-- The fields of a Ryfoid header. -/
structure Hdr where
  ver : Nat
  ftype : Nat
  fromDev : Bool
  devB : Bool
  fallback : Bool
  alarm : Bool
  slot : Nat
  cycle : Nat
  epoch : Nat
  partner : Nat
  layout : Nat
  len : Nat
  pcrc : Nat
  deriving DecidableEq, Repr

/-- The header that 20 bytes spell. -/
def hdrOf (l : List Byte) : Hdr :=
  let b0 := beField l 0 1
  let fl := beField l 1 1
  let lw := beField l 12 4
  { ver := b0 / 16, ftype := b0 % 16, fromDev := hasBit fl 0, devB := hasBit fl 1, fallback := hasBit fl 2, alarm := hasBit fl 3,
    slot := beField l 2 2, cycle := beField l 4 4, epoch := beField l 8 2, partner := beField l 10 2 % 2048,
    layout := lw / 2 ^ 24, len := lw % 2048, pcrc := beField l 16 4 }

/-- A header breaks a rule marked HDR_ERR. -/
def hdrBad (h : Hdr) (f : Frame) : Bool :=
  let slotted := decide (h.ftype = 0 ∨ h.ftype = 5)
  decide (f.hdr.length ≠ 20 ∨ h.ver ≠ 1 ∨ 6 ≤ h.ftype) || (if slotted then decide (8192 ≤ h.slot) else decide (h.slot ≠ 0xFFFF))
    || decide (0x400 ≤ h.partner ∧ h.partner ≤ 0x7FE) || decide (1480 < h.len) || decide (h.len ≠ f.payload.length)

/-- A destination that a CB port takes. -/
def State.daOk (s : State) (f : Frame) : Bool :=
  decide (f.da = s.portMac f.port) || decide (f.da = s.groupMac) || decide (f.da = 2 ^ 48 - 1)

/-- A frame fails the source check (R91, R92). -/
def State.srcBad (s : State) (f : Frame) (h : Hdr) : Bool :=
  if h.fromDev then !(s.bit R.CB_PORT_CFG_TOPOLOGY f.port && decide (f.sa = Config.twinMac + f.port))
  else !(decide (h.partner < 1024) && decide (s.get R.CB_PT_CFG_POSITION h.partner ≠ 0)
    && decide (s.get R.CB_PT_CFG_PORT h.partner = f.port) && decide (s.partnerMac h.partner = f.sa))

/-! ### Quarantine (R97, R98) -/

/-- The from-partner slots of partner `q`. -/
def State.fromSlots (s : State) (q : Nat) : List Nat :=
  s.slotsUsed.filter fun i => decide (s.get R.CB_SL_A_DIR i = 2) && decide (s.get R.CB_SL_B_PARTNER i = q)

/-- The arm groups fed by partner `q`. -/
def State.partnerMask (s : State) (q : Nat) : Nat :=
  s.jointsMask ((s.fromSlots q).flatMap fun i => ((s.slotChans i).filter fun n => s.bit R.FB_CFG_TL_EN n).map fun n => s.get R.FB_CFG_TILLER n)

/-- The loss reaction on the feedback channels of partner `q`. -/
def State.partnerLoss (s : State) (q : Nat) : State := ((s.fromSlots q).flatMap s.slotChans).foldl State.loseChan s

/-- The from-partner slots of a quarantined partner that feed no joint present their substitute data from this tick on, with
FRESH_HELD = 0 (R98): what they committed in this cycle does not reach the held buffer. -/
def State.staleSlots (s : State) (q : Nat) : State :=
  ((s.fromSlots q).filter fun i => (s.slotChans i).isEmpty).foldl (fun s i =>
    s.updSlot i fun x => { x with freshNow := false, freshHeld := false }) s

/-- Quarantine partner `q` for a cause. -/
def State.quarantine (s : State) (q cause : Nat) (injected : Bool) : State :=
  let s := s.updPart q fun x => { x with qTick := some s.tick }
  if s.ptState q = 2 ∨ s.ptState q = 3 then
    let s := (s.set R.CB_PT_STATE_STATE q 4).set R.CB_PT_STATE_QCAUSE q cause
    let mask := s.partnerMask q
    let s := s.post Ev.cbQuarantine .fault (some q) [item cause] (decide (mask ≠ 0)) injected
    let s := if mask = 0 then s else s.fault mask .none Ev.cbQuarantine (some q)
    (s.staleSlots q).partnerLoss q
  else s

/-- The effect of QUARANTINE: a count of partner `q` has reached its limit. DESIGN CHOICE (log 108): where several have, QCAUSE is the
first of MISSING, OWNERSHIP and POLICING. -/
def State.quarantineTest (s : State) (q : Nat) : State :=
  if s.ptState q ≠ 2 ∧ s.ptState q ≠ 3 then s
  else if (s.fromSlots q).any fun i => decide (3 ≤ (s.slot i).run) then s.quarantine q 1 false
  else if 8 ≤ (s.part q).ownWin then s.quarantine q 2 false
  else if 64 ≤ (s.part q).polWin then s.quarantine q 3 false
  else s

/-- QUARANTINE (R98). -/
def execQuarantine (p : Fin 1024) (s : State) : Out := .next (s.quarantineTest p)

/-! ### The checks (R83) -/

/-- One check: an active injection or its condition discards the frame, else `k` goes on. -/
def State.rxCheck (s : State) (idx inst : Nat) (bad : Bool) (drop : Bool → State → State) (k : State → State × Option Hdr) :
    State × Option Hdr :=
  match s.inject idx inst with
  | (some _, t) => (drop true t, none)
  | (none, t) => if bad then (drop false t, none) else k t

/-- An ownership failure; the eighth in a window quarantines (R93, R97). -/
def State.ownErr (s : State) (f : Frame) (h : Hdr) (injected : Bool) : State :=
  let p := f.port
  let q := h.partner
  let s := s.discard R.CB_ERR_E_OWN_ERR 0 Ev.cbOwn p [item q, item h.slot] injected
  let s := (s.inc R.CB_PT_COUNT_OWN_VIOL q).updPart q fun x => { x with ownWin := x.ownWin + 1 }
  if 8 ≤ (s.part q).ownWin then s.quarantine q 2 injected else s

/-- A policing failure. -/
def State.policeErr (s : State) (f : Frame) (h : Hdr) (injected : Bool) : State :=
  let q := h.partner
  let s := s.discard R.CB_ERR_F_POLICE_DROP 0 Ev.cbPolice f.port [item q] injected
  (s.inc R.CB_PT_COUNT_POLICE_DROP q).updPart q fun x => { x with polWin := x.polWin + 1 }

/-- A frame fails policing (R94): a second REFERENCE, DELAY or JOIN frame in the cycle, or an ACYCLIC frame that RATE = 0 or the token
bucket does not admit. -/
def State.policeBad (s : State) (f : Frame) (h : Hdr) : Bool :=
  let x := s.part h.partner
  match h.ftype with
  | 1 => x.refSeen
  | 2 => x.delaySeen
  | 3 => x.joinSeen
  | 4 => decide (s.get R.CB_PT_POLICE_RATE h.partner = 0 ∨ x.tokens < f.len)
  | _ => false

/-- A frame has passed policing. -/
def State.policePass (s : State) (f : Frame) (h : Hdr) : State :=
  s.updPart h.partner fun x =>
    match h.ftype with
    | 1 => { x with refSeen := true }
    | 2 => { x with delaySeen := true }
    | 3 => { x with joinSeen := true }
    | 4 => { x with tokens := x.tokens - f.len }
    | _ => x

/-- A frame of a partner was accepted: its flags and epoch are kept; a rise of PARTNER_FALLBACK has the loss reaction. -/
def State.partnerSeen (s : State) (f : Frame) (h : Hdr) : State :=
  let q := h.partner
  let s := ((s.setBit R.CB_PT_STATE_FALLBACK q h.fallback).setBit R.CB_PT_STATE_ALARM q h.alarm).set R.CB_PT_STATE_EPOCH_SEEN q h.epoch
  let rise := h.fallback && !(s.part q).fallback
  let s := s.updPart q fun x => { x with fallback := h.fallback }
  let s := s.sawEpoch h.epoch
  s.detect (80 + f.port) q rise fun inj s =>
    let mask := s.partnerMask q
    let s := s.post Ev.cbPartnerFallback .fault (some q) [] (decide (mask ≠ 0)) inj
    (if mask = 0 then s else s.fault mask .none Ev.cbPartnerFallback (some q)).partnerLoss q

/-- Checks 8 to 10 on a partner's frame. -/
def State.partnerChecks (s : State) (f : Frame) (h : Hdr) : State × Option Hdr :=
  let p := f.port
  let q := h.partner
  let s := if s.ptState q = 1 ∧ s.running then s.set R.CB_PT_STATE_STATE q 2 else s
  if s.ptState q = 4 then (s.inc R.CB_ERR_F_QUAR_DROP p, none)
  else
    let owned := (s.fromSlots q).contains h.slot && decide (s.get R.CB_SL_A_PORT h.slot = p)
    let own := h.ftype == 0 && (!owned || (s.slot h.slot).accepted.contains h.cycle)
    let done := fun (t : State) =>
      let t := (t.policePass f h).inc R.CB_RX_FRAMES p
      (t.partnerSeen f h, some h)
    let police := fun (t : State) => t.rxCheck (60 + p) p (t.policeBad f h) (fun inj t => t.policeErr f h inj) done
    if h.ftype = 0 then
      s.rxCheck (56 + p) p own (fun inj t => t.ownErr f h inj) fun t =>
        done (t.updSlot h.slot fun x => { x with accepted := x.accepted ++ [h.cycle] })
    else police s

/-- The receive checks on a frame of a CB port: the state after them, with the header of a frame that passes them all. DESIGN CHOICE
(log 109): an injection that discards a good frame at a detector with two counters counts it in FCS_ERR, MACSEC_AUTH or HDR_ERR. -/
def State.rxChecks (s : State) (f : Frame) : State × Option Hdr :=
  let p := f.port
  let h := hdrOf f.hdr
  let early := fun (fd : Field) (kind code : Nat) (inj : Bool) (t : State) => t.discard fd kind code p [] inj
  let lenBad := decide (f.len < 64 ∨ 1542 < f.len)
  let who := if h.ftype = 0 ∨ h.ftype = 5 then [item h.partner, item h.slot] else [item h.partner]
  if !s.up p then (s, none)
  else
    s.rxCheck (32 + p) p (!f.fcsOk || lenBad)
        (fun inj t => if !f.fcsOk || !lenBad then early R.CB_ERR_A_FCS_ERR 0 Ev.cbFrameErr inj t else early R.CB_ERR_A_LEN_ERR 1 Ev.cbFrameErr inj t) fun s =>
    if f.outer = 0x8808 then (s.inc R.CB_ERR_G_PAUSE_RX p, none)
    else
    let v := s.macCheck f
    s.rxCheck (40 + p) p (v == .unprotected) (early R.CB_ERR_B_UNPROTECTED 0 Ev.cbUnprotected) fun s =>
    s.rxCheck (36 + p) p (v == .auth || v == .replay)
        (fun inj t => if v == .replay then early R.CB_ERR_C_MACSEC_REPLAY 1 Ev.cbMacsecAuth inj t else early R.CB_ERR_B_MACSEC_AUTH 0 Ev.cbMacsecAuth inj t) fun s =>
    let s := s.macPass f
    let foreign := decide (f.inner ≠ s.get R.CB_ETHERTYPE_ETYPE) || f.vlan || !s.daOk f
    s.rxCheck (48 + p) p (foreign || hdrBad h f)
        (fun inj t => if foreign then early R.CB_ERR_C_NON_RYFOID 1 Ev.cbHdr inj t else early R.CB_ERR_D_HDR_ERR 0 Ev.cbHdr inj t) fun s =>
    s.rxCheck (44 + p) p (decide ((crc32c (f.hdr.take 16 ++ f.payload)).toNat ≠ h.pcrc)) (early R.CB_ERR_D_PCRC_ERR 0 Ev.cbPcrc) fun s =>
    s.rxCheck (52 + p) p (s.srcBad f h) (fun inj t => t.discard R.CB_ERR_E_SRC_ERR 0 Ev.cbSrc p who inj) fun s =>
    if h.fromDev then (s.inc R.CB_RX_FRAMES p, some h) else s.partnerChecks f h

/-! ### Slots from partners (R110 to R117) -/

/-- The ticks from the late window edge to the end of step 3 for the layout of slot `i` (R114). -/
def State.step3 (s : State) (i : Nat) : Nat :=
  let p := s.get R.CB_SL_A_PORT i
  let b := s.wireBytes p (s.slotLen i)
  if s.portMode p ≠ 3 ∧ b = 128 then 36 else Config.rxTicks (s.portMode p) b

/-- Show a run among PS_WIN.MISS_RUN of partner `q`. -/
def State.showRun (s : State) (q : Nat) : State :=
  s.set R.CB_PS_WIN_MISS_RUN q (min 3 (((s.fromSlots q).map fun i => (s.slot i).run).foldl max 0))

/-- A frame of partner `q` counted against it, with its event once in the window. -/
def State.against (s : State) (f : Field) (code q i : Nat) (injected : Bool) : State :=
  (s.inc f q).postKey code code q [item i] injected

/-- Commit a frame to slot `i`: NORMAL (1) or EDGE (2). -/
def State.commitFrame (s : State) (i q cls : Nat) (e : Int) (f : Frame) : State :=
  let s := s.updSlot i fun x => { x with fill := f.payload, freshNow := true, run := 0, cls := cls, arr := f.stamp, dev := e / 8 }
  let s := if cls = 2 then (s.inc R.CB_PS_WIN_EDGE_COUNT q).set R.CB_PS_WIN_EDGE_WIN q (min 255 (s.get R.CB_PS_WIN_EDGE_WIN q + 1)) else s
  s.showRun q

/-- An injection at 88 + n that names slot `i` or any slot discards this frame before it commits (R477). -/
def State.injectSlot (s : State) (p q i : Nat) : Bool × State :=
  match (List.range 16).find? fun k =>
      let j := Tab.get (fun _ => ({} : Inj)) s.inj k
      s.injActive j && j.index == 88 + p && (j.inst == 0xFFFF || j.inst == q)
        && (param j.params 0 % 65536 == i || param j.params 0 % 65536 == 0xFFFF) with
  | none => (false, s)
  | some k => (true, s.injFire k (Tab.get (fun _ => ({} : Inj)) s.inj k) q)

/-- An ACTIVE partner of port `p` waits for the next boundary: the port came back to UP within this cycle (R78). -/
def State.resuming (s : State) (p st : Nat) : Bool := s.grid.cyc.isSome && !(s.port p).upAll && decide (st = 3)

/-- The class of a CYCLIC frame of slot `h.slot`, and its commit (R113). A frame of a partner that continues at the next boundary is
not used. -/
def State.classify (s : State) (f : Frame) (h : Hdr) : State :=
  let i := h.slot
  let q := h.partner
  let p := f.port
  if s.resuming p (s.ptState q) then s
  else
    let e : Int := 8 * ((f.stamp : Int) - (s.grid.start + s.get R.CB_SL_A_OFFSET i : Nat))
    let stale := decide (s.grid.cyc.map (fun n => n % 2 ^ 32) ≠ some h.cycle)
    match s.inject (100 + p) q with
    | (some _, s) => s.against R.CB_PS_MISS_LAYOUT_STALE Ev.cbStale q i true
    | (none, s) =>
      if stale then s.against R.CB_PS_MISS_LAYOUT_STALE Ev.cbStale q i false
      else if !s.slotDue i s.cycle || decide (s.ptState q ≠ 3) then s.against R.CB_PS_MISS_OUTSIDE Ev.cbOutside q i false
      else
        let wrong := decide (h.layout ≠ s.get R.CB_SL_B_LAYOUT i ∨ h.len ≠ s.slotLen i)
        match s.inject (96 + p) q with
        | (some _, s) => s.against R.CB_PS_MISS_LAYOUT_STALE Ev.cbLayout q i true
        | (none, s) =>
          if wrong then s.against R.CB_PS_MISS_LAYOUT_STALE Ev.cbLayout q i false
          else
            match s.inject (92 + p) q with
            | (some _, s) => s.against R.CB_PS_MISS_OUTSIDE Ev.cbOutside q i true
            | (none, s) =>
              if 200 < e.natAbs ∨ (s.slot i).declared = some s.cycle then s.against R.CB_PS_MISS_OUTSIDE Ev.cbOutside q i false
              else
                let r := s.injectSlot p q i
                if r.1 then r.2.updSlot i fun x => { x with injMiss := true }
                else r.2.commitFrame i q (if e.natAbs ≤ 80 then 1 else 2) e f

/-- The effect of CB_DRIFT: sixteen edge arrivals of a partner in a window. -/
def State.driftTest (s : State) (q : Nat) : State :=
  let p := s.get R.CB_PT_CFG_PORT q
  if s.once.contains (Ev.cbDrift, q) then s
  else s.detect (84 + p) q (decide (16 ≤ s.get R.CB_PS_WIN_EDGE_WIN q)) fun inj s => s.postKey Ev.cbDrift Ev.cbDrift q [] inj

/-- CB_DRIFT (R117). -/
def execCbDrift (p : Fin 1024) (s : State) : Out := .next (s.driftTest p)

/-- Slot `i` can be declared missing: due in this cycle, its partner ACTIVE or QUARANTINED, no frame committed in it, its tick come. -/
def State.missDue (s : State) (i : Nat) : Bool :=
  let x := s.slot i
  let st := s.ptState (s.get R.CB_SL_B_PARTNER i)
  s.grid.cyc.isSome && decide (s.get R.CB_SL_A_DIR i = 2) && s.slotDue i s.cycle && (st == 3 || st == 4) && !x.freshNow && decide (x.cls ≠ 1 ∧ x.cls ≠ 2)
    && decide (x.declared ≠ some s.cycle) && decide (s.get R.CB_SL_A_OFFSET i + 25 + s.step3 i ≤ s.intoCycle)

/-- The effect of SLOT_MISSING. -/
def State.slotMissing (s : State) (i : Nat) : State :=
  if !s.missDue i then s
  else
    let q := s.get R.CB_SL_B_PARTNER i
    let forced := (s.slot i).injMiss
    let s := s.updSlot i fun x => { x with missNow := true, injMiss := false, declared := some s.cycle, cls := 3 }
    if s.ptState q = 4 then s
    else
      let r := if forced then (true, s) else s.injectSlot (s.get R.CB_SL_A_PORT i) q i
      let s := r.2.updSlot i fun x => { x with run := x.run + 1 }
      ((s.inc R.CB_PS_MISS_MISSING q).showRun q).postKey Ev.cbMissing Ev.cbMissing q [item i] r.1

/-- SLOT_MISSING (R114). -/
def execSlotMissing (i : Fin 8192) (s : State) : Out := .next (s.slotMissing i)

/-- SLOT_ARR and SLOT_STAT of slot `i` at the end of a cycle in which it was due with launch or arrival stamp `at_`, class, deviation
and missing mark (R126). -/
def State.showSlot (s : State) (i at_ cls : Nat) (dev : Int) (miss : Bool) : State :=
  let s := ((s.set R.CB_SLOT_ARR_TICK i (at_ % 2 ^ 17)).set R.CB_SLOT_ARR_CLASS i cls).seti R.CB_SLOT_ARR_DEV i dev
  s.setBit R.CB_SLOT_STAT_MISSING i miss

/-- FRESH_HELD and the missing run that SLOT_STAT shows of slot `i`. -/
def State.showFresh (s : State) (i : Nat) : State :=
  let x := s.slot i
  (s.setBit R.CB_SLOT_STAT_FRESH_HELD i x.freshHeld).set R.CB_SLOT_STAT_MISS_RUN i (min 3 x.run)

/-- The effect of SLOT_SELECT: SLOT_ARR and SLOT_STAT show the values of slot `i` from now on. -/
def State.selectSlot (s : State) (i : Nat) : State := s.set R.CB_SLOT_SEL_SLOT 0 i

/-- SLOT_SELECT (R126). -/
def execSlotSelect (i : Fin 8192) (s : State) : Out := .next (s.selectSlot i)

/-! ### Joining and delay measurement (R95, R119 to R123) -/

/-- SYNC_REQ of partner `q`. -/
def State.syncReq (s : State) (q : Nat) : Nat := s.get R.CB_PS_SYNC_SYNC_REQ q

/-- CB_SYNC_FALLBACK of partner `q`. -/
def State.syncFallback (s : State) (q : Nat) (injected : Bool) : State := s.post Ev.cbSyncFallback .notice (some q) [] false injected

/-- The grant of partner `q` is refused with NO_SYNC. -/
def State.refuseJoin (s : State) (q : Nat) : State := s.updPart q fun x => { x with settled := true, refused := true, refuseDue := true }

/-- Partner `q` takes the REFERENCE mode, refused on a port without it (R121). -/
def State.settleRef (s : State) (q : Nat) (note injected : Bool) : State :=
  if s.bit R.CB_REF_CFG_EN (s.get R.CB_PT_CFG_PORT q) then
    let s := if note then s.syncFallback q injected else s
    (s.set R.CB_PS_SYNC_SYNC_MODE q 2).updPart q fun x => { x with settled := true }
  else (s.syncFallback q injected).refuseJoin q

/-- What R120 gives a partner whose measurement failed or that cannot be timed. -/
def State.settleOther (s : State) (q : Nat) (injected : Bool) : State :=
  if s.syncReq q = 2 then s.refuseJoin q else s.settleRef q true injected

/-- The lower positions on the port of partner `q`. -/
def State.lower (s : State) (q : Nat) : List Nat :=
  (s.portPartners (s.get R.CB_PT_CFG_PORT q)).filter fun r => decide (s.get R.CB_PT_CFG_POSITION r < s.get R.CB_PT_CFG_POSITION q)

/-- Settle the sync mode of partner `q` when its measurement is complete and every lower position has reported. -/
def State.settle (s : State) (q : Nat) : State :=
  let x := s.part q
  let low := (s.lower q).map s.part
  if s.ptState q ≠ 2 ∨ x.settled ∨ x.annCycle.isNone ∨ x.samples.length < 16 ∨ low.any (fun y => y.fwdOut.isNone) then s
  else
    let spread := x.samples.foldl max (x.samples.headD 0) - x.samples.foldl min (x.samples.headD 0)
    let asym := (low.map fun y => ((y.fwdOut.getD 0 : Nat) : Int) - (y.fwdRet.getD 0 : Nat)).sum
    let pass := decide (spread ≤ (16 * s.get R.CB_SYNC_CFG_SPREAD_LIMIT : Nat)) && decide (asym.natAbs ≤ 16 * s.get R.CB_SYNC_CFG_ASYM_LIMIT)
    let r := s.inject (108 + s.get R.CB_PT_CFG_PORT q) q
    let s := r.2
    if pass && r.1.isNone then
      if s.bit R.CB_PS_SYNC_TIMED_CAPABLE q then (s.set R.CB_PS_SYNC_SYNC_MODE q 1).updPart q fun x => { x with settled := true }
      else s.settleOther q false
    else if x.tries + 1 < 3 then s.updPart q fun x => { x with tries := x.tries + 1, samples := [] }
    else (s.updPart q fun x => { x with tries := x.tries + 1 }).settleOther q r.1.isSome

/-- A DELAY response of partner `q` (R119). -/
def State.delayResponse (s : State) (f : Frame) (h : Hdr) : State :=
  let q := h.partner
  let x := s.part q
  let b := f.payload
  match x.t1 with
  | none => s
  | some t1 =>
    if s.ptState q ≠ 2 ∨ beField b 0 1 ≠ 2 ∨ beField b 1 1 ≠ x.samples.length then s
    else
      let r : Int := 16 * 8 * ((f.stamp : Int) - t1) - (beField b 2 4 : Nat)
      let s := s.updPart q fun x =>
        { x with t1 := none, samples := x.samples ++ [r], fwdOut := some (beField b 6 2), fwdRet := some (beField b 8 2) }
      let l := (s.part q).samples
      let s := if l.length = 16 then s.seti R.CB_PT_DELAY_DELAY q (roundDiv (l.sum - 1024) 32) else s
      (s.portPartners f.port).foldl State.settle s

/-- A JOIN ANNOUNCE of partner `q` (R95). -/
def State.joinAnnounce (s : State) (f : Frame) (h : Hdr) : State :=
  let q := h.partner
  let b := f.payload
  let wrong := decide (beField b 1 2 ≠ s.get R.CB_PT_IDENT_VENDOR_ID q ∨ beField b 3 2 ≠ s.get R.CB_PT_IDENT_DEVICE_TYPE q)
    || decide (s.get R.CB_PT_SERIAL q ≠ 0 ∧ beField b 5 4 ≠ s.get R.CB_PT_SERIAL q)
  match s.inject (64 + f.port) q with
  | (some _, s) =>
    (s.post Ev.cbIdentity .fault (some q) [item (beField b 1 2), item (beField b 3 2), item (beField b 5 4)] false true).quarantine q 4 true
  | (none, s) =>
    if wrong then
      (s.post Ev.cbIdentity .fault (some q) [item (beField b 1 2), item (beField b 3 2), item (beField b 5 4)]).quarantine q 4 false
    else if s.ptState q ≠ 2 ∨ (s.part q).annCycle.isSome then s
    else
      let s := (s.setBit R.CB_PS_SYNC_TIMED_CAPABLE q (hasBit (beField b 9 1) 0)).updPart q fun x => { x with annCycle := some s.cycle }
      if s.syncReq q = 1 then s.settleRef q false false else s

/-- A JOIN VALID of partner `q` (R123). -/
def State.joinValid (s : State) (f : Frame) (h : Hdr) : State :=
  if s.ptState h.partner = 2 then s.updPart h.partner fun x => { x with validCycle := some (s.cycleOf (beField f.payload 1 4)) } else s

/-- A JOIN frame of a partner. -/
def State.joinFrame (s : State) (f : Frame) (h : Hdr) : State :=
  match beField f.payload 0 1 with
  | 1 => s.joinAnnounce f h
  | 2 => s.joinValid f h
  | _ => s

/-! ### Acyclic frames and REFERENCE frames -/

/-- Deliver an ACYCLIC frame to the first buffer posted for its partner and port; without one it is discarded (R344). -/
def State.acyclicRx (s : State) (f : Frame) (h : Hdr) : State :=
  match s.cb.recv.find? fun r => decide (r.port = f.port) && (r.partner == h.partner || r.partner == 0x7FF) with
  | none => s
  | some r =>
    let s : State := { s with cb := { s.cb with recv := s.cb.recv.filter fun x => !(x == r) } }
    let s := s.hostPut r.addr (f.payload.take r.len)
    let ago := s.tick - f.stamp
    let t := s.now - 8 * ago
    s.complete3 (some r.desc) { a := Config.acyclicResult h.partner h.len, stamp := some (t / 1000000000, t % 1000000000) }

/-- A REFERENCE frame from a partner is counted and discarded (R122). -/
def State.backupRef (s : State) (f : Frame) (h : Hdr) : State :=
  s.detect (116 + f.port) h.partner true fun inj s => s.postKey Ev.cbBackupRef Ev.cbBackupRef f.port [item h.partner] inj

/-- A partner's frame goes to the consumer of its TYPE. -/
def State.consume (s : State) (f : Frame) (h : Hdr) : State :=
  match h.ftype with
  | 0 => s.classify f h
  | 1 => s.backupRef f h
  | 2 => s.delayResponse f h
  | 3 => s.joinFrame f h
  | 4 => s.acyclicRx f h
  | _ => s

/-! ### PARTNER_RELEASE and PARTNER_QUARANTINE (R99) -/

/-- The action of PARTNER_RELEASE. -/
def State.doRelease (s : State) (d : Desc) : State :=
  let q := d.bits 4 9 0
  let reason :=
    if s.cell = 0 then 4
    else if (s.part q).qTick = some s.tick then 3
    else if s.ptState q ≠ 4 then 1
    else if !s.up (s.get R.CB_PT_CFG_PORT q) then 2
    else 0
  if reason ≠ 0 then s.completeDesc d { reason }
  else
    let s := s.mirrorDesc d
    let s := ((s.set R.CB_PT_STATE_STATE q 2).set R.CB_PT_STATE_QCAUSE q 0).set R.CB_PT_COUNT_OWN_VIOL q 0
    let s := (s.set R.CB_PT_COUNT_POLICE_DROP q 0).set R.CB_PS_SYNC_SYNC_MODE q 0
    let s := s.updPart q fun x => { tokens := s.get R.CB_PT_POLICE_BURST q, fallback := x.fallback, fwdOut := x.fwdOut, fwdRet := x.fwdRet }
    let s := (s.fromSlots q).foldl (fun s i => s.updSlot i fun x => { x with run := 0 }) s
    (s.showRun q).completeDesc d {}

/-- PARTNER_RELEASE (R99). -/
def execPartnerRelease (d : DescId) (s : State) : Out := .next (s.action d 0x21 holderGate State.doRelease)

/-- The action of PARTNER_QUARANTINE. -/
def State.doQuarantine (s : State) (d : Desc) : State :=
  let q := d.bits 4 9 0
  if s.cell = 0 then s.completeDesc d { reason := 4 }
  else if s.ptState q ≠ 2 ∧ s.ptState q ≠ 3 then s.completeDesc d { reason := 1 }
  else ((s.mirrorDesc d).quarantine q 5 false).completeDesc d {}

/-- PARTNER_QUARANTINE (R99). -/
def execPartnerQuarantine (d : DescId) (s : State) : Out := .next (s.action d 0x22 holderGate State.doQuarantine)

/-! ### ACYCLIC_SEND and ACYCLIC_RECV (R344) -/

/-- The action of ACYCLIC_SEND: the frame enters its port's queue. -/
def State.doAcyclicSend (s : State) (payload : Option (List Byte)) (d : Desc) : State :=
  match payload with
  | none => s.completeDesc d { reason := 0xF2 }
  | some l =>
    let a : AcySend := { partner := d.bits 4 10 0, payload := l.take (d.bits 5 10 0), desc := some d.key3 }
    let s := if hasBit (d.word 4) 17 then s else s.mirrorDesc d
    s.updPort (d.bits 4 13 12) fun x => if hasBit (d.word 4) 16 then { x with lat := x.lat ++ [a] } else { x with acy := x.acy ++ [a] }

/-- ACYCLIC_SEND (R109, R344). -/
def execAcyclicSend (d : DescId) (payload : Option (List Byte)) (s : State) : Out :=
  .next (s.action d 0x23 (fun s d => { holder := !hasBit (d.word 4) 17 && s.notHolder }) (fun s d => s.doAcyclicSend payload d))

/-- The action of ACYCLIC_RECV: a buffer is posted. -/
def State.doAcyclicRecv (s : State) (d : Desc) : State :=
  { s with cb := { s.cb with recv := s.cb.recv ++
      [{ partner := d.bits 4 10 0, port := d.bits 4 13 12, addr := d.addr 6, len := d.word 5, desc := d.key3 }] } }

/-- ACYCLIC_RECV (R344). -/
def execAcyclicRecv (d : DescId) (s : State) : Out := .next (s.action d 0x24 (fun _ _ => {}) State.doAcyclicRecv)

end Sys2Proof.Machine
end

