-- ==== Sys2Proof/Machine/Launch.lean ====
section
/-! DEFINITION. Launching on the Ryfoid cell bus: slots to partners, the acyclic window, REFERENCE frames, grants, and what the
slot engine does at a boundary (chapter 04). -/
namespace Sys2Proof.Machine

/-! ### Slots to partners (R107, R108, R111) -/

/-- A list of bytes cut or filled with zeros to `n`. -/
def fitBytes (n : Nat) (l : List Byte) : List Byte := l.take n ++ List.replicate (n - l.length) 0

/-- The bytes of the command word of Tiller `n` as a MOVE puts them into a slot. -/
def State.commandBytes (s : State) (n : Nat) (swap : Bool) : List Byte :=
  let b := wordBytes ((s.til n).rdX (s.get R.TL_XADDR_A_CMD_ADDR n))
  if swap then b.reverse else b

/-- The loss-reaction payload of slot `i`: the command words of its joints, zeros elsewhere (R107). -/
def State.lossPayload (s : State) (i : Nat) : List Byte :=
  (s.slotCommands i).foldl (fun l c => l.take c.2.1 ++ s.commandBytes c.1 c.2.2 ++ l.drop (c.2.1 + 4)) (List.replicate (s.slotLen i) 0)

/-- The bytes `a` to `a + n - 1` for an addressee in state `st`. -/
def pickBytes (st : Nat) (app loss : List Byte) (a n : Nat) : List Byte :=
  match st with
  | 3 => (app.drop a).take n
  | 4 => (loss.drop a).take n
  | _ => List.replicate (((app.drop a).take n).length) 0

/-- The payload of slot `i` from an application payload, by the state of each addressee. -/
def State.gatedPayload (s : State) (i : Nat) (app : List Byte) : List Byte :=
  let app := fitBytes (s.slotLen i) app
  let loss := s.lossPayload i
  let lay := s.get R.CB_SL_B_LAYOUT i
  let el := s.get R.CB_LAYOUT_ELEM_LEN lay
  if s.get R.CB_SL_B_PARTNER i = 0x7FF ∧ el ≠ 0 then
    (List.range (s.slotLen i / el)).flatMap fun j =>
      let st := ((s.partnerAt (s.get R.CB_SL_A_PORT i) (s.get R.CB_LAYOUT_FIRST_POS lay + j)).map s.ptState).getD 0
      pickBytes st app loss (j * el) el
  else pickBytes (s.ptState (s.get R.CB_SL_B_PARTNER i)) app loss 0 app.length

/-- The hand-over of slot `i` missed its cutoff. DESIGN CHOICE (log 110): a group slot has no single partner, and no TX_LATE counts. -/
def State.txLate (s : State) (i : Nat) (injected : Bool) : State :=
  let q := s.get R.CB_SL_B_PARTNER i
  let s := if q < 1024 then s.inc R.CB_PS_MISS_TX_LATE q else s
  let mask := s.jointsMask ((s.slotCommands i).map fun c => c.1)
  if mask = 0 then s.post Ev.cbTxLate .notice (some i) [] false injected
  else (s.post Ev.cbTxLate .fault (some i) [] true injected).fault mask .ss1 Ev.cbTxLate (some i)

/-- Slot `i` goes out with its class (4 fresh, 5 held) and application payload. -/
def State.sendSlot (s : State) (i cls : Nat) (app : List Byte) : State :=
  let p := s.get R.CB_SL_A_PORT i
  let f : TxFrame :=
    { ftype := 0, slot := i, cycle := s.cycle % 2 ^ 32, epoch := s.txEpoch, partner := s.get R.CB_SL_B_PARTNER i,
      layout := s.get R.CB_SL_B_LAYOUT i, payload := s.gatedPayload i app, pn := 0, tick := s.tick }
  (s.launch p f).updSlot i fun x => { x with launched := some s.cycle, cls := cls, arr := s.tick, sent := x.sent || decide (cls = 4) }

/-- Port `p` carries slot `i` no further in this cycle: it cannot send, or the slot commands an ACTIVE partner (a group slot several)
and the port came back to UP within the cycle (R78). -/
def State.slotShut (s : State) (p i : Nat) : Bool :=
  let q := s.get R.CB_SL_B_PARTNER i
  !s.canSend p || s.resuming p (if q = 0x7FF then 3 else s.ptState q)

/-- The effect of SLOT_LAUNCH. DESIGN CHOICE (log 111): a slot whose OFFSET lies at or after ACYC_END is launched like any other. -/
def State.slotLaunch (s : State) (i : Nat) : State :=
  let x := s.slot i
  let p := s.get R.CB_SL_A_PORT i
  let off := s.get R.CB_SL_A_OFFSET i
  if !s.grid.cyc.isSome ∨ s.get R.CB_SL_A_DIR i ≠ 1 ∨ !s.slotDue i s.cycle ∨ x.launched = some s.cycle ∨ s.intoCycle < off ∨ s.notHolder then s
  else if s.slotShut p i then s.updSlot i fun x => { x with launched := some s.cycle, cls := 6, arr := s.tick }
  else if (s.slotMe i).isNone then s.sendSlot i 4 []
  else
    let onTime := x.ready && !x.slow && decide (x.readyTick + 34 ≤ s.grid.start + off)
    match s.inject (104 + p) i with
    | (some _, s) => (s.txLate i true).sendSlot i 5 (s.slot i).heldBuf
    | (none, s) => if onTime then s.sendSlot i 4 (s.slot i).fill else (s.txLate i false).sendSlot i 5 (s.slot i).heldBuf

/-- SLOT_LAUNCH (R107). -/
def execSlotLaunch (i : Fin 8192) (s : State) : Out := .next (s.slotLaunch i)

/-! ### The acyclic window (R109, R119, R124) -/

/-- A DELAY request is due to partner `q` in this cycle. -/
def State.delayDue (s : State) (q : Nat) : Bool :=
  let x := s.part q
  decide (s.ptState q = 2) && decide (s.syncReq q ≠ 1) && !x.settled && decide (x.samples.length < 16) && x.t1.isNone
    && decide (x.asked ≠ some s.cycle) && (match x.annCycle with | some a => decide (a < s.cycle) | none => false)

/-- The slots of partner `q`, the group slots of its position among them. -/
def State.grantSlots (s : State) (q : Nat) : List Nat :=
  let port := s.get R.CB_PT_CFG_PORT q
  let pos := s.get R.CB_PT_CFG_POSITION q
  s.slotsUsed.filter fun i =>
    let lay := s.get R.CB_SL_B_LAYOUT i
    let el := s.get R.CB_LAYOUT_ELEM_LEN lay
    let first := s.get R.CB_LAYOUT_FIRST_POS lay
    decide (s.get R.CB_SL_A_PORT i = port)
      && (decide (s.get R.CB_SL_B_PARTNER i = q)
        || (decide (s.get R.CB_SL_B_PARTNER i = 0x7FF ∧ s.get R.CB_SL_A_DIR i = 1 ∧ el ≠ 0 ∧ first ≤ pos) && decide (pos < first + s.slotLen i / el)))

/-- The payload of a GRANT to partner `q` that activates in cycle `a`. -/
def State.grantPayload (s : State) (q a : Nat) : List Byte :=
  let l := s.grantSlots q
  let twin := if s.bit R.CB_PORT_CFG_TOPOLOGY (s.get R.CB_PT_CFG_PORT q) then Config.twinPathDelay q else 0
  [3] ++ beBytes 4 a ++ beBytes 3 (s.get R.CB_PT_DELAY_DELAY q) ++ beBytes 1 (s.get R.CB_PS_SYNC_SYNC_MODE q)
    ++ beBytes 2 (s.get R.CB_PS_SYNC_FIXED_DELAY q) ++ beBytes 1 l.length ++ beBytes 3 twin ++ [0]
    ++ l.flatMap fun i =>
      beBytes 2 i ++ beBytes 4 (s.get R.CB_SL_A_OFFSET i)
        ++ [Config.grantByte (s.get R.CB_SL_A_DIR i) (s.get R.CB_SL_B_DIV i) (s.get R.CB_SL_B_PHASE i)] ++ beBytes 1 (s.get R.CB_SL_B_LAYOUT i)

/-- The first unmet condition of R123 for partner `q`, 0 when all are met. -/
def State.joinUnmet (s : State) (q : Nat) : Nat :=
  let x := s.part q
  let good := Tab.get (fun _ => []) s.cb.goodCycles (s.get R.CB_PT_CFG_PORT q)
  match x.annCycle with
  | none => 1
  | some a =>
    match x.validCycle with
    | none => 2
    | some c =>
      if c ≤ a ∨ s.cycle < c ∨ c + 64 < s.cycle ∨ !good.contains c then 2
      else if !x.settled ∨ x.refused then 3
      else 0

/-- A frame that the acyclic window has to send: what it is, its addressee and payload. -/
inductive AcyJob where
  | delay (q : Nat)
  | refuse (q : Nat)
  | grant (q : Nat)
  | timed (a : AcySend)
  | ring (a : AcySend)

/-- The next frame of port `p` in the order of R109. -/
def State.nextAcyclic (s : State) (p : Nat) : Option AcyJob :=
  let on := s.portPartners p
  match on.find? s.delayDue with
  | some q => some (.delay q)
  | none =>
    let joins := if s.notHolder then none else on.find? fun q =>
      decide (s.ptState q = 2) && ((s.part q).refuseDue || ((s.part q).grantAt.isNone && decide (s.joinUnmet q = 0)))
    match joins with
    | some q => some (if (s.part q).refuseDue then .refuse q else .grant q)
    | none =>
      let x := s.port p
      match (if x.latFree = 0 then [] else x.lat) with
      | a :: _ => some (.timed a)
      | [] => x.acy.head?.map AcyJob.ring

/-- The payload of a frame of the acyclic window. -/
def State.acyPayload (s : State) : AcyJob → List Byte
  | .delay q => [1] ++ beBytes 1 (s.part q).samples.length ++ [0, 0]
  | .refuse _ => [4, 1]
  | .grant q => s.grantPayload q (s.cycle + 1)
  | .timed a => a.payload
  | .ring a => a.payload

/-- The type and addressee of a frame of the acyclic window. -/
def acyAddr : AcyJob → Nat × Nat
  | .delay q => (2, q)
  | .refuse q => (3, q)
  | .grant q => (3, q)
  | .timed a => (4, a.partner)
  | .ring a => (4, a.partner)

/-- What the launch of a frame of the acyclic window leaves behind. -/
def State.acyDone (s : State) (p : Nat) : AcyJob → State
  | .delay q => s.updPart q fun x => { x with t1 := some s.tick, asked := some s.cycle }
  | .refuse q => s.updPart q fun x => { x with refuseDue := false }
  | .grant q => s.updPart q fun x => { x with grantAt := some (s.cycle + 1) }
  | .timed a => (s.updPort p fun x => { x with lat := x.lat.drop 1, latFree := x.latFree - 1 }).complete3 a.desc {}
  | .ring a => (s.updPort p fun x => { x with acy := x.acy.drop 1 }).complete3 a.desc {}

/-- The effect of ACYCLIC_LAUNCH: the port's next frame goes out when the window is open and its last bit leaves before ACYC_END. -/
def State.acyclicLaunch (s : State) (p : Nat) : State :=
  if !s.grid.cyc.isSome || !s.canSend p || decide (s.intoCycle < s.get R.CB_ACYC_START_TICKS) || decide (s.tick < (s.port p).acyTick) then s
  else
    match s.nextAcyclic p with
    | none => s
    | some j =>
      let l := s.acyPayload j
      let w := s.wireBytes p l.length
      let unit := if s.portMode p = 3 then 80 else 8
      if s.get R.CB_ACYC_END_TICKS * 80 ≤ s.intoCycle * 80 + (w - 12) * unit then s
      else
        let f : TxFrame :=
          { ftype := (acyAddr j).1, slot := 0xFFFF, cycle := s.cycle % 2 ^ 32, epoch := s.txEpoch, partner := (acyAddr j).2, layout := 0,
            payload := l, pn := 0, tick := s.tick }
        let s := (s.launch p f).updPort p fun x => { x with acyTick := s.tick + s.wireTicks p w }
        s.acyDone p j

/-- ACYCLIC_LAUNCH (R109). -/
def execAcyclicLaunch (p : Fin 4) (s : State) : Out := .next (s.acyclicLaunch p)

/-- The effect of ACYC_WINDOW_END: open samples are void. -/
def State.acycEnd (s : State) (p : Nat) : State :=
  if s.grid.cyc.isSome && decide (s.get R.CB_ACYC_END_TICKS ≤ s.intoCycle) then
    (s.portPartners p).foldl (fun s q => s.updPart q fun x => { x with t1 := none }) s
  else s

/-- ACYC_WINDOW_END (R119). -/
def execAcycWindowEnd (p : Fin 4) (s : State) : Out := .next (s.acycEnd p)

/-- A partner of port `p` is in REFERENCE mode. -/
def State.refPartner (s : State) (p : Nat) : Bool := (s.portPartners p).any fun q => decide (s.get R.CB_PS_SYNC_SYNC_MODE q = 2)

/-- The effect of REFERENCE_LAUNCH. -/
def State.refLaunch (s : State) (p : Nat) : State :=
  if !s.grid.cyc.isSome || s.notHolder || !s.canSend p || !s.bit R.CB_REF_CFG_EN p || !s.refPartner p
      || decide (s.intoCycle < s.get R.CB_REF_CFG_OFFSET p) || decide ((s.port p).lastRef = some s.cycle) then s
  else
    let f : TxFrame :=
      { ftype := 1, slot := 0xFFFF, cycle := s.cycle % 2 ^ 32, epoch := s.txEpoch, partner := 0x7FF, layout := 0,
        payload := beBytes 6 s.sec ++ beBytes 4 s.ns ++ beBytes 4 s.cycleNs ++ [0, 0], pn := 0, tick := s.tick }
    (s.launch p f).updPort p fun x => { x with lastRef := some s.cycle }

/-- REFERENCE_LAUNCH (R121). -/
def execReferenceLaunch (p : Fin 4) (s : State) : Out := .next (s.refLaunch p)

/-- The effect of PARTNER_ACTIVATE: a granted partner becomes ACTIVE in its activation cycle. -/
def State.activate (s : State) (q : Nat) : State :=
  match (s.part q).grantAt with
  | some a =>
    if s.ptState q = 2 ∧ s.grid.cyc.isSome ∧ a ≤ s.cycle then
      let s := (s.set R.CB_PT_STATE_STATE q 3).updPart q fun x => { x with grantAt := none }
      (s.fromSlots q).foldl (fun s i => s.updSlot i fun x => { x with run := 0 }) s
    else s
  | none => s

/-- PARTNER_ACTIVATE (R124). -/
def execPartnerActivate (p : Fin 1024) (s : State) : Out := .next (s.activate p)

/-- JOIN_LIMIT in cycles. -/
def State.joinLimit (s : State) : Nat := if s.get R.CB_SYNC_CFG_JOIN_LIMIT = 0 then 4096 else s.get R.CB_SYNC_CFG_JOIN_LIMIT

/-- The effect of CB_JOIN_TIMEOUT. -/
def State.joinTimeout (s : State) (q : Nat) : State :=
  if s.ptState q ≠ 2 then s
  else
    s.detect (112 + s.get R.CB_PT_CFG_PORT q) q (decide (s.joinLimit ≤ (s.part q).joinCount)) fun inj s =>
      (s.post Ev.cbJoinTimeout .notice (some q) [item (s.joinUnmet q)] false inj).updPart q fun x => { x with joinCount := 0 }

/-- CB_JOIN_TIMEOUT (R125). -/
def execCbJoinTimeout (p : Fin 1024) (s : State) : Out := .next (s.joinTimeout p)

/-! ### Boundaries, enable, disable and windows -/

/-- Slot `i` at the end of cycle `m`: its buffers exchange, and its registers show the cycle (R110, R111, R126). DESIGN CHOICE (log
112): a hand-over that came after its cutoff stays ready for the next due launch. DESIGN CHOICE (log 113): TICK and DEV of a slot that
was not due, or that has no such value, stay as they are. -/
def State.slotEnd (s : State) (m i : Nat) : State :=
  if !s.slotDue i m then ((s.set R.CB_SLOT_ARR_CLASS i 0).setBit R.CB_SLOT_STAT_MISSING i false).showFresh i
  else
    let y := s.slot i
    let start := s.grid.start
    match s.get R.CB_SL_A_DIR i with
    | 2 =>
      let s := s.updSlot i fun x =>
        { x with fill := if x.freshNow then x.heldBuf else x.fill, heldBuf := if x.freshNow then x.fill else x.heldBuf,
                 heldArr := if x.freshNow then x.arr else x.heldArr, freshHeld := x.freshNow, freshNow := false, missNow := false,
                 injMiss := false, cls := 0, dev := 0 }
      (s.showSlot i (y.arr - start) y.cls y.dev y.missNow).showFresh i
    | 1 =>
      let s := s.updSlot i fun x =>
        { x with fill := if x.sent then x.heldBuf else x.fill, heldBuf := if x.sent then x.fill else x.heldBuf,
                 ready := x.ready && !x.sent, sent := false, cls := 0 }
      (s.showSlot i (y.arr - start) y.cls 0 false).showFresh i
    | _ => s

/-- Every to-partner slot due on port `p` in cycle `m` was launched, with the port UP throughout (R123). -/
def State.allSent (s : State) (p m : Nat) : Bool :=
  (s.port p).upAll && (s.slotsUsed.filter fun i =>
    decide (s.get R.CB_SL_A_DIR i = 1) && decide (s.get R.CB_SL_A_PORT i = p) && s.slotDue i m).all fun i =>
      decide ((s.slot i).launched = some m) && decide ((s.slot i).cls = 4 ∨ (s.slot i).cls = 5)

/-- The slot engine at the end of cycle `m`. -/
def State.busEnd (s : State) (m : Nat) : State :=
  let s := (List.range 4).foldl (fun s p =>
    if s.allSent p m then
      { s with cb := { s.cb with goodCycles := Tab.upd (fun _ => []) s.cb.goodCycles p fun l => (l ++ [m]).drop (l.length - 64) } }
    else s) s
  s.slotsUsed.foldl (fun s i => s.slotEnd m i) s

/-- The slot engine at the start of a cycle: tokens are added, and the frames of a cycle are counted afresh (R94, R125). -/
def State.busStart (s : State) : State :=
  let s := (List.range 6).foldl (fun s p => s.updPort p fun x => { x with upAll := s.up p, acyTick := 0 }) s
  s.partnersUsed.foldl (fun s q => s.updPart q fun x =>
    { x with tokens := min (s.get R.CB_PT_POLICE_BURST q) (x.tokens + s.get R.CB_PT_POLICE_RATE q), refSeen := false, delaySeen := false,
             joinSeen := false, joinCount := if s.ptState q = 2 then x.joinCount + 1 else 0 }) s

/-- No port has sent a REFERENCE frame of a session that begins or ends (R121). -/
def State.forgetRefs (s : State) : State := (List.range 4).foldl (fun s p => s.updPort p fun x => { x with lastRef := none }) s

/-- Partners and slots when the cell is enabled: every partner is ABSENT, every buffer holds zeros. -/
def State.busEnable (s : State) : State :=
  let s := s.forgetRefs
  let s : State := { s with cb := { s.cb with slot := [], partner := [], goodCycles := [] } }
  let s := s.slotsUsed.foldl (fun s i =>
    let z := List.replicate (s.slotLen i) (0 : Byte)
    s.updSlot i fun x => { x with fill := z, heldBuf := z }) s
  s.partnersUsed.foldl (fun s q =>
    ((s.set R.CB_PT_STATE_STATE q 1).set R.CB_PT_STATE_QCAUSE q 0).updPart q fun x => { x with tokens := s.get R.CB_PT_POLICE_BURST q }) s

/-- Partners when the cell is disabled: every partner is ABSENT, the window counts are cleared (R96). DESIGN CHOICE (log 114): the token
buckets are empty until the next enable, so no ACYCLIC frame passes check 10 meanwhile. -/
def State.busDisable (s : State) : State :=
  s.forgetRefs.partnersUsed.foldl (fun s q =>
    (((s.set R.CB_PT_STATE_STATE q 1).set R.CB_PT_STATE_QCAUSE q 0).set R.CB_PS_SYNC_SYNC_MODE q 0).updPart q fun _ => {}) s.forgetRefs

/-- The counts of a window start afresh (R85, R97, R117). -/
def State.busWindow (s : State) : State :=
  s.partnersUsed.foldl (fun s q => (s.set R.CB_PS_WIN_EDGE_WIN q 0).updPart q fun x => { x with ownWin := 0, polWin := 0 }) s

/-- POSITION of a partner entry was written while the cell is disabled. -/
def State.partnerConf (s : State) (q : Nat) : State :=
  s.set R.CB_PT_STATE_STATE q (if s.get R.CB_PT_CFG_POSITION q = 0 then 0 else 1)

end Sys2Proof.Machine
end

