-- ==== Sys2Proof/Machine/MoveEngine.lean ====
section
/-! DEFINITION. The move engines: the channel address space, MOVE, LOOP, WAIT and SIGNAL, passes, stops, bus errors and
ME_CTRL (chapter 13). -/
namespace Sys2Proof.Machine

/-- Channel `c`. -/
def State.me1 (s : State) (c : Nat) : MeChan := Tab.get (fun _ => {}) s.me.chan c

/-- Change channel `c`. -/
def State.updMe (s : State) (c : Nat) (f : MeChan → MeChan) : State :=
  { s with me := { s.me with chan := Tab.upd (fun _ => {}) s.me.chan c f } }

/-- The instruction word address of channel `c`. -/
def State.meIaddr (s : State) (c : Nat) : Nat := s.get R.ME_STATE_IADDR c

/-- Go on at another program word. -/
def State.meGoto (s : State) (c w : Nat) : State := s.set R.ME_STATE_IADDR c (w % 4096)

/-- Nothing holds channel `c` back from an instruction: it is not WAITING, HALTED or STOPPED, and at no barrier. -/
def State.meFree (s : State) (c : Nat) : Bool := !([2, 4, 5].contains (s.get R.ME_STATE_STATE c)) && !(s.me1 c).barrier

/-! ### Reads and writes (R316, R317, R331) -/

/-- Tiller `n` is powered down: its island's off condition, or FORCE_OFF (R452). -/
def State.tillerDown (s : State) (n : Nat) : Bool :=
  !s.bit R.TL_CFG_EN n || hasBit (s.get (if n < 32 then R.PW_FORCE_OFF_A else R.PW_FORCE_OFF_B)) (n % 32)

/-- The bytes from an address to the end of its target. -/
def State.meRoom (s : State) (a : Nat) : Nat :=
  match s.meLoc a with
  | .slot i off => s.slotLen i - off
  | .granary w b => 4 * (granaryWords - w) - b
  | .tlx _ w b => 2048 - 4 * w - b
  | .fbin _ off => 8 - off
  | .unmapped => 0

/-- The cause of the bus error that an access of `n` bytes meets; 0 for none. -/
def State.meCause (s : State) (c a n : Nat) (write : Bool) : Nat :=
  if s.meRoom a < n then 1
  else
    match s.meLoc a with
    | .slot i _ => if write && !(decide (s.get R.CB_SL_A_DIR i = 1) && s.slotMe i == some c) then 3 else 0
    | .granary w _ => if 1 < n ∧ a % n ≠ 0 then 2 else if write && decide (s.kindOf w ≠ 3) then 3 else 0
    | .tlx t _ _ => if 1 < n ∧ a % n ≠ 0 then 2 else if s.tillerDown t then 4 else 0
    | .fbin _ _ => if write then 0 else 1
    | .unmapped => 1

/-- The buffer of slot `i` that channel `c` reads (R110, R116, R317): the bound channel the fill buffer once its frame is committed and
the substitute data once the slot is missing or where it is not due in the channel's pass, every other reader the held buffer. -/
def State.meSlotRead (s : State) (c i : Nat) : List Byte :=
  let x := s.slot i
  if s.get R.CB_SL_A_DIR i ≠ 2 then x.fill
  else if s.slotMe i = some c && x.freshNow then x.fill
  else if s.slotMe i = some c && (x.missNow || !s.slotDue i (s.me1 c).passCycle) then s.substData i
  else s.heldView i

/-- A byte as channel `c` reads it. -/
def State.meByte (s : State) (c a : Nat) : Byte :=
  match s.meLoc a with
  | .slot i off => (s.meSlotRead c i).getD off 0
  | .granary w b => (wordBytes (s.grRead w)).getD b 0
  | .tlx n w b => (wordBytes ((s.til n).rdX w)).getD b 0
  | _ => 0

/-- `n` bytes as channel `c` reads them. -/
def State.meRead (s : State) (c a n : Nat) : List Byte := (List.range n).map fun j => s.meByte c (a + j)

/-- A word with byte `b` replaced. -/
def putByte (w : Word) (b : Nat) (v : Byte) : Word := withBits w (8 * b + 7) (8 * b) v.toNat

/-- A list of bytes with those from `i` on replaced. -/
def overlay (l : List Byte) (i : Nat) (v : List Byte) : List Byte := l.take i ++ v ++ l.drop (i + v.length)

/-- X word `w` of Tiller `n` as an external write finds it: the last value held for it, else the stored one. -/
def State.xPending (s : State) (n w : Nat) : Word :=
  (((s.til n).held.reverse.find? fun h => h.addr == w).map fun h => h.val).getD ((s.til n).rdX w)

/-- Write bytes to the X memory of Tiller `n` from byte `b` of word `w`, word by word. -/
def State.xBytes (s : State) (c n w b : Nat) (v : List Byte) : State :=
  (List.range ((b + v.length + 3) / 4)).foldl (fun s k =>
    let word := (List.range 4).foldl (fun x j =>
      if b ≤ 4 * k + j ∧ 4 * k + j < b + v.length then putByte x j (v.getD (4 * k + j - b) 0) else x) (s.xPending n (w + k))
    s.xWrite n (w + k) word (some c)) s

/-- The bytes of the position word of feedback channel `n`. -/
def State.fbBytes (s : State) (n : Nat) : Nat := (s.get R.FB_SERIAL_RAW_BITS n + 7) / 8

/-- Write bytes to FBIN `n`; the last byte of the position word starts the channel's update (R324). -/
def State.fbinWrite (s : State) (c n off : Nat) (v : List Byte) : State :=
  let l := overlay (Tab.get (fun _ => List.replicate 8 (0 : Byte)) s.me.fbin n) off v
  let s := { s with me := { s.me with fbin := Tab.put (fun _ => List.replicate 8 (0 : Byte)) s.me.fbin n l } }
  if off ≤ s.fbBytes n - 1 ∧ s.fbBytes n - 1 < off + v.length then
    (s.updMe c fun x => { x with fbins := x.fbins ++ [n] }).fbPend n (.word (beNat (l.take (s.fbBytes n))))
  else s

/-- Write bytes at an address. -/
def State.meWrite (s : State) (c a : Nat) (v : List Byte) : State :=
  match s.meLoc a with
  | .slot i off => s.updSlot i fun x => { x with fill := overlay x.fill off v }
  | .granary w b =>
    (List.range v.length).foldl (fun s j =>
      let k := w + (b + j) / 4
      s.grPut k (putByte (s.gr2 k) ((b + j) % 4) (v.getD j 0))) s
  | .tlx n w b => s.xBytes c n w b v
  | .fbin n off => s.fbinWrite c n off v
  | .unmapped => s

/-! ### Stops and bus errors (R330 to R333) -/

/-- Write the residue with a reason. -/
def State.meResidue (s : State) (c reason : Nat) : State :=
  let x := s.me1 c
  let s := (((s.set R.ME_RESIDUE_A_IADDR c (s.meIaddr c)).set R.ME_RESIDUE_A_STREAM c x.strm).set R.ME_RESIDUE_A_ELEM c x.elem).set
    R.ME_RESIDUE_A_REASON c reason
  (s.set R.ME_RESIDUE_B_REMAIN c x.remain).set R.ME_RESIDUE_B_CYCLE c (s.cycle % 65536)

/-- Complete the open START of channel `c` with the residue. -/
def State.meComplete (s : State) (c reason : Nat) : State :=
  match (s.me1 c).start with
  | none => s
  | some d =>
    (s.complete (dkey d) { reason, a := s.regs.word .me (R.ME_RESIDUE_A_IADDR.addr c), b := s.regs.word .me (R.ME_RESIDUE_B_REMAIN.addr c) }).updMe
      c fun x => { x with start := none }

/-- The channel stops in a state with a residue reason; its START completes. -/
def State.meStop (s : State) (c state residue reason : Nat) : State :=
  let s := ((s.meResidue c residue).meComplete c reason).set R.ME_STATE_STATE c state
  s.updMe c fun x => { x with cursor := 0, strm := 0, elem := 0, remain := 0, heldMove := none, wait := none, barrier := false, inPass := false }

/-- A bus error at an element (R332): address, direction, cause, stream, element and elements not moved. -/
structure MeErr where
  addr : Nat
  write : Bool
  cause : Nat
  strm : Nat
  elem : Nat
  remain : Nat
  inj : Bool
  deriving DecidableEq, Repr

/-- The channel halts on a bus error. -/
def State.meHalt (s : State) (c : Nat) (e : MeErr) : State :=
  let w := s.meIaddr c
  let s := (((s.set R.ME_ERR_ADDR c e.addr).setBit R.ME_ERR_INFO_DIR c e.write).set R.ME_ERR_INFO_CAUSE c e.cause).set R.ME_ERR_INFO_IADDR c w
  let s := ((s.set R.ME_ERR_INFO_STREAM c e.strm).set R.ME_ERR_INFO_ELEM c e.elem).inc R.ME_COUNT_BUS_ERR c
  let s := (s.updMe c fun x => { x with strm := e.strm, elem := e.elem, remain := e.remain }).meStop c 4 4 5
  let cyc := s.bit R.ME_CFG_CYCLIC c
  let s := s.post Ev.meBusErr .fault (some c) [] cyc e.inj
  if cyc then s.fault (s.get R.ME_STATE_ARM_MASK c) .ss1 Ev.meBusErr (some c) else s

/-! ### MOVE (R319, R320, R323 to R325) -/

/-- What one unit of a MOVE does: it is done, it fails at an element, or it is held by a Tiller's run (R161). -/
inductive MeStep where
  | done (s : State)
  | fail (s : State) (e : MeErr)
  | held (s : State) (tiller : Nat)

/-- The value bytes of an element as SWAP gives them. -/
def swapped (swap : Bool) (l : List Byte) : List Byte := if swap then l.reverse else l

/-- Bytes of a plane word (R320). -/
def planeBytes (m : MoveOp) : Nat := if mvS m ≤ 32 then 4 else 8

/-- The running Tiller that holds a read at an address (R161). -/
def State.meHeldRead (s : State) (a : Nat) : Option Nat :=
  match s.meLoc a with | .tlx n _ _ => if (s.til n).running then some n else none | _ => none

/-- The words that `n` bytes from byte `b` of word `w` lie in. -/
def spanWords (w b n : Nat) : List Nat := (List.range ((b + n + 3) / 4)).map fun k => w + k

/-- The words of a source of `n` bytes are read: whether one of them was uncorrectable (R178, R331). -/
def State.meEcc (s : State) (a n : Nat) : Bool × State :=
  match s.meLoc a with
  | .granary w b => (spanWords w b n).foldl (fun (r : Bool × State) a => (r.1 || (r.2.granaryRead a).1, (r.2.granaryRead a).2)) (false, s)
  | .tlx t w b => (spanWords w b n).foldl (fun (r : Bool × State) a => (r.1 || (r.2.tillerRead t 1 a).1, (r.2.tillerRead t 1 a).2)) (false, s)
  | _ => (false, s)

/-- The reads of a unit, in order, up to the first uncorrectable one: its place. -/
def State.unitEcc (s : State) (len : Nat) : List Nat → Nat → Option Nat × State
  | [], _ => (none, s)
  | a :: l, j =>
    match s.meEcc a len with
    | (true, s) => (some j, s)
    | (false, s) => State.unitEcc s len l (j + 1)

/-- An injected bus error of channel `c` at one of the elements `k` to `k + n - 1` of the MOVE in progress (R477): its cause and
element. -/
def State.meInject (s : State) (c k n : Nat) : Option (Nat × Nat) × State :=
  match (List.range 16).find? fun j =>
      let x := Tab.get (fun _ => ({} : Inj)) s.inj j
      s.injActive x && x.index == 969 + c && (x.inst == 0xFFFF || x.inst == c) && param x.params 1 == s.meIaddr c
        && decide (k ≤ param x.params 2 ∧ param x.params 2 < k + n) with
  | none => (none, s)
  | some j =>
    let x := Tab.get (fun _ => ({} : Inj)) s.inj j
    (some (param x.params 0, param x.params 2), s.injFire j x c)

/-- The accesses of one unit: reads, then writes, each an address and a length. -/
structure MeUnit where
  strm : Nat
  elem : Nat
  first : Nat
  count : Nat
  remain : Nat
  reads : List Nat
  rlen : Nat
  writes : List Nat
  wlen : Nat
  deriving DecidableEq, Repr

/-- The units of a COPY: its elements in the order of R319. -/
def copyUnits (m : MoveOp) : List MeUnit :=
  (List.range (mvS m * mvK m)).map fun j =>
    let i := j / mvK m
    let k := j % mvK m
    { strm := i, elem := k, first := j, count := 1, remain := mvS m * mvK m - j, reads := [mvSrc m i k], rlen := mvBytes m,
      writes := [mvDst m i k], wlen := mvBytes m }

/-- The units of a PACK or UNPACK: its indices k, each with all its reads and writes (R320, R331). -/
def planeUnits (pack : Bool) (m : MoveOp) : List MeUnit :=
  (List.range (mvK m)).map fun k =>
    let elems := fun (base : Nat) (str est : BitVec 16) => (List.range (mvS m)).map fun i => base + i * str.toNat + k * est.toNat
    let planes := fun (base : Nat) (str est : BitVec 16) => (List.range (8 * mvBytes m)).map fun b => base + k * est.toNat + b * str.toNat
    if pack then
      { strm := 0, elem := k, first := k * mvS m, count := mvS m, remain := mvS m * (mvK m - k), reads := elems m.src.toNat m.sstr m.sest,
        rlen := mvBytes m, writes := planes m.dst.toNat m.dstr m.dest, wlen := planeBytes m }
    else
      { strm := 0, elem := k, first := k * mvS m, count := mvS m, remain := mvS m * (mvK m - k), reads := planes m.src.toNat m.sstr m.sest,
        rlen := planeBytes m, writes := elems m.dst.toNat m.dstr m.dest, wlen := mvBytes m }

/-- The byte strings that a unit writes, from those it read. -/
def unitData (mode : Nat) (m : MoveOp) (l : List (List Byte)) : List (List Byte) :=
  match mode with
  | 0 => l.map (swapped m.swap)
  | 1 =>
    let v := l.map fun e => leNat (swapped m.swap e)
    (List.range (8 * mvBytes m)).map fun b =>
      (beBytes (planeBytes m) (maskOf ((List.range (mvS m)).filter fun i => hasBit (v.getD i 0) b))).reverse
  | _ =>
    let p := l.map leNat
    (List.range (mvS m)).map fun i =>
      swapped m.swap (beBytes (mvBytes m) (maskOf ((List.range (8 * mvBytes m)).filter fun b => hasBit (p.getD b 0) i))).reverse

/-- The first of a unit's accesses that meets a bus error: its place in its list, address, direction and cause. -/
def State.unitCause (s : State) (c : Nat) (u : MeUnit) : Option (Nat × Nat × Bool × Nat) :=
  let look := fun (l : List Nat) (n : Nat) (w : Bool) =>
    (List.range l.length).findSome? fun j =>
      let a := l.getD j 0
      let k := s.meCause c a n w
      if k = 0 then none else some (j, a, w, k)
  (look u.reads u.rlen false).orElse fun _ => look u.writes u.wlen true

/-- One unit of a MOVE of mode 0 COPY, 1 PACK or 2 UNPACK. -/
def State.meUnit (s : State) (c mode : Nat) (m : MoveOp) (u : MeUnit) : MeStep :=
  let err := fun (j : Nat) (a : Nat) (w : Bool) (k : Nat) (inj : Bool) =>
    ({ addr := a, write := w, cause := k, strm := if mode = 0 then u.strm else j % mvS m, elem := u.elem, remain := u.remain, inj } : MeErr)
  match s.meInject c u.first u.count with
  | (some (k, n), s) =>
    let l := if k = 3 then u.writes else u.reads
    .fail s (err (n - u.first) (l.getD (n - u.first) (l.headD 0)) (decide (k = 3)) k true)
  | (none, s) =>
    match s.unitCause c u with
    | some (j, a, w, k) => .fail s (err j a w k false)
    | none =>
      match u.reads.findSome? s.meHeldRead with
      | some n => .held (s.inc R.ME_COUNT_HELD c) n
      | none =>
        match s.unitEcc u.rlen u.reads 0 with
        | (some j, s) => .fail s (err j (u.reads.getD j 0) false 5 false)
        | (none, s) =>
          let data := unitData mode m (u.reads.map fun a => s.meRead c a u.rlen)
          .done ((u.writes.zip data).foldl (fun s w => s.meWrite c w.1 w.2) s)

/-- The MOVE has run to its end: the next instruction, behind the barrier if it has one. -/
def State.moveEnd (s : State) (c : Nat) (m : MoveOp) : State :=
  (s.updMe c fun x => { x with cursor := 0, strm := 0, elem := 0, remain := 0, heldMove := none, barrier := m.barrier }).meGoto c (s.meIaddr c + 5)

/-- The MOVE is held before a unit: the channel goes on from there, at the END of the Tiller that holds it, if one does (R161). -/
def State.moveHold (s : State) (c cursor : Nat) (u : MeUnit) (by_ : Option (Nat × Nat × MoveOp)) : State :=
  s.updMe c fun x => { x with cursor := cursor, strm := u.strm, elem := u.elem, remain := u.remain, heldMove := by_ }

/-- Run the units of a MOVE from number `j` on, at most up to number `stop`. -/
def State.moveRun (c mode : Nat) (m : MoveOp) (stop : Option Nat) : List MeUnit → Nat → State → State
  | [], _, s => s.moveEnd c m
  | u :: l, j, s =>
    if stop = some j then s.moveHold c j u none
    else
      match s.meUnit c mode m u with
      | .done t => State.moveRun c mode m stop l (j + 1) t
      | .held t n => t.moveHold c j u (some (n, mode, m))
      | .fail t e => t.meHalt c e

/-- The number of units after `b` bursts: sixteen consecutive elements of one stream of a COPY, one index k of a PACK or
UNPACK (R331). -/
def burstUnits (mode : Nat) (m : MoveOp) (b : Nat) : Nat :=
  if mode ≠ 0 then b
  else
    let per := (mvK m + 15) / 16
    b / per * mvK m + min (mvK m) (16 * (b % per))

/-- The feedback channels whose FBIN a MOVE writes. -/
def State.moveFbins (s : State) (mode : Nat) (m : MoveOp) : List Nat :=
  let dst := ((if mode = 0 then copyUnits m else planeUnits (decide (mode = 1)) m).flatMap fun u => u.writes)
  (dst.filterMap fun a => match s.meLoc a with | .fbin n _ => some n | _ => none).eraseDups

/-- The update of feedback channel `n` without a measurement, in a cycle in which its slot's divisor and phase make it due. -/
def State.meNoSample (s : State) (cycle n : Nat) : State :=
  let i := s.get R.FB_CFG_SRC n
  if s.slotDue i cycle then s.fbPend n (.missing (s.slotPartnerActive i)) else s

/-- A MOVE that COND skips (R323). -/
def State.moveSkip (s : State) (c mode : Nat) (m : MoveOp) : State :=
  let l := s.moveFbins mode m
  let s := l.foldl (State.meNoSample · (s.me1 c).passCycle) s
  (s.updMe c fun x => { x with fbins := x.fbins ++ l }).meGoto c (s.meIaddr c + 5)

/-- A channel executes a MOVE: skipped on COND 0, else from where it was held, to its end or to the burst at which it is held. -/
def State.meMove (s : State) (c mode : Nat) (m : MoveOp) : State :=
  if !s.meFree c then s
  else if m.cond && !s.bit R.ME_STATE_COND c then s.moveSkip c mode m
  else
    let l := if mode = 0 then copyUnits m else planeUnits (decide (mode = 1)) m
    let j := (s.me1 c).cursor
    State.moveRun c mode m (m.bursts.map (burstUnits mode m)) (l.drop j) j s

/-- At the END of Tiller `n` the gathers that it held are served: their MOVEs go on (R161). -/
def State.serveGathers (s : State) (n : Nat) : State :=
  (List.range 16).foldl (fun s c =>
    match (s.me1 c).heldMove with
    | some (t, mode, m) => if t = n ∧ (s.til n).running = false then (s.updMe c fun x => { x with heldMove := none }).meMove c mode m else s
    | none => s) s

/-- The effect of TL_END: the END instruction is fetched (R178), the actions at END follow, and the gathers that the run held are
served. -/
def State.endRun (s : State) (n : Nat) : State :=
  if (s.til n).running then (s.fetched n [] fun s => s.tlEnd n).serveGathers n else s

/-- TL_END (R180). -/
def execTlEnd (n : Fin 64) (s : State) : Out := .next (s.endRun n)

/-- ME_MOVE_COPY (R319). -/
def execMeMoveCopy (c : Fin 16) (m : MoveOp) (s : State) : Out := .next (s.meMove c 0 m)

/-- ME_MOVE_PACK (R320). -/
def execMeMovePack (c : Fin 16) (m : MoveOp) (s : State) : Out := .next (s.meMove c 1 m)

/-- ME_MOVE_UNPACK (R320). -/
def execMeMoveUnpack (c : Fin 16) (m : MoveOp) (s : State) : Out := .next (s.meMove c 2 m)

/-- The effect of ME_BARRIER_RELEASE. -/
def State.meBarrier (s : State) (c : Nat) : State := s.updMe c fun x => { x with barrier := false }

/-- ME_BARRIER_RELEASE (R325). -/
def execMeBarrierRelease (c : Fin 16) (s : State) : Out := .next (s.meBarrier c)

/-! ### LOOP, WAIT and SIGNAL (R321) -/

/-- The effect of LOOP. -/
def State.meLoop (s : State) (c target count : Nat) : State :=
  if !s.meFree c then s
  else
    let w := s.meIaddr c
    let k := Tab.get (fun _ => 0) (s.me1 c).loops w
    if count = 0 then s.meGoto c target
    else if k < count then (s.updMe c fun x => { x with loops := Tab.put (fun _ => 0) x.loops w (k + 1) }).meGoto c target
    else (s.updMe c fun x => { x with loops := Tab.put (fun _ => 0) x.loops w 0 }).meGoto c (w + 1)

/-- ME_LOOP (R321). -/
def execMeLoop (c : Fin 16) (target : BitVec 12) (count : BitVec 16) (s : State) : Out := .next (s.meLoop c target.toNat count.toNat)

/-- Slot `i` has committed a frame in the pass of cycle `n`. -/
def State.slotGot (s : State) (n i : Nat) : Bool :=
  s.slotDue i n && (if s.cycle = n then (s.slot i).freshNow else (s.slot i).freshHeld)

/-- Slot `i` is decided in the pass of cycle `n`. A slot whose partner is neither ACTIVE nor QUARANTINED, which R114 never
declares missing, counts as decided at the tick R114 gives. -/
def State.slotDecided (s : State) (n i : Nat) : Bool :=
  let st := s.ptState (s.get R.CB_SL_B_PARTNER i)
  !s.slotDue i n || decide (s.cycle ≠ n) || decide ((s.slot i).cls = 1 ∨ (s.slot i).cls = 2) || (s.slot i).declared == some n
    || (st != 3 && st != 4 && decide (s.get R.CB_SL_A_OFFSET i + 25 + s.step3 i ≤ s.intoCycle))

/-- A task of Tiller `t` is released in cycle `n`, as far as its source tells: a due feedback channel, a due cycle, or a job
that waits. -/
def State.hasRun (s : State) (n t : Nat) : Bool :=
  s.bit R.TL_CFG_EN t && s.tasks.any fun i =>
    decide (s.target i = t) &&
      match s.get R.SCH_TASK_A_RELEASE i with
      | 1 =>
        let f := s.get R.SCH_TASK_D_FB i
        decide (s.get R.FB_CFG_KIND f ≠ 0) && (decide (s.get R.FB_CFG_KIND f ≠ 1) || s.slotDue (s.get R.FB_CFG_SRC f) n)
      | 2 => decide (n % max 1 (s.get R.SCH_TASK_D_MULT i) = s.get R.SCH_TASK_D_PHASE i)
      | _ => (s.task i).ready.isSome

/-- Tiller `t` has executed END in the pass of cycle `n`, or has no run in it. -/
def State.tillerEnded (s : State) (n t : Nat) : Bool :=
  !(s.til t).running && (!s.hasRun n t || (match (s.til t).endCycle with | some m => decide (n ≤ m) | none => false))

/-- The WAIT of channel `c` on `w` is satisfied. -/
def State.waitMet (s : State) (c : Nat) (w : MeWait) : Bool :=
  let n := (s.me1 c).passCycle
  match w with
  | .slot i k => (List.range k).all fun j => s.slotDecided n (i + j)
  | .tiller i k => (List.range k).all fun j => s.tillerEnded n (i + j)
  | .time t => decide (t ≤ s.tick)
  | .boundary _ => false
  | .flag h => (s.me1 h).flag

/-- What the WAIT does as it completes, and the words it occupies. -/
def State.waitDone (s : State) (c : Nat) (w : MeWait) : State :=
  let n := (s.me1 c).passCycle
  let s :=
    match w with
    | .slot i k => s.setBit R.ME_STATE_COND c ((List.range k).all fun j => s.slotGot n (i + j))
    | .flag h => s.updMe h fun x => { x with flag := false }
    | _ => s
  (s.updMe c fun x => { x with wait := none }).meGoto c (s.meIaddr c + match w with | .time _ => 2 | _ => 1)

/-- A channel reaches a WAIT: it completes at once, or the channel waits. -/
def State.meWait (s : State) (c : Nat) (w : MeWait) : State :=
  if !s.meFree c then s
  else if s.waitMet c w then s.waitDone c w
  else (s.updMe c fun x => { x with wait := some w }).set R.ME_STATE_STATE c 2

/-- ME_WAIT_SLOT (R321). -/
def execMeWaitSlot (c : Fin 16) (index : BitVec 13) (num : BitVec 6) (s : State) : Out :=
  .next (s.meWait c (.slot index.toNat (num.toNat + 1)))

/-- ME_WAIT_TILLER (R321). -/
def execMeWaitTiller (c : Fin 16) (index : BitVec 13) (num : BitVec 6) (s : State) : Out :=
  .next (s.meWait c (.tiller index.toNat (num.toNat + 1)))

/-- WAIT TIME: a time already past counts in WAIT_LATE. -/
def State.meWaitTime (s : State) (c off : Nat) : State :=
  let t := (s.me1 c).passStart + off
  let s := if s.meFree c && decide (t < s.tick) then s.inc R.ME_COUNT_WAIT_LATE c else s
  s.meWait c (.time t)

/-- ME_WAIT_TIME (R321). -/
def execMeWaitTime (c : Fin 16) (offset : BitVec 17) (s : State) : Out := .next (s.meWaitTime c offset.toNat)

/-- ME_WAIT_FLAG (R321). -/
def execMeWaitFlag (c ch : Fin 16) (s : State) : Out := .next (s.meWait c (.flag ch))

/-- WAIT BOUNDARY: in a cyclic program it ends the pass (R322). -/
def State.meWaitBoundary (s : State) (c : Nat) (solver : Bool) : State :=
  if !s.meFree c then s
  else
    let s := s.meWait c (.boundary solver)
    if s.bit R.ME_CFG_CYCLIC c then
      let t := min (s.tick - (s.me1 c).passStart) 65535
      let s := (s.setBit R.ME_STATE_COND c true).updMe c fun x => { x with inPass := false }
      (s.set R.ME_TIME_PASS_LAST c t).raiseTo R.ME_TIME_PASS_MAX c t
    else s

/-- ME_WAIT_BOUNDARY (R322). -/
def execMeWaitBoundary (c : Fin 16) (solver : Bool) (s : State) : Out := .next (s.meWaitBoundary c solver)

/-- The effect of ME_WAIT_COMPLETE: the WAIT a channel is held at completes if it is satisfied. -/
def State.meWaitComplete (s : State) (c : Nat) : State :=
  match (s.me1 c).wait with
  | some w => if s.waitMet c w then (s.waitDone c w).set R.ME_STATE_STATE c 3 else s
  | none => s

/-- ME_WAIT_COMPLETE (R321). -/
def execMeWaitComplete (c : Fin 16) (s : State) : Out := .next (s.meWaitComplete c)

/-- The next instruction word. -/
def State.meNext (s : State) (c : Nat) : State := s.meGoto c (s.meIaddr c + 1)

/-- SIGNAL HANDOVER: the fill buffer of a to-partner slot is ready (R108). -/
def State.meHandover (s : State) (c i : Nat) : State :=
  if !s.meFree c then s else (s.updSlot i fun x => { x with ready := true, readyTick := s.tick, slow := s.paceLost 9 }).meNext c

/-- ME_SIGNAL_HANDOVER (R321). -/
def execMeSignalHandover (c : Fin 16) (slot : Fin 8192) (s : State) : Out := .next (s.meHandover c slot)

/-- SIGNAL FLAG. -/
def State.meFlag (s : State) (c h : Nat) : State := if !s.meFree c then s else (s.updMe h fun x => { x with flag := true }).meNext c

/-- ME_SIGNAL_FLAG (R321). -/
def execMeSignalFlag (c ch : Fin 16) (s : State) : Out := .next (s.meFlag c ch)

/-- SIGNAL EVENT: ME_MARK with INDEX. -/
def State.meMark (s : State) (c i : Nat) : State := if !s.meFree c then s else (s.post Ev.meMark .info (some c) [item i]).meNext c

/-- ME_SIGNAL_EVENT (R321). -/
def execMeSignalEvent (c : Fin 16) (index : BitVec 13) (s : State) : Out := .next (s.meMark c index.toNat)

/-- SIGNAL DONE: the program ends, and its START completes. -/
def State.meDone (s : State) (c : Nat) : State := if !s.meFree c then s else s.meStop c 1 1 0

/-- ME_SIGNAL_DONE (R321, R329). -/
def execMeSignalDone (c : Fin 16) (s : State) : Out := .next (s.meDone c)

/-! ### Passes (R322, R326) -/

/-- Channel `c` serves passes. -/
def State.meCyclic (s : State) (c : Nat) : Bool := s.bit R.ME_CFG_EN c && s.bit R.ME_CFG_CYCLIC c

/-- The feedback channels whose FBIN the program of channel `c` writes. -/
def State.meFeeds (s : State) (c : Nat) : List Nat :=
  ((s.meProgram c).flatMap fun e => match e.2 with | .move k m => s.moveFbins k m | _ => []).eraseDups

/-- A pass still running at the boundary is abandoned. -/
def State.mePassLate (s : State) (c : Nat) (injected : Bool) : State :=
  let x := s.me1 c
  let s := (s.meStop c 3 5 0).inc R.ME_COUNT_PASS_LATE c
  let s := s.post Ev.mePassLate .fault (some c) [] false injected
  ((s.meFeeds c).filter fun n => !x.fbins.contains n).foldl (State.meNoSample · x.passCycle) s

/-- Channel `c` at a boundary, before the new cycle begins. -/
def State.mePassEnd (s : State) (c : Nat) : State :=
  if !s.meCyclic c ∨ !([2, 3].contains (s.get R.ME_STATE_STATE c)) then s
  else s.detect (985 + c) c (s.me1 c).inPass fun inj s => s.mePassLate c inj

/-- Channel `c` as cycle `n` begins: a pass starts; a halted or stopped channel's feedback channels go on without a
measurement (R332). -/
def State.mePassStart (s : State) (n c : Nat) : State :=
  if !s.meCyclic c then s
  else if [4, 5].contains (s.get R.ME_STATE_STATE c) then (s.meFeeds c).foldl (State.meNoSample · n) s
  else
    let s := s.updMe c fun x =>
      { x with cursor := 0, strm := 0, elem := 0, remain := 0, heldMove := none, loops := [], wait := none, barrier := false, inPass := true, passCycle := n,
               passStart := s.tick, fbins := [] }
    ((s.setBit R.ME_STATE_COND c true).set R.ME_STATE_STATE c 3).meGoto c (s.get R.ME_CFG_PROG_START c)

/-- A channel that waits for a boundary in a program that is not cyclic goes on (R321). -/
def State.meWake (s : State) (solver : Bool) (c : Nat) : State :=
  match (s.me1 c).wait with
  | some (.boundary b) => if !s.bit R.ME_CFG_CYCLIC c && (!b || solver) then (s.waitDone c (.boundary b)).set R.ME_STATE_STATE c 3 else s
  | _ => s

/-- The channels that have a boundary here. -/
def State.mePassing (s : State) (solver : Bool) : List Nat := (List.range 16).filter fun c => !s.bit R.ME_CFG_SOLVER c || solver

/-! ### Enable, disable and power (R330, R332, R333) -/

/-- Channel `c` when the cell is enabled: IDLE with the arm groups of its joints, or OFF. -/
def State.meEnable (s : State) (c : Nat) : State :=
  let s := s.updMe c fun _ => {}
  let on := s.bit R.ME_CFG_EN c
  let s := (s.set R.ME_STATE_STATE c (if on then 1 else 0)).setBit R.ME_STATE_COND c on
  let s := s.meGoto c (if on then s.get R.ME_CFG_PROG_START c else 0)
  s.set R.ME_STATE_ARM_MASK c (if on then s.jointsMask (s.meJoints c) else 0)

/-- Channel `c` when the cell becomes disabled. -/
def State.meDisable (s : State) (c : Nat) : State :=
  if !([2, 3].contains (s.get R.ME_STATE_STATE c)) then s
  else
    let s := s.meStop c 5 6 6
    if s.bit R.ME_CFG_CYCLIC c then s.post Ev.meStopped .info (some c) else s

/-- The MOVE that channel `c` has in progress: its mode, itself and its units not done. -/
def State.meOpen (s : State) (c : Nat) : Option (Nat × MoveOp × List MeUnit) :=
  if s.get R.ME_STATE_STATE c = 3 ∧ (s.me1 c).remain ≠ 0 then
    match (s.meInsn (s.meIaddr c)).1 with
    | .move k m => some (k, m, (if k = 0 then copyUnits m else planeUnits (decide (k = 1)) m).drop (s.me1 c).cursor)
    | _ => none
  else none

/-- An address lies in the X memory of Tiller `n`. -/
def State.inTiller (s : State) (n a : Nat) : Bool := match s.meLoc a with | .tlx t _ _ => t == n | _ => false

/-- A power-down request for Tiller `n` stops the channels whose MOVE in progress accesses it, their bursts finished (R333). -/
def State.mePower (s : State) (n : Nat) : State :=
  (List.range 16).foldl (fun s c =>
    match s.meOpen c with
    | some (_, _, l) => if l.any fun u => (u.reads ++ u.writes).any (s.inTiller n) then s.meStop c 5 3 4 else s
    | none => s) s

/-- The outstanding access of a unit into Tiller `n`: its place in its list, address and direction. -/
def State.unitInto (s : State) (n : Nat) (u : MeUnit) : Option (Nat × Nat × Bool) :=
  let look := fun (l : List Nat) (w : Bool) =>
    (List.range l.length).findSome? fun j => if s.inTiller n (l.getD j 0) then some (j, l.getD j 0, w) else none
  (look u.reads false).orElse fun _ => look u.writes true

/-- Tiller `n` is forced down: the outstanding access of each channel into it fails with cause POWER_FORCED (R333). -/
def State.meForced (s : State) (n : Nat) : State :=
  (List.range 16).foldl (fun s c =>
    match s.meOpen c with
    | some (k, m, l) =>
      match l.findSome? fun u => (s.unitInto n u).map fun x => (u, x) with
      | some (u, j, a, w) =>
        s.meHalt c { addr := a, write := w, cause := 6, strm := if k = 0 then u.strm else j % mvS m, elem := u.elem, remain := u.remain, inj := false }
      | none => s
    | none => s) s

/-! ### ME_CTRL (R329, R330) -/

/-- The channel of an ME_CTRL. -/
def Desc.chan (d : Desc) : Nat := d.bits 4 3 0

/-- START of a channel that writes to-partner slots is the holder's alone (R378). -/
def State.meWritesSlots (s : State) (c : Nat) : Bool :=
  (s.meProgram c).any fun e =>
    match e.2 with
    | .move k m =>
      ((if k = 0 then copyUnits m else planeUnits (decide (k = 1)) m).flatMap fun u => u.writes).any fun a =>
        match s.meLoc a with | .slot _ _ => true | _ => false
    | _ => false

/-- The effect of START. -/
def State.meCtrlStart (s : State) (d : Desc) : State :=
  let c := d.chan
  if s.get R.ME_STATE_STATE c ≠ 1 ∨ s.bit R.ME_CFG_CYCLIC c then s.completeDesc d { reason := 1 }
  else if !s.running then s.completeDesc d { reason := 6 }
  else
    let s := if s.meWritesSlots c then s.mirrorDesc d else s
    let id : Option DescId := if h : d.ring < 32 then some { ring := ⟨d.ring, h⟩, tag := d.word 1 } else none
    let s := s.updMe c fun _ => { start := id, flag := (s.me1 c).flag, passCycle := s.cycle, passStart := s.grid.start }
    (s.set R.ME_STATE_STATE c 3).meGoto c (s.get R.ME_CFG_PROG_START c)

/-- ME_CTRL START (R329). -/
def execMeCtrlStart (d : DescId) (s : State) : Out :=
  .next (s.opAction d 0x18 5 4 0 (fun s e => { holder := s.notHolder && s.meWritesSlots e.chan }) State.meCtrlStart)

/-- The effect of ABORT. -/
def State.meCtrlAbort (s : State) (d : Desc) : State :=
  let c := d.chan
  if !([2, 3].contains (s.get R.ME_STATE_STATE c)) then s.completeDesc d { reason := 1 }
  else if s.bit R.ME_CFG_CYCLIC c && s.enabled then s.completeDesc d { reason := 3 }
  else (s.meStop c 5 2 2).completeDesc d {}

/-- ME_CTRL ABORT (R330). -/
def execMeCtrlAbort (d : DescId) (s : State) : Out := .next (s.opAction d 0x18 5 4 1 (fun _ _ => {}) State.meCtrlAbort)

/-- The effect of RESET. -/
def State.meCtrlReset (s : State) (d : Desc) : State :=
  let c := d.chan
  if !([4, 5].contains (s.get R.ME_STATE_STATE c)) then s.completeDesc d { reason := 1 }
  else
    let s := ((s.set R.ME_ERR_ADDR c 0).set R.ME_ERR_INFO_DIR c 0).set R.ME_ERR_INFO_CAUSE c 0
    let s := ((s.set R.ME_ERR_INFO_IADDR c 0).set R.ME_ERR_INFO_STREAM c 0).set R.ME_ERR_INFO_ELEM c 0
    (s.set R.ME_STATE_STATE c 1).completeDesc d {}

/-- ME_CTRL RESET (R329). -/
def execMeCtrlReset (d : DescId) (s : State) : Out := .next (s.opAction d 0x18 5 4 2 (fun _ _ => {}) State.meCtrlReset)

end Sys2Proof.Machine
end

