-- ==== Sys2Proof/Machine/Twin.lean ====
section
/-! DEFINITION. Twin operation: messages, renewal and takeover, handover, mirrored actions, digests, ECHO frames, state transfer
and TW_CMD (chapter 15). -/
namespace Sys2Proof.Config
open Sys2Proof.Machine (Chan Gen Engine StepGen)

/-- The bytes of a feedback channel, a profile generator with its queue, an engine's kept plan and runs, the joint states of an arm group
and a step axis in a state transfer (R369), whose layout within the unit the spec does not give. Free values. -/
opaque chanBytes (c : Chan) : List (BitVec 8)
/-- As chanBytes, of a profile generator. -/
opaque genBytes (g : Gen) : List (BitVec 8)
/-- As chanBytes, of an engine. -/
opaque engineBytes (e : Engine) : List (BitVec 8)
/-- As chanBytes, of the joint states of an arm group. -/
opaque jointBytes (l : List Nat) : List (BitVec 8)
/-- As chanBytes, of a step axis. -/
opaque stepBytes (g : StepGen) : List (BitVec 8)

/-- A feedback channel after a segment of its state from a byte offset, whose layout the spec does not give; none where the segment
changes nothing. Free value. -/
opaque loadChan (off : Nat) (data : List (BitVec 8)) (c : Chan) : Option Chan
/-- As loadChan, of a profile generator. -/
opaque loadGen (off : Nat) (data : List (BitVec 8)) (g : Gen) : Option Gen
/-- As loadChan, of an engine. -/
opaque loadEngine (off : Nat) (data : List (BitVec 8)) (e : Engine) : Option Engine
/-- As loadChan, of the state of joint `n`. -/
opaque loadJoint (n off : Nat) (data : List (BitVec 8)) : Nat
/-- As loadChan, of a step axis. -/
opaque loadStep (off : Nat) (data : List (BitVec 8)) (g : StepGen) : Option StepGen

end Sys2Proof.Config
namespace Sys2Proof.Machine

/-! ### States (R363 to R365) -/

/-- A twin port can send, or at least one is UP. -/
def State.twinUp (s : State) : Bool := s.up 4 || s.up 5

/-- The twin's state as its last message gave it. -/
def State.peer (s : State) : Nat := s.get R.TW_STATE_PEER_STATE

/-- Note the twin's state, and since when it is STANDBY. -/
def State.setPeer (s : State) (v : Nat) : State :=
  (s.set R.TW_STATE_PEER_STATE 0 v).updTw fun t =>
    { t with peerStandbyAt := if v = 4 then some (t.peerStandbyAt.getD s.tick) else none, capture := if v = 3 then t.capture else none }

/-- The device becomes HOLDER with an epoch. -/
def State.becomeHolder (s : State) (e : Nat) : State :=
  let s := ((s.set R.TW_STATE_STATE 0 2).takeEpoch e).set R.TW_LEASE_STAT_SINCE_RENEW 0 0
  s.updTw fun t => { t with lastRenew := s.cycle, released := none, takeAt := none, handover := none, fwdReact := 0, fwdMask := 0,
                            capture := none, mirrorIn := [] }

/-- The device takes the lease in CLAIMING: the successor of the newer of its own stored epoch and the twin's. -/
def State.claimLease (s : State) : State :=
  let own := s.get R.TW_EPOCH_STORED
  let twin := s.tw.peerStored
  s.becomeHolder (nextEpoch (if twin ≠ 0 ∧ (own = 0 ∨ newerEpoch twin own) then twin else own))

/-- The device begins to load the holder's state. -/
def State.beginTransfer (s : State) : State :=
  (s.set R.TW_STATE_STATE 0 3).updTw fun t =>
    { t with transferAt := s.tick, segs := [], segCount := 0, loaded := none, mirrorIn := [], handover := none, takeAt := none, lost := false }

/-- A CLAIMING device settles the lease by what it knows of the twin (R363). -/
def State.settleClaim (s : State) : State :=
  if s.twState ≠ 1 then s
  else if s.peer = 2 then s.beginTransfer
  else if s.peer ≠ 4 ∧ (s.peer ≠ 1 ∨ !s.bit R.TW_CFG_POSITION) then s.claimLease
  else s

/-! ### Messages (R369) -/

/-- The digests of a cycle as a message carries them. -/
def digestBytes (d : Option Digest) (cycle : Nat) : List Byte :=
  match d with
  | some d => if d.cycle = cycle then (d.cmd ++ [d.st]).flatMap fun w => beBytes 4 w.toNat else List.replicate 36 0
  | none => List.replicate 36 0

/-- A message with its header and CRC. -/
def State.twBytes (s : State) (kind flags newEp hoCycle m : Nat) (body : List Byte) : List Byte :=
  let b := [BitVec.ofNat 8 kind, BitVec.ofNat 8 (flags + if s.bit R.TW_CFG_POSITION then 1 else 0)] ++ beBytes 2 s.txEpoch
    ++ beBytes 4 s.cycle ++ beBytes 2 newEp ++ beBytes 4 hoCycle ++ beBytes 2 m ++ body
  b ++ beBytes 4 (crc32c b).toNat

/-- Launch a message on a twin port that can send. -/
def State.twLaunch (s : State) (p kind : Nat) (b : List Byte) : State :=
  if s.canSend p then
    s.launch p { ftype := kind, slot := 0xFFFF, cycle := s.cycle % 2 ^ 32, epoch := s.txEpoch, partner := 0, layout := 0, payload := b, pn := 0, tick := s.tick }
  else s

/-- Send a message on both twin links. -/
def State.twSend (s : State) (kind flags newEp hoCycle m : Nat) (body : List Byte) : State :=
  let b := s.twBytes kind flags newEp hoCycle m body
  (s.twLaunch 4 kind b).twLaunch 5 kind b

/-- The bytes of a mirror record. -/
def Mirror.bytes (r : Mirror) : List Byte :=
  [BitVec.ofNat 8 r.kind, 0, 0, 0] ++ beBytes 4 r.cycle ++ (r.content ++ List.replicate (24 - r.content.length) 0).take 24

/-- The mirror record that 32 bytes spell. -/
def State.mirrorOf (s : State) (b : List Byte) : Mirror := { kind := beField b 0 1, cycle := s.cycleOf (beField b 4 4), content := (b.drop 8).take 24 }

/-- The digests that a message carries. -/
def State.digestOf (s : State) (b : List Byte) : Digest :=
  { cycle := s.cycleOf (beField b 4 4) - 1, cmd := (List.range 8).map fun g => BitVec.ofNat 32 (beField b (16 + 4 * g) 4), st := BitVec.ofNat 32 (beField b 48 4) }

/-- A frame on a twin port is a good twin message of kind `k`: the port is UP, the frame is sent to it (R75), and its FCS, protection,
EtherType and CRC hold. -/
def State.twGood (s : State) (f : Frame) (k : Nat) : Bool :=
  let b := f.payload
  let n := b.length - 4
  (f.port == 4 || f.port == 5) && s.bit R.TW_CFG_EN && s.up f.port && decide (f.da = s.portMac f.port) && f.fcsOk && decide (f.inner = s.get R.TW_ETHERTYPE_ETYPE)
    && s.macCheck f == .ok && decide (20 ≤ b.length ∧ (crc32c (b.take n)).toNat = beField b n 4) && decide (beField b 0 1 = k)

/-- What every good message does: the packet number is taken, the twin was heard, and its epoch was seen. -/
def State.twHeard (s : State) (f : Frame) : State :=
  ((s.macPass f).updTw fun t => { t with lastMsg := some s.cycle }).sawEpoch (beField f.payload 2 2)

/-- A good message of kind `k` is the second copy of the last one taken: the same bytes on the other link. -/
def State.twSecond (s : State) (f : Frame) (k : Nat) : Bool :=
  match Tab.get (fun _ => none) s.tw.rxLast k with
  | some c => c.port != f.port && c.bytes == f.payload && !c.second
  | none => false

/-- Note the copy taken of kind `k`. -/
def State.twNote (s : State) (f : Frame) (k : Nat) (second : Bool) : State :=
  s.updTw fun t => { t with rxLast := Tab.put (fun _ => none) t.rxLast k (some ⟨f.port, f.payload, second⟩) }

/-- Run `g` on the bytes of a good message of kind `k`: the first copy is used and the second counted, which for a LEASE renews by its
own link too (R369, R370); any other frame is discarded. -/
def State.twRx (s : State) (f : Frame) (k : Nat) (g : State → List Byte → State) : State :=
  if s.twGood f k then
    if s.twSecond f k then
      let s := ((s.twHeard f).twNote f k true).updTw fun t => { t with copies := t.copies + 1 }
      if k = 1 then g s f.payload else s
    else g ((s.twHeard f).twNote f k false) f.payload
  else s

/-! ### LEASE and ACK (R370, R374, R377, R378) -/

/-- A device that is not HOLDER takes the epoch of the holder. -/
def State.followEpoch (s : State) (e : Nat) : State :=
  if s.twState ≠ 2 ∧ s.twState ≠ 6 ∧ (newerEpoch e (s.get R.TW_EPOCH_EPOCH) ∨ s.get R.TW_EPOCH_EPOCH = 0) then s.takeEpoch e else s

/-- A renewal of this cycle by path `k`: TW0, TW1, CB0 to CB3. -/
def State.renew (s : State) (k e cycle : Nat) : State :=
  if e = s.get R.TW_EPOCH_EPOCH ∧ cycle = s.cycle then s.updTw fun t => { t with renewed := orBit t.renewed k } else s

/-- Act on the descriptor of a mirrored action, as the holder's own action did. -/
def State.mirrorAct (s : State) (c : List Byte) : State :=
  let w := fun (i : Nat) => BitVec.ofNat 32 (beField c (4 * i) 4)
  let d : Desc := { ring := 32, index := 0, words := [w 0, 0, 0, 0, w 1, w 2, w 3, w 4, w 5, 0, 0, 0, 0, 0, 0, 0], started := true }
  match d.bits 0 7 0 with
  | 0x10 => s.doServo d
  | 0x11 => s.doMove d
  | 0x12 => s.doMoveGroup (some (Config.mirrorTargets c)) d
  | 0x13 => s.doAbort d
  | 0x14 => s.doHome d
  | 0x15 => s.doMpClear d
  | 0x16 => s.doFbClear d
  | 0x18 => s.meCtrlStart d
  | 0x21 => s.doRelease d
  | 0x22 => s.doQuarantine d
  | _ => s

/-- The CRC-32C of region `i`'s shadow bank. -/
def State.shadowCrc (s : State) (i : Nat) : Word :=
  crc32c ((List.range (s.get R.HI_GR_B_LENGTH i)).flatMap fun k => wordBytes (s.gr2 (s.get R.HI_GR_A_BASE i + k)))

/-- A mirrored commit: the standby swaps at the same boundary; a CRC that differs makes it FAULTED. -/
def State.mirrorCommit (s : State) (r : Mirror) : State :=
  let l := ((List.range 4).map fun k => (beField r.content (6 * k) 2, beField r.content (6 * k + 2) 4)).filter fun p =>
    decide (p.1 < 256) && [1, 2].contains (s.get R.HI_GR_A_KIND p.1)
  let bad := l.any fun p => decide ((s.shadowCrc p.1).toNat ≠ p.2)
  let q : CommitReq := { desc := none, regions := l.map fun p => p.1, tick := s.tick, enabled := true, twinCycle := some r.cycle }
  let s := { s with gr := { s.gr with commits := s.gr.commits ++ [q] } }
  if bad && s.twState == 4 then s.twFault 6 0 else s

/-- Take a mirror record. -/
def State.mirrorTake (s : State) (r : Mirror) : State :=
  match r.kind with
  | 1 => s.mirrorAct r.content
  | 2 => s.mirrorCommit r
  | 3 =>
    let v := Config.mirrorReaction r.content
    (maskList 8 v.1).foldl (fun s g => s.wantStop g v.2.1 v.2.2) s
  | 4 =>
    let v := Config.mirrorPair r.content
    if v.2 then s.releasePair (v.1 % 10) else s.assertPair 5 (v.1 % 10)
  | _ => s

/-- The servo that keeps a device on the holder's grid writes FRAC: a free value within R47. -/
def State.follow (s : State) (p : Nat) : State :=
  if s.get R.TB_CORR_CTRL_OWNER = 2 then
    (s.fracWrite (.twin (if p = 4 then 0 else 1)) (max (-fracMax) (min (Config.twinServo s.free) fracMax))).draw
  else s

/-- The handover flags of a LEASE. -/
def State.leaseFlags (s : State) (b : List Byte) : State :=
  let fl := beField b 1 1
  if hasBit fl 2 then s.updTw fun t => { t with handover := none }
  else if hasBit fl 1 then
    let h : Handover := { epoch := beField b 8 2, cycle := s.cycleOf (beField b 10 4), confirmed := false, giver := false, desc := none }
    s.updTw fun t => { t with handover := some h }
  else s

/-- The body of the first good LEASE of a cycle. -/
def State.leaseBody (s : State) (p : Nat) (b : List Byte) : State :=
  let s := (s.updTw fun t => { t with leaseSeen := some (beField b 4 4), peer := some (s.digestOf b) }).follow p
  let s := if s.twState = 4 then s.leaseFlags b else s
  let l := (List.range (beField b 14 2)).map fun i => s.mirrorOf ((b.drop (52 + 32 * i)).take 32)
  if s.twState = 4 ∨ s.twState = 5 then l.foldl State.mirrorTake s
  else if s.twState = 3 then s.updTw fun t => { t with mirrorIn := t.mirrorIn ++ l }
  else s

/-- The effect of LEASE_RX. -/
def State.leaseRx (s : State) (f : Frame) : State :=
  s.twRx f 1 fun s b =>
    let s := ((s.setPeer 2).settleClaim).followEpoch (beField b 2 2)
    if s.twState = 2 then s
    else
      let s := s.renew (f.port - 4) (beField b 2 2) (s.cycleOf (beField b 4 4))
      if s.tw.leaseSeen = some (beField b 4 4) then s else s.leaseBody f.port b

/-- LEASE_RX (R370). -/
def execLeaseRx (f : Frame) (s : State) : Out := .next (s.leaseRx f)

/-- The handover of a holder whose LEASE of the cycle after its announcement goes out unconfirmed is cancelled. -/
def State.handoverCancel (s : State) (h : Handover) : State :=
  let s := s.updTw fun t => { t with handover := none }
  match h.desc with
  | some d => s.complete (dkey d) { reason := 6 }
  | none => s

/-- A LEASE can go out: this cycle's token is there, its time has come, and it has not been sent. -/
def State.leaseDue (s : State) : Bool :=
  s.holdsLease && s.tw.released.isNone && s.grid.cyc.isSome && s.tw.tokenCycle == some s.cycle && s.tw.leaseSent != some s.cycle
    && decide (s.get R.TW_TIMING_LEASE_OFFSET ≤ s.intoCycle)

/-- The effect of LEASE_TX. -/
def State.leaseTx (s : State) : State :=
  if !s.leaseDue then s
  else
    let recs := s.tw.mirrorOut
    let body := digestBytes s.tw.own (s.cycle - 1) ++ recs.flatMap Mirror.bytes
    let send := fun (s : State) (flags e hc : Nat) => s.twSend 1 flags e hc recs.length body
    let s :=
      match s.tw.handover with
      | some h =>
        if h.cycle = s.cycle + 2 then send s 2 h.epoch h.cycle
        else if h.cycle = s.cycle + 1 ∧ !h.confirmed then (send s 4 0 0).handoverCancel h
        else send s 0 0 0
      | none => send s 0 0 0
    s.updTw fun t => { t with leaseSent := some s.cycle, lastRenew := s.cycle, mirrorOut := [] }

/-- LEASE_TX (R370). -/
def execLeaseTx (s : State) : Out := .next s.leaseTx

/-- The effect of ACK_TX. -/
def State.ackTx (s : State) : State :=
  if s.twState ≠ 4 ∨ s.grid.cyc.isNone ∨ s.tw.ackSent = some s.cycle ∨ s.intoCycle < s.get R.TW_TIMING_LEASE_OFFSET + 250 then s
  else
    let ok := match s.tw.handover with | some h => decide (h.cycle = s.cycle + 2) | none => false
    let s := s.updTw fun t => { t with handover := if ok then t.handover.map fun h => { h with confirmed := true } else t.handover }
    let body := digestBytes s.tw.own (s.cycle - 1) ++ [BitVec.ofNat 8 s.tw.fwdReact, BitVec.ofNat 8 s.tw.fwdMask]
    (s.twSend 2 (if ok then 8 else 0) 0 0 0 body).updTw fun t => { t with ackSent := some s.cycle, fwdReact := 0, fwdMask := 0 }

/-- ACK_TX (R369). -/
def execAckTx (s : State) : Out := .next s.ackTx

/-- The effect of ACK_RX. -/
def State.ackRx (s : State) (f : Frame) : State :=
  s.twRx f 2 fun s b =>
    let s := s.setPeer 4
    if s.twState ≠ 2 ∨ s.tw.ackSeen = some (beField b 4 4) then s
    else
      let s := s.updTw fun t =>
        { t with ackSeen := some (beField b 4 4), peer := some (s.digestOf b),
                 handover := t.handover.map fun h =>
                   if hasBit (beField b 1 1) 3 ∧ h.cycle = s.cycle + 2 then { h with confirmed := true } else h }
      let r := beField b 52 1
      if r = 1 ∨ r = 2 then (maskList 8 (beField b 53 1)).foldl (fun s g => s.wantStop g r 0x0B) s else s

/-- ACK_RX (R382). -/
def execAckRx (f : Frame) (s : State) : Out := .next (s.ackRx f)

/-! ### CLAIM, RELEASE and STATUS -/

/-- A CLAIMING device sends CLAIM in each cycle. -/
def State.claimTx (s : State) : State :=
  if s.twState = 1 then
    s.twSend 3 0 0 0 0 (beBytes 2 (s.get R.TW_EPOCH_STORED) ++ beBytes 4 (s.get R.TW_OWN_DIGEST) ++ [0, 0])
  else s

/-- The effect of CLAIM_RX. -/
def State.claimRx (s : State) (f : Frame) : State :=
  s.twRx f 3 fun s b => ((s.setPeer 1).updTw fun t => { t with peerStored := beField b 16 2 }).settleClaim

/-- CLAIM_RX (R363). -/
def execClaimRx (f : Frame) (s : State) : Out := .next (s.claimRx f)

/-- The holder gives up the lease without a handover: it stops renewing and sends RELEASE (R373). -/
def State.giveUp (s : State) (code inst : Nat) : State :=
  if s.holdsLease && s.tw.released.isNone then
    let s := (s.twSend 4 0 0 0 0 (beBytes 2 (s.get R.TW_EPOCH_EPOCH))).closeHandover 6
    s.updTw fun t => { t with released := some t.lastRenew, causeCode := code, causeInst := inst }
  else s

/-- The effect of RELEASE_RX. -/
def State.releaseRx (s : State) (f : Frame) : State :=
  s.twRx f 4 fun s b =>
    let s := s.setPeer 2
    if s.twState = 4 ∧ beField b 16 2 = s.get R.TW_EPOCH_EPOCH then
      s.updTw fun t => { t with takeAt := some (s.cycle + 1), handover := none }
    else s.settleClaim

/-- RELEASE_RX (R373). -/
def execReleaseRx (f : Frame) (s : State) : Out := .next (s.releaseRx f)

/-- The effect of STATUS_TX: a STATUS every 1 ms. -/
def State.statusTx (s : State) : State :=
  let due := match s.tw.statusSent with | some t => decide (t + 125000 ≤ s.tick) | none => true
  if !s.bit R.TW_CFG_EN ∨ !due then s
  else
    let fl := (if s.enabled then 1 else 0) + if s.bit R.TW_CFG_SOLO then 2 else 0
    let body := [BitVec.ofNat 8 s.twState, BitVec.ofNat 8 fl] ++ beBytes 2 (s.get R.TW_EPOCH_STORED) ++ beBytes 4 (s.get R.TW_OWN_DIGEST)
      ++ (if s.enabled then beBytes 6 s.grid.epSec ++ beBytes 4 s.grid.epNs ++ beBytes 4 (s.cycleNs) else List.replicate 14 0)
    (s.twSend 7 0 0 0 0 body).updTw fun t => { t with statusSent := some s.tick }

/-- STATUS_TX (R369). -/
def execStatusTx (s : State) : Out := .next s.statusTx

/-- The effect of STATUS_RX. -/
def State.statusRx (s : State) (f : Frame) : State :=
  s.twRx f 7 fun s b =>
    let fl := beField b 17 1
    let s := (s.setPeer (beField b 16 1 % 16)).set R.TW_PEER_DIGEST 0 (beField b 20 4)
    let s := s.updTw fun t =>
      { t with lastStatus := some s.tick, peerEnabled := hasBit fl 0, peerStored := beField b 18 2,
               peerEpSec := beField b 24 6, peerEpNs := beField b 30 4, peerCycleNs := beField b 34 4 }
    s.settleClaim

/-- STATUS_RX (R369). -/
def execStatusRx (f : Frame) (s : State) : Out := .next (s.statusRx f)

/-- The effect of TWIN_PEER_OFF: 64 cycles without the twin. -/
def State.peerOff (s : State) : State :=
  if s.twState = 1 ∧ s.tw.lastMsg.getD 0 + 64 ≤ s.cycle then (s.setPeer 0).settleClaim else s

/-- TWIN_PEER_OFF (R363). -/
def execTwinPeerOff (s : State) : Out := .next s.peerOff

/-! ### SYNC (R375) -/

/-- A time value {SEC, NS} in 10 bytes. -/
def timeBytes (ns : Nat) : List Byte := beBytes 6 (ns / 1000000000) ++ beBytes 4 (ns % 1000000000)

/-- The time of a tick near now, in ns. -/
def State.timeAt (s : State) (t : Nat) : Int := (s.now : Int) - 8 * ((s.tick : Int) - t)

/-- The effect of SYNC_EXCHANGE: sixteen requests go out at the given departure stamps. -/
def State.syncStart (s : State) (p : Nat) (sent : List Nat) : State :=
  if s.bit R.TW_CFG_EN && s.up (4 + p) then
    let s := s.updTw fun t => { t with syncSent := sent, syncDelay := [], syncOffset := [] }
    (List.range sent.length).foldl (fun s k => s.twLaunch (4 + p) 6 (s.twBytes 6 0 0 0 0 [1, BitVec.ofNat 8 k])) s
  else s

/-- SYNC_EXCHANGE (R375). -/
def execSyncExchange (p : Fin 2) (sent : List Nat) (s : State) : Out := .next (s.syncStart p sent)

/-- A standby whose offset exceeds 200 ns is unfit (R377). -/
def State.syncTest (s : State) : State :=
  if s.twState = 4 ∧ 200 < (s.geti R.TW_OFFSET).natAbs then s.twFault 3 0 else s

/-- A SYNC response: its sample, and after sixteen the delay and the offset. -/
def State.syncSample (s : State) (f : Frame) (b : List Byte) : State :=
  let k := beField b 17 1
  if k ≠ s.tw.syncDelay.length then s
  else
    match s.tw.syncSent[k]? with
    | none => s
    | some t1 =>
      let r : Int := 128 * ((f.stamp : Int) - t1) - (beField b 38 4 : Nat)
      let t2 : Int := (nsOf (beField b 18 6) (beField b 24 4) : Nat)
      let t3 : Int := (nsOf (beField b 28 6) (beField b 34 4) : Nat)
      let o := (t2 - s.timeAt t1) - (s.timeAt f.stamp - t3)
      let s := s.updTw fun t => { t with syncDelay := t.syncDelay ++ [r], syncOffset := t.syncOffset ++ [o] }
      if s.tw.syncDelay.length = 16 then
        let s := s.seti R.TW_LINK_DELAY_DELAY 0 (roundDiv (s.tw.syncDelay.sum - 1024) 32)
        (s.seti R.TW_OFFSET 0 (clampInt 32 (roundDiv s.tw.syncOffset.sum 32))).syncTest
      else s

/-- The response to a SYNC request, launched at its programmed time. -/
def State.syncAnswer (s : State) (f : Frame) (b : List Byte) : State :=
  let turn := Config.syncTurn s.free
  let t2 := (s.timeAt f.stamp).toNat
  let body := [2, BitVec.ofNat 8 (beField b 17 1)] ++ timeBytes t2 ++ timeBytes (t2 + 8 * turn) ++ beBytes 4 (128 * turn)
  (s.twLaunch f.port 6 (s.twBytes 6 0 0 0 0 body)).draw

/-- The effect of SYNC_RX. -/
def State.syncRx (s : State) (f : Frame) : State :=
  s.twRx f 6 fun s b => if beField b 16 1 = 1 then s.syncAnswer f b else if beField b 16 1 = 2 then s.syncSample f b else s

/-- SYNC_RX (R375). -/
def execSyncRx (f : Frame) (s : State) : Out := .next (s.syncRx f)

/-! ### ECHO frames (R370, R380, R381) -/

/-- The DIR 3 slot of port `p`. -/
def State.echoSlot (s : State) (p : Nat) : Option Nat :=
  s.slotsUsed.find? fun i => decide (s.get R.CB_SL_A_DIR i = 3) && decide (s.get R.CB_SL_A_PORT i = p)

/-- The effect of ECHO_TX. -/
def State.echoTx (s : State) (p : Nat) : State :=
  match s.echoSlot p with
  | none => s
  | some i =>
    let off := s.get R.CB_SL_A_OFFSET i
    let hold := s.holdsLease
    if !s.bit R.TW_CFG_EN ∨ !s.bit R.CB_PORT_CFG_TOPOLOGY p ∨ s.grid.cyc.isNone ∨ (s.slot i).launched = some s.cycle ∨ s.intoCycle < off
        ∨ !s.slotDue i s.cycle ∨ (hold && (s.tw.released.isSome || s.tw.tokenCycle != some s.cycle)) then s
    else
      let s := s.updSlot i fun x => { x with launched := some s.cycle }
      if !s.canSend p then s
      else
        let b := beBytes 4 s.cycle ++ beBytes 4 (off + if hold then 2 ^ 31 else 0)
          ++ [BitVec.ofNat 8 s.twState, BitVec.ofNat 8 (s.get R.TW_STATE_PATH_OK), 0, 0]
        let f : TxFrame :=
          { ftype := 5, slot := i, cycle := s.cycle % 2 ^ 32, epoch := s.txEpoch, partner := 0x7FF, layout := s.get R.CB_SL_B_LAYOUT i, payload := b,
            pn := 0, tick := s.tick }
        (s.launch p f).updTw fun t => if hold then { t with lastRenew := s.cycle } else t

/-- ECHO_TX (R380). -/
def execEchoTx (p : Fin 4) (s : State) : Out := .next (s.echoTx p)

/-- An ECHO of the twin that the receive checks passed: within its window it proves the path, and a holder's renews. In CLAIMING
it measures ECHO_DELAY. -/
def State.echoTake (s : State) (f : Frame) (h : Hdr) : State :=
  let b := f.payload
  let w := beField b 4 4
  let at_ : Int := (s.grid.start + w % 2 ^ 17 : Nat)
  let s := if s.twState = 1 then s.seti R.TW_ECHO_DELAY_DELAY f.port (128 * ((f.stamp : Int) - at_)) else s
  let e : Int := 128 * ((f.stamp : Int) - at_) - (s.get R.TW_ECHO_DELAY_DELAY f.port : Nat)
  if s.cycleOf (beField b 0 4) ≠ s.cycle ∨ 25 * 128 < e.natAbs then s
  else
    let s := s.updTw fun t => { t with echoGot := orBit t.echoGot f.port, echoMiss := Tab.put (fun _ => 0) t.echoMiss f.port 0 }
    let s := s.set R.TW_STATE_PATH_OK 0 (orBit (s.get R.TW_STATE_PATH_OK) f.port)
    if hasBit w 31 ∧ beField b 8 1 = 2 ∧ s.twState ≠ 2 then (s.followEpoch h.epoch).renew (2 + f.port) h.epoch (s.cycleOf (beField b 0 4)) else s

/-- TW_ECHO_LOST for port `p`. -/
def State.echoLost (s : State) (p : Nat) (injected : Bool) : State :=
  let s := s.updTw fun t => { t with echoMiss := Tab.put (fun _ => 0) t.echoMiss p 4 }
  let s := (s.set R.TW_STATE_PATH_OK 0 (clrBit (s.get R.TW_STATE_PATH_OK) p)).inc R.TW_COUNT_A_ECHO_LOST
  s.post Ev.twEchoLost .fault (some p) [] false injected

/-- The effect of TW_ECHO_LOST: three consecutive ECHO frames of a port are missing. -/
def State.echoLostTest (s : State) (p : Nat) : State :=
  if s.bit R.TW_CFG_EN ∧ Tab.get (fun _ => 0) s.tw.echoMiss p = 3 then s.echoLost p false else s

/-- TW_ECHO_LOST (R380). -/
def execTwEchoLost (p : Fin 4) (s : State) : Out := .next (s.echoLostTest p)

/-! ### Renewal, expiry and takeover (R370 to R373) -/

/-- Every command slot due in the cycle before has been launched. -/
def State.allCommandsOut (s : State) : Bool :=
  s.cycle == 0 || (s.slotsUsed.filter fun i => s.isCommandSlot i && s.slotDue i (s.cycle - 1)).all fun i =>
    match (s.slot i).launched with | some n => decide (s.cycle - 1 ≤ n) | none => false

/-- The effect of RENEWAL_TOKEN. -/
def State.token (s : State) : State :=
  if s.holdsLease ∧ s.tw.released.isNone ∧ s.grid.cyc.isSome ∧ s.allCommandsOut then s.updTw fun t => { t with tokenCycle := some s.cycle } else s

/-- RENEWAL_TOKEN (R370). -/
def execRenewalToken (s : State) : Out := .next s.token

/-- TW_LEASE_LOST: no twin fit to take over. -/
def State.leaseLost (s : State) (injected : Bool) : State :=
  let s := (s.updTw fun t => { t with lost := true }).post Ev.twLeaseLost .fatal none [] true injected
  (s.fatal (s.groupsInUse) true Ev.twLeaseLost).assertAll 5

/-- The standby takes over with the successor epoch: the lease has passed, which completes a SWITCH_BACK asked for here. -/
def State.takeOver (s : State) : State :=
  (((s.closeHandover 0).becomeHolder (nextEpoch (s.get R.TW_EPOCH_EPOCH))).inc R.TW_COUNT_A_TAKEOVERS).post Ev.twTakeover .info

/-- The effect of LEASE_EXPIRY: the count has reached LEASE_CYC, or RELEASE came before this boundary. -/
def State.leaseExpiry (s : State) : State :=
  let due := decide (s.get R.TW_CFG_LEASE_CYC ≤ s.get R.TW_LEASE_STAT_SINCE_RENEW)
  let given := match s.tw.takeAt with | some m => decide (m ≤ s.cycle) | none => false
  match s.twState with
  | 4 => if due || given then s.takeOver else s
  | 3 => if due && !s.tw.lost then s.leaseLost false else s
  | 5 => if due && !s.tw.lost then s.leaseLost false else s
  | _ => s

/-- LEASE_EXPIRY (R371). -/
def execLeaseExpiry (s : State) : Out := .next s.leaseExpiry

/-- The lease has not passed after a pace reaction: SS1 on every arm group in use (R31, R49). -/
def State.paceStopAll (s : State) (code inst : Nat) : State :=
  if code ∈ [Ev.paceLow, Ev.pwVr, Ev.tbRefLoss, Ev.tbUnlock] then
    (maskList 8 s.groupsInUse).foldl (fun s g => (s.noteStop g code inst).wantStop g 2 0x0B) s
  else s

/-- The effect of RELEASED_HOLDER_TIMEOUT: LEASE_CYC cycles since the last renewal of a holder that gave up the lease. -/
def State.releasedTimeout (s : State) : State :=
  match s.tw.released with
  | some r =>
    if s.holdsLease ∧ r + s.get R.TW_CFG_LEASE_CYC + 1 ≤ s.cycle then
      let s := s.paceStopAll s.tw.causeCode s.tw.causeInst
      (s.updTw fun t => { t with released := none }).twFault 4 s.tw.causeCode s.tw.causeInst
    else s
  | none => s

/-- RELEASED_HOLDER_TIMEOUT (R373). -/
def execReleasedHolderTimeout (s : State) : Out := .next s.releasedTimeout

/-! ### Handover (R374, R384) -/

/-- The holder starts a handover. -/
def State.startHandover (s : State) (d : Option DescId) : State :=
  let h : Handover := { epoch := nextEpoch (s.get R.TW_EPOCH_EPOCH), cycle := s.acceptCycle + 2, confirmed := false, giver := true, desc := d }
  s.updTw fun t => { t with handover := some h }

/-- The effect of TW_HANDOVER_SWITCH. -/
def State.handoverSwitch (s : State) : State :=
  match s.tw.handover with
  | none => s
  | some h =>
    if s.cycle < h.cycle then s
    else if h.giver && s.holdsLease then
      if h.confirmed then
        let s := ((s.set R.TW_STATE_STATE 0 4).takeEpoch h.epoch).updTw fun t => { t with handover := none, lost := false }
        let s := ((s.setPeer 2).inc R.TW_COUNT_B_HANDOVERS).post Ev.twHandover .info
        match h.desc with | some d => s.complete (dkey d) {} | none => s
      else s.handoverCancel h
    else if !h.giver && h.confirmed && decide (s.twState = 4) then
      let back := s.tw.backDesc
      let s := ((((s.becomeHolder h.epoch).setPeer 4).inc R.TW_COUNT_B_HANDOVERS).post Ev.twHandover .info).updTw fun t => { t with backDesc := none }
      match back with | some d => s.complete (dkey d) {} | none => s
    else s.updTw fun t => { t with handover := none }

/-- TW_HANDOVER_SWITCH (R374). -/
def execTwHandoverSwitch (s : State) : Out := .next s.handoverSwitch

/-- The effect of SWITCHBACK_HOLDOFF: B is HOLDER, A has been STANDBY for HOLDOFF_S, and no arm group is STOPPING. -/
def State.switchback (s : State) : State :=
  let held := match s.tw.peerStandbyAt with | some t => decide (t + s.get R.TW_CFG_HOLDOFF_S * 125000000 ≤ s.tick) | none => false
  let stopping := (List.range 8).any fun g => !(s.jointsIn g 3).isEmpty
  if s.holdsLease && s.bit R.TW_CFG_POSITION && s.bit R.TW_CFG_SWITCHBACK && decide (s.peer = 4) && held && !stopping
      && s.tw.handover.isNone && s.tw.released.isNone then s.startHandover none
  else s

/-- SWITCHBACK_HOLDOFF (R384). -/
def execSwitchbackHoldoff (s : State) : Out := .next s.switchback

/-! ### State transfer (R363, R383) -/

/-- A unit whose state is transferred (R369): its kind, its index and its bytes. -/
structure XferUnit where
  kind : Nat
  idx : Nat
  bytes : List Byte
  deriving DecidableEq, Repr

/-- Words as a message carries them, in network byte order. -/
def netWords (l : List Word) : List Byte := l.flatMap fun w => beBytes 4 w.toNat

/-- The state of every enabled unit, as the holder sends it: the words of Tiller X and plain Y, and of the other units bytes whose layout
the spec does not give. -/
def State.xferUnits (s : State) : List XferUnit :=
  let tillers := (List.range 64).filter fun n => s.bit R.TL_CFG_EN n
  let gens := (List.range 80).filter fun g => s.bit R.MP_CFG_EN g
  (tillers.map fun n => ⟨1, n, netWords ((List.range 512).map fun a => (s.til n).rdX a)⟩)
    ++ (tillers.map fun n => ⟨2, n, netWords ((List.range 384).map fun a => (s.til n).rdY (128 + a))⟩)
    ++ (((List.range 64).filter fun n => decide (s.get R.FB_CFG_KIND n ≠ 0)).map fun n => ⟨3, n, Config.chanBytes (s.chan n)⟩)
    ++ (gens.map fun g => ⟨4, g, Config.genBytes (s.gen g)⟩)
    ++ (((List.range 9).filter fun e => s.bit R.SV_CFG_EN e).map fun e => ⟨5, e, Config.engineBytes (s.eng e)⟩)
    ++ ((maskList 8 s.groupsInUse).map fun g => ⟨6, g, Config.jointBytes ((s.joints g).map s.jstate)⟩)
    ++ ((gens.filter fun g => decide (64 ≤ g)).map fun g => ⟨7, g - 64, Config.stepBytes (s.stepGen (g - 64))⟩)

/-- A unit's bytes cut into segments of at most 1,400, each with its offset. -/
def xferCut (u : XferUnit) : List (XferUnit × Nat) :=
  (List.range ((u.bytes.length + 1399) / 1400)).map fun k => ({ u with bytes := (u.bytes.drop (1400 * k)).take 1400 }, 1400 * k)

/-- The holder sends the state captured at boundary `b` in XFER messages, one for each segment. -/
def State.xferSend (s : State) (b : Nat) : State :=
  let l := s.xferUnits.flatMap xferCut
  (List.range l.length).foldl (fun s i =>
    match l[i]? with
    | some (u, off) =>
      s.twSend 5 0 0 0 0 (beBytes 2 i ++ beBytes 2 l.length ++ beBytes 4 b ++ [BitVec.ofNat 8 u.kind, BitVec.ofNat 8 u.idx] ++ beBytes 4 off
        ++ beBytes 2 u.bytes.length ++ u.bytes)
    | none => s) s

/-- The words that a segment carries. -/
def unitWords (l : List Byte) : List Word := (List.range (l.length / 4)).map fun k => BitVec.ofNat 32 (beField l (4 * k) 4)

/-- Load a segment of a unit's state. -/
def State.loadUnit (s : State) (kind n off : Nat) (l : List Byte) : State :=
  match kind with
  | 1 => s.updTil n fun t => { t with x := Tab.putList (fun _ => 0) t.x (off / 4) (unitWords l) }
  | 2 => s.updTil n fun t => { t with y := Tab.putList (fun _ => 0) t.y (128 + off / 4) (unitWords l) }
  | 3 => s.updChan n fun c => (Config.loadChan off l c).getD c
  | 4 => s.updGen n fun g => (Config.loadGen off l g).getD g
  | 5 => s.updEng n fun e => (Config.loadEngine off l e).getD e
  | 6 => (s.joints n).foldl (fun s j => s.set R.TL_JSTAT_JSTATE j (Config.loadJoint j off l % 7)) s
  | 7 => s.updStep n fun g => (Config.loadStep off l g).getD g
  | _ => s

/-- The effect of XFER_RX. -/
def State.xferRx (s : State) (f : Frame) : State :=
  s.twRx f 5 fun s b =>
    let s := s.setPeer 2
    if s.twState ≠ 3 then s
    else
      let i := beField b 16 2
      let s := s.loadUnit (beField b 24 1) (beField b 25 1) (beField b 26 4) ((b.drop 32).take (beField b 30 2))
      s.updTw fun t =>
        let segs := if t.segs.contains i then t.segs else t.segs ++ [i]
        { t with segs := segs, segCount := beField b 18 2, capture := some (s.cycleOf (beField b 20 4)),
                 loaded := if segs.length = beField b 18 2 then some (t.loaded.getD s.cycle) else none }

/-- XFER_RX (R383). -/
def execXferRx (f : Frame) (s : State) : Out := .next (s.xferRx f)

/-- The effect of TRANSFER_TIMEOUT. -/
def State.transferTimeout (s : State) : State :=
  if s.twState = 3 ∧ s.tw.transferAt + 6250000 ≤ s.tick then s.twFault 5 0 else s

/-- TRANSFER_TIMEOUT (R363). -/
def execTransferTimeout (s : State) : Out := .next s.transferTimeout

/-- The standby has caught up: replaying from cycle `b` at two cycles a cycle since cycle `x` it has reached this one. -/
def State.caughtUp (s : State) : Bool :=
  match s.tw.loaded, s.tw.capture with
  | some x, some b => decide (x + (x - b) ≤ s.cycle)
  | _, _ => false

/-- The effect of TW_PAIRED: a caught-up device becomes STANDBY at a solver-period boundary. -/
def State.paired (s : State) : State :=
  if s.twState = 3 ∧ s.caughtUp ∧ s.isSolverCycle s.cycle then
    let l := s.tw.mirrorIn
    let s := ((s.set R.TW_STATE_STATE 0 4).updTw fun t => { t with mirrorIn := [], missRun := 0, lost := false }).post Ev.twPaired .info
    l.foldl State.mirrorTake s
  else s

/-- TW_PAIRED (R383). -/
def execTwPaired (s : State) : Out := .next s.paired

/-! ### Digests (R379) -/

/-- The digests of cycle `m`, formed at its end. -/
def State.formDigest (s : State) (m : Nat) : Digest :=
  let cmd := (List.range 8).map fun g =>
    crc32c ((s.groupTillers g).flatMap fun n => wordBytes ((s.til n).rdX (s.get R.TL_XADDR_A_CMD_ADDR n)))
  let gens := (List.range 80).flatMap fun g => if s.bit R.MP_CFG_EN g then [(s.gen g).pos, (s.gen g).vel, (s.gen g).acc] else []
  let out := if s.isSolverCycle (m + 1) then
      (s.gr.back.filter fun e => s.kindOf e.1 = 4).map fun e => ((e.2.toNat : Nat) : Int) else []
  { cycle := m, cmd := cmd, st := Config.stateDigest (gens ++ out) }

/-- The command word that the drive of Tiller `n` reports in its feedback frame of cycle `m` (R362). -/
def State.cmdEcho (s : State) (m n : Nat) : Option Word :=
  match s.chanOf n with
  | none => none
  | some c =>
    let i := s.get R.FB_CFG_SRC c
    if s.get R.FB_CFG_KIND c = 1 ∧ s.slotDue i m ∧ (s.slot i).freshNow ∧ 32 ≤ (s.slot i).fill.length then
      some (BitVec.ofNat 32 (beField (s.slot i).fill 28 4))
    else none

/-- E[g] of cycle `m`, none when a slot of the group is missing. -/
def State.echoDigest (s : State) (m g : Nat) : Option Word :=
  let l := (s.groupTillers g).map (s.cmdEcho m)
  if l.isEmpty ∨ l.any Option.isNone then none else some (crc32c ((l.filterMap id).flatMap wordBytes))

/-- TW_CMD_ECHO on group `g`: the holder gives up the lease to a standby, or applies SS1 to the group. -/
def State.cmdEchoBad (s : State) (g : Nat) (injected : Bool) : State :=
  let alone := decide (s.peer ≠ 4)
  let s := (s.inc R.TW_COUNT_B_CMD_ECHO).post Ev.twCmdEcho .fault (some g) [] alone injected
  if alone then s.fault (2 ^ g) .ss1 Ev.twCmdEcho (some g) else s.giveUp Ev.twCmdEcho g

/-- TW_DIGEST_MISMATCH: the standby is FAULTED. -/
def State.digestBad (s : State) (injected : Bool) : State :=
  let s := (s.inc R.TW_COUNT_A_DIGEST_MISMATCH).post Ev.twDigestMismatch .fault none [] false injected
  if s.twState = 4 then s.twFault 1 Ev.twDigestMismatch else s

/-- TW_DIGEST_MISSING: the standby is FAULTED. -/
def State.digestMissing (s : State) (injected : Bool) : State :=
  let s := ((s.inc R.TW_COUNT_A_DIGEST_MISSING).updTw fun t => { t with missRun := 0 }).post Ev.twDigestMissing .fault none [] false injected
  if s.twState = 4 then s.twFault 2 Ev.twDigestMissing else s

/-- The effect of TW_DIGEST_MISSING: three consecutive cycles without the twin's digests. -/
def State.digestMissTest (s : State) : State :=
  if (s.twState = 2 ∨ s.twState = 4) ∧ 3 ≤ s.tw.missRun then s.digestMissing false else s

/-- TW_DIGEST_MISSING (R379). -/
def execTwDigestMissing (s : State) : Out := .next s.digestMissTest

/-- The holder's comparison at the end of cycle `m`, in which it has received E. -/
def State.compareHolder (s : State) (m : Nat) (own : Digest) : State :=
  (List.range 8).foldl (fun s g =>
    match s.echoDigest m g with
    | some e => if own.cmd.getD g 0 ≠ e then s.cmdEchoBad g false else s
    | none => s) s

/-- The standby's comparison. -/
def State.compareStandby (s : State) (m : Nat) (own peer : Digest) : State :=
  let cmd := (List.range 8).any fun g =>
    match s.echoDigest m g with
    | some e => decide (own.cmd.getD g 0 ≠ e) && decide (peer.cmd.getD g 0 = e)
    | none => false
  if cmd || own.st != peer.st then s.digestBad false else s

/-- Each cycle's comparison, at the end of cycle `m`, with its injections (R379, R477). -/
def State.twCompare (s : State) (m : Nat) : State :=
  if !s.bit R.TW_CFG_EN ∨ ¬ (s.twState = 2 ∨ s.twState = 4) then s
  else
    let fresh := match s.tw.peer with | some d => decide (d.cycle + 1 = m) | none => false
    let live := decide (s.tw.renewed ≠ 0 ∨ s.tw.lastRenew = m) && (s.twState == 4 || s.peer == 4)
    let s := s.updTw fun t => { t with missRun := if live && !fresh then t.missRun + 1 else 0 }
    let s :=
      match s.inject 1007 noInst with
      | (some ps, s) => if param ps 1 = 1 then s.digestMissing true else s.digestBad true
      | (none, s) => s
    let s :=
      match s.inject 1008 noInst with
      | (some ps, s) => if param ps 0 = 0 then s.echoLost (param ps 1 % 4) true else if s.holdsLease then s.cmdEchoBad (param ps 1 % 8) true else s
      | (none, s) => s
    match s.tw.own with
    | some own =>
      if own.cycle + 1 ≠ m then s
      else if s.twState = 2 then s.compareHolder m own
      else
        match s.tw.peer with
        | some peer => if fresh && s.twState == 4 then s.compareStandby m own peer else s
        | none => s
    | none => s

/-- The twin logic at the end of cycle `m`: the comparison, the digests of the cycle, the renewal count and the ECHO runs
(R371, R380). -/
def State.twEnd (s : State) (m : Nat) : State :=
  if !s.bit R.TW_CFG_EN ∨ s.twState = 0 then s
  else
    let s := s.twCompare m
    let d := s.formDigest m
    let s := s.updTw fun t => { t with own := some d }
    let ports := (List.range 4).filter fun p => (s.echoSlot p).isSome && s.bit R.CB_PORT_CFG_TOPOLOGY p
    let s := ports.foldl (fun s p =>
      if hasBit s.tw.echoGot p then s
      else s.updTw fun t => { t with echoMiss := Tab.upd (fun _ => 0) t.echoMiss p fun n => min 4 (n + 1) }) s
    let s := (s.set R.TW_LEASE_STAT_PATHS 0 s.tw.renewed)
    let s := if s.twState = 3 ∨ s.twState = 4 ∨ s.twState = 5 then
        (if s.tw.renewed ≠ 0 then s.set R.TW_LEASE_STAT_SINCE_RENEW 0 0 else s.inc R.TW_LEASE_STAT_SINCE_RENEW) else s
    let s := s.updTw fun t => { t with renewed := 0, echoGot := 0, lost := t.lost && decide (t.renewed = 0) }
    match s.inject 1009 noInst with
    | (some ps, s) =>
      if param ps 1 = 1 then
        (if s.twState = 3 ∨ s.twState = 5 then s.leaseLost true else s.set R.TW_LEASE_STAT_SINCE_RENEW 0 (s.get R.TW_CFG_LEASE_CYC))
      else if s.holdsLease && newerEpoch (param ps 0 % 65536) (s.get R.TW_EPOCH_EPOCH) then s.supersede true
      else s
    | (none, s) => s

/-- The holder captures its state at a solver-period boundary for a twin in TRANSFER, and sends it (R383). -/
def State.xferCapture (s : State) : State :=
  if s.holdsLease ∧ s.peer = 3 ∧ s.tw.capture.isNone then (s.updTw fun t => { t with capture := some s.cycle }).xferSend s.cycle else s

/-- The twin logic when the cell becomes ENABLED: CLAIMING. -/
def State.twEnable (s : State) : State :=
  if s.bit R.TW_CFG_EN then
    let s := (s.set R.TW_STATE_STATE 0 1).set R.TW_STATE_PATH_OK 0 0
    s.updTw fun t =>
      { t with lastMsg := some 0, tokenCycle := none, leaseSent := none, ackSent := none, renewed := 0, echoGot := 0, echoMiss := [], leaseSeen := none,
               ackSeen := none, own := none, peer := none, missRun := 0, handover := none, released := none, takeAt := none, lost := false, mirrorOut := [],
               mirrorIn := [], fwdReact := 0, fwdMask := 0, rxLast := [] }
  else s

/-- The twin logic when the cell leaves ENABLED: OFF; an open handover is lost. -/
def State.twDisable (s : State) : State :=
  let s := ((s.set R.TW_STATE_STATE 0 0).set R.TW_LEASE_STAT_SINCE_RENEW 0 0).closeHandover 6
  s.updTw fun t => { t with released := none, takeAt := none, mirrorOut := [], mirrorIn := [], tokenCycle := none, capture := none }

/-! ### TW_CMD (R375, R386) -/

/-- The name under which a descriptor is kept. -/
def Desc.id? (d : Desc) : Option DescId := if h : d.ring < 32 then some { ring := ⟨d.ring, h⟩, tag := d.word 1 } else none

/-- The effect of HANDOVER. -/
def State.twHandover (s : State) (d : Desc) : State :=
  if !s.holdsLease ∨ s.tw.released.isSome then s.completeDesc d { reason := 1 }
  else if s.peer ≠ 4 then s.completeDesc d { reason := 2 }
  else if !s.twinUp then s.completeDesc d { reason := 3 }
  else s.startHandover d.id?

/-- TW_CMD HANDOVER (R386). -/
def execTwCmdHandover (d : DescId) (s : State) : Out := .next (s.opAction d 0x28 3 0 0 (fun _ _ => {}) State.twHandover)

/-- The effect of SWITCH_BACK: B as HOLDER starts the handover; A as STANDBY waits for it. -/
def State.twSwitchBack (s : State) (d : Desc) : State :=
  if s.bit R.TW_CFG_POSITION then s.twHandover d
  else if s.twState ≠ 4 then s.completeDesc d { reason := 1 }
  else if s.peer ≠ 2 then s.completeDesc d { reason := 1 }
  else if !s.twinUp then s.completeDesc d { reason := 3 }
  else s.updTw fun t => { t with backDesc := d.id? }

/-- TW_CMD SWITCH_BACK (R384). -/
def execTwCmdSwitchBack (d : DescId) (s : State) : Out := .next (s.opAction d 0x28 3 0 1 (fun _ _ => {}) State.twSwitchBack)

/-- The effect of ALIGN: a relative step of minus the measured offset. -/
def State.twAlign (s : State) (d : Desc) : State :=
  if s.cell ≠ 0 ∨ !s.bit R.TW_CFG_EN then s.completeDesc d { reason := 1 }
  else if !s.twinUp then s.completeDesc d { reason := 3 }
  else
    s.goStep (.twin 0) 1 d.id?

/-- TW_CMD ALIGN (R375). -/
def execTwCmdAlign (d : DescId) (s : State) : Out := .next (s.opAction d 0x28 3 0 2 (fun _ _ => {}) State.twAlign)

/-- The effect of REPAIR. -/
def State.twRepair (s : State) (d : Desc) : State :=
  if s.twState ≠ 5 ∧ s.twState ≠ 6 then s.completeDesc d { reason := 1 }
  else if !s.twinUp then s.completeDesc d { reason := 3 }
  else if s.tw.causeCode ≠ 0 ∧ !s.acked s.tw.causeCode s.tw.causeInst then s.completeDesc d { reason := 4 }
  else s.beginTransfer.completeDesc d {}

/-- TW_CMD REPAIR (R386). -/
def execTwCmdRepair (d : DescId) (s : State) : Out := .next (s.opAction d 0x28 3 0 3 (fun _ _ => {}) State.twRepair)

end Sys2Proof.Machine
end

