-- ==== Sys2Proof/Machine/HostRing.lean ====
section
/-! DEFINITION. The PCIe function: doorbells and rings, the fetch of descriptors with the checks of their own format, MSI-X and
the reset of the host state (chapter 14). -/
namespace Sys2Proof.Machine

/-- Change the host interface. -/
def State.updHi (s : State) (f : HostIf → HostIf) : State := { s with hi := f s.hi }

/-! ### Doorbells and rings (R338 to R341) -/

/-- Entries in a ring of DEPTH_LOG2 `f`. -/
def State.depth (s : State) (f : Field) (n : Nat) : Nat := 2 ^ s.get f n

/-- A malformed doorbell or access: counted, HI_DESC_ERR once in a window. -/
def State.hostErr (s : State) (items : List Word) (injected : Bool) : State :=
  (s.inc R.HI_STATUS_DESC_ERR).postOnce Ev.hiDescErr .notice none items false injected

/-- Doorbells in the order in which they are served: of one tick the lower ring first (R36, R340). -/
def bellOrder (l : List (Nat × Nat × Nat)) : List (Nat × Nat × Nat) :=
  orderBy (fun a b => decide (a.1 < b.1) || (decide (a.1 = b.1) && decide (a.2.1 ≤ b.2.1))) l

/-- The doorbell of submission ring `q` makes descriptors visible up to `tail`; an invalid one is ignored (R339). -/
def State.sqBell (s : State) (q : Nat) (tail : Word) : State :=
  let s := s.updHi fun h => { h with bell := Tab.put (fun _ => 0) h.bell q tail }
  let (j, s) := s.inject 1003 q
  if j.isSome || !s.bit R.HI_SQ_CFG_EN q || decide (s.depth R.HI_SQ_CFG_DEPTH_LOG2 q ≤ tail.toNat) then
    s.hostErr [item q] j.isSome
  else if Tab.get (fun _ => 0) s.hi.tails q = tail.toNat then s
  else
    s.updHi fun h => { h with tails := Tab.put (fun _ => 0) h.tails q tail.toNat, bells := bellOrder (h.bells ++ [(s.tick, q, tail.toNat)]) }

/-- SQ_DOORBELL (R339). -/
def execSqDoorbell (q : Fin 32) (tail : Word) (s : State) : Out := .next (s.sqBell q tail)

/-- The doorbell of completion ring `c` gives its consumed index; held entries are written (R341). -/
def State.cqBell (s : State) (c : Nat) (idx : Word) : State :=
  let s := s.updHi fun h => { h with bell := Tab.put (fun _ => 0) h.bell (64 + c) idx }
  let (j, s) := s.inject 1003 c
  if j.isSome || !s.bit R.HI_CQ_CFG_EN c || decide (s.depth R.HI_CQ_CFG_DEPTH_LOG2 c ≤ idx.toNat) then
    s.hostErr [item c] j.isSome
  else State.drainRing 64 (s.updCring c fun r => { r with consumed := idx.toNat }) c

/-- CQ_DOORBELL (R341). -/
def execCqDoorbell (c : Fin 32) (idx : Word) (s : State) : Out := .next (s.cqBell c idx)

/-- Drop the doorbells of ring `q`. -/
def State.dropBells (s : State) (q : Nat) : State :=
  s.updHi fun h => { h with tails := Tab.put (fun _ => 0) h.tails q 0, bells := h.bells.filter fun b => b.2.1 != q }

/-- EN of submission ring `q` goes from 0 to 1 (R338). -/
def State.sqStart (s : State) (q : Nat) : State :=
  if s.bit R.HI_SQ_CFG_EN q then s
  else
    let s := ((s.setBit R.HI_SQ_CFG_EN q true).set R.HI_SQ_STATUS_HEAD q 0).setBit R.HI_SQ_STATUS_HALTED q false
    (s.dropBells q).updHi fun h => { h with bell := Tab.put (fun _ => 0) h.bell q 0 }

/-- SQ_ENABLE (R338). -/
def execSqEnable (q : Fin 32) (s : State) : Out := .next (s.sqStart q)

/-- EN of submission ring `q` goes to 0: fetching stops, and fetched descriptors whose action has not started complete with
0xF5 (R338). -/
def State.sqStop (s : State) (q : Nat) : State :=
  if s.bit R.HI_SQ_CFG_EN q then
    let s := (s.setBit R.HI_SQ_CFG_EN q false).dropBells q
    (s.hi.descs.filter fun d => d.ring == q && !d.started).foldl (fun s d => s.completeDesc d { reason := 0xF5 }) s
  else s

/-- SQ_DISABLE (R338). -/
def execSqDisable (q : Fin 32) (s : State) : Out := .next (s.sqStop q)

/-- EN of completion ring `c` goes from 0 to 1 (R338): the entries held for it are written as it has space. -/
def State.cqStart (s : State) (c : Nat) : State :=
  if s.bit R.HI_CQ_CFG_EN c then s
  else
    let s := ((s.setBit R.HI_CQ_CFG_EN c true).set R.HI_CQ_STATUS_TAIL c 0).set R.HI_CQ_STATUS_PHASE c 1
    let s := s.updHi fun h => { h with bell := Tab.put (fun _ => 0) h.bell (64 + c) 0 }
    State.drainRing 64 (s.updCring c fun r => { r with everEn := true, consumed := 0 }) c

/-- CQ_ENABLE (R338). -/
def execCqEnable (c : Fin 32) (s : State) : Out := .next (s.cqStart c)

/-- EN of completion ring `c` goes to 0: it receives no entries (R338). -/
def State.cqStop (s : State) (c : Nat) : State := s.setBit R.HI_CQ_CFG_EN c false

/-- CQ_DISABLE (R338). -/
def execCqDisable (c : Fin 32) (s : State) : Out := .next (s.cqStop c)

/-! ### The format of a descriptor (R342, R343) -/

/-- The bits of a word from `lo` to `hi`, as a mask. -/
def bitMask (hi lo : Nat) : Nat := 2 ^ (hi + 1) - 2 ^ lo

/-- All 32 bits. -/
def allBits : Nat := 0xFFFFFFFF

/-- The bits that opcode `op` uses of D4 to D15; none for a reserved opcode (R344, R386, R400, R413). -/
def opMasks (d : Desc) : Option (List Nat) :=
  let a := allBits
  match d.bits 0 7 0 with
  | 0x00 => some []
  | 0x01 => some [a, a, bitMask 20 0, bitMask 16 0]
  | 0x02 => some [a, a, a, a, a, a, a, a]
  | 0x03 => some ([a, a] ++ (List.replicate 4 [bitMask 20 2, bitMask 10 0]).flatten)
  | 0x08 => some [a, a, a, bitMask 9 0, a, a]
  | 0x09 => some [a, a, a, a, a, a]
  | 0x0A => some [a, a, a, bitMask 3 0 + bitMask 15 8, a, a, bitMask 20 0]
  | 0x0B => some [a, a, a, bitMask 5 0, a, a]
  | 0x0C => some [a, a, a, 0, a, a]
  | 0x0D => some [a]
  | 0x10 => some [bitMask 2 0 + bitMask 5 4]
  | 0x11 => some [bitMask 6 0, bitMask 4 0, a, a]
  | 0x12 => some [bitMask 3 0, bitMask 4 0, a, a, a]
  | 0x13 | 0x14 => some [bitMask 6 0]
  | 0x15 => some [bitMask 5 0, bitMask 0 0]
  | 0x16 => some [bitMask 5 0, bitMask 1 0, a]
  | 0x18 => some [bitMask 5 0]
  | 0x20 => some (if hasBit (d.word 4) 6 then [bitMask 7 0, a, a, a, a, a, a] else [bitMask 7 0, a, a, a, a, a, a, a, a])
  | 0x21 | 0x22 => some [bitMask 9 0]
  | 0x23 => some [bitMask 10 0 + bitMask 13 12 + bitMask 17 16, bitMask 10 0, a, a]
  | 0x24 => some [bitMask 10 0 + bitMask 13 12, a, a, a]
  | 0x28 => some [bitMask 3 0]
  | 0x30 =>
    some (bitMask 3 0 ::
      match d.bits 4 3 0 with
      | 2 => [bitMask 15 0 + bitMask 31 31, bitMask 15 0]
      | 3 => [bitMask 1 0, 0, 0, a, a, a, a, a, a, a, a]
      | 7 => [bitMask 5 0]
      | _ => [])
  | 0x31 =>
    some (bitMask 3 0 ::
      match d.bits 4 3 0 with
      | 0 => [0, 0, 0, a, a, a, a]
      | 2 => [bitMask 12 0, bitMask 15 0, bitMask 15 0, a, a, a, a, bitMask 29 0, a, bitMask 15 0]
      | 3 => [bitMask 9 0]
      | _ => [])
  | _ => none

/-- The values of an injection's parameters lie in the ranges that R477 states. -/
def injRange (idx : Nat) (p : List Nat) : Bool :=
  let p0 := p.getD 0 0
  let p1 := p.getD 1 0
  let p2 := p.getD 2 0
  if idx ≤ 9 ∨ (88 ≤ idx ∧ idx ≤ 91) ∨ (292 ≤ idx ∧ idx ≤ 307) ∨ (889 ≤ idx ∧ idx ≤ 897) ∨ idx = 1018 then p0 ≤ 0xFFFF
  else if (288 ≤ idx ∧ idx ≤ 291) ∨ [962, 963, 968, 1001, 1010, 1011].contains idx then p0 ≤ 1
  else if 308 ≤ idx ∧ idx ≤ 313 then p0 ≤ 3
  else if idx = 314 then decide (p0 ≤ 1) && decide (p1 ≤ 1)
  else if 880 ≤ idx ∧ idx ≤ 888 then decide (p0 ≤ 0xFFFF) && decide (p2 ≤ 63)
  else if 925 ≤ idx ∧ idx ≤ 933 then decide (1 ≤ p0) && decide (p0 ≤ 3) && (p0 == 1 || decide (p1 ≤ 63))
  else if 934 ≤ idx ∧ idx ≤ 941 then decide (1 ≤ p0) && decide (p0 ≤ 5)
  else if idx = 951 then decide (p0 ≤ 7) && decide (p1 ≤ 7) && p0 != p1
  else if idx = 952 then decide (1 ≤ p1) && decide (p1 ≤ 5)
  else if 969 ≤ idx ∧ idx ≤ 984 then decide (1 ≤ p0) && decide (p0 ≤ 6)
  else if idx = 1004 then decide (p0 ≤ 1) && decide (p1 ≤ 255)
  else if idx = 1007 then decide (p0 ≤ 8) && decide (p1 ≤ 1)
  else if idx = 1008 then decide (p0 ≤ 1) && decide (p1 ≤ if p0 = 0 then 3 else 7)
  else if idx = 1009 then decide (p0 ≤ 0xFFFF) && decide (p1 ≤ 1)
  else if idx = 1014 then decide (p0 ≤ 8)
  else true

/-- The operands lie in their ranges. -/
def opRange (d : Desc) : Bool :=
  let long := d.bits 8 5 0 == 0
  match d.bits 0 7 0 with
  | 0x01 => decide (1 ≤ d.bits 7 16 0) && decide (d.bits 7 16 0 ≤ 65536)
  | 0x08 | 0x09 | 0x0B | 0x0C => long
  | 0x0A => long && decide (d.bits 7 3 0 ≤ 8)
  | 0x11 | 0x13 | 0x14 => decide (d.bits 4 6 0 ≤ 79)
  | 0x15 => decide (d.bits 4 5 0 ≤ 47)
  | 0x18 => decide (d.bits 4 5 4 ≤ 2)
  | 0x20 => decide (d.bits 4 2 0 ≤ 5)
  | 0x23 => decide (d.bits 4 10 0 ≤ 1023)
  | 0x24 => decide (d.bits 4 10 0 ≤ 1023) || d.bits 4 10 0 == 0x7FF
  | 0x28 => decide (d.bits 4 3 0 ≤ 3)
  | 0x30 => decide (d.bits 4 3 0 ≤ 7) && (d.bits 4 3 0 != 3 || decide (d.bits 5 1 0 ≤ 1))
  | 0x31 =>
    decide (d.bits 4 3 0 ≤ 4) &&
      (d.bits 4 3 0 != 2 ||
        (d.bits 5 11 10 != 3 && (d.bits 5 11 10 != 2 || d.bits 6 15 0 != 0) && decide (d.bits 12 29 0 < 1000000000)
          && injRange (d.bits 5 9 0) [d.word 8, d.word 9, d.word 10, d.word 11]))
  | _ => true

/-- A word has a bit outside a mask. -/
def outside (w mask : Nat) : Bool := (w &&& mask) != w

/-- A reserved field of the descriptor is nonzero, given the bits that its operands use. -/
def reservedSet (d : Desc) (ms : List Nat) : Bool :=
  outside (d.word 0) (bitMask 20 16 + bitMask 11 0) || d.word 3 != 0
    || (List.range 12).any fun i => outside (d.word (4 + i)) (ms.getD i 0)

/-- The generic reason that a descriptor's own format gives: 0xF0, 0xF1, or none (R343). -/
def State.formatReason (s : State) (d : Desc) : Option Nat :=
  match opMasks d with
  | none => some 0xF0
  | some ms => if reservedSet d ms || !opRange d || !(s.cring d.cq).everEn then some 0xF1 else none

/-! ### Fetching (R340, R341, R343, R345) -/

/-- Ring `q` has a visible descriptor, is enabled and not halted. -/
def State.fetchable (s : State) (q : Nat) : Bool :=
  s.bit R.HI_SQ_CFG_EN q && !s.bit R.HI_SQ_STATUS_HALTED q && s.get R.HI_SQ_STATUS_HEAD q != Tab.get (fun _ => 0) s.hi.tails q

/-- No completion ring holds as many entries as it may, so that no fetch waits on one. -/
def State.noneHeld (s : State) : Bool := (List.range 32).all fun c => decide ((s.cring c).held.length < 64)

/-- Ring `q` is the next to be fetched from: no other ring's descriptors were made visible by an earlier doorbell, unless a
full completion ring may hold theirs back. -/
def State.fetchTurn (s : State) (q : Nat) : Bool :=
  s.fetchable q && (!s.noneHeld || (s.hi.bells.takeWhile fun b => b.2.1 != q).all fun b => !s.fetchable b.2.1)

/-- HEAD of ring `q` passes a slot; a doorbell whose descriptors are all fetched is done with. -/
def State.passHead (s : State) (q : Nat) : State :=
  let next := (s.get R.HI_SQ_STATUS_HEAD q + 1) % s.depth R.HI_SQ_CFG_DEPTH_LOG2 q
  (s.set R.HI_SQ_STATUS_HEAD q next).updHi fun h => { h with bells := h.bells.filter fun b => b.2 != (q, next) }

/-- A refusal of a descriptor by its own format under an injection at 1003. -/
def State.descErrInjected (s : State) (d : Desc) : State :=
  ((s.inc R.HI_STATUS_DESC_ERR).postOnce Ev.hiDescErr .notice none [item d.ring, item d.index, item (d.word 1), item 0xF1] false true).completeDesc
    d { reason := 0xF1 }

/-- A descriptor has been read: the checks of its own format, then it waits for its action. -/
def State.takeDesc (s : State) (d : Desc) : State :=
  match s.inject 1003 d.ring with
  | (some _, s) => s.descErrInjected d
  | (none, s) =>
    match s.formatReason d with
    | some r => if (s.cring d.cq).everEn then s.descErr d r else s.completeDesc d { reason := r }
    | none => s.updHi fun h => { h with descs := h.descs ++ [d] }

/-- The ring processor reads the next descriptor of ring `q`; `words` is none when the host read fails. -/
def State.fetchDesc (s : State) (q : Nat) (words : Option (List Word)) : State :=
  if s.fetchTurn q then
    let index := s.get R.HI_SQ_STATUS_HEAD q
    let (j, s) := s.inject 1002 q
    match j, words with
    | none, some l =>
      let d : Desc := { ring := q, index, words := l.take 16 }
      if 64 ≤ (s.cring d.cq).held.length then s else (s.passHead q).takeDesc d
    | _, _ =>
      let s := (s.passHead q).dmaError q j.isSome
      (s.inc R.HI_STATUS_DESC_ERR).post Ev.hiDescErr .notice none [item q, item index, item 0xF2]
  else s

/-- DESCRIPTOR_FETCH (R340). -/
def execDescriptorFetch (q : Fin 32) (words : Option (List Word)) (s : State) : Out := .next (s.fetchDesc q words)

/-- NOP completes at fetch (R344). -/
def execNop (d : DescId) (s : State) : Out := .next (s.action d 0x00 (fun _ _ => {}) fun s d => s.completeDesc d {})

/-! ### MSI-X (R348, R349) -/

/-- What a word of the MSI-X table holds that nothing has written: the vector's mask bit is set. -/
def msixReset (i : Nat) : Word := if i % 4 = 3 then 1 else 0

/-- A word of the MSI-X table. -/
def State.msix (s : State) (i : Nat) : Word := Tab.get msixReset s.hi.msixTab i

/-- A vector is masked. -/
def State.msixMasked (s : State) (v : Nat) : Bool := s.hi.funcMask || hasBit (s.msix (4 * v + 3)).toNat 0

/-- The message of vector `v` is written to the address of its table entry. -/
def State.msixWrite (s : State) (v : Nat) : State :=
  s.hostPutWords ((s.msix (4 * v)).toNat / 4 * 4 + (s.msix (4 * v + 1)).toNat * 2 ^ 32) [s.msix (4 * v + 2)]

/-- Send a message on vector `v`: a masked vector keeps it pending, and an entry never written sends nothing. -/
def State.sendVec (s : State) (v : Nat) : State :=
  if Tab.get (fun _ => false) s.hi.msixWritten v then
    if s.msixMasked v then s.updHi fun h => { h with msixPend := orBit h.msixPend v } else s.msixWrite v
  else s

/-- Write word `i` of the MSI-X table; a vector that is unmasked sends what is pending. -/
def State.msixPut (s : State) (i : Nat) (w : Word) : State :=
  let v := i / 4
  let s := s.updHi fun h =>
    { h with msixTab := Tab.put msixReset h.msixTab i w, msixWritten := Tab.put (fun _ => false) h.msixWritten v true }
  if hasBit s.hi.msixPend v && !s.msixMasked v then
    (s.updHi fun h => { h with msixPend := clrBit h.msixPend v }).msixWrite v
  else s

/-- The entries counted toward the message of ring `c` number COAL_COUNT, or COAL_US has passed since the first. -/
def State.msgDue (s : State) (c : Nat) : Bool :=
  let r := s.cring c
  let us := s.get R.HI_CQ_CFG_COAL_US c
  r.counted != 0 &&
    (decide (max 1 (s.get R.HI_CQ_CFG_COAL_COUNT c) ≤ r.counted) ||
      (us != 0 && (match r.first with | some t => decide (t + 125 * us ≤ s.tick) | none => false)))

/-- The message of completion ring `c`. -/
def State.ringMessage (s : State) (c : Nat) : State :=
  if s.msgDue c then (s.updCring c fun r => { r with counted := 0, first := none }).sendVec (s.get R.HI_CQ_CFG_VECTOR c) else s

/-- MSIX_MESSAGE (R349). -/
def execMsixMessage (c : Fin 32) (s : State) : Out := .next (s.ringMessage c)

/-! ### Reset of the host state and bad accesses (R336, R337) -/

/-- The registers of the rings lie at this BAR0 offset. -/
def ringReg (off : Nat) : Bool := decide (0x100100 ≤ off) && decide (off < 0x100900)

/-- Drop what waits elsewhere for a descriptor: receive buffers and queued acyclic frames. -/
def State.dropQueued (s : State) : State :=
  let s : State := { s with cb := { s.cb with recv := [] } }
  (List.range 4).foldl (fun s p => s.updPort p fun x =>
    { x with lat := x.lat.filter fun a => a.desc.isNone, acy := x.acy.filter fun a => a.desc.isNone }) s

/-- Replace a long operation. -/
def State.putLong (s : State) (l : LongOp) : State :=
  s.updHi fun h => { h with longs := h.longs.map fun x => if x.desc = l.desc then l else x }

/-- The sixteen words of a status word (R355). -/
def LongOp.words (l : LongOp) (reason sec ns : Nat) : List Word :=
  [item (l.state + l.opcode * 2 ^ 8 + reason * 2 ^ 16 + l.update * 2 ^ 24), item l.desc.tag, item l.progress, item l.total,
   item l.partials, item ns, item sec, l.w7] ++ List.replicate 8 0

/-- Write the status word of a long operation: W1 to W15, then W0 with UPDATE incremented (R356). -/
def State.writeStatus (s : State) (d : Desc) (l : LongOp) (reason : Nat) : State :=
  let w := l.words reason s.sec s.ns
  let s := s.hostPutWords (d.addr 8 + 4) (w.drop 1)
  let s := s.hostPutWords (d.addr 8) (w.take 1)
  s.putLong { l with update := (l.update + 1) % 256 }

/-- An image that was being loaded leaves its entry EMPTY (R357). -/
def State.dropLong (s : State) (l : LongOp) : State :=
  if l.opcode = 0x08 then
    match s.desc? (dkey l.desc) with
    | some d => (s.set R.HI_IMG_STAT_STATE (d.bits 7 9 0) 0).set R.HI_IMG_STAT_IMAGE_ID (d.bits 7 9 0) 0
    | none => s
  else s

/-- A long operation stops with state ABORTED, but for a FW_UPDATE, which only keeps the previous firmware in force (R337). -/
def State.abortLong (s : State) (l : LongOp) : State :=
  let s := s.dropLong l
  match s.desc? (dkey l.desc) with
  | some d => if l.opcode = 0x0C then s else s.writeStatus d { l with state := 4 } 7
  | none => s

/-- A link-down, hot reset or Function Level Reset (R337). -/
def State.resetHost (s : State) : State :=
  let s := s.hi.longs.foldl State.abortLong s
  let s := s.dropQueued
  let s : State := { s with regs := { s.regs with hi := s.regs.hi.filter fun e => !ringReg e.1 } }
  let s : State := { s with gr := { s.gr with heldWrites := [] } }
  let s := s.updHi fun h =>
    { h with
      bell := [], tails := [], bells := [], descs := [], cring := [], msixTab := [], msixWritten := [], msixPend := 0, longs := [] }
  s.post Ev.hiLinkReset .notice

/-- HOST_RESET (R337). -/
def execHostReset (s : State) : Out := .next s.resetHost

/-- A BAR0 access of a bad size or alignment: a write is discarded with a notice, a read completes with Completer Abort. -/
def State.badAccess (s : State) (write : Bool) : State :=
  if write then
    let (j, s) := s.inject 1003 noInst
    s.hostErr [] j.isSome
  else s

/-- BAR0_BAD_ACCESS (R336). -/
def execBar0BadAccess (write : Bool) (s : State) : Out := .next (s.badAccess write)

end Sys2Proof.Machine
end

