-- ==== Sys2Proof/Machine/RegRead.lean ====
section
/-! DEFINITION. What a read of BAR0 returns, without its side effects (R6, R11, R20): windows onto tables, the MSI-X table, fields
served from the frozen publication bank and fields that read as 0. -/
namespace Sys2Proof.Machine

/-- The block that a BAR0 offset lies in (R476). -/
def blkOf (off : Nat) : Blk :=
  if off < 0x10000 then .sys else if off < 0x20000 then .tb else if off < 0x40000 then .cb else if off < 0x60000 then .fb
  else if off < 0x80000 then .tl else if off < 0xA0000 then .mp else if off < 0xC0000 then .sv else if off < 0xE0000 then .sep
  else if off < 0xF0000 then .sch else if off < 0x100000 then .me else if off < 0x110000 then .hi else if off < 0x120000 then .tw
  else if off < 0x130000 then .ev else if off < 0x140000 then .bb else if off < 0x150000 then .inj else if off < 0x160000 then .ad
  else if off < 0x200000 then .pw else if off < 0x221000 then .sch else if off < 0x230000 then .hi else if off < 0x240000 then .cb else .inj

/-- The fields of a block. -/
def mapOf : Blk → List Field
  | .sys => R.sysMap | .tb => R.tbMap | .cb => R.cbMap | .fb => R.fbMap | .tl => R.tlMap | .mp => R.mpMap | .sv => R.svMap
  | .sep => R.sepMap | .sch => R.schMap | .me => R.meMap | .hi => R.hiMap | .tw => R.twMap | .ev => R.evMap | .bb => R.bbMap
  | .inj => R.injMap | .ad => R.adMap | .pw => R.pwMap

/-- The place of a register in its bank: a window shows the entry of the table that its selector names. -/
def State.place (s : State) (off : Nat) : Nat :=
  if off = 0xE000C then 0x220000 + 4 * s.get R.SCH_UNIT_SEL_UNIT
  else if 0xE0044 ≤ off ∧ off < 0xE0060 then 0x200000 + 0x20 * s.get R.SCH_TASK_SEL_TASK + (off - 0xE0044)
  else if off = 0x20544 ∨ off = 0x20548 then 0x230000 + 8 * s.get R.CB_SLOT_SEL_SLOT + (off - 0x20544)
  else if off = 0x101004 then 0x221000 + 4 * s.get R.HI_IMG_SEL_ENTRY
  else if off = 0x14000C ∨ off = 0x140010 then 0x240000 + 8 * s.get R.INJ_SEL_SLOT + (off - 0x14000C)
  else off

/-- The fields of the register at a place. -/
def fieldsAt (place : Nat) : List Field := (mapOf (blkOf place)).filter fun f => (f.instAt place).isSome

/-- The RC fields that are no counters: a minimum, a maximum and a list of causes. -/
def rcHolds : List Field := [R.PW_PACE_MIN, R.PW_TEMP_TJ_MAX, R.PW_RESET_CAUSE_CAUSE]

/-- What a read shows of RC field `f` beside the bank: a counter without the increments of this tick (R8). -/
def rcShown (f : Field) (live old : Word) : Nat :=
  if rcHolds.contains f || decide (bitsOf live f.hi f.lo < bitsOf old f.hi f.lo) then bitsOf live f.hi f.lo
  else bitsOf old f.hi f.lo

/-- The word of a register with each field as a read returns it: `frozen` is its word in the publication bank, `old` the word that
the tick found. -/
def readFields (live frozen old : Word) (fs : List Field) : Word :=
  fs.foldl (fun w f =>
    if f.acc = .wo then withBits w f.hi f.lo 0
    else if f.pub then withBits w f.hi f.lo (bitsOf frozen f.hi f.lo)
    else if f.acc = .rc then withBits w f.hi f.lo (rcShown f live old)
    else w) live

/-- What a read at BAR0 offset `off` returns, with nothing cleared and nothing captured. -/
def State.peek (s : State) (off : Nat) : Word :=
  if 0x108000 ≤ off ∧ off < 0x108400 then s.msix ((off - 0x108000) / 4)
  else if off = 0x109000 then BitVec.ofNat 32 s.hi.msixPend
  else if off = 0x109004 then BitVec.ofNat 32 (s.hi.msixPend / 2 ^ 32)
  else
    let p := s.place off
    let b := blkOf p
    readFields (s.regs.word b p) (s.frozen.word b p) (s.view.regs.word b p) (fieldsAt p)

end Sys2Proof.Machine
end

