-- ==== Sys2Proof/Machine/Commit.lean ====
section
/-! DEFINITION. Parameters in the Granary: writes to shadow banks, commits, the swap of R17, the copies behind it, and snapshots
(chapter 14). -/
namespace Sys2Proof.Machine

/-- Change the Granary. -/
def State.updGr (s : State) (f : Granary → Granary) : State := { s with gr := f s.gr }

/-! ### PARAM_WRITE (R351, R353) -/

/-- Region `i` is a parameter region. -/
def State.paramRegion (s : State) (i : Nat) : Bool := [1, 2].contains (s.get R.HI_GR_A_KIND i)

/-- The copy behind a swap of region `i` is still running. -/
def State.copying (s : State) (i : Nat) : Bool := s.gr.copies.any fun c => c.1 == i

/-- The action of PARAM_WRITE with the words read from the host. -/
def State.doParamWrite (s : State) (data : Option (List Word)) (d : Desc) : State :=
  let w := d.bits 6 20 0
  let n := d.bits 7 16 0
  match s.regionOf w with
  | none => s.completeDesc d { reason := 1 }
  | some i =>
    if !s.paramRegion i || !s.inRegion i (w + n - 1) then s.completeDesc d { reason := 1 }
    else
      match data with
      | none => s.completeDesc d { reason := 0xF2 }
      | some l =>
        if s.copying i then
          s.updGr fun g =>
            { g with heldWrites := g.heldWrites ++
              [{ desc := { ring := ⟨d.ring % 32, Nat.mod_lt _ (by decide)⟩, tag := d.word 1 }, addr := w, words := l.take n }] }
        else (s.grPutList w (l.take n)).completeDesc d {}

/-- PARAM_WRITE (R351). -/
def execParamWrite (d : DescId) (data : Option (List Word)) (s : State) : Out :=
  .next (s.action d 0x01 (fun _ _ => {}) fun s e => s.doParamWrite data e)

/-! ### COMMIT (R17, R352, R378) -/

/-- The regions that a COMMIT names. -/
def commitRegions (d : Desc) : List Nat := (List.range 256).filter fun i => hasBit (d.word (4 + i / 32)) (i % 32)

/-- The first cycle of the grid that starts at least 2 µs after the LEASE of cycle `c`, at a solver period when asked for. -/
def State.commitCycle (s : State) (c : Nat) (solver : Bool) : Nat :=
  let t := s.cycleNs
  let after := c * t + 8 * s.get R.TW_TIMING_LEASE_OFFSET + 2000
  let n := (after + t - 1) / t
  if solver then (n + s.solverCyc - 1) / s.solverCyc * s.solverCyc else n

/-- Two bytes of a region and four of its CRC; an unused pair names no region. -/
def commitPair (p : Option (Nat × Word)) : List Byte :=
  match p with
  | some (i, c) => beBytes 2 i ++ beBytes 4 c.toNat
  | none => beBytes 2 0xFFFF ++ beBytes 4 0

/-- The contents of the mirror records of a commit, four regions to a record. -/
def commitContents : Nat → List (Nat × Word) → List (List Byte)
  | 0, _ => []
  | _ + 1, [] => []
  | n + 1, l => ((List.range 4).flatMap fun k => commitPair l[k]?) :: commitContents n (l.drop 4)

/-- The action of COMMIT. -/
def State.doCommit (s : State) (d : Desc) : State :=
  let l := commitRegions d
  if l.isEmpty || !(l.all s.paramRegion) then s.completeDesc d { reason := 1 }
  else
    let solver := l.any fun i => s.get R.HI_GR_A_KIND i == 2
    let k := if s.holdsLease && s.enabled then some (s.commitCycle s.acceptCycle solver) else none
    let s :=
      match k with
      | some n => (commitContents 64 (l.map fun i => (i, s.shadowCrc i))).foldl (fun (s : State) c => s.mirror 2 n c) s
      | none => s
    let q : CommitReq :=
      { desc := some { ring := ⟨d.ring % 32, Nat.mod_lt _ (by decide)⟩, tag := d.word 1 }, regions := l, tick := s.tick,
        enabled := s.enabled, twinCycle := k }
    s.updGr fun g => { g with commits := g.commits ++ [q] }

/-- COMMIT (R352): its acceptance waits while the cell is CHECKING or DISABLING. -/
def execCommit (d : DescId) (s : State) : Out :=
  .next (if s.cell = 1 ∨ s.cell = 3 then s else s.action d 0x02 holderGate State.doCommit)

/-! ### The swap (R17, R19, R203, R352) -/

/-- A commit falls due: at its boundary while cycles run, else 2 µs after its acceptance or after the cell became DISABLED. -/
def State.commitDue (s : State) (q : CommitReq) : Bool :=
  if q.enabled then
    match q.offTick with
    | some t => decide (t + 250 ≤ s.tick)
    | none =>
      match s.grid.cyc with
      | none => false
      | some n =>
        match q.twinCycle with
        | some k => decide (k ≤ n)
        | none =>
          decide (q.tick + 250 ≤ s.grid.start)
            && (!(q.regions.any fun i => s.get R.HI_GR_A_KIND i == 2) || s.isSolverCycle n)
  else decide (q.tick + 250 ≤ s.tick)

/-- Region `i` swaps; the copy into its new shadow bank takes 16 ns a word. -/
def State.swapParam (s : State) (i : Nat) : State :=
  (s.swapRegion i).updGr fun g =>
    { g with copies := g.copies.filter (fun c => c.1 != i) ++ [(i, s.tick + 2 * s.get R.HI_GR_B_LENGTH i)] }

/-- The engines whose parameter block lies in a swapped region check their parameters in the next solve (R243). -/
def State.paramSwapped (s : State) (l : List Nat) : State :=
  (List.range 9).foldl (fun s e =>
    if l.any fun i => s.inRegion i (s.get R.SV_PB_ADDR_ADDR e) then s.updEng e fun y => { y with paramCheck := true } else s) s

/-- The generators whose limit block lies in a swapped region take their new limits while the cell runs (R203). -/
def State.limitsSwapped (s : State) (l : List Nat) : State :=
  if s.cell = 0 then s
  else
    (List.range 80).foldl (fun s g =>
      if s.bit R.MP_CFG_EN g && l.any fun i => s.inRegion i (s.get R.MP_LIM_SRC_ADDR g) then s.limitCommit g else s) s

/-- The regions of one commit swap and its descriptor completes. -/
def State.commitOne (s : State) (q : CommitReq) : State :=
  let s := q.regions.foldl State.swapParam s
  let s := (s.paramSwapped q.regions).limitsSwapped q.regions
  let running := q.enabled && q.offTick.isNone
  match q.desc with
  | some d => s.complete (dkey d) { a := if running then BitVec.ofNat 32 s.cycle else 0xFFFFFFFF }
  | none => s

/-- Every commit that is due swaps, in the order of acceptance. -/
def State.commitSwap (s : State) : State :=
  let due := s.gr.commits.filter s.commitDue
  due.foldl State.commitOne (s.updGr fun g => { g with commits := g.commits.filter fun q => !s.commitDue q })

/-- COMMIT_SWAP (R17). -/
def execCommitSwap (s : State) : Out := .next s.commitSwap

/-- A held PARAM_WRITE reaches the shadow bank. -/
def State.flushWrite (s : State) (h : HeldWrite) : State := (s.grPutList h.addr h.words).complete (dkey h.desc) {}

/-- Copies that have run their time end, and the writes held behind them go on (R353). -/
def State.copyEnd (s : State) : State :=
  let s := s.updGr fun g => { g with copies := g.copies.filter fun c => decide (s.tick < c.2) }
  let free := fun (h : HeldWrite) => !(s.gr.copies.any fun c => s.inRegion c.1 h.addr)
  (s.gr.heldWrites.filter free).foldl State.flushWrite
    (s.updGr fun g => { g with heldWrites := g.heldWrites.filter fun h => !free h })

/-- SHADOW_COPY_END (R353). -/
def execShadowCopyEnd (s : State) : Out := .next s.copyEnd

/-! ### SNAPSHOT (R354) -/

/-- The four ranges of a SNAPSHOT: byte offset and words. -/
def snapRanges (d : Desc) : List (Nat × Nat) := (List.range 4).map fun k => (4 * d.bits (6 + 2 * k) 20 2, d.bits (7 + 2 * k) 10 0)

/-- The action of SNAPSHOT; `restarts` counts the passes that the next boundary overtook. -/
def State.doSnapshot (s : State) (restarts : Nat) (d : Desc) : State :=
  let l := snapRanges d
  if l.any (fun r => decide (0x200000 < r.1 + 4 * r.2)) || decide (1024 < (l.map fun r => r.2).sum) then
    s.completeDesc d { reason := 1 }
  else if 3 < restarts then s.completeDesc d { reason := 2 }
  else
    let data := l.flatMap fun r => (List.range r.2).map fun k => s.peek (r.1 + 4 * k)
    let a := match s.grid.cyc with | some n => BitVec.ofInt 32 ((n : Int) - 1) | none => 0xFFFFFFFF
    (s.hostPutWords (d.addr 4) data).completeDesc d { a }

/-- SNAPSHOT (R354). -/
def execSnapshot (d : DescId) (restarts : Nat) (s : State) : Out :=
  .next (s.action d 0x03 (fun _ _ => {}) fun s e => s.doSnapshot restarts e)

end Sys2Proof.Machine
end

