-- ==== Sys2Proof/Machine/Recorder.lean ====
section
/-! DEFINITION. The event recorder: event input, record store, freezes, the window, acknowledgement, the event interrupt and
EV_CMD; and fault injection with INJ_CMD (chapter 16). -/
namespace Sys2Proof.Machine

/-- Change the recorder. -/
def State.updEv (s : State) (f : Recorder → Recorder) : State := { s with ev := f s.ev }

/-- Change the Orangery. -/
def State.updBb (s : State) (f : Orangery → Orangery) : State := { s with bb := f s.bb }

/-! ### Records (R387, R388) -/

/-- The number of a severity. -/
def sevNum : Sev → Nat
  | .info => 0 | .notice => 1 | .fault => 2 | .fatal => 3

/-- The number of a plane. -/
def planeNum : Plane → Nat
  | .data => 0 | .control => 1 | .management => 2 | .wedgeSafe => 3

/-- The words of a record: header and payload. -/
def EvRec.words (r : EvRec) : List Word :=
  item ((r.body.length + 1) + sevNum r.sev * 2 ^ 6 + r.code * 2 ^ 8 + planeNum r.plane * 2 ^ 24 + (if r.injected then 2 ^ 26 else 0)
      + (if r.esc then 2 ^ 27 else 0))
    :: item (r.ns + r.sec % 4 * 2 ^ 30) :: r.body

/-- The bytes of a record. -/
def EvRec.size (r : EvRec) : Nat := 4 * (2 + r.body.length)

/-- The bytes of a list of records. -/
def recBytes (l : List EvRec) : Nat := (l.map EvRec.size).sum

/-- A record that opens an acknowledgement entry. -/
def EvRec.serious (r : EvRec) : Bool := r.sev == .fault || r.sev == .fatal

/-- A record of the seconds (R393). -/
def EvRec.isTime (r : EvRec) : Bool := r.code == Ev.evTime

/-! ### The Orangery's fault log and mirror slot (R401 to R403, R408) -/

/-- A write to the MRAM; the spare that remains is open, and BB_WEAR marks its fall below 10 % and below 1 % (R408). -/
def State.bbWrite (s : State) : State :=
  let s := s.updBb fun b => { b with writes := b.writes + 1 }
  let old := s.get R.BB_STAT_SPARE_PCT
  let new := min old (Config.sparePct s.bb.writes)
  let s := s.set R.BB_STAT_SPARE_PCT 0 new
  if (10 ≤ old ∧ new < 10) ∨ (1 ≤ old ∧ new < 1) then s.post Ev.bbWear .notice none [item new] else s

/-- The bytes of the fault log. -/
def faultLogBytes : Nat := 5242880

/-- Remove the oldest fault records until the list fits in `n` bytes; none where only fatal records remain. -/
def trimFaults : Nat → Nat → List EvRec → Option (List EvRec)
  | 0, _, _ => none
  | k + 1, n, l =>
    if (l.map fun r => r.size + 8).sum ≤ n then some l
    else if l.any (fun r => r.sev == .fault) then trimFaults k n (l.eraseP fun r => r.sev == .fault)
    else none

/-- Write a record to the fault log (R402). -/
def State.logFault (s : State) (r : EvRec) : State :=
  match trimFaults (s.bb.faultLog.length + 1) (faultLogBytes - r.size - 8) s.bb.faultLog with
  | some l => (s.updBb fun b => { b with faultLog := l ++ [r] }).bbWrite
  | none => s.inc R.BB_COUNT_LOG_DROP

/-- A history slot. -/
def State.slotOf (s : State) (k : Nat) : HistSlot := Tab.get (fun _ => {}) s.bb.slots k

/-- Drop the oldest records until the list fits in `n` bytes with the seconds of each. -/
def trimRing : Nat → Nat → List EvRec → List EvRec
  | 0, _, l => l
  | k + 1, n, l => if (l.map fun r => r.size + 8).sum ≤ n then l else trimRing k n (l.drop 1)

/-- Write a record to the mirror slot, a ring of 64 KiB (R403). -/
def State.mirrorSlot (s : State) (r : EvRec) : State :=
  let h := s.slotOf s.bb.mirror
  let l := h.recs ++ [r]
  (s.updBb fun b => { b with slots := Tab.put (fun _ => {}) b.slots b.mirror { h with recs := trimRing l.length 65536 l } }).bbWrite

/-- The sealed slots. -/
def State.sealedSlots (s : State) : List Nat := (List.range 16).filter fun k => (s.slotOf k).sealedNo != 0

/-- Show the Orangery in its registers. -/
def State.showBb (s : State) : State :=
  let s := (s.setBit R.BB_STAT_PT_FROZEN 0 s.bb.ptFrozen).set R.BB_STAT_MIRROR_SLOT 0 s.bb.mirror
  let s := (s.set R.BB_STAT_SEALED 0 s.sealedSlots.length).set R.BB_PT_CYCLE 0 s.bb.ptCycle
  (s.setBit R.BB_STAT_SNAP_VALID 0 (s.bb.snapA.isSome || s.bb.snapB.isSome)).set R.BB_BOOTS 0 s.bb.boots

/-! ### The event input (R390, R398, R402) -/

/-- Count a record dropped at the input, the hold buffer or the full RAM; a dropped EV_LOST keeps its counts for the next. -/
def State.dropRec (s : State) (r : EvRec) (f : Field) (g : Recorder → Recorder) : State :=
  let s :=
    if r.sev = .fatal then (s.inc R.EV_DROPS_B_FATAL_DROP).updEv fun e => { e with lostFatal := e.lostFatal + 1 }
    else (s.inc f).updEv g
  if r.code = Ev.evLost then
    let w := fun i => (r.body.getD (i + 1) 0).toNat
    s.updEv fun e =>
      { e with lostInput := e.lostInput + w 0, lostFull := e.lostFull + w 1, lostHold := e.lostHold + w 2, lostFatal := e.lostFatal + w 3 }
  else s

/-- Open the acknowledgement entry of a record, or count it in the open entry of its key (R398). -/
def State.openAck (s : State) (r : EvRec) : State :=
  let same := fun (a : AckEntry) => a.code == r.code && a.inst == r.inst
  if s.ev.acks.any same then
    s.updEv fun e => { e with acks := e.acks.map fun a => if same a then { a with count := a.count + 1, tick := s.tick } else a }
  else if s.ev.acks.length < 512 then
    let s := s.updEv fun e => { e with acks := e.acks ++ [{ code := r.code, inst := r.inst, count := 1, tick := s.tick }] }
    s.set R.EV_OPEN_COUNT 0 s.ev.acks.length
  else s.setBit R.EV_STAT_OPEN_OVF 0 true

/-- The input accepts a record: 1 KiB stays free, but for a fatal record, which only has to fit (R390). -/
def State.inputFits (s : State) (r : EvRec) : Bool :=
  decide (recBytes s.ev.input + r.size + (if r.sev = .fatal then 0 else 1024) ≤ 8192)

/-- What acceptance does: the record waits for the store, the fault log takes it, or the commit that waits for it, and the event
interrupt is asked for. -/
def State.acceptRec (s : State) (r : EvRec) : State :=
  let s := s.updEv fun e => { e with input := e.input ++ [r] }
  let s :=
    match s.bb.commit with
    | some c =>
      if r.sev = .fatal then s.updBb fun b => { b with commit := some { c with recs := c.recs ++ [r] } }
      else if r.serious then s.logFault r
      else s
    | none => if r.serious then s.logFault r else s
  if s.bit R.HI_VEC_SRC_EVENT_IE && decide (s.get R.EV_CFG_IRQ_SEV ≤ sevNum r.sev) then s.updEv fun e => { e with irqPending := true }
  else s

/-- The requester class of the unit that posts an event, by the block of its code (R38); units outside the table stand with the
service units. -/
def evClass (code : Nat) : Nat := [9, 9, 0, 2, 4, 6, 7, 8, 9, 3, 1, 9, 9, 9, 9, 9].getD (code / 4096) 9

/-- A record as a request at the event input (R35, R38). -/
def evReq (r : EvRec) : ArbReq := { tag := r.tick, plane := r.plane, cls := evClass r.code, idx := r.inst }

/-- `a` is served no later than `b` (R36). -/
def arbBefore (a b : ArbReq) : Bool :=
  decide (a.tag < b.tag) || (a.tag == b.tag
    && (decide (planeNum a.plane < planeNum b.plane) || (planeNum a.plane == planeNum b.plane
      && (decide (a.cls < b.cls) || (a.cls == b.cls && decide (a.idx ≤ b.idx))))))

/-- A round of the event input begins when the last one has been served: it takes the records that are pending, at most 32, in the order
of R36. -/
def State.inputRound (s : State) : State :=
  if s.ev.round = 0 then
    { s with posted := orderBy (fun a b => arbBefore (evReq a) (evReq b)) s.posted, ev := { s.ev with round := min 32 s.posted.length } }
  else s

/-- The record takes its place in the event input, or is dropped and counted. -/
def State.inputTake (s : State) (r : EvRec) : State :=
  let s := if r.serious then s.openAck r else s
  if s.inputFits r then s.acceptRec r
  else s.dropRec r R.EV_DROPS_A_INPUT_DROP fun e => { e with lostInput := e.lostInput + 1 }

/-- The next record posted, in the order of its round, reaches the event input. -/
def State.inputPost (s : State) : State :=
  let s := s.inputRound
  match s.posted with
  | [] => s
  | r :: t =>
    let s : State := { s with posted := t }
    (s.updEv fun e => { e with round := e.round - 1 }).inputTake r

/-- EVENT_INPUT_POST (R390). -/
def execEventInputPost (s : State) : Out := .next s.inputPost

/-! ### The record store (R391 to R393) -/

/-- The bytes of the recorder RAM. -/
def ramBytes : Nat := 524288

/-- The bytes that the RAM holds. -/
def ramUsed (l : List Stored) : Nat := (l.map fun r => r.evt.size).sum

/-- Show the RAM and the hold buffer in their registers. -/
def State.showEv (s : State) : State :=
  let used := ramUsed s.ev.ram
  let fatal := ramUsed (s.ev.ram.filter fun r => r.evt.sev == .fatal)
  let s := (s.set R.EV_STAT_USED_KIB 0 ((used + 1023) / 1024)).set R.EV_STAT_FATAL_KIB 0 ((fatal + 1023) / 1024)
  let s := s.set R.EV_STAT_HOLD_USED 0 ((recBytes s.ev.hold + 31) / 32)
  (s.set R.EV_SEQ_FIRST 0 ((s.ev.ram.head?.map fun r => r.seq).getD 0)).set R.EV_SEQ_LAST 0
    ((s.ev.ram.getLast?.map fun r => r.seq).getD 0)

/-- The oldest record that may be removed for one of severity `v`: not fatal, of severity at most `v`, and not the EV_TIME record
that a later one depends on; `last` says whether the record that follows the list needs its seconds (R392, R393). -/
def removeOne (v : Nat) (last : Bool) : List Stored → Option (List Stored)
  | [] => none
  | r :: t =>
    let needed := r.evt.isTime && (match t with | [] => last | n :: _ => !n.evt.isTime)
    if r.evt.sev != .fatal && decide (sevNum r.evt.sev ≤ v) && !needed then some t
    else (removeOne v last t).map fun l => r :: l

/-- Remove records one by one until `n` bytes are free. -/
def makeRoom : Nat → Nat → Nat → Bool → List Stored → Option (List Stored)
  | 0, _, _, _, _ => none
  | k + 1, n, v, last, l =>
    if ramUsed l + n ≤ ramBytes then some l
    else
      match removeOne v last l with
      | some l => makeRoom k n v last l
      | none => none

/-- Store a record in the RAM with the next sequence number, and in the mirror slot (R391, R392, R403). -/
def State.storeRam (s : State) (r : EvRec) : State :=
  match makeRoom (s.ev.ram.length + 1) r.size (sevNum r.sev) (!r.isTime) s.ev.ram with
  | some l =>
    let s := s.updEv fun e => { e with ram := l ++ [{ seq := e.nextSeq, evt := r }], nextSeq := (e.nextSeq + 1) % 2 ^ 32 }
    s.showEv.mirrorSlot r
  | none => s.dropRec r R.EV_DROPS_A_FULL_DROP fun e => { e with lostFull := e.lostFull + 1 }

/-- A freeze is in force (R397). -/
def State.frozenNow (s : State) : Bool := s.bit R.EV_STAT_HOST_FROZEN || s.bit R.EV_STAT_DBG_FROZEN

/-- The record store takes the oldest record of the input. -/
def State.storeNext (s : State) : State :=
  match s.ev.input with
  | [] => s
  | r :: t =>
    let s := s.updEv fun e => { e with input := t }
    if s.frozenNow then
      if recBytes s.ev.hold + r.size ≤ 4096 then (s.updEv fun e => { e with hold := e.hold ++ [r] }).showEv
      else s.dropRec r R.EV_DROPS_B_HOLD_DROP fun e => { e with lostHold := e.lostHold + 1 }
    else s.storeRam r

/-- RECORD_STORE (R392). -/
def execRecordStore (s : State) : Out := .next s.storeNext

/-! ### Freezes (R397) -/

/-- A freezer takes the freeze. -/
def State.freezeStart (s : State) (f : Field) (who : Nat) : State :=
  (s.setBit f 0 true).post Ev.evFreeze .notice none [item who]

/-- A freezer gives the freeze up; when none holds it, the hold buffer drains into the RAM. -/
def State.freezeEnd (s : State) (f : Field) (who : Nat) : State :=
  let s := (s.setBit f 0 false).post Ev.evFreeze .notice none [item who, item (s.get R.EV_DROPS_B_HOLD_DROP)]
  if s.frozenNow then s
  else
    let l := s.ev.hold
    (l.foldl State.storeRam (s.updEv fun e => { e with hold := [] })).showEv

/-- The action of EV_CMD FREEZE. -/
def State.doFreeze (s : State) (d : Desc) : State :=
  if s.bit R.EV_STAT_HOST_FROZEN then s.completeDesc d { reason := 3 }
  else ((s.freezeStart R.EV_STAT_HOST_FROZEN 0).updEv fun e => { e with freezeAt := s.tick }).completeDesc d {}

/-- EV_CMD FREEZE (R397, R400). -/
def execEvCmdFreeze (d : DescId) (s : State) : Out := .next (s.opAction d 0x30 3 0 0 (fun _ _ => {}) State.doFreeze)

/-- The action of EV_CMD UNFREEZE. -/
def State.doUnfreeze (s : State) (d : Desc) : State :=
  if s.bit R.EV_STAT_HOST_FROZEN then (s.freezeEnd R.EV_STAT_HOST_FROZEN 0).completeDesc d {} else s.completeDesc d { reason := 1 }

/-- EV_CMD UNFREEZE (R397, R400). -/
def execEvCmdUnfreeze (d : DescId) (s : State) : Out := .next (s.opAction d 0x30 3 0 1 (fun _ _ => {}) State.doUnfreeze)

/-- The effect of EV_FREEZE_TIMEOUT: a host freeze ends FREEZE_MAX seconds after it began. -/
def State.freezeTimeout (s : State) : State :=
  if s.bit R.EV_STAT_HOST_FROZEN && decide (s.ev.freezeAt + 125000000 * max 1 (s.get R.EV_CFG_FREEZE_MAX) ≤ s.tick) then
    s.freezeEnd R.EV_STAT_HOST_FROZEN 0
  else s

/-- EV_FREEZE_TIMEOUT (R397). -/
def execEvFreezeTimeout (s : State) : Out := .next s.freezeTimeout

/-- The JTAG instruction EV_FREEZE_DBG holds or ends the debug freeze (R409). -/
def State.freezeDbg (s : State) (hold : Bool) : State :=
  if hold == s.bit R.EV_STAT_DBG_FROZEN then s
  else if hold then s.freezeStart R.EV_STAT_DBG_FROZEN 1
  else s.freezeEnd R.EV_STAT_DBG_FROZEN 1

/-- EV_FREEZE_DBG (R409). -/
def execEvFreezeDbg (hold : Bool) (s : State) : Out := .next (s.freezeDbg hold)

/-! ### The window (R395, R396) -/

/-- A corrected error of the recorder RAM. -/
def State.evEccCorr (s : State) (injected : Bool) : State :=
  (s.inc R.EV_DROPS_B_ECC_CORR).postOnce Ev.evEccCorr .notice none [] false injected

/-- An uncorrectable error of a record: it is removed and reported. -/
def State.evEccUncorr (s : State) (seq : Nat) (injected : Bool) : State :=
  ((s.updEv fun e => { e with ram := e.ram.filter fun r => r.seq != seq }).showEv).post Ev.evEccUncorr .fault none [] false injected

/-- A read of the recorder RAM (R396). -/
def State.scrubRecorder (s : State) (seq : Nat) : State :=
  let (f, inj, s) := s.eccFound 1010 noInst (.recorder seq)
  match f with
  | none => s
  | some false => s.evEccCorr inj
  | some true => s.evEccUncorr seq inj

/-- The words of a record that an uncorrectable error hit, as they are read. -/
def State.wordsRead (s : State) (n : Nat) : List Word := (List.range n).map fun i => Config.badWord (s.free + i)

/-- Load the record with the least SEQ at or above `q` into the window. -/
def State.loadWindow (s : State) (q : Nat) : State :=
  match s.ev.ram.find? fun r => decide (q ≤ r.seq) with
  | none => (s.setBit R.EV_RD_STAT_VALID 0 false).setBit R.EV_RD_STAT_GAP 0 false
  | some r =>
    let (f, inj, s) := s.eccFound 1010 noInst (.recorder r.seq)
    let n := r.evt.words.length
    let lost := f == some true && !inj
    let w := if lost then s.wordsRead n else r.evt.words
    let s := if lost then { s with free := s.free + n } else s
    let s := (List.range 64).foldl (fun s i => s.set R.EV_WIN i (w.getD i 0).toNat) s
    let s := ((s.set R.EV_RD_SEQ 0 r.seq).setBit R.EV_RD_STAT_VALID 0 true).setBit R.EV_RD_STAT_GAP 0 (r.seq != q)
    let s := (s.set R.EV_RD_STAT_LEN_W 0 (n - 1)).setBit R.EV_RD_STAT_ECC_BAD 0 (f == some true)
    match f with
    | some true => s.evEccUncorr r.seq inj
    | some false => s.evEccCorr inj
    | none => s

/-- A write of EV.CURSOR. -/
def State.cursorWrite (s : State) (q : Word) : State := (s.set R.EV_CURSOR 0 q.toNat).loadWindow q.toNat

/-- EV_CURSOR_WRITE (R395). -/
def execEvCursorWrite (seq : Word) (s : State) : Out := .next (s.cursorWrite seq)

/-- The JTAG instruction EV_READ_DBG: the window by cursor, returning its first word (R409). -/
def State.readDbg (s : State) (q : Word) : State :=
  let s := s.cursorWrite q
  s.reply (BitVec.ofNat 32 (s.get R.EV_WIN 0))

/-- EV_READ_DBG (R409). -/
def execEvReadDbg (seq : Word) (s : State) : Out := .next (s.readDbg seq)

/-! ### Acknowledgement and the event interrupt (R398, R399) -/

/-- The action of EV_CMD ACK: a key whose record reached the input in this tick stays open. -/
def State.doAck (s : State) (d : Desc) : State :=
  let all := hasBit (d.word 5) 31
  let named := fun (a : AckEntry) => all || (a.code == d.bits 5 15 0 && a.inst == d.bits 6 15 0)
  if !all && !(s.ev.acks.any named) then s.completeDesc d { reason := 2 }
  else
    let s := s.updEv fun e => { e with acks := e.acks.filter fun a => !named a || a.tick == s.tick }
    let s := s.set R.EV_OPEN_COUNT 0 s.ev.acks.length
    let s := if all then s.setBit R.EV_STAT_OPEN_OVF 0 false else s
    ((List.range 9).foldl State.settleStop s).completeDesc d {}

/-- EV_CMD ACK (R398, R400). -/
def execEvCmdAck (d : DescId) (s : State) : Out := .next (s.opAction d 0x30 3 0 2 (fun _ _ => {}) State.doAck)

/-- The event interrupt: at most one message in each IRQ_GAP_US, for the records accepted since (R399). -/
def State.eventIrq (s : State) : State :=
  let gap := match s.ev.lastIrq with | some t => decide (t + 125 * s.get R.EV_CFG_IRQ_GAP_US ≤ s.tick) | none => true
  if s.ev.irqPending && s.bit R.HI_VEC_SRC_EVENT_IE && gap then
    (s.updEv fun e => { e with irqPending := false, lastIrq := some s.tick }).sendVec (s.get R.HI_VEC_SRC_EVENT_VEC)
  else s

/-- EVENT_INTERRUPT (R399). -/
def execEventInterrupt (s : State) : Out := .next s.eventIrq

/-! ### The other operations on the RAM (R400) -/

/-- The action of EV_CMD MARK. -/
def State.doMark (s : State) (d : Desc) : State :=
  let sev := if d.bits 5 1 0 = 0 then Sev.info else .notice
  (s.post Ev.evHostMark sev none ((List.range 8).map fun i => d.words.getD (8 + i) 0)).completeDesc d {}

/-- EV_CMD MARK (R400). -/
def execEvCmdMark (d : DescId) (s : State) : Out := .next (s.opAction d 0x30 3 0 3 (fun _ _ => {}) State.doMark)

/-- Drop the EV_TIME records that no remaining record depends on. -/
def dropTimes : List Stored → List Stored
  | [] => []
  | r :: t =>
    let t' := dropTimes t
    if r.evt.isTime then (match t' with | [] => [] | n :: _ => if n.evt.isTime then t' else r :: t') else r :: t'

/-- The records that CLEAR leaves. -/
def afterClear (l : List Stored) : List Stored := dropTimes (l.filter fun r => r.evt.sev == .fatal || r.evt.isTime)

/-- EV_CMD CLEAR, in maintenance mode (R400). -/
def execEvCmdClear (d : DescId) (s : State) : Out :=
  .next (s.opAction d 0x30 3 0 4 (fun s _ => { maint := !s.maint })
    fun s d => ((s.updEv fun e => { e with ram := afterClear e.ram }).showEv).completeDesc d {})

/-- EV_CMD CLEAR_FATAL, in maintenance mode with the cell DISABLED (R400). -/
def execEvCmdClearFatal (d : DescId) (s : State) : Out :=
  .next (s.opAction d 0x30 3 0 5 (fun s _ => { maint := !s.maint, state := s.locked })
    fun s d => ((s.updEv fun e => { e with ram := [] }).showEv).completeDesc d {})

/-! ### Fault injection (R410, R411) -/

/-- An index that a detector has (R414). -/
def injAllocated (i : Nat) : Bool :=
  decide (i ≤ 1023) && !((decide (21 ≤ i) && decide (i ≤ 23)) || (decide (120 ≤ i) && decide (i ≤ 127))
    || (decide (216 ≤ i) && decide (i ≤ 223)) || (decide (316 ≤ i) && decide (i ≤ 319)))

/-- An injection slot. -/
def State.injAt (s : State) (k : Nat) : Inj := Tab.get (fun _ => {}) s.inj k

/-- Show the armed injections in INJ.STAT. -/
def State.showInj (s : State) : State :=
  let n := ((List.range 16).filter fun k => (s.injAt k).armed).length
  (s.set R.INJ_STAT_ARMED 0 n).setBit R.INJ_STAT_ACTIVE 0 (s.maint && s.bit R.INJ_STAT_KEY_LOADED && n != 0)

/-- The action of INJ_CMD LOAD_KEY: three failures lock loading (R410). -/
def State.doLoadKey (s : State) (d : Desc) : State :=
  if s.bit R.INJ_STAT_LOCKED then s.completeDesc d { reason := 6 }
  else
    let digest := Config.sha256 ([8, 9, 10, 11].flatMap fun i => wordBytes (d.words.getD i 0))
    if s.pw.fuses.any fun f => f.injKey == digest then
      let s := (s.setBit R.INJ_STAT_KEY_LOADED 0 true).set R.INJ_KEY_ID 0 digest
      (s.showInj.post Ev.injKey .notice none [0, item (s.get R.INJ_KEY_ID)]).completeDesc d {}
    else
      let n := s.get R.INJ_STAT_KEY_FAILS + 1
      let s := (s.set R.INJ_STAT_KEY_FAILS 0 (min n 3)).setBit R.INJ_STAT_LOCKED 0 (decide (3 ≤ n))
      (s.post Ev.injKey .notice none [2, item (s.get R.INJ_KEY_ID)]).completeDesc d { reason := 2 }

/-- INJ_CMD LOAD_KEY (R410). -/
def execInjCmdLoadKey (d : DescId) (s : State) : Out := .next (s.opAction d 0x31 3 0 0 (fun _ _ => {}) State.doLoadKey)

/-- The operations but LOAD_KEY need maintenance mode (R413). -/
def injGate (s : State) (_ : Desc) : Gate := { maint := !s.maint }

/-- The action of INJ_CMD CLEAR_KEY. -/
def State.doClearKey (s : State) (d : Desc) : State :=
  (((s.setBit R.INJ_STAT_KEY_LOADED 0 false).set R.INJ_KEY_ID 0 0).showInj).completeDesc d {}

/-- INJ_CMD CLEAR_KEY (R410). -/
def execInjCmdClearKey (d : DescId) (s : State) : Out := .next (s.opAction d 0x31 3 0 1 injGate State.doClearKey)

/-- Place an injection in slot `k`. -/
def State.injPlace (s : State) (k : Nat) (j : Inj) : State :=
  let s : State := { s with inj := Tab.put (fun _ => {}) s.inj k j }
  let s := ((s.set R.INJ_ENTRY_INDEX k j.index).set R.INJ_ENTRY_MODE k j.mode).setBit R.INJ_ENTRY_ARMED k j.armed
  (s.set R.INJ_ENTRY_REMAIN k j.remain).showInj.post Ev.injArmed .notice none [item j.index, item j.mode, item j.remain]

/-- The action of INJ_CMD ARM. -/
def State.doArm (s : State) (d : Desc) : State :=
  let mode := d.bits 5 11 10
  if !s.bit R.INJ_STAT_KEY_LOADED then s.completeDesc d { reason := 1 }
  else if !injAllocated (d.bits 5 9 0) then s.completeDesc d { reason := 3 }
  else
    match (List.range 16).find? fun k => !(s.injAt k).armed with
    | none => s.completeDesc d { reason := 4 }
    | some k =>
      let j : Inj :=
        { armed := true, index := d.bits 5 9 0, mode, remain := if mode = 2 then d.bits 6 15 0 else 0, inst := d.bits 7 15 0,
          params := [8, 9, 10, 11].map fun i => d.words.getD i 0, timed := hasBit (d.word 5) 12, atNs := d.bits 12 29 0,
          atSec := d.word 13 + d.bits 14 15 0 * 2 ^ 32 }
      (s.injPlace k j).completeDesc d {}

/-- INJ_CMD ARM (R411). -/
def execInjCmdArm (d : DescId) (s : State) : Out := .next (s.opAction d 0x31 3 0 2 injGate State.doArm)

/-- Disarm the armed slots of a list. -/
def State.disarm (s : State) (l : List Nat) : State := l.foldl (fun s k => s.injPlace k { s.injAt k with armed := false }) s

/-- The action of INJ_CMD DISARM. -/
def State.doDisarm (s : State) (d : Desc) : State :=
  let l := (List.range 16).filter fun k => (s.injAt k).armed && (s.injAt k).index == d.bits 5 9 0
  if l.isEmpty then s.completeDesc d { reason := 5 } else (s.disarm l).completeDesc d {}

/-- INJ_CMD DISARM (R411). -/
def execInjCmdDisarm (d : DescId) (s : State) : Out := .next (s.opAction d 0x31 3 0 3 injGate State.doDisarm)

/-- INJ_CMD DISARM_ALL (R411). -/
def execInjCmdDisarmAll (d : DescId) (s : State) : Out :=
  .next (s.opAction d 0x31 3 0 4 injGate
    fun s d => (s.disarm ((List.range 16).filter fun k => (s.injAt k).armed)).completeDesc d {})

/-- What the end of a window reports of injections that fired again (R413). -/
def State.injWindow (s : State) : State :=
  (List.range 16).foldl (fun s k =>
    let j := s.injAt k
    if j.firedWin = 0 then s
    else
      let s := s.post Ev.injFired .notice (some j.lastInst) [item j.index, item j.firedWin]
      { s with inj := Tab.put (fun _ => {}) s.inj k { j with firedWin := 0 } }) s

/-- What the end of a window reports of dropped records (R394). -/
def State.lostWindow (s : State) : State :=
  let e := s.ev
  if e.lostInput = 0 ∧ e.lostFull = 0 ∧ e.lostHold = 0 ∧ e.lostFatal = 0 then s
  else
    (s.post Ev.evLost .notice none [item e.lostInput, item e.lostFull, item e.lostHold, item e.lostFatal]).updEv fun e =>
      { e with lostInput := 0, lostFull := 0, lostHold := 0, lostFatal := 0 }

end Sys2Proof.Machine
end

