-- ==== Sys2Proof/Machine/Reset.lean ====
section
/-! DEFINITION. Device reset: what the wedge-safe domain does for every source, and what a reset leaves (R444 to R447). -/
namespace Sys2Proof.Machine

/-- A register takes the value it has in other registers. -/
def Regs.keep (r old : Regs) (f : Field) : Regs := r.setWord f.blk (f.addr 0) (old.word f.blk (f.addr 0))

/-- The record of the cause that a device reset writes to the fault log (R446). -/
def State.resetRecord (s : State) (causes : Nat) : EvRec :=
  { code := Config.resetEvent causes, sev := .fault, plane := .wedgeSafe, injected := false, esc := false, ns := s.ns, sec := s.sec,
    tick := s.tick, inst := noInst, body := [item noInst, item causes] }

/-- The wedge-safe domain's safety I/O after a device reset: levels and demands stay, latches and what hangs on the cell end. -/
def Safety.afterReset (x : Safety) : Safety :=
  { diffAt := x.diffAt, testAt := x.testAt, lastEdge := x.lastEdge, pins := x.pins, accAt := x.accAt, filtRun := x.filtRun,
    injAcc := x.injAcc, driveAt := x.driveAt }

/-- What a device reset leaves of the machine, before its cause is recorded (R445): every register and memory at its reset state
but for what the wedge-safe domain keeps. -/
def State.cleared (s : State) : State :=
  { s with
    regs := [R.PW_RESET_CAUSE_CAUSE, R.PW_SUPPLY_STAT_GOOD, R.PW_TEMP_TJ, R.AD_SIO_STAT_LEVEL, R.BB_STAT_SPARE_PCT].foldl
      (fun r f => r.keep s.regs f) {}
    frozen := {}
    posted := []
    escs := []
    tb := { tick := s.tick }
    grid := {}
    once := []
    cb := { kek := s.cb.kek }
    fb := {}
    tl := []
    grp := []
    mp := {}
    sv := {}
    sep := {}
    sch := {}
    me := {}
    hi := { mem := s.hi.mem }
    gr := {}
    tw := {}
    ev := { acks := s.ev.acks }
    bb := { s.bb with staging := [], commit := none, snapDone := false, boots := min (s.bb.boots + 1) 0xFFFFFFFF, reply := [] }
    inj := []
    ad := {}
    sio := s.sio.afterReset
    pw := { slot0 := s.pw.slot0, slot1 := s.pw.slot1, warn := s.pw.warn, hot := s.pw.hot, fatalHot := s.pw.fatalHot,
            tempHold := s.pw.tempHold, vddnv := s.pw.vddnv, nvOsc := s.pw.nvOsc }
    arb := {}
    hiLatch := []
    wrStage := []
    view := {}
    flips := s.flips.filter fun h => match h.mem with | .orangery _ => true | _ => false }

/-- Show what the wedge-safe domain and the Orangery keep in the registers that a reset cleared. -/
def State.showKept (s : State) (ovf : Bool) : State :=
  let s := (s.set R.EV_OPEN_COUNT 0 s.ev.acks.length).setBit R.EV_STAT_OPEN_OVF 0 ovf
  (s.set R.TW_EPOCH_STORED 0 s.bb.storedEpoch).showBb.setBit R.BB_STAT_HOLDUP_OK 0 false

/-- Demands follow the levels once the discrepancy latches have cleared; an e-stop in demand asserts every pair. -/
def State.demandsAfterReset (s : State) : State :=
  let lv := s.get R.AD_SIO_STAT_LEVEL
  let d := maskOf ((List.range 6).filter fun i => !(hasBit lv (2 * i) && hasBit lv (2 * i + 1)))
  let s := (s.set R.AD_SIO_STAT_DISC 0 0).set R.AD_SIO_STAT_DEMAND 0 d
  if hasBit d 0 then s.assertAll 4 else s

/-- A device reset (R445, R446): every domain but NV is in its reset state and held there; every pair is asserted. -/
def State.doReset (s : State) : State :=
  let causes := s.pw.resetReq
  let ovf := s.bit R.EV_STAT_OPEN_OVF
  let r := s.resetRecord causes
  let s := (s.cleared.set R.PW_SUPPLY_STAT_PFAIL 0 0).logFault r
  (s.showKept ovf).demandsAfterReset

/-- A reset that waits takes place once the Orangery has ended its commit, and its snapshot after a power-fail signal (R446). -/
def State.tryReset (s : State) : State :=
  if s.pw.resetReq ≠ 0 ∧ s.bb.commit = none ∧ (s.escs.any fun e => e.fatal) = false
      ∧ (s.bit R.PW_SUPPLY_STAT_PFAIL = false ∨ s.bb.snapDone = true) then s.doReset
  else s

/-- A source of a device reset acts: every pair is asserted with cause 8 and WDOG_OUT stops; the cause is recorded; the reset waits
for the Orangery (R444, R446). -/
def State.resetRequest (s : State) (causes : Nat) : State :=
  let s := (s.assertAll 8).wdogStop
  let s := s.set R.PW_RESET_CAUSE_CAUSE 0 (s.get R.PW_RESET_CAUSE_CAUSE ||| causes)
  ({ s with pw := { s.pw with resetReq := s.pw.resetReq ||| causes } } : State).tryReset

end Sys2Proof.Machine
end

