-- ==== Sys2Proof/Machine/Orangery.lean ====
section
/-! DEFINITION. The Orangery: pre-trigger image, commits and their substitute records, the power-loss snapshot, what the read
paths return, and its EV_CMD operations (chapter 16). -/
namespace Sys2Proof.Machine

/-! ### The pre-trigger image (R404) -/

/-- The value of signal `i` in the frozen bank. -/
def State.ptSignal (s : State) (i : Nat) : Word :=
  let a := s.get R.EV_PT_SIG_ADDR i
  if s.bit R.EV_PT_SIG_SPACE i then s.gr1 a else s.frozen.word (blkOf a) (a / 4 * 4)

/-- A solver-period boundary latches one sample into the staging queue, or counts a skip. -/
def State.ptSample (s : State) : State :=
  if s.bb.ptFrozen then s
  else if 32 ≤ s.bb.staging.length then s.inc R.BB_STAT_PT_SKIPS
  else
    let x : PtSample := { cycle := s.cycle, words := (List.range (s.get R.EV_PT_CFG_PT_COUNT)).map s.ptSignal }
    s.updBb fun b => { b with staging := b.staging ++ [x] }

/-- Drop the oldest samples until the ring fits in 1 MiB. -/
def trimSamples : Nat → List PtSample → List PtSample
  | 0, l => l
  | k + 1, l => if (l.map fun x => 8 + 4 * x.words.length).sum ≤ 1048576 then l else trimSamples k (l.drop 1)

/-- Housekeeping moves the staged samples into the ring. -/
def State.ptMove (s : State) : State :=
  if s.bb.ptFrozen then s
  else
    s.updBb fun b => { b with staging := [], ring := trimSamples (b.ring.length + b.staging.length) (b.ring ++ b.staging) }

/-- PRETRIGGER_MOVE (R404). -/
def execPretriggerMove (s : State) : Out := .next s.ptMove

/-- Freeze the ring: what is staged is discarded. -/
def State.ptFreeze (s : State) : State :=
  if s.bb.ptFrozen then s
  else
    (s.updBb fun b =>
      { b with ptFrozen := true, staging := [], ptCycle := (b.ring.getLast?.map fun x => x.cycle).getD 0 }).showBb

/-! ### Commits (R405, R406) -/

/-- The time of a tick that lies `ago` ticks back, as a count of nanoseconds. -/
def State.nsAgo (s : State) (tick : Nat) : Nat := s.now - 8 * (s.tick - tick)

/-- A fatal escalation starts a commit, or joins the one that waits for its record. -/
def State.commitStart (s : State) (e : Esc) : State :=
  let s := s.ptFreeze
  match s.bb.commit with
  | some c => s.updBb fun b => { b with commit := some { c with mask := c.mask ||| e.mask.toNat, glob := c.glob || e.glob } }
  | none =>
    let t := s.nsAgo e.tick
    s.updBb fun b =>
      { b with commit := some { tick := e.tick, ns := t % 1000000000, sec := t / 1000000000, mask := e.mask.toNat, glob := e.glob } }

/-- The mirror slot after slot `k` in which nothing is sealed. -/
def State.nextUnsealed (s : State) (k : Nat) : Option Nat :=
  ((List.range 16).map fun i => (k + 1 + i) % 16).find? fun i => (s.slotOf i).sealedNo == 0

/-- The slot sealed first of those that are sealed. -/
def State.oldestSealed (s : State) : Nat :=
  s.sealedSlots.foldl (fun k i => if (s.slotOf i).sealedNo < (s.slotOf k).sealedNo then i else k) (s.sealedSlots.headD 0)

/-- Seal the mirror slot and take the next one, the oldest sealed when all are (R403). -/
def State.sealSlot (s : State) : State :=
  let k := s.bb.mirror
  let h := s.slotOf k
  let s := s.updBb fun b => { b with slots := Tab.put (fun _ => {}) b.slots k { h with sealedNo := b.sealNo + 1 }, sealNo := b.sealNo + 1 }
  let (next, s) :=
    match s.nextUnsealed k with
    | some i => (i, s)
    | none => (s.oldestSealed, s.inc R.BB_COUNT_HIST_OVERWRITTEN)
  s.updBb fun b => { b with slots := Tab.put (fun _ => {}) b.slots next {}, mirror := next }

/-- The write, seal and marker phases of the commit in progress; `log` are the records that the fault log does not hold yet. -/
def State.commitFinish (s : State) (c : BbCommit) (recs log : List EvRec) : State :=
  let s := s.updBb fun b => { b with commit := none }
  let s := log.foldl State.logFault s
  let s := recs.foldl (fun s r => if (s.slotOf s.bb.mirror).recs.contains r then s else s.mirrorSlot r) s
  let k := s.bb.mirror
  let s := s.sealSlot.showBb
  let dur := (s.tick - c.tick) * 8 / 100
  let s := (s.set R.BB_LAST_COMMIT_DUR 0 (min dur 0xFFFF)).inc R.BB_LAST_COMMIT_COMMITS
  (s.post Ev.bbCommit .info none [item dur, item k]).tryReset

/-- The fatal records that the fault log took between the detector's tick and the start of the commit. -/
def State.earlyFatal (s : State) (c : BbCommit) : List EvRec := s.bb.faultLog.filter fun r => r.sev == .fatal && decide (c.tick ≤ r.tick)

/-- A commit whose fatal record the event input has accepted runs to its end. -/
def State.commitRecord (s : State) : State :=
  match s.bb.commit with
  | none => s
  | some c =>
    let early := s.earlyFatal c
    if c.recs.isEmpty && early.isEmpty then s else s.commitFinish c (early ++ c.recs) c.recs

/-- ORANGERY_COMMIT_RECORD (R405). -/
def execOrangeryCommitRecord (s : State) : Out := .next s.commitRecord

/-- The record that stands for a fatal record that did not come (R406). -/
def substitute (c : BbCommit) (injected : Bool) : EvRec :=
  { code := Ev.bbEscOnly, sev := .fatal, plane := .wedgeSafe, injected, esc := true, ns := c.ns, sec := c.sec, tick := c.tick,
    inst := noInst, body := [item noInst, item c.mask, item (if c.glob then 1 else 0)] }

/-- No fatal record has come 32 µs after the detector fired: the substitute is written and the commit goes on. -/
def State.escOnly (s : State) : State :=
  match s.bb.commit with
  | none => s
  | some c =>
    let due := c.recs.isEmpty && (s.earlyFatal c).isEmpty && decide (c.tick + 4000 ≤ s.tick)
    s.detect 1013 noInst due fun inj s =>
      let r := substitute c inj
      (s.inc R.BB_COUNT_SUBSTITUTES).commitFinish c [r] (r :: c.recs)

/-- BB_ESC_ONLY (R406). -/
def execBbEscOnly (s : State) : Out := .next s.escOnly

/-! ### The power-loss snapshot (R407) -/

/-- The words of the snapshot: time base, cycle number, twin state and epoch, joint states, feedback records, generator samples
with HOMED, step counts and event counters. -/
def State.snapWords (s : State) : List Word :=
  let w := fun (b : Blk) (f : Field) (n : Nat) => s.regs.word b (f.addr n)
  itemTime s.sec s.ns ++ [item s.cycle, item (s.get R.TW_STATE_STATE), item (s.get R.TW_EPOCH_EPOCH)]
    ++ ((List.range 64).map fun n => w .tl R.TL_JSTAT_JSTATE n)
    ++ ((List.range 64).flatMap fun n =>
      (List.range 7).map fun i => s.regs.word .fb (R.FB_POS_LO.addr n + 4 * i))
    ++ ((List.range 80).flatMap fun g =>
      (List.range 7).map fun i => s.regs.word .mp (R.MP_STAT_STATE.addr g + 4 * i))
    ++ ((List.range 16).flatMap fun k => [w .mp R.ST_STEP_LO k, w .mp R.ST_STEP_HI_STEPS k])
    ++ [w .ev R.EV_DROPS_A_INPUT_DROP 0, w .ev R.EV_DROPS_B_HOLD_DROP 0, w .ev R.EV_OPEN_COUNT 0, w .bb R.BB_COUNT_ECC_CORR 0]

/-- The number of a snapshot copy, 0 for none. -/
def snapNoOf (c : Option (Nat × List Word)) : Nat := (c.map fun x => x.1).getD 0

/-- After any commit, the snapshot is written to the older copy, once for a power-fail signal. -/
def State.powerSnapshot (s : State) : State :=
  if !s.bit R.PW_SUPPLY_STAT_PFAIL || s.bb.commit.isSome || s.bb.snapDone then s
  else
    let n := s.bb.snapNo + 1
    let copy := some (n, s.snapWords)
    let s := s.updBb fun b =>
      if snapNoOf b.snapA ≤ snapNoOf b.snapB then { b with snapA := copy, snapNo := n, snapNew := true, snapDone := true }
      else { b with snapB := copy, snapNo := n, snapNew := true, snapDone := true }
    s.bbWrite.showBb.tryReset

/-- POWER_LOSS_SNAPSHOT (R407). -/
def execPowerLossSnapshot (s : State) : Out := .next s.powerSnapshot

/-! ### The read paths (R401, R409) -/

/-- The words of a record that the Orangery keeps, with its seconds in front. -/
def EvRec.kept (r : EvRec) : List Word := item r.sec :: item (r.sec / 2 ^ 32) :: r.words

/-- The words of section `k`, in the numbering of SELECT, with the first and last SEQ or cycle of its head. -/
def State.sectionBody (s : State) (k : Nat) : Word × Word × List Word :=
  let mark := fun e => Config.sectionMark k e
  match k with
  | 0 => (item (s.get R.EV_SEQ_FIRST), item (s.get R.EV_SEQ_LAST), s.ev.ram.flatMap fun r => r.evt.words)
  | 1 => (mark 0, mark 1, s.bb.faultLog.flatMap EvRec.kept)
  | 2 => (mark 0, mark 1, (List.range 16).flatMap fun i => (s.slotOf i).recs.flatMap EvRec.kept)
  | 3 =>
    (item ((s.bb.ring.head?.map fun x => x.cycle).getD 0), item ((s.bb.ring.getLast?.map fun x => x.cycle).getD 0),
      s.bb.ring.flatMap fun x => item x.cycle :: item x.words.length :: x.words)
  | 4 => (mark 0, mark 1, ((s.bb.snapA.map fun x => x.2).getD []) ++ ((s.bb.snapB.map fun x => x.2).getD []))
  | _ => (mark 0, mark 1, [item s.bb.storedEpoch, item s.bb.boots, item (s.bb.tempMs / 3600000), item s.bb.writes])

/-- A section with its head of 16 bytes. -/
def State.sectionWords (s : State) (k : Nat) : List Word :=
  let (a, b, l) := s.sectionBody k
  item k :: item (4 * l.length) :: a :: b :: l

/-- The selected sections in bit order. -/
def State.dumpBytes (s : State) (select : Nat) : List Byte := ((maskList 6 select).flatMap s.sectionWords).flatMap wordBytes

/-- A read of the Orangery (R401). -/
def State.scrubOrangery (s : State) (entry : Nat) : State :=
  let (f, inj, s) := s.eccFound 1011 noInst (.orangery entry)
  match f with
  | none => s
  | some false => (s.inc R.BB_COUNT_ECC_CORR).postOnce Ev.bbEccCorr .notice none [] false inj
  | some true =>
    (s.updBb fun b => { b with faultLog := b.faultLog.eraseIdx entry }).post Ev.bbEccUncorr .fault none [] false inj

/-- The selected sections are read: each record of the RAM and of the fault log is one read of its memory (R396, R401, R477). -/
def State.readSections (s : State) (select : Nat) : State :=
  let s := if hasBit select 0 then (s.ev.ram.map fun r => r.seq).foldl State.scrubRecorder s else s
  if hasBit select 1 then (List.range s.bb.faultLog.length).reverse.foldl State.scrubOrangery s else s

/-- The JTAG instruction BB_READ_DBG returns the word at an offset of a section (R409). -/
def execBbReadDbg (sect offset : Nat) (s : State) : Out :=
  .next ((s.readSections (2 ^ sect)).reply (BitVec.ofNat 32 (leNat (((s.dumpBytes (2 ^ sect)).drop offset).take 4))))

/-- The wedge-safe responder answers with up to 1,024 bytes of a section, once the management core's watchdog has expired. -/
def State.respond (s : State) (sect offset : Nat) : State :=
  if s.pw.responder then
    (s.readSections (2 ^ sect)).updBb fun b => { b with reply := ((s.dumpBytes (2 ^ sect)).drop offset).take 1024 }
  else s

/-- BB_RESPONDER_REQUEST (R409). -/
def execBbResponderRequest (sect offset : Nat) (s : State) : Out := .next (s.respond sect offset)

/-! ### EV_CMD on the Orangery (R400) -/

/-- The action of EV_CMD BB_RELEASE. -/
def State.doBbRelease (s : State) (d : Desc) : State :=
  if !s.bb.ptFrozen && s.sealedSlots.isEmpty then s.completeDesc d { reason := 4 }
  else
    let free := s.bb.slots.map fun e => (e.1, { e.2 with sealedNo := 0 })
    let s := s.updBb fun b => { b with ptFrozen := false, slots := free.filter fun e => e.2 != {} }
    ((s.set R.BB_STAT_PT_SKIPS 0 0).showBb).completeDesc d {}

/-- EV_CMD BB_RELEASE (R400). -/
def execEvCmdBbRelease (d : DescId) (s : State) : Out := .next (s.opAction d 0x30 3 0 6 (fun _ _ => {}) State.doBbRelease)

/-- The action of EV_CMD BB_ERASE: the selected sections but the persistent words. -/
def State.doBbErase (s : State) (d : Desc) : State :=
  let m := d.bits 5 5 0
  let s := if hasBit m 1 then s.updBb fun b => { b with faultLog := [] } else s
  let s := if hasBit m 2 then s.updBb fun b => { b with slots := [] } else s
  let s := if hasBit m 3 then s.updBb fun b => { b with ring := [], staging := [] } else s
  let s := if hasBit m 4 then s.updBb fun b => { b with snapA := none, snapB := none, snapNew := false } else s
  s.showBb.completeDesc d {}

/-- EV_CMD BB_ERASE, in maintenance mode with the cell DISABLED (R400). -/
def execEvCmdBbErase (d : DescId) (s : State) : Out :=
  .next (s.opAction d 0x30 3 0 7 (fun s _ => { maint := !s.maint, state := s.locked }) State.doBbErase)

end Sys2Proof.Machine
end

