-- ==== Sys2Proof/Machine/LongOp.lean ====
section
/-! DEFINITION. Long operations: acceptance, the status word, their progress, their ends and their abort (chapter 14). -/
namespace Sys2Proof.Machine

/-- The running long operation of a descriptor. -/
def State.longOf (s : State) (d : DescId) : Option LongOp := s.hi.longs.find? fun l => l.desc == d

/-- Forget a long operation. -/
def State.endLong (s : State) (l : LongOp) : State := s.updHi fun h => { h with longs := h.longs.filter fun x => x.desc != l.desc }

/-- Another long operation of the opcode runs, or four run. -/
def State.longBusy (s : State) (op : Nat) : Bool := (s.hi.longs.any fun l => l.opcode == op) || decide (4 ≤ s.hi.longs.length)

/-- A long operation is accepted: its status word says QUEUED. -/
def State.longStart (s : State) (op total : Nat) (d : Desc) : State :=
  let l : LongOp := { desc := { ring := ⟨d.ring % 32, Nat.mod_lt _ (by decide)⟩, tag := d.word 1 }, opcode := op, state := 0, total }
  (s.updHi fun h => { h with longs := h.longs ++ [l] }).writeStatus d l 0

/-- Set the state and identifier of an entry of the image directory. -/
def State.setImage (s : State) (k st ident : Nat) : State := (s.set R.HI_IMG_STAT_STATE k st).set R.HI_IMG_STAT_IMAGE_ID k ident

/-- An enabled Tiller or engine names the directory entry. -/
def State.imageInUse (s : State) (k : Nat) : Bool :=
  ((List.range 64).any fun n => s.bit R.TL_CFG_EN n && s.get R.TL_CFG_IMAGE n == k)
    || (List.range 9).any fun e => s.bit R.SV_CFG_EN e && s.get R.SV_CFG_IMAGE e == k

/-- The action of IMAGE_LOAD. -/
def State.doImageLoad (s : State) (d : Desc) : State :=
  let k := d.bits 7 9 0
  if s.imageInUse k then s.completeDesc d { reason := 1 }
  else (s.setImage k 1 0).longStart 0x08 (d.word 6) d

/-- IMAGE_LOAD (R356). -/
def execImageLoad (d : DescId) (s : State) : Out :=
  .next (s.action d 0x08 (fun s _ => { long := s.longBusy 0x08 }) State.doImageLoad)

/-- SELF_TEST, while the cell is DISABLED (R356). -/
def execSelfTest (d : DescId) (s : State) : Out :=
  .next (s.action d 0x09 (fun s _ => { state := s.locked, long := s.longBusy 0x09 }) (State.longStart · 0x09 0))

/-- OFFLINE_SOLVE, while the cell is DISABLED or on an engine with EN = 0 (R356). -/
def execOfflineSolve (d : DescId) (s : State) : Out :=
  .next (s.action d 0x0A (fun s d => { state := s.locked && s.bit R.SV_CFG_EN (d.bits 7 3 0), long := s.longBusy 0x0A })
    fun s d => s.longStart 0x0A (d.bits 7 15 8) d)

/-- BB_DUMP (R409). -/
def execBbDump (d : DescId) (s : State) : Out :=
  .next (s.action d 0x0B (fun s _ => { long := s.longBusy 0x0B })
    fun s d => s.longStart 0x0B (s.dumpBytes (d.bits 7 5 0)).length d)

/-- FW_UPDATE, while the cell is DISABLED; it waits while the management core is down, but in recovery the boot ROM runs it. -/
def execFwUpdate (d : DescId) (s : State) : Out :=
  .next (if s.mgmtDown then s
    else s.action d 0x0C (fun s _ => { state := s.locked, long := s.longBusy 0x0C }) fun s d => s.longStart 0x0C (d.word 6) d)

/-! ### Progress and ends -/

/-- The bytes that a partial result publishes: for a dump the next 64 KiB of it, else the given words. -/
def State.partBytes (s : State) (d : Desc) (l : LongOp) (part : List Word) : List Byte :=
  if l.opcode = 0x0B then ((s.dumpBytes (d.bits 7 5 0)).drop (65536 * l.partials)).take 65536 else part.flatMap wordBytes

/-- Where the next partial result goes in the buffer. -/
def partOffset (l : LongOp) (n : Nat) : Nat := if l.opcode = 0x0B then 65536 * l.partials else n * l.partials

/-- Complete a long operation with a last status. -/
def State.longFinish (s : State) (d : Desc) (l : LongOp) (reason : Nat) : State :=
  let st := if reason = 0 then 2 else if reason = 7 then 4 else 3
  ((s.writeStatus d { l with state := st } reason).endLong l).completeDesc d { reason }

/-- The status word is written again: the operation is RUNNING, with its progress and any partial result. -/
def State.longUpdate (s : State) (k : DescId) (progress total : Nat) (part : Option (List Word)) (w7 : Word) : State :=
  match s.longOf k, s.desc? (dkey k) with
  | some l, some d =>
    match part with
    | none => s.writeStatus d { l with state := 1, progress, total, w7 } 0
    | some p =>
      let b := s.partBytes d l p
      let off := partOffset l b.length
      if off + b.length ≤ d.word 6 then
        (s.hostPut (d.addr 4 + off) b).writeStatus d { l with state := 1, progress, total, w7, partials := l.partials + 1 } 0
      else s.longFinish d { l with progress, total, w7 } 6
  | _, _ => s

/-- LONG_OP_STATUS_UPDATE (R356). -/
def execLongOpStatusUpdate (d : DescId) (progress total : Nat) (part : Option (List Word)) (w7 : Word) (s : State) : Out :=
  .next (s.longUpdate d progress total part w7)

/-- Results that must fit in the buffer end an operation, else 0x06. -/
def State.longResults (s : State) (d : Desc) (l : LongOp) (b : List Byte) (reason : Nat) : State :=
  if b.length ≤ d.word 6 then (s.hostPut (d.addr 4) b).longFinish d { l with progress := l.total } reason else s.longFinish d l 6

/-- An image that the loader accepts (R356). -/
def imageGood (i : Image) : Bool := decide (i.fmt = 1) && i.checkOk && (match i.solver with | some v => v.cert.checkOk | none => true)

/-- The end of an IMAGE_LOAD. -/
def State.imageEnd (s : State) (d : Desc) (l : LongOp) (img : Option Image) (space : Bool) : State :=
  let k := d.bits 7 9 0
  let forget := fun (s : State) => s.updHi fun h => { h with images := Tab.put (fun _ => none) h.images k none }
  match img with
  | none => (forget (s.setImage k 3 0)).longFinish d l 2
  | some i =>
    if !imageGood i then (forget (s.setImage k 3 0)).longFinish d l 2
    else if !space then (forget (s.setImage k 0 0)).longFinish d l 3
    else
      let s := (s.setImage k 2 i.ident).updHi fun h => { h with images := Tab.put (fun _ => none) h.images k (some i) }
      s.longFinish d { l with progress := l.total } 0

/-- The firmware slot that is not running (R450). -/
def State.idleSlot (s : State) : Nat := if s.get R.PW_BOOT_STAT_SLOT = 0 then 1 else 0

/-- The end of a FW_UPDATE: a verified image is written to the idle slot. -/
def State.firmwareEnd (s : State) (d : Desc) (l : LongOp) (words : List Word) (version : Nat) : State :=
  if Config.firmwareVerifies ((s.pw.fuses.map fun f => f.bootKey).getD 0) words then
    let f : FwSlot := { valid := true, version }
    let s : State := { s with pw := if s.idleSlot = 0 then { s.pw with slot0 := f } else { s.pw with slot1 := f } }
    (s.post Ev.mgFwUpdated .info).longFinish d { l with progress := l.total } 0
  else s.longFinish d l 4

/-- A running long operation ends by itself. -/
def State.longEnd (s : State) (k : DescId) (r : LongEnd) : State :=
  match s.longOf k, s.desc? (dkey k) with
  | some l, some d =>
    match r with
    | .image img space => if l.opcode = 0x08 then s.imageEnd d l img space else s
    | .tests rec bad =>
      if l.opcode = 0x09 then
        s.longResults d { l with w7 := BitVec.ofNat 32 (bad.getD 0) } (rec.flatMap wordBytes) (if bad.isSome then 5 else 0)
      else s
    | .solved w => if l.opcode = 0x0A then s.longResults d l (w.flatMap wordBytes) 0 else s
    | .dumped =>
      if l.opcode = 0x0B then (s.readSections (d.bits 7 5 0)).longResults d l (s.dumpBytes (d.bits 7 5 0)) 0 else s
    | .firmware w v => if l.opcode = 0x0C then s.firmwareEnd d l w v else s
    | .dmaError =>
      let s := if l.opcode = 0x08 then s.setImage (d.bits 7 9 0) 0 0 else s
      s.longFinish d l 0xF2
  | _, _ => s

/-- LONG_OP_END (R355). -/
def execLongOpEnd (d : DescId) (r : LongEnd) (s : State) : Out := .next (s.longEnd d r)

/-! ### LONG_ABORT (R357) -/

/-- Stop a long operation: ABORTED, 0x07; an IMAGE_LOAD leaves its entry EMPTY. -/
def State.stopLong (s : State) (l : LongOp) : State :=
  match s.desc? (dkey l.desc) with
  | some d =>
    let s := if l.opcode = 0x08 then s.setImage (d.bits 7 9 0) 0 0 else s
    s.longFinish d l 7
  | none => s.endLong l

/-- The action of LONG_ABORT. -/
def State.doLongAbort (s : State) (d : Desc) : State :=
  match s.hi.longs.find? fun l => l.desc.tag == d.word 4 with
  | some l => (s.stopLong l).completeDesc d {}
  | none => s.completeDesc d { reason := 1 }

/-- LONG_ABORT (R357). -/
def execLongAbort (d : DescId) (s : State) : Out := .next (s.action d 0x0D (fun _ _ => {}) State.doLongAbort)

end Sys2Proof.Machine
end

