-- ==== Sys2Proof/Machine/Adc.lean ====
section
/-! DEFINITION. The analogue converter with its sequencer and limits (chapter 17), and the firing of triggers with their actions
(chapter 02). -/
namespace Sys2Proof.Machine

/-- Change the sequencer. -/
def State.updAd (s : State) (f : Adc → Adc) : State := { s with ad := f s.ad }

/-- Show the sequencer in AD.STAT. -/
def State.showAd (s : State) : State :=
  (s.setBit R.AD_STAT_BUSY 0 s.ad.conv.isSome).setBit R.AD_STAT_URG_PENDING 0 s.ad.urgReq.isSome

/-- Start a sequence conversion of entry `i` in tick `t`; the first of a pass counts the pass (R419) and is a sequence start for the
capture channels, dated at that tick (R59). -/
def State.startSeq (s : State) (t i : Nat) : State :=
  let s := if s.ad.fresh then (s.captureStart 2 (s.stampOf (decide (s.tick < t)))).set R.AD_STAT_PASS 0 (s.get R.AD_STAT_PASS + 1) else s
  s.updAd fun a => { a with conv := some { start := t, entry := i, urgent := false }, fresh := false }

/-- What the free converter starts in tick `t`: the urgent request held, the pass in progress, or a new pass (R418, R420). -/
def State.startNext (s : State) (t : Nat) : State :=
  match s.ad.urgReq, s.ad.pass with
  | some e, _ => s.updAd fun a => { a with conv := some { start := t, entry := e, urgent := true }, urgReq := none }
  | none, some i => s.startSeq t i
  | none, none =>
    let mode := s.get R.AD_CFG_MODE
    if s.get R.AD_CFG_COUNT = 0 then s
    else if mode = 1 ∨ (mode = 2 ∧ s.ad.latched) then
      (s.updAd fun a => { a with pass := some 0, fresh := true, latched := false }).startSeq t 0
    else s

/-- The converter is idle and a pass can start at once: MODE was written. -/
def State.adcKick (s : State) : State := if s.ad.conv.isNone then (s.startNext s.tick).showAd else s

/-- A trigger with action 1 (R418, R421). -/
def State.adcTrigger (s : State) : State :=
  if s.get R.AD_CFG_MODE ≠ 2 ∨ s.get R.AD_CFG_COUNT = 0 then s
  else if s.ad.pass.isSome then
    if s.ad.latched then s.inc R.AD_COUNT_TRG_OVERLAP else s.updAd fun a => { a with latched := true }
  else
    let s := s.updAd fun a => { a with pass := some 0, fresh := true }
    (if s.ad.conv.isNone then s.startSeq (s.tick + 1) 0 else s).showAd

/-- The code of an input of `nv` nanovolts (R416). -/
def adcCode (diff : Bool) (nv : Int) : Int :=
  let vref : Int := 1250000000
  if diff then max (-32768) (min 32767 ((2 * nv * 32768 + vref) / (2 * vref)))
  else min 65535 ((2 * max nv 0 * 65536 + vref) / (2 * vref))

/-- The result register's word for a code (R417). -/
def adcWord (left diff : Bool) (code : Int) : Int :=
  if left then code * 2 ^ 16 else if diff then code else code % 65536

/-- A limit as the entry compares it. -/
def State.adcLimit (s : State) (f : Field) (e : Nat) : Int := if s.bit R.AD_SEQ_A_DIFF e then s.geti f e else s.get f e

/-- LIM_N of an entry. -/
def State.limN (s : State) (e : Nat) : Nat := s.get R.AD_SEQ_A_LIM_N e

/-- The limit test of a code (R423): its runs, and OUT clears after LIM_N conversions within. -/
def State.limitTest (s : State) (e : Nat) (code : Int) : State :=
  if !s.bit R.AD_SEQ_A_LIM_EN e then s
  else
    let bad := decide (code < s.adcLimit R.AD_SEQ_B_LIMIT_LO e) || decide (s.adcLimit R.AD_SEQ_B_LIMIT_HI e < code)
    let n := fun t => Tab.get (fun _ => 0) t e
    let out := if bad then n s.ad.outRun + 1 else 0
    let inn := if bad then 0 else n s.ad.inRun + 1
    let s := s.updAd fun a => { a with outRun := Tab.put (fun _ => 0) a.outRun e out, inRun := Tab.put (fun _ => 0) a.inRun e inn }
    if s.limN e ≤ inn then s.setBit R.AD_RES_STAT_OUT e false else s

/-- Write the code of a conversion of entry `e`. -/
def State.adcResult (s : State) (e : Nat) (urgent : Bool) (code : Int) : State :=
  let s := s.seti R.AD_RES e (adcWord (s.bit R.AD_SEQ_A_LEFT e) (s.bit R.AD_SEQ_A_DIFF e) code)
  let s := (s.set R.AD_RES_STAT_PASS e (s.get R.AD_STAT_PASS)).setBit R.AD_RES_STAT_URGENT e urgent
  s.limitTest e code

/-- The pass goes on after a sequence conversion of entry `i`. -/
def State.passOn (s : State) (i : Nat) : State :=
  s.updAd fun a => { a with pass := if i + 1 < s.get R.AD_CFG_COUNT then some (i + 1) else none }

/-- The code of a conversion of entry `e`: from the voltage, or as an injection gives it, with the mark for its record. -/
def State.adcTake (s : State) (e : Nat) (nv : Int) : Int × State :=
  let diff := s.bit R.AD_SEQ_A_DIFF e
  let (j, s) := s.inject (292 + e) e
  let s := s.updAd fun a => { a with injMask := if j.isSome then orBit a.injMask e else clrBit a.injMask e }
  match j with
  | some p => (if diff then signed 16 (param p 0) else param p 0 % 65536, s)
  | none => (adcCode diff nv, s)

/-- A conversion ends, 125 ticks after its start, and the next starts in the same tick. -/
def State.conversionEnd (s : State) (nv : Int) : State :=
  match s.ad.conv with
  | none => s
  | some c =>
    if s.tick < c.start + 125 then s
    else
      let (code, s) := s.adcTake c.entry nv
      let s := s.adcResult c.entry c.urgent code
      let s := if c.urgent then s else s.passOn c.entry
      ((s.updAd fun a => { a with conv := none }).startNext (c.start + 125)).showAd

/-- ADC_CONVERSION_END (R416). -/
def execAdcConversionEnd (nv : Int) (s : State) : Out := .next (s.conversionEnd nv)

/-- The reaction of an entry that is out of its limits. -/
def State.limitReact (s : State) (e : Nat) : State :=
  match s.get R.AD_SEQ_A_LIM_REACT e with
  | 1 => s.fault (s.get R.AD_SEQ_A_LIM_MASK e) .ss2 Ev.adLimit (some e)
  | 2 => s.fault (s.get R.AD_SEQ_A_LIM_MASK e) .ss1 Ev.adLimit (some e)
  | _ => s

/-- The code that the result register of an entry holds. -/
def State.lastCode (s : State) (e : Nat) : Int :=
  let v := if s.bit R.AD_SEQ_A_LEFT e then s.get R.AD_RES e / 2 ^ 16 else s.get R.AD_RES e % 2 ^ 16
  if s.bit R.AD_SEQ_A_DIFF e then signed 16 v else v

/-- LIM_N consecutive conversions of an entry lie outside its limits. -/
def State.limitOut (s : State) (e : Nat) : State :=
  let due := s.bit R.AD_SEQ_A_LIM_EN e && decide (s.limN e ≤ Tab.get (fun _ => 0) s.ad.outRun e) && !s.bit R.AD_RES_STAT_OUT e
  if due then
    let react := s.get R.AD_SEQ_A_LIM_REACT e
    let s := s.setBit R.AD_RES_STAT_OUT e true
    let s := s.post Ev.adLimit (if react = 0 then .notice else .fault) (some e) [BitVec.ofInt 32 (s.lastCode e)]
      (react != 0) (hasBit s.ad.injMask e)
    s.limitReact e
  else s

/-- AD_LIMIT (R423). -/
def execAdLimit (e : Fin 16) (s : State) : Out := .next (s.limitOut e)

/-- Every entry that is OUT reacts again at a bus-cycle boundary. -/
def State.limitsAgain (s : State) : State :=
  (List.range 16).foldl (fun s e => if s.bit R.AD_RES_STAT_OUT e then s.limitReact e else s) s

/-- An urgent request for entry `e` (R420, R421). -/
def State.urgent (s : State) (e : Nat) : State :=
  if s.ad.urgReq.isSome then s.inc R.AD_COUNT_URG_DROP
  else
    let now : Conv := { start := s.tick + 1, entry := e, urgent := true }
    match s.ad.conv with
    | none => (s.updAd fun a => { a with conv := some now }).showAd
    | some c =>
      if !c.urgent && decide (s.tick - c.start ≤ 62) then ((s.inc R.AD_COUNT_ABORTS).updAd fun a => { a with conv := some now }).showAd
      else (s.updAd fun a => { a with urgReq := some e }).showAd

/-- ADC_URGENT_REQUEST (R420). -/
def execAdcUrgentRequest (e : Fin 16) (s : State) : Out := .next (s.urgent e)

/-- ADC_RES_READ (R422): the result is returned and RES_STAT captured. -/
def execAdcResRead (e : Fin 16) (s : State) : Out :=
  let at' := R.AD_RES_STAT_PASS.addr e
  .next ((s.latch at' (s.regs.word .ad at')).reply (s.regs.word .ad (R.AD_RES.addr e)))

/-! ### Triggers (R63 to R65) -/

/-- The action of a trigger that fires. -/
def State.trigAct (s : State) (ch : Nat) : State :=
  let target := s.get R.TB_TRG_CTRL_TARGET ch
  match s.get R.TB_TRG_CTRL_ACTION ch with
  | 1 => s.adcTrigger
  | 2 => if target < 16 then s.segTrigger target else s
  | 3 => if target < 4 then s.updPort target fun x => { x with latFree := x.latFree + 1 } else s
  | 4 => s.post Ev.trgMarker .info (some ch)
  | _ => s

/-- TRIGGER_FIRE (R63). -/
def execTriggerFire (ch : Fin 16) (s : State) : Out := .next (if s.trigDue ch then (s.trigAdvance ch).trigAct ch else s)

end Sys2Proof.Machine
end

