-- ==== Sys2Proof/Machine/SafetyIo.lean ====
section
/-! DEFINITION. The safety inputs with their demands and discrepancies, the readback and test of the safe-torque-off pairs, their
global release, and the heartbeat watchdog (chapter 17). -/
namespace Sys2Proof.Machine

/-! ### Safety inputs (R424 to R426) -/

/-- The levels of both channels of input `i` (0 ESTOP, 1 ENABLE, 2 and up the doors). -/
def State.sioA (s : State) (i : Nat) : Bool := hasBit (s.get R.AD_SIO_STAT_LEVEL) (2 * i)

/-- Channel B of input `i`. -/
def State.sioB (s : State) (i : Nat) : Bool := hasBit (s.get R.AD_SIO_STAT_LEVEL) (2 * i + 1)

/-- The discrepancy latch of input `i`. -/
def State.sioDisc (s : State) (i : Nat) : Bool := hasBit (s.get R.AD_SIO_STAT_DISC) i

/-- The demand of input `i`. -/
def State.sioDemand (s : State) (i : Nat) : Bool := hasBit (s.get R.AD_SIO_STAT_DEMAND) i

/-- A demand of input `i` acts (R426). -/
def State.sioActs (s : State) (i : Nat) : Bool :=
  match i with
  | 0 => true
  | 1 => s.bit R.AD_SIO_CFG_ENABLE_EN
  | d + 2 => s.bit R.AD_DOOR_CFG_EN d

/-- The instance of an input: the door's number. -/
def sioInst (i : Nat) : Option Nat := if 2 ≤ i then some (i - 2) else none

/-- The demand event of an input. -/
def sioCode (i : Nat) : Nat := if i = 0 then Ev.ioEstop else if i = 1 then Ev.ioEnable else Ev.ioDoor

/-- The discrepancy event of an input. -/
def sioDiscCode (i : Nat) : Nat := if i = 0 then Ev.ioEstopDisc else if i = 1 then Ev.ioEnableDisc else Ev.ioDoorDisc

/-- The injection index of an input's demand detector. -/
def sioIndex (i : Nat) : Nat := if i = 0 then 308 else if i = 1 then 310 else 312

/-- The action of a demand of input `i`. -/
def State.sioAct (s : State) (i : Nat) : State :=
  match i with
  | 0 => if s.get R.AD_SIO_CFG_ESTOP_CAT = 2 then s.fault s.groupsInUse .ss1 Ev.ioEstop none else s.assertAll 4
  | 1 => s.fault (s.get R.AD_SIO_CFG_B_ENABLE_MASK) .ss2 Ev.ioEnable none
  | d + 2 =>
    let mask := s.get R.AD_DOOR_CFG_MASK d
    match s.get R.AD_DOOR_CFG_CAT d with
    | 1 => s.fault mask .ss2 Ev.ioDoor (some d)
    | 2 => s.fault mask .ss1 Ev.ioDoor (some d)
    | 3 => s.assertMask 4 mask
    | _ => s

/-- The event input accepts records: start-up has ended. -/
def State.running' (s : State) : Bool := decide (s.pw.phase = .running)

/-- Post the demand event of input `i` once in its demand, when the event input accepts records. -/
def State.sioPost (s : State) (i : Nat) (injected : Bool) : State :=
  if s.running' && !Tab.get (fun _ => false) s.sio.posted i then
    let esc := i == 1 || decide (s.get R.AD_SIO_CFG_ESTOP_CAT = 2 ∧ i = 0) || (decide (2 ≤ i) && decide (s.get R.AD_DOOR_CFG_CAT (i - 2) ≤ 2))
    (s.post (sioCode i) (if i = 1 then .notice else .fault) (sioInst i) [] esc injected).updSio fun x =>
      { x with posted := Tab.put (fun _ => false) x.posted i true }
  else s

/-- Input `i` is in demand and acts: at its start, and again at every boundary. -/
def State.sioApply (s : State) (i : Nat) (injected : Bool) : State :=
  if s.sioDemand i && s.sioActs i then (s.sioPost i injected).sioAct i else s

/-- The discrepancy latch of input `i` after a change of its levels: it clears when both channels were 0 together and both have
returned to 1 within DISC_MS of each other (R425). -/
def State.sioLatch (s : State) (i : Nat) : State :=
  let a := s.sioA i
  let b := s.sioB i
  let limit := 125000 * s.get R.AD_SIO_CFG_DISC_MS
  let both := Tab.get (fun _ => false) s.sio.both0 i
  let first := Tab.get (fun _ => none) s.sio.ret1 i
  let s := s.updSio fun x =>
    { x with
      diffAt := Tab.put (fun _ => none) x.diffAt i (if a = b then none else some ((Tab.get (fun _ => none) x.diffAt i).getD s.tick)),
      both0 := Tab.put (fun _ => false) x.both0 i (s.sioDisc i && ((!a && !b) || (both && !(a && b)))),
      ret1 := Tab.put (fun _ => none) x.ret1 i (if a = b then none else some (first.getD s.tick)) }
  let close := match first with | some t => decide (s.tick ≤ t + limit) | none => true
  if s.sioDisc i && a && b && both && close then s.set R.AD_SIO_STAT_DISC 0 (clrBit (s.get R.AD_SIO_STAT_DISC) i) else s

/-- The demand of input `i` follows its levels and its latch. -/
def State.sioFollow (s : State) (i : Nat) (injected : Bool) : State :=
  let old := s.sioDemand i
  let new := !s.sioA i || !s.sioB i || s.sioDisc i
  if new then
    let s := s.set R.AD_SIO_STAT_DEMAND 0 (orBit (s.get R.AD_SIO_STAT_DEMAND) i)
    if old then s
    else
      let s := if i = 0 ∧ s.get R.AD_SIO_CFG_ESTOP_CAT = 2 then s.updSio fun x => { x with estopAt := some s.tick } else s
      s.sioApply i injected
  else
    (s.set R.AD_SIO_STAT_DEMAND 0 (clrBit (s.get R.AD_SIO_STAT_DEMAND) i)).updSio fun x =>
      { x with posted := Tab.put (fun _ => false) x.posted i false }

/-- Set the accepted level of channel `ch`. -/
def State.setLevel (s : State) (ch : Nat) (level : Bool) : State :=
  let v := s.get R.AD_SIO_STAT_LEVEL
  s.set R.AD_SIO_STAT_LEVEL 0 (if level then orBit v ch else clrBit v ch)

/-- An injection acts on the samples of input `i`: at its demand or at its discrepancy detector (R477). -/
def State.sioReplaced (s : State) (i : Nat) : Bool :=
  let inst := (sioInst i).getD noInst
  (s.inject (sioIndex i) inst).1.isSome || (s.inject (sioIndex i + 1) inst).1.isSome

/-- The accepted level of a channel of input `i` was injected. -/
def State.sioInj (s : State) (i : Nat) : Bool := hasBit s.sio.injAcc (2 * i) || hasBit s.sio.injAcc (2 * i + 1)

/-- Channel `ch` is accepted at a level in this tick. -/
def State.sioAccept (s : State) (ch : Nat) (level injected : Bool) : State :=
  (s.setLevel ch level).updSio fun x =>
    { x with
      accAt := Tab.put (fun _ => 0) x.accAt ch s.tick,
      filtRun := Tab.put (fun _ => 0) x.filtRun ch 0,
      injAcc := if injected then orBit x.injAcc ch else clrBit x.injAcc ch }

/-- The demand and the latch of input `i` follow its accepted levels. -/
def State.sioSettle (s : State) (i : Nat) : State :=
  let s := s.sioLatch i
  s.sioFollow i (s.sioInj i)

/-- FILT_US samples have been taken since channel `ch` was last accepted at a level. -/
def State.sioFiltered (s : State) (ch : Nat) : Bool :=
  decide (Tab.get (fun _ => 0) s.sio.accAt ch + 125 * s.get R.AD_SIO_CFG_FILT_US ≤ s.tick)

/-- Channel `ch` of the safety inputs is accepted at a level that FILT_US samples have shown; while an injection replaces the samples
(R477), only the pin changes. -/
def State.sioChange (s : State) (ch : Nat) (level : Bool) : State :=
  if !s.sioFiltered ch then s
  else
    let s := s.updSio fun x => { x with pins := if level then orBit x.pins ch else clrBit x.pins ch }
    if s.sioReplaced (ch / 2) then s else (s.sioAccept ch level false).sioSettle (ch / 2)

/-- A sample of channel `ch`: a level other than the accepted one is accepted after FILT_US of them in a row. -/
def State.sioRun (s : State) (ch : Nat) (level injected : Bool) : State :=
  let run := if hasBit (s.get R.AD_SIO_STAT_LEVEL) ch = level then 0 else Tab.get (fun _ => 0) s.sio.filtRun ch + 1
  if run ≠ 0 ∧ s.get R.AD_SIO_CFG_FILT_US ≤ run then s.sioAccept ch level injected
  else s.updSio fun x => { x with filtRun := Tab.put (fun _ => 0) x.filtRun ch run }

/-- A sample of input `i`: an injection replaces the levels of both channels before the filter; once it has ended, the levels of the
pins come back through the filter (R424, R477). -/
def State.sioSample (s : State) (i : Nat) : State :=
  let inst := (sioInst i).getD noInst
  let lv := s.get R.AD_SIO_STAT_LEVEL
  let (j, s) := s.inject (sioIndex i) inst
  let (k, s) := s.inject (sioIndex i + 1) inst
  match j, k with
  | none, none =>
    if s.sioInj i then (((s.sioRun (2 * i) (hasBit s.sio.pins (2 * i)) false).sioRun (2 * i + 1) (hasBit s.sio.pins (2 * i + 1)) false)).sioSettle i
    else s
  | some p, _ | none, some p =>
    let s := (s.sioRun (2 * i) (hasBit (param p 0) 0) true).sioRun (2 * i + 1) (hasBit (param p 0) 1) true
    if s.get R.AD_SIO_STAT_LEVEL = lv then s else s.sioSettle i

/-- SAFETY_INPUT_CHANGE (R424). -/
def execSafetyInputChange (ch : Fin 12) (level : Bool) (s : State) : Out := .next (s.sioChange ch level)

/-- The channels of input `i` have differed for DISC_MS: the discrepancy is latched. -/
def State.discrepancy (s : State) (i : Nat) : State :=
  let due := match Tab.get (fun _ => none) s.sio.diffAt i with
    | some t => decide (t + 125000 * s.get R.AD_SIO_CFG_DISC_MS ≤ s.tick)
    | none => false
  if due && !s.sioDisc i then
    let inj := s.sioInj i
    let s := s.set R.AD_SIO_STAT_DISC 0 (orBit (s.get R.AD_SIO_STAT_DISC) i)
    (s.post (sioDiscCode i) .fault (sioInst i) [] false inj).sioFollow i inj
  else s

/-- SAFETY_DISCREPANCY (R425). -/
def execSafetyDiscrepancy (i : Fin 6) (s : State) : Out := .next (s.discrepancy i)

/-- ESTOP_SS1_MS after an SS1 e-stop, every pair is asserted. -/
def State.estopExpiry (s : State) : State :=
  match s.sio.estopAt with
  | some t =>
    if t + 125000 * s.get R.AD_SIO_CFG_B_ESTOP_SS1_MS ≤ s.tick then (s.updSio fun x => { x with estopAt := none }).assertAll 4 else s
  | none => s

/-- ESTOP_SS1_EXPIRY (R426). -/
def execEstopSs1Expiry (s : State) : Out := .next s.estopExpiry

/-- Demands that hold are applied again at every bus-cycle boundary. -/
def State.demandsAgain (s : State) : State := (List.range 6).foldl (fun s i => s.sioApply i (s.sioInj i)) s

/-! ### Readback and test (R430, R431) -/

/-- A readback or test fault that is fatal: latched, every pair asserted. -/
def State.stoFatal (s : State) (p : Nat) (injected : Bool) : State :=
  let s := (s.post Ev.ioStoFb .fatal (some p) [] true injected).fatal 0xFF true Ev.ioStoFb (some p)
  s.latchFatal 0xFF true

/-- The readback rules of pair `p` are suspended: 50 µs have not passed since the last change that it drives (R430). -/
def State.fbQuiet (s : State) (p : Nat) : Bool := decide (s.tick ≤ Tab.get (fun _ => 0) s.sio.driveAt p + 6250)

/-- A channel of pair `p` has read at a level for over 50 µs: otherwise than driven, or soundly. -/
def State.readback (s : State) (p : Nat) (chB high injected : Bool) : State :=
  let drive := if chB then R.AD_STO_STAT_DRIVE_B else R.AD_STO_STAT_DRIVE_A
  let fb := if chB then R.AD_STO_STAT_FB_B else R.AD_STO_STAT_FB_A
  if s.fbQuiet p then s
  else
    let driven := s.bit drive p
    let s := s.setBit fb p high
    if driven == high then s
    else if high then s.stoFatal p injected
    else (s.assertPair 6 p).post Ev.ioStoFb .fault (some p) [] false injected

/-- A readback sample of pair `p`: an injection at 314 makes a channel read otherwise than it is driven, and the rules of R430 decide
once the level has passed the filter and stood for over 50 µs (R477). -/
def State.fbSample (s : State) (p : Nat) : State :=
  match s.inject 314 p with
  | (none, s) =>
    if Tab.get (fun _ => 0) s.sio.fbRun p = 0 then s else s.updSio fun x => { x with fbRun := Tab.put (fun _ => 0) x.fbRun p 0 }
  | (some l, s) =>
    let chB := decide (param l 0 = 1)
    let high := decide (param l 1 = 1)
    let run := if s.bit (if chB then R.AD_STO_STAT_DRIVE_B else R.AD_STO_STAT_DRIVE_A) p == high || s.fbQuiet p then 0
      else Tab.get (fun _ => 0) s.sio.fbRun p + 1
    let s := s.updSio fun x => { x with fbRun := Tab.put (fun _ => 0) x.fbRun p run }
    if run = s.get R.AD_SIO_CFG_FILT_US + 51 then s.readback p chB high true else s

/-- The samples of the safety inputs and of the readbacks, once every microsecond (R424, R430). -/
def State.safetySamples (s : State) : State :=
  if s.tick % 125 = 0 then (List.range 10).foldl State.fbSample ((List.range 6).foldl State.sioSample s) else s

/-- STO_READBACK_MISMATCH (R430). -/
def execStoReadbackMismatch (p : Fin 10) (chB readsHigh : Bool) (s : State) : Out := .next (s.readback p chB readsHigh false)

/-- The test of a released pair (R431): each channel must have read low in its pulse and high again after it. -/
def State.testPulse (s : State) (p : Nat) (okA okB : Bool) : State :=
  let due := s.get R.AD_STO_TEST_TEST_US != 0 && !s.bit R.AD_STO_STAT_ASSERTED p
    && decide (Tab.get (fun _ => 0) s.sio.testAt p + 125000000 * s.get R.AD_STO_TEST_TEST_S ≤ s.tick)
  if due then
    let s := s.updSio fun x => { x with testAt := Tab.put (fun _ => 0) x.testAt p s.tick, driveAt := Tab.put (fun _ => 0) x.driveAt p s.tick }
    if okA && okB then s else s.stoFatal p false
  else s

/-- STO_TEST_PULSE (R431). -/
def execStoTestPulse (p : Fin 10) (okA okB : Bool) (s : State) : Out := .next (s.testPulse p okA okB)

/-! ### Global release (R429) -/

/-- No record of a code waits for its acknowledgement. -/
def State.codeAcked (s : State) (code : Nat) : Bool :=
  !s.bit R.EV_STAT_OPEN_OVF && !(s.ev.acks.any fun e => e.code == code) && !(s.posted.any fun e => e.code == code)

/-- The events behind a cause that can assert a global pair. -/
def causeCodes (i : Nat) : List Nat :=
  match i with
  | 3 => [Ev.sepBvDisagree, Ev.sepBvMissed, Ev.sepBvSs1]
  | 4 => [Ev.ioEstop, Ev.ioEstopDisc]
  | 5 => [Ev.paceLost, Ev.twLeaseLost, Ev.ioWdog]
  | 6 => [Ev.ioStoFb]
  | _ => []

/-- A write of GLOBAL_RELEASE. -/
def State.globalRelease (s : State) : State :=
  let causes := s.get R.AD_STO_STAT_CAUSE 8 ||| s.get R.AD_STO_STAT_CAUSE 9
  let acked := (maskList 9 causes).all fun i => (causeCodes i).all s.codeAcked
  if s.pairHeld 8 || s.pairHeld 9 || !acked then s.ignored 0x1502C0 else (s.releasePair 8).releasePair 9

/-- GLOBAL_RELEASE (R429). -/
def execGlobalRelease (s : State) : Out := .next s.globalRelease

/-! ### Heartbeat (R432, R433) -/

/-- A bus-cycle boundary with or without a heartbeat. -/
def State.heartbeat (s : State) (beat : Bool) : State :=
  let s := s.updSio fun x => { x with lastEdge := s.tick }
  if !s.enabled then s.updSio fun x => { x with missRun := 0 }
  else
    let (j, s) := s.inject 315 noInst
    if beat && j.isNone then s.updSio fun x => { x with missRun := 0 }
    else ((s.inc R.AD_WDOG_STAT_MISSES).wdogStop).updSio fun x => { x with missRun := x.missRun + 1 }

/-- WD_CYC consecutive boundaries have passed without a heartbeat. -/
def State.watchdog (s : State) : State :=
  if s.enabled && decide (s.get R.AD_SIO_CFG_B_WD_CYC ≤ s.sio.missRun) && s.sio.missRun != 0 then
    let s := s.updSio fun x => { x with missRun := 0 }
    let s := (s.post Ev.ioWdog .fatal none [] true).fatal 0xFF true Ev.ioWdog none
    (s.assertAll 5).latchFatal 0xFF true
  else s

/-- IO_WDOG (R433). -/
def execIoWdog (s : State) : Out := .next s.watchdog

end Sys2Proof.Machine
end

