-- ==== Sys2Proof/Machine/Power.lean ====
section
/-! DEFINITION. Power, reset, start-up, islands, the Sundial, the management-core watchdog, the wedge-safe oscillator and the
junction temperature (chapters 01 and 18). -/
namespace Sys2Proof.Machine

/-- Change power control. -/
def State.updPw (s : State) (f : Power → Power) : State := { s with pw := f s.pw }

/-- Set a status field in both its live register and the frozen bank. -/
def State.setBoth (s : State) (f : Field) (n v : Nat) : State := { s.set f n v with frozen := s.frozen.set f n v }

/-! ### Reset sources (R444 to R447) -/

/-- VDDNV rises: the whole device resets, the wedge-safe domain with it; RESET_CAUSE reads POR only, every safety input is in demand
and every pair is asserted (R424, R428, R444). -/
def State.powerUp (s : State) : State :=
  let t := s.cleared
  let s : State :=
    { t with
      regs := {}
      cb := {}
      ev := {}
      sio := { lastEdge := s.tick, accAt := (List.range 12).foldl (fun t c => Tab.put (fun _ => 0) t c s.tick) [] }
      pw := { slot0 := s.pw.slot0, slot1 := s.pw.slot1 } }
  let s := (s.set R.PW_RESET_CAUSE_CAUSE 0 1).set R.AD_SIO_STAT_DEMAND 0 0x3F
  (s.showKept false).assertAll 8 |>.assertAll 4

/-- POWER_ON (R444). -/
def execPowerOn (s : State) : Out := .next s.powerUp

/-- PIN_RESET (R446). -/
def execPinReset (s : State) : Out := .next (s.resetRequest 0x02)

/-- A write of PW.RESET_CTRL.KEY (R447). -/
def State.resetKey (s : State) (key : Nat) : State :=
  if key = 0xC0DE ∧ (s.cell = 0 ∨ s.sio.fatalLatched = true) then s.resetRequest 0x10 else s.ignored 0x160094

/-- SOFT_RESET (R447). -/
def execSoftReset (key : BitVec 16) (s : State) : Out := .next (s.resetKey key.toNat)

/-- The power-fail signal is asserted: PW_POWER_FAIL, every pair, and a reset after commit and snapshot (R442). -/
def State.powerFail (s : State) (causes : Nat) (injected : Bool) : State :=
  if s.bit R.PW_SUPPLY_STAT_PFAIL then s
  else
    let s := (s.post Ev.pwPowerFail .fatal none [] true injected).fatal 0xFF true Ev.pwPowerFail none
    ((s.setBit R.PW_SUPPLY_STAT_PFAIL 0 true).latchFatal 0xFF true).resetRequest causes

/-- The comparator result of a supply, in the order of PW.SUPPLY_STAT.GOOD. -/
def State.setGood (s : State) (i : Nat) (ok : Bool) : State :=
  if i < 8 then s.set R.PW_SUPPLY_STAT_GOOD 0 (if ok then orBit (s.get R.PW_SUPPLY_STAT_GOOD) i else clrBit (s.get R.PW_SUPPLY_STAT_GOOD) i)
  else s.setBit R.PW_SUPPLY_STAT_GOOD_VDDA 0 ok

/-- A supply is good. -/
def State.good (s : State) (i : Nat) : Bool :=
  if i < 8 then hasBit (s.get R.PW_SUPPLY_STAT_GOOD) i else s.bit R.PW_SUPPLY_STAT_GOOD_VDDA

/-- The supply behind a cause of the power-fail signal. -/
def pfSupply : PfCause → Option Nat
  | .pin => none | .vddc => some 0 | .vddt => some 1 | .vddio33 => some 7

/-- POWER_FAIL_SIGNAL (R442). -/
def execPowerFailSignal (cause : PfCause) (s : State) : Out :=
  .next (match pfSupply cause with
    | none => s.powerFail 0x08 false
    | some i => (s.setGood i false).powerFail 0x0C false)

/-- PW_SUPPLY (R436): a supply out of its window, or within it again. -/
def State.supplyOut (s : State) (i : Nat) (injected : Bool) : State :=
  (s.post Ev.pwSupply .fault (some i) [] true injected).fault s.groupsInUse .ss1 Ev.pwSupply (some i)

/-- PW_SUPPLY (R436). -/
def execPwSupply (supply : Fin 9) (good : Bool) (s : State) : Out :=
  .next (let was := s.good supply.val
    let s := s.setGood supply.val good
    if was && !good then s.supplyOut supply.val false else s)

/-- VDDNV falls below 0.72 V: the wedge-safe domain enters reset, every output falls, and a commit or snapshot in progress is cut
short (R407, R436). -/
def State.nvLoss (s : State) : State :=
  let cut := s.bb.commit.isSome || (s.bit R.PW_SUPPLY_STAT_PFAIL && !s.bb.snapDone)
  let s := (s.assertAll 8).wdogStop
  (s.updPw fun p => { p with phase := .noPower, vddnv := false, mgmtUp := false }).updBb fun b =>
    { b with commit := none, cutShort := b.cutShort || cut }

/-- VDDNV_LOSS (R436). -/
def execVddnvLoss (s : State) : Out := .next s.nvLoss

/-! ### From power to a configurable device (R446, R448 to R451) -/

/-- The hold of a reset ends: the supplies are good, and the time island starts to lock. -/
def State.holdEnd (s : State) : State :=
  if s.pw.phase = .held ∧ s.pw.tempHold = false ∧ s.pw.vddnv = true ∧ s.pw.nvOsc = true then
    let s := ((s.set R.PW_SUPPLY_STAT_GOOD 0 0xFF).setBit R.PW_SUPPLY_STAT_GOOD_VDDA 0 true).setBit R.PW_SUPPLY_STAT_VR_PGOOD 0 true
    s.updPw fun p => { p with phase := .locking }
  else s

/-- RESET_RELEASE (R446). -/
def execResetRelease (s : State) : Out := .next s.holdEnd

/-- The identity that the fuses give: device, MAC base (R75, R448). -/
def State.loadFuses (s : State) (f : Fuses) : State :=
  let s := (s.setBoth R.SYS_ID_VENDOR 0 f.vendor).setBoth R.SYS_VERSION_STEPPING 0 f.stepping
  let s := (s.setBoth R.CB_DEV_MAC_LO 0 (f.mac % 2 ^ 32)).setBoth R.CB_DEV_MAC_HI_OCTETS_0_1 0 (f.mac / 2 ^ 32)
  s.updPw fun p => { p with fuses := some f, phase := .window }

/-- The PLL is locked and the fuses are loaded and checked: a failure goes into the fault log, and start-up stops (R449). -/
def State.timeLock (s : State) (f : Fuses) : State :=
  if s.pw.phase = .locking then
    let s := s.setBit R.TB_REF_STATUS_LOCKED 0 true
    let (j, s) := s.inject 1022 noInst
    if f.ok && j.isNone then s.loadFuses f
    else
      let r : EvRec := { code := Ev.pwFuse, sev := .fatal, plane := .wedgeSafe, injected := j.isSome, esc := false, ns := s.ns,
                         sec := s.sec, tick := s.tick, inst := noInst, body := [] }
      (s.logFault r).updPw fun p => { p with phase := .fuseStop }
  else s

/-- TIME_ISLAND_LOCK (R448). -/
def execTimeIslandLock (f : Fuses) (s : State) : Out := .next (s.timeLock f)

/-- Every SRAM has been cleared (R448). -/
def State.memoryCleared (s : State) : State :=
  if s.pw.phase = .clearing then ({ s with gr := {} } : State).updPw fun p => { p with phase := .booting } else s

/-- MEMORY_CLEAR_COMPLETE (R448). -/
def execMemoryClearComplete (s : State) : Out := .next s.memoryCleared

/-- The verdict on firmware slot `k`: an invalid one is reported (R450). -/
def State.bootSlot (s : State) (k : Nat) (f : FwSlot) : FwSlot × State :=
  let (j, s) := s.inject 1023 k
  if f.valid && j.isNone then (f, s)
  else ({ f with valid := false }, s.post Ev.pwBootFail .fault (some k) [] false j.isSome)

/-- The slot to run: the valid one with the higher version; 3 for none (R450, R451). -/
def bootChoice (a b : FwSlot) : Nat :=
  if a.valid then (if b.valid && decide (a.version < b.version) then 1 else 0) else if b.valid then 1 else 3

/-- What the management firmware reports of the Orangery at its boot (R407). -/
def State.bootReports (s : State) : State :=
  let s := if s.bb.snapNew then (s.post Ev.bbPowerLoss .info).updBb fun b => { b with snapNew := false } else s
  s.detect 1012 noInst s.bb.cutShort fun inj s =>
    (s.post Ev.bbCommitFail .fault none [] false inj).updBb fun b => { b with cutShort := false }

/-- The boot ROM has verified the slots: the firmware runs, or the device is in recovery (R450, R451). -/
def State.secureBoot (s : State) (a b : FwSlot) (ms : Nat) : State :=
  if s.pw.phase = .booting ∨ (s.pw.phase = .running ∧ s.pw.mgmtUp = false) then
    let first := decide (s.pw.phase = .booting)
    let (a, s) := s.bootSlot 0 a
    let (b, s) := s.bootSlot 1 b
    let k := bootChoice a b
    let s := (s.set R.PW_BOOT_STAT_SLOT 0 k).set R.PW_BOOT_STAT_SLOT_VALID 0 ((if a.valid then 1 else 0) + if b.valid then 2 else 0)
    let s := s.set R.PW_BOOT_STAT_BOOT_MS 0 (min ms 0xFFFF)
    let s := s.updPw fun p => { p with slot0 := a, slot1 := b, phase := .running, mgmtUp := k != 3, mgmtAt := s.tick }
    let s := s.setBoth R.SYS_VERSION_FW_VER 0 (if k = 0 then a.version else if k = 1 then b.version else 0)
    let s := if k = 3 then s else (s.post Ev.mgBoot .info).bootReports
    if first then (List.range 6).foldl (fun s i => if s.sioDemand i && s.sioActs i then s.sioPost i false else s) s else s
  else s

/-- SECURE_BOOT_COMPLETE (R450). -/
def execSecureBootComplete (slot0 slot1 : FwSlot) (ms : Nat) (s : State) : Out := .next (s.secureBoot slot0 slot1 ms)

/-! ### The management core's watchdog (R455) -/

/-- The watchdog expires: the responder is enabled and the core is reset; a running FW_UPDATE ends ABORTED. -/
def State.mgmtExpiry (s : State) (injected : Bool) : State :=
  let s := (s.post Ev.pwMgmtWdog .fault none [] false injected).inc R.PW_MGMT_WD_EXPIRIES
  let s := s.set R.PW_RESET_CAUSE_CAUSE 0 (orBit (s.get R.PW_RESET_CAUSE_CAUSE) 7)
  let s := s.updPw fun p => { p with responder := true, mgmtUp := false }
  (s.hi.longs.filter fun l => l.opcode == 0x0C).foldl State.stopLong s

/-- PW_MGMT_WDOG (R455): MS milliseconds without a restart, counted from the core's start at the least, while it runs. -/
def execPwMgmtWdog (s : State) : Out :=
  .next (s.detect 1019 noInst (s.pw.mgmtUp && decide (s.pw.mgmtAt + 125000 * s.get R.PW_MGMT_WD_MS ≤ s.tick)) fun inj s => s.mgmtExpiry inj)

/-! ### Regulator and hold-up (R439, R443) -/

/-- The region with the lowest pace of the last window. -/
def State.minRegion (s : State) : Nat := s.get R.PW_SUNDIAL_STAT_MIN_REGION

/-- Drive a VID code; a change is counted (R437). -/
def State.driveVid (s : State) (v : Nat) : State :=
  if s.get R.PW_SUNDIAL_STAT_VID = v then s else (s.set R.PW_SUNDIAL_STAT_VID 0 v).inc R.PW_SUNDIAL_COUNT_VID_CHANGES

/-- A pace reaction (R31): a fault escalation on all arm groups that names the region; restarts of an enabled cell wait for R33, for
this event beside those that came before it. -/
def State.paceReact (s : State) (code region : Nat) : State :=
  (s.fault 0xFF .pace code (some region)).updPw fun p =>
    { p with paceStop := if s.enabled then p.paceStop ++ [(code, region)] else p.paceStop, recoverRun := 0 }

/-- The regulator or VDDC is out of its window: VID goes to its highest code (R439). -/
def State.vrFault (s : State) (injected : Bool) : State :=
  let r := s.minRegion
  ((s.post Ev.pwVr .fault (some r) [] true injected).driveVid 50).paceReact Ev.pwVr r

/-- PW_VR (R439). -/
def execPwVr (pgood vddcOut : Bool) (s : State) : Out :=
  .next ((s.setBit R.PW_SUPPLY_STAT_VR_PGOOD 0 pgood).detect 1017 noInst
    ((!pgood || vddcOut) && !s.bit R.PW_SUPPLY_STAT_PFAIL) fun inj s => s.vrFault inj)

/-- HOLDUP_OK_SET (R443): 100 ms at or above VTH_MV; VTH_MV 0 keeps HOLDUP_OK at 0. -/
def execHoldupOkSet (s : State) : Out :=
  .next (if s.get R.PW_HOLDUP_CFG_VTH_MV = 0 ∨ s.pw.lowAt.any (fun t => s.tick < t + 12500000) then s else s.setBit R.BB_STAT_HOLDUP_OK 0 true)

/-- The hold-up voltage falls below VTH_MV. -/
def State.holdupLow (s : State) : State :=
  let fell := s.bit R.BB_STAT_HOLDUP_OK
  ((s.setBit R.BB_STAT_HOLDUP_OK 0 false).updPw fun p => { p with lowAt := some s.tick }).detect 1016 noInst (fell && s.enabled) fun inj s =>
    s.post Ev.pwHoldupLow .fault none [] false inj

/-- PW_HOLDUP_LOW (R443). -/
def execPwHoldupLow (s : State) : Out := .next s.holdupLow

/-! ### Power islands (R452 to R454) -/

/-- The status field of an island and its bit there. -/
def islandOnField : Island → Field × Nat
  | .tiller n => if n.val < 32 then (R.PW_ISLAND_A, n.val) else (R.PW_ISLAND_B, n.val - 32)
  | .engine e => (R.PW_ISLAND_C_E_ON, e.val)
  | .fabric r => if r.val < 8 then (R.PW_ISLAND_C_FA_ON, r.val) else (R.PW_ISLAND_C_FA8_ON, 0)
  | .lane p => (R.PW_ISLAND_C_LANE_ON, p.val)

/-- The FORCE_OFF field of an island and its bit there. -/
def islandForceField : Island → Field × Nat
  | .tiller n => if n.val < 32 then (R.PW_FORCE_OFF_A, n.val) else (R.PW_FORCE_OFF_B, n.val - 32)
  | .engine e => (R.PW_FORCE_OFF_C_E, e.val)
  | .fabric r => if r.val < 8 then (R.PW_FORCE_OFF_C_FA, r.val) else (R.PW_FORCE_OFF_C_FA8, 0)
  | .lane p => (R.PW_FORCE_OFF_C_LANE, p.val)

/-- The locus and event item of an island (reason 0x98). -/
def islandCode : Island → Nat
  | .tiller n => n.val
  | .engine e => 64 + e.val
  | .fabric r => 80 + r.val
  | .lane p => 96 + p.val

/-- An island is on. -/
def State.islandOn (s : State) (i : Island) : Bool := hasBit (s.get (islandOnField i).1) (islandOnField i).2

/-- The FORCE_OFF bit of an island. -/
def State.forcedOff (s : State) (i : Island) : Bool := hasBit (s.get (islandForceField i).1) (islandForceField i).2

/-- Show an island on or off. -/
def State.setIsland (s : State) (i : Island) (on : Bool) : State :=
  let v := s.get (islandOnField i).1
  s.set (islandOnField i).1 0 (if on then orBit v (islandOnField i).2 else clrBit v (islandOnField i).2)

/-- A long operation runs on engine `e` and holds its island on (R453). -/
def State.engineHeld (s : State) (e : Nat) : Bool :=
  s.hi.longs.any fun l =>
    l.opcode == 0x0A && (match s.desc? (dkey l.desc) with | some d => d.bits 7 3 0 == e | none => false)

/-- Engine `e` is used (R452). -/
def State.engineUsed (s : State) (e : Nat) : Bool := s.bit R.SV_CFG_EN e || (decide (e = 8) && s.bit R.SEP_CFG_EN)

/-- A long operation holds an island on (R453). -/
def State.islandHeld (s : State) : Island → Bool
  | .engine e => s.engineHeld e
  | .fabric r => s.engineHeld r
  | _ => false

/-- The off condition of an island does not hold (R452). -/
def State.islandUsed (s : State) : Island → Bool
  | .tiller n => s.bit R.TL_CFG_EN n
  | .engine e => s.engineUsed e
  | .fabric r => (decide (r.val < 8) && s.bit R.SYS_AG_CFG_EN r.val) || s.islandOn (.engine r)
  | .lane p => s.portMode p != 0

/-- An island is to be on: used or held, and not forced off unless held. -/
def State.islandWanted (s : State) (i : Island) : Bool := s.islandHeld i || (s.islandUsed i && !s.forcedOff i)

/-- Every island. -/
def allIslands : List Island :=
  (List.finRange 64).map .tiller ++ (List.finRange 9).map .engine ++ (List.finRange 9).map .fabric ++ (List.finRange 6).map .lane

/-- The registers that say which islands are used, and the FORCE_OFF bits. -/
def islandReg (off : Nat) : Bool :=
  [R.TL_CFG_EN, R.SV_CFG_EN, R.SEP_CFG_EN, R.SYS_AG_CFG_EN, R.CB_PORT_CFG_MODE, R.TW_PORT_CFG_MODE, R.PW_FORCE_OFF_A, R.PW_FORCE_OFF_B,
    R.PW_FORCE_OFF_C_E].any fun f => (f.instAt off).isSome

/-- Note since when each island that is on is to be off: PD_TIMEOUT counts from there (R454). -/
def State.noteOff (s : State) : State :=
  allIslands.foldl (fun s i =>
    let old := Tab.get (fun _ => none) s.pw.offAt (islandCode i)
    let new := if s.islandOn i && !s.islandWanted i then some (old.getD s.tick) else none
    if new = old then s else s.updPw fun p => { p with offAt := Tab.put (fun _ => none) p.offAt (islandCode i) new }) s

/-- Island `i` has been busy for PD_TIMEOUT after it was to be off; values below 4 act as 4. -/
def State.pdTimeout (s : State) (i : Island) : Bool :=
  match Tab.get (fun _ => none) s.pw.offAt (islandCode i) with
  | some t => decide (t + 125 * max 4 (s.get R.PW_PD_TIMEOUT_US) ≤ s.tick)
  | none => false

/-- The memories of an island are cleared (R452). -/
def State.islandClear (s : State) : Island → State
  | .tiller n => { s with tl := Tab.put (fun _ => {}) s.tl n {} }
  | .engine e =>
    let s : State := { s with sv := { s.sv with eng := Tab.put (fun _ => {}) s.sv.eng e {} } }
    if e.val = 8 then
      { s with sep := { s.sep with scan := [], payload := [], stopArms := 0, rangeArms := 0, zones := 0, rrClose := false } }
    else s
  | .fabric r => s.set R.PW_PACE_PACE r 0
  | .lane _ => s

/-- An island goes off; nothing survives. -/
def State.islandOff (s : State) (i : Island) : State := (s.setIsland i false).islandClear i

/-- The accesses in flight into an island are finished (R333, R454), and it goes off. -/
def State.islandDrain (s : State) (i : Island) : State :=
  let s := match i with | .tiller n => s.mePower n | _ => s
  s.islandOff i

/-- ISLAND_POWER_OFF (R454). -/
def execIslandPowerOff (i : Island) (s : State) : Out :=
  .next (if s.islandOn i && !s.islandWanted i then s.islandDrain i else s)

/-- ISLAND_POWER_ON (R452). -/
def execIslandPowerOn (i : Island) (s : State) : Out :=
  .next (if !s.islandOn i && s.islandWanted i then (s.setIsland i true).islandClear i else s)

/-- The FORCE_OFF bits of register `reg`. -/
def State.setForce (s : State) (reg : Nat) (val : Word) : State :=
  match reg with
  | 0 => s.set R.PW_FORCE_OFF_A 0 val.toNat
  | 1 => s.set R.PW_FORCE_OFF_B 0 val.toNat
  | _ =>
    let put := fun (s : State) (f : Field) => s.set f 0 (bitsOf val f.hi f.lo)
    put (put (put (put s R.PW_FORCE_OFF_C_E) R.PW_FORCE_OFF_C_FA) R.PW_FORCE_OFF_C_FA8) R.PW_FORCE_OFF_C_LANE

/-- A write of a FORCE_OFF register (R452). -/
def State.forceOff (s : State) (reg : Nat) (val : Word) : State :=
  if s.locked then s.ignored (0x160070 + 4 * reg) else (s.setForce reg val).noteOff

/-- FORCE_OFF_WRITE (R452). -/
def execForceOffWrite (reg : Fin 3) (val : Word) (s : State) : Out := .next (s.forceOff reg val)

/-- An island busy past PD_TIMEOUT is forced off: accesses of move engines into it fail (R454). -/
def State.islandForced (s : State) (i : Island) (injected : Bool) : State :=
  let s := s.post Ev.pwIslandForced .fault none [item (islandCode i)] false injected
  let s := match i with | .tiller n => s.meForced n | _ => s
  s.islandOff i

/-- PW_ISLAND_FORCED (R454). -/
def execPwIslandForced (i : Island) (s : State) : Out :=
  .next (s.detect 1020 noInst (s.islandOn i && !s.islandWanted i && s.pdTimeout i) fun inj s => s.islandForced i inj)

/-! ### The wedge-safe oscillator (R457, R459) -/

/-- The oscillator is out of tolerance. -/
def State.oscFault (s : State) (injected : Bool) : State :=
  let s := (s.post Ev.pwNvosc .fatal none [] true injected).fatal 0xFF true Ev.pwNvosc none
  (s.latchFatal 0xFF true).resetRequest 0x40

/-- PW_NVOSC (R459): compared only while the reference is locked. -/
def execPwNvosc (s : State) : Out := .next (if s.bit R.TB_REF_STATUS_LOCKED then s.oscFault false else s)

/-- A pair falls to asserted without any logic acting; its causes stay. -/
def State.fallPair (s : State) (p : Nat) : State :=
  let c := s.get R.AD_STO_STAT_CAUSE p
  (s.drivePair 8 p).set R.AD_STO_STAT_CAUSE p c

/-- The oscillator stops: the charge pump lets every pair and WDOG_OUT fall. -/
def State.oscStop (s : State) : State :=
  ((List.range 10).foldl State.fallPair s).wdogStop.updPw fun p => { p with nvOsc := false }

/-- NV_OSC_STOP (R457). -/
def execNvOscStop (s : State) : Out := .next s.oscStop

/-! ### Temperature (R460, R461) -/

/-- A PW_TEMP record of a level. -/
def State.tempEvent (s : State) (sev : Sev) (tj : Int) (esc injected : Bool) : State :=
  s.post Ev.pwTemp sev none [BitVec.ofInt 32 tj] esc injected

/-- The warning level. -/
def State.tempWarn (s : State) (tj : Int) (inj : Bool) : State :=
  let lim : Int := 4 * s.get R.PW_TEMP_CFG_TJ_WARN
  if lim ≤ tj then
    if s.pw.warn then s else (s.tempEvent .notice tj false inj).updPw fun p => { p with warn := true }
  else if tj ≤ lim - 20 then s.updPw fun p => { p with warn := false } else s

/-- 110 °C for 10 readings. -/
def State.tempHot (s : State) (tj : Int) (inj : Bool) : State :=
  let s := s.updPw fun p => { p with hotRun := if 440 ≤ tj then p.hotRun + 1 else 0 }
  if 10 ≤ s.pw.hotRun ∧ s.pw.hot = false then
    ((s.tempEvent .fault tj true inj).fault s.groupsInUse .ss1 Ev.pwTemp none).updPw fun p => { p with hot := true }
  else if tj ≤ 420 then s.updPw fun p => { p with hot := false } else s

/-- 125 °C: fatal, and a TEMP reset that is held below 100 °C. -/
def State.tempFatal (s : State) (tj : Int) (inj : Bool) : State :=
  if 500 ≤ tj ∧ s.pw.fatalHot = false then
    let s := ((s.tempEvent .fatal tj true inj).fatal 0xFF true Ev.pwTemp none).updPw fun p => { p with fatalHot := true, tempHold := true }
    (s.latchFatal 0xFF true).resetRequest 0x20
  else if tj ≤ 480 then s.updPw fun p => { p with fatalHot := false } else s

/-- A reading of the junction temperature, in units of 0.25 °C; an injection replaces it. -/
def State.tempRead (s : State) (tj : Int) : State :=
  let (j, s) := s.inject 1018 noInst
  let tj := match j with | some p => signed 16 (param p 0) | none => tj
  let s := s.seti R.PW_TEMP_TJ 0 tj
  let s := if s.geti R.PW_TEMP_TJ_MAX 0 < tj then s.seti R.PW_TEMP_TJ_MAX 0 tj else s
  let s := s.updBb fun b => { b with tempMs := b.tempMs + 1 }
  let s := if tj < 400 then s.updPw fun p => { p with tempHold := false } else s
  ((s.tempWarn tj j.isSome).tempHot tj j.isSome).tempFatal tj j.isSome

/-- TEMP_READING (R460). -/
def execTempReading (tj : Int) (s : State) : Out := .next (s.tempRead tj)

/-! ### The Sundial (R28 to R34) -/

/-- VDDC is up and the Sundial runs. -/
def State.sundialRuns (s : State) : Bool :=
  match s.pw.phase with
  | .window | .clearing | .booting | .running => true
  | _ => false

/-- Region `r` is powered. -/
def State.regionOn (s : State) (r : Nat) : Bool :=
  if r < 8 then hasBit (s.get R.PW_ISLAND_C_FA_ON) r else if r = 8 then s.bit R.PW_ISLAND_C_FA8_ON else true

/-- Publish the pace of region `r`; whether it was injected. -/
def State.publishPace (s : State) (r pace : Nat) : Bool × State :=
  if s.regionOn r then
    let (j, s) := s.inject r r
    let v := (match j with | some p => param p 0 | none => pace) % 65536
    (j.isSome, (s.set R.PW_PACE_PACE r v).set R.PW_PACE_MIN r (min (s.get R.PW_PACE_MIN r) v))
  else (false, s.set R.PW_PACE_PACE r 0)

/-- The powered region with the least pace, the lowest index first. -/
def State.slowest (s : State) : Nat :=
  (List.range 10).foldl (fun a r => if s.regionOn r && decide (s.get R.PW_PACE_PACE r < s.get R.PW_PACE_PACE a) then r else a) 9
  |> fun a => ((List.range 10).find? fun r => s.regionOn r && s.get R.PW_PACE_PACE r == s.get R.PW_PACE_PACE a).getD a

/-- The supply loop for minimum pace `m` of region `r` (R29). -/
def State.supplyLoop (s : State) (r m : Nat) (inj : Bool) : State :=
  let st := s.get R.PW_SUNDIAL_STAT_PACE_STATE
  let vid := s.get R.PW_SUNDIAL_STAT_VID
  let target := s.get R.PW_SUNDIAL_TARGET_TARGET
  if m < 0x1000 then
    let s :=
      if st = 2 then s
      else
        let s := (s.post Ev.paceLost .fatal (some r) [item m] true inj).fatal 0xFF true Ev.paceLost (some r)
        ((s.assertAll 5).latchFatal 0xFF true).set R.PW_SUNDIAL_STAT_PACE_STATE 0 2
    s.driveVid 50
  else if m < 0x107B then
    let s :=
      if st = 0 then
        ((s.post Ev.paceLow .fault (some r) [item m] true inj).paceReact Ev.paceLow r).set R.PW_SUNDIAL_STAT_PACE_STATE 0 1
      else s
    s.driveVid 50
  else
    let s := if st = 1 then s.set R.PW_SUNDIAL_STAT_PACE_STATE 0 0 else s
    if 10 * m + 4096 < 10 * target then s.driveVid (min (vid + 4) 50)
    else if m < target then (s.driveVid (min (vid + 1) 50)).updPw fun p => { p with aboveRun := 0 }
    else if 20 * target + 4096 ≤ 20 * m then
      if s.pw.aboveRun + 1 = 8 then (s.driveVid (vid - 1)).updPw fun p => { p with aboveRun := 0 }
      else s.updPw fun p => { p with aboveRun := p.aboveRun + 1 }
    else s.updPw fun p => { p with aboveRun := 0 }

/-- The headroom notice: VID at its highest code and pace below target for 16 windows (R34). -/
def State.headroom (s : State) (m : Nat) : State :=
  let low := decide (s.get R.PW_SUNDIAL_STAT_VID = 50 ∧ m < s.get R.PW_SUNDIAL_TARGET_TARGET)
  let s := s.updPw fun p => { p with headRun := if low then p.headRun + 1 else 0 }
  let s := s.setBit R.PW_SUNDIAL_STAT_HEADROOM 0 (decide (16 ≤ s.pw.headRun))
  s.detect 20 noInst (decide (s.pw.headRun = 16)) fun inj s => s.post Ev.paceHeadroom .notice none [] false inj

/-- The first window after reset has ended: CORE and HOST are released, WDOG_OUT runs (R434, R448). -/
def State.firstWindow (s : State) : State :=
  if s.pw.phase = .window then
    let s := s.updPw fun p => { p with phase := .clearing }
    if s.sio.fatalLatched then s
    else (s.setBit R.AD_WDOG_STAT_RUNNING 0 true).updSio fun x => { x with wdogOut := true }
  else s

/-- The end of a measurement window: the pace of each powered region, and the loop on the least. -/
def State.sundialWindow (s : State) (pace : List Nat) (mv : Nat) : State :=
  if s.sundialRuns then
    let (injs, s) := (List.range 10).foldl
      (fun (a : List Nat × State) r =>
        let (i, t) := a.2.publishPace r (pace.getD r 0)
        (if i then a.1 ++ [r] else a.1, t)) ([], s)
    let r := s.slowest
    let m := s.get R.PW_PACE_PACE r
    let s := (s.set R.PW_SUNDIAL_STAT_MIN_REGION 0 r).set R.PW_VDDC_MV_MV 0 (min (mv / 5 * 5) 4095)
    let s := s.headroom m
    let s := s.updPw fun p => { p with recoverRun := if 45056 ≤ 10 * m then p.recoverRun + 1 else 0 }
    (s.supplyLoop r m (injs.contains r)).firstWindow
  else s

/-- SUNDIAL_WINDOW_END (R29). -/
def execSundialWindowEnd (pace : List Nat) (mv : Nat) (s : State) : Out := .next (s.sundialWindow pace mv)

/-! ### Arbiters (R35 to R39) -/

/-- The order of service of a round (R36). -/
def arbOrder (l : List ArbReq) : List ArbReq := orderBy arbBefore l

/-- The requester table (R38): class and index of a data-plane requester; one requester each for the control and the management
plane. -/
def arbKnown (q : ArbReq) : Bool :=
  match q.plane with
  | .data => decide (q.idx < [4, 2, 64, 16, 64, 64, 80, 9, 1, 3, 1].getD q.cls 0)
  | .control | .management => decide (q.cls = 0 ∧ q.idx = 0)
  | .wedgeSafe => false

/-- The largest round of an arbiter (R39), by the arbiter's number modulo 16: a Trellis port, a Granary port, the feedback and the
move-engine port of a Tiller's X, the move-engine port of an arbiter, the ready-entry port, the correction arbiter, the doorbell port
and the event input. A round of the correction arbiter is one tick long, in which each of its four requesters has one request. -/
def arbRoundMax (arbiter : Nat) : Nat := [16, 16, 8, 16, 16, 32, 4, 32, 32].getD (arbiter % 16) 16

/-- A round of an arbiter (R35 to R39): it takes every pending request, those that waited and those whose handshake began by this tick,
and serves at most its largest round in the order of R36; the others wait for the next round. Each slow resolution is counted and
reported (R37). -/
def State.arbRound (s : State) (arbiter region : Nat) (reqs : List ArbReq) : State :=
  let fresh := (reqs.filter arbKnown).map fun q => { q with tag := min q.tag s.tick }
  let all := arbOrder (Tab.get (fun _ => []) s.arb.waiting arbiter ++ fresh)
  let n := arbRoundMax arbiter
  let s : State := { s with arb := { served := Tab.put (fun _ => []) s.arb.served arbiter (all.take n),
                                     waiting := Tab.put (fun _ => []) s.arb.waiting arbiter (all.drop n) } }
  fresh.foldl (fun s q =>
    s.detect (10 + region) region q.slow fun inj s =>
      (s.inc R.PW_SUNDIAL_COUNT_ARB_MARGIN).post Ev.arbMargin .notice (some region) [item arbiter] false inj) s

/-- ARBITER_ROUND (R36). -/
def execArbiterRound (arbiter : Nat) (region : Fin 10) (reqs : List ArbReq) (s : State) : Out := .next (s.arbRound arbiter region reqs)

end Sys2Proof.Machine
end

