-- ==== Sys2Proof/Machine/Scrub.lean ====
section
/-! DEFINITION. Background reads of protected memories: corrected and uncorrectable errors (R178, R246, R250, R315, R331, R350,
R396, R401, and the detector tables of chapters 11, 13 and 14), and the sweeps that make them. -/
namespace Sys2Proof.Machine

/-- Field `f` of instance `n` takes the bits that it has in a word. -/
def State.setFrom (s : State) (f : Field) (n : Nat) (v : Word) : State := s.set f n (bitsOf v f.hi f.lo)

/-- Word `i` of the task table is lost: it reads as an open value from now on; its reserved bits read as 0 (R11). -/
def State.loseTask (s : State) (i : Nat) : State :=
  let v := Config.badWord s.free
  let n := i / 8
  let s := s.draw
  match i % 8 with
  | 0 =>
    let s := ((s.setFrom R.SCH_TASK_A_RELEASE n v).setFrom R.SCH_TASK_A_CLASS n v).setFrom R.SCH_TASK_A_TARGET n v
    ((s.setFrom R.SCH_TASK_A_FLOW n v).setFrom R.SCH_TASK_A_FLOW_EN n v).setFrom R.SCH_TASK_A_LIST n v
  | 1 => s.setFrom R.SCH_TASK_B_BUDGET_NS n v
  | 2 => s.setFrom R.SCH_TASK_C_DEADLINE_NS n v
  | 3 => (s.setFrom R.SCH_TASK_D_PERIOD_US n v).setFrom R.SCH_TASK_D_PHASE_US n v
  | 4 => (s.setFrom R.SCH_TASK_E_RESP_LAST n v).setFrom R.SCH_TASK_E_RESP_MAX n v
  | 5 => (s.setFrom R.SCH_TASK_F_MISSES n v).setFrom R.SCH_TASK_F_DROPS n v
  | _ => s

/-- A read of the task table (R315). -/
def State.scrubTasks (s : State) (i : Fin 32768) : State :=
  let (f, inj, s) := s.eccFound 968 noInst (.tasks i)
  match f with
  | none => s
  | some false => (s.inc R.SCH_COUNT_ECC_CORR).postOnce Ev.schEccCorr .notice none [] false inj
  | some true => (s.loseTask i).eccFatal Ev.schEccUncorr none 0xFF true inj

/-- A read of the move engines' program memory. -/
def State.scrubProg (s : State) (w : Fin 4096) : State :=
  let (f, inj, s) := s.eccFound 1001 noInst (.meProg w)
  match f with
  | none => s
  | some false => (s.inc R.ME_ECC_ECC_CORR).postOnce Ev.meEccCorr .notice none [] false inj
  | some true => ((s.setFrom R.ME_PROG w (Config.badWord s.free)).draw).eccFatal Ev.meEccUncorr none 0xFF false inj

/-- A read of the memory of the distance engine or of Belvedere: injection index and codes by unit. -/
def State.scrubSep (s : State) (idx corr uncorr : Nat) (m : ScrubMem) : State :=
  let (f, inj, s) := s.eccFound idx noInst m
  match f with
  | none => s
  | some false => s.postOnce corr .notice none [] false inj
  | some true => s.eccFatal uncorr none s.sepMask false inj

/-- The effect of SCRUB_READ. -/
def State.scrub (s : State) (m : ScrubMem) : State :=
  match m with
  | .tiller n mem a => (s.tillerRead n mem a).2
  | .scratch e _ => s.scrubScratch e m
  | .tasks i => s.scrubTasks i
  | .meProg w => s.scrubProg w
  | .granary w => (s.granaryRead w).2
  | .recorder q => s.scrubRecorder q
  | .orangery i => s.scrubOrangery i
  | .distance _ => s.scrubSep 962 Ev.sepEccCorr Ev.sepEccUncorr m
  | .belvedere _ => s.scrubSep 963 Ev.bvEccCorr Ev.bvEccUncorr m

/-- SCRUB_READ (R178). -/
def execScrubRead (mem : ScrubMem) (s : State) : Out := .next (s.scrub mem)

/-! ### The background sweeps -/

/-- The address of a word in the sweep of its memory. -/
def scrubAddr : ScrubMem → Nat
  | .tiller _ _ a | .scratch _ a | .granary a | .recorder a | .orangery a | .distance a | .belvedere a => a
  | .tasks i => i
  | .meProg w => w

/-- The word is swept once in each 4,096 solver periods, not bus cycles. -/
def scrubSolver : ScrubMem → Bool
  | .scratch _ _ => true
  | _ => false

/-- The words that the sweep of cycle `k` reads and that hold wrong bits: the word of each address that is `k` modulo 1,024, of a Tiller
only between its runs (R178, R246, R315, R396). DESIGN CHOICE (log 125): the order of a sweep. -/
def State.sweepDue (s : State) (k : Nat) (solver : Bool) : List ScrubMem :=
  let here := fun (m : ScrubMem) => 
    if scrubSolver m then solver && decide (scrubAddr m % 1024 = k / s.solverCyc % 1024) else decide (scrubAddr m % 1024 = k % 1024)
  let tl := (List.finRange 64).flatMap fun (n : Fin 64) =>
    if (s.til n.val).running then [] else (s.til n.val).flips.filterMap fun e =>
      if h : e.1 < 6 then some (ScrubMem.tiller n ⟨e.1, h⟩ e.2.1) else none
  ((tl ++ s.flips.map fun h => h.mem).filter here).eraseDups

/-- The background sweeps of cycle `k`. -/
def State.sweep (s : State) (k : Nat) (solver : Bool) : State := (s.sweepDue k solver).foldl State.scrub s

end Sys2Proof.Machine
end

