-- ==== Sys2Proof/Machine/Escalate.lean ====
section
/-! DEFINITION. The escalation wires reach the reaction logic and the wedge-safe domain (R23 to R25, R31, R185, R373, R382). -/
namespace Sys2Proof.Machine

/-- The step axes abort with cause GLOBAL (R205). -/
def State.abortSteps (s : State) : State :=
  (List.range 16).foldl (fun s k => if s.bit R.MP_CFG_EN (64 + k) then s.abortGen (64 + k) 6 else s) s

/-- A fatal escalation: latched, pairs asserted, Orangery commit (R25). -/
def State.escFatal (s : State) (e : Esc) : State :=
  let s := (s.latchFatal e.mask.toNat e.glob).commitStart e
  if e.glob then s.abortSteps else s

/-- A reaction reaches arm group `g` (R184, R185): 1 SS2, 2 SS1. -/
def State.reactGroup (s : State) (e : Esc) (kind g : Nat) : State :=
  let s := s.reachStop e kind g
  if kind = 2 then s.bvWatch g else s

/-- The detector belongs to a block whose faults make a holder give up the lease (R373). -/
def giveUpBlock (code : Nat) : Bool := [0x1, 0x4, 0x6, 0x8, 0x9].contains (code / 4096)

/-- A block of the device itself (R382). -/
def ownBlock (code : Nat) : Bool := giveUpBlock code || code / 4096 == 0xD

/-- The holder has a healthy standby. -/
def State.standbyHealthy (s : State) : Bool := s.holdsLease && decide (s.get R.TW_STATE_PEER_STATE = 4)

/-- The stop that a reaction asks for, and its arm groups: the pace reaction is SS1 on every arm group in use (R31). -/
def State.stopOf (s : State) (e : Esc) : Nat × Nat :=
  match e.react with
  | .ss2 => (1, e.mask.toNat)
  | .ss1 => (2, e.mask.toNat)
  | .pace => (2, s.groupsInUse)
  | _ => (0, e.mask.toNat)

/-- A fault escalation on a device that does not hold the lease: forwarded to the holder; a standby whose own block failed becomes
FAULTED (R382). -/
def State.escForward (s : State) (e : Esc) : State :=
  let (k, m) := s.stopOf e
  let s := if k = 0 then s else s.updTw fun t => { t with fwdReact := max t.fwdReact k, fwdMask := t.fwdMask ||| m }
  if s.twState = 4 ∧ ownBlock e.code = true then s.twFault 4 e.code e.inst else s

/-- A fault escalation that acts here: the pace reaction of a holder with a healthy standby passes the lease instead (R31). -/
def State.escAct (s : State) (e : Esc) : State :=
  if e.react = .pace ∧ s.standbyHealthy = true then s.giveUp e.code e.inst
  else
    let (k, m) := s.stopOf e
    let s :=
      if k = 0 then (maskList 8 m).foldl (fun s g => s.noteStop g e.code e.inst) s
      else (maskList 8 m).foldl (State.reactGroup · e k) s
    let s := if e.react = .sto then s.assertMask 2 m else s
    if s.standbyHealthy && giveUpBlock e.code then s.giveUp e.code e.inst else s

/-- A fault escalation (R24). -/
def State.escFault (s : State) (e : Esc) : State :=
  let s := if e.glob then s.abortSteps else s
  if s.notHolder then s.escForward e else s.escAct e

/-- Every escalation asserted since the last is applied; a reset that waited may go on. -/
def State.escalations (s : State) : State :=
  let l := s.escs
  let s : State := { s with escs := [] }
  (l.foldl (fun s e => if e.fatal then s.escFatal e else s.escFault e) s).tryReset

/-- ESCALATION (R23). -/
def execEscalation (s : State) : Out := .next s.escalations

end Sys2Proof.Machine
end

