-- ==== Sys2Proof/Machine/Cycle.lean ====
section
/-! DEFINITION. The time-base tick, bus-cycle boundaries, solver-period boundaries, windows, and the boundaries that the wedge-safe
domain makes itself (chapters 01, 02, 03, 17, 18). -/
namespace Sys2Proof.Machine

/-! ### The tick (R45, R50) -/

/-- The time island is out of reset. -/
def State.timeOn (s : State) : Bool :=
  match s.pw.phase with
  | .noPower | .held => false
  | _ => true

/-- Both copies of the counter advance; an upset flips bits of the second. -/
def State.advanceCopies (s : State) (upset : Nat) : State :=
  let frac := s.geti R.TB_ADDEND_FRAC
  s.updTb fun t =>
    let b := t.b.advance frac
    { t with a := t.a.advance frac, b := { b with ns := b.ns ^^^ upset } }

/-- The copies are compared: a mismatch is fatal (R50). -/
def State.compareCopies (s : State) (was : Bool) : State :=
  s.detect 26 noInst (was && decide (s.tb.a ≠ s.tb.b)) fun inj s =>
    (s.post Ev.tbMiscompare .fatal none [] true inj).fatal 0xFF true Ev.tbMiscompare none

/-- Detectors whose injection acts at every sample of a monitor: the reference, the supplies, the oscillator (R477); the safety inputs and the readbacks. -/
def State.monitorSamples (s : State) : State :=
  let s := if s.tick % 50 = 0 then s.detect 24 noInst false fun inj s => s.refLoss inj else s
  let s := if s.tick % 50 = 0 then s.detect 25 noInst false fun inj s => s.refReact Ev.tbUnlock inj else s
  let s :=
    if s.tick % 125 = 0 then
      match s.inject 1014 noInst with
      | (some p, s) => s.supplyOut (param p 0) true
      | (none, s) => s
    else s
  let s := s.safetySamples
  let s := if s.tick % 125 = 0 then s.detect 1015 noInst false fun inj s => s.powerFail 0x08 inj else s
  if s.tick % 125000 = 0 then s.detect 1021 noInst false fun inj s => s.oscFault inj else s

/-- While the output is off, the pulse of the second that is under way is past (R67). -/
def State.ppsSkip (s : State) : State :=
  if s.bit R.TB_PPS_CTRL_OUT_EN then s else s.updTb fun t => { t with ppsDone := some s.ppsSecond }

/-- What happens in every tick once the time island runs. -/
def State.tickWork (s : State) (upset : Nat) : State :=
  let sec := s.sec
  let was := decide (s.tb.a = s.tb.b)
  let s := (s.advanceCopies upset).compareCopies was
  let s := if s.sec = sec then s else s.postTime false
  let s := s.ppsSkip.driveEnables
  let s := (List.range 8).foldl State.ssiDrive ((List.range 16).foldl State.stepTick s)
  ((List.range 4).foldl State.eoTick s).bvStatus.monitorSamples

/-- What waits for the end of a tick: edges at capture channels (R62), the round of the correction arbiter (R55), and the bits that SSI
ports read (R135). The next tick
finds the registers as this one leaves them (R8). -/
def State.tickEnd (s : State) : State :=
  let s := ((List.range 16).foldl State.capSettle s).corrRound
  let s := (List.range 8).foldl State.ssiSample s
  { s with view := { regs := s.regs, raised := [] } }

/-- One tick of 8 ns, in which a bit of the second copy of the counter or a stored word of a memory may be hit. -/
def State.timeTick (s : State) (upset : Nat) (hit : Option Hit) : State :=
  let s := s.tickEnd.updTb fun t => { t with tick := t.tick + 1 }
  let s := match hit with | some h => s.strike h | none => s
  if s.timeOn then s.tickWork upset else s

/-- TIME_BASE_TICK (R45). -/
def execTimeBaseTick (upset : Nat) (hit : Option Hit) (s : State) : Out := .next (s.timeTick upset hit)

/-! ### Windows (R85) -/

/-- A window ends: its counts and its list of posted events start afresh, and what waited for its end is reported. -/
def State.windowEnd (s : State) : State :=
  let s := s.busWindow.injWindow.lostWindow
  { s with once := [], grid := { s.grid with winNow := s.now } }

/-- A window's end is due: the boundary of a multiple of 1,024 cycles; while no cycle is counted, 1,024 cycle lengths of the time
base. -/
def State.windowDue (s : State) : Bool :=
  match s.grid.cyc with
  | some k => decide (k % 1024 = 0 ∧ s.grid.winCyc ≠ some k)
  | none => decide (s.cell ≤ 1) && decide (s.grid.winNow + 1024 * s.cycleNs ≤ s.now ∨ s.now < s.grid.winNow)

/-- The effect of WINDOW_BOUNDARY. -/
def State.windowBoundary (s : State) : State :=
  if s.windowDue then
    let s := s.windowEnd
    { s with grid := { s.grid with winCyc := s.grid.cyc } }
  else s

/-- WINDOW_BOUNDARY (R85). -/
def execWindowBoundary (s : State) : Out := .next s.windowBoundary

/-! ### Bus-cycle boundaries (R40) -/

/-- The number of the next cycle. -/
def State.nextCycle (s : State) : Nat := match s.grid.cyc with | none => s.grid.first | some k => k + 1

/-- The boundary of the next cycle is due: the counter is at or past the epoch and that many cycle lengths (R40). -/
def State.boundaryDue (s : State) : Bool := s.grid.running && decide (s.boundaryNs s.nextCycle ≤ s.now)

/-- Every command slot due in cycle `m` was launched, or its port is not UP (R432); a device that commands nobody has none. -/
def State.launchedAll (s : State) (m : Nat) : Bool :=
  !s.commands || (s.slotsUsed.filter fun i => s.isCommandSlot i && s.slotDue i m).all fun i =>
    (s.slot i).launched == some m || !s.up (s.get R.CB_SL_A_PORT i)

/-- What ends with cycle `m`; whether it gives the heartbeat. -/
def State.cycleEnd (s : State) (m : Nat) (solver : Bool) : Bool × State :=
  let beat := s.launchedAll m
  let s := (s.twEnd m).busEnd m
  let s := (s.mePassing solver).foldl State.mePassEnd s
  (beat, s.set R.CB_CYCLE_NOW 0 (m % 2 ^ 32))

/-- The publication banks swap (R20, R478). -/
def State.publish (s : State) : State :=
  let s := s.swapKind 3
  { s with frozen := s.regs }

/-- Cycle `k` is in progress from this tick on. -/
def State.openCycle (s : State) (k : Nat) : State :=
  { s with grid := { s.grid with cyc := some k, start := s.tick, startNs := s.ns } }

/-- What the units do at the boundary that starts cycle `k`. -/
def State.cycleWork (s : State) (k : Nat) (solver beat : Bool) : State :=
  let s := s.busStart
  let s := (List.range 64).foldl (fun s n => s.tillerBoundary n k) s
  let s := (List.range 8).foldl (fun s g => (s.applyWant g).applyHeld g) s
  let s := (s.demandsAgain.limitsAgain).heartbeat beat
  let s := (s.mePassing solver).foldl (fun s c => s.mePassStart k c) s
  let s := (List.range 16).foldl (fun s c => s.meWake solver c) s
  (((List.range 4).foldl State.eoCycle s).claimTx).sweep k solver

/-- The boundary of cycle `k`. -/
def State.boundary (s : State) (k : Nat) : State :=
  let solver := s.isSolverCycle k
  let (beat, s) := match s.grid.cyc with | some m => s.cycleEnd m solver | none => (true, s)
  (s.publish.openCycle k).cycleWork k solver beat

/-- The effect of CYCLE_BOUNDARY: nothing before the boundary is due. -/
def State.cycleBoundary (s : State) : State := if s.boundaryDue then s.boundary s.nextCycle else s

/-- CYCLE_BOUNDARY (R40). -/
def execCycleBoundary (s : State) : Out := .next s.cycleBoundary

/-! ### Solver-period boundaries (R308) -/

/-- The outputs of an engine come into force, and its inputs are held (R225, R226). -/
def State.engineBoundary (s : State) (e : Nat) : State :=
  let s := if s.bit R.SV_CFG_EN e then s.updEng e fun x => { x with solvedInForce := x.solvedInForce || x.solvedStandby } else s
  if s.bit R.SV_CFG_EN e || (s.bit R.SEP_CFG_EN && hasBit s.sepMask e) then s.holdInputs e else s

/-- This tick is the boundary of a cycle that opens a solver period, and the period's boundary has not been taken. -/
def State.solverDue (s : State) : Bool :=
  match s.grid.cyc with
  | some k => s.isSolverCycle k && decide (s.grid.solver ≠ some k) && decide (s.tick = s.grid.start)
  | none => false

/-- The effect of SOLVER_PERIOD_BOUNDARY, in the tick of the bus-cycle boundary that opens a period. -/
def State.solverBoundary (s : State) : State :=
  if s.solverDue then
    let s : State := { s with grid := { s.grid with solver := s.grid.cyc } }
    let s := (s.swapKind 4).sepBoundary
    ((List.range 9).foldl State.engineBoundary s).ptSample.xferCapture
  else s

/-- SOLVER_PERIOD_BOUNDARY (R308). -/
def execSolverPeriodBoundary (s : State) : Out := .next s.solverBoundary

/-! ### Boundaries of the wedge-safe domain (R458) -/

/-- A boundary that the time island did not give within 1.1 cycles counts as one without heartbeat and without renewal. -/
def State.wedgeBoundary (s : State) : State :=
  if s.running && s.grid.cyc.isSome && decide (s.sio.lastEdge * 80 + 11 * s.cycleNs ≤ s.tick * 80) then
    let s := s.heartbeat false
    if s.bit R.TW_CFG_EN ∧ (s.twState = 3 ∨ s.twState = 4 ∨ s.twState = 5) then s.inc R.TW_LEASE_STAT_SINCE_RENEW else s
  else s

/-- WEDGE_SAFE_BOUNDARY (R458). -/
def execWedgeSafeBoundary (s : State) : Out := .next s.wedgeBoundary

end Sys2Proof.Machine
end

