-- ==== Sys2Proof/Machine/CheckBus.lean ====
section
/-! DEFINITION. The enable check, first part (R359, R361): the tests behind reasons 0x01 to 0x36, one function for each, which
answers the least locus at which its test fails. -/
namespace Sys2Proof.Machine

/-- The least of a list of loci. -/
def least (l : List Nat) : Option Nat := l.foldl (fun m x => some (match m with | some y => min y x | none => x)) none

/-- The numbers below `n` at which a test fails. -/
def failing (n : Nat) (p : Nat → Bool) : List Nat := (List.range n).filter p

/-! ### Arm groups and regions (R361) -/

/-- The arm groups in use. -/
def State.groupsUsed (s : State) : List Nat := failing 8 fun g => s.bit R.SYS_AG_CFG_EN g

/-- 0x01 SYS_ARM_GROUP. -/
def State.chkArmGroup (s : State) : Option Nat :=
  let used := s.groupsUsed
  let bad := used.filter fun g =>
    decide (12 < s.get R.SYS_AG_CFG_COUNT g) || decide (64 < s.get R.SYS_AG_CFG_FIRST_TL g + s.get R.SYS_AG_CFG_COUNT g)
      || used.any fun h => decide (h < g) && (s.groupTillers g).any fun n => (s.groupTillers h).contains n
  least (bad ++ (failing 64 fun n => s.bit R.TL_CFG_EN n && (s.groupOf n).isNone).map fun n => 8 + n)

/-- A block of `len` words lies wholly within one region of a kind. -/
def State.inOneRegion (s : State) (kind w len : Nat) : Bool :=
  match s.regionOf w with
  | some i => decide (s.get R.HI_GR_A_KIND i = kind) && decide (w + len ≤ s.get R.HI_GR_A_BASE i + s.get R.HI_GR_B_LENGTH i)
  | none => false

/-- A block of `len` words lies in the Granary. -/
def inGranary (w len : Nat) : Bool := decide (w + len ≤ granaryWords)

/-- The words of the parameter block of engine `e` (R237, R238). -/
def pbWords (e : Nat) : Nat := if e < 8 then 764 else 64

/-- The first words of the blocks that the chapters place in the Granary with a class, with the kind of the class and the length: the
parameter blocks of engines in use, the profile-limit blocks of generators in use, and the block of the separation function. -/
def State.classedBlocks (s : State) : List (Nat × Nat × Nat) :=
  ((failing 9 fun e => s.bit R.SV_CFG_EN e).map fun e => (2, s.get R.SV_PB_ADDR_ADDR e, pbWords e))
    ++ ((failing 80 fun g => s.bit R.MP_CFG_EN g).map fun g => (1, s.get R.MP_LIM_SRC_ADDR g, 4))
    ++ (if s.bit R.SEP_CFG_EN then [(2, s.get R.SEP_PB_ADDR_ADDR, 1)] else [])

/-- 0x02 SYS_REGION: for a classed block outside its class the locus is the region of its first word, 0 if none holds it. -/
def State.chkRegion (s : State) : Option Nat :=
  let base := fun i => s.get R.HI_GR_A_BASE i
  let top := fun i => base i + s.get R.HI_GR_B_LENGTH i
  let kind := fun i => s.get R.HI_GR_A_KIND i
  let bad := failing 256 fun i => decide (kind i ≠ 0) &&
    (decide (granaryWords < top i) || decide (6 ≤ kind i) ||
      (List.range i).any fun j => decide (kind j ≠ 0) && decide (max (base i) (base j) < min (top i) (top j)))
  let blocks := (s.classedBlocks.filter fun b => !s.inOneRegion b.1 b.2.1 b.2.2).map fun b => (s.regionOf b.2.1).getD 0
  least (bad ++ blocks)

/-- 0x03 SYS_LONG_BUSY. -/
def State.chkLongBusy (s : State) : Option Nat :=
  if s.hi.longs.any fun l => [0x08, 0x09, 0x0C].contains l.opcode ||
      (decide (l.opcode = 0x0A) && (match s.desc? (dkey l.desc) with | some d => s.bit R.SV_CFG_EN (d.bits 7 3 0) | none => false))
  then some 0 else none

/-! ### Time base -/

/-- 0x10 TB_NOT_STEPPED; a step accepted before the check has completed by then (R52). -/
def State.chkStepped (s : State) : Option Nat :=
  if s.bit R.TB_CORR_STATUS_STEPPED || !s.tb.steps.isEmpty then none else some 0

/-- 0x11 TB_REF_UNLOCKED. -/
def State.chkLocked (s : State) : Option Nat :=
  if s.bit R.TB_REF_STATUS_LOCKED && !s.bit R.TB_REF_STATUS_HOLDOVER then none else some 0

/-! ### Ports and partners (R72 to R90) -/

/-- The CB ports with partners. -/
def State.busPorts (s : State) : List Nat := failing 4 fun p => !(s.portPartners p).isEmpty

/-- 0x20 CB_PORT_MODE. -/
def State.chkPortMode (s : State) : Option Nat := s.partnersUsed.find? fun q => decide (s.portMode (s.get R.CB_PT_CFG_PORT q) = 0)

/-- 0x21 CB_LINK_NOT_UP. -/
def State.chkLinkUp (s : State) : Option Nat := s.busPorts.find? fun p => !s.up p

/-- 0x22 CB_ADDRESS. -/
def State.chkAddress (s : State) : Option Nat :=
  let e := s.get R.CB_ETHERTYPE_ETYPE
  if e < 0x600 ∨ [0x88E5, 0x8100, 0x88A8, 0x8808].contains e ∨ hasBit (s.get R.CB_GROUP_MAC_HI_OCTETS_0_1) 8 = false then some 0 else none

/-- 0x23 CB_PARTNER_COUNT (R74). -/
def State.chkPartnerCount (s : State) : Option Nat :=
  s.busPorts.find? fun p => decide ((if s.portMode p = 3 then 32 else 512) < (s.portPartners p).length)

/-- 0x24 CB_PARTNER_DUP_MAC. -/
def State.chkPartnerMac (s : State) : Option Nat :=
  s.partnersUsed.find? fun q => s.partnersUsed.any fun r => decide (r < q) && decide (s.partnerMac r = s.partnerMac q)

/-- 0x25 CB_PARTNER_POSITION. -/
def State.chkPosition (s : State) : Option Nat :=
  s.partnersUsed.find? fun q =>
    let l := s.portPartners (s.get R.CB_PT_CFG_PORT q)
    let pos := s.get R.CB_PT_CFG_POSITION q
    decide (l.length < pos) || l.any fun r => decide (r < q) && decide (s.get R.CB_PT_CFG_POSITION r = pos)

/-- 0x26 CB_MACSEC_NO_SA: no transmit SA in use, or no receive SA. -/
def State.chkSa (s : State) : Option Nat :=
  s.busPorts.find? fun p => s.macsec p && ((s.port p).txAn.isNone || !((s.port p).rx.any fun e => e.2.valid))

/-- 0x27 CB_MACSEC_OFF (R90). -/
def State.chkMacsec (s : State) : Option Nat :=
  if s.maint then none else (failing 6 fun p => decide (s.portMode p ≠ 0) && !s.macsec p).head?

/-- 0x28 CB_TOPOLOGY_TWIN. -/
def State.chkTopology (s : State) : Option Nat :=
  if s.bit R.TW_CFG_EN then none else (failing 4 fun p => s.bit R.CB_PORT_CFG_TOPOLOGY p).head?

/-! ### The slot table (R127) -/

/-- The last tick of a cycle that slots and the acyclic window may use. -/
def State.cycleRoom (s : State) : Nat := s.get R.CB_CYCLE_NS / 8 - 64

/-- 0x29 CB_CYCLE. -/
def State.chkCycle (s : State) : Option Nat :=
  let c := s.get R.CB_CYCLE_NS
  if c < 31250 ∨ 1000000 < c ∨ 1000000000 % c ≠ 0 ∨ s.get R.CB_ACYC_END_TICKS < s.get R.CB_ACYC_START_TICKS
      ∨ s.cycleRoom < s.get R.CB_ACYC_END_TICKS then some 0 else none

/-- A field of slot `i` is invalid (R104, R106, R127): its divisor or phase, its PARTNER, or the length of a group layout. -/
def State.slotBad (s : State) (i : Nat) : Bool :=
  let q := s.get R.CB_SL_B_PARTNER i
  let el := s.get R.CB_LAYOUT_ELEM_LEN (s.get R.CB_SL_B_LAYOUT i)
  decide (6 ≤ s.get R.CB_SL_B_DIV i) || decide (2 ^ s.get R.CB_SL_B_DIV i ≤ s.get R.CB_SL_B_PHASE i)
    || (if q = 0x7FF then decide (s.get R.CB_SL_A_DIR i ≠ 1)
        else !s.partnersUsed.contains q || decide (s.get R.CB_PT_CFG_PORT q ≠ s.get R.CB_SL_A_PORT i))
    || (decide (q = 0x7FF ∨ el ≠ 0) && decide (s.slotLen i % el ≠ 0))

/-- 0x2A CB_SLOT_FIELD. -/
def State.chkSlotField (s : State) : Option Nat :=
  least (s.slotsUsed.filter s.slotBad ++ (s.partnersUsed.filter fun q => decide (64 < (s.grantSlots q).length)).map fun q => 8192 + q)

/-- Two slots are both due in some cycle (R105). -/
def State.dueTogether (s : State) (i j : Nat) : Bool :=
  let m := 2 ^ min (s.get R.CB_SL_B_DIV i) (s.get R.CB_SL_B_DIV j)
  decide (s.get R.CB_SL_B_PHASE i % m = s.get R.CB_SL_B_PHASE j % m)

/-- The intervals [a, a + m) and [b, b + n) meet. -/
def spansMeet (a m b n : Nat) : Bool := decide (a < b + n) && decide (b < a + m)

/-- The wire ticks of the frame of slot `i` on its port (R479): an ECHO frame has a payload of 12 bytes (R381). -/
def State.slotTicks (s : State) (i : Nat) : Nat :=
  let p := s.get R.CB_SL_A_PORT i
  s.wireTicks p (s.wireBytes p (if s.get R.CB_SL_A_DIR i = 3 then 12 else s.slotLen i))

/-- The wire interval of slot `i` meets that of a lower slot of its port and direction, the acyclic window or the REFERENCE
frame, or lies too near the ends of the cycle. The device sends in an echo slot as in a to-partner slot. -/
def State.slotMeets (s : State) (i : Nat) : Bool :=
  let o := s.get R.CB_SL_A_OFFSET i
  let w := s.get R.CB_SL_A_WINDOW i
  let p := s.get R.CB_SL_A_PORT i
  let inward := fun j => decide (s.get R.CB_SL_A_DIR j = 2)
  let a := s.get R.CB_ACYC_START_TICKS
  (s.slotsUsed.any fun j => decide (j < i) && decide (s.get R.CB_SL_A_PORT j = p) && (inward j == inward i)
      && spansMeet o w (s.get R.CB_SL_A_OFFSET j) (s.get R.CB_SL_A_WINDOW j) && s.dueTogether i j)
    || (decide (a < s.get R.CB_ACYC_END_TICKS) && spansMeet o w a (s.get R.CB_ACYC_END_TICKS - a))
    || (s.bit R.CB_REF_CFG_EN p && spansMeet o w (s.get R.CB_REF_CFG_OFFSET p) (s.wireTicks p (s.wireBytes p 16)))
    || (inward i && (decide (o < 25) || decide (s.cycleRoom < o + w + 25)))

/-- 0x2B CB_SLOT_OVERLAP. -/
def State.chkSlotOverlap (s : State) : Option Nat := s.slotsUsed.find? s.slotMeets

/-- The image that the directory holds under an index. -/
def State.image (s : State) (k : Nat) : Option Image := Tab.get (fun _ => none) s.hi.images k

/-- What the image of Tiller `n` holds for it. -/
def State.tlImage (s : State) (n : Nat) : Option TlImage :=
  (s.image (s.get R.TL_CFG_IMAGE n)).bind fun i => i.tillers.find? fun t => decide (t.tiller = n)

/-- The word of a program that ends a run. -/
def isEnd (w : Word) : Bool := match tillerDecode 0 w with | some (.tlEnd _) => true | _ => false

/-- A program up to and with its first END. -/
def progToEnd (l : List Word) : List Word := l.takeWhile (fun w => !isEnd w) ++ (l.find? isEnd).toList

/-- The budget B that the loader computes (R171). -/
def loaderB (t : TlImage) : Nat :=
  24 + ((progToEnd t.prog).map fun w => match tillerDecode 0 w with | some i => tillerTime i | none => 0).sum

/-- B of arm group `g`: of the slowest program of its Tillers (R41). -/
def State.groupB (s : State) (g : Nat) : Nat :=
  ((s.joints g).map fun n => match s.tlImage n with | some t => loaderB t | none => 0).foldl max 0

/-- The from-partner slots that feed a channel of Tiller `n`. -/
def State.feedSlots (s : State) (n : Nat) : List Nat :=
  (failing 64 fun c => decide (s.get R.FB_CFG_KIND c = 1) && s.bit R.FB_CFG_TL_EN c && decide (s.get R.FB_CFG_TILLER c = n)).map
    fun c => s.get R.FB_CFG_SRC c

/-- The least offset of a command that depends on the feedback of Tiller `n` (R42). -/
def State.leastOffset (s : State) (n : Nat) : Nat :=
  match (s.feedSlots n).map fun i => s.get R.CB_SL_A_OFFSET i with
  | [] => 0
  | o :: l => l.foldl max o + 25 + (1500 + ((s.groupOf n).map s.groupB).getD 0 + 7) / 8

/-- 0x2C CB_SLOT_PLACEMENT. -/
def State.chkPlacement (s : State) : Option Nat :=
  s.slotsUsed.find? fun i => s.isCommandSlot i && (s.slotCommands i).any fun c => decide (s.get R.CB_SL_A_OFFSET i < s.leastOffset c.1)

/-- 0x2D CB_SLOT_SLOW_PORT (R43). -/
def State.chkSlowPort (s : State) : Option Nat :=
  s.slotsUsed.find? fun i => decide (s.portMode (s.get R.CB_SL_A_PORT i) = 3) && !(s.slotJoints i).isEmpty

/-- 0x2E CB_SLOT_WINDOW. -/
def State.chkWindow (s : State) : Option Nat := s.slotsUsed.find? fun i => decide (s.get R.CB_SL_A_WINDOW i < s.slotTicks i)

/-- 0x2F CB_SYNC_CFG. -/
def State.chkSync (s : State) : Option Nat :=
  let req := fun q => s.get R.CB_PS_SYNC_SYNC_REQ q
  least ((s.partnersUsed.filter fun q => decide (req q = 3) || (decide (req q = 1) && !s.bit R.CB_REF_CFG_EN (s.get R.CB_PT_CFG_PORT q)))
    ++ (failing 4 fun p => s.bit R.CB_REF_CFG_BACKUP_EN p && !(s.portPartners p).contains (s.get R.CB_REF_CFG_BACKUP p)).map fun p => 1024 + p)

/-! ### Feedback (R157) -/

/-- The channels in use. -/
def State.chansUsed (s : State) : List Nat := failing 64 fun n => decide (s.get R.FB_CFG_KIND n ≠ 0)

/-- Channel `n` writes its record to a Tiller. -/
def State.writesTiller (s : State) (n t : Nat) : Bool :=
  decide (s.get R.FB_CFG_KIND n ≠ 0) && s.bit R.FB_CFG_TL_EN n && decide (s.get R.FB_CFG_TILLER n = t)

/-- 0x30 FB_SOURCE. -/
def State.chkSource (s : State) : Option Nat :=
  let src := fun n => s.get R.FB_CFG_SRC n
  let bad := s.chansUsed.filter fun n =>
    match s.get R.FB_CFG_KIND n with
    | 1 => decide (s.get R.CB_SL_A_DIR (src n) ≠ 2)
    | 2 => decide (8 ≤ src n) || decide (s.get R.DP_CFG_MODE (src n) = 0)
        || (List.range n).any fun m => decide (s.get R.FB_CFG_KIND m = 2) && decide (src m = src n)
    | _ => true
  let lone := failing 64 fun t => (s.groupOf t).isSome && !(List.range 64).any fun n => s.writesTiller n t
  least (bad ++ lone.map fun t => 64 + t)

/-- Channel `n` reads serial words. -/
def State.serialChan (s : State) (n : Nat) : Bool :=
  decide (s.get R.FB_CFG_KIND n = 1) || (decide (s.get R.FB_CFG_KIND n = 2) && decide (s.get R.DP_CFG_MODE (s.get R.FB_CFG_SRC n) = 2))

/-- 0x31 FB_SERIAL_FORMAT. -/
def State.chkSerial (s : State) : Option Nat :=
  s.chansUsed.find? fun n =>
    let raw := s.get R.FB_SERIAL_RAW_BITS n
    let st := s.get R.FB_SERIAL_ST_BITS n
    s.serialChan n &&
      (decide (raw < 8) || decide (64 < raw) || decide (st < 1) || decide (32 < st) || decide (raw < st) || decide (s.cpr n ≠ 2 ^ st)
        || (decide (s.get R.FB_CFG_KIND n = 1) && decide (s.slotLen (s.get R.FB_CFG_SRC n) < s.get R.FB_SERIAL_BYTE_OFF n + (raw + 7) / 8)))

/-- 0x32 FB_BANDWIDTH. -/
def State.chkBandwidth (s : State) : Option Nat :=
  s.chansUsed.find? fun n =>
    let bw := s.get R.FB_OBS_BW_HZ n
    decide (bw < 50) || decide (8000 < bw) || decide (1000000000 < 4 * bw * s.samplePeriod n) || decide (s.get R.FB_OBS_STILL n < 10)

/-- 0x33 FB_TILLER_BINDING. -/
def State.chkBinding (s : State) : Option Nat :=
  let x := fun n => s.get R.FB_CFG_XADDR n
  s.chansUsed.find? fun n => s.bit R.FB_CFG_TL_EN n &&
    (decide (504 < x n) || (List.range n).any fun m => s.writesTiller m (s.get R.FB_CFG_TILLER n) && spansMeet (x n) 8 (x m) 8)

/-- 0x34 FB_INDEX. -/
def State.chkIndex (s : State) : Option Nat :=
  s.chansUsed.find? fun n =>
    let incremental := decide (s.get R.FB_CFG_KIND n = 2) && decide (s.get R.DP_CFG_MODE (s.get R.FB_CFG_SRC n) = 1)
    (s.bit R.FB_IDX_CFG_IDX_EN n && !incremental) || decide (s.cpr n ≤ s.get R.FB_IDX_EXP n)
      || decide (s.cpr n / 2 ≤ s.get R.FB_IDX_CFG_INDEX_TOL n) || decide (s.get R.FB_IDX_CFG_IDX_REACT n = 3)

/-- 0x35 FB_SSI: the frame is that of the channel on the port (R135); only an SSI port has one. -/
def State.chkSsi (s : State) : Option Nat :=
  let chan := fun m => s.chansUsed.find? fun n => decide (s.get R.FB_CFG_KIND n = 2) && decide (s.get R.FB_CFG_SRC n = m)
  (failing 8 fun m =>
    let per := s.get R.DP_SSI_CLK_PER m
    let par := s.get R.DP_SSI_PARITY m
    let bits := ((chan m).map fun n => s.get R.FB_SERIAL_RAW_BITS n).getD 0 + (if par = 0 then 0 else 1) + 1
    decide (per < 25) || decide (250 < per) || decide (par = 3)
      || (decide (s.get R.DP_CFG_MODE m = 2)
        && decide (s.get R.CB_CYCLE_NS < s.get R.DP_CFG_SAMPLE_OFF m * 8 + bits * per * 4 + 1000 * s.get R.DP_SSI_RECOVERY m))).head?

/-- 0x36 FB_EMULATION: of every output, for EN can be set at any time. -/
def State.chkEmulation (s : State) : Option Nat :=
  (failing 4 fun k =>
    let i := s.get R.EO_CFG_SRC k
    if s.bit R.EO_CFG_SRC_KIND k then decide (80 ≤ i) || !s.bit R.MP_CFG_EN i
    else decide (64 ≤ i) || decide (s.get R.FB_CFG_KIND i = 0)).head?

end Sys2Proof.Machine
end

