-- ==== Sys2Proof/Machine/CheckLoop.lean ====
section
/-! DEFINITION. The enable check, second part (R361): the tests behind reasons 0x38 to 0x58, of Tillers, joint control, generators
and solver engines. -/
namespace Sys2Proof.Machine

/-! ### Tiller images and preloads (chapter 06) -/

/-- The Tillers in use. -/
def State.tillersUsed (s : State) : List Nat := failing 64 fun n => s.bit R.TL_CFG_EN n

/-- The accesses of a MOVE by mode. -/
def moveUnits (mode : Nat) (m : MoveOp) : List MeUnit := if mode = 0 then copyUnits m else planeUnits (decide (mode = 1)) m

/-- The programs of the channels in use. -/
def State.mePrograms (s : State) : List (Nat × List (Nat × MeInsn)) :=
  (failing 16 fun c => s.bit R.ME_CFG_EN c).map fun c => (c, s.meProgram c)

/-- The MOVEs of the channels in use, as units. -/
def State.meMoves (s : State) : List MeUnit :=
  s.mePrograms.flatMap fun p => p.2.flatMap fun e =>
    match e.2 with
    | .move mode m => moveUnits mode m
    | _ => []

/-- The X words of Tiller `n` that bytes from an address touch. -/
def State.xTouched (s : State) (n a len : Nat) : List Nat :=
  match s.meLoc a with
  | .tlx t w b => if t = n then (List.range ((b + len + 3) / 4)).map fun k => w + k else []
  | _ => []

/-- The X words of Tiller `n` that the move engines scatter into. -/
def State.scatterWords (s : State) (n : Nat) : List Nat :=
  s.meMoves.flatMap fun u => u.writes.flatMap fun a => s.xTouched n a u.wlen

/-- The feedback records of Tiller `n`, by their first X word. -/
def State.recordWords (s : State) (n : Nat) : List Nat :=
  (failing 64 fun c => s.writesTiller c n).map fun c => s.get R.FB_CFG_XADDR c

/-- X word `w` lies in a feedback record of Tiller `n`. -/
def State.inRecord (s : State) (n w : Nat) : Bool := (s.recordWords n).any fun x => decide (x ≤ w) && decide (w < x + 8)

/-- A slot binds Tiller `n`: a MOVE carries bytes between a slot and the Tiller's X. -/
def State.slotBinds (s : State) (n : Nat) : Bool :=
  let slot := fun a => match s.meLoc a with | .slot _ _ => true | _ => false
  let till := fun a => match s.meLoc a with | .tlx t _ _ => t == n | _ => false
  s.meMoves.any fun u => (u.reads.any slot && u.writes.any till) || (u.reads.any till && u.writes.any slot)

/-- 0x38 TL_NO_IMAGE. -/
def State.chkTlImage (s : State) : Option Nat :=
  (failing 64 fun n =>
    if s.bit R.TL_CFG_EN n then s.image (s.get R.TL_CFG_IMAGE n) == none
    else (s.groupOf n).isSome && (!(s.recordWords n).isEmpty || s.slotBinds n)).head?

/-- The Tillers in use whose image fails a test. -/
def State.tlFailing (s : State) (p : Nat → TlImage → Bool) : Option Nat :=
  s.tillersUsed.find? fun n => match s.tlImage n with | some t => p n t | none => false

/-- 0x39 TL_ILLEGAL_INSN (R169). -/
def State.chkInsn (s : State) : Option Nat :=
  least (s.tillersUsed.flatMap fun n =>
    match s.tlImage n with
    | some t => (t.prog.zipIdx.filter fun w => (tillerDecode 0 w.1).isNone).map fun w => 1024 * n + w.2
    | none => [])

/-- 0x3A TL_NO_END. -/
def State.chkEnd (s : State) : Option Nat := s.tlFailing fun _ t => !((t.prog.take 1024).any isEnd)

/-- 0x3B TL_BUDGET. -/
def State.chkTlBudget (s : State) : Option Nat := s.tlFailing fun _ t => decide (t.budget ≠ loaderB t)

/-- 0x3C TL_IMAGE_CHECK: the check value, the format version, or an image that holds nothing for the Tiller. -/
def State.chkTlCheck (s : State) : Option Nat :=
  s.tillersUsed.find? fun n =>
    match s.image (s.get R.TL_CFG_IMAGE n) with
    | some i => !i.checkOk || decide (i.fmt ≠ s.get R.SYS_VERSION_IMAGE_FMT) || (s.tlImage n).isNone
    | none => false

/-- The words of the segments of Tiller `n`. -/
def State.segSum (s : State) (n : Nat) : Nat := ((List.range 8).map fun j => s.get (R.TL_PL_SEG_LEN.at j) n).sum

/-- The offset of the latest command slot of the arm group of Tiller `n`. -/
def State.cmdOffset (s : State) (n : Nat) : Option Nat :=
  ((s.slotsUsed.filter fun i => s.isCommandSlot i && (s.slotCommands i).any fun c => s.groupOf c.1 == s.groupOf n).map
    fun i => s.get R.CB_SL_A_OFFSET i).foldl (fun m o => some (max o (m.getD 0))) none

/-- A preload of `extra` ns that follows the command slot of Tiller `n` ends later than 500 ns before the boundary. -/
def State.preloadBeyond (s : State) (n extra : Nat) : Bool :=
  match s.cmdOffset n with
  | some o => decide (s.get R.CB_CYCLE_NS < o * 8 + 48 + extra + 500)
  | none => false

/-- 0x3D TL_PRELOAD. -/
def State.chkPreload (s : State) : Option Nat :=
  s.tillersUsed.find? fun n =>
    decide (127 < s.segSum n) || s.preloadBeyond n (16 * s.segSum n) ||
      (List.range 8).any fun j =>
        let len := s.get (R.TL_PL_SEG_LEN.at j) n
        decide (len ≠ 0) && (!inGranary (s.get (R.TL_PL_SEG_SRC.at j) n) len
          || (s.bit (R.TL_PL_SEG_REGIONED.at j) n && decide (s.get R.TL_PL_CFG_STRIDE n < len)))

/-- 0x3E TL_X_OVERLAP. -/
def State.chkOverlap (s : State) : Option Nat :=
  s.tlFailing fun n t =>
    let sc := s.scatterWords n
    (t.writeMap.any fun w => s.inRecord n w || sc.contains w) || sc.any fun w => s.inRecord n w

/-! ### Joint control (chapter 07) -/

/-- The words NE of the error block, at least. -/
def State.errWords (s : State) (n : Nat) : Nat := s.get R.TL_LAW_CFG_NE n

/-- The X words that the image of Tiller `n` writes for the law (R181). -/
def State.lawWords (s : State) (n : Nat) : List Nat :=
  let out := s.get R.TL_XADDR_A_OUT_ADDR n
  let err := s.get R.TL_XADDR_B_ERR_ADDR n
  [out, out + 1] ++ (List.range (s.errWords n)).map (fun j => err + j)
    ++ (if s.bit R.TL_LAW_CFG_INT_D n then [s.get R.TL_XADDR_B_XI_D_ADDR n] else [])
    ++ (if s.bit R.TL_LAW_CFG_INT_Q n then [s.get R.TL_XADDR_B_XI_Q_ADDR n] else [])

/-- 0x40 TL_LAW_ADDR. -/
def State.chkLawAddr (s : State) : Option Nat :=
  s.tlFailing fun n t =>
    let sc := s.scatterWords n
    let cmd := s.get R.TL_XADDR_A_CMD_ADDR n
    ((s.lawWords n).any fun w => decide (511 < w) || !t.writeMap.contains w)
      || ([cmd, s.get R.TL_XADDR_A_GSTAT_ADDR n].any fun w => t.writeMap.contains w || s.inRecord n w || sc.contains w)
      || !(s.slotsUsed.any fun i => decide (s.get R.CB_SL_A_DIR i = 1) && (s.slotCommands i).any fun c => c.1 == n)

/-- The boundaries of variable `k` of Tiller `n`. -/
def State.schedNb (s : State) (n k : Nat) : Nat := s.get (if k = 0 then R.TL_SCHED_CFG_NB0 else R.TL_SCHED_CFG_NB1) n

/-- The segments of Tiller `n` with REGIONED set and words. -/
def State.regionedSegs (s : State) (n : Nat) : List Nat :=
  (List.range 8).filter fun j => s.bit (R.TL_PL_SEG_REGIONED.at j) n && decide (s.get (R.TL_PL_SEG_LEN.at j) n ≠ 0)

/-- 0x41 TL_SCHED_GRID. -/
def State.chkGrid (s : State) : Option Nat :=
  s.tillersUsed.find? fun n => s.bit R.TL_SCHED_CFG_EN n &&
    (([0, 1].any fun k => (List.range (s.schedNb n k - 1)).any fun i =>
        decide (s.schedB n k (i + 1) ≤ s.schedB n k i)
          || decide (s.schedB n k (i + 1) - s.schedHw n k (i + 1) ≤ s.schedB n k i + s.schedHw n k i))
      || (s.regionedSegs n).isEmpty
      || (decide (0 < s.schedNb n 1) && decide (s.get R.TL_SCHED_CFG_SV1_ADDR n = s.get R.TL_SCHED_CFG_SV0_ADDR n)))

/-- The regions of the grid of Tiller `n`: only region 0 without scheduling. -/
def State.gridRegions (s : State) (n : Nat) : List Nat :=
  if s.bit R.TL_SCHED_CFG_EN n then
    (List.range (s.schedNb n 1 + 1)).flatMap fun j1 => (List.range (s.schedNb n 0 + 1)).map fun j0 => j0 + 4 * j1
  else [0]

/-- 0x42 TL_SCHED_INCOMPLETE. -/
def State.chkIncomplete (s : State) : Option Nat :=
  least (s.tillersUsed.flatMap fun n =>
    match s.tlImage n with
    | none => []
    | some t =>
      ((s.gridRegions n).filter fun r => !hasBit t.regions r || (s.regionedSegs n).any fun j =>
        !inGranary (s.get (R.TL_PL_SEG_SRC.at j) n + r * s.get R.TL_PL_CFG_STRIDE n) (s.get (R.TL_PL_SEG_LEN.at j) n)).map
          fun r => 16 * n + r)

/-- The row of window words from `k` lies in a REGIONED segment and below Y[127]. -/
def State.rowFits (s : State) (n k : Nat) : Bool :=
  let last := k + s.errWords n + 1
  decide (last ≤ 126) && (s.regionedSegs n).any fun j =>
    let start := ((List.range j).map fun i => s.get (R.TL_PL_SEG_LEN.at i) n).sum
    decide (start ≤ k) && decide (last < start + s.get (R.TL_PL_SEG_LEN.at j) n)

/-- 0x43 TL_XFER: every integrated component has a row (R181). -/
def State.chkXfer (s : State) : Option Nat :=
  s.tillersUsed.find? fun n =>
    let d := s.bit R.TL_LAW_CFG_INT_D n
    let q := s.bit R.TL_LAW_CFG_INT_Q n
    decide (s.errWords n < 1) || decide (8 < s.errWords n) || (s.bit R.TL_LAW_CFG_XFER_D n && !d)
      || (s.bit R.TL_LAW_CFG_XFER_Q n && !q)
      || (d && !s.rowFits n (s.get R.TL_LAW_CFG_KD_WIN n)) || (q && !s.rowFits n (s.get R.TL_LAW_CFG_KQ_WIN n))

/-- 0x44 TL_LIMITS. -/
def State.chkTlLimits (s : State) : Option Nat :=
  s.tillersUsed.find? fun n =>
    let sat := s.get R.TL_SAT_CFG_SAT_LIMIT n
    decide (s.get R.TL_CMD_LIM_VD_LIM n = 0 ∨ s.get R.TL_CMD_LIM_VQ_LIM n = 0 ∨ sat < 1 ∨ 500 < sat
      ∨ 16 < s.get R.TL_SAT_CFG_LEAK n ∨ s.get R.TL_STOP_CFG_SS1_TIMEOUT n = 0)

/-- 0x45 TL_REACTION (R187). -/
def State.chkReaction (s : State) : Option Nat :=
  s.tillersUsed.find? fun n =>
    ([R.TL_SAT_CFG_SAT_REACT, R.TL_REACT_CFG_OVF_REACT, R.TL_REACT_CFG_STSAT_REACT, R.TL_REACT_CFG_PLATE_REACT].any
        fun f => decide (s.get f n = 3))
      || [R.TL_REACT_CFG_LOSS_REACT, R.TL_REACT_CFG_REF_REACT].any fun f => decide (s.get f n = 0 ∨ s.get f n = 3)

/-- The time of the transfers of Tiller `n` (R193). -/
def State.xferNs (s : State) (n : Nat) : Nat :=
  ([R.TL_LAW_CFG_XFER_D, R.TL_LAW_CFG_XFER_Q].map fun f => if s.bit f n then 64 + 12 * (s.errWords n + 1) else 0).sum

/-- 0x46 TL_REF. -/
def State.chkRef (s : State) : Option Nat :=
  s.tillersUsed.find? fun n =>
    let en := s.bit R.TL_REF_CFG_REF_EN n
    let w := s.get R.TL_REF_CFG_REF_WIN n
    (en && (!inGranary (s.get R.TL_REF_CFG_REF_SRC n) 8 || decide (w < s.segSum n) || decide (126 < w + 5)))
      || s.preloadBeyond n (16 * (s.segSum n + (if en then 6 else 0)) + s.xferNs n)

/-! ### Motion profiles (chapter 08) -/

/-- The generators in use. -/
def State.gensUsed (s : State) : List Nat := failing 80 fun g => s.bit R.MP_CFG_EN g

/-- 0x48 MP_LIMITS. -/
def State.chkMpLimits (s : State) : Option Nat :=
  s.gensUsed.find? fun g =>
    let v := s.get R.MP_VMAX g
    decide (v = 0 ∨ s.get R.MP_AMAX g = 0 ∨ s.get R.MP_DMAX g = 0 ∨ s.get R.MP_JMAX g = 0
        ∨ s.get R.MP_DEC_ABORT g < s.get R.MP_DMAX g ∨ (64 ≤ g ∧ 4000000 < v * 2 ^ s.get R.MP_CFG_UNIT_SHL g))
      || !inGranary (s.get R.MP_LIM_SRC_ADDR g) 4

/-- Two members of a coordination group may move together: joints of one arm group, or step axes (R208). -/
def State.mayJoin (s : State) (g h : Nat) : Bool :=
  if g < 64 ∧ h < 64 then s.groupOf g == s.groupOf h && (s.groupOf g).isSome else decide (64 ≤ g ∧ 64 ≤ h)

/-- 0x49 MP_GROUP: of a group that breaks R208 the locus is its lowest member that cannot join a lower one. -/
def State.chkMpGroup (s : State) : Option Nat :=
  s.gensUsed.find? fun g =>
    let cg := s.get R.MP_CFG_CG g
    (decide (64 ≤ g) && s.bit R.MP_CFG_SCALE_EN g) || (decide (g < 64) && !s.bit R.TL_CFG_EN g)
      || (decide (cg ≠ 31) && s.gensUsed.any fun h => decide (h < g) && decide (s.get R.MP_CFG_CG h = cg) && !s.mayJoin h g)

/-- 0x4A MP_INPUT. -/
def State.chkMpInput (s : State) : Option Nat :=
  s.gensUsed.find? fun g =>
    let p := s.get R.MP_IN_CFG_LIM_POS g
    let n := s.get R.MP_IN_CFG_LIM_NEG g
    ([p, n, s.get R.MP_IN_CFG_HOME g].any fun i => decide (48 ≤ i ∧ i < 63)) || decide (p = n ∧ p ≠ 63)

/-- 0x4B MP_HOMING. -/
def State.chkHoming (s : State) : Option Nat :=
  s.gensUsed.find? fun g =>
    let m := s.get R.MP_HOME_CFG_MODE g
    let sw := if m = 1 ∨ m = 2 then s.get R.MP_IN_CFG_HOME g
      else if s.bit R.MP_HOME_CFG_DIR g then s.get R.MP_IN_CFG_LIM_NEG g else s.get R.MP_IN_CFG_LIM_POS g
    decide (m ≠ 0) &&
      (decide (1 ≤ m ∧ m ≤ 4 ∧ sw = 63) || decide (m = 6 ∧ (64 ≤ g ∨ s.get R.TL_SAT_CFG_SAT_LIMIT g ≤ s.get R.MP_HS_CFG_HS_TIME g))
        || (decide (m = 2 ∨ m = 4 ∨ m = 5) && !s.bit R.FB_IDX_CFG_IDX_EN (s.get R.MP_HOME_CFG_IDX_CH g))
        || decide (s.get R.MP_VMAX g < s.get R.MP_HOME_VFAST g ∨ s.get R.MP_VMAX g < s.get R.MP_HOME_VSLOW g
            ∨ s.get R.MP_DEC_ABORT g < s.get R.MP_HOME_DEC g))

/-- 0x4C ST_TIMING. -/
def State.chkStepTiming (s : State) : Option Nat :=
  (failing 16 fun k => s.bit R.MP_CFG_EN (64 + k) && decide (s.get R.ST_CFG_PULSE_W k = 0 ∨ s.get R.ST_CFG_DIR_SETUP k = 0)).head?

/-- 0x4D MP_SOURCE. -/
def State.chkMpSource (s : State) : Option Nat :=
  s.gensUsed.find? fun g => decide (g < 64) && (s.recordWords g).isEmpty

/-! ### Solver engines (chapters 09, 10) -/

/-- The engines in use. -/
def State.engsUsed (s : State) : List Nat := failing 9 fun e => s.bit R.SV_CFG_EN e

/-- What the image of engine `e` holds for it. -/
def State.svImage (s : State) (e : Nat) : Option SvImage := (s.image (s.get R.SV_CFG_IMAGE e)).bind fun i => i.solver

/-- 0x50 SV_NO_IMAGE. -/
def State.chkSvImage (s : State) : Option Nat :=
  (failing 9 fun e =>
    if s.bit R.SV_CFG_EN e then s.image (s.get R.SV_CFG_IMAGE e) == none
    else if e < 8 then (s.groupTillers e).any fun n => s.bit R.TL_CFG_EN n && s.bit R.TL_REF_CFG_REF_EN n
    else s.gensUsed.any fun g => decide (g < 64) && s.bit R.MP_CFG_SCALE_EN g).head?

/-- The engines in use whose image fails a test. -/
def State.svFailing (s : State) (p : Nat → SvImage → Bool) : Option Nat :=
  s.engsUsed.find? fun e => match s.svImage e with | some i => p e i | none => false

/-- S of an image (R248). -/
def imgScratch (i : SvImage) : Nat := i.n * (i.nj * (i.m - 6 * i.nj) + 6 * i.nj + 4 * i.m + 4 * i.nj * i.nj + 16 * i.nj) + 4096

/-- T_iter of an image for engine `e` in ns (R247). -/
def imgTIter (i : SvImage) (e : Nat) : Nat :=
  if e < 8 then 1500 + i.n * (2 * i.nj * i.nj + (i.nj * i.m + 7) / 8) else 1000 + 40 * (i.v + i.rc)

/-- B_solve of an image for engine `e` with `it` iterations, in ns (R247). -/
def imgBSolve (i : SvImage) (e it : Nat) : Nat :=
  if e < 8 then 1000 + 20 * i.n * i.nj + (2000 + i.n * (20 * i.nj + 2 * i.m)) + it * imgTIter i e + (500 + 60 * i.nj)
  else 2000 + it * imgTIter i e

/-- 0x51 SV_DIMENSIONS. -/
def State.chkDims (s : State) : Option Nat :=
  s.svFailing fun e i =>
    if e < 8 then
      decide (i.nj < 1 ∨ 12 < i.nj ∨ i.n < 8 ∨ 32 < i.n ∨ 512 < i.m ∨ i.m ≠ s.rowsOf e ∨ i.nj ≠ s.pbBits e 0 11 8
        ∨ 131072 < imgScratch i)
    else decide (36 < i.v)

/-- The joints of the parameter block of engine `e`. -/
def State.pbJoints (s : State) (e : Nat) : Nat := s.pbBits e 0 11 8

/-- The joint block of joint `i` of engine `e` is invalid. -/
def State.jointBlockBad (s : State) (e i : Nat) : Bool :=
  let w := fun k => s.pbInt e (16 + 16 * i + k)
  let t := s.svTiller e i
  decide (w 5 ≤ w 4) || decide (w 9 ≤ w 8) || decide (w 6 = 0) || decide (w 7 = 0) || !(s.groupTillers e).contains t
    || (List.range i).any fun j => decide (s.svTiller e j = t)

/-- The words of CE's pair entries that name one arm twice or an arm outside ARM_MASK. -/
def State.badPairs (s : State) : List Nat :=
  (List.range (s.pbBits 8 0 20 16)).filter fun p =>
    let v := s.pbBits 8 (26 + p) 5 0
    decide (v % 8 = v / 8) || !hasBit (s.svMask 8) (v % 8) || !hasBit (s.svMask 8) (v / 8)

/-- The loci of an invalid parameter block of engine `e`. -/
def State.pbLoci (s : State) (e : Nat) : List Nat :=
  let base := 4096 + 1024 * e
  let pb := s.get R.SV_PB_ADDR_ADDR e
  (if !inGranary pb (pbWords e) || !s.inOneRegion 2 pb (pbWords e) || decide (s.pbBits e 0 7 0 ≠ (if e < 8 then 1 else 2)) then [base]
    else [])
    ++ (if e < 8 then
          ((List.range (s.pbJoints e)).filter (s.jointBlockBad e)).map (fun i => 16 * e + i)
            ++ ((List.range (s.pbBits e 0 16 12)).filter fun c => decide (s.pbJoints e ≤ s.pbBits e (496 + 8 * c) 3 0)).map
              fun c => base + 496 + 8 * c
        else s.badPairs.map fun p => base + 26 + p)

/-- 0x52 SV_PARAM_BLOCK. -/
def State.chkParamBlock (s : State) : Option Nat := least (s.engsUsed.flatMap s.pbLoci)

/-- 0x53 SV_CERT_CONFIG. -/
def State.chkCert (s : State) : Option Nat :=
  least (s.engsUsed.flatMap fun e =>
    match s.svImage e with
    | none => []
    | some i =>
      ((i.cert.params.filter fun r => (rangeCheck r 0 (pqOf i.paramQ e r.var (s.pb e r.var)) 1).isSome).map fun r => r.var)
        ++ (if decide (i.cert.iterBound < s.get R.SV_CFG_ITER_MAX e)
              || (List.range 4).any fun k => decide (i.cert.floors.getD k 0 ≠ s.pbInt e (4 + k)) then [0xFFFF] else []))

/-- The deadline less the release of the task of engine `e`: its DEADLINE_NS, counted from its release. -/
def State.svDeadline (s : State) (e : Nat) : Option Nat :=
  (s.tasks.find? fun i => decide (s.target i = 0x40 + e)).map fun i => s.get R.SCH_TASK_C_DEADLINE_NS i

/-- 0x54 SV_BUDGET. -/
def State.chkSvBudget (s : State) : Option Nat :=
  s.svFailing fun e i =>
    let b := imgBSolve i e (s.get R.SV_CFG_ITER_MAX e)
    decide (i.budget ≠ b) || match s.svDeadline e with
      | some d => decide (d < b ∨ s.periodNs < d + 2000)
      | none => false

/-- The output region of engine `e`: its first word and its length. -/
def State.outSpan (s : State) (e : Nat) : Nat × Nat := (s.get R.SV_OUT_ADDR_ADDR e, if e < 8 then 8 * s.pbJoints e else 64)

/-- 0x55 SV_OUTPUT. -/
def State.chkSvOutput (s : State) : Option Nat :=
  least (s.engsUsed.flatMap fun e =>
    let a := s.outSpan e
    (if !inGranary a.1 a.2 || s.engsUsed.any fun f => decide (f < e) && spansMeet a.1 a.2 (s.outSpan f).1 (s.outSpan f).2 then [16 * e]
      else [])
      ++ (if e < 8 then
            ((List.range (s.pbJoints e)).filter fun i =>
              let t := s.svTiller e i
              decide (s.get R.TL_REF_CFG_REF_SRC t ≠ a.1 + 8 * i)).map fun i => 16 * e + i
          else []))

/-- The certificate's check value holds, and its header matches the image (R243). -/
def certFits (v : SvImage) (e ident : Nat) : Bool :=
  let c := v.cert
  c.checkOk && decide (c.ident = ident)
    && if e < 8 then decide (c.nj = v.nj ∧ c.n = v.n ∧ c.m = v.m) else decide (c.v = v.v ∧ c.rc = v.rc)

/-- 0x56 SV_IMAGE_CHECK. -/
def State.chkSvCheck (s : State) : Option Nat :=
  s.engsUsed.find? fun e =>
    match s.image (s.get R.SV_CFG_IMAGE e) with
    | some i => !i.checkOk || decide (i.fmt ≠ s.get R.SYS_VERSION_IMAGE_FMT) || match i.solver with
        | some v => !certFits v e i.ident
        | none => true
    | none => false

/-- 0x57 SV_RUNTIME_CFG: CE has one stage and no shifted plan, so FB_PERSIST is held to N only of the arm engines. -/
def State.chkRuntime (s : State) : Option Nat :=
  s.svFailing fun e i =>
    let from_ := s.get R.SV_RT_CFG_A_INF_FROM e
    let fb := s.get R.SV_RT_CFG_A_FB_PERSIST e
    let st := s.get R.SV_RT_CFG_A_STOP_REACT e
    decide (s.geti R.SV_RT_CFG_B e < s.pbInt e 1) || decide (s.get R.SV_EPS_INF e = 0) || decide (from_ = 0)
      || decide (s.get R.SV_CFG_ITER_MAX e < from_) || decide (s.get R.SV_RT_CFG_A_INF_PERSIST e = 0) || decide (fb = 0)
      || decide (e < 8 ∧ i.n ≤ fb) || decide (st = 0 ∨ st = 3)

/-- 0x58 SV_COLD_BUDGET (R263). -/
def State.chkCold (s : State) : Option Nat :=
  s.svFailing fun e i =>
    let c := s.get R.SV_RT_CFG_A_COLD_ITER e
    decide (c ≠ 0) && (decide (c < s.get R.SV_CFG_ITER_MAX e) || decide (i.cert.iterBound < c)
      || match s.svDeadline e with | some d => decide (d < imgBSolve i e c) | none => false)

end Sys2Proof.Machine
end

