-- ==== Sys2Proof/Machine/CheckCell.lean ====
section
/-! DEFINITION. The enable check, third part (R361): the tests behind reasons 0x60 to 0x99, and the check as a whole (R359). -/
namespace Sys2Proof.Machine

/-! ### Separation (chapter 11) -/

/-- A test of the separation function, made only while it is enabled. -/
def State.sepTest (s : State) (l : List Nat) : Option Nat := if s.bit R.SEP_CFG_EN then least l else none

/-- The words at which a list of words stops rising: `strict` for points, not for table values. -/
def State.notRising (s : State) (first n : Nat) : List Nat :=
  ((List.range (n - 1)).filter fun i => decide ((s.sepW (first + i + 1)).toInt ≤ (s.sepW (first + i)).toInt)).map fun i => first + i + 1

/-- The words of arm `a`'s stop table that lie below the word one point before on an axis. -/
def State.tableDrops (s : State) (a nspd npay : Nat) : List Nat :=
  let at_ := fun i j k => armAt a + 18 + 2 * (4 * i + j) + k
  let v := fun i j k => (s.sepW (at_ i j k)).toInt
  (List.range nspd).flatMap fun i => (List.range npay).flatMap fun j =>
    ([0, 1].filter fun k => (decide (0 < i) && decide (v i j k < v (i - 1) j k)) || (decide (0 < j) && decide (v i j k < v i (j - 1) k))).map
      fun k => at_ i j k

/-- The words of arm `a`'s entry that break its order. -/
def State.armWords (s : State) (a : Nat) : List Nat :=
  let nspd := s.sepBits (armAt a) 16 14 + 1
  let npay := s.sepBits (armAt a) 18 17 + 1
  s.notRising (armAt a + 6) nspd ++ s.notRising (armAt a + 14) npay ++ s.tableDrops a nspd npay

/-- NOC_MAX. -/
def State.nocMax (s : State) : Nat := s.get R.SEP_CFG_NOC_MAX

/-- 0x60 SEP_PARAM_BLOCK: word 0 for what concerns the block as a whole, the 512 obstacle capsules of R3 among it. -/
def State.chkSepBlock (s : State) : Option Nat :=
  let pb := s.get R.SEP_PB_ADDR_ADDR
  let whole := !inGranary pb 4104 || !s.inOneRegion 2 pb 4104 || decide (s.sepBits 0 7 0 ≠ 3) || decide (32 < s.sepBits 0 13 8)
    || decide (64 < s.sepBits 0 20 14) || decide ((s.scanners.map s.capMax).sum ≠ s.nocMax) || decide (512 < s.nocMax)
  s.sepTest ((if whole then [0] else []) ++ (if s.sepW 1 = 0 then [1] else []) ++ s.sepArms.flatMap s.armWords)

/-- 0x61 SEP_SCANNER. -/
def State.chkScanner (s : State) : Option Nat :=
  s.sepTest (s.scanners.filter fun i =>
    let slot := s.sepBits (scanAt i) 12 0
    let cap := s.capMax i
    decide (s.get R.CB_SL_A_DIR slot ≠ 2) || decide (s.slotLen slot ≠ 8 + 16 * cap) || decide (cap < 1) || decide (24 < cap)
      || decide (s.sepBits (scanAt i) 19 18 = 0) || decide (s.sepW (scanAt i + 4) = 0)
      || (maskList 8 (s.sepBits (scanAt i) 27 20)).any fun a => !hasBit s.sepMask a)

/-- The normal of plane `i` of zone `z` differs from unit length by more than 2^-20. -/
def State.normalBad (s : State) (z i : Nat) : Bool :=
  let n := ((List.range 3).map fun k => (s.sepW (zoneAt z + 4 + 4 * i + k)).toInt ^ 2).sum
  decide (n < (2 ^ 30 - 2 ^ 10) ^ 2) || decide ((2 ^ 30 + 2 ^ 10) ^ 2 < n)

/-- 0x62 SEP_ZONE. -/
def State.chkZone (s : State) : Option Nat :=
  s.sepTest ((List.range (s.sepBits 0 20 14)).filter fun z =>
    let npl := s.sepBits (zoneAt z) 3 0
    decide (npl < 1) || decide (8 < npl) || (List.range npl).any (s.normalBad z) || decide (s.sepBits (zoneAt z) 5 4 = 3)
      || decide (s.sepBits (zoneAt z) 15 8 = 0))

/-- Robot capsules of arm `a`. -/
def State.capsOf (s : State) (a : Nat) : Nat := s.pbBits a 0 16 12

/-- NRC: the robot capsules of the arms in SEP ARM_MASK. -/
def State.nrc (s : State) : Nat := (s.sepArms.map s.capsOf).sum

/-- The pairs of CE's list that name arm `a`. -/
def State.listedPairs (s : State) (a : Nat) : Nat :=
  ((List.range (s.pbBits 8 0 20 16)).filter fun p =>
    let v := s.pbBits 8 (26 + p) 5 0
    decide (v % 8 = a) || decide (v / 8 = a)).length

/-- The words of the SEP output region (R285). -/
def State.sepOutWords (s : State) : Nat := 256 + (s.sepArms.map fun a => s.sepRowCount a * (s.pbJoints a + 3)).sum

/-- 0x63 SEP_ARM: of an ARM_MASK that is not CE's the lowest arm in which they differ, of too many capsules the arm that passes the
limit. -/
def State.chkSepArm (s : State) : Option Nat :=
  let arms := s.sepArms.filter fun a =>
    decide (s.sepBits (armAt a) 1 0 = 0)
      || decide (s.sepRowCount a < s.sepBits (armAt a) 9 2 + s.sepBits (armAt a) 13 10 * s.listedPairs a)
      || !inGranary (s.sepBits (armAt a + 5) 20 0) 1
      || (decide (128 < ((s.sepArms.filter fun b => decide (b ≤ a)).map s.capsOf).sum))
  let differ := if s.bit R.SV_CFG_EN 8 then failing 8 fun a => hasBit s.sepMask a != hasBit (s.svMask 8) a else []
  s.sepTest (differ ++ arms ++ (if s.inOneRegion 4 s.sepOut s.sepOutWords then [] else [8]))

/-- Clocks of the wedge-safe oscillator at its lowest frequency, 31.04 MHz, last longer than a time in ns (R273). -/
def clocksExceed (clocks : Nat) (ns : Int) : Bool := decide (3104 * ns < (clocks : Int) * 100000)

/-- 0x64 SEP_BELVEDERE. -/
def State.chkBelvedere (s : State) : Option Nat :=
  let sweep := 2 ^ s.get R.SEP_CFG_SWEEP_SHL
  let clocks := 40 * s.nrc + 6 * ((s.nrc * s.nocMax + sweep - 1) / sweep)
  s.sepTest (if s.get R.SEP_CFG_NOM = 0 ∨ s.get R.SEP_BV_CFG_DIST_TOL = 0 ∨ clocksExceed clocks ((s.periodNs : Int) - 50000)
      ∨ clocksExceed (8 * s.sepArms.length * s.get R.SEP_CFG_NOM) 20000 then [0] else [])

/-- P_rr: the pairs of capsules of different arms. -/
def State.capPairs (s : State) : Nat :=
  (s.sepArms.map fun a => s.capsOf a * ((s.sepArms.filter fun b => decide (b < a)).map s.capsOf).sum).sum

/-- T_pose + T_pairs + T_prot in ns (R272). -/
def State.geomNs (s : State) : Nat :=
  let planes := ((List.range (s.sepBits 0 20 14)).map fun z => s.sepBits (zoneAt z) 3 0 * (s.nocMax + s.nrc)).sum
  (1000 + 150 * s.nrc) + (1000 + 3 * (s.nrc * s.nocMax + s.capPairs)) + (1000 + 12 * s.sepArms.length * s.nocMax + planes)

/-- T_rows in ns (R272). -/
def State.rowsNs (s : State) : Nat := 3000 + 30 * (s.sepArms.map s.sepRowCount).sum

/-- B_solve of CE as its image gives it, 0 without CE. -/
def State.ceBudget (s : State) : Nat :=
  if s.bit R.SV_CFG_EN 8 then ((s.svImage 8).map fun i => imgBSolve i 8 (s.get R.SV_CFG_ITER_MAX 8)).getD 0 else 0

/-- 0x65 SEP_TIMING: the flow's total is that of all the phases of R272 with CE's solve. -/
def State.chkSepTiming (s : State) : Option Nat :=
  let late := match s.svDeadline 8 with | some d => decide (d < s.geomNs + s.rowsNs + s.ceBudget) | none => false
  s.sepTest (if late || decide (s.periodNs < s.geomNs + 30000) then [0] else [])

/-- 0x66 SEP_STO. -/
def State.chkSepSto (s : State) : Option Nat := s.sepTest (s.sepArms.filter fun a => (s.pairOf a).isNone)

/-- 0x67 SEP_DISABLED. -/
def State.chkSepOff (s : State) : Option Nat :=
  if s.bit R.SEP_CFG_EN || s.groupsUsed.isEmpty || s.maint then none else some 0

/-! ### Task scheduler (chapter 12) -/

/-- The overhead O of a job (R309, R310). -/
def State.overhead (s : State) (i : Nat) : Nat := if s.reserved i then 96 else 400

/-- BUDGET_NS with O. -/
def State.charged (s : State) (i : Nat) : Nat := s.get R.SCH_TASK_B_BUDGET_NS i + s.overhead i

/-- RELEASE of task `i`. -/
def State.relOf (s : State) (i : Nat) : Nat := s.get R.SCH_TASK_A_RELEASE i

/-- The head of the chain of task `i`, following PRED at most `n` times; none when that does not end. -/
def State.headOf (s : State) : Nat → Nat → Option Nat
  | 0, _ => none
  | n + 1, i => if s.relOf i = 5 then s.headOf n (s.get R.SCH_TASK_D_PRED i) else some i

/-- The chain head of task `i`. -/
def State.chainHead (s : State) (i : Nat) : Option Nat := s.headOf 4097 i

/-- The flow of task `i`, if it has one. -/
def State.flowOf (s : State) (i : Nat) : Option Nat := if s.bit R.SCH_TASK_A_FLOW_EN i then some (s.get R.SCH_TASK_A_FLOW i) else none

/-- Task `i` is invalid in itself. -/
def State.taskBad (s : State) (i : Nat) : Bool :=
  let r := s.relOf i
  let u := s.target i
  let b := s.get R.SCH_TASK_B_BUDGET_NS i
  let pred := s.get R.SCH_TASK_D_PRED i
  decide (5 < r) || decide (s.get R.SCH_TASK_A_CLASS i = 3) || decide (0x4D ≤ u ∧ u ≤ 0x4F) || decide (0x9F < u) || decide (b = 0)
    || decide ((u = 0x4A ∨ u = 0x4C) ∧ b < 2000) || decide (u = 0x4B ∧ b < 500)
    || decide (s.get R.SCH_TASK_C_DEADLINE_NS i < s.charged i)
    || (decide (r = 2) && decide (s.get R.SCH_TASK_D_MULT i = 0 ∨ 64 < s.get R.SCH_TASK_D_MULT i
        ∨ s.get R.SCH_TASK_D_MULT i ≤ s.get R.SCH_TASK_D_PHASE i ∨ s.cycleNs ≤ 8 * s.get R.SCH_TASK_D_OFFSET i))
    || decide (r = 3 ∧ s.get R.SCH_TASK_D_PERIOD_US i = 0) || decide (r = 4 ∧ s.get R.SCH_TASK_D_MIN_GAP_US i = 0)
    || decide (r = 4 ∧ s.get R.SCH_TASK_D_DSRC i = 3)
    || (decide (r = 5) && (decide (s.relOf pred = 0) || decide (s.flowOf pred ≠ s.flowOf i) || (s.chainHead i).isNone))

/-- 0x70 SCH_TASK_FIELD. -/
def State.chkTaskField (s : State) : Option Nat := least (s.tasks.filter s.taskBad)

/-- Unit `u` is a service unit (R297). -/
def serviceUnit (u : Nat) : Bool := decide (0x4A ≤ u ∧ u ≤ 0x4C)

/-- Unit `u` is enabled. -/
def State.unitOn (s : State) (u : Nat) : Bool :=
  if u < 0x40 then s.bit R.TL_CFG_EN u
  else if u < 0x49 then s.bit R.SV_CFG_EN (u - 0x40)
  else if u = 0x49 then s.bit R.SEP_CFG_EN
  else serviceUnit u || (decide (0x50 ≤ u) && s.bit R.MP_CFG_EN (u - 0x50))

/-- The tasks of unit `u`. -/
def State.unitTasks (s : State) (u : Nat) : List Nat := s.tasks.filter fun i => s.target i == u

/-- The head of the separation chain: of the chain of the distance engine's first task. -/
def State.sepHead (s : State) : Option Nat := (least (s.unitTasks 0x49)).bind s.chainHead

/-- 0x71 SCH_TARGET. -/
def State.chkTarget (s : State) : Option Nat :=
  let sep := s.bit R.SEP_CFG_EN
  let inChain := fun i => (s.chainHead i).isSome && s.chainHead i == s.sepHead
  let bad := s.tasks.filter fun i =>
    let u := s.target i
    (if serviceUnit u then s.reserved i else !s.reserved i) || !s.unitOn u
      || (decide (u < 0x40) && (decide (s.relOf i ≠ 1) || !s.writesTiller (s.get R.SCH_TASK_D_FB i) u))
      || (decide (0x50 ≤ u) && (decide (s.relOf i ≠ 2) || decide (s.get R.SCH_TASK_D_MULT i ≠ 1)))
      || (sep && decide (u = 0x48 ∨ u = 0x49) && !inChain i)
  let single := (List.range 160).filter fun u =>
    (decide (u < 0x48) || decide (0x50 ≤ u)) && s.unitOn u && decide ((s.unitTasks u).length ≠ 1)
  let outside := [0x48, 0x49].filter fun u => sep && s.unitOn u && (s.unitTasks u).isEmpty
  least (bad ++ (single ++ outside).map fun u => 4096 + u)

/-- The period of task `i` in ns (R310): of the bound channel's source, of the chain's head, or its own. -/
def State.taskPeriod (s : State) (i : Nat) : Nat :=
  let own := fun (j : Nat) =>
    match s.relOf j with
    | 1 =>
      let c := s.get R.SCH_TASK_D_FB j
      s.cycleNs * (if s.get R.FB_CFG_KIND c = 1 then 2 ^ s.get R.CB_SL_B_DIV (s.get R.FB_CFG_SRC c) else 1)
    | 2 => s.get R.SCH_TASK_D_MULT j * s.cycleNs
    | 3 => s.get R.SCH_TASK_D_PERIOD_US j * 1000
    | _ => s.get R.SCH_TASK_D_MIN_GAP_US j * 1000
  max 1 (own ((s.chainHead i).getD i))

/-- The reserved utilisation of unit `u` (R309). -/
def State.utilisation (s : State) (u : Nat) : Rat :=
  ((s.unitTasks u).map fun i => ((s.get R.SCH_TASK_B_BUDGET_NS i + 96 : Nat) : Rat) / (s.taskPeriod i : Nat)).sum

/-- The units with tasks, in ascending order. -/
def State.taskUnits (s : State) : List Nat := (List.range 160).filter fun u => !(s.unitTasks u).isEmpty

/-- 0x72 SCH_UTILISATION. -/
def State.chkUtil (s : State) : Option Nat :=
  s.taskUnits.find? fun u => !serviceUnit u && decide ((7 / 10 : Rat) < s.utilisation u)

/-- A job of the demand-bound test: charged budget, deadline and period. -/
structure DbfJob where
  c : Nat
  d : Nat
  t : Nat
  deriving DecidableEq, Repr

/-- The members of the chain that task `i` heads. -/
def State.chainOf (s : State) (i : Nat) : List Nat := i :: s.chainAfter 4096 i

/-- The jobs that a set of tasks puts to the test: a chain enters as one job. -/
def State.dbfJobs (s : State) (l : List Nat) : List DbfJob :=
  ((l.filterMap s.chainHead).eraseDups).map fun h =>
    let m := s.chainOf h
    { c := (m.map s.charged).sum, d := s.get R.SCH_TASK_C_DEADLINE_NS (m.getLastD h), t := s.taskPeriod h }

/-- The chain members of a set of tasks whose deadline lies before the sum of the charged budgets up to them, as the deadline and what
is wanting. -/
def State.shortMembers (s : State) (l : List Nat) : List (Nat × Int) :=
  ((l.filterMap s.chainHead).eraseDups).flatMap fun h =>
    let m := s.chainOf h
    (List.range m.length).filterMap fun k =>
      let sum := ((m.take (k + 1)).map s.charged).sum
      let d := s.get R.SCH_TASK_C_DEADLINE_NS (m.getD k h)
      if d < sum then some (d, (d : Int) - sum) else none

/-- The least common multiple of the periods of jobs. -/
def dbfLcm (l : List DbfJob) : Nat := l.foldl (fun m j => Nat.lcm m j.t) 1

/-- The test points of jobs: D + kT below L, each once. -/
def dbfPoints (l : List DbfJob) : List Nat :=
  let top := dbfLcm l
  (l.flatMap fun j => if j.d < top then (List.range ((top - j.d + j.t - 1) / j.t)).map fun k => j.d + k * j.t else []).eraseDups

/-- The jobs give a test too large (R310). -/
def dbfTooLarge (l : List DbfJob) : Bool := decide (1000000000 < dbfLcm l) || decide (65536 < (dbfPoints l).length)

/-- The slack t − dbf(t) − blk(t) at a test point (R310). -/
def dbfSlack (l : List DbfJob) (t : Nat) : Int :=
  let dbf := (l.map fun j => if j.d ≤ t then ((t - j.d) / j.t + 1) * j.c else 0).sum
  let blk := ((l.filter fun j => decide (t < j.d)).map fun j => j.c).foldl max 0
  (t : Int) - dbf - blk

/-- What the test of one unit or flow gives: its points with their slacks, and the members whose own deadline is too short. -/
def State.dbfSlacks (s : State) (l : List Nat) : List (Nat × Int) :=
  let jobs := s.dbfJobs l
  (if dbfTooLarge jobs then [] else (dbfPoints jobs).map fun t => (t, dbfSlack jobs t)) ++ s.shortMembers l

/-- The flows with tasks, in ascending order. -/
def State.taskFlows (s : State) : List Nat := (List.range 1024).filter fun f => s.tasks.any fun i => s.flowOf i == some f

/-- The units and flows with their tasks, by locus. -/
def State.dbfGroups (s : State) : List (Nat × List Nat) :=
  (s.taskUnits.map fun u => (u, s.unitTasks u)) ++ s.taskFlows.map fun f => (4096 + f, s.tasks.filter fun i => s.flowOf i == some f)

/-- The first unit or flow that fails, with its first failing point. -/
def State.dbfFail (s : State) : Option (Nat × Nat × Int) :=
  s.dbfGroups.findSome? fun g =>
    let bad := (s.dbfSlacks g.2).filter fun p => decide (p.2 < 0)
    (bad.foldl (fun m p => match m with | some q => if p.1 < q.1 then some p else some q | none => some p) none).map
      fun (p : Nat × Int) => (g.1, p.1, p.2)

/-- 0x73 SCH_DEMAND. -/
def State.chkDemand (s : State) : Option Nat := s.dbfFail.map fun f => f.1

/-- The least slack of all, with its unit or flow: the lowest on a tie. -/
def State.worstSlack (s : State) : Option (Nat × Int) :=
  (s.dbfGroups.flatMap fun g => (s.dbfSlacks g.2).map fun p => (g.1, p.2)).foldl
    (fun m p => match m with | some q => if p.2 < q.2 then some p else some q | none => some p) none

/-- What the demand-bound test shows (DBF_STAT, DBF_FAIL). -/
def State.showDbf (s : State) : State :=
  let put := fun (s : State) (locus : Nat) (slack : Int) (t : Nat) =>
    ((s.set R.SCH_DBF_STAT_WORST_LOCUS 0 locus).seti R.SCH_DBF_STAT_WORST_SLACK 0 (clampInt 16 (slack / 1000))).set R.SCH_DBF_FAIL 0 t
  match s.dbfFail with
  | some (locus, t, slack) => put s locus slack t
  | none => match s.worstSlack with
    | some (locus, slack) => put s locus slack 0
    | none => put s 0xFFFF 32767999 0

/-- Show the utilisation of every unit (R309). -/
def State.showUtil (s : State) : State :=
  (List.range 160).foldl (fun t u => t.set R.SCH_UNIT_STAT_RES_UTIL u (min 0xFFFF (s.utilisation u * 32768).floor.toNat)) s

/-- 0x74 SCH_DELAY_LIST. -/
def State.chkDelayList (s : State) : Option Nat :=
  (failing 4 fun l => decide (1024 < (s.tasks.filter fun i =>
    decide (s.relOf i = 3 ∨ s.relOf i = 4) && decide (s.get R.SCH_TASK_A_LIST i = l)).length)).head?

/-- 0x75 SCH_TEST_SIZE. -/
def State.chkTestSize (s : State) : Option Nat := (s.dbfGroups.find? fun g => dbfTooLarge (s.dbfJobs g.2)).map fun g => g.1

/-- 0x76 SCH_SOLVER_PERIOD (R308). -/
def State.chkSolverPeriod (s : State) : Option Nat :=
  let c := s.get R.SCH_CFG_SOLVER_CYC
  if c < 2 ∨ 64 < c then some 0
  else
    least (s.tasks.filter fun i =>
      (decide (0x40 ≤ s.target i ∧ s.target i < 0x48) || (s.bit R.SEP_CFG_EN && s.sepHead == some i))
        && !decide (s.relOf i = 2 ∧ s.get R.SCH_TASK_D_MULT i = c ∧ s.get R.SCH_TASK_D_PHASE i = 0 ∧ s.get R.SCH_TASK_D_OFFSET i = 0))

/-! ### Move engines (chapter 13) -/

/-- The words from program word `w` on that an instruction may have. -/
def State.meWords (s : State) (w : Nat) : List Word := (List.range (min 5 (4096 - w))).map fun k => s.meWord (w + k)

/-- The instruction at word `w` is invalid. -/
def State.meInsnBad (s : State) (w : Nat) (i : MeInsn) : Bool :=
  (meDecode 0 (s.meWords w)).isNone || match i with
    | .loop target _ => decide (w < target)
    | .wait 0 num index _ => decide (8192 < index + num)
    | .wait 1 num index _ => decide (64 < index + num)
    | .wait 2 _ _ off => decide (s.cycleNs ≤ 8 * off)
    | .bad => true
    | _ => false

/-- The words that the program of a channel walks over, to the end of the memory or the first invalid instruction. -/
def State.mePath (s : State) (cyc : Bool) : Nat → Nat → List (Nat × MeInsn)
  | 0, _ => []
  | n + 1, w =>
    if 4096 ≤ w then []
    else
      let i := s.meInsn w
      (w, i.1) :: match i.1 with
        | .bad => []
        | .wait 3 _ _ _ => if cyc then [] else State.mePath s cyc n (w + i.2)
        | .signal 3 _ => []
        | _ => State.mePath s cyc n (w + i.2)

/-- The channels in use. -/
def State.mesUsed (s : State) : List Nat := failing 16 fun c => s.bit R.ME_CFG_EN c

/-- The instructions of channel `c`. -/
def State.mePathOf (s : State) (c : Nat) : List (Nat × MeInsn) := s.mePath (s.bit R.ME_CFG_CYCLIC c) 4096 (s.get R.ME_CFG_PROG_START c)

/-- 0x78 ME_INSN. -/
def State.chkMeInsn (s : State) : Option Nat :=
  least (s.mesUsed.flatMap fun c => ((s.mePathOf c).filter fun e => s.meInsnBad e.1 e.2).map fun e => e.1)

/-- An access of channel `c` is refused: outside its region, misaligned, a write to a read-only target, or a Tiller not in use. -/
def State.accessBad (s : State) (c a n : Nat) (write : Bool) : Bool :=
  match s.meCause c a n write with
  | 0 => false
  | 4 => match s.meLoc a with | .tlx t _ _ => !s.bit R.TL_CFG_EN t | _ => false
  | _ => true

/-- The units of a MOVE meet a refusal of their accesses, or read a byte that they write. -/
def State.moveBad (s : State) (c mode : Nat) (m : MoveOp) : Bool :=
  let l := moveUnits mode m
  (l.any fun u => (u.reads.any fun a => s.accessBad c a u.rlen false) || u.writes.any fun a => s.accessBad c a u.wlen true)
    || l.any fun u => u.reads.any fun a => l.any fun v => v.writes.any fun b => spansMeet a u.rlen b v.wlen

/-- 0x79 ME_ADDRESS. -/
def State.chkMeAddress (s : State) : Option Nat :=
  least (s.mesUsed.flatMap fun c => (s.mePathOf c).filterMap fun e =>
    match e.2 with
    | .move mode m => if s.moveBad c mode m then some e.1 else none
    | _ => none)

/-- The place in a program of its last MOVE that writes slot `i`. -/
def State.lastWrite (s : State) (l : List (Nat × MeInsn)) (i : Nat) : Option Nat :=
  ((List.range l.length).filter fun k => match (l.getD k (0, .bad)).2 with
    | .move mode m => (moveUnits mode m).any fun u => u.writes.any fun a => match s.meLoc a with | .slot j _ => j == i | _ => false
    | _ => false).getLast?

/-- The place in a program of its last HANDOVER of slot `i`. -/
def lastHandover (l : List (Nat × MeInsn)) (i : Nat) : Option Nat :=
  ((List.range l.length).filter fun k => match (l.getD k (0, .bad)).2 with | .signal 0 j => j == i | _ => false).getLast?

/-- A program names slot `i` in a WAIT SLOT. -/
def waitsFor (l : List (Nat × MeInsn)) (i : Nat) : Bool :=
  l.any fun e => match e.2 with | .wait 0 num j _ => decide (j ≤ i ∧ i < j + num) | _ => false

/-- 0x7A ME_BINDING: a WAIT SLOT is asked for the slots that a channel can wait on, those from a partner. -/
def State.chkMeBinding (s : State) : Option Nat :=
  s.slotsUsed.find? fun i =>
    match s.slotMe i with
    | none => false
    | some c =>
      let l := s.mePathOf c
      let dir := s.get R.CB_SL_A_DIR i
      !(s.bit R.ME_CFG_EN c && s.bit R.ME_CFG_CYCLIC c) || (decide (dir = 2) && !waitsFor l i)
        || (decide (dir = 1) && match lastHandover l i, s.lastWrite l i with
            | none, _ => true
            | some _, none => false
            | some h, some w => decide (h < w))

/-- The source address of byte `j` of FBIN `n` in the unit of a COPY that writes it. -/
def State.fbinSource (s : State) (m : MoveOp) (u : MeUnit) (n j : Nat) : Option Nat :=
  match s.meLoc (u.writes.headD 0) with
  | .fbin k off =>
    if k = n ∧ off ≤ j ∧ j < off + u.wlen then
      some (u.reads.headD 0 + (if m.swap then u.wlen - 1 - (j - off) else j - off))
    else none
  | _ => none

/-- The source addresses that a program gives byte `j` of FBIN `n`, in order; none for a MOVE of planes. -/
def State.fbinSources (s : State) (l : List (Nat × MeInsn)) (n j : Nat) : List (Option Nat) :=
  l.flatMap fun e => match e.2 with
    | .move 0 m => ((copyUnits m).filterMap fun u => s.fbinSource m u n j).map some
    | .move mode m => if (s.moveFbins mode m).contains n then [none] else []
    | _ => []

/-- A program has a MOVE to FBIN `n` without COND. -/
def State.fbinFree (s : State) (l : List (Nat × MeInsn)) (n : Nat) : Bool :=
  l.any fun e => match e.2 with | .move mode m => !m.cond && (s.moveFbins mode m).contains n | _ => false

/-- 0x7B ME_FEEDBACK. -/
def State.chkMeFeedback (s : State) : Option Nat :=
  (failing 64 fun n =>
    (s.mesUsed.any fun c => s.fbinFree (s.mePathOf c) n) ||
      (decide (s.get R.FB_CFG_KIND n = 1) &&
        (let i := s.get R.FB_CFG_SRC n
         match s.slotMe i with
         | none => true
         | some c => !s.bit R.ME_CFG_EN c || (List.range (s.fbBytes n)).any fun j =>
             decide ((s.fbinSources (s.mePathOf c) n j).getLast? ≠ some (some (0x800 * i + s.get R.FB_SERIAL_BYTE_OFF n + j)))))).head?

/-- 0x7C ME_PROGRAM. -/
def State.chkMeProgram (s : State) : Option Nat :=
  s.mesUsed.find? fun c =>
    match (s.mePathOf c).getLast? with
    | some (_, .wait 3 _ _ _) => !s.bit R.ME_CFG_CYCLIC c
    | some (_, .signal 3 _) => s.bit R.ME_CFG_CYCLIC c
    | _ => true

/-- The worst-corner time of an instruction in ns, a MOVE taken as executed (R327). -/
def State.meTime (s : State) (i : MeInsn) : Nat :=
  match i with
  | .move mode m =>
    let far := match s.meLoc m.src.toNat with | .tlx _ _ _ => 4 | .granary _ _ => 4 | _ => 0
    let n := mvS m * mvK m
    let planes := 8 * mvBytes m * mvK m
    let reads := if mode = 2 then planes else n
    24 + (if mode = 0 then n * (if mvBytes m = 8 then 16 else 8) else 8 * (n + planes)) + far * reads + (if m.barrier then 64 else 0)
  | .signal _ _ => 12
  | _ => 8

/-- The slots from partners that a program waits on, in turn. -/
def State.waitedSlots (s : State) (l : List (Nat × MeInsn)) : List Nat :=
  (l.flatMap fun e => match e.2 with | .wait 0 num j _ => (List.range num).map fun k => j + k | _ => []).filter
    fun i => decide (s.get R.CB_SL_A_DIR i = 2)

/-- Two slots waited on one after the other in one cycle arrive too close together (R328). -/
def State.tooNear (s : State) (p : Nat × Nat) : Bool :=
  let a := s.get R.CB_SL_A_OFFSET p.1
  let b := s.get R.CB_SL_A_OFFSET p.2
  s.dueTogether p.1 p.2 && decide (a < b + 16) && decide (b < a + 16)

/-- The instructions of a pass after its last WAIT but the one that ends it. -/
def passTail (l : List (Nat × MeInsn)) : List MeInsn :=
  ((l.dropLast.reverse.takeWhile fun e => match e.2 with | .wait _ _ _ _ => false | _ => true).reverse).map fun e => e.2

/-- 0x7D ME_TIMING. -/
def State.chkMeTiming (s : State) : Option Nat :=
  s.mesUsed.find? fun c =>
    let l := s.mePathOf c
    let w := s.waitedSlots l
    (w.zip (w.drop 1)).any s.tooNear ||
      (s.bit R.ME_CFG_CYCLIC c && decide (s.cycleNs < ((passTail l).map s.meTime).sum + 2000))

/-! ### Twin operation (chapter 15) -/

/-- A test of a device of a twin pair. -/
def State.twinTest (s : State) (r : Option Nat) : Option Nat := if s.bit R.TW_CFG_EN then r else none

/-- 0x80 TW_LINK_NOT_UP. -/
def State.chkTwLink (s : State) : Option Nat :=
  s.twinTest (if s.bit R.TW_CFG_SOLO then none else (failing 2 fun p => !s.up (4 + p)).head?)

/-- 0x81 TW_CONFIG. -/
def State.chkTwConfig (s : State) : Option Nat :=
  let mode := fun p => decide (s.portMode (4 + p) = 1 ∨ s.portMode (4 + p) = 2)
  let c := s.get R.TW_CFG_LEASE_CYC
  let h := s.get R.TW_CFG_HOLDOFF_S
  s.twinTest (if mode 0 && mode 1 && decide (1 ≤ c ∧ c ≤ 64 ∧ 1 ≤ h ∧ h ≤ 600 ∧ s.get R.TB_CORR_CTRL_OWNER = 2)
      && s.busPorts.all fun p => s.bit R.CB_PORT_CFG_TOPOLOGY p then none else some 0)

/-- A STATUS of the twin came in the last 100 ms. -/
def State.statusFresh (s : State) : Bool := match s.tw.lastStatus with | some t => decide (s.tick ≤ t + 12500000) | none => false

/-- 0x82 TW_PEER_DIGEST. -/
def State.chkTwDigest (s : State) : Option Nat :=
  s.twinTest (if s.statusFresh then (if s.get R.TW_PEER_DIGEST = s.get R.TW_OWN_DIGEST then none else some 0)
    else if s.bit R.TW_CFG_SOLO then none else some 0)

/-- 0x83 TW_PARTNER_MAP, of a twin that has been heard. -/
def State.chkTwMap (s : State) : Option Nat :=
  s.twinTest (if s.statusFresh then
      s.partnersUsed.find? fun q =>
        decide (Config.twinPosition q + s.get R.CB_PT_CFG_POSITION q ≠ (s.portPartners (s.get R.CB_PT_CFG_PORT q)).length + 1)
    else none)

/-- 0x84 TW_ECHO. -/
def State.chkTwEcho (s : State) : Option Nat :=
  s.twinTest (failing 4 fun p => s.bit R.CB_PORT_CFG_TOPOLOGY p &&
    !(s.slotsUsed.any fun i => decide (s.get R.CB_SL_A_DIR i = 3) && decide (s.get R.CB_SL_A_PORT i = p))).head?

/-! ### Recorder, injection, safety I/O and power (chapters 16 to 18) -/

/-- A field is in the publication bank: the status fields of the data-plane units, and the converter's results (R422). -/
def published (f : Field) : Bool := f.pub || decide (f = R.AD_RES) || decide (f.addr 0 = R.AD_RES_STAT_PASS.addr 0)

/-- Signal `i` of the pre-trigger list names something that it may not. -/
def State.signalBad (s : State) (i : Nat) : Bool :=
  let a := s.get R.EV_PT_SIG_ADDR i
  if s.bit R.EV_PT_SIG_SPACE i then decide (s.kindOf a ≠ 3)
  else !((fieldsAt (a / 4 * 4)).any fun f => published f && decide (f.acc = .ro))

/-- 0x88 EV_PRETRIGGER: of a list too long the locus is the first signal too many. -/
def State.chkPretrigger (s : State) : Option Nat :=
  let n := s.get R.EV_PT_CFG_PT_COUNT
  least (failing n fun i => decide (60 ≤ i) || s.signalBad i || decide (1048576 * s.periodNs < (8 + 4 * (i + 1)) * 1000000000))

/-- 0x89 INJ_ARMED. -/
def State.chkInjArmed (s : State) : Option Nat :=
  if s.maint then none else (failing 16 fun k => (Tab.get (fun _ => ({} : Inj)) s.inj k).armed).head?

/-- 0x90 IO_STO_UNASSIGNED. -/
def State.chkSto (s : State) : Option Nat :=
  s.groupsUsed.find? fun g => decide ((failing 8 fun p => s.pairGroup p == some g).length ≠ 1)

/-- 0x91 IO_STO_READBACK. -/
def State.chkReadback (s : State) : Option Nat := (failing 10 fun p => s.readbackWrong p).head?

/-- 0x92 IO_SAFETY_INPUT. -/
def State.chkSafetyInput (s : State) : Option Nat :=
  (failing 6 fun i => s.sioDisc i && (if i = 0 then true else if i = 1 then s.bit R.AD_SIO_CFG_ENABLE_EN else s.bit R.AD_DOOR_CFG_EN (i - 2))).head?

/-- The settings of sequencer entry `e` are invalid. -/
def State.entryBad (s : State) (e : Nat) : Bool :=
  (s.bit R.AD_SEQ_A_DIFF e && decide (7 < s.get R.AD_SEQ_A_INPUT e))
    || (s.bit R.AD_SEQ_A_LIM_EN e && (decide (s.get R.AD_SEQ_A_LIM_N e = 0) || decide (s.get R.AD_SEQ_A_LIM_REACT e = 3)
        || decide (s.adcLimit R.AD_SEQ_B_LIMIT_HI e < s.adcLimit R.AD_SEQ_B_LIMIT_LO e)))

/-- 0x93 AD_SEQUENCE: COUNT out of range has the first entry for its locus. -/
def State.chkSequence (s : State) : Option Nat :=
  let n := s.get R.AD_CFG_COUNT
  let d := s.get R.AD_SIO_CFG_DISC_MS
  let sio := decide (d < 1 ∨ 500 < d ∨ s.get R.AD_SIO_CFG_FILT_US = 0 ∨ s.get R.AD_SIO_CFG_B_WD_CYC < 2 ∨ s.get R.AD_SIO_CFG_ESTOP_CAT < 2)
  least ((if s.get R.AD_CFG_MODE ≠ 0 ∧ (n = 0 ∨ 16 < n) then [0] else []) ++ failing 16 s.entryBad ++ (if sio then [16] else [])
    ++ (failing 4 fun i => s.bit R.AD_DOOR_CFG_EN i && decide (s.get R.AD_DOOR_CFG_CAT i = 0)).map fun i => 17 + i)

/-- The islands of the Tillers, engines, arm groups and ports in use. -/
def State.usedIslands (s : State) : List Island :=
  ((List.finRange 64).map Island.tiller ++ (List.finRange 9).map Island.engine ++ (List.finRange 9).map Island.fabric
    ++ (List.finRange 6).map Island.lane).filter fun i =>
      match i with
      | .fabric r => (decide (r.val < 8) && s.bit R.SYS_AG_CFG_EN r.val) || s.engineUsed r
      | j => s.islandUsed j

/-- The supplies of an island are good: of a lane VDDS and VDDSH, of the others VDDC. -/
def State.supplied (s : State) : Island → Bool
  | .lane _ => s.good 3 && s.good 4
  | _ => s.good 0

/-- 0x98 PW_DOMAIN. -/
def State.chkDomain (s : State) : Option Nat := least ((s.usedIslands.filter fun i => s.forcedOff i || !s.supplied i).map islandCode)

/-- 0x99 PW_HOLDUP. -/
def State.chkHoldup (s : State) : Option Nat := if s.bit R.BB_STAT_HOLDUP_OK then none else some 0

/-! ### The check (R359) -/

/-- The tests in ascending order of their reasons. -/
def checkTests : List (Nat × (State → Option Nat)) :=
  [(0x01, State.chkArmGroup), (0x02, State.chkRegion), (0x03, State.chkLongBusy), (0x10, State.chkStepped), (0x11, State.chkLocked),
   (0x20, State.chkPortMode), (0x21, State.chkLinkUp), (0x22, State.chkAddress), (0x23, State.chkPartnerCount),
   (0x24, State.chkPartnerMac), (0x25, State.chkPosition), (0x26, State.chkSa), (0x27, State.chkMacsec), (0x28, State.chkTopology),
   (0x29, State.chkCycle), (0x2A, State.chkSlotField), (0x2B, State.chkSlotOverlap), (0x2C, State.chkPlacement),
   (0x2D, State.chkSlowPort), (0x2E, State.chkWindow), (0x2F, State.chkSync)]
    ++ [(0x30, State.chkSource), (0x31, State.chkSerial), (0x32, State.chkBandwidth), (0x33, State.chkBinding), (0x34, State.chkIndex),
        (0x35, State.chkSsi), (0x36, State.chkEmulation), (0x38, State.chkTlImage), (0x39, State.chkInsn), (0x3A, State.chkEnd),
        (0x3B, State.chkTlBudget), (0x3C, State.chkTlCheck), (0x3D, State.chkPreload), (0x3E, State.chkOverlap),
        (0x40, State.chkLawAddr), (0x41, State.chkGrid), (0x42, State.chkIncomplete), (0x43, State.chkXfer), (0x44, State.chkTlLimits),
        (0x45, State.chkReaction), (0x46, State.chkRef)]
    ++ [(0x48, State.chkMpLimits), (0x49, State.chkMpGroup), (0x4A, State.chkMpInput), (0x4B, State.chkHoming),
        (0x4C, State.chkStepTiming), (0x4D, State.chkMpSource), (0x50, State.chkSvImage), (0x51, State.chkDims),
        (0x52, State.chkParamBlock), (0x53, State.chkCert), (0x54, State.chkSvBudget), (0x55, State.chkSvOutput),
        (0x56, State.chkSvCheck), (0x57, State.chkRuntime), (0x58, State.chkCold)]
    ++ [(0x60, State.chkSepBlock), (0x61, State.chkScanner), (0x62, State.chkZone), (0x63, State.chkSepArm),
        (0x64, State.chkBelvedere), (0x65, State.chkSepTiming), (0x66, State.chkSepSto), (0x67, State.chkSepOff),
        (0x70, State.chkTaskField), (0x71, State.chkTarget), (0x72, State.chkUtil), (0x73, State.chkDemand),
        (0x74, State.chkDelayList), (0x75, State.chkTestSize), (0x76, State.chkSolverPeriod), (0x78, State.chkMeInsn),
        (0x79, State.chkMeAddress), (0x7A, State.chkMeBinding), (0x7B, State.chkMeFeedback), (0x7C, State.chkMeProgram),
        (0x7D, State.chkMeTiming)]
    ++ [(0x80, State.chkTwLink), (0x81, State.chkTwConfig), (0x82, State.chkTwDigest), (0x83, State.chkTwMap), (0x84, State.chkTwEcho),
        (0x88, State.chkPretrigger), (0x89, State.chkInjArmed), (0x90, State.chkSto), (0x91, State.chkReadback),
        (0x92, State.chkSafetyInput), (0x93, State.chkSequence), (0x98, State.chkDomain), (0x99, State.chkHoldup)]

/-- The first failure of the check: reason and locus (R359). -/
def State.checkResult (s : State) : Option (Nat × Nat) := checkTests.findSome? fun t => (t.2 s).map fun l => (t.1, l)

/-- The field counts toward the configuration digest: RWL, less those that differ between the twins. -/
def inDigest (f : Field) : Bool :=
  decide (f.acc = .rwl) && !([R.TW_CFG_POSITION, R.CB_PT_CFG_POSITION, R.CB_SL_A_OFFSET].contains f)
    && !(decide (f.blk = .cb) && decide (f.base = R.CB_REF_CFG_EN.base))

/-- The words of the configuration: each register's RWL fields where they differ from reset, by offset, and the parameter regions'
active banks, by address. -/
def State.configWords (s : State) : List Word :=
  let only := fun (off : Nat) (w : Word) =>
    ((fieldsAt off).filter inDigest).foldl (fun a f => withBits a f.hi f.lo (bitsOf w f.hi f.lo)) (0 : Word)
  let regs := [Blk.sys, .tb, .cb, .fb, .tl, .mp, .sv, .sep, .sch, .me, .hi, .tw, .ev, .bb, .inj, .ad, .pw].flatMap fun b =>
    (s.regs.bank b).flatMap fun e => if only e.1 e.2 = only e.1 (resetWord b e.1) then [] else [item e.1, only e.1 e.2]
  regs ++ (s.gr.front.filter fun e => decide (s.kindOf e.1 = 1) || decide (s.kindOf e.1 = 2)).flatMap fun e => [item e.1, e.2]

end Sys2Proof.Machine
end

