-- ==== Sys2Proof/Machine/Cell.lean ====
section
/-! DEFINITION. Enabling and disabling the cell (R358 to R361, R102, R376). -/
namespace Sys2Proof.Machine

/-! ### The start of the check (R358) -/

/-- The results of the schedulability tests that the check has reached are shown (R309, R310). -/
def State.showTests (s : State) : State :=
  let reached := fun code => match s.hi.verdict with | none => true | some v => decide (code ≤ v.1)
  let t := if reached 0x72 then s.showUtil else s
  if reached 0x73 then t.showDbf else t

/-- The cell moves to CHECKING, and the tests are applied to the configuration it has then. -/
def State.startCheck (s : State) : State :=
  let s := (s.set R.SYS_CELL_STATUS_STATE 0 1).setBit R.SYS_CELL_CTRL_EN 0 true
  let s := s.set R.TW_OWN_DIGEST 0 (Config.configDigest s.configWords).toNat
  let v := s.checkResult
  (s.updHi fun h => { h with checkTick := s.tick, verdict := v }).showTests

/-- A write of 1 to EN: nothing unless the cell is DISABLED; in recovery it is ignored with a notice (R358, R451). -/
def State.cellOn (s : State) : State :=
  if s.recovery then s.ignored 0x10 else if s.cell = 0 then s.startCheck else s

/-- CELL_ENABLE (R358). -/
def execCellEnable (s : State) : Out := .next s.cellOn

/-! ### The end of the check -/

/-- The check is over: its duration and number, and the message to the host. -/
def State.checkOver (s : State) (us : Nat) : State :=
  let s := (s.set R.SYS_CHECK_STAT_LAST_US 0 (min us 0xFFFF)).inc R.SYS_CHECK_STAT_CHECKS
  if s.bit R.HI_VEC_SRC_ENABLE_IE then s.sendVec (s.get R.HI_VEC_SRC_ENABLE_VEC) else s

/-- The check has failed, or was abandoned, with a reason and a locus. -/
def State.checkFail (s : State) (us reason locus : Nat) : State :=
  let s := (s.set R.SYS_CELL_STATUS_STATE 0 0).setBit R.SYS_CELL_CTRL_EN 0 false
  let s := (s.set R.SYS_CELL_STATUS_REASON 0 reason).set R.SYS_CELL_STATUS_LOCUS 0 locus
  let s := s.updHi fun h => { h with verdict := none }
  (s.checkOver us).post Ev.sysCheckFailed .notice none [item reason, item locus]

/-- A run of words beside their addresses. -/
def tabOf (l : List (Nat × Word)) : Tab Word := l.foldl (fun t e => Tab.put (fun _ => 0) t e.1 e.2) []

/-- Load Tiller `n` from its image: P with NOP beyond END, X, plain Y, both window banks from its segments with region 0 (R179). -/
def State.loadTiller (s : State) (n : Nat) : State :=
  if s.bit R.TL_CFG_EN n then
    match s.tlImage n with
    | none => s
    | some i =>
      let prog := progToEnd i.prog
      let win := Tab.putList (fun _ => 0) [] 0 (s.windowWords n 0)
      let t : Tiller :=
        { prog := Tab.putList (fun _ => 0) [] 0 prog, x := tabOf i.x, y := tabOf i.y, win0 := win, win1 := win, writeMap := i.writeMap }
      let s := (s.updTil n fun _ => t).set R.TL_BUDGET_B_NS n (loaderB i)
      let s := (s.set R.TL_BUDGET_INSN_COUNT n prog.length).set R.TL_STAT_STATE n 1
      let s := (s.set R.TL_GAIN_REGION_REGION n 0).set R.TL_GAIN_REGION_SELECTED n 0
      (s.set R.TL_GAIN_REGION_BAND0 n 0).set R.TL_GAIN_REGION_BAND1 n 0
  else s.set R.TL_STAT_STATE n 0

/-- Load engine `e` from its image: its dimensions, its formats and certificate, the budget of ITER_MAX; its next solve starts cold
(R258), and a stop request that is held stays so (R267). -/
def State.loadEngine (s : State) (e : Nat) : State :=
  match s.svImage e, s.bit R.SV_CFG_EN e with
  | some i, true =>
    let ident := ((s.image (s.get R.SV_CFG_IMAGE e)).map fun x => x.ident).getD 0
    let s := s.updEng e fun x => { force := x.force + 1, imageId := ident, image := some i, last := x.last, keptDesc := x.keptDesc,
                                      stopReq := x.stopReq, stopSolved := x.stopSolved }
    let arm := decide (e < 8)
    let s := (s.set R.SV_DIM_NJ e (if arm then i.nj else 0)).set R.SV_DIM_N e (if arm then i.n else 1)
    let s := (s.set R.SV_DIM_M e (if arm then i.m else i.rc)).set R.SV_DIM_V e (if arm then 0 else i.v)
    (s.set R.SV_BUDGET e (imgBSolve i e (s.get R.SV_CFG_ITER_MAX e))).set R.SV_SCRATCH_WORDS e (if arm then imgScratch i else 0)
  | _, _ => s

/-- The earliest time from `t` on whose NS field is a whole multiple of CYCLE_NS. -/
def epochFrom (t cycleNs : Nat) : Nat × Nat :=
  let ns := (t % nsPerSec + cycleNs - 1) / cycleNs * cycleNs
  if ns < nsPerSec then (t / nsPerSec, ns) else (t / nsPerSec + 1, 0)

/-- The device adopts the cycle grid of its twin (R376). -/
def State.adopts (s : State) : Bool := s.bit R.TW_CFG_EN && s.tw.peerEnabled && s.statusFresh

/-- The cycle epoch: of R102, or the twin's with the number of the first cycle that starts after now (R376). CYCLE_NOW, which counts the
cycles of the new grid, is 0 until its first cycle ends, or the number before the first cycle of the twin's grid (DEDUCED, log 115). -/
def State.fixEpoch (s : State) : State :=
  let own := epochFrom (s.now + 1000000) s.cycleNs
  let s := if s.adopts then s.set R.CB_CYCLE_NS 0 s.tw.peerCycleNs else s
  let e := if s.adopts then (s.tw.peerEpSec, s.tw.peerEpNs) else own
  let at0 := nsOf e.1 e.2
  let first := if s.adopts && decide (at0 ≤ s.now) then (s.now - at0) / max 1 s.cycleNs + 1 else 0
  let s := (s.set R.CB_EPOCH_NS_NS 0 e.2).set64 R.CB_EPOCH_SEC_LO R.CB_EPOCH_SEC_HI_SEC 0 e.1
  let s := s.set R.CB_CYCLE_NOW 0 ((first - 1) % 2 ^ 32)
  { s with grid := { s.grid with running := true, epSec := e.1, epNs := e.2, cyc := none, solver := none, winCyc := none, first := first } }

/-- The publication and solver-output regions read 0 until something writes them (R478). -/
def State.clearPublications (s : State) : State :=
  let clear := fun (t : Tab Word) => t.filter fun e => !(decide (s.kindOf e.1 = 3) || decide (s.kindOf e.1 = 4))
  { s with gr := { s.gr with front := clear s.gr.front, back := clear s.gr.back } }

/-- The separation function starts afresh; what runs to an assertion stays (R271, R291). -/
def State.sepEnable (s : State) : State :=
  { s with sep := { lastCode := s.sep.lastCode, delay := s.sep.delay, globalDelay := s.sep.globalDelay } }

/-- Joint `n` leaves OFF to STANDBY; while its pair is asserted it enters TORQUE_OFF in the same tick (R184). -/
def State.jointOn (s : State) (n : Nat) : State :=
  let off := match (s.groupOf n).bind s.pairOf with | some p => s.bit R.AD_STO_STAT_ASSERTED p | none => false
  if off then (s.setJoint 1 n).jointOff n else s.setJoint 1 n

/-- What the reaction logic keeps over a disable and an enable: the escalations whose events are not acknowledged (R25). -/
def State.groupOn (s : State) (g : Nat) : State :=
  s.updGroup g fun r =>
    { stopEvents := r.stopEvents.filter fun e => !s.acked e.1 e.2, held := r.held.filter fun e => !s.acked e.code e.inst }

/-- Generator `g` at enable: at rest where it is in use, with the limits of its registers (R198, R203). -/
def State.genOn (s : State) (g : Nat) : State :=
  if s.bit R.MP_CFG_EN g then (s.loadLimits g).setGen g 1 else s.setGen g 0

/-- Every Tiller and every engine is loaded from its image. -/
def State.loadUnits (s : State) : State := (List.range 9).foldl State.loadEngine ((List.range 64).foldl State.loadTiller s)

/-- Every unit starts: bus, feedback, generators, scheduler, move engines, joints, twin and watchdog. -/
def State.startUnits (s : State) : State :=
  let s := s.clearPublications.sepEnable
  let s := ((List.range 8).foldl State.groupOn s).busEnable
  let s := (List.range 64).foldl State.chanEnable s
  let s := (List.range 80).foldl State.genOn s
  let s := s.schedStart
  let s := (List.range 16).foldl State.meEnable s
  let s := ((List.range 8).flatMap s.joints).foldl State.jointOn s.twEnable
  s.updSio fun x => { x with missRun := 0, lastEdge := s.tick }

/-- The cell shows itself ENABLED. -/
def State.showPass (s : State) (us : Nat) : State :=
  let s := s.set R.SYS_CELL_STATUS_STATE 0 2
  let s := ((s.set R.SYS_CELL_STATUS_REASON 0 0).set R.SYS_CELL_STATUS_LOCUS 0 0).updHi fun h => { h with verdict := none }
  (s.checkOver us).driveEnables.post Ev.sysEnabled .info

/-- The check has passed: the cell is ENABLED. -/
def State.checkPass (s : State) (us : Nat) : State := s.loadUnits.fixEpoch.startUnits.showPass us

/-- The effect of ENABLE_CHECK_END. -/
def State.checkEnd (s : State) (us : Nat) : State :=
  if s.cell = 1 then
    match s.hi.verdict with
    | some v => s.checkFail us v.1 v.2
    | none => s.checkPass us
  else s

/-- ENABLE_CHECK_END (R359). -/
def execEnableCheckEnd (us : Nat) (s : State) : Out := .next (s.checkEnd us)

/-! ### Disabling (R360) -/

/-- The cell moves to DISABLING: SS1 on every arm group in use. -/
def State.startDisable (s : State) : State :=
  let cause := Config.disableCause s.free
  let s := (s.set R.SYS_CELL_STATUS_STATE 0 3).draw.driveEnables.updHi fun h => { h with disableTick := s.tick }
  (maskList 8 s.groupsInUse).foldl (fun s g => s.wantStop g 2 cause) s

/-- A write of 0 to EN: it disables an ENABLED cell, and abandons a check (R358, R360). -/
def State.cellOff (s : State) : State :=
  match s.cell with
  | 1 => s.checkFail ((s.tick - s.hi.checkTick) / 125) 0x07 0
  | 2 => s.startDisable
  | _ => s

/-- CELL_DISABLE (R360). -/
def execCellDisable (s : State) : Out := .next s.cellOff

/-- ARM_SERVO operations whose boundary no longer comes find their group in another state. -/
def State.dropServo (s : State) (g : Nat) : State :=
  (s.group g).servo.foldl (fun s w => s.complete3 (some w.2.1) { reason := 1 }) (s.updGroup g fun r => { r with servo := [] })

/-- Joint `n` is OFF. -/
def State.jointDisabled (s : State) (n : Nat) : State := if s.jstate n = 0 then s else s.setJoint 0 n

/-- Generator `g` is disabled with its cell: what it still has to do is dropped. -/
def State.genDisabled (s : State) (g : Nat) : State :=
  if s.genState g = 0 then s
  else
    let s := if g < 64 then s.trackGen g else s.dropMoves g
    s.setGen g 0

/-- A commit that was accepted in the ENABLED cell and has not swapped swaps 2 µs from now (R352). -/
def State.commitsOff (s : State) : State :=
  { s with gr := { s.gr with commits := s.gr.commits.map fun q => if q.enabled then { q with offTick := some s.tick } else q } }

/-- No cycle is counted any more; a window of the time base starts (R85). -/
def State.gridOff (s : State) : State :=
  let s := s.windowEnd
  { s with grid := { s.grid with running := false, cyc := none, solver := none, winCyc := none, first := 0 } }

/-- Every unit stops. -/
def State.stopUnits (s : State) : State :=
  let s := (List.range 8).foldl State.dropServo s.rearmStep.busDisable
  let s := (List.range 64).foldl State.jointDisabled s
  let s := (List.range 80).foldl State.genDisabled s.driveEnables
  let s := (List.range 16).foldl State.meDisable s.schedStop
  s.twDisable.commitsOff

/-- The cell becomes DISABLED. -/
def State.becomeDisabled (s : State) : State :=
  let s := (s.set R.SYS_CELL_STATUS_STATE 0 0).setBit R.SYS_CELL_CTRL_EN 0 false
  s.stopUnits.gridOff.post Ev.sysDisabled .info

/-- Every arm group in use is TORQUE_OFF. -/
def State.allOff (s : State) : Bool :=
  (maskList 8 s.groupsInUse).all fun g => (s.joints g).all fun n => decide (s.jstate n = 5)

/-- The effect of DISABLE_COMPLETE. -/
def State.disableDone (s : State) : State := if s.cell = 3 ∧ s.allOff = true then s.becomeDisabled else s

/-- DISABLE_COMPLETE (R360). -/
def execDisableComplete (s : State) : Out := .next s.disableDone

/-- The largest SS1_TIMEOUT of the cell's joints, in ticks. -/
def State.disableTicks (s : State) : Nat := ((maskList 8 s.groupsInUse).map s.ss1Ticks).foldl max 0

/-- The effect of DISABLE_TIMEOUT: every pair is asserted. -/
def State.disableExpiry (s : State) : State :=
  if s.cell = 3 ∧ s.hi.disableTick + s.disableTicks ≤ s.tick then (s.assertAll 5).becomeDisabled else s

/-- DISABLE_TIMEOUT (R360). -/
def execDisableTimeout (s : State) : Out := .next s.disableExpiry

end Sys2Proof.Machine
end

