-- ==== Sys2Proof/Machine/Access.lean ====
section
/-! DEFINITION. BAR0 accesses as the host and the JTAG path make them: reads with their captures and clears, and writes with the
refusals and the actions of their fields (R6 to R12, R71, R336). -/
namespace Sys2Proof.Machine

/-! ### Reads -/

/-- The 64-bit quantities, by their low words (R12). -/
def lowWords : List Field :=
  [R.TB_STEP_SEC_LO, R.TB_TRG_SEC_LO, R.TB_NOW_SEC_LO, R.TB_CAP_SEC_LO, R.CB_EPOCH_SEC_LO, R.FB_POS_LO, R.FB_VEL_LO, R.FB_ACC_LO,
   R.MP_HOME_OFS_LO, R.MP_POS_LO, R.MP_VEL_LO]
    ++ [R.MP_ACC_LO, R.MP_TGT_LO, R.MP_HOME_POS_LO, R.ST_VWORD_LO, R.ST_STEP_LO, R.MP_AXIN_INV_LO, R.MP_AXIN_LEVEL_LO, R.MP_AXIN_CHAT_LO,
        R.HI_SQ_BASE_LO_ADDR, R.HI_CQ_BASE_LO_ADDR]

/-- The register at an offset is the low word of a 64-bit quantity. -/
def isLow (off : Nat) : Bool := lowWords.any fun f => (f.instAt off).isSome

/-- The fields that show a maximum since the last read. -/
def maxFields : List Field := [R.TL_RUN_RUN_MAX, R.SV_RUN_MAX, R.SCH_LIST_STAT_MAX, R.SCH_TASK_E_RESP_MAX, R.ME_TIME_PASS_MAX]

/-- What an RC field holds after a read that returned `shown`: its reset value, and beside it only what was counted since that value
was published or in the tick of the read (R6, R8, R20). -/
def afterRead (f : Field) (live shown reset : Nat) : Nat :=
  if rcHolds.contains f then reset
  else if maxFields.contains f then (if shown < live then live else reset)
  else reset + (live - shown)

/-- Clear RC field `f` of the register at a place. -/
def State.clearRc (s : State) (p : Nat) (f : Field) : State :=
  let b := blkOf p
  let live := s.regs.word b p
  let bank := s.frozen.word b p
  let old := s.view.regs.word b p
  let reset := bitsOf (resetWord b p) f.hi f.lo
  let shown := if f.pub then bitsOf bank f.hi f.lo else rcShown f live old
  { s with regs := s.regs.setWord b p (withBits live f.hi f.lo (afterRead f (bitsOf live f.hi f.lo) shown reset)),
           frozen := s.frozen.setWord b p (withBits bank f.hi f.lo reset),
           view := { s.view with regs := s.view.regs.setWord b p (withBits old f.hi f.lo reset) } }

/-- Clear the RC fields of the register at an offset. -/
def State.clearRcs (s : State) (off : Nat) : State :=
  let p := s.place off
  ((fieldsAt p).filter fun f => decide (f.acc = .rc)).foldl (fun s f => s.clearRc p f) s

/-- The NS word at an offset whose read captures its seconds words (R71). -/
def nsRegAt (off : Nat) : Option NsReg :=
  if off = R.TB_NOW_NS_NS.addr 0 then some .now
  else if off = R.TB_STEP_NS_NS.addr 0 then some .step
  else (R.TB_TRG_NS_NS.instAt off).map fun e => .trg (Fin.ofNat 16 e.1)

/-- A read of AD.RES: RES_STAT is captured (R422). -/
def State.resRead (s : State) (e : Nat) : State :=
  let stat := R.AD_RES_STAT_PASS.addr e
  (s.latch stat (s.regs.word .ad stat)).reply (s.regs.word .ad (R.AD_RES.addr e))

/-- A read of a register without a capture of its own: a captured word is returned as it was captured, the low word of a 64-bit
quantity captures its high word, and RC fields are cleared but by the JTAG path. R12 is silent on a high word whose low word has
never been read: the present value is returned (DESIGN CHOICE, log entry 10). -/
def State.plainRead (s : State) (off : Nat) (jtag : Bool) : State :=
  match Tab.get (fun _ => none) s.hiLatch off with
  | some w => s.reply w
  | none =>
    let s := s.reply (s.peek off)
    let s := if isLow off then s.latch (off + 4) (s.peek (off + 4)) else s
    if jtag then s else s.clearRcs off

/-- A read of the register at BAR0 offset `off`; a misaligned one is aborted, and beyond BAR0 nothing answers (R336). -/
def State.read (s : State) (off : Nat) (jtag : Bool) : State :=
  if off % 4 ≠ 0 ∨ 0x200000 ≤ off then s
  else
    match nsRegAt off, R.TB_CAP_NS_NS.instAt off, R.AD_RES.instAt off with
    | some r, _, _ => s.nsRead r
    | none, some e, _ => s.capRead e.1
    | none, none, some e => s.resRead e.1
    | none, none, none => s.plainRead off jtag

/-- LOW_WORD_READ (R12). -/
def execLowWordRead (off : Nat) (s : State) : Out := .next (s.read off false)

/-- RC_READ (R8). -/
def execRcRead (off : Nat) (jtag : Bool) (s : State) : Out := .next (s.read off jtag)

/-! ### Writes -/

/-- The writable 64-bit quantities: a low word waits for the write of its high word (R12). -/
def stagedLows : List Field :=
  [R.TB_STEP_SEC_LO, R.TB_TRG_SEC_LO, R.MP_HOME_OFS_LO, R.MP_AXIN_INV_LO, R.HI_SQ_BASE_LO_ADDR, R.HI_CQ_BASE_LO_ADDR]

/-- The register at an offset is the low word of a writable 64-bit quantity. -/
def isStaged (off : Nat) : Bool := stagedLows.any fun f => (f.instAt off).isSome

/-- A value that field `f` of instance `n` does not take, by its own description. -/
def State.badValue (s : State) (f : Field) (n v : Nat) : Bool :=
  if f = R.TB_CORR_CTRL_OWNER ∨ f = R.AD_CFG_MODE then decide (v = 3)
  else if f = R.TB_PPS_OFFSET_OFFSET_NS then decide (nsPerSec ≤ v)
  else if f = R.PW_SUNDIAL_TARGET_TARGET then decide (v < 0x119A ∨ 0x2000 < v)
  else if f = R.PW_TEMP_CFG_TJ_WARN then decide (v < 80 ∨ 105 < v)
  else if f = R.HI_SQ_CFG_DEPTH_LOG2 then s.bit R.HI_SQ_CFG_EN n || decide (v < 4 ∨ 12 < v)
  else if f = R.HI_CQ_CFG_DEPTH_LOG2 then s.bit R.HI_CQ_CFG_EN n || decide (v < 4 ∨ 12 < v)
  else if f = R.HI_SQ_BASE_LO_ADDR ∨ f = R.HI_SQ_BASE_HI then s.bit R.HI_SQ_CFG_EN n
  else if f = R.HI_CQ_BASE_LO_ADDR ∨ f = R.HI_CQ_BASE_HI then s.bit R.HI_CQ_CFG_EN n
  else if [R.TB_TRG_NS_NS, R.TB_TRG_SEC_LO, R.TB_TRG_SEC_HI_SEC_HI, R.TB_TRG_PERIOD].contains f then s.bit R.TB_TRG_CTRL_ARM n
  else if [R.PW_FORCE_OFF_A, R.PW_FORCE_OFF_B, R.PW_FORCE_OFF_C_E, R.PW_FORCE_OFF_C_FA, R.PW_FORCE_OFF_C_FA8, R.PW_FORCE_OFF_C_LANE].contains f then
    s.locked
  else false

/-- The write of word `w` to the register at a place is refused for field `f` (R9); RETRAIN is refused as an RWL field is (R78). -/
def State.refused (s : State) (p : Nat) (w : Word) (f : Field) : Bool :=
  let v := bitsOf w f.hi f.lo
  (decide (f.acc = .rwl) && s.locked && decide (v ≠ bitsOf (s.regs.word (blkOf p) p) f.hi f.lo))
    || (decide (f = R.CB_LINK_CTRL_RETRAIN) && s.locked && decide (v = 1))
    || s.badValue f (((f.instAt p).map fun e => e.1).getD 0) v

/-- The fields that a write does not simply set: their actions set them. -/
def ownAct : List Field :=
  [R.TB_ADDEND_FRAC, R.TB_TRG_CTRL_ARM, R.TB_TRG_CTRL_ACTION, R.TB_TRG_CTRL_TARGET, R.SYS_CELL_CTRL_EN, R.EO_CFG_EN, R.HI_SQ_CFG_EN,
   R.HI_CQ_CFG_EN, R.EV_CURSOR]

/-- The word that field `f` of the register at a place takes from a written one: a W1C bit that the device has set in this tick is not
cleared (R7). No field of the map has the code W1S. -/
def State.takenWord (s : State) (p : Nat) (w : Word) (f : Field) : Word :=
  if f.acc = .w1c ∧ s.view.raised.contains (p, f.lo) = true then 0 else w

/-- What field `f` takes from a written word, by its access code (R6). -/
def fieldAfter (f : Field) (old w : Word) : Word :=
  match f.acc with
  | .rw | .rwl => withBits old f.hi f.lo (bitsOf w f.hi f.lo)
  | .w1c => withBits old f.hi f.lo (bitsOf (old &&& ~~~w) f.hi f.lo)
  | .w1s => withBits old f.hi f.lo (bitsOf (old ||| w) f.hi f.lo)
  | .ro | .wo | .rc => old

/-- Write word `w` to the register at a place: every field that is not refused. -/
def State.putFields (s : State) (p : Nat) (w : Word) : State :=
  let b := blkOf p
  let fs := (fieldsAt p).filter fun f => !s.refused p w f && !ownAct.contains f
  { s with regs := s.regs.setWord b p (fs.foldl (fun old f => fieldAfter f old (s.takenWord p w f)) (s.regs.word b p)) }

/-- Some field of the register at a place refuses the write. -/
def State.anyRefused (s : State) (p : Nat) (w : Word) : Bool := (fieldsAt p).any (s.refused p w)

/-- The low word staged for the high word at an offset comes into force with it. -/
def State.applyStage (s : State) (off : Nat) : State :=
  match (if 4 ≤ off then Tab.get (fun _ => none) s.wrStage (off - 4) else none) with
  | some w => { s.putFields (off - 4) w with wrStage := Tab.put (fun _ => none) s.wrStage (off - 4) none }
  | none => s

/-- A new value of PORT_CFG or LINK_CTRL of port `p`, whose MODE was `old`. -/
def State.portWritten (s : State) (p old : Nat) : State :=
  if s.portMode p ≠ old ∧ !s.portOff p then s.trainPort p else s.portConf p

/-- MAINT was written. -/
def State.maintWritten (s : State) (old : Bool) : State := if s.maint = old then s else (s.post Ev.sysMaint .notice).showInj

/-- EN of CELL_CTRL was written; in recovery a 1 is ignored with a notice. -/
def State.enWritten (s : State) (w : Word) : State := if hasBit w.toNat 0 then s.cellOn else s.cellOff

/-- STEP_CTRL was written. -/
def State.stepWritten (s : State) (w : Word) : State :=
  if hasBit w.toNat 0 then (if bitsOf w 2 1 = 2 then s.ptpStep else s.goStep .host (bitsOf w 2 1)) else s

/-- TRG_CTRL of a channel was written. -/
def State.trgWritten (s : State) (ch : Nat) (w : Word) : State :=
  if hasBit w.toNat 0 then s.triggerArm ch (bitsOf w 3 1) (bitsOf w 11 4)
  else
    let s := (s.set R.TB_TRG_CTRL_ACTION ch (bitsOf w 3 1)).set R.TB_TRG_CTRL_TARGET ch (bitsOf w 11 4)
    s.setBit R.TB_TRG_CTRL_ARM ch false

/-- What a write of word `w` at an offset does beside setting fields, by blocks: `s` is the state after the fields were set, `o` the
state before. -/
def State.actSys (s o : State) (off : Nat) (w : Word) : State :=
  if off = 0x10 then (s.maintWritten o.maint).enWritten w else s

/-- Actions of TB writes. -/
def State.actTb (s : State) (off : Nat) (w : Word) : State :=
  if off = R.TB_ADDEND_FRAC.addr 0 then s.fracWrite .host w.toInt
  else if off = R.TB_STEP_CTRL_GO.addr 0 then s.stepWritten w
  else match R.TB_TRG_CTRL_ARM.instAt off with
    | some e => s.trgWritten e.1 w
    | none => s

/-- Actions of CB writes. -/
def State.actCb (s o : State) (off : Nat) (w : Word) : State :=
  if off = R.CB_SLOT_SEL_SLOT.addr 0 then s.selectSlot (bitsOf w 12 0)
  else
    match R.CB_PORT_CFG_MODE.instAt off, R.CB_LINK_CTRL_RETRAIN.instAt off, R.CB_PT_CFG_POSITION.instAt off with
    | some e, _, _ => if s.portMode e.1 = o.portMode e.1 then s else s.portWritten e.1 (o.portMode e.1)
    | none, some e, _ =>
      let s := if s.bit R.CB_LINK_CTRL_TX_DISABLE e.1 = o.bit R.CB_LINK_CTRL_TX_DISABLE e.1 then s else s.portConf e.1
      if hasBit w.toNat 0 && !s.locked then s.retrain e.1 else s
    | none, none, some e => if s.get R.CB_PT_CFG_POSITION e.1 = o.get R.CB_PT_CFG_POSITION e.1 then s else s.partnerConf e.1
    | none, none, none => s

/-- Actions of HI writes. -/
def State.actHi (s : State) (off : Nat) (w : Word) : State :=
  match R.HI_SQ_CFG_EN.instAt off, R.HI_CQ_CFG_EN.instAt off with
  | some e, _ => if hasBit w.toNat 0 then s.sqStart e.1 else s.sqStop e.1
  | none, some e => if hasBit w.toNat 0 then s.cqStart e.1 else s.cqStop e.1
  | none, none => s

/-- Actions of FB, SV, TW, EV and INJ writes. -/
def State.actMore (s o : State) (off : Nat) (w : Word) : State :=
  match R.EO_CFG_EN.instAt off, R.SV_FORCE_COLD_FORCE.instAt off, R.TW_PORT_CFG_MODE.instAt off with
  | some e, _, _ => (if hasBit w.toNat 0 then s.eoEnable e.1 else s.setBit R.EO_CFG_EN e.1 false).eoPins e.1
  | none, some e, _ => if hasBit w.toNat 0 then s.updEng e.1 fun x => { x with force := x.force + 1 } else s
  | none, none, some e => if s.portMode (4 + e.1) = o.portMode (4 + e.1) then s else s.portWritten (4 + e.1) (o.portMode (4 + e.1))
  | none, none, none =>
    match R.EO_LINES_LINES.instAt off with
    | some e => s.eoPins e.1
    | none => if off = R.EV_CURSOR.addr 0 then s.cursorWrite w else s

/-- Actions of AD and PW writes. -/
def State.actAd (s : State) (off : Nat) (w : Word) : State :=
  if off = R.AD_CFG_MODE.addr 0 then s.adcKick
  else if off = R.AD_URGENT_GO.addr 0 then (if hasBit w.toNat 4 then s.urgent (bitsOf w 3 0) else s)
  else if off = R.AD_STO_CTRL_GLOBAL_RELEASE.addr 0 then (if hasBit w.toNat 0 then s.globalRelease else s)
  else if off = R.PW_RESET_CTRL_KEY.addr 0 then s.resetKey (bitsOf w 15 0)
  else if off = R.PW_HOLDUP_CFG_VTH_MV.addr 0 ∧ s.get R.PW_HOLDUP_CFG_VTH_MV = 0 then s.setBit R.BB_STAT_HOLDUP_OK 0 false
  else s

/-- The actions of a write. -/
def State.act (s o : State) (off : Nat) (w : Word) : State :=
  match blkOf off with
  | .sys => s.actSys o off w
  | .tb => s.actTb off w
  | .cb => s.actCb o off w
  | .hi => s.actHi off w
  | .ad | .pw => s.actAd off w
  | .fb | .sv | .tw | .ev => s.actMore o off w
  | .tl | .mp | .sep | .sch | .me | .bb | .inj => s

/-- BAR0 takes writes: the memories are being cleared or the device runs. -/
def State.takesWrites (s : State) : Bool :=
  match s.pw.phase with
  | .clearing | .booting | .running => true
  | _ => false

/-- A write of a register word: a refusal posts one notice; a low word of a 64-bit quantity waits for its high word; the other
fields are set, and what the register does on a write is done. -/
def State.writeWord (s : State) (off : Nat) (w : Word) : State :=
  let p := s.place off
  let t := if s.anyRefused p w then s.ignored off else s
  if isStaged off then
    if s.anyRefused p w then t else { t with wrStage := Tab.put (fun _ => none) t.wrStage off (some w) }
  else
    let hi := if 4 ≤ off ∧ isStaged (off - 4) = true ∧ !s.anyRefused p w then t.applyStage off else t
    let t := (hi.putFields p w).act s off w
    if islandReg p then t.noteOff else t

/-- A BAR0 write: a misaligned one is discarded with a notice (R336), one to the MSI-X table goes there, and beyond BAR0 there is
nothing to write. -/
def State.write (s : State) (off : Nat) (w : Word) : State :=
  if !s.takesWrites ∨ 0x200000 ≤ off then s
  else if off % 4 ≠ 0 then s.badAccess true
  else if 0x108000 ≤ off ∧ off < 0x108400 then s.msixPut ((off - 0x108000) / 4) w
  else s.writeWord off w

/-- REG_WRITE (R9). -/
def execRegWrite (off : Nat) (val : Word) (s : State) : Out := .next (s.write off val)

end Sys2Proof.Machine
end

