-- ==== Sys2Proof/Machine/Rx.lean ====
section
/-! DEFINITION. The frames that arrive on the Ryfoid cell bus: the checks of R83, then the consumer of the frame's TYPE, or the
twin logic for a frame of the twin (chapters 03, 04 and 15). -/
namespace Sys2Proof.Machine

/-- A frame of the twin that the checks passed (R92): the twin was heard, its epoch is seen; an ECHO goes to the path test; the
twin's GRANT tells a device that is not HOLDER when a JOINING partner becomes ACTIVE. -/
def State.twinFrame (s : State) (f : Frame) (h : Hdr) : State :=
  let s := (s.updTw fun t => { t with lastMsg := some s.cycle }).sawEpoch h.epoch
  if h.ftype = 5 then s.echoTake f h
  else if h.ftype = 3 ∧ beField f.payload 0 1 = 3 ∧ s.notHolder ∧ h.partner < 1024 ∧ s.ptState h.partner = 2 then
    s.updPart h.partner fun x => { x with grantAt := some (s.cycleOf (beField f.payload 1 4)) }
  else s

/-- A frame has arrived on a CB port. -/
def State.rxFrame (s : State) (f : Frame) : State :=
  if 4 ≤ f.port then s
  else
    match s.rxChecks f with
    | (s, some h) => if h.fromDev then s.twinFrame f h else s.consume f h
    | (s, none) => s

/-- CYCLIC_FRAME_RX (R83, R113). -/
def execCyclicFrameRx (f : Frame) (s : State) : Out := .next (s.rxFrame f)

/-- ACYCLIC_FRAME_RX (R94). -/
def execAcyclicFrameRx (f : Frame) (s : State) : Out := .next (s.rxFrame f)

/-- REFERENCE_FRAME_RX (R122). -/
def execReferenceFrameRx (f : Frame) (s : State) : Out := .next (s.rxFrame f)

/-- DELAY_RESPONSE_RX (R119). -/
def execDelayResponseRx (f : Frame) (s : State) : Out := .next (s.rxFrame f)

/-- JOIN_ANNOUNCE_RX (R95). -/
def execJoinAnnounceRx (f : Frame) (s : State) : Out := .next (s.rxFrame f)

/-- JOIN_VALID_RX (R123). -/
def execJoinValidRx (f : Frame) (s : State) : Out := .next (s.rxFrame f)

/-- TWIN_FRAME_RX (R92). -/
def execTwinFrameRx (f : Frame) (s : State) : Out := .next (s.rxFrame f)

/-- ECHO_FRAME_RX (R380). -/
def execEchoFrameRx (f : Frame) (s : State) : Out := .next (s.rxFrame f)

end Sys2Proof.Machine
end

