-- ==== Sys2Proof/Machine/Dispatch.lean ====
section
/-! DEFINITION. The meaning of every command: one arm for each constructor, each one direct call. -/
namespace Sys2Proof.Machine

/-- The effect of a command on everything but the queue. -/
def exec (i : Instr) (s : State) : Host.Outcome State Fault Refusal :=
  match i with
  | .timeBaseTick upset hit => Sys2Proof.Machine.execTimeBaseTick upset hit s
  | .cycleBoundary => Sys2Proof.Machine.execCycleBoundary s
  | .solverPeriodBoundary => Sys2Proof.Machine.execSolverPeriodBoundary s
  | .sundialWindowEnd pace mv => Sys2Proof.Machine.execSundialWindowEnd pace mv s
  | .arbiterRound arbiter region reqs => Sys2Proof.Machine.execArbiterRound arbiter region reqs s
  | .escalation => Sys2Proof.Machine.execEscalation s
  | .commitSwap => Sys2Proof.Machine.execCommitSwap s
  | .shadowCopyEnd => Sys2Proof.Machine.execShadowCopyEnd s
  | .windowBoundary => Sys2Proof.Machine.execWindowBoundary s
  | .tbRefLoss => Sys2Proof.Machine.execTbRefLoss s
  | .tbUnlock => Sys2Proof.Machine.execTbUnlock s
  | .refRelock => Sys2Proof.Machine.execRefRelock s
  | .stepAbsolute src => Sys2Proof.Machine.execStepAbsolute src s
  | .stepRelative src => Sys2Proof.Machine.execStepRelative src s
  | .stepPtp => Sys2Proof.Machine.execStepPtp s
  | .stepApply => Sys2Proof.Machine.execStepApply s
  | .fracWrite src frac => Sys2Proof.Machine.execFracWrite src frac s
  | .fracApply => Sys2Proof.Machine.execFracApply s
  | .captureEdge ch src rising => Sys2Proof.Machine.execCaptureEdge ch src rising s
  | .capRead ch => Sys2Proof.Machine.execCapRead ch s
  | .tbNsRead reg => Sys2Proof.Machine.execTbNsRead reg s
  | .lowWordRead off => Sys2Proof.Machine.execLowWordRead off s
  | .rcRead off jtag => Sys2Proof.Machine.execRcRead off jtag s
  | .triggerArm ch action target => Sys2Proof.Machine.execTriggerArm ch action target s
  | .triggerFire ch => Sys2Proof.Machine.execTriggerFire ch s
  | .ppsOutRise => Sys2Proof.Machine.execPpsOutRise s
  | .ppsOutFall => Sys2Proof.Machine.execPpsOutFall s
  | .ptpMessageRx m => Sys2Proof.Machine.execPtpMessageRx m s
  | .ptpMessageTx kind => Sys2Proof.Machine.execPtpMessageTx kind s
  | .ptpMasterLost portState => Sys2Proof.Machine.execPtpMasterLost portState s
  | .linkUp p => Sys2Proof.Machine.execLinkUp p s
  | .linkDown p => Sys2Proof.Machine.execLinkDown p s
  | .trainingTimeout p => Sys2Proof.Machine.execTrainingTimeout p s
  | .trainingRetry p => Sys2Proof.Machine.execTrainingRetry p s
  | .linkRetrain p => Sys2Proof.Machine.execLinkRetrain p s
  | .cyclicFrameRx f => Sys2Proof.Machine.execCyclicFrameRx f s
  | .cbDrift p => Sys2Proof.Machine.execCbDrift p s
  | .quarantine p => Sys2Proof.Machine.execQuarantine p s
  | .acyclicFrameRx f => Sys2Proof.Machine.execAcyclicFrameRx f s
  | .referenceFrameRx f => Sys2Proof.Machine.execReferenceFrameRx f s
  | .delayResponseRx f => Sys2Proof.Machine.execDelayResponseRx f s
  | .joinAnnounceRx f => Sys2Proof.Machine.execJoinAnnounceRx f s
  | .joinValidRx f => Sys2Proof.Machine.execJoinValidRx f s
  | .twinFrameRx f => Sys2Proof.Machine.execTwinFrameRx f s
  | .echoFrameRx f => Sys2Proof.Machine.execEchoFrameRx f s
  | .macsecChangeover p => Sys2Proof.Machine.execMacsecChangeover p s
  | .rxSaRetire p => Sys2Proof.Machine.execRxSaRetire p s
  | .slotLaunch sl => Sys2Proof.Machine.execSlotLaunch sl s
  | .acyclicLaunch p => Sys2Proof.Machine.execAcyclicLaunch p s
  | .acycWindowEnd p => Sys2Proof.Machine.execAcycWindowEnd p s
  | .referenceLaunch p => Sys2Proof.Machine.execReferenceLaunch p s
  | .partnerActivate p => Sys2Proof.Machine.execPartnerActivate p s
  | .cbJoinTimeout p => Sys2Proof.Machine.execCbJoinTimeout p s
  | .slotMissing sl => Sys2Proof.Machine.execSlotMissing sl s
  | .slotSelect sl => Sys2Proof.Machine.execSlotSelect sl s
  | .dpSample m => Sys2Proof.Machine.execDpSample m s
  | .dpEdge m a b => Sys2Proof.Machine.execDpEdge m a b s
  | .hallEdge m uvw => Sys2Proof.Machine.execHallEdge m uvw s
  | .indexEvent m => Sys2Proof.Machine.execIndexEvent m s
  | .ssiFrameStart m => Sys2Proof.Machine.execSsiFrameStart m s
  | .ssiFrameEnd m => Sys2Proof.Machine.execSsiFrameEnd m s
  | .feedbackUpdate n => Sys2Proof.Machine.execFeedbackUpdate n s
  | .fbLost n => Sys2Proof.Machine.execFbLost n s
  | .fbStandstill n => Sys2Proof.Machine.execFbStandstill n s
  | .eoEnable k => Sys2Proof.Machine.execEoEnable k s
  | .mpy4 tl lanes cond xa yq => Sys2Proof.Machine.execMpy4 tl lanes cond xa yq s
  | .mac4 tl lanes cond xa yq => Sys2Proof.Machine.execMac4 tl lanes cond xa yq s
  | .msu4 tl lanes cond xa yq => Sys2Proof.Machine.execMsu4 tl lanes cond xa yq s
  | .ftap tl lane sub xa ya => Sys2Proof.Machine.execFtap tl lane sub xa ya s
  | .lda tl lanes cond space addr shl quad => Sys2Proof.Machine.execLda tl lanes cond space addr shl quad s
  | .st tl lanes cond space addr shr quad => Sys2Proof.Machine.execSt tl lanes cond space addr shr quad s
  | .adda tl dst src cond => Sys2Proof.Machine.execAdda tl dst src cond s
  | .suba tl dst src cond => Sys2Proof.Machine.execSuba tl dst src cond s
  | .mova tl dst src cond => Sys2Proof.Machine.execMova tl dst src cond s
  | .clamp tl lanes ya shl => Sys2Proof.Machine.execClamp tl lanes ya shl s
  | .tst tl space addr bit inv => Sys2Proof.Machine.execTst tl space addr bit inv s
  | .clr tl lanes => Sys2Proof.Machine.execClr tl lanes s
  | .tlNop tl => Sys2Proof.Machine.execTlNop tl s
  | .tlEnd tl => Sys2Proof.Machine.execTlEnd tl s
  | .tlSatTime tl => Sys2Proof.Machine.execTlSatTime tl s
  | .preloadFallbackStart tl => Sys2Proof.Machine.execPreloadFallbackStart tl s
  | .preloadComplete tl => Sys2Proof.Machine.execPreloadComplete tl s
  | .scrubRead mem => Sys2Proof.Machine.execScrubRead mem s
  | .armServoOn d => Sys2Proof.Machine.execArmServoOn d s
  | .armServoStop d => Sys2Proof.Machine.execArmServoStop d s
  | .armServoResume d => Sys2Proof.Machine.execArmServoResume d s
  | .armServoReset d => Sys2Proof.Machine.execArmServoReset d s
  | .armServoApply g => Sys2Proof.Machine.execArmServoApply g s
  | .standstillReached g => Sys2Proof.Machine.execStandstillReached g s
  | .ss1TimeoutExpiry g => Sys2Proof.Machine.execSs1TimeoutExpiry g s
  | .generatorSample g => Sys2Proof.Machine.execGeneratorSample g s
  | .movePlan g => Sys2Proof.Machine.execMovePlan g s
  | .velocityWordLoad k => Sys2Proof.Machine.execVelocityWordLoad k s
  | .stkRdyChange k rdy => Sys2Proof.Machine.execStkRdyChange k rdy s
  | .axinLevelChange n level => Sys2Proof.Machine.execAxinLevelChange n level s
  | .mpChatter n => Sys2Proof.Machine.execMpChatter n s
  | .homeShift g => Sys2Proof.Machine.execHomeShift g s
  | .solveEnd e => Sys2Proof.Machine.execSolveEnd e s
  | .solveCut e phase iter => Sys2Proof.Machine.execSolveCut e phase iter s
  | .svStopReq e => Sys2Proof.Machine.execSvStopReq e s
  | .forceColdWrite e => Sys2Proof.Machine.execForceColdWrite e s
  | .sepProtectionEnd faults => Sys2Proof.Machine.execSepProtectionEnd faults s
  | .sepRowsEnd => Sys2Proof.Machine.execSepRowsEnd s
  | .sepGeomFail => Sys2Proof.Machine.execSepGeomFail s
  | .bvPoseStart => Sys2Proof.Machine.execBvPoseStart s
  | .bvComparison => Sys2Proof.Machine.execBvComparison s
  | .sepBvMissed => Sys2Proof.Machine.execSepBvMissed s
  | .bvDelayExpiry g => Sys2Proof.Machine.execBvDelayExpiry g s
  | .sepBvSs1 g => Sys2Proof.Machine.execSepBvSs1 g s
  | .schedulerTick => Sys2Proof.Machine.execSchedulerTick s
  | .taskReleaseCycle ix => Sys2Proof.Machine.execTaskReleaseCycle ix s
  | .taskReleaseDemand ix => Sys2Proof.Machine.execTaskReleaseDemand ix s
  | .jobDispatchReserved ix => Sys2Proof.Machine.execJobDispatchReserved ix s
  | .edfRound => Sys2Proof.Machine.execEdfRound s
  | .deadlineMiss ix => Sys2Proof.Machine.execDeadlineMiss ix s
  | .meMoveCopy c m => Sys2Proof.Machine.execMeMoveCopy c m s
  | .meMovePack c m => Sys2Proof.Machine.execMeMovePack c m s
  | .meMoveUnpack c m => Sys2Proof.Machine.execMeMoveUnpack c m s
  | .meLoop c target count => Sys2Proof.Machine.execMeLoop c target count s
  | .meWaitSlot c index num => Sys2Proof.Machine.execMeWaitSlot c index num s
  | .meWaitTiller c index num => Sys2Proof.Machine.execMeWaitTiller c index num s
  | .meWaitTime c offset => Sys2Proof.Machine.execMeWaitTime c offset s
  | .meWaitBoundary c solver => Sys2Proof.Machine.execMeWaitBoundary c solver s
  | .meWaitFlag c ch => Sys2Proof.Machine.execMeWaitFlag c ch s
  | .meWaitComplete c => Sys2Proof.Machine.execMeWaitComplete c s
  | .meBarrierRelease c => Sys2Proof.Machine.execMeBarrierRelease c s
  | .meSignalHandover c slot => Sys2Proof.Machine.execMeSignalHandover c slot s
  | .meSignalFlag c ch => Sys2Proof.Machine.execMeSignalFlag c ch s
  | .meSignalEvent c index => Sys2Proof.Machine.execMeSignalEvent c index s
  | .meSignalDone c => Sys2Proof.Machine.execMeSignalDone c s
  | .meCtrlStart d => Sys2Proof.Machine.execMeCtrlStart d s
  | .meCtrlAbort d => Sys2Proof.Machine.execMeCtrlAbort d s
  | .meCtrlReset d => Sys2Proof.Machine.execMeCtrlReset d s
  | .sqDoorbell q tail => Sys2Proof.Machine.execSqDoorbell q tail s
  | .cqDoorbell c idx => Sys2Proof.Machine.execCqDoorbell c idx s
  | .sqEnable q => Sys2Proof.Machine.execSqEnable q s
  | .sqDisable q => Sys2Proof.Machine.execSqDisable q s
  | .cqEnable c => Sys2Proof.Machine.execCqEnable c s
  | .cqDisable c => Sys2Proof.Machine.execCqDisable c s
  | .descriptorFetch q words => Sys2Proof.Machine.execDescriptorFetch q words s
  | .msixMessage c => Sys2Proof.Machine.execMsixMessage c s
  | .hostReset => Sys2Proof.Machine.execHostReset s
  | .bar0BadAccess write => Sys2Proof.Machine.execBar0BadAccess write s
  | .regWrite off val => Sys2Proof.Machine.execRegWrite off val s
  | .nop d => Sys2Proof.Machine.execNop d s
  | .paramWrite d data => Sys2Proof.Machine.execParamWrite d data s
  | .commit d => Sys2Proof.Machine.execCommit d s
  | .snapshot d restarts => Sys2Proof.Machine.execSnapshot d restarts s
  | .imageLoad d => Sys2Proof.Machine.execImageLoad d s
  | .selfTest d => Sys2Proof.Machine.execSelfTest d s
  | .offlineSolve d => Sys2Proof.Machine.execOfflineSolve d s
  | .bbDump d => Sys2Proof.Machine.execBbDump d s
  | .fwUpdate d => Sys2Proof.Machine.execFwUpdate d s
  | .longAbort d => Sys2Proof.Machine.execLongAbort d s
  | .longOpStatusUpdate d progress total part w7 => Sys2Proof.Machine.execLongOpStatusUpdate d progress total part w7 s
  | .longOpEnd d r => Sys2Proof.Machine.execLongOpEnd d r s
  | .move d => Sys2Proof.Machine.execMove d s
  | .moveGroup d targets => Sys2Proof.Machine.execMoveGroup d targets s
  | .abort d => Sys2Proof.Machine.execAbort d s
  | .home d => Sys2Proof.Machine.execHome d s
  | .mpClear d => Sys2Proof.Machine.execMpClear d s
  | .fbClear d => Sys2Proof.Machine.execFbClear d s
  | .macsecKey d => Sys2Proof.Machine.execMacsecKey d s
  | .macsecKek d => Sys2Proof.Machine.execMacsecKek d s
  | .partnerRelease d => Sys2Proof.Machine.execPartnerRelease d s
  | .partnerQuarantine d => Sys2Proof.Machine.execPartnerQuarantine d s
  | .acyclicSend d payload => Sys2Proof.Machine.execAcyclicSend d payload s
  | .acyclicRecv d => Sys2Proof.Machine.execAcyclicRecv d s
  | .twCmdHandover d => Sys2Proof.Machine.execTwCmdHandover d s
  | .twCmdSwitchBack d => Sys2Proof.Machine.execTwCmdSwitchBack d s
  | .twCmdAlign d => Sys2Proof.Machine.execTwCmdAlign d s
  | .twCmdRepair d => Sys2Proof.Machine.execTwCmdRepair d s
  | .evCmdFreeze d => Sys2Proof.Machine.execEvCmdFreeze d s
  | .evCmdUnfreeze d => Sys2Proof.Machine.execEvCmdUnfreeze d s
  | .evCmdAck d => Sys2Proof.Machine.execEvCmdAck d s
  | .evCmdMark d => Sys2Proof.Machine.execEvCmdMark d s
  | .evCmdClear d => Sys2Proof.Machine.execEvCmdClear d s
  | .evCmdClearFatal d => Sys2Proof.Machine.execEvCmdClearFatal d s
  | .evCmdBbRelease d => Sys2Proof.Machine.execEvCmdBbRelease d s
  | .evCmdBbErase d => Sys2Proof.Machine.execEvCmdBbErase d s
  | .injCmdLoadKey d => Sys2Proof.Machine.execInjCmdLoadKey d s
  | .injCmdClearKey d => Sys2Proof.Machine.execInjCmdClearKey d s
  | .injCmdArm d => Sys2Proof.Machine.execInjCmdArm d s
  | .injCmdDisarm d => Sys2Proof.Machine.execInjCmdDisarm d s
  | .injCmdDisarmAll d => Sys2Proof.Machine.execInjCmdDisarmAll d s
  | .cellEnable => Sys2Proof.Machine.execCellEnable s
  | .enableCheckEnd us => Sys2Proof.Machine.execEnableCheckEnd us s
  | .cellDisable => Sys2Proof.Machine.execCellDisable s
  | .disableComplete => Sys2Proof.Machine.execDisableComplete s
  | .disableTimeout => Sys2Proof.Machine.execDisableTimeout s
  | .leaseTx => Sys2Proof.Machine.execLeaseTx s
  | .leaseRx f => Sys2Proof.Machine.execLeaseRx f s
  | .ackTx => Sys2Proof.Machine.execAckTx s
  | .ackRx f => Sys2Proof.Machine.execAckRx f s
  | .claimRx f => Sys2Proof.Machine.execClaimRx f s
  | .releaseRx f => Sys2Proof.Machine.execReleaseRx f s
  | .xferRx f => Sys2Proof.Machine.execXferRx f s
  | .syncExchange p sent => Sys2Proof.Machine.execSyncExchange p sent s
  | .syncRx f => Sys2Proof.Machine.execSyncRx f s
  | .statusTx => Sys2Proof.Machine.execStatusTx s
  | .statusRx f => Sys2Proof.Machine.execStatusRx f s
  | .echoTx p => Sys2Proof.Machine.execEchoTx p s
  | .renewalToken => Sys2Proof.Machine.execRenewalToken s
  | .leaseExpiry => Sys2Proof.Machine.execLeaseExpiry s
  | .releasedHolderTimeout => Sys2Proof.Machine.execReleasedHolderTimeout s
  | .twHandoverSwitch => Sys2Proof.Machine.execTwHandoverSwitch s
  | .twinPeerOff => Sys2Proof.Machine.execTwinPeerOff s
  | .transferTimeout => Sys2Proof.Machine.execTransferTimeout s
  | .twPaired => Sys2Proof.Machine.execTwPaired s
  | .twDigestMissing => Sys2Proof.Machine.execTwDigestMissing s
  | .twEchoLost p => Sys2Proof.Machine.execTwEchoLost p s
  | .switchbackHoldoff => Sys2Proof.Machine.execSwitchbackHoldoff s
  | .eventInputPost => Sys2Proof.Machine.execEventInputPost s
  | .recordStore => Sys2Proof.Machine.execRecordStore s
  | .evFreezeTimeout => Sys2Proof.Machine.execEvFreezeTimeout s
  | .evCursorWrite seq => Sys2Proof.Machine.execEvCursorWrite seq s
  | .eventInterrupt => Sys2Proof.Machine.execEventInterrupt s
  | .pretriggerMove => Sys2Proof.Machine.execPretriggerMove s
  | .orangeryCommitRecord => Sys2Proof.Machine.execOrangeryCommitRecord s
  | .bbEscOnly => Sys2Proof.Machine.execBbEscOnly s
  | .powerLossSnapshot => Sys2Proof.Machine.execPowerLossSnapshot s
  | .evFreezeDbg hold => Sys2Proof.Machine.execEvFreezeDbg hold s
  | .evReadDbg seq => Sys2Proof.Machine.execEvReadDbg seq s
  | .bbReadDbg sect offset => Sys2Proof.Machine.execBbReadDbg sect offset s
  | .bbResponderRequest sect offset => Sys2Proof.Machine.execBbResponderRequest sect offset s
  | .adcConversionEnd nv => Sys2Proof.Machine.execAdcConversionEnd nv s
  | .adLimit e => Sys2Proof.Machine.execAdLimit e s
  | .adcUrgentRequest e => Sys2Proof.Machine.execAdcUrgentRequest e s
  | .adcResRead e => Sys2Proof.Machine.execAdcResRead e s
  | .safetyInputChange ch level => Sys2Proof.Machine.execSafetyInputChange ch level s
  | .safetyDiscrepancy ix => Sys2Proof.Machine.execSafetyDiscrepancy ix s
  | .estopSs1Expiry => Sys2Proof.Machine.execEstopSs1Expiry s
  | .stoReadbackMismatch p chB readsHigh => Sys2Proof.Machine.execStoReadbackMismatch p chB readsHigh s
  | .stoTestPulse p okA okB => Sys2Proof.Machine.execStoTestPulse p okA okB s
  | .globalRelease => Sys2Proof.Machine.execGlobalRelease s
  | .ioWdog => Sys2Proof.Machine.execIoWdog s
  | .wedgeSafeBoundary => Sys2Proof.Machine.execWedgeSafeBoundary s
  | .powerOn => Sys2Proof.Machine.execPowerOn s
  | .pinReset => Sys2Proof.Machine.execPinReset s
  | .softReset key => Sys2Proof.Machine.execSoftReset key s
  | .powerFailSignal cause => Sys2Proof.Machine.execPowerFailSignal cause s
  | .pwSupply supply good => Sys2Proof.Machine.execPwSupply supply good s
  | .resetRelease => Sys2Proof.Machine.execResetRelease s
  | .timeIslandLock f => Sys2Proof.Machine.execTimeIslandLock f s
  | .memoryClearComplete => Sys2Proof.Machine.execMemoryClearComplete s
  | .secureBootComplete slot0 slot1 ms => Sys2Proof.Machine.execSecureBootComplete slot0 slot1 ms s
  | .pwVr pgood vddcOut => Sys2Proof.Machine.execPwVr pgood vddcOut s
  | .holdupOkSet => Sys2Proof.Machine.execHoldupOkSet s
  | .pwHoldupLow => Sys2Proof.Machine.execPwHoldupLow s
  | .islandPowerOff ix => Sys2Proof.Machine.execIslandPowerOff ix s
  | .islandPowerOn ix => Sys2Proof.Machine.execIslandPowerOn ix s
  | .forceOffWrite reg val => Sys2Proof.Machine.execForceOffWrite reg val s
  | .pwIslandForced ix => Sys2Proof.Machine.execPwIslandForced ix s
  | .pwMgmtWdog => Sys2Proof.Machine.execPwMgmtWdog s
  | .pwNvosc => Sys2Proof.Machine.execPwNvosc s
  | .nvOscStop => Sys2Proof.Machine.execNvOscStop s
  | .tempReading tj => Sys2Proof.Machine.execTempReading tj s
  | .upConditionsChange p q => Sys2Proof.Machine.execUpConditionsChange p q s
  | .localRemoteFault p f => Sys2Proof.Machine.execLocalRemoteFault p f s
  | .vddnvLoss => Sys2Proof.Machine.execVddnvLoss s

end Sys2Proof.Machine
end

