-- ==== Sys2Proof/Machine/Step.lean ====
section
/-! DEFINITION. One step: the command at the front of the queue acts on the machine; with no command waiting the block
idles. -/
namespace Sys2Proof.Machine

/-- Put a command at the front of the queue. -/
def State.withFront (s : State) (i : Instr) : State := { s with pending := i :: s.pending }

/-- `s` with the command that a word of the command table spells at the front of its queue; unchanged where the word
spells none. -/
def State.withFetchWord (s : State) (nbits w : Nat) : State :=
  match Sys2Proof.decodeTableWord nbits w with
  | some i => s.withFront i
  | none => s

/-- Take the command at the front of the queue and answer what it does to the machine with the queue's rest. -/
def step (s : State) : Host.Outcome State Fault Refusal :=
  match s.pending with
  | [] => .next s
  | i :: rest => exec i { s with pending := rest }

end Sys2Proof.Machine
end

