-- ==== Sys2Proof/Safety.lean ====
section
/-! DEFINITION. The terms in which claims speak: safe runs, the parts of the state, which register bits a field covers, and what
a command may change. -/
namespace Sys2Proof

open Machine

/-- A step answers a next state. -/
def completes (s : State) : Prop := ∃ t, step s = .next t

/-- `n` steps from `s` all answer a next state. -/
def safeFor : Nat → State → Prop
  | 0, _ => True
  | n + 1, s => ∃ t, step s = .next t ∧ safeFor n t

/-- The parts of the state, one for each field of State but the register banks. -/
inductive Part where
  | pending | frozen | posted | escs | tb | grid | once | cb | fb | tl | grp | mp | sv | sep | sch | me | hi | gr | tw | ev
  | bb | inj | ad | sio | pw | arb | free | readData | hiLatch | wrStage | view | flips
  deriving DecidableEq, Repr

/-- A part of the state is the same in `t` as in `s`. -/
def Part.same (s t : State) : Part → Prop
  | .pending => t.pending = s.pending
  | .frozen => t.frozen = s.frozen
  | .posted => t.posted = s.posted
  | .escs => t.escs = s.escs
  | .tb => t.tb = s.tb
  | .grid => t.grid = s.grid
  | .once => t.once = s.once
  | .cb => t.cb = s.cb
  | .fb => t.fb = s.fb
  | .tl => t.tl = s.tl
  | .grp => t.grp = s.grp
  | .mp => t.mp = s.mp
  | .sv => t.sv = s.sv
  | .sep => t.sep = s.sep
  | .sch => t.sch = s.sch
  | .me => t.me = s.me
  | .hi => t.hi = s.hi
  | .gr => t.gr = s.gr
  | .tw => t.tw = s.tw
  | .ev => t.ev = s.ev
  | .bb => t.bb = s.bb
  | .inj => t.inj = s.inj
  | .ad => t.ad = s.ad
  | .sio => t.sio = s.sio
  | .pw => t.pw = s.pw
  | .arb => t.arb = s.arb
  | .free => t.free = s.free
  | .readData => t.readData = s.readData
  | .hiLatch => t.hiLatch = s.hiLatch
  | .wrStage => t.wrStage = s.wrStage
  | .view => t.view = s.view
  | .flips => t.flips = s.flips

/-- Bit `j` of the register at offset `o` of block `b` belongs to an instance of field `f`. -/
def covers (f : Machine.Field) (b : Blk) (o j : Nat) : Prop :=
  f.blk = b ∧ f.lo ≤ j ∧ j ≤ f.hi ∧ ∃ n, n < f.count ∧ f.addr n = o

/-- Every register bit outside the fields of a list is the same in `q` as in `r`. -/
def regsKeep (fs : List Machine.Field) (r q : Machine.Regs) : Prop :=
  ∀ b o j, (∀ f ∈ fs, ¬ covers f b o j) → (q.word b o).getLsbD j = (r.word b o).getLsbD j

/-- Bit `j` of the register at offset `off` of block `b` belongs to no field (R11). -/
def reservedBit (b : Blk) (off j : Nat) : Bool :=
  (mapOf b).all fun f => (f.instAt off).isNone || decide (j < f.lo) || decide (f.hi < j)

/-- Registers in their canonical form, with every reserved bit reading as 0 (R11). -/
def soundRegs (r : Machine.Regs) : Prop :=
  (∀ b, Tab.wf (resetWord b) (r.bank b) = true) ∧ ∀ b off j, reservedBit b off j = true → (r.word b off).getLsbD j = false

/-- The registers and the published copies are sound; both images of the Granary and the host's memory have their canonical form. -/
def Sound (s : State) : Prop :=
  soundRegs s.regs ∧ soundRegs s.frozen ∧ Tab.wf (fun _ => 0) s.gr.front = true ∧ Tab.wf (fun _ => 0) s.gr.back = true
    ∧ Tab.wf (fun _ => 0) s.hi.mem = true

/-- The fields that giving a completion entry writes (R341 to R346). -/
def completionFields : List Machine.Field :=
  [R.HI_STATUS_DMA_ERR, R.HI_STATUS_DESC_ERR, R.HI_SQ_STATUS_HALTED, R.HI_CQ_STATUS_TAIL, R.HI_CQ_STATUS_PHASE,
   R.HI_CQ_STATUS_FULL_STALLS]

/-- The fields that a fault injection's activation writes (R411 to R413). -/
def injectionFields : List Machine.Field :=
  [R.INJ_STAT_ACTIVE, R.INJ_STAT_ARMED, R.INJ_ENTRY_ARMED, R.INJ_ENTRY_REMAIN, R.INJ_FIRED_FIRED]

/-- The fields that an STO assertion writes (R427 to R430). -/
def stoFields : List Machine.Field :=
  [R.TL_JSTAT_JSTATE, R.TL_SAT_ACC, R.AD_STO_STAT_ASSERTED, R.AD_STO_STAT_DRIVE_A, R.AD_STO_STAT_DRIVE_B,
   R.AD_STO_STAT_FB_A, R.AD_STO_STAT_FB_B, R.AD_STO_STAT_CAUSE]

/-- The fields that driving the step axes by their enables writes, an axis treated as if its driver were lost among them (R215). -/
def axisFields : List Machine.Field :=
  [R.MP_STAT_STATE, R.MP_STAT_HOMED, R.MP_STAT_QUEUE, R.MP_STAT_CAUSE, R.MP_STAT_HOME_RESULT, R.MP_POS_LO,
   R.MP_POS_HI, R.MP_VEL_LO, R.MP_VEL_HI, R.MP_ACC_LO, R.MP_ACC_HI, R.MP_TGT_LO, R.MP_TGT_HI, R.MP_COUNT_ABORTS,
   R.ST_STAT_RDY, R.ST_STAT_EN_OUT, R.ST_STAT_DIR, R.ST_STAT_PENDING, R.ST_VWORD_LO, R.ST_VWORD_HI_V, R.ST_STEP_LO,
   R.ST_STEP_HI_STEPS, R.ST_COUNT_DRV_LOST, R.HI_STATUS_DMA_ERR, R.HI_STATUS_DESC_ERR, R.HI_SQ_STATUS_HALTED,
   R.HI_CQ_STATUS_TAIL, R.HI_CQ_STATUS_PHASE, R.HI_CQ_STATUS_FULL_STALLS]

/-- The fields that the MACsec check of a received frame writes (R86 to R90). -/
def macsecFields : List Machine.Field :=
  [R.CB_MACSEC_STATUS_TX_AN, R.CB_MACSEC_STATUS_RX_AN_VALID, R.CB_MACSEC_STATUS_TX_SA_VALID,
   R.CB_MACSEC_STATUS_PN_HIGH, R.CB_MACSEC_STATUS_PN_EXHAUSTED, R.CB_RX_PN]

/-- The status fields of a profile generator (R199 to R223). -/
def motionFields : List Machine.Field :=
  [R.MP_STAT_STATE, R.MP_STAT_HOMED, R.MP_STAT_QUEUE, R.MP_STAT_CAUSE, R.MP_STAT_HOME_RESULT, R.MP_POS_LO,
   R.MP_POS_HI, R.MP_VEL_LO, R.MP_VEL_HI, R.MP_ACC_LO, R.MP_ACC_HI, R.MP_TGT_LO, R.MP_TGT_HI, R.MP_COUNT_ABORTS]

/-- The fields that record where a move-engine program stopped (R330 to R333). -/
def residueFields : List Machine.Field :=
  [R.ME_RESIDUE_A_IADDR, R.ME_RESIDUE_A_STREAM, R.ME_RESIDUE_A_ELEM, R.ME_RESIDUE_A_REASON, R.ME_RESIDUE_B_REMAIN,
   R.ME_RESIDUE_B_CYCLE]

/-- The fields that starting a solve writes (R241, R260 to R263). -/
def solveFields : List Machine.Field :=
  [R.TL_STAT_STATE, R.SV_SOLVES, R.SV_HASH, R.SV_RT_COUNT_A_COLD, R.SV_RT_COUNT_B_GRANT_REFUSED]

/-- The status fields of the event recorder (R391 to R398). -/
def recorderFields : List Machine.Field :=
  [R.EV_STAT_USED_KIB, R.EV_STAT_FATAL_KIB, R.EV_STAT_HOLD_USED, R.EV_SEQ_FIRST, R.EV_SEQ_LAST,
   R.EV_DROPS_A_FULL_DROP, R.EV_DROPS_B_HOLD_DROP, R.EV_DROPS_B_FATAL_DROP]

/-- The fields that receiving a cell-bus frame writes beside those of MACsec, injection and completion (R83 to R126). -/
def receiveFields : List Machine.Field :=
  [R.CB_ETHERTYPE_ETYPE, R.CB_ERR_A_FCS_ERR, R.CB_ERR_A_LEN_ERR, R.CB_ERR_B_UNPROTECTED, R.CB_ERR_B_MACSEC_AUTH,
   R.CB_ERR_C_MACSEC_REPLAY, R.CB_ERR_C_NON_RYFOID, R.CB_ERR_D_HDR_ERR, R.CB_ERR_D_PCRC_ERR, R.CB_ERR_E_SRC_ERR,
   R.CB_ERR_E_OWN_ERR, R.CB_ERR_F_POLICE_DROP, R.CB_ERR_F_QUAR_DROP, R.CB_ERR_G_PAUSE_RX, R.CB_RX_FRAMES,
   R.CB_PT_STATE_STATE, R.CB_PT_STATE_QCAUSE, R.CB_PT_STATE_FALLBACK, R.CB_PT_STATE_ALARM, R.CB_PT_STATE_EPOCH_SEEN,
   R.CB_PT_DELAY_DELAY, R.CB_PT_COUNT_OWN_VIOL, R.CB_PT_COUNT_POLICE_DROP, R.CB_PS_SYNC_SYNC_MODE,
   R.CB_PS_SYNC_TIMED_CAPABLE, R.CB_PS_WIN_EDGE_COUNT, R.CB_PS_WIN_EDGE_WIN, R.CB_PS_WIN_MISS_RUN,
   R.CB_PS_MISS_OUTSIDE, R.CB_PS_MISS_LAYOUT_STALE, R.MP_STAT_HOMED, R.TW_STATE_STATE, R.TW_STATE_LAST_CAUSE,
   R.TW_STATE_PATH_OK, R.TW_EPOCH_EPOCH, R.TW_EPOCH_STORED, R.TW_COUNT_B_SUPERSEDED, R.TW_ECHO_DELAY_DELAY]

/-- `t` differs from `s` only in the parts `ps` and the register fields `fs`. -/
def Changes (ps : List Part) (fs : List Machine.Field) (s t : State) : Prop :=
  (∀ p, p ∉ ps → p.same s t) ∧ regsKeep fs s.regs t.regs

/-- `t` differs from `s` only in the parts `ps` and, in any way, in the registers. -/
def Disturbs (ps : List Part) (s t : State) : Prop := ∀ p, p ∉ ps → p.same s t

/-- Command `i` always completes and changes at most the parts `ps` and the register fields `fs`. -/
def Touches (i : Instr) (ps : List Part) (fs : List Machine.Field) : Prop :=
  ∀ s, ∃ t, exec i s = .next t ∧ Changes ps fs s t

/-- The action of the open descriptor `e` of name `d` can start (R345, R346): `e` has opcode `op`, has not started, its
fences are met, and the device is not in recovery. -/
def Ready (s : State) (d : DescId) (op : Nat) (e : Desc) : Prop :=
  s.desc? (dkey d) = some e ∧ e.bits 0 7 0 = op ∧ e.started = false ∧ s.fencesMet e = true ∧ s.recovery = false

/-- The descriptor `e` is open no longer: its action is over and its entry given to its ring, or left out. -/
def Closed (e : Desc) (t : State) : Prop := ∀ x ∈ t.hi.descs, x.key ≠ e.key ∨ x.index ≠ e.index

end Sys2Proof
end

