-- ==== Sys2Proof/Certificates/Slice0/Obligations.lean ====
section
/-! DEFINITION. The obligations: what the rules of the spec say that the commands do, for every family of commands and every kind of state. -/
namespace Sys2Proof
open Machine

/-- The commands that bring a frame to a CB port. -/
def receptions (f : Frame) : List Instr :=
  [.cyclicFrameRx f, .acyclicFrameRx f, .referenceFrameRx f, .delayResponseRx f, .joinAnnounceRx f, .joinValidRx f, .twinFrameRx f,
   .echoFrameRx f]

/-- Tiller `n` has gone on by one instruction, and in each lane that COND and LANES select its accumulator holds `v`, modulo 2^72; the
other accumulators hold what they held. -/
def Lanes (s t : State) (n : Nat) (lanes : BitVec 4) (cond : BitVec 3) (v : Nat → Int) : Prop :=
  (t.til n).pc = (s.til n).pc + 1 ∧ ∀ i, i < 4 → (t.til n).acc.get i =
    if i ∈ (s.til n).active lanes cond then BitVec.ofInt 72 (v i) else (s.til n).acc.get i

/-- The Tiller an instruction is of. -/
def tillerOf : Instr → Option (Fin 64)
  | .mpy4 n .. | .mac4 n .. | .msu4 n .. | .ftap n .. | .lda n .. | .st n .. | .adda n .. | .suba n .. | .mova n .. | .clamp n ..
  | .tst n .. | .clr n .. | .tlNop n => some n
  | _ => none

/-- No stored word of Tiller `n` is wrong, and no injection key is loaded. -/
def Clean (s : State) (n : Nat) : Prop := s.bit R.INJ_STAT_KEY_LOADED = false ∧ (s.til n).flips = []

/-- The tick of the last accepted transition of input `n`; 0 before any. -/
def axinSince (s : State) (n : Nat) : Nat := ((s.axinTimes n).getLast?.map fun t => t.2).getD 0

/-- The whole solve of engine `e`, whose inputs have passed the range check. -/
def solveOf (s : State) (e : Nat) : SolveRes × Calc Kept := (s.updEng e fun y => { y with paramCheck := false }).runSolve e none

/-- The outcome `n` when the plan is formed, or 5 when its torques overflow (R240). -/
def unlessOvf (p : Calc Kept) (n : Nat) : Nat :=
  match p with
  | .ok _ => n
  | .error _ => 5

/-- The outcome (R249) of a solve with a result; a cut's by the phase in which it stopped (R255). -/
def solveOutcome (s : State) (e : Nat) (phase : CutPhase) (r : SolveRes × Calc Kept) : Nat :=
  match r.1.exit with
  | .converged => unlessOvf r.2 0
  | .budget => if s.accepts e r.1 then unlessOvf r.2 1 else 8
  | .infeasible .. => 3
  | .overflow _ => 5
  | .cut =>
    match phase with
    | .former => 9
    | .factor => 6
    | .step => if s.accepts e r.1 then unlessOvf r.2 2 else 7

/-- The status, the runs and the plan that engine `e` has after an outcome (R251, R252, R266, R267): a solved one keeps its plan and ends
both runs; any other adds to FB_RUN, only INFEASIBLE to INF_RUN, and an arm engine that has solved keeps the plan it had prepared. -/
def Kept.after (s t : State) (e outcome : Nat) (p : Calc Kept) : Prop :=
  t.get R.SV_STATUS e % 16 = outcome ∧ if outcome < 3
    then (∀ k, p = .ok k → (t.eng e).kept = some k) ∧ (t.eng e).fbRun = 0 ∧ (t.eng e).infRun = 0 ∧ (t.eng e).solvedOnce = true
    else (t.eng e).kept.isSome = true ∧ (e < 8 → (s.eng e).solvedOnce = true → (t.eng e).kept = some (s.eng e).prep) ∧
      (t.eng e).fbRun = (s.eng e).fbRun + 1 ∧ (t.eng e).infRun = if outcome = 3 then (s.eng e).infRun + 1 else 0

/-- The solve of engine `e` runs on scratch words without errors, its deadline is not past, and nothing is injected. -/
def Solving (s : State) (e : Nat) : Prop :=
  (s.eng e).running = true ∧ s.pastDeadline e = false ∧ s.scratchHits e = [] ∧ s.bit R.INJ_STAT_KEY_LOADED = false

/-- The words of the row area of the only arm `a`: its rows, then inactive ones up to SEP_ROWS. -/
def rowArea (s : State) (a : Nat) : List Word :=
  let rows := s.rowsFor [s.armPose a] (s.armPose a)
  (rows ++ List.replicate (s.sepRowCount a - rows.length) (List.replicate (s.armJoints a + 3) 0)).flatten

/-- What one unit of a MOVE writes: the bytes it read, as its mode arranges them, each string at its address (R319, R320). -/
def unitWrites (s : State) (c mode : Nat) (m : MoveOp) (u : MeUnit) : State :=
  (u.writes.zip (unitData mode m (u.reads.map fun a => s.meRead c a u.rlen))).foldl (fun t w => t.meWrite c w.1 w.2) s

/-- `t` is what a MOVE of the one unit `u` on channel `c` leaves of `s`: the written bytes, and the channel at the next instruction, behind
its barrier if the MOVE has one. -/
def Moved (s t : State) (c mode : Nat) (m : MoveOp) (u : MeUnit) : Prop :=
  t.gr = (unitWrites s c mode m u).gr ∧ t.tl = (unitWrites s c mode m u).tl ∧ t.cb = (unitWrites s c mode m u).cb ∧
    t.get R.ME_STATE_IADDR c = (s.get R.ME_STATE_IADDR c + 5) % 4096 ∧ (t.me1 c).barrier = m.barrier ∧ (t.me1 c).cursor = 0

/-- No word of any protected memory holds a wrong bit. -/
def NoErrors (s : State) : Prop := s.flips = [] ∧ ∀ n, (s.til n).flips = []

/-- A good twin message of kind `k` that is no second copy of the last one taken (R369). -/
def twFirst (s : State) (f : Frame) (k : Nat) : Bool := s.twGood f k && !s.twSecond f k

/-- A second copy was counted, and the twin's state is otherwise as it was (R369). -/
def Copied (s t : State) : Prop :=
  t.tw = { s.tw with lastMsg := t.tw.lastMsg, rxLast := t.tw.rxLast, copies := s.tw.copies + 1 } ∧ t.twState = s.twState ∧ t.peer = s.peer

/-- The records pending at the event input, in the order in which they are served: a round that begins orders them all (R36, R39). -/
def inputOrder (s : State) : List EvRec := if s.ev.round = 0 then orderBy (fun a b => arbBefore (evReq a) (evReq b)) s.posted else s.posted

/-- An arm group that no reaction can stop yet holds an escalation until its event is acknowledged (R25), once for each event and reaction. -/
def holds (r : Group) (e : Esc) : Group :=
  if r.held.any fun x => x.code == e.code && x.inst == e.inst && x.react == e.react then r else { r with held := r.held ++ [e] }

/-- What the check bits of a protected word say (R178): no error, a single-bit error, or an uncorrectable one. -/
def wordFound (s : State) : ScrubMem → Option Bool
  | .tiller n k a => (s.til n.val).found k a
  | m => s.found m

/-- A word of a Tiller's memories: its program, X, Y, its windows, Y[127]. -/
def tilWord (t : Tiller) (k a : Nat) : Word :=
  match k with
  | 0 => Tab.get (fun _ => 0) t.prog a
  | 1 => Tab.get (fun _ => 0) t.x a
  | 2 => Tab.get (fun _ => 0) t.y a
  | 3 => Tab.get (fun _ => 0) t.win0 a
  | 4 => Tab.get (fun _ => 0) t.win1 a
  | _ => t.y127

end Sys2Proof

open Sys2Proof Sys2Proof.Machine

/-- A step takes the command at the front of the queue and answers what it does to the machine with the queue's rest; no command adds to the
queue or takes from it, so the rest stays in order; with an empty queue the block idles (DESIGN CHOICE, log entry 1). -/
def Obligations.StepTakesTheFront : Prop :=
  (∀ c q s, s.pending = c :: q → step s = exec c { s with pending := q }) ∧ (∀ s, s.pending = [] → step s = .next s) ∧
  (∀ s t, step s = .next t → t.pending = s.pending.tail)

/-- A well-formed command always completes; the one stop of the model is a Tiller instruction that the image loader refuses (R169). -/
def Obligations.CommandsComplete : Prop :=
  (∀ i s, i.wf = true → ∃ t, exec i s = .next t) ∧ (∀ i s, i.wf = false → (∃ t, exec i s = .next t) ∨ exec i s = .fault .illegalTillerInsn)

/-- Every step keeps the machine sound: reserved register bits read as 0 (R11), and the register banks, the published copies, both images of
the Granary and the host's memory keep their canonical form. -/
def Obligations.StepsKeepSound : Prop :=
  ∀ s t, Sound s → step s = .next t → Sound t

/-- After reset the machine is sound and its queue is empty, and these hold the values that the register tables and R13, R46, R51, R72,
R101, R308, R437 and R448 give them: the cell is DISABLED; both copies of the counter stand at 0 under FRAC 0, with the step allowance
armed; every port's MODE is 0 and every compatibility mode off; the cycle is 31,250 ns and the solver period 8 cycles; the pace target is
1.650 and the VID code 40; every safe-torque-off pair is asserted with cause 8 and WDOG_OUT is low; the SRAMs and the published copies are
clear. -/
def Obligations.ResetState : Prop :=
  Sound State.reset ∧ State.reset.pending = [] ∧ State.reset.cell = 0 ∧
  State.reset.tb.a = { sec := 0, ns := 0, sub := 0 } ∧ State.reset.tb.b = { sec := 0, ns := 0, sub := 0 } ∧ State.reset.get R.TB_ADDEND_FRAC = 0 ∧
  State.reset.bit R.TB_CORR_STATUS_STEP_ARMED = true ∧ State.reset.bit R.TB_CORR_STATUS_STEPPED = false ∧
  (∀ n, n < 4 → State.reset.get R.CB_PORT_CFG_MODE n = 0) ∧ (∀ n, n < 64 → State.reset.bit R.FB_CFG_COMPAT n = false) ∧
  State.reset.get R.CB_CYCLE_NS = 31250 ∧ State.reset.get R.CB_ETHERTYPE_ETYPE = 0x88B5 ∧ State.reset.get R.TW_ETHERTYPE_ETYPE = 0x88B6 ∧
  State.reset.get R.SCH_CFG_SOLVER_CYC = 8 ∧ State.reset.get R.PW_SUNDIAL_TARGET_TARGET = 0x1A66 ∧ State.reset.get R.PW_SUNDIAL_STAT_VID = 40 ∧
  State.reset.get R.PW_TEMP_CFG_TJ_WARN = 100 ∧
  (∀ p, p < 10 → State.reset.bit R.AD_STO_STAT_ASSERTED p = true ∧ State.reset.get R.AD_STO_STAT_CAUSE p = 0x100) ∧ State.reset.sio.wdogOut = false ∧
  State.reset.gr.front = [] ∧ State.reset.gr.back = [] ∧ State.reset.frozen = {} ∧ State.reset.posted = [] ∧ State.reset.hi.descs = []

/-- A program word of the Tiller (R167, R168) holds every operand of a well-formed instruction: decoding the word that encodes the
instruction gives it back, and a word that decodes at all (R169) is the encoding of the well-formed instruction it decodes to. -/
def Obligations.TillerWords : Prop :=
  (∀ i w, i.wf = true → tillerEncode i = some w → ∃ n, tillerDecode n w = some i) ∧
  (∀ n w i, tillerDecode n w = some i → i.wf = true ∧ tillerEncode i = some w)

/-- R11. Whatever a sound register holds, a read returns 0 in its reserved bits, and a write of any word, with any reserved bit set, leaves
every reserved bit of every register at 0. -/
def Obligations.ReservedFields : Prop :=
  (∀ off j jtag s, Sound s → off % 4 = 0 → off < 0x200000 → ¬ (0x108000 ≤ off ∧ off < 0x108400) → off ≠ 0x109000 → off ≠ 0x109004 → nsRegAt off = none →
    R.TB_CAP_NS_NS.instAt off = none → R.AD_RES.instAt off = none → Tab.get (fun _ => none) s.hiLatch off = none → reservedBit (blkOf (s.place off)) (s.place off) j = true →
    (∃ t, exec (.rcRead off jtag) s = .next t ∧ t.readData.getLsbD j = false) ∧ (∃ t, exec (.lowWordRead off) s = .next t ∧ t.readData.getLsbD j = false)) ∧
  (∀ off w s, Sound s → ∃ t, exec (.regWrite off w) s = .next t ∧ ∀ b o j, reservedBit b o j = true → (t.regs.word b o).getLsbD j = false)

/-- R47. With no injection key loaded and nothing else at the correction arbiter, the owner's value within ±6,871,947 is accepted in the
tick of its write, whether or not the cell is enabled; any other is refused with reason 0x05 and a notice, and the value in force stays. -/
def Obligations.FracLimits : Prop :=
  (∀ src frac upset hit s, s.bit R.INJ_STAT_KEY_LOADED = false → s.tb.corr = [] → s.get R.TB_CORR_CTRL_OWNER = rankOwner (srcRank src) →
    -6871947 ≤ frac → frac ≤ 6871947 → ∃ t u, exec (.fracWrite src frac) s = .next t ∧ exec (.timeBaseTick upset hit) t = .next u
      ∧ u.tb.fracs = s.tb.fracs ++ [(s.tick, frac)] ∧ u.get R.TB_CORR_STATUS_LAST_REASON = 0) ∧
  (∀ src frac upset hit s, s.bit R.INJ_STAT_KEY_LOADED = false → s.tb.corr = [] → s.get R.TB_CORR_CTRL_OWNER = rankOwner (srcRank src) →
    frac < -6871947 ∨ 6871947 < frac → ∃ t u, exec (.fracWrite src frac) s = .next t ∧ exec (.timeBaseTick upset hit) t = .next u
      ∧ u.tb.fracs = s.tb.fracs ∧ u.get R.TB_CORR_STATUS_LAST_REASON = 5 ∧ u.geti R.TB_ADDEND_FRAC = s.geti R.TB_ADDEND_FRAC) ∧
  (∀ (s : State) (q : CorrReq) (frac : Int), s.bit R.INJ_STAT_KEY_LOADED = false → q.what = .frac frac → s.get R.TB_CORR_CTRL_OWNER = rankOwner q.rank →
    frac < -6871947 ∨ 6871947 < frac →
    ((s.serveCorr q).posted.getLast?.map fun e => (e.code, e.sev)) = some (Ev.tbCorrRefused, .notice))

/-- R447. The key starts a SOFT reset in a DISABLED cell or with a fatal latch held: its cause bit is set, every pair is asserted, and the
device is in reset or the reset waits for the Orangery. Any other write only posts the notice SYS_WRITE_IGNORED. -/
def Obligations.SoftResetKey : Prop :=
  (∀ s, s.cell = 0 ∨ s.sio.fatalLatched = true → ∃ t, exec (.softReset 0xC0DE#16) s = .next t ∧ t.get R.PW_RESET_CAUSE_CAUSE = s.get R.PW_RESET_CAUSE_CAUSE ||| 0x10 ∧
    (∀ p, p < 10 → t.bit R.AD_STO_STAT_ASSERTED p = true) ∧ (t.pw.phase = .held ∨ t.pw.resetReq = s.pw.resetReq ||| 0x10)) ∧
  (∀ (key : BitVec 16) s, key ≠ 0xC0DE#16 ∨ (s.cell ≠ 0 ∧ s.sio.fatalLatched = false) → ∃ t, exec (.softReset key) s = .next t ∧ t.regs = s.regs ∧ t.pw = s.pw ∧
    (t.posted.getLast?.map fun v => (v.code, v.sev, v.body)) = some (Ev.sysWriteIgnored, .notice, [item 0xFFFF, item 0x160094]))

/-- R461. The junction at 125 °C sets the hold of its reset; RESET_RELEASE, which alone ends a reset, changes nothing while the hold is set;
a reading below 100 °C (in quarter degrees, 400) ends the hold, and one at or above keeps it. -/
def Obligations.TempHold : Prop :=
  (∀ tj s, s.bit R.INJ_STAT_KEY_LOADED = false → 500 ≤ tj → s.pw.fatalHot = false → ∃ t, exec (.tempReading tj) s = .next t ∧ t.pw.tempHold = true) ∧
  (∀ s, s.pw.tempHold = true → exec .resetRelease s = .next s) ∧
  (∀ tj s, s.bit R.INJ_STAT_KEY_LOADED = false → tj < 400 → ∃ t, exec (.tempReading tj) s = .next t ∧ t.pw.tempHold = false) ∧
  (∀ tj s, s.bit R.INJ_STAT_KEY_LOADED = false → s.pw.tempHold = true → 400 ≤ tj → tj < 500 → ∃ t, exec (.tempReading tj) s = .next t ∧ t.pw.tempHold = true)

/-- R433. Once WD_CYC boundaries in a row have passed without a heartbeat, IO_WDOG is posted as fatal and escalated, the fatal latch is set,
and every pair is asserted, both global pairs included. -/
def Obligations.HeartbeatWatchdog : Prop :=
  ∀ s, s.enabled = true → s.sio.missRun ≠ 0 → s.get R.AD_SIO_CFG_B_WD_CYC ≤ s.sio.missRun → ∃ t, exec .ioWdog s = .next t ∧
    (t.posted[s.posted.length]?.map fun v => (v.code, v.sev)) = some (Ev.ioWdog, .fatal) ∧ (t.escs.getLast?.map fun v => (v.fatal, v.mask, v.glob, v.code)) = some (true, 0xFF, true, Ev.ioWdog) ∧
    t.sio.fatalLatched = true ∧ t.sio.fatalMask = s.sio.fatalMask ||| 0xFF ∧ t.sio.fatalGlob = true ∧ ∀ p, p < 10 → t.bit R.AD_STO_STAT_ASSERTED p = true

/-- Enabling: a write of 1 to EN in a DISABLED cell starts the check (R358); the check ends ENABLED with the cycle grid fixed, or DISABLED
with the reason and locus of the first test that failed (R359). Disabling (R360): a write of 0 to EN moves an ENABLED cell to DISABLING;
once every arm group in use is TORQUE_OFF, or its joints' SS1 timeouts have passed and every drive pair is asserted, the cell is DISABLED
and no cycle is counted. -/
def Obligations.CellRuns : Prop :=
  ((∀ s, s.recovery = false → s.cell = 0 → ∃ t, exec .cellEnable s = .next t ∧ t.cell = 1
    ∧ t.bit R.SYS_CELL_CTRL_EN = true ∧ t.hi.checkTick = s.tick) ∧
  (∀ us s r l, s.cell = 1 → s.hi.verdict = some (r, l) → ∃ t, exec (.enableCheckEnd us) s = .next t ∧ t.cell = 0
    ∧ t.bit R.SYS_CELL_CTRL_EN = false ∧ t.get R.SYS_CELL_STATUS_REASON = r % 256
    ∧ t.get R.SYS_CELL_STATUS_LOCUS = l % 65536 ∧ (t.posted.getLast?.map fun e => e.code) = some Ev.sysCheckFailed) ∧
  (∀ us s, s.cell = 1 → s.hi.verdict = none → ∃ t, exec (.enableCheckEnd us) s = .next t ∧ t.cell = 2
    ∧ t.get R.SYS_CELL_STATUS_REASON = 0 ∧ t.get R.SYS_CELL_STATUS_LOCUS = 0 ∧ t.grid.running = true ∧ t.grid.cyc = none
    ∧ (t.posted.getLast?.map fun e => e.code) = some Ev.sysEnabled)) ∧
  ((∀ s, s.cell = 2 → ∃ t, exec .cellDisable s = .next t ∧ t.cell = 3 ∧ t.hi.disableTick = s.tick) ∧
  (∀ s, s.cell = 3 → s.allOff = true → ∃ t, exec .disableComplete s = .next t ∧ t.cell = 0
    ∧ t.bit R.SYS_CELL_CTRL_EN = false ∧ t.grid.running = false ∧ t.grid.cyc = none
    ∧ (t.posted.getLast?.map fun e => e.code) = some Ev.sysDisabled) ∧
  (∀ s, s.cell = 3 → s.hi.disableTick + s.disableTicks ≤ s.tick → ∃ t, exec .disableTimeout s = .next t ∧ t.cell = 0
    ∧ t.bit R.SYS_CELL_CTRL_EN = false ∧ t.grid.running = false
    ∧ ∀ p, p < 10 → t.bit R.AD_STO_STAT_ASSERTED p = true))

/-- The grid of cycles (R40, R20, R85, R308): a due boundary opens the next cycle at this tick, publishes the registers as they then stand,
and tells a cycle that ended by its number; a boundary that is not due changes nothing; a solver-period boundary is taken once in the cycle
that opens a period, in the tick of its boundary; a due window end forgets which records were posted once in the window. The tick (R45,
R50): the model's count of ticks advances by one; once the time island runs, with no injection key loaded and equal copies, copy A of the
counter advances under FRAC and copy B takes the same value but for an upset. A boundary that the wedge-safe domain makes itself counts as
one without a heartbeat (R458). -/
def Obligations.CellCycle : Prop :=
  ((∀ s, s.boundaryDue = false → exec .cycleBoundary s = .next s) ∧
  (∀ s, s.boundaryDue = true → ∃ t, exec .cycleBoundary s = .next t ∧ t.grid.cyc = some s.nextCycle ∧ t.grid.start = s.tick
    ∧ t.grid.startNs = s.ns ∧ (s.grid.cyc = none → t.frozen = s.regs)
    ∧ ∀ m, s.grid.cyc = some m → t.get R.CB_CYCLE_NOW = m % 2 ^ 32) ∧
  (∀ s k, s.grid.cyc = some k → s.isSolverCycle k = true → s.grid.solver ≠ some k → s.tick = s.grid.start →
    ∃ t, exec .solverPeriodBoundary s = .next t ∧ t.grid = { s.grid with solver := some k }) ∧
  (∀ s k, s.grid.cyc = some k → (s.isSolverCycle k = false ∨ s.grid.solver = some k ∨ s.tick ≠ s.grid.start) →
    exec .solverPeriodBoundary s = .next s) ∧
  (∀ s, s.windowDue = true → ∃ t, exec .windowBoundary s = .next t ∧ t.once = [] ∧ t.grid.winNow = s.now
    ∧ t.grid.winCyc = s.grid.cyc) ∧
  (∀ s, s.windowDue = false → exec .windowBoundary s = .next s)) ∧
  ((∀ upset hit s, s.timeOn = false → ∃ t, exec (.timeBaseTick upset hit) s = .next t ∧ t.tb.tick = s.tb.tick + 1
    ∧ t.tb.a = s.tb.a ∧ t.tb.b = s.tb.b) ∧
  (∀ upset hit s, s.timeOn = true → s.bit R.INJ_STAT_KEY_LOADED = false → ∃ t, exec (.timeBaseTick upset hit) s = .next t
    ∧ t.tb.tick = s.tb.tick + 1 ∧ t.tb.a = s.tb.a.advance (s.geti R.TB_ADDEND_FRAC)
    ∧ t.tb.b.ns = (s.tb.b.advance (s.geti R.TB_ADDEND_FRAC)).ns ^^^ upset) ∧
  (∀ s, s.cell = 2 → s.bit R.INJ_STAT_KEY_LOADED = false → s.grid.cyc ≠ none →
    s.sio.lastEdge * 80 + 11 * s.cycleNs ≤ s.tick * 80 → ∃ t, exec .wedgeSafeBoundary s = .next t
    ∧ t.sio.missRun = s.sio.missRun + 1 ∧ t.sio.lastEdge = s.tick ∧ t.bit R.AD_WDOG_STAT_RUNNING = false) ∧
  (∀ s, s.tick * 80 < s.sio.lastEdge * 80 + 11 * s.cycleNs → exec .wedgeSafeBoundary s = .next s))

/-- Steps of the time base (R36, R51 to R58): a request enters the correction arbiter with the tag of its tick; the round of that tick
queues a step that no reason refuses and uses up the allowance, or sets LAST_REASON and queues nothing; the step takes effect once its
second tick has come. Frequency corrections and the reference (R47 to R49, R54, R57, R58): a FRAC write enters the correction arbiter; the
round of its tick queues the owner's value within the limits, which is in force a tick later, and refuses another requester's with 0x06; a
lost reference sets HOLDOVER and escalates a fault with every arm group. -/
def Obligations.TimeCorrections : Prop :=
  ((∀ src s, ∃ t, exec (.stepAbsolute src) s = .next t ∧ t.tb.corr = s.tb.corr ++ [{ tag := s.tick, rank := srcRank src, what := .step 0 (s.srcStep src).1 (s.srcStep src).2.1 (s.srcStep src).2.2, desc := none }]) ∧
  (∀ src s, ∃ t, exec (.stepRelative src) s = .next t ∧ t.tb.corr = s.tb.corr ++ [{ tag := s.tick, rank := srcRank src, what := .step 1 (s.srcStep src).1 (s.srcStep src).2.1 (s.srcStep src).2.2, desc := none }]) ∧
  (∀ s, ∃ t, exec .stepPtp s = .next t ∧ t.get R.TB_STEP_CTRL_MODE = 2
      ∧ t.tb.corr = s.tb.corr ++ [{ tag := s.tick, rank := 3, what := .step 2 (decide (0 < s.geti R.TB_PTP_OFFSET)) ((s.geti R.TB_PTP_OFFSET).natAbs / nsPerSec) ((s.geti R.TB_PTP_OFFSET).natAbs % nsPerSec), desc := none }]) ∧
  (∀ upset hit s q mode neg sec ns, s.bit R.INJ_STAT_KEY_LOADED = false → s.tb.corr = [q] → q.rank < 4 → q.what = .step mode neg sec ns →
    s.stepReason mode neg sec ns = 0 → ∃ t, exec (.timeBaseTick upset hit) s = .next t ∧ t.tb.corr = []
      ∧ t.bit R.TB_CORR_STATUS_STEP_ARMED = false ∧ t.get R.TB_CORR_STATUS_LAST_REASON = 0
      ∧ t.tb.steps = s.tb.steps ++ [{ tag := q.tag, desc := q.desc, rel := decide (mode ≠ 0), neg, sec, ns }]) ∧
  (∀ upset hit s q mode neg sec ns, s.bit R.INJ_STAT_KEY_LOADED = false → s.tb.corr = [q] → q.rank < 4 → q.what = .step mode neg sec ns →
    s.stepReason mode neg sec ns ≠ 0 → ∃ t, exec (.timeBaseTick upset hit) s = .next t
      ∧ t.get R.TB_CORR_STATUS_LAST_REASON = s.stepReason mode neg sec ns ∧ t.tb.steps = s.tb.steps) ∧
  (∀ s r rest, s.tb.steps = r :: rest → r.tag + 2 ≤ s.tick → ∃ t, exec .stepApply s = .next t
      ∧ t.tb.a = (if r.rel then Counter.ofNs (relTarget s.now r.neg r.sec r.ns).toNat s.tb.a.sub
          else { sec := r.sec, ns := r.ns, sub := 0 })
      ∧ t.tb.b = t.tb.a ∧ t.tb.steps = rest ∧ t.tb.ppsOut = false ∧ t.bit R.TB_CORR_STATUS_STEPPED = true
      ∧ (t.posted.getLast?.map fun e => (e.code, e.body.getLast?)) = some (Ev.evTime, some 1))) ∧
  ((∀ src frac s, ∃ t, exec (.fracWrite src frac) s = .next t
    ∧ t.tb.corr = s.tb.corr ++ [{ tag := s.tick, rank := srcRank src, what := .frac frac, desc := none }]) ∧
  (∀ upset hit s q frac, s.bit R.INJ_STAT_KEY_LOADED = false → s.tb.corr = [q] → q.rank < 4 → q.what = .frac frac →
    s.get R.TB_CORR_CTRL_OWNER = rankOwner q.rank → -fracMax ≤ frac → frac ≤ fracMax →
    ∃ t, exec (.timeBaseTick upset hit) s = .next t ∧ t.tb.fracs = s.tb.fracs ++ [(q.tag, frac)] ∧ t.get R.TB_CORR_STATUS_LAST_REASON = 0) ∧
  (∀ upset hit s q frac, s.bit R.INJ_STAT_KEY_LOADED = false → s.tb.corr = [q] → q.rank < 4 → q.what = .frac frac →
    s.get R.TB_CORR_CTRL_OWNER ≠ rankOwner q.rank →
    ∃ t, exec (.timeBaseTick upset hit) s = .next t ∧ t.tb.fracs = s.tb.fracs ∧ t.get R.TB_CORR_STATUS_LAST_REASON = 6) ∧
  (∀ s k frac, s.tb.fracs = [(k, frac)] → k + 1 ≤ s.tick → -fracMax ≤ frac → frac ≤ fracMax →
    ∃ t, exec .fracApply s = .next t ∧ t.geti R.TB_ADDEND_FRAC = frac ∧ t.tb.fracs = []) ∧
  (∀ s, s.bit R.INJ_STAT_KEY_LOADED = false → ∃ t, exec .tbRefLoss s = .next t ∧ t.bit R.TB_REF_STATUS_HOLDOVER = true
    ∧ t.bit R.TB_REF_STATUS_LOCKED = false ∧ (t.posted.getLast?.map fun e => (e.code, e.sev)) = some (Ev.tbRefLoss, .fault)
    ∧ (t.escs.getLast?.map fun e => (e.fatal, e.mask)) = some (false, 0xFF)) ∧
  (∀ s, s.bit R.INJ_STAT_KEY_LOADED = false → ∃ t, exec .tbUnlock s = .next t ∧ t.bit R.TB_REF_STATUS_LOCKED = false
    ∧ (t.posted.getLast?.map fun e => (e.code, e.sev)) = some (Ev.tbUnlock, .fault)
    ∧ (t.escs.getLast?.map fun e => (e.fatal, e.mask)) = some (false, 0xFF)) ∧
  (∀ s, ∃ t, exec .refRelock s = .next t ∧ t.bit R.TB_REF_STATUS_LOCKED = true ∧ t.bit R.TB_REF_STATUS_HOLDOVER = false))

/-- Captures, reads, triggers and 1PPS (R61 to R67, R71). -/
def Obligations.TimeCaptures : Prop :=
  (∀ ch src rising s, s.captures ch.val src rising = true → s.ownStart src = false → s.bit R.TB_CAP_NS_VALID ch.val = false →
    Tab.get (fun _ => none) s.tb.capEdge ch.val = none → s.bit R.INJ_STAT_KEY_LOADED = false → (s.capStamp src).2 < nsPerSec →
    ∃ t, exec (.captureEdge ch src rising) s = .next t
    ∧ t.get R.TB_CAP_NS_NS ch.val = (s.capStamp src).2 ∧ t.bit R.TB_CAP_NS_VALID ch.val = true
    ∧ Tab.get (fun _ => 0) t.tb.capSec ch.val = (s.capStamp src).1) ∧
  (∀ ch s, s.bit R.TB_CAP_NS_VALID ch.val = true → Tab.get (fun _ => none) s.tb.capEdge ch.val = none → ∃ t, exec (.capRead ch) s = .next t
    ∧ t.bit R.TB_CAP_NS_VALID ch.val = false ∧ t.readData = s.regs.word .tb (R.TB_CAP_NS_NS.addr ch.val)
    ∧ t.get R.TB_CAP_SEC_LO ch.val = Tab.get (fun _ => 0) s.tb.capSec ch.val % 2 ^ 32) ∧
  (∀ s, ∃ t, exec (.tbNsRead .now) s = .next t ∧ t.readData = BitVec.ofNat 32 s.ns
    ∧ t.get R.TB_NOW_SEC_LO = s.sec % 2 ^ 32 ∧ t.get R.TB_NOW_SEC_HI_SEC_HI = s.sec / 2 ^ 32 % 2 ^ 16) ∧
  (∀ s, ∃ t, exec (.tbNsRead .step) s = .next t ∧ t.readData = s.regs.word .tb (R.TB_STEP_NS_NS.addr 0) ∧ t.regs = s.regs) ∧
  (∀ ch s, ∃ t, exec (.tbNsRead (.trg ch)) s = .next t ∧ t.readData = s.regs.word .tb (R.TB_TRG_NS_NS.addr ch)
    ∧ t.regs = s.regs) ∧
  (∀ ch action target s, action < 5 → s.bit R.TB_TRG_CTRL_ARM ch.val = false → s.get R.TB_TRG_PERIOD ch.val = 0 →
    s.bit R.INJ_STAT_KEY_LOADED = false → ∃ t, exec (.triggerArm ch action target) s = .next t
    ∧ t.bit R.TB_TRG_CTRL_ARM ch.val = true ∧ t.get R.TB_TRG_CTRL_ACTION ch.val = action) ∧
  (∀ ch action target s, 5 ≤ action % 8 → ∃ t, exec (.triggerArm ch action target) s = .next t
    ∧ t.bit R.TB_TRG_CTRL_ARM ch.val = false) ∧
  (∀ ch s, s.trigDue ch.val = true → s.get R.TB_TRG_PERIOD ch.val = 0 → s.get R.TB_TRG_CTRL_ACTION ch.val = 0 →
    ∃ t, exec (.triggerFire ch) s = .next t ∧ t.bit R.TB_TRG_CTRL_ARM ch.val = false) ∧
  (∀ s, s.ppsDue = true → ∃ t, exec .ppsOutRise s = .next t ∧ t.tb.ppsOut = true ∧ t.tb.ppsFallAt = s.tick + s.ppsTicks) ∧
  (∀ s, s.tb.ppsOut = true → s.tb.ppsFallAt ≤ s.tick → ∃ t, exec .ppsOutFall s = .next t ∧ t.tb.ppsOut = false)

/-- The PTP port (R68 to R70). -/
def Obligations.PtpPort : Prop :=
  ((∀ m s, ptpSupported m = true → m.offset = none → s.tb.ptpSlaveOnly = false → ∃ t, exec (.ptpMessageRx m) s = .next t
    ∧ t.get R.TB_PTP_STATE_DOMAIN = m.domain % 256 ∧ t.get R.TB_PTP_STATE_PORT_STATE = m.portState.val
    ∧ t.tb.ptpSeen = s.tb.ptpSeen + 1) ∧
  (∀ m s, ptpSupported m = false → ∃ t, exec (.ptpMessageRx m) s = .next t ∧ t.tb.ptpIgnored = s.tb.ptpIgnored + 1
    ∧ t.regs = s.regs) ∧
  (∀ k s, s.ptpSends k = true → ∃ t, exec (.ptpMessageTx k) s = .next t ∧ t.tb.ptpSent = s.tb.ptpSent + 1
    ∧ t.tb.ptpFrom = s.get64 R.CB_DEV_MAC_LO R.CB_DEV_MAC_HI_OCTETS_0_1 + 6 ∧ (k = .sync → t.tb.ptpFollowUp = true)) ∧
  (∀ p s, s.cell = 2 → s.get R.TB_PTP_STATE_PORT_STATE = 4 → s.bit R.INJ_STAT_KEY_LOADED = false → s.tb.ptpSlaveOnly = false →
    ∃ t, exec (.ptpMasterLost p) s = .next t ∧ t.get R.TB_PTP_STATE_PORT_STATE = p.val
      ∧ (t.posted.getLast?.map fun e => e.code) = some Ev.ptpMasterLost))

/-- Link states (R76 to R78): a port comes UP after 1 ms of its conditions, leaves UP when one fails (its frame still on the wire is cut),
an attempt of 500 ms fails and the next follows 100 ms later, and a retrain of a port that is not held off starts a new attempt. What a
transceiver reports (R76): the conditions of the port's mode begin to hold and their 1 ms starts, or cease to hold; a fault sequence puts
the port in LOCAL_FAULT or REMOTE_FAULT, and when it ends the port shows TRAINING (log entry 106). -/
def Obligations.Links : Prop :=
  ((∀ p s, s.link p.val = 2 → (s.port p.val).held = true → (s.port p.val).heldSince + 125000 ≤ s.tick → s.portOff p.val = false →
    ∃ t, exec (.linkUp p) s = .next t ∧ t.link p.val = 3 ∧ (t.port p.val).trainStart = none) ∧
  (∀ p s, s.link p.val ≠ 2 ∨ (s.port p.val).held = false ∨ s.tick < (s.port p.val).heldSince + 125000 →
    exec (.linkUp p) s = .next s) ∧
  (∀ p s, s.up p.val = true → s.bit R.INJ_STAT_KEY_LOADED = false → ∃ t, exec (.linkDown p) s = .next t ∧ t.link p.val = 1
    ∧ (t.port p.val).held = false ∧ (t.port p.val).last = (s.port p.val).last.map (s.cutLast p.val) ∧ (p.val < 4 ∨ s.twState ≠ 3 → (t.posted.getLast?.map fun e => (e.code, e.sev))
      = some (if p.val < 4 then Ev.cbLinkDown else Ev.twLinkDown, .fault))) ∧
  (∀ p s, s.up p.val = false → exec (.linkDown p) s = .next s) ∧
  (∀ p s b, (s.port p.val).trainStart = some b → s.portMode p.val = 1 → (s.port p.val).held = false → b + 62500000 ≤ s.tick →
    ∃ t, exec (.trainingTimeout p) s = .next t ∧ t.link p.val = 1 ∧ (t.port p.val).retryAt = some (s.tick + 12500000)) ∧
  (∀ p s b, (s.port p.val).retryAt = some b → s.portMode p.val = 1 → b ≤ s.tick →
    ∃ t, exec (.trainingRetry p) s = .next t ∧ t.link p.val = 2 ∧ (t.port p.val).trainStart = some s.tick) ∧
  (∀ p s, p.val < 4 → s.locked = false → s.portOff p.val = false → (s.portMode p.val = 1 ∨ s.portMode p.val = 3) →
    ∃ t, exec (.linkRetrain p) s = .next t ∧ t.link p.val = 2 ∧ (t.port p.val).held = false) ∧
  (∀ p s, p.val < 4 → s.locked = true → ∃ t, exec (.linkRetrain p) s = .next t ∧ t.regs = s.regs
    ∧ (t.posted.getLast?.map fun e => e.code) = some Ev.sysWriteIgnored)) ∧
  ((∀ p q s, s.portOff p.val = false → s.upHolds p.val q = true → (s.port p.val).held = false →
    ∃ t, exec (.upConditionsChange p q) s = .next t ∧ t.link p.val = 2 ∧ (t.port p.val).held = true
      ∧ (t.port p.val).heldSince = s.tick) ∧
  (∀ p q s, s.portOff p.val = false → s.upHolds p.val q = false → (s.port p.val).held = true →
    ∃ t, exec (.upConditionsChange p q) s = .next t ∧ t.link p.val = 1 ∧ (t.port p.val).held = false) ∧
  (∀ p s, s.portOff p.val = false → (s.port p.val).held = true →
    (∃ t, exec (.localRemoteFault p .localFault) s = .next t ∧ t.link p.val = 4) ∧
    (∃ t, exec (.localRemoteFault p .remoteFault) s = .next t ∧ t.link p.val = 5) ∧
    (s.link p.val = 4 ∨ s.link p.val = 5 → ∃ t, exec (.localRemoteFault p .none) s = .next t ∧ t.link p.val = 2)))

/-- Secure associations (R87, R88): a KEK enters in maintenance mode only, and once (a second one is refused: log entry 107); nothing is
installed when the unwrap fails or the changeover cycle is refused; a receive SA is valid under the unwrapped key; a transmit SA is in use
at once while no cycle is counted or no SA is in use, from its boundary under an accepted changeover, and else only installed; a receive SA
whose time is over is gone and every other stays. -/
def Obligations.SecureAssociations : Prop :=
  (∀ d e s, Ready s d 0x20 e → s.mgmtDown = false → e.bits 4 6 6 = 1 → ∃ t, exec (.macsecKek d) s = .next t ∧ Closed e t
    ∧ (s.maint = true → s.cb.kek = none → t.cb.kek = some (leNat (e.bytes 7 11)))
    ∧ (s.maint = false ∨ s.cb.kek.isSome = true → t.cb = s.cb)) ∧
  (∀ d e s, Ready s d 0x20 e → s.mgmtDown = false → e.bits 4 6 6 = 0 →
    (s.cb.kek.bind fun k => Config.keyUnwrap k (e.bytes 7 13)) = none →
    ∃ t, exec (.macsecKey d) s = .next t ∧ t.cb = s.cb ∧ Closed e t) ∧
  (∀ d e s key, Ready s d 0x20 e → s.mgmtDown = false → e.bits 4 6 6 = 0 →
    (s.cb.kek.bind fun k => Config.keyUnwrap k (e.bytes 7 13)) = some key → hasBit (e.word 4) 3 = true →
    ∃ t, exec (.macsecKey d) s = .next t ∧ Closed e t ∧
      (t.port (e.bits 4 2 0)).rxSa (e.bits 4 5 4) = { valid := true, key := key, newest := true }) ∧
  (∀ d e s key, Ready s d 0x20 e → s.mgmtDown = false → e.bits 4 6 6 = 0 →
    (s.cb.kek.bind fun k => Config.keyUnwrap k (e.bytes 7 13)) = some key → hasBit (e.word 4) 3 = false →
    s.grid.cyc = none ∨ (s.port (e.bits 4 2 0)).txAn = none →
    ∃ t, exec (.macsecKey d) s = .next t ∧ Closed e t ∧ (t.port (e.bits 4 2 0)).txAn = some (e.bits 4 5 4) ∧
      (t.port (e.bits 4 2 0)).txSa (e.bits 4 5 4) = { valid := true, key := key, newest := true }) ∧
  (∀ d e s key, Ready s d 0x20 e → s.mgmtDown = false → e.bits 4 6 6 = 0 →
    (s.cb.kek.bind fun k => Config.keyUnwrap k (e.bytes 7 13)) = some key → hasBit (e.word 4) 3 = false →
    s.grid.cyc.isSome = true → (s.port (e.bits 4 2 0)).txAn.isSome = true →
    ∃ t, exec (.macsecKey d) s = .next t ∧ Closed e t ∧ (t.port (e.bits 4 2 0)).txAn = (s.port (e.bits 4 2 0)).txAn ∧
      (hasBit (e.word 4) 7 = false → (t.port (e.bits 4 2 0)).txSa (e.bits 4 5 4) = { valid := true, key := key, newest := true }) ∧
      (hasBit (e.word 4) 7 = true → s.changeCycle (e.word 6) = none → t.cb = s.cb) ∧
      ∀ c, hasBit (e.word 4) 7 = true → s.changeCycle (e.word 6) = some c →
        (t.port (e.bits 4 2 0)).change = some (e.bits 4 5 4, c)) ∧
  (∀ p s an c, (s.port p.val).change = some (an, c) → (s.grid.cyc = none ∨ c ≤ s.cycle) →
    ∃ t, exec (.macsecChangeover p) s = .next t ∧ (t.port p.val).txAn = some an ∧ (t.port p.val).change = none
      ∧ (t.port p.val).exhausted = false) ∧
  (∀ p s, ∃ t, exec (.rxSaRetire p) s = .next t ∧
    ∀ x, x ∈ (t.port p.val).rx ↔ x ∈ (s.port p.val).rx ∧ ∀ b, x.2.retireAt = some b → s.now < b)

/-- What a CB port launches (R107 to R109, R111, R119, R121): in a cycle it is due in, a slot to a partner goes out from its offset on,
fresh when nothing hands it over or its hand-over met the cutoff, with the held payload when not, and not at all from a port that cannot
send or has come back to UP within the cycle; the frame carries its header with PCRC; the acyclic window sends the first frame of its order
that ends before its end; its end voids open delay samples; a REFERENCE frame carries the time once a cycle. -/
def Obligations.CellBusLaunch : Prop :=
  (∀ i s m, s.grid.cyc = some m → s.get R.CB_SL_A_DIR i.val = 1 → s.slotDue i.val m = true → (s.slot i.val).launched ≠ some m →
    s.get R.CB_SL_A_OFFSET i.val ≤ s.intoCycle → s.notHolder = false → s.bit R.INJ_STAT_KEY_LOADED = false →
    ∃ t, exec (.slotLaunch i) s = .next t ∧ (t.slot i.val).launched = some m ∧ (t.slot i.val).arr = s.tick ∧ (t.slot i.val).cls =
      (if s.slotShut (s.get R.CB_SL_A_PORT i.val) i.val = false then
        if s.slotMe i.val = none ∨ (s.slot i.val).ready = true ∧ (s.slot i.val).slow = false ∧ (s.slot i.val).readyTick + 34 ≤ s.grid.start + s.get R.CB_SL_A_OFFSET i.val
        then 4 else 5
       else 6)) ∧
  (∀ i s m, s.grid.cyc = some m → s.get R.CB_SL_A_DIR i.val = 1 → s.slotDue i.val m = true → (s.slot i.val).launched ≠ some m →
    s.get R.CB_SL_A_OFFSET i.val ≤ s.intoCycle → s.notHolder = false → s.bit R.INJ_STAT_KEY_LOADED = false →
    s.slotShut (s.get R.CB_SL_A_PORT i.val) i.val = false → (s.slot i.val).ready = true → (s.slot i.val).slow = false →
    (s.slot i.val).readyTick + 34 ≤ s.grid.start + s.get R.CB_SL_A_OFFSET i.val → s.slotMe i.val ≠ none →
    ∃ t, exec (.slotLaunch i) s = .next t ∧
      let head := [0x10, if s.devB then 3 else 1] ++ beBytes 2 i.val ++ beBytes 4 (m % 2 ^ 32) ++ beBytes 2 s.txEpoch
        ++ beBytes 2 (s.get R.CB_SL_B_PARTNER i.val) ++ beBytes 4 (s.get R.CB_SL_B_LAYOUT i.val * 2 ^ 24 + (s.gatedPayload i.val (s.slot i.val).fill).length)
      ((t.port (s.get R.CB_SL_A_PORT i.val)).last.map fun f => (f.ftype, f.slot, f.cycle, f.epoch, f.payload))
        = some (0, i.val, m % 2 ^ 32, s.txEpoch, s.gatedPayload i.val (s.slot i.val).fill)
      ∧ ((t.port (s.get R.CB_SL_A_PORT i.val)).last.map fun f => (f.sa, f.hdr))
        = some (s.devMac + s.get R.CB_SL_A_PORT i.val, head ++ beBytes 4 (crc32c (head ++ s.gatedPayload i.val (s.slot i.val).fill)).toNat)) ∧
  (∀ p s j, s.grid.cyc.isSome = true → s.canSend p.val = true → s.get R.CB_ACYC_START_TICKS ≤ s.intoCycle →
    (s.port p.val).acyTick ≤ s.tick → s.nextAcyclic p.val = some j →
    s.intoCycle * 80 + (s.wireBytes p.val (s.acyPayload j).length - 12) * (if s.portMode p.val = 3 then 80 else 8) < s.get R.CB_ACYC_END_TICKS * 80 →
    ∃ t, exec (.acyclicLaunch p) s = .next t ∧
      ((t.port p.val).last.map fun f => (f.ftype, f.partner, f.payload)) = some ((acyAddr j).1, (acyAddr j).2, s.acyPayload j)
      ∧ ∀ q, j = .delay q → (t.part q).t1 = some s.tick) ∧
  (∀ p s, s.grid.cyc.isSome = true → s.get R.CB_ACYC_END_TICKS ≤ s.intoCycle → ∃ t, exec (.acycWindowEnd p) s = .next t ∧
    ∀ q ∈ s.portPartners p.val, (t.part q).t1 = none) ∧
  (∀ p s m, s.grid.cyc = some m → s.notHolder = false → s.canSend p.val = true → s.bit R.CB_REF_CFG_EN p.val = true →
    s.refPartner p.val = true → s.get R.CB_REF_CFG_OFFSET p.val ≤ s.intoCycle → (s.port p.val).lastRef ≠ some m →
    ∃ t, exec (.referenceLaunch p) s = .next t ∧ (t.port p.val).lastRef = some m ∧
      ((t.port p.val).last.map fun f => (f.ftype, f.partner, f.payload))
        = some (1, 0x7FF, beBytes 6 s.sec ++ beBytes 4 s.ns ++ beBytes 4 s.cycleNs ++ [0, 0]))

/-- Partners and the slots from them (R97 to R99, R114, R117, R123 to R126): activation in the granted cycle, the join timeout, a missing
slot, the slot the windows SLOT_ARR and SLOT_STAT show and what the end of a cycle leaves there, drift, and entering and leaving quarantine.
Acyclic frames of the host (R344): ACYCLIC_SEND gives its payload to the queue its descriptor selects, and completes with 0xF2 when the
payload could not be read; ACYCLIC_RECV posts its buffer behind those posted before. -/
def Obligations.CellBusPartners : Prop :=
  ((∀ p s a, (s.part p.val).grantAt = some a → s.ptState p.val = 2 → s.grid.cyc.isSome = true → a ≤ s.cycle →
    ∃ t, exec (.partnerActivate p) s = .next t ∧ t.ptState p.val = 3 ∧ (t.part p.val).grantAt = none) ∧
  (∀ p s, s.ptState p.val = 2 → s.joinLimit ≤ (s.part p.val).joinCount → s.bit R.INJ_STAT_KEY_LOADED = false →
    ∃ t, exec (.cbJoinTimeout p) s = .next t ∧ (t.part p.val).joinCount = 0
      ∧ (t.posted.getLast?.map fun e => (e.code, e.sev, e.inst)) = some (Ev.cbJoinTimeout, .notice, p.val)) ∧
  (∀ i s, s.missDue i.val = true → ∃ t, exec (.slotMissing i) s = .next t ∧ (t.slot i.val).missNow = true
    ∧ (t.slot i.val).declared = some s.cycle ∧ (t.slot i.val).cls = 3
    ∧ (t.slot i.val).run = (s.slot i.val).run + (if s.ptState (s.get R.CB_SL_B_PARTNER i.val) = 4 then 0 else 1)) ∧
  (∀ i s, s.missDue i.val = false → exec (.slotMissing i) s = .next s) ∧
  (∀ i s, ∃ t, exec (.slotSelect i) s = .next t ∧ t.get R.CB_SLOT_SEL_SLOT = i.val
    ∧ t.place 0x20544 = R.CB_SLOT_ARR_TICK.addr i.val ∧ t.place 0x20548 = R.CB_SLOT_STAT_FRESH_HELD.addr i.val) ∧
  (∀ (i : Fin 8192) (s : State) (m : Nat), s.get R.CB_SL_A_DIR i.val = 2 → s.slotDue i.val m = true →
    (s.slotEnd m i.val).get R.CB_SLOT_ARR_TICK i.val = ((s.slot i.val).arr - s.grid.start) % 2 ^ 17
    ∧ (s.slotEnd m i.val).get R.CB_SLOT_ARR_CLASS i.val = (s.slot i.val).cls % 8
    ∧ (s.slotEnd m i.val).bit R.CB_SLOT_STAT_MISSING i.val = (s.slot i.val).missNow
    ∧ (s.slotEnd m i.val).bit R.CB_SLOT_STAT_FRESH_HELD i.val = (s.slot i.val).freshNow
    ∧ (s.slotEnd m i.val).get R.CB_SLOT_STAT_MISS_RUN i.val = min 3 (s.slot i.val).run
    ∧ ((s.slotEnd m i.val).slot i.val).heldBuf = if (s.slot i.val).freshNow then (s.slot i.val).fill else (s.slot i.val).heldBuf) ∧
  (∀ p s, s.once.contains (Ev.cbDrift, p.val) = false → 16 ≤ s.get R.CB_PS_WIN_EDGE_WIN p.val → s.bit R.INJ_STAT_KEY_LOADED = false →
    ∃ t, exec (.cbDrift p) s = .next t ∧ t.once.contains (Ev.cbDrift, p.val) = true
      ∧ (t.posted.getLast?.map fun e => (e.code, e.sev, e.inst)) = some (Ev.cbDrift, .notice, p.val)) ∧
  (∀ p s, s.ptState p.val = 2 ∨ s.ptState p.val = 3 →
    ((s.fromSlots p.val).any fun i => decide (3 ≤ (s.slot i).run)) = true ∨ 8 ≤ (s.part p.val).ownWin ∨ 64 ≤ (s.part p.val).polWin →
    ∃ t, exec (.quarantine p) s = .next t ∧ t.ptState p.val = 4 ∧ t.get R.CB_PT_STATE_QCAUSE p.val =
      if ((s.fromSlots p.val).any fun i => decide (3 ≤ (s.slot i).run)) = true then 1 else if 8 ≤ (s.part p.val).ownWin then 2 else 3) ∧
  (∀ d e s, Ready s d 0x22 e → s.notHolder = false → s.cell ≠ 0 → s.ptState (e.bits 4 9 0) = 2 ∨ s.ptState (e.bits 4 9 0) = 3 →
    ∃ t, exec (.partnerQuarantine d) s = .next t ∧ Closed e t ∧ t.ptState (e.bits 4 9 0) = 4
      ∧ t.get R.CB_PT_STATE_QCAUSE (e.bits 4 9 0) = 5) ∧
  (∀ d e s, Ready s d 0x21 e → s.notHolder = false → s.cell ≠ 0 → (s.part (e.bits 4 9 0)).qTick ≠ some s.tick →
    s.ptState (e.bits 4 9 0) = 4 → s.up (s.get R.CB_PT_CFG_PORT (e.bits 4 9 0)) = true →
    ∃ t, exec (.partnerRelease d) s = .next t ∧ Closed e t ∧ t.ptState (e.bits 4 9 0) = 2
      ∧ t.get R.CB_PT_STATE_QCAUSE (e.bits 4 9 0) = 0 ∧ (t.part (e.bits 4 9 0)).annCycle = none)) ∧
  ((∀ d e l s, Ready s d 0x23 e → hasBit (e.word 4) 17 = true ∨ s.notHolder = false →
    ∃ t, exec (.acyclicSend d (some l)) s = .next t ∧
      (hasBit (e.word 4) 16 = false → (t.port (e.bits 4 13 12)).acy = (s.port (e.bits 4 13 12)).acy
        ++ [{ partner := e.bits 4 10 0, payload := l.take (e.bits 5 10 0), desc := some e.key3 }]) ∧
      (hasBit (e.word 4) 16 = true → (t.port (e.bits 4 13 12)).lat = (s.port (e.bits 4 13 12)).lat
        ++ [{ partner := e.bits 4 10 0, payload := l.take (e.bits 5 10 0), desc := some e.key3 }])) ∧
  (∀ d e s, Ready s d 0x23 e → hasBit (e.word 4) 17 = true ∨ s.notHolder = false →
    ∃ t, exec (.acyclicSend d none) s = .next t ∧ Closed e t ∧ t.cb = s.cb) ∧
  (∀ d e s, Ready s d 0x24 e → ∃ t, exec (.acyclicRecv d) s = .next t ∧ t.cb.recv = s.cb.recv
    ++ [{ partner := e.bits 4 10 0, port := e.bits 4 13 12, addr := e.addr 6, len := e.word 5, desc := e.key3 }]))

/-- Frames the receive checks turn away (R77, R83, R84): on a port that is not UP nothing happens; a frame with a bad FCS or length is
counted by its cause and leaves no other trace in the bus than its record; a PAUSE frame is counted. Frames that pass every check, leaving
`u` (R110, R113, R119, R122, R123, R344, R92): a CYCLIC frame in its window is committed, NORMAL within 80 ns and EDGE within 200 ns, and
one of an ACTIVE partner is not used in a cycle in which its port came back to UP; a DELAY response gives its sample and forwarding delays;
an ANNOUNCE with the right identity is taken once; a VALID sets the cycle; an ACYCLIC frame takes the first buffer that fits; a backup
REFERENCE is reported once in a window; a frame of the twin is remembered as heard. -/
def Obligations.CellBusReceive : Prop :=
  (∀ f s c, c ∈ receptions f → f.port < 4 →
    (s.up f.port = false → exec c s = .next s) ∧
    (s.up f.port = true → s.bit R.INJ_STAT_KEY_LOADED = false → f.fcsOk = false → ∃ t, exec c s = .next t ∧ t.cb = s.cb
      ∧ t.get R.CB_ERR_A_FCS_ERR f.port = min (s.get R.CB_ERR_A_FCS_ERR f.port + 1) R.CB_ERR_A_FCS_ERR.top
      ∧ (s.once.contains (Ev.cbFrameErr, f.port) = false → (t.posted.getLast?.map fun e => (e.code, e.sev, e.inst))
        = some (Ev.cbFrameErr, .notice, f.port))) ∧
    (s.up f.port = true → s.bit R.INJ_STAT_KEY_LOADED = false → f.fcsOk = true → f.len < 64 ∨ 1542 < f.len →
      ∃ t, exec c s = .next t ∧ t.cb = s.cb ∧ t.get R.CB_ERR_A_LEN_ERR f.port = min (s.get R.CB_ERR_A_LEN_ERR f.port + 1) R.CB_ERR_A_LEN_ERR.top) ∧
    (s.up f.port = true → s.bit R.INJ_STAT_KEY_LOADED = false → f.fcsOk = true → 64 ≤ f.len → f.len ≤ 1542 → f.outer = 0x8808 →
      ∃ t, exec c s = .next t ∧ t.cb = s.cb ∧ t.get R.CB_ERR_G_PAUSE_RX f.port = min (s.get R.CB_ERR_G_PAUSE_RX f.port + 1) R.CB_ERR_G_PAUSE_RX.top)) ∧
  ((∀ f s u h m, f.port < 4 → s.rxChecks f = (u, some h) → h.fromDev = false → h.ftype = 0 → u.bit R.INJ_STAT_KEY_LOADED = false →
    u.grid.cyc = some m → (u.port f.port).upAll = true → h.cycle = m % 2 ^ 32 → u.slotDue h.slot m = true → u.ptState h.partner = 3 →
    h.layout = u.get R.CB_SL_B_LAYOUT h.slot → h.len = u.slotLen h.slot → (u.slot h.slot).declared ≠ some m →
    (8 * ((f.stamp : Int) - (u.grid.start + u.get R.CB_SL_A_OFFSET h.slot : Nat))).natAbs ≤ 200 →
    ∃ t, exec (.cyclicFrameRx f) s = .next t ∧ (t.slot h.slot).fill = f.payload ∧ (t.slot h.slot).freshNow = true
      ∧ (t.slot h.slot).run = 0 ∧ (t.slot h.slot).arr = f.stamp ∧ (t.slot h.slot).cls =
        if (8 * ((f.stamp : Int) - (u.grid.start + u.get R.CB_SL_A_OFFSET h.slot : Nat))).natAbs ≤ 80 then 1 else 2) ∧
  (∀ f s u h, f.port < 4 → s.rxChecks f = (u, some h) → h.fromDev = false → h.ftype = 0 → u.grid.cyc.isSome = true →
    (u.port f.port).upAll = false → u.ptState h.partner = 3 → exec (.cyclicFrameRx f) s = .next u) ∧
  (∀ f s u h (t1 : Nat), f.port < 4 → s.rxChecks f = (u, some h) → h.fromDev = false → h.ftype = 2 → u.ptState h.partner = 2 →
    (u.part h.partner).t1 = some t1 → beField f.payload 0 1 = 2 → beField f.payload 1 1 = (u.part h.partner).samples.length →
    (u.part h.partner).samples.length < 15 → ∃ t, exec (.delayResponseRx f) s = .next t
      ∧ (t.part h.partner).samples = (u.part h.partner).samples ++ [16 * 8 * ((f.stamp : Int) - t1) - (beField f.payload 2 4 : Nat)]
      ∧ (t.part h.partner).fwdOut = some (beField f.payload 6 2) ∧ (t.part h.partner).fwdRet = some (beField f.payload 8 2)
      ∧ (t.part h.partner).t1 = none) ∧
  (∀ f s u h, f.port < 4 → s.rxChecks f = (u, some h) → h.fromDev = false → h.ftype = 3 → h.partner < 1024 → beField f.payload 0 1 = 1 →
    u.bit R.INJ_STAT_KEY_LOADED = false → beField f.payload 1 2 = u.get R.CB_PT_IDENT_VENDOR_ID h.partner →
    beField f.payload 3 2 = u.get R.CB_PT_IDENT_DEVICE_TYPE h.partner →
    (u.get R.CB_PT_SERIAL h.partner = 0 ∨ beField f.payload 5 4 = u.get R.CB_PT_SERIAL h.partner) → u.ptState h.partner = 2 →
    (u.part h.partner).annCycle = none → ∃ t, exec (.joinAnnounceRx f) s = .next t ∧ (t.part h.partner).annCycle = some u.cycle
      ∧ t.bit R.CB_PS_SYNC_TIMED_CAPABLE h.partner = hasBit (beField f.payload 9 1) 0) ∧
  (∀ f s u h, f.port < 4 → s.rxChecks f = (u, some h) → h.fromDev = false → h.ftype = 3 → h.partner < 1024 → beField f.payload 0 1 = 1 →
    u.bit R.INJ_STAT_KEY_LOADED = false → beField f.payload 1 2 ≠ u.get R.CB_PT_IDENT_VENDOR_ID h.partner →
    u.ptState h.partner = 2 ∨ u.ptState h.partner = 3 → ∃ t, exec (.joinAnnounceRx f) s = .next t ∧ t.ptState h.partner = 4
      ∧ t.get R.CB_PT_STATE_QCAUSE h.partner = 4) ∧
  (∀ f s u h, f.port < 4 → s.rxChecks f = (u, some h) → h.fromDev = false → h.ftype = 3 → beField f.payload 0 1 = 2 → u.ptState h.partner = 2 →
    ∃ t, exec (.joinValidRx f) s = .next t ∧ (t.part h.partner).validCycle = some (u.cycleOf (beField f.payload 1 4))) ∧
  (∀ f s u h r, f.port < 4 → s.rxChecks f = (u, some h) → h.fromDev = false → h.ftype = 4 →
    (u.cb.recv.find? fun r => decide (r.port = f.port) && (r.partner == h.partner || r.partner == 0x7FF)) = some r →
    ∃ t, exec (.acyclicFrameRx f) s = .next t ∧ t.cb.recv = u.cb.recv.filter fun x => !(x == r)) ∧
  (∀ f s u h, f.port < 4 → s.rxChecks f = (u, some h) → h.fromDev = false → h.ftype = 4 →
    (u.cb.recv.find? fun r => decide (r.port = f.port) && (r.partner == h.partner || r.partner == 0x7FF)) = none →
    exec (.acyclicFrameRx f) s = .next u) ∧
  (∀ f s u h, f.port < 4 → s.rxChecks f = (u, some h) → h.fromDev = false → h.ftype = 1 → u.bit R.INJ_STAT_KEY_LOADED = false →
    u.once.contains (Ev.cbBackupRef, f.port) = false → ∃ t, exec (.referenceFrameRx f) s = .next t
      ∧ (t.posted.getLast?.map fun e => (e.code, e.sev, e.inst)) = some (Ev.cbBackupRef, .notice, f.port)) ∧
  (∀ f s u h, f.port < 4 → s.rxChecks f = (u, some h) → h.fromDev = true → h.ftype ≠ 5 →
    ∃ t, exec (.twinFrameRx f) s = .next t ∧ t.tw.lastMsg = some u.cycle) ∧
  (∀ f s u h, f.port < 4 → s.rxChecks f = (u, some h) → h.fromDev = true → h.ftype = 5 → u.twState = 3 → u.cycleOf (beField f.payload 0 4) = u.cycle →
    (128 * ((f.stamp : Int) - (u.grid.start + beField f.payload 4 4 % 2 ^ 17 : Nat)) - (u.get R.TW_ECHO_DELAY_DELAY f.port : Nat)).natAbs ≤ 25 * 128 →
    ∃ t, exec (.echoFrameRx f) s = .next t ∧ hasBit t.tw.echoGot f.port = true))

/-- Direct ports (R128, R133, R135 to R137, R142 to R144): one counted edge, accepted FILT + 1 samples after the last, moves COUNT by one in
the direction of the sequence (at an incremental port with INVERT), a change of both signals or out of the Hall sequence is counted as an
error and moves nothing; a due sample is latched for the channel; a serial frame gives its word, or none when a check fails; an index event
shows its deviation and whether it is out of tolerance. -/
def Obligations.FeedbackPorts : Prop :=
  (∀ m a b s, s.get R.DP_CFG_MODE m.val = 1 → s.bit R.INJ_STAT_KEY_LOADED = false → s.filtOk m.val (s.dport m.val).accA = true → s.filtOk m.val (s.dport m.val).accB = true →
    (s.dport m.val).accA ≠ some s.tick → (s.dport m.val).accB ≠ some s.tick →
    ((s.dport m.val).a = a ∧ (s.dport m.val).b ≠ b ∨ (s.dport m.val).a ≠ a ∧ (s.dport m.val).b = b) →
    ∃ t, exec (.dpEdge m a b) s = .next t ∧ (t.dport m.val).a = a ∧ (t.dport m.val).b = b ∧ t.get R.DP_COUNT m.val =
      (((s.get R.DP_COUNT m.val : Int) + (if (decide (quadPlace a b = (quadPlace (s.dport m.val).a (s.dport m.val).b + 1) % 4)) != s.bit R.DP_CFG_INVERT m.val then 1 else -1)) % 2 ^ 32).toNat) ∧
  (∀ m a b s, s.get R.DP_CFG_MODE m.val = 1 → s.bit R.INJ_STAT_KEY_LOADED = false → s.filtOk m.val (s.dport m.val).accA = true → s.filtOk m.val (s.dport m.val).accB = true →
    (s.dport m.val).accA ≠ some s.tick → (s.dport m.val).accB ≠ some s.tick →
    (s.dport m.val).a ≠ a → (s.dport m.val).b ≠ b →
    ∃ t, exec (.dpEdge m a b) s = .next t ∧ t.get R.DP_COUNT m.val = s.get R.DP_COUNT m.val
      ∧ t.get R.DP_STAT_QUAD_ERR m.val = min (s.get R.DP_STAT_QUAD_ERR m.val + 1) R.DP_STAT_QUAD_ERR.top) ∧
  (∀ m uvw s old, s.get R.DP_CFG_MODE m.val = 3 → s.bit R.INJ_STAT_KEY_LOADED = false →
    (∀ l ∈ [(s.dport m.val).accA, (s.dport m.val).accB, (s.dport m.val).accZ], s.filtOk m.val l = true ∧ l ≠ some s.tick) →
    old = (if (s.dport m.val).a then 1 else 0) + (if (s.dport m.val).b then 2 else 0) + (if (s.dport m.val).z then 4 else 0) → old ≠ uvw.val →
    old ∈ hallOrder → uvw.val ∈ hallOrder → ∃ t, exec (.hallEdge m uvw) s = .next t ∧
      (hallOrder.idxOf uvw.val = (hallOrder.idxOf old + 1) % 6 ∨ hallOrder.idxOf old = (hallOrder.idxOf uvw.val + 1) % 6 → t.get R.DP_COUNT m.val =
        (((s.get R.DP_COUNT m.val : Int) + (if hallOrder.idxOf uvw.val = (hallOrder.idxOf old + 1) % 6 then 1 else -1)) % 2 ^ 32).toNat) ∧
      (hallOrder.idxOf uvw.val ≠ (hallOrder.idxOf old + 1) % 6 → hallOrder.idxOf old ≠ (hallOrder.idxOf uvw.val + 1) % 6 →
        t.get R.DP_COUNT m.val = s.get R.DP_COUNT m.val
        ∧ t.get R.DP_STAT_HALL_ERR m.val = min (s.get R.DP_STAT_HALL_ERR m.val + 1) R.DP_STAT_HALL_ERR.top)) ∧
  (∀ m s n, s.sampleDue m.val = true → s.get R.DP_CFG_MODE m.val = 1 ∨ s.get R.DP_CFG_MODE m.val = 3 → s.portChan m.val = some n →
    (s.chan n).latchedAt s.tick = false → ∃ t, exec (.dpSample m) s = .next t ∧ (t.dport m.val).sampled = some s.cycle ∧ (t.chan n).sampleTick = s.tick ∧ (t.chan n).edges = 0
      ∧ (t.chan n).pend = some (.port (s.chan n).edges (s.chan n).b2 (s.tick - (s.chan n).lastEdge.getD s.tick)
        ((s.chan n).seed.map fun d => (d.dir, d.t2 - d.t1, d.b2, s.tick - d.t2)) (s.chan n).lin (s.chan n).rep (s.chan n).st (s.chan n).idxIn)) ∧
  (∀ m s, s.get R.DP_CFG_MODE m.val = 2 → (s.dport m.val).ssiBusy = false → s.sampleDue m.val = true →
    (∀ e, (s.dport m.val).ssiEnd = some e → e + s.get R.DP_SSI_RECOVERY m.val * 125 ≤ s.tick) →
    ∃ t, exec (.ssiFrameStart m) s = .next t ∧ (t.dport m.val).ssiBusy = true ∧ (t.dport m.val).ssiStart = s.tick
      ∧ (t.dport m.val).clk = false ∧ (t.dport m.val).idleLow = !(s.dport m.val).bWas) ∧
  (∀ m s n, s.portChan m.val = some n → (s.dport m.val).ssiBusy = true → s.bit R.INJ_STAT_KEY_LOADED = false →
    2 * s.ssiLen m.val + s.get R.DP_SSI_CLK_PER m.val ≤ 4 * (s.tick - (s.dport m.val).ssiStart) →
    ∃ t, exec (.ssiFrameEnd m) s = .next t ∧ (t.dport m.val).ssiBusy = false ∧ (t.dport m.val).clk = true ∧ (t.chan n).pend =
      (if s.ssiBad m.val (s.dport m.val).ssiRaw ((s.dport m.val).ssiTail.getD (s.dport m.val).b) then some (.missing true)
       else some (.word (if s.get R.DP_SSI_PARITY m.val = 0 then (s.dport m.val).ssiRaw else (s.dport m.val).ssiRaw / 2)))) ∧
  (∀ m s n, s.get R.DP_CFG_MODE m.val = 1 → (∀ b, (s.dport m.val).accZ = some b → b + 2 * (s.get R.DP_CFG_FILT m.val + 1) ≤ s.tick) →
    (s.bit R.DP_CFG_Z_QUAL m.val = false ∨ (s.dport m.val).a = true ∧ (s.dport m.val).b = true) →
    s.portChan m.val = some n → s.bit R.FB_IDX_CFG_IDX_EN n = true → s.bit R.INJ_STAT_KEY_LOADED = false → s.bit R.FB_IDX_CFG_IDX_VALID n = true →
    ∃ t, exec (.indexEvent m) s = .next t ∧ t.bit R.FB_IDX_STAT_LAST_OUT n =
      !decide ((((s.chan n).lin % s.cpr n - s.get R.FB_IDX_EXP n + s.cpr n / 2) % s.cpr n - s.cpr n / 2).natAbs ≤ s.get R.FB_IDX_CFG_INDEX_TOL n))

/-- Channels (R129, R130, R141, R150, R152, R153, R156): a waiting sample is used up by its update, a missing one predicts and is counted;
the third invalid sample makes the channel LOST; standstill stops speed and acceleration; FB_CLEAR releases a channel; an emulation output
starts from its target without edges. -/
def Obligations.FeedbackChannels : Prop :=
  (∀ n s, (s.chan n.val).pend = none → exec (.feedbackUpdate n) s = .next s) ∧
  (∀ n s, (s.chan n.val).pend = some (.missing true) → ∃ t, exec (.feedbackUpdate n) s = .next t ∧ (t.chan n.val).pend = none
    ∧ (t.chan n.val).run = (s.chan n.val).run + 1 ∧ t.bit R.FB_QUAL_PREDICTED n.val = true ∧ t.bit R.FB_QUAL_FRESH n.val = false
    ∧ t.get R.FB_QUAL_INVALID_RUN n.val = min 3 ((s.chan n.val).run + 1)
    ∧ t.get R.FB_ERR_INVALID n.val = min (s.get R.FB_ERR_INVALID n.val + 1) R.FB_ERR_INVALID.top) ∧
  (∀ n s v, (s.chan n.val).pend = some (.word v) → (s.jumpTest n.val (s.serialWord n.val v)).2 = false →
    ∃ t, exec (.feedbackUpdate n) s = .next t ∧ (t.chan n.val).pend = none ∧ t.bit R.FB_QUAL_FRESH n.val = true
      ∧ t.bit R.FB_QUAL_PREDICTED n.val = false) ∧
  (∀ n s k b2 dt seed lin rep st idx, (s.chan n.val).pend = some (.port k b2 dt seed lin rep st idx) →
    ∃ t, exec (.feedbackUpdate n) s = .next t ∧ (t.chan n.val).pend = none ∧ t.get R.FB_QUAL_EDGES n.val = min k 0xFFFF
      ∧ t.bit R.FB_QUAL_PREDICTED n.val = decide (st = 3)) ∧
  (∀ n s, 3 ≤ (s.chan n.val).run → (s.chan n.val).lost = false → ∃ t, exec (.fbLost n) s = .next t ∧ (t.chan n.val).lost = true
    ∧ (t.chan n.val).vh = 0 ∧ (t.chan n.val).ah = 0
    ∧ (t.chanMask n.val ≠ 0 → (t.escs.getLast?.map fun e => (e.fatal, e.mask, e.react, e.code)) = some (false, BitVec.ofNat 8 (t.chanMask n.val), t.lossReact n.val, Ev.fbLost))) ∧
  (∀ n s, (s.chan n.val).run < 3 ∨ (s.chan n.val).lost = true → exec (.fbLost n) s = .next s) ∧
  (∀ n s b, (s.chan n.val).lastEdge = some b → ((s.chan n.val).st = 1 ∨ (s.chan n.val).st = 2 ∨ (s.chan n.val).st = 3) → s.get R.FB_CFG_KIND n.val = 2 →
    b + s.get R.FB_OBS_STILL n.val * 1250 ≤ s.tick → ∃ t, exec (.fbStandstill n) s = .next t ∧ (t.chan n.val).st = 0 ∧ (t.chan n.val).vh = 0
      ∧ (t.chan n.val).ah = 0 ∧ (t.chan n.val).ph = (s.chan n.val).lin * 2 ^ 32) ∧
  (∀ k s, s.bit R.EO_CFG_EN k.val = false → ∃ t, exec (.eoEnable k) s = .next t ∧ t.bit R.EO_CFG_EN k.val = true ∧ t.bit R.EO_CFG_LOST k.val = false
    ∧ t.get R.EO_STAT_BACKLOG k.val = 0 ∧ (t.emul k.val).total = 0) ∧
  (∀ d e s, Ready s d 0x16 e → s.notHolder = false → (s.chan (e.bits 4 5 0)).lost = true → s.delivering (e.bits 4 5 0) = false →
    ∃ t, exec (.fbClear d) s = .next t ∧ Closed e t ∧ t.fb = s.fb) ∧
  (∀ d e s, Ready s d 0x16 e → s.notHolder = false → ((s.chan (e.bits 4 5 0)).lost = false ∨ s.delivering (e.bits 4 5 0) = true) →
    ∃ t, exec (.fbClear d) s = .next t ∧ Closed e t ∧ (t.chan (e.bits 4 5 0)).lost = false
      ∧ (hasBit (e.word 5) 0 = true → (t.chan (e.bits 4 5 0)).unver = false)
      ∧ (hasBit (e.word 5) 1 = true → t.bit R.FB_IDX_CFG_IDX_VALID (e.bits 4 5 0) = true))

/-- The accumulating instructions (R160, R162, R163, R165, R167), in every form that the image loader accepts: exact products and sums,
saturated to 72 bits, the overflow shown in STAT. -/
def Obligations.TillerArithmetic : Prop :=
  (∀ tl lanes cond xa yq s, (Instr.mpy4 tl lanes cond xa yq).wf = true → Clean s tl.val → ∃ t, exec (.mpy4 tl lanes cond xa yq) s = .next t ∧
    Lanes s t tl.val lanes cond fun i => ((s.til tl.val).rdX xa.toNat).toInt * ((s.til tl.val).rdY (4 * yq.toNat + i)).toInt) ∧
  (∀ tl lanes cond xa yq s, (Instr.mac4 tl lanes cond xa yq).wf = true → Clean s tl.val → ∃ t, exec (.mac4 tl lanes cond xa yq) s = .next t ∧
    Lanes s t tl.val lanes cond fun i => clampInt 72 ((s.til tl.val).accI i + ((s.til tl.val).rdX xa.toNat).toInt * ((s.til tl.val).rdY (4 * yq.toNat + i)).toInt)) ∧
  (∀ tl lanes cond xa yq s, (Instr.msu4 tl lanes cond xa yq).wf = true → Clean s tl.val → ∃ t, exec (.msu4 tl lanes cond xa yq) s = .next t ∧
    Lanes s t tl.val lanes cond fun i => clampInt 72 ((s.til tl.val).accI i - ((s.til tl.val).rdX xa.toNat).toInt * ((s.til tl.val).rdY (4 * yq.toNat + i)).toInt)) ∧
  (∀ tl lanes cond xa yq s i, (Instr.mac4 tl lanes cond xa yq).wf = true → Clean s tl.val → i ∈ (s.til tl.val).active lanes cond →
    s.bit R.INJ_STAT_KEY_LOADED = false →
    overflows ((s.til tl.val).accI i + ((s.til tl.val).rdX xa.toNat).toInt * ((s.til tl.val).rdY (4 * yq.toNat + i)).toInt) = true →
    ∃ t, exec (.mac4 tl lanes cond xa yq) s = .next t ∧ t.bit R.TL_STAT_ACC_OVF tl.val = true ∧ ∃ e ∈ t.posted, e.code = Ev.tlAccOvf ∧ e.inst = tl.val) ∧
  (∀ tl (lane : BitVec 2) sub xa ya s, (Instr.ftap tl lane sub xa ya).wf = true → Clean s tl.val → ∃ t, exec (.ftap tl lane sub xa ya) s = .next t ∧
    (t.til tl.val).pc = (s.til tl.val).pc + 1 ∧ (t.til tl.val).rdX (xa.toNat + 1) = (s.til tl.val).rdX xa.toNat ∧
    (t.til tl.val).acc.get lane.toNat = BitVec.ofInt 72 (clampInt 72 (if sub
      then (s.til tl.val).accI lane.toNat - ((s.til tl.val).rdX xa.toNat).toInt * ((s.til tl.val).rdY ya.toNat).toInt
      else (s.til tl.val).accI lane.toNat + ((s.til tl.val).rdX xa.toNat).toInt * ((s.til tl.val).rdY ya.toNat).toInt))) ∧
  (∀ tl lanes cond space addr shl quad s, (Instr.lda tl lanes cond space addr shl quad).wf = true → Clean s tl.val →
    ∃ t, exec (.lda tl lanes cond space addr shl quad) s = .next t ∧
      Lanes s t tl.val lanes cond fun i => ((s.til tl.val).rd space (laneAddr addr quad i)).toInt * 2 ^ shl.toNat) ∧
  (∀ tl (dst src : BitVec 2) cond s, (Instr.adda tl dst src cond).wf = true → Clean s tl.val → ∃ t, exec (.adda tl dst src cond) s = .next t ∧
    (t.til tl.val).pc = (s.til tl.val).pc + 1 ∧ (t.til tl.val).acc.get dst.toNat = if (s.til tl.val).cond cond dst.toNat
      then BitVec.ofInt 72 (clampInt 72 ((s.til tl.val).accI dst.toNat + (s.til tl.val).accI src.toNat)) else (s.til tl.val).acc.get dst.toNat) ∧
  (∀ tl (dst src : BitVec 2) cond s, (Instr.suba tl dst src cond).wf = true → Clean s tl.val → ∃ t, exec (.suba tl dst src cond) s = .next t ∧
    (t.til tl.val).pc = (s.til tl.val).pc + 1 ∧ (t.til tl.val).acc.get dst.toNat = if (s.til tl.val).cond cond dst.toNat
      then BitVec.ofInt 72 (clampInt 72 ((s.til tl.val).accI dst.toNat - (s.til tl.val).accI src.toNat)) else (s.til tl.val).acc.get dst.toNat) ∧
  (∀ tl (dst src : BitVec 2) cond s, (Instr.mova tl dst src cond).wf = true → Clean s tl.val → ∃ t, exec (.mova tl dst src cond) s = .next t ∧
    (t.til tl.val).pc = (s.til tl.val).pc + 1 ∧ (t.til tl.val).acc.get dst.toNat =
      if (s.til tl.val).cond cond dst.toNat then (s.til tl.val).acc.get src.toNat else (s.til tl.val).acc.get dst.toNat)

/-- The other instructions (R164 to R167, R178): CLAMP bounds an accumulator and says in the lane's flag whether it changed; TST takes a
bit; CLR clears accumulators and flags; ST stores each active accumulator rounded and saturated; NOP only goes on; an instruction that the
image loader refuses is no instruction of a Tiller; one whose stored word cannot be corrected is a NOP, and an X word that cannot be
corrected reads as 0, both fatal for the joint's group. -/
def Obligations.TillerData : Prop :=
  (∀ tl lanes ya shl s i, (Instr.clamp tl lanes ya shl).wf = true → Clean s tl.val → i < 4 → ∃ t, exec (.clamp tl lanes ya shl) s = .next t ∧
    (t.til tl.val).pc = (s.til tl.val).pc + 1 ∧
    (lanes.getLsbD i = true → (t.til tl.val).acc.get i = BitVec.ofInt 72 (min (max ((s.til tl.val).accI i) (((s.til tl.val).rdY ya.toNat).toInt * 2 ^ shl.toNat)) (((s.til tl.val).rdY (ya.toNat + 1)).toInt * 2 ^ shl.toNat))
      ∧ (t.til tl.val).flg.get i = decide (min (max ((s.til tl.val).accI i) (((s.til tl.val).rdY ya.toNat).toInt * 2 ^ shl.toNat)) (((s.til tl.val).rdY (ya.toNat + 1)).toInt * 2 ^ shl.toNat) ≠ (s.til tl.val).accI i)) ∧
    (lanes.getLsbD i = false → (t.til tl.val).acc.get i = (s.til tl.val).acc.get i ∧ (t.til tl.val).flg.get i = (s.til tl.val).flg.get i)) ∧
  (∀ tl space addr bit inv s, Clean s tl.val → ∃ t, exec (.tst tl space addr bit inv) s = .next t ∧ (t.til tl.val).pc = (s.til tl.val).pc + 1 ∧
    (t.til tl.val).t = (((s.til tl.val).rd space addr.toNat).getLsbD bit.toNat != inv)) ∧
  (∀ tl lanes s i, (Instr.clr tl lanes).wf = true → Clean s tl.val → i < 4 → ∃ t, exec (.clr tl lanes) s = .next t ∧ (t.til tl.val).pc = (s.til tl.val).pc + 1 ∧
    (lanes.getLsbD i = true → (t.til tl.val).acc.get i = 0 ∧ (t.til tl.val).flg.get i = false) ∧
    (lanes.getLsbD i = false → (t.til tl.val).acc.get i = (s.til tl.val).acc.get i ∧ (t.til tl.val).flg.get i = (s.til tl.val).flg.get i)) ∧
  (∀ tl lanes cond space addr shr quad s, (Instr.st tl lanes cond space addr shr quad).wf = true → Clean s tl.val →
    ∃ t, exec (.st tl lanes cond space addr shr quad) s = .next t ∧ (t.til tl.val).pc = (s.til tl.val).pc + 1 ∧
    (∀ i, i ∈ (s.til tl.val).active lanes cond → (t.til tl.val).rd space (laneAddr addr quad i) = (storeWord ((s.til tl.val).accI i) shr.toNat).1) ∧
    (∀ a, (∀ i, i ∈ (s.til tl.val).active lanes cond → a ≠ laneAddr addr quad i) → (t.til tl.val).rd space a = (s.til tl.val).rd space a)) ∧
  (∀ tl s, Clean s tl.val → ∃ t, exec (.tlNop tl) s = .next t ∧ t.til tl.val = { s.til tl.val with pc := (s.til tl.val).pc + 1 }) ∧
  (∀ i tl s, tillerOf i = some tl → i.wf = false → exec i s = .fault .illegalTillerInsn) ∧
  (∀ i tl s, tillerOf i = some tl → i.wf = true → s.bit R.INJ_STAT_KEY_LOADED = false → (s.til tl.val).found 0 (s.til tl.val).pc = some true →
    ∃ t, exec i s = .next t ∧ (t.til tl.val).pc = (s.til tl.val).pc + 1 ∧ (t.til tl.val).acc = (s.til tl.val).acc ∧ (t.til tl.val).flg = (s.til tl.val).flg
      ∧ (t.til tl.val).t = (s.til tl.val).t ∧ (t.til tl.val).x = (s.til tl.val).x ∧ (t.til tl.val).y = (s.til tl.val).y
      ∧ (t.escs.getLast?.map fun e => (e.fatal, e.mask, e.code)) = some (true, BitVec.ofNat 8 (s.groupMaskOf tl.val), Ev.tlEccUncorr)) ∧
  (∀ tl (addr : BitVec 9) bit inv s, s.bit R.INJ_STAT_KEY_LOADED = false → (s.til tl.val).found 0 (s.til tl.val).pc = none →
    (s.til tl.val).found 1 addr.toNat = some true → ∃ t, exec (.tst tl false addr bit inv) s = .next t ∧ (t.til tl.val).rdX addr.toNat = 0
      ∧ (t.til tl.val).t = inv ∧ (t.escs.getLast?.map fun e => (e.fatal, e.code)) = some (true, Ev.tlEccUncorr))

/-- The run of a Tiller around its program (R174, R180, R183, R197): END ends the run, which only a job chained to it can start again in
that tick, with cleared accumulators and flags; it puts out the command word of the joint's state and, in STANDBY and TORQUE_OFF, clears
both integrators; the preload starts once a cycle and completes; saturation for longer than SAT_LIMIT trips once. -/
def Obligations.TillerRun : Prop :=
  (∀ n s, (s.til n.val).running = true → Clean s n.val → (∀ c, c < 16 → (s.me1 c).heldMove = none) → ∃ t, exec (.tlEnd n) s = .next t ∧ ((t.til n.val).running = true → (t.til n.val).start = s.tick ∧ (t.til n.val).pc = 0
      ∧ (t.til n.val).acc = {} ∧ (t.til n.val).flg = {} ∧ (t.til n.val).t = false) ∧ (t.til n.val).held = []
    ∧ (t.til n.val).endCycle = some s.cycle ∧ ((s.til n.val).held = [] →
      s.get R.TL_XADDR_A_CMD_ADDR n.val ≠ s.get R.TL_XADDR_A_GSTAT_ADDR n.val → s.get R.TL_XADDR_A_CMD_ADDR n.val ≠ s.get R.TL_XADDR_B_XI_D_ADDR n.val →
      s.get R.TL_XADDR_A_CMD_ADDR n.val ≠ s.get R.TL_XADDR_B_XI_Q_ADDR n.val → (t.til n.val).rdX (s.get R.TL_XADDR_A_CMD_ADDR n.val)
        = (s.lostEntry n.val).commandWord n.val ((s.lostEntry n.val).gateD n.val) ((s.lostEntry n.val).gateQ n.val))
    ∧ ((s.til n.val).held = [] → (s.lostEntry n.val).jstate n.val = 1 ∨ (s.lostEntry n.val).jstate n.val = 5 →
      s.get R.TL_XADDR_B_XI_D_ADDR n.val ≠ s.get R.TL_XADDR_A_GSTAT_ADDR n.val → s.get R.TL_XADDR_B_XI_Q_ADDR n.val ≠ s.get R.TL_XADDR_A_GSTAT_ADDR n.val →
      (t.til n.val).rdX (s.get R.TL_XADDR_B_XI_D_ADDR n.val) = 0 ∧ (t.til n.val).rdX (s.get R.TL_XADDR_B_XI_Q_ADDR n.val) = 0)) ∧
  (∀ n s, (s.til n.val).running = false → exec (.tlEnd n) s = .next s) ∧
  (∀ n s, s.bit R.TL_CFG_EN n.val = true → s.ticksTo (s.boundaryNs (s.cycle + 1)) ≤ 250 → s.grid.running = true → (s.til n.val).plStart ≠ some s.cycle →
    ∃ t, exec (.preloadFallbackStart n) s = .next t ∧ (t.til n.val).pl = .running ∧ (t.til n.val).plStart = some s.cycle
      ∧ (t.til n.val).plRegion = s.get R.TL_GAIN_REGION_SELECTED n.val) ∧
  (∀ n s, (s.til n.val).pl = .running → ∃ t, exec (.preloadComplete n) s = .next t ∧ (t.til n.val).pl = .complete ∧ (t.til n.val).bank = (s.til n.val).bank
    ∧ (t.til n.val).win = (s.til n.val).win ∧ (s.bit R.TL_REF_CFG_REF_EN n.val = false → (t.til n.val).standby =
      Tab.putList (fun _ => 0) (s.til n.val).standby 0 (s.windowWords n.val (s.til n.val).plRegion))) ∧
  (∀ n s g, (s.til n.val).tripped = false → s.groupOf n.val = some g → s.bit R.INJ_STAT_KEY_LOADED = false →
    s.get R.TL_SAT_CFG_SAT_LIMIT n.val * 100000 < s.get R.TL_SAT_ACC n.val → ∃ t, exec (.tlSatTime n) s = .next t ∧ (t.til n.val).tripped = true
      ∧ t.bit R.TL_JSTAT_SAT_TRIP n.val = true ∧ (t.posted.getLast?.map fun e => (e.code, e.sev, e.inst)) = some (Ev.tlSatTime, .fault, n.val))

/-- ARM_SERVO (R186). An operation that no reason refuses waits for the boundary of the next cycle, ON, RESUME and RESET ending the pace and
reference stops at once; a refused one completes, with nothing else changed in the group. At the boundary ON and RESUME make the joints
ACTIVE, STOP makes them STOPPING with its cause, and RESET brings them to STANDBY and releases the pair, unless a condition holds it
asserted; an operation whose group has left its From state only completes. -/
def Obligations.ArmServo : Prop :=
  (∀ d e s i o, (i, o) ∈ [(Instr.armServoOn d, 0), (.armServoStop d, 1), (.armServoResume d, 2), (.armServoReset d, 3)] → Ready s d 0x10 e →
    s.notHolder = false → e.bits 4 5 4 = o → s.servoReason (e.bits 4 2 0) o = 0 → ∃ t, exec i s = .next t ∧
      (t.group (e.bits 4 2 0)).servo = (s.group (e.bits 4 2 0)).servo ++ [(o, e.key3, s.acceptCycle)] ∧ t.tl = s.tl ∧ t.regs = s.regs ∧
      (if o = 1 then t.pw = s.pw else t.pw.paceStop = [] ∧ t.pw.refStop = none)) ∧
  (∀ d e s i o, (i, o) ∈ [(Instr.armServoOn d, 0), (.armServoStop d, 1), (.armServoResume d, 2), (.armServoReset d, 3)] → Ready s d 0x10 e →
    s.notHolder = false → e.bits 4 5 4 = o → s.servoReason (e.bits 4 2 0) o ≠ 0 →
    ∃ t, exec i s = .next t ∧ Closed e t ∧ t.grp = s.grp ∧ t.tl = s.tl ∧ t.pw = s.pw) ∧
  (∀ (g : Fin 8) k c n s, (s.group g.val).servo = [(0, k, c)] → s.atBoundary = true → (s.group g.val).held = [] → c < s.cycle → n < 64 → s.groupIn g.val 1 = true →
    n ∈ s.jointsIn g.val 1 → ∃ t, exec (.armServoApply g) s = .next t ∧ (t.group g.val).servo = [] ∧ t.jstate n = 2) ∧
  (∀ (g : Fin 8) k c n s, (s.group g.val).servo = [(1, k, c)] → s.atBoundary = true → (s.group g.val).held = [] → (s.group g.val).stop = 0 → c < s.cycle → n < 64 → s.groupIn g.val 2 = true →
    n ∈ s.jointsIn g.val 2 → ∃ t, exec (.armServoApply g) s = .next t ∧ (t.group g.val).servo = [] ∧ (t.group g.val).stop = 1
      ∧ t.jstate n = 3 ∧ t.get R.TL_JSTAT_CAUSE n = 0x0A) ∧
  (∀ (g : Fin 8) k c n s, (s.group g.val).servo = [(2, k, c)] → s.atBoundary = true → (s.group g.val).held = [] → c < s.cycle → n < 64 → s.groupIn g.val 4 = true →
    n ∈ s.jointsIn g.val 4 → ∃ t, exec (.armServoApply g) s = .next t ∧ (t.group g.val).servo = [] ∧ (t.group g.val).stop = 0
      ∧ (t.group g.val).stopEvents = [] ∧ t.jstate n = 2) ∧
  (∀ (g : Fin 8) p k c n s, (s.group g.val).servo = [(3, k, c)] → s.atBoundary = true → (s.group g.val).held = [] → c < s.cycle → n < 64 → s.groupIn g.val 5 = true →
    n ∈ s.jointsIn g.val 5 → s.pairOf g.val = some p → s.pairHeld p = false →
    ∃ t, exec (.armServoApply g) s = .next t ∧ (t.group g.val).servo = [] ∧ (t.group g.val).stopEvents = [] ∧ t.jstate n = 1
      ∧ t.bit R.AD_STO_STAT_ASSERTED p = false ∧ t.get R.AD_STO_STAT_CAUSE p = 0
      ∧ t.bit R.AD_STO_STAT_DRIVE_A p = true ∧ t.bit R.AD_STO_STAT_DRIVE_B p = true) ∧
  (∀ (g : Fin 8) o k c s, (s.group g.val).servo = [(o, k, c)] → s.atBoundary = true → c < s.cycle → s.groupIn g.val (servoFrom o) = false →
    ∃ t, exec (.armServoApply g) s = .next t ∧ (t.group g.val).servo = [] ∧ t.tl = s.tl ∧ ∀ n, n < 64 → t.jstate n = s.jstate n) ∧
  (∀ (g : Fin 8) o k c s, (s.group g.val).servo = [(o, k, c)] → s.cycle ≤ c ∨ s.atBoundary = false →
    ∃ t, exec (.armServoApply g) s = .next t ∧ (t.group g.val).servo = [(o, k, c)] ∧ t.tl = s.tl ∧ t.regs = s.regs)

/-- The end of a stop (R184): at a boundary with every joint of the group at standstill an SS2 ends in HELD, and the position then is held;
an SS1 ends in TORQUE_OFF with the group's pair asserted, at standstill or when SS1_TIMEOUT is over; before that neither changes anything.
-/
def Obligations.StopEnds : Prop :=
  (∀ (g : Fin 8) n s, n < 64 → n ∈ s.jointsIn g.val 3 → s.atBoundary = true → (∀ m ∈ s.joints g.val, s.jointStill m = true) →
    (s.group g.val).stop = 1 → ∃ t, exec (.standstillReached g) s = .next t ∧ t.jstate n = 4 ∧ (t.til n).heldPos = s.jointPos n
      ∧ (t.group g.val).stop = 0) ∧
  (∀ (g : Fin 8) n p s, n < 64 → n ∈ s.joints g.val → s.jstate n ≠ 0 → s.atBoundary = true → (∀ m ∈ s.joints g.val, s.jointStill m = true) →
    (s.group g.val).stop = 2 → s.pairOf g.val = some p → ∃ t, exec (.standstillReached g) s = .next t ∧ t.jstate n = 5
      ∧ (t.group g.val).stop = 0 ∧ t.bit R.AD_STO_STAT_ASSERTED p = true ∧ t.bit R.AD_STO_STAT_DRIVE_A p = false ∧ t.bit R.AD_STO_STAT_DRIVE_B p = false) ∧
  (∀ (g : Fin 8) m s, m ∈ s.joints g.val → s.jointStill m = false ∨ s.atBoundary = false → exec (.standstillReached g) s = .next s) ∧
  (∀ (g : Fin 8) n p s, n < 64 → n ∈ s.joints g.val → s.jstate n ≠ 0 → (s.group g.val).stop = 2 → s.pairOf g.val = some p →
    (s.group g.val).ss1Start + s.ss1Ticks g.val ≤ s.tick → ∃ t, exec (.ss1TimeoutExpiry g) s = .next t ∧ t.jstate n = 5
      ∧ (t.group g.val).stop = 0 ∧ t.bit R.AD_STO_STAT_ASSERTED p = true ∧ t.bit R.AD_STO_STAT_DRIVE_A p = false ∧ t.bit R.AD_STO_STAT_DRIVE_B p = false) ∧
  (∀ (g : Fin 8) s, (s.group g.val).stop ≠ 2 ∨ s.tick < (s.group g.val).ss1Start + s.ss1Ticks g.val →
    exec (.ss1TimeoutExpiry g) s = .next s)

/-- The descriptors of motion (R201, R202, R205, R207, R217, R219): a MOVE or MOVE_GROUP that no reason refuses gives each axis its segment,
to be planned or to wait for its trigger, or queues it; ABORT takes a moving axis to its ramp; HOME takes HOMED away and starts in its mode;
MP_CLEAR clears a chatter latch. A refused one completes and changes no generator. -/
def Obligations.MotionDescriptors : Prop :=
  (∀ d e s, Ready s d 0x11 e → s.notHolder = false → e.gen < 80 → s.moveReason e.gen e.moveFlags (signed 64 (e.addr 6)) = 0 →
    ∃ t, exec (.move d) s = .next t ∧ (e.moveFlags.atEnd = false → Closed e t) ∧
      (s.genState e.gen = 1 → t.genState e.gen = (if e.moveFlags.trigger then 6 else 2) ∧ ∃ m, (t.gen e.gen).cur = some m
        ∧ m.target = s.moveTarget e.gen e.moveFlags (signed 64 (e.addr 6)) ∧ m.group = none ∧ m.cycle = s.acceptCycle
        ∧ m.desc = if e.moveFlags.atEnd then some e.key3 else none) ∧
      (s.genState e.gen ≠ 1 → t.genState e.gen = s.genState e.gen ∧ (t.gen e.gen).cur = (s.gen e.gen).cur ∧
        ∃ m, (t.gen e.gen).queue = (s.gen e.gen).queue ++ [m] ∧ m.target = s.moveTarget e.gen e.moveFlags (signed 64 (e.addr 6)) ∧ m.group = none)) ∧
  (∀ d e s, Ready s d 0x11 e → s.notHolder = false → s.moveReason e.gen e.moveFlags (signed 64 (e.addr 6)) ≠ 0 →
    ∃ t, exec (.move d) s = .next t ∧ Closed e t ∧ t.mp = s.mp) ∧
  (∀ d e s vs g v, Ready s d 0x12 e → s.notHolder = false → s.groupReason (s.groupMembers (e.bits 4 3 0)) (e.word 8) e.moveFlags = 0 →
    s.groupReason2 e.moveFlags (((s.groupMembers (e.bits 4 3 0)).zip vs).map fun x => (x.1, s.moveTarget x.1 e.moveFlags (clampInt 64 x.2))) = 0 →
    (g, v) ∈ (s.groupMembers (e.bits 4 3 0)).zip vs → s.genState g = 1 →
    ∃ t, exec (.moveGroup d (some vs)) s = .next t ∧ t.genState g = (if e.moveFlags.trigger then 6 else 2) ∧ ∃ m, (t.gen g).cur = some m
      ∧ m.target = s.moveTarget g e.moveFlags (clampInt 64 v) ∧ m.group = some (e.bits 4 3 0)) ∧
  (∀ d e s vs, Ready s d 0x12 e → s.notHolder = false → s.groupReason (s.groupMembers (e.bits 4 3 0)) (e.word 8) e.moveFlags ≠ 0 ∨ vs = none →
    ∃ t, exec (.moveGroup d vs) s = .next t ∧ Closed e t ∧ t.mp = s.mp) ∧
  (∀ d e s m, Ready s d 0x13 e → s.notHolder = false → e.gen < 80 → s.genState e.gen = 3 → (s.gen e.gen).cur = some m →
    ∃ t, exec (.abort d) s = .next t ∧ Closed e t ∧ t.genState e.gen = 4 ∧ t.get R.MP_STAT_CAUSE e.gen = 1 ∧ (t.gen e.gen).cur = none
      ∧ (t.gen e.gen).queue = []) ∧
  (∀ d e s, Ready s d 0x13 e → s.notHolder = false → s.genAtRest e.gen = true →
    ∃ t, exec (.abort d) s = .next t ∧ Closed e t ∧ t.mp = s.mp) ∧
  (∀ d e s, Ready s d 0x14 e → s.notHolder = false → e.gen < 80 → s.homeNotReady e.gen = false →
    ∃ t, exec (.home d) s = .next t ∧ t.genState e.gen = 5 ∧ t.bit R.MP_STAT_HOMED e.gen = false ∧ (t.gen e.gen).homeDesc = some e.key3
      ∧ (t.gen e.gen).plan.isSome = true) ∧
  (∀ d e s, Ready s d 0x14 e → s.notHolder = false → e.gen < 80 → s.homeNotReady e.gen = true →
    ∃ t, exec (.home d) s = .next t ∧ Closed e t ∧ t.get R.MP_STAT_HOME_RESULT e.gen = 0x16 ∧ t.mp = s.mp) ∧
  (∀ d e s, Ready s d 0x15 e → s.notHolder = false → e.bits 4 5 0 < 48 → hasBit (e.word 5) 0 = true → s.axinRecent (e.bits 4 5 0) = false →
    ∃ t, exec (.mpClear d) s = .next t ∧ Closed e t ∧ t.chatLatched (e.bits 4 5 0) = false ∧ t.axinTimes (e.bits 4 5 0) = []) ∧
  (∀ d e s, Ready s d 0x15 e → s.notHolder = false → hasBit (e.word 5) 0 = false ∨ s.axinRecent (e.bits 4 5 0) = true →
    ∃ t, exec (.mpClear d) s = .next t ∧ Closed e t ∧ t.chatLatched = s.chatLatched)

/-- Profile and step generators (R199, R200, R209 to R212, R214): a planned move starts; a sample lies on its plan, and the last one on its
target; a generator whose joint is not under servo follows the measured position; the word of a step axis brings its due position to the
sample within the rate bound; a lost RDY stops the axis at its issued count. -/
def Obligations.MotionGenerators : Prop :=
  (∀ (g : Fin 80) m s, s.genState g.val = 2 → (s.gen g.val).cur = some m → m.cycle < s.cycle → ∃ t, exec (.movePlan g) s = .next t ∧
    t.genState g.val = 3 ∧ (t.gen g.val).plan = some (s.segPlan g.val m) ∧ (t.gen g.val).ptime = 0 ∧ (t.gen g.val).tgt = m.target
      ∧ (t.gen g.val).start = max (m.cycle + 2) (s.cycle + 1)) ∧
  (∀ (g : Fin 80) s, s.genState g.val ≠ 2 → exec (.movePlan g) s = .next s) ∧
  (∀ (g : Fin 80) pl s, s.grid.running = true → s.bit R.MP_CFG_EN g.val = true → s.genState g.val = 3 → (s.gen g.val).home = .none →
    (s.gen g.val).sampled ≠ some s.cycle → s.genTracks g.val = false → (s.gen g.val).plan = some pl → (s.gen g.val).start ≤ s.cycle →
    pl.ended ((s.gen g.val).ptime + s.scaleOf g.val * s.cycleNs) = false → ∃ t, exec (.generatorSample g) s = .next t ∧
      (t.gen g.val).sampled = some s.cycle ∧ (t.gen g.val).ptime = (s.gen g.val).ptime + s.scaleOf g.val * s.cycleNs ∧
      (t.gen g.val).pos = roundRat ((pl.at ((s.gen g.val).ptime + s.scaleOf g.val * s.cycleNs)).p * 65536)) ∧
  (∀ (g : Fin 80) pl e m s, s.grid.running = true → s.bit R.MP_CFG_EN g.val = true → s.genState g.val = 3 → (s.gen g.val).home = .none →
    (s.gen g.val).sampled ≠ some s.cycle → s.genTracks g.val = false → (s.gen g.val).plan = some pl → (s.gen g.val).start ≤ s.cycle →
    pl.ended ((s.gen g.val).ptime + s.scaleOf g.val * s.cycleNs) = true → pl.target = some e → (s.gen g.val).queue = [] →
    (s.gen g.val).cur = some m → ∃ t, exec (.generatorSample g) s = .next t ∧ t.genState g.val = 1 ∧ (t.gen g.val).pos = e ∧
      (t.gen g.val).vel = 0 ∧ (t.gen g.val).acc = 0 ∧ (t.gen g.val).cur = none) ∧
  (∀ (g : Fin 80) c s, s.grid.running = true → s.bit R.MP_CFG_EN g.val = true → s.genState g.val = 1 → (s.gen g.val).home = .none →
    (s.gen g.val).sampled ≠ some s.cycle → s.genTracks g.val = true → s.chanOf g.val = some c → ∃ t, exec (.generatorSample g) s = .next t ∧
      t.genState g.val = 1 ∧ (t.gen g.val).pos = (s.chan c).lin * 65536 ∧ (t.gen g.val).vel = 0 ∧ (t.gen g.val).acc = 0) ∧
  (∀ (g : Fin 80) s, s.grid.running = false ∨ s.bit R.MP_CFG_EN g.val = false ∨ s.genState g.val = 0 ∨ (s.gen g.val).sampled = some s.cycle →
    exec (.generatorSample g) s = .next s) ∧
  (∀ (k : Fin 16) s, s.grid.running = true → s.bit R.MP_CFG_EN (64 + k.val) = true → 625 ≤ s.intoCycle + 1 → (s.stepGen k.val).loaded ≠ some s.cycle →
    s.bit R.INJ_STAT_KEY_LOADED = false → (s.gen (64 + k.val)).sampled = some s.cycle → ∃ t, exec (.velocityWordLoad k) s = .next t ∧
      (t.stepGen k.val).word = max (-wordMax) (min (s.feedWord k.val) wordMax) ∧ (t.stepGen k.val).loaded = some s.cycle) ∧
  (∀ (k : Fin 16) s, s.grid.running = true → s.bit R.MP_CFG_EN (64 + k.val) = true → 625 ≤ s.intoCycle + 1 → (s.stepGen k.val).loaded ≠ some s.cycle →
    s.bit R.INJ_STAT_KEY_LOADED = false → (s.gen (64 + k.val)).sampled ≠ some s.cycle → ∃ t, exec (.velocityWordLoad k) s = .next t ∧
      (t.stepGen k.val).word = (s.stepGen k.val).word ∧ (t.posted.getLast?.map fun e => (e.code, e.sev, e.inst)) = some (Ev.stFeedLate, .notice, k.val)) ∧
  (∀ (k : Fin 16) s, s.intoCycle + 1 < 625 ∨ (s.stepGen k.val).loaded = some s.cycle → exec (.velocityWordLoad k) s = .next s) ∧
  (∀ (k : Fin 16) s, s.debounced (s.stepGen k.val).rdyAt = true → (s.stepGen k.val).rdy = true → (s.stepGen k.val).enPin = true → s.genAtRest (64 + k.val) = false → s.genState (64 + k.val) ≠ 0 →
    (s.gen (64 + k.val)).cur = none → ∃ t, exec (.stkRdyChange k false) s = .next t ∧ (t.stepGen k.val).rdy = false ∧ (t.stepGen k.val).word = 0
      ∧ (t.stepGen k.val).steps = (s.stepGen k.val).issued ∧ (t.stepGen k.val).phase = 0 ∧ t.genState (64 + k.val) = 1
      ∧ t.get R.MP_STAT_CAUSE (64 + k.val) = 7 ∧ t.bit R.MP_STAT_HOMED (64 + k.val) = false ∧ (t.gen (64 + k.val)).pos = (s.stepGen k.val).issued * 65536) ∧
  (∀ (k : Fin 16) s, s.debounced (s.stepGen k.val).rdyAt = true → (s.stepGen k.val).rdy = true → (s.stepGen k.val).enPin = true → s.genAtRest (64 + k.val) = true →
    ∃ t, exec (.stkRdyChange k false) s = .next t ∧ (t.stepGen k.val).rdy = false ∧ (t.stepGen k.val).word = 0 ∧
      (s.bit R.ST_CFG_HOLD k.val = true → (t.stepGen k.val).phase = (s.stepGen k.val).phase ∧ t.bit R.MP_STAT_HOMED (64 + k.val) = s.bit R.MP_STAT_HOMED (64 + k.val)) ∧
      (s.bit R.ST_CFG_HOLD k.val = false → (t.stepGen k.val).phase = 0 ∧ t.bit R.MP_STAT_HOMED (64 + k.val) = false)) ∧
  (∀ (k : Fin 16) s, s.debounced (s.stepGen k.val).rdyAt = true → (s.stepGen k.val).rdy = false → ∃ t, exec (.stkRdyChange k true) s = .next t ∧
    (t.stepGen k.val).rdy = true ∧ (t.stepGen k.val).rdyAt = s.tick ∧ t.bit R.ST_STAT_RDY k.val = true ∧ t.gen = s.gen) ∧
  (∀ (k : Fin 16) b s, s.debounced (s.stepGen k.val).rdyAt = false ∨ (s.stepGen k.val).rdy = b → exec (.stkRdyChange k b) s = .next s)

/-- Axis inputs and the end of homing (R216 to R218, R220): a transition that eight samples have shown changes the shown level and is dated
at its first sample; a limit on the side of the motion aborts it; five transitions within 10 ms latch the input; at rest after its home
event an axis takes its new position and its HOMED. -/
def Obligations.MotionInputs : Prop :=
  (∀ (n : Fin 48) lv s, s.debounced (axinSince s n.val) = true → (lv != s.axinInv n.val) = true → s.axin n.val = false → s.usersOf n.val = [] →
    s.bit R.INJ_STAT_KEY_LOADED = false → ∃ t, exec (.axinLevelChange n lv) s = .next t ∧ t.axin n.val = true ∧
      (t.axinTimes n.val).getLast? = some (s.sch.samples.headD 0, s.tick) ∧ (t.axinTimes n.val).length = min 5 ((s.axinTimes n.val).length + 1)) ∧
  (∀ (n : Fin 48) lv g m s, s.debounced (axinSince s n.val) = true → (lv != s.axinInv n.val) = true → s.axin n.val = false → s.usersOf n.val = [g] →
    s.bit R.INJ_STAT_KEY_LOADED = false → s.genState g = 3 → s.limitAhead g n.val = true → (s.gen g).cur = some m → m.group = none →
    ∃ t, exec (.axinLevelChange n lv) s = .next t ∧ t.genState g = 4 ∧ t.get R.MP_STAT_CAUSE g = 3 ∧
      (t.posted.getLast?.map fun e => (e.code, e.sev, e.inst)) = some (Ev.mpLimit, .fault, n.val)) ∧
  (∀ (n : Fin 48) lv s, s.debounced (axinSince s n.val) = false → exec (.axinLevelChange n lv) s = .next s) ∧
  (∀ (n : Fin 48) s, s.chatLatched n.val = false → s.axinFive n.val = true → s.usersOf n.val = [] → s.bit R.INJ_STAT_KEY_LOADED = false →
    ∃ t, exec (.mpChatter n) s = .next t ∧ t.chatLatched n.val = true ∧ t.axin n.val = true) ∧
  (∀ (n : Fin 48) s, s.chatLatched n.val = true ∨ (s.axinFive n.val = false ∧ s.bit R.INJ_STAT_KEY_LOADED = false) →
    exec (.mpChatter n) s = .next s) ∧
  (∀ (g : Fin 80) s, (s.gen g.val).home = .final → (s.gen g.val).plan = none → (s.gen g.val).vel = 0 → (s.gen g.val).acc = 0 → 64 ≤ g.val →
    (s.stepGen (g.val - 64)).pend = [] → ∃ t, exec (.homeShift g) s = .next t ∧ t.bit R.MP_STAT_HOMED g.val = true ∧ t.genState g.val = 1 ∧
      t.get R.MP_STAT_HOME_RESULT g.val = 0 ∧ (t.gen g.val).home = .none ∧
      (t.gen g.val).pos = (s.gen g.val).pos + (s.get64i R.MP_HOME_OFS_LO R.MP_HOME_OFS_HI 64 g.val - (s.gen g.val).homeLatch) ∧
      (t.stepGen (g.val - 64)).steps * 2 ^ 48 + (t.stepGen (g.val - 64)).phase = (s.stepGen (g.val - 64)).steps * 2 ^ 48 + (s.stepGen (g.val - 64)).phase
        + (s.get64i R.MP_HOME_OFS_LO R.MP_HOME_OFS_HI 64 g.val - (s.gen g.val).homeLatch) * 2 ^ 32 ∧
      (t.stepGen (g.val - 64)).issued - (t.stepGen (g.val - 64)).steps = (s.stepGen (g.val - 64)).issued - (s.stepGen (g.val - 64)).steps) ∧
  (∀ (g : Fin 80) c s, (s.gen g.val).home = .final → (s.gen g.val).plan = none → (s.gen g.val).vel = 0 → (s.gen g.val).acc = 0 → g.val < 64 →
    s.chanOf g.val = some c → (s.gen g.val).homeIdx = none → ∃ t, exec (.homeShift g) s = .next t ∧ t.bit R.MP_STAT_HOMED g.val = true ∧ t.genState g.val = 1 ∧
      (t.chan c).lin = (s.chan c).lin + roundDiv (s.get64i R.MP_HOME_OFS_LO R.MP_HOME_OFS_HI 64 g.val - (s.gen g.val).homeLatch) 65536) ∧
  (∀ (g : Fin 80) s, (s.gen g.val).home ≠ .final ∨ (s.gen g.val).plan.isSome = true → exec (.homeShift g) s = .next s)

/-- The end of a solve (R225, R245, R249 to R256, R266, R267): by its own exit, or at t_cut by the phase it was in, a solve delivers its
outcome; an input outside its certified range makes it 4; an arm engine's fallback before its first solved outcome shows HOLD; past its
deadline it publishes nothing. A run that reaches its persistence requests a protective stop once, and a write of FORCE_COLD advances the
force generation, which makes the next solve start cold. -/
def Obligations.SolverOutcomes : Prop :=
  (∀ (e : Fin 9) s, Solving s e.val → s.rangeBreach e.val = none → ∃ t, exec (.solveEnd e) s = .next t ∧
    Kept.after s t e.val (s.outcomeOf e.val (solveOutcome s e.val .step (solveOf s e.val))) (solveOf s e.val).2) ∧
  (∀ (e : Fin 9) b s, Solving s e.val → s.rangeBreach e.val = some b → ∃ t, exec (.solveEnd e) s = .next t ∧
    Kept.after s t e.val (s.outcomeOf e.val 4) (.error b.var)) ∧
  (∀ (e : Fin 9) s, (s.eng e.val).running = true → s.pastDeadline e.val = true → ∃ t, exec (.solveEnd e) s = .next t ∧
    (t.eng e.val).kept = (s.eng e.val).kept ∧ t.get R.SV_STATUS e.val = s.get R.SV_STATUS e.val) ∧
  (∀ (e : Fin 9) s, (s.eng e.val).running = false → exec (.solveEnd e) s = .next s) ∧
  (∀ (e : Fin 9) p n s, Solving s e.val → s.bit R.SV_CFG_EN e.val = true → s.cutDue e.val = true → s.rangeBreach e.val = none → p ≠ .former →
    ∃ t, exec (.solveCut e p n) s = .next t ∧
      Kept.after s t e.val (s.outcomeOf e.val (solveOutcome s e.val p (s.runSolve e.val (some n)))) (s.runSolve e.val (some n)).2) ∧
  (∀ (e : Fin 9) n s, Solving s e.val → s.bit R.SV_CFG_EN e.val = true → s.cutDue e.val = true → s.rangeBreach e.val = none →
    ∃ t, exec (.solveCut e .former n) s = .next t ∧ Kept.after s t e.val (s.outcomeOf e.val 9) (.error 0)) ∧
  (∀ (e : Fin 9) p n b s, Solving s e.val → s.bit R.SV_CFG_EN e.val = true → s.cutDue e.val = true → s.rangeBreach e.val = some b →
    ∃ t, exec (.solveCut e p n) s = .next t ∧ Kept.after s t e.val (s.outcomeOf e.val 4) (.error b.var)) ∧
  (∀ (e : Fin 9) p n s, s.bit R.SV_CFG_EN e.val = true → s.cutDue e.val = true → (s.eng e.val).running = false →
    ∃ t, exec (.solveCut e p n) s = .next t ∧ Kept.after s t e.val (s.outcomeOf e.val 9) (.error 0)) ∧
  (∀ (e : Fin 9) p n s, s.bit R.SV_CFG_EN e.val = false ∨ s.cutDue e.val = false → exec (.solveCut e p n) s = .next s) ∧
  (∀ (e : Fin 9) s, s.persists e.val = true → (s.eng e.val).stopArmed = true → ∃ t, exec (.svStopReq e) s = .next t ∧
    (t.eng e.val).stopReq = true ∧ (t.eng e.val).stopArmed = false ∧ hasBit (t.get R.SV_STATUS e.val) 7 = true ∧
    (t.posted.getLast?.map fun v => (v.code, v.sev, v.inst)) = some (Ev.svStopReq, .fault, e.val) ∧
    (t.escs.getLast?.map fun v => (v.mask, v.react)) = some (BitVec.ofNat 8 (s.svMask e.val), reactOf (s.get R.SV_RT_CFG_A_STOP_REACT e.val))) ∧
  (∀ (e : Fin 9) s, s.persists e.val = false ∨ (s.eng e.val).stopArmed = false → exec (.svStopReq e) s = .next s) ∧
  (∀ (e : Fin 9) s, ∃ t, exec (.forceColdWrite e) s = .next t ∧ (t.eng e.val).force = (s.eng e.val).force + 1)

/-- The phases of a separation period (R280 to R286). With one arm under separation, no scanner and no zone, the protection phase lets the
arm move at KMAX 1.0 unless its speed is beyond the stopping table, which is a STOP with KMAX 0 that is counted when it is new; the rows
phase writes the arm's rows and then inactive ones; a period abandoned at the handover limit leaves KMAX 0 for every arm. Each phase comes
once in its period. -/
def Obligations.SeparationPhases : Prop :=
  (∀ f s, s.sepOn = true → s.sep.protDone = false → s.sep.geomFail = false →
    ∃ t, exec (.sepProtectionEnd f) s = .next t ∧ t.sep.protDone = true ∧ t.sep.givenTick = some s.tick) ∧
  (∀ (a : Fin 8) f s, s.sepOn = true → s.sep.protDone = false → s.sep.geomFail = false → s.bit R.INJ_STAT_KEY_LOADED = false → s.scanners = [] →
    s.sepBits 0 20 14 = 0 → s.sepArms = [a.val] → (s.stopTable a.val (s.speedIndex a.val (s.armPose a.val).v)).2 = false →
    ∃ t, exec (.sepProtectionEnd f) s = .next t ∧ hasBit t.sep.stopArms a.val = false ∧ t.gr2 (s.sepOut + 32 + a.val) = 0x8000) ∧
  (∀ (a : Fin 8) f s, s.sepOn = true → s.sep.protDone = false → s.sep.geomFail = false → s.bit R.INJ_STAT_KEY_LOADED = false → s.scanners = [] →
    s.sepBits 0 20 14 = 0 → s.sepArms = [a.val] → (s.stopTable a.val (s.speedIndex a.val (s.armPose a.val).v)).2 = true →
    hasBit s.sep.stopArms a.val = false → ∃ t, exec (.sepProtectionEnd f) s = .next t ∧
      hasBit t.sep.stopArms a.val = true ∧ t.gr2 (s.sepOut + 32 + a.val) = 0 ∧
      t.get R.SEP_COUNT_PROTECT = min (s.get R.SEP_COUNT_PROTECT + 1) R.SEP_COUNT_PROTECT.top) ∧
  (∀ f s, s.sepOn = false ∨ s.sep.protDone = true ∨ s.sep.geomFail = true → exec (.sepProtectionEnd f) s = .next s) ∧
  (∀ a s, s.sepOn = true → s.sep.protDone = true → s.sep.rowsDone = false → s.sep.geomFail = false → s.sepArms = [a] →
    ∃ t, exec .sepRowsEnd s = .next t ∧ t.sep.rowsDone = true ∧ ∀ k, k < (rowArea s a).length → t.gr2 (s.sepOut + 256 + k) = (rowArea s a).getD k 0) ∧
  (∀ s, s.sepOn = true → s.sep.protDone = true → s.sep.rowsDone = false → s.sep.geomFail = false →
    ∃ t, exec .sepRowsEnd s = .next t ∧ t.sep.rowsDone = true) ∧
  (∀ s, s.sepOn = false ∨ s.sep.protDone = false ∨ s.sep.rowsDone = true ∨ s.sep.geomFail = true → exec .sepRowsEnd s = .next s) ∧
  (∀ s a, s.sepOn = true → s.sep.protDone = false → s.sep.geomFail = false → s.handLimit = true → s.sepArms = [] → a < 8 →
    ∃ t, exec .sepGeomFail s = .next t ∧ t.sep.geomFail = true ∧ t.bit R.SEP_STAT_GEOM_FAIL = true ∧ t.gr2 (s.sepOut + 32 + a) = 0) ∧
  (∀ s, s.sepOn = false ∨ s.sep.protDone = true ∨ s.sep.geomFail = true ∨ s.handLimit = false → exec .sepGeomFail s = .next s)

/-- Belvedere (R273, R287 to R293): it poses 20 µs after the boundary and compares what it was given; a failed check is posted, escalated as
SS1 and starts BV_DELAY, as a missed comparison does for every arm; when the delay is over, or an SS1 that it watches has not ended within
its grace, it latches the arm and asserts its pair. -/
def Obligations.Belvedere : Prop :=
  (∀ s, s.sepOn = true → s.sep.bvPosed = false → s.sep.start + 2500 ≤ s.tick → ∃ t, exec .bvPoseStart s = .next t ∧ t.sep.bvPosed = true ∧ t.regs = s.regs) ∧
  (∀ s, s.sepOn = false ∨ s.sep.bvPosed = true ∨ s.tick < s.sep.start + 2500 → exec .bvPoseStart s = .next s) ∧
  (∀ s, s.sepOn = true → s.sep.bvPosed = true → s.sep.bvDone = false → s.sep.bvMissed = false → s.sep.givenTick.isSome = true → s.bvLimit = false →
    ∃ t, exec .bvComparison s = .next t ∧ t.sep.bvDone = true) ∧
  (∀ s h, s.sepOn = true → s.sep.bvPosed = true → s.sep.bvDone = false → s.sep.bvMissed = false → s.sep.givenTick.isSome = true → s.bvLimit = false →
    s.bit R.INJ_STAT_KEY_LOADED = false → s.sep.given = [h] → s.bvChecks h (s.bvResults h) = [] →
    ((s.bvResults h).beyond || (s.bvResults h).nom.any fun n => decide (n.2.1 < n.2.2)) = h.stop →
    ∃ t, exec .bvComparison s = .next t ∧ t.sep.bvDone = true ∧ t.posted = s.posted ∧ t.escs = s.escs) ∧
  (∀ s h b l, s.sepOn = true → s.sep.bvPosed = true → s.sep.bvDone = false → s.sep.bvMissed = false → s.sep.givenTick.isSome = true → s.bvLimit = false →
    s.bit R.INJ_STAT_KEY_LOADED = false → s.sep.given = [h] → s.bvChecks h (s.bvResults h) = b :: l → s.get R.SEP_BV_CFG_BV_DELAY ≠ 0 →
    ∃ t, exec .bvComparison s = .next t ∧ t.sep.bvDone = true ∧ t.sep.lastCheck = b.check ∧
      (t.posted.getLast?.map fun v => (v.code, v.sev, v.inst)) = some (Ev.sepBvDisagree, .fault, h.arm) ∧
      (t.escs.getLast?.map fun v => (v.mask, v.react)) = some (BitVec.ofNat 8 (2 ^ h.arm), .ss1) ∧
      (Tab.get (fun _ => none) t.sep.delay h.arm).isSome = true) ∧
  (∀ s, s.sepOn = false ∨ s.sep.bvPosed = false ∨ s.sep.bvDone = true ∨ s.sep.bvMissed = true ∨ s.bvLimit = true → exec .bvComparison s = .next s) ∧
  (∀ s g, s.sepOn = true → s.sep.bvMissed = false → s.handLimit = true → s.sep.givenTick = none → s.bit R.INJ_STAT_KEY_LOADED = false →
    s.get R.SEP_BV_CFG_BV_DELAY ≠ 0 → g ∈ s.sepArms → ∃ t, exec .sepBvMissed s = .next t ∧ t.sep.bvMissed = true ∧
      (t.posted.getLast?.map fun v => (v.code, v.sev)) = some (Ev.sepBvMissed, .fault) ∧
      (t.escs.getLast?.map fun v => (v.mask, v.react)) = some (BitVec.ofNat 8 s.sepMask, .ss1) ∧
      (Tab.get (fun _ => none) t.sep.delay g).isSome = true) ∧
  (∀ s, s.sepOn = false ∨ s.sep.bvMissed = true ∨ (s.handLimit = false ∧ s.sep.geomFail = false) → exec .sepBvMissed s = .next s) ∧
  (∀ (g : Fin 8) n p k s, Tab.get (fun _ => none) s.sep.delay g.val = some k → k + s.get R.SEP_BV_CFG_BV_DELAY * 125000 ≤ s.tick → s.sep.globalDelay = false →
    s.pairOf g.val = some p → n < 64 → n ∈ s.groupTillers g.val → s.jstate n ≠ 0 → ∃ t, exec (.bvDelayExpiry g) s = .next t ∧
      hasBit t.sio.bvLatch g.val = true ∧ t.bit R.AD_STO_STAT_ASSERTED p = true ∧ t.jstate n = 5) ∧
  (∀ (g : Fin 8) k s, Tab.get (fun _ => none) s.sep.delay g.val = none ∨ (Tab.get (fun _ => none) s.sep.delay g.val = some k ∧
    s.tick < k + s.get R.SEP_BV_CFG_BV_DELAY * 125000) → exec (.bvDelayExpiry g) s = .next s) ∧
  (∀ (g : Fin 8) n p k s, Tab.get (fun _ => none) s.sep.ss1 g.val = some k → k + s.ss1Ticks g.val + s.get R.SEP_RR_CFG_BV_SS1_GRACE * 125000 ≤ s.tick →
    s.sep.globalDelay = false → s.pairOf g.val = some p → n < 64 → n ∈ s.groupTillers g.val → s.jstate n ≠ 0 → ∃ t, exec (.sepBvSs1 g) s = .next t ∧
      hasBit t.sio.bvLatch g.val = true ∧ t.bit R.AD_STO_STAT_ASSERTED p = true ∧ t.jstate n = 5 ∧
      (t.posted.getLast?.map fun v => (v.code, v.sev, v.inst)) = some (Ev.sepBvSs1, .fault, g.val)) ∧
  (∀ (g : Fin 8) k s, Tab.get (fun _ => none) s.sep.ss1 g.val = none ∨ (Tab.get (fun _ => none) s.sep.ss1 g.val = some k ∧
    s.tick < k + s.ss1Ticks g.val + s.get R.SEP_RR_CFG_BV_SS1_GRACE * 125000) → exec (.sepBvSs1 g) s = .next s)

/-- The task scheduler (R299 to R306). A release makes a waiting job, is held while the previous job has not ended, or is dropped and
counted; a reserved job starts its idle Tiller; the earliest-deadline stage gives an idle unit the job with the lesser deadline; a TIMER
entry that is due is released at the scheduler tick and its due time advances by the period; a missed deadline is counted, and posted and
escalated by the task's class. Each of these commands leaves the state as it is where it is not due. -/
def Obligations.SchedulerJobs : Prop :=
  (∀ (i : Fin 4096) s, s.bit R.INJ_STAT_KEY_LOADED = false → s.grid.running = true → s.grid.cyc.isSome = true → s.get R.SCH_TASK_A_RELEASE i.val = 2 →
    s.cycle % max 1 (s.get R.SCH_TASK_D_MULT i.val) = s.get R.SCH_TASK_D_PHASE i.val → s.get R.SCH_TASK_D_OFFSET i.val ≤ s.intoCycle →
    (s.task i.val).lastCycle ≠ some s.cycle → s.sch.active = true → (s.task i.val).ready = none → ∃ t, exec (.taskReleaseCycle i) s = .next t ∧
      (t.task i.val).ready = some (s.grid.start + s.get R.SCH_TASK_D_OFFSET i.val) ∧ (t.task i.val).head = s.grid.start + s.get R.SCH_TASK_D_OFFSET i.val ∧
      (t.task i.val).lastCycle = some s.cycle) ∧
  (∀ (i : Fin 4096) s, s.grid.running = false ∨ s.get R.SCH_TASK_A_RELEASE i.val ≠ 2 ∨ s.intoCycle < s.get R.SCH_TASK_D_OFFSET i.val ∨
    (s.task i.val).lastCycle = some s.cycle ∨ s.sch.active = false → exec (.taskReleaseCycle i) s = .next s) ∧
  (∀ (i : Fin 4096) s, s.bit R.INJ_STAT_KEY_LOADED = false → s.sch.active = true → s.get R.SCH_TASK_A_RELEASE i.val = 4 → (s.task i.val).request = false →
    (∀ (r : Nat), (s.task i.val).lastRel = some r → r + s.get R.SCH_TASK_D_MIN_GAP_US i.val * 125 ≤ s.tick) → ∃ t, exec (.taskReleaseDemand i) s = .next t ∧
      ((s.task i.val).ready = none → (t.task i.val).ready = some s.tick ∧ (t.task i.val).lastRel = some s.tick) ∧
      ((s.task i.val).ready ≠ none → (s.task i.val).held = none → (t.task i.val).ready = (s.task i.val).ready ∧ (t.task i.val).held = some (s.tick, s.tick)) ∧
      ((s.task i.val).ready ≠ none → (s.task i.val).held ≠ none → t.task i.val = s.task i.val ∧
        t.get R.SCH_TASK_F_DROPS i.val = min (s.get R.SCH_TASK_F_DROPS i.val + 1) R.SCH_TASK_F_DROPS.top)) ∧
  (∀ (i : Fin 4096) (r : Nat) s, s.sch.active = true → s.get R.SCH_TASK_A_RELEASE i.val = 4 → (s.task i.val).request = false → (s.task i.val).lastRel = some r →
    s.tick < r + s.get R.SCH_TASK_D_MIN_GAP_US i.val * 125 → ∃ t, exec (.taskReleaseDemand i) s = .next t ∧ (t.task i.val).request = true ∧
      (t.task i.val).ready = (s.task i.val).ready ∧ (t.task i.val).listDue = some (s.now + (r + s.get R.SCH_TASK_D_MIN_GAP_US i.val * 125 - s.tick) * 8)) ∧
  (∀ (i : Fin 4096) s, s.sch.active = false ∨ s.get R.SCH_TASK_A_RELEASE i.val ≠ 4 ∨ (s.task i.val).request = true → exec (.taskReleaseDemand i) s = .next s) ∧
  (∀ (i : Fin 4096) s, s.bit R.INJ_STAT_KEY_LOADED = false → s.reserved i.val = true → s.canDispatch i.val = true → s.target i.val < 64 →
    s.tick ≤ (s.task i.val).since + 12 → ∃ t, exec (.jobDispatchReserved i) s = .next t ∧ (t.task i.val).running = true ∧ (t.task i.val).start = s.tick ∧
      (t.til (s.target i.val)).running = true ∧ (t.til (s.target i.val)).pc = 0 ∧ t.get R.TL_STAT_STATE (s.target i.val) = 2) ∧
  (∀ (i : Fin 4096) s, s.reserved i.val = false ∨ s.canDispatch i.val = false → exec (.jobDispatchReserved i) s = .next s) ∧
  (∀ i j s, s.runningTasks = [] → (s.sch.admitted = [i, j] ∨ s.sch.admitted = [j, i]) → s.target i = 0x4A → s.target j = 0x4A → (s.task i).ready.isSome = true →
    (s.task j).ready.isSome = true → s.bit R.SCH_TASK_A_FLOW_EN i = false → s.bit R.SCH_TASK_A_FLOW_EN j = false → s.deadlineNs i < s.deadlineNs j →
    ∃ t, exec .edfRound s = .next t ∧ (t.task i).running = true ∧ (t.task i).start = s.tick ∧ t.task j = s.task j) ∧
  (∀ s, ∃ t, exec .edfRound s = .next t ∧ (s.runningTasks = [] → t.sch.admitted.length ≤ s.sch.admitted.length + 32)) ∧
  (∀ i x d s, s.bit R.INJ_STAT_KEY_LOADED = false → s.now / 1000 ≠ s.sch.us → s.sch.active = true → s.sch.task = [(i, x)] → x.running = false → x.ready = none →
    x.listDue = some d → d ≤ s.now → s.get R.SCH_TASK_A_RELEASE i = 3 → ∃ t, exec .schedulerTick s = .next t ∧ t.sch.us = s.now / 1000 ∧
      (t.task i).ready = some s.tick ∧ (t.task i).listDue = some (d + s.get R.SCH_TASK_D_PERIOD_US i * 1000)) ∧
  (∀ s, s.now / 1000 = s.sch.us → exec .schedulerTick s = .next s) ∧
  (∀ (i : Fin 4096) s, s.bit R.INJ_STAT_KEY_LOADED = false → s.sch.active = true → (s.task i.val).ready.isSome = true → (s.task i.val).missed = false →
    s.deadlineNs i.val < s.tick * 8 → ∃ t, exec (.deadlineMiss i) s = .next t ∧ (t.task i.val).missed = true ∧
      t.get R.SCH_TASK_F_MISSES i.val = min (s.get R.SCH_TASK_F_MISSES i.val + 1) R.SCH_TASK_F_MISSES.top ∧
      (s.get R.SCH_TASK_A_CLASS i.val = 0 → (t.posted.getLast?.map fun v => (v.code, v.sev, v.inst)) = some (Ev.schDeadline, .fault, i.val) ∧
        (t.escs.getLast?.map fun v => (v.mask, v.react)) = some (BitVec.ofNat 8 (s.unitMask (s.target i.val)), .ss1)) ∧
      (s.get R.SCH_TASK_A_CLASS i.val = 1 → (t.posted.getLast?.map fun v => (v.code, v.sev, v.inst)) = some (Ev.schDeadline, .notice, i.val) ∧ t.escs = s.escs) ∧
      (s.get R.SCH_TASK_A_CLASS i.val = 2 → t.posted = s.posted ∧ t.escs = s.escs)) ∧
  (∀ (i : Fin 4096) s, s.sch.active = false ∨ (s.task i.val).ready = none ∨ (s.task i.val).missed = true ∨
    (s.bit R.INJ_STAT_KEY_LOADED = false ∧ s.tick * 8 ≤ s.deadlineNs i.val) → exec (.deadlineMiss i) s = .next s)

/-- MOVE (R161, R319, R320, R323, R325, R331, R332). A MOVE of one unit whose accesses meet no bus error, no wrong bit and no running Tiller
writes what it read and goes on; a COPY of one Granary word writes that word; one that meets a bus error, or reads an uncorrectable word,
halts the channel with the error's address, direction and cause; one that reads a running Tiller is held for it and counted; COND 0 skips
it; and a channel that waits, has halted or stopped, or stands at a barrier executes nothing. -/
def Obligations.Moves : Prop :=
  (∀ (c : Fin 16) m u s, s.bit R.INJ_STAT_KEY_LOADED = false → s.meFree c.val = true → (m.cond = false ∨ s.bit R.ME_STATE_COND c.val = true) → (s.me1 c.val).cursor = 0 →
    m.bursts = none → NoErrors s → s.unitCause c.val u = none → u.reads.findSome? s.meHeldRead = none →
    (copyUnits m = [u] → ∃ t, exec (.meMoveCopy c m) s = .next t ∧ Moved s t c.val 0 m u) ∧
    (planeUnits true m = [u] → ∃ t, exec (.meMovePack c m) s = .next t ∧ Moved s t c.val 1 m u) ∧
    (planeUnits false m = [u] → ∃ t, exec (.meMoveUnpack c m) s = .next t ∧ Moved s t c.val 2 m u)) ∧
  (∀ s c m v w, m.swap = false → v < granaryWords → w < granaryWords →
    (unitWrites s c 0 m { strm := 0, elem := 0, first := 0, count := 1, remain := 1, reads := [0x1000000 + 4 * v], rlen := 4, writes := [0x1000000 + 4 * w], wlen := 4 }).gr2 w = s.grRead v) ∧
  (∀ (c : Fin 16) m u l j a w k s, s.bit R.INJ_STAT_KEY_LOADED = false → s.meFree c.val = true → (m.cond = false ∨ s.bit R.ME_STATE_COND c.val = true) → (s.me1 c.val).cursor = 0 →
    m.bursts = none → copyUnits m = u :: l → s.unitCause c.val u = some (j, a, w, k) → a < 2 ^ 32 → 0 < k → k < 8 → ∃ t, exec (.meMoveCopy c m) s = .next t ∧ t.get R.ME_STATE_STATE c.val = 4 ∧
      t.get R.ME_ERR_ADDR c.val = a ∧ t.bit R.ME_ERR_INFO_DIR c.val = w ∧ t.get R.ME_ERR_INFO_CAUSE c.val = k ∧ t.gr = s.gr) ∧
  (∀ (c : Fin 16) m u l j r s, s.bit R.INJ_STAT_KEY_LOADED = false → s.meFree c.val = true → (m.cond = false ∨ s.bit R.ME_STATE_COND c.val = true) → (s.me1 c.val).cursor = 0 →
    m.bursts = none → copyUnits m = u :: l → s.unitCause c.val u = none → u.reads.findSome? s.meHeldRead = none → s.unitEcc u.rlen u.reads 0 = (some j, r) →
    u.reads.getD j 0 < 2 ^ 32 → ∃ t, exec (.meMoveCopy c m) s = .next t ∧ t.get R.ME_STATE_STATE c.val = 4 ∧ t.get R.ME_ERR_ADDR c.val = u.reads.getD j 0 ∧
      t.bit R.ME_ERR_INFO_DIR c.val = false ∧ t.get R.ME_ERR_INFO_CAUSE c.val = 5) ∧
  (∀ (c : Fin 16) m u l n s, s.bit R.INJ_STAT_KEY_LOADED = false → s.meFree c.val = true → (m.cond = false ∨ s.bit R.ME_STATE_COND c.val = true) → (s.me1 c.val).cursor = 0 →
    m.bursts = none → copyUnits m = u :: l → s.unitCause c.val u = none → u.reads.findSome? s.meHeldRead = some n → ∃ t, exec (.meMoveCopy c m) s = .next t ∧
      t.get R.ME_COUNT_HELD c.val = min (s.get R.ME_COUNT_HELD c.val + 1) R.ME_COUNT_HELD.top ∧ t.get R.ME_STATE_IADDR c.val = s.get R.ME_STATE_IADDR c.val ∧
      t.gr = s.gr ∧ (t.me1 c.val).heldMove = some (n, 0, m)) ∧
  (∀ (c : Fin 16) m s, s.meFree c.val = true → m.cond = true → s.bit R.ME_STATE_COND c.val = false →
    (∃ t, exec (.meMoveCopy c m) s = .next t ∧ t.gr = s.gr ∧ t.tl = s.tl ∧ t.cb = s.cb ∧ t.get R.ME_STATE_IADDR c.val = (s.get R.ME_STATE_IADDR c.val + 5) % 4096) ∧
    (∃ t, exec (.meMovePack c m) s = .next t ∧ t.gr = s.gr ∧ t.tl = s.tl ∧ t.cb = s.cb ∧ t.get R.ME_STATE_IADDR c.val = (s.get R.ME_STATE_IADDR c.val + 5) % 4096) ∧
    (∃ t, exec (.meMoveUnpack c m) s = .next t ∧ t.gr = s.gr ∧ t.tl = s.tl ∧ t.cb = s.cb ∧ t.get R.ME_STATE_IADDR c.val = (s.get R.ME_STATE_IADDR c.val + 5) % 4096)) ∧
  (∀ (c : Fin 16) m s, s.meFree c.val = false →
    exec (.meMoveCopy c m) s = .next s ∧ exec (.meMovePack c m) s = .next s ∧ exec (.meMoveUnpack c m) s = .next s)

/-- LOOP, WAIT and SIGNAL (R321, R322, R325) and ME_CTRL (R329, R330). A LOOP goes to its target until its count is spent; a WAIT that is
met goes on, takes the flag or sets COND, and one that is not met makes the channel WAITING until it completes; a WAIT BOUNDARY of a cyclic
program ends its pass; a SIGNAL readies a slot, sets a flag, posts a mark or ends the program; and a channel that waits, has halted or
stopped, or stands at a barrier executes none of them. -/
def Obligations.MoveEngineControl : Prop :=
  (∀ (c : Fin 16) (target : BitVec 12) (count : BitVec 16) s, s.meFree c.val = true → ∃ t, exec (.meLoop c target count) s = .next t ∧
    t.get R.ME_STATE_IADDR c.val = (if count = 0 ∨ Tab.get (fun _ => 0) (s.me1 c.val).loops (s.get R.ME_STATE_IADDR c.val) < count.toNat then target.toNat
      else (s.get R.ME_STATE_IADDR c.val + 1) % 4096) ∧
    (count ≠ 0 → Tab.get (fun _ => 0) (t.me1 c.val).loops (s.get R.ME_STATE_IADDR c.val) =
      if Tab.get (fun _ => 0) (s.me1 c.val).loops (s.get R.ME_STATE_IADDR c.val) < count.toNat then Tab.get (fun _ => 0) (s.me1 c.val).loops (s.get R.ME_STATE_IADDR c.val) + 1 else 0)) ∧
  (∀ (c : Fin 16) (i : BitVec 13) (n : BitVec 6) s, s.meFree c.val = true →
    (s.waitMet c.val (.slot i.toNat (n.toNat + 1)) = true → ∃ t, exec (.meWaitSlot c i n) s = .next t ∧ (t.me1 c.val).wait = none ∧
      t.bit R.ME_STATE_COND c.val = ((List.range (n.toNat + 1)).all fun j => s.slotGot (s.me1 c.val).passCycle (i.toNat + j)) ∧
      t.get R.ME_STATE_IADDR c.val = (s.get R.ME_STATE_IADDR c.val + 1) % 4096) ∧
    (s.waitMet c.val (.slot i.toNat (n.toNat + 1)) = false → ∃ t, exec (.meWaitSlot c i n) s = .next t ∧ (t.me1 c.val).wait = some (.slot i.toNat (n.toNat + 1)) ∧
      t.get R.ME_STATE_STATE c.val = 2 ∧ t.get R.ME_STATE_IADDR c.val = s.get R.ME_STATE_IADDR c.val)) ∧
  (∀ (c : Fin 16) (i : BitVec 13) (n : BitVec 6) s, s.meFree c.val = true →
    (s.waitMet c.val (.tiller i.toNat (n.toNat + 1)) = true → ∃ t, exec (.meWaitTiller c i n) s = .next t ∧ (t.me1 c.val).wait = none ∧
      t.get R.ME_STATE_IADDR c.val = (s.get R.ME_STATE_IADDR c.val + 1) % 4096) ∧
    (s.waitMet c.val (.tiller i.toNat (n.toNat + 1)) = false → ∃ t, exec (.meWaitTiller c i n) s = .next t ∧ (t.me1 c.val).wait = some (.tiller i.toNat (n.toNat + 1)) ∧
      t.get R.ME_STATE_STATE c.val = 2)) ∧
  (∀ (c : Fin 16) (off : BitVec 17) s, s.meFree c.val = true → ∃ t, exec (.meWaitTime c off) s = .next t ∧
    (s.tick < (s.me1 c.val).passStart + off.toNat → (t.me1 c.val).wait = some (.time ((s.me1 c.val).passStart + off.toNat)) ∧ t.get R.ME_STATE_STATE c.val = 2) ∧
    ((s.me1 c.val).passStart + off.toNat ≤ s.tick → t.get R.ME_STATE_IADDR c.val = (s.get R.ME_STATE_IADDR c.val + 2) % 4096 ∧ (t.me1 c.val).wait = none) ∧
    t.get R.ME_COUNT_WAIT_LATE c.val = (if (s.me1 c.val).passStart + off.toNat < s.tick then min (s.get R.ME_COUNT_WAIT_LATE c.val + 1) R.ME_COUNT_WAIT_LATE.top
      else s.get R.ME_COUNT_WAIT_LATE c.val)) ∧
  (∀ (c ch : Fin 16) s, s.meFree c.val = true →
    ((s.me1 ch.val).flag = true → ∃ t, exec (.meWaitFlag c ch) s = .next t ∧ (t.me1 ch.val).flag = false ∧ t.get R.ME_STATE_IADDR c.val = (s.get R.ME_STATE_IADDR c.val + 1) % 4096) ∧
    ((s.me1 ch.val).flag = false → ∃ t, exec (.meWaitFlag c ch) s = .next t ∧ (t.me1 c.val).wait = some (.flag ch.val) ∧ t.get R.ME_STATE_STATE c.val = 2)) ∧
  (∀ (c : Fin 16) solver s, s.meFree c.val = true → ∃ t, exec (.meWaitBoundary c solver) s = .next t ∧ (t.me1 c.val).wait = some (.boundary solver) ∧
    t.get R.ME_STATE_STATE c.val = 2 ∧ (s.bit R.ME_CFG_CYCLIC c.val = true → (t.me1 c.val).inPass = false ∧ t.bit R.ME_STATE_COND c.val = true ∧
      t.get R.ME_TIME_PASS_LAST c.val = min (s.tick - (s.me1 c.val).passStart) 65535)) ∧
  (∀ (c : Fin 16) w s, (s.me1 c.val).wait = some w → s.waitMet c.val w = true → ∃ t, exec (.meWaitComplete c) s = .next t ∧ (t.me1 c.val).wait = none ∧ t.get R.ME_STATE_STATE c.val = 3) ∧
  (∀ (c : Fin 16) s, (∀ w, (s.me1 c.val).wait = some w → s.waitMet c.val w = false) → exec (.meWaitComplete c) s = .next s) ∧
  (∀ (c : Fin 16) s, ∃ t, exec (.meBarrierRelease c) s = .next t ∧ (t.me1 c.val).barrier = false ∧ t.regs = s.regs) ∧
  (∀ (c : Fin 16) (i : Fin 8192) s, s.meFree c.val = true → ∃ t, exec (.meSignalHandover c i) s = .next t ∧ (t.slot i.val).ready = true ∧ (t.slot i.val).readyTick = s.tick ∧
    t.get R.ME_STATE_IADDR c.val = (s.get R.ME_STATE_IADDR c.val + 1) % 4096) ∧
  (∀ (c ch : Fin 16) s, s.meFree c.val = true → ∃ t, exec (.meSignalFlag c ch) s = .next t ∧ (t.me1 ch.val).flag = true ∧
    t.get R.ME_STATE_IADDR c.val = (s.get R.ME_STATE_IADDR c.val + 1) % 4096) ∧
  (∀ (c : Fin 16) (i : BitVec 13) s, s.meFree c.val = true → ∃ t, exec (.meSignalEvent c i) s = .next t ∧
    (t.posted.getLast?.map fun v => (v.code, v.sev, v.inst)) = some (Ev.meMark, .info, c.val) ∧ t.get R.ME_STATE_IADDR c.val = (s.get R.ME_STATE_IADDR c.val + 1) % 4096) ∧
  (∀ (c : Fin 16) s, s.meFree c.val = true → ∃ t, exec (.meSignalDone c) s = .next t ∧ t.get R.ME_STATE_STATE c.val = 1 ∧ t.get R.ME_RESIDUE_A_REASON c.val = 1 ∧ (t.me1 c.val).start = none) ∧
  (∀ (c ch : Fin 16) (target i n count : Nat) solver s, s.meFree c.val = false →
    exec (.meLoop c (BitVec.ofNat 12 target) (BitVec.ofNat 16 count)) s = .next s ∧ exec (.meWaitSlot c (BitVec.ofNat 13 i) (BitVec.ofNat 6 n)) s = .next s ∧
    exec (.meWaitTiller c (BitVec.ofNat 13 i) (BitVec.ofNat 6 n)) s = .next s ∧ exec (.meWaitTime c (BitVec.ofNat 17 i)) s = .next s ∧ exec (.meWaitFlag c ch) s = .next s ∧
    exec (.meWaitBoundary c solver) s = .next s ∧ exec (.meSignalFlag c ch) s = .next s ∧ exec (.meSignalEvent c (BitVec.ofNat 13 i)) s = .next s ∧ exec (.meSignalDone c) s = .next s) ∧
  (∀ d e s, Ready s d 0x18 e → e.bits 4 5 4 = 0 → s.notHolder = false → s.get R.ME_STATE_STATE e.chan = 1 → s.bit R.ME_CFG_CYCLIC e.chan = false → s.running = true →
    ∃ t, exec (.meCtrlStart d) s = .next t ∧ t.get R.ME_STATE_STATE e.chan = 3 ∧ t.get R.ME_STATE_IADDR e.chan = s.get R.ME_CFG_PROG_START e.chan % 4096) ∧
  (∀ d e s, Ready s d 0x18 e → e.bits 4 5 4 = 1 → (s.get R.ME_STATE_STATE e.chan = 2 ∨ s.get R.ME_STATE_STATE e.chan = 3) → (s.bit R.ME_CFG_CYCLIC e.chan = false ∨ s.enabled = false) →
    ∃ t, exec (.meCtrlAbort d) s = .next t ∧ t.get R.ME_STATE_STATE e.chan = 5 ∧ t.get R.ME_RESIDUE_A_REASON e.chan = 2 ∧ Closed e t) ∧
  (∀ d e s, Ready s d 0x18 e → e.bits 4 5 4 = 2 → (s.get R.ME_STATE_STATE e.chan = 4 ∨ s.get R.ME_STATE_STATE e.chan = 5) →
    ∃ t, exec (.meCtrlReset d) s = .next t ∧ t.get R.ME_STATE_STATE e.chan = 1 ∧ t.get R.ME_ERR_ADDR e.chan = 0 ∧ t.get R.ME_ERR_INFO_CAUSE e.chan = 0 ∧ Closed e t)

/-- The rings of the PCIe function (R336 to R349). A valid doorbell takes effect and an invalid one is only counted; enabling a ring starts
it at index 0 and disabling a submission ring leaves none of its descriptors waiting for its start; a fetch passes HEAD and opens the
descriptor, refuses it by its format, or halts the ring on a failed read; a due message is written to its table entry's address, or is kept
pending while its vector is masked; a host reset leaves no descriptor, long operation, or enabled ring. -/
def Obligations.HostRings : Prop :=
  (∀ (q : Fin 32) tail s, s.bit R.INJ_STAT_KEY_LOADED = false → ∃ t, exec (.sqDoorbell q tail) s = .next t ∧ Tab.get (fun _ => 0) t.hi.bell q.val = tail ∧
    Tab.get (fun _ => 0) t.hi.tails q.val = (if s.bit R.HI_SQ_CFG_EN q.val && decide (tail.toNat < 2 ^ s.get R.HI_SQ_CFG_DEPTH_LOG2 q.val) then tail.toNat else Tab.get (fun _ => 0) s.hi.tails q.val) ∧
    t.get R.HI_STATUS_DESC_ERR = (if s.bit R.HI_SQ_CFG_EN q.val && decide (tail.toNat < 2 ^ s.get R.HI_SQ_CFG_DEPTH_LOG2 q.val) then s.get R.HI_STATUS_DESC_ERR else min (s.get R.HI_STATUS_DESC_ERR + 1) R.HI_STATUS_DESC_ERR.top)) ∧
  (∀ (c : Fin 32) idx s, s.bit R.INJ_STAT_KEY_LOADED = false → (s.cring c.val).held = [] → ∃ t, exec (.cqDoorbell c idx) s = .next t ∧
    (t.cring c.val).consumed = (if s.bit R.HI_CQ_CFG_EN c.val && decide (idx.toNat < 2 ^ s.get R.HI_CQ_CFG_DEPTH_LOG2 c.val) then idx.toNat else (s.cring c.val).consumed) ∧
    t.get R.HI_STATUS_DESC_ERR = (if s.bit R.HI_CQ_CFG_EN c.val && decide (idx.toNat < 2 ^ s.get R.HI_CQ_CFG_DEPTH_LOG2 c.val) then s.get R.HI_STATUS_DESC_ERR else min (s.get R.HI_STATUS_DESC_ERR + 1) R.HI_STATUS_DESC_ERR.top)) ∧
  (∀ (q : Fin 32) s, s.bit R.HI_SQ_CFG_EN q.val = false → ∃ t, exec (.sqEnable q) s = .next t ∧ t.bit R.HI_SQ_CFG_EN q.val = true ∧ t.get R.HI_SQ_STATUS_HEAD q.val = 0 ∧
    t.bit R.HI_SQ_STATUS_HALTED q.val = false ∧ Tab.get (fun _ => 0) t.hi.tails q.val = 0) ∧
  (∀ (q : Fin 32) s, s.bit R.HI_SQ_CFG_EN q.val = true → exec (.sqEnable q) s = .next s) ∧
  (∀ (q : Fin 32) s, s.bit R.HI_SQ_CFG_EN q.val = true → ∃ t, exec (.sqDisable q) s = .next t ∧ t.bit R.HI_SQ_CFG_EN q.val = false ∧ (∀ d ∈ t.hi.descs, d.ring = q.val → d.started = true)) ∧
  (∀ (q : Fin 32) s, s.bit R.HI_SQ_CFG_EN q.val = false → exec (.sqDisable q) s = .next s) ∧
  (∀ (c : Fin 32) s, s.bit R.HI_CQ_CFG_EN c.val = false → (s.cring c.val).held = [] → ∃ t, exec (.cqEnable c) s = .next t ∧ t.bit R.HI_CQ_CFG_EN c.val = true ∧
    t.get R.HI_CQ_STATUS_TAIL c.val = 0 ∧ t.get R.HI_CQ_STATUS_PHASE c.val = 1 ∧ (t.cring c.val).everEn = true ∧ (t.cring c.val).consumed = 0) ∧
  (∀ (c : Fin 32) s, s.bit R.HI_CQ_CFG_EN c.val = true → exec (.cqEnable c) s = .next s) ∧
  (∀ (c : Fin 32) s, ∃ t, exec (.cqDisable c) s = .next t ∧ t.bit R.HI_CQ_CFG_EN c.val = false ∧ t.hi = s.hi) ∧
  (∀ (q : Fin 32) l d s, s.bit R.INJ_STAT_KEY_LOADED = false → s.fetchTurn q.val = true → d = { ring := q.val, index := s.get R.HI_SQ_STATUS_HEAD q.val, words := l.take 16 } →
    (s.cring d.cq).held.length < 64 → ∃ t, exec (.descriptorFetch q (some l)) s = .next t ∧
      (s.formatReason d = none → t.hi.descs = s.hi.descs ++ [d] ∧ t.get R.HI_SQ_STATUS_HEAD q.val = (s.get R.HI_SQ_STATUS_HEAD q.val + 1) % 2 ^ s.get R.HI_SQ_CFG_DEPTH_LOG2 q.val % 4096) ∧
      (∀ r, s.formatReason d = some r → Closed d t)) ∧
  (∀ (q : Fin 32) s, s.bit R.INJ_STAT_KEY_LOADED = false → s.fetchTurn q.val = true → ∃ t, exec (.descriptorFetch q none) s = .next t ∧
    t.bit R.HI_SQ_STATUS_HALTED q.val = true ∧ t.hi.descs = s.hi.descs) ∧
  (∀ (q : Fin 32) words s, s.fetchTurn q.val = false → exec (.descriptorFetch q words) s = .next s) ∧
  (∀ (c : Fin 32) v s, s.msgDue c.val = true → v = s.get R.HI_CQ_CFG_VECTOR c.val → Tab.get (fun _ => false) s.hi.msixWritten v = true → ∃ t, exec (.msixMessage c) s = .next t ∧
    (t.cring c.val).counted = 0 ∧ (s.msixMasked v = true → hasBit t.hi.msixPend v = true ∧ t.hi.mem = s.hi.mem) ∧
    (s.msixMasked v = false → t.hi.mem = (s.hostPutWords ((s.msix (4 * v)).toNat / 4 * 4 + (s.msix (4 * v + 1)).toNat * 2 ^ 32) [s.msix (4 * v + 2)]).hi.mem)) ∧
  (∀ (c : Fin 32) s, s.msgDue c.val = false → exec (.msixMessage c) s = .next s) ∧
  (∀ (q : Fin 32) s, ∃ t, exec .hostReset s = .next t ∧ t.hi.descs = [] ∧ t.hi.longs = [] ∧ t.hi.msixPend = 0 ∧ t.bit R.HI_SQ_CFG_EN q.val = false ∧ t.bit R.HI_CQ_CFG_EN q.val = false ∧
    (t.posted.getLast?.map fun v => (v.code, v.sev)) = some (Ev.hiLinkReset, .notice)) ∧
  (∀ s, exec (.bar0BadAccess false) s = .next s) ∧
  (∀ s, s.bit R.INJ_STAT_KEY_LOADED = false → ∃ t, exec (.bar0BadAccess true) s = .next t ∧ t.get R.HI_STATUS_DESC_ERR = min (s.get R.HI_STATUS_DESC_ERR + 1) R.HI_STATUS_DESC_ERR.top) ∧
  (∀ d e s, Ready s d 0 e → ∃ t, exec (.nop d) s = .next t ∧ Closed e t ∧ t.gr = s.gr)

/-- BAR0 accesses (R6 to R12, R71, R336, R348, R422). A write is taken only while the device takes writes, and within BAR0: a misaligned one
is counted and discarded; one to the MSI-X table sets its word; a low word of a 64-bit quantity waits for its high word; a register of a
block whose writes have no action takes every field that is not refused, by its access code, and a refusal leaves its register as it is and
posts SYS_WRITE_IGNORED; a write does not clear a W1C bit that the device has set in its tick. A read beyond BAR0 or misaligned does
nothing; any other returns the register's word or what was captured for it, captures the high word of a 64-bit quantity, and clears RC
fields unless it comes from JTAG: a counter shows its value before this tick, and what it was advanced by in the tick stays. -/
def Obligations.HostAccess : Prop :=
  (∀ off w s, s.takesWrites = false ∨ 0x200000 ≤ off → exec (.regWrite off w) s = .next s) ∧
  (∀ off w s, s.bit R.INJ_STAT_KEY_LOADED = false → s.takesWrites = true → off < 0x200000 → off % 4 ≠ 0 → ∃ t, exec (.regWrite off w) s = .next t ∧
    t.get R.HI_STATUS_DESC_ERR = min (s.get R.HI_STATUS_DESC_ERR + 1) R.HI_STATUS_DESC_ERR.top) ∧
  (∀ i w s, s.takesWrites = true → i < 256 → ∃ t, exec (.regWrite (0x108000 + 4 * i) w) s = .next t ∧ t.msix i = w ∧ t.regs = s.regs) ∧
  (∀ off w s, s.takesWrites = true → off < 0x200000 → off % 4 = 0 → ¬ (0x108000 ≤ off ∧ off < 0x108400) → isStaged off = true → s.anyRefused (s.place off) w = false →
    ∃ t, exec (.regWrite off w) s = .next t ∧ Tab.get (fun _ => none) t.wrStage off = some w ∧ t.regs = s.regs) ∧
  (∀ off w s, s.takesWrites = true → off < 0x100000 → off % 4 = 0 → isStaged off = false → isStaged (off - 4) = false → s.anyRefused (s.place off) w = false →
    blkOf off ∈ [Blk.tl, .mp, .sep, .sch, .me] → ∃ t, exec (.regWrite off w) s = .next t ∧ t.posted = s.posted ∧
      t.regs.word (blkOf (s.place off)) (s.place off) =
        ((fieldsAt (s.place off)).filter fun f => !ownAct.contains f).foldl (fun old f => fieldAfter f old (s.takenWord (s.place off) w f)) (s.regs.word (blkOf (s.place off)) (s.place off))) ∧
  (∀ off w s, s.takesWrites = true → off < 0x100000 → off % 4 = 0 → isStaged off = false → isStaged (off - 4) = false → s.anyRefused (s.place off) w = true →
    blkOf off ∈ [Blk.tl, .mp, .sep, .sch, .me] → ∃ t, exec (.regWrite off w) s = .next t ∧
      (t.posted.getLast?.map fun v => (v.code, v.sev)) = some (Ev.sysWriteIgnored, .notice) ∧
      ((∀ f ∈ fieldsAt (s.place off), s.refused (s.place off) w f = true) → ∀ b o, t.regs.word b o = s.regs.word b o)) ∧
  (∀ off jtag s, off % 4 ≠ 0 ∨ 0x200000 ≤ off → exec (.lowWordRead off) s = .next s ∧ exec (.rcRead off jtag) s = .next s) ∧
  (∀ off jtag r s, off % 4 = 0 → off < 0x200000 → nsRegAt off = some r → exec (.lowWordRead off) s = .next (s.nsRead r) ∧ exec (.rcRead off jtag) s = .next (s.nsRead r)) ∧
  (∀ off jtag s, off % 4 = 0 → off < 0x200000 → nsRegAt off = none → R.TB_CAP_NS_NS.instAt off = none → R.AD_RES.instAt off = none →
    (∀ w, Tab.get (fun _ => none) s.hiLatch off = some w → (∃ t, exec (.lowWordRead off) s = .next t ∧ t.readData = w ∧ t.regs = s.regs) ∧
      (∃ t, exec (.rcRead off jtag) s = .next t ∧ t.readData = w ∧ t.regs = s.regs)) ∧
    (Tab.get (fun _ => none) s.hiLatch off = none → (∃ t, exec (.lowWordRead off) s = .next t ∧ t.readData = s.peek off ∧ (isLow off = true → Tab.get (fun _ => none) t.hiLatch (off + 4) = some (s.peek (off + 4)))) ∧
      (∃ t, exec (.rcRead off jtag) s = .next t ∧ t.readData = s.peek off ∧ (jtag = true → t.regs = s.regs ∧ t.frozen = s.frozen)))) ∧
  (∀ (f : Machine.Field) s, f = R.HI_STATUS_DESC_ERR ∨ f = R.HI_STATUS_DMA_ERR → Tab.get (fun _ => none) s.hiLatch (f.addr 0) = none →
    ∃ t, exec (.rcRead (f.addr 0) false) s = .next t ∧ bitsOf t.readData f.hi f.lo = min (s.get f) (s.view.regs.get f 0) ∧
      t.get f = s.get f - min (s.get f) (s.view.regs.get f 0))

/-- Parameters of the Granary (R17, R351 to R354). A PARAM_WRITE within one parameter region reaches the bank being prepared, or waits while
a copy runs there, and any other completes with a reason; an accepted COMMIT waits with its regions, and when it is due each word of its
region comes into force; when a copy has run its time what waited behind it is written; a SNAPSHOT writes the registers of its ranges to
host memory. -/
def Obligations.Parameters : Prop :=
  (∀ d e l i s, Ready s d 1 e → s.regionOf (e.bits 6 20 0) = some i → s.paramRegion i = true → s.inRegion i (e.bits 6 20 0 + e.bits 7 16 0 - 1) = true → s.copying i = false →
    ∃ t, exec (.paramWrite d (some l)) s = .next t ∧ Closed e t ∧ t.gr.front = s.gr.front ∧
      ∀ k, (h : k < (l.take (e.bits 7 16 0)).length) → t.gr2 (e.bits 6 20 0 + k) = (l.take (e.bits 7 16 0))[k]) ∧
  (∀ d e l i s, Ready s d 1 e → s.regionOf (e.bits 6 20 0) = some i → s.paramRegion i = true → s.inRegion i (e.bits 6 20 0 + e.bits 7 16 0 - 1) = true → s.copying i = true →
    ∃ t, exec (.paramWrite d (some l)) s = .next t ∧ t.gr.back = s.gr.back ∧ ∃ h, t.gr.heldWrites = s.gr.heldWrites ++ [h] ∧ h.addr = e.bits 6 20 0 ∧ h.words = l.take (e.bits 7 16 0)) ∧
  (∀ d e data s, Ready s d 1 e → data = none ∨ s.regionOf (e.bits 6 20 0) = none ∨
      (∃ i, s.regionOf (e.bits 6 20 0) = some i ∧ (s.paramRegion i = false ∨ s.inRegion i (e.bits 6 20 0 + e.bits 7 16 0 - 1) = false)) →
    ∃ t, exec (.paramWrite d data) s = .next t ∧ Closed e t ∧ t.gr = s.gr) ∧
  (∀ d e s, Ready s d 2 e → s.cell = 0 ∨ s.cell = 2 → s.notHolder = false → commitRegions e ≠ [] → (commitRegions e).all s.paramRegion = true →
    ∃ t, exec (.commit d) s = .next t ∧ ∃ c, t.gr.commits = s.gr.commits ++ [c] ∧ c.regions = commitRegions e ∧ c.tick = s.tick ∧ c.enabled = s.enabled) ∧
  (∀ d e s, Ready s d 2 e → s.cell = 0 ∨ s.cell = 2 → s.notHolder = false → (commitRegions e = [] ∨ (commitRegions e).all s.paramRegion = false) →
    ∃ t, exec (.commit d) s = .next t ∧ Closed e t ∧ t.gr = s.gr) ∧
  (∀ d s, s.cell = 1 ∨ s.cell = 3 → exec (.commit d) s = .next s) ∧
  (∀ c i w s, Tab.wf (fun _ => 0) s.gr.back = true → s.gr.commits = [c] → s.commitDue c = true → c.regions = [i] → s.inRegion i w = true →
    ∃ t, exec .commitSwap s = .next t ∧ t.gr1 w = s.gr2 w ∧ t.gr2 w = s.gr2 w ∧ t.gr.commits = []) ∧
  (∀ s, (∀ c ∈ s.gr.commits, s.commitDue c = false) → ∃ t, exec .commitSwap s = .next t ∧ t.gr = s.gr ∧ t.regs = s.regs) ∧
  (∀ h s, (∀ c ∈ s.gr.copies, c.2 ≤ s.tick) → s.gr.heldWrites = [h] → ∃ t, exec .shadowCopyEnd s = .next t ∧ t.gr.copies = [] ∧ t.gr.heldWrites = [] ∧
    ∀ k, (hk : k < h.words.length) → t.gr2 (h.addr + k) = h.words[k]) ∧
  (∀ s, s.gr.heldWrites = [] → ∃ t, exec .shadowCopyEnd s = .next t ∧ t.gr.back = s.gr.back ∧ ∀ c, c ∈ t.gr.copies ↔ c ∈ s.gr.copies ∧ s.tick < c.2) ∧
  (∀ d e n s, Ready s d 3 e → (∀ r ∈ snapRanges e, r.1 + 4 * r.2 ≤ 0x200000) → ((snapRanges e).map fun r => r.2).sum ≤ 1024 → n ≤ 3 →
    ∃ t a, exec (.snapshot d n) s = .next t ∧ Closed e t ∧
      t = ((s.startDesc e).hostPutWords (e.addr 4) ((snapRanges e).flatMap fun r => (List.range r.2).map fun k => s.peek (r.1 + 4 * k))).completeDesc e { a := a }) ∧
  (∀ d e n s, Ready s d 3 e → 3 < n ∨ (∃ r ∈ snapRanges e, 0x200000 < r.1 + 4 * r.2) ∨ 1024 < ((snapRanges e).map fun r => r.2).sum →
    ∃ t, exec (.snapshot d n) s = .next t ∧ Closed e t)

/-- Long operations (R355 to R357, R409, R450). Each is accepted while fewer than four run and none of its kind, and joins the running ones
QUEUED; an update makes it RUNNING with its progress; its end, or an abort, takes it off and completes its descriptor, an IMAGE_LOAD leaving
the image VALID, BAD or EMPTY. -/
def Obligations.LongOperations : Prop :=
  (∀ d e s, Ready s d 8 e → s.longOf d = none → s.longBusy 8 = false → s.imageInUse (e.bits 7 9 0) = false → ∃ t, exec (.imageLoad d) s = .next t ∧ t.get R.HI_IMG_STAT_STATE (e.bits 7 9 0) = 1 ∧
    t.hi.longs.map (fun l => (l.opcode, l.state)) = s.hi.longs.map (fun l => (l.opcode, l.state)) ++ [(8, 0)]) ∧
  (∀ d e s, Ready s d 8 e → s.longBusy 8 = false → s.imageInUse (e.bits 7 9 0) = true → ∃ t, exec (.imageLoad d) s = .next t ∧ Closed e t ∧ t.hi.longs = s.hi.longs) ∧
  (∀ d e s, Ready s d 9 e → s.longOf d = none → s.longBusy 9 = false → s.locked = false → ∃ t, exec (.selfTest d) s = .next t ∧
    t.hi.longs.map (fun l => (l.opcode, l.state)) = s.hi.longs.map (fun l => (l.opcode, l.state)) ++ [(9, 0)]) ∧
  (∀ d e s, Ready s d 10 e → s.longOf d = none → s.longBusy 10 = false → (s.locked = false ∨ s.bit R.SV_CFG_EN (e.bits 7 3 0) = false) → ∃ t, exec (.offlineSolve d) s = .next t ∧
    t.hi.longs.map (fun l => (l.opcode, l.state)) = s.hi.longs.map (fun l => (l.opcode, l.state)) ++ [(10, 0)]) ∧
  (∀ d e s, Ready s d 11 e → s.longOf d = none → s.longBusy 11 = false → ∃ t, exec (.bbDump d) s = .next t ∧
    t.hi.longs.map (fun l => (l.opcode, l.state)) = s.hi.longs.map (fun l => (l.opcode, l.state)) ++ [(11, 0)]) ∧
  (∀ d e s, Ready s d 12 e → s.longOf d = none → s.longBusy 12 = false → s.locked = false → s.mgmtDown = false → ∃ t, exec (.fwUpdate d) s = .next t ∧
    t.hi.longs.map (fun l => (l.opcode, l.state)) = s.hi.longs.map (fun l => (l.opcode, l.state)) ++ [(12, 0)]) ∧
  (∀ d s, s.mgmtDown = true → exec (.fwUpdate d) s = .next s) ∧
  (∀ d e s, Ready s d 8 e → s.longBusy 8 = true → ∃ t, exec (.imageLoad d) s = .next t ∧ Closed e t ∧ t.hi.longs = s.hi.longs) ∧
  (∀ d e s, (Ready s d 9 e ∧ (s.locked = true ∨ s.longBusy 9 = true) → ∃ t, exec (.selfTest d) s = .next t ∧ Closed e t ∧ t.hi.longs = s.hi.longs) ∧
    (Ready s d 10 e ∧ s.longBusy 10 = true → ∃ t, exec (.offlineSolve d) s = .next t ∧ Closed e t ∧ t.hi.longs = s.hi.longs) ∧
    (Ready s d 11 e ∧ s.longBusy 11 = true → ∃ t, exec (.bbDump d) s = .next t ∧ Closed e t ∧ t.hi.longs = s.hi.longs) ∧
    (Ready s d 12 e ∧ s.mgmtDown = false ∧ (s.locked = true ∨ s.longBusy 12 = true) → ∃ t, exec (.fwUpdate d) s = .next t ∧ Closed e t ∧ t.hi.longs = s.hi.longs)) ∧
  (∀ d l e p n w s, s.hi.longs = [l] → l.desc = d → s.desc? (dkey d) = some e → ∃ t, exec (.longOpStatusUpdate d p n none w) s = .next t ∧
    t.hi.longs = [{ l with state := 1, progress := p, total := n, w7 := w, update := (l.update + 1) % 256 }]) ∧
  (∀ d p n part w s, s.longOf d = none → exec (.longOpStatusUpdate d p n part w) s = .next s) ∧
  (∀ d l e img s, s.hi.longs = [l] → l.desc = d → l.opcode = 8 → s.desc? (dkey d) = some e → imageGood img = true → ∃ t, exec (.longOpEnd d (.image (some img) true)) s = .next t ∧
    Closed e t ∧ t.hi.longs = [] ∧ t.get R.HI_IMG_STAT_STATE (e.bits 7 9 0) = 2 ∧ Tab.get (fun _ => none) t.hi.images (e.bits 7 9 0) = some img) ∧
  (∀ d l e img sp s, s.hi.longs = [l] → l.desc = d → l.opcode = 8 → s.desc? (dkey d) = some e → (img = none ∨ ∃ i, img = some i ∧ imageGood i = false) → ∃ t, exec (.longOpEnd d (.image img sp)) s = .next t ∧
    Closed e t ∧ t.hi.longs = [] ∧ t.get R.HI_IMG_STAT_STATE (e.bits 7 9 0) = 3 ∧ Tab.get (fun _ => none) t.hi.images (e.bits 7 9 0) = none) ∧
  (∀ d l e r s, s.hi.longs = [l] → l.desc = d → s.desc? (dkey d) = some e →
    (l.opcode = 9 ∧ (∃ a b, r = .tests a b) ∨ l.opcode = 10 ∧ (∃ a, r = .solved a) ∨ l.opcode = 11 ∧ r = .dumped ∨ l.opcode = 12 ∧ (∃ a b, r = .firmware a b) ∨ r = .dmaError) →
    ∃ t, exec (.longOpEnd d r) s = .next t ∧ Closed e t ∧ t.hi.longs = []) ∧
  (∀ d r s, s.longOf d = none → exec (.longOpEnd d r) s = .next s) ∧
  (∀ d e l x s, Ready s d 13 e → s.hi.longs = [l] → l.desc.tag = e.word 4 → s.desc? (dkey l.desc) = some x → x.key ≠ e.key → ∃ t, exec (.longAbort d) s = .next t ∧ Closed e t ∧ Closed x t ∧ t.hi.longs = [] ∧
    (l.opcode = 8 → t.get R.HI_IMG_STAT_STATE (x.bits 7 9 0) = 0)) ∧
  (∀ d e s, Ready s d 13 e → (∀ l ∈ s.hi.longs, l.desc.tag ≠ e.word 4) → ∃ t, exec (.longAbort d) s = .next t ∧ Closed e t ∧ t.hi.longs = s.hi.longs)

/-- The twin states (R363 to R386). Each command that is due does what the rules give it, and one that is not due changes nothing: the token
of a holder whose commands are out; expiry, by which a standby takes over with the next epoch and a device without one falls to a fatal
escalation; the end of a released holder; a handover's switch on both sides; switch-back; transfer, pairing and their time limits; missing
digests and echoes; and TW_CMD. -/
def Obligations.TwinStates : Prop :=
  (∀ s, s.holdsLease = true → s.tw.released = none → s.grid.cyc.isSome = true → s.allCommandsOut = true → ∃ t, exec .renewalToken s = .next t ∧ t.tw.tokenCycle = some s.cycle ∧ t.regs = s.regs) ∧
  (∀ s, s.holdsLease = false ∨ s.tw.released ≠ none ∨ s.grid.cyc = none ∨ s.allCommandsOut = false → exec .renewalToken s = .next s) ∧
  (∀ s, s.twState = 4 → (s.get R.TW_CFG_LEASE_CYC ≤ s.get R.TW_LEASE_STAT_SINCE_RENEW ∨ ∃ m, s.tw.takeAt = some m ∧ m ≤ s.cycle) → ∃ t, exec .leaseExpiry s = .next t ∧ t.twState = 2 ∧
    t.get R.TW_EPOCH_EPOCH = nextEpoch (s.get R.TW_EPOCH_EPOCH) ∧ t.get R.TW_COUNT_A_TAKEOVERS = min (s.get R.TW_COUNT_A_TAKEOVERS + 1) R.TW_COUNT_A_TAKEOVERS.top ∧ t.tw.takeAt = none) ∧
  (∀ s, (s.twState = 3 ∨ s.twState = 5) → s.get R.TW_CFG_LEASE_CYC ≤ s.get R.TW_LEASE_STAT_SINCE_RENEW → s.tw.lost = false → ∃ t, exec .leaseExpiry s = .next t ∧ t.tw.lost = true ∧
    (t.posted[s.posted.length]?.map fun v => (v.code, v.sev)) = some (Ev.twLeaseLost, .fatal)) ∧
  (∀ s, (s.twState ≠ 3 ∧ s.twState ≠ 4 ∧ s.twState ≠ 5) ∨ (s.get R.TW_LEASE_STAT_SINCE_RENEW < s.get R.TW_CFG_LEASE_CYC ∧ (s.twState = 4 → s.tw.takeAt = none)) → exec .leaseExpiry s = .next s) ∧
  (∀ (r : Nat) s, s.tw.released = some r → s.holdsLease = true → r + s.get R.TW_CFG_LEASE_CYC + 1 ≤ s.cycle → ∃ t, exec .releasedHolderTimeout s = .next t ∧ t.twState = 5 ∧
    t.get R.TW_STATE_LAST_CAUSE = 4 ∧ t.tw.released = none) ∧
  (∀ s, s.tw.released = none ∨ s.holdsLease = false ∨ (∃ (r : Nat), s.tw.released = some r ∧ s.cycle < r + s.get R.TW_CFG_LEASE_CYC + 1) → exec .releasedHolderTimeout s = .next s) ∧
  (∀ h s, s.tw.handover = some h → h.cycle ≤ s.cycle → h.giver = true → s.holdsLease = true → h.epoch < 65536 → ∃ t, exec .twHandoverSwitch s = .next t ∧ t.tw.handover = none ∧
    (h.confirmed = true → t.twState = 4 ∧ t.get R.TW_EPOCH_EPOCH = h.epoch ∧ t.get R.TW_COUNT_B_HANDOVERS = min (s.get R.TW_COUNT_B_HANDOVERS + 1) R.TW_COUNT_B_HANDOVERS.top) ∧
    (h.confirmed = false → t.twState = 2 ∧ t.get R.TW_EPOCH_EPOCH = s.get R.TW_EPOCH_EPOCH)) ∧
  (∀ h s, s.tw.handover = some h → h.cycle ≤ s.cycle → h.giver = false → h.confirmed = true → s.twState = 4 → h.epoch < 65536 → ∃ t, exec .twHandoverSwitch s = .next t ∧ t.tw.handover = none ∧
    t.twState = 2 ∧ t.get R.TW_EPOCH_EPOCH = h.epoch ∧ t.tw.backDesc = none) ∧
  (∀ s, (∀ h, s.tw.handover = some h → s.cycle < h.cycle) → exec .twHandoverSwitch s = .next s) ∧
  (∀ (a : Nat) s, s.holdsLease = true → s.bit R.TW_CFG_POSITION = true → s.bit R.TW_CFG_SWITCHBACK = true → s.peer = 4 → s.tw.peerStandbyAt = some a → a + s.get R.TW_CFG_HOLDOFF_S * 125000000 ≤ s.tick →
    (∀ g, g < 8 → s.jointsIn g 3 = []) → s.tw.handover = none → s.tw.released = none → ∃ t h, exec .switchbackHoldoff s = .next t ∧ t.tw.handover = some h ∧ h.giver = true ∧ h.desc = none ∧
      h.epoch = nextEpoch (s.get R.TW_EPOCH_EPOCH) ∧ h.cycle = s.acceptCycle + 2) ∧
  (∀ s, s.holdsLease = false ∨ s.bit R.TW_CFG_POSITION = false ∨ s.bit R.TW_CFG_SWITCHBACK = false ∨ s.peer ≠ 4 ∨ s.tw.peerStandbyAt = none ∨ s.tw.handover ≠ none ∨ (∃ g, g < 8 ∧ s.jointsIn g 3 ≠ []) →
    exec .switchbackHoldoff s = .next s) ∧
  (∀ s, s.twState = 3 → s.tw.transferAt + 6250000 ≤ s.tick → ∃ t, exec .transferTimeout s = .next t ∧ t.twState = 5 ∧ t.get R.TW_STATE_LAST_CAUSE = 5) ∧
  (∀ s, s.twState ≠ 3 ∨ s.tick < s.tw.transferAt + 6250000 → exec .transferTimeout s = .next s) ∧
  (∀ s, s.twState = 3 → s.caughtUp = true → s.isSolverCycle s.cycle = true → s.tw.mirrorIn = [] → ∃ t, exec .twPaired s = .next t ∧ t.twState = 4 ∧ t.tw.missRun = 0 ∧
    (t.posted.getLast?.map fun v => (v.code, v.sev)) = some (Ev.twPaired, .info)) ∧
  (∀ s, s.twState ≠ 3 ∨ s.caughtUp = false ∨ s.isSolverCycle s.cycle = false → exec .twPaired s = .next s) ∧
  (∀ s, (s.twState = 2 ∨ s.twState = 4) → 3 ≤ s.tw.missRun → ∃ t, exec .twDigestMissing s = .next t ∧ t.twState = (if s.twState = 4 then 5 else 2) ∧
    t.get R.TW_COUNT_A_DIGEST_MISSING = min (s.get R.TW_COUNT_A_DIGEST_MISSING + 1) R.TW_COUNT_A_DIGEST_MISSING.top) ∧
  (∀ s, (s.twState ≠ 2 ∧ s.twState ≠ 4) ∨ s.tw.missRun < 3 → exec .twDigestMissing s = .next s) ∧
  (∀ (p : Fin 4) s, s.bit R.TW_CFG_EN = true → Tab.get (fun _ => 0) s.tw.echoMiss p.val = 3 → ∃ t, exec (.twEchoLost p) s = .next t ∧ hasBit (t.get R.TW_STATE_PATH_OK) p.val = false ∧
    t.get R.TW_COUNT_A_ECHO_LOST = min (s.get R.TW_COUNT_A_ECHO_LOST + 1) R.TW_COUNT_A_ECHO_LOST.top) ∧
  (∀ (p : Fin 4) s, s.bit R.TW_CFG_EN = false ∨ Tab.get (fun _ => 0) s.tw.echoMiss p.val ≠ 3 → exec (.twEchoLost p) s = .next s) ∧
  (∀ s, s.twState = 1 → s.tw.lastMsg.getD 0 + 64 ≤ s.cycle → ∃ t, exec .twinPeerOff s = .next t ∧ t.peer = 0 ∧ t.twState = 2) ∧
  (∀ s, s.twState ≠ 1 ∨ s.cycle < s.tw.lastMsg.getD 0 + 64 → exec .twinPeerOff s = .next s) ∧
  (∀ d e s, Ready s d 0x28 e → e.bits 4 3 0 = 0 →
    (s.holdsLease = true → s.tw.released = none → s.peer = 4 → s.twinUp = true → ∃ t h, exec (.twCmdHandover d) s = .next t ∧ t.tw.handover = some h ∧ h.giver = true ∧ h.confirmed = false ∧
      h.epoch = nextEpoch (s.get R.TW_EPOCH_EPOCH) ∧ h.cycle = s.acceptCycle + 2) ∧
    (s.holdsLease = false ∨ s.tw.released ≠ none ∨ s.peer ≠ 4 ∨ s.twinUp = false → ∃ t, exec (.twCmdHandover d) s = .next t ∧ Closed e t ∧ t.tw = s.tw)) ∧
  (∀ d e s, Ready s d 0x28 e → e.bits 4 3 0 = 1 →
    (s.bit R.TW_CFG_POSITION = true → s.holdsLease = true → s.tw.released = none → s.peer = 4 → s.twinUp = true → ∃ t h, exec (.twCmdSwitchBack d) s = .next t ∧ t.tw.handover = some h ∧ h.giver = true ∧ h.cycle = s.acceptCycle + 2) ∧
    (s.bit R.TW_CFG_POSITION = false → s.twState = 4 → s.peer = 2 → s.twinUp = true → ∃ t, exec (.twCmdSwitchBack d) s = .next t ∧ t.tw.backDesc = e.id?) ∧
    (s.bit R.TW_CFG_POSITION = false → s.twState ≠ 4 ∨ s.peer ≠ 2 ∨ s.twinUp = false → ∃ t, exec (.twCmdSwitchBack d) s = .next t ∧ Closed e t ∧ t.tw = s.tw)) ∧
  (∀ d e s, Ready s d 0x28 e → e.bits 4 3 0 = 2 →
    (s.cell = 0 → s.bit R.TW_CFG_EN = true → s.twinUp = true → ∃ t q, exec (.twCmdAlign d) s = .next t ∧ t.tb.corr = s.tb.corr ++ [q] ∧ q.desc = e.id? ∧ q.tag = s.tick ∧
      q.what = .step 1 (decide (0 < s.geti R.TW_OFFSET)) ((s.geti R.TW_OFFSET).natAbs / nsPerSec) ((s.geti R.TW_OFFSET).natAbs % nsPerSec)) ∧
    (s.cell ≠ 0 ∨ s.bit R.TW_CFG_EN = false ∨ s.twinUp = false → ∃ t, exec (.twCmdAlign d) s = .next t ∧ Closed e t ∧ t.tb = s.tb)) ∧
  (∀ d e s, Ready s d 0x28 e → e.bits 4 3 0 = 3 →
    ((s.twState = 5 ∨ s.twState = 6) → s.twinUp = true → (s.tw.causeCode = 0 ∨ s.acked s.tw.causeCode s.tw.causeInst = true) → ∃ t, exec (.twCmdRepair d) s = .next t ∧ Closed e t ∧ t.twState = 3 ∧ t.tw.transferAt = s.tick) ∧
    ((s.twState ≠ 5 ∧ s.twState ≠ 6) ∨ s.twinUp = false ∨ (s.tw.causeCode ≠ 0 ∧ s.acked s.tw.causeCode s.tw.causeInst = false) → ∃ t, exec (.twCmdRepair d) s = .next t ∧ Closed e t ∧ t.twState = s.twState))

/-- The twin's messages (R369 to R383). A message goes out once when it is due; a frame that is no good message of the command's kind is
discarded; the second copy of one on the other link is counted and changes the twin no further; and the first copy of a good one says what
the twin does, renews, confirms, gives up, claims, measures or loads. -/
def Obligations.TwinMessages : Prop :=
  (∀ s, s.leaseDue = true → s.tw.handover = none → ∃ t, exec .leaseTx s = .next t ∧ t.tw.leaseSent = some s.cycle ∧ t.tw.lastRenew = s.cycle ∧ t.tw.mirrorOut = []) ∧
  (∀ s, s.leaseDue = false → exec .leaseTx s = .next s) ∧
  (∀ s, s.twState = 4 → s.grid.cyc.isSome = true → s.tw.ackSent ≠ some s.cycle → s.get R.TW_TIMING_LEASE_OFFSET + 250 ≤ s.intoCycle → ∃ t, exec .ackTx s = .next t ∧ t.tw.ackSent = some s.cycle ∧
    t.tw.fwdReact = 0 ∧ t.tw.fwdMask = 0 ∧ (∀ h, s.tw.handover = some h → h.cycle = s.cycle + 2 → t.tw.handover = some { h with confirmed := true })) ∧
  (∀ s, s.twState ≠ 4 ∨ s.grid.cyc = none ∨ s.tw.ackSent = some s.cycle ∨ s.intoCycle < s.get R.TW_TIMING_LEASE_OFFSET + 250 → exec .ackTx s = .next s) ∧
  (∀ s, s.bit R.TW_CFG_EN = true → (∀ a, s.tw.statusSent = some a → a + 125000 ≤ s.tick) → ∃ t, exec .statusTx s = .next t ∧ t.tw.statusSent = some s.tick) ∧
  (∀ s, s.bit R.TW_CFG_EN = false ∨ (∃ a, s.tw.statusSent = some a ∧ s.tick < a + 125000) → exec .statusTx s = .next s) ∧
  (∀ (p : Fin 4) i s, s.echoSlot p.val = some i → s.bit R.TW_CFG_EN = true → s.bit R.CB_PORT_CFG_TOPOLOGY p.val = true → s.grid.cyc.isSome = true → (s.slot i).launched ≠ some s.cycle →
    s.get R.CB_SL_A_OFFSET i ≤ s.intoCycle → s.slotDue i s.cycle = true → s.holdsLease = false → ∃ t, exec (.echoTx p) s = .next t ∧ (t.slot i).launched = some s.cycle) ∧
  (∀ (p : Fin 4) s, s.echoSlot p.val = none ∨ s.bit R.TW_CFG_EN = false ∨ s.bit R.CB_PORT_CFG_TOPOLOGY p.val = false ∨ s.grid.cyc = none → exec (.echoTx p) s = .next s) ∧
  (∀ (p : Fin 2) sent s, s.bit R.TW_CFG_EN = true → s.up (4 + p.val) = true → ∃ t, exec (.syncExchange p sent) s = .next t ∧ t.tw.syncSent = sent ∧ t.tw.syncDelay = [] ∧ t.tw.syncOffset = []) ∧
  (∀ (p : Fin 2) sent s, s.bit R.TW_CFG_EN = false ∨ s.up (4 + p.val) = false → exec (.syncExchange p sent) s = .next s) ∧
  (∀ f s, (s.twGood f 1 = false → exec (.leaseRx f) s = .next s) ∧ (s.twGood f 2 = false → exec (.ackRx f) s = .next s) ∧ (s.twGood f 3 = false → exec (.claimRx f) s = .next s) ∧
    (s.twGood f 4 = false → exec (.releaseRx f) s = .next s) ∧ (s.twGood f 5 = false → exec (.xferRx f) s = .next s) ∧ (s.twGood f 6 = false → exec (.syncRx f) s = .next s) ∧
    (s.twGood f 7 = false → exec (.statusRx f) s = .next s)) ∧
  (∀ f s, s.twState ≠ 2 ∨ newerEpoch (beField f.payload 2 2) (s.get R.TW_EPOCH_EPOCH) = false →
    (s.twGood f 2 = true → s.twSecond f 2 = true → ∃ t, exec (.ackRx f) s = .next t ∧ Copied s t) ∧
    (s.twGood f 3 = true → s.twSecond f 3 = true → ∃ t, exec (.claimRx f) s = .next t ∧ Copied s t) ∧
    (s.twGood f 4 = true → s.twSecond f 4 = true → ∃ t, exec (.releaseRx f) s = .next t ∧ Copied s t) ∧
    (s.twGood f 5 = true → s.twSecond f 5 = true → ∃ t, exec (.xferRx f) s = .next t ∧ Copied s t) ∧
    (s.twGood f 6 = true → s.twSecond f 6 = true → ∃ t, exec (.syncRx f) s = .next t ∧ Copied s t) ∧
    (s.twGood f 7 = true → s.twSecond f 7 = true → ∃ t, exec (.statusRx f) s = .next t ∧ Copied s t)) ∧
  (∀ f s, s.twGood f 1 = true → s.twState = 1 → ∃ t, exec (.leaseRx f) s = .next t ∧ t.twState = 3 ∧ t.peer = 2 ∧ t.tw.transferAt = s.tick) ∧
  (∀ f s, s.twGood f 1 = true → s.twState = 4 → s.get R.TW_EPOCH_EPOCH = beField f.payload 2 2 → s.get R.TW_EPOCH_EPOCH ≠ 0 → s.cycleOf (beField f.payload 4 4) = s.cycle →
    s.tw.leaseSeen = some (beField f.payload 4 4) ∨ beField f.payload 14 2 = 0 → ∃ t, exec (.leaseRx f) s = .next t ∧ t.twState = 4 ∧ t.peer = 2 ∧ hasBit t.tw.renewed (f.port - 4) = true ∧
      (s.tw.leaseSeen ≠ some (beField f.payload 4 4) → hasBit (beField f.payload 1 1) 2 = false → hasBit (beField f.payload 1 1) 1 = true →
        t.tw.handover = some { epoch := beField f.payload 8 2, cycle := s.cycleOf (beField f.payload 10 4), confirmed := false, giver := false, desc := none })) ∧
  (∀ f s, twFirst s f 2 = true → s.twState = 2 → newerEpoch (beField f.payload 2 2) (s.get R.TW_EPOCH_EPOCH) = false → s.tw.ackSeen ≠ some (beField f.payload 4 4) → beField f.payload 52 1 = 0 → ∃ t, exec (.ackRx f) s = .next t ∧
    t.peer = 4 ∧ t.tw.ackSeen = some (beField f.payload 4 4) ∧ (∀ h, s.tw.handover = some h → hasBit (beField f.payload 1 1) 3 = true → h.cycle = s.cycle + 2 → t.tw.handover = some { h with confirmed := true })) ∧
  (∀ f (s : State), s.twState = 2 → newerEpoch (beField f.payload 2 2) (s.get R.TW_EPOCH_EPOCH) = true → ∃ t1 t2 t3 t4 t5 t6 t7, exec (.leaseRx f) s = .next t1 ∧ exec (.ackRx f) s = .next t2 ∧ exec (.claimRx f) s = .next t3 ∧
    exec (.releaseRx f) s = .next t4 ∧ exec (.xferRx f) s = .next t5 ∧ exec (.syncRx f) s = .next t6 ∧ exec (.statusRx f) s = .next t7 ∧
    (s.twGood f 1 = true → t1.twState = 6) ∧ (s.twGood f 2 = true → t2.twState = 6) ∧ (s.twGood f 3 = true → t3.twState = 6) ∧ (s.twGood f 4 = true → t4.twState = 6) ∧
    (s.twGood f 5 = true → t5.twState = 6) ∧ (s.twGood f 6 = true → t6.twState = 6) ∧ (s.twGood f 7 = true → t7.twState = 6)) ∧
  (∀ f s, twFirst s f 3 = true → s.twState = 1 → ∃ t, exec (.claimRx f) s = .next t ∧ (s.bit R.TW_CFG_POSITION = false → t.twState = 2) ∧ (s.bit R.TW_CFG_POSITION = true → t.twState = 1 ∧ t.peer = 1 ∧ t.tw.peerStored = beField f.payload 16 2)) ∧
  (∀ f s, twFirst s f 4 = true → s.twState = 4 → beField f.payload 16 2 = s.get R.TW_EPOCH_EPOCH → ∃ t, exec (.releaseRx f) s = .next t ∧ t.tw.takeAt = some (s.cycle + 1) ∧ t.tw.handover = none ∧ t.peer = 2) ∧
  (∀ f s, twFirst s f 7 = true → s.twState ≠ 1 → s.twState ≠ 2 → ∃ t, exec (.statusRx f) s = .next t ∧ t.tw.lastStatus = some s.tick ∧ t.peer = beField f.payload 16 1 % 16 ∧ t.tw.peerStored = beField f.payload 18 2 ∧
    t.tw.peerEnabled = hasBit (beField f.payload 17 1) 0) ∧
  (∀ f s, twFirst s f 6 = true → s.twState ≠ 2 → beField f.payload 16 1 = 1 → ∃ t, exec (.syncRx f) s = .next t ∧ t.free = s.free + 1) ∧
  (∀ f (t1 : Nat) s, twFirst s f 6 = true → s.twState ≠ 2 → beField f.payload 16 1 = 2 → beField f.payload 17 1 = s.tw.syncDelay.length → s.tw.syncSent[s.tw.syncDelay.length]? = some t1 → ∃ t, exec (.syncRx f) s = .next t ∧
    t.tw.syncDelay = s.tw.syncDelay ++ [128 * ((f.stamp : Int) - t1) - (beField f.payload 38 4 : Nat)]) ∧
  (∀ f s, twFirst s f 5 = true → s.twState = 3 → ∃ t, exec (.xferRx f) s = .next t ∧ t.peer = 2 ∧ beField f.payload 16 2 ∈ t.tw.segs ∧ t.tw.segCount = beField f.payload 18 2)

/-- The event recorder (R390 to R400, R409): the event input, which serves first in a round the record that R36 puts first, acknowledgement
entries, the store and its hold buffer, freezes, the window, the event interrupt and EV_CMD. Each command that is due does what the rules
give it; one that is not changes nothing. -/
def Obligations.EventRecorder : Prop :=
  (∀ s, s.posted = [] → exec .eventInputPost s = .next s) ∧
  (∀ r l s, inputOrder s = r :: l → ∃ t w, exec .eventInputPost s = .next t ∧ t.posted = l ++ w ∧
    (s.ev.round = 0 → t.ev.round = min 32 s.posted.length - 1 ∧ ∀ x ∈ s.posted, arbBefore (evReq r) (evReq x) = true) ∧ (s.ev.round ≠ 0 → t.ev.round = s.ev.round - 1) ∧
    (s.inputFits r = true → t.ev.input = s.ev.input ++ [r]) ∧ (s.inputFits r = false → t.ev.input = s.ev.input) ∧
    (s.inputFits r = false → r.sev ≠ .fatal → r.code ≠ Ev.evLost → t.ev.lostInput = s.ev.lostInput + 1 ∧ t.get R.EV_DROPS_A_INPUT_DROP = min (s.get R.EV_DROPS_A_INPUT_DROP + 1) R.EV_DROPS_A_INPUT_DROP.top) ∧
    (s.inputFits r = false → r.sev = .fatal → t.get R.EV_DROPS_B_FATAL_DROP = min (s.get R.EV_DROPS_B_FATAL_DROP + 1) R.EV_DROPS_B_FATAL_DROP.top) ∧
    (r.serious = false → t.ev.acks = s.ev.acks ∧ t.bb = s.bb) ∧
    (r.serious = true → (s.ev.acks.any fun a => a.code == r.code && a.inst == r.inst) = false → s.ev.acks.length < 512 →
      t.ev.acks = s.ev.acks ++ [{ code := r.code, inst := r.inst, count := 1, tick := s.tick }]) ∧
    (r.serious = true → (s.ev.acks.any fun a => a.code == r.code && a.inst == r.inst) = false → 512 ≤ s.ev.acks.length → t.bit R.EV_STAT_OPEN_OVF = true ∧ t.ev.acks = s.ev.acks) ∧
    (∀ c, s.inputFits r = true → r.sev = .fatal → s.bb.commit = some c → t.bb.commit = some { c with recs := c.recs ++ [r] })) ∧
  (∀ s, s.ev.input = [] → exec .recordStore s = .next s) ∧
  (∀ r l s, s.ev.input = r :: l → ∃ t, exec .recordStore s = .next t ∧ t.ev.input = l ∧
    (s.frozenNow = true → recBytes s.ev.hold + r.size ≤ 4096 → t.ev.hold = s.ev.hold ++ [r] ∧ t.ev.ram = s.ev.ram) ∧
    (s.frozenNow = false → ramUsed s.ev.ram + r.size ≤ ramBytes → t.ev.ram = s.ev.ram ++ [{ seq := s.ev.nextSeq, evt := r }] ∧
      t.ev.nextSeq = (s.ev.nextSeq + 1) % 2 ^ 32 ∧ (s.ev.nextSeq < 2 ^ 32 → t.get R.EV_SEQ_LAST = s.ev.nextSeq))) ∧
  (∀ d e s, Ready s d 0x30 e → e.bits 4 3 0 = 0 →
    (s.bit R.EV_STAT_HOST_FROZEN = false → ∃ t, exec (.evCmdFreeze d) s = .next t ∧ Closed e t ∧ t.bit R.EV_STAT_HOST_FROZEN = true ∧ t.ev.freezeAt = s.tick) ∧
    (s.bit R.EV_STAT_HOST_FROZEN = true → ∃ t, exec (.evCmdFreeze d) s = .next t ∧ Closed e t ∧ t.ev = s.ev)) ∧
  (∀ d e s, Ready s d 0x30 e → e.bits 4 3 0 = 1 → ∃ t, exec (.evCmdUnfreeze d) s = .next t ∧ Closed e t ∧
    (s.bit R.EV_STAT_HOST_FROZEN = true → t.bit R.EV_STAT_HOST_FROZEN = false ∧ (s.bit R.EV_STAT_DBG_FROZEN = true → t.ev = s.ev) ∧ (s.bit R.EV_STAT_DBG_FROZEN = false → t.ev.hold = [])) ∧
    (s.bit R.EV_STAT_HOST_FROZEN = false → t.ev = s.ev)) ∧
  (∀ s, s.bit R.EV_STAT_HOST_FROZEN = true → s.ev.freezeAt + 125000000 * max 1 (s.get R.EV_CFG_FREEZE_MAX) ≤ s.tick → ∃ t, exec .evFreezeTimeout s = .next t ∧ t.bit R.EV_STAT_HOST_FROZEN = false) ∧
  (∀ s, s.bit R.EV_STAT_HOST_FROZEN = false ∨ s.tick < s.ev.freezeAt + 125000000 * max 1 (s.get R.EV_CFG_FREEZE_MAX) → exec .evFreezeTimeout s = .next s) ∧
  (∀ hold s, (hold = s.bit R.EV_STAT_DBG_FROZEN → exec (.evFreezeDbg hold) s = .next s) ∧
    (hold ≠ s.bit R.EV_STAT_DBG_FROZEN → ∃ t, exec (.evFreezeDbg hold) s = .next t ∧ t.bit R.EV_STAT_DBG_FROZEN = hold ∧ (hold = false → s.bit R.EV_STAT_HOST_FROZEN = false → t.ev.hold = []))) ∧
  (∀ (q : Word) s, (s.ev.ram.find? fun r => decide (q.toNat ≤ r.seq)) = none → ∃ t u, exec (.evCursorWrite q) s = .next t ∧ exec (.evReadDbg q) s = .next u ∧
    t.get R.EV_CURSOR = q.toNat ∧ t.bit R.EV_RD_STAT_VALID = false ∧ u.bit R.EV_RD_STAT_VALID = false ∧ u.readData = BitVec.ofNat 32 (s.get R.EV_WIN 0)) ∧
  (∀ (q : Word) r s, s.bit R.INJ_STAT_KEY_LOADED = false → (s.ev.ram.find? fun r => decide (q.toNat ≤ r.seq)) = some r → r.seq < 2 ^ 32 → ∃ t u, exec (.evCursorWrite q) s = .next t ∧ exec (.evReadDbg q) s = .next u ∧
    t.get R.EV_CURSOR = q.toNat ∧ t.bit R.EV_RD_STAT_VALID = true ∧ t.get R.EV_RD_SEQ = r.seq ∧ t.bit R.EV_RD_STAT_GAP = decide (r.seq ≠ q.toNat) ∧
    t.bit R.EV_RD_STAT_ECC_BAD = decide (s.found (.recorder r.seq) = some true) ∧
    (s.found (.recorder r.seq) ≠ some true → t.ev = s.ev ∧ (∀ i, i < 64 → t.get R.EV_WIN i = (r.evt.words.getD i 0).toNat) ∧ u.readData = r.evt.words.getD 0 0) ∧
    (s.found (.recorder r.seq) = some true → t.ev.ram = (s.ev.ram.filter fun x => x.seq != r.seq) ∧ (t.posted.getLast?.map fun v => (v.code, v.sev)) = some (Ev.evEccUncorr, .fault))) ∧
  (∀ d e s, Ready s d 0x30 e → e.bits 4 3 0 = 2 → ∃ t, exec (.evCmdAck d) s = .next t ∧ Closed e t ∧
    (hasBit (e.word 5) 31 = true → t.ev.acks = (s.ev.acks.filter fun a => a.tick == s.tick) ∧ t.bit R.EV_STAT_OPEN_OVF = false) ∧
    (hasBit (e.word 5) 31 = false → t.ev.acks = s.ev.acks.filter fun a => !(a.code == e.bits 5 15 0 && a.inst == e.bits 6 15 0) || a.tick == s.tick)) ∧
  (∀ d e s, Ready s d 0x30 e → e.bits 4 3 0 = 3 → ∃ t l r, exec (.evCmdMark d) s = .next t ∧ Closed e t ∧ t.posted = s.posted ++ r :: l ∧ r.code = Ev.evHostMark ∧
    r.sev = (if e.bits 5 1 0 = 0 then Sev.info else .notice)) ∧
  (∀ d e s, Ready s d 0x30 e → e.bits 4 3 0 = 4 → ∃ t, exec (.evCmdClear d) s = .next t ∧ Closed e t ∧ t.ev.ram = if s.maint = true then afterClear s.ev.ram else s.ev.ram) ∧
  (∀ d e s, Ready s d 0x30 e → e.bits 4 3 0 = 5 → ∃ t, exec (.evCmdClearFatal d) s = .next t ∧ Closed e t ∧ t.ev.ram = if s.maint = true ∧ s.locked = false then [] else s.ev.ram) ∧
  (∀ s, s.ev.irqPending = true → s.bit R.HI_VEC_SRC_EVENT_IE = true → (∀ a, s.ev.lastIrq = some a → a + 125 * s.get R.EV_CFG_IRQ_GAP_US ≤ s.tick) → ∃ t, exec .eventInterrupt s = .next t ∧
    t.ev.irqPending = false ∧ t.ev.lastIrq = some s.tick ∧ t.hi = ((s.updEv fun e => { e with irqPending := false, lastIrq := some s.tick }).sendVec (s.get R.HI_VEC_SRC_EVENT_VEC)).hi) ∧
  (∀ s, s.ev.irqPending = false ∨ s.bit R.HI_VEC_SRC_EVENT_IE = false ∨ (∃ a, s.ev.lastIrq = some a ∧ s.tick < a + 125 * s.get R.EV_CFG_IRQ_GAP_US) → exec .eventInterrupt s = .next s)

/-- The Orangery's commits (R401 to R407): a commit goes out with the fatal records it waits for, or with its substitute when none has come
within its time, seals its slot, and is counted; the power-loss snapshot is taken once, and names the newer of its two copies. -/
def Obligations.OrangeryCommits : Prop :=
  (∀ s, s.bb.commit = none → exec .orangeryCommitRecord s = .next s ∧ (s.bit R.INJ_STAT_KEY_LOADED = false → exec .bbEscOnly s = .next s)) ∧
  (∀ c s, s.bb.commit = some c → c.recs = [] → s.earlyFatal c = [] → exec .orangeryCommitRecord s = .next s ∧
    (s.bit R.INJ_STAT_KEY_LOADED = false → s.tick < c.tick + 4000 → exec .bbEscOnly s = .next s)) ∧
  (∀ c s, s.bb.commit = some c → c.recs ≠ [] ∨ s.earlyFatal c ≠ [] → s.pw.resetReq = 0 → ∃ t, exec .orangeryCommitRecord s = .next t ∧ t.bb.commit = none ∧ t.bb.sealNo = s.bb.sealNo + 1 ∧
    t.get R.BB_LAST_COMMIT_COMMITS = min (s.get R.BB_LAST_COMMIT_COMMITS + 1) R.BB_LAST_COMMIT_COMMITS.top ∧ (t.posted.getLast?.map fun v => (v.code, v.sev)) = some (Ev.bbCommit, .info)) ∧
  (∀ c s, s.bb.commit = some c → c.recs ≠ [] ∨ s.earlyFatal c ≠ [] → s.bit R.INJ_STAT_KEY_LOADED = false → exec .bbEscOnly s = .next s) ∧
  (∀ c s, s.bb.commit = some c → c.recs = [] → s.earlyFatal c = [] → s.bit R.INJ_STAT_KEY_LOADED = false → c.tick + 4000 ≤ s.tick → s.pw.resetReq = 0 → ∃ t, exec .bbEscOnly s = .next t ∧
    t.bb.commit = none ∧ t.bb.sealNo = s.bb.sealNo + 1 ∧ t.get R.BB_COUNT_SUBSTITUTES = min (s.get R.BB_COUNT_SUBSTITUTES + 1) R.BB_COUNT_SUBSTITUTES.top) ∧
  (∀ s, s.bit R.PW_SUPPLY_STAT_PFAIL = true → s.bb.commit = none → s.bb.snapDone = false → s.pw.resetReq = 0 → ∃ t, exec .powerLossSnapshot s = .next t ∧ t.bb.snapDone = true ∧
    t.bb.snapNo = s.bb.snapNo + 1 ∧ t.bit R.BB_STAT_SNAP_VALID = true ∧ (t.bb.snapA = some (s.bb.snapNo + 1, s.snapWords) ∨ t.bb.snapB = some (s.bb.snapNo + 1, s.snapWords))) ∧
  (∀ s, s.bit R.PW_SUPPLY_STAT_PFAIL = false ∨ s.bb.commit ≠ none ∨ s.bb.snapDone = true → exec .powerLossSnapshot s = .next s)

/-- The Orangery's image and its readers (R400, R401, R409): the staged samples join the pre-trigger image unless it is frozen; the debug
port and the wedge-safe responder read a section; EV_CMD BB_RELEASE thaws the image and frees its slots, and EV_CMD BB_ERASE empties the
sections it names, in maintenance only. -/
def Obligations.OrangeryImage : Prop :=
  (∀ s, s.bb.ptFrozen = true → exec .pretriggerMove s = .next s) ∧
  (∀ s, s.bb.ptFrozen = false → ∃ t, exec .pretriggerMove s = .next t ∧ t.bb = { s.bb with staging := [], ring := trimSamples (s.bb.ring.length + s.bb.staging.length) (s.bb.ring ++ s.bb.staging) } ∧ t.regs = s.regs) ∧
  (∀ k off s, ∃ t, exec (.bbReadDbg k off) s = .next t ∧ t.readData = BitVec.ofNat 32 (leNat (((s.dumpBytes (2 ^ k)).drop off).take 4)) ∧
    (s.bit R.INJ_STAT_KEY_LOADED = false → s.flips = [] → t.bb = s.bb ∧ t.ev = s.ev)) ∧
  (∀ k off s, (s.pw.responder = true → ∃ t, exec (.bbResponderRequest k off) s = .next t ∧ t.bb.reply = ((s.dumpBytes (2 ^ k)).drop off).take 1024) ∧
    (s.pw.responder = false → exec (.bbResponderRequest k off) s = .next s)) ∧
  (∀ d e s, Ready s d 0x30 e → e.bits 4 3 0 = 6 → ∃ t, exec (.evCmdBbRelease d) s = .next t ∧ Closed e t ∧
    (s.bb.ptFrozen = true ∨ s.sealedSlots ≠ [] → t.bb.ptFrozen = false ∧ t.bit R.BB_STAT_PT_FROZEN = false ∧ t.get R.BB_STAT_PT_SKIPS = 0 ∧ t.bb.faultLog = s.bb.faultLog) ∧
    (s.bb.ptFrozen = false → s.sealedSlots = [] → t.bb = s.bb)) ∧
  (∀ d e s, Ready s d 0x30 e → e.bits 4 3 0 = 7 →
    (s.maint = true → s.locked = false → ∃ t, exec (.evCmdBbErase d) s = .next t ∧ Closed e t ∧ t.bb.faultLog = (if hasBit (e.bits 5 5 0) 1 then [] else s.bb.faultLog) ∧
      t.bb.slots = (if hasBit (e.bits 5 5 0) 2 then [] else s.bb.slots) ∧ t.bb.ring = (if hasBit (e.bits 5 5 0) 3 then [] else s.bb.ring) ∧
      t.bb.snapA = (if hasBit (e.bits 5 5 0) 4 then none else s.bb.snapA) ∧ t.bb.storedEpoch = s.bb.storedEpoch ∧ t.bb.boots = s.bb.boots) ∧
    (s.maint = false ∨ s.locked = true → ∃ t, exec (.evCmdBbErase d) s = .next t ∧ Closed e t ∧ t.bb = s.bb))

/-- An escalation (R23 to R25, R31, R185, R373, R382): a fatal one latches, stops WDOG_OUT, asserts its pairs and starts a commit; a fault
escalation asks its arm groups to stop, or is held where no joint moves, is forwarded to the holder, or passes the lease. INJ_CMD (R410 to
R413): loading and clearing the key, arming and disarming; the operations but LOAD_KEY act in maintenance mode only. -/
def Obligations.Escalations : Prop :=
  ((∀ s, s.escs = [] → s.pw.resetReq = 0 → exec .escalation s = .next s) ∧
  (∀ e s, s.escs = [e] → e.fatal = true → s.pw.resetReq = 0 → ∃ t, exec .escalation s = .next t ∧ t.escs = [] ∧ t.sio.fatalLatched = true ∧ t.sio.fatalMask = s.sio.fatalMask ||| e.mask.toNat ∧
    t.sio.fatalGlob = (s.sio.fatalGlob || e.glob) ∧ t.sio.wdogOut = false ∧ t.bb.ptFrozen = true ∧ t.bb.commit.isSome = true ∧
    (∀ g p, g < 8 → s.pairOf g = some p → hasBit e.mask.toNat g = true → t.bit R.AD_STO_STAT_ASSERTED p = true) ∧ (e.glob = true → ∀ p, p < 10 → t.bit R.AD_STO_STAT_ASSERTED p = true)) ∧
  (∀ e s, s.escs = [e] → e.fatal = false → e.glob = false → s.notHolder = false → s.standbyHealthy = false → e.react = .ss1 ∨ e.react = .ss2 → s.pw.resetReq = 0 → ∃ t, exec .escalation s = .next t ∧ t.escs = [] ∧
    (∀ g, g < 8 → hasBit e.mask.toNat g = true → s.groupMoves g = true → (t.group g).want = max (s.group g).want (if e.react = .ss1 then 2 else 1)) ∧
    (∀ g, g < 8 → hasBit e.mask.toNat g = true → s.groupMoves g = false → (t.group g) = holds (s.group g) e) ∧
    (∀ g, g < 8 → hasBit e.mask.toNat g = false → (t.group g) = s.group g)) ∧
  (∀ e s, s.escs = [e] → e.fatal = false → e.glob = false → s.notHolder = false → s.standbyHealthy = false → e.react = .sto → s.pw.resetReq = 0 → ∃ t, exec .escalation s = .next t ∧ t.escs = [] ∧
    (∀ g p, g < 8 → s.pairOf g = some p → hasBit e.mask.toNat g = true → t.bit R.AD_STO_STAT_ASSERTED p = true)) ∧
  (∀ e s, s.escs = [e] → e.fatal = false → e.glob = false → s.notHolder = true → s.twState ≠ 4 → s.pw.resetReq = 0 → ∃ t, exec .escalation s = .next t ∧ t.grp = s.grp ∧
    (e.react = .ss1 → t.tw.fwdReact = max s.tw.fwdReact 2 ∧ t.tw.fwdMask = s.tw.fwdMask ||| e.mask.toNat) ∧ (e.react = .none → t.tw = s.tw)) ∧
  (∀ e s, s.escs = [e] → e.fatal = false → e.glob = false → s.twState = 4 → s.bit R.TW_CFG_EN = true → ownBlock e.code = true → s.pw.resetReq = 0 → ∃ t, exec .escalation s = .next t ∧ t.grp = s.grp ∧ t.twState = 5 ∧
    t.tw.causeCode = e.code) ∧
  (∀ e s, s.escs = [e] → e.fatal = false → e.glob = false → s.standbyHealthy = true → s.tw.released = none → e.react = .pace → s.pw.resetReq = 0 → ∃ t, exec .escalation s = .next t ∧ t.grp = s.grp ∧
    t.tw.released = some s.tw.lastRenew ∧ t.tw.causeCode = e.code)) ∧
  ((∀ d e s, Ready s d 0x31 e → e.bits 4 3 0 = 0 → ∃ t, exec (.injCmdLoadKey d) s = .next t ∧ Closed e t ∧
    (s.bit R.INJ_STAT_LOCKED = true → t.bit R.INJ_STAT_KEY_LOADED = s.bit R.INJ_STAT_KEY_LOADED ∧ t.get R.INJ_STAT_KEY_FAILS = s.get R.INJ_STAT_KEY_FAILS) ∧
    (s.bit R.INJ_STAT_LOCKED = false → (s.pw.fuses.any fun f => f.injKey == Config.sha256 ([8, 9, 10, 11].flatMap fun i => wordBytes (e.words.getD i 0))) = true →
      t.bit R.INJ_STAT_KEY_LOADED = true ∧ t.get R.INJ_STAT_KEY_FAILS = s.get R.INJ_STAT_KEY_FAILS) ∧
    (s.bit R.INJ_STAT_LOCKED = false → (s.pw.fuses.any fun f => f.injKey == Config.sha256 ([8, 9, 10, 11].flatMap fun i => wordBytes (e.words.getD i 0))) = false →
      t.bit R.INJ_STAT_KEY_LOADED = s.bit R.INJ_STAT_KEY_LOADED ∧ t.get R.INJ_STAT_KEY_FAILS = min (s.get R.INJ_STAT_KEY_FAILS + 1) 3 ∧ t.bit R.INJ_STAT_LOCKED = decide (3 ≤ s.get R.INJ_STAT_KEY_FAILS + 1))) ∧
  (∀ d e s, Ready s d 0x31 e → s.maint = false →
    (e.bits 4 3 0 = 1 → ∃ t, exec (.injCmdClearKey d) s = .next t ∧ Closed e t ∧ t.inj = s.inj ∧ t.bit R.INJ_STAT_KEY_LOADED = s.bit R.INJ_STAT_KEY_LOADED) ∧
    (e.bits 4 3 0 = 2 → ∃ t, exec (.injCmdArm d) s = .next t ∧ Closed e t ∧ t.inj = s.inj) ∧
    (e.bits 4 3 0 = 3 → ∃ t, exec (.injCmdDisarm d) s = .next t ∧ Closed e t ∧ t.inj = s.inj) ∧
    (e.bits 4 3 0 = 4 → ∃ t, exec (.injCmdDisarmAll d) s = .next t ∧ Closed e t ∧ t.inj = s.inj)) ∧
  (∀ d e s, Ready s d 0x31 e → s.maint = true → e.bits 4 3 0 = 1 → ∃ t, exec (.injCmdClearKey d) s = .next t ∧ Closed e t ∧ t.bit R.INJ_STAT_KEY_LOADED = false ∧ t.get R.INJ_KEY_ID = 0 ∧ t.inj = s.inj) ∧
  (∀ d e s, Ready s d 0x31 e → s.maint = true → e.bits 4 3 0 = 2 → s.bit R.INJ_STAT_KEY_LOADED = false ∨ injAllocated (e.bits 5 9 0) = false ∨ (∀ k, k < 16 → (s.injAt k).armed = true) →
    ∃ t, exec (.injCmdArm d) s = .next t ∧ Closed e t ∧ t.inj = s.inj) ∧
  (∀ d e k s, Ready s d 0x31 e → s.maint = true → e.bits 4 3 0 = 2 → s.bit R.INJ_STAT_KEY_LOADED = true → injAllocated (e.bits 5 9 0) = true → k < 16 → (s.injAt k).armed = false →
    (∀ j, j < k → (s.injAt j).armed = true) → ∃ t, exec (.injCmdArm d) s = .next t ∧ Closed e t ∧ (t.injAt k).armed = true ∧ (t.injAt k).index = e.bits 5 9 0 ∧ (t.injAt k).mode = e.bits 5 11 10 ∧
      (t.injAt k).inst = e.bits 7 15 0 ∧ (t.injAt k).params = ([8, 9, 10, 11].map fun i => e.words.getD i 0) ∧ t.get R.INJ_ENTRY_INDEX k = e.bits 5 9 0 ∧ t.bit R.INJ_ENTRY_ARMED k = true) ∧
  (∀ d e s, Ready s d 0x31 e → s.maint = true → e.bits 4 3 0 = 3 → ∃ t, exec (.injCmdDisarm d) s = .next t ∧ Closed e t ∧
    (∀ k, k < 16 → (t.injAt k).armed = ((s.injAt k).armed && (s.injAt k).index != e.bits 5 9 0)) ∧ ((∀ k, k < 16 → (s.injAt k).armed = true → (s.injAt k).index ≠ e.bits 5 9 0) → t.inj = s.inj)) ∧
  (∀ d e s, Ready s d 0x31 e → s.maint = true → e.bits 4 3 0 = 4 → ∃ t, exec (.injCmdDisarmAll d) s = .next t ∧ Closed e t ∧ (∀ k, k < 16 → (t.injAt k).armed = false)))

/-- A background read of a protected memory (R178, R246, R250, R315, R331, R350, R396, R401), with no injection key loaded: a word without
an error changes nothing; a read sets the word right; a corrected error is counted; an uncorrectable one loses the word and is reported,
fatally where the memory's chapter says so. -/
def Obligations.ProtectedMemories : Prop :=
  (∀ m s, s.bit R.INJ_STAT_KEY_LOADED = false → wordFound s m = none → exec (.scrubRead m) s = .next s) ∧
  (∀ m s, s.bit R.INJ_STAT_KEY_LOADED = false → ∃ t, exec (.scrubRead m) s = .next t ∧ wordFound t m = none) ∧
  (∀ s, s.bit R.INJ_STAT_KEY_LOADED = false →
    (∀ (n : Fin 64) k a, wordFound s (.tiller n k a) = some false → ∃ t, exec (.scrubRead (.tiller n k a)) s = .next t ∧ (∀ j b, tilWord (t.til n.val) j b = tilWord (s.til n.val) j b) ∧ t.escs = s.escs ∧
      t.get R.TL_COUNT_ECC_CORR n.val = min (s.get R.TL_COUNT_ECC_CORR n.val + 1) R.TL_COUNT_ECC_CORR.top) ∧
    (∀ (e : Fin 9) a, wordFound s (.scratch e a) = some false → ∃ t, exec (.scrubRead (.scratch e a)) s = .next t ∧ t.sv = s.sv ∧ t.get R.SV_COUNT_ECC_CORR e.val = min (s.get R.SV_COUNT_ECC_CORR e.val + 1) R.SV_COUNT_ECC_CORR.top) ∧
    (∀ i, wordFound s (.tasks i) = some false → ∃ t, exec (.scrubRead (.tasks i)) s = .next t ∧ t.sch = s.sch ∧ t.get R.SCH_COUNT_ECC_CORR = min (s.get R.SCH_COUNT_ECC_CORR + 1) R.SCH_COUNT_ECC_CORR.top) ∧
    (∀ w, wordFound s (.meProg w) = some false → ∃ t, exec (.scrubRead (.meProg w)) s = .next t ∧ t.me = s.me ∧ t.get R.ME_ECC_ECC_CORR = min (s.get R.ME_ECC_ECC_CORR + 1) R.ME_ECC_ECC_CORR.top) ∧
    (∀ w, wordFound s (.granary w) = some false → ∃ t, exec (.scrubRead (.granary w)) s = .next t ∧ t.gr = s.gr ∧ t.escs = s.escs) ∧
    (∀ q, wordFound s (.recorder q) = some false → ∃ t, exec (.scrubRead (.recorder q)) s = .next t ∧ t.ev = s.ev ∧ t.get R.EV_DROPS_B_ECC_CORR = min (s.get R.EV_DROPS_B_ECC_CORR + 1) R.EV_DROPS_B_ECC_CORR.top) ∧
    (∀ i, wordFound s (.orangery i) = some false → ∃ t, exec (.scrubRead (.orangery i)) s = .next t ∧ t.bb = s.bb ∧ t.get R.BB_COUNT_ECC_CORR = min (s.get R.BB_COUNT_ECC_CORR + 1) R.BB_COUNT_ECC_CORR.top) ∧
    (∀ a, wordFound s (.distance a) = some false → ∃ t, exec (.scrubRead (.distance a)) s = .next t ∧ t.sep = s.sep ∧ t.escs = s.escs) ∧
    (∀ a, wordFound s (.belvedere a) = some false → ∃ t, exec (.scrubRead (.belvedere a)) s = .next t ∧ t.sep = s.sep ∧ t.escs = s.escs)) ∧
  (∀ s, s.bit R.INJ_STAT_KEY_LOADED = false →
    (∀ (n : Fin 64) k a, wordFound s (.tiller n k a) = some true → ∃ t, exec (.scrubRead (.tiller n k a)) s = .next t ∧ tilWord (t.til n.val) k.val a = 0 ∧
      (t.escs.getLast?.map fun v => (v.fatal, v.mask, v.glob, v.code)) = some (true, BitVec.ofNat 8 (s.groupMaskOf n.val), false, Ev.tlEccUncorr)) ∧
    (∀ (e : Fin 9) a, wordFound s (.scratch e a) = some true → ∃ t, exec (.scrubRead (.scratch e a)) s = .next t ∧ t.gr = s.gr ∧
      (t.escs.getLast?.map fun v => (v.fatal, v.mask, v.glob, v.code)) = some (true, BitVec.ofNat 8 (s.svMask e.val), false, Ev.svEccUncorr)) ∧
    (∀ i, wordFound s (.tasks i) = some true → ∃ t, exec (.scrubRead (.tasks i)) s = .next t ∧ (t.escs.getLast?.map fun v => (v.fatal, v.mask, v.glob, v.code)) = some (true, 0xFF, true, Ev.schEccUncorr) ∧ t.free = s.free + 1) ∧
    (∀ w, wordFound s (.meProg w) = some true → ∃ t, exec (.scrubRead (.meProg w)) s = .next t ∧ (t.escs.getLast?.map fun v => (v.fatal, v.mask, v.glob, v.code)) = some (true, 0xFF, false, Ev.meEccUncorr) ∧ t.free = s.free + 1) ∧
    (∀ w, wordFound s (.granary w) = some true → ∃ t, exec (.scrubRead (.granary w)) s = .next t ∧ t.free = s.free + 1 ∧ (∀ v, v ≠ w → t.gr1 v = s.gr1 v) ∧ t.gr.back = s.gr.back ∧
      (t.escs.getLast?.map fun v => (v.fatal, v.mask, v.glob, v.code, v.inst)) = some (true, 0xFF, true, Ev.grEccUncorr, (s.regionOf w).getD 0xFFFF)) ∧
    (∀ q, wordFound s (.recorder q) = some true → ∃ t, exec (.scrubRead (.recorder q)) s = .next t ∧ t.ev.ram = (s.ev.ram.filter fun r => r.seq != q) ∧ t.escs = s.escs ∧
      (t.posted.getLast?.map fun v => (v.code, v.sev)) = some (Ev.evEccUncorr, .fault)) ∧
    (∀ i, wordFound s (.orangery i) = some true → ∃ t, exec (.scrubRead (.orangery i)) s = .next t ∧ t.bb.faultLog = s.bb.faultLog.eraseIdx i ∧ t.escs = s.escs ∧
      (t.posted.getLast?.map fun v => (v.code, v.sev)) = some (Ev.bbEccUncorr, .fault)) ∧
    (∀ a, wordFound s (.distance a) = some true → ∃ t, exec (.scrubRead (.distance a)) s = .next t ∧ (t.escs.getLast?.map fun v => (v.fatal, v.mask, v.glob, v.code)) = some (true, BitVec.ofNat 8 s.sepMask, false, Ev.sepEccUncorr)) ∧
    (∀ a, wordFound s (.belvedere a) = some true → ∃ t, exec (.scrubRead (.belvedere a)) s = .next t ∧ (t.escs.getLast?.map fun v => (v.fatal, v.mask, v.glob, v.code)) = some (true, BitVec.ofNat 8 s.sepMask, false, Ev.bvEccUncorr)))

/-- The analogue converter (R416 to R423) and what a trigger starts there (R63, R65): a conversion ends 125 ticks after its start with the
code of its voltage and the next starts in the same tick; limits react after LIM_N conversions; an urgent request takes an idle converter,
aborts a conversion in its first half or waits; a command that is not due changes nothing. -/
def Obligations.AnalogueConverter : Prop :=
  (∀ (ch : Fin 16) s, s.trigDue ch.val = false → exec (.triggerFire ch) s = .next s) ∧
  (∀ (ch : Fin 16) s, s.trigDue ch.val = true → s.get R.TB_TRG_CTRL_ACTION ch.val = 1 → s.get R.AD_CFG_MODE = 2 → s.get R.AD_CFG_COUNT ≠ 0 →
    ∃ t, exec (.triggerFire ch) s = .next t ∧ t.get R.TB_TRG_STATUS_FIRED ch.val = min (s.get R.TB_TRG_STATUS_FIRED ch.val + 1) R.TB_TRG_STATUS_FIRED.top ∧
      (s.ad.pass = none → s.ad.conv = none → t.ad.conv = some { start := s.tick + 1, entry := 0, urgent := false } ∧ t.ad.pass = some 0) ∧
      (s.ad.pass ≠ none → s.ad.latched = false → t.ad.latched = true ∧ t.ad.conv = s.ad.conv) ∧
      (s.ad.pass ≠ none → s.ad.latched = true → t.ad = s.ad ∧ t.get R.AD_COUNT_TRG_OVERLAP = min (s.get R.AD_COUNT_TRG_OVERLAP + 1) R.AD_COUNT_TRG_OVERLAP.top)) ∧
  (∀ nv s, s.ad.conv = none ∨ (∃ c, s.ad.conv = some c ∧ s.tick < c.start + 125) → exec (.adcConversionEnd nv) s = .next s) ∧
  (∀ nv c s, s.ad.conv = some c → c.start + 125 ≤ s.tick → s.bit R.INJ_STAT_KEY_LOADED = false → c.entry < 16 → ∃ t, exec (.adcConversionEnd nv) s = .next t ∧
    t.get R.AD_RES c.entry = (adcWord (s.bit R.AD_SEQ_A_LEFT c.entry) (s.bit R.AD_SEQ_A_DIFF c.entry) (adcCode (s.bit R.AD_SEQ_A_DIFF c.entry) nv) % 2 ^ 32).toNat ∧
    t.get R.AD_RES_STAT_PASS c.entry = s.get R.AD_STAT_PASS ∧ t.bit R.AD_RES_STAT_URGENT c.entry = c.urgent ∧
    (∀ u, s.ad.urgReq = some u → t.ad.conv = some { start := c.start + 125, entry := u, urgent := true } ∧ t.ad.urgReq = none) ∧
    (s.ad.urgReq = none → c.urgent = false → c.entry + 1 < s.get R.AD_CFG_COUNT → t.ad.conv = some { start := c.start + 125, entry := c.entry + 1, urgent := false }) ∧
    (s.ad.urgReq = none → c.urgent = true → s.ad.pass = none → s.get R.AD_CFG_MODE = 0 → t.ad.conv = none)) ∧
  (∀ (e : Fin 16) s, s.bit R.AD_SEQ_A_LIM_EN e.val = true → s.get R.AD_SEQ_A_LIM_N e.val ≤ Tab.get (fun _ => 0) s.ad.outRun e.val → s.bit R.AD_RES_STAT_OUT e.val = false →
    ∃ t, exec (.adLimit e) s = .next t ∧ t.bit R.AD_RES_STAT_OUT e.val = true ∧
      (t.posted.getLast?.map fun v => (v.code, v.sev, v.inst)) = some (Ev.adLimit, if s.get R.AD_SEQ_A_LIM_REACT e.val = 0 then Sev.notice else .fault, e.val) ∧
      (s.get R.AD_SEQ_A_LIM_REACT e.val = 0 → t.escs = s.escs) ∧
      (s.get R.AD_SEQ_A_LIM_REACT e.val = 1 → (t.escs.getLast?.map fun v => (v.fatal, v.mask, v.react)) = some (false, BitVec.ofNat 8 (s.get R.AD_SEQ_A_LIM_MASK e.val), .ss2)) ∧
      (s.get R.AD_SEQ_A_LIM_REACT e.val = 2 → (t.escs.getLast?.map fun v => (v.fatal, v.mask, v.react)) = some (false, BitVec.ofNat 8 (s.get R.AD_SEQ_A_LIM_MASK e.val), .ss1))) ∧
  (∀ (e : Fin 16) s, s.bit R.AD_SEQ_A_LIM_EN e.val = false ∨ Tab.get (fun _ => 0) s.ad.outRun e.val < s.get R.AD_SEQ_A_LIM_N e.val ∨ s.bit R.AD_RES_STAT_OUT e.val = true → exec (.adLimit e) s = .next s) ∧
  (∀ (e : Fin 16) s,
    (s.ad.urgReq ≠ none → ∃ t, exec (.adcUrgentRequest e) s = .next t ∧ t.ad = s.ad ∧ t.get R.AD_COUNT_URG_DROP = min (s.get R.AD_COUNT_URG_DROP + 1) R.AD_COUNT_URG_DROP.top) ∧
    (s.ad.urgReq = none → s.ad.conv = none → ∃ t, exec (.adcUrgentRequest e) s = .next t ∧ t.ad.conv = some { start := s.tick + 1, entry := e.val, urgent := true }) ∧
    (∀ c, s.ad.urgReq = none → s.ad.conv = some c → c.urgent = false → s.tick - c.start ≤ 62 → ∃ t, exec (.adcUrgentRequest e) s = .next t ∧ t.ad.conv = some { start := s.tick + 1, entry := e.val, urgent := true } ∧
      t.get R.AD_COUNT_ABORTS = min (s.get R.AD_COUNT_ABORTS + 1) R.AD_COUNT_ABORTS.top) ∧
    (∀ c, s.ad.urgReq = none → s.ad.conv = some c → c.urgent = true ∨ 62 < s.tick - c.start → ∃ t, exec (.adcUrgentRequest e) s = .next t ∧ t.ad.conv = some c ∧ t.ad.urgReq = some e.val)) ∧
  (∀ (e : Fin 16) s, ∃ t, exec (.adcResRead e) s = .next t ∧ t.readData = s.regs.word .ad (R.AD_RES.addr e.val) ∧
    Tab.get (fun _ => none) t.hiLatch (R.AD_RES_STAT_PASS.addr e.val) = some (s.regs.word .ad (R.AD_RES_STAT_PASS.addr e.val)))

/-- The safety inputs (R424 to R426), the readback, test and global release of the safe-torque-off pairs (R427 to R431) and the heartbeat
watchdog (R433), with no injection key loaded. -/
def Obligations.SafetyInputs : Prop :=
  (∀ (ch : Fin 12) level s, s.sioFiltered ch.val = false → exec (.safetyInputChange ch level) s = .next s) ∧
  (∀ (ch : Fin 12) level s, s.bit R.INJ_STAT_KEY_LOADED = false → s.sioFiltered ch.val = true → ∃ t, exec (.safetyInputChange ch level) s = .next t ∧ hasBit (t.get R.AD_SIO_STAT_LEVEL) ch.val = level ∧
    (level = false → t.sioDemand (ch.val / 2) = true) ∧
    (level = true → hasBit (s.get R.AD_SIO_STAT_LEVEL) (2 * (ch.val / 2) + (1 - ch.val % 2)) = true → s.sioDisc (ch.val / 2) = false → t.sioDemand (ch.val / 2) = false) ∧
    (level = false → ch.val / 2 = 0 → s.sioDemand 0 = false → s.get R.AD_SIO_CFG_ESTOP_CAT ≠ 2 → ∀ p, p < 10 → t.bit R.AD_STO_STAT_ASSERTED p = true) ∧
    (level = false → ch.val / 2 = 0 → s.sioDemand 0 = false → s.get R.AD_SIO_CFG_ESTOP_CAT = 2 → t.sio.estopAt = some s.tick ∧
      (t.escs.getLast?.map fun v => (v.fatal, v.mask, v.react, v.code)) = some (false, BitVec.ofNat 8 s.groupsInUse, .ss1, Ev.ioEstop)) ∧
    (level = false → ch.val / 2 = 1 → s.sioDemand 1 = false → s.bit R.AD_SIO_CFG_ENABLE_EN = true →
      (t.escs.getLast?.map fun v => (v.fatal, v.mask, v.react, v.code)) = some (false, BitVec.ofNat 8 (s.get R.AD_SIO_CFG_B_ENABLE_MASK), .ss2, Ev.ioEnable))) ∧
  (∀ (i : Fin 6) a s, s.bit R.INJ_STAT_KEY_LOADED = false → Tab.get (fun _ => none) s.sio.diffAt i.val = some a → a + 125000 * s.get R.AD_SIO_CFG_DISC_MS ≤ s.tick → s.sioDisc i.val = false →
    ∃ t, exec (.safetyDiscrepancy i) s = .next t ∧ t.sioDisc i.val = true ∧ t.sioDemand i.val = true) ∧
  (∀ (i : Fin 6) s, s.bit R.INJ_STAT_KEY_LOADED = false → s.sioDisc i.val = true ∨ Tab.get (fun _ => none) s.sio.diffAt i.val = none ∨
    (∃ (a : Nat), Tab.get (fun _ => none) s.sio.diffAt i.val = some a ∧ s.tick < a + 125000 * s.get R.AD_SIO_CFG_DISC_MS) → exec (.safetyDiscrepancy i) s = .next s) ∧
  (∀ (a : Nat) s, s.sio.estopAt = some a → a + 125000 * s.get R.AD_SIO_CFG_B_ESTOP_SS1_MS ≤ s.tick → ∃ t, exec .estopSs1Expiry s = .next t ∧ t.sio.estopAt = none ∧ ∀ p, p < 10 → t.bit R.AD_STO_STAT_ASSERTED p = true) ∧
  (∀ s, s.sio.estopAt = none ∨ (∃ (a : Nat), s.sio.estopAt = some a ∧ s.tick < a + 125000 * s.get R.AD_SIO_CFG_B_ESTOP_SS1_MS) → exec .estopSs1Expiry s = .next s) ∧
  (∀ (p : Fin 10) chB high s, s.bit R.INJ_STAT_KEY_LOADED = false →
    (s.fbQuiet p.val = true → exec (.stoReadbackMismatch p chB high) s = .next s) ∧
    (s.fbQuiet p.val = false → s.bit (if chB then R.AD_STO_STAT_DRIVE_B else R.AD_STO_STAT_DRIVE_A) p.val = high → ∃ t, exec (.stoReadbackMismatch p chB high) s = .next t ∧
      t.bit (if chB then R.AD_STO_STAT_FB_B else R.AD_STO_STAT_FB_A) p.val = high ∧ t.posted = s.posted ∧ t.escs = s.escs ∧ t.sio = s.sio) ∧
    (s.fbQuiet p.val = false → s.bit (if chB then R.AD_STO_STAT_DRIVE_B else R.AD_STO_STAT_DRIVE_A) p.val ≠ high → high = false → ∃ t, exec (.stoReadbackMismatch p chB high) s = .next t ∧ t.bit R.AD_STO_STAT_ASSERTED p.val = true ∧
      (t.posted.getLast?.map fun v => (v.code, v.sev, v.inst)) = some (Ev.ioStoFb, .fault, p.val) ∧ t.escs = s.escs) ∧
    (s.fbQuiet p.val = false → s.bit (if chB then R.AD_STO_STAT_DRIVE_B else R.AD_STO_STAT_DRIVE_A) p.val ≠ high → high = true → ∃ t, exec (.stoReadbackMismatch p chB high) s = .next t ∧ t.sio.fatalLatched = true ∧
      (t.posted[s.posted.length]?.map fun v => (v.code, v.sev, v.inst)) = some (Ev.ioStoFb, .fatal, p.val) ∧ ∀ q, q < 10 → t.bit R.AD_STO_STAT_ASSERTED q = true)) ∧
  (∀ (p : Fin 10) okA okB s, s.get R.AD_STO_TEST_TEST_US ≠ 0 → s.bit R.AD_STO_STAT_ASSERTED p.val = false →
    Tab.get (fun _ => 0) s.sio.testAt p.val + 125000000 * s.get R.AD_STO_TEST_TEST_S ≤ s.tick → ∃ t, exec (.stoTestPulse p okA okB) s = .next t ∧
      (okA = true → okB = true → Tab.get (fun _ => 0) t.sio.testAt p.val = s.tick ∧ t.regs = s.regs ∧ t.posted = s.posted) ∧
      (okA = false ∨ okB = false → t.sio.fatalLatched = true ∧ (t.posted[s.posted.length]?.map fun v => (v.code, v.sev, v.inst)) = some (Ev.ioStoFb, .fatal, p.val) ∧ ∀ q, q < 10 → t.bit R.AD_STO_STAT_ASSERTED q = true)) ∧
  (∀ (p : Fin 10) okA okB s, s.get R.AD_STO_TEST_TEST_US = 0 ∨ s.bit R.AD_STO_STAT_ASSERTED p.val = true ∨
    s.tick < Tab.get (fun _ => 0) s.sio.testAt p.val + 125000000 * s.get R.AD_STO_TEST_TEST_S → exec (.stoTestPulse p okA okB) s = .next s) ∧
  (∀ s, ∃ t, exec .globalRelease s = .next t ∧
    (s.pairHeld 8 = true ∨ s.pairHeld 9 = true → t.regs = s.regs ∧ (t.posted.getLast?.map fun v => (v.code, v.sev, v.body)) = some (Ev.sysWriteIgnored, .notice, [item 0xFFFF, item 0x1502C0])) ∧
    (s.pairHeld 8 = false → s.pairHeld 9 = false → (((maskList 9 (s.get R.AD_STO_STAT_CAUSE 8 ||| s.get R.AD_STO_STAT_CAUSE 9)).all fun i => (causeCodes i).all s.codeAcked) = true) →
      t.bit R.AD_STO_STAT_ASSERTED 8 = false ∧ t.bit R.AD_STO_STAT_ASSERTED 9 = false ∧ t.get R.AD_STO_STAT_CAUSE 8 = 0 ∧ t.get R.AD_STO_STAT_CAUSE 9 = 0 ∧
      t.bit R.AD_STO_STAT_DRIVE_A 8 = true ∧ t.bit R.AD_STO_STAT_DRIVE_B 9 = true)) ∧
  (∀ s, s.enabled = true → s.sio.missRun ≠ 0 → s.get R.AD_SIO_CFG_B_WD_CYC ≤ s.sio.missRun → ∃ t, exec .ioWdog s = .next t ∧ t.sio.missRun = 0 ∧ t.sio.fatalLatched = true ∧
    (t.escs.getLast?.map fun v => (v.fatal, v.mask, v.glob, v.code)) = some (true, 0xFF, true, Ev.ioWdog) ∧ ∀ p, p < 10 → t.bit R.AD_STO_STAT_ASSERTED p = true) ∧
  (∀ s, s.enabled = false ∨ s.sio.missRun = 0 ∨ s.sio.missRun < s.get R.AD_SIO_CFG_B_WD_CYC → exec .ioWdog s = .next s)

/-- Power, reset and start-up (R407, R434, R436, R442, R444 to R451): every source of a device reset asserts every pair, adds its cause and
takes place at once, or waits while the Orangery commits or a fatal escalation is open; from a reset the device comes up in the order of
R448. -/
def Obligations.ResetsAndStartUp : Prop :=
  (∀ s, ∃ t, exec .powerOn s = .next t ∧ t.get R.PW_RESET_CAUSE_CAUSE = 1 ∧ t.get R.AD_SIO_STAT_DEMAND = 0x3F ∧ t.pw.phase = .held ∧ t.posted = [] ∧ t.escs = [] ∧ t.hi.mem = s.hi.mem ∧
    t.sio.fatalLatched = false ∧ ∀ p, p < 10 → t.bit R.AD_STO_STAT_ASSERTED p = true) ∧
  (∀ c m s, (c = Instr.pinReset ∧ m = 0x02) ∨ (c = Instr.softReset 0xC0DE#16 ∧ m = 0x10 ∧ (s.cell = 0 ∨ s.sio.fatalLatched = true)) →
    (s.bb.commit = none → (s.escs.any fun e => e.fatal) = false → s.bit R.PW_SUPPLY_STAT_PFAIL = false → ∃ t, exec c s = .next t ∧ t.pw.phase = .held ∧ t.pw.resetReq = 0 ∧
      t.get R.PW_RESET_CAUSE_CAUSE = s.get R.PW_RESET_CAUSE_CAUSE ||| m ∧ t.bb.boots = min (s.bb.boots + 1) 0xFFFFFFFF ∧ (∀ v ∈ t.posted, v.code = Ev.bbWear) ∧ t.escs = [] ∧ t.hi.mem = (s.assertAll 8).hi.mem ∧ t.pending = s.pending ∧
      t.cell = 0 ∧ t.sio.fatalLatched = false ∧ ∀ p, p < 10 → t.bit R.AD_STO_STAT_ASSERTED p = true) ∧
    (s.bb.commit ≠ none ∨ (s.escs.any fun e => e.fatal) = true ∨ (s.bit R.PW_SUPPLY_STAT_PFAIL = true ∧ s.bb.snapDone = false) → ∃ t, exec c s = .next t ∧ t.pw.phase = s.pw.phase ∧
      t.pw.resetReq = s.pw.resetReq ||| m ∧ t.get R.PW_RESET_CAUSE_CAUSE = s.get R.PW_RESET_CAUSE_CAUSE ||| m ∧ t.bb = s.bb ∧ t.sio.wdogOut = false ∧ ∀ p, p < 10 → t.bit R.AD_STO_STAT_ASSERTED p = true)) ∧
  (∀ (key : BitVec 16) s, key ≠ 0xC0DE#16 ∨ (s.cell ≠ 0 ∧ s.sio.fatalLatched = false) → ∃ t, exec (.softReset key) s = .next t ∧ t.regs = s.regs ∧ t.pw = s.pw ∧
    (t.posted.getLast?.map fun v => (v.code, v.sev, v.body)) = some (Ev.sysWriteIgnored, .notice, [item 0xFFFF, item 0x160094])) ∧
  (∀ s, s.bit R.PW_SUPPLY_STAT_PFAIL = true → exec (.powerFailSignal .pin) s = .next s) ∧
  (∀ c s, s.bit R.PW_SUPPLY_STAT_PFAIL = false → ∃ t, exec (.powerFailSignal c) s = .next t ∧ t.bit R.PW_SUPPLY_STAT_PFAIL = true ∧ t.sio.fatalLatched = true ∧
    t.pw.resetReq = s.pw.resetReq ||| (if c = .pin then 0x08 else 0x0C) ∧ (t.posted[s.posted.length]?.map fun v => (v.code, v.sev)) = some (Ev.pwPowerFail, .fatal) ∧
    (t.escs.getLast?.map fun v => (v.fatal, v.mask, v.glob)) = some (true, 0xFF, true) ∧ ∀ p, p < 10 → t.bit R.AD_STO_STAT_ASSERTED p = true) ∧
  (∀ s, s.pw.phase = .held → s.pw.tempHold = false → s.pw.vddnv = true → s.pw.nvOsc = true → ∃ t, exec .resetRelease s = .next t ∧ t.pw.phase = .locking ∧ t.get R.PW_SUPPLY_STAT_GOOD = 0xFF ∧
    t.bit R.PW_SUPPLY_STAT_GOOD_VDDA = true ∧ t.bit R.PW_SUPPLY_STAT_VR_PGOOD = true) ∧
  (∀ s, s.pw.phase ≠ .held ∨ s.pw.tempHold = true ∨ s.pw.vddnv = false ∨ s.pw.nvOsc = false → exec .resetRelease s = .next s) ∧
  (∀ f s, s.pw.phase = .locking → s.bit R.INJ_STAT_KEY_LOADED = false → ∃ t, exec (.timeIslandLock f) s = .next t ∧ t.bit R.TB_REF_STATUS_LOCKED = true ∧
    (f.ok = true → t.pw.phase = .window ∧ t.pw.fuses = some f) ∧ (f.ok = false → t.pw.phase = .fuseStop ∧ t.pw.fuses = s.pw.fuses)) ∧
  (∀ f s, s.pw.phase ≠ .locking → exec (.timeIslandLock f) s = .next s) ∧
  (∀ s, (s.pw.phase = .clearing → ∃ t, exec .memoryClearComplete s = .next t ∧ t.pw.phase = .booting ∧ t.regs = s.regs ∧ t.gr = {}) ∧ (s.pw.phase ≠ .clearing → exec .memoryClearComplete s = .next s)) ∧
  (∀ a b ms s, s.bit R.INJ_STAT_KEY_LOADED = false → s.pw.phase = .booting ∨ (s.pw.phase = .running ∧ s.pw.mgmtUp = false) → ∃ t, exec (.secureBootComplete a b ms) s = .next t ∧ t.pw.phase = .running ∧
    t.get R.PW_BOOT_STAT_SLOT = (if a.valid = true ∧ (b.valid = false ∨ b.version ≤ a.version) then 0 else if b.valid = true then 1 else 3) ∧ t.pw.mgmtUp = (a.valid || b.valid) ∧ t.pw.slot0 = a ∧ t.pw.slot1 = b) ∧
  (∀ a b ms s, s.pw.phase ≠ .booting → s.pw.phase ≠ .running ∨ s.pw.mgmtUp = true → exec (.secureBootComplete a b ms) s = .next s) ∧
  (∀ s, ∃ t, exec .vddnvLoss s = .next t ∧ t.pw.phase = .noPower ∧ t.pw.vddnv = false ∧ t.sio.wdogOut = false ∧ t.bb.commit = none ∧ (s.bb.commit ≠ none → t.bb.cutShort = true) ∧
    ∀ p, p < 10 → t.bit R.AD_STO_STAT_ASSERTED p = true)

/-- The Sundial (R29, R31, R448), the arbiters (R36, R37), the supplies (R436, R439, R443), the islands (R452, R454), the management core's
watchdog (R455), the wedge-safe oscillator (R457, R459) and the junction temperature (R460, R461), with no injection key loaded. -/
def Obligations.PowerWatch : Prop :=
  (∀ pace mv s, s.sundialRuns = false → exec (.sundialWindowEnd pace mv) s = .next s) ∧
  (∀ pace mv s, s.bit R.INJ_STAT_KEY_LOADED = false → s.sundialRuns = true → ∃ t, exec (.sundialWindowEnd pace mv) s = .next t ∧
    (∀ r, r < 10 → t.get R.PW_PACE_PACE r = if s.regionOn r then pace.getD r 0 % 65536 else 0) ∧
    (s.pw.phase = .window → t.pw.phase = .clearing) ∧ (s.pw.phase ≠ .window → t.pw.phase = s.pw.phase) ∧
    (∀ r, r < 10 → s.regionOn r = true → pace.getD r 0 % 65536 < 0x107B → t.get R.PW_SUNDIAL_STAT_VID = 50) ∧
    (∀ r, r < 10 → s.regionOn r = true → pace.getD r 0 % 65536 < 0x1000 → s.get R.PW_SUNDIAL_STAT_PACE_STATE ≠ 2 → t.get R.PW_SUNDIAL_STAT_PACE_STATE = 2 ∧ t.sio.fatalLatched = true ∧
      (∃ v ∈ t.posted.drop s.posted.length, v.code = Ev.paceLost ∧ v.sev = .fatal) ∧ ∀ p, p < 10 → t.bit R.AD_STO_STAT_ASSERTED p = true)) ∧
  (∀ arbiter region reqs s, ∃ t, exec (.arbiterRound arbiter region reqs) s = .next t ∧ ∃ l : List ArbReq,
    l.Perm (Tab.get (fun _ => []) s.arb.waiting arbiter ++ (reqs.filter arbKnown).map fun q => { q with tag := min q.tag s.tick }) ∧
    (l.Pairwise fun a b => a.tag < b.tag ∨ (a.tag = b.tag ∧ (planeNum a.plane < planeNum b.plane ∨ (planeNum a.plane = planeNum b.plane ∧ (a.cls < b.cls ∨ (a.cls = b.cls ∧ a.idx ≤ b.idx)))))) ∧
    Tab.get (fun _ => []) t.arb.served arbiter = l.take (arbRoundMax arbiter) ∧ Tab.get (fun _ => []) t.arb.waiting arbiter = l.drop (arbRoundMax arbiter) ∧
    (∀ a, a ≠ arbiter → Tab.get (fun _ => []) t.arb.served a = Tab.get (fun _ => []) s.arb.served a ∧ Tab.get (fun _ => []) t.arb.waiting a = Tab.get (fun _ => []) s.arb.waiting a)) ∧
  (∀ (i : Fin 9) good s, ∃ t, exec (.pwSupply i good) s = .next t ∧ t.good i.val = good ∧
    (s.good i.val = true → good = false → (t.posted.getLast?.map fun v => (v.code, v.sev, v.inst)) = some (Ev.pwSupply, .fault, i.val) ∧
      (t.escs.getLast?.map fun v => (v.fatal, v.mask, v.react)) = some (false, BitVec.ofNat 8 s.groupsInUse, .ss1)) ∧
    (s.good i.val = false ∨ good = true → t.posted = s.posted ∧ t.escs = s.escs)) ∧
  (∀ pgood out s, s.bit R.INJ_STAT_KEY_LOADED = false → ∃ t, exec (.pwVr pgood out) s = .next t ∧ t.bit R.PW_SUPPLY_STAT_VR_PGOOD = pgood ∧
    (pgood = true → out = false → t.posted = s.posted ∧ t.pw = s.pw) ∧
    (pgood = false ∨ out = true → s.bit R.PW_SUPPLY_STAT_PFAIL = false → t.get R.PW_SUNDIAL_STAT_VID = 50 ∧ t.pw.paceStop = (if s.enabled then s.pw.paceStop ++ [(Ev.pwVr, s.get R.PW_SUNDIAL_STAT_MIN_REGION)] else s.pw.paceStop) ∧
      (t.posted.getLast?.map fun v => (v.code, v.sev)) = some (Ev.pwVr, .fault) ∧ (t.escs.getLast?.map fun v => (v.fatal, v.mask, v.react)) = some (false, 0xFF, .pace))) ∧
  (∀ s, ∃ t, exec .holdupOkSet s = .next t ∧ (s.get R.PW_HOLDUP_CFG_VTH_MV ≠ 0 → (∀ a, s.pw.lowAt = some a → a + 12500000 ≤ s.tick) → t.bit R.BB_STAT_HOLDUP_OK = true) ∧
    (s.get R.PW_HOLDUP_CFG_VTH_MV = 0 ∨ (∃ a, s.pw.lowAt = some a ∧ s.tick < a + 12500000) → t = s)) ∧
  (∀ s, s.bit R.INJ_STAT_KEY_LOADED = false → ∃ t, exec .pwHoldupLow s = .next t ∧ t.bit R.BB_STAT_HOLDUP_OK = false ∧ t.pw.lowAt = some s.tick ∧
    (s.bit R.BB_STAT_HOLDUP_OK = true → s.enabled = true → (t.posted.getLast?.map fun v => (v.code, v.sev)) = some (Ev.pwHoldupLow, .fault)) ∧
    (s.bit R.BB_STAT_HOLDUP_OK = false ∨ s.enabled = false → t.posted = s.posted)) ∧
  (∀ i s, (s.islandOn i = true → s.islandWanted i = false → ∃ t, exec (.islandPowerOff i) s = .next t ∧ t.islandOn i = false ∧ ∀ n, i = .tiller n → t.til n.val = {}) ∧
    (s.islandOn i = false ∨ s.islandWanted i = true → exec (.islandPowerOff i) s = .next s) ∧
    (s.islandOn i = false → s.islandWanted i = true → ∃ t, exec (.islandPowerOn i) s = .next t ∧ t.islandOn i = true ∧ ∀ n, i = .tiller n → t.til n.val = {}) ∧
    (s.islandOn i = true ∨ s.islandWanted i = false → exec (.islandPowerOn i) s = .next s) ∧
    (s.bit R.INJ_STAT_KEY_LOADED = false → s.islandOn i = true → s.islandWanted i = false → s.pdTimeout i = true → ∃ t, exec (.pwIslandForced i) s = .next t ∧ t.islandOn i = false ∧
      ((∀ n, i ≠ .tiller n) → (t.posted.getLast?.map fun v => (v.code, v.sev, v.body)) = some (Ev.pwIslandForced, .fault, [item 0xFFFF, item (islandCode i)]))) ∧
    (s.bit R.INJ_STAT_KEY_LOADED = false → s.islandOn i = false ∨ s.islandWanted i = true ∨ s.pdTimeout i = false → exec (.pwIslandForced i) s = .next s)) ∧
  (∀ (r : Fin 3) val s, (s.locked = true → ∃ t, exec (.forceOffWrite r val) s = .next t ∧ t.regs = s.regs ∧ (t.posted.getLast?.map fun v => (v.code, v.sev)) = some (Ev.sysWriteIgnored, .notice)) ∧
    (s.locked = false → ∃ t, exec (.forceOffWrite r val) s = .next t ∧ (r.val = 0 → t.get R.PW_FORCE_OFF_A = val.toNat) ∧ (r.val = 1 → t.get R.PW_FORCE_OFF_B = val.toNat))) ∧
  (∀ s, s.bit R.INJ_STAT_KEY_LOADED = false → (s.pw.mgmtUp = false ∨ s.tick < s.pw.mgmtAt + 125000 * s.get R.PW_MGMT_WD_MS → exec .pwMgmtWdog s = .next s) ∧
    (s.pw.mgmtUp = true → s.pw.mgmtAt + 125000 * s.get R.PW_MGMT_WD_MS ≤ s.tick → ∃ t, exec .pwMgmtWdog s = .next t ∧ t.pw.mgmtUp = false ∧ t.pw.responder = true ∧ t.get R.PW_MGMT_WD_EXPIRIES = min (s.get R.PW_MGMT_WD_EXPIRIES + 1) R.PW_MGMT_WD_EXPIRIES.top)) ∧
  (∀ s, (s.bit R.TB_REF_STATUS_LOCKED = false → exec .pwNvosc s = .next s) ∧ (s.bit R.TB_REF_STATUS_LOCKED = true → ∃ t, exec .pwNvosc s = .next t ∧ t.sio.fatalLatched = true ∧
    t.pw.resetReq = s.pw.resetReq ||| 0x40 ∧ (t.posted[s.posted.length]?.map fun v => (v.code, v.sev)) = some (Ev.pwNvosc, .fatal) ∧ ∀ p, p < 10 → t.bit R.AD_STO_STAT_ASSERTED p = true)) ∧
  (∀ s, ∃ t, exec .nvOscStop s = .next t ∧ t.pw.nvOsc = false ∧ t.sio.wdogOut = false ∧ ∀ p, p < 10 → t.bit R.AD_STO_STAT_ASSERTED p = true ∧ t.get R.AD_STO_STAT_CAUSE p = s.get R.AD_STO_STAT_CAUSE p) ∧
  (∀ tj s, s.bit R.INJ_STAT_KEY_LOADED = false → 500 ≤ tj → s.pw.fatalHot = false → ∃ t, exec (.tempReading tj) s = .next t ∧ t.pw.fatalHot = true ∧ t.pw.tempHold = true ∧ t.sio.fatalLatched = true ∧
    t.pw.resetReq = s.pw.resetReq ||| 0x20 ∧ (∃ v ∈ t.posted.drop s.posted.length, v.code = Ev.pwTemp ∧ v.sev = .fatal) ∧ ∀ p, p < 10 → t.bit R.AD_STO_STAT_ASSERTED p = true) ∧
  (∀ tj s, s.bit R.INJ_STAT_KEY_LOADED = false → tj < 400 → ∃ t, exec (.tempReading tj) s = .next t ∧ t.pw.tempHold = false ∧ t.pw.hot = false ∧ t.pw.fatalHot = false ∧ t.pw.hotRun = 0 ∧ t.get R.PW_TEMP_TJ = (tj % 2 ^ 16).toNat)

/-- Every cell, cycle and time-base command completes, and changes nothing but the parts and register fields its clause names. -/
def Obligations.FrameCell : Prop :=
  (∀ upset hit s, ∃ t, exec (.timeBaseTick upset hit) s = .next t ∧ t.pending = s.pending ∧ t.free = s.free ∧ t.readData
      = s.readData) ∧
    (Touches .cycleBoundary [.frozen, .posted, .escs, .grid, .once, .cb, .fb, .tl, .grp, .mp, .sv, .sep, .sch, .me, .hi,
      .gr, .tw, .ev, .bb, .inj, .sio, .free, .flips] (completionFields ++ injectionFields ++ stoFields ++ axisFields ++
      residueFields ++ solveFields ++ [R.CB_TX_FRAMES, R.CB_MACSEC_STATUS_TX_AN, R.CB_MACSEC_STATUS_RX_AN_VALID,
      R.CB_MACSEC_STATUS_TX_SA_VALID, R.CB_MACSEC_STATUS_PN_HIGH, R.CB_MACSEC_STATUS_PN_EXHAUSTED, R.CB_TX_PN,
      R.CB_CYCLE_NOW, R.CB_SLOT_ARR_TICK, R.CB_SLOT_ARR_CLASS, R.CB_SLOT_ARR_DEV, R.CB_SLOT_STAT_FRESH_HELD,
      R.CB_SLOT_STAT_MISSING, R.CB_SLOT_STAT_MISS_RUN, R.EO_CFG_LOST, R.EO_STAT_OVERRUN, R.EO_STAT_BACKLOG,
      R.TL_STAT_PL_STALE, R.TL_COUNT_ECC_CORR, R.TL_COUNT_PL_LATE, R.TL_GAIN_REGION_REGION, R.TL_GAIN_REGION_SWITCHES,
      R.TL_JSTAT_CAUSE, R.TL_JSTAT_XFER_LAST, R.TL_JCOUNT_XFER_COUNT, R.SV_COUNT_ECC_CORR, R.SCH_COUNT_DEADLINE_MISS,
      R.SCH_COUNT_RELEASE_DROP, R.SCH_COUNT_ECC_CORR, R.SCH_TASK_A_RELEASE, R.SCH_TASK_A_CLASS, R.SCH_TASK_A_TARGET,
      R.SCH_TASK_A_FLOW, R.SCH_TASK_A_FLOW_EN, R.SCH_TASK_A_LIST, R.SCH_TASK_B_BUDGET_NS, R.SCH_TASK_C_DEADLINE_NS,
      R.SCH_TASK_D_PERIOD_US, R.SCH_TASK_D_PHASE_US, R.SCH_TASK_E_RESP_LAST, R.SCH_TASK_E_RESP_MAX, R.SCH_TASK_F_MISSES,
      R.SCH_TASK_F_DROPS, R.ME_STATE_STATE, R.ME_STATE_COND, R.ME_STATE_IADDR, R.ME_COUNT_PASS_LATE, R.ME_ECC_ECC_CORR,
      R.ME_PROG, R.TW_STATE_STATE, R.TW_STATE_LAST_CAUSE, R.TW_STATE_PATH_OK, R.TW_LEASE_STAT_SINCE_RENEW,
      R.TW_LEASE_STAT_PATHS, R.TW_COUNT_A_DIGEST_MISMATCH, R.TW_COUNT_A_DIGEST_MISSING, R.TW_COUNT_A_ECHO_LOST,
      R.TW_COUNT_B_SUPERSEDED, R.TW_COUNT_B_CMD_ECHO, R.EV_STAT_USED_KIB, R.EV_STAT_FATAL_KIB, R.EV_STAT_HOLD_USED,
      R.EV_SEQ_FIRST, R.EV_SEQ_LAST, R.EV_DROPS_B_ECC_CORR, R.BB_COUNT_ECC_CORR, R.AD_WDOG_STAT_RUNNING,
      R.AD_WDOG_STAT_MISSES])) ∧
    (Touches .solverPeriodBoundary [.posted, .grid, .cb, .sv, .sep, .gr, .tw, .bb, .inj, .sio] (injectionFields ++
      [R.CB_TX_FRAMES, R.CB_MACSEC_STATUS_TX_AN, R.CB_MACSEC_STATUS_RX_AN_VALID, R.CB_MACSEC_STATUS_TX_SA_VALID,
      R.CB_MACSEC_STATUS_PN_HIGH, R.CB_MACSEC_STATUS_PN_EXHAUSTED, R.CB_TX_PN, R.SEP_CFG_EN, R.SEP_ARM_STAT_A,
      R.SEP_ARM_STAT_B, R.SEP_ARM_STAT_C_KMAX, R.SEP_ARM_STAT_C_OBSTACLE, R.SEP_ARM_STAT_C_DECISION,
      R.SEP_ARM_STAT_C_CATEGORY, R.SEP_ARM_STAT_C_TABLE_RANGE, R.SEP_ARM_STAT_C_ZONE, R.SEP_ARM_STAT_D,
      R.BB_STAT_PT_SKIPS])) ∧
    (Touches .windowBoundary [.posted, .grid, .once, .cb, .ev, .inj] ([R.CB_PS_WIN_EDGE_WIN])) ∧
    (Touches .tbRefLoss [.posted, .escs, .inj, .pw] (injectionFields ++ [R.TB_REF_STATUS_LOCKED, R.TB_REF_STATUS_HOLDOVER,
      R.TB_REF_STATUS_LOSS_COUNT])) ∧
    (Touches .tbUnlock [.posted, .escs, .inj, .pw] (injectionFields ++ [R.TB_REF_STATUS_LOCKED])) ∧
    (Touches .refRelock [.tb] ([R.TB_REF_STATUS_LOCKED, R.TB_REF_STATUS_HOLDOVER])) ∧
    (∀ src, Touches (.stepAbsolute src) [.tb] ([R.TB_STEP_CTRL_MODE])) ∧
    (∀ src, Touches (.stepRelative src) [.tb] ([R.TB_STEP_CTRL_MODE])) ∧
    (Touches .stepPtp [.tb] ([R.TB_STEP_CTRL_MODE])) ∧
    (Touches .stepApply [.posted, .tb, .hi, .view] (completionFields ++ [R.TB_CORR_STATUS_STEPPED, R.TB_TRG_CTRL_ARM,
      R.TB_TRG_STATUS_CANCELLED])) ∧
    (∀ src frac, Touches (.fracWrite src frac) [.tb] ([])) ∧
    (Touches .fracApply [.tb] ([R.TB_ADDEND_FRAC])) ∧
    (∀ ch src rising, Touches (.captureEdge ch src rising) [.posted, .tb, .inj] (injectionFields ++ [R.TB_CAP_NS_NS,
      R.TB_CAP_NS_VALID, R.TB_CAP_STATUS_COUNT, R.TB_CAP_STATUS_OVERRUN])) ∧
    (∀ ch, Touches (.capRead ch) [.posted, .tb, .inj, .readData, .hiLatch] (injectionFields ++ [R.TB_CAP_NS_NS,
      R.TB_CAP_NS_VALID, R.TB_CAP_SEC_LO, R.TB_CAP_SEC_HI_SEC_HI, R.TB_CAP_STATUS_COUNT, R.TB_CAP_STATUS_OVERRUN])) ∧
    (∀ reg, Touches (.tbNsRead reg) [.readData, .hiLatch] ([R.TB_NOW_NS_NS, R.TB_NOW_SEC_LO, R.TB_NOW_SEC_HI_SEC_HI])) ∧
    (∀ ch action target, Touches (.triggerArm ch action target) [.posted, .tb, .inj, .view] (injectionFields ++
      [R.TB_TRG_CTRL_ARM, R.TB_TRG_CTRL_ACTION, R.TB_TRG_CTRL_TARGET, R.TB_TRG_STATUS_LATE])) ∧
    (Touches .ppsOutRise [.tb] ([])) ∧
    (Touches .ppsOutFall [.tb] ([])) ∧
    (∀ m, Touches (.ptpMessageRx m) [.posted, .tb, .inj, .free] (injectionFields ++ [R.TB_PTP_STATE_PORT_STATE,
      R.TB_PTP_STATE_LOCK, R.TB_PTP_STATE_DOMAIN, R.TB_PTP_OFFSET])) ∧
    (∀ kind, Touches (.ptpMessageTx kind) [.tb] ([])) ∧
    (∀ portState, Touches (.ptpMasterLost portState) [.posted, .tb, .inj] (injectionFields ++ [R.TB_PTP_STATE_PORT_STATE,
      R.TB_PTP_STATE_LOCK])) ∧
    (Touches .cellEnable [.posted, .hi] ([R.SYS_CELL_CTRL_EN, R.SYS_CELL_STATUS_STATE, R.SCH_UNIT_STAT_RES_UTIL,
      R.SCH_DBF_STAT_WORST_LOCUS, R.SCH_DBF_STAT_WORST_SLACK, R.SCH_DBF_FAIL, R.TW_OWN_DIGEST])) ∧
    (∀ us, Touches (.enableCheckEnd us) [.posted, .grid, .cb, .fb, .tl, .grp, .mp, .sv, .sep, .sch, .me, .hi, .gr, .tw,
      .sio] (completionFields ++ axisFields ++ [R.SYS_CELL_CTRL_EN, R.SYS_CELL_STATUS_STATE, R.SYS_CELL_STATUS_REASON,
      R.SYS_CELL_STATUS_LOCUS, R.SYS_CHECK_STAT_LAST_US, R.SYS_CHECK_STAT_CHECKS, R.CB_PT_STATE_STATE,
      R.CB_PT_STATE_QCAUSE, R.CB_CYCLE_NS, R.CB_EPOCH_NS_NS, R.CB_EPOCH_SEC_LO, R.CB_EPOCH_SEC_HI_SEC, R.CB_CYCLE_NOW,
      R.FB_POS_LO, R.FB_POS_HI, R.FB_VEL_LO, R.FB_VEL_HI, R.FB_ACC_LO, R.FB_ACC_HI, R.FB_QUAL_STATE, R.FB_QUAL_FRESH,
      R.FB_QUAL_PREDICTED, R.FB_QUAL_EDGE_TIMED, R.FB_QUAL_UNVERIFIED, R.FB_QUAL_SAT, R.FB_QUAL_INDEX, R.FB_QUAL_COMPAT,
      R.FB_QUAL_INVALID_RUN, R.FB_QUAL_EDGES, R.TL_BUDGET_B_NS, R.TL_BUDGET_INSN_COUNT, R.TL_STAT_STATE,
      R.TL_GAIN_REGION_REGION, R.TL_GAIN_REGION_SELECTED, R.TL_GAIN_REGION_BAND0, R.TL_GAIN_REGION_BAND1,
      R.TL_JSTAT_JSTATE, R.TL_SAT_ACC, R.SV_DIM_NJ, R.SV_DIM_N, R.SV_DIM_M, R.SV_DIM_V, R.SV_BUDGET, R.SV_SCRATCH_WORDS,
      R.SCH_LIST_STAT_OCCUPANCY, R.SCH_LIST_STAT_MAX, R.ME_STATE_STATE, R.ME_STATE_COND, R.ME_STATE_IADDR,
      R.ME_STATE_ARM_MASK, R.TW_STATE_STATE, R.TW_STATE_PATH_OK])) ∧
    (Touches .cellDisable [.posted, .grp, .mp, .hi, .free] (completionFields ++ axisFields ++ [R.SYS_CELL_CTRL_EN,
      R.SYS_CELL_STATUS_STATE, R.SYS_CELL_STATUS_REASON, R.SYS_CELL_STATUS_LOCUS, R.SYS_CHECK_STAT_LAST_US,
      R.SYS_CHECK_STAT_CHECKS])) ∧
    (Touches .disableComplete [.posted, .grid, .once, .cb, .tl, .grp, .mp, .sch, .me, .hi, .gr, .tw, .ev, .inj]
      (completionFields ++ axisFields ++ residueFields ++ [R.SYS_CELL_CTRL_EN, R.SYS_CELL_STATUS_STATE,
      R.TB_CORR_STATUS_STEPPED, R.TB_CORR_STATUS_STEP_ARMED, R.CB_PT_STATE_STATE, R.CB_PT_STATE_QCAUSE,
      R.CB_PS_SYNC_SYNC_MODE, R.CB_PS_WIN_EDGE_WIN, R.TL_JSTAT_JSTATE, R.TL_SAT_ACC, R.SCH_LIST_STAT_OCCUPANCY,
      R.SCH_LIST_STAT_MAX, R.ME_STATE_STATE, R.TW_STATE_STATE, R.TW_LEASE_STAT_SINCE_RENEW])) ∧
    (Touches .disableTimeout [.posted, .grid, .once, .cb, .tl, .grp, .mp, .sep, .sch, .me, .hi, .gr, .tw, .ev, .inj, .sio]
      (completionFields ++ stoFields ++ axisFields ++ residueFields ++ [R.SYS_CELL_CTRL_EN, R.SYS_CELL_STATUS_STATE,
      R.TB_CORR_STATUS_STEPPED, R.TB_CORR_STATUS_STEP_ARMED, R.CB_PT_STATE_STATE, R.CB_PT_STATE_QCAUSE,
      R.CB_PS_SYNC_SYNC_MODE, R.CB_PS_WIN_EDGE_WIN, R.SCH_LIST_STAT_OCCUPANCY, R.SCH_LIST_STAT_MAX, R.ME_STATE_STATE,
      R.TW_STATE_STATE, R.TW_LEASE_STAT_SINCE_RENEW])) ∧
    (Touches .wedgeSafeBoundary [.posted, .inj, .sio] (injectionFields ++ [R.TW_LEASE_STAT_SINCE_RENEW,
      R.AD_WDOG_STAT_RUNNING, R.AD_WDOG_STAT_MISSES]))

/-- Every cell-bus command completes, and changes nothing but the parts and register fields its clause names. -/
def Obligations.FrameCellBus : Prop :=
  (∀ p, Touches (.linkUp p) [.cb] ([R.CB_LINK_STATE_STATE, R.TW_LINK_STATE_STATE])) ∧
    (∀ p, Touches (.linkDown p) [.posted, .cb, .hi, .tw, .inj] (completionFields ++ injectionFields ++
      [R.CB_LINK_STATE_STATE, R.CB_ERR_G_LINK_DOWN, R.CB_PT_STATE_STATE, R.TW_STATE_STATE, R.TW_STATE_LAST_CAUSE,
      R.TW_LINK_STATE_STATE])) ∧
    (∀ p, Touches (.trainingTimeout p) [.cb] ([R.CB_LINK_STATE_STATE, R.TW_LINK_STATE_STATE])) ∧
    (∀ p, Touches (.trainingRetry p) [.posted, .cb, .hi, .tw, .inj] (completionFields ++ injectionFields ++
      [R.CB_LINK_STATE_STATE, R.CB_ERR_G_LINK_DOWN, R.CB_PT_STATE_STATE, R.TW_STATE_STATE, R.TW_STATE_LAST_CAUSE,
      R.TW_LINK_STATE_STATE])) ∧
    (∀ p, Touches (.linkRetrain p) [.posted, .cb, .hi, .tw, .inj] (completionFields ++ injectionFields ++
      [R.CB_LINK_STATE_STATE, R.CB_ERR_G_LINK_DOWN, R.CB_PT_STATE_STATE, R.TW_STATE_STATE, R.TW_STATE_LAST_CAUSE,
      R.TW_LINK_STATE_STATE])) ∧
    (∀ f, Touches (.cyclicFrameRx f) [.posted, .escs, .once, .cb, .fb, .hi, .tw, .bb, .inj] (completionFields ++
      injectionFields ++ macsecFields ++ receiveFields)) ∧
    (∀ p, Touches (.cbDrift p) [.posted, .once, .inj] (injectionFields)) ∧
    (∀ p, Touches (.quarantine p) [.posted, .escs, .cb, .fb] ([R.CB_PT_STATE_STATE, R.CB_PT_STATE_QCAUSE,
      R.MP_STAT_HOMED])) ∧
    (∀ f, Touches (.acyclicFrameRx f) [.posted, .escs, .once, .cb, .fb, .hi, .tw, .bb, .inj] (completionFields ++
      injectionFields ++ macsecFields ++ receiveFields)) ∧
    (∀ f, Touches (.referenceFrameRx f) [.posted, .escs, .once, .cb, .fb, .hi, .tw, .bb, .inj] (completionFields ++
      injectionFields ++ macsecFields ++ receiveFields)) ∧
    (∀ f, Touches (.delayResponseRx f) [.posted, .escs, .once, .cb, .fb, .hi, .tw, .bb, .inj] (completionFields ++
      injectionFields ++ macsecFields ++ receiveFields)) ∧
    (∀ f, Touches (.joinAnnounceRx f) [.posted, .escs, .once, .cb, .fb, .hi, .tw, .bb, .inj] (completionFields ++
      injectionFields ++ macsecFields ++ receiveFields)) ∧
    (∀ f, Touches (.joinValidRx f) [.posted, .escs, .once, .cb, .fb, .hi, .tw, .bb, .inj] (completionFields ++
      injectionFields ++ macsecFields ++ receiveFields)) ∧
    (∀ f, Touches (.twinFrameRx f) [.posted, .escs, .once, .cb, .fb, .hi, .tw, .bb, .inj] (completionFields ++
      injectionFields ++ macsecFields ++ receiveFields)) ∧
    (∀ f, Touches (.echoFrameRx f) [.posted, .escs, .once, .cb, .fb, .hi, .tw, .bb, .inj] (completionFields ++
      injectionFields ++ macsecFields ++ receiveFields)) ∧
    (∀ p, Touches (.macsecChangeover p) [.cb] ([R.CB_MACSEC_STATUS_TX_AN, R.CB_MACSEC_STATUS_RX_AN_VALID,
      R.CB_MACSEC_STATUS_TX_SA_VALID, R.CB_MACSEC_STATUS_PN_HIGH, R.CB_MACSEC_STATUS_PN_EXHAUSTED])) ∧
    (∀ p, Touches (.rxSaRetire p) [.cb] ([R.CB_MACSEC_STATUS_TX_AN, R.CB_MACSEC_STATUS_RX_AN_VALID,
      R.CB_MACSEC_STATUS_TX_SA_VALID, R.CB_MACSEC_STATUS_PN_HIGH, R.CB_MACSEC_STATUS_PN_EXHAUSTED])) ∧
    (∀ sl, Touches (.slotLaunch sl) [.posted, .escs, .cb, .inj] (injectionFields ++ [R.CB_TX_FRAMES,
      R.CB_MACSEC_STATUS_TX_AN, R.CB_MACSEC_STATUS_RX_AN_VALID, R.CB_MACSEC_STATUS_TX_SA_VALID, R.CB_MACSEC_STATUS_PN_HIGH,
      R.CB_MACSEC_STATUS_PN_EXHAUSTED, R.CB_TX_PN, R.CB_PS_MISS_TX_LATE])) ∧
    (∀ p, Touches (.acyclicLaunch p) [.posted, .cb, .hi, .inj] (completionFields ++ injectionFields ++ [R.CB_TX_FRAMES,
      R.CB_MACSEC_STATUS_TX_AN, R.CB_MACSEC_STATUS_RX_AN_VALID, R.CB_MACSEC_STATUS_TX_SA_VALID, R.CB_MACSEC_STATUS_PN_HIGH,
      R.CB_MACSEC_STATUS_PN_EXHAUSTED, R.CB_TX_PN])) ∧
    (∀ p, Touches (.acycWindowEnd p) [.cb] ([])) ∧
    (∀ p, Touches (.referenceLaunch p) [.posted, .cb, .inj] (injectionFields ++ [R.CB_TX_FRAMES, R.CB_MACSEC_STATUS_TX_AN,
      R.CB_MACSEC_STATUS_RX_AN_VALID, R.CB_MACSEC_STATUS_TX_SA_VALID, R.CB_MACSEC_STATUS_PN_HIGH,
      R.CB_MACSEC_STATUS_PN_EXHAUSTED, R.CB_TX_PN])) ∧
    (∀ p, Touches (.partnerActivate p) [.cb] ([R.CB_PT_STATE_STATE])) ∧
    (∀ p, Touches (.cbJoinTimeout p) [.posted, .cb, .inj] (injectionFields)) ∧
    (∀ sl, Touches (.slotMissing sl) [.posted, .once, .cb, .inj] (injectionFields ++ [R.CB_PS_WIN_MISS_RUN,
      R.CB_PS_MISS_MISSING])) ∧
    (∀ sl, Touches (.slotSelect sl) [] ([R.CB_SLOT_SEL_SLOT])) ∧
    (∀ d, Touches (.macsecKey d) [.posted, .once, .cb, .hi] (completionFields ++ [R.CB_MACSEC_STATUS_TX_AN,
      R.CB_MACSEC_STATUS_RX_AN_VALID, R.CB_MACSEC_STATUS_TX_SA_VALID, R.CB_MACSEC_STATUS_PN_HIGH,
      R.CB_MACSEC_STATUS_PN_EXHAUSTED, R.CB_MACSEC_STATUS_KEY_SEQ])) ∧
    (∀ d, Touches (.macsecKek d) [.posted, .once, .cb, .hi] (completionFields)) ∧
    (∀ d, Touches (.partnerRelease d) [.posted, .once, .cb, .hi, .tw] (completionFields ++ [R.CB_PT_STATE_STATE,
      R.CB_PT_STATE_QCAUSE, R.CB_PT_COUNT_OWN_VIOL, R.CB_PT_COUNT_POLICE_DROP, R.CB_PS_SYNC_SYNC_MODE,
      R.CB_PS_WIN_MISS_RUN])) ∧
    (∀ d, Touches (.partnerQuarantine d) [.posted, .escs, .once, .cb, .fb, .hi, .tw] (completionFields ++
      [R.CB_PT_STATE_STATE, R.CB_PT_STATE_QCAUSE, R.MP_STAT_HOMED])) ∧
    (∀ d payload, Touches (.acyclicSend d payload) [.posted, .once, .cb, .hi, .tw] (completionFields)) ∧
    (∀ d, Touches (.acyclicRecv d) [.posted, .once, .cb, .hi] (completionFields)) ∧
    (∀ p q, Touches (.upConditionsChange p q) [.posted, .cb, .hi, .tw, .inj] (completionFields ++ injectionFields ++
      [R.CB_LINK_STATE_STATE, R.CB_LINK_STATE_MOD_PRESENT, R.CB_LINK_STATE_LOS, R.CB_LINK_STATE_TX_FAULT,
      R.CB_LINK_STATE_BLOCK_LOCK, R.CB_LINK_STATE_HI_BER, R.CB_ERR_G_LINK_DOWN, R.CB_PT_STATE_STATE, R.TW_STATE_STATE,
      R.TW_STATE_LAST_CAUSE, R.TW_LINK_STATE_STATE, R.TW_LINK_STATE_MOD_PRESENT, R.TW_LINK_STATE_LOS,
      R.TW_LINK_STATE_TX_FAULT, R.TW_LINK_STATE_BLOCK_LOCK, R.TW_LINK_STATE_HI_BER])) ∧
    (∀ p f, Touches (.localRemoteFault p f) [.posted, .cb, .hi, .tw, .inj] (completionFields ++ injectionFields ++
      [R.CB_LINK_STATE_STATE, R.CB_ERR_G_LINK_DOWN, R.CB_PT_STATE_STATE, R.TW_STATE_STATE, R.TW_STATE_LAST_CAUSE,
      R.TW_LINK_STATE_STATE]))

/-- Every feedback, Tiller and joint-control command completes, and changes nothing but the parts and register fields its clause names. -/
def Obligations.FrameJoints : Prop :=
  (∀ m, Touches (.dpSample m) [.fb] ([])) ∧
    (∀ m a b, Touches (.dpEdge m a b) [.posted, .fb, .inj] (injectionFields ++ [R.DP_STAT_QUAD_ERR, R.DP_COUNT,
      R.MP_STAT_HOMED])) ∧
    (∀ m uvw, Touches (.hallEdge m uvw) [.posted, .fb, .inj] (injectionFields ++ [R.DP_STAT_HALL_ERR, R.DP_COUNT,
      R.MP_STAT_HOMED])) ∧
    (∀ m, Touches (.indexEvent m) [.posted, .escs, .fb, .mp, .hi, .inj] (completionFields ++ injectionFields ++
      [R.FB_IDX_STAT_LAST_DEV, R.FB_IDX_STAT_LAST_OUT, R.FB_ERR_INDEX_ERR, R.MP_STAT_STATE, R.MP_STAT_HOMED,
      R.MP_STAT_QUEUE, R.MP_STAT_CAUSE, R.MP_COUNT_ABORTS])) ∧
    (∀ m, Touches (.ssiFrameStart m) [.posted, .tb, .fb, .inj] (injectionFields ++ [R.TB_CAP_NS_NS, R.TB_CAP_NS_VALID,
      R.TB_CAP_STATUS_COUNT, R.TB_CAP_STATUS_OVERRUN])) ∧
    (∀ m, Touches (.ssiFrameEnd m) [.posted, .fb, .inj] (injectionFields ++ [R.DP_STAT_SSI_ERR])) ∧
    (∀ n, Touches (.feedbackUpdate n) [.posted, .once, .fb, .tl, .sch, .inj] (injectionFields ++ [R.FB_POS_LO, R.FB_POS_HI,
      R.FB_VEL_LO, R.FB_VEL_HI, R.FB_ACC_LO, R.FB_ACC_HI, R.FB_QUAL_STATE, R.FB_QUAL_FRESH, R.FB_QUAL_PREDICTED,
      R.FB_QUAL_EDGE_TIMED, R.FB_QUAL_UNVERIFIED, R.FB_QUAL_SAT, R.FB_QUAL_INDEX, R.FB_QUAL_COMPAT, R.FB_QUAL_INVALID_RUN,
      R.FB_QUAL_EDGES, R.FB_ERR_INVALID, R.FB_ERR_POS_JUMP, R.MP_STAT_HOMED, R.SCH_COUNT_RELEASE_DROP, R.SCH_TASK_F_DROPS,
      R.ME_COUNT_HELD])) ∧
    (∀ n, Touches (.fbLost n) [.posted, .escs, .fb] ([R.MP_STAT_HOMED])) ∧
    (∀ n, Touches (.fbStandstill n) [.fb] ([])) ∧
    (∀ k, Touches (.eoEnable k) [.fb] ([R.EO_CFG_EN, R.EO_CFG_LOST, R.EO_STAT_BACKLOG])) ∧
    (∀ tl lanes cond xa yq, Instr.wf (.mpy4 tl lanes cond xa yq) = true → Touches (.mpy4 tl lanes cond xa yq) [.posted,
      .escs, .once, .tl, .inj, .view] (injectionFields ++ [R.TL_STAT_ACC_OVF, R.TL_COUNT_ECC_CORR])) ∧
    (∀ tl lanes cond xa yq, Instr.wf (.mac4 tl lanes cond xa yq) = true → Touches (.mac4 tl lanes cond xa yq) [.posted,
      .escs, .once, .tl, .inj, .view] (injectionFields ++ [R.TL_STAT_ACC_OVF, R.TL_COUNT_ECC_CORR])) ∧
    (∀ tl lanes cond xa yq, Instr.wf (.msu4 tl lanes cond xa yq) = true → Touches (.msu4 tl lanes cond xa yq) [.posted,
      .escs, .once, .tl, .inj, .view] (injectionFields ++ [R.TL_STAT_ACC_OVF, R.TL_COUNT_ECC_CORR])) ∧
    (∀ tl lane sub xa ya, Instr.wf (.ftap tl lane sub xa ya) = true → Touches (.ftap tl lane sub xa ya) [.posted, .escs,
      .once, .tl, .inj, .view] (injectionFields ++ [R.TL_STAT_ACC_OVF, R.TL_COUNT_ECC_CORR])) ∧
    (∀ tl lanes cond space addr shl quad, Instr.wf (.lda tl lanes cond space addr shl quad) = true → Touches (.lda tl lanes
      cond space addr shl quad) [.posted, .escs, .once, .tl, .inj] (injectionFields ++ [R.TL_COUNT_ECC_CORR])) ∧
    (∀ tl lanes cond space addr shr quad, Instr.wf (.st tl lanes cond space addr shr quad) = true → Touches (.st tl lanes
      cond space addr shr quad) [.posted, .escs, .once, .tl, .inj, .view] (injectionFields ++ [R.TL_STAT_SAT_ST,
      R.TL_COUNT_SAT_COUNT, R.TL_COUNT_ECC_CORR])) ∧
    (∀ tl dst src cond, Instr.wf (.adda tl dst src cond) = true → Touches (.adda tl dst src cond) [.posted, .escs, .once,
      .tl, .inj, .view] (injectionFields ++ [R.TL_STAT_ACC_OVF, R.TL_COUNT_ECC_CORR])) ∧
    (∀ tl dst src cond, Instr.wf (.suba tl dst src cond) = true → Touches (.suba tl dst src cond) [.posted, .escs, .once,
      .tl, .inj, .view] (injectionFields ++ [R.TL_STAT_ACC_OVF, R.TL_COUNT_ECC_CORR])) ∧
    (∀ tl dst src cond, Instr.wf (.mova tl dst src cond) = true → Touches (.mova tl dst src cond) [.posted, .escs, .once,
      .tl, .inj] (injectionFields ++ [R.TL_COUNT_ECC_CORR])) ∧
    (∀ tl lanes ya shl, Instr.wf (.clamp tl lanes ya shl) = true → Touches (.clamp tl lanes ya shl) [.posted, .escs, .once,
      .tl, .inj] (injectionFields ++ [R.TL_COUNT_ECC_CORR])) ∧
    (∀ tl space addr bit inv, Instr.wf (.tst tl space addr bit inv) = true → Touches (.tst tl space addr bit inv) [.posted,
      .escs, .once, .tl, .inj] (injectionFields ++ [R.TL_COUNT_ECC_CORR])) ∧
    (∀ tl lanes, Instr.wf (.clr tl lanes) = true → Touches (.clr tl lanes) [.posted, .escs, .once, .tl, .inj]
      (injectionFields ++ [R.TL_COUNT_ECC_CORR])) ∧
    (∀ tl, Touches (.tlNop tl) [.posted, .escs, .once, .tl, .inj] (injectionFields ++ [R.TL_COUNT_ECC_CORR])) ∧
    (∀ tl, Touches (.tlSatTime tl) [.posted, .escs, .tl, .inj, .view] (injectionFields ++ [R.TL_JSTAT_SAT_TRIP,
      R.TL_JCOUNT_SAT_TRIPS])) ∧
    (∀ tl, Touches (.preloadFallbackStart tl) [.tl] ([])) ∧
    (∀ tl, Touches (.preloadComplete tl) [.posted, .escs, .tl, .inj, .view] (injectionFields ++ [R.TL_JSTAT_XFER_SAT,
      R.TL_JSTAT_REF_STALE])) ∧
    (∀ d, Touches (.armServoOn d) [.posted, .once, .grp, .hi, .tw, .pw] (completionFields)) ∧
    (∀ d, Touches (.armServoStop d) [.posted, .once, .grp, .hi, .tw, .pw] (completionFields)) ∧
    (∀ d, Touches (.armServoResume d) [.posted, .once, .grp, .hi, .tw, .pw] (completionFields)) ∧
    (∀ d, Touches (.armServoReset d) [.posted, .once, .grp, .hi, .tw, .pw] (completionFields)) ∧
    (∀ g, Touches (.armServoApply g) [.posted, .tl, .grp, .mp, .sep, .hi, .tw, .sio, .free] (completionFields ++ stoFields
      ++ [R.TL_JSTAT_CAUSE, R.MP_STAT_STATE, R.MP_STAT_HOMED, R.MP_STAT_QUEUE, R.MP_STAT_CAUSE, R.MP_COUNT_ABORTS])) ∧
    (∀ g, Touches (.standstillReached g) [.posted, .tl, .grp, .mp, .sep, .hi, .tw, .sio, .free] (completionFields ++
      stoFields ++ axisFields)) ∧
    (∀ g, Touches (.ss1TimeoutExpiry g) [.posted, .grp, .mp, .sep, .hi, .sio] (completionFields ++ stoFields ++
      axisFields)) ∧
    (∀ d, Touches (.fbClear d) [.posted, .once, .fb, .hi, .tw] (completionFields ++ [R.FB_IDX_EXP,
      R.FB_IDX_CFG_IDX_VALID]))

/-- Every motion command completes, and changes nothing but the parts and register fields its clause names. -/
def Obligations.FrameMotion : Prop :=
  (∀ g, Touches (.generatorSample g) [.posted, .mp, .hi] (completionFields ++ motionFields ++
      [R.MP_STAT_LIMIT_DEFERRED])) ∧
    (∀ g, Touches (.movePlan g) [.mp] ([R.MP_STAT_STATE, R.MP_STAT_LIMIT_DEFERRED, R.MP_STAT_QUEUE, R.MP_POS_LO,
      R.MP_POS_HI, R.MP_VEL_LO, R.MP_VEL_HI, R.MP_ACC_LO, R.MP_ACC_HI, R.MP_TGT_LO, R.MP_TGT_HI])) ∧
    (∀ k, Touches (.velocityWordLoad k) [.posted, .once, .mp, .inj] (injectionFields ++ [R.ST_STAT_RDY, R.ST_STAT_EN_OUT,
      R.ST_STAT_DIR, R.ST_STAT_PENDING, R.ST_VWORD_LO, R.ST_VWORD_HI_V, R.ST_STEP_LO, R.ST_STEP_HI_STEPS,
      R.ST_COUNT_RATE_CLAMP, R.ST_COUNT_FEED_LATE])) ∧
    (∀ k rdy, Touches (.stkRdyChange k rdy) [.posted, .mp, .hi] (completionFields ++ axisFields)) ∧
    (∀ n level, Touches (.axinLevelChange n level) [.posted, .mp, .hi, .inj] (completionFields ++ injectionFields ++
      [R.MP_STAT_STATE, R.MP_STAT_HOMED, R.MP_STAT_QUEUE, R.MP_STAT_CAUSE, R.MP_COUNT_ABORTS, R.MP_AXIN_LEVEL_LO,
      R.MP_AXIN_LEVEL_HI_L])) ∧
    (∀ n, Touches (.mpChatter n) [.posted, .mp, .hi, .inj] (completionFields ++ injectionFields ++ [R.MP_STAT_STATE,
      R.MP_STAT_HOMED, R.MP_STAT_QUEUE, R.MP_STAT_CAUSE, R.MP_COUNT_ABORTS, R.MP_AXIN_CHAT_LO, R.MP_AXIN_CHAT_HI_C])) ∧
    (∀ g, Touches (.homeShift g) [.posted, .fb, .mp, .sv, .hi] (completionFields ++ [R.FB_IDX_EXP, R.FB_IDX_CFG_IDX_VALID,
      R.MP_STAT_STATE, R.MP_STAT_HOMED, R.MP_STAT_QUEUE, R.MP_STAT_HOME_RESULT, R.MP_POS_LO, R.MP_POS_HI, R.MP_VEL_LO,
      R.MP_VEL_HI, R.MP_ACC_LO, R.MP_ACC_HI, R.MP_TGT_LO, R.MP_TGT_HI, R.MP_HOME_POS_LO, R.MP_HOME_POS_HI, R.ST_STAT_RDY,
      R.ST_STAT_EN_OUT, R.ST_STAT_DIR, R.ST_STAT_PENDING, R.ST_VWORD_LO, R.ST_VWORD_HI_V, R.ST_STEP_LO,
      R.ST_STEP_HI_STEPS])) ∧
    (∀ d, Touches (.move d) [.posted, .once, .mp, .hi, .tw] (completionFields ++ [R.MP_STAT_STATE, R.MP_STAT_QUEUE])) ∧
    (∀ d targets, Touches (.moveGroup d targets) [.posted, .once, .mp, .hi, .tw] (completionFields ++ [R.MP_STAT_STATE,
      R.MP_STAT_QUEUE])) ∧
    (∀ d, Touches (.abort d) [.posted, .once, .mp, .hi, .tw] (completionFields ++ [R.MP_STAT_STATE, R.MP_STAT_HOMED,
      R.MP_STAT_QUEUE, R.MP_STAT_CAUSE, R.MP_COUNT_ABORTS])) ∧
    (∀ d, Touches (.home d) [.posted, .once, .mp, .hi, .tw] (completionFields ++ [R.MP_STAT_STATE, R.MP_STAT_HOMED,
      R.MP_STAT_CAUSE, R.MP_STAT_HOME_RESULT, R.MP_COUNT_ABORTS])) ∧
    (∀ d, Touches (.mpClear d) [.posted, .once, .mp, .hi, .tw] (completionFields ++ [R.MP_AXIN_CHAT_LO,
      R.MP_AXIN_CHAT_HI_C]))

/-- Every solver, separation and scheduler command completes, and changes nothing but the parts and register fields its clause names. -/
def Obligations.FrameSolver : Prop :=
  (∀ e, Touches (.solveEnd e) [.posted, .escs, .once, .tl, .sv, .sch, .gr, .inj, .flips] (injectionFields ++ solveFields
      ++ [R.SV_RUN_LAST, R.SV_RUN_MAX, R.SV_ITER_STAT_ITER_LAST, R.SV_ITER_STAT_PIV_FLOORS, R.SV_CERT_STAT_VAR,
      R.SV_CERT_STAT_SUB, R.SV_CERT_STAT_KIND, R.SV_CERT_VAL, R.SV_COUNT_CERT_VIOL, R.SV_COUNT_OVF, R.SV_COUNT_ECC_CORR,
      R.SV_COUNT_PIV_FLOOR, R.SV_STATUS, R.SV_INF_ROW_ROW, R.SV_INF_ROW_CLASS, R.SV_INF_VAL, R.SV_RT_COUNT_A_ACCEPTED,
      R.SV_RT_COUNT_A_SHIFTED, R.SV_RT_COUNT_A_INFEASIBLE, R.SV_RT_COUNT_B_CUT_MIDFACTOR, R.SV_RT_COUNT_B_CUT_OTHER,
      R.SCH_COUNT_DEADLINE_MISS, R.SCH_COUNT_RELEASE_DROP, R.SCH_TASK_E_RESP_LAST, R.SCH_TASK_E_RESP_MAX,
      R.SCH_TASK_F_MISSES, R.SCH_TASK_F_DROPS])) ∧
    (∀ e phase iter, Touches (.solveCut e phase iter) [.posted, .escs, .once, .tl, .sv, .sch, .gr, .inj, .flips]
      (injectionFields ++ solveFields ++ [R.SV_RUN_LAST, R.SV_RUN_MAX, R.SV_ITER_STAT_ITER_LAST, R.SV_ITER_STAT_PIV_FLOORS,
      R.SV_CERT_STAT_VAR, R.SV_CERT_STAT_SUB, R.SV_CERT_STAT_KIND, R.SV_CERT_VAL, R.SV_COUNT_CERT_VIOL, R.SV_COUNT_OVF,
      R.SV_COUNT_ECC_CORR, R.SV_COUNT_PIV_FLOOR, R.SV_STATUS, R.SV_INF_ROW_ROW, R.SV_INF_ROW_CLASS, R.SV_INF_VAL,
      R.SV_RT_COUNT_A_ACCEPTED, R.SV_RT_COUNT_A_SHIFTED, R.SV_RT_COUNT_A_INFEASIBLE, R.SV_RT_COUNT_B_CUT_MIDFACTOR,
      R.SV_RT_COUNT_B_CUT_OTHER, R.SCH_COUNT_DEADLINE_MISS, R.SCH_COUNT_RELEASE_DROP, R.SCH_TASK_E_RESP_LAST,
      R.SCH_TASK_E_RESP_MAX, R.SCH_TASK_F_MISSES, R.SCH_TASK_F_DROPS])) ∧
    (∀ e, Touches (.svStopReq e) [.posted, .escs, .sv] ([R.SV_STATUS, R.SV_RT_COUNT_B_STOP_REQS])) ∧
    (∀ e, Touches (.forceColdWrite e) [.sv] ([])) ∧
    (∀ faults, Touches (.sepProtectionEnd faults) [.posted, .escs, .once, .tl, .grp, .mp, .sv, .sep, .sch, .hi, .gr, .inj,
      .sio] (completionFields ++ injectionFields ++ stoFields ++ axisFields ++ solveFields ++ [R.SEP_STAT_GEOM_FAIL,
      R.SEP_STAT_GEOM_LAST, R.SEP_COUNT_PROTECT, R.SEP_COUNT_BLIND, R.SEP_SCAN_STAT_STATE, R.SEP_SCAN_STAT_CAUSE,
      R.SEP_SCAN_STAT_COUNT, R.SEP_SCAN_STAT_AGE, R.SCH_COUNT_DEADLINE_MISS, R.SCH_COUNT_RELEASE_DROP,
      R.SCH_TASK_E_RESP_LAST, R.SCH_TASK_E_RESP_MAX, R.SCH_TASK_F_MISSES, R.SCH_TASK_F_DROPS])) ∧
    (Touches .sepRowsEnd [.posted, .escs, .once, .tl, .sv, .sep, .sch, .gr, .inj] (injectionFields ++ solveFields ++
      [R.SCH_COUNT_DEADLINE_MISS, R.SCH_COUNT_RELEASE_DROP, R.SCH_TASK_E_RESP_LAST, R.SCH_TASK_E_RESP_MAX,
      R.SCH_TASK_F_MISSES, R.SCH_TASK_F_DROPS])) ∧
    (Touches .sepGeomFail [.posted, .escs, .once, .tl, .sv, .sep, .sch, .gr, .inj] (injectionFields ++ solveFields ++
      [R.SEP_STAT_GEOM_FAIL, R.SCH_COUNT_DEADLINE_MISS, R.SCH_COUNT_RELEASE_DROP, R.SCH_TASK_E_RESP_LAST,
      R.SCH_TASK_E_RESP_MAX, R.SCH_TASK_F_MISSES, R.SCH_TASK_F_DROPS])) ∧
    (Touches .bvPoseStart [.sep] ([])) ∧
    (Touches .bvComparison [.posted, .escs, .grp, .mp, .sep, .hi, .inj, .sio] (completionFields ++ injectionFields ++
      stoFields ++ axisFields ++ [R.SEP_COUNT_DISAGREE])) ∧
    (Touches .sepBvMissed [.posted, .escs, .grp, .mp, .sep, .hi, .inj, .sio] (completionFields ++ injectionFields ++
      stoFields ++ axisFields ++ [R.SEP_COUNT_MISSED])) ∧
    (∀ g, Touches (.bvDelayExpiry g) [.posted, .grp, .mp, .sep, .hi, .sio] (completionFields ++ stoFields ++ axisFields)) ∧
    (∀ g, Touches (.sepBvSs1 g) [.posted, .grp, .mp, .sep, .hi, .sio] (completionFields ++ stoFields ++ axisFields)) ∧
    (Touches .schedulerTick [.posted, .escs, .once, .tl, .mp, .sv, .sch, .hi, .inj] (completionFields ++ injectionFields ++
      axisFields ++ solveFields ++ [R.SCH_COUNT_DEADLINE_MISS, R.SCH_COUNT_RELEASE_DROP, R.SCH_UNIT_STAT_LOAD,
      R.SCH_LIST_STAT_OCCUPANCY, R.SCH_LIST_STAT_MAX, R.SCH_TASK_E_RESP_LAST, R.SCH_TASK_E_RESP_MAX, R.SCH_TASK_F_MISSES,
      R.SCH_TASK_F_DROPS])) ∧
    (∀ ix, Touches (.taskReleaseCycle ix) [.posted, .once, .sch, .inj] (injectionFields ++ [R.SCH_COUNT_RELEASE_DROP,
      R.SCH_TASK_F_DROPS])) ∧
    (∀ ix, Touches (.taskReleaseDemand ix) [.posted, .once, .sch, .inj] (injectionFields ++ [R.SCH_COUNT_RELEASE_DROP,
      R.SCH_LIST_STAT_OCCUPANCY, R.SCH_LIST_STAT_MAX, R.SCH_TASK_F_DROPS])) ∧
    (∀ ix, Touches (.jobDispatchReserved ix) [.posted, .escs, .tl, .sv, .sch, .inj] (injectionFields ++ solveFields)) ∧
    (Touches .edfRound [.posted, .escs, .once, .tl, .sv, .sch, .inj] (injectionFields ++ solveFields ++
      [R.SCH_COUNT_DEADLINE_MISS, R.SCH_COUNT_RELEASE_DROP, R.SCH_TASK_E_RESP_LAST, R.SCH_TASK_E_RESP_MAX,
      R.SCH_TASK_F_MISSES, R.SCH_TASK_F_DROPS])) ∧
    (∀ ix, Touches (.deadlineMiss ix) [.posted, .escs, .sch, .inj] (injectionFields ++ [R.SCH_COUNT_DEADLINE_MISS,
      R.SCH_TASK_F_MISSES]))

/-- Every move-engine and host-interface command completes, and changes nothing but the parts and register fields its clause names. -/
def Obligations.FrameHost : Prop :=
  (Touches .commitSwap [.posted, .mp, .sv, .hi, .gr] (completionFields ++ [R.MP_STAT_LIMIT_DEFERRED,
      R.MP_COUNT_DEFERRALS])) ∧
    (Touches .shadowCopyEnd [.posted, .hi, .gr] (completionFields)) ∧
    (∀ off s, ∃ t, exec (.lowWordRead off) s = .next t ∧ Disturbs [.frozen, .posted, .tb, .inj, .readData, .hiLatch, .view]
      s t) ∧
    (∀ off jtag s, ∃ t, exec (.rcRead off jtag) s = .next t ∧ Disturbs [.frozen, .posted, .tb, .inj, .readData, .hiLatch,
      .view] s t) ∧
    (∀ tl, Touches (.tlEnd tl) [.posted, .escs, .once, .cb, .fb, .tl, .mp, .sv, .sch, .me, .hi, .gr, .inj, .free, .view,
      .flips] (completionFields ++ injectionFields ++ residueFields ++ solveFields ++ [R.TL_STAT_OVERRUN,
      R.TL_RUN_RUN_LAST, R.TL_RUN_RUN_MAX, R.TL_COUNT_ECC_CORR, R.TL_GAIN_REGION_SELECTED, R.TL_GAIN_REGION_BAND0,
      R.TL_GAIN_REGION_BAND1, R.TL_GAIN_REGION_FORCED, R.TL_JSTAT_JSTATE, R.TL_JSTAT_SAT_NOW, R.TL_SAT_ACC,
      R.TL_JCOUNT_AW_HOLDS, R.SCH_COUNT_DEADLINE_MISS, R.SCH_COUNT_RELEASE_DROP, R.SCH_TASK_E_RESP_LAST,
      R.SCH_TASK_E_RESP_MAX, R.SCH_TASK_F_MISSES, R.SCH_TASK_F_DROPS, R.ME_STATE_STATE, R.ME_STATE_IADDR, R.ME_ERR_ADDR,
      R.ME_ERR_INFO_DIR, R.ME_ERR_INFO_CAUSE, R.ME_ERR_INFO_IADDR, R.ME_ERR_INFO_STREAM, R.ME_ERR_INFO_ELEM,
      R.ME_COUNT_BUS_ERR, R.ME_COUNT_HELD])) ∧
    (∀ c m, Touches (.meMoveCopy c m) [.posted, .escs, .once, .cb, .fb, .tl, .me, .hi, .gr, .inj, .free, .flips]
      (completionFields ++ injectionFields ++ residueFields ++ [R.TL_COUNT_ECC_CORR, R.ME_STATE_STATE, R.ME_STATE_IADDR,
      R.ME_ERR_ADDR, R.ME_ERR_INFO_DIR, R.ME_ERR_INFO_CAUSE, R.ME_ERR_INFO_IADDR, R.ME_ERR_INFO_STREAM, R.ME_ERR_INFO_ELEM,
      R.ME_COUNT_BUS_ERR, R.ME_COUNT_HELD])) ∧
    (∀ c m, Touches (.meMovePack c m) [.posted, .escs, .once, .cb, .fb, .tl, .me, .hi, .gr, .inj, .free, .flips]
      (completionFields ++ injectionFields ++ residueFields ++ [R.TL_COUNT_ECC_CORR, R.ME_STATE_STATE, R.ME_STATE_IADDR,
      R.ME_ERR_ADDR, R.ME_ERR_INFO_DIR, R.ME_ERR_INFO_CAUSE, R.ME_ERR_INFO_IADDR, R.ME_ERR_INFO_STREAM, R.ME_ERR_INFO_ELEM,
      R.ME_COUNT_BUS_ERR, R.ME_COUNT_HELD])) ∧
    (∀ c m, Touches (.meMoveUnpack c m) [.posted, .escs, .once, .cb, .fb, .tl, .me, .hi, .gr, .inj, .free, .flips]
      (completionFields ++ injectionFields ++ residueFields ++ [R.TL_COUNT_ECC_CORR, R.ME_STATE_STATE, R.ME_STATE_IADDR,
      R.ME_ERR_ADDR, R.ME_ERR_INFO_DIR, R.ME_ERR_INFO_CAUSE, R.ME_ERR_INFO_IADDR, R.ME_ERR_INFO_STREAM, R.ME_ERR_INFO_ELEM,
      R.ME_COUNT_BUS_ERR, R.ME_COUNT_HELD])) ∧
    (∀ c target count, Touches (.meLoop c target count) [.me] ([R.ME_STATE_IADDR])) ∧
    (∀ c index num, Touches (.meWaitSlot c index num) [.me] ([R.ME_STATE_STATE, R.ME_STATE_COND, R.ME_STATE_IADDR])) ∧
    (∀ c index num, Touches (.meWaitTiller c index num) [.me] ([R.ME_STATE_STATE, R.ME_STATE_COND, R.ME_STATE_IADDR])) ∧
    (∀ c offset, Touches (.meWaitTime c offset) [.me] ([R.ME_STATE_STATE, R.ME_STATE_COND, R.ME_STATE_IADDR,
      R.ME_COUNT_WAIT_LATE])) ∧
    (∀ c solver, Touches (.meWaitBoundary c solver) [.me] ([R.ME_STATE_STATE, R.ME_STATE_COND, R.ME_STATE_IADDR,
      R.ME_TIME_PASS_LAST, R.ME_TIME_PASS_MAX])) ∧
    (∀ c ch, Touches (.meWaitFlag c ch) [.me] ([R.ME_STATE_STATE, R.ME_STATE_COND, R.ME_STATE_IADDR])) ∧
    (∀ c, Touches (.meWaitComplete c) [.me] ([R.ME_STATE_STATE, R.ME_STATE_COND, R.ME_STATE_IADDR])) ∧
    (∀ c, Touches (.meBarrierRelease c) [.me] ([])) ∧
    (∀ c slot, Touches (.meSignalHandover c slot) [.cb] ([R.ME_STATE_IADDR])) ∧
    (∀ c ch, Touches (.meSignalFlag c ch) [.me] ([R.ME_STATE_IADDR])) ∧
    (∀ c index, Touches (.meSignalEvent c index) [.posted] ([R.ME_STATE_IADDR])) ∧
    (∀ c, Touches (.meSignalDone c) [.posted, .me, .hi] (completionFields ++ residueFields ++ [R.ME_STATE_STATE])) ∧
    (∀ d, Touches (.meCtrlStart d) [.posted, .once, .me, .hi, .tw] (completionFields ++ [R.ME_STATE_STATE,
      R.ME_STATE_IADDR])) ∧
    (∀ d, Touches (.meCtrlAbort d) [.posted, .once, .me, .hi] (completionFields ++ residueFields ++ [R.ME_STATE_STATE])) ∧
    (∀ d, Touches (.meCtrlReset d) [.posted, .once, .hi] (completionFields ++ [R.ME_STATE_STATE, R.ME_ERR_ADDR,
      R.ME_ERR_INFO_DIR, R.ME_ERR_INFO_CAUSE, R.ME_ERR_INFO_IADDR, R.ME_ERR_INFO_STREAM, R.ME_ERR_INFO_ELEM])) ∧
    (∀ q tail, Touches (.sqDoorbell q tail) [.posted, .once, .hi, .inj] (injectionFields ++ [R.HI_STATUS_DESC_ERR])) ∧
    (∀ c idx, Touches (.cqDoorbell c idx) [.posted, .once, .hi, .inj] (injectionFields ++ [R.HI_STATUS_DESC_ERR,
      R.HI_CQ_STATUS_TAIL, R.HI_CQ_STATUS_PHASE])) ∧
    (∀ q, Touches (.sqEnable q) [.hi] ([R.HI_SQ_CFG_EN, R.HI_SQ_STATUS_HEAD, R.HI_SQ_STATUS_HALTED])) ∧
    (∀ q, Touches (.sqDisable q) [.posted, .hi] (completionFields ++ [R.HI_SQ_CFG_EN])) ∧
    (∀ c, Touches (.cqEnable c) [.hi] ([R.HI_CQ_CFG_EN, R.HI_CQ_STATUS_TAIL, R.HI_CQ_STATUS_PHASE])) ∧
    (∀ c, Touches (.cqDisable c) [] ([R.HI_CQ_CFG_EN])) ∧
    (∀ q words, Touches (.descriptorFetch q words) [.posted, .once, .hi, .inj] (completionFields ++ injectionFields ++
      [R.HI_SQ_STATUS_HEAD])) ∧
    (∀ c, Touches (.msixMessage c) [.hi] ([])) ∧
    (∀ s, ∃ t, exec .hostReset s = .next t ∧ Disturbs [.posted, .cb, .hi, .gr] s t) ∧
    (∀ write, Touches (.bar0BadAccess write) [.posted, .once, .inj] (injectionFields ++ [R.HI_STATUS_DESC_ERR])) ∧
    (∀ off val s, ∃ t, exec (.regWrite off val) s = .next t ∧ t.pending = s.pending ∧ t.readData = s.readData) ∧
    (∀ d, Touches (.nop d) [.posted, .once, .hi] (completionFields)) ∧
    (∀ d data, Touches (.paramWrite d data) [.posted, .once, .hi, .gr] (completionFields)) ∧
    (∀ d, Touches (.commit d) [.posted, .once, .hi, .gr, .tw] (completionFields)) ∧
    (∀ d restarts, Touches (.snapshot d restarts) [.posted, .once, .hi] (completionFields)) ∧
    (∀ d, Touches (.imageLoad d) [.posted, .once, .hi] (completionFields ++ [R.HI_IMG_STAT_STATE, R.HI_IMG_STAT_IMAGE_ID])) ∧
    (∀ d, Touches (.selfTest d) [.posted, .once, .hi] (completionFields)) ∧
    (∀ d, Touches (.offlineSolve d) [.posted, .once, .hi] (completionFields)) ∧
    (∀ d, Touches (.bbDump d) [.posted, .once, .hi] (completionFields)) ∧
    (∀ d, Touches (.fwUpdate d) [.posted, .once, .hi] (completionFields)) ∧
    (∀ d, Touches (.longAbort d) [.posted, .once, .hi] (completionFields ++ [R.HI_IMG_STAT_STATE, R.HI_IMG_STAT_IMAGE_ID])) ∧
    (∀ d progress total part w7, Touches (.longOpStatusUpdate d progress total part w7) [.posted, .hi] (completionFields)) ∧
    (∀ d r, Touches (.longOpEnd d r) [.posted, .once, .hi, .ev, .bb, .inj, .pw, .flips] (completionFields ++
      injectionFields ++ [R.HI_IMG_STAT_STATE, R.HI_IMG_STAT_IMAGE_ID, R.EV_STAT_USED_KIB, R.EV_STAT_FATAL_KIB,
      R.EV_STAT_HOLD_USED, R.EV_SEQ_FIRST, R.EV_SEQ_LAST, R.EV_DROPS_B_ECC_CORR, R.BB_COUNT_ECC_CORR]))

/-- Every twin command completes, and changes nothing but the parts and register fields its clause names. -/
def Obligations.FrameTwin : Prop :=
  (∀ d, Touches (.twCmdHandover d) [.posted, .once, .hi, .tw] (completionFields)) ∧
    (∀ d, Touches (.twCmdSwitchBack d) [.posted, .once, .hi, .tw] (completionFields)) ∧
    (∀ d, Touches (.twCmdAlign d) [.posted, .tb, .once, .hi] (completionFields)) ∧
    (∀ d, Touches (.twCmdRepair d) [.posted, .once, .hi, .tw] (completionFields ++ [R.TW_STATE_STATE])) ∧
    (Touches .leaseTx [.posted, .cb, .hi, .tw, .inj] (completionFields ++ injectionFields ++ [R.CB_TX_FRAMES,
      R.CB_MACSEC_STATUS_TX_AN, R.CB_MACSEC_STATUS_RX_AN_VALID, R.CB_MACSEC_STATUS_TX_SA_VALID, R.CB_MACSEC_STATUS_PN_HIGH,
      R.CB_MACSEC_STATUS_PN_EXHAUSTED, R.CB_TX_PN])) ∧
    (∀ f, Touches (.leaseRx f) [.posted, .escs, .tb, .cb, .fb, .grp, .mp, .sep, .me, .hi, .gr, .tw, .bb, .inj, .sio, .pw,
      .free] (completionFields ++ injectionFields ++ stoFields ++ axisFields ++ macsecFields ++ [R.CB_PT_STATE_STATE,
      R.CB_PT_STATE_QCAUSE, R.CB_PT_COUNT_OWN_VIOL, R.CB_PT_COUNT_POLICE_DROP, R.CB_PS_SYNC_SYNC_MODE,
      R.CB_PS_WIN_MISS_RUN, R.FB_IDX_EXP, R.FB_IDX_CFG_IDX_VALID, R.MP_AXIN_CHAT_LO, R.MP_AXIN_CHAT_HI_C, R.ME_STATE_STATE,
      R.ME_STATE_IADDR, R.TW_STATE_STATE, R.TW_STATE_PEER_STATE, R.TW_STATE_LAST_CAUSE, R.TW_EPOCH_EPOCH,
      R.TW_EPOCH_STORED, R.TW_LEASE_STAT_SINCE_RENEW, R.TW_COUNT_B_SUPERSEDED])) ∧
    (Touches .ackTx [.posted, .cb, .tw, .inj] (injectionFields ++ [R.CB_TX_FRAMES, R.CB_MACSEC_STATUS_TX_AN,
      R.CB_MACSEC_STATUS_RX_AN_VALID, R.CB_MACSEC_STATUS_TX_SA_VALID, R.CB_MACSEC_STATUS_PN_HIGH,
      R.CB_MACSEC_STATUS_PN_EXHAUSTED, R.CB_TX_PN])) ∧
    (∀ f, Touches (.ackRx f) [.posted, .cb, .grp, .hi, .tw, .inj] (completionFields ++ injectionFields ++ macsecFields ++
      [R.TW_STATE_STATE, R.TW_STATE_PEER_STATE, R.TW_STATE_LAST_CAUSE, R.TW_COUNT_B_SUPERSEDED])) ∧
    (∀ f, Touches (.claimRx f) [.posted, .cb, .hi, .tw, .bb, .inj] (completionFields ++ injectionFields ++ macsecFields ++
      [R.TW_STATE_STATE, R.TW_STATE_PEER_STATE, R.TW_STATE_LAST_CAUSE, R.TW_EPOCH_EPOCH, R.TW_EPOCH_STORED,
      R.TW_LEASE_STAT_SINCE_RENEW, R.TW_COUNT_B_SUPERSEDED])) ∧
    (∀ f, Touches (.releaseRx f) [.posted, .cb, .hi, .tw, .bb, .inj] (completionFields ++ injectionFields ++ macsecFields
      ++ [R.TW_STATE_STATE, R.TW_STATE_PEER_STATE, R.TW_STATE_LAST_CAUSE, R.TW_EPOCH_EPOCH, R.TW_EPOCH_STORED,
      R.TW_LEASE_STAT_SINCE_RENEW, R.TW_COUNT_B_SUPERSEDED])) ∧
    (∀ f, Touches (.xferRx f) [.posted, .cb, .fb, .tl, .mp, .sv, .hi, .tw, .inj] (completionFields ++ injectionFields ++
      macsecFields ++ [R.TL_JSTAT_JSTATE, R.TW_STATE_STATE, R.TW_STATE_PEER_STATE, R.TW_STATE_LAST_CAUSE,
      R.TW_COUNT_B_SUPERSEDED])) ∧
    (∀ p sent, Touches (.syncExchange p sent) [.posted, .cb, .tw, .inj] (injectionFields ++ [R.CB_TX_FRAMES,
      R.CB_MACSEC_STATUS_TX_AN, R.CB_MACSEC_STATUS_RX_AN_VALID, R.CB_MACSEC_STATUS_TX_SA_VALID, R.CB_MACSEC_STATUS_PN_HIGH,
      R.CB_MACSEC_STATUS_PN_EXHAUSTED, R.CB_TX_PN])) ∧
    (∀ f, Touches (.syncRx f) [.posted, .cb, .hi, .tw, .inj, .free] (completionFields ++ injectionFields ++ macsecFields ++
      [R.CB_TX_FRAMES, R.CB_TX_PN, R.TW_STATE_STATE, R.TW_STATE_LAST_CAUSE, R.TW_COUNT_B_SUPERSEDED, R.TW_LINK_DELAY_DELAY,
      R.TW_OFFSET])) ∧
    (Touches .statusTx [.posted, .cb, .tw, .inj] (injectionFields ++ [R.CB_TX_FRAMES, R.CB_MACSEC_STATUS_TX_AN,
      R.CB_MACSEC_STATUS_RX_AN_VALID, R.CB_MACSEC_STATUS_TX_SA_VALID, R.CB_MACSEC_STATUS_PN_HIGH,
      R.CB_MACSEC_STATUS_PN_EXHAUSTED, R.CB_TX_PN])) ∧
    (∀ f, Touches (.statusRx f) [.posted, .cb, .hi, .tw, .bb, .inj] (completionFields ++ injectionFields ++ macsecFields ++
      [R.TW_STATE_STATE, R.TW_STATE_PEER_STATE, R.TW_STATE_LAST_CAUSE, R.TW_EPOCH_EPOCH, R.TW_EPOCH_STORED,
      R.TW_LEASE_STAT_SINCE_RENEW, R.TW_COUNT_B_SUPERSEDED, R.TW_PEER_DIGEST])) ∧
    (∀ p, Touches (.echoTx p) [.posted, .cb, .tw, .inj] (injectionFields ++ [R.CB_TX_FRAMES, R.CB_MACSEC_STATUS_TX_AN,
      R.CB_MACSEC_STATUS_RX_AN_VALID, R.CB_MACSEC_STATUS_TX_SA_VALID, R.CB_MACSEC_STATUS_PN_HIGH,
      R.CB_MACSEC_STATUS_PN_EXHAUSTED, R.CB_TX_PN])) ∧
    (Touches .renewalToken [.tw] ([])) ∧
    (Touches .leaseExpiry [.posted, .escs, .grp, .mp, .sep, .hi, .tw, .bb, .sio] (completionFields ++ stoFields ++
      axisFields ++ [R.TW_STATE_STATE, R.TW_EPOCH_EPOCH, R.TW_EPOCH_STORED, R.TW_LEASE_STAT_SINCE_RENEW,
      R.TW_COUNT_A_TAKEOVERS])) ∧
    (Touches .releasedHolderTimeout [.posted, .grp, .hi, .tw] (completionFields ++ [R.TW_STATE_STATE,
      R.TW_STATE_LAST_CAUSE])) ∧
    (Touches .twHandoverSwitch [.posted, .hi, .tw, .bb] (completionFields ++ [R.TW_STATE_STATE, R.TW_STATE_PEER_STATE,
      R.TW_EPOCH_EPOCH, R.TW_EPOCH_STORED, R.TW_LEASE_STAT_SINCE_RENEW, R.TW_COUNT_B_HANDOVERS])) ∧
    (Touches .twinPeerOff [.tw, .bb] ([R.TW_STATE_STATE, R.TW_STATE_PEER_STATE, R.TW_EPOCH_EPOCH, R.TW_EPOCH_STORED,
      R.TW_LEASE_STAT_SINCE_RENEW])) ∧
    (Touches .transferTimeout [.posted, .hi, .tw] (completionFields ++ [R.TW_STATE_STATE, R.TW_STATE_LAST_CAUSE])) ∧
    (Touches .twPaired [.posted, .escs, .cb, .fb, .grp, .mp, .sep, .me, .hi, .gr, .tw, .sio, .pw] (completionFields ++
      stoFields ++ axisFields ++ [R.CB_PT_STATE_STATE, R.CB_PT_STATE_QCAUSE, R.CB_PT_COUNT_OWN_VIOL,
      R.CB_PT_COUNT_POLICE_DROP, R.CB_PS_SYNC_SYNC_MODE, R.CB_PS_WIN_MISS_RUN, R.FB_IDX_EXP, R.FB_IDX_CFG_IDX_VALID,
      R.MP_AXIN_CHAT_LO, R.MP_AXIN_CHAT_HI_C, R.ME_STATE_STATE, R.ME_STATE_IADDR, R.TW_STATE_STATE,
      R.TW_STATE_LAST_CAUSE])) ∧
    (Touches .twDigestMissing [.posted, .hi, .tw] (completionFields ++ [R.TW_STATE_STATE, R.TW_STATE_LAST_CAUSE,
      R.TW_COUNT_A_DIGEST_MISSING])) ∧
    (∀ p, Touches (.twEchoLost p) [.posted, .tw] ([R.TW_STATE_PATH_OK, R.TW_COUNT_A_ECHO_LOST])) ∧
    (Touches .switchbackHoldoff [.tw] ([]))

/-- Every record, Orangery, escalation and scrub command completes, and changes nothing but the parts and register fields its clause names.
-/
def Obligations.FrameRecords : Prop :=
  (∀ s, ∃ t, exec .escalation s = .next t ∧ t.pending = s.pending ∧ t.free = s.free ∧ t.readData = s.readData) ∧
    (∀ mem, Touches (.scrubRead mem) [.posted, .escs, .once, .tl, .sv, .sch, .gr, .ev, .bb, .inj, .free, .flips]
      (injectionFields ++ solveFields ++ [R.TL_COUNT_ECC_CORR, R.SV_COUNT_ECC_CORR, R.SCH_COUNT_DEADLINE_MISS,
      R.SCH_COUNT_RELEASE_DROP, R.SCH_COUNT_ECC_CORR, R.SCH_TASK_A_RELEASE, R.SCH_TASK_A_CLASS, R.SCH_TASK_A_TARGET,
      R.SCH_TASK_A_FLOW, R.SCH_TASK_A_FLOW_EN, R.SCH_TASK_A_LIST, R.SCH_TASK_B_BUDGET_NS, R.SCH_TASK_C_DEADLINE_NS,
      R.SCH_TASK_D_PERIOD_US, R.SCH_TASK_D_PHASE_US, R.SCH_TASK_E_RESP_LAST, R.SCH_TASK_E_RESP_MAX, R.SCH_TASK_F_MISSES,
      R.SCH_TASK_F_DROPS, R.ME_ECC_ECC_CORR, R.ME_PROG, R.EV_STAT_USED_KIB, R.EV_STAT_FATAL_KIB, R.EV_STAT_HOLD_USED,
      R.EV_SEQ_FIRST, R.EV_SEQ_LAST, R.EV_DROPS_B_ECC_CORR, R.BB_COUNT_ECC_CORR])) ∧
    (∀ d, Touches (.evCmdFreeze d) [.posted, .once, .hi, .ev] (completionFields ++ [R.EV_STAT_HOST_FROZEN])) ∧
    (∀ d, Touches (.evCmdUnfreeze d) [.posted, .once, .hi, .ev, .bb] (completionFields ++ [R.EV_STAT_HOST_FROZEN,
      R.EV_STAT_USED_KIB, R.EV_STAT_FATAL_KIB, R.EV_STAT_HOLD_USED, R.EV_SEQ_FIRST, R.EV_SEQ_LAST, R.EV_DROPS_A_FULL_DROP,
      R.EV_DROPS_B_FATAL_DROP, R.BB_STAT_SPARE_PCT])) ∧
    (∀ d, Touches (.evCmdAck d) [.posted, .once, .sv, .hi, .ev] (completionFields ++ [R.SV_STATUS, R.EV_STAT_OPEN_OVF,
      R.EV_OPEN_COUNT])) ∧
    (∀ d, Touches (.evCmdMark d) [.posted, .once, .hi] (completionFields)) ∧
    (∀ d, Touches (.evCmdClear d) [.posted, .once, .hi, .ev] (completionFields ++ [R.EV_STAT_USED_KIB, R.EV_STAT_FATAL_KIB,
      R.EV_STAT_HOLD_USED, R.EV_SEQ_FIRST, R.EV_SEQ_LAST])) ∧
    (∀ d, Touches (.evCmdClearFatal d) [.posted, .once, .hi, .ev] (completionFields ++ [R.EV_STAT_USED_KIB,
      R.EV_STAT_FATAL_KIB, R.EV_STAT_HOLD_USED, R.EV_SEQ_FIRST, R.EV_SEQ_LAST])) ∧
    (∀ d, Touches (.evCmdBbRelease d) [.posted, .once, .hi, .bb] (completionFields ++ [R.BB_STAT_PT_FROZEN,
      R.BB_STAT_MIRROR_SLOT, R.BB_STAT_SEALED, R.BB_STAT_SNAP_VALID, R.BB_STAT_PT_SKIPS, R.BB_PT_CYCLE, R.BB_BOOTS])) ∧
    (∀ d, Touches (.evCmdBbErase d) [.posted, .once, .hi, .bb] (completionFields ++ [R.BB_STAT_PT_FROZEN,
      R.BB_STAT_MIRROR_SLOT, R.BB_STAT_SEALED, R.BB_STAT_SNAP_VALID, R.BB_PT_CYCLE, R.BB_BOOTS])) ∧
    (∀ d, Touches (.injCmdLoadKey d) [.posted, .once, .hi] (completionFields ++ [R.INJ_STAT_KEY_LOADED, R.INJ_STAT_ACTIVE,
      R.INJ_STAT_ARMED, R.INJ_STAT_KEY_FAILS, R.INJ_STAT_LOCKED, R.INJ_KEY_ID])) ∧
    (∀ d, Touches (.injCmdClearKey d) [.posted, .once, .hi] (completionFields ++ [R.INJ_STAT_KEY_LOADED, R.INJ_STAT_ACTIVE,
      R.INJ_STAT_ARMED, R.INJ_KEY_ID])) ∧
    (∀ d, Touches (.injCmdArm d) [.posted, .once, .hi, .inj] (completionFields ++ [R.INJ_STAT_ACTIVE, R.INJ_STAT_ARMED,
      R.INJ_ENTRY_INDEX, R.INJ_ENTRY_MODE, R.INJ_ENTRY_ARMED, R.INJ_ENTRY_REMAIN])) ∧
    (∀ d, Touches (.injCmdDisarm d) [.posted, .once, .hi, .inj] (completionFields ++ [R.INJ_STAT_ACTIVE, R.INJ_STAT_ARMED,
      R.INJ_ENTRY_INDEX, R.INJ_ENTRY_MODE, R.INJ_ENTRY_ARMED, R.INJ_ENTRY_REMAIN])) ∧
    (∀ d, Touches (.injCmdDisarmAll d) [.posted, .once, .hi, .inj] (completionFields ++ [R.INJ_STAT_ACTIVE,
      R.INJ_STAT_ARMED, R.INJ_ENTRY_INDEX, R.INJ_ENTRY_MODE, R.INJ_ENTRY_ARMED, R.INJ_ENTRY_REMAIN])) ∧
    (Touches .eventInputPost [.posted, .ev, .bb] ([R.EV_STAT_OPEN_OVF, R.EV_DROPS_A_INPUT_DROP, R.EV_DROPS_B_FATAL_DROP,
      R.EV_OPEN_COUNT, R.BB_STAT_SPARE_PCT, R.BB_COUNT_LOG_DROP])) ∧
    (Touches .recordStore [.posted, .ev, .bb] (recorderFields ++ [R.BB_STAT_SPARE_PCT])) ∧
    (Touches .evFreezeTimeout [.posted, .ev, .bb] ([R.EV_STAT_HOST_FROZEN, R.EV_STAT_USED_KIB, R.EV_STAT_FATAL_KIB,
      R.EV_STAT_HOLD_USED, R.EV_SEQ_FIRST, R.EV_SEQ_LAST, R.EV_DROPS_A_FULL_DROP, R.EV_DROPS_B_FATAL_DROP,
      R.BB_STAT_SPARE_PCT])) ∧
    (∀ seq, Touches (.evCursorWrite seq) [.posted, .once, .ev, .inj, .free, .flips] (injectionFields ++
      [R.EV_STAT_USED_KIB, R.EV_STAT_FATAL_KIB, R.EV_STAT_HOLD_USED, R.EV_SEQ_FIRST, R.EV_SEQ_LAST, R.EV_CURSOR,
      R.EV_RD_SEQ, R.EV_RD_STAT_VALID, R.EV_RD_STAT_GAP, R.EV_RD_STAT_LEN_W, R.EV_RD_STAT_ECC_BAD, R.EV_DROPS_B_ECC_CORR,
      R.EV_WIN])) ∧
    (Touches .eventInterrupt [.hi, .ev] ([])) ∧
    (Touches .pretriggerMove [.bb] ([])) ∧
    (∀ s, ∃ t, exec .orangeryCommitRecord s = .next t ∧ t.pending = s.pending ∧ t.free = s.free ∧ t.readData = s.readData) ∧
    (∀ s, ∃ t, exec .bbEscOnly s = .next t ∧ t.pending = s.pending ∧ t.free = s.free ∧ t.readData = s.readData) ∧
    (∀ s, ∃ t, exec .powerLossSnapshot s = .next t ∧ t.pending = s.pending ∧ t.free = s.free ∧ t.readData = s.readData) ∧
    (∀ hold, Touches (.evFreezeDbg hold) [.posted, .ev, .bb] ([R.EV_STAT_DBG_FROZEN, R.EV_STAT_USED_KIB,
      R.EV_STAT_FATAL_KIB, R.EV_STAT_HOLD_USED, R.EV_SEQ_FIRST, R.EV_SEQ_LAST, R.EV_DROPS_A_FULL_DROP,
      R.EV_DROPS_B_FATAL_DROP, R.BB_STAT_SPARE_PCT])) ∧
    (∀ seq, Touches (.evReadDbg seq) [.posted, .once, .ev, .inj, .free, .readData, .flips] (injectionFields ++
      [R.EV_STAT_USED_KIB, R.EV_STAT_FATAL_KIB, R.EV_STAT_HOLD_USED, R.EV_SEQ_FIRST, R.EV_SEQ_LAST, R.EV_CURSOR,
      R.EV_RD_SEQ, R.EV_RD_STAT_VALID, R.EV_RD_STAT_GAP, R.EV_RD_STAT_LEN_W, R.EV_RD_STAT_ECC_BAD, R.EV_DROPS_B_ECC_CORR,
      R.EV_WIN])) ∧
    (∀ sect offset, Touches (.bbReadDbg sect offset) [.posted, .once, .ev, .bb, .inj, .readData, .flips] (injectionFields
      ++ [R.EV_STAT_USED_KIB, R.EV_STAT_FATAL_KIB, R.EV_STAT_HOLD_USED, R.EV_SEQ_FIRST, R.EV_SEQ_LAST,
      R.EV_DROPS_B_ECC_CORR, R.BB_COUNT_ECC_CORR])) ∧
    (∀ sect offset, Touches (.bbResponderRequest sect offset) [.posted, .once, .ev, .bb, .inj, .flips] (injectionFields ++
      [R.EV_STAT_USED_KIB, R.EV_STAT_FATAL_KIB, R.EV_STAT_HOLD_USED, R.EV_SEQ_FIRST, R.EV_SEQ_LAST, R.EV_DROPS_B_ECC_CORR,
      R.BB_COUNT_ECC_CORR]))

/-- Every ADC, safety-I/O and power command completes, and changes nothing but the parts and register fields its clause names. -/
def Obligations.FrameSafetyIo : Prop :=
  (∀ pace mv, Touches (.sundialWindowEnd pace mv) [.posted, .escs, .grp, .mp, .sep, .hi, .inj, .sio, .pw]
      (completionFields ++ injectionFields ++ stoFields ++ axisFields ++ [R.AD_WDOG_STAT_RUNNING, R.PW_SUNDIAL_STAT_VID,
      R.PW_SUNDIAL_STAT_MIN_REGION, R.PW_SUNDIAL_STAT_PACE_STATE, R.PW_SUNDIAL_STAT_HEADROOM,
      R.PW_SUNDIAL_COUNT_VID_CHANGES, R.PW_PACE_PACE, R.PW_PACE_MIN, R.PW_VDDC_MV_MV])) ∧
    (∀ arbiter region reqs, Touches (.arbiterRound arbiter region reqs) [.posted, .inj, .arb] (injectionFields ++
      [R.PW_SUNDIAL_COUNT_ARB_MARGIN])) ∧
    (∀ ch, Touches (.triggerFire ch) [.posted, .tb, .cb, .mp, .inj, .ad] (injectionFields ++ [R.TB_CAP_NS_NS,
      R.TB_CAP_NS_VALID, R.TB_CAP_STATUS_COUNT, R.TB_CAP_STATUS_OVERRUN, R.TB_TRG_CTRL_ARM, R.TB_TRG_STATUS_FIRED,
      R.MP_STAT_STATE, R.MP_STAT_LIMIT_DEFERRED, R.MP_STAT_QUEUE, R.MP_POS_LO, R.MP_POS_HI, R.MP_VEL_LO, R.MP_VEL_HI,
      R.MP_ACC_LO, R.MP_ACC_HI, R.MP_TGT_LO, R.MP_TGT_HI, R.MP_COUNT_TRG_UNUSED, R.AD_STAT_PASS, R.AD_STAT_BUSY,
      R.AD_STAT_URG_PENDING, R.AD_COUNT_TRG_OVERLAP])) ∧
    (∀ nv, Touches (.adcConversionEnd nv) [.posted, .tb, .inj, .ad] (injectionFields ++ [R.TB_CAP_NS_NS, R.TB_CAP_NS_VALID,
      R.TB_CAP_STATUS_COUNT, R.TB_CAP_STATUS_OVERRUN, R.AD_STAT_PASS, R.AD_STAT_BUSY, R.AD_STAT_URG_PENDING, R.AD_RES,
      R.AD_RES_STAT_PASS, R.AD_RES_STAT_URGENT, R.AD_RES_STAT_OUT])) ∧
    (∀ e, Touches (.adLimit e) [.posted, .escs] ([R.AD_RES_STAT_OUT])) ∧
    (∀ e, Touches (.adcUrgentRequest e) [.ad] ([R.AD_STAT_BUSY, R.AD_STAT_URG_PENDING, R.AD_COUNT_URG_DROP,
      R.AD_COUNT_ABORTS])) ∧
    (∀ e, Touches (.adcResRead e) [.readData, .hiLatch] ([])) ∧
    (∀ ch level, Touches (.safetyInputChange ch level) [.posted, .escs, .grp, .mp, .sep, .hi, .sio] (completionFields ++
      stoFields ++ axisFields ++ [R.AD_SIO_STAT_LEVEL, R.AD_SIO_STAT_DEMAND, R.AD_SIO_STAT_DISC])) ∧
    (∀ ix, Touches (.safetyDiscrepancy ix) [.posted, .escs, .grp, .mp, .sep, .hi, .sio] (completionFields ++ stoFields ++
      axisFields ++ [R.AD_SIO_STAT_DEMAND, R.AD_SIO_STAT_DISC])) ∧
    (Touches .estopSs1Expiry [.posted, .grp, .mp, .sep, .hi, .sio] (completionFields ++ stoFields ++ axisFields)) ∧
    (∀ p chB readsHigh, Touches (.stoReadbackMismatch p chB readsHigh) [.posted, .escs, .grp, .mp, .sep, .hi, .sio]
      (completionFields ++ stoFields ++ axisFields ++ [R.AD_WDOG_STAT_RUNNING])) ∧
    (∀ p okA okB, Touches (.stoTestPulse p okA okB) [.posted, .escs, .grp, .mp, .sep, .hi, .sio] (completionFields ++
      stoFields ++ axisFields ++ [R.AD_WDOG_STAT_RUNNING])) ∧
    (Touches .globalRelease [.posted, .sio] ([R.AD_STO_STAT_ASSERTED, R.AD_STO_STAT_DRIVE_A, R.AD_STO_STAT_DRIVE_B,
      R.AD_STO_STAT_FB_A, R.AD_STO_STAT_FB_B, R.AD_STO_STAT_CAUSE])) ∧
    (Touches .ioWdog [.posted, .escs, .grp, .mp, .sep, .hi, .sio] (completionFields ++ stoFields ++ axisFields ++
      [R.AD_WDOG_STAT_RUNNING])) ∧
    (∀ s, ∃ t, exec .powerOn s = .next t ∧ t.pending = s.pending ∧ t.free = s.free ∧ t.readData = s.readData) ∧
    (∀ s, ∃ t, exec .pinReset s = .next t ∧ t.pending = s.pending ∧ t.free = s.free ∧ t.readData = s.readData) ∧
    (∀ key s, ∃ t, exec (.softReset key) s = .next t ∧ t.pending = s.pending ∧ t.free = s.free ∧ t.readData = s.readData) ∧
    (∀ cause s, ∃ t, exec (.powerFailSignal cause) s = .next t ∧ t.pending = s.pending ∧ t.free = s.free ∧ t.readData =
      s.readData) ∧
    (∀ supply good, Touches (.pwSupply supply good) [.posted, .escs] ([R.PW_SUPPLY_STAT_GOOD, R.PW_SUPPLY_STAT_GOOD_VDDA])) ∧
    (Touches .resetRelease [.pw] ([R.PW_SUPPLY_STAT_GOOD, R.PW_SUPPLY_STAT_GOOD_VDDA, R.PW_SUPPLY_STAT_VR_PGOOD])) ∧
    (∀ f, Touches (.timeIslandLock f) [.frozen, .posted, .bb, .inj, .pw] (injectionFields ++ [R.SYS_ID_VENDOR,
      R.SYS_VERSION_STEPPING, R.TB_REF_STATUS_LOCKED, R.CB_DEV_MAC_LO, R.CB_DEV_MAC_HI_OCTETS_0_1, R.BB_STAT_SPARE_PCT,
      R.BB_COUNT_LOG_DROP])) ∧
    (Touches .memoryClearComplete [.gr, .pw] ([])) ∧
    (∀ slot0 slot1 ms, Touches (.secureBootComplete slot0 slot1 ms) [.frozen, .posted, .bb, .inj, .sio, .pw]
      (injectionFields ++ [R.SYS_VERSION_FW_VER, R.PW_BOOT_STAT_SLOT, R.PW_BOOT_STAT_SLOT_VALID, R.PW_BOOT_STAT_BOOT_MS])) ∧
    (∀ pgood vddcOut, Touches (.pwVr pgood vddcOut) [.posted, .escs, .inj, .pw] (injectionFields ++ [R.PW_SUNDIAL_STAT_VID,
      R.PW_SUNDIAL_COUNT_VID_CHANGES, R.PW_SUPPLY_STAT_VR_PGOOD])) ∧
    (Touches .holdupOkSet [] ([R.BB_STAT_HOLDUP_OK])) ∧
    (Touches .pwHoldupLow [.posted, .inj, .pw] (injectionFields ++ [R.BB_STAT_HOLDUP_OK])) ∧
    (∀ ix, Touches (.islandPowerOff ix) [.posted, .tl, .sv, .sep, .me, .hi] (completionFields ++ residueFields ++
      [R.ME_STATE_STATE, R.PW_PACE_PACE, R.PW_ISLAND_A, R.PW_ISLAND_B, R.PW_ISLAND_C_E_ON, R.PW_ISLAND_C_FA_ON,
      R.PW_ISLAND_C_FA8_ON, R.PW_ISLAND_C_LANE_ON])) ∧
    (∀ ix, Touches (.islandPowerOn ix) [.tl, .sv, .sep] ([R.PW_PACE_PACE, R.PW_ISLAND_A, R.PW_ISLAND_B, R.PW_ISLAND_C_E_ON,
      R.PW_ISLAND_C_FA_ON, R.PW_ISLAND_C_FA8_ON, R.PW_ISLAND_C_LANE_ON])) ∧
    (∀ reg val, Touches (.forceOffWrite reg val) [.posted, .pw] ([R.PW_FORCE_OFF_A, R.PW_FORCE_OFF_B, R.PW_FORCE_OFF_C_E,
      R.PW_FORCE_OFF_C_FA, R.PW_FORCE_OFF_C_FA8, R.PW_FORCE_OFF_C_LANE])) ∧
    (∀ ix, Touches (.pwIslandForced ix) [.posted, .escs, .tl, .sv, .sep, .me, .hi, .inj] (completionFields ++
      injectionFields ++ residueFields ++ [R.ME_STATE_STATE, R.ME_ERR_ADDR, R.ME_ERR_INFO_DIR, R.ME_ERR_INFO_CAUSE,
      R.ME_ERR_INFO_IADDR, R.ME_ERR_INFO_STREAM, R.ME_ERR_INFO_ELEM, R.ME_COUNT_BUS_ERR, R.PW_PACE_PACE, R.PW_ISLAND_A,
      R.PW_ISLAND_B, R.PW_ISLAND_C_E_ON, R.PW_ISLAND_C_FA_ON, R.PW_ISLAND_C_FA8_ON, R.PW_ISLAND_C_LANE_ON])) ∧
    (Touches .pwMgmtWdog [.posted, .hi, .inj, .pw] (completionFields ++ injectionFields ++ [R.HI_IMG_STAT_STATE,
      R.HI_IMG_STAT_IMAGE_ID, R.PW_RESET_CAUSE_CAUSE, R.PW_MGMT_WD_EXPIRIES])) ∧
    (∀ s, ∃ t, exec .pwNvosc s = .next t ∧ t.pending = s.pending ∧ t.free = s.free ∧ t.readData = s.readData) ∧
    (Touches .nvOscStop [.grp, .sep, .sio, .pw] (stoFields ++ [R.AD_WDOG_STAT_RUNNING])) ∧
    (∀ tj s, ∃ t, exec (.tempReading tj) s = .next t ∧ t.pending = s.pending ∧ t.free = s.free ∧ t.readData = s.readData) ∧
    (Touches .vddnvLoss [.posted, .grp, .mp, .sep, .hi, .bb, .sio, .pw] (completionFields ++ stoFields ++ axisFields ++
      [R.AD_WDOG_STAT_RUNNING]))
end

