-- ==== Sys2Proof/Laws/State.lean ====
section
/-! SUPPORT. One lemma for each field of the state under each elementary update, true by unfolding, so that no later proof unfolds
a record update. -/
namespace Sys2Proof.Machine

/-! ### Register writes leave every other part alone -/

@[simp] theorem State.set_pending (s : State) (f : Field) (n v : Nat) : (s.set f n v).pending = s.pending := rfl
@[simp] theorem State.set_frozen (s : State) (f : Field) (n v : Nat) : (s.set f n v).frozen = s.frozen := rfl
@[simp] theorem State.set_posted (s : State) (f : Field) (n v : Nat) : (s.set f n v).posted = s.posted := rfl
@[simp] theorem State.set_escs (s : State) (f : Field) (n v : Nat) : (s.set f n v).escs = s.escs := rfl
@[simp] theorem State.set_tb (s : State) (f : Field) (n v : Nat) : (s.set f n v).tb = s.tb := rfl
@[simp] theorem State.set_grid (s : State) (f : Field) (n v : Nat) : (s.set f n v).grid = s.grid := rfl
@[simp] theorem State.set_once (s : State) (f : Field) (n v : Nat) : (s.set f n v).once = s.once := rfl
@[simp] theorem State.set_cb (s : State) (f : Field) (n v : Nat) : (s.set f n v).cb = s.cb := rfl
@[simp] theorem State.set_fb (s : State) (f : Field) (n v : Nat) : (s.set f n v).fb = s.fb := rfl
@[simp] theorem State.set_tl (s : State) (f : Field) (n v : Nat) : (s.set f n v).tl = s.tl := rfl
@[simp] theorem State.set_grp (s : State) (f : Field) (n v : Nat) : (s.set f n v).grp = s.grp := rfl
@[simp] theorem State.set_mp (s : State) (f : Field) (n v : Nat) : (s.set f n v).mp = s.mp := rfl
@[simp] theorem State.set_sv (s : State) (f : Field) (n v : Nat) : (s.set f n v).sv = s.sv := rfl
@[simp] theorem State.set_sep (s : State) (f : Field) (n v : Nat) : (s.set f n v).sep = s.sep := rfl
@[simp] theorem State.set_sch (s : State) (f : Field) (n v : Nat) : (s.set f n v).sch = s.sch := rfl
@[simp] theorem State.set_me (s : State) (f : Field) (n v : Nat) : (s.set f n v).me = s.me := rfl
@[simp] theorem State.set_hi (s : State) (f : Field) (n v : Nat) : (s.set f n v).hi = s.hi := rfl
@[simp] theorem State.set_gr (s : State) (f : Field) (n v : Nat) : (s.set f n v).gr = s.gr := rfl
@[simp] theorem State.set_tw (s : State) (f : Field) (n v : Nat) : (s.set f n v).tw = s.tw := rfl
@[simp] theorem State.set_ev (s : State) (f : Field) (n v : Nat) : (s.set f n v).ev = s.ev := rfl
@[simp] theorem State.set_bb (s : State) (f : Field) (n v : Nat) : (s.set f n v).bb = s.bb := rfl
@[simp] theorem State.set_inj (s : State) (f : Field) (n v : Nat) : (s.set f n v).inj = s.inj := rfl
@[simp] theorem State.set_ad (s : State) (f : Field) (n v : Nat) : (s.set f n v).ad = s.ad := rfl
@[simp] theorem State.set_sio (s : State) (f : Field) (n v : Nat) : (s.set f n v).sio = s.sio := rfl
@[simp] theorem State.set_pw (s : State) (f : Field) (n v : Nat) : (s.set f n v).pw = s.pw := rfl
@[simp] theorem State.set_arb (s : State) (f : Field) (n v : Nat) : (s.set f n v).arb = s.arb := rfl
@[simp] theorem State.set_free (s : State) (f : Field) (n v : Nat) : (s.set f n v).free = s.free := rfl
@[simp] theorem State.set_readData (s : State) (f : Field) (n v : Nat) : (s.set f n v).readData = s.readData := rfl
@[simp] theorem State.set_hiLatch (s : State) (f : Field) (n v : Nat) : (s.set f n v).hiLatch = s.hiLatch := rfl
@[simp] theorem State.set_wrStage (s : State) (f : Field) (n v : Nat) : (s.set f n v).wrStage = s.wrStage := rfl
@[simp] theorem State.set_view (s : State) (f : Field) (n v : Nat) : (s.set f n v).view = s.view := rfl
@[simp] theorem State.set_flips (s : State) (f : Field) (n v : Nat) : (s.set f n v).flips = s.flips := rfl

@[simp] theorem State.setBit_pending (s : State) (f : Field) (n : Nat) (b : Bool) : (s.setBit f n b).pending = s.pending := rfl
@[simp] theorem State.setBit_frozen (s : State) (f : Field) (n : Nat) (b : Bool) : (s.setBit f n b).frozen = s.frozen := rfl
@[simp] theorem State.setBit_posted (s : State) (f : Field) (n : Nat) (b : Bool) : (s.setBit f n b).posted = s.posted := rfl
@[simp] theorem State.setBit_escs (s : State) (f : Field) (n : Nat) (b : Bool) : (s.setBit f n b).escs = s.escs := rfl
@[simp] theorem State.setBit_tb (s : State) (f : Field) (n : Nat) (b : Bool) : (s.setBit f n b).tb = s.tb := rfl
@[simp] theorem State.setBit_grid (s : State) (f : Field) (n : Nat) (b : Bool) : (s.setBit f n b).grid = s.grid := rfl
@[simp] theorem State.setBit_once (s : State) (f : Field) (n : Nat) (b : Bool) : (s.setBit f n b).once = s.once := rfl
@[simp] theorem State.setBit_cb (s : State) (f : Field) (n : Nat) (b : Bool) : (s.setBit f n b).cb = s.cb := rfl
@[simp] theorem State.setBit_fb (s : State) (f : Field) (n : Nat) (b : Bool) : (s.setBit f n b).fb = s.fb := rfl
@[simp] theorem State.setBit_tl (s : State) (f : Field) (n : Nat) (b : Bool) : (s.setBit f n b).tl = s.tl := rfl
@[simp] theorem State.setBit_grp (s : State) (f : Field) (n : Nat) (b : Bool) : (s.setBit f n b).grp = s.grp := rfl
@[simp] theorem State.setBit_mp (s : State) (f : Field) (n : Nat) (b : Bool) : (s.setBit f n b).mp = s.mp := rfl
@[simp] theorem State.setBit_sv (s : State) (f : Field) (n : Nat) (b : Bool) : (s.setBit f n b).sv = s.sv := rfl
@[simp] theorem State.setBit_sep (s : State) (f : Field) (n : Nat) (b : Bool) : (s.setBit f n b).sep = s.sep := rfl
@[simp] theorem State.setBit_sch (s : State) (f : Field) (n : Nat) (b : Bool) : (s.setBit f n b).sch = s.sch := rfl
@[simp] theorem State.setBit_me (s : State) (f : Field) (n : Nat) (b : Bool) : (s.setBit f n b).me = s.me := rfl
@[simp] theorem State.setBit_hi (s : State) (f : Field) (n : Nat) (b : Bool) : (s.setBit f n b).hi = s.hi := rfl
@[simp] theorem State.setBit_gr (s : State) (f : Field) (n : Nat) (b : Bool) : (s.setBit f n b).gr = s.gr := rfl
@[simp] theorem State.setBit_tw (s : State) (f : Field) (n : Nat) (b : Bool) : (s.setBit f n b).tw = s.tw := rfl
@[simp] theorem State.setBit_ev (s : State) (f : Field) (n : Nat) (b : Bool) : (s.setBit f n b).ev = s.ev := rfl
@[simp] theorem State.setBit_bb (s : State) (f : Field) (n : Nat) (b : Bool) : (s.setBit f n b).bb = s.bb := rfl
@[simp] theorem State.setBit_inj (s : State) (f : Field) (n : Nat) (b : Bool) : (s.setBit f n b).inj = s.inj := rfl
@[simp] theorem State.setBit_ad (s : State) (f : Field) (n : Nat) (b : Bool) : (s.setBit f n b).ad = s.ad := rfl
@[simp] theorem State.setBit_sio (s : State) (f : Field) (n : Nat) (b : Bool) : (s.setBit f n b).sio = s.sio := rfl
@[simp] theorem State.setBit_pw (s : State) (f : Field) (n : Nat) (b : Bool) : (s.setBit f n b).pw = s.pw := rfl
@[simp] theorem State.setBit_arb (s : State) (f : Field) (n : Nat) (b : Bool) : (s.setBit f n b).arb = s.arb := rfl
@[simp] theorem State.setBit_free (s : State) (f : Field) (n : Nat) (b : Bool) : (s.setBit f n b).free = s.free := rfl
@[simp] theorem State.setBit_readData (s : State) (f : Field) (n : Nat) (b : Bool) : (s.setBit f n b).readData = s.readData := rfl
@[simp] theorem State.setBit_hiLatch (s : State) (f : Field) (n : Nat) (b : Bool) : (s.setBit f n b).hiLatch = s.hiLatch := rfl
@[simp] theorem State.setBit_wrStage (s : State) (f : Field) (n : Nat) (b : Bool) : (s.setBit f n b).wrStage = s.wrStage := rfl
@[simp] theorem State.setBit_view (s : State) (f : Field) (n : Nat) (b : Bool) : (s.setBit f n b).view = s.view := rfl
@[simp] theorem State.setBit_flips (s : State) (f : Field) (n : Nat) (b : Bool) : (s.setBit f n b).flips = s.flips := rfl

@[simp] theorem State.seti_pending (s : State) (f : Field) (n : Nat) (v : Int) : (s.seti f n v).pending = s.pending := rfl
@[simp] theorem State.seti_frozen (s : State) (f : Field) (n : Nat) (v : Int) : (s.seti f n v).frozen = s.frozen := rfl
@[simp] theorem State.seti_posted (s : State) (f : Field) (n : Nat) (v : Int) : (s.seti f n v).posted = s.posted := rfl
@[simp] theorem State.seti_escs (s : State) (f : Field) (n : Nat) (v : Int) : (s.seti f n v).escs = s.escs := rfl
@[simp] theorem State.seti_tb (s : State) (f : Field) (n : Nat) (v : Int) : (s.seti f n v).tb = s.tb := rfl
@[simp] theorem State.seti_grid (s : State) (f : Field) (n : Nat) (v : Int) : (s.seti f n v).grid = s.grid := rfl
@[simp] theorem State.seti_once (s : State) (f : Field) (n : Nat) (v : Int) : (s.seti f n v).once = s.once := rfl
@[simp] theorem State.seti_cb (s : State) (f : Field) (n : Nat) (v : Int) : (s.seti f n v).cb = s.cb := rfl
@[simp] theorem State.seti_fb (s : State) (f : Field) (n : Nat) (v : Int) : (s.seti f n v).fb = s.fb := rfl
@[simp] theorem State.seti_tl (s : State) (f : Field) (n : Nat) (v : Int) : (s.seti f n v).tl = s.tl := rfl
@[simp] theorem State.seti_grp (s : State) (f : Field) (n : Nat) (v : Int) : (s.seti f n v).grp = s.grp := rfl
@[simp] theorem State.seti_mp (s : State) (f : Field) (n : Nat) (v : Int) : (s.seti f n v).mp = s.mp := rfl
@[simp] theorem State.seti_sv (s : State) (f : Field) (n : Nat) (v : Int) : (s.seti f n v).sv = s.sv := rfl
@[simp] theorem State.seti_sep (s : State) (f : Field) (n : Nat) (v : Int) : (s.seti f n v).sep = s.sep := rfl
@[simp] theorem State.seti_sch (s : State) (f : Field) (n : Nat) (v : Int) : (s.seti f n v).sch = s.sch := rfl
@[simp] theorem State.seti_me (s : State) (f : Field) (n : Nat) (v : Int) : (s.seti f n v).me = s.me := rfl
@[simp] theorem State.seti_hi (s : State) (f : Field) (n : Nat) (v : Int) : (s.seti f n v).hi = s.hi := rfl
@[simp] theorem State.seti_gr (s : State) (f : Field) (n : Nat) (v : Int) : (s.seti f n v).gr = s.gr := rfl
@[simp] theorem State.seti_tw (s : State) (f : Field) (n : Nat) (v : Int) : (s.seti f n v).tw = s.tw := rfl
@[simp] theorem State.seti_ev (s : State) (f : Field) (n : Nat) (v : Int) : (s.seti f n v).ev = s.ev := rfl
@[simp] theorem State.seti_bb (s : State) (f : Field) (n : Nat) (v : Int) : (s.seti f n v).bb = s.bb := rfl
@[simp] theorem State.seti_inj (s : State) (f : Field) (n : Nat) (v : Int) : (s.seti f n v).inj = s.inj := rfl
@[simp] theorem State.seti_ad (s : State) (f : Field) (n : Nat) (v : Int) : (s.seti f n v).ad = s.ad := rfl
@[simp] theorem State.seti_sio (s : State) (f : Field) (n : Nat) (v : Int) : (s.seti f n v).sio = s.sio := rfl
@[simp] theorem State.seti_pw (s : State) (f : Field) (n : Nat) (v : Int) : (s.seti f n v).pw = s.pw := rfl
@[simp] theorem State.seti_arb (s : State) (f : Field) (n : Nat) (v : Int) : (s.seti f n v).arb = s.arb := rfl
@[simp] theorem State.seti_free (s : State) (f : Field) (n : Nat) (v : Int) : (s.seti f n v).free = s.free := rfl
@[simp] theorem State.seti_readData (s : State) (f : Field) (n : Nat) (v : Int) : (s.seti f n v).readData = s.readData := rfl
@[simp] theorem State.seti_hiLatch (s : State) (f : Field) (n : Nat) (v : Int) : (s.seti f n v).hiLatch = s.hiLatch := rfl
@[simp] theorem State.seti_wrStage (s : State) (f : Field) (n : Nat) (v : Int) : (s.seti f n v).wrStage = s.wrStage := rfl
@[simp] theorem State.seti_view (s : State) (f : Field) (n : Nat) (v : Int) : (s.seti f n v).view = s.view := rfl
@[simp] theorem State.seti_flips (s : State) (f : Field) (n : Nat) (v : Int) : (s.seti f n v).flips = s.flips := rfl

@[simp] theorem State.add_pending (s : State) (f : Field) (n k : Nat) : (s.add f n k).pending = s.pending := rfl
@[simp] theorem State.add_frozen (s : State) (f : Field) (n k : Nat) : (s.add f n k).frozen = s.frozen := rfl
@[simp] theorem State.add_posted (s : State) (f : Field) (n k : Nat) : (s.add f n k).posted = s.posted := rfl
@[simp] theorem State.add_escs (s : State) (f : Field) (n k : Nat) : (s.add f n k).escs = s.escs := rfl
@[simp] theorem State.add_tb (s : State) (f : Field) (n k : Nat) : (s.add f n k).tb = s.tb := rfl
@[simp] theorem State.add_grid (s : State) (f : Field) (n k : Nat) : (s.add f n k).grid = s.grid := rfl
@[simp] theorem State.add_once (s : State) (f : Field) (n k : Nat) : (s.add f n k).once = s.once := rfl
@[simp] theorem State.add_cb (s : State) (f : Field) (n k : Nat) : (s.add f n k).cb = s.cb := rfl
@[simp] theorem State.add_fb (s : State) (f : Field) (n k : Nat) : (s.add f n k).fb = s.fb := rfl
@[simp] theorem State.add_tl (s : State) (f : Field) (n k : Nat) : (s.add f n k).tl = s.tl := rfl
@[simp] theorem State.add_grp (s : State) (f : Field) (n k : Nat) : (s.add f n k).grp = s.grp := rfl
@[simp] theorem State.add_mp (s : State) (f : Field) (n k : Nat) : (s.add f n k).mp = s.mp := rfl
@[simp] theorem State.add_sv (s : State) (f : Field) (n k : Nat) : (s.add f n k).sv = s.sv := rfl
@[simp] theorem State.add_sep (s : State) (f : Field) (n k : Nat) : (s.add f n k).sep = s.sep := rfl
@[simp] theorem State.add_sch (s : State) (f : Field) (n k : Nat) : (s.add f n k).sch = s.sch := rfl
@[simp] theorem State.add_me (s : State) (f : Field) (n k : Nat) : (s.add f n k).me = s.me := rfl
@[simp] theorem State.add_hi (s : State) (f : Field) (n k : Nat) : (s.add f n k).hi = s.hi := rfl
@[simp] theorem State.add_gr (s : State) (f : Field) (n k : Nat) : (s.add f n k).gr = s.gr := rfl
@[simp] theorem State.add_tw (s : State) (f : Field) (n k : Nat) : (s.add f n k).tw = s.tw := rfl
@[simp] theorem State.add_ev (s : State) (f : Field) (n k : Nat) : (s.add f n k).ev = s.ev := rfl
@[simp] theorem State.add_bb (s : State) (f : Field) (n k : Nat) : (s.add f n k).bb = s.bb := rfl
@[simp] theorem State.add_inj (s : State) (f : Field) (n k : Nat) : (s.add f n k).inj = s.inj := rfl
@[simp] theorem State.add_ad (s : State) (f : Field) (n k : Nat) : (s.add f n k).ad = s.ad := rfl
@[simp] theorem State.add_sio (s : State) (f : Field) (n k : Nat) : (s.add f n k).sio = s.sio := rfl
@[simp] theorem State.add_pw (s : State) (f : Field) (n k : Nat) : (s.add f n k).pw = s.pw := rfl
@[simp] theorem State.add_arb (s : State) (f : Field) (n k : Nat) : (s.add f n k).arb = s.arb := rfl
@[simp] theorem State.add_free (s : State) (f : Field) (n k : Nat) : (s.add f n k).free = s.free := rfl
@[simp] theorem State.add_readData (s : State) (f : Field) (n k : Nat) : (s.add f n k).readData = s.readData := rfl
@[simp] theorem State.add_hiLatch (s : State) (f : Field) (n k : Nat) : (s.add f n k).hiLatch = s.hiLatch := rfl
@[simp] theorem State.add_wrStage (s : State) (f : Field) (n k : Nat) : (s.add f n k).wrStage = s.wrStage := rfl
@[simp] theorem State.add_view (s : State) (f : Field) (n k : Nat) : (s.add f n k).view = s.view := rfl
@[simp] theorem State.add_flips (s : State) (f : Field) (n k : Nat) : (s.add f n k).flips = s.flips := rfl

@[simp] theorem State.inc_pending (s : State) (f : Field) (n : Nat) : (s.inc f n).pending = s.pending := rfl
@[simp] theorem State.inc_frozen (s : State) (f : Field) (n : Nat) : (s.inc f n).frozen = s.frozen := rfl
@[simp] theorem State.inc_posted (s : State) (f : Field) (n : Nat) : (s.inc f n).posted = s.posted := rfl
@[simp] theorem State.inc_escs (s : State) (f : Field) (n : Nat) : (s.inc f n).escs = s.escs := rfl
@[simp] theorem State.inc_tb (s : State) (f : Field) (n : Nat) : (s.inc f n).tb = s.tb := rfl
@[simp] theorem State.inc_grid (s : State) (f : Field) (n : Nat) : (s.inc f n).grid = s.grid := rfl
@[simp] theorem State.inc_once (s : State) (f : Field) (n : Nat) : (s.inc f n).once = s.once := rfl
@[simp] theorem State.inc_cb (s : State) (f : Field) (n : Nat) : (s.inc f n).cb = s.cb := rfl
@[simp] theorem State.inc_fb (s : State) (f : Field) (n : Nat) : (s.inc f n).fb = s.fb := rfl
@[simp] theorem State.inc_tl (s : State) (f : Field) (n : Nat) : (s.inc f n).tl = s.tl := rfl
@[simp] theorem State.inc_grp (s : State) (f : Field) (n : Nat) : (s.inc f n).grp = s.grp := rfl
@[simp] theorem State.inc_mp (s : State) (f : Field) (n : Nat) : (s.inc f n).mp = s.mp := rfl
@[simp] theorem State.inc_sv (s : State) (f : Field) (n : Nat) : (s.inc f n).sv = s.sv := rfl
@[simp] theorem State.inc_sep (s : State) (f : Field) (n : Nat) : (s.inc f n).sep = s.sep := rfl
@[simp] theorem State.inc_sch (s : State) (f : Field) (n : Nat) : (s.inc f n).sch = s.sch := rfl
@[simp] theorem State.inc_me (s : State) (f : Field) (n : Nat) : (s.inc f n).me = s.me := rfl
@[simp] theorem State.inc_hi (s : State) (f : Field) (n : Nat) : (s.inc f n).hi = s.hi := rfl
@[simp] theorem State.inc_gr (s : State) (f : Field) (n : Nat) : (s.inc f n).gr = s.gr := rfl
@[simp] theorem State.inc_tw (s : State) (f : Field) (n : Nat) : (s.inc f n).tw = s.tw := rfl
@[simp] theorem State.inc_ev (s : State) (f : Field) (n : Nat) : (s.inc f n).ev = s.ev := rfl
@[simp] theorem State.inc_bb (s : State) (f : Field) (n : Nat) : (s.inc f n).bb = s.bb := rfl
@[simp] theorem State.inc_inj (s : State) (f : Field) (n : Nat) : (s.inc f n).inj = s.inj := rfl
@[simp] theorem State.inc_ad (s : State) (f : Field) (n : Nat) : (s.inc f n).ad = s.ad := rfl
@[simp] theorem State.inc_sio (s : State) (f : Field) (n : Nat) : (s.inc f n).sio = s.sio := rfl
@[simp] theorem State.inc_pw (s : State) (f : Field) (n : Nat) : (s.inc f n).pw = s.pw := rfl
@[simp] theorem State.inc_arb (s : State) (f : Field) (n : Nat) : (s.inc f n).arb = s.arb := rfl
@[simp] theorem State.inc_free (s : State) (f : Field) (n : Nat) : (s.inc f n).free = s.free := rfl
@[simp] theorem State.inc_readData (s : State) (f : Field) (n : Nat) : (s.inc f n).readData = s.readData := rfl
@[simp] theorem State.inc_hiLatch (s : State) (f : Field) (n : Nat) : (s.inc f n).hiLatch = s.hiLatch := rfl
@[simp] theorem State.inc_wrStage (s : State) (f : Field) (n : Nat) : (s.inc f n).wrStage = s.wrStage := rfl
@[simp] theorem State.inc_view (s : State) (f : Field) (n : Nat) : (s.inc f n).view = s.view := rfl
@[simp] theorem State.inc_flips (s : State) (f : Field) (n : Nat) : (s.inc f n).flips = s.flips := rfl

@[simp] theorem State.raiseTo_pending (s : State) (f : Field) (n v : Nat) : (s.raiseTo f n v).pending = s.pending := rfl
@[simp] theorem State.raiseTo_frozen (s : State) (f : Field) (n v : Nat) : (s.raiseTo f n v).frozen = s.frozen := rfl
@[simp] theorem State.raiseTo_posted (s : State) (f : Field) (n v : Nat) : (s.raiseTo f n v).posted = s.posted := rfl
@[simp] theorem State.raiseTo_escs (s : State) (f : Field) (n v : Nat) : (s.raiseTo f n v).escs = s.escs := rfl
@[simp] theorem State.raiseTo_tb (s : State) (f : Field) (n v : Nat) : (s.raiseTo f n v).tb = s.tb := rfl
@[simp] theorem State.raiseTo_grid (s : State) (f : Field) (n v : Nat) : (s.raiseTo f n v).grid = s.grid := rfl
@[simp] theorem State.raiseTo_once (s : State) (f : Field) (n v : Nat) : (s.raiseTo f n v).once = s.once := rfl
@[simp] theorem State.raiseTo_cb (s : State) (f : Field) (n v : Nat) : (s.raiseTo f n v).cb = s.cb := rfl
@[simp] theorem State.raiseTo_fb (s : State) (f : Field) (n v : Nat) : (s.raiseTo f n v).fb = s.fb := rfl
@[simp] theorem State.raiseTo_tl (s : State) (f : Field) (n v : Nat) : (s.raiseTo f n v).tl = s.tl := rfl
@[simp] theorem State.raiseTo_grp (s : State) (f : Field) (n v : Nat) : (s.raiseTo f n v).grp = s.grp := rfl
@[simp] theorem State.raiseTo_mp (s : State) (f : Field) (n v : Nat) : (s.raiseTo f n v).mp = s.mp := rfl
@[simp] theorem State.raiseTo_sv (s : State) (f : Field) (n v : Nat) : (s.raiseTo f n v).sv = s.sv := rfl
@[simp] theorem State.raiseTo_sep (s : State) (f : Field) (n v : Nat) : (s.raiseTo f n v).sep = s.sep := rfl
@[simp] theorem State.raiseTo_sch (s : State) (f : Field) (n v : Nat) : (s.raiseTo f n v).sch = s.sch := rfl
@[simp] theorem State.raiseTo_me (s : State) (f : Field) (n v : Nat) : (s.raiseTo f n v).me = s.me := rfl
@[simp] theorem State.raiseTo_hi (s : State) (f : Field) (n v : Nat) : (s.raiseTo f n v).hi = s.hi := rfl
@[simp] theorem State.raiseTo_gr (s : State) (f : Field) (n v : Nat) : (s.raiseTo f n v).gr = s.gr := rfl
@[simp] theorem State.raiseTo_tw (s : State) (f : Field) (n v : Nat) : (s.raiseTo f n v).tw = s.tw := rfl
@[simp] theorem State.raiseTo_ev (s : State) (f : Field) (n v : Nat) : (s.raiseTo f n v).ev = s.ev := rfl
@[simp] theorem State.raiseTo_bb (s : State) (f : Field) (n v : Nat) : (s.raiseTo f n v).bb = s.bb := rfl
@[simp] theorem State.raiseTo_inj (s : State) (f : Field) (n v : Nat) : (s.raiseTo f n v).inj = s.inj := rfl
@[simp] theorem State.raiseTo_ad (s : State) (f : Field) (n v : Nat) : (s.raiseTo f n v).ad = s.ad := rfl
@[simp] theorem State.raiseTo_sio (s : State) (f : Field) (n v : Nat) : (s.raiseTo f n v).sio = s.sio := rfl
@[simp] theorem State.raiseTo_pw (s : State) (f : Field) (n v : Nat) : (s.raiseTo f n v).pw = s.pw := rfl
@[simp] theorem State.raiseTo_arb (s : State) (f : Field) (n v : Nat) : (s.raiseTo f n v).arb = s.arb := rfl
@[simp] theorem State.raiseTo_free (s : State) (f : Field) (n v : Nat) : (s.raiseTo f n v).free = s.free := rfl
@[simp] theorem State.raiseTo_readData (s : State) (f : Field) (n v : Nat) : (s.raiseTo f n v).readData = s.readData := rfl
@[simp] theorem State.raiseTo_hiLatch (s : State) (f : Field) (n v : Nat) : (s.raiseTo f n v).hiLatch = s.hiLatch := rfl
@[simp] theorem State.raiseTo_wrStage (s : State) (f : Field) (n v : Nat) : (s.raiseTo f n v).wrStage = s.wrStage := rfl
@[simp] theorem State.raiseTo_view (s : State) (f : Field) (n v : Nat) : (s.raiseTo f n v).view = s.view := rfl
@[simp] theorem State.raiseTo_flips (s : State) (f : Field) (n v : Nat) : (s.raiseTo f n v).flips = s.flips := rfl

@[simp] theorem State.set64_pending (s : State) (f g : Field) (n : Nat) (v : Int) : (s.set64 f g n v).pending = s.pending := rfl
@[simp] theorem State.set64_frozen (s : State) (f g : Field) (n : Nat) (v : Int) : (s.set64 f g n v).frozen = s.frozen := rfl
@[simp] theorem State.set64_posted (s : State) (f g : Field) (n : Nat) (v : Int) : (s.set64 f g n v).posted = s.posted := rfl
@[simp] theorem State.set64_escs (s : State) (f g : Field) (n : Nat) (v : Int) : (s.set64 f g n v).escs = s.escs := rfl
@[simp] theorem State.set64_tb (s : State) (f g : Field) (n : Nat) (v : Int) : (s.set64 f g n v).tb = s.tb := rfl
@[simp] theorem State.set64_grid (s : State) (f g : Field) (n : Nat) (v : Int) : (s.set64 f g n v).grid = s.grid := rfl
@[simp] theorem State.set64_once (s : State) (f g : Field) (n : Nat) (v : Int) : (s.set64 f g n v).once = s.once := rfl
@[simp] theorem State.set64_cb (s : State) (f g : Field) (n : Nat) (v : Int) : (s.set64 f g n v).cb = s.cb := rfl
@[simp] theorem State.set64_fb (s : State) (f g : Field) (n : Nat) (v : Int) : (s.set64 f g n v).fb = s.fb := rfl
@[simp] theorem State.set64_tl (s : State) (f g : Field) (n : Nat) (v : Int) : (s.set64 f g n v).tl = s.tl := rfl
@[simp] theorem State.set64_grp (s : State) (f g : Field) (n : Nat) (v : Int) : (s.set64 f g n v).grp = s.grp := rfl
@[simp] theorem State.set64_mp (s : State) (f g : Field) (n : Nat) (v : Int) : (s.set64 f g n v).mp = s.mp := rfl
@[simp] theorem State.set64_sv (s : State) (f g : Field) (n : Nat) (v : Int) : (s.set64 f g n v).sv = s.sv := rfl
@[simp] theorem State.set64_sep (s : State) (f g : Field) (n : Nat) (v : Int) : (s.set64 f g n v).sep = s.sep := rfl
@[simp] theorem State.set64_sch (s : State) (f g : Field) (n : Nat) (v : Int) : (s.set64 f g n v).sch = s.sch := rfl
@[simp] theorem State.set64_me (s : State) (f g : Field) (n : Nat) (v : Int) : (s.set64 f g n v).me = s.me := rfl
@[simp] theorem State.set64_hi (s : State) (f g : Field) (n : Nat) (v : Int) : (s.set64 f g n v).hi = s.hi := rfl
@[simp] theorem State.set64_gr (s : State) (f g : Field) (n : Nat) (v : Int) : (s.set64 f g n v).gr = s.gr := rfl
@[simp] theorem State.set64_tw (s : State) (f g : Field) (n : Nat) (v : Int) : (s.set64 f g n v).tw = s.tw := rfl
@[simp] theorem State.set64_ev (s : State) (f g : Field) (n : Nat) (v : Int) : (s.set64 f g n v).ev = s.ev := rfl
@[simp] theorem State.set64_bb (s : State) (f g : Field) (n : Nat) (v : Int) : (s.set64 f g n v).bb = s.bb := rfl
@[simp] theorem State.set64_inj (s : State) (f g : Field) (n : Nat) (v : Int) : (s.set64 f g n v).inj = s.inj := rfl
@[simp] theorem State.set64_ad (s : State) (f g : Field) (n : Nat) (v : Int) : (s.set64 f g n v).ad = s.ad := rfl
@[simp] theorem State.set64_sio (s : State) (f g : Field) (n : Nat) (v : Int) : (s.set64 f g n v).sio = s.sio := rfl
@[simp] theorem State.set64_pw (s : State) (f g : Field) (n : Nat) (v : Int) : (s.set64 f g n v).pw = s.pw := rfl
@[simp] theorem State.set64_arb (s : State) (f g : Field) (n : Nat) (v : Int) : (s.set64 f g n v).arb = s.arb := rfl
@[simp] theorem State.set64_free (s : State) (f g : Field) (n : Nat) (v : Int) : (s.set64 f g n v).free = s.free := rfl
@[simp] theorem State.set64_readData (s : State) (f g : Field) (n : Nat) (v : Int) : (s.set64 f g n v).readData = s.readData := rfl
@[simp] theorem State.set64_hiLatch (s : State) (f g : Field) (n : Nat) (v : Int) : (s.set64 f g n v).hiLatch = s.hiLatch := rfl
@[simp] theorem State.set64_wrStage (s : State) (f g : Field) (n : Nat) (v : Int) : (s.set64 f g n v).wrStage = s.wrStage := rfl
@[simp] theorem State.set64_view (s : State) (f g : Field) (n : Nat) (v : Int) : (s.set64 f g n v).view = s.view := rfl
@[simp] theorem State.set64_flips (s : State) (f g : Field) (n : Nat) (v : Int) : (s.set64 f g n v).flips = s.flips := rfl

@[simp] theorem State.set_regs (s : State) (f : Field) (n v : Nat) : (s.set f n v).regs = s.regs.set f n v := rfl

/-! ### Updates of one part -/

@[simp] theorem State.updAd_pending (s : State) (f : Adc → Adc) : (s.updAd f).pending = s.pending := rfl
@[simp] theorem State.updAd_regs (s : State) (f : Adc → Adc) : (s.updAd f).regs = s.regs := rfl
@[simp] theorem State.updAd_frozen (s : State) (f : Adc → Adc) : (s.updAd f).frozen = s.frozen := rfl
@[simp] theorem State.updAd_posted (s : State) (f : Adc → Adc) : (s.updAd f).posted = s.posted := rfl
@[simp] theorem State.updAd_escs (s : State) (f : Adc → Adc) : (s.updAd f).escs = s.escs := rfl
@[simp] theorem State.updAd_tb (s : State) (f : Adc → Adc) : (s.updAd f).tb = s.tb := rfl
@[simp] theorem State.updAd_grid (s : State) (f : Adc → Adc) : (s.updAd f).grid = s.grid := rfl
@[simp] theorem State.updAd_once (s : State) (f : Adc → Adc) : (s.updAd f).once = s.once := rfl
@[simp] theorem State.updAd_cb (s : State) (f : Adc → Adc) : (s.updAd f).cb = s.cb := rfl
@[simp] theorem State.updAd_fb (s : State) (f : Adc → Adc) : (s.updAd f).fb = s.fb := rfl
@[simp] theorem State.updAd_tl (s : State) (f : Adc → Adc) : (s.updAd f).tl = s.tl := rfl
@[simp] theorem State.updAd_grp (s : State) (f : Adc → Adc) : (s.updAd f).grp = s.grp := rfl
@[simp] theorem State.updAd_mp (s : State) (f : Adc → Adc) : (s.updAd f).mp = s.mp := rfl
@[simp] theorem State.updAd_sv (s : State) (f : Adc → Adc) : (s.updAd f).sv = s.sv := rfl
@[simp] theorem State.updAd_sep (s : State) (f : Adc → Adc) : (s.updAd f).sep = s.sep := rfl
@[simp] theorem State.updAd_sch (s : State) (f : Adc → Adc) : (s.updAd f).sch = s.sch := rfl
@[simp] theorem State.updAd_me (s : State) (f : Adc → Adc) : (s.updAd f).me = s.me := rfl
@[simp] theorem State.updAd_hi (s : State) (f : Adc → Adc) : (s.updAd f).hi = s.hi := rfl
@[simp] theorem State.updAd_gr (s : State) (f : Adc → Adc) : (s.updAd f).gr = s.gr := rfl
@[simp] theorem State.updAd_tw (s : State) (f : Adc → Adc) : (s.updAd f).tw = s.tw := rfl
@[simp] theorem State.updAd_ev (s : State) (f : Adc → Adc) : (s.updAd f).ev = s.ev := rfl
@[simp] theorem State.updAd_bb (s : State) (f : Adc → Adc) : (s.updAd f).bb = s.bb := rfl
@[simp] theorem State.updAd_inj (s : State) (f : Adc → Adc) : (s.updAd f).inj = s.inj := rfl
@[simp] theorem State.updAd_ad (s : State) (f : Adc → Adc) : (s.updAd f).ad = f s.ad := rfl
@[simp] theorem State.updAd_sio (s : State) (f : Adc → Adc) : (s.updAd f).sio = s.sio := rfl
@[simp] theorem State.updAd_pw (s : State) (f : Adc → Adc) : (s.updAd f).pw = s.pw := rfl
@[simp] theorem State.updAd_arb (s : State) (f : Adc → Adc) : (s.updAd f).arb = s.arb := rfl
@[simp] theorem State.updAd_free (s : State) (f : Adc → Adc) : (s.updAd f).free = s.free := rfl
@[simp] theorem State.updAd_readData (s : State) (f : Adc → Adc) : (s.updAd f).readData = s.readData := rfl
@[simp] theorem State.updAd_hiLatch (s : State) (f : Adc → Adc) : (s.updAd f).hiLatch = s.hiLatch := rfl
@[simp] theorem State.updAd_wrStage (s : State) (f : Adc → Adc) : (s.updAd f).wrStage = s.wrStage := rfl
@[simp] theorem State.updAd_view (s : State) (f : Adc → Adc) : (s.updAd f).view = s.view := rfl
@[simp] theorem State.updAd_flips (s : State) (f : Adc → Adc) : (s.updAd f).flips = s.flips := rfl

@[simp] theorem State.updGr_pending (s : State) (f : Granary → Granary) : (s.updGr f).pending = s.pending := rfl
@[simp] theorem State.updGr_regs (s : State) (f : Granary → Granary) : (s.updGr f).regs = s.regs := rfl
@[simp] theorem State.updGr_frozen (s : State) (f : Granary → Granary) : (s.updGr f).frozen = s.frozen := rfl
@[simp] theorem State.updGr_posted (s : State) (f : Granary → Granary) : (s.updGr f).posted = s.posted := rfl
@[simp] theorem State.updGr_escs (s : State) (f : Granary → Granary) : (s.updGr f).escs = s.escs := rfl
@[simp] theorem State.updGr_tb (s : State) (f : Granary → Granary) : (s.updGr f).tb = s.tb := rfl
@[simp] theorem State.updGr_grid (s : State) (f : Granary → Granary) : (s.updGr f).grid = s.grid := rfl
@[simp] theorem State.updGr_once (s : State) (f : Granary → Granary) : (s.updGr f).once = s.once := rfl
@[simp] theorem State.updGr_cb (s : State) (f : Granary → Granary) : (s.updGr f).cb = s.cb := rfl
@[simp] theorem State.updGr_fb (s : State) (f : Granary → Granary) : (s.updGr f).fb = s.fb := rfl
@[simp] theorem State.updGr_tl (s : State) (f : Granary → Granary) : (s.updGr f).tl = s.tl := rfl
@[simp] theorem State.updGr_grp (s : State) (f : Granary → Granary) : (s.updGr f).grp = s.grp := rfl
@[simp] theorem State.updGr_mp (s : State) (f : Granary → Granary) : (s.updGr f).mp = s.mp := rfl
@[simp] theorem State.updGr_sv (s : State) (f : Granary → Granary) : (s.updGr f).sv = s.sv := rfl
@[simp] theorem State.updGr_sep (s : State) (f : Granary → Granary) : (s.updGr f).sep = s.sep := rfl
@[simp] theorem State.updGr_sch (s : State) (f : Granary → Granary) : (s.updGr f).sch = s.sch := rfl
@[simp] theorem State.updGr_me (s : State) (f : Granary → Granary) : (s.updGr f).me = s.me := rfl
@[simp] theorem State.updGr_hi (s : State) (f : Granary → Granary) : (s.updGr f).hi = s.hi := rfl
@[simp] theorem State.updGr_gr (s : State) (f : Granary → Granary) : (s.updGr f).gr = f s.gr := rfl
@[simp] theorem State.updGr_tw (s : State) (f : Granary → Granary) : (s.updGr f).tw = s.tw := rfl
@[simp] theorem State.updGr_ev (s : State) (f : Granary → Granary) : (s.updGr f).ev = s.ev := rfl
@[simp] theorem State.updGr_bb (s : State) (f : Granary → Granary) : (s.updGr f).bb = s.bb := rfl
@[simp] theorem State.updGr_inj (s : State) (f : Granary → Granary) : (s.updGr f).inj = s.inj := rfl
@[simp] theorem State.updGr_ad (s : State) (f : Granary → Granary) : (s.updGr f).ad = s.ad := rfl
@[simp] theorem State.updGr_sio (s : State) (f : Granary → Granary) : (s.updGr f).sio = s.sio := rfl
@[simp] theorem State.updGr_pw (s : State) (f : Granary → Granary) : (s.updGr f).pw = s.pw := rfl
@[simp] theorem State.updGr_arb (s : State) (f : Granary → Granary) : (s.updGr f).arb = s.arb := rfl
@[simp] theorem State.updGr_free (s : State) (f : Granary → Granary) : (s.updGr f).free = s.free := rfl
@[simp] theorem State.updGr_readData (s : State) (f : Granary → Granary) : (s.updGr f).readData = s.readData := rfl
@[simp] theorem State.updGr_hiLatch (s : State) (f : Granary → Granary) : (s.updGr f).hiLatch = s.hiLatch := rfl
@[simp] theorem State.updGr_wrStage (s : State) (f : Granary → Granary) : (s.updGr f).wrStage = s.wrStage := rfl
@[simp] theorem State.updGr_view (s : State) (f : Granary → Granary) : (s.updGr f).view = s.view := rfl
@[simp] theorem State.updGr_flips (s : State) (f : Granary → Granary) : (s.updGr f).flips = s.flips := rfl

@[simp] theorem State.updHi_pending (s : State) (f : HostIf → HostIf) : (s.updHi f).pending = s.pending := rfl
@[simp] theorem State.updHi_regs (s : State) (f : HostIf → HostIf) : (s.updHi f).regs = s.regs := rfl
@[simp] theorem State.updHi_frozen (s : State) (f : HostIf → HostIf) : (s.updHi f).frozen = s.frozen := rfl
@[simp] theorem State.updHi_posted (s : State) (f : HostIf → HostIf) : (s.updHi f).posted = s.posted := rfl
@[simp] theorem State.updHi_escs (s : State) (f : HostIf → HostIf) : (s.updHi f).escs = s.escs := rfl
@[simp] theorem State.updHi_tb (s : State) (f : HostIf → HostIf) : (s.updHi f).tb = s.tb := rfl
@[simp] theorem State.updHi_grid (s : State) (f : HostIf → HostIf) : (s.updHi f).grid = s.grid := rfl
@[simp] theorem State.updHi_once (s : State) (f : HostIf → HostIf) : (s.updHi f).once = s.once := rfl
@[simp] theorem State.updHi_cb (s : State) (f : HostIf → HostIf) : (s.updHi f).cb = s.cb := rfl
@[simp] theorem State.updHi_fb (s : State) (f : HostIf → HostIf) : (s.updHi f).fb = s.fb := rfl
@[simp] theorem State.updHi_tl (s : State) (f : HostIf → HostIf) : (s.updHi f).tl = s.tl := rfl
@[simp] theorem State.updHi_grp (s : State) (f : HostIf → HostIf) : (s.updHi f).grp = s.grp := rfl
@[simp] theorem State.updHi_mp (s : State) (f : HostIf → HostIf) : (s.updHi f).mp = s.mp := rfl
@[simp] theorem State.updHi_sv (s : State) (f : HostIf → HostIf) : (s.updHi f).sv = s.sv := rfl
@[simp] theorem State.updHi_sep (s : State) (f : HostIf → HostIf) : (s.updHi f).sep = s.sep := rfl
@[simp] theorem State.updHi_sch (s : State) (f : HostIf → HostIf) : (s.updHi f).sch = s.sch := rfl
@[simp] theorem State.updHi_me (s : State) (f : HostIf → HostIf) : (s.updHi f).me = s.me := rfl
@[simp] theorem State.updHi_hi (s : State) (f : HostIf → HostIf) : (s.updHi f).hi = f s.hi := rfl
@[simp] theorem State.updHi_gr (s : State) (f : HostIf → HostIf) : (s.updHi f).gr = s.gr := rfl
@[simp] theorem State.updHi_tw (s : State) (f : HostIf → HostIf) : (s.updHi f).tw = s.tw := rfl
@[simp] theorem State.updHi_ev (s : State) (f : HostIf → HostIf) : (s.updHi f).ev = s.ev := rfl
@[simp] theorem State.updHi_bb (s : State) (f : HostIf → HostIf) : (s.updHi f).bb = s.bb := rfl
@[simp] theorem State.updHi_inj (s : State) (f : HostIf → HostIf) : (s.updHi f).inj = s.inj := rfl
@[simp] theorem State.updHi_ad (s : State) (f : HostIf → HostIf) : (s.updHi f).ad = s.ad := rfl
@[simp] theorem State.updHi_sio (s : State) (f : HostIf → HostIf) : (s.updHi f).sio = s.sio := rfl
@[simp] theorem State.updHi_pw (s : State) (f : HostIf → HostIf) : (s.updHi f).pw = s.pw := rfl
@[simp] theorem State.updHi_arb (s : State) (f : HostIf → HostIf) : (s.updHi f).arb = s.arb := rfl
@[simp] theorem State.updHi_free (s : State) (f : HostIf → HostIf) : (s.updHi f).free = s.free := rfl
@[simp] theorem State.updHi_readData (s : State) (f : HostIf → HostIf) : (s.updHi f).readData = s.readData := rfl
@[simp] theorem State.updHi_hiLatch (s : State) (f : HostIf → HostIf) : (s.updHi f).hiLatch = s.hiLatch := rfl
@[simp] theorem State.updHi_wrStage (s : State) (f : HostIf → HostIf) : (s.updHi f).wrStage = s.wrStage := rfl
@[simp] theorem State.updHi_view (s : State) (f : HostIf → HostIf) : (s.updHi f).view = s.view := rfl
@[simp] theorem State.updHi_flips (s : State) (f : HostIf → HostIf) : (s.updHi f).flips = s.flips := rfl

@[simp] theorem State.updTw_pending (s : State) (f : Twin → Twin) : (s.updTw f).pending = s.pending := rfl
@[simp] theorem State.updTw_regs (s : State) (f : Twin → Twin) : (s.updTw f).regs = s.regs := rfl
@[simp] theorem State.updTw_frozen (s : State) (f : Twin → Twin) : (s.updTw f).frozen = s.frozen := rfl
@[simp] theorem State.updTw_posted (s : State) (f : Twin → Twin) : (s.updTw f).posted = s.posted := rfl
@[simp] theorem State.updTw_escs (s : State) (f : Twin → Twin) : (s.updTw f).escs = s.escs := rfl
@[simp] theorem State.updTw_tb (s : State) (f : Twin → Twin) : (s.updTw f).tb = s.tb := rfl
@[simp] theorem State.updTw_grid (s : State) (f : Twin → Twin) : (s.updTw f).grid = s.grid := rfl
@[simp] theorem State.updTw_once (s : State) (f : Twin → Twin) : (s.updTw f).once = s.once := rfl
@[simp] theorem State.updTw_cb (s : State) (f : Twin → Twin) : (s.updTw f).cb = s.cb := rfl
@[simp] theorem State.updTw_fb (s : State) (f : Twin → Twin) : (s.updTw f).fb = s.fb := rfl
@[simp] theorem State.updTw_tl (s : State) (f : Twin → Twin) : (s.updTw f).tl = s.tl := rfl
@[simp] theorem State.updTw_grp (s : State) (f : Twin → Twin) : (s.updTw f).grp = s.grp := rfl
@[simp] theorem State.updTw_mp (s : State) (f : Twin → Twin) : (s.updTw f).mp = s.mp := rfl
@[simp] theorem State.updTw_sv (s : State) (f : Twin → Twin) : (s.updTw f).sv = s.sv := rfl
@[simp] theorem State.updTw_sep (s : State) (f : Twin → Twin) : (s.updTw f).sep = s.sep := rfl
@[simp] theorem State.updTw_sch (s : State) (f : Twin → Twin) : (s.updTw f).sch = s.sch := rfl
@[simp] theorem State.updTw_me (s : State) (f : Twin → Twin) : (s.updTw f).me = s.me := rfl
@[simp] theorem State.updTw_hi (s : State) (f : Twin → Twin) : (s.updTw f).hi = s.hi := rfl
@[simp] theorem State.updTw_gr (s : State) (f : Twin → Twin) : (s.updTw f).gr = s.gr := rfl
@[simp] theorem State.updTw_tw (s : State) (f : Twin → Twin) : (s.updTw f).tw = f s.tw := rfl
@[simp] theorem State.updTw_ev (s : State) (f : Twin → Twin) : (s.updTw f).ev = s.ev := rfl
@[simp] theorem State.updTw_bb (s : State) (f : Twin → Twin) : (s.updTw f).bb = s.bb := rfl
@[simp] theorem State.updTw_inj (s : State) (f : Twin → Twin) : (s.updTw f).inj = s.inj := rfl
@[simp] theorem State.updTw_ad (s : State) (f : Twin → Twin) : (s.updTw f).ad = s.ad := rfl
@[simp] theorem State.updTw_sio (s : State) (f : Twin → Twin) : (s.updTw f).sio = s.sio := rfl
@[simp] theorem State.updTw_pw (s : State) (f : Twin → Twin) : (s.updTw f).pw = s.pw := rfl
@[simp] theorem State.updTw_arb (s : State) (f : Twin → Twin) : (s.updTw f).arb = s.arb := rfl
@[simp] theorem State.updTw_free (s : State) (f : Twin → Twin) : (s.updTw f).free = s.free := rfl
@[simp] theorem State.updTw_readData (s : State) (f : Twin → Twin) : (s.updTw f).readData = s.readData := rfl
@[simp] theorem State.updTw_hiLatch (s : State) (f : Twin → Twin) : (s.updTw f).hiLatch = s.hiLatch := rfl
@[simp] theorem State.updTw_wrStage (s : State) (f : Twin → Twin) : (s.updTw f).wrStage = s.wrStage := rfl
@[simp] theorem State.updTw_view (s : State) (f : Twin → Twin) : (s.updTw f).view = s.view := rfl
@[simp] theorem State.updTw_flips (s : State) (f : Twin → Twin) : (s.updTw f).flips = s.flips := rfl

@[simp] theorem State.updPw_pending (s : State) (f : Power → Power) : (s.updPw f).pending = s.pending := rfl
@[simp] theorem State.updPw_regs (s : State) (f : Power → Power) : (s.updPw f).regs = s.regs := rfl
@[simp] theorem State.updPw_frozen (s : State) (f : Power → Power) : (s.updPw f).frozen = s.frozen := rfl
@[simp] theorem State.updPw_posted (s : State) (f : Power → Power) : (s.updPw f).posted = s.posted := rfl
@[simp] theorem State.updPw_escs (s : State) (f : Power → Power) : (s.updPw f).escs = s.escs := rfl
@[simp] theorem State.updPw_tb (s : State) (f : Power → Power) : (s.updPw f).tb = s.tb := rfl
@[simp] theorem State.updPw_grid (s : State) (f : Power → Power) : (s.updPw f).grid = s.grid := rfl
@[simp] theorem State.updPw_once (s : State) (f : Power → Power) : (s.updPw f).once = s.once := rfl
@[simp] theorem State.updPw_cb (s : State) (f : Power → Power) : (s.updPw f).cb = s.cb := rfl
@[simp] theorem State.updPw_fb (s : State) (f : Power → Power) : (s.updPw f).fb = s.fb := rfl
@[simp] theorem State.updPw_tl (s : State) (f : Power → Power) : (s.updPw f).tl = s.tl := rfl
@[simp] theorem State.updPw_grp (s : State) (f : Power → Power) : (s.updPw f).grp = s.grp := rfl
@[simp] theorem State.updPw_mp (s : State) (f : Power → Power) : (s.updPw f).mp = s.mp := rfl
@[simp] theorem State.updPw_sv (s : State) (f : Power → Power) : (s.updPw f).sv = s.sv := rfl
@[simp] theorem State.updPw_sep (s : State) (f : Power → Power) : (s.updPw f).sep = s.sep := rfl
@[simp] theorem State.updPw_sch (s : State) (f : Power → Power) : (s.updPw f).sch = s.sch := rfl
@[simp] theorem State.updPw_me (s : State) (f : Power → Power) : (s.updPw f).me = s.me := rfl
@[simp] theorem State.updPw_hi (s : State) (f : Power → Power) : (s.updPw f).hi = s.hi := rfl
@[simp] theorem State.updPw_gr (s : State) (f : Power → Power) : (s.updPw f).gr = s.gr := rfl
@[simp] theorem State.updPw_tw (s : State) (f : Power → Power) : (s.updPw f).tw = s.tw := rfl
@[simp] theorem State.updPw_ev (s : State) (f : Power → Power) : (s.updPw f).ev = s.ev := rfl
@[simp] theorem State.updPw_bb (s : State) (f : Power → Power) : (s.updPw f).bb = s.bb := rfl
@[simp] theorem State.updPw_inj (s : State) (f : Power → Power) : (s.updPw f).inj = s.inj := rfl
@[simp] theorem State.updPw_ad (s : State) (f : Power → Power) : (s.updPw f).ad = s.ad := rfl
@[simp] theorem State.updPw_sio (s : State) (f : Power → Power) : (s.updPw f).sio = s.sio := rfl
@[simp] theorem State.updPw_pw (s : State) (f : Power → Power) : (s.updPw f).pw = f s.pw := rfl
@[simp] theorem State.updPw_arb (s : State) (f : Power → Power) : (s.updPw f).arb = s.arb := rfl
@[simp] theorem State.updPw_free (s : State) (f : Power → Power) : (s.updPw f).free = s.free := rfl
@[simp] theorem State.updPw_readData (s : State) (f : Power → Power) : (s.updPw f).readData = s.readData := rfl
@[simp] theorem State.updPw_hiLatch (s : State) (f : Power → Power) : (s.updPw f).hiLatch = s.hiLatch := rfl
@[simp] theorem State.updPw_wrStage (s : State) (f : Power → Power) : (s.updPw f).wrStage = s.wrStage := rfl
@[simp] theorem State.updPw_view (s : State) (f : Power → Power) : (s.updPw f).view = s.view := rfl
@[simp] theorem State.updPw_flips (s : State) (f : Power → Power) : (s.updPw f).flips = s.flips := rfl

@[simp] theorem State.updEv_pending (s : State) (f : Recorder → Recorder) : (s.updEv f).pending = s.pending := rfl
@[simp] theorem State.updEv_regs (s : State) (f : Recorder → Recorder) : (s.updEv f).regs = s.regs := rfl
@[simp] theorem State.updEv_frozen (s : State) (f : Recorder → Recorder) : (s.updEv f).frozen = s.frozen := rfl
@[simp] theorem State.updEv_posted (s : State) (f : Recorder → Recorder) : (s.updEv f).posted = s.posted := rfl
@[simp] theorem State.updEv_escs (s : State) (f : Recorder → Recorder) : (s.updEv f).escs = s.escs := rfl
@[simp] theorem State.updEv_tb (s : State) (f : Recorder → Recorder) : (s.updEv f).tb = s.tb := rfl
@[simp] theorem State.updEv_grid (s : State) (f : Recorder → Recorder) : (s.updEv f).grid = s.grid := rfl
@[simp] theorem State.updEv_once (s : State) (f : Recorder → Recorder) : (s.updEv f).once = s.once := rfl
@[simp] theorem State.updEv_cb (s : State) (f : Recorder → Recorder) : (s.updEv f).cb = s.cb := rfl
@[simp] theorem State.updEv_fb (s : State) (f : Recorder → Recorder) : (s.updEv f).fb = s.fb := rfl
@[simp] theorem State.updEv_tl (s : State) (f : Recorder → Recorder) : (s.updEv f).tl = s.tl := rfl
@[simp] theorem State.updEv_grp (s : State) (f : Recorder → Recorder) : (s.updEv f).grp = s.grp := rfl
@[simp] theorem State.updEv_mp (s : State) (f : Recorder → Recorder) : (s.updEv f).mp = s.mp := rfl
@[simp] theorem State.updEv_sv (s : State) (f : Recorder → Recorder) : (s.updEv f).sv = s.sv := rfl
@[simp] theorem State.updEv_sep (s : State) (f : Recorder → Recorder) : (s.updEv f).sep = s.sep := rfl
@[simp] theorem State.updEv_sch (s : State) (f : Recorder → Recorder) : (s.updEv f).sch = s.sch := rfl
@[simp] theorem State.updEv_me (s : State) (f : Recorder → Recorder) : (s.updEv f).me = s.me := rfl
@[simp] theorem State.updEv_hi (s : State) (f : Recorder → Recorder) : (s.updEv f).hi = s.hi := rfl
@[simp] theorem State.updEv_gr (s : State) (f : Recorder → Recorder) : (s.updEv f).gr = s.gr := rfl
@[simp] theorem State.updEv_tw (s : State) (f : Recorder → Recorder) : (s.updEv f).tw = s.tw := rfl
@[simp] theorem State.updEv_ev (s : State) (f : Recorder → Recorder) : (s.updEv f).ev = f s.ev := rfl
@[simp] theorem State.updEv_bb (s : State) (f : Recorder → Recorder) : (s.updEv f).bb = s.bb := rfl
@[simp] theorem State.updEv_inj (s : State) (f : Recorder → Recorder) : (s.updEv f).inj = s.inj := rfl
@[simp] theorem State.updEv_ad (s : State) (f : Recorder → Recorder) : (s.updEv f).ad = s.ad := rfl
@[simp] theorem State.updEv_sio (s : State) (f : Recorder → Recorder) : (s.updEv f).sio = s.sio := rfl
@[simp] theorem State.updEv_pw (s : State) (f : Recorder → Recorder) : (s.updEv f).pw = s.pw := rfl
@[simp] theorem State.updEv_arb (s : State) (f : Recorder → Recorder) : (s.updEv f).arb = s.arb := rfl
@[simp] theorem State.updEv_free (s : State) (f : Recorder → Recorder) : (s.updEv f).free = s.free := rfl
@[simp] theorem State.updEv_readData (s : State) (f : Recorder → Recorder) : (s.updEv f).readData = s.readData := rfl
@[simp] theorem State.updEv_hiLatch (s : State) (f : Recorder → Recorder) : (s.updEv f).hiLatch = s.hiLatch := rfl
@[simp] theorem State.updEv_wrStage (s : State) (f : Recorder → Recorder) : (s.updEv f).wrStage = s.wrStage := rfl
@[simp] theorem State.updEv_view (s : State) (f : Recorder → Recorder) : (s.updEv f).view = s.view := rfl
@[simp] theorem State.updEv_flips (s : State) (f : Recorder → Recorder) : (s.updEv f).flips = s.flips := rfl

@[simp] theorem State.updBb_pending (s : State) (f : Orangery → Orangery) : (s.updBb f).pending = s.pending := rfl
@[simp] theorem State.updBb_regs (s : State) (f : Orangery → Orangery) : (s.updBb f).regs = s.regs := rfl
@[simp] theorem State.updBb_frozen (s : State) (f : Orangery → Orangery) : (s.updBb f).frozen = s.frozen := rfl
@[simp] theorem State.updBb_posted (s : State) (f : Orangery → Orangery) : (s.updBb f).posted = s.posted := rfl
@[simp] theorem State.updBb_escs (s : State) (f : Orangery → Orangery) : (s.updBb f).escs = s.escs := rfl
@[simp] theorem State.updBb_tb (s : State) (f : Orangery → Orangery) : (s.updBb f).tb = s.tb := rfl
@[simp] theorem State.updBb_grid (s : State) (f : Orangery → Orangery) : (s.updBb f).grid = s.grid := rfl
@[simp] theorem State.updBb_once (s : State) (f : Orangery → Orangery) : (s.updBb f).once = s.once := rfl
@[simp] theorem State.updBb_cb (s : State) (f : Orangery → Orangery) : (s.updBb f).cb = s.cb := rfl
@[simp] theorem State.updBb_fb (s : State) (f : Orangery → Orangery) : (s.updBb f).fb = s.fb := rfl
@[simp] theorem State.updBb_tl (s : State) (f : Orangery → Orangery) : (s.updBb f).tl = s.tl := rfl
@[simp] theorem State.updBb_grp (s : State) (f : Orangery → Orangery) : (s.updBb f).grp = s.grp := rfl
@[simp] theorem State.updBb_mp (s : State) (f : Orangery → Orangery) : (s.updBb f).mp = s.mp := rfl
@[simp] theorem State.updBb_sv (s : State) (f : Orangery → Orangery) : (s.updBb f).sv = s.sv := rfl
@[simp] theorem State.updBb_sep (s : State) (f : Orangery → Orangery) : (s.updBb f).sep = s.sep := rfl
@[simp] theorem State.updBb_sch (s : State) (f : Orangery → Orangery) : (s.updBb f).sch = s.sch := rfl
@[simp] theorem State.updBb_me (s : State) (f : Orangery → Orangery) : (s.updBb f).me = s.me := rfl
@[simp] theorem State.updBb_hi (s : State) (f : Orangery → Orangery) : (s.updBb f).hi = s.hi := rfl
@[simp] theorem State.updBb_gr (s : State) (f : Orangery → Orangery) : (s.updBb f).gr = s.gr := rfl
@[simp] theorem State.updBb_tw (s : State) (f : Orangery → Orangery) : (s.updBb f).tw = s.tw := rfl
@[simp] theorem State.updBb_ev (s : State) (f : Orangery → Orangery) : (s.updBb f).ev = s.ev := rfl
@[simp] theorem State.updBb_bb (s : State) (f : Orangery → Orangery) : (s.updBb f).bb = f s.bb := rfl
@[simp] theorem State.updBb_inj (s : State) (f : Orangery → Orangery) : (s.updBb f).inj = s.inj := rfl
@[simp] theorem State.updBb_ad (s : State) (f : Orangery → Orangery) : (s.updBb f).ad = s.ad := rfl
@[simp] theorem State.updBb_sio (s : State) (f : Orangery → Orangery) : (s.updBb f).sio = s.sio := rfl
@[simp] theorem State.updBb_pw (s : State) (f : Orangery → Orangery) : (s.updBb f).pw = s.pw := rfl
@[simp] theorem State.updBb_arb (s : State) (f : Orangery → Orangery) : (s.updBb f).arb = s.arb := rfl
@[simp] theorem State.updBb_free (s : State) (f : Orangery → Orangery) : (s.updBb f).free = s.free := rfl
@[simp] theorem State.updBb_readData (s : State) (f : Orangery → Orangery) : (s.updBb f).readData = s.readData := rfl
@[simp] theorem State.updBb_hiLatch (s : State) (f : Orangery → Orangery) : (s.updBb f).hiLatch = s.hiLatch := rfl
@[simp] theorem State.updBb_wrStage (s : State) (f : Orangery → Orangery) : (s.updBb f).wrStage = s.wrStage := rfl
@[simp] theorem State.updBb_view (s : State) (f : Orangery → Orangery) : (s.updBb f).view = s.view := rfl
@[simp] theorem State.updBb_flips (s : State) (f : Orangery → Orangery) : (s.updBb f).flips = s.flips := rfl

@[simp] theorem State.updSep_pending (s : State) (f : Separation → Separation) : (s.updSep f).pending = s.pending := rfl
@[simp] theorem State.updSep_regs (s : State) (f : Separation → Separation) : (s.updSep f).regs = s.regs := rfl
@[simp] theorem State.updSep_frozen (s : State) (f : Separation → Separation) : (s.updSep f).frozen = s.frozen := rfl
@[simp] theorem State.updSep_posted (s : State) (f : Separation → Separation) : (s.updSep f).posted = s.posted := rfl
@[simp] theorem State.updSep_escs (s : State) (f : Separation → Separation) : (s.updSep f).escs = s.escs := rfl
@[simp] theorem State.updSep_tb (s : State) (f : Separation → Separation) : (s.updSep f).tb = s.tb := rfl
@[simp] theorem State.updSep_grid (s : State) (f : Separation → Separation) : (s.updSep f).grid = s.grid := rfl
@[simp] theorem State.updSep_once (s : State) (f : Separation → Separation) : (s.updSep f).once = s.once := rfl
@[simp] theorem State.updSep_cb (s : State) (f : Separation → Separation) : (s.updSep f).cb = s.cb := rfl
@[simp] theorem State.updSep_fb (s : State) (f : Separation → Separation) : (s.updSep f).fb = s.fb := rfl
@[simp] theorem State.updSep_tl (s : State) (f : Separation → Separation) : (s.updSep f).tl = s.tl := rfl
@[simp] theorem State.updSep_grp (s : State) (f : Separation → Separation) : (s.updSep f).grp = s.grp := rfl
@[simp] theorem State.updSep_mp (s : State) (f : Separation → Separation) : (s.updSep f).mp = s.mp := rfl
@[simp] theorem State.updSep_sv (s : State) (f : Separation → Separation) : (s.updSep f).sv = s.sv := rfl
@[simp] theorem State.updSep_sep (s : State) (f : Separation → Separation) : (s.updSep f).sep = f s.sep := rfl
@[simp] theorem State.updSep_sch (s : State) (f : Separation → Separation) : (s.updSep f).sch = s.sch := rfl
@[simp] theorem State.updSep_me (s : State) (f : Separation → Separation) : (s.updSep f).me = s.me := rfl
@[simp] theorem State.updSep_hi (s : State) (f : Separation → Separation) : (s.updSep f).hi = s.hi := rfl
@[simp] theorem State.updSep_gr (s : State) (f : Separation → Separation) : (s.updSep f).gr = s.gr := rfl
@[simp] theorem State.updSep_tw (s : State) (f : Separation → Separation) : (s.updSep f).tw = s.tw := rfl
@[simp] theorem State.updSep_ev (s : State) (f : Separation → Separation) : (s.updSep f).ev = s.ev := rfl
@[simp] theorem State.updSep_bb (s : State) (f : Separation → Separation) : (s.updSep f).bb = s.bb := rfl
@[simp] theorem State.updSep_inj (s : State) (f : Separation → Separation) : (s.updSep f).inj = s.inj := rfl
@[simp] theorem State.updSep_ad (s : State) (f : Separation → Separation) : (s.updSep f).ad = s.ad := rfl
@[simp] theorem State.updSep_sio (s : State) (f : Separation → Separation) : (s.updSep f).sio = s.sio := rfl
@[simp] theorem State.updSep_pw (s : State) (f : Separation → Separation) : (s.updSep f).pw = s.pw := rfl
@[simp] theorem State.updSep_arb (s : State) (f : Separation → Separation) : (s.updSep f).arb = s.arb := rfl
@[simp] theorem State.updSep_free (s : State) (f : Separation → Separation) : (s.updSep f).free = s.free := rfl
@[simp] theorem State.updSep_readData (s : State) (f : Separation → Separation) : (s.updSep f).readData = s.readData := rfl
@[simp] theorem State.updSep_hiLatch (s : State) (f : Separation → Separation) : (s.updSep f).hiLatch = s.hiLatch := rfl
@[simp] theorem State.updSep_wrStage (s : State) (f : Separation → Separation) : (s.updSep f).wrStage = s.wrStage := rfl
@[simp] theorem State.updSep_view (s : State) (f : Separation → Separation) : (s.updSep f).view = s.view := rfl
@[simp] theorem State.updSep_flips (s : State) (f : Separation → Separation) : (s.updSep f).flips = s.flips := rfl

@[simp] theorem State.updSio_pending (s : State) (f : Safety → Safety) : (s.updSio f).pending = s.pending := rfl
@[simp] theorem State.updSio_regs (s : State) (f : Safety → Safety) : (s.updSio f).regs = s.regs := rfl
@[simp] theorem State.updSio_frozen (s : State) (f : Safety → Safety) : (s.updSio f).frozen = s.frozen := rfl
@[simp] theorem State.updSio_posted (s : State) (f : Safety → Safety) : (s.updSio f).posted = s.posted := rfl
@[simp] theorem State.updSio_escs (s : State) (f : Safety → Safety) : (s.updSio f).escs = s.escs := rfl
@[simp] theorem State.updSio_tb (s : State) (f : Safety → Safety) : (s.updSio f).tb = s.tb := rfl
@[simp] theorem State.updSio_grid (s : State) (f : Safety → Safety) : (s.updSio f).grid = s.grid := rfl
@[simp] theorem State.updSio_once (s : State) (f : Safety → Safety) : (s.updSio f).once = s.once := rfl
@[simp] theorem State.updSio_cb (s : State) (f : Safety → Safety) : (s.updSio f).cb = s.cb := rfl
@[simp] theorem State.updSio_fb (s : State) (f : Safety → Safety) : (s.updSio f).fb = s.fb := rfl
@[simp] theorem State.updSio_tl (s : State) (f : Safety → Safety) : (s.updSio f).tl = s.tl := rfl
@[simp] theorem State.updSio_grp (s : State) (f : Safety → Safety) : (s.updSio f).grp = s.grp := rfl
@[simp] theorem State.updSio_mp (s : State) (f : Safety → Safety) : (s.updSio f).mp = s.mp := rfl
@[simp] theorem State.updSio_sv (s : State) (f : Safety → Safety) : (s.updSio f).sv = s.sv := rfl
@[simp] theorem State.updSio_sep (s : State) (f : Safety → Safety) : (s.updSio f).sep = s.sep := rfl
@[simp] theorem State.updSio_sch (s : State) (f : Safety → Safety) : (s.updSio f).sch = s.sch := rfl
@[simp] theorem State.updSio_me (s : State) (f : Safety → Safety) : (s.updSio f).me = s.me := rfl
@[simp] theorem State.updSio_hi (s : State) (f : Safety → Safety) : (s.updSio f).hi = s.hi := rfl
@[simp] theorem State.updSio_gr (s : State) (f : Safety → Safety) : (s.updSio f).gr = s.gr := rfl
@[simp] theorem State.updSio_tw (s : State) (f : Safety → Safety) : (s.updSio f).tw = s.tw := rfl
@[simp] theorem State.updSio_ev (s : State) (f : Safety → Safety) : (s.updSio f).ev = s.ev := rfl
@[simp] theorem State.updSio_bb (s : State) (f : Safety → Safety) : (s.updSio f).bb = s.bb := rfl
@[simp] theorem State.updSio_inj (s : State) (f : Safety → Safety) : (s.updSio f).inj = s.inj := rfl
@[simp] theorem State.updSio_ad (s : State) (f : Safety → Safety) : (s.updSio f).ad = s.ad := rfl
@[simp] theorem State.updSio_sio (s : State) (f : Safety → Safety) : (s.updSio f).sio = f s.sio := rfl
@[simp] theorem State.updSio_pw (s : State) (f : Safety → Safety) : (s.updSio f).pw = s.pw := rfl
@[simp] theorem State.updSio_arb (s : State) (f : Safety → Safety) : (s.updSio f).arb = s.arb := rfl
@[simp] theorem State.updSio_free (s : State) (f : Safety → Safety) : (s.updSio f).free = s.free := rfl
@[simp] theorem State.updSio_readData (s : State) (f : Safety → Safety) : (s.updSio f).readData = s.readData := rfl
@[simp] theorem State.updSio_hiLatch (s : State) (f : Safety → Safety) : (s.updSio f).hiLatch = s.hiLatch := rfl
@[simp] theorem State.updSio_wrStage (s : State) (f : Safety → Safety) : (s.updSio f).wrStage = s.wrStage := rfl
@[simp] theorem State.updSio_view (s : State) (f : Safety → Safety) : (s.updSio f).view = s.view := rfl
@[simp] theorem State.updSio_flips (s : State) (f : Safety → Safety) : (s.updSio f).flips = s.flips := rfl

@[simp] theorem State.updTb_pending (s : State) (f : TimeBase → TimeBase) : (s.updTb f).pending = s.pending := rfl
@[simp] theorem State.updTb_regs (s : State) (f : TimeBase → TimeBase) : (s.updTb f).regs = s.regs := rfl
@[simp] theorem State.updTb_frozen (s : State) (f : TimeBase → TimeBase) : (s.updTb f).frozen = s.frozen := rfl
@[simp] theorem State.updTb_posted (s : State) (f : TimeBase → TimeBase) : (s.updTb f).posted = s.posted := rfl
@[simp] theorem State.updTb_escs (s : State) (f : TimeBase → TimeBase) : (s.updTb f).escs = s.escs := rfl
@[simp] theorem State.updTb_tb (s : State) (f : TimeBase → TimeBase) : (s.updTb f).tb = f s.tb := rfl
@[simp] theorem State.updTb_grid (s : State) (f : TimeBase → TimeBase) : (s.updTb f).grid = s.grid := rfl
@[simp] theorem State.updTb_once (s : State) (f : TimeBase → TimeBase) : (s.updTb f).once = s.once := rfl
@[simp] theorem State.updTb_cb (s : State) (f : TimeBase → TimeBase) : (s.updTb f).cb = s.cb := rfl
@[simp] theorem State.updTb_fb (s : State) (f : TimeBase → TimeBase) : (s.updTb f).fb = s.fb := rfl
@[simp] theorem State.updTb_tl (s : State) (f : TimeBase → TimeBase) : (s.updTb f).tl = s.tl := rfl
@[simp] theorem State.updTb_grp (s : State) (f : TimeBase → TimeBase) : (s.updTb f).grp = s.grp := rfl
@[simp] theorem State.updTb_mp (s : State) (f : TimeBase → TimeBase) : (s.updTb f).mp = s.mp := rfl
@[simp] theorem State.updTb_sv (s : State) (f : TimeBase → TimeBase) : (s.updTb f).sv = s.sv := rfl
@[simp] theorem State.updTb_sep (s : State) (f : TimeBase → TimeBase) : (s.updTb f).sep = s.sep := rfl
@[simp] theorem State.updTb_sch (s : State) (f : TimeBase → TimeBase) : (s.updTb f).sch = s.sch := rfl
@[simp] theorem State.updTb_me (s : State) (f : TimeBase → TimeBase) : (s.updTb f).me = s.me := rfl
@[simp] theorem State.updTb_hi (s : State) (f : TimeBase → TimeBase) : (s.updTb f).hi = s.hi := rfl
@[simp] theorem State.updTb_gr (s : State) (f : TimeBase → TimeBase) : (s.updTb f).gr = s.gr := rfl
@[simp] theorem State.updTb_tw (s : State) (f : TimeBase → TimeBase) : (s.updTb f).tw = s.tw := rfl
@[simp] theorem State.updTb_ev (s : State) (f : TimeBase → TimeBase) : (s.updTb f).ev = s.ev := rfl
@[simp] theorem State.updTb_bb (s : State) (f : TimeBase → TimeBase) : (s.updTb f).bb = s.bb := rfl
@[simp] theorem State.updTb_inj (s : State) (f : TimeBase → TimeBase) : (s.updTb f).inj = s.inj := rfl
@[simp] theorem State.updTb_ad (s : State) (f : TimeBase → TimeBase) : (s.updTb f).ad = s.ad := rfl
@[simp] theorem State.updTb_sio (s : State) (f : TimeBase → TimeBase) : (s.updTb f).sio = s.sio := rfl
@[simp] theorem State.updTb_pw (s : State) (f : TimeBase → TimeBase) : (s.updTb f).pw = s.pw := rfl
@[simp] theorem State.updTb_arb (s : State) (f : TimeBase → TimeBase) : (s.updTb f).arb = s.arb := rfl
@[simp] theorem State.updTb_free (s : State) (f : TimeBase → TimeBase) : (s.updTb f).free = s.free := rfl
@[simp] theorem State.updTb_readData (s : State) (f : TimeBase → TimeBase) : (s.updTb f).readData = s.readData := rfl
@[simp] theorem State.updTb_hiLatch (s : State) (f : TimeBase → TimeBase) : (s.updTb f).hiLatch = s.hiLatch := rfl
@[simp] theorem State.updTb_wrStage (s : State) (f : TimeBase → TimeBase) : (s.updTb f).wrStage = s.wrStage := rfl
@[simp] theorem State.updTb_view (s : State) (f : TimeBase → TimeBase) : (s.updTb f).view = s.view := rfl
@[simp] theorem State.updTb_flips (s : State) (f : TimeBase → TimeBase) : (s.updTb f).flips = s.flips := rfl

@[simp] theorem State.updEng_pending (s : State) (k : Nat) (f : Engine → Engine) : (s.updEng k f).pending = s.pending := rfl
@[simp] theorem State.updEng_regs (s : State) (k : Nat) (f : Engine → Engine) : (s.updEng k f).regs = s.regs := rfl
@[simp] theorem State.updEng_frozen (s : State) (k : Nat) (f : Engine → Engine) : (s.updEng k f).frozen = s.frozen := rfl
@[simp] theorem State.updEng_posted (s : State) (k : Nat) (f : Engine → Engine) : (s.updEng k f).posted = s.posted := rfl
@[simp] theorem State.updEng_escs (s : State) (k : Nat) (f : Engine → Engine) : (s.updEng k f).escs = s.escs := rfl
@[simp] theorem State.updEng_tb (s : State) (k : Nat) (f : Engine → Engine) : (s.updEng k f).tb = s.tb := rfl
@[simp] theorem State.updEng_grid (s : State) (k : Nat) (f : Engine → Engine) : (s.updEng k f).grid = s.grid := rfl
@[simp] theorem State.updEng_once (s : State) (k : Nat) (f : Engine → Engine) : (s.updEng k f).once = s.once := rfl
@[simp] theorem State.updEng_cb (s : State) (k : Nat) (f : Engine → Engine) : (s.updEng k f).cb = s.cb := rfl
@[simp] theorem State.updEng_fb (s : State) (k : Nat) (f : Engine → Engine) : (s.updEng k f).fb = s.fb := rfl
@[simp] theorem State.updEng_tl (s : State) (k : Nat) (f : Engine → Engine) : (s.updEng k f).tl = s.tl := rfl
@[simp] theorem State.updEng_grp (s : State) (k : Nat) (f : Engine → Engine) : (s.updEng k f).grp = s.grp := rfl
@[simp] theorem State.updEng_mp (s : State) (k : Nat) (f : Engine → Engine) : (s.updEng k f).mp = s.mp := rfl
@[simp] theorem State.updEng_sep (s : State) (k : Nat) (f : Engine → Engine) : (s.updEng k f).sep = s.sep := rfl
@[simp] theorem State.updEng_sch (s : State) (k : Nat) (f : Engine → Engine) : (s.updEng k f).sch = s.sch := rfl
@[simp] theorem State.updEng_me (s : State) (k : Nat) (f : Engine → Engine) : (s.updEng k f).me = s.me := rfl
@[simp] theorem State.updEng_hi (s : State) (k : Nat) (f : Engine → Engine) : (s.updEng k f).hi = s.hi := rfl
@[simp] theorem State.updEng_gr (s : State) (k : Nat) (f : Engine → Engine) : (s.updEng k f).gr = s.gr := rfl
@[simp] theorem State.updEng_tw (s : State) (k : Nat) (f : Engine → Engine) : (s.updEng k f).tw = s.tw := rfl
@[simp] theorem State.updEng_ev (s : State) (k : Nat) (f : Engine → Engine) : (s.updEng k f).ev = s.ev := rfl
@[simp] theorem State.updEng_bb (s : State) (k : Nat) (f : Engine → Engine) : (s.updEng k f).bb = s.bb := rfl
@[simp] theorem State.updEng_inj (s : State) (k : Nat) (f : Engine → Engine) : (s.updEng k f).inj = s.inj := rfl
@[simp] theorem State.updEng_ad (s : State) (k : Nat) (f : Engine → Engine) : (s.updEng k f).ad = s.ad := rfl
@[simp] theorem State.updEng_sio (s : State) (k : Nat) (f : Engine → Engine) : (s.updEng k f).sio = s.sio := rfl
@[simp] theorem State.updEng_pw (s : State) (k : Nat) (f : Engine → Engine) : (s.updEng k f).pw = s.pw := rfl
@[simp] theorem State.updEng_arb (s : State) (k : Nat) (f : Engine → Engine) : (s.updEng k f).arb = s.arb := rfl
@[simp] theorem State.updEng_free (s : State) (k : Nat) (f : Engine → Engine) : (s.updEng k f).free = s.free := rfl
@[simp] theorem State.updEng_readData (s : State) (k : Nat) (f : Engine → Engine) : (s.updEng k f).readData = s.readData := rfl
@[simp] theorem State.updEng_hiLatch (s : State) (k : Nat) (f : Engine → Engine) : (s.updEng k f).hiLatch = s.hiLatch := rfl
@[simp] theorem State.updEng_wrStage (s : State) (k : Nat) (f : Engine → Engine) : (s.updEng k f).wrStage = s.wrStage := rfl
@[simp] theorem State.updEng_view (s : State) (k : Nat) (f : Engine → Engine) : (s.updEng k f).view = s.view := rfl
@[simp] theorem State.updEng_flips (s : State) (k : Nat) (f : Engine → Engine) : (s.updEng k f).flips = s.flips := rfl

@[simp] theorem State.updDport_pending (s : State) (k : Nat) (f : DPort → DPort) : (s.updDport k f).pending = s.pending := rfl
@[simp] theorem State.updDport_regs (s : State) (k : Nat) (f : DPort → DPort) : (s.updDport k f).regs = s.regs := rfl
@[simp] theorem State.updDport_frozen (s : State) (k : Nat) (f : DPort → DPort) : (s.updDport k f).frozen = s.frozen := rfl
@[simp] theorem State.updDport_posted (s : State) (k : Nat) (f : DPort → DPort) : (s.updDport k f).posted = s.posted := rfl
@[simp] theorem State.updDport_escs (s : State) (k : Nat) (f : DPort → DPort) : (s.updDport k f).escs = s.escs := rfl
@[simp] theorem State.updDport_tb (s : State) (k : Nat) (f : DPort → DPort) : (s.updDport k f).tb = s.tb := rfl
@[simp] theorem State.updDport_grid (s : State) (k : Nat) (f : DPort → DPort) : (s.updDport k f).grid = s.grid := rfl
@[simp] theorem State.updDport_once (s : State) (k : Nat) (f : DPort → DPort) : (s.updDport k f).once = s.once := rfl
@[simp] theorem State.updDport_cb (s : State) (k : Nat) (f : DPort → DPort) : (s.updDport k f).cb = s.cb := rfl
@[simp] theorem State.updDport_tl (s : State) (k : Nat) (f : DPort → DPort) : (s.updDport k f).tl = s.tl := rfl
@[simp] theorem State.updDport_grp (s : State) (k : Nat) (f : DPort → DPort) : (s.updDport k f).grp = s.grp := rfl
@[simp] theorem State.updDport_mp (s : State) (k : Nat) (f : DPort → DPort) : (s.updDport k f).mp = s.mp := rfl
@[simp] theorem State.updDport_sv (s : State) (k : Nat) (f : DPort → DPort) : (s.updDport k f).sv = s.sv := rfl
@[simp] theorem State.updDport_sep (s : State) (k : Nat) (f : DPort → DPort) : (s.updDport k f).sep = s.sep := rfl
@[simp] theorem State.updDport_sch (s : State) (k : Nat) (f : DPort → DPort) : (s.updDport k f).sch = s.sch := rfl
@[simp] theorem State.updDport_me (s : State) (k : Nat) (f : DPort → DPort) : (s.updDport k f).me = s.me := rfl
@[simp] theorem State.updDport_hi (s : State) (k : Nat) (f : DPort → DPort) : (s.updDport k f).hi = s.hi := rfl
@[simp] theorem State.updDport_gr (s : State) (k : Nat) (f : DPort → DPort) : (s.updDport k f).gr = s.gr := rfl
@[simp] theorem State.updDport_tw (s : State) (k : Nat) (f : DPort → DPort) : (s.updDport k f).tw = s.tw := rfl
@[simp] theorem State.updDport_ev (s : State) (k : Nat) (f : DPort → DPort) : (s.updDport k f).ev = s.ev := rfl
@[simp] theorem State.updDport_bb (s : State) (k : Nat) (f : DPort → DPort) : (s.updDport k f).bb = s.bb := rfl
@[simp] theorem State.updDport_inj (s : State) (k : Nat) (f : DPort → DPort) : (s.updDport k f).inj = s.inj := rfl
@[simp] theorem State.updDport_ad (s : State) (k : Nat) (f : DPort → DPort) : (s.updDport k f).ad = s.ad := rfl
@[simp] theorem State.updDport_sio (s : State) (k : Nat) (f : DPort → DPort) : (s.updDport k f).sio = s.sio := rfl
@[simp] theorem State.updDport_pw (s : State) (k : Nat) (f : DPort → DPort) : (s.updDport k f).pw = s.pw := rfl
@[simp] theorem State.updDport_arb (s : State) (k : Nat) (f : DPort → DPort) : (s.updDport k f).arb = s.arb := rfl
@[simp] theorem State.updDport_free (s : State) (k : Nat) (f : DPort → DPort) : (s.updDport k f).free = s.free := rfl
@[simp] theorem State.updDport_readData (s : State) (k : Nat) (f : DPort → DPort) : (s.updDport k f).readData = s.readData := rfl
@[simp] theorem State.updDport_hiLatch (s : State) (k : Nat) (f : DPort → DPort) : (s.updDport k f).hiLatch = s.hiLatch := rfl
@[simp] theorem State.updDport_wrStage (s : State) (k : Nat) (f : DPort → DPort) : (s.updDport k f).wrStage = s.wrStage := rfl
@[simp] theorem State.updDport_view (s : State) (k : Nat) (f : DPort → DPort) : (s.updDport k f).view = s.view := rfl
@[simp] theorem State.updDport_flips (s : State) (k : Nat) (f : DPort → DPort) : (s.updDport k f).flips = s.flips := rfl

@[simp] theorem State.updEmul_pending (s : State) (k : Nat) (f : Emul → Emul) : (s.updEmul k f).pending = s.pending := rfl
@[simp] theorem State.updEmul_regs (s : State) (k : Nat) (f : Emul → Emul) : (s.updEmul k f).regs = s.regs := rfl
@[simp] theorem State.updEmul_frozen (s : State) (k : Nat) (f : Emul → Emul) : (s.updEmul k f).frozen = s.frozen := rfl
@[simp] theorem State.updEmul_posted (s : State) (k : Nat) (f : Emul → Emul) : (s.updEmul k f).posted = s.posted := rfl
@[simp] theorem State.updEmul_escs (s : State) (k : Nat) (f : Emul → Emul) : (s.updEmul k f).escs = s.escs := rfl
@[simp] theorem State.updEmul_tb (s : State) (k : Nat) (f : Emul → Emul) : (s.updEmul k f).tb = s.tb := rfl
@[simp] theorem State.updEmul_grid (s : State) (k : Nat) (f : Emul → Emul) : (s.updEmul k f).grid = s.grid := rfl
@[simp] theorem State.updEmul_once (s : State) (k : Nat) (f : Emul → Emul) : (s.updEmul k f).once = s.once := rfl
@[simp] theorem State.updEmul_cb (s : State) (k : Nat) (f : Emul → Emul) : (s.updEmul k f).cb = s.cb := rfl
@[simp] theorem State.updEmul_tl (s : State) (k : Nat) (f : Emul → Emul) : (s.updEmul k f).tl = s.tl := rfl
@[simp] theorem State.updEmul_grp (s : State) (k : Nat) (f : Emul → Emul) : (s.updEmul k f).grp = s.grp := rfl
@[simp] theorem State.updEmul_mp (s : State) (k : Nat) (f : Emul → Emul) : (s.updEmul k f).mp = s.mp := rfl
@[simp] theorem State.updEmul_sv (s : State) (k : Nat) (f : Emul → Emul) : (s.updEmul k f).sv = s.sv := rfl
@[simp] theorem State.updEmul_sep (s : State) (k : Nat) (f : Emul → Emul) : (s.updEmul k f).sep = s.sep := rfl
@[simp] theorem State.updEmul_sch (s : State) (k : Nat) (f : Emul → Emul) : (s.updEmul k f).sch = s.sch := rfl
@[simp] theorem State.updEmul_me (s : State) (k : Nat) (f : Emul → Emul) : (s.updEmul k f).me = s.me := rfl
@[simp] theorem State.updEmul_hi (s : State) (k : Nat) (f : Emul → Emul) : (s.updEmul k f).hi = s.hi := rfl
@[simp] theorem State.updEmul_gr (s : State) (k : Nat) (f : Emul → Emul) : (s.updEmul k f).gr = s.gr := rfl
@[simp] theorem State.updEmul_tw (s : State) (k : Nat) (f : Emul → Emul) : (s.updEmul k f).tw = s.tw := rfl
@[simp] theorem State.updEmul_ev (s : State) (k : Nat) (f : Emul → Emul) : (s.updEmul k f).ev = s.ev := rfl
@[simp] theorem State.updEmul_bb (s : State) (k : Nat) (f : Emul → Emul) : (s.updEmul k f).bb = s.bb := rfl
@[simp] theorem State.updEmul_inj (s : State) (k : Nat) (f : Emul → Emul) : (s.updEmul k f).inj = s.inj := rfl
@[simp] theorem State.updEmul_ad (s : State) (k : Nat) (f : Emul → Emul) : (s.updEmul k f).ad = s.ad := rfl
@[simp] theorem State.updEmul_sio (s : State) (k : Nat) (f : Emul → Emul) : (s.updEmul k f).sio = s.sio := rfl
@[simp] theorem State.updEmul_pw (s : State) (k : Nat) (f : Emul → Emul) : (s.updEmul k f).pw = s.pw := rfl
@[simp] theorem State.updEmul_arb (s : State) (k : Nat) (f : Emul → Emul) : (s.updEmul k f).arb = s.arb := rfl
@[simp] theorem State.updEmul_free (s : State) (k : Nat) (f : Emul → Emul) : (s.updEmul k f).free = s.free := rfl
@[simp] theorem State.updEmul_readData (s : State) (k : Nat) (f : Emul → Emul) : (s.updEmul k f).readData = s.readData := rfl
@[simp] theorem State.updEmul_hiLatch (s : State) (k : Nat) (f : Emul → Emul) : (s.updEmul k f).hiLatch = s.hiLatch := rfl
@[simp] theorem State.updEmul_wrStage (s : State) (k : Nat) (f : Emul → Emul) : (s.updEmul k f).wrStage = s.wrStage := rfl
@[simp] theorem State.updEmul_view (s : State) (k : Nat) (f : Emul → Emul) : (s.updEmul k f).view = s.view := rfl
@[simp] theorem State.updEmul_flips (s : State) (k : Nat) (f : Emul → Emul) : (s.updEmul k f).flips = s.flips := rfl

@[simp] theorem State.updTask_pending (s : State) (k : Nat) (f : Task → Task) : (s.updTask k f).pending = s.pending := rfl
@[simp] theorem State.updTask_regs (s : State) (k : Nat) (f : Task → Task) : (s.updTask k f).regs = s.regs := rfl
@[simp] theorem State.updTask_frozen (s : State) (k : Nat) (f : Task → Task) : (s.updTask k f).frozen = s.frozen := rfl
@[simp] theorem State.updTask_posted (s : State) (k : Nat) (f : Task → Task) : (s.updTask k f).posted = s.posted := rfl
@[simp] theorem State.updTask_escs (s : State) (k : Nat) (f : Task → Task) : (s.updTask k f).escs = s.escs := rfl
@[simp] theorem State.updTask_tb (s : State) (k : Nat) (f : Task → Task) : (s.updTask k f).tb = s.tb := rfl
@[simp] theorem State.updTask_grid (s : State) (k : Nat) (f : Task → Task) : (s.updTask k f).grid = s.grid := rfl
@[simp] theorem State.updTask_once (s : State) (k : Nat) (f : Task → Task) : (s.updTask k f).once = s.once := rfl
@[simp] theorem State.updTask_cb (s : State) (k : Nat) (f : Task → Task) : (s.updTask k f).cb = s.cb := rfl
@[simp] theorem State.updTask_fb (s : State) (k : Nat) (f : Task → Task) : (s.updTask k f).fb = s.fb := rfl
@[simp] theorem State.updTask_tl (s : State) (k : Nat) (f : Task → Task) : (s.updTask k f).tl = s.tl := rfl
@[simp] theorem State.updTask_grp (s : State) (k : Nat) (f : Task → Task) : (s.updTask k f).grp = s.grp := rfl
@[simp] theorem State.updTask_mp (s : State) (k : Nat) (f : Task → Task) : (s.updTask k f).mp = s.mp := rfl
@[simp] theorem State.updTask_sv (s : State) (k : Nat) (f : Task → Task) : (s.updTask k f).sv = s.sv := rfl
@[simp] theorem State.updTask_sep (s : State) (k : Nat) (f : Task → Task) : (s.updTask k f).sep = s.sep := rfl
@[simp] theorem State.updTask_me (s : State) (k : Nat) (f : Task → Task) : (s.updTask k f).me = s.me := rfl
@[simp] theorem State.updTask_hi (s : State) (k : Nat) (f : Task → Task) : (s.updTask k f).hi = s.hi := rfl
@[simp] theorem State.updTask_gr (s : State) (k : Nat) (f : Task → Task) : (s.updTask k f).gr = s.gr := rfl
@[simp] theorem State.updTask_tw (s : State) (k : Nat) (f : Task → Task) : (s.updTask k f).tw = s.tw := rfl
@[simp] theorem State.updTask_ev (s : State) (k : Nat) (f : Task → Task) : (s.updTask k f).ev = s.ev := rfl
@[simp] theorem State.updTask_bb (s : State) (k : Nat) (f : Task → Task) : (s.updTask k f).bb = s.bb := rfl
@[simp] theorem State.updTask_inj (s : State) (k : Nat) (f : Task → Task) : (s.updTask k f).inj = s.inj := rfl
@[simp] theorem State.updTask_ad (s : State) (k : Nat) (f : Task → Task) : (s.updTask k f).ad = s.ad := rfl
@[simp] theorem State.updTask_sio (s : State) (k : Nat) (f : Task → Task) : (s.updTask k f).sio = s.sio := rfl
@[simp] theorem State.updTask_pw (s : State) (k : Nat) (f : Task → Task) : (s.updTask k f).pw = s.pw := rfl
@[simp] theorem State.updTask_arb (s : State) (k : Nat) (f : Task → Task) : (s.updTask k f).arb = s.arb := rfl
@[simp] theorem State.updTask_free (s : State) (k : Nat) (f : Task → Task) : (s.updTask k f).free = s.free := rfl
@[simp] theorem State.updTask_readData (s : State) (k : Nat) (f : Task → Task) : (s.updTask k f).readData = s.readData := rfl
@[simp] theorem State.updTask_hiLatch (s : State) (k : Nat) (f : Task → Task) : (s.updTask k f).hiLatch = s.hiLatch := rfl
@[simp] theorem State.updTask_wrStage (s : State) (k : Nat) (f : Task → Task) : (s.updTask k f).wrStage = s.wrStage := rfl
@[simp] theorem State.updTask_view (s : State) (k : Nat) (f : Task → Task) : (s.updTask k f).view = s.view := rfl
@[simp] theorem State.updTask_flips (s : State) (k : Nat) (f : Task → Task) : (s.updTask k f).flips = s.flips := rfl

@[simp] theorem State.updPort_pending (s : State) (k : Nat) (f : Port → Port) : (s.updPort k f).pending = s.pending := rfl
@[simp] theorem State.updPort_regs (s : State) (k : Nat) (f : Port → Port) : (s.updPort k f).regs = s.regs := rfl
@[simp] theorem State.updPort_frozen (s : State) (k : Nat) (f : Port → Port) : (s.updPort k f).frozen = s.frozen := rfl
@[simp] theorem State.updPort_posted (s : State) (k : Nat) (f : Port → Port) : (s.updPort k f).posted = s.posted := rfl
@[simp] theorem State.updPort_escs (s : State) (k : Nat) (f : Port → Port) : (s.updPort k f).escs = s.escs := rfl
@[simp] theorem State.updPort_tb (s : State) (k : Nat) (f : Port → Port) : (s.updPort k f).tb = s.tb := rfl
@[simp] theorem State.updPort_grid (s : State) (k : Nat) (f : Port → Port) : (s.updPort k f).grid = s.grid := rfl
@[simp] theorem State.updPort_once (s : State) (k : Nat) (f : Port → Port) : (s.updPort k f).once = s.once := rfl
@[simp] theorem State.updPort_fb (s : State) (k : Nat) (f : Port → Port) : (s.updPort k f).fb = s.fb := rfl
@[simp] theorem State.updPort_tl (s : State) (k : Nat) (f : Port → Port) : (s.updPort k f).tl = s.tl := rfl
@[simp] theorem State.updPort_grp (s : State) (k : Nat) (f : Port → Port) : (s.updPort k f).grp = s.grp := rfl
@[simp] theorem State.updPort_mp (s : State) (k : Nat) (f : Port → Port) : (s.updPort k f).mp = s.mp := rfl
@[simp] theorem State.updPort_sv (s : State) (k : Nat) (f : Port → Port) : (s.updPort k f).sv = s.sv := rfl
@[simp] theorem State.updPort_sep (s : State) (k : Nat) (f : Port → Port) : (s.updPort k f).sep = s.sep := rfl
@[simp] theorem State.updPort_sch (s : State) (k : Nat) (f : Port → Port) : (s.updPort k f).sch = s.sch := rfl
@[simp] theorem State.updPort_me (s : State) (k : Nat) (f : Port → Port) : (s.updPort k f).me = s.me := rfl
@[simp] theorem State.updPort_hi (s : State) (k : Nat) (f : Port → Port) : (s.updPort k f).hi = s.hi := rfl
@[simp] theorem State.updPort_gr (s : State) (k : Nat) (f : Port → Port) : (s.updPort k f).gr = s.gr := rfl
@[simp] theorem State.updPort_tw (s : State) (k : Nat) (f : Port → Port) : (s.updPort k f).tw = s.tw := rfl
@[simp] theorem State.updPort_ev (s : State) (k : Nat) (f : Port → Port) : (s.updPort k f).ev = s.ev := rfl
@[simp] theorem State.updPort_bb (s : State) (k : Nat) (f : Port → Port) : (s.updPort k f).bb = s.bb := rfl
@[simp] theorem State.updPort_inj (s : State) (k : Nat) (f : Port → Port) : (s.updPort k f).inj = s.inj := rfl
@[simp] theorem State.updPort_ad (s : State) (k : Nat) (f : Port → Port) : (s.updPort k f).ad = s.ad := rfl
@[simp] theorem State.updPort_sio (s : State) (k : Nat) (f : Port → Port) : (s.updPort k f).sio = s.sio := rfl
@[simp] theorem State.updPort_pw (s : State) (k : Nat) (f : Port → Port) : (s.updPort k f).pw = s.pw := rfl
@[simp] theorem State.updPort_arb (s : State) (k : Nat) (f : Port → Port) : (s.updPort k f).arb = s.arb := rfl
@[simp] theorem State.updPort_free (s : State) (k : Nat) (f : Port → Port) : (s.updPort k f).free = s.free := rfl
@[simp] theorem State.updPort_readData (s : State) (k : Nat) (f : Port → Port) : (s.updPort k f).readData = s.readData := rfl
@[simp] theorem State.updPort_hiLatch (s : State) (k : Nat) (f : Port → Port) : (s.updPort k f).hiLatch = s.hiLatch := rfl
@[simp] theorem State.updPort_wrStage (s : State) (k : Nat) (f : Port → Port) : (s.updPort k f).wrStage = s.wrStage := rfl
@[simp] theorem State.updPort_view (s : State) (k : Nat) (f : Port → Port) : (s.updPort k f).view = s.view := rfl
@[simp] theorem State.updPort_flips (s : State) (k : Nat) (f : Port → Port) : (s.updPort k f).flips = s.flips := rfl

@[simp] theorem State.updPart_pending (s : State) (k : Nat) (f : Partner → Partner) : (s.updPart k f).pending = s.pending := rfl
@[simp] theorem State.updPart_regs (s : State) (k : Nat) (f : Partner → Partner) : (s.updPart k f).regs = s.regs := rfl
@[simp] theorem State.updPart_frozen (s : State) (k : Nat) (f : Partner → Partner) : (s.updPart k f).frozen = s.frozen := rfl
@[simp] theorem State.updPart_posted (s : State) (k : Nat) (f : Partner → Partner) : (s.updPart k f).posted = s.posted := rfl
@[simp] theorem State.updPart_escs (s : State) (k : Nat) (f : Partner → Partner) : (s.updPart k f).escs = s.escs := rfl
@[simp] theorem State.updPart_tb (s : State) (k : Nat) (f : Partner → Partner) : (s.updPart k f).tb = s.tb := rfl
@[simp] theorem State.updPart_grid (s : State) (k : Nat) (f : Partner → Partner) : (s.updPart k f).grid = s.grid := rfl
@[simp] theorem State.updPart_once (s : State) (k : Nat) (f : Partner → Partner) : (s.updPart k f).once = s.once := rfl
@[simp] theorem State.updPart_fb (s : State) (k : Nat) (f : Partner → Partner) : (s.updPart k f).fb = s.fb := rfl
@[simp] theorem State.updPart_tl (s : State) (k : Nat) (f : Partner → Partner) : (s.updPart k f).tl = s.tl := rfl
@[simp] theorem State.updPart_grp (s : State) (k : Nat) (f : Partner → Partner) : (s.updPart k f).grp = s.grp := rfl
@[simp] theorem State.updPart_mp (s : State) (k : Nat) (f : Partner → Partner) : (s.updPart k f).mp = s.mp := rfl
@[simp] theorem State.updPart_sv (s : State) (k : Nat) (f : Partner → Partner) : (s.updPart k f).sv = s.sv := rfl
@[simp] theorem State.updPart_sep (s : State) (k : Nat) (f : Partner → Partner) : (s.updPart k f).sep = s.sep := rfl
@[simp] theorem State.updPart_sch (s : State) (k : Nat) (f : Partner → Partner) : (s.updPart k f).sch = s.sch := rfl
@[simp] theorem State.updPart_me (s : State) (k : Nat) (f : Partner → Partner) : (s.updPart k f).me = s.me := rfl
@[simp] theorem State.updPart_hi (s : State) (k : Nat) (f : Partner → Partner) : (s.updPart k f).hi = s.hi := rfl
@[simp] theorem State.updPart_gr (s : State) (k : Nat) (f : Partner → Partner) : (s.updPart k f).gr = s.gr := rfl
@[simp] theorem State.updPart_tw (s : State) (k : Nat) (f : Partner → Partner) : (s.updPart k f).tw = s.tw := rfl
@[simp] theorem State.updPart_ev (s : State) (k : Nat) (f : Partner → Partner) : (s.updPart k f).ev = s.ev := rfl
@[simp] theorem State.updPart_bb (s : State) (k : Nat) (f : Partner → Partner) : (s.updPart k f).bb = s.bb := rfl
@[simp] theorem State.updPart_inj (s : State) (k : Nat) (f : Partner → Partner) : (s.updPart k f).inj = s.inj := rfl
@[simp] theorem State.updPart_ad (s : State) (k : Nat) (f : Partner → Partner) : (s.updPart k f).ad = s.ad := rfl
@[simp] theorem State.updPart_sio (s : State) (k : Nat) (f : Partner → Partner) : (s.updPart k f).sio = s.sio := rfl
@[simp] theorem State.updPart_pw (s : State) (k : Nat) (f : Partner → Partner) : (s.updPart k f).pw = s.pw := rfl
@[simp] theorem State.updPart_arb (s : State) (k : Nat) (f : Partner → Partner) : (s.updPart k f).arb = s.arb := rfl
@[simp] theorem State.updPart_free (s : State) (k : Nat) (f : Partner → Partner) : (s.updPart k f).free = s.free := rfl
@[simp] theorem State.updPart_readData (s : State) (k : Nat) (f : Partner → Partner) : (s.updPart k f).readData = s.readData := rfl
@[simp] theorem State.updPart_hiLatch (s : State) (k : Nat) (f : Partner → Partner) : (s.updPart k f).hiLatch = s.hiLatch := rfl
@[simp] theorem State.updPart_wrStage (s : State) (k : Nat) (f : Partner → Partner) : (s.updPart k f).wrStage = s.wrStage := rfl
@[simp] theorem State.updPart_view (s : State) (k : Nat) (f : Partner → Partner) : (s.updPart k f).view = s.view := rfl
@[simp] theorem State.updPart_flips (s : State) (k : Nat) (f : Partner → Partner) : (s.updPart k f).flips = s.flips := rfl

@[simp] theorem State.updSlot_pending (s : State) (k : Nat) (f : Slot → Slot) : (s.updSlot k f).pending = s.pending := rfl
@[simp] theorem State.updSlot_regs (s : State) (k : Nat) (f : Slot → Slot) : (s.updSlot k f).regs = s.regs := rfl
@[simp] theorem State.updSlot_frozen (s : State) (k : Nat) (f : Slot → Slot) : (s.updSlot k f).frozen = s.frozen := rfl
@[simp] theorem State.updSlot_posted (s : State) (k : Nat) (f : Slot → Slot) : (s.updSlot k f).posted = s.posted := rfl
@[simp] theorem State.updSlot_escs (s : State) (k : Nat) (f : Slot → Slot) : (s.updSlot k f).escs = s.escs := rfl
@[simp] theorem State.updSlot_tb (s : State) (k : Nat) (f : Slot → Slot) : (s.updSlot k f).tb = s.tb := rfl
@[simp] theorem State.updSlot_grid (s : State) (k : Nat) (f : Slot → Slot) : (s.updSlot k f).grid = s.grid := rfl
@[simp] theorem State.updSlot_once (s : State) (k : Nat) (f : Slot → Slot) : (s.updSlot k f).once = s.once := rfl
@[simp] theorem State.updSlot_fb (s : State) (k : Nat) (f : Slot → Slot) : (s.updSlot k f).fb = s.fb := rfl
@[simp] theorem State.updSlot_tl (s : State) (k : Nat) (f : Slot → Slot) : (s.updSlot k f).tl = s.tl := rfl
@[simp] theorem State.updSlot_grp (s : State) (k : Nat) (f : Slot → Slot) : (s.updSlot k f).grp = s.grp := rfl
@[simp] theorem State.updSlot_mp (s : State) (k : Nat) (f : Slot → Slot) : (s.updSlot k f).mp = s.mp := rfl
@[simp] theorem State.updSlot_sv (s : State) (k : Nat) (f : Slot → Slot) : (s.updSlot k f).sv = s.sv := rfl
@[simp] theorem State.updSlot_sep (s : State) (k : Nat) (f : Slot → Slot) : (s.updSlot k f).sep = s.sep := rfl
@[simp] theorem State.updSlot_sch (s : State) (k : Nat) (f : Slot → Slot) : (s.updSlot k f).sch = s.sch := rfl
@[simp] theorem State.updSlot_me (s : State) (k : Nat) (f : Slot → Slot) : (s.updSlot k f).me = s.me := rfl
@[simp] theorem State.updSlot_hi (s : State) (k : Nat) (f : Slot → Slot) : (s.updSlot k f).hi = s.hi := rfl
@[simp] theorem State.updSlot_gr (s : State) (k : Nat) (f : Slot → Slot) : (s.updSlot k f).gr = s.gr := rfl
@[simp] theorem State.updSlot_tw (s : State) (k : Nat) (f : Slot → Slot) : (s.updSlot k f).tw = s.tw := rfl
@[simp] theorem State.updSlot_ev (s : State) (k : Nat) (f : Slot → Slot) : (s.updSlot k f).ev = s.ev := rfl
@[simp] theorem State.updSlot_bb (s : State) (k : Nat) (f : Slot → Slot) : (s.updSlot k f).bb = s.bb := rfl
@[simp] theorem State.updSlot_inj (s : State) (k : Nat) (f : Slot → Slot) : (s.updSlot k f).inj = s.inj := rfl
@[simp] theorem State.updSlot_ad (s : State) (k : Nat) (f : Slot → Slot) : (s.updSlot k f).ad = s.ad := rfl
@[simp] theorem State.updSlot_sio (s : State) (k : Nat) (f : Slot → Slot) : (s.updSlot k f).sio = s.sio := rfl
@[simp] theorem State.updSlot_pw (s : State) (k : Nat) (f : Slot → Slot) : (s.updSlot k f).pw = s.pw := rfl
@[simp] theorem State.updSlot_arb (s : State) (k : Nat) (f : Slot → Slot) : (s.updSlot k f).arb = s.arb := rfl
@[simp] theorem State.updSlot_free (s : State) (k : Nat) (f : Slot → Slot) : (s.updSlot k f).free = s.free := rfl
@[simp] theorem State.updSlot_readData (s : State) (k : Nat) (f : Slot → Slot) : (s.updSlot k f).readData = s.readData := rfl
@[simp] theorem State.updSlot_hiLatch (s : State) (k : Nat) (f : Slot → Slot) : (s.updSlot k f).hiLatch = s.hiLatch := rfl
@[simp] theorem State.updSlot_wrStage (s : State) (k : Nat) (f : Slot → Slot) : (s.updSlot k f).wrStage = s.wrStage := rfl
@[simp] theorem State.updSlot_view (s : State) (k : Nat) (f : Slot → Slot) : (s.updSlot k f).view = s.view := rfl
@[simp] theorem State.updSlot_flips (s : State) (k : Nat) (f : Slot → Slot) : (s.updSlot k f).flips = s.flips := rfl

@[simp] theorem State.updGen_pending (s : State) (k : Nat) (f : Gen → Gen) : (s.updGen k f).pending = s.pending := rfl
@[simp] theorem State.updGen_regs (s : State) (k : Nat) (f : Gen → Gen) : (s.updGen k f).regs = s.regs := rfl
@[simp] theorem State.updGen_frozen (s : State) (k : Nat) (f : Gen → Gen) : (s.updGen k f).frozen = s.frozen := rfl
@[simp] theorem State.updGen_posted (s : State) (k : Nat) (f : Gen → Gen) : (s.updGen k f).posted = s.posted := rfl
@[simp] theorem State.updGen_escs (s : State) (k : Nat) (f : Gen → Gen) : (s.updGen k f).escs = s.escs := rfl
@[simp] theorem State.updGen_tb (s : State) (k : Nat) (f : Gen → Gen) : (s.updGen k f).tb = s.tb := rfl
@[simp] theorem State.updGen_grid (s : State) (k : Nat) (f : Gen → Gen) : (s.updGen k f).grid = s.grid := rfl
@[simp] theorem State.updGen_once (s : State) (k : Nat) (f : Gen → Gen) : (s.updGen k f).once = s.once := rfl
@[simp] theorem State.updGen_cb (s : State) (k : Nat) (f : Gen → Gen) : (s.updGen k f).cb = s.cb := rfl
@[simp] theorem State.updGen_fb (s : State) (k : Nat) (f : Gen → Gen) : (s.updGen k f).fb = s.fb := rfl
@[simp] theorem State.updGen_tl (s : State) (k : Nat) (f : Gen → Gen) : (s.updGen k f).tl = s.tl := rfl
@[simp] theorem State.updGen_grp (s : State) (k : Nat) (f : Gen → Gen) : (s.updGen k f).grp = s.grp := rfl
@[simp] theorem State.updGen_sv (s : State) (k : Nat) (f : Gen → Gen) : (s.updGen k f).sv = s.sv := rfl
@[simp] theorem State.updGen_sep (s : State) (k : Nat) (f : Gen → Gen) : (s.updGen k f).sep = s.sep := rfl
@[simp] theorem State.updGen_sch (s : State) (k : Nat) (f : Gen → Gen) : (s.updGen k f).sch = s.sch := rfl
@[simp] theorem State.updGen_me (s : State) (k : Nat) (f : Gen → Gen) : (s.updGen k f).me = s.me := rfl
@[simp] theorem State.updGen_hi (s : State) (k : Nat) (f : Gen → Gen) : (s.updGen k f).hi = s.hi := rfl
@[simp] theorem State.updGen_gr (s : State) (k : Nat) (f : Gen → Gen) : (s.updGen k f).gr = s.gr := rfl
@[simp] theorem State.updGen_tw (s : State) (k : Nat) (f : Gen → Gen) : (s.updGen k f).tw = s.tw := rfl
@[simp] theorem State.updGen_ev (s : State) (k : Nat) (f : Gen → Gen) : (s.updGen k f).ev = s.ev := rfl
@[simp] theorem State.updGen_bb (s : State) (k : Nat) (f : Gen → Gen) : (s.updGen k f).bb = s.bb := rfl
@[simp] theorem State.updGen_inj (s : State) (k : Nat) (f : Gen → Gen) : (s.updGen k f).inj = s.inj := rfl
@[simp] theorem State.updGen_ad (s : State) (k : Nat) (f : Gen → Gen) : (s.updGen k f).ad = s.ad := rfl
@[simp] theorem State.updGen_sio (s : State) (k : Nat) (f : Gen → Gen) : (s.updGen k f).sio = s.sio := rfl
@[simp] theorem State.updGen_pw (s : State) (k : Nat) (f : Gen → Gen) : (s.updGen k f).pw = s.pw := rfl
@[simp] theorem State.updGen_arb (s : State) (k : Nat) (f : Gen → Gen) : (s.updGen k f).arb = s.arb := rfl
@[simp] theorem State.updGen_free (s : State) (k : Nat) (f : Gen → Gen) : (s.updGen k f).free = s.free := rfl
@[simp] theorem State.updGen_readData (s : State) (k : Nat) (f : Gen → Gen) : (s.updGen k f).readData = s.readData := rfl
@[simp] theorem State.updGen_hiLatch (s : State) (k : Nat) (f : Gen → Gen) : (s.updGen k f).hiLatch = s.hiLatch := rfl
@[simp] theorem State.updGen_wrStage (s : State) (k : Nat) (f : Gen → Gen) : (s.updGen k f).wrStage = s.wrStage := rfl
@[simp] theorem State.updGen_view (s : State) (k : Nat) (f : Gen → Gen) : (s.updGen k f).view = s.view := rfl
@[simp] theorem State.updGen_flips (s : State) (k : Nat) (f : Gen → Gen) : (s.updGen k f).flips = s.flips := rfl

@[simp] theorem State.updStep_pending (s : State) (k : Nat) (f : StepGen → StepGen) : (s.updStep k f).pending = s.pending := rfl
@[simp] theorem State.updStep_regs (s : State) (k : Nat) (f : StepGen → StepGen) : (s.updStep k f).regs = s.regs := rfl
@[simp] theorem State.updStep_frozen (s : State) (k : Nat) (f : StepGen → StepGen) : (s.updStep k f).frozen = s.frozen := rfl
@[simp] theorem State.updStep_posted (s : State) (k : Nat) (f : StepGen → StepGen) : (s.updStep k f).posted = s.posted := rfl
@[simp] theorem State.updStep_escs (s : State) (k : Nat) (f : StepGen → StepGen) : (s.updStep k f).escs = s.escs := rfl
@[simp] theorem State.updStep_tb (s : State) (k : Nat) (f : StepGen → StepGen) : (s.updStep k f).tb = s.tb := rfl
@[simp] theorem State.updStep_grid (s : State) (k : Nat) (f : StepGen → StepGen) : (s.updStep k f).grid = s.grid := rfl
@[simp] theorem State.updStep_once (s : State) (k : Nat) (f : StepGen → StepGen) : (s.updStep k f).once = s.once := rfl
@[simp] theorem State.updStep_cb (s : State) (k : Nat) (f : StepGen → StepGen) : (s.updStep k f).cb = s.cb := rfl
@[simp] theorem State.updStep_fb (s : State) (k : Nat) (f : StepGen → StepGen) : (s.updStep k f).fb = s.fb := rfl
@[simp] theorem State.updStep_tl (s : State) (k : Nat) (f : StepGen → StepGen) : (s.updStep k f).tl = s.tl := rfl
@[simp] theorem State.updStep_grp (s : State) (k : Nat) (f : StepGen → StepGen) : (s.updStep k f).grp = s.grp := rfl
@[simp] theorem State.updStep_sv (s : State) (k : Nat) (f : StepGen → StepGen) : (s.updStep k f).sv = s.sv := rfl
@[simp] theorem State.updStep_sep (s : State) (k : Nat) (f : StepGen → StepGen) : (s.updStep k f).sep = s.sep := rfl
@[simp] theorem State.updStep_sch (s : State) (k : Nat) (f : StepGen → StepGen) : (s.updStep k f).sch = s.sch := rfl
@[simp] theorem State.updStep_me (s : State) (k : Nat) (f : StepGen → StepGen) : (s.updStep k f).me = s.me := rfl
@[simp] theorem State.updStep_hi (s : State) (k : Nat) (f : StepGen → StepGen) : (s.updStep k f).hi = s.hi := rfl
@[simp] theorem State.updStep_gr (s : State) (k : Nat) (f : StepGen → StepGen) : (s.updStep k f).gr = s.gr := rfl
@[simp] theorem State.updStep_tw (s : State) (k : Nat) (f : StepGen → StepGen) : (s.updStep k f).tw = s.tw := rfl
@[simp] theorem State.updStep_ev (s : State) (k : Nat) (f : StepGen → StepGen) : (s.updStep k f).ev = s.ev := rfl
@[simp] theorem State.updStep_bb (s : State) (k : Nat) (f : StepGen → StepGen) : (s.updStep k f).bb = s.bb := rfl
@[simp] theorem State.updStep_inj (s : State) (k : Nat) (f : StepGen → StepGen) : (s.updStep k f).inj = s.inj := rfl
@[simp] theorem State.updStep_ad (s : State) (k : Nat) (f : StepGen → StepGen) : (s.updStep k f).ad = s.ad := rfl
@[simp] theorem State.updStep_sio (s : State) (k : Nat) (f : StepGen → StepGen) : (s.updStep k f).sio = s.sio := rfl
@[simp] theorem State.updStep_pw (s : State) (k : Nat) (f : StepGen → StepGen) : (s.updStep k f).pw = s.pw := rfl
@[simp] theorem State.updStep_arb (s : State) (k : Nat) (f : StepGen → StepGen) : (s.updStep k f).arb = s.arb := rfl
@[simp] theorem State.updStep_free (s : State) (k : Nat) (f : StepGen → StepGen) : (s.updStep k f).free = s.free := rfl
@[simp] theorem State.updStep_readData (s : State) (k : Nat) (f : StepGen → StepGen) : (s.updStep k f).readData = s.readData := rfl
@[simp] theorem State.updStep_hiLatch (s : State) (k : Nat) (f : StepGen → StepGen) : (s.updStep k f).hiLatch = s.hiLatch := rfl
@[simp] theorem State.updStep_wrStage (s : State) (k : Nat) (f : StepGen → StepGen) : (s.updStep k f).wrStage = s.wrStage := rfl
@[simp] theorem State.updStep_view (s : State) (k : Nat) (f : StepGen → StepGen) : (s.updStep k f).view = s.view := rfl
@[simp] theorem State.updStep_flips (s : State) (k : Nat) (f : StepGen → StepGen) : (s.updStep k f).flips = s.flips := rfl

@[simp] theorem State.updChan_pending (s : State) (k : Nat) (f : Chan → Chan) : (s.updChan k f).pending = s.pending := rfl
@[simp] theorem State.updChan_regs (s : State) (k : Nat) (f : Chan → Chan) : (s.updChan k f).regs = s.regs := rfl
@[simp] theorem State.updChan_frozen (s : State) (k : Nat) (f : Chan → Chan) : (s.updChan k f).frozen = s.frozen := rfl
@[simp] theorem State.updChan_posted (s : State) (k : Nat) (f : Chan → Chan) : (s.updChan k f).posted = s.posted := rfl
@[simp] theorem State.updChan_escs (s : State) (k : Nat) (f : Chan → Chan) : (s.updChan k f).escs = s.escs := rfl
@[simp] theorem State.updChan_tb (s : State) (k : Nat) (f : Chan → Chan) : (s.updChan k f).tb = s.tb := rfl
@[simp] theorem State.updChan_grid (s : State) (k : Nat) (f : Chan → Chan) : (s.updChan k f).grid = s.grid := rfl
@[simp] theorem State.updChan_once (s : State) (k : Nat) (f : Chan → Chan) : (s.updChan k f).once = s.once := rfl
@[simp] theorem State.updChan_cb (s : State) (k : Nat) (f : Chan → Chan) : (s.updChan k f).cb = s.cb := rfl
@[simp] theorem State.updChan_tl (s : State) (k : Nat) (f : Chan → Chan) : (s.updChan k f).tl = s.tl := rfl
@[simp] theorem State.updChan_grp (s : State) (k : Nat) (f : Chan → Chan) : (s.updChan k f).grp = s.grp := rfl
@[simp] theorem State.updChan_mp (s : State) (k : Nat) (f : Chan → Chan) : (s.updChan k f).mp = s.mp := rfl
@[simp] theorem State.updChan_sv (s : State) (k : Nat) (f : Chan → Chan) : (s.updChan k f).sv = s.sv := rfl
@[simp] theorem State.updChan_sep (s : State) (k : Nat) (f : Chan → Chan) : (s.updChan k f).sep = s.sep := rfl
@[simp] theorem State.updChan_sch (s : State) (k : Nat) (f : Chan → Chan) : (s.updChan k f).sch = s.sch := rfl
@[simp] theorem State.updChan_me (s : State) (k : Nat) (f : Chan → Chan) : (s.updChan k f).me = s.me := rfl
@[simp] theorem State.updChan_hi (s : State) (k : Nat) (f : Chan → Chan) : (s.updChan k f).hi = s.hi := rfl
@[simp] theorem State.updChan_gr (s : State) (k : Nat) (f : Chan → Chan) : (s.updChan k f).gr = s.gr := rfl
@[simp] theorem State.updChan_tw (s : State) (k : Nat) (f : Chan → Chan) : (s.updChan k f).tw = s.tw := rfl
@[simp] theorem State.updChan_ev (s : State) (k : Nat) (f : Chan → Chan) : (s.updChan k f).ev = s.ev := rfl
@[simp] theorem State.updChan_bb (s : State) (k : Nat) (f : Chan → Chan) : (s.updChan k f).bb = s.bb := rfl
@[simp] theorem State.updChan_inj (s : State) (k : Nat) (f : Chan → Chan) : (s.updChan k f).inj = s.inj := rfl
@[simp] theorem State.updChan_ad (s : State) (k : Nat) (f : Chan → Chan) : (s.updChan k f).ad = s.ad := rfl
@[simp] theorem State.updChan_sio (s : State) (k : Nat) (f : Chan → Chan) : (s.updChan k f).sio = s.sio := rfl
@[simp] theorem State.updChan_pw (s : State) (k : Nat) (f : Chan → Chan) : (s.updChan k f).pw = s.pw := rfl
@[simp] theorem State.updChan_arb (s : State) (k : Nat) (f : Chan → Chan) : (s.updChan k f).arb = s.arb := rfl
@[simp] theorem State.updChan_free (s : State) (k : Nat) (f : Chan → Chan) : (s.updChan k f).free = s.free := rfl
@[simp] theorem State.updChan_readData (s : State) (k : Nat) (f : Chan → Chan) : (s.updChan k f).readData = s.readData := rfl
@[simp] theorem State.updChan_hiLatch (s : State) (k : Nat) (f : Chan → Chan) : (s.updChan k f).hiLatch = s.hiLatch := rfl
@[simp] theorem State.updChan_wrStage (s : State) (k : Nat) (f : Chan → Chan) : (s.updChan k f).wrStage = s.wrStage := rfl
@[simp] theorem State.updChan_view (s : State) (k : Nat) (f : Chan → Chan) : (s.updChan k f).view = s.view := rfl
@[simp] theorem State.updChan_flips (s : State) (k : Nat) (f : Chan → Chan) : (s.updChan k f).flips = s.flips := rfl

@[simp] theorem State.updMe_pending (s : State) (k : Nat) (f : MeChan → MeChan) : (s.updMe k f).pending = s.pending := rfl
@[simp] theorem State.updMe_regs (s : State) (k : Nat) (f : MeChan → MeChan) : (s.updMe k f).regs = s.regs := rfl
@[simp] theorem State.updMe_frozen (s : State) (k : Nat) (f : MeChan → MeChan) : (s.updMe k f).frozen = s.frozen := rfl
@[simp] theorem State.updMe_posted (s : State) (k : Nat) (f : MeChan → MeChan) : (s.updMe k f).posted = s.posted := rfl
@[simp] theorem State.updMe_escs (s : State) (k : Nat) (f : MeChan → MeChan) : (s.updMe k f).escs = s.escs := rfl
@[simp] theorem State.updMe_tb (s : State) (k : Nat) (f : MeChan → MeChan) : (s.updMe k f).tb = s.tb := rfl
@[simp] theorem State.updMe_grid (s : State) (k : Nat) (f : MeChan → MeChan) : (s.updMe k f).grid = s.grid := rfl
@[simp] theorem State.updMe_once (s : State) (k : Nat) (f : MeChan → MeChan) : (s.updMe k f).once = s.once := rfl
@[simp] theorem State.updMe_cb (s : State) (k : Nat) (f : MeChan → MeChan) : (s.updMe k f).cb = s.cb := rfl
@[simp] theorem State.updMe_fb (s : State) (k : Nat) (f : MeChan → MeChan) : (s.updMe k f).fb = s.fb := rfl
@[simp] theorem State.updMe_tl (s : State) (k : Nat) (f : MeChan → MeChan) : (s.updMe k f).tl = s.tl := rfl
@[simp] theorem State.updMe_grp (s : State) (k : Nat) (f : MeChan → MeChan) : (s.updMe k f).grp = s.grp := rfl
@[simp] theorem State.updMe_mp (s : State) (k : Nat) (f : MeChan → MeChan) : (s.updMe k f).mp = s.mp := rfl
@[simp] theorem State.updMe_sv (s : State) (k : Nat) (f : MeChan → MeChan) : (s.updMe k f).sv = s.sv := rfl
@[simp] theorem State.updMe_sep (s : State) (k : Nat) (f : MeChan → MeChan) : (s.updMe k f).sep = s.sep := rfl
@[simp] theorem State.updMe_sch (s : State) (k : Nat) (f : MeChan → MeChan) : (s.updMe k f).sch = s.sch := rfl
@[simp] theorem State.updMe_hi (s : State) (k : Nat) (f : MeChan → MeChan) : (s.updMe k f).hi = s.hi := rfl
@[simp] theorem State.updMe_gr (s : State) (k : Nat) (f : MeChan → MeChan) : (s.updMe k f).gr = s.gr := rfl
@[simp] theorem State.updMe_tw (s : State) (k : Nat) (f : MeChan → MeChan) : (s.updMe k f).tw = s.tw := rfl
@[simp] theorem State.updMe_ev (s : State) (k : Nat) (f : MeChan → MeChan) : (s.updMe k f).ev = s.ev := rfl
@[simp] theorem State.updMe_bb (s : State) (k : Nat) (f : MeChan → MeChan) : (s.updMe k f).bb = s.bb := rfl
@[simp] theorem State.updMe_inj (s : State) (k : Nat) (f : MeChan → MeChan) : (s.updMe k f).inj = s.inj := rfl
@[simp] theorem State.updMe_ad (s : State) (k : Nat) (f : MeChan → MeChan) : (s.updMe k f).ad = s.ad := rfl
@[simp] theorem State.updMe_sio (s : State) (k : Nat) (f : MeChan → MeChan) : (s.updMe k f).sio = s.sio := rfl
@[simp] theorem State.updMe_pw (s : State) (k : Nat) (f : MeChan → MeChan) : (s.updMe k f).pw = s.pw := rfl
@[simp] theorem State.updMe_arb (s : State) (k : Nat) (f : MeChan → MeChan) : (s.updMe k f).arb = s.arb := rfl
@[simp] theorem State.updMe_free (s : State) (k : Nat) (f : MeChan → MeChan) : (s.updMe k f).free = s.free := rfl
@[simp] theorem State.updMe_readData (s : State) (k : Nat) (f : MeChan → MeChan) : (s.updMe k f).readData = s.readData := rfl
@[simp] theorem State.updMe_hiLatch (s : State) (k : Nat) (f : MeChan → MeChan) : (s.updMe k f).hiLatch = s.hiLatch := rfl
@[simp] theorem State.updMe_wrStage (s : State) (k : Nat) (f : MeChan → MeChan) : (s.updMe k f).wrStage = s.wrStage := rfl
@[simp] theorem State.updMe_view (s : State) (k : Nat) (f : MeChan → MeChan) : (s.updMe k f).view = s.view := rfl
@[simp] theorem State.updMe_flips (s : State) (k : Nat) (f : MeChan → MeChan) : (s.updMe k f).flips = s.flips := rfl

@[simp] theorem State.updCring_pending (s : State) (k : Nat) (f : CRing → CRing) : (s.updCring k f).pending = s.pending := rfl
@[simp] theorem State.updCring_regs (s : State) (k : Nat) (f : CRing → CRing) : (s.updCring k f).regs = s.regs := rfl
@[simp] theorem State.updCring_frozen (s : State) (k : Nat) (f : CRing → CRing) : (s.updCring k f).frozen = s.frozen := rfl
@[simp] theorem State.updCring_posted (s : State) (k : Nat) (f : CRing → CRing) : (s.updCring k f).posted = s.posted := rfl
@[simp] theorem State.updCring_escs (s : State) (k : Nat) (f : CRing → CRing) : (s.updCring k f).escs = s.escs := rfl
@[simp] theorem State.updCring_tb (s : State) (k : Nat) (f : CRing → CRing) : (s.updCring k f).tb = s.tb := rfl
@[simp] theorem State.updCring_grid (s : State) (k : Nat) (f : CRing → CRing) : (s.updCring k f).grid = s.grid := rfl
@[simp] theorem State.updCring_once (s : State) (k : Nat) (f : CRing → CRing) : (s.updCring k f).once = s.once := rfl
@[simp] theorem State.updCring_cb (s : State) (k : Nat) (f : CRing → CRing) : (s.updCring k f).cb = s.cb := rfl
@[simp] theorem State.updCring_fb (s : State) (k : Nat) (f : CRing → CRing) : (s.updCring k f).fb = s.fb := rfl
@[simp] theorem State.updCring_tl (s : State) (k : Nat) (f : CRing → CRing) : (s.updCring k f).tl = s.tl := rfl
@[simp] theorem State.updCring_grp (s : State) (k : Nat) (f : CRing → CRing) : (s.updCring k f).grp = s.grp := rfl
@[simp] theorem State.updCring_mp (s : State) (k : Nat) (f : CRing → CRing) : (s.updCring k f).mp = s.mp := rfl
@[simp] theorem State.updCring_sv (s : State) (k : Nat) (f : CRing → CRing) : (s.updCring k f).sv = s.sv := rfl
@[simp] theorem State.updCring_sep (s : State) (k : Nat) (f : CRing → CRing) : (s.updCring k f).sep = s.sep := rfl
@[simp] theorem State.updCring_sch (s : State) (k : Nat) (f : CRing → CRing) : (s.updCring k f).sch = s.sch := rfl
@[simp] theorem State.updCring_me (s : State) (k : Nat) (f : CRing → CRing) : (s.updCring k f).me = s.me := rfl
@[simp] theorem State.updCring_gr (s : State) (k : Nat) (f : CRing → CRing) : (s.updCring k f).gr = s.gr := rfl
@[simp] theorem State.updCring_tw (s : State) (k : Nat) (f : CRing → CRing) : (s.updCring k f).tw = s.tw := rfl
@[simp] theorem State.updCring_ev (s : State) (k : Nat) (f : CRing → CRing) : (s.updCring k f).ev = s.ev := rfl
@[simp] theorem State.updCring_bb (s : State) (k : Nat) (f : CRing → CRing) : (s.updCring k f).bb = s.bb := rfl
@[simp] theorem State.updCring_inj (s : State) (k : Nat) (f : CRing → CRing) : (s.updCring k f).inj = s.inj := rfl
@[simp] theorem State.updCring_ad (s : State) (k : Nat) (f : CRing → CRing) : (s.updCring k f).ad = s.ad := rfl
@[simp] theorem State.updCring_sio (s : State) (k : Nat) (f : CRing → CRing) : (s.updCring k f).sio = s.sio := rfl
@[simp] theorem State.updCring_pw (s : State) (k : Nat) (f : CRing → CRing) : (s.updCring k f).pw = s.pw := rfl
@[simp] theorem State.updCring_arb (s : State) (k : Nat) (f : CRing → CRing) : (s.updCring k f).arb = s.arb := rfl
@[simp] theorem State.updCring_free (s : State) (k : Nat) (f : CRing → CRing) : (s.updCring k f).free = s.free := rfl
@[simp] theorem State.updCring_readData (s : State) (k : Nat) (f : CRing → CRing) : (s.updCring k f).readData = s.readData := rfl
@[simp] theorem State.updCring_hiLatch (s : State) (k : Nat) (f : CRing → CRing) : (s.updCring k f).hiLatch = s.hiLatch := rfl
@[simp] theorem State.updCring_wrStage (s : State) (k : Nat) (f : CRing → CRing) : (s.updCring k f).wrStage = s.wrStage := rfl
@[simp] theorem State.updCring_view (s : State) (k : Nat) (f : CRing → CRing) : (s.updCring k f).view = s.view := rfl
@[simp] theorem State.updCring_flips (s : State) (k : Nat) (f : CRing → CRing) : (s.updCring k f).flips = s.flips := rfl

@[simp] theorem State.updGroup_pending (s : State) (k : Nat) (f : Group → Group) : (s.updGroup k f).pending = s.pending := rfl
@[simp] theorem State.updGroup_regs (s : State) (k : Nat) (f : Group → Group) : (s.updGroup k f).regs = s.regs := rfl
@[simp] theorem State.updGroup_frozen (s : State) (k : Nat) (f : Group → Group) : (s.updGroup k f).frozen = s.frozen := rfl
@[simp] theorem State.updGroup_posted (s : State) (k : Nat) (f : Group → Group) : (s.updGroup k f).posted = s.posted := rfl
@[simp] theorem State.updGroup_escs (s : State) (k : Nat) (f : Group → Group) : (s.updGroup k f).escs = s.escs := rfl
@[simp] theorem State.updGroup_tb (s : State) (k : Nat) (f : Group → Group) : (s.updGroup k f).tb = s.tb := rfl
@[simp] theorem State.updGroup_grid (s : State) (k : Nat) (f : Group → Group) : (s.updGroup k f).grid = s.grid := rfl
@[simp] theorem State.updGroup_once (s : State) (k : Nat) (f : Group → Group) : (s.updGroup k f).once = s.once := rfl
@[simp] theorem State.updGroup_cb (s : State) (k : Nat) (f : Group → Group) : (s.updGroup k f).cb = s.cb := rfl
@[simp] theorem State.updGroup_fb (s : State) (k : Nat) (f : Group → Group) : (s.updGroup k f).fb = s.fb := rfl
@[simp] theorem State.updGroup_tl (s : State) (k : Nat) (f : Group → Group) : (s.updGroup k f).tl = s.tl := rfl
@[simp] theorem State.updGroup_mp (s : State) (k : Nat) (f : Group → Group) : (s.updGroup k f).mp = s.mp := rfl
@[simp] theorem State.updGroup_sv (s : State) (k : Nat) (f : Group → Group) : (s.updGroup k f).sv = s.sv := rfl
@[simp] theorem State.updGroup_sep (s : State) (k : Nat) (f : Group → Group) : (s.updGroup k f).sep = s.sep := rfl
@[simp] theorem State.updGroup_sch (s : State) (k : Nat) (f : Group → Group) : (s.updGroup k f).sch = s.sch := rfl
@[simp] theorem State.updGroup_me (s : State) (k : Nat) (f : Group → Group) : (s.updGroup k f).me = s.me := rfl
@[simp] theorem State.updGroup_hi (s : State) (k : Nat) (f : Group → Group) : (s.updGroup k f).hi = s.hi := rfl
@[simp] theorem State.updGroup_gr (s : State) (k : Nat) (f : Group → Group) : (s.updGroup k f).gr = s.gr := rfl
@[simp] theorem State.updGroup_tw (s : State) (k : Nat) (f : Group → Group) : (s.updGroup k f).tw = s.tw := rfl
@[simp] theorem State.updGroup_ev (s : State) (k : Nat) (f : Group → Group) : (s.updGroup k f).ev = s.ev := rfl
@[simp] theorem State.updGroup_bb (s : State) (k : Nat) (f : Group → Group) : (s.updGroup k f).bb = s.bb := rfl
@[simp] theorem State.updGroup_inj (s : State) (k : Nat) (f : Group → Group) : (s.updGroup k f).inj = s.inj := rfl
@[simp] theorem State.updGroup_ad (s : State) (k : Nat) (f : Group → Group) : (s.updGroup k f).ad = s.ad := rfl
@[simp] theorem State.updGroup_sio (s : State) (k : Nat) (f : Group → Group) : (s.updGroup k f).sio = s.sio := rfl
@[simp] theorem State.updGroup_pw (s : State) (k : Nat) (f : Group → Group) : (s.updGroup k f).pw = s.pw := rfl
@[simp] theorem State.updGroup_arb (s : State) (k : Nat) (f : Group → Group) : (s.updGroup k f).arb = s.arb := rfl
@[simp] theorem State.updGroup_free (s : State) (k : Nat) (f : Group → Group) : (s.updGroup k f).free = s.free := rfl
@[simp] theorem State.updGroup_readData (s : State) (k : Nat) (f : Group → Group) : (s.updGroup k f).readData = s.readData := rfl
@[simp] theorem State.updGroup_hiLatch (s : State) (k : Nat) (f : Group → Group) : (s.updGroup k f).hiLatch = s.hiLatch := rfl
@[simp] theorem State.updGroup_wrStage (s : State) (k : Nat) (f : Group → Group) : (s.updGroup k f).wrStage = s.wrStage := rfl
@[simp] theorem State.updGroup_view (s : State) (k : Nat) (f : Group → Group) : (s.updGroup k f).view = s.view := rfl
@[simp] theorem State.updGroup_flips (s : State) (k : Nat) (f : Group → Group) : (s.updGroup k f).flips = s.flips := rfl

@[simp] theorem State.updTil_pending (s : State) (k : Nat) (f : Tiller → Tiller) : (s.updTil k f).pending = s.pending := rfl
@[simp] theorem State.updTil_regs (s : State) (k : Nat) (f : Tiller → Tiller) : (s.updTil k f).regs = s.regs := rfl
@[simp] theorem State.updTil_frozen (s : State) (k : Nat) (f : Tiller → Tiller) : (s.updTil k f).frozen = s.frozen := rfl
@[simp] theorem State.updTil_posted (s : State) (k : Nat) (f : Tiller → Tiller) : (s.updTil k f).posted = s.posted := rfl
@[simp] theorem State.updTil_escs (s : State) (k : Nat) (f : Tiller → Tiller) : (s.updTil k f).escs = s.escs := rfl
@[simp] theorem State.updTil_tb (s : State) (k : Nat) (f : Tiller → Tiller) : (s.updTil k f).tb = s.tb := rfl
@[simp] theorem State.updTil_grid (s : State) (k : Nat) (f : Tiller → Tiller) : (s.updTil k f).grid = s.grid := rfl
@[simp] theorem State.updTil_once (s : State) (k : Nat) (f : Tiller → Tiller) : (s.updTil k f).once = s.once := rfl
@[simp] theorem State.updTil_cb (s : State) (k : Nat) (f : Tiller → Tiller) : (s.updTil k f).cb = s.cb := rfl
@[simp] theorem State.updTil_fb (s : State) (k : Nat) (f : Tiller → Tiller) : (s.updTil k f).fb = s.fb := rfl
@[simp] theorem State.updTil_grp (s : State) (k : Nat) (f : Tiller → Tiller) : (s.updTil k f).grp = s.grp := rfl
@[simp] theorem State.updTil_mp (s : State) (k : Nat) (f : Tiller → Tiller) : (s.updTil k f).mp = s.mp := rfl
@[simp] theorem State.updTil_sv (s : State) (k : Nat) (f : Tiller → Tiller) : (s.updTil k f).sv = s.sv := rfl
@[simp] theorem State.updTil_sep (s : State) (k : Nat) (f : Tiller → Tiller) : (s.updTil k f).sep = s.sep := rfl
@[simp] theorem State.updTil_sch (s : State) (k : Nat) (f : Tiller → Tiller) : (s.updTil k f).sch = s.sch := rfl
@[simp] theorem State.updTil_me (s : State) (k : Nat) (f : Tiller → Tiller) : (s.updTil k f).me = s.me := rfl
@[simp] theorem State.updTil_hi (s : State) (k : Nat) (f : Tiller → Tiller) : (s.updTil k f).hi = s.hi := rfl
@[simp] theorem State.updTil_gr (s : State) (k : Nat) (f : Tiller → Tiller) : (s.updTil k f).gr = s.gr := rfl
@[simp] theorem State.updTil_tw (s : State) (k : Nat) (f : Tiller → Tiller) : (s.updTil k f).tw = s.tw := rfl
@[simp] theorem State.updTil_ev (s : State) (k : Nat) (f : Tiller → Tiller) : (s.updTil k f).ev = s.ev := rfl
@[simp] theorem State.updTil_bb (s : State) (k : Nat) (f : Tiller → Tiller) : (s.updTil k f).bb = s.bb := rfl
@[simp] theorem State.updTil_inj (s : State) (k : Nat) (f : Tiller → Tiller) : (s.updTil k f).inj = s.inj := rfl
@[simp] theorem State.updTil_ad (s : State) (k : Nat) (f : Tiller → Tiller) : (s.updTil k f).ad = s.ad := rfl
@[simp] theorem State.updTil_sio (s : State) (k : Nat) (f : Tiller → Tiller) : (s.updTil k f).sio = s.sio := rfl
@[simp] theorem State.updTil_pw (s : State) (k : Nat) (f : Tiller → Tiller) : (s.updTil k f).pw = s.pw := rfl
@[simp] theorem State.updTil_arb (s : State) (k : Nat) (f : Tiller → Tiller) : (s.updTil k f).arb = s.arb := rfl
@[simp] theorem State.updTil_free (s : State) (k : Nat) (f : Tiller → Tiller) : (s.updTil k f).free = s.free := rfl
@[simp] theorem State.updTil_readData (s : State) (k : Nat) (f : Tiller → Tiller) : (s.updTil k f).readData = s.readData := rfl
@[simp] theorem State.updTil_hiLatch (s : State) (k : Nat) (f : Tiller → Tiller) : (s.updTil k f).hiLatch = s.hiLatch := rfl
@[simp] theorem State.updTil_wrStage (s : State) (k : Nat) (f : Tiller → Tiller) : (s.updTil k f).wrStage = s.wrStage := rfl
@[simp] theorem State.updTil_view (s : State) (k : Nat) (f : Tiller → Tiller) : (s.updTil k f).view = s.view := rfl
@[simp] theorem State.updTil_flips (s : State) (k : Nat) (f : Tiller → Tiller) : (s.updTil k f).flips = s.flips := rfl

@[simp] theorem State.updTrig_pending (s : State) (k : Nat) (f : Trig → Trig) : (s.updTrig k f).pending = s.pending := rfl
@[simp] theorem State.updTrig_regs (s : State) (k : Nat) (f : Trig → Trig) : (s.updTrig k f).regs = s.regs := rfl
@[simp] theorem State.updTrig_frozen (s : State) (k : Nat) (f : Trig → Trig) : (s.updTrig k f).frozen = s.frozen := rfl
@[simp] theorem State.updTrig_posted (s : State) (k : Nat) (f : Trig → Trig) : (s.updTrig k f).posted = s.posted := rfl
@[simp] theorem State.updTrig_escs (s : State) (k : Nat) (f : Trig → Trig) : (s.updTrig k f).escs = s.escs := rfl
@[simp] theorem State.updTrig_grid (s : State) (k : Nat) (f : Trig → Trig) : (s.updTrig k f).grid = s.grid := rfl
@[simp] theorem State.updTrig_once (s : State) (k : Nat) (f : Trig → Trig) : (s.updTrig k f).once = s.once := rfl
@[simp] theorem State.updTrig_cb (s : State) (k : Nat) (f : Trig → Trig) : (s.updTrig k f).cb = s.cb := rfl
@[simp] theorem State.updTrig_fb (s : State) (k : Nat) (f : Trig → Trig) : (s.updTrig k f).fb = s.fb := rfl
@[simp] theorem State.updTrig_tl (s : State) (k : Nat) (f : Trig → Trig) : (s.updTrig k f).tl = s.tl := rfl
@[simp] theorem State.updTrig_grp (s : State) (k : Nat) (f : Trig → Trig) : (s.updTrig k f).grp = s.grp := rfl
@[simp] theorem State.updTrig_mp (s : State) (k : Nat) (f : Trig → Trig) : (s.updTrig k f).mp = s.mp := rfl
@[simp] theorem State.updTrig_sv (s : State) (k : Nat) (f : Trig → Trig) : (s.updTrig k f).sv = s.sv := rfl
@[simp] theorem State.updTrig_sep (s : State) (k : Nat) (f : Trig → Trig) : (s.updTrig k f).sep = s.sep := rfl
@[simp] theorem State.updTrig_sch (s : State) (k : Nat) (f : Trig → Trig) : (s.updTrig k f).sch = s.sch := rfl
@[simp] theorem State.updTrig_me (s : State) (k : Nat) (f : Trig → Trig) : (s.updTrig k f).me = s.me := rfl
@[simp] theorem State.updTrig_hi (s : State) (k : Nat) (f : Trig → Trig) : (s.updTrig k f).hi = s.hi := rfl
@[simp] theorem State.updTrig_gr (s : State) (k : Nat) (f : Trig → Trig) : (s.updTrig k f).gr = s.gr := rfl
@[simp] theorem State.updTrig_tw (s : State) (k : Nat) (f : Trig → Trig) : (s.updTrig k f).tw = s.tw := rfl
@[simp] theorem State.updTrig_ev (s : State) (k : Nat) (f : Trig → Trig) : (s.updTrig k f).ev = s.ev := rfl
@[simp] theorem State.updTrig_bb (s : State) (k : Nat) (f : Trig → Trig) : (s.updTrig k f).bb = s.bb := rfl
@[simp] theorem State.updTrig_inj (s : State) (k : Nat) (f : Trig → Trig) : (s.updTrig k f).inj = s.inj := rfl
@[simp] theorem State.updTrig_ad (s : State) (k : Nat) (f : Trig → Trig) : (s.updTrig k f).ad = s.ad := rfl
@[simp] theorem State.updTrig_sio (s : State) (k : Nat) (f : Trig → Trig) : (s.updTrig k f).sio = s.sio := rfl
@[simp] theorem State.updTrig_pw (s : State) (k : Nat) (f : Trig → Trig) : (s.updTrig k f).pw = s.pw := rfl
@[simp] theorem State.updTrig_arb (s : State) (k : Nat) (f : Trig → Trig) : (s.updTrig k f).arb = s.arb := rfl
@[simp] theorem State.updTrig_free (s : State) (k : Nat) (f : Trig → Trig) : (s.updTrig k f).free = s.free := rfl
@[simp] theorem State.updTrig_readData (s : State) (k : Nat) (f : Trig → Trig) : (s.updTrig k f).readData = s.readData := rfl
@[simp] theorem State.updTrig_hiLatch (s : State) (k : Nat) (f : Trig → Trig) : (s.updTrig k f).hiLatch = s.hiLatch := rfl
@[simp] theorem State.updTrig_wrStage (s : State) (k : Nat) (f : Trig → Trig) : (s.updTrig k f).wrStage = s.wrStage := rfl
@[simp] theorem State.updTrig_view (s : State) (k : Nat) (f : Trig → Trig) : (s.updTrig k f).view = s.view := rfl
@[simp] theorem State.updTrig_flips (s : State) (k : Nat) (f : Trig → Trig) : (s.updTrig k f).flips = s.flips := rfl

/-! ### Posting, escalating, replying -/

@[simp] theorem State.post_pending (s : State) (code : Nat) (sev : Sev) (i : Option Nat) (l : List Word) (e j : Bool) : (s.post code sev i l e j).pending = s.pending := rfl
@[simp] theorem State.post_regs (s : State) (code : Nat) (sev : Sev) (i : Option Nat) (l : List Word) (e j : Bool) : (s.post code sev i l e j).regs = s.regs := rfl
@[simp] theorem State.post_frozen (s : State) (code : Nat) (sev : Sev) (i : Option Nat) (l : List Word) (e j : Bool) : (s.post code sev i l e j).frozen = s.frozen := rfl
@[simp] theorem State.post_escs (s : State) (code : Nat) (sev : Sev) (i : Option Nat) (l : List Word) (e j : Bool) : (s.post code sev i l e j).escs = s.escs := rfl
@[simp] theorem State.post_tb (s : State) (code : Nat) (sev : Sev) (i : Option Nat) (l : List Word) (e j : Bool) : (s.post code sev i l e j).tb = s.tb := rfl
@[simp] theorem State.post_grid (s : State) (code : Nat) (sev : Sev) (i : Option Nat) (l : List Word) (e j : Bool) : (s.post code sev i l e j).grid = s.grid := rfl
@[simp] theorem State.post_once (s : State) (code : Nat) (sev : Sev) (i : Option Nat) (l : List Word) (e j : Bool) : (s.post code sev i l e j).once = s.once := rfl
@[simp] theorem State.post_cb (s : State) (code : Nat) (sev : Sev) (i : Option Nat) (l : List Word) (e j : Bool) : (s.post code sev i l e j).cb = s.cb := rfl
@[simp] theorem State.post_fb (s : State) (code : Nat) (sev : Sev) (i : Option Nat) (l : List Word) (e j : Bool) : (s.post code sev i l e j).fb = s.fb := rfl
@[simp] theorem State.post_tl (s : State) (code : Nat) (sev : Sev) (i : Option Nat) (l : List Word) (e j : Bool) : (s.post code sev i l e j).tl = s.tl := rfl
@[simp] theorem State.post_grp (s : State) (code : Nat) (sev : Sev) (i : Option Nat) (l : List Word) (e j : Bool) : (s.post code sev i l e j).grp = s.grp := rfl
@[simp] theorem State.post_mp (s : State) (code : Nat) (sev : Sev) (i : Option Nat) (l : List Word) (e j : Bool) : (s.post code sev i l e j).mp = s.mp := rfl
@[simp] theorem State.post_sv (s : State) (code : Nat) (sev : Sev) (i : Option Nat) (l : List Word) (e j : Bool) : (s.post code sev i l e j).sv = s.sv := rfl
@[simp] theorem State.post_sep (s : State) (code : Nat) (sev : Sev) (i : Option Nat) (l : List Word) (e j : Bool) : (s.post code sev i l e j).sep = s.sep := rfl
@[simp] theorem State.post_sch (s : State) (code : Nat) (sev : Sev) (i : Option Nat) (l : List Word) (e j : Bool) : (s.post code sev i l e j).sch = s.sch := rfl
@[simp] theorem State.post_me (s : State) (code : Nat) (sev : Sev) (i : Option Nat) (l : List Word) (e j : Bool) : (s.post code sev i l e j).me = s.me := rfl
@[simp] theorem State.post_hi (s : State) (code : Nat) (sev : Sev) (i : Option Nat) (l : List Word) (e j : Bool) : (s.post code sev i l e j).hi = s.hi := rfl
@[simp] theorem State.post_gr (s : State) (code : Nat) (sev : Sev) (i : Option Nat) (l : List Word) (e j : Bool) : (s.post code sev i l e j).gr = s.gr := rfl
@[simp] theorem State.post_tw (s : State) (code : Nat) (sev : Sev) (i : Option Nat) (l : List Word) (e j : Bool) : (s.post code sev i l e j).tw = s.tw := rfl
@[simp] theorem State.post_ev (s : State) (code : Nat) (sev : Sev) (i : Option Nat) (l : List Word) (e j : Bool) : (s.post code sev i l e j).ev = s.ev := rfl
@[simp] theorem State.post_bb (s : State) (code : Nat) (sev : Sev) (i : Option Nat) (l : List Word) (e j : Bool) : (s.post code sev i l e j).bb = s.bb := rfl
@[simp] theorem State.post_inj (s : State) (code : Nat) (sev : Sev) (i : Option Nat) (l : List Word) (e j : Bool) : (s.post code sev i l e j).inj = s.inj := rfl
@[simp] theorem State.post_ad (s : State) (code : Nat) (sev : Sev) (i : Option Nat) (l : List Word) (e j : Bool) : (s.post code sev i l e j).ad = s.ad := rfl
@[simp] theorem State.post_sio (s : State) (code : Nat) (sev : Sev) (i : Option Nat) (l : List Word) (e j : Bool) : (s.post code sev i l e j).sio = s.sio := rfl
@[simp] theorem State.post_pw (s : State) (code : Nat) (sev : Sev) (i : Option Nat) (l : List Word) (e j : Bool) : (s.post code sev i l e j).pw = s.pw := rfl
@[simp] theorem State.post_arb (s : State) (code : Nat) (sev : Sev) (i : Option Nat) (l : List Word) (e j : Bool) : (s.post code sev i l e j).arb = s.arb := rfl
@[simp] theorem State.post_free (s : State) (code : Nat) (sev : Sev) (i : Option Nat) (l : List Word) (e j : Bool) : (s.post code sev i l e j).free = s.free := rfl
@[simp] theorem State.post_readData (s : State) (code : Nat) (sev : Sev) (i : Option Nat) (l : List Word) (e j : Bool) : (s.post code sev i l e j).readData = s.readData := rfl
@[simp] theorem State.post_hiLatch (s : State) (code : Nat) (sev : Sev) (i : Option Nat) (l : List Word) (e j : Bool) : (s.post code sev i l e j).hiLatch = s.hiLatch := rfl
@[simp] theorem State.post_wrStage (s : State) (code : Nat) (sev : Sev) (i : Option Nat) (l : List Word) (e j : Bool) : (s.post code sev i l e j).wrStage = s.wrStage := rfl
@[simp] theorem State.post_view (s : State) (code : Nat) (sev : Sev) (i : Option Nat) (l : List Word) (e j : Bool) : (s.post code sev i l e j).view = s.view := rfl
@[simp] theorem State.post_flips (s : State) (code : Nat) (sev : Sev) (i : Option Nat) (l : List Word) (e j : Bool) : (s.post code sev i l e j).flips = s.flips := rfl

@[simp] theorem State.fault_pending (s : State) (m : Nat) (r : React) (c : Nat) (i : Option Nat) (q : Nat) : (s.fault m r c i q).pending = s.pending := rfl
@[simp] theorem State.fault_regs (s : State) (m : Nat) (r : React) (c : Nat) (i : Option Nat) (q : Nat) : (s.fault m r c i q).regs = s.regs := rfl
@[simp] theorem State.fault_frozen (s : State) (m : Nat) (r : React) (c : Nat) (i : Option Nat) (q : Nat) : (s.fault m r c i q).frozen = s.frozen := rfl
@[simp] theorem State.fault_posted (s : State) (m : Nat) (r : React) (c : Nat) (i : Option Nat) (q : Nat) : (s.fault m r c i q).posted = s.posted := rfl
@[simp] theorem State.fault_tb (s : State) (m : Nat) (r : React) (c : Nat) (i : Option Nat) (q : Nat) : (s.fault m r c i q).tb = s.tb := rfl
@[simp] theorem State.fault_grid (s : State) (m : Nat) (r : React) (c : Nat) (i : Option Nat) (q : Nat) : (s.fault m r c i q).grid = s.grid := rfl
@[simp] theorem State.fault_once (s : State) (m : Nat) (r : React) (c : Nat) (i : Option Nat) (q : Nat) : (s.fault m r c i q).once = s.once := rfl
@[simp] theorem State.fault_cb (s : State) (m : Nat) (r : React) (c : Nat) (i : Option Nat) (q : Nat) : (s.fault m r c i q).cb = s.cb := rfl
@[simp] theorem State.fault_fb (s : State) (m : Nat) (r : React) (c : Nat) (i : Option Nat) (q : Nat) : (s.fault m r c i q).fb = s.fb := rfl
@[simp] theorem State.fault_tl (s : State) (m : Nat) (r : React) (c : Nat) (i : Option Nat) (q : Nat) : (s.fault m r c i q).tl = s.tl := rfl
@[simp] theorem State.fault_grp (s : State) (m : Nat) (r : React) (c : Nat) (i : Option Nat) (q : Nat) : (s.fault m r c i q).grp = s.grp := rfl
@[simp] theorem State.fault_mp (s : State) (m : Nat) (r : React) (c : Nat) (i : Option Nat) (q : Nat) : (s.fault m r c i q).mp = s.mp := rfl
@[simp] theorem State.fault_sv (s : State) (m : Nat) (r : React) (c : Nat) (i : Option Nat) (q : Nat) : (s.fault m r c i q).sv = s.sv := rfl
@[simp] theorem State.fault_sep (s : State) (m : Nat) (r : React) (c : Nat) (i : Option Nat) (q : Nat) : (s.fault m r c i q).sep = s.sep := rfl
@[simp] theorem State.fault_sch (s : State) (m : Nat) (r : React) (c : Nat) (i : Option Nat) (q : Nat) : (s.fault m r c i q).sch = s.sch := rfl
@[simp] theorem State.fault_me (s : State) (m : Nat) (r : React) (c : Nat) (i : Option Nat) (q : Nat) : (s.fault m r c i q).me = s.me := rfl
@[simp] theorem State.fault_hi (s : State) (m : Nat) (r : React) (c : Nat) (i : Option Nat) (q : Nat) : (s.fault m r c i q).hi = s.hi := rfl
@[simp] theorem State.fault_gr (s : State) (m : Nat) (r : React) (c : Nat) (i : Option Nat) (q : Nat) : (s.fault m r c i q).gr = s.gr := rfl
@[simp] theorem State.fault_tw (s : State) (m : Nat) (r : React) (c : Nat) (i : Option Nat) (q : Nat) : (s.fault m r c i q).tw = s.tw := rfl
@[simp] theorem State.fault_ev (s : State) (m : Nat) (r : React) (c : Nat) (i : Option Nat) (q : Nat) : (s.fault m r c i q).ev = s.ev := rfl
@[simp] theorem State.fault_bb (s : State) (m : Nat) (r : React) (c : Nat) (i : Option Nat) (q : Nat) : (s.fault m r c i q).bb = s.bb := rfl
@[simp] theorem State.fault_inj (s : State) (m : Nat) (r : React) (c : Nat) (i : Option Nat) (q : Nat) : (s.fault m r c i q).inj = s.inj := rfl
@[simp] theorem State.fault_ad (s : State) (m : Nat) (r : React) (c : Nat) (i : Option Nat) (q : Nat) : (s.fault m r c i q).ad = s.ad := rfl
@[simp] theorem State.fault_sio (s : State) (m : Nat) (r : React) (c : Nat) (i : Option Nat) (q : Nat) : (s.fault m r c i q).sio = s.sio := rfl
@[simp] theorem State.fault_pw (s : State) (m : Nat) (r : React) (c : Nat) (i : Option Nat) (q : Nat) : (s.fault m r c i q).pw = s.pw := rfl
@[simp] theorem State.fault_arb (s : State) (m : Nat) (r : React) (c : Nat) (i : Option Nat) (q : Nat) : (s.fault m r c i q).arb = s.arb := rfl
@[simp] theorem State.fault_free (s : State) (m : Nat) (r : React) (c : Nat) (i : Option Nat) (q : Nat) : (s.fault m r c i q).free = s.free := rfl
@[simp] theorem State.fault_readData (s : State) (m : Nat) (r : React) (c : Nat) (i : Option Nat) (q : Nat) : (s.fault m r c i q).readData = s.readData := rfl
@[simp] theorem State.fault_hiLatch (s : State) (m : Nat) (r : React) (c : Nat) (i : Option Nat) (q : Nat) : (s.fault m r c i q).hiLatch = s.hiLatch := rfl
@[simp] theorem State.fault_wrStage (s : State) (m : Nat) (r : React) (c : Nat) (i : Option Nat) (q : Nat) : (s.fault m r c i q).wrStage = s.wrStage := rfl
@[simp] theorem State.fault_view (s : State) (m : Nat) (r : React) (c : Nat) (i : Option Nat) (q : Nat) : (s.fault m r c i q).view = s.view := rfl
@[simp] theorem State.fault_flips (s : State) (m : Nat) (r : React) (c : Nat) (i : Option Nat) (q : Nat) : (s.fault m r c i q).flips = s.flips := rfl

@[simp] theorem State.fatal_pending (s : State) (m : Nat) (g : Bool) (c : Nat) (i : Option Nat) (q : Nat) : (s.fatal m g c i q).pending = s.pending := rfl
@[simp] theorem State.fatal_regs (s : State) (m : Nat) (g : Bool) (c : Nat) (i : Option Nat) (q : Nat) : (s.fatal m g c i q).regs = s.regs := rfl
@[simp] theorem State.fatal_frozen (s : State) (m : Nat) (g : Bool) (c : Nat) (i : Option Nat) (q : Nat) : (s.fatal m g c i q).frozen = s.frozen := rfl
@[simp] theorem State.fatal_posted (s : State) (m : Nat) (g : Bool) (c : Nat) (i : Option Nat) (q : Nat) : (s.fatal m g c i q).posted = s.posted := rfl
@[simp] theorem State.fatal_tb (s : State) (m : Nat) (g : Bool) (c : Nat) (i : Option Nat) (q : Nat) : (s.fatal m g c i q).tb = s.tb := rfl
@[simp] theorem State.fatal_grid (s : State) (m : Nat) (g : Bool) (c : Nat) (i : Option Nat) (q : Nat) : (s.fatal m g c i q).grid = s.grid := rfl
@[simp] theorem State.fatal_once (s : State) (m : Nat) (g : Bool) (c : Nat) (i : Option Nat) (q : Nat) : (s.fatal m g c i q).once = s.once := rfl
@[simp] theorem State.fatal_cb (s : State) (m : Nat) (g : Bool) (c : Nat) (i : Option Nat) (q : Nat) : (s.fatal m g c i q).cb = s.cb := rfl
@[simp] theorem State.fatal_fb (s : State) (m : Nat) (g : Bool) (c : Nat) (i : Option Nat) (q : Nat) : (s.fatal m g c i q).fb = s.fb := rfl
@[simp] theorem State.fatal_tl (s : State) (m : Nat) (g : Bool) (c : Nat) (i : Option Nat) (q : Nat) : (s.fatal m g c i q).tl = s.tl := rfl
@[simp] theorem State.fatal_grp (s : State) (m : Nat) (g : Bool) (c : Nat) (i : Option Nat) (q : Nat) : (s.fatal m g c i q).grp = s.grp := rfl
@[simp] theorem State.fatal_mp (s : State) (m : Nat) (g : Bool) (c : Nat) (i : Option Nat) (q : Nat) : (s.fatal m g c i q).mp = s.mp := rfl
@[simp] theorem State.fatal_sv (s : State) (m : Nat) (g : Bool) (c : Nat) (i : Option Nat) (q : Nat) : (s.fatal m g c i q).sv = s.sv := rfl
@[simp] theorem State.fatal_sep (s : State) (m : Nat) (g : Bool) (c : Nat) (i : Option Nat) (q : Nat) : (s.fatal m g c i q).sep = s.sep := rfl
@[simp] theorem State.fatal_sch (s : State) (m : Nat) (g : Bool) (c : Nat) (i : Option Nat) (q : Nat) : (s.fatal m g c i q).sch = s.sch := rfl
@[simp] theorem State.fatal_me (s : State) (m : Nat) (g : Bool) (c : Nat) (i : Option Nat) (q : Nat) : (s.fatal m g c i q).me = s.me := rfl
@[simp] theorem State.fatal_hi (s : State) (m : Nat) (g : Bool) (c : Nat) (i : Option Nat) (q : Nat) : (s.fatal m g c i q).hi = s.hi := rfl
@[simp] theorem State.fatal_gr (s : State) (m : Nat) (g : Bool) (c : Nat) (i : Option Nat) (q : Nat) : (s.fatal m g c i q).gr = s.gr := rfl
@[simp] theorem State.fatal_tw (s : State) (m : Nat) (g : Bool) (c : Nat) (i : Option Nat) (q : Nat) : (s.fatal m g c i q).tw = s.tw := rfl
@[simp] theorem State.fatal_ev (s : State) (m : Nat) (g : Bool) (c : Nat) (i : Option Nat) (q : Nat) : (s.fatal m g c i q).ev = s.ev := rfl
@[simp] theorem State.fatal_bb (s : State) (m : Nat) (g : Bool) (c : Nat) (i : Option Nat) (q : Nat) : (s.fatal m g c i q).bb = s.bb := rfl
@[simp] theorem State.fatal_inj (s : State) (m : Nat) (g : Bool) (c : Nat) (i : Option Nat) (q : Nat) : (s.fatal m g c i q).inj = s.inj := rfl
@[simp] theorem State.fatal_ad (s : State) (m : Nat) (g : Bool) (c : Nat) (i : Option Nat) (q : Nat) : (s.fatal m g c i q).ad = s.ad := rfl
@[simp] theorem State.fatal_sio (s : State) (m : Nat) (g : Bool) (c : Nat) (i : Option Nat) (q : Nat) : (s.fatal m g c i q).sio = s.sio := rfl
@[simp] theorem State.fatal_pw (s : State) (m : Nat) (g : Bool) (c : Nat) (i : Option Nat) (q : Nat) : (s.fatal m g c i q).pw = s.pw := rfl
@[simp] theorem State.fatal_arb (s : State) (m : Nat) (g : Bool) (c : Nat) (i : Option Nat) (q : Nat) : (s.fatal m g c i q).arb = s.arb := rfl
@[simp] theorem State.fatal_free (s : State) (m : Nat) (g : Bool) (c : Nat) (i : Option Nat) (q : Nat) : (s.fatal m g c i q).free = s.free := rfl
@[simp] theorem State.fatal_readData (s : State) (m : Nat) (g : Bool) (c : Nat) (i : Option Nat) (q : Nat) : (s.fatal m g c i q).readData = s.readData := rfl
@[simp] theorem State.fatal_hiLatch (s : State) (m : Nat) (g : Bool) (c : Nat) (i : Option Nat) (q : Nat) : (s.fatal m g c i q).hiLatch = s.hiLatch := rfl
@[simp] theorem State.fatal_wrStage (s : State) (m : Nat) (g : Bool) (c : Nat) (i : Option Nat) (q : Nat) : (s.fatal m g c i q).wrStage = s.wrStage := rfl
@[simp] theorem State.fatal_view (s : State) (m : Nat) (g : Bool) (c : Nat) (i : Option Nat) (q : Nat) : (s.fatal m g c i q).view = s.view := rfl
@[simp] theorem State.fatal_flips (s : State) (m : Nat) (g : Bool) (c : Nat) (i : Option Nat) (q : Nat) : (s.fatal m g c i q).flips = s.flips := rfl

@[simp] theorem State.reply_pending (s : State) (w : Word) : (s.reply w).pending = s.pending := rfl
@[simp] theorem State.reply_regs (s : State) (w : Word) : (s.reply w).regs = s.regs := rfl
@[simp] theorem State.reply_frozen (s : State) (w : Word) : (s.reply w).frozen = s.frozen := rfl
@[simp] theorem State.reply_posted (s : State) (w : Word) : (s.reply w).posted = s.posted := rfl
@[simp] theorem State.reply_escs (s : State) (w : Word) : (s.reply w).escs = s.escs := rfl
@[simp] theorem State.reply_tb (s : State) (w : Word) : (s.reply w).tb = s.tb := rfl
@[simp] theorem State.reply_grid (s : State) (w : Word) : (s.reply w).grid = s.grid := rfl
@[simp] theorem State.reply_once (s : State) (w : Word) : (s.reply w).once = s.once := rfl
@[simp] theorem State.reply_cb (s : State) (w : Word) : (s.reply w).cb = s.cb := rfl
@[simp] theorem State.reply_fb (s : State) (w : Word) : (s.reply w).fb = s.fb := rfl
@[simp] theorem State.reply_tl (s : State) (w : Word) : (s.reply w).tl = s.tl := rfl
@[simp] theorem State.reply_grp (s : State) (w : Word) : (s.reply w).grp = s.grp := rfl
@[simp] theorem State.reply_mp (s : State) (w : Word) : (s.reply w).mp = s.mp := rfl
@[simp] theorem State.reply_sv (s : State) (w : Word) : (s.reply w).sv = s.sv := rfl
@[simp] theorem State.reply_sep (s : State) (w : Word) : (s.reply w).sep = s.sep := rfl
@[simp] theorem State.reply_sch (s : State) (w : Word) : (s.reply w).sch = s.sch := rfl
@[simp] theorem State.reply_me (s : State) (w : Word) : (s.reply w).me = s.me := rfl
@[simp] theorem State.reply_hi (s : State) (w : Word) : (s.reply w).hi = s.hi := rfl
@[simp] theorem State.reply_gr (s : State) (w : Word) : (s.reply w).gr = s.gr := rfl
@[simp] theorem State.reply_tw (s : State) (w : Word) : (s.reply w).tw = s.tw := rfl
@[simp] theorem State.reply_ev (s : State) (w : Word) : (s.reply w).ev = s.ev := rfl
@[simp] theorem State.reply_bb (s : State) (w : Word) : (s.reply w).bb = s.bb := rfl
@[simp] theorem State.reply_inj (s : State) (w : Word) : (s.reply w).inj = s.inj := rfl
@[simp] theorem State.reply_ad (s : State) (w : Word) : (s.reply w).ad = s.ad := rfl
@[simp] theorem State.reply_sio (s : State) (w : Word) : (s.reply w).sio = s.sio := rfl
@[simp] theorem State.reply_pw (s : State) (w : Word) : (s.reply w).pw = s.pw := rfl
@[simp] theorem State.reply_arb (s : State) (w : Word) : (s.reply w).arb = s.arb := rfl
@[simp] theorem State.reply_free (s : State) (w : Word) : (s.reply w).free = s.free := rfl
@[simp] theorem State.reply_hiLatch (s : State) (w : Word) : (s.reply w).hiLatch = s.hiLatch := rfl
@[simp] theorem State.reply_wrStage (s : State) (w : Word) : (s.reply w).wrStage = s.wrStage := rfl
@[simp] theorem State.reply_view (s : State) (w : Word) : (s.reply w).view = s.view := rfl
@[simp] theorem State.reply_flips (s : State) (w : Word) : (s.reply w).flips = s.flips := rfl

@[simp] theorem State.latch_pending (s : State) (o : Nat) (w : Word) : (s.latch o w).pending = s.pending := rfl
@[simp] theorem State.latch_regs (s : State) (o : Nat) (w : Word) : (s.latch o w).regs = s.regs := rfl
@[simp] theorem State.latch_frozen (s : State) (o : Nat) (w : Word) : (s.latch o w).frozen = s.frozen := rfl
@[simp] theorem State.latch_posted (s : State) (o : Nat) (w : Word) : (s.latch o w).posted = s.posted := rfl
@[simp] theorem State.latch_escs (s : State) (o : Nat) (w : Word) : (s.latch o w).escs = s.escs := rfl
@[simp] theorem State.latch_tb (s : State) (o : Nat) (w : Word) : (s.latch o w).tb = s.tb := rfl
@[simp] theorem State.latch_grid (s : State) (o : Nat) (w : Word) : (s.latch o w).grid = s.grid := rfl
@[simp] theorem State.latch_once (s : State) (o : Nat) (w : Word) : (s.latch o w).once = s.once := rfl
@[simp] theorem State.latch_cb (s : State) (o : Nat) (w : Word) : (s.latch o w).cb = s.cb := rfl
@[simp] theorem State.latch_fb (s : State) (o : Nat) (w : Word) : (s.latch o w).fb = s.fb := rfl
@[simp] theorem State.latch_tl (s : State) (o : Nat) (w : Word) : (s.latch o w).tl = s.tl := rfl
@[simp] theorem State.latch_grp (s : State) (o : Nat) (w : Word) : (s.latch o w).grp = s.grp := rfl
@[simp] theorem State.latch_mp (s : State) (o : Nat) (w : Word) : (s.latch o w).mp = s.mp := rfl
@[simp] theorem State.latch_sv (s : State) (o : Nat) (w : Word) : (s.latch o w).sv = s.sv := rfl
@[simp] theorem State.latch_sep (s : State) (o : Nat) (w : Word) : (s.latch o w).sep = s.sep := rfl
@[simp] theorem State.latch_sch (s : State) (o : Nat) (w : Word) : (s.latch o w).sch = s.sch := rfl
@[simp] theorem State.latch_me (s : State) (o : Nat) (w : Word) : (s.latch o w).me = s.me := rfl
@[simp] theorem State.latch_hi (s : State) (o : Nat) (w : Word) : (s.latch o w).hi = s.hi := rfl
@[simp] theorem State.latch_gr (s : State) (o : Nat) (w : Word) : (s.latch o w).gr = s.gr := rfl
@[simp] theorem State.latch_tw (s : State) (o : Nat) (w : Word) : (s.latch o w).tw = s.tw := rfl
@[simp] theorem State.latch_ev (s : State) (o : Nat) (w : Word) : (s.latch o w).ev = s.ev := rfl
@[simp] theorem State.latch_bb (s : State) (o : Nat) (w : Word) : (s.latch o w).bb = s.bb := rfl
@[simp] theorem State.latch_inj (s : State) (o : Nat) (w : Word) : (s.latch o w).inj = s.inj := rfl
@[simp] theorem State.latch_ad (s : State) (o : Nat) (w : Word) : (s.latch o w).ad = s.ad := rfl
@[simp] theorem State.latch_sio (s : State) (o : Nat) (w : Word) : (s.latch o w).sio = s.sio := rfl
@[simp] theorem State.latch_pw (s : State) (o : Nat) (w : Word) : (s.latch o w).pw = s.pw := rfl
@[simp] theorem State.latch_arb (s : State) (o : Nat) (w : Word) : (s.latch o w).arb = s.arb := rfl
@[simp] theorem State.latch_free (s : State) (o : Nat) (w : Word) : (s.latch o w).free = s.free := rfl
@[simp] theorem State.latch_readData (s : State) (o : Nat) (w : Word) : (s.latch o w).readData = s.readData := rfl
@[simp] theorem State.latch_wrStage (s : State) (o : Nat) (w : Word) : (s.latch o w).wrStage = s.wrStage := rfl
@[simp] theorem State.latch_view (s : State) (o : Nat) (w : Word) : (s.latch o w).view = s.view := rfl
@[simp] theorem State.latch_flips (s : State) (o : Nat) (w : Word) : (s.latch o w).flips = s.flips := rfl

@[simp] theorem State.draw_pending (s : State) : (s.draw).pending = s.pending := rfl
@[simp] theorem State.draw_regs (s : State) : (s.draw).regs = s.regs := rfl
@[simp] theorem State.draw_frozen (s : State) : (s.draw).frozen = s.frozen := rfl
@[simp] theorem State.draw_posted (s : State) : (s.draw).posted = s.posted := rfl
@[simp] theorem State.draw_escs (s : State) : (s.draw).escs = s.escs := rfl
@[simp] theorem State.draw_tb (s : State) : (s.draw).tb = s.tb := rfl
@[simp] theorem State.draw_grid (s : State) : (s.draw).grid = s.grid := rfl
@[simp] theorem State.draw_once (s : State) : (s.draw).once = s.once := rfl
@[simp] theorem State.draw_cb (s : State) : (s.draw).cb = s.cb := rfl
@[simp] theorem State.draw_fb (s : State) : (s.draw).fb = s.fb := rfl
@[simp] theorem State.draw_tl (s : State) : (s.draw).tl = s.tl := rfl
@[simp] theorem State.draw_grp (s : State) : (s.draw).grp = s.grp := rfl
@[simp] theorem State.draw_mp (s : State) : (s.draw).mp = s.mp := rfl
@[simp] theorem State.draw_sv (s : State) : (s.draw).sv = s.sv := rfl
@[simp] theorem State.draw_sep (s : State) : (s.draw).sep = s.sep := rfl
@[simp] theorem State.draw_sch (s : State) : (s.draw).sch = s.sch := rfl
@[simp] theorem State.draw_me (s : State) : (s.draw).me = s.me := rfl
@[simp] theorem State.draw_hi (s : State) : (s.draw).hi = s.hi := rfl
@[simp] theorem State.draw_gr (s : State) : (s.draw).gr = s.gr := rfl
@[simp] theorem State.draw_tw (s : State) : (s.draw).tw = s.tw := rfl
@[simp] theorem State.draw_ev (s : State) : (s.draw).ev = s.ev := rfl
@[simp] theorem State.draw_bb (s : State) : (s.draw).bb = s.bb := rfl
@[simp] theorem State.draw_inj (s : State) : (s.draw).inj = s.inj := rfl
@[simp] theorem State.draw_ad (s : State) : (s.draw).ad = s.ad := rfl
@[simp] theorem State.draw_sio (s : State) : (s.draw).sio = s.sio := rfl
@[simp] theorem State.draw_pw (s : State) : (s.draw).pw = s.pw := rfl
@[simp] theorem State.draw_arb (s : State) : (s.draw).arb = s.arb := rfl
@[simp] theorem State.draw_readData (s : State) : (s.draw).readData = s.readData := rfl
@[simp] theorem State.draw_hiLatch (s : State) : (s.draw).hiLatch = s.hiLatch := rfl
@[simp] theorem State.draw_wrStage (s : State) : (s.draw).wrStage = s.wrStage := rfl
@[simp] theorem State.draw_view (s : State) : (s.draw).view = s.view := rfl
@[simp] theorem State.draw_flips (s : State) : (s.draw).flips = s.flips := rfl

@[simp] theorem State.reply_readData (s : State) (w : Word) : (s.reply w).readData = w := rfl
@[simp] theorem State.draw_free (s : State) : s.draw.free = s.free + 1 := rfl

/-! ### A register read sees only register writes -/

@[simp] theorem State.get_updAd (s : State) (f : Adc → Adc) (fd : Field) (fn : Nat) : (s.updAd f).get fd fn = s.get fd fn := rfl
@[simp] theorem State.get_updGr (s : State) (f : Granary → Granary) (fd : Field) (fn : Nat) : (s.updGr f).get fd fn = s.get fd fn := rfl
@[simp] theorem State.get_updHi (s : State) (f : HostIf → HostIf) (fd : Field) (fn : Nat) : (s.updHi f).get fd fn = s.get fd fn := rfl
@[simp] theorem State.get_updTw (s : State) (f : Twin → Twin) (fd : Field) (fn : Nat) : (s.updTw f).get fd fn = s.get fd fn := rfl
@[simp] theorem State.get_updPw (s : State) (f : Power → Power) (fd : Field) (fn : Nat) : (s.updPw f).get fd fn = s.get fd fn := rfl
@[simp] theorem State.get_updEv (s : State) (f : Recorder → Recorder) (fd : Field) (fn : Nat) : (s.updEv f).get fd fn = s.get fd fn := rfl
@[simp] theorem State.get_updBb (s : State) (f : Orangery → Orangery) (fd : Field) (fn : Nat) : (s.updBb f).get fd fn = s.get fd fn := rfl
@[simp] theorem State.get_updSep (s : State) (f : Separation → Separation) (fd : Field) (fn : Nat) : (s.updSep f).get fd fn = s.get fd fn := rfl
@[simp] theorem State.get_updSio (s : State) (f : Safety → Safety) (fd : Field) (fn : Nat) : (s.updSio f).get fd fn = s.get fd fn := rfl
@[simp] theorem State.get_updTb (s : State) (f : TimeBase → TimeBase) (fd : Field) (fn : Nat) : (s.updTb f).get fd fn = s.get fd fn := rfl
@[simp] theorem State.get_updEng (s : State) (k : Nat) (f : Engine → Engine) (fd : Field) (fn : Nat) : (s.updEng k f).get fd fn = s.get fd fn := rfl
@[simp] theorem State.get_updDport (s : State) (k : Nat) (f : DPort → DPort) (fd : Field) (fn : Nat) : (s.updDport k f).get fd fn = s.get fd fn := rfl
@[simp] theorem State.get_updEmul (s : State) (k : Nat) (f : Emul → Emul) (fd : Field) (fn : Nat) : (s.updEmul k f).get fd fn = s.get fd fn := rfl
@[simp] theorem State.get_updTask (s : State) (k : Nat) (f : Task → Task) (fd : Field) (fn : Nat) : (s.updTask k f).get fd fn = s.get fd fn := rfl
@[simp] theorem State.get_updPort (s : State) (k : Nat) (f : Port → Port) (fd : Field) (fn : Nat) : (s.updPort k f).get fd fn = s.get fd fn := rfl
@[simp] theorem State.get_updPart (s : State) (k : Nat) (f : Partner → Partner) (fd : Field) (fn : Nat) : (s.updPart k f).get fd fn = s.get fd fn := rfl
@[simp] theorem State.get_updSlot (s : State) (k : Nat) (f : Slot → Slot) (fd : Field) (fn : Nat) : (s.updSlot k f).get fd fn = s.get fd fn := rfl
@[simp] theorem State.get_updGen (s : State) (k : Nat) (f : Gen → Gen) (fd : Field) (fn : Nat) : (s.updGen k f).get fd fn = s.get fd fn := rfl
@[simp] theorem State.get_updStep (s : State) (k : Nat) (f : StepGen → StepGen) (fd : Field) (fn : Nat) : (s.updStep k f).get fd fn = s.get fd fn := rfl
@[simp] theorem State.get_updChan (s : State) (k : Nat) (f : Chan → Chan) (fd : Field) (fn : Nat) : (s.updChan k f).get fd fn = s.get fd fn := rfl
@[simp] theorem State.get_updMe (s : State) (k : Nat) (f : MeChan → MeChan) (fd : Field) (fn : Nat) : (s.updMe k f).get fd fn = s.get fd fn := rfl
@[simp] theorem State.get_updCring (s : State) (k : Nat) (f : CRing → CRing) (fd : Field) (fn : Nat) : (s.updCring k f).get fd fn = s.get fd fn := rfl
@[simp] theorem State.get_updGroup (s : State) (k : Nat) (f : Group → Group) (fd : Field) (fn : Nat) : (s.updGroup k f).get fd fn = s.get fd fn := rfl
@[simp] theorem State.get_updTil (s : State) (k : Nat) (f : Tiller → Tiller) (fd : Field) (fn : Nat) : (s.updTil k f).get fd fn = s.get fd fn := rfl
@[simp] theorem State.get_updTrig (s : State) (k : Nat) (f : Trig → Trig) (fd : Field) (fn : Nat) : (s.updTrig k f).get fd fn = s.get fd fn := rfl
@[simp] theorem State.get_post (s : State) (code : Nat) (sev : Sev) (i : Option Nat) (l : List Word) (e j : Bool) (fd : Field) (fn : Nat) : (s.post code sev i l e j).get fd fn = s.get fd fn := rfl
@[simp] theorem State.get_fault (s : State) (m : Nat) (r : React) (c : Nat) (i : Option Nat) (q : Nat) (fd : Field) (fn : Nat) : (s.fault m r c i q).get fd fn = s.get fd fn := rfl
@[simp] theorem State.get_fatal (s : State) (m : Nat) (g : Bool) (c : Nat) (i : Option Nat) (q : Nat) (fd : Field) (fn : Nat) : (s.fatal m g c i q).get fd fn = s.get fd fn := rfl
@[simp] theorem State.get_reply (s : State) (w : Word) (fd : Field) (fn : Nat) : (s.reply w).get fd fn = s.get fd fn := rfl
@[simp] theorem State.get_latch (s : State) (o : Nat) (w : Word) (fd : Field) (fn : Nat) : (s.latch o w).get fd fn = s.get fd fn := rfl
@[simp] theorem State.get_draw (s : State) (fd : Field) (fn : Nat) : (s.draw).get fd fn = s.get fd fn := rfl

end Sys2Proof.Machine
end

