-- ==== Sys2Proof/Laws/Regs.lean ====
section
/-! SUPPORT. Tables and registers: what is read after a write, and that every table operation keeps the canonical form. -/
namespace Sys2Proof.Machine
set_option linter.all false
set_option Elab.async false

/-! ### Tables -/

theorem Tab.get_drop {α : Type} (d : Nat → α) (t : Tab α) (k j : Nat) (h : j ≠ k) :
    Tab.get d (Tab.drop k t) j = Tab.get d t j := by
  induction t with
  | nil => rfl
  | cons e t ih =>
    by_cases he : e.1 = k
    · have : ¬ e.1 = j := fun x => h (x.symm.trans he)
      simp only [Tab.drop, Tab.get, if_pos he, if_neg this, ih]
    · simp only [Tab.drop, Tab.get, if_neg he, ih]

theorem Tab.get_drop_self {α : Type} (d : Nat → α) (t : Tab α) (k : Nat) : Tab.get d (Tab.drop k t) k = d k := by
  induction t with
  | nil => rfl
  | cons e t ih =>
    by_cases he : e.1 = k
    · simp only [Tab.drop, if_pos he, ih]
    · simp only [Tab.drop, Tab.get, if_neg he, ih]

/-- A table read after a write of one key. -/
theorem Tab.get_put {α : Type} [DecidableEq α] (d : Nat → α) (t : Tab α) (k j : Nat) (v : α) :
    Tab.get d (Tab.put d t k v) j = if j = k then v else Tab.get d t j := by
  induction t with
  | nil =>
    by_cases hv : v = d k <;> by_cases hj : j = k
    · simp [Tab.put, Tab.get, hv, hj]
    · simp [Tab.put, Tab.get, hv, hj]
    · simp [Tab.put, Tab.get, hv, hj]
    · simp [Tab.put, Tab.get, hv, hj, Ne.symm hj]
  | cons e t ih =>
    by_cases h1 : k < e.1
    · by_cases hv : v = d k
      · by_cases hj : j = k
        · have : ¬ e.1 = k := by omega
          simp [Tab.put, Tab.get, h1, hv, hj, this, Tab.get_drop_self]
        · simp [Tab.put, Tab.get, h1, hv, hj, Tab.get_drop]
      · by_cases hj : j = k
        · simp [Tab.put, Tab.get, h1, hv, hj]
        · simp [Tab.put, Tab.get, h1, hv, hj, Ne.symm hj]
    · by_cases h2 : k = e.1
      · by_cases hv : v = d k
        · by_cases hj : j = k
          · simp [Tab.put, hv, hj, ← h2, Tab.get_drop_self]
          · have : ¬ e.1 = j := fun x => hj (x.symm.trans h2.symm)
            simp [Tab.put, Tab.get, hv, hj, ← h2, Tab.get_drop, Ne.symm hj]
        · by_cases hj : j = k
          · simp [Tab.put, Tab.get, hv, hj, ← h2]
          · simp [Tab.put, Tab.get, hv, hj, ← h2, Ne.symm hj]
      · by_cases he : e.1 = j
        · have hj : ¬ j = k := fun x => h2 (x.symm.trans he.symm)
          rw [if_neg hj]
          simp only [Tab.put, if_neg h1, if_neg h2, Tab.get, if_pos he]
        · simp only [Tab.put, if_neg h1, if_neg h2, Tab.get, if_neg he, ih]

theorem Tab.get_upd {α : Type} [DecidableEq α] (d : Nat → α) (t : Tab α) (k j : Nat) (f : α → α) :
    Tab.get d (Tab.upd d t k f) j = if j = k then f (Tab.get d t k) else Tab.get d t j := Tab.get_put d t k j _

@[simp] theorem Tab.get_put_self {α : Type} [DecidableEq α] (d : Nat → α) (t : Tab α) (k : Nat) (v : α) :
    Tab.get d (Tab.put d t k v) k = v := by rw [Tab.get_put, if_pos rfl]

@[simp] theorem Tab.get_upd_self {α : Type} [DecidableEq α] (d : Nat → α) (t : Tab α) (k : Nat) (f : α → α) :
    Tab.get d (Tab.upd d t k f) k = f (Tab.get d t k) := Tab.get_put_self d t k _

/-! ### Canonical form -/

theorem Tab.wfFrom_mono {α : Type} [DecidableEq α] {d : Nat → α} {t : Tab α} {a b : Option Nat}
    (hab : ∀ x, a = some x → ∃ y, b = some y ∧ x ≤ y) (h : Tab.wfFrom d b t = true) : Tab.wfFrom d a t = true := by
  cases t with
  | nil => rfl
  | cons e t =>
    cases a with
    | none => cases b <;> simp_all [Tab.wfFrom]
    | some x =>
      obtain ⟨y, rfl, hxy⟩ := hab x rfl
      simp only [Tab.wfFrom, Bool.and_eq_true, decide_eq_true_eq] at h ⊢
      exact ⟨⟨by omega, h.1.2⟩, h.2⟩

theorem Tab.wfFrom_drop {α : Type} [DecidableEq α] {d : Nat → α} {t : Tab α} (k : Nat) :
    ∀ {a : Option Nat}, Tab.wfFrom d a t = true → Tab.wfFrom d a (Tab.drop k t) = true := by
  induction t with
  | nil => intro a _; rfl
  | cons e t ih =>
    intro a h
    simp only [Tab.wfFrom, Bool.and_eq_true] at h
    by_cases he : e.1 = k
    · simp only [Tab.drop, if_pos he]
      refine ih (Tab.wfFrom_mono ?_ h.2)
      intro x hx
      subst hx
      exact ⟨_, rfl, by have := of_decide_eq_true h.1.1; omega⟩
    · simp only [Tab.drop, if_neg he, Tab.wfFrom, Bool.and_eq_true]
      exact ⟨h.1, ih h.2⟩

theorem Tab.wfFrom_put {α : Type} [DecidableEq α] {d : Nat → α} {t : Tab α} (k : Nat) (v : α) :
    ∀ {a : Option Nat}, (∀ x, a = some x → x < k) → Tab.wfFrom d a t = true → Tab.wfFrom d a (Tab.put d t k v) = true := by
  induction t with
  | nil =>
    intro a ha _
    by_cases hv : v = d k
    · simp [Tab.put, Tab.wfFrom, hv]
    · cases a with
      | none => simp [Tab.put, Tab.wfFrom, hv]
      | some x => simp [Tab.put, Tab.wfFrom, hv, ha x rfl]
  | cons e t ih =>
    intro a ha h
    have h' := h
    simp only [Tab.wfFrom, Bool.and_eq_true, decide_eq_true_eq] at h
    by_cases h1 : k < e.1
    · by_cases hv : v = d k
      · simp only [Tab.put, if_pos h1, if_pos hv, Tab.wfFrom, Bool.and_eq_true, decide_eq_true_eq]
        exact ⟨h.1, Tab.wfFrom_drop k h.2⟩
      · simp only [Tab.put, if_pos h1, if_neg hv, Tab.wfFrom, Bool.and_eq_true, decide_eq_true_eq]
        refine ⟨⟨?_, hv⟩, ⟨h1, h.1.2⟩, h.2⟩
        cases a with
        | none => rfl
        | some x => exact decide_eq_true (ha x rfl)
    · by_cases h2 : k = e.1
      · subst h2
        by_cases hv : v = d e.1
        · simp only [Tab.put, if_neg h1, if_pos hv, ↓reduceIte]
          refine Tab.wfFrom_drop e.1 (Tab.wfFrom_mono ?_ h.2)
          intro x hx
          exact ⟨e.1, rfl, Nat.le_of_lt (ha x hx)⟩
        · simp only [Tab.put, if_neg h1, if_neg hv, ↓reduceIte, Tab.wfFrom, Bool.and_eq_true, decide_eq_true_eq]
          exact ⟨⟨h.1.1, hv⟩, h.2⟩
      · simp only [Tab.put, if_neg h1, if_neg h2, Tab.wfFrom, Bool.and_eq_true, decide_eq_true_eq]
        refine ⟨h.1, ih ?_ h.2⟩
        intro x hx
        cases hx
        omega

/-- A write of one key keeps the canonical form. -/
theorem Tab.wf_put {α : Type} [DecidableEq α] {d : Nat → α} {t : Tab α} (k : Nat) (v : α) (h : Tab.wf d t = true) :
    Tab.wf d (Tab.put d t k v) = true := Tab.wfFrom_put k v (by intro x hx; cases hx) h

theorem Tab.wf_upd {α : Type} [DecidableEq α] {d : Nat → α} {t : Tab α} (k : Nat) (f : α → α) (h : Tab.wf d t = true) :
    Tab.wf d (Tab.upd d t k f) = true := Tab.wf_put k _ h

theorem Tab.wf_drop {α : Type} [DecidableEq α] {d : Nat → α} {t : Tab α} (k : Nat) (h : Tab.wf d t = true) :
    Tab.wf d (Tab.drop k t) = true := Tab.wfFrom_drop k h

theorem Tab.wf_putList {α : Type} [DecidableEq α] {d : Nat → α} (l : List α) :
    ∀ {t : Tab α} (k : Nat), Tab.wf d t = true → Tab.wf d (Tab.putList d t k l) = true := by
  induction l with
  | nil => intro t k h; exact h
  | cons v l ih => intro t k h; exact ih (k + 1) (Tab.wf_put k v h)

/-! ### Words and fields -/

/-- The bits of a word after a write of bits `hi` to `lo`. -/
theorem getLsbD_withBits (w : Word) (hi lo v j : Nat) (h : lo ≤ hi) :
    (withBits w hi lo v).getLsbD j
      = if lo ≤ j ∧ j ≤ hi then (decide (j < 32) && v.testBit (j - lo)) else w.getLsbD j := by
  unfold withBits
  have hA : w.toNat / 2 ^ (hi + 1) * 2 ^ (hi + 1) + v % 2 ^ (hi + 1 - lo) * 2 ^ lo + w.toNat % 2 ^ lo
      = 2 ^ (hi + 1) * (w.toNat / 2 ^ (hi + 1)) + (2 ^ lo * (v % 2 ^ (hi + 1 - lo)) + w.toNat % 2 ^ lo) := by
    rw [Nat.mul_comm (w.toNat / 2 ^ (hi + 1)), Nat.mul_comm (v % 2 ^ (hi + 1 - lo)), Nat.add_assoc]
  have h1 : w.toNat % 2 ^ lo < 2 ^ lo := Nat.mod_lt _ (Nat.two_pow_pos lo)
  have h2 : 2 ^ lo * (v % 2 ^ (hi + 1 - lo)) + w.toNat % 2 ^ lo < 2 ^ (hi + 1) := by
    have h3 : v % 2 ^ (hi + 1 - lo) + 1 ≤ 2 ^ (hi + 1 - lo) := Nat.mod_lt _ (Nat.two_pow_pos _)
    have h4 : 2 ^ (hi + 1) = 2 ^ lo * 2 ^ (hi + 1 - lo) := by rw [← Nat.pow_add]; congr 1; omega
    have h5 : 2 ^ lo * (v % 2 ^ (hi + 1 - lo) + 1) ≤ 2 ^ lo * 2 ^ (hi + 1 - lo) := Nat.mul_le_mul_left _ h3
    rw [Nat.mul_add] at h5
    omega
  rw [hA, BitVec.getLsbD_ofNat, Nat.testBit_two_pow_mul_add _ h2, Nat.testBit_two_pow_mul_add _ h1]
  simp only [Nat.testBit_mod_two_pow, Nat.testBit_div_two_pow]
  by_cases ha : j < lo
  · have : ¬ (lo ≤ j ∧ j ≤ hi) := by omega
    have hb : j < hi + 1 := by omega
    simp only [if_neg this, if_pos hb, ha, decide_true, Bool.true_and]
    by_cases h32 : j < 32
    · simp [h32, BitVec.getLsbD]
    · simp [h32, BitVec.getLsbD_of_ge w j (by omega)]
  · by_cases hb : j ≤ hi
    · have hc : j < hi + 1 := by omega
      have hd : j - lo < hi + 1 - lo := by omega
      simp [ha, hb, hc, hd, Nat.le_of_not_lt ha]
    · have hc : ¬ j < hi + 1 := by omega
      have : ¬ (lo ≤ j ∧ j ≤ hi) := by omega
      have he : j - (hi + 1) + (hi + 1) = j := by omega
      simp only [if_neg this, if_neg hc, he]
      by_cases h32 : j < 32
      · simp [h32, BitVec.getLsbD]
      · simp [h32, BitVec.getLsbD_of_ge w j (by omega)]

theorem testBit_bitsOf (w : Word) (hi lo j : Nat) :
    (bitsOf w hi lo).testBit j = (decide (j < hi + 1 - lo) && w.getLsbD (j + lo)) := by
  simp [bitsOf, Nat.testBit_mod_two_pow, Nat.testBit_div_two_pow, BitVec.getLsbD]

/-- The bits written are the bits read. -/
theorem bitsOf_withBits (w : Word) (hi lo v : Nat) (h : lo ≤ hi) (h32 : hi < 32) :
    bitsOf (withBits w hi lo v) hi lo = v % 2 ^ (hi + 1 - lo) := by
  apply Nat.eq_of_testBit_eq
  intro j
  rw [testBit_bitsOf, getLsbD_withBits _ _ _ _ _ h, Nat.testBit_mod_two_pow]
  by_cases hj : j < hi + 1 - lo
  · have h1 : lo ≤ j + lo ∧ j + lo ≤ hi := by omega
    have h2 : j + lo < 32 := by omega
    simp [hj, h1, h2]
  · simp [hj]

/-- Other bits read as before. -/
theorem bitsOf_withBits_of_disj (w : Word) {hi lo v hi' lo' : Nat} (h : lo ≤ hi) (hd : hi < lo' ∨ hi' < lo) :
    bitsOf (withBits w hi lo v) hi' lo' = bitsOf w hi' lo' := by
  apply Nat.eq_of_testBit_eq
  intro j
  rw [testBit_bitsOf, testBit_bitsOf, getLsbD_withBits _ _ _ _ _ h]
  by_cases hj : j < hi' + 1 - lo'
  · have h1 : ¬ (lo ≤ j + lo' ∧ j + lo' ≤ hi) := by omega
    simp [h1]
  · simp [hj]

@[simp] theorem Regs.bank_setBank (r : Regs) (b c : Blk) (t : Tab Word) :
    (r.setBank b t).bank c = if c = b then t else r.bank c := by
  cases b <;> cases c <;> rfl

theorem Regs.word_setWord (r : Regs) (b c : Blk) (o p : Nat) (w : Word) :
    (r.setWord b o w).word c p = if c = b ∧ p = o then w else r.word c p := by
  unfold Regs.setWord Regs.word
  rw [Regs.bank_setBank]
  by_cases hc : c = b
  · subst hc
    by_cases hp : p = o <;> simp [Tab.get_put, hp]
  · simp [hc]

/-- A field is well placed: its bits lie in the word in order. -/
def Field.ok (f : Field) : Bool := decide (f.lo ≤ f.hi) && decide (f.hi < 32)

/-- The field just written. -/
theorem Regs.get_set_self (r : Regs) (f : Field) (n v : Nat) (hn : n < f.count) (hf : f.ok = true) :
    (r.set f n v).get f n = v % 2 ^ f.width := by
  simp only [Field.ok, Bool.and_eq_true, decide_eq_true_eq] at hf
  simp only [Regs.set, if_pos hn, Regs.get, Regs.word_setWord, and_self, if_true, Field.width]
  exact bitsOf_withBits _ _ _ _ hf.1 hf.2

/-- Two field instances share no bit. -/
def Field.apart (f : Field) (n : Nat) (g : Field) (m : Nat) : Prop :=
  f.blk ≠ g.blk ∨ f.addr n ≠ g.addr m ∨ f.hi < g.lo ∨ g.hi < f.lo

/-- A field that shares no bit with the one written. -/
theorem Regs.get_set_of_apart (r : Regs) (f g : Field) (n m v : Nat) (hf : f.ok = true) (h : Field.apart f n g m) :
    (r.set f n v).get g m = r.get g m := by
  simp only [Field.ok, Bool.and_eq_true, decide_eq_true_eq] at hf
  unfold Regs.set
  split
  · unfold Regs.get
    rw [Regs.word_setWord]
    by_cases hc : g.blk = f.blk ∧ g.addr m = f.addr n
    · rw [if_pos hc, hc.1, hc.2]
      refine bitsOf_withBits_of_disj _ hf.1 ?_
      rcases h with h | h | h | h
      · exact absurd hc.1.symm h
      · exact absurd hc.2.symm h
      · exact .inl h
      · exact .inr h
    · rw [if_neg hc]
  · rfl

end Sys2Proof.Machine
end

