-- ==== Sys2Proof/Laws/Sound.lean ====
section
/-! SUPPORT. Sound registers and memories: every kind of write keeps the canonical form and leaves reserved bits at 0. -/
namespace Sys2Proof.Machine
set_option linter.all false
set_option Elab.async false

/-- Every field lies in the map of its block. -/
theorem mapOf_blk (b : Blk) : (mapOf b).all (fun f => decide (f.blk = b) && f.ok && decide (0 < f.stride) && decide (0 < f.subCount)) = true := by
  cases b <;> decide +kernel

theorem mapOf_facts {b : Blk} {f : Field} (h : f ∈ mapOf b) : f.blk = b ∧ f.ok = true ∧ 0 < f.stride ∧ 0 < f.subCount := by
  have := List.all_eq_true.mp (mapOf_blk b) f h
  simp only [Bool.and_eq_true, decide_eq_true_eq] at this
  exact ⟨this.1.1.1, this.1.1.2, this.1.2, this.2⟩

/-- The register of an instance is where a search by offset finds the field. -/
theorem Field.instAt_addr (f : Field) (n : Nat) (hn : n < f.count) (hs : 0 < f.stride) (hc : 0 < f.subCount) : (f.instAt (f.addr n)).isSome = true := by
  have h1 : (f.stride * n) / f.stride = n := Nat.mul_div_cancel_left n hs
  have h2 : (f.stride * n) % f.stride = 0 := Nat.mul_mod_right ..
  unfold Field.instAt Field.addr
  rw [if_neg (by omega)]
  simp only [Nat.add_sub_cancel_left, h1, h2, Nat.zero_mod, Nat.zero_div, hn, hc, and_self, if_true, Option.isSome_some]

/-- A word with a field replaced keeps a bit outside the field. -/
theorem withBits_outside (w : Word) (hi lo v j : Nat) (h : lo ≤ hi) (hj : j < lo ∨ hi < j) : (withBits w hi lo v).getLsbD j = w.getLsbD j := by
  rw [getLsbD_withBits _ _ _ _ _ h, if_neg (by omega)]

/-- A word that replaces another keeps the registers sound if it has 0 in the reserved bits. -/
theorem soundRegs_setWord {r : Regs} (h : soundRegs r) (b : Blk) (off : Nat) (w : Word)
    (hw : ∀ j, reservedBit b off j = true → w.getLsbD j = false) : soundRegs (r.setWord b off w) := by
  refine ⟨fun c => ?_, fun c o j hj => ?_⟩
  · unfold Regs.setWord
    rw [Regs.bank_setBank]
    split
    · rename_i e; subst e; exact Tab.wf_put _ _ (h.1 c)
    · exact h.1 c
  · rw [Regs.word_setWord]
    split
    · rename_i e; rw [e.1, e.2] at hj; exact hw j hj
    · exact h.2 c o j hj

/-- A reserved bit lies outside every field of its register. -/
theorem reservedBit_outside {b : Blk} {off j : Nat} (h : reservedBit b off j = true) {f : Field} (hf : f ∈ mapOf b)
    (hi : (f.instAt off).isSome = true) : j < f.lo ∨ f.hi < j := by
  have := List.all_eq_true.mp h f hf
  simp only [Bool.or_eq_true, decide_eq_true_eq, Option.isNone_iff_eq_none] at this
  rcases this with (h | h) | h
  · rw [h] at hi; cases hi
  · exact .inl h
  · exact .inr h

/-- A write of a field keeps the registers sound. -/
theorem soundRegs_set {r : Regs} (h : soundRegs r) (f : Field) (n v : Nat) (hf : f ∈ mapOf f.blk) : soundRegs (r.set f n v) := by
  obtain ⟨_, h2, h3, h4⟩ := mapOf_facts hf
  unfold Regs.set
  split
  · rename_i hn
    refine soundRegs_setWord h _ _ _ fun j hj => ?_
    simp only [Field.ok, Bool.and_eq_true, decide_eq_true_eq] at h2
    rw [withBits_outside _ _ _ _ _ h2.1 (reservedBit_outside hj hf (Field.instAt_addr f n hn h3 h4))]
    exact h.2 _ _ _ hj
  · exact h

/-! ### Tables -/

theorem Tab.wfFrom_filter {α : Type} [DecidableEq α] {d : Nat → α} {t : Tab α} (q : Nat × α → Bool) :
    ∀ {lo : Option Nat}, Tab.wfFrom d lo t = true → Tab.wfFrom d lo (t.filter q) = true := by
  induction t with
  | nil => intro lo _; rfl
  | cons e t ih =>
    intro lo h
    simp only [Tab.wfFrom, Bool.and_eq_true] at h
    rw [List.filter_cons]
    split
    · simp only [Tab.wfFrom, Bool.and_eq_true]
      exact ⟨h.1, ih h.2⟩
    · refine Tab.wfFrom_mono ?_ (ih h.2)
      intro x hx
      subst hx
      exact ⟨_, rfl, by have := of_decide_eq_true h.1.1; omega⟩

/-- Leaving entries out keeps the canonical form. -/
theorem Tab.wf_filter {α : Type} [DecidableEq α] {d : Nat → α} {t : Tab α} (q : Nat × α → Bool) (h : Tab.wf d t = true) :
    Tab.wf d (t.filter q) = true := Tab.wfFrom_filter q h

/-- A key below the first holds the default. -/
theorem Tab.get_below {α : Type} [DecidableEq α] {d : Nat → α} {t : Tab α} :
    ∀ {lo k : Nat}, Tab.wfFrom d (some lo) t = true → k ≤ lo → Tab.get d t k = d k := by
  induction t with
  | nil => intro lo k _ _; rfl
  | cons e t ih =>
    intro lo k h hk
    simp only [Tab.wfFrom, Bool.and_eq_true, decide_eq_true_eq] at h
    have : ¬ e.1 = k := by omega
    simp only [Tab.get, if_neg this]
    exact ih h.2 (by omega)

/-- With entries left out, a key holds what it held or the default. -/
theorem Tab.get_filter {α : Type} [DecidableEq α] {d : Nat → α} {t : Tab α} (q : Nat × α → Bool) (h : Tab.wf d t = true) (k : Nat) :
    Tab.get d (t.filter q) k = Tab.get d t k ∨ Tab.get d (t.filter q) k = d k := by
  have key : ∀ (t : Tab α) (lo : Option Nat), Tab.wfFrom d lo t = true →
      (Tab.get d (t.filter q) k = Tab.get d t k ∨ Tab.get d (t.filter q) k = d k) := by
    intro t
    induction t with
    | nil => intro _ _; exact .inl rfl
    | cons e t ih =>
      intro lo h
      simp only [Tab.wfFrom, Bool.and_eq_true] at h
      rw [List.filter_cons]
      split
      · by_cases he : e.1 = k
        · simp only [Tab.get, if_pos he, true_or]
        · simp only [Tab.get, if_neg he]
          exact ih _ h.2
      · by_cases he : e.1 = k
        · refine .inr (Tab.get_below (Tab.wfFrom_filter q h.2) (by omega))
        · simp only [Tab.get, if_neg he]
          exact ih _ h.2
  exact key t none h

/-- Putting a list of entries keeps the canonical form. -/
theorem Tab.wf_puts {α : Type} [DecidableEq α] {d : Nat → α} (l : List (Nat × α)) :
    ∀ t : Tab α, Tab.wf d t = true → Tab.wf d (l.foldl (fun t e => Tab.put d t e.1 e.2) t) = true := by
  induction l with
  | nil => intro t h; exact h
  | cons e l ih => intro t h; exact ih _ (Tab.wf_put _ _ h)

/-! ### Reserved bits at reset -/

/-- A word whose set bits all lie in fields that hold its register has 0 in the reserved bits. -/
theorem bits_in_fields {b : Blk} {off j : Nat} {v : Word} (l : List Field) (h : reservedBit b off j = true)
    (hf : ∀ f ∈ l, f ∈ mapOf b ∧ (f.instAt off).isSome = true)
    (hv : ((List.range 32).all fun j => !v.getLsbD j || l.any fun f => decide (f.lo ≤ j) && decide (j ≤ f.hi)) = true) :
    v.getLsbD j = false := by
  by_cases h32 : j < 32
  · have hj := List.all_eq_true.mp hv j (List.mem_range.mpr h32)
    rw [Bool.or_eq_true] at hj
    rcases hj with hj | hj
    · simpa using hj
    · obtain ⟨f, hl, hb⟩ := List.any_eq_true.mp hj
      rw [Bool.and_eq_true, decide_eq_true_eq, decide_eq_true_eq] at hb
      rcases reservedBit_outside h (hf f hl).1 (hf f hl).2 with k | k <;> omega
  · exact BitVec.getLsbD_of_ge v j (by omega)

theorem bits_one {b : Blk} {off j : Nat} {v : Word} (l : List Field) (h : reservedBit b off j = true)
    (hl : (l.all fun f => (mapOf b).contains f && (f.instAt off).isSome) = true)
    (hv : ((List.range 32).all fun j => !v.getLsbD j || l.any fun f => decide (f.lo ≤ j) && decide (j ≤ f.hi)) = true) :
    v.getLsbD j = false := by
  refine bits_in_fields l h (fun f hf => ?_) hv
  have := List.all_eq_true.mp hl f hf
  rw [Bool.and_eq_true] at this
  exact ⟨List.contains_iff_mem.mp this.1, this.2⟩

theorem bits_every {b : Blk} {off j lo hi st : Nat} {v : Word} (l : List Field) (ho : lo ≤ off ∧ off < hi ∧ (off - lo) % st = 0)
    (h : reservedBit b off j = true)
    (hl : (l.all fun f => (mapOf b).contains f && decide (f.base = lo ∧ f.stride = st ∧ hi ≤ lo + st * f.count)) = true)
    (hv : ((List.range 32).all fun j => !v.getLsbD j || l.any fun f => decide (f.lo ≤ j) && decide (j ≤ f.hi)) = true) :
    v.getLsbD j = false := by
  refine bits_in_fields l h (fun f hf => ?_) hv
  have := List.all_eq_true.mp hl f hf
  rw [Bool.and_eq_true, decide_eq_true_eq] at this
  have hm := List.contains_iff_mem.mp this.1
  obtain ⟨_, _, h3, h4⟩ := mapOf_facts hm
  refine ⟨hm, ?_⟩
  have e : f.addr ((off - lo) / st) = off := by
    unfold Field.addr
    rw [this.2.1, this.2.2.1]
    have := Nat.div_add_mod (off - lo) st
    omega
  have hn : (off - lo) / st < f.count := by
    refine Nat.div_lt_of_lt_mul ?_
    omega
  have k := Field.instAt_addr f _ hn h3 h4
  rwa [e] at k

theorem sysReset_reserved (off j : Nat) (h : reservedBit .sys off j = true) : (R.sysReset off).getLsbD j = false := by
  unfold R.sysReset
  split
  · rename_i ho
    subst ho
    exact bits_one [R.SYS_ID_DEVICE] h (by decide +kernel) (by decide +kernel)
  split
  · rename_i ho
    subst ho
    exact bits_one [R.SYS_VERSION_IMAGE_FMT] h (by decide +kernel) (by decide +kernel)
  split
  · rename_i ho
    subst ho
    exact bits_one [R.SYS_CAP_A_TILLERS, R.SYS_CAP_A_ENGINES, R.SYS_CAP_A_CB_PORTS, R.SYS_CAP_A_SQ_RINGS, R.SYS_CAP_A_CQ_RINGS] h (by decide +kernel) (by decide +kernel)
  split
  · rename_i ho
    subst ho
    exact bits_one [R.SYS_CAP_B_GRANARY_KIB, R.SYS_CAP_B_ORANGERY_KIB] h (by decide +kernel) (by decide +kernel)
  exact BitVec.getLsbD_zero

theorem tbReset_reserved (off j : Nat) (h : reservedBit .tb off j = true) : (R.tbReset off).getLsbD j = false := by
  unfold R.tbReset
  split
  · rename_i ho
    subst ho
    exact bits_one [R.TB_CORR_STATUS_STEP_ARMED] h (by decide +kernel) (by decide +kernel)
  split
  · rename_i ho
    subst ho
    exact bits_one [R.TB_PPS_CTRL_WIDTH] h (by decide +kernel) (by decide +kernel)
  exact BitVec.getLsbD_zero

theorem cbReset_reserved (off j : Nat) (h : reservedBit .cb off j = true) : (R.cbReset off).getLsbD j = false := by
  unfold R.cbReset
  split
  · rename_i ho
    subst ho
    exact bits_one [R.CB_ETHERTYPE_ETYPE] h (by decide +kernel) (by decide +kernel)
  split
  · rename_i ho
    subst ho
    exact bits_one [R.CB_GROUP_MAC_LO] h (by decide +kernel) (by decide +kernel)
  split
  · rename_i ho
    subst ho
    exact bits_one [R.CB_GROUP_MAC_HI_OCTETS_0_1] h (by decide +kernel) (by decide +kernel)
  split
  · rename_i ho
    exact bits_every [R.CB_PORT_CFG_MACSEC_REQ] ho h (by decide +kernel) (by decide +kernel)
  split
  · rename_i ho
    exact bits_every [R.CB_PT_POLICE_RATE, R.CB_PT_POLICE_BURST] ho h (by decide +kernel) (by decide +kernel)
  split
  · rename_i ho
    subst ho
    exact bits_one [R.CB_CYCLE_NS] h (by decide +kernel) (by decide +kernel)
  split
  · rename_i ho
    subst ho
    exact bits_one [R.CB_SYNC_CFG_ASYM_LIMIT, R.CB_SYNC_CFG_SPREAD_LIMIT, R.CB_SYNC_CFG_JOIN_LIMIT] h (by decide +kernel) (by decide +kernel)
  exact BitVec.getLsbD_zero

theorem fbReset_reserved (off j : Nat) (h : reservedBit .fb off j = true) : (R.fbReset off).getLsbD j = false := by
  unfold R.fbReset
  split
  · rename_i ho
    exact bits_every [R.FB_OBS_BW_HZ, R.FB_OBS_STILL] ho h (by decide +kernel) (by decide +kernel)
  split
  · rename_i ho
    exact bits_every [R.DP_CFG_FILT] ho h (by decide +kernel) (by decide +kernel)
  split
  · rename_i ho
    exact bits_every [R.DP_SSI_CLK_PER, R.DP_SSI_IDLE_CHECK, R.DP_SSI_RECOVERY] ho h (by decide +kernel) (by decide +kernel)
  exact BitVec.getLsbD_zero

theorem tlReset_reserved (off j : Nat) (h : reservedBit .tl off j = true) : (R.tlReset off).getLsbD j = false := by
  unfold R.tlReset
  split
  · rename_i ho
    exact bits_every [R.TL_CMD_LIM_VD_LIM, R.TL_CMD_LIM_VQ_LIM] ho h (by decide +kernel) (by decide +kernel)
  split
  · rename_i ho
    exact bits_every [R.TL_SAT_CFG_SAT_LIMIT, R.TL_SAT_CFG_LEAK, R.TL_SAT_CFG_SAT_REACT] ho h (by decide +kernel) (by decide +kernel)
  split
  · rename_i ho
    exact bits_every [R.TL_REACT_CFG_LOSS_REACT, R.TL_REACT_CFG_OVF_REACT, R.TL_REACT_CFG_PLATE_REACT, R.TL_REACT_CFG_REF_REACT] ho h (by decide +kernel) (by decide +kernel)
  split
  · rename_i ho
    exact bits_every [R.TL_STOP_CFG_SS1_TIMEOUT, R.TL_STOP_CFG_HOLD_TOL] ho h (by decide +kernel) (by decide +kernel)
  split
  · rename_i ho
    exact bits_every [R.TL_STILL_VEL] ho h (by decide +kernel) (by decide +kernel)
  exact BitVec.getLsbD_zero

theorem mpReset_reserved (off j : Nat) (h : reservedBit .mp off j = true) : (R.mpReset off).getLsbD j = false := by
  unfold R.mpReset
  split
  · rename_i ho
    exact bits_every [R.MP_CFG_CG] ho h (by decide +kernel) (by decide +kernel)
  split
  · rename_i ho
    exact bits_every [R.MP_IN_CFG_LIM_POS, R.MP_IN_CFG_LIM_NEG, R.MP_IN_CFG_HOME] ho h (by decide +kernel) (by decide +kernel)
  split
  · rename_i ho
    exact bits_every [R.ST_CFG_PULSE_W, R.ST_CFG_DIR_SETUP] ho h (by decide +kernel) (by decide +kernel)
  exact BitVec.getLsbD_zero

theorem svReset_reserved (off j : Nat) (h : reservedBit .sv off j = true) : (R.svReset off).getLsbD j = false := by
  unfold R.svReset
  split
  · rename_i ho
    exact bits_every [R.SV_CFG_ITER_MAX] ho h (by decide +kernel) (by decide +kernel)
  split
  · rename_i ho
    exact bits_every [R.SV_RT_CFG_A_INF_FROM, R.SV_RT_CFG_A_INF_PERSIST, R.SV_RT_CFG_A_FB_PERSIST, R.SV_RT_CFG_A_STOP_REACT] ho h (by decide +kernel) (by decide +kernel)
  split
  · rename_i ho
    exact bits_every [R.SV_RT_CFG_B] ho h (by decide +kernel) (by decide +kernel)
  split
  · rename_i ho
    exact bits_every [R.SV_EPS_INF] ho h (by decide +kernel) (by decide +kernel)
  exact BitVec.getLsbD_zero

theorem sepReset_reserved (off j : Nat) (h : reservedBit .sep off j = true) : (R.sepReset off).getLsbD j = false := by
  unfold R.sepReset
  split
  · rename_i ho
    subst ho
    exact bits_one [R.SEP_CFG_SWEEP_SHL, R.SEP_CFG_NOM] h (by decide +kernel) (by decide +kernel)
  split
  · rename_i ho
    subst ho
    exact bits_one [R.SEP_BV_CFG_DIST_TOL] h (by decide +kernel) (by decide +kernel)
  split
  · rename_i ho
    subst ho
    exact bits_one [R.SEP_RR_CFG_RR_STOP, R.SEP_RR_CFG_RR_REACT, R.SEP_RR_CFG_BV_SS1_GRACE] h (by decide +kernel) (by decide +kernel)
  exact BitVec.getLsbD_zero

theorem schReset_reserved (off j : Nat) (h : reservedBit .sch off j = true) : (R.schReset off).getLsbD j = false := by
  unfold R.schReset
  split
  · rename_i ho
    subst ho
    exact bits_one [R.SCH_CFG_SOLVER_CYC] h (by decide +kernel) (by decide +kernel)
  exact BitVec.getLsbD_zero

theorem meReset_reserved (off j : Nat) (_h : reservedBit .me off j = true) : (R.meReset off).getLsbD j = false := by
  exact BitVec.getLsbD_zero

theorem hiReset_reserved (off j : Nat) (h : reservedBit .hi off j = true) : (R.hiReset off).getLsbD j = false := by
  unfold R.hiReset
  split
  · rename_i ho
    exact bits_every [R.HI_SQ_CFG_DEPTH_LOG2] ho h (by decide +kernel) (by decide +kernel)
  split
  · rename_i ho
    exact bits_every [R.HI_CQ_CFG_DEPTH_LOG2, R.HI_CQ_CFG_COAL_COUNT] ho h (by decide +kernel) (by decide +kernel)
  split
  · rename_i ho
    exact bits_every [R.HI_CQ_STATUS_PHASE] ho h (by decide +kernel) (by decide +kernel)
  exact BitVec.getLsbD_zero

theorem twReset_reserved (off j : Nat) (h : reservedBit .tw off j = true) : (R.twReset off).getLsbD j = false := by
  unfold R.twReset
  split
  · rename_i ho
    subst ho
    exact bits_one [R.TW_CFG_LEASE_CYC, R.TW_CFG_HOLDOFF_S] h (by decide +kernel) (by decide +kernel)
  split
  · rename_i ho
    subst ho
    exact bits_one [R.TW_ETHERTYPE_ETYPE] h (by decide +kernel) (by decide +kernel)
  split
  · rename_i ho
    exact bits_every [R.TW_PORT_CFG_MACSEC_REQ] ho h (by decide +kernel) (by decide +kernel)
  exact BitVec.getLsbD_zero

theorem evReset_reserved (off j : Nat) (h : reservedBit .ev off j = true) : (R.evReset off).getLsbD j = false := by
  unfold R.evReset
  split
  · rename_i ho
    subst ho
    exact bits_one [R.EV_CFG_IRQ_SEV, R.EV_CFG_IRQ_GAP_US, R.EV_CFG_FREEZE_MAX] h (by decide +kernel) (by decide +kernel)
  exact BitVec.getLsbD_zero

theorem bbReset_reserved (off j : Nat) (h : reservedBit .bb off j = true) : (R.bbReset off).getLsbD j = false := by
  unfold R.bbReset
  split
  · rename_i ho
    subst ho
    exact bits_one [R.BB_STAT_SPARE_PCT] h (by decide +kernel) (by decide +kernel)
  exact BitVec.getLsbD_zero

theorem injReset_reserved (off j : Nat) (_h : reservedBit .inj off j = true) : (R.injReset off).getLsbD j = false := by
  exact BitVec.getLsbD_zero

theorem adReset_reserved (off j : Nat) (h : reservedBit .ad off j = true) : (R.adReset off).getLsbD j = false := by
  unfold R.adReset
  split
  · rename_i ho
    exact bits_every [R.AD_SEQ_A_LIM_N] ho h (by decide +kernel) (by decide +kernel)
  split
  · rename_i ho
    subst ho
    exact bits_one [R.AD_SIO_CFG_FILT_US, R.AD_SIO_CFG_DISC_MS, R.AD_SIO_CFG_ESTOP_CAT] h (by decide +kernel) (by decide +kernel)
  split
  · rename_i ho
    subst ho
    exact bits_one [R.AD_SIO_CFG_B_ESTOP_SS1_MS, R.AD_SIO_CFG_B_WD_CYC] h (by decide +kernel) (by decide +kernel)
  split
  · rename_i ho
    exact bits_every [R.AD_STO_STAT_ASSERTED, R.AD_STO_STAT_CAUSE] ho h (by decide +kernel) (by decide +kernel)
  split
  · rename_i ho
    subst ho
    exact bits_one [R.AD_STO_TEST_TEST_S] h (by decide +kernel) (by decide +kernel)
  exact BitVec.getLsbD_zero

theorem pwReset_reserved (off j : Nat) (h : reservedBit .pw off j = true) : (R.pwReset off).getLsbD j = false := by
  unfold R.pwReset
  split
  · rename_i ho
    subst ho
    exact bits_one [R.PW_SUNDIAL_TARGET_TARGET] h (by decide +kernel) (by decide +kernel)
  split
  · rename_i ho
    subst ho
    exact bits_one [R.PW_SUNDIAL_STAT_VID] h (by decide +kernel) (by decide +kernel)
  split
  · rename_i ho
    exact bits_every [R.PW_PACE_MIN] ho h (by decide +kernel) (by decide +kernel)
  split
  · rename_i ho
    subst ho
    exact bits_one [R.PW_TEMP_TJ_MAX] h (by decide +kernel) (by decide +kernel)
  split
  · rename_i ho
    subst ho
    exact bits_one [R.PW_TEMP_CFG_TJ_WARN] h (by decide +kernel) (by decide +kernel)
  split
  · rename_i ho
    subst ho
    exact bits_one [R.PW_PD_TIMEOUT_US] h (by decide +kernel) (by decide +kernel)
  split
  · rename_i ho
    subst ho
    exact bits_one [R.PW_MGMT_WD_MS] h (by decide +kernel) (by decide +kernel)
  exact BitVec.getLsbD_zero

/-- The reset value of every register has 0 in the reserved bits (R11). -/
theorem resetWord_reserved (b : Blk) (off j : Nat) (h : reservedBit b off j = true) : (resetWord b off).getLsbD j = false := by
  cases b
  · exact sysReset_reserved off j h
  · exact tbReset_reserved off j h
  · exact cbReset_reserved off j h
  · exact fbReset_reserved off j h
  · exact tlReset_reserved off j h
  · exact mpReset_reserved off j h
  · exact svReset_reserved off j h
  · exact sepReset_reserved off j h
  · exact schReset_reserved off j h
  · exact meReset_reserved off j h
  · exact hiReset_reserved off j h
  · exact twReset_reserved off j h
  · exact evReset_reserved off j h
  · exact bbReset_reserved off j h
  · exact injReset_reserved off j h
  · exact adReset_reserved off j h
  · exact pwReset_reserved off j h

/-- Registers at their reset values are sound. -/
theorem soundRegs_reset : soundRegs {} := by
  refine ⟨fun b => by cases b <;> rfl, fun b off j h => ?_⟩
  have e : ({} : Regs).word b off = resetWord b off := by cases b <;> rfl
  rw [e]
  exact resetWord_reserved b off j h

/-- What a device reset leaves of the registers is sound. -/
theorem soundRegs_kept {r : Regs} (h : soundRegs r) {l : List Field} : soundRegs (l.foldl (fun q f => q.keep r f) {}) := by
  have key : ∀ (l : List Field) (q : Regs), soundRegs q → soundRegs (l.foldl (fun q f => q.keep r f) q) := by
    intro l
    induction l with
    | nil => intro q hq; exact hq
    | cons f l ih => intro q hq; exact ih _ (soundRegs_setWord hq _ _ _ fun j hj => h.2 _ _ _ hj)
  exact key l _ soundRegs_reset

/-- Leaving entries of the host interface's bank out puts those registers at their reset values. -/
theorem soundRegs_dropHi {r : Regs} (h : soundRegs r) (q : Nat × Word → Bool) : soundRegs { r with hi := r.hi.filter q } := by
  refine ⟨fun b => ?_, fun b off j hj => ?_⟩
  · have k := h.1 b
    cases b
    case hi => exact Tab.wf_filter q k
    all_goals exact k
  · have k := h.2 b off j hj
    cases b
    case hi =>
      show (Tab.get (resetWord .hi) (r.hi.filter q) off).getLsbD j = false
      have hw : Tab.wf (resetWord .hi) r.hi = true := h.1 .hi
      have kk : (Tab.get (resetWord .hi) r.hi off).getLsbD j = false := k
      rcases Tab.get_filter q hw off with e | e <;> rw [e]
      · exact kk
      · exact resetWord_reserved _ _ _ hj
    all_goals exact k

/-! ### Fields of the register at an offset -/

theorem fieldsAt_facts {p : Nat} {f : Field} (h : f ∈ fieldsAt p) : f ∈ mapOf (blkOf p) ∧ (f.instAt p).isSome = true :=
  List.mem_filter.mp h

theorem Field.lo_le_hi {f : Field} (h : f.ok = true) : f.lo ≤ f.hi := by
  simp only [Field.ok, Bool.and_eq_true, decide_eq_true_eq] at h
  exact h.1

/-- Writes of the fields of a register keep its reserved bits. -/
theorem withFields_outside {p j : Nat} (v : Word) (hj : reservedBit (blkOf p) p j = true) :
    ∀ (l : List Field) (w : Word), (∀ f ∈ l, f ∈ mapOf (blkOf p) ∧ (f.instAt p).isSome = true) →
      (l.foldl (fun w f => withBits w f.hi f.lo (bitsOf v f.hi f.lo)) w).getLsbD j = w.getLsbD j := by
  intro l
  induction l with
  | nil => intro w _; rfl
  | cons f l ih =>
    intro w h
    obtain ⟨h1, h2⟩ := h f (List.mem_cons_self ..)
    rw [List.foldl_cons, ih _ fun g hg => h g (List.mem_cons_of_mem _ hg)]
    exact withBits_outside _ _ _ _ _ (Field.lo_le_hi (mapOf_facts h1).2.1) (reservedBit_outside hj h1 h2)

/-- What a field takes from a written word keeps the bits outside the field. -/
theorem fieldAfter_outside (f : Field) (old w : Word) (j : Nat) (h : f.lo ≤ f.hi) (hj : j < f.lo ∨ f.hi < j) :
    (fieldAfter f old w).getLsbD j = old.getLsbD j := by
  unfold fieldAfter
  split
  all_goals first
    | exact withBits_outside _ _ _ _ _ h hj
    | rfl

/-- A write of the fields of a register keeps its reserved bits. -/
theorem afterFields_outside {p j : Nat} (v : Field → Word) (hj : reservedBit (blkOf p) p j = true) :
    ∀ (l : List Field) (w : Word), (∀ f ∈ l, f ∈ mapOf (blkOf p) ∧ (f.instAt p).isSome = true) →
      (l.foldl (fun w f => fieldAfter f w (v f)) w).getLsbD j = w.getLsbD j := by
  intro l
  induction l with
  | nil => intro w _; rfl
  | cons f l ih =>
    intro w h
    obtain ⟨h1, h2⟩ := h f (List.mem_cons_self ..)
    rw [List.foldl_cons, ih _ fun g hg => h g (List.mem_cons_of_mem _ hg)]
    exact fieldAfter_outside _ _ _ _ (Field.lo_le_hi (mapOf_facts h1).2.1) (reservedBit_outside hj h1 h2)

end Sys2Proof.Machine
end

