-- ==== Sys2Proof/Laws/Only.lean ====
section
/-! SUPPORT. Footprints: which parts of the state and which register fields an operation can change. `Only p r s t` says that the
parts outside mask `p` and the register fields outside mask `r` are the same in `t` as in `s`, and that `t` is sound if `s` is; every
operation of the model has one lemma that says so of it. -/
namespace Sys2Proof.Machine
set_option linter.all false
set_option Elab.async false

/-! ### Masks -/

/-- Every bit of `a` is a bit of `b`. -/
def Sub (a b : Nat) : Prop := a &&& b = a

theorem Sub.refl {a : Nat} : Sub a a := Nat.and_self a

theorem Sub.trans {a b c : Nat} (h : a &&& b = a) (k : Sub b c) : Sub a c := by
  unfold Sub at *
  rw [← h, Nat.and_assoc, k]

theorem Sub.bits {a b k : Nat} (h : Sub a b) (hk : a.testBit k = true) : b.testBit k = true := by
  have := congrArg (Nat.testBit · k) h
  simp only [Nat.testBit_and, hk, Bool.true_and] at this
  exact this

/-! ### Register fields by number -/

/-- The register maps in the order of the blocks. -/
def blkMaps : List (List Field) :=
  [R.sysMap, R.tbMap, R.cbMap, R.fbMap, R.tlMap, R.mpMap, R.svMap, R.sepMap, R.schMap]
    ++ [R.meMap, R.hiMap, R.twMap, R.evMap, R.bbMap, R.injMap, R.adMap, R.pwMap]

/-- The field with a number: 128 numbers for each block. -/
def fieldOf (c : Nat) : Field := (blkMaps.getD (c / 128) []).getD (c % 128) R.SYS_CELL_CTRL_EN

/-- The field with a number lies in the map of its block. -/
theorem fieldOf_mem (c : Nat) : fieldOf c ∈ mapOf (fieldOf c).blk := by
  have key : ∀ L ∈ blkMaps, ∃ b, L = mapOf b := by
    intro L hL
    simp only [blkMaps, List.mem_append, List.mem_cons, List.not_mem_nil, or_false] at hL
    rcases hL with (h | h | h | h | h | h | h | h | h) | (h | h | h | h | h | h | h | h) <;> subst h
    · exact ⟨.sys, rfl⟩
    · exact ⟨.tb, rfl⟩
    · exact ⟨.cb, rfl⟩
    · exact ⟨.fb, rfl⟩
    · exact ⟨.tl, rfl⟩
    · exact ⟨.mp, rfl⟩
    · exact ⟨.sv, rfl⟩
    · exact ⟨.sep, rfl⟩
    · exact ⟨.sch, rfl⟩
    · exact ⟨.me, rfl⟩
    · exact ⟨.hi, rfl⟩
    · exact ⟨.tw, rfl⟩
    · exact ⟨.ev, rfl⟩
    · exact ⟨.bb, rfl⟩
    · exact ⟨.inj, rfl⟩
    · exact ⟨.ad, rfl⟩
    · exact ⟨.pw, rfl⟩
  have dflt : R.SYS_CELL_CTRL_EN ∈ mapOf R.SYS_CELL_CTRL_EN.blk := by decide +kernel
  unfold fieldOf
  by_cases h1 : c / 128 < blkMaps.length
  · obtain ⟨b, hb⟩ := key _ (List.getElem_mem h1)
    rw [List.getD_eq_getElem?_getD (l := blkMaps), List.getElem?_eq_getElem h1, Option.getD_some, hb]
    by_cases h2 : c % 128 < (mapOf b).length
    · rw [List.getD_eq_getElem?_getD, List.getElem?_eq_getElem h2, Option.getD_some]
      have hm := List.getElem_mem h2
      rw [(mapOf_facts hm).1]
      exact hm
    · rw [List.getD_eq_getElem?_getD, List.getElem?_eq_none (Nat.le_of_not_lt h2), Option.getD_none]
      exact dflt
  · rw [List.getD_eq_getElem?_getD (l := blkMaps), List.getElem?_eq_none (Nat.le_of_not_lt h1), Option.getD_none, List.getD_nil]
    exact dflt

/-- Registers reached from `r` by writes to the fields of a mask. -/
inductive Wrote (m : Nat) (r : Regs) : Regs → Prop where
  | same : Wrote m r r
  | set {q : Regs} (c n v : Nat) (h : Wrote m r q) (hc : m.testBit c = true) : Wrote m r (q.set (fieldOf c) n v)

theorem Wrote.trans {m : Nat} {r q u : Regs} (h : Wrote m r q) (k : Wrote m q u) : Wrote m r u := by
  induction k with
  | same => exact h
  | set c n v _ hc ih => exact .set c n v ih hc

/-! ### Footprints -/

/-- `t` differs from `s` only in the parts of mask `p` (numbered as the fields of State) and, unless `p` has the bit of the
registers, in register fields of mask `r`; and `t` is sound if `s` is. -/
structure Only (p r : Nat) (s t : State) : Prop where
  pending : p.testBit 0 = false → t.pending = s.pending
  regs : p.testBit 1 = false → Wrote r s.regs t.regs
  frozen : p.testBit 2 = false → t.frozen = s.frozen
  posted : p.testBit 3 = false → t.posted = s.posted
  escs : p.testBit 4 = false → t.escs = s.escs
  tb : p.testBit 5 = false → t.tb = s.tb
  grid : p.testBit 6 = false → t.grid = s.grid
  once : p.testBit 7 = false → t.once = s.once
  cb : p.testBit 8 = false → t.cb = s.cb
  fb : p.testBit 9 = false → t.fb = s.fb
  tl : p.testBit 10 = false → t.tl = s.tl
  grp : p.testBit 11 = false → t.grp = s.grp
  mp : p.testBit 12 = false → t.mp = s.mp
  sv : p.testBit 13 = false → t.sv = s.sv
  sep : p.testBit 14 = false → t.sep = s.sep
  sch : p.testBit 15 = false → t.sch = s.sch
  me : p.testBit 16 = false → t.me = s.me
  hi : p.testBit 17 = false → t.hi = s.hi
  gr : p.testBit 18 = false → t.gr = s.gr
  tw : p.testBit 19 = false → t.tw = s.tw
  ev : p.testBit 20 = false → t.ev = s.ev
  bb : p.testBit 21 = false → t.bb = s.bb
  inj : p.testBit 22 = false → t.inj = s.inj
  ad : p.testBit 23 = false → t.ad = s.ad
  sio : p.testBit 24 = false → t.sio = s.sio
  pw : p.testBit 25 = false → t.pw = s.pw
  arb : p.testBit 26 = false → t.arb = s.arb
  free : p.testBit 27 = false → t.free = s.free
  readData : p.testBit 28 = false → t.readData = s.readData
  hiLatch : p.testBit 29 = false → t.hiLatch = s.hiLatch
  wrStage : p.testBit 30 = false → t.wrStage = s.wrStage
  view : p.testBit 31 = false → t.view = s.view
  flips : p.testBit 32 = false → t.flips = s.flips
  sound : Sound s → Sound t

theorem Only.refl {p r : Nat} {s : State} : Only p r s s := by
  constructor <;> intro _ <;> first | rfl | exact .same | assumption

theorem Only.trans {p r : Nat} {s t u : State} (h : Only p r s t) (k : Only p r t u) : Only p r s u where
  pending hp := (k.pending hp).trans (h.pending hp)
  regs hp := (h.regs hp).trans (k.regs hp)
  frozen hp := (k.frozen hp).trans (h.frozen hp)
  posted hp := (k.posted hp).trans (h.posted hp)
  escs hp := (k.escs hp).trans (h.escs hp)
  tb hp := (k.tb hp).trans (h.tb hp)
  grid hp := (k.grid hp).trans (h.grid hp)
  once hp := (k.once hp).trans (h.once hp)
  cb hp := (k.cb hp).trans (h.cb hp)
  fb hp := (k.fb hp).trans (h.fb hp)
  tl hp := (k.tl hp).trans (h.tl hp)
  grp hp := (k.grp hp).trans (h.grp hp)
  mp hp := (k.mp hp).trans (h.mp hp)
  sv hp := (k.sv hp).trans (h.sv hp)
  sep hp := (k.sep hp).trans (h.sep hp)
  sch hp := (k.sch hp).trans (h.sch hp)
  me hp := (k.me hp).trans (h.me hp)
  hi hp := (k.hi hp).trans (h.hi hp)
  gr hp := (k.gr hp).trans (h.gr hp)
  tw hp := (k.tw hp).trans (h.tw hp)
  ev hp := (k.ev hp).trans (h.ev hp)
  bb hp := (k.bb hp).trans (h.bb hp)
  inj hp := (k.inj hp).trans (h.inj hp)
  ad hp := (k.ad hp).trans (h.ad hp)
  sio hp := (k.sio hp).trans (h.sio hp)
  pw hp := (k.pw hp).trans (h.pw hp)
  arb hp := (k.arb hp).trans (h.arb hp)
  free hp := (k.free hp).trans (h.free hp)
  readData hp := (k.readData hp).trans (h.readData hp)
  hiLatch hp := (k.hiLatch hp).trans (h.hiLatch hp)
  wrStage hp := (k.wrStage hp).trans (h.wrStage hp)
  view hp := (k.view hp).trans (h.view hp)
  flips hp := (k.flips hp).trans (h.flips hp)
  sound hs := k.sound (h.sound hs)

/-- Both branches of a conditional keep a footprint. -/
theorem Only.ite {p r : Nat} {s x y : State} {c : Prop} [Decidable c] (h : Only p r s x) (k : Only p r s y) :
    Only p r s (if c then x else y) := by
  split
  · exact h
  · exact k

/-- A fold keeps a footprint that each of its steps keeps. -/
theorem Only.foldl {p r : Nat} {s x : State} {α : Type} {f : State → α → State} {l : List α} (h : Only p r s x)
    (hf : ∀ y a, Only p r s y → Only p r s (f y a)) : Only p r s (l.foldl f x) := by
  induction l generalizing x with
  | nil => exact h
  | cons a l ih => exact ih (hf x a h)

theorem Only.upd_pending {p r : Nat} {s x : State} {v : List Instr} (hb : p.testBit 0 = true) (h : Only p r s x) :
    Only p r s { x with pending := v } :=
  { h with pending := fun hp => absurd (hb.symm.trans hp) (by decide) }

theorem Only.upd_regs {p r : Nat} {s x : State} {v : Regs} (hb : p.testBit 1 = true) (h : Only p r s x)
    (hv : soundRegs x.regs → soundRegs v) :
    Only p r s { x with regs := v } :=
  { h with
    regs := fun hp => absurd (hb.symm.trans hp) (by decide)
    sound := fun hs => have k := h.sound hs; ⟨hv k.1, k.2⟩ }

theorem Only.upd_frozen {p r : Nat} {s x : State} {v : Regs} (hb : p.testBit 2 = true) (h : Only p r s x)
    (hv : soundRegs x.regs → soundRegs x.frozen → soundRegs v) :
    Only p r s { x with frozen := v } :=
  { h with
    frozen := fun hp => absurd (hb.symm.trans hp) (by decide)
    sound := fun hs => have k := h.sound hs; ⟨k.1, hv k.1 k.2.1, k.2.2⟩ }

theorem Only.upd_posted {p r : Nat} {s x : State} {v : List EvRec} (hb : p.testBit 3 = true) (h : Only p r s x) :
    Only p r s { x with posted := v } :=
  { h with posted := fun hp => absurd (hb.symm.trans hp) (by decide) }

theorem Only.upd_escs {p r : Nat} {s x : State} {v : List Esc} (hb : p.testBit 4 = true) (h : Only p r s x) :
    Only p r s { x with escs := v } :=
  { h with escs := fun hp => absurd (hb.symm.trans hp) (by decide) }

theorem Only.upd_tb {p r : Nat} {s x : State} {v : TimeBase} (hb : p.testBit 5 = true) (h : Only p r s x) :
    Only p r s { x with tb := v } :=
  { h with tb := fun hp => absurd (hb.symm.trans hp) (by decide) }

theorem Only.upd_grid {p r : Nat} {s x : State} {v : Grid} (hb : p.testBit 6 = true) (h : Only p r s x) :
    Only p r s { x with grid := v } :=
  { h with grid := fun hp => absurd (hb.symm.trans hp) (by decide) }

theorem Only.upd_once {p r : Nat} {s x : State} {v : List (Nat × Nat)} (hb : p.testBit 7 = true) (h : Only p r s x) :
    Only p r s { x with once := v } :=
  { h with once := fun hp => absurd (hb.symm.trans hp) (by decide) }

theorem Only.upd_cb {p r : Nat} {s x : State} {v : CellBus} (hb : p.testBit 8 = true) (h : Only p r s x) :
    Only p r s { x with cb := v } :=
  { h with cb := fun hp => absurd (hb.symm.trans hp) (by decide) }

theorem Only.upd_fb {p r : Nat} {s x : State} {v : Feedback} (hb : p.testBit 9 = true) (h : Only p r s x) :
    Only p r s { x with fb := v } :=
  { h with fb := fun hp => absurd (hb.symm.trans hp) (by decide) }

theorem Only.upd_tl {p r : Nat} {s x : State} {v : Tab Tiller} (hb : p.testBit 10 = true) (h : Only p r s x) :
    Only p r s { x with tl := v } :=
  { h with tl := fun hp => absurd (hb.symm.trans hp) (by decide) }

theorem Only.upd_grp {p r : Nat} {s x : State} {v : Tab Group} (hb : p.testBit 11 = true) (h : Only p r s x) :
    Only p r s { x with grp := v } :=
  { h with grp := fun hp => absurd (hb.symm.trans hp) (by decide) }

theorem Only.upd_mp {p r : Nat} {s x : State} {v : Motion} (hb : p.testBit 12 = true) (h : Only p r s x) :
    Only p r s { x with mp := v } :=
  { h with mp := fun hp => absurd (hb.symm.trans hp) (by decide) }

theorem Only.upd_sv {p r : Nat} {s x : State} {v : Solvers} (hb : p.testBit 13 = true) (h : Only p r s x) :
    Only p r s { x with sv := v } :=
  { h with sv := fun hp => absurd (hb.symm.trans hp) (by decide) }

theorem Only.upd_sep {p r : Nat} {s x : State} {v : Separation} (hb : p.testBit 14 = true) (h : Only p r s x) :
    Only p r s { x with sep := v } :=
  { h with sep := fun hp => absurd (hb.symm.trans hp) (by decide) }

theorem Only.upd_sch {p r : Nat} {s x : State} {v : Sched} (hb : p.testBit 15 = true) (h : Only p r s x) :
    Only p r s { x with sch := v } :=
  { h with sch := fun hp => absurd (hb.symm.trans hp) (by decide) }

theorem Only.upd_me {p r : Nat} {s x : State} {v : MoveEngines} (hb : p.testBit 16 = true) (h : Only p r s x) :
    Only p r s { x with me := v } :=
  { h with me := fun hp => absurd (hb.symm.trans hp) (by decide) }

theorem Only.upd_hi {p r : Nat} {s x : State} {v : HostIf} (hb : p.testBit 17 = true) (h : Only p r s x)
    (hv : Tab.wf (fun _ => 0) x.hi.mem = true → Tab.wf (fun _ => 0) v.mem = true := by exact fun k => k) :
    Only p r s { x with hi := v } :=
  { h with
    hi := fun hp => absurd (hb.symm.trans hp) (by decide)
    sound := fun hs => have k := h.sound hs; ⟨k.1, k.2.1, k.2.2.1, k.2.2.2.1, hv k.2.2.2.2⟩ }

theorem Only.upd_gr {p r : Nat} {s x : State} {v : Granary} (hb : p.testBit 18 = true) (h : Only p r s x)
    (hv : Tab.wf (fun _ => 0) x.gr.front = true ∧ Tab.wf (fun _ => 0) x.gr.back = true → Tab.wf (fun _ => 0) v.front = true ∧ Tab.wf (fun _ => 0) v.back = true := by exact fun k => k) :
    Only p r s { x with gr := v } :=
  { h with
    gr := fun hp => absurd (hb.symm.trans hp) (by decide)
    sound := fun hs => have k := h.sound hs; ⟨k.1, k.2.1, (hv ⟨k.2.2.1, k.2.2.2.1⟩).1, (hv ⟨k.2.2.1, k.2.2.2.1⟩).2, k.2.2.2.2⟩ }

theorem Only.upd_tw {p r : Nat} {s x : State} {v : Twin} (hb : p.testBit 19 = true) (h : Only p r s x) :
    Only p r s { x with tw := v } :=
  { h with tw := fun hp => absurd (hb.symm.trans hp) (by decide) }

theorem Only.upd_ev {p r : Nat} {s x : State} {v : Recorder} (hb : p.testBit 20 = true) (h : Only p r s x) :
    Only p r s { x with ev := v } :=
  { h with ev := fun hp => absurd (hb.symm.trans hp) (by decide) }

theorem Only.upd_bb {p r : Nat} {s x : State} {v : Orangery} (hb : p.testBit 21 = true) (h : Only p r s x) :
    Only p r s { x with bb := v } :=
  { h with bb := fun hp => absurd (hb.symm.trans hp) (by decide) }

theorem Only.upd_inj {p r : Nat} {s x : State} {v : Tab Inj} (hb : p.testBit 22 = true) (h : Only p r s x) :
    Only p r s { x with inj := v } :=
  { h with inj := fun hp => absurd (hb.symm.trans hp) (by decide) }

theorem Only.upd_ad {p r : Nat} {s x : State} {v : Adc} (hb : p.testBit 23 = true) (h : Only p r s x) :
    Only p r s { x with ad := v } :=
  { h with ad := fun hp => absurd (hb.symm.trans hp) (by decide) }

theorem Only.upd_sio {p r : Nat} {s x : State} {v : Safety} (hb : p.testBit 24 = true) (h : Only p r s x) :
    Only p r s { x with sio := v } :=
  { h with sio := fun hp => absurd (hb.symm.trans hp) (by decide) }

theorem Only.upd_pw {p r : Nat} {s x : State} {v : Power} (hb : p.testBit 25 = true) (h : Only p r s x) :
    Only p r s { x with pw := v } :=
  { h with pw := fun hp => absurd (hb.symm.trans hp) (by decide) }

theorem Only.upd_arb {p r : Nat} {s x : State} {v : Arbiters} (hb : p.testBit 26 = true) (h : Only p r s x) :
    Only p r s { x with arb := v } :=
  { h with arb := fun hp => absurd (hb.symm.trans hp) (by decide) }

theorem Only.upd_free {p r : Nat} {s x : State} {v : Nat} (hb : p.testBit 27 = true) (h : Only p r s x) :
    Only p r s { x with free := v } :=
  { h with free := fun hp => absurd (hb.symm.trans hp) (by decide) }

theorem Only.upd_readData {p r : Nat} {s x : State} {v : Word} (hb : p.testBit 28 = true) (h : Only p r s x) :
    Only p r s { x with readData := v } :=
  { h with readData := fun hp => absurd (hb.symm.trans hp) (by decide) }

theorem Only.upd_hiLatch {p r : Nat} {s x : State} {v : Tab (Option Word)} (hb : p.testBit 29 = true) (h : Only p r s x) :
    Only p r s { x with hiLatch := v } :=
  { h with hiLatch := fun hp => absurd (hb.symm.trans hp) (by decide) }

theorem Only.upd_wrStage {p r : Nat} {s x : State} {v : Tab (Option Word)} (hb : p.testBit 30 = true) (h : Only p r s x) :
    Only p r s { x with wrStage := v } :=
  { h with wrStage := fun hp => absurd (hb.symm.trans hp) (by decide) }

theorem Only.upd_view {p r : Nat} {s x : State} {v : TickView} (hb : p.testBit 31 = true) (h : Only p r s x) :
    Only p r s { x with view := v } :=
  { h with view := fun hp => absurd (hb.symm.trans hp) (by decide) }

theorem Only.upd_flips {p r : Nat} {s x : State} {v : List Hit} (hb : p.testBit 32 = true) (h : Only p r s x) :
    Only p r s { x with flips := v } :=
  { h with flips := fun hp => absurd (hb.symm.trans hp) (by decide) }

/-- A state that a function returns beside something else. -/
theorem Only.snd {p r : Nat} {s t : State} {α : Type} {q : α × State} {o : α} (e : q = (o, t)) (h : Only p r s q.2) : Only p r s t := by
  subst e
  exact h

theorem Only.thd {p r : Nat} {s t : State} {α β : Type} {q : α × β × State} {o : α} {u : β} (e : q = (o, u, t))
    (h : Only p r s q.2.2) : Only p r s t := by
  subst e
  exact h

theorem Only.fst {p r : Nat} {s t : State} {α : Type} {q : State × α} {o : α} (e : q = (t, o)) (h : Only p r s q.1) : Only p r s t := by
  subst e
  exact h

/-- A fold over a state paired with something else. -/
theorem Only.foldl_fst {p r : Nat} {s : State} {α β : Type} {x : State × β} {f : State × β → α → State × β} {l : List α}
    (h : Only p r s x.1) (hf : ∀ y a, Only p r s y.1 → Only p r s (f y a).1) : Only p r s (l.foldl f x).1 := by
  induction l generalizing x with
  | nil => exact h
  | cons a l ih => exact ih (hf x a h)

theorem Only.foldl_snd {p r : Nat} {s : State} {α β : Type} {x : β × State} {f : β × State → α → β × State} {l : List α}
    (h : Only p r s x.2) (hf : ∀ y a, Only p r s y.2 → Only p r s (f y a).2) : Only p r s (l.foldl f x).2 := by
  induction l generalizing x with
  | nil => exact h
  | cons a l ih => exact ih (hf x a h)

/-- The state that a step of a move leaves. -/
def MeStep.st : MeStep → State
  | .done s => s
  | .fail s _ => s
  | .held s _ => s

theorem Only.st_done {p r : Nat} {s t : State} {q : MeStep} (e : q = .done t) (h : Only p r s q.st) : Only p r s t := by
  subst e
  exact h

theorem Only.st_fail {p r : Nat} {s t : State} {e' : MeErr} {q : MeStep} (e : q = .fail t e') (h : Only p r s q.st) :
    Only p r s t := by
  subst e
  exact h

theorem Only.st_held {p r n : Nat} {s t : State} {q : MeStep} (e : q = .held t n) (h : Only p r s q.st) : Only p r s t := by
  subst e
  exact h

/-- Use a footprint as a premise. -/
theorem Only.cut {p r : Nat} {s x z : State} (h : Only p r s x) (k : Only p r s x → Only p r s z) : Only p r s z := k h

theorem Only.upd_grid_once {p r : Nat} {s x : State} {v6 : Grid} {v7 : List (Nat × Nat)} (b6 : p.testBit 6 = true) (b7 : p.testBit 7 = true) (h : Only p r s x) :
    Only p r s { x with grid := v6, once := v7 } :=
  { h with
    grid := fun hp => absurd (b6.symm.trans hp) (by decide)
    once := fun hp => absurd (b7.symm.trans hp) (by decide) }

theorem Only.upd_sv_sep {p r : Nat} {s x : State} {v13 : Solvers} {v14 : Separation} (b13 : p.testBit 13 = true) (b14 : p.testBit 14 = true) (h : Only p r s x) :
    Only p r s { x with sv := v13, sep := v14 } :=
  { h with
    sv := fun hp => absurd (b13.symm.trans hp) (by decide)
    sep := fun hp => absurd (b14.symm.trans hp) (by decide) }

theorem Only.upd_posted_ev {p r : Nat} {s x : State} {v3 : List EvRec} {v20 : Recorder} (b3 : p.testBit 3 = true) (b20 : p.testBit 20 = true) (h : Only p r s x) :
    Only p r s { x with posted := v3, ev := v20 } :=
  { h with
    posted := fun hp => absurd (b3.symm.trans hp) (by decide)
    ev := fun hp => absurd (b20.symm.trans hp) (by decide) }

theorem Only.upd_regs_frozen_view {p r : Nat} {s x : State} {v1 v2 : Regs} {v31 : TickView} (b1 : p.testBit 1 = true)
    (b2 : p.testBit 2 = true) (b31 : p.testBit 31 = true)
    (h : Only p r s x) (hv : soundRegs x.regs → soundRegs x.frozen → soundRegs v1 ∧ soundRegs v2) :
    Only p r s { x with regs := v1, frozen := v2, view := v31 } :=
  { h with
    regs := fun hp => absurd (b1.symm.trans hp) (by decide)
    frozen := fun hp => absurd (b2.symm.trans hp) (by decide)
    view := fun hp => absurd (b31.symm.trans hp) (by decide)
    sound := fun hs => have k := h.sound hs; ⟨(hv k.1 k.2.1).1, (hv k.1 k.2.1).2, k.2.2⟩ }

theorem Only.upd_regs_cb_ev_sio_pw {p r : Nat} {s x : State} {v1 : Regs} {v8 : CellBus} {v20 : Recorder} {v24 : Safety} {v25 : Power}
    (b1 : p.testBit 1 = true) (b8 : p.testBit 8 = true) (b20 : p.testBit 20 = true) (b24 : p.testBit 24 = true)
    (b25 : p.testBit 25 = true) (h : Only p r s x) (hv : soundRegs x.regs → soundRegs v1) :
    Only p r s { x with regs := v1, cb := v8, ev := v20, sio := v24, pw := v25 } :=
  { h with
    regs := fun hp => absurd (b1.symm.trans hp) (by decide)
    cb := fun hp => absurd (b8.symm.trans hp) (by decide)
    ev := fun hp => absurd (b20.symm.trans hp) (by decide)
    sio := fun hp => absurd (b24.symm.trans hp) (by decide)
    pw := fun hp => absurd (b25.symm.trans hp) (by decide)
    sound := fun hs => have k := h.sound hs; ⟨hv k.1, k.2⟩ }

/-- Use that a function keeps a footprint as a premise. -/
theorem Only.cutf {p r : Nat} {s z : State} {f : State → State} (h : ∀ y, Only p r s y → Only p r s (f y))
    (k : (∀ y, Only p r s y → Only p r s (f y)) → Only p r s z) : Only p r s z := k h

/-! ### Register writes -/

theorem Only.set {p r : Nat} {s x : State} {f : Field} {n v : Nat} (c : Nat) (hc : fieldOf c = f) (hr : r.testBit c = true)
    (h : Only p r s x) : Only p r s (x.set f n v) := by
  subst hc
  exact { h with
          regs := fun hp => .set c n v (h.regs hp) hr
          sound := fun hs => have k := h.sound hs; ⟨soundRegs_set k.1 _ _ _ (fieldOf_mem c), k.2⟩ }

theorem Only.setBit {p r : Nat} {s x : State} {f : Field} {n : Nat} {b : Bool} (c : Nat) (hc : fieldOf c = f) (hr : r.testBit c = true)
    (h : Only p r s x) : Only p r s (x.setBit f n b) := h.set c hc hr

theorem Only.seti {p r : Nat} {s x : State} {f : Field} {n : Nat} {v : Int} (c : Nat) (hc : fieldOf c = f) (hr : r.testBit c = true)
    (h : Only p r s x) : Only p r s (x.seti f n v) := h.set c hc hr

theorem Only.add {p r : Nat} {s x : State} {f : Field} {n k : Nat} (c : Nat) (hc : fieldOf c = f) (hr : r.testBit c = true)
    (h : Only p r s x) : Only p r s (x.add f n k) := h.set c hc hr

theorem Only.inc {p r : Nat} {s x : State} {f : Field} {n : Nat} (c : Nat) (hc : fieldOf c = f) (hr : r.testBit c = true)
    (h : Only p r s x) : Only p r s (x.inc f n) := h.set c hc hr

theorem Only.raiseTo {p r : Nat} {s x : State} {f : Field} {n v : Nat} (c : Nat) (hc : fieldOf c = f) (hr : r.testBit c = true)
    (h : Only p r s x) : Only p r s (x.raiseTo f n v) := h.set c hc hr

theorem Only.set64 {p r : Nat} {s x : State} {f g : Field} {n : Nat} {v : Int} (c d : Nat) (hc : fieldOf c = f) (hd : fieldOf d = g)
    (hr : r.testBit c = true) (hq : r.testBit d = true) (h : Only p r s x) : Only p r s (x.set64 f g n v) :=
  (h.seti c hc hr).seti d hd hq

end Sys2Proof.Machine
end

