-- ==== Sys2Proof/Laws/Touch.lean ====
section
/-! SUPPORT. From footprints to the claims' terms: a command with a footprint changes only the parts and the register fields that
its masks name. -/
namespace Sys2Proof.Machine
set_option linter.all false
set_option Elab.async false

/-! ### Every field lies in its word -/

theorem sysMap_ok : R.sysMap.all Field.ok = true := by decide +kernel
theorem tbMap_ok : R.tbMap.all Field.ok = true := by decide +kernel
theorem cbMap_ok : R.cbMap.all Field.ok = true := by decide +kernel
theorem fbMap_ok : R.fbMap.all Field.ok = true := by decide +kernel
theorem tlMap_ok : R.tlMap.all Field.ok = true := by decide +kernel
theorem mpMap_ok : R.mpMap.all Field.ok = true := by decide +kernel
theorem svMap_ok : R.svMap.all Field.ok = true := by decide +kernel
theorem sepMap_ok : R.sepMap.all Field.ok = true := by decide +kernel
theorem schMap_ok : R.schMap.all Field.ok = true := by decide +kernel
theorem meMap_ok : R.meMap.all Field.ok = true := by decide +kernel
theorem hiMap_ok : R.hiMap.all Field.ok = true := by decide +kernel
theorem twMap_ok : R.twMap.all Field.ok = true := by decide +kernel
theorem evMap_ok : R.evMap.all Field.ok = true := by decide +kernel
theorem bbMap_ok : R.bbMap.all Field.ok = true := by decide +kernel
theorem injMap_ok : R.injMap.all Field.ok = true := by decide +kernel
theorem adMap_ok : R.adMap.all Field.ok = true := by decide +kernel
theorem pwMap_ok : R.pwMap.all Field.ok = true := by decide +kernel

theorem blkMaps_ok : blkMaps.all (fun l => l.all Field.ok) = true := by
  simp only [blkMaps, List.cons_append, List.nil_append, List.all_cons, List.all_nil, Bool.and_self, sysMap_ok, tbMap_ok, cbMap_ok,
    fbMap_ok, tlMap_ok, mpMap_ok, svMap_ok, sepMap_ok, schMap_ok, meMap_ok, hiMap_ok, twMap_ok, evMap_ok, bbMap_ok, injMap_ok,
    adMap_ok, pwMap_ok]

theorem getD_ok {l : List Field} (h : l.all Field.ok = true) (k : Nat) : (l.getD k R.SYS_CELL_CTRL_EN).ok = true := by
  rw [List.getD_eq_getElem?_getD]
  cases hk : l[k]? with
  | none => rfl
  | some f => exact List.all_eq_true.mp h f (List.mem_of_getElem? hk)

/-- Every numbered field lies in its word. -/
theorem fieldOf_ok (c : Nat) : (fieldOf c).ok = true := by
  refine getD_ok ?_ _
  rw [List.getD_eq_getElem?_getD]
  cases hk : blkMaps[c / 128]? with
  | none => rfl
  | some l => exact List.all_eq_true.mp blkMaps_ok l (List.mem_of_getElem? hk)

/-! ### Register bits -/

/-- A field write changes only the bits of the field's instance. -/
theorem Regs.getLsbD_set (r : Regs) (f : Field) (n v : Nat) (b : Blk) (o j : Nat) (hf : f.ok = true)
    (h : ¬ covers f b o j) : ((r.set f n v).word b o).getLsbD j = (r.word b o).getLsbD j := by
  simp only [Field.ok, Bool.and_eq_true, decide_eq_true_eq] at hf
  unfold Regs.set
  split
  · next hn =>
    rw [Regs.word_setWord]
    by_cases hc : b = f.blk ∧ o = f.addr n
    · rw [if_pos hc, hc.1, hc.2, getLsbD_withBits _ _ _ _ _ hf.1, if_neg]
      intro hj
      exact h ⟨hc.1.symm, hj.1, hj.2, n, hn, hc.2.symm⟩
    · rw [if_neg hc]
  · rfl

/-- A list names every field of a mask. -/
def listed (m : Nat) (fs : List Field) : Bool := (List.range 2176).all fun c => !m.testBit c || fs.contains (fieldOf c)

theorem Wrote.keep {m : Nat} {r q : Regs} {fs : List Field} (h : Wrote m r q)
    (hm : ∀ c, m.testBit c = true → fieldOf c ∈ fs) : regsKeep fs r q := by
  induction h with
  | same => intro b o j _; rfl
  | set c n v _ hc ih =>
    intro b o j hj
    rw [Regs.getLsbD_set _ _ _ _ _ _ _ (fieldOf_ok c) (hj _ (hm c hc))]
    exact ih b o j hj

theorem mem_of_listed {m : Nat} {fs : List Field} (h : listed m fs = true) (hm : m < 2 ^ 2176) (c : Nat)
    (hc : m.testBit c = true) : fieldOf c ∈ fs := by
  by_cases hb : c < 2176
  · have := List.all_eq_true.mp h c (List.mem_range.mpr hb)
    simp only [hc, Bool.not_true, Bool.false_or, List.contains_iff_mem] at this
    exact this
  · have : m < 2 ^ c := Nat.lt_of_lt_of_le hm (Nat.pow_le_pow_right (by decide) (by omega))
    rw [Nat.testBit_lt_two_pow this] at hc
    exact absurd hc (by decide)

/-- Nothing is written through an empty mask. -/
theorem Wrote.eq {r q : Regs} (h : Wrote 0 r q) : q = r := by
  induction h with
  | same => rfl
  | set c n v _ hc _ => simp at hc

theorem Only.regs_eq {p : Nat} {s t : State} (h : Only p 0 s t) (hg : p.testBit 1 = false) : t.regs = s.regs := (h.regs hg).eq

/-! ### Parts -/

/-- The number of a part: its place among the fields of State. -/
def partNum : Part → Nat
  | .pending => 0 | .frozen => 2 | .posted => 3 | .escs => 4 | .tb => 5 | .grid => 6 | .once => 7 | .cb => 8 | .fb => 9
  | .tl => 10 | .grp => 11 | .mp => 12 | .sv => 13 | .sep => 14 | .sch => 15 | .me => 16 | .hi => 17 | .gr => 18 | .tw => 19
  | .ev => 20 | .bb => 21 | .inj => 22 | .ad => 23 | .sio => 24 | .pw => 25 | .arb => 26 | .free => 27 | .readData => 28
  | .hiLatch => 29 | .wrStage => 30 | .view => 31 | .flips => 32

theorem Only.part {p r : Nat} {s t : State} (h : Only p r s t) (q : Part) (hq : p.testBit (partNum q) = false) : q.same s t := by
  cases q
  · exact h.pending hq
  · exact h.frozen hq
  · exact h.posted hq
  · exact h.escs hq
  · exact h.tb hq
  · exact h.grid hq
  · exact h.once hq
  · exact h.cb hq
  · exact h.fb hq
  · exact h.tl hq
  · exact h.grp hq
  · exact h.mp hq
  · exact h.sv hq
  · exact h.sep hq
  · exact h.sch hq
  · exact h.me hq
  · exact h.hi hq
  · exact h.gr hq
  · exact h.tw hq
  · exact h.ev hq
  · exact h.bb hq
  · exact h.inj hq
  · exact h.ad hq
  · exact h.sio hq
  · exact h.pw hq
  · exact h.arb hq
  · exact h.free hq
  · exact h.readData hq
  · exact h.hiLatch hq
  · exact h.wrStage hq
  · exact h.view hq
  · exact h.flips hq

/-- Every part. -/
def parts : List Part :=
  [.pending, .frozen, .posted, .escs, .tb, .grid, .once, .cb, .fb, .tl, .grp, .mp, .sv, .sep, .sch, .me, .hi, .gr, .tw, .ev,
   .bb, .inj, .ad, .sio, .pw, .arb, .free, .readData, .hiLatch, .wrStage, .view, .flips]

theorem mem_parts (q : Part) : q ∈ parts := by cases q <;> decide

/-- A list names every part of a mask. -/
def partsListed (p : Nat) (ps : List Part) : Bool := parts.all fun q => ps.contains q || !p.testBit (partNum q)

theorem of_partsListed {p : Nat} {ps : List Part} (h : partsListed p ps = true) (q : Part) (hq : q ∉ ps) :
    p.testBit (partNum q) = false := by
  have := List.all_eq_true.mp h q (mem_parts q)
  simpa [hq] using this

/-- A footprint whose parts and fields are named by lists. -/
theorem Only.changes {p r : Nat} {s t : State} {ps : List Part} {fs : List Field} (h : Only p r s t)
    (hp : partsListed p ps = true) (hg : p.testBit 1 = false) (hr : listed r fs = true) (hm : r < 2 ^ 2176) :
    Changes ps fs s t :=
  ⟨fun q hq => h.part q (of_partsListed hp q hq), (h.regs hg).keep (mem_of_listed hr hm)⟩

/-- The same for a footprint that leaves the registers free. -/
theorem Only.disturbs {p r : Nat} {s t : State} {ps : List Part} (h : Only p r s t)
    (hp : partsListed p ps = true) : Disturbs ps s t :=
  fun q hq => h.part q (of_partsListed hp q hq)

end Sys2Proof.Machine
end

