-- ==== Sys2Proof/Laws/Get.lean ====
section
/-! SUPPORT. What a field reads after writes: the field written, fields that share no bit with it, and fields outside a footprint. -/
namespace Sys2Proof.Machine
set_option linter.all false
set_option Elab.async false

/-- A field written on an instance that exists reads the value, cut to the field's width. -/
theorem State.get_set (s : State) (f : Field) (n v : Nat) (hn : n < f.count) (hf : f.ok = true) :
    (s.set f n v).get f n = v % 2 ^ f.width := Regs.get_set_self _ _ _ _ hn hf

/-- A value that fits is read back as it was written. -/
theorem State.get_set_of_lt (s : State) (f : Field) (n v : Nat) (hn : n < f.count) (hf : f.ok = true) (hv : v < 2 ^ f.width) :
    (s.set f n v).get f n = v := by rw [State.get_set s f n v hn hf, Nat.mod_eq_of_lt hv]

/-- A one-bit write is read back. -/
theorem State.bit_setBit (s : State) (f : Field) (n : Nat) (b : Bool) (hn : n < f.count) (hf : f.ok = true) :
    (s.setBit f n b).bit f n = b := by
  unfold State.bit State.setBit
  rw [State.get_set _ _ _ _ hn hf]
  have hw : 1 < 2 ^ f.width := by
    simp only [Field.ok, Bool.and_eq_true, decide_eq_true_eq] at hf
    unfold Field.width
    exact Nat.one_lt_two_pow (by omega)
  cases b
  · simp
  · simp [Nat.mod_eq_of_lt hw]

/-- A bit follows its field. -/
theorem State.bit_congr {s t : State} {f : Field} {n : Nat} (h : t.get f n = s.get f n) : t.bit f n = s.bit f n := by
  unfold State.bit
  rw [h]

/-- No instance of `f` shares a bit with an instance of `g`. -/
def Field.far (f g : Field) : Bool :=
  decide (f.blk ≠ g.blk) || decide (f.hi < g.lo) || decide (g.hi < f.lo)
    || (decide (f.base + f.stride * (f.count - 1) < g.base) || decide (g.base + g.stride * (g.count - 1) < f.base))
    || (decide (f.stride = g.stride) && decide (0 < f.stride) && decide (f.base % f.stride ≠ g.base % f.stride))

theorem Field.apart_of_far {f g : Field} (h : f.far g = true) (n m : Nat) (hn : n < f.count) (hm : m < g.count) : Field.apart f n g m := by
  simp only [Field.far, Bool.or_eq_true, decide_eq_true_eq, Bool.and_eq_true] at h
  unfold Field.apart Field.addr
  have h1 : f.stride * n ≤ f.stride * (f.count - 1) := Nat.mul_le_mul_left _ (by omega)
  have h2 : g.stride * m ≤ g.stride * (g.count - 1) := Nat.mul_le_mul_left _ (by omega)
  rcases h with (((h | h) | h) | h) | h
  · exact .inl h
  · exact .inr (.inr (.inl h))
  · exact .inr (.inr (.inr h))
  · refine .inr (.inl ?_)
    omega
  · refine .inr (.inl fun he => h.2 ?_)
    have := congrArg (· % f.stride) he
    simp only [← h.1.1, Nat.add_mul_mod_self_left] at this
    rw [h.1.1] at this ⊢
    exact this

/-- A field that no write of `f` reaches. -/
theorem State.get_set_far (s : State) (f g : Field) (n m v : Nat) (hf : f.ok = true) (h : f.far g = true) (hm : m < g.count) :
    (s.set f n v).get g m = s.get g m := by
  by_cases hn : n < f.count
  · exact Regs.get_set_of_apart _ _ _ _ _ _ hf (Field.apart_of_far h n m hn hm)
  · unfold State.set Regs.set
    rw [if_neg hn]

/-- No field of a mask shares a bit with `g`. -/
def farFrom (r : Nat) (g : Field) : Bool := (List.range 2176).all fun c => !r.testBit c || (fieldOf c).far g

theorem Wrote.get {m : Nat} {r q : Regs} {g : Field} {n : Nat} (h : Wrote m r q) (hn : n < g.count)
    (hm : ∀ c, m.testBit c = true → (fieldOf c).far g = true) : q.get g n = r.get g n := by
  induction h with
  | same => rfl
  | @set q c k v _ hc ih =>
    by_cases hk : k < (fieldOf c).count
    · rw [Regs.get_set_of_apart _ _ _ _ _ _ (fieldOf_ok c) (Field.apart_of_far (hm c hc) k n hk hn)]
      exact ih
    · unfold Regs.set
      rw [if_neg hk]
      exact ih

/-- A field outside a footprint reads as before. -/
theorem Only.get {p r : Nat} {s t : State} {g : Field} {n : Nat} (h : Only p r s t) (hg : p.testBit 1 = false)
    (hr : farFrom r g = true) (hm : r < 2 ^ 2176) (hn : n < g.count) : t.get g n = s.get g n := by
  refine (h.regs hg).get hn fun c hc => ?_
  by_cases hb : c < 2176
  · have := List.all_eq_true.mp hr c (List.mem_range.mpr hb)
    simpa [hc] using this
  · have : r < 2 ^ c := Nat.lt_of_lt_of_le hm (Nat.pow_le_pow_right (by decide) (by omega))
    rw [Nat.testBit_lt_two_pow this] at hc
    exact absurd hc (by decide)

/-! ### Detectors with no injection -/

/-- With no injection key loaded no injection acts. -/
theorem State.inject_none (s : State) (idx inst : Nat) (h : s.bit R.INJ_STAT_KEY_LOADED = false) : s.inject idx inst = (none, s) := by
  unfold State.inject
  have : ((List.range 16).find? fun k =>
      let j := Tab.get (fun _ => ({} : Inj)) s.inj k
      s.injActive j && j.index == idx && (j.inst == 0xFFFF || j.inst == inst)) = none := by
    rw [List.find?_eq_none]
    intro k _
    simp [State.injActive, h]
  simp only [this]

/-- A detector with no injection acts when its condition holds. -/
theorem State.detect_off (s : State) (idx inst : Nat) (cond : Bool) (f : Bool → State → State)
    (h : s.bit R.INJ_STAT_KEY_LOADED = false) : s.detect idx inst cond f = if cond then f false s else s := by
  unfold State.detect
  rw [State.inject_none s idx inst h]

end Sys2Proof.Machine
end

