-- ==== Sys2Proof/Laws/FieldNumbers.lean ====
section
/-! SUPPORT. The numbers of the register fields that operations write. -/
namespace Sys2Proof.Machine
set_option linter.all false
set_option Elab.async false

theorem R.SYS_ID_VENDOR_num : fieldOf 1 = R.SYS_ID_VENDOR := rfl
theorem R.SYS_VERSION_STEPPING_num : fieldOf 2 = R.SYS_VERSION_STEPPING := rfl
theorem R.SYS_VERSION_FW_VER_num : fieldOf 4 = R.SYS_VERSION_FW_VER := rfl
theorem R.SYS_CELL_CTRL_EN_num : fieldOf 12 = R.SYS_CELL_CTRL_EN := rfl
theorem R.SYS_CELL_STATUS_STATE_num : fieldOf 14 = R.SYS_CELL_STATUS_STATE := rfl
theorem R.SYS_CELL_STATUS_REASON_num : fieldOf 15 = R.SYS_CELL_STATUS_REASON := rfl
theorem R.SYS_CELL_STATUS_LOCUS_num : fieldOf 16 = R.SYS_CELL_STATUS_LOCUS := rfl
theorem R.SYS_CHECK_STAT_LAST_US_num : fieldOf 17 = R.SYS_CHECK_STAT_LAST_US := rfl
theorem R.SYS_CHECK_STAT_CHECKS_num : fieldOf 18 = R.SYS_CHECK_STAT_CHECKS := rfl
theorem R.TB_NOW_NS_NS_num : fieldOf 128 = R.TB_NOW_NS_NS := rfl
theorem R.TB_NOW_SEC_LO_num : fieldOf 129 = R.TB_NOW_SEC_LO := rfl
theorem R.TB_NOW_SEC_HI_SEC_HI_num : fieldOf 130 = R.TB_NOW_SEC_HI_SEC_HI := rfl
theorem R.TB_ADDEND_FRAC_num : fieldOf 131 = R.TB_ADDEND_FRAC := rfl
theorem R.TB_CORR_STATUS_LAST_REASON_num : fieldOf 133 = R.TB_CORR_STATUS_LAST_REASON := rfl
theorem R.TB_CORR_STATUS_REFUSED_COUNT_num : fieldOf 134 = R.TB_CORR_STATUS_REFUSED_COUNT := rfl
theorem R.TB_CORR_STATUS_STEPPED_num : fieldOf 135 = R.TB_CORR_STATUS_STEPPED := rfl
theorem R.TB_CORR_STATUS_STEP_ARMED_num : fieldOf 136 = R.TB_CORR_STATUS_STEP_ARMED := rfl
theorem R.TB_STEP_CTRL_MODE_num : fieldOf 142 = R.TB_STEP_CTRL_MODE := rfl
theorem R.TB_REF_STATUS_LOCKED_num : fieldOf 143 = R.TB_REF_STATUS_LOCKED := rfl
theorem R.TB_REF_STATUS_HOLDOVER_num : fieldOf 144 = R.TB_REF_STATUS_HOLDOVER := rfl
theorem R.TB_REF_STATUS_LOSS_COUNT_num : fieldOf 145 = R.TB_REF_STATUS_LOSS_COUNT := rfl
theorem R.TB_PTP_STATE_PORT_STATE_num : fieldOf 149 = R.TB_PTP_STATE_PORT_STATE := rfl
theorem R.TB_PTP_STATE_LOCK_num : fieldOf 150 = R.TB_PTP_STATE_LOCK := rfl
theorem R.TB_PTP_STATE_DOMAIN_num : fieldOf 151 = R.TB_PTP_STATE_DOMAIN := rfl
theorem R.TB_PTP_OFFSET_num : fieldOf 152 = R.TB_PTP_OFFSET := rfl
theorem R.TB_CAP_NS_NS_num : fieldOf 156 = R.TB_CAP_NS_NS := rfl
theorem R.TB_CAP_NS_VALID_num : fieldOf 157 = R.TB_CAP_NS_VALID := rfl
theorem R.TB_CAP_SEC_LO_num : fieldOf 158 = R.TB_CAP_SEC_LO := rfl
theorem R.TB_CAP_SEC_HI_SEC_HI_num : fieldOf 159 = R.TB_CAP_SEC_HI_SEC_HI := rfl
theorem R.TB_CAP_STATUS_COUNT_num : fieldOf 160 = R.TB_CAP_STATUS_COUNT := rfl
theorem R.TB_CAP_STATUS_OVERRUN_num : fieldOf 161 = R.TB_CAP_STATUS_OVERRUN := rfl
theorem R.TB_TRG_CTRL_ARM_num : fieldOf 162 = R.TB_TRG_CTRL_ARM := rfl
theorem R.TB_TRG_CTRL_ACTION_num : fieldOf 163 = R.TB_TRG_CTRL_ACTION := rfl
theorem R.TB_TRG_CTRL_TARGET_num : fieldOf 164 = R.TB_TRG_CTRL_TARGET := rfl
theorem R.TB_TRG_STATUS_FIRED_num : fieldOf 169 = R.TB_TRG_STATUS_FIRED := rfl
theorem R.TB_TRG_STATUS_LATE_num : fieldOf 170 = R.TB_TRG_STATUS_LATE := rfl
theorem R.TB_TRG_STATUS_CANCELLED_num : fieldOf 171 = R.TB_TRG_STATUS_CANCELLED := rfl
theorem R.CB_ETHERTYPE_ETYPE_num : fieldOf 256 = R.CB_ETHERTYPE_ETYPE := rfl
theorem R.CB_DEV_MAC_LO_num : fieldOf 257 = R.CB_DEV_MAC_LO := rfl
theorem R.CB_DEV_MAC_HI_OCTETS_0_1_num : fieldOf 258 = R.CB_DEV_MAC_HI_OCTETS_0_1 := rfl
theorem R.CB_LINK_STATE_STATE_num : fieldOf 264 = R.CB_LINK_STATE_STATE := rfl
theorem R.CB_LINK_STATE_MOD_PRESENT_num : fieldOf 265 = R.CB_LINK_STATE_MOD_PRESENT := rfl
theorem R.CB_LINK_STATE_LOS_num : fieldOf 266 = R.CB_LINK_STATE_LOS := rfl
theorem R.CB_LINK_STATE_TX_FAULT_num : fieldOf 267 = R.CB_LINK_STATE_TX_FAULT := rfl
theorem R.CB_LINK_STATE_BLOCK_LOCK_num : fieldOf 268 = R.CB_LINK_STATE_BLOCK_LOCK := rfl
theorem R.CB_LINK_STATE_HI_BER_num : fieldOf 269 = R.CB_LINK_STATE_HI_BER := rfl
theorem R.CB_ERR_A_FCS_ERR_num : fieldOf 272 = R.CB_ERR_A_FCS_ERR := rfl
theorem R.CB_ERR_A_LEN_ERR_num : fieldOf 273 = R.CB_ERR_A_LEN_ERR := rfl
theorem R.CB_ERR_B_UNPROTECTED_num : fieldOf 274 = R.CB_ERR_B_UNPROTECTED := rfl
theorem R.CB_ERR_B_MACSEC_AUTH_num : fieldOf 275 = R.CB_ERR_B_MACSEC_AUTH := rfl
theorem R.CB_ERR_C_MACSEC_REPLAY_num : fieldOf 276 = R.CB_ERR_C_MACSEC_REPLAY := rfl
theorem R.CB_ERR_C_NON_RYFOID_num : fieldOf 277 = R.CB_ERR_C_NON_RYFOID := rfl
theorem R.CB_ERR_D_HDR_ERR_num : fieldOf 278 = R.CB_ERR_D_HDR_ERR := rfl
theorem R.CB_ERR_D_PCRC_ERR_num : fieldOf 279 = R.CB_ERR_D_PCRC_ERR := rfl
theorem R.CB_ERR_E_SRC_ERR_num : fieldOf 280 = R.CB_ERR_E_SRC_ERR := rfl
theorem R.CB_ERR_E_OWN_ERR_num : fieldOf 281 = R.CB_ERR_E_OWN_ERR := rfl
theorem R.CB_ERR_F_POLICE_DROP_num : fieldOf 282 = R.CB_ERR_F_POLICE_DROP := rfl
theorem R.CB_ERR_F_QUAR_DROP_num : fieldOf 283 = R.CB_ERR_F_QUAR_DROP := rfl
theorem R.CB_ERR_G_PAUSE_RX_num : fieldOf 284 = R.CB_ERR_G_PAUSE_RX := rfl
theorem R.CB_ERR_G_LINK_DOWN_num : fieldOf 285 = R.CB_ERR_G_LINK_DOWN := rfl
theorem R.CB_RX_FRAMES_num : fieldOf 286 = R.CB_RX_FRAMES := rfl
theorem R.CB_TX_FRAMES_num : fieldOf 287 = R.CB_TX_FRAMES := rfl
theorem R.CB_MACSEC_STATUS_TX_AN_num : fieldOf 288 = R.CB_MACSEC_STATUS_TX_AN := rfl
theorem R.CB_MACSEC_STATUS_RX_AN_VALID_num : fieldOf 289 = R.CB_MACSEC_STATUS_RX_AN_VALID := rfl
theorem R.CB_MACSEC_STATUS_TX_SA_VALID_num : fieldOf 290 = R.CB_MACSEC_STATUS_TX_SA_VALID := rfl
theorem R.CB_MACSEC_STATUS_PN_HIGH_num : fieldOf 291 = R.CB_MACSEC_STATUS_PN_HIGH := rfl
theorem R.CB_MACSEC_STATUS_PN_EXHAUSTED_num : fieldOf 292 = R.CB_MACSEC_STATUS_PN_EXHAUSTED := rfl
theorem R.CB_MACSEC_STATUS_KEY_SEQ_num : fieldOf 293 = R.CB_MACSEC_STATUS_KEY_SEQ := rfl
theorem R.CB_TX_PN_num : fieldOf 294 = R.CB_TX_PN := rfl
theorem R.CB_RX_PN_num : fieldOf 295 = R.CB_RX_PN := rfl
theorem R.CB_PT_STATE_STATE_num : fieldOf 305 = R.CB_PT_STATE_STATE := rfl
theorem R.CB_PT_STATE_QCAUSE_num : fieldOf 306 = R.CB_PT_STATE_QCAUSE := rfl
theorem R.CB_PT_STATE_FALLBACK_num : fieldOf 307 = R.CB_PT_STATE_FALLBACK := rfl
theorem R.CB_PT_STATE_ALARM_num : fieldOf 308 = R.CB_PT_STATE_ALARM := rfl
theorem R.CB_PT_STATE_EPOCH_SEEN_num : fieldOf 309 = R.CB_PT_STATE_EPOCH_SEEN := rfl
theorem R.CB_PT_DELAY_DELAY_num : fieldOf 310 = R.CB_PT_DELAY_DELAY := rfl
theorem R.CB_PT_COUNT_OWN_VIOL_num : fieldOf 311 = R.CB_PT_COUNT_OWN_VIOL := rfl
theorem R.CB_PT_COUNT_POLICE_DROP_num : fieldOf 312 = R.CB_PT_COUNT_POLICE_DROP := rfl
theorem R.CB_CYCLE_NS_num : fieldOf 327 = R.CB_CYCLE_NS := rfl
theorem R.CB_EPOCH_NS_NS_num : fieldOf 330 = R.CB_EPOCH_NS_NS := rfl
theorem R.CB_EPOCH_SEC_LO_num : fieldOf 331 = R.CB_EPOCH_SEC_LO := rfl
theorem R.CB_EPOCH_SEC_HI_SEC_num : fieldOf 332 = R.CB_EPOCH_SEC_HI_SEC := rfl
theorem R.CB_CYCLE_NOW_num : fieldOf 333 = R.CB_CYCLE_NOW := rfl
theorem R.CB_SLOT_SEL_SLOT_num : fieldOf 337 = R.CB_SLOT_SEL_SLOT := rfl
theorem R.CB_SLOT_ARR_TICK_num : fieldOf 338 = R.CB_SLOT_ARR_TICK := rfl
theorem R.CB_SLOT_ARR_CLASS_num : fieldOf 339 = R.CB_SLOT_ARR_CLASS := rfl
theorem R.CB_SLOT_ARR_DEV_num : fieldOf 340 = R.CB_SLOT_ARR_DEV := rfl
theorem R.CB_SLOT_STAT_FRESH_HELD_num : fieldOf 341 = R.CB_SLOT_STAT_FRESH_HELD := rfl
theorem R.CB_SLOT_STAT_MISSING_num : fieldOf 342 = R.CB_SLOT_STAT_MISSING := rfl
theorem R.CB_SLOT_STAT_MISS_RUN_num : fieldOf 343 = R.CB_SLOT_STAT_MISS_RUN := rfl
theorem R.CB_PS_SYNC_SYNC_MODE_num : fieldOf 349 = R.CB_PS_SYNC_SYNC_MODE := rfl
theorem R.CB_PS_SYNC_TIMED_CAPABLE_num : fieldOf 350 = R.CB_PS_SYNC_TIMED_CAPABLE := rfl
theorem R.CB_PS_WIN_EDGE_COUNT_num : fieldOf 352 = R.CB_PS_WIN_EDGE_COUNT := rfl
theorem R.CB_PS_WIN_EDGE_WIN_num : fieldOf 353 = R.CB_PS_WIN_EDGE_WIN := rfl
theorem R.CB_PS_WIN_MISS_RUN_num : fieldOf 354 = R.CB_PS_WIN_MISS_RUN := rfl
theorem R.CB_PS_MISS_MISSING_num : fieldOf 355 = R.CB_PS_MISS_MISSING := rfl
theorem R.CB_PS_MISS_OUTSIDE_num : fieldOf 356 = R.CB_PS_MISS_OUTSIDE := rfl
theorem R.CB_PS_MISS_LAYOUT_STALE_num : fieldOf 357 = R.CB_PS_MISS_LAYOUT_STALE := rfl
theorem R.CB_PS_MISS_TX_LATE_num : fieldOf 358 = R.CB_PS_MISS_TX_LATE := rfl
theorem R.FB_IDX_EXP_num : fieldOf 397 = R.FB_IDX_EXP := rfl
theorem R.FB_IDX_CFG_IDX_VALID_num : fieldOf 401 = R.FB_IDX_CFG_IDX_VALID := rfl
theorem R.FB_IDX_STAT_LAST_DEV_num : fieldOf 403 = R.FB_IDX_STAT_LAST_DEV := rfl
theorem R.FB_IDX_STAT_LAST_OUT_num : fieldOf 404 = R.FB_IDX_STAT_LAST_OUT := rfl
theorem R.FB_POS_LO_num : fieldOf 405 = R.FB_POS_LO := rfl
theorem R.FB_POS_HI_num : fieldOf 406 = R.FB_POS_HI := rfl
theorem R.FB_VEL_LO_num : fieldOf 407 = R.FB_VEL_LO := rfl
theorem R.FB_VEL_HI_num : fieldOf 408 = R.FB_VEL_HI := rfl
theorem R.FB_ACC_LO_num : fieldOf 409 = R.FB_ACC_LO := rfl
theorem R.FB_ACC_HI_num : fieldOf 410 = R.FB_ACC_HI := rfl
theorem R.FB_QUAL_STATE_num : fieldOf 411 = R.FB_QUAL_STATE := rfl
theorem R.FB_QUAL_FRESH_num : fieldOf 412 = R.FB_QUAL_FRESH := rfl
theorem R.FB_QUAL_PREDICTED_num : fieldOf 413 = R.FB_QUAL_PREDICTED := rfl
theorem R.FB_QUAL_EDGE_TIMED_num : fieldOf 414 = R.FB_QUAL_EDGE_TIMED := rfl
theorem R.FB_QUAL_UNVERIFIED_num : fieldOf 415 = R.FB_QUAL_UNVERIFIED := rfl
theorem R.FB_QUAL_SAT_num : fieldOf 416 = R.FB_QUAL_SAT := rfl
theorem R.FB_QUAL_INDEX_num : fieldOf 417 = R.FB_QUAL_INDEX := rfl
theorem R.FB_QUAL_COMPAT_num : fieldOf 418 = R.FB_QUAL_COMPAT := rfl
theorem R.FB_QUAL_INVALID_RUN_num : fieldOf 419 = R.FB_QUAL_INVALID_RUN := rfl
theorem R.FB_QUAL_EDGES_num : fieldOf 420 = R.FB_QUAL_EDGES := rfl
theorem R.FB_ERR_INVALID_num : fieldOf 421 = R.FB_ERR_INVALID := rfl
theorem R.FB_ERR_INDEX_ERR_num : fieldOf 422 = R.FB_ERR_INDEX_ERR := rfl
theorem R.FB_ERR_POS_JUMP_num : fieldOf 423 = R.FB_ERR_POS_JUMP := rfl
theorem R.DP_STAT_QUAD_ERR_num : fieldOf 433 = R.DP_STAT_QUAD_ERR := rfl
theorem R.DP_STAT_SSI_ERR_num : fieldOf 434 = R.DP_STAT_SSI_ERR := rfl
theorem R.DP_STAT_HALL_ERR_num : fieldOf 435 = R.DP_STAT_HALL_ERR := rfl
theorem R.DP_COUNT_num : fieldOf 436 = R.DP_COUNT := rfl
theorem R.EO_CFG_EN_num : fieldOf 437 = R.EO_CFG_EN := rfl
theorem R.EO_CFG_LOST_num : fieldOf 441 = R.EO_CFG_LOST := rfl
theorem R.EO_STAT_OVERRUN_num : fieldOf 443 = R.EO_STAT_OVERRUN := rfl
theorem R.EO_STAT_BACKLOG_num : fieldOf 444 = R.EO_STAT_BACKLOG := rfl
theorem R.TL_BUDGET_B_NS_num : fieldOf 514 = R.TL_BUDGET_B_NS := rfl
theorem R.TL_BUDGET_INSN_COUNT_num : fieldOf 515 = R.TL_BUDGET_INSN_COUNT := rfl
theorem R.TL_STAT_STATE_num : fieldOf 516 = R.TL_STAT_STATE := rfl
theorem R.TL_STAT_SAT_ST_num : fieldOf 517 = R.TL_STAT_SAT_ST := rfl
theorem R.TL_STAT_ACC_OVF_num : fieldOf 518 = R.TL_STAT_ACC_OVF := rfl
theorem R.TL_STAT_OVERRUN_num : fieldOf 519 = R.TL_STAT_OVERRUN := rfl
theorem R.TL_STAT_PL_STALE_num : fieldOf 520 = R.TL_STAT_PL_STALE := rfl
theorem R.TL_RUN_RUN_LAST_num : fieldOf 521 = R.TL_RUN_RUN_LAST := rfl
theorem R.TL_RUN_RUN_MAX_num : fieldOf 522 = R.TL_RUN_RUN_MAX := rfl
theorem R.TL_COUNT_SAT_COUNT_num : fieldOf 523 = R.TL_COUNT_SAT_COUNT := rfl
theorem R.TL_COUNT_ECC_CORR_num : fieldOf 524 = R.TL_COUNT_ECC_CORR := rfl
theorem R.TL_COUNT_PL_LATE_num : fieldOf 525 = R.TL_COUNT_PL_LATE := rfl
theorem R.TL_GAIN_REGION_REGION_num : fieldOf 572 = R.TL_GAIN_REGION_REGION := rfl
theorem R.TL_GAIN_REGION_SELECTED_num : fieldOf 573 = R.TL_GAIN_REGION_SELECTED := rfl
theorem R.TL_GAIN_REGION_BAND0_num : fieldOf 574 = R.TL_GAIN_REGION_BAND0 := rfl
theorem R.TL_GAIN_REGION_BAND1_num : fieldOf 575 = R.TL_GAIN_REGION_BAND1 := rfl
theorem R.TL_GAIN_REGION_FORCED_num : fieldOf 576 = R.TL_GAIN_REGION_FORCED := rfl
theorem R.TL_GAIN_REGION_SWITCHES_num : fieldOf 577 = R.TL_GAIN_REGION_SWITCHES := rfl
theorem R.TL_JSTAT_JSTATE_num : fieldOf 578 = R.TL_JSTAT_JSTATE := rfl
theorem R.TL_JSTAT_CAUSE_num : fieldOf 579 = R.TL_JSTAT_CAUSE := rfl
theorem R.TL_JSTAT_SAT_NOW_num : fieldOf 580 = R.TL_JSTAT_SAT_NOW := rfl
theorem R.TL_JSTAT_SAT_TRIP_num : fieldOf 581 = R.TL_JSTAT_SAT_TRIP := rfl
theorem R.TL_JSTAT_XFER_LAST_num : fieldOf 582 = R.TL_JSTAT_XFER_LAST := rfl
theorem R.TL_JSTAT_XFER_SAT_num : fieldOf 583 = R.TL_JSTAT_XFER_SAT := rfl
theorem R.TL_JSTAT_REF_STALE_num : fieldOf 584 = R.TL_JSTAT_REF_STALE := rfl
theorem R.TL_SAT_ACC_num : fieldOf 585 = R.TL_SAT_ACC := rfl
theorem R.TL_JCOUNT_AW_HOLDS_num : fieldOf 586 = R.TL_JCOUNT_AW_HOLDS := rfl
theorem R.TL_JCOUNT_XFER_COUNT_num : fieldOf 587 = R.TL_JCOUNT_XFER_COUNT := rfl
theorem R.TL_JCOUNT_SAT_TRIPS_num : fieldOf 588 = R.TL_JCOUNT_SAT_TRIPS := rfl
theorem R.MP_STAT_STATE_num : fieldOf 664 = R.MP_STAT_STATE := rfl
theorem R.MP_STAT_HOMED_num : fieldOf 665 = R.MP_STAT_HOMED := rfl
theorem R.MP_STAT_LIMIT_DEFERRED_num : fieldOf 666 = R.MP_STAT_LIMIT_DEFERRED := rfl
theorem R.MP_STAT_QUEUE_num : fieldOf 667 = R.MP_STAT_QUEUE := rfl
theorem R.MP_STAT_CAUSE_num : fieldOf 668 = R.MP_STAT_CAUSE := rfl
theorem R.MP_STAT_HOME_RESULT_num : fieldOf 669 = R.MP_STAT_HOME_RESULT := rfl
theorem R.MP_POS_LO_num : fieldOf 670 = R.MP_POS_LO := rfl
theorem R.MP_POS_HI_num : fieldOf 671 = R.MP_POS_HI := rfl
theorem R.MP_VEL_LO_num : fieldOf 672 = R.MP_VEL_LO := rfl
theorem R.MP_VEL_HI_num : fieldOf 673 = R.MP_VEL_HI := rfl
theorem R.MP_ACC_LO_num : fieldOf 674 = R.MP_ACC_LO := rfl
theorem R.MP_ACC_HI_num : fieldOf 675 = R.MP_ACC_HI := rfl
theorem R.MP_TGT_LO_num : fieldOf 676 = R.MP_TGT_LO := rfl
theorem R.MP_TGT_HI_num : fieldOf 677 = R.MP_TGT_HI := rfl
theorem R.MP_COUNT_ABORTS_num : fieldOf 678 = R.MP_COUNT_ABORTS := rfl
theorem R.MP_COUNT_TRG_UNUSED_num : fieldOf 679 = R.MP_COUNT_TRG_UNUSED := rfl
theorem R.MP_COUNT_DEFERRALS_num : fieldOf 680 = R.MP_COUNT_DEFERRALS := rfl
theorem R.MP_HOME_POS_LO_num : fieldOf 681 = R.MP_HOME_POS_LO := rfl
theorem R.MP_HOME_POS_HI_num : fieldOf 682 = R.MP_HOME_POS_HI := rfl
theorem R.ST_STAT_RDY_num : fieldOf 689 = R.ST_STAT_RDY := rfl
theorem R.ST_STAT_EN_OUT_num : fieldOf 690 = R.ST_STAT_EN_OUT := rfl
theorem R.ST_STAT_DIR_num : fieldOf 691 = R.ST_STAT_DIR := rfl
theorem R.ST_STAT_PENDING_num : fieldOf 692 = R.ST_STAT_PENDING := rfl
theorem R.ST_VWORD_LO_num : fieldOf 693 = R.ST_VWORD_LO := rfl
theorem R.ST_VWORD_HI_V_num : fieldOf 694 = R.ST_VWORD_HI_V := rfl
theorem R.ST_STEP_LO_num : fieldOf 695 = R.ST_STEP_LO := rfl
theorem R.ST_STEP_HI_STEPS_num : fieldOf 696 = R.ST_STEP_HI_STEPS := rfl
theorem R.ST_COUNT_RATE_CLAMP_num : fieldOf 697 = R.ST_COUNT_RATE_CLAMP := rfl
theorem R.ST_COUNT_FEED_LATE_num : fieldOf 698 = R.ST_COUNT_FEED_LATE := rfl
theorem R.ST_COUNT_DRV_LOST_num : fieldOf 699 = R.ST_COUNT_DRV_LOST := rfl
theorem R.MP_AXIN_LEVEL_LO_num : fieldOf 702 = R.MP_AXIN_LEVEL_LO := rfl
theorem R.MP_AXIN_LEVEL_HI_L_num : fieldOf 703 = R.MP_AXIN_LEVEL_HI_L := rfl
theorem R.MP_AXIN_CHAT_LO_num : fieldOf 704 = R.MP_AXIN_CHAT_LO := rfl
theorem R.MP_AXIN_CHAT_HI_C_num : fieldOf 705 = R.MP_AXIN_CHAT_HI_C := rfl
theorem R.SV_DIM_NJ_num : fieldOf 773 = R.SV_DIM_NJ := rfl
theorem R.SV_DIM_N_num : fieldOf 774 = R.SV_DIM_N := rfl
theorem R.SV_DIM_M_num : fieldOf 775 = R.SV_DIM_M := rfl
theorem R.SV_DIM_V_num : fieldOf 776 = R.SV_DIM_V := rfl
theorem R.SV_BUDGET_num : fieldOf 777 = R.SV_BUDGET := rfl
theorem R.SV_SCRATCH_WORDS_num : fieldOf 778 = R.SV_SCRATCH_WORDS := rfl
theorem R.SV_RUN_LAST_num : fieldOf 779 = R.SV_RUN_LAST := rfl
theorem R.SV_RUN_MAX_num : fieldOf 780 = R.SV_RUN_MAX := rfl
theorem R.SV_ITER_STAT_ITER_LAST_num : fieldOf 781 = R.SV_ITER_STAT_ITER_LAST := rfl
theorem R.SV_ITER_STAT_PIV_FLOORS_num : fieldOf 782 = R.SV_ITER_STAT_PIV_FLOORS := rfl
theorem R.SV_CERT_STAT_VAR_num : fieldOf 783 = R.SV_CERT_STAT_VAR := rfl
theorem R.SV_CERT_STAT_SUB_num : fieldOf 784 = R.SV_CERT_STAT_SUB := rfl
theorem R.SV_CERT_STAT_KIND_num : fieldOf 785 = R.SV_CERT_STAT_KIND := rfl
theorem R.SV_CERT_VAL_num : fieldOf 786 = R.SV_CERT_VAL := rfl
theorem R.SV_COUNT_CERT_VIOL_num : fieldOf 787 = R.SV_COUNT_CERT_VIOL := rfl
theorem R.SV_COUNT_OVF_num : fieldOf 788 = R.SV_COUNT_OVF := rfl
theorem R.SV_COUNT_ECC_CORR_num : fieldOf 789 = R.SV_COUNT_ECC_CORR := rfl
theorem R.SV_COUNT_PIV_FLOOR_num : fieldOf 790 = R.SV_COUNT_PIV_FLOOR := rfl
theorem R.SV_SOLVES_num : fieldOf 791 = R.SV_SOLVES := rfl
theorem R.SV_STATUS_num : fieldOf 799 = R.SV_STATUS := rfl
theorem R.SV_HASH_num : fieldOf 800 = R.SV_HASH := rfl
theorem R.SV_INF_ROW_ROW_num : fieldOf 801 = R.SV_INF_ROW_ROW := rfl
theorem R.SV_INF_ROW_CLASS_num : fieldOf 802 = R.SV_INF_ROW_CLASS := rfl
theorem R.SV_INF_VAL_num : fieldOf 803 = R.SV_INF_VAL := rfl
theorem R.SV_RT_COUNT_A_ACCEPTED_num : fieldOf 804 = R.SV_RT_COUNT_A_ACCEPTED := rfl
theorem R.SV_RT_COUNT_A_SHIFTED_num : fieldOf 805 = R.SV_RT_COUNT_A_SHIFTED := rfl
theorem R.SV_RT_COUNT_A_INFEASIBLE_num : fieldOf 806 = R.SV_RT_COUNT_A_INFEASIBLE := rfl
theorem R.SV_RT_COUNT_A_COLD_num : fieldOf 807 = R.SV_RT_COUNT_A_COLD := rfl
theorem R.SV_RT_COUNT_B_CUT_MIDFACTOR_num : fieldOf 808 = R.SV_RT_COUNT_B_CUT_MIDFACTOR := rfl
theorem R.SV_RT_COUNT_B_CUT_OTHER_num : fieldOf 809 = R.SV_RT_COUNT_B_CUT_OTHER := rfl
theorem R.SV_RT_COUNT_B_GRANT_REFUSED_num : fieldOf 810 = R.SV_RT_COUNT_B_GRANT_REFUSED := rfl
theorem R.SV_RT_COUNT_B_STOP_REQS_num : fieldOf 811 = R.SV_RT_COUNT_B_STOP_REQS := rfl
theorem R.SEP_CFG_EN_num : fieldOf 896 = R.SEP_CFG_EN := rfl
theorem R.SEP_STAT_GEOM_FAIL_num : fieldOf 908 = R.SEP_STAT_GEOM_FAIL := rfl
theorem R.SEP_STAT_GEOM_LAST_num : fieldOf 909 = R.SEP_STAT_GEOM_LAST := rfl
theorem R.SEP_BV_STAT_STO_REQ_num : fieldOf 910 = R.SEP_BV_STAT_STO_REQ := rfl
theorem R.SEP_BV_STAT_LAST_CHECK_num : fieldOf 911 = R.SEP_BV_STAT_LAST_CHECK := rfl
theorem R.SEP_BV_STAT_SWEEP_SLICE_num : fieldOf 912 = R.SEP_BV_STAT_SWEEP_SLICE := rfl
theorem R.SEP_COUNT_DISAGREE_num : fieldOf 913 = R.SEP_COUNT_DISAGREE := rfl
theorem R.SEP_COUNT_MISSED_num : fieldOf 914 = R.SEP_COUNT_MISSED := rfl
theorem R.SEP_COUNT_PROTECT_num : fieldOf 915 = R.SEP_COUNT_PROTECT := rfl
theorem R.SEP_COUNT_BLIND_num : fieldOf 916 = R.SEP_COUNT_BLIND := rfl
theorem R.SEP_ARM_STAT_A_num : fieldOf 917 = R.SEP_ARM_STAT_A := rfl
theorem R.SEP_ARM_STAT_B_num : fieldOf 918 = R.SEP_ARM_STAT_B := rfl
theorem R.SEP_ARM_STAT_C_KMAX_num : fieldOf 919 = R.SEP_ARM_STAT_C_KMAX := rfl
theorem R.SEP_ARM_STAT_C_OBSTACLE_num : fieldOf 920 = R.SEP_ARM_STAT_C_OBSTACLE := rfl
theorem R.SEP_ARM_STAT_C_DECISION_num : fieldOf 921 = R.SEP_ARM_STAT_C_DECISION := rfl
theorem R.SEP_ARM_STAT_C_CATEGORY_num : fieldOf 922 = R.SEP_ARM_STAT_C_CATEGORY := rfl
theorem R.SEP_ARM_STAT_C_TABLE_RANGE_num : fieldOf 923 = R.SEP_ARM_STAT_C_TABLE_RANGE := rfl
theorem R.SEP_ARM_STAT_C_ZONE_num : fieldOf 924 = R.SEP_ARM_STAT_C_ZONE := rfl
theorem R.SEP_ARM_STAT_D_num : fieldOf 925 = R.SEP_ARM_STAT_D := rfl
theorem R.SEP_SCAN_STAT_STATE_num : fieldOf 926 = R.SEP_SCAN_STAT_STATE := rfl
theorem R.SEP_SCAN_STAT_CAUSE_num : fieldOf 927 = R.SEP_SCAN_STAT_CAUSE := rfl
theorem R.SEP_SCAN_STAT_COUNT_num : fieldOf 928 = R.SEP_SCAN_STAT_COUNT := rfl
theorem R.SEP_SCAN_STAT_AGE_num : fieldOf 929 = R.SEP_SCAN_STAT_AGE := rfl
theorem R.SCH_COUNT_DEADLINE_MISS_num : fieldOf 1025 = R.SCH_COUNT_DEADLINE_MISS := rfl
theorem R.SCH_COUNT_RELEASE_DROP_num : fieldOf 1026 = R.SCH_COUNT_RELEASE_DROP := rfl
theorem R.SCH_COUNT_ECC_CORR_num : fieldOf 1027 = R.SCH_COUNT_ECC_CORR := rfl
theorem R.SCH_UNIT_STAT_RES_UTIL_num : fieldOf 1029 = R.SCH_UNIT_STAT_RES_UTIL := rfl
theorem R.SCH_UNIT_STAT_LOAD_num : fieldOf 1030 = R.SCH_UNIT_STAT_LOAD := rfl
theorem R.SCH_DBF_STAT_WORST_LOCUS_num : fieldOf 1031 = R.SCH_DBF_STAT_WORST_LOCUS := rfl
theorem R.SCH_DBF_STAT_WORST_SLACK_num : fieldOf 1032 = R.SCH_DBF_STAT_WORST_SLACK := rfl
theorem R.SCH_DBF_FAIL_num : fieldOf 1033 = R.SCH_DBF_FAIL := rfl
theorem R.SCH_LIST_STAT_OCCUPANCY_num : fieldOf 1034 = R.SCH_LIST_STAT_OCCUPANCY := rfl
theorem R.SCH_LIST_STAT_MAX_num : fieldOf 1035 = R.SCH_LIST_STAT_MAX := rfl
theorem R.SCH_TASK_A_RELEASE_num : fieldOf 1037 = R.SCH_TASK_A_RELEASE := rfl
theorem R.SCH_TASK_A_CLASS_num : fieldOf 1038 = R.SCH_TASK_A_CLASS := rfl
theorem R.SCH_TASK_A_TARGET_num : fieldOf 1039 = R.SCH_TASK_A_TARGET := rfl
theorem R.SCH_TASK_A_FLOW_num : fieldOf 1040 = R.SCH_TASK_A_FLOW := rfl
theorem R.SCH_TASK_A_FLOW_EN_num : fieldOf 1041 = R.SCH_TASK_A_FLOW_EN := rfl
theorem R.SCH_TASK_A_LIST_num : fieldOf 1042 = R.SCH_TASK_A_LIST := rfl
theorem R.SCH_TASK_B_BUDGET_NS_num : fieldOf 1043 = R.SCH_TASK_B_BUDGET_NS := rfl
theorem R.SCH_TASK_C_DEADLINE_NS_num : fieldOf 1044 = R.SCH_TASK_C_DEADLINE_NS := rfl
theorem R.SCH_TASK_D_PERIOD_US_num : fieldOf 1049 = R.SCH_TASK_D_PERIOD_US := rfl
theorem R.SCH_TASK_D_PHASE_US_num : fieldOf 1050 = R.SCH_TASK_D_PHASE_US := rfl
theorem R.SCH_TASK_E_RESP_LAST_num : fieldOf 1054 = R.SCH_TASK_E_RESP_LAST := rfl
theorem R.SCH_TASK_E_RESP_MAX_num : fieldOf 1055 = R.SCH_TASK_E_RESP_MAX := rfl
theorem R.SCH_TASK_F_MISSES_num : fieldOf 1056 = R.SCH_TASK_F_MISSES := rfl
theorem R.SCH_TASK_F_DROPS_num : fieldOf 1057 = R.SCH_TASK_F_DROPS := rfl
theorem R.ME_STATE_STATE_num : fieldOf 1156 = R.ME_STATE_STATE := rfl
theorem R.ME_STATE_COND_num : fieldOf 1157 = R.ME_STATE_COND := rfl
theorem R.ME_STATE_IADDR_num : fieldOf 1158 = R.ME_STATE_IADDR := rfl
theorem R.ME_STATE_ARM_MASK_num : fieldOf 1159 = R.ME_STATE_ARM_MASK := rfl
theorem R.ME_RESIDUE_A_IADDR_num : fieldOf 1160 = R.ME_RESIDUE_A_IADDR := rfl
theorem R.ME_RESIDUE_A_STREAM_num : fieldOf 1161 = R.ME_RESIDUE_A_STREAM := rfl
theorem R.ME_RESIDUE_A_ELEM_num : fieldOf 1162 = R.ME_RESIDUE_A_ELEM := rfl
theorem R.ME_RESIDUE_A_REASON_num : fieldOf 1163 = R.ME_RESIDUE_A_REASON := rfl
theorem R.ME_RESIDUE_B_REMAIN_num : fieldOf 1164 = R.ME_RESIDUE_B_REMAIN := rfl
theorem R.ME_RESIDUE_B_CYCLE_num : fieldOf 1165 = R.ME_RESIDUE_B_CYCLE := rfl
theorem R.ME_ERR_ADDR_num : fieldOf 1166 = R.ME_ERR_ADDR := rfl
theorem R.ME_ERR_INFO_DIR_num : fieldOf 1167 = R.ME_ERR_INFO_DIR := rfl
theorem R.ME_ERR_INFO_CAUSE_num : fieldOf 1168 = R.ME_ERR_INFO_CAUSE := rfl
theorem R.ME_ERR_INFO_IADDR_num : fieldOf 1169 = R.ME_ERR_INFO_IADDR := rfl
theorem R.ME_ERR_INFO_STREAM_num : fieldOf 1170 = R.ME_ERR_INFO_STREAM := rfl
theorem R.ME_ERR_INFO_ELEM_num : fieldOf 1171 = R.ME_ERR_INFO_ELEM := rfl
theorem R.ME_COUNT_PASS_LATE_num : fieldOf 1172 = R.ME_COUNT_PASS_LATE := rfl
theorem R.ME_COUNT_BUS_ERR_num : fieldOf 1173 = R.ME_COUNT_BUS_ERR := rfl
theorem R.ME_COUNT_WAIT_LATE_num : fieldOf 1174 = R.ME_COUNT_WAIT_LATE := rfl
theorem R.ME_COUNT_HELD_num : fieldOf 1175 = R.ME_COUNT_HELD := rfl
theorem R.ME_TIME_PASS_LAST_num : fieldOf 1176 = R.ME_TIME_PASS_LAST := rfl
theorem R.ME_TIME_PASS_MAX_num : fieldOf 1177 = R.ME_TIME_PASS_MAX := rfl
theorem R.ME_ECC_ECC_CORR_num : fieldOf 1178 = R.ME_ECC_ECC_CORR := rfl
theorem R.ME_PROG_num : fieldOf 1179 = R.ME_PROG := rfl
theorem R.HI_STATUS_DMA_ERR_num : fieldOf 1280 = R.HI_STATUS_DMA_ERR := rfl
theorem R.HI_STATUS_DESC_ERR_num : fieldOf 1281 = R.HI_STATUS_DESC_ERR := rfl
theorem R.HI_SQ_CFG_EN_num : fieldOf 1288 = R.HI_SQ_CFG_EN := rfl
theorem R.HI_SQ_STATUS_HEAD_num : fieldOf 1290 = R.HI_SQ_STATUS_HEAD := rfl
theorem R.HI_SQ_STATUS_HALTED_num : fieldOf 1291 = R.HI_SQ_STATUS_HALTED := rfl
theorem R.HI_CQ_CFG_EN_num : fieldOf 1294 = R.HI_CQ_CFG_EN := rfl
theorem R.HI_CQ_STATUS_TAIL_num : fieldOf 1299 = R.HI_CQ_STATUS_TAIL := rfl
theorem R.HI_CQ_STATUS_PHASE_num : fieldOf 1300 = R.HI_CQ_STATUS_PHASE := rfl
theorem R.HI_CQ_STATUS_FULL_STALLS_num : fieldOf 1301 = R.HI_CQ_STATUS_FULL_STALLS := rfl
theorem R.HI_IMG_STAT_STATE_num : fieldOf 1303 = R.HI_IMG_STAT_STATE := rfl
theorem R.HI_IMG_STAT_IMAGE_ID_num : fieldOf 1304 = R.HI_IMG_STAT_IMAGE_ID := rfl
theorem R.TW_STATE_STATE_num : fieldOf 1415 = R.TW_STATE_STATE := rfl
theorem R.TW_STATE_PEER_STATE_num : fieldOf 1416 = R.TW_STATE_PEER_STATE := rfl
theorem R.TW_STATE_LAST_CAUSE_num : fieldOf 1417 = R.TW_STATE_LAST_CAUSE := rfl
theorem R.TW_STATE_PATH_OK_num : fieldOf 1418 = R.TW_STATE_PATH_OK := rfl
theorem R.TW_EPOCH_EPOCH_num : fieldOf 1419 = R.TW_EPOCH_EPOCH := rfl
theorem R.TW_EPOCH_STORED_num : fieldOf 1420 = R.TW_EPOCH_STORED := rfl
theorem R.TW_LEASE_STAT_SINCE_RENEW_num : fieldOf 1421 = R.TW_LEASE_STAT_SINCE_RENEW := rfl
theorem R.TW_LEASE_STAT_PATHS_num : fieldOf 1422 = R.TW_LEASE_STAT_PATHS := rfl
theorem R.TW_COUNT_A_DIGEST_MISMATCH_num : fieldOf 1423 = R.TW_COUNT_A_DIGEST_MISMATCH := rfl
theorem R.TW_COUNT_A_DIGEST_MISSING_num : fieldOf 1424 = R.TW_COUNT_A_DIGEST_MISSING := rfl
theorem R.TW_COUNT_A_ECHO_LOST_num : fieldOf 1425 = R.TW_COUNT_A_ECHO_LOST := rfl
theorem R.TW_COUNT_A_TAKEOVERS_num : fieldOf 1426 = R.TW_COUNT_A_TAKEOVERS := rfl
theorem R.TW_COUNT_B_HANDOVERS_num : fieldOf 1427 = R.TW_COUNT_B_HANDOVERS := rfl
theorem R.TW_COUNT_B_SUPERSEDED_num : fieldOf 1428 = R.TW_COUNT_B_SUPERSEDED := rfl
theorem R.TW_COUNT_B_CMD_ECHO_num : fieldOf 1429 = R.TW_COUNT_B_CMD_ECHO := rfl
theorem R.TW_LINK_DELAY_DELAY_num : fieldOf 1430 = R.TW_LINK_DELAY_DELAY := rfl
theorem R.TW_OFFSET_num : fieldOf 1431 = R.TW_OFFSET := rfl
theorem R.TW_OWN_DIGEST_num : fieldOf 1432 = R.TW_OWN_DIGEST := rfl
theorem R.TW_PEER_DIGEST_num : fieldOf 1433 = R.TW_PEER_DIGEST := rfl
theorem R.TW_ECHO_DELAY_DELAY_num : fieldOf 1435 = R.TW_ECHO_DELAY_DELAY := rfl
theorem R.TW_LINK_STATE_STATE_num : fieldOf 1438 = R.TW_LINK_STATE_STATE := rfl
theorem R.TW_LINK_STATE_MOD_PRESENT_num : fieldOf 1439 = R.TW_LINK_STATE_MOD_PRESENT := rfl
theorem R.TW_LINK_STATE_LOS_num : fieldOf 1440 = R.TW_LINK_STATE_LOS := rfl
theorem R.TW_LINK_STATE_TX_FAULT_num : fieldOf 1441 = R.TW_LINK_STATE_TX_FAULT := rfl
theorem R.TW_LINK_STATE_BLOCK_LOCK_num : fieldOf 1442 = R.TW_LINK_STATE_BLOCK_LOCK := rfl
theorem R.TW_LINK_STATE_HI_BER_num : fieldOf 1443 = R.TW_LINK_STATE_HI_BER := rfl
theorem R.EV_STAT_HOST_FROZEN_num : fieldOf 1539 = R.EV_STAT_HOST_FROZEN := rfl
theorem R.EV_STAT_DBG_FROZEN_num : fieldOf 1540 = R.EV_STAT_DBG_FROZEN := rfl
theorem R.EV_STAT_OPEN_OVF_num : fieldOf 1541 = R.EV_STAT_OPEN_OVF := rfl
theorem R.EV_STAT_USED_KIB_num : fieldOf 1542 = R.EV_STAT_USED_KIB := rfl
theorem R.EV_STAT_FATAL_KIB_num : fieldOf 1543 = R.EV_STAT_FATAL_KIB := rfl
theorem R.EV_STAT_HOLD_USED_num : fieldOf 1544 = R.EV_STAT_HOLD_USED := rfl
theorem R.EV_SEQ_FIRST_num : fieldOf 1545 = R.EV_SEQ_FIRST := rfl
theorem R.EV_SEQ_LAST_num : fieldOf 1546 = R.EV_SEQ_LAST := rfl
theorem R.EV_CURSOR_num : fieldOf 1547 = R.EV_CURSOR := rfl
theorem R.EV_RD_SEQ_num : fieldOf 1548 = R.EV_RD_SEQ := rfl
theorem R.EV_RD_STAT_VALID_num : fieldOf 1549 = R.EV_RD_STAT_VALID := rfl
theorem R.EV_RD_STAT_GAP_num : fieldOf 1550 = R.EV_RD_STAT_GAP := rfl
theorem R.EV_RD_STAT_LEN_W_num : fieldOf 1551 = R.EV_RD_STAT_LEN_W := rfl
theorem R.EV_RD_STAT_ECC_BAD_num : fieldOf 1552 = R.EV_RD_STAT_ECC_BAD := rfl
theorem R.EV_DROPS_A_INPUT_DROP_num : fieldOf 1553 = R.EV_DROPS_A_INPUT_DROP := rfl
theorem R.EV_DROPS_A_FULL_DROP_num : fieldOf 1554 = R.EV_DROPS_A_FULL_DROP := rfl
theorem R.EV_DROPS_B_HOLD_DROP_num : fieldOf 1555 = R.EV_DROPS_B_HOLD_DROP := rfl
theorem R.EV_DROPS_B_FATAL_DROP_num : fieldOf 1556 = R.EV_DROPS_B_FATAL_DROP := rfl
theorem R.EV_DROPS_B_ECC_CORR_num : fieldOf 1557 = R.EV_DROPS_B_ECC_CORR := rfl
theorem R.EV_OPEN_COUNT_num : fieldOf 1558 = R.EV_OPEN_COUNT := rfl
theorem R.EV_WIN_num : fieldOf 1562 = R.EV_WIN := rfl
theorem R.BB_STAT_PT_FROZEN_num : fieldOf 1664 = R.BB_STAT_PT_FROZEN := rfl
theorem R.BB_STAT_HOLDUP_OK_num : fieldOf 1665 = R.BB_STAT_HOLDUP_OK := rfl
theorem R.BB_STAT_MIRROR_SLOT_num : fieldOf 1666 = R.BB_STAT_MIRROR_SLOT := rfl
theorem R.BB_STAT_SEALED_num : fieldOf 1667 = R.BB_STAT_SEALED := rfl
theorem R.BB_STAT_SNAP_VALID_num : fieldOf 1668 = R.BB_STAT_SNAP_VALID := rfl
theorem R.BB_STAT_PT_SKIPS_num : fieldOf 1669 = R.BB_STAT_PT_SKIPS := rfl
theorem R.BB_STAT_SPARE_PCT_num : fieldOf 1670 = R.BB_STAT_SPARE_PCT := rfl
theorem R.BB_LAST_COMMIT_DUR_num : fieldOf 1671 = R.BB_LAST_COMMIT_DUR := rfl
theorem R.BB_LAST_COMMIT_COMMITS_num : fieldOf 1672 = R.BB_LAST_COMMIT_COMMITS := rfl
theorem R.BB_PT_CYCLE_num : fieldOf 1673 = R.BB_PT_CYCLE := rfl
theorem R.BB_BOOTS_num : fieldOf 1674 = R.BB_BOOTS := rfl
theorem R.BB_COUNT_ECC_CORR_num : fieldOf 1675 = R.BB_COUNT_ECC_CORR := rfl
theorem R.BB_COUNT_LOG_DROP_num : fieldOf 1676 = R.BB_COUNT_LOG_DROP := rfl
theorem R.BB_COUNT_HIST_OVERWRITTEN_num : fieldOf 1677 = R.BB_COUNT_HIST_OVERWRITTEN := rfl
theorem R.BB_COUNT_SUBSTITUTES_num : fieldOf 1678 = R.BB_COUNT_SUBSTITUTES := rfl
theorem R.INJ_STAT_KEY_LOADED_num : fieldOf 1792 = R.INJ_STAT_KEY_LOADED := rfl
theorem R.INJ_STAT_ACTIVE_num : fieldOf 1793 = R.INJ_STAT_ACTIVE := rfl
theorem R.INJ_STAT_ARMED_num : fieldOf 1794 = R.INJ_STAT_ARMED := rfl
theorem R.INJ_STAT_KEY_FAILS_num : fieldOf 1795 = R.INJ_STAT_KEY_FAILS := rfl
theorem R.INJ_STAT_LOCKED_num : fieldOf 1796 = R.INJ_STAT_LOCKED := rfl
theorem R.INJ_KEY_ID_num : fieldOf 1797 = R.INJ_KEY_ID := rfl
theorem R.INJ_ENTRY_INDEX_num : fieldOf 1799 = R.INJ_ENTRY_INDEX := rfl
theorem R.INJ_ENTRY_MODE_num : fieldOf 1800 = R.INJ_ENTRY_MODE := rfl
theorem R.INJ_ENTRY_ARMED_num : fieldOf 1801 = R.INJ_ENTRY_ARMED := rfl
theorem R.INJ_ENTRY_REMAIN_num : fieldOf 1802 = R.INJ_ENTRY_REMAIN := rfl
theorem R.INJ_FIRED_FIRED_num : fieldOf 1803 = R.INJ_FIRED_FIRED := rfl
theorem R.AD_STAT_PASS_num : fieldOf 1922 = R.AD_STAT_PASS := rfl
theorem R.AD_STAT_BUSY_num : fieldOf 1923 = R.AD_STAT_BUSY := rfl
theorem R.AD_STAT_URG_PENDING_num : fieldOf 1924 = R.AD_STAT_URG_PENDING := rfl
theorem R.AD_COUNT_URG_DROP_num : fieldOf 1927 = R.AD_COUNT_URG_DROP := rfl
theorem R.AD_COUNT_TRG_OVERLAP_num : fieldOf 1928 = R.AD_COUNT_TRG_OVERLAP := rfl
theorem R.AD_COUNT_ABORTS_num : fieldOf 1929 = R.AD_COUNT_ABORTS := rfl
theorem R.AD_RES_num : fieldOf 1939 = R.AD_RES := rfl
theorem R.AD_RES_STAT_PASS_num : fieldOf 1940 = R.AD_RES_STAT_PASS := rfl
theorem R.AD_RES_STAT_URGENT_num : fieldOf 1941 = R.AD_RES_STAT_URGENT := rfl
theorem R.AD_RES_STAT_OUT_num : fieldOf 1942 = R.AD_RES_STAT_OUT := rfl
theorem R.AD_SIO_STAT_LEVEL_num : fieldOf 1953 = R.AD_SIO_STAT_LEVEL := rfl
theorem R.AD_SIO_STAT_DEMAND_num : fieldOf 1954 = R.AD_SIO_STAT_DEMAND := rfl
theorem R.AD_SIO_STAT_DISC_num : fieldOf 1955 = R.AD_SIO_STAT_DISC := rfl
theorem R.AD_STO_STAT_ASSERTED_num : fieldOf 1958 = R.AD_STO_STAT_ASSERTED := rfl
theorem R.AD_STO_STAT_DRIVE_A_num : fieldOf 1959 = R.AD_STO_STAT_DRIVE_A := rfl
theorem R.AD_STO_STAT_DRIVE_B_num : fieldOf 1960 = R.AD_STO_STAT_DRIVE_B := rfl
theorem R.AD_STO_STAT_FB_A_num : fieldOf 1961 = R.AD_STO_STAT_FB_A := rfl
theorem R.AD_STO_STAT_FB_B_num : fieldOf 1962 = R.AD_STO_STAT_FB_B := rfl
theorem R.AD_STO_STAT_CAUSE_num : fieldOf 1963 = R.AD_STO_STAT_CAUSE := rfl
theorem R.AD_WDOG_STAT_RUNNING_num : fieldOf 1967 = R.AD_WDOG_STAT_RUNNING := rfl
theorem R.AD_WDOG_STAT_MISSES_num : fieldOf 1968 = R.AD_WDOG_STAT_MISSES := rfl
theorem R.PW_SUNDIAL_STAT_VID_num : fieldOf 2049 = R.PW_SUNDIAL_STAT_VID := rfl
theorem R.PW_SUNDIAL_STAT_MIN_REGION_num : fieldOf 2050 = R.PW_SUNDIAL_STAT_MIN_REGION := rfl
theorem R.PW_SUNDIAL_STAT_PACE_STATE_num : fieldOf 2051 = R.PW_SUNDIAL_STAT_PACE_STATE := rfl
theorem R.PW_SUNDIAL_STAT_HEADROOM_num : fieldOf 2052 = R.PW_SUNDIAL_STAT_HEADROOM := rfl
theorem R.PW_SUNDIAL_COUNT_ARB_MARGIN_num : fieldOf 2053 = R.PW_SUNDIAL_COUNT_ARB_MARGIN := rfl
theorem R.PW_SUNDIAL_COUNT_VID_CHANGES_num : fieldOf 2054 = R.PW_SUNDIAL_COUNT_VID_CHANGES := rfl
theorem R.PW_PACE_PACE_num : fieldOf 2055 = R.PW_PACE_PACE := rfl
theorem R.PW_PACE_MIN_num : fieldOf 2056 = R.PW_PACE_MIN := rfl
theorem R.PW_SUPPLY_STAT_GOOD_num : fieldOf 2057 = R.PW_SUPPLY_STAT_GOOD := rfl
theorem R.PW_SUPPLY_STAT_GOOD_VDDA_num : fieldOf 2058 = R.PW_SUPPLY_STAT_GOOD_VDDA := rfl
theorem R.PW_SUPPLY_STAT_VR_PGOOD_num : fieldOf 2059 = R.PW_SUPPLY_STAT_VR_PGOOD := rfl
theorem R.PW_SUPPLY_STAT_PFAIL_num : fieldOf 2060 = R.PW_SUPPLY_STAT_PFAIL := rfl
theorem R.PW_VDDC_MV_MV_num : fieldOf 2061 = R.PW_VDDC_MV_MV := rfl
theorem R.PW_TEMP_TJ_num : fieldOf 2062 = R.PW_TEMP_TJ := rfl
theorem R.PW_TEMP_TJ_MAX_num : fieldOf 2063 = R.PW_TEMP_TJ_MAX := rfl
theorem R.PW_ISLAND_A_num : fieldOf 2066 = R.PW_ISLAND_A := rfl
theorem R.PW_ISLAND_B_num : fieldOf 2067 = R.PW_ISLAND_B := rfl
theorem R.PW_ISLAND_C_E_ON_num : fieldOf 2068 = R.PW_ISLAND_C_E_ON := rfl
theorem R.PW_ISLAND_C_FA_ON_num : fieldOf 2069 = R.PW_ISLAND_C_FA_ON := rfl
theorem R.PW_ISLAND_C_FA8_ON_num : fieldOf 2070 = R.PW_ISLAND_C_FA8_ON := rfl
theorem R.PW_ISLAND_C_LANE_ON_num : fieldOf 2071 = R.PW_ISLAND_C_LANE_ON := rfl
theorem R.PW_FORCE_OFF_A_num : fieldOf 2072 = R.PW_FORCE_OFF_A := rfl
theorem R.PW_FORCE_OFF_B_num : fieldOf 2073 = R.PW_FORCE_OFF_B := rfl
theorem R.PW_FORCE_OFF_C_E_num : fieldOf 2074 = R.PW_FORCE_OFF_C_E := rfl
theorem R.PW_FORCE_OFF_C_FA_num : fieldOf 2075 = R.PW_FORCE_OFF_C_FA := rfl
theorem R.PW_FORCE_OFF_C_FA8_num : fieldOf 2076 = R.PW_FORCE_OFF_C_FA8 := rfl
theorem R.PW_FORCE_OFF_C_LANE_num : fieldOf 2077 = R.PW_FORCE_OFF_C_LANE := rfl
theorem R.PW_RESET_CAUSE_CAUSE_num : fieldOf 2079 = R.PW_RESET_CAUSE_CAUSE := rfl
theorem R.PW_BOOT_STAT_SLOT_num : fieldOf 2081 = R.PW_BOOT_STAT_SLOT := rfl
theorem R.PW_BOOT_STAT_SLOT_VALID_num : fieldOf 2082 = R.PW_BOOT_STAT_SLOT_VALID := rfl
theorem R.PW_BOOT_STAT_BOOT_MS_num : fieldOf 2083 = R.PW_BOOT_STAT_BOOT_MS := rfl
theorem R.PW_MGMT_WD_EXPIRIES_num : fieldOf 2085 = R.PW_MGMT_WD_EXPIRIES := rfl

end Sys2Proof.Machine
end

