-- ==== Sys2Proof/Laws/OnlyOps.lean ====
section
/-! SUPPORT. Footprints of the operations of Machine/Ops.lean. -/
namespace Sys2Proof.Machine
set_option linter.all false
set_option Elab.async false

theorem State.swapRegion_only {p r : Nat} {s x : State} {a1 : _} (hp : Sub 262144 p) (_hr : Sub 0 r) (h : Only p r s x) :
    Only p r s (State.swapRegion x a1) :=
  Only.upd_gr (Sub.bits hp rfl) h fun k => ⟨Tab.wf_puts _ _ (Tab.wf_filter _ k.1), k.2⟩

theorem State.swapKind_only {p r : Nat} {s x : State} {a1 : _} (hp : Sub 262144 p) (hr : Sub 0 r) (h : Only p r s x) :
    Only p r s (State.swapKind x a1) := by
  unfold State.swapKind
  repeat' first
    | with_reducible assumption
    | with_reducible refine State.swapRegion_only (Sub.trans rfl hp) (Sub.trans rfl hr) ?_
    | with_reducible refine Only.ite ?_ ?_
    | with_reducible refine Only.foldl ?_ ?_
    | intro _
    | split
    | dsimp only

theorem State.post_only {p r : Nat} {s x : State} {a1 a2 a3 a4 a5 a6 : _} (hp : Sub 8 p) (_hr : Sub 0 r) (h : Only p r s x) :
    Only p r s (State.post x a1 a2 a3 a4 a5 a6) := by
  unfold State.post
  repeat' first
    | with_reducible assumption
    | (extract_lets +onlyGivenNames y; first | (refine Only.cut (x := y) ?_ ?_; subst y; rotate_left; clear_value y; intro _) | clear_value y)
    | (first | (with_reducible refine Only.upd_posted (Sub.bits hp rfl) ?_; first | with_reducible assumption))

theorem State.dmaError_only {p r : Nat} {s x : State} {a1 a2 : _} (hp : Sub 8 p) (hr : Sub 0x80100000000000000000000000000000000000000000000000000000000000000000000000000000000000000000000000000000000000000000000000000000000000000000000000000000000000000000000000000000000000000000000000000000000000000000000000000000000000000000000000000000000000000000000000000000000000000000000000000000000000000000000000000000000 r) (h : Only p r s x) :
    Only p r s (State.dmaError x a1 a2) := by
  unfold State.dmaError
  repeat' first
    | with_reducible assumption
    | with_reducible refine Only.setBit 1291 R.HI_SQ_STATUS_HALTED_num (Sub.bits hr rfl) ?_
    | with_reducible refine Only.inc 1280 R.HI_STATUS_DMA_ERR_num (Sub.bits hr rfl) ?_
    | with_reducible refine State.post_only (Sub.trans rfl hp) (Sub.trans rfl hr) ?_

theorem State.hostPut_only {p r : Nat} {s x : State} {a1 a2 : _} (hp : Sub 131072 p) (_hr : Sub 0 r) (h : Only p r s x) :
    Only p r s (State.hostPut x a1 a2) :=
  Only.upd_hi (Sub.bits hp rfl) h fun k => Tab.wf_putList _ _ k

theorem State.hostPutWords_only {p r : Nat} {s x : State} {a1 a2 : _} (hp : Sub 131072 p) (hr : Sub 0 r) (h : Only p r s x) :
    Only p r s (State.hostPutWords x a1 a2) := by
  unfold State.hostPutWords
  repeat' first
    | with_reducible assumption
    | with_reducible refine State.hostPut_only (Sub.trans rfl hp) (Sub.trans rfl hr) ?_

theorem State.updCring_only {p r : Nat} {s x : State} {a1 a2 : _} (hp : Sub 131072 p) (_hr : Sub 0 r) (h : Only p r s x) :
    Only p r s (State.updCring x a1 a2) := by
  unfold State.updCring
  repeat' first
    | with_reducible assumption
    | intro _
    | (extract_lets +onlyGivenNames y; first | (refine Only.cut (x := y) ?_ ?_; subst y; rotate_left; clear_value y; intro _) | (have q : HostIf := y; clear q; subst y) | clear_value y)
    | dsimp only
    | (first | (with_reducible refine Only.upd_hi (Sub.bits hp rfl) ?_; first | with_reducible assumption))

theorem State.writeEntry_only {p r : Nat} {s x : State} {a1 a2 : _} (hp : Sub 131072 p) (hr : Sub 0x18000000000000000000000000000000000000000000000000000000000000000000000000000000000000000000000000000000000000000000000000000000000000000000000000000000000000000000000000000000000000000000000000000000000000000000000000000000000000000000000000000000000000000000000000000000000000000000000000000000000000000000000000000000000000 r) (h : Only p r s x) :
    Only p r s (State.writeEntry x a1 a2) := by
  unfold State.writeEntry
  repeat' first
    | with_reducible assumption
    | with_reducible refine State.hostPutWords_only (Sub.trans rfl hp) (Sub.trans rfl hr) ?_
    | with_reducible refine Only.set 1299 R.HI_CQ_STATUS_TAIL_num (Sub.bits hr rfl) ?_
    | with_reducible refine Only.set 1300 R.HI_CQ_STATUS_PHASE_num (Sub.bits hr rfl) ?_
    | with_reducible refine State.updCring_only (Sub.trans rfl hp) (Sub.trans rfl hr) ?_
    | with_reducible refine Only.ite ?_ ?_
    | intro _
    | (extract_lets +onlyGivenNames y; first | (refine Only.cut (x := y) ?_ ?_; subst y; rotate_left; clear_value y; intro _) | clear_value y)
    | split
    | dsimp only

theorem State.giveEntry_only {p r : Nat} {s x : State} {a1 a2 : _} (hp : Sub 131072 p) (hr : Sub 0x38000000000000000000000000000000000000000000000000000000000000000000000000000000000000000000000000000000000000000000000000000000000000000000000000000000000000000000000000000000000000000000000000000000000000000000000000000000000000000000000000000000000000000000000000000000000000000000000000000000000000000000000000000000000000 r) (h : Only p r s x) :
    Only p r s (State.giveEntry x a1 a2) := by
  unfold State.giveEntry
  repeat' first
    | with_reducible assumption
    | with_reducible refine State.writeEntry_only (Sub.trans rfl hp) (Sub.trans rfl hr) ?_
    | with_reducible refine State.updCring_only (Sub.trans rfl hp) (Sub.trans rfl hr) ?_
    | with_reducible refine Only.inc 1301 R.HI_CQ_STATUS_FULL_STALLS_num (Sub.bits hr rfl) ?_
    | with_reducible refine Only.ite ?_ ?_
    | intro _
    | (extract_lets +onlyGivenNames y; first | (refine Only.cut (x := y) ?_ ?_; subst y; rotate_left; clear_value y; intro _) | clear_value y)
    | split
    | dsimp only

theorem State.completeDesc_only {p r : Nat} {s x : State} {a1 a2 : _} (hp : Sub 131080 p) (hr : Sub 0x38080300000000000000000000000000000000000000000000000000000000000000000000000000000000000000000000000000000000000000000000000000000000000000000000000000000000000000000000000000000000000000000000000000000000000000000000000000000000000000000000000000000000000000000000000000000000000000000000000000000000000000000000000000000000 r) (h : Only p r s x) :
    Only p r s (State.completeDesc x a1 a2) := by
  unfold State.completeDesc
  repeat' first
    | with_reducible assumption
    | with_reducible refine State.dmaError_only (Sub.trans rfl hp) (Sub.trans rfl hr) ?_
    | with_reducible refine Only.inc 1281 R.HI_STATUS_DESC_ERR_num (Sub.bits hr rfl) ?_
    | with_reducible refine State.post_only (Sub.trans rfl hp) (Sub.trans rfl hr) ?_
    | with_reducible refine State.giveEntry_only (Sub.trans rfl hp) (Sub.trans rfl hr) ?_
    | with_reducible refine Only.ite ?_ ?_
    | intro _
    | (extract_lets +onlyGivenNames y; first | (refine Only.cut (x := y) ?_ ?_; subst y; rotate_left; clear_value y; intro _) | (have q : HostIf := y; clear q; subst y) | clear_value y)
    | split
    | dsimp only
    | (first | (with_reducible refine Only.upd_hi (Sub.bits hp rfl) ?_; first | with_reducible assumption | with_reducible refine State.dmaError_only (Sub.trans rfl hp) (Sub.trans rfl hr) ?_ | with_reducible refine Only.inc 1281 R.HI_STATUS_DESC_ERR_num (Sub.bits hr rfl) ?_ | with_reducible refine State.post_only (Sub.trans rfl hp) (Sub.trans rfl hr) ?_ | with_reducible refine State.giveEntry_only (Sub.trans rfl hp) (Sub.trans rfl hr) ?_))

theorem State.postOnce_only {p r : Nat} {s x : State} {a1 a2 a3 a4 a5 a6 : _} (hp : Sub 136 p) (hr : Sub 0 r) (h : Only p r s x) :
    Only p r s (State.postOnce x a1 a2 a3 a4 a5 a6) := by
  unfold State.postOnce
  repeat' first
    | with_reducible assumption
    | with_reducible refine State.post_only (Sub.trans rfl hp) (Sub.trans rfl hr) ?_
    | with_reducible refine Only.ite ?_ ?_
    | (extract_lets +onlyGivenNames y; first | (refine Only.cut (x := y) ?_ ?_; subst y; rotate_left; clear_value y; intro _) | clear_value y)
    | split
    | dsimp only
    | (first | (with_reducible refine Only.upd_once (Sub.bits hp rfl) ?_; first | with_reducible assumption | with_reducible refine State.post_only (Sub.trans rfl hp) (Sub.trans rfl hr) ?_))

theorem State.ignored_only {p r : Nat} {s x : State} {a1 : _} (hp : Sub 8 p) (hr : Sub 0 r) (h : Only p r s x) :
    Only p r s (State.ignored x a1) := by
  unfold State.ignored
  repeat' first
    | with_reducible assumption
    | with_reducible refine State.post_only (Sub.trans rfl hp) (Sub.trans rfl hr) ?_

theorem State.fatal_only {p r : Nat} {s x : State} {a1 a2 a3 a4 a5 : _} (hp : Sub 16 p) (_hr : Sub 0 r) (h : Only p r s x) :
    Only p r s (State.fatal x a1 a2 a3 a4 a5) := by
  unfold State.fatal
  repeat' first
    | with_reducible assumption
    | (extract_lets +onlyGivenNames y; first | (refine Only.cut (x := y) ?_ ?_; subst y; rotate_left; clear_value y; intro _) | clear_value y)
    | (first | (with_reducible refine Only.upd_escs (Sub.bits hp rfl) ?_; first | with_reducible assumption))

theorem State.startDesc_only {p r : Nat} {s x : State} {a1 : _} (hp : Sub 131072 p) (_hr : Sub 0 r) (h : Only p r s x) :
    Only p r s (State.startDesc x a1) := by
  unfold State.startDesc
  repeat' first
    | with_reducible assumption
    | with_reducible refine Only.ite ?_ ?_
    | intro _
    | (extract_lets +onlyGivenNames y; first | (refine Only.cut (x := y) ?_ ?_; subst y; rotate_left; clear_value y; intro _) | (have q : HostIf := y; clear q; subst y) | clear_value y)
    | split
    | dsimp only
    | (first | (with_reducible refine Only.upd_hi (Sub.bits hp rfl) ?_; first | with_reducible assumption))

theorem State.complete_only {p r : Nat} {s x : State} {a1 a2 : _} (hp : Sub 131080 p) (hr : Sub 0x38080300000000000000000000000000000000000000000000000000000000000000000000000000000000000000000000000000000000000000000000000000000000000000000000000000000000000000000000000000000000000000000000000000000000000000000000000000000000000000000000000000000000000000000000000000000000000000000000000000000000000000000000000000000000 r) (h : Only p r s x) :
    Only p r s (State.complete x a1 a2) := by
  unfold State.complete
  repeat' first
    | with_reducible assumption
    | with_reducible refine State.completeDesc_only (Sub.trans rfl hp) (Sub.trans rfl hr) ?_
    | (extract_lets +onlyGivenNames y; first | (refine Only.cut (x := y) ?_ ?_; subst y; rotate_left; clear_value y; intro _) | clear_value y)
    | split
    | dsimp only

theorem State.descErr_only {p r : Nat} {s x : State} {a1 a2 : _} (hp : Sub 131208 p) (hr : Sub 0x38080300000000000000000000000000000000000000000000000000000000000000000000000000000000000000000000000000000000000000000000000000000000000000000000000000000000000000000000000000000000000000000000000000000000000000000000000000000000000000000000000000000000000000000000000000000000000000000000000000000000000000000000000000000000 r) (h : Only p r s x) :
    Only p r s (State.descErr x a1 a2) := by
  unfold State.descErr
  repeat' first
    | with_reducible assumption
    | with_reducible refine Only.inc 1281 R.HI_STATUS_DESC_ERR_num (Sub.bits hr rfl) ?_
    | with_reducible refine State.postOnce_only (Sub.trans rfl hp) (Sub.trans rfl hr) ?_
    | with_reducible refine State.completeDesc_only (Sub.trans rfl hp) (Sub.trans rfl hr) ?_
    | (extract_lets +onlyGivenNames y; first | (refine Only.cut (x := y) ?_ ?_; subst y; rotate_left; clear_value y; intro _) | clear_value y)
    | dsimp only

theorem State.raiseBit_only {p r : Nat} {s x : State} {a1 a2 : _} (c0 : Nat) (e0 : fieldOf c0 = a1) (k0 : r.testBit c0 = true) (hp : Sub 2147483648 p) (_hr : Sub 0 r) (h : Only p r s x) :
    Only p r s (State.raiseBit x a1 a2) := by
  unfold State.raiseBit
  repeat' first
    | with_reducible assumption
    | with_reducible refine Only.setBit c0 e0 k0 ?_
    | (extract_lets +onlyGivenNames y; first | (refine Only.cut (x := y) ?_ ?_; subst y; rotate_left; clear_value y; intro _) | clear_value y)
    | dsimp only
    | (first | (with_reducible refine Only.upd_view (Sub.bits hp rfl) ?_; first | with_reducible assumption | with_reducible refine Only.setBit c0 e0 k0 ?_))

theorem State.action_only {p r : Nat} {s x : State} {a1 a2 a3 a4 : _} (hp : Sub 131208 p) (hr : Sub 0x38080300000000000000000000000000000000000000000000000000000000000000000000000000000000000000000000000000000000000000000000000000000000000000000000000000000000000000000000000000000000000000000000000000000000000000000000000000000000000000000000000000000000000000000000000000000000000000000000000000000000000000000000000000000000 r) (h4 : ∀ y0 y1, Only p r s y0 → Only p r s (a4 y0 y1)) (h : Only p r s x) :
    Only p r s (State.action x a1 a2 a3 a4) := by
  unfold State.action
  repeat' first
    | with_reducible assumption
    | with_reducible refine State.completeDesc_only (Sub.trans rfl hp) (Sub.trans rfl hr) ?_
    | with_reducible refine State.descErr_only (Sub.trans rfl hp) (Sub.trans rfl hr) ?_
    | with_reducible refine State.startDesc_only (Sub.trans rfl hp) (Sub.trans rfl hr) ?_
    | with_reducible apply h4
    | with_reducible refine Only.ite ?_ ?_
    | intro _
    | (extract_lets +onlyGivenNames y; first | (refine Only.cut (x := y) ?_ ?_; subst y; rotate_left; clear_value y; intro _) | clear_value y)
    | split
    | dsimp only

theorem State.opAction_only {p r : Nat} {s x : State} {a1 a2 a3 a4 a5 a6 a7 : _} (hp : Sub 131208 p) (hr : Sub 0x38080300000000000000000000000000000000000000000000000000000000000000000000000000000000000000000000000000000000000000000000000000000000000000000000000000000000000000000000000000000000000000000000000000000000000000000000000000000000000000000000000000000000000000000000000000000000000000000000000000000000000000000000000000000000 r) (h7 : ∀ y0 y1, Only p r s y0 → Only p r s (a7 y0 y1)) (h : Only p r s x) :
    Only p r s (State.opAction x a1 a2 a3 a4 a5 a6 a7) := by
  unfold State.opAction
  repeat' first
    | with_reducible assumption
    | with_reducible refine State.action_only (Sub.trans rfl hp) (Sub.trans rfl hr) ?_ ?_
    | with_reducible apply h7
    | with_reducible refine Only.ite ?_ ?_
    | intro _
    | (extract_lets +onlyGivenNames y; first | (refine Only.cut (x := y) ?_ ?_; subst y; rotate_left; clear_value y; intro _) | clear_value y)
    | split
    | dsimp only

theorem State.reply_only {p r : Nat} {s x : State} {a1 : _} (hp : Sub 268435456 p) (_hr : Sub 0 r) (h : Only p r s x) :
    Only p r s (State.reply x a1) := by
  unfold State.reply
  repeat' first
    | with_reducible assumption
    | (extract_lets +onlyGivenNames y; first | (refine Only.cut (x := y) ?_ ?_; subst y; rotate_left; clear_value y; intro _) | clear_value y)
    | (first | (with_reducible refine Only.upd_readData (Sub.bits hp rfl) ?_; first | with_reducible assumption))

theorem State.latch_only {p r : Nat} {s x : State} {a1 a2 : _} (hp : Sub 536870912 p) (_hr : Sub 0 r) (h : Only p r s x) :
    Only p r s (State.latch x a1 a2) := by
  unfold State.latch
  repeat' first
    | with_reducible assumption
    | intro _
    | (extract_lets +onlyGivenNames y; first | (refine Only.cut (x := y) ?_ ?_; subst y; rotate_left; clear_value y; intro _) | clear_value y)
    | dsimp only
    | (first | (with_reducible refine Only.upd_hiLatch (Sub.bits hp rfl) ?_; first | with_reducible assumption))

theorem State.injFire_only {p r : Nat} {s x : State} {a1 a2 a3 : _} (hp : Sub 4194312 p) (hr : Sub 0xe060000000000000000000000000000000000000000000000000000000000000000000000000000000000000000000000000000000000000000000000000000000000000000000000000000000000000000000000000000000000000000000000000000000000000000000000000000000000000000000000000000000000000000000000000000000000000000000000000000000000000000000000000000000000000000000000000000000000000000000000000000000000000000000000000000000000000000000000000000000000000000000000000000000000000000 r) (h : Only p r s x) :
    Only p r s (State.injFire x a1 a2 a3) := by
  unfold State.injFire
  repeat' first
    | with_reducible assumption
    | with_reducible refine Only.inc 1803 R.INJ_FIRED_FIRED_num (Sub.bits hr rfl) ?_
    | with_reducible refine Only.set 1802 R.INJ_ENTRY_REMAIN_num (Sub.bits hr rfl) ?_
    | with_reducible refine Only.setBit 1801 R.INJ_ENTRY_ARMED_num (Sub.bits hr rfl) ?_
    | with_reducible refine Only.set 1794 R.INJ_STAT_ARMED_num (Sub.bits hr rfl) ?_
    | with_reducible refine Only.setBit 1793 R.INJ_STAT_ACTIVE_num (Sub.bits hr rfl) ?_
    | with_reducible refine State.post_only (Sub.trans rfl hp) (Sub.trans rfl hr) ?_
    | with_reducible refine Only.ite ?_ ?_
    | intro _
    | (extract_lets +onlyGivenNames y; first | (refine Only.cut (x := y) ?_ ?_; subst y; rotate_left; clear_value y; intro _) | clear_value y)
    | split
    | dsimp only
    | (first | (with_reducible refine Only.upd_inj (Sub.bits hp rfl) ?_; first | with_reducible assumption | with_reducible refine Only.inc 1803 R.INJ_FIRED_FIRED_num (Sub.bits hr rfl) ?_ | with_reducible refine Only.set 1802 R.INJ_ENTRY_REMAIN_num (Sub.bits hr rfl) ?_ | with_reducible refine Only.setBit 1801 R.INJ_ENTRY_ARMED_num (Sub.bits hr rfl) ?_ | with_reducible refine Only.set 1794 R.INJ_STAT_ARMED_num (Sub.bits hr rfl) ?_ | with_reducible refine Only.setBit 1793 R.INJ_STAT_ACTIVE_num (Sub.bits hr rfl) ?_ | with_reducible refine State.post_only (Sub.trans rfl hp) (Sub.trans rfl hr) ?_))

theorem State.inject_only {p r : Nat} {s x : State} {a1 a2 : _} (hp : Sub 4194312 p) (hr : Sub 0xe060000000000000000000000000000000000000000000000000000000000000000000000000000000000000000000000000000000000000000000000000000000000000000000000000000000000000000000000000000000000000000000000000000000000000000000000000000000000000000000000000000000000000000000000000000000000000000000000000000000000000000000000000000000000000000000000000000000000000000000000000000000000000000000000000000000000000000000000000000000000000000000000000000000000000000 r) (h : Only p r s x) :
    Only p r s (State.inject x a1 a2).2 := by
  unfold State.inject
  repeat' first
    | with_reducible assumption
    | with_reducible refine State.injFire_only (Sub.trans rfl hp) (Sub.trans rfl hr) ?_
    | intro _
    | (extract_lets +onlyGivenNames y; first | (refine Only.cut (x := y) ?_ ?_; subst y; rotate_left; clear_value y; intro _) | (refine Only.cut (x := y.1) ?_ ?_; subst y; rotate_left; clear_value y; intro _) | (refine Only.cut (x := y.2) ?_ ?_; subst y; rotate_left; clear_value y; intro _) | (refine Only.cut (x := y.2.2) ?_ ?_; subst y; rotate_left; clear_value y; intro _) | clear_value y)
    | split
    | dsimp only

theorem State.fault_only {p r : Nat} {s x : State} {a1 a2 a3 a4 a5 : _} (hp : Sub 16 p) (_hr : Sub 0 r) (h : Only p r s x) :
    Only p r s (State.fault x a1 a2 a3 a4 a5) := by
  unfold State.fault
  repeat' first
    | with_reducible assumption
    | (extract_lets +onlyGivenNames y; first | (refine Only.cut (x := y) ?_ ?_; subst y; rotate_left; clear_value y; intro _) | clear_value y)
    | (first | (with_reducible refine Only.upd_escs (Sub.bits hp rfl) ?_; first | with_reducible assumption))

theorem State.drainRing_only {p r : Nat} {s x : State} {a0 a2 : _} (hp : Sub 131072 p) (hr : Sub 0x18000000000000000000000000000000000000000000000000000000000000000000000000000000000000000000000000000000000000000000000000000000000000000000000000000000000000000000000000000000000000000000000000000000000000000000000000000000000000000000000000000000000000000000000000000000000000000000000000000000000000000000000000000000000000 r) (h : Only p r s x) :
    Only p r s (State.drainRing a0 x a2) := by
  induction a0 generalizing x <;> unfold State.drainRing
  repeat' first
    | with_reducible assumption
    | with_reducible refine State.updCring_only (Sub.trans rfl hp) (Sub.trans rfl hr) ?_
    | with_reducible refine State.writeEntry_only (Sub.trans rfl hp) (Sub.trans rfl hr) ?_
    | with_reducible refine Only.ite ?_ ?_
    | intro _
    | (extract_lets +onlyGivenNames y; first | (refine Only.cut (x := y) ?_ ?_; subst y; rotate_left; clear_value y; intro _) | clear_value y)
    | split
    | dsimp only
    | with_reducible apply_assumption

theorem State.grPut_only {p r : Nat} {s x : State} {a1 a2 : _} (hp : Sub 262144 p) (_hr : Sub 0 r) (h : Only p r s x) :
    Only p r s (State.grPut x a1 a2) :=
  Only.upd_gr (Sub.bits hp rfl) h fun k => ⟨k.1, Tab.wf_put _ _ k.2⟩

theorem State.complete3_only {p r : Nat} {s x : State} {a1 a2 : _} (hp : Sub 131080 p) (hr : Sub 0x38080300000000000000000000000000000000000000000000000000000000000000000000000000000000000000000000000000000000000000000000000000000000000000000000000000000000000000000000000000000000000000000000000000000000000000000000000000000000000000000000000000000000000000000000000000000000000000000000000000000000000000000000000000000000 r) (h : Only p r s x) :
    Only p r s (State.complete3 x a1 a2) := by
  unfold State.complete3
  repeat' first
    | with_reducible assumption
    | with_reducible refine State.complete_only (Sub.trans rfl hp) (Sub.trans rfl hr) ?_
    | (extract_lets +onlyGivenNames y; first | (refine Only.cut (x := y) ?_ ?_; subst y; rotate_left; clear_value y; intro _) | clear_value y)
    | split
    | dsimp only

theorem State.draw_only {p r : Nat} {s x : State} (hp : Sub 134217728 p) (_hr : Sub 0 r) (h : Only p r s x) :
    Only p r s (State.draw x) := by
  unfold State.draw
  repeat' first
    | with_reducible assumption
    | (extract_lets +onlyGivenNames y; first | (refine Only.cut (x := y) ?_ ?_; subst y; rotate_left; clear_value y; intro _) | clear_value y)
    | (first | (with_reducible refine Only.upd_free (Sub.bits hp rfl) ?_; first | with_reducible assumption))

theorem State.detect_only {p r : Nat} {s x : State} {a1 a2 a3 a4 : _} (hp : Sub 4194312 p) (hr : Sub 0xe060000000000000000000000000000000000000000000000000000000000000000000000000000000000000000000000000000000000000000000000000000000000000000000000000000000000000000000000000000000000000000000000000000000000000000000000000000000000000000000000000000000000000000000000000000000000000000000000000000000000000000000000000000000000000000000000000000000000000000000000000000000000000000000000000000000000000000000000000000000000000000000000000000000000000000 r) (h4 : ∀ y0 y1, Only p r s y1 → Only p r s (a4 y0 y1)) (h : Only p r s x) :
    Only p r s (State.detect x a1 a2 a3 a4) := by
  unfold State.detect
  repeat' first
    | with_reducible assumption
    | with_reducible refine Only.snd (q := (State.inject _ _ _)) (by assumption) (State.inject_only (Sub.trans rfl hp) (Sub.trans rfl hr) ?_)
    | with_reducible refine State.inject_only (Sub.trans rfl hp) (Sub.trans rfl hr) ?_
    | with_reducible apply h4
    | with_reducible refine Only.ite ?_ ?_
    | intro _
    | (extract_lets +onlyGivenNames y; first | (refine Only.cut (x := y) ?_ ?_; subst y; rotate_left; clear_value y; intro _) | (refine Only.cut (x := y.1) ?_ ?_; subst y; rotate_left; clear_value y; intro _) | (refine Only.cut (x := y.2) ?_ ?_; subst y; rotate_left; clear_value y; intro _) | (refine Only.cut (x := y.2.2) ?_ ?_; subst y; rotate_left; clear_value y; intro _) | clear_value y)
    | split
    | dsimp only

theorem State.grPutList_only {p r : Nat} {s x : State} {a1 a2 : _} (hp : Sub 262144 p) (_hr : Sub 0 r) (h : Only p r s x) :
    Only p r s (State.grPutList x a1 a2) :=
  Only.upd_gr (Sub.bits hp rfl) h fun k => ⟨k.1, Tab.wf_putList _ _ k.2⟩

end Sys2Proof.Machine
end

