-- ==== Sys2Proof/Laws/Desc.lean ====
section
/-! SUPPORT. Descriptor actions: what runs when a descriptor is ready, and that completing a descriptor closes it. -/
namespace Sys2Proof.Machine
set_option linter.all false
set_option Elab.async false

/-- Whether `x` is the descriptor `d`. -/
def Desc.isOf (d x : Desc) : Bool := x.key == d.key && x.index == d.index

/-- A ready descriptor whose gate passes runs its action. -/
theorem State.action_ready {s : State} {d : DescId} {op : Nat} {e : Desc} (h : Ready s d op e) (g : State → Desc → Gate)
    (k : State → Desc → State) (hg : g s e = {}) : s.action d op g k = k (s.startDesc e) e := by
  obtain ⟨hd, ho, hs, hf, hr⟩ := h
  unfold State.action
  rw [hd]
  dsimp only
  rw [if_neg (by simp [ho, hs, hf]), hg, hr]
  simp

/-- The same for an action whose operation stands in a field of D4. -/
theorem State.opAction_ready {s : State} {d : DescId} {op : Nat} {e : Desc} (h : Ready s d op e) (hi lo v : Nat)
    (hv : e.bits 4 hi lo = v) (g : State → Desc → Gate) (k : State → Desc → State) (hg : g s e = {}) :
    s.opAction d op hi lo v g k = k (s.startDesc e) e := by
  unfold State.opAction
  rw [h.1]
  dsimp only
  rw [if_pos hv, State.action_ready h g k hg]

/-- What a gate refuses completes the descriptor with the gate's reason. -/
theorem State.action_holder {s : State} {d : DescId} {op : Nat} {e : Desc} (h : Ready s d op e) (g : State → Desc → Gate)
    (k : State → Desc → State) (hg : g s e = { holder := true }) : s.action d op g k = s.completeDesc e { reason := 0xF6 } := by
  obtain ⟨hd, ho, hs, hf, hr⟩ := h
  unfold State.action
  rw [hd]
  dsimp only
  rw [if_neg (by simp [ho, hs, hf]), hg, hr]
  simp

theorem State.hostPutWords_descs (s : State) (a : Nat) (l : List Word) : (s.hostPutWords a l).hi.descs = s.hi.descs := rfl

theorem State.updCring_descs (s : State) (c : Nat) (f : CRing → CRing) : (s.updCring c f).hi.descs = s.hi.descs := rfl

theorem State.writeEntry_descs (s : State) (c : Nat) (e : Entry) : (s.writeEntry c e).hi.descs = s.hi.descs := by
  unfold State.writeEntry
  simp only [apply_ite (fun s : State => s.hi.descs), State.updCring_descs, State.set_hi, State.hostPutWords_descs, ite_self]

theorem State.giveEntry_descs (s : State) (c : Nat) (e : Entry) : (s.giveEntry c e).hi.descs = s.hi.descs := by
  unfold State.giveEntry
  simp only [apply_ite (fun s : State => s.hi.descs), State.updCring_descs, State.writeEntry_descs, State.inc_hi, ite_self]

theorem State.dmaError_descs (s : State) (q : Nat) (b : Bool) : (s.dmaError q b).hi.descs = s.hi.descs := rfl

/-- Completing a descriptor takes it, and nothing else, off the list of open ones. -/
theorem State.completeDesc_descs (s : State) (d : Desc) (r : Done) :
    (s.completeDesc d r).hi.descs = s.hi.descs.filter fun e => !(e.key == d.key && e.index == d.index) := by
  unfold State.completeDesc
  simp only [apply_ite (fun s : State => s.hi.descs), State.giveEntry_descs, State.post_hi, State.inc_hi,
    State.dmaError_descs, ite_self]

theorem State.completeDesc_closed (s : State) (d : Desc) (r : Done) : Closed d (s.completeDesc d r) := by
  intro x hx
  rw [State.completeDesc_descs] at hx
  simp only [List.mem_filter, Bool.not_eq_true', Bool.and_eq_false_iff, beq_eq_false_iff_ne] at hx
  exact hx.2

end Sys2Proof.Machine
end

