-- ==== Sys2Proof/Laws/OnlyMirror.lean ====
section
/-! SUPPORT. Footprints of the operations of Machine/Mirror.lean. -/
namespace Sys2Proof.Machine
set_option linter.all false
set_option Elab.async false

theorem State.updTw_only {p r : Nat} {s x : State} {a1 : _} (hp : Sub 524288 p) (_hr : Sub 0 r) (h : Only p r s x) :
    Only p r s (State.updTw x a1) := by
  unfold State.updTw
  repeat' first
    | with_reducible assumption
    | (extract_lets +onlyGivenNames y; first | (refine Only.cut (x := y) ?_ ?_; subst y; rotate_left; clear_value y; intro _) | clear_value y)
    | (first | (with_reducible refine Only.upd_tw (Sub.bits hp rfl) ?_; first | with_reducible assumption))

theorem State.mirror_only {p r : Nat} {s x : State} {a1 a2 a3 : _} (hp : Sub 524288 p) (hr : Sub 0 r) (h : Only p r s x) :
    Only p r s (State.mirror x a1 a2 a3) := by
  unfold State.mirror
  repeat' first
    | with_reducible assumption
    | with_reducible refine State.updTw_only (Sub.trans rfl hp) (Sub.trans rfl hr) ?_
    | with_reducible refine Only.ite ?_ ?_
    | intro _
    | (extract_lets +onlyGivenNames y; first | (refine Only.cut (x := y) ?_ ?_; subst y; rotate_left; clear_value y; intro _) | clear_value y)
    | split
    | dsimp only

theorem State.mirrorDesc_only {p r : Nat} {s x : State} {a1 : _} (hp : Sub 524288 p) (hr : Sub 0 r) (h : Only p r s x) :
    Only p r s (State.mirrorDesc x a1) := by
  unfold State.mirrorDesc
  repeat' first
    | with_reducible assumption
    | with_reducible refine State.mirror_only (Sub.trans rfl hp) (Sub.trans rfl hr) ?_

theorem State.mirrorFree_only {p r : Nat} {s x : State} {a1 : _} (hp : Sub 134742016 p) (hr : Sub 0 r) (h : Only p r s x) :
    Only p r s (State.mirrorFree x a1) := by
  unfold State.mirrorFree
  repeat' first
    | with_reducible assumption
    | with_reducible refine State.mirror_only (Sub.trans rfl hp) (Sub.trans rfl hr) ?_
    | with_reducible refine State.draw_only (Sub.trans rfl hp) (Sub.trans rfl hr) ?_
    | with_reducible refine Only.ite ?_ ?_
    | split

end Sys2Proof.Machine
end

