-- ==== Sys2Proof/Laws/OnlyTwinCore.lean ====
section
/-! SUPPORT. Footprints of the operations of Machine/TwinCore.lean. -/
namespace Sys2Proof.Machine
set_option linter.all false
set_option Elab.async false

theorem State.takeEpoch_only {p r : Nat} {s x : State} {a1 : _} (hp : Sub 2097152 p) (hr : Sub 0x18000000000000000000000000000000000000000000000000000000000000000000000000000000000000000000000000000000000000000000000000000000000000000000000000000000000000000000000000000000000000000000000000000000000000000000000000000000000000000000000000000000000000000000000000000000000000000000000000000000000000000000000000000000000000000000000000000000000000000000 r) (h : Only p r s x) :
    Only p r s (State.takeEpoch x a1) := by
  unfold State.takeEpoch
  repeat' first
    | with_reducible assumption
    | with_reducible refine Only.set 1419 R.TW_EPOCH_EPOCH_num (Sub.bits hr rfl) ?_
    | with_reducible refine Only.set 1420 R.TW_EPOCH_STORED_num (Sub.bits hr rfl) ?_
    | (extract_lets +onlyGivenNames y; first | (refine Only.cut (x := y) ?_ ?_; subst y; rotate_left; clear_value y; intro _) | clear_value y)
    | dsimp only
    | (first | (with_reducible refine Only.upd_bb (Sub.bits hp rfl) ?_; first | with_reducible assumption | with_reducible refine Only.set 1419 R.TW_EPOCH_EPOCH_num (Sub.bits hr rfl) ?_ | with_reducible refine Only.set 1420 R.TW_EPOCH_STORED_num (Sub.bits hr rfl) ?_))

theorem State.closeHandover_only {p r : Nat} {s x : State} {a1 : _} (hp : Sub 655368 p) (hr : Sub 0x38080300000000000000000000000000000000000000000000000000000000000000000000000000000000000000000000000000000000000000000000000000000000000000000000000000000000000000000000000000000000000000000000000000000000000000000000000000000000000000000000000000000000000000000000000000000000000000000000000000000000000000000000000000000000 r) (h : Only p r s x) :
    Only p r s (State.closeHandover x a1) := by
  unfold State.closeHandover
  repeat' first
    | with_reducible assumption
    | with_reducible refine State.updTw_only (Sub.trans rfl hp) (Sub.trans rfl hr) ?_
    | with_reducible refine State.complete_only (Sub.trans rfl hp) (Sub.trans rfl hr) ?_
    | intro _
    | (extract_lets +onlyGivenNames y; first | (refine Only.cut (x := y) ?_ ?_; subst y; rotate_left; clear_value y; intro _) | clear_value y)
    | split
    | dsimp only

theorem State.twFault_only {p r : Nat} {s x : State} {a1 a2 a3 : _} (hp : Sub 655368 p) (hr : Sub 0x2800000000000000000000000000038080300000000000000000000000000000000000000000000000000000000000000000000000000000000000000000000000000000000000000000000000000000000000000000000000000000000000000000000000000000000000000000000000000000000000000000000000000000000000000000000000000000000000000000000000000000000000000000000000000000000000000000000000000000000 r) (h : Only p r s x) :
    Only p r s (State.twFault x a1 a2 a3) := by
  unfold State.twFault
  repeat' first
    | with_reducible assumption
    | with_reducible refine Only.set 1415 R.TW_STATE_STATE_num (Sub.bits hr rfl) ?_
    | with_reducible refine Only.set 1417 R.TW_STATE_LAST_CAUSE_num (Sub.bits hr rfl) ?_
    | with_reducible refine State.closeHandover_only (Sub.trans rfl hp) (Sub.trans rfl hr) ?_
    | with_reducible refine State.updTw_only (Sub.trans rfl hp) (Sub.trans rfl hr) ?_
    | intro _
    | (extract_lets +onlyGivenNames y; first | (refine Only.cut (x := y) ?_ ?_; subst y; rotate_left; clear_value y; intro _) | clear_value y)
    | dsimp only

theorem State.supersede_only {p r : Nat} {s x : State} {a1 : _} (hp : Sub 655368 p) (hr : Sub 0x1002800000000000000000000000000038080300000000000000000000000000000000000000000000000000000000000000000000000000000000000000000000000000000000000000000000000000000000000000000000000000000000000000000000000000000000000000000000000000000000000000000000000000000000000000000000000000000000000000000000000000000000000000000000000000000000000000000000000000000000 r) (h : Only p r s x) :
    Only p r s (State.supersede x a1) := by
  unfold State.supersede
  repeat' first
    | with_reducible assumption
    | with_reducible refine Only.set 1415 R.TW_STATE_STATE_num (Sub.bits hr rfl) ?_
    | with_reducible refine Only.set 1417 R.TW_STATE_LAST_CAUSE_num (Sub.bits hr rfl) ?_
    | with_reducible refine Only.inc 1428 R.TW_COUNT_B_SUPERSEDED_num (Sub.bits hr rfl) ?_
    | with_reducible refine State.closeHandover_only (Sub.trans rfl hp) (Sub.trans rfl hr) ?_
    | with_reducible refine State.updTw_only (Sub.trans rfl hp) (Sub.trans rfl hr) ?_
    | with_reducible refine State.post_only (Sub.trans rfl hp) (Sub.trans rfl hr) ?_
    | intro _
    | (extract_lets +onlyGivenNames y; first | (refine Only.cut (x := y) ?_ ?_; subst y; rotate_left; clear_value y; intro _) | clear_value y)
    | dsimp only

theorem State.sawEpoch_only {p r : Nat} {s x : State} {a1 : _} (hp : Sub 655368 p) (hr : Sub 0x1002800000000000000000000000000038080300000000000000000000000000000000000000000000000000000000000000000000000000000000000000000000000000000000000000000000000000000000000000000000000000000000000000000000000000000000000000000000000000000000000000000000000000000000000000000000000000000000000000000000000000000000000000000000000000000000000000000000000000000000 r) (h : Only p r s x) :
    Only p r s (State.sawEpoch x a1) := by
  unfold State.sawEpoch
  repeat' first
    | with_reducible assumption
    | with_reducible refine State.supersede_only (Sub.trans rfl hp) (Sub.trans rfl hr) ?_
    | with_reducible refine Only.ite ?_ ?_
    | split

end Sys2Proof.Machine
end

