-- ==== Sys2Proof/Laws/OnlyLinks.lean ====
section
/-! SUPPORT. Footprints of the operations of Machine/Links.lean. -/
namespace Sys2Proof.Machine
set_option linter.all false
set_option Elab.async false

theorem State.showSas_only {p r : Nat} {s x : State} {a1 : _} (_hp : Sub 0 p) (hr : Sub 0x1f000000000000000000000000000000000000000000000000000000000000000000000000 r) (h : Only p r s x) :
    Only p r s (State.showSas x a1) := by
  unfold State.showSas
  repeat' first
    | with_reducible assumption
    | with_reducible refine Only.set 288 R.CB_MACSEC_STATUS_TX_AN_num (Sub.bits hr rfl) ?_
    | with_reducible refine Only.set 289 R.CB_MACSEC_STATUS_RX_AN_VALID_num (Sub.bits hr rfl) ?_
    | with_reducible refine Only.setBit 290 R.CB_MACSEC_STATUS_TX_SA_VALID_num (Sub.bits hr rfl) ?_
    | with_reducible refine Only.setBit 291 R.CB_MACSEC_STATUS_PN_HIGH_num (Sub.bits hr rfl) ?_
    | with_reducible refine Only.setBit 292 R.CB_MACSEC_STATUS_PN_EXHAUSTED_num (Sub.bits hr rfl) ?_
    | with_reducible refine Only.ite ?_ ?_
    | intro _
    | (extract_lets +onlyGivenNames y; first | (refine Only.cut (x := y) ?_ ?_; subst y; rotate_left; clear_value y; intro _) | clear_value y)
    | split
    | dsimp only

theorem State.saInstalled_only {p r : Nat} {s x : State} {a1 : _} (hp : Sub 0 p) (hr : Sub 0x3f000000000000000000000000000000000000000000000000000000000000000000000000 r) (h : Only p r s x) :
    Only p r s (State.saInstalled x a1) := by
  unfold State.saInstalled
  repeat' first
    | with_reducible assumption
    | with_reducible refine Only.set 293 R.CB_MACSEC_STATUS_KEY_SEQ_num (Sub.bits hr rfl) ?_
    | with_reducible refine State.showSas_only (Sub.trans rfl hp) (Sub.trans rfl hr) ?_
    | with_reducible refine Only.ite ?_ ?_
    | (extract_lets +onlyGivenNames y; first | (refine Only.cut (x := y) ?_ ?_; subst y; rotate_left; clear_value y; intro _) | clear_value y)
    | split
    | dsimp only

theorem State.tellDown_only {p r : Nat} {s x : State} {a1 : _} (hp : Sub 4849672 p) (hr : Sub 0xe060000000000000000000000000000000000000000000000000000000000000000000000000000000000000000000002800000000000000000000000000038080300000000000000000000000000000000000000000000000000000000000000000000000000000000000000000000000000000000000000000000000000000000000000000000000000000000000000000000000000000000000000000000000000000000000000000000000000000000000000000000000000020000200000000000000000000000000000000000000000000000000000000000000000000000 r) (h : Only p r s x) :
    Only p r s (State.tellDown x a1) := by
  unfold State.tellDown
  repeat' first
    | with_reducible assumption
    | with_reducible refine Only.inc 285 R.CB_ERR_G_LINK_DOWN_num (Sub.bits hr rfl) ?_
    | with_reducible refine State.post_only (Sub.trans rfl hp) (Sub.trans rfl hr) ?_
    | with_reducible refine State.detect_only (Sub.trans rfl hp) (Sub.trans rfl hr) ?_ ?_
    | with_reducible refine Only.set 305 R.CB_PT_STATE_STATE_num (Sub.bits hr rfl) ?_
    | with_reducible refine State.twFault_only (Sub.trans rfl hp) (Sub.trans rfl hr) ?_
    | with_reducible refine Only.ite ?_ ?_
    | with_reducible refine Only.foldl ?_ ?_
    | intro _
    | (extract_lets +onlyGivenNames y; first | (refine Only.cut (x := y) ?_ ?_; subst y; rotate_left; clear_value y; intro _) | clear_value y)
    | split
    | dsimp only

theorem State.setLink_only {p r : Nat} {s x : State} {a1 a2 : _} (_hp : Sub 0 p) (hr : Sub 0x400000000000000000000000000000000000000000000000000000000000000000000000000000000000000000000000000000000000000000000000000000000000000000000000000000000000000000000000000000000000000000000000000000000000000000000000000000000000000000000000000000000000000000000000000000000000000000000000000001000000000000000000000000000000000000000000000000000000000000000000 r) (h : Only p r s x) :
    Only p r s (State.setLink x a1 a2) := by
  unfold State.setLink
  repeat' first
    | with_reducible assumption
    | with_reducible refine Only.set 264 R.CB_LINK_STATE_STATE_num (Sub.bits hr rfl) ?_
    | with_reducible refine Only.set 1438 R.TW_LINK_STATE_STATE_num (Sub.bits hr rfl) ?_
    | with_reducible refine Only.ite ?_ ?_
    | split

theorem State.updPort_only {p r : Nat} {s x : State} {a1 a2 : _} (hp : Sub 256 p) (_hr : Sub 0 r) (h : Only p r s x) :
    Only p r s (State.updPort x a1 a2) := by
  unfold State.updPort
  repeat' first
    | with_reducible assumption
    | intro _
    | (extract_lets +onlyGivenNames y; first | (refine Only.cut (x := y) ?_ ?_; subst y; rotate_left; clear_value y; intro _) | clear_value y)
    | dsimp only
    | (first | (with_reducible refine Only.upd_cb (Sub.bits hp rfl) ?_; first | with_reducible assumption))

theorem State.leaveUp_only {p r : Nat} {s x : State} {a1 a2 : _} (hp : Sub 4849928 p) (hr : Sub 0xe060000000000000000000000000000000000000000000000000000000000000000000000000000000000000000400002800000000000000000000000000038080300000000000000000000000000000000000000000000000000000000000000000000000000000000000000000000000000000000000000000000000000000000000000000000000000000000000000000000000000000000000000000000000000000000000000000000000000000000000000000000000000020000200001000000000000000000000000000000000000000000000000000000000000000000 r) (h : Only p r s x) :
    Only p r s (State.leaveUp x a1 a2) := by
  unfold State.leaveUp
  repeat' first
    | with_reducible assumption
    | with_reducible refine State.setLink_only (Sub.trans rfl hp) (Sub.trans rfl hr) ?_
    | with_reducible refine State.updPort_only (Sub.trans rfl hp) (Sub.trans rfl hr) ?_
    | with_reducible refine State.tellDown_only (Sub.trans rfl hp) (Sub.trans rfl hr) ?_
    | intro _
    | (extract_lets +onlyGivenNames y; first | (refine Only.cut (x := y) ?_ ?_; subst y; rotate_left; clear_value y; intro _) | clear_value y)
    | dsimp only

theorem State.dropTo_only {p r : Nat} {s x : State} {a1 a2 : _} (hp : Sub 4849928 p) (hr : Sub 0xe060000000000000000000000000000000000000000000000000000000000000000000000000000000000000000400002800000000000000000000000000038080300000000000000000000000000000000000000000000000000000000000000000000000000000000000000000000000000000000000000000000000000000000000000000000000000000000000000000000000000000000000000000000000000000000000000000000000000000000000000000000000000020000200001000000000000000000000000000000000000000000000000000000000000000000 r) (h : Only p r s x) :
    Only p r s (State.dropTo x a1 a2) := by
  unfold State.dropTo
  repeat' first
    | with_reducible assumption
    | with_reducible refine State.leaveUp_only (Sub.trans rfl hp) (Sub.trans rfl hr) ?_
    | with_reducible refine State.setLink_only (Sub.trans rfl hp) (Sub.trans rfl hr) ?_
    | with_reducible refine Only.ite ?_ ?_
    | split

theorem State.trainPort_only {p r : Nat} {s x : State} {a1 : _} (hp : Sub 4849928 p) (hr : Sub 0xe060000000000000000000000000000000000000000000000000000000000000000000000000000000000000000400002800000000000000000000000000038080300000000000000000000000000000000000000000000000000000000000000000000000000000000000000000000000000000000000000000000000000000000000000000000000000000000000000000000000000000000000000000000000000000000000000000000000000000000000000000000000000020000200001000000000000000000000000000000000000000000000000000000000000000000 r) (h : Only p r s x) :
    Only p r s (State.trainPort x a1) := by
  unfold State.trainPort
  repeat' first
    | with_reducible assumption
    | with_reducible refine State.dropTo_only (Sub.trans rfl hp) (Sub.trans rfl hr) ?_
    | with_reducible refine State.updPort_only (Sub.trans rfl hp) (Sub.trans rfl hr) ?_
    | with_reducible refine Only.ite ?_ ?_
    | intro _
    | (extract_lets +onlyGivenNames y; first | (refine Only.cut (x := y) ?_ ?_; subst y; rotate_left; clear_value y; intro _) | clear_value y)
    | split
    | dsimp only

theorem State.trainRetry_only {p r : Nat} {s x : State} {a1 : _} (hp : Sub 4849928 p) (hr : Sub 0xe060000000000000000000000000000000000000000000000000000000000000000000000000000000000000000400002800000000000000000000000000038080300000000000000000000000000000000000000000000000000000000000000000000000000000000000000000000000000000000000000000000000000000000000000000000000000000000000000000000000000000000000000000000000000000000000000000000000000000000000000000000000000020000200001000000000000000000000000000000000000000000000000000000000000000000 r) (h : Only p r s x) :
    Only p r s (State.trainRetry x a1) := by
  unfold State.trainRetry
  repeat' first
    | with_reducible assumption
    | with_reducible refine State.trainPort_only (Sub.trans rfl hp) (Sub.trans rfl hr) ?_
    | with_reducible refine Only.ite ?_ ?_
    | (extract_lets +onlyGivenNames y; first | (refine Only.cut (x := y) ?_ ?_; subst y; rotate_left; clear_value y; intro _) | clear_value y)
    | split
    | dsimp only

theorem execTrainingRetry_only {p r : Nat} {s : State} {a0 : _} (hp : Sub 4849928 p) (hr : Sub 0xe060000000000000000000000000000000000000000000000000000000000000000000000000000000000000000400002800000000000000000000000000038080300000000000000000000000000000000000000000000000000000000000000000000000000000000000000000000000000000000000000000000000000000000000000000000000000000000000000000000000000000000000000000000000000000000000000000000000000000000000000000000000000020000200001000000000000000000000000000000000000000000000000000000000000000000 r) :
    ∃ t, execTrainingRetry a0 s = .next t ∧ Only p r s t := by
  unfold execTrainingRetry
  refine ⟨_, rfl, ?_⟩
  have h : Only p r s s := Only.refl
  repeat' first
    | with_reducible assumption
    | with_reducible refine State.trainRetry_only (Sub.trans rfl hp) (Sub.trans rfl hr) ?_

theorem State.installRx_only {p r : Nat} {s x : State} {a1 a2 a3 : _} (hp : Sub 256 p) (hr : Sub 0x3f000000000000000000000000000000000000000000000000000000000000000000000000 r) (h : Only p r s x) :
    Only p r s (State.installRx x a1 a2 a3) := by
  unfold State.installRx
  repeat' first
    | with_reducible assumption
    | with_reducible refine State.updPort_only (Sub.trans rfl hp) (Sub.trans rfl hr) ?_
    | with_reducible refine State.saInstalled_only (Sub.trans rfl hp) (Sub.trans rfl hr) ?_
    | intro _
    | (extract_lets +onlyGivenNames y; first | (refine Only.cut (x := y) ?_ ?_; subst y; rotate_left; clear_value y; intro _) | clear_value y)
    | dsimp only

theorem State.installTx_only {p r : Nat} {s x : State} {a1 a2 a3 a4 a5 : _} (hp : Sub 256 p) (hr : Sub 0x3f000000000000000000000000000000000000000000000000000000000000000000000000 r) (h : Only p r s x) :
    Only p r s (State.installTx x a1 a2 a3 a4 a5) := by
  unfold State.installTx
  repeat' first
    | with_reducible assumption
    | with_reducible refine State.updPort_only (Sub.trans rfl hp) (Sub.trans rfl hr) ?_
    | with_reducible refine State.saInstalled_only (Sub.trans rfl hp) (Sub.trans rfl hr) ?_
    | with_reducible refine Only.ite ?_ ?_
    | intro _
    | (extract_lets +onlyGivenNames y; first | (refine Only.cut (x := y) ?_ ?_; subst y; rotate_left; clear_value y; intro _) | clear_value y)
    | split
    | dsimp only

theorem State.doMacsecKey_only {p r : Nat} {s x : State} {a1 : _} (hp : Sub 131336 p) (hr : Sub 0x3808030000000000000000000000000000000000000000000000000000000000000000000000000000000000000000000000000000000000000000000000000000000000000000000000000000000000000000000000000000000000000000000000000000000000000000000000000000000000000000000000000000003f000000000000000000000000000000000000000000000000000000000000000000000000 r) (h : Only p r s x) :
    Only p r s (State.doMacsecKey x a1) := by
  unfold State.doMacsecKey
  repeat' first
    | with_reducible assumption
    | with_reducible refine State.completeDesc_only (Sub.trans rfl hp) (Sub.trans rfl hr) ?_
    | with_reducible refine State.installRx_only (Sub.trans rfl hp) (Sub.trans rfl hr) ?_
    | with_reducible refine State.installTx_only (Sub.trans rfl hp) (Sub.trans rfl hr) ?_
    | with_reducible refine Only.ite ?_ ?_
    | intro _
    | (extract_lets +onlyGivenNames y; first | (refine Only.cut (x := y) ?_ ?_; subst y; rotate_left; clear_value y; intro _) | clear_value y)
    | split
    | dsimp only

theorem execMacsecKey_only {p r : Nat} {s : State} {a0 : _} (hp : Sub 131464 p) (hr : Sub 0x3808030000000000000000000000000000000000000000000000000000000000000000000000000000000000000000000000000000000000000000000000000000000000000000000000000000000000000000000000000000000000000000000000000000000000000000000000000000000000000000000000000000003f000000000000000000000000000000000000000000000000000000000000000000000000 r) :
    ∃ t, execMacsecKey a0 s = .next t ∧ Only p r s t := by
  unfold execMacsecKey
  refine ⟨_, rfl, ?_⟩
  have h : Only p r s s := Only.refl
  repeat' first
    | with_reducible assumption
    | with_reducible refine State.doMacsecKey_only (Sub.trans rfl hp) (Sub.trans rfl hr) ?_
    | with_reducible refine State.opAction_only (Sub.trans rfl hp) (Sub.trans rfl hr) ?_ ?_
    | with_reducible refine Only.ite ?_ ?_
    | intro _
    | split
    | dsimp only

theorem State.linkFault_only {p r : Nat} {s x : State} {a1 a2 : _} (hp : Sub 4849928 p) (hr : Sub 0xe060000000000000000000000000000000000000000000000000000000000000000000000000000000000000000400002800000000000000000000000000038080300000000000000000000000000000000000000000000000000000000000000000000000000000000000000000000000000000000000000000000000000000000000000000000000000000000000000000000000000000000000000000000000000000000000000000000000000000000000000000000000000020000200001000000000000000000000000000000000000000000000000000000000000000000 r) (h : Only p r s x) :
    Only p r s (State.linkFault x a1 a2) := by
  unfold State.linkFault
  repeat' first
    | with_reducible assumption
    | with_reducible refine State.dropTo_only (Sub.trans rfl hp) (Sub.trans rfl hr) ?_
    | with_reducible refine State.setLink_only (Sub.trans rfl hp) (Sub.trans rfl hr) ?_
    | with_reducible refine Only.ite ?_ ?_
    | (extract_lets +onlyGivenNames y; first | (refine Only.cut (x := y) ?_ ?_; subst y; rotate_left; clear_value y; intro _) | clear_value y)
    | split
    | dsimp only

theorem State.showPins_only {p r : Nat} {s x : State} {a1 a2 : _} (_hp : Sub 0 p) (hr : Sub 0xf80000000000000000000000000000000000000000000000000000000000000000000000000000000000000000000000000000000000000000000000000000000000000000000000000000000000000000000000000000000000000000000000000000000000000000000000000000000000000000000000000000000000000000000000000000000000000000000000000003e000000000000000000000000000000000000000000000000000000000000000000 r) (h : Only p r s x) :
    Only p r s (State.showPins x a1 a2) := by
  unfold State.showPins
  repeat' first
    | with_reducible assumption
    | with_reducible refine Only.setBit 265 R.CB_LINK_STATE_MOD_PRESENT_num (Sub.bits hr rfl) ?_
    | with_reducible refine Only.setBit 266 R.CB_LINK_STATE_LOS_num (Sub.bits hr rfl) ?_
    | with_reducible refine Only.setBit 267 R.CB_LINK_STATE_TX_FAULT_num (Sub.bits hr rfl) ?_
    | with_reducible refine Only.setBit 268 R.CB_LINK_STATE_BLOCK_LOCK_num (Sub.bits hr rfl) ?_
    | with_reducible refine Only.setBit 269 R.CB_LINK_STATE_HI_BER_num (Sub.bits hr rfl) ?_
    | with_reducible refine Only.setBit 1439 R.TW_LINK_STATE_MOD_PRESENT_num (Sub.bits hr rfl) ?_
    | with_reducible refine Only.setBit 1440 R.TW_LINK_STATE_LOS_num (Sub.bits hr rfl) ?_
    | with_reducible refine Only.setBit 1441 R.TW_LINK_STATE_TX_FAULT_num (Sub.bits hr rfl) ?_
    | with_reducible refine Only.setBit 1442 R.TW_LINK_STATE_BLOCK_LOCK_num (Sub.bits hr rfl) ?_
    | with_reducible refine Only.setBit 1443 R.TW_LINK_STATE_HI_BER_num (Sub.bits hr rfl) ?_
    | with_reducible refine Only.ite ?_ ?_
    | (extract_lets +onlyGivenNames y; first | (refine Only.cut (x := y) ?_ ?_; subst y; rotate_left; clear_value y; intro _) | clear_value y)
    | split
    | dsimp only

theorem State.upConditions_only {p r : Nat} {s x : State} {a1 a2 : _} (hp : Sub 4849928 p) (hr : Sub 0xe06000000000000000000000000000000000000000000000000000000000000000000000000000000000000000fc0000280000000000000000000000000003808030000000000000000000000000000000000000000000000000000000000000000000000000000000000000000000000000000000000000000000000000000000000000000000000000000000000000000000000000000000000000000000000000000000000000000000000000000000000000000000000000002000020003f000000000000000000000000000000000000000000000000000000000000000000 r) (h : Only p r s x) :
    Only p r s (State.upConditions x a1 a2) := by
  unfold State.upConditions
  repeat' first
    | with_reducible assumption
    | with_reducible refine State.showPins_only (Sub.trans rfl hp) (Sub.trans rfl hr) ?_
    | with_reducible refine State.dropTo_only (Sub.trans rfl hp) (Sub.trans rfl hr) ?_
    | with_reducible refine State.updPort_only (Sub.trans rfl hp) (Sub.trans rfl hr) ?_
    | with_reducible refine Only.ite ?_ ?_
    | intro _
    | (extract_lets +onlyGivenNames y; first | (refine Only.cut (x := y) ?_ ?_; subst y; rotate_left; clear_value y; intro _) | clear_value y)
    | split
    | dsimp only

theorem execUpConditionsChange_only {p r : Nat} {s : State} {a0 a1 : _} (hp : Sub 4849928 p) (hr : Sub 0xe06000000000000000000000000000000000000000000000000000000000000000000000000000000000000000fc0000280000000000000000000000000003808030000000000000000000000000000000000000000000000000000000000000000000000000000000000000000000000000000000000000000000000000000000000000000000000000000000000000000000000000000000000000000000000000000000000000000000000000000000000000000000000000002000020003f000000000000000000000000000000000000000000000000000000000000000000 r) :
    ∃ t, execUpConditionsChange a0 a1 s = .next t ∧ Only p r s t := by
  unfold execUpConditionsChange
  refine ⟨_, rfl, ?_⟩
  have h : Only p r s s := Only.refl
  repeat' first
    | with_reducible assumption
    | with_reducible refine State.upConditions_only (Sub.trans rfl hp) (Sub.trans rfl hr) ?_

theorem State.changeover_only {p r : Nat} {s x : State} {a1 : _} (hp : Sub 256 p) (hr : Sub 0x1f000000000000000000000000000000000000000000000000000000000000000000000000 r) (h : Only p r s x) :
    Only p r s (State.changeover x a1) := by
  unfold State.changeover
  repeat' first
    | with_reducible assumption
    | with_reducible refine State.updPort_only (Sub.trans rfl hp) (Sub.trans rfl hr) ?_
    | with_reducible refine State.showSas_only (Sub.trans rfl hp) (Sub.trans rfl hr) ?_
    | with_reducible refine Only.ite ?_ ?_
    | intro _
    | (extract_lets +onlyGivenNames y; first | (refine Only.cut (x := y) ?_ ?_; subst y; rotate_left; clear_value y; intro _) | clear_value y)
    | split
    | dsimp only

theorem execMacsecChangeover_only {p r : Nat} {s : State} {a0 : _} (hp : Sub 256 p) (hr : Sub 0x1f000000000000000000000000000000000000000000000000000000000000000000000000 r) :
    ∃ t, execMacsecChangeover a0 s = .next t ∧ Only p r s t := by
  unfold execMacsecChangeover
  refine ⟨_, rfl, ?_⟩
  have h : Only p r s s := Only.refl
  repeat' first
    | with_reducible assumption
    | with_reducible refine State.changeover_only (Sub.trans rfl hp) (Sub.trans rfl hr) ?_

theorem State.retireRx_only {p r : Nat} {s x : State} {a1 : _} (hp : Sub 256 p) (hr : Sub 0x1f000000000000000000000000000000000000000000000000000000000000000000000000 r) (h : Only p r s x) :
    Only p r s (State.retireRx x a1) := by
  unfold State.retireRx
  repeat' first
    | with_reducible assumption
    | with_reducible refine State.updPort_only (Sub.trans rfl hp) (Sub.trans rfl hr) ?_
    | with_reducible refine State.showSas_only (Sub.trans rfl hp) (Sub.trans rfl hr) ?_
    | intro _
    | (extract_lets +onlyGivenNames y; first | (refine Only.cut (x := y) ?_ ?_; subst y; rotate_left; clear_value y; intro _) | clear_value y)
    | split
    | dsimp only

theorem execRxSaRetire_only {p r : Nat} {s : State} {a0 : _} (hp : Sub 256 p) (hr : Sub 0x1f000000000000000000000000000000000000000000000000000000000000000000000000 r) :
    ∃ t, execRxSaRetire a0 s = .next t ∧ Only p r s t := by
  unfold execRxSaRetire
  refine ⟨_, rfl, ?_⟩
  have h : Only p r s s := Only.refl
  repeat' first
    | with_reducible assumption
    | with_reducible refine State.retireRx_only (Sub.trans rfl hp) (Sub.trans rfl hr) ?_

theorem State.retrain_only {p r : Nat} {s x : State} {a1 : _} (hp : Sub 4849928 p) (hr : Sub 0xe060000000000000000000000000000000000000000000000000000000000000000000000000000000000000000400002800000000000000000000000000038080300000000000000000000000000000000000000000000000000000000000000000000000000000000000000000000000000000000000000000000000000000000000000000000000000000000000000000000000000000000000000000000000000000000000000000000000000000000000000000000000000020000200001000000000000000000000000000000000000000000000000000000000000000000 r) (h : Only p r s x) :
    Only p r s (State.retrain x a1) := by
  unfold State.retrain
  repeat' first
    | with_reducible assumption
    | with_reducible refine State.ignored_only (Sub.trans rfl hp) (Sub.trans rfl hr) ?_
    | with_reducible refine State.trainPort_only (Sub.trans rfl hp) (Sub.trans rfl hr) ?_
    | with_reducible refine Only.ite ?_ ?_
    | split

theorem execLinkRetrain_only {p r : Nat} {s : State} {a0 : _} (hp : Sub 4849928 p) (hr : Sub 0xe060000000000000000000000000000000000000000000000000000000000000000000000000000000000000000400002800000000000000000000000000038080300000000000000000000000000000000000000000000000000000000000000000000000000000000000000000000000000000000000000000000000000000000000000000000000000000000000000000000000000000000000000000000000000000000000000000000000000000000000000000000000000020000200001000000000000000000000000000000000000000000000000000000000000000000 r) :
    ∃ t, execLinkRetrain a0 s = .next t ∧ Only p r s t := by
  unfold execLinkRetrain
  refine ⟨_, rfl, ?_⟩
  have h : Only p r s s := Only.refl
  repeat' first
    | with_reducible assumption
    | with_reducible refine State.retrain_only (Sub.trans rfl hp) (Sub.trans rfl hr) ?_

theorem State.doKek_only {p r : Nat} {s x : State} {a1 : _} (hp : Sub 131336 p) (hr : Sub 0x38080300000000000000000000000000000000000000000000000000000000000000000000000000000000000000000000000000000000000000000000000000000000000000000000000000000000000000000000000000000000000000000000000000000000000000000000000000000000000000000000000000000000000000000000000000000000000000000000000000000000000000000000000000000000 r) (h : Only p r s x) :
    Only p r s (State.doKek x a1) := by
  unfold State.doKek
  repeat' first
    | with_reducible assumption
    | with_reducible refine State.completeDesc_only (Sub.trans rfl hp) (Sub.trans rfl hr) ?_
    | with_reducible refine Only.ite ?_ ?_
    | (extract_lets +onlyGivenNames y; first | (refine Only.cut (x := y) ?_ ?_; subst y; rotate_left; clear_value y; intro _) | clear_value y)
    | split
    | (first | (with_reducible refine Only.upd_cb (Sub.bits hp rfl) ?_; first | with_reducible assumption | with_reducible refine State.completeDesc_only (Sub.trans rfl hp) (Sub.trans rfl hr) ?_))

theorem State.linkUp_only {p r : Nat} {s x : State} {a1 : _} (hp : Sub 256 p) (hr : Sub 0x400000000000000000000000000000000000000000000000000000000000000000000000000000000000000000000000000000000000000000000000000000000000000000000000000000000000000000000000000000000000000000000000000000000000000000000000000000000000000000000000000000000000000000000000000000000000000000000000000001000000000000000000000000000000000000000000000000000000000000000000 r) (h : Only p r s x) :
    Only p r s (State.linkUp x a1) := by
  unfold State.linkUp
  repeat' first
    | with_reducible assumption
    | with_reducible refine State.setLink_only (Sub.trans rfl hp) (Sub.trans rfl hr) ?_
    | with_reducible refine State.updPort_only (Sub.trans rfl hp) (Sub.trans rfl hr) ?_
    | with_reducible refine Only.ite ?_ ?_
    | intro _
    | (extract_lets +onlyGivenNames y; first | (refine Only.cut (x := y) ?_ ?_; subst y; rotate_left; clear_value y; intro _) | clear_value y)
    | split
    | dsimp only

theorem execLinkUp_only {p r : Nat} {s : State} {a0 : _} (hp : Sub 256 p) (hr : Sub 0x400000000000000000000000000000000000000000000000000000000000000000000000000000000000000000000000000000000000000000000000000000000000000000000000000000000000000000000000000000000000000000000000000000000000000000000000000000000000000000000000000000000000000000000000000000000000000000000000000001000000000000000000000000000000000000000000000000000000000000000000 r) :
    ∃ t, execLinkUp a0 s = .next t ∧ Only p r s t := by
  unfold execLinkUp
  refine ⟨_, rfl, ?_⟩
  have h : Only p r s s := Only.refl
  repeat' first
    | with_reducible assumption
    | with_reducible refine State.linkUp_only (Sub.trans rfl hp) (Sub.trans rfl hr) ?_

theorem State.linkDown_only {p r : Nat} {s x : State} {a1 : _} (hp : Sub 4849928 p) (hr : Sub 0xe060000000000000000000000000000000000000000000000000000000000000000000000000000000000000000400002800000000000000000000000000038080300000000000000000000000000000000000000000000000000000000000000000000000000000000000000000000000000000000000000000000000000000000000000000000000000000000000000000000000000000000000000000000000000000000000000000000000000000000000000000000000000020000200001000000000000000000000000000000000000000000000000000000000000000000 r) (h : Only p r s x) :
    Only p r s (State.linkDown x a1) := by
  unfold State.linkDown
  repeat' first
    | with_reducible assumption
    | with_reducible refine State.leaveUp_only (Sub.trans rfl hp) (Sub.trans rfl hr) ?_
    | with_reducible refine State.updPort_only (Sub.trans rfl hp) (Sub.trans rfl hr) ?_
    | with_reducible refine Only.ite ?_ ?_
    | intro _
    | (extract_lets +onlyGivenNames y; first | (refine Only.cut (x := y) ?_ ?_; subst y; rotate_left; clear_value y; intro _) | clear_value y)
    | split
    | dsimp only

theorem execLinkDown_only {p r : Nat} {s : State} {a0 : _} (hp : Sub 4849928 p) (hr : Sub 0xe060000000000000000000000000000000000000000000000000000000000000000000000000000000000000000400002800000000000000000000000000038080300000000000000000000000000000000000000000000000000000000000000000000000000000000000000000000000000000000000000000000000000000000000000000000000000000000000000000000000000000000000000000000000000000000000000000000000000000000000000000000000000020000200001000000000000000000000000000000000000000000000000000000000000000000 r) :
    ∃ t, execLinkDown a0 s = .next t ∧ Only p r s t := by
  unfold execLinkDown
  refine ⟨_, rfl, ?_⟩
  have h : Only p r s s := Only.refl
  repeat' first
    | with_reducible assumption
    | with_reducible refine State.linkDown_only (Sub.trans rfl hp) (Sub.trans rfl hr) ?_

theorem State.pnHigh_only {p r : Nat} {s x : State} {a1 : _} (hp : Sub 4194312 p) (hr : Sub 0xe060000000000000000000000000000000000000000000000000000000000000000000000000000000000000000000000000000000000000000000000000000000000000000000000000000000000000000000000000000000000000000000000000000000000000000000000000000000000000000000000000000000000000000000000000000000000000000000000000000000000000000000000000000000000000000000000000000000000000000000000000000000000000000000000000000000000000000000000000000000000000000000000000000000000000000 r) (h : Only p r s x) :
    Only p r s (State.pnHigh x a1) := by
  unfold State.pnHigh
  repeat' first
    | with_reducible assumption
    | with_reducible refine State.post_only (Sub.trans rfl hp) (Sub.trans rfl hr) ?_
    | with_reducible refine State.detect_only (Sub.trans rfl hp) (Sub.trans rfl hr) ?_ ?_
    | with_reducible refine Only.ite ?_ ?_
    | intro _
    | split
    | dsimp only

theorem State.macPass_only {p r : Nat} {s x : State} {a1 : _} (hp : Sub 4194568 p) (hr : Sub 0xe06000000000000000000000000000000000000000000000000000000000000000000000000000000000000000000000000000000000000000000000000000000000000000000000000000000000000000000000000000000000000000000000000000000000000000000000000000000000000000000000000000000000000000000000000000000000000000000000000000000000000000000000000000000000000000000000000000000000000000000000000000000000000009f000000000000000000000000000000000000000000000000000000000000000000000000 r) (h : Only p r s x) :
    Only p r s (State.macPass x a1) := by
  unfold State.macPass
  repeat' first
    | with_reducible assumption
    | with_reducible refine State.updPort_only (Sub.trans rfl hp) (Sub.trans rfl hr) ?_
    | with_reducible refine Only.set 295 R.CB_RX_PN_num (Sub.bits hr rfl) ?_
    | with_reducible refine State.pnHigh_only (Sub.trans rfl hp) (Sub.trans rfl hr) ?_
    | with_reducible refine State.showSas_only (Sub.trans rfl hp) (Sub.trans rfl hr) ?_
    | with_reducible refine Only.ite ?_ ?_
    | intro _
    | (extract_lets +onlyGivenNames y; first | (refine Only.cut (x := y) ?_ ?_; subst y; rotate_left; clear_value y; intro _) | clear_value y)
    | split
    | dsimp only

theorem State.updPart_only {p r : Nat} {s x : State} {a1 a2 : _} (hp : Sub 256 p) (_hr : Sub 0 r) (h : Only p r s x) :
    Only p r s (State.updPart x a1 a2) := by
  unfold State.updPart
  repeat' first
    | with_reducible assumption
    | intro _
    | (extract_lets +onlyGivenNames y; first | (refine Only.cut (x := y) ?_ ?_; subst y; rotate_left; clear_value y; intro _) | clear_value y)
    | dsimp only
    | (first | (with_reducible refine Only.upd_cb (Sub.bits hp rfl) ?_; first | with_reducible assumption))

theorem State.pnOut_only {p r : Nat} {s x : State} {a1 : _} (hp : Sub 4194568 p) (hr : Sub 0xe060000000000000000000000000000000000000000000000000000000000000000000000000000000000000000000000000000000000000000000000000000000000000000000000000000000000000000000000000000000000000000000000000000000000000000000000000000000000000000000000000000000000000000000000000000000000000000000000000000000000000000000000000000000000000000000000000000000000000000000000000000000000000000000000000000000000000000000000000000000000000000000000000000000000000000 r) (h : Only p r s x) :
    Only p r s (State.pnOut x a1) := by
  unfold State.pnOut
  repeat' first
    | with_reducible assumption
    | with_reducible refine State.updPort_only (Sub.trans rfl hp) (Sub.trans rfl hr) ?_
    | with_reducible refine State.post_only (Sub.trans rfl hp) (Sub.trans rfl hr) ?_
    | with_reducible refine State.detect_only (Sub.trans rfl hp) (Sub.trans rfl hr) ?_ ?_
    | with_reducible refine Only.ite ?_ ?_
    | intro _
    | (extract_lets +onlyGivenNames y; first | (refine Only.cut (x := y) ?_ ?_; subst y; rotate_left; clear_value y; intro _) | clear_value y)
    | split
    | dsimp only

theorem State.portConf_only {p r : Nat} {s x : State} {a1 : _} (hp : Sub 4849928 p) (hr : Sub 0xe060000000000000000000000000000000000000000000000000000000000000000000000000000000000000000400002800000000000000000000000000038080300000000000000000000000000000000000000000000000000000000000000000000000000000000000000000000000000000000000000000000000000000000000000000000000000000000000000000000000000000000000000000000000000000000000000000000000000000000000000000000000000020000200001000000000000000000000000000000000000000000000000000000000000000000 r) (h : Only p r s x) :
    Only p r s (State.portConf x a1) := by
  unfold State.portConf
  repeat' first
    | with_reducible assumption
    | with_reducible refine State.dropTo_only (Sub.trans rfl hp) (Sub.trans rfl hr) ?_
    | with_reducible refine State.updPort_only (Sub.trans rfl hp) (Sub.trans rfl hr) ?_
    | with_reducible refine State.trainPort_only (Sub.trans rfl hp) (Sub.trans rfl hr) ?_
    | with_reducible refine Only.ite ?_ ?_
    | intro _
    | (extract_lets +onlyGivenNames y; first | (refine Only.cut (x := y) ?_ ?_; subst y; rotate_left; clear_value y; intro _) | clear_value y)
    | split
    | dsimp only

theorem State.trainTimeout_only {p r : Nat} {s x : State} {a1 : _} (hp : Sub 256 p) (hr : Sub 0x400000000000000000000000000000000000000000000000000000000000000000000000000000000000000000000000000000000000000000000000000000000000000000000000000000000000000000000000000000000000000000000000000000000000000000000000000000000000000000000000000000000000000000000000000000000000000000000000000001000000000000000000000000000000000000000000000000000000000000000000 r) (h : Only p r s x) :
    Only p r s (State.trainTimeout x a1) := by
  unfold State.trainTimeout
  repeat' first
    | with_reducible assumption
    | with_reducible refine State.setLink_only (Sub.trans rfl hp) (Sub.trans rfl hr) ?_
    | with_reducible refine State.updPort_only (Sub.trans rfl hp) (Sub.trans rfl hr) ?_
    | with_reducible refine Only.ite ?_ ?_
    | intro _
    | (extract_lets +onlyGivenNames y; first | (refine Only.cut (x := y) ?_ ?_; subst y; rotate_left; clear_value y; intro _) | clear_value y)
    | split
    | dsimp only

theorem execTrainingTimeout_only {p r : Nat} {s : State} {a0 : _} (hp : Sub 256 p) (hr : Sub 0x400000000000000000000000000000000000000000000000000000000000000000000000000000000000000000000000000000000000000000000000000000000000000000000000000000000000000000000000000000000000000000000000000000000000000000000000000000000000000000000000000000000000000000000000000000000000000000000000000001000000000000000000000000000000000000000000000000000000000000000000 r) :
    ∃ t, execTrainingTimeout a0 s = .next t ∧ Only p r s t := by
  unfold execTrainingTimeout
  refine ⟨_, rfl, ?_⟩
  have h : Only p r s s := Only.refl
  repeat' first
    | with_reducible assumption
    | with_reducible refine State.trainTimeout_only (Sub.trans rfl hp) (Sub.trans rfl hr) ?_

theorem execMacsecKek_only {p r : Nat} {s : State} {a0 : _} (hp : Sub 131464 p) (hr : Sub 0x38080300000000000000000000000000000000000000000000000000000000000000000000000000000000000000000000000000000000000000000000000000000000000000000000000000000000000000000000000000000000000000000000000000000000000000000000000000000000000000000000000000000000000000000000000000000000000000000000000000000000000000000000000000000000 r) :
    ∃ t, execMacsecKek a0 s = .next t ∧ Only p r s t := by
  unfold execMacsecKek
  refine ⟨_, rfl, ?_⟩
  have h : Only p r s s := Only.refl
  repeat' first
    | with_reducible assumption
    | with_reducible refine State.doKek_only (Sub.trans rfl hp) (Sub.trans rfl hr) ?_
    | with_reducible refine State.opAction_only (Sub.trans rfl hp) (Sub.trans rfl hr) ?_ ?_
    | with_reducible refine Only.ite ?_ ?_
    | intro _
    | split
    | dsimp only

theorem State.launch_only {p r : Nat} {s x : State} {a1 a2 : _} (hp : Sub 4194568 p) (hr : Sub 0xe06000000000000000000000000000000000000000000000000000000000000000000000000000000000000000000000000000000000000000000000000000000000000000000000000000000000000000000000000000000000000000000000000000000000000000000000000000000000000000000000000000000000000000000000000000000000000000000000000000000000000000000000000000000000000000000000000000000000000000000000000000000000000005f800000000000000000000000000000000000000000000000000000000000000000000000 r) (h : Only p r s x) :
    Only p r s (State.launch x a1 a2) := by
  unfold State.launch
  repeat' first
    | with_reducible assumption
    | with_reducible refine Only.inc 287 R.CB_TX_FRAMES_num (Sub.bits hr rfl) ?_
    | with_reducible refine State.updPort_only (Sub.trans rfl hp) (Sub.trans rfl hr) ?_
    | with_reducible refine Only.set 294 R.CB_TX_PN_num (Sub.bits hr rfl) ?_
    | with_reducible refine State.pnHigh_only (Sub.trans rfl hp) (Sub.trans rfl hr) ?_
    | with_reducible refine State.pnOut_only (Sub.trans rfl hp) (Sub.trans rfl hr) ?_
    | with_reducible refine State.showSas_only (Sub.trans rfl hp) (Sub.trans rfl hr) ?_
    | with_reducible refine Only.ite ?_ ?_
    | intro _
    | (extract_lets +onlyGivenNames y; first | (refine Only.cut (x := y) ?_ ?_; subst y; rotate_left; clear_value y; intro _) | clear_value y)
    | split
    | dsimp only

theorem execLocalRemoteFault_only {p r : Nat} {s : State} {a0 a1 : _} (hp : Sub 4849928 p) (hr : Sub 0xe060000000000000000000000000000000000000000000000000000000000000000000000000000000000000000400002800000000000000000000000000038080300000000000000000000000000000000000000000000000000000000000000000000000000000000000000000000000000000000000000000000000000000000000000000000000000000000000000000000000000000000000000000000000000000000000000000000000000000000000000000000000000020000200001000000000000000000000000000000000000000000000000000000000000000000 r) :
    ∃ t, execLocalRemoteFault a0 a1 s = .next t ∧ Only p r s t := by
  unfold execLocalRemoteFault
  refine ⟨_, rfl, ?_⟩
  have h : Only p r s s := Only.refl
  repeat' first
    | with_reducible assumption
    | with_reducible refine State.linkFault_only (Sub.trans rfl hp) (Sub.trans rfl hr) ?_

end Sys2Proof.Machine
end

