-- ==== Sys2Proof/Laws/OnlyMotion.lean ====
section
/-! SUPPORT. Footprints of the operations of Machine/Motion.lean. -/
namespace Sys2Proof.Machine
set_option linter.all false
set_option Elab.async false

theorem State.updStep_only {p r : Nat} {s x : State} {a1 a2 : _} (hp : Sub 4096 p) (_hr : Sub 0 r) (h : Only p r s x) :
    Only p r s (State.updStep x a1 a2) := by
  unfold State.updStep
  repeat' first
    | with_reducible assumption
    | intro _
    | (extract_lets +onlyGivenNames y; first | (refine Only.cut (x := y) ?_ ?_; subst y; rotate_left; clear_value y; intro _) | clear_value y)
    | dsimp only
    | (first | (with_reducible refine Only.upd_mp (Sub.bits hp rfl) ?_; first | with_reducible assumption))

theorem State.showStep_only {p r : Nat} {s x : State} {a1 : _} (_hp : Sub 0 p) (hr : Sub 0x1fe0000000000000000000000000000000000000000000000000000000000000000000000000000000000000000000000000000000000000000000000000000000000000000000000000000000000000000000000000000 r) (h : Only p r s x) :
    Only p r s (State.showStep x a1) := by
  unfold State.showStep
  repeat' first
    | with_reducible assumption
    | with_reducible refine Only.set64 695 696 R.ST_STEP_LO_num R.ST_STEP_HI_STEPS_num (Sub.bits hr rfl) (Sub.bits hr rfl) ?_
    | with_reducible refine Only.set64 693 694 R.ST_VWORD_LO_num R.ST_VWORD_HI_V_num (Sub.bits hr rfl) (Sub.bits hr rfl) ?_
    | with_reducible refine Only.setBit 691 R.ST_STAT_DIR_num (Sub.bits hr rfl) ?_
    | with_reducible refine Only.set 692 R.ST_STAT_PENDING_num (Sub.bits hr rfl) ?_
    | with_reducible refine Only.setBit 689 R.ST_STAT_RDY_num (Sub.bits hr rfl) ?_
    | with_reducible refine Only.setBit 690 R.ST_STAT_EN_OUT_num (Sub.bits hr rfl) ?_
    | (extract_lets +onlyGivenNames y; first | (refine Only.cut (x := y) ?_ ?_; subst y; rotate_left; clear_value y; intro _) | clear_value y)
    | dsimp only

theorem State.applyWord_only {p r : Nat} {s x : State} {a1 a2 : _} (hp : Sub 4096 p) (hr : Sub 0x1fe0000000000000000000000000000000000000000000000000000000000000000000000000000000000000000000000000000000000000000000000000000000000000000000000000000000000000000000000000000 r) (h : Only p r s x) :
    Only p r s (State.applyWord x a1 a2) := by
  unfold State.applyWord
  repeat' first
    | with_reducible assumption
    | with_reducible refine State.updStep_only (Sub.trans rfl hp) (Sub.trans rfl hr) ?_
    | with_reducible refine State.showStep_only (Sub.trans rfl hp) (Sub.trans rfl hr) ?_
    | intro _
    | (extract_lets +onlyGivenNames y; first | (refine Only.cut (x := y) ?_ ?_; subst y; rotate_left; clear_value y; intro _) | clear_value y)
    | dsimp only

theorem State.updGen_only {p r : Nat} {s x : State} {a1 a2 : _} (hp : Sub 4096 p) (_hr : Sub 0 r) (h : Only p r s x) :
    Only p r s (State.updGen x a1 a2) := by
  unfold State.updGen
  repeat' first
    | with_reducible assumption
    | intro _
    | (extract_lets +onlyGivenNames y; first | (refine Only.cut (x := y) ?_ ?_; subst y; rotate_left; clear_value y; intro _) | clear_value y)
    | dsimp only
    | (first | (with_reducible refine Only.upd_mp (Sub.bits hp rfl) ?_; first | with_reducible assumption))

theorem State.dropMoves_only {p r : Nat} {s x : State} {a1 : _} (hp : Sub 135176 p) (hr : Sub 0x38080300000000000000000000000000000000000000000000000000000000000000000000000000000000000000000000000000000000000000000000000000000000000000000000000000000000080000000000000000000000000000000000000000000000000000000000000000000000000000000000000000000000000000000000000000000000000000000000000000000000000000000000000000000000 r) (h : Only p r s x) :
    Only p r s (State.dropMoves x a1) := by
  unfold State.dropMoves
  repeat' first
    | with_reducible assumption
    | with_reducible refine State.complete3_only (Sub.trans rfl hp) (Sub.trans rfl hr) ?_
    | with_reducible refine State.updGen_only (Sub.trans rfl hp) (Sub.trans rfl hr) ?_
    | with_reducible refine Only.set 667 R.MP_STAT_QUEUE_num (Sub.bits hr rfl) ?_
    | with_reducible refine Only.foldl ?_ ?_
    | intro _
    | (extract_lets +onlyGivenNames y; first | (refine Only.cut (x := y) ?_ ?_; subst y; rotate_left; clear_value y; intro _) | clear_value y)
    | dsimp only

theorem State.abortRecord_only {p r : Nat} {s x : State} {a1 a2 a3 : _} (hp : Sub 4096 p) (hr : Sub 0x40100000000000000000000000000000000000000000000000000000000000000000000000000000000000000000000000000000000000000000000000000000000000000000000000000000000000000000000000 r) (h : Only p r s x) :
    Only p r s (State.abortRecord x a1 a2 a3) := by
  unfold State.abortRecord
  repeat' first
    | with_reducible assumption
    | with_reducible refine Only.set 668 R.MP_STAT_CAUSE_num (Sub.bits hr rfl) ?_
    | with_reducible refine Only.inc 678 R.MP_COUNT_ABORTS_num (Sub.bits hr rfl) ?_
    | with_reducible refine State.updGen_only (Sub.trans rfl hp) (Sub.trans rfl hr) ?_
    | intro _
    | (extract_lets +onlyGivenNames y; first | (refine Only.cut (x := y) ?_ ?_; subst y; rotate_left; clear_value y; intro _) | clear_value y)
    | dsimp only

theorem State.settleLimits_only {p r : Nat} {s x : State} {a1 : _} (hp : Sub 4096 p) (hr : Sub 0 r) (h : Only p r s x) :
    Only p r s (State.settleLimits x a1) := by
  unfold State.settleLimits
  repeat' first
    | with_reducible assumption
    | with_reducible refine State.updGen_only (Sub.trans rfl hp) (Sub.trans rfl hr) ?_
    | intro _
    | (extract_lets +onlyGivenNames y; first | (refine Only.cut (x := y) ?_ ?_; subst y; rotate_left; clear_value y; intro _) | clear_value y)
    | split
    | dsimp only

theorem State.setGen_only {p r : Nat} {s x : State} {a1 a2 : _} (_hp : Sub 0 p) (hr : Sub 0x10000000000000000000000000000000000000000000000000000000000000000000000000000000000000000000000000000000000000000000000000000000000000000000000000000000000000000000000 r) (h : Only p r s x) :
    Only p r s (State.setGen x a1 a2) := by
  unfold State.setGen
  repeat' first
    | with_reducible assumption
    | with_reducible refine Only.set 664 R.MP_STAT_STATE_num (Sub.bits hr rfl) ?_

theorem State.trackGen_only {p r : Nat} {s x : State} {a1 : _} (hp : Sub 135176 p) (hr : Sub 0x38080300000000000000000000000000000000000000000000000000000000000000000000000000000000000000000000000000000000000000000000000000000000000000000000000000000040390000000000000000000000000000000000000000000000000000000000000000000000000000000000000000000000000000000000000000000000000000000000000000000000000000000000000000000000 r) (h : Only p r s x) :
    Only p r s (State.trackGen x a1) := by
  unfold State.trackGen
  repeat' first
    | with_reducible assumption
    | with_reducible refine State.complete3_only (Sub.trans rfl hp) (Sub.trans rfl hr) ?_
    | with_reducible refine Only.set 669 R.MP_STAT_HOME_RESULT_num (Sub.bits hr rfl) ?_
    | with_reducible refine State.abortRecord_only (Sub.trans rfl hp) (Sub.trans rfl hr) ?_
    | with_reducible refine State.updGen_only (Sub.trans rfl hp) (Sub.trans rfl hr) ?_
    | with_reducible refine State.settleLimits_only (Sub.trans rfl hp) (Sub.trans rfl hr) ?_
    | with_reducible refine State.dropMoves_only (Sub.trans rfl hp) (Sub.trans rfl hr) ?_
    | with_reducible refine State.setGen_only (Sub.trans rfl hp) (Sub.trans rfl hr) ?_
    | with_reducible refine Only.ite ?_ ?_
    | intro _
    | (extract_lets +onlyGivenNames y; first | (refine Only.cut (x := y) ?_ ?_; subst y; rotate_left; clear_value y; intro _) | clear_value y)
    | split
    | dsimp only

theorem State.publishGen_only {p r : Nat} {s x : State} {a1 : _} (_hp : Sub 0 p) (hr : Sub 0x3fc80000000000000000000000000000000000000000000000000000000000000000000000000000000000000000000000000000000000000000000000000000000000000000000000000000000000000000000000 r) (h : Only p r s x) :
    Only p r s (State.publishGen x a1) := by
  unfold State.publishGen
  repeat' first
    | with_reducible assumption
    | with_reducible refine Only.set64 670 671 R.MP_POS_LO_num R.MP_POS_HI_num (Sub.bits hr rfl) (Sub.bits hr rfl) ?_
    | with_reducible refine Only.set64 672 673 R.MP_VEL_LO_num R.MP_VEL_HI_num (Sub.bits hr rfl) (Sub.bits hr rfl) ?_
    | with_reducible refine Only.set64 674 675 R.MP_ACC_LO_num R.MP_ACC_HI_num (Sub.bits hr rfl) (Sub.bits hr rfl) ?_
    | with_reducible refine Only.set64 676 677 R.MP_TGT_LO_num R.MP_TGT_HI_num (Sub.bits hr rfl) (Sub.bits hr rfl) ?_
    | with_reducible refine Only.set 667 R.MP_STAT_QUEUE_num (Sub.bits hr rfl) ?_
    | (extract_lets +onlyGivenNames y; first | (refine Only.cut (x := y) ?_ ?_; subst y; rotate_left; clear_value y; intro _) | clear_value y)
    | dsimp only

theorem State.higherCause_only {p r : Nat} {s x : State} {a1 a2 : _} (_hp : Sub 0 p) (hr : Sub 0x100000000000000000000000000000000000000000000000000000000000000000000000000000000000000000000000000000000000000000000000000000000000000000000000000000000000000000000000 r) (h : Only p r s x) :
    Only p r s (State.higherCause x a1 a2) := by
  unfold State.higherCause
  repeat' first
    | with_reducible assumption
    | with_reducible refine Only.set 668 R.MP_STAT_CAUSE_num (Sub.bits hr rfl) ?_
    | with_reducible refine Only.ite ?_ ?_
    | split

theorem State.dropQueue_only {p r : Nat} {s x : State} {a1 : _} (hp : Sub 135176 p) (hr : Sub 0x38080300000000000000000000000000000000000000000000000000000000000000000000000000000000000000000000000000000000000000000000000000000000000000000000000000000000080000000000000000000000000000000000000000000000000000000000000000000000000000000000000000000000000000000000000000000000000000000000000000000000000000000000000000000000 r) (h : Only p r s x) :
    Only p r s (State.dropQueue x a1) := by
  unfold State.dropQueue
  repeat' first
    | with_reducible assumption
    | with_reducible refine State.dropMoves_only (Sub.trans rfl hp) (Sub.trans rfl hr) ?_
    | with_reducible refine Only.ite ?_ ?_
    | with_reducible refine Only.foldl ?_ ?_
    | intro _
    | (extract_lets +onlyGivenNames y; first | (refine Only.cut (x := y) ?_ ?_; subst y; rotate_left; clear_value y; intro _) | clear_value y)
    | split
    | dsimp only

theorem State.givePlan_only {p r : Nat} {s x : State} {a1 a2 a3 a4 : _} (hp : Sub 4096 p) (hr : Sub 0 r) (h : Only p r s x) :
    Only p r s (State.givePlan x a1 a2 a3 a4) := by
  unfold State.givePlan
  repeat' first
    | with_reducible assumption
    | with_reducible refine State.updGen_only (Sub.trans rfl hp) (Sub.trans rfl hr) ?_
    | intro _
    | (extract_lets +onlyGivenNames y; first | (refine Only.cut (x := y) ?_ ?_; subst y; rotate_left; clear_value y; intro _) | clear_value y)
    | dsimp only

theorem State.giveStop_only {p r : Nat} {s x : State} {a1 a2 a3 : _} (hp : Sub 4096 p) (hr : Sub 0 r) (h : Only p r s x) :
    Only p r s (State.giveStop x a1 a2 a3) := by
  unfold State.giveStop
  repeat' first
    | with_reducible assumption
    | with_reducible refine State.givePlan_only (Sub.trans rfl hp) (Sub.trans rfl hr) ?_
    | with_reducible refine State.updGen_only (Sub.trans rfl hp) (Sub.trans rfl hr) ?_
    | with_reducible refine Only.ite ?_ ?_
    | intro _
    | (extract_lets +onlyGivenNames y; first | (refine Only.cut (x := y) ?_ ?_; subst y; rotate_left; clear_value y; intro _) | clear_value y)
    | split
    | dsimp only

theorem State.homeFail_only {p r : Nat} {s x : State} {a1 a2 : _} (hp : Sub 4096 p) (hr : Sub 0x40120000000000000000000000000000000000000000000000000000000000000000000000000000000000000000000000000000000000000000000000000000000000000000000000000000000000000000000000 r) (h : Only p r s x) :
    Only p r s (State.homeFail x a1 a2) := by
  unfold State.homeFail
  repeat' first
    | with_reducible assumption
    | with_reducible refine Only.setBit 665 R.MP_STAT_HOMED_num (Sub.bits hr rfl) ?_
    | with_reducible refine State.abortRecord_only (Sub.trans rfl hp) (Sub.trans rfl hr) ?_
    | with_reducible refine State.giveStop_only (Sub.trans rfl hp) (Sub.trans rfl hr) ?_
    | with_reducible refine State.updGen_only (Sub.trans rfl hp) (Sub.trans rfl hr) ?_
    | with_reducible refine Only.ite ?_ ?_
    | intro _
    | (extract_lets +onlyGivenNames y; first | (refine Only.cut (x := y) ?_ ?_; subst y; rotate_left; clear_value y; intro _) | clear_value y)
    | split
    | dsimp only

theorem State.abortRamp_only {p r : Nat} {s x : State} {a1 a2 a3 a4 : _} (hp : Sub 135176 p) (hr : Sub 0x38080300000000000000000000000000000000000000000000000000000000000000000000000000000000000000000000000000000000000000000000000000000000000000000000000000000040190000000000000000000000000000000000000000000000000000000000000000000000000000000000000000000000000000000000000000000000000000000000000000000000000000000000000000000000 r) (h : Only p r s x) :
    Only p r s (State.abortRamp x a1 a2 a3 a4) := by
  unfold State.abortRamp
  repeat' first
    | with_reducible assumption
    | with_reducible refine State.dropMoves_only (Sub.trans rfl hp) (Sub.trans rfl hr) ?_
    | with_reducible refine State.abortRecord_only (Sub.trans rfl hp) (Sub.trans rfl hr) ?_
    | with_reducible refine State.updGen_only (Sub.trans rfl hp) (Sub.trans rfl hr) ?_
    | with_reducible refine State.setGen_only (Sub.trans rfl hp) (Sub.trans rfl hr) ?_
    | with_reducible refine State.giveStop_only (Sub.trans rfl hp) (Sub.trans rfl hr) ?_
    | with_reducible refine Only.ite ?_ ?_
    | intro _
    | (extract_lets +onlyGivenNames y; first | (refine Only.cut (x := y) ?_ ?_; subst y; rotate_left; clear_value y; intro _) | clear_value y)
    | split
    | dsimp only

theorem State.abortOne_only {p r : Nat} {s x : State} {a1 a2 a3 a4 : _} (hp : Sub 135176 p) (hr : Sub 0x380803000000000000000000000000000000000000000000000000000000000000000000000000000000000000000000000000000000000000000000000000000000000000000000000000000000401b0000000000000000000000000000000000000000000000000000000000000000000000000000000000000000000000000000000000000000000000000000000000000000000000000000000000000000000000 r) (h : Only p r s x) :
    Only p r s (State.abortOne x a1 a2 a3 a4) := by
  unfold State.abortOne
  repeat' first
    | with_reducible assumption
    | with_reducible refine State.higherCause_only (Sub.trans rfl hp) (Sub.trans rfl hr) ?_
    | with_reducible refine State.dropQueue_only (Sub.trans rfl hp) (Sub.trans rfl hr) ?_
    | with_reducible refine State.homeFail_only (Sub.trans rfl hp) (Sub.trans rfl hr) ?_
    | with_reducible refine State.abortRamp_only (Sub.trans rfl hp) (Sub.trans rfl hr) ?_
    | with_reducible refine Only.ite ?_ ?_
    | (extract_lets +onlyGivenNames y; first | (refine Only.cut (x := y) ?_ ?_; subst y; rotate_left; clear_value y; intro _) | clear_value y)
    | split
    | dsimp only

theorem State.driverStop_only {p r : Nat} {s x : State} {a1 a2 : _} (hp : Sub 135176 p) (hr : Sub 0x38080300000000000000000000000000000000000000000000000000000000000000000000000000000000000000000000000000000000000000000000000000000000000000000000000009fe007ffb0000000000000000000000000000000000000000000000000000000000000000000000000000000000000000000000000000000000000000000000000000000000000000000000000000000000000000000000 r) (h : Only p r s x) :
    Only p r s (State.driverStop x a1 a2) := by
  unfold State.driverStop
  repeat' first
    | with_reducible assumption
    | with_reducible refine State.dropMoves_only (Sub.trans rfl hp) (Sub.trans rfl hr) ?_
    | with_reducible refine State.abortRecord_only (Sub.trans rfl hp) (Sub.trans rfl hr) ?_
    | with_reducible refine State.updStep_only (Sub.trans rfl hp) (Sub.trans rfl hr) ?_
    | with_reducible refine State.showStep_only (Sub.trans rfl hp) (Sub.trans rfl hr) ?_
    | with_reducible refine State.updGen_only (Sub.trans rfl hp) (Sub.trans rfl hr) ?_
    | with_reducible refine State.complete3_only (Sub.trans rfl hp) (Sub.trans rfl hr) ?_
    | with_reducible refine Only.set 669 R.MP_STAT_HOME_RESULT_num (Sub.bits hr rfl) ?_
    | with_reducible refine Only.setBit 665 R.MP_STAT_HOMED_num (Sub.bits hr rfl) ?_
    | with_reducible refine State.setGen_only (Sub.trans rfl hp) (Sub.trans rfl hr) ?_
    | with_reducible refine State.publishGen_only (Sub.trans rfl hp) (Sub.trans rfl hr) ?_
    | with_reducible refine Only.inc 699 R.ST_COUNT_DRV_LOST_num (Sub.bits hr rfl) ?_
    | with_reducible refine State.post_only (Sub.trans rfl hp) (Sub.trans rfl hr) ?_
    | with_reducible refine State.abortOne_only (Sub.trans rfl hp) (Sub.trans rfl hr) ?_
    | with_reducible refine Only.ite ?_ ?_
    | with_reducible refine Only.foldl ?_ ?_
    | intro _
    | (extract_lets +onlyGivenNames y; first | (refine Only.cut (x := y) ?_ ?_; subst y; rotate_left; clear_value y; intro _) | clear_value y)
    | split
    | dsimp only

theorem State.axisLost_only {p r : Nat} {s x : State} {a1 a2 : _} (hp : Sub 135176 p) (hr : Sub 0x38080300000000000000000000000000000000000000000000000000000000000000000000000000000000000000000000000000000000000000000000000000000000000000000000000009fe007ffb0000000000000000000000000000000000000000000000000000000000000000000000000000000000000000000000000000000000000000000000000000000000000000000000000000000000000000000000 r) (h : Only p r s x) :
    Only p r s (State.axisLost x a1 a2) := by
  unfold State.axisLost
  repeat' first
    | with_reducible assumption
    | with_reducible refine State.updStep_only (Sub.trans rfl hp) (Sub.trans rfl hr) ?_
    | with_reducible refine State.showStep_only (Sub.trans rfl hp) (Sub.trans rfl hr) ?_
    | with_reducible refine Only.setBit 665 R.MP_STAT_HOMED_num (Sub.bits hr rfl) ?_
    | with_reducible refine State.post_only (Sub.trans rfl hp) (Sub.trans rfl hr) ?_
    | with_reducible refine State.driverStop_only (Sub.trans rfl hp) (Sub.trans rfl hr) ?_
    | with_reducible refine Only.ite ?_ ?_
    | intro _
    | (extract_lets +onlyGivenNames y; first | (refine Only.cut (x := y) ?_ ?_; subst y; rotate_left; clear_value y; intro _) | clear_value y)
    | split
    | dsimp only

theorem State.rdyChange_only {p r : Nat} {s x : State} {a1 a2 a3 : _} (hp : Sub 135176 p) (hr : Sub 0x38080300000000000000000000000000000000000000000000000000000000000000000000000000000000000000000000000000000000000000000000000000000000000000000000000009fe007ffb0000000000000000000000000000000000000000000000000000000000000000000000000000000000000000000000000000000000000000000000000000000000000000000000000000000000000000000000 r) (h : Only p r s x) :
    Only p r s (State.rdyChange x a1 a2 a3) := by
  unfold State.rdyChange
  repeat' first
    | with_reducible assumption
    | with_reducible refine State.updStep_only (Sub.trans rfl hp) (Sub.trans rfl hr) ?_
    | with_reducible refine Only.setBit 689 R.ST_STAT_RDY_num (Sub.bits hr rfl) ?_
    | with_reducible refine State.axisLost_only (Sub.trans rfl hp) (Sub.trans rfl hr) ?_
    | with_reducible refine Only.ite ?_ ?_
    | intro _
    | (extract_lets +onlyGivenNames y; first | (refine Only.cut (x := y) ?_ ?_; subst y; rotate_left; clear_value y; intro _) | clear_value y)
    | split
    | dsimp only

theorem State.rdyAccept_only {p r : Nat} {s x : State} {a1 a2 : _} (hp : Sub 135176 p) (hr : Sub 0x38080300000000000000000000000000000000000000000000000000000000000000000000000000000000000000000000000000000000000000000000000000000000000000000000000009fe007ffb0000000000000000000000000000000000000000000000000000000000000000000000000000000000000000000000000000000000000000000000000000000000000000000000000000000000000000000000 r) (h : Only p r s x) :
    Only p r s (State.rdyAccept x a1 a2) := by
  unfold State.rdyAccept
  repeat' first
    | with_reducible assumption
    | with_reducible refine State.rdyChange_only (Sub.trans rfl hp) (Sub.trans rfl hr) ?_
    | with_reducible refine Only.ite ?_ ?_
    | split

theorem execStkRdyChange_only {p r : Nat} {s : State} {a0 a1 : _} (hp : Sub 135176 p) (hr : Sub 0x38080300000000000000000000000000000000000000000000000000000000000000000000000000000000000000000000000000000000000000000000000000000000000000000000000009fe007ffb0000000000000000000000000000000000000000000000000000000000000000000000000000000000000000000000000000000000000000000000000000000000000000000000000000000000000000000000 r) :
    ∃ t, execStkRdyChange a0 a1 s = .next t ∧ Only p r s t := by
  unfold execStkRdyChange
  refine ⟨_, rfl, ?_⟩
  have h : Only p r s s := Only.refl
  repeat' first
    | with_reducible assumption
    | with_reducible refine State.rdyAccept_only (Sub.trans rfl hp) (Sub.trans rfl hr) ?_

theorem State.shiftStep_only {p r : Nat} {s x : State} {a1 a2 : _} (hp : Sub 4096 p) (hr : Sub 0x1fe0000000000000000000000000000000000000000000000000000000000000000000000000000000000000000000000000000000000000000000000000000000000000000000000000000000000000000000000000000 r) (h : Only p r s x) :
    Only p r s (State.shiftStep x a1 a2) := by
  unfold State.shiftStep
  repeat' first
    | with_reducible assumption
    | with_reducible refine State.updStep_only (Sub.trans rfl hp) (Sub.trans rfl hr) ?_
    | with_reducible refine State.showStep_only (Sub.trans rfl hp) (Sub.trans rfl hr) ?_
    | intro _
    | (extract_lets +onlyGivenNames y; first | (refine Only.cut (x := y) ?_ ?_; subst y; rotate_left; clear_value y; intro _) | clear_value y)
    | dsimp only

theorem State.startSeg_only {p r : Nat} {s x : State} {a1 a2 a3 a4 : _} (hp : Sub 4096 p) (hr : Sub 0x50000000000000000000000000000000000000000000000000000000000000000000000000000000000000000000000000000000000000000000000000000000000000000000000000000000000000000000000 r) (h : Only p r s x) :
    Only p r s (State.startSeg x a1 a2 a3 a4) := by
  unfold State.startSeg
  repeat' first
    | with_reducible assumption
    | with_reducible refine State.givePlan_only (Sub.trans rfl hp) (Sub.trans rfl hr) ?_
    | with_reducible refine State.updGen_only (Sub.trans rfl hp) (Sub.trans rfl hr) ?_
    | with_reducible refine Only.setBit 666 R.MP_STAT_LIMIT_DEFERRED_num (Sub.bits hr rfl) ?_
    | with_reducible refine State.setGen_only (Sub.trans rfl hp) (Sub.trans rfl hr) ?_
    | intro _
    | (extract_lets +onlyGivenNames y; first | (refine Only.cut (x := y) ?_ ?_; subst y; rotate_left; clear_value y; intro _) | clear_value y)
    | dsimp only

theorem State.nextSeg_only {p r : Nat} {s x : State} {a1 : _} (hp : Sub 4096 p) (hr : Sub 0x50000000000000000000000000000000000000000000000000000000000000000000000000000000000000000000000000000000000000000000000000000000000000000000000000000000000000000000000 r) (h : Only p r s x) :
    Only p r s (State.nextSeg x a1) := by
  unfold State.nextSeg
  repeat' first
    | with_reducible assumption
    | with_reducible refine State.updGen_only (Sub.trans rfl hp) (Sub.trans rfl hr) ?_
    | with_reducible refine State.setGen_only (Sub.trans rfl hp) (Sub.trans rfl hr) ?_
    | with_reducible refine State.startSeg_only (Sub.trans rfl hp) (Sub.trans rfl hr) ?_
    | with_reducible refine Only.ite ?_ ?_
    | intro _
    | (extract_lets +onlyGivenNames y; first | (refine Only.cut (x := y) ?_ ?_; subst y; rotate_left; clear_value y; intro _) | clear_value y)
    | split
    | dsimp only

theorem State.runAt_only {p r : Nat} {s x : State} {a1 a2 a3 : _} (hp : Sub 4096 p) (hr : Sub 0 r) (h : Only p r s x) :
    Only p r s (State.runAt x a1 a2 a3) := by
  unfold State.runAt
  repeat' first
    | with_reducible assumption
    | with_reducible refine State.givePlan_only (Sub.trans rfl hp) (Sub.trans rfl hr) ?_
    | intro _
    | (extract_lets +onlyGivenNames y; first | (refine Only.cut (x := y) ?_ ?_; subst y; rotate_left; clear_value y; intro _) | clear_value y)
    | dsimp only

theorem State.homeAway_only {p r : Nat} {s x : State} {a1 a2 : _} (hp : Sub 4096 p) (hr : Sub 0 r) (h : Only p r s x) :
    Only p r s (State.homeAway x a1 a2) := by
  unfold State.homeAway
  repeat' first
    | with_reducible assumption
    | with_reducible refine State.runAt_only (Sub.trans rfl hp) (Sub.trans rfl hr) ?_
    | with_reducible refine State.updGen_only (Sub.trans rfl hp) (Sub.trans rfl hr) ?_
    | intro _
    | (extract_lets +onlyGivenNames y; first | (refine Only.cut (x := y) ?_ ?_; subst y; rotate_left; clear_value y; intro _) | clear_value y)
    | dsimp only

theorem State.endPlan_only {p r : Nat} {s x : State} {a1 : _} (hp : Sub 135176 p) (hr : Sub 0x38080300000000000000000000000000000000000000000000000000000000000000000000000000000000000000000000000000000000000000000000000000000000000000000000000000000000250000000000000000000000000000000000000000000000000000000000000000000000000000000000000000000000000000000000000000000000000000000000000000000000000000000000000000000000 r) (h : Only p r s x) :
    Only p r s (State.endPlan x a1) := by
  unfold State.endPlan
  repeat' first
    | with_reducible assumption
    | with_reducible refine State.complete3_only (Sub.trans rfl hp) (Sub.trans rfl hr) ?_
    | with_reducible refine State.settleLimits_only (Sub.trans rfl hp) (Sub.trans rfl hr) ?_
    | with_reducible refine State.nextSeg_only (Sub.trans rfl hp) (Sub.trans rfl hr) ?_
    | with_reducible refine State.homeAway_only (Sub.trans rfl hp) (Sub.trans rfl hr) ?_
    | with_reducible refine Only.set 669 R.MP_STAT_HOME_RESULT_num (Sub.bits hr rfl) ?_
    | with_reducible refine State.setGen_only (Sub.trans rfl hp) (Sub.trans rfl hr) ?_
    | with_reducible refine State.updGen_only (Sub.trans rfl hp) (Sub.trans rfl hr) ?_
    | intro _
    | (extract_lets +onlyGivenNames y; first | (refine Only.cut (x := y) ?_ ?_; subst y; rotate_left; clear_value y; intro _) | clear_value y)
    | split
    | dsimp only

theorem State.moveTo_only {p r : Nat} {s x : State} {a1 a2 a3 a4 : _} (hp : Sub 4096 p) (hr : Sub 0 r) (h : Only p r s x) :
    Only p r s (State.moveTo x a1 a2 a3 a4) := by
  unfold State.moveTo
  repeat' first
    | with_reducible assumption
    | with_reducible refine State.updGen_only (Sub.trans rfl hp) (Sub.trans rfl hr) ?_
    | intro _
    | (extract_lets +onlyGivenNames y; first | (refine Only.cut (x := y) ?_ ?_; subst y; rotate_left; clear_value y; intro _) | clear_value y)
    | dsimp only

theorem State.advanceGen_only {p r : Nat} {s x : State} {a1 a2 : _} (hp : Sub 135176 p) (hr : Sub 0x38080300000000000000000000000000000000000000000000000000000000000000000000000000000000000000000000000000000000000000000000000000000000000000000000000000000000250000000000000000000000000000000000000000000000000000000000000000000000000000000000000000000000000000000000000000000000000000000000000000000000000000000000000000000000 r) (h : Only p r s x) :
    Only p r s (State.advanceGen x a1 a2) := by
  unfold State.advanceGen
  repeat' first
    | with_reducible assumption
    | with_reducible refine State.updGen_only (Sub.trans rfl hp) (Sub.trans rfl hr) ?_
    | with_reducible refine State.endPlan_only (Sub.trans rfl hp) (Sub.trans rfl hr) ?_
    | with_reducible refine State.moveTo_only (Sub.trans rfl hp) (Sub.trans rfl hr) ?_
    | with_reducible refine Only.ite ?_ ?_
    | intro _
    | (extract_lets +onlyGivenNames y; first | (refine Only.cut (x := y) ?_ ?_; subst y; rotate_left; clear_value y; intro _) | clear_value y)
    | split
    | dsimp only

theorem State.homeTravel_only {p r : Nat} {s x : State} {a1 : _} (hp : Sub 4096 p) (hr : Sub 0x40120000000000000000000000000000000000000000000000000000000000000000000000000000000000000000000000000000000000000000000000000000000000000000000000000000000000000000000000 r) (h : Only p r s x) :
    Only p r s (State.homeTravel x a1) := by
  unfold State.homeTravel
  repeat' first
    | with_reducible assumption
    | with_reducible refine State.homeFail_only (Sub.trans rfl hp) (Sub.trans rfl hr) ?_
    | with_reducible refine Only.ite ?_ ?_
    | (extract_lets +onlyGivenNames y; first | (refine Only.cut (x := y) ?_ ?_; subst y; rotate_left; clear_value y; intro _) | clear_value y)
    | split
    | dsimp only

theorem State.genSample_only {p r : Nat} {s x : State} {a1 : _} (hp : Sub 135176 p) (hr : Sub 0x3808030000000000000000000000000000000000000000000000000000000000000000000000000000000000000000000000000000000000000000000000000000000000000000000000000000007fff0000000000000000000000000000000000000000000000000000000000000000000000000000000000000000000000000000000000000000000000000000000000000000000000000000000000000000000000 r) (h : Only p r s x) :
    Only p r s (State.genSample x a1) := by
  unfold State.genSample
  repeat' first
    | with_reducible assumption
    | with_reducible refine State.trackGen_only (Sub.trans rfl hp) (Sub.trans rfl hr) ?_
    | with_reducible refine State.advanceGen_only (Sub.trans rfl hp) (Sub.trans rfl hr) ?_
    | with_reducible refine State.updGen_only (Sub.trans rfl hp) (Sub.trans rfl hr) ?_
    | with_reducible refine State.homeTravel_only (Sub.trans rfl hp) (Sub.trans rfl hr) ?_
    | with_reducible refine State.publishGen_only (Sub.trans rfl hp) (Sub.trans rfl hr) ?_
    | with_reducible refine Only.ite ?_ ?_
    | intro _
    | (extract_lets +onlyGivenNames y; first | (refine Only.cut (x := y) ?_ ?_; subst y; rotate_left; clear_value y; intro _) | clear_value y)
    | split
    | dsimp only

theorem State.homeSlow_only {p r : Nat} {s x : State} {a1 : _} (hp : Sub 4096 p) (hr : Sub 0 r) (h : Only p r s x) :
    Only p r s (State.homeSlow x a1) := by
  unfold State.homeSlow
  repeat' first
    | with_reducible assumption
    | with_reducible refine State.giveStop_only (Sub.trans rfl hp) (Sub.trans rfl hr) ?_
    | (extract_lets +onlyGivenNames y; first | (refine Only.cut (x := y) ?_ ?_; subst y; rotate_left; clear_value y; intro _) | clear_value y)
    | dsimp only

theorem State.structChanged_only {p r : Nat} {s x : State} {a1 : _} (hp : Sub 8192 p) (_hr : Sub 0 r) (h : Only p r s x) :
    Only p r s (State.structChanged x a1) := by
  unfold State.structChanged
  repeat' first
    | with_reducible assumption
    | intro _
    | (extract_lets +onlyGivenNames y; first | (refine Only.cut (x := y) ?_ ?_; subst y; rotate_left; clear_value y; intro _) | clear_value y)
    | split
    | dsimp only
    | (first | (with_reducible refine Only.upd_sv (Sub.bits hp rfl) ?_; first | with_reducible assumption))

theorem State.updChan_only {p r : Nat} {s x : State} {a1 a2 : _} (hp : Sub 512 p) (_hr : Sub 0 r) (h : Only p r s x) :
    Only p r s (State.updChan x a1 a2) := by
  unfold State.updChan
  repeat' first
    | with_reducible assumption
    | intro _
    | (extract_lets +onlyGivenNames y; first | (refine Only.cut (x := y) ?_ ?_; subst y; rotate_left; clear_value y; intro _) | clear_value y)
    | dsimp only
    | (first | (with_reducible refine Only.upd_fb (Sub.bits hp rfl) ?_; first | with_reducible assumption))

theorem State.shiftChan_only {p r : Nat} {s x : State} {a1 a2 : _} (hp : Sub 512 p) (hr : Sub 0 r) (h : Only p r s x) :
    Only p r s (State.shiftChan x a1 a2) := by
  unfold State.shiftChan
  repeat' first
    | with_reducible assumption
    | with_reducible refine State.updChan_only (Sub.trans rfl hp) (Sub.trans rfl hr) ?_
    | intro _
    | (extract_lets +onlyGivenNames y; first | (refine Only.cut (x := y) ?_ ?_; subst y; rotate_left; clear_value y; intro _) | clear_value y)
    | dsimp only

theorem State.feedLate_only {p r : Nat} {s x : State} {a1 a2 : _} (hp : Sub 4104 p) (hr : Sub 0x4000000000000000000000000000000000000000000000000000000000000000000000000000000000000000000000000000000000000000000000000000000000000000000000000000000000000000000000000000000 r) (h : Only p r s x) :
    Only p r s (State.feedLate x a1 a2) := by
  unfold State.feedLate
  repeat' first
    | with_reducible assumption
    | with_reducible refine State.updStep_only (Sub.trans rfl hp) (Sub.trans rfl hr) ?_
    | with_reducible refine Only.inc 698 R.ST_COUNT_FEED_LATE_num (Sub.bits hr rfl) ?_
    | with_reducible refine State.post_only (Sub.trans rfl hp) (Sub.trans rfl hr) ?_
    | intro _
    | (extract_lets +onlyGivenNames y; first | (refine Only.cut (x := y) ?_ ?_; subst y; rotate_left; clear_value y; intro _) | clear_value y)
    | dsimp only

theorem State.driveEnable_only {p r : Nat} {s x : State} {a1 : _} (hp : Sub 135176 p) (hr : Sub 0x38080300000000000000000000000000000000000000000000000000000000000000000000000000000000000000000000000000000000000000000000000000000000000000000000000009fe007ffb0000000000000000000000000000000000000000000000000000000000000000000000000000000000000000000000000000000000000000000000000000000000000000000000000000000000000000000000 r) (h : Only p r s x) :
    Only p r s (State.driveEnable x a1) := by
  unfold State.driveEnable
  repeat' first
    | with_reducible assumption
    | with_reducible refine State.updStep_only (Sub.trans rfl hp) (Sub.trans rfl hr) ?_
    | with_reducible refine Only.setBit 690 R.ST_STAT_EN_OUT_num (Sub.bits hr rfl) ?_
    | with_reducible refine State.axisLost_only (Sub.trans rfl hp) (Sub.trans rfl hr) ?_
    | with_reducible refine Only.ite ?_ ?_
    | intro _
    | (extract_lets +onlyGivenNames y; first | (refine Only.cut (x := y) ?_ ?_; subst y; rotate_left; clear_value y; intro _) | clear_value y)
    | split
    | dsimp only

theorem State.replanAll_only {p r : Nat} {s x : State} {a1 : _} (hp : Sub 4096 p) (hr : Sub 0 r) (h : Only p r s x) :
    Only p r s (State.replanAll x a1).1 := by
  unfold State.replanAll
  repeat' first
    | with_reducible assumption
    | with_reducible refine State.updGen_only (Sub.trans rfl hp) (Sub.trans rfl hr) ?_
    | with_reducible refine Only.ite ?_ ?_
    | with_reducible refine Only.foldl ?_ ?_
    | with_reducible refine Only.foldl_fst ?_ ?_
    | with_reducible refine Only.foldl_snd ?_ ?_
    | intro _
    | (extract_lets +onlyGivenNames y; first | (refine Only.cut (x := y) ?_ ?_; subst y; rotate_left; clear_value y; intro _) | (refine Only.cut (x := y.1) ?_ ?_; subst y; rotate_left; clear_value y; intro _) | (refine Only.cut (x := y.2) ?_ ?_; subst y; rotate_left; clear_value y; intro _) | (refine Only.cut (x := y.2.2) ?_ ?_; subst y; rotate_left; clear_value y; intro _) | clear_value y)
    | split
    | dsimp only

theorem State.setAxin_only {p r : Nat} {s x : State} {a1 a2 a3 a4 : _} (c0 : Nat) (c1 : Nat) (e0 : fieldOf c0 = a1) (k0 : r.testBit c0 = true) (e1 : fieldOf c1 = a2) (k1 : r.testBit c1 = true) (_hp : Sub 0 p) (_hr : Sub 0 r) (h : Only p r s x) :
    Only p r s (State.setAxin x a1 a2 a3 a4) := by
  unfold State.setAxin
  repeat' first
    | with_reducible assumption
    | with_reducible refine Only.set c0 e0 k0 ?_
    | with_reducible refine Only.set c1 e1 k1 ?_
    | with_reducible refine Only.ite ?_ ?_
    | intro _
    | (extract_lets +onlyGivenNames y; first | (refine Only.cut (x := y) ?_ ?_; subst y; rotate_left; clear_value y; intro _) | clear_value y)
    | split
    | dsimp only

theorem State.abortGen_only {p r : Nat} {s x : State} {a1 a2 : _} (hp : Sub 135176 p) (hr : Sub 0x380803000000000000000000000000000000000000000000000000000000000000000000000000000000000000000000000000000000000000000000000000000000000000000000000000000000401b0000000000000000000000000000000000000000000000000000000000000000000000000000000000000000000000000000000000000000000000000000000000000000000000000000000000000000000000 r) (h : Only p r s x) :
    Only p r s (State.abortGen x a1 a2) := by
  unfold State.abortGen
  repeat' first
    | with_reducible assumption
    | with_reducible refine State.abortOne_only (Sub.trans rfl hp) (Sub.trans rfl hr) ?_
    | with_reducible refine Only.ite ?_ ?_
    | with_reducible refine Only.foldl ?_ ?_
    | intro _
    | (extract_lets +onlyGivenNames y; first | (refine Only.cut (x := y) ?_ ?_; subst y; rotate_left; clear_value y; intro _) | clear_value y)
    | split
    | dsimp only

theorem State.limitStop_only {p r : Nat} {s x : State} {a1 a2 a3 : _} (hp : Sub 135176 p) (hr : Sub 0x380803000000000000000000000000000000000000000000000000000000000000000000000000000000000000000000000000000000000000000000000000000000000000000000000000000000401b0000000000000000000000000000000000000000000000000000000000000000000000000000000000000000000000000000000000000000000000000000000000000000000000000000000000000000000000 r) (h : Only p r s x) :
    Only p r s (State.limitStop x a1 a2 a3) := by
  unfold State.limitStop
  repeat' first
    | with_reducible assumption
    | with_reducible refine State.abortGen_only (Sub.trans rfl hp) (Sub.trans rfl hr) ?_
    | with_reducible refine State.post_only (Sub.trans rfl hp) (Sub.trans rfl hr) ?_

theorem State.homeAsserted_only {p r : Nat} {s x : State} {a1 a2 : _} (hp : Sub 4096 p) (hr : Sub 0x40120000000000000000000000000000000000000000000000000000000000000000000000000000000000000000000000000000000000000000000000000000000000000000000000000000000000000000000000 r) (h : Only p r s x) :
    Only p r s (State.homeAsserted x a1 a2) := by
  unfold State.homeAsserted
  repeat' first
    | with_reducible assumption
    | with_reducible refine State.homeFail_only (Sub.trans rfl hp) (Sub.trans rfl hr) ?_
    | with_reducible refine State.homeSlow_only (Sub.trans rfl hp) (Sub.trans rfl hr) ?_
    | with_reducible refine State.updGen_only (Sub.trans rfl hp) (Sub.trans rfl hr) ?_
    | with_reducible refine Only.ite ?_ ?_
    | intro _
    | (extract_lets +onlyGivenNames y; first | (refine Only.cut (x := y) ?_ ?_; subst y; rotate_left; clear_value y; intro _) | clear_value y)
    | split
    | dsimp only

theorem State.inputAsserted_only {p r : Nat} {s x : State} {a1 : _} (hp : Sub 4329480 p) (hr : Sub 0xe0600000000000000000000000000000000000000000000000000000000000000000000000000000000000000000000000000000000000000000000000000380803000000000000000000000000000000000000000000000000000000000000000000000000000000000000000000000000000000000000000000000000000000000000000000000000000000401b0000000000000000000000000000000000000000000000000000000000000000000000000000000000000000000000000000000000000000000000000000000000000000000000000000000000000000000000 r) (h : Only p r s x) :
    Only p r s (State.inputAsserted x a1) := by
  unfold State.inputAsserted
  repeat' first
    | with_reducible assumption
    | with_reducible refine State.post_only (Sub.trans rfl hp) (Sub.trans rfl hr) ?_
    | with_reducible refine State.limitStop_only (Sub.trans rfl hp) (Sub.trans rfl hr) ?_
    | with_reducible refine State.detect_only (Sub.trans rfl hp) (Sub.trans rfl hr) ?_ ?_
    | with_reducible refine State.homeAsserted_only (Sub.trans rfl hp) (Sub.trans rfl hr) ?_
    | with_reducible refine Only.ite ?_ ?_
    | with_reducible refine Only.foldl ?_ ?_
    | intro _
    | (extract_lets +onlyGivenNames y; first | (refine Only.cut (x := y) ?_ ?_; subst y; rotate_left; clear_value y; intro _) | clear_value y)
    | split
    | dsimp only

theorem State.chatter_only {p r : Nat} {s x : State} {a1 a2 : _} (hp : Sub 4329480 p) (hr : Sub 0xe0600000000000000000000000000000000000000000000000000000000000000000000000000000000000000000000000000000000000000000000000000380803000000000000000000000000000000000000000000000000000000000000000000000000000000000000000000000000000000000000000000000000000000000000000000000003000000401b0000000000000000000000000000000000000000000000000000000000000000000000000000000000000000000000000000000000000000000000000000000000000000000000000000000000000000000000 r) (h : Only p r s x) :
    Only p r s (State.chatter x a1 a2) := by
  unfold State.chatter
  repeat' first
    | with_reducible assumption
    | with_reducible refine State.setAxin_only 704 705 R.MP_AXIN_CHAT_LO_num (Sub.bits hr rfl) R.MP_AXIN_CHAT_HI_C_num (Sub.bits hr rfl) (Sub.trans rfl hp) (Sub.trans rfl hr) ?_
    | with_reducible refine State.post_only (Sub.trans rfl hp) (Sub.trans rfl hr) ?_
    | with_reducible refine State.homeFail_only (Sub.trans rfl hp) (Sub.trans rfl hr) ?_
    | with_reducible refine State.inputAsserted_only (Sub.trans rfl hp) (Sub.trans rfl hr) ?_
    | with_reducible refine Only.ite ?_ ?_
    | with_reducible refine Only.foldl ?_ ?_
    | intro _
    | (extract_lets +onlyGivenNames y; first | (refine Only.cut (x := y) ?_ ?_; subst y; rotate_left; clear_value y; intro _) | clear_value y)
    | split
    | dsimp only

theorem State.chatterTest_only {p r : Nat} {s x : State} {a1 : _} (hp : Sub 4329480 p) (hr : Sub 0xe0600000000000000000000000000000000000000000000000000000000000000000000000000000000000000000000000000000000000000000000000000380803000000000000000000000000000000000000000000000000000000000000000000000000000000000000000000000000000000000000000000000000000000000000000000000003000000401b0000000000000000000000000000000000000000000000000000000000000000000000000000000000000000000000000000000000000000000000000000000000000000000000000000000000000000000000 r) (h : Only p r s x) :
    Only p r s (State.chatterTest x a1) := by
  unfold State.chatterTest
  repeat' first
    | with_reducible assumption
    | with_reducible refine State.chatter_only (Sub.trans rfl hp) (Sub.trans rfl hr) ?_
    | with_reducible refine State.detect_only (Sub.trans rfl hp) (Sub.trans rfl hr) ?_ ?_
    | with_reducible refine Only.ite ?_ ?_
    | intro _
    | split
    | dsimp only

theorem execMpChatter_only {p r : Nat} {s : State} {a0 : _} (hp : Sub 4329480 p) (hr : Sub 0xe0600000000000000000000000000000000000000000000000000000000000000000000000000000000000000000000000000000000000000000000000000380803000000000000000000000000000000000000000000000000000000000000000000000000000000000000000000000000000000000000000000000000000000000000000000000003000000401b0000000000000000000000000000000000000000000000000000000000000000000000000000000000000000000000000000000000000000000000000000000000000000000000000000000000000000000000 r) :
    ∃ t, execMpChatter a0 s = .next t ∧ Only p r s t := by
  unfold execMpChatter
  refine ⟨_, rfl, ?_⟩
  have h : Only p r s s := Only.refl
  repeat' first
    | with_reducible assumption
    | with_reducible refine State.chatterTest_only (Sub.trans rfl hp) (Sub.trans rfl hr) ?_

theorem State.noteAxin_only {p r : Nat} {s x : State} {a1 a2 : _} (hp : Sub 4096 p) (_hr : Sub 0 r) (h : Only p r s x) :
    Only p r s (State.noteAxin x a1 a2) := by
  unfold State.noteAxin
  repeat' first
    | with_reducible assumption
    | intro _
    | (extract_lets +onlyGivenNames y; first | (refine Only.cut (x := y) ?_ ?_; subst y; rotate_left; clear_value y; intro _) | clear_value y)
    | dsimp only
    | (first | (with_reducible refine Only.upd_mp (Sub.bits hp rfl) ?_; first | with_reducible assumption))

theorem State.shiftIndex_only {p r : Nat} {s x : State} {a1 a2 : _} (_hp : Sub 0 p) (hr : Sub 0x22000000000000000000000000000000000000000000000000000000000000000000000000000000000000000000000000000 r) (h : Only p r s x) :
    Only p r s (State.shiftIndex x a1 a2) := by
  unfold State.shiftIndex
  repeat' first
    | with_reducible assumption
    | with_reducible refine Only.set 397 R.FB_IDX_EXP_num (Sub.bits hr rfl) ?_
    | with_reducible refine Only.setBit 401 R.FB_IDX_CFG_IDX_VALID_num (Sub.bits hr rfl) ?_
    | with_reducible refine Only.ite ?_ ?_
    | (extract_lets +onlyGivenNames y; first | (refine Only.cut (x := y) ?_ ?_; subst y; rotate_left; clear_value y; intro _) | clear_value y)
    | split
    | dsimp only

theorem State.homeShift_only {p r : Nat} {s x : State} {a1 : _} (hp : Sub 143880 p) (hr : Sub 0x38080300000000000000000000000000000000000000000000000000000000000000000000000000000000000000000000000000000000000000000000000000000000000000000000000001fe063feb0000000000000000000000000000000000000000000000000000000000000000022000000000000000000000000000000000000000000000000000000000000000000000000000000000000000000000000000 r) (h : Only p r s x) :
    Only p r s (State.homeShift x a1) := by
  unfold State.homeShift
  repeat' first
    | with_reducible assumption
    | with_reducible refine State.shiftStep_only (Sub.trans rfl hp) (Sub.trans rfl hr) ?_
    | with_reducible refine State.shiftChan_only (Sub.trans rfl hp) (Sub.trans rfl hr) ?_
    | with_reducible refine State.structChanged_only (Sub.trans rfl hp) (Sub.trans rfl hr) ?_
    | with_reducible refine State.shiftIndex_only (Sub.trans rfl hp) (Sub.trans rfl hr) ?_
    | with_reducible refine State.updGen_only (Sub.trans rfl hp) (Sub.trans rfl hr) ?_
    | with_reducible refine Only.setBit 665 R.MP_STAT_HOMED_num (Sub.bits hr rfl) ?_
    | with_reducible refine Only.set64 681 682 R.MP_HOME_POS_LO_num R.MP_HOME_POS_HI_num (Sub.bits hr rfl) (Sub.bits hr rfl) ?_
    | with_reducible refine Only.set 669 R.MP_STAT_HOME_RESULT_num (Sub.bits hr rfl) ?_
    | with_reducible refine State.setGen_only (Sub.trans rfl hp) (Sub.trans rfl hr) ?_
    | with_reducible refine State.publishGen_only (Sub.trans rfl hp) (Sub.trans rfl hr) ?_
    | with_reducible refine State.complete3_only (Sub.trans rfl hp) (Sub.trans rfl hr) ?_
    | with_reducible refine Only.ite ?_ ?_
    | intro _
    | (extract_lets +onlyGivenNames y; first | (refine Only.cut (x := y) ?_ ?_; subst y; rotate_left; clear_value y; intro _) | clear_value y)
    | split
    | dsimp only

theorem execHomeShift_only {p r : Nat} {s : State} {a0 : _} (hp : Sub 143880 p) (hr : Sub 0x38080300000000000000000000000000000000000000000000000000000000000000000000000000000000000000000000000000000000000000000000000000000000000000000000000001fe063feb0000000000000000000000000000000000000000000000000000000000000000022000000000000000000000000000000000000000000000000000000000000000000000000000000000000000000000000000 r) :
    ∃ t, execHomeShift a0 s = .next t ∧ Only p r s t := by
  unfold execHomeShift
  refine ⟨_, rfl, ?_⟩
  have h : Only p r s s := Only.refl
  repeat' first
    | with_reducible assumption
    | with_reducible refine State.homeShift_only (Sub.trans rfl hp) (Sub.trans rfl hr) ?_

theorem State.homeEvent_only {p r : Nat} {s x : State} {a1 a2 a3 : _} (hp : Sub 4096 p) (hr : Sub 0 r) (h : Only p r s x) :
    Only p r s (State.homeEvent x a1 a2 a3) := by
  unfold State.homeEvent
  repeat' first
    | with_reducible assumption
    | with_reducible refine State.updGen_only (Sub.trans rfl hp) (Sub.trans rfl hr) ?_
    | with_reducible refine State.homeSlow_only (Sub.trans rfl hp) (Sub.trans rfl hr) ?_
    | with_reducible refine Only.ite ?_ ?_
    | intro _
    | (extract_lets +onlyGivenNames y; first | (refine Only.cut (x := y) ?_ ?_; subst y; rotate_left; clear_value y; intro _) | clear_value y)
    | split
    | dsimp only

theorem State.rdySample_only {p r : Nat} {s x : State} {a1 : _} (hp : Sub 4329480 p) (hr : Sub 0xe060000000000000000000000000000000000000000000000000000000000000000000000000000000000000000000000000000000000000000000000000038080300000000000000000000000000000000000000000000000000000000000000000000000000000000000000000000000000000000000000000000000000000000000000000000000009fe007ffb0000000000000000000000000000000000000000000000000000000000000000000000000000000000000000000000000000000000000000000000000000000000000000000000000000000000000000000000 r) (h : Only p r s x) :
    Only p r s (State.rdySample x a1) := by
  unfold State.rdySample
  repeat' first
    | with_reducible assumption
    | with_reducible refine Only.snd (q := (State.inject _ _ _)) (by assumption) (State.inject_only (Sub.trans rfl hp) (Sub.trans rfl hr) ?_)
    | with_reducible refine State.inject_only (Sub.trans rfl hp) (Sub.trans rfl hr) ?_
    | with_reducible refine State.updStep_only (Sub.trans rfl hp) (Sub.trans rfl hr) ?_
    | with_reducible refine State.rdyChange_only (Sub.trans rfl hp) (Sub.trans rfl hr) ?_
    | with_reducible refine Only.ite ?_ ?_
    | intro _
    | (extract_lets +onlyGivenNames y; first | (refine Only.cut (x := y) ?_ ?_; subst y; rotate_left; clear_value y; intro _) | (refine Only.cut (x := y.1) ?_ ?_; subst y; rotate_left; clear_value y; intro _) | (refine Only.cut (x := y.2) ?_ ?_; subst y; rotate_left; clear_value y; intro _) | (refine Only.cut (x := y.2.2) ?_ ?_; subst y; rotate_left; clear_value y; intro _) | clear_value y)
    | split
    | dsimp only

theorem State.rateClamp_only {p r : Nat} {s x : State} {a1 a2 a3 : _} (hp : Sub 4232 p) (hr : Sub 0x3fe0000000000000000000000000000000000000000000000000000000000000000000000000000000000000000000000000000000000000000000000000000000000000000000000000000000000000000000000000000 r) (h : Only p r s x) :
    Only p r s (State.rateClamp x a1 a2 a3) := by
  unfold State.rateClamp
  repeat' first
    | with_reducible assumption
    | with_reducible refine Only.inc 697 R.ST_COUNT_RATE_CLAMP_num (Sub.bits hr rfl) ?_
    | with_reducible refine State.postOnce_only (Sub.trans rfl hp) (Sub.trans rfl hr) ?_
    | with_reducible refine State.applyWord_only (Sub.trans rfl hp) (Sub.trans rfl hr) ?_

theorem State.loadWord_only {p r : Nat} {s x : State} {a1 : _} (hp : Sub 4198536 p) (hr : Sub 0xe060000000000000000000000000000000000000000000000000000000000000000000000000000000000000000000000000000000000000000000000000000000000000000000000000000000000000000000000000000000000000000000000000000000000000000000000000000000000000000000000000000000000000000000000000000000007fe0000000000000000000000000000000000000000000000000000000000000000000000000000000000000000000000000000000000000000000000000000000000000000000000000000000000000000000000000000 r) (h : Only p r s x) :
    Only p r s (State.loadWord x a1) := by
  unfold State.loadWord
  repeat' first
    | with_reducible assumption
    | with_reducible refine Only.snd (q := (State.inject _ _ _)) (by assumption) (State.inject_only (Sub.trans rfl hp) (Sub.trans rfl hr) ?_)
    | with_reducible refine State.inject_only (Sub.trans rfl hp) (Sub.trans rfl hr) ?_
    | with_reducible refine State.feedLate_only (Sub.trans rfl hp) (Sub.trans rfl hr) ?_
    | with_reducible refine State.rateClamp_only (Sub.trans rfl hp) (Sub.trans rfl hr) ?_
    | with_reducible refine State.applyWord_only (Sub.trans rfl hp) (Sub.trans rfl hr) ?_
    | with_reducible refine Only.ite ?_ ?_
    | (extract_lets +onlyGivenNames y; first | (refine Only.cut (x := y) ?_ ?_; subst y; rotate_left; clear_value y; intro _) | (refine Only.cut (x := y.1) ?_ ?_; subst y; rotate_left; clear_value y; intro _) | (refine Only.cut (x := y.2) ?_ ?_; subst y; rotate_left; clear_value y; intro _) | (refine Only.cut (x := y.2.2) ?_ ?_; subst y; rotate_left; clear_value y; intro _) | clear_value y)
    | split
    | dsimp only

theorem State.movePlan_only {p r : Nat} {s x : State} {a1 : _} (hp : Sub 4096 p) (hr : Sub 0x3fcd0000000000000000000000000000000000000000000000000000000000000000000000000000000000000000000000000000000000000000000000000000000000000000000000000000000000000000000000 r) (h : Only p r s x) :
    Only p r s (State.movePlan x a1) := by
  unfold State.movePlan
  repeat' first
    | with_reducible assumption
    | with_reducible refine State.startSeg_only (Sub.trans rfl hp) (Sub.trans rfl hr) ?_
    | with_reducible refine State.publishGen_only (Sub.trans rfl hp) (Sub.trans rfl hr) ?_
    | with_reducible refine Only.ite ?_ ?_
    | (extract_lets +onlyGivenNames y; first | (refine Only.cut (x := y) ?_ ?_; subst y; rotate_left; clear_value y; intro _) | clear_value y)
    | split
    | dsimp only

theorem State.startWaiting_only {p r : Nat} {s x : State} {a1 : _} (hp : Sub 4096 p) (hr : Sub 0x3fcd0000000000000000000000000000000000000000000000000000000000000000000000000000000000000000000000000000000000000000000000000000000000000000000000000000000000000000000000 r) (h : Only p r s x) :
    Only p r s (State.startWaiting x a1) := by
  unfold State.startWaiting
  repeat' first
    | with_reducible assumption
    | with_reducible refine State.startSeg_only (Sub.trans rfl hp) (Sub.trans rfl hr) ?_
    | with_reducible refine State.publishGen_only (Sub.trans rfl hp) (Sub.trans rfl hr) ?_
    | (extract_lets +onlyGivenNames y; first | (refine Only.cut (x := y) ?_ ?_; subst y; rotate_left; clear_value y; intro _) | clear_value y)
    | split
    | dsimp only

theorem State.latchTrig_only {p r : Nat} {s x : State} {a1 : _} (hp : Sub 4096 p) (hr : Sub 0 r) (h : Only p r s x) :
    Only p r s (State.latchTrig x a1) := by
  unfold State.latchTrig
  repeat' first
    | with_reducible assumption
    | with_reducible refine State.updGen_only (Sub.trans rfl hp) (Sub.trans rfl hr) ?_
    | intro _
    | (extract_lets +onlyGivenNames y; first | (refine Only.cut (x := y) ?_ ?_; subst y; rotate_left; clear_value y; intro _) | clear_value y)
    | dsimp only

theorem State.segTrigger_only {p r : Nat} {s x : State} {a1 : _} (hp : Sub 4096 p) (hr : Sub 0xbfcd0000000000000000000000000000000000000000000000000000000000000000000000000000000000000000000000000000000000000000000000000000000000000000000000000000000000000000000000 r) (h : Only p r s x) :
    Only p r s (State.segTrigger x a1) := by
  unfold State.segTrigger
  repeat' first
    | with_reducible assumption
    | with_reducible refine State.startWaiting_only (Sub.trans rfl hp) (Sub.trans rfl hr) ?_
    | with_reducible refine Only.inc 679 R.MP_COUNT_TRG_UNUSED_num (Sub.bits hr rfl) ?_
    | with_reducible refine State.latchTrig_only (Sub.trans rfl hp) (Sub.trans rfl hr) ?_
    | with_reducible refine Only.ite ?_ ?_
    | with_reducible refine Only.foldl ?_ ?_
    | intro _
    | (extract_lets +onlyGivenNames y; first | (refine Only.cut (x := y) ?_ ?_; subst y; rotate_left; clear_value y; intro _) | clear_value y)
    | split
    | dsimp only

theorem State.unhome_only {p r : Nat} {s x : State} {a1 : _} (_hp : Sub 0 p) (hr : Sub 0x20000000000000000000000000000000000000000000000000000000000000000000000000000000000000000000000000000000000000000000000000000000000000000000000000000000000000000000000 r) (h : Only p r s x) :
    Only p r s (State.unhome x a1) := by
  unfold State.unhome
  repeat' first
    | with_reducible assumption
    | with_reducible refine Only.setBit 665 R.MP_STAT_HOMED_num (Sub.bits hr rfl) ?_
    | with_reducible refine Only.ite ?_ ?_
    | with_reducible refine Only.foldl ?_ ?_
    | intro _
    | (extract_lets +onlyGivenNames y; first | (refine Only.cut (x := y) ?_ ?_; subst y; rotate_left; clear_value y; intro _) | clear_value y)
    | split
    | dsimp only

theorem execGeneratorSample_only {p r : Nat} {s : State} {a0 : _} (hp : Sub 135176 p) (hr : Sub 0x3808030000000000000000000000000000000000000000000000000000000000000000000000000000000000000000000000000000000000000000000000000000000000000000000000000000007fff0000000000000000000000000000000000000000000000000000000000000000000000000000000000000000000000000000000000000000000000000000000000000000000000000000000000000000000000 r) :
    ∃ t, execGeneratorSample a0 s = .next t ∧ Only p r s t := by
  unfold execGeneratorSample
  refine ⟨_, rfl, ?_⟩
  have h : Only p r s s := Only.refl
  repeat' first
    | with_reducible assumption
    | with_reducible refine State.genSample_only (Sub.trans rfl hp) (Sub.trans rfl hr) ?_

theorem State.loadLimits_only {p r : Nat} {s x : State} {a1 : _} (hp : Sub 4096 p) (hr : Sub 0 r) (h : Only p r s x) :
    Only p r s (State.loadLimits x a1) := by
  unfold State.loadLimits
  repeat' first
    | with_reducible assumption
    | with_reducible refine State.updGen_only (Sub.trans rfl hp) (Sub.trans rfl hr) ?_
    | intro _
    | (extract_lets +onlyGivenNames y; first | (refine Only.cut (x := y) ?_ ?_; subst y; rotate_left; clear_value y; intro _) | clear_value y)
    | dsimp only

theorem State.homeReleased_only {p r : Nat} {s x : State} {a1 a2 a3 : _} (hp : Sub 4096 p) (hr : Sub 0 r) (h : Only p r s x) :
    Only p r s (State.homeReleased x a1 a2 a3) := by
  unfold State.homeReleased
  repeat' first
    | with_reducible assumption
    | with_reducible refine State.homeEvent_only (Sub.trans rfl hp) (Sub.trans rfl hr) ?_
    | with_reducible refine State.updGen_only (Sub.trans rfl hp) (Sub.trans rfl hr) ?_
    | with_reducible refine Only.ite ?_ ?_
    | intro _
    | (extract_lets +onlyGivenNames y; first | (refine Only.cut (x := y) ?_ ?_; subst y; rotate_left; clear_value y; intro _) | clear_value y)
    | split
    | dsimp only

theorem State.axinChange_only {p r : Nat} {s x : State} {a1 a2 : _} (hp : Sub 4329480 p) (hr : Sub 0xe0600000000000000000000000000000000000000000000000000000000000000000000000000000000000000000000000000000000000000000000000000380803000000000000000000000000000000000000000000000000000000000000000000000000000000000000000000000000000000000000000000000000000000000000000000000000c00000401b0000000000000000000000000000000000000000000000000000000000000000000000000000000000000000000000000000000000000000000000000000000000000000000000000000000000000000000000 r) (h : Only p r s x) :
    Only p r s (State.axinChange x a1 a2) := by
  unfold State.axinChange
  repeat' first
    | with_reducible assumption
    | with_reducible refine State.setAxin_only 702 703 R.MP_AXIN_LEVEL_LO_num (Sub.bits hr rfl) R.MP_AXIN_LEVEL_HI_L_num (Sub.bits hr rfl) (Sub.trans rfl hp) (Sub.trans rfl hr) ?_
    | with_reducible refine State.noteAxin_only (Sub.trans rfl hp) (Sub.trans rfl hr) ?_
    | with_reducible refine State.inputAsserted_only (Sub.trans rfl hp) (Sub.trans rfl hr) ?_
    | with_reducible refine State.homeReleased_only (Sub.trans rfl hp) (Sub.trans rfl hr) ?_
    | with_reducible refine Only.ite ?_ ?_
    | with_reducible refine Only.foldl ?_ ?_
    | intro _
    | (extract_lets +onlyGivenNames y; first | (refine Only.cut (x := y) ?_ ?_; subst y; rotate_left; clear_value y; intro _) | clear_value y)
    | split
    | dsimp only

theorem State.stepTick_only {p r : Nat} {s x : State} {a1 : _} (hp : Sub 4096 p) (hr : Sub 0x1fe0000000000000000000000000000000000000000000000000000000000000000000000000000000000000000000000000000000000000000000000000000000000000000000000000000000000000000000000000000 r) (h : Only p r s x) :
    Only p r s (State.stepTick x a1) := by
  unfold State.stepTick
  repeat' first
    | with_reducible assumption
    | with_reducible refine State.updStep_only (Sub.trans rfl hp) (Sub.trans rfl hr) ?_
    | with_reducible refine State.showStep_only (Sub.trans rfl hp) (Sub.trans rfl hr) ?_
    | with_reducible refine Only.ite ?_ ?_
    | intro _
    | (extract_lets +onlyGivenNames y; first | (refine Only.cut (x := y) ?_ ?_; subst y; rotate_left; clear_value y; intro _) | clear_value y)
    | split
    | dsimp only

theorem State.homeIndex_only {p r : Nat} {s x : State} {a1 a2 a3 : _} (hp : Sub 4096 p) (hr : Sub 0 r) (h : Only p r s x) :
    Only p r s (State.homeIndex x a1 a2 a3) := by
  unfold State.homeIndex
  repeat' first
    | with_reducible assumption
    | with_reducible refine State.homeEvent_only (Sub.trans rfl hp) (Sub.trans rfl hr) ?_
    | with_reducible refine Only.ite ?_ ?_
    | with_reducible refine Only.foldl ?_ ?_
    | intro _
    | (extract_lets +onlyGivenNames y; first | (refine Only.cut (x := y) ?_ ?_; subst y; rotate_left; clear_value y; intro _) | clear_value y)
    | split
    | dsimp only

theorem execVelocityWordLoad_only {p r : Nat} {s : State} {a0 : _} (hp : Sub 4198536 p) (hr : Sub 0xe060000000000000000000000000000000000000000000000000000000000000000000000000000000000000000000000000000000000000000000000000000000000000000000000000000000000000000000000000000000000000000000000000000000000000000000000000000000000000000000000000000000000000000000000000000000007fe0000000000000000000000000000000000000000000000000000000000000000000000000000000000000000000000000000000000000000000000000000000000000000000000000000000000000000000000000000 r) :
    ∃ t, execVelocityWordLoad a0 s = .next t ∧ Only p r s t := by
  unfold execVelocityWordLoad
  refine ⟨_, rfl, ?_⟩
  have h : Only p r s s := Only.refl
  repeat' first
    | with_reducible assumption
    | with_reducible refine State.loadWord_only (Sub.trans rfl hp) (Sub.trans rfl hr) ?_

theorem execMovePlan_only {p r : Nat} {s : State} {a0 : _} (hp : Sub 4096 p) (hr : Sub 0x3fcd0000000000000000000000000000000000000000000000000000000000000000000000000000000000000000000000000000000000000000000000000000000000000000000000000000000000000000000000 r) :
    ∃ t, execMovePlan a0 s = .next t ∧ Only p r s t := by
  unfold execMovePlan
  refine ⟨_, rfl, ?_⟩
  have h : Only p r s s := Only.refl
  repeat' first
    | with_reducible assumption
    | with_reducible refine State.movePlan_only (Sub.trans rfl hp) (Sub.trans rfl hr) ?_

theorem State.limitDeferred_only {p r : Nat} {s x : State} {a1 a2 : _} (hp : Sub 8 p) (hr : Sub 0x100040000000000000000000000000000000000000000000000000000000000000000000000000000000000000000000000000000000000000000000000000000000000000000000000000000000000000000000000 r) (h : Only p r s x) :
    Only p r s (State.limitDeferred x a1 a2) := by
  unfold State.limitDeferred
  repeat' first
    | with_reducible assumption
    | with_reducible refine Only.setBit 666 R.MP_STAT_LIMIT_DEFERRED_num (Sub.bits hr rfl) ?_
    | with_reducible refine Only.inc 680 R.MP_COUNT_DEFERRALS_num (Sub.bits hr rfl) ?_
    | with_reducible refine State.post_only (Sub.trans rfl hp) (Sub.trans rfl hr) ?_

theorem State.driveEnables_only {p r : Nat} {s x : State} (hp : Sub 135176 p) (hr : Sub 0x38080300000000000000000000000000000000000000000000000000000000000000000000000000000000000000000000000000000000000000000000000000000000000000000000000009fe007ffb0000000000000000000000000000000000000000000000000000000000000000000000000000000000000000000000000000000000000000000000000000000000000000000000000000000000000000000000 r) (h : Only p r s x) :
    Only p r s (State.driveEnables x) := by
  unfold State.driveEnables
  repeat' first
    | with_reducible assumption
    | with_reducible refine State.driveEnable_only (Sub.trans rfl hp) (Sub.trans rfl hr) ?_
    | with_reducible refine Only.foldl ?_ ?_
    | intro _

theorem execAxinLevelChange_only {p r : Nat} {s : State} {a0 a1 : _} (hp : Sub 4329480 p) (hr : Sub 0xe0600000000000000000000000000000000000000000000000000000000000000000000000000000000000000000000000000000000000000000000000000380803000000000000000000000000000000000000000000000000000000000000000000000000000000000000000000000000000000000000000000000000000000000000000000000000c00000401b0000000000000000000000000000000000000000000000000000000000000000000000000000000000000000000000000000000000000000000000000000000000000000000000000000000000000000000000 r) :
    ∃ t, execAxinLevelChange a0 a1 s = .next t ∧ Only p r s t := by
  unfold execAxinLevelChange
  refine ⟨_, rfl, ?_⟩
  have h : Only p r s s := Only.refl
  repeat' first
    | with_reducible assumption
    | with_reducible refine State.axinChange_only (Sub.trans rfl hp) (Sub.trans rfl hr) ?_

theorem State.limitCommit_only {p r : Nat} {s x : State} {a1 : _} (hp : Sub 4104 p) (hr : Sub 0x100040000000000000000000000000000000000000000000000000000000000000000000000000000000000000000000000000000000000000000000000000000000000000000000000000000000000000000000000 r) (h : Only p r s x) :
    Only p r s (State.limitCommit x a1) := by
  unfold State.limitCommit
  repeat' first
    | with_reducible assumption
    | with_reducible refine State.updGen_only (Sub.trans rfl hp) (Sub.trans rfl hr) ?_
    | with_reducible refine Only.inc 680 R.MP_COUNT_DEFERRALS_num (Sub.bits hr rfl) ?_
    | with_reducible refine State.post_only (Sub.trans rfl hp) (Sub.trans rfl hr) ?_
    | with_reducible refine Only.fst (q := (State.replanAll _ _)) (by assumption) (State.replanAll_only (Sub.trans rfl hp) (Sub.trans rfl hr) ?_)
    | with_reducible refine State.replanAll_only (Sub.trans rfl hp) (Sub.trans rfl hr) ?_
    | with_reducible refine State.limitDeferred_only (Sub.trans rfl hp) (Sub.trans rfl hr) ?_
    | with_reducible refine Only.ite ?_ ?_
    | intro _
    | (extract_lets +onlyGivenNames y; first | (refine Only.cut (x := y) ?_ ?_; subst y; rotate_left; clear_value y; intro _) | (refine Only.cut (x := y.1) ?_ ?_; subst y; rotate_left; clear_value y; intro _) | (refine Only.cut (x := y.2) ?_ ?_; subst y; rotate_left; clear_value y; intro _) | (refine Only.cut (x := y.2.2) ?_ ?_; subst y; rotate_left; clear_value y; intro _) | clear_value y)
    | split
    | dsimp only

end Sys2Proof.Machine
end

