-- ==== Sys2Proof/Laws/OnlyTimeBase.lean ====
section
/-! SUPPORT. Footprints of the operations of Machine/TimeBase.lean. -/
namespace Sys2Proof.Machine
set_option linter.all false
set_option Elab.async false

theorem State.nsRead_only {p r : Nat} {s x : State} {a1 : _} (hp : Sub 805306368 p) (hr : Sub 0x700000000000000000000000000000000 r) (h : Only p r s x) :
    Only p r s (State.nsRead x a1) := by
  unfold State.nsRead
  repeat' first
    | with_reducible assumption
    | with_reducible refine Only.set 128 R.TB_NOW_NS_NS_num (Sub.bits hr rfl) ?_
    | with_reducible refine Only.set 129 R.TB_NOW_SEC_LO_num (Sub.bits hr rfl) ?_
    | with_reducible refine Only.set 130 R.TB_NOW_SEC_HI_SEC_HI_num (Sub.bits hr rfl) ?_
    | with_reducible refine State.latch_only (Sub.trans rfl hp) (Sub.trans rfl hr) ?_
    | with_reducible refine State.reply_only (Sub.trans rfl hp) (Sub.trans rfl hr) ?_
    | (extract_lets +onlyGivenNames y; first | (refine Only.cut (x := y) ?_ ?_; subst y; rotate_left; clear_value y; intro _) | clear_value y)
    | split
    | dsimp only

theorem State.updTb_only {p r : Nat} {s x : State} {a1 : _} (hp : Sub 32 p) (_hr : Sub 0 r) (h : Only p r s x) :
    Only p r s (State.updTb x a1) := by
  unfold State.updTb
  repeat' first
    | with_reducible assumption
    | (extract_lets +onlyGivenNames y; first | (refine Only.cut (x := y) ?_ ?_; subst y; rotate_left; clear_value y; intro _) | clear_value y)
    | (first | (with_reducible refine Only.upd_tb (Sub.bits hp rfl) ?_; first | with_reducible assumption))

theorem State.updTrig_only {p r : Nat} {s x : State} {a1 a2 : _} (hp : Sub 32 p) (hr : Sub 0 r) (h : Only p r s x) :
    Only p r s (State.updTrig x a1 a2) := by
  unfold State.updTrig
  repeat' first
    | with_reducible assumption
    | with_reducible refine State.updTb_only (Sub.trans rfl hp) (Sub.trans rfl hr) ?_
    | intro _
    | (extract_lets +onlyGivenNames y; first | (refine Only.cut (x := y) ?_ ?_; subst y; rotate_left; clear_value y; intro _) | clear_value y)
    | dsimp only

theorem State.setArm_only {p r : Nat} {s x : State} {a1 : _} (hp : Sub 2151677992 p) (hr : Sub 0xe060000000000000000000000000000000000000000000000000000000000000000000000000000000000000000000000000000000000000000000000000000000000000000000000000000000000000000000000000000000000000000000000000000000000000000000000000000000000000000000000000000000000000000000000000000000000000000000000000000000000000000000000000000000000000000000000000000000000000000000000000000000000000000000000000000000000000000000004040000000000000000000000000000000000000000 r) (h : Only p r s x) :
    Only p r s (State.setArm x a1) := by
  unfold State.setArm
  repeat' first
    | with_reducible assumption
    | with_reducible refine Only.setBit 162 R.TB_TRG_CTRL_ARM_num (Sub.bits hr rfl) ?_
    | with_reducible refine State.updTrig_only (Sub.trans rfl hp) (Sub.trans rfl hr) ?_
    | with_reducible refine State.raiseBit_only 170 R.TB_TRG_STATUS_LATE_num (Sub.bits hr rfl) (Sub.trans rfl hp) (Sub.trans rfl hr) ?_
    | with_reducible refine State.post_only (Sub.trans rfl hp) (Sub.trans rfl hr) ?_
    | with_reducible refine State.detect_only (Sub.trans rfl hp) (Sub.trans rfl hr) ?_ ?_
    | intro _
    | (extract_lets +onlyGivenNames y; first | (refine Only.cut (x := y) ?_ ?_; subst y; rotate_left; clear_value y; intro _) | clear_value y)
    | dsimp only

theorem State.triggerArm_only {p r : Nat} {s x : State} {a1 a2 a3 : _} (hp : Sub 2151677992 p) (hr : Sub 0xe0600000000000000000000000000000000000000000000000000000000000000000000000000000000000000000000000000000000000000000000000000000000000000000000000000000000000000000000000000000000000000000000000000000000000000000000000000000000000000000000000000000000000000000000000000000000000000000000000000000000000000000000000000000000000000000000000000000000000000000000000000000000000000000000000000000000000000000000041c0000000000000000000000000000000000000000 r) (h : Only p r s x) :
    Only p r s (State.triggerArm x a1 a2 a3) := by
  unfold State.triggerArm
  repeat' first
    | with_reducible assumption
    | with_reducible refine Only.set 163 R.TB_TRG_CTRL_ACTION_num (Sub.bits hr rfl) ?_
    | with_reducible refine Only.set 164 R.TB_TRG_CTRL_TARGET_num (Sub.bits hr rfl) ?_
    | with_reducible refine Only.setBit 162 R.TB_TRG_CTRL_ARM_num (Sub.bits hr rfl) ?_
    | with_reducible refine State.ignored_only (Sub.trans rfl hp) (Sub.trans rfl hr) ?_
    | with_reducible refine State.setArm_only (Sub.trans rfl hp) (Sub.trans rfl hr) ?_
    | with_reducible refine Only.ite ?_ ?_
    | (extract_lets +onlyGivenNames y; first | (refine Only.cut (x := y) ?_ ?_; subst y; rotate_left; clear_value y; intro _) | clear_value y)
    | split
    | dsimp only

theorem State.ppsRise_only {p r : Nat} {s x : State} (hp : Sub 32 p) (hr : Sub 0 r) (h : Only p r s x) :
    Only p r s (State.ppsRise x) := by
  unfold State.ppsRise
  repeat' first
    | with_reducible assumption
    | with_reducible refine State.updTb_only (Sub.trans rfl hp) (Sub.trans rfl hr) ?_
    | with_reducible refine Only.ite ?_ ?_
    | intro _
    | (extract_lets +onlyGivenNames y; first | (refine Only.cut (x := y) ?_ ?_; subst y; rotate_left; clear_value y; intro _) | clear_value y)
    | split
    | dsimp only

theorem execPpsOutRise_only {p r : Nat} {s : State} (hp : Sub 32 p) (hr : Sub 0 r) :
    ∃ t, execPpsOutRise s = .next t ∧ Only p r s t := by
  unfold execPpsOutRise
  refine ⟨_, rfl, ?_⟩
  have h : Only p r s s := Only.refl
  repeat' first
    | with_reducible assumption
    | with_reducible refine State.ppsRise_only (Sub.trans rfl hp) (Sub.trans rfl hr) ?_

theorem State.alignDone_only {p r : Nat} {s x : State} {a1 : _} (hp : Sub 131080 p) (hr : Sub 0x38080300000000000000000000000000000000000000000000000000000000000000000000000000000000000000000000000000000000000000000000000000000000000000000000000000000000000000000000000000000000000000000000000000000000000000000000000000000000000000000000000000000000000000000000000000000000000000000000000000000000000000000000000000000000 r) (h : Only p r s x) :
    Only p r s (State.alignDone x a1) := by
  unfold State.alignDone
  repeat' first
    | with_reducible assumption
    | with_reducible refine State.complete_only (Sub.trans rfl hp) (Sub.trans rfl hr) ?_
    | (extract_lets +onlyGivenNames y; first | (refine Only.cut (x := y) ?_ ?_; subst y; rotate_left; clear_value y; intro _) | clear_value y)
    | split
    | dsimp only

theorem execTbNsRead_only {p r : Nat} {s : State} {a0 : _} (hp : Sub 805306368 p) (hr : Sub 0x700000000000000000000000000000000 r) :
    ∃ t, execTbNsRead a0 s = .next t ∧ Only p r s t := by
  unfold execTbNsRead
  refine ⟨_, rfl, ?_⟩
  have h : Only p r s s := Only.refl
  repeat' first
    | with_reducible assumption
    | with_reducible refine State.nsRead_only (Sub.trans rfl hp) (Sub.trans rfl hr) ?_

theorem State.askCorr_only {p r : Nat} {s x : State} {a1 a2 a3 : _} (hp : Sub 32 p) (hr : Sub 0 r) (h : Only p r s x) :
    Only p r s (State.askCorr x a1 a2 a3) := by
  unfold State.askCorr
  repeat' first
    | with_reducible assumption
    | with_reducible refine State.updTb_only (Sub.trans rfl hp) (Sub.trans rfl hr) ?_
    | intro _
    | (extract_lets +onlyGivenNames y; first | (refine Only.cut (x := y) ?_ ?_; subst y; rotate_left; clear_value y; intro _) | clear_value y)
    | dsimp only

theorem State.fracWrite_only {p r : Nat} {s x : State} {a1 a2 : _} (hp : Sub 32 p) (hr : Sub 0 r) (h : Only p r s x) :
    Only p r s (State.fracWrite x a1 a2) := by
  unfold State.fracWrite
  repeat' first
    | with_reducible assumption
    | with_reducible refine State.askCorr_only (Sub.trans rfl hp) (Sub.trans rfl hr) ?_

theorem execFracWrite_only {p r : Nat} {s : State} {a0 a1 : _} (hp : Sub 32 p) (hr : Sub 0 r) :
    ∃ t, execFracWrite a0 a1 s = .next t ∧ Only p r s t := by
  unfold execFracWrite
  refine ⟨_, rfl, ?_⟩
  have h : Only p r s s := Only.refl
  repeat' first
    | with_reducible assumption
    | with_reducible refine State.fracWrite_only (Sub.trans rfl hp) (Sub.trans rfl hr) ?_

theorem State.ptpServo_only {p r : Nat} {s x : State} (hp : Sub 134217760 p) (hr : Sub 0 r) (h : Only p r s x) :
    Only p r s (State.ptpServo x) := by
  unfold State.ptpServo
  repeat' first
    | with_reducible assumption
    | with_reducible refine State.fracWrite_only (Sub.trans rfl hp) (Sub.trans rfl hr) ?_
    | with_reducible refine State.draw_only (Sub.trans rfl hp) (Sub.trans rfl hr) ?_
    | with_reducible refine Only.ite ?_ ?_
    | (extract_lets +onlyGivenNames y; first | (refine Only.cut (x := y) ?_ ?_; subst y; rotate_left; clear_value y; intro _) | clear_value y)
    | split
    | dsimp only

theorem execTriggerArm_only {p r : Nat} {s : State} {a0 a1 a2 : _} (hp : Sub 2151677992 p) (hr : Sub 0xe0600000000000000000000000000000000000000000000000000000000000000000000000000000000000000000000000000000000000000000000000000000000000000000000000000000000000000000000000000000000000000000000000000000000000000000000000000000000000000000000000000000000000000000000000000000000000000000000000000000000000000000000000000000000000000000000000000000000000000000000000000000000000000000000000000000000000000000000041c0000000000000000000000000000000000000000 r) :
    ∃ t, execTriggerArm a0 a1 a2 s = .next t ∧ Only p r s t := by
  unfold execTriggerArm
  refine ⟨_, rfl, ?_⟩
  have h : Only p r s s := Only.refl
  repeat' first
    | with_reducible assumption
    | with_reducible refine State.triggerArm_only (Sub.trans rfl hp) (Sub.trans rfl hr) ?_

theorem State.stampCapture_only {p r : Nat} {s x : State} {a1 a2 : _} (hp : Sub 32 p) (hr : Sub 0x13000000000000000000000000000000000000000 r) (h : Only p r s x) :
    Only p r s (State.stampCapture x a1 a2) := by
  unfold State.stampCapture
  repeat' first
    | with_reducible assumption
    | with_reducible refine Only.set 156 R.TB_CAP_NS_NS_num (Sub.bits hr rfl) ?_
    | with_reducible refine Only.setBit 157 R.TB_CAP_NS_VALID_num (Sub.bits hr rfl) ?_
    | with_reducible refine State.updTb_only (Sub.trans rfl hp) (Sub.trans rfl hr) ?_
    | with_reducible refine Only.inc 160 R.TB_CAP_STATUS_COUNT_num (Sub.bits hr rfl) ?_
    | intro _
    | (extract_lets +onlyGivenNames y; first | (refine Only.cut (x := y) ?_ ?_; subst y; rotate_left; clear_value y; intro _) | clear_value y)
    | dsimp only

theorem State.capOverrun_only {p r : Nat} {s x : State} {a1 a2 : _} (hp : Sub 4194344 p) (hr : Sub 0xe060000000000000000000000000000000000000000000000000000000000000000000000000000000000000000000000000000000000000000000000000000000000000000000000000000000000000000000000000000000000000000000000000000000000000000000000000000000000000000000000000000000000000000000000000000000000000000000000000000000000000000000000000000000000000000000000000000000000000000000000000000000000000000000000000000000000000000000000033000000000000000000000000000000000000000 r) (h : Only p r s x) :
    Only p r s (State.capOverrun x a1 a2) := by
  unfold State.capOverrun
  repeat' first
    | with_reducible assumption
    | with_reducible refine Only.inc 161 R.TB_CAP_STATUS_OVERRUN_num (Sub.bits hr rfl) ?_
    | with_reducible refine State.post_only (Sub.trans rfl hp) (Sub.trans rfl hr) ?_
    | with_reducible refine State.detect_only (Sub.trans rfl hp) (Sub.trans rfl hr) ?_ ?_
    | with_reducible refine State.stampCapture_only (Sub.trans rfl hp) (Sub.trans rfl hr) ?_
    | with_reducible refine Only.ite ?_ ?_
    | intro _
    | (extract_lets +onlyGivenNames y; first | (refine Only.cut (x := y) ?_ ?_; subst y; rotate_left; clear_value y; intro _) | clear_value y)
    | split
    | dsimp only

theorem State.loadCounter_only {p r : Nat} {s x : State} {a1 : _} (hp : Sub 32 p) (hr : Sub 0 r) (h : Only p r s x) :
    Only p r s (State.loadCounter x a1) := by
  unfold State.loadCounter
  repeat' first
    | with_reducible assumption
    | with_reducible refine State.updTb_only (Sub.trans rfl hp) (Sub.trans rfl hr) ?_
    | intro _
    | (extract_lets +onlyGivenNames y; first | (refine Only.cut (x := y) ?_ ?_; subst y; rotate_left; clear_value y; intro _) | clear_value y)
    | dsimp only

theorem State.fracApply_only {p r : Nat} {s x : State} (hp : Sub 32 p) (hr : Sub 0x800000000000000000000000000000000 r) (h : Only p r s x) :
    Only p r s (State.fracApply x) := by
  unfold State.fracApply
  repeat' first
    | with_reducible assumption
    | with_reducible refine State.updTb_only (Sub.trans rfl hp) (Sub.trans rfl hr) ?_
    | with_reducible refine Only.seti 131 R.TB_ADDEND_FRAC_num (Sub.bits hr rfl) ?_
    | with_reducible refine Only.foldl ?_ ?_
    | intro _
    | (extract_lets +onlyGivenNames y; first | (refine Only.cut (x := y) ?_ ?_; subst y; rotate_left; clear_value y; intro _) | clear_value y)
    | dsimp only

theorem execFracApply_only {p r : Nat} {s : State} (hp : Sub 32 p) (hr : Sub 0x800000000000000000000000000000000 r) :
    ∃ t, execFracApply s = .next t ∧ Only p r s t := by
  unfold execFracApply
  refine ⟨_, rfl, ?_⟩
  have h : Only p r s s := Only.refl
  repeat' first
    | with_reducible assumption
    | with_reducible refine State.fracApply_only (Sub.trans rfl hp) (Sub.trans rfl hr) ?_

theorem State.capSettle_only {p r : Nat} {s x : State} {a1 : _} (hp : Sub 4194344 p) (hr : Sub 0xe060000000000000000000000000000000000000000000000000000000000000000000000000000000000000000000000000000000000000000000000000000000000000000000000000000000000000000000000000000000000000000000000000000000000000000000000000000000000000000000000000000000000000000000000000000000000000000000000000000000000000000000000000000000000000000000000000000000000000000000000000000000000000000000000000000000000000000000000033000000000000000000000000000000000000000 r) (h : Only p r s x) :
    Only p r s (State.capSettle x a1) := by
  unfold State.capSettle
  repeat' first
    | with_reducible assumption
    | with_reducible refine State.updTb_only (Sub.trans rfl hp) (Sub.trans rfl hr) ?_
    | with_reducible refine State.capOverrun_only (Sub.trans rfl hp) (Sub.trans rfl hr) ?_
    | with_reducible refine State.stampCapture_only (Sub.trans rfl hp) (Sub.trans rfl hr) ?_
    | with_reducible refine Only.ite ?_ ?_
    | intro _
    | (extract_lets +onlyGivenNames y; first | (refine Only.cut (x := y) ?_ ?_; subst y; rotate_left; clear_value y; intro _) | clear_value y)
    | split
    | dsimp only

theorem State.capture_only {p r : Nat} {s x : State} {a1 a2 : _} (hp : Sub 4194344 p) (hr : Sub 0xe060000000000000000000000000000000000000000000000000000000000000000000000000000000000000000000000000000000000000000000000000000000000000000000000000000000000000000000000000000000000000000000000000000000000000000000000000000000000000000000000000000000000000000000000000000000000000000000000000000000000000000000000000000000000000000000000000000000000000000000000000000000000000000000000000000000000000000000000033000000000000000000000000000000000000000 r) (h : Only p r s x) :
    Only p r s (State.capture x a1 a2) := by
  unfold State.capture
  repeat' first
    | with_reducible assumption
    | with_reducible refine State.capSettle_only (Sub.trans rfl hp) (Sub.trans rfl hr) ?_
    | with_reducible refine State.updTb_only (Sub.trans rfl hp) (Sub.trans rfl hr) ?_
    | with_reducible refine Only.inc 161 R.TB_CAP_STATUS_OVERRUN_num (Sub.bits hr rfl) ?_
    | with_reducible refine State.post_only (Sub.trans rfl hp) (Sub.trans rfl hr) ?_
    | with_reducible refine State.detect_only (Sub.trans rfl hp) (Sub.trans rfl hr) ?_ ?_
    | with_reducible refine State.stampCapture_only (Sub.trans rfl hp) (Sub.trans rfl hr) ?_
    | with_reducible refine Only.ite ?_ ?_
    | intro _
    | (extract_lets +onlyGivenNames y; first | (refine Only.cut (x := y) ?_ ?_; subst y; rotate_left; clear_value y; intro _) | clear_value y)
    | split
    | dsimp only

theorem State.captureEdge_only {p r : Nat} {s x : State} {a1 a2 a3 : _} (hp : Sub 4194344 p) (hr : Sub 0xe060000000000000000000000000000000000000000000000000000000000000000000000000000000000000000000000000000000000000000000000000000000000000000000000000000000000000000000000000000000000000000000000000000000000000000000000000000000000000000000000000000000000000000000000000000000000000000000000000000000000000000000000000000000000000000000000000000000000000000000000000000000000000000000000000000000000000000000000033000000000000000000000000000000000000000 r) (h : Only p r s x) :
    Only p r s (State.captureEdge x a1 a2 a3) := by
  unfold State.captureEdge
  repeat' first
    | with_reducible assumption
    | with_reducible refine State.capture_only (Sub.trans rfl hp) (Sub.trans rfl hr) ?_
    | with_reducible refine Only.ite ?_ ?_
    | split

theorem State.capRead_only {p r : Nat} {s x : State} {a1 : _} (hp : Sub 809500712 p) (hr : Sub 0xe06000000000000000000000000000000000000000000000000000000000000000000000000000000000000000000000000000000000000000000000000000000000000000000000000000000000000000000000000000000000000000000000000000000000000000000000000000000000000000000000000000000000000000000000000000000000000000000000000000000000000000000000000000000000000000000000000000000000000000000000000000000000000000000000000000000000000000000000003f000000000000000000000000000000000000000 r) (h : Only p r s x) :
    Only p r s (State.capRead x a1) := by
  unfold State.capRead
  repeat' first
    | with_reducible assumption
    | with_reducible refine Only.set 158 R.TB_CAP_SEC_LO_num (Sub.bits hr rfl) ?_
    | with_reducible refine Only.set 159 R.TB_CAP_SEC_HI_SEC_HI_num (Sub.bits hr rfl) ?_
    | with_reducible refine State.latch_only (Sub.trans rfl hp) (Sub.trans rfl hr) ?_
    | with_reducible refine Only.setBit 157 R.TB_CAP_NS_VALID_num (Sub.bits hr rfl) ?_
    | with_reducible refine State.capSettle_only (Sub.trans rfl hp) (Sub.trans rfl hr) ?_
    | with_reducible refine State.reply_only (Sub.trans rfl hp) (Sub.trans rfl hr) ?_
    | with_reducible refine Only.ite ?_ ?_
    | intro _
    | (extract_lets +onlyGivenNames y; first | (refine Only.cut (x := y) ?_ ?_; subst y; rotate_left; clear_value y; intro _) | clear_value y)
    | split
    | dsimp only

theorem execCapRead_only {p r : Nat} {s : State} {a0 : _} (hp : Sub 809500712 p) (hr : Sub 0xe06000000000000000000000000000000000000000000000000000000000000000000000000000000000000000000000000000000000000000000000000000000000000000000000000000000000000000000000000000000000000000000000000000000000000000000000000000000000000000000000000000000000000000000000000000000000000000000000000000000000000000000000000000000000000000000000000000000000000000000000000000000000000000000000000000000000000000000000003f000000000000000000000000000000000000000 r) :
    ∃ t, execCapRead a0 s = .next t ∧ Only p r s t := by
  unfold execCapRead
  refine ⟨_, rfl, ?_⟩
  have h : Only p r s s := Only.refl
  repeat' first
    | with_reducible assumption
    | with_reducible refine State.capRead_only (Sub.trans rfl hp) (Sub.trans rfl hr) ?_

theorem State.ppsFall_only {p r : Nat} {s x : State} (hp : Sub 32 p) (hr : Sub 0 r) (h : Only p r s x) :
    Only p r s (State.ppsFall x) := by
  unfold State.ppsFall
  repeat' first
    | with_reducible assumption
    | with_reducible refine State.updTb_only (Sub.trans rfl hp) (Sub.trans rfl hr) ?_
    | with_reducible refine Only.ite ?_ ?_
    | intro _
    | (extract_lets +onlyGivenNames y; first | (refine Only.cut (x := y) ?_ ?_; subst y; rotate_left; clear_value y; intro _) | clear_value y)
    | split
    | dsimp only

theorem execPpsOutFall_only {p r : Nat} {s : State} (hp : Sub 32 p) (hr : Sub 0 r) :
    ∃ t, execPpsOutFall s = .next t ∧ Only p r s t := by
  unfold execPpsOutFall
  refine ⟨_, rfl, ?_⟩
  have h : Only p r s s := Only.refl
  repeat' first
    | with_reducible assumption
    | with_reducible refine State.ppsFall_only (Sub.trans rfl hp) (Sub.trans rfl hr) ?_

theorem State.ptpLock_only {p r : Nat} {s x : State} {a1 : _} (hp : Sub 32 p) (hr : Sub 0x40000000000000000000000000000000000000 r) (h : Only p r s x) :
    Only p r s (State.ptpLock x a1) := by
  unfold State.ptpLock
  repeat' first
    | with_reducible assumption
    | with_reducible refine State.updTb_only (Sub.trans rfl hp) (Sub.trans rfl hr) ?_
    | with_reducible refine Only.setBit 150 R.TB_PTP_STATE_LOCK_num (Sub.bits hr rfl) ?_
    | with_reducible refine Only.ite ?_ ?_
    | intro _
    | (extract_lets +onlyGivenNames y; first | (refine Only.cut (x := y) ?_ ?_; subst y; rotate_left; clear_value y; intro _) | clear_value y)
    | split
    | dsimp only

theorem State.corrRefused_only {p r : Nat} {s x : State} {a1 a2 a3 : _} (hp : Sub 8 p) (hr : Sub 0x6000000000000000000000000000000000 r) (h : Only p r s x) :
    Only p r s (State.corrRefused x a1 a2 a3) := by
  unfold State.corrRefused
  repeat' first
    | with_reducible assumption
    | with_reducible refine Only.set 133 R.TB_CORR_STATUS_LAST_REASON_num (Sub.bits hr rfl) ?_
    | with_reducible refine Only.inc 134 R.TB_CORR_STATUS_REFUSED_COUNT_num (Sub.bits hr rfl) ?_
    | with_reducible refine State.post_only (Sub.trans rfl hp) (Sub.trans rfl hr) ?_
    | (extract_lets +onlyGivenNames y; first | (refine Only.cut (x := y) ?_ ?_; subst y; rotate_left; clear_value y; intro _) | clear_value y)
    | dsimp only

theorem State.alignRefused_only {p r : Nat} {s x : State} {a1 a2 : _} (hp : Sub 131080 p) (hr : Sub 0x38080300000000000000000000000000000000000000000000000000000000000000000000000000000000000000000000000000000000000000000000000000000000000000000000000000000000000000000000000000000000000000000000000000000000000000000000000000000000000000000000000000000000000000000000000000000000000000000000000000000000000000000000000000000000 r) (h : Only p r s x) :
    Only p r s (State.alignRefused x a1 a2) := by
  unfold State.alignRefused
  repeat' first
    | with_reducible assumption
    | with_reducible refine State.complete_only (Sub.trans rfl hp) (Sub.trans rfl hr) ?_
    | (extract_lets +onlyGivenNames y; first | (refine Only.cut (x := y) ?_ ?_; subst y; rotate_left; clear_value y; intro _) | clear_value y)
    | split
    | dsimp only

theorem State.serveStep_only {p r : Nat} {s x : State} {a1 a2 a3 a4 a5 : _} (hp : Sub 4325416 p) (hr : Sub 0xe060000000000000000000000000000000000000000000000000000000000000000000000000000000000000000000000000000000000000000000000000038080300000000000000000000000000000000000000000000000000000000000000000000000000000000000000000000000000000000000000000000000000000000000000000000000000000000000000000000000000000000000000000000000000000000000000000000000000000000000000000000000000000000000000000000000000000000000000000000016000000000000000000000000000000000 r) (h : Only p r s x) :
    Only p r s (State.serveStep x a1 a2 a3 a4 a5) := by
  unfold State.serveStep
  repeat' first
    | with_reducible assumption
    | with_reducible refine Only.snd (q := (State.inject _ _ _)) (by assumption) (State.inject_only (Sub.trans rfl hp) (Sub.trans rfl hr) ?_)
    | with_reducible refine State.inject_only (Sub.trans rfl hp) (Sub.trans rfl hr) ?_
    | with_reducible refine State.corrRefused_only (Sub.trans rfl hp) (Sub.trans rfl hr) ?_
    | with_reducible refine State.alignRefused_only (Sub.trans rfl hp) (Sub.trans rfl hr) ?_
    | with_reducible refine Only.setBit 136 R.TB_CORR_STATUS_STEP_ARMED_num (Sub.bits hr rfl) ?_
    | with_reducible refine Only.set 133 R.TB_CORR_STATUS_LAST_REASON_num (Sub.bits hr rfl) ?_
    | with_reducible refine State.updTb_only (Sub.trans rfl hp) (Sub.trans rfl hr) ?_
    | with_reducible refine Only.ite ?_ ?_
    | intro _
    | (extract_lets +onlyGivenNames y; first | (refine Only.cut (x := y) ?_ ?_; subst y; rotate_left; clear_value y; intro _) | (refine Only.cut (x := y.1) ?_ ?_; subst y; rotate_left; clear_value y; intro _) | (refine Only.cut (x := y.2) ?_ ?_; subst y; rotate_left; clear_value y; intro _) | (refine Only.cut (x := y.2.2) ?_ ?_; subst y; rotate_left; clear_value y; intro _) | clear_value y)
    | split
    | dsimp only

theorem State.serveFrac_only {p r : Nat} {s x : State} {a1 a2 : _} (hp : Sub 4194344 p) (hr : Sub 0xe060000000000000000000000000000000000000000000000000000000000000000000000000000000000000000000000000000000000000000000000000000000000000000000000000000000000000000000000000000000000000000000000000000000000000000000000000000000000000000000000000000000000000000000000000000000000000000000000000000000000000000000000000000000000000000000000000000000000000000000000000000000000000000000000000000000000000000000000000000006000000000000000000000000000000000 r) (h : Only p r s x) :
    Only p r s (State.serveFrac x a1 a2) := by
  unfold State.serveFrac
  repeat' first
    | with_reducible assumption
    | with_reducible refine Only.snd (q := (State.inject _ _ _)) (by assumption) (State.inject_only (Sub.trans rfl hp) (Sub.trans rfl hr) ?_)
    | with_reducible refine State.inject_only (Sub.trans rfl hp) (Sub.trans rfl hr) ?_
    | with_reducible refine State.corrRefused_only (Sub.trans rfl hp) (Sub.trans rfl hr) ?_
    | with_reducible refine Only.set 133 R.TB_CORR_STATUS_LAST_REASON_num (Sub.bits hr rfl) ?_
    | with_reducible refine State.updTb_only (Sub.trans rfl hp) (Sub.trans rfl hr) ?_
    | with_reducible refine Only.ite ?_ ?_
    | intro _
    | (extract_lets +onlyGivenNames y; first | (refine Only.cut (x := y) ?_ ?_; subst y; rotate_left; clear_value y; intro _) | (refine Only.cut (x := y.1) ?_ ?_; subst y; rotate_left; clear_value y; intro _) | (refine Only.cut (x := y.2) ?_ ?_; subst y; rotate_left; clear_value y; intro _) | (refine Only.cut (x := y.2.2) ?_ ?_; subst y; rotate_left; clear_value y; intro _) | clear_value y)
    | split
    | dsimp only

theorem State.serveCorr_only {p r : Nat} {s x : State} {a1 : _} (hp : Sub 4325416 p) (hr : Sub 0xe060000000000000000000000000000000000000000000000000000000000000000000000000000000000000000000000000000000000000000000000000038080300000000000000000000000000000000000000000000000000000000000000000000000000000000000000000000000000000000000000000000000000000000000000000000000000000000000000000000000000000000000000000000000000000000000000000000000000000000000000000000000000000000000000000000000000000000000000000000016000000000000000000000000000000000 r) (h : Only p r s x) :
    Only p r s (State.serveCorr x a1) := by
  unfold State.serveCorr
  repeat' first
    | with_reducible assumption
    | with_reducible refine State.serveStep_only (Sub.trans rfl hp) (Sub.trans rfl hr) ?_
    | with_reducible refine State.serveFrac_only (Sub.trans rfl hp) (Sub.trans rfl hr) ?_
    | (extract_lets +onlyGivenNames y; first | (refine Only.cut (x := y) ?_ ?_; subst y; rotate_left; clear_value y; intro _) | clear_value y)
    | split
    | dsimp only

theorem State.ptpPort_only {p r : Nat} {s x : State} {a1 : _} (hp : Sub 32 p) (hr : Sub 0x60000000000000000000000000000000000000 r) (h : Only p r s x) :
    Only p r s (State.ptpPort x a1) := by
  unfold State.ptpPort
  repeat' first
    | with_reducible assumption
    | with_reducible refine Only.set 149 R.TB_PTP_STATE_PORT_STATE_num (Sub.bits hr rfl) ?_
    | with_reducible refine Only.setBit 150 R.TB_PTP_STATE_LOCK_num (Sub.bits hr rfl) ?_
    | with_reducible refine State.updTb_only (Sub.trans rfl hp) (Sub.trans rfl hr) ?_
    | with_reducible refine Only.ite ?_ ?_
    | intro _
    | (extract_lets +onlyGivenNames y; first | (refine Only.cut (x := y) ?_ ?_; subst y; rotate_left; clear_value y; intro _) | clear_value y)
    | split
    | dsimp only

theorem State.ptpLost_only {p r : Nat} {s x : State} {a1 : _} (hp : Sub 4194344 p) (hr : Sub 0xe060000000000000000000000000000000000000000000000000000000000000000000000000000000000000000000000000000000000000000000000000000000000000000000000000000000000000000000000000000000000000000000000000000000000000000000000000000000000000000000000000000000000000000000000000000000000000000000000000000000000000000000000000000000000000000000000000000000000000000000000000000000000000000000000000000000000000000000000000060000000000000000000000000000000000000 r) (h : Only p r s x) :
    Only p r s (State.ptpLost x a1) := by
  unfold State.ptpLost
  repeat' first
    | with_reducible assumption
    | with_reducible refine State.post_only (Sub.trans rfl hp) (Sub.trans rfl hr) ?_
    | with_reducible refine State.detect_only (Sub.trans rfl hp) (Sub.trans rfl hr) ?_ ?_
    | with_reducible refine State.ptpPort_only (Sub.trans rfl hp) (Sub.trans rfl hr) ?_
    | intro _
    | (extract_lets +onlyGivenNames y; first | (refine Only.cut (x := y) ?_ ?_; subst y; rotate_left; clear_value y; intro _) | clear_value y)
    | dsimp only

theorem State.ptpMeasure_only {p r : Nat} {s x : State} {a1 : _} (hp : Sub 138412072 p) (hr : Sub 0xe060000000000000000000000000000000000000000000000000000000000000000000000000000000000000000000000000000000000000000000000000000000000000000000000000000000000000000000000000000000000000000000000000000000000000000000000000000000000000000000000000000000000000000000000000000000000000000000000000000000000000000000000000000000000000000000000000000000000000000000000000000000000000000000000000000000000000000000000000140000000000000000000000000000000000000 r) (h : Only p r s x) :
    Only p r s (State.ptpMeasure x a1) := by
  unfold State.ptpMeasure
  repeat' first
    | with_reducible assumption
    | with_reducible refine Only.seti 152 R.TB_PTP_OFFSET_num (Sub.bits hr rfl) ?_
    | with_reducible refine State.post_only (Sub.trans rfl hp) (Sub.trans rfl hr) ?_
    | with_reducible refine State.detect_only (Sub.trans rfl hp) (Sub.trans rfl hr) ?_ ?_
    | with_reducible refine State.ptpLock_only (Sub.trans rfl hp) (Sub.trans rfl hr) ?_
    | with_reducible refine State.ptpServo_only (Sub.trans rfl hp) (Sub.trans rfl hr) ?_
    | intro _
    | (extract_lets +onlyGivenNames y; first | (refine Only.cut (x := y) ?_ ?_; subst y; rotate_left; clear_value y; intro _) | clear_value y)
    | dsimp only

theorem State.ptpRx_only {p r : Nat} {s x : State} {a1 : _} (hp : Sub 138412072 p) (hr : Sub 0xe0600000000000000000000000000000000000000000000000000000000000000000000000000000000000000000000000000000000000000000000000000000000000000000000000000000000000000000000000000000000000000000000000000000000000000000000000000000000000000000000000000000000000000000000000000000000000000000000000000000000000000000000000000000000000000000000000000000000000000000000000000000000000000000000000000000000000000000000000001e0000000000000000000000000000000000000 r) (h : Only p r s x) :
    Only p r s (State.ptpRx x a1) := by
  unfold State.ptpRx
  repeat' first
    | with_reducible assumption
    | with_reducible refine Only.set 151 R.TB_PTP_STATE_DOMAIN_num (Sub.bits hr rfl) ?_
    | with_reducible refine State.ptpPort_only (Sub.trans rfl hp) (Sub.trans rfl hr) ?_
    | with_reducible refine State.updTb_only (Sub.trans rfl hp) (Sub.trans rfl hr) ?_
    | with_reducible refine State.ptpMeasure_only (Sub.trans rfl hp) (Sub.trans rfl hr) ?_
    | with_reducible refine Only.ite ?_ ?_
    | intro _
    | (extract_lets +onlyGivenNames y; first | (refine Only.cut (x := y) ?_ ?_; subst y; rotate_left; clear_value y; intro _) | clear_value y)
    | split
    | dsimp only

theorem State.goStep_only {p r : Nat} {s x : State} {a1 a2 a3 : _} (hp : Sub 32 p) (hr : Sub 0 r) (h : Only p r s x) :
    Only p r s (State.goStep x a1 a2 a3) := by
  unfold State.goStep
  repeat' first
    | with_reducible assumption
    | with_reducible refine State.askCorr_only (Sub.trans rfl hp) (Sub.trans rfl hr) ?_
    | (extract_lets +onlyGivenNames y; first | (refine Only.cut (x := y) ?_ ?_; subst y; rotate_left; clear_value y; intro _) | clear_value y)
    | dsimp only

theorem State.stepCommand_only {p r : Nat} {s x : State} {a1 a2 : _} (hp : Sub 32 p) (hr : Sub 0x400000000000000000000000000000000000 r) (h : Only p r s x) :
    Only p r s (State.stepCommand x a1 a2) := by
  unfold State.stepCommand
  repeat' first
    | with_reducible assumption
    | with_reducible refine Only.set 142 R.TB_STEP_CTRL_MODE_num (Sub.bits hr rfl) ?_
    | with_reducible refine State.goStep_only (Sub.trans rfl hp) (Sub.trans rfl hr) ?_
    | (extract_lets +onlyGivenNames y; first | (refine Only.cut (x := y) ?_ ?_; subst y; rotate_left; clear_value y; intro _) | clear_value y)
    | split
    | dsimp only

theorem execStepRelative_only {p r : Nat} {s : State} {a0 : _} (hp : Sub 32 p) (hr : Sub 0x400000000000000000000000000000000000 r) :
    ∃ t, execStepRelative a0 s = .next t ∧ Only p r s t := by
  unfold execStepRelative
  refine ⟨_, rfl, ?_⟩
  have h : Only p r s s := Only.refl
  repeat' first
    | with_reducible assumption
    | with_reducible refine State.stepCommand_only (Sub.trans rfl hp) (Sub.trans rfl hr) ?_

theorem State.cancelTrigger_only {p r : Nat} {s x : State} {a1 : _} (hp : Sub 2147483648 p) (hr : Sub 0x8040000000000000000000000000000000000000000 r) (h : Only p r s x) :
    Only p r s (State.cancelTrigger x a1) := by
  unfold State.cancelTrigger
  repeat' first
    | with_reducible assumption
    | with_reducible refine Only.setBit 162 R.TB_TRG_CTRL_ARM_num (Sub.bits hr rfl) ?_
    | with_reducible refine State.raiseBit_only 171 R.TB_TRG_STATUS_CANCELLED_num (Sub.bits hr rfl) (Sub.trans rfl hp) (Sub.trans rfl hr) ?_
    | with_reducible refine Only.ite ?_ ?_
    | split

theorem State.ptpTx_only {p r : Nat} {s x : State} {a1 : _} (hp : Sub 32 p) (hr : Sub 0 r) (h : Only p r s x) :
    Only p r s (State.ptpTx x a1) := by
  unfold State.ptpTx
  repeat' first
    | with_reducible assumption
    | with_reducible refine State.updTb_only (Sub.trans rfl hp) (Sub.trans rfl hr) ?_
    | with_reducible refine Only.ite ?_ ?_
    | intro _
    | (extract_lets +onlyGivenNames y; first | (refine Only.cut (x := y) ?_ ?_; subst y; rotate_left; clear_value y; intro _) | clear_value y)
    | split
    | dsimp only

theorem execCaptureEdge_only {p r : Nat} {s : State} {a0 a1 a2 : _} (hp : Sub 4194344 p) (hr : Sub 0xe060000000000000000000000000000000000000000000000000000000000000000000000000000000000000000000000000000000000000000000000000000000000000000000000000000000000000000000000000000000000000000000000000000000000000000000000000000000000000000000000000000000000000000000000000000000000000000000000000000000000000000000000000000000000000000000000000000000000000000000000000000000000000000000000000000000000000000000000033000000000000000000000000000000000000000 r) :
    ∃ t, execCaptureEdge a0 a1 a2 s = .next t ∧ Only p r s t := by
  unfold execCaptureEdge
  refine ⟨_, rfl, ?_⟩
  have h : Only p r s s := Only.refl
  repeat' first
    | with_reducible assumption
    | with_reducible refine State.captureEdge_only (Sub.trans rfl hp) (Sub.trans rfl hr) ?_

theorem execStepAbsolute_only {p r : Nat} {s : State} {a0 : _} (hp : Sub 32 p) (hr : Sub 0x400000000000000000000000000000000000 r) :
    ∃ t, execStepAbsolute a0 s = .next t ∧ Only p r s t := by
  unfold execStepAbsolute
  refine ⟨_, rfl, ?_⟩
  have h : Only p r s s := Only.refl
  repeat' first
    | with_reducible assumption
    | with_reducible refine State.stepCommand_only (Sub.trans rfl hp) (Sub.trans rfl hr) ?_

theorem State.trigAdvance_only {p r : Nat} {s x : State} {a1 : _} (hp : Sub 32 p) (hr : Sub 0x2040000000000000000000000000000000000000000 r) (h : Only p r s x) :
    Only p r s (State.trigAdvance x a1) := by
  unfold State.trigAdvance
  repeat' first
    | with_reducible assumption
    | with_reducible refine Only.inc 169 R.TB_TRG_STATUS_FIRED_num (Sub.bits hr rfl) ?_
    | with_reducible refine Only.setBit 162 R.TB_TRG_CTRL_ARM_num (Sub.bits hr rfl) ?_
    | with_reducible refine State.updTrig_only (Sub.trans rfl hp) (Sub.trans rfl hr) ?_
    | with_reducible refine Only.ite ?_ ?_
    | intro _
    | (extract_lets +onlyGivenNames y; first | (refine Only.cut (x := y) ?_ ?_; subst y; rotate_left; clear_value y; intro _) | clear_value y)
    | split
    | dsimp only

theorem State.rearmStep_only {p r : Nat} {s x : State} (_hp : Sub 0 p) (hr : Sub 0x18000000000000000000000000000000000 r) (h : Only p r s x) :
    Only p r s (State.rearmStep x) := by
  unfold State.rearmStep
  repeat' first
    | with_reducible assumption
    | with_reducible refine Only.setBit 136 R.TB_CORR_STATUS_STEP_ARMED_num (Sub.bits hr rfl) ?_
    | with_reducible refine Only.setBit 135 R.TB_CORR_STATUS_STEPPED_num (Sub.bits hr rfl) ?_

theorem execPtpMessageTx_only {p r : Nat} {s : State} {a0 : _} (hp : Sub 32 p) (hr : Sub 0 r) :
    ∃ t, execPtpMessageTx a0 s = .next t ∧ Only p r s t := by
  unfold execPtpMessageTx
  refine ⟨_, rfl, ?_⟩
  have h : Only p r s s := Only.refl
  repeat' first
    | with_reducible assumption
    | with_reducible refine State.ptpTx_only (Sub.trans rfl hp) (Sub.trans rfl hr) ?_

theorem State.corrRound_only {p r : Nat} {s x : State} (hp : Sub 4325416 p) (hr : Sub 0xe060000000000000000000000000000000000000000000000000000000000000000000000000000000000000000000000000000000000000000000000000038080300000000000000000000000000000000000000000000000000000000000000000000000000000000000000000000000000000000000000000000000000000000000000000000000000000000000000000000000000000000000000000000000000000000000000000000000000000000000000000000000000000000000000000000000000000000000000000000016000000000000000000000000000000000 r) (h : Only p r s x) :
    Only p r s (State.corrRound x) := by
  unfold State.corrRound
  repeat' first
    | with_reducible assumption
    | with_reducible refine State.updTb_only (Sub.trans rfl hp) (Sub.trans rfl hr) ?_
    | with_reducible refine State.serveCorr_only (Sub.trans rfl hp) (Sub.trans rfl hr) ?_
    | with_reducible refine Only.foldl ?_ ?_
    | intro _
    | (extract_lets +onlyGivenNames y; first | (refine Only.cut (x := y) ?_ ?_; subst y; rotate_left; clear_value y; intro _) | clear_value y)
    | dsimp only

theorem State.refReact_only {p r : Nat} {s x : State} {a1 a2 : _} (hp : Sub 33554456 p) (hr : Sub 0x800000000000000000000000000000000000 r) (h : Only p r s x) :
    Only p r s (State.refReact x a1 a2) := by
  unfold State.refReact
  repeat' first
    | with_reducible assumption
    | with_reducible refine Only.setBit 143 R.TB_REF_STATUS_LOCKED_num (Sub.bits hr rfl) ?_
    | with_reducible refine State.post_only (Sub.trans rfl hp) (Sub.trans rfl hr) ?_
    | with_reducible refine State.fault_only (Sub.trans rfl hp) (Sub.trans rfl hr) ?_
    | with_reducible refine Only.ite ?_ ?_
    | (extract_lets +onlyGivenNames y; first | (refine Only.cut (x := y) ?_ ?_; subst y; rotate_left; clear_value y; intro _) | clear_value y)
    | split
    | dsimp only
    | (first | (with_reducible refine Only.upd_pw (Sub.bits hp rfl) ?_; first | with_reducible assumption | with_reducible refine Only.setBit 143 R.TB_REF_STATUS_LOCKED_num (Sub.bits hr rfl) ?_ | with_reducible refine State.post_only (Sub.trans rfl hp) (Sub.trans rfl hr) ?_ | with_reducible refine State.fault_only (Sub.trans rfl hp) (Sub.trans rfl hr) ?_))

theorem State.captureStart_only {p r : Nat} {s x : State} {a1 a2 : _} (hp : Sub 4194344 p) (hr : Sub 0xe060000000000000000000000000000000000000000000000000000000000000000000000000000000000000000000000000000000000000000000000000000000000000000000000000000000000000000000000000000000000000000000000000000000000000000000000000000000000000000000000000000000000000000000000000000000000000000000000000000000000000000000000000000000000000000000000000000000000000000000000000000000000000000000000000000000000000000000000033000000000000000000000000000000000000000 r) (h : Only p r s x) :
    Only p r s (State.captureStart x a1 a2) := by
  unfold State.captureStart
  repeat' first
    | with_reducible assumption
    | with_reducible refine State.capture_only (Sub.trans rfl hp) (Sub.trans rfl hr) ?_
    | with_reducible refine Only.ite ?_ ?_
    | with_reducible refine Only.foldl ?_ ?_
    | intro _
    | split
    | dsimp only

theorem execPtpMessageRx_only {p r : Nat} {s : State} {a0 : _} (hp : Sub 138412072 p) (hr : Sub 0xe0600000000000000000000000000000000000000000000000000000000000000000000000000000000000000000000000000000000000000000000000000000000000000000000000000000000000000000000000000000000000000000000000000000000000000000000000000000000000000000000000000000000000000000000000000000000000000000000000000000000000000000000000000000000000000000000000000000000000000000000000000000000000000000000000000000000000000000000000001e0000000000000000000000000000000000000 r) :
    ∃ t, execPtpMessageRx a0 s = .next t ∧ Only p r s t := by
  unfold execPtpMessageRx
  refine ⟨_, rfl, ?_⟩
  have h : Only p r s s := Only.refl
  repeat' first
    | with_reducible assumption
    | with_reducible refine State.ptpRx_only (Sub.trans rfl hp) (Sub.trans rfl hr) ?_

theorem State.postTime_only {p r : Nat} {s x : State} {a1 : _} (hp : Sub 8 p) (_hr : Sub 0 r) (h : Only p r s x) :
    Only p r s (State.postTime x a1) := by
  unfold State.postTime
  repeat' first
    | with_reducible assumption
    | with_reducible refine Only.ite ?_ ?_
    | (extract_lets +onlyGivenNames y; first | (refine Only.cut (x := y) ?_ ?_; subst y; rotate_left; clear_value y; intro _) | clear_value y)
    | split
    | dsimp only
    | (first | (with_reducible refine Only.upd_posted (Sub.bits hp rfl) ?_; first | with_reducible assumption))

theorem State.applyStep_only {p r : Nat} {s x : State} {a1 : _} (hp : Sub 2147614760 p) (hr : Sub 0x38080300000000000000000000000000000000000000000000000000000000000000000000000000000000000000000000000000000000000000000000000000000000000000000000000000000000000000000000000000000000000000000000000000000000000000000000000000000000000000000000000000000000000000000000000000000000000008040000008000000000000000000000000000000000 r) (h : Only p r s x) :
    Only p r s (State.applyStep x a1) := by
  unfold State.applyStep
  repeat' first
    | with_reducible assumption
    | with_reducible refine State.loadCounter_only (Sub.trans rfl hp) (Sub.trans rfl hr) ?_
    | with_reducible refine State.cancelTrigger_only (Sub.trans rfl hp) (Sub.trans rfl hr) ?_
    | with_reducible refine State.updTb_only (Sub.trans rfl hp) (Sub.trans rfl hr) ?_
    | with_reducible refine State.alignDone_only (Sub.trans rfl hp) (Sub.trans rfl hr) ?_
    | with_reducible refine Only.setBit 135 R.TB_CORR_STATUS_STEPPED_num (Sub.bits hr rfl) ?_
    | with_reducible refine State.postTime_only (Sub.trans rfl hp) (Sub.trans rfl hr) ?_
    | with_reducible refine Only.ite ?_ ?_
    | with_reducible refine Only.foldl ?_ ?_
    | intro _
    | (extract_lets +onlyGivenNames y; first | (refine Only.cut (x := y) ?_ ?_; subst y; rotate_left; clear_value y; intro _) | clear_value y)
    | split
    | dsimp only

theorem State.stepApply_only {p r : Nat} {s x : State} (hp : Sub 2147614760 p) (hr : Sub 0x38080300000000000000000000000000000000000000000000000000000000000000000000000000000000000000000000000000000000000000000000000000000000000000000000000000000000000000000000000000000000000000000000000000000000000000000000000000000000000000000000000000000000000000000000000000000000000008040000008000000000000000000000000000000000 r) (h : Only p r s x) :
    Only p r s (State.stepApply x) := by
  unfold State.stepApply
  repeat' first
    | with_reducible assumption
    | with_reducible refine State.updTb_only (Sub.trans rfl hp) (Sub.trans rfl hr) ?_
    | with_reducible refine State.applyStep_only (Sub.trans rfl hp) (Sub.trans rfl hr) ?_
    | with_reducible refine Only.ite ?_ ?_
    | intro _
    | (extract_lets +onlyGivenNames y; first | (refine Only.cut (x := y) ?_ ?_; subst y; rotate_left; clear_value y; intro _) | clear_value y)
    | split
    | dsimp only

theorem execStepApply_only {p r : Nat} {s : State} (hp : Sub 2147614760 p) (hr : Sub 0x38080300000000000000000000000000000000000000000000000000000000000000000000000000000000000000000000000000000000000000000000000000000000000000000000000000000000000000000000000000000000000000000000000000000000000000000000000000000000000000000000000000000000000000000000000000000000000008040000008000000000000000000000000000000000 r) :
    ∃ t, execStepApply s = .next t ∧ Only p r s t := by
  unfold execStepApply
  refine ⟨_, rfl, ?_⟩
  have h : Only p r s s := Only.refl
  repeat' first
    | with_reducible assumption
    | with_reducible refine State.stepApply_only (Sub.trans rfl hp) (Sub.trans rfl hr) ?_

theorem State.relock_only {p r : Nat} {s x : State} (hp : Sub 32 p) (hr : Sub 0x1800000000000000000000000000000000000 r) (h : Only p r s x) :
    Only p r s (State.relock x) := by
  unfold State.relock
  repeat' first
    | with_reducible assumption
    | with_reducible refine Only.setBit 143 R.TB_REF_STATUS_LOCKED_num (Sub.bits hr rfl) ?_
    | with_reducible refine Only.setBit 144 R.TB_REF_STATUS_HOLDOVER_num (Sub.bits hr rfl) ?_
    | with_reducible refine State.updTb_only (Sub.trans rfl hp) (Sub.trans rfl hr) ?_
    | intro _
    | (extract_lets +onlyGivenNames y; first | (refine Only.cut (x := y) ?_ ?_; subst y; rotate_left; clear_value y; intro _) | clear_value y)
    | dsimp only

theorem State.ptpStep_only {p r : Nat} {s x : State} (hp : Sub 32 p) (hr : Sub 0 r) (h : Only p r s x) :
    Only p r s (State.ptpStep x) := by
  unfold State.ptpStep
  repeat' first
    | with_reducible assumption
    | with_reducible refine State.askCorr_only (Sub.trans rfl hp) (Sub.trans rfl hr) ?_
    | (extract_lets +onlyGivenNames y; first | (refine Only.cut (x := y) ?_ ?_; subst y; rotate_left; clear_value y; intro _) | clear_value y)
    | dsimp only

theorem execStepPtp_only {p r : Nat} {s : State} (hp : Sub 32 p) (hr : Sub 0x400000000000000000000000000000000000 r) :
    ∃ t, execStepPtp s = .next t ∧ Only p r s t := by
  unfold execStepPtp
  refine ⟨_, rfl, ?_⟩
  have h : Only p r s s := Only.refl
  repeat' first
    | with_reducible assumption
    | with_reducible refine Only.set 142 R.TB_STEP_CTRL_MODE_num (Sub.bits hr rfl) ?_
    | with_reducible refine State.ptpStep_only (Sub.trans rfl hp) (Sub.trans rfl hr) ?_

theorem State.refLoss_only {p r : Nat} {s x : State} {a1 : _} (hp : Sub 33554456 p) (hr : Sub 0x3800000000000000000000000000000000000 r) (h : Only p r s x) :
    Only p r s (State.refLoss x a1) := by
  unfold State.refLoss
  repeat' first
    | with_reducible assumption
    | with_reducible refine Only.setBit 144 R.TB_REF_STATUS_HOLDOVER_num (Sub.bits hr rfl) ?_
    | with_reducible refine Only.inc 145 R.TB_REF_STATUS_LOSS_COUNT_num (Sub.bits hr rfl) ?_
    | with_reducible refine State.refReact_only (Sub.trans rfl hp) (Sub.trans rfl hr) ?_

theorem execPtpMasterLost_only {p r : Nat} {s : State} {a0 : _} (hp : Sub 4194344 p) (hr : Sub 0xe060000000000000000000000000000000000000000000000000000000000000000000000000000000000000000000000000000000000000000000000000000000000000000000000000000000000000000000000000000000000000000000000000000000000000000000000000000000000000000000000000000000000000000000000000000000000000000000000000000000000000000000000000000000000000000000000000000000000000000000000000000000000000000000000000000000000000000000000000060000000000000000000000000000000000000 r) :
    ∃ t, execPtpMasterLost a0 s = .next t ∧ Only p r s t := by
  unfold execPtpMasterLost
  refine ⟨_, rfl, ?_⟩
  have h : Only p r s s := Only.refl
  repeat' first
    | with_reducible assumption
    | with_reducible refine State.ptpLost_only (Sub.trans rfl hp) (Sub.trans rfl hr) ?_

theorem execTbUnlock_only {p r : Nat} {s : State} (hp : Sub 37748760 p) (hr : Sub 0xe060000000000000000000000000000000000000000000000000000000000000000000000000000000000000000000000000000000000000000000000000000000000000000000000000000000000000000000000000000000000000000000000000000000000000000000000000000000000000000000000000000000000000000000000000000000000000000000000000000000000000000000000000000000000000000000000000000000000000000000000000000000000000000000000000000000000000000000000000000800000000000000000000000000000000000 r) :
    ∃ t, execTbUnlock s = .next t ∧ Only p r s t := by
  unfold execTbUnlock
  refine ⟨_, rfl, ?_⟩
  have h : Only p r s s := Only.refl
  repeat' first
    | with_reducible assumption
    | with_reducible refine State.refReact_only (Sub.trans rfl hp) (Sub.trans rfl hr) ?_
    | with_reducible refine State.detect_only (Sub.trans rfl hp) (Sub.trans rfl hr) ?_ ?_
    | intro _
    | dsimp only

theorem execTbRefLoss_only {p r : Nat} {s : State} (hp : Sub 37748760 p) (hr : Sub 0xe060000000000000000000000000000000000000000000000000000000000000000000000000000000000000000000000000000000000000000000000000000000000000000000000000000000000000000000000000000000000000000000000000000000000000000000000000000000000000000000000000000000000000000000000000000000000000000000000000000000000000000000000000000000000000000000000000000000000000000000000000000000000000000000000000000000000000000000000000003800000000000000000000000000000000000 r) :
    ∃ t, execTbRefLoss s = .next t ∧ Only p r s t := by
  unfold execTbRefLoss
  refine ⟨_, rfl, ?_⟩
  have h : Only p r s s := Only.refl
  repeat' first
    | with_reducible assumption
    | with_reducible refine State.refLoss_only (Sub.trans rfl hp) (Sub.trans rfl hr) ?_
    | with_reducible refine State.detect_only (Sub.trans rfl hp) (Sub.trans rfl hr) ?_ ?_
    | intro _
    | dsimp only

theorem execRefRelock_only {p r : Nat} {s : State} (hp : Sub 32 p) (hr : Sub 0x1800000000000000000000000000000000000 r) :
    ∃ t, execRefRelock s = .next t ∧ Only p r s t := by
  unfold execRefRelock
  refine ⟨_, rfl, ?_⟩
  have h : Only p r s s := Only.refl
  repeat' first
    | with_reducible assumption
    | with_reducible refine State.relock_only (Sub.trans rfl hp) (Sub.trans rfl hr) ?_

end Sys2Proof.Machine
end

