-- ==== Sys2Proof/Laws/OnlyAdc.lean ====
section
/-! SUPPORT. Footprints of the operations of Machine/Adc.lean. -/
namespace Sys2Proof.Machine
set_option linter.all false
set_option Elab.async false

theorem State.updAd_only {p r : Nat} {s x : State} {a1 : _} (hp : Sub 8388608 p) (_hr : Sub 0 r) (h : Only p r s x) :
    Only p r s (State.updAd x a1) := by
  unfold State.updAd
  repeat' first
    | with_reducible assumption
    | (extract_lets +onlyGivenNames y; first | (refine Only.cut (x := y) ?_ ?_; subst y; rotate_left; clear_value y; intro _) | clear_value y)
    | (first | (with_reducible refine Only.upd_ad (Sub.bits hp rfl) ?_; first | with_reducible assumption))

theorem State.startSeq_only {p r : Nat} {s x : State} {a1 a2 : _} (hp : Sub 12582952 p) (hr : Sub 0x400000000000000000000000000000e060000000000000000000000000000000000000000000000000000000000000000000000000000000000000000000000000000000000000000000000000000000000000000000000000000000000000000000000000000000000000000000000000000000000000000000000000000000000000000000000000000000000000000000000000000000000000000000000000000000000000000000000000000000000000000000000000000000000000000000000000000000000000000000000000000000000000000000000033000000000000000000000000000000000000000 r) (h : Only p r s x) :
    Only p r s (State.startSeq x a1 a2) := by
  unfold State.startSeq
  repeat' first
    | with_reducible assumption
    | with_reducible refine State.captureStart_only (Sub.trans rfl hp) (Sub.trans rfl hr) ?_
    | with_reducible refine Only.set 1922 R.AD_STAT_PASS_num (Sub.bits hr rfl) ?_
    | with_reducible refine State.updAd_only (Sub.trans rfl hp) (Sub.trans rfl hr) ?_
    | with_reducible refine Only.ite ?_ ?_
    | intro _
    | (extract_lets +onlyGivenNames y; first | (refine Only.cut (x := y) ?_ ?_; subst y; rotate_left; clear_value y; intro _) | clear_value y)
    | split
    | dsimp only

theorem State.startNext_only {p r : Nat} {s x : State} {a1 : _} (hp : Sub 12582952 p) (hr : Sub 0x400000000000000000000000000000e060000000000000000000000000000000000000000000000000000000000000000000000000000000000000000000000000000000000000000000000000000000000000000000000000000000000000000000000000000000000000000000000000000000000000000000000000000000000000000000000000000000000000000000000000000000000000000000000000000000000000000000000000000000000000000000000000000000000000000000000000000000000000000000000000000000000000000000000033000000000000000000000000000000000000000 r) (h : Only p r s x) :
    Only p r s (State.startNext x a1) := by
  unfold State.startNext
  repeat' first
    | with_reducible assumption
    | with_reducible refine State.updAd_only (Sub.trans rfl hp) (Sub.trans rfl hr) ?_
    | with_reducible refine State.startSeq_only (Sub.trans rfl hp) (Sub.trans rfl hr) ?_
    | with_reducible refine Only.ite ?_ ?_
    | intro _
    | (extract_lets +onlyGivenNames y; first | (refine Only.cut (x := y) ?_ ?_; subst y; rotate_left; clear_value y; intro _) | clear_value y)
    | split
    | dsimp only

theorem State.showAd_only {p r : Nat} {s x : State} (_hp : Sub 0 p) (hr : Sub 0x18000000000000000000000000000000000000000000000000000000000000000000000000000000000000000000000000000000000000000000000000000000000000000000000000000000000000000000000000000000000000000000000000000000000000000000000000000000000000000000000000000000000000000000000000000000000000000000000000000000000000000000000000000000000000000000000000000000000000000000000000000000000000000000000000000000000000000000000000000000000000000000000000000000000000000000000000000000000000000000000000 r) (h : Only p r s x) :
    Only p r s (State.showAd x) := by
  unfold State.showAd
  repeat' first
    | with_reducible assumption
    | with_reducible refine Only.setBit 1923 R.AD_STAT_BUSY_num (Sub.bits hr rfl) ?_
    | with_reducible refine Only.setBit 1924 R.AD_STAT_URG_PENDING_num (Sub.bits hr rfl) ?_

theorem State.adcKick_only {p r : Nat} {s x : State} (hp : Sub 12582952 p) (hr : Sub 0x1c00000000000000000000000000000e060000000000000000000000000000000000000000000000000000000000000000000000000000000000000000000000000000000000000000000000000000000000000000000000000000000000000000000000000000000000000000000000000000000000000000000000000000000000000000000000000000000000000000000000000000000000000000000000000000000000000000000000000000000000000000000000000000000000000000000000000000000000000000000000000000000000000000000000033000000000000000000000000000000000000000 r) (h : Only p r s x) :
    Only p r s (State.adcKick x) := by
  unfold State.adcKick
  repeat' first
    | with_reducible assumption
    | with_reducible refine State.startNext_only (Sub.trans rfl hp) (Sub.trans rfl hr) ?_
    | with_reducible refine State.showAd_only (Sub.trans rfl hp) (Sub.trans rfl hr) ?_
    | with_reducible refine Only.ite ?_ ?_
    | split

theorem State.adcTake_only {p r : Nat} {s x : State} {a1 a2 : _} (hp : Sub 12582920 p) (hr : Sub 0xe060000000000000000000000000000000000000000000000000000000000000000000000000000000000000000000000000000000000000000000000000000000000000000000000000000000000000000000000000000000000000000000000000000000000000000000000000000000000000000000000000000000000000000000000000000000000000000000000000000000000000000000000000000000000000000000000000000000000000000000000000000000000000000000000000000000000000000000000000000000000000000000000000000000000000000 r) (h : Only p r s x) :
    Only p r s (State.adcTake x a1 a2).2 := by
  unfold State.adcTake
  repeat' first
    | with_reducible assumption
    | with_reducible refine Only.snd (q := (State.inject _ _ _)) (by assumption) (State.inject_only (Sub.trans rfl hp) (Sub.trans rfl hr) ?_)
    | with_reducible refine State.inject_only (Sub.trans rfl hp) (Sub.trans rfl hr) ?_
    | with_reducible refine State.updAd_only (Sub.trans rfl hp) (Sub.trans rfl hr) ?_
    | with_reducible refine Only.ite ?_ ?_
    | intro _
    | (extract_lets +onlyGivenNames y; first | (refine Only.cut (x := y) ?_ ?_; subst y; rotate_left; clear_value y; intro _) | (refine Only.cut (x := y.1) ?_ ?_; subst y; rotate_left; clear_value y; intro _) | (refine Only.cut (x := y.2) ?_ ?_; subst y; rotate_left; clear_value y; intro _) | (refine Only.cut (x := y.2.2) ?_ ?_; subst y; rotate_left; clear_value y; intro _) | clear_value y)
    | split
    | dsimp only

theorem State.limitTest_only {p r : Nat} {s x : State} {a1 a2 : _} (hp : Sub 8388608 p) (hr : Sub 0x400000000000000000000000000000000000000000000000000000000000000000000000000000000000000000000000000000000000000000000000000000000000000000000000000000000000000000000000000000000000000000000000000000000000000000000000000000000000000000000000000000000000000000000000000000000000000000000000000000000000000000000000000000000000000000000000000000000000000000000000000000000000000000000000000000000000000000000000000000000000000000000000000000000000000000000000000000000000000000000000000000 r) (h : Only p r s x) :
    Only p r s (State.limitTest x a1 a2) := by
  unfold State.limitTest
  repeat' first
    | with_reducible assumption
    | with_reducible refine State.updAd_only (Sub.trans rfl hp) (Sub.trans rfl hr) ?_
    | with_reducible refine Only.setBit 1942 R.AD_RES_STAT_OUT_num (Sub.bits hr rfl) ?_
    | with_reducible refine Only.ite ?_ ?_
    | intro _
    | (extract_lets +onlyGivenNames y; first | (refine Only.cut (x := y) ?_ ?_; subst y; rotate_left; clear_value y; intro _) | clear_value y)
    | split
    | dsimp only

theorem State.adcResult_only {p r : Nat} {s x : State} {a1 a2 a3 : _} (hp : Sub 8388608 p) (hr : Sub 0x780000000000000000000000000000000000000000000000000000000000000000000000000000000000000000000000000000000000000000000000000000000000000000000000000000000000000000000000000000000000000000000000000000000000000000000000000000000000000000000000000000000000000000000000000000000000000000000000000000000000000000000000000000000000000000000000000000000000000000000000000000000000000000000000000000000000000000000000000000000000000000000000000000000000000000000000000000000000000000000000000000 r) (h : Only p r s x) :
    Only p r s (State.adcResult x a1 a2 a3) := by
  unfold State.adcResult
  repeat' first
    | with_reducible assumption
    | with_reducible refine Only.seti 1939 R.AD_RES_num (Sub.bits hr rfl) ?_
    | with_reducible refine Only.set 1940 R.AD_RES_STAT_PASS_num (Sub.bits hr rfl) ?_
    | with_reducible refine Only.setBit 1941 R.AD_RES_STAT_URGENT_num (Sub.bits hr rfl) ?_
    | with_reducible refine State.limitTest_only (Sub.trans rfl hp) (Sub.trans rfl hr) ?_
    | (extract_lets +onlyGivenNames y; first | (refine Only.cut (x := y) ?_ ?_; subst y; rotate_left; clear_value y; intro _) | clear_value y)
    | dsimp only

theorem State.passOn_only {p r : Nat} {s x : State} {a1 : _} (hp : Sub 8388608 p) (hr : Sub 0 r) (h : Only p r s x) :
    Only p r s (State.passOn x a1) := by
  unfold State.passOn
  repeat' first
    | with_reducible assumption
    | with_reducible refine State.updAd_only (Sub.trans rfl hp) (Sub.trans rfl hr) ?_
    | with_reducible refine Only.ite ?_ ?_
    | intro _
    | (extract_lets +onlyGivenNames y; first | (refine Only.cut (x := y) ?_ ?_; subst y; rotate_left; clear_value y; intro _) | clear_value y)
    | split
    | dsimp only

theorem State.conversionEnd_only {p r : Nat} {s x : State} {a1 : _} (hp : Sub 12582952 p) (hr : Sub 0x78001c00000000000000000000000000000e060000000000000000000000000000000000000000000000000000000000000000000000000000000000000000000000000000000000000000000000000000000000000000000000000000000000000000000000000000000000000000000000000000000000000000000000000000000000000000000000000000000000000000000000000000000000000000000000000000000000000000000000000000000000000000000000000000000000000000000000000000000000000000000000000000000000000000000000033000000000000000000000000000000000000000 r) (h : Only p r s x) :
    Only p r s (State.conversionEnd x a1) := by
  unfold State.conversionEnd
  repeat' first
    | with_reducible assumption
    | with_reducible refine Only.snd (q := (State.adcTake _ _ _)) (by assumption) (State.adcTake_only (Sub.trans rfl hp) (Sub.trans rfl hr) ?_)
    | with_reducible refine State.adcTake_only (Sub.trans rfl hp) (Sub.trans rfl hr) ?_
    | with_reducible refine State.adcResult_only (Sub.trans rfl hp) (Sub.trans rfl hr) ?_
    | with_reducible refine State.passOn_only (Sub.trans rfl hp) (Sub.trans rfl hr) ?_
    | with_reducible refine State.updAd_only (Sub.trans rfl hp) (Sub.trans rfl hr) ?_
    | with_reducible refine State.startNext_only (Sub.trans rfl hp) (Sub.trans rfl hr) ?_
    | with_reducible refine State.showAd_only (Sub.trans rfl hp) (Sub.trans rfl hr) ?_
    | with_reducible refine Only.ite ?_ ?_
    | intro _
    | (extract_lets +onlyGivenNames y; first | (refine Only.cut (x := y) ?_ ?_; subst y; rotate_left; clear_value y; intro _) | (refine Only.cut (x := y.1) ?_ ?_; subst y; rotate_left; clear_value y; intro _) | (refine Only.cut (x := y.2) ?_ ?_; subst y; rotate_left; clear_value y; intro _) | (refine Only.cut (x := y.2.2) ?_ ?_; subst y; rotate_left; clear_value y; intro _) | clear_value y)
    | split
    | dsimp only

theorem execAdcConversionEnd_only {p r : Nat} {s : State} {a0 : _} (hp : Sub 12582952 p) (hr : Sub 0x78001c00000000000000000000000000000e060000000000000000000000000000000000000000000000000000000000000000000000000000000000000000000000000000000000000000000000000000000000000000000000000000000000000000000000000000000000000000000000000000000000000000000000000000000000000000000000000000000000000000000000000000000000000000000000000000000000000000000000000000000000000000000000000000000000000000000000000000000000000000000000000000000000000000000000033000000000000000000000000000000000000000 r) :
    ∃ t, execAdcConversionEnd a0 s = .next t ∧ Only p r s t := by
  unfold execAdcConversionEnd
  refine ⟨_, rfl, ?_⟩
  have h : Only p r s s := Only.refl
  repeat' first
    | with_reducible assumption
    | with_reducible refine State.conversionEnd_only (Sub.trans rfl hp) (Sub.trans rfl hr) ?_

theorem State.urgent_only {p r : Nat} {s x : State} {a1 : _} (hp : Sub 8388608 p) (hr : Sub 0x298000000000000000000000000000000000000000000000000000000000000000000000000000000000000000000000000000000000000000000000000000000000000000000000000000000000000000000000000000000000000000000000000000000000000000000000000000000000000000000000000000000000000000000000000000000000000000000000000000000000000000000000000000000000000000000000000000000000000000000000000000000000000000000000000000000000000000000000000000000000000000000000000000000000000000000000000000000000000000000000000 r) (h : Only p r s x) :
    Only p r s (State.urgent x a1) := by
  unfold State.urgent
  repeat' first
    | with_reducible assumption
    | with_reducible refine Only.inc 1927 R.AD_COUNT_URG_DROP_num (Sub.bits hr rfl) ?_
    | with_reducible refine State.updAd_only (Sub.trans rfl hp) (Sub.trans rfl hr) ?_
    | with_reducible refine State.showAd_only (Sub.trans rfl hp) (Sub.trans rfl hr) ?_
    | with_reducible refine Only.inc 1929 R.AD_COUNT_ABORTS_num (Sub.bits hr rfl) ?_
    | with_reducible refine Only.ite ?_ ?_
    | intro _
    | (extract_lets +onlyGivenNames y; first | (refine Only.cut (x := y) ?_ ?_; subst y; rotate_left; clear_value y; intro _) | clear_value y)
    | split
    | dsimp only

theorem execAdcUrgentRequest_only {p r : Nat} {s : State} {a0 : _} (hp : Sub 8388608 p) (hr : Sub 0x298000000000000000000000000000000000000000000000000000000000000000000000000000000000000000000000000000000000000000000000000000000000000000000000000000000000000000000000000000000000000000000000000000000000000000000000000000000000000000000000000000000000000000000000000000000000000000000000000000000000000000000000000000000000000000000000000000000000000000000000000000000000000000000000000000000000000000000000000000000000000000000000000000000000000000000000000000000000000000000000000 r) :
    ∃ t, execAdcUrgentRequest a0 s = .next t ∧ Only p r s t := by
  unfold execAdcUrgentRequest
  refine ⟨_, rfl, ?_⟩
  have h : Only p r s s := Only.refl
  repeat' first
    | with_reducible assumption
    | with_reducible refine State.urgent_only (Sub.trans rfl hp) (Sub.trans rfl hr) ?_

theorem State.limitReact_only {p r : Nat} {s x : State} {a1 : _} (hp : Sub 16 p) (hr : Sub 0 r) (h : Only p r s x) :
    Only p r s (State.limitReact x a1) := by
  unfold State.limitReact
  repeat' first
    | with_reducible assumption
    | with_reducible refine State.fault_only (Sub.trans rfl hp) (Sub.trans rfl hr) ?_
    | (extract_lets +onlyGivenNames y; first | (refine Only.cut (x := y) ?_ ?_; subst y; rotate_left; clear_value y; intro _) | clear_value y)
    | split
    | dsimp only

theorem State.adcTrigger_only {p r : Nat} {s x : State} (hp : Sub 12582952 p) (hr : Sub 0x11c00000000000000000000000000000e060000000000000000000000000000000000000000000000000000000000000000000000000000000000000000000000000000000000000000000000000000000000000000000000000000000000000000000000000000000000000000000000000000000000000000000000000000000000000000000000000000000000000000000000000000000000000000000000000000000000000000000000000000000000000000000000000000000000000000000000000000000000000000000000000000000000000000000000033000000000000000000000000000000000000000 r) (h : Only p r s x) :
    Only p r s (State.adcTrigger x) := by
  unfold State.adcTrigger
  repeat' first
    | with_reducible assumption
    | with_reducible refine Only.inc 1928 R.AD_COUNT_TRG_OVERLAP_num (Sub.bits hr rfl) ?_
    | with_reducible refine State.updAd_only (Sub.trans rfl hp) (Sub.trans rfl hr) ?_
    | with_reducible refine State.startSeq_only (Sub.trans rfl hp) (Sub.trans rfl hr) ?_
    | with_reducible refine State.showAd_only (Sub.trans rfl hp) (Sub.trans rfl hr) ?_
    | with_reducible refine Only.ite ?_ ?_
    | intro _
    | (extract_lets +onlyGivenNames y; first | (refine Only.cut (x := y) ?_ ?_; subst y; rotate_left; clear_value y; intro _) | clear_value y)
    | split
    | dsimp only

theorem State.trigAct_only {p r : Nat} {s x : State} {a1 : _} (hp : Sub 12587304 p) (hr : Sub 0x11c00000000000000000000000000000e0600000000000000000000000000000000000000000000000000000000000000000000000000000000000000000000000000000000000000000000000000000000000000000000000000000000000000000000000000000000000000000000000000000000000000000000000000000000000000000000000000000000000000000000000000000000000000bfcd0000000000000000000000000000000000000000000000000000000000000000000000000000000000000000000000000000000000000000000000000000033000000000000000000000000000000000000000 r) (h : Only p r s x) :
    Only p r s (State.trigAct x a1) := by
  unfold State.trigAct
  repeat' first
    | with_reducible assumption
    | with_reducible refine State.adcTrigger_only (Sub.trans rfl hp) (Sub.trans rfl hr) ?_
    | with_reducible refine State.segTrigger_only (Sub.trans rfl hp) (Sub.trans rfl hr) ?_
    | with_reducible refine State.updPort_only (Sub.trans rfl hp) (Sub.trans rfl hr) ?_
    | with_reducible refine State.post_only (Sub.trans rfl hp) (Sub.trans rfl hr) ?_
    | with_reducible refine Only.ite ?_ ?_
    | intro _
    | (extract_lets +onlyGivenNames y; first | (refine Only.cut (x := y) ?_ ?_; subst y; rotate_left; clear_value y; intro _) | clear_value y)
    | split
    | dsimp only

theorem execTriggerFire_only {p r : Nat} {s : State} {a0 : _} (hp : Sub 12587304 p) (hr : Sub 0x11c00000000000000000000000000000e0600000000000000000000000000000000000000000000000000000000000000000000000000000000000000000000000000000000000000000000000000000000000000000000000000000000000000000000000000000000000000000000000000000000000000000000000000000000000000000000000000000000000000000000000000000000000000bfcd0000000000000000000000000000000000000000000000000000000000000000000000000000000000000000000000000000000000000000000000000002073000000000000000000000000000000000000000 r) :
    ∃ t, execTriggerFire a0 s = .next t ∧ Only p r s t := by
  unfold execTriggerFire
  refine ⟨_, rfl, ?_⟩
  have h : Only p r s s := Only.refl
  repeat' first
    | with_reducible assumption
    | with_reducible refine State.trigAdvance_only (Sub.trans rfl hp) (Sub.trans rfl hr) ?_
    | with_reducible refine State.trigAct_only (Sub.trans rfl hp) (Sub.trans rfl hr) ?_
    | with_reducible refine Only.ite ?_ ?_
    | split

theorem State.limitOut_only {p r : Nat} {s x : State} {a1 : _} (hp : Sub 24 p) (hr : Sub 0x400000000000000000000000000000000000000000000000000000000000000000000000000000000000000000000000000000000000000000000000000000000000000000000000000000000000000000000000000000000000000000000000000000000000000000000000000000000000000000000000000000000000000000000000000000000000000000000000000000000000000000000000000000000000000000000000000000000000000000000000000000000000000000000000000000000000000000000000000000000000000000000000000000000000000000000000000000000000000000000000000000 r) (h : Only p r s x) :
    Only p r s (State.limitOut x a1) := by
  unfold State.limitOut
  repeat' first
    | with_reducible assumption
    | with_reducible refine Only.setBit 1942 R.AD_RES_STAT_OUT_num (Sub.bits hr rfl) ?_
    | with_reducible refine State.post_only (Sub.trans rfl hp) (Sub.trans rfl hr) ?_
    | with_reducible refine State.limitReact_only (Sub.trans rfl hp) (Sub.trans rfl hr) ?_
    | with_reducible refine Only.ite ?_ ?_
    | intro _
    | (extract_lets +onlyGivenNames y; first | (refine Only.cut (x := y) ?_ ?_; subst y; rotate_left; clear_value y; intro _) | clear_value y)
    | split
    | dsimp only

theorem execAdLimit_only {p r : Nat} {s : State} {a0 : _} (hp : Sub 24 p) (hr : Sub 0x400000000000000000000000000000000000000000000000000000000000000000000000000000000000000000000000000000000000000000000000000000000000000000000000000000000000000000000000000000000000000000000000000000000000000000000000000000000000000000000000000000000000000000000000000000000000000000000000000000000000000000000000000000000000000000000000000000000000000000000000000000000000000000000000000000000000000000000000000000000000000000000000000000000000000000000000000000000000000000000000000000 r) :
    ∃ t, execAdLimit a0 s = .next t ∧ Only p r s t := by
  unfold execAdLimit
  refine ⟨_, rfl, ?_⟩
  have h : Only p r s s := Only.refl
  repeat' first
    | with_reducible assumption
    | with_reducible refine State.limitOut_only (Sub.trans rfl hp) (Sub.trans rfl hr) ?_

theorem execAdcResRead_only {p r : Nat} {s : State} {a0 : _} (hp : Sub 805306368 p) (hr : Sub 0 r) :
    ∃ t, execAdcResRead a0 s = .next t ∧ Only p r s t := by
  unfold execAdcResRead
  refine ⟨_, rfl, ?_⟩
  have h : Only p r s s := Only.refl
  repeat' first
    | with_reducible assumption
    | with_reducible refine State.latch_only (Sub.trans rfl hp) (Sub.trans rfl hr) ?_
    | with_reducible refine State.reply_only (Sub.trans rfl hp) (Sub.trans rfl hr) ?_
    | (extract_lets +onlyGivenNames y; first | (refine Only.cut (x := y) ?_ ?_; subst y; rotate_left; clear_value y; intro _) | clear_value y)
    | dsimp only

theorem State.limitsAgain_only {p r : Nat} {s x : State} (hp : Sub 16 p) (hr : Sub 0 r) (h : Only p r s x) :
    Only p r s (State.limitsAgain x) := by
  unfold State.limitsAgain
  repeat' first
    | with_reducible assumption
    | with_reducible refine State.limitReact_only (Sub.trans rfl hp) (Sub.trans rfl hr) ?_
    | with_reducible refine Only.ite ?_ ?_
    | with_reducible refine Only.foldl ?_ ?_
    | intro _
    | split
    | dsimp only

end Sys2Proof.Machine
end

