-- ==== Sys2Proof/Laws/OnlyEcc.lean ====
section
/-! SUPPORT. Footprints of the operations of Machine/Ecc.lean. -/
namespace Sys2Proof.Machine
set_option linter.all false
set_option Elab.async false

theorem State.injectUnless_only {p r : Nat} {s x : State} {a1 a2 a3 : _} (hp : Sub 4194312 p) (hr : Sub 0xe060000000000000000000000000000000000000000000000000000000000000000000000000000000000000000000000000000000000000000000000000000000000000000000000000000000000000000000000000000000000000000000000000000000000000000000000000000000000000000000000000000000000000000000000000000000000000000000000000000000000000000000000000000000000000000000000000000000000000000000000000000000000000000000000000000000000000000000000000000000000000000000000000000000000000000 r) (h : Only p r s x) :
    Only p r s (State.injectUnless x a1 a2 a3).2 := by
  unfold State.injectUnless
  split
  · exact h
  · exact State.inject_only (Sub.trans rfl hp) (Sub.trans rfl hr) h

theorem State.updTil_only {p r : Nat} {s x : State} {a1 a2 : _} (hp : Sub 1024 p) (_hr : Sub 0 r) (h : Only p r s x) :
    Only p r s (State.updTil x a1 a2) := by
  unfold State.updTil
  repeat' first
    | with_reducible assumption
    | intro _
    | (extract_lets +onlyGivenNames y; first | (refine Only.cut (x := y) ?_ ?_; subst y; rotate_left; clear_value y; intro _) | clear_value y)
    | dsimp only
    | (first | (with_reducible refine Only.upd_tl (Sub.bits hp rfl) ?_; first | with_reducible assumption))

theorem State.eccFatal_only {p r : Nat} {s x : State} {a1 a2 a3 a4 a5 : _} (hp : Sub 24 p) (hr : Sub 0 r) (h : Only p r s x) :
    Only p r s (State.eccFatal x a1 a2 a3 a4 a5) := by
  unfold State.eccFatal
  repeat' first
    | with_reducible assumption
    | with_reducible refine State.post_only (Sub.trans rfl hp) (Sub.trans rfl hr) ?_
    | with_reducible refine State.fatal_only (Sub.trans rfl hp) (Sub.trans rfl hr) ?_

theorem State.tillerRead_only {p r : Nat} {s x : State} {a1 a2 a3 : _} (hp : Sub 4195480 p) (hr : Sub 0xe060000000000000000000000000000000000000000000000000000000000000000000000000000000000000000000000000000000000000000000000000000000000000000000000000000000000000000000000000000000000000000000000000000000000000000000000000000000000000000000000000000000000000000000000000000000000000000000000000000000000000000000000000000100000000000000000000000000000000000000000000000000000000000000000000000000000000000000000000000000000000000000000000000000000000000 r) (h : Only p r s x) :
    Only p r s (State.tillerRead x a1 a2 a3).2 := by
  unfold State.tillerRead
  repeat' first
    | with_reducible assumption
    | with_reducible refine Only.snd (q := (State.inject _ _ _)) (by assumption) (State.inject_only (Sub.trans rfl hp) (Sub.trans rfl hr) ?_)
    | with_reducible refine State.inject_only (Sub.trans rfl hp) (Sub.trans rfl hr) ?_
    | with_reducible refine Only.snd (q := (State.injectUnless _ _ _ _)) (by assumption) (State.injectUnless_only (Sub.trans rfl hp) (Sub.trans rfl hr) ?_)
    | with_reducible refine State.injectUnless_only (Sub.trans rfl hp) (Sub.trans rfl hr) ?_
    | with_reducible refine State.updTil_only (Sub.trans rfl hp) (Sub.trans rfl hr) ?_
    | with_reducible refine State.eccFatal_only (Sub.trans rfl hp) (Sub.trans rfl hr) ?_
    | with_reducible refine Only.inc 524 R.TL_COUNT_ECC_CORR_num (Sub.bits hr rfl) ?_
    | with_reducible refine State.postOnce_only (Sub.trans rfl hp) (Sub.trans rfl hr) ?_
    | with_reducible refine Only.ite ?_ ?_
    | intro _
    | (extract_lets +onlyGivenNames y; first | (refine Only.cut (x := y) ?_ ?_; subst y; rotate_left; clear_value y; intro _) | (refine Only.cut (x := y.1) ?_ ?_; subst y; rotate_left; clear_value y; intro _) | (refine Only.cut (x := y.2) ?_ ?_; subst y; rotate_left; clear_value y; intro _) | (refine Only.cut (x := y.2.2) ?_ ?_; subst y; rotate_left; clear_value y; intro _) | clear_value y)
    | split
    | dsimp only

theorem State.heal_only {p r : Nat} {s x : State} {a1 : _} (hp : Sub 4294967296 p) (_hr : Sub 0 r) (h : Only p r s x) :
    Only p r s (State.heal x a1) := by
  unfold State.heal
  repeat' first
    | with_reducible assumption
    | intro _
    | (extract_lets +onlyGivenNames y; first | (refine Only.cut (x := y) ?_ ?_; subst y; rotate_left; clear_value y; intro _) | clear_value y)
    | dsimp only
    | (first | (with_reducible refine Only.upd_flips (Sub.bits hp rfl) ?_; first | with_reducible assumption))

theorem State.granaryRead_only {p r : Nat} {s x : State} {a1 : _} (hp : Sub 4433641624 p) (hr : Sub 0xe060000000000000000000000000000000000000000000000000000000000000000000000000000000000000000000000000000000000000000000000000000000000000000000000000000000000000000000000000000000000000000000000000000000000000000000000000000000000000000000000000000000000000000000000000000000000000000000000000000000000000000000000000000000000000000000000000000000000000000000000000000000000000000000000000000000000000000000000000000000000000000000000000000000000000000 r) (h : Only p r s x) :
    Only p r s (State.granaryRead x a1).2 := by
  unfold State.granaryRead
  repeat' first
    | with_reducible assumption
    | with_reducible refine Only.snd (q := (State.inject _ _ _)) (by assumption) (State.inject_only (Sub.trans rfl hp) (Sub.trans rfl hr) ?_)
    | with_reducible refine State.inject_only (Sub.trans rfl hp) (Sub.trans rfl hr) ?_
    | with_reducible refine State.heal_only (Sub.trans rfl hp) (Sub.trans rfl hr) ?_
    | with_reducible refine State.postOnce_only (Sub.trans rfl hp) (Sub.trans rfl hr) ?_
    | with_reducible refine State.draw_only (Sub.trans rfl hp) (Sub.trans rfl hr) ?_
    | with_reducible refine State.eccFatal_only (Sub.trans rfl hp) (Sub.trans rfl hr) ?_
    | intro _
    | (extract_lets +onlyGivenNames y; first | (refine Only.cut (x := y) ?_ ?_; subst y; rotate_left; clear_value y; intro _) | (refine Only.cut (x := y.1) ?_ ?_; subst y; rotate_left; clear_value y; intro _) | (refine Only.cut (x := y.2) ?_ ?_; subst y; rotate_left; clear_value y; intro _) | (refine Only.cut (x := y.2.2) ?_ ?_; subst y; rotate_left; clear_value y; intro _) | (have q : Granary := y; clear q; subst y) | clear_value y)
    | split
    | dsimp only
    | (first | (with_reducible refine Only.upd_gr (Sub.bits hp rfl) ?_ (fun k => ⟨Tab.wf_put _ _ k.1, k.2⟩); first | with_reducible assumption | with_reducible refine Only.snd (q := (State.inject _ _ _)) (by assumption) (State.inject_only (Sub.trans rfl hp) (Sub.trans rfl hr) ?_) | with_reducible refine State.inject_only (Sub.trans rfl hp) (Sub.trans rfl hr) ?_ | with_reducible refine State.heal_only (Sub.trans rfl hp) (Sub.trans rfl hr) ?_ | with_reducible refine State.postOnce_only (Sub.trans rfl hp) (Sub.trans rfl hr) ?_ | with_reducible refine State.draw_only (Sub.trans rfl hp) (Sub.trans rfl hr) ?_ | with_reducible refine State.eccFatal_only (Sub.trans rfl hp) (Sub.trans rfl hr) ?_))

theorem State.strike_only {p r : Nat} {s x : State} {a1 : _} (hp : Sub 4294968320 p) (hr : Sub 0 r) (h : Only p r s x) :
    Only p r s (State.strike x a1) := by
  unfold State.strike
  repeat' first
    | with_reducible assumption
    | with_reducible refine State.updTil_only (Sub.trans rfl hp) (Sub.trans rfl hr) ?_
    | intro _
    | (extract_lets +onlyGivenNames y; first | (refine Only.cut (x := y) ?_ ?_; subst y; rotate_left; clear_value y; intro _) | clear_value y)
    | split
    | dsimp only
    | (first | (with_reducible refine Only.upd_flips (Sub.bits hp rfl) ?_; first | with_reducible assumption | with_reducible refine State.updTil_only (Sub.trans rfl hp) (Sub.trans rfl hr) ?_))

theorem State.eccFound_only {p r : Nat} {s x : State} {a1 a2 a3 : _} (hp : Sub 4299161608 p) (hr : Sub 0xe060000000000000000000000000000000000000000000000000000000000000000000000000000000000000000000000000000000000000000000000000000000000000000000000000000000000000000000000000000000000000000000000000000000000000000000000000000000000000000000000000000000000000000000000000000000000000000000000000000000000000000000000000000000000000000000000000000000000000000000000000000000000000000000000000000000000000000000000000000000000000000000000000000000000000000 r) (h : Only p r s x) :
    Only p r s (State.eccFound x a1 a2 a3).2.2 := by
  unfold State.eccFound
  repeat' first
    | with_reducible assumption
    | with_reducible refine State.heal_only (Sub.trans rfl hp) (Sub.trans rfl hr) ?_
    | with_reducible refine Only.snd (q := (State.inject _ _ _)) (by assumption) (State.inject_only (Sub.trans rfl hp) (Sub.trans rfl hr) ?_)
    | with_reducible refine State.inject_only (Sub.trans rfl hp) (Sub.trans rfl hr) ?_
    | (extract_lets +onlyGivenNames y; first | (refine Only.cut (x := y) ?_ ?_; subst y; rotate_left; clear_value y; intro _) | (refine Only.cut (x := y.1) ?_ ?_; subst y; rotate_left; clear_value y; intro _) | (refine Only.cut (x := y.2) ?_ ?_; subst y; rotate_left; clear_value y; intro _) | (refine Only.cut (x := y.2.2) ?_ ?_; subst y; rotate_left; clear_value y; intro _) | clear_value y)
    | split
    | dsimp only

end Sys2Proof.Machine
end

