-- ==== Sys2Proof/Laws/OnlyEngine.lean ====
section
/-! SUPPORT. Footprints of the operations of Machine/Engine.lean. -/
namespace Sys2Proof.Machine
set_option linter.all false
set_option Elab.async false

theorem State.updEng_only {p r : Nat} {s x : State} {a1 a2 : _} (hp : Sub 8192 p) (_hr : Sub 0 r) (h : Only p r s x) :
    Only p r s (State.updEng x a1 a2) := by
  unfold State.updEng
  repeat' first
    | with_reducible assumption
    | intro _
    | (extract_lets +onlyGivenNames y; first | (refine Only.cut (x := y) ?_ ?_; subst y; rotate_left; clear_value y; intro _) | clear_value y)
    | dsimp only
    | (first | (with_reducible refine Only.upd_sv (Sub.bits hp rfl) ?_; first | with_reducible assumption))

theorem State.holdInputs_only {p r : Nat} {s x : State} {a1 : _} (hp : Sub 8192 p) (hr : Sub 0 r) (h : Only p r s x) :
    Only p r s (State.holdInputs x a1) := by
  unfold State.holdInputs
  repeat' first
    | with_reducible assumption
    | with_reducible refine State.updEng_only (Sub.trans rfl hp) (Sub.trans rfl hr) ?_
    | intro _
    | (extract_lets +onlyGivenNames y; first | (refine Only.cut (x := y) ?_ ?_; subst y; rotate_left; clear_value y; intro _) | clear_value y)
    | split
    | dsimp only

theorem State.askGrant_only {p r : Nat} {s x : State} {a1 a2 : _} (hp : Sub 8192 p) (hr : Sub 0x40000000000000000000000000000000000000000000000000000000000000000000000000000000000000000000000000000000000000000000000000000000000000000000000000000000000000000000000000000000000000000000000000000000000 r) (h : Only p r s x) :
    Only p r s (State.askGrant x a1 a2) := by
  unfold State.askGrant
  repeat' first
    | with_reducible assumption
    | with_reducible refine State.updEng_only (Sub.trans rfl hp) (Sub.trans rfl hr) ?_
    | with_reducible refine Only.inc 810 R.SV_RT_COUNT_B_GRANT_REFUSED_num (Sub.bits hr rfl) ?_
    | with_reducible refine Only.ite ?_ ?_
    | intro _
    | (extract_lets +onlyGivenNames y; first | (refine Only.cut (x := y) ?_ ?_; subst y; rotate_left; clear_value y; intro _) | clear_value y)
    | split
    | dsimp only

theorem State.solveStart_only {p r : Nat} {s x : State} {a1 a2 : _} (hp : Sub 8200 p) (hr : Sub 0x48100800000000000000000000000000000000000000000000000000000000000000000000000000000000000000000000000000000000000000000000000000000000000000000000000000000000000000000000000000000000000000000000000000000 r) (h : Only p r s x) :
    Only p r s (State.solveStart x a1 a2) := by
  unfold State.solveStart
  repeat' first
    | with_reducible assumption
    | with_reducible refine State.updEng_only (Sub.trans rfl hp) (Sub.trans rfl hr) ?_
    | with_reducible refine Only.inc 791 R.SV_SOLVES_num (Sub.bits hr rfl) ?_
    | with_reducible refine Only.set 800 R.SV_HASH_num (Sub.bits hr rfl) ?_
    | with_reducible refine Only.inc 807 R.SV_RT_COUNT_A_COLD_num (Sub.bits hr rfl) ?_
    | with_reducible refine State.post_only (Sub.trans rfl hp) (Sub.trans rfl hr) ?_
    | with_reducible refine State.askGrant_only (Sub.trans rfl hp) (Sub.trans rfl hr) ?_
    | with_reducible refine Only.ite ?_ ?_
    | intro _
    | (extract_lets +onlyGivenNames y; first | (refine Only.cut (x := y) ?_ ?_; subst y; rotate_left; clear_value y; intro _) | clear_value y)
    | split
    | dsimp only

end Sys2Proof.Machine
end

