-- ==== Sys2Proof/Laws/OnlyJobs.lean ====
section
/-! SUPPORT. Footprints of the operations of Machine/Jobs.lean. -/
namespace Sys2Proof.Machine
set_option linter.all false
set_option Elab.async false

theorem State.updTask_only {p r : Nat} {s x : State} {a1 a2 : _} (hp : Sub 32768 p) (_hr : Sub 0 r) (h : Only p r s x) :
    Only p r s (State.updTask x a1 a2) := by
  unfold State.updTask
  repeat' first
    | with_reducible assumption
    | intro _
    | (extract_lets +onlyGivenNames y; first | (refine Only.cut (x := y) ?_ ?_; subst y; rotate_left; clear_value y; intro _) | clear_value y)
    | dsimp only
    | (first | (with_reducible refine Only.upd_sch (Sub.bits hp rfl) ?_; first | with_reducible assumption))

theorem State.showLists_only {p r : Nat} {s x : State} (_hp : Sub 0 p) (hr : Sub 0xc000000000000000000000000000000000000000000000000000000000000000000000000000000000000000000000000000000000000000000000000000000000000000000000000000000000000000000000000000000000000000000000000000000000000000000000000000000000000000000000000000000000000000000 r) (h : Only p r s x) :
    Only p r s (State.showLists x) := by
  unfold State.showLists
  repeat' first
    | with_reducible assumption
    | with_reducible refine Only.set 1034 R.SCH_LIST_STAT_OCCUPANCY_num (Sub.bits hr rfl) ?_
    | with_reducible refine Only.raiseTo 1035 R.SCH_LIST_STAT_MAX_num (Sub.bits hr rfl) ?_
    | with_reducible refine Only.foldl ?_ ?_
    | intro _
    | dsimp only

theorem State.schedStart_only {p r : Nat} {s x : State} (hp : Sub 32768 p) (hr : Sub 0xc000000000000000000000000000000000000000000000000000000000000000000000000000000000000000000000000000000000000000000000000000000000000000000000000000000000000000000000000000000000000000000000000000000000000000000000000000000000000000000000000000000000000000000 r) (h : Only p r s x) :
    Only p r s (State.schedStart x) := by
  unfold State.schedStart
  repeat' first
    | with_reducible assumption
    | with_reducible refine State.updTask_only (Sub.trans rfl hp) (Sub.trans rfl hr) ?_
    | with_reducible refine State.showLists_only (Sub.trans rfl hp) (Sub.trans rfl hr) ?_
    | with_reducible refine Only.foldl ?_ ?_
    | intro _
    | (extract_lets +onlyGivenNames y; first | (refine Only.cut (x := y) ?_ ?_; subst y; rotate_left; clear_value y; intro _) | clear_value y)
    | dsimp only
    | (first | (with_reducible refine Only.upd_sch (Sub.bits hp rfl) ?_; first | with_reducible assumption | with_reducible refine State.updTask_only (Sub.trans rfl hp) (Sub.trans rfl hr) ?_ | with_reducible refine State.showLists_only (Sub.trans rfl hp) (Sub.trans rfl hr) ?_))

theorem State.schedStop_only {p r : Nat} {s x : State} (hp : Sub 32768 p) (hr : Sub 0xc000000000000000000000000000000000000000000000000000000000000000000000000000000000000000000000000000000000000000000000000000000000000000000000000000000000000000000000000000000000000000000000000000000000000000000000000000000000000000000000000000000000000000000 r) (h : Only p r s x) :
    Only p r s (State.schedStop x) := by
  unfold State.schedStop
  repeat' first
    | with_reducible assumption
    | with_reducible refine State.updTask_only (Sub.trans rfl hp) (Sub.trans rfl hr) ?_
    | with_reducible refine State.showLists_only (Sub.trans rfl hp) (Sub.trans rfl hr) ?_
    | with_reducible refine Only.ite ?_ ?_
    | with_reducible refine Only.foldl ?_ ?_
    | intro _
    | (extract_lets +onlyGivenNames y; first | (refine Only.cut (x := y) ?_ ?_; subst y; rotate_left; clear_value y; intro _) | clear_value y)
    | split
    | dsimp only
    | (first | (with_reducible refine Only.upd_sch (Sub.bits hp rfl) ?_; first | with_reducible assumption | with_reducible refine State.updTask_only (Sub.trans rfl hp) (Sub.trans rfl hr) ?_ | with_reducible refine State.showLists_only (Sub.trans rfl hp) (Sub.trans rfl hr) ?_))

theorem State.tillerStart_only {p r : Nat} {s x : State} {a1 : _} (hp : Sub 1024 p) (hr : Sub 0x1000000000000000000000000000000000000000000000000000000000000000000000000000000000000000000000000000000000000000000000000000000000 r) (h : Only p r s x) :
    Only p r s (State.tillerStart x a1) := by
  unfold State.tillerStart
  repeat' first
    | with_reducible assumption
    | with_reducible refine State.updTil_only (Sub.trans rfl hp) (Sub.trans rfl hr) ?_
    | with_reducible refine Only.set 516 R.TL_STAT_STATE_num (Sub.bits hr rfl) ?_
    | intro _
    | (extract_lets +onlyGivenNames y; first | (refine Only.cut (x := y) ?_ ?_; subst y; rotate_left; clear_value y; intro _) | clear_value y)
    | dsimp only

theorem State.startUnit_only {p r : Nat} {s x : State} {a1 : _} (hp : Sub 9224 p) (hr : Sub 0x48100800000000000000000000000000000000000000000000000000000000000000000001000000000000000000000000000000000000000000000000000000000000000000000000000000000000000000000000000000000000000000000000000000000 r) (h : Only p r s x) :
    Only p r s (State.startUnit x a1) := by
  unfold State.startUnit
  repeat' first
    | with_reducible assumption
    | with_reducible refine State.tillerStart_only (Sub.trans rfl hp) (Sub.trans rfl hr) ?_
    | with_reducible refine State.solveStart_only (Sub.trans rfl hp) (Sub.trans rfl hr) ?_
    | with_reducible refine Only.ite ?_ ?_
    | (extract_lets +onlyGivenNames y; first | (refine Only.cut (x := y) ?_ ?_; subst y; rotate_left; clear_value y; intro _) | clear_value y)
    | split
    | dsimp only

theorem State.missed_only {p r : Nat} {s x : State} {a1 a2 : _} (hp : Sub 32792 p) (hr : Sub 0x1000000020000000000000000000000000000000000000000000000000000000000000000000000000000000000000000000000000000000000000000000000000000000000000000000000000000000000000000000000000000000000000000000000000000000000000000000000000000000000000000000000000000000000000000 r) (h : Only p r s x) :
    Only p r s (State.missed x a1 a2) := by
  unfold State.missed
  repeat' first
    | with_reducible assumption
    | with_reducible refine State.updTask_only (Sub.trans rfl hp) (Sub.trans rfl hr) ?_
    | with_reducible refine Only.inc 1056 R.SCH_TASK_F_MISSES_num (Sub.bits hr rfl) ?_
    | with_reducible refine Only.inc 1025 R.SCH_COUNT_DEADLINE_MISS_num (Sub.bits hr rfl) ?_
    | with_reducible refine State.post_only (Sub.trans rfl hp) (Sub.trans rfl hr) ?_
    | with_reducible refine State.fault_only (Sub.trans rfl hp) (Sub.trans rfl hr) ?_
    | intro _
    | (extract_lets +onlyGivenNames y; first | (refine Only.cut (x := y) ?_ ?_; subst y; rotate_left; clear_value y; intro _) | clear_value y)
    | split
    | dsimp only

theorem State.lateEnd_only {p r : Nat} {s x : State} {a1 : _} (hp : Sub 32792 p) (hr : Sub 0x1000000020000000000000000000000000000000000000000000000000000000000000000000000000000000000000000000000000000000000000000000000000000000000000000000000000000000000000000000000000000000000000000000000000000000000000000000000000000000000000000000000000000000000000000 r) (h : Only p r s x) :
    Only p r s (State.lateEnd x a1) := by
  unfold State.lateEnd
  repeat' first
    | with_reducible assumption
    | with_reducible refine State.missed_only (Sub.trans rfl hp) (Sub.trans rfl hr) ?_
    | with_reducible refine Only.ite ?_ ?_
    | (extract_lets +onlyGivenNames y; first | (refine Only.cut (x := y) ?_ ?_; subst y; rotate_left; clear_value y; intro _) | clear_value y)
    | split
    | dsimp only

theorem State.dropRelease_only {p r : Nat} {s x : State} {a1 a2 : _} (hp : Sub 136 p) (hr : Sub 0x2000000040000000000000000000000000000000000000000000000000000000000000000000000000000000000000000000000000000000000000000000000000000000000000000000000000000000000000000000000000000000000000000000000000000000000000000000000000000000000000000000000000000000000000000 r) (h : Only p r s x) :
    Only p r s (State.dropRelease x a1 a2) := by
  unfold State.dropRelease
  repeat' first
    | with_reducible assumption
    | with_reducible refine Only.inc 1057 R.SCH_TASK_F_DROPS_num (Sub.bits hr rfl) ?_
    | with_reducible refine Only.inc 1026 R.SCH_COUNT_RELEASE_DROP_num (Sub.bits hr rfl) ?_
    | with_reducible refine State.postOnce_only (Sub.trans rfl hp) (Sub.trans rfl hr) ?_

theorem State.release_only {p r : Nat} {s x : State} {a1 a2 a3 : _} (hp : Sub 4227208 p) (hr : Sub 0xe060000000000000000000000000000000000000000000000000000000000000000000000000000000000000000000000000000000000000000000000000000000000000000000000000000000000000000000000000000000000000002000000040000000000000000000000000000000000000000000000000000000000000000000000000000000000000000000000000000000000000000000000000000000000000000000000000000000000000000000000000000000000000000000000000000000000000000000000000000000000000000000000000000000000000000 r) (h : Only p r s x) :
    Only p r s (State.release x a1 a2 a3) := by
  unfold State.release
  repeat' first
    | with_reducible assumption
    | with_reducible refine Only.snd (q := (State.inject _ _ _)) (by assumption) (State.inject_only (Sub.trans rfl hp) (Sub.trans rfl hr) ?_)
    | with_reducible refine State.inject_only (Sub.trans rfl hp) (Sub.trans rfl hr) ?_
    | with_reducible refine State.dropRelease_only (Sub.trans rfl hp) (Sub.trans rfl hr) ?_
    | with_reducible refine State.updTask_only (Sub.trans rfl hp) (Sub.trans rfl hr) ?_
    | with_reducible refine Only.ite ?_ ?_
    | intro _
    | (extract_lets +onlyGivenNames y; first | (refine Only.cut (x := y) ?_ ?_; subst y; rotate_left; clear_value y; intro _) | (refine Only.cut (x := y.1) ?_ ?_; subst y; rotate_left; clear_value y; intro _) | (refine Only.cut (x := y.2) ?_ ?_; subst y; rotate_left; clear_value y; intro _) | (refine Only.cut (x := y.2.2) ?_ ?_; subst y; rotate_left; clear_value y; intro _) | clear_value y)
    | split
    | dsimp only

theorem State.dispatch_only {p r : Nat} {s x : State} {a1 : _} (hp : Sub 41992 p) (hr : Sub 0x48100800000000000000000000000000000000000000000000000000000000000000000001000000000000000000000000000000000000000000000000000000000000000000000000000000000000000000000000000000000000000000000000000000000 r) (h : Only p r s x) :
    Only p r s (State.dispatch x a1) := by
  unfold State.dispatch
  repeat' first
    | with_reducible assumption
    | with_reducible refine State.updTask_only (Sub.trans rfl hp) (Sub.trans rfl hr) ?_
    | with_reducible refine State.startUnit_only (Sub.trans rfl hp) (Sub.trans rfl hr) ?_
    | intro _
    | (extract_lets +onlyGivenNames y; first | (refine Only.cut (x := y) ?_ ?_; subst y; rotate_left; clear_value y; intro _) | clear_value y)
    | dsimp only
    | (first | (with_reducible refine Only.upd_sch (Sub.bits hp rfl) ?_; first | with_reducible assumption | with_reducible refine State.updTask_only (Sub.trans rfl hp) (Sub.trans rfl hr) ?_ | with_reducible refine State.startUnit_only (Sub.trans rfl hp) (Sub.trans rfl hr) ?_))

theorem State.reservedDispatch_only {p r : Nat} {s x : State} {a1 : _} (hp : Sub 4236312 p) (hr : Sub 0xe060000000000000000000000000000000000000000000000000000000000000000000000000000000000000000000000000000000000000000000000000000000000000000000000000000000000000000000000000000000000000000000000000000000000000000000000000000000000000000000000000000048100800000000000000000000000000000000000000000000000000000000000000000001000000000000000000000000000000000000000000000000000000000000000000000000000000000000000000000000000000000000000000000000000000000 r) (h : Only p r s x) :
    Only p r s (State.reservedDispatch x a1) := by
  unfold State.reservedDispatch
  repeat' first
    | with_reducible assumption
    | with_reducible refine State.post_only (Sub.trans rfl hp) (Sub.trans rfl hr) ?_
    | with_reducible refine State.fault_only (Sub.trans rfl hp) (Sub.trans rfl hr) ?_
    | with_reducible refine State.detect_only (Sub.trans rfl hp) (Sub.trans rfl hr) ?_ ?_
    | with_reducible refine State.dispatch_only (Sub.trans rfl hp) (Sub.trans rfl hr) ?_
    | intro _
    | (extract_lets +onlyGivenNames y; first | (refine Only.cut (x := y) ?_ ?_; subst y; rotate_left; clear_value y; intro _) | clear_value y)
    | dsimp only

theorem State.clearJob_only {p r : Nat} {s x : State} {a1 : _} (hp : Sub 32768 p) (hr : Sub 0xc00000000000000000000000000000000000000000000000000000000000000000000000000000000000000000000000000000000000000000000000000000000000000000000000000000000000000000000000000000000000000000000000000000000000000000000000000000000000000000000000000000000000000000000000 r) (h : Only p r s x) :
    Only p r s (State.clearJob x a1) := by
  unfold State.clearJob
  repeat' first
    | with_reducible assumption
    | with_reducible refine Only.set 1054 R.SCH_TASK_E_RESP_LAST_num (Sub.bits hr rfl) ?_
    | with_reducible refine Only.raiseTo 1055 R.SCH_TASK_E_RESP_MAX_num (Sub.bits hr rfl) ?_
    | with_reducible refine State.updTask_only (Sub.trans rfl hp) (Sub.trans rfl hr) ?_
    | intro _
    | (extract_lets +onlyGivenNames y; first | (refine Only.cut (x := y) ?_ ?_; subst y; rotate_left; clear_value y; intro _) | clear_value y)
    | split
    | dsimp only

theorem State.jobEnd_only {p r : Nat} {s x : State} {a1 : _} (hp : Sub 4236440 p) (hr : Sub 0xe060000000000000000000000000000000000000000000000000000000000000000000000000000000000000000000000000000000000000000000000000000000000000000000000000000000000000000000000000000000000000003c00000060000000000000000000000000000000000000000000000000000048100800000000000000000000000000000000000000000000000000000000000000000001000000000000000000000000000000000000000000000000000000000000000000000000000000000000000000000000000000000000000000000000000000000 r) (h : Only p r s x) :
    Only p r s (State.jobEnd x a1) := by
  unfold State.jobEnd
  repeat' first
    | with_reducible assumption
    | with_reducible refine State.lateEnd_only (Sub.trans rfl hp) (Sub.trans rfl hr) ?_
    | with_reducible refine State.release_only (Sub.trans rfl hp) (Sub.trans rfl hr) ?_
    | with_reducible refine State.reservedDispatch_only (Sub.trans rfl hp) (Sub.trans rfl hr) ?_
    | with_reducible refine State.dispatch_only (Sub.trans rfl hp) (Sub.trans rfl hr) ?_
    | with_reducible refine State.clearJob_only (Sub.trans rfl hp) (Sub.trans rfl hr) ?_
    | with_reducible refine Only.ite ?_ ?_
    | with_reducible refine Only.foldl ?_ ?_
    | intro _
    | (extract_lets +onlyGivenNames y; first | (refine Only.cut (x := y) ?_ ?_; subst y; rotate_left; clear_value y; intro _) | clear_value y)
    | split
    | dsimp only

theorem State.unitEnd_only {p r : Nat} {s x : State} {a1 : _} (hp : Sub 4236440 p) (hr : Sub 0xe060000000000000000000000000000000000000000000000000000000000000000000000000000000000000000000000000000000000000000000000000000000000000000000000000000000000000000000000000000000000000003c00000060000000000000000000000000000000000000000000000000000048100800000000000000000000000000000000000000000000000000000000000000000001000000000000000000000000000000000000000000000000000000000000000000000000000000000000000000000000000000000000000000000000000000000 r) (h : Only p r s x) :
    Only p r s (State.unitEnd x a1) := by
  unfold State.unitEnd
  repeat' first
    | with_reducible assumption
    | with_reducible refine State.jobEnd_only (Sub.trans rfl hp) (Sub.trans rfl hr) ?_
    | intro _
    | (extract_lets +onlyGivenNames y; first | (refine Only.cut (x := y) ?_ ?_; subst y; rotate_left; clear_value y; intro _) | clear_value y)
    | split
    | dsimp only

theorem State.phasesEnd_only {p r : Nat} {s x : State} {a0 : _} (hp : Sub 4236440 p) (hr : Sub 0xe060000000000000000000000000000000000000000000000000000000000000000000000000000000000000000000000000000000000000000000000000000000000000000000000000000000000000000000000000000000000000003c00000060000000000000000000000000000000000000000000000000000048100800000000000000000000000000000000000000000000000000000000000000000001000000000000000000000000000000000000000000000000000000000000000000000000000000000000000000000000000000000000000000000000000000000 r) (h : Only p r s x) :
    Only p r s (State.phasesEnd a0 x) := by
  induction a0 generalizing x <;> unfold State.phasesEnd
  repeat' first
    | with_reducible assumption
    | with_reducible refine State.unitEnd_only (Sub.trans rfl hp) (Sub.trans rfl hr) ?_
    | with_reducible refine Only.ite ?_ ?_
    | split
    | dsimp only
    | with_reducible apply_assumption

theorem State.signalRelease_only {p r : Nat} {s x : State} {a1 : _} (hp : Sub 4227208 p) (hr : Sub 0xe060000000000000000000000000000000000000000000000000000000000000000000000000000000000000000000000000000000000000000000000000000000000000000000000000000000000000000000000000000000000000002000000040000000000000000000000000000000000000000000000000000000000000000000000000000000000000000000000000000000000000000000000000000000000000000000000000000000000000000000000000000000000000000000000000000000000000000000000000000000000000000000000000000000000000000 r) (h : Only p r s x) :
    Only p r s (State.signalRelease x a1) := by
  unfold State.signalRelease
  repeat' first
    | with_reducible assumption
    | with_reducible refine State.release_only (Sub.trans rfl hp) (Sub.trans rfl hr) ?_
    | with_reducible refine Only.foldl ?_ ?_
    | intro _
    | dsimp only

end Sys2Proof.Machine
end

