-- ==== Sys2Proof/Laws/OnlyTiller.lean ====
section
/-! SUPPORT. Footprints of the operations of Machine/Tiller.lean. -/
namespace Sys2Proof.Machine
set_option linter.all false
set_option Elab.async false

theorem State.xWrite_only {p r : Nat} {s x : State} {a1 a2 a3 a4 : _} (hp : Sub 1024 p) (hr : Sub 0x800000000000000000000000000000000000000000000000000000000000000000000000000000000000000000000000000000000000000000000000000000000000000000000000000000000000000000000000000000000000000000000000000000000000000000000000000000000000000000000000000000000000000000000000000000000000000000000000000000 r) (h : Only p r s x) :
    Only p r s (State.xWrite x a1 a2 a3 a4) := by
  unfold State.xWrite
  repeat' first
    | with_reducible assumption
    | with_reducible refine State.updTil_only (Sub.trans rfl hp) (Sub.trans rfl hr) ?_
    | with_reducible refine Only.inc 1175 R.ME_COUNT_HELD_num (Sub.bits hr rfl) ?_
    | with_reducible refine Only.ite ?_ ?_
    | intro _
    | (extract_lets +onlyGivenNames y; first | (refine Only.cut (x := y) ?_ ?_; subst y; rotate_left; clear_value y; intro _) | clear_value y)
    | split
    | dsimp only

theorem State.nextInsn_only {p r : Nat} {s x : State} {a1 : _} (hp : Sub 1024 p) (hr : Sub 0 r) (h : Only p r s x) :
    Only p r s (State.nextInsn x a1) := by
  unfold State.nextInsn
  repeat' first
    | with_reducible assumption
    | with_reducible refine State.updTil_only (Sub.trans rfl hp) (Sub.trans rfl hr) ?_
    | intro _
    | (extract_lets +onlyGivenNames y; first | (refine Only.cut (x := y) ?_ ?_; subst y; rotate_left; clear_value y; intro _) | clear_value y)
    | dsimp only

theorem State.lda_only {p r : Nat} {s x : State} {a1 a2 a3 a4 a5 a6 a7 : _} (hp : Sub 1024 p) (hr : Sub 0 r) (h : Only p r s x) :
    Only p r s (State.lda x a1 a2 a3 a4 a5 a6 a7) := by
  unfold State.lda
  repeat' first
    | with_reducible assumption
    | with_reducible refine State.updTil_only (Sub.trans rfl hp) (Sub.trans rfl hr) ?_
    | with_reducible refine State.nextInsn_only (Sub.trans rfl hp) (Sub.trans rfl hr) ?_
    | with_reducible refine Only.foldl ?_ ?_
    | intro _
    | (extract_lets +onlyGivenNames y; first | (refine Only.cut (x := y) ?_ ?_; subst y; rotate_left; clear_value y; intro _) | clear_value y)
    | dsimp only

theorem State.fetched_only {p r : Nat} {s x : State} {a1 a2 a3 : _} (hp : Sub 4195480 p) (hr : Sub 0xe060000000000000000000000000000000000000000000000000000000000000000000000000000000000000000000000000000000000000000000000000000000000000000000000000000000000000000000000000000000000000000000000000000000000000000000000000000000000000000000000000000000000000000000000000000000000000000000000000000000000000000000000000000100000000000000000000000000000000000000000000000000000000000000000000000000000000000000000000000000000000000000000000000000000000000 r) (h3 : ∀ y0, Only p r s y0 → Only p r s (a3 y0)) (h : Only p r s x) :
    Only p r s (State.fetched x a1 a2 a3) := by
  unfold State.fetched
  repeat' first
    | with_reducible assumption
    | with_reducible refine Only.snd (q := (State.tillerRead _ _ _ _)) (by assumption) (State.tillerRead_only (Sub.trans rfl hp) (Sub.trans rfl hr) ?_)
    | with_reducible refine State.tillerRead_only (Sub.trans rfl hp) (Sub.trans rfl hr) ?_
    | with_reducible refine State.nextInsn_only (Sub.trans rfl hp) (Sub.trans rfl hr) ?_
    | with_reducible apply h3
    | with_reducible refine Only.foldl ?_ ?_
    | with_reducible refine Only.foldl_fst ?_ ?_
    | with_reducible refine Only.foldl_snd ?_ ?_
    | intro _
    | (extract_lets +onlyGivenNames y; first | (refine Only.cut (x := y) ?_ ?_; subst y; rotate_left; clear_value y; intro _) | (refine Only.cut (x := y.1) ?_ ?_; subst y; rotate_left; clear_value y; intro _) | (refine Only.cut (x := y.2) ?_ ?_; subst y; rotate_left; clear_value y; intro _) | (refine Only.cut (x := y.2.2) ?_ ?_; subst y; rotate_left; clear_value y; intro _) | clear_value y)
    | split
    | dsimp only

theorem execLda_only {p r : Nat} {s : State} {a0 a1 a2 a3 a4 a5 a6 : _} (hw : Instr.wf (.lda a0 a1 a2 a3 a4 a5 a6) = true)  (hp : Sub 4195480 p) (hr : Sub 0xe060000000000000000000000000000000000000000000000000000000000000000000000000000000000000000000000000000000000000000000000000000000000000000000000000000000000000000000000000000000000000000000000000000000000000000000000000000000000000000000000000000000000000000000000000000000000000000000000000000000000000000000000000000100000000000000000000000000000000000000000000000000000000000000000000000000000000000000000000000000000000000000000000000000000000000 r) :
    ∃ t, execLda a0 a1 a2 a3 a4 a5 a6 s = .next t ∧ Only p r s t := by
  unfold execLda
  unfold checked
  rw [if_pos hw]
  refine ⟨_, rfl, ?_⟩
  have h : Only p r s s := Only.refl
  repeat' first
    | with_reducible assumption
    | with_reducible refine State.lda_only (Sub.trans rfl hp) (Sub.trans rfl hr) ?_
    | with_reducible refine State.fetched_only (Sub.trans rfl hp) (Sub.trans rfl hr) ?_ ?_
    | with_reducible refine Only.ite ?_ ?_
    | intro _
    | dsimp only

theorem State.jointReact_only {p r : Nat} {s x : State} {a1 a2 a3 a4 : _} (hp : Sub 16 p) (hr : Sub 0 r) (h : Only p r s x) :
    Only p r s (State.jointReact x a1 a2 a3 a4) := by
  unfold State.jointReact
  repeat' first
    | with_reducible assumption
    | with_reducible refine State.fault_only (Sub.trans rfl hp) (Sub.trans rfl hr) ?_
    | with_reducible refine Only.ite ?_ ?_
    | split

theorem State.accOvf_only {p r : Nat} {s x : State} {a1 a2 : _} (hp : Sub 2147483672 p) (hr : Sub 0x4000000000000000000000000000000000000000000000000000000000000000000000000000000000000000000000000000000000000000000000000000000000 r) (h : Only p r s x) :
    Only p r s (State.accOvf x a1 a2) := by
  unfold State.accOvf
  repeat' first
    | with_reducible assumption
    | with_reducible refine State.raiseBit_only 518 R.TL_STAT_ACC_OVF_num (Sub.bits hr rfl) (Sub.trans rfl hp) (Sub.trans rfl hr) ?_
    | with_reducible refine State.post_only (Sub.trans rfl hp) (Sub.trans rfl hr) ?_
    | with_reducible refine State.jointReact_only (Sub.trans rfl hp) (Sub.trans rfl hr) ?_
    | (extract_lets +onlyGivenNames y; first | (refine Only.cut (x := y) ?_ ?_; subst y; rotate_left; clear_value y; intro _) | clear_value y)
    | dsimp only

theorem State.ovfTest_only {p r : Nat} {s x : State} {a1 a2 : _} (hp : Sub 2151677976 p) (hr : Sub 0xe060000000000000000000000000000000000000000000000000000000000000000000000000000000000000000000000000000000000000000000000000000000000000000000000000000000000000000000000000000000000000000000000000000000000000000000000000000000000000000000000000000000000000000000000000000000000000000000000000000000000000000000000000000004000000000000000000000000000000000000000000000000000000000000000000000000000000000000000000000000000000000000000000000000000000000 r) (h : Only p r s x) :
    Only p r s (State.ovfTest x a1 a2) := by
  unfold State.ovfTest
  repeat' first
    | with_reducible assumption
    | with_reducible refine Only.snd (q := (State.inject _ _ _)) (by assumption) (State.inject_only (Sub.trans rfl hp) (Sub.trans rfl hr) ?_)
    | with_reducible refine State.inject_only (Sub.trans rfl hp) (Sub.trans rfl hr) ?_
    | with_reducible refine State.accOvf_only (Sub.trans rfl hp) (Sub.trans rfl hr) ?_
    | with_reducible refine Only.ite ?_ ?_
    | (extract_lets +onlyGivenNames y; first | (refine Only.cut (x := y) ?_ ?_; subst y; rotate_left; clear_value y; intro _) | (refine Only.cut (x := y.1) ?_ ?_; subst y; rotate_left; clear_value y; intro _) | (refine Only.cut (x := y.2) ?_ ?_; subst y; rotate_left; clear_value y; intro _) | (refine Only.cut (x := y.2.2) ?_ ?_; subst y; rotate_left; clear_value y; intro _) | clear_value y)
    | split
    | dsimp only

theorem State.accOp_only {p r : Nat} {s x : State} {a1 a2 a3 a4 a5 : _} (hp : Sub 2151679000 p) (hr : Sub 0xe060000000000000000000000000000000000000000000000000000000000000000000000000000000000000000000000000000000000000000000000000000000000000000000000000000000000000000000000000000000000000000000000000000000000000000000000000000000000000000000000000000000000000000000000000000000000000000000000000000000000000000000000000000004000000000000000000000000000000000000000000000000000000000000000000000000000000000000000000000000000000000000000000000000000000000 r) (h : Only p r s x) :
    Only p r s (State.accOp x a1 a2 a3 a4 a5) := by
  unfold State.accOp
  repeat' first
    | with_reducible assumption
    | with_reducible refine State.updTil_only (Sub.trans rfl hp) (Sub.trans rfl hr) ?_
    | with_reducible refine State.ovfTest_only (Sub.trans rfl hp) (Sub.trans rfl hr) ?_
    | with_reducible refine State.nextInsn_only (Sub.trans rfl hp) (Sub.trans rfl hr) ?_
    | with_reducible refine Only.ite ?_ ?_
    | intro _
    | (extract_lets +onlyGivenNames y; first | (refine Only.cut (x := y) ?_ ?_; subst y; rotate_left; clear_value y; intro _) | clear_value y)
    | split
    | dsimp only

theorem State.storeSat_only {p r : Nat} {s x : State} {a1 a2 a3 : _} (hp : Sub 2147484808 p) (hr : Sub 0x82000000000000000000000000000000000000000000000000000000000000000000000000000000000000000000000000000000000000000000000000000000000 r) (h : Only p r s x) :
    Only p r s (State.storeSat x a1 a2 a3) := by
  unfold State.storeSat
  repeat' first
    | with_reducible assumption
    | with_reducible refine State.raiseBit_only 517 R.TL_STAT_SAT_ST_num (Sub.bits hr rfl) (Sub.trans rfl hp) (Sub.trans rfl hr) ?_
    | with_reducible refine Only.add 523 R.TL_COUNT_SAT_COUNT_num (Sub.bits hr rfl) ?_
    | with_reducible refine State.updTil_only (Sub.trans rfl hp) (Sub.trans rfl hr) ?_
    | with_reducible refine State.postOnce_only (Sub.trans rfl hp) (Sub.trans rfl hr) ?_
    | with_reducible refine Only.ite ?_ ?_
    | intro _
    | (extract_lets +onlyGivenNames y; first | (refine Only.cut (x := y) ?_ ?_; subst y; rotate_left; clear_value y; intro _) | clear_value y)
    | split
    | dsimp only

theorem execAdda_only {p r : Nat} {s : State} {a0 a1 a2 a3 : _} (hw : Instr.wf (.adda a0 a1 a2 a3) = true)  (hp : Sub 2151679128 p) (hr : Sub 0xe060000000000000000000000000000000000000000000000000000000000000000000000000000000000000000000000000000000000000000000000000000000000000000000000000000000000000000000000000000000000000000000000000000000000000000000000000000000000000000000000000000000000000000000000000000000000000000000000000000000000000000000000000000104000000000000000000000000000000000000000000000000000000000000000000000000000000000000000000000000000000000000000000000000000000000 r) :
    ∃ t, execAdda a0 a1 a2 a3 s = .next t ∧ Only p r s t := by
  unfold execAdda
  unfold checked
  rw [if_pos hw]
  refine ⟨_, rfl, ?_⟩
  have h : Only p r s s := Only.refl
  repeat' first
    | with_reducible assumption
    | with_reducible refine State.accOp_only (Sub.trans rfl hp) (Sub.trans rfl hr) ?_
    | with_reducible refine State.fetched_only (Sub.trans rfl hp) (Sub.trans rfl hr) ?_ ?_
    | with_reducible refine Only.ite ?_ ?_
    | intro _
    | dsimp only

theorem execSuba_only {p r : Nat} {s : State} {a0 a1 a2 a3 : _} (hw : Instr.wf (.suba a0 a1 a2 a3) = true)  (hp : Sub 2151679128 p) (hr : Sub 0xe060000000000000000000000000000000000000000000000000000000000000000000000000000000000000000000000000000000000000000000000000000000000000000000000000000000000000000000000000000000000000000000000000000000000000000000000000000000000000000000000000000000000000000000000000000000000000000000000000000000000000000000000000000104000000000000000000000000000000000000000000000000000000000000000000000000000000000000000000000000000000000000000000000000000000000 r) :
    ∃ t, execSuba a0 a1 a2 a3 s = .next t ∧ Only p r s t := by
  unfold execSuba
  unfold checked
  rw [if_pos hw]
  refine ⟨_, rfl, ?_⟩
  have h : Only p r s s := Only.refl
  repeat' first
    | with_reducible assumption
    | with_reducible refine State.accOp_only (Sub.trans rfl hp) (Sub.trans rfl hr) ?_
    | with_reducible refine State.fetched_only (Sub.trans rfl hp) (Sub.trans rfl hr) ?_ ?_
    | with_reducible refine Only.ite ?_ ?_
    | intro _
    | dsimp only

theorem State.mova_only {p r : Nat} {s x : State} {a1 a2 a3 a4 : _} (hp : Sub 1024 p) (hr : Sub 0 r) (h : Only p r s x) :
    Only p r s (State.mova x a1 a2 a3 a4) := by
  unfold State.mova
  repeat' first
    | with_reducible assumption
    | with_reducible refine State.updTil_only (Sub.trans rfl hp) (Sub.trans rfl hr) ?_
    | with_reducible refine State.nextInsn_only (Sub.trans rfl hp) (Sub.trans rfl hr) ?_
    | with_reducible refine Only.ite ?_ ?_
    | intro _
    | (extract_lets +onlyGivenNames y; first | (refine Only.cut (x := y) ?_ ?_; subst y; rotate_left; clear_value y; intro _) | clear_value y)
    | split
    | dsimp only

theorem State.clamp_only {p r : Nat} {s x : State} {a1 a2 a3 a4 : _} (hp : Sub 1024 p) (hr : Sub 0 r) (h : Only p r s x) :
    Only p r s (State.clamp x a1 a2 a3 a4) := by
  unfold State.clamp
  repeat' first
    | with_reducible assumption
    | with_reducible refine State.updTil_only (Sub.trans rfl hp) (Sub.trans rfl hr) ?_
    | with_reducible refine State.nextInsn_only (Sub.trans rfl hp) (Sub.trans rfl hr) ?_
    | with_reducible refine Only.foldl ?_ ?_
    | intro _
    | (extract_lets +onlyGivenNames y; first | (refine Only.cut (x := y) ?_ ?_; subst y; rotate_left; clear_value y; intro _) | clear_value y)
    | dsimp only

theorem execClamp_only {p r : Nat} {s : State} {a0 a1 a2 a3 : _} (hw : Instr.wf (.clamp a0 a1 a2 a3) = true)  (hp : Sub 4195480 p) (hr : Sub 0xe060000000000000000000000000000000000000000000000000000000000000000000000000000000000000000000000000000000000000000000000000000000000000000000000000000000000000000000000000000000000000000000000000000000000000000000000000000000000000000000000000000000000000000000000000000000000000000000000000000000000000000000000000000100000000000000000000000000000000000000000000000000000000000000000000000000000000000000000000000000000000000000000000000000000000000 r) :
    ∃ t, execClamp a0 a1 a2 a3 s = .next t ∧ Only p r s t := by
  unfold execClamp
  unfold checked
  rw [if_pos hw]
  refine ⟨_, rfl, ?_⟩
  have h : Only p r s s := Only.refl
  repeat' first
    | with_reducible assumption
    | with_reducible refine State.clamp_only (Sub.trans rfl hp) (Sub.trans rfl hr) ?_
    | with_reducible refine State.fetched_only (Sub.trans rfl hp) (Sub.trans rfl hr) ?_ ?_
    | intro _
    | dsimp only

theorem State.storeTest_only {p r : Nat} {s x : State} {a1 a2 : _} (hp : Sub 2151679112 p) (hr : Sub 0xe060000000000000000000000000000000000000000000000000000000000000000000000000000000000000000000000000000000000000000000000000000000000000000000000000000000000000000000000000000000000000000000000000000000000000000000000000000000000000000000000000000000000000000000000000000000000000000000000000000000000000000000000000000082000000000000000000000000000000000000000000000000000000000000000000000000000000000000000000000000000000000000000000000000000000000 r) (h : Only p r s x) :
    Only p r s (State.storeTest x a1 a2) := by
  unfold State.storeTest
  repeat' first
    | with_reducible assumption
    | with_reducible refine Only.snd (q := (State.inject _ _ _)) (by assumption) (State.inject_only (Sub.trans rfl hp) (Sub.trans rfl hr) ?_)
    | with_reducible refine State.inject_only (Sub.trans rfl hp) (Sub.trans rfl hr) ?_
    | with_reducible refine State.storeSat_only (Sub.trans rfl hp) (Sub.trans rfl hr) ?_
    | (extract_lets +onlyGivenNames y; first | (refine Only.cut (x := y) ?_ ?_; subst y; rotate_left; clear_value y; intro _) | (refine Only.cut (x := y.1) ?_ ?_; subst y; rotate_left; clear_value y; intro _) | (refine Only.cut (x := y.2) ?_ ?_; subst y; rotate_left; clear_value y; intro _) | (refine Only.cut (x := y.2.2) ?_ ?_; subst y; rotate_left; clear_value y; intro _) | clear_value y)
    | split
    | dsimp only

theorem State.st_only {p r : Nat} {s x : State} {a1 a2 a3 a4 a5 a6 a7 : _} (hp : Sub 2151679112 p) (hr : Sub 0xe060000000000000000000000000000000000000000000000000000000000000000000000000000000000000000000000000000000000000000000000000000000000000000000000000000000000000000000000000000000000000000000000000000000000000000000000000000000000000000000000000000000000000000000000000000000000000000000000000000000000000000000000000000082000000000000000000000000000000000000000000000000000000000000000000000000000000000000000000000000000000000000000000000000000000000 r) (h : Only p r s x) :
    Only p r s (State.st x a1 a2 a3 a4 a5 a6 a7) := by
  unfold State.st
  repeat' first
    | with_reducible assumption
    | with_reducible refine State.updTil_only (Sub.trans rfl hp) (Sub.trans rfl hr) ?_
    | with_reducible refine State.storeTest_only (Sub.trans rfl hp) (Sub.trans rfl hr) ?_
    | with_reducible refine State.nextInsn_only (Sub.trans rfl hp) (Sub.trans rfl hr) ?_
    | with_reducible refine Only.foldl ?_ ?_
    | intro _
    | (extract_lets +onlyGivenNames y; first | (refine Only.cut (x := y) ?_ ?_; subst y; rotate_left; clear_value y; intro _) | clear_value y)
    | dsimp only

theorem execSt_only {p r : Nat} {s : State} {a0 a1 a2 a3 a4 a5 a6 : _} (hw : Instr.wf (.st a0 a1 a2 a3 a4 a5 a6) = true)  (hp : Sub 2151679128 p) (hr : Sub 0xe060000000000000000000000000000000000000000000000000000000000000000000000000000000000000000000000000000000000000000000000000000000000000000000000000000000000000000000000000000000000000000000000000000000000000000000000000000000000000000000000000000000000000000000000000000000000000000000000000000000000000000000000000000182000000000000000000000000000000000000000000000000000000000000000000000000000000000000000000000000000000000000000000000000000000000 r) :
    ∃ t, execSt a0 a1 a2 a3 a4 a5 a6 s = .next t ∧ Only p r s t := by
  unfold execSt
  unfold checked
  rw [if_pos hw]
  refine ⟨_, rfl, ?_⟩
  have h : Only p r s s := Only.refl
  repeat' first
    | with_reducible assumption
    | with_reducible refine State.st_only (Sub.trans rfl hp) (Sub.trans rfl hr) ?_
    | with_reducible refine State.fetched_only (Sub.trans rfl hp) (Sub.trans rfl hr) ?_ ?_
    | with_reducible refine Only.ite ?_ ?_
    | intro _
    | dsimp only

theorem execTlNop_only {p r : Nat} {s : State} {a0 : _} (hp : Sub 4195480 p) (hr : Sub 0xe060000000000000000000000000000000000000000000000000000000000000000000000000000000000000000000000000000000000000000000000000000000000000000000000000000000000000000000000000000000000000000000000000000000000000000000000000000000000000000000000000000000000000000000000000000000000000000000000000000000000000000000000000000100000000000000000000000000000000000000000000000000000000000000000000000000000000000000000000000000000000000000000000000000000000000 r) :
    ∃ t, execTlNop a0 s = .next t ∧ Only p r s t := by
  unfold execTlNop
  refine ⟨_, rfl, ?_⟩
  have h : Only p r s s := Only.refl
  repeat' first
    | with_reducible assumption
    | with_reducible refine State.nextInsn_only (Sub.trans rfl hp) (Sub.trans rfl hr) ?_
    | with_reducible refine State.fetched_only (Sub.trans rfl hp) (Sub.trans rfl hr) ?_ ?_
    | intro _
    | dsimp only

theorem State.mulLanes_only {p r : Nat} {s x : State} {a1 a2 a3 a4 a5 a6 : _} (hp : Sub 2151679000 p) (hr : Sub 0xe060000000000000000000000000000000000000000000000000000000000000000000000000000000000000000000000000000000000000000000000000000000000000000000000000000000000000000000000000000000000000000000000000000000000000000000000000000000000000000000000000000000000000000000000000000000000000000000000000000000000000000000000000000004000000000000000000000000000000000000000000000000000000000000000000000000000000000000000000000000000000000000000000000000000000000 r) (h : Only p r s x) :
    Only p r s (State.mulLanes x a1 a2 a3 a4 a5 a6) := by
  unfold State.mulLanes
  repeat' first
    | with_reducible assumption
    | with_reducible refine State.updTil_only (Sub.trans rfl hp) (Sub.trans rfl hr) ?_
    | with_reducible refine State.ovfTest_only (Sub.trans rfl hp) (Sub.trans rfl hr) ?_
    | with_reducible refine State.nextInsn_only (Sub.trans rfl hp) (Sub.trans rfl hr) ?_
    | with_reducible refine Only.foldl ?_ ?_
    | intro _
    | (extract_lets +onlyGivenNames y; first | (refine Only.cut (x := y) ?_ ?_; subst y; rotate_left; clear_value y; intro _) | clear_value y)
    | dsimp only

theorem execMac4_only {p r : Nat} {s : State} {a0 a1 a2 a3 a4 : _} (hw : Instr.wf (.mac4 a0 a1 a2 a3 a4) = true)  (hp : Sub 2151679128 p) (hr : Sub 0xe060000000000000000000000000000000000000000000000000000000000000000000000000000000000000000000000000000000000000000000000000000000000000000000000000000000000000000000000000000000000000000000000000000000000000000000000000000000000000000000000000000000000000000000000000000000000000000000000000000000000000000000000000000104000000000000000000000000000000000000000000000000000000000000000000000000000000000000000000000000000000000000000000000000000000000 r) :
    ∃ t, execMac4 a0 a1 a2 a3 a4 s = .next t ∧ Only p r s t := by
  unfold execMac4
  unfold checked
  rw [if_pos hw]
  refine ⟨_, rfl, ?_⟩
  have h : Only p r s s := Only.refl
  repeat' first
    | with_reducible assumption
    | with_reducible refine State.mulLanes_only (Sub.trans rfl hp) (Sub.trans rfl hr) ?_
    | with_reducible refine State.fetched_only (Sub.trans rfl hp) (Sub.trans rfl hr) ?_ ?_
    | with_reducible refine Only.ite ?_ ?_
    | intro _
    | dsimp only

theorem State.tst_only {p r : Nat} {s x : State} {a1 a2 a3 a4 a5 : _} (hp : Sub 1024 p) (hr : Sub 0 r) (h : Only p r s x) :
    Only p r s (State.tst x a1 a2 a3 a4 a5) := by
  unfold State.tst
  repeat' first
    | with_reducible assumption
    | with_reducible refine State.updTil_only (Sub.trans rfl hp) (Sub.trans rfl hr) ?_
    | with_reducible refine State.nextInsn_only (Sub.trans rfl hp) (Sub.trans rfl hr) ?_
    | intro _
    | (extract_lets +onlyGivenNames y; first | (refine Only.cut (x := y) ?_ ?_; subst y; rotate_left; clear_value y; intro _) | clear_value y)
    | dsimp only

theorem State.clr_only {p r : Nat} {s x : State} {a1 a2 : _} (hp : Sub 1024 p) (hr : Sub 0 r) (h : Only p r s x) :
    Only p r s (State.clr x a1 a2) := by
  unfold State.clr
  repeat' first
    | with_reducible assumption
    | with_reducible refine State.updTil_only (Sub.trans rfl hp) (Sub.trans rfl hr) ?_
    | with_reducible refine State.nextInsn_only (Sub.trans rfl hp) (Sub.trans rfl hr) ?_
    | with_reducible refine Only.foldl ?_ ?_
    | intro _
    | (extract_lets +onlyGivenNames y; first | (refine Only.cut (x := y) ?_ ?_; subst y; rotate_left; clear_value y; intro _) | clear_value y)
    | dsimp only

theorem State.ftap_only {p r : Nat} {s x : State} {a1 a2 a3 a4 a5 : _} (hp : Sub 2151679000 p) (hr : Sub 0xe060000000000000000000000000000000000000000000000000000000000000000000000000000000000000000000000000000000000000000000000000000000000000000000000000000000000000000000000000000000000000000000000000000000000000000000000000000000000000000000000000000000000000000000000000000000000000000000000000000000000000000000000000000004000000000000000000000000000000000000000000000000000000000000000000000000000000000000000000000000000000000000000000000000000000000 r) (h : Only p r s x) :
    Only p r s (State.ftap x a1 a2 a3 a4 a5) := by
  unfold State.ftap
  repeat' first
    | with_reducible assumption
    | with_reducible refine State.updTil_only (Sub.trans rfl hp) (Sub.trans rfl hr) ?_
    | with_reducible refine State.ovfTest_only (Sub.trans rfl hp) (Sub.trans rfl hr) ?_
    | with_reducible refine State.nextInsn_only (Sub.trans rfl hp) (Sub.trans rfl hr) ?_
    | with_reducible refine Only.ite ?_ ?_
    | intro _
    | (extract_lets +onlyGivenNames y; first | (refine Only.cut (x := y) ?_ ?_; subst y; rotate_left; clear_value y; intro _) | clear_value y)
    | split
    | dsimp only

theorem execFtap_only {p r : Nat} {s : State} {a0 a1 a2 a3 a4 : _} (hw : Instr.wf (.ftap a0 a1 a2 a3 a4) = true)  (hp : Sub 2151679128 p) (hr : Sub 0xe060000000000000000000000000000000000000000000000000000000000000000000000000000000000000000000000000000000000000000000000000000000000000000000000000000000000000000000000000000000000000000000000000000000000000000000000000000000000000000000000000000000000000000000000000000000000000000000000000000000000000000000000000000104000000000000000000000000000000000000000000000000000000000000000000000000000000000000000000000000000000000000000000000000000000000 r) :
    ∃ t, execFtap a0 a1 a2 a3 a4 s = .next t ∧ Only p r s t := by
  unfold execFtap
  unfold checked
  rw [if_pos hw]
  refine ⟨_, rfl, ?_⟩
  have h : Only p r s s := Only.refl
  repeat' first
    | with_reducible assumption
    | with_reducible refine State.ftap_only (Sub.trans rfl hp) (Sub.trans rfl hr) ?_
    | with_reducible refine State.fetched_only (Sub.trans rfl hp) (Sub.trans rfl hr) ?_ ?_
    | intro _
    | dsimp only

theorem execMpy4_only {p r : Nat} {s : State} {a0 a1 a2 a3 a4 : _} (hw : Instr.wf (.mpy4 a0 a1 a2 a3 a4) = true)  (hp : Sub 2151679128 p) (hr : Sub 0xe060000000000000000000000000000000000000000000000000000000000000000000000000000000000000000000000000000000000000000000000000000000000000000000000000000000000000000000000000000000000000000000000000000000000000000000000000000000000000000000000000000000000000000000000000000000000000000000000000000000000000000000000000000104000000000000000000000000000000000000000000000000000000000000000000000000000000000000000000000000000000000000000000000000000000000 r) :
    ∃ t, execMpy4 a0 a1 a2 a3 a4 s = .next t ∧ Only p r s t := by
  unfold execMpy4
  unfold checked
  rw [if_pos hw]
  refine ⟨_, rfl, ?_⟩
  have h : Only p r s s := Only.refl
  repeat' first
    | with_reducible assumption
    | with_reducible refine State.mulLanes_only (Sub.trans rfl hp) (Sub.trans rfl hr) ?_
    | with_reducible refine State.fetched_only (Sub.trans rfl hp) (Sub.trans rfl hr) ?_ ?_
    | with_reducible refine Only.ite ?_ ?_
    | intro _
    | dsimp only

theorem execClr_only {p r : Nat} {s : State} {a0 a1 : _} (hw : Instr.wf (.clr a0 a1) = true)  (hp : Sub 4195480 p) (hr : Sub 0xe060000000000000000000000000000000000000000000000000000000000000000000000000000000000000000000000000000000000000000000000000000000000000000000000000000000000000000000000000000000000000000000000000000000000000000000000000000000000000000000000000000000000000000000000000000000000000000000000000000000000000000000000000000100000000000000000000000000000000000000000000000000000000000000000000000000000000000000000000000000000000000000000000000000000000000 r) :
    ∃ t, execClr a0 a1 s = .next t ∧ Only p r s t := by
  unfold execClr
  unfold checked
  rw [if_pos hw]
  refine ⟨_, rfl, ?_⟩
  have h : Only p r s s := Only.refl
  repeat' first
    | with_reducible assumption
    | with_reducible refine State.clr_only (Sub.trans rfl hp) (Sub.trans rfl hr) ?_
    | with_reducible refine State.fetched_only (Sub.trans rfl hp) (Sub.trans rfl hr) ?_ ?_
    | intro _
    | dsimp only

theorem execMsu4_only {p r : Nat} {s : State} {a0 a1 a2 a3 a4 : _} (hw : Instr.wf (.msu4 a0 a1 a2 a3 a4) = true)  (hp : Sub 2151679128 p) (hr : Sub 0xe060000000000000000000000000000000000000000000000000000000000000000000000000000000000000000000000000000000000000000000000000000000000000000000000000000000000000000000000000000000000000000000000000000000000000000000000000000000000000000000000000000000000000000000000000000000000000000000000000000000000000000000000000000104000000000000000000000000000000000000000000000000000000000000000000000000000000000000000000000000000000000000000000000000000000000 r) :
    ∃ t, execMsu4 a0 a1 a2 a3 a4 s = .next t ∧ Only p r s t := by
  unfold execMsu4
  unfold checked
  rw [if_pos hw]
  refine ⟨_, rfl, ?_⟩
  have h : Only p r s s := Only.refl
  repeat' first
    | with_reducible assumption
    | with_reducible refine State.mulLanes_only (Sub.trans rfl hp) (Sub.trans rfl hr) ?_
    | with_reducible refine State.fetched_only (Sub.trans rfl hp) (Sub.trans rfl hr) ?_ ?_
    | with_reducible refine Only.ite ?_ ?_
    | intro _
    | dsimp only

theorem execMova_only {p r : Nat} {s : State} {a0 a1 a2 a3 : _} (hw : Instr.wf (.mova a0 a1 a2 a3) = true)  (hp : Sub 4195480 p) (hr : Sub 0xe060000000000000000000000000000000000000000000000000000000000000000000000000000000000000000000000000000000000000000000000000000000000000000000000000000000000000000000000000000000000000000000000000000000000000000000000000000000000000000000000000000000000000000000000000000000000000000000000000000000000000000000000000000100000000000000000000000000000000000000000000000000000000000000000000000000000000000000000000000000000000000000000000000000000000000 r) :
    ∃ t, execMova a0 a1 a2 a3 s = .next t ∧ Only p r s t := by
  unfold execMova
  unfold checked
  rw [if_pos hw]
  refine ⟨_, rfl, ?_⟩
  have h : Only p r s s := Only.refl
  repeat' first
    | with_reducible assumption
    | with_reducible refine State.mova_only (Sub.trans rfl hp) (Sub.trans rfl hr) ?_
    | with_reducible refine State.fetched_only (Sub.trans rfl hp) (Sub.trans rfl hr) ?_ ?_
    | with_reducible refine Only.ite ?_ ?_
    | intro _
    | dsimp only

theorem execTst_only {p r : Nat} {s : State} {a0 a1 a2 a3 a4 : _} (hw : Instr.wf (.tst a0 a1 a2 a3 a4) = true)  (hp : Sub 4195480 p) (hr : Sub 0xe060000000000000000000000000000000000000000000000000000000000000000000000000000000000000000000000000000000000000000000000000000000000000000000000000000000000000000000000000000000000000000000000000000000000000000000000000000000000000000000000000000000000000000000000000000000000000000000000000000000000000000000000000000100000000000000000000000000000000000000000000000000000000000000000000000000000000000000000000000000000000000000000000000000000000000 r) :
    ∃ t, execTst a0 a1 a2 a3 a4 s = .next t ∧ Only p r s t := by
  unfold execTst
  unfold checked
  rw [if_pos hw]
  refine ⟨_, rfl, ?_⟩
  have h : Only p r s s := Only.refl
  repeat' first
    | with_reducible assumption
    | with_reducible refine State.tst_only (Sub.trans rfl hp) (Sub.trans rfl hr) ?_
    | with_reducible refine State.fetched_only (Sub.trans rfl hp) (Sub.trans rfl hr) ?_ ?_
    | intro _
    | dsimp only

end Sys2Proof.Machine
end

