-- ==== Sys2Proof/Laws/OnlyFeedback.lean ====
section
/-! SUPPORT. Footprints of the operations of Machine/Feedback.lean. -/
namespace Sys2Proof.Machine
set_option linter.all false
set_option Elab.async false

theorem State.updDport_only {p r : Nat} {s x : State} {a1 a2 : _} (hp : Sub 512 p) (_hr : Sub 0 r) (h : Only p r s x) :
    Only p r s (State.updDport x a1 a2) := by
  unfold State.updDport
  repeat' first
    | with_reducible assumption
    | intro _
    | (extract_lets +onlyGivenNames y; first | (refine Only.cut (x := y) ?_ ?_; subst y; rotate_left; clear_value y; intro _) | clear_value y)
    | dsimp only
    | (first | (with_reducible refine Only.upd_fb (Sub.bits hp rfl) ?_; first | with_reducible assumption))

theorem State.ssiSample_only {p r : Nat} {s x : State} {a1 : _} (hp : Sub 512 p) (hr : Sub 0 r) (h : Only p r s x) :
    Only p r s (State.ssiSample x a1) := by
  unfold State.ssiSample
  repeat' first
    | with_reducible assumption
    | with_reducible refine State.updDport_only (Sub.trans rfl hp) (Sub.trans rfl hr) ?_
    | with_reducible refine Only.ite ?_ ?_
    | intro _
    | (extract_lets +onlyGivenNames y; first | (refine Only.cut (x := y) ?_ ?_; subst y; rotate_left; clear_value y; intro _) | clear_value y)
    | split
    | dsimp only

theorem State.loseChan_only {p r : Nat} {s x : State} {a1 : _} (hp : Sub 536 p) (hr : Sub 0x20000000000000000000000000000000000000000000000000000000000000000000000000000000000000000000000000000000000000000000000000000000000000000000000000000000000000000000000 r) (h : Only p r s x) :
    Only p r s (State.loseChan x a1) := by
  unfold State.loseChan
  repeat' first
    | with_reducible assumption
    | with_reducible refine State.updChan_only (Sub.trans rfl hp) (Sub.trans rfl hr) ?_
    | with_reducible refine State.unhome_only (Sub.trans rfl hp) (Sub.trans rfl hr) ?_
    | with_reducible refine State.post_only (Sub.trans rfl hp) (Sub.trans rfl hr) ?_
    | with_reducible refine State.fault_only (Sub.trans rfl hp) (Sub.trans rfl hr) ?_
    | with_reducible refine Only.ite ?_ ?_
    | intro _
    | (extract_lets +onlyGivenNames y; first | (refine Only.cut (x := y) ?_ ?_; subst y; rotate_left; clear_value y; intro _) | clear_value y)
    | split
    | dsimp only

theorem State.lostTest_only {p r : Nat} {s x : State} {a1 : _} (hp : Sub 536 p) (hr : Sub 0x20000000000000000000000000000000000000000000000000000000000000000000000000000000000000000000000000000000000000000000000000000000000000000000000000000000000000000000000 r) (h : Only p r s x) :
    Only p r s (State.lostTest x a1) := by
  unfold State.lostTest
  repeat' first
    | with_reducible assumption
    | with_reducible refine State.loseChan_only (Sub.trans rfl hp) (Sub.trans rfl hr) ?_
    | with_reducible refine Only.ite ?_ ?_
    | split

theorem execFbLost_only {p r : Nat} {s : State} {a0 : _} (hp : Sub 536 p) (hr : Sub 0x20000000000000000000000000000000000000000000000000000000000000000000000000000000000000000000000000000000000000000000000000000000000000000000000000000000000000000000000 r) :
    ∃ t, execFbLost a0 s = .next t ∧ Only p r s t := by
  unfold execFbLost
  refine ⟨_, rfl, ?_⟩
  have h : Only p r s s := Only.refl
  repeat' first
    | with_reducible assumption
    | with_reducible refine State.lostTest_only (Sub.trans rfl hp) (Sub.trans rfl hr) ?_

theorem State.moveLin_only {p r : Nat} {s x : State} {a1 a2 : _} (hp : Sub 520 p) (hr : Sub 0 r) (h : Only p r s x) :
    Only p r s (State.moveLin x a1 a2) := by
  unfold State.moveLin
  repeat' first
    | with_reducible assumption
    | with_reducible refine State.updChan_only (Sub.trans rfl hp) (Sub.trans rfl hr) ?_
    | with_reducible refine State.post_only (Sub.trans rfl hp) (Sub.trans rfl hr) ?_
    | with_reducible refine Only.ite ?_ ?_
    | intro _
    | (extract_lets +onlyGivenNames y; first | (refine Only.cut (x := y) ?_ ?_; subst y; rotate_left; clear_value y; intro _) | clear_value y)
    | split
    | dsimp only

theorem State.indexIn_only {p r : Nat} {s x : State} {a1 a2 a3 : _} (hp : Sub 520 p) (hr : Sub 0x100000000000000000000000000000000000000000000000000000000000000000000000000000000000000000000000000000 r) (h : Only p r s x) :
    Only p r s (State.indexIn x a1 a2 a3) := by
  unfold State.indexIn
  repeat' first
    | with_reducible assumption
    | with_reducible refine Only.setBit 404 R.FB_IDX_STAT_LAST_OUT_num (Sub.bits hr rfl) ?_
    | with_reducible refine State.updChan_only (Sub.trans rfl hp) (Sub.trans rfl hr) ?_
    | with_reducible refine State.moveLin_only (Sub.trans rfl hp) (Sub.trans rfl hr) ?_
    | with_reducible refine State.post_only (Sub.trans rfl hp) (Sub.trans rfl hr) ?_
    | with_reducible refine Only.ite ?_ ?_
    | intro _
    | (extract_lets +onlyGivenNames y; first | (refine Only.cut (x := y) ?_ ?_; subst y; rotate_left; clear_value y; intro _) | clear_value y)
    | split
    | dsimp only

theorem State.unverify_only {p r : Nat} {s x : State} {a1 : _} (hp : Sub 512 p) (hr : Sub 0x20000000000000000000000000000000000000000000000000000000000000000000000000000000000000000000000000000000000000000000000000000000000000000000000000000000000000000000000 r) (h : Only p r s x) :
    Only p r s (State.unverify x a1) := by
  unfold State.unverify
  repeat' first
    | with_reducible assumption
    | with_reducible refine State.updChan_only (Sub.trans rfl hp) (Sub.trans rfl hr) ?_
    | with_reducible refine State.unhome_only (Sub.trans rfl hp) (Sub.trans rfl hr) ?_
    | intro _
    | (extract_lets +onlyGivenNames y; first | (refine Only.cut (x := y) ?_ ?_; subst y; rotate_left; clear_value y; intro _) | clear_value y)
    | dsimp only

theorem State.indexOut_only {p r : Nat} {s x : State} {a1 a2 a3 : _} (hp : Sub 135704 p) (hr : Sub 0x380803000000000000000000000000000000000000000000000000000000000000000000000000000000000000000000000000000000000000000000000000000000000000000000000000000000401b0000000000000000000000000000000000000000000000000000000000004000100000000000000000000000000000000000000000000000000000000000000000000000000000000000000000000000000000 r) (h : Only p r s x) :
    Only p r s (State.indexOut x a1 a2 a3) := by
  unfold State.indexOut
  repeat' first
    | with_reducible assumption
    | with_reducible refine Only.setBit 404 R.FB_IDX_STAT_LAST_OUT_num (Sub.bits hr rfl) ?_
    | with_reducible refine Only.inc 422 R.FB_ERR_INDEX_ERR_num (Sub.bits hr rfl) ?_
    | with_reducible refine State.unverify_only (Sub.trans rfl hp) (Sub.trans rfl hr) ?_
    | with_reducible refine State.updChan_only (Sub.trans rfl hp) (Sub.trans rfl hr) ?_
    | with_reducible refine State.post_only (Sub.trans rfl hp) (Sub.trans rfl hr) ?_
    | with_reducible refine State.abortGen_only (Sub.trans rfl hp) (Sub.trans rfl hr) ?_
    | with_reducible refine State.fault_only (Sub.trans rfl hp) (Sub.trans rfl hr) ?_
    | with_reducible refine Only.ite ?_ ?_
    | with_reducible refine Only.foldl ?_ ?_
    | intro _
    | (extract_lets +onlyGivenNames y; first | (refine Only.cut (x := y) ?_ ?_; subst y; rotate_left; clear_value y; intro _) | clear_value y)
    | split
    | dsimp only

theorem State.indexCheck_only {p r : Nat} {s x : State} {a1 : _} (hp : Sub 4330008 p) (hr : Sub 0xe0600000000000000000000000000000000000000000000000000000000000000000000000000000000000000000000000000000000000000000000000000380803000000000000000000000000000000000000000000000000000000000000000000000000000000000000000000000000000000000000000000000000000000000000000000000000000000401b0000000000000000000000000000000000000000000000000000000000004000180000000000000000000000000000000000000000000000000000000000000000000000000000000000000000000000000000 r) (h : Only p r s x) :
    Only p r s (State.indexCheck x a1) := by
  unfold State.indexCheck
  repeat' first
    | with_reducible assumption
    | with_reducible refine Only.snd (q := (State.inject _ _ _)) (by assumption) (State.inject_only (Sub.trans rfl hp) (Sub.trans rfl hr) ?_)
    | with_reducible refine State.inject_only (Sub.trans rfl hp) (Sub.trans rfl hr) ?_
    | with_reducible refine State.updChan_only (Sub.trans rfl hp) (Sub.trans rfl hr) ?_
    | with_reducible refine Only.seti 403 R.FB_IDX_STAT_LAST_DEV_num (Sub.bits hr rfl) ?_
    | with_reducible refine State.indexIn_only (Sub.trans rfl hp) (Sub.trans rfl hr) ?_
    | with_reducible refine State.indexOut_only (Sub.trans rfl hp) (Sub.trans rfl hr) ?_
    | with_reducible refine State.homeIndex_only (Sub.trans rfl hp) (Sub.trans rfl hr) ?_
    | with_reducible refine Only.ite ?_ ?_
    | intro _
    | (extract_lets +onlyGivenNames y; first | (refine Only.cut (x := y) ?_ ?_; subst y; rotate_left; clear_value y; intro _) | (refine Only.cut (x := y.1) ?_ ?_; subst y; rotate_left; clear_value y; intro _) | (refine Only.cut (x := y.2) ?_ ?_; subst y; rotate_left; clear_value y; intro _) | (refine Only.cut (x := y.2.2) ?_ ?_; subst y; rotate_left; clear_value y; intro _) | clear_value y)
    | split
    | dsimp only

theorem State.relatch_only {p r : Nat} {s x : State} {a1 : _} (hp : Sub 512 p) (hr : Sub 0 r) (h : Only p r s x) :
    Only p r s (State.relatch x a1) := by
  unfold State.relatch
  repeat' first
    | with_reducible assumption
    | with_reducible refine State.updChan_only (Sub.trans rfl hp) (Sub.trans rfl hr) ?_
    | with_reducible refine Only.ite ?_ ?_
    | intro _
    | split
    | dsimp only

theorem State.indexEvent_only {p r : Nat} {s x : State} {a1 : _} (hp : Sub 4330008 p) (hr : Sub 0xe0600000000000000000000000000000000000000000000000000000000000000000000000000000000000000000000000000000000000000000000000000380803000000000000000000000000000000000000000000000000000000000000000000000000000000000000000000000000000000000000000000000000000000000000000000000000000000401b0000000000000000000000000000000000000000000000000000000000004000180000000000000000000000000000000000000000000000000000000000000000000000000000000000000000000000000000 r) (h : Only p r s x) :
    Only p r s (State.indexEvent x a1) := by
  unfold State.indexEvent
  repeat' first
    | with_reducible assumption
    | with_reducible refine State.updDport_only (Sub.trans rfl hp) (Sub.trans rfl hr) ?_
    | with_reducible refine State.indexCheck_only (Sub.trans rfl hp) (Sub.trans rfl hr) ?_
    | with_reducible refine State.relatch_only (Sub.trans rfl hp) (Sub.trans rfl hr) ?_
    | with_reducible refine Only.ite ?_ ?_
    | intro _
    | (extract_lets +onlyGivenNames y; first | (refine Only.cut (x := y) ?_ ?_; subst y; rotate_left; clear_value y; intro _) | clear_value y)
    | split
    | dsimp only

theorem execIndexEvent_only {p r : Nat} {s : State} {a0 : _} (hp : Sub 4330008 p) (hr : Sub 0xe0600000000000000000000000000000000000000000000000000000000000000000000000000000000000000000000000000000000000000000000000000380803000000000000000000000000000000000000000000000000000000000000000000000000000000000000000000000000000000000000000000000000000000000000000000000000000000401b0000000000000000000000000000000000000000000000000000000000004000180000000000000000000000000000000000000000000000000000000000000000000000000000000000000000000000000000 r) :
    ∃ t, execIndexEvent a0 s = .next t ∧ Only p r s t := by
  unfold execIndexEvent
  refine ⟨_, rfl, ?_⟩
  have h : Only p r s s := Only.refl
  repeat' first
    | with_reducible assumption
    | with_reducible refine State.indexEvent_only (Sub.trans rfl hp) (Sub.trans rfl hr) ?_

theorem State.ssiStart_only {p r : Nat} {s x : State} {a1 : _} (hp : Sub 4194856 p) (hr : Sub 0xe060000000000000000000000000000000000000000000000000000000000000000000000000000000000000000000000000000000000000000000000000000000000000000000000000000000000000000000000000000000000000000000000000000000000000000000000000000000000000000000000000000000000000000000000000000000000000000000000000000000000000000000000000000000000000000000000000000000000000000000000000000000000000000000000000000000000000000000000033000000000000000000000000000000000000000 r) (h : Only p r s x) :
    Only p r s (State.ssiStart x a1) := by
  unfold State.ssiStart
  repeat' first
    | with_reducible assumption
    | with_reducible refine State.updDport_only (Sub.trans rfl hp) (Sub.trans rfl hr) ?_
    | with_reducible refine State.captureStart_only (Sub.trans rfl hp) (Sub.trans rfl hr) ?_
    | with_reducible refine State.updChan_only (Sub.trans rfl hp) (Sub.trans rfl hr) ?_
    | with_reducible refine Only.ite ?_ ?_
    | intro _
    | (extract_lets +onlyGivenNames y; first | (refine Only.cut (x := y) ?_ ?_; subst y; rotate_left; clear_value y; intro _) | clear_value y)
    | split
    | dsimp only

theorem State.recordPos_only {p r : Nat} {s x : State} {a1 a2 : _} (_hp : Sub 0 p) (hr : Sub 0x7e00000000000000000000000000000000000000000000000000000000000000000000000000000000000000000000000000000 r) (h : Only p r s x) :
    Only p r s (State.recordPos x a1 a2) := by
  unfold State.recordPos
  repeat' first
    | with_reducible assumption
    | with_reducible refine Only.seti 405 R.FB_POS_LO_num (Sub.bits hr rfl) ?_
    | with_reducible refine Only.seti 406 R.FB_POS_HI_num (Sub.bits hr rfl) ?_
    | with_reducible refine Only.set64 407 408 R.FB_VEL_LO_num R.FB_VEL_HI_num (Sub.bits hr rfl) (Sub.bits hr rfl) ?_
    | with_reducible refine Only.set64 409 410 R.FB_ACC_LO_num R.FB_ACC_HI_num (Sub.bits hr rfl) (Sub.bits hr rfl) ?_
    | (extract_lets +onlyGivenNames y; first | (refine Only.cut (x := y) ?_ ?_; subst y; rotate_left; clear_value y; intro _) | clear_value y)
    | dsimp only

theorem State.recordQual_only {p r : Nat} {s x : State} {a1 a2 a3 : _} (_hp : Sub 0 p) (hr : Sub 0x1ff8000000000000000000000000000000000000000000000000000000000000000000000000000000000000000000000000000000 r) (h : Only p r s x) :
    Only p r s (State.recordQual x a1 a2 a3) := by
  unfold State.recordQual
  repeat' first
    | with_reducible assumption
    | with_reducible refine Only.setBit 414 R.FB_QUAL_EDGE_TIMED_num (Sub.bits hr rfl) ?_
    | with_reducible refine Only.setBit 415 R.FB_QUAL_UNVERIFIED_num (Sub.bits hr rfl) ?_
    | with_reducible refine Only.setBit 416 R.FB_QUAL_SAT_num (Sub.bits hr rfl) ?_
    | with_reducible refine Only.setBit 417 R.FB_QUAL_INDEX_num (Sub.bits hr rfl) ?_
    | with_reducible refine Only.setBit 418 R.FB_QUAL_COMPAT_num (Sub.bits hr rfl) ?_
    | with_reducible refine Only.set 411 R.FB_QUAL_STATE_num (Sub.bits hr rfl) ?_
    | with_reducible refine Only.setBit 412 R.FB_QUAL_FRESH_num (Sub.bits hr rfl) ?_
    | with_reducible refine Only.setBit 413 R.FB_QUAL_PREDICTED_num (Sub.bits hr rfl) ?_
    | with_reducible refine Only.set 419 R.FB_QUAL_INVALID_RUN_num (Sub.bits hr rfl) ?_
    | with_reducible refine Only.set 420 R.FB_QUAL_EDGES_num (Sub.bits hr rfl) ?_
    | (extract_lets +onlyGivenNames y; first | (refine Only.cut (x := y) ?_ ?_; subst y; rotate_left; clear_value y; intro _) | clear_value y)
    | dsimp only

theorem State.recordRegs_only {p r : Nat} {s x : State} {a1 a2 a3 : _} (hp : Sub 512 p) (hr : Sub 0x1fffe00000000000000000000000000000000000000000000000000000000000000000000000000000000000000000000000000000 r) (h : Only p r s x) :
    Only p r s (State.recordRegs x a1 a2 a3) := by
  unfold State.recordRegs
  repeat' first
    | with_reducible assumption
    | with_reducible refine State.recordPos_only (Sub.trans rfl hp) (Sub.trans rfl hr) ?_
    | with_reducible refine State.recordQual_only (Sub.trans rfl hp) (Sub.trans rfl hr) ?_
    | with_reducible refine State.updChan_only (Sub.trans rfl hp) (Sub.trans rfl hr) ?_
    | intro _
    | (extract_lets +onlyGivenNames y; first | (refine Only.cut (x := y) ?_ ?_; subst y; rotate_left; clear_value y; intro _) | clear_value y)
    | dsimp only

theorem State.recordOut_only {p r : Nat} {s x : State} {a1 : _} (hp : Sub 4228232 p) (hr : Sub 0xe060000000000000000000000000000000000000000000000000000000000000000000000000000000000000000000000000000000000000000000000000000000000000000000000000000000000800000000000000000000000000002000000040000000000000000000000000000000000000000000000000000000000000000000000000000000000000000000000000000000000000000000000000000000000000000000000000000000000000000000000000000000000000000000000000000000000000000000000000000000000000000000000000000000000000000 r) (h : Only p r s x) :
    Only p r s (State.recordOut x a1) := by
  unfold State.recordOut
  repeat' first
    | with_reducible assumption
    | with_reducible refine State.xWrite_only (Sub.trans rfl hp) (Sub.trans rfl hr) ?_
    | with_reducible refine State.signalRelease_only (Sub.trans rfl hp) (Sub.trans rfl hr) ?_
    | with_reducible refine Only.ite ?_ ?_
    | with_reducible refine Only.foldl ?_ ?_
    | intro _
    | (extract_lets +onlyGivenNames y; first | (refine Only.cut (x := y) ?_ ?_; subst y; rotate_left; clear_value y; intro _) | clear_value y)
    | split
    | dsimp only

theorem State.record_only {p r : Nat} {s x : State} {a1 a2 a3 : _} (hp : Sub 4228744 p) (hr : Sub 0xe060000000000000000000000000000000000000000000000000000000000000000000000000000000000000000000000000000000000000000000000000000000000000000000000000000000000800000000000000000000000000002000000040000000000000000000000000000000000000000000000000000000000000000000000000000000000000000000000000000000000000000000000000000000000000000000000000000001fffe00000000000000000000000000000000000000000000000000000000000000000000000000000000000000000000000000000 r) (h : Only p r s x) :
    Only p r s (State.record x a1 a2 a3) := by
  unfold State.record
  repeat' first
    | with_reducible assumption
    | with_reducible refine State.recordRegs_only (Sub.trans rfl hp) (Sub.trans rfl hr) ?_
    | with_reducible refine State.recordOut_only (Sub.trans rfl hp) (Sub.trans rfl hr) ?_

theorem State.doFbClear_only {p r : Nat} {s x : State} {a1 : _} (hp : Sub 655880 p) (hr : Sub 0x38080300000000000000000000000000000000000000000000000000000000000000000000000000000000000000000000000000000000000000000000000000000000000000000000000000000000000000000000000000000000000000000000000000000000000000000000000000022000000000000000000000000000000000000000000000000000000000000000000000000000000000000000000000000000 r) (h : Only p r s x) :
    Only p r s (State.doFbClear x a1) := by
  unfold State.doFbClear
  repeat' first
    | with_reducible assumption
    | with_reducible refine State.completeDesc_only (Sub.trans rfl hp) (Sub.trans rfl hr) ?_
    | with_reducible refine State.mirrorDesc_only (Sub.trans rfl hp) (Sub.trans rfl hr) ?_
    | with_reducible refine State.updChan_only (Sub.trans rfl hp) (Sub.trans rfl hr) ?_
    | with_reducible refine Only.set 397 R.FB_IDX_EXP_num (Sub.bits hr rfl) ?_
    | with_reducible refine Only.setBit 401 R.FB_IDX_CFG_IDX_VALID_num (Sub.bits hr rfl) ?_
    | with_reducible refine Only.ite ?_ ?_
    | intro _
    | (extract_lets +onlyGivenNames y; first | (refine Only.cut (x := y) ?_ ?_; subst y; rotate_left; clear_value y; intro _) | clear_value y)
    | split
    | dsimp only

theorem execFbClear_only {p r : Nat} {s : State} {a0 : _} (hp : Sub 656008 p) (hr : Sub 0x38080300000000000000000000000000000000000000000000000000000000000000000000000000000000000000000000000000000000000000000000000000000000000000000000000000000000000000000000000000000000000000000000000000000000000000000000000000022000000000000000000000000000000000000000000000000000000000000000000000000000000000000000000000000000 r) :
    ∃ t, execFbClear a0 s = .next t ∧ Only p r s t := by
  unfold execFbClear
  refine ⟨_, rfl, ?_⟩
  have h : Only p r s s := Only.refl
  repeat' first
    | with_reducible assumption
    | with_reducible refine State.doFbClear_only (Sub.trans rfl hp) (Sub.trans rfl hr) ?_
    | with_reducible refine State.action_only (Sub.trans rfl hp) (Sub.trans rfl hr) ?_ ?_
    | intro _

theorem State.jumpTest_only {p r : Nat} {s x : State} {a1 a2 : _} (hp : Sub 4194312 p) (hr : Sub 0xe060000000000000000000000000000000000000000000000000000000000000000000000000000000000000000000000000000000000000000000000000000000000000000000000000000000000000000000000000000000000000000000000000000000000000000000000000000000000000000000000000000000000000000000000000000000000000000000000000000000000000000000000000000000000000000000000000000008000000000000000000000000000000000000000000000000000000000000000000000000000000000000000000000000000000000 r) (h : Only p r s x) :
    Only p r s (State.jumpTest x a1 a2).1 := by
  unfold State.jumpTest
  repeat' first
    | with_reducible assumption
    | with_reducible refine Only.snd (q := (State.inject _ _ _)) (by assumption) (State.inject_only (Sub.trans rfl hp) (Sub.trans rfl hr) ?_)
    | with_reducible refine State.inject_only (Sub.trans rfl hp) (Sub.trans rfl hr) ?_
    | with_reducible refine Only.inc 423 R.FB_ERR_POS_JUMP_num (Sub.bits hr rfl) ?_
    | with_reducible refine State.post_only (Sub.trans rfl hp) (Sub.trans rfl hr) ?_
    | with_reducible refine Only.ite ?_ ?_
    | (extract_lets +onlyGivenNames y; first | (refine Only.cut (x := y) ?_ ?_; subst y; rotate_left; clear_value y; intro _) | (refine Only.cut (x := y.1) ?_ ?_; subst y; rotate_left; clear_value y; intro _) | (refine Only.cut (x := y.2) ?_ ?_; subst y; rotate_left; clear_value y; intro _) | (refine Only.cut (x := y.2.2) ?_ ?_; subst y; rotate_left; clear_value y; intro _) | clear_value y)
    | split
    | dsimp only

theorem State.quadErr_only {p r : Nat} {s x : State} {a1 a2 : _} (hp : Sub 520 p) (hr : Sub 0x20000000000000000000000000000000000000000000000000000000002000000000000000000000000000000000000000000000000000000000000000000000000000000000000000000000000000000000000 r) (h : Only p r s x) :
    Only p r s (State.quadErr x a1 a2) := by
  unfold State.quadErr
  repeat' first
    | with_reducible assumption
    | with_reducible refine Only.inc 433 R.DP_STAT_QUAD_ERR_num (Sub.bits hr rfl) ?_
    | with_reducible refine State.post_only (Sub.trans rfl hp) (Sub.trans rfl hr) ?_
    | with_reducible refine State.unverify_only (Sub.trans rfl hp) (Sub.trans rfl hr) ?_
    | (extract_lets +onlyGivenNames y; first | (refine Only.cut (x := y) ?_ ?_; subst y; rotate_left; clear_value y; intro _) | clear_value y)
    | split
    | dsimp only

theorem State.storeObs_only {p r : Nat} {s x : State} {a1 a2 a3 a4 : _} (hp : Sub 512 p) (hr : Sub 0 r) (h : Only p r s x) :
    Only p r s (State.storeObs x a1 a2 a3 a4).1 := by
  unfold State.storeObs
  repeat' first
    | with_reducible assumption
    | with_reducible refine State.updChan_only (Sub.trans rfl hp) (Sub.trans rfl hr) ?_
    | intro _
    | (extract_lets +onlyGivenNames y; first | (refine Only.cut (x := y) ?_ ?_; subst y; rotate_left; clear_value y; intro _) | (refine Only.cut (x := y.1) ?_ ?_; subst y; rotate_left; clear_value y; intro _) | (refine Only.cut (x := y.2) ?_ ?_; subst y; rotate_left; clear_value y; intro _) | (refine Only.cut (x := y.2.2) ?_ ?_; subst y; rotate_left; clear_value y; intro _) | clear_value y)
    | dsimp only

theorem State.observe_only {p r : Nat} {s x : State} {a1 a2 a3 a4 a5 : _} (hp : Sub 512 p) (hr : Sub 0 r) (h : Only p r s x) :
    Only p r s (State.observe x a1 a2 a3 a4 a5).1 := by
  unfold State.observe
  dsimp only
  repeat' first
    | with_reducible assumption
    | with_reducible refine Only.fst (q := (State.storeObs _ _ _ _ _)) (by assumption) (State.storeObs_only (Sub.trans rfl hp) (Sub.trans rfl hr) ?_)
    | with_reducible refine State.storeObs_only (Sub.trans rfl hp) (Sub.trans rfl hr) ?_
    | with_reducible refine Only.ite ?_ ?_
    | intro _
    | (extract_lets +onlyGivenNames y; first | (refine Only.cut (x := y) ?_ ?_; subst y; rotate_left; clear_value y; intro _) | (refine Only.cut (x := y.1) ?_ ?_; subst y; rotate_left; clear_value y; intro _) | (refine Only.cut (x := y.2) ?_ ?_; subst y; rotate_left; clear_value y; intro _) | (refine Only.cut (x := y.2.2) ?_ ?_; subst y; rotate_left; clear_value y; intro _) | clear_value y)
    | split
    | dsimp only

theorem State.predict_only {p r : Nat} {s x : State} {a1 a2 : _} (hp : Sub 4228744 p) (hr : Sub 0xe060000000000000000000000000000000000000000000000000000000000000000000000000000000000000000000000000000000000000000000000000000000000000000000000000000000000800000000000000000000000000002000000040000000000000000000000000000000000000000000000000000000000000000000000000000000000000000000000000000000000000000000000000000000000000000000000000000003fffe00000000000000000000000000000000000000000000000000000000000000000000000000000000000000000000000000000 r) (h : Only p r s x) :
    Only p r s (State.predict x a1 a2) := by
  unfold State.predict
  repeat' first
    | with_reducible assumption
    | with_reducible refine Only.inc 421 R.FB_ERR_INVALID_num (Sub.bits hr rfl) ?_
    | with_reducible refine State.updChan_only (Sub.trans rfl hp) (Sub.trans rfl hr) ?_
    | with_reducible refine Only.fst (q := (State.observe _ _ _ _ _ _)) (by assumption) (State.observe_only (Sub.trans rfl hp) (Sub.trans rfl hr) ?_)
    | with_reducible refine State.observe_only (Sub.trans rfl hp) (Sub.trans rfl hr) ?_
    | with_reducible refine State.record_only (Sub.trans rfl hp) (Sub.trans rfl hr) ?_
    | with_reducible refine Only.ite ?_ ?_
    | intro _
    | (extract_lets +onlyGivenNames y; first | (refine Only.cut (x := y) ?_ ?_; subst y; rotate_left; clear_value y; intro _) | (refine Only.cut (x := y.1) ?_ ?_; subst y; rotate_left; clear_value y; intro _) | (refine Only.cut (x := y.2) ?_ ?_; subst y; rotate_left; clear_value y; intro _) | (refine Only.cut (x := y.2.2) ?_ ?_; subst y; rotate_left; clear_value y; intro _) | clear_value y)
    | split
    | dsimp only

theorem State.takeWord_only {p r : Nat} {s x : State} {a1 a2 : _} (hp : Sub 520 p) (hr : Sub 0x20000000000000000000000000000000000000000000000000000000000000000000000000000000000000000000000000000000000000000000000000000000000000000000000000000000000000000000000 r) (h : Only p r s x) :
    Only p r s (State.takeWord x a1 a2) := by
  unfold State.takeWord
  repeat' first
    | with_reducible assumption
    | with_reducible refine State.updChan_only (Sub.trans rfl hp) (Sub.trans rfl hr) ?_
    | with_reducible refine State.unverify_only (Sub.trans rfl hp) (Sub.trans rfl hr) ?_
    | with_reducible refine State.moveLin_only (Sub.trans rfl hp) (Sub.trans rfl hr) ?_
    | with_reducible refine Only.ite ?_ ?_
    | intro _
    | (extract_lets +onlyGivenNames y; first | (refine Only.cut (x := y) ?_ ?_; subst y; rotate_left; clear_value y; intro _) | (refine Only.cutf (f := y) ?_ ?_; subst y; rotate_left; clear_value y; intro _) | clear_value y)
    | split
    | dsimp only
    | with_reducible apply_assumption

theorem State.serialUpdate_only {p r : Nat} {s x : State} {a1 a2 : _} (hp : Sub 4228744 p) (hr : Sub 0xe06000000000000000000000000000000000000000000000000000000000000000000000000000000000000000000000000000000000000000000000000000000000000000000000000000000000080000000000000000000000000000200000004000000000000000000000000000000000000000000000000000000000000000000000000000000000000000002000000000000000000000000000000000000000000000000000000000000bfffe00000000000000000000000000000000000000000000000000000000000000000000000000000000000000000000000000000 r) (h : Only p r s x) :
    Only p r s (State.serialUpdate x a1 a2) := by
  unfold State.serialUpdate
  repeat' first
    | with_reducible assumption
    | with_reducible refine Only.fst (q := (State.jumpTest _ _ _)) (by assumption) (State.jumpTest_only (Sub.trans rfl hp) (Sub.trans rfl hr) ?_)
    | with_reducible refine State.jumpTest_only (Sub.trans rfl hp) (Sub.trans rfl hr) ?_
    | with_reducible refine State.predict_only (Sub.trans rfl hp) (Sub.trans rfl hr) ?_
    | with_reducible refine State.takeWord_only (Sub.trans rfl hp) (Sub.trans rfl hr) ?_
    | with_reducible refine Only.fst (q := (State.observe _ _ _ _ _ _)) (by assumption) (State.observe_only (Sub.trans rfl hp) (Sub.trans rfl hr) ?_)
    | with_reducible refine State.observe_only (Sub.trans rfl hp) (Sub.trans rfl hr) ?_
    | with_reducible refine State.record_only (Sub.trans rfl hp) (Sub.trans rfl hr) ?_
    | with_reducible refine Only.ite ?_ ?_
    | (extract_lets +onlyGivenNames y; first | (refine Only.cut (x := y) ?_ ?_; subst y; rotate_left; clear_value y; intro _) | (refine Only.cut (x := y.1) ?_ ?_; subst y; rotate_left; clear_value y; intro _) | (refine Only.cut (x := y.2) ?_ ?_; subst y; rotate_left; clear_value y; intro _) | (refine Only.cut (x := y.2.2) ?_ ?_; subst y; rotate_left; clear_value y; intro _) | clear_value y)
    | split
    | dsimp only

theorem State.portUpdate_only {p r : Nat} {s x : State} {a1 a2 a3 a4 a5 a6 a7 a8 a9 : _} (hp : Sub 4228744 p) (hr : Sub 0xe060000000000000000000000000000000000000000000000000000000000000000000000000000000000000000000000000000000000000000000000000000000000000000000000000000000000800000000000000000000000000002000000040000000000000000000000000000000000000000000000000000000000000000000000000000000000000000000000000000000000000000000000000000000000000000000000000000001fffe00000000000000000000000000000000000000000000000000000000000000000000000000000000000000000000000000000 r) (h : Only p r s x) :
    Only p r s (State.portUpdate x a1 a2 a3 a4 a5 a6 a7 a8 a9) := by
  unfold State.portUpdate
  repeat' first
    | with_reducible assumption
    | with_reducible refine State.updChan_only (Sub.trans rfl hp) (Sub.trans rfl hr) ?_
    | with_reducible refine Only.fst (q := (State.storeObs _ _ _ _ _)) (by assumption) (State.storeObs_only (Sub.trans rfl hp) (Sub.trans rfl hr) ?_)
    | with_reducible refine State.storeObs_only (Sub.trans rfl hp) (Sub.trans rfl hr) ?_
    | with_reducible refine Only.fst (q := (State.observe _ _ _ _ _ _)) (by assumption) (State.observe_only (Sub.trans rfl hp) (Sub.trans rfl hr) ?_)
    | with_reducible refine State.observe_only (Sub.trans rfl hp) (Sub.trans rfl hr) ?_
    | with_reducible refine State.record_only (Sub.trans rfl hp) (Sub.trans rfl hr) ?_
    | with_reducible refine Only.ite ?_ ?_
    | intro _
    | (extract_lets +onlyGivenNames y; first | (refine Only.cut (x := y) ?_ ?_; subst y; rotate_left; clear_value y; intro _) | (refine Only.cut (x := y.1) ?_ ?_; subst y; rotate_left; clear_value y; intro _) | (refine Only.cut (x := y.2) ?_ ?_; subst y; rotate_left; clear_value y; intro _) | (refine Only.cut (x := y.2.2) ?_ ?_; subst y; rotate_left; clear_value y; intro _) | clear_value y)
    | split
    | dsimp only

theorem State.fbUpdate_only {p r : Nat} {s x : State} {a1 : _} (hp : Sub 4228744 p) (hr : Sub 0xe06000000000000000000000000000000000000000000000000000000000000000000000000000000000000000000000000000000000000000000000000000000000000000000000000000000000080000000000000000000000000000200000004000000000000000000000000000000000000000000000000000000000000000000000000000000000000000002000000000000000000000000000000000000000000000000000000000000bfffe00000000000000000000000000000000000000000000000000000000000000000000000000000000000000000000000000000 r) (h : Only p r s x) :
    Only p r s (State.fbUpdate x a1) := by
  unfold State.fbUpdate
  repeat' first
    | with_reducible assumption
    | with_reducible refine State.serialUpdate_only (Sub.trans rfl hp) (Sub.trans rfl hr) ?_
    | with_reducible refine State.predict_only (Sub.trans rfl hp) (Sub.trans rfl hr) ?_
    | with_reducible refine State.portUpdate_only (Sub.trans rfl hp) (Sub.trans rfl hr) ?_
    | (extract_lets +onlyGivenNames y; first | (refine Only.cut (x := y) ?_ ?_; subst y; rotate_left; clear_value y; intro _) | clear_value y)
    | split
    | dsimp only

theorem State.countEdge_only {p r : Nat} {s x : State} {a1 a2 a3 : _} (hp : Sub 520 p) (hr : Sub 0x10000000000000000000000000000000000000000000000000000000000000000000000000000000000000000000000000000000000000 r) (h : Only p r s x) :
    Only p r s (State.countEdge x a1 a2 a3) := by
  unfold State.countEdge
  repeat' first
    | with_reducible assumption
    | with_reducible refine Only.seti 436 R.DP_COUNT_num (Sub.bits hr rfl) ?_
    | with_reducible refine State.moveLin_only (Sub.trans rfl hp) (Sub.trans rfl hr) ?_
    | with_reducible refine State.updChan_only (Sub.trans rfl hp) (Sub.trans rfl hr) ?_
    | with_reducible refine State.relatch_only (Sub.trans rfl hp) (Sub.trans rfl hr) ?_
    | intro _
    | (extract_lets +onlyGivenNames y; first | (refine Only.cut (x := y) ?_ ?_; subst y; rotate_left; clear_value y; intro _) | clear_value y)
    | split
    | dsimp only

theorem State.dpEdge_only {p r : Nat} {s x : State} {a1 a2 a3 : _} (hp : Sub 4194824 p) (hr : Sub 0xe060000000000000000000000000000000000000000000000000000000000000000000000000000000000000000000000000000000000000000000000000000000000000000000000000000000000000000000000000000000000000000000000000000000000000000000000000000000000000000000000000000000000000000000000000000000000000000020000000000000000000000000000000000000000000000000000000012000000000000000000000000000000000000000000000000000000000000000000000000000000000000000000000000000000000000 r) (h : Only p r s x) :
    Only p r s (State.dpEdge x a1 a2 a3) := by
  unfold State.dpEdge
  repeat' first
    | with_reducible assumption
    | with_reducible refine State.updDport_only (Sub.trans rfl hp) (Sub.trans rfl hr) ?_
    | with_reducible refine Only.snd (q := (State.inject _ _ _)) (by assumption) (State.inject_only (Sub.trans rfl hp) (Sub.trans rfl hr) ?_)
    | with_reducible refine State.inject_only (Sub.trans rfl hp) (Sub.trans rfl hr) ?_
    | with_reducible refine State.quadErr_only (Sub.trans rfl hp) (Sub.trans rfl hr) ?_
    | with_reducible refine State.countEdge_only (Sub.trans rfl hp) (Sub.trans rfl hr) ?_
    | with_reducible refine Only.ite ?_ ?_
    | intro _
    | (extract_lets +onlyGivenNames y; first | (refine Only.cut (x := y) ?_ ?_; subst y; rotate_left; clear_value y; intro _) | (refine Only.cut (x := y.1) ?_ ?_; subst y; rotate_left; clear_value y; intro _) | (refine Only.cut (x := y.2) ?_ ?_; subst y; rotate_left; clear_value y; intro _) | (refine Only.cut (x := y.2.2) ?_ ?_; subst y; rotate_left; clear_value y; intro _) | clear_value y)
    | split
    | dsimp only

theorem execDpEdge_only {p r : Nat} {s : State} {a0 a1 a2 : _} (hp : Sub 4194824 p) (hr : Sub 0xe060000000000000000000000000000000000000000000000000000000000000000000000000000000000000000000000000000000000000000000000000000000000000000000000000000000000000000000000000000000000000000000000000000000000000000000000000000000000000000000000000000000000000000000000000000000000000000020000000000000000000000000000000000000000000000000000000012000000000000000000000000000000000000000000000000000000000000000000000000000000000000000000000000000000000000 r) :
    ∃ t, execDpEdge a0 a1 a2 s = .next t ∧ Only p r s t := by
  unfold execDpEdge
  refine ⟨_, rfl, ?_⟩
  have h : Only p r s s := Only.refl
  repeat' first
    | with_reducible assumption
    | with_reducible refine State.dpEdge_only (Sub.trans rfl hp) (Sub.trans rfl hr) ?_

theorem State.hallErr_only {p r : Nat} {s x : State} {a1 a2 : _} (hp : Sub 520 p) (hr : Sub 0x20000000000000000000000000000000000000000000000000000000008000000000000000000000000000000000000000000000000000000000000000000000000000000000000000000000000000000000000 r) (h : Only p r s x) :
    Only p r s (State.hallErr x a1 a2) := by
  unfold State.hallErr
  repeat' first
    | with_reducible assumption
    | with_reducible refine Only.inc 435 R.DP_STAT_HALL_ERR_num (Sub.bits hr rfl) ?_
    | with_reducible refine State.post_only (Sub.trans rfl hp) (Sub.trans rfl hr) ?_
    | with_reducible refine State.unverify_only (Sub.trans rfl hp) (Sub.trans rfl hr) ?_
    | (extract_lets +onlyGivenNames y; first | (refine Only.cut (x := y) ?_ ?_; subst y; rotate_left; clear_value y; intro _) | clear_value y)
    | split
    | dsimp only

theorem State.hallEdge_only {p r : Nat} {s x : State} {a1 a2 : _} (hp : Sub 4194824 p) (hr : Sub 0xe060000000000000000000000000000000000000000000000000000000000000000000000000000000000000000000000000000000000000000000000000000000000000000000000000000000000000000000000000000000000000000000000000000000000000000000000000000000000000000000000000000000000000000000000000000000000000000020000000000000000000000000000000000000000000000000000000018000000000000000000000000000000000000000000000000000000000000000000000000000000000000000000000000000000000000 r) (h : Only p r s x) :
    Only p r s (State.hallEdge x a1 a2) := by
  unfold State.hallEdge
  repeat' first
    | with_reducible assumption
    | with_reducible refine State.updDport_only (Sub.trans rfl hp) (Sub.trans rfl hr) ?_
    | with_reducible refine Only.snd (q := (State.inject _ _ _)) (by assumption) (State.inject_only (Sub.trans rfl hp) (Sub.trans rfl hr) ?_)
    | with_reducible refine State.inject_only (Sub.trans rfl hp) (Sub.trans rfl hr) ?_
    | with_reducible refine State.hallErr_only (Sub.trans rfl hp) (Sub.trans rfl hr) ?_
    | with_reducible refine State.countEdge_only (Sub.trans rfl hp) (Sub.trans rfl hr) ?_
    | with_reducible refine Only.ite ?_ ?_
    | intro _
    | (extract_lets +onlyGivenNames y; first | (refine Only.cut (x := y) ?_ ?_; subst y; rotate_left; clear_value y; intro _) | (refine Only.cut (x := y.1) ?_ ?_; subst y; rotate_left; clear_value y; intro _) | (refine Only.cut (x := y.2) ?_ ?_; subst y; rotate_left; clear_value y; intro _) | (refine Only.cut (x := y.2.2) ?_ ?_; subst y; rotate_left; clear_value y; intro _) | clear_value y)
    | split
    | dsimp only

theorem execHallEdge_only {p r : Nat} {s : State} {a0 a1 : _} (hp : Sub 4194824 p) (hr : Sub 0xe060000000000000000000000000000000000000000000000000000000000000000000000000000000000000000000000000000000000000000000000000000000000000000000000000000000000000000000000000000000000000000000000000000000000000000000000000000000000000000000000000000000000000000000000000000000000000000020000000000000000000000000000000000000000000000000000000018000000000000000000000000000000000000000000000000000000000000000000000000000000000000000000000000000000000000 r) :
    ∃ t, execHallEdge a0 a1 s = .next t ∧ Only p r s t := by
  unfold execHallEdge
  refine ⟨_, rfl, ?_⟩
  have h : Only p r s s := Only.refl
  repeat' first
    | with_reducible assumption
    | with_reducible refine State.hallEdge_only (Sub.trans rfl hp) (Sub.trans rfl hr) ?_

theorem State.updEmul_only {p r : Nat} {s x : State} {a1 a2 : _} (hp : Sub 512 p) (_hr : Sub 0 r) (h : Only p r s x) :
    Only p r s (State.updEmul x a1 a2) := by
  unfold State.updEmul
  repeat' first
    | with_reducible assumption
    | intro _
    | (extract_lets +onlyGivenNames y; first | (refine Only.cut (x := y) ?_ ?_; subst y; rotate_left; clear_value y; intro _) | clear_value y)
    | dsimp only
    | (first | (with_reducible refine Only.upd_fb (Sub.bits hp rfl) ?_; first | with_reducible assumption))

theorem State.eoLost_only {p r : Nat} {s x : State} {a1 a2 : _} (hp : Sub 520 p) (hr : Sub 0x200000000000000000000000000000000000000000000000000000000000000000000000000000000000000000000000000000000000000 r) (h : Only p r s x) :
    Only p r s (State.eoLost x a1 a2) := by
  unfold State.eoLost
  repeat' first
    | with_reducible assumption
    | with_reducible refine Only.setBit 441 R.EO_CFG_LOST_num (Sub.bits hr rfl) ?_
    | with_reducible refine State.updEmul_only (Sub.trans rfl hp) (Sub.trans rfl hr) ?_
    | with_reducible refine State.post_only (Sub.trans rfl hp) (Sub.trans rfl hr) ?_
    | intro _
    | (extract_lets +onlyGivenNames y; first | (refine Only.cut (x := y) ?_ ?_; subst y; rotate_left; clear_value y; intro _) | clear_value y)
    | dsimp only

theorem State.eoCarry_only {p r : Nat} {s x : State} {a1 a2 : _} (hp : Sub 136 p) (hr : Sub 0x800000000000000000000000000000000000000000000000000000000000000000000000000000000000000000000000000000000000000 r) (h : Only p r s x) :
    Only p r s (State.eoCarry x a1 a2) := by
  unfold State.eoCarry
  repeat' first
    | with_reducible assumption
    | with_reducible refine Only.inc 443 R.EO_STAT_OVERRUN_num (Sub.bits hr rfl) ?_
    | with_reducible refine State.postOnce_only (Sub.trans rfl hp) (Sub.trans rfl hr) ?_

theorem State.eoCycle_only {p r : Nat} {s x : State} {a1 : _} (hp : Sub 4194952 p) (hr : Sub 0xe060000000000000000000000000000000000000000000000000000000000000000000000000000000000000000000000000000000000000000000000000000000000000000000000000000000000000000000000000000000000000000000000000000000000000000000000000000000000000000000000000000000000000000000000000000000000000000000000000000000000000000000000000000000000000000000000001a00000000000000000000000000000000000000000000000000000000000000000000000000000000000000000000000000000000000000 r) (h : Only p r s x) :
    Only p r s (State.eoCycle x a1) := by
  unfold State.eoCycle
  repeat' first
    | with_reducible assumption
    | with_reducible refine State.updEmul_only (Sub.trans rfl hp) (Sub.trans rfl hr) ?_
    | with_reducible refine Only.set 444 R.EO_STAT_BACKLOG_num (Sub.bits hr rfl) ?_
    | with_reducible refine Only.snd (q := (State.inject _ _ _)) (by assumption) (State.inject_only (Sub.trans rfl hp) (Sub.trans rfl hr) ?_)
    | with_reducible refine State.inject_only (Sub.trans rfl hp) (Sub.trans rfl hr) ?_
    | with_reducible refine State.eoLost_only (Sub.trans rfl hp) (Sub.trans rfl hr) ?_
    | with_reducible refine State.eoCarry_only (Sub.trans rfl hp) (Sub.trans rfl hr) ?_
    | with_reducible refine Only.ite ?_ ?_
    | intro _
    | (extract_lets +onlyGivenNames y; first | (refine Only.cut (x := y) ?_ ?_; subst y; rotate_left; clear_value y; intro _) | (refine Only.cut (x := y.1) ?_ ?_; subst y; rotate_left; clear_value y; intro _) | (refine Only.cut (x := y.2) ?_ ?_; subst y; rotate_left; clear_value y; intro _) | (refine Only.cut (x := y.2.2) ?_ ?_; subst y; rotate_left; clear_value y; intro _) | clear_value y)
    | split
    | dsimp only

theorem execFeedbackUpdate_only {p r : Nat} {s : State} {a0 : _} (hp : Sub 4228744 p) (hr : Sub 0xe06000000000000000000000000000000000000000000000000000000000000000000000000000000000000000000000000000000000000000000000000000000000000000000000000000000000080000000000000000000000000000200000004000000000000000000000000000000000000000000000000000000000000000000000000000000000000000002000000000000000000000000000000000000000000000000000000000000bfffe00000000000000000000000000000000000000000000000000000000000000000000000000000000000000000000000000000 r) :
    ∃ t, execFeedbackUpdate a0 s = .next t ∧ Only p r s t := by
  unfold execFeedbackUpdate
  refine ⟨_, rfl, ?_⟩
  have h : Only p r s s := Only.refl
  repeat' first
    | with_reducible assumption
    | with_reducible refine State.fbUpdate_only (Sub.trans rfl hp) (Sub.trans rfl hr) ?_

theorem State.ssiDrive_only {p r : Nat} {s x : State} {a1 : _} (hp : Sub 512 p) (hr : Sub 0 r) (h : Only p r s x) :
    Only p r s (State.ssiDrive x a1) := by
  unfold State.ssiDrive
  repeat' first
    | with_reducible assumption
    | with_reducible refine State.updDport_only (Sub.trans rfl hp) (Sub.trans rfl hr) ?_
    | with_reducible refine Only.ite ?_ ?_
    | intro _
    | (extract_lets +onlyGivenNames y; first | (refine Only.cut (x := y) ?_ ?_; subst y; rotate_left; clear_value y; intro _) | clear_value y)
    | split
    | dsimp only

theorem State.ssiEnd_only {p r : Nat} {s x : State} {a1 : _} (hp : Sub 4194824 p) (hr : Sub 0xe060000000000000000000000000000000000000000000000000000000000000000000000000000000000000000000000000000000000000000000000000000000000000000000000000000000000000000000000000000000000000000000000000000000000000000000000000000000000000000000000000000000000000000000000000000000000000000000000000000000000000000000000000000000000000000000000000004000000000000000000000000000000000000000000000000000000000000000000000000000000000000000000000000000000000000 r) (h : Only p r s x) :
    Only p r s (State.ssiEnd x a1) := by
  unfold State.ssiEnd
  repeat' first
    | with_reducible assumption
    | with_reducible refine State.updDport_only (Sub.trans rfl hp) (Sub.trans rfl hr) ?_
    | with_reducible refine State.updChan_only (Sub.trans rfl hp) (Sub.trans rfl hr) ?_
    | with_reducible refine Only.inc 434 R.DP_STAT_SSI_ERR_num (Sub.bits hr rfl) ?_
    | with_reducible refine State.post_only (Sub.trans rfl hp) (Sub.trans rfl hr) ?_
    | with_reducible refine State.detect_only (Sub.trans rfl hp) (Sub.trans rfl hr) ?_ ?_
    | with_reducible refine Only.ite ?_ ?_
    | intro _
    | (extract_lets +onlyGivenNames y; first | (refine Only.cut (x := y) ?_ ?_; subst y; rotate_left; clear_value y; intro _) | clear_value y)
    | split
    | dsimp only

theorem State.standstillFb_only {p r : Nat} {s x : State} {a1 : _} (hp : Sub 512 p) (hr : Sub 0 r) (h : Only p r s x) :
    Only p r s (State.standstillFb x a1) := by
  unfold State.standstillFb
  repeat' first
    | with_reducible assumption
    | with_reducible refine State.updChan_only (Sub.trans rfl hp) (Sub.trans rfl hr) ?_
    | with_reducible refine Only.ite ?_ ?_
    | intro _
    | (extract_lets +onlyGivenNames y; first | (refine Only.cut (x := y) ?_ ?_; subst y; rotate_left; clear_value y; intro _) | clear_value y)
    | split
    | dsimp only

theorem execFbStandstill_only {p r : Nat} {s : State} {a0 : _} (hp : Sub 512 p) (hr : Sub 0 r) :
    ∃ t, execFbStandstill a0 s = .next t ∧ Only p r s t := by
  unfold execFbStandstill
  refine ⟨_, rfl, ?_⟩
  have h : Only p r s s := Only.refl
  repeat' first
    | with_reducible assumption
    | with_reducible refine State.standstillFb_only (Sub.trans rfl hp) (Sub.trans rfl hr) ?_

theorem State.chanEnable_only {p r : Nat} {s x : State} {a1 : _} (hp : Sub 512 p) (hr : Sub 0x1fffe00000000000000000000000000000000000000000000000000000000000000000000000000000000000000000000000000000 r) (h : Only p r s x) :
    Only p r s (State.chanEnable x a1) := by
  unfold State.chanEnable
  repeat' first
    | with_reducible assumption
    | with_reducible refine State.updChan_only (Sub.trans rfl hp) (Sub.trans rfl hr) ?_
    | with_reducible refine State.recordPos_only (Sub.trans rfl hp) (Sub.trans rfl hr) ?_
    | with_reducible refine State.recordQual_only (Sub.trans rfl hp) (Sub.trans rfl hr) ?_
    | with_reducible refine Only.ite ?_ ?_
    | intro _
    | (extract_lets +onlyGivenNames y; first | (refine Only.cut (x := y) ?_ ?_; subst y; rotate_left; clear_value y; intro _) | clear_value y)
    | split
    | dsimp only

theorem State.dpSample_only {p r : Nat} {s x : State} {a1 : _} (hp : Sub 512 p) (hr : Sub 0 r) (h : Only p r s x) :
    Only p r s (State.dpSample x a1) := by
  unfold State.dpSample
  repeat' first
    | with_reducible assumption
    | with_reducible refine State.updDport_only (Sub.trans rfl hp) (Sub.trans rfl hr) ?_
    | with_reducible refine State.updChan_only (Sub.trans rfl hp) (Sub.trans rfl hr) ?_
    | with_reducible refine Only.ite ?_ ?_
    | intro _
    | (extract_lets +onlyGivenNames y; first | (refine Only.cut (x := y) ?_ ?_; subst y; rotate_left; clear_value y; intro _) | clear_value y)
    | split
    | dsimp only

theorem execSsiFrameStart_only {p r : Nat} {s : State} {a0 : _} (hp : Sub 4194856 p) (hr : Sub 0xe060000000000000000000000000000000000000000000000000000000000000000000000000000000000000000000000000000000000000000000000000000000000000000000000000000000000000000000000000000000000000000000000000000000000000000000000000000000000000000000000000000000000000000000000000000000000000000000000000000000000000000000000000000000000000000000000000000000000000000000000000000000000000000000000000000000000000000000000033000000000000000000000000000000000000000 r) :
    ∃ t, execSsiFrameStart a0 s = .next t ∧ Only p r s t := by
  unfold execSsiFrameStart
  refine ⟨_, rfl, ?_⟩
  have h : Only p r s s := Only.refl
  repeat' first
    | with_reducible assumption
    | with_reducible refine State.ssiStart_only (Sub.trans rfl hp) (Sub.trans rfl hr) ?_

theorem State.eoPins_only {p r : Nat} {s x : State} {a1 : _} (hp : Sub 512 p) (hr : Sub 0 r) (h : Only p r s x) :
    Only p r s (State.eoPins x a1) := by
  unfold State.eoPins
  repeat' first
    | with_reducible assumption
    | with_reducible refine State.updEmul_only (Sub.trans rfl hp) (Sub.trans rfl hr) ?_
    | intro _
    | (extract_lets +onlyGivenNames y; first | (refine Only.cut (x := y) ?_ ?_; subst y; rotate_left; clear_value y; intro _) | clear_value y)
    | dsimp only

theorem State.eoEnable_only {p r : Nat} {s x : State} {a1 : _} (hp : Sub 512 p) (hr : Sub 0x1220000000000000000000000000000000000000000000000000000000000000000000000000000000000000000000000000000000000000 r) (h : Only p r s x) :
    Only p r s (State.eoEnable x a1) := by
  unfold State.eoEnable
  repeat' first
    | with_reducible assumption
    | with_reducible refine Only.setBit 437 R.EO_CFG_EN_num (Sub.bits hr rfl) ?_
    | with_reducible refine Only.setBit 441 R.EO_CFG_LOST_num (Sub.bits hr rfl) ?_
    | with_reducible refine Only.set 444 R.EO_STAT_BACKLOG_num (Sub.bits hr rfl) ?_
    | with_reducible refine State.updEmul_only (Sub.trans rfl hp) (Sub.trans rfl hr) ?_
    | with_reducible refine State.eoPins_only (Sub.trans rfl hp) (Sub.trans rfl hr) ?_
    | with_reducible refine Only.ite ?_ ?_
    | intro _
    | (extract_lets +onlyGivenNames y; first | (refine Only.cut (x := y) ?_ ?_; subst y; rotate_left; clear_value y; intro _) | clear_value y)
    | split
    | dsimp only

theorem execSsiFrameEnd_only {p r : Nat} {s : State} {a0 : _} (hp : Sub 4194824 p) (hr : Sub 0xe060000000000000000000000000000000000000000000000000000000000000000000000000000000000000000000000000000000000000000000000000000000000000000000000000000000000000000000000000000000000000000000000000000000000000000000000000000000000000000000000000000000000000000000000000000000000000000000000000000000000000000000000000000000000000000000000000004000000000000000000000000000000000000000000000000000000000000000000000000000000000000000000000000000000000000 r) :
    ∃ t, execSsiFrameEnd a0 s = .next t ∧ Only p r s t := by
  unfold execSsiFrameEnd
  refine ⟨_, rfl, ?_⟩
  have h : Only p r s s := Only.refl
  repeat' first
    | with_reducible assumption
    | with_reducible refine State.ssiEnd_only (Sub.trans rfl hp) (Sub.trans rfl hr) ?_

theorem State.eoTick_only {p r : Nat} {s x : State} {a1 : _} (hp : Sub 512 p) (hr : Sub 0 r) (h : Only p r s x) :
    Only p r s (State.eoTick x a1) := by
  unfold State.eoTick
  repeat' first
    | with_reducible assumption
    | with_reducible refine State.updEmul_only (Sub.trans rfl hp) (Sub.trans rfl hr) ?_
    | with_reducible refine State.eoPins_only (Sub.trans rfl hp) (Sub.trans rfl hr) ?_
    | with_reducible refine Only.ite ?_ ?_
    | intro _
    | (extract_lets +onlyGivenNames y; first | (refine Only.cut (x := y) ?_ ?_; subst y; rotate_left; clear_value y; intro _) | clear_value y)
    | split
    | dsimp only

theorem State.fbPend_only {p r : Nat} {s x : State} {a1 a2 : _} (hp : Sub 512 p) (hr : Sub 0 r) (h : Only p r s x) :
    Only p r s (State.fbPend x a1 a2) := by
  unfold State.fbPend
  repeat' first
    | with_reducible assumption
    | with_reducible refine State.updChan_only (Sub.trans rfl hp) (Sub.trans rfl hr) ?_
    | with_reducible refine Only.ite ?_ ?_
    | intro _
    | (extract_lets +onlyGivenNames y; first | (refine Only.cut (x := y) ?_ ?_; subst y; rotate_left; clear_value y; intro _) | clear_value y)
    | split
    | dsimp only

theorem execDpSample_only {p r : Nat} {s : State} {a0 : _} (hp : Sub 512 p) (hr : Sub 0 r) :
    ∃ t, execDpSample a0 s = .next t ∧ Only p r s t := by
  unfold execDpSample
  refine ⟨_, rfl, ?_⟩
  have h : Only p r s s := Only.refl
  repeat' first
    | with_reducible assumption
    | with_reducible refine State.dpSample_only (Sub.trans rfl hp) (Sub.trans rfl hr) ?_

theorem execEoEnable_only {p r : Nat} {s : State} {a0 : _} (hp : Sub 512 p) (hr : Sub 0x1220000000000000000000000000000000000000000000000000000000000000000000000000000000000000000000000000000000000000 r) :
    ∃ t, execEoEnable a0 s = .next t ∧ Only p r s t := by
  unfold execEoEnable
  refine ⟨_, rfl, ?_⟩
  have h : Only p r s s := Only.refl
  repeat' first
    | with_reducible assumption
    | with_reducible refine State.eoEnable_only (Sub.trans rfl hp) (Sub.trans rfl hr) ?_

end Sys2Proof.Machine
end

