-- ==== Sys2Proof/Laws/OnlyMeScan.lean ====
section
/-! SUPPORT. Footprints of the operations of Machine/MeScan.lean. -/
namespace Sys2Proof.Machine
set_option linter.all false
set_option Elab.async false

theorem State.updSlot_only {p r : Nat} {s x : State} {a1 a2 : _} (hp : Sub 256 p) (_hr : Sub 0 r) (h : Only p r s x) :
    Only p r s (State.updSlot x a1 a2) := by
  unfold State.updSlot
  repeat' first
    | with_reducible assumption
    | intro _
    | (extract_lets +onlyGivenNames y; first | (refine Only.cut (x := y) ?_ ?_; subst y; rotate_left; clear_value y; intro _) | clear_value y)
    | dsimp only
    | (first | (with_reducible refine Only.upd_cb (Sub.bits hp rfl) ?_; first | with_reducible assumption))

end Sys2Proof.Machine
end

