-- ==== Sys2Proof/Laws/OnlyBus.lean ====
section
/-! SUPPORT. Footprints of the operations of Machine/Bus.lean. -/
namespace Sys2Proof.Machine
set_option linter.all false
set_option Elab.async false

theorem State.showFresh_only {p r : Nat} {s x : State} {a1 : _} (_hp : Sub 0 p) (hr : Sub 0xa0000000000000000000000000000000000000000000000000000000000000000000000000000000000000 r) (h : Only p r s x) :
    Only p r s (State.showFresh x a1) := by
  unfold State.showFresh
  repeat' first
    | with_reducible assumption
    | with_reducible refine Only.setBit 341 R.CB_SLOT_STAT_FRESH_HELD_num (Sub.bits hr rfl) ?_
    | with_reducible refine Only.set 343 R.CB_SLOT_STAT_MISS_RUN_num (Sub.bits hr rfl) ?_
    | (extract_lets +onlyGivenNames y; first | (refine Only.cut (x := y) ?_ ?_; subst y; rotate_left; clear_value y; intro _) | clear_value y)
    | dsimp only

theorem State.postKey_only {p r : Nat} {s x : State} {a1 a2 a3 a4 a5 : _} (hp : Sub 136 p) (hr : Sub 0 r) (h : Only p r s x) :
    Only p r s (State.postKey x a1 a2 a3 a4 a5) := by
  unfold State.postKey
  repeat' first
    | with_reducible assumption
    | with_reducible refine State.post_only (Sub.trans rfl hp) (Sub.trans rfl hr) ?_
    | with_reducible refine Only.ite ?_ ?_
    | (extract_lets +onlyGivenNames y; first | (refine Only.cut (x := y) ?_ ?_; subst y; rotate_left; clear_value y; intro _) | clear_value y)
    | split
    | dsimp only
    | (first | (with_reducible refine Only.upd_once (Sub.bits hp rfl) ?_; first | with_reducible assumption | with_reducible refine State.post_only (Sub.trans rfl hp) (Sub.trans rfl hr) ?_))

theorem State.driftTest_only {p r : Nat} {s x : State} {a1 : _} (hp : Sub 4194440 p) (hr : Sub 0xe060000000000000000000000000000000000000000000000000000000000000000000000000000000000000000000000000000000000000000000000000000000000000000000000000000000000000000000000000000000000000000000000000000000000000000000000000000000000000000000000000000000000000000000000000000000000000000000000000000000000000000000000000000000000000000000000000000000000000000000000000000000000000000000000000000000000000000000000000000000000000000000000000000000000000000 r) (h : Only p r s x) :
    Only p r s (State.driftTest x a1) := by
  unfold State.driftTest
  repeat' first
    | with_reducible assumption
    | with_reducible refine State.postKey_only (Sub.trans rfl hp) (Sub.trans rfl hr) ?_
    | with_reducible refine State.detect_only (Sub.trans rfl hp) (Sub.trans rfl hr) ?_ ?_
    | with_reducible refine Only.ite ?_ ?_
    | intro _
    | (extract_lets +onlyGivenNames y; first | (refine Only.cut (x := y) ?_ ?_; subst y; rotate_left; clear_value y; intro _) | clear_value y)
    | split
    | dsimp only

theorem execCbDrift_only {p r : Nat} {s : State} {a0 : _} (hp : Sub 4194440 p) (hr : Sub 0xe060000000000000000000000000000000000000000000000000000000000000000000000000000000000000000000000000000000000000000000000000000000000000000000000000000000000000000000000000000000000000000000000000000000000000000000000000000000000000000000000000000000000000000000000000000000000000000000000000000000000000000000000000000000000000000000000000000000000000000000000000000000000000000000000000000000000000000000000000000000000000000000000000000000000000000 r) :
    ∃ t, execCbDrift a0 s = .next t ∧ Only p r s t := by
  unfold execCbDrift
  refine ⟨_, rfl, ?_⟩
  have h : Only p r s s := Only.refl
  repeat' first
    | with_reducible assumption
    | with_reducible refine State.driftTest_only (Sub.trans rfl hp) (Sub.trans rfl hr) ?_

theorem State.policePass_only {p r : Nat} {s x : State} {a1 a2 : _} (hp : Sub 256 p) (hr : Sub 0 r) (h : Only p r s x) :
    Only p r s (State.policePass x a1 a2) := by
  unfold State.policePass
  repeat' first
    | with_reducible assumption
    | with_reducible refine State.updPart_only (Sub.trans rfl hp) (Sub.trans rfl hr) ?_
    | intro _
    | (extract_lets +onlyGivenNames y; first | (refine Only.cut (x := y) ?_ ?_; subst y; rotate_left; clear_value y; intro _) | clear_value y)
    | split
    | dsimp only

theorem State.joinValid_only {p r : Nat} {s x : State} {a1 a2 : _} (hp : Sub 256 p) (hr : Sub 0 r) (h : Only p r s x) :
    Only p r s (State.joinValid x a1 a2) := by
  unfold State.joinValid
  repeat' first
    | with_reducible assumption
    | with_reducible refine State.updPart_only (Sub.trans rfl hp) (Sub.trans rfl hr) ?_
    | with_reducible refine Only.ite ?_ ?_
    | intro _
    | (extract_lets +onlyGivenNames y; first | (refine Only.cut (x := y) ?_ ?_; subst y; rotate_left; clear_value y; intro _) | clear_value y)
    | split
    | dsimp only

theorem State.discard_only {p r : Nat} {s x : State} {a1 a2 a3 a4 a5 a6 : _} (c0 : Nat) (e0 : fieldOf c0 = a1) (k0 : r.testBit c0 = true) (hp : Sub 136 p) (hr : Sub 0 r) (h : Only p r s x) :
    Only p r s (State.discard x a1 a2 a3 a4 a5 a6) := by
  unfold State.discard
  repeat' first
    | with_reducible assumption
    | with_reducible refine Only.inc c0 e0 k0 ?_
    | with_reducible refine State.postKey_only (Sub.trans rfl hp) (Sub.trans rfl hr) ?_

theorem State.staleSlots_only {p r : Nat} {s x : State} {a1 : _} (hp : Sub 256 p) (hr : Sub 0 r) (h : Only p r s x) :
    Only p r s (State.staleSlots x a1) := by
  unfold State.staleSlots
  repeat' first
    | with_reducible assumption
    | with_reducible refine State.updSlot_only (Sub.trans rfl hp) (Sub.trans rfl hr) ?_
    | with_reducible refine Only.foldl ?_ ?_
    | intro _
    | (extract_lets +onlyGivenNames y; first | (refine Only.cut (x := y) ?_ ?_; subst y; rotate_left; clear_value y; intro _) | clear_value y)
    | dsimp only

theorem State.showRun_only {p r : Nat} {s x : State} {a1 : _} (_hp : Sub 0 p) (hr : Sub 0x40000000000000000000000000000000000000000000000000000000000000000000000000000000000000000 r) (h : Only p r s x) :
    Only p r s (State.showRun x a1) := by
  unfold State.showRun
  repeat' first
    | with_reducible assumption
    | with_reducible refine Only.set 354 R.CB_PS_WIN_MISS_RUN_num (Sub.bits hr rfl) ?_
    | with_reducible refine Only.foldl ?_ ?_
    | intro _
    | dsimp only

theorem State.partnerLoss_only {p r : Nat} {s x : State} {a1 : _} (hp : Sub 536 p) (hr : Sub 0x20000000000000000000000000000000000000000000000000000000000000000000000000000000000000000000000000000000000000000000000000000000000000000000000000000000000000000000000 r) (h : Only p r s x) :
    Only p r s (State.partnerLoss x a1) := by
  unfold State.partnerLoss
  repeat' first
    | with_reducible assumption
    | with_reducible refine State.loseChan_only (Sub.trans rfl hp) (Sub.trans rfl hr) ?_
    | with_reducible refine Only.foldl ?_ ?_
    | intro _

theorem State.against_only {p r : Nat} {s x : State} {a1 a2 a3 a4 a5 : _} (c0 : Nat) (e0 : fieldOf c0 = a1) (k0 : r.testBit c0 = true) (hp : Sub 136 p) (hr : Sub 0 r) (h : Only p r s x) :
    Only p r s (State.against x a1 a2 a3 a4 a5) := by
  unfold State.against
  repeat' first
    | with_reducible assumption
    | with_reducible refine Only.inc c0 e0 k0 ?_
    | with_reducible refine State.postKey_only (Sub.trans rfl hp) (Sub.trans rfl hr) ?_

theorem State.injectSlot_only {p r : Nat} {s x : State} {a1 a2 a3 : _} (hp : Sub 4194312 p) (hr : Sub 0xe060000000000000000000000000000000000000000000000000000000000000000000000000000000000000000000000000000000000000000000000000000000000000000000000000000000000000000000000000000000000000000000000000000000000000000000000000000000000000000000000000000000000000000000000000000000000000000000000000000000000000000000000000000000000000000000000000000000000000000000000000000000000000000000000000000000000000000000000000000000000000000000000000000000000000000 r) (h : Only p r s x) :
    Only p r s (State.injectSlot x a1 a2 a3).2 := by
  unfold State.injectSlot
  repeat' first
    | with_reducible assumption
    | with_reducible refine State.injFire_only (Sub.trans rfl hp) (Sub.trans rfl hr) ?_
    | intro _
    | (extract_lets +onlyGivenNames y; first | (refine Only.cut (x := y) ?_ ?_; subst y; rotate_left; clear_value y; intro _) | (refine Only.cut (x := y.1) ?_ ?_; subst y; rotate_left; clear_value y; intro _) | (refine Only.cut (x := y.2) ?_ ?_; subst y; rotate_left; clear_value y; intro _) | (refine Only.cut (x := y.2.2) ?_ ?_; subst y; rotate_left; clear_value y; intro _) | clear_value y)
    | split
    | dsimp only

theorem State.commitFrame_only {p r : Nat} {s x : State} {a1 a2 a3 a4 a5 : _} (hp : Sub 256 p) (hr : Sub 0x70000000000000000000000000000000000000000000000000000000000000000000000000000000000000000 r) (h : Only p r s x) :
    Only p r s (State.commitFrame x a1 a2 a3 a4 a5) := by
  unfold State.commitFrame
  repeat' first
    | with_reducible assumption
    | with_reducible refine State.updSlot_only (Sub.trans rfl hp) (Sub.trans rfl hr) ?_
    | with_reducible refine Only.inc 352 R.CB_PS_WIN_EDGE_COUNT_num (Sub.bits hr rfl) ?_
    | with_reducible refine Only.set 353 R.CB_PS_WIN_EDGE_WIN_num (Sub.bits hr rfl) ?_
    | with_reducible refine State.showRun_only (Sub.trans rfl hp) (Sub.trans rfl hr) ?_
    | with_reducible refine Only.ite ?_ ?_
    | intro _
    | (extract_lets +onlyGivenNames y; first | (refine Only.cut (x := y) ?_ ?_; subst y; rotate_left; clear_value y; intro _) | clear_value y)
    | split
    | dsimp only

theorem State.classify_only {p r : Nat} {s x : State} {a1 a2 : _} (hp : Sub 4194696 p) (hr : Sub 0xe060000000000000000000000000000000000000000000000000000000000000000000000000000000000000000000000000000000000000000000000000000000000000000000000000000000000000000000000000000000000000000000000000000000000000000000000000000000000000000000000000000000000000000000000000000000000000000000000000000000000000000000000000000000000000000000000000000000000000000000000370000000000000000000000000000000000000000000000000000000000000000000000000000000000000000 r) (h : Only p r s x) :
    Only p r s (State.classify x a1 a2) := by
  unfold State.classify
  repeat' first
    | with_reducible assumption
    | with_reducible refine Only.snd (q := (State.inject _ _ _)) (by assumption) (State.inject_only (Sub.trans rfl hp) (Sub.trans rfl hr) ?_)
    | with_reducible refine State.inject_only (Sub.trans rfl hp) (Sub.trans rfl hr) ?_
    | with_reducible refine State.against_only 357 R.CB_PS_MISS_LAYOUT_STALE_num (Sub.bits hr rfl) (Sub.trans rfl hp) (Sub.trans rfl hr) ?_
    | with_reducible refine State.against_only 356 R.CB_PS_MISS_OUTSIDE_num (Sub.bits hr rfl) (Sub.trans rfl hp) (Sub.trans rfl hr) ?_
    | with_reducible refine Only.snd (q := (State.injectSlot _ _ _ _)) (by assumption) (State.injectSlot_only (Sub.trans rfl hp) (Sub.trans rfl hr) ?_)
    | with_reducible refine State.injectSlot_only (Sub.trans rfl hp) (Sub.trans rfl hr) ?_
    | with_reducible refine State.updSlot_only (Sub.trans rfl hp) (Sub.trans rfl hr) ?_
    | with_reducible refine State.commitFrame_only (Sub.trans rfl hp) (Sub.trans rfl hr) ?_
    | with_reducible refine Only.ite ?_ ?_
    | intro _
    | (extract_lets +onlyGivenNames y; first | (refine Only.cut (x := y) ?_ ?_; subst y; rotate_left; clear_value y; intro _) | (refine Only.cut (x := y.1) ?_ ?_; subst y; rotate_left; clear_value y; intro _) | (refine Only.cut (x := y.2) ?_ ?_; subst y; rotate_left; clear_value y; intro _) | (refine Only.cut (x := y.2.2) ?_ ?_; subst y; rotate_left; clear_value y; intro _) | clear_value y)
    | split
    | dsimp only

theorem State.backupRef_only {p r : Nat} {s x : State} {a1 a2 : _} (hp : Sub 4194440 p) (hr : Sub 0xe060000000000000000000000000000000000000000000000000000000000000000000000000000000000000000000000000000000000000000000000000000000000000000000000000000000000000000000000000000000000000000000000000000000000000000000000000000000000000000000000000000000000000000000000000000000000000000000000000000000000000000000000000000000000000000000000000000000000000000000000000000000000000000000000000000000000000000000000000000000000000000000000000000000000000000 r) (h : Only p r s x) :
    Only p r s (State.backupRef x a1 a2) := by
  unfold State.backupRef
  repeat' first
    | with_reducible assumption
    | with_reducible refine State.postKey_only (Sub.trans rfl hp) (Sub.trans rfl hr) ?_
    | with_reducible refine State.detect_only (Sub.trans rfl hp) (Sub.trans rfl hr) ?_ ?_
    | intro _
    | dsimp only

theorem State.refuseJoin_only {p r : Nat} {s x : State} {a1 : _} (hp : Sub 256 p) (hr : Sub 0 r) (h : Only p r s x) :
    Only p r s (State.refuseJoin x a1) := by
  unfold State.refuseJoin
  repeat' first
    | with_reducible assumption
    | with_reducible refine State.updPart_only (Sub.trans rfl hp) (Sub.trans rfl hr) ?_
    | intro _
    | (extract_lets +onlyGivenNames y; first | (refine Only.cut (x := y) ?_ ?_; subst y; rotate_left; clear_value y; intro _) | clear_value y)
    | dsimp only

theorem State.syncFallback_only {p r : Nat} {s x : State} {a1 a2 : _} (hp : Sub 8 p) (hr : Sub 0 r) (h : Only p r s x) :
    Only p r s (State.syncFallback x a1 a2) := by
  unfold State.syncFallback
  repeat' first
    | with_reducible assumption
    | with_reducible refine State.post_only (Sub.trans rfl hp) (Sub.trans rfl hr) ?_

theorem State.settleRef_only {p r : Nat} {s x : State} {a1 a2 a3 : _} (hp : Sub 264 p) (hr : Sub 0x2000000000000000000000000000000000000000000000000000000000000000000000000000000000000000 r) (h : Only p r s x) :
    Only p r s (State.settleRef x a1 a2 a3) := by
  unfold State.settleRef
  repeat' first
    | with_reducible assumption
    | with_reducible refine State.syncFallback_only (Sub.trans rfl hp) (Sub.trans rfl hr) ?_
    | with_reducible refine Only.set 349 R.CB_PS_SYNC_SYNC_MODE_num (Sub.bits hr rfl) ?_
    | with_reducible refine State.updPart_only (Sub.trans rfl hp) (Sub.trans rfl hr) ?_
    | with_reducible refine State.refuseJoin_only (Sub.trans rfl hp) (Sub.trans rfl hr) ?_
    | with_reducible refine Only.ite ?_ ?_
    | intro _
    | (extract_lets +onlyGivenNames y; first | (refine Only.cut (x := y) ?_ ?_; subst y; rotate_left; clear_value y; intro _) | clear_value y)
    | split
    | dsimp only

theorem State.settleOther_only {p r : Nat} {s x : State} {a1 a2 : _} (hp : Sub 264 p) (hr : Sub 0x2000000000000000000000000000000000000000000000000000000000000000000000000000000000000000 r) (h : Only p r s x) :
    Only p r s (State.settleOther x a1 a2) := by
  unfold State.settleOther
  repeat' first
    | with_reducible assumption
    | with_reducible refine State.refuseJoin_only (Sub.trans rfl hp) (Sub.trans rfl hr) ?_
    | with_reducible refine State.settleRef_only (Sub.trans rfl hp) (Sub.trans rfl hr) ?_
    | with_reducible refine Only.ite ?_ ?_
    | split

theorem State.settle_only {p r : Nat} {s x : State} {a1 : _} (hp : Sub 4194568 p) (hr : Sub 0xe060000000000000000000000000000000000000000000000000000000000000000000000000000000000000000000000000000000000000000000000000000000000000000000000000000000000000000000000000000000000000000000000000000000000000000000000000000000000000000000000000000000000000000000000000000000000000000000000000000000000000000000000000000000000000000000000000000000000000000000000002000000000000000000000000000000000000000000000000000000000000000000000000000000000000000 r) (h : Only p r s x) :
    Only p r s (State.settle x a1) := by
  unfold State.settle
  repeat' first
    | with_reducible assumption
    | with_reducible refine Only.snd (q := (State.inject _ _ _)) (by assumption) (State.inject_only (Sub.trans rfl hp) (Sub.trans rfl hr) ?_)
    | with_reducible refine State.inject_only (Sub.trans rfl hp) (Sub.trans rfl hr) ?_
    | with_reducible refine Only.set 349 R.CB_PS_SYNC_SYNC_MODE_num (Sub.bits hr rfl) ?_
    | with_reducible refine State.updPart_only (Sub.trans rfl hp) (Sub.trans rfl hr) ?_
    | with_reducible refine State.settleOther_only (Sub.trans rfl hp) (Sub.trans rfl hr) ?_
    | with_reducible refine Only.ite ?_ ?_
    | with_reducible refine Only.foldl ?_ ?_
    | with_reducible refine Only.foldl_fst ?_ ?_
    | with_reducible refine Only.foldl_snd ?_ ?_
    | intro _
    | (extract_lets +onlyGivenNames y; first | (refine Only.cut (x := y) ?_ ?_; subst y; rotate_left; clear_value y; intro _) | (refine Only.cut (x := y.1) ?_ ?_; subst y; rotate_left; clear_value y; intro _) | (refine Only.cut (x := y.2) ?_ ?_; subst y; rotate_left; clear_value y; intro _) | (refine Only.cut (x := y.2.2) ?_ ?_; subst y; rotate_left; clear_value y; intro _) | clear_value y)
    | split
    | dsimp only

theorem State.delayResponse_only {p r : Nat} {s x : State} {a1 a2 : _} (hp : Sub 4194568 p) (hr : Sub 0xe060000000000000000000000000000000000000000000000000000000000000000000000000000000000000000000000000000000000000000000000000000000000000000000000000000000000000000000000000000000000000000000000000000000000000000000000000000000000000000000000000000000000000000000000000000000000000000000000000000000000000000000000000000000000000000000000000000000000000000000000002000000000400000000000000000000000000000000000000000000000000000000000000000000000000000 r) (h : Only p r s x) :
    Only p r s (State.delayResponse x a1 a2) := by
  unfold State.delayResponse
  repeat' first
    | with_reducible assumption
    | with_reducible refine State.updPart_only (Sub.trans rfl hp) (Sub.trans rfl hr) ?_
    | with_reducible refine Only.seti 310 R.CB_PT_DELAY_DELAY_num (Sub.bits hr rfl) ?_
    | with_reducible refine State.settle_only (Sub.trans rfl hp) (Sub.trans rfl hr) ?_
    | with_reducible refine Only.ite ?_ ?_
    | with_reducible refine Only.foldl ?_ ?_
    | intro _
    | (extract_lets +onlyGivenNames y; first | (refine Only.cut (x := y) ?_ ?_; subst y; rotate_left; clear_value y; intro _) | clear_value y)
    | split
    | dsimp only

theorem State.quarantine_only {p r : Nat} {s x : State} {a1 a2 a3 : _} (hp : Sub 792 p) (hr : Sub 0x20000000000000000000000000000000000000000000000000000000000000000000000000000000000000000060000000000000000000000000000000000000000000000000000000000000000000000000000 r) (h : Only p r s x) :
    Only p r s (State.quarantine x a1 a2 a3) := by
  unfold State.quarantine
  repeat' first
    | with_reducible assumption
    | with_reducible refine State.updPart_only (Sub.trans rfl hp) (Sub.trans rfl hr) ?_
    | with_reducible refine Only.set 305 R.CB_PT_STATE_STATE_num (Sub.bits hr rfl) ?_
    | with_reducible refine Only.set 306 R.CB_PT_STATE_QCAUSE_num (Sub.bits hr rfl) ?_
    | with_reducible refine State.post_only (Sub.trans rfl hp) (Sub.trans rfl hr) ?_
    | with_reducible refine State.fault_only (Sub.trans rfl hp) (Sub.trans rfl hr) ?_
    | with_reducible refine State.staleSlots_only (Sub.trans rfl hp) (Sub.trans rfl hr) ?_
    | with_reducible refine State.partnerLoss_only (Sub.trans rfl hp) (Sub.trans rfl hr) ?_
    | with_reducible refine Only.ite ?_ ?_
    | intro _
    | (extract_lets +onlyGivenNames y; first | (refine Only.cut (x := y) ?_ ?_; subst y; rotate_left; clear_value y; intro _) | clear_value y)
    | split
    | dsimp only

theorem State.joinAnnounce_only {p r : Nat} {s x : State} {a1 a2 : _} (hp : Sub 4195096 p) (hr : Sub 0xe060000000000000000000000000000000000000000000000000000000000000000000000000000000000000000000000000000000000000000000000000000000000000000000000000000000000000000000000000000000000000000000000000000000000000000000000000000000000000000000000000000000000000000000000000000000000000000020000000000000000000000000000000000000000000000000000000000000000000000000000006000000000060000000000000000000000000000000000000000000000000000000000000000000000000000 r) (h : Only p r s x) :
    Only p r s (State.joinAnnounce x a1 a2) := by
  unfold State.joinAnnounce
  repeat' first
    | with_reducible assumption
    | with_reducible refine Only.snd (q := (State.inject _ _ _)) (by assumption) (State.inject_only (Sub.trans rfl hp) (Sub.trans rfl hr) ?_)
    | with_reducible refine State.inject_only (Sub.trans rfl hp) (Sub.trans rfl hr) ?_
    | with_reducible refine State.post_only (Sub.trans rfl hp) (Sub.trans rfl hr) ?_
    | with_reducible refine State.quarantine_only (Sub.trans rfl hp) (Sub.trans rfl hr) ?_
    | with_reducible refine Only.setBit 350 R.CB_PS_SYNC_TIMED_CAPABLE_num (Sub.bits hr rfl) ?_
    | with_reducible refine State.updPart_only (Sub.trans rfl hp) (Sub.trans rfl hr) ?_
    | with_reducible refine State.settleRef_only (Sub.trans rfl hp) (Sub.trans rfl hr) ?_
    | with_reducible refine Only.ite ?_ ?_
    | intro _
    | (extract_lets +onlyGivenNames y; first | (refine Only.cut (x := y) ?_ ?_; subst y; rotate_left; clear_value y; intro _) | (refine Only.cut (x := y.1) ?_ ?_; subst y; rotate_left; clear_value y; intro _) | (refine Only.cut (x := y.2) ?_ ?_; subst y; rotate_left; clear_value y; intro _) | (refine Only.cut (x := y.2.2) ?_ ?_; subst y; rotate_left; clear_value y; intro _) | clear_value y)
    | split
    | dsimp only

theorem State.joinFrame_only {p r : Nat} {s x : State} {a1 a2 : _} (hp : Sub 4195096 p) (hr : Sub 0xe060000000000000000000000000000000000000000000000000000000000000000000000000000000000000000000000000000000000000000000000000000000000000000000000000000000000000000000000000000000000000000000000000000000000000000000000000000000000000000000000000000000000000000000000000000000000000000020000000000000000000000000000000000000000000000000000000000000000000000000000006000000000060000000000000000000000000000000000000000000000000000000000000000000000000000 r) (h : Only p r s x) :
    Only p r s (State.joinFrame x a1 a2) := by
  unfold State.joinFrame
  repeat' first
    | with_reducible assumption
    | with_reducible refine State.joinAnnounce_only (Sub.trans rfl hp) (Sub.trans rfl hr) ?_
    | with_reducible refine State.joinValid_only (Sub.trans rfl hp) (Sub.trans rfl hr) ?_
    | (extract_lets +onlyGivenNames y; first | (refine Only.cut (x := y) ?_ ?_; subst y; rotate_left; clear_value y; intro _) | clear_value y)
    | split
    | dsimp only

theorem State.acyclicRx_only {p r : Nat} {s x : State} {a1 a2 : _} (hp : Sub 131336 p) (hr : Sub 0x38080300000000000000000000000000000000000000000000000000000000000000000000000000000000000000000000000000000000000000000000000000000000000000000000000000000000000000000000000000000000000000000000000000000000000000000000000000000000000000000000000000000000000000000000000000000000000000000000000000000000000000000000000000000000 r) (h : Only p r s x) :
    Only p r s (State.acyclicRx x a1 a2) := by
  unfold State.acyclicRx
  repeat' first
    | with_reducible assumption
    | with_reducible refine State.hostPut_only (Sub.trans rfl hp) (Sub.trans rfl hr) ?_
    | with_reducible refine State.complete3_only (Sub.trans rfl hp) (Sub.trans rfl hr) ?_
    | intro _
    | (extract_lets +onlyGivenNames y; first | (refine Only.cut (x := y) ?_ ?_; subst y; rotate_left; clear_value y; intro _) | clear_value y)
    | split
    | dsimp only
    | (first | (with_reducible refine Only.upd_cb (Sub.bits hp rfl) ?_; first | with_reducible assumption | with_reducible refine State.hostPut_only (Sub.trans rfl hp) (Sub.trans rfl hr) ?_ | with_reducible refine State.complete3_only (Sub.trans rfl hp) (Sub.trans rfl hr) ?_))

theorem State.consume_only {p r : Nat} {s x : State} {a1 a2 : _} (hp : Sub 4326296 p) (hr : Sub 0xe060000000000000000000000000000000000000000000000000000000000000000000000000000000000000000000000000000000000000000000000000038080300000000000000000000000000000000000000000000000000000000000000000000000000000000000000000000000000000000000000000000000000000000000000000000000000000000020000000000000000000000000000000000000000000000000000000000000000000000000000376000000000460000000000000000000000000000000000000000000000000000000000000000000000000000 r) (h : Only p r s x) :
    Only p r s (State.consume x a1 a2) := by
  unfold State.consume
  repeat' first
    | with_reducible assumption
    | with_reducible refine State.classify_only (Sub.trans rfl hp) (Sub.trans rfl hr) ?_
    | with_reducible refine State.backupRef_only (Sub.trans rfl hp) (Sub.trans rfl hr) ?_
    | with_reducible refine State.delayResponse_only (Sub.trans rfl hp) (Sub.trans rfl hr) ?_
    | with_reducible refine State.joinFrame_only (Sub.trans rfl hp) (Sub.trans rfl hr) ?_
    | with_reducible refine State.acyclicRx_only (Sub.trans rfl hp) (Sub.trans rfl hr) ?_
    | (extract_lets +onlyGivenNames y; first | (refine Only.cut (x := y) ?_ ?_; subst y; rotate_left; clear_value y; intro _) | clear_value y)
    | split
    | dsimp only

theorem State.rxCheck_only {p r : Nat} {s x : State} {a1 a2 a3 a4 a5 : _} (hp : Sub 4194312 p) (hr : Sub 0xe060000000000000000000000000000000000000000000000000000000000000000000000000000000000000000000000000000000000000000000000000000000000000000000000000000000000000000000000000000000000000000000000000000000000000000000000000000000000000000000000000000000000000000000000000000000000000000000000000000000000000000000000000000000000000000000000000000000000000000000000000000000000000000000000000000000000000000000000000000000000000000000000000000000000000000 r) (h4 : ∀ y0 y1, Only p r s y1 → Only p r s (a4 y0 y1)) (h5 : ∀ y0, Only p r s y0 → Only p r s (a5 y0).1) (h : Only p r s x) :
    Only p r s (State.rxCheck x a1 a2 a3 a4 a5).1 := by
  unfold State.rxCheck
  repeat' first
    | with_reducible assumption
    | with_reducible refine Only.snd (q := (State.inject _ _ _)) (by assumption) (State.inject_only (Sub.trans rfl hp) (Sub.trans rfl hr) ?_)
    | with_reducible refine State.inject_only (Sub.trans rfl hp) (Sub.trans rfl hr) ?_
    | with_reducible apply h4
    | with_reducible apply h5
    | with_reducible refine Only.ite ?_ ?_
    | intro _
    | (extract_lets +onlyGivenNames y; first | (refine Only.cut (x := y) ?_ ?_; subst y; rotate_left; clear_value y; intro _) | (refine Only.cut (x := y.1) ?_ ?_; subst y; rotate_left; clear_value y; intro _) | (refine Only.cut (x := y.2) ?_ ?_; subst y; rotate_left; clear_value y; intro _) | (refine Only.cut (x := y.2.2) ?_ ?_; subst y; rotate_left; clear_value y; intro _) | clear_value y)
    | split
    | dsimp only

theorem State.doRelease_only {p r : Nat} {s x : State} {a1 : _} (hp : Sub 655624 p) (hr : Sub 0x38080300000000000000000000000000000000000000000000000000000000000000000000000000000000000000000000000000000000000000000000000000000000000000000000000000000000000000000000000000000000000000000000000000000000000000000000000000000000000000042000000001860000000000000000000000000000000000000000000000000000000000000000000000000000 r) (h : Only p r s x) :
    Only p r s (State.doRelease x a1) := by
  unfold State.doRelease
  repeat' first
    | with_reducible assumption
    | with_reducible refine State.completeDesc_only (Sub.trans rfl hp) (Sub.trans rfl hr) ?_
    | with_reducible refine State.mirrorDesc_only (Sub.trans rfl hp) (Sub.trans rfl hr) ?_
    | with_reducible refine Only.set 305 R.CB_PT_STATE_STATE_num (Sub.bits hr rfl) ?_
    | with_reducible refine Only.set 306 R.CB_PT_STATE_QCAUSE_num (Sub.bits hr rfl) ?_
    | with_reducible refine Only.set 311 R.CB_PT_COUNT_OWN_VIOL_num (Sub.bits hr rfl) ?_
    | with_reducible refine Only.set 312 R.CB_PT_COUNT_POLICE_DROP_num (Sub.bits hr rfl) ?_
    | with_reducible refine Only.set 349 R.CB_PS_SYNC_SYNC_MODE_num (Sub.bits hr rfl) ?_
    | with_reducible refine State.updPart_only (Sub.trans rfl hp) (Sub.trans rfl hr) ?_
    | with_reducible refine State.updSlot_only (Sub.trans rfl hp) (Sub.trans rfl hr) ?_
    | with_reducible refine State.showRun_only (Sub.trans rfl hp) (Sub.trans rfl hr) ?_
    | with_reducible refine Only.ite ?_ ?_
    | with_reducible refine Only.foldl ?_ ?_
    | intro _
    | (extract_lets +onlyGivenNames y; first | (refine Only.cut (x := y) ?_ ?_; subst y; rotate_left; clear_value y; intro _) | clear_value y)
    | split
    | dsimp only

theorem State.ownErr_only {p r : Nat} {s x : State} {a1 a2 a3 : _} (hp : Sub 920 p) (hr : Sub 0x20000000000000000000000000000000000000000000000000000000000000000000000000000000000000000860000020000000000000000000000000000000000000000000000000000000000000000000000 r) (h : Only p r s x) :
    Only p r s (State.ownErr x a1 a2 a3) := by
  unfold State.ownErr
  repeat' first
    | with_reducible assumption
    | with_reducible refine State.discard_only 281 R.CB_ERR_E_OWN_ERR_num (Sub.bits hr rfl) (Sub.trans rfl hp) (Sub.trans rfl hr) ?_
    | with_reducible refine Only.inc 311 R.CB_PT_COUNT_OWN_VIOL_num (Sub.bits hr rfl) ?_
    | with_reducible refine State.updPart_only (Sub.trans rfl hp) (Sub.trans rfl hr) ?_
    | with_reducible refine State.quarantine_only (Sub.trans rfl hp) (Sub.trans rfl hr) ?_
    | with_reducible refine Only.ite ?_ ?_
    | intro _
    | (extract_lets +onlyGivenNames y; first | (refine Only.cut (x := y) ?_ ?_; subst y; rotate_left; clear_value y; intro _) | clear_value y)
    | split
    | dsimp only

theorem State.slotMissing_only {p r : Nat} {s x : State} {a1 : _} (hp : Sub 4194696 p) (hr : Sub 0xe0600000000000000000000000000000000000000000000000000000000000000000000000000000000000000000000000000000000000000000000000000000000000000000000000000000000000000000000000000000000000000000000000000000000000000000000000000000000000000000000000000000000000000000000000000000000000000000000000000000000000000000000000000000000000000000000000000000000000000000000000c0000000000000000000000000000000000000000000000000000000000000000000000000000000000000000 r) (h : Only p r s x) :
    Only p r s (State.slotMissing x a1) := by
  unfold State.slotMissing
  repeat' first
    | with_reducible assumption
    | with_reducible refine State.updSlot_only (Sub.trans rfl hp) (Sub.trans rfl hr) ?_
    | with_reducible refine Only.snd (q := (State.injectSlot _ _ _ _)) (by assumption) (State.injectSlot_only (Sub.trans rfl hp) (Sub.trans rfl hr) ?_)
    | with_reducible refine State.injectSlot_only (Sub.trans rfl hp) (Sub.trans rfl hr) ?_
    | with_reducible refine Only.inc 355 R.CB_PS_MISS_MISSING_num (Sub.bits hr rfl) ?_
    | with_reducible refine State.showRun_only (Sub.trans rfl hp) (Sub.trans rfl hr) ?_
    | with_reducible refine State.postKey_only (Sub.trans rfl hp) (Sub.trans rfl hr) ?_
    | with_reducible refine Only.ite ?_ ?_
    | intro _
    | (extract_lets +onlyGivenNames y; first | (refine Only.cut (x := y) ?_ ?_; subst y; rotate_left; clear_value y; intro _) | (refine Only.cut (x := y.1) ?_ ?_; subst y; rotate_left; clear_value y; intro _) | (refine Only.cut (x := y.2) ?_ ?_; subst y; rotate_left; clear_value y; intro _) | (refine Only.cut (x := y.2.2) ?_ ?_; subst y; rotate_left; clear_value y; intro _) | clear_value y)
    | split
    | dsimp only

theorem State.selectSlot_only {p r : Nat} {s x : State} {a1 : _} (_hp : Sub 0 p) (hr : Sub 0x2000000000000000000000000000000000000000000000000000000000000000000000000000000000000 r) (h : Only p r s x) :
    Only p r s (State.selectSlot x a1) := by
  unfold State.selectSlot
  repeat' first
    | with_reducible assumption
    | with_reducible refine Only.set 337 R.CB_SLOT_SEL_SLOT_num (Sub.bits hr rfl) ?_

theorem State.doAcyclicSend_only {p r : Nat} {s x : State} {a1 a2 : _} (hp : Sub 655624 p) (hr : Sub 0x38080300000000000000000000000000000000000000000000000000000000000000000000000000000000000000000000000000000000000000000000000000000000000000000000000000000000000000000000000000000000000000000000000000000000000000000000000000000000000000000000000000000000000000000000000000000000000000000000000000000000000000000000000000000000 r) (h : Only p r s x) :
    Only p r s (State.doAcyclicSend x a1 a2) := by
  unfold State.doAcyclicSend
  repeat' first
    | with_reducible assumption
    | with_reducible refine State.completeDesc_only (Sub.trans rfl hp) (Sub.trans rfl hr) ?_
    | with_reducible refine State.mirrorDesc_only (Sub.trans rfl hp) (Sub.trans rfl hr) ?_
    | with_reducible refine State.updPort_only (Sub.trans rfl hp) (Sub.trans rfl hr) ?_
    | with_reducible refine Only.ite ?_ ?_
    | intro _
    | (extract_lets +onlyGivenNames y; first | (refine Only.cut (x := y) ?_ ?_; subst y; rotate_left; clear_value y; intro _) | clear_value y)
    | split
    | dsimp only

theorem execAcyclicSend_only {p r : Nat} {s : State} {a0 a1 : _} (hp : Sub 655752 p) (hr : Sub 0x38080300000000000000000000000000000000000000000000000000000000000000000000000000000000000000000000000000000000000000000000000000000000000000000000000000000000000000000000000000000000000000000000000000000000000000000000000000000000000000000000000000000000000000000000000000000000000000000000000000000000000000000000000000000000 r) :
    ∃ t, execAcyclicSend a0 a1 s = .next t ∧ Only p r s t := by
  unfold execAcyclicSend
  refine ⟨_, rfl, ?_⟩
  have h : Only p r s s := Only.refl
  repeat' first
    | with_reducible assumption
    | with_reducible refine State.doAcyclicSend_only (Sub.trans rfl hp) (Sub.trans rfl hr) ?_
    | with_reducible refine State.action_only (Sub.trans rfl hp) (Sub.trans rfl hr) ?_ ?_
    | intro _
    | dsimp only

theorem State.doAcyclicRecv_only {p r : Nat} {s x : State} {a1 : _} (hp : Sub 256 p) (_hr : Sub 0 r) (h : Only p r s x) :
    Only p r s (State.doAcyclicRecv x a1) := by
  unfold State.doAcyclicRecv
  repeat' first
    | with_reducible assumption
    | (extract_lets +onlyGivenNames y; first | (refine Only.cut (x := y) ?_ ?_; subst y; rotate_left; clear_value y; intro _) | clear_value y)
    | (first | (with_reducible refine Only.upd_cb (Sub.bits hp rfl) ?_; first | with_reducible assumption))

theorem execAcyclicRecv_only {p r : Nat} {s : State} {a0 : _} (hp : Sub 131464 p) (hr : Sub 0x38080300000000000000000000000000000000000000000000000000000000000000000000000000000000000000000000000000000000000000000000000000000000000000000000000000000000000000000000000000000000000000000000000000000000000000000000000000000000000000000000000000000000000000000000000000000000000000000000000000000000000000000000000000000000 r) :
    ∃ t, execAcyclicRecv a0 s = .next t ∧ Only p r s t := by
  unfold execAcyclicRecv
  refine ⟨_, rfl, ?_⟩
  have h : Only p r s s := Only.refl
  repeat' first
    | with_reducible assumption
    | with_reducible refine State.doAcyclicRecv_only (Sub.trans rfl hp) (Sub.trans rfl hr) ?_
    | with_reducible refine State.action_only (Sub.trans rfl hp) (Sub.trans rfl hr) ?_ ?_
    | intro _
    | dsimp only

theorem execSlotSelect_only {p r : Nat} {s : State} {a0 : _} (hp : Sub 0 p) (hr : Sub 0x2000000000000000000000000000000000000000000000000000000000000000000000000000000000000 r) :
    ∃ t, execSlotSelect a0 s = .next t ∧ Only p r s t := by
  unfold execSlotSelect
  refine ⟨_, rfl, ?_⟩
  have h : Only p r s s := Only.refl
  repeat' first
    | with_reducible assumption
    | with_reducible refine State.selectSlot_only (Sub.trans rfl hp) (Sub.trans rfl hr) ?_

theorem execSlotMissing_only {p r : Nat} {s : State} {a0 : _} (hp : Sub 4194696 p) (hr : Sub 0xe0600000000000000000000000000000000000000000000000000000000000000000000000000000000000000000000000000000000000000000000000000000000000000000000000000000000000000000000000000000000000000000000000000000000000000000000000000000000000000000000000000000000000000000000000000000000000000000000000000000000000000000000000000000000000000000000000000000000000000000000000c0000000000000000000000000000000000000000000000000000000000000000000000000000000000000000 r) :
    ∃ t, execSlotMissing a0 s = .next t ∧ Only p r s t := by
  unfold execSlotMissing
  refine ⟨_, rfl, ?_⟩
  have h : Only p r s s := Only.refl
  repeat' first
    | with_reducible assumption
    | with_reducible refine State.slotMissing_only (Sub.trans rfl hp) (Sub.trans rfl hr) ?_

theorem State.doQuarantine_only {p r : Nat} {s x : State} {a1 : _} (hp : Sub 656152 p) (hr : Sub 0x38080300000000000000000000000000000000000000000000000000000000000000000000000000000000000000000000000000000000000000000000000000000000000000000000000000000000020000000000000000000000000000000000000000000000000000000000000000000000000000000000000000060000000000000000000000000000000000000000000000000000000000000000000000000000 r) (h : Only p r s x) :
    Only p r s (State.doQuarantine x a1) := by
  unfold State.doQuarantine
  repeat' first
    | with_reducible assumption
    | with_reducible refine State.completeDesc_only (Sub.trans rfl hp) (Sub.trans rfl hr) ?_
    | with_reducible refine State.mirrorDesc_only (Sub.trans rfl hp) (Sub.trans rfl hr) ?_
    | with_reducible refine State.quarantine_only (Sub.trans rfl hp) (Sub.trans rfl hr) ?_
    | with_reducible refine Only.ite ?_ ?_
    | (extract_lets +onlyGivenNames y; first | (refine Only.cut (x := y) ?_ ?_; subst y; rotate_left; clear_value y; intro _) | clear_value y)
    | split
    | dsimp only

theorem execPartnerQuarantine_only {p r : Nat} {s : State} {a0 : _} (hp : Sub 656280 p) (hr : Sub 0x38080300000000000000000000000000000000000000000000000000000000000000000000000000000000000000000000000000000000000000000000000000000000000000000000000000000000020000000000000000000000000000000000000000000000000000000000000000000000000000000000000000060000000000000000000000000000000000000000000000000000000000000000000000000000 r) :
    ∃ t, execPartnerQuarantine a0 s = .next t ∧ Only p r s t := by
  unfold execPartnerQuarantine
  refine ⟨_, rfl, ?_⟩
  have h : Only p r s s := Only.refl
  repeat' first
    | with_reducible assumption
    | with_reducible refine State.doQuarantine_only (Sub.trans rfl hp) (Sub.trans rfl hr) ?_
    | with_reducible refine State.action_only (Sub.trans rfl hp) (Sub.trans rfl hr) ?_ ?_
    | intro _

theorem State.showSlot_only {p r : Nat} {s x : State} {a1 a2 a3 a4 a5 : _} (_hp : Sub 0 p) (hr : Sub 0x5c000000000000000000000000000000000000000000000000000000000000000000000000000000000000 r) (h : Only p r s x) :
    Only p r s (State.showSlot x a1 a2 a3 a4 a5) := by
  unfold State.showSlot
  repeat' first
    | with_reducible assumption
    | with_reducible refine Only.set 338 R.CB_SLOT_ARR_TICK_num (Sub.bits hr rfl) ?_
    | with_reducible refine Only.set 339 R.CB_SLOT_ARR_CLASS_num (Sub.bits hr rfl) ?_
    | with_reducible refine Only.seti 340 R.CB_SLOT_ARR_DEV_num (Sub.bits hr rfl) ?_
    | with_reducible refine Only.setBit 342 R.CB_SLOT_STAT_MISSING_num (Sub.bits hr rfl) ?_
    | (extract_lets +onlyGivenNames y; first | (refine Only.cut (x := y) ?_ ?_; subst y; rotate_left; clear_value y; intro _) | clear_value y)
    | dsimp only

theorem State.partnerSeen_only {p r : Nat} {s x : State} {a1 a2 : _} (hp : Sub 4850456 p) (hr : Sub 0xe060000000000000000000000000000000000000000000000000000000000000000000000000000000000000000001002800000000000000000000000000038080300000000000000000000000000000000000000000000000000000000000000000000000000000000000000000000000000000000000000000000000000000000000000000000000000000000020000000000000000000000000000000000000000000000000000000000000000000000000000000000000000380000000000000000000000000000000000000000000000000000000000000000000000000000 r) (h : Only p r s x) :
    Only p r s (State.partnerSeen x a1 a2) := by
  unfold State.partnerSeen
  repeat' first
    | with_reducible assumption
    | with_reducible refine Only.setBit 307 R.CB_PT_STATE_FALLBACK_num (Sub.bits hr rfl) ?_
    | with_reducible refine Only.setBit 308 R.CB_PT_STATE_ALARM_num (Sub.bits hr rfl) ?_
    | with_reducible refine Only.set 309 R.CB_PT_STATE_EPOCH_SEEN_num (Sub.bits hr rfl) ?_
    | with_reducible refine State.updPart_only (Sub.trans rfl hp) (Sub.trans rfl hr) ?_
    | with_reducible refine State.sawEpoch_only (Sub.trans rfl hp) (Sub.trans rfl hr) ?_
    | with_reducible refine State.post_only (Sub.trans rfl hp) (Sub.trans rfl hr) ?_
    | with_reducible refine State.fault_only (Sub.trans rfl hp) (Sub.trans rfl hr) ?_
    | with_reducible refine State.partnerLoss_only (Sub.trans rfl hp) (Sub.trans rfl hr) ?_
    | with_reducible refine State.detect_only (Sub.trans rfl hp) (Sub.trans rfl hr) ?_ ?_
    | with_reducible refine Only.ite ?_ ?_
    | intro _
    | (extract_lets +onlyGivenNames y; first | (refine Only.cut (x := y) ?_ ?_; subst y; rotate_left; clear_value y; intro _) | clear_value y)
    | split
    | dsimp only

theorem State.policeErr_only {p r : Nat} {s x : State} {a1 a2 a3 : _} (hp : Sub 392 p) (hr : Sub 0x1000000040000000000000000000000000000000000000000000000000000000000000000000000 r) (h : Only p r s x) :
    Only p r s (State.policeErr x a1 a2 a3) := by
  unfold State.policeErr
  repeat' first
    | with_reducible assumption
    | with_reducible refine State.discard_only 282 R.CB_ERR_F_POLICE_DROP_num (Sub.bits hr rfl) (Sub.trans rfl hp) (Sub.trans rfl hr) ?_
    | with_reducible refine Only.inc 312 R.CB_PT_COUNT_POLICE_DROP_num (Sub.bits hr rfl) ?_
    | with_reducible refine State.updPart_only (Sub.trans rfl hp) (Sub.trans rfl hr) ?_
    | intro _
    | (extract_lets +onlyGivenNames y; first | (refine Only.cut (x := y) ?_ ?_; subst y; rotate_left; clear_value y; intro _) | clear_value y)
    | dsimp only

theorem State.partnerChecks_only {p r : Nat} {s x : State} {a1 a2 : _} (hp : Sub 4850584 p) (hr : Sub 0xe060000000000000000000000000000000000000000000000000000000000000000000000000000000000000000001002800000000000000000000000000038080300000000000000000000000000000000000000000000000000000000000000000000000000000000000000000000000000000000000000000000000000000000000000000000000000000000020000000000000000000000000000000000000000000000000000000000000000000000000000000000000001be00004e0000000000000000000000000000000000000000000000000000000000000000000000 r) (h : Only p r s x) :
    Only p r s (State.partnerChecks x a1 a2).1 := by
  unfold State.partnerChecks
  dsimp only
  repeat' first
    | with_reducible assumption
    | with_reducible refine Only.set 305 R.CB_PT_STATE_STATE_num (Sub.bits hr rfl) ?_
    | with_reducible refine Only.inc 283 R.CB_ERR_F_QUAR_DROP_num (Sub.bits hr rfl) ?_
    | with_reducible refine State.policePass_only (Sub.trans rfl hp) (Sub.trans rfl hr) ?_
    | with_reducible refine Only.inc 286 R.CB_RX_FRAMES_num (Sub.bits hr rfl) ?_
    | with_reducible refine State.partnerSeen_only (Sub.trans rfl hp) (Sub.trans rfl hr) ?_
    | with_reducible refine State.policeErr_only (Sub.trans rfl hp) (Sub.trans rfl hr) ?_
    | with_reducible refine State.rxCheck_only (Sub.trans rfl hp) (Sub.trans rfl hr) ?_ ?_ ?_
    | with_reducible refine State.ownErr_only (Sub.trans rfl hp) (Sub.trans rfl hr) ?_
    | with_reducible refine State.updSlot_only (Sub.trans rfl hp) (Sub.trans rfl hr) ?_
    | with_reducible refine Only.ite ?_ ?_
    | intro _
    | (extract_lets +onlyGivenNames y; first | (refine Only.cut (x := y) ?_ ?_; subst y; rotate_left; clear_value y; intro _) | (refine Only.cut (x := y.1) ?_ ?_; subst y; rotate_left; clear_value y; intro _) | (refine Only.cut (x := y.2) ?_ ?_; subst y; rotate_left; clear_value y; intro _) | (refine Only.cut (x := y.2.2) ?_ ?_; subst y; rotate_left; clear_value y; intro _) | clear_value y)
    | split
    | dsimp only

theorem execPartnerRelease_only {p r : Nat} {s : State} {a0 : _} (hp : Sub 655752 p) (hr : Sub 0x38080300000000000000000000000000000000000000000000000000000000000000000000000000000000000000000000000000000000000000000000000000000000000000000000000000000000000000000000000000000000000000000000000000000000000000000000000000000000000000042000000001860000000000000000000000000000000000000000000000000000000000000000000000000000 r) :
    ∃ t, execPartnerRelease a0 s = .next t ∧ Only p r s t := by
  unfold execPartnerRelease
  refine ⟨_, rfl, ?_⟩
  have h : Only p r s s := Only.refl
  repeat' first
    | with_reducible assumption
    | with_reducible refine State.doRelease_only (Sub.trans rfl hp) (Sub.trans rfl hr) ?_
    | with_reducible refine State.action_only (Sub.trans rfl hp) (Sub.trans rfl hr) ?_ ?_
    | intro _

theorem State.quarantineTest_only {p r : Nat} {s x : State} {a1 : _} (hp : Sub 792 p) (hr : Sub 0x20000000000000000000000000000000000000000000000000000000000000000000000000000000000000000060000000000000000000000000000000000000000000000000000000000000000000000000000 r) (h : Only p r s x) :
    Only p r s (State.quarantineTest x a1) := by
  unfold State.quarantineTest
  repeat' first
    | with_reducible assumption
    | with_reducible refine State.quarantine_only (Sub.trans rfl hp) (Sub.trans rfl hr) ?_
    | with_reducible refine Only.ite ?_ ?_
    | intro _
    | split
    | dsimp only

theorem execQuarantine_only {p r : Nat} {s : State} {a0 : _} (hp : Sub 792 p) (hr : Sub 0x20000000000000000000000000000000000000000000000000000000000000000000000000000000000000000060000000000000000000000000000000000000000000000000000000000000000000000000000 r) :
    ∃ t, execQuarantine a0 s = .next t ∧ Only p r s t := by
  unfold execQuarantine
  refine ⟨_, rfl, ?_⟩
  have h : Only p r s s := Only.refl
  repeat' first
    | with_reducible assumption
    | with_reducible refine State.quarantineTest_only (Sub.trans rfl hp) (Sub.trans rfl hr) ?_

theorem State.rxChecks_only {p r : Nat} {s x : State} {a1 : _} (hp : Sub 4850584 p) (hr : Sub 0xe060000000000000000000000000000000000000000000000000000000000000000000000000000000000000000001002800000000000000000000000000038080300000000000000000000000000000000000000000000000000000000000000000000000000000000000000000000000000000000000000000000000000000000000000000000000000000000020000000000000000000000000000000000000000000000000000000000000000000000000000000000000001be009f5fff00010000000000000000000000000000000000000000000000000000000000000000 r) (h : Only p r s x) :
    Only p r s (State.rxChecks x a1).1 := by
  unfold State.rxChecks
  dsimp only
  repeat' first
    | with_reducible assumption
    | with_reducible refine State.discard_only 272 R.CB_ERR_A_FCS_ERR_num (Sub.bits hr rfl) (Sub.trans rfl hp) (Sub.trans rfl hr) ?_
    | with_reducible refine State.discard_only 273 R.CB_ERR_A_LEN_ERR_num (Sub.bits hr rfl) (Sub.trans rfl hp) (Sub.trans rfl hr) ?_
    | with_reducible refine State.discard_only 284 R.CB_ERR_G_PAUSE_RX_num (Sub.bits hr rfl) (Sub.trans rfl hp) (Sub.trans rfl hr) ?_
    | with_reducible refine State.discard_only 274 R.CB_ERR_B_UNPROTECTED_num (Sub.bits hr rfl) (Sub.trans rfl hp) (Sub.trans rfl hr) ?_
    | with_reducible refine State.discard_only 276 R.CB_ERR_C_MACSEC_REPLAY_num (Sub.bits hr rfl) (Sub.trans rfl hp) (Sub.trans rfl hr) ?_
    | with_reducible refine State.discard_only 275 R.CB_ERR_B_MACSEC_AUTH_num (Sub.bits hr rfl) (Sub.trans rfl hp) (Sub.trans rfl hr) ?_
    | with_reducible refine State.discard_only 256 R.CB_ETHERTYPE_ETYPE_num (Sub.bits hr rfl) (Sub.trans rfl hp) (Sub.trans rfl hr) ?_
    | with_reducible refine State.discard_only 277 R.CB_ERR_C_NON_RYFOID_num (Sub.bits hr rfl) (Sub.trans rfl hp) (Sub.trans rfl hr) ?_
    | with_reducible refine State.discard_only 278 R.CB_ERR_D_HDR_ERR_num (Sub.bits hr rfl) (Sub.trans rfl hp) (Sub.trans rfl hr) ?_
    | with_reducible refine State.discard_only 279 R.CB_ERR_D_PCRC_ERR_num (Sub.bits hr rfl) (Sub.trans rfl hp) (Sub.trans rfl hr) ?_
    | with_reducible refine State.discard_only 280 R.CB_ERR_E_SRC_ERR_num (Sub.bits hr rfl) (Sub.trans rfl hp) (Sub.trans rfl hr) ?_
    | with_reducible refine State.discard_only 286 R.CB_RX_FRAMES_num (Sub.bits hr rfl) (Sub.trans rfl hp) (Sub.trans rfl hr) ?_
    | with_reducible refine Only.inc 284 R.CB_ERR_G_PAUSE_RX_num (Sub.bits hr rfl) ?_
    | with_reducible refine State.macPass_only (Sub.trans rfl hp) (Sub.trans rfl hr) ?_
    | with_reducible refine State.discard_only 280 R.CB_ERR_E_SRC_ERR_num (Sub.bits hr rfl) (Sub.trans rfl hp) (Sub.trans rfl hr) ?_
    | with_reducible refine Only.inc 286 R.CB_RX_FRAMES_num (Sub.bits hr rfl) ?_
    | with_reducible refine Only.fst (q := (State.partnerChecks _ _ _)) (by assumption) (State.partnerChecks_only (Sub.trans rfl hp) (Sub.trans rfl hr) ?_)
    | with_reducible refine State.partnerChecks_only (Sub.trans rfl hp) (Sub.trans rfl hr) ?_
    | with_reducible refine State.rxCheck_only (Sub.trans rfl hp) (Sub.trans rfl hr) ?_ ?_ ?_
    | with_reducible refine Only.ite ?_ ?_
    | intro _
    | (extract_lets +onlyGivenNames y; first | (refine Only.cut (x := y) ?_ ?_; subst y; rotate_left; clear_value y; intro _) | (refine Only.cut (x := y.1) ?_ ?_; subst y; rotate_left; clear_value y; intro _) | (refine Only.cut (x := y.2) ?_ ?_; subst y; rotate_left; clear_value y; intro _) | (refine Only.cut (x := y.2.2) ?_ ?_; subst y; rotate_left; clear_value y; intro _) | clear_value y)
    | split
    | dsimp only

end Sys2Proof.Machine
end

