-- ==== Sys2Proof/Laws/OnlyCheckCell.lean ====
section
/-! SUPPORT. Footprints of the operations of Machine/CheckCell.lean. -/
namespace Sys2Proof.Machine
set_option linter.all false
set_option Elab.async false

theorem State.showDbf_only {p r : Nat} {s x : State} (_hp : Sub 0 p) (hr : Sub 0x3800000000000000000000000000000000000000000000000000000000000000000000000000000000000000000000000000000000000000000000000000000000000000000000000000000000000000000000000000000000000000000000000000000000000000000000000000000000000000000000000000000000000000000 r) (h : Only p r s x) :
    Only p r s (State.showDbf x) := by
  unfold State.showDbf
  dsimp only
  repeat' first
    | with_reducible assumption
    | with_reducible refine Only.set 1031 R.SCH_DBF_STAT_WORST_LOCUS_num (Sub.bits hr rfl) ?_
    | with_reducible refine Only.seti 1032 R.SCH_DBF_STAT_WORST_SLACK_num (Sub.bits hr rfl) ?_
    | with_reducible refine Only.set 1033 R.SCH_DBF_FAIL_num (Sub.bits hr rfl) ?_
    | intro _
    | (extract_lets +onlyGivenNames y; first | (refine Only.cut (x := y) ?_ ?_; subst y; rotate_left; clear_value y; intro _) | clear_value y)
    | split
    | dsimp only

theorem State.showUtil_only {p r : Nat} {s x : State} (_hp : Sub 0 p) (hr : Sub 0x200000000000000000000000000000000000000000000000000000000000000000000000000000000000000000000000000000000000000000000000000000000000000000000000000000000000000000000000000000000000000000000000000000000000000000000000000000000000000000000000000000000000000000 r) (h : Only p r s x) :
    Only p r s (State.showUtil x) := by
  unfold State.showUtil
  repeat' first
    | with_reducible assumption
    | with_reducible refine Only.set 1029 R.SCH_UNIT_STAT_RES_UTIL_num (Sub.bits hr rfl) ?_
    | with_reducible refine Only.foldl ?_ ?_
    | intro _
    | dsimp only

end Sys2Proof.Machine
end

