-- ==== Sys2Proof/Laws/OnlyDistance.lean ====
section
/-! SUPPORT. Footprints of the operations of Machine/Distance.lean. -/
namespace Sys2Proof.Machine
set_option linter.all false
set_option Elab.async false

theorem State.updSep_only {p r : Nat} {s x : State} {a1 : _} (hp : Sub 16384 p) (_hr : Sub 0 r) (h : Only p r s x) :
    Only p r s (State.updSep x a1) := by
  unfold State.updSep
  repeat' first
    | with_reducible assumption
    | (extract_lets +onlyGivenNames y; first | (refine Only.cut (x := y) ?_ ?_; subst y; rotate_left; clear_value y; intro _) | clear_value y)
    | (first | (with_reducible refine Only.upd_sep (Sub.bits hp rfl) ?_; first | with_reducible assumption))

theorem State.holdScan_only {p r : Nat} {s x : State} {a1 : _} (hp : Sub 16384 p) (hr : Sub 0 r) (h : Only p r s x) :
    Only p r s (State.holdScan x a1) := by
  unfold State.holdScan
  repeat' first
    | with_reducible assumption
    | with_reducible refine State.updSep_only (Sub.trans rfl hp) (Sub.trans rfl hr) ?_
    | with_reducible refine Only.ite ?_ ?_
    | intro _
    | (extract_lets +onlyGivenNames y; first | (refine Only.cut (x := y) ?_ ?_; subst y; rotate_left; clear_value y; intro _) | clear_value y)
    | split
    | dsimp only

end Sys2Proof.Machine
end

