-- ==== Sys2Proof/Laws/OnlySto.lean ====
section
/-! SUPPORT. Footprints of the operations of Machine/Sto.lean. -/
namespace Sys2Proof.Machine
set_option linter.all false
set_option Elab.async false

theorem State.updSio_only {p r : Nat} {s x : State} {a1 : _} (hp : Sub 16777216 p) (_hr : Sub 0 r) (h : Only p r s x) :
    Only p r s (State.updSio x a1) := by
  unfold State.updSio
  repeat' first
    | with_reducible assumption
    | (extract_lets +onlyGivenNames y; first | (refine Only.cut (x := y) ?_ ?_; subst y; rotate_left; clear_value y; intro _) | clear_value y)
    | (first | (with_reducible refine Only.upd_sio (Sub.bits hp rfl) ?_; first | with_reducible assumption))

theorem State.driveTo_only {p r : Nat} {s x : State} {a1 a2 : _} (hp : Sub 16777216 p) (hr : Sub 0x78000000000000000000000000000000000000000000000000000000000000000000000000000000000000000000000000000000000000000000000000000000000000000000000000000000000000000000000000000000000000000000000000000000000000000000000000000000000000000000000000000000000000000000000000000000000000000000000000000000000000000000000000000000000000000000000000000000000000000000000000000000000000000000000000000000000000000000000000000000000000000000000000000000000000000000000000000000000000000000000000000000000 r) (h : Only p r s x) :
    Only p r s (State.driveTo x a1 a2) := by
  unfold State.driveTo
  repeat' first
    | with_reducible assumption
    | with_reducible refine Only.setBit 1959 R.AD_STO_STAT_DRIVE_A_num (Sub.bits hr rfl) ?_
    | with_reducible refine Only.setBit 1961 R.AD_STO_STAT_FB_A_num (Sub.bits hr rfl) ?_
    | with_reducible refine Only.setBit 1960 R.AD_STO_STAT_DRIVE_B_num (Sub.bits hr rfl) ?_
    | with_reducible refine Only.setBit 1962 R.AD_STO_STAT_FB_B_num (Sub.bits hr rfl) ?_
    | with_reducible refine State.updSio_only (Sub.trans rfl hp) (Sub.trans rfl hr) ?_
    | with_reducible refine Only.ite ?_ ?_
    | intro _
    | (extract_lets +onlyGivenNames y; first | (refine Only.cut (x := y) ?_ ?_; subst y; rotate_left; clear_value y; intro _) | clear_value y)
    | split
    | dsimp only

theorem State.updGroup_only {p r : Nat} {s x : State} {a1 a2 : _} (hp : Sub 2048 p) (_hr : Sub 0 r) (h : Only p r s x) :
    Only p r s (State.updGroup x a1 a2) := by
  unfold State.updGroup
  repeat' first
    | with_reducible assumption
    | intro _
    | (extract_lets +onlyGivenNames y; first | (refine Only.cut (x := y) ?_ ?_; subst y; rotate_left; clear_value y; intro _) | clear_value y)
    | dsimp only
    | (first | (with_reducible refine Only.upd_grp (Sub.bits hp rfl) ?_; first | with_reducible assumption))

theorem State.jointOff_only {p r : Nat} {s x : State} {a1 : _} (_hp : Sub 0 p) (hr : Sub 0x204000000000000000000000000000000000000000000000000000000000000000000000000000000000000000000000000000000000000000000000000000000000000000000000000 r) (h : Only p r s x) :
    Only p r s (State.jointOff x a1) := by
  unfold State.jointOff
  repeat' first
    | with_reducible assumption
    | with_reducible refine Only.set 578 R.TL_JSTAT_JSTATE_num (Sub.bits hr rfl) ?_
    | with_reducible refine Only.set 585 R.TL_SAT_ACC_num (Sub.bits hr rfl) ?_
    | with_reducible refine Only.ite ?_ ?_
    | split

theorem State.groupOff_only {p r : Nat} {s x : State} {a1 : _} (hp : Sub 18432 p) (hr : Sub 0x204000000000000000000000000000000000000000000000000000000000000000000000000000000000000000000000000000000000000000000000000000000000000000000000000 r) (h : Only p r s x) :
    Only p r s (State.groupOff x a1) := by
  unfold State.groupOff
  repeat' first
    | with_reducible assumption
    | with_reducible refine State.jointOff_only (Sub.trans rfl hp) (Sub.trans rfl hr) ?_
    | with_reducible refine State.updGroup_only (Sub.trans rfl hp) (Sub.trans rfl hr) ?_
    | with_reducible refine Only.foldl ?_ ?_
    | intro _
    | (extract_lets +onlyGivenNames y; first | (refine Only.cut (x := y) ?_ ?_; subst y; rotate_left; clear_value y; intro _) | clear_value y)
    | dsimp only
    | (first | (with_reducible refine Only.upd_sep (Sub.bits hp rfl) ?_; first | with_reducible assumption | with_reducible refine State.jointOff_only (Sub.trans rfl hp) (Sub.trans rfl hr) ?_ | with_reducible refine State.updGroup_only (Sub.trans rfl hp) (Sub.trans rfl hr) ?_))

theorem State.drivePair_only {p r : Nat} {s x : State} {a1 a2 : _} (hp : Sub 16795648 p) (hr : Sub 0xfc000000000000000000000000000000000000000000000000000000000000000000000000000000000000000000000000000000000000000000000000000000000000000000000000000000000000000000000000000000000000000000000000000000000000000000000000000000000000000000000000000000000000000000000000000000000000000000000000000000000000000000000000000000000000000000000000000000204000000000000000000000000000000000000000000000000000000000000000000000000000000000000000000000000000000000000000000000000000000000000000000000000 r) (h : Only p r s x) :
    Only p r s (State.drivePair x a1 a2) := by
  unfold State.drivePair
  repeat' first
    | with_reducible assumption
    | with_reducible refine Only.setBit 1958 R.AD_STO_STAT_ASSERTED_num (Sub.bits hr rfl) ?_
    | with_reducible refine State.driveTo_only (Sub.trans rfl hp) (Sub.trans rfl hr) ?_
    | with_reducible refine Only.set 1963 R.AD_STO_STAT_CAUSE_num (Sub.bits hr rfl) ?_
    | with_reducible refine State.groupOff_only (Sub.trans rfl hp) (Sub.trans rfl hr) ?_
    | (extract_lets +onlyGivenNames y; first | (refine Only.cut (x := y) ?_ ?_; subst y; rotate_left; clear_value y; intro _) | clear_value y)
    | split
    | dsimp only

theorem State.assertPair_only {p r : Nat} {s x : State} {a1 a2 : _} (hp : Sub 16930824 p) (hr : Sub 0xfc000000000000000000000000000000000000000000000000000000000000000000000000000000000000000000000000000000000000000000000000000000000000000000000000000000000000000000038080300000000000000000000000000000000000000000000000000000000000000000000000000000000000000000000000000000000000000000000000000000000000000000000000009fe007ffb0000000000000000000204000000000000000000000000000000000000000000000000000000000000000000000000000000000000000000000000000000000000000000000000000000000000000000000000 r) (h : Only p r s x) :
    Only p r s (State.assertPair x a1 a2) := by
  unfold State.assertPair
  repeat' first
    | with_reducible assumption
    | with_reducible refine State.drivePair_only (Sub.trans rfl hp) (Sub.trans rfl hr) ?_
    | with_reducible refine State.driveEnables_only (Sub.trans rfl hp) (Sub.trans rfl hr) ?_
    | with_reducible refine Only.ite ?_ ?_
    | with_reducible refine Only.foldl ?_ ?_
    | intro _
    | (extract_lets +onlyGivenNames y; first | (refine Only.cut (x := y) ?_ ?_; subst y; rotate_left; clear_value y; intro _) | clear_value y)
    | split
    | dsimp only

theorem State.assertGroup_only {p r : Nat} {s x : State} {a1 a2 : _} (hp : Sub 16930824 p) (hr : Sub 0xfc000000000000000000000000000000000000000000000000000000000000000000000000000000000000000000000000000000000000000000000000000000000000000000000000000000000000000000038080300000000000000000000000000000000000000000000000000000000000000000000000000000000000000000000000000000000000000000000000000000000000000000000000009fe007ffb0000000000000000000204000000000000000000000000000000000000000000000000000000000000000000000000000000000000000000000000000000000000000000000000000000000000000000000000 r) (h : Only p r s x) :
    Only p r s (State.assertGroup x a1 a2) := by
  unfold State.assertGroup
  repeat' first
    | with_reducible assumption
    | with_reducible refine State.assertPair_only (Sub.trans rfl hp) (Sub.trans rfl hr) ?_
    | (extract_lets +onlyGivenNames y; first | (refine Only.cut (x := y) ?_ ?_; subst y; rotate_left; clear_value y; intro _) | clear_value y)
    | split
    | dsimp only

theorem State.wdogStop_only {p r : Nat} {s x : State} (hp : Sub 16777216 p) (hr : Sub 0x800000000000000000000000000000000000000000000000000000000000000000000000000000000000000000000000000000000000000000000000000000000000000000000000000000000000000000000000000000000000000000000000000000000000000000000000000000000000000000000000000000000000000000000000000000000000000000000000000000000000000000000000000000000000000000000000000000000000000000000000000000000000000000000000000000000000000000000000000000000000000000000000000000000000000000000000000000000000000000000000000000000000 r) (h : Only p r s x) :
    Only p r s (State.wdogStop x) := by
  unfold State.wdogStop
  repeat' first
    | with_reducible assumption
    | with_reducible refine Only.setBit 1967 R.AD_WDOG_STAT_RUNNING_num (Sub.bits hr rfl) ?_
    | with_reducible refine State.updSio_only (Sub.trans rfl hp) (Sub.trans rfl hr) ?_
    | intro _
    | (extract_lets +onlyGivenNames y; first | (refine Only.cut (x := y) ?_ ?_; subst y; rotate_left; clear_value y; intro _) | clear_value y)
    | dsimp only

theorem State.assertMask_only {p r : Nat} {s x : State} {a1 a2 : _} (hp : Sub 16930824 p) (hr : Sub 0xfc000000000000000000000000000000000000000000000000000000000000000000000000000000000000000000000000000000000000000000000000000000000000000000000000000000000000000000038080300000000000000000000000000000000000000000000000000000000000000000000000000000000000000000000000000000000000000000000000000000000000000000000000009fe007ffb0000000000000000000204000000000000000000000000000000000000000000000000000000000000000000000000000000000000000000000000000000000000000000000000000000000000000000000000 r) (h : Only p r s x) :
    Only p r s (State.assertMask x a1 a2) := by
  unfold State.assertMask
  repeat' first
    | with_reducible assumption
    | with_reducible refine State.assertGroup_only (Sub.trans rfl hp) (Sub.trans rfl hr) ?_
    | with_reducible refine Only.foldl ?_ ?_
    | intro _

theorem State.assertAll_only {p r : Nat} {s x : State} {a1 : _} (hp : Sub 16930824 p) (hr : Sub 0xfc000000000000000000000000000000000000000000000000000000000000000000000000000000000000000000000000000000000000000000000000000000000000000000000000000000000000000000038080300000000000000000000000000000000000000000000000000000000000000000000000000000000000000000000000000000000000000000000000000000000000000000000000009fe007ffb0000000000000000000204000000000000000000000000000000000000000000000000000000000000000000000000000000000000000000000000000000000000000000000000000000000000000000000000 r) (h : Only p r s x) :
    Only p r s (State.assertAll x a1) := by
  unfold State.assertAll
  repeat' first
    | with_reducible assumption
    | with_reducible refine State.assertPair_only (Sub.trans rfl hp) (Sub.trans rfl hr) ?_
    | with_reducible refine Only.foldl ?_ ?_
    | intro _

theorem State.latchFatal_only {p r : Nat} {s x : State} {a1 a2 : _} (hp : Sub 16930824 p) (hr : Sub 0x8fc000000000000000000000000000000000000000000000000000000000000000000000000000000000000000000000000000000000000000000000000000000000000000000000000000000000000000000038080300000000000000000000000000000000000000000000000000000000000000000000000000000000000000000000000000000000000000000000000000000000000000000000000009fe007ffb0000000000000000000204000000000000000000000000000000000000000000000000000000000000000000000000000000000000000000000000000000000000000000000000000000000000000000000000 r) (h : Only p r s x) :
    Only p r s (State.latchFatal x a1 a2) := by
  unfold State.latchFatal
  repeat' first
    | with_reducible assumption
    | with_reducible refine State.updSio_only (Sub.trans rfl hp) (Sub.trans rfl hr) ?_
    | with_reducible refine State.wdogStop_only (Sub.trans rfl hp) (Sub.trans rfl hr) ?_
    | with_reducible refine State.assertMask_only (Sub.trans rfl hp) (Sub.trans rfl hr) ?_
    | with_reducible refine State.assertAll_only (Sub.trans rfl hp) (Sub.trans rfl hr) ?_
    | with_reducible refine Only.ite ?_ ?_
    | intro _
    | (extract_lets +onlyGivenNames y; first | (refine Only.cut (x := y) ?_ ?_; subst y; rotate_left; clear_value y; intro _) | clear_value y)
    | split
    | dsimp only

theorem State.releasePair_only {p r : Nat} {s x : State} {a1 : _} (hp : Sub 16777216 p) (hr : Sub 0xfc000000000000000000000000000000000000000000000000000000000000000000000000000000000000000000000000000000000000000000000000000000000000000000000000000000000000000000000000000000000000000000000000000000000000000000000000000000000000000000000000000000000000000000000000000000000000000000000000000000000000000000000000000000000000000000000000000000000000000000000000000000000000000000000000000000000000000000000000000000000000000000000000000000000000000000000000000000000000000000000000000000000 r) (h : Only p r s x) :
    Only p r s (State.releasePair x a1) := by
  unfold State.releasePair
  repeat' first
    | with_reducible assumption
    | with_reducible refine Only.setBit 1958 R.AD_STO_STAT_ASSERTED_num (Sub.bits hr rfl) ?_
    | with_reducible refine Only.set 1963 R.AD_STO_STAT_CAUSE_num (Sub.bits hr rfl) ?_
    | with_reducible refine State.driveTo_only (Sub.trans rfl hp) (Sub.trans rfl hr) ?_

theorem State.resetRelease_only {p r : Nat} {s x : State} {a1 : _} (hp : Sub 16795648 p) (hr : Sub 0xfc000000000000000000000000000000000000000000000000000000000000000000000000000000000000000000000000000000000000000000000000000000000000000000000000000000000000000000000000000000000000000000000000000000000000000000000000000000000000000000000000000000000000000000000000000000000000000000000000000000000000000000000000000000000000000000000000000000204000000000000000000000000000000000000000000000000000000000000000000000000000000000000000000000000000000000000000000000000000000000000000000000000 r) (h : Only p r s x) :
    Only p r s (State.resetRelease x a1) := by
  unfold State.resetRelease
  repeat' first
    | with_reducible assumption
    | with_reducible refine Only.set 1963 R.AD_STO_STAT_CAUSE_num (Sub.bits hr rfl) ?_
    | with_reducible refine State.groupOff_only (Sub.trans rfl hp) (Sub.trans rfl hr) ?_
    | with_reducible refine State.releasePair_only (Sub.trans rfl hp) (Sub.trans rfl hr) ?_
    | with_reducible refine Only.ite ?_ ?_
    | (extract_lets +onlyGivenNames y; first | (refine Only.cut (x := y) ?_ ?_; subst y; rotate_left; clear_value y; intro _) | clear_value y)
    | split
    | dsimp only

end Sys2Proof.Machine
end

