-- ==== Sys2Proof/Laws/OnlyBelvedere.lean ====
section
/-! SUPPORT. Footprints of the operations of Machine/Belvedere.lean. -/
namespace Sys2Proof.Machine
set_option linter.all false
set_option Elab.async false

theorem State.bvAssert_only {p r : Nat} {s x : State} {a1 : _} (hp : Sub 16930824 p) (hr : Sub 0xfc000000000000000000000000000000000000000000000000000000000000000000000000000000000000000000000000000000000000000000000000000000000000000000000000000000000000000000038080300000000000000000000000000000000000000000000000000000000000000000000000000000000000000000000000000000000000000000000000000000000000000000000000009fe007ffb0000000000000000000204000000000000000000000000000000000000000000000000000000000000000000000000000000000000000000000000000000000000000000000000000000000000000000000000 r) (h : Only p r s x) :
    Only p r s (State.bvAssert x a1) := by
  unfold State.bvAssert
  repeat' first
    | with_reducible assumption
    | with_reducible refine State.updSio_only (Sub.trans rfl hp) (Sub.trans rfl hr) ?_
    | with_reducible refine State.updSep_only (Sub.trans rfl hp) (Sub.trans rfl hr) ?_
    | with_reducible refine State.assertGroup_only (Sub.trans rfl hp) (Sub.trans rfl hr) ?_
    | with_reducible refine State.assertPair_only (Sub.trans rfl hp) (Sub.trans rfl hr) ?_
    | with_reducible refine Only.ite ?_ ?_
    | intro _
    | (extract_lets +onlyGivenNames y; first | (refine Only.cut (x := y) ?_ ?_; subst y; rotate_left; clear_value y; intro _) | clear_value y)
    | split
    | dsimp only

theorem State.bvStart_only {p r : Nat} {s x : State} {a1 a2 : _} (hp : Sub 16930824 p) (hr : Sub 0xfc000000000000000000000000000000000000000000000000000000000000000000000000000000000000000000000000000000000000000000000000000000000000000000000000000000000000000000038080300000000000000000000000000000000000000000000000000000000000000000000000000000000000000000000000000000000000000000000000000000000000000000000000009fe007ffb0000000000000000000204000000000000000000000000000000000000000000000000000000000000000000000000000000000000000000000000000000000000000000000000000000000000000000000000 r) (h : Only p r s x) :
    Only p r s (State.bvStart x a1 a2) := by
  unfold State.bvStart
  repeat' first
    | with_reducible assumption
    | with_reducible refine State.updSep_only (Sub.trans rfl hp) (Sub.trans rfl hr) ?_
    | with_reducible refine State.bvAssert_only (Sub.trans rfl hp) (Sub.trans rfl hr) ?_
    | with_reducible refine Only.ite ?_ ?_
    | intro _
    | (extract_lets +onlyGivenNames y; first | (refine Only.cut (x := y) ?_ ?_; subst y; rotate_left; clear_value y; intro _) | clear_value y)
    | split
    | dsimp only

theorem State.bvArm_only {p r : Nat} {s x : State} {a1 a2 : _} (hp : Sub 21125144 p) (hr : Sub 0xfc00000000000000000000000000000000000000e060000000000000000000000000000000000000000000000000000000000000000000000000000000000000000000000000000000000000000000000000038080300000000000000000000000000000000000000000000000000000000000000000000000000000000000000000002000000000000000000000000000000000000000000000000000009fe007ffb0000000000000000000204000000000000000000000000000000000000000000000000000000000000000000000000000000000000000000000000000000000000000000000000000000000000000000000000 r) (h : Only p r s x) :
    Only p r s (State.bvArm x a1 a2) := by
  unfold State.bvArm
  repeat' first
    | with_reducible assumption
    | with_reducible refine Only.snd (q := (State.inject _ _ _)) (by assumption) (State.inject_only (Sub.trans rfl hp) (Sub.trans rfl hr) ?_)
    | with_reducible refine State.inject_only (Sub.trans rfl hp) (Sub.trans rfl hr) ?_
    | with_reducible refine State.updSep_only (Sub.trans rfl hp) (Sub.trans rfl hr) ?_
    | with_reducible refine Only.inc 913 R.SEP_COUNT_DISAGREE_num (Sub.bits hr rfl) ?_
    | with_reducible refine State.post_only (Sub.trans rfl hp) (Sub.trans rfl hr) ?_
    | with_reducible refine State.fault_only (Sub.trans rfl hp) (Sub.trans rfl hr) ?_
    | with_reducible refine State.bvStart_only (Sub.trans rfl hp) (Sub.trans rfl hr) ?_
    | with_reducible refine Only.ite ?_ ?_
    | with_reducible refine Only.foldl ?_ ?_
    | with_reducible refine Only.foldl_fst ?_ ?_
    | with_reducible refine Only.foldl_snd ?_ ?_
    | intro _
    | (extract_lets +onlyGivenNames y; first | (refine Only.cut (x := y) ?_ ?_; subst y; rotate_left; clear_value y; intro _) | (refine Only.cut (x := y.1) ?_ ?_; subst y; rotate_left; clear_value y; intro _) | (refine Only.cut (x := y.2) ?_ ?_; subst y; rotate_left; clear_value y; intro _) | (refine Only.cut (x := y.2.2) ?_ ?_; subst y; rotate_left; clear_value y; intro _) | clear_value y)
    | split
    | dsimp only

theorem State.bvCompare_only {p r : Nat} {s x : State} (hp : Sub 21125144 p) (hr : Sub 0xfc00000000000000000000000000000000000000e060000000000000000000000000000000000000000000000000000000000000000000000000000000000000000000000000000000000000000000000000038080300000000000000000000000000000000000000000000000000000000000000000000000000000000000000000002000000000000000000000000000000000000000000000000000009fe007ffb0000000000000000000204000000000000000000000000000000000000000000000000000000000000000000000000000000000000000000000000000000000000000000000000000000000000000000000000 r) (h : Only p r s x) :
    Only p r s (State.bvCompare x) := by
  unfold State.bvCompare
  repeat' first
    | with_reducible assumption
    | with_reducible refine State.updSep_only (Sub.trans rfl hp) (Sub.trans rfl hr) ?_
    | with_reducible refine State.bvArm_only (Sub.trans rfl hp) (Sub.trans rfl hr) ?_
    | with_reducible refine Only.ite ?_ ?_
    | with_reducible refine Only.foldl ?_ ?_
    | intro _
    | (extract_lets +onlyGivenNames y; first | (refine Only.cut (x := y) ?_ ?_; subst y; rotate_left; clear_value y; intro _) | clear_value y)
    | split
    | dsimp only

theorem execBvComparison_only {p r : Nat} {s : State} (hp : Sub 21125144 p) (hr : Sub 0xfc00000000000000000000000000000000000000e060000000000000000000000000000000000000000000000000000000000000000000000000000000000000000000000000000000000000000000000000038080300000000000000000000000000000000000000000000000000000000000000000000000000000000000000000002000000000000000000000000000000000000000000000000000009fe007ffb0000000000000000000204000000000000000000000000000000000000000000000000000000000000000000000000000000000000000000000000000000000000000000000000000000000000000000000000 r) :
    ∃ t, execBvComparison s = .next t ∧ Only p r s t := by
  unfold execBvComparison
  refine ⟨_, rfl, ?_⟩
  have h : Only p r s s := Only.refl
  repeat' first
    | with_reducible assumption
    | with_reducible refine State.bvCompare_only (Sub.trans rfl hp) (Sub.trans rfl hr) ?_

theorem State.bvExpiry_only {p r : Nat} {s x : State} {a1 : _} (hp : Sub 16930824 p) (hr : Sub 0xfc000000000000000000000000000000000000000000000000000000000000000000000000000000000000000000000000000000000000000000000000000000000000000000000000000000000000000000038080300000000000000000000000000000000000000000000000000000000000000000000000000000000000000000000000000000000000000000000000000000000000000000000000009fe007ffb0000000000000000000204000000000000000000000000000000000000000000000000000000000000000000000000000000000000000000000000000000000000000000000000000000000000000000000000 r) (h : Only p r s x) :
    Only p r s (State.bvExpiry x a1) := by
  unfold State.bvExpiry
  repeat' first
    | with_reducible assumption
    | with_reducible refine State.bvAssert_only (Sub.trans rfl hp) (Sub.trans rfl hr) ?_
    | with_reducible refine Only.ite ?_ ?_
    | intro _
    | (extract_lets +onlyGivenNames y; first | (refine Only.cut (x := y) ?_ ?_; subst y; rotate_left; clear_value y; intro _) | clear_value y)
    | split
    | dsimp only

theorem execBvDelayExpiry_only {p r : Nat} {s : State} {a0 : _} (hp : Sub 16930824 p) (hr : Sub 0xfc000000000000000000000000000000000000000000000000000000000000000000000000000000000000000000000000000000000000000000000000000000000000000000000000000000000000000000038080300000000000000000000000000000000000000000000000000000000000000000000000000000000000000000000000000000000000000000000000000000000000000000000000009fe007ffb0000000000000000000204000000000000000000000000000000000000000000000000000000000000000000000000000000000000000000000000000000000000000000000000000000000000000000000000 r) :
    ∃ t, execBvDelayExpiry a0 s = .next t ∧ Only p r s t := by
  unfold execBvDelayExpiry
  refine ⟨_, rfl, ?_⟩
  have h : Only p r s s := Only.refl
  repeat' first
    | with_reducible assumption
    | with_reducible refine State.bvExpiry_only (Sub.trans rfl hp) (Sub.trans rfl hr) ?_

theorem State.bvStatus_only {p r : Nat} {s x : State} (_hp : Sub 0 p) (hr : Sub 0x1c00000000000000000000000000000000000000000000000000000000000000000000000000000000000000000000000000000000000000000000000000000000000000000000000000000000000000000000000000000000000000000000000000000000000000000000000000000000000 r) (h : Only p r s x) :
    Only p r s (State.bvStatus x) := by
  unfold State.bvStatus
  repeat' first
    | with_reducible assumption
    | with_reducible refine Only.set 910 R.SEP_BV_STAT_STO_REQ_num (Sub.bits hr rfl) ?_
    | with_reducible refine Only.set 911 R.SEP_BV_STAT_LAST_CHECK_num (Sub.bits hr rfl) ?_
    | with_reducible refine Only.set 912 R.SEP_BV_STAT_SWEEP_SLICE_num (Sub.bits hr rfl) ?_
    | with_reducible refine Only.ite ?_ ?_
    | split

theorem State.bvPose_only {p r : Nat} {s x : State} (hp : Sub 16384 p) (hr : Sub 0 r) (h : Only p r s x) :
    Only p r s (State.bvPose x) := by
  unfold State.bvPose
  repeat' first
    | with_reducible assumption
    | with_reducible refine State.updSep_only (Sub.trans rfl hp) (Sub.trans rfl hr) ?_
    | with_reducible refine Only.ite ?_ ?_
    | intro _
    | (extract_lets +onlyGivenNames y; first | (refine Only.cut (x := y) ?_ ?_; subst y; rotate_left; clear_value y; intro _) | clear_value y)
    | split
    | dsimp only

theorem State.bvMiss_only {p r : Nat} {s x : State} {a1 : _} (hp : Sub 16930840 p) (hr : Sub 0xfc000000000000000000000000000000000000000000000000000000000000000000000000000000000000000000000000000000000000000000000000000000000000000000000000000000000000000000038080300000000000000000000000000000000000000000000000000000000000000000000000000000000000000000004000000000000000000000000000000000000000000000000000009fe007ffb0000000000000000000204000000000000000000000000000000000000000000000000000000000000000000000000000000000000000000000000000000000000000000000000000000000000000000000000 r) (h : Only p r s x) :
    Only p r s (State.bvMiss x a1) := by
  unfold State.bvMiss
  repeat' first
    | with_reducible assumption
    | with_reducible refine Only.inc 914 R.SEP_COUNT_MISSED_num (Sub.bits hr rfl) ?_
    | with_reducible refine State.post_only (Sub.trans rfl hp) (Sub.trans rfl hr) ?_
    | with_reducible refine State.fault_only (Sub.trans rfl hp) (Sub.trans rfl hr) ?_
    | with_reducible refine State.updSep_only (Sub.trans rfl hp) (Sub.trans rfl hr) ?_
    | with_reducible refine State.bvStart_only (Sub.trans rfl hp) (Sub.trans rfl hr) ?_
    | with_reducible refine Only.foldl ?_ ?_
    | intro _
    | (extract_lets +onlyGivenNames y; first | (refine Only.cut (x := y) ?_ ?_; subst y; rotate_left; clear_value y; intro _) | clear_value y)
    | split
    | dsimp only

theorem State.bvMissTest_only {p r : Nat} {s x : State} (hp : Sub 21125144 p) (hr : Sub 0xfc00000000000000000000000000000000000000e060000000000000000000000000000000000000000000000000000000000000000000000000000000000000000000000000000000000000000000000000038080300000000000000000000000000000000000000000000000000000000000000000000000000000000000000000004000000000000000000000000000000000000000000000000000009fe007ffb0000000000000000000204000000000000000000000000000000000000000000000000000000000000000000000000000000000000000000000000000000000000000000000000000000000000000000000000 r) (h : Only p r s x) :
    Only p r s (State.bvMissTest x) := by
  unfold State.bvMissTest
  repeat' first
    | with_reducible assumption
    | with_reducible refine State.bvMiss_only (Sub.trans rfl hp) (Sub.trans rfl hr) ?_
    | with_reducible refine State.detect_only (Sub.trans rfl hp) (Sub.trans rfl hr) ?_ ?_
    | with_reducible refine Only.ite ?_ ?_
    | intro _
    | (extract_lets +onlyGivenNames y; first | (refine Only.cut (x := y) ?_ ?_; subst y; rotate_left; clear_value y; intro _) | clear_value y)
    | split
    | dsimp only

theorem execSepBvMissed_only {p r : Nat} {s : State} (hp : Sub 21125144 p) (hr : Sub 0xfc00000000000000000000000000000000000000e060000000000000000000000000000000000000000000000000000000000000000000000000000000000000000000000000000000000000000000000000038080300000000000000000000000000000000000000000000000000000000000000000000000000000000000000000004000000000000000000000000000000000000000000000000000009fe007ffb0000000000000000000204000000000000000000000000000000000000000000000000000000000000000000000000000000000000000000000000000000000000000000000000000000000000000000000000 r) :
    ∃ t, execSepBvMissed s = .next t ∧ Only p r s t := by
  unfold execSepBvMissed
  refine ⟨_, rfl, ?_⟩
  have h : Only p r s s := Only.refl
  repeat' first
    | with_reducible assumption
    | with_reducible refine State.bvMissTest_only (Sub.trans rfl hp) (Sub.trans rfl hr) ?_

theorem execBvPoseStart_only {p r : Nat} {s : State} (hp : Sub 16384 p) (hr : Sub 0 r) :
    ∃ t, execBvPoseStart s = .next t ∧ Only p r s t := by
  unfold execBvPoseStart
  refine ⟨_, rfl, ?_⟩
  have h : Only p r s s := Only.refl
  repeat' first
    | with_reducible assumption
    | with_reducible refine State.bvPose_only (Sub.trans rfl hp) (Sub.trans rfl hr) ?_

theorem State.bvSs1_only {p r : Nat} {s x : State} {a1 : _} (hp : Sub 16930824 p) (hr : Sub 0xfc000000000000000000000000000000000000000000000000000000000000000000000000000000000000000000000000000000000000000000000000000000000000000000000000000000000000000000038080300000000000000000000000000000000000000000000000000000000000000000000000000000000000000000000000000000000000000000000000000000000000000000000000009fe007ffb0000000000000000000204000000000000000000000000000000000000000000000000000000000000000000000000000000000000000000000000000000000000000000000000000000000000000000000000 r) (h : Only p r s x) :
    Only p r s (State.bvSs1 x a1) := by
  unfold State.bvSs1
  repeat' first
    | with_reducible assumption
    | with_reducible refine State.updSep_only (Sub.trans rfl hp) (Sub.trans rfl hr) ?_
    | with_reducible refine State.post_only (Sub.trans rfl hp) (Sub.trans rfl hr) ?_
    | with_reducible refine State.bvAssert_only (Sub.trans rfl hp) (Sub.trans rfl hr) ?_
    | with_reducible refine Only.ite ?_ ?_
    | intro _
    | (extract_lets +onlyGivenNames y; first | (refine Only.cut (x := y) ?_ ?_; subst y; rotate_left; clear_value y; intro _) | clear_value y)
    | split
    | dsimp only

theorem State.bvWatch_only {p r : Nat} {s x : State} {a1 : _} (hp : Sub 16384 p) (hr : Sub 0 r) (h : Only p r s x) :
    Only p r s (State.bvWatch x a1) := by
  unfold State.bvWatch
  repeat' first
    | with_reducible assumption
    | with_reducible refine State.updSep_only (Sub.trans rfl hp) (Sub.trans rfl hr) ?_
    | with_reducible refine Only.ite ?_ ?_
    | intro _
    | (extract_lets +onlyGivenNames y; first | (refine Only.cut (x := y) ?_ ?_; subst y; rotate_left; clear_value y; intro _) | clear_value y)
    | split
    | dsimp only

theorem execSepBvSs1_only {p r : Nat} {s : State} {a0 : _} (hp : Sub 16930824 p) (hr : Sub 0xfc000000000000000000000000000000000000000000000000000000000000000000000000000000000000000000000000000000000000000000000000000000000000000000000000000000000000000000038080300000000000000000000000000000000000000000000000000000000000000000000000000000000000000000000000000000000000000000000000000000000000000000000000009fe007ffb0000000000000000000204000000000000000000000000000000000000000000000000000000000000000000000000000000000000000000000000000000000000000000000000000000000000000000000000 r) :
    ∃ t, execSepBvSs1 a0 s = .next t ∧ Only p r s t := by
  unfold execSepBvSs1
  refine ⟨_, rfl, ?_⟩
  have h : Only p r s s := Only.refl
  repeat' first
    | with_reducible assumption
    | with_reducible refine State.bvSs1_only (Sub.trans rfl hp) (Sub.trans rfl hr) ?_

end Sys2Proof.Machine
end

