-- ==== Sys2Proof/Laws/OnlyJoint.lean ====
section
/-! SUPPORT. Footprints of the operations of Machine/Joint.lean. -/
namespace Sys2Proof.Machine
set_option linter.all false
set_option Elab.async false

theorem State.injectTl_only {p r : Nat} {s x : State} {a1 a2 : _} (hp : Sub 4194312 p) (hr : Sub 0xe060000000000000000000000000000000000000000000000000000000000000000000000000000000000000000000000000000000000000000000000000000000000000000000000000000000000000000000000000000000000000000000000000000000000000000000000000000000000000000000000000000000000000000000000000000000000000000000000000000000000000000000000000000000000000000000000000000000000000000000000000000000000000000000000000000000000000000000000000000000000000000000000000000000000000000 r) (h : Only p r s x) :
    Only p r s (State.injectTl x a1 a2).2 := by
  unfold State.injectTl
  repeat' first
    | with_reducible assumption
    | with_reducible refine Only.snd (q := (State.inject _ _ _)) (by assumption) (State.inject_only (Sub.trans rfl hp) (Sub.trans rfl hr) ?_)
    | with_reducible refine State.inject_only (Sub.trans rfl hp) (Sub.trans rfl hr) ?_
    | (extract_lets +onlyGivenNames y; first | (refine Only.cut (x := y) ?_ ?_; subst y; rotate_left; clear_value y; intro _) | (refine Only.cut (x := y.1) ?_ ?_; subst y; rotate_left; clear_value y; intro _) | (refine Only.cut (x := y.2) ?_ ?_; subst y; rotate_left; clear_value y; intro _) | (refine Only.cut (x := y.2.2) ?_ ?_; subst y; rotate_left; clear_value y; intro _) | clear_value y)
    | split
    | dsimp only

theorem State.refStale_only {p r : Nat} {s x : State} {a1 a2 : _} (hp : Sub 2147483672 p) (hr : Sub 0x100000000000000000000000000000000000000000000000000000000000000000000000000000000000000000000000000000000000000000000000000000000000000000000000000 r) (h : Only p r s x) :
    Only p r s (State.refStale x a1 a2) := by
  unfold State.refStale
  repeat' first
    | with_reducible assumption
    | with_reducible refine State.raiseBit_only 584 R.TL_JSTAT_REF_STALE_num (Sub.bits hr rfl) (Sub.trans rfl hp) (Sub.trans rfl hr) ?_
    | with_reducible refine State.post_only (Sub.trans rfl hp) (Sub.trans rfl hr) ?_
    | with_reducible refine State.jointReact_only (Sub.trans rfl hp) (Sub.trans rfl hr) ?_
    | (extract_lets +onlyGivenNames y; first | (refine Only.cut (x := y) ?_ ?_; subst y; rotate_left; clear_value y; intro _) | clear_value y)
    | dsimp only

theorem State.refBlock_only {p r : Nat} {s x : State} {a1 : _} (hp : Sub 2151679000 p) (hr : Sub 0xe060000000000000000000000000000000000000000000000000000000000000000000000000000000000000000000000000000000000000000000000000000000000000000000000000000000000000000000000000000000000000000000000000000000000000000000000000000000000000000000000000000000000000000000000000000000000000000000000000000000000000100000000000000000000000000000000000000000000000000000000000000000000000000000000000000000000000000000000000000000000000000000000000000000000000000 r) (h : Only p r s x) :
    Only p r s (State.refBlock x a1) := by
  unfold State.refBlock
  repeat' first
    | with_reducible assumption
    | with_reducible refine Only.snd (q := (State.injectTl _ _ _)) (by assumption) (State.injectTl_only (Sub.trans rfl hp) (Sub.trans rfl hr) ?_)
    | with_reducible refine State.injectTl_only (Sub.trans rfl hp) (Sub.trans rfl hr) ?_
    | with_reducible refine State.updTil_only (Sub.trans rfl hp) (Sub.trans rfl hr) ?_
    | with_reducible refine State.refStale_only (Sub.trans rfl hp) (Sub.trans rfl hr) ?_
    | with_reducible refine Only.ite ?_ ?_
    | intro _
    | (extract_lets +onlyGivenNames y; first | (refine Only.cut (x := y) ?_ ?_; subst y; rotate_left; clear_value y; intro _) | (refine Only.cut (x := y.1) ?_ ?_; subst y; rotate_left; clear_value y; intro _) | (refine Only.cut (x := y.2) ?_ ?_; subst y; rotate_left; clear_value y; intro _) | (refine Only.cut (x := y.2.2) ?_ ?_; subst y; rotate_left; clear_value y; intro _) | clear_value y)
    | split
    | dsimp only

theorem State.xferSat_only {p r : Nat} {s x : State} {a1 a2 : _} (hp : Sub 2147483656 p) (hr : Sub 0x80000000000000000000000000000000000000000000000000000000000000000000000000000000000000000000000000000000000000000000000000000000000000000000000000 r) (h : Only p r s x) :
    Only p r s (State.xferSat x a1 a2) := by
  unfold State.xferSat
  repeat' first
    | with_reducible assumption
    | with_reducible refine State.raiseBit_only 583 R.TL_JSTAT_XFER_SAT_num (Sub.bits hr rfl) (Sub.trans rfl hp) (Sub.trans rfl hr) ?_
    | with_reducible refine State.post_only (Sub.trans rfl hp) (Sub.trans rfl hr) ?_

theorem State.setJoint_only {p r : Nat} {s x : State} {a1 a2 : _} (hp : Sub 1024 p) (hr : Sub 0x204000000000000000000000000000000000000000000000000000000000000000000000000000000000000000000000000000000000000000000000000000000000000000000000000 r) (h : Only p r s x) :
    Only p r s (State.setJoint x a1 a2) := by
  unfold State.setJoint
  repeat' first
    | with_reducible assumption
    | with_reducible refine Only.set 578 R.TL_JSTAT_JSTATE_num (Sub.bits hr rfl) ?_
    | with_reducible refine Only.set 585 R.TL_SAT_ACC_num (Sub.bits hr rfl) ?_
    | with_reducible refine State.updTil_only (Sub.trans rfl hp) (Sub.trans rfl hr) ?_
    | with_reducible refine Only.ite ?_ ?_
    | intro _
    | (extract_lets +onlyGivenNames y; first | (refine Only.cut (x := y) ?_ ?_; subst y; rotate_left; clear_value y; intro _) | clear_value y)
    | split
    | dsimp only

theorem State.stopJoint_only {p r : Nat} {s x : State} {a1 a2 : _} (hp : Sub 136200 p) (hr : Sub 0x380803000000000000000000000000000000000000000000000000000000000000000000000000000000000000000000000000000000000000000000000000000000000000000000000000000000401b000000000000000000020c000000000000000000000000000000000000000000000000000000000000000000000000000000000000000000000000000000000000000000000000000000000000000000000000 r) (h : Only p r s x) :
    Only p r s (State.stopJoint x a1 a2) := by
  unfold State.stopJoint
  repeat' first
    | with_reducible assumption
    | with_reducible refine State.setJoint_only (Sub.trans rfl hp) (Sub.trans rfl hr) ?_
    | with_reducible refine Only.set 579 R.TL_JSTAT_CAUSE_num (Sub.bits hr rfl) ?_
    | with_reducible refine State.abortGen_only (Sub.trans rfl hp) (Sub.trans rfl hr) ?_
    | with_reducible refine Only.ite ?_ ?_
    | split

theorem State.applyStop_only {p r : Nat} {s x : State} {a1 a2 a3 : _} (hp : Sub 134880264 p) (hr : Sub 0x380803000000000000000000000000000000000000000000000000000000000000000000000000000000000000000000000000000000000000000000000000000000000000000000000000000000401b000000000000000000020c000000000000000000000000000000000000000000000000000000000000000000000000000000000000000000000000000000000000000000000000000000000000000000000000 r) (h : Only p r s x) :
    Only p r s (State.applyStop x a1 a2 a3) := by
  unfold State.applyStop
  repeat' first
    | with_reducible assumption
    | with_reducible refine State.stopJoint_only (Sub.trans rfl hp) (Sub.trans rfl hr) ?_
    | with_reducible refine State.updGroup_only (Sub.trans rfl hp) (Sub.trans rfl hr) ?_
    | with_reducible refine State.mirrorFree_only (Sub.trans rfl hp) (Sub.trans rfl hr) ?_
    | with_reducible refine Only.ite ?_ ?_
    | with_reducible refine Only.foldl ?_ ?_
    | intro _
    | (extract_lets +onlyGivenNames y; first | (refine Only.cut (x := y) ?_ ?_; subst y; rotate_left; clear_value y; intro _) | clear_value y)
    | split
    | dsimp only

theorem State.commitStage_only {p r : Nat} {s x : State} {a1 : _} (hp : Sub 1024 p) (hr : Sub 0x840000000000000000000000000000000000000000000000000000000000000000000000000000000000000000000000000000000000000000000000000000000000000000000000000 r) (h : Only p r s x) :
    Only p r s (State.commitStage x a1) := by
  unfold State.commitStage
  repeat' first
    | with_reducible assumption
    | with_reducible refine State.updTil_only (Sub.trans rfl hp) (Sub.trans rfl hr) ?_
    | with_reducible refine Only.setBit 582 R.TL_JSTAT_XFER_LAST_num (Sub.bits hr rfl) ?_
    | with_reducible refine Only.add 587 R.TL_JCOUNT_XFER_COUNT_num (Sub.bits hr rfl) ?_
    | with_reducible refine Only.ite ?_ ?_
    | intro _
    | (extract_lets +onlyGivenNames y; first | (refine Only.cut (x := y) ?_ ?_; subst y; rotate_left; clear_value y; intro _) | clear_value y)
    | split
    | dsimp only

theorem State.moveJoints_only {p r : Nat} {s x : State} {a1 a2 a3 : _} (hp : Sub 1024 p) (hr : Sub 0x204000000000000000000000000000000000000000000000000000000000000000000000000000000000000000000000000000000000000000000000000000000000000000000000000 r) (h : Only p r s x) :
    Only p r s (State.moveJoints x a1 a2 a3) := by
  unfold State.moveJoints
  repeat' first
    | with_reducible assumption
    | with_reducible refine State.setJoint_only (Sub.trans rfl hp) (Sub.trans rfl hr) ?_
    | with_reducible refine Only.foldl ?_ ?_
    | intro _
    | dsimp only

theorem State.servoApply_only {p r : Nat} {s x : State} {a1 a2 : _} (hp : Sub 151673864 p) (hr : Sub 0xfc0000000000000000000000000000000000000000000000000000000000000000000000000000000000000000000000000000000000000000000000000000000000000000000000000000000000000000000380803000000000000000000000000000000000000000000000000000000000000000000000000000000000000000000000000000000000000000000000000000000000000000000000000000000401b000000000000000000020c000000000000000000000000000000000000000000000000000000000000000000000000000000000000000000000000000000000000000000000000000000000000000000000000 r) (h : Only p r s x) :
    Only p r s (State.servoApply x a1 a2) := by
  unfold State.servoApply
  repeat' first
    | with_reducible assumption
    | with_reducible refine State.updGroup_only (Sub.trans rfl hp) (Sub.trans rfl hr) ?_
    | with_reducible refine State.moveJoints_only (Sub.trans rfl hp) (Sub.trans rfl hr) ?_
    | with_reducible refine State.applyStop_only (Sub.trans rfl hp) (Sub.trans rfl hr) ?_
    | with_reducible refine State.resetRelease_only (Sub.trans rfl hp) (Sub.trans rfl hr) ?_
    | with_reducible refine State.mirrorFree_only (Sub.trans rfl hp) (Sub.trans rfl hr) ?_
    | intro _
    | (extract_lets +onlyGivenNames y; first | (refine Only.cut (x := y) ?_ ?_; subst y; rotate_left; clear_value y; intro _) | (refine Only.cutf (f := y) ?_ ?_; subst y; rotate_left; clear_value y; intro _) | clear_value y)
    | split
    | dsimp only
    | with_reducible apply_assumption

theorem State.selectRegion_only {p r : Nat} {s x : State} {a1 : _} (hp : Sub 1032 p) (hr : Sub 0x1e00000000000000000000000000000000000000000000000000000000000000000000000000000000000000000000000000000000000000000000000000000000000000000000000 r) (h : Only p r s x) :
    Only p r s (State.selectRegion x a1) := by
  unfold State.selectRegion
  repeat' first
    | with_reducible assumption
    | with_reducible refine Only.set 574 R.TL_GAIN_REGION_BAND0_num (Sub.bits hr rfl) ?_
    | with_reducible refine Only.set 575 R.TL_GAIN_REGION_BAND1_num (Sub.bits hr rfl) ?_
    | with_reducible refine State.updTil_only (Sub.trans rfl hp) (Sub.trans rfl hr) ?_
    | with_reducible refine State.post_only (Sub.trans rfl hp) (Sub.trans rfl hr) ?_
    | with_reducible refine Only.setBit 576 R.TL_GAIN_REGION_FORCED_num (Sub.bits hr rfl) ?_
    | with_reducible refine Only.set 573 R.TL_GAIN_REGION_SELECTED_num (Sub.bits hr rfl) ?_
    | with_reducible refine Only.ite ?_ ?_
    | intro _
    | (extract_lets +onlyGivenNames y; first | (refine Only.cut (x := y) ?_ ?_; subst y; rotate_left; clear_value y; intro _) | clear_value y)
    | split
    | dsimp only

theorem State.detectTl_only {p r : Nat} {s x : State} {a1 a2 a3 a4 : _} (hp : Sub 4194312 p) (hr : Sub 0xe060000000000000000000000000000000000000000000000000000000000000000000000000000000000000000000000000000000000000000000000000000000000000000000000000000000000000000000000000000000000000000000000000000000000000000000000000000000000000000000000000000000000000000000000000000000000000000000000000000000000000000000000000000000000000000000000000000000000000000000000000000000000000000000000000000000000000000000000000000000000000000000000000000000000000000 r) (h4 : ∀ y0 y1, Only p r s y1 → Only p r s (a4 y0 y1)) (h : Only p r s x) :
    Only p r s (State.detectTl x a1 a2 a3 a4) := by
  unfold State.detectTl
  repeat' first
    | with_reducible assumption
    | with_reducible refine State.detect_only (Sub.trans rfl hp) (Sub.trans rfl hr) ?_ ?_
    | with_reducible apply h4
    | with_reducible refine Only.ite ?_ ?_
    | intro _
    | (extract_lets +onlyGivenNames y; first | (refine Only.cut (x := y) ?_ ?_; subst y; rotate_left; clear_value y; intro _) | clear_value y)
    | split
    | dsimp only

theorem State.stageXfer_only {p r : Nat} {s x : State} {a1 : _} (hp : Sub 2151678984 p) (hr : Sub 0xe060000000000000000000000000000000000000000000000000000000000000000000000000000000000000000000000000000000000000000000000000000000000000000000000000000000000000000000000000000000000000000000000000000000000000000000000000000000000000000000000000000000000000000000000000000000000000000000000000000000000000080000000000000000000000000000000000000000000000000000000000000000000000000000000000000000000000000000000000000000000000000000000000000000000000000 r) (h : Only p r s x) :
    Only p r s (State.stageXfer x a1) := by
  unfold State.stageXfer
  repeat' first
    | with_reducible assumption
    | with_reducible refine State.updTil_only (Sub.trans rfl hp) (Sub.trans rfl hr) ?_
    | with_reducible refine State.xferSat_only (Sub.trans rfl hp) (Sub.trans rfl hr) ?_
    | with_reducible refine State.detectTl_only (Sub.trans rfl hp) (Sub.trans rfl hr) ?_ ?_
    | with_reducible refine Only.ite ?_ ?_
    | intro _
    | (extract_lets +onlyGivenNames y; first | (refine Only.cut (x := y) ?_ ?_; subst y; rotate_left; clear_value y; intro _) | clear_value y)
    | split
    | dsimp only

theorem State.preloadDone_only {p r : Nat} {s x : State} {a1 : _} (hp : Sub 2151679000 p) (hr : Sub 0xe060000000000000000000000000000000000000000000000000000000000000000000000000000000000000000000000000000000000000000000000000000000000000000000000000000000000000000000000000000000000000000000000000000000000000000000000000000000000000000000000000000000000000000000000000000000000000000000000000000000000000180000000000000000000000000000000000000000000000000000000000000000000000000000000000000000000000000000000000000000000000000000000000000000000000000 r) (h : Only p r s x) :
    Only p r s (State.preloadDone x a1) := by
  unfold State.preloadDone
  repeat' first
    | with_reducible assumption
    | with_reducible refine State.updTil_only (Sub.trans rfl hp) (Sub.trans rfl hr) ?_
    | with_reducible refine State.refBlock_only (Sub.trans rfl hp) (Sub.trans rfl hr) ?_
    | with_reducible refine State.stageXfer_only (Sub.trans rfl hp) (Sub.trans rfl hr) ?_
    | with_reducible refine Only.ite ?_ ?_
    | intro _
    | (extract_lets +onlyGivenNames y; first | (refine Only.cut (x := y) ?_ ?_; subst y; rotate_left; clear_value y; intro _) | clear_value y)
    | split
    | dsimp only

theorem execPreloadComplete_only {p r : Nat} {s : State} {a0 : _} (hp : Sub 2151679000 p) (hr : Sub 0xe060000000000000000000000000000000000000000000000000000000000000000000000000000000000000000000000000000000000000000000000000000000000000000000000000000000000000000000000000000000000000000000000000000000000000000000000000000000000000000000000000000000000000000000000000000000000000000000000000000000000000180000000000000000000000000000000000000000000000000000000000000000000000000000000000000000000000000000000000000000000000000000000000000000000000000 r) :
    ∃ t, execPreloadComplete a0 s = .next t ∧ Only p r s t := by
  unfold execPreloadComplete
  refine ⟨_, rfl, ?_⟩
  have h : Only p r s s := Only.refl
  repeat' first
    | with_reducible assumption
    | with_reducible refine State.preloadDone_only (Sub.trans rfl hp) (Sub.trans rfl hr) ?_

theorem State.clearRestart_only {p r : Nat} {s x : State} {a1 : _} (hp : Sub 33554432 p) (_hr : Sub 0 r) (h : Only p r s x) :
    Only p r s (State.clearRestart x a1) := by
  unfold State.clearRestart
  repeat' first
    | with_reducible assumption
    | with_reducible refine Only.ite ?_ ?_
    | (extract_lets +onlyGivenNames y; first | (refine Only.cut (x := y) ?_ ?_; subst y; rotate_left; clear_value y; intro _) | clear_value y)
    | split
    | (first | (with_reducible refine Only.upd_pw (Sub.bits hp rfl) ?_; first | with_reducible assumption))

theorem State.doServo_only {p r : Nat} {s x : State} {a1 : _} (hp : Sub 34211848 p) (hr : Sub 0x38080300000000000000000000000000000000000000000000000000000000000000000000000000000000000000000000000000000000000000000000000000000000000000000000000000000000000000000000000000000000000000000000000000000000000000000000000000000000000000000000000000000000000000000000000000000000000000000000000000000000000000000000000000000000 r) (h : Only p r s x) :
    Only p r s (State.doServo x a1) := by
  unfold State.doServo
  repeat' first
    | with_reducible assumption
    | with_reducible refine State.completeDesc_only (Sub.trans rfl hp) (Sub.trans rfl hr) ?_
    | with_reducible refine State.mirrorDesc_only (Sub.trans rfl hp) (Sub.trans rfl hr) ?_
    | with_reducible refine State.clearRestart_only (Sub.trans rfl hp) (Sub.trans rfl hr) ?_
    | with_reducible refine State.updGroup_only (Sub.trans rfl hp) (Sub.trans rfl hr) ?_
    | with_reducible refine Only.ite ?_ ?_
    | intro _
    | (extract_lets +onlyGivenNames y; first | (refine Only.cut (x := y) ?_ ?_; subst y; rotate_left; clear_value y; intro _) | clear_value y)
    | split
    | dsimp only

theorem execArmServoStop_only {p r : Nat} {s : State} {a0 : _} (hp : Sub 34211976 p) (hr : Sub 0x38080300000000000000000000000000000000000000000000000000000000000000000000000000000000000000000000000000000000000000000000000000000000000000000000000000000000000000000000000000000000000000000000000000000000000000000000000000000000000000000000000000000000000000000000000000000000000000000000000000000000000000000000000000000000 r) :
    ∃ t, execArmServoStop a0 s = .next t ∧ Only p r s t := by
  unfold execArmServoStop
  refine ⟨_, rfl, ?_⟩
  have h : Only p r s s := Only.refl
  repeat' first
    | with_reducible assumption
    | with_reducible refine State.doServo_only (Sub.trans rfl hp) (Sub.trans rfl hr) ?_
    | with_reducible refine State.opAction_only (Sub.trans rfl hp) (Sub.trans rfl hr) ?_ ?_
    | intro _

theorem State.preloadStart_only {p r : Nat} {s x : State} {a1 : _} (hp : Sub 1024 p) (hr : Sub 0 r) (h : Only p r s x) :
    Only p r s (State.preloadStart x a1) := by
  unfold State.preloadStart
  repeat' first
    | with_reducible assumption
    | with_reducible refine State.updTil_only (Sub.trans rfl hp) (Sub.trans rfl hr) ?_
    | with_reducible refine Only.ite ?_ ?_
    | intro _
    | (extract_lets +onlyGivenNames y; first | (refine Only.cut (x := y) ?_ ?_; subst y; rotate_left; clear_value y; intro _) | clear_value y)
    | split
    | dsimp only

theorem State.preloadFallback_only {p r : Nat} {s x : State} {a1 : _} (hp : Sub 1024 p) (hr : Sub 0 r) (h : Only p r s x) :
    Only p r s (State.preloadFallback x a1) := by
  unfold State.preloadFallback
  repeat' first
    | with_reducible assumption
    | with_reducible refine State.preloadStart_only (Sub.trans rfl hp) (Sub.trans rfl hr) ?_
    | with_reducible refine Only.ite ?_ ?_
    | split

theorem execPreloadFallbackStart_only {p r : Nat} {s : State} {a0 : _} (hp : Sub 1024 p) (hr : Sub 0 r) :
    ∃ t, execPreloadFallbackStart a0 s = .next t ∧ Only p r s t := by
  unfold execPreloadFallbackStart
  refine ⟨_, rfl, ?_⟩
  have h : Only p r s s := Only.refl
  repeat' first
    | with_reducible assumption
    | with_reducible refine State.preloadFallback_only (Sub.trans rfl hp) (Sub.trans rfl hr) ?_

theorem State.preloadLate_only {p r : Nat} {s x : State} {a1 a2 : _} (hp : Sub 1048 p) (hr : Sub 0x40000000000000200000000000000000000000000000000000000000000000000000000000000000000000000000000000000000000000000000000000000000000000000000000000 r) (h : Only p r s x) :
    Only p r s (State.preloadLate x a1 a2) := by
  unfold State.preloadLate
  repeat' first
    | with_reducible assumption
    | with_reducible refine State.updTil_only (Sub.trans rfl hp) (Sub.trans rfl hr) ?_
    | with_reducible refine Only.setBit 582 R.TL_JSTAT_XFER_LAST_num (Sub.bits hr rfl) ?_
    | with_reducible refine Only.inc 525 R.TL_COUNT_PL_LATE_num (Sub.bits hr rfl) ?_
    | with_reducible refine State.post_only (Sub.trans rfl hp) (Sub.trans rfl hr) ?_
    | with_reducible refine State.jointReact_only (Sub.trans rfl hp) (Sub.trans rfl hr) ?_
    | with_reducible refine Only.ite ?_ ?_
    | intro _
    | (extract_lets +onlyGivenNames y; first | (refine Only.cut (x := y) ?_ ?_; subst y; rotate_left; clear_value y; intro _) | clear_value y)
    | split
    | dsimp only

theorem State.windup_only {p r : Nat} {s x : State} {a1 a2 a3 : _} (hp : Sub 1024 p) (hr : Sub 0x400000000000000000000000000000000000000000000000000000000000000000000000000000000000000000000000000000000000000000000000000000000000000000000000000 r) (h : Only p r s x) :
    Only p r s (State.windup x a1 a2 a3) := by
  unfold State.windup
  repeat' first
    | with_reducible assumption
    | with_reducible refine State.updTil_only (Sub.trans rfl hp) (Sub.trans rfl hr) ?_
    | with_reducible refine Only.inc 586 R.TL_JCOUNT_AW_HOLDS_num (Sub.bits hr rfl) ?_
    | with_reducible refine Only.ite ?_ ?_
    | intro _
    | (extract_lets +onlyGivenNames y; first | (refine Only.cut (x := y) ?_ ?_; subst y; rotate_left; clear_value y; intro _) | clear_value y)
    | split
    | dsimp only

theorem State.wantStop_only {p r : Nat} {s x : State} {a1 a2 a3 : _} (hp : Sub 2048 p) (hr : Sub 0 r) (h : Only p r s x) :
    Only p r s (State.wantStop x a1 a2 a3) := by
  unfold State.wantStop
  repeat' first
    | with_reducible assumption
    | with_reducible refine State.updGroup_only (Sub.trans rfl hp) (Sub.trans rfl hr) ?_
    | with_reducible refine Only.ite ?_ ?_
    | intro _
    | (extract_lets +onlyGivenNames y; first | (refine Only.cut (x := y) ?_ ?_; subst y; rotate_left; clear_value y; intro _) | clear_value y)
    | split
    | dsimp only

theorem State.satTime_only {p r : Nat} {s x : State} {a1 : _} (hp : Sub 2151679000 p) (hr : Sub 0xe060000000000000000000000000000000000000000000000000000000000000000000000000000000000000000000000000000000000000000000000000000000000000000000000000000000000000000000000000000000000000000000000000000000000000000000000000000000000000000000000000000000000000000000000000000000000000000000000000000000000001020000000000000000000000000000000000000000000000000000000000000000000000000000000000000000000000000000000000000000000000000000000000000000000000000 r) (h : Only p r s x) :
    Only p r s (State.satTime x a1) := by
  unfold State.satTime
  repeat' first
    | with_reducible assumption
    | with_reducible refine State.updTil_only (Sub.trans rfl hp) (Sub.trans rfl hr) ?_
    | with_reducible refine State.raiseBit_only 581 R.TL_JSTAT_SAT_TRIP_num (Sub.bits hr rfl) (Sub.trans rfl hp) (Sub.trans rfl hr) ?_
    | with_reducible refine Only.inc 588 R.TL_JCOUNT_SAT_TRIPS_num (Sub.bits hr rfl) ?_
    | with_reducible refine State.post_only (Sub.trans rfl hp) (Sub.trans rfl hr) ?_
    | with_reducible refine State.jointReact_only (Sub.trans rfl hp) (Sub.trans rfl hr) ?_
    | with_reducible refine State.detectTl_only (Sub.trans rfl hp) (Sub.trans rfl hr) ?_ ?_
    | with_reducible refine Only.ite ?_ ?_
    | intro _
    | (extract_lets +onlyGivenNames y; first | (refine Only.cut (x := y) ?_ ?_; subst y; rotate_left; clear_value y; intro _) | clear_value y)
    | split
    | dsimp only

theorem State.ss1Expiry_only {p r : Nat} {s x : State} {a1 : _} (hp : Sub 16930824 p) (hr : Sub 0xfc000000000000000000000000000000000000000000000000000000000000000000000000000000000000000000000000000000000000000000000000000000000000000000000000000000000000000000038080300000000000000000000000000000000000000000000000000000000000000000000000000000000000000000000000000000000000000000000000000000000000000000000000009fe007ffb0000000000000000000204000000000000000000000000000000000000000000000000000000000000000000000000000000000000000000000000000000000000000000000000000000000000000000000000 r) (h : Only p r s x) :
    Only p r s (State.ss1Expiry x a1) := by
  unfold State.ss1Expiry
  repeat' first
    | with_reducible assumption
    | with_reducible refine State.assertGroup_only (Sub.trans rfl hp) (Sub.trans rfl hr) ?_
    | with_reducible refine Only.ite ?_ ?_
    | split

theorem State.noteStop_only {p r : Nat} {s x : State} {a1 a2 a3 : _} (hp : Sub 2048 p) (hr : Sub 0 r) (h : Only p r s x) :
    Only p r s (State.noteStop x a1 a2 a3) := by
  unfold State.noteStop
  repeat' first
    | with_reducible assumption
    | with_reducible refine State.updGroup_only (Sub.trans rfl hp) (Sub.trans rfl hr) ?_
    | with_reducible refine Only.ite ?_ ?_
    | intro _
    | (extract_lets +onlyGivenNames y; first | (refine Only.cut (x := y) ?_ ?_; subst y; rotate_left; clear_value y; intro _) | clear_value y)
    | split
    | dsimp only

theorem State.exchange_only {p r : Nat} {s x : State} {a1 : _} (hp : Sub 1024 p) (hr : Sub 0x842100000000000000000000000000000000000000000000000000000000000000000000000000000000000000000000000000000000000000000000000000000000000000000000000 r) (h : Only p r s x) :
    Only p r s (State.exchange x a1) := by
  unfold State.exchange
  repeat' first
    | with_reducible assumption
    | with_reducible refine State.updTil_only (Sub.trans rfl hp) (Sub.trans rfl hr) ?_
    | with_reducible refine Only.set 572 R.TL_GAIN_REGION_REGION_num (Sub.bits hr rfl) ?_
    | with_reducible refine Only.inc 577 R.TL_GAIN_REGION_SWITCHES_num (Sub.bits hr rfl) ?_
    | with_reducible refine State.commitStage_only (Sub.trans rfl hp) (Sub.trans rfl hr) ?_
    | with_reducible refine Only.ite ?_ ?_
    | intro _
    | (extract_lets +onlyGivenNames y; first | (refine Only.cut (x := y) ?_ ?_; subst y; rotate_left; clear_value y; intro _) | clear_value y)
    | split
    | dsimp only

theorem State.reachStop_only {p r : Nat} {s x : State} {a1 a2 a3 : _} (hp : Sub 2048 p) (hr : Sub 0 r) (h : Only p r s x) :
    Only p r s (State.reachStop x a1 a2 a3) := by
  unfold State.reachStop
  repeat' first
    | with_reducible assumption
    | with_reducible refine State.noteStop_only (Sub.trans rfl hp) (Sub.trans rfl hr) ?_
    | with_reducible refine State.wantStop_only (Sub.trans rfl hp) (Sub.trans rfl hr) ?_
    | with_reducible refine State.updGroup_only (Sub.trans rfl hp) (Sub.trans rfl hr) ?_
    | with_reducible refine Only.ite ?_ ?_
    | intro _
    | (extract_lets +onlyGivenNames y; first | (refine Only.cut (x := y) ?_ ?_; subst y; rotate_left; clear_value y; intro _) | clear_value y)
    | split
    | dsimp only

theorem State.applyWant_only {p r : Nat} {s x : State} {a1 : _} (hp : Sub 134880264 p) (hr : Sub 0x380803000000000000000000000000000000000000000000000000000000000000000000000000000000000000000000000000000000000000000000000000000000000000000000000000000000401b000000000000000000020c000000000000000000000000000000000000000000000000000000000000000000000000000000000000000000000000000000000000000000000000000000000000000000000000 r) (h : Only p r s x) :
    Only p r s (State.applyWant x a1) := by
  unfold State.applyWant
  repeat' first
    | with_reducible assumption
    | with_reducible refine State.updGroup_only (Sub.trans rfl hp) (Sub.trans rfl hr) ?_
    | with_reducible refine State.applyStop_only (Sub.trans rfl hp) (Sub.trans rfl hr) ?_
    | with_reducible refine Only.ite ?_ ?_
    | intro _
    | (extract_lets +onlyGivenNames y; first | (refine Only.cut (x := y) ?_ ?_; subst y; rotate_left; clear_value y; intro _) | clear_value y)
    | split
    | dsimp only

theorem State.applyHeld_only {p r : Nat} {s x : State} {a1 : _} (hp : Sub 134880264 p) (hr : Sub 0x380803000000000000000000000000000000000000000000000000000000000000000000000000000000000000000000000000000000000000000000000000000000000000000000000000000000401b000000000000000000020c000000000000000000000000000000000000000000000000000000000000000000000000000000000000000000000000000000000000000000000000000000000000000000000000 r) (h : Only p r s x) :
    Only p r s (State.applyHeld x a1) := by
  unfold State.applyHeld
  repeat' first
    | with_reducible assumption
    | with_reducible refine State.reachStop_only (Sub.trans rfl hp) (Sub.trans rfl hr) ?_
    | with_reducible refine State.updGroup_only (Sub.trans rfl hp) (Sub.trans rfl hr) ?_
    | with_reducible refine State.applyWant_only (Sub.trans rfl hp) (Sub.trans rfl hr) ?_
    | with_reducible refine Only.ite ?_ ?_
    | with_reducible refine Only.foldl ?_ ?_
    | intro _
    | (extract_lets +onlyGivenNames y; first | (refine Only.cut (x := y) ?_ ?_; subst y; rotate_left; clear_value y; intro _) | clear_value y)
    | split
    | dsimp only

theorem State.servoOne_only {p r : Nat} {s x : State} {a1 a2 : _} (hp : Sub 151673864 p) (hr : Sub 0xfc0000000000000000000000000000000000000000000000000000000000000000000000000000000000000000000000000000000000000000000000000000000000000000000000000000000000000000000380803000000000000000000000000000000000000000000000000000000000000000000000000000000000000000000000000000000000000000000000000000000000000000000000000000000401b000000000000000000020c000000000000000000000000000000000000000000000000000000000000000000000000000000000000000000000000000000000000000000000000000000000000000000000000 r) (h : Only p r s x) :
    Only p r s (State.servoOne x a1 a2) := by
  unfold State.servoOne
  repeat' first
    | with_reducible assumption
    | with_reducible refine State.servoApply_only (Sub.trans rfl hp) (Sub.trans rfl hr) ?_
    | with_reducible refine State.complete3_only (Sub.trans rfl hp) (Sub.trans rfl hr) ?_
    | with_reducible refine State.applyHeld_only (Sub.trans rfl hp) (Sub.trans rfl hr) ?_
    | with_reducible refine Only.ite ?_ ?_
    | split
    | dsimp only

theorem State.servoDue_only {p r : Nat} {s x : State} {a1 : _} (hp : Sub 151673864 p) (hr : Sub 0xfc0000000000000000000000000000000000000000000000000000000000000000000000000000000000000000000000000000000000000000000000000000000000000000000000000000000000000000000380803000000000000000000000000000000000000000000000000000000000000000000000000000000000000000000000000000000000000000000000000000000000000000000000000000000401b000000000000000000020c000000000000000000000000000000000000000000000000000000000000000000000000000000000000000000000000000000000000000000000000000000000000000000000000 r) (h : Only p r s x) :
    Only p r s (State.servoDue x a1) := by
  unfold State.servoDue
  repeat' first
    | with_reducible assumption
    | with_reducible refine State.servoOne_only (Sub.trans rfl hp) (Sub.trans rfl hr) ?_
    | with_reducible refine State.updGroup_only (Sub.trans rfl hp) (Sub.trans rfl hr) ?_
    | with_reducible refine Only.ite ?_ ?_
    | with_reducible refine Only.foldl ?_ ?_
    | intro _
    | (extract_lets +onlyGivenNames y; first | (refine Only.cut (x := y) ?_ ?_; subst y; rotate_left; clear_value y; intro _) | clear_value y)
    | split
    | dsimp only

theorem execArmServoApply_only {p r : Nat} {s : State} {a0 : _} (hp : Sub 151673864 p) (hr : Sub 0xfc0000000000000000000000000000000000000000000000000000000000000000000000000000000000000000000000000000000000000000000000000000000000000000000000000000000000000000000380803000000000000000000000000000000000000000000000000000000000000000000000000000000000000000000000000000000000000000000000000000000000000000000000000000000401b000000000000000000020c000000000000000000000000000000000000000000000000000000000000000000000000000000000000000000000000000000000000000000000000000000000000000000000000 r) :
    ∃ t, execArmServoApply a0 s = .next t ∧ Only p r s t := by
  unfold execArmServoApply
  refine ⟨_, rfl, ?_⟩
  have h : Only p r s s := Only.refl
  repeat' first
    | with_reducible assumption
    | with_reducible refine State.servoDue_only (Sub.trans rfl hp) (Sub.trans rfl hr) ?_

theorem State.outputGate_only {p r : Nat} {s x : State} {a1 a2 a3 : _} (hp : Sub 1024 p) (hr : Sub 0x10000000000000000000000000000000000000000000000000000000000000000000000000000000000000000000000000000000000000000000000000000000000000000000000000 r) (h : Only p r s x) :
    Only p r s (State.outputGate x a1 a2 a3) := by
  unfold State.outputGate
  repeat' first
    | with_reducible assumption
    | with_reducible refine State.updTil_only (Sub.trans rfl hp) (Sub.trans rfl hr) ?_
    | with_reducible refine Only.setBit 580 R.TL_JSTAT_SAT_NOW_num (Sub.bits hr rfl) ?_
    | with_reducible refine Only.ite ?_ ?_
    | intro _
    | (extract_lets +onlyGivenNames y; first | (refine Only.cut (x := y) ?_ ?_; subst y; rotate_left; clear_value y; intro _) | clear_value y)
    | split
    | dsimp only

theorem execArmServoOn_only {p r : Nat} {s : State} {a0 : _} (hp : Sub 34211976 p) (hr : Sub 0x38080300000000000000000000000000000000000000000000000000000000000000000000000000000000000000000000000000000000000000000000000000000000000000000000000000000000000000000000000000000000000000000000000000000000000000000000000000000000000000000000000000000000000000000000000000000000000000000000000000000000000000000000000000000000 r) :
    ∃ t, execArmServoOn a0 s = .next t ∧ Only p r s t := by
  unfold execArmServoOn
  refine ⟨_, rfl, ?_⟩
  have h : Only p r s s := Only.refl
  repeat' first
    | with_reducible assumption
    | with_reducible refine State.doServo_only (Sub.trans rfl hp) (Sub.trans rfl hr) ?_
    | with_reducible refine State.opAction_only (Sub.trans rfl hp) (Sub.trans rfl hr) ?_ ?_
    | intro _

theorem State.storeReact_only {p r : Nat} {s x : State} {a1 : _} (hp : Sub 24 p) (hr : Sub 0 r) (h : Only p r s x) :
    Only p r s (State.storeReact x a1) := by
  unfold State.storeReact
  repeat' first
    | with_reducible assumption
    | with_reducible refine State.post_only (Sub.trans rfl hp) (Sub.trans rfl hr) ?_
    | with_reducible refine State.jointReact_only (Sub.trans rfl hp) (Sub.trans rfl hr) ?_
    | with_reducible refine Only.ite ?_ ?_
    | (extract_lets +onlyGivenNames y; first | (refine Only.cut (x := y) ?_ ?_; subst y; rotate_left; clear_value y; intro _) | clear_value y)
    | split
    | dsimp only

theorem State.writeY127_only {p r : Nat} {s x : State} {a1 a2 a3 : _} (hp : Sub 1024 p) (hr : Sub 0 r) (h : Only p r s x) :
    Only p r s (State.writeY127 x a1 a2 a3) := by
  unfold State.writeY127
  repeat' first
    | with_reducible assumption
    | with_reducible refine State.updTil_only (Sub.trans rfl hp) (Sub.trans rfl hr) ?_
    | with_reducible refine Only.ite ?_ ?_
    | intro _
    | (extract_lets +onlyGivenNames y; first | (refine Only.cut (x := y) ?_ ?_; subst y; rotate_left; clear_value y; intro _) | clear_value y)
    | split
    | dsimp only

theorem State.showXfer_only {p r : Nat} {s x : State} {a1 : _} (hp : Sub 1024 p) (hr : Sub 0 r) (h : Only p r s x) :
    Only p r s (State.showXfer x a1) := by
  unfold State.showXfer
  repeat' first
    | with_reducible assumption
    | with_reducible refine State.updTil_only (Sub.trans rfl hp) (Sub.trans rfl hr) ?_
    | with_reducible refine Only.ite ?_ ?_
    | intro _
    | (extract_lets +onlyGivenNames y; first | (refine Only.cut (x := y) ?_ ?_; subst y; rotate_left; clear_value y; intro _) | clear_value y)
    | split
    | dsimp only

theorem State.tillerBoundary_only {p r : Nat} {s x : State} {a1 a2 : _} (hp : Sub 4195352 p) (hr : Sub 0xe060000000000000000000000000000000000000000000000000000000000000000000000000000000000000000000000000000000000000000000000000000000000000000000000000000000000000000000000000000000000000000000000000000000000000000000000000000000000000000000000000000000000000000000000000000000000000000000000000000000000000842100000000000210000000000000000000000000000000000000000000000000000000000000000000000000000000000000000000000000000000000000000000000000000000000 r) (h : Only p r s x) :
    Only p r s (State.tillerBoundary x a1 a2) := by
  unfold State.tillerBoundary
  repeat' first
    | with_reducible assumption
    | with_reducible refine State.writeY127_only (Sub.trans rfl hp) (Sub.trans rfl hr) ?_
    | with_reducible refine Only.set 520 R.TL_STAT_PL_STALE_num (Sub.bits hr rfl) ?_
    | with_reducible refine State.updTil_only (Sub.trans rfl hp) (Sub.trans rfl hr) ?_
    | with_reducible refine Only.snd (q := (State.inject _ _ _)) (by assumption) (State.inject_only (Sub.trans rfl hp) (Sub.trans rfl hr) ?_)
    | with_reducible refine State.inject_only (Sub.trans rfl hp) (Sub.trans rfl hr) ?_
    | with_reducible refine State.preloadLate_only (Sub.trans rfl hp) (Sub.trans rfl hr) ?_
    | with_reducible refine State.showXfer_only (Sub.trans rfl hp) (Sub.trans rfl hr) ?_
    | with_reducible refine State.exchange_only (Sub.trans rfl hp) (Sub.trans rfl hr) ?_
    | with_reducible refine Only.ite ?_ ?_
    | intro _
    | (extract_lets +onlyGivenNames y; first | (refine Only.cut (x := y) ?_ ?_; subst y; rotate_left; clear_value y; intro _) | (refine Only.cut (x := y.1) ?_ ?_; subst y; rotate_left; clear_value y; intro _) | (refine Only.cut (x := y.2) ?_ ?_; subst y; rotate_left; clear_value y; intro _) | (refine Only.cut (x := y.2.2) ?_ ?_; subst y; rotate_left; clear_value y; intro _) | clear_value y)
    | split
    | dsimp only

theorem State.standstill_only {p r : Nat} {s x : State} {a1 : _} (hp : Sub 151673864 p) (hr : Sub 0xfc000000000000000000000000000000000000000000000000000000000000000000000000000000000000000000000000000000000000000000000000000000000000000000000000000000000000000000038080300000000000000000000000000000000000000000000000000000000000000000000000000000000000000000000000000000000000000000000000000000000000000000000000009fe007ffb0000000000000000000204000000000000000000000000000000000000000000000000000000000000000000000000000000000000000000000000000000000000000000000000000000000000000000000000 r) (h : Only p r s x) :
    Only p r s (State.standstill x a1) := by
  unfold State.standstill
  repeat' first
    | with_reducible assumption
    | with_reducible refine State.assertGroup_only (Sub.trans rfl hp) (Sub.trans rfl hr) ?_
    | with_reducible refine State.setJoint_only (Sub.trans rfl hp) (Sub.trans rfl hr) ?_
    | with_reducible refine State.updTil_only (Sub.trans rfl hp) (Sub.trans rfl hr) ?_
    | with_reducible refine State.updGroup_only (Sub.trans rfl hp) (Sub.trans rfl hr) ?_
    | with_reducible refine State.mirrorFree_only (Sub.trans rfl hp) (Sub.trans rfl hr) ?_
    | with_reducible refine Only.ite ?_ ?_
    | with_reducible refine Only.foldl ?_ ?_
    | intro _
    | (extract_lets +onlyGivenNames y; first | (refine Only.cut (x := y) ?_ ?_; subst y; rotate_left; clear_value y; intro _) | clear_value y)
    | split
    | dsimp only

theorem execStandstillReached_only {p r : Nat} {s : State} {a0 : _} (hp : Sub 151673864 p) (hr : Sub 0xfc000000000000000000000000000000000000000000000000000000000000000000000000000000000000000000000000000000000000000000000000000000000000000000000000000000000000000000038080300000000000000000000000000000000000000000000000000000000000000000000000000000000000000000000000000000000000000000000000000000000000000000000000009fe007ffb0000000000000000000204000000000000000000000000000000000000000000000000000000000000000000000000000000000000000000000000000000000000000000000000000000000000000000000000 r) :
    ∃ t, execStandstillReached a0 s = .next t ∧ Only p r s t := by
  unfold execStandstillReached
  refine ⟨_, rfl, ?_⟩
  have h : Only p r s s := Only.refl
  repeat' first
    | with_reducible assumption
    | with_reducible refine State.standstill_only (Sub.trans rfl hp) (Sub.trans rfl hr) ?_

theorem State.satAccount_only {p r : Nat} {s x : State} {a1 a2 : _} (hp : Sub 5120 p) (hr : Sub 0x200000000000000000000000000000000000000000000000000000000000000000000000000000000000000000000000000000000000000000000000000000000000000000000000000 r) (h : Only p r s x) :
    Only p r s (State.satAccount x a1 a2) := by
  unfold State.satAccount
  repeat' first
    | with_reducible assumption
    | with_reducible refine Only.set 585 R.TL_SAT_ACC_num (Sub.bits hr rfl) ?_
    | with_reducible refine State.updTil_only (Sub.trans rfl hp) (Sub.trans rfl hr) ?_
    | with_reducible refine State.homeEvent_only (Sub.trans rfl hp) (Sub.trans rfl hr) ?_
    | with_reducible refine Only.ite ?_ ?_
    | intro _
    | (extract_lets +onlyGivenNames y; first | (refine Only.cut (x := y) ?_ ?_; subst y; rotate_left; clear_value y; intro _) | clear_value y)
    | split
    | dsimp only

theorem State.lostEntry_only {p r : Nat} {s x : State} {a1 : _} (_hp : Sub 0 p) (hr : Sub 0x4000000000000000000000000000000000000000000000000000000000000000000000000000000000000000000000000000000000000000000000000000000000000000000000000 r) (h : Only p r s x) :
    Only p r s (State.lostEntry x a1) := by
  unfold State.lostEntry
  repeat' first
    | with_reducible assumption
    | with_reducible refine Only.set 578 R.TL_JSTAT_JSTATE_num (Sub.bits hr rfl) ?_
    | with_reducible refine Only.ite ?_ ?_
    | intro _
    | (extract_lets +onlyGivenNames y; first | (refine Only.cut (x := y) ?_ ?_; subst y; rotate_left; clear_value y; intro _) | clear_value y)
    | split
    | dsimp only

theorem execArmServoResume_only {p r : Nat} {s : State} {a0 : _} (hp : Sub 34211976 p) (hr : Sub 0x38080300000000000000000000000000000000000000000000000000000000000000000000000000000000000000000000000000000000000000000000000000000000000000000000000000000000000000000000000000000000000000000000000000000000000000000000000000000000000000000000000000000000000000000000000000000000000000000000000000000000000000000000000000000000 r) :
    ∃ t, execArmServoResume a0 s = .next t ∧ Only p r s t := by
  unfold execArmServoResume
  refine ⟨_, rfl, ?_⟩
  have h : Only p r s s := Only.refl
  repeat' first
    | with_reducible assumption
    | with_reducible refine State.doServo_only (Sub.trans rfl hp) (Sub.trans rfl hr) ?_
    | with_reducible refine State.opAction_only (Sub.trans rfl hp) (Sub.trans rfl hr) ?_ ?_
    | intro _

theorem State.finishRun_only {p r : Nat} {s x : State} {a1 : _} (hp : Sub 4236440 p) (hr : Sub 0xe060000000000000000000000000000000000000000000000000000000000000000000000000000000000000000000000000000000000000000000000000000000000000000000000000000000000000000000000000000000000000003c00000060000000000000000000000000000000000000000000000000000048100800000000000000000000000000000000000000000000000000000000000000000001000000000000000000000000000000000000000000000000000000000000000000000000000000000000000000000000000000000000000000000000000000000 r) (h : Only p r s x) :
    Only p r s (State.finishRun x a1) := by
  unfold State.finishRun
  repeat' first
    | with_reducible assumption
    | with_reducible refine State.updTil_only (Sub.trans rfl hp) (Sub.trans rfl hr) ?_
    | with_reducible refine Only.set 516 R.TL_STAT_STATE_num (Sub.bits hr rfl) ?_
    | with_reducible refine State.preloadStart_only (Sub.trans rfl hp) (Sub.trans rfl hr) ?_
    | with_reducible refine State.unitEnd_only (Sub.trans rfl hp) (Sub.trans rfl hr) ?_
    | with_reducible refine Only.ite ?_ ?_
    | intro _
    | (extract_lets +onlyGivenNames y; first | (refine Only.cut (x := y) ?_ ?_; subst y; rotate_left; clear_value y; intro _) | clear_value y)
    | split
    | dsimp only

theorem State.holdTest_only {p r : Nat} {s x : State} {a1 : _} (hp : Sub 4194328 p) (hr : Sub 0xe060000000000000000000000000000000000000000000000000000000000000000000000000000000000000000000000000000000000000000000000000000000000000000000000000000000000000000000000000000000000000000000000000000000000000000000000000000000000000000000000000000000000000000000000000000000000000000000000000000000000000000000000000000000000000000000000000000000000000000000000000000000000000000000000000000000000000000000000000000000000000000000000000000000000000000 r) (h : Only p r s x) :
    Only p r s (State.holdTest x a1) := by
  unfold State.holdTest
  repeat' first
    | with_reducible assumption
    | with_reducible refine State.post_only (Sub.trans rfl hp) (Sub.trans rfl hr) ?_
    | with_reducible refine State.fault_only (Sub.trans rfl hp) (Sub.trans rfl hr) ?_
    | with_reducible refine State.detectTl_only (Sub.trans rfl hp) (Sub.trans rfl hr) ?_ ?_
    | with_reducible refine Only.ite ?_ ?_
    | intro _
    | (extract_lets +onlyGivenNames y; first | (refine Only.cut (x := y) ?_ ?_; subst y; rotate_left; clear_value y; intro _) | clear_value y)
    | split
    | dsimp only

theorem execTlSatTime_only {p r : Nat} {s : State} {a0 : _} (hp : Sub 2151679000 p) (hr : Sub 0xe060000000000000000000000000000000000000000000000000000000000000000000000000000000000000000000000000000000000000000000000000000000000000000000000000000000000000000000000000000000000000000000000000000000000000000000000000000000000000000000000000000000000000000000000000000000000000000000000000000000000001020000000000000000000000000000000000000000000000000000000000000000000000000000000000000000000000000000000000000000000000000000000000000000000000000 r) :
    ∃ t, execTlSatTime a0 s = .next t ∧ Only p r s t := by
  unfold execTlSatTime
  refine ⟨_, rfl, ?_⟩
  have h : Only p r s s := Only.refl
  repeat' first
    | with_reducible assumption
    | with_reducible refine State.satTime_only (Sub.trans rfl hp) (Sub.trans rfl hr) ?_

theorem State.measureRun_only {p r : Nat} {s x : State} {a1 : _} (hp : Sub 2151677976 p) (hr : Sub 0xe060000000000000000000000000000000000000000000000000000000000000000000000000000000000000000000000000000000000000000000000000000000000000000000000000000000000000000000000000000000000000000000000000000000000000000000000000000000000000000000000000000000000000000000000000000000000000000000000000000000000000000000000000000068000000000000000000000000000000000000000000000000000000000000000000000000000000000000000000000000000000000000000000000000000000000 r) (h : Only p r s x) :
    Only p r s (State.measureRun x a1) := by
  unfold State.measureRun
  repeat' first
    | with_reducible assumption
    | with_reducible refine Only.set 521 R.TL_RUN_RUN_LAST_num (Sub.bits hr rfl) ?_
    | with_reducible refine Only.raiseTo 522 R.TL_RUN_RUN_MAX_num (Sub.bits hr rfl) ?_
    | with_reducible refine State.raiseBit_only 519 R.TL_STAT_OVERRUN_num (Sub.bits hr rfl) (Sub.trans rfl hp) (Sub.trans rfl hr) ?_
    | with_reducible refine State.post_only (Sub.trans rfl hp) (Sub.trans rfl hr) ?_
    | with_reducible refine State.fault_only (Sub.trans rfl hp) (Sub.trans rfl hr) ?_
    | with_reducible refine State.detect_only (Sub.trans rfl hp) (Sub.trans rfl hr) ?_ ?_
    | intro _
    | (extract_lets +onlyGivenNames y; first | (refine Only.cut (x := y) ?_ ?_; subst y; rotate_left; clear_value y; intro _) | clear_value y)
    | dsimp only

theorem State.tlEnd_only {p r : Nat} {s x : State} {a1 : _} (hp : Sub 2151724184 p) (hr : Sub 0xe060000000000000000000000000000000000000000000000000000000000000000000000000000000000000000000000000000000000000000000000000000000000000000000000000000000000000000000000000000000000000003c00000060000000000000000000000000000000000000000000000000000048100800000000000000000000000000000000000000000000000000615e00000000000069000000000000000000000000000000000000000000000000000000000000000000000000000000000000000000000000000000000000000000000000000000000 r) (h : Only p r s x) :
    Only p r s (State.tlEnd x a1) := by
  unfold State.tlEnd
  repeat' first
    | with_reducible assumption
    | with_reducible refine State.lostEntry_only (Sub.trans rfl hp) (Sub.trans rfl hr) ?_
    | with_reducible refine State.windup_only (Sub.trans rfl hp) (Sub.trans rfl hr) ?_
    | with_reducible refine State.outputGate_only (Sub.trans rfl hp) (Sub.trans rfl hr) ?_
    | with_reducible refine State.satAccount_only (Sub.trans rfl hp) (Sub.trans rfl hr) ?_
    | with_reducible refine State.selectRegion_only (Sub.trans rfl hp) (Sub.trans rfl hr) ?_
    | with_reducible refine State.measureRun_only (Sub.trans rfl hp) (Sub.trans rfl hr) ?_
    | with_reducible refine State.storeReact_only (Sub.trans rfl hp) (Sub.trans rfl hr) ?_
    | with_reducible refine State.holdTest_only (Sub.trans rfl hp) (Sub.trans rfl hr) ?_
    | with_reducible refine State.finishRun_only (Sub.trans rfl hp) (Sub.trans rfl hr) ?_
    | with_reducible refine Only.ite ?_ ?_
    | (extract_lets +onlyGivenNames y; first | (refine Only.cut (x := y) ?_ ?_; subst y; rotate_left; clear_value y; intro _) | clear_value y)
    | split
    | dsimp only

theorem execArmServoReset_only {p r : Nat} {s : State} {a0 : _} (hp : Sub 34211976 p) (hr : Sub 0x38080300000000000000000000000000000000000000000000000000000000000000000000000000000000000000000000000000000000000000000000000000000000000000000000000000000000000000000000000000000000000000000000000000000000000000000000000000000000000000000000000000000000000000000000000000000000000000000000000000000000000000000000000000000000 r) :
    ∃ t, execArmServoReset a0 s = .next t ∧ Only p r s t := by
  unfold execArmServoReset
  refine ⟨_, rfl, ?_⟩
  have h : Only p r s s := Only.refl
  repeat' first
    | with_reducible assumption
    | with_reducible refine State.doServo_only (Sub.trans rfl hp) (Sub.trans rfl hr) ?_
    | with_reducible refine State.opAction_only (Sub.trans rfl hp) (Sub.trans rfl hr) ?_ ?_
    | intro _

theorem execSs1TimeoutExpiry_only {p r : Nat} {s : State} {a0 : _} (hp : Sub 16930824 p) (hr : Sub 0xfc000000000000000000000000000000000000000000000000000000000000000000000000000000000000000000000000000000000000000000000000000000000000000000000000000000000000000000038080300000000000000000000000000000000000000000000000000000000000000000000000000000000000000000000000000000000000000000000000000000000000000000000000009fe007ffb0000000000000000000204000000000000000000000000000000000000000000000000000000000000000000000000000000000000000000000000000000000000000000000000000000000000000000000000 r) :
    ∃ t, execSs1TimeoutExpiry a0 s = .next t ∧ Only p r s t := by
  unfold execSs1TimeoutExpiry
  refine ⟨_, rfl, ?_⟩
  have h : Only p r s s := Only.refl
  repeat' first
    | with_reducible assumption
    | with_reducible refine State.ss1Expiry_only (Sub.trans rfl hp) (Sub.trans rfl hr) ?_

end Sys2Proof.Machine
end

