-- ==== Sys2Proof/Laws/OnlyLaunch.lean ====
section
/-! SUPPORT. Footprints of the operations of Machine/Launch.lean. -/
namespace Sys2Proof.Machine
set_option linter.all false
set_option Elab.async false

theorem State.refLaunch_only {p r : Nat} {s x : State} {a1 : _} (hp : Sub 4194568 p) (hr : Sub 0xe06000000000000000000000000000000000000000000000000000000000000000000000000000000000000000000000000000000000000000000000000000000000000000000000000000000000000000000000000000000000000000000000000000000000000000000000000000000000000000000000000000000000000000000000000000000000000000000000000000000000000000000000000000000000000000000000000000000000000000000000000000000000000005f800000000000000000000000000000000000000000000000000000000000000000000000 r) (h : Only p r s x) :
    Only p r s (State.refLaunch x a1) := by
  unfold State.refLaunch
  repeat' first
    | with_reducible assumption
    | with_reducible refine State.launch_only (Sub.trans rfl hp) (Sub.trans rfl hr) ?_
    | with_reducible refine State.updPort_only (Sub.trans rfl hp) (Sub.trans rfl hr) ?_
    | with_reducible refine Only.ite ?_ ?_
    | intro _
    | (extract_lets +onlyGivenNames y; first | (refine Only.cut (x := y) ?_ ?_; subst y; rotate_left; clear_value y; intro _) | clear_value y)
    | split
    | dsimp only

theorem execReferenceLaunch_only {p r : Nat} {s : State} {a0 : _} (hp : Sub 4194568 p) (hr : Sub 0xe06000000000000000000000000000000000000000000000000000000000000000000000000000000000000000000000000000000000000000000000000000000000000000000000000000000000000000000000000000000000000000000000000000000000000000000000000000000000000000000000000000000000000000000000000000000000000000000000000000000000000000000000000000000000000000000000000000000000000000000000000000000000000005f800000000000000000000000000000000000000000000000000000000000000000000000 r) :
    ∃ t, execReferenceLaunch a0 s = .next t ∧ Only p r s t := by
  unfold execReferenceLaunch
  refine ⟨_, rfl, ?_⟩
  have h : Only p r s s := Only.refl
  repeat' first
    | with_reducible assumption
    | with_reducible refine State.refLaunch_only (Sub.trans rfl hp) (Sub.trans rfl hr) ?_

theorem State.slotEnd_only {p r : Nat} {s x : State} {a1 a2 : _} (hp : Sub 256 p) (hr : Sub 0xfc000000000000000000000000000000000000000000000000000000000000000000000000000000000000 r) (h : Only p r s x) :
    Only p r s (State.slotEnd x a1 a2) := by
  unfold State.slotEnd
  repeat' first
    | with_reducible assumption
    | with_reducible refine Only.set 339 R.CB_SLOT_ARR_CLASS_num (Sub.bits hr rfl) ?_
    | with_reducible refine Only.setBit 342 R.CB_SLOT_STAT_MISSING_num (Sub.bits hr rfl) ?_
    | with_reducible refine State.showFresh_only (Sub.trans rfl hp) (Sub.trans rfl hr) ?_
    | with_reducible refine State.updSlot_only (Sub.trans rfl hp) (Sub.trans rfl hr) ?_
    | with_reducible refine State.showSlot_only (Sub.trans rfl hp) (Sub.trans rfl hr) ?_
    | with_reducible refine Only.ite ?_ ?_
    | intro _
    | (extract_lets +onlyGivenNames y; first | (refine Only.cut (x := y) ?_ ?_; subst y; rotate_left; clear_value y; intro _) | clear_value y)
    | split
    | dsimp only

theorem State.forgetRefs_only {p r : Nat} {s x : State} (hp : Sub 256 p) (hr : Sub 0 r) (h : Only p r s x) :
    Only p r s (State.forgetRefs x) := by
  unfold State.forgetRefs
  repeat' first
    | with_reducible assumption
    | with_reducible refine State.updPort_only (Sub.trans rfl hp) (Sub.trans rfl hr) ?_
    | with_reducible refine Only.foldl ?_ ?_
    | intro _
    | (extract_lets +onlyGivenNames y; first | (refine Only.cut (x := y) ?_ ?_; subst y; rotate_left; clear_value y; intro _) | clear_value y)
    | dsimp only

theorem State.busWindow_only {p r : Nat} {s x : State} (hp : Sub 256 p) (hr : Sub 0x20000000000000000000000000000000000000000000000000000000000000000000000000000000000000000 r) (h : Only p r s x) :
    Only p r s (State.busWindow x) := by
  unfold State.busWindow
  repeat' first
    | with_reducible assumption
    | with_reducible refine Only.set 353 R.CB_PS_WIN_EDGE_WIN_num (Sub.bits hr rfl) ?_
    | with_reducible refine State.updPart_only (Sub.trans rfl hp) (Sub.trans rfl hr) ?_
    | with_reducible refine Only.foldl ?_ ?_
    | intro _
    | (extract_lets +onlyGivenNames y; first | (refine Only.cut (x := y) ?_ ?_; subst y; rotate_left; clear_value y; intro _) | clear_value y)
    | dsimp only

theorem State.sendSlot_only {p r : Nat} {s x : State} {a1 a2 a3 : _} (hp : Sub 4194568 p) (hr : Sub 0xe06000000000000000000000000000000000000000000000000000000000000000000000000000000000000000000000000000000000000000000000000000000000000000000000000000000000000000000000000000000000000000000000000000000000000000000000000000000000000000000000000000000000000000000000000000000000000000000000000000000000000000000000000000000000000000000000000000000000000000000000000000000000000005f800000000000000000000000000000000000000000000000000000000000000000000000 r) (h : Only p r s x) :
    Only p r s (State.sendSlot x a1 a2 a3) := by
  unfold State.sendSlot
  repeat' first
    | with_reducible assumption
    | with_reducible refine State.launch_only (Sub.trans rfl hp) (Sub.trans rfl hr) ?_
    | with_reducible refine State.updSlot_only (Sub.trans rfl hp) (Sub.trans rfl hr) ?_
    | intro _
    | (extract_lets +onlyGivenNames y; first | (refine Only.cut (x := y) ?_ ?_; subst y; rotate_left; clear_value y; intro _) | clear_value y)
    | split
    | dsimp only

theorem State.partnerConf_only {p r : Nat} {s x : State} {a1 : _} (_hp : Sub 0 p) (hr : Sub 0x20000000000000000000000000000000000000000000000000000000000000000000000000000 r) (h : Only p r s x) :
    Only p r s (State.partnerConf x a1) := by
  unfold State.partnerConf
  repeat' first
    | with_reducible assumption
    | with_reducible refine Only.set 305 R.CB_PT_STATE_STATE_num (Sub.bits hr rfl) ?_
    | with_reducible refine Only.ite ?_ ?_
    | split

theorem State.acyDone_only {p r : Nat} {s x : State} {a1 a2 : _} (hp : Sub 131336 p) (hr : Sub 0x38080300000000000000000000000000000000000000000000000000000000000000000000000000000000000000000000000000000000000000000000000000000000000000000000000000000000000000000000000000000000000000000000000000000000000000000000000000000000000000000000000000000000000000000000000000000000000000000000000000000000000000000000000000000000 r) (h : Only p r s x) :
    Only p r s (State.acyDone x a1 a2) := by
  unfold State.acyDone
  repeat' first
    | with_reducible assumption
    | with_reducible refine State.updPart_only (Sub.trans rfl hp) (Sub.trans rfl hr) ?_
    | with_reducible refine State.updPort_only (Sub.trans rfl hp) (Sub.trans rfl hr) ?_
    | with_reducible refine State.complete3_only (Sub.trans rfl hp) (Sub.trans rfl hr) ?_
    | intro _
    | (extract_lets +onlyGivenNames y; first | (refine Only.cut (x := y) ?_ ?_; subst y; rotate_left; clear_value y; intro _) | clear_value y)
    | split
    | dsimp only

theorem State.acyclicLaunch_only {p r : Nat} {s x : State} {a1 : _} (hp : Sub 4325640 p) (hr : Sub 0xe06000000000000000000000000000000000000000000000000000000000000000000000000000000000000000000000000000000000000000000000000003808030000000000000000000000000000000000000000000000000000000000000000000000000000000000000000000000000000000000000000000000000000000000000000000000000000000000000000000000000000000000000000000000000000000000000000000000000000000000000000000000000000005f800000000000000000000000000000000000000000000000000000000000000000000000 r) (h : Only p r s x) :
    Only p r s (State.acyclicLaunch x a1) := by
  unfold State.acyclicLaunch
  repeat' first
    | with_reducible assumption
    | with_reducible refine State.launch_only (Sub.trans rfl hp) (Sub.trans rfl hr) ?_
    | with_reducible refine State.updPort_only (Sub.trans rfl hp) (Sub.trans rfl hr) ?_
    | with_reducible refine State.acyDone_only (Sub.trans rfl hp) (Sub.trans rfl hr) ?_
    | with_reducible refine Only.ite ?_ ?_
    | intro _
    | (extract_lets +onlyGivenNames y; first | (refine Only.cut (x := y) ?_ ?_; subst y; rotate_left; clear_value y; intro _) | clear_value y)
    | split
    | dsimp only

theorem State.busEnd_only {p r : Nat} {s x : State} {a1 : _} (hp : Sub 256 p) (hr : Sub 0xfc000000000000000000000000000000000000000000000000000000000000000000000000000000000000 r) (h : Only p r s x) :
    Only p r s (State.busEnd x a1) := by
  unfold State.busEnd
  repeat' first
    | with_reducible assumption
    | with_reducible refine State.slotEnd_only (Sub.trans rfl hp) (Sub.trans rfl hr) ?_
    | with_reducible refine Only.ite ?_ ?_
    | with_reducible refine Only.foldl ?_ ?_
    | intro _
    | (extract_lets +onlyGivenNames y; first | (refine Only.cut (x := y) ?_ ?_; subst y; rotate_left; clear_value y; intro _) | clear_value y)
    | split
    | dsimp only
    | (first | (with_reducible refine Only.upd_cb (Sub.bits hp rfl) ?_; first | with_reducible assumption | with_reducible refine State.slotEnd_only (Sub.trans rfl hp) (Sub.trans rfl hr) ?_))

theorem execAcyclicLaunch_only {p r : Nat} {s : State} {a0 : _} (hp : Sub 4325640 p) (hr : Sub 0xe06000000000000000000000000000000000000000000000000000000000000000000000000000000000000000000000000000000000000000000000000003808030000000000000000000000000000000000000000000000000000000000000000000000000000000000000000000000000000000000000000000000000000000000000000000000000000000000000000000000000000000000000000000000000000000000000000000000000000000000000000000000000000005f800000000000000000000000000000000000000000000000000000000000000000000000 r) :
    ∃ t, execAcyclicLaunch a0 s = .next t ∧ Only p r s t := by
  unfold execAcyclicLaunch
  refine ⟨_, rfl, ?_⟩
  have h : Only p r s s := Only.refl
  repeat' first
    | with_reducible assumption
    | with_reducible refine State.acyclicLaunch_only (Sub.trans rfl hp) (Sub.trans rfl hr) ?_

theorem State.txLate_only {p r : Nat} {s x : State} {a1 a2 : _} (hp : Sub 24 p) (hr : Sub 0x400000000000000000000000000000000000000000000000000000000000000000000000000000000000000000 r) (h : Only p r s x) :
    Only p r s (State.txLate x a1 a2) := by
  unfold State.txLate
  repeat' first
    | with_reducible assumption
    | with_reducible refine Only.inc 358 R.CB_PS_MISS_TX_LATE_num (Sub.bits hr rfl) ?_
    | with_reducible refine State.post_only (Sub.trans rfl hp) (Sub.trans rfl hr) ?_
    | with_reducible refine State.fault_only (Sub.trans rfl hp) (Sub.trans rfl hr) ?_
    | with_reducible refine Only.ite ?_ ?_
    | intro _
    | (extract_lets +onlyGivenNames y; first | (refine Only.cut (x := y) ?_ ?_; subst y; rotate_left; clear_value y; intro _) | clear_value y)
    | split
    | dsimp only

theorem State.activate_only {p r : Nat} {s x : State} {a1 : _} (hp : Sub 256 p) (hr : Sub 0x20000000000000000000000000000000000000000000000000000000000000000000000000000 r) (h : Only p r s x) :
    Only p r s (State.activate x a1) := by
  unfold State.activate
  repeat' first
    | with_reducible assumption
    | with_reducible refine Only.set 305 R.CB_PT_STATE_STATE_num (Sub.bits hr rfl) ?_
    | with_reducible refine State.updPart_only (Sub.trans rfl hp) (Sub.trans rfl hr) ?_
    | with_reducible refine State.updSlot_only (Sub.trans rfl hp) (Sub.trans rfl hr) ?_
    | with_reducible refine Only.ite ?_ ?_
    | with_reducible refine Only.foldl ?_ ?_
    | intro _
    | (extract_lets +onlyGivenNames y; first | (refine Only.cut (x := y) ?_ ?_; subst y; rotate_left; clear_value y; intro _) | clear_value y)
    | split
    | dsimp only

theorem State.busStart_only {p r : Nat} {s x : State} (hp : Sub 256 p) (hr : Sub 0 r) (h : Only p r s x) :
    Only p r s (State.busStart x) := by
  unfold State.busStart
  repeat' first
    | with_reducible assumption
    | with_reducible refine State.updPort_only (Sub.trans rfl hp) (Sub.trans rfl hr) ?_
    | with_reducible refine State.updPart_only (Sub.trans rfl hp) (Sub.trans rfl hr) ?_
    | with_reducible refine Only.ite ?_ ?_
    | with_reducible refine Only.foldl ?_ ?_
    | intro _
    | (extract_lets +onlyGivenNames y; first | (refine Only.cut (x := y) ?_ ?_; subst y; rotate_left; clear_value y; intro _) | clear_value y)
    | split
    | dsimp only

theorem State.busEnable_only {p r : Nat} {s x : State} (hp : Sub 256 p) (hr : Sub 0x60000000000000000000000000000000000000000000000000000000000000000000000000000 r) (h : Only p r s x) :
    Only p r s (State.busEnable x) := by
  unfold State.busEnable
  repeat' first
    | with_reducible assumption
    | with_reducible refine State.forgetRefs_only (Sub.trans rfl hp) (Sub.trans rfl hr) ?_
    | with_reducible refine State.updSlot_only (Sub.trans rfl hp) (Sub.trans rfl hr) ?_
    | with_reducible refine Only.set 305 R.CB_PT_STATE_STATE_num (Sub.bits hr rfl) ?_
    | with_reducible refine Only.set 306 R.CB_PT_STATE_QCAUSE_num (Sub.bits hr rfl) ?_
    | with_reducible refine State.updPart_only (Sub.trans rfl hp) (Sub.trans rfl hr) ?_
    | with_reducible refine Only.foldl ?_ ?_
    | intro _
    | (extract_lets +onlyGivenNames y; first | (refine Only.cut (x := y) ?_ ?_; subst y; rotate_left; clear_value y; intro _) | clear_value y)
    | dsimp only
    | (first | (with_reducible refine Only.upd_cb (Sub.bits hp rfl) ?_; first | with_reducible assumption | with_reducible refine State.forgetRefs_only (Sub.trans rfl hp) (Sub.trans rfl hr) ?_ | with_reducible refine State.updSlot_only (Sub.trans rfl hp) (Sub.trans rfl hr) ?_ | with_reducible refine Only.set 305 R.CB_PT_STATE_STATE_num (Sub.bits hr rfl) ?_ | with_reducible refine Only.set 306 R.CB_PT_STATE_QCAUSE_num (Sub.bits hr rfl) ?_ | with_reducible refine State.updPart_only (Sub.trans rfl hp) (Sub.trans rfl hr) ?_))

theorem State.joinTimeout_only {p r : Nat} {s x : State} {a1 : _} (hp : Sub 4194568 p) (hr : Sub 0xe060000000000000000000000000000000000000000000000000000000000000000000000000000000000000000000000000000000000000000000000000000000000000000000000000000000000000000000000000000000000000000000000000000000000000000000000000000000000000000000000000000000000000000000000000000000000000000000000000000000000000000000000000000000000000000000000000000000000000000000000000000000000000000000000000000000000000000000000000000000000000000000000000000000000000000 r) (h : Only p r s x) :
    Only p r s (State.joinTimeout x a1) := by
  unfold State.joinTimeout
  repeat' first
    | with_reducible assumption
    | with_reducible refine State.post_only (Sub.trans rfl hp) (Sub.trans rfl hr) ?_
    | with_reducible refine State.updPart_only (Sub.trans rfl hp) (Sub.trans rfl hr) ?_
    | with_reducible refine State.detect_only (Sub.trans rfl hp) (Sub.trans rfl hr) ?_ ?_
    | with_reducible refine Only.ite ?_ ?_
    | intro _
    | (extract_lets +onlyGivenNames y; first | (refine Only.cut (x := y) ?_ ?_; subst y; rotate_left; clear_value y; intro _) | clear_value y)
    | split
    | dsimp only

theorem State.slotLaunch_only {p r : Nat} {s x : State} {a1 : _} (hp : Sub 4194584 p) (hr : Sub 0xe06000000000000000000000000000000000000000000000000000000000000000000000000000000000000000000000000000000000000000000000000000000000000000000000000000000000000000000000000000000000000000000000000000000000000000000000000000000000000000000000000000000000000000000000000000000000000000000000000000000000000000000000000000000000000000000000000000000000000000000000040000000000000005f800000000000000000000000000000000000000000000000000000000000000000000000 r) (h : Only p r s x) :
    Only p r s (State.slotLaunch x a1) := by
  unfold State.slotLaunch
  repeat' first
    | with_reducible assumption
    | with_reducible refine State.updSlot_only (Sub.trans rfl hp) (Sub.trans rfl hr) ?_
    | with_reducible refine State.sendSlot_only (Sub.trans rfl hp) (Sub.trans rfl hr) ?_
    | with_reducible refine Only.snd (q := (State.inject _ _ _)) (by assumption) (State.inject_only (Sub.trans rfl hp) (Sub.trans rfl hr) ?_)
    | with_reducible refine State.inject_only (Sub.trans rfl hp) (Sub.trans rfl hr) ?_
    | with_reducible refine State.txLate_only (Sub.trans rfl hp) (Sub.trans rfl hr) ?_
    | with_reducible refine Only.ite ?_ ?_
    | intro _
    | (extract_lets +onlyGivenNames y; first | (refine Only.cut (x := y) ?_ ?_; subst y; rotate_left; clear_value y; intro _) | (refine Only.cut (x := y.1) ?_ ?_; subst y; rotate_left; clear_value y; intro _) | (refine Only.cut (x := y.2) ?_ ?_; subst y; rotate_left; clear_value y; intro _) | (refine Only.cut (x := y.2.2) ?_ ?_; subst y; rotate_left; clear_value y; intro _) | clear_value y)
    | split
    | dsimp only

theorem State.acycEnd_only {p r : Nat} {s x : State} {a1 : _} (hp : Sub 256 p) (hr : Sub 0 r) (h : Only p r s x) :
    Only p r s (State.acycEnd x a1) := by
  unfold State.acycEnd
  repeat' first
    | with_reducible assumption
    | with_reducible refine State.updPart_only (Sub.trans rfl hp) (Sub.trans rfl hr) ?_
    | with_reducible refine Only.ite ?_ ?_
    | with_reducible refine Only.foldl ?_ ?_
    | intro _
    | (extract_lets +onlyGivenNames y; first | (refine Only.cut (x := y) ?_ ?_; subst y; rotate_left; clear_value y; intro _) | clear_value y)
    | split
    | dsimp only

theorem execPartnerActivate_only {p r : Nat} {s : State} {a0 : _} (hp : Sub 256 p) (hr : Sub 0x20000000000000000000000000000000000000000000000000000000000000000000000000000 r) :
    ∃ t, execPartnerActivate a0 s = .next t ∧ Only p r s t := by
  unfold execPartnerActivate
  refine ⟨_, rfl, ?_⟩
  have h : Only p r s s := Only.refl
  repeat' first
    | with_reducible assumption
    | with_reducible refine State.activate_only (Sub.trans rfl hp) (Sub.trans rfl hr) ?_

theorem State.busDisable_only {p r : Nat} {s x : State} (hp : Sub 256 p) (hr : Sub 0x2000000000060000000000000000000000000000000000000000000000000000000000000000000000000000 r) (h : Only p r s x) :
    Only p r s (State.busDisable x) := by
  unfold State.busDisable
  repeat' first
    | with_reducible assumption
    | with_reducible refine Only.set 305 R.CB_PT_STATE_STATE_num (Sub.bits hr rfl) ?_
    | with_reducible refine Only.set 306 R.CB_PT_STATE_QCAUSE_num (Sub.bits hr rfl) ?_
    | with_reducible refine Only.set 349 R.CB_PS_SYNC_SYNC_MODE_num (Sub.bits hr rfl) ?_
    | with_reducible refine State.updPart_only (Sub.trans rfl hp) (Sub.trans rfl hr) ?_
    | with_reducible refine State.forgetRefs_only (Sub.trans rfl hp) (Sub.trans rfl hr) ?_
    | with_reducible refine Only.foldl ?_ ?_
    | intro _
    | dsimp only

theorem execSlotLaunch_only {p r : Nat} {s : State} {a0 : _} (hp : Sub 4194584 p) (hr : Sub 0xe06000000000000000000000000000000000000000000000000000000000000000000000000000000000000000000000000000000000000000000000000000000000000000000000000000000000000000000000000000000000000000000000000000000000000000000000000000000000000000000000000000000000000000000000000000000000000000000000000000000000000000000000000000000000000000000000000000000000000000000000040000000000000005f800000000000000000000000000000000000000000000000000000000000000000000000 r) :
    ∃ t, execSlotLaunch a0 s = .next t ∧ Only p r s t := by
  unfold execSlotLaunch
  refine ⟨_, rfl, ?_⟩
  have h : Only p r s s := Only.refl
  repeat' first
    | with_reducible assumption
    | with_reducible refine State.slotLaunch_only (Sub.trans rfl hp) (Sub.trans rfl hr) ?_

theorem execAcycWindowEnd_only {p r : Nat} {s : State} {a0 : _} (hp : Sub 256 p) (hr : Sub 0 r) :
    ∃ t, execAcycWindowEnd a0 s = .next t ∧ Only p r s t := by
  unfold execAcycWindowEnd
  refine ⟨_, rfl, ?_⟩
  have h : Only p r s s := Only.refl
  repeat' first
    | with_reducible assumption
    | with_reducible refine State.acycEnd_only (Sub.trans rfl hp) (Sub.trans rfl hr) ?_

theorem execCbJoinTimeout_only {p r : Nat} {s : State} {a0 : _} (hp : Sub 4194568 p) (hr : Sub 0xe060000000000000000000000000000000000000000000000000000000000000000000000000000000000000000000000000000000000000000000000000000000000000000000000000000000000000000000000000000000000000000000000000000000000000000000000000000000000000000000000000000000000000000000000000000000000000000000000000000000000000000000000000000000000000000000000000000000000000000000000000000000000000000000000000000000000000000000000000000000000000000000000000000000000000000 r) :
    ∃ t, execCbJoinTimeout a0 s = .next t ∧ Only p r s t := by
  unfold execCbJoinTimeout
  refine ⟨_, rfl, ?_⟩
  have h : Only p r s s := Only.refl
  repeat' first
    | with_reducible assumption
    | with_reducible refine State.joinTimeout_only (Sub.trans rfl hp) (Sub.trans rfl hr) ?_

end Sys2Proof.Machine
end

