-- ==== Sys2Proof/Laws/OnlyMoveEngine.lean ====
section
/-! SUPPORT. Footprints of the operations of Machine/MoveEngine.lean. -/
namespace Sys2Proof.Machine
set_option linter.all false
set_option Elab.async false

theorem State.meNoSample_only {p r : Nat} {s x : State} {a1 a2 : _} (hp : Sub 512 p) (hr : Sub 0 r) (h : Only p r s x) :
    Only p r s (State.meNoSample x a1 a2) := by
  unfold State.meNoSample
  repeat' first
    | with_reducible assumption
    | with_reducible refine State.fbPend_only (Sub.trans rfl hp) (Sub.trans rfl hr) ?_
    | with_reducible refine Only.ite ?_ ?_
    | (extract_lets +onlyGivenNames y; first | (refine Only.cut (x := y) ?_ ?_; subst y; rotate_left; clear_value y; intro _) | clear_value y)
    | split
    | dsimp only

theorem State.updMe_only {p r : Nat} {s x : State} {a1 a2 : _} (hp : Sub 65536 p) (_hr : Sub 0 r) (h : Only p r s x) :
    Only p r s (State.updMe x a1 a2) := by
  unfold State.updMe
  repeat' first
    | with_reducible assumption
    | intro _
    | (extract_lets +onlyGivenNames y; first | (refine Only.cut (x := y) ?_ ?_; subst y; rotate_left; clear_value y; intro _) | clear_value y)
    | dsimp only
    | (first | (with_reducible refine Only.upd_me (Sub.bits hp rfl) ?_; first | with_reducible assumption))

theorem State.meGoto_only {p r : Nat} {s x : State} {a1 a2 : _} (_hp : Sub 0 p) (hr : Sub 0x40000000000000000000000000000000000000000000000000000000000000000000000000000000000000000000000000000000000000000000000000000000000000000000000000000000000000000000000000000000000000000000000000000000000000000000000000000000000000000000000000000000000000000000000000000000000000000000000000 r) (h : Only p r s x) :
    Only p r s (State.meGoto x a1 a2) := by
  unfold State.meGoto
  repeat' first
    | with_reducible assumption
    | with_reducible refine Only.set 1158 R.ME_STATE_IADDR_num (Sub.bits hr rfl) ?_

theorem State.moveSkip_only {p r : Nat} {s x : State} {a1 a2 a3 : _} (hp : Sub 66048 p) (hr : Sub 0x40000000000000000000000000000000000000000000000000000000000000000000000000000000000000000000000000000000000000000000000000000000000000000000000000000000000000000000000000000000000000000000000000000000000000000000000000000000000000000000000000000000000000000000000000000000000000000000000000 r) (h : Only p r s x) :
    Only p r s (State.moveSkip x a1 a2 a3) := by
  unfold State.moveSkip
  repeat' first
    | with_reducible assumption
    | with_reducible refine State.meNoSample_only (Sub.trans rfl hp) (Sub.trans rfl hr) ?_
    | with_reducible refine State.updMe_only (Sub.trans rfl hp) (Sub.trans rfl hr) ?_
    | with_reducible refine State.meGoto_only (Sub.trans rfl hp) (Sub.trans rfl hr) ?_
    | with_reducible refine Only.foldl ?_ ?_
    | intro _
    | (extract_lets +onlyGivenNames y; first | (refine Only.cut (x := y) ?_ ?_; subst y; rotate_left; clear_value y; intro _) | clear_value y)
    | dsimp only

theorem State.moveEnd_only {p r : Nat} {s x : State} {a1 a2 : _} (hp : Sub 65536 p) (hr : Sub 0x40000000000000000000000000000000000000000000000000000000000000000000000000000000000000000000000000000000000000000000000000000000000000000000000000000000000000000000000000000000000000000000000000000000000000000000000000000000000000000000000000000000000000000000000000000000000000000000000000 r) (h : Only p r s x) :
    Only p r s (State.moveEnd x a1 a2) := by
  unfold State.moveEnd
  repeat' first
    | with_reducible assumption
    | with_reducible refine State.updMe_only (Sub.trans rfl hp) (Sub.trans rfl hr) ?_
    | with_reducible refine State.meGoto_only (Sub.trans rfl hp) (Sub.trans rfl hr) ?_
    | intro _
    | (extract_lets +onlyGivenNames y; first | (refine Only.cut (x := y) ?_ ?_; subst y; rotate_left; clear_value y; intro _) | clear_value y)
    | dsimp only

theorem State.moveHold_only {p r : Nat} {s x : State} {a1 a2 a3 a4 : _} (hp : Sub 65536 p) (hr : Sub 0 r) (h : Only p r s x) :
    Only p r s (State.moveHold x a1 a2 a3 a4) := by
  unfold State.moveHold
  repeat' first
    | with_reducible assumption
    | with_reducible refine State.updMe_only (Sub.trans rfl hp) (Sub.trans rfl hr) ?_
    | intro _
    | (extract_lets +onlyGivenNames y; first | (refine Only.cut (x := y) ?_ ?_; subst y; rotate_left; clear_value y; intro _) | clear_value y)
    | dsimp only

theorem State.meInject_only {p r : Nat} {s x : State} {a1 a2 a3 : _} (hp : Sub 4194312 p) (hr : Sub 0xe060000000000000000000000000000000000000000000000000000000000000000000000000000000000000000000000000000000000000000000000000000000000000000000000000000000000000000000000000000000000000000000000000000000000000000000000000000000000000000000000000000000000000000000000000000000000000000000000000000000000000000000000000000000000000000000000000000000000000000000000000000000000000000000000000000000000000000000000000000000000000000000000000000000000000000 r) (h : Only p r s x) :
    Only p r s (State.meInject x a1 a2 a3).2 := by
  unfold State.meInject
  repeat' first
    | with_reducible assumption
    | with_reducible refine State.injFire_only (Sub.trans rfl hp) (Sub.trans rfl hr) ?_
    | intro _
    | (extract_lets +onlyGivenNames y; first | (refine Only.cut (x := y) ?_ ?_; subst y; rotate_left; clear_value y; intro _) | (refine Only.cut (x := y.1) ?_ ?_; subst y; rotate_left; clear_value y; intro _) | (refine Only.cut (x := y.2) ?_ ?_; subst y; rotate_left; clear_value y; intro _) | (refine Only.cut (x := y.2.2) ?_ ?_; subst y; rotate_left; clear_value y; intro _) | clear_value y)
    | split
    | dsimp only

theorem State.meEcc_only {p r : Nat} {s x : State} {a1 a2 : _} (hp : Sub 4433642648 p) (hr : Sub 0xe060000000000000000000000000000000000000000000000000000000000000000000000000000000000000000000000000000000000000000000000000000000000000000000000000000000000000000000000000000000000000000000000000000000000000000000000000000000000000000000000000000000000000000000000000000000000000000000000000000000000000000000000000000100000000000000000000000000000000000000000000000000000000000000000000000000000000000000000000000000000000000000000000000000000000000 r) (h : Only p r s x) :
    Only p r s (State.meEcc x a1 a2).2 := by
  unfold State.meEcc
  repeat' first
    | with_reducible assumption
    | with_reducible refine Only.snd (q := (State.granaryRead _ _)) (by assumption) (State.granaryRead_only (Sub.trans rfl hp) (Sub.trans rfl hr) ?_)
    | with_reducible refine State.granaryRead_only (Sub.trans rfl hp) (Sub.trans rfl hr) ?_
    | with_reducible refine Only.snd (q := (State.tillerRead _ _ _ _)) (by assumption) (State.tillerRead_only (Sub.trans rfl hp) (Sub.trans rfl hr) ?_)
    | with_reducible refine State.tillerRead_only (Sub.trans rfl hp) (Sub.trans rfl hr) ?_
    | with_reducible refine Only.foldl ?_ ?_
    | with_reducible refine Only.foldl_fst ?_ ?_
    | with_reducible refine Only.foldl_snd ?_ ?_
    | intro _
    | (extract_lets +onlyGivenNames y; first | (refine Only.cut (x := y) ?_ ?_; subst y; rotate_left; clear_value y; intro _) | (refine Only.cut (x := y.1) ?_ ?_; subst y; rotate_left; clear_value y; intro _) | (refine Only.cut (x := y.2) ?_ ?_; subst y; rotate_left; clear_value y; intro _) | (refine Only.cut (x := y.2.2) ?_ ?_; subst y; rotate_left; clear_value y; intro _) | clear_value y)
    | split
    | dsimp only

theorem State.unitEcc_only {p r : Nat} {s x : State} {a1 a2 a3 : _} (hp : Sub 4433642648 p) (hr : Sub 0xe060000000000000000000000000000000000000000000000000000000000000000000000000000000000000000000000000000000000000000000000000000000000000000000000000000000000000000000000000000000000000000000000000000000000000000000000000000000000000000000000000000000000000000000000000000000000000000000000000000000000000000000000000000100000000000000000000000000000000000000000000000000000000000000000000000000000000000000000000000000000000000000000000000000000000000 r) (h : Only p r s x) :
    Only p r s (State.unitEcc x a1 a2 a3).2 := by
  induction a2 generalizing x a3 with
  | nil => exact h
  | cons a l ih =>
    have k : Only p r s (x.meEcc a a1).2 := State.meEcc_only (Sub.trans rfl hp) (Sub.trans rfl hr) h
    unfold State.unitEcc
    split
    · next e => rw [e] at k; exact k
    · next e => rw [e] at k; exact ih k

theorem State.xBytes_only {p r : Nat} {s x : State} {a1 a2 a3 a4 a5 : _} (hp : Sub 1024 p) (hr : Sub 0x800000000000000000000000000000000000000000000000000000000000000000000000000000000000000000000000000000000000000000000000000000000000000000000000000000000000000000000000000000000000000000000000000000000000000000000000000000000000000000000000000000000000000000000000000000000000000000000000000000 r) (h : Only p r s x) :
    Only p r s (State.xBytes x a1 a2 a3 a4 a5) := by
  unfold State.xBytes
  repeat' first
    | with_reducible assumption
    | with_reducible refine State.xWrite_only (Sub.trans rfl hp) (Sub.trans rfl hr) ?_
    | with_reducible refine Only.ite ?_ ?_
    | with_reducible refine Only.foldl ?_ ?_
    | intro _
    | (extract_lets +onlyGivenNames y; first | (refine Only.cut (x := y) ?_ ?_; subst y; rotate_left; clear_value y; intro _) | clear_value y)
    | split
    | dsimp only

theorem State.fbinWrite_only {p r : Nat} {s x : State} {a1 a2 a3 a4 : _} (hp : Sub 66048 p) (hr : Sub 0 r) (h : Only p r s x) :
    Only p r s (State.fbinWrite x a1 a2 a3 a4) := by
  unfold State.fbinWrite
  repeat' first
    | with_reducible assumption
    | with_reducible refine State.updMe_only (Sub.trans rfl hp) (Sub.trans rfl hr) ?_
    | with_reducible refine State.fbPend_only (Sub.trans rfl hp) (Sub.trans rfl hr) ?_
    | with_reducible refine Only.ite ?_ ?_
    | intro _
    | (extract_lets +onlyGivenNames y; first | (refine Only.cut (x := y) ?_ ?_; subst y; rotate_left; clear_value y; intro _) | clear_value y)
    | split
    | dsimp only
    | (first | (with_reducible refine Only.upd_me (Sub.bits hp rfl) ?_; first | with_reducible assumption | with_reducible refine State.updMe_only (Sub.trans rfl hp) (Sub.trans rfl hr) ?_ | with_reducible refine State.fbPend_only (Sub.trans rfl hp) (Sub.trans rfl hr) ?_))

theorem State.meWrite_only {p r : Nat} {s x : State} {a1 a2 a3 : _} (hp : Sub 329472 p) (hr : Sub 0x800000000000000000000000000000000000000000000000000000000000000000000000000000000000000000000000000000000000000000000000000000000000000000000000000000000000000000000000000000000000000000000000000000000000000000000000000000000000000000000000000000000000000000000000000000000000000000000000000000 r) (h : Only p r s x) :
    Only p r s (State.meWrite x a1 a2 a3) := by
  unfold State.meWrite
  repeat' first
    | with_reducible assumption
    | with_reducible refine State.updSlot_only (Sub.trans rfl hp) (Sub.trans rfl hr) ?_
    | with_reducible refine State.grPut_only (Sub.trans rfl hp) (Sub.trans rfl hr) ?_
    | with_reducible refine State.xBytes_only (Sub.trans rfl hp) (Sub.trans rfl hr) ?_
    | with_reducible refine State.fbinWrite_only (Sub.trans rfl hp) (Sub.trans rfl hr) ?_
    | with_reducible refine Only.foldl ?_ ?_
    | intro _
    | (extract_lets +onlyGivenNames y; first | (refine Only.cut (x := y) ?_ ?_; subst y; rotate_left; clear_value y; intro _) | clear_value y)
    | split
    | dsimp only

theorem State.meUnit_only {p r : Nat} {s x : State} {a1 a2 a3 a4 : _} (hp : Sub 4433708952 p) (hr : Sub 0xe060000000000000000000000000000000000000000000000000000000000000000000000000000000000000000000000000000000000000000000000000000000000000000000000000000000000800000000000000000000000000000000000000000000000000000000000000000000000000000000000000000000000000000000000000000000000000000000000000000000000000000000000000000100000000000000000000000000000000000000000000000000000000000000000000000000000000000000000000000000000000000000000000000000000000000 r) (h : Only p r s x) :
    Only p r s (State.meUnit x a1 a2 a3 a4).st := by
  unfold State.meUnit
  repeat' first
    | with_reducible assumption
    | with_reducible refine Only.snd (q := (State.meInject _ _ _ _)) (by assumption) (State.meInject_only (Sub.trans rfl hp) (Sub.trans rfl hr) ?_)
    | with_reducible refine State.meInject_only (Sub.trans rfl hp) (Sub.trans rfl hr) ?_
    | with_reducible refine Only.inc 1175 R.ME_COUNT_HELD_num (Sub.bits hr rfl) ?_
    | with_reducible refine Only.snd (q := (State.unitEcc _ _ _ _)) (by assumption) (State.unitEcc_only (Sub.trans rfl hp) (Sub.trans rfl hr) ?_)
    | with_reducible refine State.unitEcc_only (Sub.trans rfl hp) (Sub.trans rfl hr) ?_
    | with_reducible refine State.meWrite_only (Sub.trans rfl hp) (Sub.trans rfl hr) ?_
    | with_reducible refine Only.ite ?_ ?_
    | with_reducible refine Only.foldl ?_ ?_
    | with_reducible refine Only.foldl_fst ?_ ?_
    | with_reducible refine Only.foldl_snd ?_ ?_
    | intro _
    | (extract_lets +onlyGivenNames y; first | (refine Only.cut (x := y) ?_ ?_; subst y; rotate_left; clear_value y; intro _) | (refine Only.cut (x := y.1) ?_ ?_; subst y; rotate_left; clear_value y; intro _) | (refine Only.cut (x := y.2) ?_ ?_; subst y; rotate_left; clear_value y; intro _) | (refine Only.cut (x := y.2.2) ?_ ?_; subst y; rotate_left; clear_value y; intro _) | (refine Only.cut (x := y.st) ?_ ?_; subst y; rotate_left; clear_value y; intro _) | clear_value y)
    | split
    | dsimp only
    | dsimp only [MeStep.st]

theorem State.meResidue_only {p r : Nat} {s x : State} {a1 a2 : _} (_hp : Sub 0 p) (hr : Sub 0x3f00000000000000000000000000000000000000000000000000000000000000000000000000000000000000000000000000000000000000000000000000000000000000000000000000000000000000000000000000000000000000000000000000000000000000000000000000000000000000000000000000000000000000000000000000000000000000000000000000 r) (h : Only p r s x) :
    Only p r s (State.meResidue x a1 a2) := by
  unfold State.meResidue
  repeat' first
    | with_reducible assumption
    | with_reducible refine Only.set 1160 R.ME_RESIDUE_A_IADDR_num (Sub.bits hr rfl) ?_
    | with_reducible refine Only.set 1161 R.ME_RESIDUE_A_STREAM_num (Sub.bits hr rfl) ?_
    | with_reducible refine Only.set 1162 R.ME_RESIDUE_A_ELEM_num (Sub.bits hr rfl) ?_
    | with_reducible refine Only.set 1163 R.ME_RESIDUE_A_REASON_num (Sub.bits hr rfl) ?_
    | with_reducible refine Only.set 1164 R.ME_RESIDUE_B_REMAIN_num (Sub.bits hr rfl) ?_
    | with_reducible refine Only.set 1165 R.ME_RESIDUE_B_CYCLE_num (Sub.bits hr rfl) ?_
    | (extract_lets +onlyGivenNames y; first | (refine Only.cut (x := y) ?_ ?_; subst y; rotate_left; clear_value y; intro _) | clear_value y)
    | dsimp only

theorem State.meComplete_only {p r : Nat} {s x : State} {a1 a2 : _} (hp : Sub 196616 p) (hr : Sub 0x38080300000000000000000000000000000000000000000000000000000000000000000000000000000000000000000000000000000000000000000000000000000000000000000000000000000000000000000000000000000000000000000000000000000000000000000000000000000000000000000000000000000000000000000000000000000000000000000000000000000000000000000000000000000000 r) (h : Only p r s x) :
    Only p r s (State.meComplete x a1 a2) := by
  unfold State.meComplete
  repeat' first
    | with_reducible assumption
    | with_reducible refine State.complete_only (Sub.trans rfl hp) (Sub.trans rfl hr) ?_
    | with_reducible refine State.updMe_only (Sub.trans rfl hp) (Sub.trans rfl hr) ?_
    | intro _
    | (extract_lets +onlyGivenNames y; first | (refine Only.cut (x := y) ?_ ?_; subst y; rotate_left; clear_value y; intro _) | clear_value y)
    | split
    | dsimp only

theorem State.meStop_only {p r : Nat} {s x : State} {a1 a2 a3 a4 : _} (hp : Sub 196616 p) (hr : Sub 0x38080300000000000000000000000000003f10000000000000000000000000000000000000000000000000000000000000000000000000000000000000000000000000000000000000000000000000000000000000000000000000000000000000000000000000000000000000000000000000000000000000000000000000000000000000000000000000000000000000000000000000000000000000000000000000 r) (h : Only p r s x) :
    Only p r s (State.meStop x a1 a2 a3 a4) := by
  unfold State.meStop
  repeat' first
    | with_reducible assumption
    | with_reducible refine State.meResidue_only (Sub.trans rfl hp) (Sub.trans rfl hr) ?_
    | with_reducible refine State.meComplete_only (Sub.trans rfl hp) (Sub.trans rfl hr) ?_
    | with_reducible refine Only.set 1156 R.ME_STATE_STATE_num (Sub.bits hr rfl) ?_
    | with_reducible refine State.updMe_only (Sub.trans rfl hp) (Sub.trans rfl hr) ?_
    | intro _
    | (extract_lets +onlyGivenNames y; first | (refine Only.cut (x := y) ?_ ?_; subst y; rotate_left; clear_value y; intro _) | clear_value y)
    | dsimp only

theorem State.meHalt_only {p r : Nat} {s x : State} {a1 a2 : _} (hp : Sub 196632 p) (hr : Sub 0x380803000000000000000000000000002fff10000000000000000000000000000000000000000000000000000000000000000000000000000000000000000000000000000000000000000000000000000000000000000000000000000000000000000000000000000000000000000000000000000000000000000000000000000000000000000000000000000000000000000000000000000000000000000000000000 r) (h : Only p r s x) :
    Only p r s (State.meHalt x a1 a2) := by
  unfold State.meHalt
  repeat' first
    | with_reducible assumption
    | with_reducible refine Only.set 1166 R.ME_ERR_ADDR_num (Sub.bits hr rfl) ?_
    | with_reducible refine Only.setBit 1167 R.ME_ERR_INFO_DIR_num (Sub.bits hr rfl) ?_
    | with_reducible refine Only.set 1168 R.ME_ERR_INFO_CAUSE_num (Sub.bits hr rfl) ?_
    | with_reducible refine Only.set 1169 R.ME_ERR_INFO_IADDR_num (Sub.bits hr rfl) ?_
    | with_reducible refine Only.set 1170 R.ME_ERR_INFO_STREAM_num (Sub.bits hr rfl) ?_
    | with_reducible refine Only.set 1171 R.ME_ERR_INFO_ELEM_num (Sub.bits hr rfl) ?_
    | with_reducible refine Only.inc 1173 R.ME_COUNT_BUS_ERR_num (Sub.bits hr rfl) ?_
    | with_reducible refine State.updMe_only (Sub.trans rfl hp) (Sub.trans rfl hr) ?_
    | with_reducible refine State.meStop_only (Sub.trans rfl hp) (Sub.trans rfl hr) ?_
    | with_reducible refine State.post_only (Sub.trans rfl hp) (Sub.trans rfl hr) ?_
    | with_reducible refine State.fault_only (Sub.trans rfl hp) (Sub.trans rfl hr) ?_
    | with_reducible refine Only.ite ?_ ?_
    | intro _
    | (extract_lets +onlyGivenNames y; first | (refine Only.cut (x := y) ?_ ?_; subst y; rotate_left; clear_value y; intro _) | clear_value y)
    | split
    | dsimp only

theorem State.moveRun_only {p r : Nat} {s x : State} {a0 a1 a2 a3 a4 a5 : _} (hp : Sub 4433840024 p) (hr : Sub 0xe060000000000000000000000000000000000000000000000000000000000000000000000000000000000000000000000000000000000000000000000000038080300000000000000000000000000afff50000000000000000000000000000000000000000000000000000000000000000000000000000000000000000000000000000000000000000000000000000000000000000000000000000000000000100000000000000000000000000000000000000000000000000000000000000000000000000000000000000000000000000000000000000000000000000000000000 r) (h : Only p r s x) :
    Only p r s (State.moveRun a0 a1 a2 a3 a4 a5 x) := by
  induction a4 generalizing x a5 <;> unfold State.moveRun
  repeat' first
    | with_reducible assumption
    | with_reducible refine State.moveEnd_only (Sub.trans rfl hp) (Sub.trans rfl hr) ?_
    | with_reducible refine State.moveHold_only (Sub.trans rfl hp) (Sub.trans rfl hr) ?_
    | with_reducible refine Only.st_done (q := (State.meUnit _ _ _ _ _)) (by assumption) (State.meUnit_only (Sub.trans rfl hp) (Sub.trans rfl hr) ?_)
    | with_reducible refine Only.st_fail (q := (State.meUnit _ _ _ _ _)) (by assumption) (State.meUnit_only (Sub.trans rfl hp) (Sub.trans rfl hr) ?_)
    | with_reducible refine Only.st_held (q := (State.meUnit _ _ _ _ _)) (by assumption) (State.meUnit_only (Sub.trans rfl hp) (Sub.trans rfl hr) ?_)
    | with_reducible refine State.meUnit_only (Sub.trans rfl hp) (Sub.trans rfl hr) ?_
    | with_reducible refine State.meHalt_only (Sub.trans rfl hp) (Sub.trans rfl hr) ?_
    | with_reducible refine Only.ite ?_ ?_
    | (extract_lets +onlyGivenNames y; first | (refine Only.cut (x := y) ?_ ?_; subst y; rotate_left; clear_value y; intro _) | (refine Only.cut (x := y.st) ?_ ?_; subst y; rotate_left; clear_value y; intro _) | clear_value y)
    | split
    | dsimp only
    | dsimp only [MeStep.st]
    | with_reducible apply_assumption

theorem State.meMove_only {p r : Nat} {s x : State} {a1 a2 a3 : _} (hp : Sub 4433840024 p) (hr : Sub 0xe060000000000000000000000000000000000000000000000000000000000000000000000000000000000000000000000000000000000000000000000000038080300000000000000000000000000afff50000000000000000000000000000000000000000000000000000000000000000000000000000000000000000000000000000000000000000000000000000000000000000000000000000000000000100000000000000000000000000000000000000000000000000000000000000000000000000000000000000000000000000000000000000000000000000000000000 r) (h : Only p r s x) :
    Only p r s (State.meMove x a1 a2 a3) := by
  unfold State.meMove
  repeat' first
    | with_reducible assumption
    | with_reducible refine State.moveSkip_only (Sub.trans rfl hp) (Sub.trans rfl hr) ?_
    | with_reducible refine State.moveRun_only (Sub.trans rfl hp) (Sub.trans rfl hr) ?_
    | with_reducible refine Only.ite ?_ ?_
    | (extract_lets +onlyGivenNames y; first | (refine Only.cut (x := y) ?_ ?_; subst y; rotate_left; clear_value y; intro _) | clear_value y)
    | split
    | dsimp only

theorem execMeMovePack_only {p r : Nat} {s : State} {a0 a1 : _} (hp : Sub 4433840024 p) (hr : Sub 0xe060000000000000000000000000000000000000000000000000000000000000000000000000000000000000000000000000000000000000000000000000038080300000000000000000000000000afff50000000000000000000000000000000000000000000000000000000000000000000000000000000000000000000000000000000000000000000000000000000000000000000000000000000000000100000000000000000000000000000000000000000000000000000000000000000000000000000000000000000000000000000000000000000000000000000000000 r) :
    ∃ t, execMeMovePack a0 a1 s = .next t ∧ Only p r s t := by
  unfold execMeMovePack
  refine ⟨_, rfl, ?_⟩
  have h : Only p r s s := Only.refl
  repeat' first
    | with_reducible assumption
    | with_reducible refine State.meMove_only (Sub.trans rfl hp) (Sub.trans rfl hr) ?_

theorem State.waitDone_only {p r : Nat} {s x : State} {a1 a2 : _} (hp : Sub 65536 p) (hr : Sub 0x60000000000000000000000000000000000000000000000000000000000000000000000000000000000000000000000000000000000000000000000000000000000000000000000000000000000000000000000000000000000000000000000000000000000000000000000000000000000000000000000000000000000000000000000000000000000000000000000000 r) (h : Only p r s x) :
    Only p r s (State.waitDone x a1 a2) := by
  unfold State.waitDone
  repeat' first
    | with_reducible assumption
    | with_reducible refine Only.setBit 1157 R.ME_STATE_COND_num (Sub.bits hr rfl) ?_
    | with_reducible refine State.updMe_only (Sub.trans rfl hp) (Sub.trans rfl hr) ?_
    | with_reducible refine State.meGoto_only (Sub.trans rfl hp) (Sub.trans rfl hr) ?_
    | intro _
    | (extract_lets +onlyGivenNames y; first | (refine Only.cut (x := y) ?_ ?_; subst y; rotate_left; clear_value y; intro _) | clear_value y)
    | split
    | dsimp only

theorem State.meWaitComplete_only {p r : Nat} {s x : State} {a1 : _} (hp : Sub 65536 p) (hr : Sub 0x70000000000000000000000000000000000000000000000000000000000000000000000000000000000000000000000000000000000000000000000000000000000000000000000000000000000000000000000000000000000000000000000000000000000000000000000000000000000000000000000000000000000000000000000000000000000000000000000000 r) (h : Only p r s x) :
    Only p r s (State.meWaitComplete x a1) := by
  unfold State.meWaitComplete
  repeat' first
    | with_reducible assumption
    | with_reducible refine State.waitDone_only (Sub.trans rfl hp) (Sub.trans rfl hr) ?_
    | with_reducible refine Only.set 1156 R.ME_STATE_STATE_num (Sub.bits hr rfl) ?_
    | with_reducible refine Only.ite ?_ ?_
    | (extract_lets +onlyGivenNames y; first | (refine Only.cut (x := y) ?_ ?_; subst y; rotate_left; clear_value y; intro _) | clear_value y)
    | split
    | dsimp only

theorem execMeWaitComplete_only {p r : Nat} {s : State} {a0 : _} (hp : Sub 65536 p) (hr : Sub 0x70000000000000000000000000000000000000000000000000000000000000000000000000000000000000000000000000000000000000000000000000000000000000000000000000000000000000000000000000000000000000000000000000000000000000000000000000000000000000000000000000000000000000000000000000000000000000000000000000 r) :
    ∃ t, execMeWaitComplete a0 s = .next t ∧ Only p r s t := by
  unfold execMeWaitComplete
  refine ⟨_, rfl, ?_⟩
  have h : Only p r s s := Only.refl
  repeat' first
    | with_reducible assumption
    | with_reducible refine State.meWaitComplete_only (Sub.trans rfl hp) (Sub.trans rfl hr) ?_

theorem State.meNext_only {p r : Nat} {s x : State} {a1 : _} (hp : Sub 0 p) (hr : Sub 0x40000000000000000000000000000000000000000000000000000000000000000000000000000000000000000000000000000000000000000000000000000000000000000000000000000000000000000000000000000000000000000000000000000000000000000000000000000000000000000000000000000000000000000000000000000000000000000000000000 r) (h : Only p r s x) :
    Only p r s (State.meNext x a1) := by
  unfold State.meNext
  repeat' first
    | with_reducible assumption
    | with_reducible refine State.meGoto_only (Sub.trans rfl hp) (Sub.trans rfl hr) ?_

theorem State.meHandover_only {p r : Nat} {s x : State} {a1 a2 : _} (hp : Sub 256 p) (hr : Sub 0x40000000000000000000000000000000000000000000000000000000000000000000000000000000000000000000000000000000000000000000000000000000000000000000000000000000000000000000000000000000000000000000000000000000000000000000000000000000000000000000000000000000000000000000000000000000000000000000000000 r) (h : Only p r s x) :
    Only p r s (State.meHandover x a1 a2) := by
  unfold State.meHandover
  repeat' first
    | with_reducible assumption
    | with_reducible refine State.updSlot_only (Sub.trans rfl hp) (Sub.trans rfl hr) ?_
    | with_reducible refine State.meNext_only (Sub.trans rfl hp) (Sub.trans rfl hr) ?_
    | with_reducible refine Only.ite ?_ ?_
    | intro _
    | (extract_lets +onlyGivenNames y; first | (refine Only.cut (x := y) ?_ ?_; subst y; rotate_left; clear_value y; intro _) | clear_value y)
    | split
    | dsimp only

theorem State.meLoop_only {p r : Nat} {s x : State} {a1 a2 a3 : _} (hp : Sub 65536 p) (hr : Sub 0x40000000000000000000000000000000000000000000000000000000000000000000000000000000000000000000000000000000000000000000000000000000000000000000000000000000000000000000000000000000000000000000000000000000000000000000000000000000000000000000000000000000000000000000000000000000000000000000000000 r) (h : Only p r s x) :
    Only p r s (State.meLoop x a1 a2 a3) := by
  unfold State.meLoop
  repeat' first
    | with_reducible assumption
    | with_reducible refine State.meGoto_only (Sub.trans rfl hp) (Sub.trans rfl hr) ?_
    | with_reducible refine State.updMe_only (Sub.trans rfl hp) (Sub.trans rfl hr) ?_
    | with_reducible refine Only.ite ?_ ?_
    | intro _
    | (extract_lets +onlyGivenNames y; first | (refine Only.cut (x := y) ?_ ?_; subst y; rotate_left; clear_value y; intro _) | clear_value y)
    | split
    | dsimp only

theorem execMeLoop_only {p r : Nat} {s : State} {a0 a1 a2 : _} (hp : Sub 65536 p) (hr : Sub 0x40000000000000000000000000000000000000000000000000000000000000000000000000000000000000000000000000000000000000000000000000000000000000000000000000000000000000000000000000000000000000000000000000000000000000000000000000000000000000000000000000000000000000000000000000000000000000000000000000 r) :
    ∃ t, execMeLoop a0 a1 a2 s = .next t ∧ Only p r s t := by
  unfold execMeLoop
  refine ⟨_, rfl, ?_⟩
  have h : Only p r s s := Only.refl
  repeat' first
    | with_reducible assumption
    | with_reducible refine State.meLoop_only (Sub.trans rfl hp) (Sub.trans rfl hr) ?_

theorem State.meFlag_only {p r : Nat} {s x : State} {a1 a2 : _} (hp : Sub 65536 p) (hr : Sub 0x40000000000000000000000000000000000000000000000000000000000000000000000000000000000000000000000000000000000000000000000000000000000000000000000000000000000000000000000000000000000000000000000000000000000000000000000000000000000000000000000000000000000000000000000000000000000000000000000000 r) (h : Only p r s x) :
    Only p r s (State.meFlag x a1 a2) := by
  unfold State.meFlag
  repeat' first
    | with_reducible assumption
    | with_reducible refine State.updMe_only (Sub.trans rfl hp) (Sub.trans rfl hr) ?_
    | with_reducible refine State.meNext_only (Sub.trans rfl hp) (Sub.trans rfl hr) ?_
    | with_reducible refine Only.ite ?_ ?_
    | intro _
    | (extract_lets +onlyGivenNames y; first | (refine Only.cut (x := y) ?_ ?_; subst y; rotate_left; clear_value y; intro _) | clear_value y)
    | split
    | dsimp only

theorem execMeMoveUnpack_only {p r : Nat} {s : State} {a0 a1 : _} (hp : Sub 4433840024 p) (hr : Sub 0xe060000000000000000000000000000000000000000000000000000000000000000000000000000000000000000000000000000000000000000000000000038080300000000000000000000000000afff50000000000000000000000000000000000000000000000000000000000000000000000000000000000000000000000000000000000000000000000000000000000000000000000000000000000000100000000000000000000000000000000000000000000000000000000000000000000000000000000000000000000000000000000000000000000000000000000000 r) :
    ∃ t, execMeMoveUnpack a0 a1 s = .next t ∧ Only p r s t := by
  unfold execMeMoveUnpack
  refine ⟨_, rfl, ?_⟩
  have h : Only p r s s := Only.refl
  repeat' first
    | with_reducible assumption
    | with_reducible refine State.meMove_only (Sub.trans rfl hp) (Sub.trans rfl hr) ?_

theorem State.meWake_only {p r : Nat} {s x : State} {a1 a2 : _} (hp : Sub 65536 p) (hr : Sub 0x70000000000000000000000000000000000000000000000000000000000000000000000000000000000000000000000000000000000000000000000000000000000000000000000000000000000000000000000000000000000000000000000000000000000000000000000000000000000000000000000000000000000000000000000000000000000000000000000000 r) (h : Only p r s x) :
    Only p r s (State.meWake x a1 a2) := by
  unfold State.meWake
  repeat' first
    | with_reducible assumption
    | with_reducible refine State.waitDone_only (Sub.trans rfl hp) (Sub.trans rfl hr) ?_
    | with_reducible refine Only.set 1156 R.ME_STATE_STATE_num (Sub.bits hr rfl) ?_
    | with_reducible refine Only.ite ?_ ?_
    | (extract_lets +onlyGivenNames y; first | (refine Only.cut (x := y) ?_ ?_; subst y; rotate_left; clear_value y; intro _) | clear_value y)
    | split
    | dsimp only

theorem State.mePassStart_only {p r : Nat} {s x : State} {a1 a2 : _} (hp : Sub 66048 p) (hr : Sub 0x70000000000000000000000000000000000000000000000000000000000000000000000000000000000000000000000000000000000000000000000000000000000000000000000000000000000000000000000000000000000000000000000000000000000000000000000000000000000000000000000000000000000000000000000000000000000000000000000000 r) (h : Only p r s x) :
    Only p r s (State.mePassStart x a1 a2) := by
  unfold State.mePassStart
  repeat' first
    | with_reducible assumption
    | with_reducible refine State.meNoSample_only (Sub.trans rfl hp) (Sub.trans rfl hr) ?_
    | with_reducible refine State.updMe_only (Sub.trans rfl hp) (Sub.trans rfl hr) ?_
    | with_reducible refine Only.setBit 1157 R.ME_STATE_COND_num (Sub.bits hr rfl) ?_
    | with_reducible refine Only.set 1156 R.ME_STATE_STATE_num (Sub.bits hr rfl) ?_
    | with_reducible refine State.meGoto_only (Sub.trans rfl hp) (Sub.trans rfl hr) ?_
    | with_reducible refine Only.ite ?_ ?_
    | with_reducible refine Only.foldl ?_ ?_
    | intro _
    | (extract_lets +onlyGivenNames y; first | (refine Only.cut (x := y) ?_ ?_; subst y; rotate_left; clear_value y; intro _) | clear_value y)
    | split
    | dsimp only

theorem State.meDisable_only {p r : Nat} {s x : State} {a1 : _} (hp : Sub 196616 p) (hr : Sub 0x38080300000000000000000000000000003f10000000000000000000000000000000000000000000000000000000000000000000000000000000000000000000000000000000000000000000000000000000000000000000000000000000000000000000000000000000000000000000000000000000000000000000000000000000000000000000000000000000000000000000000000000000000000000000000000 r) (h : Only p r s x) :
    Only p r s (State.meDisable x a1) := by
  unfold State.meDisable
  repeat' first
    | with_reducible assumption
    | with_reducible refine State.meStop_only (Sub.trans rfl hp) (Sub.trans rfl hr) ?_
    | with_reducible refine State.post_only (Sub.trans rfl hp) (Sub.trans rfl hr) ?_
    | with_reducible refine Only.ite ?_ ?_
    | (extract_lets +onlyGivenNames y; first | (refine Only.cut (x := y) ?_ ?_; subst y; rotate_left; clear_value y; intro _) | clear_value y)
    | split
    | dsimp only

theorem State.meWait_only {p r : Nat} {s x : State} {a1 a2 : _} (hp : Sub 65536 p) (hr : Sub 0x70000000000000000000000000000000000000000000000000000000000000000000000000000000000000000000000000000000000000000000000000000000000000000000000000000000000000000000000000000000000000000000000000000000000000000000000000000000000000000000000000000000000000000000000000000000000000000000000000 r) (h : Only p r s x) :
    Only p r s (State.meWait x a1 a2) := by
  unfold State.meWait
  repeat' first
    | with_reducible assumption
    | with_reducible refine State.waitDone_only (Sub.trans rfl hp) (Sub.trans rfl hr) ?_
    | with_reducible refine State.updMe_only (Sub.trans rfl hp) (Sub.trans rfl hr) ?_
    | with_reducible refine Only.set 1156 R.ME_STATE_STATE_num (Sub.bits hr rfl) ?_
    | with_reducible refine Only.ite ?_ ?_
    | intro _
    | (extract_lets +onlyGivenNames y; first | (refine Only.cut (x := y) ?_ ?_; subst y; rotate_left; clear_value y; intro _) | clear_value y)
    | split
    | dsimp only

theorem execMeWaitTiller_only {p r : Nat} {s : State} {a0 a1 a2 : _} (hp : Sub 65536 p) (hr : Sub 0x70000000000000000000000000000000000000000000000000000000000000000000000000000000000000000000000000000000000000000000000000000000000000000000000000000000000000000000000000000000000000000000000000000000000000000000000000000000000000000000000000000000000000000000000000000000000000000000000000 r) :
    ∃ t, execMeWaitTiller a0 a1 a2 s = .next t ∧ Only p r s t := by
  unfold execMeWaitTiller
  refine ⟨_, rfl, ?_⟩
  have h : Only p r s s := Only.refl
  repeat' first
    | with_reducible assumption
    | with_reducible refine State.meWait_only (Sub.trans rfl hp) (Sub.trans rfl hr) ?_

theorem State.meCtrlStart_only {p r : Nat} {s x : State} {a1 : _} (hp : Sub 720904 p) (hr : Sub 0x38080300000000000000000000000000000050000000000000000000000000000000000000000000000000000000000000000000000000000000000000000000000000000000000000000000000000000000000000000000000000000000000000000000000000000000000000000000000000000000000000000000000000000000000000000000000000000000000000000000000000000000000000000000000000 r) (h : Only p r s x) :
    Only p r s (State.meCtrlStart x a1) := by
  unfold State.meCtrlStart
  repeat' first
    | with_reducible assumption
    | with_reducible refine State.completeDesc_only (Sub.trans rfl hp) (Sub.trans rfl hr) ?_
    | with_reducible refine State.mirrorDesc_only (Sub.trans rfl hp) (Sub.trans rfl hr) ?_
    | with_reducible refine State.updMe_only (Sub.trans rfl hp) (Sub.trans rfl hr) ?_
    | with_reducible refine Only.set 1156 R.ME_STATE_STATE_num (Sub.bits hr rfl) ?_
    | with_reducible refine State.meGoto_only (Sub.trans rfl hp) (Sub.trans rfl hr) ?_
    | with_reducible refine Only.ite ?_ ?_
    | intro _
    | (extract_lets +onlyGivenNames y; first | (refine Only.cut (x := y) ?_ ?_; subst y; rotate_left; clear_value y; intro _) | clear_value y)
    | split
    | dsimp only

theorem execMeCtrlStart_only {p r : Nat} {s : State} {a0 : _} (hp : Sub 721032 p) (hr : Sub 0x38080300000000000000000000000000000050000000000000000000000000000000000000000000000000000000000000000000000000000000000000000000000000000000000000000000000000000000000000000000000000000000000000000000000000000000000000000000000000000000000000000000000000000000000000000000000000000000000000000000000000000000000000000000000000 r) :
    ∃ t, execMeCtrlStart a0 s = .next t ∧ Only p r s t := by
  unfold execMeCtrlStart
  refine ⟨_, rfl, ?_⟩
  have h : Only p r s s := Only.refl
  repeat' first
    | with_reducible assumption
    | with_reducible refine State.meCtrlStart_only (Sub.trans rfl hp) (Sub.trans rfl hr) ?_
    | with_reducible refine State.opAction_only (Sub.trans rfl hp) (Sub.trans rfl hr) ?_ ?_
    | intro _
    | dsimp only

theorem execMeWaitFlag_only {p r : Nat} {s : State} {a0 a1 : _} (hp : Sub 65536 p) (hr : Sub 0x70000000000000000000000000000000000000000000000000000000000000000000000000000000000000000000000000000000000000000000000000000000000000000000000000000000000000000000000000000000000000000000000000000000000000000000000000000000000000000000000000000000000000000000000000000000000000000000000000 r) :
    ∃ t, execMeWaitFlag a0 a1 s = .next t ∧ Only p r s t := by
  unfold execMeWaitFlag
  refine ⟨_, rfl, ?_⟩
  have h : Only p r s s := Only.refl
  repeat' first
    | with_reducible assumption
    | with_reducible refine State.meWait_only (Sub.trans rfl hp) (Sub.trans rfl hr) ?_

theorem State.meCtrlReset_only {p r : Nat} {s x : State} {a1 : _} (hp : Sub 131080 p) (hr : Sub 0x380803000000000000000000000000000fc010000000000000000000000000000000000000000000000000000000000000000000000000000000000000000000000000000000000000000000000000000000000000000000000000000000000000000000000000000000000000000000000000000000000000000000000000000000000000000000000000000000000000000000000000000000000000000000000000 r) (h : Only p r s x) :
    Only p r s (State.meCtrlReset x a1) := by
  unfold State.meCtrlReset
  repeat' first
    | with_reducible assumption
    | with_reducible refine State.completeDesc_only (Sub.trans rfl hp) (Sub.trans rfl hr) ?_
    | with_reducible refine Only.set 1166 R.ME_ERR_ADDR_num (Sub.bits hr rfl) ?_
    | with_reducible refine Only.set 1167 R.ME_ERR_INFO_DIR_num (Sub.bits hr rfl) ?_
    | with_reducible refine Only.set 1168 R.ME_ERR_INFO_CAUSE_num (Sub.bits hr rfl) ?_
    | with_reducible refine Only.set 1169 R.ME_ERR_INFO_IADDR_num (Sub.bits hr rfl) ?_
    | with_reducible refine Only.set 1170 R.ME_ERR_INFO_STREAM_num (Sub.bits hr rfl) ?_
    | with_reducible refine Only.set 1171 R.ME_ERR_INFO_ELEM_num (Sub.bits hr rfl) ?_
    | with_reducible refine Only.set 1156 R.ME_STATE_STATE_num (Sub.bits hr rfl) ?_
    | with_reducible refine Only.ite ?_ ?_
    | (extract_lets +onlyGivenNames y; first | (refine Only.cut (x := y) ?_ ?_; subst y; rotate_left; clear_value y; intro _) | clear_value y)
    | split
    | dsimp only

theorem execMeCtrlReset_only {p r : Nat} {s : State} {a0 : _} (hp : Sub 131208 p) (hr : Sub 0x380803000000000000000000000000000fc010000000000000000000000000000000000000000000000000000000000000000000000000000000000000000000000000000000000000000000000000000000000000000000000000000000000000000000000000000000000000000000000000000000000000000000000000000000000000000000000000000000000000000000000000000000000000000000000000 r) :
    ∃ t, execMeCtrlReset a0 s = .next t ∧ Only p r s t := by
  unfold execMeCtrlReset
  refine ⟨_, rfl, ?_⟩
  have h : Only p r s s := Only.refl
  repeat' first
    | with_reducible assumption
    | with_reducible refine State.meCtrlReset_only (Sub.trans rfl hp) (Sub.trans rfl hr) ?_
    | with_reducible refine State.opAction_only (Sub.trans rfl hp) (Sub.trans rfl hr) ?_ ?_
    | intro _
    | dsimp only

theorem execMeWaitSlot_only {p r : Nat} {s : State} {a0 a1 a2 : _} (hp : Sub 65536 p) (hr : Sub 0x70000000000000000000000000000000000000000000000000000000000000000000000000000000000000000000000000000000000000000000000000000000000000000000000000000000000000000000000000000000000000000000000000000000000000000000000000000000000000000000000000000000000000000000000000000000000000000000000000 r) :
    ∃ t, execMeWaitSlot a0 a1 a2 s = .next t ∧ Only p r s t := by
  unfold execMeWaitSlot
  refine ⟨_, rfl, ?_⟩
  have h : Only p r s s := Only.refl
  repeat' first
    | with_reducible assumption
    | with_reducible refine State.meWait_only (Sub.trans rfl hp) (Sub.trans rfl hr) ?_

theorem State.meWaitBoundary_only {p r : Nat} {s x : State} {a1 a2 : _} (hp : Sub 65536 p) (hr : Sub 0x3000070000000000000000000000000000000000000000000000000000000000000000000000000000000000000000000000000000000000000000000000000000000000000000000000000000000000000000000000000000000000000000000000000000000000000000000000000000000000000000000000000000000000000000000000000000000000000000000000000 r) (h : Only p r s x) :
    Only p r s (State.meWaitBoundary x a1 a2) := by
  unfold State.meWaitBoundary
  repeat' first
    | with_reducible assumption
    | with_reducible refine State.meWait_only (Sub.trans rfl hp) (Sub.trans rfl hr) ?_
    | with_reducible refine Only.setBit 1157 R.ME_STATE_COND_num (Sub.bits hr rfl) ?_
    | with_reducible refine State.updMe_only (Sub.trans rfl hp) (Sub.trans rfl hr) ?_
    | with_reducible refine Only.set 1176 R.ME_TIME_PASS_LAST_num (Sub.bits hr rfl) ?_
    | with_reducible refine Only.raiseTo 1177 R.ME_TIME_PASS_MAX_num (Sub.bits hr rfl) ?_
    | with_reducible refine Only.ite ?_ ?_
    | intro _
    | (extract_lets +onlyGivenNames y; first | (refine Only.cut (x := y) ?_ ?_; subst y; rotate_left; clear_value y; intro _) | clear_value y)
    | split
    | dsimp only

theorem execMeWaitBoundary_only {p r : Nat} {s : State} {a0 a1 : _} (hp : Sub 65536 p) (hr : Sub 0x3000070000000000000000000000000000000000000000000000000000000000000000000000000000000000000000000000000000000000000000000000000000000000000000000000000000000000000000000000000000000000000000000000000000000000000000000000000000000000000000000000000000000000000000000000000000000000000000000000000 r) :
    ∃ t, execMeWaitBoundary a0 a1 s = .next t ∧ Only p r s t := by
  unfold execMeWaitBoundary
  refine ⟨_, rfl, ?_⟩
  have h : Only p r s s := Only.refl
  repeat' first
    | with_reducible assumption
    | with_reducible refine State.meWaitBoundary_only (Sub.trans rfl hp) (Sub.trans rfl hr) ?_

theorem State.meMark_only {p r : Nat} {s x : State} {a1 a2 : _} (hp : Sub 8 p) (hr : Sub 0x40000000000000000000000000000000000000000000000000000000000000000000000000000000000000000000000000000000000000000000000000000000000000000000000000000000000000000000000000000000000000000000000000000000000000000000000000000000000000000000000000000000000000000000000000000000000000000000000000 r) (h : Only p r s x) :
    Only p r s (State.meMark x a1 a2) := by
  unfold State.meMark
  repeat' first
    | with_reducible assumption
    | with_reducible refine State.post_only (Sub.trans rfl hp) (Sub.trans rfl hr) ?_
    | with_reducible refine State.meNext_only (Sub.trans rfl hp) (Sub.trans rfl hr) ?_
    | with_reducible refine Only.ite ?_ ?_
    | split

theorem State.meBarrier_only {p r : Nat} {s x : State} {a1 : _} (hp : Sub 65536 p) (hr : Sub 0 r) (h : Only p r s x) :
    Only p r s (State.meBarrier x a1) := by
  unfold State.meBarrier
  repeat' first
    | with_reducible assumption
    | with_reducible refine State.updMe_only (Sub.trans rfl hp) (Sub.trans rfl hr) ?_
    | intro _
    | (extract_lets +onlyGivenNames y; first | (refine Only.cut (x := y) ?_ ?_; subst y; rotate_left; clear_value y; intro _) | clear_value y)
    | dsimp only

theorem execMeBarrierRelease_only {p r : Nat} {s : State} {a0 : _} (hp : Sub 65536 p) (hr : Sub 0 r) :
    ∃ t, execMeBarrierRelease a0 s = .next t ∧ Only p r s t := by
  unfold execMeBarrierRelease
  refine ⟨_, rfl, ?_⟩
  have h : Only p r s s := Only.refl
  repeat' first
    | with_reducible assumption
    | with_reducible refine State.meBarrier_only (Sub.trans rfl hp) (Sub.trans rfl hr) ?_

theorem State.meForced_only {p r : Nat} {s x : State} {a1 : _} (hp : Sub 196632 p) (hr : Sub 0x380803000000000000000000000000002fff10000000000000000000000000000000000000000000000000000000000000000000000000000000000000000000000000000000000000000000000000000000000000000000000000000000000000000000000000000000000000000000000000000000000000000000000000000000000000000000000000000000000000000000000000000000000000000000000000 r) (h : Only p r s x) :
    Only p r s (State.meForced x a1) := by
  unfold State.meForced
  repeat' first
    | with_reducible assumption
    | with_reducible refine State.meHalt_only (Sub.trans rfl hp) (Sub.trans rfl hr) ?_
    | with_reducible refine Only.ite ?_ ?_
    | with_reducible refine Only.foldl ?_ ?_
    | intro _
    | (extract_lets +onlyGivenNames y; first | (refine Only.cut (x := y) ?_ ?_; subst y; rotate_left; clear_value y; intro _) | clear_value y)
    | split
    | dsimp only

theorem State.meEnable_only {p r : Nat} {s x : State} {a1 : _} (hp : Sub 65536 p) (hr : Sub 0xf0000000000000000000000000000000000000000000000000000000000000000000000000000000000000000000000000000000000000000000000000000000000000000000000000000000000000000000000000000000000000000000000000000000000000000000000000000000000000000000000000000000000000000000000000000000000000000000000000 r) (h : Only p r s x) :
    Only p r s (State.meEnable x a1) := by
  unfold State.meEnable
  repeat' first
    | with_reducible assumption
    | with_reducible refine State.updMe_only (Sub.trans rfl hp) (Sub.trans rfl hr) ?_
    | with_reducible refine Only.set 1156 R.ME_STATE_STATE_num (Sub.bits hr rfl) ?_
    | with_reducible refine Only.setBit 1157 R.ME_STATE_COND_num (Sub.bits hr rfl) ?_
    | with_reducible refine State.meGoto_only (Sub.trans rfl hp) (Sub.trans rfl hr) ?_
    | with_reducible refine Only.set 1159 R.ME_STATE_ARM_MASK_num (Sub.bits hr rfl) ?_
    | with_reducible refine Only.ite ?_ ?_
    | intro _
    | (extract_lets +onlyGivenNames y; first | (refine Only.cut (x := y) ?_ ?_; subst y; rotate_left; clear_value y; intro _) | clear_value y)
    | split
    | dsimp only

theorem State.meWaitTime_only {p r : Nat} {s x : State} {a1 a2 : _} (hp : Sub 65536 p) (hr : Sub 0x400070000000000000000000000000000000000000000000000000000000000000000000000000000000000000000000000000000000000000000000000000000000000000000000000000000000000000000000000000000000000000000000000000000000000000000000000000000000000000000000000000000000000000000000000000000000000000000000000000 r) (h : Only p r s x) :
    Only p r s (State.meWaitTime x a1 a2) := by
  unfold State.meWaitTime
  repeat' first
    | with_reducible assumption
    | with_reducible refine Only.inc 1174 R.ME_COUNT_WAIT_LATE_num (Sub.bits hr rfl) ?_
    | with_reducible refine State.meWait_only (Sub.trans rfl hp) (Sub.trans rfl hr) ?_
    | with_reducible refine Only.ite ?_ ?_
    | (extract_lets +onlyGivenNames y; first | (refine Only.cut (x := y) ?_ ?_; subst y; rotate_left; clear_value y; intro _) | clear_value y)
    | split
    | dsimp only

theorem State.mePassLate_only {p r : Nat} {s x : State} {a1 a2 : _} (hp : Sub 197128 p) (hr : Sub 0x38080300000000000000000000000000103f10000000000000000000000000000000000000000000000000000000000000000000000000000000000000000000000000000000000000000000000000000000000000000000000000000000000000000000000000000000000000000000000000000000000000000000000000000000000000000000000000000000000000000000000000000000000000000000000000 r) (h : Only p r s x) :
    Only p r s (State.mePassLate x a1 a2) := by
  unfold State.mePassLate
  repeat' first
    | with_reducible assumption
    | with_reducible refine State.meStop_only (Sub.trans rfl hp) (Sub.trans rfl hr) ?_
    | with_reducible refine Only.inc 1172 R.ME_COUNT_PASS_LATE_num (Sub.bits hr rfl) ?_
    | with_reducible refine State.post_only (Sub.trans rfl hp) (Sub.trans rfl hr) ?_
    | with_reducible refine State.meNoSample_only (Sub.trans rfl hp) (Sub.trans rfl hr) ?_
    | with_reducible refine Only.foldl ?_ ?_
    | intro _
    | (extract_lets +onlyGivenNames y; first | (refine Only.cut (x := y) ?_ ?_; subst y; rotate_left; clear_value y; intro _) | clear_value y)
    | dsimp only

theorem State.serveGathers_only {p r : Nat} {s x : State} {a1 : _} (hp : Sub 4433840024 p) (hr : Sub 0xe060000000000000000000000000000000000000000000000000000000000000000000000000000000000000000000000000000000000000000000000000038080300000000000000000000000000afff50000000000000000000000000000000000000000000000000000000000000000000000000000000000000000000000000000000000000000000000000000000000000000000000000000000000000100000000000000000000000000000000000000000000000000000000000000000000000000000000000000000000000000000000000000000000000000000000000 r) (h : Only p r s x) :
    Only p r s (State.serveGathers x a1) := by
  unfold State.serveGathers
  repeat' first
    | with_reducible assumption
    | with_reducible refine State.updMe_only (Sub.trans rfl hp) (Sub.trans rfl hr) ?_
    | with_reducible refine State.meMove_only (Sub.trans rfl hp) (Sub.trans rfl hr) ?_
    | with_reducible refine Only.ite ?_ ?_
    | with_reducible refine Only.foldl ?_ ?_
    | intro _
    | (extract_lets +onlyGivenNames y; first | (refine Only.cut (x := y) ?_ ?_; subst y; rotate_left; clear_value y; intro _) | clear_value y)
    | split
    | dsimp only

theorem State.endRun_only {p r : Nat} {s x : State} {a1 : _} (hp : Sub 6581368728 p) (hr : Sub 0xe060000000000000000000000000000000000000000000000000000000000000000000000000000000000000000000000000000000000000000000000000038080300000000000000000000000000afff50000000000000000000000003c00000060000000000000000000000000000000000000000000000000000048100800000000000000000000000000000000000000000000000000615e00000000000169000000000000000000000000000000000000000000000000000000000000000000000000000000000000000000000000000000000000000000000000000000000 r) (h : Only p r s x) :
    Only p r s (State.endRun x a1) := by
  unfold State.endRun
  repeat' first
    | with_reducible assumption
    | with_reducible refine State.tlEnd_only (Sub.trans rfl hp) (Sub.trans rfl hr) ?_
    | with_reducible refine State.fetched_only (Sub.trans rfl hp) (Sub.trans rfl hr) ?_ ?_
    | with_reducible refine State.serveGathers_only (Sub.trans rfl hp) (Sub.trans rfl hr) ?_
    | with_reducible refine Only.ite ?_ ?_
    | intro _
    | split
    | dsimp only

theorem State.mePower_only {p r : Nat} {s x : State} {a1 : _} (hp : Sub 196616 p) (hr : Sub 0x38080300000000000000000000000000003f10000000000000000000000000000000000000000000000000000000000000000000000000000000000000000000000000000000000000000000000000000000000000000000000000000000000000000000000000000000000000000000000000000000000000000000000000000000000000000000000000000000000000000000000000000000000000000000000000 r) (h : Only p r s x) :
    Only p r s (State.mePower x a1) := by
  unfold State.mePower
  repeat' first
    | with_reducible assumption
    | with_reducible refine State.meStop_only (Sub.trans rfl hp) (Sub.trans rfl hr) ?_
    | with_reducible refine Only.ite ?_ ?_
    | with_reducible refine Only.foldl ?_ ?_
    | intro _
    | (extract_lets +onlyGivenNames y; first | (refine Only.cut (x := y) ?_ ?_; subst y; rotate_left; clear_value y; intro _) | clear_value y)
    | split
    | dsimp only

theorem State.meCtrlAbort_only {p r : Nat} {s x : State} {a1 : _} (hp : Sub 196616 p) (hr : Sub 0x38080300000000000000000000000000003f10000000000000000000000000000000000000000000000000000000000000000000000000000000000000000000000000000000000000000000000000000000000000000000000000000000000000000000000000000000000000000000000000000000000000000000000000000000000000000000000000000000000000000000000000000000000000000000000000 r) (h : Only p r s x) :
    Only p r s (State.meCtrlAbort x a1) := by
  unfold State.meCtrlAbort
  repeat' first
    | with_reducible assumption
    | with_reducible refine State.completeDesc_only (Sub.trans rfl hp) (Sub.trans rfl hr) ?_
    | with_reducible refine State.meStop_only (Sub.trans rfl hp) (Sub.trans rfl hr) ?_
    | with_reducible refine Only.ite ?_ ?_
    | (extract_lets +onlyGivenNames y; first | (refine Only.cut (x := y) ?_ ?_; subst y; rotate_left; clear_value y; intro _) | clear_value y)
    | split
    | dsimp only

theorem execMeSignalEvent_only {p r : Nat} {s : State} {a0 a1 : _} (hp : Sub 8 p) (hr : Sub 0x40000000000000000000000000000000000000000000000000000000000000000000000000000000000000000000000000000000000000000000000000000000000000000000000000000000000000000000000000000000000000000000000000000000000000000000000000000000000000000000000000000000000000000000000000000000000000000000000000 r) :
    ∃ t, execMeSignalEvent a0 a1 s = .next t ∧ Only p r s t := by
  unfold execMeSignalEvent
  refine ⟨_, rfl, ?_⟩
  have h : Only p r s s := Only.refl
  repeat' first
    | with_reducible assumption
    | with_reducible refine State.meMark_only (Sub.trans rfl hp) (Sub.trans rfl hr) ?_

theorem execMeWaitTime_only {p r : Nat} {s : State} {a0 a1 : _} (hp : Sub 65536 p) (hr : Sub 0x400070000000000000000000000000000000000000000000000000000000000000000000000000000000000000000000000000000000000000000000000000000000000000000000000000000000000000000000000000000000000000000000000000000000000000000000000000000000000000000000000000000000000000000000000000000000000000000000000000 r) :
    ∃ t, execMeWaitTime a0 a1 s = .next t ∧ Only p r s t := by
  unfold execMeWaitTime
  refine ⟨_, rfl, ?_⟩
  have h : Only p r s s := Only.refl
  repeat' first
    | with_reducible assumption
    | with_reducible refine State.meWaitTime_only (Sub.trans rfl hp) (Sub.trans rfl hr) ?_

theorem State.mePassEnd_only {p r : Nat} {s x : State} {a1 : _} (hp : Sub 4391432 p) (hr : Sub 0xe060000000000000000000000000000000000000000000000000000000000000000000000000000000000000000000000000000000000000000000000000038080300000000000000000000000000103f10000000000000000000000000000000000000000000000000000000000000000000000000000000000000000000000000000000000000000000000000000000000000000000000000000000000000000000000000000000000000000000000000000000000000000000000000000000000000000000000000000000000000000000000000000000000000000000000000 r) (h : Only p r s x) :
    Only p r s (State.mePassEnd x a1) := by
  unfold State.mePassEnd
  repeat' first
    | with_reducible assumption
    | with_reducible refine State.mePassLate_only (Sub.trans rfl hp) (Sub.trans rfl hr) ?_
    | with_reducible refine State.detect_only (Sub.trans rfl hp) (Sub.trans rfl hr) ?_ ?_
    | with_reducible refine Only.ite ?_ ?_
    | intro _
    | split
    | dsimp only

theorem execTlEnd_only {p r : Nat} {s : State} {a0 : _} (hp : Sub 6581368728 p) (hr : Sub 0xe060000000000000000000000000000000000000000000000000000000000000000000000000000000000000000000000000000000000000000000000000038080300000000000000000000000000afff50000000000000000000000003c00000060000000000000000000000000000000000000000000000000000048100800000000000000000000000000000000000000000000000000615e00000000000169000000000000000000000000000000000000000000000000000000000000000000000000000000000000000000000000000000000000000000000000000000000 r) :
    ∃ t, execTlEnd a0 s = .next t ∧ Only p r s t := by
  unfold execTlEnd
  refine ⟨_, rfl, ?_⟩
  have h : Only p r s s := Only.refl
  repeat' first
    | with_reducible assumption
    | with_reducible refine State.endRun_only (Sub.trans rfl hp) (Sub.trans rfl hr) ?_

theorem execMeMoveCopy_only {p r : Nat} {s : State} {a0 a1 : _} (hp : Sub 4433840024 p) (hr : Sub 0xe060000000000000000000000000000000000000000000000000000000000000000000000000000000000000000000000000000000000000000000000000038080300000000000000000000000000afff50000000000000000000000000000000000000000000000000000000000000000000000000000000000000000000000000000000000000000000000000000000000000000000000000000000000000100000000000000000000000000000000000000000000000000000000000000000000000000000000000000000000000000000000000000000000000000000000000 r) :
    ∃ t, execMeMoveCopy a0 a1 s = .next t ∧ Only p r s t := by
  unfold execMeMoveCopy
  refine ⟨_, rfl, ?_⟩
  have h : Only p r s s := Only.refl
  repeat' first
    | with_reducible assumption
    | with_reducible refine State.meMove_only (Sub.trans rfl hp) (Sub.trans rfl hr) ?_

theorem execMeCtrlAbort_only {p r : Nat} {s : State} {a0 : _} (hp : Sub 196744 p) (hr : Sub 0x38080300000000000000000000000000003f10000000000000000000000000000000000000000000000000000000000000000000000000000000000000000000000000000000000000000000000000000000000000000000000000000000000000000000000000000000000000000000000000000000000000000000000000000000000000000000000000000000000000000000000000000000000000000000000000 r) :
    ∃ t, execMeCtrlAbort a0 s = .next t ∧ Only p r s t := by
  unfold execMeCtrlAbort
  refine ⟨_, rfl, ?_⟩
  have h : Only p r s s := Only.refl
  repeat' first
    | with_reducible assumption
    | with_reducible refine State.meCtrlAbort_only (Sub.trans rfl hp) (Sub.trans rfl hr) ?_
    | with_reducible refine State.opAction_only (Sub.trans rfl hp) (Sub.trans rfl hr) ?_ ?_
    | intro _
    | dsimp only

theorem State.meDone_only {p r : Nat} {s x : State} {a1 : _} (hp : Sub 196616 p) (hr : Sub 0x38080300000000000000000000000000003f10000000000000000000000000000000000000000000000000000000000000000000000000000000000000000000000000000000000000000000000000000000000000000000000000000000000000000000000000000000000000000000000000000000000000000000000000000000000000000000000000000000000000000000000000000000000000000000000000 r) (h : Only p r s x) :
    Only p r s (State.meDone x a1) := by
  unfold State.meDone
  repeat' first
    | with_reducible assumption
    | with_reducible refine State.meStop_only (Sub.trans rfl hp) (Sub.trans rfl hr) ?_
    | with_reducible refine Only.ite ?_ ?_
    | split

theorem execMeSignalDone_only {p r : Nat} {s : State} {a0 : _} (hp : Sub 196616 p) (hr : Sub 0x38080300000000000000000000000000003f10000000000000000000000000000000000000000000000000000000000000000000000000000000000000000000000000000000000000000000000000000000000000000000000000000000000000000000000000000000000000000000000000000000000000000000000000000000000000000000000000000000000000000000000000000000000000000000000000 r) :
    ∃ t, execMeSignalDone a0 s = .next t ∧ Only p r s t := by
  unfold execMeSignalDone
  refine ⟨_, rfl, ?_⟩
  have h : Only p r s s := Only.refl
  repeat' first
    | with_reducible assumption
    | with_reducible refine State.meDone_only (Sub.trans rfl hp) (Sub.trans rfl hr) ?_

theorem execMeSignalHandover_only {p r : Nat} {s : State} {a0 a1 : _} (hp : Sub 256 p) (hr : Sub 0x40000000000000000000000000000000000000000000000000000000000000000000000000000000000000000000000000000000000000000000000000000000000000000000000000000000000000000000000000000000000000000000000000000000000000000000000000000000000000000000000000000000000000000000000000000000000000000000000000 r) :
    ∃ t, execMeSignalHandover a0 a1 s = .next t ∧ Only p r s t := by
  unfold execMeSignalHandover
  refine ⟨_, rfl, ?_⟩
  have h : Only p r s s := Only.refl
  repeat' first
    | with_reducible assumption
    | with_reducible refine State.meHandover_only (Sub.trans rfl hp) (Sub.trans rfl hr) ?_

theorem execMeSignalFlag_only {p r : Nat} {s : State} {a0 a1 : _} (hp : Sub 65536 p) (hr : Sub 0x40000000000000000000000000000000000000000000000000000000000000000000000000000000000000000000000000000000000000000000000000000000000000000000000000000000000000000000000000000000000000000000000000000000000000000000000000000000000000000000000000000000000000000000000000000000000000000000000000 r) :
    ∃ t, execMeSignalFlag a0 a1 s = .next t ∧ Only p r s t := by
  unfold execMeSignalFlag
  refine ⟨_, rfl, ?_⟩
  have h : Only p r s s := Only.refl
  repeat' first
    | with_reducible assumption
    | with_reducible refine State.meFlag_only (Sub.trans rfl hp) (Sub.trans rfl hr) ?_

end Sys2Proof.Machine
end

