-- ==== Sys2Proof/Laws/OnlyHostRing.lean ====
section
/-! SUPPORT. Footprints of the operations of Machine/HostRing.lean. -/
namespace Sys2Proof.Machine
set_option linter.all false
set_option Elab.async false

theorem State.updHi_only {p r : Nat} {s x : State} {a1 : _} (hp : Sub 131072 p) (_hr : Sub 0 r) (h : Only p r s x)
    (hm : ∀ i : HostIf, (a1 i).mem = i.mem := by exact fun _ => rfl) :
    Only p r s (State.updHi x a1) :=
  Only.upd_hi (Sub.bits hp rfl) h (by rw [hm x.hi]; exact fun k => k)

theorem State.hostErr_only {p r : Nat} {s x : State} {a1 a2 : _} (hp : Sub 136 p) (hr : Sub 0x200000000000000000000000000000000000000000000000000000000000000000000000000000000000000000000000000000000000000000000000000000000000000000000000000000000000000000000000000000000000000000000000000000000000000000000000000000000000000000000000000000000000000000000000000000000000000000000000000000000000000000000000000000000 r) (h : Only p r s x) :
    Only p r s (State.hostErr x a1 a2) := by
  unfold State.hostErr
  repeat' first
    | with_reducible assumption
    | with_reducible refine Only.inc 1281 R.HI_STATUS_DESC_ERR_num (Sub.bits hr rfl) ?_
    | with_reducible refine State.postOnce_only (Sub.trans rfl hp) (Sub.trans rfl hr) ?_

theorem State.sqBell_only {p r : Nat} {s x : State} {a1 a2 : _} (hp : Sub 4325512 p) (hr : Sub 0xe060000000000000000000000000000000000000000000000000000000000000000000000000000000000000000000000000000000000000000000000000000000200000000000000000000000000000000000000000000000000000000000000000000000000000000000000000000000000000000000000000000000000000000000000000000000000000000000000000000000000000000000000000000000000000000000000000000000000000000000000000000000000000000000000000000000000000000000000000000000000000000000000000000000000000000 r) (h : Only p r s x) :
    Only p r s (State.sqBell x a1 a2) := by
  unfold State.sqBell
  repeat' first
    | with_reducible assumption
    | with_reducible refine State.updHi_only (Sub.trans rfl hp) (Sub.trans rfl hr) ?_
    | with_reducible refine Only.snd (q := (State.inject _ _ _)) (by assumption) (State.inject_only (Sub.trans rfl hp) (Sub.trans rfl hr) ?_)
    | with_reducible refine State.inject_only (Sub.trans rfl hp) (Sub.trans rfl hr) ?_
    | with_reducible refine State.hostErr_only (Sub.trans rfl hp) (Sub.trans rfl hr) ?_
    | with_reducible refine Only.ite ?_ ?_
    | intro _
    | (extract_lets +onlyGivenNames y; first | (refine Only.cut (x := y) ?_ ?_; subst y; rotate_left; clear_value y; intro _) | (refine Only.cut (x := y.1) ?_ ?_; subst y; rotate_left; clear_value y; intro _) | (refine Only.cut (x := y.2) ?_ ?_; subst y; rotate_left; clear_value y; intro _) | (refine Only.cut (x := y.2.2) ?_ ?_; subst y; rotate_left; clear_value y; intro _) | clear_value y)
    | split
    | dsimp only

theorem execSqDoorbell_only {p r : Nat} {s : State} {a0 a1 : _} (hp : Sub 4325512 p) (hr : Sub 0xe060000000000000000000000000000000000000000000000000000000000000000000000000000000000000000000000000000000000000000000000000000000200000000000000000000000000000000000000000000000000000000000000000000000000000000000000000000000000000000000000000000000000000000000000000000000000000000000000000000000000000000000000000000000000000000000000000000000000000000000000000000000000000000000000000000000000000000000000000000000000000000000000000000000000000000 r) :
    ∃ t, execSqDoorbell a0 a1 s = .next t ∧ Only p r s t := by
  unfold execSqDoorbell
  refine ⟨_, rfl, ?_⟩
  have h : Only p r s s := Only.refl
  repeat' first
    | with_reducible assumption
    | with_reducible refine State.sqBell_only (Sub.trans rfl hp) (Sub.trans rfl hr) ?_

theorem State.dropBells_only {p r : Nat} {s x : State} {a1 : _} (hp : Sub 131072 p) (hr : Sub 0 r) (h : Only p r s x) :
    Only p r s (State.dropBells x a1) := by
  unfold State.dropBells
  repeat' first
    | with_reducible assumption
    | with_reducible refine State.updHi_only (Sub.trans rfl hp) (Sub.trans rfl hr) ?_
    | intro _
    | (extract_lets +onlyGivenNames y; first | (refine Only.cut (x := y) ?_ ?_; subst y; rotate_left; clear_value y; intro _) | clear_value y)
    | dsimp only

theorem State.sqStop_only {p r : Nat} {s x : State} {a1 : _} (hp : Sub 131080 p) (hr : Sub 0x38090300000000000000000000000000000000000000000000000000000000000000000000000000000000000000000000000000000000000000000000000000000000000000000000000000000000000000000000000000000000000000000000000000000000000000000000000000000000000000000000000000000000000000000000000000000000000000000000000000000000000000000000000000000000 r) (h : Only p r s x) :
    Only p r s (State.sqStop x a1) := by
  unfold State.sqStop
  repeat' first
    | with_reducible assumption
    | with_reducible refine Only.setBit 1288 R.HI_SQ_CFG_EN_num (Sub.bits hr rfl) ?_
    | with_reducible refine State.dropBells_only (Sub.trans rfl hp) (Sub.trans rfl hr) ?_
    | with_reducible refine State.completeDesc_only (Sub.trans rfl hp) (Sub.trans rfl hr) ?_
    | with_reducible refine Only.ite ?_ ?_
    | with_reducible refine Only.foldl ?_ ?_
    | intro _
    | (extract_lets +onlyGivenNames y; first | (refine Only.cut (x := y) ?_ ?_; subst y; rotate_left; clear_value y; intro _) | clear_value y)
    | split
    | dsimp only

theorem State.dropLong_only {p r : Nat} {s x : State} {a1 : _} (_hp : Sub 0 p) (hr : Sub 0x180000000000000000000000000000000000000000000000000000000000000000000000000000000000000000000000000000000000000000000000000000000000000000000000000000000000000000000000000000000000000000000000000000000000000000000000000000000000000000000000000000000000000000000000000000000000000000000000000000000000000000000000000000000000000 r) (h : Only p r s x) :
    Only p r s (State.dropLong x a1) := by
  unfold State.dropLong
  repeat' first
    | with_reducible assumption
    | with_reducible refine Only.set 1303 R.HI_IMG_STAT_STATE_num (Sub.bits hr rfl) ?_
    | with_reducible refine Only.set 1304 R.HI_IMG_STAT_IMAGE_ID_num (Sub.bits hr rfl) ?_
    | with_reducible refine Only.ite ?_ ?_
    | (extract_lets +onlyGivenNames y; first | (refine Only.cut (x := y) ?_ ?_; subst y; rotate_left; clear_value y; intro _) | clear_value y)
    | split
    | dsimp only

theorem State.putLong_only {p r : Nat} {s x : State} {a1 : _} (hp : Sub 131072 p) (hr : Sub 0 r) (h : Only p r s x) :
    Only p r s (State.putLong x a1) := by
  unfold State.putLong
  repeat' first
    | with_reducible assumption
    | with_reducible refine State.updHi_only (Sub.trans rfl hp) (Sub.trans rfl hr) ?_
    | with_reducible refine Only.ite ?_ ?_
    | intro _
    | (extract_lets +onlyGivenNames y; first | (refine Only.cut (x := y) ?_ ?_; subst y; rotate_left; clear_value y; intro _) | clear_value y)
    | split
    | dsimp only

theorem State.writeStatus_only {p r : Nat} {s x : State} {a1 a2 a3 : _} (hp : Sub 131072 p) (hr : Sub 0 r) (h : Only p r s x) :
    Only p r s (State.writeStatus x a1 a2 a3) := by
  unfold State.writeStatus
  repeat' first
    | with_reducible assumption
    | with_reducible refine State.hostPutWords_only (Sub.trans rfl hp) (Sub.trans rfl hr) ?_
    | with_reducible refine State.putLong_only (Sub.trans rfl hp) (Sub.trans rfl hr) ?_
    | (extract_lets +onlyGivenNames y; first | (refine Only.cut (x := y) ?_ ?_; subst y; rotate_left; clear_value y; intro _) | clear_value y)
    | dsimp only

theorem State.abortLong_only {p r : Nat} {s x : State} {a1 : _} (hp : Sub 131072 p) (hr : Sub 0x180000000000000000000000000000000000000000000000000000000000000000000000000000000000000000000000000000000000000000000000000000000000000000000000000000000000000000000000000000000000000000000000000000000000000000000000000000000000000000000000000000000000000000000000000000000000000000000000000000000000000000000000000000000000000 r) (h : Only p r s x) :
    Only p r s (State.abortLong x a1) := by
  unfold State.abortLong
  repeat' first
    | with_reducible assumption
    | with_reducible refine State.dropLong_only (Sub.trans rfl hp) (Sub.trans rfl hr) ?_
    | with_reducible refine State.writeStatus_only (Sub.trans rfl hp) (Sub.trans rfl hr) ?_
    | with_reducible refine Only.ite ?_ ?_
    | (extract_lets +onlyGivenNames y; first | (refine Only.cut (x := y) ?_ ?_; subst y; rotate_left; clear_value y; intro _) | clear_value y)
    | split
    | dsimp only

theorem State.cqBell_only {p r : Nat} {s x : State} {a1 a2 : _} (hp : Sub 4325512 p) (hr : Sub 0xe060000000000000000000000000000000000000000000000000000000000000000000000000000000000000000000000000000000000000000000000000018000200000000000000000000000000000000000000000000000000000000000000000000000000000000000000000000000000000000000000000000000000000000000000000000000000000000000000000000000000000000000000000000000000000000000000000000000000000000000000000000000000000000000000000000000000000000000000000000000000000000000000000000000000000000 r) (h : Only p r s x) :
    Only p r s (State.cqBell x a1 a2) := by
  unfold State.cqBell
  repeat' first
    | with_reducible assumption
    | with_reducible refine State.updHi_only (Sub.trans rfl hp) (Sub.trans rfl hr) ?_
    | with_reducible refine Only.snd (q := (State.inject _ _ _)) (by assumption) (State.inject_only (Sub.trans rfl hp) (Sub.trans rfl hr) ?_)
    | with_reducible refine State.inject_only (Sub.trans rfl hp) (Sub.trans rfl hr) ?_
    | with_reducible refine State.hostErr_only (Sub.trans rfl hp) (Sub.trans rfl hr) ?_
    | with_reducible refine State.updCring_only (Sub.trans rfl hp) (Sub.trans rfl hr) ?_
    | with_reducible refine State.drainRing_only (Sub.trans rfl hp) (Sub.trans rfl hr) ?_
    | with_reducible refine Only.ite ?_ ?_
    | intro _
    | (extract_lets +onlyGivenNames y; first | (refine Only.cut (x := y) ?_ ?_; subst y; rotate_left; clear_value y; intro _) | (refine Only.cut (x := y.1) ?_ ?_; subst y; rotate_left; clear_value y; intro _) | (refine Only.cut (x := y.2) ?_ ?_; subst y; rotate_left; clear_value y; intro _) | (refine Only.cut (x := y.2.2) ?_ ?_; subst y; rotate_left; clear_value y; intro _) | clear_value y)
    | split
    | dsimp only

theorem State.passHead_only {p r : Nat} {s x : State} {a1 : _} (hp : Sub 131072 p) (hr : Sub 0x40000000000000000000000000000000000000000000000000000000000000000000000000000000000000000000000000000000000000000000000000000000000000000000000000000000000000000000000000000000000000000000000000000000000000000000000000000000000000000000000000000000000000000000000000000000000000000000000000000000000000000000000000000000000 r) (h : Only p r s x) :
    Only p r s (State.passHead x a1) := by
  unfold State.passHead
  repeat' first
    | with_reducible assumption
    | with_reducible refine Only.set 1290 R.HI_SQ_STATUS_HEAD_num (Sub.bits hr rfl) ?_
    | with_reducible refine State.updHi_only (Sub.trans rfl hp) (Sub.trans rfl hr) ?_
    | intro _
    | (extract_lets +onlyGivenNames y; first | (refine Only.cut (x := y) ?_ ?_; subst y; rotate_left; clear_value y; intro _) | clear_value y)
    | dsimp only

theorem State.msixWrite_only {p r : Nat} {s x : State} {a1 : _} (hp : Sub 131072 p) (hr : Sub 0 r) (h : Only p r s x) :
    Only p r s (State.msixWrite x a1) := by
  unfold State.msixWrite
  repeat' first
    | with_reducible assumption
    | with_reducible refine State.hostPutWords_only (Sub.trans rfl hp) (Sub.trans rfl hr) ?_

theorem State.sendVec_only {p r : Nat} {s x : State} {a1 : _} (hp : Sub 131072 p) (hr : Sub 0 r) (h : Only p r s x) :
    Only p r s (State.sendVec x a1) := by
  unfold State.sendVec
  repeat' first
    | with_reducible assumption
    | with_reducible refine State.updHi_only (Sub.trans rfl hp) (Sub.trans rfl hr) ?_
    | with_reducible refine State.msixWrite_only (Sub.trans rfl hp) (Sub.trans rfl hr) ?_
    | with_reducible refine Only.ite ?_ ?_
    | intro _
    | (extract_lets +onlyGivenNames y; first | (refine Only.cut (x := y) ?_ ?_; subst y; rotate_left; clear_value y; intro _) | clear_value y)
    | split
    | dsimp only

theorem State.ringMessage_only {p r : Nat} {s x : State} {a1 : _} (hp : Sub 131072 p) (hr : Sub 0 r) (h : Only p r s x) :
    Only p r s (State.ringMessage x a1) := by
  unfold State.ringMessage
  repeat' first
    | with_reducible assumption
    | with_reducible refine State.updCring_only (Sub.trans rfl hp) (Sub.trans rfl hr) ?_
    | with_reducible refine State.sendVec_only (Sub.trans rfl hp) (Sub.trans rfl hr) ?_
    | with_reducible refine Only.ite ?_ ?_
    | intro _
    | (extract_lets +onlyGivenNames y; first | (refine Only.cut (x := y) ?_ ?_; subst y; rotate_left; clear_value y; intro _) | clear_value y)
    | split
    | dsimp only

theorem State.cqStart_only {p r : Nat} {s x : State} {a1 : _} (hp : Sub 131072 p) (hr : Sub 0x18400000000000000000000000000000000000000000000000000000000000000000000000000000000000000000000000000000000000000000000000000000000000000000000000000000000000000000000000000000000000000000000000000000000000000000000000000000000000000000000000000000000000000000000000000000000000000000000000000000000000000000000000000000000000 r) (h : Only p r s x) :
    Only p r s (State.cqStart x a1) := by
  unfold State.cqStart
  repeat' first
    | with_reducible assumption
    | with_reducible refine Only.setBit 1294 R.HI_CQ_CFG_EN_num (Sub.bits hr rfl) ?_
    | with_reducible refine Only.set 1299 R.HI_CQ_STATUS_TAIL_num (Sub.bits hr rfl) ?_
    | with_reducible refine Only.set 1300 R.HI_CQ_STATUS_PHASE_num (Sub.bits hr rfl) ?_
    | with_reducible refine State.updHi_only (Sub.trans rfl hp) (Sub.trans rfl hr) ?_
    | with_reducible refine State.updCring_only (Sub.trans rfl hp) (Sub.trans rfl hr) ?_
    | with_reducible refine State.drainRing_only (Sub.trans rfl hp) (Sub.trans rfl hr) ?_
    | with_reducible refine Only.ite ?_ ?_
    | intro _
    | (extract_lets +onlyGivenNames y; first | (refine Only.cut (x := y) ?_ ?_; subst y; rotate_left; clear_value y; intro _) | clear_value y)
    | split
    | dsimp only

theorem execCqEnable_only {p r : Nat} {s : State} {a0 : _} (hp : Sub 131072 p) (hr : Sub 0x18400000000000000000000000000000000000000000000000000000000000000000000000000000000000000000000000000000000000000000000000000000000000000000000000000000000000000000000000000000000000000000000000000000000000000000000000000000000000000000000000000000000000000000000000000000000000000000000000000000000000000000000000000000000000 r) :
    ∃ t, execCqEnable a0 s = .next t ∧ Only p r s t := by
  unfold execCqEnable
  refine ⟨_, rfl, ?_⟩
  have h : Only p r s s := Only.refl
  repeat' first
    | with_reducible assumption
    | with_reducible refine State.cqStart_only (Sub.trans rfl hp) (Sub.trans rfl hr) ?_

theorem State.cqStop_only {p r : Nat} {s x : State} {a1 : _} (_hp : Sub 0 p) (hr : Sub 0x400000000000000000000000000000000000000000000000000000000000000000000000000000000000000000000000000000000000000000000000000000000000000000000000000000000000000000000000000000000000000000000000000000000000000000000000000000000000000000000000000000000000000000000000000000000000000000000000000000000000000000000000000000000000 r) (h : Only p r s x) :
    Only p r s (State.cqStop x a1) := by
  unfold State.cqStop
  repeat' first
    | with_reducible assumption
    | with_reducible refine Only.setBit 1294 R.HI_CQ_CFG_EN_num (Sub.bits hr rfl) ?_

theorem execSqDisable_only {p r : Nat} {s : State} {a0 : _} (hp : Sub 131080 p) (hr : Sub 0x38090300000000000000000000000000000000000000000000000000000000000000000000000000000000000000000000000000000000000000000000000000000000000000000000000000000000000000000000000000000000000000000000000000000000000000000000000000000000000000000000000000000000000000000000000000000000000000000000000000000000000000000000000000000000 r) :
    ∃ t, execSqDisable a0 s = .next t ∧ Only p r s t := by
  unfold execSqDisable
  refine ⟨_, rfl, ?_⟩
  have h : Only p r s s := Only.refl
  repeat' first
    | with_reducible assumption
    | with_reducible refine State.sqStop_only (Sub.trans rfl hp) (Sub.trans rfl hr) ?_

theorem execCqDisable_only {p r : Nat} {s : State} {a0 : _} (hp : Sub 0 p) (hr : Sub 0x400000000000000000000000000000000000000000000000000000000000000000000000000000000000000000000000000000000000000000000000000000000000000000000000000000000000000000000000000000000000000000000000000000000000000000000000000000000000000000000000000000000000000000000000000000000000000000000000000000000000000000000000000000000000 r) :
    ∃ t, execCqDisable a0 s = .next t ∧ Only p r s t := by
  unfold execCqDisable
  refine ⟨_, rfl, ?_⟩
  have h : Only p r s s := Only.refl
  repeat' first
    | with_reducible assumption
    | with_reducible refine State.cqStop_only (Sub.trans rfl hp) (Sub.trans rfl hr) ?_

theorem State.sqStart_only {p r : Nat} {s x : State} {a1 : _} (hp : Sub 131072 p) (hr : Sub 0xd0000000000000000000000000000000000000000000000000000000000000000000000000000000000000000000000000000000000000000000000000000000000000000000000000000000000000000000000000000000000000000000000000000000000000000000000000000000000000000000000000000000000000000000000000000000000000000000000000000000000000000000000000000000000 r) (h : Only p r s x) :
    Only p r s (State.sqStart x a1) := by
  unfold State.sqStart
  repeat' first
    | with_reducible assumption
    | with_reducible refine Only.setBit 1288 R.HI_SQ_CFG_EN_num (Sub.bits hr rfl) ?_
    | with_reducible refine Only.set 1290 R.HI_SQ_STATUS_HEAD_num (Sub.bits hr rfl) ?_
    | with_reducible refine Only.setBit 1291 R.HI_SQ_STATUS_HALTED_num (Sub.bits hr rfl) ?_
    | with_reducible refine State.dropBells_only (Sub.trans rfl hp) (Sub.trans rfl hr) ?_
    | with_reducible refine State.updHi_only (Sub.trans rfl hp) (Sub.trans rfl hr) ?_
    | with_reducible refine Only.ite ?_ ?_
    | intro _
    | (extract_lets +onlyGivenNames y; first | (refine Only.cut (x := y) ?_ ?_; subst y; rotate_left; clear_value y; intro _) | clear_value y)
    | split
    | dsimp only

theorem State.descErrInjected_only {p r : Nat} {s x : State} {a1 : _} (hp : Sub 131208 p) (hr : Sub 0x38080300000000000000000000000000000000000000000000000000000000000000000000000000000000000000000000000000000000000000000000000000000000000000000000000000000000000000000000000000000000000000000000000000000000000000000000000000000000000000000000000000000000000000000000000000000000000000000000000000000000000000000000000000000000 r) (h : Only p r s x) :
    Only p r s (State.descErrInjected x a1) := by
  unfold State.descErrInjected
  repeat' first
    | with_reducible assumption
    | with_reducible refine Only.inc 1281 R.HI_STATUS_DESC_ERR_num (Sub.bits hr rfl) ?_
    | with_reducible refine State.postOnce_only (Sub.trans rfl hp) (Sub.trans rfl hr) ?_
    | with_reducible refine State.completeDesc_only (Sub.trans rfl hp) (Sub.trans rfl hr) ?_

theorem State.takeDesc_only {p r : Nat} {s x : State} {a1 : _} (hp : Sub 4325512 p) (hr : Sub 0xe060000000000000000000000000000000000000000000000000000000000000000000000000000000000000000000000000000000000000000000000000038080300000000000000000000000000000000000000000000000000000000000000000000000000000000000000000000000000000000000000000000000000000000000000000000000000000000000000000000000000000000000000000000000000000000000000000000000000000000000000000000000000000000000000000000000000000000000000000000000000000000000000000000000000000000 r) (h : Only p r s x) :
    Only p r s (State.takeDesc x a1) := by
  unfold State.takeDesc
  repeat' first
    | with_reducible assumption
    | with_reducible refine Only.snd (q := (State.inject _ _ _)) (by assumption) (State.inject_only (Sub.trans rfl hp) (Sub.trans rfl hr) ?_)
    | with_reducible refine State.inject_only (Sub.trans rfl hp) (Sub.trans rfl hr) ?_
    | with_reducible refine State.descErrInjected_only (Sub.trans rfl hp) (Sub.trans rfl hr) ?_
    | with_reducible refine State.descErr_only (Sub.trans rfl hp) (Sub.trans rfl hr) ?_
    | with_reducible refine State.completeDesc_only (Sub.trans rfl hp) (Sub.trans rfl hr) ?_
    | with_reducible refine State.updHi_only (Sub.trans rfl hp) (Sub.trans rfl hr) ?_
    | with_reducible refine Only.ite ?_ ?_
    | intro _
    | (extract_lets +onlyGivenNames y; first | (refine Only.cut (x := y) ?_ ?_; subst y; rotate_left; clear_value y; intro _) | (refine Only.cut (x := y.1) ?_ ?_; subst y; rotate_left; clear_value y; intro _) | (refine Only.cut (x := y.2) ?_ ?_; subst y; rotate_left; clear_value y; intro _) | (refine Only.cut (x := y.2.2) ?_ ?_; subst y; rotate_left; clear_value y; intro _) | clear_value y)
    | split
    | dsimp only

theorem State.fetchDesc_only {p r : Nat} {s x : State} {a1 a2 : _} (hp : Sub 4325512 p) (hr : Sub 0xe0600000000000000000000000000000000000000000000000000000000000000000000000000000000000000000000000000000000000000000000000000380c0300000000000000000000000000000000000000000000000000000000000000000000000000000000000000000000000000000000000000000000000000000000000000000000000000000000000000000000000000000000000000000000000000000000000000000000000000000000000000000000000000000000000000000000000000000000000000000000000000000000000000000000000000000000 r) (h : Only p r s x) :
    Only p r s (State.fetchDesc x a1 a2) := by
  unfold State.fetchDesc
  repeat' first
    | with_reducible assumption
    | with_reducible refine Only.snd (q := (State.inject _ _ _)) (by assumption) (State.inject_only (Sub.trans rfl hp) (Sub.trans rfl hr) ?_)
    | with_reducible refine State.inject_only (Sub.trans rfl hp) (Sub.trans rfl hr) ?_
    | with_reducible refine State.passHead_only (Sub.trans rfl hp) (Sub.trans rfl hr) ?_
    | with_reducible refine State.takeDesc_only (Sub.trans rfl hp) (Sub.trans rfl hr) ?_
    | with_reducible refine State.dmaError_only (Sub.trans rfl hp) (Sub.trans rfl hr) ?_
    | with_reducible refine Only.inc 1281 R.HI_STATUS_DESC_ERR_num (Sub.bits hr rfl) ?_
    | with_reducible refine State.post_only (Sub.trans rfl hp) (Sub.trans rfl hr) ?_
    | with_reducible refine Only.ite ?_ ?_
    | (extract_lets +onlyGivenNames y; first | (refine Only.cut (x := y) ?_ ?_; subst y; rotate_left; clear_value y; intro _) | (refine Only.cut (x := y.1) ?_ ?_; subst y; rotate_left; clear_value y; intro _) | (refine Only.cut (x := y.2) ?_ ?_; subst y; rotate_left; clear_value y; intro _) | (refine Only.cut (x := y.2.2) ?_ ?_; subst y; rotate_left; clear_value y; intro _) | clear_value y)
    | split
    | dsimp only

theorem State.dropQueued_only {p r : Nat} {s x : State} (hp : Sub 256 p) (hr : Sub 0 r) (h : Only p r s x) :
    Only p r s (State.dropQueued x) := by
  unfold State.dropQueued
  repeat' first
    | with_reducible assumption
    | with_reducible refine State.updPort_only (Sub.trans rfl hp) (Sub.trans rfl hr) ?_
    | with_reducible refine Only.foldl ?_ ?_
    | intro _
    | (extract_lets +onlyGivenNames y; first | (refine Only.cut (x := y) ?_ ?_; subst y; rotate_left; clear_value y; intro _) | clear_value y)
    | dsimp only
    | (first | (with_reducible refine Only.upd_cb (Sub.bits hp rfl) ?_; first | with_reducible assumption | with_reducible refine State.updPort_only (Sub.trans rfl hp) (Sub.trans rfl hr) ?_))

theorem State.resetHost_only {p r : Nat} {s x : State} (hp : Sub 393482 p) (hr : Sub 0x180000000000000000000000000000000000000000000000000000000000000000000000000000000000000000000000000000000000000000000000000000000000000000000000000000000000000000000000000000000000000000000000000000000000000000000000000000000000000000000000000000000000000000000000000000000000000000000000000000000000000000000000000000000000000 r) (h : Only p r s x) :
    Only p r s (State.resetHost x) := by
  have h1 : Only p r s (x.hi.longs.foldl State.abortLong x).dropQueued :=
    State.dropQueued_only (Sub.trans rfl hp) (Sub.trans rfl hr)
      (Only.foldl h fun _ _ hy => State.abortLong_only (Sub.trans rfl hp) (Sub.trans rfl hr) hy)
  have key : ∀ y : State, Only p r s y → Only p r s ({ y with regs := { y.regs with hi := y.regs.hi.filter (fun e => !ringReg e.1) }, gr := { y.gr with heldWrites := [] } } : State) := by
    intro y hy
    have h2 : Only p r s ({ y with regs := { y.regs with hi := y.regs.hi.filter (fun e => !ringReg e.1) } } : State) :=
      Only.upd_regs (Sub.bits hp rfl) hy fun k => soundRegs_dropHi k _
    generalize { y.regs with hi := y.regs.hi.filter (fun e => !ringReg e.1) } = v at h2
    exact Only.upd_gr (x := { y with regs := v }) (Sub.bits hp rfl) h2
  unfold State.resetHost
  exact State.post_only (Sub.trans rfl hp) (Sub.trans rfl hr)
    (State.updHi_only (Sub.trans rfl hp) (Sub.trans rfl hr) (key _ h1))

theorem execHostReset_only {p r : Nat} {s : State} (hp : Sub 393482 p) (hr : Sub 0x180000000000000000000000000000000000000000000000000000000000000000000000000000000000000000000000000000000000000000000000000000000000000000000000000000000000000000000000000000000000000000000000000000000000000000000000000000000000000000000000000000000000000000000000000000000000000000000000000000000000000000000000000000000000000 r) :
    ∃ t, execHostReset s = .next t ∧ Only p r s t := by
  unfold execHostReset
  refine ⟨_, rfl, ?_⟩
  have h : Only p r s s := Only.refl
  repeat' first
    | with_reducible assumption
    | with_reducible refine State.resetHost_only (Sub.trans rfl hp) (Sub.trans rfl hr) ?_

theorem execSqEnable_only {p r : Nat} {s : State} {a0 : _} (hp : Sub 131072 p) (hr : Sub 0xd0000000000000000000000000000000000000000000000000000000000000000000000000000000000000000000000000000000000000000000000000000000000000000000000000000000000000000000000000000000000000000000000000000000000000000000000000000000000000000000000000000000000000000000000000000000000000000000000000000000000000000000000000000000000 r) :
    ∃ t, execSqEnable a0 s = .next t ∧ Only p r s t := by
  unfold execSqEnable
  refine ⟨_, rfl, ?_⟩
  have h : Only p r s s := Only.refl
  repeat' first
    | with_reducible assumption
    | with_reducible refine State.sqStart_only (Sub.trans rfl hp) (Sub.trans rfl hr) ?_

theorem execDescriptorFetch_only {p r : Nat} {s : State} {a0 a1 : _} (hp : Sub 4325512 p) (hr : Sub 0xe0600000000000000000000000000000000000000000000000000000000000000000000000000000000000000000000000000000000000000000000000000380c0300000000000000000000000000000000000000000000000000000000000000000000000000000000000000000000000000000000000000000000000000000000000000000000000000000000000000000000000000000000000000000000000000000000000000000000000000000000000000000000000000000000000000000000000000000000000000000000000000000000000000000000000000000000 r) :
    ∃ t, execDescriptorFetch a0 a1 s = .next t ∧ Only p r s t := by
  unfold execDescriptorFetch
  refine ⟨_, rfl, ?_⟩
  have h : Only p r s s := Only.refl
  repeat' first
    | with_reducible assumption
    | with_reducible refine State.fetchDesc_only (Sub.trans rfl hp) (Sub.trans rfl hr) ?_

theorem execMsixMessage_only {p r : Nat} {s : State} {a0 : _} (hp : Sub 131072 p) (hr : Sub 0 r) :
    ∃ t, execMsixMessage a0 s = .next t ∧ Only p r s t := by
  unfold execMsixMessage
  refine ⟨_, rfl, ?_⟩
  have h : Only p r s s := Only.refl
  repeat' first
    | with_reducible assumption
    | with_reducible refine State.ringMessage_only (Sub.trans rfl hp) (Sub.trans rfl hr) ?_

theorem execNop_only {p r : Nat} {s : State} {a0 : _} (hp : Sub 131208 p) (hr : Sub 0x38080300000000000000000000000000000000000000000000000000000000000000000000000000000000000000000000000000000000000000000000000000000000000000000000000000000000000000000000000000000000000000000000000000000000000000000000000000000000000000000000000000000000000000000000000000000000000000000000000000000000000000000000000000000000 r) :
    ∃ t, execNop a0 s = .next t ∧ Only p r s t := by
  unfold execNop
  refine ⟨_, rfl, ?_⟩
  have h : Only p r s s := Only.refl
  repeat' first
    | with_reducible assumption
    | with_reducible refine State.completeDesc_only (Sub.trans rfl hp) (Sub.trans rfl hr) ?_
    | with_reducible refine State.action_only (Sub.trans rfl hp) (Sub.trans rfl hr) ?_ ?_
    | intro _
    | dsimp only

theorem State.badAccess_only {p r : Nat} {s x : State} {a1 : _} (hp : Sub 4194440 p) (hr : Sub 0xe060000000000000000000000000000000000000000000000000000000000000000000000000000000000000000000000000000000000000000000000000000000200000000000000000000000000000000000000000000000000000000000000000000000000000000000000000000000000000000000000000000000000000000000000000000000000000000000000000000000000000000000000000000000000000000000000000000000000000000000000000000000000000000000000000000000000000000000000000000000000000000000000000000000000000000 r) (h : Only p r s x) :
    Only p r s (State.badAccess x a1) := by
  unfold State.badAccess
  repeat' first
    | with_reducible assumption
    | with_reducible refine Only.snd (q := (State.inject _ _ _)) (by assumption) (State.inject_only (Sub.trans rfl hp) (Sub.trans rfl hr) ?_)
    | with_reducible refine State.inject_only (Sub.trans rfl hp) (Sub.trans rfl hr) ?_
    | with_reducible refine State.hostErr_only (Sub.trans rfl hp) (Sub.trans rfl hr) ?_
    | with_reducible refine Only.ite ?_ ?_
    | (extract_lets +onlyGivenNames y; first | (refine Only.cut (x := y) ?_ ?_; subst y; rotate_left; clear_value y; intro _) | (refine Only.cut (x := y.1) ?_ ?_; subst y; rotate_left; clear_value y; intro _) | (refine Only.cut (x := y.2) ?_ ?_; subst y; rotate_left; clear_value y; intro _) | (refine Only.cut (x := y.2.2) ?_ ?_; subst y; rotate_left; clear_value y; intro _) | clear_value y)
    | split
    | dsimp only

theorem execBar0BadAccess_only {p r : Nat} {s : State} {a0 : _} (hp : Sub 4194440 p) (hr : Sub 0xe060000000000000000000000000000000000000000000000000000000000000000000000000000000000000000000000000000000000000000000000000000000200000000000000000000000000000000000000000000000000000000000000000000000000000000000000000000000000000000000000000000000000000000000000000000000000000000000000000000000000000000000000000000000000000000000000000000000000000000000000000000000000000000000000000000000000000000000000000000000000000000000000000000000000000000 r) :
    ∃ t, execBar0BadAccess a0 s = .next t ∧ Only p r s t := by
  unfold execBar0BadAccess
  refine ⟨_, rfl, ?_⟩
  have h : Only p r s s := Only.refl
  repeat' first
    | with_reducible assumption
    | with_reducible refine State.badAccess_only (Sub.trans rfl hp) (Sub.trans rfl hr) ?_

theorem execCqDoorbell_only {p r : Nat} {s : State} {a0 a1 : _} (hp : Sub 4325512 p) (hr : Sub 0xe060000000000000000000000000000000000000000000000000000000000000000000000000000000000000000000000000000000000000000000000000018000200000000000000000000000000000000000000000000000000000000000000000000000000000000000000000000000000000000000000000000000000000000000000000000000000000000000000000000000000000000000000000000000000000000000000000000000000000000000000000000000000000000000000000000000000000000000000000000000000000000000000000000000000000000 r) :
    ∃ t, execCqDoorbell a0 a1 s = .next t ∧ Only p r s t := by
  unfold execCqDoorbell
  refine ⟨_, rfl, ?_⟩
  have h : Only p r s s := Only.refl
  repeat' first
    | with_reducible assumption
    | with_reducible refine State.cqBell_only (Sub.trans rfl hp) (Sub.trans rfl hr) ?_

theorem State.msixPut_only {p r : Nat} {s x : State} {a1 a2 : _} (hp : Sub 131072 p) (hr : Sub 0 r) (h : Only p r s x) :
    Only p r s (State.msixPut x a1 a2) := by
  unfold State.msixPut
  repeat' first
    | with_reducible assumption
    | with_reducible refine State.updHi_only (Sub.trans rfl hp) (Sub.trans rfl hr) ?_
    | with_reducible refine State.msixWrite_only (Sub.trans rfl hp) (Sub.trans rfl hr) ?_
    | with_reducible refine Only.ite ?_ ?_
    | intro _
    | (extract_lets +onlyGivenNames y; first | (refine Only.cut (x := y) ?_ ?_; subst y; rotate_left; clear_value y; intro _) | clear_value y)
    | split
    | dsimp only

end Sys2Proof.Machine
end

