-- ==== Sys2Proof/Laws/OnlySolver.lean ====
section
/-! SUPPORT. Footprints of the operations of Machine/Solver.lean. -/
namespace Sys2Proof.Machine
set_option linter.all false
set_option Elab.async false

theorem State.dropSolve_only {p r : Nat} {s x : State} {a1 : _} (hp : Sub 4236440 p) (hr : Sub 0xe060000000000000000000000000000000000000000000000000000000000000000000000000000000000000000000000000000000000000000000000000000000000000000000000000000000000000000000000000000000000000003c00000060000000000000000000000000000000000000000000000000000048100800000000000000000000000000000000000000000000000000000000000000000001000000000000000000000000000000000000000000000000000000000000000000000000000000000000000000000000000000000000000000000000000000000 r) (h : Only p r s x) :
    Only p r s (State.dropSolve x a1) := by
  unfold State.dropSolve
  repeat' first
    | with_reducible assumption
    | with_reducible refine State.updEng_only (Sub.trans rfl hp) (Sub.trans rfl hr) ?_
    | with_reducible refine State.unitEnd_only (Sub.trans rfl hp) (Sub.trans rfl hr) ?_
    | intro _
    | (extract_lets +onlyGivenNames y; first | (refine Only.cut (x := y) ?_ ?_; subst y; rotate_left; clear_value y; intro _) | clear_value y)
    | dsimp only

theorem State.abandonSolve_only {p r : Nat} {s x : State} {a1 : _} (hp : Sub 4236440 p) (hr : Sub 0xe060000000000000000000000000000000000000000000000000000000000000000000000000000000000000000000000000000000000000000000000000000000000000000000000000000000000000000000000000000000000000003c00000060000000000000000000000000000000000000000000000000000048100800000000000000000000000000000000000000000000000000000000000000000001000000000000000000000000000000000000000000000000000000000000000000000000000000000000000000000000000000000000000000000000000000000 r) (h : Only p r s x) :
    Only p r s (State.abandonSolve x a1) := by
  unfold State.abandonSolve
  repeat' first
    | with_reducible assumption
    | with_reducible refine State.dropSolve_only (Sub.trans rfl hp) (Sub.trans rfl hr) ?_
    | with_reducible refine Only.ite ?_ ?_
    | split

theorem State.scrubScratch_only {p r : Nat} {s x : State} {a1 a2 : _} (hp : Sub 4299203736 p) (hr : Sub 0xe060000000000000000000000000000000000000000000000000000000000000000000000000000000000000000000000000000000000000000000000000000000000000000000000000000000000000000000000000000000000000003c00000060000000000000000000000000000000000000000000000000000048100a00000000000000000000000000000000000000000000000000000000000000000001000000000000000000000000000000000000000000000000000000000000000000000000000000000000000000000000000000000000000000000000000000000 r) (h : Only p r s x) :
    Only p r s (State.scrubScratch x a1 a2) := by
  unfold State.scrubScratch
  repeat' first
    | with_reducible assumption
    | with_reducible refine State.heal_only (Sub.trans rfl hp) (Sub.trans rfl hr) ?_
    | with_reducible refine Only.snd (q := (State.inject _ _ _)) (by assumption) (State.inject_only (Sub.trans rfl hp) (Sub.trans rfl hr) ?_)
    | with_reducible refine State.inject_only (Sub.trans rfl hp) (Sub.trans rfl hr) ?_
    | with_reducible refine State.abandonSolve_only (Sub.trans rfl hp) (Sub.trans rfl hr) ?_
    | with_reducible refine State.eccFatal_only (Sub.trans rfl hp) (Sub.trans rfl hr) ?_
    | with_reducible refine Only.inc 789 R.SV_COUNT_ECC_CORR_num (Sub.bits hr rfl) ?_
    | with_reducible refine State.postOnce_only (Sub.trans rfl hp) (Sub.trans rfl hr) ?_
    | with_reducible refine Only.ite ?_ ?_
    | (extract_lets +onlyGivenNames y; first | (refine Only.cut (x := y) ?_ ?_; subst y; rotate_left; clear_value y; intro _) | (refine Only.cut (x := y.1) ?_ ?_; subst y; rotate_left; clear_value y; intro _) | (refine Only.cut (x := y.2) ?_ ?_; subst y; rotate_left; clear_value y; intro _) | (refine Only.cut (x := y.2.2) ?_ ?_; subst y; rotate_left; clear_value y; intro _) | clear_value y)
    | split
    | dsimp only

theorem State.readScratch_only {p r : Nat} {s x : State} {a1 : _} (hp : Sub 4299203736 p) (hr : Sub 0xe060000000000000000000000000000000000000000000000000000000000000000000000000000000000000000000000000000000000000000000000000000000000000000000000000000000000000000000000000000000000000003c00000060000000000000000000000000000000000000000000000000000048100a00000000000000000000000000000000000000000000000000000000000000000001000000000000000000000000000000000000000000000000000000000000000000000000000000000000000000000000000000000000000000000000000000000 r) (h : Only p r s x) :
    Only p r s (State.readScratch x a1) := by
  unfold State.readScratch
  repeat' first
    | with_reducible assumption
    | with_reducible refine State.scrubScratch_only (Sub.trans rfl hp) (Sub.trans rfl hr) ?_
    | with_reducible refine Only.foldl ?_ ?_
    | intro _
    | dsimp only

theorem State.certViolation_only {p r : Nat} {s x : State} {a1 a2 a3 a4 a5 a6 : _} (hp : Sub 8 p) (hr : Sub 0xf8000000000000000000000000000000000000000000000000000000000000000000000000000000000000000000000000000000000000000000000000000000000000000000000000000000000000000000000000000000000000000000000000000 r) (h : Only p r s x) :
    Only p r s (State.certViolation x a1 a2 a3 a4 a5 a6) := by
  unfold State.certViolation
  repeat' first
    | with_reducible assumption
    | with_reducible refine Only.set 783 R.SV_CERT_STAT_VAR_num (Sub.bits hr rfl) ?_
    | with_reducible refine Only.set 784 R.SV_CERT_STAT_SUB_num (Sub.bits hr rfl) ?_
    | with_reducible refine Only.set 785 R.SV_CERT_STAT_KIND_num (Sub.bits hr rfl) ?_
    | with_reducible refine Only.seti 786 R.SV_CERT_VAL_num (Sub.bits hr rfl) ?_
    | with_reducible refine Only.inc 787 R.SV_COUNT_CERT_VIOL_num (Sub.bits hr rfl) ?_
    | with_reducible refine State.post_only (Sub.trans rfl hp) (Sub.trans rfl hr) ?_
    | (extract_lets +onlyGivenNames y; first | (refine Only.cut (x := y) ?_ ?_; subst y; rotate_left; clear_value y; intro _) | clear_value y)
    | dsimp only

theorem State.settleStop_only {p r : Nat} {s x : State} {a1 : _} (hp : Sub 8192 p) (hr : Sub 0x80000000000000000000000000000000000000000000000000000000000000000000000000000000000000000000000000000000000000000000000000000000000000000000000000000000000000000000000000000000000000000000000000000000 r) (h : Only p r s x) :
    Only p r s (State.settleStop x a1) := by
  unfold State.settleStop
  repeat' first
    | with_reducible assumption
    | with_reducible refine State.updEng_only (Sub.trans rfl hp) (Sub.trans rfl hr) ?_
    | with_reducible refine Only.set 799 R.SV_STATUS_num (Sub.bits hr rfl) ?_
    | with_reducible refine Only.ite ?_ ?_
    | intro _
    | (extract_lets +onlyGivenNames y; first | (refine Only.cut (x := y) ?_ ?_; subst y; rotate_left; clear_value y; intro _) | clear_value y)
    | split
    | dsimp only

theorem State.writeBlocks_only {p r : Nat} {s x : State} {a1 a2 a3 : _} (hp : Sub 262144 p) (hr : Sub 0 r) (h : Only p r s x) :
    Only p r s (State.writeBlocks x a1 a2 a3) := by
  unfold State.writeBlocks
  repeat' first
    | with_reducible assumption
    | with_reducible refine State.grPutList_only (Sub.trans rfl hp) (Sub.trans rfl hr) ?_
    | with_reducible refine Only.foldl ?_ ?_
    | intro _
    | dsimp only

theorem State.writeCe_only {p r : Nat} {s x : State} {a1 : _} (hp : Sub 262144 p) (hr : Sub 0 r) (h : Only p r s x) :
    Only p r s (State.writeCe x a1) := by
  unfold State.writeCe
  repeat' first
    | with_reducible assumption
    | with_reducible refine State.grPut_only (Sub.trans rfl hp) (Sub.trans rfl hr) ?_
    | with_reducible refine State.grPutList_only (Sub.trans rfl hp) (Sub.trans rfl hr) ?_
    | with_reducible refine Only.ite ?_ ?_
    | with_reducible refine Only.foldl ?_ ?_
    | intro _
    | (extract_lets +onlyGivenNames y; first | (refine Only.cut (x := y) ?_ ?_; subst y; rotate_left; clear_value y; intro _) | clear_value y)
    | split
    | dsimp only

theorem State.keepPlan_only {p r : Nat} {s x : State} {a1 a2 a3 : _} (hp : Sub 8192 p) (hr : Sub 0 r) (h : Only p r s x) :
    Only p r s (State.keepPlan x a1 a2 a3) := by
  unfold State.keepPlan
  repeat' first
    | with_reducible assumption
    | with_reducible refine State.updEng_only (Sub.trans rfl hp) (Sub.trans rfl hr) ?_
    | with_reducible refine Only.ite ?_ ?_
    | intro _
    | (extract_lets +onlyGivenNames y; first | (refine Only.cut (x := y) ?_ ?_; subst y; rotate_left; clear_value y; intro _) | clear_value y)
    | split
    | dsimp only

theorem State.countOutcome_only {p r : Nat} {s x : State} {a1 a2 : _} (_hp : Sub 0 p) (hr : Sub 0x37000000000000000000000000000000000000000000000000000000000000000000000000000000000000000000000000000000000000000000000000000000000000000000000000000000000000000000000000000000000000000000000000000000000 r) (h : Only p r s x) :
    Only p r s (State.countOutcome x a1 a2) := by
  unfold State.countOutcome
  repeat' first
    | with_reducible assumption
    | with_reducible refine Only.inc 804 R.SV_RT_COUNT_A_ACCEPTED_num (Sub.bits hr rfl) ?_
    | with_reducible refine Only.inc 805 R.SV_RT_COUNT_A_SHIFTED_num (Sub.bits hr rfl) ?_
    | with_reducible refine Only.inc 806 R.SV_RT_COUNT_A_INFEASIBLE_num (Sub.bits hr rfl) ?_
    | with_reducible refine Only.inc 808 R.SV_RT_COUNT_B_CUT_MIDFACTOR_num (Sub.bits hr rfl) ?_
    | with_reducible refine Only.inc 809 R.SV_RT_COUNT_B_CUT_OTHER_num (Sub.bits hr rfl) ?_
    | with_reducible refine Only.ite ?_ ?_
    | (extract_lets +onlyGivenNames y; first | (refine Only.cut (x := y) ?_ ?_; subst y; rotate_left; clear_value y; intro _) | clear_value y)
    | split
    | dsimp only

theorem State.deliver_only {p r : Nat} {s x : State} {a1 a2 a3 a4 a5 a6 : _} (hp : Sub 4498584 p) (hr : Sub 0xe060000000000000000000000000000000000000000000000000000000000000000000000000000000000000000000000000000000000000000000000000000000000000000000000000000000000000000000000000000000000000003c0000006000000000000000000000000000000000000000000000000000007f180c07800000000000000000000000000000000000000000000000000000000000000001000000000000000000000000000000000000000000000000000000000000000000000000000000000000000000000000000000000000000000000000000000000 r) (h : Only p r s x) :
    Only p r s (State.deliver x a1 a2 a3 a4 a5 a6) := by
  unfold State.deliver
  repeat' first
    | with_reducible assumption
    | with_reducible refine State.updEng_only (Sub.trans rfl hp) (Sub.trans rfl hr) ?_
    | with_reducible refine State.settleStop_only (Sub.trans rfl hp) (Sub.trans rfl hr) ?_
    | with_reducible refine State.writeBlocks_only (Sub.trans rfl hp) (Sub.trans rfl hr) ?_
    | with_reducible refine State.writeCe_only (Sub.trans rfl hp) (Sub.trans rfl hr) ?_
    | with_reducible refine State.keepPlan_only (Sub.trans rfl hp) (Sub.trans rfl hr) ?_
    | with_reducible refine Only.set 799 R.SV_STATUS_num (Sub.bits hr rfl) ?_
    | with_reducible refine State.countOutcome_only (Sub.trans rfl hp) (Sub.trans rfl hr) ?_
    | with_reducible refine Only.set 781 R.SV_ITER_STAT_ITER_LAST_num (Sub.bits hr rfl) ?_
    | with_reducible refine Only.set 782 R.SV_ITER_STAT_PIV_FLOORS_num (Sub.bits hr rfl) ?_
    | with_reducible refine Only.inc 790 R.SV_COUNT_PIV_FLOOR_num (Sub.bits hr rfl) ?_
    | with_reducible refine Only.set 779 R.SV_RUN_LAST_num (Sub.bits hr rfl) ?_
    | with_reducible refine Only.raiseTo 780 R.SV_RUN_MAX_num (Sub.bits hr rfl) ?_
    | with_reducible refine State.unitEnd_only (Sub.trans rfl hp) (Sub.trans rfl hr) ?_
    | with_reducible refine Only.ite ?_ ?_
    | intro _
    | (extract_lets +onlyGivenNames y; first | (refine Only.cut (x := y) ?_ ?_; subst y; rotate_left; clear_value y; intro _) | clear_value y)
    | split
    | dsimp only

theorem State.abandonCert_only {p r : Nat} {s x : State} {a1 a2 a3 : _} (hp : Sub 4498584 p) (hr : Sub 0xe060000000000000000000000000000000000000000000000000000000000000000000000000000000000000000000000000000000000000000000000000000000000000000000000000000000000000000000000000000000000000003c0000006000000000000000000000000000000000000000000000000000007f180cff800000000000000000000000000000000000000000000000000000000000000001000000000000000000000000000000000000000000000000000000000000000000000000000000000000000000000000000000000000000000000000000000000 r) (h : Only p r s x) :
    Only p r s (State.abandonCert x a1 a2 a3) := by
  unfold State.abandonCert
  repeat' first
    | with_reducible assumption
    | with_reducible refine State.certViolation_only (Sub.trans rfl hp) (Sub.trans rfl hr) ?_
    | with_reducible refine State.deliver_only (Sub.trans rfl hp) (Sub.trans rfl hr) ?_

theorem State.cutEarly_only {p r : Nat} {s x : State} {a1 a2 : _} (hp : Sub 4498584 p) (hr : Sub 0xe060000000000000000000000000000000000000000000000000000000000000000000000000000000000000000000000000000000000000000000000000000000000000000000000000000000000000000000000000000000000000003c0000006000000000000000000000000000000000000000000000000000007f180c07800000000000000000000000000000000000000000000000000000000000000001000000000000000000000000000000000000000000000000000000000000000000000000000000000000000000000000000000000000000000000000000000000 r) (h : Only p r s x) :
    Only p r s (State.cutEarly x a1 a2) := by
  unfold State.cutEarly
  repeat' first
    | with_reducible assumption
    | with_reducible refine State.postOnce_only (Sub.trans rfl hp) (Sub.trans rfl hr) ?_
    | with_reducible refine State.deliver_only (Sub.trans rfl hp) (Sub.trans rfl hr) ?_

theorem State.overflow_only {p r : Nat} {s x : State} {a1 a2 a3 : _} (hp : Sub 24 p) (hr : Sub 0x128000000000000000000000000000000000000000000000000000000000000000000000000000000000000000000000000000000000000000000000000000000000000000000000000000000000000000000000000000000000000000000000000000 r) (h : Only p r s x) :
    Only p r s (State.overflow x a1 a2 a3) := by
  unfold State.overflow
  repeat' first
    | with_reducible assumption
    | with_reducible refine Only.set 783 R.SV_CERT_STAT_VAR_num (Sub.bits hr rfl) ?_
    | with_reducible refine Only.set 785 R.SV_CERT_STAT_KIND_num (Sub.bits hr rfl) ?_
    | with_reducible refine Only.inc 788 R.SV_COUNT_OVF_num (Sub.bits hr rfl) ?_
    | with_reducible refine State.post_only (Sub.trans rfl hp) (Sub.trans rfl hr) ?_
    | with_reducible refine State.fault_only (Sub.trans rfl hp) (Sub.trans rfl hr) ?_
    | (extract_lets +onlyGivenNames y; first | (refine Only.cut (x := y) ?_ ?_; subst y; rotate_left; clear_value y; intro _) | clear_value y)
    | dsimp only

theorem State.deliverPlan_only {p r : Nat} {s x : State} {a1 a2 a3 a4 a5 : _} (hp : Sub 4498584 p) (hr : Sub 0xe060000000000000000000000000000000000000000000000000000000000000000000000000000000000000000000000000000000000000000000000000000000000000000000000000000000000000000000000000000000000000003c0000006000000000000000000000000000000000000000000000000000007f180d2f800000000000000000000000000000000000000000000000000000000000000001000000000000000000000000000000000000000000000000000000000000000000000000000000000000000000000000000000000000000000000000000000000 r) (h : Only p r s x) :
    Only p r s (State.deliverPlan x a1 a2 a3 a4 a5) := by
  unfold State.deliverPlan
  repeat' first
    | with_reducible assumption
    | with_reducible refine State.deliver_only (Sub.trans rfl hp) (Sub.trans rfl hr) ?_
    | with_reducible refine State.overflow_only (Sub.trans rfl hp) (Sub.trans rfl hr) ?_
    | (extract_lets +onlyGivenNames y; first | (refine Only.cut (x := y) ?_ ?_; subst y; rotate_left; clear_value y; intro _) | clear_value y)
    | split
    | dsimp only

theorem State.infeasible_only {p r : Nat} {s x : State} {a1 a2 a3 a4 a5 : _} (hp : Sub 8 p) (hr : Sub 0xe00000000000000000000000000000000000000000000000000000000000000000000000000000000000000000000000000000000000000000000000000000000000000000000000000000000000000000000000000000000000000000000000000000000 r) (h : Only p r s x) :
    Only p r s (State.infeasible x a1 a2 a3 a4 a5) := by
  unfold State.infeasible
  repeat' first
    | with_reducible assumption
    | with_reducible refine Only.set 801 R.SV_INF_ROW_ROW_num (Sub.bits hr rfl) ?_
    | with_reducible refine Only.set 802 R.SV_INF_ROW_CLASS_num (Sub.bits hr rfl) ?_
    | with_reducible refine Only.seti 803 R.SV_INF_VAL_num (Sub.bits hr rfl) ?_
    | with_reducible refine State.post_only (Sub.trans rfl hp) (Sub.trans rfl hr) ?_
    | with_reducible refine Only.ite ?_ ?_
    | (extract_lets +onlyGivenNames y; first | (refine Only.cut (x := y) ?_ ?_; subst y; rotate_left; clear_value y; intro _) | clear_value y)
    | split
    | dsimp only

theorem State.exitSolve_only {p r : Nat} {s x : State} {a1 a2 a3 : _} (hp : Sub 4498584 p) (hr : Sub 0xe060000000000000000000000000000000000000000000000000000000000000000000000000000000000000000000000000000000000000000000000000000000000000000000000000000000000000000000000000000000000000003c0000006000000000000000000000000000000000000000000000000000007ff80d2f800000000000000000000000000000000000000000000000000000000000000001000000000000000000000000000000000000000000000000000000000000000000000000000000000000000000000000000000000000000000000000000000000 r) (h : Only p r s x) :
    Only p r s (State.exitSolve x a1 a2 a3) := by
  unfold State.exitSolve
  repeat' first
    | with_reducible assumption
    | with_reducible refine State.deliverPlan_only (Sub.trans rfl hp) (Sub.trans rfl hr) ?_
    | with_reducible refine State.deliver_only (Sub.trans rfl hp) (Sub.trans rfl hr) ?_
    | with_reducible refine State.infeasible_only (Sub.trans rfl hp) (Sub.trans rfl hr) ?_
    | with_reducible refine State.overflow_only (Sub.trans rfl hp) (Sub.trans rfl hr) ?_
    | with_reducible refine State.postOnce_only (Sub.trans rfl hp) (Sub.trans rfl hr) ?_
    | with_reducible refine Only.ite ?_ ?_
    | (extract_lets +onlyGivenNames y; first | (refine Only.cut (x := y) ?_ ?_; subst y; rotate_left; clear_value y; intro _) | clear_value y)
    | split
    | dsimp only

theorem State.meetCut_only {p r : Nat} {s x : State} {a1 a2 a3 : _} (hp : Sub 4498584 p) (hr : Sub 0xe060000000000000000000000000000000000000000000000000000000000000000000000000000000000000000000000000000000000000000000000000000000000000000000000000000000000000000000000000000000000000003c0000006000000000000000000000000000000000000000000000000000007ff80dff800000000000000000000000000000000000000000000000000000000000000001000000000000000000000000000000000000000000000000000000000000000000000000000000000000000000000000000000000000000000000000000000000 r) (h : Only p r s x) :
    Only p r s (State.meetCut x a1 a2 a3) := by
  unfold State.meetCut
  repeat' first
    | with_reducible assumption
    | with_reducible refine State.updEng_only (Sub.trans rfl hp) (Sub.trans rfl hr) ?_
    | with_reducible refine State.abandonCert_only (Sub.trans rfl hp) (Sub.trans rfl hr) ?_
    | with_reducible refine State.cutEarly_only (Sub.trans rfl hp) (Sub.trans rfl hr) ?_
    | with_reducible refine State.exitSolve_only (Sub.trans rfl hp) (Sub.trans rfl hr) ?_
    | intro _
    | (extract_lets +onlyGivenNames y; first | (refine Only.cut (x := y) ?_ ?_; subst y; rotate_left; clear_value y; intro _) | clear_value y)
    | split
    | dsimp only

theorem State.cutRunning_only {p r : Nat} {s x : State} {a1 a2 a3 : _} (hp : Sub 4299465880 p) (hr : Sub 0xe060000000000000000000000000000000000000000000000000000000000000000000000000000000000000000000000000000000000000000000000000000000000000000000000000000000000000000000000000000000000000003c0000006000000000000000000000000000000000000000000000000000007ff80fff800000000000000000000000000000000000000000000000000000000000000001000000000000000000000000000000000000000000000000000000000000000000000000000000000000000000000000000000000000000000000000000000000 r) (h : Only p r s x) :
    Only p r s (State.cutRunning x a1 a2 a3) := by
  unfold State.cutRunning
  repeat' first
    | with_reducible assumption
    | with_reducible refine State.readScratch_only (Sub.trans rfl hp) (Sub.trans rfl hr) ?_
    | with_reducible refine State.meetCut_only (Sub.trans rfl hp) (Sub.trans rfl hr) ?_
    | with_reducible refine Only.ite ?_ ?_
    | (extract_lets +onlyGivenNames y; first | (refine Only.cut (x := y) ?_ ?_; subst y; rotate_left; clear_value y; intro _) | clear_value y)
    | split
    | dsimp only

theorem State.injectedCut_only {p r : Nat} {s x : State} {a1 a2 : _} (hp : Sub 4498584 p) (hr : Sub 0xe060000000000000000000000000000000000000000000000000000000000000000000000000000000000000000000000000000000000000000000000000000000000000000000000000000000000000000000000000000000000000003c0000006000000000000000000000000000000000000000000000000000007f180d2f800000000000000000000000000000000000000000000000000000000000000001000000000000000000000000000000000000000000000000000000000000000000000000000000000000000000000000000000000000000000000000000000000 r) (h : Only p r s x) :
    Only p r s (State.injectedCut x a1 a2) := by
  unfold State.injectedCut
  repeat' first
    | with_reducible assumption
    | with_reducible refine State.postOnce_only (Sub.trans rfl hp) (Sub.trans rfl hr) ?_
    | with_reducible refine State.deliver_only (Sub.trans rfl hp) (Sub.trans rfl hr) ?_
    | with_reducible refine State.deliverPlan_only (Sub.trans rfl hp) (Sub.trans rfl hr) ?_
    | with_reducible refine Only.ite ?_ ?_
    | (extract_lets +onlyGivenNames y; first | (refine Only.cut (x := y) ?_ ?_; subst y; rotate_left; clear_value y; intro _) | clear_value y)
    | split
    | dsimp only

theorem State.finishSolve_only {p r : Nat} {s x : State} {a1 : _} (hp : Sub 4498584 p) (hr : Sub 0xe060000000000000000000000000000000000000000000000000000000000000000000000000000000000000000000000000000000000000000000000000000000000000000000000000000000000000000000000000000000000000003c0000006000000000000000000000000000000000000000000000000000007ff80dff800000000000000000000000000000000000000000000000000000000000000001000000000000000000000000000000000000000000000000000000000000000000000000000000000000000000000000000000000000000000000000000000000 r) (h : Only p r s x) :
    Only p r s (State.finishSolve x a1) := by
  unfold State.finishSolve
  repeat' first
    | with_reducible assumption
    | with_reducible refine State.updEng_only (Sub.trans rfl hp) (Sub.trans rfl hr) ?_
    | with_reducible refine Only.snd (q := (State.inject _ _ _)) (by assumption) (State.inject_only (Sub.trans rfl hp) (Sub.trans rfl hr) ?_)
    | with_reducible refine State.inject_only (Sub.trans rfl hp) (Sub.trans rfl hr) ?_
    | with_reducible refine State.abandonCert_only (Sub.trans rfl hp) (Sub.trans rfl hr) ?_
    | with_reducible refine State.overflow_only (Sub.trans rfl hp) (Sub.trans rfl hr) ?_
    | with_reducible refine State.deliver_only (Sub.trans rfl hp) (Sub.trans rfl hr) ?_
    | with_reducible refine State.infeasible_only (Sub.trans rfl hp) (Sub.trans rfl hr) ?_
    | with_reducible refine State.injectedCut_only (Sub.trans rfl hp) (Sub.trans rfl hr) ?_
    | with_reducible refine State.exitSolve_only (Sub.trans rfl hp) (Sub.trans rfl hr) ?_
    | with_reducible refine Only.ite ?_ ?_
    | intro _
    | (extract_lets +onlyGivenNames y; first | (refine Only.cut (x := y) ?_ ?_; subst y; rotate_left; clear_value y; intro _) | (refine Only.cut (x := y.1) ?_ ?_; subst y; rotate_left; clear_value y; intro _) | (refine Only.cut (x := y.2) ?_ ?_; subst y; rotate_left; clear_value y; intro _) | (refine Only.cut (x := y.2.2) ?_ ?_; subst y; rotate_left; clear_value y; intro _) | clear_value y)
    | split
    | dsimp only

theorem State.solveEnd_only {p r : Nat} {s x : State} {a1 : _} (hp : Sub 4299465880 p) (hr : Sub 0xe060000000000000000000000000000000000000000000000000000000000000000000000000000000000000000000000000000000000000000000000000000000000000000000000000000000000000000000000000000000000000003c0000006000000000000000000000000000000000000000000000000000007ff80fff800000000000000000000000000000000000000000000000000000000000000001000000000000000000000000000000000000000000000000000000000000000000000000000000000000000000000000000000000000000000000000000000000 r) (h : Only p r s x) :
    Only p r s (State.solveEnd x a1) := by
  unfold State.solveEnd
  repeat' first
    | with_reducible assumption
    | with_reducible refine State.dropSolve_only (Sub.trans rfl hp) (Sub.trans rfl hr) ?_
    | with_reducible refine State.readScratch_only (Sub.trans rfl hp) (Sub.trans rfl hr) ?_
    | with_reducible refine State.finishSolve_only (Sub.trans rfl hp) (Sub.trans rfl hr) ?_
    | with_reducible refine Only.ite ?_ ?_
    | (extract_lets +onlyGivenNames y; first | (refine Only.cut (x := y) ?_ ?_; subst y; rotate_left; clear_value y; intro _) | clear_value y)
    | split
    | dsimp only

theorem State.dropJob_only {p r : Nat} {s x : State} {a1 : _} (hp : Sub 32768 p) (hr : Sub 0xc00000000000000000000000000000000000000000000000000000000000000000000000000000000000000000000000000000000000000000000000000000000000000000000000000000000000000000000000000000000000000000000000000000000000000000000000000000000000000000000000000000000000000000000000 r) (h : Only p r s x) :
    Only p r s (State.dropJob x a1) := by
  unfold State.dropJob
  repeat' first
    | with_reducible assumption
    | with_reducible refine State.clearJob_only (Sub.trans rfl hp) (Sub.trans rfl hr) ?_
    | with_reducible refine Only.ite ?_ ?_
    | (extract_lets +onlyGivenNames y; first | (refine Only.cut (x := y) ?_ ?_; subst y; rotate_left; clear_value y; intro _) | clear_value y)
    | split
    | dsimp only

theorem State.solveCut_only {p r : Nat} {s x : State} {a1 a2 a3 : _} (hp : Sub 4299465880 p) (hr : Sub 0xe060000000000000000000000000000000000000000000000000000000000000000000000000000000000000000000000000000000000000000000000000000000000000000000000000000000000000000000000000000000000000003c0000006000000000000000000000000000000000000000000000000000007ff80fff800000000000000000000000000000000000000000000000000000000000000001000000000000000000000000000000000000000000000000000000000000000000000000000000000000000000000000000000000000000000000000000000000 r) (h : Only p r s x) :
    Only p r s (State.solveCut x a1 a2 a3) := by
  unfold State.solveCut
  repeat' first
    | with_reducible assumption
    | with_reducible refine State.cutRunning_only (Sub.trans rfl hp) (Sub.trans rfl hr) ?_
    | with_reducible refine State.updEng_only (Sub.trans rfl hp) (Sub.trans rfl hr) ?_
    | with_reducible refine State.cutEarly_only (Sub.trans rfl hp) (Sub.trans rfl hr) ?_
    | with_reducible refine State.dropJob_only (Sub.trans rfl hp) (Sub.trans rfl hr) ?_
    | with_reducible refine Only.ite ?_ ?_
    | intro _
    | (extract_lets +onlyGivenNames y; first | (refine Only.cut (x := y) ?_ ?_; subst y; rotate_left; clear_value y; intro _) | clear_value y)
    | split
    | dsimp only

theorem execSolveCut_only {p r : Nat} {s : State} {a0 a1 a2 : _} (hp : Sub 4299465880 p) (hr : Sub 0xe060000000000000000000000000000000000000000000000000000000000000000000000000000000000000000000000000000000000000000000000000000000000000000000000000000000000000000000000000000000000000003c0000006000000000000000000000000000000000000000000000000000007ff80fff800000000000000000000000000000000000000000000000000000000000000001000000000000000000000000000000000000000000000000000000000000000000000000000000000000000000000000000000000000000000000000000000000 r) :
    ∃ t, execSolveCut a0 a1 a2 s = .next t ∧ Only p r s t := by
  unfold execSolveCut
  refine ⟨_, rfl, ?_⟩
  have h : Only p r s s := Only.refl
  repeat' first
    | with_reducible assumption
    | with_reducible refine State.solveCut_only (Sub.trans rfl hp) (Sub.trans rfl hr) ?_

theorem State.stopRequest_only {p r : Nat} {s x : State} {a1 : _} (hp : Sub 8216 p) (hr : Sub 0x80080000000000000000000000000000000000000000000000000000000000000000000000000000000000000000000000000000000000000000000000000000000000000000000000000000000000000000000000000000000000000000000000000000000 r) (h : Only p r s x) :
    Only p r s (State.stopRequest x a1) := by
  unfold State.stopRequest
  repeat' first
    | with_reducible assumption
    | with_reducible refine State.updEng_only (Sub.trans rfl hp) (Sub.trans rfl hr) ?_
    | with_reducible refine Only.inc 811 R.SV_RT_COUNT_B_STOP_REQS_num (Sub.bits hr rfl) ?_
    | with_reducible refine Only.set 799 R.SV_STATUS_num (Sub.bits hr rfl) ?_
    | with_reducible refine State.post_only (Sub.trans rfl hp) (Sub.trans rfl hr) ?_
    | with_reducible refine State.fault_only (Sub.trans rfl hp) (Sub.trans rfl hr) ?_
    | with_reducible refine Only.ite ?_ ?_
    | intro _
    | (extract_lets +onlyGivenNames y; first | (refine Only.cut (x := y) ?_ ?_; subst y; rotate_left; clear_value y; intro _) | clear_value y)
    | split
    | dsimp only

theorem execSvStopReq_only {p r : Nat} {s : State} {a0 : _} (hp : Sub 8216 p) (hr : Sub 0x80080000000000000000000000000000000000000000000000000000000000000000000000000000000000000000000000000000000000000000000000000000000000000000000000000000000000000000000000000000000000000000000000000000000 r) :
    ∃ t, execSvStopReq a0 s = .next t ∧ Only p r s t := by
  unfold execSvStopReq
  refine ⟨_, rfl, ?_⟩
  have h : Only p r s s := Only.refl
  repeat' first
    | with_reducible assumption
    | with_reducible refine State.stopRequest_only (Sub.trans rfl hp) (Sub.trans rfl hr) ?_

theorem execSolveEnd_only {p r : Nat} {s : State} {a0 : _} (hp : Sub 4299465880 p) (hr : Sub 0xe060000000000000000000000000000000000000000000000000000000000000000000000000000000000000000000000000000000000000000000000000000000000000000000000000000000000000000000000000000000000000003c0000006000000000000000000000000000000000000000000000000000007ff80fff800000000000000000000000000000000000000000000000000000000000000001000000000000000000000000000000000000000000000000000000000000000000000000000000000000000000000000000000000000000000000000000000000 r) :
    ∃ t, execSolveEnd a0 s = .next t ∧ Only p r s t := by
  unfold execSolveEnd
  refine ⟨_, rfl, ?_⟩
  have h : Only p r s s := Only.refl
  repeat' first
    | with_reducible assumption
    | with_reducible refine State.solveEnd_only (Sub.trans rfl hp) (Sub.trans rfl hr) ?_

theorem execForceColdWrite_only {p r : Nat} {s : State} {a0 : _} (hp : Sub 8192 p) (hr : Sub 0 r) :
    ∃ t, execForceColdWrite a0 s = .next t ∧ Only p r s t := by
  unfold execForceColdWrite
  refine ⟨_, rfl, ?_⟩
  have h : Only p r s s := Only.refl
  repeat' first
    | with_reducible assumption
    | with_reducible refine State.updEng_only (Sub.trans rfl hp) (Sub.trans rfl hr) ?_
    | intro _
    | (extract_lets +onlyGivenNames y; first | (refine Only.cut (x := y) ?_ ?_; subst y; rotate_left; clear_value y; intro _) | clear_value y)
    | dsimp only

end Sys2Proof.Machine
end

