-- ==== Sys2Proof/Laws/OnlyRecorder.lean ====
section
/-! SUPPORT. Footprints of the operations of Machine/Recorder.lean. -/
namespace Sys2Proof.Machine
set_option linter.all false
set_option Elab.async false

theorem State.updEv_only {p r : Nat} {s x : State} {a1 : _} (hp : Sub 1048576 p) (_hr : Sub 0 r) (h : Only p r s x) :
    Only p r s (State.updEv x a1) := by
  unfold State.updEv
  repeat' first
    | with_reducible assumption
    | (extract_lets +onlyGivenNames y; first | (refine Only.cut (x := y) ?_ ?_; subst y; rotate_left; clear_value y; intro _) | clear_value y)
    | (first | (with_reducible refine Only.upd_ev (Sub.bits hp rfl) ?_; first | with_reducible assumption))

theorem State.showEv_only {p r : Nat} {s x : State} (_hp : Sub 0 p) (hr : Sub 0x7c0000000000000000000000000000000000000000000000000000000000000000000000000000000000000000000000000000000000000000000000000000000000000000000000000000000000000000000000000000000000000000000000000000000000000000000000000000000000000000000000000000000000000000000000000000000000000000000000000000000000000000000000000000000000000000000000000000000000000000000000000000000000000000000000000 r) (h : Only p r s x) :
    Only p r s (State.showEv x) := by
  unfold State.showEv
  repeat' first
    | with_reducible assumption
    | with_reducible refine Only.set 1542 R.EV_STAT_USED_KIB_num (Sub.bits hr rfl) ?_
    | with_reducible refine Only.set 1543 R.EV_STAT_FATAL_KIB_num (Sub.bits hr rfl) ?_
    | with_reducible refine Only.set 1544 R.EV_STAT_HOLD_USED_num (Sub.bits hr rfl) ?_
    | with_reducible refine Only.set 1545 R.EV_SEQ_FIRST_num (Sub.bits hr rfl) ?_
    | with_reducible refine Only.set 1546 R.EV_SEQ_LAST_num (Sub.bits hr rfl) ?_
    | intro _
    | (extract_lets +onlyGivenNames y; first | (refine Only.cut (x := y) ?_ ?_; subst y; rotate_left; clear_value y; intro _) | clear_value y)
    | dsimp only

theorem execEvCmdClear_only {p r : Nat} {s : State} {a0 : _} (hp : Sub 1179784 p) (hr : Sub 0x7c0000000000000000000000000000000000000000000000000000000000038080300000000000000000000000000000000000000000000000000000000000000000000000000000000000000000000000000000000000000000000000000000000000000000000000000000000000000000000000000000000000000000000000000000000000000000000000000000000000000000000000000000000000000000000000000000000000000000000000000000000000000000000000000000000 r) :
    ∃ t, execEvCmdClear a0 s = .next t ∧ Only p r s t := by
  unfold execEvCmdClear
  refine ⟨_, rfl, ?_⟩
  have h : Only p r s s := Only.refl
  repeat' first
    | with_reducible assumption
    | with_reducible refine State.updEv_only (Sub.trans rfl hp) (Sub.trans rfl hr) ?_
    | with_reducible refine State.showEv_only (Sub.trans rfl hp) (Sub.trans rfl hr) ?_
    | with_reducible refine State.completeDesc_only (Sub.trans rfl hp) (Sub.trans rfl hr) ?_
    | with_reducible refine State.opAction_only (Sub.trans rfl hp) (Sub.trans rfl hr) ?_ ?_
    | intro _
    | (extract_lets +onlyGivenNames y; first | (refine Only.cut (x := y) ?_ ?_; subst y; rotate_left; clear_value y; intro _) | clear_value y)
    | dsimp only

theorem State.showInj_only {p r : Nat} {s x : State} (_hp : Sub 0 p) (hr : Sub 0x60000000000000000000000000000000000000000000000000000000000000000000000000000000000000000000000000000000000000000000000000000000000000000000000000000000000000000000000000000000000000000000000000000000000000000000000000000000000000000000000000000000000000000000000000000000000000000000000000000000000000000000000000000000000000000000000000000000000000000000000000000000000000000000000000000000000000000000000000000000000000000000000000000000000000000 r) (h : Only p r s x) :
    Only p r s (State.showInj x) := by
  unfold State.showInj
  repeat' first
    | with_reducible assumption
    | with_reducible refine Only.set 1794 R.INJ_STAT_ARMED_num (Sub.bits hr rfl) ?_
    | with_reducible refine Only.setBit 1793 R.INJ_STAT_ACTIVE_num (Sub.bits hr rfl) ?_
    | intro _
    | (extract_lets +onlyGivenNames y; first | (refine Only.cut (x := y) ?_ ?_; subst y; rotate_left; clear_value y; intro _) | clear_value y)
    | dsimp only

theorem State.injPlace_only {p r : Nat} {s x : State} {a1 a2 : _} (hp : Sub 4194312 p) (hr : Sub 0x7860000000000000000000000000000000000000000000000000000000000000000000000000000000000000000000000000000000000000000000000000000000000000000000000000000000000000000000000000000000000000000000000000000000000000000000000000000000000000000000000000000000000000000000000000000000000000000000000000000000000000000000000000000000000000000000000000000000000000000000000000000000000000000000000000000000000000000000000000000000000000000000000000000000000000000 r) (h : Only p r s x) :
    Only p r s (State.injPlace x a1 a2) := by
  unfold State.injPlace
  repeat' first
    | with_reducible assumption
    | with_reducible refine Only.set 1799 R.INJ_ENTRY_INDEX_num (Sub.bits hr rfl) ?_
    | with_reducible refine Only.set 1800 R.INJ_ENTRY_MODE_num (Sub.bits hr rfl) ?_
    | with_reducible refine Only.setBit 1801 R.INJ_ENTRY_ARMED_num (Sub.bits hr rfl) ?_
    | with_reducible refine Only.set 1802 R.INJ_ENTRY_REMAIN_num (Sub.bits hr rfl) ?_
    | with_reducible refine State.showInj_only (Sub.trans rfl hp) (Sub.trans rfl hr) ?_
    | with_reducible refine State.post_only (Sub.trans rfl hp) (Sub.trans rfl hr) ?_
    | intro _
    | (extract_lets +onlyGivenNames y; first | (refine Only.cut (x := y) ?_ ?_; subst y; rotate_left; clear_value y; intro _) | clear_value y)
    | dsimp only
    | (first | (with_reducible refine Only.upd_inj (Sub.bits hp rfl) ?_; first | with_reducible assumption | with_reducible refine Only.set 1799 R.INJ_ENTRY_INDEX_num (Sub.bits hr rfl) ?_ | with_reducible refine Only.set 1800 R.INJ_ENTRY_MODE_num (Sub.bits hr rfl) ?_ | with_reducible refine Only.setBit 1801 R.INJ_ENTRY_ARMED_num (Sub.bits hr rfl) ?_ | with_reducible refine Only.set 1802 R.INJ_ENTRY_REMAIN_num (Sub.bits hr rfl) ?_ | with_reducible refine State.showInj_only (Sub.trans rfl hp) (Sub.trans rfl hr) ?_ | with_reducible refine State.post_only (Sub.trans rfl hp) (Sub.trans rfl hr) ?_))

theorem State.disarm_only {p r : Nat} {s x : State} {a1 : _} (hp : Sub 4194312 p) (hr : Sub 0x7860000000000000000000000000000000000000000000000000000000000000000000000000000000000000000000000000000000000000000000000000000000000000000000000000000000000000000000000000000000000000000000000000000000000000000000000000000000000000000000000000000000000000000000000000000000000000000000000000000000000000000000000000000000000000000000000000000000000000000000000000000000000000000000000000000000000000000000000000000000000000000000000000000000000000000 r) (h : Only p r s x) :
    Only p r s (State.disarm x a1) := by
  unfold State.disarm
  repeat' first
    | with_reducible assumption
    | with_reducible refine State.injPlace_only (Sub.trans rfl hp) (Sub.trans rfl hr) ?_
    | with_reducible refine Only.foldl ?_ ?_
    | intro _
    | (extract_lets +onlyGivenNames y; first | (refine Only.cut (x := y) ?_ ?_; subst y; rotate_left; clear_value y; intro _) | clear_value y)
    | dsimp only

theorem State.updBb_only {p r : Nat} {s x : State} {a1 : _} (hp : Sub 2097152 p) (_hr : Sub 0 r) (h : Only p r s x) :
    Only p r s (State.updBb x a1) := by
  unfold State.updBb
  repeat' first
    | with_reducible assumption
    | (extract_lets +onlyGivenNames y; first | (refine Only.cut (x := y) ?_ ?_; subst y; rotate_left; clear_value y; intro _) | clear_value y)
    | (first | (with_reducible refine Only.upd_bb (Sub.bits hp rfl) ?_; first | with_reducible assumption))

theorem State.bbWrite_only {p r : Nat} {s x : State} (hp : Sub 2097160 p) (hr : Sub 0x4000000000000000000000000000000000000000000000000000000000000000000000000000000000000000000000000000000000000000000000000000000000000000000000000000000000000000000000000000000000000000000000000000000000000000000000000000000000000000000000000000000000000000000000000000000000000000000000000000000000000000000000000000000000000000000000000000000000000000000000000000000000000000000000000000000000000000000000000000000000 r) (h : Only p r s x) :
    Only p r s (State.bbWrite x) := by
  unfold State.bbWrite
  repeat' first
    | with_reducible assumption
    | with_reducible refine State.updBb_only (Sub.trans rfl hp) (Sub.trans rfl hr) ?_
    | with_reducible refine Only.set 1670 R.BB_STAT_SPARE_PCT_num (Sub.bits hr rfl) ?_
    | with_reducible refine State.post_only (Sub.trans rfl hp) (Sub.trans rfl hr) ?_
    | with_reducible refine Only.ite ?_ ?_
    | intro _
    | (extract_lets +onlyGivenNames y; first | (refine Only.cut (x := y) ?_ ?_; subst y; rotate_left; clear_value y; intro _) | clear_value y)
    | split
    | dsimp only

theorem State.mirrorSlot_only {p r : Nat} {s x : State} {a1 : _} (hp : Sub 2097160 p) (hr : Sub 0x4000000000000000000000000000000000000000000000000000000000000000000000000000000000000000000000000000000000000000000000000000000000000000000000000000000000000000000000000000000000000000000000000000000000000000000000000000000000000000000000000000000000000000000000000000000000000000000000000000000000000000000000000000000000000000000000000000000000000000000000000000000000000000000000000000000000000000000000000000000000 r) (h : Only p r s x) :
    Only p r s (State.mirrorSlot x a1) := by
  unfold State.mirrorSlot
  repeat' first
    | with_reducible assumption
    | with_reducible refine State.updBb_only (Sub.trans rfl hp) (Sub.trans rfl hr) ?_
    | with_reducible refine State.bbWrite_only (Sub.trans rfl hp) (Sub.trans rfl hr) ?_
    | intro _
    | (extract_lets +onlyGivenNames y; first | (refine Only.cut (x := y) ?_ ?_; subst y; rotate_left; clear_value y; intro _) | clear_value y)
    | dsimp only

theorem State.dropRec_only {p r : Nat} {s x : State} {a1 a2 a3 : _} (c0 : Nat) (e0 : fieldOf c0 = a2) (k0 : r.testBit c0 = true) (hp : Sub 1048576 p) (hr : Sub 0x100000000000000000000000000000000000000000000000000000000000000000000000000000000000000000000000000000000000000000000000000000000000000000000000000000000000000000000000000000000000000000000000000000000000000000000000000000000000000000000000000000000000000000000000000000000000000000000000000000000000000000000000000000000000000000000000000000000000000000000000000000000000000000000000000000 r) (h : Only p r s x) :
    Only p r s (State.dropRec x a1 a2 a3) := by
  unfold State.dropRec
  repeat' first
    | with_reducible assumption
    | with_reducible refine Only.inc 1556 R.EV_DROPS_B_FATAL_DROP_num (Sub.bits hr rfl) ?_
    | with_reducible refine State.updEv_only (Sub.trans rfl hp) (Sub.trans rfl hr) ?_
    | with_reducible refine Only.inc c0 e0 k0 ?_
    | with_reducible refine Only.ite ?_ ?_
    | intro _
    | (extract_lets +onlyGivenNames y; first | (refine Only.cut (x := y) ?_ ?_; subst y; rotate_left; clear_value y; intro _) | clear_value y)
    | split
    | dsimp only

theorem State.storeRam_only {p r : Nat} {s x : State} {a1 : _} (hp : Sub 3145736 p) (hr : Sub 0x40000000000000000000000000001407c0000000000000000000000000000000000000000000000000000000000000000000000000000000000000000000000000000000000000000000000000000000000000000000000000000000000000000000000000000000000000000000000000000000000000000000000000000000000000000000000000000000000000000000000000000000000000000000000000000000000000000000000000000000000000000000000000000000000000000000000000000000000000000000000000 r) (h : Only p r s x) :
    Only p r s (State.storeRam x a1) := by
  unfold State.storeRam
  repeat' first
    | with_reducible assumption
    | with_reducible refine State.updEv_only (Sub.trans rfl hp) (Sub.trans rfl hr) ?_
    | with_reducible refine State.showEv_only (Sub.trans rfl hp) (Sub.trans rfl hr) ?_
    | with_reducible refine State.mirrorSlot_only (Sub.trans rfl hp) (Sub.trans rfl hr) ?_
    | with_reducible refine State.dropRec_only 1554 R.EV_DROPS_A_FULL_DROP_num (Sub.bits hr rfl) (Sub.trans rfl hp) (Sub.trans rfl hr) ?_
    | intro _
    | (extract_lets +onlyGivenNames y; first | (refine Only.cut (x := y) ?_ ?_; subst y; rotate_left; clear_value y; intro _) | clear_value y)
    | split
    | dsimp only

theorem State.freezeEnd_only {p r : Nat} {s x : State} {a1 a2 : _} (c0 : Nat) (e0 : fieldOf c0 = a1) (k0 : r.testBit c0 = true) (hp : Sub 3145736 p) (hr : Sub 0x40000000000000000000000000001407c0000000000000000000000000000000000000000000000000000000000000000000000000000000000000000000000000000000000000000000000000000000000000000000000000000000000000000000000000000000000000000000000000000000000000000000000000000000000000000000000000000000000000000000000000000000000000000000000000000000000000000000000000000000000000000000000000000000000000000000000000000000000000000000000000 r) (h : Only p r s x) :
    Only p r s (State.freezeEnd x a1 a2) := by
  unfold State.freezeEnd
  repeat' first
    | with_reducible assumption
    | with_reducible refine Only.setBit c0 e0 k0 ?_
    | with_reducible refine State.post_only (Sub.trans rfl hp) (Sub.trans rfl hr) ?_
    | with_reducible refine State.storeRam_only (Sub.trans rfl hp) (Sub.trans rfl hr) ?_
    | with_reducible refine State.updEv_only (Sub.trans rfl hp) (Sub.trans rfl hr) ?_
    | with_reducible refine State.showEv_only (Sub.trans rfl hp) (Sub.trans rfl hr) ?_
    | with_reducible refine Only.ite ?_ ?_
    | with_reducible refine Only.foldl ?_ ?_
    | intro _
    | (extract_lets +onlyGivenNames y; first | (refine Only.cut (x := y) ?_ ?_; subst y; rotate_left; clear_value y; intro _) | clear_value y)
    | split
    | dsimp only

theorem State.freezeStart_only {p r : Nat} {s x : State} {a1 a2 : _} (c0 : Nat) (e0 : fieldOf c0 = a1) (k0 : r.testBit c0 = true) (hp : Sub 8 p) (hr : Sub 0 r) (h : Only p r s x) :
    Only p r s (State.freezeStart x a1 a2) := by
  unfold State.freezeStart
  repeat' first
    | with_reducible assumption
    | with_reducible refine Only.setBit c0 e0 k0 ?_
    | with_reducible refine State.post_only (Sub.trans rfl hp) (Sub.trans rfl hr) ?_

theorem State.doLoadKey_only {p r : Nat} {s x : State} {a1 : _} (hp : Sub 131080 p) (hr : Sub 0x3f0000000000000000000000000000000000000000000000000000000000000000000000000000000000000000000000000000000000000000000000000038080300000000000000000000000000000000000000000000000000000000000000000000000000000000000000000000000000000000000000000000000000000000000000000000000000000000000000000000000000000000000000000000000000000000000000000000000000000000000000000000000000000000000000000000000000000000000000000000000000000000000000000000000000000000 r) (h : Only p r s x) :
    Only p r s (State.doLoadKey x a1) := by
  unfold State.doLoadKey
  repeat' first
    | with_reducible assumption
    | with_reducible refine State.completeDesc_only (Sub.trans rfl hp) (Sub.trans rfl hr) ?_
    | with_reducible refine Only.setBit 1792 R.INJ_STAT_KEY_LOADED_num (Sub.bits hr rfl) ?_
    | with_reducible refine Only.set 1797 R.INJ_KEY_ID_num (Sub.bits hr rfl) ?_
    | with_reducible refine State.showInj_only (Sub.trans rfl hp) (Sub.trans rfl hr) ?_
    | with_reducible refine State.post_only (Sub.trans rfl hp) (Sub.trans rfl hr) ?_
    | with_reducible refine Only.set 1795 R.INJ_STAT_KEY_FAILS_num (Sub.bits hr rfl) ?_
    | with_reducible refine Only.setBit 1796 R.INJ_STAT_LOCKED_num (Sub.bits hr rfl) ?_
    | with_reducible refine Only.ite ?_ ?_
    | intro _
    | (extract_lets +onlyGivenNames y; first | (refine Only.cut (x := y) ?_ ?_; subst y; rotate_left; clear_value y; intro _) | clear_value y)
    | split
    | dsimp only

theorem State.openAck_only {p r : Nat} {s x : State} {a1 : _} (hp : Sub 1048576 p) (hr : Sub 0x400020000000000000000000000000000000000000000000000000000000000000000000000000000000000000000000000000000000000000000000000000000000000000000000000000000000000000000000000000000000000000000000000000000000000000000000000000000000000000000000000000000000000000000000000000000000000000000000000000000000000000000000000000000000000000000000000000000000000000000000000000000000000000000000000000 r) (h : Only p r s x) :
    Only p r s (State.openAck x a1) := by
  unfold State.openAck
  repeat' first
    | with_reducible assumption
    | with_reducible refine State.updEv_only (Sub.trans rfl hp) (Sub.trans rfl hr) ?_
    | with_reducible refine Only.set 1558 R.EV_OPEN_COUNT_num (Sub.bits hr rfl) ?_
    | with_reducible refine Only.setBit 1541 R.EV_STAT_OPEN_OVF_num (Sub.bits hr rfl) ?_
    | with_reducible refine Only.ite ?_ ?_
    | intro _
    | (extract_lets +onlyGivenNames y; first | (refine Only.cut (x := y) ?_ ?_; subst y; rotate_left; clear_value y; intro _) | clear_value y)
    | split
    | dsimp only

theorem State.doFreeze_only {p r : Nat} {s x : State} {a1 : _} (hp : Sub 1179656 p) (hr : Sub 0x8000000000000000000000000000000000000000000000000000000000038080300000000000000000000000000000000000000000000000000000000000000000000000000000000000000000000000000000000000000000000000000000000000000000000000000000000000000000000000000000000000000000000000000000000000000000000000000000000000000000000000000000000000000000000000000000000000000000000000000000000000000000000000000000000 r) (h : Only p r s x) :
    Only p r s (State.doFreeze x a1) := by
  unfold State.doFreeze
  repeat' first
    | with_reducible assumption
    | with_reducible refine State.completeDesc_only (Sub.trans rfl hp) (Sub.trans rfl hr) ?_
    | with_reducible refine State.freezeStart_only 1539 R.EV_STAT_HOST_FROZEN_num (Sub.bits hr rfl) (Sub.trans rfl hp) (Sub.trans rfl hr) ?_
    | with_reducible refine State.updEv_only (Sub.trans rfl hp) (Sub.trans rfl hr) ?_
    | with_reducible refine Only.ite ?_ ?_
    | intro _
    | (extract_lets +onlyGivenNames y; first | (refine Only.cut (x := y) ?_ ?_; subst y; rotate_left; clear_value y; intro _) | clear_value y)
    | split
    | dsimp only

theorem execEvCmdFreeze_only {p r : Nat} {s : State} {a0 : _} (hp : Sub 1179784 p) (hr : Sub 0x8000000000000000000000000000000000000000000000000000000000038080300000000000000000000000000000000000000000000000000000000000000000000000000000000000000000000000000000000000000000000000000000000000000000000000000000000000000000000000000000000000000000000000000000000000000000000000000000000000000000000000000000000000000000000000000000000000000000000000000000000000000000000000000000000 r) :
    ∃ t, execEvCmdFreeze a0 s = .next t ∧ Only p r s t := by
  unfold execEvCmdFreeze
  refine ⟨_, rfl, ?_⟩
  have h : Only p r s s := Only.refl
  repeat' first
    | with_reducible assumption
    | with_reducible refine State.doFreeze_only (Sub.trans rfl hp) (Sub.trans rfl hr) ?_
    | with_reducible refine State.opAction_only (Sub.trans rfl hp) (Sub.trans rfl hr) ?_ ?_
    | intro _
    | dsimp only

theorem State.evEccUncorr_only {p r : Nat} {s x : State} {a1 a2 : _} (hp : Sub 1048584 p) (hr : Sub 0x7c0000000000000000000000000000000000000000000000000000000000000000000000000000000000000000000000000000000000000000000000000000000000000000000000000000000000000000000000000000000000000000000000000000000000000000000000000000000000000000000000000000000000000000000000000000000000000000000000000000000000000000000000000000000000000000000000000000000000000000000000000000000000000000000000000 r) (h : Only p r s x) :
    Only p r s (State.evEccUncorr x a1 a2) := by
  unfold State.evEccUncorr
  repeat' first
    | with_reducible assumption
    | with_reducible refine State.updEv_only (Sub.trans rfl hp) (Sub.trans rfl hr) ?_
    | with_reducible refine State.showEv_only (Sub.trans rfl hp) (Sub.trans rfl hr) ?_
    | with_reducible refine State.post_only (Sub.trans rfl hp) (Sub.trans rfl hr) ?_
    | intro _
    | (extract_lets +onlyGivenNames y; first | (refine Only.cut (x := y) ?_ ?_; subst y; rotate_left; clear_value y; intro _) | clear_value y)
    | dsimp only

theorem State.evEccCorr_only {p r : Nat} {s x : State} {a1 : _} (hp : Sub 136 p) (hr : Sub 0x200000000000000000000000000000000000000000000000000000000000000000000000000000000000000000000000000000000000000000000000000000000000000000000000000000000000000000000000000000000000000000000000000000000000000000000000000000000000000000000000000000000000000000000000000000000000000000000000000000000000000000000000000000000000000000000000000000000000000000000000000000000000000000000000000000 r) (h : Only p r s x) :
    Only p r s (State.evEccCorr x a1) := by
  unfold State.evEccCorr
  repeat' first
    | with_reducible assumption
    | with_reducible refine Only.inc 1557 R.EV_DROPS_B_ECC_CORR_num (Sub.bits hr rfl) ?_
    | with_reducible refine State.postOnce_only (Sub.trans rfl hp) (Sub.trans rfl hr) ?_

theorem State.loadWindow_only {p r : Nat} {s x : State} {a1 : _} (hp : Sub 4434428040 p) (hr : Sub 0xe06000000000000000000000000000000000000000000000000000000000421f7c0000000000000000000000000000000000000000000000000000000000000000000000000000000000000000000000000000000000000000000000000000000000000000000000000000000000000000000000000000000000000000000000000000000000000000000000000000000000000000000000000000000000000000000000000000000000000000000000000000000000000000000000000000000000000000000000000000000000000000000000000000000000000000000000000 r) (h : Only p r s x) :
    Only p r s (State.loadWindow x a1) := by
  unfold State.loadWindow
  repeat' first
    | with_reducible assumption
    | with_reducible refine Only.setBit 1549 R.EV_RD_STAT_VALID_num (Sub.bits hr rfl) ?_
    | with_reducible refine Only.setBit 1550 R.EV_RD_STAT_GAP_num (Sub.bits hr rfl) ?_
    | with_reducible refine Only.thd (q := (State.eccFound _ _ _ _)) (by assumption) (State.eccFound_only (Sub.trans rfl hp) (Sub.trans rfl hr) ?_)
    | with_reducible refine State.eccFound_only (Sub.trans rfl hp) (Sub.trans rfl hr) ?_
    | with_reducible refine Only.set 1562 R.EV_WIN_num (Sub.bits hr rfl) ?_
    | with_reducible refine Only.set 1548 R.EV_RD_SEQ_num (Sub.bits hr rfl) ?_
    | with_reducible refine Only.set 1551 R.EV_RD_STAT_LEN_W_num (Sub.bits hr rfl) ?_
    | with_reducible refine Only.setBit 1552 R.EV_RD_STAT_ECC_BAD_num (Sub.bits hr rfl) ?_
    | with_reducible refine State.evEccUncorr_only (Sub.trans rfl hp) (Sub.trans rfl hr) ?_
    | with_reducible refine State.evEccCorr_only (Sub.trans rfl hp) (Sub.trans rfl hr) ?_
    | with_reducible refine Only.ite ?_ ?_
    | with_reducible refine Only.foldl ?_ ?_
    | with_reducible refine Only.foldl_fst ?_ ?_
    | with_reducible refine Only.foldl_snd ?_ ?_
    | intro _
    | (extract_lets +onlyGivenNames y; first | (refine Only.cut (x := y) ?_ ?_; subst y; rotate_left; clear_value y; intro _) | (refine Only.cut (x := y.1) ?_ ?_; subst y; rotate_left; clear_value y; intro _) | (refine Only.cut (x := y.2) ?_ ?_; subst y; rotate_left; clear_value y; intro _) | (refine Only.cut (x := y.2.2) ?_ ?_; subst y; rotate_left; clear_value y; intro _) | clear_value y)
    | split
    | dsimp only
    | (first | (with_reducible refine Only.upd_free (Sub.bits hp rfl) ?_; first | with_reducible assumption | with_reducible refine Only.setBit 1549 R.EV_RD_STAT_VALID_num (Sub.bits hr rfl) ?_ | with_reducible refine Only.setBit 1550 R.EV_RD_STAT_GAP_num (Sub.bits hr rfl) ?_ | with_reducible refine Only.thd (q := (State.eccFound _ _ _ _)) (by assumption) (State.eccFound_only (Sub.trans rfl hp) (Sub.trans rfl hr) ?_) | with_reducible refine State.eccFound_only (Sub.trans rfl hp) (Sub.trans rfl hr) ?_ | with_reducible refine Only.set 1562 R.EV_WIN_num (Sub.bits hr rfl) ?_ | with_reducible refine Only.set 1548 R.EV_RD_SEQ_num (Sub.bits hr rfl) ?_ | with_reducible refine Only.set 1551 R.EV_RD_STAT_LEN_W_num (Sub.bits hr rfl) ?_ | with_reducible refine Only.setBit 1552 R.EV_RD_STAT_ECC_BAD_num (Sub.bits hr rfl) ?_ | with_reducible refine State.evEccUncorr_only (Sub.trans rfl hp) (Sub.trans rfl hr) ?_ | with_reducible refine State.evEccCorr_only (Sub.trans rfl hp) (Sub.trans rfl hr) ?_))

theorem State.cursorWrite_only {p r : Nat} {s x : State} {a1 : _} (hp : Sub 4434428040 p) (hr : Sub 0xe06000000000000000000000000000000000000000000000000000000000421ffc0000000000000000000000000000000000000000000000000000000000000000000000000000000000000000000000000000000000000000000000000000000000000000000000000000000000000000000000000000000000000000000000000000000000000000000000000000000000000000000000000000000000000000000000000000000000000000000000000000000000000000000000000000000000000000000000000000000000000000000000000000000000000000000000000 r) (h : Only p r s x) :
    Only p r s (State.cursorWrite x a1) := by
  unfold State.cursorWrite
  repeat' first
    | with_reducible assumption
    | with_reducible refine Only.set 1547 R.EV_CURSOR_num (Sub.bits hr rfl) ?_
    | with_reducible refine State.loadWindow_only (Sub.trans rfl hp) (Sub.trans rfl hr) ?_

theorem State.doDisarm_only {p r : Nat} {s x : State} {a1 : _} (hp : Sub 4325384 p) (hr : Sub 0x7860000000000000000000000000000000000000000000000000000000000000000000000000000000000000000000000000000000000000000000000000038080300000000000000000000000000000000000000000000000000000000000000000000000000000000000000000000000000000000000000000000000000000000000000000000000000000000000000000000000000000000000000000000000000000000000000000000000000000000000000000000000000000000000000000000000000000000000000000000000000000000000000000000000000000000 r) (h : Only p r s x) :
    Only p r s (State.doDisarm x a1) := by
  unfold State.doDisarm
  repeat' first
    | with_reducible assumption
    | with_reducible refine State.completeDesc_only (Sub.trans rfl hp) (Sub.trans rfl hr) ?_
    | with_reducible refine State.disarm_only (Sub.trans rfl hp) (Sub.trans rfl hr) ?_
    | with_reducible refine Only.ite ?_ ?_
    | intro _
    | (extract_lets +onlyGivenNames y; first | (refine Only.cut (x := y) ?_ ?_; subst y; rotate_left; clear_value y; intro _) | clear_value y)
    | split
    | dsimp only

theorem execInjCmdDisarm_only {p r : Nat} {s : State} {a0 : _} (hp : Sub 4325512 p) (hr : Sub 0x7860000000000000000000000000000000000000000000000000000000000000000000000000000000000000000000000000000000000000000000000000038080300000000000000000000000000000000000000000000000000000000000000000000000000000000000000000000000000000000000000000000000000000000000000000000000000000000000000000000000000000000000000000000000000000000000000000000000000000000000000000000000000000000000000000000000000000000000000000000000000000000000000000000000000000000 r) :
    ∃ t, execInjCmdDisarm a0 s = .next t ∧ Only p r s t := by
  unfold execInjCmdDisarm
  refine ⟨_, rfl, ?_⟩
  have h : Only p r s s := Only.refl
  repeat' first
    | with_reducible assumption
    | with_reducible refine State.doDisarm_only (Sub.trans rfl hp) (Sub.trans rfl hr) ?_
    | with_reducible refine State.opAction_only (Sub.trans rfl hp) (Sub.trans rfl hr) ?_ ?_
    | intro _

theorem State.readDbg_only {p r : Nat} {s x : State} {a1 : _} (hp : Sub 4702863496 p) (hr : Sub 0xe06000000000000000000000000000000000000000000000000000000000421ffc0000000000000000000000000000000000000000000000000000000000000000000000000000000000000000000000000000000000000000000000000000000000000000000000000000000000000000000000000000000000000000000000000000000000000000000000000000000000000000000000000000000000000000000000000000000000000000000000000000000000000000000000000000000000000000000000000000000000000000000000000000000000000000000000000 r) (h : Only p r s x) :
    Only p r s (State.readDbg x a1) := by
  unfold State.readDbg
  repeat' first
    | with_reducible assumption
    | with_reducible refine State.cursorWrite_only (Sub.trans rfl hp) (Sub.trans rfl hr) ?_
    | with_reducible refine State.reply_only (Sub.trans rfl hp) (Sub.trans rfl hr) ?_
    | (extract_lets +onlyGivenNames y; first | (refine Only.cut (x := y) ?_ ?_; subst y; rotate_left; clear_value y; intro _) | clear_value y)
    | dsimp only

theorem execEvReadDbg_only {p r : Nat} {s : State} {a0 : _} (hp : Sub 4702863496 p) (hr : Sub 0xe06000000000000000000000000000000000000000000000000000000000421ffc0000000000000000000000000000000000000000000000000000000000000000000000000000000000000000000000000000000000000000000000000000000000000000000000000000000000000000000000000000000000000000000000000000000000000000000000000000000000000000000000000000000000000000000000000000000000000000000000000000000000000000000000000000000000000000000000000000000000000000000000000000000000000000000000000 r) :
    ∃ t, execEvReadDbg a0 s = .next t ∧ Only p r s t := by
  unfold execEvReadDbg
  refine ⟨_, rfl, ?_⟩
  have h : Only p r s s := Only.refl
  repeat' first
    | with_reducible assumption
    | with_reducible refine State.readDbg_only (Sub.trans rfl hp) (Sub.trans rfl hr) ?_

theorem State.logFault_only {p r : Nat} {s x : State} {a1 : _} (hp : Sub 2097160 p) (hr : Sub 0x104000000000000000000000000000000000000000000000000000000000000000000000000000000000000000000000000000000000000000000000000000000000000000000000000000000000000000000000000000000000000000000000000000000000000000000000000000000000000000000000000000000000000000000000000000000000000000000000000000000000000000000000000000000000000000000000000000000000000000000000000000000000000000000000000000000000000000000000000000000000 r) (h : Only p r s x) :
    Only p r s (State.logFault x a1) := by
  unfold State.logFault
  repeat' first
    | with_reducible assumption
    | with_reducible refine State.updBb_only (Sub.trans rfl hp) (Sub.trans rfl hr) ?_
    | with_reducible refine State.bbWrite_only (Sub.trans rfl hp) (Sub.trans rfl hr) ?_
    | with_reducible refine Only.inc 1676 R.BB_COUNT_LOG_DROP_num (Sub.bits hr rfl) ?_
    | intro _
    | (extract_lets +onlyGivenNames y; first | (refine Only.cut (x := y) ?_ ?_; subst y; rotate_left; clear_value y; intro _) | clear_value y)
    | split
    | dsimp only

theorem State.eventIrq_only {p r : Nat} {s x : State} (hp : Sub 1179648 p) (hr : Sub 0 r) (h : Only p r s x) :
    Only p r s (State.eventIrq x) := by
  unfold State.eventIrq
  repeat' first
    | with_reducible assumption
    | with_reducible refine State.updEv_only (Sub.trans rfl hp) (Sub.trans rfl hr) ?_
    | with_reducible refine State.sendVec_only (Sub.trans rfl hp) (Sub.trans rfl hr) ?_
    | with_reducible refine Only.ite ?_ ?_
    | intro _
    | (extract_lets +onlyGivenNames y; first | (refine Only.cut (x := y) ?_ ?_; subst y; rotate_left; clear_value y; intro _) | clear_value y)
    | split
    | dsimp only

theorem execEventInterrupt_only {p r : Nat} {s : State} (hp : Sub 1179648 p) (hr : Sub 0 r) :
    ∃ t, execEventInterrupt s = .next t ∧ Only p r s t := by
  unfold execEventInterrupt
  refine ⟨_, rfl, ?_⟩
  have h : Only p r s s := Only.refl
  repeat' first
    | with_reducible assumption
    | with_reducible refine State.eventIrq_only (Sub.trans rfl hp) (Sub.trans rfl hr) ?_

theorem State.freezeTimeout_only {p r : Nat} {s x : State} (hp : Sub 3145736 p) (hr : Sub 0x40000000000000000000000000001407c8000000000000000000000000000000000000000000000000000000000000000000000000000000000000000000000000000000000000000000000000000000000000000000000000000000000000000000000000000000000000000000000000000000000000000000000000000000000000000000000000000000000000000000000000000000000000000000000000000000000000000000000000000000000000000000000000000000000000000000000000000000000000000000000000 r) (h : Only p r s x) :
    Only p r s (State.freezeTimeout x) := by
  unfold State.freezeTimeout
  repeat' first
    | with_reducible assumption
    | with_reducible refine State.freezeEnd_only 1539 R.EV_STAT_HOST_FROZEN_num (Sub.bits hr rfl) (Sub.trans rfl hp) (Sub.trans rfl hr) ?_
    | with_reducible refine Only.ite ?_ ?_
    | split

theorem execEvFreezeTimeout_only {p r : Nat} {s : State} (hp : Sub 3145736 p) (hr : Sub 0x40000000000000000000000000001407c8000000000000000000000000000000000000000000000000000000000000000000000000000000000000000000000000000000000000000000000000000000000000000000000000000000000000000000000000000000000000000000000000000000000000000000000000000000000000000000000000000000000000000000000000000000000000000000000000000000000000000000000000000000000000000000000000000000000000000000000000000000000000000000000000 r) :
    ∃ t, execEvFreezeTimeout s = .next t ∧ Only p r s t := by
  unfold execEvFreezeTimeout
  refine ⟨_, rfl, ?_⟩
  have h : Only p r s s := Only.refl
  repeat' first
    | with_reducible assumption
    | with_reducible refine State.freezeTimeout_only (Sub.trans rfl hp) (Sub.trans rfl hr) ?_

theorem State.storeNext_only {p r : Nat} {s x : State} (hp : Sub 3145736 p) (hr : Sub 0x40000000000000000000000000001c07c0000000000000000000000000000000000000000000000000000000000000000000000000000000000000000000000000000000000000000000000000000000000000000000000000000000000000000000000000000000000000000000000000000000000000000000000000000000000000000000000000000000000000000000000000000000000000000000000000000000000000000000000000000000000000000000000000000000000000000000000000000000000000000000000000 r) (h : Only p r s x) :
    Only p r s (State.storeNext x) := by
  unfold State.storeNext
  repeat' first
    | with_reducible assumption
    | with_reducible refine State.updEv_only (Sub.trans rfl hp) (Sub.trans rfl hr) ?_
    | with_reducible refine State.showEv_only (Sub.trans rfl hp) (Sub.trans rfl hr) ?_
    | with_reducible refine State.dropRec_only 1555 R.EV_DROPS_B_HOLD_DROP_num (Sub.bits hr rfl) (Sub.trans rfl hp) (Sub.trans rfl hr) ?_
    | with_reducible refine State.storeRam_only (Sub.trans rfl hp) (Sub.trans rfl hr) ?_
    | with_reducible refine Only.ite ?_ ?_
    | intro _
    | (extract_lets +onlyGivenNames y; first | (refine Only.cut (x := y) ?_ ?_; subst y; rotate_left; clear_value y; intro _) | clear_value y)
    | split
    | dsimp only

theorem execRecordStore_only {p r : Nat} {s : State} (hp : Sub 3145736 p) (hr : Sub 0x40000000000000000000000000001c07c0000000000000000000000000000000000000000000000000000000000000000000000000000000000000000000000000000000000000000000000000000000000000000000000000000000000000000000000000000000000000000000000000000000000000000000000000000000000000000000000000000000000000000000000000000000000000000000000000000000000000000000000000000000000000000000000000000000000000000000000000000000000000000000000000 r) :
    ∃ t, execRecordStore s = .next t ∧ Only p r s t := by
  unfold execRecordStore
  refine ⟨_, rfl, ?_⟩
  have h : Only p r s s := Only.refl
  repeat' first
    | with_reducible assumption
    | with_reducible refine State.storeNext_only (Sub.trans rfl hp) (Sub.trans rfl hr) ?_

theorem execInjCmdDisarmAll_only {p r : Nat} {s : State} {a0 : _} (hp : Sub 4325512 p) (hr : Sub 0x7860000000000000000000000000000000000000000000000000000000000000000000000000000000000000000000000000000000000000000000000000038080300000000000000000000000000000000000000000000000000000000000000000000000000000000000000000000000000000000000000000000000000000000000000000000000000000000000000000000000000000000000000000000000000000000000000000000000000000000000000000000000000000000000000000000000000000000000000000000000000000000000000000000000000000000 r) :
    ∃ t, execInjCmdDisarmAll a0 s = .next t ∧ Only p r s t := by
  unfold execInjCmdDisarmAll
  refine ⟨_, rfl, ?_⟩
  have h : Only p r s s := Only.refl
  repeat' first
    | with_reducible assumption
    | with_reducible refine State.disarm_only (Sub.trans rfl hp) (Sub.trans rfl hr) ?_
    | with_reducible refine State.completeDesc_only (Sub.trans rfl hp) (Sub.trans rfl hr) ?_
    | with_reducible refine State.opAction_only (Sub.trans rfl hp) (Sub.trans rfl hr) ?_ ?_
    | intro _
    | dsimp only

theorem execInjCmdLoadKey_only {p r : Nat} {s : State} {a0 : _} (hp : Sub 131208 p) (hr : Sub 0x3f0000000000000000000000000000000000000000000000000000000000000000000000000000000000000000000000000000000000000000000000000038080300000000000000000000000000000000000000000000000000000000000000000000000000000000000000000000000000000000000000000000000000000000000000000000000000000000000000000000000000000000000000000000000000000000000000000000000000000000000000000000000000000000000000000000000000000000000000000000000000000000000000000000000000000000 r) :
    ∃ t, execInjCmdLoadKey a0 s = .next t ∧ Only p r s t := by
  unfold execInjCmdLoadKey
  refine ⟨_, rfl, ?_⟩
  have h : Only p r s s := Only.refl
  repeat' first
    | with_reducible assumption
    | with_reducible refine State.doLoadKey_only (Sub.trans rfl hp) (Sub.trans rfl hr) ?_
    | with_reducible refine State.opAction_only (Sub.trans rfl hp) (Sub.trans rfl hr) ?_ ?_
    | intro _
    | dsimp only

theorem State.freezeDbg_only {p r : Nat} {s x : State} {a1 : _} (hp : Sub 3145736 p) (hr : Sub 0x40000000000000000000000000001407d0000000000000000000000000000000000000000000000000000000000000000000000000000000000000000000000000000000000000000000000000000000000000000000000000000000000000000000000000000000000000000000000000000000000000000000000000000000000000000000000000000000000000000000000000000000000000000000000000000000000000000000000000000000000000000000000000000000000000000000000000000000000000000000000000 r) (h : Only p r s x) :
    Only p r s (State.freezeDbg x a1) := by
  unfold State.freezeDbg
  repeat' first
    | with_reducible assumption
    | with_reducible refine State.freezeStart_only 1540 R.EV_STAT_DBG_FROZEN_num (Sub.bits hr rfl) (Sub.trans rfl hp) (Sub.trans rfl hr) ?_
    | with_reducible refine State.freezeEnd_only 1540 R.EV_STAT_DBG_FROZEN_num (Sub.bits hr rfl) (Sub.trans rfl hp) (Sub.trans rfl hr) ?_
    | with_reducible refine Only.ite ?_ ?_
    | split

theorem State.doAck_only {p r : Nat} {s x : State} {a1 : _} (hp : Sub 1187848 p) (hr : Sub 0x400020000000000000000000000000000000000000000000000000000000000038080300000000000000000000000000000000000000000000000000000000000000000000000000000000000000000000000000000000000000000000000080000000000000000000000000000000000000000000000000000000000000000000000000000000000000000000000000000000000000000000000000000000000000000000000000000000000000000000000000000000000000000000000000000000 r) (h : Only p r s x) :
    Only p r s (State.doAck x a1) := by
  unfold State.doAck
  repeat' first
    | with_reducible assumption
    | with_reducible refine State.completeDesc_only (Sub.trans rfl hp) (Sub.trans rfl hr) ?_
    | with_reducible refine State.updEv_only (Sub.trans rfl hp) (Sub.trans rfl hr) ?_
    | with_reducible refine Only.set 1558 R.EV_OPEN_COUNT_num (Sub.bits hr rfl) ?_
    | with_reducible refine Only.setBit 1541 R.EV_STAT_OPEN_OVF_num (Sub.bits hr rfl) ?_
    | with_reducible refine State.settleStop_only (Sub.trans rfl hp) (Sub.trans rfl hr) ?_
    | with_reducible refine Only.ite ?_ ?_
    | with_reducible refine Only.foldl ?_ ?_
    | intro _
    | (extract_lets +onlyGivenNames y; first | (refine Only.cut (x := y) ?_ ?_; subst y; rotate_left; clear_value y; intro _) | clear_value y)
    | split
    | dsimp only

theorem execEvCmdAck_only {p r : Nat} {s : State} {a0 : _} (hp : Sub 1187976 p) (hr : Sub 0x400020000000000000000000000000000000000000000000000000000000000038080300000000000000000000000000000000000000000000000000000000000000000000000000000000000000000000000000000000000000000000000080000000000000000000000000000000000000000000000000000000000000000000000000000000000000000000000000000000000000000000000000000000000000000000000000000000000000000000000000000000000000000000000000000000 r) :
    ∃ t, execEvCmdAck a0 s = .next t ∧ Only p r s t := by
  unfold execEvCmdAck
  refine ⟨_, rfl, ?_⟩
  have h : Only p r s s := Only.refl
  repeat' first
    | with_reducible assumption
    | with_reducible refine State.doAck_only (Sub.trans rfl hp) (Sub.trans rfl hr) ?_
    | with_reducible refine State.opAction_only (Sub.trans rfl hp) (Sub.trans rfl hr) ?_ ?_
    | intro _
    | dsimp only

theorem State.lostWindow_only {p r : Nat} {s x : State} (hp : Sub 1048584 p) (hr : Sub 0 r) (h : Only p r s x) :
    Only p r s (State.lostWindow x) := by
  unfold State.lostWindow
  repeat' first
    | with_reducible assumption
    | with_reducible refine State.post_only (Sub.trans rfl hp) (Sub.trans rfl hr) ?_
    | with_reducible refine State.updEv_only (Sub.trans rfl hp) (Sub.trans rfl hr) ?_
    | with_reducible refine Only.ite ?_ ?_
    | intro _
    | (extract_lets +onlyGivenNames y; first | (refine Only.cut (x := y) ?_ ?_; subst y; rotate_left; clear_value y; intro _) | clear_value y)
    | split
    | dsimp only

theorem State.showBb_only {p r : Nat} {s x : State} (_hp : Sub 0 p) (hr : Sub 0x61d00000000000000000000000000000000000000000000000000000000000000000000000000000000000000000000000000000000000000000000000000000000000000000000000000000000000000000000000000000000000000000000000000000000000000000000000000000000000000000000000000000000000000000000000000000000000000000000000000000000000000000000000000000000000000000000000000000000000000000000000000000000000000000000000000000000000000000000000000000000 r) (h : Only p r s x) :
    Only p r s (State.showBb x) := by
  unfold State.showBb
  repeat' first
    | with_reducible assumption
    | with_reducible refine Only.setBit 1664 R.BB_STAT_PT_FROZEN_num (Sub.bits hr rfl) ?_
    | with_reducible refine Only.set 1666 R.BB_STAT_MIRROR_SLOT_num (Sub.bits hr rfl) ?_
    | with_reducible refine Only.set 1667 R.BB_STAT_SEALED_num (Sub.bits hr rfl) ?_
    | with_reducible refine Only.set 1673 R.BB_PT_CYCLE_num (Sub.bits hr rfl) ?_
    | with_reducible refine Only.setBit 1668 R.BB_STAT_SNAP_VALID_num (Sub.bits hr rfl) ?_
    | with_reducible refine Only.set 1674 R.BB_BOOTS_num (Sub.bits hr rfl) ?_
    | (extract_lets +onlyGivenNames y; first | (refine Only.cut (x := y) ?_ ?_; subst y; rotate_left; clear_value y; intro _) | clear_value y)
    | split
    | dsimp only

theorem State.inputRound_only {p r : Nat} {s x : State} (hp : Sub 1048584 p) (_hr : Sub 0 r) (h : Only p r s x) :
    Only p r s (State.inputRound x) := by
  unfold State.inputRound
  repeat' first
    | with_reducible assumption
    | with_reducible refine Only.ite ?_ ?_
    | intro _
    | (extract_lets +onlyGivenNames y; first | (refine Only.cut (x := y) ?_ ?_; subst y; rotate_left; clear_value y; intro _) | clear_value y)
    | split
    | dsimp only
    | (first | (with_reducible refine Only.upd_posted_ev (Sub.bits hp rfl) (Sub.bits hp rfl) ?_; first | with_reducible assumption))

theorem State.acceptRec_only {p r : Nat} {s x : State} {a1 : _} (hp : Sub 3145736 p) (hr : Sub 0x104000000000000000000000000000000000000000000000000000000000000000000000000000000000000000000000000000000000000000000000000000000000000000000000000000000000000000000000000000000000000000000000000000000000000000000000000000000000000000000000000000000000000000000000000000000000000000000000000000000000000000000000000000000000000000000000000000000000000000000000000000000000000000000000000000000000000000000000000000000000 r) (h : Only p r s x) :
    Only p r s (State.acceptRec x a1) := by
  unfold State.acceptRec
  repeat' first
    | with_reducible assumption
    | with_reducible refine State.updEv_only (Sub.trans rfl hp) (Sub.trans rfl hr) ?_
    | with_reducible refine State.updBb_only (Sub.trans rfl hp) (Sub.trans rfl hr) ?_
    | with_reducible refine State.logFault_only (Sub.trans rfl hp) (Sub.trans rfl hr) ?_
    | with_reducible refine Only.ite ?_ ?_
    | intro _
    | (extract_lets +onlyGivenNames y; first | (refine Only.cut (x := y) ?_ ?_; subst y; rotate_left; clear_value y; intro _) | clear_value y)
    | split
    | dsimp only

theorem State.inputTake_only {p r : Nat} {s x : State} {a1 : _} (hp : Sub 3145736 p) (hr : Sub 0x104000000000000000000000000000520020000000000000000000000000000000000000000000000000000000000000000000000000000000000000000000000000000000000000000000000000000000000000000000000000000000000000000000000000000000000000000000000000000000000000000000000000000000000000000000000000000000000000000000000000000000000000000000000000000000000000000000000000000000000000000000000000000000000000000000000000000000000000000000000000 r) (h : Only p r s x) :
    Only p r s (State.inputTake x a1) := by
  unfold State.inputTake
  repeat' first
    | with_reducible assumption
    | with_reducible refine State.openAck_only (Sub.trans rfl hp) (Sub.trans rfl hr) ?_
    | with_reducible refine State.acceptRec_only (Sub.trans rfl hp) (Sub.trans rfl hr) ?_
    | with_reducible refine State.dropRec_only 1553 R.EV_DROPS_A_INPUT_DROP_num (Sub.bits hr rfl) (Sub.trans rfl hp) (Sub.trans rfl hr) ?_
    | with_reducible refine Only.ite ?_ ?_
    | intro _
    | (extract_lets +onlyGivenNames y; first | (refine Only.cut (x := y) ?_ ?_; subst y; rotate_left; clear_value y; intro _) | clear_value y)
    | split
    | dsimp only

theorem State.inputPost_only {p r : Nat} {s x : State} (hp : Sub 3145736 p) (hr : Sub 0x104000000000000000000000000000520020000000000000000000000000000000000000000000000000000000000000000000000000000000000000000000000000000000000000000000000000000000000000000000000000000000000000000000000000000000000000000000000000000000000000000000000000000000000000000000000000000000000000000000000000000000000000000000000000000000000000000000000000000000000000000000000000000000000000000000000000000000000000000000000000 r) (h : Only p r s x) :
    Only p r s (State.inputPost x) := by
  unfold State.inputPost
  repeat' first
    | with_reducible assumption
    | with_reducible refine State.inputRound_only (Sub.trans rfl hp) (Sub.trans rfl hr) ?_
    | with_reducible refine State.updEv_only (Sub.trans rfl hp) (Sub.trans rfl hr) ?_
    | with_reducible refine State.inputTake_only (Sub.trans rfl hp) (Sub.trans rfl hr) ?_
    | intro _
    | (extract_lets +onlyGivenNames y; first | (refine Only.cut (x := y) ?_ ?_; subst y; rotate_left; clear_value y; intro _) | clear_value y)
    | split
    | dsimp only
    | (first | (with_reducible refine Only.upd_posted (Sub.bits hp rfl) ?_; first | with_reducible assumption | with_reducible refine State.inputRound_only (Sub.trans rfl hp) (Sub.trans rfl hr) ?_ | with_reducible refine State.updEv_only (Sub.trans rfl hp) (Sub.trans rfl hr) ?_ | with_reducible refine State.inputTake_only (Sub.trans rfl hp) (Sub.trans rfl hr) ?_))

theorem execEventInputPost_only {p r : Nat} {s : State} (hp : Sub 3145736 p) (hr : Sub 0x104000000000000000000000000000520020000000000000000000000000000000000000000000000000000000000000000000000000000000000000000000000000000000000000000000000000000000000000000000000000000000000000000000000000000000000000000000000000000000000000000000000000000000000000000000000000000000000000000000000000000000000000000000000000000000000000000000000000000000000000000000000000000000000000000000000000000000000000000000000000 r) :
    ∃ t, execEventInputPost s = .next t ∧ Only p r s t := by
  unfold execEventInputPost
  refine ⟨_, rfl, ?_⟩
  have h : Only p r s s := Only.refl
  repeat' first
    | with_reducible assumption
    | with_reducible refine State.inputPost_only (Sub.trans rfl hp) (Sub.trans rfl hr) ?_

theorem State.doMark_only {p r : Nat} {s x : State} {a1 : _} (hp : Sub 131080 p) (hr : Sub 0x38080300000000000000000000000000000000000000000000000000000000000000000000000000000000000000000000000000000000000000000000000000000000000000000000000000000000000000000000000000000000000000000000000000000000000000000000000000000000000000000000000000000000000000000000000000000000000000000000000000000000000000000000000000000000 r) (h : Only p r s x) :
    Only p r s (State.doMark x a1) := by
  unfold State.doMark
  repeat' first
    | with_reducible assumption
    | with_reducible refine State.post_only (Sub.trans rfl hp) (Sub.trans rfl hr) ?_
    | with_reducible refine State.completeDesc_only (Sub.trans rfl hp) (Sub.trans rfl hr) ?_
    | with_reducible refine Only.ite ?_ ?_
    | intro _
    | (extract_lets +onlyGivenNames y; first | (refine Only.cut (x := y) ?_ ?_; subst y; rotate_left; clear_value y; intro _) | clear_value y)
    | split
    | dsimp only

theorem execEvCmdMark_only {p r : Nat} {s : State} {a0 : _} (hp : Sub 131208 p) (hr : Sub 0x38080300000000000000000000000000000000000000000000000000000000000000000000000000000000000000000000000000000000000000000000000000000000000000000000000000000000000000000000000000000000000000000000000000000000000000000000000000000000000000000000000000000000000000000000000000000000000000000000000000000000000000000000000000000000 r) :
    ∃ t, execEvCmdMark a0 s = .next t ∧ Only p r s t := by
  unfold execEvCmdMark
  refine ⟨_, rfl, ?_⟩
  have h : Only p r s s := Only.refl
  repeat' first
    | with_reducible assumption
    | with_reducible refine State.doMark_only (Sub.trans rfl hp) (Sub.trans rfl hr) ?_
    | with_reducible refine State.opAction_only (Sub.trans rfl hp) (Sub.trans rfl hr) ?_ ?_
    | intro _
    | dsimp only

theorem State.injWindow_only {p r : Nat} {s x : State} (hp : Sub 4194312 p) (hr : Sub 0 r) (h : Only p r s x) :
    Only p r s (State.injWindow x) := by
  unfold State.injWindow
  repeat' first
    | with_reducible assumption
    | with_reducible refine State.post_only (Sub.trans rfl hp) (Sub.trans rfl hr) ?_
    | with_reducible refine Only.ite ?_ ?_
    | with_reducible refine Only.foldl ?_ ?_
    | intro _
    | (extract_lets +onlyGivenNames y; first | (refine Only.cut (x := y) ?_ ?_; subst y; rotate_left; clear_value y; intro _) | clear_value y)
    | split
    | dsimp only
    | (first | (with_reducible refine Only.upd_inj (Sub.bits hp rfl) ?_; first | with_reducible assumption | with_reducible refine State.post_only (Sub.trans rfl hp) (Sub.trans rfl hr) ?_))

theorem execEvFreezeDbg_only {p r : Nat} {s : State} {a0 : _} (hp : Sub 3145736 p) (hr : Sub 0x40000000000000000000000000001407d0000000000000000000000000000000000000000000000000000000000000000000000000000000000000000000000000000000000000000000000000000000000000000000000000000000000000000000000000000000000000000000000000000000000000000000000000000000000000000000000000000000000000000000000000000000000000000000000000000000000000000000000000000000000000000000000000000000000000000000000000000000000000000000000000 r) :
    ∃ t, execEvFreezeDbg a0 s = .next t ∧ Only p r s t := by
  unfold execEvFreezeDbg
  refine ⟨_, rfl, ?_⟩
  have h : Only p r s s := Only.refl
  repeat' first
    | with_reducible assumption
    | with_reducible refine State.freezeDbg_only (Sub.trans rfl hp) (Sub.trans rfl hr) ?_

theorem State.doUnfreeze_only {p r : Nat} {s x : State} {a1 : _} (hp : Sub 3276808 p) (hr : Sub 0x40000000000000000000000000001407c8000000000000000000000000000000000000000000000000000000000038080300000000000000000000000000000000000000000000000000000000000000000000000000000000000000000000000000000000000000000000000000000000000000000000000000000000000000000000000000000000000000000000000000000000000000000000000000000000000000000000000000000000000000000000000000000000000000000000000000000000000000000000000000000000 r) (h : Only p r s x) :
    Only p r s (State.doUnfreeze x a1) := by
  unfold State.doUnfreeze
  repeat' first
    | with_reducible assumption
    | with_reducible refine State.freezeEnd_only 1539 R.EV_STAT_HOST_FROZEN_num (Sub.bits hr rfl) (Sub.trans rfl hp) (Sub.trans rfl hr) ?_
    | with_reducible refine State.completeDesc_only (Sub.trans rfl hp) (Sub.trans rfl hr) ?_
    | with_reducible refine Only.ite ?_ ?_
    | split

theorem State.doArm_only {p r : Nat} {s x : State} {a1 : _} (hp : Sub 4325384 p) (hr : Sub 0x7860000000000000000000000000000000000000000000000000000000000000000000000000000000000000000000000000000000000000000000000000038080300000000000000000000000000000000000000000000000000000000000000000000000000000000000000000000000000000000000000000000000000000000000000000000000000000000000000000000000000000000000000000000000000000000000000000000000000000000000000000000000000000000000000000000000000000000000000000000000000000000000000000000000000000000 r) (h : Only p r s x) :
    Only p r s (State.doArm x a1) := by
  unfold State.doArm
  repeat' first
    | with_reducible assumption
    | with_reducible refine State.completeDesc_only (Sub.trans rfl hp) (Sub.trans rfl hr) ?_
    | with_reducible refine State.injPlace_only (Sub.trans rfl hp) (Sub.trans rfl hr) ?_
    | with_reducible refine Only.ite ?_ ?_
    | intro _
    | (extract_lets +onlyGivenNames y; first | (refine Only.cut (x := y) ?_ ?_; subst y; rotate_left; clear_value y; intro _) | clear_value y)
    | split
    | dsimp only

theorem State.doClearKey_only {p r : Nat} {s x : State} {a1 : _} (hp : Sub 131080 p) (hr : Sub 0x270000000000000000000000000000000000000000000000000000000000000000000000000000000000000000000000000000000000000000000000000038080300000000000000000000000000000000000000000000000000000000000000000000000000000000000000000000000000000000000000000000000000000000000000000000000000000000000000000000000000000000000000000000000000000000000000000000000000000000000000000000000000000000000000000000000000000000000000000000000000000000000000000000000000000000 r) (h : Only p r s x) :
    Only p r s (State.doClearKey x a1) := by
  unfold State.doClearKey
  repeat' first
    | with_reducible assumption
    | with_reducible refine Only.setBit 1792 R.INJ_STAT_KEY_LOADED_num (Sub.bits hr rfl) ?_
    | with_reducible refine Only.set 1797 R.INJ_KEY_ID_num (Sub.bits hr rfl) ?_
    | with_reducible refine State.showInj_only (Sub.trans rfl hp) (Sub.trans rfl hr) ?_
    | with_reducible refine State.completeDesc_only (Sub.trans rfl hp) (Sub.trans rfl hr) ?_

theorem execInjCmdClearKey_only {p r : Nat} {s : State} {a0 : _} (hp : Sub 131208 p) (hr : Sub 0x270000000000000000000000000000000000000000000000000000000000000000000000000000000000000000000000000000000000000000000000000038080300000000000000000000000000000000000000000000000000000000000000000000000000000000000000000000000000000000000000000000000000000000000000000000000000000000000000000000000000000000000000000000000000000000000000000000000000000000000000000000000000000000000000000000000000000000000000000000000000000000000000000000000000000000 r) :
    ∃ t, execInjCmdClearKey a0 s = .next t ∧ Only p r s t := by
  unfold execInjCmdClearKey
  refine ⟨_, rfl, ?_⟩
  have h : Only p r s s := Only.refl
  repeat' first
    | with_reducible assumption
    | with_reducible refine State.doClearKey_only (Sub.trans rfl hp) (Sub.trans rfl hr) ?_
    | with_reducible refine State.opAction_only (Sub.trans rfl hp) (Sub.trans rfl hr) ?_ ?_
    | intro _

theorem execEvCmdClearFatal_only {p r : Nat} {s : State} {a0 : _} (hp : Sub 1179784 p) (hr : Sub 0x7c0000000000000000000000000000000000000000000000000000000000038080300000000000000000000000000000000000000000000000000000000000000000000000000000000000000000000000000000000000000000000000000000000000000000000000000000000000000000000000000000000000000000000000000000000000000000000000000000000000000000000000000000000000000000000000000000000000000000000000000000000000000000000000000000000 r) :
    ∃ t, execEvCmdClearFatal a0 s = .next t ∧ Only p r s t := by
  unfold execEvCmdClearFatal
  refine ⟨_, rfl, ?_⟩
  have h : Only p r s s := Only.refl
  repeat' first
    | with_reducible assumption
    | with_reducible refine State.updEv_only (Sub.trans rfl hp) (Sub.trans rfl hr) ?_
    | with_reducible refine State.showEv_only (Sub.trans rfl hp) (Sub.trans rfl hr) ?_
    | with_reducible refine State.completeDesc_only (Sub.trans rfl hp) (Sub.trans rfl hr) ?_
    | with_reducible refine State.opAction_only (Sub.trans rfl hp) (Sub.trans rfl hr) ?_ ?_
    | intro _
    | (extract_lets +onlyGivenNames y; first | (refine Only.cut (x := y) ?_ ?_; subst y; rotate_left; clear_value y; intro _) | clear_value y)
    | dsimp only

theorem execEvCursorWrite_only {p r : Nat} {s : State} {a0 : _} (hp : Sub 4434428040 p) (hr : Sub 0xe06000000000000000000000000000000000000000000000000000000000421ffc0000000000000000000000000000000000000000000000000000000000000000000000000000000000000000000000000000000000000000000000000000000000000000000000000000000000000000000000000000000000000000000000000000000000000000000000000000000000000000000000000000000000000000000000000000000000000000000000000000000000000000000000000000000000000000000000000000000000000000000000000000000000000000000000000 r) :
    ∃ t, execEvCursorWrite a0 s = .next t ∧ Only p r s t := by
  unfold execEvCursorWrite
  refine ⟨_, rfl, ?_⟩
  have h : Only p r s s := Only.refl
  repeat' first
    | with_reducible assumption
    | with_reducible refine State.cursorWrite_only (Sub.trans rfl hp) (Sub.trans rfl hr) ?_

theorem execInjCmdArm_only {p r : Nat} {s : State} {a0 : _} (hp : Sub 4325512 p) (hr : Sub 0x7860000000000000000000000000000000000000000000000000000000000000000000000000000000000000000000000000000000000000000000000000038080300000000000000000000000000000000000000000000000000000000000000000000000000000000000000000000000000000000000000000000000000000000000000000000000000000000000000000000000000000000000000000000000000000000000000000000000000000000000000000000000000000000000000000000000000000000000000000000000000000000000000000000000000000000 r) :
    ∃ t, execInjCmdArm a0 s = .next t ∧ Only p r s t := by
  unfold execInjCmdArm
  refine ⟨_, rfl, ?_⟩
  have h : Only p r s s := Only.refl
  repeat' first
    | with_reducible assumption
    | with_reducible refine State.doArm_only (Sub.trans rfl hp) (Sub.trans rfl hr) ?_
    | with_reducible refine State.opAction_only (Sub.trans rfl hp) (Sub.trans rfl hr) ?_ ?_
    | intro _

theorem State.scrubRecorder_only {p r : Nat} {s x : State} {a1 : _} (hp : Sub 4300210312 p) (hr : Sub 0xe0600000000000000000000000000000000000000000000000000000000002007c0000000000000000000000000000000000000000000000000000000000000000000000000000000000000000000000000000000000000000000000000000000000000000000000000000000000000000000000000000000000000000000000000000000000000000000000000000000000000000000000000000000000000000000000000000000000000000000000000000000000000000000000000000000000000000000000000000000000000000000000000000000000000000000000000 r) (h : Only p r s x) :
    Only p r s (State.scrubRecorder x a1) := by
  unfold State.scrubRecorder
  repeat' first
    | with_reducible assumption
    | with_reducible refine Only.thd (q := (State.eccFound _ _ _ _)) (by assumption) (State.eccFound_only (Sub.trans rfl hp) (Sub.trans rfl hr) ?_)
    | with_reducible refine State.eccFound_only (Sub.trans rfl hp) (Sub.trans rfl hr) ?_
    | with_reducible refine State.evEccCorr_only (Sub.trans rfl hp) (Sub.trans rfl hr) ?_
    | with_reducible refine State.evEccUncorr_only (Sub.trans rfl hp) (Sub.trans rfl hr) ?_
    | (extract_lets +onlyGivenNames y; first | (refine Only.cut (x := y) ?_ ?_; subst y; rotate_left; clear_value y; intro _) | (refine Only.cut (x := y.1) ?_ ?_; subst y; rotate_left; clear_value y; intro _) | (refine Only.cut (x := y.2) ?_ ?_; subst y; rotate_left; clear_value y; intro _) | (refine Only.cut (x := y.2.2) ?_ ?_; subst y; rotate_left; clear_value y; intro _) | clear_value y)
    | split
    | dsimp only

theorem execEvCmdUnfreeze_only {p r : Nat} {s : State} {a0 : _} (hp : Sub 3276936 p) (hr : Sub 0x40000000000000000000000000001407c8000000000000000000000000000000000000000000000000000000000038080300000000000000000000000000000000000000000000000000000000000000000000000000000000000000000000000000000000000000000000000000000000000000000000000000000000000000000000000000000000000000000000000000000000000000000000000000000000000000000000000000000000000000000000000000000000000000000000000000000000000000000000000000000000 r) :
    ∃ t, execEvCmdUnfreeze a0 s = .next t ∧ Only p r s t := by
  unfold execEvCmdUnfreeze
  refine ⟨_, rfl, ?_⟩
  have h : Only p r s s := Only.refl
  repeat' first
    | with_reducible assumption
    | with_reducible refine State.doUnfreeze_only (Sub.trans rfl hp) (Sub.trans rfl hr) ?_
    | with_reducible refine State.opAction_only (Sub.trans rfl hp) (Sub.trans rfl hr) ?_ ?_
    | intro _
    | dsimp only

end Sys2Proof.Machine
end

