-- ==== Sys2Proof/Laws/OnlyReset.lean ====
section
/-! SUPPORT. Footprints of the operations of Machine/Reset.lean. -/
namespace Sys2Proof.Machine
set_option linter.all false
set_option Elab.async false

theorem State.demandsAfterReset_only {p r : Nat} {s x : State} (hp : Sub 16930824 p) (hr : Sub 0xfcc00000000000000000000000000000000000000000000000000000000000000000000000000000000000000000000000000000000000000000000000000000000000000000000000000000000000000000038080300000000000000000000000000000000000000000000000000000000000000000000000000000000000000000000000000000000000000000000000000000000000000000000000009fe007ffb0000000000000000000204000000000000000000000000000000000000000000000000000000000000000000000000000000000000000000000000000000000000000000000000000000000000000000000000 r) (h : Only p r s x) :
    Only p r s (State.demandsAfterReset x) := by
  unfold State.demandsAfterReset
  repeat' first
    | with_reducible assumption
    | with_reducible refine Only.set 1955 R.AD_SIO_STAT_DISC_num (Sub.bits hr rfl) ?_
    | with_reducible refine Only.set 1954 R.AD_SIO_STAT_DEMAND_num (Sub.bits hr rfl) ?_
    | with_reducible refine State.assertAll_only (Sub.trans rfl hp) (Sub.trans rfl hr) ?_
    | with_reducible refine Only.ite ?_ ?_
    | intro _
    | (extract_lets +onlyGivenNames y; first | (refine Only.cut (x := y) ?_ ?_; subst y; rotate_left; clear_value y; intro _) | clear_value y)
    | split
    | dsimp only

theorem State.cleared_only {p r : Nat} {s x : State} (hp : Sub 8187281406 p) (_hr : Sub 0 r) (h : Only p r s x) :
    Only p r s (State.cleared x) where
  pending := h.pending
  regs hq := absurd ((Sub.bits (k := 1) hp rfl).symm.trans hq) (by decide)
  frozen hq := absurd ((Sub.bits (k := 2) hp rfl).symm.trans hq) (by decide)
  posted hq := absurd ((Sub.bits (k := 3) hp rfl).symm.trans hq) (by decide)
  escs hq := absurd ((Sub.bits (k := 4) hp rfl).symm.trans hq) (by decide)
  tb hq := absurd ((Sub.bits (k := 5) hp rfl).symm.trans hq) (by decide)
  grid hq := absurd ((Sub.bits (k := 6) hp rfl).symm.trans hq) (by decide)
  once hq := absurd ((Sub.bits (k := 7) hp rfl).symm.trans hq) (by decide)
  cb hq := absurd ((Sub.bits (k := 8) hp rfl).symm.trans hq) (by decide)
  fb hq := absurd ((Sub.bits (k := 9) hp rfl).symm.trans hq) (by decide)
  tl hq := absurd ((Sub.bits (k := 10) hp rfl).symm.trans hq) (by decide)
  grp hq := absurd ((Sub.bits (k := 11) hp rfl).symm.trans hq) (by decide)
  mp hq := absurd ((Sub.bits (k := 12) hp rfl).symm.trans hq) (by decide)
  sv hq := absurd ((Sub.bits (k := 13) hp rfl).symm.trans hq) (by decide)
  sep hq := absurd ((Sub.bits (k := 14) hp rfl).symm.trans hq) (by decide)
  sch hq := absurd ((Sub.bits (k := 15) hp rfl).symm.trans hq) (by decide)
  me hq := absurd ((Sub.bits (k := 16) hp rfl).symm.trans hq) (by decide)
  hi hq := absurd ((Sub.bits (k := 17) hp rfl).symm.trans hq) (by decide)
  gr hq := absurd ((Sub.bits (k := 18) hp rfl).symm.trans hq) (by decide)
  tw hq := absurd ((Sub.bits (k := 19) hp rfl).symm.trans hq) (by decide)
  ev hq := absurd ((Sub.bits (k := 20) hp rfl).symm.trans hq) (by decide)
  bb hq := absurd ((Sub.bits (k := 21) hp rfl).symm.trans hq) (by decide)
  inj hq := absurd ((Sub.bits (k := 22) hp rfl).symm.trans hq) (by decide)
  ad hq := absurd ((Sub.bits (k := 23) hp rfl).symm.trans hq) (by decide)
  sio hq := absurd ((Sub.bits (k := 24) hp rfl).symm.trans hq) (by decide)
  pw hq := absurd ((Sub.bits (k := 25) hp rfl).symm.trans hq) (by decide)
  arb hq := absurd ((Sub.bits (k := 26) hp rfl).symm.trans hq) (by decide)
  free := h.free
  readData := h.readData
  hiLatch hq := absurd ((Sub.bits (k := 29) hp rfl).symm.trans hq) (by decide)
  wrStage hq := absurd ((Sub.bits (k := 30) hp rfl).symm.trans hq) (by decide)
  view hq := absurd ((Sub.bits (k := 31) hp rfl).symm.trans hq) (by decide)
  flips hq := absurd ((Sub.bits (k := 32) hp rfl).symm.trans hq) (by decide)
  sound hs := have k := h.sound hs; ⟨soundRegs_kept k.1, soundRegs_reset, rfl, rfl, k.2.2.2.2⟩

theorem State.showKept_only {p r : Nat} {s x : State} {a1 : _} (hp : Sub 0 p) (hr : Sub 0x61f00000000000000000000000000400020000000000000000000000000000010000000000000000000000000000000000000000000000000000000000000000000000000000000000000000000000000000000000000000000000000000000000000000000000000000000000000000000000000000000000000000000000000000000000000000000000000000000000000000000000000000000000000000000000000000000000000000000000000000000000000000000000000000000000000000000000000000000000000000000 r) (h : Only p r s x) :
    Only p r s (State.showKept x a1) := by
  unfold State.showKept
  repeat' first
    | with_reducible assumption
    | with_reducible refine Only.set 1558 R.EV_OPEN_COUNT_num (Sub.bits hr rfl) ?_
    | with_reducible refine Only.setBit 1541 R.EV_STAT_OPEN_OVF_num (Sub.bits hr rfl) ?_
    | with_reducible refine Only.set 1420 R.TW_EPOCH_STORED_num (Sub.bits hr rfl) ?_
    | with_reducible refine State.showBb_only (Sub.trans rfl hp) (Sub.trans rfl hr) ?_
    | with_reducible refine Only.setBit 1665 R.BB_STAT_HOLDUP_OK_num (Sub.bits hr rfl) ?_
    | (extract_lets +onlyGivenNames y; first | (refine Only.cut (x := y) ?_ ?_; subst y; rotate_left; clear_value y; intro _) | clear_value y)
    | dsimp only

theorem State.doReset_only {p r : Nat} {s x : State} (hp : Sub 8187281406 p) (hr : Sub 0x1000000000000000000000000fcc00000000000000000000000000000000000000000000000000000000000000000000165f00000000000000000000000000400020000000000000000000000000000010000000000000000000000000000038080300000000000000000000000000000000000000000000000000000000000000000000000000000000000000000000000000000000000000000000000000000000000000000000000009fe007ffb0000000000000000000204000000000000000000000000000000000000000000000000000000000000000000000000000000000000000000000000000000000000000000000000000000000000000000000000 r) (h : Only p r s x) :
    Only p r s (State.doReset x) := by
  unfold State.doReset
  repeat' first
    | with_reducible assumption
    | with_reducible refine State.cleared_only (Sub.trans rfl hp) (Sub.trans rfl hr) ?_
    | with_reducible refine Only.set 2060 R.PW_SUPPLY_STAT_PFAIL_num (Sub.bits hr rfl) ?_
    | with_reducible refine State.logFault_only (Sub.trans rfl hp) (Sub.trans rfl hr) ?_
    | with_reducible refine State.showKept_only (Sub.trans rfl hp) (Sub.trans rfl hr) ?_
    | with_reducible refine State.demandsAfterReset_only (Sub.trans rfl hp) (Sub.trans rfl hr) ?_
    | (extract_lets +onlyGivenNames y; first | (refine Only.cut (x := y) ?_ ?_; subst y; rotate_left; clear_value y; intro _) | clear_value y)
    | dsimp only

theorem State.tryReset_only {p r : Nat} {s x : State} (hp : Sub 8187281406 p) (hr : Sub 0x1000000000000000000000000fcc00000000000000000000000000000000000000000000000000000000000000000000165f00000000000000000000000000400020000000000000000000000000000010000000000000000000000000000038080300000000000000000000000000000000000000000000000000000000000000000000000000000000000000000000000000000000000000000000000000000000000000000000000009fe007ffb0000000000000000000204000000000000000000000000000000000000000000000000000000000000000000000000000000000000000000000000000000000000000000000000000000000000000000000000 r) (h : Only p r s x) :
    Only p r s (State.tryReset x) := by
  unfold State.tryReset
  repeat' first
    | with_reducible assumption
    | with_reducible refine State.doReset_only (Sub.trans rfl hp) (Sub.trans rfl hr) ?_
    | with_reducible refine Only.ite ?_ ?_
    | intro _
    | split
    | dsimp only

theorem State.resetRequest_only {p r : Nat} {s x : State} {a1 : _} (hp : Sub 8187281406 p) (hr : Sub 0x80001000000000000000000000008fcc00000000000000000000000000000000000000000000000000000000000000000000165f00000000000000000000000000400020000000000000000000000000000010000000000000000000000000000038080300000000000000000000000000000000000000000000000000000000000000000000000000000000000000000000000000000000000000000000000000000000000000000000000009fe007ffb0000000000000000000204000000000000000000000000000000000000000000000000000000000000000000000000000000000000000000000000000000000000000000000000000000000000000000000000 r) (h : Only p r s x) :
    Only p r s (State.resetRequest x a1) := by
  unfold State.resetRequest
  repeat' first
    | with_reducible assumption
    | with_reducible refine State.assertAll_only (Sub.trans rfl hp) (Sub.trans rfl hr) ?_
    | with_reducible refine State.wdogStop_only (Sub.trans rfl hp) (Sub.trans rfl hr) ?_
    | with_reducible refine Only.set 2079 R.PW_RESET_CAUSE_CAUSE_num (Sub.bits hr rfl) ?_
    | with_reducible refine State.tryReset_only (Sub.trans rfl hp) (Sub.trans rfl hr) ?_
    | (extract_lets +onlyGivenNames y; first | (refine Only.cut (x := y) ?_ ?_; subst y; rotate_left; clear_value y; intro _) | clear_value y)
    | split
    | dsimp only
    | (first | (with_reducible refine Only.upd_pw (Sub.bits hp rfl) ?_; first | with_reducible assumption | with_reducible refine State.assertAll_only (Sub.trans rfl hp) (Sub.trans rfl hr) ?_ | with_reducible refine State.wdogStop_only (Sub.trans rfl hp) (Sub.trans rfl hr) ?_ | with_reducible refine Only.set 2079 R.PW_RESET_CAUSE_CAUSE_num (Sub.bits hr rfl) ?_ | with_reducible refine State.tryReset_only (Sub.trans rfl hp) (Sub.trans rfl hr) ?_))

end Sys2Proof.Machine
end

