-- ==== Sys2Proof/Laws/OnlyOrangery.lean ====
section
/-! SUPPORT. Footprints of the operations of Machine/Orangery.lean. -/
namespace Sys2Proof.Machine
set_option linter.all false
set_option Elab.async false

theorem State.doBbRelease_only {p r : Nat} {s x : State} {a1 : _} (hp : Sub 2228232 p) (hr : Sub 0x63d00000000000000000000000000000000000000000000000000000000000000000000000000000000000000000038080300000000000000000000000000000000000000000000000000000000000000000000000000000000000000000000000000000000000000000000000000000000000000000000000000000000000000000000000000000000000000000000000000000000000000000000000000000000000000000000000000000000000000000000000000000000000000000000000000000000000000000000000000000000 r) (h : Only p r s x) :
    Only p r s (State.doBbRelease x a1) := by
  unfold State.doBbRelease
  repeat' first
    | with_reducible assumption
    | with_reducible refine State.completeDesc_only (Sub.trans rfl hp) (Sub.trans rfl hr) ?_
    | with_reducible refine State.updBb_only (Sub.trans rfl hp) (Sub.trans rfl hr) ?_
    | with_reducible refine Only.set 1669 R.BB_STAT_PT_SKIPS_num (Sub.bits hr rfl) ?_
    | with_reducible refine State.showBb_only (Sub.trans rfl hp) (Sub.trans rfl hr) ?_
    | with_reducible refine Only.ite ?_ ?_
    | intro _
    | (extract_lets +onlyGivenNames y; first | (refine Only.cut (x := y) ?_ ?_; subst y; rotate_left; clear_value y; intro _) | clear_value y)
    | split
    | dsimp only

theorem execEvCmdBbRelease_only {p r : Nat} {s : State} {a0 : _} (hp : Sub 2228360 p) (hr : Sub 0x63d00000000000000000000000000000000000000000000000000000000000000000000000000000000000000000038080300000000000000000000000000000000000000000000000000000000000000000000000000000000000000000000000000000000000000000000000000000000000000000000000000000000000000000000000000000000000000000000000000000000000000000000000000000000000000000000000000000000000000000000000000000000000000000000000000000000000000000000000000000000 r) :
    ∃ t, execEvCmdBbRelease a0 s = .next t ∧ Only p r s t := by
  unfold execEvCmdBbRelease
  refine ⟨_, rfl, ?_⟩
  have h : Only p r s s := Only.refl
  repeat' first
    | with_reducible assumption
    | with_reducible refine State.doBbRelease_only (Sub.trans rfl hp) (Sub.trans rfl hr) ?_
    | with_reducible refine State.opAction_only (Sub.trans rfl hp) (Sub.trans rfl hr) ?_ ?_
    | intro _
    | dsimp only

theorem State.doBbErase_only {p r : Nat} {s x : State} {a1 : _} (hp : Sub 2228232 p) (hr : Sub 0x61d00000000000000000000000000000000000000000000000000000000000000000000000000000000000000000038080300000000000000000000000000000000000000000000000000000000000000000000000000000000000000000000000000000000000000000000000000000000000000000000000000000000000000000000000000000000000000000000000000000000000000000000000000000000000000000000000000000000000000000000000000000000000000000000000000000000000000000000000000000000 r) (h : Only p r s x) :
    Only p r s (State.doBbErase x a1) := by
  unfold State.doBbErase
  repeat' first
    | with_reducible assumption
    | with_reducible refine State.updBb_only (Sub.trans rfl hp) (Sub.trans rfl hr) ?_
    | with_reducible refine State.showBb_only (Sub.trans rfl hp) (Sub.trans rfl hr) ?_
    | with_reducible refine State.completeDesc_only (Sub.trans rfl hp) (Sub.trans rfl hr) ?_
    | with_reducible refine Only.ite ?_ ?_
    | intro _
    | (extract_lets +onlyGivenNames y; first | (refine Only.cut (x := y) ?_ ?_; subst y; rotate_left; clear_value y; intro _) | clear_value y)
    | split
    | dsimp only

theorem State.scrubOrangery_only {p r : Nat} {s x : State} {a1 : _} (hp : Sub 4301258888 p) (hr : Sub 0xe060000000000000000000000000000080000000000000000000000000000000000000000000000000000000000000000000000000000000000000000000000000000000000000000000000000000000000000000000000000000000000000000000000000000000000000000000000000000000000000000000000000000000000000000000000000000000000000000000000000000000000000000000000000000000000000000000000000000000000000000000000000000000000000000000000000000000000000000000000000000000000000000000000000000000000 r) (h : Only p r s x) :
    Only p r s (State.scrubOrangery x a1) := by
  unfold State.scrubOrangery
  repeat' first
    | with_reducible assumption
    | with_reducible refine Only.thd (q := (State.eccFound _ _ _ _)) (by assumption) (State.eccFound_only (Sub.trans rfl hp) (Sub.trans rfl hr) ?_)
    | with_reducible refine State.eccFound_only (Sub.trans rfl hp) (Sub.trans rfl hr) ?_
    | with_reducible refine Only.inc 1675 R.BB_COUNT_ECC_CORR_num (Sub.bits hr rfl) ?_
    | with_reducible refine State.postOnce_only (Sub.trans rfl hp) (Sub.trans rfl hr) ?_
    | with_reducible refine State.updBb_only (Sub.trans rfl hp) (Sub.trans rfl hr) ?_
    | with_reducible refine State.post_only (Sub.trans rfl hp) (Sub.trans rfl hr) ?_
    | intro _
    | (extract_lets +onlyGivenNames y; first | (refine Only.cut (x := y) ?_ ?_; subst y; rotate_left; clear_value y; intro _) | (refine Only.cut (x := y.1) ?_ ?_; subst y; rotate_left; clear_value y; intro _) | (refine Only.cut (x := y.2) ?_ ?_; subst y; rotate_left; clear_value y; intro _) | (refine Only.cut (x := y.2.2) ?_ ?_; subst y; rotate_left; clear_value y; intro _) | clear_value y)
    | split
    | dsimp only

theorem State.readSections_only {p r : Nat} {s x : State} {a1 : _} (hp : Sub 4302307464 p) (hr : Sub 0xe0600000000000000000000000000000800000000000000000000000000002007c0000000000000000000000000000000000000000000000000000000000000000000000000000000000000000000000000000000000000000000000000000000000000000000000000000000000000000000000000000000000000000000000000000000000000000000000000000000000000000000000000000000000000000000000000000000000000000000000000000000000000000000000000000000000000000000000000000000000000000000000000000000000000000000000000 r) (h : Only p r s x) :
    Only p r s (State.readSections x a1) := by
  unfold State.readSections
  repeat' first
    | with_reducible assumption
    | with_reducible refine State.scrubRecorder_only (Sub.trans rfl hp) (Sub.trans rfl hr) ?_
    | with_reducible refine State.scrubOrangery_only (Sub.trans rfl hp) (Sub.trans rfl hr) ?_
    | with_reducible refine Only.ite ?_ ?_
    | with_reducible refine Only.foldl ?_ ?_
    | intro _
    | (extract_lets +onlyGivenNames y; first | (refine Only.cut (x := y) ?_ ?_; subst y; rotate_left; clear_value y; intro _) | clear_value y)
    | split
    | dsimp only

theorem State.respond_only {p r : Nat} {s x : State} {a1 a2 : _} (hp : Sub 4302307464 p) (hr : Sub 0xe0600000000000000000000000000000800000000000000000000000000002007c0000000000000000000000000000000000000000000000000000000000000000000000000000000000000000000000000000000000000000000000000000000000000000000000000000000000000000000000000000000000000000000000000000000000000000000000000000000000000000000000000000000000000000000000000000000000000000000000000000000000000000000000000000000000000000000000000000000000000000000000000000000000000000000000000 r) (h : Only p r s x) :
    Only p r s (State.respond x a1 a2) := by
  unfold State.respond
  repeat' first
    | with_reducible assumption
    | with_reducible refine State.readSections_only (Sub.trans rfl hp) (Sub.trans rfl hr) ?_
    | with_reducible refine State.updBb_only (Sub.trans rfl hp) (Sub.trans rfl hr) ?_
    | with_reducible refine Only.ite ?_ ?_
    | intro _
    | (extract_lets +onlyGivenNames y; first | (refine Only.cut (x := y) ?_ ?_; subst y; rotate_left; clear_value y; intro _) | clear_value y)
    | split
    | dsimp only

theorem execBbReadDbg_only {p r : Nat} {s : State} {a0 a1 : _} (hp : Sub 4570742920 p) (hr : Sub 0xe0600000000000000000000000000000800000000000000000000000000002007c0000000000000000000000000000000000000000000000000000000000000000000000000000000000000000000000000000000000000000000000000000000000000000000000000000000000000000000000000000000000000000000000000000000000000000000000000000000000000000000000000000000000000000000000000000000000000000000000000000000000000000000000000000000000000000000000000000000000000000000000000000000000000000000000000 r) :
    ∃ t, execBbReadDbg a0 a1 s = .next t ∧ Only p r s t := by
  unfold execBbReadDbg
  refine ⟨_, rfl, ?_⟩
  have h : Only p r s s := Only.refl
  repeat' first
    | with_reducible assumption
    | with_reducible refine State.readSections_only (Sub.trans rfl hp) (Sub.trans rfl hr) ?_
    | with_reducible refine State.reply_only (Sub.trans rfl hp) (Sub.trans rfl hr) ?_

theorem State.ptFreeze_only {p r : Nat} {s x : State} (hp : Sub 2097152 p) (hr : Sub 0x61d00000000000000000000000000000000000000000000000000000000000000000000000000000000000000000000000000000000000000000000000000000000000000000000000000000000000000000000000000000000000000000000000000000000000000000000000000000000000000000000000000000000000000000000000000000000000000000000000000000000000000000000000000000000000000000000000000000000000000000000000000000000000000000000000000000000000000000000000000000000 r) (h : Only p r s x) :
    Only p r s (State.ptFreeze x) := by
  unfold State.ptFreeze
  repeat' first
    | with_reducible assumption
    | with_reducible refine State.updBb_only (Sub.trans rfl hp) (Sub.trans rfl hr) ?_
    | with_reducible refine State.showBb_only (Sub.trans rfl hp) (Sub.trans rfl hr) ?_
    | with_reducible refine Only.ite ?_ ?_
    | intro _
    | (extract_lets +onlyGivenNames y; first | (refine Only.cut (x := y) ?_ ?_; subst y; rotate_left; clear_value y; intro _) | clear_value y)
    | split
    | dsimp only

theorem State.commitStart_only {p r : Nat} {s x : State} {a1 : _} (hp : Sub 2097152 p) (hr : Sub 0x61d00000000000000000000000000000000000000000000000000000000000000000000000000000000000000000000000000000000000000000000000000000000000000000000000000000000000000000000000000000000000000000000000000000000000000000000000000000000000000000000000000000000000000000000000000000000000000000000000000000000000000000000000000000000000000000000000000000000000000000000000000000000000000000000000000000000000000000000000000000000 r) (h : Only p r s x) :
    Only p r s (State.commitStart x a1) := by
  unfold State.commitStart
  repeat' first
    | with_reducible assumption
    | with_reducible refine State.ptFreeze_only (Sub.trans rfl hp) (Sub.trans rfl hr) ?_
    | with_reducible refine State.updBb_only (Sub.trans rfl hp) (Sub.trans rfl hr) ?_
    | intro _
    | (extract_lets +onlyGivenNames y; first | (refine Only.cut (x := y) ?_ ?_; subst y; rotate_left; clear_value y; intro _) | clear_value y)
    | split
    | dsimp only

theorem State.ptSample_only {p r : Nat} {s x : State} (hp : Sub 2097152 p) (hr : Sub 0x2000000000000000000000000000000000000000000000000000000000000000000000000000000000000000000000000000000000000000000000000000000000000000000000000000000000000000000000000000000000000000000000000000000000000000000000000000000000000000000000000000000000000000000000000000000000000000000000000000000000000000000000000000000000000000000000000000000000000000000000000000000000000000000000000000000000000000000000000000000000 r) (h : Only p r s x) :
    Only p r s (State.ptSample x) := by
  unfold State.ptSample
  repeat' first
    | with_reducible assumption
    | with_reducible refine Only.inc 1669 R.BB_STAT_PT_SKIPS_num (Sub.bits hr rfl) ?_
    | with_reducible refine State.updBb_only (Sub.trans rfl hp) (Sub.trans rfl hr) ?_
    | with_reducible refine Only.ite ?_ ?_
    | intro _
    | (extract_lets +onlyGivenNames y; first | (refine Only.cut (x := y) ?_ ?_; subst y; rotate_left; clear_value y; intro _) | clear_value y)
    | split
    | dsimp only

theorem State.powerSnapshot_only {p r : Nat} {s x : State} (hp : Sub 8187281406 p) (hr : Sub 0x1000000000000000000000000fcc00000000000000000000000000000000000000000000000000000000000000000000165f00000000000000000000000000400020000000000000000000000000000010000000000000000000000000000038080300000000000000000000000000000000000000000000000000000000000000000000000000000000000000000000000000000000000000000000000000000000000000000000000009fe007ffb0000000000000000000204000000000000000000000000000000000000000000000000000000000000000000000000000000000000000000000000000000000000000000000000000000000000000000000000 r) (h : Only p r s x) :
    Only p r s (State.powerSnapshot x) := by
  unfold State.powerSnapshot
  repeat' first
    | with_reducible assumption
    | with_reducible refine State.updBb_only (Sub.trans rfl hp) (Sub.trans rfl hr) ?_
    | with_reducible refine State.bbWrite_only (Sub.trans rfl hp) (Sub.trans rfl hr) ?_
    | with_reducible refine State.showBb_only (Sub.trans rfl hp) (Sub.trans rfl hr) ?_
    | with_reducible refine State.tryReset_only (Sub.trans rfl hp) (Sub.trans rfl hr) ?_
    | with_reducible refine Only.ite ?_ ?_
    | intro _
    | (extract_lets +onlyGivenNames y; first | (refine Only.cut (x := y) ?_ ?_; subst y; rotate_left; clear_value y; intro _) | clear_value y)
    | split
    | dsimp only

theorem execEvCmdBbErase_only {p r : Nat} {s : State} {a0 : _} (hp : Sub 2228360 p) (hr : Sub 0x61d00000000000000000000000000000000000000000000000000000000000000000000000000000000000000000038080300000000000000000000000000000000000000000000000000000000000000000000000000000000000000000000000000000000000000000000000000000000000000000000000000000000000000000000000000000000000000000000000000000000000000000000000000000000000000000000000000000000000000000000000000000000000000000000000000000000000000000000000000000000 r) :
    ∃ t, execEvCmdBbErase a0 s = .next t ∧ Only p r s t := by
  unfold execEvCmdBbErase
  refine ⟨_, rfl, ?_⟩
  have h : Only p r s s := Only.refl
  repeat' first
    | with_reducible assumption
    | with_reducible refine State.doBbErase_only (Sub.trans rfl hp) (Sub.trans rfl hr) ?_
    | with_reducible refine State.opAction_only (Sub.trans rfl hp) (Sub.trans rfl hr) ?_ ?_
    | intro _
    | dsimp only

theorem State.sealSlot_only {p r : Nat} {s x : State} (hp : Sub 2097152 p) (hr : Sub 0x200000000000000000000000000000000000000000000000000000000000000000000000000000000000000000000000000000000000000000000000000000000000000000000000000000000000000000000000000000000000000000000000000000000000000000000000000000000000000000000000000000000000000000000000000000000000000000000000000000000000000000000000000000000000000000000000000000000000000000000000000000000000000000000000000000000000000000000000000000000000 r) (h : Only p r s x) :
    Only p r s (State.sealSlot x) := by
  unfold State.sealSlot
  repeat' first
    | with_reducible assumption
    | with_reducible refine State.updBb_only (Sub.trans rfl hp) (Sub.trans rfl hr) ?_
    | with_reducible refine Only.inc 1677 R.BB_COUNT_HIST_OVERWRITTEN_num (Sub.bits hr rfl) ?_
    | intro _
    | (extract_lets +onlyGivenNames y; first | (refine Only.cut (x := y) ?_ ?_; subst y; rotate_left; clear_value y; intro _) | clear_value y)
    | split
    | dsimp only

theorem State.commitFinish_only {p r : Nat} {s x : State} {a1 a2 a3 : _} (hp : Sub 8187281406 p) (hr : Sub 0x1000000000000000000000000fcc0000000000000000000000000000000000000000000000000000000000000000000037df00000000000000000000000000400020000000000000000000000000000010000000000000000000000000000038080300000000000000000000000000000000000000000000000000000000000000000000000000000000000000000000000000000000000000000000000000000000000000000000000009fe007ffb0000000000000000000204000000000000000000000000000000000000000000000000000000000000000000000000000000000000000000000000000000000000000000000000000000000000000000000000 r) (h : Only p r s x) :
    Only p r s (State.commitFinish x a1 a2 a3) := by
  unfold State.commitFinish
  repeat' first
    | with_reducible assumption
    | with_reducible refine State.updBb_only (Sub.trans rfl hp) (Sub.trans rfl hr) ?_
    | with_reducible refine State.logFault_only (Sub.trans rfl hp) (Sub.trans rfl hr) ?_
    | with_reducible refine State.mirrorSlot_only (Sub.trans rfl hp) (Sub.trans rfl hr) ?_
    | with_reducible refine State.sealSlot_only (Sub.trans rfl hp) (Sub.trans rfl hr) ?_
    | with_reducible refine State.showBb_only (Sub.trans rfl hp) (Sub.trans rfl hr) ?_
    | with_reducible refine Only.set 1671 R.BB_LAST_COMMIT_DUR_num (Sub.bits hr rfl) ?_
    | with_reducible refine Only.inc 1672 R.BB_LAST_COMMIT_COMMITS_num (Sub.bits hr rfl) ?_
    | with_reducible refine State.post_only (Sub.trans rfl hp) (Sub.trans rfl hr) ?_
    | with_reducible refine State.tryReset_only (Sub.trans rfl hp) (Sub.trans rfl hr) ?_
    | with_reducible refine Only.ite ?_ ?_
    | with_reducible refine Only.foldl ?_ ?_
    | intro _
    | (extract_lets +onlyGivenNames y; first | (refine Only.cut (x := y) ?_ ?_; subst y; rotate_left; clear_value y; intro _) | clear_value y)
    | split
    | dsimp only

theorem State.escOnly_only {p r : Nat} {s x : State} (hp : Sub 8187281406 p) (hr : Sub 0x1000000000000000000000000fcc0000000000000000000000000000000000000e06000000000000000000000000000077df00000000000000000000000000400020000000000000000000000000000010000000000000000000000000000038080300000000000000000000000000000000000000000000000000000000000000000000000000000000000000000000000000000000000000000000000000000000000000000000000009fe007ffb0000000000000000000204000000000000000000000000000000000000000000000000000000000000000000000000000000000000000000000000000000000000000000000000000000000000000000000000 r) (h : Only p r s x) :
    Only p r s (State.escOnly x) := by
  unfold State.escOnly
  repeat' first
    | with_reducible assumption
    | with_reducible refine Only.inc 1678 R.BB_COUNT_SUBSTITUTES_num (Sub.bits hr rfl) ?_
    | with_reducible refine State.commitFinish_only (Sub.trans rfl hp) (Sub.trans rfl hr) ?_
    | with_reducible refine State.detect_only (Sub.trans rfl hp) (Sub.trans rfl hr) ?_ ?_
    | intro _
    | (extract_lets +onlyGivenNames y; first | (refine Only.cut (x := y) ?_ ?_; subst y; rotate_left; clear_value y; intro _) | clear_value y)
    | split
    | dsimp only

theorem execBbEscOnly_only {p r : Nat} {s : State} (hp : Sub 8187281406 p) (hr : Sub 0x1000000000000000000000000fcc0000000000000000000000000000000000000e06000000000000000000000000000077df00000000000000000000000000400020000000000000000000000000000010000000000000000000000000000038080300000000000000000000000000000000000000000000000000000000000000000000000000000000000000000000000000000000000000000000000000000000000000000000000009fe007ffb0000000000000000000204000000000000000000000000000000000000000000000000000000000000000000000000000000000000000000000000000000000000000000000000000000000000000000000000 r) :
    ∃ t, execBbEscOnly s = .next t ∧ Only p r s t := by
  unfold execBbEscOnly
  refine ⟨_, rfl, ?_⟩
  have h : Only p r s s := Only.refl
  repeat' first
    | with_reducible assumption
    | with_reducible refine State.escOnly_only (Sub.trans rfl hp) (Sub.trans rfl hr) ?_

theorem State.commitRecord_only {p r : Nat} {s x : State} (hp : Sub 8187281406 p) (hr : Sub 0x1000000000000000000000000fcc0000000000000000000000000000000000000000000000000000000000000000000037df00000000000000000000000000400020000000000000000000000000000010000000000000000000000000000038080300000000000000000000000000000000000000000000000000000000000000000000000000000000000000000000000000000000000000000000000000000000000000000000000009fe007ffb0000000000000000000204000000000000000000000000000000000000000000000000000000000000000000000000000000000000000000000000000000000000000000000000000000000000000000000000 r) (h : Only p r s x) :
    Only p r s (State.commitRecord x) := by
  unfold State.commitRecord
  repeat' first
    | with_reducible assumption
    | with_reducible refine State.commitFinish_only (Sub.trans rfl hp) (Sub.trans rfl hr) ?_
    | with_reducible refine Only.ite ?_ ?_
    | (extract_lets +onlyGivenNames y; first | (refine Only.cut (x := y) ?_ ?_; subst y; rotate_left; clear_value y; intro _) | clear_value y)
    | split
    | dsimp only

theorem execOrangeryCommitRecord_only {p r : Nat} {s : State} (hp : Sub 8187281406 p) (hr : Sub 0x1000000000000000000000000fcc0000000000000000000000000000000000000000000000000000000000000000000037df00000000000000000000000000400020000000000000000000000000000010000000000000000000000000000038080300000000000000000000000000000000000000000000000000000000000000000000000000000000000000000000000000000000000000000000000000000000000000000000000009fe007ffb0000000000000000000204000000000000000000000000000000000000000000000000000000000000000000000000000000000000000000000000000000000000000000000000000000000000000000000000 r) :
    ∃ t, execOrangeryCommitRecord s = .next t ∧ Only p r s t := by
  unfold execOrangeryCommitRecord
  refine ⟨_, rfl, ?_⟩
  have h : Only p r s s := Only.refl
  repeat' first
    | with_reducible assumption
    | with_reducible refine State.commitRecord_only (Sub.trans rfl hp) (Sub.trans rfl hr) ?_

theorem execPowerLossSnapshot_only {p r : Nat} {s : State} (hp : Sub 8187281406 p) (hr : Sub 0x1000000000000000000000000fcc00000000000000000000000000000000000000000000000000000000000000000000165f00000000000000000000000000400020000000000000000000000000000010000000000000000000000000000038080300000000000000000000000000000000000000000000000000000000000000000000000000000000000000000000000000000000000000000000000000000000000000000000000009fe007ffb0000000000000000000204000000000000000000000000000000000000000000000000000000000000000000000000000000000000000000000000000000000000000000000000000000000000000000000000 r) :
    ∃ t, execPowerLossSnapshot s = .next t ∧ Only p r s t := by
  unfold execPowerLossSnapshot
  refine ⟨_, rfl, ?_⟩
  have h : Only p r s s := Only.refl
  repeat' first
    | with_reducible assumption
    | with_reducible refine State.powerSnapshot_only (Sub.trans rfl hp) (Sub.trans rfl hr) ?_

theorem execBbResponderRequest_only {p r : Nat} {s : State} {a0 a1 : _} (hp : Sub 4302307464 p) (hr : Sub 0xe0600000000000000000000000000000800000000000000000000000000002007c0000000000000000000000000000000000000000000000000000000000000000000000000000000000000000000000000000000000000000000000000000000000000000000000000000000000000000000000000000000000000000000000000000000000000000000000000000000000000000000000000000000000000000000000000000000000000000000000000000000000000000000000000000000000000000000000000000000000000000000000000000000000000000000000000 r) :
    ∃ t, execBbResponderRequest a0 a1 s = .next t ∧ Only p r s t := by
  unfold execBbResponderRequest
  refine ⟨_, rfl, ?_⟩
  have h : Only p r s s := Only.refl
  repeat' first
    | with_reducible assumption
    | with_reducible refine State.respond_only (Sub.trans rfl hp) (Sub.trans rfl hr) ?_

theorem State.ptMove_only {p r : Nat} {s x : State} (hp : Sub 2097152 p) (hr : Sub 0 r) (h : Only p r s x) :
    Only p r s (State.ptMove x) := by
  unfold State.ptMove
  repeat' first
    | with_reducible assumption
    | with_reducible refine State.updBb_only (Sub.trans rfl hp) (Sub.trans rfl hr) ?_
    | with_reducible refine Only.ite ?_ ?_
    | intro _
    | (extract_lets +onlyGivenNames y; first | (refine Only.cut (x := y) ?_ ?_; subst y; rotate_left; clear_value y; intro _) | clear_value y)
    | split
    | dsimp only

theorem execPretriggerMove_only {p r : Nat} {s : State} (hp : Sub 2097152 p) (hr : Sub 0 r) :
    ∃ t, execPretriggerMove s = .next t ∧ Only p r s t := by
  unfold execPretriggerMove
  refine ⟨_, rfl, ?_⟩
  have h : Only p r s s := Only.refl
  repeat' first
    | with_reducible assumption
    | with_reducible refine State.ptMove_only (Sub.trans rfl hp) (Sub.trans rfl hr) ?_

end Sys2Proof.Machine
end

