-- ==== Sys2Proof/Laws/OnlyLongOp.lean ====
section
/-! SUPPORT. Footprints of the operations of Machine/LongOp.lean. -/
namespace Sys2Proof.Machine
set_option linter.all false
set_option Elab.async false

theorem State.setImage_only {p r : Nat} {s x : State} {a1 a2 a3 : _} (_hp : Sub 0 p) (hr : Sub 0x180000000000000000000000000000000000000000000000000000000000000000000000000000000000000000000000000000000000000000000000000000000000000000000000000000000000000000000000000000000000000000000000000000000000000000000000000000000000000000000000000000000000000000000000000000000000000000000000000000000000000000000000000000000000000 r) (h : Only p r s x) :
    Only p r s (State.setImage x a1 a2 a3) := by
  unfold State.setImage
  repeat' first
    | with_reducible assumption
    | with_reducible refine Only.set 1303 R.HI_IMG_STAT_STATE_num (Sub.bits hr rfl) ?_
    | with_reducible refine Only.set 1304 R.HI_IMG_STAT_IMAGE_ID_num (Sub.bits hr rfl) ?_

theorem State.endLong_only {p r : Nat} {s x : State} {a1 : _} (hp : Sub 131072 p) (hr : Sub 0 r) (h : Only p r s x) :
    Only p r s (State.endLong x a1) := by
  unfold State.endLong
  repeat' first
    | with_reducible assumption
    | with_reducible refine State.updHi_only (Sub.trans rfl hp) (Sub.trans rfl hr) ?_
    | intro _
    | (extract_lets +onlyGivenNames y; first | (refine Only.cut (x := y) ?_ ?_; subst y; rotate_left; clear_value y; intro _) | clear_value y)
    | dsimp only

theorem State.longFinish_only {p r : Nat} {s x : State} {a1 a2 a3 : _} (hp : Sub 131080 p) (hr : Sub 0x38080300000000000000000000000000000000000000000000000000000000000000000000000000000000000000000000000000000000000000000000000000000000000000000000000000000000000000000000000000000000000000000000000000000000000000000000000000000000000000000000000000000000000000000000000000000000000000000000000000000000000000000000000000000000 r) (h : Only p r s x) :
    Only p r s (State.longFinish x a1 a2 a3) := by
  unfold State.longFinish
  repeat' first
    | with_reducible assumption
    | with_reducible refine State.writeStatus_only (Sub.trans rfl hp) (Sub.trans rfl hr) ?_
    | with_reducible refine State.endLong_only (Sub.trans rfl hp) (Sub.trans rfl hr) ?_
    | with_reducible refine State.completeDesc_only (Sub.trans rfl hp) (Sub.trans rfl hr) ?_
    | with_reducible refine Only.ite ?_ ?_
    | (extract_lets +onlyGivenNames y; first | (refine Only.cut (x := y) ?_ ?_; subst y; rotate_left; clear_value y; intro _) | clear_value y)
    | split
    | dsimp only

theorem State.stopLong_only {p r : Nat} {s x : State} {a1 : _} (hp : Sub 131080 p) (hr : Sub 0x1b8080300000000000000000000000000000000000000000000000000000000000000000000000000000000000000000000000000000000000000000000000000000000000000000000000000000000000000000000000000000000000000000000000000000000000000000000000000000000000000000000000000000000000000000000000000000000000000000000000000000000000000000000000000000000 r) (h : Only p r s x) :
    Only p r s (State.stopLong x a1) := by
  unfold State.stopLong
  repeat' first
    | with_reducible assumption
    | with_reducible refine State.setImage_only (Sub.trans rfl hp) (Sub.trans rfl hr) ?_
    | with_reducible refine State.longFinish_only (Sub.trans rfl hp) (Sub.trans rfl hr) ?_
    | with_reducible refine State.endLong_only (Sub.trans rfl hp) (Sub.trans rfl hr) ?_
    | with_reducible refine Only.ite ?_ ?_
    | (extract_lets +onlyGivenNames y; first | (refine Only.cut (x := y) ?_ ?_; subst y; rotate_left; clear_value y; intro _) | clear_value y)
    | split
    | dsimp only

theorem State.doLongAbort_only {p r : Nat} {s x : State} {a1 : _} (hp : Sub 131080 p) (hr : Sub 0x1b8080300000000000000000000000000000000000000000000000000000000000000000000000000000000000000000000000000000000000000000000000000000000000000000000000000000000000000000000000000000000000000000000000000000000000000000000000000000000000000000000000000000000000000000000000000000000000000000000000000000000000000000000000000000000 r) (h : Only p r s x) :
    Only p r s (State.doLongAbort x a1) := by
  unfold State.doLongAbort
  repeat' first
    | with_reducible assumption
    | with_reducible refine State.stopLong_only (Sub.trans rfl hp) (Sub.trans rfl hr) ?_
    | with_reducible refine State.completeDesc_only (Sub.trans rfl hp) (Sub.trans rfl hr) ?_
    | intro _
    | (extract_lets +onlyGivenNames y; first | (refine Only.cut (x := y) ?_ ?_; subst y; rotate_left; clear_value y; intro _) | clear_value y)
    | split
    | dsimp only

theorem State.longStart_only {p r : Nat} {s x : State} {a1 a2 a3 : _} (hp : Sub 131072 p) (hr : Sub 0 r) (h : Only p r s x) :
    Only p r s (State.longStart x a1 a2 a3) := by
  unfold State.longStart
  repeat' first
    | with_reducible assumption
    | with_reducible refine State.updHi_only (Sub.trans rfl hp) (Sub.trans rfl hr) ?_
    | with_reducible refine State.writeStatus_only (Sub.trans rfl hp) (Sub.trans rfl hr) ?_
    | intro _
    | (extract_lets +onlyGivenNames y; first | (refine Only.cut (x := y) ?_ ?_; subst y; rotate_left; clear_value y; intro _) | clear_value y)
    | dsimp only

theorem execFwUpdate_only {p r : Nat} {s : State} {a0 : _} (hp : Sub 131208 p) (hr : Sub 0x38080300000000000000000000000000000000000000000000000000000000000000000000000000000000000000000000000000000000000000000000000000000000000000000000000000000000000000000000000000000000000000000000000000000000000000000000000000000000000000000000000000000000000000000000000000000000000000000000000000000000000000000000000000000000 r) :
    ∃ t, execFwUpdate a0 s = .next t ∧ Only p r s t := by
  unfold execFwUpdate
  refine ⟨_, rfl, ?_⟩
  have h : Only p r s s := Only.refl
  repeat' first
    | with_reducible assumption
    | with_reducible refine State.longStart_only (Sub.trans rfl hp) (Sub.trans rfl hr) ?_
    | with_reducible refine State.action_only (Sub.trans rfl hp) (Sub.trans rfl hr) ?_ ?_
    | with_reducible refine Only.ite ?_ ?_
    | intro _
    | split
    | dsimp only

theorem execLongAbort_only {p r : Nat} {s : State} {a0 : _} (hp : Sub 131208 p) (hr : Sub 0x1b8080300000000000000000000000000000000000000000000000000000000000000000000000000000000000000000000000000000000000000000000000000000000000000000000000000000000000000000000000000000000000000000000000000000000000000000000000000000000000000000000000000000000000000000000000000000000000000000000000000000000000000000000000000000000 r) :
    ∃ t, execLongAbort a0 s = .next t ∧ Only p r s t := by
  unfold execLongAbort
  refine ⟨_, rfl, ?_⟩
  have h : Only p r s s := Only.refl
  repeat' first
    | with_reducible assumption
    | with_reducible refine State.doLongAbort_only (Sub.trans rfl hp) (Sub.trans rfl hr) ?_
    | with_reducible refine State.action_only (Sub.trans rfl hp) (Sub.trans rfl hr) ?_ ?_
    | intro _
    | dsimp only

theorem execOfflineSolve_only {p r : Nat} {s : State} {a0 : _} (hp : Sub 131208 p) (hr : Sub 0x38080300000000000000000000000000000000000000000000000000000000000000000000000000000000000000000000000000000000000000000000000000000000000000000000000000000000000000000000000000000000000000000000000000000000000000000000000000000000000000000000000000000000000000000000000000000000000000000000000000000000000000000000000000000000 r) :
    ∃ t, execOfflineSolve a0 s = .next t ∧ Only p r s t := by
  unfold execOfflineSolve
  refine ⟨_, rfl, ?_⟩
  have h : Only p r s s := Only.refl
  repeat' first
    | with_reducible assumption
    | with_reducible refine State.longStart_only (Sub.trans rfl hp) (Sub.trans rfl hr) ?_
    | with_reducible refine State.action_only (Sub.trans rfl hp) (Sub.trans rfl hr) ?_ ?_
    | intro _
    | dsimp only

theorem execBbDump_only {p r : Nat} {s : State} {a0 : _} (hp : Sub 131208 p) (hr : Sub 0x38080300000000000000000000000000000000000000000000000000000000000000000000000000000000000000000000000000000000000000000000000000000000000000000000000000000000000000000000000000000000000000000000000000000000000000000000000000000000000000000000000000000000000000000000000000000000000000000000000000000000000000000000000000000000 r) :
    ∃ t, execBbDump a0 s = .next t ∧ Only p r s t := by
  unfold execBbDump
  refine ⟨_, rfl, ?_⟩
  have h : Only p r s s := Only.refl
  repeat' first
    | with_reducible assumption
    | with_reducible refine State.longStart_only (Sub.trans rfl hp) (Sub.trans rfl hr) ?_
    | with_reducible refine State.action_only (Sub.trans rfl hp) (Sub.trans rfl hr) ?_ ?_
    | intro _
    | dsimp only

theorem State.longUpdate_only {p r : Nat} {s x : State} {a1 a2 a3 a4 a5 : _} (hp : Sub 131080 p) (hr : Sub 0x38080300000000000000000000000000000000000000000000000000000000000000000000000000000000000000000000000000000000000000000000000000000000000000000000000000000000000000000000000000000000000000000000000000000000000000000000000000000000000000000000000000000000000000000000000000000000000000000000000000000000000000000000000000000000 r) (h : Only p r s x) :
    Only p r s (State.longUpdate x a1 a2 a3 a4 a5) := by
  unfold State.longUpdate
  repeat' first
    | with_reducible assumption
    | with_reducible refine State.writeStatus_only (Sub.trans rfl hp) (Sub.trans rfl hr) ?_
    | with_reducible refine State.hostPut_only (Sub.trans rfl hp) (Sub.trans rfl hr) ?_
    | with_reducible refine State.longFinish_only (Sub.trans rfl hp) (Sub.trans rfl hr) ?_
    | with_reducible refine Only.ite ?_ ?_
    | (extract_lets +onlyGivenNames y; first | (refine Only.cut (x := y) ?_ ?_; subst y; rotate_left; clear_value y; intro _) | clear_value y)
    | split
    | dsimp only

theorem execLongOpStatusUpdate_only {p r : Nat} {s : State} {a0 a1 a2 a3 a4 : _} (hp : Sub 131080 p) (hr : Sub 0x38080300000000000000000000000000000000000000000000000000000000000000000000000000000000000000000000000000000000000000000000000000000000000000000000000000000000000000000000000000000000000000000000000000000000000000000000000000000000000000000000000000000000000000000000000000000000000000000000000000000000000000000000000000000000 r) :
    ∃ t, execLongOpStatusUpdate a0 a1 a2 a3 a4 s = .next t ∧ Only p r s t := by
  unfold execLongOpStatusUpdate
  refine ⟨_, rfl, ?_⟩
  have h : Only p r s s := Only.refl
  repeat' first
    | with_reducible assumption
    | with_reducible refine State.longUpdate_only (Sub.trans rfl hp) (Sub.trans rfl hr) ?_

theorem State.imageEnd_only {p r : Nat} {s x : State} {a1 a2 a3 a4 : _} (hp : Sub 131080 p) (hr : Sub 0x1b8080300000000000000000000000000000000000000000000000000000000000000000000000000000000000000000000000000000000000000000000000000000000000000000000000000000000000000000000000000000000000000000000000000000000000000000000000000000000000000000000000000000000000000000000000000000000000000000000000000000000000000000000000000000000 r) (h : Only p r s x) :
    Only p r s (State.imageEnd x a1 a2 a3 a4) := by
  unfold State.imageEnd
  repeat' first
    | with_reducible assumption
    | with_reducible refine State.updHi_only (Sub.trans rfl hp) (Sub.trans rfl hr) ?_
    | with_reducible refine State.setImage_only (Sub.trans rfl hp) (Sub.trans rfl hr) ?_
    | with_reducible refine State.longFinish_only (Sub.trans rfl hp) (Sub.trans rfl hr) ?_
    | with_reducible refine Only.ite ?_ ?_
    | intro _
    | (extract_lets +onlyGivenNames y; first | (refine Only.cut (x := y) ?_ ?_; subst y; rotate_left; clear_value y; intro _) | (refine Only.cutf (f := y) ?_ ?_; subst y; rotate_left; clear_value y; intro _) | clear_value y)
    | split
    | dsimp only
    | with_reducible apply_assumption

theorem State.doImageLoad_only {p r : Nat} {s x : State} {a1 : _} (hp : Sub 131080 p) (hr : Sub 0x1b8080300000000000000000000000000000000000000000000000000000000000000000000000000000000000000000000000000000000000000000000000000000000000000000000000000000000000000000000000000000000000000000000000000000000000000000000000000000000000000000000000000000000000000000000000000000000000000000000000000000000000000000000000000000000 r) (h : Only p r s x) :
    Only p r s (State.doImageLoad x a1) := by
  unfold State.doImageLoad
  repeat' first
    | with_reducible assumption
    | with_reducible refine State.completeDesc_only (Sub.trans rfl hp) (Sub.trans rfl hr) ?_
    | with_reducible refine State.setImage_only (Sub.trans rfl hp) (Sub.trans rfl hr) ?_
    | with_reducible refine State.longStart_only (Sub.trans rfl hp) (Sub.trans rfl hr) ?_
    | with_reducible refine Only.ite ?_ ?_
    | (extract_lets +onlyGivenNames y; first | (refine Only.cut (x := y) ?_ ?_; subst y; rotate_left; clear_value y; intro _) | clear_value y)
    | split
    | dsimp only

theorem State.longResults_only {p r : Nat} {s x : State} {a1 a2 a3 a4 : _} (hp : Sub 131080 p) (hr : Sub 0x38080300000000000000000000000000000000000000000000000000000000000000000000000000000000000000000000000000000000000000000000000000000000000000000000000000000000000000000000000000000000000000000000000000000000000000000000000000000000000000000000000000000000000000000000000000000000000000000000000000000000000000000000000000000000 r) (h : Only p r s x) :
    Only p r s (State.longResults x a1 a2 a3 a4) := by
  unfold State.longResults
  repeat' first
    | with_reducible assumption
    | with_reducible refine State.hostPut_only (Sub.trans rfl hp) (Sub.trans rfl hr) ?_
    | with_reducible refine State.longFinish_only (Sub.trans rfl hp) (Sub.trans rfl hr) ?_
    | with_reducible refine Only.ite ?_ ?_
    | (extract_lets +onlyGivenNames y; first | (refine Only.cut (x := y) ?_ ?_; subst y; rotate_left; clear_value y; intro _) | clear_value y)
    | split

theorem State.firmwareEnd_only {p r : Nat} {s x : State} {a1 a2 a3 a4 : _} (hp : Sub 33685512 p) (hr : Sub 0x38080300000000000000000000000000000000000000000000000000000000000000000000000000000000000000000000000000000000000000000000000000000000000000000000000000000000000000000000000000000000000000000000000000000000000000000000000000000000000000000000000000000000000000000000000000000000000000000000000000000000000000000000000000000000 r) (h : Only p r s x) :
    Only p r s (State.firmwareEnd x a1 a2 a3 a4) := by
  unfold State.firmwareEnd
  repeat' first
    | with_reducible assumption
    | with_reducible refine State.post_only (Sub.trans rfl hp) (Sub.trans rfl hr) ?_
    | with_reducible refine State.longFinish_only (Sub.trans rfl hp) (Sub.trans rfl hr) ?_
    | with_reducible refine Only.ite ?_ ?_
    | intro _
    | (extract_lets +onlyGivenNames y; first | (refine Only.cut (x := y) ?_ ?_; subst y; rotate_left; clear_value y; intro _) | clear_value y)
    | split
    | dsimp only
    | (first | (with_reducible refine Only.upd_pw (Sub.bits hp rfl) ?_; first | with_reducible assumption | with_reducible refine State.post_only (Sub.trans rfl hp) (Sub.trans rfl hr) ?_ | with_reducible refine State.longFinish_only (Sub.trans rfl hp) (Sub.trans rfl hr) ?_))

theorem State.longEnd_only {p r : Nat} {s x : State} {a1 a2 : _} (hp : Sub 4335992968 p) (hr : Sub 0xe0600000000000000000000000000000800000000000000000000000000002007c00000000000000000000000000000000000000000000000000000000001b8080300000000000000000000000000000000000000000000000000000000000000000000000000000000000000000000000000000000000000000000000000000000000000000000000000000000000000000000000000000000000000000000000000000000000000000000000000000000000000000000000000000000000000000000000000000000000000000000000000000000000000000000000000000000 r) (h : Only p r s x) :
    Only p r s (State.longEnd x a1 a2) := by
  unfold State.longEnd
  repeat' first
    | with_reducible assumption
    | with_reducible refine State.imageEnd_only (Sub.trans rfl hp) (Sub.trans rfl hr) ?_
    | with_reducible refine State.longResults_only (Sub.trans rfl hp) (Sub.trans rfl hr) ?_
    | with_reducible refine State.readSections_only (Sub.trans rfl hp) (Sub.trans rfl hr) ?_
    | with_reducible refine State.firmwareEnd_only (Sub.trans rfl hp) (Sub.trans rfl hr) ?_
    | with_reducible refine State.setImage_only (Sub.trans rfl hp) (Sub.trans rfl hr) ?_
    | with_reducible refine State.longFinish_only (Sub.trans rfl hp) (Sub.trans rfl hr) ?_
    | with_reducible refine Only.ite ?_ ?_
    | (extract_lets +onlyGivenNames y; first | (refine Only.cut (x := y) ?_ ?_; subst y; rotate_left; clear_value y; intro _) | clear_value y)
    | split
    | dsimp only

theorem execLongOpEnd_only {p r : Nat} {s : State} {a0 a1 : _} (hp : Sub 4335992968 p) (hr : Sub 0xe0600000000000000000000000000000800000000000000000000000000002007c00000000000000000000000000000000000000000000000000000000001b8080300000000000000000000000000000000000000000000000000000000000000000000000000000000000000000000000000000000000000000000000000000000000000000000000000000000000000000000000000000000000000000000000000000000000000000000000000000000000000000000000000000000000000000000000000000000000000000000000000000000000000000000000000000000 r) :
    ∃ t, execLongOpEnd a0 a1 s = .next t ∧ Only p r s t := by
  unfold execLongOpEnd
  refine ⟨_, rfl, ?_⟩
  have h : Only p r s s := Only.refl
  repeat' first
    | with_reducible assumption
    | with_reducible refine State.longEnd_only (Sub.trans rfl hp) (Sub.trans rfl hr) ?_

theorem execImageLoad_only {p r : Nat} {s : State} {a0 : _} (hp : Sub 131208 p) (hr : Sub 0x1b8080300000000000000000000000000000000000000000000000000000000000000000000000000000000000000000000000000000000000000000000000000000000000000000000000000000000000000000000000000000000000000000000000000000000000000000000000000000000000000000000000000000000000000000000000000000000000000000000000000000000000000000000000000000000 r) :
    ∃ t, execImageLoad a0 s = .next t ∧ Only p r s t := by
  unfold execImageLoad
  refine ⟨_, rfl, ?_⟩
  have h : Only p r s s := Only.refl
  repeat' first
    | with_reducible assumption
    | with_reducible refine State.doImageLoad_only (Sub.trans rfl hp) (Sub.trans rfl hr) ?_
    | with_reducible refine State.action_only (Sub.trans rfl hp) (Sub.trans rfl hr) ?_ ?_
    | intro _
    | dsimp only

theorem execSelfTest_only {p r : Nat} {s : State} {a0 : _} (hp : Sub 131208 p) (hr : Sub 0x38080300000000000000000000000000000000000000000000000000000000000000000000000000000000000000000000000000000000000000000000000000000000000000000000000000000000000000000000000000000000000000000000000000000000000000000000000000000000000000000000000000000000000000000000000000000000000000000000000000000000000000000000000000000000 r) :
    ∃ t, execSelfTest a0 s = .next t ∧ Only p r s t := by
  unfold execSelfTest
  refine ⟨_, rfl, ?_⟩
  have h : Only p r s s := Only.refl
  repeat' first
    | with_reducible assumption
    | with_reducible refine State.longStart_only (Sub.trans rfl hp) (Sub.trans rfl hr) ?_
    | with_reducible refine State.action_only (Sub.trans rfl hp) (Sub.trans rfl hr) ?_ ?_
    | intro _
    | dsimp only

end Sys2Proof.Machine
end

