-- ==== Sys2Proof/Laws/OnlySafetyIo.lean ====
section
/-! SUPPORT. Footprints of the operations of Machine/SafetyIo.lean. -/
namespace Sys2Proof.Machine
set_option linter.all false
set_option Elab.async false

theorem State.sioPost_only {p r : Nat} {s x : State} {a1 a2 : _} (hp : Sub 16777224 p) (hr : Sub 0 r) (h : Only p r s x) :
    Only p r s (State.sioPost x a1 a2) := by
  unfold State.sioPost
  repeat' first
    | with_reducible assumption
    | with_reducible refine State.post_only (Sub.trans rfl hp) (Sub.trans rfl hr) ?_
    | with_reducible refine State.updSio_only (Sub.trans rfl hp) (Sub.trans rfl hr) ?_
    | with_reducible refine Only.ite ?_ ?_
    | intro _
    | (extract_lets +onlyGivenNames y; first | (refine Only.cut (x := y) ?_ ?_; subst y; rotate_left; clear_value y; intro _) | clear_value y)
    | split
    | dsimp only

theorem State.sioAct_only {p r : Nat} {s x : State} {a1 : _} (hp : Sub 16930840 p) (hr : Sub 0xfc000000000000000000000000000000000000000000000000000000000000000000000000000000000000000000000000000000000000000000000000000000000000000000000000000000000000000000038080300000000000000000000000000000000000000000000000000000000000000000000000000000000000000000000000000000000000000000000000000000000000000000000000009fe007ffb0000000000000000000204000000000000000000000000000000000000000000000000000000000000000000000000000000000000000000000000000000000000000000000000000000000000000000000000 r) (h : Only p r s x) :
    Only p r s (State.sioAct x a1) := by
  unfold State.sioAct
  repeat' first
    | with_reducible assumption
    | with_reducible refine State.fault_only (Sub.trans rfl hp) (Sub.trans rfl hr) ?_
    | with_reducible refine State.assertAll_only (Sub.trans rfl hp) (Sub.trans rfl hr) ?_
    | with_reducible refine State.assertMask_only (Sub.trans rfl hp) (Sub.trans rfl hr) ?_
    | with_reducible refine Only.ite ?_ ?_
    | (extract_lets +onlyGivenNames y; first | (refine Only.cut (x := y) ?_ ?_; subst y; rotate_left; clear_value y; intro _) | clear_value y)
    | split
    | dsimp only

theorem State.sioApply_only {p r : Nat} {s x : State} {a1 a2 : _} (hp : Sub 16930840 p) (hr : Sub 0xfc000000000000000000000000000000000000000000000000000000000000000000000000000000000000000000000000000000000000000000000000000000000000000000000000000000000000000000038080300000000000000000000000000000000000000000000000000000000000000000000000000000000000000000000000000000000000000000000000000000000000000000000000009fe007ffb0000000000000000000204000000000000000000000000000000000000000000000000000000000000000000000000000000000000000000000000000000000000000000000000000000000000000000000000 r) (h : Only p r s x) :
    Only p r s (State.sioApply x a1 a2) := by
  unfold State.sioApply
  repeat' first
    | with_reducible assumption
    | with_reducible refine State.sioPost_only (Sub.trans rfl hp) (Sub.trans rfl hr) ?_
    | with_reducible refine State.sioAct_only (Sub.trans rfl hp) (Sub.trans rfl hr) ?_
    | with_reducible refine Only.ite ?_ ?_
    | split

theorem State.sioFollow_only {p r : Nat} {s x : State} {a1 a2 : _} (hp : Sub 16930840 p) (hr : Sub 0xfc400000000000000000000000000000000000000000000000000000000000000000000000000000000000000000000000000000000000000000000000000000000000000000000000000000000000000000038080300000000000000000000000000000000000000000000000000000000000000000000000000000000000000000000000000000000000000000000000000000000000000000000000009fe007ffb0000000000000000000204000000000000000000000000000000000000000000000000000000000000000000000000000000000000000000000000000000000000000000000000000000000000000000000000 r) (h : Only p r s x) :
    Only p r s (State.sioFollow x a1 a2) := by
  unfold State.sioFollow
  repeat' first
    | with_reducible assumption
    | with_reducible refine Only.set 1954 R.AD_SIO_STAT_DEMAND_num (Sub.bits hr rfl) ?_
    | with_reducible refine State.updSio_only (Sub.trans rfl hp) (Sub.trans rfl hr) ?_
    | with_reducible refine State.sioApply_only (Sub.trans rfl hp) (Sub.trans rfl hr) ?_
    | with_reducible refine Only.ite ?_ ?_
    | intro _
    | (extract_lets +onlyGivenNames y; first | (refine Only.cut (x := y) ?_ ?_; subst y; rotate_left; clear_value y; intro _) | clear_value y)
    | split
    | dsimp only

theorem State.discrepancy_only {p r : Nat} {s x : State} {a1 : _} (hp : Sub 16930840 p) (hr : Sub 0xfcc00000000000000000000000000000000000000000000000000000000000000000000000000000000000000000000000000000000000000000000000000000000000000000000000000000000000000000038080300000000000000000000000000000000000000000000000000000000000000000000000000000000000000000000000000000000000000000000000000000000000000000000000009fe007ffb0000000000000000000204000000000000000000000000000000000000000000000000000000000000000000000000000000000000000000000000000000000000000000000000000000000000000000000000 r) (h : Only p r s x) :
    Only p r s (State.discrepancy x a1) := by
  unfold State.discrepancy
  repeat' first
    | with_reducible assumption
    | with_reducible refine Only.set 1955 R.AD_SIO_STAT_DISC_num (Sub.bits hr rfl) ?_
    | with_reducible refine State.post_only (Sub.trans rfl hp) (Sub.trans rfl hr) ?_
    | with_reducible refine State.sioFollow_only (Sub.trans rfl hp) (Sub.trans rfl hr) ?_
    | with_reducible refine Only.ite ?_ ?_
    | intro _
    | (extract_lets +onlyGivenNames y; first | (refine Only.cut (x := y) ?_ ?_; subst y; rotate_left; clear_value y; intro _) | clear_value y)
    | split
    | dsimp only

theorem State.stoFatal_only {p r : Nat} {s x : State} {a1 a2 : _} (hp : Sub 16930840 p) (hr : Sub 0x8fc000000000000000000000000000000000000000000000000000000000000000000000000000000000000000000000000000000000000000000000000000000000000000000000000000000000000000000038080300000000000000000000000000000000000000000000000000000000000000000000000000000000000000000000000000000000000000000000000000000000000000000000000009fe007ffb0000000000000000000204000000000000000000000000000000000000000000000000000000000000000000000000000000000000000000000000000000000000000000000000000000000000000000000000 r) (h : Only p r s x) :
    Only p r s (State.stoFatal x a1 a2) := by
  unfold State.stoFatal
  repeat' first
    | with_reducible assumption
    | with_reducible refine State.post_only (Sub.trans rfl hp) (Sub.trans rfl hr) ?_
    | with_reducible refine State.fatal_only (Sub.trans rfl hp) (Sub.trans rfl hr) ?_
    | with_reducible refine State.latchFatal_only (Sub.trans rfl hp) (Sub.trans rfl hr) ?_
    | (extract_lets +onlyGivenNames y; first | (refine Only.cut (x := y) ?_ ?_; subst y; rotate_left; clear_value y; intro _) | clear_value y)
    | dsimp only

theorem State.testPulse_only {p r : Nat} {s x : State} {a1 a2 a3 : _} (hp : Sub 16930840 p) (hr : Sub 0x8fc000000000000000000000000000000000000000000000000000000000000000000000000000000000000000000000000000000000000000000000000000000000000000000000000000000000000000000038080300000000000000000000000000000000000000000000000000000000000000000000000000000000000000000000000000000000000000000000000000000000000000000000000009fe007ffb0000000000000000000204000000000000000000000000000000000000000000000000000000000000000000000000000000000000000000000000000000000000000000000000000000000000000000000000 r) (h : Only p r s x) :
    Only p r s (State.testPulse x a1 a2 a3) := by
  unfold State.testPulse
  repeat' first
    | with_reducible assumption
    | with_reducible refine State.updSio_only (Sub.trans rfl hp) (Sub.trans rfl hr) ?_
    | with_reducible refine State.stoFatal_only (Sub.trans rfl hp) (Sub.trans rfl hr) ?_
    | with_reducible refine Only.ite ?_ ?_
    | intro _
    | (extract_lets +onlyGivenNames y; first | (refine Only.cut (x := y) ?_ ?_; subst y; rotate_left; clear_value y; intro _) | clear_value y)
    | split
    | dsimp only

theorem State.heartbeat_only {p r : Nat} {s x : State} {a1 : _} (hp : Sub 20971528 p) (hr : Sub 0x180000000000000000000000000000000000000000e060000000000000000000000000000000000000000000000000000000000000000000000000000000000000000000000000000000000000000000000000000000000000000000000000000000000000000000000000000000000000000000000000000000000000000000000000000000000000000000000000000000000000000000000000000000000000000000000000000000000000000000000000000000000000000000000000000000000000000000000000000000000000000000000000000000000000000000000000000000000000000000000000000000000000000 r) (h : Only p r s x) :
    Only p r s (State.heartbeat x a1) := by
  unfold State.heartbeat
  repeat' first
    | with_reducible assumption
    | with_reducible refine State.updSio_only (Sub.trans rfl hp) (Sub.trans rfl hr) ?_
    | with_reducible refine Only.snd (q := (State.inject _ _ _)) (by assumption) (State.inject_only (Sub.trans rfl hp) (Sub.trans rfl hr) ?_)
    | with_reducible refine State.inject_only (Sub.trans rfl hp) (Sub.trans rfl hr) ?_
    | with_reducible refine Only.inc 1968 R.AD_WDOG_STAT_MISSES_num (Sub.bits hr rfl) ?_
    | with_reducible refine State.wdogStop_only (Sub.trans rfl hp) (Sub.trans rfl hr) ?_
    | with_reducible refine Only.ite ?_ ?_
    | intro _
    | (extract_lets +onlyGivenNames y; first | (refine Only.cut (x := y) ?_ ?_; subst y; rotate_left; clear_value y; intro _) | (refine Only.cut (x := y.1) ?_ ?_; subst y; rotate_left; clear_value y; intro _) | (refine Only.cut (x := y.2) ?_ ?_; subst y; rotate_left; clear_value y; intro _) | (refine Only.cut (x := y.2.2) ?_ ?_; subst y; rotate_left; clear_value y; intro _) | clear_value y)
    | split
    | dsimp only

theorem State.setLevel_only {p r : Nat} {s x : State} {a1 a2 : _} (_hp : Sub 0 p) (hr : Sub 0x200000000000000000000000000000000000000000000000000000000000000000000000000000000000000000000000000000000000000000000000000000000000000000000000000000000000000000000000000000000000000000000000000000000000000000000000000000000000000000000000000000000000000000000000000000000000000000000000000000000000000000000000000000000000000000000000000000000000000000000000000000000000000000000000000000000000000000000000000000000000000000000000000000000000000000000000000000000000000000000000000000000 r) (h : Only p r s x) :
    Only p r s (State.setLevel x a1 a2) := by
  unfold State.setLevel
  repeat' first
    | with_reducible assumption
    | with_reducible refine Only.set 1953 R.AD_SIO_STAT_LEVEL_num (Sub.bits hr rfl) ?_
    | with_reducible refine Only.ite ?_ ?_
    | (extract_lets +onlyGivenNames y; first | (refine Only.cut (x := y) ?_ ?_; subst y; rotate_left; clear_value y; intro _) | clear_value y)
    | split
    | dsimp only

theorem State.sioAccept_only {p r : Nat} {s x : State} {a1 a2 a3 : _} (hp : Sub 16777216 p) (hr : Sub 0x200000000000000000000000000000000000000000000000000000000000000000000000000000000000000000000000000000000000000000000000000000000000000000000000000000000000000000000000000000000000000000000000000000000000000000000000000000000000000000000000000000000000000000000000000000000000000000000000000000000000000000000000000000000000000000000000000000000000000000000000000000000000000000000000000000000000000000000000000000000000000000000000000000000000000000000000000000000000000000000000000000000 r) (h : Only p r s x) :
    Only p r s (State.sioAccept x a1 a2 a3) := by
  unfold State.sioAccept
  repeat' first
    | with_reducible assumption
    | with_reducible refine State.setLevel_only (Sub.trans rfl hp) (Sub.trans rfl hr) ?_
    | with_reducible refine State.updSio_only (Sub.trans rfl hp) (Sub.trans rfl hr) ?_
    | with_reducible refine Only.ite ?_ ?_
    | intro _
    | (extract_lets +onlyGivenNames y; first | (refine Only.cut (x := y) ?_ ?_; subst y; rotate_left; clear_value y; intro _) | clear_value y)
    | split
    | dsimp only

theorem State.sioRun_only {p r : Nat} {s x : State} {a1 a2 a3 : _} (hp : Sub 16777216 p) (hr : Sub 0x200000000000000000000000000000000000000000000000000000000000000000000000000000000000000000000000000000000000000000000000000000000000000000000000000000000000000000000000000000000000000000000000000000000000000000000000000000000000000000000000000000000000000000000000000000000000000000000000000000000000000000000000000000000000000000000000000000000000000000000000000000000000000000000000000000000000000000000000000000000000000000000000000000000000000000000000000000000000000000000000000000000 r) (h : Only p r s x) :
    Only p r s (State.sioRun x a1 a2 a3) := by
  unfold State.sioRun
  repeat' first
    | with_reducible assumption
    | with_reducible refine State.sioAccept_only (Sub.trans rfl hp) (Sub.trans rfl hr) ?_
    | with_reducible refine State.updSio_only (Sub.trans rfl hp) (Sub.trans rfl hr) ?_
    | with_reducible refine Only.ite ?_ ?_
    | intro _
    | (extract_lets +onlyGivenNames y; first | (refine Only.cut (x := y) ?_ ?_; subst y; rotate_left; clear_value y; intro _) | clear_value y)
    | split
    | dsimp only

theorem State.sioLatch_only {p r : Nat} {s x : State} {a1 : _} (hp : Sub 16777216 p) (hr : Sub 0x800000000000000000000000000000000000000000000000000000000000000000000000000000000000000000000000000000000000000000000000000000000000000000000000000000000000000000000000000000000000000000000000000000000000000000000000000000000000000000000000000000000000000000000000000000000000000000000000000000000000000000000000000000000000000000000000000000000000000000000000000000000000000000000000000000000000000000000000000000000000000000000000000000000000000000000000000000000000000000000000000000000 r) (h : Only p r s x) :
    Only p r s (State.sioLatch x a1) := by
  unfold State.sioLatch
  repeat' first
    | with_reducible assumption
    | with_reducible refine State.updSio_only (Sub.trans rfl hp) (Sub.trans rfl hr) ?_
    | with_reducible refine Only.set 1955 R.AD_SIO_STAT_DISC_num (Sub.bits hr rfl) ?_
    | with_reducible refine Only.ite ?_ ?_
    | intro _
    | (extract_lets +onlyGivenNames y; first | (refine Only.cut (x := y) ?_ ?_; subst y; rotate_left; clear_value y; intro _) | clear_value y)
    | split
    | dsimp only

theorem State.sioSettle_only {p r : Nat} {s x : State} {a1 : _} (hp : Sub 16930840 p) (hr : Sub 0xfcc00000000000000000000000000000000000000000000000000000000000000000000000000000000000000000000000000000000000000000000000000000000000000000000000000000000000000000038080300000000000000000000000000000000000000000000000000000000000000000000000000000000000000000000000000000000000000000000000000000000000000000000000009fe007ffb0000000000000000000204000000000000000000000000000000000000000000000000000000000000000000000000000000000000000000000000000000000000000000000000000000000000000000000000 r) (h : Only p r s x) :
    Only p r s (State.sioSettle x a1) := by
  unfold State.sioSettle
  repeat' first
    | with_reducible assumption
    | with_reducible refine State.sioLatch_only (Sub.trans rfl hp) (Sub.trans rfl hr) ?_
    | with_reducible refine State.sioFollow_only (Sub.trans rfl hp) (Sub.trans rfl hr) ?_
    | (extract_lets +onlyGivenNames y; first | (refine Only.cut (x := y) ?_ ?_; subst y; rotate_left; clear_value y; intro _) | clear_value y)
    | dsimp only

theorem State.sioSample_only {p r : Nat} {s x : State} {a1 : _} (hp : Sub 21125144 p) (hr : Sub 0xfce0000000000000000000000000000000000000e060000000000000000000000000000000000000000000000000000000000000000000000000000000000000000000000000000000000000000000000000038080300000000000000000000000000000000000000000000000000000000000000000000000000000000000000000000000000000000000000000000000000000000000000000000000009fe007ffb0000000000000000000204000000000000000000000000000000000000000000000000000000000000000000000000000000000000000000000000000000000000000000000000000000000000000000000000 r) (h : Only p r s x) :
    Only p r s (State.sioSample x a1) := by
  unfold State.sioSample
  repeat' first
    | with_reducible assumption
    | with_reducible refine Only.snd (q := (State.inject _ _ _)) (by assumption) (State.inject_only (Sub.trans rfl hp) (Sub.trans rfl hr) ?_)
    | with_reducible refine State.inject_only (Sub.trans rfl hp) (Sub.trans rfl hr) ?_
    | with_reducible refine State.sioRun_only (Sub.trans rfl hp) (Sub.trans rfl hr) ?_
    | with_reducible refine State.sioSettle_only (Sub.trans rfl hp) (Sub.trans rfl hr) ?_
    | with_reducible refine Only.ite ?_ ?_
    | (extract_lets +onlyGivenNames y; first | (refine Only.cut (x := y) ?_ ?_; subst y; rotate_left; clear_value y; intro _) | (refine Only.cut (x := y.1) ?_ ?_; subst y; rotate_left; clear_value y; intro _) | (refine Only.cut (x := y.2) ?_ ?_; subst y; rotate_left; clear_value y; intro _) | (refine Only.cut (x := y.2.2) ?_ ?_; subst y; rotate_left; clear_value y; intro _) | clear_value y)
    | split
    | dsimp only

theorem State.sioChange_only {p r : Nat} {s x : State} {a1 a2 : _} (hp : Sub 16930840 p) (hr : Sub 0xfce00000000000000000000000000000000000000000000000000000000000000000000000000000000000000000000000000000000000000000000000000000000000000000000000000000000000000000038080300000000000000000000000000000000000000000000000000000000000000000000000000000000000000000000000000000000000000000000000000000000000000000000000009fe007ffb0000000000000000000204000000000000000000000000000000000000000000000000000000000000000000000000000000000000000000000000000000000000000000000000000000000000000000000000 r) (h : Only p r s x) :
    Only p r s (State.sioChange x a1 a2) := by
  unfold State.sioChange
  repeat' first
    | with_reducible assumption
    | with_reducible refine State.updSio_only (Sub.trans rfl hp) (Sub.trans rfl hr) ?_
    | with_reducible refine State.sioAccept_only (Sub.trans rfl hp) (Sub.trans rfl hr) ?_
    | with_reducible refine State.sioSettle_only (Sub.trans rfl hp) (Sub.trans rfl hr) ?_
    | with_reducible refine Only.ite ?_ ?_
    | intro _
    | (extract_lets +onlyGivenNames y; first | (refine Only.cut (x := y) ?_ ?_; subst y; rotate_left; clear_value y; intro _) | clear_value y)
    | split
    | dsimp only

theorem execSafetyInputChange_only {p r : Nat} {s : State} {a0 a1 : _} (hp : Sub 16930840 p) (hr : Sub 0xfce00000000000000000000000000000000000000000000000000000000000000000000000000000000000000000000000000000000000000000000000000000000000000000000000000000000000000000038080300000000000000000000000000000000000000000000000000000000000000000000000000000000000000000000000000000000000000000000000000000000000000000000000009fe007ffb0000000000000000000204000000000000000000000000000000000000000000000000000000000000000000000000000000000000000000000000000000000000000000000000000000000000000000000000 r) :
    ∃ t, execSafetyInputChange a0 a1 s = .next t ∧ Only p r s t := by
  unfold execSafetyInputChange
  refine ⟨_, rfl, ?_⟩
  have h : Only p r s s := Only.refl
  repeat' first
    | with_reducible assumption
    | with_reducible refine State.sioChange_only (Sub.trans rfl hp) (Sub.trans rfl hr) ?_

theorem State.readback_only {p r : Nat} {s x : State} {a1 a2 a3 a4 : _} (hp : Sub 16930840 p) (hr : Sub 0x8fc000000000000000000000000000000000000000000000000000000000000000000000000000000000000000000000000000000000000000000000000000000000000000000000000000000000000000000038080300000000000000000000000000000000000000000000000000000000000000000000000000000000000000000000000000000000000000000000000000000000000000000000000009fe007ffb0000000000000000000204000000000000000000000000000000000000000000000000000000000000000000000000000000000000000000000000000000000000000000000000000000000000000000000000 r) (h : Only p r s x) :
    Only p r s (State.readback x a1 a2 a3 a4) := by
  unfold State.readback
  repeat' first
    | with_reducible assumption
    | with_reducible refine Only.setBit 1960 R.AD_STO_STAT_DRIVE_B_num (Sub.bits hr rfl) ?_
    | with_reducible refine Only.setBit 1959 R.AD_STO_STAT_DRIVE_A_num (Sub.bits hr rfl) ?_
    | with_reducible refine Only.setBit 1962 R.AD_STO_STAT_FB_B_num (Sub.bits hr rfl) ?_
    | with_reducible refine Only.setBit 1961 R.AD_STO_STAT_FB_A_num (Sub.bits hr rfl) ?_
    | with_reducible refine State.stoFatal_only (Sub.trans rfl hp) (Sub.trans rfl hr) ?_
    | with_reducible refine State.assertPair_only (Sub.trans rfl hp) (Sub.trans rfl hr) ?_
    | with_reducible refine State.post_only (Sub.trans rfl hp) (Sub.trans rfl hr) ?_
    | with_reducible refine Only.ite ?_ ?_
    | (extract_lets +onlyGivenNames y; first | (refine Only.cut (x := y) ?_ ?_; subst y; rotate_left; clear_value y; intro _) | clear_value y)
    | split
    | dsimp only

theorem State.fbSample_only {p r : Nat} {s x : State} {a1 : _} (hp : Sub 21125144 p) (hr : Sub 0x8fc00000000000000000000000000000000000000e060000000000000000000000000000000000000000000000000000000000000000000000000000000000000000000000000000000000000000000000000038080300000000000000000000000000000000000000000000000000000000000000000000000000000000000000000000000000000000000000000000000000000000000000000000000009fe007ffb0000000000000000000204000000000000000000000000000000000000000000000000000000000000000000000000000000000000000000000000000000000000000000000000000000000000000000000000 r) (h : Only p r s x) :
    Only p r s (State.fbSample x a1) := by
  unfold State.fbSample
  repeat' first
    | with_reducible assumption
    | with_reducible refine Only.snd (q := (State.inject _ _ _)) (by assumption) (State.inject_only (Sub.trans rfl hp) (Sub.trans rfl hr) ?_)
    | with_reducible refine State.inject_only (Sub.trans rfl hp) (Sub.trans rfl hr) ?_
    | with_reducible refine State.updSio_only (Sub.trans rfl hp) (Sub.trans rfl hr) ?_
    | with_reducible refine State.readback_only (Sub.trans rfl hp) (Sub.trans rfl hr) ?_
    | with_reducible refine Only.ite ?_ ?_
    | intro _
    | (extract_lets +onlyGivenNames y; first | (refine Only.cut (x := y) ?_ ?_; subst y; rotate_left; clear_value y; intro _) | (refine Only.cut (x := y.1) ?_ ?_; subst y; rotate_left; clear_value y; intro _) | (refine Only.cut (x := y.2) ?_ ?_; subst y; rotate_left; clear_value y; intro _) | (refine Only.cut (x := y.2.2) ?_ ?_; subst y; rotate_left; clear_value y; intro _) | clear_value y)
    | split
    | dsimp only

theorem State.safetySamples_only {p r : Nat} {s x : State} (hp : Sub 21125144 p) (hr : Sub 0x8fce0000000000000000000000000000000000000e060000000000000000000000000000000000000000000000000000000000000000000000000000000000000000000000000000000000000000000000000038080300000000000000000000000000000000000000000000000000000000000000000000000000000000000000000000000000000000000000000000000000000000000000000000000009fe007ffb0000000000000000000204000000000000000000000000000000000000000000000000000000000000000000000000000000000000000000000000000000000000000000000000000000000000000000000000 r) (h : Only p r s x) :
    Only p r s (State.safetySamples x) := by
  unfold State.safetySamples
  repeat' first
    | with_reducible assumption
    | with_reducible refine State.fbSample_only (Sub.trans rfl hp) (Sub.trans rfl hr) ?_
    | with_reducible refine State.sioSample_only (Sub.trans rfl hp) (Sub.trans rfl hr) ?_
    | with_reducible refine Only.ite ?_ ?_
    | with_reducible refine Only.foldl ?_ ?_
    | intro _
    | split

theorem execSafetyDiscrepancy_only {p r : Nat} {s : State} {a0 : _} (hp : Sub 16930840 p) (hr : Sub 0xfcc00000000000000000000000000000000000000000000000000000000000000000000000000000000000000000000000000000000000000000000000000000000000000000000000000000000000000000038080300000000000000000000000000000000000000000000000000000000000000000000000000000000000000000000000000000000000000000000000000000000000000000000000009fe007ffb0000000000000000000204000000000000000000000000000000000000000000000000000000000000000000000000000000000000000000000000000000000000000000000000000000000000000000000000 r) :
    ∃ t, execSafetyDiscrepancy a0 s = .next t ∧ Only p r s t := by
  unfold execSafetyDiscrepancy
  refine ⟨_, rfl, ?_⟩
  have h : Only p r s s := Only.refl
  repeat' first
    | with_reducible assumption
    | with_reducible refine State.discrepancy_only (Sub.trans rfl hp) (Sub.trans rfl hr) ?_

theorem State.estopExpiry_only {p r : Nat} {s x : State} (hp : Sub 16930824 p) (hr : Sub 0xfc000000000000000000000000000000000000000000000000000000000000000000000000000000000000000000000000000000000000000000000000000000000000000000000000000000000000000000038080300000000000000000000000000000000000000000000000000000000000000000000000000000000000000000000000000000000000000000000000000000000000000000000000009fe007ffb0000000000000000000204000000000000000000000000000000000000000000000000000000000000000000000000000000000000000000000000000000000000000000000000000000000000000000000000 r) (h : Only p r s x) :
    Only p r s (State.estopExpiry x) := by
  unfold State.estopExpiry
  repeat' first
    | with_reducible assumption
    | with_reducible refine State.updSio_only (Sub.trans rfl hp) (Sub.trans rfl hr) ?_
    | with_reducible refine State.assertAll_only (Sub.trans rfl hp) (Sub.trans rfl hr) ?_
    | with_reducible refine Only.ite ?_ ?_
    | intro _
    | (extract_lets +onlyGivenNames y; first | (refine Only.cut (x := y) ?_ ?_; subst y; rotate_left; clear_value y; intro _) | clear_value y)
    | split
    | dsimp only

theorem execStoReadbackMismatch_only {p r : Nat} {s : State} {a0 a1 a2 : _} (hp : Sub 16930840 p) (hr : Sub 0x8fc000000000000000000000000000000000000000000000000000000000000000000000000000000000000000000000000000000000000000000000000000000000000000000000000000000000000000000038080300000000000000000000000000000000000000000000000000000000000000000000000000000000000000000000000000000000000000000000000000000000000000000000000009fe007ffb0000000000000000000204000000000000000000000000000000000000000000000000000000000000000000000000000000000000000000000000000000000000000000000000000000000000000000000000 r) :
    ∃ t, execStoReadbackMismatch a0 a1 a2 s = .next t ∧ Only p r s t := by
  unfold execStoReadbackMismatch
  refine ⟨_, rfl, ?_⟩
  have h : Only p r s s := Only.refl
  repeat' first
    | with_reducible assumption
    | with_reducible refine State.readback_only (Sub.trans rfl hp) (Sub.trans rfl hr) ?_

theorem State.demandsAgain_only {p r : Nat} {s x : State} (hp : Sub 16930840 p) (hr : Sub 0xfc000000000000000000000000000000000000000000000000000000000000000000000000000000000000000000000000000000000000000000000000000000000000000000000000000000000000000000038080300000000000000000000000000000000000000000000000000000000000000000000000000000000000000000000000000000000000000000000000000000000000000000000000009fe007ffb0000000000000000000204000000000000000000000000000000000000000000000000000000000000000000000000000000000000000000000000000000000000000000000000000000000000000000000000 r) (h : Only p r s x) :
    Only p r s (State.demandsAgain x) := by
  unfold State.demandsAgain
  repeat' first
    | with_reducible assumption
    | with_reducible refine State.sioApply_only (Sub.trans rfl hp) (Sub.trans rfl hr) ?_
    | with_reducible refine Only.foldl ?_ ?_
    | intro _
    | dsimp only

theorem State.watchdog_only {p r : Nat} {s x : State} (hp : Sub 16930840 p) (hr : Sub 0x8fc000000000000000000000000000000000000000000000000000000000000000000000000000000000000000000000000000000000000000000000000000000000000000000000000000000000000000000038080300000000000000000000000000000000000000000000000000000000000000000000000000000000000000000000000000000000000000000000000000000000000000000000000009fe007ffb0000000000000000000204000000000000000000000000000000000000000000000000000000000000000000000000000000000000000000000000000000000000000000000000000000000000000000000000 r) (h : Only p r s x) :
    Only p r s (State.watchdog x) := by
  unfold State.watchdog
  repeat' first
    | with_reducible assumption
    | with_reducible refine State.updSio_only (Sub.trans rfl hp) (Sub.trans rfl hr) ?_
    | with_reducible refine State.post_only (Sub.trans rfl hp) (Sub.trans rfl hr) ?_
    | with_reducible refine State.fatal_only (Sub.trans rfl hp) (Sub.trans rfl hr) ?_
    | with_reducible refine State.assertAll_only (Sub.trans rfl hp) (Sub.trans rfl hr) ?_
    | with_reducible refine State.latchFatal_only (Sub.trans rfl hp) (Sub.trans rfl hr) ?_
    | with_reducible refine Only.ite ?_ ?_
    | intro _
    | (extract_lets +onlyGivenNames y; first | (refine Only.cut (x := y) ?_ ?_; subst y; rotate_left; clear_value y; intro _) | clear_value y)
    | split
    | dsimp only

theorem execIoWdog_only {p r : Nat} {s : State} (hp : Sub 16930840 p) (hr : Sub 0x8fc000000000000000000000000000000000000000000000000000000000000000000000000000000000000000000000000000000000000000000000000000000000000000000000000000000000000000000038080300000000000000000000000000000000000000000000000000000000000000000000000000000000000000000000000000000000000000000000000000000000000000000000000009fe007ffb0000000000000000000204000000000000000000000000000000000000000000000000000000000000000000000000000000000000000000000000000000000000000000000000000000000000000000000000 r) :
    ∃ t, execIoWdog s = .next t ∧ Only p r s t := by
  unfold execIoWdog
  refine ⟨_, rfl, ?_⟩
  have h : Only p r s s := Only.refl
  repeat' first
    | with_reducible assumption
    | with_reducible refine State.watchdog_only (Sub.trans rfl hp) (Sub.trans rfl hr) ?_

theorem State.globalRelease_only {p r : Nat} {s x : State} (hp : Sub 16777224 p) (hr : Sub 0xfc000000000000000000000000000000000000000000000000000000000000000000000000000000000000000000000000000000000000000000000000000000000000000000000000000000000000000000000000000000000000000000000000000000000000000000000000000000000000000000000000000000000000000000000000000000000000000000000000000000000000000000000000000000000000000000000000000000000000000000000000000000000000000000000000000000000000000000000000000000000000000000000000000000000000000000000000000000000000000000000000000000000 r) (h : Only p r s x) :
    Only p r s (State.globalRelease x) := by
  unfold State.globalRelease
  repeat' first
    | with_reducible assumption
    | with_reducible refine State.ignored_only (Sub.trans rfl hp) (Sub.trans rfl hr) ?_
    | with_reducible refine State.releasePair_only (Sub.trans rfl hp) (Sub.trans rfl hr) ?_
    | with_reducible refine Only.ite ?_ ?_
    | intro _
    | (extract_lets +onlyGivenNames y; first | (refine Only.cut (x := y) ?_ ?_; subst y; rotate_left; clear_value y; intro _) | clear_value y)
    | split
    | dsimp only

theorem execGlobalRelease_only {p r : Nat} {s : State} (hp : Sub 16777224 p) (hr : Sub 0xfc000000000000000000000000000000000000000000000000000000000000000000000000000000000000000000000000000000000000000000000000000000000000000000000000000000000000000000000000000000000000000000000000000000000000000000000000000000000000000000000000000000000000000000000000000000000000000000000000000000000000000000000000000000000000000000000000000000000000000000000000000000000000000000000000000000000000000000000000000000000000000000000000000000000000000000000000000000000000000000000000000000000 r) :
    ∃ t, execGlobalRelease s = .next t ∧ Only p r s t := by
  unfold execGlobalRelease
  refine ⟨_, rfl, ?_⟩
  have h : Only p r s s := Only.refl
  repeat' first
    | with_reducible assumption
    | with_reducible refine State.globalRelease_only (Sub.trans rfl hp) (Sub.trans rfl hr) ?_

theorem execEstopSs1Expiry_only {p r : Nat} {s : State} (hp : Sub 16930824 p) (hr : Sub 0xfc000000000000000000000000000000000000000000000000000000000000000000000000000000000000000000000000000000000000000000000000000000000000000000000000000000000000000000038080300000000000000000000000000000000000000000000000000000000000000000000000000000000000000000000000000000000000000000000000000000000000000000000000009fe007ffb0000000000000000000204000000000000000000000000000000000000000000000000000000000000000000000000000000000000000000000000000000000000000000000000000000000000000000000000 r) :
    ∃ t, execEstopSs1Expiry s = .next t ∧ Only p r s t := by
  unfold execEstopSs1Expiry
  refine ⟨_, rfl, ?_⟩
  have h : Only p r s s := Only.refl
  repeat' first
    | with_reducible assumption
    | with_reducible refine State.estopExpiry_only (Sub.trans rfl hp) (Sub.trans rfl hr) ?_

theorem execStoTestPulse_only {p r : Nat} {s : State} {a0 a1 a2 : _} (hp : Sub 16930840 p) (hr : Sub 0x8fc000000000000000000000000000000000000000000000000000000000000000000000000000000000000000000000000000000000000000000000000000000000000000000000000000000000000000000038080300000000000000000000000000000000000000000000000000000000000000000000000000000000000000000000000000000000000000000000000000000000000000000000000009fe007ffb0000000000000000000204000000000000000000000000000000000000000000000000000000000000000000000000000000000000000000000000000000000000000000000000000000000000000000000000 r) :
    ∃ t, execStoTestPulse a0 a1 a2 s = .next t ∧ Only p r s t := by
  unfold execStoTestPulse
  refine ⟨_, rfl, ?_⟩
  have h : Only p r s s := Only.refl
  repeat' first
    | with_reducible assumption
    | with_reducible refine State.testPulse_only (Sub.trans rfl hp) (Sub.trans rfl hr) ?_

end Sys2Proof.Machine
end

