-- ==== Sys2Proof/Laws/OnlyPower.lean ====
section
/-! SUPPORT. Footprints of the operations of Machine/Power.lean. -/
namespace Sys2Proof.Machine
set_option linter.all false
set_option Elab.async false

theorem State.tempEvent_only {p r : Nat} {s x : State} {a1 a2 a3 a4 : _} (hp : Sub 8 p) (hr : Sub 0 r) (h : Only p r s x) :
    Only p r s (State.tempEvent x a1 a2 a3 a4) := by
  unfold State.tempEvent
  repeat' first
    | with_reducible assumption
    | with_reducible refine State.post_only (Sub.trans rfl hp) (Sub.trans rfl hr) ?_

theorem State.updPw_only {p r : Nat} {s x : State} {a1 : _} (hp : Sub 33554432 p) (_hr : Sub 0 r) (h : Only p r s x) :
    Only p r s (State.updPw x a1) := by
  unfold State.updPw
  repeat' first
    | with_reducible assumption
    | (extract_lets +onlyGivenNames y; first | (refine Only.cut (x := y) ?_ ?_; subst y; rotate_left; clear_value y; intro _) | clear_value y)
    | (first | (with_reducible refine Only.upd_pw (Sub.bits hp rfl) ?_; first | with_reducible assumption))

theorem State.tempWarn_only {p r : Nat} {s x : State} {a1 a2 : _} (hp : Sub 33554440 p) (hr : Sub 0 r) (h : Only p r s x) :
    Only p r s (State.tempWarn x a1 a2) := by
  unfold State.tempWarn
  repeat' first
    | with_reducible assumption
    | with_reducible refine State.tempEvent_only (Sub.trans rfl hp) (Sub.trans rfl hr) ?_
    | with_reducible refine State.updPw_only (Sub.trans rfl hp) (Sub.trans rfl hr) ?_
    | with_reducible refine Only.ite ?_ ?_
    | intro _
    | (extract_lets +onlyGivenNames y; first | (refine Only.cut (x := y) ?_ ?_; subst y; rotate_left; clear_value y; intro _) | clear_value y)
    | split
    | dsimp only

theorem State.resetKey_only {p r : Nat} {s x : State} {a1 : _} (hp : Sub 8187281406 p) (hr : Sub 0x80001000000000000000000000008fcc00000000000000000000000000000000000000000000000000000000000000000000165f00000000000000000000000000400020000000000000000000000000000010000000000000000000000000000038080300000000000000000000000000000000000000000000000000000000000000000000000000000000000000000000000000000000000000000000000000000000000000000000000009fe007ffb0000000000000000000204000000000000000000000000000000000000000000000000000000000000000000000000000000000000000000000000000000000000000000000000000000000000000000000000 r) (h : Only p r s x) :
    Only p r s (State.resetKey x a1) := by
  unfold State.resetKey
  repeat' first
    | with_reducible assumption
    | with_reducible refine State.resetRequest_only (Sub.trans rfl hp) (Sub.trans rfl hr) ?_
    | with_reducible refine State.ignored_only (Sub.trans rfl hp) (Sub.trans rfl hr) ?_
    | with_reducible refine Only.ite ?_ ?_
    | split

theorem State.holdEnd_only {p r : Nat} {s x : State} (hp : Sub 33554432 p) (hr : Sub 0xe0000000000000000000000000000000000000000000000000000000000000000000000000000000000000000000000000000000000000000000000000000000000000000000000000000000000000000000000000000000000000000000000000000000000000000000000000000000000000000000000000000000000000000000000000000000000000000000000000000000000000000000000000000000000000000000000000000000000000000000000000000000000000000000000000000000000000000000000000000000000000000000000000000000000000000000000000000000000000000000000000000000000000000000000000000000000 r) (h : Only p r s x) :
    Only p r s (State.holdEnd x) := by
  unfold State.holdEnd
  repeat' first
    | with_reducible assumption
    | with_reducible refine Only.set 2057 R.PW_SUPPLY_STAT_GOOD_num (Sub.bits hr rfl) ?_
    | with_reducible refine Only.setBit 2058 R.PW_SUPPLY_STAT_GOOD_VDDA_num (Sub.bits hr rfl) ?_
    | with_reducible refine Only.setBit 2059 R.PW_SUPPLY_STAT_VR_PGOOD_num (Sub.bits hr rfl) ?_
    | with_reducible refine State.updPw_only (Sub.trans rfl hp) (Sub.trans rfl hr) ?_
    | with_reducible refine Only.ite ?_ ?_
    | intro _
    | (extract_lets +onlyGivenNames y; first | (refine Only.cut (x := y) ?_ ?_; subst y; rotate_left; clear_value y; intro _) | clear_value y)
    | split
    | dsimp only

theorem execResetRelease_only {p r : Nat} {s : State} (hp : Sub 33554432 p) (hr : Sub 0xe0000000000000000000000000000000000000000000000000000000000000000000000000000000000000000000000000000000000000000000000000000000000000000000000000000000000000000000000000000000000000000000000000000000000000000000000000000000000000000000000000000000000000000000000000000000000000000000000000000000000000000000000000000000000000000000000000000000000000000000000000000000000000000000000000000000000000000000000000000000000000000000000000000000000000000000000000000000000000000000000000000000000000000000000000000000000 r) :
    ∃ t, execResetRelease s = .next t ∧ Only p r s t := by
  unfold execResetRelease
  refine ⟨_, rfl, ?_⟩
  have h : Only p r s s := Only.refl
  repeat' first
    | with_reducible assumption
    | with_reducible refine State.holdEnd_only (Sub.trans rfl hp) (Sub.trans rfl hr) ?_

theorem State.fallPair_only {p r : Nat} {s x : State} {a1 : _} (hp : Sub 16795648 p) (hr : Sub 0xfc000000000000000000000000000000000000000000000000000000000000000000000000000000000000000000000000000000000000000000000000000000000000000000000000000000000000000000000000000000000000000000000000000000000000000000000000000000000000000000000000000000000000000000000000000000000000000000000000000000000000000000000000000000000000000000000000000000204000000000000000000000000000000000000000000000000000000000000000000000000000000000000000000000000000000000000000000000000000000000000000000000000 r) (h : Only p r s x) :
    Only p r s (State.fallPair x a1) := by
  unfold State.fallPair
  repeat' first
    | with_reducible assumption
    | with_reducible refine State.drivePair_only (Sub.trans rfl hp) (Sub.trans rfl hr) ?_
    | with_reducible refine Only.set 1963 R.AD_STO_STAT_CAUSE_num (Sub.bits hr rfl) ?_
    | (extract_lets +onlyGivenNames y; first | (refine Only.cut (x := y) ?_ ?_; subst y; rotate_left; clear_value y; intro _) | clear_value y)
    | dsimp only

theorem State.oscStop_only {p r : Nat} {s x : State} (hp : Sub 50350080 p) (hr : Sub 0x8fc000000000000000000000000000000000000000000000000000000000000000000000000000000000000000000000000000000000000000000000000000000000000000000000000000000000000000000000000000000000000000000000000000000000000000000000000000000000000000000000000000000000000000000000000000000000000000000000000000000000000000000000000000000000000000000000000000000204000000000000000000000000000000000000000000000000000000000000000000000000000000000000000000000000000000000000000000000000000000000000000000000000 r) (h : Only p r s x) :
    Only p r s (State.oscStop x) := by
  unfold State.oscStop
  repeat' first
    | with_reducible assumption
    | with_reducible refine State.fallPair_only (Sub.trans rfl hp) (Sub.trans rfl hr) ?_
    | with_reducible refine State.wdogStop_only (Sub.trans rfl hp) (Sub.trans rfl hr) ?_
    | with_reducible refine State.updPw_only (Sub.trans rfl hp) (Sub.trans rfl hr) ?_
    | with_reducible refine Only.foldl ?_ ?_
    | intro _
    | (extract_lets +onlyGivenNames y; first | (refine Only.cut (x := y) ?_ ?_; subst y; rotate_left; clear_value y; intro _) | clear_value y)
    | dsimp only

theorem execNvOscStop_only {p r : Nat} {s : State} (hp : Sub 50350080 p) (hr : Sub 0x8fc000000000000000000000000000000000000000000000000000000000000000000000000000000000000000000000000000000000000000000000000000000000000000000000000000000000000000000000000000000000000000000000000000000000000000000000000000000000000000000000000000000000000000000000000000000000000000000000000000000000000000000000000000000000000000000000000000000204000000000000000000000000000000000000000000000000000000000000000000000000000000000000000000000000000000000000000000000000000000000000000000000000 r) :
    ∃ t, execNvOscStop s = .next t ∧ Only p r s t := by
  unfold execNvOscStop
  refine ⟨_, rfl, ?_⟩
  have h : Only p r s s := Only.refl
  repeat' first
    | with_reducible assumption
    | with_reducible refine State.oscStop_only (Sub.trans rfl hp) (Sub.trans rfl hr) ?_

theorem State.setForce_only {p r : Nat} {s x : State} {a1 a2 : _} (_hp : Sub 0 p) (hr : Sub 0x3f00000000000000000000000000000000000000000000000000000000000000000000000000000000000000000000000000000000000000000000000000000000000000000000000000000000000000000000000000000000000000000000000000000000000000000000000000000000000000000000000000000000000000000000000000000000000000000000000000000000000000000000000000000000000000000000000000000000000000000000000000000000000000000000000000000000000000000000000000000000000000000000000000000000000000000000000000000000000000000000000000000000000000000000000000000000000000 r) (h : Only p r s x) :
    Only p r s (State.setForce x a1 a2) := by
  unfold State.setForce
  dsimp only
  repeat' first
    | with_reducible assumption
    | with_reducible refine Only.set 2072 R.PW_FORCE_OFF_A_num (Sub.bits hr rfl) ?_
    | with_reducible refine Only.set 2073 R.PW_FORCE_OFF_B_num (Sub.bits hr rfl) ?_
    | with_reducible refine Only.set 2072 R.PW_FORCE_OFF_A_num (Sub.bits hr rfl) ?_
    | with_reducible refine Only.set 2073 R.PW_FORCE_OFF_B_num (Sub.bits hr rfl) ?_
    | with_reducible refine Only.set 2074 R.PW_FORCE_OFF_C_E_num (Sub.bits hr rfl) ?_
    | with_reducible refine Only.set 2075 R.PW_FORCE_OFF_C_FA_num (Sub.bits hr rfl) ?_
    | with_reducible refine Only.set 2076 R.PW_FORCE_OFF_C_FA8_num (Sub.bits hr rfl) ?_
    | with_reducible refine Only.set 2077 R.PW_FORCE_OFF_C_LANE_num (Sub.bits hr rfl) ?_
    | intro _
    | (extract_lets +onlyGivenNames y; first | (refine Only.cut (x := y) ?_ ?_; subst y; rotate_left; clear_value y; intro _) | clear_value y)
    | split
    | dsimp only

theorem State.setBoth_only {p r : Nat} {s x : State} {a1 a2 a3 : _} (c0 : Nat) (e0 : fieldOf c0 = a1) (k0 : r.testBit c0 = true)
    (hp : Sub 4 p) (_hr : Sub 0 r) (h : Only p r s x) : Only p r s (State.setBoth x a1 a2 a3) := by
  unfold State.setBoth
  exact Only.upd_frozen (x := x.set a1 a2 a3) (Sub.bits hp rfl) (Only.set c0 e0 k0 h)
    fun _ k => soundRegs_set (show soundRegs x.frozen from k) _ _ _ (e0 ▸ fieldOf_mem c0)

theorem State.loadFuses_only {p r : Nat} {s x : State} {a1 : _} (hp : Sub 33554436 p) (hr : Sub 0x60000000000000000000000000000000000000000000000000000000000000006 r) (h : Only p r s x) :
    Only p r s (State.loadFuses x a1) := by
  unfold State.loadFuses
  repeat' first
    | with_reducible assumption
    | with_reducible refine State.setBoth_only 1 R.SYS_ID_VENDOR_num (Sub.bits hr rfl) (Sub.trans rfl hp) (Sub.trans rfl hr) ?_
    | with_reducible refine State.setBoth_only 2 R.SYS_VERSION_STEPPING_num (Sub.bits hr rfl) (Sub.trans rfl hp) (Sub.trans rfl hr) ?_
    | with_reducible refine State.setBoth_only 257 R.CB_DEV_MAC_LO_num (Sub.bits hr rfl) (Sub.trans rfl hp) (Sub.trans rfl hr) ?_
    | with_reducible refine State.setBoth_only 258 R.CB_DEV_MAC_HI_OCTETS_0_1_num (Sub.bits hr rfl) (Sub.trans rfl hp) (Sub.trans rfl hr) ?_
    | with_reducible refine State.updPw_only (Sub.trans rfl hp) (Sub.trans rfl hr) ?_
    | intro _
    | (extract_lets +onlyGivenNames y; first | (refine Only.cut (x := y) ?_ ?_; subst y; rotate_left; clear_value y; intro _) | clear_value y)
    | dsimp only

theorem State.memoryCleared_only {p r : Nat} {s x : State} (hp : Sub 33816576 p) (hr : Sub 0 r) (h : Only p r s x) :
    Only p r s (State.memoryCleared x) := by
  unfold State.memoryCleared
  repeat' first
    | with_reducible assumption
    | with_reducible refine State.updPw_only (Sub.trans rfl hp) (Sub.trans rfl hr) ?_
    | with_reducible refine Only.ite ?_ ?_
    | intro _
    | (extract_lets +onlyGivenNames y; first | (refine Only.cut (x := y) ?_ ?_; subst y; rotate_left; clear_value y; intro _) | (have q : Granary := y; clear q; subst y) | clear_value y)
    | split
    | dsimp only
    | (first | (with_reducible refine Only.upd_gr (Sub.bits hp rfl) ?_ (fun _ => ⟨rfl, rfl⟩); first | with_reducible assumption | with_reducible refine State.updPw_only (Sub.trans rfl hp) (Sub.trans rfl hr) ?_))

theorem State.holdupLow_only {p r : Nat} {s x : State} (hp : Sub 37748744 p) (hr : Sub 0xe060000000000000000000000000000000200000000000000000000000000000000000000000000000000000000000000000000000000000000000000000000000000000000000000000000000000000000000000000000000000000000000000000000000000000000000000000000000000000000000000000000000000000000000000000000000000000000000000000000000000000000000000000000000000000000000000000000000000000000000000000000000000000000000000000000000000000000000000000000000000000000000000000000000000000000 r) (h : Only p r s x) :
    Only p r s (State.holdupLow x) := by
  unfold State.holdupLow
  repeat' first
    | with_reducible assumption
    | with_reducible refine Only.setBit 1665 R.BB_STAT_HOLDUP_OK_num (Sub.bits hr rfl) ?_
    | with_reducible refine State.updPw_only (Sub.trans rfl hp) (Sub.trans rfl hr) ?_
    | with_reducible refine State.post_only (Sub.trans rfl hp) (Sub.trans rfl hr) ?_
    | with_reducible refine State.detect_only (Sub.trans rfl hp) (Sub.trans rfl hr) ?_ ?_
    | intro _
    | (extract_lets +onlyGivenNames y; first | (refine Only.cut (x := y) ?_ ?_; subst y; rotate_left; clear_value y; intro _) | clear_value y)
    | dsimp only

theorem State.nvLoss_only {p r : Nat} {s x : State} (hp : Sub 52582408 p) (hr : Sub 0x8fc000000000000000000000000000000000000000000000000000000000000000000000000000000000000000000000000000000000000000000000000000000000000000000000000000000000000000000038080300000000000000000000000000000000000000000000000000000000000000000000000000000000000000000000000000000000000000000000000000000000000000000000000009fe007ffb0000000000000000000204000000000000000000000000000000000000000000000000000000000000000000000000000000000000000000000000000000000000000000000000000000000000000000000000 r) (h : Only p r s x) :
    Only p r s (State.nvLoss x) := by
  unfold State.nvLoss
  repeat' first
    | with_reducible assumption
    | with_reducible refine State.assertAll_only (Sub.trans rfl hp) (Sub.trans rfl hr) ?_
    | with_reducible refine State.wdogStop_only (Sub.trans rfl hp) (Sub.trans rfl hr) ?_
    | with_reducible refine State.updPw_only (Sub.trans rfl hp) (Sub.trans rfl hr) ?_
    | with_reducible refine State.updBb_only (Sub.trans rfl hp) (Sub.trans rfl hr) ?_
    | intro _
    | (extract_lets +onlyGivenNames y; first | (refine Only.cut (x := y) ?_ ?_; subst y; rotate_left; clear_value y; intro _) | clear_value y)
    | split
    | dsimp only

theorem execVddnvLoss_only {p r : Nat} {s : State} (hp : Sub 52582408 p) (hr : Sub 0x8fc000000000000000000000000000000000000000000000000000000000000000000000000000000000000000000000000000000000000000000000000000000000000000000000000000000000000000000038080300000000000000000000000000000000000000000000000000000000000000000000000000000000000000000000000000000000000000000000000000000000000000000000000009fe007ffb0000000000000000000204000000000000000000000000000000000000000000000000000000000000000000000000000000000000000000000000000000000000000000000000000000000000000000000000 r) :
    ∃ t, execVddnvLoss s = .next t ∧ Only p r s t := by
  unfold execVddnvLoss
  refine ⟨_, rfl, ?_⟩
  have h : Only p r s s := Only.refl
  repeat' first
    | with_reducible assumption
    | with_reducible refine State.nvLoss_only (Sub.trans rfl hp) (Sub.trans rfl hr) ?_

theorem State.timeLock_only {p r : Nat} {s x : State} {a1 : _} (hp : Sub 39845900 p) (hr : Sub 0xe060000000000000000000000000000104000000000000000000000000000000000000000000000000000000000000000000000000000000000000000000000000000000000000000000000000000000000000000000000000000000000000000000000000000000000000000000000000000000000000000000000000000000000000000000000000000000000000000000000000000000000000000000000000000000000000000000000000000000000000000000000000000000000000000060000000000000000000000000000800000000000000000000000000000000006 r) (h : Only p r s x) :
    Only p r s (State.timeLock x a1) := by
  unfold State.timeLock
  repeat' first
    | with_reducible assumption
    | with_reducible refine Only.setBit 143 R.TB_REF_STATUS_LOCKED_num (Sub.bits hr rfl) ?_
    | with_reducible refine Only.snd (q := (State.inject _ _ _)) (by assumption) (State.inject_only (Sub.trans rfl hp) (Sub.trans rfl hr) ?_)
    | with_reducible refine State.inject_only (Sub.trans rfl hp) (Sub.trans rfl hr) ?_
    | with_reducible refine State.loadFuses_only (Sub.trans rfl hp) (Sub.trans rfl hr) ?_
    | with_reducible refine State.logFault_only (Sub.trans rfl hp) (Sub.trans rfl hr) ?_
    | with_reducible refine State.updPw_only (Sub.trans rfl hp) (Sub.trans rfl hr) ?_
    | with_reducible refine Only.ite ?_ ?_
    | intro _
    | (extract_lets +onlyGivenNames y; first | (refine Only.cut (x := y) ?_ ?_; subst y; rotate_left; clear_value y; intro _) | (refine Only.cut (x := y.1) ?_ ?_; subst y; rotate_left; clear_value y; intro _) | (refine Only.cut (x := y.2) ?_ ?_; subst y; rotate_left; clear_value y; intro _) | (refine Only.cut (x := y.2.2) ?_ ?_; subst y; rotate_left; clear_value y; intro _) | clear_value y)
    | split
    | dsimp only

theorem State.setIsland_only {p r : Nat} {s x : State} {a1 a2 : _} (_hp : Sub 0 p) (hr : Sub 0xfc000000000000000000000000000000000000000000000000000000000000000000000000000000000000000000000000000000000000000000000000000000000000000000000000000000000000000000000000000000000000000000000000000000000000000000000000000000000000000000000000000000000000000000000000000000000000000000000000000000000000000000000000000000000000000000000000000000000000000000000000000000000000000000000000000000000000000000000000000000000000000000000000000000000000000000000000000000000000000000000000000000000000000000000000000000000000 r) (h : Only p r s x) :
    Only p r s (State.setIsland x a1 a2) := by
  unfold State.setIsland islandOnField
  repeat' first
    | with_reducible assumption
    | with_reducible refine Only.set 2066 R.PW_ISLAND_A_num (Sub.bits hr rfl) ?_
    | with_reducible refine Only.set 2067 R.PW_ISLAND_B_num (Sub.bits hr rfl) ?_
    | with_reducible refine Only.set 2068 R.PW_ISLAND_C_E_ON_num (Sub.bits hr rfl) ?_
    | with_reducible refine Only.set 2069 R.PW_ISLAND_C_FA_ON_num (Sub.bits hr rfl) ?_
    | with_reducible refine Only.set 2070 R.PW_ISLAND_C_FA8_ON_num (Sub.bits hr rfl) ?_
    | with_reducible refine Only.set 2071 R.PW_ISLAND_C_LANE_ON_num (Sub.bits hr rfl) ?_
    | with_reducible refine Only.ite ?_ ?_
    | (extract_lets +onlyGivenNames y; first | (refine Only.cut (x := y) ?_ ?_; subst y; rotate_left; clear_value y; intro _) | clear_value y)
    | split
    | dsimp only

theorem State.islandClear_only {p r : Nat} {s x : State} {a1 : _} (hp : Sub 25600 p) (hr : Sub 0x8000000000000000000000000000000000000000000000000000000000000000000000000000000000000000000000000000000000000000000000000000000000000000000000000000000000000000000000000000000000000000000000000000000000000000000000000000000000000000000000000000000000000000000000000000000000000000000000000000000000000000000000000000000000000000000000000000000000000000000000000000000000000000000000000000000000000000000000000000000000000000000000000000000000000000000000000000000000000000000000000000000000000000000000000000000000 r) (h : Only p r s x) :
    Only p r s (State.islandClear x a1) := by
  unfold State.islandClear
  repeat' first
    | with_reducible assumption
    | with_reducible refine Only.set 2055 R.PW_PACE_PACE_num (Sub.bits hr rfl) ?_
    | with_reducible refine Only.ite ?_ ?_
    | intro _
    | (extract_lets +onlyGivenNames y; first | (refine Only.cut (x := y) ?_ ?_; subst y; rotate_left; clear_value y; intro _) | clear_value y)
    | split
    | dsimp only
    | (first | (with_reducible refine Only.upd_tl (Sub.bits hp rfl) ?_; first | with_reducible assumption | with_reducible refine Only.set 2055 R.PW_PACE_PACE_num (Sub.bits hr rfl) ?_) | (with_reducible refine Only.upd_sv (Sub.bits hp rfl) ?_; first | with_reducible assumption | with_reducible refine Only.set 2055 R.PW_PACE_PACE_num (Sub.bits hr rfl) ?_) | (with_reducible refine Only.upd_sep (Sub.bits hp rfl) ?_; first | with_reducible assumption | with_reducible refine Only.set 2055 R.PW_PACE_PACE_num (Sub.bits hr rfl) ?_) | (with_reducible refine Only.upd_sv_sep (Sub.bits hp rfl) (Sub.bits hp rfl) ?_; first | with_reducible assumption | with_reducible refine Only.set 2055 R.PW_PACE_PACE_num (Sub.bits hr rfl) ?_))

theorem State.islandOff_only {p r : Nat} {s x : State} {a1 : _} (hp : Sub 25600 p) (hr : Sub 0xfc008000000000000000000000000000000000000000000000000000000000000000000000000000000000000000000000000000000000000000000000000000000000000000000000000000000000000000000000000000000000000000000000000000000000000000000000000000000000000000000000000000000000000000000000000000000000000000000000000000000000000000000000000000000000000000000000000000000000000000000000000000000000000000000000000000000000000000000000000000000000000000000000000000000000000000000000000000000000000000000000000000000000000000000000000000000000 r) (h : Only p r s x) :
    Only p r s (State.islandOff x a1) := by
  unfold State.islandOff
  repeat' first
    | with_reducible assumption
    | with_reducible refine State.setIsland_only (Sub.trans rfl hp) (Sub.trans rfl hr) ?_
    | with_reducible refine State.islandClear_only (Sub.trans rfl hp) (Sub.trans rfl hr) ?_

theorem State.islandDrain_only {p r : Nat} {s x : State} {a1 : _} (hp : Sub 222216 p) (hr : Sub 0xfc008000000000000000000000000000000000000000000000000000000000000000000000000000000000000000000000000000000000000000000000000000000000000000000000000000000000000000000000000000000000000000000038080300000000000000000000000000003f10000000000000000000000000000000000000000000000000000000000000000000000000000000000000000000000000000000000000000000000000000000000000000000000000000000000000000000000000000000000000000000000000000000000000000000000000000000000000000000000000000000000000000000000000000000000000000000000000 r) (h : Only p r s x) :
    Only p r s (State.islandDrain x a1) := by
  unfold State.islandDrain
  repeat' first
    | with_reducible assumption
    | with_reducible refine State.mePower_only (Sub.trans rfl hp) (Sub.trans rfl hr) ?_
    | with_reducible refine State.islandOff_only (Sub.trans rfl hp) (Sub.trans rfl hr) ?_
    | (extract_lets +onlyGivenNames y; first | (refine Only.cut (x := y) ?_ ?_; subst y; rotate_left; clear_value y; intro _) | clear_value y)
    | split
    | dsimp only

theorem execIslandPowerOn_only {p r : Nat} {s : State} {a0 : _} (hp : Sub 25600 p) (hr : Sub 0xfc008000000000000000000000000000000000000000000000000000000000000000000000000000000000000000000000000000000000000000000000000000000000000000000000000000000000000000000000000000000000000000000000000000000000000000000000000000000000000000000000000000000000000000000000000000000000000000000000000000000000000000000000000000000000000000000000000000000000000000000000000000000000000000000000000000000000000000000000000000000000000000000000000000000000000000000000000000000000000000000000000000000000000000000000000000000000 r) :
    ∃ t, execIslandPowerOn a0 s = .next t ∧ Only p r s t := by
  unfold execIslandPowerOn
  refine ⟨_, rfl, ?_⟩
  have h : Only p r s s := Only.refl
  repeat' first
    | with_reducible assumption
    | with_reducible refine State.setIsland_only (Sub.trans rfl hp) (Sub.trans rfl hr) ?_
    | with_reducible refine State.islandClear_only (Sub.trans rfl hp) (Sub.trans rfl hr) ?_
    | with_reducible refine Only.ite ?_ ?_
    | split

theorem State.publishPace_only {p r : Nat} {s x : State} {a1 a2 : _} (hp : Sub 4194312 p) (hr : Sub 0x1800000000000000000000000000000000000000000000000000000000000000e060000000000000000000000000000000000000000000000000000000000000000000000000000000000000000000000000000000000000000000000000000000000000000000000000000000000000000000000000000000000000000000000000000000000000000000000000000000000000000000000000000000000000000000000000000000000000000000000000000000000000000000000000000000000000000000000000000000000000000000000000000000000000000000000000000000000000000000000000000000000000000000000000000000000000000 r) (h : Only p r s x) :
    Only p r s (State.publishPace x a1 a2).2 := by
  unfold State.publishPace
  repeat' first
    | with_reducible assumption
    | with_reducible refine Only.snd (q := (State.inject _ _ _)) (by assumption) (State.inject_only (Sub.trans rfl hp) (Sub.trans rfl hr) ?_)
    | with_reducible refine State.inject_only (Sub.trans rfl hp) (Sub.trans rfl hr) ?_
    | with_reducible refine Only.set 2055 R.PW_PACE_PACE_num (Sub.bits hr rfl) ?_
    | with_reducible refine Only.set 2056 R.PW_PACE_MIN_num (Sub.bits hr rfl) ?_
    | with_reducible refine Only.ite ?_ ?_
    | (extract_lets +onlyGivenNames y; first | (refine Only.cut (x := y) ?_ ?_; subst y; rotate_left; clear_value y; intro _) | (refine Only.cut (x := y.1) ?_ ?_; subst y; rotate_left; clear_value y; intro _) | (refine Only.cut (x := y.2) ?_ ?_; subst y; rotate_left; clear_value y; intro _) | (refine Only.cut (x := y.2.2) ?_ ?_; subst y; rotate_left; clear_value y; intro _) | clear_value y)
    | split
    | dsimp only

theorem State.islandForced_only {p r : Nat} {s x : State} {a1 a2 : _} (hp : Sub 222232 p) (hr : Sub 0xfc0080000000000000000000000000000000000000000000000000000000000000000000000000000000000000000000000000000000000000000000000000000000000000000000000000000000000000000000000000000000000000000000380803000000000000000000000000002fff10000000000000000000000000000000000000000000000000000000000000000000000000000000000000000000000000000000000000000000000000000000000000000000000000000000000000000000000000000000000000000000000000000000000000000000000000000000000000000000000000000000000000000000000000000000000000000000000000 r) (h : Only p r s x) :
    Only p r s (State.islandForced x a1 a2) := by
  unfold State.islandForced
  repeat' first
    | with_reducible assumption
    | with_reducible refine State.post_only (Sub.trans rfl hp) (Sub.trans rfl hr) ?_
    | with_reducible refine State.meForced_only (Sub.trans rfl hp) (Sub.trans rfl hr) ?_
    | with_reducible refine State.islandOff_only (Sub.trans rfl hp) (Sub.trans rfl hr) ?_
    | (extract_lets +onlyGivenNames y; first | (refine Only.cut (x := y) ?_ ?_; subst y; rotate_left; clear_value y; intro _) | clear_value y)
    | split
    | dsimp only

theorem execPwIslandForced_only {p r : Nat} {s : State} {a0 : _} (hp : Sub 4416536 p) (hr : Sub 0xfc00800000000000000000000000000000000000000000000000000000000000000e0600000000000000000000000000000000000000000000000000000000000000000000000000000000000000000000000000000000000000000000000000380803000000000000000000000000002fff10000000000000000000000000000000000000000000000000000000000000000000000000000000000000000000000000000000000000000000000000000000000000000000000000000000000000000000000000000000000000000000000000000000000000000000000000000000000000000000000000000000000000000000000000000000000000000000000000 r) :
    ∃ t, execPwIslandForced a0 s = .next t ∧ Only p r s t := by
  unfold execPwIslandForced
  refine ⟨_, rfl, ?_⟩
  have h : Only p r s s := Only.refl
  repeat' first
    | with_reducible assumption
    | with_reducible refine State.islandForced_only (Sub.trans rfl hp) (Sub.trans rfl hr) ?_
    | with_reducible refine State.detect_only (Sub.trans rfl hp) (Sub.trans rfl hr) ?_ ?_
    | intro _
    | dsimp only

theorem State.oscFault_only {p r : Nat} {s x : State} {a1 : _} (hp : Sub 8187281406 p) (hr : Sub 0x80001000000000000000000000008fcc00000000000000000000000000000000000000000000000000000000000000000000165f00000000000000000000000000400020000000000000000000000000000010000000000000000000000000000038080300000000000000000000000000000000000000000000000000000000000000000000000000000000000000000000000000000000000000000000000000000000000000000000000009fe007ffb0000000000000000000204000000000000000000000000000000000000000000000000000000000000000000000000000000000000000000000000000000000000000000000000000000000000000000000000 r) (h : Only p r s x) :
    Only p r s (State.oscFault x a1) := by
  unfold State.oscFault
  repeat' first
    | with_reducible assumption
    | with_reducible refine State.post_only (Sub.trans rfl hp) (Sub.trans rfl hr) ?_
    | with_reducible refine State.fatal_only (Sub.trans rfl hp) (Sub.trans rfl hr) ?_
    | with_reducible refine State.latchFatal_only (Sub.trans rfl hp) (Sub.trans rfl hr) ?_
    | with_reducible refine State.resetRequest_only (Sub.trans rfl hp) (Sub.trans rfl hr) ?_
    | (extract_lets +onlyGivenNames y; first | (refine Only.cut (x := y) ?_ ?_; subst y; rotate_left; clear_value y; intro _) | clear_value y)
    | dsimp only

theorem State.powerUp_only {p r : Nat} {s x : State} (hp : Sub 8187281406 p) (hr : Sub 0x80000000000000000000000000000fc400000000000000000000000000000000000000000000000000000000000000000000061f00000000000000000000000000400020000000000000000000000000000010000000000000000000000000000038080300000000000000000000000000000000000000000000000000000000000000000000000000000000000000000000000000000000000000000000000000000000000000000000000009fe007ffb0000000000000000000204000000000000000000000000000000000000000000000000000000000000000000000000000000000000000000000000000000000000000000000000000000000000000000000000 r) (h : Only p r s x) :
    Only p r s (State.powerUp x) := by
  unfold State.powerUp
  repeat' first
    | with_reducible assumption
    | with_reducible refine State.cleared_only (Sub.trans rfl hp) (Sub.trans rfl hr) ?_
    | with_reducible refine Only.set 2079 R.PW_RESET_CAUSE_CAUSE_num (Sub.bits hr rfl) ?_
    | with_reducible refine Only.set 1954 R.AD_SIO_STAT_DEMAND_num (Sub.bits hr rfl) ?_
    | with_reducible refine State.showKept_only (Sub.trans rfl hp) (Sub.trans rfl hr) ?_
    | with_reducible refine State.assertAll_only (Sub.trans rfl hp) (Sub.trans rfl hr) ?_
    | with_reducible refine Only.foldl ?_ ?_
    | intro _
    | (extract_lets +onlyGivenNames y; first | (refine Only.cut (x := y) ?_ ?_; subst y; rotate_left; clear_value y; intro _) | clear_value y)
    | dsimp only
    | (first | (with_reducible refine Only.upd_regs_cb_ev_sio_pw (Sub.bits hp rfl) (Sub.bits hp rfl) (Sub.bits hp rfl) (Sub.bits hp rfl) (Sub.bits hp rfl) ?_ (fun _ => soundRegs_reset); first | with_reducible assumption | with_reducible refine State.cleared_only (Sub.trans rfl hp) (Sub.trans rfl hr) ?_ | with_reducible refine Only.set 2079 R.PW_RESET_CAUSE_CAUSE_num (Sub.bits hr rfl) ?_ | with_reducible refine Only.set 1954 R.AD_SIO_STAT_DEMAND_num (Sub.bits hr rfl) ?_ | with_reducible refine State.showKept_only (Sub.trans rfl hp) (Sub.trans rfl hr) ?_ | with_reducible refine State.assertAll_only (Sub.trans rfl hp) (Sub.trans rfl hr) ?_))

theorem execPowerOn_only {p r : Nat} {s : State} (hp : Sub 8187281406 p) (hr : Sub 0x80000000000000000000000000000fc400000000000000000000000000000000000000000000000000000000000000000000061f00000000000000000000000000400020000000000000000000000000000010000000000000000000000000000038080300000000000000000000000000000000000000000000000000000000000000000000000000000000000000000000000000000000000000000000000000000000000000000000000009fe007ffb0000000000000000000204000000000000000000000000000000000000000000000000000000000000000000000000000000000000000000000000000000000000000000000000000000000000000000000000 r) :
    ∃ t, execPowerOn s = .next t ∧ Only p r s t := by
  unfold execPowerOn
  refine ⟨_, rfl, ?_⟩
  have h : Only p r s s := Only.refl
  repeat' first
    | with_reducible assumption
    | with_reducible refine State.powerUp_only (Sub.trans rfl hp) (Sub.trans rfl hr) ?_

theorem execPwNvosc_only {p r : Nat} {s : State} (hp : Sub 8187281406 p) (hr : Sub 0x80001000000000000000000000008fcc00000000000000000000000000000000000000000000000000000000000000000000165f00000000000000000000000000400020000000000000000000000000000010000000000000000000000000000038080300000000000000000000000000000000000000000000000000000000000000000000000000000000000000000000000000000000000000000000000000000000000000000000000009fe007ffb0000000000000000000204000000000000000000000000000000000000000000000000000000000000000000000000000000000000000000000000000000000000000000000000000000000000000000000000 r) :
    ∃ t, execPwNvosc s = .next t ∧ Only p r s t := by
  unfold execPwNvosc
  refine ⟨_, rfl, ?_⟩
  have h : Only p r s s := Only.refl
  repeat' first
    | with_reducible assumption
    | with_reducible refine State.oscFault_only (Sub.trans rfl hp) (Sub.trans rfl hr) ?_
    | with_reducible refine Only.ite ?_ ?_
    | split

theorem State.bootSlot_only {p r : Nat} {s x : State} {a1 a2 : _} (hp : Sub 4194312 p) (hr : Sub 0xe060000000000000000000000000000000000000000000000000000000000000000000000000000000000000000000000000000000000000000000000000000000000000000000000000000000000000000000000000000000000000000000000000000000000000000000000000000000000000000000000000000000000000000000000000000000000000000000000000000000000000000000000000000000000000000000000000000000000000000000000000000000000000000000000000000000000000000000000000000000000000000000000000000000000000000 r) (h : Only p r s x) :
    Only p r s (State.bootSlot x a1 a2).2 := by
  unfold State.bootSlot
  repeat' first
    | with_reducible assumption
    | with_reducible refine Only.snd (q := (State.inject _ _ _)) (by assumption) (State.inject_only (Sub.trans rfl hp) (Sub.trans rfl hr) ?_)
    | with_reducible refine State.inject_only (Sub.trans rfl hp) (Sub.trans rfl hr) ?_
    | with_reducible refine State.post_only (Sub.trans rfl hp) (Sub.trans rfl hr) ?_
    | with_reducible refine Only.ite ?_ ?_
    | (extract_lets +onlyGivenNames y; first | (refine Only.cut (x := y) ?_ ?_; subst y; rotate_left; clear_value y; intro _) | (refine Only.cut (x := y.1) ?_ ?_; subst y; rotate_left; clear_value y; intro _) | (refine Only.cut (x := y.2) ?_ ?_; subst y; rotate_left; clear_value y; intro _) | (refine Only.cut (x := y.2.2) ?_ ?_; subst y; rotate_left; clear_value y; intro _) | clear_value y)
    | split
    | dsimp only

theorem State.bootReports_only {p r : Nat} {s x : State} (hp : Sub 6291464 p) (hr : Sub 0xe060000000000000000000000000000000000000000000000000000000000000000000000000000000000000000000000000000000000000000000000000000000000000000000000000000000000000000000000000000000000000000000000000000000000000000000000000000000000000000000000000000000000000000000000000000000000000000000000000000000000000000000000000000000000000000000000000000000000000000000000000000000000000000000000000000000000000000000000000000000000000000000000000000000000000000 r) (h : Only p r s x) :
    Only p r s (State.bootReports x) := by
  unfold State.bootReports
  repeat' first
    | with_reducible assumption
    | with_reducible refine State.post_only (Sub.trans rfl hp) (Sub.trans rfl hr) ?_
    | with_reducible refine State.updBb_only (Sub.trans rfl hp) (Sub.trans rfl hr) ?_
    | with_reducible refine State.detect_only (Sub.trans rfl hp) (Sub.trans rfl hr) ?_ ?_
    | with_reducible refine Only.ite ?_ ?_
    | intro _
    | (extract_lets +onlyGivenNames y; first | (refine Only.cut (x := y) ?_ ?_; subst y; rotate_left; clear_value y; intro _) | clear_value y)
    | split
    | dsimp only

theorem State.secureBoot_only {p r : Nat} {s x : State} {a1 a2 a3 : _} (hp : Sub 56623116 p) (hr : Sub 0xe000000000000000000000000000000000000000000000000000000000000000000000e060000000000000000000000000000000000000000000000000000000000000000000000000000000000000000000000000000000000000000000000000000000000000000000000000000000000000000000000000000000000000000000000000000000000000000000000000000000000000000000000000000000000000000000000000000000000000000000000000000000000000000000000000000000000000000000000000000000000000000000000000000000000000000000000000000000000000000000000000000000000000000000000000000000000000010 r) (h : Only p r s x) :
    Only p r s (State.secureBoot x a1 a2 a3) := by
  unfold State.secureBoot
  repeat' first
    | with_reducible assumption
    | with_reducible refine Only.snd (q := (State.bootSlot _ _ _)) (by assumption) (State.bootSlot_only (Sub.trans rfl hp) (Sub.trans rfl hr) ?_)
    | with_reducible refine State.bootSlot_only (Sub.trans rfl hp) (Sub.trans rfl hr) ?_
    | with_reducible refine Only.set 2081 R.PW_BOOT_STAT_SLOT_num (Sub.bits hr rfl) ?_
    | with_reducible refine Only.set 2082 R.PW_BOOT_STAT_SLOT_VALID_num (Sub.bits hr rfl) ?_
    | with_reducible refine Only.set 2083 R.PW_BOOT_STAT_BOOT_MS_num (Sub.bits hr rfl) ?_
    | with_reducible refine State.updPw_only (Sub.trans rfl hp) (Sub.trans rfl hr) ?_
    | with_reducible refine State.setBoth_only 4 R.SYS_VERSION_FW_VER_num (Sub.bits hr rfl) (Sub.trans rfl hp) (Sub.trans rfl hr) ?_
    | with_reducible refine State.post_only (Sub.trans rfl hp) (Sub.trans rfl hr) ?_
    | with_reducible refine State.bootReports_only (Sub.trans rfl hp) (Sub.trans rfl hr) ?_
    | with_reducible refine State.sioPost_only (Sub.trans rfl hp) (Sub.trans rfl hr) ?_
    | with_reducible refine Only.ite ?_ ?_
    | with_reducible refine Only.foldl ?_ ?_
    | with_reducible refine Only.foldl_fst ?_ ?_
    | with_reducible refine Only.foldl_snd ?_ ?_
    | intro _
    | (extract_lets +onlyGivenNames y; first | (refine Only.cut (x := y) ?_ ?_; subst y; rotate_left; clear_value y; intro _) | (refine Only.cut (x := y.1) ?_ ?_; subst y; rotate_left; clear_value y; intro _) | (refine Only.cut (x := y.2) ?_ ?_; subst y; rotate_left; clear_value y; intro _) | (refine Only.cut (x := y.2.2) ?_ ?_; subst y; rotate_left; clear_value y; intro _) | clear_value y)
    | split
    | dsimp only

theorem execSecureBootComplete_only {p r : Nat} {s : State} {a0 a1 a2 : _} (hp : Sub 56623116 p) (hr : Sub 0xe000000000000000000000000000000000000000000000000000000000000000000000e060000000000000000000000000000000000000000000000000000000000000000000000000000000000000000000000000000000000000000000000000000000000000000000000000000000000000000000000000000000000000000000000000000000000000000000000000000000000000000000000000000000000000000000000000000000000000000000000000000000000000000000000000000000000000000000000000000000000000000000000000000000000000000000000000000000000000000000000000000000000000000000000000000000000000010 r) :
    ∃ t, execSecureBootComplete a0 a1 a2 s = .next t ∧ Only p r s t := by
  unfold execSecureBootComplete
  refine ⟨_, rfl, ?_⟩
  have h : Only p r s s := Only.refl
  repeat' first
    | with_reducible assumption
    | with_reducible refine State.secureBoot_only (Sub.trans rfl hp) (Sub.trans rfl hr) ?_

theorem State.headroom_only {p r : Nat} {s x : State} {a1 : _} (hp : Sub 37748744 p) (hr : Sub 0x100000000000000000000000000000000000000000000000000000000000000e060000000000000000000000000000000000000000000000000000000000000000000000000000000000000000000000000000000000000000000000000000000000000000000000000000000000000000000000000000000000000000000000000000000000000000000000000000000000000000000000000000000000000000000000000000000000000000000000000000000000000000000000000000000000000000000000000000000000000000000000000000000000000000000000000000000000000000000000000000000000000000000000000000000000000000 r) (h : Only p r s x) :
    Only p r s (State.headroom x a1) := by
  unfold State.headroom
  repeat' first
    | with_reducible assumption
    | with_reducible refine State.updPw_only (Sub.trans rfl hp) (Sub.trans rfl hr) ?_
    | with_reducible refine Only.setBit 2052 R.PW_SUNDIAL_STAT_HEADROOM_num (Sub.bits hr rfl) ?_
    | with_reducible refine State.post_only (Sub.trans rfl hp) (Sub.trans rfl hr) ?_
    | with_reducible refine State.detect_only (Sub.trans rfl hp) (Sub.trans rfl hr) ?_ ?_
    | with_reducible refine Only.ite ?_ ?_
    | intro _
    | (extract_lets +onlyGivenNames y; first | (refine Only.cut (x := y) ?_ ?_; subst y; rotate_left; clear_value y; intro _) | clear_value y)
    | split
    | dsimp only

theorem State.driveVid_only {p r : Nat} {s x : State} {a1 : _} (_hp : Sub 0 p) (hr : Sub 0x4200000000000000000000000000000000000000000000000000000000000000000000000000000000000000000000000000000000000000000000000000000000000000000000000000000000000000000000000000000000000000000000000000000000000000000000000000000000000000000000000000000000000000000000000000000000000000000000000000000000000000000000000000000000000000000000000000000000000000000000000000000000000000000000000000000000000000000000000000000000000000000000000000000000000000000000000000000000000000000000000000000000000000000000000000000000 r) (h : Only p r s x) :
    Only p r s (State.driveVid x a1) := by
  unfold State.driveVid
  repeat' first
    | with_reducible assumption
    | with_reducible refine Only.set 2049 R.PW_SUNDIAL_STAT_VID_num (Sub.bits hr rfl) ?_
    | with_reducible refine Only.inc 2054 R.PW_SUNDIAL_COUNT_VID_CHANGES_num (Sub.bits hr rfl) ?_
    | with_reducible refine Only.ite ?_ ?_
    | split

theorem State.paceReact_only {p r : Nat} {s x : State} {a1 a2 : _} (hp : Sub 33554448 p) (hr : Sub 0 r) (h : Only p r s x) :
    Only p r s (State.paceReact x a1 a2) := by
  unfold State.paceReact
  repeat' first
    | with_reducible assumption
    | with_reducible refine State.fault_only (Sub.trans rfl hp) (Sub.trans rfl hr) ?_
    | with_reducible refine State.updPw_only (Sub.trans rfl hp) (Sub.trans rfl hr) ?_
    | with_reducible refine Only.ite ?_ ?_
    | intro _
    | (extract_lets +onlyGivenNames y; first | (refine Only.cut (x := y) ?_ ?_; subst y; rotate_left; clear_value y; intro _) | clear_value y)
    | split
    | dsimp only

theorem State.supplyLoop_only {p r : Nat} {s x : State} {a1 a2 a3 : _} (hp : Sub 50485272 p) (hr : Sub 0x4a000000000000000000008fc000000000000000000000000000000000000000000000000000000000000000000000000000000000000000000000000000000000000000000000000000000000000000000000000000000000000000000038080300000000000000000000000000000000000000000000000000000000000000000000000000000000000000000000000000000000000000000000000000000000000000000000000009fe007ffb0000000000000000000204000000000000000000000000000000000000000000000000000000000000000000000000000000000000000000000000000000000000000000000000000000000000000000000000 r) (h : Only p r s x) :
    Only p r s (State.supplyLoop x a1 a2 a3) := by
  unfold State.supplyLoop
  repeat' first
    | with_reducible assumption
    | with_reducible refine State.post_only (Sub.trans rfl hp) (Sub.trans rfl hr) ?_
    | with_reducible refine State.fatal_only (Sub.trans rfl hp) (Sub.trans rfl hr) ?_
    | with_reducible refine State.assertAll_only (Sub.trans rfl hp) (Sub.trans rfl hr) ?_
    | with_reducible refine State.latchFatal_only (Sub.trans rfl hp) (Sub.trans rfl hr) ?_
    | with_reducible refine Only.set 2051 R.PW_SUNDIAL_STAT_PACE_STATE_num (Sub.bits hr rfl) ?_
    | with_reducible refine State.driveVid_only (Sub.trans rfl hp) (Sub.trans rfl hr) ?_
    | with_reducible refine State.paceReact_only (Sub.trans rfl hp) (Sub.trans rfl hr) ?_
    | with_reducible refine State.updPw_only (Sub.trans rfl hp) (Sub.trans rfl hr) ?_
    | with_reducible refine Only.ite ?_ ?_
    | intro _
    | (extract_lets +onlyGivenNames y; first | (refine Only.cut (x := y) ?_ ?_; subst y; rotate_left; clear_value y; intro _) | clear_value y)
    | split
    | dsimp only

theorem State.firstWindow_only {p r : Nat} {s x : State} (hp : Sub 50331648 p) (hr : Sub 0x800000000000000000000000000000000000000000000000000000000000000000000000000000000000000000000000000000000000000000000000000000000000000000000000000000000000000000000000000000000000000000000000000000000000000000000000000000000000000000000000000000000000000000000000000000000000000000000000000000000000000000000000000000000000000000000000000000000000000000000000000000000000000000000000000000000000000000000000000000000000000000000000000000000000000000000000000000000000000000000000000000000000 r) (h : Only p r s x) :
    Only p r s (State.firstWindow x) := by
  unfold State.firstWindow
  repeat' first
    | with_reducible assumption
    | with_reducible refine State.updPw_only (Sub.trans rfl hp) (Sub.trans rfl hr) ?_
    | with_reducible refine Only.setBit 1967 R.AD_WDOG_STAT_RUNNING_num (Sub.bits hr rfl) ?_
    | with_reducible refine State.updSio_only (Sub.trans rfl hp) (Sub.trans rfl hr) ?_
    | with_reducible refine Only.ite ?_ ?_
    | intro _
    | (extract_lets +onlyGivenNames y; first | (refine Only.cut (x := y) ?_ ?_; subst y; rotate_left; clear_value y; intro _) | clear_value y)
    | split
    | dsimp only

theorem State.sundialWindow_only {p r : Nat} {s x : State} {a1 a2 : _} (hp : Sub 54679576 p) (hr : Sub 0x21de000000000000000000008fc00000000000000000000000000000000000000e060000000000000000000000000000000000000000000000000000000000000000000000000000000000000000000000000000000000000000000000000038080300000000000000000000000000000000000000000000000000000000000000000000000000000000000000000000000000000000000000000000000000000000000000000000000009fe007ffb0000000000000000000204000000000000000000000000000000000000000000000000000000000000000000000000000000000000000000000000000000000000000000000000000000000000000000000000 r) (h : Only p r s x) :
    Only p r s (State.sundialWindow x a1 a2) := by
  unfold State.sundialWindow
  repeat' first
    | with_reducible assumption
    | with_reducible refine Only.snd (q := (State.publishPace _ _ _)) (by assumption) (State.publishPace_only (Sub.trans rfl hp) (Sub.trans rfl hr) ?_)
    | with_reducible refine State.publishPace_only (Sub.trans rfl hp) (Sub.trans rfl hr) ?_
    | with_reducible refine Only.set 2050 R.PW_SUNDIAL_STAT_MIN_REGION_num (Sub.bits hr rfl) ?_
    | with_reducible refine Only.set 2061 R.PW_VDDC_MV_MV_num (Sub.bits hr rfl) ?_
    | with_reducible refine State.headroom_only (Sub.trans rfl hp) (Sub.trans rfl hr) ?_
    | with_reducible refine State.updPw_only (Sub.trans rfl hp) (Sub.trans rfl hr) ?_
    | with_reducible refine State.supplyLoop_only (Sub.trans rfl hp) (Sub.trans rfl hr) ?_
    | with_reducible refine State.firstWindow_only (Sub.trans rfl hp) (Sub.trans rfl hr) ?_
    | with_reducible refine Only.ite ?_ ?_
    | with_reducible refine Only.foldl ?_ ?_
    | with_reducible refine Only.foldl_fst ?_ ?_
    | with_reducible refine Only.foldl_snd ?_ ?_
    | intro _
    | (extract_lets +onlyGivenNames y; first | (refine Only.cut (x := y) ?_ ?_; subst y; rotate_left; clear_value y; intro _) | (refine Only.cut (x := y.1) ?_ ?_; subst y; rotate_left; clear_value y; intro _) | (refine Only.cut (x := y.2) ?_ ?_; subst y; rotate_left; clear_value y; intro _) | (refine Only.cut (x := y.2.2) ?_ ?_; subst y; rotate_left; clear_value y; intro _) | clear_value y)
    | split
    | dsimp only

theorem execSundialWindowEnd_only {p r : Nat} {s : State} {a0 a1 : _} (hp : Sub 54679576 p) (hr : Sub 0x21de000000000000000000008fc00000000000000000000000000000000000000e060000000000000000000000000000000000000000000000000000000000000000000000000000000000000000000000000000000000000000000000000038080300000000000000000000000000000000000000000000000000000000000000000000000000000000000000000000000000000000000000000000000000000000000000000000000009fe007ffb0000000000000000000204000000000000000000000000000000000000000000000000000000000000000000000000000000000000000000000000000000000000000000000000000000000000000000000000 r) :
    ∃ t, execSundialWindowEnd a0 a1 s = .next t ∧ Only p r s t := by
  unfold execSundialWindowEnd
  refine ⟨_, rfl, ?_⟩
  have h : Only p r s s := Only.refl
  repeat' first
    | with_reducible assumption
    | with_reducible refine State.sundialWindow_only (Sub.trans rfl hp) (Sub.trans rfl hr) ?_

theorem State.supplyOut_only {p r : Nat} {s x : State} {a1 a2 : _} (hp : Sub 24 p) (hr : Sub 0 r) (h : Only p r s x) :
    Only p r s (State.supplyOut x a1 a2) := by
  unfold State.supplyOut
  repeat' first
    | with_reducible assumption
    | with_reducible refine State.post_only (Sub.trans rfl hp) (Sub.trans rfl hr) ?_
    | with_reducible refine State.fault_only (Sub.trans rfl hp) (Sub.trans rfl hr) ?_

theorem execMemoryClearComplete_only {p r : Nat} {s : State} (hp : Sub 33816576 p) (hr : Sub 0 r) :
    ∃ t, execMemoryClearComplete s = .next t ∧ Only p r s t := by
  unfold execMemoryClearComplete
  refine ⟨_, rfl, ?_⟩
  have h : Only p r s s := Only.refl
  repeat' first
    | with_reducible assumption
    | with_reducible refine State.memoryCleared_only (Sub.trans rfl hp) (Sub.trans rfl hr) ?_

theorem State.noteOff_only {p r : Nat} {s x : State} (hp : Sub 33554432 p) (hr : Sub 0 r) (h : Only p r s x) :
    Only p r s (State.noteOff x) := by
  unfold State.noteOff
  repeat' first
    | with_reducible assumption
    | with_reducible refine State.updPw_only (Sub.trans rfl hp) (Sub.trans rfl hr) ?_
    | with_reducible refine Only.ite ?_ ?_
    | with_reducible refine Only.foldl ?_ ?_
    | intro _
    | (extract_lets +onlyGivenNames y; first | (refine Only.cut (x := y) ?_ ?_; subst y; rotate_left; clear_value y; intro _) | clear_value y)
    | split
    | dsimp only

theorem State.vrFault_only {p r : Nat} {s x : State} {a1 : _} (hp : Sub 33554456 p) (hr : Sub 0x4200000000000000000000000000000000000000000000000000000000000000000000000000000000000000000000000000000000000000000000000000000000000000000000000000000000000000000000000000000000000000000000000000000000000000000000000000000000000000000000000000000000000000000000000000000000000000000000000000000000000000000000000000000000000000000000000000000000000000000000000000000000000000000000000000000000000000000000000000000000000000000000000000000000000000000000000000000000000000000000000000000000000000000000000000000000 r) (h : Only p r s x) :
    Only p r s (State.vrFault x a1) := by
  unfold State.vrFault
  repeat' first
    | with_reducible assumption
    | with_reducible refine State.post_only (Sub.trans rfl hp) (Sub.trans rfl hr) ?_
    | with_reducible refine State.driveVid_only (Sub.trans rfl hp) (Sub.trans rfl hr) ?_
    | with_reducible refine State.paceReact_only (Sub.trans rfl hp) (Sub.trans rfl hr) ?_
    | (extract_lets +onlyGivenNames y; first | (refine Only.cut (x := y) ?_ ?_; subst y; rotate_left; clear_value y; intro _) | clear_value y)
    | dsimp only

theorem State.arbRound_only {p r : Nat} {s x : State} {a1 a2 a3 : _} (hp : Sub 71303176 p) (hr : Sub 0x200000000000000000000000000000000000000000000000000000000000000e060000000000000000000000000000000000000000000000000000000000000000000000000000000000000000000000000000000000000000000000000000000000000000000000000000000000000000000000000000000000000000000000000000000000000000000000000000000000000000000000000000000000000000000000000000000000000000000000000000000000000000000000000000000000000000000000000000000000000000000000000000000000000000000000000000000000000000000000000000000000000000000000000000000000000000 r) (h : Only p r s x) :
    Only p r s (State.arbRound x a1 a2 a3) := by
  unfold State.arbRound
  repeat' first
    | with_reducible assumption
    | with_reducible refine Only.inc 2053 R.PW_SUNDIAL_COUNT_ARB_MARGIN_num (Sub.bits hr rfl) ?_
    | with_reducible refine State.post_only (Sub.trans rfl hp) (Sub.trans rfl hr) ?_
    | with_reducible refine State.detect_only (Sub.trans rfl hp) (Sub.trans rfl hr) ?_ ?_
    | with_reducible refine Only.foldl ?_ ?_
    | intro _
    | (extract_lets +onlyGivenNames y; first | (refine Only.cut (x := y) ?_ ?_; subst y; rotate_left; clear_value y; intro _) | clear_value y)
    | dsimp only
    | (first | (with_reducible refine Only.upd_arb (Sub.bits hp rfl) ?_; first | with_reducible assumption | with_reducible refine Only.inc 2053 R.PW_SUNDIAL_COUNT_ARB_MARGIN_num (Sub.bits hr rfl) ?_ | with_reducible refine State.post_only (Sub.trans rfl hp) (Sub.trans rfl hr) ?_ | with_reducible refine State.detect_only (Sub.trans rfl hp) (Sub.trans rfl hr) ?_ ?_))

theorem execPinReset_only {p r : Nat} {s : State} (hp : Sub 8187281406 p) (hr : Sub 0x80001000000000000000000000008fcc00000000000000000000000000000000000000000000000000000000000000000000165f00000000000000000000000000400020000000000000000000000000000010000000000000000000000000000038080300000000000000000000000000000000000000000000000000000000000000000000000000000000000000000000000000000000000000000000000000000000000000000000000009fe007ffb0000000000000000000204000000000000000000000000000000000000000000000000000000000000000000000000000000000000000000000000000000000000000000000000000000000000000000000000 r) :
    ∃ t, execPinReset s = .next t ∧ Only p r s t := by
  unfold execPinReset
  refine ⟨_, rfl, ?_⟩
  have h : Only p r s s := Only.refl
  repeat' first
    | with_reducible assumption
    | with_reducible refine State.resetRequest_only (Sub.trans rfl hp) (Sub.trans rfl hr) ?_

theorem execPwVr_only {p r : Nat} {s : State} {a0 a1 : _} (hp : Sub 37748760 p) (hr : Sub 0x8420000000000000000000000000000000000000000000000000000000000000e060000000000000000000000000000000000000000000000000000000000000000000000000000000000000000000000000000000000000000000000000000000000000000000000000000000000000000000000000000000000000000000000000000000000000000000000000000000000000000000000000000000000000000000000000000000000000000000000000000000000000000000000000000000000000000000000000000000000000000000000000000000000000000000000000000000000000000000000000000000000000000000000000000000000000000 r) :
    ∃ t, execPwVr a0 a1 s = .next t ∧ Only p r s t := by
  unfold execPwVr
  refine ⟨_, rfl, ?_⟩
  have h : Only p r s s := Only.refl
  repeat' first
    | with_reducible assumption
    | with_reducible refine Only.setBit 2059 R.PW_SUPPLY_STAT_VR_PGOOD_num (Sub.bits hr rfl) ?_
    | with_reducible refine State.vrFault_only (Sub.trans rfl hp) (Sub.trans rfl hr) ?_
    | with_reducible refine State.detect_only (Sub.trans rfl hp) (Sub.trans rfl hr) ?_ ?_
    | intro _
    | split
    | dsimp only

theorem State.setGood_only {p r : Nat} {s x : State} {a1 a2 : _} (_hp : Sub 0 p) (hr : Sub 0x60000000000000000000000000000000000000000000000000000000000000000000000000000000000000000000000000000000000000000000000000000000000000000000000000000000000000000000000000000000000000000000000000000000000000000000000000000000000000000000000000000000000000000000000000000000000000000000000000000000000000000000000000000000000000000000000000000000000000000000000000000000000000000000000000000000000000000000000000000000000000000000000000000000000000000000000000000000000000000000000000000000000000000000000000000000000 r) (h : Only p r s x) :
    Only p r s (State.setGood x a1 a2) := by
  unfold State.setGood
  repeat' first
    | with_reducible assumption
    | with_reducible refine Only.set 2057 R.PW_SUPPLY_STAT_GOOD_num (Sub.bits hr rfl) ?_
    | with_reducible refine Only.setBit 2058 R.PW_SUPPLY_STAT_GOOD_VDDA_num (Sub.bits hr rfl) ?_
    | with_reducible refine Only.ite ?_ ?_
    | split

theorem execIslandPowerOff_only {p r : Nat} {s : State} {a0 : _} (hp : Sub 222216 p) (hr : Sub 0xfc008000000000000000000000000000000000000000000000000000000000000000000000000000000000000000000000000000000000000000000000000000000000000000000000000000000000000000000000000000000000000000000038080300000000000000000000000000003f10000000000000000000000000000000000000000000000000000000000000000000000000000000000000000000000000000000000000000000000000000000000000000000000000000000000000000000000000000000000000000000000000000000000000000000000000000000000000000000000000000000000000000000000000000000000000000000000000 r) :
    ∃ t, execIslandPowerOff a0 s = .next t ∧ Only p r s t := by
  unfold execIslandPowerOff
  refine ⟨_, rfl, ?_⟩
  have h : Only p r s s := Only.refl
  repeat' first
    | with_reducible assumption
    | with_reducible refine State.islandDrain_only (Sub.trans rfl hp) (Sub.trans rfl hr) ?_
    | with_reducible refine Only.ite ?_ ?_
    | split

theorem execPwSupply_only {p r : Nat} {s : State} {a0 a1 : _} (hp : Sub 24 p) (hr : Sub 0x60000000000000000000000000000000000000000000000000000000000000000000000000000000000000000000000000000000000000000000000000000000000000000000000000000000000000000000000000000000000000000000000000000000000000000000000000000000000000000000000000000000000000000000000000000000000000000000000000000000000000000000000000000000000000000000000000000000000000000000000000000000000000000000000000000000000000000000000000000000000000000000000000000000000000000000000000000000000000000000000000000000000000000000000000000000000 r) :
    ∃ t, execPwSupply a0 a1 s = .next t ∧ Only p r s t := by
  unfold execPwSupply
  refine ⟨_, rfl, ?_⟩
  have h : Only p r s s := Only.refl
  repeat' first
    | with_reducible assumption
    | with_reducible refine State.setGood_only (Sub.trans rfl hp) (Sub.trans rfl hr) ?_
    | with_reducible refine State.supplyOut_only (Sub.trans rfl hp) (Sub.trans rfl hr) ?_
    | with_reducible refine Only.ite ?_ ?_
    | (extract_lets +onlyGivenNames y; first | (refine Only.cut (x := y) ?_ ?_; subst y; rotate_left; clear_value y; intro _) | clear_value y)
    | split
    | dsimp only

theorem execHoldupOkSet_only {p r : Nat} {s : State} (_hp : Sub 0 p) (hr : Sub 0x200000000000000000000000000000000000000000000000000000000000000000000000000000000000000000000000000000000000000000000000000000000000000000000000000000000000000000000000000000000000000000000000000000000000000000000000000000000000000000000000000000000000000000000000000000000000000000000000000000000000000000000000000000000000000000000000000000000000000000000000000000000000000000000000000000000000000000000000000000000 r) :
    ∃ t, execHoldupOkSet s = .next t ∧ Only p r s t := by
  unfold execHoldupOkSet
  refine ⟨_, rfl, ?_⟩
  have h : Only p r s s := Only.refl
  repeat' first
    | with_reducible assumption
    | with_reducible refine Only.setBit 1665 R.BB_STAT_HOLDUP_OK_num (Sub.bits hr rfl) ?_
    | with_reducible refine Only.ite ?_ ?_
    | intro _
    | split
    | dsimp only

theorem State.mgmtExpiry_only {p r : Nat} {s x : State} {a1 : _} (hp : Sub 33685512 p) (hr : Sub 0x2080000000000000000000000000000000000000000000000000000000000000000000000000000000000000000000000000000000000000000000000000000000000000000000000000000000000000000000000000000000000000000000000001b8080300000000000000000000000000000000000000000000000000000000000000000000000000000000000000000000000000000000000000000000000000000000000000000000000000000000000000000000000000000000000000000000000000000000000000000000000000000000000000000000000000000000000000000000000000000000000000000000000000000000000000000000000000000000 r) (h : Only p r s x) :
    Only p r s (State.mgmtExpiry x a1) := by
  unfold State.mgmtExpiry
  repeat' first
    | with_reducible assumption
    | with_reducible refine State.post_only (Sub.trans rfl hp) (Sub.trans rfl hr) ?_
    | with_reducible refine Only.inc 2085 R.PW_MGMT_WD_EXPIRIES_num (Sub.bits hr rfl) ?_
    | with_reducible refine Only.set 2079 R.PW_RESET_CAUSE_CAUSE_num (Sub.bits hr rfl) ?_
    | with_reducible refine State.updPw_only (Sub.trans rfl hp) (Sub.trans rfl hr) ?_
    | with_reducible refine State.stopLong_only (Sub.trans rfl hp) (Sub.trans rfl hr) ?_
    | with_reducible refine Only.foldl ?_ ?_
    | intro _
    | (extract_lets +onlyGivenNames y; first | (refine Only.cut (x := y) ?_ ?_; subst y; rotate_left; clear_value y; intro _) | clear_value y)
    | dsimp only

theorem State.forceOff_only {p r : Nat} {s x : State} {a1 a2 : _} (hp : Sub 33554440 p) (hr : Sub 0x3f00000000000000000000000000000000000000000000000000000000000000000000000000000000000000000000000000000000000000000000000000000000000000000000000000000000000000000000000000000000000000000000000000000000000000000000000000000000000000000000000000000000000000000000000000000000000000000000000000000000000000000000000000000000000000000000000000000000000000000000000000000000000000000000000000000000000000000000000000000000000000000000000000000000000000000000000000000000000000000000000000000000000000000000000000000000000000 r) (h : Only p r s x) :
    Only p r s (State.forceOff x a1 a2) := by
  unfold State.forceOff
  repeat' first
    | with_reducible assumption
    | with_reducible refine State.ignored_only (Sub.trans rfl hp) (Sub.trans rfl hr) ?_
    | with_reducible refine State.setForce_only (Sub.trans rfl hp) (Sub.trans rfl hr) ?_
    | with_reducible refine State.noteOff_only (Sub.trans rfl hp) (Sub.trans rfl hr) ?_
    | with_reducible refine Only.ite ?_ ?_
    | split

theorem execSoftReset_only {p r : Nat} {s : State} {a0 : _} (hp : Sub 8187281406 p) (hr : Sub 0x80001000000000000000000000008fcc00000000000000000000000000000000000000000000000000000000000000000000165f00000000000000000000000000400020000000000000000000000000000010000000000000000000000000000038080300000000000000000000000000000000000000000000000000000000000000000000000000000000000000000000000000000000000000000000000000000000000000000000000009fe007ffb0000000000000000000204000000000000000000000000000000000000000000000000000000000000000000000000000000000000000000000000000000000000000000000000000000000000000000000000 r) :
    ∃ t, execSoftReset a0 s = .next t ∧ Only p r s t := by
  unfold execSoftReset
  refine ⟨_, rfl, ?_⟩
  have h : Only p r s s := Only.refl
  repeat' first
    | with_reducible assumption
    | with_reducible refine State.resetKey_only (Sub.trans rfl hp) (Sub.trans rfl hr) ?_

theorem execPwMgmtWdog_only {p r : Nat} {s : State} (hp : Sub 37879816 p) (hr : Sub 0x20800000000000000000000000000000000000000000000000000000000000000000000e0600000000000000000000000000000000000000000000000000000000000000000000000000000000000000000000000000000000000000000000000001b8080300000000000000000000000000000000000000000000000000000000000000000000000000000000000000000000000000000000000000000000000000000000000000000000000000000000000000000000000000000000000000000000000000000000000000000000000000000000000000000000000000000000000000000000000000000000000000000000000000000000000000000000000000000000 r) :
    ∃ t, execPwMgmtWdog s = .next t ∧ Only p r s t := by
  unfold execPwMgmtWdog
  refine ⟨_, rfl, ?_⟩
  have h : Only p r s s := Only.refl
  repeat' first
    | with_reducible assumption
    | with_reducible refine State.mgmtExpiry_only (Sub.trans rfl hp) (Sub.trans rfl hr) ?_
    | with_reducible refine State.detect_only (Sub.trans rfl hp) (Sub.trans rfl hr) ?_ ?_
    | intro _
    | dsimp only

theorem State.tempHot_only {p r : Nat} {s x : State} {a1 a2 : _} (hp : Sub 33554456 p) (hr : Sub 0 r) (h : Only p r s x) :
    Only p r s (State.tempHot x a1 a2) := by
  unfold State.tempHot
  repeat' first
    | with_reducible assumption
    | with_reducible refine State.updPw_only (Sub.trans rfl hp) (Sub.trans rfl hr) ?_
    | with_reducible refine State.tempEvent_only (Sub.trans rfl hp) (Sub.trans rfl hr) ?_
    | with_reducible refine State.fault_only (Sub.trans rfl hp) (Sub.trans rfl hr) ?_
    | with_reducible refine Only.ite ?_ ?_
    | intro _
    | (extract_lets +onlyGivenNames y; first | (refine Only.cut (x := y) ?_ ?_; subst y; rotate_left; clear_value y; intro _) | clear_value y)
    | split
    | dsimp only

theorem execArbiterRound_only {p r : Nat} {s : State} {a0 a1 a2 : _} (hp : Sub 71303176 p) (hr : Sub 0x200000000000000000000000000000000000000000000000000000000000000e060000000000000000000000000000000000000000000000000000000000000000000000000000000000000000000000000000000000000000000000000000000000000000000000000000000000000000000000000000000000000000000000000000000000000000000000000000000000000000000000000000000000000000000000000000000000000000000000000000000000000000000000000000000000000000000000000000000000000000000000000000000000000000000000000000000000000000000000000000000000000000000000000000000000000000 r) :
    ∃ t, execArbiterRound a0 a1 a2 s = .next t ∧ Only p r s t := by
  unfold execArbiterRound
  refine ⟨_, rfl, ?_⟩
  have h : Only p r s s := Only.refl
  repeat' first
    | with_reducible assumption
    | with_reducible refine State.arbRound_only (Sub.trans rfl hp) (Sub.trans rfl hr) ?_

theorem State.powerFail_only {p r : Nat} {s x : State} {a1 a2 : _} (hp : Sub 8187281406 p) (hr : Sub 0x80001000000000000000000000008fcc00000000000000000000000000000000000000000000000000000000000000000000165f00000000000000000000000000400020000000000000000000000000000010000000000000000000000000000038080300000000000000000000000000000000000000000000000000000000000000000000000000000000000000000000000000000000000000000000000000000000000000000000000009fe007ffb0000000000000000000204000000000000000000000000000000000000000000000000000000000000000000000000000000000000000000000000000000000000000000000000000000000000000000000000 r) (h : Only p r s x) :
    Only p r s (State.powerFail x a1 a2) := by
  unfold State.powerFail
  repeat' first
    | with_reducible assumption
    | with_reducible refine State.post_only (Sub.trans rfl hp) (Sub.trans rfl hr) ?_
    | with_reducible refine State.fatal_only (Sub.trans rfl hp) (Sub.trans rfl hr) ?_
    | with_reducible refine Only.setBit 2060 R.PW_SUPPLY_STAT_PFAIL_num (Sub.bits hr rfl) ?_
    | with_reducible refine State.latchFatal_only (Sub.trans rfl hp) (Sub.trans rfl hr) ?_
    | with_reducible refine State.resetRequest_only (Sub.trans rfl hp) (Sub.trans rfl hr) ?_
    | with_reducible refine Only.ite ?_ ?_
    | (extract_lets +onlyGivenNames y; first | (refine Only.cut (x := y) ?_ ?_; subst y; rotate_left; clear_value y; intro _) | clear_value y)
    | split
    | dsimp only

theorem execPowerFailSignal_only {p r : Nat} {s : State} {a0 : _} (hp : Sub 8187281406 p) (hr : Sub 0x80001600000000000000000000008fcc00000000000000000000000000000000000000000000000000000000000000000000165f00000000000000000000000000400020000000000000000000000000000010000000000000000000000000000038080300000000000000000000000000000000000000000000000000000000000000000000000000000000000000000000000000000000000000000000000000000000000000000000000009fe007ffb0000000000000000000204000000000000000000000000000000000000000000000000000000000000000000000000000000000000000000000000000000000000000000000000000000000000000000000000 r) :
    ∃ t, execPowerFailSignal a0 s = .next t ∧ Only p r s t := by
  unfold execPowerFailSignal
  refine ⟨_, rfl, ?_⟩
  have h : Only p r s s := Only.refl
  repeat' first
    | with_reducible assumption
    | with_reducible refine State.powerFail_only (Sub.trans rfl hp) (Sub.trans rfl hr) ?_
    | with_reducible refine State.setGood_only (Sub.trans rfl hp) (Sub.trans rfl hr) ?_
    | (extract_lets +onlyGivenNames y; first | (refine Only.cut (x := y) ?_ ?_; subst y; rotate_left; clear_value y; intro _) | clear_value y)
    | split
    | dsimp only

theorem execPwHoldupLow_only {p r : Nat} {s : State} (hp : Sub 37748744 p) (hr : Sub 0xe060000000000000000000000000000000200000000000000000000000000000000000000000000000000000000000000000000000000000000000000000000000000000000000000000000000000000000000000000000000000000000000000000000000000000000000000000000000000000000000000000000000000000000000000000000000000000000000000000000000000000000000000000000000000000000000000000000000000000000000000000000000000000000000000000000000000000000000000000000000000000000000000000000000000000000 r) :
    ∃ t, execPwHoldupLow s = .next t ∧ Only p r s t := by
  unfold execPwHoldupLow
  refine ⟨_, rfl, ?_⟩
  have h : Only p r s s := Only.refl
  repeat' first
    | with_reducible assumption
    | with_reducible refine State.holdupLow_only (Sub.trans rfl hp) (Sub.trans rfl hr) ?_

theorem State.tempFatal_only {p r : Nat} {s x : State} {a1 a2 : _} (hp : Sub 8187281406 p) (hr : Sub 0x80001000000000000000000000008fcc00000000000000000000000000000000000000000000000000000000000000000000165f00000000000000000000000000400020000000000000000000000000000010000000000000000000000000000038080300000000000000000000000000000000000000000000000000000000000000000000000000000000000000000000000000000000000000000000000000000000000000000000000009fe007ffb0000000000000000000204000000000000000000000000000000000000000000000000000000000000000000000000000000000000000000000000000000000000000000000000000000000000000000000000 r) (h : Only p r s x) :
    Only p r s (State.tempFatal x a1 a2) := by
  unfold State.tempFatal
  repeat' first
    | with_reducible assumption
    | with_reducible refine State.tempEvent_only (Sub.trans rfl hp) (Sub.trans rfl hr) ?_
    | with_reducible refine State.fatal_only (Sub.trans rfl hp) (Sub.trans rfl hr) ?_
    | with_reducible refine State.updPw_only (Sub.trans rfl hp) (Sub.trans rfl hr) ?_
    | with_reducible refine State.latchFatal_only (Sub.trans rfl hp) (Sub.trans rfl hr) ?_
    | with_reducible refine State.resetRequest_only (Sub.trans rfl hp) (Sub.trans rfl hr) ?_
    | with_reducible refine Only.ite ?_ ?_
    | intro _
    | (extract_lets +onlyGivenNames y; first | (refine Only.cut (x := y) ?_ ?_; subst y; rotate_left; clear_value y; intro _) | clear_value y)
    | split
    | dsimp only

theorem State.tempRead_only {p r : Nat} {s x : State} {a1 : _} (hp : Sub 8187281406 p) (hr : Sub 0x8000d000000000000000000000008fcc0000000000000000000000000000000000000e060000000000000000000000000000165f00000000000000000000000000400020000000000000000000000000000010000000000000000000000000000038080300000000000000000000000000000000000000000000000000000000000000000000000000000000000000000000000000000000000000000000000000000000000000000000000009fe007ffb0000000000000000000204000000000000000000000000000000000000000000000000000000000000000000000000000000000000000000000000000000000000000000000000000000000000000000000000 r) (h : Only p r s x) :
    Only p r s (State.tempRead x a1) := by
  unfold State.tempRead
  repeat' first
    | with_reducible assumption
    | with_reducible refine Only.snd (q := (State.inject _ _ _)) (by assumption) (State.inject_only (Sub.trans rfl hp) (Sub.trans rfl hr) ?_)
    | with_reducible refine State.inject_only (Sub.trans rfl hp) (Sub.trans rfl hr) ?_
    | with_reducible refine Only.seti 2062 R.PW_TEMP_TJ_num (Sub.bits hr rfl) ?_
    | with_reducible refine Only.seti 2063 R.PW_TEMP_TJ_MAX_num (Sub.bits hr rfl) ?_
    | with_reducible refine State.updBb_only (Sub.trans rfl hp) (Sub.trans rfl hr) ?_
    | with_reducible refine State.updPw_only (Sub.trans rfl hp) (Sub.trans rfl hr) ?_
    | with_reducible refine State.tempWarn_only (Sub.trans rfl hp) (Sub.trans rfl hr) ?_
    | with_reducible refine State.tempHot_only (Sub.trans rfl hp) (Sub.trans rfl hr) ?_
    | with_reducible refine State.tempFatal_only (Sub.trans rfl hp) (Sub.trans rfl hr) ?_
    | with_reducible refine Only.ite ?_ ?_
    | intro _
    | (extract_lets +onlyGivenNames y; first | (refine Only.cut (x := y) ?_ ?_; subst y; rotate_left; clear_value y; intro _) | (refine Only.cut (x := y.1) ?_ ?_; subst y; rotate_left; clear_value y; intro _) | (refine Only.cut (x := y.2) ?_ ?_; subst y; rotate_left; clear_value y; intro _) | (refine Only.cut (x := y.2.2) ?_ ?_; subst y; rotate_left; clear_value y; intro _) | clear_value y)
    | split
    | dsimp only

theorem execTempReading_only {p r : Nat} {s : State} {a0 : _} (hp : Sub 8187281406 p) (hr : Sub 0x8000d000000000000000000000008fcc0000000000000000000000000000000000000e060000000000000000000000000000165f00000000000000000000000000400020000000000000000000000000000010000000000000000000000000000038080300000000000000000000000000000000000000000000000000000000000000000000000000000000000000000000000000000000000000000000000000000000000000000000000009fe007ffb0000000000000000000204000000000000000000000000000000000000000000000000000000000000000000000000000000000000000000000000000000000000000000000000000000000000000000000000 r) :
    ∃ t, execTempReading a0 s = .next t ∧ Only p r s t := by
  unfold execTempReading
  refine ⟨_, rfl, ?_⟩
  have h : Only p r s s := Only.refl
  repeat' first
    | with_reducible assumption
    | with_reducible refine State.tempRead_only (Sub.trans rfl hp) (Sub.trans rfl hr) ?_

theorem execTimeIslandLock_only {p r : Nat} {s : State} {a0 : _} (hp : Sub 39845900 p) (hr : Sub 0xe060000000000000000000000000000104000000000000000000000000000000000000000000000000000000000000000000000000000000000000000000000000000000000000000000000000000000000000000000000000000000000000000000000000000000000000000000000000000000000000000000000000000000000000000000000000000000000000000000000000000000000000000000000000000000000000000000000000000000000000000000000000000000000000000060000000000000000000000000000800000000000000000000000000000000006 r) :
    ∃ t, execTimeIslandLock a0 s = .next t ∧ Only p r s t := by
  unfold execTimeIslandLock
  refine ⟨_, rfl, ?_⟩
  have h : Only p r s s := Only.refl
  repeat' first
    | with_reducible assumption
    | with_reducible refine State.timeLock_only (Sub.trans rfl hp) (Sub.trans rfl hr) ?_

theorem execForceOffWrite_only {p r : Nat} {s : State} {a0 a1 : _} (hp : Sub 33554440 p) (hr : Sub 0x3f00000000000000000000000000000000000000000000000000000000000000000000000000000000000000000000000000000000000000000000000000000000000000000000000000000000000000000000000000000000000000000000000000000000000000000000000000000000000000000000000000000000000000000000000000000000000000000000000000000000000000000000000000000000000000000000000000000000000000000000000000000000000000000000000000000000000000000000000000000000000000000000000000000000000000000000000000000000000000000000000000000000000000000000000000000000000000 r) :
    ∃ t, execForceOffWrite a0 a1 s = .next t ∧ Only p r s t := by
  unfold execForceOffWrite
  refine ⟨_, rfl, ?_⟩
  have h : Only p r s s := Only.refl
  repeat' first
    | with_reducible assumption
    | with_reducible refine State.forceOff_only (Sub.trans rfl hp) (Sub.trans rfl hr) ?_

end Sys2Proof.Machine
end

