-- ==== Sys2Proof/Laws/OnlyScrub.lean ====
section
/-! SUPPORT. Footprints of the operations of Machine/Scrub.lean. -/
namespace Sys2Proof.Machine
set_option linter.all false
set_option Elab.async false

theorem State.setFrom_only {p r : Nat} {s x : State} {a1 a2 a3 : _} (c0 : Nat) (e0 : fieldOf c0 = a1) (k0 : r.testBit c0 = true) (_hp : Sub 0 p) (_hr : Sub 0 r) (h : Only p r s x) :
    Only p r s (State.setFrom x a1 a2 a3) := by
  unfold State.setFrom
  repeat' first
    | with_reducible assumption
    | with_reducible refine Only.set c0 e0 k0 ?_

theorem State.loseTask_only {p r : Nat} {s x : State} {a1 : _} (hp : Sub 134217728 p) (hr : Sub 0x3c61fe0000000000000000000000000000000000000000000000000000000000000000000000000000000000000000000000000000000000000000000000000000000000000000000000000000000000000000000000000000000000000000000000000000000000000000000000000000000000000000000000000000000000000000000 r) (h : Only p r s x) :
    Only p r s (State.loseTask x a1) := by
  unfold State.loseTask
  repeat' first
    | with_reducible assumption
    | with_reducible refine State.draw_only (Sub.trans rfl hp) (Sub.trans rfl hr) ?_
    | with_reducible refine State.setFrom_only 1037 R.SCH_TASK_A_RELEASE_num (Sub.bits hr rfl) (Sub.trans rfl hp) (Sub.trans rfl hr) ?_
    | with_reducible refine State.setFrom_only 1038 R.SCH_TASK_A_CLASS_num (Sub.bits hr rfl) (Sub.trans rfl hp) (Sub.trans rfl hr) ?_
    | with_reducible refine State.setFrom_only 1039 R.SCH_TASK_A_TARGET_num (Sub.bits hr rfl) (Sub.trans rfl hp) (Sub.trans rfl hr) ?_
    | with_reducible refine State.setFrom_only 1040 R.SCH_TASK_A_FLOW_num (Sub.bits hr rfl) (Sub.trans rfl hp) (Sub.trans rfl hr) ?_
    | with_reducible refine State.setFrom_only 1041 R.SCH_TASK_A_FLOW_EN_num (Sub.bits hr rfl) (Sub.trans rfl hp) (Sub.trans rfl hr) ?_
    | with_reducible refine State.setFrom_only 1042 R.SCH_TASK_A_LIST_num (Sub.bits hr rfl) (Sub.trans rfl hp) (Sub.trans rfl hr) ?_
    | with_reducible refine State.setFrom_only 1043 R.SCH_TASK_B_BUDGET_NS_num (Sub.bits hr rfl) (Sub.trans rfl hp) (Sub.trans rfl hr) ?_
    | with_reducible refine State.setFrom_only 1044 R.SCH_TASK_C_DEADLINE_NS_num (Sub.bits hr rfl) (Sub.trans rfl hp) (Sub.trans rfl hr) ?_
    | with_reducible refine State.setFrom_only 1049 R.SCH_TASK_D_PERIOD_US_num (Sub.bits hr rfl) (Sub.trans rfl hp) (Sub.trans rfl hr) ?_
    | with_reducible refine State.setFrom_only 1050 R.SCH_TASK_D_PHASE_US_num (Sub.bits hr rfl) (Sub.trans rfl hp) (Sub.trans rfl hr) ?_
    | with_reducible refine State.setFrom_only 1054 R.SCH_TASK_E_RESP_LAST_num (Sub.bits hr rfl) (Sub.trans rfl hp) (Sub.trans rfl hr) ?_
    | with_reducible refine State.setFrom_only 1055 R.SCH_TASK_E_RESP_MAX_num (Sub.bits hr rfl) (Sub.trans rfl hp) (Sub.trans rfl hr) ?_
    | with_reducible refine State.setFrom_only 1056 R.SCH_TASK_F_MISSES_num (Sub.bits hr rfl) (Sub.trans rfl hp) (Sub.trans rfl hr) ?_
    | with_reducible refine State.setFrom_only 1057 R.SCH_TASK_F_DROPS_num (Sub.bits hr rfl) (Sub.trans rfl hp) (Sub.trans rfl hr) ?_
    | (extract_lets +onlyGivenNames y; first | (refine Only.cut (x := y) ?_ ?_; subst y; rotate_left; clear_value y; intro _) | clear_value y)
    | split
    | dsimp only

theorem State.scrubTasks_only {p r : Nat} {s x : State} {a1 : _} (hp : Sub 4433379480 p) (hr : Sub 0xe060000000000000000000000000000000000000000000000000000000000000000000000000000000000000000000000000000000000000000000000000000000000000000000000000000000000000000000000000000000000000003c61fe0080000000000000000000000000000000000000000000000000000000000000000000000000000000000000000000000000000000000000000000000000000000000000000000000000000000000000000000000000000000000000000000000000000000000000000000000000000000000000000000000000000000000000000 r) (h : Only p r s x) :
    Only p r s (State.scrubTasks x a1) := by
  unfold State.scrubTasks
  repeat' first
    | with_reducible assumption
    | with_reducible refine Only.thd (q := (State.eccFound _ _ _ _)) (by assumption) (State.eccFound_only (Sub.trans rfl hp) (Sub.trans rfl hr) ?_)
    | with_reducible refine State.eccFound_only (Sub.trans rfl hp) (Sub.trans rfl hr) ?_
    | with_reducible refine Only.inc 1027 R.SCH_COUNT_ECC_CORR_num (Sub.bits hr rfl) ?_
    | with_reducible refine State.postOnce_only (Sub.trans rfl hp) (Sub.trans rfl hr) ?_
    | with_reducible refine State.loseTask_only (Sub.trans rfl hp) (Sub.trans rfl hr) ?_
    | with_reducible refine State.eccFatal_only (Sub.trans rfl hp) (Sub.trans rfl hr) ?_
    | (extract_lets +onlyGivenNames y; first | (refine Only.cut (x := y) ?_ ?_; subst y; rotate_left; clear_value y; intro _) | (refine Only.cut (x := y.1) ?_ ?_; subst y; rotate_left; clear_value y; intro _) | (refine Only.cut (x := y.2) ?_ ?_; subst y; rotate_left; clear_value y; intro _) | (refine Only.cut (x := y.2.2) ?_ ?_; subst y; rotate_left; clear_value y; intro _) | clear_value y)
    | split
    | dsimp only

theorem State.scrubProg_only {p r : Nat} {s x : State} {a1 : _} (hp : Sub 4433379480 p) (hr : Sub 0xe06000000000000000000000000000000000000000000000000000000000000000000000000000000000000000000000000000000000000000000000000000000000000000000000000000000000c000000000000000000000000000000000000000000000000000000000000000000000000000000000000000000000000000000000000000000000000000000000000000000000000000000000000000000000000000000000000000000000000000000000000000000000000000000000000000000000000000000000000000000000000000000000000000000000000000000 r) (h : Only p r s x) :
    Only p r s (State.scrubProg x a1) := by
  unfold State.scrubProg
  repeat' first
    | with_reducible assumption
    | with_reducible refine Only.thd (q := (State.eccFound _ _ _ _)) (by assumption) (State.eccFound_only (Sub.trans rfl hp) (Sub.trans rfl hr) ?_)
    | with_reducible refine State.eccFound_only (Sub.trans rfl hp) (Sub.trans rfl hr) ?_
    | with_reducible refine Only.inc 1178 R.ME_ECC_ECC_CORR_num (Sub.bits hr rfl) ?_
    | with_reducible refine State.postOnce_only (Sub.trans rfl hp) (Sub.trans rfl hr) ?_
    | with_reducible refine State.setFrom_only 1179 R.ME_PROG_num (Sub.bits hr rfl) (Sub.trans rfl hp) (Sub.trans rfl hr) ?_
    | with_reducible refine State.draw_only (Sub.trans rfl hp) (Sub.trans rfl hr) ?_
    | with_reducible refine State.eccFatal_only (Sub.trans rfl hp) (Sub.trans rfl hr) ?_
    | (extract_lets +onlyGivenNames y; first | (refine Only.cut (x := y) ?_ ?_; subst y; rotate_left; clear_value y; intro _) | (refine Only.cut (x := y.1) ?_ ?_; subst y; rotate_left; clear_value y; intro _) | (refine Only.cut (x := y.2) ?_ ?_; subst y; rotate_left; clear_value y; intro _) | (refine Only.cut (x := y.2.2) ?_ ?_; subst y; rotate_left; clear_value y; intro _) | clear_value y)
    | split
    | dsimp only

theorem State.scrubSep_only {p r : Nat} {s x : State} {a1 a2 a3 a4 : _} (hp : Sub 4299161752 p) (hr : Sub 0xe060000000000000000000000000000000000000000000000000000000000000000000000000000000000000000000000000000000000000000000000000000000000000000000000000000000000000000000000000000000000000000000000000000000000000000000000000000000000000000000000000000000000000000000000000000000000000000000000000000000000000000000000000000000000000000000000000000000000000000000000000000000000000000000000000000000000000000000000000000000000000000000000000000000000000000 r) (h : Only p r s x) :
    Only p r s (State.scrubSep x a1 a2 a3 a4) := by
  unfold State.scrubSep
  repeat' first
    | with_reducible assumption
    | with_reducible refine Only.thd (q := (State.eccFound _ _ _ _)) (by assumption) (State.eccFound_only (Sub.trans rfl hp) (Sub.trans rfl hr) ?_)
    | with_reducible refine State.eccFound_only (Sub.trans rfl hp) (Sub.trans rfl hr) ?_
    | with_reducible refine State.postOnce_only (Sub.trans rfl hp) (Sub.trans rfl hr) ?_
    | with_reducible refine State.eccFatal_only (Sub.trans rfl hp) (Sub.trans rfl hr) ?_
    | (extract_lets +onlyGivenNames y; first | (refine Only.cut (x := y) ?_ ?_; subst y; rotate_left; clear_value y; intro _) | (refine Only.cut (x := y.1) ?_ ?_; subst y; rotate_left; clear_value y; intro _) | (refine Only.cut (x := y.2) ?_ ?_; subst y; rotate_left; clear_value y; intro _) | (refine Only.cut (x := y.2.2) ?_ ?_; subst y; rotate_left; clear_value y; intro _) | clear_value y)
    | split
    | dsimp only

theorem State.scrub_only {p r : Nat} {s x : State} {a1 : _} (hp : Sub 4436829336 p) (hr : Sub 0xe0600000000000000000000000000000800000000000000000000000000002007c000000000000000000000000000000000000000000000000000000000000000000000000000000000000000000c000000000000000000000000000003c61fe00e0000000000000000000000000000000000000000000000000000048100a00000000000000000000000000000000000000000000000000000000000000000101000000000000000000000000000000000000000000000000000000000000000000000000000000000000000000000000000000000000000000000000000000000 r) (h : Only p r s x) :
    Only p r s (State.scrub x a1) := by
  unfold State.scrub
  repeat' first
    | with_reducible assumption
    | with_reducible refine Only.snd (q := (State.tillerRead _ _ _ _)) (by assumption) (State.tillerRead_only (Sub.trans rfl hp) (Sub.trans rfl hr) ?_)
    | with_reducible refine State.tillerRead_only (Sub.trans rfl hp) (Sub.trans rfl hr) ?_
    | with_reducible refine State.scrubScratch_only (Sub.trans rfl hp) (Sub.trans rfl hr) ?_
    | with_reducible refine State.scrubTasks_only (Sub.trans rfl hp) (Sub.trans rfl hr) ?_
    | with_reducible refine State.scrubProg_only (Sub.trans rfl hp) (Sub.trans rfl hr) ?_
    | with_reducible refine Only.snd (q := (State.granaryRead _ _)) (by assumption) (State.granaryRead_only (Sub.trans rfl hp) (Sub.trans rfl hr) ?_)
    | with_reducible refine State.granaryRead_only (Sub.trans rfl hp) (Sub.trans rfl hr) ?_
    | with_reducible refine State.scrubRecorder_only (Sub.trans rfl hp) (Sub.trans rfl hr) ?_
    | with_reducible refine State.scrubOrangery_only (Sub.trans rfl hp) (Sub.trans rfl hr) ?_
    | with_reducible refine State.scrubSep_only (Sub.trans rfl hp) (Sub.trans rfl hr) ?_
    | (extract_lets +onlyGivenNames y; first | (refine Only.cut (x := y) ?_ ?_; subst y; rotate_left; clear_value y; intro _) | (refine Only.cut (x := y.1) ?_ ?_; subst y; rotate_left; clear_value y; intro _) | (refine Only.cut (x := y.2) ?_ ?_; subst y; rotate_left; clear_value y; intro _) | (refine Only.cut (x := y.2.2) ?_ ?_; subst y; rotate_left; clear_value y; intro _) | clear_value y)
    | split
    | dsimp only

theorem State.sweep_only {p r : Nat} {s x : State} {a1 a2 : _} (hp : Sub 4436829336 p) (hr : Sub 0xe0600000000000000000000000000000800000000000000000000000000002007c000000000000000000000000000000000000000000000000000000000000000000000000000000000000000000c000000000000000000000000000003c61fe00e0000000000000000000000000000000000000000000000000000048100a00000000000000000000000000000000000000000000000000000000000000000101000000000000000000000000000000000000000000000000000000000000000000000000000000000000000000000000000000000000000000000000000000000 r) (h : Only p r s x) :
    Only p r s (State.sweep x a1 a2) := by
  unfold State.sweep
  repeat' first
    | with_reducible assumption
    | with_reducible refine State.scrub_only (Sub.trans rfl hp) (Sub.trans rfl hr) ?_
    | with_reducible refine Only.foldl ?_ ?_
    | intro _

theorem execScrubRead_only {p r : Nat} {s : State} {a0 : _} (hp : Sub 4436829336 p) (hr : Sub 0xe0600000000000000000000000000000800000000000000000000000000002007c000000000000000000000000000000000000000000000000000000000000000000000000000000000000000000c000000000000000000000000000003c61fe00e0000000000000000000000000000000000000000000000000000048100a00000000000000000000000000000000000000000000000000000000000000000101000000000000000000000000000000000000000000000000000000000000000000000000000000000000000000000000000000000000000000000000000000000 r) :
    ∃ t, execScrubRead a0 s = .next t ∧ Only p r s t := by
  unfold execScrubRead
  refine ⟨_, rfl, ?_⟩
  have h : Only p r s s := Only.refl
  repeat' first
    | with_reducible assumption
    | with_reducible refine State.scrub_only (Sub.trans rfl hp) (Sub.trans rfl hr) ?_

end Sys2Proof.Machine
end

