-- ==== Sys2Proof/Laws/OnlySeparation.lean ====
section
/-! SUPPORT. Footprints of the operations of Machine/Separation.lean. -/
namespace Sys2Proof.Machine
set_option linter.all false
set_option Elab.async false

theorem State.scanTest_only {p r : Nat} {s x : State} {a1 a2 : _} (hp : Sub 16392 p) (hr : Sub 0x3c010000000000000000000000000000000000000000000000000000000000000000000000000000000000000000000000000000000000000000000000000000000000000000000000000000000000000000000000000000000000000000000000000000000000000000000000000000000000000 r) (h : Only p r s x) :
    Only p r s (State.scanTest x a1 a2) := by
  unfold State.scanTest
  repeat' first
    | with_reducible assumption
    | with_reducible refine Only.inc 916 R.SEP_COUNT_BLIND_num (Sub.bits hr rfl) ?_
    | with_reducible refine State.post_only (Sub.trans rfl hp) (Sub.trans rfl hr) ?_
    | with_reducible refine State.updSep_only (Sub.trans rfl hp) (Sub.trans rfl hr) ?_
    | with_reducible refine Only.set 926 R.SEP_SCAN_STAT_STATE_num (Sub.bits hr rfl) ?_
    | with_reducible refine Only.set 927 R.SEP_SCAN_STAT_CAUSE_num (Sub.bits hr rfl) ?_
    | with_reducible refine Only.set 928 R.SEP_SCAN_STAT_COUNT_num (Sub.bits hr rfl) ?_
    | with_reducible refine Only.set 929 R.SEP_SCAN_STAT_AGE_num (Sub.bits hr rfl) ?_
    | with_reducible refine Only.ite ?_ ?_
    | intro _
    | (extract_lets +onlyGivenNames y; first | (refine Only.cut (x := y) ?_ ?_; subst y; rotate_left; clear_value y; intro _) | clear_value y)
    | split
    | dsimp only

theorem State.zoneTest_only {p r : Nat} {s x : State} {a1 a2 a3 : _} (hp : Sub 16392 p) (hr : Sub 0 r) (h : Only p r s x) :
    Only p r s (State.zoneTest x a1 a2 a3) := by
  unfold State.zoneTest
  repeat' first
    | with_reducible assumption
    | with_reducible refine State.post_only (Sub.trans rfl hp) (Sub.trans rfl hr) ?_
    | with_reducible refine State.updSep_only (Sub.trans rfl hp) (Sub.trans rfl hr) ?_
    | with_reducible refine Only.ite ?_ ?_
    | intro _
    | (extract_lets +onlyGivenNames y; first | (refine Only.cut (x := y) ?_ ?_; subst y; rotate_left; clear_value y; intro _) | clear_value y)
    | split
    | dsimp only

theorem State.sepStop_only {p r : Nat} {s x : State} {a1 a2 a3 : _} (hp : Sub 16930840 p) (hr : Sub 0xfc000000000000000000000000000000000000000000000000000000000000000000000000000000000000000000000000000000000000000000000000000000000000000000000000000000000000000000038080300000000000000000000000000000000000000000000000000000000000000000000000000000000000000000000000000000000000000000000000000000000000000000000000009fe007ffb0000000000000000000204000000000000000000000000000000000000000000000000000000000000000000000000000000000000000000000000000000000000000000000000000000000000000000000000 r) (h : Only p r s x) :
    Only p r s (State.sepStop x a1 a2 a3) := by
  unfold State.sepStop
  repeat' first
    | with_reducible assumption
    | with_reducible refine State.noteStop_only (Sub.trans rfl hp) (Sub.trans rfl hr) ?_
    | with_reducible refine State.updSio_only (Sub.trans rfl hp) (Sub.trans rfl hr) ?_
    | with_reducible refine State.assertGroup_only (Sub.trans rfl hp) (Sub.trans rfl hr) ?_
    | with_reducible refine State.fault_only (Sub.trans rfl hp) (Sub.trans rfl hr) ?_
    | with_reducible refine Only.ite ?_ ?_
    | with_reducible refine Only.foldl ?_ ?_
    | intro _
    | (extract_lets +onlyGivenNames y; first | (refine Only.cut (x := y) ?_ ?_; subst y; rotate_left; clear_value y; intro _) | clear_value y)
    | split
    | dsimp only

theorem State.decideArm_only {p r : Nat} {s x : State} {a1 a2 : _} (hp : Sub 21387288 p) (hr : Sub 0xfc00000000000000000000000000000000000000e060000000000000000000000000000000000000000000000000000000000000000000000000000000000000000000000000000000000000000000000000038080300000000000000000000000000000000000000000000000000000000000000000000000000000000000000000008000000000000000000000000000000000000000000000000000009fe007ffb0000000000000000000204000000000000000000000000000000000000000000000000000000000000000000000000000000000000000000000000000000000000000000000000000000000000000000000000 r) (h : Only p r s x) :
    Only p r s (State.decideArm x a1 a2) := by
  unfold State.decideArm
  repeat' first
    | with_reducible assumption
    | with_reducible refine Only.snd (q := (State.inject _ _ _)) (by assumption) (State.inject_only (Sub.trans rfl hp) (Sub.trans rfl hr) ?_)
    | with_reducible refine State.inject_only (Sub.trans rfl hp) (Sub.trans rfl hr) ?_
    | with_reducible refine State.post_only (Sub.trans rfl hp) (Sub.trans rfl hr) ?_
    | with_reducible refine Only.inc 915 R.SEP_COUNT_PROTECT_num (Sub.bits hr rfl) ?_
    | with_reducible refine State.updSio_only (Sub.trans rfl hp) (Sub.trans rfl hr) ?_
    | with_reducible refine State.sepStop_only (Sub.trans rfl hp) (Sub.trans rfl hr) ?_
    | with_reducible refine State.updSep_only (Sub.trans rfl hp) (Sub.trans rfl hr) ?_
    | with_reducible refine State.grPutList_only (Sub.trans rfl hp) (Sub.trans rfl hr) ?_
    | with_reducible refine State.grPut_only (Sub.trans rfl hp) (Sub.trans rfl hr) ?_
    | with_reducible refine Only.ite ?_ ?_
    | with_reducible refine Only.foldl ?_ ?_
    | with_reducible refine Only.foldl_fst ?_ ?_
    | with_reducible refine Only.foldl_snd ?_ ?_
    | intro _
    | (extract_lets +onlyGivenNames y; first | (refine Only.cut (x := y) ?_ ?_; subst y; rotate_left; clear_value y; intro _) | (refine Only.cut (x := y.1) ?_ ?_; subst y; rotate_left; clear_value y; intro _) | (refine Only.cut (x := y.2) ?_ ?_; subst y; rotate_left; clear_value y; intro _) | (refine Only.cut (x := y.2.2) ?_ ?_; subst y; rotate_left; clear_value y; intro _) | clear_value y)
    | split
    | dsimp only

theorem State.giveCe_only {p r : Nat} {s x : State} {a1 : _} (hp : Sub 262144 p) (hr : Sub 0 r) (h : Only p r s x) :
    Only p r s (State.giveCe x a1) := by
  unfold State.giveCe
  repeat' first
    | with_reducible assumption
    | with_reducible refine State.grPutList_only (Sub.trans rfl hp) (Sub.trans rfl hr) ?_
    | with_reducible refine Only.foldl ?_ ?_
    | intro _
    | (extract_lets +onlyGivenNames y; first | (refine Only.cut (x := y) ?_ ?_; subst y; rotate_left; clear_value y; intro _) | clear_value y)
    | split
    | dsimp only

theorem State.protect_only {p r : Nat} {s x : State} (hp : Sub 21387288 p) (hr : Sub 0xfc00000000000000000000000000000000000000e06000000000000000000000000000000000000000000000000000000000000000000000000000000000000000000000000000000000000000000000000003808030000000000000000000000000000000000000000000000000000000000000000000000000000000000000003c018000000000000000000000000000000000000000000000000000009fe007ffb0000000000000000000204000000000000000000000000000000000000000000000000000000000000000000000000000000000000000000000000000000000000000000000000000000000000000000000000 r) (h : Only p r s x) :
    Only p r s (State.protect x) := by
  unfold State.protect
  repeat' first
    | with_reducible assumption
    | with_reducible refine Only.snd (q := (State.inject _ _ _)) (by assumption) (State.inject_only (Sub.trans rfl hp) (Sub.trans rfl hr) ?_)
    | with_reducible refine State.inject_only (Sub.trans rfl hp) (Sub.trans rfl hr) ?_
    | with_reducible refine State.scanTest_only (Sub.trans rfl hp) (Sub.trans rfl hr) ?_
    | with_reducible refine State.zoneTest_only (Sub.trans rfl hp) (Sub.trans rfl hr) ?_
    | with_reducible refine State.post_only (Sub.trans rfl hp) (Sub.trans rfl hr) ?_
    | with_reducible refine State.updSep_only (Sub.trans rfl hp) (Sub.trans rfl hr) ?_
    | with_reducible refine State.decideArm_only (Sub.trans rfl hp) (Sub.trans rfl hr) ?_
    | with_reducible refine State.giveCe_only (Sub.trans rfl hp) (Sub.trans rfl hr) ?_
    | with_reducible refine Only.ite ?_ ?_
    | with_reducible refine Only.foldl ?_ ?_
    | with_reducible refine Only.foldl_fst ?_ ?_
    | with_reducible refine Only.foldl_snd ?_ ?_
    | intro _
    | (extract_lets +onlyGivenNames y; first | (refine Only.cut (x := y) ?_ ?_; subst y; rotate_left; clear_value y; intro _) | (refine Only.cut (x := y.1) ?_ ?_; subst y; rotate_left; clear_value y; intro _) | (refine Only.cut (x := y.2) ?_ ?_; subst y; rotate_left; clear_value y; intro _) | (refine Only.cut (x := y.2.2) ?_ ?_; subst y; rotate_left; clear_value y; intro _) | clear_value y)
    | split
    | dsimp only

theorem State.writeRows_only {p r : Nat} {s x : State} {a1 a2 : _} (hp : Sub 262144 p) (hr : Sub 0 r) (h : Only p r s x) :
    Only p r s (State.writeRows x a1 a2) := by
  unfold State.writeRows
  repeat' first
    | with_reducible assumption
    | with_reducible refine State.grPutList_only (Sub.trans rfl hp) (Sub.trans rfl hr) ?_
    | (extract_lets +onlyGivenNames y; first | (refine Only.cut (x := y) ?_ ?_; subst y; rotate_left; clear_value y; intro _) | clear_value y)
    | dsimp only

theorem State.rowsEnd_only {p r : Nat} {s x : State} (hp : Sub 4514968 p) (hr : Sub 0xe060000000000000000000000000000000000000000000000000000000000000000000000000000000000000000000000000000000000000000000000000000000000000000000000000000000000000000000000000000000000000003c00000060000000000000000000000000000000000000000000000000000048100800000000000000000000000000000000000000000000000000000000000000000001000000000000000000000000000000000000000000000000000000000000000000000000000000000000000000000000000000000000000000000000000000000 r) (h : Only p r s x) :
    Only p r s (State.rowsEnd x) := by
  unfold State.rowsEnd
  repeat' first
    | with_reducible assumption
    | with_reducible refine State.writeRows_only (Sub.trans rfl hp) (Sub.trans rfl hr) ?_
    | with_reducible refine State.updSep_only (Sub.trans rfl hp) (Sub.trans rfl hr) ?_
    | with_reducible refine State.unitEnd_only (Sub.trans rfl hp) (Sub.trans rfl hr) ?_
    | with_reducible refine Only.ite ?_ ?_
    | with_reducible refine Only.foldl ?_ ?_
    | intro _
    | (extract_lets +onlyGivenNames y; first | (refine Only.cut (x := y) ?_ ?_; subst y; rotate_left; clear_value y; intro _) | clear_value y)
    | split
    | dsimp only

theorem execSepRowsEnd_only {p r : Nat} {s : State} (hp : Sub 4514968 p) (hr : Sub 0xe060000000000000000000000000000000000000000000000000000000000000000000000000000000000000000000000000000000000000000000000000000000000000000000000000000000000000000000000000000000000000003c00000060000000000000000000000000000000000000000000000000000048100800000000000000000000000000000000000000000000000000000000000000000001000000000000000000000000000000000000000000000000000000000000000000000000000000000000000000000000000000000000000000000000000000000 r) :
    ∃ t, execSepRowsEnd s = .next t ∧ Only p r s t := by
  unfold execSepRowsEnd
  refine ⟨_, rfl, ?_⟩
  have h : Only p r s s := Only.refl
  repeat' first
    | with_reducible assumption
    | with_reducible refine State.rowsEnd_only (Sub.trans rfl hp) (Sub.trans rfl hr) ?_

theorem State.bvClear_only {p r : Nat} {s x : State} {a1 : _} (hp : Sub 16777216 p) (hr : Sub 0 r) (h : Only p r s x) :
    Only p r s (State.bvClear x a1) := by
  unfold State.bvClear
  repeat' first
    | with_reducible assumption
    | with_reducible refine State.updSio_only (Sub.trans rfl hp) (Sub.trans rfl hr) ?_
    | with_reducible refine Only.ite ?_ ?_
    | intro _
    | (extract_lets +onlyGivenNames y; first | (refine Only.cut (x := y) ?_ ?_; subst y; rotate_left; clear_value y; intro _) | clear_value y)
    | split
    | dsimp only

theorem State.protectionEnd_only {p r : Nat} {s x : State} {a1 : _} (hp : Sub 21429400 p) (hr : Sub 0xfc00000000000000000000000000000000000000e060000000000000000000000000000000000000000000000000000000000000000000000000000000000000000000000000000000000000000000000000038080300000000000000000000000000000000000000000000000000000003c0000006000000000000000000000003c018300000000000000000000000048100800000000000000000000009fe007ffb0000000000000000000204000000000000001000000000000000000000000000000000000000000000000000000000000000000000000000000000000000000000000000000000000000000000000000000000 r) (h : Only p r s x) :
    Only p r s (State.protectionEnd x a1) := by
  unfold State.protectionEnd
  repeat' first
    | with_reducible assumption
    | with_reducible refine State.updSep_only (Sub.trans rfl hp) (Sub.trans rfl hr) ?_
    | with_reducible refine State.protect_only (Sub.trans rfl hp) (Sub.trans rfl hr) ?_
    | with_reducible refine Only.setBit 908 R.SEP_STAT_GEOM_FAIL_num (Sub.bits hr rfl) ?_
    | with_reducible refine Only.set 909 R.SEP_STAT_GEOM_LAST_num (Sub.bits hr rfl) ?_
    | with_reducible refine State.phasesEnd_only (Sub.trans rfl hp) (Sub.trans rfl hr) ?_
    | with_reducible refine Only.ite ?_ ?_
    | intro _
    | (extract_lets +onlyGivenNames y; first | (refine Only.cut (x := y) ?_ ?_; subst y; rotate_left; clear_value y; intro _) | clear_value y)
    | split
    | dsimp only

theorem execSepProtectionEnd_only {p r : Nat} {s : State} {a0 : _} (hp : Sub 21429400 p) (hr : Sub 0xfc00000000000000000000000000000000000000e060000000000000000000000000000000000000000000000000000000000000000000000000000000000000000000000000000000000000000000000000038080300000000000000000000000000000000000000000000000000000003c0000006000000000000000000000003c018300000000000000000000000048100800000000000000000000009fe007ffb0000000000000000000204000000000000001000000000000000000000000000000000000000000000000000000000000000000000000000000000000000000000000000000000000000000000000000000000 r) :
    ∃ t, execSepProtectionEnd a0 s = .next t ∧ Only p r s t := by
  unfold execSepProtectionEnd
  refine ⟨_, rfl, ?_⟩
  have h : Only p r s s := Only.refl
  repeat' first
    | with_reducible assumption
    | with_reducible refine State.protectionEnd_only (Sub.trans rfl hp) (Sub.trans rfl hr) ?_

theorem State.geomFailed_only {p r : Nat} {s x : State} (hp : Sub 4514968 p) (hr : Sub 0xe060000000000000000000000000000000000000000000000000000000000000000000000000000000000000000000000000000000000000000000000000000000000000000000000000000000000000000000000000000000000000003c00000060000000000000000000000000000100000000000000000000000048100800000000000000000000000000000000000000000000000000000000000000000001000000000000000000000000000000000000000000000000000000000000000000000000000000000000000000000000000000000000000000000000000000000 r) (h : Only p r s x) :
    Only p r s (State.geomFailed x) := by
  unfold State.geomFailed
  repeat' first
    | with_reducible assumption
    | with_reducible refine State.grPut_only (Sub.trans rfl hp) (Sub.trans rfl hr) ?_
    | with_reducible refine State.writeRows_only (Sub.trans rfl hp) (Sub.trans rfl hr) ?_
    | with_reducible refine Only.setBit 908 R.SEP_STAT_GEOM_FAIL_num (Sub.bits hr rfl) ?_
    | with_reducible refine State.post_only (Sub.trans rfl hp) (Sub.trans rfl hr) ?_
    | with_reducible refine State.updSep_only (Sub.trans rfl hp) (Sub.trans rfl hr) ?_
    | with_reducible refine State.phasesEnd_only (Sub.trans rfl hp) (Sub.trans rfl hr) ?_
    | with_reducible refine Only.ite ?_ ?_
    | with_reducible refine Only.foldl ?_ ?_
    | intro _
    | (extract_lets +onlyGivenNames y; first | (refine Only.cut (x := y) ?_ ?_; subst y; rotate_left; clear_value y; intro _) | clear_value y)
    | split
    | dsimp only

theorem execSepGeomFail_only {p r : Nat} {s : State} (hp : Sub 4514968 p) (hr : Sub 0xe060000000000000000000000000000000000000000000000000000000000000000000000000000000000000000000000000000000000000000000000000000000000000000000000000000000000000000000000000000000000000003c00000060000000000000000000000000000100000000000000000000000048100800000000000000000000000000000000000000000000000000000000000000000001000000000000000000000000000000000000000000000000000000000000000000000000000000000000000000000000000000000000000000000000000000000 r) :
    ∃ t, execSepGeomFail s = .next t ∧ Only p r s t := by
  unfold execSepGeomFail
  refine ⟨_, rfl, ?_⟩
  have h : Only p r s s := Only.refl
  repeat' first
    | with_reducible assumption
    | with_reducible refine State.geomFailed_only (Sub.trans rfl hp) (Sub.trans rfl hr) ?_

theorem State.sepBoundary_only {p r : Nat} {s x : State} (hp : Sub 16793600 p) (hr : Sub 0x3fe0000100000000000000000000000000000000000000000000000000000000000000000000000000000000000000000000000000000000000000000000000000000000000000000000000000000000000000000000000000000000000000000000000000000000000000000000000000000000 r) (h : Only p r s x) :
    Only p r s (State.sepBoundary x) := by
  unfold State.sepBoundary
  repeat' first
    | with_reducible assumption
    | with_reducible refine State.updSep_only (Sub.trans rfl hp) (Sub.trans rfl hr) ?_
    | with_reducible refine State.holdScan_only (Sub.trans rfl hp) (Sub.trans rfl hr) ?_
    | with_reducible refine State.bvClear_only (Sub.trans rfl hp) (Sub.trans rfl hr) ?_
    | with_reducible refine Only.set 917 R.SEP_ARM_STAT_A_num (Sub.bits hr rfl) ?_
    | with_reducible refine Only.set 918 R.SEP_ARM_STAT_B_num (Sub.bits hr rfl) ?_
    | with_reducible refine Only.set 896 R.SEP_CFG_EN_num (Sub.bits hr rfl) ?_
    | with_reducible refine Only.set 917 R.SEP_ARM_STAT_A_num (Sub.bits hr rfl) ?_
    | with_reducible refine Only.set 918 R.SEP_ARM_STAT_B_num (Sub.bits hr rfl) ?_
    | with_reducible refine Only.set 919 R.SEP_ARM_STAT_C_KMAX_num (Sub.bits hr rfl) ?_
    | with_reducible refine Only.set 920 R.SEP_ARM_STAT_C_OBSTACLE_num (Sub.bits hr rfl) ?_
    | with_reducible refine Only.set 921 R.SEP_ARM_STAT_C_DECISION_num (Sub.bits hr rfl) ?_
    | with_reducible refine Only.set 922 R.SEP_ARM_STAT_C_CATEGORY_num (Sub.bits hr rfl) ?_
    | with_reducible refine Only.set 923 R.SEP_ARM_STAT_C_TABLE_RANGE_num (Sub.bits hr rfl) ?_
    | with_reducible refine Only.set 924 R.SEP_ARM_STAT_C_ZONE_num (Sub.bits hr rfl) ?_
    | with_reducible refine Only.set 925 R.SEP_ARM_STAT_D_num (Sub.bits hr rfl) ?_
    | with_reducible refine Only.set 925 R.SEP_ARM_STAT_D_num (Sub.bits hr rfl) ?_
    | with_reducible refine Only.ite ?_ ?_
    | with_reducible refine Only.foldl ?_ ?_
    | intro _
    | (extract_lets +onlyGivenNames y; first | (refine Only.cut (x := y) ?_ ?_; subst y; rotate_left; clear_value y; intro _) | clear_value y)
    | split
    | dsimp only

end Sys2Proof.Machine
end

