-- ==== Sys2Proof/Laws/OnlyMoves.lean ====
section
/-! SUPPORT. Footprints of the operations of Machine/Moves.lean. -/
namespace Sys2Proof.Machine
set_option linter.all false
set_option Elab.async false

theorem State.forgetAxin_only {p r : Nat} {s x : State} {a1 : _} (hp : Sub 4096 p) (_hr : Sub 0 r) (h : Only p r s x) :
    Only p r s (State.forgetAxin x a1) := by
  unfold State.forgetAxin
  repeat' first
    | with_reducible assumption
    | intro _
    | (extract_lets +onlyGivenNames y; first | (refine Only.cut (x := y) ?_ ?_; subst y; rotate_left; clear_value y; intro _) | clear_value y)
    | dsimp only
    | (first | (with_reducible refine Only.upd_mp (Sub.bits hp rfl) ?_; first | with_reducible assumption))

theorem State.doMpClear_only {p r : Nat} {s x : State} {a1 : _} (hp : Sub 659464 p) (hr : Sub 0x38080300000000000000000000000000000000000000000000000000000000000000000000000000000000000000000000000000000000000000000000000000000000000000000000000300000000000000000000000000000000000000000000000000000000000000000000000000000000000000000000000000000000000000000000000000000000000000000000000000000000000000000000000000000000 r) (h : Only p r s x) :
    Only p r s (State.doMpClear x a1) := by
  unfold State.doMpClear
  repeat' first
    | with_reducible assumption
    | with_reducible refine State.completeDesc_only (Sub.trans rfl hp) (Sub.trans rfl hr) ?_
    | with_reducible refine State.mirrorDesc_only (Sub.trans rfl hp) (Sub.trans rfl hr) ?_
    | with_reducible refine State.setAxin_only 704 705 R.MP_AXIN_CHAT_LO_num (Sub.bits hr rfl) R.MP_AXIN_CHAT_HI_C_num (Sub.bits hr rfl) (Sub.trans rfl hp) (Sub.trans rfl hr) ?_
    | with_reducible refine State.forgetAxin_only (Sub.trans rfl hp) (Sub.trans rfl hr) ?_
    | with_reducible refine Only.ite ?_ ?_
    | (extract_lets +onlyGivenNames y; first | (refine Only.cut (x := y) ?_ ?_; subst y; rotate_left; clear_value y; intro _) | clear_value y)
    | split
    | dsimp only

theorem State.acceptSeg_only {p r : Nat} {s x : State} {a1 a2 : _} (hp : Sub 4096 p) (hr : Sub 0x90000000000000000000000000000000000000000000000000000000000000000000000000000000000000000000000000000000000000000000000000000000000000000000000000000000000000000000000 r) (h : Only p r s x) :
    Only p r s (State.acceptSeg x a1 a2) := by
  unfold State.acceptSeg
  repeat' first
    | with_reducible assumption
    | with_reducible refine State.updGen_only (Sub.trans rfl hp) (Sub.trans rfl hr) ?_
    | with_reducible refine State.setGen_only (Sub.trans rfl hp) (Sub.trans rfl hr) ?_
    | with_reducible refine Only.set 667 R.MP_STAT_QUEUE_num (Sub.bits hr rfl) ?_
    | with_reducible refine Only.ite ?_ ?_
    | intro _
    | (extract_lets +onlyGivenNames y; first | (refine Only.cut (x := y) ?_ ?_; subst y; rotate_left; clear_value y; intro _) | clear_value y)
    | split
    | dsimp only

theorem State.startHome_only {p r : Nat} {s x : State} {a1 : _} (hp : Sub 4096 p) (hr : Sub 0x40120000000000000000000000000000000000000000000000000000000000000000000000000000000000000000000000000000000000000000000000000000000000000000000000000000000000000000000000 r) (h : Only p r s x) :
    Only p r s (State.startHome x a1) := by
  unfold State.startHome
  repeat' first
    | with_reducible assumption
    | with_reducible refine State.homeFail_only (Sub.trans rfl hp) (Sub.trans rfl hr) ?_
    | with_reducible refine State.homeEvent_only (Sub.trans rfl hp) (Sub.trans rfl hr) ?_
    | with_reducible refine State.homeAway_only (Sub.trans rfl hp) (Sub.trans rfl hr) ?_
    | with_reducible refine State.runAt_only (Sub.trans rfl hp) (Sub.trans rfl hr) ?_
    | with_reducible refine Only.ite ?_ ?_
    | (extract_lets +onlyGivenNames y; first | (refine Only.cut (x := y) ?_ ?_; subst y; rotate_left; clear_value y; intro _) | clear_value y)
    | split
    | dsimp only

theorem State.doHome_only {p r : Nat} {s x : State} {a1 : _} (hp : Sub 659464 p) (hr : Sub 0x38080300000000000000000000000000000000000000000000000000000000000000000000000000000000000000000000000000000000000000000000000000000000000000000000000000000040330000000000000000000000000000000000000000000000000000000000000000000000000000000000000000000000000000000000000000000000000000000000000000000000000000000000000000000000 r) (h : Only p r s x) :
    Only p r s (State.doHome x a1) := by
  unfold State.doHome
  repeat' first
    | with_reducible assumption
    | with_reducible refine Only.set 669 R.MP_STAT_HOME_RESULT_num (Sub.bits hr rfl) ?_
    | with_reducible refine State.completeDesc_only (Sub.trans rfl hp) (Sub.trans rfl hr) ?_
    | with_reducible refine State.mirrorDesc_only (Sub.trans rfl hp) (Sub.trans rfl hr) ?_
    | with_reducible refine Only.setBit 665 R.MP_STAT_HOMED_num (Sub.bits hr rfl) ?_
    | with_reducible refine State.setGen_only (Sub.trans rfl hp) (Sub.trans rfl hr) ?_
    | with_reducible refine State.updGen_only (Sub.trans rfl hp) (Sub.trans rfl hr) ?_
    | with_reducible refine State.startHome_only (Sub.trans rfl hp) (Sub.trans rfl hr) ?_
    | with_reducible refine Only.ite ?_ ?_
    | intro _
    | (extract_lets +onlyGivenNames y; first | (refine Only.cut (x := y) ?_ ?_; subst y; rotate_left; clear_value y; intro _) | clear_value y)
    | split
    | dsimp only

theorem State.doMove_only {p r : Nat} {s x : State} {a1 : _} (hp : Sub 659464 p) (hr : Sub 0x38080300000000000000000000000000000000000000000000000000000000000000000000000000000000000000000000000000000000000000000000000000000000000000000000000000000000090000000000000000000000000000000000000000000000000000000000000000000000000000000000000000000000000000000000000000000000000000000000000000000000000000000000000000000000 r) (h : Only p r s x) :
    Only p r s (State.doMove x a1) := by
  unfold State.doMove
  repeat' first
    | with_reducible assumption
    | with_reducible refine State.completeDesc_only (Sub.trans rfl hp) (Sub.trans rfl hr) ?_
    | with_reducible refine State.mirrorDesc_only (Sub.trans rfl hp) (Sub.trans rfl hr) ?_
    | with_reducible refine State.acceptSeg_only (Sub.trans rfl hp) (Sub.trans rfl hr) ?_
    | with_reducible refine Only.ite ?_ ?_
    | (extract_lets +onlyGivenNames y; first | (refine Only.cut (x := y) ?_ ?_; subst y; rotate_left; clear_value y; intro _) | clear_value y)
    | split
    | dsimp only

theorem State.acceptGroup_only {p r : Nat} {s x : State} {a1 a2 a3 a4 : _} (hp : Sub 659464 p) (hr : Sub 0x38080300000000000000000000000000000000000000000000000000000000000000000000000000000000000000000000000000000000000000000000000000000000000000000000000000000000090000000000000000000000000000000000000000000000000000000000000000000000000000000000000000000000000000000000000000000000000000000000000000000000000000000000000000000000 r) (h : Only p r s x) :
    Only p r s (State.acceptGroup x a1 a2 a3 a4) := by
  unfold State.acceptGroup
  repeat' first
    | with_reducible assumption
    | with_reducible refine State.acceptSeg_only (Sub.trans rfl hp) (Sub.trans rfl hr) ?_
    | with_reducible refine State.mirrorDesc_only (Sub.trans rfl hp) (Sub.trans rfl hr) ?_
    | with_reducible refine State.completeDesc_only (Sub.trans rfl hp) (Sub.trans rfl hr) ?_
    | with_reducible refine Only.ite ?_ ?_
    | with_reducible refine Only.foldl ?_ ?_
    | intro _
    | (extract_lets +onlyGivenNames y; first | (refine Only.cut (x := y) ?_ ?_; subst y; rotate_left; clear_value y; intro _) | clear_value y)
    | split
    | dsimp only

theorem State.doMoveGroup_only {p r : Nat} {s x : State} {a1 a2 : _} (hp : Sub 659464 p) (hr : Sub 0x38080300000000000000000000000000000000000000000000000000000000000000000000000000000000000000000000000000000000000000000000000000000000000000000000000000000000090000000000000000000000000000000000000000000000000000000000000000000000000000000000000000000000000000000000000000000000000000000000000000000000000000000000000000000000 r) (h : Only p r s x) :
    Only p r s (State.doMoveGroup x a1 a2) := by
  unfold State.doMoveGroup
  repeat' first
    | with_reducible assumption
    | with_reducible refine State.completeDesc_only (Sub.trans rfl hp) (Sub.trans rfl hr) ?_
    | with_reducible refine State.acceptGroup_only (Sub.trans rfl hp) (Sub.trans rfl hr) ?_
    | with_reducible refine Only.ite ?_ ?_
    | intro _
    | (extract_lets +onlyGivenNames y; first | (refine Only.cut (x := y) ?_ ?_; subst y; rotate_left; clear_value y; intro _) | clear_value y)
    | split
    | dsimp only

theorem execMoveGroup_only {p r : Nat} {s : State} {a0 a1 : _} (hp : Sub 659592 p) (hr : Sub 0x38080300000000000000000000000000000000000000000000000000000000000000000000000000000000000000000000000000000000000000000000000000000000000000000000000000000000090000000000000000000000000000000000000000000000000000000000000000000000000000000000000000000000000000000000000000000000000000000000000000000000000000000000000000000000 r) :
    ∃ t, execMoveGroup a0 a1 s = .next t ∧ Only p r s t := by
  unfold execMoveGroup
  refine ⟨_, rfl, ?_⟩
  have h : Only p r s s := Only.refl
  repeat' first
    | with_reducible assumption
    | with_reducible refine State.doMoveGroup_only (Sub.trans rfl hp) (Sub.trans rfl hr) ?_
    | with_reducible refine State.action_only (Sub.trans rfl hp) (Sub.trans rfl hr) ?_ ?_
    | intro _
    | dsimp only

theorem State.doAbort_only {p r : Nat} {s x : State} {a1 : _} (hp : Sub 659464 p) (hr : Sub 0x380803000000000000000000000000000000000000000000000000000000000000000000000000000000000000000000000000000000000000000000000000000000000000000000000000000000401b0000000000000000000000000000000000000000000000000000000000000000000000000000000000000000000000000000000000000000000000000000000000000000000000000000000000000000000000 r) (h : Only p r s x) :
    Only p r s (State.doAbort x a1) := by
  unfold State.doAbort
  repeat' first
    | with_reducible assumption
    | with_reducible refine State.completeDesc_only (Sub.trans rfl hp) (Sub.trans rfl hr) ?_
    | with_reducible refine State.mirrorDesc_only (Sub.trans rfl hp) (Sub.trans rfl hr) ?_
    | with_reducible refine State.abortGen_only (Sub.trans rfl hp) (Sub.trans rfl hr) ?_
    | with_reducible refine Only.ite ?_ ?_
    | (extract_lets +onlyGivenNames y; first | (refine Only.cut (x := y) ?_ ?_; subst y; rotate_left; clear_value y; intro _) | clear_value y)
    | split
    | dsimp only

theorem execMove_only {p r : Nat} {s : State} {a0 : _} (hp : Sub 659592 p) (hr : Sub 0x38080300000000000000000000000000000000000000000000000000000000000000000000000000000000000000000000000000000000000000000000000000000000000000000000000000000000090000000000000000000000000000000000000000000000000000000000000000000000000000000000000000000000000000000000000000000000000000000000000000000000000000000000000000000000 r) :
    ∃ t, execMove a0 s = .next t ∧ Only p r s t := by
  unfold execMove
  refine ⟨_, rfl, ?_⟩
  have h : Only p r s s := Only.refl
  repeat' first
    | with_reducible assumption
    | with_reducible refine State.doMove_only (Sub.trans rfl hp) (Sub.trans rfl hr) ?_
    | with_reducible refine State.action_only (Sub.trans rfl hp) (Sub.trans rfl hr) ?_ ?_
    | intro _

theorem execHome_only {p r : Nat} {s : State} {a0 : _} (hp : Sub 659592 p) (hr : Sub 0x38080300000000000000000000000000000000000000000000000000000000000000000000000000000000000000000000000000000000000000000000000000000000000000000000000000000040330000000000000000000000000000000000000000000000000000000000000000000000000000000000000000000000000000000000000000000000000000000000000000000000000000000000000000000000 r) :
    ∃ t, execHome a0 s = .next t ∧ Only p r s t := by
  unfold execHome
  refine ⟨_, rfl, ?_⟩
  have h : Only p r s s := Only.refl
  repeat' first
    | with_reducible assumption
    | with_reducible refine State.doHome_only (Sub.trans rfl hp) (Sub.trans rfl hr) ?_
    | with_reducible refine State.action_only (Sub.trans rfl hp) (Sub.trans rfl hr) ?_ ?_
    | intro _

theorem execMpClear_only {p r : Nat} {s : State} {a0 : _} (hp : Sub 659592 p) (hr : Sub 0x38080300000000000000000000000000000000000000000000000000000000000000000000000000000000000000000000000000000000000000000000000000000000000000000000000300000000000000000000000000000000000000000000000000000000000000000000000000000000000000000000000000000000000000000000000000000000000000000000000000000000000000000000000000000000 r) :
    ∃ t, execMpClear a0 s = .next t ∧ Only p r s t := by
  unfold execMpClear
  refine ⟨_, rfl, ?_⟩
  have h : Only p r s s := Only.refl
  repeat' first
    | with_reducible assumption
    | with_reducible refine State.doMpClear_only (Sub.trans rfl hp) (Sub.trans rfl hr) ?_
    | with_reducible refine State.action_only (Sub.trans rfl hp) (Sub.trans rfl hr) ?_ ?_
    | intro _

theorem execAbort_only {p r : Nat} {s : State} {a0 : _} (hp : Sub 659592 p) (hr : Sub 0x380803000000000000000000000000000000000000000000000000000000000000000000000000000000000000000000000000000000000000000000000000000000000000000000000000000000401b0000000000000000000000000000000000000000000000000000000000000000000000000000000000000000000000000000000000000000000000000000000000000000000000000000000000000000000000 r) :
    ∃ t, execAbort a0 s = .next t ∧ Only p r s t := by
  unfold execAbort
  refine ⟨_, rfl, ?_⟩
  have h : Only p r s s := Only.refl
  repeat' first
    | with_reducible assumption
    | with_reducible refine State.doAbort_only (Sub.trans rfl hp) (Sub.trans rfl hr) ?_
    | with_reducible refine State.action_only (Sub.trans rfl hp) (Sub.trans rfl hr) ?_ ?_
    | intro _

end Sys2Proof.Machine
end

