-- ==== Sys2Proof/Laws/OnlyTwin.lean ====
section
/-! SUPPORT. Footprints of the operations of Machine/Twin.lean. -/
namespace Sys2Proof.Machine
set_option linter.all false
set_option Elab.async false

theorem State.startHandover_only {p r : Nat} {s x : State} {a1 : _} (hp : Sub 524288 p) (hr : Sub 0 r) (h : Only p r s x) :
    Only p r s (State.startHandover x a1) := by
  unfold State.startHandover
  repeat' first
    | with_reducible assumption
    | with_reducible refine State.updTw_only (Sub.trans rfl hp) (Sub.trans rfl hr) ?_
    | intro _
    | (extract_lets +onlyGivenNames y; first | (refine Only.cut (x := y) ?_ ?_; subst y; rotate_left; clear_value y; intro _) | clear_value y)
    | dsimp only

theorem State.twHandover_only {p r : Nat} {s x : State} {a1 : _} (hp : Sub 655368 p) (hr : Sub 0x38080300000000000000000000000000000000000000000000000000000000000000000000000000000000000000000000000000000000000000000000000000000000000000000000000000000000000000000000000000000000000000000000000000000000000000000000000000000000000000000000000000000000000000000000000000000000000000000000000000000000000000000000000000000000 r) (h : Only p r s x) :
    Only p r s (State.twHandover x a1) := by
  unfold State.twHandover
  repeat' first
    | with_reducible assumption
    | with_reducible refine State.completeDesc_only (Sub.trans rfl hp) (Sub.trans rfl hr) ?_
    | with_reducible refine State.startHandover_only (Sub.trans rfl hp) (Sub.trans rfl hr) ?_
    | with_reducible refine Only.ite ?_ ?_
    | split

theorem State.twSwitchBack_only {p r : Nat} {s x : State} {a1 : _} (hp : Sub 655368 p) (hr : Sub 0x38080300000000000000000000000000000000000000000000000000000000000000000000000000000000000000000000000000000000000000000000000000000000000000000000000000000000000000000000000000000000000000000000000000000000000000000000000000000000000000000000000000000000000000000000000000000000000000000000000000000000000000000000000000000000 r) (h : Only p r s x) :
    Only p r s (State.twSwitchBack x a1) := by
  unfold State.twSwitchBack
  repeat' first
    | with_reducible assumption
    | with_reducible refine State.twHandover_only (Sub.trans rfl hp) (Sub.trans rfl hr) ?_
    | with_reducible refine State.completeDesc_only (Sub.trans rfl hp) (Sub.trans rfl hr) ?_
    | with_reducible refine State.updTw_only (Sub.trans rfl hp) (Sub.trans rfl hr) ?_
    | with_reducible refine Only.ite ?_ ?_
    | intro _
    | (extract_lets +onlyGivenNames y; first | (refine Only.cut (x := y) ?_ ?_; subst y; rotate_left; clear_value y; intro _) | clear_value y)
    | split
    | dsimp only

theorem execTwCmdSwitchBack_only {p r : Nat} {s : State} {a0 : _} (hp : Sub 655496 p) (hr : Sub 0x38080300000000000000000000000000000000000000000000000000000000000000000000000000000000000000000000000000000000000000000000000000000000000000000000000000000000000000000000000000000000000000000000000000000000000000000000000000000000000000000000000000000000000000000000000000000000000000000000000000000000000000000000000000000000 r) :
    ∃ t, execTwCmdSwitchBack a0 s = .next t ∧ Only p r s t := by
  unfold execTwCmdSwitchBack
  refine ⟨_, rfl, ?_⟩
  have h : Only p r s s := Only.refl
  repeat' first
    | with_reducible assumption
    | with_reducible refine State.twSwitchBack_only (Sub.trans rfl hp) (Sub.trans rfl hr) ?_
    | with_reducible refine State.opAction_only (Sub.trans rfl hp) (Sub.trans rfl hr) ?_ ?_
    | intro _
    | dsimp only

theorem State.syncTest_only {p r : Nat} {s x : State} (hp : Sub 655368 p) (hr : Sub 0x2800000000000000000000000000038080300000000000000000000000000000000000000000000000000000000000000000000000000000000000000000000000000000000000000000000000000000000000000000000000000000000000000000000000000000000000000000000000000000000000000000000000000000000000000000000000000000000000000000000000000000000000000000000000000000000000000000000000000000000 r) (h : Only p r s x) :
    Only p r s (State.syncTest x) := by
  unfold State.syncTest
  repeat' first
    | with_reducible assumption
    | with_reducible refine State.twFault_only (Sub.trans rfl hp) (Sub.trans rfl hr) ?_
    | with_reducible refine Only.ite ?_ ?_
    | split

theorem State.switchback_only {p r : Nat} {s x : State} (hp : Sub 524288 p) (hr : Sub 0 r) (h : Only p r s x) :
    Only p r s (State.switchback x) := by
  unfold State.switchback
  repeat' first
    | with_reducible assumption
    | with_reducible refine State.startHandover_only (Sub.trans rfl hp) (Sub.trans rfl hr) ?_
    | with_reducible refine Only.ite ?_ ?_
    | intro _
    | (extract_lets +onlyGivenNames y; first | (refine Only.cut (x := y) ?_ ?_; subst y; rotate_left; clear_value y; intro _) | clear_value y)
    | split
    | dsimp only

theorem State.transferTimeout_only {p r : Nat} {s x : State} (hp : Sub 655368 p) (hr : Sub 0x2800000000000000000000000000038080300000000000000000000000000000000000000000000000000000000000000000000000000000000000000000000000000000000000000000000000000000000000000000000000000000000000000000000000000000000000000000000000000000000000000000000000000000000000000000000000000000000000000000000000000000000000000000000000000000000000000000000000000000000 r) (h : Only p r s x) :
    Only p r s (State.transferTimeout x) := by
  unfold State.transferTimeout
  repeat' first
    | with_reducible assumption
    | with_reducible refine State.twFault_only (Sub.trans rfl hp) (Sub.trans rfl hr) ?_
    | with_reducible refine Only.ite ?_ ?_
    | split

theorem State.twLaunch_only {p r : Nat} {s x : State} {a1 a2 a3 : _} (hp : Sub 4194568 p) (hr : Sub 0xe06000000000000000000000000000000000000000000000000000000000000000000000000000000000000000000000000000000000000000000000000000000000000000000000000000000000000000000000000000000000000000000000000000000000000000000000000000000000000000000000000000000000000000000000000000000000000000000000000000000000000000000000000000000000000000000000000000000000000000000000000000000000000005f800000000000000000000000000000000000000000000000000000000000000000000000 r) (h : Only p r s x) :
    Only p r s (State.twLaunch x a1 a2 a3) := by
  unfold State.twLaunch
  repeat' first
    | with_reducible assumption
    | with_reducible refine State.launch_only (Sub.trans rfl hp) (Sub.trans rfl hr) ?_
    | with_reducible refine Only.ite ?_ ?_
    | split

theorem State.twSend_only {p r : Nat} {s x : State} {a1 a2 a3 a4 a5 a6 : _} (hp : Sub 4194568 p) (hr : Sub 0xe06000000000000000000000000000000000000000000000000000000000000000000000000000000000000000000000000000000000000000000000000000000000000000000000000000000000000000000000000000000000000000000000000000000000000000000000000000000000000000000000000000000000000000000000000000000000000000000000000000000000000000000000000000000000000000000000000000000000000000000000000000000000000005f800000000000000000000000000000000000000000000000000000000000000000000000 r) (h : Only p r s x) :
    Only p r s (State.twSend x a1 a2 a3 a4 a5 a6) := by
  unfold State.twSend
  repeat' first
    | with_reducible assumption
    | with_reducible refine State.twLaunch_only (Sub.trans rfl hp) (Sub.trans rfl hr) ?_
    | (extract_lets +onlyGivenNames y; first | (refine Only.cut (x := y) ?_ ?_; subst y; rotate_left; clear_value y; intro _) | clear_value y)
    | dsimp only

theorem State.handoverCancel_only {p r : Nat} {s x : State} {a1 : _} (hp : Sub 655368 p) (hr : Sub 0x38080300000000000000000000000000000000000000000000000000000000000000000000000000000000000000000000000000000000000000000000000000000000000000000000000000000000000000000000000000000000000000000000000000000000000000000000000000000000000000000000000000000000000000000000000000000000000000000000000000000000000000000000000000000000 r) (h : Only p r s x) :
    Only p r s (State.handoverCancel x a1) := by
  unfold State.handoverCancel
  repeat' first
    | with_reducible assumption
    | with_reducible refine State.updTw_only (Sub.trans rfl hp) (Sub.trans rfl hr) ?_
    | with_reducible refine State.complete_only (Sub.trans rfl hp) (Sub.trans rfl hr) ?_
    | intro _
    | (extract_lets +onlyGivenNames y; first | (refine Only.cut (x := y) ?_ ?_; subst y; rotate_left; clear_value y; intro _) | clear_value y)
    | split
    | dsimp only

theorem State.leaseTx_only {p r : Nat} {s x : State} (hp : Sub 4849928 p) (hr : Sub 0xe06000000000000000000000000000000000000000000000000000000000000000000000000000000000000000000000000000000000000000000000000003808030000000000000000000000000000000000000000000000000000000000000000000000000000000000000000000000000000000000000000000000000000000000000000000000000000000000000000000000000000000000000000000000000000000000000000000000000000000000000000000000000000005f800000000000000000000000000000000000000000000000000000000000000000000000 r) (h : Only p r s x) :
    Only p r s (State.leaseTx x) := by
  unfold State.leaseTx
  repeat' first
    | with_reducible assumption
    | with_reducible refine State.twSend_only (Sub.trans rfl hp) (Sub.trans rfl hr) ?_
    | with_reducible refine State.handoverCancel_only (Sub.trans rfl hp) (Sub.trans rfl hr) ?_
    | with_reducible refine State.updTw_only (Sub.trans rfl hp) (Sub.trans rfl hr) ?_
    | with_reducible refine Only.ite ?_ ?_
    | intro _
    | (extract_lets +onlyGivenNames y; first | (refine Only.cut (x := y) ?_ ?_; subst y; rotate_left; clear_value y; intro _) | clear_value y)
    | split
    | dsimp only

theorem execLeaseTx_only {p r : Nat} {s : State} (hp : Sub 4849928 p) (hr : Sub 0xe06000000000000000000000000000000000000000000000000000000000000000000000000000000000000000000000000000000000000000000000000003808030000000000000000000000000000000000000000000000000000000000000000000000000000000000000000000000000000000000000000000000000000000000000000000000000000000000000000000000000000000000000000000000000000000000000000000000000000000000000000000000000000005f800000000000000000000000000000000000000000000000000000000000000000000000 r) :
    ∃ t, execLeaseTx s = .next t ∧ Only p r s t := by
  unfold execLeaseTx
  refine ⟨_, rfl, ?_⟩
  have h : Only p r s s := Only.refl
  repeat' first
    | with_reducible assumption
    | with_reducible refine State.leaseTx_only (Sub.trans rfl hp) (Sub.trans rfl hr) ?_

theorem State.leaseFlags_only {p r : Nat} {s x : State} {a1 : _} (hp : Sub 524288 p) (hr : Sub 0 r) (h : Only p r s x) :
    Only p r s (State.leaseFlags x a1) := by
  unfold State.leaseFlags
  repeat' first
    | with_reducible assumption
    | with_reducible refine State.updTw_only (Sub.trans rfl hp) (Sub.trans rfl hr) ?_
    | with_reducible refine Only.ite ?_ ?_
    | intro _
    | (extract_lets +onlyGivenNames y; first | (refine Only.cut (x := y) ?_ ?_; subst y; rotate_left; clear_value y; intro _) | clear_value y)
    | split
    | dsimp only

theorem State.ackTx_only {p r : Nat} {s x : State} (hp : Sub 4718856 p) (hr : Sub 0xe06000000000000000000000000000000000000000000000000000000000000000000000000000000000000000000000000000000000000000000000000000000000000000000000000000000000000000000000000000000000000000000000000000000000000000000000000000000000000000000000000000000000000000000000000000000000000000000000000000000000000000000000000000000000000000000000000000000000000000000000000000000000000005f800000000000000000000000000000000000000000000000000000000000000000000000 r) (h : Only p r s x) :
    Only p r s (State.ackTx x) := by
  unfold State.ackTx
  repeat' first
    | with_reducible assumption
    | with_reducible refine State.updTw_only (Sub.trans rfl hp) (Sub.trans rfl hr) ?_
    | with_reducible refine State.twSend_only (Sub.trans rfl hp) (Sub.trans rfl hr) ?_
    | with_reducible refine Only.ite ?_ ?_
    | intro _
    | (extract_lets +onlyGivenNames y; first | (refine Only.cut (x := y) ?_ ?_; subst y; rotate_left; clear_value y; intro _) | clear_value y)
    | split
    | dsimp only

theorem State.follow_only {p r : Nat} {s x : State} {a1 : _} (hp : Sub 134217760 p) (hr : Sub 0 r) (h : Only p r s x) :
    Only p r s (State.follow x a1) := by
  unfold State.follow
  repeat' first
    | with_reducible assumption
    | with_reducible refine State.fracWrite_only (Sub.trans rfl hp) (Sub.trans rfl hr) ?_
    | with_reducible refine State.draw_only (Sub.trans rfl hp) (Sub.trans rfl hr) ?_
    | with_reducible refine Only.ite ?_ ?_
    | split

theorem State.mirrorAct_only {p r : Nat} {s x : State} {a1 : _} (hp : Sub 34282264 p) (hr : Sub 0x380803000000000000000000000000000000500000000000000000000000000000000000000000000000000000000000000000000000000000000000000000000000000000000000000003000000403b0000000000000000000000000000000000000000000000000000000000000000022000000000042000000001860000000000000000000000000000000000000000000000000000000000000000000000000000 r) (h : Only p r s x) :
    Only p r s (State.mirrorAct x a1) := by
  unfold State.mirrorAct
  repeat' first
    | with_reducible assumption
    | with_reducible refine State.doServo_only (Sub.trans rfl hp) (Sub.trans rfl hr) ?_
    | with_reducible refine State.doMove_only (Sub.trans rfl hp) (Sub.trans rfl hr) ?_
    | with_reducible refine State.doMoveGroup_only (Sub.trans rfl hp) (Sub.trans rfl hr) ?_
    | with_reducible refine State.doAbort_only (Sub.trans rfl hp) (Sub.trans rfl hr) ?_
    | with_reducible refine State.doHome_only (Sub.trans rfl hp) (Sub.trans rfl hr) ?_
    | with_reducible refine State.doMpClear_only (Sub.trans rfl hp) (Sub.trans rfl hr) ?_
    | with_reducible refine State.doFbClear_only (Sub.trans rfl hp) (Sub.trans rfl hr) ?_
    | with_reducible refine State.meCtrlStart_only (Sub.trans rfl hp) (Sub.trans rfl hr) ?_
    | with_reducible refine State.doRelease_only (Sub.trans rfl hp) (Sub.trans rfl hr) ?_
    | with_reducible refine State.doQuarantine_only (Sub.trans rfl hp) (Sub.trans rfl hr) ?_
    | intro _
    | (extract_lets +onlyGivenNames y; first | (refine Only.cut (x := y) ?_ ?_; subst y; rotate_left; clear_value y; intro _) | clear_value y)
    | split
    | dsimp only

theorem State.mirrorCommit_only {p r : Nat} {s x : State} {a1 : _} (hp : Sub 917512 p) (hr : Sub 0x2800000000000000000000000000038080300000000000000000000000000000000000000000000000000000000000000000000000000000000000000000000000000000000000000000000000000000000000000000000000000000000000000000000000000000000000000000000000000000000000000000000000000000000000000000000000000000000000000000000000000000000000000000000000000000000000000000000000000000000 r) (h : Only p r s x) :
    Only p r s (State.mirrorCommit x a1) := by
  unfold State.mirrorCommit
  repeat' first
    | with_reducible assumption
    | with_reducible refine State.twFault_only (Sub.trans rfl hp) (Sub.trans rfl hr) ?_
    | with_reducible refine Only.ite ?_ ?_
    | intro _
    | (extract_lets +onlyGivenNames y; first | (refine Only.cut (x := y) ?_ ?_; subst y; rotate_left; clear_value y; intro _) | (have q : Granary := y; clear q; subst y) | clear_value y)
    | split
    | dsimp only
    | (first | (with_reducible refine Only.upd_gr (Sub.bits hp rfl) ?_; first | with_reducible assumption | with_reducible refine State.twFault_only (Sub.trans rfl hp) (Sub.trans rfl hr) ?_))

theorem State.mirrorTake_only {p r : Nat} {s x : State} {a1 : _} (hp : Sub 51338008 p) (hr : Sub 0xfc000000000000000000000000000000000000000000000000000000000000000000000000000000000000000000000000000000000000000000000000000000000000002800000000000000000000000000038080300000000000000000000000000000050000000000000000000000000000000000000000000000000000000000000000000000000000000000000000000000000000000000000000309fe007ffb0000000000000000000204000000000000000000000000000000000000000000022000000000042000000001860000000000000000000000000000000000000000000000000000000000000000000000000000 r) (h : Only p r s x) :
    Only p r s (State.mirrorTake x a1) := by
  unfold State.mirrorTake
  repeat' first
    | with_reducible assumption
    | with_reducible refine State.mirrorAct_only (Sub.trans rfl hp) (Sub.trans rfl hr) ?_
    | with_reducible refine State.mirrorCommit_only (Sub.trans rfl hp) (Sub.trans rfl hr) ?_
    | with_reducible refine State.wantStop_only (Sub.trans rfl hp) (Sub.trans rfl hr) ?_
    | with_reducible refine State.releasePair_only (Sub.trans rfl hp) (Sub.trans rfl hr) ?_
    | with_reducible refine State.assertPair_only (Sub.trans rfl hp) (Sub.trans rfl hr) ?_
    | with_reducible refine Only.ite ?_ ?_
    | with_reducible refine Only.foldl ?_ ?_
    | intro _
    | (extract_lets +onlyGivenNames y; first | (refine Only.cut (x := y) ?_ ?_; subst y; rotate_left; clear_value y; intro _) | clear_value y)
    | split
    | dsimp only

theorem State.leaseBody_only {p r : Nat} {s x : State} {a1 a2 : _} (hp : Sub 185555768 p) (hr : Sub 0xfc000000000000000000000000000000000000000000000000000000000000000000000000000000000000000000000000000000000000000000000000000000000000002800000000000000000000000000038080300000000000000000000000000000050000000000000000000000000000000000000000000000000000000000000000000000000000000000000000000000000000000000000000309fe007ffb0000000000000000000204000000000000000000000000000000000000000000022000000000042000000001860000000000000000000000000000000000000000000000000000000000000000000000000000 r) (h : Only p r s x) :
    Only p r s (State.leaseBody x a1 a2) := by
  unfold State.leaseBody
  repeat' first
    | with_reducible assumption
    | with_reducible refine State.updTw_only (Sub.trans rfl hp) (Sub.trans rfl hr) ?_
    | with_reducible refine State.follow_only (Sub.trans rfl hp) (Sub.trans rfl hr) ?_
    | with_reducible refine State.leaseFlags_only (Sub.trans rfl hp) (Sub.trans rfl hr) ?_
    | with_reducible refine State.mirrorTake_only (Sub.trans rfl hp) (Sub.trans rfl hr) ?_
    | with_reducible refine Only.ite ?_ ?_
    | with_reducible refine Only.foldl ?_ ?_
    | intro _
    | (extract_lets +onlyGivenNames y; first | (refine Only.cut (x := y) ?_ ?_; subst y; rotate_left; clear_value y; intro _) | clear_value y)
    | split
    | dsimp only

theorem State.echoTx_only {p r : Nat} {s x : State} {a1 : _} (hp : Sub 4718856 p) (hr : Sub 0xe06000000000000000000000000000000000000000000000000000000000000000000000000000000000000000000000000000000000000000000000000000000000000000000000000000000000000000000000000000000000000000000000000000000000000000000000000000000000000000000000000000000000000000000000000000000000000000000000000000000000000000000000000000000000000000000000000000000000000000000000000000000000000005f800000000000000000000000000000000000000000000000000000000000000000000000 r) (h : Only p r s x) :
    Only p r s (State.echoTx x a1) := by
  unfold State.echoTx
  repeat' first
    | with_reducible assumption
    | with_reducible refine State.updSlot_only (Sub.trans rfl hp) (Sub.trans rfl hr) ?_
    | with_reducible refine State.launch_only (Sub.trans rfl hp) (Sub.trans rfl hr) ?_
    | with_reducible refine State.updTw_only (Sub.trans rfl hp) (Sub.trans rfl hr) ?_
    | with_reducible refine Only.ite ?_ ?_
    | intro _
    | (extract_lets +onlyGivenNames y; first | (refine Only.cut (x := y) ?_ ?_; subst y; rotate_left; clear_value y; intro _) | clear_value y)
    | split
    | dsimp only

theorem execEchoTx_only {p r : Nat} {s : State} {a0 : _} (hp : Sub 4718856 p) (hr : Sub 0xe06000000000000000000000000000000000000000000000000000000000000000000000000000000000000000000000000000000000000000000000000000000000000000000000000000000000000000000000000000000000000000000000000000000000000000000000000000000000000000000000000000000000000000000000000000000000000000000000000000000000000000000000000000000000000000000000000000000000000000000000000000000000000005f800000000000000000000000000000000000000000000000000000000000000000000000 r) :
    ∃ t, execEchoTx a0 s = .next t ∧ Only p r s t := by
  unfold execEchoTx
  refine ⟨_, rfl, ?_⟩
  have h : Only p r s s := Only.refl
  repeat' first
    | with_reducible assumption
    | with_reducible refine State.echoTx_only (Sub.trans rfl hp) (Sub.trans rfl hr) ?_

theorem State.syncAnswer_only {p r : Nat} {s x : State} {a1 a2 : _} (hp : Sub 138412296 p) (hr : Sub 0xe06000000000000000000000000000000000000000000000000000000000000000000000000000000000000000000000000000000000000000000000000000000000000000000000000000000000000000000000000000000000000000000000000000000000000000000000000000000000000000000000000000000000000000000000000000000000000000000000000000000000000000000000000000000000000000000000000000000000000000000000000000000000000005f800000000000000000000000000000000000000000000000000000000000000000000000 r) (h : Only p r s x) :
    Only p r s (State.syncAnswer x a1 a2) := by
  unfold State.syncAnswer
  repeat' first
    | with_reducible assumption
    | with_reducible refine State.twLaunch_only (Sub.trans rfl hp) (Sub.trans rfl hr) ?_
    | with_reducible refine State.draw_only (Sub.trans rfl hp) (Sub.trans rfl hr) ?_
    | (extract_lets +onlyGivenNames y; first | (refine Only.cut (x := y) ?_ ?_; subst y; rotate_left; clear_value y; intro _) | clear_value y)
    | dsimp only

theorem State.syncSample_only {p r : Nat} {s x : State} {a1 a2 : _} (hp : Sub 655368 p) (hr : Sub 0xc002800000000000000000000000000038080300000000000000000000000000000000000000000000000000000000000000000000000000000000000000000000000000000000000000000000000000000000000000000000000000000000000000000000000000000000000000000000000000000000000000000000000000000000000000000000000000000000000000000000000000000000000000000000000000000000000000000000000000000000 r) (h : Only p r s x) :
    Only p r s (State.syncSample x a1 a2) := by
  unfold State.syncSample
  repeat' first
    | with_reducible assumption
    | with_reducible refine State.updTw_only (Sub.trans rfl hp) (Sub.trans rfl hr) ?_
    | with_reducible refine Only.seti 1430 R.TW_LINK_DELAY_DELAY_num (Sub.bits hr rfl) ?_
    | with_reducible refine Only.seti 1431 R.TW_OFFSET_num (Sub.bits hr rfl) ?_
    | with_reducible refine State.syncTest_only (Sub.trans rfl hp) (Sub.trans rfl hr) ?_
    | with_reducible refine Only.ite ?_ ?_
    | intro _
    | (extract_lets +onlyGivenNames y; first | (refine Only.cut (x := y) ?_ ?_; subst y; rotate_left; clear_value y; intro _) | clear_value y)
    | split
    | dsimp only

theorem State.twHeard_only {p r : Nat} {s x : State} {a1 : _} (hp : Sub 4849928 p) (hr : Sub 0xe06000000000000000000000000000000000000000000000000000000000000000000000000000000000000000000100280000000000000000000000000003808030000000000000000000000000000000000000000000000000000000000000000000000000000000000000000000000000000000000000000000000000000000000000000000000000000000000000000000000000000000000000000000000000000000000000000000000000000000000000000000000000000009f000000000000000000000000000000000000000000000000000000000000000000000000 r) (h : Only p r s x) :
    Only p r s (State.twHeard x a1) := by
  unfold State.twHeard
  repeat' first
    | with_reducible assumption
    | with_reducible refine State.macPass_only (Sub.trans rfl hp) (Sub.trans rfl hr) ?_
    | with_reducible refine State.updTw_only (Sub.trans rfl hp) (Sub.trans rfl hr) ?_
    | with_reducible refine State.sawEpoch_only (Sub.trans rfl hp) (Sub.trans rfl hr) ?_
    | intro _
    | (extract_lets +onlyGivenNames y; first | (refine Only.cut (x := y) ?_ ?_; subst y; rotate_left; clear_value y; intro _) | clear_value y)
    | dsimp only

theorem State.twNote_only {p r : Nat} {s x : State} {a1 a2 a3 : _} (hp : Sub 524288 p) (hr : Sub 0 r) (h : Only p r s x) :
    Only p r s (State.twNote x a1 a2 a3) := by
  unfold State.twNote
  repeat' first
    | with_reducible assumption
    | with_reducible refine State.updTw_only (Sub.trans rfl hp) (Sub.trans rfl hr) ?_
    | with_reducible refine Only.ite ?_ ?_
    | intro _
    | (extract_lets +onlyGivenNames y; first | (refine Only.cut (x := y) ?_ ?_; subst y; rotate_left; clear_value y; intro _) | clear_value y)
    | dsimp only

theorem State.twRx_only {p r : Nat} {s x : State} {a1 a2 a3 : _} (hp : Sub 4849928 p) (hr : Sub 0xe06000000000000000000000000000000000000000000000000000000000000000000000000000000000000000000100280000000000000000000000000003808030000000000000000000000000000000000000000000000000000000000000000000000000000000000000000000000000000000000000000000000000000000000000000000000000000000000000000000000000000000000000000000000000000000000000000000000000000000000000000000000000000009f000000000000000000000000000000000000000000000000000000000000000000000000 r) (h3 : ∀ y0 y1, Only p r s y0 → Only p r s (a3 y0 y1)) (h : Only p r s x) :
    Only p r s (State.twRx x a1 a2 a3) := by
  unfold State.twRx
  repeat' first
    | with_reducible assumption
    | with_reducible refine State.twHeard_only (Sub.trans rfl hp) (Sub.trans rfl hr) ?_
    | with_reducible refine State.twNote_only (Sub.trans rfl hp) (Sub.trans rfl hr) ?_
    | with_reducible refine State.updTw_only (Sub.trans rfl hp) (Sub.trans rfl hr) ?_
    | with_reducible apply h3
    | with_reducible refine Only.ite ?_ ?_
    | intro _
    | (extract_lets +onlyGivenNames y; first | (refine Only.cut (x := y) ?_ ?_; subst y; rotate_left; clear_value y; intro _) | clear_value y)
    | split
    | dsimp only

theorem State.syncRx_only {p r : Nat} {s x : State} {a1 : _} (hp : Sub 139067656 p) (hr : Sub 0xe06000000000000000000000000000000000000000000000000000000000000000000000000000000000000000000d0028000000000000000000000000000380803000000000000000000000000000000000000000000000000000000000000000000000000000000000000000000000000000000000000000000000000000000000000000000000000000000000000000000000000000000000000000000000000000000000000000000000000000000000000000000000000000000df800000000000000000000000000000000000000000000000000000000000000000000000 r) (h : Only p r s x) :
    Only p r s (State.syncRx x a1) := by
  unfold State.syncRx
  repeat' first
    | with_reducible assumption
    | with_reducible refine State.syncAnswer_only (Sub.trans rfl hp) (Sub.trans rfl hr) ?_
    | with_reducible refine State.syncSample_only (Sub.trans rfl hp) (Sub.trans rfl hr) ?_
    | with_reducible refine State.twRx_only (Sub.trans rfl hp) (Sub.trans rfl hr) ?_ ?_
    | with_reducible refine Only.ite ?_ ?_
    | intro _
    | split
    | dsimp only

theorem execSyncRx_only {p r : Nat} {s : State} {a0 : _} (hp : Sub 139067656 p) (hr : Sub 0xe06000000000000000000000000000000000000000000000000000000000000000000000000000000000000000000d0028000000000000000000000000000380803000000000000000000000000000000000000000000000000000000000000000000000000000000000000000000000000000000000000000000000000000000000000000000000000000000000000000000000000000000000000000000000000000000000000000000000000000000000000000000000000000000df800000000000000000000000000000000000000000000000000000000000000000000000 r) :
    ∃ t, execSyncRx a0 s = .next t ∧ Only p r s t := by
  unfold execSyncRx
  refine ⟨_, rfl, ?_⟩
  have h : Only p r s s := Only.refl
  repeat' first
    | with_reducible assumption
    | with_reducible refine State.syncRx_only (Sub.trans rfl hp) (Sub.trans rfl hr) ?_

theorem State.setPeer_only {p r : Nat} {s x : State} {a1 : _} (hp : Sub 524288 p) (hr : Sub 0x1000000000000000000000000000000000000000000000000000000000000000000000000000000000000000000000000000000000000000000000000000000000000000000000000000000000000000000000000000000000000000000000000000000000000000000000000000000000000000000000000000000000000000000000000000000000000000000000000000000000000000000000000000000000000000000000000000000000000000000 r) (h : Only p r s x) :
    Only p r s (State.setPeer x a1) := by
  unfold State.setPeer
  repeat' first
    | with_reducible assumption
    | with_reducible refine Only.set 1416 R.TW_STATE_PEER_STATE_num (Sub.bits hr rfl) ?_
    | with_reducible refine State.updTw_only (Sub.trans rfl hp) (Sub.trans rfl hr) ?_
    | with_reducible refine Only.ite ?_ ?_
    | intro _
    | (extract_lets +onlyGivenNames y; first | (refine Only.cut (x := y) ?_ ?_; subst y; rotate_left; clear_value y; intro _) | clear_value y)
    | split
    | dsimp only

theorem State.beginTransfer_only {p r : Nat} {s x : State} (hp : Sub 524288 p) (hr : Sub 0x800000000000000000000000000000000000000000000000000000000000000000000000000000000000000000000000000000000000000000000000000000000000000000000000000000000000000000000000000000000000000000000000000000000000000000000000000000000000000000000000000000000000000000000000000000000000000000000000000000000000000000000000000000000000000000000000000000000000000000 r) (h : Only p r s x) :
    Only p r s (State.beginTransfer x) := by
  unfold State.beginTransfer
  repeat' first
    | with_reducible assumption
    | with_reducible refine Only.set 1415 R.TW_STATE_STATE_num (Sub.bits hr rfl) ?_
    | with_reducible refine State.updTw_only (Sub.trans rfl hp) (Sub.trans rfl hr) ?_
    | intro _
    | (extract_lets +onlyGivenNames y; first | (refine Only.cut (x := y) ?_ ?_; subst y; rotate_left; clear_value y; intro _) | clear_value y)
    | dsimp only

theorem State.becomeHolder_only {p r : Nat} {s x : State} {a1 : _} (hp : Sub 2621440 p) (hr : Sub 0x38800000000000000000000000000000000000000000000000000000000000000000000000000000000000000000000000000000000000000000000000000000000000000000000000000000000000000000000000000000000000000000000000000000000000000000000000000000000000000000000000000000000000000000000000000000000000000000000000000000000000000000000000000000000000000000000000000000000000000000 r) (h : Only p r s x) :
    Only p r s (State.becomeHolder x a1) := by
  unfold State.becomeHolder
  repeat' first
    | with_reducible assumption
    | with_reducible refine Only.set 1415 R.TW_STATE_STATE_num (Sub.bits hr rfl) ?_
    | with_reducible refine State.takeEpoch_only (Sub.trans rfl hp) (Sub.trans rfl hr) ?_
    | with_reducible refine Only.set 1421 R.TW_LEASE_STAT_SINCE_RENEW_num (Sub.bits hr rfl) ?_
    | with_reducible refine State.updTw_only (Sub.trans rfl hp) (Sub.trans rfl hr) ?_
    | intro _
    | (extract_lets +onlyGivenNames y; first | (refine Only.cut (x := y) ?_ ?_; subst y; rotate_left; clear_value y; intro _) | clear_value y)
    | dsimp only

theorem State.claimLease_only {p r : Nat} {s x : State} (hp : Sub 2621440 p) (hr : Sub 0x38800000000000000000000000000000000000000000000000000000000000000000000000000000000000000000000000000000000000000000000000000000000000000000000000000000000000000000000000000000000000000000000000000000000000000000000000000000000000000000000000000000000000000000000000000000000000000000000000000000000000000000000000000000000000000000000000000000000000000000 r) (h : Only p r s x) :
    Only p r s (State.claimLease x) := by
  unfold State.claimLease
  repeat' first
    | with_reducible assumption
    | with_reducible refine State.becomeHolder_only (Sub.trans rfl hp) (Sub.trans rfl hr) ?_
    | with_reducible refine Only.ite ?_ ?_
    | (extract_lets +onlyGivenNames y; first | (refine Only.cut (x := y) ?_ ?_; subst y; rotate_left; clear_value y; intro _) | clear_value y)
    | split
    | dsimp only

theorem State.settleClaim_only {p r : Nat} {s x : State} (hp : Sub 2621440 p) (hr : Sub 0x38800000000000000000000000000000000000000000000000000000000000000000000000000000000000000000000000000000000000000000000000000000000000000000000000000000000000000000000000000000000000000000000000000000000000000000000000000000000000000000000000000000000000000000000000000000000000000000000000000000000000000000000000000000000000000000000000000000000000000000 r) (h : Only p r s x) :
    Only p r s (State.settleClaim x) := by
  unfold State.settleClaim
  repeat' first
    | with_reducible assumption
    | with_reducible refine State.beginTransfer_only (Sub.trans rfl hp) (Sub.trans rfl hr) ?_
    | with_reducible refine State.claimLease_only (Sub.trans rfl hp) (Sub.trans rfl hr) ?_
    | with_reducible refine Only.ite ?_ ?_
    | split

theorem State.followEpoch_only {p r : Nat} {s x : State} {a1 : _} (hp : Sub 2097152 p) (hr : Sub 0x18000000000000000000000000000000000000000000000000000000000000000000000000000000000000000000000000000000000000000000000000000000000000000000000000000000000000000000000000000000000000000000000000000000000000000000000000000000000000000000000000000000000000000000000000000000000000000000000000000000000000000000000000000000000000000000000000000000000000000000 r) (h : Only p r s x) :
    Only p r s (State.followEpoch x a1) := by
  unfold State.followEpoch
  repeat' first
    | with_reducible assumption
    | with_reducible refine State.takeEpoch_only (Sub.trans rfl hp) (Sub.trans rfl hr) ?_
    | with_reducible refine Only.ite ?_ ?_
    | split

theorem State.renew_only {p r : Nat} {s x : State} {a1 a2 a3 : _} (hp : Sub 524288 p) (hr : Sub 0 r) (h : Only p r s x) :
    Only p r s (State.renew x a1 a2 a3) := by
  unfold State.renew
  repeat' first
    | with_reducible assumption
    | with_reducible refine State.updTw_only (Sub.trans rfl hp) (Sub.trans rfl hr) ?_
    | with_reducible refine Only.ite ?_ ?_
    | intro _
    | (extract_lets +onlyGivenNames y; first | (refine Only.cut (x := y) ?_ ?_; subst y; rotate_left; clear_value y; intro _) | clear_value y)
    | split
    | dsimp only

theorem State.leaseRx_only {p r : Nat} {s x : State} {a1 : _} (hp : Sub 191847224 p) (hr : Sub 0xfc00000000000000000000000000000000000000e06000000000000000000000000000000000000000000000000000000000000000000000000000000000000000000103b800000000000000000000000000038080300000000000000000000000000000050000000000000000000000000000000000000000000000000000000000000000000000000000000000000000000000000000000000000000309fe007ffb000000000000000000020400000000000000000000000000000000000000000002200000000004200000000186009f000000000000000000000000000000000000000000000000000000000000000000000000 r) (h : Only p r s x) :
    Only p r s (State.leaseRx x a1) := by
  unfold State.leaseRx
  repeat' first
    | with_reducible assumption
    | with_reducible refine State.setPeer_only (Sub.trans rfl hp) (Sub.trans rfl hr) ?_
    | with_reducible refine State.settleClaim_only (Sub.trans rfl hp) (Sub.trans rfl hr) ?_
    | with_reducible refine State.followEpoch_only (Sub.trans rfl hp) (Sub.trans rfl hr) ?_
    | with_reducible refine State.renew_only (Sub.trans rfl hp) (Sub.trans rfl hr) ?_
    | with_reducible refine State.leaseBody_only (Sub.trans rfl hp) (Sub.trans rfl hr) ?_
    | with_reducible refine State.twRx_only (Sub.trans rfl hp) (Sub.trans rfl hr) ?_ ?_
    | with_reducible refine Only.ite ?_ ?_
    | intro _
    | (extract_lets +onlyGivenNames y; first | (refine Only.cut (x := y) ?_ ?_; subst y; rotate_left; clear_value y; intro _) | clear_value y)
    | split
    | dsimp only

theorem execLeaseRx_only {p r : Nat} {s : State} {a0 : _} (hp : Sub 191847224 p) (hr : Sub 0xfc00000000000000000000000000000000000000e06000000000000000000000000000000000000000000000000000000000000000000000000000000000000000000103b800000000000000000000000000038080300000000000000000000000000000050000000000000000000000000000000000000000000000000000000000000000000000000000000000000000000000000000000000000000309fe007ffb000000000000000000020400000000000000000000000000000000000000000002200000000004200000000186009f000000000000000000000000000000000000000000000000000000000000000000000000 r) :
    ∃ t, execLeaseRx a0 s = .next t ∧ Only p r s t := by
  unfold execLeaseRx
  refine ⟨_, rfl, ?_⟩
  have h : Only p r s s := Only.refl
  repeat' first
    | with_reducible assumption
    | with_reducible refine State.leaseRx_only (Sub.trans rfl hp) (Sub.trans rfl hr) ?_

theorem State.echoLost_only {p r : Nat} {s x : State} {a1 a2 : _} (hp : Sub 524296 p) (hr : Sub 0x204000000000000000000000000000000000000000000000000000000000000000000000000000000000000000000000000000000000000000000000000000000000000000000000000000000000000000000000000000000000000000000000000000000000000000000000000000000000000000000000000000000000000000000000000000000000000000000000000000000000000000000000000000000000000000000000000000000000000000000 r) (h : Only p r s x) :
    Only p r s (State.echoLost x a1 a2) := by
  unfold State.echoLost
  repeat' first
    | with_reducible assumption
    | with_reducible refine State.updTw_only (Sub.trans rfl hp) (Sub.trans rfl hr) ?_
    | with_reducible refine Only.set 1418 R.TW_STATE_PATH_OK_num (Sub.bits hr rfl) ?_
    | with_reducible refine Only.inc 1425 R.TW_COUNT_A_ECHO_LOST_num (Sub.bits hr rfl) ?_
    | with_reducible refine State.post_only (Sub.trans rfl hp) (Sub.trans rfl hr) ?_
    | intro _
    | (extract_lets +onlyGivenNames y; first | (refine Only.cut (x := y) ?_ ?_; subst y; rotate_left; clear_value y; intro _) | clear_value y)
    | dsimp only

theorem State.echoLostTest_only {p r : Nat} {s x : State} {a1 : _} (hp : Sub 524296 p) (hr : Sub 0x204000000000000000000000000000000000000000000000000000000000000000000000000000000000000000000000000000000000000000000000000000000000000000000000000000000000000000000000000000000000000000000000000000000000000000000000000000000000000000000000000000000000000000000000000000000000000000000000000000000000000000000000000000000000000000000000000000000000000000000 r) (h : Only p r s x) :
    Only p r s (State.echoLostTest x a1) := by
  unfold State.echoLostTest
  repeat' first
    | with_reducible assumption
    | with_reducible refine State.echoLost_only (Sub.trans rfl hp) (Sub.trans rfl hr) ?_
    | with_reducible refine Only.ite ?_ ?_
    | intro _
    | split
    | dsimp only

theorem State.twRepair_only {p r : Nat} {s x : State} {a1 : _} (hp : Sub 655368 p) (hr : Sub 0x800000000000000000000000000038080300000000000000000000000000000000000000000000000000000000000000000000000000000000000000000000000000000000000000000000000000000000000000000000000000000000000000000000000000000000000000000000000000000000000000000000000000000000000000000000000000000000000000000000000000000000000000000000000000000000000000000000000000000000 r) (h : Only p r s x) :
    Only p r s (State.twRepair x a1) := by
  unfold State.twRepair
  repeat' first
    | with_reducible assumption
    | with_reducible refine State.completeDesc_only (Sub.trans rfl hp) (Sub.trans rfl hr) ?_
    | with_reducible refine State.beginTransfer_only (Sub.trans rfl hp) (Sub.trans rfl hr) ?_
    | with_reducible refine Only.ite ?_ ?_
    | split

theorem State.takeOver_only {p r : Nat} {s x : State} (hp : Sub 2752520 p) (hr : Sub 0x438800000000000000000000000000038080300000000000000000000000000000000000000000000000000000000000000000000000000000000000000000000000000000000000000000000000000000000000000000000000000000000000000000000000000000000000000000000000000000000000000000000000000000000000000000000000000000000000000000000000000000000000000000000000000000000000000000000000000000000 r) (h : Only p r s x) :
    Only p r s (State.takeOver x) := by
  unfold State.takeOver
  repeat' first
    | with_reducible assumption
    | with_reducible refine State.closeHandover_only (Sub.trans rfl hp) (Sub.trans rfl hr) ?_
    | with_reducible refine State.becomeHolder_only (Sub.trans rfl hp) (Sub.trans rfl hr) ?_
    | with_reducible refine Only.inc 1426 R.TW_COUNT_A_TAKEOVERS_num (Sub.bits hr rfl) ?_
    | with_reducible refine State.post_only (Sub.trans rfl hp) (Sub.trans rfl hr) ?_

theorem State.leaseLost_only {p r : Nat} {s x : State} {a1 : _} (hp : Sub 17455128 p) (hr : Sub 0xfc000000000000000000000000000000000000000000000000000000000000000000000000000000000000000000000000000000000000000000000000000000000000000000000000000000000000000000038080300000000000000000000000000000000000000000000000000000000000000000000000000000000000000000000000000000000000000000000000000000000000000000000000009fe007ffb0000000000000000000204000000000000000000000000000000000000000000000000000000000000000000000000000000000000000000000000000000000000000000000000000000000000000000000000 r) (h : Only p r s x) :
    Only p r s (State.leaseLost x a1) := by
  unfold State.leaseLost
  repeat' first
    | with_reducible assumption
    | with_reducible refine State.updTw_only (Sub.trans rfl hp) (Sub.trans rfl hr) ?_
    | with_reducible refine State.post_only (Sub.trans rfl hp) (Sub.trans rfl hr) ?_
    | with_reducible refine State.fatal_only (Sub.trans rfl hp) (Sub.trans rfl hr) ?_
    | with_reducible refine State.assertAll_only (Sub.trans rfl hp) (Sub.trans rfl hr) ?_
    | intro _
    | (extract_lets +onlyGivenNames y; first | (refine Only.cut (x := y) ?_ ?_; subst y; rotate_left; clear_value y; intro _) | clear_value y)
    | dsimp only

theorem State.leaseExpiry_only {p r : Nat} {s x : State} (hp : Sub 19552280 p) (hr : Sub 0xfc000000000000000000000000000000000000000000000000000000000000000000000000000000000000000000000000000000000000000000000000000000000000438800000000000000000000000000038080300000000000000000000000000000000000000000000000000000000000000000000000000000000000000000000000000000000000000000000000000000000000000000000000009fe007ffb0000000000000000000204000000000000000000000000000000000000000000000000000000000000000000000000000000000000000000000000000000000000000000000000000000000000000000000000 r) (h : Only p r s x) :
    Only p r s (State.leaseExpiry x) := by
  unfold State.leaseExpiry
  repeat' first
    | with_reducible assumption
    | with_reducible refine State.takeOver_only (Sub.trans rfl hp) (Sub.trans rfl hr) ?_
    | with_reducible refine State.leaseLost_only (Sub.trans rfl hp) (Sub.trans rfl hr) ?_
    | with_reducible refine Only.ite ?_ ?_
    | (extract_lets +onlyGivenNames y; first | (refine Only.cut (x := y) ?_ ?_; subst y; rotate_left; clear_value y; intro _) | clear_value y)
    | split
    | dsimp only

theorem State.handoverSwitch_only {p r : Nat} {s x : State} (hp : Sub 2752520 p) (hr : Sub 0x839800000000000000000000000000038080300000000000000000000000000000000000000000000000000000000000000000000000000000000000000000000000000000000000000000000000000000000000000000000000000000000000000000000000000000000000000000000000000000000000000000000000000000000000000000000000000000000000000000000000000000000000000000000000000000000000000000000000000000000 r) (h : Only p r s x) :
    Only p r s (State.handoverSwitch x) := by
  unfold State.handoverSwitch
  repeat' first
    | with_reducible assumption
    | with_reducible refine Only.set 1415 R.TW_STATE_STATE_num (Sub.bits hr rfl) ?_
    | with_reducible refine State.takeEpoch_only (Sub.trans rfl hp) (Sub.trans rfl hr) ?_
    | with_reducible refine State.updTw_only (Sub.trans rfl hp) (Sub.trans rfl hr) ?_
    | with_reducible refine State.setPeer_only (Sub.trans rfl hp) (Sub.trans rfl hr) ?_
    | with_reducible refine Only.inc 1427 R.TW_COUNT_B_HANDOVERS_num (Sub.bits hr rfl) ?_
    | with_reducible refine State.post_only (Sub.trans rfl hp) (Sub.trans rfl hr) ?_
    | with_reducible refine State.complete_only (Sub.trans rfl hp) (Sub.trans rfl hr) ?_
    | with_reducible refine State.handoverCancel_only (Sub.trans rfl hp) (Sub.trans rfl hr) ?_
    | with_reducible refine State.becomeHolder_only (Sub.trans rfl hp) (Sub.trans rfl hr) ?_
    | with_reducible refine Only.ite ?_ ?_
    | intro _
    | (extract_lets +onlyGivenNames y; first | (refine Only.cut (x := y) ?_ ?_; subst y; rotate_left; clear_value y; intro _) | clear_value y)
    | split
    | dsimp only

theorem State.paired_only {p r : Nat} {s x : State} (hp : Sub 51338008 p) (hr : Sub 0xfc000000000000000000000000000000000000000000000000000000000000000000000000000000000000000000000000000000000000000000000000000000000000002800000000000000000000000000038080300000000000000000000000000000050000000000000000000000000000000000000000000000000000000000000000000000000000000000000000000000000000000000000000309fe007ffb0000000000000000000204000000000000000000000000000000000000000000022000000000042000000001860000000000000000000000000000000000000000000000000000000000000000000000000000 r) (h : Only p r s x) :
    Only p r s (State.paired x) := by
  unfold State.paired
  repeat' first
    | with_reducible assumption
    | with_reducible refine Only.set 1415 R.TW_STATE_STATE_num (Sub.bits hr rfl) ?_
    | with_reducible refine State.updTw_only (Sub.trans rfl hp) (Sub.trans rfl hr) ?_
    | with_reducible refine State.post_only (Sub.trans rfl hp) (Sub.trans rfl hr) ?_
    | with_reducible refine State.mirrorTake_only (Sub.trans rfl hp) (Sub.trans rfl hr) ?_
    | with_reducible refine Only.ite ?_ ?_
    | with_reducible refine Only.foldl ?_ ?_
    | intro _
    | (extract_lets +onlyGivenNames y; first | (refine Only.cut (x := y) ?_ ?_; subst y; rotate_left; clear_value y; intro _) | clear_value y)
    | split
    | dsimp only

theorem State.twEnable_only {p r : Nat} {s x : State} (hp : Sub 524288 p) (hr : Sub 0x4800000000000000000000000000000000000000000000000000000000000000000000000000000000000000000000000000000000000000000000000000000000000000000000000000000000000000000000000000000000000000000000000000000000000000000000000000000000000000000000000000000000000000000000000000000000000000000000000000000000000000000000000000000000000000000000000000000000000000000 r) (h : Only p r s x) :
    Only p r s (State.twEnable x) := by
  unfold State.twEnable
  repeat' first
    | with_reducible assumption
    | with_reducible refine Only.set 1415 R.TW_STATE_STATE_num (Sub.bits hr rfl) ?_
    | with_reducible refine Only.set 1418 R.TW_STATE_PATH_OK_num (Sub.bits hr rfl) ?_
    | with_reducible refine State.updTw_only (Sub.trans rfl hp) (Sub.trans rfl hr) ?_
    | with_reducible refine Only.ite ?_ ?_
    | intro _
    | (extract_lets +onlyGivenNames y; first | (refine Only.cut (x := y) ?_ ?_; subst y; rotate_left; clear_value y; intro _) | clear_value y)
    | split
    | dsimp only

theorem State.paceStopAll_only {p r : Nat} {s x : State} {a1 a2 : _} (hp : Sub 2048 p) (hr : Sub 0 r) (h : Only p r s x) :
    Only p r s (State.paceStopAll x a1 a2) := by
  unfold State.paceStopAll
  repeat' first
    | with_reducible assumption
    | with_reducible refine State.noteStop_only (Sub.trans rfl hp) (Sub.trans rfl hr) ?_
    | with_reducible refine State.wantStop_only (Sub.trans rfl hp) (Sub.trans rfl hr) ?_
    | with_reducible refine Only.ite ?_ ?_
    | with_reducible refine Only.foldl ?_ ?_
    | intro _
    | split
    | dsimp only

theorem State.releasedTimeout_only {p r : Nat} {s x : State} (hp : Sub 657416 p) (hr : Sub 0x2800000000000000000000000000038080300000000000000000000000000000000000000000000000000000000000000000000000000000000000000000000000000000000000000000000000000000000000000000000000000000000000000000000000000000000000000000000000000000000000000000000000000000000000000000000000000000000000000000000000000000000000000000000000000000000000000000000000000000000 r) (h : Only p r s x) :
    Only p r s (State.releasedTimeout x) := by
  unfold State.releasedTimeout
  repeat' first
    | with_reducible assumption
    | with_reducible refine State.paceStopAll_only (Sub.trans rfl hp) (Sub.trans rfl hr) ?_
    | with_reducible refine State.updTw_only (Sub.trans rfl hp) (Sub.trans rfl hr) ?_
    | with_reducible refine State.twFault_only (Sub.trans rfl hp) (Sub.trans rfl hr) ?_
    | with_reducible refine Only.ite ?_ ?_
    | intro _
    | (extract_lets +onlyGivenNames y; first | (refine Only.cut (x := y) ?_ ?_; subst y; rotate_left; clear_value y; intro _) | clear_value y)
    | split
    | dsimp only

theorem State.digestMissing_only {p r : Nat} {s x : State} {a1 : _} (hp : Sub 655368 p) (hr : Sub 0x102800000000000000000000000000038080300000000000000000000000000000000000000000000000000000000000000000000000000000000000000000000000000000000000000000000000000000000000000000000000000000000000000000000000000000000000000000000000000000000000000000000000000000000000000000000000000000000000000000000000000000000000000000000000000000000000000000000000000000000 r) (h : Only p r s x) :
    Only p r s (State.digestMissing x a1) := by
  unfold State.digestMissing
  repeat' first
    | with_reducible assumption
    | with_reducible refine Only.inc 1424 R.TW_COUNT_A_DIGEST_MISSING_num (Sub.bits hr rfl) ?_
    | with_reducible refine State.updTw_only (Sub.trans rfl hp) (Sub.trans rfl hr) ?_
    | with_reducible refine State.post_only (Sub.trans rfl hp) (Sub.trans rfl hr) ?_
    | with_reducible refine State.twFault_only (Sub.trans rfl hp) (Sub.trans rfl hr) ?_
    | with_reducible refine Only.ite ?_ ?_
    | intro _
    | (extract_lets +onlyGivenNames y; first | (refine Only.cut (x := y) ?_ ?_; subst y; rotate_left; clear_value y; intro _) | clear_value y)
    | split
    | dsimp only

theorem State.loadUnit_only {p r : Nat} {s x : State} {a1 a2 a3 a4 : _} (hp : Sub 13824 p) (hr : Sub 0x4000000000000000000000000000000000000000000000000000000000000000000000000000000000000000000000000000000000000000000000000000000000000000000000000 r) (h : Only p r s x) :
    Only p r s (State.loadUnit x a1 a2 a3 a4) := by
  unfold State.loadUnit
  repeat' first
    | with_reducible assumption
    | with_reducible refine State.updTil_only (Sub.trans rfl hp) (Sub.trans rfl hr) ?_
    | with_reducible refine State.updChan_only (Sub.trans rfl hp) (Sub.trans rfl hr) ?_
    | with_reducible refine State.updGen_only (Sub.trans rfl hp) (Sub.trans rfl hr) ?_
    | with_reducible refine State.updEng_only (Sub.trans rfl hp) (Sub.trans rfl hr) ?_
    | with_reducible refine Only.set 578 R.TL_JSTAT_JSTATE_num (Sub.bits hr rfl) ?_
    | with_reducible refine State.updStep_only (Sub.trans rfl hp) (Sub.trans rfl hr) ?_
    | with_reducible refine Only.foldl ?_ ?_
    | intro _
    | (extract_lets +onlyGivenNames y; first | (refine Only.cut (x := y) ?_ ?_; subst y; rotate_left; clear_value y; intro _) | clear_value y)
    | split
    | dsimp only

theorem State.xferSend_only {p r : Nat} {s x : State} {a1 : _} (hp : Sub 4194568 p) (hr : Sub 0xe06000000000000000000000000000000000000000000000000000000000000000000000000000000000000000000000000000000000000000000000000000000000000000000000000000000000000000000000000000000000000000000000000000000000000000000000000000000000000000000000000000000000000000000000000000000000000000000000000000000000000000000000000000000000000000000000000000000000000000000000000000000000000005f800000000000000000000000000000000000000000000000000000000000000000000000 r) (h : Only p r s x) :
    Only p r s (State.xferSend x a1) := by
  unfold State.xferSend
  repeat' first
    | with_reducible assumption
    | with_reducible refine State.twSend_only (Sub.trans rfl hp) (Sub.trans rfl hr) ?_
    | with_reducible refine Only.foldl ?_ ?_
    | intro _
    | (extract_lets +onlyGivenNames y; first | (refine Only.cut (x := y) ?_ ?_; subst y; rotate_left; clear_value y; intro _) | clear_value y)
    | split
    | dsimp only

theorem State.xferCapture_only {p r : Nat} {s x : State} (hp : Sub 4718856 p) (hr : Sub 0xe06000000000000000000000000000000000000000000000000000000000000000000000000000000000000000000000000000000000000000000000000000000000000000000000000000000000000000000000000000000000000000000000000000000000000000000000000000000000000000000000000000000000000000000000000000000000000000000000000000000000000000000000000000000000000000000000000000000000000000000000000000000000000005f800000000000000000000000000000000000000000000000000000000000000000000000 r) (h : Only p r s x) :
    Only p r s (State.xferCapture x) := by
  unfold State.xferCapture
  repeat' first
    | with_reducible assumption
    | with_reducible refine State.updTw_only (Sub.trans rfl hp) (Sub.trans rfl hr) ?_
    | with_reducible refine State.xferSend_only (Sub.trans rfl hp) (Sub.trans rfl hr) ?_
    | with_reducible refine Only.ite ?_ ?_
    | intro _
    | (extract_lets +onlyGivenNames y; first | (refine Only.cut (x := y) ?_ ?_; subst y; rotate_left; clear_value y; intro _) | clear_value y)
    | split
    | dsimp only

theorem State.statusTx_only {p r : Nat} {s x : State} (hp : Sub 4718856 p) (hr : Sub 0xe06000000000000000000000000000000000000000000000000000000000000000000000000000000000000000000000000000000000000000000000000000000000000000000000000000000000000000000000000000000000000000000000000000000000000000000000000000000000000000000000000000000000000000000000000000000000000000000000000000000000000000000000000000000000000000000000000000000000000000000000000000000000000005f800000000000000000000000000000000000000000000000000000000000000000000000 r) (h : Only p r s x) :
    Only p r s (State.statusTx x) := by
  unfold State.statusTx
  repeat' first
    | with_reducible assumption
    | with_reducible refine State.twSend_only (Sub.trans rfl hp) (Sub.trans rfl hr) ?_
    | with_reducible refine State.updTw_only (Sub.trans rfl hp) (Sub.trans rfl hr) ?_
    | with_reducible refine Only.ite ?_ ?_
    | intro _
    | (extract_lets +onlyGivenNames y; first | (refine Only.cut (x := y) ?_ ?_; subst y; rotate_left; clear_value y; intro _) | clear_value y)
    | split
    | dsimp only

theorem execStatusTx_only {p r : Nat} {s : State} (hp : Sub 4718856 p) (hr : Sub 0xe06000000000000000000000000000000000000000000000000000000000000000000000000000000000000000000000000000000000000000000000000000000000000000000000000000000000000000000000000000000000000000000000000000000000000000000000000000000000000000000000000000000000000000000000000000000000000000000000000000000000000000000000000000000000000000000000000000000000000000000000000000000000000005f800000000000000000000000000000000000000000000000000000000000000000000000 r) :
    ∃ t, execStatusTx s = .next t ∧ Only p r s t := by
  unfold execStatusTx
  refine ⟨_, rfl, ?_⟩
  have h : Only p r s s := Only.refl
  repeat' first
    | with_reducible assumption
    | with_reducible refine State.statusTx_only (Sub.trans rfl hp) (Sub.trans rfl hr) ?_

theorem State.peerOff_only {p r : Nat} {s x : State} (hp : Sub 2621440 p) (hr : Sub 0x39800000000000000000000000000000000000000000000000000000000000000000000000000000000000000000000000000000000000000000000000000000000000000000000000000000000000000000000000000000000000000000000000000000000000000000000000000000000000000000000000000000000000000000000000000000000000000000000000000000000000000000000000000000000000000000000000000000000000000000 r) (h : Only p r s x) :
    Only p r s (State.peerOff x) := by
  unfold State.peerOff
  repeat' first
    | with_reducible assumption
    | with_reducible refine State.setPeer_only (Sub.trans rfl hp) (Sub.trans rfl hr) ?_
    | with_reducible refine State.settleClaim_only (Sub.trans rfl hp) (Sub.trans rfl hr) ?_
    | with_reducible refine Only.ite ?_ ?_
    | split

theorem State.claimRx_only {p r : Nat} {s x : State} {a1 : _} (hp : Sub 6947080 p) (hr : Sub 0xe06000000000000000000000000000000000000000000000000000000000000000000000000000000000000000000103b80000000000000000000000000003808030000000000000000000000000000000000000000000000000000000000000000000000000000000000000000000000000000000000000000000000000000000000000000000000000000000000000000000000000000000000000000000000000000000000000000000000000000000000000000000000000000009f000000000000000000000000000000000000000000000000000000000000000000000000 r) (h : Only p r s x) :
    Only p r s (State.claimRx x a1) := by
  unfold State.claimRx
  repeat' first
    | with_reducible assumption
    | with_reducible refine State.setPeer_only (Sub.trans rfl hp) (Sub.trans rfl hr) ?_
    | with_reducible refine State.updTw_only (Sub.trans rfl hp) (Sub.trans rfl hr) ?_
    | with_reducible refine State.settleClaim_only (Sub.trans rfl hp) (Sub.trans rfl hr) ?_
    | with_reducible refine State.twRx_only (Sub.trans rfl hp) (Sub.trans rfl hr) ?_ ?_
    | intro _
    | (extract_lets +onlyGivenNames y; first | (refine Only.cut (x := y) ?_ ?_; subst y; rotate_left; clear_value y; intro _) | clear_value y)
    | dsimp only

theorem execClaimRx_only {p r : Nat} {s : State} {a0 : _} (hp : Sub 6947080 p) (hr : Sub 0xe06000000000000000000000000000000000000000000000000000000000000000000000000000000000000000000103b80000000000000000000000000003808030000000000000000000000000000000000000000000000000000000000000000000000000000000000000000000000000000000000000000000000000000000000000000000000000000000000000000000000000000000000000000000000000000000000000000000000000000000000000000000000000000009f000000000000000000000000000000000000000000000000000000000000000000000000 r) :
    ∃ t, execClaimRx a0 s = .next t ∧ Only p r s t := by
  unfold execClaimRx
  refine ⟨_, rfl, ?_⟩
  have h : Only p r s s := Only.refl
  repeat' first
    | with_reducible assumption
    | with_reducible refine State.claimRx_only (Sub.trans rfl hp) (Sub.trans rfl hr) ?_

theorem execTwHandoverSwitch_only {p r : Nat} {s : State} (hp : Sub 2752520 p) (hr : Sub 0x839800000000000000000000000000038080300000000000000000000000000000000000000000000000000000000000000000000000000000000000000000000000000000000000000000000000000000000000000000000000000000000000000000000000000000000000000000000000000000000000000000000000000000000000000000000000000000000000000000000000000000000000000000000000000000000000000000000000000000000 r) :
    ∃ t, execTwHandoverSwitch s = .next t ∧ Only p r s t := by
  unfold execTwHandoverSwitch
  refine ⟨_, rfl, ?_⟩
  have h : Only p r s s := Only.refl
  repeat' first
    | with_reducible assumption
    | with_reducible refine State.handoverSwitch_only (Sub.trans rfl hp) (Sub.trans rfl hr) ?_

theorem State.ackRx_only {p r : Nat} {s x : State} {a1 : _} (hp : Sub 4851976 p) (hr : Sub 0xe06000000000000000000000000000000000000000000000000000000000000000000000000000000000000000000100380000000000000000000000000003808030000000000000000000000000000000000000000000000000000000000000000000000000000000000000000000000000000000000000000000000000000000000000000000000000000000000000000000000000000000000000000000000000000000000000000000000000000000000000000000000000000009f000000000000000000000000000000000000000000000000000000000000000000000000 r) (h : Only p r s x) :
    Only p r s (State.ackRx x a1) := by
  unfold State.ackRx
  repeat' first
    | with_reducible assumption
    | with_reducible refine State.setPeer_only (Sub.trans rfl hp) (Sub.trans rfl hr) ?_
    | with_reducible refine State.updTw_only (Sub.trans rfl hp) (Sub.trans rfl hr) ?_
    | with_reducible refine State.wantStop_only (Sub.trans rfl hp) (Sub.trans rfl hr) ?_
    | with_reducible refine State.twRx_only (Sub.trans rfl hp) (Sub.trans rfl hr) ?_ ?_
    | with_reducible refine Only.ite ?_ ?_
    | with_reducible refine Only.foldl ?_ ?_
    | intro _
    | (extract_lets +onlyGivenNames y; first | (refine Only.cut (x := y) ?_ ?_; subst y; rotate_left; clear_value y; intro _) | clear_value y)
    | split
    | dsimp only

theorem State.statusRx_only {p r : Nat} {s x : State} {a1 : _} (hp : Sub 6947080 p) (hr : Sub 0xe06000000000000000000000000000000000000000000000000000000000000000000000000000000000000000002103b80000000000000000000000000003808030000000000000000000000000000000000000000000000000000000000000000000000000000000000000000000000000000000000000000000000000000000000000000000000000000000000000000000000000000000000000000000000000000000000000000000000000000000000000000000000000000009f000000000000000000000000000000000000000000000000000000000000000000000000 r) (h : Only p r s x) :
    Only p r s (State.statusRx x a1) := by
  unfold State.statusRx
  repeat' first
    | with_reducible assumption
    | with_reducible refine State.setPeer_only (Sub.trans rfl hp) (Sub.trans rfl hr) ?_
    | with_reducible refine Only.set 1433 R.TW_PEER_DIGEST_num (Sub.bits hr rfl) ?_
    | with_reducible refine State.updTw_only (Sub.trans rfl hp) (Sub.trans rfl hr) ?_
    | with_reducible refine State.settleClaim_only (Sub.trans rfl hp) (Sub.trans rfl hr) ?_
    | with_reducible refine State.twRx_only (Sub.trans rfl hp) (Sub.trans rfl hr) ?_ ?_
    | intro _
    | (extract_lets +onlyGivenNames y; first | (refine Only.cut (x := y) ?_ ?_; subst y; rotate_left; clear_value y; intro _) | clear_value y)
    | dsimp only

theorem execStatusRx_only {p r : Nat} {s : State} {a0 : _} (hp : Sub 6947080 p) (hr : Sub 0xe06000000000000000000000000000000000000000000000000000000000000000000000000000000000000000002103b80000000000000000000000000003808030000000000000000000000000000000000000000000000000000000000000000000000000000000000000000000000000000000000000000000000000000000000000000000000000000000000000000000000000000000000000000000000000000000000000000000000000000000000000000000000000000009f000000000000000000000000000000000000000000000000000000000000000000000000 r) :
    ∃ t, execStatusRx a0 s = .next t ∧ Only p r s t := by
  unfold execStatusRx
  refine ⟨_, rfl, ?_⟩
  have h : Only p r s s := Only.refl
  repeat' first
    | with_reducible assumption
    | with_reducible refine State.statusRx_only (Sub.trans rfl hp) (Sub.trans rfl hr) ?_

theorem State.digestBad_only {p r : Nat} {s x : State} {a1 : _} (hp : Sub 655368 p) (hr : Sub 0x82800000000000000000000000000038080300000000000000000000000000000000000000000000000000000000000000000000000000000000000000000000000000000000000000000000000000000000000000000000000000000000000000000000000000000000000000000000000000000000000000000000000000000000000000000000000000000000000000000000000000000000000000000000000000000000000000000000000000000000 r) (h : Only p r s x) :
    Only p r s (State.digestBad x a1) := by
  unfold State.digestBad
  repeat' first
    | with_reducible assumption
    | with_reducible refine Only.inc 1423 R.TW_COUNT_A_DIGEST_MISMATCH_num (Sub.bits hr rfl) ?_
    | with_reducible refine State.post_only (Sub.trans rfl hp) (Sub.trans rfl hr) ?_
    | with_reducible refine State.twFault_only (Sub.trans rfl hp) (Sub.trans rfl hr) ?_
    | with_reducible refine Only.ite ?_ ?_
    | (extract_lets +onlyGivenNames y; first | (refine Only.cut (x := y) ?_ ?_; subst y; rotate_left; clear_value y; intro _) | clear_value y)
    | split
    | dsimp only

theorem State.giveUp_only {p r : Nat} {s x : State} {a1 a2 : _} (hp : Sub 4849928 p) (hr : Sub 0xe06000000000000000000000000000000000000000000000000000000000000000000000000000000000000000000000000000000000000000000000000003808030000000000000000000000000000000000000000000000000000000000000000000000000000000000000000000000000000000000000000000000000000000000000000000000000000000000000000000000000000000000000000000000000000000000000000000000000000000000000000000000000000005f800000000000000000000000000000000000000000000000000000000000000000000000 r) (h : Only p r s x) :
    Only p r s (State.giveUp x a1 a2) := by
  unfold State.giveUp
  repeat' first
    | with_reducible assumption
    | with_reducible refine State.twSend_only (Sub.trans rfl hp) (Sub.trans rfl hr) ?_
    | with_reducible refine State.closeHandover_only (Sub.trans rfl hp) (Sub.trans rfl hr) ?_
    | with_reducible refine State.updTw_only (Sub.trans rfl hp) (Sub.trans rfl hr) ?_
    | with_reducible refine Only.ite ?_ ?_
    | intro _
    | (extract_lets +onlyGivenNames y; first | (refine Only.cut (x := y) ?_ ?_; subst y; rotate_left; clear_value y; intro _) | clear_value y)
    | split
    | dsimp only

theorem State.cmdEchoBad_only {p r : Nat} {s x : State} {a1 a2 : _} (hp : Sub 4849944 p) (hr : Sub 0xe06000000000000000000000000000000000000000000000000000000000000000000000000000000000000000000200000000000000000000000000000003808030000000000000000000000000000000000000000000000000000000000000000000000000000000000000000000000000000000000000000000000000000000000000000000000000000000000000000000000000000000000000000000000000000000000000000000000000000000000000000000000000000005f800000000000000000000000000000000000000000000000000000000000000000000000 r) (h : Only p r s x) :
    Only p r s (State.cmdEchoBad x a1 a2) := by
  unfold State.cmdEchoBad
  repeat' first
    | with_reducible assumption
    | with_reducible refine Only.inc 1429 R.TW_COUNT_B_CMD_ECHO_num (Sub.bits hr rfl) ?_
    | with_reducible refine State.post_only (Sub.trans rfl hp) (Sub.trans rfl hr) ?_
    | with_reducible refine State.fault_only (Sub.trans rfl hp) (Sub.trans rfl hr) ?_
    | with_reducible refine State.giveUp_only (Sub.trans rfl hp) (Sub.trans rfl hr) ?_
    | with_reducible refine Only.ite ?_ ?_
    | (extract_lets +onlyGivenNames y; first | (refine Only.cut (x := y) ?_ ?_; subst y; rotate_left; clear_value y; intro _) | clear_value y)
    | split
    | dsimp only

theorem State.compareHolder_only {p r : Nat} {s x : State} {a1 a2 : _} (hp : Sub 4849944 p) (hr : Sub 0xe06000000000000000000000000000000000000000000000000000000000000000000000000000000000000000000200000000000000000000000000000003808030000000000000000000000000000000000000000000000000000000000000000000000000000000000000000000000000000000000000000000000000000000000000000000000000000000000000000000000000000000000000000000000000000000000000000000000000000000000000000000000000000005f800000000000000000000000000000000000000000000000000000000000000000000000 r) (h : Only p r s x) :
    Only p r s (State.compareHolder x a1 a2) := by
  unfold State.compareHolder
  repeat' first
    | with_reducible assumption
    | with_reducible refine State.cmdEchoBad_only (Sub.trans rfl hp) (Sub.trans rfl hr) ?_
    | with_reducible refine Only.ite ?_ ?_
    | with_reducible refine Only.foldl ?_ ?_
    | intro _
    | (extract_lets +onlyGivenNames y; first | (refine Only.cut (x := y) ?_ ?_; subst y; rotate_left; clear_value y; intro _) | clear_value y)
    | split
    | dsimp only

theorem State.compareStandby_only {p r : Nat} {s x : State} {a1 a2 a3 : _} (hp : Sub 655368 p) (hr : Sub 0x82800000000000000000000000000038080300000000000000000000000000000000000000000000000000000000000000000000000000000000000000000000000000000000000000000000000000000000000000000000000000000000000000000000000000000000000000000000000000000000000000000000000000000000000000000000000000000000000000000000000000000000000000000000000000000000000000000000000000000000 r) (h : Only p r s x) :
    Only p r s (State.compareStandby x a1 a2 a3) := by
  unfold State.compareStandby
  repeat' first
    | with_reducible assumption
    | with_reducible refine State.digestBad_only (Sub.trans rfl hp) (Sub.trans rfl hr) ?_
    | with_reducible refine Only.ite ?_ ?_
    | intro _
    | (extract_lets +onlyGivenNames y; first | (refine Only.cut (x := y) ?_ ?_; subst y; rotate_left; clear_value y; intro _) | clear_value y)
    | split
    | dsimp only

theorem State.twCompare_only {p r : Nat} {s x : State} {a1 : _} (hp : Sub 4849944 p) (hr : Sub 0xe06000000000000000000000000000000000000000000000000000000000000000000000000000000000000000000238680000000000000000000000000003808030000000000000000000000000000000000000000000000000000000000000000000000000000000000000000000000000000000000000000000000000000000000000000000000000000000000000000000000000000000000000000000000000000000000000000000000000000000000000000000000000000005f800000000000000000000000000000000000000000000000000000000000000000000000 r) (h : Only p r s x) :
    Only p r s (State.twCompare x a1) := by
  unfold State.twCompare
  repeat' first
    | with_reducible assumption
    | with_reducible refine State.updTw_only (Sub.trans rfl hp) (Sub.trans rfl hr) ?_
    | with_reducible refine Only.snd (q := (State.inject _ _ _)) (by assumption) (State.inject_only (Sub.trans rfl hp) (Sub.trans rfl hr) ?_)
    | with_reducible refine State.inject_only (Sub.trans rfl hp) (Sub.trans rfl hr) ?_
    | with_reducible refine State.digestMissing_only (Sub.trans rfl hp) (Sub.trans rfl hr) ?_
    | with_reducible refine State.digestBad_only (Sub.trans rfl hp) (Sub.trans rfl hr) ?_
    | with_reducible refine State.echoLost_only (Sub.trans rfl hp) (Sub.trans rfl hr) ?_
    | with_reducible refine State.cmdEchoBad_only (Sub.trans rfl hp) (Sub.trans rfl hr) ?_
    | with_reducible refine State.compareHolder_only (Sub.trans rfl hp) (Sub.trans rfl hr) ?_
    | with_reducible refine State.compareStandby_only (Sub.trans rfl hp) (Sub.trans rfl hr) ?_
    | with_reducible refine Only.ite ?_ ?_
    | intro _
    | (extract_lets +onlyGivenNames y; first | (refine Only.cut (x := y) ?_ ?_; subst y; rotate_left; clear_value y; intro _) | (refine Only.cut (x := y.1) ?_ ?_; subst y; rotate_left; clear_value y; intro _) | (refine Only.cut (x := y.2) ?_ ?_; subst y; rotate_left; clear_value y; intro _) | (refine Only.cut (x := y.2.2) ?_ ?_; subst y; rotate_left; clear_value y; intro _) | clear_value y)
    | split
    | dsimp only

theorem State.twEnd_only {p r : Nat} {s x : State} {a1 : _} (hp : Sub 21649688 p) (hr : Sub 0xfc00000000000000000000000000000000000000e0600000000000000000000000000000000000000000000000000000000000000000000000000000000000000000033e6800000000000000000000000000038080300000000000000000000000000000000000000000000000000000000000000000000000000000000000000000000000000000000000000000000000000000000000000000000000009fe007ffb000000000000000000020400000000000000000000000000000000000000000000000000000000000000000000005f800000000000000000000000000000000000000000000000000000000000000000000000 r) (h : Only p r s x) :
    Only p r s (State.twEnd x a1) := by
  unfold State.twEnd
  repeat' first
    | with_reducible assumption
    | with_reducible refine State.twCompare_only (Sub.trans rfl hp) (Sub.trans rfl hr) ?_
    | with_reducible refine State.updTw_only (Sub.trans rfl hp) (Sub.trans rfl hr) ?_
    | with_reducible refine Only.set 1422 R.TW_LEASE_STAT_PATHS_num (Sub.bits hr rfl) ?_
    | with_reducible refine Only.set 1421 R.TW_LEASE_STAT_SINCE_RENEW_num (Sub.bits hr rfl) ?_
    | with_reducible refine Only.inc 1421 R.TW_LEASE_STAT_SINCE_RENEW_num (Sub.bits hr rfl) ?_
    | with_reducible refine Only.snd (q := (State.inject _ _ _)) (by assumption) (State.inject_only (Sub.trans rfl hp) (Sub.trans rfl hr) ?_)
    | with_reducible refine State.inject_only (Sub.trans rfl hp) (Sub.trans rfl hr) ?_
    | with_reducible refine State.leaseLost_only (Sub.trans rfl hp) (Sub.trans rfl hr) ?_
    | with_reducible refine State.supersede_only (Sub.trans rfl hp) (Sub.trans rfl hr) ?_
    | with_reducible refine Only.ite ?_ ?_
    | with_reducible refine Only.foldl ?_ ?_
    | with_reducible refine Only.foldl_fst ?_ ?_
    | with_reducible refine Only.foldl_snd ?_ ?_
    | intro _
    | (extract_lets +onlyGivenNames y; first | (refine Only.cut (x := y) ?_ ?_; subst y; rotate_left; clear_value y; intro _) | (refine Only.cut (x := y.1) ?_ ?_; subst y; rotate_left; clear_value y; intro _) | (refine Only.cut (x := y.2) ?_ ?_; subst y; rotate_left; clear_value y; intro _) | (refine Only.cut (x := y.2.2) ?_ ?_; subst y; rotate_left; clear_value y; intro _) | clear_value y)
    | split
    | dsimp only

theorem State.syncStart_only {p r : Nat} {s x : State} {a1 a2 : _} (hp : Sub 4718856 p) (hr : Sub 0xe06000000000000000000000000000000000000000000000000000000000000000000000000000000000000000000000000000000000000000000000000000000000000000000000000000000000000000000000000000000000000000000000000000000000000000000000000000000000000000000000000000000000000000000000000000000000000000000000000000000000000000000000000000000000000000000000000000000000000000000000000000000000000005f800000000000000000000000000000000000000000000000000000000000000000000000 r) (h : Only p r s x) :
    Only p r s (State.syncStart x a1 a2) := by
  unfold State.syncStart
  repeat' first
    | with_reducible assumption
    | with_reducible refine State.updTw_only (Sub.trans rfl hp) (Sub.trans rfl hr) ?_
    | with_reducible refine State.twLaunch_only (Sub.trans rfl hp) (Sub.trans rfl hr) ?_
    | with_reducible refine Only.ite ?_ ?_
    | with_reducible refine Only.foldl ?_ ?_
    | intro _
    | (extract_lets +onlyGivenNames y; first | (refine Only.cut (x := y) ?_ ?_; subst y; rotate_left; clear_value y; intro _) | clear_value y)
    | split
    | dsimp only

theorem execSyncExchange_only {p r : Nat} {s : State} {a0 a1 : _} (hp : Sub 4718856 p) (hr : Sub 0xe06000000000000000000000000000000000000000000000000000000000000000000000000000000000000000000000000000000000000000000000000000000000000000000000000000000000000000000000000000000000000000000000000000000000000000000000000000000000000000000000000000000000000000000000000000000000000000000000000000000000000000000000000000000000000000000000000000000000000000000000000000000000000005f800000000000000000000000000000000000000000000000000000000000000000000000 r) :
    ∃ t, execSyncExchange a0 a1 s = .next t ∧ Only p r s t := by
  unfold execSyncExchange
  refine ⟨_, rfl, ?_⟩
  have h : Only p r s s := Only.refl
  repeat' first
    | with_reducible assumption
    | with_reducible refine State.syncStart_only (Sub.trans rfl hp) (Sub.trans rfl hr) ?_

theorem State.digestMissTest_only {p r : Nat} {s x : State} (hp : Sub 655368 p) (hr : Sub 0x102800000000000000000000000000038080300000000000000000000000000000000000000000000000000000000000000000000000000000000000000000000000000000000000000000000000000000000000000000000000000000000000000000000000000000000000000000000000000000000000000000000000000000000000000000000000000000000000000000000000000000000000000000000000000000000000000000000000000000000 r) (h : Only p r s x) :
    Only p r s (State.digestMissTest x) := by
  unfold State.digestMissTest
  repeat' first
    | with_reducible assumption
    | with_reducible refine State.digestMissing_only (Sub.trans rfl hp) (Sub.trans rfl hr) ?_
    | with_reducible refine Only.ite ?_ ?_
    | split

theorem execTwDigestMissing_only {p r : Nat} {s : State} (hp : Sub 655368 p) (hr : Sub 0x102800000000000000000000000000038080300000000000000000000000000000000000000000000000000000000000000000000000000000000000000000000000000000000000000000000000000000000000000000000000000000000000000000000000000000000000000000000000000000000000000000000000000000000000000000000000000000000000000000000000000000000000000000000000000000000000000000000000000000000 r) :
    ∃ t, execTwDigestMissing s = .next t ∧ Only p r s t := by
  unfold execTwDigestMissing
  refine ⟨_, rfl, ?_⟩
  have h : Only p r s s := Only.refl
  repeat' first
    | with_reducible assumption
    | with_reducible refine State.digestMissTest_only (Sub.trans rfl hp) (Sub.trans rfl hr) ?_

theorem execTwCmdRepair_only {p r : Nat} {s : State} {a0 : _} (hp : Sub 655496 p) (hr : Sub 0x800000000000000000000000000038080300000000000000000000000000000000000000000000000000000000000000000000000000000000000000000000000000000000000000000000000000000000000000000000000000000000000000000000000000000000000000000000000000000000000000000000000000000000000000000000000000000000000000000000000000000000000000000000000000000000000000000000000000000000 r) :
    ∃ t, execTwCmdRepair a0 s = .next t ∧ Only p r s t := by
  unfold execTwCmdRepair
  refine ⟨_, rfl, ?_⟩
  have h : Only p r s s := Only.refl
  repeat' first
    | with_reducible assumption
    | with_reducible refine State.twRepair_only (Sub.trans rfl hp) (Sub.trans rfl hr) ?_
    | with_reducible refine State.opAction_only (Sub.trans rfl hp) (Sub.trans rfl hr) ?_ ?_
    | intro _
    | dsimp only

theorem execTwinPeerOff_only {p r : Nat} {s : State} (hp : Sub 2621440 p) (hr : Sub 0x39800000000000000000000000000000000000000000000000000000000000000000000000000000000000000000000000000000000000000000000000000000000000000000000000000000000000000000000000000000000000000000000000000000000000000000000000000000000000000000000000000000000000000000000000000000000000000000000000000000000000000000000000000000000000000000000000000000000000000000 r) :
    ∃ t, execTwinPeerOff s = .next t ∧ Only p r s t := by
  unfold execTwinPeerOff
  refine ⟨_, rfl, ?_⟩
  have h : Only p r s s := Only.refl
  repeat' first
    | with_reducible assumption
    | with_reducible refine State.peerOff_only (Sub.trans rfl hp) (Sub.trans rfl hr) ?_

theorem execReleasedHolderTimeout_only {p r : Nat} {s : State} (hp : Sub 657416 p) (hr : Sub 0x2800000000000000000000000000038080300000000000000000000000000000000000000000000000000000000000000000000000000000000000000000000000000000000000000000000000000000000000000000000000000000000000000000000000000000000000000000000000000000000000000000000000000000000000000000000000000000000000000000000000000000000000000000000000000000000000000000000000000000000 r) :
    ∃ t, execReleasedHolderTimeout s = .next t ∧ Only p r s t := by
  unfold execReleasedHolderTimeout
  refine ⟨_, rfl, ?_⟩
  have h : Only p r s s := Only.refl
  repeat' first
    | with_reducible assumption
    | with_reducible refine State.releasedTimeout_only (Sub.trans rfl hp) (Sub.trans rfl hr) ?_

theorem execTwPaired_only {p r : Nat} {s : State} (hp : Sub 51338008 p) (hr : Sub 0xfc000000000000000000000000000000000000000000000000000000000000000000000000000000000000000000000000000000000000000000000000000000000000002800000000000000000000000000038080300000000000000000000000000000050000000000000000000000000000000000000000000000000000000000000000000000000000000000000000000000000000000000000000309fe007ffb0000000000000000000204000000000000000000000000000000000000000000022000000000042000000001860000000000000000000000000000000000000000000000000000000000000000000000000000 r) :
    ∃ t, execTwPaired s = .next t ∧ Only p r s t := by
  unfold execTwPaired
  refine ⟨_, rfl, ?_⟩
  have h : Only p r s s := Only.refl
  repeat' first
    | with_reducible assumption
    | with_reducible refine State.paired_only (Sub.trans rfl hp) (Sub.trans rfl hr) ?_

theorem State.token_only {p r : Nat} {s x : State} (hp : Sub 524288 p) (hr : Sub 0 r) (h : Only p r s x) :
    Only p r s (State.token x) := by
  unfold State.token
  repeat' first
    | with_reducible assumption
    | with_reducible refine State.updTw_only (Sub.trans rfl hp) (Sub.trans rfl hr) ?_
    | with_reducible refine Only.ite ?_ ?_
    | intro _
    | (extract_lets +onlyGivenNames y; first | (refine Only.cut (x := y) ?_ ?_; subst y; rotate_left; clear_value y; intro _) | clear_value y)
    | split
    | dsimp only

theorem State.twDisable_only {p r : Nat} {s x : State} (hp : Sub 655368 p) (hr : Sub 0x20800000000000000000000000000038080300000000000000000000000000000000000000000000000000000000000000000000000000000000000000000000000000000000000000000000000000000000000000000000000000000000000000000000000000000000000000000000000000000000000000000000000000000000000000000000000000000000000000000000000000000000000000000000000000000000000000000000000000000000 r) (h : Only p r s x) :
    Only p r s (State.twDisable x) := by
  unfold State.twDisable
  repeat' first
    | with_reducible assumption
    | with_reducible refine Only.set 1415 R.TW_STATE_STATE_num (Sub.bits hr rfl) ?_
    | with_reducible refine Only.set 1421 R.TW_LEASE_STAT_SINCE_RENEW_num (Sub.bits hr rfl) ?_
    | with_reducible refine State.closeHandover_only (Sub.trans rfl hp) (Sub.trans rfl hr) ?_
    | with_reducible refine State.updTw_only (Sub.trans rfl hp) (Sub.trans rfl hr) ?_
    | intro _
    | (extract_lets +onlyGivenNames y; first | (refine Only.cut (x := y) ?_ ?_; subst y; rotate_left; clear_value y; intro _) | clear_value y)
    | dsimp only

theorem State.echoTake_only {p r : Nat} {s x : State} {a1 a2 : _} (hp : Sub 2621440 p) (hr : Sub 0x8001c000000000000000000000000000000000000000000000000000000000000000000000000000000000000000000000000000000000000000000000000000000000000000000000000000000000000000000000000000000000000000000000000000000000000000000000000000000000000000000000000000000000000000000000000000000000000000000000000000000000000000000000000000000000000000000000000000000000000000000 r) (h : Only p r s x) :
    Only p r s (State.echoTake x a1 a2) := by
  unfold State.echoTake
  repeat' first
    | with_reducible assumption
    | with_reducible refine Only.seti 1435 R.TW_ECHO_DELAY_DELAY_num (Sub.bits hr rfl) ?_
    | with_reducible refine State.updTw_only (Sub.trans rfl hp) (Sub.trans rfl hr) ?_
    | with_reducible refine Only.set 1418 R.TW_STATE_PATH_OK_num (Sub.bits hr rfl) ?_
    | with_reducible refine State.followEpoch_only (Sub.trans rfl hp) (Sub.trans rfl hr) ?_
    | with_reducible refine State.renew_only (Sub.trans rfl hp) (Sub.trans rfl hr) ?_
    | with_reducible refine Only.ite ?_ ?_
    | intro _
    | (extract_lets +onlyGivenNames y; first | (refine Only.cut (x := y) ?_ ?_; subst y; rotate_left; clear_value y; intro _) | clear_value y)
    | split
    | dsimp only

theorem execLeaseExpiry_only {p r : Nat} {s : State} (hp : Sub 19552280 p) (hr : Sub 0xfc000000000000000000000000000000000000000000000000000000000000000000000000000000000000000000000000000000000000000000000000000000000000438800000000000000000000000000038080300000000000000000000000000000000000000000000000000000000000000000000000000000000000000000000000000000000000000000000000000000000000000000000000009fe007ffb0000000000000000000204000000000000000000000000000000000000000000000000000000000000000000000000000000000000000000000000000000000000000000000000000000000000000000000000 r) :
    ∃ t, execLeaseExpiry s = .next t ∧ Only p r s t := by
  unfold execLeaseExpiry
  refine ⟨_, rfl, ?_⟩
  have h : Only p r s s := Only.refl
  repeat' first
    | with_reducible assumption
    | with_reducible refine State.leaseExpiry_only (Sub.trans rfl hp) (Sub.trans rfl hr) ?_

theorem execSwitchbackHoldoff_only {p r : Nat} {s : State} (hp : Sub 524288 p) (hr : Sub 0 r) :
    ∃ t, execSwitchbackHoldoff s = .next t ∧ Only p r s t := by
  unfold execSwitchbackHoldoff
  refine ⟨_, rfl, ?_⟩
  have h : Only p r s s := Only.refl
  repeat' first
    | with_reducible assumption
    | with_reducible refine State.switchback_only (Sub.trans rfl hp) (Sub.trans rfl hr) ?_

theorem State.twAlign_only {p r : Nat} {s x : State} {a1 : _} (hp : Sub 131112 p) (hr : Sub 0x38080300000000000000000000000000000000000000000000000000000000000000000000000000000000000000000000000000000000000000000000000000000000000000000000000000000000000000000000000000000000000000000000000000000000000000000000000000000000000000000000000000000000000000000000000000000000000000000000000000000000000000000000000000000000 r) (h : Only p r s x) :
    Only p r s (State.twAlign x a1) := by
  unfold State.twAlign
  repeat' first
    | with_reducible assumption
    | with_reducible refine State.completeDesc_only (Sub.trans rfl hp) (Sub.trans rfl hr) ?_
    | with_reducible refine State.goStep_only (Sub.trans rfl hp) (Sub.trans rfl hr) ?_
    | with_reducible refine Only.ite ?_ ?_
    | split

theorem execTwCmdAlign_only {p r : Nat} {s : State} {a0 : _} (hp : Sub 131240 p) (hr : Sub 0x38080300000000000000000000000000000000000000000000000000000000000000000000000000000000000000000000000000000000000000000000000000000000000000000000000000000000000000000000000000000000000000000000000000000000000000000000000000000000000000000000000000000000000000000000000000000000000000000000000000000000000000000000000000000000 r) :
    ∃ t, execTwCmdAlign a0 s = .next t ∧ Only p r s t := by
  unfold execTwCmdAlign
  refine ⟨_, rfl, ?_⟩
  have h : Only p r s s := Only.refl
  repeat' first
    | with_reducible assumption
    | with_reducible refine State.twAlign_only (Sub.trans rfl hp) (Sub.trans rfl hr) ?_
    | with_reducible refine State.opAction_only (Sub.trans rfl hp) (Sub.trans rfl hr) ?_ ?_
    | intro _
    | dsimp only

theorem execTwEchoLost_only {p r : Nat} {s : State} {a0 : _} (hp : Sub 524296 p) (hr : Sub 0x204000000000000000000000000000000000000000000000000000000000000000000000000000000000000000000000000000000000000000000000000000000000000000000000000000000000000000000000000000000000000000000000000000000000000000000000000000000000000000000000000000000000000000000000000000000000000000000000000000000000000000000000000000000000000000000000000000000000000000000 r) :
    ∃ t, execTwEchoLost a0 s = .next t ∧ Only p r s t := by
  unfold execTwEchoLost
  refine ⟨_, rfl, ?_⟩
  have h : Only p r s s := Only.refl
  repeat' first
    | with_reducible assumption
    | with_reducible refine State.echoLostTest_only (Sub.trans rfl hp) (Sub.trans rfl hr) ?_

theorem execTransferTimeout_only {p r : Nat} {s : State} (hp : Sub 655368 p) (hr : Sub 0x2800000000000000000000000000038080300000000000000000000000000000000000000000000000000000000000000000000000000000000000000000000000000000000000000000000000000000000000000000000000000000000000000000000000000000000000000000000000000000000000000000000000000000000000000000000000000000000000000000000000000000000000000000000000000000000000000000000000000000000 r) :
    ∃ t, execTransferTimeout s = .next t ∧ Only p r s t := by
  unfold execTransferTimeout
  refine ⟨_, rfl, ?_⟩
  have h : Only p r s s := Only.refl
  repeat' first
    | with_reducible assumption
    | with_reducible refine State.transferTimeout_only (Sub.trans rfl hp) (Sub.trans rfl hr) ?_

theorem State.releaseRx_only {p r : Nat} {s x : State} {a1 : _} (hp : Sub 6947080 p) (hr : Sub 0xe06000000000000000000000000000000000000000000000000000000000000000000000000000000000000000000103b80000000000000000000000000003808030000000000000000000000000000000000000000000000000000000000000000000000000000000000000000000000000000000000000000000000000000000000000000000000000000000000000000000000000000000000000000000000000000000000000000000000000000000000000000000000000000009f000000000000000000000000000000000000000000000000000000000000000000000000 r) (h : Only p r s x) :
    Only p r s (State.releaseRx x a1) := by
  unfold State.releaseRx
  repeat' first
    | with_reducible assumption
    | with_reducible refine State.setPeer_only (Sub.trans rfl hp) (Sub.trans rfl hr) ?_
    | with_reducible refine State.updTw_only (Sub.trans rfl hp) (Sub.trans rfl hr) ?_
    | with_reducible refine State.settleClaim_only (Sub.trans rfl hp) (Sub.trans rfl hr) ?_
    | with_reducible refine State.twRx_only (Sub.trans rfl hp) (Sub.trans rfl hr) ?_ ?_
    | with_reducible refine Only.ite ?_ ?_
    | intro _
    | (extract_lets +onlyGivenNames y; first | (refine Only.cut (x := y) ?_ ?_; subst y; rotate_left; clear_value y; intro _) | clear_value y)
    | split
    | dsimp only

theorem execReleaseRx_only {p r : Nat} {s : State} {a0 : _} (hp : Sub 6947080 p) (hr : Sub 0xe06000000000000000000000000000000000000000000000000000000000000000000000000000000000000000000103b80000000000000000000000000003808030000000000000000000000000000000000000000000000000000000000000000000000000000000000000000000000000000000000000000000000000000000000000000000000000000000000000000000000000000000000000000000000000000000000000000000000000000000000000000000000000000009f000000000000000000000000000000000000000000000000000000000000000000000000 r) :
    ∃ t, execReleaseRx a0 s = .next t ∧ Only p r s t := by
  unfold execReleaseRx
  refine ⟨_, rfl, ?_⟩
  have h : Only p r s s := Only.refl
  repeat' first
    | with_reducible assumption
    | with_reducible refine State.releaseRx_only (Sub.trans rfl hp) (Sub.trans rfl hr) ?_

theorem execAckTx_only {p r : Nat} {s : State} (hp : Sub 4718856 p) (hr : Sub 0xe06000000000000000000000000000000000000000000000000000000000000000000000000000000000000000000000000000000000000000000000000000000000000000000000000000000000000000000000000000000000000000000000000000000000000000000000000000000000000000000000000000000000000000000000000000000000000000000000000000000000000000000000000000000000000000000000000000000000000000000000000000000000000005f800000000000000000000000000000000000000000000000000000000000000000000000 r) :
    ∃ t, execAckTx s = .next t ∧ Only p r s t := by
  unfold execAckTx
  refine ⟨_, rfl, ?_⟩
  have h : Only p r s s := Only.refl
  repeat' first
    | with_reducible assumption
    | with_reducible refine State.ackTx_only (Sub.trans rfl hp) (Sub.trans rfl hr) ?_

theorem execAckRx_only {p r : Nat} {s : State} {a0 : _} (hp : Sub 4851976 p) (hr : Sub 0xe06000000000000000000000000000000000000000000000000000000000000000000000000000000000000000000100380000000000000000000000000003808030000000000000000000000000000000000000000000000000000000000000000000000000000000000000000000000000000000000000000000000000000000000000000000000000000000000000000000000000000000000000000000000000000000000000000000000000000000000000000000000000000009f000000000000000000000000000000000000000000000000000000000000000000000000 r) :
    ∃ t, execAckRx a0 s = .next t ∧ Only p r s t := by
  unfold execAckRx
  refine ⟨_, rfl, ?_⟩
  have h : Only p r s s := Only.refl
  repeat' first
    | with_reducible assumption
    | with_reducible refine State.ackRx_only (Sub.trans rfl hp) (Sub.trans rfl hr) ?_

theorem State.claimTx_only {p r : Nat} {s x : State} (hp : Sub 4194568 p) (hr : Sub 0xe06000000000000000000000000000000000000000000000000000000000000000000000000000000000000000000000000000000000000000000000000000000000000000000000000000000000000000000000000000000000000000000000000000000000000000000000000000000000000000000000000000000000000000000000000000000000000000000000000000000000000000000000000000000000000000000000000000000000000000000000000000000000000005f800000000000000000000000000000000000000000000000000000000000000000000000 r) (h : Only p r s x) :
    Only p r s (State.claimTx x) := by
  unfold State.claimTx
  repeat' first
    | with_reducible assumption
    | with_reducible refine State.twSend_only (Sub.trans rfl hp) (Sub.trans rfl hr) ?_
    | with_reducible refine Only.ite ?_ ?_
    | split

theorem execTwCmdHandover_only {p r : Nat} {s : State} {a0 : _} (hp : Sub 655496 p) (hr : Sub 0x38080300000000000000000000000000000000000000000000000000000000000000000000000000000000000000000000000000000000000000000000000000000000000000000000000000000000000000000000000000000000000000000000000000000000000000000000000000000000000000000000000000000000000000000000000000000000000000000000000000000000000000000000000000000000 r) :
    ∃ t, execTwCmdHandover a0 s = .next t ∧ Only p r s t := by
  unfold execTwCmdHandover
  refine ⟨_, rfl, ?_⟩
  have h : Only p r s s := Only.refl
  repeat' first
    | with_reducible assumption
    | with_reducible refine State.twHandover_only (Sub.trans rfl hp) (Sub.trans rfl hr) ?_
    | with_reducible refine State.opAction_only (Sub.trans rfl hp) (Sub.trans rfl hr) ?_ ?_
    | intro _
    | dsimp only

theorem State.xferRx_only {p r : Nat} {s x : State} {a1 : _} (hp : Sub 4863752 p) (hr : Sub 0xe06000000000000000000000000000000000000000000000000000000000000000000000000000000000000000000100380000000000000000000000000003808030000000000000000000000000000000000000000000000000000000000000000000000000000000000000000000000000000000000000000000000000000000000000000000000000000000000000000000000000000000400000000000000000000000000000000000000000000000000000000000000000000009f000000000000000000000000000000000000000000000000000000000000000000000000 r) (h : Only p r s x) :
    Only p r s (State.xferRx x a1) := by
  unfold State.xferRx
  repeat' first
    | with_reducible assumption
    | with_reducible refine State.setPeer_only (Sub.trans rfl hp) (Sub.trans rfl hr) ?_
    | with_reducible refine State.loadUnit_only (Sub.trans rfl hp) (Sub.trans rfl hr) ?_
    | with_reducible refine State.updTw_only (Sub.trans rfl hp) (Sub.trans rfl hr) ?_
    | with_reducible refine State.twRx_only (Sub.trans rfl hp) (Sub.trans rfl hr) ?_ ?_
    | with_reducible refine Only.ite ?_ ?_
    | intro _
    | (extract_lets +onlyGivenNames y; first | (refine Only.cut (x := y) ?_ ?_; subst y; rotate_left; clear_value y; intro _) | clear_value y)
    | split
    | dsimp only

theorem execXferRx_only {p r : Nat} {s : State} {a0 : _} (hp : Sub 4863752 p) (hr : Sub 0xe06000000000000000000000000000000000000000000000000000000000000000000000000000000000000000000100380000000000000000000000000003808030000000000000000000000000000000000000000000000000000000000000000000000000000000000000000000000000000000000000000000000000000000000000000000000000000000000000000000000000000000400000000000000000000000000000000000000000000000000000000000000000000009f000000000000000000000000000000000000000000000000000000000000000000000000 r) :
    ∃ t, execXferRx a0 s = .next t ∧ Only p r s t := by
  unfold execXferRx
  refine ⟨_, rfl, ?_⟩
  have h : Only p r s s := Only.refl
  repeat' first
    | with_reducible assumption
    | with_reducible refine State.xferRx_only (Sub.trans rfl hp) (Sub.trans rfl hr) ?_

theorem execRenewalToken_only {p r : Nat} {s : State} (hp : Sub 524288 p) (hr : Sub 0 r) :
    ∃ t, execRenewalToken s = .next t ∧ Only p r s t := by
  unfold execRenewalToken
  refine ⟨_, rfl, ?_⟩
  have h : Only p r s s := Only.refl
  repeat' first
    | with_reducible assumption
    | with_reducible refine State.token_only (Sub.trans rfl hp) (Sub.trans rfl hr) ?_

end Sys2Proof.Machine
end

