-- ==== Sys2Proof/Laws/OnlyCycle.lean ====
section
/-! SUPPORT. Footprints of the operations of Machine/Cycle.lean. -/
namespace Sys2Proof.Machine
set_option linter.all false
set_option Elab.async false

theorem State.publish_only {p r : Nat} {s x : State} (hp : Sub 262148 p) (_hr : Sub 0 r) (h : Only p r s x) :
    Only p r s (State.publish x) := by
  unfold State.publish
  exact Only.upd_frozen (Sub.bits hp rfl) (State.swapKind_only (Sub.trans rfl hp) (Sub.trans rfl _hr) h) fun k _ => k

theorem State.advanceCopies_only {p r : Nat} {s x : State} {a1 : _} (hp : Sub 32 p) (hr : Sub 0 r) (h : Only p r s x) :
    Only p r s (State.advanceCopies x a1) := by
  unfold State.advanceCopies
  repeat' first
    | with_reducible assumption
    | with_reducible refine State.updTb_only (Sub.trans rfl hp) (Sub.trans rfl hr) ?_
    | intro _
    | (extract_lets +onlyGivenNames y; first | (refine Only.cut (x := y) ?_ ?_; subst y; rotate_left; clear_value y; intro _) | clear_value y)
    | dsimp only

theorem State.tickEnd_only {p r : Nat} {s x : State} (hp : Sub 2151809576 p) (hr : Sub 0xe060000000000000000000000000000000000000000000000000000000000000000000000000000000000000000000000000000000000000000000000000038080300000000000000000000000000000000000000000000000000000000000000000000000000000000000000000000000000000000000000000000000000000000000000000000000000000000000000000000000000000000000000000000000000000000000000000000000000000000000000000000000000000000000000000000000000000000000000033000016000000000000000000000000000000000 r) (h : Only p r s x) :
    Only p r s (State.tickEnd x) := by
  unfold State.tickEnd
  repeat' first
    | with_reducible assumption
    | with_reducible refine State.capSettle_only (Sub.trans rfl hp) (Sub.trans rfl hr) ?_
    | with_reducible refine State.corrRound_only (Sub.trans rfl hp) (Sub.trans rfl hr) ?_
    | with_reducible refine State.ssiSample_only (Sub.trans rfl hp) (Sub.trans rfl hr) ?_
    | with_reducible refine Only.foldl ?_ ?_
    | intro _
    | (extract_lets +onlyGivenNames y; first | (refine Only.cut (x := y) ?_ ?_; subst y; rotate_left; clear_value y; intro _) | clear_value y)
    | dsimp only
    | (first | (with_reducible refine Only.upd_view (Sub.bits hp rfl) ?_; first | with_reducible assumption | with_reducible refine State.capSettle_only (Sub.trans rfl hp) (Sub.trans rfl hr) ?_ | with_reducible refine State.corrRound_only (Sub.trans rfl hp) (Sub.trans rfl hr) ?_ | with_reducible refine State.ssiSample_only (Sub.trans rfl hp) (Sub.trans rfl hr) ?_))

theorem State.compareCopies_only {p r : Nat} {s x : State} {a1 : _} (hp : Sub 4194328 p) (hr : Sub 0xe060000000000000000000000000000000000000000000000000000000000000000000000000000000000000000000000000000000000000000000000000000000000000000000000000000000000000000000000000000000000000000000000000000000000000000000000000000000000000000000000000000000000000000000000000000000000000000000000000000000000000000000000000000000000000000000000000000000000000000000000000000000000000000000000000000000000000000000000000000000000000000000000000000000000000000 r) (h : Only p r s x) :
    Only p r s (State.compareCopies x a1) := by
  unfold State.compareCopies
  repeat' first
    | with_reducible assumption
    | with_reducible refine State.post_only (Sub.trans rfl hp) (Sub.trans rfl hr) ?_
    | with_reducible refine State.fatal_only (Sub.trans rfl hp) (Sub.trans rfl hr) ?_
    | with_reducible refine State.detect_only (Sub.trans rfl hp) (Sub.trans rfl hr) ?_ ?_
    | intro _
    | dsimp only

theorem State.ppsSkip_only {p r : Nat} {s x : State} (hp : Sub 32 p) (hr : Sub 0 r) (h : Only p r s x) :
    Only p r s (State.ppsSkip x) := by
  unfold State.ppsSkip
  repeat' first
    | with_reducible assumption
    | with_reducible refine State.updTb_only (Sub.trans rfl hp) (Sub.trans rfl hr) ?_
    | with_reducible refine Only.ite ?_ ?_
    | intro _
    | (extract_lets +onlyGivenNames y; first | (refine Only.cut (x := y) ?_ ?_; subst y; rotate_left; clear_value y; intro _) | clear_value y)
    | split
    | dsimp only

theorem State.monitorSamples_only {p r : Nat} {s x : State} (hp : Sub 8187281406 p) (hr : Sub 0x80001000000000000000000000008fce0000000000000000000000000000000000000e060000000000000000000000000000165f00000000000000000000000000400020000000000000000000000000000010000000000000000000000000000038080300000000000000000000000000000000000000000000000000000000000000000000000000000000000000000000000000000000000000000000000000000000000000000000000009fe007ffb0000000000000000000204000000000000000000000000000000000000000000000000000000000000000000000000000000000000000000000000000000000003800000000000000000000000000000000000 r) (h : Only p r s x) :
    Only p r s (State.monitorSamples x) := by
  unfold State.monitorSamples
  repeat' first
    | with_reducible assumption
    | with_reducible refine State.refLoss_only (Sub.trans rfl hp) (Sub.trans rfl hr) ?_
    | with_reducible refine State.detect_only (Sub.trans rfl hp) (Sub.trans rfl hr) ?_ ?_
    | with_reducible refine State.refReact_only (Sub.trans rfl hp) (Sub.trans rfl hr) ?_
    | with_reducible refine Only.snd (q := (State.inject _ _ _)) (by assumption) (State.inject_only (Sub.trans rfl hp) (Sub.trans rfl hr) ?_)
    | with_reducible refine State.inject_only (Sub.trans rfl hp) (Sub.trans rfl hr) ?_
    | with_reducible refine State.supplyOut_only (Sub.trans rfl hp) (Sub.trans rfl hr) ?_
    | with_reducible refine State.safetySamples_only (Sub.trans rfl hp) (Sub.trans rfl hr) ?_
    | with_reducible refine State.powerFail_only (Sub.trans rfl hp) (Sub.trans rfl hr) ?_
    | with_reducible refine State.oscFault_only (Sub.trans rfl hp) (Sub.trans rfl hr) ?_
    | with_reducible refine Only.ite ?_ ?_
    | intro _
    | (extract_lets +onlyGivenNames y; first | (refine Only.cut (x := y) ?_ ?_; subst y; rotate_left; clear_value y; intro _) | (refine Only.cut (x := y.1) ?_ ?_; subst y; rotate_left; clear_value y; intro _) | (refine Only.cut (x := y.2) ?_ ?_; subst y; rotate_left; clear_value y; intro _) | (refine Only.cut (x := y.2.2) ?_ ?_; subst y; rotate_left; clear_value y; intro _) | clear_value y)
    | split
    | dsimp only

theorem State.tickWork_only {p r : Nat} {s x : State} {a1 : _} (hp : Sub 8187281406 p) (hr : Sub 0x80001000000000000000000000008fce0000000000000000000000000000000000000e060000000000000000000000000000165f00000000000000000000000000400020000000000000000000000000000010000000000000000000000000000038080300000000000000000000000000000000000000000000000000000000000000000000000000000000000000000001c00000000000000000000000000000000000000000000000000009fe007ffb0000000000000000000204000000000000000000000000000000000000000000000000000000000000000000000000000000000000000000000000000000000003800000000000000000000000000000000000 r) (h : Only p r s x) :
    Only p r s (State.tickWork x a1) := by
  unfold State.tickWork
  repeat' first
    | with_reducible assumption
    | with_reducible refine State.advanceCopies_only (Sub.trans rfl hp) (Sub.trans rfl hr) ?_
    | with_reducible refine State.compareCopies_only (Sub.trans rfl hp) (Sub.trans rfl hr) ?_
    | with_reducible refine State.postTime_only (Sub.trans rfl hp) (Sub.trans rfl hr) ?_
    | with_reducible refine State.ppsSkip_only (Sub.trans rfl hp) (Sub.trans rfl hr) ?_
    | with_reducible refine State.driveEnables_only (Sub.trans rfl hp) (Sub.trans rfl hr) ?_
    | with_reducible refine State.ssiDrive_only (Sub.trans rfl hp) (Sub.trans rfl hr) ?_
    | with_reducible refine State.stepTick_only (Sub.trans rfl hp) (Sub.trans rfl hr) ?_
    | with_reducible refine State.eoTick_only (Sub.trans rfl hp) (Sub.trans rfl hr) ?_
    | with_reducible refine State.bvStatus_only (Sub.trans rfl hp) (Sub.trans rfl hr) ?_
    | with_reducible refine State.monitorSamples_only (Sub.trans rfl hp) (Sub.trans rfl hr) ?_
    | with_reducible refine Only.ite ?_ ?_
    | with_reducible refine Only.foldl ?_ ?_
    | intro _
    | (extract_lets +onlyGivenNames y; first | (refine Only.cut (x := y) ?_ ?_; subst y; rotate_left; clear_value y; intro _) | clear_value y)
    | split
    | dsimp only

theorem State.timeTick_only {p r : Nat} {s x : State} {a1 a2 : _} (hp : Sub 8187281406 p) (hr : Sub 0x80001000000000000000000000008fce0000000000000000000000000000000000000e060000000000000000000000000000165f00000000000000000000000000400020000000000000000000000000000010000000000000000000000000000038080300000000000000000000000000000000000000000000000000000000000000000000000000000000000000000001c00000000000000000000000000000000000000000000000000009fe007ffb0000000000000000000204000000000000000000000000000000000000000000000000000000000000000000000000000000000000000000000000000000033003816000000000000000000000000000000000 r) (h : Only p r s x) :
    Only p r s (State.timeTick x a1 a2) := by
  unfold State.timeTick
  repeat' first
    | with_reducible assumption
    | with_reducible refine State.tickEnd_only (Sub.trans rfl hp) (Sub.trans rfl hr) ?_
    | with_reducible refine State.updTb_only (Sub.trans rfl hp) (Sub.trans rfl hr) ?_
    | with_reducible refine State.strike_only (Sub.trans rfl hp) (Sub.trans rfl hr) ?_
    | with_reducible refine State.tickWork_only (Sub.trans rfl hp) (Sub.trans rfl hr) ?_
    | with_reducible refine Only.ite ?_ ?_
    | intro _
    | (extract_lets +onlyGivenNames y; first | (refine Only.cut (x := y) ?_ ?_; subst y; rotate_left; clear_value y; intro _) | clear_value y)
    | split
    | dsimp only

theorem execTimeBaseTick_only {p r : Nat} {s : State} {a0 a1 : _} (hp : Sub 8187281406 p) (hr : Sub 0x80001000000000000000000000008fce0000000000000000000000000000000000000e060000000000000000000000000000165f00000000000000000000000000400020000000000000000000000000000010000000000000000000000000000038080300000000000000000000000000000000000000000000000000000000000000000000000000000000000000000001c00000000000000000000000000000000000000000000000000009fe007ffb0000000000000000000204000000000000000000000000000000000000000000000000000000000000000000000000000000000000000000000000000000033003816000000000000000000000000000000000 r) :
    ∃ t, execTimeBaseTick a0 a1 s = .next t ∧ Only p r s t := by
  unfold execTimeBaseTick
  refine ⟨_, rfl, ?_⟩
  have h : Only p r s s := Only.refl
  repeat' first
    | with_reducible assumption
    | with_reducible refine State.timeTick_only (Sub.trans rfl hp) (Sub.trans rfl hr) ?_

theorem State.cycleEnd_only {p r : Nat} {s x : State} {a1 a2 : _} (hp : Sub 21715736 p) (hr : Sub 0xfc00000000000000000000000000000000000000e0600000000000000000000000000000000000000000000000000000000000000000000000000000000000000000033e6800000000000000000000000000038080300000000000000000000000000103f10000000000000000000000000000000000000000000000000000000000000000000000000000000000000000000000000000000000000000009fe007ffb00000000000000000002040000000000000000000000000000000000000000000000000000000000fc20000000005f800000000000000000000000000000000000000000000000000000000000000000000000 r) (h : Only p r s x) :
    Only p r s (State.cycleEnd x a1 a2).2 := by
  unfold State.cycleEnd
  repeat' first
    | with_reducible assumption
    | with_reducible refine State.twEnd_only (Sub.trans rfl hp) (Sub.trans rfl hr) ?_
    | with_reducible refine State.busEnd_only (Sub.trans rfl hp) (Sub.trans rfl hr) ?_
    | with_reducible refine State.mePassEnd_only (Sub.trans rfl hp) (Sub.trans rfl hr) ?_
    | with_reducible refine Only.set 333 R.CB_CYCLE_NOW_num (Sub.bits hr rfl) ?_
    | with_reducible refine Only.foldl ?_ ?_
    | with_reducible refine Only.foldl_fst ?_ ?_
    | with_reducible refine Only.foldl_snd ?_ ?_
    | intro _
    | (extract_lets +onlyGivenNames y; first | (refine Only.cut (x := y) ?_ ?_; subst y; rotate_left; clear_value y; intro _) | (refine Only.cut (x := y.1) ?_ ?_; subst y; rotate_left; clear_value y; intro _) | (refine Only.cut (x := y.2) ?_ ?_; subst y; rotate_left; clear_value y; intro _) | (refine Only.cut (x := y.2.2) ?_ ?_; subst y; rotate_left; clear_value y; intro _) | clear_value y)
    | dsimp only

theorem State.openCycle_only {p r : Nat} {s x : State} {a1 : _} (hp : Sub 64 p) (_hr : Sub 0 r) (h : Only p r s x) :
    Only p r s (State.openCycle x a1) := by
  unfold State.openCycle
  repeat' first
    | with_reducible assumption
    | (extract_lets +onlyGivenNames y; first | (refine Only.cut (x := y) ?_ ?_; subst y; rotate_left; clear_value y; intro _) | clear_value y)
    | (first | (with_reducible refine Only.upd_grid (Sub.bits hp rfl) ?_; first | with_reducible assumption))

theorem State.cycleWork_only {p r : Nat} {s x : State} {a1 a2 a3 : _} (hp : Sub 4454350744 p) (hr : Sub 0x18fc00000000000000000000000000000000000000e0600000000000000000000000000000800000000000000000000000000002007c000000000000000000000000000000000000000000000000000000000003808030000000000000000000000000c000070000000000000000000000003c61fe00e0000000000000000000000000000000000000000000000000000048100a00000000000000000000009fe007ffb0000000000000000000a4e100000000000311000000000000000001a0000000000000000000000000000000000005f800000000000000000000000000000000000000000000000000000000000000000000000 r) (h : Only p r s x) :
    Only p r s (State.cycleWork x a1 a2 a3) := by
  unfold State.cycleWork
  repeat' first
    | with_reducible assumption
    | with_reducible refine State.busStart_only (Sub.trans rfl hp) (Sub.trans rfl hr) ?_
    | with_reducible refine State.tillerBoundary_only (Sub.trans rfl hp) (Sub.trans rfl hr) ?_
    | with_reducible refine State.applyWant_only (Sub.trans rfl hp) (Sub.trans rfl hr) ?_
    | with_reducible refine State.applyHeld_only (Sub.trans rfl hp) (Sub.trans rfl hr) ?_
    | with_reducible refine State.demandsAgain_only (Sub.trans rfl hp) (Sub.trans rfl hr) ?_
    | with_reducible refine State.limitsAgain_only (Sub.trans rfl hp) (Sub.trans rfl hr) ?_
    | with_reducible refine State.heartbeat_only (Sub.trans rfl hp) (Sub.trans rfl hr) ?_
    | with_reducible refine State.mePassStart_only (Sub.trans rfl hp) (Sub.trans rfl hr) ?_
    | with_reducible refine State.meWake_only (Sub.trans rfl hp) (Sub.trans rfl hr) ?_
    | with_reducible refine State.eoCycle_only (Sub.trans rfl hp) (Sub.trans rfl hr) ?_
    | with_reducible refine State.claimTx_only (Sub.trans rfl hp) (Sub.trans rfl hr) ?_
    | with_reducible refine State.sweep_only (Sub.trans rfl hp) (Sub.trans rfl hr) ?_
    | with_reducible refine Only.foldl ?_ ?_
    | intro _
    | (extract_lets +onlyGivenNames y; first | (refine Only.cut (x := y) ?_ ?_; subst y; rotate_left; clear_value y; intro _) | clear_value y)
    | dsimp only

theorem State.boundary_only {p r : Nat} {s x : State} {a1 : _} (hp : Sub 4454350812 p) (hr : Sub 0x18fc00000000000000000000000000000000000000e0600000000000000000000000000000800000000000000000000000000002007c00000000000000000000000000033e680000000000000000000000000003808030000000000000000000000000c103f70000000000000000000000003c61fe00e0000000000000000000000000000000000000000000000000000048100a00000000000000000000009fe007ffb0000000000000000000a4e100000000000311000000000000000001a000000000000000000000000fc20000000005f800000000000000000000000000000000000000000000000000000000000000000000000 r) (h : Only p r s x) :
    Only p r s (State.boundary x a1) := by
  unfold State.boundary
  repeat' first
    | with_reducible assumption
    | with_reducible refine Only.snd (q := (State.cycleEnd _ _ _)) (by assumption) (State.cycleEnd_only (Sub.trans rfl hp) (Sub.trans rfl hr) ?_)
    | with_reducible refine State.cycleEnd_only (Sub.trans rfl hp) (Sub.trans rfl hr) ?_
    | with_reducible refine State.publish_only (Sub.trans rfl hp) (Sub.trans rfl hr) ?_
    | with_reducible refine State.openCycle_only (Sub.trans rfl hp) (Sub.trans rfl hr) ?_
    | with_reducible refine State.cycleWork_only (Sub.trans rfl hp) (Sub.trans rfl hr) ?_
    | (extract_lets +onlyGivenNames y; first | (refine Only.cut (x := y) ?_ ?_; subst y; rotate_left; clear_value y; intro _) | (refine Only.cut (x := y.1) ?_ ?_; subst y; rotate_left; clear_value y; intro _) | (refine Only.cut (x := y.2) ?_ ?_; subst y; rotate_left; clear_value y; intro _) | (refine Only.cut (x := y.2.2) ?_ ?_; subst y; rotate_left; clear_value y; intro _) | clear_value y)
    | split
    | dsimp only

theorem State.cycleBoundary_only {p r : Nat} {s x : State} (hp : Sub 4454350812 p) (hr : Sub 0x18fc00000000000000000000000000000000000000e0600000000000000000000000000000800000000000000000000000000002007c00000000000000000000000000033e680000000000000000000000000003808030000000000000000000000000c103f70000000000000000000000003c61fe00e0000000000000000000000000000000000000000000000000000048100a00000000000000000000009fe007ffb0000000000000000000a4e100000000000311000000000000000001a000000000000000000000000fc20000000005f800000000000000000000000000000000000000000000000000000000000000000000000 r) (h : Only p r s x) :
    Only p r s (State.cycleBoundary x) := by
  unfold State.cycleBoundary
  repeat' first
    | with_reducible assumption
    | with_reducible refine State.boundary_only (Sub.trans rfl hp) (Sub.trans rfl hr) ?_
    | with_reducible refine Only.ite ?_ ?_
    | split

theorem execCycleBoundary_only {p r : Nat} {s : State} (hp : Sub 4454350812 p) (hr : Sub 0x18fc00000000000000000000000000000000000000e0600000000000000000000000000000800000000000000000000000000002007c00000000000000000000000000033e680000000000000000000000000003808030000000000000000000000000c103f70000000000000000000000003c61fe00e0000000000000000000000000000000000000000000000000000048100a00000000000000000000009fe007ffb0000000000000000000a4e100000000000311000000000000000001a000000000000000000000000fc20000000005f800000000000000000000000000000000000000000000000000000000000000000000000 r) :
    ∃ t, execCycleBoundary s = .next t ∧ Only p r s t := by
  unfold execCycleBoundary
  refine ⟨_, rfl, ?_⟩
  have h : Only p r s s := Only.refl
  repeat' first
    | with_reducible assumption
    | with_reducible refine State.cycleBoundary_only (Sub.trans rfl hp) (Sub.trans rfl hr) ?_

theorem State.engineBoundary_only {p r : Nat} {s x : State} {a1 : _} (hp : Sub 8192 p) (hr : Sub 0 r) (h : Only p r s x) :
    Only p r s (State.engineBoundary x a1) := by
  unfold State.engineBoundary
  repeat' first
    | with_reducible assumption
    | with_reducible refine State.updEng_only (Sub.trans rfl hp) (Sub.trans rfl hr) ?_
    | with_reducible refine State.holdInputs_only (Sub.trans rfl hp) (Sub.trans rfl hr) ?_
    | with_reducible refine Only.ite ?_ ?_
    | intro _
    | (extract_lets +onlyGivenNames y; first | (refine Only.cut (x := y) ?_ ?_; subst y; rotate_left; clear_value y; intro _) | clear_value y)
    | split
    | dsimp only

theorem State.solverBoundary_only {p r : Nat} {s x : State} (hp : Sub 23880008 p) (hr : Sub 0xe060000000000000000000000000000002000000000000000000000000000000000000000000000000000000000000000000000000000000000000000000000000000000000000000000000000000000000000000000000000000000000000000000000000000000000000000003fe000010000000000000000000000000000000000000000000000000000000000000000000000000000000000000000000000000000000000000000000000000000000000000000000000000000005f800000000000000000000000000000000000000000000000000000000000000000000000 r) (h : Only p r s x) :
    Only p r s (State.solverBoundary x) := by
  unfold State.solverBoundary
  repeat' first
    | with_reducible assumption
    | with_reducible refine State.swapKind_only (Sub.trans rfl hp) (Sub.trans rfl hr) ?_
    | with_reducible refine State.sepBoundary_only (Sub.trans rfl hp) (Sub.trans rfl hr) ?_
    | with_reducible refine State.engineBoundary_only (Sub.trans rfl hp) (Sub.trans rfl hr) ?_
    | with_reducible refine State.ptSample_only (Sub.trans rfl hp) (Sub.trans rfl hr) ?_
    | with_reducible refine State.xferCapture_only (Sub.trans rfl hp) (Sub.trans rfl hr) ?_
    | with_reducible refine Only.ite ?_ ?_
    | with_reducible refine Only.foldl ?_ ?_
    | intro _
    | (extract_lets +onlyGivenNames y; first | (refine Only.cut (x := y) ?_ ?_; subst y; rotate_left; clear_value y; intro _) | clear_value y)
    | split
    | dsimp only
    | (first | (with_reducible refine Only.upd_grid (Sub.bits hp rfl) ?_; first | with_reducible assumption | with_reducible refine State.swapKind_only (Sub.trans rfl hp) (Sub.trans rfl hr) ?_ | with_reducible refine State.sepBoundary_only (Sub.trans rfl hp) (Sub.trans rfl hr) ?_ | with_reducible refine State.engineBoundary_only (Sub.trans rfl hp) (Sub.trans rfl hr) ?_ | with_reducible refine State.ptSample_only (Sub.trans rfl hp) (Sub.trans rfl hr) ?_ | with_reducible refine State.xferCapture_only (Sub.trans rfl hp) (Sub.trans rfl hr) ?_))

theorem execSolverPeriodBoundary_only {p r : Nat} {s : State} (hp : Sub 23880008 p) (hr : Sub 0xe060000000000000000000000000000002000000000000000000000000000000000000000000000000000000000000000000000000000000000000000000000000000000000000000000000000000000000000000000000000000000000000000000000000000000000000000003fe000010000000000000000000000000000000000000000000000000000000000000000000000000000000000000000000000000000000000000000000000000000000000000000000000000000005f800000000000000000000000000000000000000000000000000000000000000000000000 r) :
    ∃ t, execSolverPeriodBoundary s = .next t ∧ Only p r s t := by
  unfold execSolverPeriodBoundary
  refine ⟨_, rfl, ?_⟩
  have h : Only p r s s := Only.refl
  repeat' first
    | with_reducible assumption
    | with_reducible refine State.solverBoundary_only (Sub.trans rfl hp) (Sub.trans rfl hr) ?_

theorem State.windowEnd_only {p r : Nat} {s x : State} (hp : Sub 5243336 p) (hr : Sub 0x20000000000000000000000000000000000000000000000000000000000000000000000000000000000000000 r) (h : Only p r s x) :
    Only p r s (State.windowEnd x) := by
  unfold State.windowEnd
  repeat' first
    | with_reducible assumption
    | with_reducible refine State.busWindow_only (Sub.trans rfl hp) (Sub.trans rfl hr) ?_
    | with_reducible refine State.injWindow_only (Sub.trans rfl hp) (Sub.trans rfl hr) ?_
    | with_reducible refine State.lostWindow_only (Sub.trans rfl hp) (Sub.trans rfl hr) ?_
    | (extract_lets +onlyGivenNames y; first | (refine Only.cut (x := y) ?_ ?_; subst y; rotate_left; clear_value y; intro _) | clear_value y)
    | dsimp only
    | (first | (with_reducible refine Only.upd_grid_once (Sub.bits hp rfl) (Sub.bits hp rfl) ?_; first | with_reducible assumption | with_reducible refine State.busWindow_only (Sub.trans rfl hp) (Sub.trans rfl hr) ?_ | with_reducible refine State.injWindow_only (Sub.trans rfl hp) (Sub.trans rfl hr) ?_ | with_reducible refine State.lostWindow_only (Sub.trans rfl hp) (Sub.trans rfl hr) ?_))

theorem State.wedgeBoundary_only {p r : Nat} {s x : State} (hp : Sub 20971528 p) (hr : Sub 0x180000000000000000000000000000000000000000e060000000000000000000000000000000000000000000000000000000000000000000000000000000000000000000020000000000000000000000000000000000000000000000000000000000000000000000000000000000000000000000000000000000000000000000000000000000000000000000000000000000000000000000000000000000000000000000000000000000000000000000000000000000000000000000000000000000000000000000000000000000000000000000000000000000000000000000000000000000000000000000000000000000000000000 r) (h : Only p r s x) :
    Only p r s (State.wedgeBoundary x) := by
  unfold State.wedgeBoundary
  repeat' first
    | with_reducible assumption
    | with_reducible refine State.heartbeat_only (Sub.trans rfl hp) (Sub.trans rfl hr) ?_
    | with_reducible refine Only.inc 1421 R.TW_LEASE_STAT_SINCE_RENEW_num (Sub.bits hr rfl) ?_
    | with_reducible refine Only.ite ?_ ?_
    | (extract_lets +onlyGivenNames y; first | (refine Only.cut (x := y) ?_ ?_; subst y; rotate_left; clear_value y; intro _) | clear_value y)
    | split
    | dsimp only

theorem execWedgeSafeBoundary_only {p r : Nat} {s : State} (hp : Sub 20971528 p) (hr : Sub 0x180000000000000000000000000000000000000000e060000000000000000000000000000000000000000000000000000000000000000000000000000000000000000000020000000000000000000000000000000000000000000000000000000000000000000000000000000000000000000000000000000000000000000000000000000000000000000000000000000000000000000000000000000000000000000000000000000000000000000000000000000000000000000000000000000000000000000000000000000000000000000000000000000000000000000000000000000000000000000000000000000000000000000 r) :
    ∃ t, execWedgeSafeBoundary s = .next t ∧ Only p r s t := by
  unfold execWedgeSafeBoundary
  refine ⟨_, rfl, ?_⟩
  have h : Only p r s s := Only.refl
  repeat' first
    | with_reducible assumption
    | with_reducible refine State.wedgeBoundary_only (Sub.trans rfl hp) (Sub.trans rfl hr) ?_

theorem State.windowBoundary_only {p r : Nat} {s x : State} (hp : Sub 5243336 p) (hr : Sub 0x20000000000000000000000000000000000000000000000000000000000000000000000000000000000000000 r) (h : Only p r s x) :
    Only p r s (State.windowBoundary x) := by
  unfold State.windowBoundary
  repeat' first
    | with_reducible assumption
    | with_reducible refine State.windowEnd_only (Sub.trans rfl hp) (Sub.trans rfl hr) ?_
    | with_reducible refine Only.ite ?_ ?_
    | (extract_lets +onlyGivenNames y; first | (refine Only.cut (x := y) ?_ ?_; subst y; rotate_left; clear_value y; intro _) | clear_value y)
    | split
    | dsimp only
    | (first | (with_reducible refine Only.upd_grid (Sub.bits hp rfl) ?_; first | with_reducible assumption | with_reducible refine State.windowEnd_only (Sub.trans rfl hp) (Sub.trans rfl hr) ?_))

theorem execWindowBoundary_only {p r : Nat} {s : State} (hp : Sub 5243336 p) (hr : Sub 0x20000000000000000000000000000000000000000000000000000000000000000000000000000000000000000 r) :
    ∃ t, execWindowBoundary s = .next t ∧ Only p r s t := by
  unfold execWindowBoundary
  refine ⟨_, rfl, ?_⟩
  have h : Only p r s s := Only.refl
  repeat' first
    | with_reducible assumption
    | with_reducible refine State.windowBoundary_only (Sub.trans rfl hp) (Sub.trans rfl hr) ?_

end Sys2Proof.Machine
end

