-- ==== Sys2Proof/Laws/OnlyCell.lean ====
section
/-! SUPPORT. Footprints of the operations of Machine/Cell.lean. -/
namespace Sys2Proof.Machine
set_option linter.all false
set_option Elab.async false

theorem State.groupOn_only {p r : Nat} {s x : State} {a1 : _} (hp : Sub 2048 p) (hr : Sub 0 r) (h : Only p r s x) :
    Only p r s (State.groupOn x a1) := by
  unfold State.groupOn
  repeat' first
    | with_reducible assumption
    | with_reducible refine State.updGroup_only (Sub.trans rfl hp) (Sub.trans rfl hr) ?_
    | intro _
    | dsimp only

theorem State.commitsOff_only {p r : Nat} {s x : State} (hp : Sub 262144 p) (_hr : Sub 0 r) (h : Only p r s x) :
    Only p r s (State.commitsOff x) := by
  unfold State.commitsOff
  repeat' first
    | with_reducible assumption
    | with_reducible refine Only.ite ?_ ?_
    | intro _
    | (extract_lets +onlyGivenNames y; first | (refine Only.cut (x := y) ?_ ?_; subst y; rotate_left; clear_value y; intro _) | (have q : Granary := y; clear q; subst y) | clear_value y)
    | split
    | dsimp only
    | (first | (with_reducible refine Only.upd_gr (Sub.bits hp rfl) ?_; first | with_reducible assumption))

theorem State.dropServo_only {p r : Nat} {s x : State} {a1 : _} (hp : Sub 133128 p) (hr : Sub 0x38080300000000000000000000000000000000000000000000000000000000000000000000000000000000000000000000000000000000000000000000000000000000000000000000000000000000000000000000000000000000000000000000000000000000000000000000000000000000000000000000000000000000000000000000000000000000000000000000000000000000000000000000000000000000 r) (h : Only p r s x) :
    Only p r s (State.dropServo x a1) := by
  unfold State.dropServo
  repeat' first
    | with_reducible assumption
    | with_reducible refine State.complete3_only (Sub.trans rfl hp) (Sub.trans rfl hr) ?_
    | with_reducible refine State.updGroup_only (Sub.trans rfl hp) (Sub.trans rfl hr) ?_
    | with_reducible refine Only.foldl ?_ ?_
    | intro _
    | (extract_lets +onlyGivenNames y; first | (refine Only.cut (x := y) ?_ ?_; subst y; rotate_left; clear_value y; intro _) | clear_value y)
    | dsimp only

theorem State.jointDisabled_only {p r : Nat} {s x : State} {a1 : _} (hp : Sub 1024 p) (hr : Sub 0x204000000000000000000000000000000000000000000000000000000000000000000000000000000000000000000000000000000000000000000000000000000000000000000000000 r) (h : Only p r s x) :
    Only p r s (State.jointDisabled x a1) := by
  unfold State.jointDisabled
  repeat' first
    | with_reducible assumption
    | with_reducible refine State.setJoint_only (Sub.trans rfl hp) (Sub.trans rfl hr) ?_
    | with_reducible refine Only.ite ?_ ?_
    | split

theorem State.genDisabled_only {p r : Nat} {s x : State} {a1 : _} (hp : Sub 135176 p) (hr : Sub 0x38080300000000000000000000000000000000000000000000000000000000000000000000000000000000000000000000000000000000000000000000000000000000000000000000000000000040390000000000000000000000000000000000000000000000000000000000000000000000000000000000000000000000000000000000000000000000000000000000000000000000000000000000000000000000 r) (h : Only p r s x) :
    Only p r s (State.genDisabled x a1) := by
  unfold State.genDisabled
  repeat' first
    | with_reducible assumption
    | with_reducible refine State.trackGen_only (Sub.trans rfl hp) (Sub.trans rfl hr) ?_
    | with_reducible refine State.dropMoves_only (Sub.trans rfl hp) (Sub.trans rfl hr) ?_
    | with_reducible refine State.setGen_only (Sub.trans rfl hp) (Sub.trans rfl hr) ?_
    | with_reducible refine Only.ite ?_ ?_
    | (extract_lets +onlyGivenNames y; first | (refine Only.cut (x := y) ?_ ?_; subst y; rotate_left; clear_value y; intro _) | clear_value y)
    | split
    | dsimp only

theorem State.stopUnits_only {p r : Nat} {s x : State} (hp : Sub 1023240 p) (hr : Sub 0x20800000000000000000000000000038080300000000000000000000000000003f1000000000000000000000000000000c000000000000000000000000000000000000000000000000000000000000000000000000000000000009fe007ffb0000000000000000000204000000000000000000000000000000000000000000000000000000002000000000060000000000000000000000000000000000000000018000000000000000000000000000000000 r) (h : Only p r s x) :
    Only p r s (State.stopUnits x) := by
  unfold State.stopUnits
  repeat' first
    | with_reducible assumption
    | with_reducible refine State.dropServo_only (Sub.trans rfl hp) (Sub.trans rfl hr) ?_
    | with_reducible refine State.rearmStep_only (Sub.trans rfl hp) (Sub.trans rfl hr) ?_
    | with_reducible refine State.busDisable_only (Sub.trans rfl hp) (Sub.trans rfl hr) ?_
    | with_reducible refine State.jointDisabled_only (Sub.trans rfl hp) (Sub.trans rfl hr) ?_
    | with_reducible refine State.genDisabled_only (Sub.trans rfl hp) (Sub.trans rfl hr) ?_
    | with_reducible refine State.driveEnables_only (Sub.trans rfl hp) (Sub.trans rfl hr) ?_
    | with_reducible refine State.meDisable_only (Sub.trans rfl hp) (Sub.trans rfl hr) ?_
    | with_reducible refine State.schedStop_only (Sub.trans rfl hp) (Sub.trans rfl hr) ?_
    | with_reducible refine State.twDisable_only (Sub.trans rfl hp) (Sub.trans rfl hr) ?_
    | with_reducible refine State.commitsOff_only (Sub.trans rfl hp) (Sub.trans rfl hr) ?_
    | with_reducible refine Only.foldl ?_ ?_
    | intro _
    | (extract_lets +onlyGivenNames y; first | (refine Only.cut (x := y) ?_ ?_; subst y; rotate_left; clear_value y; intro _) | clear_value y)
    | dsimp only

theorem State.loadTiller_only {p r : Nat} {s x : State} {a1 : _} (hp : Sub 1024 p) (hr : Sub 0xf00000000000001c00000000000000000000000000000000000000000000000000000000000000000000000000000000000000000000000000000000000000000000000000000000 r) (h : Only p r s x) :
    Only p r s (State.loadTiller x a1) := by
  unfold State.loadTiller
  repeat' first
    | with_reducible assumption
    | with_reducible refine State.updTil_only (Sub.trans rfl hp) (Sub.trans rfl hr) ?_
    | with_reducible refine Only.set 514 R.TL_BUDGET_B_NS_num (Sub.bits hr rfl) ?_
    | with_reducible refine Only.set 515 R.TL_BUDGET_INSN_COUNT_num (Sub.bits hr rfl) ?_
    | with_reducible refine Only.set 516 R.TL_STAT_STATE_num (Sub.bits hr rfl) ?_
    | with_reducible refine Only.set 572 R.TL_GAIN_REGION_REGION_num (Sub.bits hr rfl) ?_
    | with_reducible refine Only.set 573 R.TL_GAIN_REGION_SELECTED_num (Sub.bits hr rfl) ?_
    | with_reducible refine Only.set 574 R.TL_GAIN_REGION_BAND0_num (Sub.bits hr rfl) ?_
    | with_reducible refine Only.set 575 R.TL_GAIN_REGION_BAND1_num (Sub.bits hr rfl) ?_
    | with_reducible refine Only.ite ?_ ?_
    | intro _
    | (extract_lets +onlyGivenNames y; first | (refine Only.cut (x := y) ?_ ?_; subst y; rotate_left; clear_value y; intro _) | clear_value y)
    | split
    | dsimp only

theorem State.checkOver_only {p r : Nat} {s x : State} {a1 : _} (hp : Sub 131072 p) (hr : Sub 0x60000 r) (h : Only p r s x) :
    Only p r s (State.checkOver x a1) := by
  unfold State.checkOver
  repeat' first
    | with_reducible assumption
    | with_reducible refine Only.set 17 R.SYS_CHECK_STAT_LAST_US_num (Sub.bits hr rfl) ?_
    | with_reducible refine Only.inc 18 R.SYS_CHECK_STAT_CHECKS_num (Sub.bits hr rfl) ?_
    | with_reducible refine State.sendVec_only (Sub.trans rfl hp) (Sub.trans rfl hr) ?_
    | with_reducible refine Only.ite ?_ ?_
    | (extract_lets +onlyGivenNames y; first | (refine Only.cut (x := y) ?_ ?_; subst y; rotate_left; clear_value y; intro _) | clear_value y)
    | split
    | dsimp only

theorem State.gridOff_only {p r : Nat} {s x : State} (hp : Sub 5243336 p) (hr : Sub 0x20000000000000000000000000000000000000000000000000000000000000000000000000000000000000000 r) (h : Only p r s x) :
    Only p r s (State.gridOff x) := by
  unfold State.gridOff
  repeat' first
    | with_reducible assumption
    | with_reducible refine State.windowEnd_only (Sub.trans rfl hp) (Sub.trans rfl hr) ?_
    | (extract_lets +onlyGivenNames y; first | (refine Only.cut (x := y) ?_ ?_; subst y; rotate_left; clear_value y; intro _) | clear_value y)
    | dsimp only
    | (first | (with_reducible refine Only.upd_grid (Sub.bits hp rfl) ?_; first | with_reducible assumption | with_reducible refine State.windowEnd_only (Sub.trans rfl hp) (Sub.trans rfl hr) ?_))

theorem State.checkFail_only {p r : Nat} {s x : State} {a1 a2 a3 : _} (hp : Sub 131080 p) (hr : Sub 0x7d000 r) (h : Only p r s x) :
    Only p r s (State.checkFail x a1 a2 a3) := by
  unfold State.checkFail
  repeat' first
    | with_reducible assumption
    | with_reducible refine Only.set 14 R.SYS_CELL_STATUS_STATE_num (Sub.bits hr rfl) ?_
    | with_reducible refine Only.setBit 12 R.SYS_CELL_CTRL_EN_num (Sub.bits hr rfl) ?_
    | with_reducible refine Only.set 15 R.SYS_CELL_STATUS_REASON_num (Sub.bits hr rfl) ?_
    | with_reducible refine Only.set 16 R.SYS_CELL_STATUS_LOCUS_num (Sub.bits hr rfl) ?_
    | with_reducible refine State.updHi_only (Sub.trans rfl hp) (Sub.trans rfl hr) ?_
    | with_reducible refine State.checkOver_only (Sub.trans rfl hp) (Sub.trans rfl hr) ?_
    | with_reducible refine State.post_only (Sub.trans rfl hp) (Sub.trans rfl hr) ?_
    | intro _
    | (extract_lets +onlyGivenNames y; first | (refine Only.cut (x := y) ?_ ?_; subst y; rotate_left; clear_value y; intro _) | clear_value y)
    | dsimp only

theorem State.startDisable_only {p r : Nat} {s x : State} (hp : Sub 134354952 p) (hr : Sub 0x38080300000000000000000000000000000000000000000000000000000000000000000000000000000000000000000000000000000000000000000000000000000000000000000000000009fe007ffb0000000000000000000000000000000000000000000000000000000000000000000000000000000000000000000000000000000000000000000000000000000000000000000000000000000000000000004000 r) (h : Only p r s x) :
    Only p r s (State.startDisable x) := by
  unfold State.startDisable
  repeat' first
    | with_reducible assumption
    | with_reducible refine Only.set 14 R.SYS_CELL_STATUS_STATE_num (Sub.bits hr rfl) ?_
    | with_reducible refine State.draw_only (Sub.trans rfl hp) (Sub.trans rfl hr) ?_
    | with_reducible refine State.driveEnables_only (Sub.trans rfl hp) (Sub.trans rfl hr) ?_
    | with_reducible refine State.updHi_only (Sub.trans rfl hp) (Sub.trans rfl hr) ?_
    | with_reducible refine State.wantStop_only (Sub.trans rfl hp) (Sub.trans rfl hr) ?_
    | with_reducible refine Only.foldl ?_ ?_
    | intro _
    | (extract_lets +onlyGivenNames y; first | (refine Only.cut (x := y) ?_ ?_; subst y; rotate_left; clear_value y; intro _) | clear_value y)
    | dsimp only

theorem State.cellOff_only {p r : Nat} {s x : State} (hp : Sub 134354952 p) (hr : Sub 0x38080300000000000000000000000000000000000000000000000000000000000000000000000000000000000000000000000000000000000000000000000000000000000000000000000009fe007ffb000000000000000000000000000000000000000000000000000000000000000000000000000000000000000000000000000000000000000000000000000000000000000000000000000000000000000007d000 r) (h : Only p r s x) :
    Only p r s (State.cellOff x) := by
  unfold State.cellOff
  repeat' first
    | with_reducible assumption
    | with_reducible refine State.checkFail_only (Sub.trans rfl hp) (Sub.trans rfl hr) ?_
    | with_reducible refine State.startDisable_only (Sub.trans rfl hp) (Sub.trans rfl hr) ?_
    | (extract_lets +onlyGivenNames y; first | (refine Only.cut (x := y) ?_ ?_; subst y; rotate_left; clear_value y; intro _) | clear_value y)
    | split
    | dsimp only

theorem State.becomeDisabled_only {p r : Nat} {s x : State} (hp : Sub 6266312 p) (hr : Sub 0x20800000000000000000000000000038080300000000000000000000000000003f1000000000000000000000000000000c000000000000000000000000000000000000000000000000000000000000000000000000000000000009fe007ffb0000000000000000000204000000000000000000000000000000000000000000000000000000022000000000060000000000000000000000000000000000000000018000000000000000000000000000005000 r) (h : Only p r s x) :
    Only p r s (State.becomeDisabled x) := by
  unfold State.becomeDisabled
  repeat' first
    | with_reducible assumption
    | with_reducible refine Only.set 14 R.SYS_CELL_STATUS_STATE_num (Sub.bits hr rfl) ?_
    | with_reducible refine Only.setBit 12 R.SYS_CELL_CTRL_EN_num (Sub.bits hr rfl) ?_
    | with_reducible refine State.stopUnits_only (Sub.trans rfl hp) (Sub.trans rfl hr) ?_
    | with_reducible refine State.gridOff_only (Sub.trans rfl hp) (Sub.trans rfl hr) ?_
    | with_reducible refine State.post_only (Sub.trans rfl hp) (Sub.trans rfl hr) ?_
    | (extract_lets +onlyGivenNames y; first | (refine Only.cut (x := y) ?_ ?_; subst y; rotate_left; clear_value y; intro _) | clear_value y)
    | dsimp only

theorem State.disableExpiry_only {p r : Nat} {s x : State} (hp : Sub 23059912 p) (hr : Sub 0xfc000000000000000000000000000000000000000000000000000000000000000000000000000000000000000000000000000000000000000000000000000000000000020800000000000000000000000000038080300000000000000000000000000003f1000000000000000000000000000000c000000000000000000000000000000000000000000000000000000000000000000000000000000000009fe007ffb0000000000000000000204000000000000000000000000000000000000000000000000000000022000000000060000000000000000000000000000000000000000018000000000000000000000000000005000 r) (h : Only p r s x) :
    Only p r s (State.disableExpiry x) := by
  unfold State.disableExpiry
  repeat' first
    | with_reducible assumption
    | with_reducible refine State.assertAll_only (Sub.trans rfl hp) (Sub.trans rfl hr) ?_
    | with_reducible refine State.becomeDisabled_only (Sub.trans rfl hp) (Sub.trans rfl hr) ?_
    | with_reducible refine Only.ite ?_ ?_
    | split

theorem execDisableTimeout_only {p r : Nat} {s : State} (hp : Sub 23059912 p) (hr : Sub 0xfc000000000000000000000000000000000000000000000000000000000000000000000000000000000000000000000000000000000000000000000000000000000000020800000000000000000000000000038080300000000000000000000000000003f1000000000000000000000000000000c000000000000000000000000000000000000000000000000000000000000000000000000000000000009fe007ffb0000000000000000000204000000000000000000000000000000000000000000000000000000022000000000060000000000000000000000000000000000000000018000000000000000000000000000005000 r) :
    ∃ t, execDisableTimeout s = .next t ∧ Only p r s t := by
  unfold execDisableTimeout
  refine ⟨_, rfl, ?_⟩
  have h : Only p r s s := Only.refl
  repeat' first
    | with_reducible assumption
    | with_reducible refine State.disableExpiry_only (Sub.trans rfl hp) (Sub.trans rfl hr) ?_

theorem State.showTests_only {p r : Nat} {s x : State} (hp : Sub 0 p) (hr : Sub 0x3a00000000000000000000000000000000000000000000000000000000000000000000000000000000000000000000000000000000000000000000000000000000000000000000000000000000000000000000000000000000000000000000000000000000000000000000000000000000000000000000000000000000000000000 r) (h : Only p r s x) :
    Only p r s (State.showTests x) := by
  unfold State.showTests
  repeat' first
    | with_reducible assumption
    | with_reducible refine State.showUtil_only (Sub.trans rfl hp) (Sub.trans rfl hr) ?_
    | with_reducible refine State.showDbf_only (Sub.trans rfl hp) (Sub.trans rfl hr) ?_
    | with_reducible refine Only.ite ?_ ?_
    | intro _
    | (extract_lets +onlyGivenNames y; first | (refine Only.cut (x := y) ?_ ?_; subst y; rotate_left; clear_value y; intro _) | clear_value y)
    | split
    | dsimp only

theorem State.startCheck_only {p r : Nat} {s x : State} (hp : Sub 131072 p) (hr : Sub 0x10000000000000000000000000000000000000000000000000000000000000000000000000000000000000000000000000003a00000000000000000000000000000000000000000000000000000000000000000000000000000000000000000000000000000000000000000000000000000000000000000000000000000000000000000000000000000000000000000000000000000000000000000000000000000000000000000000000000000000000005000 r) (h : Only p r s x) :
    Only p r s (State.startCheck x) := by
  unfold State.startCheck
  repeat' first
    | with_reducible assumption
    | with_reducible refine Only.set 14 R.SYS_CELL_STATUS_STATE_num (Sub.bits hr rfl) ?_
    | with_reducible refine Only.setBit 12 R.SYS_CELL_CTRL_EN_num (Sub.bits hr rfl) ?_
    | with_reducible refine Only.set 1432 R.TW_OWN_DIGEST_num (Sub.bits hr rfl) ?_
    | with_reducible refine State.updHi_only (Sub.trans rfl hp) (Sub.trans rfl hr) ?_
    | with_reducible refine State.showTests_only (Sub.trans rfl hp) (Sub.trans rfl hr) ?_
    | intro _
    | (extract_lets +onlyGivenNames y; first | (refine Only.cut (x := y) ?_ ?_; subst y; rotate_left; clear_value y; intro _) | clear_value y)
    | dsimp only

theorem State.cellOn_only {p r : Nat} {s x : State} (hp : Sub 131080 p) (hr : Sub 0x10000000000000000000000000000000000000000000000000000000000000000000000000000000000000000000000000003a00000000000000000000000000000000000000000000000000000000000000000000000000000000000000000000000000000000000000000000000000000000000000000000000000000000000000000000000000000000000000000000000000000000000000000000000000000000000000000000000000000000000005000 r) (h : Only p r s x) :
    Only p r s (State.cellOn x) := by
  unfold State.cellOn
  repeat' first
    | with_reducible assumption
    | with_reducible refine State.ignored_only (Sub.trans rfl hp) (Sub.trans rfl hr) ?_
    | with_reducible refine State.startCheck_only (Sub.trans rfl hp) (Sub.trans rfl hr) ?_
    | with_reducible refine Only.ite ?_ ?_
    | split

theorem State.sepEnable_only {p r : Nat} {s x : State} (hp : Sub 16384 p) (_hr : Sub 0 r) (h : Only p r s x) :
    Only p r s (State.sepEnable x) := by
  unfold State.sepEnable
  repeat' first
    | with_reducible assumption
    | (extract_lets +onlyGivenNames y; first | (refine Only.cut (x := y) ?_ ?_; subst y; rotate_left; clear_value y; intro _) | clear_value y)
    | (first | (with_reducible refine Only.upd_sep (Sub.bits hp rfl) ?_; first | with_reducible assumption))

theorem State.loadEngine_only {p r : Nat} {s x : State} {a1 : _} (hp : Sub 8192 p) (hr : Sub 0x7e0000000000000000000000000000000000000000000000000000000000000000000000000000000000000000000000000000000000000000000000000000000000000000000000000000000000000000000000000000000000000000000000000 r) (h : Only p r s x) :
    Only p r s (State.loadEngine x a1) := by
  unfold State.loadEngine
  repeat' first
    | with_reducible assumption
    | with_reducible refine State.updEng_only (Sub.trans rfl hp) (Sub.trans rfl hr) ?_
    | with_reducible refine Only.set 773 R.SV_DIM_NJ_num (Sub.bits hr rfl) ?_
    | with_reducible refine Only.set 774 R.SV_DIM_N_num (Sub.bits hr rfl) ?_
    | with_reducible refine Only.set 775 R.SV_DIM_M_num (Sub.bits hr rfl) ?_
    | with_reducible refine Only.set 776 R.SV_DIM_V_num (Sub.bits hr rfl) ?_
    | with_reducible refine Only.set 777 R.SV_BUDGET_num (Sub.bits hr rfl) ?_
    | with_reducible refine Only.set 778 R.SV_SCRATCH_WORDS_num (Sub.bits hr rfl) ?_
    | with_reducible refine Only.ite ?_ ?_
    | intro _
    | (extract_lets +onlyGivenNames y; first | (refine Only.cut (x := y) ?_ ?_; subst y; rotate_left; clear_value y; intro _) | clear_value y)
    | split
    | dsimp only

theorem State.loadUnits_only {p r : Nat} {s x : State} (hp : Sub 9216 p) (hr : Sub 0x7e0000000000000000000000000000000000000000000000000f00000000000001c00000000000000000000000000000000000000000000000000000000000000000000000000000000000000000000000000000000000000000000000000000000 r) (h : Only p r s x) :
    Only p r s (State.loadUnits x) := by
  unfold State.loadUnits
  repeat' first
    | with_reducible assumption
    | with_reducible refine State.loadEngine_only (Sub.trans rfl hp) (Sub.trans rfl hr) ?_
    | with_reducible refine State.loadTiller_only (Sub.trans rfl hp) (Sub.trans rfl hr) ?_
    | with_reducible refine Only.foldl ?_ ?_
    | intro _

theorem State.disableDone_only {p r : Nat} {s x : State} (hp : Sub 6266312 p) (hr : Sub 0x20800000000000000000000000000038080300000000000000000000000000003f1000000000000000000000000000000c000000000000000000000000000000000000000000000000000000000000000000000000000000000009fe007ffb0000000000000000000204000000000000000000000000000000000000000000000000000000022000000000060000000000000000000000000000000000000000018000000000000000000000000000005000 r) (h : Only p r s x) :
    Only p r s (State.disableDone x) := by
  unfold State.disableDone
  repeat' first
    | with_reducible assumption
    | with_reducible refine State.becomeDisabled_only (Sub.trans rfl hp) (Sub.trans rfl hr) ?_
    | with_reducible refine Only.ite ?_ ?_
    | split

theorem execDisableComplete_only {p r : Nat} {s : State} (hp : Sub 6266312 p) (hr : Sub 0x20800000000000000000000000000038080300000000000000000000000000003f1000000000000000000000000000000c000000000000000000000000000000000000000000000000000000000000000000000000000000000009fe007ffb0000000000000000000204000000000000000000000000000000000000000000000000000000022000000000060000000000000000000000000000000000000000018000000000000000000000000000005000 r) :
    ∃ t, execDisableComplete s = .next t ∧ Only p r s t := by
  unfold execDisableComplete
  refine ⟨_, rfl, ?_⟩
  have h : Only p r s s := Only.refl
  repeat' first
    | with_reducible assumption
    | with_reducible refine State.disableDone_only (Sub.trans rfl hp) (Sub.trans rfl hr) ?_

theorem State.clearPublications_only {p r : Nat} {s x : State} (hp : Sub 262144 p) (_hr : Sub 0 r) (h : Only p r s x) :
    Only p r s (State.clearPublications x) :=
  Only.upd_gr (Sub.bits hp rfl) h fun k => ⟨Tab.wf_filter _ k.1, Tab.wf_filter _ k.2⟩

theorem State.genOn_only {p r : Nat} {s x : State} {a1 : _} (hp : Sub 4096 p) (hr : Sub 0x10000000000000000000000000000000000000000000000000000000000000000000000000000000000000000000000000000000000000000000000000000000000000000000000000000000000000000000000 r) (h : Only p r s x) :
    Only p r s (State.genOn x a1) := by
  unfold State.genOn
  repeat' first
    | with_reducible assumption
    | with_reducible refine State.loadLimits_only (Sub.trans rfl hp) (Sub.trans rfl hr) ?_
    | with_reducible refine State.setGen_only (Sub.trans rfl hp) (Sub.trans rfl hr) ?_
    | with_reducible refine Only.ite ?_ ?_
    | split

theorem State.jointOn_only {p r : Nat} {s x : State} {a1 : _} (hp : Sub 1024 p) (hr : Sub 0x204000000000000000000000000000000000000000000000000000000000000000000000000000000000000000000000000000000000000000000000000000000000000000000000000 r) (h : Only p r s x) :
    Only p r s (State.jointOn x a1) := by
  unfold State.jointOn
  repeat' first
    | with_reducible assumption
    | with_reducible refine State.setJoint_only (Sub.trans rfl hp) (Sub.trans rfl hr) ?_
    | with_reducible refine State.jointOff_only (Sub.trans rfl hp) (Sub.trans rfl hr) ?_
    | with_reducible refine Only.ite ?_ ?_
    | (extract_lets +onlyGivenNames y; first | (refine Only.cut (x := y) ?_ ?_; subst y; rotate_left; clear_value y; intro _) | clear_value y)
    | split
    | dsimp only

theorem State.startUnits_only {p r : Nat} {s x : State} (hp : Sub 17686272 p) (hr : Sub 0x48000000000000000000000000000000000000000000000000000000000000000f000000000000000000000000000000c000000000000000000000000000000000000000000000000000000000000000000000000000000000000000000010000000000000000000204000000000000000000000000000000000000001fffe00000000000000000000000060000000000000000000000000000000000000000000000000000000000000000000000000000 r) (h : Only p r s x) :
    Only p r s (State.startUnits x) := by
  unfold State.startUnits
  repeat' first
    | with_reducible assumption
    | with_reducible refine State.clearPublications_only (Sub.trans rfl hp) (Sub.trans rfl hr) ?_
    | with_reducible refine State.sepEnable_only (Sub.trans rfl hp) (Sub.trans rfl hr) ?_
    | with_reducible refine State.groupOn_only (Sub.trans rfl hp) (Sub.trans rfl hr) ?_
    | with_reducible refine State.busEnable_only (Sub.trans rfl hp) (Sub.trans rfl hr) ?_
    | with_reducible refine State.chanEnable_only (Sub.trans rfl hp) (Sub.trans rfl hr) ?_
    | with_reducible refine State.genOn_only (Sub.trans rfl hp) (Sub.trans rfl hr) ?_
    | with_reducible refine State.schedStart_only (Sub.trans rfl hp) (Sub.trans rfl hr) ?_
    | with_reducible refine State.meEnable_only (Sub.trans rfl hp) (Sub.trans rfl hr) ?_
    | with_reducible refine State.jointOn_only (Sub.trans rfl hp) (Sub.trans rfl hr) ?_
    | with_reducible refine State.twEnable_only (Sub.trans rfl hp) (Sub.trans rfl hr) ?_
    | with_reducible refine State.updSio_only (Sub.trans rfl hp) (Sub.trans rfl hr) ?_
    | with_reducible refine Only.foldl ?_ ?_
    | intro _
    | (extract_lets +onlyGivenNames y; first | (refine Only.cut (x := y) ?_ ?_; subst y; rotate_left; clear_value y; intro _) | clear_value y)
    | dsimp only

theorem execCellEnable_only {p r : Nat} {s : State} (hp : Sub 131080 p) (hr : Sub 0x10000000000000000000000000000000000000000000000000000000000000000000000000000000000000000000000000003a00000000000000000000000000000000000000000000000000000000000000000000000000000000000000000000000000000000000000000000000000000000000000000000000000000000000000000000000000000000000000000000000000000000000000000000000000000000000000000000000000000000000005000 r) :
    ∃ t, execCellEnable s = .next t ∧ Only p r s t := by
  unfold execCellEnable
  refine ⟨_, rfl, ?_⟩
  have h : Only p r s s := Only.refl
  repeat' first
    | with_reducible assumption
    | with_reducible refine State.cellOn_only (Sub.trans rfl hp) (Sub.trans rfl hr) ?_

theorem State.showPass_only {p r : Nat} {s x : State} {a1 : _} (hp : Sub 135176 p) (hr : Sub 0x38080300000000000000000000000000000000000000000000000000000000000000000000000000000000000000000000000000000000000000000000000000000000000000000000000009fe007ffb000000000000000000000000000000000000000000000000000000000000000000000000000000000000000000000000000000000000000000000000000000000000000000000000000000000000000007c000 r) (h : Only p r s x) :
    Only p r s (State.showPass x a1) := by
  unfold State.showPass
  repeat' first
    | with_reducible assumption
    | with_reducible refine Only.set 14 R.SYS_CELL_STATUS_STATE_num (Sub.bits hr rfl) ?_
    | with_reducible refine Only.set 15 R.SYS_CELL_STATUS_REASON_num (Sub.bits hr rfl) ?_
    | with_reducible refine Only.set 16 R.SYS_CELL_STATUS_LOCUS_num (Sub.bits hr rfl) ?_
    | with_reducible refine State.updHi_only (Sub.trans rfl hp) (Sub.trans rfl hr) ?_
    | with_reducible refine State.checkOver_only (Sub.trans rfl hp) (Sub.trans rfl hr) ?_
    | with_reducible refine State.driveEnables_only (Sub.trans rfl hp) (Sub.trans rfl hr) ?_
    | with_reducible refine State.post_only (Sub.trans rfl hp) (Sub.trans rfl hr) ?_
    | intro _
    | (extract_lets +onlyGivenNames y; first | (refine Only.cut (x := y) ?_ ?_; subst y; rotate_left; clear_value y; intro _) | clear_value y)
    | dsimp only

theorem State.fixEpoch_only {p r : Nat} {s x : State} (hp : Sub 64 p) (hr : Sub 0x3c8000000000000000000000000000000000000000000000000000000000000000000000000000000000 r) (h : Only p r s x) :
    Only p r s (State.fixEpoch x) := by
  unfold State.fixEpoch
  repeat' first
    | with_reducible assumption
    | with_reducible refine Only.set 327 R.CB_CYCLE_NS_num (Sub.bits hr rfl) ?_
    | with_reducible refine Only.set 330 R.CB_EPOCH_NS_NS_num (Sub.bits hr rfl) ?_
    | with_reducible refine Only.set64 331 332 R.CB_EPOCH_SEC_LO_num R.CB_EPOCH_SEC_HI_SEC_num (Sub.bits hr rfl) (Sub.bits hr rfl) ?_
    | with_reducible refine Only.set 333 R.CB_CYCLE_NOW_num (Sub.bits hr rfl) ?_
    | with_reducible refine Only.ite ?_ ?_
    | (extract_lets +onlyGivenNames y; first | (refine Only.cut (x := y) ?_ ?_; subst y; rotate_left; clear_value y; intro _) | clear_value y)
    | split
    | dsimp only
    | (first | (with_reducible refine Only.upd_grid (Sub.bits hp rfl) ?_; first | with_reducible assumption | with_reducible refine Only.set 327 R.CB_CYCLE_NS_num (Sub.bits hr rfl) ?_ | with_reducible refine Only.set 330 R.CB_EPOCH_NS_NS_num (Sub.bits hr rfl) ?_ | with_reducible refine Only.set64 331 332 R.CB_EPOCH_SEC_LO_num R.CB_EPOCH_SEC_HI_SEC_num (Sub.bits hr rfl) (Sub.bits hr rfl) ?_ | with_reducible refine Only.set 333 R.CB_CYCLE_NOW_num (Sub.bits hr rfl) ?_))

theorem State.checkPass_only {p r : Nat} {s x : State} {a1 : _} (hp : Sub 17825608 p) (hr : Sub 0x48000000000000000000000000000380803000000000000000000000000000000f000000000000000000000000000000c0000000000000000000000000000000000000000000000000000000000000007e0000000000000000009fe007ffb0000000000000000000204f00000000000001c00000000000000000000001fffe000000000000000003c800006000000000000000000000000000000000000000000000000000000000000000000000007c000 r) (h : Only p r s x) :
    Only p r s (State.checkPass x a1) := by
  unfold State.checkPass
  repeat' first
    | with_reducible assumption
    | with_reducible refine State.loadUnits_only (Sub.trans rfl hp) (Sub.trans rfl hr) ?_
    | with_reducible refine State.fixEpoch_only (Sub.trans rfl hp) (Sub.trans rfl hr) ?_
    | with_reducible refine State.startUnits_only (Sub.trans rfl hp) (Sub.trans rfl hr) ?_
    | with_reducible refine State.showPass_only (Sub.trans rfl hp) (Sub.trans rfl hr) ?_

theorem State.checkEnd_only {p r : Nat} {s x : State} {a1 : _} (hp : Sub 17825608 p) (hr : Sub 0x48000000000000000000000000000380803000000000000000000000000000000f000000000000000000000000000000c0000000000000000000000000000000000000000000000000000000000000007e0000000000000000009fe007ffb0000000000000000000204f00000000000001c00000000000000000000001fffe000000000000000003c800006000000000000000000000000000000000000000000000000000000000000000000000007d000 r) (h : Only p r s x) :
    Only p r s (State.checkEnd x a1) := by
  unfold State.checkEnd
  repeat' first
    | with_reducible assumption
    | with_reducible refine State.checkFail_only (Sub.trans rfl hp) (Sub.trans rfl hr) ?_
    | with_reducible refine State.checkPass_only (Sub.trans rfl hp) (Sub.trans rfl hr) ?_
    | with_reducible refine Only.ite ?_ ?_
    | (extract_lets +onlyGivenNames y; first | (refine Only.cut (x := y) ?_ ?_; subst y; rotate_left; clear_value y; intro _) | clear_value y)
    | split
    | dsimp only

theorem execEnableCheckEnd_only {p r : Nat} {s : State} {a0 : _} (hp : Sub 17825608 p) (hr : Sub 0x48000000000000000000000000000380803000000000000000000000000000000f000000000000000000000000000000c0000000000000000000000000000000000000000000000000000000000000007e0000000000000000009fe007ffb0000000000000000000204f00000000000001c00000000000000000000001fffe000000000000000003c800006000000000000000000000000000000000000000000000000000000000000000000000007d000 r) :
    ∃ t, execEnableCheckEnd a0 s = .next t ∧ Only p r s t := by
  unfold execEnableCheckEnd
  refine ⟨_, rfl, ?_⟩
  have h : Only p r s s := Only.refl
  repeat' first
    | with_reducible assumption
    | with_reducible refine State.checkEnd_only (Sub.trans rfl hp) (Sub.trans rfl hr) ?_

theorem execCellDisable_only {p r : Nat} {s : State} (hp : Sub 134354952 p) (hr : Sub 0x38080300000000000000000000000000000000000000000000000000000000000000000000000000000000000000000000000000000000000000000000000000000000000000000000000009fe007ffb000000000000000000000000000000000000000000000000000000000000000000000000000000000000000000000000000000000000000000000000000000000000000000000000000000000000000007d000 r) :
    ∃ t, execCellDisable s = .next t ∧ Only p r s t := by
  unfold execCellDisable
  refine ⟨_, rfl, ?_⟩
  have h : Only p r s s := Only.refl
  repeat' first
    | with_reducible assumption
    | with_reducible refine State.cellOff_only (Sub.trans rfl hp) (Sub.trans rfl hr) ?_

end Sys2Proof.Machine
end

