-- ==== Sys2Proof/Laws/OnlyAccess.lean ====
section
/-! SUPPORT. Footprints of the operations of Machine/Access.lean. -/
namespace Sys2Proof.Machine
set_option linter.all false
set_option Elab.async false

theorem State.maintWritten_only {p r : Nat} {s x : State} {a1 : _} (hp : Sub 8 p) (hr : Sub 0x60000000000000000000000000000000000000000000000000000000000000000000000000000000000000000000000000000000000000000000000000000000000000000000000000000000000000000000000000000000000000000000000000000000000000000000000000000000000000000000000000000000000000000000000000000000000000000000000000000000000000000000000000000000000000000000000000000000000000000000000000000000000000000000000000000000000000000000000000000000000000000000000000000000000000000 r) (h : Only p r s x) :
    Only p r s (State.maintWritten x a1) := by
  unfold State.maintWritten
  repeat' first
    | with_reducible assumption
    | with_reducible refine State.post_only (Sub.trans rfl hp) (Sub.trans rfl hr) ?_
    | with_reducible refine State.showInj_only (Sub.trans rfl hp) (Sub.trans rfl hr) ?_
    | with_reducible refine Only.ite ?_ ?_
    | split

theorem State.enWritten_only {p r : Nat} {s x : State} {a1 : _} (hp : Sub 134354952 p) (hr : Sub 0x10000000000000000000000000000000038080300000000000000000000000000000000000000000000000000000000000003a00000000000000000000000000000000000000000000000000000000000000000000000000000000009fe007ffb000000000000000000000000000000000000000000000000000000000000000000000000000000000000000000000000000000000000000000000000000000000000000000000000000000000000000007d000 r) (h : Only p r s x) :
    Only p r s (State.enWritten x a1) := by
  unfold State.enWritten
  repeat' first
    | with_reducible assumption
    | with_reducible refine State.cellOn_only (Sub.trans rfl hp) (Sub.trans rfl hr) ?_
    | with_reducible refine State.cellOff_only (Sub.trans rfl hp) (Sub.trans rfl hr) ?_
    | with_reducible refine Only.ite ?_ ?_
    | split

theorem State.actSys_only {p r : Nat} {s x : State} {a1 a2 a3 : _} (hp : Sub 134354952 p) (hr : Sub 0x60000000000000000000000000000000000000000000000000000000000000000000000000000000000000000010000000000000000000000000000000038080300000000000000000000000000000000000000000000000000000000000003a00000000000000000000000000000000000000000000000000000000000000000000000000000000009fe007ffb000000000000000000000000000000000000000000000000000000000000000000000000000000000000000000000000000000000000000000000000000000000000000000000000000000000000000007d000 r) (h : Only p r s x) :
    Only p r s (State.actSys x a1 a2 a3) := by
  unfold State.actSys
  repeat' first
    | with_reducible assumption
    | with_reducible refine State.maintWritten_only (Sub.trans rfl hp) (Sub.trans rfl hr) ?_
    | with_reducible refine State.enWritten_only (Sub.trans rfl hp) (Sub.trans rfl hr) ?_
    | with_reducible refine Only.ite ?_ ?_
    | split

theorem State.stepWritten_only {p r : Nat} {s x : State} {a1 : _} (hp : Sub 32 p) (hr : Sub 0 r) (h : Only p r s x) :
    Only p r s (State.stepWritten x a1) := by
  unfold State.stepWritten
  repeat' first
    | with_reducible assumption
    | with_reducible refine State.ptpStep_only (Sub.trans rfl hp) (Sub.trans rfl hr) ?_
    | with_reducible refine State.goStep_only (Sub.trans rfl hp) (Sub.trans rfl hr) ?_
    | with_reducible refine Only.ite ?_ ?_
    | split

theorem State.trgWritten_only {p r : Nat} {s x : State} {a1 a2 : _} (hp : Sub 2151677992 p) (hr : Sub 0xe0600000000000000000000000000000000000000000000000000000000000000000000000000000000000000000000000000000000000000000000000000000000000000000000000000000000000000000000000000000000000000000000000000000000000000000000000000000000000000000000000000000000000000000000000000000000000000000000000000000000000000000000000000000000000000000000000000000000000000000000000000000000000000000000000000000000000000000000041c0000000000000000000000000000000000000000 r) (h : Only p r s x) :
    Only p r s (State.trgWritten x a1 a2) := by
  unfold State.trgWritten
  repeat' first
    | with_reducible assumption
    | with_reducible refine State.triggerArm_only (Sub.trans rfl hp) (Sub.trans rfl hr) ?_
    | with_reducible refine Only.set 163 R.TB_TRG_CTRL_ACTION_num (Sub.bits hr rfl) ?_
    | with_reducible refine Only.set 164 R.TB_TRG_CTRL_TARGET_num (Sub.bits hr rfl) ?_
    | with_reducible refine Only.setBit 162 R.TB_TRG_CTRL_ARM_num (Sub.bits hr rfl) ?_
    | with_reducible refine Only.ite ?_ ?_
    | (extract_lets +onlyGivenNames y; first | (refine Only.cut (x := y) ?_ ?_; subst y; rotate_left; clear_value y; intro _) | clear_value y)
    | split
    | dsimp only

theorem State.actTb_only {p r : Nat} {s x : State} {a1 a2 : _} (hp : Sub 2151677992 p) (hr : Sub 0xe0600000000000000000000000000000000000000000000000000000000000000000000000000000000000000000000000000000000000000000000000000000000000000000000000000000000000000000000000000000000000000000000000000000000000000000000000000000000000000000000000000000000000000000000000000000000000000000000000000000000000000000000000000000000000000000000000000000000000000000000000000000000000000000000000000000000000000000000041c0000000000000000000000000000000000000000 r) (h : Only p r s x) :
    Only p r s (State.actTb x a1 a2) := by
  unfold State.actTb
  repeat' first
    | with_reducible assumption
    | with_reducible refine State.fracWrite_only (Sub.trans rfl hp) (Sub.trans rfl hr) ?_
    | with_reducible refine State.stepWritten_only (Sub.trans rfl hp) (Sub.trans rfl hr) ?_
    | with_reducible refine State.trgWritten_only (Sub.trans rfl hp) (Sub.trans rfl hr) ?_
    | with_reducible refine Only.ite ?_ ?_
    | (extract_lets +onlyGivenNames y; first | (refine Only.cut (x := y) ?_ ?_; subst y; rotate_left; clear_value y; intro _) | clear_value y)
    | split
    | dsimp only

theorem State.portWritten_only {p r : Nat} {s x : State} {a1 a2 : _} (hp : Sub 4849928 p) (hr : Sub 0xe060000000000000000000000000000000000000000000000000000000000000000000000000000000000000000400002800000000000000000000000000038080300000000000000000000000000000000000000000000000000000000000000000000000000000000000000000000000000000000000000000000000000000000000000000000000000000000000000000000000000000000000000000000000000000000000000000000000000000000000000000000000000020000200001000000000000000000000000000000000000000000000000000000000000000000 r) (h : Only p r s x) :
    Only p r s (State.portWritten x a1 a2) := by
  unfold State.portWritten
  repeat' first
    | with_reducible assumption
    | with_reducible refine State.trainPort_only (Sub.trans rfl hp) (Sub.trans rfl hr) ?_
    | with_reducible refine State.portConf_only (Sub.trans rfl hp) (Sub.trans rfl hr) ?_
    | with_reducible refine Only.ite ?_ ?_
    | split

theorem State.actCb_only {p r : Nat} {s x : State} {a1 a2 a3 : _} (hp : Sub 4849928 p) (hr : Sub 0xe060000000000000000000000000000000000000000000000000000000000000000000000000000000000000000400002800000000000000000000000000038080300000000000000000000000000000000000000000000000000000000000000000000000000000000000000000000000000000000000000000000000000000000000000000000000000000000000000000000000000000000000000000000000000000000000000000000000000000000000000000002000000020000200001000000000000000000000000000000000000000000000000000000000000000000 r) (h : Only p r s x) :
    Only p r s (State.actCb x a1 a2 a3) := by
  unfold State.actCb
  repeat' first
    | with_reducible assumption
    | with_reducible refine State.selectSlot_only (Sub.trans rfl hp) (Sub.trans rfl hr) ?_
    | with_reducible refine State.portWritten_only (Sub.trans rfl hp) (Sub.trans rfl hr) ?_
    | with_reducible refine State.portConf_only (Sub.trans rfl hp) (Sub.trans rfl hr) ?_
    | with_reducible refine State.retrain_only (Sub.trans rfl hp) (Sub.trans rfl hr) ?_
    | with_reducible refine State.partnerConf_only (Sub.trans rfl hp) (Sub.trans rfl hr) ?_
    | with_reducible refine Only.ite ?_ ?_
    | (extract_lets +onlyGivenNames y; first | (refine Only.cut (x := y) ?_ ?_; subst y; rotate_left; clear_value y; intro _) | clear_value y)
    | split
    | dsimp only

theorem State.actHi_only {p r : Nat} {s x : State} {a1 a2 : _} (hp : Sub 131080 p) (hr : Sub 0x384d0300000000000000000000000000000000000000000000000000000000000000000000000000000000000000000000000000000000000000000000000000000000000000000000000000000000000000000000000000000000000000000000000000000000000000000000000000000000000000000000000000000000000000000000000000000000000000000000000000000000000000000000000000000000 r) (h : Only p r s x) :
    Only p r s (State.actHi x a1 a2) := by
  unfold State.actHi
  repeat' first
    | with_reducible assumption
    | with_reducible refine State.sqStart_only (Sub.trans rfl hp) (Sub.trans rfl hr) ?_
    | with_reducible refine State.sqStop_only (Sub.trans rfl hp) (Sub.trans rfl hr) ?_
    | with_reducible refine State.cqStart_only (Sub.trans rfl hp) (Sub.trans rfl hr) ?_
    | with_reducible refine State.cqStop_only (Sub.trans rfl hp) (Sub.trans rfl hr) ?_
    | with_reducible refine Only.ite ?_ ?_
    | (extract_lets +onlyGivenNames y; first | (refine Only.cut (x := y) ?_ ?_; subst y; rotate_left; clear_value y; intro _) | clear_value y)
    | split
    | dsimp only

theorem State.actAd_only {p r : Nat} {s x : State} {a1 a2 : _} (hp : Sub 8187281406 p) (hr : Sub 0x80001000000000000000000000008fcc0000029c00000000000000000000000000000e060000000000000000000000000000165f00000000000000000000000000400020000000000000000000000000000010000000000000000000000000000038080300000000000000000000000000000000000000000000000000000000000000000000000000000000000000000000000000000000000000000000000000000000000000000000000009fe007ffb0000000000000000000204000000000000000000000000000000000000000000000000000000000000000000000000000000000000000000000000000000033000000000000000000000000000000000000000 r) (h : Only p r s x) :
    Only p r s (State.actAd x a1 a2) := by
  unfold State.actAd
  repeat' first
    | with_reducible assumption
    | with_reducible refine State.adcKick_only (Sub.trans rfl hp) (Sub.trans rfl hr) ?_
    | with_reducible refine State.urgent_only (Sub.trans rfl hp) (Sub.trans rfl hr) ?_
    | with_reducible refine State.globalRelease_only (Sub.trans rfl hp) (Sub.trans rfl hr) ?_
    | with_reducible refine State.resetKey_only (Sub.trans rfl hp) (Sub.trans rfl hr) ?_
    | with_reducible refine Only.setBit 1665 R.BB_STAT_HOLDUP_OK_num (Sub.bits hr rfl) ?_
    | with_reducible refine Only.ite ?_ ?_
    | split

theorem State.actMore_only {p r : Nat} {s x : State} {a1 a2 a3 : _} (hp : Sub 4435092360 p) (hr : Sub 0xe06000000000000000000000000000000000000000000000000000000000421ffc0000000000000000000000000400002800000000000000000000000000038080300000000000000000000000000000000000000000000000000000000000000000000000000000000000000000000000000000000000000000000000000000000000000000000000000000000000000000000000000000000000000000000000000000000000000001220000000000000000000000000000000020000200001000000000000000000000000000000000000000000000000000000000000000000 r) (h : Only p r s x) :
    Only p r s (State.actMore x a1 a2 a3) := by
  unfold State.actMore
  repeat' first
    | with_reducible assumption
    | with_reducible refine State.eoEnable_only (Sub.trans rfl hp) (Sub.trans rfl hr) ?_
    | with_reducible refine Only.setBit 437 R.EO_CFG_EN_num (Sub.bits hr rfl) ?_
    | with_reducible refine State.eoPins_only (Sub.trans rfl hp) (Sub.trans rfl hr) ?_
    | with_reducible refine State.updEng_only (Sub.trans rfl hp) (Sub.trans rfl hr) ?_
    | with_reducible refine State.portWritten_only (Sub.trans rfl hp) (Sub.trans rfl hr) ?_
    | with_reducible refine State.cursorWrite_only (Sub.trans rfl hp) (Sub.trans rfl hr) ?_
    | with_reducible refine Only.ite ?_ ?_
    | intro _
    | (extract_lets +onlyGivenNames y; first | (refine Only.cut (x := y) ?_ ?_; subst y; rotate_left; clear_value y; intro _) | clear_value y)
    | split
    | dsimp only

theorem State.act_only {p r : Nat} {s x : State} {a1 a2 a3 : _} (hp : Sub 8321499134 p) (hr : Sub 0x80001000000000000000000000008fcc0000029c00000000000000000000000000000e060000000000000000000000000000165f0000000000000000000000000461ffe00000000000000000000000004100128000000000000000000000000000384d0300000000000000000000000000000000000000000000000000000000000003a00000000000000000000000000000000000000000000000000000000000000000000000000000000009fe007ffb00000000000000000002040000000000000000000000000000000012200000000000000000000000020000000200002000010000000000000000000000041f300000000000000000000000000000000007d000 r) (h : Only p r s x) :
    Only p r s (State.act x a1 a2 a3) := by
  unfold State.act
  repeat' first
    | with_reducible assumption
    | with_reducible refine State.actSys_only (Sub.trans rfl hp) (Sub.trans rfl hr) ?_
    | with_reducible refine State.actTb_only (Sub.trans rfl hp) (Sub.trans rfl hr) ?_
    | with_reducible refine State.actCb_only (Sub.trans rfl hp) (Sub.trans rfl hr) ?_
    | with_reducible refine State.actHi_only (Sub.trans rfl hp) (Sub.trans rfl hr) ?_
    | with_reducible refine State.actAd_only (Sub.trans rfl hp) (Sub.trans rfl hr) ?_
    | with_reducible refine State.actMore_only (Sub.trans rfl hp) (Sub.trans rfl hr) ?_
    | (extract_lets +onlyGivenNames y; first | (refine Only.cut (x := y) ?_ ?_; subst y; rotate_left; clear_value y; intro _) | clear_value y)
    | split
    | dsimp only

theorem State.resRead_only {p r : Nat} {s x : State} {a1 : _} (hp : Sub 805306368 p) (hr : Sub 0 r) (h : Only p r s x) :
    Only p r s (State.resRead x a1) := by
  unfold State.resRead
  repeat' first
    | with_reducible assumption
    | with_reducible refine State.latch_only (Sub.trans rfl hp) (Sub.trans rfl hr) ?_
    | with_reducible refine State.reply_only (Sub.trans rfl hp) (Sub.trans rfl hr) ?_
    | (extract_lets +onlyGivenNames y; first | (refine Only.cut (x := y) ?_ ?_; subst y; rotate_left; clear_value y; intro _) | clear_value y)
    | dsimp only

theorem State.clearRc_only {p r : Nat} {s x : State} {a1 a2 : _} (hp : Sub 2147483654 p) (_hr : Sub 0 r) (hf : a2 ∈ fieldsAt a1)
    (h : Only p r s x) : Only p r s (State.clearRc x a1 a2) := by
  have hw : ∀ (u : Regs) (v : Nat), soundRegs u → soundRegs (u.setWord (blkOf a1) a1 (withBits (u.word (blkOf a1) a1) a2.hi a2.lo v)) :=
    fun u v hu => soundRegs_setWord hu _ _ _ fun j hj => by
      rw [withBits_outside _ _ _ _ _ (Field.lo_le_hi (mapOf_facts (fieldsAt_facts hf).1).2.1)
        (reservedBit_outside hj (fieldsAt_facts hf).1 (fieldsAt_facts hf).2)]
      exact hu.2 _ _ _ hj
  unfold State.clearRc
  exact Only.upd_regs_frozen_view (Sub.bits hp rfl) (Sub.bits hp rfl) (Sub.bits hp rfl) h fun k l => ⟨hw _ _ k, hw _ _ l⟩

theorem State.clearRcs_only {p r : Nat} {s x : State} {a1 : _} (hp : Sub 2147483654 p) (hr : Sub 0 r) (h : Only p r s x) :
    Only p r s (State.clearRcs x a1) := by
  unfold State.clearRcs
  dsimp only
  have key : ∀ (l : List Field) (y : State), (∀ f ∈ l, f ∈ fieldsAt (x.place a1)) → Only p r s y →
      Only p r s (l.foldl (fun s f => s.clearRc (x.place a1) f) y) := by
    intro l
    induction l with
    | nil => intro y _ hy; exact hy
    | cons f l ih =>
      intro y hl hy
      exact ih _ (fun g hg => hl g (List.mem_cons_of_mem _ hg))
        (State.clearRc_only (Sub.trans rfl hp) (Sub.trans rfl hr) (hl f (List.mem_cons_self ..)) hy)
  exact key _ _ (fun f hf => (List.mem_filter.mp hf).1) h

theorem State.plainRead_only {p r : Nat} {s x : State} {a1 a2 : _} (hp : Sub 2952790022 p) (hr : Sub 0 r) (h : Only p r s x) :
    Only p r s (State.plainRead x a1 a2) := by
  unfold State.plainRead
  repeat' first
    | with_reducible assumption
    | with_reducible refine State.reply_only (Sub.trans rfl hp) (Sub.trans rfl hr) ?_
    | with_reducible refine State.latch_only (Sub.trans rfl hp) (Sub.trans rfl hr) ?_
    | with_reducible refine State.clearRcs_only (Sub.trans rfl hp) (Sub.trans rfl hr) ?_
    | with_reducible refine Only.ite ?_ ?_
    | intro _
    | (extract_lets +onlyGivenNames y; first | (refine Only.cut (x := y) ?_ ?_; subst y; rotate_left; clear_value y; intro _) | clear_value y)
    | split
    | dsimp only

theorem State.read_only {p r : Nat} {s x : State} {a1 a2 : _} (hp : Sub 2956984366 p) (hr : Sub 0xe06000000000000000000000000000000000000000000000000000000000000000000000000000000000000000000000000000000000000000000000000000000000000000000000000000000000000000000000000000000000000000000000000000000000000000000000000000000000000000000000000000000000000000000000000000000000000000000000000000000000000000000000000000000000000000000000000000000000000000000000000000000000000000000000000000000000000000000000003f000000700000000000000000000000000000000 r) (h : Only p r s x) :
    Only p r s (State.read x a1 a2) := by
  unfold State.read
  repeat' first
    | with_reducible assumption
    | with_reducible refine State.nsRead_only (Sub.trans rfl hp) (Sub.trans rfl hr) ?_
    | with_reducible refine State.capRead_only (Sub.trans rfl hp) (Sub.trans rfl hr) ?_
    | with_reducible refine State.resRead_only (Sub.trans rfl hp) (Sub.trans rfl hr) ?_
    | with_reducible refine State.plainRead_only (Sub.trans rfl hp) (Sub.trans rfl hr) ?_
    | with_reducible refine Only.ite ?_ ?_
    | (extract_lets +onlyGivenNames y; first | (refine Only.cut (x := y) ?_ ?_; subst y; rotate_left; clear_value y; intro _) | clear_value y)
    | split
    | dsimp only

theorem State.putFields_only {p r : Nat} {s x : State} {a1 a2 : _} (hp : Sub 2 p) (_hr : Sub 0 r) (h : Only p r s x) :
    Only p r s (State.putFields x a1 a2) := by
  unfold State.putFields
  exact Only.upd_regs (Sub.bits hp rfl) h fun k => soundRegs_setWord k _ _ _ fun j hj => by
    rw [afterFields_outside _ hj _ _ fun f hf => fieldsAt_facts (List.mem_filter.mp hf).1]
    exact k.2 _ _ _ hj

theorem State.applyStage_only {p r : Nat} {s x : State} {a1 : _} (hp : Sub 1073741826 p) (hr : Sub 0 r) (h : Only p r s x) :
    Only p r s (State.applyStage x a1) := by
  unfold State.applyStage
  repeat' first
    | with_reducible assumption
    | with_reducible refine State.putFields_only (Sub.trans rfl hp) (Sub.trans rfl hr) ?_
    | with_reducible refine Only.ite ?_ ?_
    | intro _
    | (extract_lets +onlyGivenNames y; first | (refine Only.cut (x := y) ?_ ?_; subst y; rotate_left; clear_value y; intro _) | clear_value y)
    | split
    | dsimp only
    | (first | (with_reducible refine Only.upd_wrStage (Sub.bits hp rfl) ?_; first | with_reducible assumption | with_reducible refine State.putFields_only (Sub.trans rfl hp) (Sub.trans rfl hr) ?_))

theorem State.writeWord_only {p r : Nat} {s x : State} {a1 a2 : _} (hp : Sub 8321499134 p) (hr : Sub 0x80001000000000000000000000008fcc0000029c00000000000000000000000000000e060000000000000000000000000000165f0000000000000000000000000461ffe00000000000000000000000004100128000000000000000000000000000384d0300000000000000000000000000000000000000000000000000000000000003a00000000000000000000000000000000000000000000000000000000000000000000000000000000009fe007ffb00000000000000000002040000000000000000000000000000000012200000000000000000000000020000000200002000010000000000000000000000041f300000000000000000000000000000000007d000 r) (h : Only p r s x) :
    Only p r s (State.writeWord x a1 a2) := by
  unfold State.writeWord
  repeat' first
    | with_reducible assumption
    | with_reducible refine State.ignored_only (Sub.trans rfl hp) (Sub.trans rfl hr) ?_
    | with_reducible refine State.applyStage_only (Sub.trans rfl hp) (Sub.trans rfl hr) ?_
    | with_reducible refine State.putFields_only (Sub.trans rfl hp) (Sub.trans rfl hr) ?_
    | with_reducible refine State.act_only (Sub.trans rfl hp) (Sub.trans rfl hr) ?_
    | with_reducible refine State.noteOff_only (Sub.trans rfl hp) (Sub.trans rfl hr) ?_
    | with_reducible refine Only.ite ?_ ?_
    | intro _
    | (extract_lets +onlyGivenNames y; first | (refine Only.cut (x := y) ?_ ?_; subst y; rotate_left; clear_value y; intro _) | clear_value y)
    | split
    | dsimp only
    | (first | (with_reducible refine Only.upd_wrStage (Sub.bits hp rfl) ?_; first | with_reducible assumption | with_reducible refine State.ignored_only (Sub.trans rfl hp) (Sub.trans rfl hr) ?_ | with_reducible refine State.applyStage_only (Sub.trans rfl hp) (Sub.trans rfl hr) ?_ | with_reducible refine State.putFields_only (Sub.trans rfl hp) (Sub.trans rfl hr) ?_ | with_reducible refine State.act_only (Sub.trans rfl hp) (Sub.trans rfl hr) ?_ | with_reducible refine State.noteOff_only (Sub.trans rfl hp) (Sub.trans rfl hr) ?_))

theorem State.write_only {p r : Nat} {s x : State} {a1 a2 : _} (hp : Sub 8321499134 p) (hr : Sub 0x80001000000000000000000000008fcc0000029c00000000000000000000000000000e060000000000000000000000000000165f0000000000000000000000000461ffe00000000000000000000000004100128000000000000000000000000000384d0300000000000000000000000000000000000000000000000000000000000003a00000000000000000000000000000000000000000000000000000000000000000000000000000000009fe007ffb00000000000000000002040000000000000000000000000000000012200000000000000000000000020000000200002000010000000000000000000000041f300000000000000000000000000000000007d000 r) (h : Only p r s x) :
    Only p r s (State.write x a1 a2) := by
  unfold State.write
  repeat' first
    | with_reducible assumption
    | with_reducible refine State.badAccess_only (Sub.trans rfl hp) (Sub.trans rfl hr) ?_
    | with_reducible refine State.msixPut_only (Sub.trans rfl hp) (Sub.trans rfl hr) ?_
    | with_reducible refine State.writeWord_only (Sub.trans rfl hp) (Sub.trans rfl hr) ?_
    | with_reducible refine Only.ite ?_ ?_
    | split

theorem execRegWrite_only {p r : Nat} {s : State} {a0 a1 : _} (hp : Sub 8321499134 p) (hr : Sub 0x80001000000000000000000000008fcc0000029c00000000000000000000000000000e060000000000000000000000000000165f0000000000000000000000000461ffe00000000000000000000000004100128000000000000000000000000000384d0300000000000000000000000000000000000000000000000000000000000003a00000000000000000000000000000000000000000000000000000000000000000000000000000000009fe007ffb00000000000000000002040000000000000000000000000000000012200000000000000000000000020000000200002000010000000000000000000000041f300000000000000000000000000000000007d000 r) :
    ∃ t, execRegWrite a0 a1 s = .next t ∧ Only p r s t := by
  unfold execRegWrite
  refine ⟨_, rfl, ?_⟩
  have h : Only p r s s := Only.refl
  repeat' first
    | with_reducible assumption
    | with_reducible refine State.write_only (Sub.trans rfl hp) (Sub.trans rfl hr) ?_

theorem execRcRead_only {p r : Nat} {s : State} {a0 a1 : _} (hp : Sub 2956984366 p) (hr : Sub 0xe06000000000000000000000000000000000000000000000000000000000000000000000000000000000000000000000000000000000000000000000000000000000000000000000000000000000000000000000000000000000000000000000000000000000000000000000000000000000000000000000000000000000000000000000000000000000000000000000000000000000000000000000000000000000000000000000000000000000000000000000000000000000000000000000000000000000000000000000003f000000700000000000000000000000000000000 r) :
    ∃ t, execRcRead a0 a1 s = .next t ∧ Only p r s t := by
  unfold execRcRead
  refine ⟨_, rfl, ?_⟩
  have h : Only p r s s := Only.refl
  repeat' first
    | with_reducible assumption
    | with_reducible refine State.read_only (Sub.trans rfl hp) (Sub.trans rfl hr) ?_

theorem execLowWordRead_only {p r : Nat} {s : State} {a0 : _} (hp : Sub 2956984366 p) (hr : Sub 0xe06000000000000000000000000000000000000000000000000000000000000000000000000000000000000000000000000000000000000000000000000000000000000000000000000000000000000000000000000000000000000000000000000000000000000000000000000000000000000000000000000000000000000000000000000000000000000000000000000000000000000000000000000000000000000000000000000000000000000000000000000000000000000000000000000000000000000000000000003f000000700000000000000000000000000000000 r) :
    ∃ t, execLowWordRead a0 s = .next t ∧ Only p r s t := by
  unfold execLowWordRead
  refine ⟨_, rfl, ?_⟩
  have h : Only p r s s := Only.refl
  repeat' first
    | with_reducible assumption
    | with_reducible refine State.read_only (Sub.trans rfl hp) (Sub.trans rfl hr) ?_

end Sys2Proof.Machine
end

