-- ==== Sys2Proof/Laws/OnlyEscalate.lean ====
section
/-! SUPPORT. Footprints of the operations of Machine/Escalate.lean. -/
namespace Sys2Proof.Machine
set_option linter.all false
set_option Elab.async false

theorem State.escForward_only {p r : Nat} {s x : State} {a1 : _} (hp : Sub 655368 p) (hr : Sub 0x2800000000000000000000000000038080300000000000000000000000000000000000000000000000000000000000000000000000000000000000000000000000000000000000000000000000000000000000000000000000000000000000000000000000000000000000000000000000000000000000000000000000000000000000000000000000000000000000000000000000000000000000000000000000000000000000000000000000000000000 r) (h : Only p r s x) :
    Only p r s (State.escForward x a1) := by
  unfold State.escForward
  repeat' first
    | with_reducible assumption
    | with_reducible refine State.updTw_only (Sub.trans rfl hp) (Sub.trans rfl hr) ?_
    | with_reducible refine State.twFault_only (Sub.trans rfl hp) (Sub.trans rfl hr) ?_
    | with_reducible refine Only.ite ?_ ?_
    | intro _
    | (extract_lets +onlyGivenNames y; first | (refine Only.cut (x := y) ?_ ?_; subst y; rotate_left; clear_value y; intro _) | clear_value y)
    | split
    | dsimp only

theorem State.abortSteps_only {p r : Nat} {s x : State} (hp : Sub 135176 p) (hr : Sub 0x380803000000000000000000000000000000000000000000000000000000000000000000000000000000000000000000000000000000000000000000000000000000000000000000000000000000401b0000000000000000000000000000000000000000000000000000000000000000000000000000000000000000000000000000000000000000000000000000000000000000000000000000000000000000000000 r) (h : Only p r s x) :
    Only p r s (State.abortSteps x) := by
  unfold State.abortSteps
  repeat' first
    | with_reducible assumption
    | with_reducible refine State.abortGen_only (Sub.trans rfl hp) (Sub.trans rfl hr) ?_
    | with_reducible refine Only.ite ?_ ?_
    | with_reducible refine Only.foldl ?_ ?_
    | intro _
    | split
    | dsimp only

theorem State.reactGroup_only {p r : Nat} {s x : State} {a1 a2 a3 : _} (hp : Sub 18432 p) (hr : Sub 0 r) (h : Only p r s x) :
    Only p r s (State.reactGroup x a1 a2 a3) := by
  unfold State.reactGroup
  repeat' first
    | with_reducible assumption
    | with_reducible refine State.reachStop_only (Sub.trans rfl hp) (Sub.trans rfl hr) ?_
    | with_reducible refine State.bvWatch_only (Sub.trans rfl hp) (Sub.trans rfl hr) ?_
    | with_reducible refine Only.ite ?_ ?_
    | (extract_lets +onlyGivenNames y; first | (refine Only.cut (x := y) ?_ ?_; subst y; rotate_left; clear_value y; intro _) | clear_value y)
    | split
    | dsimp only

theorem State.escAct_only {p r : Nat} {s x : State} {a1 : _} (hp : Sub 21649672 p) (hr : Sub 0xfc00000000000000000000000000000000000000e060000000000000000000000000000000000000000000000000000000000000000000000000000000000000000000000000000000000000000000000000038080300000000000000000000000000000000000000000000000000000000000000000000000000000000000000000000000000000000000000000000000000000000000000000000000009fe007ffb000000000000000000020400000000000000000000000000000000000000000000000000000000000000000000005f800000000000000000000000000000000000000000000000000000000000000000000000 r) (h : Only p r s x) :
    Only p r s (State.escAct x a1) := by
  unfold State.escAct
  repeat' first
    | with_reducible assumption
    | with_reducible refine State.giveUp_only (Sub.trans rfl hp) (Sub.trans rfl hr) ?_
    | with_reducible refine State.noteStop_only (Sub.trans rfl hp) (Sub.trans rfl hr) ?_
    | with_reducible refine State.reactGroup_only (Sub.trans rfl hp) (Sub.trans rfl hr) ?_
    | with_reducible refine State.assertMask_only (Sub.trans rfl hp) (Sub.trans rfl hr) ?_
    | with_reducible refine Only.ite ?_ ?_
    | with_reducible refine Only.foldl ?_ ?_
    | intro _
    | (extract_lets +onlyGivenNames y; first | (refine Only.cut (x := y) ?_ ?_; subst y; rotate_left; clear_value y; intro _) | clear_value y)
    | split
    | dsimp only

theorem State.escFault_only {p r : Nat} {s x : State} {a1 : _} (hp : Sub 21649672 p) (hr : Sub 0xfc00000000000000000000000000000000000000e060000000000000000000000000000000000000000000000000000000000000000000000000000000000000000000002800000000000000000000000000038080300000000000000000000000000000000000000000000000000000000000000000000000000000000000000000000000000000000000000000000000000000000000000000000000009fe007ffb000000000000000000020400000000000000000000000000000000000000000000000000000000000000000000005f800000000000000000000000000000000000000000000000000000000000000000000000 r) (h : Only p r s x) :
    Only p r s (State.escFault x a1) := by
  unfold State.escFault
  repeat' first
    | with_reducible assumption
    | with_reducible refine State.abortSteps_only (Sub.trans rfl hp) (Sub.trans rfl hr) ?_
    | with_reducible refine State.escForward_only (Sub.trans rfl hp) (Sub.trans rfl hr) ?_
    | with_reducible refine State.escAct_only (Sub.trans rfl hp) (Sub.trans rfl hr) ?_
    | with_reducible refine Only.ite ?_ ?_
    | (extract_lets +onlyGivenNames y; first | (refine Only.cut (x := y) ?_ ?_; subst y; rotate_left; clear_value y; intro _) | clear_value y)
    | split
    | dsimp only

theorem State.escFatal_only {p r : Nat} {s x : State} {a1 : _} (hp : Sub 19027976 p) (hr : Sub 0x8fc000000000000000000000000000000000000000000000000000000000000000000000061d00000000000000000000000000000000000000000000000000000000000000000000000000000000000000000038080300000000000000000000000000000000000000000000000000000000000000000000000000000000000000000000000000000000000000000000000000000000000000000000000009fe007ffb0000000000000000000204000000000000000000000000000000000000000000000000000000000000000000000000000000000000000000000000000000000000000000000000000000000000000000000000 r) (h : Only p r s x) :
    Only p r s (State.escFatal x a1) := by
  unfold State.escFatal
  repeat' first
    | with_reducible assumption
    | with_reducible refine State.latchFatal_only (Sub.trans rfl hp) (Sub.trans rfl hr) ?_
    | with_reducible refine State.commitStart_only (Sub.trans rfl hp) (Sub.trans rfl hr) ?_
    | with_reducible refine State.abortSteps_only (Sub.trans rfl hp) (Sub.trans rfl hr) ?_
    | with_reducible refine Only.ite ?_ ?_
    | (extract_lets +onlyGivenNames y; first | (refine Only.cut (x := y) ?_ ?_; subst y; rotate_left; clear_value y; intro _) | clear_value y)
    | split
    | dsimp only

theorem State.escalations_only {p r : Nat} {s x : State} (hp : Sub 8187281406 p) (hr : Sub 0x1000000000000000000000008fcc0000000000000000000000000000000000000e060000000000000000000000000000165f00000000000000000000000000400020000000000000000000000000000012800000000000000000000000000038080300000000000000000000000000000000000000000000000000000000000000000000000000000000000000000000000000000000000000000000000000000000000000000000000009fe007ffb000000000000000000020400000000000000000000000000000000000000000000000000000000000000000000005f800000000000000000000000000000000000000000000000000000000000000000000000 r) (h : Only p r s x) :
    Only p r s (State.escalations x) := by
  unfold State.escalations
  repeat' first
    | with_reducible assumption
    | with_reducible refine State.escFatal_only (Sub.trans rfl hp) (Sub.trans rfl hr) ?_
    | with_reducible refine State.escFault_only (Sub.trans rfl hp) (Sub.trans rfl hr) ?_
    | with_reducible refine State.tryReset_only (Sub.trans rfl hp) (Sub.trans rfl hr) ?_
    | with_reducible refine Only.ite ?_ ?_
    | with_reducible refine Only.foldl ?_ ?_
    | intro _
    | (extract_lets +onlyGivenNames y; first | (refine Only.cut (x := y) ?_ ?_; subst y; rotate_left; clear_value y; intro _) | clear_value y)
    | split
    | dsimp only
    | (first | (with_reducible refine Only.upd_escs (Sub.bits hp rfl) ?_; first | with_reducible assumption | with_reducible refine State.escFatal_only (Sub.trans rfl hp) (Sub.trans rfl hr) ?_ | with_reducible refine State.escFault_only (Sub.trans rfl hp) (Sub.trans rfl hr) ?_ | with_reducible refine State.tryReset_only (Sub.trans rfl hp) (Sub.trans rfl hr) ?_))

theorem execEscalation_only {p r : Nat} {s : State} (hp : Sub 8187281406 p) (hr : Sub 0x1000000000000000000000008fcc0000000000000000000000000000000000000e060000000000000000000000000000165f00000000000000000000000000400020000000000000000000000000000012800000000000000000000000000038080300000000000000000000000000000000000000000000000000000000000000000000000000000000000000000000000000000000000000000000000000000000000000000000000009fe007ffb000000000000000000020400000000000000000000000000000000000000000000000000000000000000000000005f800000000000000000000000000000000000000000000000000000000000000000000000 r) :
    ∃ t, execEscalation s = .next t ∧ Only p r s t := by
  unfold execEscalation
  refine ⟨_, rfl, ?_⟩
  have h : Only p r s s := Only.refl
  repeat' first
    | with_reducible assumption
    | with_reducible refine State.escalations_only (Sub.trans rfl hp) (Sub.trans rfl hr) ?_

end Sys2Proof.Machine
end

