-- ==== Sys2Proof/Laws/OnlyRx.lean ====
section
/-! SUPPORT. Footprints of the operations of Machine/Rx.lean. -/
namespace Sys2Proof.Machine
set_option linter.all false
set_option Elab.async false

theorem State.twinFrame_only {p r : Nat} {s x : State} {a1 a2 : _} (hp : Sub 2752776 p) (hr : Sub 0x8101e800000000000000000000000000038080300000000000000000000000000000000000000000000000000000000000000000000000000000000000000000000000000000000000000000000000000000000000000000000000000000000000000000000000000000000000000000000000000000000000000000000000000000000000000000000000000000000000000000000000000000000000000000000000000000000000000000000000000000000 r) (h : Only p r s x) :
    Only p r s (State.twinFrame x a1 a2) := by
  unfold State.twinFrame
  repeat' first
    | with_reducible assumption
    | with_reducible refine State.updTw_only (Sub.trans rfl hp) (Sub.trans rfl hr) ?_
    | with_reducible refine State.sawEpoch_only (Sub.trans rfl hp) (Sub.trans rfl hr) ?_
    | with_reducible refine State.echoTake_only (Sub.trans rfl hp) (Sub.trans rfl hr) ?_
    | with_reducible refine State.updPart_only (Sub.trans rfl hp) (Sub.trans rfl hr) ?_
    | with_reducible refine Only.ite ?_ ?_
    | intro _
    | (extract_lets +onlyGivenNames y; first | (refine Only.cut (x := y) ?_ ?_; subst y; rotate_left; clear_value y; intro _) | clear_value y)
    | split
    | dsimp only

theorem State.rxFrame_only {p r : Nat} {s x : State} {a1 : _} (hp : Sub 6947736 p) (hr : Sub 0xe06000000000000000000000000000000000000000000000000000000000000000000000000000000000000000008101e800000000000000000000000000038080300000000000000000000000000000000000000000000000000000000000000000000000000000000000000000000000000000000000000000000000000000000000000000000000000000000020000000000000000000000000000000000000000000000000000000000000000000000000000376000000001fe009f5fff00010000000000000000000000000000000000000000000000000000000000000000 r) (h : Only p r s x) :
    Only p r s (State.rxFrame x a1) := by
  unfold State.rxFrame
  repeat' first
    | with_reducible assumption
    | with_reducible refine Only.fst (q := (State.rxChecks _ _)) (by assumption) (State.rxChecks_only (Sub.trans rfl hp) (Sub.trans rfl hr) ?_)
    | with_reducible refine State.rxChecks_only (Sub.trans rfl hp) (Sub.trans rfl hr) ?_
    | with_reducible refine State.twinFrame_only (Sub.trans rfl hp) (Sub.trans rfl hr) ?_
    | with_reducible refine State.consume_only (Sub.trans rfl hp) (Sub.trans rfl hr) ?_
    | with_reducible refine Only.ite ?_ ?_
    | (extract_lets +onlyGivenNames y; first | (refine Only.cut (x := y) ?_ ?_; subst y; rotate_left; clear_value y; intro _) | (refine Only.cut (x := y.1) ?_ ?_; subst y; rotate_left; clear_value y; intro _) | (refine Only.cut (x := y.2) ?_ ?_; subst y; rotate_left; clear_value y; intro _) | (refine Only.cut (x := y.2.2) ?_ ?_; subst y; rotate_left; clear_value y; intro _) | clear_value y)
    | split
    | dsimp only

theorem execTwinFrameRx_only {p r : Nat} {s : State} {a0 : _} (hp : Sub 6947736 p) (hr : Sub 0xe06000000000000000000000000000000000000000000000000000000000000000000000000000000000000000008101e800000000000000000000000000038080300000000000000000000000000000000000000000000000000000000000000000000000000000000000000000000000000000000000000000000000000000000000000000000000000000000020000000000000000000000000000000000000000000000000000000000000000000000000000376000000001fe009f5fff00010000000000000000000000000000000000000000000000000000000000000000 r) :
    ∃ t, execTwinFrameRx a0 s = .next t ∧ Only p r s t := by
  unfold execTwinFrameRx
  refine ⟨_, rfl, ?_⟩
  have h : Only p r s s := Only.refl
  repeat' first
    | with_reducible assumption
    | with_reducible refine State.rxFrame_only (Sub.trans rfl hp) (Sub.trans rfl hr) ?_

theorem execJoinAnnounceRx_only {p r : Nat} {s : State} {a0 : _} (hp : Sub 6947736 p) (hr : Sub 0xe06000000000000000000000000000000000000000000000000000000000000000000000000000000000000000008101e800000000000000000000000000038080300000000000000000000000000000000000000000000000000000000000000000000000000000000000000000000000000000000000000000000000000000000000000000000000000000000020000000000000000000000000000000000000000000000000000000000000000000000000000376000000001fe009f5fff00010000000000000000000000000000000000000000000000000000000000000000 r) :
    ∃ t, execJoinAnnounceRx a0 s = .next t ∧ Only p r s t := by
  unfold execJoinAnnounceRx
  refine ⟨_, rfl, ?_⟩
  have h : Only p r s s := Only.refl
  repeat' first
    | with_reducible assumption
    | with_reducible refine State.rxFrame_only (Sub.trans rfl hp) (Sub.trans rfl hr) ?_

theorem execJoinValidRx_only {p r : Nat} {s : State} {a0 : _} (hp : Sub 6947736 p) (hr : Sub 0xe06000000000000000000000000000000000000000000000000000000000000000000000000000000000000000008101e800000000000000000000000000038080300000000000000000000000000000000000000000000000000000000000000000000000000000000000000000000000000000000000000000000000000000000000000000000000000000000020000000000000000000000000000000000000000000000000000000000000000000000000000376000000001fe009f5fff00010000000000000000000000000000000000000000000000000000000000000000 r) :
    ∃ t, execJoinValidRx a0 s = .next t ∧ Only p r s t := by
  unfold execJoinValidRx
  refine ⟨_, rfl, ?_⟩
  have h : Only p r s s := Only.refl
  repeat' first
    | with_reducible assumption
    | with_reducible refine State.rxFrame_only (Sub.trans rfl hp) (Sub.trans rfl hr) ?_

theorem execCyclicFrameRx_only {p r : Nat} {s : State} {a0 : _} (hp : Sub 6947736 p) (hr : Sub 0xe06000000000000000000000000000000000000000000000000000000000000000000000000000000000000000008101e800000000000000000000000000038080300000000000000000000000000000000000000000000000000000000000000000000000000000000000000000000000000000000000000000000000000000000000000000000000000000000020000000000000000000000000000000000000000000000000000000000000000000000000000376000000001fe009f5fff00010000000000000000000000000000000000000000000000000000000000000000 r) :
    ∃ t, execCyclicFrameRx a0 s = .next t ∧ Only p r s t := by
  unfold execCyclicFrameRx
  refine ⟨_, rfl, ?_⟩
  have h : Only p r s s := Only.refl
  repeat' first
    | with_reducible assumption
    | with_reducible refine State.rxFrame_only (Sub.trans rfl hp) (Sub.trans rfl hr) ?_

theorem execEchoFrameRx_only {p r : Nat} {s : State} {a0 : _} (hp : Sub 6947736 p) (hr : Sub 0xe06000000000000000000000000000000000000000000000000000000000000000000000000000000000000000008101e800000000000000000000000000038080300000000000000000000000000000000000000000000000000000000000000000000000000000000000000000000000000000000000000000000000000000000000000000000000000000000020000000000000000000000000000000000000000000000000000000000000000000000000000376000000001fe009f5fff00010000000000000000000000000000000000000000000000000000000000000000 r) :
    ∃ t, execEchoFrameRx a0 s = .next t ∧ Only p r s t := by
  unfold execEchoFrameRx
  refine ⟨_, rfl, ?_⟩
  have h : Only p r s s := Only.refl
  repeat' first
    | with_reducible assumption
    | with_reducible refine State.rxFrame_only (Sub.trans rfl hp) (Sub.trans rfl hr) ?_

theorem execAcyclicFrameRx_only {p r : Nat} {s : State} {a0 : _} (hp : Sub 6947736 p) (hr : Sub 0xe06000000000000000000000000000000000000000000000000000000000000000000000000000000000000000008101e800000000000000000000000000038080300000000000000000000000000000000000000000000000000000000000000000000000000000000000000000000000000000000000000000000000000000000000000000000000000000000020000000000000000000000000000000000000000000000000000000000000000000000000000376000000001fe009f5fff00010000000000000000000000000000000000000000000000000000000000000000 r) :
    ∃ t, execAcyclicFrameRx a0 s = .next t ∧ Only p r s t := by
  unfold execAcyclicFrameRx
  refine ⟨_, rfl, ?_⟩
  have h : Only p r s s := Only.refl
  repeat' first
    | with_reducible assumption
    | with_reducible refine State.rxFrame_only (Sub.trans rfl hp) (Sub.trans rfl hr) ?_

theorem execDelayResponseRx_only {p r : Nat} {s : State} {a0 : _} (hp : Sub 6947736 p) (hr : Sub 0xe06000000000000000000000000000000000000000000000000000000000000000000000000000000000000000008101e800000000000000000000000000038080300000000000000000000000000000000000000000000000000000000000000000000000000000000000000000000000000000000000000000000000000000000000000000000000000000000020000000000000000000000000000000000000000000000000000000000000000000000000000376000000001fe009f5fff00010000000000000000000000000000000000000000000000000000000000000000 r) :
    ∃ t, execDelayResponseRx a0 s = .next t ∧ Only p r s t := by
  unfold execDelayResponseRx
  refine ⟨_, rfl, ?_⟩
  have h : Only p r s s := Only.refl
  repeat' first
    | with_reducible assumption
    | with_reducible refine State.rxFrame_only (Sub.trans rfl hp) (Sub.trans rfl hr) ?_

theorem execReferenceFrameRx_only {p r : Nat} {s : State} {a0 : _} (hp : Sub 6947736 p) (hr : Sub 0xe06000000000000000000000000000000000000000000000000000000000000000000000000000000000000000008101e800000000000000000000000000038080300000000000000000000000000000000000000000000000000000000000000000000000000000000000000000000000000000000000000000000000000000000000000000000000000000000020000000000000000000000000000000000000000000000000000000000000000000000000000376000000001fe009f5fff00010000000000000000000000000000000000000000000000000000000000000000 r) :
    ∃ t, execReferenceFrameRx a0 s = .next t ∧ Only p r s t := by
  unfold execReferenceFrameRx
  refine ⟨_, rfl, ?_⟩
  have h : Only p r s s := Only.refl
  repeat' first
    | with_reducible assumption
    | with_reducible refine State.rxFrame_only (Sub.trans rfl hp) (Sub.trans rfl hr) ?_

end Sys2Proof.Machine
end

