-- ==== Sys2Proof/Laws/OnlyScheduler.lean ====
section
/-! SUPPORT. Footprints of the operations of Machine/Scheduler.lean. -/
namespace Sys2Proof.Machine
set_option linter.all false
set_option Elab.async false

theorem State.cycleRelease_only {p r : Nat} {s x : State} {a1 : _} (hp : Sub 4227208 p) (hr : Sub 0xe060000000000000000000000000000000000000000000000000000000000000000000000000000000000000000000000000000000000000000000000000000000000000000000000000000000000000000000000000000000000000002000000040000000000000000000000000000000000000000000000000000000000000000000000000000000000000000000000000000000000000000000000000000000000000000000000000000000000000000000000000000000000000000000000000000000000000000000000000000000000000000000000000000000000000000 r) (h : Only p r s x) :
    Only p r s (State.cycleRelease x a1) := by
  unfold State.cycleRelease
  repeat' first
    | with_reducible assumption
    | with_reducible refine State.release_only (Sub.trans rfl hp) (Sub.trans rfl hr) ?_
    | with_reducible refine State.updTask_only (Sub.trans rfl hp) (Sub.trans rfl hr) ?_
    | with_reducible refine Only.ite ?_ ?_
    | intro _
    | (extract_lets +onlyGivenNames y; first | (refine Only.cut (x := y) ?_ ?_; subst y; rotate_left; clear_value y; intro _) | clear_value y)
    | split
    | dsimp only

theorem execTaskReleaseCycle_only {p r : Nat} {s : State} {a0 : _} (hp : Sub 4227208 p) (hr : Sub 0xe060000000000000000000000000000000000000000000000000000000000000000000000000000000000000000000000000000000000000000000000000000000000000000000000000000000000000000000000000000000000000002000000040000000000000000000000000000000000000000000000000000000000000000000000000000000000000000000000000000000000000000000000000000000000000000000000000000000000000000000000000000000000000000000000000000000000000000000000000000000000000000000000000000000000000000 r) :
    ∃ t, execTaskReleaseCycle a0 s = .next t ∧ Only p r s t := by
  unfold execTaskReleaseCycle
  refine ⟨_, rfl, ?_⟩
  have h : Only p r s s := Only.refl
  repeat' first
    | with_reducible assumption
    | with_reducible refine State.cycleRelease_only (Sub.trans rfl hp) (Sub.trans rfl hr) ?_

theorem State.loadTick_only {p r : Nat} {s x : State} {a1 : _} (hp : Sub 32768 p) (hr : Sub 0x400000000000000000000000000000000000000000000000000000000000000000000000000000000000000000000000000000000000000000000000000000000000000000000000000000000000000000000000000000000000000000000000000000000000000000000000000000000000000000000000000000000000000000 r) (h : Only p r s x) :
    Only p r s (State.loadTick x a1) := by
  unfold State.loadTick
  repeat' first
    | with_reducible assumption
    | with_reducible refine Only.set 1030 R.SCH_UNIT_STAT_LOAD_num (Sub.bits hr rfl) ?_
    | with_reducible refine Only.ite ?_ ?_
    | intro _
    | (extract_lets +onlyGivenNames y; first | (refine Only.cut (x := y) ?_ ?_; subst y; rotate_left; clear_value y; intro _) | clear_value y)
    | split
    | dsimp only
    | (first | (with_reducible refine Only.upd_sch (Sub.bits hp rfl) ?_; first | with_reducible assumption | with_reducible refine Only.set 1030 R.SCH_UNIT_STAT_LOAD_num (Sub.bits hr rfl) ?_))

theorem State.listRelease_only {p r : Nat} {s x : State} {a1 : _} (hp : Sub 4227208 p) (hr : Sub 0xe060000000000000000000000000000000000000000000000000000000000000000000000000000000000000000000000000000000000000000000000000000000000000000000000000000000000000000000000000000000000000002000000040000000000000000000000000000000000000000000000000000000000000000000000000000000000000000000000000000000000000000000000000000000000000000000000000000000000000000000000000000000000000000000000000000000000000000000000000000000000000000000000000000000000000000 r) (h : Only p r s x) :
    Only p r s (State.listRelease x a1) := by
  unfold State.listRelease
  repeat' first
    | with_reducible assumption
    | with_reducible refine State.release_only (Sub.trans rfl hp) (Sub.trans rfl hr) ?_
    | with_reducible refine State.updTask_only (Sub.trans rfl hp) (Sub.trans rfl hr) ?_
    | with_reducible refine Only.ite ?_ ?_
    | intro _
    | (extract_lets +onlyGivenNames y; first | (refine Only.cut (x := y) ?_ ?_; subst y; rotate_left; clear_value y; intro _) | clear_value y)
    | split
    | dsimp only

theorem State.endServices_only {p r : Nat} {s x : State} (hp : Sub 4236440 p) (hr : Sub 0xe060000000000000000000000000000000000000000000000000000000000000000000000000000000000000000000000000000000000000000000000000000000000000000000000000000000000000000000000000000000000000003c00000060000000000000000000000000000000000000000000000000000048100800000000000000000000000000000000000000000000000000000000000000000001000000000000000000000000000000000000000000000000000000000000000000000000000000000000000000000000000000000000000000000000000000000 r) (h : Only p r s x) :
    Only p r s (State.endServices x) := by
  unfold State.endServices
  repeat' first
    | with_reducible assumption
    | with_reducible refine State.jobEnd_only (Sub.trans rfl hp) (Sub.trans rfl hr) ?_
    | with_reducible refine Only.ite ?_ ?_
    | with_reducible refine Only.foldl ?_ ?_
    | intro _
    | split
    | dsimp only

theorem State.schedTick_only {p r : Nat} {s x : State} (hp : Sub 4371608 p) (hr : Sub 0xe060000000000000000000000000000000000000000000000000000000000000000000000000000000000000000000000000000000000000000000000000038080300000000000000000000000000000000000000000000000000000003c0000c460000000000000000000000000000000000000000000000000000048100800000000000000000000009fe007ffb0000000000000000000000000000000000001000000000000000000000000000000000000000000000000000000000000000000000000000000000000000000000000000000000000000000000000000000000 r) (h : Only p r s x) :
    Only p r s (State.schedTick x) := by
  unfold State.schedTick
  repeat' first
    | with_reducible assumption
    | with_reducible refine State.listRelease_only (Sub.trans rfl hp) (Sub.trans rfl hr) ?_
    | with_reducible refine State.showLists_only (Sub.trans rfl hp) (Sub.trans rfl hr) ?_
    | with_reducible refine State.endServices_only (Sub.trans rfl hp) (Sub.trans rfl hr) ?_
    | with_reducible refine State.loadTick_only (Sub.trans rfl hp) (Sub.trans rfl hr) ?_
    | with_reducible refine State.rdySample_only (Sub.trans rfl hp) (Sub.trans rfl hr) ?_
    | with_reducible refine Only.ite ?_ ?_
    | with_reducible refine Only.foldl ?_ ?_
    | intro _
    | (extract_lets +onlyGivenNames y; first | (refine Only.cut (x := y) ?_ ?_; subst y; rotate_left; clear_value y; intro _) | clear_value y)
    | split
    | dsimp only
    | (first | (with_reducible refine Only.upd_sch (Sub.bits hp rfl) ?_; first | with_reducible assumption | with_reducible refine State.listRelease_only (Sub.trans rfl hp) (Sub.trans rfl hr) ?_ | with_reducible refine State.showLists_only (Sub.trans rfl hp) (Sub.trans rfl hr) ?_ | with_reducible refine State.endServices_only (Sub.trans rfl hp) (Sub.trans rfl hr) ?_ | with_reducible refine State.loadTick_only (Sub.trans rfl hp) (Sub.trans rfl hr) ?_ | with_reducible refine State.rdySample_only (Sub.trans rfl hp) (Sub.trans rfl hr) ?_))

theorem execSchedulerTick_only {p r : Nat} {s : State} (hp : Sub 4371608 p) (hr : Sub 0xe060000000000000000000000000000000000000000000000000000000000000000000000000000000000000000000000000000000000000000000000000038080300000000000000000000000000000000000000000000000000000003c0000c460000000000000000000000000000000000000000000000000000048100800000000000000000000009fe007ffb0000000000000000000000000000000000001000000000000000000000000000000000000000000000000000000000000000000000000000000000000000000000000000000000000000000000000000000000 r) :
    ∃ t, execSchedulerTick s = .next t ∧ Only p r s t := by
  unfold execSchedulerTick
  refine ⟨_, rfl, ?_⟩
  have h : Only p r s s := Only.refl
  repeat' first
    | with_reducible assumption
    | with_reducible refine State.schedTick_only (Sub.trans rfl hp) (Sub.trans rfl hr) ?_

theorem State.deadlineMiss_only {p r : Nat} {s x : State} {a1 : _} (hp : Sub 4227096 p) (hr : Sub 0xe060000000000000000000000000000000000000000000000000000000000000000000000000000000000000000000000000000000000000000000000000000000000000000000000000000000000000000000000000000000000000001000000020000000000000000000000000000000000000000000000000000000000000000000000000000000000000000000000000000000000000000000000000000000000000000000000000000000000000000000000000000000000000000000000000000000000000000000000000000000000000000000000000000000000000000 r) (h : Only p r s x) :
    Only p r s (State.deadlineMiss x a1) := by
  unfold State.deadlineMiss
  repeat' first
    | with_reducible assumption
    | with_reducible refine Only.snd (q := (State.inject _ _ _)) (by assumption) (State.inject_only (Sub.trans rfl hp) (Sub.trans rfl hr) ?_)
    | with_reducible refine State.inject_only (Sub.trans rfl hp) (Sub.trans rfl hr) ?_
    | with_reducible refine State.missed_only (Sub.trans rfl hp) (Sub.trans rfl hr) ?_
    | with_reducible refine Only.ite ?_ ?_
    | (extract_lets +onlyGivenNames y; first | (refine Only.cut (x := y) ?_ ?_; subst y; rotate_left; clear_value y; intro _) | (refine Only.cut (x := y.1) ?_ ?_; subst y; rotate_left; clear_value y; intro _) | (refine Only.cut (x := y.2) ?_ ?_; subst y; rotate_left; clear_value y; intro _) | (refine Only.cut (x := y.2.2) ?_ ?_; subst y; rotate_left; clear_value y; intro _) | clear_value y)
    | split
    | dsimp only

theorem State.demandRelease_only {p r : Nat} {s x : State} {a1 : _} (hp : Sub 4227208 p) (hr : Sub 0xe06000000000000000000000000000000000000000000000000000000000000000000000000000000000000000000000000000000000000000000000000000000000000000000000000000000000000000000000000000000000000000200000c040000000000000000000000000000000000000000000000000000000000000000000000000000000000000000000000000000000000000000000000000000000000000000000000000000000000000000000000000000000000000000000000000000000000000000000000000000000000000000000000000000000000000000 r) (h : Only p r s x) :
    Only p r s (State.demandRelease x a1) := by
  unfold State.demandRelease
  repeat' first
    | with_reducible assumption
    | with_reducible refine State.release_only (Sub.trans rfl hp) (Sub.trans rfl hr) ?_
    | with_reducible refine State.updTask_only (Sub.trans rfl hp) (Sub.trans rfl hr) ?_
    | with_reducible refine State.showLists_only (Sub.trans rfl hp) (Sub.trans rfl hr) ?_
    | with_reducible refine Only.ite ?_ ?_
    | intro _
    | (extract_lets +onlyGivenNames y; first | (refine Only.cut (x := y) ?_ ?_; subst y; rotate_left; clear_value y; intro _) | clear_value y)
    | split
    | dsimp only

theorem State.reservedRound_only {p r : Nat} {s x : State} {a1 : _} (hp : Sub 4236312 p) (hr : Sub 0xe060000000000000000000000000000000000000000000000000000000000000000000000000000000000000000000000000000000000000000000000000000000000000000000000000000000000000000000000000000000000000000000000000000000000000000000000000000000000000000000000000000048100800000000000000000000000000000000000000000000000000000000000000000001000000000000000000000000000000000000000000000000000000000000000000000000000000000000000000000000000000000000000000000000000000000 r) (h : Only p r s x) :
    Only p r s (State.reservedRound x a1) := by
  unfold State.reservedRound
  repeat' first
    | with_reducible assumption
    | with_reducible refine State.reservedDispatch_only (Sub.trans rfl hp) (Sub.trans rfl hr) ?_
    | with_reducible refine Only.ite ?_ ?_
    | split

theorem State.edfUnit_only {p r : Nat} {s x : State} {a1 : _} (hp : Sub 41992 p) (hr : Sub 0x48100800000000000000000000000000000000000000000000000000000000000000000001000000000000000000000000000000000000000000000000000000000000000000000000000000000000000000000000000000000000000000000000000000000 r) (h : Only p r s x) :
    Only p r s (State.edfUnit x a1) := by
  unfold State.edfUnit
  repeat' first
    | with_reducible assumption
    | with_reducible refine State.dispatch_only (Sub.trans rfl hp) (Sub.trans rfl hr) ?_
    | with_reducible refine Only.ite ?_ ?_
    | intro _
    | (extract_lets +onlyGivenNames y; first | (refine Only.cut (x := y) ?_ ?_; subst y; rotate_left; clear_value y; intro _) | clear_value y)
    | split
    | dsimp only

theorem State.letIn_only {p r : Nat} {s x : State} (hp : Sub 32768 p) (_hr : Sub 0 r) (h : Only p r s x) :
    Only p r s (State.letIn x) := by
  unfold State.letIn
  repeat' first
    | with_reducible assumption
    | intro _
    | (extract_lets +onlyGivenNames y; first | (refine Only.cut (x := y) ?_ ?_; subst y; rotate_left; clear_value y; intro _) | clear_value y)
    | dsimp only
    | (first | (with_reducible refine Only.upd_sch (Sub.bits hp rfl) ?_; first | with_reducible assumption))

theorem State.edfRound_only {p r : Nat} {s x : State} (hp : Sub 4236440 p) (hr : Sub 0xe060000000000000000000000000000000000000000000000000000000000000000000000000000000000000000000000000000000000000000000000000000000000000000000000000000000000000000000000000000000000000003c00000060000000000000000000000000000000000000000000000000000048100800000000000000000000000000000000000000000000000000000000000000000001000000000000000000000000000000000000000000000000000000000000000000000000000000000000000000000000000000000000000000000000000000000 r) (h : Only p r s x) :
    Only p r s (State.edfRound x) := by
  unfold State.edfRound
  repeat' first
    | with_reducible assumption
    | with_reducible refine State.edfUnit_only (Sub.trans rfl hp) (Sub.trans rfl hr) ?_
    | with_reducible refine State.endServices_only (Sub.trans rfl hp) (Sub.trans rfl hr) ?_
    | with_reducible refine State.letIn_only (Sub.trans rfl hp) (Sub.trans rfl hr) ?_
    | with_reducible refine Only.foldl ?_ ?_
    | intro _

theorem execEdfRound_only {p r : Nat} {s : State} (hp : Sub 4236440 p) (hr : Sub 0xe060000000000000000000000000000000000000000000000000000000000000000000000000000000000000000000000000000000000000000000000000000000000000000000000000000000000000000000000000000000000000003c00000060000000000000000000000000000000000000000000000000000048100800000000000000000000000000000000000000000000000000000000000000000001000000000000000000000000000000000000000000000000000000000000000000000000000000000000000000000000000000000000000000000000000000000 r) :
    ∃ t, execEdfRound s = .next t ∧ Only p r s t := by
  unfold execEdfRound
  refine ⟨_, rfl, ?_⟩
  have h : Only p r s s := Only.refl
  repeat' first
    | with_reducible assumption
    | with_reducible refine State.edfRound_only (Sub.trans rfl hp) (Sub.trans rfl hr) ?_

theorem execDeadlineMiss_only {p r : Nat} {s : State} {a0 : _} (hp : Sub 4227096 p) (hr : Sub 0xe060000000000000000000000000000000000000000000000000000000000000000000000000000000000000000000000000000000000000000000000000000000000000000000000000000000000000000000000000000000000000001000000020000000000000000000000000000000000000000000000000000000000000000000000000000000000000000000000000000000000000000000000000000000000000000000000000000000000000000000000000000000000000000000000000000000000000000000000000000000000000000000000000000000000000000 r) :
    ∃ t, execDeadlineMiss a0 s = .next t ∧ Only p r s t := by
  unfold execDeadlineMiss
  refine ⟨_, rfl, ?_⟩
  have h : Only p r s s := Only.refl
  repeat' first
    | with_reducible assumption
    | with_reducible refine State.deadlineMiss_only (Sub.trans rfl hp) (Sub.trans rfl hr) ?_

theorem execTaskReleaseDemand_only {p r : Nat} {s : State} {a0 : _} (hp : Sub 4227208 p) (hr : Sub 0xe06000000000000000000000000000000000000000000000000000000000000000000000000000000000000000000000000000000000000000000000000000000000000000000000000000000000000000000000000000000000000000200000c040000000000000000000000000000000000000000000000000000000000000000000000000000000000000000000000000000000000000000000000000000000000000000000000000000000000000000000000000000000000000000000000000000000000000000000000000000000000000000000000000000000000000000 r) :
    ∃ t, execTaskReleaseDemand a0 s = .next t ∧ Only p r s t := by
  unfold execTaskReleaseDemand
  refine ⟨_, rfl, ?_⟩
  have h : Only p r s s := Only.refl
  repeat' first
    | with_reducible assumption
    | with_reducible refine State.demandRelease_only (Sub.trans rfl hp) (Sub.trans rfl hr) ?_

theorem execJobDispatchReserved_only {p r : Nat} {s : State} {a0 : _} (hp : Sub 4236312 p) (hr : Sub 0xe060000000000000000000000000000000000000000000000000000000000000000000000000000000000000000000000000000000000000000000000000000000000000000000000000000000000000000000000000000000000000000000000000000000000000000000000000000000000000000000000000000048100800000000000000000000000000000000000000000000000000000000000000000001000000000000000000000000000000000000000000000000000000000000000000000000000000000000000000000000000000000000000000000000000000000 r) :
    ∃ t, execJobDispatchReserved a0 s = .next t ∧ Only p r s t := by
  unfold execJobDispatchReserved
  refine ⟨_, rfl, ?_⟩
  have h : Only p r s s := Only.refl
  repeat' first
    | with_reducible assumption
    | with_reducible refine State.reservedRound_only (Sub.trans rfl hp) (Sub.trans rfl hr) ?_

end Sys2Proof.Machine
end

