-- ==== Sys2Proof/Laws/Exec.lean ====
section
/-! SUPPORT. What every command keeps, whatever it does: the queue, and the soundness of registers and memories. -/
namespace Sys2Proof.Machine
set_option linter.all false
set_option Elab.async false

/-- The commands that a test of their own form guards. -/
theorem checked_next {i : Instr} {s t : State} (h : checked i s = .next t) : i.wf = true := by
  unfold checked at h
  split at h
  · assumption
  · cases h

theorem Only.of_next {p r : Nat} {s t : State} {o : Out} (k : ∃ u, o = .next u ∧ Only p r s u) (h : o = .next t) : Only p r s t := by
  obtain ⟨u, e, hu⟩ := k
  cases e.symm.trans h
  exact hu

/-- The mask of every register field. -/
def allFieldsMask : Nat :=
  0xffffffffffffffffffffffffffffffffffffffffffffffffffffffffffffffffffffffffffffffffffffffffffffffffffffffffffffffffffffffffffffffffffffffffffffffffffffffffffffffffffffffffffffffffffffffffffffffffffffffffffffffffffffffffffffffffffffffffffffffffffffffffffffffffffffffffffffffffffffffffffffffffffffffffffffffffffffffffffffffffffffffffffffffffffffffffffffffffffffffffffffffffffffffffffffffffffffffffffffffffffffffffffffffffffffffffffffffffffffffffffffffffffffffffffffffffffffffffffffffffffffffffffffffffffffffffffffffffffffffffffffffffffffffffffffffff

/-- No command touches the queue, and every command keeps registers and memories sound. -/
theorem exec_only {i : Instr} {s t : State} (h : exec i s = .next t) : Only 0x1fffffffe allFieldsMask s t := by
  cases i with
  | timeBaseTick _ _ => exact Only.of_next (execTimeBaseTick_only rfl rfl) h
  | cycleBoundary => exact Only.of_next (execCycleBoundary_only rfl rfl) h
  | solverPeriodBoundary => exact Only.of_next (execSolverPeriodBoundary_only rfl rfl) h
  | sundialWindowEnd _ _ => exact Only.of_next (execSundialWindowEnd_only rfl rfl) h
  | arbiterRound _ _ _ => exact Only.of_next (execArbiterRound_only rfl rfl) h
  | escalation => exact Only.of_next (execEscalation_only rfl rfl) h
  | commitSwap => exact Only.of_next (execCommitSwap_only rfl rfl) h
  | shadowCopyEnd => exact Only.of_next (execShadowCopyEnd_only rfl rfl) h
  | windowBoundary => exact Only.of_next (execWindowBoundary_only rfl rfl) h
  | tbRefLoss => exact Only.of_next (execTbRefLoss_only rfl rfl) h
  | tbUnlock => exact Only.of_next (execTbUnlock_only rfl rfl) h
  | refRelock => exact Only.of_next (execRefRelock_only rfl rfl) h
  | stepAbsolute _ => exact Only.of_next (execStepAbsolute_only rfl rfl) h
  | stepRelative _ => exact Only.of_next (execStepRelative_only rfl rfl) h
  | stepPtp => exact Only.of_next (execStepPtp_only rfl rfl) h
  | stepApply => exact Only.of_next (execStepApply_only rfl rfl) h
  | fracWrite _ _ => exact Only.of_next (execFracWrite_only rfl rfl) h
  | fracApply => exact Only.of_next (execFracApply_only rfl rfl) h
  | captureEdge _ _ _ => exact Only.of_next (execCaptureEdge_only rfl rfl) h
  | capRead _ => exact Only.of_next (execCapRead_only rfl rfl) h
  | tbNsRead _ => exact Only.of_next (execTbNsRead_only rfl rfl) h
  | lowWordRead _ => exact Only.of_next (execLowWordRead_only rfl rfl) h
  | rcRead _ _ => exact Only.of_next (execRcRead_only rfl rfl) h
  | triggerArm _ _ _ => exact Only.of_next (execTriggerArm_only rfl rfl) h
  | triggerFire _ => exact Only.of_next (execTriggerFire_only rfl rfl) h
  | ppsOutRise => exact Only.of_next (execPpsOutRise_only rfl rfl) h
  | ppsOutFall => exact Only.of_next (execPpsOutFall_only rfl rfl) h
  | ptpMessageRx _ => exact Only.of_next (execPtpMessageRx_only rfl rfl) h
  | ptpMessageTx _ => exact Only.of_next (execPtpMessageTx_only rfl rfl) h
  | ptpMasterLost _ => exact Only.of_next (execPtpMasterLost_only rfl rfl) h
  | linkUp _ => exact Only.of_next (execLinkUp_only rfl rfl) h
  | linkDown _ => exact Only.of_next (execLinkDown_only rfl rfl) h
  | trainingTimeout _ => exact Only.of_next (execTrainingTimeout_only rfl rfl) h
  | trainingRetry _ => exact Only.of_next (execTrainingRetry_only rfl rfl) h
  | linkRetrain _ => exact Only.of_next (execLinkRetrain_only rfl rfl) h
  | cyclicFrameRx _ => exact Only.of_next (execCyclicFrameRx_only rfl rfl) h
  | cbDrift _ => exact Only.of_next (execCbDrift_only rfl rfl) h
  | quarantine _ => exact Only.of_next (execQuarantine_only rfl rfl) h
  | acyclicFrameRx _ => exact Only.of_next (execAcyclicFrameRx_only rfl rfl) h
  | referenceFrameRx _ => exact Only.of_next (execReferenceFrameRx_only rfl rfl) h
  | delayResponseRx _ => exact Only.of_next (execDelayResponseRx_only rfl rfl) h
  | joinAnnounceRx _ => exact Only.of_next (execJoinAnnounceRx_only rfl rfl) h
  | joinValidRx _ => exact Only.of_next (execJoinValidRx_only rfl rfl) h
  | twinFrameRx _ => exact Only.of_next (execTwinFrameRx_only rfl rfl) h
  | echoFrameRx _ => exact Only.of_next (execEchoFrameRx_only rfl rfl) h
  | macsecChangeover _ => exact Only.of_next (execMacsecChangeover_only rfl rfl) h
  | rxSaRetire _ => exact Only.of_next (execRxSaRetire_only rfl rfl) h
  | slotLaunch _ => exact Only.of_next (execSlotLaunch_only rfl rfl) h
  | acyclicLaunch _ => exact Only.of_next (execAcyclicLaunch_only rfl rfl) h
  | acycWindowEnd _ => exact Only.of_next (execAcycWindowEnd_only rfl rfl) h
  | referenceLaunch _ => exact Only.of_next (execReferenceLaunch_only rfl rfl) h
  | partnerActivate _ => exact Only.of_next (execPartnerActivate_only rfl rfl) h
  | cbJoinTimeout _ => exact Only.of_next (execCbJoinTimeout_only rfl rfl) h
  | slotMissing _ => exact Only.of_next (execSlotMissing_only rfl rfl) h
  | slotSelect _ => exact Only.of_next (execSlotSelect_only rfl rfl) h
  | dpSample _ => exact Only.of_next (execDpSample_only rfl rfl) h
  | dpEdge _ _ _ => exact Only.of_next (execDpEdge_only rfl rfl) h
  | hallEdge _ _ => exact Only.of_next (execHallEdge_only rfl rfl) h
  | indexEvent _ => exact Only.of_next (execIndexEvent_only rfl rfl) h
  | ssiFrameStart _ => exact Only.of_next (execSsiFrameStart_only rfl rfl) h
  | ssiFrameEnd _ => exact Only.of_next (execSsiFrameEnd_only rfl rfl) h
  | feedbackUpdate _ => exact Only.of_next (execFeedbackUpdate_only rfl rfl) h
  | fbLost _ => exact Only.of_next (execFbLost_only rfl rfl) h
  | fbStandstill _ => exact Only.of_next (execFbStandstill_only rfl rfl) h
  | eoEnable _ => exact Only.of_next (execEoEnable_only rfl rfl) h
  | mpy4 _ _ _ _ _ => exact Only.of_next (execMpy4_only (checked_next h) rfl rfl) h
  | mac4 _ _ _ _ _ => exact Only.of_next (execMac4_only (checked_next h) rfl rfl) h
  | msu4 _ _ _ _ _ => exact Only.of_next (execMsu4_only (checked_next h) rfl rfl) h
  | ftap _ _ _ _ _ => exact Only.of_next (execFtap_only (checked_next h) rfl rfl) h
  | lda _ _ _ _ _ _ _ => exact Only.of_next (execLda_only (checked_next h) rfl rfl) h
  | st _ _ _ _ _ _ _ => exact Only.of_next (execSt_only (checked_next h) rfl rfl) h
  | adda _ _ _ _ => exact Only.of_next (execAdda_only (checked_next h) rfl rfl) h
  | suba _ _ _ _ => exact Only.of_next (execSuba_only (checked_next h) rfl rfl) h
  | mova _ _ _ _ => exact Only.of_next (execMova_only (checked_next h) rfl rfl) h
  | clamp _ _ _ _ => exact Only.of_next (execClamp_only (checked_next h) rfl rfl) h
  | tst _ _ _ _ _ => exact Only.of_next (execTst_only (checked_next h) rfl rfl) h
  | clr _ _ => exact Only.of_next (execClr_only (checked_next h) rfl rfl) h
  | tlNop _ => exact Only.of_next (execTlNop_only rfl rfl) h
  | tlEnd _ => exact Only.of_next (execTlEnd_only rfl rfl) h
  | tlSatTime _ => exact Only.of_next (execTlSatTime_only rfl rfl) h
  | preloadFallbackStart _ => exact Only.of_next (execPreloadFallbackStart_only rfl rfl) h
  | preloadComplete _ => exact Only.of_next (execPreloadComplete_only rfl rfl) h
  | scrubRead _ => exact Only.of_next (execScrubRead_only rfl rfl) h
  | armServoOn _ => exact Only.of_next (execArmServoOn_only rfl rfl) h
  | armServoStop _ => exact Only.of_next (execArmServoStop_only rfl rfl) h
  | armServoResume _ => exact Only.of_next (execArmServoResume_only rfl rfl) h
  | armServoReset _ => exact Only.of_next (execArmServoReset_only rfl rfl) h
  | armServoApply _ => exact Only.of_next (execArmServoApply_only rfl rfl) h
  | standstillReached _ => exact Only.of_next (execStandstillReached_only rfl rfl) h
  | ss1TimeoutExpiry _ => exact Only.of_next (execSs1TimeoutExpiry_only rfl rfl) h
  | generatorSample _ => exact Only.of_next (execGeneratorSample_only rfl rfl) h
  | movePlan _ => exact Only.of_next (execMovePlan_only rfl rfl) h
  | velocityWordLoad _ => exact Only.of_next (execVelocityWordLoad_only rfl rfl) h
  | stkRdyChange _ _ => exact Only.of_next (execStkRdyChange_only rfl rfl) h
  | axinLevelChange _ _ => exact Only.of_next (execAxinLevelChange_only rfl rfl) h
  | mpChatter _ => exact Only.of_next (execMpChatter_only rfl rfl) h
  | homeShift _ => exact Only.of_next (execHomeShift_only rfl rfl) h
  | solveEnd _ => exact Only.of_next (execSolveEnd_only rfl rfl) h
  | solveCut _ _ _ => exact Only.of_next (execSolveCut_only rfl rfl) h
  | svStopReq _ => exact Only.of_next (execSvStopReq_only rfl rfl) h
  | forceColdWrite _ => exact Only.of_next (execForceColdWrite_only rfl rfl) h
  | sepProtectionEnd _ => exact Only.of_next (execSepProtectionEnd_only rfl rfl) h
  | sepRowsEnd => exact Only.of_next (execSepRowsEnd_only rfl rfl) h
  | sepGeomFail => exact Only.of_next (execSepGeomFail_only rfl rfl) h
  | bvPoseStart => exact Only.of_next (execBvPoseStart_only rfl rfl) h
  | bvComparison => exact Only.of_next (execBvComparison_only rfl rfl) h
  | sepBvMissed => exact Only.of_next (execSepBvMissed_only rfl rfl) h
  | bvDelayExpiry _ => exact Only.of_next (execBvDelayExpiry_only rfl rfl) h
  | sepBvSs1 _ => exact Only.of_next (execSepBvSs1_only rfl rfl) h
  | schedulerTick => exact Only.of_next (execSchedulerTick_only rfl rfl) h
  | taskReleaseCycle _ => exact Only.of_next (execTaskReleaseCycle_only rfl rfl) h
  | taskReleaseDemand _ => exact Only.of_next (execTaskReleaseDemand_only rfl rfl) h
  | jobDispatchReserved _ => exact Only.of_next (execJobDispatchReserved_only rfl rfl) h
  | edfRound => exact Only.of_next (execEdfRound_only rfl rfl) h
  | deadlineMiss _ => exact Only.of_next (execDeadlineMiss_only rfl rfl) h
  | meMoveCopy _ _ => exact Only.of_next (execMeMoveCopy_only rfl rfl) h
  | meMovePack _ _ => exact Only.of_next (execMeMovePack_only rfl rfl) h
  | meMoveUnpack _ _ => exact Only.of_next (execMeMoveUnpack_only rfl rfl) h
  | meLoop _ _ _ => exact Only.of_next (execMeLoop_only rfl rfl) h
  | meWaitSlot _ _ _ => exact Only.of_next (execMeWaitSlot_only rfl rfl) h
  | meWaitTiller _ _ _ => exact Only.of_next (execMeWaitTiller_only rfl rfl) h
  | meWaitTime _ _ => exact Only.of_next (execMeWaitTime_only rfl rfl) h
  | meWaitBoundary _ _ => exact Only.of_next (execMeWaitBoundary_only rfl rfl) h
  | meWaitFlag _ _ => exact Only.of_next (execMeWaitFlag_only rfl rfl) h
  | meWaitComplete _ => exact Only.of_next (execMeWaitComplete_only rfl rfl) h
  | meBarrierRelease _ => exact Only.of_next (execMeBarrierRelease_only rfl rfl) h
  | meSignalHandover _ _ => exact Only.of_next (execMeSignalHandover_only rfl rfl) h
  | meSignalFlag _ _ => exact Only.of_next (execMeSignalFlag_only rfl rfl) h
  | meSignalEvent _ _ => exact Only.of_next (execMeSignalEvent_only rfl rfl) h
  | meSignalDone _ => exact Only.of_next (execMeSignalDone_only rfl rfl) h
  | meCtrlStart _ => exact Only.of_next (execMeCtrlStart_only rfl rfl) h
  | meCtrlAbort _ => exact Only.of_next (execMeCtrlAbort_only rfl rfl) h
  | meCtrlReset _ => exact Only.of_next (execMeCtrlReset_only rfl rfl) h
  | sqDoorbell _ _ => exact Only.of_next (execSqDoorbell_only rfl rfl) h
  | cqDoorbell _ _ => exact Only.of_next (execCqDoorbell_only rfl rfl) h
  | sqEnable _ => exact Only.of_next (execSqEnable_only rfl rfl) h
  | sqDisable _ => exact Only.of_next (execSqDisable_only rfl rfl) h
  | cqEnable _ => exact Only.of_next (execCqEnable_only rfl rfl) h
  | cqDisable _ => exact Only.of_next (execCqDisable_only rfl rfl) h
  | descriptorFetch _ _ => exact Only.of_next (execDescriptorFetch_only rfl rfl) h
  | msixMessage _ => exact Only.of_next (execMsixMessage_only rfl rfl) h
  | hostReset => exact Only.of_next (execHostReset_only rfl rfl) h
  | bar0BadAccess _ => exact Only.of_next (execBar0BadAccess_only rfl rfl) h
  | regWrite _ _ => exact Only.of_next (execRegWrite_only rfl rfl) h
  | nop _ => exact Only.of_next (execNop_only rfl rfl) h
  | paramWrite _ _ => exact Only.of_next (execParamWrite_only rfl rfl) h
  | commit _ => exact Only.of_next (execCommit_only rfl rfl) h
  | snapshot _ _ => exact Only.of_next (execSnapshot_only rfl rfl) h
  | imageLoad _ => exact Only.of_next (execImageLoad_only rfl rfl) h
  | selfTest _ => exact Only.of_next (execSelfTest_only rfl rfl) h
  | offlineSolve _ => exact Only.of_next (execOfflineSolve_only rfl rfl) h
  | bbDump _ => exact Only.of_next (execBbDump_only rfl rfl) h
  | fwUpdate _ => exact Only.of_next (execFwUpdate_only rfl rfl) h
  | longAbort _ => exact Only.of_next (execLongAbort_only rfl rfl) h
  | longOpStatusUpdate _ _ _ _ _ => exact Only.of_next (execLongOpStatusUpdate_only rfl rfl) h
  | longOpEnd _ _ => exact Only.of_next (execLongOpEnd_only rfl rfl) h
  | move _ => exact Only.of_next (execMove_only rfl rfl) h
  | moveGroup _ _ => exact Only.of_next (execMoveGroup_only rfl rfl) h
  | abort _ => exact Only.of_next (execAbort_only rfl rfl) h
  | home _ => exact Only.of_next (execHome_only rfl rfl) h
  | mpClear _ => exact Only.of_next (execMpClear_only rfl rfl) h
  | fbClear _ => exact Only.of_next (execFbClear_only rfl rfl) h
  | macsecKey _ => exact Only.of_next (execMacsecKey_only rfl rfl) h
  | macsecKek _ => exact Only.of_next (execMacsecKek_only rfl rfl) h
  | partnerRelease _ => exact Only.of_next (execPartnerRelease_only rfl rfl) h
  | partnerQuarantine _ => exact Only.of_next (execPartnerQuarantine_only rfl rfl) h
  | acyclicSend _ _ => exact Only.of_next (execAcyclicSend_only rfl rfl) h
  | acyclicRecv _ => exact Only.of_next (execAcyclicRecv_only rfl rfl) h
  | twCmdHandover _ => exact Only.of_next (execTwCmdHandover_only rfl rfl) h
  | twCmdSwitchBack _ => exact Only.of_next (execTwCmdSwitchBack_only rfl rfl) h
  | twCmdAlign _ => exact Only.of_next (execTwCmdAlign_only rfl rfl) h
  | twCmdRepair _ => exact Only.of_next (execTwCmdRepair_only rfl rfl) h
  | evCmdFreeze _ => exact Only.of_next (execEvCmdFreeze_only rfl rfl) h
  | evCmdUnfreeze _ => exact Only.of_next (execEvCmdUnfreeze_only rfl rfl) h
  | evCmdAck _ => exact Only.of_next (execEvCmdAck_only rfl rfl) h
  | evCmdMark _ => exact Only.of_next (execEvCmdMark_only rfl rfl) h
  | evCmdClear _ => exact Only.of_next (execEvCmdClear_only rfl rfl) h
  | evCmdClearFatal _ => exact Only.of_next (execEvCmdClearFatal_only rfl rfl) h
  | evCmdBbRelease _ => exact Only.of_next (execEvCmdBbRelease_only rfl rfl) h
  | evCmdBbErase _ => exact Only.of_next (execEvCmdBbErase_only rfl rfl) h
  | injCmdLoadKey _ => exact Only.of_next (execInjCmdLoadKey_only rfl rfl) h
  | injCmdClearKey _ => exact Only.of_next (execInjCmdClearKey_only rfl rfl) h
  | injCmdArm _ => exact Only.of_next (execInjCmdArm_only rfl rfl) h
  | injCmdDisarm _ => exact Only.of_next (execInjCmdDisarm_only rfl rfl) h
  | injCmdDisarmAll _ => exact Only.of_next (execInjCmdDisarmAll_only rfl rfl) h
  | cellEnable => exact Only.of_next (execCellEnable_only rfl rfl) h
  | enableCheckEnd _ => exact Only.of_next (execEnableCheckEnd_only rfl rfl) h
  | cellDisable => exact Only.of_next (execCellDisable_only rfl rfl) h
  | disableComplete => exact Only.of_next (execDisableComplete_only rfl rfl) h
  | disableTimeout => exact Only.of_next (execDisableTimeout_only rfl rfl) h
  | leaseTx => exact Only.of_next (execLeaseTx_only rfl rfl) h
  | leaseRx _ => exact Only.of_next (execLeaseRx_only rfl rfl) h
  | ackTx => exact Only.of_next (execAckTx_only rfl rfl) h
  | ackRx _ => exact Only.of_next (execAckRx_only rfl rfl) h
  | claimRx _ => exact Only.of_next (execClaimRx_only rfl rfl) h
  | releaseRx _ => exact Only.of_next (execReleaseRx_only rfl rfl) h
  | xferRx _ => exact Only.of_next (execXferRx_only rfl rfl) h
  | syncExchange _ _ => exact Only.of_next (execSyncExchange_only rfl rfl) h
  | syncRx _ => exact Only.of_next (execSyncRx_only rfl rfl) h
  | statusTx => exact Only.of_next (execStatusTx_only rfl rfl) h
  | statusRx _ => exact Only.of_next (execStatusRx_only rfl rfl) h
  | echoTx _ => exact Only.of_next (execEchoTx_only rfl rfl) h
  | renewalToken => exact Only.of_next (execRenewalToken_only rfl rfl) h
  | leaseExpiry => exact Only.of_next (execLeaseExpiry_only rfl rfl) h
  | releasedHolderTimeout => exact Only.of_next (execReleasedHolderTimeout_only rfl rfl) h
  | twHandoverSwitch => exact Only.of_next (execTwHandoverSwitch_only rfl rfl) h
  | twinPeerOff => exact Only.of_next (execTwinPeerOff_only rfl rfl) h
  | transferTimeout => exact Only.of_next (execTransferTimeout_only rfl rfl) h
  | twPaired => exact Only.of_next (execTwPaired_only rfl rfl) h
  | twDigestMissing => exact Only.of_next (execTwDigestMissing_only rfl rfl) h
  | twEchoLost _ => exact Only.of_next (execTwEchoLost_only rfl rfl) h
  | switchbackHoldoff => exact Only.of_next (execSwitchbackHoldoff_only rfl rfl) h
  | eventInputPost => exact Only.of_next (execEventInputPost_only rfl rfl) h
  | recordStore => exact Only.of_next (execRecordStore_only rfl rfl) h
  | evFreezeTimeout => exact Only.of_next (execEvFreezeTimeout_only rfl rfl) h
  | evCursorWrite _ => exact Only.of_next (execEvCursorWrite_only rfl rfl) h
  | eventInterrupt => exact Only.of_next (execEventInterrupt_only rfl rfl) h
  | pretriggerMove => exact Only.of_next (execPretriggerMove_only rfl rfl) h
  | orangeryCommitRecord => exact Only.of_next (execOrangeryCommitRecord_only rfl rfl) h
  | bbEscOnly => exact Only.of_next (execBbEscOnly_only rfl rfl) h
  | powerLossSnapshot => exact Only.of_next (execPowerLossSnapshot_only rfl rfl) h
  | evFreezeDbg _ => exact Only.of_next (execEvFreezeDbg_only rfl rfl) h
  | evReadDbg _ => exact Only.of_next (execEvReadDbg_only rfl rfl) h
  | bbReadDbg _ _ => exact Only.of_next (execBbReadDbg_only rfl rfl) h
  | bbResponderRequest _ _ => exact Only.of_next (execBbResponderRequest_only rfl rfl) h
  | adcConversionEnd _ => exact Only.of_next (execAdcConversionEnd_only rfl rfl) h
  | adLimit _ => exact Only.of_next (execAdLimit_only rfl rfl) h
  | adcUrgentRequest _ => exact Only.of_next (execAdcUrgentRequest_only rfl rfl) h
  | adcResRead _ => exact Only.of_next (execAdcResRead_only rfl rfl) h
  | safetyInputChange _ _ => exact Only.of_next (execSafetyInputChange_only rfl rfl) h
  | safetyDiscrepancy _ => exact Only.of_next (execSafetyDiscrepancy_only rfl rfl) h
  | estopSs1Expiry => exact Only.of_next (execEstopSs1Expiry_only rfl rfl) h
  | stoReadbackMismatch _ _ _ => exact Only.of_next (execStoReadbackMismatch_only rfl rfl) h
  | stoTestPulse _ _ _ => exact Only.of_next (execStoTestPulse_only rfl rfl) h
  | globalRelease => exact Only.of_next (execGlobalRelease_only rfl rfl) h
  | ioWdog => exact Only.of_next (execIoWdog_only rfl rfl) h
  | wedgeSafeBoundary => exact Only.of_next (execWedgeSafeBoundary_only rfl rfl) h
  | powerOn => exact Only.of_next (execPowerOn_only rfl rfl) h
  | pinReset => exact Only.of_next (execPinReset_only rfl rfl) h
  | softReset _ => exact Only.of_next (execSoftReset_only rfl rfl) h
  | powerFailSignal _ => exact Only.of_next (execPowerFailSignal_only rfl rfl) h
  | pwSupply _ _ => exact Only.of_next (execPwSupply_only rfl rfl) h
  | resetRelease => exact Only.of_next (execResetRelease_only rfl rfl) h
  | timeIslandLock _ => exact Only.of_next (execTimeIslandLock_only rfl rfl) h
  | memoryClearComplete => exact Only.of_next (execMemoryClearComplete_only rfl rfl) h
  | secureBootComplete _ _ _ => exact Only.of_next (execSecureBootComplete_only rfl rfl) h
  | pwVr _ _ => exact Only.of_next (execPwVr_only rfl rfl) h
  | holdupOkSet => exact Only.of_next (execHoldupOkSet_only rfl rfl) h
  | pwHoldupLow => exact Only.of_next (execPwHoldupLow_only rfl rfl) h
  | islandPowerOff _ => exact Only.of_next (execIslandPowerOff_only rfl rfl) h
  | islandPowerOn _ => exact Only.of_next (execIslandPowerOn_only rfl rfl) h
  | forceOffWrite _ _ => exact Only.of_next (execForceOffWrite_only rfl rfl) h
  | pwIslandForced _ => exact Only.of_next (execPwIslandForced_only rfl rfl) h
  | pwMgmtWdog => exact Only.of_next (execPwMgmtWdog_only rfl rfl) h
  | pwNvosc => exact Only.of_next (execPwNvosc_only rfl rfl) h
  | nvOscStop => exact Only.of_next (execNvOscStop_only rfl rfl) h
  | tempReading _ => exact Only.of_next (execTempReading_only rfl rfl) h
  | upConditionsChange _ _ => exact Only.of_next (execUpConditionsChange_only rfl rfl) h
  | localRemoteFault _ _ => exact Only.of_next (execLocalRemoteFault_only rfl rfl) h
  | vddnvLoss => exact Only.of_next (execVddnvLoss_only rfl rfl) h

end Sys2Proof.Machine
end

