-- ==== Sys2Proof/Laws/OnlyStep.lean ====
section
/-! SUPPORT. Footprints of the operations of Machine/Step.lean. -/
namespace Sys2Proof.Machine
set_option linter.all false
set_option Elab.async false

theorem State.withFront_only {p r : Nat} {s x : State} {a1 : _} (hp : Sub 1 p) (_hr : Sub 0 r) (h : Only p r s x) :
    Only p r s (State.withFront x a1) := by
  unfold State.withFront
  repeat' first
    | with_reducible assumption
    | (extract_lets +onlyGivenNames y; first | (refine Only.cut (x := y) ?_ ?_; subst y; rotate_left; clear_value y; intro _) | clear_value y)
    | (first | (with_reducible refine Only.upd_pending (Sub.bits hp rfl) ?_; first | with_reducible assumption))

theorem State.withFetchWord_only {p r : Nat} {s x : State} {a1 a2 : _} (hp : Sub 1 p) (hr : Sub 0 r) (h : Only p r s x) :
    Only p r s (State.withFetchWord x a1 a2) := by
  unfold State.withFetchWord
  repeat' first
    | with_reducible assumption
    | with_reducible refine State.withFront_only (Sub.trans rfl hp) (Sub.trans rfl hr) ?_
    | (extract_lets +onlyGivenNames y; first | (refine Only.cut (x := y) ?_ ?_; subst y; rotate_left; clear_value y; intro _) | clear_value y)
    | split
    | dsimp only

end Sys2Proof.Machine
end

