-- ==== Sys2Proof/Tests/Slice0.lean ====
section
/-! SUPPORT. Tests: ill-formed terms that the checks refuse, program words written out from their encodings, and states that meet the
hypotheses of the obligations. -/
namespace Sys2Proof
set_option Elab.async false
open Machine

/-! ### WellFormed refuses what R169 and reason 0x78 refuse -/

theorem test_wf_lanes : (Instr.mpy4 0 0 0 5 1).wf = false := by decide
theorem test_wf_lanes_mac : (Instr.mac4 0 0 0 5 1).wf = false := by decide
theorem test_wf_cond : (Instr.msu4 0 1 5 5 1).wf = false := by decide
theorem test_wf_ftap : (Instr.ftap 0 0 false 511 0).wf = false := by decide
theorem test_wf_lda_quad : (Instr.lda 0 1 0 false 509 0 true).wf = false := by decide
theorem test_wf_lda_shift : (Instr.lda 0 1 0 false 5 41 false).wf = false := by decide
theorem test_wf_st_lanes : (Instr.st 0 3 0 false 5 0 false).wf = false := by decide
theorem test_wf_st_window : (Instr.st 0 1 0 true 127 0 false).wf = false := by decide
theorem test_wf_adda_cond : (Instr.adda 0 1 2 6).wf = false := by decide
theorem test_wf_suba_cond : (Instr.suba 0 1 2 5).wf = false := by decide
theorem test_wf_mova_cond : (Instr.mova 0 1 2 7).wf = false := by decide
theorem test_wf_clamp_odd : (Instr.clamp 0 1 5 0).wf = false := by decide
theorem test_wf_clamp_shift : (Instr.clamp 0 1 4 41).wf = false := by decide
theorem test_wf_clr : (Instr.clr 0 0).wf = false := by decide
theorem test_wf_ok : (Instr.st 0 1 0 true 128 0 false).wf = true := by decide

/-! ### Values the spec works out -/

/-- R82: the CRC-32C of the nine characters 123456789. -/
theorem test_crc32c_check : crc32c [0x31, 0x32, 0x33, 0x34, 0x35, 0x36, 0x37, 0x38, 0x39] = 0xE3069283 := by
  decide +kernel

/-- R45, worked example of chapter 02: the tick with a carry of SUB and a carry into the seconds. -/
theorem test_counter_carry :
    (Counter.mk 41 999999992 4290772992).advance 6871947 = { sec := 42, ns := 1, sub := 2677643 } := by decide

/-- R45, worked example of chapter 02: the tick after it, with no carry. -/
theorem test_counter_no_carry : (Counter.mk 42 1 2677643).advance 6871947 = { sec := 42, ns := 9, sub := 9549590 } := by
  decide

/-! ### Tiller words written out from R168, field by field -/

theorem test_word_mac4 :
    tillerDecode 7 0b00010_1010_001_000000101_0000011_0000#32 = some (.mac4 7 0b1010 1 5 3) := by decide
theorem test_word_ftap :
    tillerDecode 0 0b00100_10_1_000_000000101_000000110_000#32 = some (.ftap 0 2 true 5 6) := by decide
theorem test_word_lda :
    tillerDecode 0 0b00101_0001_010_1_000001001_101000_0_000#32 = some (.lda 0 1 2 true 9 40 false) := by decide
theorem test_word_tst :
    tillerDecode 0 0b01011_0000000_1_001111111_10001_1_0000#32 = some (.tst 0 true 127 17 true) := by decide
theorem test_word_suba : tillerDecode 0 0b01000_11_01_100_00000000000000000000#32 = some (.suba 0 3 1 4) := by decide
theorem test_word_clr : tillerDecode 0 0b01100_1111_00000000000000000000000#32 = some (.clr 0 15) := by decide

/-- R168, R169: a reserved bit of an END that is not 0. -/
theorem test_word_reserved : tillerDecode 0 0b11111_000000000000000000000000001#32 = none := by decide

/-! ### States and operands that meet the premises of each clause of the obligations

One theorem for each obligation: for every clause that has premises, concrete values that meet all of them, at the edge of a range where
there is one. -/

/-- The 20 bytes of a Ryfoid header (R81), its check value among them. -/
def testHdr (ftype flags slot cycle partner layout : Nat) (p : List Byte) : List Byte :=
  let h := beBytes 1 (16 + ftype) ++ beBytes 1 flags ++ beBytes 2 slot ++ beBytes 4 cycle ++ beBytes 2 0 ++ beBytes 2 partner
    ++ beBytes 4 (layout * 2 ^ 24 + p.length)
  h ++ beBytes 4 (crc32c (h ++ p)).toNat

/-- A frame from partner 0 on port 0 whose station address is 5. -/
def testFrame (ftype slot : Nat) (p : List Byte) : Frame :=
  { port := 0, len := 64, fcsOk := true, da := 2 ^ 48 - 1, sa := 5, vlan := false, outer := 0x88B5, tagOk := true, icvOk := true,
    an := 0, pn := 1, inner := 0x88B5, hdr := testHdr ftype 0 slot 7 0 0 p, payload := p, stamp := 100 }

/-- Port 0 is UP, and partner 0 is on it in a state. -/
def rxState (pt : Nat) : State :=
  State.reset |>.set R.CB_PORT_CFG_MACSEC_REQ 0 0 |>.set R.CB_LINK_STATE_STATE 0 3 |>.set R.CB_PT_CFG_POSITION 0 1 |>.set R.CB_PT_MAC_LO 0 5 |>.set R.CB_PT_STATE_STATE 0 pt

/-- Arm group 7 is Tiller 63 alone, in a joint state, with drive pair 7 released. -/
def armState (j : Nat) : State :=
  State.reset |>.set R.SYS_AG_CFG_EN 7 1 |>.set R.SYS_AG_CFG_FIRST_TL 7 63 |>.set R.SYS_AG_CFG_COUNT 7 1 |>.set R.TL_CFG_EN 63 1
    |>.set R.TL_JSTAT_JSTATE 63 j |>.set R.AD_STO_CFG_EN 7 1 |>.set R.AD_STO_CFG_GROUP 7 7 |>.set R.AD_STO_STAT_ASSERTED 7 0
    |>.set R.AD_STO_STAT_ASSERTED 8 0 |>.set R.AD_STO_STAT_ASSERTED 9 0

/-- Generator 79 is enabled and ready, in a state, in an ENABLED cell in cycle 5. -/
def genState79 (g : Nat) : State :=
  { State.reset with grid := { running := true, cyc := some 5 } } |>.set R.SYS_CELL_STATUS_STATE 0 2 |>.set R.MP_CFG_EN 79 1
    |>.set R.MP_STAT_STATE 79 g |>.set R.MP_STAT_HOMED 79 1

/-- The separation function runs in an ENABLED cell with arm 0 under separation. -/
def sepState (x : Separation) : State :=
  { State.reset with sep := x, gr := { front := [(0, 0x200000)] } } |>.set R.SYS_CELL_STATUS_STATE 0 2 |>.set R.SEP_CFG_EN 0 1
    |>.set R.SEP_BV_CFG_BV_DELAY 0 1

/-- A COPY, or with `esize` 0 a PACK or UNPACK, of one element. -/
def testMove (esize : BitVec 2) (src dst : BitVec 32) : MoveOp :=
  { barrier := false, swap := false, esize, streams := 0, count := 0, cond := false, src, dst, sstr := 1, dstr := 1, sest := 0, dest := 0 }

/-- The unit of such a MOVE. -/
def testUnit (reads : List Nat) (rlen : Nat) (writes : List Nat) (wlen : Nat) : MeUnit :=
  { strm := 0, elem := 0, first := 0, count := 1, remain := 1, reads, rlen, writes, wlen }

/-- A record of code 5 and instance 7 with `n` payload words. -/
def testRec (sev : Sev) (n : Nat) : EvRec :=
  { code := 5, sev, plane := .data, injected := false, esc := false, ns := 0, sec := 0, tick := 5, inst := 7, body := List.replicate n 0 }

/-- An escalation of arm group 7. -/
def testEsc (fatal glob : Bool) (react : React) (code : Nat) : Esc :=
  { fatal, mask := 0x80, glob, react, cause := 0, code, inst := 7, tick := 0 }

/-- A message of the twin with these bytes, its check value among them, to twin port 0. -/
def testTw (p : List Byte) : Frame :=
  { testFrame 0 0 [] with port := 4, da := 4, outer := 0x88B6, inner := 0x88B6, payload := p ++ beBytes 4 (crc32c p).toNat }

/-- A device of a twin pair in a state, with twin port 0 UP. -/
def twinState (k : Nat) : State :=
  State.reset |>.set R.TW_CFG_EN 0 1 |>.set R.TW_STATE_STATE 0 k |>.set R.TW_LINK_STATE_STATE 0 3 |>.set R.TW_PORT_CFG_MACSEC_REQ 0 0

/-- A check that nothing injected fails and whose condition is false lets the frame go on. -/
theorem rxCheck_pass {s t : State} {idx inst : Nat} {bad : Bool} {drop k} (h : s.inject idx inst = (none, t)) (hb : bad = false) :
    s.rxCheck idx inst bad drop k = k t := by simp [State.rxCheck, h, hb]

/-- The management core runs, the KEK is key 1, and one MACSEC_KEY descriptor is open. -/
def keyState (words : List Word) (cyc : Option Nat) : State :=
  { State.reset with
    hi := { descs := [{ ring := 0, index := 0, words }] }, pw := { mgmtUp := true }, grid := { cyc }
    cb := { kek := some 1, port := [(0, { txAn := some 0 })] } }

/-- A frame of the twin on port 0; its source address is the twin's, which Config leaves open. -/
def devFrame (ftype slot : Nat) (p : List Byte) : Frame :=
  { testFrame ftype slot p with hdr := testHdr ftype 1 slot 7 0 0 p, sa := Config.twinMac }

/-- The state that hears it: port 0 has the twin on it. -/
def devState (k : Nat) : State := rxState 3 |>.set R.CB_PORT_CFG_TOPOLOGY 0 1 |>.set R.TW_STATE_STATE 0 k

/-- The echo of cycle 0 passes every check. -/
theorem echo_passes : (devState 3).rxChecks (devFrame 5 8191 [0, 0, 0, 0, 0, 0, 0, 100]) =
    ((devState 3).inc R.CB_RX_FRAMES 0, some (hdrOf (devFrame 5 8191 [0, 0, 0, 0, 0, 0, 0, 100]).hdr)) := by
  unfold State.rxChecks
  rw [if_neg (by decide), rxCheck_pass rfl (by decide), if_neg (by decide), rxCheck_pass rfl (by decide), rxCheck_pass rfl (by decide),
    rxCheck_pass rfl (by decide +kernel), rxCheck_pass rfl (by decide +kernel), rxCheck_pass rfl ?_, if_pos (by decide +kernel)]
  · rfl
  · simp only [State.srcBad]
    rw [if_pos (by decide +kernel)]
    simp only [devFrame, testFrame, Nat.add_zero, decide_true]
    decide +kernel

/-- A REFERENCE frame of the twin passes every check. -/
theorem dev_reference_passes : (devState 4).rxChecks (devFrame 1 0xFFFF []) =
    ((devState 4).inc R.CB_RX_FRAMES 0, some (hdrOf (devFrame 1 0xFFFF []).hdr)) := by
  unfold State.rxChecks
  rw [if_neg (by decide), rxCheck_pass rfl (by decide), if_neg (by decide), rxCheck_pass rfl (by decide), rxCheck_pass rfl (by decide),
    rxCheck_pass rfl (by decide +kernel), rxCheck_pass rfl (by decide +kernel), rxCheck_pass rfl ?_, if_pos (by decide +kernel)]
  · rfl
  · simp only [State.srcBad]
    rw [if_pos (by decide +kernel)]
    simp only [devFrame, testFrame, Nat.add_zero, decide_true]
    decide +kernel

theorem witness_fromTwin : (∃ (f : Frame) (s u : State) (h : Hdr), f.port < 4 ∧ s.rxChecks f = (u, some h) ∧ h.fromDev = true ∧ h.ftype ≠ 5) ∧
    ∃ (f : Frame) (s u : State) (h : Hdr), f.port < 4 ∧ s.rxChecks f = (u, some h) ∧ h.fromDev = true ∧ h.ftype = 5 ∧ u.twState = 3 ∧
      u.cycleOf (beField f.payload 0 4) = u.cycle ∧
      (128 * ((f.stamp : Int) - (u.grid.start + beField f.payload 4 4 % 2 ^ 17 : Nat)) - (u.get R.TW_ECHO_DELAY_DELAY f.port : Nat)).natAbs ≤ 25 * 128 :=
  ⟨⟨_, _, _, _, by decide, dev_reference_passes, by decide +kernel, by decide +kernel⟩,
   ⟨_, _, _, _, by decide, echo_passes, by decide +kernel, by decide +kernel, by decide, by decide +kernel, by decide +kernel⟩⟩

/-- Config leaves the unwrapping of a key open; where it gives a key, a descriptor and a state meet the premises of the three clauses about a key that unwraps. -/
theorem witness_unwrapped (key : Nat) (hk : ∀ l, Config.keyUnwrap 1 l = some key) :
    (∃ (d : DescId) (e : Desc) (s : State), Ready s d 0x20 e ∧ s.mgmtDown = false ∧ e.bits 4 6 6 = 0 ∧
      (s.cb.kek.bind fun k => Config.keyUnwrap k (e.bytes 7 13)) = some key ∧ hasBit (e.word 4) 3 = true) ∧
    (∃ (d : DescId) (e : Desc) (s : State), Ready s d 0x20 e ∧ s.mgmtDown = false ∧ e.bits 4 6 6 = 0 ∧
      (s.cb.kek.bind fun k => Config.keyUnwrap k (e.bytes 7 13)) = some key ∧ hasBit (e.word 4) 3 = false ∧
      (s.grid.cyc = none ∨ (s.port (e.bits 4 2 0)).txAn = none)) ∧
    ∃ (d : DescId) (e : Desc) (s : State), Ready s d 0x20 e ∧ s.mgmtDown = false ∧ e.bits 4 6 6 = 0 ∧
      (s.cb.kek.bind fun k => Config.keyUnwrap k (e.bytes 7 13)) = some key ∧ hasBit (e.word 4) 3 = false ∧ s.grid.cyc.isSome = true ∧
      (s.port (e.bits 4 2 0)).txAn.isSome = true :=
  ⟨⟨{ ring := 0, tag := 0 }, { ring := 0, index := 0, words := [0x20, 0, 0, 0, 8] }, keyState [0x20, 0, 0, 0, 8] none,
      ⟨rfl, by decide, rfl, by decide, by decide⟩, by decide, by decide, hk _, by decide⟩,
    ⟨{ ring := 0, tag := 0 }, { ring := 0, index := 0, words := [0x20] }, keyState [0x20] none,
      ⟨rfl, by decide, rfl, by decide, by decide⟩, by decide, by decide, hk _, by decide, .inl rfl⟩,
    ⟨{ ring := 0, tag := 0 }, { ring := 0, index := 0, words := [0x20] }, keyState [0x20] (some 5),
      ⟨rfl, by decide, rfl, by decide, by decide⟩, by decide, by decide, hk _, by decide, rfl, by decide⟩⟩

theorem witness_StepTakesTheFront :
    (∃ (c : Instr) (q : List Instr) (s : State), s.pending = c :: q) ∧
    (∃ (s : State), s.pending = []) ∧
    (∃ (s t : State), step s = .next t) :=
  ⟨⟨.ppsOutRise, [.ppsOutFall], ({ pending := [.ppsOutRise, .ppsOutFall] } : State), by decide⟩,
  ⟨State.reset, by decide⟩,
  ⟨({ pending := [.ppsOutFall] } : State), { State.reset with tb := { ppsFallAt := 0, ppsOut := false } }, rfl⟩⟩

theorem witness_CommandsComplete :
    (∃ (i : Instr), i.wf = true) ∧
    (∃ (i : Instr), i.wf = false) :=
  ⟨⟨.clr 63 15, by decide⟩,
  ⟨.clr 63 0, by decide⟩⟩

theorem witness_StepsKeepSound :
    ∃ (s t : State), Sound s ∧ step s = .next t :=
  ⟨State.reset, State.reset, ⟨soundRegs_reset, soundRegs_reset, rfl, rfl, rfl⟩, rfl⟩

theorem witness_ResetState :
    (∃ (n : Nat), n < 4) ∧
    (∃ (n : Nat), n < 64) ∧
    (∃ (p : Nat), p < 10) :=
  ⟨⟨3, by decide⟩,
  ⟨63, by decide⟩,
  ⟨9, by decide⟩⟩

theorem witness_TillerWords :
    (∃ (i : Instr) (w : Word), i.wf = true ∧ tillerEncode i = some w) ∧
    (∃ (n : Fin 64) (w : Word) (i : Instr), tillerDecode n w = some i) :=
  ⟨⟨.clr 0 15, 0x67800000#32, by decide, by decide⟩,
  ⟨0, 0x67800000#32, .clr 0 15, by decide⟩⟩

theorem witness_ReservedFields :
    (∃ (off j : Nat) (s : State), Sound s ∧ off % 4 = 0 ∧ off < 0x200000 ∧ (¬ (0x108000 ≤ off ∧ off < 0x108400)) ∧ off ≠ 0x109000 ∧ off ≠
    0x109004 ∧ nsRegAt off = none ∧ R.TB_CAP_NS_NS.instAt off = none ∧ R.AD_RES.instAt off = none ∧ Tab.get (fun _ => none) s.hiLatch off =
    none ∧ reservedBit (blkOf (s.place off)) (s.place off) j = true) ∧
    (∃ (s : State) (b : Blk) (o j : Nat), Sound s ∧ reservedBit b o j = true) :=
  ⟨⟨8, 31, State.reset, ⟨soundRegs_reset, soundRegs_reset, rfl, rfl, rfl⟩, by decide, by decide, by decide, by decide, by decide, by decide,
  by decide, by decide, by decide, by decide⟩,
  ⟨State.reset, .sys, 8, 31, ⟨soundRegs_reset, soundRegs_reset, rfl, rfl, rfl⟩, by decide⟩⟩

theorem witness_FracLimits :
    (∃ (src : CorrSrc) (frac : Int) (s : State), s.bit R.INJ_STAT_KEY_LOADED = false ∧ s.tb.corr = [] ∧ s.get R.TB_CORR_CTRL_OWNER =
    rankOwner (srcRank src) ∧ -6871947 ≤ frac ∧ frac ≤ 6871947) ∧
    (∃ (src : CorrSrc) (frac : Int) (s : State), s.bit R.INJ_STAT_KEY_LOADED = false ∧ s.tb.corr = [] ∧ s.get R.TB_CORR_CTRL_OWNER =
    rankOwner (srcRank src) ∧ (frac < -6871947 ∨ 6871947 < frac)) ∧
    (∃ (s : State) (q : CorrReq) (frac : Int), s.bit R.INJ_STAT_KEY_LOADED = false ∧ q.what = .frac frac ∧ s.get R.TB_CORR_CTRL_OWNER =
    rankOwner q.rank ∧ (frac < -6871947 ∨ 6871947 < frac)) :=
  ⟨⟨.host, 6871947, State.reset, by decide, by decide, by decide, by decide, by decide⟩,
  ⟨.host, 6871948, State.reset, by decide, by decide, by decide, by decide⟩,
  ⟨State.reset, { tag := 0, rank := 2, what := .frac 6871948 }, 6871948, by decide, by decide, by decide, by decide⟩⟩

theorem witness_SoftResetKey :
    (∃ (s : State) (p : Nat), (s.cell = 0 ∨ s.sio.fatalLatched = true) ∧ p < 10) ∧
    (∃ (key : BitVec 16) (s : State), (key ≠ 0xC0DE#16 ∨ (s.cell ≠ 0 ∧ s.sio.fatalLatched = false))) :=
  ⟨⟨State.reset, 9, by decide, by decide⟩,
  ⟨0xC0DF#16, State.reset, by decide⟩⟩

theorem witness_TempHold :
    (∃ (tj : Int) (s : State), s.bit R.INJ_STAT_KEY_LOADED = false ∧ 500 ≤ tj ∧ s.pw.fatalHot = false) ∧
    (∃ (tj : Int) (s : State), s.bit R.INJ_STAT_KEY_LOADED = false ∧ tj < 400) ∧
    (∃ (tj : Int) (s : State), s.bit R.INJ_STAT_KEY_LOADED = false ∧ s.pw.tempHold = true ∧ 400 ≤ tj ∧ tj < 500) :=
  ⟨⟨500, State.reset, by decide, by decide, by decide⟩,
  ⟨399, State.reset, by decide, by decide⟩,
  ⟨499, ({ pw := { tempHold := true } } : State), by decide, by decide, by decide, by decide⟩⟩

theorem witness_HeartbeatWatchdog :
    ∃ (s : State), s.enabled = true ∧ s.sio.missRun ≠ 0 ∧ s.get R.AD_SIO_CFG_B_WD_CYC ≤ s.sio.missRun :=
  ⟨({ sio := { missRun := 2 } } : State) |>.set R.SYS_CELL_STATUS_STATE 0 2 |>.set R.AD_SIO_CFG_B_WD_CYC 0 2, by decide, by decide, by
  decide⟩

theorem witness_CellRuns :
    (∃ (s : State), s.recovery = false ∧ s.cell = 0) ∧
    (∃ (s : State) (r l : Nat), s.cell = 1 ∧ s.hi.verdict = some (r, l)) ∧
    (∃ (s : State), s.cell = 1 ∧ s.hi.verdict = none) ∧
    (∃ (s : State), s.cell = 2) ∧
    (∃ (s : State), s.cell = 3 ∧ s.allOff = true) ∧
    (∃ (s : State), s.cell = 3 ∧ s.hi.disableTick + s.disableTicks ≤ s.tick) :=
  ⟨⟨State.reset |>.set R.SYS_CELL_STATUS_STATE 0 0, by decide, by decide⟩,
  ⟨({ hi := { verdict := some (3, 7) } } : State) |>.set R.SYS_CELL_STATUS_STATE 0 1, 3, 7, by decide, by decide⟩,
  ⟨State.reset |>.set R.SYS_CELL_STATUS_STATE 0 1, by decide, by decide⟩,
  ⟨State.reset |>.set R.SYS_CELL_STATUS_STATE 0 2, by decide⟩,
  ⟨State.reset |>.set R.SYS_CELL_STATUS_STATE 0 3, by decide, by decide⟩,
  ⟨({ hi := { disableTick := 5 }, tb := { tick := 5 } } : State) |>.set R.SYS_CELL_STATUS_STATE 0 3, by decide, by decide⟩⟩

theorem witness_CellCycle :
    (∃ (s : State), s.boundaryDue = false) ∧
    (∃ (s : State), s.boundaryDue = true) ∧
    (∃ (s : State) (k : Nat), s.grid.cyc = some k ∧ s.isSolverCycle k = true ∧ s.grid.solver ≠ some k ∧ s.tick = s.grid.start) ∧
    (∃ (s : State) (k : Nat), s.grid.cyc = some k ∧ (s.isSolverCycle k = false ∨ s.grid.solver = some k ∨ s.tick ≠ s.grid.start)) ∧
    (∃ (s : State), s.windowDue = true) ∧
    (∃ (s : State), s.windowDue = false) ∧
    (∃ (s : State), s.timeOn = false) ∧
    (∃ (s : State), s.timeOn = true ∧ s.bit R.INJ_STAT_KEY_LOADED = false) ∧
    (∃ (s : State), s.cell = 2 ∧ s.bit R.INJ_STAT_KEY_LOADED = false ∧ s.grid.cyc ≠ none ∧ s.sio.lastEdge * 80 + 11 * s.cycleNs ≤ s.tick *
    80) ∧
    (∃ (s : State), s.tick * 80 < s.sio.lastEdge * 80 + 11 * s.cycleNs) ∧
    (∃ (s : State) (m : Nat), s.boundaryDue = true ∧ s.grid.cyc = some m) :=
  ⟨⟨State.reset, by decide⟩,
  ⟨({ grid := { running := true } } : State), by decide⟩,
  ⟨({ grid := { cyc := some 5, running := true } } : State) |>.set R.SCH_CFG_SOLVER_CYC 0 5, 5, by decide, by decide, by decide, by decide⟩,
  ⟨({ grid := { cyc := some 5, solver := some 5 } } : State) |>.set R.SCH_CFG_SOLVER_CYC 0 5, 5, by decide, by decide⟩,
  ⟨({ grid := { cyc := some 1024 } } : State), by decide⟩,
  ⟨State.reset, by decide⟩,
  ⟨State.reset, by decide⟩,
  ⟨({ pw := { phase := .running } } : State), by decide, by decide⟩,
  ⟨({ grid := { cyc := some 0 }, tb := { tick := 34375 } } : State) |>.set R.SYS_CELL_STATUS_STATE 0 2 |>.set R.CB_CYCLE_NS 0 250000, by
  decide, by decide, by decide, by decide⟩,
  ⟨({ tb := { tick := 34374 } } : State) |>.set R.CB_CYCLE_NS 0 250000, by decide⟩,
  ⟨({ grid := { cyc := some 5, running := true }, tb := { a := { ns := 187500 } } } : State), 5, by decide, by decide⟩⟩

theorem witness_TimeCorrections :
    (∃ (s : State) (q : CorrReq) (mode : Nat) (neg : Bool) (sec ns : Nat), s.bit R.INJ_STAT_KEY_LOADED = false ∧ s.tb.corr = [q] ∧ q.rank <
    4 ∧ q.what = .step mode neg sec ns ∧ s.stepReason mode neg sec ns = 0) ∧
    (∃ (s : State) (q : CorrReq) (mode : Nat) (neg : Bool) (sec ns : Nat), s.bit R.INJ_STAT_KEY_LOADED = false ∧ s.tb.corr = [q] ∧ q.rank <
    4 ∧ q.what = .step mode neg sec ns ∧ s.stepReason mode neg sec ns ≠ 0) ∧
    (∃ (s : State) (r : StepReq) (rest : List StepReq), s.tb.steps = r :: rest ∧ r.tag + 2 ≤ s.tick) ∧
    (∃ (s : State) (q : CorrReq) (frac : Int), s.bit R.INJ_STAT_KEY_LOADED = false ∧ s.tb.corr = [q] ∧ q.rank < 4 ∧ q.what = .frac frac ∧
    s.get R.TB_CORR_CTRL_OWNER = rankOwner q.rank ∧ -fracMax ≤ frac ∧ frac ≤ fracMax) ∧
    (∃ (s : State) (q : CorrReq) (frac : Int), s.bit R.INJ_STAT_KEY_LOADED = false ∧ s.tb.corr = [q] ∧ q.rank < 4 ∧ q.what = .frac frac ∧
    s.get R.TB_CORR_CTRL_OWNER ≠ rankOwner q.rank) ∧
    (∃ (s : State) (k : Nat) (frac : Int), s.tb.fracs = [(k, frac)] ∧ k + 1 ≤ s.tick ∧ -fracMax ≤ frac ∧ frac ≤ fracMax) :=
  ⟨⟨({ tb := { corr := [{ tag := 0, rank := 2, what := .step 1 false 5 0 }] } } : State) |>.set R.TB_CORR_STATUS_STEP_ARMED 0 1 |>.set
  R.TB_REF_STATUS_LOCKED 0 1, { tag := 0, rank := 2, what := .step 1 false 5 0 }, 1, false, 5, 0, by decide, by decide, by decide, by
  decide, by decide⟩,
  ⟨({ tb := { corr := [{ tag := 0, rank := 2, what := .step 1 false 5 1000000000 }] } } : State),
  { tag := 0, rank := 2, what := .step 1 false 5 1000000000 }, 1, false, 5, 1000000000, by decide, by decide, by decide, by decide, by
  decide⟩,
  ⟨({ tb := { steps := [{ tag := 7, rel := false, neg := false, sec := 1, ns := 2 }], tick := 9 } } : State),
  { tag := 7, rel := false, neg := false, sec := 1, ns := 2 }, [], by decide, by decide⟩,
  ⟨({ tb := { corr := [{ tag := 0, rank := 2, what := .frac 6871947 }] } } : State), { tag := 0, rank := 2, what := .frac 6871947 },
  6871947, by decide, by decide, by decide, by decide, by decide, by decide, by decide⟩,
  ⟨({ tb := { corr := [{ tag := 0, rank := 3, what := .frac 6871947 }] } } : State), { tag := 0, rank := 3, what := .frac 6871947 },
  6871947, by decide, by decide, by decide, by decide, by decide⟩,
  ⟨({ tb := { tick := 5, fracs := [(4, 6871947)] } } : State), 4, 6871947, by decide, by decide, by decide, by decide⟩⟩

theorem witness_TimeCaptures :
    (∃ (ch : Fin 16) (src : Nat) (rising : Bool) (s : State), s.captures ch.val src rising = true ∧ s.ownStart src = false ∧ s.bit
    R.TB_CAP_NS_VALID ch.val = false ∧ Tab.get (fun _ => none) s.tb.capEdge ch.val = none ∧ s.bit R.INJ_STAT_KEY_LOADED = false ∧
    (s.capStamp src).2 < nsPerSec) ∧
    (∃ (ch : Fin 16) (s : State), s.bit R.TB_CAP_NS_VALID ch.val = true ∧ Tab.get (fun _ => none) s.tb.capEdge ch.val = none) ∧
    (∃ (ch : Fin 16) (action : Nat) (s : State), action < 5 ∧ s.bit R.TB_TRG_CTRL_ARM ch.val = false ∧ s.get R.TB_TRG_PERIOD ch.val = 0 ∧
    s.bit R.INJ_STAT_KEY_LOADED = false) ∧
    (∃ (action : Nat), 5 ≤ action % 8) ∧
    (∃ (ch : Fin 16) (s : State), s.trigDue ch.val = true ∧ s.get R.TB_TRG_PERIOD ch.val = 0 ∧ s.get R.TB_TRG_CTRL_ACTION ch.val = 0) ∧
    (∃ (s : State), s.ppsDue = true) ∧
    (∃ (s : State), s.tb.ppsOut = true ∧ s.tb.ppsFallAt ≤ s.tick) :=
  ⟨⟨15, 31, true, ({ tb := { a := { ns := 999999999 } } } : State) |>.set R.TB_CAP_CTRL_SRC 15 31 |>.set R.TB_CAP_CTRL_EDGE 15 1, by decide,
  by decide, by decide, by decide, by decide, by decide⟩,
  ⟨15, State.reset |>.set R.TB_CAP_NS_VALID 15 1, by decide, by decide⟩,
  ⟨15, 4, ({ tb := { tick := 0 } } : State) |>.set R.TB_TRG_PERIOD 15 0, by decide, by decide, by decide, by decide⟩,
  ⟨5, by decide⟩,
  ⟨15, State.reset |>.set R.TB_TRG_PERIOD 15 0 |>.set R.TB_TRG_CTRL_ACTION 15 0 |>.set R.TB_TRG_CTRL_ARM 15 1, by decide, by decide, by
  decide⟩,
  ⟨State.reset |>.set R.TB_PPS_CTRL_OUT_EN 0 1, by decide⟩,
  ⟨({ tb := { ppsOut := true, ppsFallAt := 5, tick := 5 } } : State), by decide, by decide⟩⟩

theorem witness_PtpPort :
    (∃ (m : PtpMsg) (s : State), ptpSupported m = true ∧ m.offset = none ∧ s.tb.ptpSlaveOnly = false) ∧
    (∃ (m : PtpMsg), ptpSupported m = false) ∧
    (∃ (k : PtpKind) (s : State), s.ptpSends k = true ∧ k = .sync) ∧
    (∃ (s : State), s.cell = 2 ∧ s.get R.TB_PTP_STATE_PORT_STATE = 4 ∧ s.bit R.INJ_STAT_KEY_LOADED = false ∧ s.tb.ptpSlaveOnly = false) :=
  ⟨⟨{ version := 2, domain := 127, kind := .sync, transport := .udpIpv4, multicast := true, logInterval := 0, offset := none, portState := 4 },
  State.reset, by decide, by decide, by decide⟩,
  ⟨{ version := 2, domain := 128, kind := .sync, transport := .udpIpv4, multicast := true, logInterval := 0, offset := none, portState := 4 },
  by decide⟩,
  ⟨.sync, State.reset |>.set R.TB_PTP_STATE_PORT_STATE 0 5, by decide, by decide⟩,
  ⟨State.reset |>.set R.SYS_CELL_STATUS_STATE 0 2 |>.set R.TB_PTP_STATE_PORT_STATE 0 4, by decide, by decide, by decide, by decide⟩⟩

theorem witness_Links :
    (∃ (p : Fin 6) (s : State), s.link p.val = 2 ∧ (s.port p.val).held = true ∧ (s.port p.val).heldSince + 125000 ≤ s.tick ∧ s.portOff p.val
    = false) ∧
    (∃ (p : Fin 6) (s : State), (s.link p.val ≠ 2 ∨ (s.port p.val).held = false ∨ s.tick < (s.port p.val).heldSince + 125000)) ∧
    (∃ (p : Fin 6) (s : State), s.up p.val = true ∧ s.bit R.INJ_STAT_KEY_LOADED = false ∧ (p.val < 4 ∨ s.twState ≠ 3)) ∧
    (∃ (p : Fin 6) (s : State), s.up p.val = false) ∧
    (∃ (p : Fin 6) (s : State) (b : Nat), (s.port p.val).trainStart = some b ∧ s.portMode p.val = 1 ∧ (s.port p.val).held = false ∧ b +
    62500000 ≤ s.tick) ∧
    (∃ (p : Fin 6) (s : State) (b : Nat), (s.port p.val).retryAt = some b ∧ s.portMode p.val = 1 ∧ b ≤ s.tick) ∧
    (∃ (p : Fin 6) (s : State), p.val < 4 ∧ s.locked = false ∧ s.portOff p.val = false ∧ (s.portMode p.val = 1 ∨ s.portMode p.val = 3)) ∧
    (∃ (p : Fin 6) (s : State), p.val < 4 ∧ s.locked = true) ∧
    (∃ (p : Fin 6) (q : LinkPins) (s : State), s.portOff p.val = false ∧ s.upHolds p.val q = true ∧ (s.port p.val).held = false) ∧
    (∃ (p : Fin 6) (q : LinkPins) (s : State), s.portOff p.val = false ∧ s.upHolds p.val q = false ∧ (s.port p.val).held = true) ∧
    (∃ (p : Fin 6) (s : State), s.portOff p.val = false ∧ (s.port p.val).held = true ∧ (s.link p.val = 4 ∨ s.link p.val = 5)) :=
  ⟨⟨5, ({ cb := { port := [(5, { held := true, heldSince := 3 })] }, tb := { tick := 125003 } } : State) |>.set R.TW_LINK_STATE_STATE 1 2
  |>.set R.TW_PORT_CFG_MODE 1 1, by decide, by decide, by decide, by decide⟩,
  ⟨5, State.reset, by decide⟩,
  ⟨3, State.reset |>.set R.CB_LINK_STATE_STATE 3 3, by decide, by decide, by decide⟩,
  ⟨3, State.reset, by decide⟩,
  ⟨5, ({ cb := { port := [(5, { trainStart := some 1 })] }, tb := { tick := 62500001 } } : State) |>.set R.TW_PORT_CFG_MODE 1 1, 1, by
  decide, by decide, by decide, by decide⟩,
  ⟨0, ({ cb := { port := [(0, { retryAt := some 1 })] }, tb := { tick := 1 } } : State) |>.set R.CB_PORT_CFG_MODE 0 1, 1, by decide, by
  decide, by decide⟩,
  ⟨3, State.reset |>.set R.CB_PORT_CFG_MODE 3 1, by decide, by decide, by decide, by decide⟩,
  ⟨3, State.reset |>.set R.SYS_CELL_STATUS_STATE 0 2, by decide, by decide⟩,
  ⟨0, { present := true, los := false, txFault := false, lock := true, hiBer := false, anDone := true }, State.reset |>.set
  R.CB_PORT_CFG_MODE 0 3, by decide, by decide, by decide⟩,
  ⟨0, { present := true, los := true, txFault := false, lock := true, hiBer := false, anDone := true },
  ({ cb := { port := [(0, { held := true })] } } : State) |>.set R.CB_PORT_CFG_MODE 0 3, by decide, by decide, by decide⟩,
  ⟨0, ({ cb := { port := [(0, { held := true })] } } : State) |>.set R.CB_PORT_CFG_MODE 0 3 |>.set R.CB_LINK_STATE_STATE 0 5, by decide, by
  decide, by decide⟩⟩

theorem witness_SecureAssociations :
    (∃ (d : DescId) (e : Desc) (s : State), Ready s d 0x20 e ∧ s.mgmtDown = false ∧ e.bits 4 6 6 = 1 ∧ s.maint = true ∧ s.cb.kek = none) ∧
    (∃ (d : DescId) (e : Desc) (s : State), Ready s d 0x20 e ∧ s.mgmtDown = false ∧ e.bits 4 6 6 = 1 ∧ (s.maint = false ∨ s.cb.kek.isSome =
    true)) ∧
    (∃ (d : DescId) (e : Desc) (s : State), Ready s d 0x20 e ∧ s.mgmtDown = false ∧ e.bits 4 6 6 = 0 ∧ (s.cb.kek.bind fun k =>
    Config.keyUnwrap k (e.bytes 7 13)) = none) ∧
    (∃ (p : Fin 6) (s : State) (an c : Nat), (s.port p.val).change = some (an, c) ∧ (s.grid.cyc = none ∨ c ≤ s.cycle)) :=
  ⟨⟨{ ring := 0, tag := 0 }, { ring := 0, index := 0, words := [0x20, 0, 0, 0, 0x40] },
  ({ pw := { mgmtUp := true }, hi := { descs := [{ ring := 0, index := 0, words := [0x20, 0, 0, 0, 0x40] }] } } : State) |>.set
  R.SYS_CELL_CTRL_MAINT 0 1, ⟨rfl, by decide, rfl, by decide, by decide⟩, by decide, by decide, by decide, by decide⟩,
  ⟨{ ring := 0, tag := 0 }, { ring := 0, index := 0, words := [0x20, 0, 0, 0, 0x40] },
  ({ pw := { mgmtUp := true }, hi := { descs := [{ ring := 0, index := 0, words := [0x20, 0, 0, 0, 0x40] }] } } : State), ⟨rfl, by decide,
  rfl, by decide, by decide⟩, by decide, by decide, by decide⟩,
  ⟨{ ring := 0, tag := 0 }, { ring := 0, index := 0, words := [0x20, 0, 0, 0, 0] },
  ({ pw := { mgmtUp := true }, hi := { descs := [{ ring := 0, index := 0, words := [0x20, 0, 0, 0, 0] }] } } : State), ⟨rfl, by decide, rfl,
  by decide, by decide⟩, by decide, by decide, rfl⟩,
  ⟨5, ({ cb := { port := [(5, { change := some (1, 9) })] }, grid := { cyc := some 9 } } : State), 1, 9, by decide, by decide⟩⟩

theorem witness_CellBusLaunch :
    (∃ (i : Fin 8192) (s : State) (m : Nat), s.grid.cyc = some m ∧ s.get R.CB_SL_A_DIR i.val = 1 ∧ s.slotDue i.val m = true ∧ (s.slot
    i.val).launched ≠ some m ∧ s.get R.CB_SL_A_OFFSET i.val ≤ s.intoCycle ∧ s.notHolder = false ∧ s.bit R.INJ_STAT_KEY_LOADED = false ∧
    s.slotShut (s.get R.CB_SL_A_PORT i.val) i.val = false ∧ (s.slot i.val).ready = true ∧ (s.slot i.val).slow = false ∧ (s.slot
    i.val).readyTick + 34 ≤ s.grid.start + s.get R.CB_SL_A_OFFSET i.val ∧ s.slotMe i.val ≠ none) ∧
    (∃ (p : Fin 4) (s : State) (j : AcyJob), s.grid.cyc.isSome = true ∧ s.canSend p.val = true ∧ s.get R.CB_ACYC_START_TICKS ≤ s.intoCycle ∧
    (s.port p.val).acyTick ≤ s.tick ∧ s.nextAcyclic p.val = some j ∧ s.intoCycle * 80 + (s.wireBytes p.val (s.acyPayload j).length - 12) *
    (if s.portMode p.val = 3 then 80 else 8) < s.get R.CB_ACYC_END_TICKS * 80) ∧
    (∃ (s : State), s.grid.cyc.isSome = true ∧ s.get R.CB_ACYC_END_TICKS ≤ s.intoCycle) ∧
    (∃ (p : Fin 4) (s : State) (m : Nat), s.grid.cyc = some m ∧ s.notHolder = false ∧ s.canSend p.val = true ∧ s.bit R.CB_REF_CFG_EN p.val =
    true ∧ s.refPartner p.val = true ∧ s.get R.CB_REF_CFG_OFFSET p.val ≤ s.intoCycle ∧ (s.port p.val).lastRef ≠ some m) ∧
    (∃ (p : Fin 4) (s : State) (q : Nat) (j : AcyJob), s.grid.cyc.isSome = true ∧ s.canSend p.val = true ∧ s.nextAcyclic p.val = some j ∧ j
    = .delay q) :=
  ⟨⟨8191, ({ grid := { cyc := some 5 }, cb := { slot := [(8191, { ready := true })] }, tb := { tick := 34 } } : State) |>.set
  R.CB_SL_A_OFFSET 8191 34 |>.set R.CB_SL_B_ME_BIND 8191 1 |>.set R.CB_LINK_STATE_STATE 0 3 |>.set R.CB_SL_A_DIR 8191 1 |>.set
  R.CB_PORT_CFG_MACSEC_REQ 0 0, 5, by decide, by decide, by decide, by decide, by decide, by decide, by decide, by decide, by decide, by
  decide, by decide, by decide⟩,
  ⟨3,
  ({ grid := { cyc := some 5, running := true }, cb := { port := [(3, { acy := [{ partner := 1, payload := [1, 2], desc := none }] })] }, tb := { tick := 10 } }
  : State) |>.set R.CB_LINK_STATE_STATE 3 3 |>.set R.CB_PORT_CFG_MODE 3 1 |>.set R.CB_ACYC_START_TICKS 0 10 |>.set R.CB_ACYC_END_TICKS 0 18
  |>.set R.CB_PORT_CFG_MACSEC_REQ 3 0, .ring { partner := 1, payload := [1, 2], desc := none }, by decide, by decide, by decide, by decide,
  rfl, by decide⟩,
  ⟨({ grid := { cyc := some 5, running := true }, tb := { tick := 8 } } : State) |>.set R.CB_ACYC_END_TICKS 0 8, by decide, by decide⟩,
  ⟨3, ({ grid := { cyc := some 5 }, tb := { tick := 9 } } : State) |>.set R.CB_REF_CFG_EN 3 1 |>.set R.CB_LINK_STATE_STATE 3 3 |>.set
  R.CB_PT_CFG_POSITION 1023 1 |>.set R.CB_PT_CFG_PORT 1023 3 |>.set R.CB_PS_SYNC_SYNC_MODE 1023 2 |>.set R.CB_REF_CFG_OFFSET 3 9 |>.set
  R.CB_PORT_CFG_MACSEC_REQ 3 0, 5, by decide, by decide, by decide, by decide, by decide, by decide, by decide⟩,
  ⟨3, ({ grid := { cyc := some 5, running := true }, cb := { partner := [(1023, { annCycle := some 4 })] } } : State) |>.set
  R.CB_LINK_STATE_STATE 3 3 |>.set R.CB_PORT_CFG_MODE 3 1 |>.set R.CB_PORT_CFG_MACSEC_REQ 3 0 |>.set R.CB_PT_CFG_POSITION 1023 1 |>.set
  R.CB_PT_CFG_PORT 1023 3 |>.set R.CB_PT_STATE_STATE 1023 2, 1023, .delay 1023, by decide, by decide, rfl, rfl⟩⟩

theorem witness_CellBusPartners :
    (∃ (p : Fin 1024) (s : State) (a : Nat), (s.part p.val).grantAt = some a ∧ s.ptState p.val = 2 ∧ s.grid.cyc.isSome = true ∧ a ≤ s.cycle)
    ∧
    (∃ (p : Fin 1024) (s : State), s.ptState p.val = 2 ∧ s.joinLimit ≤ (s.part p.val).joinCount ∧ s.bit R.INJ_STAT_KEY_LOADED = false) ∧
    (∃ (i : Fin 8192) (s : State), s.missDue i.val = true) ∧
    (∃ (i : Fin 8192) (s : State), s.missDue i.val = false) ∧
    (∃ (i : Fin 8192) (s : State) (m : Nat), s.get R.CB_SL_A_DIR i.val = 2 ∧ s.slotDue i.val m = true) ∧
    (∃ (p : Fin 1024) (s : State), s.once.contains (Ev.cbDrift, p.val) = false ∧ 16 ≤ s.get R.CB_PS_WIN_EDGE_WIN p.val ∧ s.bit
    R.INJ_STAT_KEY_LOADED = false) ∧
    (∃ (p : Fin 1024) (s : State), (s.ptState p.val = 2 ∨ s.ptState p.val = 3) ∧ (((s.fromSlots p.val).any fun i => decide (3 ≤ (s.slot
    i).run)) = true ∨ 8 ≤ (s.part p.val).ownWin ∨ 64 ≤ (s.part p.val).polWin)) ∧
    (∃ (d : DescId) (e : Desc) (s : State), Ready s d 0x22 e ∧ s.notHolder = false ∧ s.cell ≠ 0 ∧ (s.ptState (e.bits 4 9 0) = 2 ∨ s.ptState
    (e.bits 4 9 0) = 3)) ∧
    (∃ (d : DescId) (e : Desc) (s : State), Ready s d 0x21 e ∧ s.notHolder = false ∧ s.cell ≠ 0 ∧ (s.part (e.bits 4 9 0)).qTick ≠ some
    s.tick ∧ s.ptState (e.bits 4 9 0) = 4 ∧ s.up (s.get R.CB_PT_CFG_PORT (e.bits 4 9 0)) = true) ∧
    (∃ (d : DescId) (e : Desc) (s : State), Ready s d 0x23 e ∧ (hasBit (e.word 4) 17 = true ∨ s.notHolder = false) ∧ hasBit (e.word 4) 16 =
    false) ∧
    (∃ (d : DescId) (e : Desc) (s : State), Ready s d 0x23 e ∧ (hasBit (e.word 4) 17 = true ∨ s.notHolder = false) ∧ hasBit (e.word 4) 16 =
    true) ∧
    (∃ (d : DescId) (e : Desc) (s : State), Ready s d 0x24 e) :=
  ⟨⟨1023, ({ grid := { cyc := some 5, running := true }, cb := { partner := [(1023, { grantAt := some 5 })] } } : State) |>.set
  R.CB_PT_STATE_STATE 1023 2, 5, by decide, by decide, by decide, by decide⟩,
  ⟨1023, ({ cb := { partner := [(1023, { joinCount := 4096 })] } } : State) |>.set R.CB_PT_STATE_STATE 1023 2, by decide, by decide, by
  decide⟩,
  ⟨8191, ({ grid := { cyc := some 3 }, tb := { tick := 100 } } : State) |>.set R.CB_SL_A_DIR 8191 2 |>.set R.CB_PT_STATE_STATE 0 4 |>.set
  R.CB_LAYOUT_LENGTH 0 70 |>.set R.CB_PORT_CFG_MACSEC_REQ 0 0, by decide⟩,
  ⟨8191, State.reset, by decide⟩,
  ⟨0, State.reset |>.set R.CB_SL_A_DIR 0 2, 0, by decide, by decide⟩,
  ⟨1023, State.reset |>.set R.CB_PS_WIN_EDGE_WIN 1023 16, by decide, by decide, by decide⟩,
  ⟨1023, ({ cb := { partner := [(1023, { ownWin := 8 })] } } : State) |>.set R.CB_PT_STATE_STATE 1023 3, by decide, by decide⟩,
  ⟨{ ring := 0, tag := 0 }, { ring := 0, index := 0, words := [0x22, 0, 0, 0, 0x3ff] },
  ({ hi := { descs := [{ ring := 0, index := 0, words := [0x22, 0, 0, 0, 0x3ff] }] } } : State) |>.set R.SYS_CELL_STATUS_STATE 0 2 |>.set
  R.CB_PT_STATE_STATE 1023 3, ⟨rfl, by decide, rfl, by decide, by decide⟩, by decide, by decide, by decide⟩,
  ⟨{ ring := 0, tag := 0 }, { ring := 0, index := 0, words := [0x21, 0, 0, 0, 0x3ff] },
  ({ hi := { descs := [{ ring := 0, index := 0, words := [0x21, 0, 0, 0, 0x3ff] }] } } : State) |>.set R.SYS_CELL_STATUS_STATE 0 2 |>.set
  R.CB_PT_STATE_STATE 1023 4 |>.set R.CB_LINK_STATE_STATE 0 3, ⟨rfl, by decide, rfl, by decide, by decide⟩, by decide, by decide, by decide,
  by decide, by decide⟩,
  ⟨{ ring := 0, tag := 0 }, { ring := 0, index := 0, words := [0x23, 0, 0, 0, 0x20000, 0x40] },
  ({ hi := { descs := [{ ring := 0, index := 0, words := [0x23, 0, 0, 0, 0x20000, 0x40] }] } } : State), ⟨rfl, by decide, rfl, by decide, by
  decide⟩, by decide, by decide⟩,
  ⟨{ ring := 0, tag := 0 }, { ring := 0, index := 0, words := [0x23, 0, 0, 0, 0x30000, 0x40] },
  ({ hi := { descs := [{ ring := 0, index := 0, words := [0x23, 0, 0, 0, 0x30000, 0x40] }] } } : State), ⟨rfl, by decide, rfl, by decide, by
  decide⟩, by decide, by decide⟩,
  ⟨{ ring := 0, tag := 0 }, { ring := 0, index := 0, words := [0x24, 0, 0, 0, 0, 0x40] },
  ({ hi := { descs := [{ ring := 0, index := 0, words := [0x24, 0, 0, 0, 0, 0x40] }] } } : State), ⟨rfl, by decide, rfl, by decide, by
  decide⟩⟩⟩

theorem witness_CellBusReceive :
    (∃ (f : Frame) (s : State) (c : Instr), c ∈ receptions f ∧ f.port < 4 ∧ s.up f.port = false) ∧
    (∃ (f : Frame) (s : State) (c : Instr), c ∈ receptions f ∧ f.port < 4 ∧ s.up f.port = true ∧ s.bit R.INJ_STAT_KEY_LOADED = false ∧
    f.fcsOk = false ∧ s.once.contains (Ev.cbFrameErr, f.port) = false) ∧
    (∃ (f : Frame) (s : State) (c : Instr), c ∈ receptions f ∧ f.port < 4 ∧ s.up f.port = true ∧ s.bit R.INJ_STAT_KEY_LOADED = false ∧
    f.fcsOk = true ∧ (f.len < 64 ∨ 1542 < f.len)) ∧
    (∃ (f : Frame) (s : State) (c : Instr), c ∈ receptions f ∧ f.port < 4 ∧ s.up f.port = true ∧ s.bit R.INJ_STAT_KEY_LOADED = false ∧
    f.fcsOk = true ∧ 64 ≤ f.len ∧ f.len ≤ 1542 ∧ f.outer = 0x8808) ∧
    (∃ (f : Frame) (s u : State) (h : Hdr) (m : Nat), f.port < 4 ∧ s.rxChecks f = (u, some h) ∧ h.fromDev = false ∧ h.ftype = 0 ∧ u.bit
    R.INJ_STAT_KEY_LOADED = false ∧ u.grid.cyc = some m ∧ (u.port f.port).upAll = true ∧ h.cycle = m % 2 ^ 32 ∧ u.slotDue h.slot m = true ∧
    u.ptState h.partner = 3 ∧ h.layout = u.get R.CB_SL_B_LAYOUT h.slot ∧ h.len = u.slotLen h.slot ∧ (u.slot h.slot).declared ≠ some m ∧ (8 *
    ((f.stamp : Int) - (u.grid.start + u.get R.CB_SL_A_OFFSET h.slot : Nat))).natAbs ≤ 200) ∧
    (∃ (f : Frame) (s u : State) (h : Hdr), f.port < 4 ∧ s.rxChecks f = (u, some h) ∧ h.fromDev = false ∧ h.ftype = 0 ∧ u.grid.cyc.isSome =
    true ∧ (u.port f.port).upAll = false ∧ u.ptState h.partner = 3) ∧
    (∃ (f : Frame) (s u : State) (h : Hdr) (t1 : Nat), f.port < 4 ∧ s.rxChecks f = (u, some h) ∧ h.fromDev = false ∧ h.ftype = 2 ∧ u.ptState
    h.partner = 2 ∧ (u.part h.partner).t1 = some t1 ∧ beField f.payload 0 1 = 2 ∧ beField f.payload 1 1 = (u.part h.partner).samples.length
    ∧ (u.part h.partner).samples.length < 15) ∧
    (∃ (f : Frame) (s u : State) (h : Hdr), f.port < 4 ∧ s.rxChecks f = (u, some h) ∧ h.fromDev = false ∧ h.ftype = 3 ∧ h.partner < 1024 ∧
    beField f.payload 0 1 = 1 ∧ u.bit R.INJ_STAT_KEY_LOADED = false ∧ beField f.payload 1 2 = u.get R.CB_PT_IDENT_VENDOR_ID h.partner ∧
    beField f.payload 3 2 = u.get R.CB_PT_IDENT_DEVICE_TYPE h.partner ∧ (u.get R.CB_PT_SERIAL h.partner = 0 ∨ beField f.payload 5 4 = u.get
    R.CB_PT_SERIAL h.partner) ∧ u.ptState h.partner = 2 ∧ (u.part h.partner).annCycle = none) ∧
    (∃ (f : Frame) (s u : State) (h : Hdr), f.port < 4 ∧ s.rxChecks f = (u, some h) ∧ h.fromDev = false ∧ h.ftype = 3 ∧ h.partner < 1024 ∧
    beField f.payload 0 1 = 1 ∧ u.bit R.INJ_STAT_KEY_LOADED = false ∧ beField f.payload 1 2 ≠ u.get R.CB_PT_IDENT_VENDOR_ID h.partner ∧
    (u.ptState h.partner = 2 ∨ u.ptState h.partner = 3)) ∧
    (∃ (f : Frame) (s u : State) (h : Hdr), f.port < 4 ∧ s.rxChecks f = (u, some h) ∧ h.fromDev = false ∧ h.ftype = 3 ∧ beField f.payload 0
    1 = 2 ∧ u.ptState h.partner = 2) ∧
    (∃ (f : Frame) (s u : State) (h : Hdr) (r : RecvBuf), f.port < 4 ∧ s.rxChecks f = (u, some h) ∧ h.fromDev = false ∧ h.ftype = 4 ∧
    (u.cb.recv.find? fun r => decide (r.port = f.port) && (r.partner == h.partner || r.partner == 0x7FF)) = some r) ∧
    (∃ (f : Frame) (s u : State) (h : Hdr), f.port < 4 ∧ s.rxChecks f = (u, some h) ∧ h.fromDev = false ∧ h.ftype = 4 ∧ (u.cb.recv.find? fun
    r => decide (r.port = f.port) && (r.partner == h.partner || r.partner == 0x7FF)) = none) ∧
    (∃ (f : Frame) (s u : State) (h : Hdr), f.port < 4 ∧ s.rxChecks f = (u, some h) ∧ h.fromDev = false ∧ h.ftype = 1 ∧ u.bit
    R.INJ_STAT_KEY_LOADED = false ∧ u.once.contains (Ev.cbBackupRef, f.port) = false) :=
  ⟨⟨testFrame 3 0xFFFF [], State.reset, .joinValidRx (testFrame 3 0xFFFF []), by simp [receptions], by decide, by decide⟩,
  ⟨{ testFrame 3 0xFFFF [] with fcsOk := false }, rxState 2, .joinValidRx { testFrame 3 0xFFFF [] with fcsOk := false }, by simp
  [receptions], by decide, by decide, by decide, by decide, by decide⟩,
  ⟨{ testFrame 3 0xFFFF [] with len := 1543 }, rxState 2, .joinValidRx { testFrame 3 0xFFFF [] with len := 1543 }, by simp [receptions], by
  decide, by decide, by decide, by decide, by decide⟩,
  ⟨{ testFrame 3 0xFFFF [] with outer := 0x8808 }, rxState 2, .joinValidRx { testFrame 3 0xFFFF [] with outer := 0x8808 }, by simp
  [receptions], by decide, by decide, by decide, by decide, by decide, by decide, by decide⟩,
  ⟨testFrame 0 9 [1, 2], { rxState 3 with grid := { cyc := some 7 }, cb := { port := [(0, { upAll := true })] } } |>.set R.CB_SL_A_DIR 9 2
  |>.set R.CB_LAYOUT_LENGTH 0 2 |>.set R.CB_SL_A_OFFSET 9 75,
  (({ rxState 3 with grid := { cyc := some 7 }, cb := { port := [(0, { upAll := true })] } } |>.set R.CB_SL_A_DIR 9 2 |>.set
  R.CB_LAYOUT_LENGTH 0 2 |>.set R.CB_SL_A_OFFSET 9 75).rxChecks (testFrame 0 9 [1, 2])).1, hdrOf (testFrame 0 9 [1, 2]).hdr, 7, by decide,
  by decide +kernel, by decide, by decide, by decide +kernel, by decide +kernel, by decide +kernel, by decide, by decide +kernel, by
  decide +kernel, by decide +kernel, by decide +kernel, by decide +kernel, by decide +kernel⟩,
  ⟨testFrame 0 9 [1, 2], { rxState 3 with grid := { cyc := some 7 } } |>.set R.CB_SL_A_DIR 9 2 |>.set R.CB_LAYOUT_LENGTH 0 2 |>.set
  R.CB_SL_A_OFFSET 9 75, (({ rxState 3 with grid := { cyc := some 7 } } |>.set R.CB_SL_A_DIR 9 2 |>.set R.CB_LAYOUT_LENGTH 0 2 |>.set
  R.CB_SL_A_OFFSET 9 75).rxChecks (testFrame 0 9 [1, 2])).1, hdrOf (testFrame 0 9 [1, 2]).hdr, by decide, by decide +kernel, by decide, by
  decide, by decide +kernel, by decide +kernel, by decide +kernel⟩,
  ⟨testFrame 2 0xFFFF [2, 1, 0, 0, 0, 0, 0, 0, 0, 0], { rxState 2 with cb := { partner := [(0, { t1 := some 4, samples := [3] })] } },
  (({ rxState 2 with cb := { partner := [(0, { t1 := some 4, samples := [3] })] } }).rxChecks (testFrame 2 0xFFFF [2, 1, 0, 0, 0, 0, 0, 0,
  0, 0])).1, hdrOf (testFrame 2 0xFFFF [2, 1, 0, 0, 0, 0, 0, 0, 0, 0]).hdr, 4, by decide, by decide +kernel, by decide, by decide, by
  decide +kernel, by decide +kernel, by decide, by decide +kernel, by decide +kernel⟩,
  ⟨testFrame 3 0xFFFF [1, 0, 9, 0, 0, 0, 0, 0, 0, 0], rxState 2 |>.set R.CB_PT_IDENT_VENDOR_ID 0 9, ((rxState 2 |>.set
  R.CB_PT_IDENT_VENDOR_ID 0 9).rxChecks (testFrame 3 0xFFFF [1, 0, 9, 0, 0, 0, 0, 0, 0, 0])).1, hdrOf (testFrame 3 0xFFFF [1, 0, 9, 0, 0, 0,
  0, 0, 0, 0]).hdr, by decide, by decide +kernel, by decide, by decide, by decide, by decide, by decide +kernel, by decide +kernel, by
  decide +kernel, by decide +kernel, by decide +kernel, by decide +kernel⟩,
  ⟨testFrame 3 0xFFFF [1, 0, 8, 0, 0, 0, 0, 0, 0, 0], rxState 2 |>.set R.CB_PT_IDENT_VENDOR_ID 0 9, ((rxState 2 |>.set
  R.CB_PT_IDENT_VENDOR_ID 0 9).rxChecks (testFrame 3 0xFFFF [1, 0, 8, 0, 0, 0, 0, 0, 0, 0])).1, hdrOf (testFrame 3 0xFFFF [1, 0, 8, 0, 0, 0,
  0, 0, 0, 0]).hdr, by decide, by decide +kernel, by decide, by decide, by decide, by decide, by decide +kernel, by decide +kernel, by
  decide +kernel⟩,
  ⟨testFrame 3 0xFFFF [2, 0, 0, 0, 7], rxState 2, ((rxState 2).rxChecks (testFrame 3 0xFFFF [2, 0, 0, 0, 7])).1, hdrOf (testFrame 3 0xFFFF
  [2, 0, 0, 0, 7]).hdr, by decide, by decide +kernel, by decide, by decide, by decide, by decide +kernel⟩,
  ⟨testFrame 4 0xFFFF [2],
  { rxState 3 with cb := { recv := [{ partner := 0x7FF, port := 0, addr := 0, len := 64, desc := (0, 0, 0) }], partner := [(0, { tokens := 64 })] } },
  (({ rxState 3 with cb := { recv := [{ partner := 0x7FF, port := 0, addr := 0, len := 64, desc := (0, 0, 0) }], partner := [(0, { tokens := 64 })] } }).rxChecks
  (testFrame 4 0xFFFF [2])).1, hdrOf (testFrame 4 0xFFFF [2]).hdr, { partner := 0x7FF, port := 0, addr := 0, len := 64, desc := (0, 0, 0) },
  by decide, by decide +kernel, by decide, by decide, by decide +kernel⟩,
  ⟨testFrame 4 0xFFFF [2], { rxState 3 with cb := { partner := [(0, { tokens := 64 })] } },
  (({ rxState 3 with cb := { partner := [(0, { tokens := 64 })] } }).rxChecks (testFrame 4 0xFFFF [2])).1, hdrOf (testFrame 4 0xFFFF
  [2]).hdr, by decide, by decide +kernel, by decide, by decide, by decide +kernel⟩,
  ⟨testFrame 1 0xFFFF [], rxState 3, ((rxState 3).rxChecks (testFrame 1 0xFFFF [])).1, hdrOf (testFrame 1 0xFFFF []).hdr, by decide, by
  decide +kernel, by decide, by decide, by decide +kernel, by decide +kernel⟩⟩

theorem witness_FeedbackPorts :
    (∃ (m : Fin 8) (a b : Bool) (s : State), s.get R.DP_CFG_MODE m.val = 1 ∧ s.bit R.INJ_STAT_KEY_LOADED = false ∧ s.filtOk m.val (s.dport
    m.val).accA = true ∧ s.filtOk m.val (s.dport m.val).accB = true ∧ (s.dport m.val).accA ≠ some s.tick ∧ (s.dport m.val).accB ≠ some
    s.tick ∧ ((s.dport m.val).a = a ∧ (s.dport m.val).b ≠ b ∨ (s.dport m.val).a ≠ a ∧ (s.dport m.val).b = b)) ∧
    (∃ (m : Fin 8) (a b : Bool) (s : State), s.get R.DP_CFG_MODE m.val = 1 ∧ s.bit R.INJ_STAT_KEY_LOADED = false ∧ s.filtOk m.val (s.dport
    m.val).accA = true ∧ s.filtOk m.val (s.dport m.val).accB = true ∧ (s.dport m.val).accA ≠ some s.tick ∧ (s.dport m.val).accB ≠ some
    s.tick ∧ (s.dport m.val).a ≠ a ∧ (s.dport m.val).b ≠ b) ∧
    (∃ (m uvw : Fin 8) (s : State) (old : Nat), s.get R.DP_CFG_MODE m.val = 3 ∧ s.bit R.INJ_STAT_KEY_LOADED = false ∧ (∀ l ∈ [(s.dport
    m.val).accA, (s.dport m.val).accB, (s.dport m.val).accZ], s.filtOk m.val l = true ∧ l ≠ some s.tick) ∧ old = (if (s.dport m.val).a then
    1 else 0) + (if (s.dport m.val).b then 2 else 0) + (if (s.dport m.val).z then 4 else 0) ∧ old ≠ uvw.val ∧ old ∈ hallOrder ∧ uvw.val ∈
    hallOrder ∧ (hallOrder.idxOf uvw.val = (hallOrder.idxOf old + 1) % 6 ∨ hallOrder.idxOf old = (hallOrder.idxOf uvw.val + 1) % 6)) ∧
    (∃ (m uvw : Fin 8) (s : State) (old : Nat), s.get R.DP_CFG_MODE m.val = 3 ∧ s.bit R.INJ_STAT_KEY_LOADED = false ∧ (∀ l ∈ [(s.dport
    m.val).accA, (s.dport m.val).accB, (s.dport m.val).accZ], s.filtOk m.val l = true ∧ l ≠ some s.tick) ∧ old = (if (s.dport m.val).a then
    1 else 0) + (if (s.dport m.val).b then 2 else 0) + (if (s.dport m.val).z then 4 else 0) ∧ old ≠ uvw.val ∧ old ∈ hallOrder ∧ uvw.val ∈
    hallOrder ∧ hallOrder.idxOf uvw.val ≠ (hallOrder.idxOf old + 1) % 6 ∧ hallOrder.idxOf old ≠ (hallOrder.idxOf uvw.val + 1) % 6) ∧
    (∃ (m : Fin 8) (s : State) (n : Nat), s.sampleDue m.val = true ∧ (s.get R.DP_CFG_MODE m.val = 1 ∨ s.get R.DP_CFG_MODE m.val = 3) ∧
    s.portChan m.val = some n ∧ (s.chan n).latchedAt s.tick = false) ∧
    (∃ (m : Fin 8) (s : State), s.get R.DP_CFG_MODE m.val = 2 ∧ (s.dport m.val).ssiBusy = false ∧ s.sampleDue m.val = true ∧ (∀ e, (s.dport
    m.val).ssiEnd = some e → e + s.get R.DP_SSI_RECOVERY m.val * 125 ≤ s.tick)) ∧
    (∃ (m : Fin 8) (s : State) (n : Nat), s.portChan m.val = some n ∧ (s.dport m.val).ssiBusy = true ∧ s.bit R.INJ_STAT_KEY_LOADED = false ∧
    2 * s.ssiLen m.val + s.get R.DP_SSI_CLK_PER m.val ≤ 4 * (s.tick - (s.dport m.val).ssiStart)) ∧
    (∃ (m : Fin 8) (s : State) (n : Nat), s.get R.DP_CFG_MODE m.val = 1 ∧ (∀ b, (s.dport m.val).accZ = some b → b + 2 * (s.get R.DP_CFG_FILT
    m.val + 1) ≤ s.tick) ∧ (s.bit R.DP_CFG_Z_QUAL m.val = false ∨ (s.dport m.val).a = true ∧ (s.dport m.val).b = true) ∧ s.portChan m.val =
    some n ∧ s.bit R.FB_IDX_CFG_IDX_EN n = true ∧ s.bit R.INJ_STAT_KEY_LOADED = false ∧ s.bit R.FB_IDX_CFG_IDX_VALID n = true) :=
  ⟨⟨7, false, true, State.reset |>.set R.DP_CFG_MODE 7 1, by decide, by decide, by decide, by decide, by decide, by decide, by decide⟩,
  ⟨7, true, true, State.reset |>.set R.DP_CFG_MODE 7 1, by decide, by decide, by decide, by decide, by decide, by decide, by decide, by
  decide⟩,
  ⟨7, 5, ({ fb := { dp := [(7, { a := true })] } } : State) |>.set R.DP_CFG_MODE 7 3, 1, by decide, by decide, by decide, by decide, by
  decide, by decide, by decide, by decide⟩,
  ⟨7, 2, ({ fb := { dp := [(7, { a := true })] } } : State) |>.set R.DP_CFG_MODE 7 3, 1, by decide, by decide, by decide, by decide, by
  decide, by decide, by decide, by decide, by decide⟩,
  ⟨7, ({ grid := { running := true, cyc := some 5 } } : State) |>.set R.DP_CFG_MODE 7 1 |>.set R.SYS_CELL_STATUS_STATE 0 2 |>.set
  R.FB_CFG_KIND 63 2 |>.set R.FB_CFG_SRC 63 7, 63, by decide, by decide, by decide, by decide⟩,
  ⟨7, ({ grid := { running := true, cyc := some 5 }, tb := { tick := 127 }, fb := { dp := [(7, { ssiEnd := some 2 })] } } : State) |>.set
  R.DP_CFG_MODE 7 2 |>.set R.DP_SSI_RECOVERY 7 1, by decide, by decide, by decide, by decide⟩,
  ⟨7, ({ fb := { dp := [(7, { ssiBusy := true })] }, tb := { tick := 1000 } } : State) |>.set R.SYS_CELL_STATUS_STATE 0 2 |>.set
  R.FB_CFG_KIND 63 2 |>.set R.FB_CFG_SRC 63 7, 63, by decide, by decide, by decide, by decide⟩,
  ⟨7, State.reset |>.set R.SYS_CELL_STATUS_STATE 0 2 |>.set R.FB_CFG_KIND 63 2 |>.set R.FB_CFG_SRC 63 7 |>.set R.DP_CFG_MODE 7 1 |>.set
  R.FB_IDX_CFG_IDX_EN 63 1 |>.set R.FB_IDX_CFG_IDX_VALID 63 1, 63, by decide, by decide, by decide, by decide, by decide, by decide, by
  decide⟩⟩

theorem witness_FeedbackChannels :
    (∃ (n : Fin 64) (s : State), (s.chan n.val).pend = none) ∧
    (∃ (n : Fin 64) (s : State), (s.chan n.val).pend = some (.missing true)) ∧
    (∃ (n : Fin 64) (s : State) (v : Nat), (s.chan n.val).pend = some (.word v) ∧ (s.jumpTest n.val (s.serialWord n.val v)).2 = false) ∧
    (∃ (n : Fin 64) (s : State) (k : Nat) (b2 : Int) (dt : Nat) (seed : Option (Int × Nat × Int × Nat)) (lin rep : Int) (st : Nat) (idx :
    Bool), (s.chan n.val).pend = some (.port k b2 dt seed lin rep st idx)) ∧
    (∃ (n : Fin 64) (s : State), 3 ≤ (s.chan n.val).run ∧ (s.chan n.val).lost = false) ∧
    (∃ (n : Fin 64) (s : State), ((s.chan n.val).run < 3 ∨ (s.chan n.val).lost = true)) ∧
    (∃ (n : Fin 64) (s : State) (b : Nat), (s.chan n.val).lastEdge = some b ∧ ((s.chan n.val).st = 1 ∨ (s.chan n.val).st = 2 ∨ (s.chan
    n.val).st = 3) ∧ s.get R.FB_CFG_KIND n.val = 2 ∧ b + s.get R.FB_OBS_STILL n.val * 1250 ≤ s.tick) ∧
    (∃ (k : Fin 4) (s : State), s.bit R.EO_CFG_EN k.val = false) ∧
    (∃ (d : DescId) (e : Desc) (s : State), Ready s d 0x16 e ∧ s.notHolder = false ∧ (s.chan (e.bits 4 5 0)).lost = true ∧ s.delivering
    (e.bits 4 5 0) = false) ∧
    (∃ (d : DescId) (e : Desc) (s : State), Ready s d 0x16 e ∧ s.notHolder = false ∧ ((s.chan (e.bits 4 5 0)).lost = false ∨ s.delivering
    (e.bits 4 5 0) = true) ∧ hasBit (e.word 5) 0 = true) ∧
    (∃ (d : DescId) (e : Desc) (s : State), Ready s d 0x16 e ∧ s.notHolder = false ∧ ((s.chan (e.bits 4 5 0)).lost = false ∨ s.delivering
    (e.bits 4 5 0) = true) ∧ hasBit (e.word 5) 1 = true) :=
  ⟨⟨0, State.reset, by decide⟩,
  ⟨63, ({ fb := { chan := [(63, { pend := some (.missing true) })] } } : State), by decide⟩,
  ⟨63, ({ fb := { chan := [(63, { pend := some (.word 9) })] } } : State), 9, by decide, by decide⟩,
  ⟨63, ({ fb := { chan := [(63, { pend := some (.port 0 0 0 none 0 0 0 false) })] } } : State), 0, 0, 0, none, 0, 0, 0, false, by decide⟩,
  ⟨63, ({ fb := { chan := [(63, { run := 3 })] } } : State), by decide, by decide⟩,
  ⟨0, State.reset, by decide⟩,
  ⟨63, ({ fb := { chan := [(63, { lastEdge := some 2, st := 3 })] }, tb := { tick := 2 } } : State) |>.set R.FB_CFG_KIND 63 2 |>.set
  R.FB_OBS_STILL 63 0, 2, by decide, by decide, by decide, by decide⟩,
  ⟨0, State.reset, by decide⟩,
  ⟨{ ring := 0, tag := 0 }, { ring := 0, index := 0, words := [0x16, 0, 0, 0, 0x3f] },
  ({ fb := { chan := [(63, { st := 4 })] }, hi := { descs := [{ ring := 0, index := 0, words := [0x16, 0, 0, 0, 0x3f] }] } } : State), ⟨rfl,
  by decide, rfl, by decide, by decide⟩, by decide, by decide, by decide⟩,
  ⟨{ ring := 0, tag := 0 }, { ring := 0, index := 0, words := [0x16, 0, 0, 0, 0x3f, 1] },
  ({ hi := { descs := [{ ring := 0, index := 0, words := [0x16, 0, 0, 0, 0x3f, 1] }] } } : State), ⟨rfl, by decide, rfl, by decide, by
  decide⟩, by decide, by decide, by decide⟩,
  ⟨{ ring := 0, tag := 0 }, { ring := 0, index := 0, words := [0x16, 0, 0, 0, 0x3f, 2] },
  ({ hi := { descs := [{ ring := 0, index := 0, words := [0x16, 0, 0, 0, 0x3f, 2] }] } } : State), ⟨rfl, by decide, rfl, by decide, by
  decide⟩, by decide, by decide, by decide⟩⟩

theorem witness_TillerArithmetic :
    (∃ (tl : Fin 64) (lanes : BitVec 4) (cond : BitVec 3) (xa : BitVec 9) (yq : BitVec 7) (s : State), (Instr.mpy4 tl lanes cond xa yq).wf =
    true ∧ Clean s tl.val) ∧
    (∃ (tl : Fin 64) (lanes : BitVec 4) (cond : BitVec 3) (xa : BitVec 9) (yq : BitVec 7) (s : State), (Instr.msu4 tl lanes cond xa yq).wf =
    true ∧ Clean s tl.val) ∧
    (∃ (tl : Fin 64) (lanes : BitVec 4) (cond : BitVec 3) (xa : BitVec 9) (yq : BitVec 7) (s : State) (i : Nat), (Instr.mac4 tl lanes cond
    xa yq).wf = true ∧ Clean s tl.val ∧ i ∈ (s.til tl.val).active lanes cond ∧ s.bit R.INJ_STAT_KEY_LOADED = false ∧ overflows ((s.til
    tl.val).accI i + ((s.til tl.val).rdX xa.toNat).toInt * ((s.til tl.val).rdY (4 * yq.toNat + i)).toInt) = true) ∧
    (∃ (tl : Fin 64) (lane : BitVec 2) (sub : Bool) (xa ya : BitVec 9) (s : State), (Instr.ftap tl lane sub xa ya).wf = true ∧ Clean s
    tl.val) ∧
    (∃ (tl : Fin 64) (lanes : BitVec 4) (cond : BitVec 3) (space : Bool) (addr : BitVec 9) (shl : BitVec 6) (quad : Bool) (s : State),
    (Instr.lda tl lanes cond space addr shl quad).wf = true ∧ Clean s tl.val) ∧
    (∃ (tl : Fin 64) (dst src : BitVec 2) (cond : BitVec 3) (s : State), (Instr.adda tl dst src cond).wf = true ∧ Clean s tl.val) ∧
    (∃ (tl : Fin 64) (dst src : BitVec 2) (cond : BitVec 3) (s : State), (Instr.suba tl dst src cond).wf = true ∧ Clean s tl.val) ∧
    (∃ (tl : Fin 64) (dst src : BitVec 2) (cond : BitVec 3) (s : State), (Instr.mova tl dst src cond).wf = true ∧ Clean s tl.val) :=
  ⟨⟨0, 8, 4, 0, 0, State.reset, by decide, ⟨by decide, by decide⟩⟩,
  ⟨0, 8, 4, 0, 0, State.reset, by decide, ⟨by decide, by decide⟩⟩,
  ⟨63, 8, 0, 511, 0, ({ tl := [(63, { acc := { a3 := 0x7FFFFFFFFFFFFFFFFF }, x := [(511, 1)], win0 := [(3, 1)] })] } : State), 3, by decide,
  ⟨by decide, by decide⟩, by decide +kernel, by decide, by decide⟩,
  ⟨0, 0, false, 510, 0, State.reset, by decide, ⟨by decide, by decide⟩⟩,
  ⟨0, 8, 4, false, 508, 40, true, State.reset, by decide, ⟨by decide, by decide⟩⟩,
  ⟨0, 0, 0, 4, State.reset, by decide, ⟨by decide, by decide⟩⟩,
  ⟨0, 0, 0, 4, State.reset, by decide, ⟨by decide, by decide⟩⟩,
  ⟨0, 0, 0, 4, State.reset, by decide, ⟨by decide, by decide⟩⟩⟩

theorem witness_TillerData :
    (∃ (tl : Fin 64) (lanes : BitVec 4) (ya : BitVec 9) (shl : BitVec 6) (s : State) (i : Nat), (Instr.clamp tl lanes ya shl).wf = true ∧
    Clean s tl.val ∧ i < 4 ∧ lanes.getLsbD i = true) ∧
    (∃ (tl : Fin 64) (lanes : BitVec 4) (ya : BitVec 9) (shl : BitVec 6) (s : State) (i : Nat), (Instr.clamp tl lanes ya shl).wf = true ∧
    Clean s tl.val ∧ i < 4 ∧ lanes.getLsbD i = false) ∧
    (∃ (tl : Fin 64) (lanes : BitVec 4) (s : State) (i : Nat), (Instr.clr tl lanes).wf = true ∧ Clean s tl.val ∧ i < 4 ∧ lanes.getLsbD i =
    true) ∧
    (∃ (tl : Fin 64) (lanes : BitVec 4) (s : State) (i : Nat), (Instr.clr tl lanes).wf = true ∧ Clean s tl.val ∧ i < 4 ∧ lanes.getLsbD i =
    false) ∧
    (∃ (tl : Fin 64) (lanes : BitVec 4) (cond : BitVec 3) (space : Bool) (addr : BitVec 9) (shr : BitVec 6) (quad : Bool) (s : State) (i :
    Nat), (Instr.st tl lanes cond space addr shr quad).wf = true ∧ Clean s tl.val ∧ i ∈ (s.til tl.val).active lanes cond) ∧
    (∃ (tl : Fin 64) (lanes : BitVec 4) (cond : BitVec 3) (space : Bool) (addr : BitVec 9) (shr : BitVec 6) (quad : Bool) (s : State) (a :
    Nat), (Instr.st tl lanes cond space addr shr quad).wf = true ∧ Clean s tl.val ∧ (∀ i, i ∈ (s.til tl.val).active lanes cond → a ≠
    laneAddr addr quad i)) ∧
    (∃ (i : Instr) (tl : Fin 64), tillerOf i = some tl ∧ i.wf = false) ∧
    (∃ (i : Instr) (tl : Fin 64) (s : State), tillerOf i = some tl ∧ i.wf = true ∧ s.bit R.INJ_STAT_KEY_LOADED = false ∧ (s.til
    tl.val).found 0 (s.til tl.val).pc = some true) ∧
    (∃ (tl : Fin 64) (addr : BitVec 9) (s : State), s.bit R.INJ_STAT_KEY_LOADED = false ∧ (s.til tl.val).found 0 (s.til tl.val).pc = none ∧
    (s.til tl.val).found 1 addr.toNat = some true) :=
  ⟨⟨0, 8, 510, 40, State.reset, 3, by decide, ⟨by decide, by decide⟩, by decide +kernel, by decide⟩,
  ⟨0, 8, 510, 40, State.reset, 2, by decide, ⟨by decide, by decide⟩, by decide +kernel, by decide⟩,
  ⟨0, 8, State.reset, 3, by decide, ⟨by decide, by decide⟩, by decide +kernel, by decide⟩,
  ⟨0, 8, State.reset, 2, by decide, ⟨by decide, by decide⟩, by decide +kernel, by decide⟩,
  ⟨0, 8, 0, false, 0, 0, false, State.reset, 3, by decide, ⟨by decide, by decide⟩, by decide +kernel⟩,
  ⟨0, 8, 0, false, 0, 0, false, State.reset, 1, by decide, ⟨by decide, by decide⟩, (by intro i _; simp [laneAddr])⟩,
  ⟨.clr 63 0, 63, by decide, by decide⟩,
  ⟨.clr 63 15, 63, ({ tl := [(63, { flips := [(0, 0, true)] })] } : State), by decide, by decide, by decide, by decide⟩,
  ⟨63, 511, ({ tl := [(63, { flips := [(1, 511, true)] })] } : State), by decide, by decide, by decide⟩⟩

theorem witness_TillerRun :
    (∃ (n : Fin 64) (s : State), (s.til n.val).running = true ∧ Clean s n.val ∧ (∀ c, c < 16 → (s.me1 c).heldMove = none) ∧ (s.til
    n.val).held = [] ∧ s.get R.TL_XADDR_A_CMD_ADDR n.val ≠ s.get R.TL_XADDR_A_GSTAT_ADDR n.val ∧ s.get R.TL_XADDR_A_CMD_ADDR n.val ≠ s.get
    R.TL_XADDR_B_XI_D_ADDR n.val ∧ s.get R.TL_XADDR_A_CMD_ADDR n.val ≠ s.get R.TL_XADDR_B_XI_Q_ADDR n.val) ∧
    (∃ (n : Fin 64) (s : State), (s.til n.val).running = true ∧ Clean s n.val ∧ (∀ c, c < 16 → (s.me1 c).heldMove = none) ∧ (s.til
    n.val).held = [] ∧ ((s.lostEntry n.val).jstate n.val = 1 ∨ (s.lostEntry n.val).jstate n.val = 5) ∧ s.get R.TL_XADDR_B_XI_D_ADDR n.val ≠
    s.get R.TL_XADDR_A_GSTAT_ADDR n.val ∧ s.get R.TL_XADDR_B_XI_Q_ADDR n.val ≠ s.get R.TL_XADDR_A_GSTAT_ADDR n.val) ∧
    (∃ (n : Fin 64) (s : State), (s.til n.val).running = false) ∧
    (∃ (n : Fin 64) (s : State), s.bit R.TL_CFG_EN n.val = true ∧ s.ticksTo (s.boundaryNs (s.cycle + 1)) ≤ 250 ∧ s.grid.running = true ∧
    (s.til n.val).plStart ≠ some s.cycle) ∧
    (∃ (n : Fin 64) (s : State), (s.til n.val).pl = .running ∧ s.bit R.TL_REF_CFG_REF_EN n.val = false) ∧
    (∃ (n : Fin 64) (s : State) (g : Nat), (s.til n.val).tripped = false ∧ s.groupOf n.val = some g ∧ s.bit R.INJ_STAT_KEY_LOADED = false ∧
    s.get R.TL_SAT_CFG_SAT_LIMIT n.val * 100000 < s.get R.TL_SAT_ACC n.val) :=
  ⟨⟨63, ({ tl := [(63, { running := true })] } : State) |>.set R.TL_XADDR_A_CMD_ADDR 63 5, by decide, ⟨by decide, by decide⟩, by
  decide +kernel, by decide, by decide, by decide, by decide⟩,
  ⟨63, ({ tl := [(63, { running := true })] } : State) |>.set R.TL_JSTAT_JSTATE 63 5 |>.set R.TL_XADDR_A_GSTAT_ADDR 63 5, by decide, ⟨by
  decide, by decide⟩, by decide +kernel, by decide, by decide, by decide, by decide⟩,
  ⟨0, State.reset, by decide⟩,
  ⟨63, ({ grid := { running := true } } : State) |>.set R.TL_CFG_EN 63 1 |>.set R.CB_CYCLE_NS 0 2000, by decide, by decide, by decide, by
  decide⟩,
  ⟨63, ({ tl := [(63, { pl := .running })] } : State), by decide, by decide⟩,
  ⟨63, armState 2 |>.set R.TL_SAT_CFG_SAT_LIMIT 63 1 |>.set R.TL_SAT_ACC 63 100001, 7, by decide, by decide, by decide, by decide⟩⟩

theorem witness_ArmServo :
    (∃ (d : DescId) (e : Desc) (s : State) (i : Instr) (o : Nat), (i, o) ∈ [(Instr.armServoOn d, 0), (.armServoStop d, 1), (.armServoResume
    d, 2), (.armServoReset d, 3)] ∧ Ready s d 0x10 e ∧ s.notHolder = false ∧ e.bits 4 5 4 = o ∧ s.servoReason (e.bits 4 2 0) o = 0) ∧
    (∃ (d : DescId) (e : Desc) (s : State) (i : Instr) (o : Nat), (i, o) ∈ [(Instr.armServoOn d, 0), (.armServoStop d, 1), (.armServoResume
    d, 2), (.armServoReset d, 3)] ∧ Ready s d 0x10 e ∧ s.notHolder = false ∧ e.bits 4 5 4 = o ∧ s.servoReason (e.bits 4 2 0) o ≠ 0) ∧
    (∃ (g : Fin 8) (k : Nat × Nat × Nat) (c n : Nat) (s : State), (s.group g.val).servo = [(0, k, c)] ∧ s.atBoundary = true ∧ (s.group
    g.val).held = [] ∧ c < s.cycle ∧ n < 64 ∧ s.groupIn g.val 1 = true ∧ n ∈ s.jointsIn g.val 1) ∧
    (∃ (g : Fin 8) (k : Nat × Nat × Nat) (c n : Nat) (s : State), (s.group g.val).servo = [(1, k, c)] ∧ s.atBoundary = true ∧ (s.group
    g.val).held = [] ∧ (s.group g.val).stop = 0 ∧ c < s.cycle ∧ n < 64 ∧ s.groupIn g.val 2 = true ∧ n ∈ s.jointsIn g.val 2) ∧
    (∃ (g : Fin 8) (k : Nat × Nat × Nat) (c n : Nat) (s : State), (s.group g.val).servo = [(2, k, c)] ∧ s.atBoundary = true ∧ (s.group
    g.val).held = [] ∧ c < s.cycle ∧ n < 64 ∧ s.groupIn g.val 4 = true ∧ n ∈ s.jointsIn g.val 4) ∧
    (∃ (g : Fin 8) (p : Nat) (k : Nat × Nat × Nat) (c n : Nat) (s : State), (s.group g.val).servo = [(3, k, c)] ∧ s.atBoundary = true ∧
    (s.group g.val).held = [] ∧ c < s.cycle ∧ n < 64 ∧ s.groupIn g.val 5 = true ∧ n ∈ s.jointsIn g.val 5 ∧ s.pairOf g.val = some p ∧
    s.pairHeld p = false) ∧
    (∃ (g : Fin 8) (o : Nat) (k : Nat × Nat × Nat) (c : Nat) (s : State), (s.group g.val).servo = [(o, k, c)] ∧ s.atBoundary = true ∧ c <
    s.cycle ∧ s.groupIn g.val (servoFrom o) = false) ∧
    (∃ (g : Fin 8) (o : Nat) (k : Nat × Nat × Nat) (c : Nat) (s : State), (s.group g.val).servo = [(o, k, c)] ∧ (s.cycle ≤ c ∨ s.atBoundary
    = false)) :=
  ⟨⟨{ ring := 0, tag := 0 }, { ring := 0, index := 0, words := [0x10, 0, 0, 0, 0x17] },
  { armState 2 with hi := { descs := [{ ring := 0, index := 0, words := [0x10, 0, 0, 0, 0x17] }] } }, .armServoStop
  ({ ring := 0, tag := 0 }), 1, by simp, ⟨rfl, by decide, rfl, by decide, by decide⟩, by decide, by decide, by decide⟩,
  ⟨{ ring := 0, tag := 0 }, { ring := 0, index := 0, words := [0x10, 0, 0, 0, 0x17] },
  { armState 1 with hi := { descs := [{ ring := 0, index := 0, words := [0x10, 0, 0, 0, 0x17] }] } }, .armServoStop
  ({ ring := 0, tag := 0 }), 1, by simp, ⟨rfl, by decide, rfl, by decide, by decide⟩, by decide, by decide, by decide⟩,
  ⟨7, (0, 1, 2), 4, 63, { armState 1 with grid := { cyc := some 5, running := true }, grp := [(7, { servo := [(0, (0, 1, 2), 4)] })] }, by
  decide, by decide, by decide, by decide, by decide, by decide, by decide⟩,
  ⟨7, (0, 1, 2), 4, 63, { armState 2 with grid := { cyc := some 5, running := true }, grp := [(7, { servo := [(1, (0, 1, 2), 4)] })] }, by
  decide, by decide, by decide, by decide, by decide, by decide, by decide, by decide⟩,
  ⟨7, (0, 1, 2), 4, 63, { armState 4 with grid := { cyc := some 5, running := true }, grp := [(7, { servo := [(2, (0, 1, 2), 4)] })] }, by
  decide, by decide, by decide, by decide, by decide, by decide, by decide⟩,
  ⟨7, 7, (0, 1, 2), 4, 63, { armState 5 with grid := { cyc := some 5, running := true }, grp := [(7, { servo := [(3, (0, 1, 2), 4)] })] },
  by decide, by decide, by decide, by decide, by decide, by decide, by decide, by decide, by decide⟩,
  ⟨7, 0, (0, 1, 2), 4, { armState 5 with grid := { cyc := some 5, running := true }, grp := [(7, { servo := [(0, (0, 1, 2), 4)] })] }, by
  decide, by decide, by decide, by decide⟩,
  ⟨7, 0, (0, 1, 2), 4, { armState 5 with grid := { cyc := some 4 }, grp := [(7, { servo := [(0, (0, 1, 2), 4)] })] }, by decide, by decide⟩⟩

theorem witness_StopEnds :
    (∃ (g : Fin 8) (n : Nat) (s : State), n < 64 ∧ n ∈ s.jointsIn g.val 3 ∧ s.atBoundary = true ∧ (∀ m ∈ s.joints g.val, s.jointStill m =
    true) ∧ (s.group g.val).stop = 1) ∧
    (∃ (g : Fin 8) (n p : Nat) (s : State), n < 64 ∧ n ∈ s.joints g.val ∧ s.jstate n ≠ 0 ∧ s.atBoundary = true ∧ (∀ m ∈ s.joints g.val,
    s.jointStill m = true) ∧ (s.group g.val).stop = 2 ∧ s.pairOf g.val = some p) ∧
    (∃ (g : Fin 8) (m : Nat) (s : State), m ∈ s.joints g.val ∧ (s.jointStill m = false ∨ s.atBoundary = false)) ∧
    (∃ (g : Fin 8) (n p : Nat) (s : State), n < 64 ∧ n ∈ s.joints g.val ∧ s.jstate n ≠ 0 ∧ (s.group g.val).stop = 2 ∧ s.pairOf g.val = some
    p ∧ (s.group g.val).ss1Start + s.ss1Ticks g.val ≤ s.tick) ∧
    (∃ (g : Fin 8) (s : State), ((s.group g.val).stop ≠ 2 ∨ s.tick < (s.group g.val).ss1Start + s.ss1Ticks g.val)) :=
  ⟨⟨7, 63, { armState 3 with grid := { cyc := some 5, running := true }, tl := [(63, { stillRun := 8 })], grp := [(7, { stop := 1 })] }, by
  decide, by decide, by decide, by decide, by decide⟩,
  ⟨7, 63, 7, { armState 3 with grid := { cyc := some 5, running := true }, tl := [(63, { stillRun := 8 })], grp := [(7, { stop := 2 })] },
  by decide, by decide, by decide, by decide, by decide, by decide, by decide⟩,
  ⟨7, 63, armState 3, by decide, by decide⟩,
  ⟨7, 63, 7, { armState 3 with grp := [(7, { stop := 2, ss1Start := 9 })], tb := { tick := 125009 } } |>.set R.TL_STOP_CFG_SS1_TIMEOUT 63 1,
  by decide, by decide, by decide, by decide, by decide, by decide⟩,
  ⟨7, State.reset, by decide⟩⟩

theorem witness_MotionDescriptors :
    (∃ (d : DescId) (e : Desc) (s : State), Ready s d 0x11 e ∧ s.notHolder = false ∧ e.gen < 80 ∧ s.moveReason e.gen e.moveFlags (signed 64
    (e.addr 6)) = 0 ∧ e.moveFlags.atEnd = false) ∧
    (∃ (d : DescId) (e : Desc) (s : State), Ready s d 0x11 e ∧ s.notHolder = false ∧ e.gen < 80 ∧ s.moveReason e.gen e.moveFlags (signed 64
    (e.addr 6)) = 0 ∧ s.genState e.gen = 1) ∧
    (∃ (d : DescId) (e : Desc) (s : State), Ready s d 0x11 e ∧ s.notHolder = false ∧ e.gen < 80 ∧ s.moveReason e.gen e.moveFlags (signed 64
    (e.addr 6)) = 0 ∧ s.genState e.gen ≠ 1) ∧
    (∃ (d : DescId) (e : Desc) (s : State), Ready s d 0x11 e ∧ s.notHolder = false ∧ s.moveReason e.gen e.moveFlags (signed 64 (e.addr 6)) ≠
    0) ∧
    (∃ (d : DescId) (e : Desc) (s : State) (vs : List Int) (g : Nat) (v : Int), Ready s d 0x12 e ∧ s.notHolder = false ∧ s.groupReason
    (s.groupMembers (e.bits 4 3 0)) (e.word 8) e.moveFlags = 0 ∧ s.groupReason2 e.moveFlags (((s.groupMembers (e.bits 4 3 0)).zip vs).map
    fun x => (x.1, s.moveTarget x.1 e.moveFlags (clampInt 64 x.2))) = 0 ∧ (g, v) ∈ (s.groupMembers (e.bits 4 3 0)).zip vs ∧ s.genState g =
    1) ∧
    (∃ (d : DescId) (e : Desc) (s : State) (vs : Option (List Int)), Ready s d 0x12 e ∧ s.notHolder = false ∧ (s.groupReason (s.groupMembers
    (e.bits 4 3 0)) (e.word 8) e.moveFlags ≠ 0 ∨ vs = none)) ∧
    (∃ (d : DescId) (e : Desc) (s : State) (m : Seg), Ready s d 0x13 e ∧ s.notHolder = false ∧ e.gen < 80 ∧ s.genState e.gen = 3 ∧ (s.gen
    e.gen).cur = some m) ∧
    (∃ (d : DescId) (e : Desc) (s : State), Ready s d 0x13 e ∧ s.notHolder = false ∧ s.genAtRest e.gen = true) ∧
    (∃ (d : DescId) (e : Desc) (s : State), Ready s d 0x14 e ∧ s.notHolder = false ∧ e.gen < 80 ∧ s.homeNotReady e.gen = false) ∧
    (∃ (d : DescId) (e : Desc) (s : State), Ready s d 0x14 e ∧ s.notHolder = false ∧ e.gen < 80 ∧ s.homeNotReady e.gen = true) ∧
    (∃ (d : DescId) (e : Desc) (s : State), Ready s d 0x15 e ∧ s.notHolder = false ∧ e.bits 4 5 0 < 48 ∧ hasBit (e.word 5) 0 = true ∧
    s.axinRecent (e.bits 4 5 0) = false) ∧
    (∃ (d : DescId) (e : Desc) (s : State), Ready s d 0x15 e ∧ s.notHolder = false ∧ (hasBit (e.word 5) 0 = false ∨ s.axinRecent (e.bits 4 5
    0) = true)) :=
  ⟨⟨{ ring := 0, tag := 0 }, { ring := 0, index := 0, words := [0x11, 0, 0, 0, 0x4f, 0, 5, 0] },
  { genState79 1 with mp := { st := [(15, { rdy := true, enPin := true })] }, hi := { descs := [{ ring := 0, index := 0, words := [0x11, 0, 0, 0, 0x4f, 0, 5, 0] }] } },
  ⟨rfl, by decide, rfl, by decide, by decide⟩, by decide, by decide, by decide, by decide⟩,
  ⟨{ ring := 0, tag := 0 }, { ring := 0, index := 0, words := [0x11, 0, 0, 0, 0x4f, 0, 5, 0] },
  { genState79 1 with mp := { st := [(15, { rdy := true, enPin := true })] }, hi := { descs := [{ ring := 0, index := 0, words := [0x11, 0, 0, 0, 0x4f, 0, 5, 0] }] } },
  ⟨rfl, by decide, rfl, by decide, by decide⟩, by decide, by decide, by decide, by decide⟩,
  ⟨{ ring := 0, tag := 0 }, { ring := 0, index := 0, words := [0x11, 0, 0, 0, 0x4f, 2, 5, 0] },
  { genState79 3 with mp := { st := [(15, { rdy := true, enPin := true })] }, hi := { descs := [{ ring := 0, index := 0, words := [0x11, 0, 0, 0, 0x4f, 2, 5, 0] }] } },
  ⟨rfl, by decide, rfl, by decide, by decide⟩, by decide, by decide, by decide, by decide⟩,
  ⟨{ ring := 0, tag := 0 }, { ring := 0, index := 0, words := [0x11, 0, 0, 0, 0x4f, 0, 5, 0] },
  { genState79 1 with hi := { descs := [{ ring := 0, index := 0, words := [0x11, 0, 0, 0, 0x4f, 0, 5, 0] }] } }, ⟨rfl, by decide, rfl, by
  decide, by decide⟩, by decide, by decide⟩,
  ⟨{ ring := 0, tag := 0 }, { ring := 0, index := 0, words := [0x12, 0, 0, 0, 7, 0, 0, 0, 1] },
  { genState79 1 with mp := { st := [(15, { rdy := true, enPin := true })] }, hi := { descs := [{ ring := 0, index := 0, words := [0x12, 0, 0, 0, 7, 0, 0, 0, 1] }] } }
  |>.set R.MP_CFG_CG 79 7, [3], 79, 3, ⟨rfl, by decide, rfl, by decide, by decide⟩, by decide, by decide, by decide, by decide, by decide⟩,
  ⟨{ ring := 0, tag := 0 }, { ring := 0, index := 0, words := [0x12, 0, 0, 0, 0, 0, 0, 0, 1] },
  ({ hi := { descs := [{ ring := 0, index := 0, words := [0x12, 0, 0, 0, 0, 0, 0, 0, 1] }] } } : State), none, ⟨rfl, by decide, rfl, by
  decide, by decide⟩, by decide, by decide⟩,
  ⟨{ ring := 0, tag := 0 }, { ring := 0, index := 0, words := [0x13, 0, 0, 0, 0x4f] },
  { genState79 3 with mp := { gen := [(79, { cur := some { target := 5, desc := none, trigger := false, group := none, dists := [], cycle := 0 } })] }, hi := { descs := [{ ring := 0, index := 0, words := [0x13, 0, 0, 0, 0x4f] }] } },
  { target := 5, desc := none, trigger := false, group := none, dists := [], cycle := 0 }, ⟨rfl, by decide, rfl, by decide, by decide⟩, by
  decide, by decide, by decide, by decide⟩,
  ⟨{ ring := 0, tag := 0 }, { ring := 0, index := 0, words := [0x13, 0, 0, 0, 0x4f] },
  { genState79 1 with hi := { descs := [{ ring := 0, index := 0, words := [0x13, 0, 0, 0, 0x4f] }] } }, ⟨rfl, by decide, rfl, by decide, by
  decide⟩, by decide, by decide⟩,
  ⟨{ ring := 0, tag := 0 }, { ring := 0, index := 0, words := [0x14, 0, 0, 0, 0x4f] },
  { genState79 1 with mp := { st := [(15, { rdy := true, enPin := true })] }, hi := { descs := [{ ring := 0, index := 0, words := [0x14, 0, 0, 0, 0x4f] }] } }
  |>.set R.MP_HOME_CFG_MODE 79 1, ⟨rfl, by decide, rfl, by decide, by decide⟩, by decide, by decide, by decide⟩,
  ⟨{ ring := 0, tag := 0 }, { ring := 0, index := 0, words := [0x14, 0, 0, 0, 0x4f] },
  { genState79 1 with hi := { descs := [{ ring := 0, index := 0, words := [0x14, 0, 0, 0, 0x4f] }] } }, ⟨rfl, by decide, rfl, by decide, by
  decide⟩, by decide, by decide, by decide⟩,
  ⟨{ ring := 0, tag := 0 }, { ring := 0, index := 0, words := [0x15, 0, 0, 0, 0x2f, 1] },
  ({ hi := { descs := [{ ring := 0, index := 0, words := [0x15, 0, 0, 0, 0x2f, 1] }] } } : State), ⟨rfl, by decide, rfl, by decide, by
  decide⟩, by decide, by decide, by decide, by decide⟩,
  ⟨{ ring := 0, tag := 0 }, { ring := 0, index := 0, words := [0x15, 0, 0, 0, 0x2f] },
  ({ hi := { descs := [{ ring := 0, index := 0, words := [0x15, 0, 0, 0, 0x2f] }] } } : State), ⟨rfl, by decide, rfl, by decide, by decide⟩,
  by decide, by decide⟩⟩

theorem witness_MotionGenerators :
    (∃ (g : Fin 80) (m : Seg) (s : State), s.genState g.val = 2 ∧ (s.gen g.val).cur = some m ∧ m.cycle < s.cycle) ∧
    (∃ (g : Fin 80) (s : State), s.genState g.val ≠ 2) ∧
    (∃ (g : Fin 80) (pl : Plan) (s : State), s.grid.running = true ∧ s.bit R.MP_CFG_EN g.val = true ∧ s.genState g.val = 3 ∧ (s.gen
    g.val).home = .none ∧ (s.gen g.val).sampled ≠ some s.cycle ∧ s.genTracks g.val = false ∧ (s.gen g.val).plan = some pl ∧ (s.gen
    g.val).start ≤ s.cycle ∧ pl.ended ((s.gen g.val).ptime + s.scaleOf g.val * s.cycleNs) = false) ∧
    (∃ (g : Fin 80) (pl : Plan) (e : Int) (m : Seg) (s : State), s.grid.running = true ∧ s.bit R.MP_CFG_EN g.val = true ∧ s.genState g.val =
    3 ∧ (s.gen g.val).home = .none ∧ (s.gen g.val).sampled ≠ some s.cycle ∧ s.genTracks g.val = false ∧ (s.gen g.val).plan = some pl ∧
    (s.gen g.val).start ≤ s.cycle ∧ pl.ended ((s.gen g.val).ptime + s.scaleOf g.val * s.cycleNs) = true ∧ pl.target = some e ∧ (s.gen
    g.val).queue = [] ∧ (s.gen g.val).cur = some m) ∧
    (∃ (g : Fin 80) (c : Nat) (s : State), s.grid.running = true ∧ s.bit R.MP_CFG_EN g.val = true ∧ s.genState g.val = 1 ∧ (s.gen
    g.val).home = .none ∧ (s.gen g.val).sampled ≠ some s.cycle ∧ s.genTracks g.val = true ∧ s.chanOf g.val = some c) ∧
    (∃ (g : Fin 80) (s : State), (s.grid.running = false ∨ s.bit R.MP_CFG_EN g.val = false ∨ s.genState g.val = 0 ∨ (s.gen g.val).sampled =
    some s.cycle)) ∧
    (∃ (k : Fin 16) (s : State), s.grid.running = true ∧ s.bit R.MP_CFG_EN (64 + k.val) = true ∧ 625 ≤ s.intoCycle + 1 ∧ (s.stepGen
    k.val).loaded ≠ some s.cycle ∧ s.bit R.INJ_STAT_KEY_LOADED = false ∧ (s.gen (64 + k.val)).sampled = some s.cycle) ∧
    (∃ (k : Fin 16) (s : State), s.grid.running = true ∧ s.bit R.MP_CFG_EN (64 + k.val) = true ∧ 625 ≤ s.intoCycle + 1 ∧ (s.stepGen
    k.val).loaded ≠ some s.cycle ∧ s.bit R.INJ_STAT_KEY_LOADED = false ∧ (s.gen (64 + k.val)).sampled ≠ some s.cycle) ∧
    (∃ (k : Fin 16) (s : State), (s.intoCycle + 1 < 625 ∨ (s.stepGen k.val).loaded = some s.cycle)) ∧
    (∃ (k : Fin 16) (s : State), s.debounced (s.stepGen k.val).rdyAt = true ∧ (s.stepGen k.val).rdy = true ∧ (s.stepGen k.val).enPin = true
    ∧ s.genAtRest (64 + k.val) = false ∧ s.genState (64 + k.val) ≠ 0 ∧ (s.gen (64 + k.val)).cur = none) ∧
    (∃ (k : Fin 16) (s : State), s.debounced (s.stepGen k.val).rdyAt = true ∧ (s.stepGen k.val).rdy = true ∧ (s.stepGen k.val).enPin = true
    ∧ s.genAtRest (64 + k.val) = true ∧ s.bit R.ST_CFG_HOLD k.val = true) ∧
    (∃ (k : Fin 16) (s : State), s.debounced (s.stepGen k.val).rdyAt = true ∧ (s.stepGen k.val).rdy = true ∧ (s.stepGen k.val).enPin = true
    ∧ s.genAtRest (64 + k.val) = true ∧ s.bit R.ST_CFG_HOLD k.val = false) ∧
    (∃ (k : Fin 16) (s : State), s.debounced (s.stepGen k.val).rdyAt = true ∧ (s.stepGen k.val).rdy = false) ∧
    (∃ (k : Fin 16) (b : Bool) (s : State), (s.debounced (s.stepGen k.val).rdyAt = false ∨ (s.stepGen k.val).rdy = b)) :=
  ⟨⟨79, { target := 5, desc := none, trigger := false, group := none, dists := [], cycle := 4 },
  ({ grid := { cyc := some 5 }, mp := { gen := [(79, { cur := some { target := 5, desc := none, trigger := false, group := none, dists := [], cycle := 4 } })] } }
  : State) |>.set R.MP_STAT_STATE 79 2, by decide, by decide, by decide⟩,
  ⟨79, State.reset, by decide⟩,
  ⟨79, { p0 := 0, v0 := 0, a0 := 0, phases := [(40000, 1)], target := some 5 },
  { genState79 3 with grid := { running := true }, mp := { gen := [(79, { plan := some { p0 := 0, v0 := 0, a0 := 0, phases := [(40000, 1)], target := some 5 } })] } }
  |>.set R.MP_CFG_EN 79 1, by decide, by decide, by decide, by decide, by decide, by decide, by decide, by decide, by decide⟩,
  ⟨79, { p0 := 0, v0 := 0, a0 := 0, phases := [(31250, 1)], target := some 5 }, 5,
  { target := 5, desc := none, trigger := false, group := none, dists := [], cycle := 4 },
  { genState79 3 with grid := { running := true }, mp := { gen := [(79, { plan := some { p0 := 0, v0 := 0, a0 := 0, phases := [(31250, 1)], target := some 5 }, cur := some { target := 5, desc := none, trigger := false, group := none, dists := [], cycle := 4 } })] } }
  |>.set R.MP_CFG_EN 79 1, by decide, by decide, by decide, by decide, by decide, by decide, by decide, by decide, by decide, by decide, by
  decide, by decide⟩,
  ⟨63, 63, ({ grid := { running := true, cyc := some 5 } } : State) |>.set R.MP_STAT_STATE 63 1 |>.set R.MP_CFG_EN 63 1 |>.set R.FB_CFG_KIND
  63 1 |>.set R.FB_CFG_TL_EN 63 1 |>.set R.FB_CFG_TILLER 63 63, by decide, by decide, by decide, by decide, by decide, by decide, by
  decide⟩,
  ⟨79, State.reset, by decide⟩,
  ⟨15,
  { genState79 1 with grid := { running := true, cyc := some 5 }, tb := { tick := 624 }, mp := { gen := [(79, { sampled := some 5 })] } }
  |>.set R.MP_CFG_EN 79 1, by decide, by decide, by decide, by decide, by decide, by decide⟩,
  ⟨15, { genState79 1 with grid := { running := true }, tb := { tick := 624 } } |>.set R.MP_CFG_EN 79 1, by decide, by decide, by decide, by
  decide, by decide, by decide⟩,
  ⟨15, ({ tb := { tick := 623 } } : State), by decide⟩,
  ⟨15,
  { genState79 4 with sch := { samples := [1, 2, 3, 4, 5, 6, 7, 8] }, tb := { tick := 8 }, mp := { st := [(15, { rdy := true, enPin := true })] } },
  by decide, by decide, by decide, by decide, by decide, by decide⟩,
  ⟨15,
  { genState79 1 with sch := { samples := [1, 2, 3, 4, 5, 6, 7, 8] }, tb := { tick := 8 }, mp := { st := [(15, { rdy := true, enPin := true })] } }
  |>.set R.ST_CFG_HOLD 15 1, by decide, by decide, by decide, by decide, by decide⟩,
  ⟨15,
  { genState79 1 with sch := { samples := [1, 2, 3, 4, 5, 6, 7, 8] }, tb := { tick := 8 }, mp := { st := [(15, { rdy := true, enPin := true })] } },
  by decide, by decide, by decide, by decide, by decide⟩,
  ⟨15, ({ sch := { samples := [1, 2, 3, 4, 5, 6, 7, 8] }, tb := { tick := 8 } } : State), by decide, by decide⟩,
  ⟨15, false, { genState79 4 with mp := { st := [(15, { rdy := true, enPin := true })] } }, by decide⟩⟩

theorem witness_MotionInputs :
    (∃ (n : Fin 48) (lv : Bool) (s : State), s.debounced (axinSince s n.val) = true ∧ (lv != s.axinInv n.val) = true ∧ s.axin n.val = false
    ∧ s.usersOf n.val = [] ∧ s.bit R.INJ_STAT_KEY_LOADED = false) ∧
    (∃ (n : Fin 48) (lv : Bool) (g : Nat) (m : Seg) (s : State), s.debounced (axinSince s n.val) = true ∧ (lv != s.axinInv n.val) = true ∧
    s.axin n.val = false ∧ s.usersOf n.val = [g] ∧ s.bit R.INJ_STAT_KEY_LOADED = false ∧ s.genState g = 3 ∧ s.limitAhead g n.val = true ∧
    (s.gen g).cur = some m ∧ m.group = none) ∧
    (∃ (n : Fin 48) (s : State), s.debounced (axinSince s n.val) = false) ∧
    (∃ (n : Fin 48) (s : State), s.chatLatched n.val = false ∧ s.axinFive n.val = true ∧ s.usersOf n.val = [] ∧ s.bit R.INJ_STAT_KEY_LOADED
    = false) ∧
    (∃ (n : Fin 48) (s : State), (s.chatLatched n.val = true ∨ (s.axinFive n.val = false ∧ s.bit R.INJ_STAT_KEY_LOADED = false))) ∧
    (∃ (g : Fin 80) (s : State), (s.gen g.val).home = .final ∧ (s.gen g.val).plan = none ∧ (s.gen g.val).vel = 0 ∧ (s.gen g.val).acc = 0 ∧
    64 ≤ g.val ∧ (s.stepGen (g.val - 64)).pend = []) ∧
    (∃ (g : Fin 80) (c : Nat) (s : State), (s.gen g.val).home = .final ∧ (s.gen g.val).plan = none ∧ (s.gen g.val).vel = 0 ∧ (s.gen
    g.val).acc = 0 ∧ g.val < 64 ∧ s.chanOf g.val = some c ∧ (s.gen g.val).homeIdx = none) ∧
    (∃ (g : Fin 80) (s : State), ((s.gen g.val).home ≠ .final ∨ (s.gen g.val).plan.isSome = true)) :=
  ⟨⟨47, true, ({ sch := { samples := [1, 2, 3, 4, 5, 6, 7, 8] }, tb := { tick := 8 } } : State), by decide, by decide, by decide, by decide,
  by decide⟩,
  ⟨47, true, 79, { target := 5, desc := none, trigger := false, group := none, dists := [], cycle := 4 },
  { genState79 3 with sch := { samples := [1, 2, 3, 4, 5, 6, 7, 8] }, tb := { tick := 8 }, mp := { gen := [(79, { cur := some { target := 5, desc := none, trigger := false, group := none, dists := [], cycle := 4 } })] } }
  |>.set R.MP_IN_CFG_LIM_POS 79 47, by decide, by decide, by decide, by decide, by decide, by decide, by decide, by decide, by decide⟩,
  ⟨47, State.reset, by decide⟩,
  ⟨47, ({ mp := { axTimes := [(47, [(0, 8), (0, 8), (0, 8), (0, 8), (0, 8)])] } } : State), by decide, by decide, by decide, by decide⟩,
  ⟨47, ({ mp := { axTimes := [(47, [(0, 8), (0, 8), (0, 8), (0, 8)])] } } : State), by decide⟩,
  ⟨64, ({ mp := { gen := [(64, { home := .final })] } } : State), by decide, by decide, by decide, by decide, by decide, by decide⟩,
  ⟨63, 63, ({ mp := { gen := [(63, { home := .final })] } } : State) |>.set R.FB_CFG_KIND 63 1 |>.set R.FB_CFG_TL_EN 63 1 |>.set
  R.FB_CFG_TILLER 63 63, by decide, by decide, by decide, by decide, by decide, by decide, by decide⟩,
  ⟨79, State.reset, by decide⟩⟩

theorem witness_SolverOutcomes :
    (∃ (e : Fin 9) (s : State), (s.eng e.val).running = true ∧ s.pastDeadline e.val = true) ∧
    (∃ (e : Fin 9) (p : CutPhase) (s : State), Solving s e.val ∧ s.bit R.SV_CFG_EN e.val = true ∧ s.cutDue e.val = true ∧ s.rangeBreach
    e.val = none ∧ p ≠ .former) ∧
    (∃ (e : Fin 9) (b : Breach) (s : State), Solving s e.val ∧ s.bit R.SV_CFG_EN e.val = true ∧ s.cutDue e.val = true ∧ s.rangeBreach e.val
    = some b) ∧
    (∃ (e : Fin 9) (s : State), s.bit R.SV_CFG_EN e.val = true ∧ s.cutDue e.val = true ∧ (s.eng e.val).running = false) ∧
    (∃ (e : Fin 9) (s : State), (s.bit R.SV_CFG_EN e.val = false ∨ s.cutDue e.val = false)) ∧
    (∃ (e : Fin 9) (s : State), s.persists e.val = true ∧ (s.eng e.val).stopArmed = true) ∧
    (∃ (e : Fin 9) (s : State), (s.persists e.val = false ∨ (s.eng e.val).stopArmed = false)) :=
  ⟨⟨8,
  ({ sv := { eng := [(8, { running := true })] }, sch := { task := [(4095, { ready := some 0 })], active := true }, tb := { tick := 27 } } :
  State) |>.set R.SCH_TASK_A_TARGET 4095 72 |>.set R.SCH_TASK_C_DEADLINE_NS 4095 208, by decide, by decide⟩,
  ⟨8, .factor,
  ({ sv := { eng := [(8, { running := true })] }, sch := { task := [(4095, { ready := some 0 })], active := true }, tb := { tick := 1 } } :
  State) |>.set R.SV_CFG_EN 8 1 |>.set R.SCH_TASK_A_TARGET 4095 72 |>.set R.SCH_TASK_C_DEADLINE_NS 4095 208, ⟨by decide, by decide, by
  decide, by decide⟩, by decide, by decide, by decide, by decide⟩,
  ⟨7, { var := 0, sub := 0, val := 4194304, kind := 1 },
  ({ sv := { eng := [(7, { running := true })] }, gr := { front := [(0, 4194304)] }, sch := { task := [(4095, { ready := some 0 })], active := true }, tb := { tick := 1 } }
  : State) |>.set R.SV_CFG_EN 7 1 |>.set R.SCH_TASK_A_TARGET 4095 71 |>.set R.SCH_TASK_C_DEADLINE_NS 4095 208, ⟨by decide, by decide, by
  decide, by decide⟩, by decide, by decide, by decide⟩,
  ⟨8, ({ sch := { task := [(4095, { ready := some 0 })], active := true }, tb := { tick := 1 } } : State) |>.set R.SV_CFG_EN 8 1 |>.set
  R.SCH_TASK_A_TARGET 4095 72 |>.set R.SCH_TASK_C_DEADLINE_NS 4095 208, by decide, by decide, by decide⟩,
  ⟨8, State.reset, by decide⟩,
  ⟨8, ({ sv := { eng := [(8, { infRun := 2 })] } } : State) |>.set R.SV_RT_CFG_A_INF_PERSIST 8 2, by decide, by decide⟩,
  ⟨8, State.reset, by decide⟩⟩

theorem witness_SeparationPhases :
    (∃ (a : Fin 8) (s : State), s.sepOn = true ∧ s.sep.protDone = false ∧ s.sep.geomFail = false ∧ s.bit R.INJ_STAT_KEY_LOADED = false ∧
    s.scanners = [] ∧ s.sepBits 0 20 14 = 0 ∧ s.sepArms = [a.val] ∧ (s.stopTable a.val (s.speedIndex a.val (s.armPose a.val).v)).2 = false)
    ∧
    (∃ (a : Fin 8) (s : State), s.sepOn = true ∧ s.sep.protDone = false ∧ s.sep.geomFail = false ∧ s.bit R.INJ_STAT_KEY_LOADED = false ∧
    s.scanners = [] ∧ s.sepBits 0 20 14 = 0 ∧ s.sepArms = [a.val] ∧ (s.stopTable a.val (s.speedIndex a.val (s.armPose a.val).v)).2 = true ∧
    hasBit s.sep.stopArms a.val = false) ∧
    (∃ (s : State), (s.sepOn = false ∨ s.sep.protDone = true ∨ s.sep.geomFail = true)) ∧
    (∃ (a : Nat) (s : State), s.sepOn = true ∧ s.sep.protDone = true ∧ s.sep.rowsDone = false ∧ s.sep.geomFail = false ∧ s.sepArms = [a]) ∧
    (∃ (s : State), (s.sepOn = false ∨ s.sep.protDone = false ∨ s.sep.rowsDone = true ∨ s.sep.geomFail = true)) ∧
    (∃ (s : State) (a : Nat), s.sepOn = true ∧ s.sep.protDone = false ∧ s.sep.geomFail = false ∧ s.handLimit = true ∧ s.sepArms = [] ∧ a <
    8) ∧
    (∃ (s : State), (s.sepOn = false ∨ s.sep.protDone = true ∨ s.sep.geomFail = true ∨ s.handLimit = false)) :=
  ⟨⟨0, sepState { active := true }, by decide, by decide, by decide, by decide, by decide, by decide, by decide, by decide +kernel⟩,
  ⟨0, sepState { active := true, payload := [(0, 65536)] }, by decide, by decide, by decide, by decide, by decide, by decide, by decide, by
  decide +kernel, by decide +kernel⟩,
  ⟨State.reset, by decide⟩,
  ⟨0, sepState { active := true, protDone := true }, by decide, by decide, by decide, by decide, by decide⟩,
  ⟨State.reset, by decide⟩,
  ⟨({ sep := { active := true }, tb := { tick := 27500 } } : State) |>.set R.SYS_CELL_STATUS_STATE 0 2 |>.set R.SEP_CFG_EN 0 1, 7, by
  decide, by decide, by decide, by decide, by decide, by decide⟩,
  ⟨State.reset, by decide⟩⟩

theorem witness_Belvedere :
    (∃ (s : State), s.sepOn = true ∧ s.sep.bvPosed = false ∧ s.sep.start + 2500 ≤ s.tick) ∧
    (∃ (s : State), (s.sepOn = false ∨ s.sep.bvPosed = true ∨ s.tick < s.sep.start + 2500)) ∧
    (∃ (s : State) (h : Nomin), s.sepOn = true ∧ s.sep.bvPosed = true ∧ s.sep.bvDone = false ∧ s.sep.bvMissed = false ∧
    s.sep.givenTick.isSome = true ∧ s.bvLimit = false ∧ s.bit R.INJ_STAT_KEY_LOADED = false ∧ s.sep.given = [h] ∧ s.bvChecks h (s.bvResults
    h) = [] ∧ ((s.bvResults h).beyond || (s.bvResults h).nom.any fun n => decide (n.2.1 < n.2.2)) = h.stop) ∧
    (∃ (s : State) (h : Nomin) (b : BvBad) (l : List BvBad), s.sepOn = true ∧ s.sep.bvPosed = true ∧ s.sep.bvDone = false ∧ s.sep.bvMissed =
    false ∧ s.sep.givenTick.isSome = true ∧ s.bvLimit = false ∧ s.bit R.INJ_STAT_KEY_LOADED = false ∧ s.sep.given = [h] ∧ s.bvChecks h
    (s.bvResults h) = b :: l ∧ s.get R.SEP_BV_CFG_BV_DELAY ≠ 0) ∧
    (∃ (s : State), (s.sepOn = false ∨ s.sep.bvPosed = false ∨ s.sep.bvDone = true ∨ s.sep.bvMissed = true ∨ s.bvLimit = true)) ∧
    (∃ (s : State) (g : Nat), s.sepOn = true ∧ s.sep.bvMissed = false ∧ s.handLimit = true ∧ s.sep.givenTick = none ∧ s.bit
    R.INJ_STAT_KEY_LOADED = false ∧ s.get R.SEP_BV_CFG_BV_DELAY ≠ 0 ∧ g ∈ s.sepArms) ∧
    (∃ (s : State), (s.sepOn = false ∨ s.sep.bvMissed = true ∨ (s.handLimit = false ∧ s.sep.geomFail = false))) ∧
    (∃ (g : Fin 8) (n p k : Nat) (s : State), Tab.get (fun _ => none) s.sep.delay g.val = some k ∧ k + s.get R.SEP_BV_CFG_BV_DELAY * 125000
    ≤ s.tick ∧ s.sep.globalDelay = false ∧ s.pairOf g.val = some p ∧ n < 64 ∧ n ∈ s.groupTillers g.val ∧ s.jstate n ≠ 0) ∧
    (∃ (g : Fin 8) (k : Nat) (s : State), (Tab.get (fun _ => none) s.sep.delay g.val = none ∨ (Tab.get (fun _ => none) s.sep.delay g.val =
    some k ∧ s.tick < k + s.get R.SEP_BV_CFG_BV_DELAY * 125000))) ∧
    (∃ (g : Fin 8) (n p k : Nat) (s : State), Tab.get (fun _ => none) s.sep.ss1 g.val = some k ∧ k + s.ss1Ticks g.val + s.get
    R.SEP_RR_CFG_BV_SS1_GRACE * 125000 ≤ s.tick ∧ s.sep.globalDelay = false ∧ s.pairOf g.val = some p ∧ n < 64 ∧ n ∈ s.groupTillers g.val ∧
    s.jstate n ≠ 0) ∧
    (∃ (g : Fin 8) (k : Nat) (s : State), (Tab.get (fun _ => none) s.sep.ss1 g.val = none ∨ (Tab.get (fun _ => none) s.sep.ss1 g.val = some
    k ∧ s.tick < k + s.ss1Ticks g.val + s.get R.SEP_RR_CFG_BV_SS1_GRACE * 125000))) :=
  ⟨⟨{ sepState { active := true } with tb := { tick := 2500 } }, by decide, by decide, by decide⟩,
  ⟨State.reset, by decide⟩,
  ⟨sepState
  { active := true, bvPosed := true, givenTick := some 0, given := [{ arm := 0, stop := false, nom := [], mnom := 0, least := 0 }] },
  { arm := 0, stop := false, nom := [], mnom := 0, least := 0 }, by decide, by decide, by decide, by decide, by decide, by decide, by
  decide, by decide, by decide +kernel, by decide +kernel⟩,
  ⟨sepState
  { active := true, bvPosed := true, givenTick := some 0, raw := [(0, 1, 2)], given := [{ arm := 0, stop := false, nom := [], mnom := 0, least := 1 }] }
  |>.set R.SYS_AG_CFG_EN 0 1 |>.set R.SYS_AG_CFG_FIRST_TL 0 0 |>.set R.SYS_AG_CFG_COUNT 0 1,
  { arm := 0, stop := false, nom := [], mnom := 0, least := 1 }, ⟨5, 0, 1, 2⟩, [], by decide +kernel, by decide +kernel, by decide +kernel,
  by decide +kernel, by decide +kernel, by decide +kernel, by decide +kernel, by decide +kernel, by decide +kernel, by decide⟩,
  ⟨State.reset, by decide⟩,
  ⟨{ sepState { active := true } with tb := { tick := 27500 } }, 0, by decide, by decide, by decide, by decide, by decide, by decide, by
  decide⟩,
  ⟨State.reset, by decide⟩,
  ⟨7, 63, 7, 3, { armState 2 with sep := { delay := [(7, some 3)] }, tb := { tick := 125003 } } |>.set R.SEP_BV_CFG_BV_DELAY 0 1, by decide,
  by decide, by decide, by decide, by decide, by decide, by decide⟩,
  ⟨7, 3, ({ sep := { delay := [(7, some 3)] }, tb := { tick := 125002 } } : State) |>.set R.SEP_BV_CFG_BV_DELAY 0 1, by decide⟩,
  ⟨7, 63, 7, 3, { armState 3 with sep := { ss1 := [(7, some 3)] }, tb := { tick := 125003 } } |>.set R.TL_STOP_CFG_SS1_TIMEOUT 63 0 |>.set
  R.SEP_RR_CFG_BV_SS1_GRACE 0 1, by decide, by decide, by decide, by decide, by decide, by decide, by decide⟩,
  ⟨7, 3, ({ sep := { ss1 := [(7, some 3)] }, tb := { tick := 125002 } } : State) |>.set R.SEP_RR_CFG_BV_SS1_GRACE 0 1, by decide⟩⟩

theorem witness_SchedulerJobs :
    (∃ (i : Fin 4096) (s : State), s.bit R.INJ_STAT_KEY_LOADED = false ∧ s.grid.running = true ∧ s.grid.cyc.isSome = true ∧ s.get
    R.SCH_TASK_A_RELEASE i.val = 2 ∧ s.cycle % max 1 (s.get R.SCH_TASK_D_MULT i.val) = s.get R.SCH_TASK_D_PHASE i.val ∧ s.get
    R.SCH_TASK_D_OFFSET i.val ≤ s.intoCycle ∧ (s.task i.val).lastCycle ≠ some s.cycle ∧ s.sch.active = true ∧ (s.task i.val).ready = none) ∧
    (∃ (i : Fin 4096) (s : State), (s.grid.running = false ∨ s.get R.SCH_TASK_A_RELEASE i.val ≠ 2 ∨ s.intoCycle < s.get R.SCH_TASK_D_OFFSET
    i.val ∨ (s.task i.val).lastCycle = some s.cycle ∨ s.sch.active = false)) ∧
    (∃ (i : Fin 4096) (s : State), s.bit R.INJ_STAT_KEY_LOADED = false ∧ s.sch.active = true ∧ s.get R.SCH_TASK_A_RELEASE i.val = 4 ∧
    (s.task i.val).request = false ∧ (∀ (r : Nat), (s.task i.val).lastRel = some r → r + s.get R.SCH_TASK_D_MIN_GAP_US i.val * 125 ≤ s.tick)
    ∧ (s.task i.val).ready = none) ∧
    (∃ (i : Fin 4096) (s : State), s.bit R.INJ_STAT_KEY_LOADED = false ∧ s.sch.active = true ∧ s.get R.SCH_TASK_A_RELEASE i.val = 4 ∧
    (s.task i.val).request = false ∧ (∀ (r : Nat), (s.task i.val).lastRel = some r → r + s.get R.SCH_TASK_D_MIN_GAP_US i.val * 125 ≤ s.tick)
    ∧ (s.task i.val).ready ≠ none ∧ (s.task i.val).held = none) ∧
    (∃ (i : Fin 4096) (s : State), s.bit R.INJ_STAT_KEY_LOADED = false ∧ s.sch.active = true ∧ s.get R.SCH_TASK_A_RELEASE i.val = 4 ∧
    (s.task i.val).request = false ∧ (∀ (r : Nat), (s.task i.val).lastRel = some r → r + s.get R.SCH_TASK_D_MIN_GAP_US i.val * 125 ≤ s.tick)
    ∧ (s.task i.val).ready ≠ none ∧ (s.task i.val).held ≠ none) ∧
    (∃ (i : Fin 4096) (r : Nat) (s : State), s.sch.active = true ∧ s.get R.SCH_TASK_A_RELEASE i.val = 4 ∧ (s.task i.val).request = false ∧
    (s.task i.val).lastRel = some r ∧ s.tick < r + s.get R.SCH_TASK_D_MIN_GAP_US i.val * 125) ∧
    (∃ (i : Fin 4096) (s : State), (s.sch.active = false ∨ s.get R.SCH_TASK_A_RELEASE i.val ≠ 4 ∨ (s.task i.val).request = true)) ∧
    (∃ (i : Fin 4096) (s : State), s.bit R.INJ_STAT_KEY_LOADED = false ∧ s.reserved i.val = true ∧ s.canDispatch i.val = true ∧ s.target
    i.val < 64 ∧ s.tick ≤ (s.task i.val).since + 12) ∧
    (∃ (i : Fin 4096) (s : State), (s.reserved i.val = false ∨ s.canDispatch i.val = false)) ∧
    (∃ (i j : Nat) (s : State), s.runningTasks = [] ∧ (s.sch.admitted = [i, j] ∨ s.sch.admitted = [j, i]) ∧ s.target i = 0x4A ∧ s.target j =
    0x4A ∧ (s.task i).ready.isSome = true ∧ (s.task j).ready.isSome = true ∧ s.bit R.SCH_TASK_A_FLOW_EN i = false ∧ s.bit
    R.SCH_TASK_A_FLOW_EN j = false ∧ s.deadlineNs i < s.deadlineNs j) ∧
    (∃ (i : Nat) (x : Task) (d : Nat) (s : State), s.bit R.INJ_STAT_KEY_LOADED = false ∧ s.now / 1000 ≠ s.sch.us ∧ s.sch.active = true ∧
    s.sch.task = [(i, x)] ∧ x.running = false ∧ x.ready = none ∧ x.listDue = some d ∧ d ≤ s.now ∧ s.get R.SCH_TASK_A_RELEASE i = 3) ∧
    (∃ (s : State), s.now / 1000 = s.sch.us) ∧
    (∃ (i : Fin 4096) (s : State), s.bit R.INJ_STAT_KEY_LOADED = false ∧ s.sch.active = true ∧ (s.task i.val).ready.isSome = true ∧ (s.task
    i.val).missed = false ∧ s.deadlineNs i.val < s.tick * 8 ∧ s.get R.SCH_TASK_A_CLASS i.val = 0) ∧
    (∃ (i : Fin 4096) (s : State), s.bit R.INJ_STAT_KEY_LOADED = false ∧ s.sch.active = true ∧ (s.task i.val).ready.isSome = true ∧ (s.task
    i.val).missed = false ∧ s.deadlineNs i.val < s.tick * 8 ∧ s.get R.SCH_TASK_A_CLASS i.val = 1) ∧
    (∃ (i : Fin 4096) (s : State), s.bit R.INJ_STAT_KEY_LOADED = false ∧ s.sch.active = true ∧ (s.task i.val).ready.isSome = true ∧ (s.task
    i.val).missed = false ∧ s.deadlineNs i.val < s.tick * 8 ∧ s.get R.SCH_TASK_A_CLASS i.val = 2) ∧
    (∃ (i : Fin 4096) (s : State), (s.sch.active = false ∨ (s.task i.val).ready = none ∨ (s.task i.val).missed = true ∨ (s.bit
    R.INJ_STAT_KEY_LOADED = false ∧ s.tick * 8 ≤ s.deadlineNs i.val))) :=
  ⟨⟨4095, ({ grid := { running := true, cyc := some 5 }, sch := { active := true }, tb := { tick := 9 } } : State) |>.set
  R.SCH_TASK_A_RELEASE 4095 2 |>.set R.SCH_TASK_D_OFFSET 4095 9, by decide, by decide, by decide, by decide, by decide, by decide, by
  decide, by decide, by decide⟩,
  ⟨4095, State.reset, by decide⟩,
  ⟨4095, ({ sch := { active := true, task := [(4095, { lastRel := some 0 })] }, tb := { tick := 125 } } : State) |>.set R.SCH_TASK_A_RELEASE
  4095 4 |>.set R.SCH_TASK_D_MIN_GAP_US 4095 1, by decide, by decide, by decide, by decide, by decide, by decide⟩,
  ⟨4095, ({ sch := { active := true, task := [(4095, { ready := some 0 })] } } : State) |>.set R.SCH_TASK_A_RELEASE 4095 4, by decide, by
  decide, by decide, by decide, by decide, by decide, by decide⟩,
  ⟨4095, ({ sch := { active := true, task := [(4095, { ready := some 0, held := some (0, 0) })] } } : State) |>.set R.SCH_TASK_A_RELEASE
  4095 4, by decide, by decide, by decide, by decide, by decide, by decide, by decide⟩,
  ⟨4095, 0, ({ sch := { active := true, task := [(4095, { lastRel := some 0 })] }, tb := { tick := 124 } } : State) |>.set
  R.SCH_TASK_A_RELEASE 4095 4 |>.set R.SCH_TASK_D_MIN_GAP_US 4095 1, by decide, by decide, by decide, by decide, by decide⟩,
  ⟨4095, State.reset, by decide⟩,
  ⟨4095, ({ sch := { task := [(4095, { ready := some 0 })] }, tb := { tick := 12 } } : State) |>.set R.SCH_TASK_A_TARGET 4095 63, by decide,
  by decide, by decide, by decide, by decide⟩,
  ⟨4095, State.reset, by decide⟩,
  ⟨0, 4095, ({ sch := { admitted := [4095, 0], task := [(0, { ready := some 0 }), (4095, { ready := some 0 })] } } : State) |>.set
  R.SCH_TASK_A_TARGET 0 74 |>.set R.SCH_TASK_A_TARGET 4095 74 |>.set R.SCH_TASK_C_DEADLINE_NS 0 1 |>.set R.SCH_TASK_C_DEADLINE_NS 4095 2, by
  decide, by decide, by decide, by decide, by decide, by decide, by decide, by decide, by decide⟩,
  ⟨4095, { listDue := some 7 }, 7, ({ sch := { active := true, task := [(4095, { listDue := some 7 })] }, tb := { a := { ns := 1007 } } } :
  State) |>.set R.SCH_TASK_A_RELEASE 4095 3, by decide, by decide, by decide, by decide, by decide, by decide, by decide, by decide, by
  decide⟩,
  ⟨State.reset, by decide⟩,
  ⟨4095, ({ sch := { active := true, task := [(4095, { ready := some 0 })] }, tb := { tick := 1 } } : State) |>.set R.SCH_TASK_A_CLASS 4095
  0, by decide, by decide, by decide, by decide, by decide, by decide⟩,
  ⟨4095, ({ sch := { active := true, task := [(4095, { ready := some 0 })] }, tb := { tick := 1 } } : State) |>.set R.SCH_TASK_A_CLASS 4095
  1, by decide, by decide, by decide, by decide, by decide, by decide⟩,
  ⟨4095, ({ sch := { active := true, task := [(4095, { ready := some 0 })] }, tb := { tick := 1 } } : State) |>.set R.SCH_TASK_A_CLASS 4095
  2, by decide, by decide, by decide, by decide, by decide, by decide⟩,
  ⟨4095, State.reset, by decide⟩⟩

theorem witness_Moves :
    (∃ (c : Fin 16) (m : MoveOp) (u : MeUnit) (s : State), s.bit R.INJ_STAT_KEY_LOADED = false ∧ s.meFree c.val = true ∧ (m.cond = false ∨
    s.bit R.ME_STATE_COND c.val = true) ∧ (s.me1 c.val).cursor = 0 ∧ m.bursts = none ∧ NoErrors s ∧ s.unitCause c.val u = none ∧
    u.reads.findSome? s.meHeldRead = none ∧ copyUnits m = [u]) ∧
    (∃ (c : Fin 16) (m : MoveOp) (u : MeUnit) (s : State), s.bit R.INJ_STAT_KEY_LOADED = false ∧ s.meFree c.val = true ∧ (m.cond = false ∨
    s.bit R.ME_STATE_COND c.val = true) ∧ (s.me1 c.val).cursor = 0 ∧ m.bursts = none ∧ NoErrors s ∧ s.unitCause c.val u = none ∧
    u.reads.findSome? s.meHeldRead = none ∧ planeUnits true m = [u]) ∧
    (∃ (c : Fin 16) (m : MoveOp) (u : MeUnit) (s : State), s.bit R.INJ_STAT_KEY_LOADED = false ∧ s.meFree c.val = true ∧ (m.cond = false ∨
    s.bit R.ME_STATE_COND c.val = true) ∧ (s.me1 c.val).cursor = 0 ∧ m.bursts = none ∧ NoErrors s ∧ s.unitCause c.val u = none ∧
    u.reads.findSome? s.meHeldRead = none ∧ planeUnits false m = [u]) ∧
    (∃ (m : MoveOp) (v w : Nat), m.swap = false ∧ v < granaryWords ∧ w < granaryWords) ∧
    (∃ (c : Fin 16) (m : MoveOp) (u : MeUnit) (l : List MeUnit) (j a : Nat) (w : Bool) (k : Nat) (s : State), s.bit R.INJ_STAT_KEY_LOADED =
    false ∧ s.meFree c.val = true ∧ (m.cond = false ∨ s.bit R.ME_STATE_COND c.val = true) ∧ (s.me1 c.val).cursor = 0 ∧ m.bursts = none ∧
    copyUnits m = u :: l ∧ s.unitCause c.val u = some (j, a, w, k) ∧ a < 2 ^ 32 ∧ 0 < k ∧ k < 8) ∧
    (∃ (c : Fin 16) (m : MoveOp) (u : MeUnit) (l : List MeUnit) (j : Nat) (r s : State), s.bit R.INJ_STAT_KEY_LOADED = false ∧ s.meFree
    c.val = true ∧ (m.cond = false ∨ s.bit R.ME_STATE_COND c.val = true) ∧ (s.me1 c.val).cursor = 0 ∧ m.bursts = none ∧ copyUnits m = u :: l
    ∧ s.unitCause c.val u = none ∧ u.reads.findSome? s.meHeldRead = none ∧ s.unitEcc u.rlen u.reads 0 = (some j, r) ∧ u.reads.getD j 0 < 2 ^
    32) ∧
    (∃ (c : Fin 16) (m : MoveOp) (u : MeUnit) (l : List MeUnit) (n : Nat) (s : State), s.bit R.INJ_STAT_KEY_LOADED = false ∧ s.meFree c.val
    = true ∧ (m.cond = false ∨ s.bit R.ME_STATE_COND c.val = true) ∧ (s.me1 c.val).cursor = 0 ∧ m.bursts = none ∧ copyUnits m = u :: l ∧
    s.unitCause c.val u = none ∧ u.reads.findSome? s.meHeldRead = some n) ∧
    (∃ (c : Fin 16) (m : MoveOp) (s : State), s.meFree c.val = true ∧ m.cond = true ∧ s.bit R.ME_STATE_COND c.val = false) ∧
    (∃ (c : Fin 16) (s : State), s.meFree c.val = false) :=
  ⟨⟨15, testMove 2 0x1000000 0x2040000, testUnit [0x1000000] 4 [0x2040000] 4, State.reset, by decide, by decide, by decide, by decide, by
  decide, ⟨rfl, fun _ => rfl⟩, by decide +kernel, by decide, by decide⟩,
  ⟨15, { testMove 0 0x1000000 0x2040000 with dstr := 16 }, testUnit [0x1000000] 1 ((List.range 8).map fun b => 0x2040000 + 16 * b) 4,
  State.reset, by decide, by decide, by decide, by decide, by decide, ⟨rfl, fun _ => rfl⟩, by decide +kernel, by decide, by decide⟩,
  ⟨15, { testMove 0 0x1000000 0x2040000 with sstr := 4 }, testUnit ((List.range 8).map fun b => 0x1000000 + 4 * b) 4 [0x2040000] 1,
  State.reset, by decide, by decide, by decide, by decide, by decide, ⟨rfl, fun _ => rfl⟩, by decide +kernel, by decide, by decide⟩,
  ⟨testMove 2 0x1000000 0x2040000, 1572863, 1572863, by decide, by decide, by decide⟩,
  ⟨15, testMove 2 0x1000000 0x3000000, testUnit [0x1000000] 4 [0x3000000] 4, [], 0, 0x3000000, true, 1, State.reset, by decide, by decide,
  by decide, by decide, by decide, by decide, by decide, by decide, by decide, by decide⟩,
  ⟨15, testMove 2 0x1000000 0x2040000, testUnit [0x1000000] 4 [0x2040000] 4, [], 0, ((({ flips := [⟨.granary 0, true⟩] } : State)).unitEcc 4
  [0x1000000] 0).2, ({ flips := [⟨.granary 0, true⟩] } : State), by decide, by decide, by decide, by decide, by decide, by decide, by
  decide, by decide, rfl, by decide⟩,
  ⟨15, testMove 2 0x2000000 0x2040000, testUnit [0x2000000] 4 [0x2040000] 4, [], 0, ({ tl := [(0, { running := true })] } : State) |>.set
  R.TL_CFG_EN 0 1, by decide, by decide, by decide, by decide, by decide, by decide, by decide, by decide⟩,
  ⟨15, { testMove 2 0x2000000 0x2040000 with cond := true }, State.reset, by decide, by decide, by decide⟩,
  ⟨15, State.reset |>.set R.ME_STATE_STATE 15 2, by decide⟩⟩

theorem witness_MoveEngineControl :
    (∃ (c : Fin 16) (count : BitVec 16) (s : State), s.meFree c.val = true ∧ count ≠ 0) ∧
    (∃ (c : Fin 16) (i : BitVec 13) (n : BitVec 6) (s : State), s.meFree c.val = true ∧ s.waitMet c.val (.slot i.toNat (n.toNat + 1)) =
    true) ∧
    (∃ (c : Fin 16) (i : BitVec 13) (n : BitVec 6) (s : State), s.meFree c.val = true ∧ s.waitMet c.val (.slot i.toNat (n.toNat + 1)) =
    false) ∧
    (∃ (c : Fin 16) (i : BitVec 13) (n : BitVec 6) (s : State), s.meFree c.val = true ∧ s.waitMet c.val (.tiller i.toNat (n.toNat + 1)) =
    true) ∧
    (∃ (c : Fin 16) (i : BitVec 13) (n : BitVec 6) (s : State), s.meFree c.val = true ∧ s.waitMet c.val (.tiller i.toNat (n.toNat + 1)) =
    false) ∧
    (∃ (c : Fin 16) (off : BitVec 17) (s : State), s.meFree c.val = true ∧ s.tick < (s.me1 c.val).passStart + off.toNat) ∧
    (∃ (c : Fin 16) (off : BitVec 17) (s : State), s.meFree c.val = true ∧ (s.me1 c.val).passStart + off.toNat ≤ s.tick) ∧
    (∃ (c ch : Fin 16) (s : State), s.meFree c.val = true ∧ (s.me1 ch.val).flag = true) ∧
    (∃ (c ch : Fin 16) (s : State), s.meFree c.val = true ∧ (s.me1 ch.val).flag = false) ∧
    (∃ (c : Fin 16) (s : State), s.meFree c.val = true ∧ s.bit R.ME_CFG_CYCLIC c.val = true) ∧
    (∃ (c : Fin 16) (w : MeWait) (s : State), (s.me1 c.val).wait = some w ∧ s.waitMet c.val w = true) ∧
    (∃ (c : Fin 16) (s : State), (∀ w, (s.me1 c.val).wait = some w → s.waitMet c.val w = false)) ∧
    (∃ (c : Fin 16) (s : State), s.meFree c.val = false) ∧
    (∃ (d : DescId) (e : Desc) (s : State), Ready s d 0x18 e ∧ e.bits 4 5 4 = 0 ∧ s.notHolder = false ∧ s.get R.ME_STATE_STATE e.chan = 1 ∧
    s.bit R.ME_CFG_CYCLIC e.chan = false ∧ s.running = true) ∧
    (∃ (d : DescId) (e : Desc) (s : State), Ready s d 0x18 e ∧ e.bits 4 5 4 = 1 ∧ (s.get R.ME_STATE_STATE e.chan = 2 ∨ s.get
    R.ME_STATE_STATE e.chan = 3) ∧ (s.bit R.ME_CFG_CYCLIC e.chan = false ∨ s.enabled = false)) ∧
    (∃ (d : DescId) (e : Desc) (s : State), Ready s d 0x18 e ∧ e.bits 4 5 4 = 2 ∧ (s.get R.ME_STATE_STATE e.chan = 4 ∨ s.get
    R.ME_STATE_STATE e.chan = 5)) :=
  ⟨⟨15, 0xFFFF, State.reset, by decide, by decide⟩,
  ⟨15, 8191, 0, ({ me := { chan := [(15, { passCycle := 3 })] } } : State), by decide, by decide⟩,
  ⟨15, 8191, 0, State.reset |>.set R.CB_PT_STATE_STATE 0 3, by decide, by decide⟩,
  ⟨15, 63, 0, State.reset, by decide, by decide⟩,
  ⟨15, 63, 0, ({ tl := [(63, { running := true })] } : State), by decide, by decide⟩,
  ⟨15, 0x1FFFF, ({ tb := { tick := 0x1FFFE } } : State), by decide, by decide⟩,
  ⟨15, 0x1FFFF, ({ tb := { tick := 0x1FFFF } } : State), by decide, by decide⟩,
  ⟨15, 14, ({ me := { chan := [(14, { flag := true })] } } : State), by decide, by decide⟩,
  ⟨15, 14, State.reset, by decide, by decide⟩,
  ⟨15, State.reset |>.set R.ME_CFG_CYCLIC 15 1, by decide, by decide⟩,
  ⟨15, .time 4, ({ me := { chan := [(15, { wait := some (.time 4) })] }, tb := { tick := 4 } } : State), by decide, by decide⟩,
  ⟨15, State.reset, by decide⟩,
  ⟨15, State.reset |>.set R.ME_STATE_STATE 15 4, by decide⟩,
  ⟨{ ring := 0, tag := 0 }, { ring := 0, index := 0, words := [0x18, 0, 0, 0, 0xf] },
  ({ hi := { descs := [{ ring := 0, index := 0, words := [0x18, 0, 0, 0, 0xf] }] } } : State) |>.set R.ME_STATE_STATE 15 1 |>.set
  R.SYS_CELL_STATUS_STATE 0 2, ⟨rfl, by decide, rfl, by decide, by decide⟩, by decide, by decide, by decide, by decide, by decide⟩,
  ⟨{ ring := 0, tag := 0 }, { ring := 0, index := 0, words := [0x18, 0, 0, 0, 0x1f] },
  ({ hi := { descs := [{ ring := 0, index := 0, words := [0x18, 0, 0, 0, 0x1f] }] } } : State) |>.set R.ME_STATE_STATE 15 3, ⟨rfl, by
  decide, rfl, by decide, by decide⟩, by decide, by decide, by decide⟩,
  ⟨{ ring := 0, tag := 0 }, { ring := 0, index := 0, words := [0x18, 0, 0, 0, 0x2f] },
  ({ hi := { descs := [{ ring := 0, index := 0, words := [0x18, 0, 0, 0, 0x2f] }] } } : State) |>.set R.ME_STATE_STATE 15 4, ⟨rfl, by
  decide, rfl, by decide, by decide⟩, by decide, by decide⟩⟩

theorem witness_HostRings :
    (∃ (c : Fin 32) (s : State), s.bit R.INJ_STAT_KEY_LOADED = false ∧ (s.cring c.val).held = []) ∧
    (∃ (q : Fin 32) (s : State), s.bit R.HI_SQ_CFG_EN q.val = false) ∧
    (∃ (q : Fin 32) (s : State), s.bit R.HI_SQ_CFG_EN q.val = true) ∧
    (∃ (c : Fin 32) (s : State), s.bit R.HI_CQ_CFG_EN c.val = false ∧ (s.cring c.val).held = []) ∧
    (∃ (c : Fin 32) (s : State), s.bit R.HI_CQ_CFG_EN c.val = true) ∧
    (∃ (q : Fin 32) (l : List Word) (d : Desc) (s : State), s.bit R.INJ_STAT_KEY_LOADED = false ∧ s.fetchTurn q.val = true ∧ d =
    { ring := q.val, index := s.get R.HI_SQ_STATUS_HEAD q.val, words := l.take 16 } ∧ (s.cring d.cq).held.length < 64 ∧ s.formatReason d =
    none) ∧
    (∃ (q : Fin 32) (l : List Word) (d : Desc) (s : State) (r : Nat), s.bit R.INJ_STAT_KEY_LOADED = false ∧ s.fetchTurn q.val = true ∧ d =
    { ring := q.val, index := s.get R.HI_SQ_STATUS_HEAD q.val, words := l.take 16 } ∧ (s.cring d.cq).held.length < 64 ∧ s.formatReason d =
    some r) ∧
    (∃ (q : Fin 32) (s : State), s.fetchTurn q.val = false) ∧
    (∃ (c : Fin 32) (v : Nat) (s : State), s.msgDue c.val = true ∧ v = s.get R.HI_CQ_CFG_VECTOR c.val ∧ Tab.get (fun _ => false)
    s.hi.msixWritten v = true ∧ s.msixMasked v = true) ∧
    (∃ (c : Fin 32) (v : Nat) (s : State), s.msgDue c.val = true ∧ v = s.get R.HI_CQ_CFG_VECTOR c.val ∧ Tab.get (fun _ => false)
    s.hi.msixWritten v = true ∧ s.msixMasked v = false) ∧
    (∃ (c : Fin 32) (s : State), s.msgDue c.val = false) ∧
    (∃ (d : DescId) (e : Desc) (s : State), Ready s d 0 e) :=
  ⟨⟨31, State.reset, by decide, by decide⟩,
  ⟨31, State.reset, by decide⟩,
  ⟨31, State.reset |>.set R.HI_SQ_CFG_EN 31 1, by decide⟩,
  ⟨31, State.reset, by decide, by decide⟩,
  ⟨31, State.reset |>.set R.HI_CQ_CFG_EN 31 1, by decide⟩,
  ⟨31, [0, 9], { ring := 31, index := 0, words := [0, 9] }, ({ hi := { tails := [(31, 1)], cring := [(0, { everEn := true })] } } : State)
  |>.set R.HI_SQ_CFG_EN 31 1, by decide, by decide, by decide, by decide, by decide⟩,
  ⟨31, [0, 9], { ring := 31, index := 0, words := [0, 9] }, ({ hi := { tails := [(31, 1)] } } : State) |>.set R.HI_SQ_CFG_EN 31 1, 0xF1, by
  decide, by decide, by decide, by decide, by decide⟩,
  ⟨31, State.reset, by decide⟩,
  ⟨31, 31, ({ hi := { cring := [(31, { counted := 1 })], msixWritten := [(31, true)], funcMask := true } } : State) |>.set
  R.HI_CQ_CFG_VECTOR 31 31, by decide, by decide, by decide, by decide⟩,
  ⟨31, 31, ({ hi := { cring := [(31, { counted := 1 })], msixWritten := [(31, true)], msixTab := [(127, 0)] } } : State) |>.set
  R.HI_CQ_CFG_VECTOR 31 31, by decide, by decide, by decide, by decide⟩,
  ⟨31, State.reset, by decide⟩,
  ⟨{ ring := 0, tag := 0 }, { ring := 0, index := 0, words := [0] }, ({ hi := { descs := [{ ring := 0, index := 0, words := [0] }] } } :
  State), ⟨rfl, by decide, rfl, by decide, by decide⟩⟩⟩

theorem witness_HostAccess :
    (∃ (off : Nat) (s : State), (s.takesWrites = false ∨ 0x200000 ≤ off)) ∧
    (∃ (off : Nat) (s : State), s.bit R.INJ_STAT_KEY_LOADED = false ∧ s.takesWrites = true ∧ off < 0x200000 ∧ off % 4 ≠ 0) ∧
    (∃ (i : Nat) (s : State), s.takesWrites = true ∧ i < 256) ∧
    (∃ (off : Nat) (w : Word) (s : State), s.takesWrites = true ∧ off < 0x200000 ∧ off % 4 = 0 ∧ (¬ (0x108000 ≤ off ∧ off < 0x108400)) ∧
    isStaged off = true ∧ s.anyRefused (s.place off) w = false) ∧
    (∃ (off : Nat) (w : Word) (s : State), s.takesWrites = true ∧ off < 0x100000 ∧ off % 4 = 0 ∧ isStaged off = false ∧ isStaged (off - 4) =
    false ∧ s.anyRefused (s.place off) w = false ∧ blkOf off ∈ [Blk.tl, .mp, .sep, .sch, .me]) ∧
    (∃ (off : Nat) (w : Word) (s : State), s.takesWrites = true ∧ off < 0x100000 ∧ off % 4 = 0 ∧ isStaged off = false ∧ isStaged (off - 4) =
    false ∧ s.anyRefused (s.place off) w = true ∧ blkOf off ∈ [Blk.tl, .mp, .sep, .sch, .me] ∧ (∀ f ∈ fieldsAt (s.place off), s.refused
    (s.place off) w f = true)) ∧
    (∃ (off : Nat), (off % 4 ≠ 0 ∨ 0x200000 ≤ off)) ∧
    (∃ (off : Nat) (r : NsReg), off % 4 = 0 ∧ off < 0x200000 ∧ nsRegAt off = some r) ∧
    (∃ (off : Nat) (s : State) (w : Word), off % 4 = 0 ∧ off < 0x200000 ∧ nsRegAt off = none ∧ R.TB_CAP_NS_NS.instAt off = none ∧
    R.AD_RES.instAt off = none ∧ Tab.get (fun _ => none) s.hiLatch off = some w) ∧
    (∃ (off : Nat) (s : State), off % 4 = 0 ∧ off < 0x200000 ∧ nsRegAt off = none ∧ R.TB_CAP_NS_NS.instAt off = none ∧ R.AD_RES.instAt off =
    none ∧ Tab.get (fun _ => none) s.hiLatch off = none ∧ isLow off = true) ∧
    (∃ (off : Nat) (jtag : Bool) (s : State), off % 4 = 0 ∧ off < 0x200000 ∧ nsRegAt off = none ∧ R.TB_CAP_NS_NS.instAt off = none ∧
    R.AD_RES.instAt off = none ∧ Tab.get (fun _ => none) s.hiLatch off = none ∧ jtag = true) ∧
    (∃ (f : Machine.Field) (s : State), (f = R.HI_STATUS_DESC_ERR ∨ f = R.HI_STATUS_DMA_ERR) ∧ Tab.get (fun _ => none) s.hiLatch (f.addr 0)
    = none) :=
  ⟨⟨0, State.reset, by decide⟩,
  ⟨0x1FFFFE, ({ pw := { phase := .running } } : State), by decide, by decide, by decide, by decide⟩,
  ⟨255, ({ pw := { phase := .running } } : State), by decide, by decide⟩,
  ⟨R.HI_SQ_BASE_LO_ADDR.addr 31, 0x40, ({ pw := { phase := .running } } : State), by decide, by decide, by decide, by decide, by decide, by
  decide⟩,
  ⟨R.TL_CFG_EN.addr 63, 0, ({ pw := { phase := .running } } : State), by decide, by decide, by decide, by decide, by decide, by decide, by
  decide⟩,
  ⟨R.TL_CFG_EN.addr 63, 0xFFFFFFFF, ({ pw := { phase := .running } } : State) |>.set R.SYS_CELL_STATUS_STATE 0 2, by decide, by decide, by
  decide, by decide, by decide, by decide, by decide, by decide⟩,
  ⟨0x200000, by decide⟩,
  ⟨R.TB_STEP_NS_NS.addr 0, .step, by decide, by decide, by decide⟩,
  ⟨8, ({ hiLatch := [(8, some 3)] } : State), 3, by decide, by decide, by decide, by decide, by decide, by decide⟩,
  ⟨R.TB_TRG_SEC_LO.addr 15, State.reset, by decide, by decide, by decide, by decide, by decide, by decide, by decide⟩,
  ⟨8, true, State.reset, by decide, by decide, by decide, by decide, by decide, by decide, by decide⟩,
  ⟨R.HI_STATUS_DESC_ERR, State.reset, by decide, by decide⟩⟩

theorem witness_Parameters :
    (∃ (d : DescId) (e : Desc) (i : Nat) (s : State), Ready s d 1 e ∧ s.regionOf (e.bits 6 20 0) = some i ∧ s.paramRegion i = true ∧
    s.inRegion i (e.bits 6 20 0 + e.bits 7 16 0 - 1) = true ∧ s.copying i = false) ∧
    (∃ (d : DescId) (e : Desc) (i : Nat) (s : State), Ready s d 1 e ∧ s.regionOf (e.bits 6 20 0) = some i ∧ s.paramRegion i = true ∧
    s.inRegion i (e.bits 6 20 0 + e.bits 7 16 0 - 1) = true ∧ s.copying i = true) ∧
    (∃ (d : DescId) (e : Desc) (data : Option (List Word)) (s : State), Ready s d 1 e ∧ (data = none ∨ s.regionOf (e.bits 6 20 0) = none ∨
    (∃ i, s.regionOf (e.bits 6 20 0) = some i ∧ (s.paramRegion i = false ∨ s.inRegion i (e.bits 6 20 0 + e.bits 7 16 0 - 1) = false)))) ∧
    (∃ (d : DescId) (e : Desc) (s : State), Ready s d 2 e ∧ (s.cell = 0 ∨ s.cell = 2) ∧ s.notHolder = false ∧ commitRegions e ≠ [] ∧
    (commitRegions e).all s.paramRegion = true) ∧
    (∃ (d : DescId) (e : Desc) (s : State), Ready s d 2 e ∧ (s.cell = 0 ∨ s.cell = 2) ∧ s.notHolder = false ∧ (commitRegions e = [] ∨
    (commitRegions e).all s.paramRegion = false)) ∧
    (∃ (s : State), (s.cell = 1 ∨ s.cell = 3)) ∧
    (∃ (c : CommitReq) (i w : Nat) (s : State), Tab.wf (fun _ => 0) s.gr.back = true ∧ s.gr.commits = [c] ∧ s.commitDue c = true ∧ c.regions
    = [i] ∧ s.inRegion i w = true) ∧
    (∃ (s : State), (∀ c ∈ s.gr.commits, s.commitDue c = false)) ∧
    (∃ (h : HeldWrite) (s : State), (∀ c ∈ s.gr.copies, c.2 ≤ s.tick) ∧ s.gr.heldWrites = [h]) ∧
    (∃ (s : State), s.gr.heldWrites = []) ∧
    (∃ (d : DescId) (e : Desc) (n : Nat) (s : State), Ready s d 3 e ∧ (∀ r ∈ snapRanges e, r.1 + 4 * r.2 ≤ 0x200000) ∧ ((snapRanges e).map
    fun r => r.2).sum ≤ 1024 ∧ n ≤ 3) ∧
    (∃ (d : DescId) (e : Desc) (n : Nat) (s : State), Ready s d 3 e ∧ (3 < n ∨ (∃ r ∈ snapRanges e, 0x200000 < r.1 + 4 * r.2) ∨ 1024 <
    ((snapRanges e).map fun r => r.2).sum)) :=
  ⟨⟨{ ring := 0, tag := 0 }, { ring := 0, index := 0, words := [1, 0, 0, 0, 0, 0, 5, 3] }, 255,
  ({ hi := { descs := [{ ring := 0, index := 0, words := [1, 0, 0, 0, 0, 0, 5, 3] }] } } : State) |>.set R.HI_GR_A_KIND 255 1 |>.set
  R.HI_GR_A_BASE 255 5 |>.set R.HI_GR_B_LENGTH 255 3, ⟨rfl, by decide, rfl, by decide, by decide⟩, by decide, by decide, by decide, by
  decide⟩,
  ⟨{ ring := 0, tag := 0 }, { ring := 0, index := 0, words := [1, 0, 0, 0, 0, 0, 5, 3] }, 255,
  ({ gr := { copies := [(255, 9)] }, hi := { descs := [{ ring := 0, index := 0, words := [1, 0, 0, 0, 0, 0, 5, 3] }] } } : State) |>.set
  R.HI_GR_A_KIND 255 1 |>.set R.HI_GR_A_BASE 255 5 |>.set R.HI_GR_B_LENGTH 255 3, ⟨rfl, by decide, rfl, by decide, by decide⟩, by decide, by
  decide, by decide, by decide⟩,
  ⟨{ ring := 0, tag := 0 }, { ring := 0, index := 0, words := [1, 0, 0, 0, 0, 0, 0, 1] }, none,
  ({ hi := { descs := [{ ring := 0, index := 0, words := [1, 0, 0, 0, 0, 0, 0, 1] }] } } : State), ⟨rfl, by decide, rfl, by decide, by
  decide⟩, by decide⟩,
  ⟨{ ring := 0, tag := 0 }, { ring := 0, index := 0, words := [2, 0, 0, 0, 0, 0, 0, 0, 0, 0, 0, 0x80000000] },
  ({ hi := { descs := [{ ring := 0, index := 0, words := [2, 0, 0, 0, 0, 0, 0, 0, 0, 0, 0, 0x80000000] }] } } : State) |>.set R.HI_GR_A_KIND
  255 1, ⟨rfl, by decide, rfl, by decide, by decide⟩, by decide, by decide, by decide, by decide⟩,
  ⟨{ ring := 0, tag := 0 }, { ring := 0, index := 0, words := [2, 0, 0, 0, 0, 0, 0, 0, 0, 0, 0, 0x80000000] },
  ({ hi := { descs := [{ ring := 0, index := 0, words := [2, 0, 0, 0, 0, 0, 0, 0, 0, 0, 0, 0x80000000] }] } } : State), ⟨rfl, by decide,
  rfl, by decide, by decide⟩, by decide, by decide, by decide⟩,
  ⟨State.reset |>.set R.SYS_CELL_STATUS_STATE 0 3, by decide⟩,
  ⟨{ desc := none, regions := [255], tick := 0, enabled := false }, 255, 7,
  ({ gr := { commits := [{ desc := none, regions := [255], tick := 0, enabled := false }] }, tb := { tick := 250 } } : State) |>.set
  R.HI_GR_A_KIND 255 1 |>.set R.HI_GR_A_BASE 255 5 |>.set R.HI_GR_B_LENGTH 255 3, by decide, by decide, by decide, by decide, by decide⟩,
  ⟨State.reset, by decide⟩,
  ⟨{ desc := { ring := 0, tag := 0 }, addr := 5, words := [1] },
  ({ gr := { heldWrites := [{ desc := { ring := 0, tag := 0 }, addr := 5, words := [1] }], copies := [(255, 9)] }, tb := { tick := 9 } } :
  State), by decide, by decide⟩,
  ⟨State.reset, by decide⟩,
  ⟨{ ring := 0, tag := 0 }, { ring := 0, index := 0, words := [3, 0, 0, 0, 0, 0, 0x1ffffc, 1] }, 3,
  ({ hi := { descs := [{ ring := 0, index := 0, words := [3, 0, 0, 0, 0, 0, 0x1ffffc, 1] }] } } : State), ⟨rfl, by decide, rfl, by decide,
  by decide⟩, by decide, by decide, by decide⟩,
  ⟨{ ring := 0, tag := 0 }, { ring := 0, index := 0, words := [3] }, 4, ({ hi := { descs := [{ ring := 0, index := 0, words := [3] }] } } :
  State), ⟨rfl, by decide, rfl, by decide, by decide⟩, by decide⟩⟩

theorem witness_LongOperations :
    (∃ (d : DescId) (e : Desc) (s : State), Ready s d 8 e ∧ s.longOf d = none ∧ s.longBusy 8 = false ∧ s.imageInUse (e.bits 7 9 0) = false)
    ∧
    (∃ (d : DescId) (e : Desc) (s : State), Ready s d 8 e ∧ s.longBusy 8 = false ∧ s.imageInUse (e.bits 7 9 0) = true) ∧
    (∃ (d : DescId) (e : Desc) (s : State), Ready s d 9 e ∧ s.longOf d = none ∧ s.longBusy 9 = false ∧ s.locked = false) ∧
    (∃ (d : DescId) (e : Desc) (s : State), Ready s d 10 e ∧ s.longOf d = none ∧ s.longBusy 10 = false ∧ (s.locked = false ∨ s.bit
    R.SV_CFG_EN (e.bits 7 3 0) = false)) ∧
    (∃ (d : DescId) (e : Desc) (s : State), Ready s d 11 e ∧ s.longOf d = none ∧ s.longBusy 11 = false) ∧
    (∃ (d : DescId) (e : Desc) (s : State), Ready s d 12 e ∧ s.longOf d = none ∧ s.longBusy 12 = false ∧ s.locked = false ∧ s.mgmtDown =
    false) ∧
    (∃ (s : State), s.mgmtDown = true) ∧
    (∃ (d : DescId) (e : Desc) (s : State), Ready s d 8 e ∧ s.longBusy 8 = true) ∧
    (∃ (d : DescId) (e : Desc) (s : State), (Ready s d 9 e ∧ (s.locked = true ∨ s.longBusy 9 = true))) ∧
    (∃ (d : DescId) (e : Desc) (s : State), (Ready s d 10 e ∧ s.longBusy 10 = true)) ∧
    (∃ (d : DescId) (e : Desc) (s : State), (Ready s d 11 e ∧ s.longBusy 11 = true)) ∧
    (∃ (d : DescId) (e : Desc) (s : State), (Ready s d 12 e ∧ s.mgmtDown = false ∧ (s.locked = true ∨ s.longBusy 12 = true))) ∧
    (∃ (d : DescId) (l : LongOp) (e : Desc) (img : Image) (s : State), s.hi.longs = [l] ∧ l.desc = d ∧ l.opcode = 8 ∧ s.desc? (dkey d) =
    some e ∧ imageGood img = true) ∧
    (∃ (d : DescId) (l : LongOp) (e : Desc) (img : Option Image) (s : State), s.hi.longs = [l] ∧ l.desc = d ∧ l.opcode = 8 ∧ s.desc? (dkey
    d) = some e ∧ (img = none ∨ ∃ i, img = some i ∧ imageGood i = false)) ∧
    (∃ (d : DescId) (l : LongOp) (e : Desc) (r : LongEnd) (s : State), s.hi.longs = [l] ∧ l.desc = d ∧ s.desc? (dkey d) = some e ∧ (l.opcode
    = 9 ∧ (∃ a b, r = .tests a b) ∨ l.opcode = 10 ∧ (∃ a, r = .solved a) ∨ l.opcode = 11 ∧ r = .dumped ∨ l.opcode = 12 ∧ (∃ a b, r =
    .firmware a b) ∨ r = .dmaError)) ∧
    (∃ (d : DescId) (e : Desc) (l : LongOp) (x : Desc) (s : State), Ready s d 13 e ∧ s.hi.longs = [l] ∧ l.desc.tag = e.word 4 ∧ s.desc?
    (dkey l.desc) = some x ∧ x.key ≠ e.key ∧ l.opcode = 8) ∧
    (∃ (d : DescId) (e : Desc) (s : State), Ready s d 13 e ∧ (∀ l ∈ s.hi.longs, l.desc.tag ≠ e.word 4)) :=
  ⟨⟨{ ring := 0, tag := 0 }, { ring := 0, index := 0, words := [8] }, ({ hi := { descs := [{ ring := 0, index := 0, words := [8] }] } } :
  State), ⟨rfl, by decide, rfl, by decide, by decide⟩, by decide, by decide, by decide⟩,
  ⟨{ ring := 0, tag := 0 }, { ring := 0, index := 0, words := [8, 0, 0, 0, 0, 0, 0, 0x1ff] },
  ({ hi := { descs := [{ ring := 0, index := 0, words := [8, 0, 0, 0, 0, 0, 0, 0x1ff] }] } } : State) |>.set R.TL_CFG_EN 63 1 |>.set
  R.TL_CFG_IMAGE 63 511, ⟨rfl, by decide, rfl, by decide, by decide⟩, by decide, by decide⟩,
  ⟨{ ring := 0, tag := 0 }, { ring := 0, index := 0, words := [9] }, ({ hi := { descs := [{ ring := 0, index := 0, words := [9] }] } } :
  State), ⟨rfl, by decide, rfl, by decide, by decide⟩, by decide, by decide, by decide⟩,
  ⟨{ ring := 0, tag := 0 }, { ring := 0, index := 0, words := [0xa] }, ({ hi := { descs := [{ ring := 0, index := 0, words := [0xa] }] } } :
  State), ⟨rfl, by decide, rfl, by decide, by decide⟩, by decide, by decide, by decide⟩,
  ⟨{ ring := 0, tag := 0 }, { ring := 0, index := 0, words := [0xb] }, ({ hi := { descs := [{ ring := 0, index := 0, words := [0xb] }] } } :
  State), ⟨rfl, by decide, rfl, by decide, by decide⟩, by decide, by decide⟩,
  ⟨{ ring := 0, tag := 0 }, { ring := 0, index := 0, words := [0xc] },
  ({ pw := { mgmtUp := true }, hi := { descs := [{ ring := 0, index := 0, words := [0xc] }] } } : State), ⟨rfl, by decide, rfl, by decide,
  by decide⟩, by decide, by decide, by decide, by decide⟩,
  ⟨State.reset, by decide⟩,
  ⟨{ ring := 0, tag := 0 }, { ring := 0, index := 0, words := [8] },
  ({ hi := { longs := [{ desc := { ring := 1, tag := 5 }, opcode := 8, state := 1 }], descs := [{ ring := 0, index := 0, words := [8] }] } }
  : State), ⟨rfl, by decide, rfl, by decide, by decide⟩, by decide⟩,
  ⟨{ ring := 0, tag := 0 }, { ring := 0, index := 0, words := [9] }, ({ hi := { descs := [{ ring := 0, index := 0, words := [9] }] } } :
  State) |>.set R.SYS_CELL_STATUS_STATE 0 2, ⟨⟨rfl, by decide, rfl, by decide, by decide⟩, by decide⟩⟩,
  ⟨{ ring := 0, tag := 0 }, { ring := 0, index := 0, words := [0xa] },
  ({ hi := { longs := [{ desc := { ring := 1, tag := 5 }, opcode := 10, state := 1 }], descs := [{ ring := 0, index := 0, words := [0xa] }] } }
  : State), ⟨⟨rfl, by decide, rfl, by decide, by decide⟩, by decide⟩⟩,
  ⟨{ ring := 0, tag := 0 }, { ring := 0, index := 0, words := [0xb] },
  ({ hi := { longs := [{ desc := { ring := 1, tag := 5 }, opcode := 11, state := 1 }], descs := [{ ring := 0, index := 0, words := [0xb] }] } }
  : State), ⟨⟨rfl, by decide, rfl, by decide, by decide⟩, by decide⟩⟩,
  ⟨{ ring := 0, tag := 0 }, { ring := 0, index := 0, words := [0xc] },
  ({ hi := { longs := [{ desc := { ring := 1, tag := 5 }, opcode := 12, state := 1 }], descs := [{ ring := 0, index := 0, words := [0xc] }] }, pw := { mgmtUp := true } }
  : State), ⟨⟨rfl, by decide, rfl, by decide, by decide⟩, by decide⟩⟩,
  ⟨{ ring := 0, tag := 0 }, { desc := { ring := 0, tag := 0 }, opcode := 8, state := 1 }, { ring := 0, index := 0, words := [8] },
  { ident := 1, fmt := 1, checkOk := true, tillers := [], solver := none },
  ({ hi := { longs := [{ desc := { ring := 0, tag := 0 }, opcode := 8, state := 1 }], descs := [{ ring := 0, index := 0, words := [8] }] } }
  : State), by decide, by decide, by decide, by decide, by decide⟩,
  ⟨{ ring := 0, tag := 0 }, { desc := { ring := 0, tag := 0 }, opcode := 8, state := 1 }, { ring := 0, index := 0, words := [8] }, none,
  ({ hi := { longs := [{ desc := { ring := 0, tag := 0 }, opcode := 8, state := 1 }], descs := [{ ring := 0, index := 0, words := [8] }] } }
  : State), by decide, by decide, by decide, by decide, .inl rfl⟩,
  ⟨{ ring := 0, tag := 0 }, { desc := { ring := 0, tag := 0 }, opcode := 11, state := 1 }, { ring := 0, index := 0, words := [0xb] },
  .dumped,
  ({ hi := { longs := [{ desc := { ring := 0, tag := 0 }, opcode := 11, state := 1 }], descs := [{ ring := 0, index := 0, words := [0xb] }] } }
  : State), by decide, by decide, by decide, .inr (.inr (.inl ⟨rfl, rfl⟩))⟩,
  ⟨{ ring := 0, tag := 0 }, { ring := 0, index := 0, words := [0xd, 0, 0, 0, 7] },
  { desc := { ring := 0, tag := 7 }, opcode := 8, state := 1 }, { ring := 0, index := 1, words := [8, 7] },
  ({ hi := { longs := [{ desc := { ring := 0, tag := 7 }, opcode := 8, state := 1 }], descs := [{ ring := 0, index := 0, words := [0xd, 0, 0, 0, 7] }, { ring := 0, index := 1, words := [8, 7] }] } }
  : State), ⟨rfl, by decide, rfl, by decide, by decide⟩, by decide, by decide, by decide, by decide, by decide⟩,
  ⟨{ ring := 0, tag := 0 }, { ring := 0, index := 0, words := [0xd] }, ({ hi := { descs := [{ ring := 0, index := 0, words := [0xd] }] } } :
  State), ⟨rfl, by decide, rfl, by decide, by decide⟩, by decide⟩⟩

theorem witness_TwinStates :
    (∃ (s : State), s.holdsLease = true ∧ s.tw.released = none ∧ s.grid.cyc.isSome = true ∧ s.allCommandsOut = true) ∧
    (∃ (s : State), (s.holdsLease = false ∨ s.tw.released ≠ none ∨ s.grid.cyc = none ∨ s.allCommandsOut = false)) ∧
    (∃ (s : State), s.twState = 4 ∧ (s.get R.TW_CFG_LEASE_CYC ≤ s.get R.TW_LEASE_STAT_SINCE_RENEW ∨ ∃ m, s.tw.takeAt = some m ∧ m ≤
    s.cycle)) ∧
    (∃ (s : State), (s.twState = 3 ∨ s.twState = 5) ∧ s.get R.TW_CFG_LEASE_CYC ≤ s.get R.TW_LEASE_STAT_SINCE_RENEW ∧ s.tw.lost = false) ∧
    (∃ (s : State), ((s.twState ≠ 3 ∧ s.twState ≠ 4 ∧ s.twState ≠ 5) ∨ (s.get R.TW_LEASE_STAT_SINCE_RENEW < s.get R.TW_CFG_LEASE_CYC ∧
    (s.twState = 4 → s.tw.takeAt = none)))) ∧
    (∃ (r : Nat) (s : State), s.tw.released = some r ∧ s.holdsLease = true ∧ r + s.get R.TW_CFG_LEASE_CYC + 1 ≤ s.cycle) ∧
    (∃ (s : State), (s.tw.released = none ∨ s.holdsLease = false ∨ (∃ (r : Nat), s.tw.released = some r ∧ s.cycle < r + s.get
    R.TW_CFG_LEASE_CYC + 1))) ∧
    (∃ (h : Handover) (s : State), s.tw.handover = some h ∧ h.cycle ≤ s.cycle ∧ h.giver = true ∧ s.holdsLease = true ∧ h.epoch < 65536 ∧
    h.confirmed = true) ∧
    (∃ (h : Handover) (s : State), s.tw.handover = some h ∧ h.cycle ≤ s.cycle ∧ h.giver = true ∧ s.holdsLease = true ∧ h.epoch < 65536 ∧
    h.confirmed = false) ∧
    (∃ (h : Handover) (s : State), s.tw.handover = some h ∧ h.cycle ≤ s.cycle ∧ h.giver = false ∧ h.confirmed = true ∧ s.twState = 4 ∧
    h.epoch < 65536) ∧
    (∃ (s : State), (∀ h, s.tw.handover = some h → s.cycle < h.cycle)) ∧
    (∃ (a : Nat) (s : State), s.holdsLease = true ∧ s.bit R.TW_CFG_POSITION = true ∧ s.bit R.TW_CFG_SWITCHBACK = true ∧ s.peer = 4 ∧
    s.tw.peerStandbyAt = some a ∧ a + s.get R.TW_CFG_HOLDOFF_S * 125000000 ≤ s.tick ∧ (∀ g, g < 8 → s.jointsIn g 3 = []) ∧ s.tw.handover =
    none ∧ s.tw.released = none) ∧
    (∃ (s : State), (s.holdsLease = false ∨ s.bit R.TW_CFG_POSITION = false ∨ s.bit R.TW_CFG_SWITCHBACK = false ∨ s.peer ≠ 4 ∨
    s.tw.peerStandbyAt = none ∨ s.tw.handover ≠ none ∨ (∃ g, g < 8 ∧ s.jointsIn g 3 ≠ []))) ∧
    (∃ (s : State), s.twState = 3 ∧ s.tw.transferAt + 6250000 ≤ s.tick) ∧
    (∃ (s : State), (s.twState ≠ 3 ∨ s.tick < s.tw.transferAt + 6250000)) ∧
    (∃ (s : State), s.twState = 3 ∧ s.caughtUp = true ∧ s.isSolverCycle s.cycle = true ∧ s.tw.mirrorIn = []) ∧
    (∃ (s : State), (s.twState ≠ 3 ∨ s.caughtUp = false ∨ s.isSolverCycle s.cycle = false)) ∧
    (∃ (s : State), (s.twState = 2 ∨ s.twState = 4) ∧ 3 ≤ s.tw.missRun) ∧
    (∃ (s : State), ((s.twState ≠ 2 ∧ s.twState ≠ 4) ∨ s.tw.missRun < 3)) ∧
    (∃ (p : Fin 4) (s : State), s.bit R.TW_CFG_EN = true ∧ Tab.get (fun _ => 0) s.tw.echoMiss p.val = 3) ∧
    (∃ (p : Fin 4) (s : State), (s.bit R.TW_CFG_EN = false ∨ Tab.get (fun _ => 0) s.tw.echoMiss p.val ≠ 3)) ∧
    (∃ (s : State), s.twState = 1 ∧ s.tw.lastMsg.getD 0 + 64 ≤ s.cycle) ∧
    (∃ (s : State), (s.twState ≠ 1 ∨ s.cycle < s.tw.lastMsg.getD 0 + 64)) ∧
    (∃ (d : DescId) (e : Desc) (s : State), Ready s d 0x28 e ∧ e.bits 4 3 0 = 0 ∧ s.holdsLease = true ∧ s.tw.released = none ∧ s.peer = 4 ∧
    s.twinUp = true) ∧
    (∃ (d : DescId) (e : Desc) (s : State), Ready s d 0x28 e ∧ e.bits 4 3 0 = 0 ∧ (s.holdsLease = false ∨ s.tw.released ≠ none ∨ s.peer ≠ 4
    ∨ s.twinUp = false)) ∧
    (∃ (d : DescId) (e : Desc) (s : State), Ready s d 0x28 e ∧ e.bits 4 3 0 = 1 ∧ s.bit R.TW_CFG_POSITION = true ∧ s.holdsLease = true ∧
    s.tw.released = none ∧ s.peer = 4 ∧ s.twinUp = true) ∧
    (∃ (d : DescId) (e : Desc) (s : State), Ready s d 0x28 e ∧ e.bits 4 3 0 = 1 ∧ s.bit R.TW_CFG_POSITION = false ∧ s.twState = 4 ∧ s.peer =
    2 ∧ s.twinUp = true) ∧
    (∃ (d : DescId) (e : Desc) (s : State), Ready s d 0x28 e ∧ e.bits 4 3 0 = 1 ∧ s.bit R.TW_CFG_POSITION = false ∧ (s.twState ≠ 4 ∨ s.peer
    ≠ 2 ∨ s.twinUp = false)) ∧
    (∃ (d : DescId) (e : Desc) (s : State), Ready s d 0x28 e ∧ e.bits 4 3 0 = 2 ∧ s.cell = 0 ∧ s.bit R.TW_CFG_EN = true ∧ s.twinUp = true) ∧
    (∃ (d : DescId) (e : Desc) (s : State), Ready s d 0x28 e ∧ e.bits 4 3 0 = 2 ∧ (s.cell ≠ 0 ∨ s.bit R.TW_CFG_EN = false ∨ s.twinUp =
    false)) ∧
    (∃ (d : DescId) (e : Desc) (s : State), Ready s d 0x28 e ∧ e.bits 4 3 0 = 3 ∧ (s.twState = 5 ∨ s.twState = 6) ∧ s.twinUp = true ∧
    (s.tw.causeCode = 0 ∨ s.acked s.tw.causeCode s.tw.causeInst = true)) ∧
    (∃ (d : DescId) (e : Desc) (s : State), Ready s d 0x28 e ∧ e.bits 4 3 0 = 3 ∧ ((s.twState ≠ 5 ∧ s.twState ≠ 6) ∨ s.twinUp = false ∨
    (s.tw.causeCode ≠ 0 ∧ s.acked s.tw.causeCode s.tw.causeInst = false))) :=
  ⟨⟨({ grid := { cyc := some 5, running := true } } : State) |>.set R.TW_CFG_EN 0 1 |>.set R.TW_STATE_STATE 0 2, by decide, by decide, by
  decide, by decide⟩,
  ⟨State.reset, by decide⟩,
  ⟨State.reset |>.set R.TW_STATE_STATE 0 4 |>.set R.TW_CFG_LEASE_CYC 0 3 |>.set R.TW_LEASE_STAT_SINCE_RENEW 0 3, by decide, by decide⟩,
  ⟨State.reset |>.set R.TW_STATE_STATE 0 5 |>.set R.TW_CFG_LEASE_CYC 0 3 |>.set R.TW_LEASE_STAT_SINCE_RENEW 0 3, by decide, by decide, by
  decide⟩,
  ⟨State.reset, by decide⟩,
  ⟨5, ({ tw := { released := some 5 }, grid := { cyc := some 9 } } : State) |>.set R.TW_CFG_EN 0 1 |>.set R.TW_STATE_STATE 0 2 |>.set
  R.TW_CFG_LEASE_CYC 0 3, by decide, by decide, by decide⟩,
  ⟨State.reset, by decide⟩,
  ⟨{ epoch := 65535, cycle := 5, confirmed := true, giver := true, desc := none },
  ({ tw := { handover := some { epoch := 65535, cycle := 5, confirmed := true, giver := true, desc := none } }, grid := { cyc := some 5 } }
  : State) |>.set R.TW_CFG_EN 0 1 |>.set R.TW_STATE_STATE 0 2, by decide, by decide, by decide, by decide, by decide, by decide⟩,
  ⟨{ epoch := 65535, cycle := 5, confirmed := false, giver := true, desc := none },
  ({ tw := { handover := some { epoch := 65535, cycle := 5, confirmed := false, giver := true, desc := none } }, grid := { cyc := some 5 } }
  : State) |>.set R.TW_CFG_EN 0 1 |>.set R.TW_STATE_STATE 0 2, by decide, by decide, by decide, by decide, by decide, by decide⟩,
  ⟨{ epoch := 65535, cycle := 5, confirmed := true, giver := false, desc := none },
  ({ tw := { handover := some { epoch := 65535, cycle := 5, confirmed := true, giver := false, desc := none } }, grid := { cyc := some 5 } }
  : State) |>.set R.TW_STATE_STATE 0 4, by decide, by decide, by decide, by decide, by decide, by decide⟩,
  ⟨State.reset, by decide⟩,
  ⟨2, ({ tw := { peerStandbyAt := some 2 }, tb := { tick := 125000002 } } : State) |>.set R.TW_CFG_EN 0 1 |>.set R.TW_STATE_STATE 0 2 |>.set
  R.TW_CFG_POSITION 0 1 |>.set R.TW_CFG_SWITCHBACK 0 1 |>.set R.TW_STATE_PEER_STATE 0 4 |>.set R.TW_CFG_HOLDOFF_S 0 1, by decide, by decide,
  by decide, by decide, by decide, by decide, by decide, by decide, by decide⟩,
  ⟨State.reset, by decide⟩,
  ⟨({ tw := { transferAt := 3 }, tb := { tick := 6250003 } } : State) |>.set R.TW_STATE_STATE 0 3, by decide, by decide⟩,
  ⟨State.reset, by decide⟩,
  ⟨({ tw := { loaded := some 7, capture := some 4 }, grid := { cyc := some 10 } } : State) |>.set R.TW_STATE_STATE 0 3 |>.set
  R.SCH_CFG_SOLVER_CYC 0 5, by decide, by decide, by decide, by decide⟩,
  ⟨State.reset, by decide⟩,
  ⟨({ tw := { missRun := 3 } } : State) |>.set R.TW_STATE_STATE 0 2, by decide, by decide⟩,
  ⟨State.reset, by decide⟩,
  ⟨3, ({ tw := { echoMiss := [(3, 3)] } } : State) |>.set R.TW_CFG_EN 0 1, by decide, by decide⟩,
  ⟨3, State.reset, by decide⟩,
  ⟨({ grid := { cyc := some 64 } } : State) |>.set R.TW_STATE_STATE 0 1, by decide, by decide⟩,
  ⟨State.reset, by decide⟩,
  ⟨{ ring := 0, tag := 0 }, { ring := 0, index := 0, words := [0x28, 0, 0, 0, 0] },
  ({ hi := { descs := [{ ring := 0, index := 0, words := [0x28, 0, 0, 0, 0] }] } } : State) |>.set R.TW_CFG_EN 0 1 |>.set R.TW_STATE_STATE 0
  2 |>.set R.TW_STATE_PEER_STATE 0 4 |>.set R.TW_LINK_STATE_STATE 1 3, ⟨rfl, by decide, rfl, by decide, by decide⟩, by decide, by decide, by
  decide, by decide, by decide⟩,
  ⟨{ ring := 0, tag := 0 }, { ring := 0, index := 0, words := [0x28, 0, 0, 0, 0] },
  ({ hi := { descs := [{ ring := 0, index := 0, words := [0x28, 0, 0, 0, 0] }] } } : State), ⟨rfl, by decide, rfl, by decide, by decide⟩, by
  decide, by decide⟩,
  ⟨{ ring := 0, tag := 0 }, { ring := 0, index := 0, words := [0x28, 0, 0, 0, 1] },
  ({ hi := { descs := [{ ring := 0, index := 0, words := [0x28, 0, 0, 0, 1] }] } } : State) |>.set R.TW_CFG_EN 0 1 |>.set R.TW_STATE_STATE 0
  2 |>.set R.TW_STATE_PEER_STATE 0 4 |>.set R.TW_LINK_STATE_STATE 1 3 |>.set R.TW_CFG_POSITION 0 1, ⟨rfl, by decide, rfl, by decide, by
  decide⟩, by decide, by decide, by decide, by decide, by decide, by decide⟩,
  ⟨{ ring := 0, tag := 0 }, { ring := 0, index := 0, words := [0x28, 0, 0, 0, 1] },
  ({ hi := { descs := [{ ring := 0, index := 0, words := [0x28, 0, 0, 0, 1] }] } } : State) |>.set R.TW_STATE_STATE 0 4 |>.set
  R.TW_STATE_PEER_STATE 0 2 |>.set R.TW_LINK_STATE_STATE 1 3, ⟨rfl, by decide, rfl, by decide, by decide⟩, by decide, by decide, by decide,
  by decide, by decide⟩,
  ⟨{ ring := 0, tag := 0 }, { ring := 0, index := 0, words := [0x28, 0, 0, 0, 1] },
  ({ hi := { descs := [{ ring := 0, index := 0, words := [0x28, 0, 0, 0, 1] }] } } : State), ⟨rfl, by decide, rfl, by decide, by decide⟩, by
  decide, by decide, by decide⟩,
  ⟨{ ring := 0, tag := 0 }, { ring := 0, index := 0, words := [0x28, 0, 0, 0, 2] },
  ({ hi := { descs := [{ ring := 0, index := 0, words := [0x28, 0, 0, 0, 2] }] } } : State) |>.set R.SYS_CELL_STATUS_STATE 0 0 |>.set
  R.TW_CFG_EN 0 1 |>.set R.TW_LINK_STATE_STATE 1 3, ⟨rfl, by decide, rfl, by decide, by decide⟩, by decide, by decide, by decide, by
  decide⟩,
  ⟨{ ring := 0, tag := 0 }, { ring := 0, index := 0, words := [0x28, 0, 0, 0, 2] },
  ({ hi := { descs := [{ ring := 0, index := 0, words := [0x28, 0, 0, 0, 2] }] } } : State), ⟨rfl, by decide, rfl, by decide, by decide⟩, by
  decide, by decide⟩,
  ⟨{ ring := 0, tag := 0 }, { ring := 0, index := 0, words := [0x28, 0, 0, 0, 3] },
  ({ hi := { descs := [{ ring := 0, index := 0, words := [0x28, 0, 0, 0, 3] }] } } : State) |>.set R.TW_STATE_STATE 0 5 |>.set
  R.TW_LINK_STATE_STATE 1 3, ⟨rfl, by decide, rfl, by decide, by decide⟩, by decide, by decide, by decide, by decide⟩,
  ⟨{ ring := 0, tag := 0 }, { ring := 0, index := 0, words := [0x28, 0, 0, 0, 3] },
  ({ hi := { descs := [{ ring := 0, index := 0, words := [0x28, 0, 0, 0, 3] }] } } : State), ⟨rfl, by decide, rfl, by decide, by decide⟩, by
  decide, by decide⟩⟩

theorem witness_TwinMessages :
    (∃ (s : State), s.leaseDue = true ∧ s.tw.handover = none) ∧
    (∃ (s : State), s.leaseDue = false) ∧
    (∃ (s : State) (h : Handover), s.twState = 4 ∧ s.grid.cyc.isSome = true ∧ s.tw.ackSent ≠ some s.cycle ∧ s.get R.TW_TIMING_LEASE_OFFSET +
    250 ≤ s.intoCycle ∧ s.tw.handover = some h ∧ h.cycle = s.cycle + 2) ∧
    (∃ (s : State), (s.twState ≠ 4 ∨ s.grid.cyc = none ∨ s.tw.ackSent = some s.cycle ∨ s.intoCycle < s.get R.TW_TIMING_LEASE_OFFSET + 250))
    ∧
    (∃ (s : State), s.bit R.TW_CFG_EN = true ∧ (∀ a, s.tw.statusSent = some a → a + 125000 ≤ s.tick)) ∧
    (∃ (s : State), (s.bit R.TW_CFG_EN = false ∨ (∃ a, s.tw.statusSent = some a ∧ s.tick < a + 125000))) ∧
    (∃ (p : Fin 4) (i : Nat) (s : State), s.echoSlot p.val = some i ∧ s.bit R.TW_CFG_EN = true ∧ s.bit R.CB_PORT_CFG_TOPOLOGY p.val = true ∧
    s.grid.cyc.isSome = true ∧ (s.slot i).launched ≠ some s.cycle ∧ s.get R.CB_SL_A_OFFSET i ≤ s.intoCycle ∧ s.slotDue i s.cycle = true ∧
    s.holdsLease = false) ∧
    (∃ (p : Fin 4) (s : State), (s.echoSlot p.val = none ∨ s.bit R.TW_CFG_EN = false ∨ s.bit R.CB_PORT_CFG_TOPOLOGY p.val = false ∨
    s.grid.cyc = none)) ∧
    (∃ (p : Fin 2) (s : State), s.bit R.TW_CFG_EN = true ∧ s.up (4 + p.val) = true) ∧
    (∃ (p : Fin 2) (s : State), (s.bit R.TW_CFG_EN = false ∨ s.up (4 + p.val) = false)) ∧
    (∃ (f : Frame) (s : State), s.twGood f 1 = false) ∧
    (∃ (f : Frame) (s : State), s.twGood f 2 = false) ∧
    (∃ (f : Frame) (s : State), s.twGood f 3 = false) ∧
    (∃ (f : Frame) (s : State), s.twGood f 4 = false) ∧
    (∃ (f : Frame) (s : State), s.twGood f 5 = false) ∧
    (∃ (f : Frame) (s : State), s.twGood f 6 = false) ∧
    (∃ (f : Frame) (s : State), s.twGood f 7 = false) ∧
    (∃ (f : Frame) (s : State), (s.twState ≠ 2 ∨ newerEpoch (beField f.payload 2 2) (s.get R.TW_EPOCH_EPOCH) = false) ∧ s.twGood f 2 = true
    ∧ s.twSecond f 2 = true) ∧
    (∃ (f : Frame) (s : State), (s.twState ≠ 2 ∨ newerEpoch (beField f.payload 2 2) (s.get R.TW_EPOCH_EPOCH) = false) ∧ s.twGood f 3 = true
    ∧ s.twSecond f 3 = true) ∧
    (∃ (f : Frame) (s : State), (s.twState ≠ 2 ∨ newerEpoch (beField f.payload 2 2) (s.get R.TW_EPOCH_EPOCH) = false) ∧ s.twGood f 4 = true
    ∧ s.twSecond f 4 = true) ∧
    (∃ (f : Frame) (s : State), (s.twState ≠ 2 ∨ newerEpoch (beField f.payload 2 2) (s.get R.TW_EPOCH_EPOCH) = false) ∧ s.twGood f 5 = true
    ∧ s.twSecond f 5 = true) ∧
    (∃ (f : Frame) (s : State), (s.twState ≠ 2 ∨ newerEpoch (beField f.payload 2 2) (s.get R.TW_EPOCH_EPOCH) = false) ∧ s.twGood f 6 = true
    ∧ s.twSecond f 6 = true) ∧
    (∃ (f : Frame) (s : State), (s.twState ≠ 2 ∨ newerEpoch (beField f.payload 2 2) (s.get R.TW_EPOCH_EPOCH) = false) ∧ s.twGood f 7 = true
    ∧ s.twSecond f 7 = true) ∧
    (∃ (f : Frame) (s : State), s.twGood f 1 = true ∧ s.twState = 1) ∧
    (∃ (f : Frame) (s : State), s.twGood f 1 = true ∧ s.twState = 4 ∧ s.get R.TW_EPOCH_EPOCH = beField f.payload 2 2 ∧ s.get
    R.TW_EPOCH_EPOCH ≠ 0 ∧ s.cycleOf (beField f.payload 4 4) = s.cycle ∧ (s.tw.leaseSeen = some (beField f.payload 4 4) ∨ beField f.payload
    14 2 = 0) ∧ s.tw.leaseSeen ≠ some (beField f.payload 4 4) ∧ hasBit (beField f.payload 1 1) 2 = false ∧ hasBit (beField f.payload 1 1) 1
    = true) ∧
    (∃ (f : Frame) (s : State) (h : Handover), twFirst s f 2 = true ∧ s.twState = 2 ∧ newerEpoch (beField f.payload 2 2) (s.get
    R.TW_EPOCH_EPOCH) = false ∧ s.tw.ackSeen ≠ some (beField f.payload 4 4) ∧ beField f.payload 52 1 = 0 ∧ s.tw.handover = some h ∧ hasBit
    (beField f.payload 1 1) 3 = true ∧ h.cycle = s.cycle + 2) ∧
    (∃ (f : Frame) (s : State), s.twState = 2 ∧ newerEpoch (beField f.payload 2 2) (s.get R.TW_EPOCH_EPOCH) = true ∧ s.twGood f 1 = true) ∧
    (∃ (f : Frame) (s : State), s.twState = 2 ∧ newerEpoch (beField f.payload 2 2) (s.get R.TW_EPOCH_EPOCH) = true ∧ s.twGood f 2 = true) ∧
    (∃ (f : Frame) (s : State), s.twState = 2 ∧ newerEpoch (beField f.payload 2 2) (s.get R.TW_EPOCH_EPOCH) = true ∧ s.twGood f 3 = true) ∧
    (∃ (f : Frame) (s : State), s.twState = 2 ∧ newerEpoch (beField f.payload 2 2) (s.get R.TW_EPOCH_EPOCH) = true ∧ s.twGood f 4 = true) ∧
    (∃ (f : Frame) (s : State), s.twState = 2 ∧ newerEpoch (beField f.payload 2 2) (s.get R.TW_EPOCH_EPOCH) = true ∧ s.twGood f 5 = true) ∧
    (∃ (f : Frame) (s : State), s.twState = 2 ∧ newerEpoch (beField f.payload 2 2) (s.get R.TW_EPOCH_EPOCH) = true ∧ s.twGood f 6 = true) ∧
    (∃ (f : Frame) (s : State), s.twState = 2 ∧ newerEpoch (beField f.payload 2 2) (s.get R.TW_EPOCH_EPOCH) = true ∧ s.twGood f 7 = true) ∧
    (∃ (f : Frame) (s : State), twFirst s f 3 = true ∧ s.twState = 1 ∧ s.bit R.TW_CFG_POSITION = false) ∧
    (∃ (f : Frame) (s : State), twFirst s f 3 = true ∧ s.twState = 1 ∧ s.bit R.TW_CFG_POSITION = true) ∧
    (∃ (f : Frame) (s : State), twFirst s f 4 = true ∧ s.twState = 4 ∧ beField f.payload 16 2 = s.get R.TW_EPOCH_EPOCH) ∧
    (∃ (f : Frame) (s : State), twFirst s f 7 = true ∧ s.twState ≠ 1 ∧ s.twState ≠ 2) ∧
    (∃ (f : Frame) (s : State), twFirst s f 6 = true ∧ s.twState ≠ 2 ∧ beField f.payload 16 1 = 1) ∧
    (∃ (f : Frame) (t1 : Nat) (s : State), twFirst s f 6 = true ∧ s.twState ≠ 2 ∧ beField f.payload 16 1 = 2 ∧ beField f.payload 17 1 =
    s.tw.syncDelay.length ∧ s.tw.syncSent[s.tw.syncDelay.length]? = some t1) ∧
    (∃ (f : Frame) (s : State), twFirst s f 5 = true ∧ s.twState = 3) :=
  ⟨⟨({ grid := { cyc := some 5 }, tw := { tokenCycle := some 5 }, tb := { tick := 1 } } : State) |>.set R.TW_CFG_EN 0 1 |>.set
  R.TW_STATE_STATE 0 2 |>.set R.TW_TIMING_LEASE_OFFSET 0 1, by decide, by decide⟩,
  ⟨State.reset, by decide⟩,
  ⟨({ grid := { cyc := some 5, running := true }, tw := { handover := some { epoch := 65535, cycle := 7, confirmed := true, giver := false, desc := none } }, tb := { tick := 251 } }
  : State) |>.set R.TW_STATE_STATE 0 4 |>.set R.TW_TIMING_LEASE_OFFSET 0 1,
  { epoch := 65535, cycle := 7, confirmed := true, giver := false, desc := none }, by decide, by decide, by decide, by decide, by decide, by
  decide⟩,
  ⟨State.reset, by decide⟩,
  ⟨State.reset |>.set R.TW_CFG_EN 0 1, by decide, by decide⟩,
  ⟨State.reset, by decide⟩,
  ⟨3, 8191, ({ grid := { cyc := some 5, running := true } } : State) |>.set R.TW_CFG_EN 0 1 |>.set R.CB_SL_A_DIR 8191 3 |>.set
  R.CB_SL_A_PORT 8191 3 |>.set R.CB_PORT_CFG_TOPOLOGY 3 1, by decide, by decide, by decide, by decide, by decide, by decide, by decide, by
  decide⟩,
  ⟨3, State.reset, by decide⟩,
  ⟨1, State.reset |>.set R.TW_CFG_EN 0 1 |>.set R.TW_LINK_STATE_STATE 1 3, by decide, by decide⟩,
  ⟨1, State.reset, by decide⟩,
  ⟨testTw [], State.reset, by decide⟩,
  ⟨testTw [], State.reset, by decide⟩,
  ⟨testTw [], State.reset, by decide⟩,
  ⟨testTw [], State.reset, by decide⟩,
  ⟨testTw [], State.reset, by decide⟩,
  ⟨testTw [], State.reset, by decide⟩,
  ⟨testTw [], State.reset, by decide⟩,
  ⟨testTw ([2] ++ List.replicate 15 0),
  { twinState 4 with tw := { rxLast := [(2, some ⟨5, (testTw ([2] ++ List.replicate 15 0)).payload, false⟩)] } }, by decide, by
  decide +kernel, by decide +kernel⟩,
  ⟨testTw ([3] ++ List.replicate 15 0),
  { twinState 4 with tw := { rxLast := [(3, some ⟨5, (testTw ([3] ++ List.replicate 15 0)).payload, false⟩)] } }, by decide, by
  decide +kernel, by decide +kernel⟩,
  ⟨testTw ([4] ++ List.replicate 15 0),
  { twinState 4 with tw := { rxLast := [(4, some ⟨5, (testTw ([4] ++ List.replicate 15 0)).payload, false⟩)] } }, by decide, by
  decide +kernel, by decide +kernel⟩,
  ⟨testTw ([5] ++ List.replicate 15 0),
  { twinState 4 with tw := { rxLast := [(5, some ⟨5, (testTw ([5] ++ List.replicate 15 0)).payload, false⟩)] } }, by decide, by
  decide +kernel, by decide +kernel⟩,
  ⟨testTw ([6] ++ List.replicate 15 0),
  { twinState 4 with tw := { rxLast := [(6, some ⟨5, (testTw ([6] ++ List.replicate 15 0)).payload, false⟩)] } }, by decide, by
  decide +kernel, by decide +kernel⟩,
  ⟨testTw ([7] ++ List.replicate 15 0),
  { twinState 4 with tw := { rxLast := [(7, some ⟨5, (testTw ([7] ++ List.replicate 15 0)).payload, false⟩)] } }, by decide, by
  decide +kernel, by decide +kernel⟩,
  ⟨testTw ([1] ++ List.replicate 15 0), twinState 1, by decide +kernel, by decide⟩,
  ⟨testTw ([1, 2, 0, 9, 0, 0, 0, 5] ++ List.replicate 15 0), { twinState 4 with grid := { cyc := some 5 } } |>.set R.TW_EPOCH_EPOCH 0 9, by
  decide +kernel, by decide, by decide, by decide, by decide, by decide, by decide, by decide, by decide⟩,
  ⟨testTw ([2, 8, 0, 9, 0, 0, 0, 5] ++ List.replicate 45 0),
  { twinState 2 with grid := { cyc := some 5 }, tw := { handover := some { epoch := 65535, cycle := 7, confirmed := false, giver := true, desc := none } } }
  |>.set R.TW_EPOCH_EPOCH 0 9, { epoch := 65535, cycle := 7, confirmed := false, giver := true, desc := none }, by decide +kernel, by
  decide, by decide, by decide, by decide, by decide, by decide, by decide⟩,
  ⟨testTw ([1, 0, 0, 1] ++ List.replicate 15 0), twinState 2, by decide, by decide, by decide +kernel⟩,
  ⟨testTw ([2, 0, 0, 1] ++ List.replicate 15 0), twinState 2, by decide, by decide, by decide +kernel⟩,
  ⟨testTw ([3, 0, 0, 1] ++ List.replicate 15 0), twinState 2, by decide, by decide, by decide +kernel⟩,
  ⟨testTw ([4, 0, 0, 1] ++ List.replicate 15 0), twinState 2, by decide, by decide, by decide +kernel⟩,
  ⟨testTw ([5, 0, 0, 1] ++ List.replicate 15 0), twinState 2, by decide, by decide, by decide +kernel⟩,
  ⟨testTw ([6, 0, 0, 1] ++ List.replicate 15 0), twinState 2, by decide, by decide, by decide +kernel⟩,
  ⟨testTw ([7, 0, 0, 1] ++ List.replicate 15 0), twinState 2, by decide, by decide, by decide +kernel⟩,
  ⟨testTw ([3, 0, 0, 1] ++ List.replicate 15 0), twinState 1, by decide +kernel, by decide, by decide⟩,
  ⟨testTw ([3, 0, 0, 1] ++ List.replicate 15 0), twinState 1 |>.set R.TW_CFG_POSITION 0 1, by decide +kernel, by decide, by decide⟩,
  ⟨testTw ([4, 0, 0, 1] ++ List.replicate 15 0), twinState 4, by decide +kernel, by decide, by decide⟩,
  ⟨testTw ([7, 0, 0, 1] ++ List.replicate 15 0), twinState 4, by decide +kernel, by decide, by decide⟩,
  ⟨testTw ([6, 0, 0, 1] ++ List.replicate 12 0 ++ [1, 0]), twinState 4, by decide +kernel, by decide, by decide⟩,
  ⟨testTw ([6, 0, 0, 1] ++ List.replicate 12 0 ++ [2, 0]), 7, { twinState 4 with tw := { syncSent := [7] } }, by decide +kernel, by decide,
  by decide, by decide, by decide⟩,
  ⟨testTw ([5, 0, 0, 1] ++ List.replicate 15 0), twinState 3, by decide +kernel, by decide⟩⟩

theorem witness_EventRecorder :
    (∃ (s : State), s.posted = []) ∧
    (∃ (r : EvRec) (l : List EvRec) (s : State), inputOrder s = r :: l ∧ s.ev.round = 0) ∧
    (∃ (r : EvRec) (l : List EvRec) (s : State), inputOrder s = r :: l ∧ s.ev.round ≠ 0) ∧
    (∃ (r : EvRec) (l : List EvRec) (s : State), inputOrder s = r :: l ∧ s.inputFits r = false ∧ r.sev ≠ .fatal ∧ r.code ≠ Ev.evLost) ∧
    (∃ (r : EvRec) (l : List EvRec) (s : State), inputOrder s = r :: l ∧ s.inputFits r = false ∧ r.sev = .fatal) ∧
    (∃ (r : EvRec) (l : List EvRec) (s : State), inputOrder s = r :: l ∧ r.serious = false) ∧
    (∃ (r : EvRec) (l : List EvRec) (s : State), inputOrder s = r :: l ∧ r.serious = true ∧ (s.ev.acks.any fun a => a.code == r.code &&
    a.inst == r.inst) = false ∧ s.ev.acks.length < 512) ∧
    (∃ (r : EvRec) (l : List EvRec) (s : State), inputOrder s = r :: l ∧ r.serious = true ∧ (s.ev.acks.any fun a => a.code == r.code &&
    a.inst == r.inst) = false ∧ 512 ≤ s.ev.acks.length) ∧
    (∃ (r : EvRec) (l : List EvRec) (s : State) (c : BbCommit), inputOrder s = r :: l ∧ s.inputFits r = true ∧ r.sev = .fatal ∧ s.bb.commit
    = some c) ∧
    (∃ (s : State), s.ev.input = []) ∧
    (∃ (r : EvRec) (l : List EvRec) (s : State), s.ev.input = r :: l ∧ s.frozenNow = true ∧ recBytes s.ev.hold + r.size ≤ 4096) ∧
    (∃ (r : EvRec) (l : List EvRec) (s : State), s.ev.input = r :: l ∧ s.frozenNow = false ∧ ramUsed s.ev.ram + r.size ≤ ramBytes ∧
    s.ev.nextSeq < 2 ^ 32) ∧
    (∃ (d : DescId) (e : Desc) (s : State), Ready s d 0x30 e ∧ e.bits 4 3 0 = 0 ∧ s.bit R.EV_STAT_HOST_FROZEN = false) ∧
    (∃ (d : DescId) (e : Desc) (s : State), Ready s d 0x30 e ∧ e.bits 4 3 0 = 0 ∧ s.bit R.EV_STAT_HOST_FROZEN = true) ∧
    (∃ (d : DescId) (e : Desc) (s : State), Ready s d 0x30 e ∧ e.bits 4 3 0 = 1 ∧ s.bit R.EV_STAT_HOST_FROZEN = true ∧ s.bit
    R.EV_STAT_DBG_FROZEN = true) ∧
    (∃ (d : DescId) (e : Desc) (s : State), Ready s d 0x30 e ∧ e.bits 4 3 0 = 1 ∧ s.bit R.EV_STAT_HOST_FROZEN = true ∧ s.bit
    R.EV_STAT_DBG_FROZEN = false) ∧
    (∃ (d : DescId) (e : Desc) (s : State), Ready s d 0x30 e ∧ e.bits 4 3 0 = 1 ∧ s.bit R.EV_STAT_HOST_FROZEN = false) ∧
    (∃ (s : State), s.bit R.EV_STAT_HOST_FROZEN = true ∧ s.ev.freezeAt + 125000000 * max 1 (s.get R.EV_CFG_FREEZE_MAX) ≤ s.tick) ∧
    (∃ (s : State), (s.bit R.EV_STAT_HOST_FROZEN = false ∨ s.tick < s.ev.freezeAt + 125000000 * max 1 (s.get R.EV_CFG_FREEZE_MAX))) ∧
    (∃ (hold : Bool) (s : State), hold = s.bit R.EV_STAT_DBG_FROZEN) ∧
    (∃ (hold : Bool) (s : State), hold ≠ s.bit R.EV_STAT_DBG_FROZEN ∧ hold = false ∧ s.bit R.EV_STAT_HOST_FROZEN = false) ∧
    (∃ (q : Word) (s : State), (s.ev.ram.find? fun r => decide (q.toNat ≤ r.seq)) = none) ∧
    (∃ (q : Word) (r : Stored) (s : State) (i : Nat), s.bit R.INJ_STAT_KEY_LOADED = false ∧ (s.ev.ram.find? fun r => decide (q.toNat ≤
    r.seq)) = some r ∧ r.seq < 2 ^ 32 ∧ s.found (.recorder r.seq) ≠ some true ∧ i < 64) ∧
    (∃ (q : Word) (r : Stored) (s : State), s.bit R.INJ_STAT_KEY_LOADED = false ∧ (s.ev.ram.find? fun r => decide (q.toNat ≤ r.seq)) = some
    r ∧ r.seq < 2 ^ 32 ∧ s.found (.recorder r.seq) = some true) ∧
    (∃ (d : DescId) (e : Desc) (s : State), Ready s d 0x30 e ∧ e.bits 4 3 0 = 2 ∧ hasBit (e.word 5) 31 = true) ∧
    (∃ (d : DescId) (e : Desc) (s : State), Ready s d 0x30 e ∧ e.bits 4 3 0 = 2 ∧ hasBit (e.word 5) 31 = false) ∧
    (∃ (d : DescId) (e : Desc) (s : State), Ready s d 0x30 e ∧ e.bits 4 3 0 = 3) ∧
    (∃ (d : DescId) (e : Desc) (s : State), Ready s d 0x30 e ∧ e.bits 4 3 0 = 4) ∧
    (∃ (d : DescId) (e : Desc) (s : State), Ready s d 0x30 e ∧ e.bits 4 3 0 = 5) ∧
    (∃ (s : State), s.ev.irqPending = true ∧ s.bit R.HI_VEC_SRC_EVENT_IE = true ∧ (∀ a, s.ev.lastIrq = some a → a + 125 * s.get
    R.EV_CFG_IRQ_GAP_US ≤ s.tick)) ∧
    (∃ (s : State), (s.ev.irqPending = false ∨ s.bit R.HI_VEC_SRC_EVENT_IE = false ∨ (∃ a, s.ev.lastIrq = some a ∧ s.tick < a + 125 * s.get
    R.EV_CFG_IRQ_GAP_US))) :=
  ⟨⟨State.reset, by decide⟩,
  ⟨testRec .info 0, [], ({ posted := [testRec .info 0], ev := { input := [testRec .info 1800] } } : State), by decide, by decide⟩,
  ⟨testRec .info 0, [], ({ posted := [testRec .info 0], ev := { round := 3 } } : State), by decide, by decide⟩,
  ⟨testRec .info 0, [], ({ posted := [testRec .info 0], ev := { input := [testRec .info 1800] } } : State), by decide, by decide +kernel, by
  decide, by decide⟩,
  ⟨testRec .fatal 0, [], ({ posted := [testRec .fatal 0], ev := { input := [testRec .info 2046] } } : State), by decide, by decide +kernel,
  by decide⟩,
  ⟨testRec .notice 0, [], ({ posted := [testRec .notice 0] } : State), by decide, by decide⟩,
  ⟨testRec .fault 0, [], ({ posted := [testRec .fault 0] } : State), by decide, by decide, by decide, by decide⟩,
  ⟨testRec .fault 0, [],
  ({ posted := [testRec .fault 0], ev := { acks := List.replicate 512 { code := 9, inst := 9, count := 1, tick := 0 } } } : State), by
  decide, by decide, by decide +kernel, by decide +kernel⟩,
  ⟨testRec .fatal 0, [],
  ({ posted := [testRec .fatal 0], bb := { commit := some { tick := 5, ns := 0, sec := 0, mask := 1, glob := false } } } : State),
  { tick := 5, ns := 0, sec := 0, mask := 1, glob := false }, by decide, by decide, by decide, by decide⟩,
  ⟨State.reset, by decide⟩,
  ⟨testRec .info 0, [], ({ ev := { input := [testRec .info 0] } } : State) |>.set R.EV_STAT_DBG_FROZEN 0 1, by decide, by decide, by
  decide⟩,
  ⟨testRec .info 0, [], ({ ev := { input := [testRec .info 0] } } : State), by decide, by decide, by decide, by decide⟩,
  ⟨{ ring := 0, tag := 0 }, { ring := 0, index := 0, words := [0x30, 0, 0, 0, 0] },
  ({ hi := { descs := [{ ring := 0, index := 0, words := [0x30, 0, 0, 0, 0] }] } } : State), ⟨rfl, by decide, rfl, by decide, by decide⟩, by
  decide, by decide⟩,
  ⟨{ ring := 0, tag := 0 }, { ring := 0, index := 0, words := [0x30, 0, 0, 0, 0] },
  ({ hi := { descs := [{ ring := 0, index := 0, words := [0x30, 0, 0, 0, 0] }] } } : State) |>.set R.EV_STAT_HOST_FROZEN 0 1, ⟨rfl, by
  decide, rfl, by decide, by decide⟩, by decide, by decide⟩,
  ⟨{ ring := 0, tag := 0 }, { ring := 0, index := 0, words := [0x30, 0, 0, 0, 1] },
  ({ hi := { descs := [{ ring := 0, index := 0, words := [0x30, 0, 0, 0, 1] }] } } : State) |>.set R.EV_STAT_HOST_FROZEN 0 1 |>.set
  R.EV_STAT_DBG_FROZEN 0 1, ⟨rfl, by decide, rfl, by decide, by decide⟩, by decide, by decide, by decide⟩,
  ⟨{ ring := 0, tag := 0 }, { ring := 0, index := 0, words := [0x30, 0, 0, 0, 1] },
  ({ hi := { descs := [{ ring := 0, index := 0, words := [0x30, 0, 0, 0, 1] }] } } : State) |>.set R.EV_STAT_HOST_FROZEN 0 1, ⟨rfl, by
  decide, rfl, by decide, by decide⟩, by decide, by decide, by decide⟩,
  ⟨{ ring := 0, tag := 0 }, { ring := 0, index := 0, words := [0x30, 0, 0, 0, 1] },
  ({ hi := { descs := [{ ring := 0, index := 0, words := [0x30, 0, 0, 0, 1] }] } } : State), ⟨rfl, by decide, rfl, by decide, by decide⟩, by
  decide, by decide⟩,
  ⟨({ ev := { freezeAt := 2 }, tb := { tick := 125000002 } } : State) |>.set R.EV_STAT_HOST_FROZEN 0 1 |>.set R.EV_CFG_FREEZE_MAX 0 1, by
  decide, by decide⟩,
  ⟨State.reset, by decide⟩,
  ⟨false, State.reset, by decide⟩,
  ⟨false, State.reset |>.set R.EV_STAT_DBG_FROZEN 0 1, by decide, by decide, by decide⟩,
  ⟨0, State.reset, by decide⟩,
  ⟨4, { seq := 4, evt := testRec .info 0 }, ({ ev := { ram := [{ seq := 4, evt := testRec .info 0 }] } } : State), 63, by decide, by decide,
  by decide, by decide, by decide⟩,
  ⟨4, { seq := 4, evt := testRec .info 0 }, ({ ev := { ram := [{ seq := 4, evt := testRec .info 0 }] }, flips := [⟨.recorder 4, true⟩] } :
  State), by decide, by decide, by decide, by decide⟩,
  ⟨{ ring := 0, tag := 0 }, { ring := 0, index := 0, words := [0x30, 0, 0, 0, 2, 0x80000000] },
  ({ hi := { descs := [{ ring := 0, index := 0, words := [0x30, 0, 0, 0, 2, 0x80000000] }] } } : State), ⟨rfl, by decide, rfl, by decide, by
  decide⟩, by decide, by decide⟩,
  ⟨{ ring := 0, tag := 0 }, { ring := 0, index := 0, words := [0x30, 0, 0, 0, 2] },
  ({ hi := { descs := [{ ring := 0, index := 0, words := [0x30, 0, 0, 0, 2] }] } } : State), ⟨rfl, by decide, rfl, by decide, by decide⟩, by
  decide, by decide⟩,
  ⟨{ ring := 0, tag := 0 }, { ring := 0, index := 0, words := [0x30, 0, 0, 0, 3] },
  ({ hi := { descs := [{ ring := 0, index := 0, words := [0x30, 0, 0, 0, 3] }] } } : State), ⟨rfl, by decide, rfl, by decide, by decide⟩, by
  decide⟩,
  ⟨{ ring := 0, tag := 0 }, { ring := 0, index := 0, words := [0x30, 0, 0, 0, 4] },
  ({ hi := { descs := [{ ring := 0, index := 0, words := [0x30, 0, 0, 0, 4] }] } } : State), ⟨rfl, by decide, rfl, by decide, by decide⟩, by
  decide⟩,
  ⟨{ ring := 0, tag := 0 }, { ring := 0, index := 0, words := [0x30, 0, 0, 0, 5] },
  ({ hi := { descs := [{ ring := 0, index := 0, words := [0x30, 0, 0, 0, 5] }] } } : State), ⟨rfl, by decide, rfl, by decide, by decide⟩, by
  decide⟩,
  ⟨({ ev := { irqPending := true } } : State) |>.set R.HI_VEC_SRC_EVENT_IE 0 1, by decide, by decide, by decide⟩,
  ⟨State.reset, by decide⟩⟩

theorem witness_OrangeryCommits :
    (∃ (s : State), s.bb.commit = none ∧ s.bit R.INJ_STAT_KEY_LOADED = false) ∧
    (∃ (c : BbCommit) (s : State), s.bb.commit = some c ∧ c.recs = [] ∧ s.earlyFatal c = [] ∧ s.bit R.INJ_STAT_KEY_LOADED = false ∧ s.tick <
    c.tick + 4000) ∧
    (∃ (c : BbCommit) (s : State), s.bb.commit = some c ∧ (c.recs ≠ [] ∨ s.earlyFatal c ≠ []) ∧ s.pw.resetReq = 0) ∧
    (∃ (c : BbCommit) (s : State), s.bb.commit = some c ∧ (c.recs ≠ [] ∨ s.earlyFatal c ≠ []) ∧ s.bit R.INJ_STAT_KEY_LOADED = false) ∧
    (∃ (c : BbCommit) (s : State), s.bb.commit = some c ∧ c.recs = [] ∧ s.earlyFatal c = [] ∧ s.bit R.INJ_STAT_KEY_LOADED = false ∧ c.tick +
    4000 ≤ s.tick ∧ s.pw.resetReq = 0) ∧
    (∃ (s : State), s.bit R.PW_SUPPLY_STAT_PFAIL = true ∧ s.bb.commit = none ∧ s.bb.snapDone = false ∧ s.pw.resetReq = 0) ∧
    (∃ (s : State), (s.bit R.PW_SUPPLY_STAT_PFAIL = false ∨ s.bb.commit ≠ none ∨ s.bb.snapDone = true)) :=
  ⟨⟨State.reset, by decide, by decide⟩,
  ⟨{ tick := 5, ns := 0, sec := 0, mask := 1, glob := false },
  ({ bb := { commit := some { tick := 5, ns := 0, sec := 0, mask := 1, glob := false } }, tb := { tick := 4004 } } : State), by decide, by
  decide, by decide, by decide, by decide⟩,
  ⟨{ tick := 5, ns := 0, sec := 0, mask := 1, glob := false, recs := [testRec .fatal 0] },
  ({ bb := { commit := some { tick := 5, ns := 0, sec := 0, mask := 1, glob := false, recs := [testRec .fatal 0] } } } : State), by decide,
  by decide, by decide⟩,
  ⟨{ tick := 5, ns := 0, sec := 0, mask := 1, glob := false, recs := [testRec .fatal 0] },
  ({ bb := { commit := some { tick := 5, ns := 0, sec := 0, mask := 1, glob := false, recs := [testRec .fatal 0] } } } : State), by decide,
  by decide, by decide⟩,
  ⟨{ tick := 5, ns := 0, sec := 0, mask := 1, glob := false },
  ({ bb := { commit := some { tick := 5, ns := 0, sec := 0, mask := 1, glob := false } }, tb := { tick := 4005 } } : State), by decide, by
  decide, by decide, by decide, by decide, by decide⟩,
  ⟨State.reset |>.set R.PW_SUPPLY_STAT_PFAIL 0 1, by decide, by decide, by decide, by decide⟩,
  ⟨State.reset, by decide⟩⟩

theorem witness_OrangeryImage :
    (∃ (s : State), s.bb.ptFrozen = true) ∧
    (∃ (s : State), s.bit R.INJ_STAT_KEY_LOADED = false ∧ s.flips = []) ∧
    (∃ (s : State), s.pw.responder = true) ∧
    (∃ (s : State), s.pw.responder = false) ∧
    (∃ (d : DescId) (e : Desc) (s : State), Ready s d 0x30 e ∧ e.bits 4 3 0 = 6 ∧ (s.bb.ptFrozen = true ∨ s.sealedSlots ≠ [])) ∧
    (∃ (d : DescId) (e : Desc) (s : State), Ready s d 0x30 e ∧ e.bits 4 3 0 = 6 ∧ s.bb.ptFrozen = false ∧ s.sealedSlots = []) ∧
    (∃ (d : DescId) (e : Desc) (s : State), Ready s d 0x30 e ∧ e.bits 4 3 0 = 7 ∧ s.maint = true ∧ s.locked = false) ∧
    (∃ (d : DescId) (e : Desc) (s : State), Ready s d 0x30 e ∧ e.bits 4 3 0 = 7 ∧ (s.maint = false ∨ s.locked = true)) :=
  ⟨⟨({ bb := { ptFrozen := true } } : State), by decide⟩,
  ⟨State.reset, by decide, by decide⟩,
  ⟨({ pw := { responder := true } } : State), by decide⟩,
  ⟨State.reset, by decide⟩,
  ⟨{ ring := 0, tag := 0 }, { ring := 0, index := 0, words := [0x30, 0, 0, 0, 6] },
  ({ bb := { ptFrozen := true }, hi := { descs := [{ ring := 0, index := 0, words := [0x30, 0, 0, 0, 6] }] } } : State), ⟨rfl, by decide,
  rfl, by decide, by decide⟩, by decide, by decide⟩,
  ⟨{ ring := 0, tag := 0 }, { ring := 0, index := 0, words := [0x30, 0, 0, 0, 6] },
  ({ hi := { descs := [{ ring := 0, index := 0, words := [0x30, 0, 0, 0, 6] }] } } : State), ⟨rfl, by decide, rfl, by decide, by decide⟩, by
  decide, by decide, by decide⟩,
  ⟨{ ring := 0, tag := 0 }, { ring := 0, index := 0, words := [0x30, 0, 0, 0, 7] },
  ({ hi := { descs := [{ ring := 0, index := 0, words := [0x30, 0, 0, 0, 7] }] } } : State) |>.set R.SYS_CELL_CTRL_MAINT 0 1, ⟨rfl, by
  decide, rfl, by decide, by decide⟩, by decide, by decide, by decide⟩,
  ⟨{ ring := 0, tag := 0 }, { ring := 0, index := 0, words := [0x30, 0, 0, 0, 7] },
  ({ hi := { descs := [{ ring := 0, index := 0, words := [0x30, 0, 0, 0, 7] }] } } : State), ⟨rfl, by decide, rfl, by decide, by decide⟩, by
  decide, by decide⟩⟩

theorem witness_Escalations :
    (∃ (s : State), s.escs = [] ∧ s.pw.resetReq = 0) ∧
    (∃ (e : Esc) (s : State) (g p : Nat), s.escs = [e] ∧ e.fatal = true ∧ s.pw.resetReq = 0 ∧ g < 8 ∧ s.pairOf g = some p ∧ hasBit
    e.mask.toNat g = true) ∧
    (∃ (e : Esc) (s : State) (p : Nat), s.escs = [e] ∧ e.fatal = true ∧ s.pw.resetReq = 0 ∧ e.glob = true ∧ p < 10) ∧
    (∃ (e : Esc) (s : State) (g : Nat), s.escs = [e] ∧ e.fatal = false ∧ e.glob = false ∧ s.notHolder = false ∧ s.standbyHealthy = false ∧
    (e.react = .ss1 ∨ e.react = .ss2) ∧ s.pw.resetReq = 0 ∧ g < 8 ∧ hasBit e.mask.toNat g = true ∧ s.groupMoves g = true) ∧
    (∃ (e : Esc) (s : State) (g : Nat), s.escs = [e] ∧ e.fatal = false ∧ e.glob = false ∧ s.notHolder = false ∧ s.standbyHealthy = false ∧
    (e.react = .ss1 ∨ e.react = .ss2) ∧ s.pw.resetReq = 0 ∧ g < 8 ∧ hasBit e.mask.toNat g = true ∧ s.groupMoves g = false) ∧
    (∃ (e : Esc) (s : State) (g : Nat), s.escs = [e] ∧ e.fatal = false ∧ e.glob = false ∧ s.notHolder = false ∧ s.standbyHealthy = false ∧
    (e.react = .ss1 ∨ e.react = .ss2) ∧ s.pw.resetReq = 0 ∧ g < 8 ∧ hasBit e.mask.toNat g = false) ∧
    (∃ (e : Esc) (s : State) (g p : Nat), s.escs = [e] ∧ e.fatal = false ∧ e.glob = false ∧ s.notHolder = false ∧ s.standbyHealthy = false ∧
    e.react = .sto ∧ s.pw.resetReq = 0 ∧ g < 8 ∧ s.pairOf g = some p ∧ hasBit e.mask.toNat g = true) ∧
    (∃ (e : Esc) (s : State), s.escs = [e] ∧ e.fatal = false ∧ e.glob = false ∧ s.notHolder = true ∧ s.twState ≠ 4 ∧ s.pw.resetReq = 0 ∧
    e.react = .ss1) ∧
    (∃ (e : Esc) (s : State), s.escs = [e] ∧ e.fatal = false ∧ e.glob = false ∧ s.notHolder = true ∧ s.twState ≠ 4 ∧ s.pw.resetReq = 0 ∧
    e.react = .none) ∧
    (∃ (e : Esc) (s : State), s.escs = [e] ∧ e.fatal = false ∧ e.glob = false ∧ s.twState = 4 ∧ s.bit R.TW_CFG_EN = true ∧ ownBlock e.code =
    true ∧ s.pw.resetReq = 0) ∧
    (∃ (e : Esc) (s : State), s.escs = [e] ∧ e.fatal = false ∧ e.glob = false ∧ s.standbyHealthy = true ∧ s.tw.released = none ∧ e.react =
    .pace ∧ s.pw.resetReq = 0) ∧
    (∃ (d : DescId) (e : Desc) (s : State), Ready s d 0x31 e ∧ e.bits 4 3 0 = 0 ∧ s.bit R.INJ_STAT_LOCKED = true) ∧
    (∃ (d : DescId) (e : Desc) (s : State), Ready s d 0x31 e ∧ e.bits 4 3 0 = 0 ∧ s.bit R.INJ_STAT_LOCKED = false ∧ (s.pw.fuses.any fun f =>
    f.injKey == Config.sha256 ([8, 9, 10, 11].flatMap fun i => wordBytes (e.words.getD i 0))) = true) ∧
    (∃ (d : DescId) (e : Desc) (s : State), Ready s d 0x31 e ∧ e.bits 4 3 0 = 0 ∧ s.bit R.INJ_STAT_LOCKED = false ∧ (s.pw.fuses.any fun f =>
    f.injKey == Config.sha256 ([8, 9, 10, 11].flatMap fun i => wordBytes (e.words.getD i 0))) = false) ∧
    (∃ (d : DescId) (e : Desc) (s : State), Ready s d 0x31 e ∧ s.maint = false ∧ e.bits 4 3 0 = 1) ∧
    (∃ (d : DescId) (e : Desc) (s : State), Ready s d 0x31 e ∧ s.maint = false ∧ e.bits 4 3 0 = 2) ∧
    (∃ (d : DescId) (e : Desc) (s : State), Ready s d 0x31 e ∧ s.maint = false ∧ e.bits 4 3 0 = 3) ∧
    (∃ (d : DescId) (e : Desc) (s : State), Ready s d 0x31 e ∧ s.maint = false ∧ e.bits 4 3 0 = 4) ∧
    (∃ (d : DescId) (e : Desc) (s : State), Ready s d 0x31 e ∧ s.maint = true ∧ e.bits 4 3 0 = 1) ∧
    (∃ (d : DescId) (e : Desc) (s : State), Ready s d 0x31 e ∧ s.maint = true ∧ e.bits 4 3 0 = 2 ∧ (s.bit R.INJ_STAT_KEY_LOADED = false ∨
    injAllocated (e.bits 5 9 0) = false ∨ (∀ k, k < 16 → (s.injAt k).armed = true))) ∧
    (∃ (d : DescId) (e : Desc) (k : Nat) (s : State), Ready s d 0x31 e ∧ s.maint = true ∧ e.bits 4 3 0 = 2 ∧ s.bit R.INJ_STAT_KEY_LOADED =
    true ∧ injAllocated (e.bits 5 9 0) = true ∧ k < 16 ∧ (s.injAt k).armed = false ∧ (∀ j, j < k → (s.injAt j).armed = true)) ∧
    (∃ (d : DescId) (e : Desc) (s : State) (k : Nat), Ready s d 0x31 e ∧ s.maint = true ∧ e.bits 4 3 0 = 3 ∧ k < 16) ∧
    (∃ (d : DescId) (e : Desc) (s : State), Ready s d 0x31 e ∧ s.maint = true ∧ e.bits 4 3 0 = 3 ∧ (∀ k, k < 16 → (s.injAt k).armed = true →
    (s.injAt k).index ≠ e.bits 5 9 0)) ∧
    (∃ (d : DescId) (e : Desc) (s : State) (k : Nat), Ready s d 0x31 e ∧ s.maint = true ∧ e.bits 4 3 0 = 4 ∧ k < 16) :=
  ⟨⟨State.reset, by decide, by decide⟩,
  ⟨testEsc true false .sto 5, { armState 2 with escs := [testEsc true false .sto 5] }, 7, 7, by decide, by decide, by decide, by decide, by
  decide, by decide⟩,
  ⟨testEsc true true .sto 5, ({ escs := [testEsc true true .sto 5] } : State), 9, by decide, by decide, by decide, by decide, by decide⟩,
  ⟨testEsc false false .ss2 5, { armState 2 with escs := [testEsc false false .ss2 5] }, 7, by decide, by decide, by decide, by decide, by
  decide, by decide, by decide, by decide, by decide, by decide⟩,
  ⟨testEsc false false .ss2 5, { armState 1 with escs := [testEsc false false .ss2 5] }, 7, by decide, by decide, by decide, by decide, by
  decide, by decide, by decide, by decide, by decide, by decide⟩,
  ⟨testEsc false false .ss2 5, { armState 2 with escs := [testEsc false false .ss2 5] }, 6, by decide, by decide, by decide, by decide, by
  decide, by decide, by decide, by decide, by decide⟩,
  ⟨testEsc false false .sto 5, { armState 2 with escs := [testEsc false false .sto 5] }, 7, 7, by decide, by decide, by decide, by decide,
  by decide, by decide, by decide, by decide, by decide, by decide⟩,
  ⟨testEsc false false .ss1 5, ({ escs := [testEsc false false .ss1 5] } : State) |>.set R.TW_CFG_EN 0 1 |>.set R.TW_STATE_STATE 0 3, by
  decide, by decide, by decide, by decide, by decide, by decide, by decide⟩,
  ⟨testEsc false false .none 5, ({ escs := [testEsc false false .none 5] } : State) |>.set R.TW_CFG_EN 0 1 |>.set R.TW_STATE_STATE 0 3, by
  decide, by decide, by decide, by decide, by decide, by decide, by decide⟩,
  ⟨testEsc false false .ss1 0xD000, ({ escs := [testEsc false false .ss1 0xD000] } : State) |>.set R.TW_STATE_STATE 0 4 |>.set R.TW_CFG_EN 0
  1, by decide, by decide, by decide, by decide, by decide, by decide, by decide⟩,
  ⟨testEsc false false .pace 5, ({ escs := [testEsc false false .pace 5] } : State) |>.set R.TW_CFG_EN 0 1 |>.set R.TW_STATE_STATE 0 2
  |>.set R.TW_STATE_PEER_STATE 0 4, by decide, by decide, by decide, by decide, by decide, by decide, by decide⟩,
  ⟨{ ring := 0, tag := 0 }, { ring := 0, index := 0, words := [0x31, 0, 0, 0, 0] },
  ({ hi := { descs := [{ ring := 0, index := 0, words := [0x31, 0, 0, 0, 0] }] } } : State) |>.set R.INJ_STAT_LOCKED 0 1, ⟨rfl, by decide,
  rfl, by decide, by decide⟩, by decide, by decide⟩,
  ⟨{ ring := 0, tag := 0 }, { ring := 0, index := 0, words := [0x31, 0, 0, 0, 0] },
  ({ pw := { fuses := some { ok := true, vendor := 0, stepping := 0, mac := 0, bootKey := 0, injKey := Config.sha256 ([8, 9, 10, 11].flatMap fun i => wordBytes ([0x31].getD i 0)), sundial := [] } }, hi := { descs := [{ ring := 0, index := 0, words := [0x31, 0, 0, 0, 0] }] } }
  : State), ⟨rfl, by decide, rfl, by decide, by decide⟩, by decide, by decide, by simp⟩,
  ⟨{ ring := 0, tag := 0 }, { ring := 0, index := 0, words := [0x31, 0, 0, 0, 0] },
  ({ hi := { descs := [{ ring := 0, index := 0, words := [0x31, 0, 0, 0, 0] }] } } : State), ⟨rfl, by decide, rfl, by decide, by decide⟩, by
  decide, by decide, by decide⟩,
  ⟨{ ring := 0, tag := 0 }, { ring := 0, index := 0, words := [0x31, 0, 0, 0, 1] },
  ({ hi := { descs := [{ ring := 0, index := 0, words := [0x31, 0, 0, 0, 1] }] } } : State), ⟨rfl, by decide, rfl, by decide, by decide⟩, by
  decide, by decide⟩,
  ⟨{ ring := 0, tag := 0 }, { ring := 0, index := 0, words := [0x31, 0, 0, 0, 2] },
  ({ hi := { descs := [{ ring := 0, index := 0, words := [0x31, 0, 0, 0, 2] }] } } : State), ⟨rfl, by decide, rfl, by decide, by decide⟩, by
  decide, by decide⟩,
  ⟨{ ring := 0, tag := 0 }, { ring := 0, index := 0, words := [0x31, 0, 0, 0, 3] },
  ({ hi := { descs := [{ ring := 0, index := 0, words := [0x31, 0, 0, 0, 3] }] } } : State), ⟨rfl, by decide, rfl, by decide, by decide⟩, by
  decide, by decide⟩,
  ⟨{ ring := 0, tag := 0 }, { ring := 0, index := 0, words := [0x31, 0, 0, 0, 4] },
  ({ hi := { descs := [{ ring := 0, index := 0, words := [0x31, 0, 0, 0, 4] }] } } : State), ⟨rfl, by decide, rfl, by decide, by decide⟩, by
  decide, by decide⟩,
  ⟨{ ring := 0, tag := 0 }, { ring := 0, index := 0, words := [0x31, 0, 0, 0, 1] },
  ({ hi := { descs := [{ ring := 0, index := 0, words := [0x31, 0, 0, 0, 1] }] } } : State) |>.set R.SYS_CELL_CTRL_MAINT 0 1, ⟨rfl, by
  decide, rfl, by decide, by decide⟩, by decide, by decide⟩,
  ⟨{ ring := 0, tag := 0 }, { ring := 0, index := 0, words := [0x31, 0, 0, 0, 2] },
  ({ hi := { descs := [{ ring := 0, index := 0, words := [0x31, 0, 0, 0, 2] }] } } : State) |>.set R.SYS_CELL_CTRL_MAINT 0 1, ⟨rfl, by
  decide, rfl, by decide, by decide⟩, by decide, by decide, by decide⟩,
  ⟨{ ring := 0, tag := 0 }, { ring := 0, index := 0, words := [0x31, 0, 0, 0, 2, 5] }, 0,
  ({ hi := { descs := [{ ring := 0, index := 0, words := [0x31, 0, 0, 0, 2, 5] }] } } : State) |>.set R.SYS_CELL_CTRL_MAINT 0 1 |>.set
  R.INJ_STAT_KEY_LOADED 0 1, ⟨rfl, by decide, rfl, by decide, by decide⟩, by decide, by decide, by decide, by decide, by decide, by decide,
  by decide⟩,
  ⟨{ ring := 0, tag := 0 }, { ring := 0, index := 0, words := [0x31, 0, 0, 0, 3] },
  ({ hi := { descs := [{ ring := 0, index := 0, words := [0x31, 0, 0, 0, 3] }] } } : State) |>.set R.SYS_CELL_CTRL_MAINT 0 1, 15, ⟨rfl, by
  decide, rfl, by decide, by decide⟩, by decide, by decide, by decide⟩,
  ⟨{ ring := 0, tag := 0 }, { ring := 0, index := 0, words := [0x31, 0, 0, 0, 3] },
  ({ hi := { descs := [{ ring := 0, index := 0, words := [0x31, 0, 0, 0, 3] }] } } : State) |>.set R.SYS_CELL_CTRL_MAINT 0 1, ⟨rfl, by
  decide, rfl, by decide, by decide⟩, by decide, by decide, by decide⟩,
  ⟨{ ring := 0, tag := 0 }, { ring := 0, index := 0, words := [0x31, 0, 0, 0, 4] },
  ({ hi := { descs := [{ ring := 0, index := 0, words := [0x31, 0, 0, 0, 4] }] } } : State) |>.set R.SYS_CELL_CTRL_MAINT 0 1, 15, ⟨rfl, by
  decide, rfl, by decide, by decide⟩, by decide, by decide, by decide⟩⟩

theorem witness_ProtectedMemories :
    (∃ (m : ScrubMem) (s : State), s.bit R.INJ_STAT_KEY_LOADED = false ∧ wordFound s m = none) ∧
    (∃ (s : State) (n : Fin 64) (k : Fin 6) (a : Nat), s.bit R.INJ_STAT_KEY_LOADED = false ∧ wordFound s (.tiller n k a) = some false) ∧
    (∃ (s : State) (e : Fin 9) (a : Nat), s.bit R.INJ_STAT_KEY_LOADED = false ∧ wordFound s (.scratch e a) = some false) ∧
    (∃ (s : State) (i : Fin 32768), s.bit R.INJ_STAT_KEY_LOADED = false ∧ wordFound s (.tasks i) = some false) ∧
    (∃ (s : State) (w : Fin 4096), s.bit R.INJ_STAT_KEY_LOADED = false ∧ wordFound s (.meProg w) = some false) ∧
    (∃ (s : State) (w : Nat), s.bit R.INJ_STAT_KEY_LOADED = false ∧ wordFound s (.granary w) = some false) ∧
    (∃ (s : State) (q : Nat), s.bit R.INJ_STAT_KEY_LOADED = false ∧ wordFound s (.recorder q) = some false) ∧
    (∃ (s : State) (i : Nat), s.bit R.INJ_STAT_KEY_LOADED = false ∧ wordFound s (.orangery i) = some false) ∧
    (∃ (s : State) (a : Nat), s.bit R.INJ_STAT_KEY_LOADED = false ∧ wordFound s (.distance a) = some false) ∧
    (∃ (s : State) (a : Nat), s.bit R.INJ_STAT_KEY_LOADED = false ∧ wordFound s (.belvedere a) = some false) ∧
    (∃ (s : State) (n : Fin 64) (k : Fin 6) (a : Nat), s.bit R.INJ_STAT_KEY_LOADED = false ∧ wordFound s (.tiller n k a) = some true) ∧
    (∃ (s : State) (e : Fin 9) (a : Nat), s.bit R.INJ_STAT_KEY_LOADED = false ∧ wordFound s (.scratch e a) = some true) ∧
    (∃ (s : State) (i : Fin 32768), s.bit R.INJ_STAT_KEY_LOADED = false ∧ wordFound s (.tasks i) = some true) ∧
    (∃ (s : State) (w : Fin 4096), s.bit R.INJ_STAT_KEY_LOADED = false ∧ wordFound s (.meProg w) = some true) ∧
    (∃ (s : State) (w v : Nat), s.bit R.INJ_STAT_KEY_LOADED = false ∧ wordFound s (.granary w) = some true ∧ v ≠ w) ∧
    (∃ (s : State) (q : Nat), s.bit R.INJ_STAT_KEY_LOADED = false ∧ wordFound s (.recorder q) = some true) ∧
    (∃ (s : State) (i : Nat), s.bit R.INJ_STAT_KEY_LOADED = false ∧ wordFound s (.orangery i) = some true) ∧
    (∃ (s : State) (a : Nat), s.bit R.INJ_STAT_KEY_LOADED = false ∧ wordFound s (.distance a) = some true) ∧
    (∃ (s : State) (a : Nat), s.bit R.INJ_STAT_KEY_LOADED = false ∧ wordFound s (.belvedere a) = some true) :=
  ⟨⟨.granary 5, State.reset, by decide, by decide⟩,
  ⟨({ tl := [(63, { flips := [(5, 127, false)] })] } : State), 63, 5, 127, by decide, by decide⟩,
  ⟨({ flips := [⟨.scratch 8 131071, false⟩] } : State), 8, 131071, by decide, by decide⟩,
  ⟨({ flips := [⟨.tasks 32767, false⟩] } : State), 32767, by decide, by decide⟩,
  ⟨({ flips := [⟨.meProg 4095, false⟩] } : State), 4095, by decide, by decide⟩,
  ⟨({ flips := [⟨.granary 262143, false⟩] } : State), 262143, by decide, by decide⟩,
  ⟨({ flips := [⟨.recorder 4, false⟩] } : State), 4, by decide, by decide⟩,
  ⟨({ flips := [⟨.orangery 63, false⟩] } : State), 63, by decide, by decide⟩,
  ⟨({ flips := [⟨.distance 7, false⟩] } : State), 7, by decide, by decide⟩,
  ⟨({ flips := [⟨.belvedere 7, false⟩] } : State), 7, by decide, by decide⟩,
  ⟨({ tl := [(63, { flips := [(5, 127, true)] })] } : State), 63, 5, 127, by decide, by decide⟩,
  ⟨({ flips := [⟨.scratch 8 131071, true⟩] } : State), 8, 131071, by decide, by decide⟩,
  ⟨({ flips := [⟨.tasks 32767, true⟩] } : State), 32767, by decide, by decide⟩,
  ⟨({ flips := [⟨.meProg 4095, true⟩] } : State), 4095, by decide, by decide⟩,
  ⟨({ flips := [⟨.granary 262143, true⟩] } : State), 262143, 262142, by decide, by decide, by decide⟩,
  ⟨({ flips := [⟨.recorder 4, true⟩] } : State), 4, by decide, by decide⟩,
  ⟨({ flips := [⟨.orangery 63, true⟩] } : State), 63, by decide, by decide⟩,
  ⟨({ flips := [⟨.distance 7, true⟩] } : State), 7, by decide, by decide⟩,
  ⟨({ flips := [⟨.belvedere 7, true⟩] } : State), 7, by decide, by decide⟩⟩

theorem witness_AnalogueConverter :
    (∃ (ch : Fin 16) (s : State), s.trigDue ch.val = false) ∧
    (∃ (ch : Fin 16) (s : State), s.trigDue ch.val = true ∧ s.get R.TB_TRG_CTRL_ACTION ch.val = 1 ∧ s.get R.AD_CFG_MODE = 2 ∧ s.get
    R.AD_CFG_COUNT ≠ 0 ∧ s.ad.pass = none ∧ s.ad.conv = none) ∧
    (∃ (ch : Fin 16) (s : State), s.trigDue ch.val = true ∧ s.get R.TB_TRG_CTRL_ACTION ch.val = 1 ∧ s.get R.AD_CFG_MODE = 2 ∧ s.get
    R.AD_CFG_COUNT ≠ 0 ∧ s.ad.pass ≠ none ∧ s.ad.latched = false) ∧
    (∃ (ch : Fin 16) (s : State), s.trigDue ch.val = true ∧ s.get R.TB_TRG_CTRL_ACTION ch.val = 1 ∧ s.get R.AD_CFG_MODE = 2 ∧ s.get
    R.AD_CFG_COUNT ≠ 0 ∧ s.ad.pass ≠ none ∧ s.ad.latched = true) ∧
    (∃ (s : State), (s.ad.conv = none ∨ (∃ c, s.ad.conv = some c ∧ s.tick < c.start + 125))) ∧
    (∃ (c : Conv) (s : State) (u : Nat), s.ad.conv = some c ∧ c.start + 125 ≤ s.tick ∧ s.bit R.INJ_STAT_KEY_LOADED = false ∧ c.entry < 16 ∧
    s.ad.urgReq = some u) ∧
    (∃ (c : Conv) (s : State), s.ad.conv = some c ∧ c.start + 125 ≤ s.tick ∧ s.bit R.INJ_STAT_KEY_LOADED = false ∧ c.entry < 16 ∧
    s.ad.urgReq = none ∧ c.urgent = false ∧ c.entry + 1 < s.get R.AD_CFG_COUNT) ∧
    (∃ (c : Conv) (s : State), s.ad.conv = some c ∧ c.start + 125 ≤ s.tick ∧ s.bit R.INJ_STAT_KEY_LOADED = false ∧ c.entry < 16 ∧
    s.ad.urgReq = none ∧ c.urgent = true ∧ s.ad.pass = none ∧ s.get R.AD_CFG_MODE = 0) ∧
    (∃ (e : Fin 16) (s : State), s.bit R.AD_SEQ_A_LIM_EN e.val = true ∧ s.get R.AD_SEQ_A_LIM_N e.val ≤ Tab.get (fun _ => 0) s.ad.outRun
    e.val ∧ s.bit R.AD_RES_STAT_OUT e.val = false ∧ s.get R.AD_SEQ_A_LIM_REACT e.val = 0) ∧
    (∃ (e : Fin 16) (s : State), s.bit R.AD_SEQ_A_LIM_EN e.val = true ∧ s.get R.AD_SEQ_A_LIM_N e.val ≤ Tab.get (fun _ => 0) s.ad.outRun
    e.val ∧ s.bit R.AD_RES_STAT_OUT e.val = false ∧ s.get R.AD_SEQ_A_LIM_REACT e.val = 1) ∧
    (∃ (e : Fin 16) (s : State), s.bit R.AD_SEQ_A_LIM_EN e.val = true ∧ s.get R.AD_SEQ_A_LIM_N e.val ≤ Tab.get (fun _ => 0) s.ad.outRun
    e.val ∧ s.bit R.AD_RES_STAT_OUT e.val = false ∧ s.get R.AD_SEQ_A_LIM_REACT e.val = 2) ∧
    (∃ (e : Fin 16) (s : State), (s.bit R.AD_SEQ_A_LIM_EN e.val = false ∨ Tab.get (fun _ => 0) s.ad.outRun e.val < s.get R.AD_SEQ_A_LIM_N
    e.val ∨ s.bit R.AD_RES_STAT_OUT e.val = true)) ∧
    (∃ (s : State), s.ad.urgReq ≠ none) ∧
    (∃ (s : State), s.ad.urgReq = none ∧ s.ad.conv = none) ∧
    (∃ (s : State) (c : Conv), s.ad.urgReq = none ∧ s.ad.conv = some c ∧ c.urgent = false ∧ s.tick - c.start ≤ 62) ∧
    (∃ (s : State) (c : Conv), s.ad.urgReq = none ∧ s.ad.conv = some c ∧ (c.urgent = true ∨ 62 < s.tick - c.start)) :=
  ⟨⟨15, State.reset, by decide⟩,
  ⟨15, State.reset |>.set R.TB_TRG_CTRL_ACTION 15 1 |>.set R.AD_CFG_MODE 0 2 |>.set R.TB_TRG_CTRL_ARM 15 1 |>.set R.AD_CFG_COUNT 0 1, by
  decide, by decide, by decide, by decide, by decide, by decide⟩,
  ⟨15, ({ ad := { pass := some 0 } } : State) |>.set R.TB_TRG_CTRL_ACTION 15 1 |>.set R.AD_CFG_MODE 0 2 |>.set R.TB_TRG_CTRL_ARM 15 1 |>.set
  R.AD_CFG_COUNT 0 1, by decide, by decide, by decide, by decide, by decide, by decide⟩,
  ⟨15, ({ ad := { pass := some 0, latched := true } } : State) |>.set R.TB_TRG_CTRL_ACTION 15 1 |>.set R.AD_CFG_MODE 0 2 |>.set
  R.TB_TRG_CTRL_ARM 15 1 |>.set R.AD_CFG_COUNT 0 1, by decide, by decide, by decide, by decide, by decide, by decide⟩,
  ⟨State.reset, by decide⟩,
  ⟨{ start := 5, entry := 15, urgent := false },
  ({ ad := { conv := some { start := 5, entry := 15, urgent := false }, urgReq := some 3 }, tb := { tick := 130 } } : State), 3, by decide,
  by decide, by decide, by decide, by decide⟩,
  ⟨{ start := 5, entry := 14, urgent := false },
  ({ ad := { conv := some { start := 5, entry := 14, urgent := false } }, tb := { tick := 130 } } : State) |>.set R.AD_CFG_COUNT 0 16, by
  decide, by decide, by decide, by decide, by decide, by decide, by decide⟩,
  ⟨{ start := 5, entry := 15, urgent := true },
  ({ ad := { conv := some { start := 5, entry := 15, urgent := true } }, tb := { tick := 130 } } : State) |>.set R.AD_CFG_MODE 0 0, by
  decide, by decide, by decide, by decide, by decide, by decide, by decide, by decide⟩,
  ⟨15, ({ ad := { outRun := [(15, 3)] } } : State) |>.set R.AD_SEQ_A_LIM_EN 15 1 |>.set R.AD_SEQ_A_LIM_REACT 15 0 |>.set R.AD_SEQ_A_LIM_N 15
  3, by decide, by decide, by decide, by decide⟩,
  ⟨15, ({ ad := { outRun := [(15, 3)] } } : State) |>.set R.AD_SEQ_A_LIM_EN 15 1 |>.set R.AD_SEQ_A_LIM_REACT 15 1 |>.set R.AD_SEQ_A_LIM_N 15
  3, by decide, by decide, by decide, by decide⟩,
  ⟨15, ({ ad := { outRun := [(15, 3)] } } : State) |>.set R.AD_SEQ_A_LIM_EN 15 1 |>.set R.AD_SEQ_A_LIM_REACT 15 2 |>.set R.AD_SEQ_A_LIM_N 15
  3, by decide, by decide, by decide, by decide⟩,
  ⟨15, State.reset, by decide⟩,
  ⟨({ ad := { urgReq := some 3 } } : State), by decide⟩,
  ⟨State.reset, by decide, by decide⟩,
  ⟨({ ad := { conv := some { start := 5, entry := 15, urgent := false } }, tb := { tick := 67 } } : State),
  { start := 5, entry := 15, urgent := false }, by decide, by decide, by decide, by decide⟩,
  ⟨({ ad := { conv := some { start := 5, entry := 15, urgent := false } }, tb := { tick := 68 } } : State),
  { start := 5, entry := 15, urgent := false }, by decide, by decide, by decide⟩⟩

theorem witness_SafetyInputs :
    (∃ (ch : Fin 12) (s : State), s.sioFiltered ch.val = false) ∧
    (∃ (ch : Fin 12) (level : Bool) (s : State), s.bit R.INJ_STAT_KEY_LOADED = false ∧ s.sioFiltered ch.val = true ∧ level = true ∧ hasBit
    (s.get R.AD_SIO_STAT_LEVEL) (2 * (ch.val / 2) + (1 - ch.val % 2)) = true ∧ s.sioDisc (ch.val / 2) = false) ∧
    (∃ (ch : Fin 12) (level : Bool) (s : State) (p : Nat), s.bit R.INJ_STAT_KEY_LOADED = false ∧ s.sioFiltered ch.val = true ∧ level = false
    ∧ ch.val / 2 = 0 ∧ s.sioDemand 0 = false ∧ s.get R.AD_SIO_CFG_ESTOP_CAT ≠ 2 ∧ p < 10) ∧
    (∃ (ch : Fin 12) (level : Bool) (s : State), s.bit R.INJ_STAT_KEY_LOADED = false ∧ s.sioFiltered ch.val = true ∧ level = false ∧ ch.val
    / 2 = 0 ∧ s.sioDemand 0 = false ∧ s.get R.AD_SIO_CFG_ESTOP_CAT = 2) ∧
    (∃ (ch : Fin 12) (level : Bool) (s : State), s.bit R.INJ_STAT_KEY_LOADED = false ∧ s.sioFiltered ch.val = true ∧ level = false ∧ ch.val
    / 2 = 1 ∧ s.sioDemand 1 = false ∧ s.bit R.AD_SIO_CFG_ENABLE_EN = true) ∧
    (∃ (i : Fin 6) (a : Nat) (s : State), s.bit R.INJ_STAT_KEY_LOADED = false ∧ Tab.get (fun _ => none) s.sio.diffAt i.val = some a ∧ a +
    125000 * s.get R.AD_SIO_CFG_DISC_MS ≤ s.tick ∧ s.sioDisc i.val = false) ∧
    (∃ (i : Fin 6) (s : State), s.bit R.INJ_STAT_KEY_LOADED = false ∧ (s.sioDisc i.val = true ∨ Tab.get (fun _ => none) s.sio.diffAt i.val =
    none ∨ (∃ (a : Nat), Tab.get (fun _ => none) s.sio.diffAt i.val = some a ∧ s.tick < a + 125000 * s.get R.AD_SIO_CFG_DISC_MS))) ∧
    (∃ (a : Nat) (s : State), s.sio.estopAt = some a ∧ a + 125000 * s.get R.AD_SIO_CFG_B_ESTOP_SS1_MS ≤ s.tick) ∧
    (∃ (s : State), (s.sio.estopAt = none ∨ (∃ (a : Nat), s.sio.estopAt = some a ∧ s.tick < a + 125000 * s.get
    R.AD_SIO_CFG_B_ESTOP_SS1_MS))) ∧
    (∃ (p : Fin 10) (s : State), s.bit R.INJ_STAT_KEY_LOADED = false ∧ s.fbQuiet p.val = true) ∧
    (∃ (p : Fin 10) (chB high : Bool) (s : State), s.bit R.INJ_STAT_KEY_LOADED = false ∧ s.fbQuiet p.val = false ∧ s.bit (if chB then
    R.AD_STO_STAT_DRIVE_B else R.AD_STO_STAT_DRIVE_A) p.val = high) ∧
    (∃ (p : Fin 10) (chB high : Bool) (s : State), s.bit R.INJ_STAT_KEY_LOADED = false ∧ s.fbQuiet p.val = false ∧ s.bit (if chB then
    R.AD_STO_STAT_DRIVE_B else R.AD_STO_STAT_DRIVE_A) p.val ≠ high ∧ high = false) ∧
    (∃ (p : Fin 10) (chB high : Bool) (s : State), s.bit R.INJ_STAT_KEY_LOADED = false ∧ s.fbQuiet p.val = false ∧ s.bit (if chB then
    R.AD_STO_STAT_DRIVE_B else R.AD_STO_STAT_DRIVE_A) p.val ≠ high ∧ high = true) ∧
    (∃ (p : Fin 10) (okA okB : Bool) (s : State), s.get R.AD_STO_TEST_TEST_US ≠ 0 ∧ s.bit R.AD_STO_STAT_ASSERTED p.val = false ∧ Tab.get
    (fun _ => 0) s.sio.testAt p.val + 125000000 * s.get R.AD_STO_TEST_TEST_S ≤ s.tick ∧ okA = true ∧ okB = true) ∧
    (∃ (p : Fin 10) (s : State), (s.get R.AD_STO_TEST_TEST_US = 0 ∨ s.bit R.AD_STO_STAT_ASSERTED p.val = true ∨ s.tick < Tab.get (fun _ =>
    0) s.sio.testAt p.val + 125000000 * s.get R.AD_STO_TEST_TEST_S)) ∧
    (∃ (s : State), (s.pairHeld 8 = true ∨ s.pairHeld 9 = true)) ∧
    (∃ (s : State), s.pairHeld 8 = false ∧ s.pairHeld 9 = false ∧ ((maskList 9 (s.get R.AD_STO_STAT_CAUSE 8 ||| s.get R.AD_STO_STAT_CAUSE
    9)).all fun i => (causeCodes i).all s.codeAcked) = true) ∧
    (∃ (s : State), s.enabled = true ∧ s.sio.missRun ≠ 0 ∧ s.get R.AD_SIO_CFG_B_WD_CYC ≤ s.sio.missRun) ∧
    (∃ (s : State), (s.enabled = false ∨ s.sio.missRun = 0 ∨ s.sio.missRun < s.get R.AD_SIO_CFG_B_WD_CYC)) ∧
    (∃ (p : Fin 10) (okA okB : Bool) (s : State), s.get R.AD_STO_TEST_TEST_US ≠ 0 ∧ s.bit R.AD_STO_STAT_ASSERTED p.val = false ∧ Tab.get
    (fun _ => 0) s.sio.testAt p.val + 125000000 * s.get R.AD_STO_TEST_TEST_S ≤ s.tick ∧ (okA = false ∨ okB = false)) :=
  ⟨⟨0, State.reset, by decide⟩,
  ⟨11, true, ({ tb := { tick := 2000000 } } : State) |>.set R.AD_SIO_STAT_LEVEL 0 1024, by decide, by decide, by decide, by decide, by
  decide⟩,
  ⟨1, false, ({ tb := { tick := 2000000 } } : State) |>.set R.AD_SIO_STAT_DEMAND 0 0, 9, by decide, by decide, by decide, by decide, by
  decide, by decide, by decide⟩,
  ⟨1, false, ({ tb := { tick := 2000000 } } : State) |>.set R.AD_SIO_CFG_ESTOP_CAT 0 2 |>.set R.AD_SIO_STAT_DEMAND 0 0, by decide, by
  decide, by decide, by decide, by decide, by decide⟩,
  ⟨3, false, ({ tb := { tick := 2000000 } } : State) |>.set R.AD_SIO_CFG_ENABLE_EN 0 1 |>.set R.AD_SIO_STAT_DEMAND 0 0, by decide, by
  decide, by decide, by decide, by decide, by decide⟩,
  ⟨5, 5, ({ sio := { diffAt := [(5, some 5)] }, tb := { tick := 125005 } } : State) |>.set R.AD_SIO_CFG_DISC_MS 0 1, by decide, by decide,
  by decide, by decide⟩,
  ⟨5, State.reset, by decide, by decide⟩,
  ⟨5, ({ sio := { estopAt := some 5 }, tb := { tick := 125005 } } : State) |>.set R.AD_SIO_CFG_B_ESTOP_SS1_MS 0 1, by decide, by decide⟩,
  ⟨State.reset, by decide⟩,
  ⟨9, State.reset, by decide, by decide⟩,
  ⟨9, true, false, ({ tb := { tick := 6251 } } : State), by decide, by decide, by decide⟩,
  ⟨9, true, false, ({ tb := { tick := 6251 } } : State) |>.set R.AD_STO_STAT_DRIVE_B 9 1, by decide, by decide, by decide, by decide⟩,
  ⟨9, true, true, ({ tb := { tick := 6251 } } : State), by decide, by decide, by decide, by decide⟩,
  ⟨9, true, true, ({ sio := { testAt := [(9, 5)] }, tb := { tick := 125000005 } } : State) |>.set R.AD_STO_STAT_ASSERTED 9 0 |>.set
  R.AD_STO_TEST_TEST_US 0 5 |>.set R.AD_STO_TEST_TEST_S 0 1, by decide, by decide, by decide, by decide, by decide⟩,
  ⟨9, State.reset, by decide⟩,
  ⟨({ sio := { fatalLatched := true, fatalGlob := true } } : State), by decide⟩,
  ⟨State.reset, by decide, by decide, by decide⟩,
  ⟨({ sio := { missRun := 2 } } : State) |>.set R.SYS_CELL_STATUS_STATE 0 2 |>.set R.AD_SIO_CFG_B_WD_CYC 0 2, by decide, by decide, by
  decide⟩,
  ⟨State.reset, by decide⟩,
  ⟨9, true, false, ({ sio := { testAt := [(9, 5)] }, tb := { tick := 125000005 } } : State) |>.set R.AD_STO_STAT_ASSERTED 9 0 |>.set
  R.AD_STO_TEST_TEST_US 0 5 |>.set R.AD_STO_TEST_TEST_S 0 1, by decide, by decide, by decide, by decide⟩⟩

theorem witness_ResetsAndStartUp :
    (∃ (c : Instr) (m : Nat) (s : State), ((c = Instr.pinReset ∧ m = 0x02) ∨ (c = Instr.softReset 0xC0DE#16 ∧ m = 0x10 ∧ (s.cell = 0 ∨
    s.sio.fatalLatched = true))) ∧ s.bb.commit = none ∧ (s.escs.any fun e => e.fatal) = false ∧ s.bit R.PW_SUPPLY_STAT_PFAIL = false) ∧
    (∃ (c : Instr) (m : Nat) (s : State), ((c = Instr.pinReset ∧ m = 0x02) ∨ (c = Instr.softReset 0xC0DE#16 ∧ m = 0x10 ∧ (s.cell = 0 ∨
    s.sio.fatalLatched = true))) ∧ (s.bb.commit ≠ none ∨ (s.escs.any fun e => e.fatal) = true ∨ (s.bit R.PW_SUPPLY_STAT_PFAIL = true ∧
    s.bb.snapDone = false))) ∧
    (∃ (key : BitVec 16) (s : State), (key ≠ 0xC0DE#16 ∨ (s.cell ≠ 0 ∧ s.sio.fatalLatched = false))) ∧
    (∃ (s : State), s.bit R.PW_SUPPLY_STAT_PFAIL = true) ∧
    (∃ (s : State), s.pw.phase = .held ∧ s.pw.tempHold = false ∧ s.pw.vddnv = true ∧ s.pw.nvOsc = true) ∧
    (∃ (s : State), (s.pw.phase ≠ .held ∨ s.pw.tempHold = true ∨ s.pw.vddnv = false ∨ s.pw.nvOsc = false)) ∧
    (∃ (f : Fuses) (s : State), s.pw.phase = .locking ∧ s.bit R.INJ_STAT_KEY_LOADED = false ∧ f.ok = true) ∧
    (∃ (f : Fuses) (s : State), s.pw.phase = .locking ∧ s.bit R.INJ_STAT_KEY_LOADED = false ∧ f.ok = false) ∧
    (∃ (s : State), s.pw.phase ≠ .locking) ∧
    (∃ (s : State), s.pw.phase = .clearing) ∧
    (∃ (s : State), s.pw.phase ≠ .clearing) ∧
    (∃ (s : State), s.bit R.INJ_STAT_KEY_LOADED = false ∧ (s.pw.phase = .booting ∨ (s.pw.phase = .running ∧ s.pw.mgmtUp = false))) ∧
    (∃ (s : State), s.pw.phase ≠ .booting ∧ (s.pw.phase ≠ .running ∨ s.pw.mgmtUp = true)) ∧
    (∃ (s : State), s.bb.commit ≠ none) :=
  ⟨⟨.softReset 0xC0DE#16, 0x10, State.reset, .inr ⟨rfl, rfl, by decide⟩, by decide, by decide, by decide⟩,
  ⟨.pinReset, 0x02, ({ bb := { commit := some { tick := 5, ns := 0, sec := 0, mask := 1, glob := false } } } : State), .inl ⟨rfl, rfl⟩, by
  decide⟩,
  ⟨0xC0DF#16, State.reset, by decide⟩,
  ⟨State.reset |>.set R.PW_SUPPLY_STAT_PFAIL 0 1, by decide⟩,
  ⟨State.reset, by decide, by decide, by decide, by decide⟩,
  ⟨({ pw := { tempHold := true } } : State), by decide⟩,
  ⟨{ ok := true, vendor := 0, stepping := 0, mac := 0, bootKey := 0, injKey := 0, sundial := [] }, ({ pw := { phase := .locking } } :
  State), by decide, by decide, by decide⟩,
  ⟨{ ok := false, vendor := 0, stepping := 0, mac := 0, bootKey := 0, injKey := 0, sundial := [] }, ({ pw := { phase := .locking } } :
  State), by decide, by decide, by decide⟩,
  ⟨State.reset, by decide⟩,
  ⟨({ pw := { phase := .clearing } } : State), by decide⟩,
  ⟨State.reset, by decide⟩,
  ⟨({ pw := { phase := .booting } } : State), by decide, by decide⟩,
  ⟨State.reset, by decide, by decide⟩,
  ⟨({ bb := { commit := some { tick := 5, ns := 0, sec := 0, mask := 1, glob := false } } } : State), by decide⟩⟩

theorem witness_PowerWatch :
    (∃ (s : State), s.sundialRuns = false) ∧
    (∃ (s : State), s.bit R.INJ_STAT_KEY_LOADED = false ∧ s.sundialRuns = true ∧ s.pw.phase = .window) ∧
    (∃ (s : State), s.bit R.INJ_STAT_KEY_LOADED = false ∧ s.sundialRuns = true ∧ s.pw.phase ≠ .window) ∧
    (∃ (pace : List Nat) (s : State) (r : Nat), s.bit R.INJ_STAT_KEY_LOADED = false ∧ s.sundialRuns = true ∧ r < 10 ∧ s.regionOn r = true ∧
    pace.getD r 0 % 65536 < 0x107B) ∧
    (∃ (arbiter a : Nat), a ≠ arbiter) ∧
    (∃ (i : Fin 9) (good : Bool) (s : State), s.good i.val = true ∧ good = false) ∧
    (∃ (i : Fin 9) (good : Bool) (s : State), (s.good i.val = false ∨ good = true)) ∧
    (∃ (pgood out : Bool) (s : State), s.bit R.INJ_STAT_KEY_LOADED = false ∧ pgood = true ∧ out = false) ∧
    (∃ (pgood out : Bool) (s : State), s.bit R.INJ_STAT_KEY_LOADED = false ∧ (pgood = false ∨ out = true) ∧ s.bit R.PW_SUPPLY_STAT_PFAIL =
    false) ∧
    (∃ (s : State), s.get R.PW_HOLDUP_CFG_VTH_MV ≠ 0 ∧ (∀ a, s.pw.lowAt = some a → a + 12500000 ≤ s.tick)) ∧
    (∃ (s : State), (s.get R.PW_HOLDUP_CFG_VTH_MV = 0 ∨ (∃ a, s.pw.lowAt = some a ∧ s.tick < a + 12500000))) ∧
    (∃ (s : State), s.bit R.INJ_STAT_KEY_LOADED = false ∧ s.bit R.BB_STAT_HOLDUP_OK = true ∧ s.enabled = true) ∧
    (∃ (s : State), s.bit R.INJ_STAT_KEY_LOADED = false ∧ (s.bit R.BB_STAT_HOLDUP_OK = false ∨ s.enabled = false)) ∧
    (∃ (i : Island) (s : State), (s.islandOn i = false ∨ s.islandWanted i = true)) ∧
    (∃ (i : Island) (s : State), s.islandOn i = false ∧ s.islandWanted i = true) ∧
    (∃ (i : Island) (s : State), (s.islandOn i = true ∨ s.islandWanted i = false)) ∧
    (∃ (i : Island) (s : State), s.bit R.INJ_STAT_KEY_LOADED = false ∧ s.islandOn i = true ∧ s.islandWanted i = false ∧ s.pdTimeout i = true
    ∧ (∀ n, i ≠ .tiller n)) ∧
    (∃ (i : Island) (s : State), s.bit R.INJ_STAT_KEY_LOADED = false ∧ (s.islandOn i = false ∨ s.islandWanted i = true ∨ s.pdTimeout i =
    false)) ∧
    (∃ (s : State), s.locked = true) ∧
    (∃ (r : Fin 3) (s : State), s.locked = false ∧ r.val = 0) ∧
    (∃ (r : Fin 3) (s : State), s.locked = false ∧ r.val = 1) ∧
    (∃ (s : State), s.bit R.INJ_STAT_KEY_LOADED = false ∧ (s.pw.mgmtUp = false ∨ s.tick < s.pw.mgmtAt + 125000 * s.get R.PW_MGMT_WD_MS)) ∧
    (∃ (s : State), s.bit R.INJ_STAT_KEY_LOADED = false ∧ s.pw.mgmtUp = true ∧ s.pw.mgmtAt + 125000 * s.get R.PW_MGMT_WD_MS ≤ s.tick) ∧
    (∃ (s : State), s.bit R.TB_REF_STATUS_LOCKED = false) ∧
    (∃ (s : State), s.bit R.TB_REF_STATUS_LOCKED = true) ∧
    (∃ (tj : Int) (s : State), s.bit R.INJ_STAT_KEY_LOADED = false ∧ 500 ≤ tj ∧ s.pw.fatalHot = false) ∧
    (∃ (tj : Int) (s : State), s.bit R.INJ_STAT_KEY_LOADED = false ∧ tj < 400) ∧
    (∃ (pace : List Nat) (s : State) (r : Nat), s.bit R.INJ_STAT_KEY_LOADED = false ∧ s.sundialRuns = true ∧ r < 10 ∧ s.regionOn r = true ∧
    pace.getD r 0 % 65536 < 0x1000 ∧ s.get R.PW_SUNDIAL_STAT_PACE_STATE ≠ 2) ∧
    (∃ (i : Island) (s : State) (n : Fin 64), s.islandOn i = true ∧ s.islandWanted i = false ∧ i = .tiller n) :=
  ⟨⟨State.reset, by decide⟩,
  ⟨({ pw := { phase := .window } } : State), by decide, by decide, by decide⟩,
  ⟨({ pw := { phase := .running } } : State), by decide, by decide, by decide⟩,
  ⟨List.replicate 10 0x107A, ({ pw := { phase := .running } } : State), 9, by decide, by decide, by decide, by decide, by decide⟩,
  ⟨2, 1, by decide⟩,
  ⟨8, false, State.reset |>.set R.PW_SUPPLY_STAT_GOOD_VDDA 0 1, by decide, by decide⟩,
  ⟨8, true, State.reset, by decide⟩,
  ⟨true, false, State.reset, by decide, by decide, by decide⟩,
  ⟨false, false, State.reset, by decide, by decide, by decide⟩,
  ⟨State.reset |>.set R.PW_HOLDUP_CFG_VTH_MV 0 5, by decide, by decide⟩,
  ⟨State.reset, by decide⟩,
  ⟨State.reset |>.set R.BB_STAT_HOLDUP_OK 0 1 |>.set R.SYS_CELL_STATUS_STATE 0 2, by decide, by decide, by decide⟩,
  ⟨State.reset, by decide, by decide⟩,
  ⟨.tiller 63, State.reset, by decide⟩,
  ⟨.tiller 63, State.reset |>.set R.TL_CFG_EN 63 1, by decide, by decide⟩,
  ⟨.tiller 63, State.reset, by decide⟩,
  ⟨.lane 5, ({ pw := { offAt := [(101, some 0)] }, tb := { tick := 10000000 } } : State) |>.set R.PW_ISLAND_C_LANE_ON 0 32, by decide, by
  decide, by decide, by decide, nofun⟩,
  ⟨.lane 5, ({ pw := { offAt := [(101, some 0)] } } : State) |>.set R.PW_ISLAND_C_LANE_ON 0 32, by decide, by decide⟩,
  ⟨State.reset |>.set R.SYS_CELL_STATUS_STATE 0 2, by decide⟩,
  ⟨0, State.reset, by decide, by decide⟩,
  ⟨1, State.reset, by decide, by decide⟩,
  ⟨State.reset, by decide, by decide⟩,
  ⟨({ pw := { mgmtUp := true }, tb := { tick := 125000 } } : State) |>.set R.PW_MGMT_WD_MS 0 1, by decide, by decide, by decide⟩,
  ⟨State.reset, by decide⟩,
  ⟨State.reset |>.set R.TB_REF_STATUS_LOCKED 0 1, by decide⟩,
  ⟨500, State.reset, by decide, by decide, by decide⟩,
  ⟨399, State.reset, by decide, by decide⟩,
  ⟨List.replicate 10 0xFFF, ({ pw := { phase := .running } } : State), 9, by decide, by decide, by decide, by decide, by decide, by decide⟩,
  ⟨.tiller 63, State.reset |>.set R.PW_ISLAND_B 0 2147483648, 63, by decide, by decide, by decide⟩⟩

theorem witness_FrameJoints :
    (∃ (tl : Fin 64) (lanes : BitVec 4) (cond : BitVec 3) (xa : BitVec 9) (yq : BitVec 7), Instr.wf (.mpy4 tl lanes cond xa yq) = true) ∧
    (∃ (tl : Fin 64) (lanes : BitVec 4) (cond : BitVec 3) (xa : BitVec 9) (yq : BitVec 7), Instr.wf (.mac4 tl lanes cond xa yq) = true) ∧
    (∃ (tl : Fin 64) (lanes : BitVec 4) (cond : BitVec 3) (xa : BitVec 9) (yq : BitVec 7), Instr.wf (.msu4 tl lanes cond xa yq) = true) ∧
    (∃ (tl : Fin 64) (lane : BitVec 2) (sub : Bool) (xa ya : BitVec 9), Instr.wf (.ftap tl lane sub xa ya) = true) ∧
    (∃ (tl : Fin 64) (lanes : BitVec 4) (cond : BitVec 3) (space : Bool) (addr : BitVec 9) (shl : BitVec 6) (quad : Bool), Instr.wf (.lda tl
    lanes cond space addr shl quad) = true) ∧
    (∃ (tl : Fin 64) (lanes : BitVec 4) (cond : BitVec 3) (space : Bool) (addr : BitVec 9) (shr : BitVec 6) (quad : Bool), Instr.wf (.st tl
    lanes cond space addr shr quad) = true) ∧
    (∃ (tl : Fin 64) (dst src : BitVec 2) (cond : BitVec 3), Instr.wf (.adda tl dst src cond) = true) ∧
    (∃ (tl : Fin 64) (dst src : BitVec 2) (cond : BitVec 3), Instr.wf (.suba tl dst src cond) = true) ∧
    (∃ (tl : Fin 64) (dst src : BitVec 2) (cond : BitVec 3), Instr.wf (.mova tl dst src cond) = true) ∧
    (∃ (tl : Fin 64) (lanes : BitVec 4) (ya : BitVec 9) (shl : BitVec 6), Instr.wf (.clamp tl lanes ya shl) = true) ∧
    (∃ (tl : Fin 64) (space : Bool) (addr : BitVec 9) (bit : BitVec 5) (inv : Bool), Instr.wf (.tst tl space addr bit inv) = true) ∧
    (∃ (tl : Fin 64) (lanes : BitVec 4), Instr.wf (.clr tl lanes) = true) :=
  ⟨⟨0, 15, 4, 511, 0, by decide⟩,
  ⟨0, 15, 4, 511, 0, by decide⟩,
  ⟨0, 15, 4, 511, 0, by decide⟩,
  ⟨0, 0, false, 510, 511, by decide⟩,
  ⟨0, 15, 4, false, 508, 40, true, by decide⟩,
  ⟨0, 8, 4, false, 511, 63, false, by decide⟩,
  ⟨0, 0, 0, 4, by decide⟩,
  ⟨0, 0, 0, 4, by decide⟩,
  ⟨0, 0, 0, 4, by decide⟩,
  ⟨0, 15, 510, 40, by decide⟩,
  ⟨0, false, 0, 0, false, by decide⟩,
  ⟨0, 15, by decide⟩⟩

end Sys2Proof
end

/-! PROOFS of the scope family. Soundness: every step keeps it, and reset has it. -/
namespace Sys2Proof.Machine

/-- A step idles on an empty queue, and otherwise runs the command at its front on the queue's rest. -/
theorem step_cases {s t : State} (h : step s = .next t) :
    t = s ∨ ∃ i rest, s.pending = i :: rest ∧ exec i { s with pending := rest } = .next t := by
  unfold step at h
  split at h
  next => cases h; exact .inl rfl
  next i rest hq => exact .inr ⟨i, rest, hq, h⟩

/-- Settles O3: every command keeps the machine sound by its footprint, and the queue is no part of what soundness speaks of. -/
theorem stepsKeepSound : Obligations.StepsKeepSound := by
  intro s t hs h
  rcases step_cases h with rfl | ⟨i, rest, -, hx⟩
  · exact hs
  · have front : Sound { s with pending := rest } := hs
    exact (exec_only hx).sound front

/-- The registers and the memories as reset leaves them are sound. -/
theorem sound_reset : Sound State.reset := ⟨soundRegs_reset, soundRegs_reset, rfl, rfl, rfl⟩

/-- Settles O4: the registers hold the values of their tables, and every other part is empty or at rest. -/
theorem resetState : Obligations.ResetState := by
  refine ⟨sound_reset, rfl, by decide, rfl, rfl, by decide, by decide, by decide, ?modes, ?compat, by decide, by decide, by decide,
    by decide, by decide, by decide, by decide, ?pairs, rfl, rfl, rfl, rfl, rfl, rfl⟩
  case modes => decide
  case compat => decide
  case pairs => decide

end Sys2Proof.Machine

/-! PROOFS of the scope family. Fields read behind footprints, and last records posted. -/
namespace Sys2Proof.Machine

/-! ### Reading a field behind a footprint -/

/-- A mask of register fields holds numbered fields only, and none of them shares a bit with `g`. -/
def clearOf (r : Nat) (g : Field) : Bool := farFrom r g && decide (r < 2 ^ 2176)

/-- A field that a footprint's mask is clear of reads as before. -/
theorem Only.get_of_clear {p r : Nat} {s t : State} {g : Field} {n : Nat} (h : Only p r s t) (hg : p.testBit 1 = false)
    (hr : clearOf r g = true) (hn : n < g.count) : t.get g n = s.get g n := by
  rw [clearOf, Bool.and_eq_true, decide_eq_true_eq] at hr
  exact h.get hg hr.1 hr.2 hn

/-- The record that a post adds comes last. -/
theorem State.post_last (s : State) (code : Nat) (sev : Sev) (i : Option Nat) (l : List Word) (e j : Bool) :
    ((s.post code sev i l e j).posted.getLast?.map fun r => r.code) = some code := by
  simp [State.post]

/-- Writing a field in one register of its table leaves it in the others. -/
theorem State.get_set_other (s : State) {f : Field} {n m : Nat} (v : Nat) (hf : f.ok = true) (hs : 0 < f.stride) (h : n ≠ m) :
    (s.set f n v).get f m = s.get f m := by
  refine Regs.get_set_of_apart _ _ _ _ _ _ hf (.inr (.inl fun e => h ?_))
  exact Nat.eq_of_mul_eq_mul_left hs (Nat.add_left_cancel e)

end Sys2Proof.Machine

/-! PROOFS of the scope family. Enabling and disabling the cell (R358 to R360). -/
namespace Sys2Proof.Machine

/-! ### The fields that show the cell's state -/

/-- The fields of CELL_CTRL and CELL_STATUS that enabling and disabling write. -/
def cellFields : List Field := [R.SYS_CELL_STATUS_STATE, R.SYS_CELL_CTRL_EN, R.SYS_CELL_STATUS_REASON, R.SYS_CELL_STATUS_LOCUS]

/-- Two states show the same cell: its state, EN, the reason and the locus. -/
def SameCell (s t : State) : Prop := ∀ g ∈ cellFields, t.get g = s.get g

theorem Only.sameCell {p r : Nat} {s t : State} (h : Only p r s t) (hg : p.testBit 1 = false)
    (hr : (cellFields.all (clearOf r)) = true) : SameCell s t := by
  intro g hm
  refine h.get_of_clear hg (List.all_eq_true.mp hr g hm) ?_
  simp only [cellFields, List.mem_cons, List.not_mem_nil, or_false] at hm
  rcases hm with rfl | rfl | rfl | rfl <;> decide

theorem SameCell.trans {s t u : State} (h : SameCell s t) (k : SameCell t u) : SameCell s u :=
  fun g hg => (k g hg).trans (h g hg)

theorem SameCell.cell {s t : State} (h : SameCell s t) : t.cell = s.cell := h _ (by decide)

theorem SameCell.en {s t : State} (h : SameCell s t) : t.bit R.SYS_CELL_CTRL_EN = s.bit R.SYS_CELL_CTRL_EN :=
  State.bit_congr (h _ (by decide))

theorem SameCell.reason {s t : State} (h : SameCell s t) : t.get R.SYS_CELL_STATUS_REASON = s.get R.SYS_CELL_STATUS_REASON :=
  h _ (by decide)

theorem SameCell.locus {s t : State} (h : SameCell s t) : t.get R.SYS_CELL_STATUS_LOCUS = s.get R.SYS_CELL_STATUS_LOCUS :=
  h _ (by decide)

/-! ### Enabling -/

theorem State.showTests_sameCell (s : State) : SameCell s s.showTests :=
  (State.showTests_only Sub.refl Sub.refl Only.refl).sameCell rfl (by decide +kernel)

theorem State.showTests_hi (s : State) : s.showTests.hi = s.hi :=
  (State.showTests_only Sub.refl Sub.refl Only.refl).hi rfl

theorem State.startCheck_cell (s : State) : s.startCheck.cell = 1 := by
  unfold State.startCheck
  rw [(State.showTests_sameCell _).cell]
  simp (disch := decide) only [State.cell, State.setBit, State.get_updHi, State.get_set_far, State.get_set]
  rfl

theorem State.startCheck_en (s : State) : s.startCheck.bit R.SYS_CELL_CTRL_EN = true := by
  unfold State.startCheck
  rw [(State.showTests_sameCell _).en]
  simp (disch := decide) only [State.bit, State.setBit, State.get_updHi, State.get_set_far, State.get_set]
  rfl

theorem State.startCheck_checkTick (s : State) : s.startCheck.hi.checkTick = s.tick := by
  unfold State.startCheck
  rw [State.showTests_hi]
  rfl

theorem State.checkOver_sameCell (s : State) (us : Nat) : SameCell s (s.checkOver us) :=
  (State.checkOver_only Sub.refl Sub.refl Only.refl).sameCell rfl (by decide +kernel)

theorem State.driveEnables_sameCell (s : State) : SameCell s s.driveEnables :=
  (State.driveEnables_only Sub.refl Sub.refl Only.refl).sameCell rfl (by decide +kernel)

theorem SameCell.post {s t : State} {code : Nat} {sev : Sev} {i : Option Nat} {l : List Word} {e j : Bool} (h : SameCell s t) :
    SameCell s (t.post code sev i l e j) := h

/-- What a failed check leaves of the cell (R359). -/
theorem State.checkFail_cell (s : State) (us reason locus : Nat) :
    (s.checkFail us reason locus).cell = 0 ∧ (s.checkFail us reason locus).bit R.SYS_CELL_CTRL_EN = false
      ∧ (s.checkFail us reason locus).get R.SYS_CELL_STATUS_REASON = reason % 256
      ∧ (s.checkFail us reason locus).get R.SYS_CELL_STATUS_LOCUS = locus % 65536 := by
  have h : ∀ x : State, SameCell x ((x.checkOver us).post Ev.sysCheckFailed .notice none [item reason, item locus]) := fun x =>
    (State.checkOver_sameCell x us).post
  unfold State.checkFail
  dsimp only
  rw [(h _).cell, (h _).en, (h _).reason, (h _).locus]
  simp (disch := decide) only [State.cell, State.bit, State.setBit, State.get_updHi, State.get_set_far, State.get_set]
  exact ⟨rfl, rfl, rfl, rfl⟩

/-- What a passed check shows of the cell (R359). -/
theorem State.showPass_cell (s : State) (us : Nat) :
    (s.showPass us).cell = 2 ∧ (s.showPass us).get R.SYS_CELL_STATUS_REASON = 0 ∧ (s.showPass us).get R.SYS_CELL_STATUS_LOCUS = 0 := by
  have h : ∀ x : State, SameCell x ((x.checkOver us).driveEnables.post Ev.sysEnabled .info) := fun x =>
    ((State.checkOver_sameCell x us).trans (State.driveEnables_sameCell _)).post
  unfold State.showPass
  dsimp only
  rw [(h _).cell, (h _).reason, (h _).locus]
  simp (disch := decide) only [State.cell, State.get_updHi, State.get_set_far, State.get_set]
  exact ⟨rfl, rfl, rfl⟩

/-- The grid is fixed at the end of the check, and no cycle has begun. -/
theorem State.fixEpoch_grid (s : State) : s.fixEpoch.grid.running = true ∧ s.fixEpoch.grid.cyc = none := ⟨rfl, rfl⟩

theorem State.checkPass_grid (s : State) (us : Nat) : (s.checkPass us).grid = s.loadUnits.fixEpoch.grid :=
  ((State.showPass_only Sub.refl Sub.refl Only.refl).grid rfl).trans ((State.startUnits_only Sub.refl Sub.refl Only.refl).grid rfl)

/-! ### Disabling -/

/-- Asking arm groups to stop writes the groups alone. -/
theorem State.wantStops_only (kind cause : Nat) (l : List Nat) (s : State) :
    Only 2048 0 s (l.foldl (fun s g => s.wantStop g kind cause) s) :=
  Only.foldl Only.refl fun _ _ h => State.wantStop_only Sub.refl Sub.refl h

/-- The cell that starts to disable shows DISABLING from this tick on (R360). -/
theorem State.startDisable_cell (s : State) : s.startDisable.cell = 3 ∧ s.startDisable.hi.disableTick = s.tick := by
  have stops := State.wantStops_only 2 (Config.disableCause s.free)
  unfold State.startDisable
  dsimp only
  constructor
  · rw [((stops _ _).sameCell rfl (by decide +kernel)).cell]
    show (((s.set R.SYS_CELL_STATUS_STATE 0 3).draw).driveEnables).cell = 3
    rw [(State.driveEnables_sameCell _).cell]
    simp (disch := decide) only [State.cell, State.get_draw, State.get_set]
    rfl
  · exact congrArg HostIf.disableTick ((stops _ _).hi rfl)

/-- Stopping the units and the grid leaves what the cell shows. -/
theorem State.gridOff_stopUnits_sameCell (s : State) : SameCell s s.stopUnits.gridOff :=
  SameCell.trans ((State.stopUnits_only Sub.refl Sub.refl Only.refl).sameCell rfl (by decide +kernel))
    ((State.gridOff_only Sub.refl Sub.refl Only.refl).sameCell rfl (by decide +kernel))

/-- A disabled cell: its state and EN, no cycle counted, and the record of it (R360). -/
theorem State.becomeDisabled_cell (s : State) :
    s.becomeDisabled.cell = 0 ∧ s.becomeDisabled.bit R.SYS_CELL_CTRL_EN = false
      ∧ s.becomeDisabled.grid.running = false ∧ s.becomeDisabled.grid.cyc = none
      ∧ (s.becomeDisabled.posted.getLast?.map fun e => e.code) = some Ev.sysDisabled := by
  unfold State.becomeDisabled
  dsimp only
  have h : ∀ x : State, SameCell x (x.stopUnits.gridOff.post Ev.sysDisabled .info) := fun x => (State.gridOff_stopUnits_sameCell x).post
  refine ⟨?_, ?_, rfl, rfl, State.post_last ..⟩
  · rw [(h _).cell]
    simp (disch := decide) only [State.cell, State.setBit, State.get_set_far, State.get_set]
    rfl
  · rw [(h _).en]
    exact State.bit_setBit _ _ _ _ (by decide) (by decide)

/-! ### Asserting every pair (R427, R428) -/

theorem State.driveTo_asserted (s : State) (p q : Nat) (level : Bool) (hq : q < 10) :
    (s.driveTo p level).bit R.AD_STO_STAT_ASSERTED q = s.bit R.AD_STO_STAT_ASSERTED q :=
  State.bit_congr ((State.driveTo_only Sub.refl Sub.refl Only.refl).get_of_clear rfl (by decide +kernel) hq)

theorem State.groupOff_asserted (s : State) (g q : Nat) (hq : q < 10) :
    (s.groupOff g).bit R.AD_STO_STAT_ASSERTED q = s.bit R.AD_STO_STAT_ASSERTED q :=
  State.bit_congr ((State.groupOff_only Sub.refl Sub.refl Only.refl).get_of_clear rfl (by decide +kernel) hq)

theorem State.driveEnables_asserted (s : State) (q : Nat) (hq : q < 10) :
    s.driveEnables.bit R.AD_STO_STAT_ASSERTED q = s.bit R.AD_STO_STAT_ASSERTED q :=
  State.bit_congr ((State.driveEnables_only Sub.refl Sub.refl Only.refl).get_of_clear rfl (by decide +kernel) hq)

/-- Driving a pair low sets its bit and leaves those of the other pairs. -/
theorem State.drivePair_asserted (s : State) (cause p q : Nat) (hp : p < 10) (hq : q < 10) :
    (s.drivePair cause p).bit R.AD_STO_STAT_ASSERTED q = (decide (q = p) || s.bit R.AD_STO_STAT_ASSERTED q) := by
  have set : (s.setBit R.AD_STO_STAT_ASSERTED p true).bit R.AD_STO_STAT_ASSERTED q = (decide (q = p) || s.bit R.AD_STO_STAT_ASSERTED q) := by
    by_cases h : q = p
    · subst h
      rw [State.bit_setBit _ _ _ _ hp (by decide), decide_eq_true rfl, Bool.true_or]
    · rw [decide_eq_false h, Bool.false_or]
      exact State.bit_congr (State.get_set_other _ _ (by decide) (by decide) (Ne.symm h))
  have kept : ∀ (x : State) (v : Nat), (x.set R.AD_STO_STAT_CAUSE p v).bit R.AD_STO_STAT_ASSERTED q = x.bit R.AD_STO_STAT_ASSERTED q :=
    fun x v => State.bit_congr (State.get_set_far _ _ _ _ _ _ (by decide) (by decide) hq)
  unfold State.drivePair
  dsimp only
  split
  · rw [State.groupOff_asserted _ _ _ hq, kept, State.driveTo_asserted _ _ _ _ hq, set]
  · rw [kept, State.driveTo_asserted _ _ _ _ hq, set]

/-- Driving pairs low one after the other asserts each of them and releases none. -/
theorem State.drivePairs_asserted (cause q : Nat) (hq : q < 10) : ∀ (l : List Nat) (s : State), (∀ p ∈ l, p < 10) →
    (l.foldl (State.drivePair · cause) s).bit R.AD_STO_STAT_ASSERTED q = (l.contains q || s.bit R.AD_STO_STAT_ASSERTED q)
  | [], _, _ => rfl
  | p :: l, s, h => by
    rw [List.foldl_cons, State.drivePairs_asserted cause q hq l _ fun x hx => h x (List.mem_cons_of_mem _ hx),
      State.drivePair_asserted s cause p q (h p (List.mem_cons_self ..)) hq, List.contains_cons]
    have same : (q == p) = decide (q = p) := rfl
    rw [same, Bool.or_left_comm, Bool.or_assoc]

/-- Asserting a pair sets its bit and clears none. -/
theorem State.assertPair_asserted (s : State) (cause p q : Nat) (hp : p < 10) (hq : q < 10)
    (h : q = p ∨ s.bit R.AD_STO_STAT_ASSERTED q = true) : (s.assertPair cause p).bit R.AD_STO_STAT_ASSERTED q = true := by
  have low : (s.drivePair cause p).bit R.AD_STO_STAT_ASSERTED q = true := by
    rw [State.drivePair_asserted s cause p q hp hq, Bool.or_eq_true, decide_eq_true_eq]
    exact h
  unfold State.assertPair
  dsimp only
  split
  · rw [State.driveEnables_asserted _ _ hq, State.drivePairs_asserted 7 q hq _ _ (by decide), low, Bool.or_true]
  · exact low

theorem State.assertPairs_asserted (cause q : Nat) (hq : q < 10) : ∀ (l : List Nat) (s : State), (∀ p ∈ l, p < 10) →
    (q ∈ l ∨ s.bit R.AD_STO_STAT_ASSERTED q = true) → (l.foldl (State.assertPair · cause) s).bit R.AD_STO_STAT_ASSERTED q = true
  | [], _, _, h => h.resolve_left (List.not_mem_nil)
  | p :: l, s, hl, h => by
    refine State.assertPairs_asserted cause q hq l _ (fun x hx => hl x (List.mem_cons_of_mem _ hx)) ?_
    have hp := hl p (List.mem_cons_self ..)
    rcases h with h | h
    · rcases List.mem_cons.mp h with h | h
      · exact .inr (State.assertPair_asserted s cause p q hp hq (.inl h))
      · exact .inl h
    · exact .inr (State.assertPair_asserted s cause p q hp hq (.inr h))

/-- Every pair is asserted, both global pairs included. -/
theorem State.assertAll_asserted (s : State) (cause q : Nat) (hq : q < 10) : (s.assertAll cause).bit R.AD_STO_STAT_ASSERTED q = true :=
  State.assertPairs_asserted cause q hq _ s (fun _ h => List.mem_range.mp h) (.inl (List.mem_range.mpr hq))

theorem State.becomeDisabled_asserted (s : State) (q : Nat) (hq : q < 10) :
    s.becomeDisabled.bit R.AD_STO_STAT_ASSERTED q = s.bit R.AD_STO_STAT_ASSERTED q :=
  State.bit_congr ((State.becomeDisabled_only Sub.refl Sub.refl Only.refl).get_of_clear rfl (by decide +kernel) hq)

/-- Settles O11, command by command: what each leaves of the cell's fields, of the grid and of the records. -/
theorem cellRuns : Obligations.CellRuns := by
  refine ⟨⟨fun s hr hc => ?start, fun us s r l hc hv => ?fails, fun us s hc hv => ?passes⟩,
    fun s hc => ?disable, fun s hc ho => ?complete, fun s hc ht => ?timeout⟩
  case start =>
    have e : s.cellOn = s.startCheck := by simp [State.cellOn, hr, hc]
    exact ⟨_, congrArg Host.Outcome.next e, s.startCheck_cell, s.startCheck_en, s.startCheck_checkTick⟩
  case fails =>
    have e : s.checkEnd us = s.checkFail us r l := by simp [State.checkEnd, hc, hv]
    obtain ⟨hcell, hen, hreason, hlocus⟩ := s.checkFail_cell us r l
    exact ⟨_, congrArg Host.Outcome.next e, hcell, hen, hreason, hlocus, State.post_last ..⟩
  case passes =>
    have e : s.checkEnd us = s.checkPass us := by simp [State.checkEnd, hc, hv]
    obtain ⟨hcell, hreason, hlocus⟩ := s.loadUnits.fixEpoch.startUnits.showPass_cell us
    obtain ⟨hrun, hcyc⟩ := s.loadUnits.fixEpoch_grid
    have hg := s.checkPass_grid us
    exact ⟨_, congrArg Host.Outcome.next e, hcell, hreason, hlocus, hg ▸ hrun, hg ▸ hcyc, State.post_last ..⟩
  case disable =>
    have e : s.cellOff = s.startDisable := by simp [State.cellOff, hc]
    exact ⟨_, congrArg Host.Outcome.next e, s.startDisable_cell⟩
  case complete =>
    have e : s.disableDone = s.becomeDisabled := by simp [State.disableDone, hc, ho]
    exact ⟨_, congrArg Host.Outcome.next e, s.becomeDisabled_cell⟩
  case timeout =>
    have e : s.disableExpiry = (s.assertAll 5).becomeDisabled := by simp [State.disableExpiry, hc, ht]
    obtain ⟨hcell, hen, hrun, -, -⟩ := (s.assertAll 5).becomeDisabled_cell
    exact ⟨_, congrArg Host.Outcome.next e, hcell, hen, hrun, fun p hp =>
      ((s.assertAll 5).becomeDisabled_asserted p hp).trans (s.assertAll_asserted 5 p hp)⟩

end Sys2Proof.Machine

/-! PROOFS of the scope family. Reads of BAR0 (R6 to R12, R71). -/
namespace Sys2Proof.Machine

/-! ### What a read shows -/

/-- One field of the word that a read returns, put over the word so far. -/
def shownField (live frozen old w : Word) (f : Field) : Word :=
  if f.acc = .wo then withBits w f.hi f.lo 0
  else if f.pub then withBits w f.hi f.lo (bitsOf frozen f.hi f.lo)
  else if f.acc = .rc then withBits w f.hi f.lo (rcShown f live old)
  else w

theorem readFields_eq (live frozen old : Word) (fs : List Field) : readFields live frozen old fs = fs.foldl (shownField live frozen old) live := rfl

theorem shownField_outside (live frozen old w : Word) {f : Field} {j : Nat} (h : f.lo ≤ f.hi) (hj : j < f.lo ∨ f.hi < j) :
    (shownField live frozen old w f).getLsbD j = w.getLsbD j := by
  unfold shownField
  split
  · exact withBits_outside _ _ _ _ _ h hj
  split
  · exact withBits_outside _ _ _ _ _ h hj
  split
  · exact withBits_outside _ _ _ _ _ h hj
  · rfl

/-- A read's word keeps a bit that lies in no field of the register. -/
theorem shownFields_outside (live frozen old : Word) {j : Nat} : ∀ (fs : List Field) (w : Word),
    (∀ f ∈ fs, f.lo ≤ f.hi ∧ (j < f.lo ∨ f.hi < j)) → (fs.foldl (shownField live frozen old) w).getLsbD j = w.getLsbD j
  | [], _, _ => rfl
  | f :: fs, w, h => by
    obtain ⟨hle, hout⟩ := h f (List.mem_cons_self ..)
    rw [List.foldl_cons, shownFields_outside live frozen old fs _ fun g hg => h g (List.mem_cons_of_mem _ hg)]
    exact shownField_outside _ _ _ _ hle hout

/-- A read of a register of sound registers shows 0 in its reserved bits (R11). -/
theorem State.peek_reserved {s : State} (hs : Sound s) {off j : Nat} (hm : ¬ (0x108000 ≤ off ∧ off < 0x108400)) (h1 : off ≠ 0x109000)
    (h2 : off ≠ 0x109004) (hj : reservedBit (blkOf (s.place off)) (s.place off) j = true) : (s.peek off).getLsbD j = false := by
  unfold State.peek
  rw [if_neg hm, if_neg h1, if_neg h2]
  dsimp only
  rw [readFields_eq, shownFields_outside]
  · exact hs.1.2 _ _ _ hj
  · intro f hf
    obtain ⟨hmem, hat⟩ := fieldsAt_facts hf
    exact ⟨Field.lo_le_hi (mapOf_facts hmem).2.1, reservedBit_outside hj hmem hat⟩

/-! ### Reads -/

/-- A read beyond BAR0 or misaligned does nothing (R336). -/
theorem State.read_none (s : State) {off : Nat} (jtag : Bool) (h : off % 4 ≠ 0 ∨ 0x200000 ≤ off) : s.read off jtag = s := by
  rw [State.read, if_pos h]

/-- A read of a word of time captures its seconds (R71). -/
theorem State.read_ns (s : State) {off : Nat} (jtag : Bool) {r : NsReg} (h4 : off % 4 = 0) (hb : off < 0x200000) (hn : nsRegAt off = some r) :
    s.read off jtag = s.nsRead r := by
  rw [State.read, if_neg (by omega), hn]

/-- A read of a register without a capture of its own. -/
theorem State.read_plain (s : State) {off : Nat} (jtag : Bool) (h4 : off % 4 = 0) (hb : off < 0x200000) (hn : nsRegAt off = none)
    (hc : R.TB_CAP_NS_NS.instAt off = none) (ha : R.AD_RES.instAt off = none) : s.read off jtag = s.plainRead off jtag := by
  rw [State.read, if_neg (by omega), hn, hc, ha]

/-- A captured word is returned, and nothing else happens. -/
theorem State.plainRead_latched (s : State) {off : Nat} (jtag : Bool) {w : Word} (h : Tab.get (fun _ => none) s.hiLatch off = some w) :
    s.plainRead off jtag = s.reply w := by
  rw [State.plainRead, h]

/-- A read of the low word of a 64-bit quantity captures its high word (R12). -/
def State.captureHigh (s : State) (off : Nat) : State := if isLow off then s.latch (off + 4) (s.peek (off + 4)) else s

/-- A read with nothing captured before returns the register's word, captures the high word and clears RC fields. -/
theorem State.plainRead_live (s : State) {off : Nat} (jtag : Bool) (h : Tab.get (fun _ => none) s.hiLatch off = none) :
    s.plainRead off jtag = if jtag then (s.reply (s.peek off)).captureHigh off else ((s.reply (s.peek off)).captureHigh off).clearRcs off := by
  rw [State.plainRead, h]
  rfl

theorem State.captureHigh_readData (s : State) (off : Nat) : (s.captureHigh off).readData = s.readData := by
  unfold State.captureHigh
  split <;> rfl

theorem State.captureHigh_regs (s : State) (off : Nat) : (s.captureHigh off).regs = s.regs := by
  unfold State.captureHigh
  split <;> rfl

theorem State.captureHigh_frozen (s : State) (off : Nat) : (s.captureHigh off).frozen = s.frozen := by
  unfold State.captureHigh
  split <;> rfl

theorem State.captureHigh_view (s : State) (off : Nat) : (s.captureHigh off).view = s.view := by
  unfold State.captureHigh
  split <;> rfl

theorem State.captureHigh_latch (s : State) {off : Nat} (h : isLow off = true) :
    Tab.get (fun _ => none) (s.captureHigh off).hiLatch (off + 4) = some (s.peek (off + 4)) := by
  rw [State.captureHigh, if_pos h]
  exact Tab.get_put_self ..

theorem State.clearRcs_readData (s : State) (off : Nat) : (s.clearRcs off).readData = s.readData :=
  (State.clearRcs_only Sub.refl Sub.refl Only.refl).readData rfl

theorem State.clearRcs_hiLatch (s : State) (off : Nat) : (s.clearRcs off).hiLatch = s.hiLatch :=
  (State.clearRcs_only Sub.refl Sub.refl Only.refl).hiLatch rfl

/-- The word that a read with nothing captured returns. -/
theorem State.plainRead_readData (s : State) {off : Nat} (jtag : Bool) (h : Tab.get (fun _ => none) s.hiLatch off = none) :
    (s.plainRead off jtag).readData = s.peek off := by
  rw [State.plainRead_live s jtag h]
  cases jtag
  · exact (State.clearRcs_readData _ _).trans (State.captureHigh_readData _ _)
  · exact State.captureHigh_readData _ _

/-- The high word captured by a read of the low word (R12). -/
theorem State.plainRead_hiLatch (s : State) {off : Nat} (jtag : Bool) (h : Tab.get (fun _ => none) s.hiLatch off = none)
    (hl : isLow off = true) : Tab.get (fun _ => none) (s.plainRead off jtag).hiLatch (off + 4) = some (s.peek (off + 4)) := by
  rw [State.plainRead_live s jtag h]
  cases jtag
  · exact (congrArg (fun l => Tab.get (fun _ => none) l (off + 4)) (State.clearRcs_hiLatch _ _)).trans (State.captureHigh_latch _ hl)
  · exact State.captureHigh_latch _ hl

/-- Settles O6: a read shows bits of fields and of a register whose reserved bits are 0, and a write keeps the machine sound. -/
theorem reservedFields : Obligations.ReservedFields := by
  refine ⟨fun off j jtag s hs h4 hb hm h1 h2 hn hc ha hl hj => ?reads, fun off w s hs => ?writes⟩
  case reads =>
    have shown : ∀ jtag, (s.read off jtag).readData.getLsbD j = false := fun jtag => by
      rw [State.read_plain s jtag h4 hb hn hc ha, State.plainRead_readData s jtag hl]
      exact State.peek_reserved hs hm h1 h2 hj
    exact ⟨⟨_, rfl, shown jtag⟩, ⟨_, rfl, shown false⟩⟩
  case writes =>
    obtain ⟨t, ht, only⟩ := execRegWrite_only (s := s) (a0 := off) (a1 := w) Sub.refl Sub.refl
    exact ⟨t, ht, fun b o j => (only.sound hs).1.2 b o j⟩

end Sys2Proof.Machine

/-! PROOFS of the scope family. Writes of BAR0, and the counters that a read clears (R6 to R12, R336). -/
namespace Sys2Proof.Machine

/-! ### Counters that a read clears (R8) -/

theorem bitsOf_lt (w : Word) (hi lo : Nat) : bitsOf w hi lo < 2 ^ (hi + 1 - lo) := Nat.mod_lt _ (Nat.two_pow_pos _)

theorem State.get_lt (s : State) (f : Field) (n : Nat) : s.get f n < 2 ^ f.width := bitsOf_lt ..

/-- The counters of malformed requests: the two fields of HI.STATUS. -/
def errCounters : List Field := [R.HI_STATUS_DMA_ERR, R.HI_STATUS_DESC_ERR]

theorem fieldsAt_status : fieldsAt 0x100000 = errCounters := by decide +kernel

theorem State.place_status (s : State) : s.place 0x100000 = 0x100000 := by simp [State.place]

theorem rcShown_counter {f : Field} (live old : Word) (h : rcHolds.contains f = false) :
    rcShown f live old = min (bitsOf live f.hi f.lo) (bitsOf old f.hi f.lo) := by
  unfold rcShown
  rw [h, Bool.false_or]
  split
  · next k => exact (Nat.min_eq_left (Nat.le_of_lt (of_decide_eq_true k))).symm
  · next k => exact (Nat.min_eq_right (Nat.le_of_not_lt fun l => k (decide_eq_true l))).symm

theorem afterRead_counter {f : Field} (live shown : Nat) (h : rcHolds.contains f = false) (hm : maxFields.contains f = false) :
    afterRead f live shown 0 = live - shown := by
  simp only [afterRead, h, hm, Bool.false_eq_true, if_false, Nat.zero_add]

/-- What clearing a counter of HI.STATUS writes to the registers and to the tick's view of them. -/
theorem State.clearRc_status (s : State) {f : Field} (hf : f ∈ errCounters) :
    (s.clearRc 0x100000 f).regs = s.regs.set f 0 (s.get f - min (s.get f) (s.view.regs.get f 0)) ∧
      (s.clearRc 0x100000 f).view.regs = s.view.regs.set f 0 0 := by
  have facts : ∀ g ∈ errCounters, blkOf 0x100000 = g.blk ∧ g.addr 0 = 0x100000 ∧ 0 < g.count ∧ g.pub = false ∧
      rcHolds.contains g = false ∧ maxFields.contains g = false ∧ bitsOf (resetWord g.blk 0x100000) g.hi g.lo = 0 := by decide +kernel
  obtain ⟨hb, ha, hn, hp, hh, hm, hr⟩ := facts f hf
  simp only [State.clearRc, hb, hp, hr, Bool.false_eq_true, if_false, rcShown_counter _ _ hh, afterRead_counter _ _ hh hm, Regs.set, if_pos hn,
    ha, State.get, Regs.get, and_self]

theorem errCounters_ok {f : Field} (hf : f ∈ errCounters) : f.ok = true ∧ 0 < f.count := by
  revert f
  decide

/-- The counters share no bit. -/
theorem errCounters_apart {f g : Field} (hf : f ∈ errCounters) (hg : g ∈ errCounters) (h : f ≠ g) : Field.apart f 0 g 0 := by
  have far : ∀ f ∈ errCounters, ∀ g ∈ errCounters, f ≠ g → f.far g = true := by decide
  exact Field.apart_of_far (far f hf g hg h) 0 0 (errCounters_ok hf).2 (errCounters_ok hg).2

theorem State.clearRc_status_get (s : State) {f : Field} (hf : f ∈ errCounters) :
    (s.clearRc 0x100000 f).get f = s.get f - min (s.get f) (s.view.regs.get f 0) := by
  obtain ⟨hok, hn⟩ := errCounters_ok hf
  rw [State.get, (s.clearRc_status hf).1, Regs.get_set_self _ _ _ _ hn hok]
  exact Nat.mod_eq_of_lt (Nat.lt_of_le_of_lt (Nat.sub_le ..) (s.get_lt f 0))

/-- Clearing one counter leaves the other, and the tick's view of it. -/
theorem State.clearRc_status_other (s : State) {f g : Field} (hf : f ∈ errCounters) (hg : g ∈ errCounters) (h : f ≠ g) :
    (s.clearRc 0x100000 f).get g = s.get g ∧ (s.clearRc 0x100000 f).view.regs.get g 0 = s.view.regs.get g 0 := by
  have hok := (errCounters_ok hf).1
  have hap := errCounters_apart hf hg h
  rw [State.get, (s.clearRc_status hf).1, (s.clearRc_status hf).2]
  exact ⟨Regs.get_set_of_apart _ _ _ _ _ _ hok hap, Regs.get_set_of_apart _ _ _ _ _ _ hok hap⟩

theorem State.clearRcs_status (s : State) :
    s.clearRcs 0x100000 = (s.clearRc 0x100000 R.HI_STATUS_DMA_ERR).clearRc 0x100000 R.HI_STATUS_DESC_ERR := by
  unfold State.clearRcs
  dsimp only
  rw [s.place_status, fieldsAt_status]
  rfl

/-- A counter that a read has cleared keeps what it was advanced by in the tick. -/
theorem State.clearRcs_status_get (s : State) {f : Field} (hf : f ∈ errCounters) :
    (s.clearRcs 0x100000).get f = s.get f - min (s.get f) (s.view.regs.get f 0) := by
  have dma : R.HI_STATUS_DMA_ERR ∈ errCounters := by decide
  have desc : R.HI_STATUS_DESC_ERR ∈ errCounters := by decide
  rw [s.clearRcs_status]
  have h := hf
  simp only [errCounters, List.mem_cons, List.not_mem_nil, or_false] at h
  rcases h with rfl | rfl
  · rw [(State.clearRc_status_other _ desc dma (by decide)).1, s.clearRc_status_get dma]
  · obtain ⟨hget, hview⟩ := s.clearRc_status_other dma desc (by decide)
    rw [State.clearRc_status_get _ desc, hget, hview]

/-- A read of HI.STATUS shows each counter as it stood before the tick. -/
theorem State.peek_status (s : State) {f : Field} (hf : f ∈ errCounters) :
    bitsOf (s.peek 0x100000) f.hi f.lo = min (s.get f) (s.view.regs.get f 0) := by
  have e : s.peek 0x100000 = withBits (withBits (s.regs.word .hi 0x100000) 15 0 (min (s.get R.HI_STATUS_DMA_ERR) (s.view.regs.get R.HI_STATUS_DMA_ERR 0)))
      31 16 (min (s.get R.HI_STATUS_DESC_ERR) (s.view.regs.get R.HI_STATUS_DESC_ERR 0)) := by
    have b : blkOf 0x100000 = .hi := by decide
    simp only [State.peek, s.place_status, fieldsAt_status, b, readFields, errCounters, List.foldl_cons, List.foldl_nil]
    rw [rcShown_counter _ _ (by decide), rcShown_counter _ _ (by decide)]
    rfl
  have small : ∀ f : Field, min (s.get f) (s.view.regs.get f 0) < 2 ^ f.width := fun f => Nat.lt_of_le_of_lt (Nat.min_le_left ..) (s.get_lt f 0)
  rw [e]
  simp only [errCounters, List.mem_cons, List.not_mem_nil, or_false] at hf
  rcases hf with rfl | rfl
  · refine (bitsOf_withBits_of_disj _ (by decide) (by decide)).trans ((bitsOf_withBits _ _ _ _ (by decide) (by decide)).trans ?_)
    exact Nat.mod_eq_of_lt (small R.HI_STATUS_DMA_ERR)
  · refine (bitsOf_withBits _ _ _ _ (by decide) (by decide)).trans ?_
    exact Nat.mod_eq_of_lt (small R.HI_STATUS_DESC_ERR)

/-! ### Writes -/

/-- A counter advanced by one saturates (R10). -/
theorem State.get_inc (s : State) (f : Field) (n : Nat) (hn : n < f.count) (hf : f.ok = true) :
    (s.inc f n).get f n = min (s.get f n + 1) f.top := by
  refine State.get_set_of_lt _ _ _ _ hn hf ?_
  have := Nat.two_pow_pos f.width
  unfold Field.top
  omega

theorem State.postOnce_get (s : State) (code : Nat) (sev : Sev) (i : Option Nat) (l : List Word) (e j : Bool) (f : Field) (n : Nat) :
    (s.postOnce code sev i l e j).get f n = s.get f n := by
  unfold State.postOnce
  split <;> rfl

/-- A misaligned write is counted (R336). -/
theorem State.badAccess_get (s : State) (h : s.bit R.INJ_STAT_KEY_LOADED = false) :
    (s.badAccess true).get R.HI_STATUS_DESC_ERR = min (s.get R.HI_STATUS_DESC_ERR + 1) R.HI_STATUS_DESC_ERR.top := by
  rw [State.badAccess, if_pos rfl, State.inject_none s _ _ h]
  exact (State.postOnce_get ..).trans (State.get_inc _ _ _ (by decide) (by decide))

/-- A word of the MSI-X table after it was written. -/
theorem State.msixPut_msix (s : State) (i : Nat) (w : Word) : (s.msixPut i w).msix i = w := by
  unfold State.msixPut
  dsimp only
  split <;> exact Tab.get_put_self ..

theorem State.msixPut_regs (s : State) (i : Nat) (w : Word) : (s.msixPut i w).regs = s.regs :=
  (State.msixPut_only Sub.refl Sub.refl Only.refl).regs_eq rfl

/-- The writes that do nothing: the device takes none, or the offset lies beyond BAR0. -/
theorem State.write_none (s : State) {off : Nat} (w : Word) (h : s.takesWrites = false ∨ 0x200000 ≤ off) : s.write off w = s := by
  rw [State.write, if_pos (by simpa using h)]

theorem State.write_misaligned (s : State) {off : Nat} (w : Word) (ht : s.takesWrites = true) (hb : off < 0x200000) (h4 : off % 4 ≠ 0) :
    s.write off w = s.badAccess true := by
  rw [State.write, if_neg (by simp [ht, hb]), if_pos h4]

theorem State.write_msix (s : State) {off : Nat} (w : Word) (ht : s.takesWrites = true) (h4 : off % 4 = 0)
    (hm : 0x108000 ≤ off ∧ off < 0x108400) : s.write off w = s.msixPut ((off - 0x108000) / 4) w := by
  have hb : off < 0x200000 := by omega
  rw [State.write, if_neg (by simp [ht, hb]), if_neg (by omega), if_pos hm]

theorem State.write_register (s : State) {off : Nat} (w : Word) (ht : s.takesWrites = true) (hb : off < 0x200000) (h4 : off % 4 = 0)
    (hm : ¬ (0x108000 ≤ off ∧ off < 0x108400)) : s.write off w = s.writeWord off w := by
  rw [State.write, if_neg (by simp [ht, hb]), if_neg (by omega), if_neg hm]

/-- A low word of a 64-bit quantity waits for its high word (R12). -/
theorem State.writeWord_staged (s : State) {off : Nat} (w : Word) (hs : isStaged off = true) (hr : s.anyRefused (s.place off) w = false) :
    s.writeWord off w = { s with wrStage := Tab.put (fun _ => none) s.wrStage off (some w) } := by
  simp [State.writeWord, hs, hr]

/-- The blocks whose writes have no action of their own. -/
def plainBlks : List Blk := [.tl, .mp, .sep, .sch, .me]

theorem State.act_plain (s o : State) {off : Nat} (w : Word) (h : blkOf off ∈ plainBlks) : s.act o off w = s := by
  unfold State.act
  generalize blkOf off = b at h ⊢
  simp only [plainBlks, List.mem_cons, List.not_mem_nil, or_false] at h
  rcases h with rfl | rfl | rfl | rfl | rfl <;> rfl

/-- The islands that a write leaves without use are noted (R454). -/
def State.noted (s : State) (p : Nat) : State := if islandReg p then s.noteOff else s

theorem State.noted_regs (s : State) (p : Nat) : (s.noted p).regs = s.regs := by
  unfold State.noted
  split
  · exact (State.noteOff_only Sub.refl Sub.refl Only.refl).regs_eq rfl
  · rfl

theorem State.noted_posted (s : State) (p : Nat) : (s.noted p).posted = s.posted := by
  unfold State.noted
  split
  · exact (State.noteOff_only Sub.refl Sub.refl Only.refl).posted rfl
  · rfl

/-- The state in which a write sets fields: a refusal has posted its notice (R9). -/
def State.noticed (s : State) (off : Nat) (w : Word) : State := if s.anyRefused (s.place off) w then s.ignored off else s

/-- A write of a register that is no half of a 64-bit quantity, in a block whose writes have no action, sets fields. -/
theorem State.writeWord_plain (s : State) {off : Nat} (w : Word) (h1 : isStaged off = false) (h2 : isStaged (off - 4) = false)
    (hb : blkOf off ∈ plainBlks) : s.writeWord off w = ((s.noticed off w).putFields (s.place off) w).noted (s.place off) := by
  simp only [State.writeWord, h1, h2, Bool.false_eq_true, false_and, and_false, if_false, State.act_plain _ _ _ hb]
  rfl

/-- The word of a register after a write that no field refuses (R6). -/
theorem State.putFields_word (s : State) (p : Nat) (w : Word) (h : s.anyRefused p w = false) :
    (s.putFields p w).regs.word (blkOf p) p =
      ((fieldsAt p).filter fun f => !ownAct.contains f).foldl (fun old f => fieldAfter f old (s.takenWord p w f)) (s.regs.word (blkOf p) p) := by
  have taken : ((fieldsAt p).filter fun f => !s.refused p w f && !ownAct.contains f) = (fieldsAt p).filter fun f => !ownAct.contains f :=
    List.filter_congr fun f hf => by rw [Bool.eq_false_iff.mpr (List.any_eq_false.mp h f hf), Bool.not_false, Bool.true_and]
  unfold State.putFields
  dsimp only
  rw [Regs.word_setWord, if_pos ⟨rfl, rfl⟩, taken]

/-- A write that every field refuses changes no register (R9). -/
theorem State.putFields_refused (s : State) (p : Nat) (w : Word) (h : ∀ f ∈ fieldsAt p, s.refused p w f = true) (b : Blk) (o : Nat) :
    (s.putFields p w).regs.word b o = s.regs.word b o := by
  have none : ((fieldsAt p).filter fun f => !s.refused p w f && !ownAct.contains f) = [] :=
    List.filter_eq_nil_iff.mpr fun f hf => by simp [h f hf]
  unfold State.putFields
  dsimp only
  rw [none, Regs.word_setWord]
  split
  · next e => rw [e.1, e.2]; rfl
  · rfl

/-- HI.STATUS is read without a capture of its own. -/
theorem State.read_status (s : State) (jtag : Bool) : s.read 0x100000 jtag = s.plainRead 0x100000 jtag :=
  s.read_plain jtag (by decide) (by decide) (by decide) (by decide) (by decide)

/-- Returning a word and capturing another leaves every field. -/
theorem State.captured_get (s : State) (off : Nat) (w : Word) (f : Field) (n : Nat) : ((s.reply w).captureHigh off).get f n = s.get f n := by
  rw [State.get, State.captureHigh_regs]
  rfl

theorem State.captured_view (s : State) (off : Nat) (w : Word) : ((s.reply w).captureHigh off).view = s.view :=
  State.captureHigh_view ..

/-- A host read of HI.STATUS: each counter as it stood before the tick is returned, and what the tick added stays (R8). -/
theorem State.plainRead_status (s : State) {f : Field} (hf : f ∈ errCounters) (hl : Tab.get (fun _ => none) s.hiLatch 0x100000 = none) :
    bitsOf (s.plainRead 0x100000 false).readData f.hi f.lo = min (s.get f) (s.view.regs.get f 0) ∧
      (s.plainRead 0x100000 false).get f = s.get f - min (s.get f) (s.view.regs.get f 0) := by
  constructor
  · rw [s.plainRead_readData false hl]
    exact s.peek_status hf
  · rw [s.plainRead_live false hl, if_neg Bool.false_ne_true, State.clearRcs_status_get _ hf, State.captured_get,
      State.captured_view]

/-- Settles O38, clause by clause: which of the forms of a read or a write it is, and what that form leaves. -/
theorem hostAccess : Obligations.HostAccess := by
  refine ⟨fun off w s h => ?none, fun off w s hk ht hb h4 => ?misaligned, fun i w s ht hi => ?msix, fun off w s ht hb h4 hm hs hr => ?staged,
    fun off w s ht hb h4 h1 h2 hr hp => ?taken, fun off w s ht hb h4 h1 h2 hr hp => ?refused, fun off jtag s h => ?noRead,
    fun off jtag r s h4 hb hn => ?time, fun off jtag s h4 hb hn hc ha => ⟨fun w hl => ?latched, fun hl => ?live⟩, fun f s hf hl => ?counter⟩
  case none => exact congrArg Host.Outcome.next (s.write_none w h)
  case misaligned => exact ⟨_, congrArg Host.Outcome.next (s.write_misaligned w ht hb h4), s.badAccess_get hk⟩
  case msix =>
    have e := s.write_msix (off := 0x108000 + 4 * i) w ht (by omega) (by omega)
    rw [show (0x108000 + 4 * i - 0x108000) / 4 = i by omega] at e
    exact ⟨_, congrArg Host.Outcome.next e, s.msixPut_msix i w, s.msixPut_regs i w⟩
  case staged =>
    have e := (s.write_register w ht hb h4 hm).trans (s.writeWord_staged w hs hr)
    exact ⟨_, congrArg Host.Outcome.next e, Tab.get_put_self .., rfl⟩
  case taken =>
    have e := (s.write_register w ht (by omega) h4 (by omega)).trans (s.writeWord_plain w h1 h2 hp)
    have hn : s.noticed off w = s := by simp [State.noticed, hr]
    rw [hn] at e
    refine ⟨_, congrArg Host.Outcome.next e, State.noted_posted .., ?_⟩
    rw [State.noted_regs]
    exact s.putFields_word _ w hr
  case refused =>
    have e := (s.write_register w ht (by omega) h4 (by omega)).trans (s.writeWord_plain w h1 h2 hp)
    have hn : s.noticed off w = s.ignored off := by simp [State.noticed, hr]
    rw [hn] at e
    refine ⟨_, congrArg Host.Outcome.next e, ?_, fun hf b o => ?_⟩
    · rw [State.noted_posted]
      simp [State.putFields, State.ignored, State.post]
    · rw [State.noted_regs]
      exact (s.ignored off).putFields_refused _ w hf b o
  case noRead => exact ⟨congrArg Host.Outcome.next (s.read_none false h), congrArg Host.Outcome.next (s.read_none jtag h)⟩
  case time => exact ⟨congrArg Host.Outcome.next (s.read_ns false h4 hb hn), congrArg Host.Outcome.next (s.read_ns jtag h4 hb hn)⟩
  case latched =>
    have e := fun jtag => (s.read_plain jtag h4 hb hn hc ha).trans (s.plainRead_latched jtag hl)
    exact ⟨⟨_, congrArg Host.Outcome.next (e false), rfl, rfl⟩, ⟨_, congrArg Host.Outcome.next (e jtag), rfl, rfl⟩⟩
  case live =>
    have e := fun jtag => s.read_plain jtag h4 hb hn hc ha
    refine ⟨⟨_, congrArg Host.Outcome.next (e false), s.plainRead_readData false hl, s.plainRead_hiLatch false hl⟩,
      ⟨_, congrArg Host.Outcome.next (e jtag), s.plainRead_readData jtag hl, fun hj => ?_⟩⟩
    rw [s.plainRead_live jtag hl, if_pos hj]
    exact ⟨State.captureHigh_regs .., State.captureHigh_frozen ..⟩
  case counter =>
    have hm : f ∈ errCounters := by simpa [errCounters, or_comm] using hf
    have addr : f.addr 0 = 0x100000 := by rcases hf with rfl | rfl <;> rfl
    rw [addr] at hl ⊢
    exact ⟨_, congrArg Host.Outcome.next (s.read_status false), s.plainRead_status hm hl⟩

end Sys2Proof.Machine

/-! PROOFS of the feedback family. Frames of the feedback, Tiller and joint-control commands (R128 to R197). -/
namespace Sys2Proof.Machine

/-- Two lists name every part and every register field of a footprint's masks, and the registers change in those fields only. -/
def named (p r : Nat) (ps : List Part) (fs : List Field) : Bool :=
  partsListed p ps && !p.testBit 1 && listed r fs && decide (r < 2 ^ 2176)

/-- A command that always completes within a footprint touches only what the lists of that footprint name. -/
theorem touches_of_only {i : Instr} {ps : List Part} {fs : List Field} {p r : Nat}
    (h : ∀ s, ∃ t, exec i s = .next t ∧ Only p r s t) (hn : named p r ps fs = true) : Touches i ps fs := by
  simp only [named, Bool.and_eq_true, Bool.not_eq_true', decide_eq_true_eq] at hn
  obtain ⟨⟨⟨hp, hg⟩, hr⟩, hm⟩ := hn
  intro s
  obtain ⟨t, ht, ho⟩ := h s
  exact ⟨t, ht, ho.changes hp hg hr hm⟩

/-- Settles O54: each command's footprint, with the parts and fields of its masks named. -/
theorem frameJoints : Obligations.FrameJoints := by
  unfold Obligations.FrameJoints
  exact ⟨fun _ => touches_of_only (fun _ => execDpSample_only Sub.refl Sub.refl) (by decide +kernel),
    fun _ _ _ => touches_of_only (fun _ => execDpEdge_only Sub.refl Sub.refl) (by decide +kernel),
    fun _ _ => touches_of_only (fun _ => execHallEdge_only Sub.refl Sub.refl) (by decide +kernel),
    fun _ => touches_of_only (fun _ => execIndexEvent_only Sub.refl Sub.refl) (by decide +kernel),
    fun _ => touches_of_only (fun _ => execSsiFrameStart_only Sub.refl Sub.refl) (by decide +kernel),
    fun _ => touches_of_only (fun _ => execSsiFrameEnd_only Sub.refl Sub.refl) (by decide +kernel),
    fun _ => touches_of_only (fun _ => execFeedbackUpdate_only Sub.refl Sub.refl) (by decide +kernel),
    fun _ => touches_of_only (fun _ => execFbLost_only Sub.refl Sub.refl) (by decide +kernel),
    fun _ => touches_of_only (fun _ => execFbStandstill_only Sub.refl Sub.refl) (by decide +kernel),
    fun _ => touches_of_only (fun _ => execEoEnable_only Sub.refl Sub.refl) (by decide +kernel),
    fun _ _ _ _ _ wf => touches_of_only (fun _ => execMpy4_only wf Sub.refl Sub.refl) (by decide +kernel),
    fun _ _ _ _ _ wf => touches_of_only (fun _ => execMac4_only wf Sub.refl Sub.refl) (by decide +kernel),
    fun _ _ _ _ _ wf => touches_of_only (fun _ => execMsu4_only wf Sub.refl Sub.refl) (by decide +kernel),
    fun _ _ _ _ _ wf => touches_of_only (fun _ => execFtap_only wf Sub.refl Sub.refl) (by decide +kernel),
    fun _ _ _ _ _ _ _ wf => touches_of_only (fun _ => execLda_only wf Sub.refl Sub.refl) (by decide +kernel),
    fun _ _ _ _ _ _ _ wf => touches_of_only (fun _ => execSt_only wf Sub.refl Sub.refl) (by decide +kernel),
    fun _ _ _ _ wf => touches_of_only (fun _ => execAdda_only wf Sub.refl Sub.refl) (by decide +kernel),
    fun _ _ _ _ wf => touches_of_only (fun _ => execSuba_only wf Sub.refl Sub.refl) (by decide +kernel),
    fun _ _ _ _ wf => touches_of_only (fun _ => execMova_only wf Sub.refl Sub.refl) (by decide +kernel),
    fun _ _ _ _ wf => touches_of_only (fun _ => execClamp_only wf Sub.refl Sub.refl) (by decide +kernel),
    fun _ _ _ _ _ wf => touches_of_only (fun _ => execTst_only wf Sub.refl Sub.refl) (by decide +kernel),
    fun _ _ wf => touches_of_only (fun _ => execClr_only wf Sub.refl Sub.refl) (by decide +kernel),
    fun _ => touches_of_only (fun _ => execTlNop_only Sub.refl Sub.refl) (by decide +kernel),
    fun _ => touches_of_only (fun _ => execTlSatTime_only Sub.refl Sub.refl) (by decide +kernel),
    fun _ => touches_of_only (fun _ => execPreloadFallbackStart_only Sub.refl Sub.refl) (by decide +kernel),
    fun _ => touches_of_only (fun _ => execPreloadComplete_only Sub.refl Sub.refl) (by decide +kernel),
    fun _ => touches_of_only (fun _ => execArmServoOn_only Sub.refl Sub.refl) (by decide +kernel),
    fun _ => touches_of_only (fun _ => execArmServoStop_only Sub.refl Sub.refl) (by decide +kernel),
    fun _ => touches_of_only (fun _ => execArmServoResume_only Sub.refl Sub.refl) (by decide +kernel),
    fun _ => touches_of_only (fun _ => execArmServoReset_only Sub.refl Sub.refl) (by decide +kernel),
    fun _ => touches_of_only (fun _ => execArmServoApply_only Sub.refl Sub.refl) (by decide +kernel),
    fun _ => touches_of_only (fun _ => execStandstillReached_only Sub.refl Sub.refl) (by decide +kernel),
    fun _ => touches_of_only (fun _ => execSs1TimeoutExpiry_only Sub.refl Sub.refl) (by decide +kernel),
    fun _ => touches_of_only (fun _ => execFbClear_only Sub.refl Sub.refl) (by decide +kernel)⟩

end Sys2Proof.Machine

/-! PROOFS of the feedback family. Channels, ports and emulation outputs after an update, and fields just written. -/
namespace Sys2Proof.Machine

/-! ### Channels, ports and outputs after an update -/

@[simp] theorem State.chan_updChan (s : State) (n : Nat) (f : Chan → Chan) : (s.updChan n f).chan n = f (s.chan n) := Tab.get_upd_self ..
@[simp] theorem State.chan_updDport (s : State) (m n : Nat) (f : DPort → DPort) : (s.updDport m f).chan n = s.chan n := rfl
@[simp] theorem State.dport_updDport (s : State) (m : Nat) (f : DPort → DPort) : (s.updDport m f).dport m = f (s.dport m) := Tab.get_upd_self ..
@[simp] theorem State.dport_updChan (s : State) (m n : Nat) (f : Chan → Chan) : (s.updChan n f).dport m = s.dport m := rfl
@[simp] theorem State.emul_updEmul (s : State) (k : Nat) (f : Emul → Emul) : (s.updEmul k f).emul k = f (s.emul k) := Tab.get_upd_self ..

@[simp] theorem State.chan_set (s : State) (f : Field) (k v n : Nat) : (s.set f k v).chan n = s.chan n := rfl
@[simp] theorem State.chan_setBit (s : State) (f : Field) (k n : Nat) (b : Bool) : (s.setBit f k b).chan n = s.chan n := rfl
@[simp] theorem State.chan_inc (s : State) (f : Field) (k n : Nat) : (s.inc f k).chan n = s.chan n := rfl
@[simp] theorem State.chan_post (s : State) (code : Nat) (sev : Sev) (i : Option Nat) (l : List Word) (e j : Bool) (n : Nat) :
    (s.post code sev i l e j).chan n = s.chan n := rfl
@[simp] theorem State.dport_inc (s : State) (f : Field) (k m : Nat) : (s.inc f k).dport m = s.dport m := rfl
@[simp] theorem State.dport_post (s : State) (code : Nat) (sev : Sev) (i : Option Nat) (l : List Word) (e j : Bool) (m : Nat) :
    (s.post code sev i l e j).dport m = s.dport m := rfl

theorem State.chan_congr {s t : State} (h : t.fb = s.fb) (n : Nat) : t.chan n = s.chan n := by
  rw [State.chan, State.chan, h]

theorem State.dport_congr {s t : State} (h : t.fb = s.fb) (m : Nat) : t.dport m = s.dport m := by
  rw [State.dport, State.dport, h]

/-- Registers decide what a field reads. -/
theorem State.get_congr {s t : State} (h : t.regs = s.regs) (f : Field) (n : Nat) : t.get f n = s.get f n := congrArg (·.get f n) h

/-- A bit that no write of `f` reaches. -/
theorem State.bit_set_far (s : State) (f g : Field) (n m v : Nat) (hf : f.ok = true) (h : f.far g = true) (hm : m < g.count) :
    (s.set f n v).bit g m = s.bit g m := State.bit_congr (s.get_set_far f g n m v hf h hm)

theorem State.bit_setBit_far (s : State) (f g : Field) (n m : Nat) (b : Bool) (hf : f.ok = true) (h : f.far g = true) (hm : m < g.count) :
    (s.setBit f n b).bit g m = s.bit g m := s.bit_set_far f g n m _ hf h hm

/-- A field set to an integer reads it modulo the field's width. -/
theorem State.get_seti (s : State) (f : Field) (n : Nat) (v : Int) (hn : n < f.count) (hf : f.ok = true) :
    (s.seti f n v).get f n = (v % 2 ^ f.width).toNat := by
  have cast : ((2 ^ f.width : Nat) : Int) = 2 ^ f.width := Int.natCast_pow 2 f.width
  have pos : (0 : Int) < 2 ^ f.width := cast ▸ Int.natCast_pos.mpr (Nat.two_pow_pos _)
  have lt := Int.emod_lt_of_pos v pos
  refine s.get_set_of_lt f n _ hn hf ?_
  rw [← cast] at lt pos ⊢
  omega

end Sys2Proof.Machine

/-! PROOFS of the feedback family. Direct ports: edges, samples, SSI frames and index events (R128 to R144). -/
namespace Sys2Proof.Machine

/-! ### Counted edges -/

theorem State.moveLin_regs (s : State) (n : Nat) (d : Int) : (s.moveLin n d).regs = s.regs :=
  (State.moveLin_only Sub.refl Sub.refl Only.refl).regs_eq rfl

theorem State.relatch_regs (s : State) (n : Nat) : (s.relatch n).regs = s.regs :=
  (State.relatch_only Sub.refl Sub.refl Only.refl).regs_eq rfl

theorem State.moveLin_dport (s : State) (n m : Nat) (d : Int) : (s.moveLin n d).dport m = s.dport m := by
  unfold State.moveLin
  dsimp only
  split <;> rfl

/-- A counted edge leaves the levels of its port. -/
theorem State.countEdge_dport (s : State) (m : Nat) (d : Int) (t : Nat) : (s.countEdge m d t).dport m = s.dport m := by
  unfold State.countEdge
  dsimp only
  split
  · rfl
  · exact State.moveLin_dport ..

/-- A counted edge moves COUNT by one in its direction. -/
theorem State.countEdge_count (s : State) {m : Nat} (d : Int) (t : Nat) (hm : m < 8) :
    (s.countEdge m d t).get R.DP_COUNT m = (((s.get R.DP_COUNT m : Int) + d) % 2 ^ 32).toNat := by
  have count := s.get_seti R.DP_COUNT m ((s.get R.DP_COUNT m : Int) + d) hm (by decide)
  unfold State.countEdge
  dsimp only
  split
  · exact count
  · rw [State.get_congr (State.relatch_regs ..), State.get_updChan, State.get_congr (State.moveLin_regs ..), count]
    rfl

/-! ### Edges out of sequence -/

/-- The channel of port `m`, if one runs, sets UNVERIFIED. -/
def State.unverifyPort (s : State) (m : Nat) : State :=
  match s.portChan m with
  | some n => s.unverify n
  | none => s

theorem State.quadErr_eq (s : State) (m : Nat) (inj : Bool) :
    s.quadErr m inj = ((s.inc R.DP_STAT_QUAD_ERR m).post Ev.fbQuadErr .fault (some m) [] false inj).unverifyPort m := rfl

theorem State.hallErr_eq (s : State) (m : Nat) (inj : Bool) :
    s.hallErr m inj = ((s.inc R.DP_STAT_HALL_ERR m).post Ev.fbHallErr .fault (some m) [] false inj).unverifyPort m := rfl

/-- UNVERIFIED leaves the fields of the direct ports. -/
theorem State.unverifyPort_get (s : State) {m : Nat} {g : Field} (hg : g ∈ [R.DP_COUNT, R.DP_STAT_QUAD_ERR, R.DP_STAT_HALL_ERR])
    (hm : m < 8) : (s.unverifyPort m).get g m = s.get g m := by
  have kept : ∀ n, (s.unverify n).get g m = s.get g m := by
    intro n
    have only := State.unverify_only (a1 := n) Sub.refl Sub.refl (Only.refl (s := s))
    simp only [List.mem_cons, List.not_mem_nil, or_false] at hg
    rcases hg with rfl | rfl | rfl <;> exact only.get_of_clear rfl (by decide +kernel) hm
  unfold State.unverifyPort
  split
  · exact kept _
  · rfl

/-- A quadrature error is counted, and COUNT stays (R133). -/
theorem State.quadErr_get (s : State) {m : Nat} (inj : Bool) (hm : m < 8) :
    (s.quadErr m inj).get R.DP_COUNT m = s.get R.DP_COUNT m
      ∧ (s.quadErr m inj).get R.DP_STAT_QUAD_ERR m = min (s.get R.DP_STAT_QUAD_ERR m + 1) R.DP_STAT_QUAD_ERR.top := by
  rw [State.quadErr_eq, State.unverifyPort_get _ (by decide) hm, State.unverifyPort_get _ (by decide) hm]
  exact ⟨State.get_set_far _ _ _ _ _ _ (by decide) (by decide) hm, s.get_inc _ _ hm (by decide)⟩

/-- A Hall sequence error is counted, and COUNT stays (R137). -/
theorem State.hallErr_get (s : State) {m : Nat} (inj : Bool) (hm : m < 8) :
    (s.hallErr m inj).get R.DP_COUNT m = s.get R.DP_COUNT m
      ∧ (s.hallErr m inj).get R.DP_STAT_HALL_ERR m = min (s.get R.DP_STAT_HALL_ERR m + 1) R.DP_STAT_HALL_ERR.top := by
  rw [State.hallErr_eq, State.unverifyPort_get _ (by decide) hm, State.unverifyPort_get _ (by decide) hm]
  exact ⟨State.get_set_far _ _ _ _ _ _ (by decide) (by decide) hm, s.get_inc _ _ hm (by decide)⟩

/-! ### Incremental ports -/

/-- The levels of A and B accepted in tick `t`. -/
def DPort.takeAB (p : DPort) (a b : Bool) (t : Nat) : DPort :=
  { p with a := a, b := b, accA := if p.a = a then p.accA else some t, accB := if p.b = b then p.accB else some t }

/-- An accepted change at an incremental port: a quadrature error when both signals changed, otherwise a counted edge (R133). -/
theorem State.dpEdge_accepted {s : State} {m : Nat} {a b : Bool} (mode : s.get R.DP_CFG_MODE m = 1) (key : s.bit R.INJ_STAT_KEY_LOADED = false)
    (fa : s.filtOk m (s.dport m).accA = true) (fb : s.filtOk m (s.dport m).accB = true) (ta : (s.dport m).accA ≠ some s.tick)
    (tb : (s.dport m).accB ≠ some s.tick) (change : ¬((s.dport m).a = a ∧ (s.dport m).b = b)) :
    s.dpEdge m a b =
      if (s.dport m).a ≠ a ∧ (s.dport m).b ≠ b then (s.updDport m (·.takeAB a b s.tick)).quadErr m false
      else (s.updDport m (·.takeAB a b s.tick)).countEdge m
        (if (decide (quadPlace a b = (quadPlace (s.dport m).a (s.dport m).b + 1) % 4)) != s.bit R.DP_CFG_INVERT m then 1 else -1)
        (s.filtDate m) := by
  have level : (if s.get R.DP_CFG_MODE m = 2 then (s.dport m).a else a) = a := if_neg (by omega)
  unfold State.dpEdge
  dsimp only
  rw [level, if_neg (by simp [fa, fb, ta, tb]), if_neg (by simp [mode, change]), State.inject_none (s.updDport m _) _ _ key]
  rfl

/-! ### Hall ports -/

/-- The state W:V:U of a Hall port's accepted levels. -/
def DPort.hall (p : DPort) : Nat := (if p.a then 1 else 0) + (if p.b then 2 else 0) + (if p.z then 4 else 0)

/-- The levels of U, V and W accepted in tick `t`. -/
def DPort.takeHall (p : DPort) (uvw t : Nat) : DPort :=
  { p with a := hasBit uvw 0, b := hasBit uvw 1, z := hasBit uvw 2,
           accA := if p.a = hasBit uvw 0 then p.accA else some t, accB := if p.b = hasBit uvw 1 then p.accB else some t,
           accZ := if p.z = hasBit uvw 2 then p.accZ else some t }

/-- An accepted change at a Hall port between states of the sequence: a counted edge between neighbours, an error otherwise (R137). -/
theorem State.hallEdge_accepted {s : State} {m uvw : Nat} (mode : s.get R.DP_CFG_MODE m = 3) (key : s.bit R.INJ_STAT_KEY_LOADED = false)
    (acc : ∀ l ∈ [(s.dport m).accA, (s.dport m).accB, (s.dport m).accZ], s.filtOk m l = true ∧ l ≠ some s.tick)
    (change : (s.dport m).hall ≠ uvw) (ho : (s.dport m).hall ∈ hallOrder) (hn : uvw ∈ hallOrder) :
    s.hallEdge m uvw =
      if hallOrder.idxOf uvw = (hallOrder.idxOf (s.dport m).hall + 1) % 6 ∨ hallOrder.idxOf (s.dport m).hall = (hallOrder.idxOf uvw + 1) % 6 then
        (s.updDport m (·.takeHall uvw s.tick)).countEdge m
          (if hallOrder.idxOf uvw = (hallOrder.idxOf (s.dport m).hall + 1) % 6 then 1 else -1) (s.filtDate m)
      else (s.updDport m (·.takeHall uvw s.tick)).hallErr m false := by
  have six : hallOrder.length = 6 := rfl
  have io := List.idxOf_lt_length_of_mem ho
  have jo := List.idxOf_lt_length_of_mem hn
  rw [six] at io jo
  simp only [List.mem_cons, List.not_mem_nil, or_false, forall_eq_or_imp, forall_eq] at acc
  obtain ⟨⟨fa, ta⟩, ⟨fb, tb⟩, fz, tz⟩ := acc
  have fold : (if (s.dport m).a then 1 else 0) + (if (s.dport m).b then 2 else 0) + (if (s.dport m).z then 4 else 0) = (s.dport m).hall := rfl
  unfold State.hallEdge
  dsimp only
  rw [fold, if_neg (by simp [mode, change, fa, fb, fz, ta.symm, tb.symm, tz.symm]), State.inject_none (s.updDport m _) _ _ key]
  simp only [io, jo, true_and, decide_eq_true_eq]
  rfl

/-! ### Samples -/

/-- A latch with none taken before in its tick holds the edges since the last sample. -/
theorem Chan.latch_fresh {c : Chan} {t : Nat} (ns : Nat) (h : c.latchedAt t = false) :
    c.latch t ns =
      { c with pend := some (.port c.edges c.b2 (t - c.lastEdge.getD t) (c.seed.map fun d => (d.dir, d.t2 - d.t1, d.b2, t - d.t2)) c.lin c.rep c.st c.idxIn),
               edges := 0, seed := none, idxIn := false, sampleTick := t, sampleNs := ns } := by
  unfold Chan.latchedAt at h
  unfold Chan.latch
  cases waits : c.pend with
  | none => cases c.seed <;> simp
  | some x =>
    cases x with
    | word => cases c.seed <;> simp
    | missing => cases c.seed <;> simp
    | port =>
      have other : ¬ c.sampleTick = t := by simpa [waits] using h
      cases c.seed <;> simp [other]

/-- A due sample of a port that counts edges is latched for its channel (R128). -/
theorem State.dpSample_due {s : State} {m n : Nat} (due : s.sampleDue m = true) (mode : s.get R.DP_CFG_MODE m = 1 ∨ s.get R.DP_CFG_MODE m = 3)
    (chan : s.portChan m = some n) :
    s.dpSample m = (s.updDport m fun p => { p with sampled := some s.cycle }).updChan n fun c => c.latch s.tick s.ns := by
  have chan' : ∀ f, (s.updDport m f).portChan m = some n := fun _ => chan
  unfold State.dpSample
  dsimp only
  rw [if_neg (by rcases mode with h | h <;> simp [due, h]), chan']
  rfl

/-! ### SSI frames -/

/-- A due frame starts: the clock falls, and the idle level of the line is kept for the frame's check (R135). -/
theorem State.ssiStart_dport {s : State} {m : Nat} (mode : s.get R.DP_CFG_MODE m = 2) (busy : (s.dport m).ssiBusy = false)
    (due : s.sampleDue m = true) (recovered : ∀ e, (s.dport m).ssiEnd = some e → e + s.get R.DP_SSI_RECOVERY m * 125 ≤ s.tick) :
    (s.ssiStart m).dport m = { s.dport m with ssiBusy := true, ssiStart := s.tick, ssiRaw := 0, ssiTail := none, idleLow := !(s.dport m).bWas,
                                              clk := false, sampled := some s.cycle } := by
  have captured : ∀ (x : State) (src : Nat) (stamp : Nat × Nat), (x.captureStart src stamp).dport m = x.dport m := fun x _ _ =>
    State.dport_congr ((State.captureStart_only Sub.refl Sub.refl Only.refl).fb rfl) m
  unfold State.ssiStart
  dsimp only
  rw [if_neg]
  · split
    · rw [State.dport_updChan, captured, State.dport_updDport]
    · rw [captured, State.dport_updDport]
  · cases last : (s.dport m).ssiEnd with
    | none => simp [mode, busy, due]
    | some e => simp [mode, busy, due, recovered e last]

/-- The word of a frame's bits, or its absence when a check failed (R136). -/
def State.ssiMeas (s : State) (m : Nat) : Meas :=
  if s.ssiBad m (s.dport m).ssiRaw ((s.dport m).ssiTail.getD (s.dport m).b) then .missing true
  else .word (if s.get R.DP_SSI_PARITY m = 0 then (s.dport m).ssiRaw else (s.dport m).ssiRaw / 2)

/-- A frame that is over leaves the port idle and its word, or its absence, with the channel. -/
theorem State.ssiEnd_waited {s : State} {m n : Nat} (chan : s.portChan m = some n) (busy : (s.dport m).ssiBusy = true)
    (key : s.bit R.INJ_STAT_KEY_LOADED = false) (waited : 2 * s.ssiLen m + s.get R.DP_SSI_CLK_PER m ≤ 4 * (s.tick - (s.dport m).ssiStart)) :
    ((s.ssiEnd m).dport m).ssiBusy = false ∧ ((s.ssiEnd m).dport m).clk = true ∧ ((s.ssiEnd m).chan n).pend = some (s.ssiMeas m) := by
  have chan' : ∀ f, (s.updDport m f).portChan m = some n := fun _ => chan
  unfold State.ssiEnd State.ssiMeas
  dsimp only
  rw [if_neg (by simpa [busy] using waited), chan']
  dsimp only
  rw [State.detect_off ((s.updDport m _).updChan n _) _ _ _ _ key]
  split
  next => simp
  next => simp

/-! ### Index events -/

theorem State.homeIndex_regs (s : State) (c idx : Nat) (latched : Int) : (s.homeIndex c latched idx).regs = s.regs :=
  (State.homeIndex_only Sub.refl Sub.refl Only.refl).regs_eq rfl

/-- An index event within tolerance shows so (R142). -/
theorem State.indexIn_lastOut (s : State) {n : Nat} (dev : Int) (inj : Bool) (hn : n < 64) :
    (s.indexIn n dev inj).bit R.FB_IDX_STAT_LAST_OUT n = false := by
  have shown := s.bit_setBit R.FB_IDX_STAT_LAST_OUT n false hn (by decide)
  unfold State.indexIn
  dsimp only
  split
  · exact shown
  · refine (State.bit_congr ?_).trans shown
    exact State.get_congr (s := (s.setBit R.FB_IDX_STAT_LAST_OUT n false).updChan n _) (State.moveLin_regs ..) _ _

/-- Aborting generators one after the other leaves the index status. -/
theorem State.abortGens_lastOut (s : State) (l : List Nat) (cause : Nat) {n : Nat} (hn : n < 64) :
    (l.foldl (fun t g => t.abortGen g cause) s).bit R.FB_IDX_STAT_LAST_OUT n = s.bit R.FB_IDX_STAT_LAST_OUT n := by
  have only := Only.foldl (s := s) (l := l) Only.refl fun _ g h => State.abortGen_only (a1 := g) (a2 := cause) Sub.refl Sub.refl h
  exact State.bit_congr (only.get_of_clear rfl (by decide +kernel) hn)

/-- An index event beyond tolerance shows so (R143). -/
theorem State.indexOut_lastOut (s : State) {n : Nat} (dev : Int) (inj : Bool) (hn : n < 64) :
    (s.indexOut n dev inj).bit R.FB_IDX_STAT_LAST_OUT n = true := by
  have shown : (((s.setBit R.FB_IDX_STAT_LAST_OUT n true).inc R.FB_ERR_INDEX_ERR n).unverify n).bit R.FB_IDX_STAT_LAST_OUT n = true := by
    refine (State.bit_congr ((State.unverify_only Sub.refl Sub.refl Only.refl).get_of_clear rfl (by decide +kernel) hn)).trans ?_
    refine (State.bit_set_far _ _ _ _ _ _ (by decide) (by decide) hn).trans ?_
    exact s.bit_setBit R.FB_IDX_STAT_LAST_OUT n true hn (by decide)
  have kept : ∀ u : State, u.regs = (((s.setBit R.FB_IDX_STAT_LAST_OUT n true).inc R.FB_ERR_INDEX_ERR n).unverify n).regs →
      u.bit R.FB_IDX_STAT_LAST_OUT n = true := fun u h => (State.bit_congr (State.get_congr h _ _)).trans shown
  unfold State.indexOut
  dsimp only
  split
  · rw [State.abortGens_lastOut _ _ _ hn]
    exact kept _ (by simp only [State.updChan_regs, State.post_regs])
  split
  · exact kept _ (by simp only [State.fault_regs, State.updChan_regs, State.post_regs])
  · exact kept _ (by simp only [State.updChan_regs, State.post_regs])

/-- The deviation of channel `n` from its expected count at an index event (R142). -/
def State.indexDev (s : State) (n : Nat) : Int :=
  ((s.chan n).lin % s.cpr n - s.get R.FB_IDX_EXP n + s.cpr n / 2) % s.cpr n - s.cpr n / 2

/-- A checked index event shows whether its deviation is out of tolerance (R142, R143). -/
theorem State.indexCheck_lastOut {s : State} {n : Nat} (key : s.bit R.INJ_STAT_KEY_LOADED = false)
    (valid : s.bit R.FB_IDX_CFG_IDX_VALID n = true) (hn : n < 64) :
    (s.indexCheck n).bit R.FB_IDX_STAT_LAST_OUT n = !decide ((s.indexDev n).natAbs ≤ s.get R.FB_IDX_CFG_INDEX_TOL n) := by
  have kept : ∀ (v : Int) (g : Field), R.FB_IDX_STAT_LAST_DEV.far g = true → n < g.count →
      ((s.updChan n fun c => { c with idxIn := true }).seti R.FB_IDX_STAT_LAST_DEV n v).get g n = s.get g n := fun _ _ far hg =>
    State.get_set_far _ _ _ _ _ _ (by decide) far hg
  have valid' := fun v => (State.bit_congr (kept v R.FB_IDX_CFG_IDX_VALID (by decide) hn)).trans valid
  unfold State.indexCheck
  dsimp only
  rw [State.inject_none _ _ _ key, State.bit_congr (State.get_congr (State.homeIndex_regs ..) ..)]
  simp only [valid', kept _ R.FB_IDX_CFG_INDEX_TOL (by decide) hn, Bool.not_true, Bool.false_eq_true, if_false]
  split
  next within => rw [State.indexIn_lastOut _ _ _ hn]; exact (congrArg not (decide_eq_true within)).symm
  next beyond => rw [State.indexOut_lastOut _ _ _ hn]; exact (congrArg not (decide_eq_false beyond)).symm

/-- A port's channel has a number of its own. -/
theorem State.portChan_lt {s : State} {m n : Nat} (h : s.portChan m = some n) : n < 64 := by
  unfold State.portChan at h
  split at h
  · exact List.mem_range.mp (List.mem_of_find?_eq_some h)
  · cases h

/-- An index event that its channel checks (R134, R142). -/
theorem State.indexEvent_checked {s : State} {m n : Nat} (mode : s.get R.DP_CFG_MODE m = 1)
    (spaced : ∀ b, (s.dport m).accZ = some b → b + 2 * (s.get R.DP_CFG_FILT m + 1) ≤ s.tick)
    (qualified : s.bit R.DP_CFG_Z_QUAL m = false ∨ (s.dport m).a = true ∧ (s.dport m).b = true) (chan : s.portChan m = some n)
    (en : s.bit R.FB_IDX_CFG_IDX_EN n = true) :
    s.indexEvent m = (((s.updDport m fun p => { p with accZ := some s.tick }).indexCheck n).relatch n) := by
  have chan' : ∀ f, (s.updDport m f).portChan m = some n := fun _ => chan
  have en' : ∀ f, (s.updDport m f).bit R.FB_IDX_CFG_IDX_EN n = true := fun _ => en
  have qual' : ∀ f, (s.updDport m f).bit R.DP_CFG_Z_QUAL m = s.bit R.DP_CFG_Z_QUAL m := fun _ => rfl
  unfold State.indexEvent
  dsimp only
  rw [if_neg, if_neg, chan']
  · dsimp only
    rw [if_pos (en' _)]
  · rw [qual']
    rcases qualified with h | ⟨ha, hb⟩
    · simp [h]
    · simp [ha, hb]
  · cases last : (s.dport m).accZ with
    | none => simp [mode]
    | some t => simpa [mode] using spaced t last

/-- Settles O21, form by form: what an accepted edge, a sample, an SSI frame and an index event leave. -/
theorem feedbackPorts : Obligations.FeedbackPorts := by
  unfold Obligations.FeedbackPorts
  refine ⟨fun m a b s mode key fa fb ta tb one => ?edge, fun m a b s mode key fa fb ta tb ha hb => ?quadErr,
    fun m uvw s old mode key acc ho change hold hnew => ?hall, fun m s n due mode chan fresh => ?sample,
    fun m s mode busy due recovered => ?start, fun m s n chan busy key waited => ?finish,
    fun m s n mode spaced qualified chan en key valid => ?index⟩
  case edge =>
    have change : ¬((s.dport m).a = a ∧ (s.dport m).b = b) := fun h =>
      one.elim (fun o => o.2 h.2) fun o => o.1 h.1
    have single : ¬((s.dport m).a ≠ a ∧ (s.dport m).b ≠ b) := fun h =>
      one.elim (fun o => h.1 o.1) fun o => h.2 o.2
    refine ⟨_, congrArg Host.Outcome.next (State.dpEdge_accepted mode key fa fb ta tb change), ?_⟩
    rw [if_neg single, State.countEdge_dport, State.dport_updDport, State.countEdge_count _ _ _ m.isLt]
    exact ⟨rfl, rfl, rfl⟩
  case quadErr =>
    refine ⟨_, congrArg Host.Outcome.next (State.dpEdge_accepted mode key fa fb ta tb fun h => ha h.1), ?_⟩
    rw [if_pos ⟨ha, hb⟩]
    exact State.quadErr_get _ false m.isLt
  case hall =>
    obtain rfl : old = (s.dport m).hall := ho
    refine ⟨_, congrArg Host.Outcome.next (State.hallEdge_accepted mode key acc change hold hnew), fun step => ?_, fun up down => ?_⟩
    · rw [if_pos step, State.countEdge_count _ _ _ m.isLt]
      rfl
    · rw [if_neg (not_or.mpr ⟨up, down⟩)]
      exact State.hallErr_get _ false m.isLt
  case sample =>
    refine ⟨_, congrArg Host.Outcome.next (State.dpSample_due due mode chan), ?_⟩
    rw [State.dport_updChan, State.dport_updDport, State.chan_updChan, State.chan_updDport, Chan.latch_fresh _ fresh]
    exact ⟨rfl, rfl, rfl, rfl⟩
  case start =>
    refine ⟨_, rfl, ?_⟩
    rw [State.ssiStart_dport mode busy due recovered]
    exact ⟨rfl, rfl, rfl, rfl⟩
  case finish =>
    obtain ⟨idle, clock, pend⟩ := State.ssiEnd_waited chan busy key waited
    refine ⟨_, rfl, idle, clock, pend.trans ?_⟩
    exact apply_ite some ..
  case index =>
    have hn := State.portChan_lt chan
    refine ⟨_, congrArg Host.Outcome.next (State.indexEvent_checked mode spaced qualified chan en), ?_⟩
    rw [State.bit_congr (State.get_congr (State.relatch_regs ..) ..)]
    exact State.indexCheck_lastOut (s := s.updDport m _) key valid hn

end Sys2Proof.Machine

/-! PROOFS of the feedback family. Channels: records, predictions, LOST and standstill (R129, R130, R141, R147 to R153). -/
namespace Sys2Proof.Machine

/-! ### The record -/

/-- The quality fields that a record shows (R130). -/
theorem State.recordQual_get (s : State) {n : Nat} (q : Qual) (c : Chan) (hn : n < 64) :
    (s.recordQual n q c).bit R.FB_QUAL_FRESH n = q.fresh ∧ (s.recordQual n q c).bit R.FB_QUAL_PREDICTED n = q.predicted
      ∧ (s.recordQual n q c).get R.FB_QUAL_INVALID_RUN n = min 3 c.run ∧ (s.recordQual n q c).get R.FB_QUAL_EDGES n = min q.edges 0xFFFF := by
  unfold State.recordQual
  dsimp only
  refine ⟨?fresh, ?predicted, ?run, ?edges⟩
  case fresh =>
    rw [State.bit_set_far _ _ _ _ _ _ (by decide) (by decide) hn, State.bit_set_far _ _ _ _ _ _ (by decide) (by decide) hn,
      State.bit_setBit_far _ _ _ _ _ _ (by decide) (by decide) hn]
    exact State.bit_setBit _ _ _ _ hn (by decide)
  case predicted =>
    rw [State.bit_set_far _ _ _ _ _ _ (by decide) (by decide) hn, State.bit_set_far _ _ _ _ _ _ (by decide) (by decide) hn]
    exact State.bit_setBit _ _ _ _ hn (by decide)
  case run =>
    rw [State.get_set_far _ _ _ _ _ _ (by decide) (by decide) hn]
    exact State.get_set_of_lt _ _ _ _ hn (by decide) (Nat.lt_of_le_of_lt (Nat.min_le_left ..) (by decide))
  case edges => exact State.get_set_of_lt _ _ _ _ hn (by decide) (Nat.lt_of_le_of_lt (Nat.min_le_right ..) (by decide))

/-- A record uses up the channel's sample and leaves its position and state (R129). -/
theorem State.record_chan (s : State) (n : Nat) (rep : Int) (q : Qual) :
    (s.record n rep q).chan n = { s.chan n with pend := none, obsTick := (s.chan n).sampleTick } := by
  have out := (State.recordOut_only (a1 := n) Sub.refl Sub.refl (Only.refl (s := s.recordRegs n rep q))).fb rfl
  have pos := (State.recordPos_only (a1 := n) (a2 := rep) Sub.refl Sub.refl (Only.refl (s := s))).fb rfl
  have qual := (State.recordQual_only (a1 := n) (a2 := q) (a3 := s.chan n) Sub.refl Sub.refl (Only.refl (s := s.recordPos n rep))).fb rfl
  rw [State.record, State.chan_congr out, State.recordRegs, State.chan_updChan, State.chan_congr qual, State.chan_congr pos]

/-- The quality fields of a record stand in the channel's registers. -/
theorem State.record_qual (s : State) {n : Nat} (rep : Int) (q : Qual) (hn : n < 64) :
    (s.record n rep q).bit R.FB_QUAL_FRESH n = q.fresh ∧ (s.record n rep q).bit R.FB_QUAL_PREDICTED n = q.predicted
      ∧ (s.record n rep q).get R.FB_QUAL_INVALID_RUN n = min 3 (s.chan n).run
      ∧ (s.record n rep q).get R.FB_QUAL_EDGES n = min q.edges 0xFFFF := by
  have out := State.recordOut_only (a1 := n) Sub.refl Sub.refl (Only.refl (s := s.recordRegs n rep q))
  have fresh := State.bit_congr (out.get_of_clear (g := R.FB_QUAL_FRESH) rfl (by decide +kernel) hn)
  have predicted := State.bit_congr (out.get_of_clear (g := R.FB_QUAL_PREDICTED) rfl (by decide +kernel) hn)
  have run := out.get_of_clear (g := R.FB_QUAL_INVALID_RUN) rfl (by decide +kernel) hn
  have edges := out.get_of_clear (g := R.FB_QUAL_EDGES) rfl (by decide +kernel) hn
  have regs : (s.recordRegs n rep q).regs = ((s.recordPos n rep).recordQual n q (s.chan n)).regs := State.updChan_regs ..
  rw [State.record, fresh, predicted, run, edges, State.bit_congr (State.get_congr regs ..), State.bit_congr (State.get_congr regs ..),
    State.get_congr regs, State.get_congr regs]
  exact State.recordQual_get (s.recordPos n rep) q (s.chan n) hn

/-- A record leaves the count of invalid samples. -/
theorem State.record_errInvalid (s : State) {n : Nat} (rep : Int) (q : Qual) (hn : n < 64) :
    (s.record n rep q).get R.FB_ERR_INVALID n = s.get R.FB_ERR_INVALID n :=
  (State.record_only Sub.refl Sub.refl Only.refl).get_of_clear rfl (by decide +kernel) hn

/-! ### The observer -/

/-- Storing observer states leaves the run of invalid samples. -/
theorem State.storeObs_run (s : State) (n : Nat) (p v a : Rat) : ((s.storeObs n p v a).1.chan n).run = (s.chan n).run := by
  unfold State.storeObs
  dsimp only
  rw [State.chan_updChan]

/-- An evaluation of the observer stores observer states and does nothing else (R147). -/
theorem State.observe_storeObs (s : State) (n st : Nat) (lin rep : Int) (m : Msr) :
    ∃ p v a, s.observe n st lin rep m = s.storeObs n p v a := by
  unfold State.observe
  dsimp only
  split
  · exact ⟨_, _, _, rfl⟩
  · cases m with
    | none =>
      dsimp only
      split
      · exact ⟨_, _, _, rfl⟩
      · exact ⟨_, _, _, rfl⟩
    | pos => exact ⟨_, _, _, rfl⟩
    | edge => exact ⟨_, _, _, rfl⟩
    | inside => exact ⟨_, _, _, rfl⟩

theorem State.observe_run (s : State) (n st : Nat) (lin rep : Int) (m : Msr) :
    ((s.observe n st lin rep m).1.chan n).run = (s.chan n).run := by
  obtain ⟨p, v, a, h⟩ := s.observe_storeObs n st lin rep m
  rw [h, State.storeObs_run]

theorem State.observe_regs (s : State) (n st : Nat) (lin rep : Int) (m : Msr) : (s.observe n st lin rep m).1.regs = s.regs :=
  (State.observe_only Sub.refl Sub.refl Only.refl).regs_eq rfl

/-! ### Updates -/

/-- A counted sample without a measurement: one more invalid sample, and the channel delivers nothing (R152). -/
def State.countMissed (s : State) (n : Nat) : State :=
  ((s.inc R.FB_ERR_INVALID n).updChan n fun c => { c with run := c.run + 1 }).updChan n fun c => { c with live := false }

theorem State.countMissed_run (s : State) (n : Nat) : ((s.countMissed n).chan n).run = (s.chan n).run + 1 := by
  rw [State.countMissed, State.chan_updChan, State.chan_updChan, State.chan_inc]

theorem State.countMissed_errInvalid (s : State) {n : Nat} (hn : n < 64) :
    (s.countMissed n).get R.FB_ERR_INVALID n = min (s.get R.FB_ERR_INVALID n + 1) R.FB_ERR_INVALID.top := by
  rw [State.countMissed, State.get_updChan, State.get_updChan]
  exact s.get_inc _ _ hn (by decide)

/-- A counted sample without a measurement is recorded as predicted from the observer's prediction. -/
theorem State.predict_eq (s : State) (n : Nat) : ∃ st lin rep sat,
    s.predict n true = ((s.countMissed n).observe n st lin rep .none).1.record n rep { st := st, predicted := true, sat := sat } := by
  unfold State.predict
  rw [if_pos rfl]
  exact ⟨_, _, _, _, rfl⟩

/-- A serial word that passes the jump test is recorded as fresh. -/
theorem State.serialUpdate_eq {s : State} {n v : Nat} (h : (s.jumpTest n (s.serialWord n v)).2 = false) : ∃ u st rep sat,
    s.serialUpdate n v = State.record u n rep { st := st, fresh := true, sat := sat } := by
  unfold State.serialUpdate
  dsimp only
  rw [h, if_neg Bool.false_ne_true]
  exact ⟨_, _, _, _, rfl⟩

/-- A latch is recorded with its edges, as predicted where the channel reverses. -/
theorem State.portUpdate_eq (s : State) (n k : Nat) (b2 : Int) (dt : Nat) (seed : Option (Int × Nat × Int × Nat)) (lin rep : Int) (st : Nat)
    (idx : Bool) : ∃ u q, s.portUpdate n k b2 dt seed lin rep st idx = State.record u n rep q ∧ q.edges = k ∧ q.predicted = decide (st = 3) :=
  ⟨_, _, rfl, rfl, rfl⟩

/-! ### LOST -/

/-- A channel on its way to LOST: no speed, no word, nothing delivered (R152). -/
def Chan.lose (c : Chan) : Chan := { c with st := 4, vh := 0, ah := 0, word := none, afterLost := true, seed := none, live := false }

/-- Clearing HOMED leaves the channels. -/
theorem State.unhome_chan (s : State) (n k : Nat) : (s.unhome n).chan k = s.chan k :=
  State.chan_congr ((State.unhome_only Sub.refl Sub.refl Only.refl).fb rfl) k

/-- Registers decide the arm group of a channel and its reaction. -/
theorem State.chanMask_congr {s t : State} (h : t.regs = s.regs) (n : Nat) : t.chanMask n = s.chanMask n := by
  unfold State.chanMask State.groupMaskOf State.groupOf State.groupTillers State.bit State.get
  rw [h]

theorem State.lossReact_congr {s t : State} (h : t.regs = s.regs) (n : Nat) : t.lossReact n = s.lossReact n := by
  unfold State.lossReact State.get
  rw [h]

/-- A channel that was not LOST becomes so, with its escalation on the arm group of its Tiller, if there is one (R152). -/
theorem State.loseChan_eq {s : State} {n : Nat} (h : (s.chan n).lost = false) : ∃ u : State, u.chan n = (s.chan n).lose ∧
    s.loseChan n = if u.chanMask n = 0 then u else u.fault (u.chanMask n) (u.lossReact n) Ev.fbLost (some n) 2 := by
  have posted : ∀ (x : State) (e : Bool), (x.post Ev.fbLost .fault (some n) [] e).regs = x.regs := fun _ _ => rfl
  refine ⟨((s.updChan n Chan.lose).unhome n).post Ev.fbLost .fault (some n) [] (decide (((s.updChan n Chan.lose).unhome n).chanMask n ≠ 0)), ?_, ?_⟩
  · rw [State.chan_post, State.unhome_chan, State.chan_updChan]
  · rw [State.chanMask_congr (posted ..), State.loseChan, if_neg (Bool.eq_false_iff.mp h)]
    rfl

end Sys2Proof.Machine

/-! PROOFS of the feedback family. FB_CLEAR and the emulation outputs (R145, R153, R156). -/
namespace Sys2Proof.Machine

/-! ### FB_CLEAR -/

/-- FB_CLEAR takes channel `n` out of LOST (R153). -/
def State.revive (s : State) (n : Nat) (serial : Bool) : State :=
  if (s.chan n).lost then s.updChan n fun c => { c with st := if serial then 2 else 0, run := 0, lastEdge := none } else s

/-- FB_CLEAR with VERIFY clears UNVERIFIED (R145). -/
def State.verifyChan (s : State) (n : Nat) (verify : Bool) : State :=
  if verify then s.updChan n fun c => { c with unver := false, holdIdx := false } else s

/-- FB_CLEAR with a new expected index count makes it valid (R145). -/
def State.newIndex (s : State) (n : Nat) (given : Bool) (v : Nat) : State :=
  if given then ((s.set R.FB_IDX_EXP n v).setBit R.FB_IDX_CFG_IDX_VALID n true).updChan n fun c => { c with lastOut := none } else s

theorem State.revive_lost (s : State) (n : Nat) (serial : Bool) : ((s.revive n serial).chan n).lost = false := by
  unfold State.revive
  split
  · rw [State.chan_updChan]
    cases serial <;> rfl
  next alive => exact Bool.eq_false_iff.mpr alive

theorem State.verifyChan_lost (s : State) (n : Nat) (verify : Bool) : ((s.verifyChan n verify).chan n).lost = (s.chan n).lost := by
  unfold State.verifyChan
  split
  · rw [State.chan_updChan]
    rfl
  · rfl

theorem State.verifyChan_unver (s : State) (n : Nat) : ((s.verifyChan n true).chan n).unver = false := by
  rw [State.verifyChan, if_pos rfl, State.chan_updChan]

/-- A new expected index count leaves whether the channel is LOST or UNVERIFIED. -/
theorem State.newIndex_chan (s : State) (n : Nat) (given : Bool) (v : Nat) :
    ((s.newIndex n given v).chan n).lost = (s.chan n).lost ∧ ((s.newIndex n given v).chan n).unver = (s.chan n).unver := by
  unfold State.newIndex
  split
  · rw [State.chan_updChan, State.chan_setBit, State.chan_set]
    exact ⟨rfl, rfl⟩
  · exact ⟨rfl, rfl⟩

theorem State.newIndex_valid (s : State) {n : Nat} (v : Nat) (hn : n < 64) :
    (s.newIndex n true v).bit R.FB_IDX_CFG_IDX_VALID n = true := by
  rw [State.newIndex, if_pos rfl]
  exact State.bit_setBit _ _ _ _ hn (by decide)

/-- The action of FB_CLEAR on a channel that is not LOST, or whose source delivers. -/
theorem State.doFbClear_eq {s : State} {d : Desc} (h : (s.chan (d.bits 4 5 0)).lost = false ∨ s.delivering (d.bits 4 5 0) = true) :
    ∃ serial, s.doFbClear d =
      ((((s.mirrorDesc d).revive (d.bits 4 5 0) serial).verifyChan (d.bits 4 5 0) (hasBit (d.word 5) 0)).newIndex (d.bits 4 5 0)
        (hasBit (d.word 5) 1) (d.word 6)).completeDesc d {} := by
  unfold State.doFbClear
  dsimp only
  rw [if_neg (by rcases h with h | h <;> simp [h])]
  exact ⟨_, rfl⟩

/-- FB_CLEAR names one of the 64 channels. -/
theorem Desc.chan_lt (d : Desc) : d.bits 4 5 0 < 64 := Nat.mod_lt _ (by decide)

/-- Completing a descriptor leaves the feedback block. -/
theorem State.completeDesc_fb (s : State) (d : Desc) (r : Done) : (s.completeDesc d r).fb = s.fb :=
  (State.completeDesc_only Sub.refl Sub.refl Only.refl).fb rfl

/-- With the lease held, FB_CLEAR's gate lets its action run (R378). -/
theorem holderGate_holder {s : State} (h : s.notHolder = false) (e : Desc) : holderGate s e = {} := by
  rw [holderGate, h]

/-! ### Emulation outputs -/

/-- Driving an output's pins leaves the edges it has to issue. -/
theorem State.eoPins_total (s : State) (k : Nat) : ((s.eoPins k).emul k).total = (s.emul k).total := by
  unfold State.eoPins
  dsimp only
  rw [State.emul_updEmul]

theorem State.eoPins_regs (s : State) (k : Nat) : (s.eoPins k).regs = s.regs :=
  (State.eoPins_only Sub.refl Sub.refl Only.refl).regs_eq rfl

/-- An output enabled starts without LOST, without a backlog and without edges (R156). -/
theorem State.eoEnable_off {s : State} {k : Nat} (h : s.bit R.EO_CFG_EN k = false) (hk : k < 4) :
    (s.eoEnable k).bit R.EO_CFG_EN k = true ∧ (s.eoEnable k).bit R.EO_CFG_LOST k = false ∧ (s.eoEnable k).get R.EO_STAT_BACKLOG k = 0
      ∧ ((s.eoEnable k).emul k).total = 0 := by
  have kept : ∀ x : State, ∀ f, ((x.updEmul k f).eoPins k).regs = x.regs := fun x f => State.eoPins_regs ..
  unfold State.eoEnable
  rw [if_neg (by simp [h])]
  dsimp only
  refine ⟨?en, ?lost, ?backlog, ?total⟩
  case en =>
    rw [State.bit_congr (State.get_congr (kept ..) ..), State.bit_set_far _ _ _ _ _ _ (by decide) (by decide) hk,
      State.bit_setBit_far _ _ _ _ _ _ (by decide) (by decide) hk]
    exact State.bit_setBit _ _ _ _ hk (by decide)
  case lost =>
    rw [State.bit_congr (State.get_congr (kept ..) ..), State.bit_set_far _ _ _ _ _ _ (by decide) (by decide) hk]
    exact State.bit_setBit _ _ _ _ hk (by decide)
  case backlog =>
    rw [State.get_congr (kept ..)]
    exact State.get_set _ _ _ _ hk (by decide)
  case total => rw [State.eoPins_total, State.emul_updEmul]

/-- Settles O22, form by form: updates, LOST, standstill, emulation outputs and FB_CLEAR. -/
theorem feedbackChannels : Obligations.FeedbackChannels := by
  unfold Obligations.FeedbackChannels
  refine ⟨fun n s pend => ?idle, fun n s pend => ?missing, fun n s v pend pass => ?word,
    fun n s k b2 dt seed lin rep st idx pend => ?port, fun n s run alive => ?lost, fun n s calm => ?notLost,
    fun n s b last st kind still => ?standstill, fun k s off => ?emulation, fun d e s ready holder lost dead => ?refused,
    fun d e s ready holder ok => ?cleared⟩
  case idle => exact congrArg Host.Outcome.next (by rw [State.fbUpdate, pend])
  case missing =>
    have update : s.fbUpdate n.val = s.predict n.val true := by rw [State.fbUpdate, pend]
    obtain ⟨st, lin, rep, sat, h⟩ := s.predict_eq n.val
    refine ⟨_, congrArg Host.Outcome.next (update.trans h), ?_⟩
    obtain ⟨fresh, predicted, run, -⟩ := State.record_qual ((s.countMissed n.val).observe n.val st lin rep .none).1 rep
      { st := st, predicted := true, sat := sat } n.isLt
    rw [State.record_chan, State.observe_run, State.countMissed_run, predicted, fresh, run, State.observe_run, State.countMissed_run,
      State.record_errInvalid _ _ _ n.isLt, State.get_congr (State.observe_regs ..), State.countMissed_errInvalid _ n.isLt]
    exact ⟨rfl, rfl, rfl, rfl, rfl, rfl⟩
  case word =>
    have update : s.fbUpdate n.val = s.serialUpdate n.val v := by rw [State.fbUpdate, pend]
    obtain ⟨u, st, rep, sat, h⟩ := State.serialUpdate_eq pass
    obtain ⟨fresh, predicted, -, -⟩ := u.record_qual rep { st := st, fresh := true, sat := sat } n.isLt
    exact ⟨_, congrArg Host.Outcome.next (update.trans h), congrArg Chan.pend (State.record_chan ..), fresh, predicted⟩
  case port =>
    have update : s.fbUpdate n.val = s.portUpdate n.val k b2 dt seed lin rep st idx := by rw [State.fbUpdate, pend]
    obtain ⟨u, q, h, hk, hp⟩ := s.portUpdate_eq n.val k b2 dt seed lin rep st idx
    obtain ⟨-, predicted, -, edges⟩ := u.record_qual rep q n.isLt
    rw [hp] at predicted
    rw [hk] at edges
    exact ⟨_, congrArg Host.Outcome.next (update.trans h), congrArg Chan.pend (State.record_chan ..), edges, predicted⟩
  case lost =>
    have tested : s.lostTest n.val = s.loseChan n.val := if_pos run
    obtain ⟨u, hu, h⟩ := State.loseChan_eq alive
    refine ⟨_, congrArg Host.Outcome.next (tested.trans h), ?_⟩
    split
    next alone =>
      rw [hu]
      exact ⟨rfl, rfl, rfl, fun grouped => absurd alone grouped⟩
    next =>
      have chan : (u.fault (u.chanMask n.val) (u.lossReact n.val) Ev.fbLost (some n.val) 2).chan n.val = (s.chan n.val).lose := hu
      rw [chan]
      refine ⟨rfl, rfl, rfl, fun _ => ?_⟩
      rw [State.chanMask_congr (State.fault_regs ..), State.lossReact_congr (State.fault_regs ..), State.fault, List.getLast?_concat]
      rfl
  case notLost =>
    refine congrArg Host.Outcome.next ?_
    show s.lostTest n.val = s
    unfold State.lostTest State.loseChan
    rcases calm with few | lost
    · rw [if_neg (by omega)]
    · rw [if_pos lost, ite_self]
  case standstill =>
    have halted : s.standstillFb n.val = s.updChan n.val fun c => { c with st := 0, ph := c.lin * 2 ^ 32, vh := 0, ah := 0, seed := none } := by
      unfold State.standstillFb
      dsimp only
      rw [last]
      exact if_pos ⟨st, kind, still⟩
    refine ⟨_, congrArg Host.Outcome.next halted, ?_⟩
    rw [State.chan_updChan]
    exact ⟨rfl, rfl, rfl, rfl⟩
  case emulation => exact ⟨_, rfl, State.eoEnable_off off k.isLt⟩
  case refused =>
    have run := State.action_ready ready holderGate State.doFbClear (holderGate_holder holder e)
    have refused : (s.startDesc e).doFbClear e = (s.startDesc e).completeDesc e { reason := 1 } := by
      refine if_pos ?_
      show ((s.chan (e.bits 4 5 0)).lost && !s.delivering (e.bits 4 5 0)) = true
      rw [lost, dead]
      rfl
    exact ⟨_, congrArg Host.Outcome.next (run.trans refused), State.completeDesc_closed _ _ _, State.completeDesc_fb ..⟩
  case cleared =>
    have run := State.action_ready ready holderGate State.doFbClear (holderGate_holder holder e)
    obtain ⟨serial, h⟩ := State.doFbClear_eq (s := s.startDesc e) ok
    refine ⟨_, congrArg Host.Outcome.next (run.trans h), State.completeDesc_closed _ _ _, ?_⟩
    rw [State.chan_congr (State.completeDesc_fb ..)]
    refine ⟨?_, fun verify => ?_, fun given => ?_⟩
    · rw [(State.newIndex_chan ..).1, State.verifyChan_lost, State.revive_lost]
    · rw [(State.newIndex_chan ..).2, verify, State.verifyChan_unver]
    · refine (State.bit_congr ((State.completeDesc_only Sub.refl Sub.refl Only.refl).get_of_clear rfl (by decide +kernel) e.chan_lt)).trans ?_
      rw [given]
      exact State.newIndex_valid _ _ e.chan_lt

end Sys2Proof.Machine

/-! PROOFS of the solver family. Frames of the solver, separation and scheduler commands (R241 to R306). -/
namespace Sys2Proof.Machine

/-- Settles O56: each command's footprint, with the parts and fields of its masks named. -/
theorem frameSolver : Obligations.FrameSolver := by
  unfold Obligations.FrameSolver
  exact ⟨fun _ => touches_of_only (fun _ => execSolveEnd_only Sub.refl Sub.refl) (by decide +kernel),
    fun _ _ _ => touches_of_only (fun _ => execSolveCut_only Sub.refl Sub.refl) (by decide +kernel),
    fun _ => touches_of_only (fun _ => execSvStopReq_only Sub.refl Sub.refl) (by decide +kernel),
    fun _ => touches_of_only (fun _ => execForceColdWrite_only Sub.refl Sub.refl) (by decide +kernel),
    fun _ => touches_of_only (fun _ => execSepProtectionEnd_only Sub.refl Sub.refl) (by decide +kernel),
    touches_of_only (fun _ => execSepRowsEnd_only Sub.refl Sub.refl) (by decide +kernel),
    touches_of_only (fun _ => execSepGeomFail_only Sub.refl Sub.refl) (by decide +kernel),
    touches_of_only (fun _ => execBvPoseStart_only Sub.refl Sub.refl) (by decide +kernel),
    touches_of_only (fun _ => execBvComparison_only Sub.refl Sub.refl) (by decide +kernel),
    touches_of_only (fun _ => execSepBvMissed_only Sub.refl Sub.refl) (by decide +kernel),
    fun _ => touches_of_only (fun _ => execBvDelayExpiry_only Sub.refl Sub.refl) (by decide +kernel),
    fun _ => touches_of_only (fun _ => execSepBvSs1_only Sub.refl Sub.refl) (by decide +kernel),
    touches_of_only (fun _ => execSchedulerTick_only Sub.refl Sub.refl) (by decide +kernel),
    fun _ => touches_of_only (fun _ => execTaskReleaseCycle_only Sub.refl Sub.refl) (by decide +kernel),
    fun _ => touches_of_only (fun _ => execTaskReleaseDemand_only Sub.refl Sub.refl) (by decide +kernel),
    fun _ => touches_of_only (fun _ => execJobDispatchReserved_only Sub.refl Sub.refl) (by decide +kernel),
    touches_of_only (fun _ => execEdfRound_only Sub.refl Sub.refl) (by decide +kernel),
    fun _ => touches_of_only (fun _ => execDeadlineMiss_only Sub.refl Sub.refl) (by decide +kernel)⟩

end Sys2Proof.Machine

/-! PROOFS of the solver family. What an outcome leaves of an engine, and that the jobs which start or end with it leave that alone. -/
namespace Sys2Proof.Machine

/-! ### Engines after updates -/

@[simp] theorem State.eng_updEng (s : State) (e : Nat) (f : Engine → Engine) : (s.updEng e f).eng e = f (s.eng e) := Tab.get_upd_self ..

theorem State.eng_congr {s t : State} (h : t.sv = s.sv) (e : Nat) : t.eng e = s.eng e := by
  rw [State.eng, State.eng, h]

/-- What outcomes decide of an engine: the plan kept, the plan prepared, both runs, and whether it has solved. -/
structure Standing where
  kept : Option Kept
  prep : Kept
  fbRun : Nat
  infRun : Nat
  solvedOnce : Bool

/-- The standing that an engine's fields hold. -/
def Engine.standing (x : Engine) : Standing :=
  { kept := x.kept, prep := x.prep, fbRun := x.fbRun, infRun := x.infRun, solvedOnce := x.solvedOnce }

/-- The standing of engine `e`. -/
def State.standing (s : State) (e : Nat) : Standing := (s.eng e).standing

theorem State.standing_congr {s t : State} (h : t.sv = s.sv) (e : Nat) : t.standing e = s.standing e :=
  congrArg Engine.standing (State.eng_congr h e)

/-- An update of any engine that keeps what its outcomes decide. -/
theorem State.updEng_standing (s : State) (k e : Nat) {f : Engine → Engine} (h : ∀ x, (f x).standing = x.standing) :
    (s.updEng k f).standing e = s.standing e := by
  unfold State.standing
  by_cases same : e = k
  · rw [same, State.eng_updEng]
    exact h _
  · exact congrArg Engine.standing ((Tab.get_upd ..).trans (if_neg same))

/-! ### Jobs leave the standing of every engine -/

theorem State.inject_sv (s : State) (idx inst : Nat) : (s.inject idx inst).2.sv = s.sv :=
  (State.inject_only Sub.refl Sub.refl Only.refl).sv rfl

/-- A detector leaves the engines alone when its action does. -/
theorem State.detect_sv (s : State) (idx inst : Nat) (cond : Bool) {f : Bool → State → State} (h : ∀ b u, (f b u).sv = u.sv) :
    (s.detect idx inst cond f).sv = s.sv := by
  have fired := s.inject_sv idx inst
  unfold State.detect
  split
  next t found =>
    rw [found] at fired
    exact (h true t).trans fired
  next t found =>
    rw [found] at fired
    split
    · exact (h false t).trans fired
    · exact fired

theorem State.askGrant_standing (s : State) (k e : Nat) (fits : Bool) : (s.askGrant k fits).standing e = s.standing e := by
  unfold State.askGrant
  split
  · rfl
  · split
    · exact s.updEng_standing k e fun _ => rfl
    · rfl

/-- A solve that starts keeps the plan and the runs of the outcomes before it. -/
theorem State.solveStart_standing (s : State) (k e : Nat) (fits : Bool) : (s.solveStart k fits).standing e = s.standing e := by
  unfold State.solveStart
  extract_lets target tt d x cold st x0 s1 s2
  have begun : s2.standing e = s.standing e := s.updEng_standing k e fun _ => rfl
  split
  · exact (State.askGrant_standing ..).trans begun
  · exact begun

theorem State.startUnit_standing (s : State) (i e : Nat) : (s.startUnit i).standing e = s.standing e := by
  unfold State.startUnit
  dsimp only
  split
  · exact State.standing_congr ((State.tillerStart_only Sub.refl Sub.refl Only.refl).sv rfl) e
  · split
    · exact State.solveStart_standing ..
    · rfl

theorem State.dispatch_standing (s : State) (i e : Nat) : (s.dispatch i).standing e = s.standing e :=
  State.startUnit_standing ..

theorem State.reservedDispatch_standing (s : State) (i e : Nat) : (s.reservedDispatch i).standing e = s.standing e := by
  refine (State.dispatch_standing ..).trans (State.standing_congr (State.detect_sv _ _ _ _ fun _ _ => ?_) e)
  rfl

theorem State.release_standing (s : State) (i tag head e : Nat) : (s.release i tag head).standing e = s.standing e :=
  State.standing_congr ((State.release_only Sub.refl Sub.refl Only.refl).sv rfl) e

/-- A fold leaves the standing of an engine that each of its steps leaves. -/
theorem State.foldl_standing {α : Type} (f : State → α → State) (e : Nat) (h : ∀ u a, (f u a).standing e = u.standing e)
    (l : List α) (s : State) : (l.foldl f s).standing e = s.standing e := by
  induction l generalizing s with
  | nil => rfl
  | cons a l ih => exact (ih (f s a)).trans (h s a)

/-- The end of a job, with the start of its chain's successors, leaves the standing of every engine. -/
theorem State.jobEnd_standing (s : State) (i e : Nat) : (s.jobEnd i).standing e = s.standing e := by
  unfold State.jobEnd
  split
  · rfl
  · extract_lets head s1
    have late : s1.sv = s.sv := (State.lateEnd_only Sub.refl Sub.refl Only.refl).sv rfl
    have ended : (s1.clearJob i).standing e = s.standing e :=
      State.standing_congr (((State.clearJob_only Sub.refl Sub.refl Only.refl).sv rfl).trans late) e
    refine (State.foldl_standing _ e (fun u j => ?_) _ _).trans ended
    dsimp only
    split
    · split
      · exact (State.reservedDispatch_standing ..).trans (State.release_standing ..)
      · exact (State.dispatch_standing ..).trans (State.release_standing ..)
    · exact State.release_standing ..

theorem State.unitEnd_standing (s : State) (u e : Nat) : (s.unitEnd u).standing e = s.standing e := by
  unfold State.unitEnd
  split
  · exact State.jobEnd_standing ..
  · rfl

theorem State.unitEnd_status (s : State) (u : Nat) {e : Nat} (he : e < 9) : (s.unitEnd u).get R.SV_STATUS e = s.get R.SV_STATUS e :=
  (State.unitEnd_only Sub.refl Sub.refl Only.refl).get_of_clear rfl (by decide +kernel) he

end Sys2Proof.Machine

/-! PROOFS of the solver family. The delivery of an outcome (R249 to R253, R257, R266). -/
namespace Sys2Proof.Machine

/-! ### The status word -/

theorem State.outcomeOf_lt (s : State) {e cause : Nat} (h : cause < 11) : s.outcomeOf e cause < 11 := by
  unfold State.outcomeOf
  split <;> omega

/-- A solved outcome is never shown as HOLD. -/
theorem State.outcomeOf_solved (s : State) {e cause : Nat} (h : s.outcomeOf e cause < 3) : cause < 3 := by
  unfold State.outcomeOf at h
  split at h <;> omega

theorem State.outcomeOf_congr {s u : State} {e : Nat} (h : u.standing e = s.standing e) (cause : Nat) :
    u.outcomeOf e cause = s.outcomeOf e cause := by
  have solved : (u.eng e).solvedOnce = (s.eng e).solvedOnce := congrArg Standing.solvedOnce h
  rw [State.outcomeOf, State.outcomeOf, solved]

/-- The outcome is the low item of the status word (R257). -/
theorem State.statusWord_outcome (s : State) (e phase iter : Nat) (stop : Bool) {o : Nat} (h : o < 16) :
    (s.statusWord e o phase iter stop).toNat % 16 = o := by
  unfold State.statusWord
  have flag : ∀ (c : Bool) (i : Nat), 4 ≤ i → (if c then 2 ^ i else 0) % 16 = 0 := by
    intro c i hi
    obtain ⟨k, rfl⟩ := Nat.exists_eq_add_of_le hi
    cases c
    · rfl
    · simp [Nat.pow_add]
  have f4 := flag (s.eng e).cold 4 (by omega)
  have f5 := flag (s.eng e).granted 5 (by omega)
  have f6 := flag (s.eng e).lostInput 6 (by omega)
  have f7 := flag stop 7 (by omega)
  simp only [item, BitVec.toNat_ofNat]
  omega

/-! ### The two halves of a delivery -/

/-- The first half of a delivery: the runs, the output, the plan kept, and the status word. -/
def State.giveOutcome (s : State) (e outcome phase iter : Nat) (p : Kept) : State :=
  let bodies := s.bodiesOf e outcome p
  let ran := (s.eng e).running
  let s := s.updEng e fun x => x.count outcome
  let s := s.settleStop e
  let w := s.statusWord e outcome phase iter ((s.eng e).stopReq || (s.persists e && (s.eng e).stopArmed))
  let s := if e < 8 then s.writeBlocks e bodies w else s.writeCe p
  let s := s.keepPlan e p (if ran then (s.eng e).last else (s.eng e).keptDesc)
  s.set R.SV_STATUS e w.toNat

/-- The second half: the counters and the figures of the solve, and the end of its job. -/
def State.closeSolve (s : State) (e outcome iter raised : Nat) (ran : Bool) : State :=
  let s := s.countOutcome e outcome
  let s := s.set R.SV_ITER_STAT_ITER_LAST e iter
  let s := s.set R.SV_ITER_STAT_PIV_FLOORS e (min raised 255)
  let s := if raised = 0 then s else s.inc R.SV_COUNT_PIV_FLOOR e
  let t := min (s.tick - (s.eng e).start) 0xFFFF
  let s := if ran then (s.set R.SV_RUN_LAST e t).raiseTo R.SV_RUN_MAX e t else s
  (s.updEng e fun x => { x with running := false }).unitEnd (0x40 + e)

/-- The plan that goes with an outcome: the solved one, or the fallback. -/
def State.planFor (s : State) (e outcome : Nat) (plan : Kept) : Kept := if outcome < 3 then plan else s.fallback e

theorem State.deliver_eq (s : State) (e cause phase iter raised : Nat) (plan : Kept) :
    s.deliver e cause phase iter raised plan =
      (s.giveOutcome e (s.outcomeOf e cause) phase iter (s.planFor e (s.outcomeOf e cause) plan)).closeSolve e (s.outcomeOf e cause) iter raised
        (s.eng e).running := rfl

theorem State.settleStop_standing (s : State) (e : Nat) : (s.settleStop e).standing e = s.standing e := by
  unfold State.settleStop
  dsimp only
  split
  · exact s.updEng_standing e e fun _ => rfl
  · rfl

/-- A plan that is kept stands beside the plan prepared with it. -/
theorem State.keepPlan_standing (s : State) (e : Nat) (p : Kept) (desc : Option (List Word)) :
    ∃ next, (s.keepPlan e p desc).standing e = { s.standing e with kept := some p, prep := next } := by
  refine ⟨if e < 8 then s.shiftKept p else {}, ?_⟩
  simp only [State.keepPlan, State.standing, Engine.standing, State.eng_updEng]

/-- What the first half leaves of the engine: the plan kept, and the runs counted. -/
theorem State.giveOutcome_standing (s : State) (e outcome phase iter : Nat) (p : Kept) :
    ∃ next, (s.giveOutcome e outcome phase iter p).standing e =
      { kept := some p, prep := next, fbRun := ((s.eng e).count outcome).fbRun, infRun := ((s.eng e).count outcome).infRun
        solvedOnce := ((s.eng e).count outcome).solvedOnce } := by
  unfold State.giveOutcome
  extract_lets bodies ran s1 s2 w s3 s4
  have written : s3.standing e = s2.standing e := by
    show (if e < 8 then s2.writeBlocks e bodies w else s2.writeCe p).standing e = s2.standing e
    split
    · exact State.standing_congr ((State.writeBlocks_only Sub.refl Sub.refl Only.refl).sv rfl) e
    · exact State.standing_congr ((State.writeCe_only Sub.refl Sub.refl Only.refl).sv rfl) e
  have engine : s1.eng e = (s.eng e).count outcome := State.eng_updEng ..
  obtain ⟨next, kept⟩ := s3.keepPlan_standing e p (if ran then (s3.eng e).last else (s3.eng e).keptDesc)
  refine ⟨next, kept.trans ?_⟩
  rw [written.trans (s1.settleStop_standing e), State.standing, engine]
  rfl

/-- The first half shows the outcome. -/
theorem State.giveOutcome_status (s : State) {e outcome : Nat} (phase iter : Nat) (p : Kept) (he : e < 9) (ho : outcome < 16) :
    (s.giveOutcome e outcome phase iter p).get R.SV_STATUS e % 16 = outcome := by
  unfold State.giveOutcome
  extract_lets bodies ran s1 s2 w s3 s4
  rw [State.get_set_of_lt _ _ _ _ he (by decide) w.isLt]
  exact s2.statusWord_outcome e phase iter _ ho

theorem State.countOutcome_sv (s : State) (e outcome : Nat) : (s.countOutcome e outcome).sv = s.sv :=
  (State.countOutcome_only Sub.refl Sub.refl Only.refl).sv rfl

theorem State.closeSolve_standing (s : State) (e outcome iter raised : Nat) (ran : Bool) :
    (s.closeSolve e outcome iter raised ran).standing e = s.standing e := by
  unfold State.closeSolve
  extract_lets s1 s2 s3 s4 t s5
  have figures : s5.sv = s1.sv := by
    have floors : s4.sv = s3.sv := by
      show (if raised = 0 then s3 else s3.inc R.SV_COUNT_PIV_FLOOR e).sv = s3.sv
      split <;> rfl
    refine Eq.trans ?_ floors
    show (if ran then (s4.set R.SV_RUN_LAST e t).raiseTo R.SV_RUN_MAX e t else s4).sv = s4.sv
    split <;> rfl
  calc ((s5.updEng e fun x => { x with running := false }).unitEnd (0x40 + e)).standing e
      = (s5.updEng e fun x => { x with running := false }).standing e := State.unitEnd_standing ..
    _ = s5.standing e := s5.updEng_standing e e fun _ => rfl
    _ = s.standing e := State.standing_congr (figures.trans (s.countOutcome_sv e outcome)) e

/-- The figures of a solve are shown in fields of their own. -/
theorem State.status_set_figure (s : State) {f : Field} (e n v : Nat) (he : e < 9)
    (hf : f ∈ [R.SV_ITER_STAT_ITER_LAST, R.SV_ITER_STAT_PIV_FLOORS, R.SV_COUNT_PIV_FLOOR, R.SV_RUN_LAST, R.SV_RUN_MAX]) :
    (s.set f n v).get R.SV_STATUS e = s.get R.SV_STATUS e := by
  have apart : f.ok = true ∧ f.far R.SV_STATUS = true := by
    revert f
    decide
  exact State.get_set_far s f R.SV_STATUS n e v apart.1 apart.2 he

theorem State.closeSolve_status (s : State) {e : Nat} (outcome iter raised : Nat) (ran : Bool) (he : e < 9) :
    (s.closeSolve e outcome iter raised ran).get R.SV_STATUS e = s.get R.SV_STATUS e := by
  unfold State.closeSolve
  extract_lets s1 s2 s3 s4 t s5
  have counted : s1.get R.SV_STATUS e = s.get R.SV_STATUS e :=
    (State.countOutcome_only Sub.refl Sub.refl Only.refl).get_of_clear rfl (by decide +kernel) he
  have iters : s3.get R.SV_STATUS e = s1.get R.SV_STATUS e :=
    (s2.status_set_figure e _ _ he (by simp)).trans (s1.status_set_figure e _ _ he (by simp))
  have floors : s4.get R.SV_STATUS e = s3.get R.SV_STATUS e := by
    show (if raised = 0 then s3 else s3.inc R.SV_COUNT_PIV_FLOOR e).get R.SV_STATUS e = s3.get R.SV_STATUS e
    split
    · rfl
    · exact s3.status_set_figure e _ _ he (by simp)
  have times : s5.get R.SV_STATUS e = s4.get R.SV_STATUS e := by
    show (if ran then (s4.set R.SV_RUN_LAST e t).raiseTo R.SV_RUN_MAX e t else s4).get R.SV_STATUS e = s4.get R.SV_STATUS e
    split
    · exact ((s4.set R.SV_RUN_LAST e t).status_set_figure e _ _ he (by simp)).trans (s4.status_set_figure e _ _ he (by simp))
    · rfl
  rw [State.unitEnd_status _ _ he, State.get_updEng, times, floors, iters, counted]

/-! ### What a delivery leaves -/

theorem State.deliver_status (s : State) {e cause : Nat} (phase iter raised : Nat) (plan : Kept) (he : e < 9) (hc : cause < 11) :
    (s.deliver e cause phase iter raised plan).get R.SV_STATUS e % 16 = s.outcomeOf e cause := by
  have lt := s.outcomeOf_lt (e := e) hc
  rw [State.deliver_eq, State.closeSolve_status _ _ _ _ _ he]
  exact s.giveOutcome_status phase iter _ he (by omega)

theorem State.deliver_standing (s : State) (e cause phase iter raised : Nat) (plan : Kept) :
    ∃ next, (s.deliver e cause phase iter raised plan).standing e =
      { kept := some (s.planFor e (s.outcomeOf e cause) plan), prep := next, fbRun := ((s.eng e).count (s.outcomeOf e cause)).fbRun
        infRun := ((s.eng e).count (s.outcomeOf e cause)).infRun, solvedOnce := ((s.eng e).count (s.outcomeOf e cause)).solvedOnce } := by
  obtain ⟨next, given⟩ := s.giveOutcome_standing e (s.outcomeOf e cause) phase iter (s.planFor e (s.outcomeOf e cause) plan)
  rw [State.deliver_eq]
  exact ⟨next, (State.closeSolve_standing ..).trans given⟩

/-- A delivery from a state in which engine `e` stands as in `s` leaves the status, the runs and the plan of its outcome; a solved outcome
comes with the plan that its computation gave. -/
theorem State.deliver_after {s u : State} {e cause : Nat} (phase iter raised : Nat) {plan : Kept} {r : Calc Kept} (he : e < 9) (hc : cause < 11)
    (same : u.standing e = s.standing e) (solved : cause < 3 → ∀ k, r = .ok k → plan = k) :
    Kept.after s (u.deliver e cause phase iter raised plan) e (s.outcomeOf e cause) r := by
  have hfb : (u.eng e).fbRun = (s.eng e).fbRun := congrArg Standing.fbRun same
  have hinf : (u.eng e).infRun = (s.eng e).infRun := congrArg Standing.infRun same
  have hprep : (u.eng e).prep = (s.eng e).prep := congrArg Standing.prep same
  have honce : (u.eng e).solvedOnce = (s.eng e).solvedOnce := congrArg Standing.solvedOnce same
  have shown := u.deliver_status phase iter raised plan he hc
  obtain ⟨next, given⟩ := u.deliver_standing e cause phase iter raised plan
  have won := s.outcomeOf_solved (e := e) (cause := cause)
  generalize u.deliver e cause phase iter raised plan = t at shown given ⊢
  rw [State.outcomeOf_congr same] at shown given
  generalize s.outcomeOf e cause = o at shown given won ⊢
  have kept : (t.eng e).kept = some (u.planFor e o plan) := congrArg Standing.kept given
  have fb : (t.eng e).fbRun = ((u.eng e).count o).fbRun := congrArg Standing.fbRun given
  have inf : (t.eng e).infRun = ((u.eng e).count o).infRun := congrArg Standing.infRun given
  have once : (t.eng e).solvedOnce = ((u.eng e).count o).solvedOnce := congrArg Standing.solvedOnce given
  refine ⟨shown, ?_⟩
  by_cases good : o < 3
  · rw [if_pos good]
    simp only [Engine.count, if_pos good] at fb inf once
    refine ⟨fun k hk => ?_, fb, inf, once⟩
    rw [kept, State.planFor, if_pos good, solved (won good) k hk]
  · rw [if_neg good]
    simp only [Engine.count, if_neg good, hfb, hinf] at fb inf
    refine ⟨by rw [kept]; rfl, fun arm before => ?_, fb, inf⟩
    rw [kept, State.planFor, if_neg good, State.fallback, if_neg (by omega), honce, if_pos before, hprep]

/-- A delivery of no plan: an outcome other than the solved ones. -/
theorem State.deliver_failed {s u : State} {e cause : Nat} (phase iter raised : Nat) (r : Calc Kept) (he : e < 9) (hc : cause < 11)
    (bad : 3 ≤ cause) (same : u.standing e = s.standing e) : Kept.after s (u.deliver e cause phase iter raised) e (s.outcomeOf e cause) r :=
  State.deliver_after phase iter raised he hc same fun good => absurd good (by omega)

/-! ### The exits of a solve (R249, R255) -/

theorem State.overflow_standing (s : State) (k var e : Nat) (inj : Bool) : (s.overflow k var inj).standing e = s.standing e :=
  State.standing_congr ((State.overflow_only Sub.refl Sub.refl Only.refl).sv rfl) e

theorem State.infeasible_standing (s : State) (k row cls e : Nat) (viol : Int) (inj : Bool) :
    (s.infeasible k row cls viol inj).standing e = s.standing e :=
  State.standing_congr ((State.infeasible_only Sub.refl Sub.refl Only.refl).sv rfl) e

theorem State.postOnce_standing (s : State) (code : Nat) (sev : Sev) (i : Option Nat) (l : List Word) (esc inj : Bool) (e : Nat) :
    (s.postOnce code sev i l esc inj).standing e = s.standing e :=
  State.standing_congr ((State.postOnce_only Sub.refl Sub.refl Only.refl).sv rfl) e

/-- A violation of the inputs delivers outcome 4 (R245). -/
theorem State.abandonCert_after {s u : State} {e : Nat} (b : Breach) (he : e < 9) (same : u.standing e = s.standing e) (r : Calc Kept) :
    Kept.after s (u.abandonCert e b false) e (s.outcomeOf e 4) r :=
  have latched : (u.certViolation e b.var b.sub b.val b.kind false).standing e = u.standing e :=
    State.standing_congr ((State.certViolation_only Sub.refl Sub.refl Only.refl).sv rfl) e
  State.deliver_failed 0 0 0 r he (by decide) (by decide) (latched.trans same)

/-- A cut before the iteration delivers outcome 9 (R255). -/
theorem State.cutEarly_after {s u : State} {e : Nat} (he : e < 9) (same : u.standing e = s.standing e) (r : Calc Kept) :
    Kept.after s (u.cutEarly e false) e (s.outcomeOf e 9) r :=
  State.deliver_failed 1 0 0 r he (by decide) (by decide) ((State.postOnce_standing ..).trans same)

/-- The delivery of a plan: its solved outcome, or 5 when its torques overflow (R240). -/
theorem State.deliverPlan_after {s u : State} {e cause : Nat} (phase : Nat) (r : SolveRes) (p : Calc Kept) (he : e < 9) (hc : cause < 3)
    (same : u.standing e = s.standing e) : Kept.after s (u.deliverPlan e cause phase r p) e (s.outcomeOf e (unlessOvf p cause)) p := by
  cases p with
  | ok k =>
    refine State.deliver_after phase r.iter r.raised he (Nat.lt_trans hc (by decide)) same fun _ k' hk => ?_
    cases hk
    rfl
  | error v => exact State.deliver_failed phase r.iter r.raised _ he (by decide) (by decide) ((State.overflow_standing ..).trans same)

theorem State.accepts_congr {s u : State} (h : u.regs = s.regs) (e : Nat) (r : SolveRes) : u.accepts e r = s.accepts e r := by
  have tol : u.geti R.SV_RT_CFG_B e = s.geti R.SV_RT_CFG_B e := by rw [State.geti, State.geti, State.get_congr h]
  rw [State.accepts, State.accepts, tol]

/-- The exit of a solve, or the phase in which a cut stopped it, decides its outcome. -/
theorem State.exitSolve_after {s u : State} {e : Nat} (phase : CutPhase) (r : SolveRes × Calc Kept) (he : e < 9)
    (same : u.standing e = s.standing e) (regs : u.regs = s.regs) :
    Kept.after s (u.exitSolve e phase r) e (s.outcomeOf e (solveOutcome s e phase r)) r.2 := by
  have noted := (u.postOnce_standing Ev.svCut .notice (some e) [] false false e).trans same
  have notedRegs : (u.postOnce Ev.svCut .notice (some e)).regs = s.regs :=
    ((State.postOnce_only (p := 136) (r := 0) Sub.refl Sub.refl Only.refl).regs_eq rfl).trans regs
  unfold State.exitSolve solveOutcome
  cases r.1.exit with
  | converged => exact State.deliverPlan_after 0 r.1 r.2 he (by decide) same
  | budget =>
    dsimp only
    rw [State.accepts_congr regs]
    split
    · exact State.deliverPlan_after 0 r.1 r.2 he (by decide) same
    · exact State.deliver_failed _ _ _ _ he (by decide) (by decide) same
  | infeasible row viol => exact State.deliver_failed _ _ _ _ he (by decide) (by decide) ((State.infeasible_standing ..).trans same)
  | overflow var => exact State.deliver_failed _ _ _ _ he (by decide) (by decide) ((State.overflow_standing ..).trans same)
  | cut =>
    cases phase with
    | former => exact State.deliver_failed _ _ _ _ he (by decide) (by decide) noted
    | factor => exact State.deliver_failed _ _ _ _ he (by decide) (by decide) noted
    | step =>
      dsimp only
      rw [State.accepts_congr notedRegs]
      split
      · exact State.deliverPlan_after 3 r.1 r.2 he (by decide) noted
      · exact State.deliver_failed _ _ _ _ he (by decide) (by decide) noted

end Sys2Proof.Machine

/-! PROOFS of the solver family. The commands of a solve: its end, its cut, the stop request, and the force generation (R245 to R267). -/
namespace Sys2Proof.Machine

/-! ### The end of a solve -/

/-- The state in which a solve ends: its parameters have been checked. -/
def State.rangeChecked (s : State) (e : Nat) : State := s.updEng e fun y => { y with paramCheck := false }

theorem State.rangeChecked_standing (s : State) (e : Nat) : (s.rangeChecked e).standing e = s.standing e :=
  s.updEng_standing e e fun _ => rfl

/-- A scratch memory without errors is read without effect. -/
theorem State.readScratch_clean {s : State} {e : Nat} (h : s.scratchHits e = []) : s.readScratch e = s := by
  rw [State.readScratch, h]
  rfl

theorem State.solveEnd_solving {s : State} {e : Nat} (h : Solving s e) : s.solveEnd e = s.finishSolve e := by
  obtain ⟨run, due, clean, -⟩ := h
  simp [State.solveEnd, State.readScratch_clean clean, run, due]

theorem State.solveEnd_idle {s : State} {e : Nat} (h : (s.eng e).running = false) : s.solveEnd e = s := by
  simp [State.solveEnd, h]

theorem State.solveEnd_late {s : State} {e : Nat} (run : (s.eng e).running = true) (late : s.pastDeadline e = true) :
    s.solveEnd e = s.dropSolve e := by
  simp [State.solveEnd, run, late]

/-- With nothing injected, a detector of the solve does not act at its end. -/
theorem State.rangeChecked_quiet {s : State} {e : Nat} (h : Solving s e) (idx : Nat) :
    (s.rangeChecked e).inject idx e = (none, s.rangeChecked e) := by
  obtain ⟨-, -, -, key⟩ := h
  exact State.inject_none _ idx e key

/-- A solve ends by its own exit, or is abandoned for an input out of its range (R245, R249). -/
theorem State.solveEnd_quiet {s : State} {e : Nat} (h : Solving s e) :
    s.solveEnd e = (s.rangeBreach e).elim ((s.rangeChecked e).exitSolve e .step (solveOf s e)) fun b => (s.rangeChecked e).abandonCert e b false := by
  have quiet := State.rangeChecked_quiet h
  rw [State.solveEnd_solving h]
  unfold State.rangeChecked at quiet
  unfold State.finishSolve
  simp only [quiet]
  cases s.rangeBreach e with
  | none => rfl
  | some b => rfl

/-- A solve dropped at its deadline leaves the plan and the status (R225). -/
theorem State.dropSolve_standing (s : State) (e : Nat) : (s.dropSolve e).standing e = s.standing e :=
  (State.unitEnd_standing ..).trans (s.updEng_standing e e fun _ => rfl)

theorem State.dropSolve_status (s : State) {e : Nat} (he : e < 9) : (s.dropSolve e).get R.SV_STATUS e = s.get R.SV_STATUS e :=
  (State.unitEnd_status _ _ he).trans (State.get_updEng ..)

/-! ### The cut of a solve -/

theorem State.solveCut_off {s : State} {e : Nat} (phase : CutPhase) (n : Nat) (h : s.bit R.SV_CFG_EN e = false ∨ s.cutDue e = false) :
    s.solveCut e phase n = s := by
  rcases h with off | early
  · simp [State.solveCut, off]
  · simp [State.solveCut, early]

theorem State.solveCut_solving {s : State} {e : Nat} (phase : CutPhase) (n : Nat) (h : Solving s e) (en : s.bit R.SV_CFG_EN e = true)
    (due : s.cutDue e = true) : s.solveCut e phase n = s.meetCut e phase n := by
  obtain ⟨run, -, clean, -⟩ := h
  simp [State.solveCut, State.cutRunning, State.readScratch_clean clean, en, due, run]

/-- The flags and the target that a solve which never ran shows at its cut. -/
def State.notRun (s : State) (e : Nat) : State :=
  s.updEng e fun x =>
    { x with cold := false, granted := false, lostInput := x.live.any fun l => l.lost, target := (s.cycle / s.solverCyc + 1) * s.solverCyc }

theorem State.solveCut_idle {s : State} {e : Nat} (phase : CutPhase) (n : Nat) (en : s.bit R.SV_CFG_EN e = true) (due : s.cutDue e = true)
    (idle : (s.eng e).running = false) : s.solveCut e phase n = ((s.notRun e).cutEarly e false).dropJob e := by
  simp [State.solveCut, State.notRun, en, due, idle]

/-- A cut stops a solve with its inputs in range by its phase. -/
theorem State.meetCut_phase {s : State} {e : Nat} {phase : CutPhase} (n : Nat) (clear : s.rangeBreach e = none) (h : phase ≠ .former) :
    s.meetCut e phase n = (s.rangeChecked e).exitSolve e phase (s.runSolve e (some n)) := by
  unfold State.meetCut
  rw [clear]
  cases phase with
  | former => exact absurd rfl h
  | factor => rfl
  | step => rfl

theorem State.meetCut_former {s : State} {e : Nat} (n : Nat) (clear : s.rangeBreach e = none) : s.meetCut e .former n = s.cutEarly e false := by
  unfold State.meetCut
  rw [clear]

theorem State.meetCut_breach {s : State} {e : Nat} (phase : CutPhase) (n : Nat) {b : Breach} (h : s.rangeBreach e = some b) :
    s.meetCut e phase n = (s.rangeChecked e).abandonCert e b false := by
  unfold State.meetCut
  rw [h]
  rfl

/-- A job that leaves the scheduler leaves the plan and the status. -/
theorem State.dropJob_after {s t : State} {e o : Nat} {p : Calc Kept} (he : e < 9) (h : Kept.after s t e o p) :
    Kept.after s (t.dropJob e) e o p := by
  have only := State.dropJob_only (a1 := e) Sub.refl Sub.refl (Only.refl (s := t))
  have status : (t.dropJob e).get R.SV_STATUS e = t.get R.SV_STATUS e := only.get_of_clear rfl (by decide +kernel) he
  rw [Kept.after, status, State.eng_congr (only.sv rfl)]
  exact h

/-! ### The stop request -/

/-- What a stop request shows before its record and its escalation: the engine's flags, the count, and STOP_REQ in the status word (R267). -/
def State.showStop (s : State) (e : Nat) : State :=
  let s := (s.updEng e fun y => { y with stopReq := true, stopArmed := false, stopSolved := false }).inc R.SV_RT_COUNT_B_STOP_REQS e
  s.set R.SV_STATUS e (orBit (s.get R.SV_STATUS e) 7)

/-- A run at its persistence shows the request, posts it, and escalates it to the engine's arm groups by the configured reaction. -/
theorem State.stopRequest_due {s : State} {e : Nat} (run : s.persists e = true) (armed : (s.eng e).stopArmed = true) :
    ∃ items, s.stopRequest e = ((s.showStop e).post Ev.svStopReq .fault (some e) items true).fault ((s.showStop e).svMask e)
      (reactOf ((s.showStop e).get R.SV_RT_CFG_A_STOP_REACT e)) Ev.svStopReq (some e) :=
  ⟨_, if_pos (by rw [run, armed]; rfl)⟩

theorem State.stopRequest_calm {s : State} {e : Nat} (h : s.persists e = false ∨ (s.eng e).stopArmed = false) : s.stopRequest e = s := by
  refine if_neg ?_
  rcases h with calm | spent
  · simp [calm]
  · simp [spent]

/-- The request leaves the fields that say whom it stops and how. -/
theorem State.showStop_get (s : State) (e m : Nat) {g : Field} (hg : g ∈ [R.SV_PB_ADDR_ADDR, R.SV_RT_CFG_A_STOP_REACT]) (hm : m < 9) :
    (s.showStop e).get g m = s.get g m := by
  have apart : R.SV_STATUS.far g = true ∧ R.SV_RT_COUNT_B_STOP_REQS.far g = true ∧ g.count = 9 := by
    revert g
    decide
  obtain ⟨status, counter, count⟩ := apart
  exact (State.get_set_far _ R.SV_STATUS g e m _ (by decide) status (count ▸ hm)).trans
    (State.get_set_far _ R.SV_RT_COUNT_B_STOP_REQS g e m _ (by decide) counter (count ▸ hm))

theorem State.showStop_mask (s : State) (e : Nat) : (s.showStop e).svMask e = s.svMask e := by
  have base := s.showStop_get e 8 (g := R.SV_PB_ADDR_ADDR) (by simp) (by decide)
  unfold State.svMask State.pbBits State.pb
  rw [base]
  rfl

theorem State.showStop_status (s : State) {e : Nat} (he : e < 9) : hasBit ((s.showStop e).get R.SV_STATUS e) 7 = true := by
  unfold State.showStop
  rw [State.get_set _ _ _ _ he (by decide), hasBit, Nat.testBit_mod_two_pow, orBit, Nat.testBit_or, Nat.testBit_two_pow_self]
  simp [Field.width, R.SV_STATUS]

/-! ### The statement -/

/-- Settles O31, outcome by outcome: a solve that ends, one that a cut meets, a solve that is late or was never dispatched, a run at its
persistence, and a write of FORCE_COLD. -/
theorem solverOutcomes : Obligations.SolverOutcomes := by
  unfold Obligations.SolverOutcomes
  refine ⟨fun e s solving clear => ?ended, fun e b s solving breach => ?breached, fun e s run late => ?late,
    fun e s idle => congrArg Host.Outcome.next (State.solveEnd_idle idle), fun e p n s solving en due clear phase => ?cut,
    fun e n s solving en due clear => ?former, fun e p n b s solving en due breach => ?cutBreached, fun e p n s en due idle => ?neverRun,
    fun e p n s off => congrArg Host.Outcome.next (State.solveCut_off p n off), fun e s run armed => ?stop,
    fun e s calm => congrArg Host.Outcome.next (State.stopRequest_calm calm),
    fun e s => ⟨_, rfl, congrArg Engine.force (State.eng_updEng ..)⟩⟩
  case ended =>
    have run := State.solveEnd_quiet solving
    rw [clear] at run
    exact ⟨_, congrArg Host.Outcome.next run, State.exitSolve_after .step _ e.isLt (s.rangeChecked_standing e.val) rfl⟩
  case breached =>
    have run := State.solveEnd_quiet solving
    rw [breach] at run
    exact ⟨_, congrArg Host.Outcome.next run, State.abandonCert_after b e.isLt (s.rangeChecked_standing e.val) _⟩
  case late =>
    exact ⟨_, congrArg Host.Outcome.next (State.solveEnd_late run late), congrArg Standing.kept (s.dropSolve_standing e.val),
      s.dropSolve_status e.isLt⟩
  case cut =>
    have run := (State.solveCut_solving p n solving en due).trans (State.meetCut_phase n clear phase)
    exact ⟨_, congrArg Host.Outcome.next run, State.exitSolve_after p _ e.isLt (s.rangeChecked_standing e.val) rfl⟩
  case former =>
    have run := (State.solveCut_solving .former n solving en due).trans (State.meetCut_former n clear)
    exact ⟨_, congrArg Host.Outcome.next run, State.cutEarly_after e.isLt rfl _⟩
  case cutBreached =>
    have run := (State.solveCut_solving p n solving en due).trans (State.meetCut_breach p n breach)
    exact ⟨_, congrArg Host.Outcome.next run, State.abandonCert_after b e.isLt (s.rangeChecked_standing e.val) _⟩
  case neverRun =>
    have flagged : (s.notRun e.val).standing e.val = s.standing e.val := s.updEng_standing _ _ fun _ => rfl
    exact ⟨_, congrArg Host.Outcome.next (State.solveCut_idle p n en due idle),
      State.dropJob_after e.isLt (State.cutEarly_after e.isLt flagged _)⟩
  case stop =>
    obtain ⟨items, request⟩ := State.stopRequest_due run armed
    have engine : (s.showStop e.val).eng e.val = { s.eng e.val with stopReq := true, stopArmed := false, stopSolved := false } :=
      State.eng_updEng ..
    refine ⟨_, congrArg Host.Outcome.next request, congrArg Engine.stopReq engine, congrArg Engine.stopArmed engine,
      s.showStop_status e.isLt, ?_, ?_⟩
    · rw [State.fault_posted, State.post, List.getLast?_concat]
      rfl
    · rw [State.fault, List.getLast?_concat, s.showStop_mask, s.showStop_get e.val e.val (by simp) e.isLt]
      rfl

end Sys2Proof.Machine

/-! PROOFS of the separation family. Asserting the pair of an arm group (R427, R428): its joints, and what it leaves of Belvedere. -/
namespace Sys2Proof.Machine

/-! ### Joints that enter TORQUE_OFF -/

/-- A joint enters TORQUE_OFF unless it is off, and the other joints stay as they are. -/
theorem State.jointOff_jstate (s : State) (m : Nat) {n : Nat} (hn : n < 64) :
    (s.jointOff m).jstate n = if n = m ∧ s.jstate n ≠ 0 then 5 else s.jstate n := by
  have acc (x : State) : (x.set R.TL_SAT_ACC m 0).jstate n = x.jstate n :=
    State.get_set_far _ _ _ _ _ _ (by decide) (by decide) hn
  unfold State.jointOff
  by_cases same : n = m
  · subst same
    by_cases off : s.jstate n = 0
    · simp [off]
    · rw [if_neg off, if_pos ⟨rfl, off⟩, acc]
      exact State.get_set_of_lt _ _ _ _ hn (by decide) (by decide)
  · rw [if_neg fun now : n = m ∧ _ => same now.1]
    split
    · rfl
    · exact (acc _).trans (State.get_set_other _ _ (by decide) (by decide) (Ne.symm same))

theorem State.jointsOff_jstate {n : Nat} (hn : n < 64) : ∀ (l : List Nat) (s : State),
    (n ∈ l ∧ s.jstate n ≠ 0) ∨ s.jstate n = 5 → (l.foldl State.jointOff s).jstate n = 5
  | [], _, h => h.resolve_left fun h => List.not_mem_nil h.1
  | m :: l, s, h => by
    refine State.jointsOff_jstate hn l _ ?_
    rw [State.jointOff_jstate s m hn]
    by_cases now : n = m ∧ s.jstate n ≠ 0
    · exact .inr (if_pos now)
    · rw [if_neg now]
      refine h.imp_left fun ⟨mem, on⟩ => ⟨?_, on⟩
      exact (List.mem_cons.mp mem).resolve_left fun e => now ⟨e, on⟩

theorem State.groupOff_jstate {s : State} {g n : Nat} (hn : n < 64) (mem : n ∈ s.groupTillers g) (on : s.jstate n ≠ 0) :
    (s.groupOff g).jstate n = 5 :=
  State.jointsOff_jstate hn _ s (.inl ⟨mem, on⟩)

/-! ### The pair of an arm group -/

/-- The pair that serves an arm group is one of the eight group pairs, and it serves that group. -/
theorem State.pairOf_spec {s : State} {g p : Nat} (h : s.pairOf g = some p) : p < 8 ∧ s.pairGroup p = some g := by
  have bound := List.mem_range.mp (List.mem_of_find?_eq_some h)
  have serves := List.find?_some h
  simp only [Bool.and_eq_true, beq_iff_eq] at serves
  obtain ⟨used, group⟩ := serves
  exact ⟨bound, by simp [State.pairGroup, bound, used, group]⟩

/-- A group pair takes no other pair with it. -/
theorem State.assertGroup_of_pairOf {s : State} {g p : Nat} (cause : Nat) (h : s.pairOf g = some p) :
    s.assertGroup cause g = s.drivePair cause p := by
  have group : ¬ 8 ≤ p := Nat.not_le.mpr (State.pairOf_spec h).1
  simp [State.assertGroup, State.assertPair, h, group]

/-- A pair with both channels low and its cause recorded, before its joints follow. -/
def State.lowered (s : State) (cause p : Nat) : State :=
  let s := (s.setBit R.AD_STO_STAT_ASSERTED p true).driveTo p false
  s.set R.AD_STO_STAT_CAUSE p (orBit (s.get R.AD_STO_STAT_CAUSE p) cause)

theorem State.drivePair_of_group {s : State} {cause p g : Nat} (h : (s.lowered cause p).pairGroup p = some g) :
    s.drivePair cause p = (s.lowered cause p).groupOff g := by
  unfold State.drivePair
  change (match (s.lowered cause p).pairGroup p with | some g => (s.lowered cause p).groupOff g | none => s.lowered cause p) = _
  rw [h]

/-- The fields of a pair's group, of the group's Tillers and of their joints. -/
def pairFields : List Field :=
  [R.AD_STO_CFG_EN, R.AD_STO_CFG_GROUP, R.SYS_AG_CFG_EN, R.SYS_AG_CFG_COUNT, R.SYS_AG_CFG_FIRST_TL, R.TL_JSTAT_JSTATE]

theorem State.lowered_get (s : State) (cause p : Nat) {f : Field} {m : Nat} (hf : f ∈ pairFields) (hm : m < f.count) :
    (s.lowered cause p).get f m = s.get f m := by
  have driven (x : State) : (x.driveTo p false).get f m = x.get f m := by
    refine (State.driveTo_only Sub.refl Sub.refl Only.refl).get_of_clear rfl ?_ hm
    clear hm
    revert f
    decide +kernel
  have apart : R.AD_STO_STAT_ASSERTED.far f = true ∧ R.AD_STO_STAT_CAUSE.far f = true := by
    clear driven hm
    revert f
    decide
  obtain ⟨asserted, causes⟩ := apart
  exact (State.get_set_far _ _ _ _ _ _ (by decide) causes hm).trans
    ((driven _).trans (State.get_set_far _ _ _ _ _ _ (by decide) asserted hm))

theorem State.lowered_pairGroup (s : State) (cause : Nat) {p : Nat} (hp : p < 8) : (s.lowered cause p).pairGroup p = s.pairGroup p := by
  have count : p < 10 := Nat.lt_trans hp (by decide)
  unfold State.pairGroup State.bit
  rw [s.lowered_get cause p (f := R.AD_STO_CFG_EN) (by simp [pairFields]) count,
    s.lowered_get cause p (f := R.AD_STO_CFG_GROUP) (by simp [pairFields]) count]

theorem State.lowered_groupTillers (s : State) (cause p : Nat) {g : Nat} (hg : g < 8) :
    (s.lowered cause p).groupTillers g = s.groupTillers g := by
  unfold State.groupTillers State.bit
  rw [s.lowered_get cause p (f := R.SYS_AG_CFG_EN) (by simp [pairFields]) hg,
    s.lowered_get cause p (f := R.SYS_AG_CFG_COUNT) (by simp [pairFields]) hg,
    s.lowered_get cause p (f := R.SYS_AG_CFG_FIRST_TL) (by simp [pairFields]) hg]

/-- Driving a group's pair low takes the torque from each of its joints that is on. -/
theorem State.drivePair_jstate {s : State} {cause p g n : Nat} (pair : s.pairOf g = some p) (hg : g < 8) (hn : n < 64)
    (mem : n ∈ s.groupTillers g) (on : s.jstate n ≠ 0) : (s.drivePair cause p).jstate n = 5 := by
  obtain ⟨hp, serves⟩ := State.pairOf_spec pair
  rw [State.drivePair_of_group ((s.lowered_pairGroup cause hp).trans serves)]
  refine State.groupOff_jstate hn ?_ ?_
  · rw [s.lowered_groupTillers cause p hg]
    exact mem
  · rw [State.jstate, s.lowered_get cause p (f := R.TL_JSTAT_JSTATE) (by simp [pairFields]) hn]
    exact on

/-! ### What an assertion leaves of Belvedere -/

/-- Belvedere's latch is the same in two states, and its separation parts but for the SS1 that it watches. -/
structure BvKept (s t : State) : Prop where
  sep : t.sep = { s.sep with ss1 := t.sep.ss1 }
  latch : t.sio.bvLatch = s.sio.bvLatch

theorem BvKept.refl {s : State} : BvKept s s := ⟨rfl, rfl⟩

theorem BvKept.trans {s t u : State} (h : BvKept s t) (k : BvKept t u) : BvKept s u := by
  refine ⟨?_, k.latch.trans h.latch⟩
  rw [k.sep, h.sep]

theorem BvKept.done {s t : State} (h : BvKept s t) : t.sep.bvDone = s.sep.bvDone := by rw [h.sep]

theorem BvKept.globalDelay {s t : State} (h : BvKept s t) : t.sep.globalDelay = s.sep.globalDelay := by rw [h.sep]

theorem Only.bvKept {p r : Nat} {s t : State} (h : Only p r s t) (sep : p.testBit 14 = false) (sio : p.testBit 24 = false) : BvKept s t := by
  refine ⟨?_, ?_⟩
  · rw [h.sep sep]
  · rw [h.sio sio]

theorem BvKept.foldl {α : Type} {f : State → α → State} (h : ∀ s a, BvKept s (f s a)) : ∀ (l : List α) (s : State), BvKept s (l.foldl f s)
  | [], _ => .refl
  | a :: l, s => (h s a).trans (BvKept.foldl h l (f s a))

theorem State.driveTo_bvKept (s : State) (p : Nat) (level : Bool) : BvKept s (s.driveTo p level) := by
  refine ⟨?_, ?_⟩
  · rw [(State.driveTo_only Sub.refl Sub.refl Only.refl).sep rfl]
  · have latch (c : Prop) [Decidable c] (x y : State) : (if c then x else y).sio.bvLatch = if c then x.sio.bvLatch else y.sio.bvLatch :=
      apply_ite (fun z : State => z.sio.bvLatch) c x y
    simp only [State.driveTo, latch, State.updSio_sio, State.setBit_sio, ite_self]

theorem State.groupOff_bvKept (s : State) (g : Nat) : BvKept s (s.groupOff g) := by
  have joints : BvKept s ((s.groupTillers g).foldl State.jointOff s) :=
    BvKept.foldl (fun _ _ => (State.jointOff_only Sub.refl Sub.refl Only.refl).bvKept rfl rfl) _ s
  exact joints.trans ⟨rfl, rfl⟩

theorem State.drivePair_bvKept (s : State) (cause p : Nat) : BvKept s (s.drivePair cause p) := by
  have asserted : BvKept s (s.setBit R.AD_STO_STAT_ASSERTED p true) := ⟨rfl, rfl⟩
  have caused (x : State) (v : Nat) : BvKept x (x.set R.AD_STO_STAT_CAUSE p v) := ⟨rfl, rfl⟩
  have low : BvKept s (s.lowered cause p) := (asserted.trans (State.driveTo_bvKept _ p false)).trans (caused _ _)
  unfold State.drivePair
  dsimp only
  split
  · exact low.trans (State.groupOff_bvKept ..)
  · exact low

theorem State.assertPair_bvKept (s : State) (cause p : Nat) : BvKept s (s.assertPair cause p) := by
  unfold State.assertPair
  dsimp only
  split
  · exact ((s.drivePair_bvKept cause p).trans (BvKept.foldl (fun t q => t.drivePair_bvKept 7 q) _ _)).trans
      ((State.driveEnables_only Sub.refl Sub.refl Only.refl).bvKept rfl rfl)
  · exact s.drivePair_bvKept cause p

theorem State.assertGroup_bvKept (s : State) (cause g : Nat) : BvKept s (s.assertGroup cause g) := by
  unfold State.assertGroup
  split
  · exact s.assertPair_bvKept ..
  · exact .refl

end Sys2Proof.Machine

/-! PROOFS of the separation family. Belvedere's assertion of a pair, and its delay (R291 to R293). -/
namespace Sys2Proof.Machine

/-! ### The assertion of an arm's pair -/

/-- Belvedere's latch of an arm is set and its delay ends, before its pair is asserted. -/
def State.latchArm (s : State) (g : Nat) : State :=
  (s.updSio fun x => { x with bvLatch := orBit x.bvLatch g }).updSep fun x => { x with delay := Tab.put (fun _ => none) x.delay g none }

/-- With no delay of BV_GLOBAL running, Belvedere asserts the arm's pair alone. -/
theorem State.bvAssert_of_no_global {s : State} (g : Nat) (h : s.sep.globalDelay = false) : s.bvAssert g = (s.latchArm g).assertGroup 3 g := by
  have ended : ((s.latchArm g).assertGroup 3 g).sep.globalDelay = false := (State.assertGroup_bvKept ..).globalDelay.trans h
  exact if_neg (ne_true_of_eq_false ended)

/-- An assertion ends no comparison and begins none. -/
theorem State.bvAssert_bvDone (s : State) (g : Nat) : (s.bvAssert g).sep.bvDone = s.sep.bvDone := by
  have group : ((s.latchArm g).assertGroup 3 g).sep.bvDone = s.sep.bvDone := (State.assertGroup_bvKept ..).done
  unfold State.bvAssert
  dsimp only
  split
  · rw [(State.assertPair_bvKept ..).done, (State.assertPair_bvKept ..).done]
    exact group
  · exact group

/-- What Belvedere's assertion for arm group `g` leaves: its latch set, the pair asserted, the joint without torque, nothing posted. -/
theorem State.bvAssert_after {s : State} {g n p : Nat} (global : s.sep.globalDelay = false) (pair : s.pairOf g = some p) (hg : g < 8)
    (hn : n < 64) (mem : n ∈ s.groupTillers g) (on : s.jstate n ≠ 0) :
    hasBit (s.bvAssert g).sio.bvLatch g = true ∧ (s.bvAssert g).bit R.AD_STO_STAT_ASSERTED p = true ∧ (s.bvAssert g).jstate n = 5
      ∧ (s.bvAssert g).posted = s.posted := by
  have latched : (s.latchArm g).pairOf g = some p := pair
  have count : p < 10 := Nat.lt_trans (State.pairOf_spec pair).1 (by decide)
  rw [State.bvAssert_of_no_global g global, State.assertGroup_of_pairOf 3 latched]
  refine ⟨?_, ?_, State.drivePair_jstate latched hg hn mem on, (State.drivePair_only Sub.refl Sub.refl Only.refl).posted rfl⟩
  · rw [(State.drivePair_bvKept ..).latch]
    exact (Nat.testBit_or ..).trans (by simp)
  · rw [State.drivePair_asserted _ 3 p p count count, decide_eq_true rfl, Bool.true_or]

/-! ### The start of BV_DELAY -/

/-- A failure noted with a delay to run: an arm whose delay runs already keeps its start. -/
def Separation.startDelay (x : Separation) (code tick g : Nat) : Separation :=
  { x with lastBad := Tab.put (fun _ => 0) x.lastBad g x.period, lastCode := Tab.put (fun _ => 0) x.lastCode g code,
           delay := Tab.upd (fun _ => none) x.delay g fun d => some (d.getD tick) }

theorem State.bvStart_delayed {s : State} (code g : Nat) (h : s.get R.SEP_BV_CFG_BV_DELAY ≠ 0) :
    s.bvStart code g = s.updSep fun x => x.startDelay code s.tick g := if_neg h

theorem State.bvStarts_delayed (code : Nat) : ∀ (l : List Nat) (s : State), s.get R.SEP_BV_CFG_BV_DELAY ≠ 0 →
    l.foldl (fun t g => t.bvStart code g) s = s.updSep fun x => l.foldl (fun x g => x.startDelay code s.tick g) x
  | [], _, _ => rfl
  | g :: l, s, h => by
    rw [List.foldl_cons, State.bvStart_delayed code g h]
    exact State.bvStarts_delayed code l (s.updSep fun x => x.startDelay code s.tick g) h

theorem Separation.get_startDelay (x : Separation) (code tick a g : Nat) : Tab.get (fun _ => none) (x.startDelay code tick a).delay g =
    if g = a then some ((Tab.get (fun _ => none) x.delay a).getD tick) else Tab.get (fun _ => none) x.delay g :=
  Tab.get_upd _ x.delay a g fun d => some (d.getD tick)

/-- Delays that start one after the other: each named arm has one, and one that runs goes on. -/
theorem Separation.startDelays_delay (code tick : Nat) {g : Nat} : ∀ (l : List Nat) (x : Separation),
    g ∈ l ∨ (Tab.get (fun _ => none) x.delay g).isSome = true →
    (Tab.get (fun _ => none) (l.foldl (fun x g => x.startDelay code tick g) x).delay g).isSome = true
  | [], _, h => h.resolve_left List.not_mem_nil
  | a :: l, x, h => by
    refine Separation.startDelays_delay code tick l _ ?_
    dsimp only
    rw [Separation.get_startDelay]
    by_cases same : g = a
    · exact .inr (by rw [if_pos same]; rfl)
    · rw [if_neg same]
      exact h.imp_left fun mem => (List.mem_cons.mp mem).resolve_left same

theorem Separation.startDelays_bvMissed (code tick : Nat) : ∀ (l : List Nat) (x : Separation),
    (l.foldl (fun x g => x.startDelay code tick g) x).bvMissed = x.bvMissed
  | [], _ => rfl
  | g :: l, x => Separation.startDelays_bvMissed code tick l (x.startDelay code tick g)

/-- A failure leaves the comparison as done as it was, whether its delay runs or is 0. -/
theorem State.bvStart_bvDone (s : State) (code g : Nat) : (s.bvStart code g).sep.bvDone = s.sep.bvDone := by
  unfold State.bvStart
  dsimp only
  split
  · rw [State.bvAssert_bvDone]
    rfl
  · rfl

end Sys2Proof.Machine

/-! PROOFS of the separation family. Belvedere's commands (R273, R287 to R293). -/
namespace Sys2Proof.Machine

/-! ### The verdict on an arm -/

/-- Belvedere's own STOP of an arm: its stop table exceeded, or a nominated obstacle nearer than its protective distance (R290). -/
def BvArm.stops (m : BvArm) : Bool := m.beyond || m.nom.any fun n => decide (n.2.1 < n.2.2)

/-- Belvedere shows its least margin of an arm. -/
def State.showMargin (s : State) (a : Nat) (w : Word) : State :=
  s.updSep fun x => { x with bvMargin := Tab.put (fun _ => 0) x.bvMargin a w }

/-- An arm that passes every check, with the STOP that it was given, has its margin shown and nothing else. -/
theorem State.bvArm_passes {s : State} {h : Nomin} {m : BvArm} (key : s.bit R.INJ_STAT_KEY_LOADED = false) (checks : s.bvChecks h m = [])
    (own : m.stops = h.stop) : ∃ w, s.bvArm h m = s.showMargin h.arm w := by
  have agrees : (m.stops && !h.stop) = false := by rw [own, Bool.and_not_self]
  unfold State.bvArm
  dsimp only
  rw [s.inject_none _ _ key]
  dsimp only
  rw [checks]
  exact ⟨_, if_neg (ne_true_of_eq_false agrees)⟩

/-- The first failed check of an arm, counted, posted and escalated as SS1, before the delay starts (R290, R291). -/
def State.postBad (s : State) (a : Nat) (b : BvBad) : State :=
  let s := (s.inc R.SEP_COUNT_DISAGREE).post Ev.sepBvDisagree .fault (some a)
    [item b.check, item b.which, BitVec.ofInt 32 b.a, BitVec.ofInt 32 b.b] true
  (s.updSep fun x => { x with lastCheck := b.check }).fault (2 ^ a) .ss1 Ev.sepBvDisagree (some a)

/-- An arm that fails a check has the first failure reported, and its delay starts. -/
theorem State.bvArm_fails {s : State} {h : Nomin} {m : BvArm} {b : BvBad} {l : List BvBad} (key : s.bit R.INJ_STAT_KEY_LOADED = false)
    (checks : s.bvChecks h m = b :: l) : ∃ w, s.bvArm h m = ((s.showMargin h.arm w).postBad h.arm b).bvStart Ev.sepBvDisagree h.arm := by
  unfold State.bvArm
  dsimp only
  rw [s.inject_none _ _ key]
  dsimp only
  rw [checks]
  exact ⟨_, rfl⟩

theorem State.inject_sep (s : State) (idx inst : Nat) : (s.inject idx inst).2.sep = s.sep :=
  (State.inject_only Sub.refl Sub.refl Only.refl).sep rfl

/-- The verdict on an arm leaves the comparison as done as it was. -/
theorem State.bvArm_bvDone (s : State) (h : Nomin) (m : BvArm) : (s.bvArm h m).sep.bvDone = s.sep.bvDone := by
  have injected : (s.inject (934 + h.arm) h.arm).2.sep.bvDone = s.sep.bvDone := congrArg Separation.bvDone (s.inject_sep ..)
  unfold State.bvArm
  dsimp only
  split
  · rw [State.bvStart_bvDone]
    exact injected
  · split
    · exact injected
    · exact injected

theorem State.bvArms_bvDone (m : Nomin → BvArm) : ∀ (l : List Nomin) (s : State),
    (l.foldl (fun t h => t.bvArm h (m h)) s).sep.bvDone = s.sep.bvDone
  | [], _ => rfl
  | h :: l, s => (State.bvArms_bvDone m l _).trans (s.bvArm_bvDone h (m h))

/-! ### The comparison -/

/-- The comparison of the period is due: Belvedere has posed and was given its arms, and the completion limit has not come. -/
structure Comparing (s : State) : Prop where
  on : s.sepOn = true
  posed : s.sep.bvPosed = true
  fresh : s.sep.bvDone = false
  met : s.sep.bvMissed = false
  given : s.sep.givenTick.isSome = true
  early : s.bvLimit = false

/-- The comparison of the period is marked as done. -/
def State.markDone (s : State) : State := s.updSep fun x => { x with bvDone := true }

theorem State.bvCompare_due {s : State} (h : Comparing s) :
    s.bvCompare = s.sep.given.foldl (fun t h => t.bvArm h (s.bvResults h)) s.markDone := by
  obtain ⟨on, posed, fresh, met, given, early⟩ := h
  refine if_neg ?_
  simp [on, posed, fresh, met, Option.isNone_eq_false_iff.mpr given, early]

theorem State.bvCompare_due_single {s : State} {h : Nomin} (due : Comparing s) (given : s.sep.given = [h]) :
    s.bvCompare = s.markDone.bvArm h (s.bvResults h) := by
  rw [State.bvCompare_due due, given]
  rfl

theorem State.bvCompare_idle {s : State}
    (h : s.sepOn = false ∨ s.sep.bvPosed = false ∨ s.sep.bvDone = true ∨ s.sep.bvMissed = true ∨ s.bvLimit = true) : s.bvCompare = s := by
  refine if_pos ?_
  rcases h with off | unposed | done | missed | late
  · simp [off]
  · simp [unposed]
  · simp [done]
  · simp [missed]
  · simp [late]

/-! ### A missed comparison -/

/-- A missed comparison counted, posted, escalated for every arm under separation and noted, before the delays start (R292). -/
def State.postMiss (s : State) : State :=
  let s := (s.inc R.SEP_COUNT_MISSED).post Ev.sepBvMissed .fault none [] true
  (s.fault s.sepMask .ss1 Ev.sepBvMissed).updSep fun x =>
    { x with bvMissed := true, lastCheck := 6, globalDelay := x.globalDelay || s.bit R.SEP_CFG_BV_GLOBAL,
             lastBad := Tab.put (fun _ => 0) x.lastBad 8 x.period, lastCode := Tab.put (fun _ => 0) x.lastCode 8 Ev.sepBvMissed }

/-- Counting a missed comparison leaves the arms under separation. -/
theorem State.inc_missed_sepMask (s : State) : (s.inc R.SEP_COUNT_MISSED).sepMask = s.sepMask := by
  have base : (s.inc R.SEP_COUNT_MISSED).get R.SEP_PB_ADDR_ADDR = s.get R.SEP_PB_ADDR_ADDR :=
    State.get_set_far _ _ _ _ _ _ (by decide) (by decide) (by decide)
  unfold State.sepMask
  rw [base]
  rfl

theorem State.postMiss_sepArms (s : State) : s.postMiss.sepArms = s.sepArms := congrArg (maskList 8) s.inc_missed_sepMask

theorem State.bvMiss_eq (s : State) : s.bvMiss false = s.sepArms.foldl (fun t g => t.bvStart Ev.sepBvMissed g) s.postMiss := by
  rw [← s.postMiss_sepArms]
  rfl

/-- At the handover limit with nothing handed over, the comparison is missed. -/
theorem State.bvMissTest_late {s : State} (on : s.sepOn = true) (met : s.sep.bvMissed = false) (limit : s.handLimit = true)
    (empty : s.sep.givenTick = none) (key : s.bit R.INJ_STAT_KEY_LOADED = false) : s.bvMissTest = s.bvMiss false := by
  simp [State.bvMissTest, State.detect_off _ _ _ _ _ key, on, met, limit, empty]

theorem State.bvMissTest_idle {s : State}
    (h : s.sepOn = false ∨ s.sep.bvMissed = true ∨ (s.handLimit = false ∧ s.sep.geomFail = false)) : s.bvMissTest = s := by
  refine if_pos ?_
  rcases h with off | missed | ⟨early, whole⟩
  · simp [off]
  · simp [missed]
  · simp [early, whole]

/-! ### The end of a delay, and of a watched SS1 -/

theorem State.bvPose_idle {s : State} (h : s.sepOn = false ∨ s.sep.bvPosed = true ∨ s.tick < s.sep.start + 2500) : s.bvPose = s := by
  refine if_neg ?_
  rcases h with off | posed | early
  · simp [off]
  · simp [posed]
  · simp [Nat.not_le.mpr early]

theorem State.bvExpiry_due {s : State} {g k : Nat} (runs : Tab.get (fun _ => none) s.sep.delay g = some k)
    (past : k + s.get R.SEP_BV_CFG_BV_DELAY * 125000 ≤ s.tick) : s.bvExpiry g = s.bvAssert g := by
  unfold State.bvExpiry
  rw [runs]
  exact if_pos past

theorem State.bvExpiry_idle {s : State} {g k : Nat} (h : Tab.get (fun _ => none) s.sep.delay g = none ∨
    (Tab.get (fun _ => none) s.sep.delay g = some k ∧ s.tick < k + s.get R.SEP_BV_CFG_BV_DELAY * 125000)) : s.bvExpiry g = s := by
  unfold State.bvExpiry
  rcases h with unset | ⟨runs, early⟩
  · rw [unset]
  · rw [runs]
    exact if_neg (Nat.not_le.mpr early)

/-- An SS1 that has not ended within its grace, noted and posted; it is watched no longer. -/
def State.postSs1 (s : State) (g : Nat) : State :=
  (s.updSep fun x =>
    { x with ss1 := Tab.put (fun _ => none) x.ss1 g none, lastBad := Tab.put (fun _ => 0) x.lastBad g x.period,
             lastCode := Tab.put (fun _ => 0) x.lastCode g Ev.sepBvSs1 }).post Ev.sepBvSs1 .fault (some g)

theorem State.bvSs1_due {s : State} {g k : Nat} (watched : Tab.get (fun _ => none) s.sep.ss1 g = some k)
    (past : k + s.ss1Ticks g + s.get R.SEP_RR_CFG_BV_SS1_GRACE * 125000 ≤ s.tick) : s.bvSs1 g = (s.postSs1 g).bvAssert g := by
  unfold State.bvSs1
  rw [watched]
  exact if_pos past

theorem State.bvSs1_idle {s : State} {g k : Nat} (h : Tab.get (fun _ => none) s.sep.ss1 g = none ∨
    (Tab.get (fun _ => none) s.sep.ss1 g = some k ∧ s.tick < k + s.ss1Ticks g + s.get R.SEP_RR_CFG_BV_SS1_GRACE * 125000)) :
    s.bvSs1 g = s := by
  unfold State.bvSs1
  rcases h with unset | ⟨watched, early⟩
  · rw [unset]
  · rw [watched]
    exact if_neg (Nat.not_le.mpr early)

/-! ### The statement -/

/-- Settles O33, command by command: posing, the comparison and its verdicts, a missed comparison, the end of a delay, and an SS1 beyond
its grace. A command that is not due finds its guard false and leaves the state, which is the model's choice (log entries 3 and 67). -/
theorem belvedere : Obligations.Belvedere := by
  unfold Obligations.Belvedere
  refine ⟨fun s on fresh due => ?poses, fun s idle => congrArg Host.Outcome.next (State.bvPose_idle idle),
    fun s on posed fresh met given early => ?compares, fun s h on posed fresh met given early key one checks own => ?passes,
    fun s h b l on posed fresh met given early key one checks delay => ?fails,
    fun s idle => congrArg Host.Outcome.next (State.bvCompare_idle idle), fun s g on met limit empty key delay mem => ?misses,
    fun s idle => congrArg Host.Outcome.next (State.bvMissTest_idle idle), fun g n p k s runs past global pair hn mem joint => ?expires,
    fun g k s idle => congrArg Host.Outcome.next (State.bvExpiry_idle idle),
    fun g n p k s watched past global pair hn mem joint => ?outlasts, fun g k s idle => congrArg Host.Outcome.next (State.bvSs1_idle idle)⟩
  case poses =>
    have e : s.bvPose = s.updSep fun x => { x with bvPosed := true } := by simp [State.bvPose, on, fresh, due]
    exact ⟨_, congrArg Host.Outcome.next e, rfl, rfl⟩
  case compares =>
    have e := State.bvCompare_due ⟨on, posed, fresh, met, given, early⟩
    exact ⟨_, congrArg Host.Outcome.next e, State.bvArms_bvDone s.bvResults _ _⟩
  case passes =>
    have e := State.bvCompare_due_single ⟨on, posed, fresh, met, given, early⟩ one
    obtain ⟨w, run⟩ := State.bvArm_passes (s := s.markDone) key checks own
    exact ⟨_, congrArg Host.Outcome.next (e.trans run), rfl, rfl, rfl⟩
  case fails =>
    have e := State.bvCompare_due_single ⟨on, posed, fresh, met, given, early⟩ one
    obtain ⟨w, run⟩ := State.bvArm_fails (s := s.markDone) key checks
    have kept : ((s.markDone.showMargin h.arm w).postBad h.arm b).get R.SEP_BV_CFG_BV_DELAY = s.get R.SEP_BV_CFG_BV_DELAY :=
      State.get_set_far _ R.SEP_COUNT_DISAGREE _ _ _ _ (by decide) (by decide) (by decide)
    rw [State.bvStart_delayed _ _ fun zero => delay (kept.symm.trans zero)] at run
    refine ⟨_, congrArg Host.Outcome.next (e.trans run), rfl, rfl, ?_, ?_, ?_⟩
    · rw [State.updSep_posted, State.postBad, State.fault_posted, State.updSep_posted, State.post, List.getLast?_concat]
      rfl
    · rw [State.updSep_escs, State.postBad, State.fault, List.getLast?_concat]
      rfl
    · rw [State.updSep_sep, Separation.get_startDelay, if_pos rfl]
      rfl
  case misses =>
    have kept : s.postMiss.get R.SEP_BV_CFG_BV_DELAY = s.get R.SEP_BV_CFG_BV_DELAY :=
      State.get_set_far _ R.SEP_COUNT_MISSED _ _ _ _ (by decide) (by decide) (by decide)
    have run := (State.bvMissTest_late on met limit empty key).trans (s.bvMiss_eq.trans
      (State.bvStarts_delayed Ev.sepBvMissed s.sepArms s.postMiss fun zero => delay (kept.symm.trans zero)))
    refine ⟨_, congrArg Host.Outcome.next run, Separation.startDelays_bvMissed .., ?_, ?_, Separation.startDelays_delay _ _ _ _ (.inl mem)⟩
    · rw [State.updSep_posted, State.postMiss, State.updSep_posted, State.fault_posted, State.post, List.getLast?_concat]
      rfl
    · rw [State.updSep_escs, State.postMiss, State.updSep_escs, State.fault, List.getLast?_concat, ← s.inc_missed_sepMask]
      rfl
  case expires =>
    obtain ⟨latch, asserted, off, -⟩ := State.bvAssert_after global pair g.isLt hn mem joint
    exact ⟨_, congrArg Host.Outcome.next (State.bvExpiry_due runs past), latch, asserted, off⟩
  case outlasts =>
    obtain ⟨latch, asserted, off, posts⟩ := State.bvAssert_after (s := s.postSs1 g.val) global pair g.isLt hn mem joint
    refine ⟨_, congrArg Host.Outcome.next (State.bvSs1_due watched past), latch, asserted, off, ?_⟩
    rw [posts, State.postSs1, State.post, List.getLast?_concat]
    rfl

end Sys2Proof.Machine

/-! PROOFS of the scheduler family. Tasks after updates, and the operations that leave the scheduler alone. -/
namespace Sys2Proof.Machine

/-! ### Tasks after updates -/

@[simp] theorem State.task_updTask (s : State) (i : Nat) (f : Task → Task) : (s.updTask i f).task i = f (s.task i) := Tab.get_upd_self ..

theorem State.task_updTask_of_ne (s : State) {i j : Nat} (f : Task → Task) (h : j ≠ i) : (s.updTask i f).task j = s.task j :=
  (Tab.get_upd ..).trans (if_neg h)

theorem State.task_congr {s t : State} (h : t.sch.task = s.sch.task) (i : Nat) : t.task i = s.task i := by
  rw [State.task, State.task, h]

/-- What a fold's steps leave unchanged, the fold leaves unchanged. -/
theorem foldl_kept {α β γ : Type} {f : β → α → β} {v : β → γ} (h : ∀ b a, v (f b a) = v b) (l : List α) (b : β) :
    v (l.foldl f b) = v b := by
  induction l generalizing b with
  | nil => rfl
  | cons a l ih => exact (ih (f b a)).trans (h b a)

/-! ### Running tasks -/

theorem Tab.mem_drop {α : Type} {t : Tab α} {k : Nat} {e : Nat × α} (h : e ∈ Tab.drop k t) : e ∈ t := by
  induction t with
  | nil => exact h
  | cons x t ih =>
    by_cases hk : x.1 = k
    · rw [Tab.drop, if_pos hk] at h
      exact .tail _ (ih h)
    · rw [Tab.drop, if_neg hk] at h
      rcases List.mem_cons.mp h with rfl | h
      · exact .head _
      · exact .tail _ (ih h)

/-- An entry of a table after a write of one key is the entry written, or was there before. -/
theorem Tab.mem_put {α : Type} [DecidableEq α] {d : Nat → α} {t : Tab α} {k : Nat} {v : α} {e : Nat × α} (h : e ∈ Tab.put d t k v) :
    e = (k, v) ∨ e ∈ t := by
  induction t with
  | nil =>
    rw [Tab.put] at h
    split at h
    · exact .inr h
    · exact .inl (List.mem_singleton.mp h)
  | cons x t ih =>
    have later : e ∈ t → e = (k, v) ∨ e ∈ x :: t := fun m => .inr (.tail _ m)
    rw [Tab.put] at h
    split at h
    · split at h
      · rcases List.mem_cons.mp h with rfl | h
        · exact .inr (.head _)
        · exact later (Tab.mem_drop h)
      · exact List.mem_cons.mp h
    · split at h
      · split at h
        · exact later (Tab.mem_drop h)
        · rcases List.mem_cons.mp h with rfl | h
          · exact .inl rfl
          · exact later h
      · rcases List.mem_cons.mp h with rfl | h
        · exact .inr (.head _)
        · exact (ih h).elim .inl later

theorem State.runningTasks_eq_nil {s : State} : s.runningTasks = [] ↔ ∀ e ∈ s.sch.task, e.2.running = false := by
  simp [State.runningTasks]

/-- A job that does not come to run leaves no task running. -/
theorem State.runningTasks_updTask {s : State} {i : Nat} {f : Task → Task} (none : s.runningTasks = []) (h : (f (s.task i)).running = false) :
    (s.updTask i f).runningTasks = [] := by
  rw [State.runningTasks_eq_nil] at none ⊢
  intro e mem
  rcases Tab.mem_put mem with rfl | mem
  · exact h
  · exact none e mem

/-! ### Registers of other blocks -/

/-- A field of another block than the field written, at any index. -/
theorem State.get_set_block (s : State) {f g : Field} (n m v : Nat) (hf : f.ok = true) (h : f.blk ≠ g.blk) :
    (s.set f n v).get g m = s.get g m := Regs.get_set_of_apart _ _ _ _ _ _ hf (.inl h)

/-- The fields from which the arm groups of a unit are told. -/
def unitFields : List Field :=
  [R.SYS_AG_CFG_EN, R.SYS_AG_CFG_FIRST_TL, R.SYS_AG_CFG_COUNT, R.SEP_CFG_EN, R.SEP_PB_ADDR_ADDR, R.SV_PB_ADDR_ADDR]

theorem State.unitMask_congr {s t : State} (gr : t.gr = s.gr) (h : ∀ f ∈ unitFields, ∀ m, t.get f m = s.get f m) (u : Nat) :
    t.unitMask u = s.unitMask u := by
  simp only [unitFields, List.forall_mem_cons] at h
  obtain ⟨en, first, count, sepEn, sepBase, base, -⟩ := h
  have word (w : Nat) : t.gr1 w = s.gr1 w := by rw [State.gr1, State.gr1, gr]
  have tillers (g : Nat) : t.groupTillers g = s.groupTillers g := by
    rw [State.groupTillers, State.groupTillers, State.bit_congr (en g), first, count]
  have groups (n : Nat) : t.groupMaskOf n = s.groupMaskOf n := by
    simp only [State.groupMaskOf, State.groupOf, tillers]
  have cell : t.svMask 8 = s.svMask 8 := by
    simp only [State.svMask, State.pbBits, State.pb, word, base]
  have arms : t.sepMask = s.sepMask := by rw [State.sepMask, State.sepMask, word, sepBase]
  rw [State.unitMask, State.unitMask, groups, groups, cell, arms, State.bit_congr (sepEn 0)]

end Sys2Proof.Machine

/-! PROOFS of the scheduler family. Releases (R299 to R301). -/
namespace Sys2Proof.Machine

/-! ### What a release does -/

/-- A release that finds no job makes one. -/
theorem State.release_free {s : State} {i : Nat} (tag head : Nat) (key : s.bit R.INJ_STAT_KEY_LOADED = false) (active : s.sch.active = true)
    (free : (s.task i).ready = none) : s.release i tag head = s.updTask i fun t =>
      { t with ready := some tag, head := head, since := s.tick, missed := false, lastRel := some tag } := by
  simp [State.release, active, State.inject_none s _ _ key, free]

/-- A release that finds a job is held. -/
theorem State.release_held {s : State} {i : Nat} (tag head : Nat) (key : s.bit R.INJ_STAT_KEY_LOADED = false) (active : s.sch.active = true)
    (busy : (s.task i).ready ≠ none) (free : (s.task i).held = none) :
    s.release i tag head = s.updTask i fun t => { t with held := some (tag, head), lastRel := some tag } := by
  simp [State.release, active, State.inject_none s _ _ key, busy, free]

/-- A release that finds a job and a held release is dropped. -/
theorem State.release_dropped {s : State} {i : Nat} (tag head : Nat) (key : s.bit R.INJ_STAT_KEY_LOADED = false)
    (active : s.sch.active = true) (busy : (s.task i).ready ≠ none) (held : (s.task i).held ≠ none) :
    s.release i tag head = s.dropRelease i false := by
  simp [State.release, active, State.inject_none s _ _ key, busy, held]

theorem State.dropRelease_task (s : State) (i j : Nat) (inj : Bool) : (s.dropRelease i inj).task j = s.task j :=
  State.task_congr (congrArg Sched.task ((State.dropRelease_only Sub.refl Sub.refl Only.refl).sch rfl)) j

/-- A dropped release is counted in DROPS of its task (R300). -/
theorem State.dropRelease_drops (s : State) {i : Nat} (inj : Bool) (hi : i < 4096) :
    (s.dropRelease i inj).get R.SCH_TASK_F_DROPS i = min (s.get R.SCH_TASK_F_DROPS i + 1) R.SCH_TASK_F_DROPS.top :=
  calc (s.dropRelease i inj).get R.SCH_TASK_F_DROPS i
    _ = ((s.inc R.SCH_TASK_F_DROPS i).inc R.SCH_COUNT_RELEASE_DROP).get R.SCH_TASK_F_DROPS i := State.postOnce_get ..
    _ = (s.inc R.SCH_TASK_F_DROPS i).get R.SCH_TASK_F_DROPS i := State.get_set_far _ _ _ _ _ _ (by decide) (by decide) hi
    _ = _ := s.get_inc _ _ hi (by decide)

/-! ### Cycle releases -/

theorem State.cycleRelease_due {s : State} {i : Nat} (running : s.grid.running = true) (counts : s.grid.cyc.isSome = true)
    (source : s.get R.SCH_TASK_A_RELEASE i = 2)
    (phase : s.cycle % max 1 (s.get R.SCH_TASK_D_MULT i) = s.get R.SCH_TASK_D_PHASE i) (offset : s.get R.SCH_TASK_D_OFFSET i ≤ s.intoCycle)
    (once : (s.task i).lastCycle ≠ some s.cycle) (active : s.sch.active = true) :
    s.cycleRelease i = (s.release i (s.grid.start + s.get R.SCH_TASK_D_OFFSET i) (s.grid.start + s.get R.SCH_TASK_D_OFFSET i)).updTask i
      fun t => { t with lastCycle := some s.cycle } :=
  if_pos (by simp [running, counts, source, phase, offset, once, active])

theorem State.cycleRelease_idle {s : State} {i : Nat} (h : s.grid.running = false ∨ s.get R.SCH_TASK_A_RELEASE i ≠ 2 ∨
    s.intoCycle < s.get R.SCH_TASK_D_OFFSET i ∨ (s.task i).lastCycle = some s.cycle ∨ s.sch.active = false) : s.cycleRelease i = s := by
  refine if_neg ?_
  rcases h with stopped | source | early | done | off
  · simp [stopped]
  · simp [source]
  · simp [Nat.not_le.mpr early]
  · simp [done]
  · simp [off]

/-! ### Demand releases -/

/-- A request that waits for nothing, with no release within MIN_GAP before it, releases at once. -/
theorem State.demandRelease_free {s : State} {i : Nat} (active : s.sch.active = true) (source : s.get R.SCH_TASK_A_RELEASE i = 4)
    (unasked : (s.task i).request = false) (gap : ∀ r, (s.task i).lastRel = some r → r + s.get R.SCH_TASK_D_MIN_GAP_US i * 125 ≤ s.tick) :
    s.demandRelease i = s.release i s.tick s.tick := by
  unfold State.demandRelease
  rw [if_neg (by simp [active, source, unasked])]
  split
  next => rfl
  next r last => exact if_pos (gap r last)

/-- A request before MIN_GAP has passed waits in its delay list (R301). -/
theorem State.demandRelease_early {s : State} {i r : Nat} (active : s.sch.active = true) (source : s.get R.SCH_TASK_A_RELEASE i = 4)
    (unasked : (s.task i).request = false) (last : (s.task i).lastRel = some r)
    (early : s.tick < r + s.get R.SCH_TASK_D_MIN_GAP_US i * 125) :
    s.demandRelease i = (s.updTask i fun t =>
      { t with request := true, listDue := some (s.now + (r + s.get R.SCH_TASK_D_MIN_GAP_US i * 125 - s.tick) * 8) }).showLists := by
  unfold State.demandRelease
  rw [if_neg (by simp [active, source, unasked]), last]
  exact if_neg (Nat.not_le.mpr early)

theorem State.demandRelease_idle {s : State} {i : Nat}
    (h : s.sch.active = false ∨ s.get R.SCH_TASK_A_RELEASE i ≠ 4 ∨ (s.task i).request = true) : s.demandRelease i = s := by
  refine if_pos ?_
  rcases h with off | source | waits
  · simp [off]
  · simp [source]
  · simp [waits]

theorem State.showLists_sch (s : State) : s.showLists.sch = s.sch :=
  (State.showLists_only Sub.refl Sub.refl Only.refl).sch rfl

end Sys2Proof.Machine

/-! PROOFS of the scheduler family. Dispatch on the reserved path and by the earliest-deadline stage (R302 to R305). -/
namespace Sys2Proof.Machine

/-! ### Dispatch -/

theorem State.startUnit_sch (s : State) (i : Nat) : (s.startUnit i).sch = s.sch :=
  (State.startUnit_only Sub.refl Sub.refl Only.refl).sch rfl

/-- The job of task `i` marked as running from this tick, and admitted no more. -/
def State.runJob (s : State) (i : Nat) : State :=
  let s := s.updTask i fun t => { t with running := true, start := s.tick }
  { s with sch := { s.sch with admitted := s.sch.admitted.filter fun j => !(j == i) } }

theorem State.dispatch_sch (s : State) (i : Nat) : (s.dispatch i).sch = (s.runJob i).sch := State.startUnit_sch ..

theorem State.dispatch_task (s : State) (i j : Nat) :
    (s.dispatch i).task j = (s.updTask i fun t => { t with running := true, start := s.tick }).task j :=
  State.task_congr (congrArg Sched.task (s.dispatch_sch i)) j

theorem State.dispatch_task_self (s : State) (i : Nat) : (s.dispatch i).task i = { s.task i with running := true, start := s.tick } :=
  (s.dispatch_task i i).trans (s.task_updTask i _)

theorem State.dispatch_task_of_ne (s : State) {i j : Nat} (h : j ≠ i) : (s.dispatch i).task j = s.task j :=
  (s.dispatch_task i j).trans (s.task_updTask_of_ne _ h)

theorem State.dispatch_admitted (s : State) (i : Nat) : (s.dispatch i).sch.admitted = s.sch.admitted.filter fun j => !(j == i) :=
  congrArg Sched.admitted (s.dispatch_sch i)

/-- A unit that is neither a Tiller nor an engine has no start of its own. -/
theorem State.startUnit_service {s : State} {i : Nat} (h : 0x49 ≤ s.target i) : s.startUnit i = s :=
  (if_neg (by omega)).trans (if_neg (by omega))

theorem State.dispatch_service {s : State} {i : Nat} (h : 0x49 ≤ s.target i) : s.dispatch i = s.runJob i :=
  State.startUnit_service (s := s.runJob i) h

/-! ### The reserved path -/

theorem State.tillerStart_til (s : State) (n : Nat) : ((s.tillerStart n).til n).running = true ∧ ((s.tillerStart n).til n).pc = 0 := by
  simp only [State.tillerStart, State.til, State.set_tl, State.updTil, Tab.get_upd_self, and_self]

theorem State.tillerStart_state (s : State) {n : Nat} (hn : n < 64) : (s.tillerStart n).get R.TL_STAT_STATE n = 2 :=
  State.get_set_of_lt _ _ _ _ hn (by decide) (by decide)

/-- A job of a Tiller starts the Tiller. -/
theorem State.dispatch_tiller {s : State} {i : Nat} (h : s.target i < 64) : ∃ u : State, s.dispatch i = u.tillerStart (s.target i) :=
  ⟨_, if_pos h⟩

/-- A reserved job dispatched within 96 ns of its release is late for no detector. -/
theorem State.reservedRound_punctual {s : State} {i : Nat} (key : s.bit R.INJ_STAT_KEY_LOADED = false) (reserved : s.reserved i = true)
    (can : s.canDispatch i = true) (soon : s.tick ≤ (s.task i).since + 12) : s.reservedRound i = s.dispatch i := by
  have late : ¬ 12 < s.tick - (s.task i).since := by omega
  simp [State.reservedRound, State.reservedDispatch, State.detect_off _ _ _ _ _ key, reserved, can, late]

theorem State.reservedRound_idle {s : State} {i : Nat} (h : s.reserved i = false ∨ s.canDispatch i = false) : s.reservedRound i = s := by
  refine if_neg ?_
  rcases h with served | busy
  · simp [served]
  · simp [busy]

/-! ### The earliest-deadline stage -/

theorem State.endServices_idle {s : State} (h : s.runningTasks = []) : s.endServices = s := by
  rw [State.endServices, h]
  rfl

/-- The job with the lesser deadline goes first, in whichever order the two were admitted. -/
theorem leastBy_pair {before : Nat → Nat → Bool} {i j : Nat} {l : List Nat} (order : l = [i, j] ∨ l = [j, i])
    (first : before i j = true) (second : before j i = false) : leastBy before l = some i := by
  rcases order with rfl | rfl
  · simp [leastBy, second]
  · simp [leastBy, first]

theorem State.edfBefore_of_deadline {s : State} {i j : Nat} (h : s.deadlineNs i < s.deadlineNs j) :
    s.edfBefore i j = true ∧ s.edfBefore j i = false := by
  constructor
  · simp [State.edfBefore, h]
  · simp [State.edfBefore, Nat.not_lt.mpr (Nat.le_of_lt h), Nat.ne_of_gt h]

/-- The jobs that an idle service unit can take. -/
def State.takeable (s : State) (u : Nat) : List Nat :=
  s.sch.admitted.filter fun j => decide (s.target j = u) && (s.task j).ready.isSome && s.flowFree j

theorem State.edfUnit_cases (s : State) (u : Nat) : s.edfUnit u = s ∨ ∃ j, s.edfUnit u = s.dispatch j := by
  unfold State.edfUnit
  split
  · exact .inl rfl
  · dsimp only
    split
    next j _ => exact .inr ⟨j, rfl⟩
    next => exact .inl rfl

theorem State.edfUnit_takes {s : State} {u j : Nat} (idle : s.unitBusy u = false) (least : leastBy s.edfBefore (s.takeable u) = some j) :
    s.edfUnit u = s.dispatch j := by
  unfold State.takeable at least
  simp [State.edfUnit, idle, least]

/-- A unit that no admitted job is for takes none. -/
theorem State.edfUnit_without {s : State} {u : Nat} (h : ∀ j ∈ s.sch.admitted, s.target j ≠ u) : s.edfUnit u = s := by
  have empty : s.takeable u = [] := List.filter_eq_nil_iff.mpr fun j mem => by simp [h j mem]
  unfold State.takeable at empty
  unfold State.edfUnit
  split
  · rfl
  · rw [empty]
    rfl

theorem State.edfUnit_admitted (s : State) (u : Nat) : (s.edfUnit u).sch.admitted.length ≤ s.sch.admitted.length := by
  rcases s.edfUnit_cases u with same | ⟨j, taken⟩
  · exact Nat.le_of_eq (congrArg (fun t : State => t.sch.admitted.length) same)
  · rw [taken, s.dispatch_admitted]
    exact List.length_filter_le ..

theorem State.letIn_admitted (s : State) : s.letIn.sch.admitted.length ≤ s.sch.admitted.length + 32 := by
  simp only [State.letIn, List.length_append, List.length_take]
  omega

/-- With no job running, the round is that of the three service units, and then admits. -/
theorem State.edfRound_idle {s : State} (h : s.runningTasks = []) :
    s.edfRound = (((s.edfUnit 0x4A).edfUnit 0x4B).edfUnit 0x4C).letIn := by
  rw [State.edfRound, State.endServices_idle h]
  rfl

/-- Of two jobs of the ring executor, the round dispatches the one with the lesser deadline. -/
theorem State.edfRound_pair {s : State} {i j : Nat} (idle : s.runningTasks = []) (order : s.sch.admitted = [i, j] ∨ s.sch.admitted = [j, i])
    (hi : s.target i = 0x4A) (hj : s.target j = 0x4A) (readyI : (s.task i).ready.isSome = true) (readyJ : (s.task j).ready.isSome = true)
    (flowI : s.bit R.SCH_TASK_A_FLOW_EN i = false) (flowJ : s.bit R.SCH_TASK_A_FLOW_EN j = false)
    (lesser : s.deadlineNs i < s.deadlineNs j) : s.edfRound = (s.dispatch i).letIn := by
  have both : ∀ k ∈ s.sch.admitted, s.target k = 0x4A ∧ (s.task k).ready.isSome = true ∧ s.flowFree k = true := by
    have ofI : s.target i = 0x4A ∧ (s.task i).ready.isSome = true ∧ s.flowFree i = true := ⟨hi, readyI, by simp [State.flowFree, flowI]⟩
    have ofJ : s.target j = 0x4A ∧ (s.task j).ready.isSome = true ∧ s.flowFree j = true := ⟨hj, readyJ, by simp [State.flowFree, flowJ]⟩
    rcases order with list | list <;> simp [list, ofI, ofJ]
  have all : s.takeable 0x4A = s.sch.admitted := List.filter_eq_self.mpr fun k mem => by simp [both k mem]
  obtain ⟨first, second⟩ := State.edfBefore_of_deadline lesser
  have taken : s.edfUnit 0x4A = s.dispatch i :=
    State.edfUnit_takes (by simp [State.unitBusy, idle]) (leastBy_pair (by rwa [all]) first second)
  have others (u : Nat) (hu : u ≠ 0x4A) : (s.dispatch i).edfUnit u = s.dispatch i := by
    refine State.edfUnit_without fun k mem => ?_
    have admitted : k ∈ s.sch.admitted := by
      rw [s.dispatch_admitted] at mem
      exact (List.mem_filter.mp mem).1
    rw [State.dispatch_service (by omega)]
    exact fun e => hu (e.symm.trans (both k admitted).1)
  rw [State.edfRound_idle idle, taken, others _ (by decide), others _ (by decide)]

end Sys2Proof.Machine

/-! PROOFS of the scheduler family. Scheduler ticks (R301). -/
namespace Sys2Proof.Machine

/-- The due entry of a TIMER whose task waits for nothing releases it, and advances by the period. -/
theorem State.listRelease_timer {s : State} {i d : Nat} (key : s.bit R.INJ_STAT_KEY_LOADED = false) (active : s.sch.active = true)
    (free : (s.task i).ready = none) (entry : (s.task i).listDue = some d) (due : d ≤ s.now) (timer : s.get R.SCH_TASK_A_RELEASE i = 3) :
    s.listRelease i = (s.updTask i fun t =>
      { t with ready := some s.tick, head := s.tick, since := s.tick, missed := false, lastRel := some s.tick }).updTask i fun t =>
        { t with listDue := some (d + s.get R.SCH_TASK_D_PERIOD_US i * 1000) } := by
  unfold State.listRelease
  rw [entry]
  dsimp only
  rw [if_neg (Nat.not_lt.mpr due), if_pos timer, State.release_free _ _ key active free]

/-- A scheduler tick taken for microsecond `us`, its tick noted among the samples. -/
def State.noteTick (s : State) (us : Nat) : State :=
  { s with sch := { s.sch with us, samples := (s.sch.samples ++ [s.tick]).drop ((s.sch.samples ++ [s.tick]).length - 8) } }

/-- The delay lists of a scheduler tick: every entry that is due is released, while the scheduler releases at all. -/
def State.runLists (s : State) : State :=
  if s.sch.active then ((s.sch.task.map fun e => e.1).foldl State.listRelease s).showLists else s

/-- What a scheduler tick does after the delay lists: jobs of service units end, the loads advance, and STk_RDY is sampled. -/
def State.afterLists (s : State) : State :=
  let s := s.endServices
  let s := ((s.runningTasks.map s.target) ++ (s.sch.busy.map fun e => e.1)).eraseDups.foldl State.loadTick s
  (List.range 16).foldl State.rdySample s

theorem State.schedTick_due {s : State} (due : s.now / 1000 ≠ s.sch.us) : s.schedTick = (s.noteTick (s.now / 1000)).runLists.afterLists := by
  unfold State.schedTick State.noteTick State.runLists State.afterLists
  exact if_neg due

theorem State.schedTick_idle {s : State} (h : s.now / 1000 = s.sch.us) : s.schedTick = s := if_pos h

/-- Loads and samples leave every task and the microsecond. -/
theorem State.afterLists_sch {s : State} (h : s.runningTasks = []) : s.afterLists.sch.task = s.sch.task ∧ s.afterLists.sch.us = s.sch.us := by
  have samples (u : State) : ((List.range 16).foldl State.rdySample u).sch = u.sch :=
    foldl_kept (fun u k => (State.rdySample_only (a1 := k) Sub.refl Sub.refl (Only.refl (s := u))).sch rfl) _ _
  unfold State.afterLists
  rw [State.endServices_idle h]
  dsimp only
  rw [samples]
  exact ⟨foldl_kept (f := State.loadTick) (v := fun u => u.sch.task) (fun _ _ => rfl) _ _,
    foldl_kept (f := State.loadTick) (v := fun u => u.sch.us) (fun _ _ => rfl) _ _⟩

/-- The delay lists of a tick, where the one task with a state is a TIMER that is due: it has its job, and nothing runs. -/
theorem State.runLists_timer {s : State} {i d : Nat} {x : Task} (key : s.bit R.INJ_STAT_KEY_LOADED = false) (active : s.sch.active = true)
    (one : s.sch.task = [(i, x)]) (still : x.running = false) (free : x.ready = none) (entry : x.listDue = some d) (due : d ≤ s.now)
    (timer : s.get R.SCH_TASK_A_RELEASE i = 3) :
    s.runLists.runningTasks = [] ∧ s.runLists.sch.us = s.sch.us ∧ (s.runLists.task i).ready = some s.tick ∧
      (s.runLists.task i).listDue = some (d + s.get R.SCH_TASK_D_PERIOD_US i * 1000) := by
  have task : s.task i = x := by rw [State.task, one, Tab.get, if_pos rfl]
  have nothing : s.runningTasks = [] := by simp [State.runningTasks, one, still]
  have released := State.listRelease_timer key active (task ▸ free) (task ▸ entry) due timer
  have run : s.runLists = (s.listRelease i).showLists := by
    rw [State.runLists, if_pos active, one]
    rfl
  have sch : s.runLists.sch = (s.listRelease i).sch := (congrArg State.sch run).trans (State.showLists_sch _)
  have job := State.task_congr (congrArg Sched.task sch) i
  rw [State.runningTasks, job, sch, released, State.task_updTask, State.task_updTask]
  refine ⟨?_, rfl, rfl, rfl⟩
  refine State.runningTasks_updTask (State.runningTasks_updTask nothing ?_) ?_
  · rw [task]
    exact still
  · rw [State.task_updTask, task]
    exact still

/-- The same at the tick itself, for any microsecond it is taken for. -/
theorem State.noteTick_runLists {s : State} {i d : Nat} {x : Task} (us : Nat) (key : s.bit R.INJ_STAT_KEY_LOADED = false)
    (active : s.sch.active = true) (one : s.sch.task = [(i, x)]) (still : x.running = false) (free : x.ready = none)
    (entry : x.listDue = some d) (due : d ≤ s.now) (timer : s.get R.SCH_TASK_A_RELEASE i = 3) :
    (s.noteTick us).runLists.runningTasks = [] ∧ (s.noteTick us).runLists.sch.us = us ∧
      ((s.noteTick us).runLists.task i).ready = some s.tick ∧
      ((s.noteTick us).runLists.task i).listDue = some (d + s.get R.SCH_TASK_D_PERIOD_US i * 1000) :=
  State.runLists_timer (s := s.noteTick us) key active one still free entry due timer

end Sys2Proof.Machine

/-! PROOFS of the scheduler family. Deadline misses (R306). -/
namespace Sys2Proof.Machine

/-- A miss noted and counted, before it is posted by the task's class. -/
def State.countMiss (s : State) (i : Nat) : State :=
  ((s.updTask i fun t => { t with missed := true }).inc R.SCH_TASK_F_MISSES i).inc R.SCH_COUNT_DEADLINE_MISS

theorem State.countMiss_misses (s : State) {i : Nat} (hi : i < 4096) :
    (s.countMiss i).get R.SCH_TASK_F_MISSES i = min (s.get R.SCH_TASK_F_MISSES i + 1) R.SCH_TASK_F_MISSES.top :=
  (State.get_set_far _ _ _ _ _ _ (by decide) (by decide) hi).trans (State.get_inc _ _ _ hi (by decide))

theorem State.countMiss_get (s : State) (i : Nat) {f : Field} {m : Nat} (misses : R.SCH_TASK_F_MISSES.far f = true)
    (count : R.SCH_COUNT_DEADLINE_MISS.far f = true) (hm : m < f.count) : (s.countMiss i).get f m = s.get f m :=
  (State.get_set_far _ _ _ _ _ _ (by decide) count hm).trans (State.get_set_far _ _ _ _ _ _ (by decide) misses hm)

theorem State.countMiss_class (s : State) {i : Nat} (hi : i < 4096) : (s.countMiss i).get R.SCH_TASK_A_CLASS i = s.get R.SCH_TASK_A_CLASS i :=
  s.countMiss_get i (by decide) (by decide) hi

theorem State.countMiss_target (s : State) {i : Nat} (hi : i < 4096) : (s.countMiss i).target i = s.target i :=
  s.countMiss_get i (f := R.SCH_TASK_A_TARGET) (by decide) (by decide) hi

theorem State.countMiss_unitMask (s : State) (i u : Nat) : (s.countMiss i).unitMask u = s.unitMask u := by
  refine State.unitMask_congr (s := s) (t := s.countMiss i) rfl (fun f hf m => ?_) u
  have other : Blk.sch ≠ f.blk := by
    revert f
    decide
  exact (State.get_set_block _ _ _ _ (by decide) other).trans (State.get_set_block _ _ _ _ (by decide) other)

/-- Posting and escalating a miss leave the scheduler and the registers. -/
theorem State.missed_kept (s : State) (i : Nat) (inj : Bool) :
    (s.missed i inj).sch = (s.countMiss i).sch ∧ (s.missed i inj).regs = (s.countMiss i).regs := by
  unfold State.missed
  dsimp only
  split <;> exact ⟨rfl, rfl⟩

/-- A miss of a RESERVED task is posted as a fault and escalated for the arm groups of its unit. -/
theorem State.missed_reserved {s : State} {i : Nat} (inj : Bool) (hi : i < 4096) (cls : s.get R.SCH_TASK_A_CLASS i = 0) :
    s.missed i inj = ((s.countMiss i).post Ev.schDeadline .fault (some i) [] true inj).fault (s.unitMask (s.target i)) .ss1 Ev.schDeadline
      (some i) := by
  have counted := (s.countMiss_class hi).trans cls
  rw [← s.countMiss_unitMask i, ← s.countMiss_target hi]
  unfold State.countMiss at counted ⊢
  simp only [State.missed, counted]

/-- A miss of a SERVED task is posted as a notice. -/
theorem State.missed_served {s : State} {i : Nat} (inj : Bool) (hi : i < 4096) (cls : s.get R.SCH_TASK_A_CLASS i = 1) :
    s.missed i inj = (s.countMiss i).post Ev.schDeadline .notice (some i) [] false inj := by
  have counted := (s.countMiss_class hi).trans cls
  unfold State.countMiss at counted ⊢
  simp only [State.missed, counted]

/-- A miss of a BACKGROUND task is counted only. -/
theorem State.missed_background {s : State} {i : Nat} (inj : Bool) (hi : i < 4096) (cls : s.get R.SCH_TASK_A_CLASS i = 2) :
    s.missed i inj = s.countMiss i := by
  have counted := (s.countMiss_class hi).trans cls
  unfold State.countMiss at counted ⊢
  simp only [State.missed, counted]

theorem State.deadlineMiss_due {s : State} {i : Nat} (key : s.bit R.INJ_STAT_KEY_LOADED = false) (active : s.sch.active = true)
    (waits : (s.task i).ready.isSome = true) (fresh : (s.task i).missed = false) (past : s.deadlineNs i < s.tick * 8) :
    s.deadlineMiss i = s.missed i false := by
  have waits' : (s.task i).ready.isNone = false := by simp [← Option.not_isSome, waits]
  simp [State.deadlineMiss, State.inject_none s _ _ key, active, waits', fresh, past]

theorem State.deadlineMiss_idle {s : State} {i : Nat} (h : s.sch.active = false ∨ (s.task i).ready = none ∨ (s.task i).missed = true ∨
    (s.bit R.INJ_STAT_KEY_LOADED = false ∧ s.tick * 8 ≤ s.deadlineNs i)) : s.deadlineMiss i = s := by
  unfold State.deadlineMiss
  rcases h with off | free | missed | ⟨key, early⟩
  · exact if_pos (by simp [off])
  · exact if_pos (by simp [free])
  · exact if_pos (by simp [missed])
  · rw [State.inject_none s _ _ key]
    exact ite_eq_left_iff.mpr fun _ => if_neg (Nat.not_lt.mpr early)

/-! ### The statement -/

/-- Settles O34, command by command. A command that is not due finds its guard false and leaves the state, which is the model's choice
(log entry 3). -/
theorem schedulerJobs : Obligations.SchedulerJobs := by
  unfold Obligations.SchedulerJobs
  refine ⟨fun i s key running counts source phase offset once active free => ?cycle,
    fun i s idle => congrArg Host.Outcome.next (State.cycleRelease_idle idle),
    fun i s key active source waits gap => ?demand, fun i r s active source waits last early => ?early,
    fun i s idle => congrArg Host.Outcome.next (State.demandRelease_idle idle),
    fun i s key reserved can tiller soon => ?reserved, fun i s idle => congrArg Host.Outcome.next (State.reservedRound_idle idle),
    fun i j s idle order hi hj readyI readyJ flowI flowJ lesser => ?round, fun s => ?admits,
    fun i x d s key due active one still free entry past timer => ?timer, fun s idle => congrArg Host.Outcome.next (State.schedTick_idle idle),
    fun i s key active waits fresh past => ?miss, fun i s idle => congrArg Host.Outcome.next (State.deadlineMiss_idle idle)⟩
  case cycle =>
    have run := (State.cycleRelease_due running counts source phase offset once active).trans
      (congrArg (State.updTask · _ _) (State.release_free _ _ key active free))
    refine ⟨_, congrArg Host.Outcome.next run, ?_⟩
    rw [State.task_updTask, State.task_updTask]
    exact ⟨rfl, rfl, rfl⟩
  case demand =>
    refine ⟨_, congrArg Host.Outcome.next (State.demandRelease_free active source waits gap), fun free => ?_, fun busy free => ?_,
      fun busy held => ?_⟩
    · rw [State.release_free _ _ key active free, State.task_updTask]
      exact ⟨rfl, rfl⟩
    · rw [State.release_held _ _ key active busy free, State.task_updTask]
      exact ⟨rfl, rfl⟩
    · rw [State.release_dropped _ _ key active busy held]
      exact ⟨s.dropRelease_task .., s.dropRelease_drops _ i.isLt⟩
  case early =>
    refine ⟨_, congrArg Host.Outcome.next (State.demandRelease_early active source waits last early), ?_⟩
    rw [State.task_congr (congrArg Sched.task (State.showLists_sch _)), State.task_updTask]
    exact ⟨rfl, rfl, rfl⟩
  case reserved =>
    obtain ⟨u, start⟩ := State.dispatch_tiller tiller
    obtain ⟨runs, pc⟩ := u.tillerStart_til (s.target i.val)
    have task := s.dispatch_task_self i.val
    refine ⟨_, congrArg Host.Outcome.next (State.reservedRound_punctual key reserved can soon), congrArg Task.running task,
      congrArg Task.start task, ?_⟩
    rw [start]
    exact ⟨runs, pc, u.tillerStart_state tiller⟩
  case round =>
    have run := State.edfRound_pair idle order hi hj readyI readyJ flowI flowJ lesser
    have task := s.dispatch_task_self i
    have other : j ≠ i := fun e => Nat.lt_irrefl _ (e ▸ lesser)
    exact ⟨_, congrArg Host.Outcome.next run, congrArg Task.running task, congrArg Task.start task, s.dispatch_task_of_ne other⟩
  case admits =>
    refine ⟨_, rfl, fun idle => ?_⟩
    rw [State.edfRound_idle idle]
    have first := s.edfUnit_admitted 0x4A
    have second := (s.edfUnit 0x4A).edfUnit_admitted 0x4B
    have third := ((s.edfUnit 0x4A).edfUnit 0x4B).edfUnit_admitted 0x4C
    have last := (((s.edfUnit 0x4A).edfUnit 0x4B).edfUnit 0x4C).letIn_admitted
    omega
  case timer =>
    obtain ⟨nothing, us, ready, listDue⟩ := State.noteTick_runLists (s.now / 1000) key active one still free entry past timer
    obtain ⟨task, same⟩ := State.afterLists_sch nothing
    refine ⟨_, congrArg Host.Outcome.next (State.schedTick_due due), same.trans us, ?_⟩
    rw [State.task_congr task]
    exact ⟨ready, listDue⟩
  case miss =>
    obtain ⟨sch, regs⟩ := s.missed_kept i.val false
    refine ⟨_, congrArg Host.Outcome.next (State.deadlineMiss_due key active waits fresh past), ?_, ?_, fun cls => ?_, fun cls => ?_,
      fun cls => ?_⟩
    · exact congrArg Task.missed ((State.task_congr (congrArg Sched.task sch) _).trans (s.task_updTask ..))
    · exact (State.get_congr regs ..).trans (s.countMiss_misses i.isLt)
    · rw [State.missed_reserved _ i.isLt cls, State.fault_posted, State.post, State.fault, List.getLast?_concat, List.getLast?_concat]
      exact ⟨rfl, rfl⟩
    · rw [State.missed_served _ i.isLt cls, State.post, List.getLast?_concat]
      exact ⟨rfl, rfl⟩
    · rw [State.missed_background _ i.isLt cls]
      exact ⟨rfl, rfl⟩

end Sys2Proof.Machine
